-- ==== Sys2Proof/Word.lean ====
section
/-! DEFINITION. The word types: what spec/ treats as bits (R12, R64): registers of 64 bits, lines of 64 bytes, bytes. -/

namespace Sys2Proof

/-- A register, a table word, an operand word (R12). -/
abbrev Word64 := BitVec 64

/-- A byte of a frame's payload. -/
abbrev Byte := BitVec 8

/-- A 64-byte line of pool data (R5, R64). -/
abbrev Line := BitVec 512

/-- A MAC address. -/
abbrev Mac := BitVec 48

end Sys2Proof
end

