-- ==== Sys2Proof/Syntax.lean ====
section
/-! DEFINITION. The commands the block takes: one constructor of `Instr` per row of spec/opcode_table.json, with the
operands the row needs (an address, a value, a frame, what the environment measured). The rows give no bits, so the
operands are named after what the chapters of spec/ say arrives with the happening. -/

namespace Sys2Proof

/-- The two twins (R1, R13). -/
inductive Twin where
  | a | b
  deriving DecidableEq, Repr

/-- An IPv4 or IPv6 address as R130 lays it out: family bit, upper and lower 64 bits. -/
structure IpAddr where
  v6 : Bool
  hi : Word64
  lo : Word64
  deriving DecidableEq, Repr

/-- Destination MAC of a received frame, in the classes R129 tells apart. -/
inductive DstMac where
  | uni (m : Mac)
  | broadcast
  | solicitedNode (a : IpAddr)
  | ptpMulticast
  | other
  deriving DecidableEq, Repr

/-- Transport type of a BTH (R141). -/
inductive Transport where
  | rc | udQp1 | cnp | other
  deriving DecidableEq, Repr

/-- A RoCE v2 packet (R149): BTH fields and the extension headers its opcode carries. -/
structure Packet where
  transport : Transport
  opcode : Nat
  destQpn : Nat
  psn : Nat
  ackReq : Bool
  rkey : BitVec 32
  va : Nat
  dmaLen : Nat
  imm : BitVec 32
  compare : Word64
  swapAdd : Word64
  flushPersist : Bool
  syndrome : Nat
  payload : List Byte
  deriving DecidableEq, Repr

/-- What a connection-management REQ carries, and the context fields that firmware fills from it (R142, R145, R186).
spec/ does not say how firmware chooses the receive mode and the ring, so they come with the command. -/
structure CmReq where
  privData : List Byte
  pmtu : Nat
  initiatorDepth : Nat
  hostQpn : Nat
  startPsn : Nat
  devicePsn : Nat
  ackTimeout : Nat
  retryCnt : Nat
  rnrRetry : Nat
  hopLimit : Nat
  flowLabel : Nat
  udpSport : Nat
  addrEntry : Nat
  recvMode : Nat
  slotLog2 : Nat
  countLog2 : Nat
  ringKey : Nat
  ringBase : Word64
  deriving DecidableEq, Repr

/-- Connection-management messages a host sends to QP1 (R142). -/
inductive CmMsg where
  | req (r : CmReq)
  | rtu (qpn : Nat)
  | dreq (qpn : Nat)
  | drep (qpn : Nat)
  | other
  deriving DecidableEq, Repr

/-- The 56-byte payload of a sideband heartbeat with its tag (R337). -/
structure SbFrame where
  twin : Twin
  linkUp : Bool
  fenced : Bool
  flushing : Bool
  seq : Nat
  tbNs : Nat
  pairGen : Nat
  confirmed : Nat
  bootCount : Nat
  tag : List (BitVec 8)
  deriving DecidableEq, Repr

/-- What a received frame holds, in the classes of R129. -/
inductive FrameBody where
  | pfc (quanta : List (Nat × Nat))
  | pause (quanta : Nat)
  | arp (request : Bool) (sender target : IpAddr) (senderMac : Mac)
  | neighbour (solicit : Bool) (target : IpAddr) (senderMac : Mac)
  | ptp (event : Bool) (offset : Int)
  | sideband (f : SbFrame)
  | roce (src dst : IpAddr) (srcMac : Mac) (p : Packet) (cm : Option CmMsg)
  | other
  deriving DecidableEq, Repr

/-- A frame as a host port receives it (R120): its length from destination address to FCS, whether the FCS is good,
its tag, its DSCP and ECN fields and whether its IP header is whole (R129). -/
structure Frame where
  len : Nat
  fcsOk : Bool
  dst : DstMac
  tagged : Bool
  pcp : Nat
  vlan : Nat
  dscp : Nat
  ecn : Nat
  ipOk : Bool
  body : FrameBody
  deriving DecidableEq, Repr

/-- The header of a Swidun frame with its tag (R326), and what the receiver found: whether its codewords are good. -/
structure LinkHdr where
  vc : Nat
  final : Bool
  keysel : Bool
  nak : Bool
  slots : Nat
  fseq : Nat
  ack : Nat
  vseq : Nat
  credit0 : Nat
  credit1 : Nat
  credit2 : Nat
  credit3 : Nat
  epoch : Nat
  codewordOk : Bool
  tag : List (BitVec 8)
  deriving DecidableEq, Repr

/-- A record of an epoch (R350). -/
inductive EpochRec where
  | line (tenant : Nat) (line : Nat) (poison : Bool) (data : Line)
  | discard (firstPage : Nat) (count : Nat)
  | qpCtx (qpn : Nat) (words : List (Nat × Word64))
  | prot (table : Nat) (index : Nat) (seq : Nat) (entry : List Word64)
  | chain (ops : Bool) (index : Nat) (entry : List Word64)
  | chainData (chain : Nat) (offset : Nat) (data : List Byte)
  | addr (port : Nat) (entry : Nat) (words : List Word64)
  | config (page : Nat) (off : Nat) (value : Word64)
  | owner (region : Nat) (newOwner : Twin)
  | wused (tenant : Nat) (bytes : Nat)
  | opDone (qpn : Nat) (psn : Nat) (seg : Nat) (result : Word64)
  deriving DecidableEq, Repr

/-- The SEAL payload (R351). -/
structure SealMsg where
  closeTb : Nat
  lastVc1 : Nat
  lastResync : Option Nat
  dirtyBytes : Nat
  dirtyPages : Nat
  dirtyPagesMax : Nat
  budgetMib : Nat
  windowClosed : Bool
  final : Bool
  early : Bool
  drill : Bool
  noStamps : Bool
  minStamp : Nat
  protSeq : Nat
  maxRegions : Nat
  deriving DecidableEq, Repr

/-- The HANDSHAKE payload (R343). -/
structure HandshakeMsg where
  twin : Twin
  kind : Nat
  bootCount : Nat
  pairGen : Nat
  confirmed : Nat
  part : Nat
  layout : Nat
  epochNs : Nat
  hbMiss : Nat
  fencePref : Nat
  ownedRegions : Bool
  fenced : Bool
  changeMapValid : Bool
  serving : Bool
  regions : Nat
  vc1Credit : Nat
  maxRegions : Nat
  firstEpochTb : Nat
  changeMapEpoch : Nat
  vc2Credit : Nat
  vc3Credit : Nat
  deriving DecidableEq, Repr

/-- Operations a home forwards (R346). -/
inductive FwdOp where
  | read | write | cas | fadd | atomicWrite | protWrite | discard | stop
  deriving DecidableEq, Repr

/-- A forwarded operation (R346). -/
structure FwdReqMsg where
  qpn : Nat
  psn : Nat
  seg : Nat
  op : FwdOp
  cls : Nat
  first : Bool
  last : Bool
  poolOff : Nat
  tenant : Nat
  len : Nat
  data : List Byte
  a : Word64
  b : Word64
  entry : List Word64
  deriving DecidableEq, Repr

/-- Status of a forwarded operation (R346). -/
inductive FwdStatus where
  | done | poison | notOwner | rnr (cause : Nat)
  deriving DecidableEq, Repr

/-- The answer to a forwarded operation (R346). -/
structure FwdRespMsg where
  qpn : Nat
  psn : Nat
  seg : Nat
  status : FwdStatus
  data : List Byte
  result : Word64
  deriving DecidableEq, Repr

/-- A RESYNC frame (R359): a quarter of a page, or the standby's change list. -/
inductive ResyncMsg where
  | quarter (page : Nat) (tenant : Nat) (zero : Bool) (lastOfRegion : Bool) (q : Nat) (lines : List Line)
  | changeList (chunks : List Nat)
  deriving DecidableEq, Repr

/-- A HEARTBEAT (R353). -/
structure HeartbeatMsg where
  confirmed : Nat
  pairGen : Nat
  fenced : Bool
  flushing : Bool
  takingOver : Bool
  standby : Bool
  deriving DecidableEq, Repr

/-- A TIME frame (R335): departure stamp and the arrival stamp of the last TIME frame the sender received, both in
1/256 ns, with this side's own arrival stamp of the frame. -/
structure TimeMsg where
  depart : Nat
  lastArrival : Nat
  arrived : Nat
  deriving DecidableEq, Repr

/-- A HELLO (R331). -/
structure HelloMsg where
  bootCount : Nat
  linkCount : Nat
  twin : Twin
  gen : Nat
  tag : List (BitVec 8)
  deriving DecidableEq, Repr

/-- A Rister command of eight words (R59). -/
structure RqCmd where
  w0 : Word64
  w1 : Word64
  w2 : Word64
  w3 : Word64
  w4 : Word64
  w5 : Word64
  w6 : Word64
  w7 : Word64
  deriving DecidableEq, Repr

/-- Outcome of decoding a line's check bits (R368, R369): a correction may name a device (R381); `otherLine`: the line read is that of
another address, another frame of the channel and line, or another Hearth line (R370). -/
inductive Ecc where
  | good
  | corrected (device : Option Nat)
  | uncorrectable
  | otherLine (frame : Nat) (line : Nat)
  deriving DecidableEq, Repr

/-- What a scrubber reads: a Hearth line, or a line of a frame of a DRAM channel (R379). -/
inductive ScrubTarget where
  | hearth (line : Nat)
  | dram (channel : Nat) (frame : Nat) (line : Nat)
  deriving DecidableEq, Repr

/-- A scrubber: the Hearth's or a DRAM channel's (R380). -/
inductive Scrubber where
  | hearth
  | dram (channel : Nat)
  deriving DecidableEq, Repr

/-- Why a port left UP (HPT.LINK_STAT.DOWN_CAUSE, R135). -/
inductive PortDownCause where
  | signalLoss | alignLoss | localFault | highSer
  deriving DecidableEq, Repr

/-- Why a strand leaves UP (R325), for the causes the lanes or the firmware find. -/
inductive StrandCause where
  | signalLoss | retryExc | tag
  deriving DecidableEq, Repr

/-- JTAG instructions (R445). -/
inductive JtagInstr where
  | bypass | idcode | samplePreload | extest | extestPulse | extestTrain | clamp | highz
  deriving DecidableEq, Repr

/-- The 512-byte header of a firmware image and what its checks find (R409, R419). -/
structure ImageInfo where
  formatOk : Bool
  keyDigestOk : Bool
  signatureOk : Bool
  version : BitVec 32
  secVersion : Nat
  raiseFloor : Bool
  length : Nat
  sectionsInside : Bool
  digestsOk : Bool
  deriving DecidableEq, Repr

/-- One measured sample of the thermal inputs (R481 to R486): the hottest node, the model's temperature before the
limits' addition, the inlet, the model at the two reference diodes, these diodes and the four remote diodes (none: open or shorted), in 1/16 °C. -/
structure ThermalIn where
  hotNode : Nat
  tj16 : Int
  inlet16 : Int
  m0 : Int
  m1 : Int
  ref0 : Option Int
  ref1 : Option Int
  d0 : Option Int
  d1 : Option Int
  d2 : Option Int
  d3 : Option Int
  deriving DecidableEq, Repr

/-- A NAND die that answers at start-up (R263, R264): its position, which copies of its parameter page have a valid CRC, a number for its
manufacturer, model and revision, whether it has the properties of R263 that no register shows, its geometry as MED.GEOM lays it out and
its rated cycles. -/
structure NandDie where
  pos : Nat
  copies : List Bool
  ident : Nat
  supported : Bool
  geom : Word64
  rated : Nat
  deriving DecidableEq, Repr

/-- What the enumeration of a NAND channel finds (R264, R265): the dies that answer, the outcome of each attempt at training, highest speed
first, whether in Toggle mode. -/
structure NandFound where
  channel : Nat
  dies : List NandDie
  trained : List Bool
  toggle : Bool
  deriving DecidableEq, Repr

/-- The SPD of a DIMM in slot 1 (R241): its serial number and its type, capacity, width, ranks and stack height as DCH.POP lays them out. -/
structure Spd where
  serial : Nat
  pop : Word64
  deriving DecidableEq, Repr

/-- What a start-up step finds when it ends (R424, R426): whether a march test found a fault, the images in both blocks and on
the recovery flash, the NAND channels, whether the flush manifest is valid, the flush units that cannot be read, the units of superblocks
that were open that cannot (R289 step 5), the boot store blocks whose erase was interrupted (R415: an erase is one command here, so which
are found comes with the step), the erased blocks found half-erased, the level of the TWIN_SEL strap (R408 step 1: false A, true B). -/
structure StepResult where
  scratchFault : Bool
  image0 : ImageInfo
  image1 : ImageInfo
  recoveryImage : Option ImageInfo
  nand : List NandFound
  manifestOk : Bool
  lostUnits : List Nat
  openErases : List Nat
  halfErased : List (Nat × Nat)
  twinSel : Bool := false
  badUnits : List Nat := []
  deriving DecidableEq, Repr

/-- What an access does at a scratchpad bank (R434). -/
inductive SpKind where
  | read
  | write (value : Word64)
  | add (value : Word64)
  | swap (value : Word64)
  deriving DecidableEq, Repr

/-- What a control core meets that may halt it (R430, R434, R435, R438): an exception; a read of an uncorrectable scratchpad word; an
access to a scratchpad word. The byte address comes beside it. -/
inductive CoreCause where
  | exception
  | uncorrectable
  | access (kind : SpKind)
  deriving DecidableEq, Repr

/-- The data of one write to the register file: its first 64-bit access, and those that follow where it is wider (R43). -/
structure WriteData where
  first : Word64
  more : List Word64
  deriving DecidableEq, Repr

/-- What comes of the DRAM read of a line: what its decode finds, and the leaf switches that delivered it poisoned, one after the other
(R20, R374). -/
structure LineRead where
  ecc : Ecc
  flits : List Nat
  deriving DecidableEq, Repr

/-- THE COMMANDS: one constructor per row of spec/opcode_table.json, in the table's order. -/
inductive Instr where
  -- registers and the common page header (02_control_plane.md)
  | registerWrite (off : Nat) (width : Nat) (value : WriteData)
  | rcFieldRead (off : Nat) (width : Nat)
  | pgQuiesce (page : Nat)
  | pgResume (page : Nat)
  | quiesceDone (page : Nat)
  | pgLock (page : Nat)
  | pgSoftRst (page : Nat)
  | softRstDone (page : Nat)
  | pgEnable (page : Nat)
  | pgDisable (page : Nat)
  | pgEvtClear (page : Nat) (mask : Word64)
  | pgEvtEnWrite (page : Nat) (mask : Word64)
  | pgEvtSet (page : Nat) (mask : Word64)
  | msixUnmask (vector : Nat)
  | rqEnable (q : Nat) (value : Word64)
  | rqDisable (q : Nat)
  | rqDoorbell (q : Nat) (tail : Nat)
  | rqCqHeadWrite (q : Nat) (head : Nat)
  | commandFetch (q : Nat) (cmd : RqCmd)
  | dmaCompletionTimeout (q : Nat) (fetch : Bool) (data : List Word64)
  | nop (q : Nat)
  | tableRead (q : Nat)
  | tableWrite (q : Nat) (data : List Word64)
  | tableInfo (q : Nat)
  | regWriteBatch (q : Nat) (data : List Word64)
  -- the Hearth store (03_hearth_store.md)
  | partitionApply
  | partApplied
  | damperSample (bank64ths : Nat)
  | frameReceived (port : Nat) (frame : Frame)
  | frameTxEnd (port : Nat) (gatherBad : Bool) (ecnDraw : Nat)
  | contextLoad (qpn : Nat)
  -- the cache (04_hearth_cache.md)
  | setStall (set : Nat)
  | fillLands (line : Nat) (found : LineRead) (twinLine : Option Line)
  | flueWritebackDone (line : Nat)
  | cacheDrain
  | cacheEnable
  | hcaFlush (q : Nat)
  | hcaInvalidate (q : Nat)
  -- host ports (05_host_ports.md)
  | autonegResolved (port : Nat)
  | anAttemptFail (port : Nat)
  | trainingDone (port : Nat)
  | trainFail (port : Nat)
  | linkUp (port : Nat)
  | linkDown (port : Nat) (cause : PortDownCause)
  | remoteFault (port : Nat)
  | remoteFaultClear (port : Nat)
  | fecWindow (port : Nat) (corrCw uncorrCw corrSym : Nat)
  | pfcFrame (port : Nat)
  | pauseExpiry (port : Nat) (prio : Nat)
  | xoffRefresh (port : Nat) (prio : Nat)
  | pauseStorm (port : Nat) (prio : Nat)
  | stormClear (port : Nat) (prio : Nat)
  | arpFrame (port : Nat)
  | neighbourFrame (port : Nat)
  | announce (port : Nat) (addr : IpAddr)
  | ptpFrame (port : Nat)
  -- connection management and transport (06_rdma_transport.md)
  | req (port : Nat)
  | rtu (port : Nat)
  | dreq (port : Nat)
  | drep (port : Nat)
  | disconnectTimeout (qpn : Nat)
  | send (port : Nat)
  | rdmaWrite (port : Nat)
  | rdmaReadRequest (port : Nat)
  | atomicCompareAndSwap (port : Nat)
  | atomicFetchAndAdd (port : Nat)
  | atomicWrite (port : Nat)
  | flush (port : Nat)
  | acknowledge (port : Nat)
  | sendAckTimeout (qpn : Nat)
  | sendRnrRetry (qpn : Nat)
  | cnpReceived (port : Nat)
  | alphaDecay (qpn : Nat)
  | rateIncrease (qpn : Nat)
  -- keys (07_keys_protection.md)
  | keyEntryLoad (key : Nat)
  | keyDrainWait (q : Nat)
  | drainSlow
  -- trigger chains (08_trigger_chains.md)
  | copy (chain : Nat)
  | atomic (chain : Nat)
  | persist (chain : Nat)
  | notify (chain : Nat)
  -- tiers (09_pool_tiers.md)
  | fetchDone (page : Nat) (good : Bool) (twinPage : Option (List Line))
  | destageAge (page : Nat)
  | destageDone (page : Nat)
  | poolResize (regions : Nat)
  | poolResized
  | dirtyBudgetWrite (mib : Nat)
  | tirDiscard (q : Nat)
  | tirPromote (q : Nat)
  | tirDemote (q : Nat)
  | tirPin (q : Nat)
  -- DRAM (10_dram.md)
  | trainDone (channel : Nat) (pop : Word64) (serial0 : Nat) (dimm1 : Spd) (trained : List Bool)
  | dramCommandIssue (sub : Nat) (ready : List Nat)
  | refresh (channel : Nat) (rank : Nat)
  | dimmSensorRead (channel : Nat) (slot0 slot1 : Nat)
  | selfRefreshEntry (channel : Nat)
  | selfRefreshExit (channel : Nat)
  | driftCheck (channel : Nat) (sub : Nat) (driftPs : Nat)
  | retrainDone (channel : Nat) (trained : List Bool)
  | sbFault (channel : Nat) (slot : Nat)
  | migrationPage (channel : Nat) (bad : List Nat) (twin : List (Nat × Line))
  | dchRetrain (q : Nat)
  | dchRetire (q : Nat)
  | dchSbRead (q : Nat) (answer : Option (List Byte))
  -- media (11_media.md)
  | programDone (addr : Nat) (ns : Nat)
  | programFail (addr : Nat)
  | eraseDone (group : Nat) (block : Nat) (ns : Nat)
  | eraseFail (channel : Nat) (die : Nat) (plane : Nat) (block : Nat)
  | dieTimeout (channel : Nat) (die : Nat)
  | unitReadDone (addr : Nat) (ns : Nat) (steps : Nat) (soft : Bool) (corrBits : Nat) (good : Bool)
  | journalUnit
  | ckptSeg
  | capacityRecompute
  | probeInterval
  | probeDone (unitsPerSec : Nat) (conc : Nat) (rateSum : Nat)
  | flushRateRescale (rateSum : Nat)
  | wearLevel
  | patrol (group : Nat) (block : Nat) (bad : List Nat)
  | reserveVerify (halfErased : List (Nat × Nat))
  | dieTempRead (channel : Nat) (hottest : Int)
  | caseSourceSilent (channel : Nat)
  | medProbeRun (q : Nat)
  | medDieRetire (q : Nat)
  -- durability (12_durability_power_loss.md)
  | powerFailWarning
  | finalWaitExpiry
  | flushDone
  | flushPowerCheck (meanW : Nat)
  | durStop (q : Nat)
  | stopped
  | durAcceptLoss (q : Nat)
  | holdupMsWrite (ms : Nat)
  | holdupWWrite (w : Nat)
  -- the Swidun link (13_swidun_link.md)
  | strandTrained (strand : Nat) (lanes : List Nat)
  | hello (strand : Nat) (m : HelloMsg)
  | strandDown (strand : Nat) (cause : StrandCause)
  | linkFecWindow (strand : Nat) (corrCw uncorrCw : Nat)
  | strandRetrain (strand : Nat)
  | strandDisable (strand : Nat)
  | strandEnable (strand : Nat)
  | credit (strand : Nat) (h : LinkHdr)
  | creditSend (strand : Nat)
  | linkRetryTimeout (strand : Nat)
  | epochData (strand : Nat) (h : LinkHdr) (recs : List EpochRec)
  | sealFrame (strand : Nat) (h : LinkHdr) (m : SealMsg)
  | epochApplied
  | sealAck (strand : Nat) (h : LinkHdr)
  | epochClose
  | fwdReq (strand : Nat) (h : LinkHdr) (m : FwdReqMsg)
  | fwdResp (strand : Nat) (h : LinkHdr) (m : FwdRespMsg)
  | resync (strand : Nat) (h : LinkHdr) (m : ResyncMsg)
  | heartbeat (strand : Nat) (h : LinkHdr) (m : HeartbeatMsg)
  | heartbeatSend
  | hbLoss
  | time (strand : Nat) (h : LinkHdr) (m : TimeMsg)
  | timeExchange
  | keyNext (strand : Nat) (h : LinkHdr) (gen : Nat)
  | keyRotate
  | rotationTimeout (strand : Nat)
  | handshake (strand : Nat) (h : LinkHdr) (m : HandshakeMsg)
  | handshakeRepeat
  | soloWaitExpiry
  | sidebandSend
  | sidebandFrame (port : Nat)
  | sbLost
  | pairConfigWrite (page : Nat) (off : Nat) (value : Word64)
  | mirRebalance (q : Nat)
  | mirReturn (q : Nat)
  | mirDrill (q : Nat)
  | mirTakeover (q : Nat)
  -- integrity (15_integrity.md)
  | scrubRead (target : ScrubTarget) (ecc : Ecc) (twinLine : Option Line)
  | lapOverdue (scrubber : Scrubber)
  | dramFill (gib : Nat)
  | intInject (q : Nat)
  -- the cipher (16_cipher.md)
  | cphKekSet (q : Nat) (data : List Word64)
  | cphKekRoll (q : Nat) (data : List Word64)
  | cphKeyLoad (q : Nat) (data : List Word64)
  | cphKeyClear (q : Nat)
  | cphSeal (q : Nat) (data : List Byte)
  | cphUnseal (q : Nat) (data : List Byte)
  -- start-up, resets and the boot store (17_startup_update.md, 20_power_thermal_package.md)
  | powerOn
  | railPowerGood (rail : Nat)
  | sequenceTimeout
  | sequencerHold
  | startStepDone (r : StepResult)
  | resetPin
  | reset (value : Word64)
  | perst
  | recoveryCopy (addr : Word64) (img : Option ImageInfo)
  | bflBegin (q : Nat)
  | bflWrite (q : Nat) (data : List Word64)
  | bflVerify (q : Nat) (img : ImageInfo)
  | bflActivate (q : Nat)
  | bflSave (q : Nat)
  | bflForget (q : Nat)
  | confirm (key : Nat)
  | trialWatchdog
  -- control complex and management interfaces (18_control_complex.md)
  | coreHalted (core : Nat) (cause : CoreCause) (addr : Nat)
  | coreWatchdog
  | marchTest (bank : Nat)
  | marchDone (bank : Nat) (fault : Bool)
  | retentionEntry (bank : Nat)
  | retentionWake (bank : Nat)
  | spiWrite (cmd : BitVec 32) (value : Word64) (extraEdges : Bool)
  | spiRead (cmd : BitVec 32) (onTime : Bool) (extraEdges : Bool)
  | spiSelectRelease
  | setOffset (bytes : List Byte) (pecOk : Bool)
  | read (bytes : Nat)
  | write (bytes : List Byte) (pecOk : Bool)
  | smbusTimeout
  | i3cIbi (device : Nat)
  | jtagInstruction (instr : JtagInstr)
  | pcieLinkUp (gen : Nat) (width : Nat)
  | pcieDown
  -- observability (19_observability.md)
  | eventRecord
  | recordClose
  | freeze
  | freezeRelease
  | freezeExpired
  | eventExport
  | expHeadWrite (sample : Bool) (head : Nat)
  | evrEmberRead (q : Nat)
  | snap
  | clear
  | sampleExport
  -- power and thermal (20_power_thermal_package.md, 01_architecture.md)
  | paceUpdate (rings : List Nat)
  | thermalSample (t : ThermalIn)
  | hardwareTrip
  | opSample (bytesMoved : Nat)
  | opWrite (value : Word64)
  | familyReached
  | avsTimeout
  | railCheck (mv : List Nat)
  | powerGoodLoss (rail : Nat)
  | pfwGlitch
  | inputPowerSample (vin10mv : Nat) (watts : Nat)
  | railCurrentPoll (ma : List (Option Nat))
  | lifeHour
  -- the rows that stand last in the table
  | resyncCopy (page : Nat) (q : List Line)
  | pacerRelease (qpn : Nat)
  | retrainShortDone (sub : Nat)
  | dramAlert (channel : Nat) (sub : Nat) (writeCrc : Bool)
  | strandDisableTimeout (strand : Nat)
  | marchSegmentDone (bank : Nat)
  deriving DecidableEq, Repr

end Sys2Proof
end

