-- ==== Sys2Proof/Decode.lean ====
section
/-! DEFINITION. The commands that words spell. No row of spec/opcode_table.json gives its command any bits, so no word
spells one. -/

namespace Sys2Proof

/-- The command a word of `nbits` bits spells by the table's bits: none, for every row. -/
def decodeTableWord (nbits w : Nat) : Option Instr :=
  match nbits, w with
  | _, _ => none

end Sys2Proof
end

