-- ==== Sys2Proof/Config.lean ====
section
/-! DEFINITION. What one device is made with (straps, fused values) and the values spec/ leaves open. Every constant here
is opaque: nothing in Lean evaluates it, so a claim holds whatever it is. -/

namespace Sys2Proof.Config

/-- Silicon revision (R51). -/
opaque siliconRev : BitVec 4

/-- Screening grade is long-life, L (R6, R51). -/
opaque gradeL : Bool

/-- Base MAC address of the device (R119). -/
opaque baseMac : BitVec 48

/-- The serial number of the device (R427). -/
opaque serial : BitVec 64

/-- A value spec/ leaves open, drawn fresh at each use of the state's counter: a random number, an unstated result. -/
opaque freeWord : Nat → BitVec 64

/-- Fresh 256-bit random values (device-generated keys, R391, R398). -/
opaque freeKey : Nat → BitVec 256

/-- Voltage the flush or sequencer measurements are not bound to: an open Nat, fresh at each use. -/
opaque freeNat : Nat → Nat

/-- The TEST_MODE strap (R445). -/
opaque testMode : Bool

/-- CCX.LOAD by time (ns): how busy the cores are, spec/ does not say (R429). -/
opaque coreLoad : Nat → BitVec 64

/-- How long before a time (ns) the watchdog's count was last restarted, in ms: spec/ bounds it by a quarter of the count (R431). -/
opaque wdPhase : Nat → Nat

/-- Whether the IP headers of the RoCE frames this U96 sends carry ECT (R127 marks only those that do). -/
opaque ectSent : Bool

/-- Whether a line of another address passes a code that takes in the address, where R370 promises its detection with a probability only. -/
opaque addressMissed : Nat → Nat → Bool

/-- What AES-256-CMAC is computed over in an iteration of the KDF of R332 and R337: the spec names the context's values, here the second
argument, and no layout of label, context and length. -/
opaque kdfInput : Nat → List Nat → List (BitVec 8)

end Sys2Proof.Config
end

