-- ==== Sys2Proof/Machine/NMap.lean ====
section
/-! DEFINITION. Sparse data by number: an ordered list of key and value pairs, the one form in which the state holds
registers, tables, pages, lines and whatever else spec/ numbers. -/

namespace Sys2Proof.Machine

/-- A sparse map: keys strictly rising (`NMap.wf`). -/
abbrev NMap (α : Type) := List (Nat × α)

/-- The value listed at a key. -/
def NMap.find {α : Type} : NMap α → Nat → Option α
  | [], _ => none
  | (k, v) :: m, j => if j = k then some v else NMap.find m j

/-- The value at a key, an unlisted key reading as `d`. -/
def NMap.getD {α : Type} (m : NMap α) (k : Nat) (d : α) : α := (NMap.find m k).getD d

/-- The map with a key listed at a value, at its place in the order. -/
def NMap.insert {α : Type} : NMap α → Nat → α → NMap α
  | [], j, w => [(j, w)]
  | (k, v) :: m, j, w =>
    if j < k then (j, w) :: (k, v) :: m
    else if j = k then (j, w) :: m
    else (k, v) :: NMap.insert m j w

/-- The map without a key, wherever it stands. -/
def NMap.erase {α : Type} : NMap α → Nat → NMap α
  | [], _ => []
  | (k, v) :: m, j => if j = k then NMap.erase m j else (k, v) :: NMap.erase m j

/-- Writing `w` at `j` where unlisted keys read as `d`: a value equal to `d` is not listed, so equal contents are equal
lists. -/
def NMap.put {α : Type} [DecidableEq α] (d : α) (m : NMap α) (j : Nat) (w : α) : NMap α :=
  if w = d then NMap.erase m j else NMap.insert m j w

/-- Every key of a map is above a bound. -/
def NMap.above {α : Type} (b : Nat) : NMap α → Bool
  | [] => true
  | (k, _) :: m => decide (b < k) && NMap.above b m

/-- Keys strictly rising. -/
def NMap.sorted {α : Type} : NMap α → Bool
  | [] => true
  | (k, _) :: m => NMap.above k m && NMap.sorted m

/-- No listed value equals what its key would read as unlisted. -/
def NMap.noDefault {α : Type} [DecidableEq α] (d : Nat → α) : NMap α → Bool
  | [] => true
  | (k, v) :: m => decide (v ≠ d k) && NMap.noDefault d m

/-- The canonical form: keys strictly rising, no entry equal to what an unlisted key reads as. -/
def NMap.wf {α : Type} [DecidableEq α] (d : Nat → α) (m : NMap α) : Bool :=
  NMap.sorted m && NMap.noDefault d m

/-- The keys listed. -/
def NMap.keys {α : Type} (m : NMap α) : List Nat := m.map Prod.fst

/-- Keeps the entries that satisfy a test. -/
def NMap.keep {α : Type} (m : NMap α) (p : Nat → α → Bool) : NMap α := m.filter (fun e => p e.1 e.2)

/-- The item at a place of a list, or a given one past its end. -/
def nth {α : Type} (d : α) : List α → Nat → α
  | [], _ => d
  | x :: _, 0 => x
  | _ :: xs, n + 1 => nth d xs n

/-- A list with the item at a place replaced. -/
def setNth {α : Type} : List α → Nat → α → List α
  | [], _, _ => []
  | _ :: xs, 0, y => y :: xs
  | x :: xs, n + 1, y => x :: setNth xs n y

/-- Bits [hi:lo] of a word, as a number (R12). -/
def bits (w : Word64) (hi lo : Nat) : Nat := (w.toNat >>> lo) % 2 ^ (hi + 1 - lo)

/-- A word with bits [hi:lo] replaced (R12). -/
def setBits (w : Word64) (hi lo v : Nat) : Word64 :=
  let mask := (2 ^ (hi + 1 - lo) - 1) * 2 ^ lo
  BitVec.ofNat 64 ((w.toNat &&& (2 ^ 64 - 1 - mask)) ||| (v % 2 ^ (hi + 1 - lo)) * 2 ^ lo)

/-- One bit of a word (R12). -/
def bit (w : Word64) (n : Nat) : Bool := w.getLsbD n

/-- 1 or 0. -/
def b2n (b : Bool) : Nat := if b then 1 else 0

/-- Adds without passing a ceiling. -/
def satAdd (cap a b : Nat) : Nat := min cap (a + b)

/-- Division rounding up. -/
def divUp (a b : Nat) : Nat := (a + b - 1) / b

end Sys2Proof.Machine
end

