-- ==== Sys2Proof/Machine/RegMap.lean ====
section
/-! DEFINITION. The register map: every register the chapters of spec/ give a page beyond the common header of R38,
its offset, how many instances follow at which stride, its reset value (0 in fields whose reset is "Per boot store",
"Per device", "Per port", "Per reset" or "Per strap": those are read from the state or from Config, see Operands.lean)
and its fields with their types of R12. Names are PAGE_REGISTER_FIELD. -/

namespace Sys2Proof.Machine

/-- Field types of R12. Reserved bits (RSV) are those no field names. -/
inductive FieldTy where
  | rw | ro | wo | w1c | w1s | rc
  deriving DecidableEq, Repr

/-- A named field: first page of its block, byte offset in the page, bits [hi:lo]. -/
structure Fld where
  page : Nat
  off : Nat
  hi : Nat
  lo : Nat
  deriving DecidableEq, Repr

/-- One field of a register description. -/
structure FieldDesc where
  hi : Nat
  lo : Nat
  ty : FieldTy
  deriving DecidableEq, Repr

/-- A register, or an array of `count` registers `stride` bytes apart. -/
structure RegDesc where
  off : Nat
  count : Nat
  stride : Nat
  reset : Nat
  fields : List FieldDesc
  deriving DecidableEq, Repr

/-! ### Page GLB -/
abbrev GLB_TB_NS_NS : Fld := ⟨0x0, 0x200, 63, 0⟩
abbrev GLB_PACE_VALID : Fld := ⟨0x0, 0x208, 63, 63⟩
abbrev GLB_PACE_SEQ : Fld := ⟨0x0, 0x208, 55, 48⟩
abbrev GLB_PACE_SLOW_RING : Fld := ⟨0x0, 0x208, 47, 44⟩
abbrev GLB_PACE_SPREAD : Fld := ⟨0x0, 0x208, 43, 32⟩
abbrev GLB_PACE_STAGE_FS : Fld := ⟨0x0, 0x208, 31, 0⟩
abbrev GLB_START_STAT_ELAPSED_MS : Fld := ⟨0x0, 0x210, 63, 32⟩
abbrev GLB_START_STAT_FAIL : Fld := ⟨0x0, 0x210, 15, 8⟩
abbrev GLB_START_STAT_PHASE : Fld := ⟨0x0, 0x210, 7, 0⟩
abbrev GLB_RECOVERY_SRC_ADDR : Fld := ⟨0x0, 0x218, 63, 12⟩
abbrev GLB_RECOVERY_SRC_GO : Fld := ⟨0x0, 0x218, 0, 0⟩
abbrev GLB_RESET_KEY : Fld := ⟨0x0, 0x220, 63, 48⟩
abbrev GLB_RESET_FORCE : Fld := ⟨0x0, 0x220, 1, 1⟩
abbrev GLB_RESET_GO : Fld := ⟨0x0, 0x220, 0, 0⟩
abbrev GLB_RESET_CAUSE_PERST_COUNT : Fld := ⟨0x0, 0x228, 63, 32⟩
abbrev GLB_RESET_CAUSE_FORCED : Fld := ⟨0x0, 0x228, 4, 4⟩
abbrev GLB_RESET_CAUSE_CAUSE : Fld := ⟨0x0, 0x228, 3, 0⟩
abbrev GLB_PART_GRADE_REV : Fld := ⟨0x0, 0x230, 15, 12⟩
abbrev GLB_PART_GRADE_GRADE : Fld := ⟨0x0, 0x230, 7, 0⟩
abbrev GLB_ACCESS_ERR_VALID : Fld := ⟨0x0, 0x300, 63, 63⟩
abbrev GLB_ACCESS_ERR_CAUSE : Fld := ⟨0x0, 0x300, 62, 60⟩
abbrev GLB_ACCESS_ERR_COUNT : Fld := ⟨0x0, 0x300, 59, 48⟩
abbrev GLB_ACCESS_ERR_WRITE : Fld := ⟨0x0, 0x300, 26, 26⟩
abbrev GLB_ACCESS_ERR_ADDR : Fld := ⟨0x0, 0x300, 25, 0⟩
abbrev GLB_RQ_SQ_BASE_ADDR : Fld := ⟨0x0, 0x400, 63, 12⟩
abbrev GLB_RQ_CQ_BASE_ADDR : Fld := ⟨0x0, 0x408, 63, 12⟩
abbrev GLB_RQ_CTRL_IRQ_EN : Fld := ⟨0x0, 0x410, 30, 30⟩
abbrev GLB_RQ_CTRL_VECTOR : Fld := ⟨0x0, 0x410, 29, 24⟩
abbrev GLB_RQ_CTRL_CQ_SIZE : Fld := ⟨0x0, 0x410, 19, 16⟩
abbrev GLB_RQ_CTRL_SQ_SIZE : Fld := ⟨0x0, 0x410, 11, 8⟩
abbrev GLB_RQ_CTRL_EN : Fld := ⟨0x0, 0x410, 0, 0⟩
abbrev GLB_RQ_SQ_TAIL_TAIL : Fld := ⟨0x0, 0x418, 15, 0⟩
abbrev GLB_RQ_SQ_HEAD_HEAD : Fld := ⟨0x0, 0x420, 15, 0⟩
abbrev GLB_RQ_CQ_HEAD_HEAD : Fld := ⟨0x0, 0x428, 15, 0⟩
abbrev GLB_RQ_CQ_TAIL_PHASE : Fld := ⟨0x0, 0x430, 16, 16⟩
abbrev GLB_RQ_CQ_TAIL_TAIL : Fld := ⟨0x0, 0x430, 15, 0⟩
abbrev GLB_RQ_STAT_ERR_INDEX : Fld := ⟨0x0, 0x438, 31, 16⟩
abbrev GLB_RQ_STAT_ERR : Fld := ⟨0x0, 0x438, 15, 8⟩
abbrev GLB_RQ_STAT_STATE : Fld := ⟨0x0, 0x438, 1, 0⟩
abbrev GLB_IRQ_ROUTE_SPREAD : Fld := ⟨0x0, 0x1000, 10, 8⟩
abbrev GLB_IRQ_ROUTE_VECTOR : Fld := ⟨0x0, 0x1000, 5, 0⟩
def regsGLB0 : List RegDesc := [
  ⟨0x200, 1, 0x8, 0x0, [⟨63, 0, .ro⟩]⟩,  -- GLB_TB_NS (R27, 01_architecture.md)
  ⟨0x208, 1, 0x8, 0x0, [⟨63, 63, .ro⟩, ⟨55, 48, .ro⟩, ⟨47, 44, .ro⟩, ⟨43, 32, .ro⟩, ⟨31, 0, .ro⟩]⟩,  -- GLB_PACE (R27, 01_architecture.md)
  ⟨0x210, 1, 0x8, 0x1, [⟨63, 32, .ro⟩, ⟨15, 8, .ro⟩, ⟨7, 0, .ro⟩]⟩,  -- GLB_START_STAT (R426, 17_startup_update.md)
  ⟨0x218, 1, 0x8, 0x0, [⟨63, 12, .rw⟩, ⟨0, 0, .w1s⟩]⟩,  -- GLB_RECOVERY_SRC (R411, 17_startup_update.md)
  ⟨0x220, 1, 0x8, 0x0, [⟨63, 48, .wo⟩, ⟨1, 1, .wo⟩, ⟨0, 0, .wo⟩]⟩,  -- GLB_RESET (R407, 17_startup_update.md)
  ⟨0x228, 1, 0x8, 0x0, [⟨63, 32, .ro⟩, ⟨4, 4, .ro⟩, ⟨3, 0, .ro⟩]⟩,  -- GLB_RESET_CAUSE (R407, 17_startup_update.md)
  ⟨0x230, 1, 0x8, 0x0, [⟨15, 12, .ro⟩, ⟨7, 0, .ro⟩]⟩,  -- GLB_PART_GRADE (R51, 02_control_plane.md)
  ⟨0x300, 1, 0x8, 0x0, [⟨63, 63, .rc⟩, ⟨62, 60, .rc⟩, ⟨59, 48, .rc⟩, ⟨26, 26, .rc⟩, ⟨25, 0, .rc⟩]⟩,  -- GLB_ACCESS_ERR (R50, 02_control_plane.md)
  ⟨0x400, 4, 0x40, 0x0, [⟨63, 12, .rw⟩]⟩,  -- GLB_RQ_SQ_BASE (R57, 02_control_plane.md)
  ⟨0x408, 4, 0x40, 0x0, [⟨63, 12, .rw⟩]⟩]  -- GLB_RQ_CQ_BASE (R57, 02_control_plane.md)
def regsGLB1 : List RegDesc := [
  ⟨0x410, 4, 0x40, 0x0, [⟨30, 30, .rw⟩, ⟨29, 24, .rw⟩, ⟨19, 16, .rw⟩, ⟨11, 8, .rw⟩, ⟨0, 0, .rw⟩]⟩,  -- GLB_RQ_CTRL (R57, 02_control_plane.md)
  ⟨0x418, 4, 0x40, 0x0, [⟨15, 0, .rw⟩]⟩,  -- GLB_RQ_SQ_TAIL (R57, 02_control_plane.md)
  ⟨0x420, 4, 0x40, 0x0, [⟨15, 0, .ro⟩]⟩,  -- GLB_RQ_SQ_HEAD (R57, 02_control_plane.md)
  ⟨0x428, 4, 0x40, 0x0, [⟨15, 0, .rw⟩]⟩,  -- GLB_RQ_CQ_HEAD (R57, 02_control_plane.md)
  ⟨0x430, 4, 0x40, 0x10000, [⟨16, 16, .ro⟩, ⟨15, 0, .ro⟩]⟩,  -- GLB_RQ_CQ_TAIL (R57, 02_control_plane.md)
  ⟨0x438, 4, 0x40, 0x0, [⟨31, 16, .ro⟩, ⟨15, 8, .ro⟩, ⟨1, 0, .ro⟩]⟩,  -- GLB_RQ_STAT (R57, 02_control_plane.md)
  ⟨0x1000, 256, 0x8, 0x0, [⟨10, 8, .rw⟩, ⟨5, 0, .rw⟩]⟩]  -- GLB_IRQ_ROUTE (R54, 02_control_plane.md)
/-- The registers of page GLB. -/
def regsGLB : List RegDesc := regsGLB0 ++ regsGLB1

/-! ### Page PWR -/
abbrev PWR_RAIL_STAT_LAST_FAULT : Fld := ⟨0x1, 0x100, 55, 48⟩
abbrev PWR_RAIL_STAT_STATE : Fld := ⟨0x1, 0x100, 47, 0⟩
abbrev PWR_RAIL_LIM_FILTER_US : Fld := ⟨0x1, 0x108, 47, 32⟩
abbrev PWR_RAIL_LIM_FAULT : Fld := ⟨0x1, 0x108, 15, 8⟩
abbrev PWR_RAIL_LIM_WARN : Fld := ⟨0x1, 0x108, 7, 0⟩
abbrev PWR_RAIL_MEAS_MA : Fld := ⟨0x1, 0x168, 63, 32⟩
abbrev PWR_RAIL_MEAS_MV : Fld := ⟨0x1, 0x168, 15, 0⟩
abbrev PWR_VIN_DIV : Fld := ⟨0x1, 0x1C8, 63, 56⟩
abbrev PWR_VIN_MEAS : Fld := ⟨0x1, 0x1C8, 47, 32⟩
abbrev PWR_VIN_CUT : Fld := ⟨0x1, 0x1C8, 31, 16⟩
abbrev PWR_VIN_WARN : Fld := ⟨0x1, 0x1C8, 15, 0⟩
abbrev PWR_INPUT_GLITCHES : Fld := ⟨0x1, 0x1D0, 63, 56⟩
abbrev PWR_INPUT_PEAK_W : Fld := ⟨0x1, 0x1D0, 47, 32⟩
abbrev PWR_INPUT_W_1S : Fld := ⟨0x1, 0x1D0, 31, 16⟩
abbrev PWR_INPUT_W : Fld := ⟨0x1, 0x1D0, 15, 0⟩
abbrev PWR_OP_DWELL_MS : Fld := ⟨0x1, 0x1D8, 47, 32⟩
abbrev PWR_OP_FD_PCT : Fld := ⟨0x1, 0x1D8, 23, 16⟩
abbrev PWR_OP_BK_PCT : Fld := ⟨0x1, 0x1D8, 15, 8⟩
abbrev PWR_OP_MODE : Fld := ⟨0x1, 0x1D8, 1, 0⟩
abbrev PWR_OP_STAT_SLEWS : Fld := ⟨0x1, 0x1E0, 63, 48⟩
abbrev PWR_OP_STAT_VCORE_MV : Fld := ⟨0x1, 0x1E0, 47, 32⟩
abbrev PWR_OP_STAT_TARGET_MV : Fld := ⟨0x1, 0x1E0, 31, 16⟩
abbrev PWR_OP_STAT_CAUSE : Fld := ⟨0x1, 0x1E0, 7, 4⟩
abbrev PWR_OP_STAT_FAMILY : Fld := ⟨0x1, 0x1E0, 1, 0⟩
abbrev PWR_HOLDUP_MS_MS : Fld := ⟨0x1, 0x200, 19, 0⟩
abbrev PWR_HOLDUP_W_W : Fld := ⟨0x1, 0x208, 15, 0⟩
abbrev PWR_HOLDUP_STAT_DERATED : Fld := ⟨0x1, 0x210, 63, 63⟩
abbrev PWR_HOLDUP_STAT_DECLARED_MS : Fld := ⟨0x1, 0x210, 51, 32⟩
abbrev PWR_HOLDUP_STAT_LAST_USED_PCT : Fld := ⟨0x1, 0x210, 7, 0⟩
abbrev PWR_DUR_CFG_FINAL_WAIT_US : Fld := ⟨0x1, 0x218, 31, 16⟩
abbrev PWR_DUR_CFG_SOLO_M : Fld := ⟨0x1, 0x218, 0, 0⟩
abbrev PWR_FLUSH_STAT_UNITS : Fld := ⟨0x1, 0x220, 63, 32⟩
abbrev PWR_FLUSH_STAT_CAUSE : Fld := ⟨0x1, 0x220, 15, 8⟩
abbrev PWR_FLUSH_STAT_STATE : Fld := ⟨0x1, 0x220, 7, 0⟩
abbrev PWR_LAST_STOP_DURATION_MS : Fld := ⟨0x1, 0x228, 63, 32⟩
abbrev PWR_LAST_STOP_FINAL : Fld := ⟨0x1, 0x228, 15, 8⟩
abbrev PWR_LAST_STOP_CAUSE : Fld := ⟨0x1, 0x228, 7, 4⟩
abbrev PWR_LAST_STOP_KIND : Fld := ⟨0x1, 0x228, 3, 0⟩
def regsPWR0 : List RegDesc := [
  ⟨0x100, 1, 0x8, 0xFF000000000000, [⟨55, 48, .ro⟩, ⟨47, 0, .ro⟩]⟩,  -- PWR_RAIL_STAT (R494, 20_power_thermal_package.md)
  ⟨0x108, 12, 0x8, 0x1400003C1E, [⟨47, 32, .rw⟩, ⟨15, 8, .rw⟩, ⟨7, 0, .rw⟩]⟩,  -- PWR_RAIL_LIM (R494, 20_power_thermal_package.md)
  ⟨0x168, 12, 0x8, 0x0, [⟨63, 32, .ro⟩, ⟨15, 0, .ro⟩]⟩,  -- PWR_RAIL_MEAS (R494, 20_power_thermal_package.md)
  ⟨0x1C8, 1, 0x8, 0x0100000000000000, [⟨63, 56, .rw⟩, ⟨47, 32, .ro⟩, ⟨31, 16, .rw⟩, ⟨15, 0, .rw⟩]⟩,  -- PWR_VIN (R494, 20_power_thermal_package.md)
  ⟨0x1D0, 1, 0x8, 0x0, [⟨63, 56, .rc⟩, ⟨47, 32, .rc⟩, ⟨31, 16, .ro⟩, ⟨15, 0, .ro⟩]⟩,  -- PWR_INPUT (R494, 20_power_thermal_package.md)
  ⟨0x1D8, 1, 0x8, 0x6400190F00, [⟨47, 32, .rw⟩, ⟨23, 16, .rw⟩, ⟨15, 8, .rw⟩, ⟨1, 0, .rw⟩]⟩,  -- PWR_OP (R494, 20_power_thermal_package.md)
  ⟨0x1E0, 1, 0x8, 0x3200000, [⟨63, 48, .ro⟩, ⟨47, 32, .ro⟩, ⟨31, 16, .ro⟩, ⟨7, 4, .ro⟩, ⟨1, 0, .ro⟩]⟩,  -- PWR_OP_STAT (R494, 20_power_thermal_package.md)
  ⟨0x200, 1, 0x8, 0x0, [⟨19, 0, .rw⟩]⟩,  -- PWR_HOLDUP_MS (R318, 12_durability_power_loss.md)
  ⟨0x208, 1, 0x8, 0x0, [⟨15, 0, .rw⟩]⟩,  -- PWR_HOLDUP_W (R318, 12_durability_power_loss.md)
  ⟨0x210, 1, 0x8, 0x0, [⟨63, 63, .ro⟩, ⟨51, 32, .ro⟩, ⟨7, 0, .ro⟩]⟩]  -- PWR_HOLDUP_STAT (R318, 12_durability_power_loss.md)
def regsPWR1 : List RegDesc := [
  ⟨0x218, 1, 0x8, 0x3E80000, [⟨31, 16, .rw⟩, ⟨0, 0, .rw⟩]⟩,  -- PWR_DUR_CFG (R318, 12_durability_power_loss.md)
  ⟨0x220, 1, 0x8, 0x0, [⟨63, 32, .ro⟩, ⟨15, 8, .ro⟩, ⟨7, 0, .ro⟩]⟩,  -- PWR_FLUSH_STAT (R318, 12_durability_power_loss.md)
  ⟨0x228, 1, 0x8, 0x0, [⟨63, 32, .ro⟩, ⟨15, 8, .ro⟩, ⟨7, 4, .ro⟩, ⟨3, 0, .ro⟩]⟩]  -- PWR_LAST_STOP (R318, 12_durability_power_loss.md)
/-- The registers of page PWR. -/
def regsPWR : List RegDesc := regsPWR0 ++ regsPWR1

/-! ### Page THM -/
abbrev THM_TJ_VALID : Fld := ⟨0x2, 0x100, 63, 63⟩
abbrev THM_TJ_HOT_NODE : Fld := ⟨0x2, 0x100, 55, 48⟩
abbrev THM_TJ_TJ_MAX : Fld := ⟨0x2, 0x100, 47, 32⟩
abbrev THM_TJ_INLET : Fld := ⟨0x2, 0x100, 31, 16⟩
abbrev THM_TJ_SAMPLE_US : Fld := ⟨0x2, 0x100, 15, 0⟩
abbrev THM_LIMITS_THROTTLE_HYST : Fld := ⟨0x2, 0x108, 39, 32⟩
abbrev THM_LIMITS_NEAR_BAND : Fld := ⟨0x2, 0x108, 31, 24⟩
abbrev THM_LIMITS_CRIT : Fld := ⟨0x2, 0x108, 23, 16⟩
abbrev THM_LIMITS_THROTTLE : Fld := ⟨0x2, 0x108, 15, 8⟩
abbrev THM_LIMITS_WARN : Fld := ⟨0x2, 0x108, 7, 0⟩
abbrev THM_REF_ERR1 : Fld := ⟨0x2, 0x110, 63, 48⟩
abbrev THM_REF_ERR0 : Fld := ⟨0x2, 0x110, 47, 32⟩
abbrev THM_REF_REF1 : Fld := ⟨0x2, 0x110, 31, 16⟩
abbrev THM_REF_REF0 : Fld := ⟨0x2, 0x110, 15, 0⟩
abbrev THM_DIODE_TEMP : Fld := ⟨0x2, 0x118, 63, 48⟩
abbrev THM_DIODE_LIMIT_C : Fld := ⟨0x2, 0x118, 47, 40⟩
abbrev THM_DIODE_IDEALITY : Fld := ⟨0x2, 0x118, 39, 32⟩
abbrev THM_DIODE_SERIES_MOHM : Fld := ⟨0x2, 0x118, 31, 16⟩
abbrev THM_DIODE_MODE : Fld := ⟨0x2, 0x118, 1, 0⟩
abbrev THM_ALERT_MASK : Fld := ⟨0x2, 0x138, 13, 8⟩
abbrev THM_ALERT_CAUSE : Fld := ⟨0x2, 0x138, 5, 0⟩
abbrev THM_LIFE_HOURS : Fld := ⟨0x2, 0x140, 63, 42⟩
abbrev THM_LIFE_OVER85_H : Fld := ⟨0x2, 0x140, 41, 21⟩
abbrev THM_LIFE_OVER105_H : Fld := ⟨0x2, 0x140, 20, 0⟩
abbrev THM_LIFE_MEAN_MEAN : Fld := ⟨0x2, 0x148, 15, 0⟩
def regsTHM0 : List RegDesc := [
  ⟨0x100, 1, 0x8, 0x3E8, [⟨63, 63, .ro⟩, ⟨55, 48, .ro⟩, ⟨47, 32, .ro⟩, ⟨31, 16, .ro⟩, ⟨15, 0, .ro⟩]⟩,  -- THM_TJ (R494, 20_power_thermal_package.md)
  ⟨0x108, 1, 0x8, 0xA056E645F, [⟨39, 32, .rw⟩, ⟨31, 24, .rw⟩, ⟨23, 16, .ro⟩, ⟨15, 8, .rw⟩, ⟨7, 0, .rw⟩]⟩,  -- THM_LIMITS (R494, 20_power_thermal_package.md)
  ⟨0x110, 1, 0x8, 0x0, [⟨63, 48, .ro⟩, ⟨47, 32, .ro⟩, ⟨31, 16, .ro⟩, ⟨15, 0, .ro⟩]⟩,  -- THM_REF (R494, 20_power_thermal_package.md)
  ⟨0x118, 4, 0x8, 0x8000550800000000, [⟨63, 48, .ro⟩, ⟨47, 40, .rw⟩, ⟨39, 32, .rw⟩, ⟨31, 16, .rw⟩, ⟨1, 0, .rw⟩]⟩,  -- THM_DIODE (R494, 20_power_thermal_package.md)
  ⟨0x138, 1, 0x8, 0x3F00, [⟨13, 8, .rw⟩, ⟨5, 0, .ro⟩]⟩,  -- THM_ALERT (R494, 20_power_thermal_package.md)
  ⟨0x140, 1, 0x8, 0x0, [⟨63, 42, .ro⟩, ⟨41, 21, .ro⟩, ⟨20, 0, .ro⟩]⟩,  -- THM_LIFE (R494, 20_power_thermal_package.md)
  ⟨0x148, 1, 0x8, 0x0, [⟨15, 0, .ro⟩]⟩]  -- THM_LIFE_MEAN (R494, 20_power_thermal_package.md)
/-- The registers of page THM. -/
def regsTHM : List RegDesc := regsTHM0

/-! ### Page EVR -/
abbrev EVR_CFG_FREEZE_MS : Fld := ⟨0x3, 0x100, 47, 32⟩
abbrev EVR_CFG_REPEAT_US : Fld := ⟨0x3, 0x100, 15, 0⟩
abbrev EVR_STAT_NEXT_SEQ : Fld := ⟨0x3, 0x108, 63, 32⟩
abbrev EVR_STAT_COUNT : Fld := ⟨0x3, 0x108, 28, 16⟩
abbrev EVR_STAT_OLDEST : Fld := ⟨0x3, 0x108, 11, 0⟩
abbrev EVR_LOST_DROPPED : Fld := ⟨0x3, 0x110, 63, 48⟩
abbrev EVR_LOST_HIGH : Fld := ⟨0x3, 0x110, 47, 32⟩
abbrev EVR_LOST_NOTICE : Fld := ⟨0x3, 0x110, 31, 16⟩
abbrev EVR_LOST_INFO : Fld := ⟨0x3, 0x110, 15, 0⟩
abbrev EVR_FREEZE_HELD : Fld := ⟨0x3, 0x118, 40, 32⟩
abbrev EVR_FREEZE_FROZEN : Fld := ⟨0x3, 0x118, 0, 0⟩
abbrev EVR_EXP_BASE_ADDR : Fld := ⟨0x3, 0x120, 63, 12⟩
abbrev EVR_EXP_CTRL_EXP_LOST : Fld := ⟨0x3, 0x128, 63, 32⟩
abbrev EVR_EXP_CTRL_EN : Fld := ⟨0x3, 0x128, 31, 31⟩
abbrev EVR_EXP_CTRL_VECTOR : Fld := ⟨0x3, 0x128, 29, 24⟩
abbrev EVR_EXP_CTRL_SIZE : Fld := ⟨0x3, 0x128, 19, 16⟩
abbrev EVR_EXP_CTRL_MIN_SEV : Fld := ⟨0x3, 0x128, 9, 8⟩
abbrev EVR_EXP_PTR_TAIL : Fld := ⟨0x3, 0x130, 47, 32⟩
abbrev EVR_EXP_PTR_HEAD : Fld := ⟨0x3, 0x130, 15, 0⟩
abbrev EVR_EMBER_FINAL : Fld := ⟨0x3, 0x138, 63, 48⟩
abbrev EVR_EMBER_FULL : Fld := ⟨0x3, 0x138, 47, 32⟩
abbrev EVR_EMBER_NEWEST : Fld := ⟨0x3, 0x138, 3, 0⟩
abbrev EVR_WIN_SEL_SLOT : Fld := ⟨0x3, 0x140, 11, 0⟩
abbrev EVR_WIN_WORD : Fld := ⟨0x3, 0x148, 63, 0⟩
def regsEVR0 : List RegDesc := [
  ⟨0x100, 1, 0x8, 0x64000003E8, [⟨47, 32, .rw⟩, ⟨15, 0, .rw⟩]⟩,  -- EVR_CFG (R468, 19_observability.md)
  ⟨0x108, 1, 0x8, 0x0, [⟨63, 32, .ro⟩, ⟨28, 16, .ro⟩, ⟨11, 0, .ro⟩]⟩,  -- EVR_STAT (R468, 19_observability.md)
  ⟨0x110, 1, 0x8, 0x0, [⟨63, 48, .rc⟩, ⟨47, 32, .rc⟩, ⟨31, 16, .rc⟩, ⟨15, 0, .rc⟩]⟩,  -- EVR_LOST (R468, 19_observability.md)
  ⟨0x118, 1, 0x8, 0x0, [⟨40, 32, .ro⟩, ⟨0, 0, .rw⟩]⟩,  -- EVR_FREEZE (R468, 19_observability.md)
  ⟨0x120, 1, 0x8, 0x0, [⟨63, 12, .rw⟩]⟩,  -- EVR_EXP_BASE (R468, 19_observability.md)
  ⟨0x128, 1, 0x8, 0x0, [⟨63, 32, .rc⟩, ⟨31, 31, .rw⟩, ⟨29, 24, .rw⟩, ⟨19, 16, .rw⟩, ⟨9, 8, .rw⟩]⟩,  -- EVR_EXP_CTRL (R468, 19_observability.md)
  ⟨0x130, 1, 0x8, 0x0, [⟨47, 32, .ro⟩, ⟨15, 0, .rw⟩]⟩,  -- EVR_EXP_PTR (R468, 19_observability.md)
  ⟨0x138, 1, 0x8, 0x0, [⟨63, 48, .ro⟩, ⟨47, 32, .ro⟩, ⟨3, 0, .ro⟩]⟩,  -- EVR_EMBER (R468, 19_observability.md)
  ⟨0x140, 1, 0x8, 0x0, [⟨11, 0, .rw⟩]⟩,  -- EVR_WIN_SEL (R468, 19_observability.md)
  ⟨0x148, 4, 0x8, 0x0, [⟨63, 0, .ro⟩]⟩]  -- EVR_WIN (R468, 19_observability.md)
/-- The registers of page EVR. -/
def regsEVR : List RegDesc := regsEVR0

/-! ### Page BFL -/
abbrev BFL_STATUS_SEC_FLOOR : Fld := ⟨0x4, 0x100, 63, 48⟩
abbrev BFL_STATUS_ACTIVE_VERSION : Fld := ⟨0x4, 0x100, 47, 16⟩
abbrev BFL_STATUS_TRIAL_BOOTS : Fld := ⟨0x4, 0x100, 5, 4⟩
abbrev BFL_STATUS_STATE : Fld := ⟨0x4, 0x100, 3, 2⟩
abbrev BFL_STATUS_ACTIVE : Fld := ⟨0x4, 0x100, 0, 0⟩
abbrev BFL_VERSIONS_BLUEBELL : Fld := ⟨0x4, 0x108, 63, 32⟩
abbrev BFL_VERSIONS_PRIMROSE : Fld := ⟨0x4, 0x108, 31, 0⟩
abbrev BFL_SEL_SEQ_SEQ : Fld := ⟨0x4, 0x110, 63, 0⟩
abbrev BFL_UPDATE_STAT_BYTES : Fld := ⟨0x4, 0x118, 63, 32⟩
abbrev BFL_UPDATE_STAT_BLUEBELL : Fld := ⟨0x4, 0x118, 3, 2⟩
abbrev BFL_UPDATE_STAT_PRIMROSE : Fld := ⟨0x4, 0x118, 1, 0⟩
abbrev BFL_CONFIRM_KEY : Fld := ⟨0x4, 0x120, 15, 0⟩
abbrev BFL_TRIAL_CFG_LEFT_S : Fld := ⟨0x4, 0x128, 47, 32⟩
abbrev BFL_TRIAL_CFG_WD_S : Fld := ⟨0x4, 0x128, 15, 0⟩
abbrev BFL_BOOT_COUNT_COUNT : Fld := ⟨0x4, 0x130, 31, 0⟩
def regsBFL0 : List RegDesc := [
  ⟨0x100, 1, 0x8, 0x0, [⟨63, 48, .ro⟩, ⟨47, 16, .ro⟩, ⟨5, 4, .ro⟩, ⟨3, 2, .ro⟩, ⟨0, 0, .ro⟩]⟩,  -- BFL_STATUS (R427, 17_startup_update.md)
  ⟨0x108, 1, 0x8, 0x0, [⟨63, 32, .ro⟩, ⟨31, 0, .ro⟩]⟩,  -- BFL_VERSIONS (R427, 17_startup_update.md)
  ⟨0x110, 1, 0x8, 0x0, [⟨63, 0, .ro⟩]⟩,  -- BFL_SEL_SEQ (R427, 17_startup_update.md)
  ⟨0x118, 1, 0x8, 0x0, [⟨63, 32, .ro⟩, ⟨3, 2, .ro⟩, ⟨1, 0, .ro⟩]⟩,  -- BFL_UPDATE_STAT (R427, 17_startup_update.md)
  ⟨0x120, 1, 0x8, 0x0, [⟨15, 0, .wo⟩]⟩,  -- BFL_CONFIRM (R427, 17_startup_update.md)
  ⟨0x128, 1, 0x8, 0x258, [⟨47, 32, .ro⟩, ⟨15, 0, .rw⟩]⟩,  -- BFL_TRIAL_CFG (R427, 17_startup_update.md)
  ⟨0x130, 1, 0x8, 0x0, [⟨31, 0, .ro⟩]⟩]  -- BFL_BOOT_COUNT (R427, 17_startup_update.md)
/-- The registers of page BFL. -/
def regsBFL : List RegDesc := regsBFL0

/-! ### Page SPB -/
abbrev SPB_BANK_STAT_STATE : Fld := ⟨0x5, 0x100, 63, 0⟩
abbrev SPB_RET_CFG_RET_EN : Fld := ⟨0x5, 0x108, 47, 32⟩
abbrev SPB_RET_CFG_IDLE_US : Fld := ⟨0x5, 0x108, 15, 0⟩
abbrev SPB_MARCH_RESULT : Fld := ⟨0x5, 0x110, 63, 56⟩
abbrev SPB_MARCH_SEGMENTS : Fld := ⟨0x5, 0x110, 42, 32⟩
abbrev SPB_MARCH_MODE : Fld := ⟨0x5, 0x110, 8, 8⟩
abbrev SPB_MARCH_BANK : Fld := ⟨0x5, 0x110, 7, 4⟩
abbrev SPB_MARCH_GO : Fld := ⟨0x5, 0x110, 0, 0⟩
abbrev SPB_ECC_CE : Fld := ⟨0x5, 0x118, 63, 32⟩
abbrev SPB_ECC_UE : Fld := ⟨0x5, 0x118, 31, 16⟩
abbrev SPB_ECC_WAKES : Fld := ⟨0x5, 0x118, 15, 0⟩
abbrev SPB_LAST_FAULT_CAUSE : Fld := ⟨0x5, 0x120, 63, 60⟩
abbrev SPB_LAST_FAULT_MASTER : Fld := ⟨0x5, 0x120, 55, 48⟩
abbrev SPB_LAST_FAULT_ADDR : Fld := ⟨0x5, 0x120, 25, 0⟩
abbrev SPB_REGION_EN : Fld := ⟨0x5, 0x200, 63, 63⟩
abbrev SPB_REGION_RD : Fld := ⟨0x5, 0x200, 62, 62⟩
abbrev SPB_REGION_WR : Fld := ⟨0x5, 0x200, 61, 61⟩
abbrev SPB_REGION_AT : Fld := ⟨0x5, 0x200, 60, 60⟩
abbrev SPB_REGION_LIMIT : Fld := ⟨0x5, 0x200, 45, 32⟩
abbrev SPB_REGION_BASE : Fld := ⟨0x5, 0x200, 13, 0⟩
def regsSPB0 : List RegDesc := [
  ⟨0x100, 1, 0x8, 0x0, [⟨63, 0, .ro⟩]⟩,  -- SPB_BANK_STAT (R438, 18_control_complex.md)
  ⟨0x108, 1, 0x8, 0xFF00000003E8, [⟨47, 32, .rw⟩, ⟨15, 0, .rw⟩]⟩,  -- SPB_RET_CFG (R438, 18_control_complex.md)
  ⟨0x110, 1, 0x8, 0x0, [⟨63, 56, .ro⟩, ⟨42, 32, .ro⟩, ⟨8, 8, .rw⟩, ⟨7, 4, .rw⟩, ⟨0, 0, .w1s⟩]⟩,  -- SPB_MARCH (R438, 18_control_complex.md)
  ⟨0x118, 1, 0x8, 0x0, [⟨63, 32, .rc⟩, ⟨31, 16, .rc⟩, ⟨15, 0, .rc⟩]⟩,  -- SPB_ECC (R438, 18_control_complex.md)
  ⟨0x120, 1, 0x8, 0x0, [⟨63, 60, .ro⟩, ⟨55, 48, .ro⟩, ⟨25, 0, .ro⟩]⟩,  -- SPB_LAST_FAULT (R438, 18_control_complex.md)
  ⟨0x200, 88, 0x8, 0x0, [⟨63, 63, .rw⟩, ⟨62, 62, .rw⟩, ⟨61, 61, .rw⟩, ⟨60, 60, .rw⟩, ⟨45, 32, .rw⟩, ⟨13, 0, .rw⟩]⟩]  -- SPB_REGION (R438, 18_control_complex.md)
/-- The registers of page SPB. -/
def regsSPB : List RegDesc := regsSPB0

/-! ### Page CPH -/
abbrev CPH_DEV_ID_SERIAL : Fld := ⟨0x6, 0x100, 47, 0⟩
abbrev CPH_ALLOC_SEAL_MAX : Fld := ⟨0x6, 0x108, 2, 0⟩
abbrev CPH_IV_CFG_WARN : Fld := ⟨0x6, 0x110, 31, 0⟩
abbrev CPH_PIPE_STAT_LINK_BUSY : Fld := ⟨0x6, 0x118, 38, 32⟩
abbrev CPH_PIPE_STAT_SEAL_BUSY : Fld := ⟨0x6, 0x118, 12, 8⟩
abbrev CPH_PIPE_STAT_XTS_BUSY : Fld := ⟨0x6, 0x118, 4, 0⟩
abbrev CPH_COUNTER_COUNT : Fld := ⟨0x6, 0x400, 63, 0⟩
abbrev INT_FILL_CFG_LEFT_GIB : Fld := ⟨0x6, 0x800, 63, 32⟩
abbrev INT_FILL_CFG_MODE : Fld := ⟨0x6, 0x800, 1, 0⟩
abbrev INT_SCRUB_CFG_ACT : Fld := ⟨0x6, 0x808, 51, 51⟩
abbrev INT_SCRUB_CFG_EN_DRAM : Fld := ⟨0x6, 0x808, 50, 50⟩
abbrev INT_SCRUB_CFG_EN_HEARTH : Fld := ⟨0x6, 0x808, 49, 49⟩
abbrev INT_SCRUB_CFG_HEARTH_LAP_S : Fld := ⟨0x6, 0x808, 47, 32⟩
abbrev INT_SCRUB_CFG_DRAM_LAP_H : Fld := ⟨0x6, 0x808, 15, 0⟩
abbrev INT_SCRUB_STAT_HEARTH_OVERDUE : Fld := ⟨0x6, 0x810, 63, 63⟩
abbrev INT_SCRUB_STAT_OVERDUE_CH : Fld := ⟨0x6, 0x810, 55, 48⟩
abbrev INT_SCRUB_STAT_OLDEST_CH : Fld := ⟨0x6, 0x810, 47, 42⟩
abbrev INT_SCRUB_STAT_OLDEST_S : Fld := ⟨0x6, 0x810, 31, 0⟩
abbrev INT_DEV_MARK_EN : Fld := ⟨0x6, 0x818, 16, 16⟩
abbrev INT_DEV_MARK_COUNT : Fld := ⟨0x6, 0x818, 15, 0⟩
abbrev INT_LAST_UE_SOURCE : Fld := ⟨0x6, 0x820, 63, 60⟩
abbrev INT_LAST_UE_OUTCOME : Fld := ⟨0x6, 0x820, 59, 56⟩
abbrev INT_LAST_UE_CHANNEL : Fld := ⟨0x6, 0x820, 55, 50⟩
abbrev INT_LAST_UE_RANK : Fld := ⟨0x6, 0x820, 49, 48⟩
abbrev INT_LAST_UE_LINE : Fld := ⟨0x6, 0x820, 41, 0⟩
abbrev INT_INJ_CFG_ARM : Fld := ⟨0x6, 0x828, 0, 0⟩
abbrev CPH_INT_COUNTER_COUNT : Fld := ⟨0x6, 0xC00, 63, 0⟩
def regsCPH0 : List RegDesc := [
  ⟨0x100, 1, 0x8, 0x0, [⟨47, 0, .ro⟩]⟩,  -- CPH_DEV_ID (R402, 16_cipher.md)
  ⟨0x108, 1, 0x8, 0x2, [⟨2, 0, .rw⟩]⟩,  -- CPH_ALLOC (R402, 16_cipher.md)
  ⟨0x110, 1, 0x8, 0xF0000000, [⟨31, 0, .rw⟩]⟩,  -- CPH_IV_CFG (R402, 16_cipher.md)
  ⟨0x118, 1, 0x8, 0x0, [⟨38, 32, .ro⟩, ⟨12, 8, .ro⟩, ⟨4, 0, .ro⟩]⟩,  -- CPH_PIPE_STAT (R402, 16_cipher.md)
  ⟨0x400, 8, 0x8, 0x0, [⟨63, 0, .ro⟩]⟩,  -- CPH_COUNTER (R403, 16_cipher.md)
  ⟨0x800, 1, 0x8, 0x0, [⟨63, 32, .ro⟩, ⟨1, 0, .rw⟩]⟩,  -- INT_FILL_CFG (R384, 15_integrity.md)
  ⟨0x808, 1, 0x8, 0xE003C00000018, [⟨51, 51, .rw⟩, ⟨50, 50, .rw⟩, ⟨49, 49, .rw⟩, ⟨47, 32, .rw⟩, ⟨15, 0, .rw⟩]⟩,  -- INT_SCRUB_CFG (R384, 15_integrity.md)
  ⟨0x810, 1, 0x8, 0x0, [⟨63, 63, .ro⟩, ⟨55, 48, .ro⟩, ⟨47, 42, .ro⟩, ⟨31, 0, .ro⟩]⟩,  -- INT_SCRUB_STAT (R384, 15_integrity.md)
  ⟨0x818, 1, 0x8, 0x10010, [⟨16, 16, .rw⟩, ⟨15, 0, .rw⟩]⟩,  -- INT_DEV_MARK (R384, 15_integrity.md)
  ⟨0x820, 1, 0x8, 0x0, [⟨63, 60, .ro⟩, ⟨59, 56, .ro⟩, ⟨55, 50, .ro⟩, ⟨49, 48, .ro⟩, ⟨41, 0, .ro⟩]⟩]  -- INT_LAST_UE (R384, 15_integrity.md)
def regsCPH1 : List RegDesc := [
  ⟨0x828, 1, 0x8, 0x0, [⟨0, 0, .rw⟩]⟩,  -- INT_INJ_CFG (R384, 15_integrity.md)
  ⟨0xC00, 14, 0x8, 0x0, [⟨63, 0, .ro⟩]⟩]  -- CPH_INT_COUNTER (R385, 15_integrity.md)
/-- The registers of page CPH. -/
def regsCPH : List RegDesc := regsCPH0 ++ regsCPH1

/-! ### Page KEY -/
abbrev KEY_PROT_STAT_MASTER : Fld := ⟨0x7, 0x100, 8, 8⟩
abbrev KEY_PROT_STAT_PAIRED : Fld := ⟨0x7, 0x100, 0, 0⟩
abbrev KEY_PROT_SEQ_SEQ : Fld := ⟨0x7, 0x108, 47, 0⟩
abbrev KEY_GEN_DRAIN_IDLE : Fld := ⟨0x7, 0x110, 63, 63⟩
abbrev KEY_GEN_DRAIN_DRAINED_SEQ : Fld := ⟨0x7, 0x110, 47, 0⟩
abbrev KEY_DRAIN_HOLD_OLDEST_QPN : Fld := ⟨0x7, 0x118, 55, 32⟩
abbrev KEY_DRAIN_HOLD_HOLDERS : Fld := ⟨0x7, 0x118, 31, 0⟩
abbrev KEY_FAIL_A_INVALID : Fld := ⟨0x7, 0x120, 63, 48⟩
abbrev KEY_FAIL_A_GEN : Fld := ⟨0x7, 0x120, 47, 32⟩
abbrev KEY_FAIL_A_TENANT : Fld := ⟨0x7, 0x120, 31, 16⟩
abbrev KEY_FAIL_A_RIGHTS : Fld := ⟨0x7, 0x120, 15, 0⟩
abbrev KEY_FAIL_B_BOUNDS : Fld := ⟨0x7, 0x128, 63, 48⟩
abbrev KEY_FAIL_B_REGION : Fld := ⟨0x7, 0x128, 47, 32⟩
abbrev KEY_LAST_FAIL_CAUSE : Fld := ⟨0x7, 0x130, 63, 60⟩
abbrev KEY_LAST_FAIL_KEY : Fld := ⟨0x7, 0x130, 59, 40⟩
abbrev KEY_LAST_FAIL_QPN : Fld := ⟨0x7, 0x130, 23, 0⟩
abbrev KEY_KCACHE_MISSES : Fld := ⟨0x7, 0x138, 63, 32⟩
abbrev KEY_KCACHE_RESIDENT : Fld := ⟨0x7, 0x138, 20, 0⟩
def regsKEY0 : List RegDesc := [
  ⟨0x100, 1, 0x8, 0x0, [⟨8, 8, .ro⟩, ⟨0, 0, .ro⟩]⟩,  -- KEY_PROT_STAT (R196, 07_keys_protection.md)
  ⟨0x108, 1, 0x8, 0x0, [⟨47, 0, .ro⟩]⟩,  -- KEY_PROT_SEQ (R196, 07_keys_protection.md)
  ⟨0x110, 1, 0x8, 0x8000000000000000, [⟨63, 63, .ro⟩, ⟨47, 0, .ro⟩]⟩,  -- KEY_GEN_DRAIN (R196, 07_keys_protection.md)
  ⟨0x118, 1, 0x8, 0x0, [⟨55, 32, .ro⟩, ⟨31, 0, .ro⟩]⟩,  -- KEY_DRAIN_HOLD (R196, 07_keys_protection.md)
  ⟨0x120, 1, 0x8, 0x0, [⟨63, 48, .rc⟩, ⟨47, 32, .rc⟩, ⟨31, 16, .rc⟩, ⟨15, 0, .rc⟩]⟩,  -- KEY_FAIL_A (R196, 07_keys_protection.md)
  ⟨0x128, 1, 0x8, 0x0, [⟨63, 48, .rc⟩, ⟨47, 32, .rc⟩]⟩,  -- KEY_FAIL_B (R196, 07_keys_protection.md)
  ⟨0x130, 1, 0x8, 0x0, [⟨63, 60, .ro⟩, ⟨59, 40, .ro⟩, ⟨23, 0, .ro⟩]⟩,  -- KEY_LAST_FAIL (R196, 07_keys_protection.md)
  ⟨0x138, 1, 0x8, 0x0, [⟨63, 32, .rc⟩, ⟨20, 0, .ro⟩]⟩]  -- KEY_KCACHE (R196, 07_keys_protection.md)
/-- The registers of page KEY. -/
def regsKEY : List RegDesc := regsKEY0

/-! ### Page HTH -/
abbrev HTH_PART_CACHE_BASE_MIB : Fld := ⟨0x8, 0x100, 43, 32⟩
abbrev HTH_PART_CACHE_SIZE_MIB : Fld := ⟨0x8, 0x100, 11, 0⟩
abbrev HTH_PART_PKT_BASE_MIB : Fld := ⟨0x8, 0x108, 43, 32⟩
abbrev HTH_PART_PKT_SIZE_MIB : Fld := ⟨0x8, 0x108, 11, 0⟩
abbrev HTH_PART_EPOCH_BASE_MIB : Fld := ⟨0x8, 0x110, 43, 32⟩
abbrev HTH_PART_EPOCH_SIZE_MIB : Fld := ⟨0x8, 0x110, 11, 0⟩
abbrev HTH_PART_MEDIA_BASE_MIB : Fld := ⟨0x8, 0x118, 43, 32⟩
abbrev HTH_PART_MEDIA_SIZE_MIB : Fld := ⟨0x8, 0x118, 11, 0⟩
abbrev HTH_PART_CTX_BASE_MIB : Fld := ⟨0x8, 0x120, 43, 32⟩
abbrev HTH_PART_CTX_QP_MIB : Fld := ⟨0x8, 0x120, 23, 16⟩
abbrev HTH_PART_CTX_SIZE_MIB : Fld := ⟨0x8, 0x120, 11, 0⟩
abbrev HTH_PART_SMP_BASE_MIB : Fld := ⟨0x8, 0x128, 43, 32⟩
abbrev HTH_PART_SMP_SIZE_MIB : Fld := ⟨0x8, 0x128, 11, 0⟩
abbrev HTH_PARTITION_APPLIED_GEN : Fld := ⟨0x8, 0x130, 63, 32⟩
abbrev HTH_PARTITION_ERR : Fld := ⟨0x8, 0x130, 23, 16⟩
abbrev HTH_PARTITION_BUSY : Fld := ⟨0x8, 0x130, 8, 8⟩
abbrev HTH_PARTITION_APPLY : Fld := ⟨0x8, 0x130, 0, 0⟩
abbrev HTH_PFC_CFG_XON_GAP : Fld := ⟨0x8, 0x140, 47, 32⟩
abbrev HTH_PFC_CFG_HEADROOM_KIB : Fld := ⟨0x8, 0x140, 10, 0⟩
abbrev HTH_CELL_CAPS_PRIO_CAP : Fld := ⟨0x8, 0x148, 54, 32⟩
abbrev HTH_CELL_CAPS_PORT_CAP : Fld := ⟨0x8, 0x148, 22, 0⟩
abbrev HTH_CELL_RSV_LINK_CAP : Fld := ⟨0x8, 0x150, 54, 32⟩
abbrev HTH_CELL_RSV_EGRESS_RSV : Fld := ⟨0x8, 0x150, 22, 0⟩
abbrev HTH_DMP_THRESH_HOLD_US : Fld := ⟨0x8, 0x158, 47, 32⟩
abbrev HTH_DMP_THRESH_SHUT_OFF : Fld := ⟨0x8, 0x158, 30, 24⟩
abbrev HTH_DMP_THRESH_SHUT_ON : Fld := ⟨0x8, 0x158, 22, 16⟩
abbrev HTH_DMP_THRESH_HALF_OFF : Fld := ⟨0x8, 0x158, 14, 8⟩
abbrev HTH_DMP_THRESH_HALF_ON : Fld := ⟨0x8, 0x158, 6, 0⟩
abbrev HTH_DMP_CTRL_FORCE : Fld := ⟨0x8, 0x160, 1, 0⟩
abbrev HTH_DMP_STAT_SHUT_ENTRIES : Fld := ⟨0x8, 0x168, 63, 48⟩
abbrev HTH_DMP_STAT_BANK_64THS : Fld := ⟨0x8, 0x168, 30, 24⟩
abbrev HTH_DMP_STAT_PKT_64THS : Fld := ⟨0x8, 0x168, 22, 16⟩
abbrev HTH_DMP_STAT_LEVEL : Fld := ⟨0x8, 0x168, 1, 0⟩
abbrev HTH_DMP_TIME_HALF_NS : Fld := ⟨0x8, 0x170, 63, 0⟩
abbrev HTH_DMP_TIME_SHUT_NS : Fld := ⟨0x8, 0x178, 63, 0⟩
abbrev HTH_OCC_PKT_HEADROOM : Fld := ⟨0x8, 0x180, 54, 32⟩
abbrev HTH_OCC_PKT_SHARED : Fld := ⟨0x8, 0x180, 22, 0⟩
abbrev HTH_OCC_STAGE_MEDIA_4K : Fld := ⟨0x8, 0x188, 48, 32⟩
abbrev HTH_OCC_STAGE_EPOCH_4K : Fld := ⟨0x8, 0x188, 16, 0⟩
abbrev HTH_OCC_CTX_DEMAND : Fld := ⟨0x8, 0x190, 49, 32⟩
abbrev HTH_OCC_CTX_RESIDENT : Fld := ⟨0x8, 0x190, 17, 0⟩
abbrev HTH_DROPS_LOSSY : Fld := ⟨0x8, 0x198, 63, 32⟩
abbrev HTH_DROPS_OVERRUN : Fld := ⟨0x8, 0x198, 31, 0⟩
abbrev HTH_COPIES_PIN_SAT : Fld := ⟨0x8, 0x1A0, 63, 32⟩
abbrev HTH_COPIES_COW : Fld := ⟨0x8, 0x1A0, 31, 0⟩
def regsHTH0 : List RegDesc := [
  ⟨0x100, 1, 0x8, 0x600, [⟨43, 32, .ro⟩, ⟨11, 0, .rw⟩]⟩,  -- HTH_PART_CACHE (R69, 03_hearth_store.md)
  ⟨0x108, 1, 0x8, 0x60000000100, [⟨43, 32, .ro⟩, ⟨11, 0, .rw⟩]⟩,  -- HTH_PART_PKT (R69, 03_hearth_store.md)
  ⟨0x110, 1, 0x8, 0x70000000080, [⟨43, 32, .ro⟩, ⟨11, 0, .rw⟩]⟩,  -- HTH_PART_EPOCH (R69, 03_hearth_store.md)
  ⟨0x118, 1, 0x8, 0x78000000040, [⟨43, 32, .ro⟩, ⟨11, 0, .rw⟩]⟩,  -- HTH_PART_MEDIA (R69, 03_hearth_store.md)
  ⟨0x120, 1, 0x8, 0x7C000200030, [⟨43, 32, .ro⟩, ⟨23, 16, .rw⟩, ⟨11, 0, .rw⟩]⟩,  -- HTH_PART_CTX (R69, 03_hearth_store.md)
  ⟨0x128, 1, 0x8, 0x7F000000010, [⟨43, 32, .ro⟩, ⟨11, 0, .rw⟩]⟩,  -- HTH_PART_SMP (R69, 03_hearth_store.md)
  ⟨0x130, 1, 0x8, 0x0, [⟨63, 32, .ro⟩, ⟨23, 16, .ro⟩, ⟨8, 8, .ro⟩, ⟨0, 0, .wo⟩]⟩,  -- HTH_PARTITION (R69, 03_hearth_store.md)
  ⟨0x140, 1, 0x8, 0x80000000180, [⟨47, 32, .rw⟩, ⟨10, 0, .rw⟩]⟩,  -- HTH_PFC_CFG (R81, 03_hearth_store.md)
  ⟨0x148, 1, 0x8, 0x200000004000, [⟨54, 32, .rw⟩, ⟨22, 0, .rw⟩]⟩,  -- HTH_CELL_CAPS (R81, 03_hearth_store.md)
  ⟨0x150, 1, 0x8, 0x800000002000, [⟨54, 32, .rw⟩, ⟨22, 0, .rw⟩]⟩]  -- HTH_CELL_RSV (R81, 03_hearth_store.md)
def regsHTH1 : List RegDesc := [
  ⟨0x158, 1, 0x8, 0xA343A2830, [⟨47, 32, .rw⟩, ⟨30, 24, .rw⟩, ⟨22, 16, .rw⟩, ⟨14, 8, .rw⟩, ⟨6, 0, .rw⟩]⟩,  -- HTH_DMP_THRESH (R86, 03_hearth_store.md)
  ⟨0x160, 1, 0x8, 0x0, [⟨1, 0, .rw⟩]⟩,  -- HTH_DMP_CTRL (R87, 03_hearth_store.md)
  ⟨0x168, 1, 0x8, 0x0, [⟨63, 48, .rc⟩, ⟨30, 24, .ro⟩, ⟨22, 16, .ro⟩, ⟨1, 0, .ro⟩]⟩,  -- HTH_DMP_STAT (R87, 03_hearth_store.md)
  ⟨0x170, 1, 0x8, 0x0, [⟨63, 0, .ro⟩]⟩,  -- HTH_DMP_TIME_HALF (R87, 03_hearth_store.md)
  ⟨0x178, 1, 0x8, 0x0, [⟨63, 0, .ro⟩]⟩,  -- HTH_DMP_TIME_SHUT (R87, 03_hearth_store.md)
  ⟨0x180, 1, 0x8, 0x0, [⟨54, 32, .ro⟩, ⟨22, 0, .ro⟩]⟩,  -- HTH_OCC_PKT (R87, 03_hearth_store.md)
  ⟨0x188, 1, 0x8, 0x0, [⟨48, 32, .ro⟩, ⟨16, 0, .ro⟩]⟩,  -- HTH_OCC_STAGE (R87, 03_hearth_store.md)
  ⟨0x190, 1, 0x8, 0x0, [⟨49, 32, .ro⟩, ⟨17, 0, .ro⟩]⟩,  -- HTH_OCC_CTX (R87, 03_hearth_store.md)
  ⟨0x198, 1, 0x8, 0x0, [⟨63, 32, .rc⟩, ⟨31, 0, .rc⟩]⟩,  -- HTH_DROPS (R87, 03_hearth_store.md)
  ⟨0x1A0, 1, 0x8, 0x0, [⟨63, 32, .rc⟩, ⟨31, 0, .rc⟩]⟩]  -- HTH_COPIES (R87, 03_hearth_store.md)
/-- The registers of page HTH. -/
def regsHTH : List RegDesc := regsHTH0 ++ regsHTH1

/-! ### Page HCA -/
abbrev HCA_CTRL_CLEAN_EN : Fld := ⟨0x9, 0x100, 1, 1⟩
abbrev HCA_CTRL_EN : Fld := ⟨0x9, 0x100, 0, 0⟩
abbrev HCA_STAT_STATE : Fld := ⟨0x9, 0x108, 1, 0⟩
abbrev HCA_OCC_DIRTY : Fld := ⟨0x9, 0x110, 56, 32⟩
abbrev HCA_OCC_VALID : Fld := ⟨0x9, 0x110, 24, 0⟩
abbrev HCA_PINS_UNSEALED : Fld := ⟨0x9, 0x118, 56, 32⟩
abbrev HCA_PINS_PINNED : Fld := ⟨0x9, 0x118, 24, 0⟩
abbrev HCA_MSHR_CFG_RSV_T0 : Fld := ⟨0x9, 0x120, 47, 32⟩
abbrev HCA_MSHR_CFG_CHAN_CAP : Fld := ⟨0x9, 0x120, 15, 0⟩
abbrev HCA_MSHR_STAT_PEAK : Fld := ⟨0x9, 0x128, 46, 32⟩
abbrev HCA_MSHR_STAT_IN_USE : Fld := ⟨0x9, 0x128, 14, 0⟩
abbrev HCA_CLEAN_LO : Fld := ⟨0x9, 0x130, 14, 8⟩
abbrev HCA_CLEAN_HI : Fld := ⟨0x9, 0x130, 6, 0⟩
abbrev HCA_FLUE_STAT_FULL_WAITS : Fld := ⟨0x9, 0x138, 63, 32⟩
abbrev HCA_FLUE_STAT_IN_USE : Fld := ⟨0x9, 0x138, 12, 0⟩
abbrev HCA_HITS_COUNT : Fld := ⟨0x9, 0x140, 63, 0⟩
abbrev HCA_MISSES_COUNT : Fld := ⟨0x9, 0x148, 63, 0⟩
abbrev HCA_WAITS_SET_FULL : Fld := ⟨0x9, 0x150, 63, 48⟩
abbrev HCA_WAITS_SEC_FULL : Fld := ⟨0x9, 0x150, 47, 32⟩
abbrev HCA_WAITS_CHAN_CAP : Fld := ⟨0x9, 0x150, 31, 16⟩
abbrev HCA_WAITS_QUOTA_BYPASS : Fld := ⟨0x9, 0x150, 15, 0⟩
def regsHCA0 : List RegDesc := [
  ⟨0x100, 1, 0x8, 0x3, [⟨1, 1, .rw⟩, ⟨0, 0, .rw⟩]⟩,  -- HCA_CTRL (R108, 04_hearth_cache.md)
  ⟨0x108, 1, 0x8, 0x1, [⟨1, 0, .ro⟩]⟩,  -- HCA_STAT (R108, 04_hearth_cache.md)
  ⟨0x110, 1, 0x8, 0x0, [⟨56, 32, .ro⟩, ⟨24, 0, .ro⟩]⟩,  -- HCA_OCC (R113, 04_hearth_cache.md)
  ⟨0x118, 1, 0x8, 0x0, [⟨56, 32, .ro⟩, ⟨24, 0, .ro⟩]⟩,  -- HCA_PINS (R113, 04_hearth_cache.md)
  ⟨0x120, 1, 0x8, 0x20000000400, [⟨47, 32, .rw⟩, ⟨15, 0, .rw⟩]⟩,  -- HCA_MSHR_CFG (R100, 04_hearth_cache.md)
  ⟨0x128, 1, 0x8, 0x0, [⟨46, 32, .rc⟩, ⟨14, 0, .ro⟩]⟩,  -- HCA_MSHR_STAT (R100, 04_hearth_cache.md)
  ⟨0x130, 1, 0x8, 0x1820, [⟨14, 8, .rw⟩, ⟨6, 0, .rw⟩]⟩,  -- HCA_CLEAN (R105, 04_hearth_cache.md)
  ⟨0x138, 1, 0x8, 0x0, [⟨63, 32, .rc⟩, ⟨12, 0, .ro⟩]⟩,  -- HCA_FLUE_STAT (R105, 04_hearth_cache.md)
  ⟨0x140, 1, 0x8, 0x0, [⟨63, 0, .ro⟩]⟩,  -- HCA_HITS (R113, 04_hearth_cache.md)
  ⟨0x148, 1, 0x8, 0x0, [⟨63, 0, .ro⟩]⟩]  -- HCA_MISSES (R113, 04_hearth_cache.md)
def regsHCA1 : List RegDesc := [
  ⟨0x150, 1, 0x8, 0x0, [⟨63, 48, .rc⟩, ⟨47, 32, .rc⟩, ⟨31, 16, .rc⟩, ⟨15, 0, .rc⟩]⟩]  -- HCA_WAITS (R113, 04_hearth_cache.md)
/-- The registers of page HCA. -/
def regsHCA : List RegDesc := regsHCA0 ++ regsHCA1

/-! ### Page TIR -/
abbrev TIR_POOL_CFG_PT_MIB : Fld := ⟨0xA, 0x100, 51, 32⟩
abbrev TIR_POOL_CFG_REGIONS : Fld := ⟨0xA, 0x100, 17, 0⟩
abbrev TIR_DIRTY_BUDGET_BUDGET_MIB : Fld := ⟨0xA, 0x108, 21, 0⟩
abbrev TIR_DIRTY_MAX_CAP_MAX : Fld := ⟨0xA, 0x110, 55, 55⟩
abbrev TIR_DIRTY_MAX_CAP_RESERVE : Fld := ⟨0xA, 0x110, 54, 54⟩
abbrev TIR_DIRTY_MAX_EFF_MIB : Fld := ⟨0xA, 0x110, 53, 32⟩
abbrev TIR_DIRTY_MAX_MAX_MIB : Fld := ⟨0xA, 0x110, 21, 0⟩
abbrev TIR_DIRTY_CHARGED_BYTES : Fld := ⟨0xA, 0x118, 63, 0⟩
abbrev TIR_DIRTY_RESERVED_BYTES : Fld := ⟨0xA, 0x120, 63, 0⟩
abbrev TIR_DIRTY_PAGES_MAX : Fld := ⟨0xA, 0x128, 63, 32⟩
abbrev TIR_DIRTY_PAGES_COUNT : Fld := ⟨0xA, 0x128, 31, 0⟩
abbrev TIR_RNR_TIMER_CODE : Fld := ⟨0xA, 0x130, 4, 0⟩
abbrev TIR_FRAMES_TOTAL_COUNT : Fld := ⟨0xA, 0x138, 32, 0⟩
abbrev TIR_FRAMES_FREE_COUNT : Fld := ⟨0xA, 0x140, 32, 0⟩
abbrev TIR_SPARE_FRAMES_COUNT : Fld := ⟨0xA, 0x148, 40, 8⟩
abbrev TIR_SPARE_FRAMES_TENTHS : Fld := ⟨0xA, 0x148, 7, 0⟩
abbrev TIR_FRAME_WM_HIGH : Fld := ⟨0xA, 0x150, 25, 16⟩
abbrev TIR_FRAME_WM_LOW : Fld := ⟨0xA, 0x150, 9, 0⟩
abbrev TIR_DESTAGE_HI : Fld := ⟨0xA, 0x158, 38, 32⟩
abbrev TIR_DESTAGE_AGE_US : Fld := ⟨0xA, 0x158, 31, 0⟩
abbrev TIR_FETCH_CFG_RA_PAGES : Fld := ⟨0xA, 0x160, 3, 0⟩
abbrev TIR_FLUSH_RATE_VALID : Fld := ⟨0xA, 0x168, 63, 63⟩
abbrev TIR_FLUSH_RATE_MBPS : Fld := ⟨0xA, 0x168, 31, 0⟩
abbrev TIR_STALL_COUNT_COUNT : Fld := ⟨0xA, 0x400, 63, 0⟩
abbrev TIR_STALL_NS_COUNT : Fld := ⟨0xA, 0x480, 63, 0⟩
def regsTIR0 : List RegDesc := [
  ⟨0x100, 1, 0x8, 0x0, [⟨51, 32, .ro⟩, ⟨17, 0, .rw⟩]⟩,  -- TIR_POOL_CFG (R237, 09_pool_tiers.md)
  ⟨0x108, 1, 0x8, 0x80000, [⟨21, 0, .rw⟩]⟩,  -- TIR_DIRTY_BUDGET (R237, 09_pool_tiers.md)
  ⟨0x110, 1, 0x8, 0x0, [⟨55, 55, .ro⟩, ⟨54, 54, .ro⟩, ⟨53, 32, .ro⟩, ⟨21, 0, .ro⟩]⟩,  -- TIR_DIRTY_MAX (R237, 09_pool_tiers.md)
  ⟨0x118, 1, 0x8, 0x0, [⟨63, 0, .ro⟩]⟩,  -- TIR_DIRTY_CHARGED (R237, 09_pool_tiers.md)
  ⟨0x120, 1, 0x8, 0x0, [⟨63, 0, .ro⟩]⟩,  -- TIR_DIRTY_RESERVED (R237, 09_pool_tiers.md)
  ⟨0x128, 1, 0x8, 0x0, [⟨63, 32, .ro⟩, ⟨31, 0, .ro⟩]⟩,  -- TIR_DIRTY_PAGES (R237, 09_pool_tiers.md)
  ⟨0x130, 1, 0x8, 0xE, [⟨4, 0, .rw⟩]⟩,  -- TIR_RNR_TIMER (R237, 09_pool_tiers.md)
  ⟨0x138, 1, 0x8, 0x0, [⟨32, 0, .ro⟩]⟩,  -- TIR_FRAMES_TOTAL (R237, 09_pool_tiers.md)
  ⟨0x140, 1, 0x8, 0x0, [⟨32, 0, .ro⟩]⟩,  -- TIR_FRAMES_FREE (R237, 09_pool_tiers.md)
  ⟨0x148, 1, 0x8, 0x14, [⟨40, 8, .ro⟩, ⟨7, 0, .rw⟩]⟩]  -- TIR_SPARE_FRAMES (R237, 09_pool_tiers.md)
def regsTIR1 : List RegDesc := [
  ⟨0x150, 1, 0x8, 0x14000A, [⟨25, 16, .rw⟩, ⟨9, 0, .rw⟩]⟩,  -- TIR_FRAME_WM (R237, 09_pool_tiers.md)
  ⟨0x158, 1, 0x8, 0x20000007D0, [⟨38, 32, .rw⟩, ⟨31, 0, .rw⟩]⟩,  -- TIR_DESTAGE (R237, 09_pool_tiers.md)
  ⟨0x160, 1, 0x8, 0x0, [⟨3, 0, .rw⟩]⟩,  -- TIR_FETCH_CFG (R237, 09_pool_tiers.md)
  ⟨0x168, 1, 0x8, 0x0, [⟨63, 63, .ro⟩, ⟨31, 0, .ro⟩]⟩,  -- TIR_FLUSH_RATE (R237, 09_pool_tiers.md)
  ⟨0x400, 12, 0x8, 0x0, [⟨63, 0, .ro⟩]⟩,  -- TIR_STALL_COUNT (R238, 09_pool_tiers.md)
  ⟨0x480, 12, 0x8, 0x0, [⟨63, 0, .ro⟩]⟩]  -- TIR_STALL_NS (R238, 09_pool_tiers.md)
/-- The registers of page TIR. -/
def regsTIR : List RegDesc := regsTIR0 ++ regsTIR1

/-! ### Page MIR -/
abbrev MIR_LINK_CFG_STRAND_EN : Fld := ⟨0xB, 0x100, 39, 32⟩
abbrev MIR_LINK_CFG_RETRY_NS : Fld := ⟨0xB, 0x100, 15, 0⟩
abbrev MIR_LINK_STAT_STRAND_STATE : Fld := ⟨0xB, 0x108, 63, 32⟩
abbrev MIR_LINK_STAT_UP : Fld := ⟨0xB, 0x108, 31, 24⟩
abbrev MIR_LINK_STAT_STATE : Fld := ⟨0xB, 0x108, 1, 0⟩
abbrev MIR_STRAND_CAUSE_CAUSE : Fld := ⟨0xB, 0x110, 31, 0⟩
abbrev MIR_KEY_CFG_ROTATE_LOG2 : Fld := ⟨0xB, 0x118, 36, 32⟩
abbrev MIR_KEY_CFG_ROTATE_S : Fld := ⟨0xB, 0x118, 15, 0⟩
abbrev MIR_KEY_STAT_TX_GEN : Fld := ⟨0xB, 0x120, 63, 32⟩
abbrev MIR_KEY_STAT_RX_GEN : Fld := ⟨0xB, 0x120, 31, 0⟩
abbrev MIR_TIME_STAT_ALIGNED : Fld := ⟨0xB, 0x128, 63, 63⟩
abbrev MIR_TIME_STAT_REFERENCE : Fld := ⟨0xB, 0x128, 62, 62⟩
abbrev MIR_TIME_STAT_DELAY_NS : Fld := ⟨0xB, 0x128, 47, 32⟩
abbrev MIR_TIME_STAT_OFFSET_PS : Fld := ⟨0xB, 0x128, 31, 0⟩
abbrev MIR_SB_CFG_MISS : Fld := ⟨0xB, 0x130, 63, 58⟩
abbrev MIR_SB_CFG_PRIO : Fld := ⟨0xB, 0x130, 57, 55⟩
abbrev MIR_SB_CFG_PORT : Fld := ⟨0xB, 0x130, 54, 48⟩
abbrev MIR_SB_CFG_PEER_MAC : Fld := ⟨0xB, 0x130, 47, 0⟩
abbrev MIR_SB_STAT_ALIVE : Fld := ⟨0xB, 0x138, 63, 63⟩
abbrev MIR_SB_STAT_LAST_SEQ : Fld := ⟨0xB, 0x138, 31, 0⟩
abbrev MIR_EPOCH_NS_NS : Fld := ⟨0xB, 0x140, 14, 0⟩
abbrev MIR_HB_MISS_MISS : Fld := ⟨0xB, 0x148, 8, 0⟩
abbrev MIR_SOLO_WAIT_S : Fld := ⟨0xB, 0x150, 15, 0⟩
abbrev MIR_FENCE_PREF_STRICT : Fld := ⟨0xB, 0x158, 1, 1⟩
abbrev MIR_FENCE_PREF_PREF : Fld := ⟨0xB, 0x158, 0, 0⟩
abbrev MIR_PAIR_GEN_VALUE : Fld := ⟨0xB, 0x160, 63, 0⟩
abbrev MIR_CONFIRMED_VALUE : Fld := ⟨0xB, 0x168, 63, 0⟩
abbrev MIR_OPEN_EPOCH_VALUE : Fld := ⟨0xB, 0x170, 63, 0⟩
abbrev MIR_TAKEOVER_STAT_DURATION_NS : Fld := ⟨0xB, 0x178, 63, 32⟩
abbrev MIR_TAKEOVER_STAT_CAUSE : Fld := ⟨0xB, 0x178, 31, 24⟩
abbrev MIR_TAKEOVER_STAT_REGIONS : Fld := ⟨0xB, 0x178, 17, 0⟩
abbrev MIR_RESYNC_CFG_RETURN_AUTO : Fld := ⟨0xB, 0x180, 16, 16⟩
abbrev MIR_RESYNC_CFG_RATE_GBPS : Fld := ⟨0xB, 0x180, 15, 0⟩
abbrev MIR_RESYNC_STAT_ACTIVE : Fld := ⟨0xB, 0x188, 63, 63⟩
abbrev MIR_RESYNC_STAT_DELTA : Fld := ⟨0xB, 0x188, 62, 62⟩
abbrev MIR_RESYNC_STAT_MUTUAL : Fld := ⟨0xB, 0x188, 61, 61⟩
abbrev MIR_RESYNC_STAT_LEFT : Fld := ⟨0xB, 0x188, 49, 32⟩
abbrev MIR_RESYNC_STAT_DONE : Fld := ⟨0xB, 0x188, 17, 0⟩
abbrev MIR_LINK_COUNTER_COUNT : Fld := ⟨0xB, 0x600, 63, 0⟩
abbrev MIR_TWIN_COUNTER_COUNT : Fld := ⟨0xB, 0x680, 63, 0⟩
def regsMIR0 : List RegDesc := [
  ⟨0x100, 1, 0x8, 0xFF000007D0, [⟨39, 32, .rw⟩, ⟨15, 0, .rw⟩]⟩,  -- MIR_LINK_CFG (R339, 13_swidun_link.md)
  ⟨0x108, 1, 0x8, 0x0, [⟨63, 32, .ro⟩, ⟨31, 24, .ro⟩, ⟨1, 0, .ro⟩]⟩,  -- MIR_LINK_STAT (R339, 13_swidun_link.md)
  ⟨0x110, 1, 0x8, 0x0, [⟨31, 0, .ro⟩]⟩,  -- MIR_STRAND_CAUSE (R339, 13_swidun_link.md)
  ⟨0x118, 1, 0x8, 0x1E0000003C, [⟨36, 32, .rw⟩, ⟨15, 0, .rw⟩]⟩,  -- MIR_KEY_CFG (R339, 13_swidun_link.md)
  ⟨0x120, 1, 0x8, 0x0, [⟨63, 32, .ro⟩, ⟨31, 0, .ro⟩]⟩,  -- MIR_KEY_STAT (R339, 13_swidun_link.md)
  ⟨0x128, 1, 0x8, 0x0, [⟨63, 63, .ro⟩, ⟨62, 62, .ro⟩, ⟨47, 32, .ro⟩, ⟨31, 0, .ro⟩]⟩,  -- MIR_TIME_STAT (R339, 13_swidun_link.md)
  ⟨0x130, 1, 0x8, 0x23FF000000000000, [⟨63, 58, .rw⟩, ⟨57, 55, .rw⟩, ⟨54, 48, .rw⟩, ⟨47, 0, .rw⟩]⟩,  -- MIR_SB_CFG (R339, 13_swidun_link.md)
  ⟨0x138, 1, 0x8, 0x0, [⟨63, 63, .ro⟩, ⟨31, 0, .ro⟩]⟩,  -- MIR_SB_STAT (R339, 13_swidun_link.md)
  ⟨0x140, 1, 0x8, 0x1F4, [⟨14, 0, .rw⟩]⟩,  -- MIR_EPOCH_NS (R364, 14_twin_operation.md)
  ⟨0x148, 1, 0x8, 0x10, [⟨8, 0, .rw⟩]⟩]  -- MIR_HB_MISS (R364, 14_twin_operation.md)
def regsMIR1 : List RegDesc := [
  ⟨0x150, 1, 0x8, 0x3C, [⟨15, 0, .rw⟩]⟩,  -- MIR_SOLO_WAIT (R364, 14_twin_operation.md)
  ⟨0x158, 1, 0x8, 0x0, [⟨1, 1, .rw⟩, ⟨0, 0, .rw⟩]⟩,  -- MIR_FENCE_PREF (R364, 14_twin_operation.md)
  ⟨0x160, 1, 0x8, 0x0, [⟨63, 0, .ro⟩]⟩,  -- MIR_PAIR_GEN (R364, 14_twin_operation.md)
  ⟨0x168, 1, 0x8, 0x0, [⟨63, 0, .ro⟩]⟩,  -- MIR_CONFIRMED (R364, 14_twin_operation.md)
  ⟨0x170, 1, 0x8, 0x0, [⟨63, 0, .ro⟩]⟩,  -- MIR_OPEN_EPOCH (R364, 14_twin_operation.md)
  ⟨0x178, 1, 0x8, 0x0, [⟨63, 32, .ro⟩, ⟨31, 24, .ro⟩, ⟨17, 0, .ro⟩]⟩,  -- MIR_TAKEOVER_STAT (R364, 14_twin_operation.md)
  ⟨0x180, 1, 0x8, 0x10190, [⟨16, 16, .rw⟩, ⟨15, 0, .rw⟩]⟩,  -- MIR_RESYNC_CFG (R364, 14_twin_operation.md)
  ⟨0x188, 1, 0x8, 0x0, [⟨63, 63, .ro⟩, ⟨62, 62, .ro⟩, ⟨61, 61, .ro⟩, ⟨49, 32, .ro⟩, ⟨17, 0, .ro⟩]⟩,  -- MIR_RESYNC_STAT (R364, 14_twin_operation.md)
  ⟨0x600, 15, 0x8, 0x0, [⟨63, 0, .ro⟩]⟩,  -- MIR_LINK_COUNTER (R340, 13_swidun_link.md)
  ⟨0x680, 10, 0x8, 0x0, [⟨63, 0, .ro⟩]⟩]  -- MIR_TWIN_COUNTER (R366, 14_twin_operation.md)
/-- The registers of page MIR. -/
def regsMIR : List RegDesc := regsMIR0 ++ regsMIR1

/-! ### Page MED -/
abbrev MED_GEOM_DIE_TBIT : Fld := ⟨0xC, 0x100, 63, 56⟩
abbrev MED_GEOM_PLANES : Fld := ⟨0xC, 0x100, 55, 52⟩
abbrev MED_GEOM_CELL : Fld := ⟨0xC, 0x100, 49, 48⟩
abbrev MED_GEOM_BLOCKS : Fld := ⟨0xC, 0x100, 47, 32⟩
abbrev MED_GEOM_DIES : Fld := ⟨0xC, 0x100, 25, 16⟩
abbrev MED_GEOM_FITTED : Fld := ⟨0xC, 0x100, 9, 0⟩
abbrev MED_CAP_DATA_MAX_GIB : Fld := ⟨0xC, 0x108, 63, 32⟩
abbrev MED_CAP_DATA_GIB : Fld := ⟨0xC, 0x108, 31, 0⟩
abbrev MED_SLC_SIZE_GIB : Fld := ⟨0xC, 0x110, 63, 44⟩
abbrev MED_SLC_USED_GIB : Fld := ⟨0xC, 0x110, 43, 24⟩
abbrev MED_SLC_FOLD_PCT : Fld := ⟨0xC, 0x110, 22, 16⟩
abbrev MED_SLC_MAX_GIB : Fld := ⟨0xC, 0x110, 15, 0⟩
abbrev MED_FLUSH_RSV_CAP_MIB : Fld := ⟨0xC, 0x118, 63, 32⟩
abbrev MED_FLUSH_RSV_TARGET_MIB : Fld := ⟨0xC, 0x118, 31, 0⟩
abbrev MED_OP_PCT : Fld := ⟨0xC, 0x120, 7, 0⟩
abbrev MED_PROG_TMIN_C : Fld := ⟨0xC, 0x128, 7, 0⟩
abbrev MED_PROG_TMAX_C : Fld := ⟨0xC, 0x130, 7, 0⟩
abbrev MED_WIN_STAT_CLOSED : Fld := ⟨0xC, 0x138, 32, 32⟩
abbrev MED_WIN_STAT_OPEN : Fld := ⟨0xC, 0x138, 31, 0⟩
abbrev MED_ERASE_VERIFY_BITS_BITS : Fld := ⟨0xC, 0x140, 15, 0⟩
abbrev MED_RETRY_SOFT_EN : Fld := ⟨0xC, 0x148, 16, 16⟩
abbrev MED_RETRY_REFRESH_BITS : Fld := ⟨0xC, 0x148, 15, 8⟩
abbrev MED_RETRY_MAX_STEPS : Fld := ⟨0xC, 0x148, 4, 0⟩
abbrev MED_RECLAIM_PATROL_D : Fld := ⟨0xC, 0x150, 63, 48⟩
abbrev MED_RECLAIM_WL_MOVES_H : Fld := ⟨0xC, 0x150, 31, 24⟩
abbrev MED_RECLAIM_WL_DELTA : Fld := ⟨0xC, 0x150, 23, 12⟩
abbrev MED_RECLAIM_FREE_HI : Fld := ⟨0xC, 0x150, 7, 4⟩
abbrev MED_RECLAIM_FREE_LO : Fld := ⟨0xC, 0x150, 3, 0⟩
abbrev MED_SUSPEND_EN : Fld := ⟨0xC, 0x158, 32, 32⟩
abbrev MED_SUSPEND_MAX_ERASE : Fld := ⟨0xC, 0x158, 31, 24⟩
abbrev MED_SUSPEND_MAX_PROG : Fld := ⟨0xC, 0x158, 23, 16⟩
abbrev MED_SUSPEND_MIN_US : Fld := ⟨0xC, 0x158, 15, 0⟩
abbrev MED_PROBE_INTERVAL_H : Fld := ⟨0xC, 0x160, 63, 56⟩
abbrev MED_PROBE_CONC : Fld := ⟨0xC, 0x160, 41, 32⟩
abbrev MED_PROBE_BUSY : Fld := ⟨0xC, 0x160, 0, 0⟩
abbrev MED_WEAR_RATED : Fld := ⟨0xC, 0x168, 63, 48⟩
abbrev MED_WEAR_MAX : Fld := ⟨0xC, 0x168, 47, 32⟩
abbrev MED_WEAR_MEAN : Fld := ⟨0xC, 0x168, 31, 16⟩
abbrev MED_WEAR_MIN : Fld := ⟨0xC, 0x168, 15, 0⟩
abbrev MED_COUNTER_COUNT : Fld := ⟨0xC, 0x400, 63, 0⟩
def regsMED0 : List RegDesc := [
  ⟨0x100, 1, 0x8, 0x0, [⟨63, 56, .ro⟩, ⟨55, 52, .ro⟩, ⟨49, 48, .ro⟩, ⟨47, 32, .ro⟩, ⟨25, 16, .ro⟩, ⟨9, 0, .ro⟩]⟩,  -- MED_GEOM (R292, 11_media.md)
  ⟨0x108, 1, 0x8, 0x0, [⟨63, 32, .ro⟩, ⟨31, 0, .ro⟩]⟩,  -- MED_CAP (R292, 11_media.md)
  ⟨0x110, 1, 0x8, 0x321000, [⟨63, 44, .ro⟩, ⟨43, 24, .ro⟩, ⟨22, 16, .rw⟩, ⟨15, 0, .rw⟩]⟩,  -- MED_SLC (R292, 11_media.md)
  ⟨0x118, 1, 0x8, 0x0, [⟨63, 32, .ro⟩, ⟨31, 0, .ro⟩]⟩,  -- MED_FLUSH_RSV (R292, 11_media.md)
  ⟨0x120, 1, 0x8, 0x7, [⟨7, 0, .rw⟩]⟩,  -- MED_OP (R292, 11_media.md)
  ⟨0x128, 1, 0x8, 0x0, [⟨7, 0, .rw⟩]⟩,  -- MED_PROG_TMIN (R292, 11_media.md)
  ⟨0x130, 1, 0x8, 0x4B, [⟨7, 0, .rw⟩]⟩,  -- MED_PROG_TMAX (R292, 11_media.md)
  ⟨0x138, 1, 0x8, 0x0, [⟨32, 32, .ro⟩, ⟨31, 0, .ro⟩]⟩,  -- MED_WIN_STAT (R292, 11_media.md)
  ⟨0x140, 1, 0x8, 0x40, [⟨15, 0, .rw⟩]⟩,  -- MED_ERASE_VERIFY_BITS (R292, 11_media.md)
  ⟨0x148, 1, 0x8, 0x15010, [⟨16, 16, .rw⟩, ⟨15, 8, .rw⟩, ⟨4, 0, .rw⟩]⟩]  -- MED_RETRY (R292, 11_media.md)
def regsMED1 : List RegDesc := [
  ⟨0x150, 1, 0x8, 0xE0000080C8042, [⟨63, 48, .rw⟩, ⟨31, 24, .rw⟩, ⟨23, 12, .rw⟩, ⟨7, 4, .rw⟩, ⟨3, 0, .rw⟩]⟩,  -- MED_RECLAIM (R292, 11_media.md)
  ⟨0x158, 1, 0x8, 0x110040032, [⟨32, 32, .rw⟩, ⟨31, 24, .rw⟩, ⟨23, 16, .rw⟩, ⟨15, 0, .rw⟩]⟩,  -- MED_SUSPEND (R292, 11_media.md)
  ⟨0x160, 1, 0x8, 0x1800000000000000, [⟨63, 56, .rw⟩, ⟨41, 32, .ro⟩, ⟨0, 0, .ro⟩]⟩,  -- MED_PROBE (R292, 11_media.md)
  ⟨0x168, 1, 0x8, 0x0, [⟨63, 48, .ro⟩, ⟨47, 32, .ro⟩, ⟨31, 16, .ro⟩, ⟨15, 0, .ro⟩]⟩,  -- MED_WEAR (R292, 11_media.md)
  ⟨0x400, 16, 0x8, 0x0, [⟨63, 0, .ro⟩]⟩]  -- MED_COUNTER (R294, 11_media.md)
/-- The registers of page MED. -/
def regsMED : List RegDesc := regsMED0 ++ regsMED1

/-! ### Page PMU -/
abbrev PMU_CTRL_RUN : Fld := ⟨0xD, 0x100, 3, 3⟩
abbrev PMU_CTRL_CLEAR : Fld := ⟨0xD, 0x100, 2, 2⟩
abbrev PMU_CTRL_SNAP : Fld := ⟨0xD, 0x100, 1, 1⟩
abbrev PMU_CTRL_USER_EN : Fld := ⟨0xD, 0x100, 0, 0⟩
abbrev PMU_SNAP_TIME_NS : Fld := ⟨0xD, 0x108, 63, 0⟩
def regsPMU0 : List RegDesc := [
  ⟨0x100, 1, 0x8, 0x8, [⟨3, 3, .rw⟩, ⟨2, 2, .w1s⟩, ⟨1, 1, .w1s⟩, ⟨0, 0, .rw⟩]⟩,  -- PMU_CTRL (R468, 19_observability.md)
  ⟨0x108, 1, 0x8, 0x0, [⟨63, 0, .ro⟩]⟩]  -- PMU_SNAP_TIME (R468, 19_observability.md)
/-- The registers of page PMU. -/
def regsPMU : List RegDesc := regsPMU0

/-! ### Page SMP -/
abbrev SMP_CFG_MIN_NS : Fld := ⟨0xE, 0x100, 63, 32⟩
abbrev SMP_CFG_PERIOD : Fld := ⟨0xE, 0x100, 31, 16⟩
abbrev SMP_CFG_EN : Fld := ⟨0xE, 0x100, 0, 0⟩
abbrev SMP_FILTER_QPN_EN : Fld := ⟨0xE, 0x108, 56, 56⟩
abbrev SMP_FILTER_QPN : Fld := ⟨0xE, 0x108, 55, 32⟩
abbrev SMP_FILTER_OPS : Fld := ⟨0xE, 0x108, 19, 16⟩
abbrev SMP_FILTER_TENANT : Fld := ⟨0xE, 0x108, 15, 8⟩
abbrev SMP_FILTER_PORT : Fld := ⟨0xE, 0x108, 6, 0⟩
abbrev SMP_EXP_BASE_ADDR : Fld := ⟨0xE, 0x110, 63, 12⟩
abbrev SMP_EXP_CTRL_EN : Fld := ⟨0xE, 0x118, 31, 31⟩
abbrev SMP_EXP_CTRL_VECTOR : Fld := ⟨0xE, 0x118, 29, 24⟩
abbrev SMP_EXP_CTRL_SIZE : Fld := ⟨0xE, 0x118, 20, 16⟩
abbrev SMP_EXP_PTR_TAIL : Fld := ⟨0xE, 0x120, 51, 32⟩
abbrev SMP_EXP_PTR_HEAD : Fld := ⟨0xE, 0x120, 19, 0⟩
abbrev SMP_STAT_TAKEN : Fld := ⟨0xE, 0x128, 63, 48⟩
abbrev SMP_STAT_MISSED : Fld := ⟨0xE, 0x128, 47, 32⟩
abbrev SMP_STAT_HELD : Fld := ⟨0xE, 0x128, 20, 0⟩
def regsSMP0 : List RegDesc := [
  ⟨0x100, 1, 0x8, 0x4000000, [⟨63, 32, .rw⟩, ⟨31, 16, .rw⟩, ⟨0, 0, .rw⟩]⟩,  -- SMP_CFG (R468, 19_observability.md)
  ⟨0x108, 1, 0x8, 0xF007F, [⟨56, 56, .rw⟩, ⟨55, 32, .rw⟩, ⟨19, 16, .rw⟩, ⟨15, 8, .rw⟩, ⟨6, 0, .rw⟩]⟩,  -- SMP_FILTER (R468, 19_observability.md)
  ⟨0x110, 1, 0x8, 0x0, [⟨63, 12, .rw⟩]⟩,  -- SMP_EXP_BASE (R468, 19_observability.md)
  ⟨0x118, 1, 0x8, 0x0, [⟨31, 31, .rw⟩, ⟨29, 24, .rw⟩, ⟨20, 16, .rw⟩]⟩,  -- SMP_EXP_CTRL (R468, 19_observability.md)
  ⟨0x120, 1, 0x8, 0x0, [⟨51, 32, .ro⟩, ⟨19, 0, .rw⟩]⟩,  -- SMP_EXP_PTR (R468, 19_observability.md)
  ⟨0x128, 1, 0x8, 0x0, [⟨63, 48, .rc⟩, ⟨47, 32, .rc⟩, ⟨20, 0, .ro⟩]⟩]  -- SMP_STAT (R468, 19_observability.md)
/-- The registers of page SMP. -/
def regsSMP : List RegDesc := regsSMP0

/-! ### Page MGI -/
abbrev MGI_SPI_ERR_FRAG_COUNT : Fld := ⟨0xF, 0x100, 63, 48⟩
abbrev MGI_SPI_ERR_EXTRA_COUNT : Fld := ⟨0xF, 0x100, 47, 32⟩
abbrev MGI_SPI_ERR_LATE : Fld := ⟨0xF, 0x100, 4, 4⟩
abbrev MGI_SPI_ERR_DENIED : Fld := ⟨0xF, 0x100, 3, 3⟩
abbrev MGI_SPI_ERR_BADOP : Fld := ⟨0xF, 0x100, 2, 2⟩
abbrev MGI_SPI_ERR_EXTRA : Fld := ⟨0xF, 0x100, 1, 1⟩
abbrev MGI_SPI_ERR_FRAG : Fld := ⟨0xF, 0x100, 0, 0⟩
abbrev MGI_BMC_WR_PAGES : Fld := ⟨0xF, 0x108, 18, 0⟩
abbrev MGI_SMB_CFG_PEC_REQ : Fld := ⟨0xF, 0x110, 8, 8⟩
abbrev MGI_SMB_CFG_ADDR : Fld := ⟨0xF, 0x110, 6, 0⟩
abbrev MGI_SMB_ERR_COUNT : Fld := ⟨0xF, 0x118, 63, 48⟩
abbrev MGI_SMB_ERR_DENIED : Fld := ⟨0xF, 0x118, 3, 3⟩
abbrev MGI_SMB_ERR_BADCMD : Fld := ⟨0xF, 0x118, 2, 2⟩
abbrev MGI_SMB_ERR_TIMEOUT : Fld := ⟨0xF, 0x118, 1, 1⟩
abbrev MGI_SMB_ERR_PEC : Fld := ⟨0xF, 0x118, 0, 0⟩
abbrev MGI_BUS_STAT_PMB_FAILED : Fld := ⟨0xF, 0x120, 47, 32⟩
abbrev MGI_BUS_STAT_I3C_BUS1 : Fld := ⟨0xF, 0x120, 13, 8⟩
abbrev MGI_BUS_STAT_I3C_BUS0 : Fld := ⟨0xF, 0x120, 5, 0⟩
abbrev MGI_JTAG_STAT_IDCODE : Fld := ⟨0xF, 0x128, 63, 32⟩
abbrev MGI_JTAG_STAT_TEST_MODE : Fld := ⟨0xF, 0x128, 1, 1⟩
abbrev MGI_JTAG_STAT_REFUSED : Fld := ⟨0xF, 0x128, 0, 0⟩
abbrev MGI_PCIE_STAT_DOWN_COUNT : Fld := ⟨0xF, 0x130, 63, 32⟩
abbrev MGI_PCIE_STAT_UP : Fld := ⟨0xF, 0x130, 8, 8⟩
abbrev MGI_PCIE_STAT_GEN : Fld := ⟨0xF, 0x130, 7, 4⟩
abbrev MGI_PCIE_STAT_WIDTH : Fld := ⟨0xF, 0x130, 3, 0⟩
def regsMGI0 : List RegDesc := [
  ⟨0x100, 1, 0x8, 0x0, [⟨63, 48, .rc⟩, ⟨47, 32, .rc⟩, ⟨4, 4, .w1c⟩, ⟨3, 3, .w1c⟩, ⟨2, 2, .w1c⟩, ⟨1, 1, .w1c⟩, ⟨0, 0, .w1c⟩]⟩,  -- MGI_SPI_ERR (R447, 18_control_complex.md)
  ⟨0x108, 1, 0x8, 0x8006, [⟨18, 0, .rw⟩]⟩,  -- MGI_BMC_WR (R447, 18_control_complex.md)
  ⟨0x110, 1, 0x8, 0x14C, [⟨8, 8, .rw⟩, ⟨6, 0, .rw⟩]⟩,  -- MGI_SMB_CFG (R447, 18_control_complex.md)
  ⟨0x118, 1, 0x8, 0x0, [⟨63, 48, .rc⟩, ⟨3, 3, .w1c⟩, ⟨2, 2, .w1c⟩, ⟨1, 1, .w1c⟩, ⟨0, 0, .w1c⟩]⟩,  -- MGI_SMB_ERR (R447, 18_control_complex.md)
  ⟨0x120, 1, 0x8, 0x0, [⟨47, 32, .ro⟩, ⟨13, 8, .ro⟩, ⟨5, 0, .ro⟩]⟩,  -- MGI_BUS_STAT (R447, 18_control_complex.md)
  ⟨0x128, 1, 0x8, 0x0, [⟨63, 32, .ro⟩, ⟨1, 1, .ro⟩, ⟨0, 0, .w1c⟩]⟩,  -- MGI_JTAG_STAT (R447, 18_control_complex.md)
  ⟨0x130, 1, 0x8, 0x0, [⟨63, 32, .ro⟩, ⟨8, 8, .ro⟩, ⟨7, 4, .ro⟩, ⟨3, 0, .ro⟩]⟩]  -- MGI_PCIE_STAT (R447, 18_control_complex.md)
/-- The registers of page MGI. -/
def regsMGI : List RegDesc := regsMGI0

/-! ### Page TRG -/
abbrev TRG_STAT_RUNNING : Fld := ⟨0x10, 0x100, 47, 32⟩
abbrev TRG_STAT_ARMED : Fld := ⟨0x10, 0x100, 15, 0⟩
abbrev TRG_COUNTS_FIRES : Fld := ⟨0x10, 0x108, 63, 32⟩
abbrev TRG_COUNTS_FAILS : Fld := ⟨0x10, 0x108, 31, 0⟩
abbrev TRG_LAST_FAIL_CAUSE : Fld := ⟨0x10, 0x110, 63, 56⟩
abbrev TRG_LAST_FAIL_STEP : Fld := ⟨0x10, 0x110, 55, 52⟩
abbrev TRG_LAST_FAIL_CHAIN : Fld := ⟨0x10, 0x110, 46, 32⟩
abbrev TRG_LAST_FAIL_QPN : Fld := ⟨0x10, 0x110, 23, 0⟩
def regsTRG0 : List RegDesc := [
  ⟨0x100, 1, 0x8, 0x0, [⟨47, 32, .ro⟩, ⟨15, 0, .ro⟩]⟩,  -- TRG_STAT (R210, 08_trigger_chains.md)
  ⟨0x108, 1, 0x8, 0x0, [⟨63, 32, .rc⟩, ⟨31, 0, .rc⟩]⟩,  -- TRG_COUNTS (R210, 08_trigger_chains.md)
  ⟨0x110, 1, 0x8, 0x0, [⟨63, 56, .ro⟩, ⟨55, 52, .ro⟩, ⟨46, 32, .ro⟩, ⟨23, 0, .ro⟩]⟩]  -- TRG_LAST_FAIL (R210, 08_trigger_chains.md)
/-- The registers of page TRG. -/
def regsTRG : List RegDesc := regsTRG0

/-! ### Page RDX -/
abbrev RDX_CC_CFG_RATE_MIN : Fld := ⟨0x11, 0x100, 63, 48⟩
abbrev RDX_CC_CFG_RAI : Fld := ⟨0x11, 0x100, 47, 32⟩
abbrev RDX_CC_CFG_G_SHIFT : Fld := ⟨0x11, 0x100, 27, 24⟩
abbrev RDX_CC_CFG_ALPHA_US : Fld := ⟨0x11, 0x100, 23, 12⟩
abbrev RDX_CC_CFG_INC_US : Fld := ⟨0x11, 0x100, 11, 0⟩
abbrev RDX_CNP_CFG_CNP_DSCP : Fld := ⟨0x11, 0x108, 37, 32⟩
abbrev RDX_CNP_CFG_CNP_PRIO : Fld := ⟨0x11, 0x108, 26, 24⟩
abbrev RDX_CNP_CFG_EN : Fld := ⟨0x11, 0x108, 16, 16⟩
abbrev RDX_CNP_CFG_CNP_GAP_US : Fld := ⟨0x11, 0x108, 15, 0⟩
abbrev RDX_QP_STAT_HOSTED : Fld := ⟨0x11, 0x110, 49, 32⟩
abbrev RDX_QP_STAT_OWNED : Fld := ⟨0x11, 0x110, 17, 0⟩
abbrev RDX_COUNTER_COUNT : Fld := ⟨0x11, 0x400, 63, 0⟩
def regsRDX0 : List RegDesc := [
  ⟨0x100, 1, 0x8, 0xA00320803712C, [⟨63, 48, .rw⟩, ⟨47, 32, .rw⟩, ⟨27, 24, .rw⟩, ⟨23, 12, .rw⟩, ⟨11, 0, .rw⟩]⟩,  -- RDX_CC_CFG (R173, 06_rdma_transport.md)
  ⟨0x108, 1, 0x8, 0x3006010032, [⟨37, 32, .rw⟩, ⟨26, 24, .rw⟩, ⟨16, 16, .rw⟩, ⟨15, 0, .rw⟩]⟩,  -- RDX_CNP_CFG (R173, 06_rdma_transport.md)
  ⟨0x110, 1, 0x8, 0x0, [⟨49, 32, .ro⟩, ⟨17, 0, .ro⟩]⟩,  -- RDX_QP_STAT (R173, 06_rdma_transport.md)
  ⟨0x400, 22, 0x8, 0x0, [⟨63, 0, .ro⟩]⟩]  -- RDX_COUNTER (R174, 06_rdma_transport.md)
/-- The registers of page RDX. -/
def regsRDX : List RegDesc := regsRDX0

/-! ### Page CCX -/
abbrev CCX_CORE_STAT_STATE : Fld := ⟨0x12, 0x100, 63, 0⟩
abbrev CCX_ROLE_ROLE : Fld := ⟨0x12, 0x108, 63, 0⟩
abbrev CCX_LOAD_BUSY : Fld := ⟨0x12, 0x110, 63, 0⟩
abbrev CCX_WD_LEFT_MS : Fld := ⟨0x12, 0x118, 63, 32⟩
abbrev CCX_WD_TIMEOUT_MS : Fld := ⟨0x12, 0x118, 15, 0⟩
abbrev CCX_CM_RATE : Fld := ⟨0x12, 0x120, 63, 32⟩
abbrev CCX_CM_QUEUED : Fld := ⟨0x12, 0x120, 15, 0⟩
def regsCCX0 : List RegDesc := [
  ⟨0x100, 1, 0x8, 0x0, [⟨63, 0, .ro⟩]⟩,  -- CCX_CORE_STAT (R432, 18_control_complex.md)
  ⟨0x108, 1, 0x8, 0x0, [⟨63, 0, .ro⟩]⟩,  -- CCX_ROLE (R432, 18_control_complex.md)
  ⟨0x110, 1, 0x8, 0x0, [⟨63, 0, .ro⟩]⟩,  -- CCX_LOAD (R432, 18_control_complex.md)
  ⟨0x118, 1, 0x8, 0x3E8, [⟨63, 32, .ro⟩, ⟨15, 0, .rw⟩]⟩,  -- CCX_WD (R432, 18_control_complex.md)
  ⟨0x120, 1, 0x8, 0x0, [⟨63, 32, .ro⟩, ⟨15, 0, .ro⟩]⟩]  -- CCX_CM (R432, 18_control_complex.md)
/-- The registers of page CCX. -/
def regsCCX : List RegDesc := regsCCX0

/-! ### Page DCH -/
abbrev DCH_POP_MTS : Fld := ⟨0x40, 0x100, 63, 48⟩
abbrev DCH_POP_CAP_GIB : Fld := ⟨0x40, 0x100, 40, 32⟩
abbrev DCH_POP_RANKS : Fld := ⟨0x40, 0x100, 19, 18⟩
abbrev DCH_POP_STACK : Fld := ⟨0x40, 0x100, 17, 16⟩
abbrev DCH_POP_WIDTH : Fld := ⟨0x40, 0x100, 12, 12⟩
abbrev DCH_POP_TYPE : Fld := ⟨0x40, 0x100, 9, 8⟩
abbrev DCH_POP_SLOTS : Fld := ⟨0x40, 0x100, 1, 0⟩
abbrev DCH_CFG_SPEED_CAP : Fld := ⟨0x40, 0x108, 15, 0⟩
abbrev DCH_URG_TGT_BACKGROUND : Fld := ⟨0x40, 0x110, 59, 48⟩
abbrev DCH_URG_TGT_APPLY : Fld := ⟨0x40, 0x110, 47, 36⟩
abbrev DCH_URG_TGT_MEDIA : Fld := ⟨0x40, 0x110, 35, 24⟩
abbrev DCH_URG_TGT_WRITE : Fld := ⟨0x40, 0x110, 23, 12⟩
abbrev DCH_URG_TGT_DEMAND : Fld := ⟨0x40, 0x110, 11, 0⟩
abbrev DCH_SCHED_HIT_MAX : Fld := ⟨0x40, 0x118, 39, 32⟩
abbrev DCH_SCHED_WR_HI : Fld := ⟨0x40, 0x118, 27, 16⟩
abbrev DCH_SCHED_WR_LO : Fld := ⟨0x40, 0x118, 11, 0⟩
abbrev DCH_REFRESH_THROTTLE_C : Fld := ⟨0x40, 0x120, 31, 24⟩
abbrev DCH_REFRESH_HOT_C : Fld := ⟨0x40, 0x120, 23, 16⟩
abbrev DCH_REFRESH_POSTPONE_MAX : Fld := ⟨0x40, 0x120, 10, 8⟩
abbrev DCH_REFRESH_MODE : Fld := ⟨0x40, 0x120, 1, 0⟩
abbrev DCH_SELFREF_SR_EN : Fld := ⟨0x40, 0x128, 16, 16⟩
abbrev DCH_SELFREF_IDLE_US : Fld := ⟨0x40, 0x128, 15, 0⟩
abbrev DCH_RETRAIN_RETRY_LIMIT : Fld := ⟨0x40, 0x130, 47, 32⟩
abbrev DCH_RETRAIN_DRIFT_PS : Fld := ⟨0x40, 0x130, 23, 16⟩
abbrev DCH_RETRAIN_INTERVAL_MS : Fld := ⟨0x40, 0x130, 15, 0⟩
abbrev DCH_RANK_UE_SEEN : Fld := ⟨0x40, 0x138, 11, 8⟩
abbrev DCH_RANK_STATE : Fld := ⟨0x40, 0x138, 7, 0⟩
abbrev DCH_CE_LIMIT_UE_RETIRE : Fld := ⟨0x40, 0x140, 63, 63⟩
abbrev DCH_CE_LIMIT_WINDOW_S : Fld := ⟨0x40, 0x140, 47, 32⟩
abbrev DCH_CE_LIMIT_COUNT : Fld := ⟨0x40, 0x140, 15, 0⟩
abbrev DCH_MIGRATE_RATE_MB : Fld := ⟨0x40, 0x148, 63, 48⟩
abbrev DCH_MIGRATE_FRAMES_LEFT : Fld := ⟨0x40, 0x148, 31, 0⟩
abbrev DCH_TEMP_THROTTLED : Fld := ⟨0x40, 0x150, 17, 17⟩
abbrev DCH_TEMP_HOT : Fld := ⟨0x40, 0x150, 16, 16⟩
abbrev DCH_TEMP_SLOT1_C : Fld := ⟨0x40, 0x150, 15, 8⟩
abbrev DCH_TEMP_SLOT0_C : Fld := ⟨0x40, 0x150, 7, 0⟩
abbrev DCH_QUEUE_WRITES : Fld := ⟨0x40, 0x158, 60, 48⟩
abbrev DCH_QUEUE_READS : Fld := ⟨0x40, 0x158, 44, 32⟩
abbrev DCH_QUEUE_OVERFLOW : Fld := ⟨0x40, 0x158, 24, 16⟩
abbrev DCH_QUEUE_URGENT : Fld := ⟨0x40, 0x158, 15, 0⟩
abbrev DCH_COUNTER_COUNT : Fld := ⟨0x40, 0x400, 63, 0⟩
def regsDCH0 : List RegDesc := [
  ⟨0x100, 1, 0x8, 0x0, [⟨63, 48, .ro⟩, ⟨40, 32, .ro⟩, ⟨19, 18, .ro⟩, ⟨17, 16, .ro⟩, ⟨12, 12, .ro⟩, ⟨9, 8, .ro⟩, ⟨1, 0, .ro⟩]⟩,  -- DCH_POP (R259, 10_dram.md)
  ⟨0x108, 1, 0x8, 0x0, [⟨15, 0, .rw⟩]⟩,  -- DCH_CFG (R259, 10_dram.md)
  ⟨0x110, 1, 0x8, 0x7D00640C8190028, [⟨59, 48, .rw⟩, ⟨47, 36, .rw⟩, ⟨35, 24, .rw⟩, ⟨23, 12, .rw⟩, ⟨11, 0, .rw⟩]⟩,  -- DCH_URG_TGT (R259, 10_dram.md)
  ⟨0x118, 1, 0x8, 0x1001000040, [⟨39, 32, .rw⟩, ⟨27, 16, .rw⟩, ⟨11, 0, .rw⟩]⟩,  -- DCH_SCHED (R259, 10_dram.md)
  ⟨0x120, 1, 0x8, 0x5D550400, [⟨31, 24, .rw⟩, ⟨23, 16, .rw⟩, ⟨10, 8, .rw⟩, ⟨1, 0, .rw⟩]⟩,  -- DCH_REFRESH (R259, 10_dram.md)
  ⟨0x128, 1, 0x8, 0x10032, [⟨16, 16, .rw⟩, ⟨15, 0, .rw⟩]⟩,  -- DCH_SELFREF (R259, 10_dram.md)
  ⟨0x130, 1, 0x8, 0x40000A0064, [⟨47, 32, .rw⟩, ⟨23, 16, .rw⟩, ⟨15, 0, .rw⟩]⟩,  -- DCH_RETRAIN (R259, 10_dram.md)
  ⟨0x138, 1, 0x8, 0x0, [⟨11, 8, .w1c⟩, ⟨7, 0, .ro⟩]⟩,  -- DCH_RANK (R259, 10_dram.md)
  ⟨0x140, 1, 0x8, 0x80000E1000000400, [⟨63, 63, .rw⟩, ⟨47, 32, .rw⟩, ⟨15, 0, .rw⟩]⟩,  -- DCH_CE_LIMIT (R259, 10_dram.md)
  ⟨0x148, 1, 0x8, 0x1F40000000000000, [⟨63, 48, .rw⟩, ⟨31, 0, .ro⟩]⟩]  -- DCH_MIGRATE (R259, 10_dram.md)
def regsDCH1 : List RegDesc := [
  ⟨0x150, 1, 0x8, 0x0, [⟨17, 17, .ro⟩, ⟨16, 16, .ro⟩, ⟨15, 8, .ro⟩, ⟨7, 0, .ro⟩]⟩,  -- DCH_TEMP (R259, 10_dram.md)
  ⟨0x158, 1, 0x8, 0x0, [⟨60, 48, .ro⟩, ⟨44, 32, .ro⟩, ⟨24, 16, .ro⟩, ⟨15, 0, .ro⟩]⟩,  -- DCH_QUEUE (R259, 10_dram.md)
  ⟨0x400, 20, 0x8, 0x0, [⟨63, 0, .ro⟩]⟩]  -- DCH_COUNTER (R261, 10_dram.md)
/-- The registers of page DCH. -/
def regsDCH : List RegDesc := regsDCH0 ++ regsDCH1

/-! ### Page NCH -/
abbrev NCH_CFG_MTS_CAP : Fld := ⟨0x80, 0x100, 15, 0⟩
abbrev NCH_STAT_MTS : Fld := ⟨0x80, 0x108, 63, 48⟩
abbrev NCH_STAT_MODE : Fld := ⟨0x80, 0x108, 16, 16⟩
abbrev NCH_STAT_FITTED : Fld := ⟨0x80, 0x108, 15, 0⟩
abbrev NCH_DIES_STATE : Fld := ⟨0x80, 0x110, 47, 0⟩
abbrev NCH_TEMP_WIN_OPEN : Fld := ⟨0x80, 0x118, 8, 8⟩
abbrev NCH_TEMP_CASE_C : Fld := ⟨0x80, 0x118, 7, 0⟩
abbrev NCH_COUNTER_COUNT : Fld := ⟨0x80, 0x400, 63, 0⟩
def regsNCH0 : List RegDesc := [
  ⟨0x100, 1, 0x8, 0x0, [⟨15, 0, .rw⟩]⟩,  -- NCH_CFG (R296, 11_media.md)
  ⟨0x108, 1, 0x8, 0x0, [⟨63, 48, .ro⟩, ⟨16, 16, .ro⟩, ⟨15, 0, .ro⟩]⟩,  -- NCH_STAT (R296, 11_media.md)
  ⟨0x110, 1, 0x8, 0x0, [⟨47, 0, .ro⟩]⟩,  -- NCH_DIES (R296, 11_media.md)
  ⟨0x118, 1, 0x8, 0x0, [⟨8, 8, .ro⟩, ⟨7, 0, .ro⟩]⟩,  -- NCH_TEMP (R296, 11_media.md)
  ⟨0x400, 8, 0x8, 0x0, [⟨63, 0, .ro⟩]⟩]  -- NCH_COUNTER (R298, 11_media.md)
/-- The registers of page NCH. -/
def regsNCH : List RegDesc := regsNCH0

/-! ### Page HPT -/
abbrev HPT_MODE_PTP_EN : Fld := ⟨0x100, 0x100, 24, 24⟩
abbrev HPT_MODE_LANE_INV : Fld := ⟨0x100, 0x100, 23, 20⟩
abbrev HPT_MODE_LT_EN : Fld := ⟨0x100, 0x100, 12, 12⟩
abbrev HPT_MODE_AN_EN : Fld := ⟨0x100, 0x100, 11, 11⟩
abbrev HPT_MODE_FEC : Fld := ⟨0x100, 0x100, 7, 6⟩
abbrev HPT_MODE_MEDIA : Fld := ⟨0x100, 0x100, 5, 4⟩
abbrev HPT_MODE_SPEED : Fld := ⟨0x100, 0x100, 1, 0⟩
abbrev HPT_MAC_ADDR_ADDR : Fld := ⟨0x100, 0x108, 47, 0⟩
abbrev HPT_FRAME_PRIO_MODE : Fld := ⟨0x100, 0x110, 16, 16⟩
abbrev HPT_FRAME_MAX_FRAME : Fld := ⟨0x100, 0x110, 13, 0⟩
abbrev HPT_FC_CFG_XOFF_QUANTA : Fld := ⟨0x100, 0x118, 63, 48⟩
abbrev HPT_FC_CFG_REFRESH_US : Fld := ⟨0x100, 0x118, 41, 32⟩
abbrev HPT_FC_CFG_FC_MODE : Fld := ⟨0x100, 0x118, 17, 16⟩
abbrev HPT_FC_CFG_LOSSLESS : Fld := ⟨0x100, 0x118, 7, 0⟩
abbrev HPT_FC_WD_ACT : Fld := ⟨0x100, 0x120, 16, 16⟩
abbrev HPT_FC_WD_WD_MS : Fld := ⟨0x100, 0x120, 15, 0⟩
abbrev HPT_FC_STAT_STORM : Fld := ⟨0x100, 0x128, 31, 24⟩
abbrev HPT_FC_STAT_PENDING : Fld := ⟨0x100, 0x128, 23, 16⟩
abbrev HPT_FC_STAT_TX_XOFF : Fld := ⟨0x100, 0x128, 15, 8⟩
abbrev HPT_FC_STAT_RX_HELD : Fld := ⟨0x100, 0x128, 7, 0⟩
abbrev HPT_ECN_EN : Fld := ⟨0x100, 0x130, 63, 56⟩
abbrev HPT_ECN_PMAX : Fld := ⟨0x100, 0x130, 55, 48⟩
abbrev HPT_ECN_KMAX : Fld := ⟨0x100, 0x130, 31, 16⟩
abbrev HPT_ECN_KMIN : Fld := ⟨0x100, 0x130, 15, 0⟩
abbrev HPT_ANNOUNCE_GAP_MS : Fld := ⟨0x100, 0x158, 31, 16⟩
abbrev HPT_ANNOUNCE_ALT_PORT : Fld := ⟨0x100, 0x158, 15, 8⟩
abbrev HPT_ANNOUNCE_COUNT : Fld := ⟨0x100, 0x158, 3, 0⟩
abbrev HPT_LINK_STAT_DOWN_COUNT : Fld := ⟨0x100, 0x160, 63, 32⟩
abbrev HPT_LINK_STAT_LANE_LOCK : Fld := ⟨0x100, 0x160, 23, 20⟩
abbrev HPT_LINK_STAT_DOWN_CAUSE : Fld := ⟨0x100, 0x160, 11, 8⟩
abbrev HPT_LINK_STAT_STATE : Fld := ⟨0x100, 0x160, 7, 0⟩
abbrev HPT_COUNTER_COUNT : Fld := ⟨0x100, 0x400, 63, 0⟩
def regsHPT0 : List RegDesc := [
  ⟨0x100, 1, 0x8, 0x1801, [⟨24, 24, .rw⟩, ⟨23, 20, .rw⟩, ⟨12, 12, .rw⟩, ⟨11, 11, .rw⟩, ⟨7, 6, .rw⟩, ⟨5, 4, .rw⟩, ⟨1, 0, .rw⟩]⟩,  -- HPT_MODE (R118, 05_host_ports.md)
  ⟨0x108, 1, 0x8, 0x0, [⟨47, 0, .rw⟩]⟩,  -- HPT_MAC_ADDR (R121, 05_host_ports.md)
  ⟨0x110, 1, 0x8, 0x2400, [⟨16, 16, .rw⟩, ⟨13, 0, .rw⟩]⟩,  -- HPT_FRAME (R121, 05_host_ports.md)
  ⟨0x118, 1, 0x8, 0xFFFF001400020008, [⟨63, 48, .rw⟩, ⟨41, 32, .rw⟩, ⟨17, 16, .rw⟩, ⟨7, 0, .rw⟩]⟩,  -- HPT_FC_CFG (R126, 05_host_ports.md)
  ⟨0x120, 1, 0x8, 0x0, [⟨16, 16, .rw⟩, ⟨15, 0, .rw⟩]⟩,  -- HPT_FC_WD (R126, 05_host_ports.md)
  ⟨0x128, 1, 0x8, 0x0, [⟨31, 24, .ro⟩, ⟨23, 16, .ro⟩, ⟨15, 8, .ro⟩, ⟨7, 0, .ro⟩]⟩,  -- HPT_FC_STAT (R126, 05_host_ports.md)
  ⟨0x130, 1, 0x8, 0xFF40000002000040, [⟨63, 56, .rw⟩, ⟨55, 48, .rw⟩, ⟨31, 16, .rw⟩, ⟨15, 0, .rw⟩]⟩,  -- HPT_ECN (R128, 05_host_ports.md)
  ⟨0x138, 1, 0x8, 0x1111111100000000, [⟨62, 60, .rw⟩, ⟨58, 56, .rw⟩, ⟨54, 52, .rw⟩, ⟨50, 48, .rw⟩, ⟨46, 44, .rw⟩, ⟨42, 40, .rw⟩, ⟨38, 36, .rw⟩, ⟨34, 32, .rw⟩, ⟨30, 28, .rw⟩, ⟨26, 24, .rw⟩, ⟨22, 20, .rw⟩, ⟨18, 16, .rw⟩, ⟨14, 12, .rw⟩, ⟨10, 8, .rw⟩, ⟨6, 4, .rw⟩, ⟨2, 0, .rw⟩]⟩,  -- HPT_DSCP_MAP0 (R121, 05_host_ports.md)
  ⟨0x140, 1, 0x8, 0x3333333322222222, [⟨62, 60, .rw⟩, ⟨58, 56, .rw⟩, ⟨54, 52, .rw⟩, ⟨50, 48, .rw⟩, ⟨46, 44, .rw⟩, ⟨42, 40, .rw⟩, ⟨38, 36, .rw⟩, ⟨34, 32, .rw⟩, ⟨30, 28, .rw⟩, ⟨26, 24, .rw⟩, ⟨22, 20, .rw⟩, ⟨18, 16, .rw⟩, ⟨14, 12, .rw⟩, ⟨10, 8, .rw⟩, ⟨6, 4, .rw⟩, ⟨2, 0, .rw⟩]⟩,  -- HPT_DSCP_MAP1 (R121, 05_host_ports.md)
  ⟨0x148, 1, 0x8, 0x5555555544444444, [⟨62, 60, .rw⟩, ⟨58, 56, .rw⟩, ⟨54, 52, .rw⟩, ⟨50, 48, .rw⟩, ⟨46, 44, .rw⟩, ⟨42, 40, .rw⟩, ⟨38, 36, .rw⟩, ⟨34, 32, .rw⟩, ⟨30, 28, .rw⟩, ⟨26, 24, .rw⟩, ⟨22, 20, .rw⟩, ⟨18, 16, .rw⟩, ⟨14, 12, .rw⟩, ⟨10, 8, .rw⟩, ⟨6, 4, .rw⟩, ⟨2, 0, .rw⟩]⟩]  -- HPT_DSCP_MAP2 (R121, 05_host_ports.md)
def regsHPT1 : List RegDesc := [
  ⟨0x150, 1, 0x8, 0x7777777766666666, [⟨62, 60, .rw⟩, ⟨58, 56, .rw⟩, ⟨54, 52, .rw⟩, ⟨50, 48, .rw⟩, ⟨46, 44, .rw⟩, ⟨42, 40, .rw⟩, ⟨38, 36, .rw⟩, ⟨34, 32, .rw⟩, ⟨30, 28, .rw⟩, ⟨26, 24, .rw⟩, ⟨22, 20, .rw⟩, ⟨18, 16, .rw⟩, ⟨14, 12, .rw⟩, ⟨10, 8, .rw⟩, ⟨6, 4, .rw⟩, ⟨2, 0, .rw⟩]⟩,  -- HPT_DSCP_MAP3 (R121, 05_host_ports.md)
  ⟨0x158, 1, 0x8, 0x64FF03, [⟨31, 16, .rw⟩, ⟨15, 8, .rw⟩, ⟨3, 0, .rw⟩]⟩,  -- HPT_ANNOUNCE (R134, 05_host_ports.md)
  ⟨0x160, 1, 0x8, 0x0, [⟨63, 32, .ro⟩, ⟨23, 20, .ro⟩, ⟨11, 8, .ro⟩, ⟨7, 0, .ro⟩]⟩,  -- HPT_LINK_STAT (R137, 05_host_ports.md)
  ⟨0x400, 34, 0x8, 0x0, [⟨63, 0, .ro⟩]⟩]  -- HPT_COUNTER (R139, 05_host_ports.md)
/-- The registers of page HPT. -/
def regsHPT : List RegDesc := regsHPT0 ++ regsHPT1

end Sys2Proof.Machine
end

