-- ==== Sys2Proof/Machine/State.lean ====
section
/-! DEFINITION. The state of one U96, as plain data: every register, buffer, queue, counter, mode and pin spec/ gives it,
grouped by block, with the queue of commands that wait. -/

namespace Sys2Proof.Machine

/-- Faults. No command of this block stops the model with a fault: what spec/ calls a fault (an event of severity FAULT
or FATAL, a stop of the rails) is state the machine goes on from. The one constructor is there for a value outside what
an operand can spell. -/
inductive Fault where
  /-- Raised by no meaning at present; safe. -/
  | none
  deriving DecidableEq, Repr

/-- Refusals. -/
inductive Refusal where
  /-- Raised by exec's arm of a command that has no meaning yet; safe. -/
  | notModelled (mnemonic : String)
  deriving DecidableEq, Repr

/-! ### Control plane (02_control_plane.md) -/

/-- A fetched Rister command with its submission index and the number of the doorbell that covers it (R55, R56). -/
structure Fetched where
  cmd : RqCmd
  index : Nat
  bell : Nat
  deriving DecidableEq, Repr

/-- A completion built and not yet written because the completion ring is full (R56), with the submission head after its command
(R63). -/
structure Posting where
  cmdId : Nat
  status : Nat
  result : Word64
  notify : Bool
  bell : Nat
  head : Nat
  deriving DecidableEq, Repr

/-- What a Rister queue holds beside its registers (R55 to R58): commands fetched and not completed, oldest first;
whether the front one is in execution; completions waiting for a slot; doorbells received and not yet fetched up to,
with their places in the order of all doorbells; whether a command whose completion a PCIe reset took away still runs. -/
structure Rq where
  fetched : List Fetched := []
  running : Bool := false
  posts : List Posting := []
  bells : List (Nat × Nat) := []
  ghost : Bool := false
  deriving DecidableEq, Repr

/-- An event on its way to the recorder (R449, R450). -/
structure RaisedEv where
  time : Nat
  code : Nat
  inst : Nat
  sev : Nat
  test : Bool
  arg : Word64
  deriving DecidableEq, Repr

/-! ### Frames the U96 sends -/

/-- What an outgoing host frame is (R125, R131, R132, R142, R149, R168, R169). -/
inductive TxBody where
  | ack (qpn psn syndrome msn : Nat)
  | nak (qpn psn syndrome msn : Nat)
  | readResp (qpn psn : Nat) (first last : Bool) (msn : Nat) (payload : List Byte)
  | atomicAck (qpn psn msn : Nat) (orig : Word64)
  | send (qpn psn : Nat) (payload : List Byte)
  | cnp (destQpn : Nat)
  | cmRep (qpn pmtu respRes : Nat)
  | cmRej
  | cmDreq (qpn : Nat)
  | cmDrep (qpn : Nat)
  | arpReply (target : IpAddr) (mac : Mac)
  | neighbourAdv (target : IpAddr) (mac : Mac) (solicited override : Bool)
  | gratuitousArp (addr : IpAddr) (mac : Mac)
  | pfc (quanta : List (Nat × Nat))
  | pause (quanta : Nat)
  | sideband (f : SbFrame)
  deriving DecidableEq, Repr

/-- An outgoing frame: its port and priority, its length in bytes (R29), whether its IP header carries ECT, the cells
charged for it (shared, egress reserve, and those of the link that hold what it gathers, R78), the ways its gather list pins, by
16 × set + way (R75), and whether its pacer has let it go (R170); the bytes queued on its port and priority when it began to leave
(R127); its PCP (R121) and its destination MAC, none for a group address (R131). -/
structure TxFrame where
  port : Nat
  prio : Nat
  tagged : Bool := false
  vlan : Nat := 0
  pcp : Nat := 0
  dscp : Nat := 0
  dst : Option Mac := none
  len : Nat
  ect : Bool := false
  cells : Nat := 0
  rsvCells : Nat := 0
  linkCells : Nat := 0
  pins : List Nat := []
  paced : Bool := false
  body : TxBody
  stampOf : Option Nat := none
  depth : Nat := 0
  deriving DecidableEq, Repr

/-- What a Swidun frame carries (R326, R327). -/
inductive LinkBody where
  | epochData (recs : List EpochRec)
  | seal (m : SealMsg)
  | sealAck
  | fwdReq (m : FwdReqMsg)
  | fwdResp (m : FwdRespMsg)
  | resync (m : ResyncMsg)
  | heartbeat (m : HeartbeatMsg)
  | time (m : TimeMsg)
  | keyNext (gen : Nat)
  | handshake (m : HandshakeMsg)
  | credit (ack : Nat) (nak : Bool) (c1 c2 c3 : Nat)
  deriving DecidableEq, Repr

/-- What leaves the block, newest first in the log. -/
inductive Out where
  | msix (vector : Nat)
  | completion (q index : Nat) (w0 w1 : Word64)
  | dma (addr : Word64) (words : List Word64)
  | dmaBytes (addr : Word64) (bytes : List Byte)
  | readData (key : Nat) (value : Word64)
  | hostFrame (f : TxFrame) (ce gatherBad : Bool)
  | linkFrame (strand fseq vc vseq : Nat) (epoch : Nat) (b : LinkBody) (wire : List Byte)
  | hello (strand : Nat) (m : HelloMsg)
  | spi (status : Nat) (data : Word64)
  | smbus (bytes : List Byte)
  | jtag (bitsOut : Nat)
  | vcore (mv : Nat)
  | sbRead (bytes : List Byte)
  deriving DecidableEq, Repr

/-! ### Hearth store (03_hearth_store.md) -/

/-- The layout in force (R67 to R71): sizes and bases in MiB, QP portion, headroom and egress reserve. -/
structure Layout where
  cache : Nat := 0x600
  pkt : Nat := 0x100
  epoch : Nat := 0x80
  media : Nat := 0x40
  ctx : Nat := 0x30
  smp : Nat := 0x10
  qpMib : Nat := 0x20
  headroomKib : Nat := 0x180
  egressRsv : Nat := 0x2000
  deriving DecidableEq, Repr

/-- A frame received into cells and not yet consumed (R73, R78): its cells, whether they are headroom cells. -/
structure RxFrame where
  frame : Frame
  prio : Nat
  cells : Nat
  inHeadroom : Bool
  arrival : Nat
  deriving DecidableEq, Repr

/-- A chain whose building waits on cells (R81): its frame, the lines its payload comes from, and the request's cells that return once
it has been built (R78): port, priority, number, whether of the headroom. -/
structure EgressWait where
  frame : TxFrame
  lines : List Nat := []
  frees : List (Nat × Nat × Nat × Bool) := []
  deriving DecidableEq, Repr

/-- Hearth store state: the layout, charges by 8 × port + priority, headroom in use and headroom granted by the same
key, the link's charge, egress cells in use, PEAK by port, the damper (R78, R85, R88), and the ports and priorities whose
headroom is pending (R122); QPs whose contexts received requests hold that wait for key entries (R69). -/
structure Hearth where
  layout : Layout := {}
  applying : Option Layout := none
  charge : NMap Nat := []
  headroom : NMap Nat := []
  granted : NMap Nat := []
  linkCharge : Nat := 0
  egressUsed : Nat := 0
  peak : NMap Nat := []
  level : Nat := 0
  measured : Nat := 0
  belowShutSince : Option Nat := none
  belowHalfSince : Option Nat := none
  lastSample : Nat := 0
  levelSince : Nat := 0
  spilled : Bool := false
  egressWait : List EgressWait := []
  headPending : List (Nat × Nat) := []
  resident : List Nat := []
  ctxLoads : List Nat := []
  ctxHolds : List Nat := []
  deriving DecidableEq, Repr

/-- A requester at the banks of the Hearth (R83): response building and gather; cache lookups, fills, write-backs and flue traffic;
epoch staging and sealing; contexts and tables; the control complex; Rister access; the power-loss flush; port ingress; forwarded
requests; media staging's program, fetch delivery and flush transfers, applies of the twin's epochs, an overdue scrubber that is forced
(R380); scrub, page migration, readahead, sample export. -/
inductive Requester where
  | gather | lookup | fill | writeBack | flue | staging | seal | context | control | rister | flush
  | ingress | forwarded
  | program | delivery | flushData | twinApply | forcedScrub
  | scrub | migration | readahead | samples
  deriving DecidableEq, Repr

/-- A request at a bank: who asks, the row, when it asked and when it took its place in the bank's queue. -/
structure BankReq where
  who : Requester
  row : Nat
  asked : Nat
  entered : Nat
  deriving DecidableEq, Repr

/-- The banks of the Hearth (R64 to R66, R84): requests by bank in order of arrival, of which the first 16 fill the bank's queue and the
others wait with their acknowledge withheld; when a bank is free again, in picoseconds; grants of a bank modulo 16; stays in a
queue that ended within the last microsecond. -/
structure Banks where
  reqs : NMap (List BankReq) := []
  freePs : NMap Nat := []
  grants : NMap Nat := []
  waited : List (Nat × Nat) := []
  deriving DecidableEq, Repr

/-! ### Hearth line cache (04_hearth_cache.md) -/

/-- State of a way (R93). -/
inductive WaySt where
  | filling | clean | dirty | detached
  deriving DecidableEq, Repr

/-- A way that is not INVALID: its key, owner tenant, pins, the epoch of the newest unsealed M write in it, its data. -/
structure Way where
  st : WaySt
  key : Nat
  owner : Nat
  pins : Nat := 0
  unsealed : Option Nat := none
  data : Line := 0
  poison : Bool := false
  deriving DecidableEq, Repr

/-- A line in the flue (R101). -/
structure Flue where
  key : Nat
  data : Line
  poison : Bool
  issued : Bool
  deriving DecidableEq, Repr

/-- What an access does to its line (R98, R155, R149). `off` is the byte in the line. -/
inductive AccKind where
  | read
  | write (off : Nat) (bytes : List Byte)
  | cas (off : Nat) (compare swap : Word64)
  | fadd (off : Nat) (add : Word64)
  | poison
  deriving DecidableEq, Repr

/-- Why an access waits (R97, R99 to R102, R217, R226). -/
inductive Wait where
  | fresh
  | fetch | frame | t1Quota | mediaStaging | chanCap | secFull | ptFill | moving | region | srWake | applyFetch | fetchRecover
  | set (n : Nat)
  | flue | flueBusy | discard
  | mshr
  | seal
  | staging
  | behind
  deriving DecidableEq, Repr

/-- One line access of an operation: the operation's number, the line (pool offset / 64), what it does, the tenant and
class it is made for, where it waits and since when; whether its page-table line has been looked up, its lookups counted (HCA.HITS,
HCA.MISSES), its page's HEAT raised, its bypass by the quota counted. -/
structure Acc where
  op : Nat
  seqNo : Nat
  line : Nat
  kind : AccKind
  tenant : Nat
  cls : Nat
  demand : Bool
  apply : Bool
  ptOk : Bool := false
  ptCounted : Bool := false
  counted : Bool := false
  heated : Bool := false
  quotaSaid : Bool := false
  wait : Wait
  since : Nat
  deriving DecidableEq, Repr

/-- A miss register (R99): its line's key, its tenant, the DRAM channel it counts against, the way reserved for the fill
(none on the bypass path), primary and secondaries in order of arrival. -/
structure Mshr where
  key : Nat
  tenant : Nat
  channel : Nat
  way : Option Nat
  accs : List Acc
  deriving DecidableEq, Repr

/-- A bypassing M write held until its seal is confirmed (R108, R111). -/
structure HeldWrite where
  line : Nat
  epoch : Nat
  data : Line
  poison : Bool
  deriving DecidableEq, Repr

/-- A cache command in progress: lines still to do, lines whose write to DRAM is in progress (R112, R113). -/
structure CacheCmd where
  q : Nat
  invalidate : Bool
  todo : List Nat
  out : List Nat := []
  wrote : Nat
  dropped : Nat
  deriving DecidableEq, Repr

/-- Cache state: ways by 16 × set + way, PLRU bits by set, flue, miss registers, write-backs of the cleaner, drain and
commands in flight, bypassing M writes, TENANT_QUOTA, whether the cleaner runs, accesses whose SET_STALL is raised, keys of lines whose
write-back waits for the move of their page and since when (R217). -/
structure Cache where
  ways : NMap Way := []
  plru : NMap Nat := []
  flue : List Flue := []
  mshrs : List Mshr := []
  writeBacks : List Flue := []
  held : List HeldWrite := []
  quota : NMap Nat := []
  bypasses : NMap Nat := []
  cleaning : Bool := false
  cmds : List CacheCmd := []
  stallSaid : List Nat := []
  moveWaits : List (Nat × Nat) := []
  deriving DecidableEq, Repr

/-! ### Host ports (05_host_ports.md) -/

/-- An entry of HPT.ADDR (R130). -/
structure AddrEntry where
  state : Nat := 0
  addr : IpAddr := ⟨false, 0, 0⟩
  vlanEn : Bool := false
  vlan : Nat := 0
  onPort : Nat := 0xFF
  deriving DecidableEq, Repr

/-- Announcements still to send (R132) of an address on its VLAN. -/
structure Announce where
  addr : IpAddr
  vlanEn : Bool
  vlan : Nat
  left : Nat
  next : Nat
  deriving DecidableEq, Repr

/-- One host port's state beside its registers; `ptpStamps` are the TB_NS stamps of event messages for the control cores (R138). -/
structure Port where
  rxq : List RxFrame := []
  txq : List TxFrame := []
  cur : Option TxFrame := none
  ctl : List TxFrame := []
  holdUntil : NMap Nat := []
  holdSince : NMap Nat := []
  freeSince : NMap Nat := []
  xoffAt : NMap Nat := []
  anFails : Nat := 0
  fecBad : Nat := 0
  announces : List Announce := []
  ptpSeen : Nat := 0
  ptpStamps : List Int := []
  deriving DecidableEq, Repr

/-! ### Transport (06_rdma_transport.md) -/

/-- An outstanding device-initiated SEND (R168). -/
structure SendOut where
  psn : Nat
  deadline : Option Nat
  tries : Nat
  rnrTries : Nat
  rnrAt : Option Nat
  payload : List Byte
  chain : Option Nat
  deriving DecidableEq, Repr

/-- What a transport operation is (R149). -/
inductive OpKind where
  | read | write | cas | fadd | atomicWrite | flush (persist : Bool) | send | arm (chain : Nat) | nak (syndrome : Nat)
  | copySrc | copyDst | notifySrc | resyncRead | poison
  deriving DecidableEq, Repr

/-- Who an operation is for: a host's request, a forwarded operation of the twin (R346), an operation of a trigger chain
(R205), the apply of a twin's epoch (R347). -/
inductive OpFor where
  | host (qpn : Nat)
  | fwd (qpn psn seg : Nat)
  | chain (index step : Nat)
  | ring (qpn : Nat)
  | apply
  deriving DecidableEq, Repr

/-- A message in progress on a QP (R150, R163). -/
structure Msg where
  kind : OpKind
  cls : Nat
  tenant : Nat
  nextPool : Nat
  left : Nat
  len : Nat
  stamp : Option Nat
  sink : Nat
  chain : Nat
  slot : Nat
  got : Nat
  reserve : Nat
  key : Nat
  deriving DecidableEq, Repr

/-- An operation in progress: its accesses that are not done, the bytes its reads returned by line, the epoch that must
be confirmed before its answer, the stamp it holds (R184), the answer's port, priority and addressing, the QP's message
before its packet; `cells` are those of the port that hold its request, `linkCells` those of the link that hold it, or its answer
(R78). -/
structure Op where
  id : Nat
  for_ : OpFor
  kind : OpKind
  psn : Nat := 0
  seg : Nat := 0
  lastPsn : Nat := 0
  cls : Nat := 2
  tenant : Nat := 0
  pool : Nat := 0
  len : Nat := 0
  data : List Byte := []
  cmp : Word64 := 0
  swap : Word64 := 0
  ackReq : Bool := false
  issued : Bool := false
  left : Nat := 0
  got : NMap Line := []
  bad : List Nat := []
  result : Word64 := 0
  epoch : Option Nat := none
  placed : Bool := false
  toTwin : Bool := false
  stamp : Option Nat := none
  reserve : Nat := 0
  port : Nat := 0
  prio : Nat := 0
  tagged : Bool := false
  vlan : Nat := 0
  pcp : Nat := 0
  dscp : Nat := 0
  mac : Option Mac := none
  linkCells : Nat := 0
  v6 : Bool := false
  cells : Nat := 0
  rxHead : Bool := false
  cellPrio : Nat := 0
  settled : Bool := false
  endsMsg : Bool := true
  first : Bool := true
  last : Bool := true
  before : Option Msg := none
  deriving DecidableEq, Repr

/-- One queue pair's engine state beside its context words (R146): the message in progress, stored atomic results, NAK-for-sequence sent,
device SENDs out, those that wait for the context with their chains (R69), CNP and rate timers, when the pacer lets the next frame go
(R170), times. -/
structure Qp where
  words : NMap Word64 := []
  msg : Option Msg := none
  atomics : List (Nat × Word64) := []
  nakSent : Bool := false
  sends : List SendOut := []
  cnpAt : Option Nat := none
  alphaAt : Nat := 0
  incAt : Nat := 0
  errSince : Option Nat := none
  freedAt : Option Nat := none
  ownersWritten : Bool := false
  srcAddr : Option IpAddr := none
  consVal : Option Nat := none
  consAsked : Bool := false
  sendWait : List (List Byte × Option Nat) := []
  paceAt : Nat := 0
  unsealedTo : Option Nat := none
  deriving DecidableEq, Repr

/-- Operations in progress, oldest first, and their line accesses that wait, in order of arrival (R99, R158, R226). -/
structure DataPath where
  ops : List Op := []
  parked : List Acc := []
  nextOp : Nat := 0
  nextAcc : Nat := 0
  deriving DecidableEq, Repr

/-! ### Keys (07_keys_protection.md) -/

/-- A key entry (R177). -/
structure Key where
  valid : Bool := false
  cls : Nat := 0
  rights : Nat := 0
  tenant : Nat := 0
  gen : Nat := 0
  vaBase : Nat := 0
  poolBase : Nat := 0
  length : Nat := 0
  deriving DecidableEq, Repr

/-- A tenant record (R185): the words the steward writes, counts kept apart. -/
structure Tenant where
  state : Nat := 0
  prefixEn : Bool := false
  prefixV6 : Bool := false
  prefixLen : Nat := 0
  admitTag : Nat := 0
  qpMax : Nat := 0
  qpCount : Nat := 0
  keyMax : Nat := 0
  keyCount : Nat := 0
  wquota : Nat := 0xFFFFFFFF
  wused : Nat := 0
  prefixHi : Word64 := 0
  prefixLo : Word64 := 0
  twinWused : Nat := 0
  fwdRsv : Nat := 0
  deriving DecidableEq, Repr

/-- A region register (R188). -/
structure Region where
  en : Bool := false
  shared : Bool := false
  tenant : Nat := 0
  ownerB : Bool := false
  moving : Bool := false
  served : Bool := false
  deriving DecidableEq, Repr

/-- A TABLE_WRITE of a protection table that is not complete (R191): its queue and table, entries still to be forwarded,
whether one is with the master, entries written, the PROT_SEQ this twin must reach, the epoch that must be confirmed at the
master, its status. -/
structure ProtWait where
  q : Nat
  rebal : Bool := false
  table : Nat
  todo : List (Nat × List Word64) := []
  asked : Bool := false
  written : Nat := 0
  seq : Nat := 0
  epoch : Option Nat := none
  status : Nat := 0
  answered : List (Nat × Nat × List Word64) := []
  deriving DecidableEq, Repr

/-- Key unit state. `holds`: stamps held, by whom and of which key (R184); the floors: the smallest stamp of each twin as the last confirmed epoch told it (R193). Region registers are held against a rule that gives every unlisted region its owner and service: owner
rule 0 twin A, 1 twin B, 2 by parity (R345); a listed register's two bits say where it differs. -/
structure Prot where
  ownerBase : Nat := 0
  servedBase : Bool := false
  keys : NMap Key := []
  tenants : NMap Tenant := []
  regions : NMap Region := []
  resident : List Nat := []
  loads : List Nat := []
  lastFail : Option Nat := none
  lastRnr : Option Nat := none
  lastQuota : Option Nat := none
  belowSince : Option Nat := none
  slowSaid : Bool := false
  ownFloor : Nat := 0
  twinFloor : Nat := 0
  twinIdle : Bool := true
  holds : List (Nat × Nat × Nat) := []
  waits : List ProtWait := []
  drainWaits : List (Nat × Nat) := []
  deriving DecidableEq, Repr

/-! ### Trigger chains (08_trigger_chains.md) -/

/-- A run in progress: the message data, the cells it is held in (port, priority, number, whether of the headroom), the
reservation left, where the operation in progress stands; the stamps its operation holds and what its destination was checked to be
(R184, R208), how it ends once what has been copied is placed (R207). -/
structure Run where
  data : List Byte := []
  ready : Bool := false
  held : List (Nat × Nat × Nat × Bool) := []
  reserve : Nat := 0
  ownersWritten : Bool := false
  disarm : Bool := false
  armOp : Option Nat := none
  busy : Bool := false
  waitEpoch : Option Nat := none
  notifyPsn : Option Nat := none
  notifyWait : Bool := false
  stamps : List Nat := []
  dstPool : Nat := 0
  dstCls : Nat := 0
  failCause : Option Nat := none
  deriving DecidableEq, Repr

/-- A TABLE_WRITE that disarms chains with an operation in progress (R62): its queue, status and result, the chains still to stop. -/
structure TableWait where
  q : Nat
  status : Nat
  result : Nat
  chains : List Nat
  deriving DecidableEq, Repr

/-- Chain tables and runs (R198 to R205), and table writes that wait for chains to stop. -/
structure Chains where
  chains : NMap (List Word64) := []
  ops : NMap (List Word64) := []
  runs : NMap Run := []
  tableWaits : List TableWait := []
  deriving DecidableEq, Repr

/-! ### Tiers (09_pool_tiers.md) -/

/-- Page states (R216). -/
inductive PageSt where
  | zero | resident | media | fetching | demoting | moving
  deriving DecidableEq, Repr

/-- A page-table entry (R216). -/
structure Pte where
  st : PageSt := .zero
  heat : Nat := 0
  pin : Bool := false
  tenant : Nat := 0
  dirty : Bool := false
  hasMedia : Bool := false
  ch : Nat := 0
  idx : Nat := 0
  media : Nat := 0
  age : Nat := 0
  deriving DecidableEq, Repr

/-- A dirty-page record (R230): the mask of charged lines, the tenant, its creation, the owner's charge. -/
structure DirtyRec where
  mask : Word64
  tenant : Nat
  born : Nat
  deriving DecidableEq, Repr

/-- A destage in progress (R231): the mask charged when it started, the lines charged again since, whether it serves a demotion, whether a
write came. -/
structure Destage where
  mask : Word64
  again : Word64 := 0
  demote : Bool
  wrote : Bool
  unit : Option Nat
  deriving DecidableEq, Repr

/-- Frames of a channel: those of the frame pool, those of it in use, free ones of a rank that retires (R256), the spare
ones, the lowest index never used, the indices given back. -/
structure ChFrames where
  total : Nat := 0
  used : Nat := 0
  blocked : Nat := 0
  spare : Nat := 0
  top : Nat := 0
  freed : List Nat := []
  deriving DecidableEq, Repr

/-- A request in a DRAM channel (R244 to R247): its place in the order of entry, subchannel 0 or 1, bank address as
32 × package rank + 4 × bank group + bank, row with the logical rank, line of the channel (64 × frame + line), direction,
class (DEMAND 0, WRITE 1, MEDIA 2, APPLY 3, BACKGROUND 4) and the time it entered. -/
structure DramReq where
  seqNo : Nat
  sub : Nat
  bank : Nat
  row : Nat
  line : Nat
  write : Bool
  cls : Nat
  entered : Nat
  deriving DecidableEq, Repr

/-- A move out of a retiring rank (R256): the page whose frame moves, none for a block of the page table or the system area, the frame,
the channel and frame it goes to, and the epoch open when the move began (R257). -/
structure MoveTo where
  page : Option Nat
  frame : Nat
  toCh : Nat
  toIdx : Nat
  epoch : Option Nat := none
  deriving DecidableEq, Repr

/-- A DRAM channel beside its registers and frames: bank queues, overflow list and what the fabric holds back, oldest
first; by subchannel the mode, the last bank and short retraining; hit streaks and open rows by 128 × subchannel + bank;
postponed refreshes by rank; the idle and self-refresh state; retries of the last second; corrected errors by rank; the
migration queue; ranks that cannot be read; commands in progress; when a rank was last refreshed, the sensors last read, a subchannel last
checked for drift (R248, R249, R253). -/
structure Chan where
  queue : List DramReq := []
  ovf : List DramReq := []
  held : List DramReq := []
  drain : List Nat := []
  lastBank : NMap Nat := []
  streak : NMap Nat := []
  openRow : NMap Nat := []
  short : List Nat := []
  postponed : NMap Nat := []
  idleSince : Nat := 0
  srWanted : Bool := false
  refOwed : List Nat := []
  retries : List Nat := []
  ceTimes : NMap (List Nat) := []
  migq : List Nat := []
  moveTo : Option MoveTo := none
  unread : List Nat := []
  serial : NMap Nat := []
  fullCmd : Option Nat := none
  retireCmds : List (Nat × Nat × Nat) := []
  throttledAt : Option Nat := none
  skip : Bool := false
  slots : Nat := 0
  refAt : NMap Nat := []
  sensedAt : Nat := 0
  driftAt : NMap Nat := []
  deriving DecidableEq, Repr

/-- A DRAM line (R373: filled with zeros at start). -/
structure DLine where
  data : Line := 0
  poison : Bool := false
  deriving DecidableEq, Repr

/-- A command of R235 in progress. -/
structure TirCmd where
  q : Nat
  op : Nat
  pages : List Nat
  done : Nat
  passed : Nat
  epoch : Option Nat
  fwd : Nat := 0
  total : Nat := 0
  deriving DecidableEq, Repr

/-- A readahead fetch not yet started (R223): its page, the stall it waits in and since when. -/
structure RaWait where
  page : Nat
  wait : Wait := .fresh
  since : Nat
  deriving DecidableEq, Repr

/-- Tier manager state; `ra` holds the readahead asked for and not yet started (R223), `stagingWait` the pages that wait for media staging
and since when (R222), `destageWait` those of them whose destage waits and whether it serves a demotion (R90), `demoteWait` pages whose
demotion waits for a fill to land (R94), `raFetch` the pages being fetched ahead of demand (R245), `redo` those to be destaged again as
their copy on NAND cannot be read (R283), `migAt` when a page last left a retiring rank (R256), `sweeping` whether the demoter sweeps (R221), `layChans` the channels in service at start-up,
`sysFrames` how many frames the page table and the system area take on each, `sysMoved` where blocks moved, by 2^27 × channel + frame
(R214). -/
structure Tier where
  pt : NMap Pte := []
  recs : NMap DirtyRec := []
  destages : NMap Destage := []
  frames : NMap ChFrames := []
  dram : NMap DLine := []
  t1Quota : NMap Nat := []
  t1Used : NMap Nat := []
  t2Quota : NMap Nat := []
  t2Used : NMap Nat := []
  sweep : Nat := 0
  ra : List RaWait := []
  stagingWait : List (Nat × Nat) := []
  destageWait : NMap Bool := []
  demoteWait : List Nat := []
  sweeping : Bool := false
  layChans : List Nat := []
  sysFrames : NMap Nat := []
  sysMoved : NMap (Nat × Nat) := []
  recovering : List Nat := []
  lastBudget : Option Nat := none
  lastT1 : Option Nat := none
  discards : List (Nat × Nat) := []
  discardLater : List Nat := []
  cmds : List TirCmd := []
  growing : Option Nat := none
  poolRegions : Nat := 0
  twinCharged : Nat := 0
  twinPages : Nat := 0
  twinPagesMax : Nat := 0
  twinBudget : Nat := 0
  twinWindowClosed : Bool := false
  twinMaxRegions : Nat := 0
  dirtyMaxLow : Bool := false
  floorSaid : Bool := false
  chans : NMap Chan := []
  nextReq : Nat := 0
  retiredRec : List (Nat × Nat × Nat) := []
  raFetch : List Nat := []
  redo : List Nat := []
  migAt : Nat := 0
  deriving DecidableEq, Repr

/-! ### NAND media (11_media.md) and durability (12_durability_power_loss.md) -/

/-- A unit stored on NAND (R267): page, tenant, its 64 lines in clear (a poisoned line by its mark), whether it still decodes, and the
journal sequence current at its program. -/
structure MUnit where
  page : Nat
  tenant : Nat
  lines : List DLine
  good : Bool := true
  seq : Nat := 0
  deriving DecidableEq, Repr

/-- A superblock (R268) that is not simply erased: its state (0 erased, 1 open, 2 closed, 3 to be erased, 4 being erased),
mode, role (BUFFER 0, NATIVE 1, RESERVE 2, JOURNAL 3, CHECKPOINT 4), erase count, units programmed by member, valid units,
order of opening, half-erased findings in a row, whether it was programmed hot; when its erase began, how often and how long each member's
was suspended (R282). -/
structure Sb where
  st : Nat := 0
  slc : Bool := false
  role : Nat := 1
  erases : Nat := 0
  ptr : NMap Nat := []
  valid : Nat := 0
  order : Nat := 0
  halves : Nat := 0
  hot : Bool := false
  eraseAt : Nat := 0
  susp : NMap Nat := []
  idle : NMap Nat := []
  deriving DecidableEq, Repr

/-- A program in flight (R269): stream HOST 0, FOLD 1, RELOC 2, FLUSH 3, the unit it was read from, what it writes; since when its die
runs it, how often and how long it was suspended (R282), its place in the order in which programs were queued. -/
structure Prog where
  stream : Nat
  src : Option Nat
  unit : MUnit
  slc : Bool
  direct : Bool := false
  began : Option Nat := none
  susp : Nat := 0
  idle : Nat := 0
  no : Nat := 0
  deriving DecidableEq, Repr

/-- A journal record (R286). -/
inductive JRec where
  | map (tenant page addr : Nat) (slc : Bool)
  | unmap (page : Nat)
  | sbOpen (g k : Nat) (slc : Bool) (role erases : Nat)
  | sbClose (g k valid : Nat)
  | eraseBegin (g k : Nat)
  | eraseDone (g k erases : Nat)
  | badBlock (ch die plane block cause : Nat)
  | dieState (ch die st : Nat)
  | ckptSeg (seg covered : Nat)
  | hotProg (g k : Nat)
  | flushBegin
  | flushEnd
  | cleanStop (unitSeq : Nat)
  deriving DecidableEq, Repr

/-- A pending journal record and the unit it supersedes (R287). -/
structure JPend where
  rec_ : JRec
  frees : Option Nat := none
  deriving DecidableEq, Repr

/-- A journal unit on NAND (R285): its sequence number, TB_NS when it was closed, its records. -/
structure JUnit where
  seq : Nat
  tb : Nat
  recs : List JRec
  deriving DecidableEq, Repr

/-- DIE_STATS of a die (R297), its last program, erase and read times, and its answer to a retirement. -/
structure DieStat where
  slc : List Nat := []
  native : List Nat := []
  erase : List Nat := []
  read : List Nat := []
  bad : Nat := 0
  erases : Nat := 0
  retries : Nat := 0
  uncorr : Nat := 0
  corrMax : Nat := 0
  progFails : Nat := 0
  eraseFails : Nat := 0
  suspends : Nat := 0
  deriving DecidableEq, Repr

/-- A suspension of what a die does (R282): reads let run, reads done, since when. -/
structure Suspension where
  reads : Nat
  done : Nat
  since : Nat
  deriving DecidableEq, Repr

/-- The media manager: what NAND holds and what runs on it; `rsv` the superblocks of the flush reserve (R272), `reclaiming` the die groups
in which reclaim runs (R275), `flushF` the flush rate F in bytes per second (R233), `progNo` how many programs were queued, `journal` what both copies of the
journal ring hold, oldest first (R285). -/
structure Media where
  units : NMap MUnit := []
  sbs : NMap Sb := []
  open_ : NMap Nat := []
  progs : NMap Prog := []
  relocs : NMap Nat := []
  bad : List Nat := []
  rsv : List Nat := []
  jpend : List JPend := []
  jfirst : Option Nat := none
  jseq : Nat := 0
  durMap : NMap (Nat × Nat) := []
  ckpt : NMap Nat := []
  ckptNext : Nat := 0
  ckptBegan : Nat := 0
  stats : NMap DieStat := []
  opened : Nat := 0
  caseRead : List Nat := []
  closedSince : Option Nat := none
  wlMoves : List Nat := []
  probing : Bool := false
  probeCmds : List Nat := []
  probeSum : Nat := 0
  probeF : Nat := 0
  lastProbe : Nat := 0
  shortSaid : Bool := false
  fullSaid : Bool := false
  warnSaid : Bool := false
  retireCmds : List (Nat × Nat × Nat × Nat × Nat) := []
  dieRec : NMap Nat := []
  suspended : NMap Suspension := []
  reclaiming : List Nat := []
  flushF : Nat := 0
  progNo : Nat := 0
  journal : List JUnit := []
  deriving DecidableEq, Repr

/-- A line of a flush unit (R307). -/
structure FlushLine where
  line : Nat
  poison : Bool
  data : Line
  deriving DecidableEq, Repr

/-- A flush unit (R307, R390): its tenant, its flush sequence number S, J of its flush, its lines as NAND holds them, encrypted. -/
structure FlushUnit where
  tenant : Nat
  seq : Nat
  journal : Nat
  lines : List FlushLine
  deriving DecidableEq, Repr

/-- The state image (R308). -/
structure StateImage where
  keys : NMap Key := []
  tenants : NMap Tenant := []
  regions : NMap Region := []
  ownerBase : Nat := 0
  t1Quota : NMap Nat := []
  t2Quota : NMap Nat := []
  quota : NMap Nat := []
  chains : NMap (List Word64) := []
  ops : NMap (List Word64) := []
  protSeq : Nat := 0
  pairGen : Nat := 0
  confirmed : Nat := 0
  pairWide : NMap Word64 := []
  deriving DecidableEq, Repr

/-- A flush as NAND keeps it (R304 to R309): cause, begin and end, the final epoch's state and number, roles, the charge
at its start, its units, whether FLUSH_END is durable. -/
structure FlushRec where
  cause : Nat
  startTb : Nat
  endTb : Nat := 0
  final : Nat := 0
  roles : Nat := 0
  hot : Bool := false
  pairGen : Nat := 0
  confirmed : Nat := 0
  finalEpoch : Nat := 0
  charged : Nat := 0
  units : List FlushUnit := []
  extents : List (Nat × Nat × Bool) := []
  unmaps : List Nat := []
  jseq : Nat := 0
  ended : Bool := false
  deriving DecidableEq, Repr

/-- Durability: the flush in progress and what the last stop left on NAND. -/
structure Dur where
  flush : Option FlushRec := none
  startedAt : Nat := 0
  waitFinal : Bool := false
  last : Option FlushRec := none
  newest : Nat := 0
  image : Option StateImage := none
  stopCmd : Option (Nat × Nat) := none
  stopping : Bool := false
  heldBase : Option Nat := none
  heldRegs : NMap Region := []
  reserveHeld : NMap (List Nat) := []
  deriving DecidableEq, Repr

/-! ### Twin operation (14_twin_operation.md) and the Swidun link (13_swidun_link.md) -/

/-- An epoch of this twin that is not confirmed (R349): its records oldest first, the frames' worth of bytes staged,
when it closed, whether the twin acknowledged its seal and whether the twin's seal of the same number is applied. -/
structure Epoch where
  n : Nat
  recs : List EpochRec := []
  bytes : Nat := 0
  closed : Option Nat := none
  acked : Bool := false
  applied : Bool := false
  final : Bool := false
  drill : Bool := false
  chunks : List Nat := []
  floor : Nat := 0
  deriving DecidableEq, Repr

/-- What has arrived of an epoch of the twin (R352): its frames' records and pages, its seal, its payload blocks on VC1, whether
its apply has started and when. -/
structure Incoming where
  n : Nat
  recs : List EpochRec := []
  resync : List ResyncMsg := []
  sealed : Option SealMsg := none
  blocks : Nat := 0
  started : Bool := false
  startedAt : Nat := 0
  deriving DecidableEq, Repr

/-- A forwarded operation awaiting its answer (R346). -/
structure FwdOut where
  op : Nat
  msg : FwdReqMsg
  got : List Byte := []
  deriving DecidableEq, Repr

/-- The identity and result kept for a forwarded operation (R347). -/
structure Kept where
  qpn : Nat
  psn : Nat
  seg : Nat
  epoch : Nat
  result : Word64
  deriving DecidableEq, Repr

/-- An ownership move (R348): the region, the new owner, whether it runs, the epoch that carries its RELEASE. -/
structure Move where
  region : Nat
  toB : Bool
  running : Bool
  release : Option Nat
  deriving DecidableEq, Repr

/-- A register batch that waits for pair-wide settings (R62, R350): its queue, page and offsets, its pairs, whether it has changed
a setting. -/
structure BatchWait where
  q : Nat
  page : Nat
  offs : List Nat
  count : Nat
  changed : Bool
  deriving DecidableEq, Repr

/-- The pair, with the records that wait for an epoch to open (R349) and whether this twin hosts the other's addresses (R133). -/
structure Pair where
  opened : Bool := false
  epochs : List Epoch := []
  incoming : List Incoming := []
  openEpoch : Nat := 0
  confirmed : Nat := 0
  deadline : Nat := 0
  fwdOut : List FwdOut := []
  fwdQueue : List FwdOut := []
  kept : List Kept := []
  moves : List Move := []
  changeMap : Option (Nat × List Nat) := none
  replayList : List Nat := []
  standbyList : List Nat := []
  lastHb : Option Nat := none
  lastHbSent : Nat := 0
  lossWait : Bool := false
  twinHello : Option HandshakeMsg := none
  hsSentAt : Option Nat := none
  waitSince : Option Nat := none
  twinHb : Option HeartbeatMsg := none
  finalSeen : Bool := false
  resyncDone : List (Nat × Nat) := []
  rxDone : List (Nat × Nat) := []
  drill : Bool := false
  dropping : Bool := false
  configWait : List (Nat × EpochRec) := []
  configHold : List (Nat × Nat × Word64) := []
  appliedTo : Nat := 0
  seals : List (Nat × SealMsg) := []
  twinB : Option Bool := none
  drillCmd : Option Nat := none
  resyncVseq : Option (Nat × Nat) := none
  mutualDelta : Bool := false
  listWait : Bool := false
  ownedAtStop : Bool := false
  confTimes : List (Nat × Nat) := []
  strictWait : Bool := false
  prefWait : Bool := false
  firstOpenAt : Option Nat := none
  conflict : Bool := false
  away : Bool := false
  resyncAt : Nat := 0
  resyncPlan : Option (List Nat) := none
  resyncOn : Bool := false
  lastCopy : Nat := 0
  rebalance : Option (Nat × List Nat) := none
  wusedSent : NMap Nat := []
  flushEpoch : Option Nat := none
  batches : List BatchWait := []
  hosting : Bool := false
  waitRecs : List EpochRec := []
  deriving DecidableEq, Repr

/-! ### The Swidun link (13_swidun_link.md) -/

/-- A frame sent and not yet acknowledged (R329): its key generation and the header fields it was sent with, so that it is resent
bit-identical. -/
structure SentFrame where
  fseq : Nat
  vc : Nat
  vseq : Nat
  epoch : Nat
  blocks : Nat
  body : LinkBody
  gen : Nat := 0
  final : Bool := false
  ack : Nat := 0
  nak : Bool := false
  credits : Nat × Nat × Nat := (0, 0, 0)
  tries : Nat := 0
  deriving DecidableEq, Repr

/-- One strand beside MIR.LINK_STAT and STRAND_CAUSE (R324, R325, R329, R333): frames unacknowledged, sequence numbers,
frames under this generation, runs of bad windows and tags, times of the last departures, deadlines. -/
structure Strand where
  unacked : List SentFrame := []
  nextFseq : Nat := 1
  rxFseq : Nat := 0
  genFrames : Nat := 0
  rxNewGen : Bool := false
  fecBad : Nat := 0
  tagRun : Nat := 0
  downs : List Nat := []
  retrainAt : Option Nat := none
  disableAt : Option Nat := none
  rotWait : Option Nat := none
  retryAt : Option Nat := none
  nakOwed : Bool := false
  ackOwed : Bool := false
  helloSent : Bool := false
  blocked : Bool := false
  deriving DecidableEq, Repr

/-- A frame waiting for credit or for a strand (R330), with the cells of the chain it leaves from, charged to the link or taken from the
egress reserve (R78, R81). -/
structure QueuedFrame where
  vc : Nat
  epoch : Nat
  blocks : Nat
  body : LinkBody
  cells : Nat := 0
  rsvCells : Nat := 0
  deriving DecidableEq, Repr

/-- A received frame held for reordering (R328). -/
structure HeldFrame where
  vseq : Nat
  hdr : LinkHdr
  body : LinkBody
  deriving DecidableEq, Repr

/-- The link and the sideband (R327 to R338). -/
structure Link where
  strands : NMap Strand := []
  linkCount : Nat := 0
  twinBoot : Nat := 0
  twinLink : Nat := 0
  txGen : Nat := 0
  rxGen : Nat := 0
  rxOld : Option Nat := none
  genSince : Nat := 0
  nextVseq : NMap Nat := []
  rxVseq : NMap Nat := []
  credit : NMap Nat := []
  owed : NMap Nat := []
  queue : List QueuedFrame := []
  reorder : NMap (List HeldFrame) := []
  stallSince : NMap Nat := []
  timeSent : Nat := 0
  timeT1 : Nat := 0
  timeT2 : Nat := 0
  timeNext : Nat := 0
  alignedRun : Nat := 0
  outRun : Nat := 0
  stepped : Bool := false
  slewPs : Int := 0
  fracPs : Int := 0
  sbSeq : Nat := 0
  sbNext : Nat := 0
  sbTwinBoot : Nat := 0
  sbTwinSeq : Nat := 0
  sbLast : Option Nat := none
  sbFlags : Option SbFrame := none
  partial_ : List (FwdReqMsg) := []
  lastVc1 : Nat := 0
  deriving DecidableEq, Repr

/-- Operating-point control (R478 to R480): the family VCORE moves to, since when, how often it was commanded, whether AVS
failed; the start of the span below the thresholds; the throttle. -/
structure Power where
  toBanked : Bool := false
  slewAt : Option Nat := none
  tries : Nat := 0
  avsFailed : Bool := false
  lowSince : Option Nat := none
  throttle : Bool := false
  inputBack : Bool := false
  sampleAt : Nat := 0
  off : Bool := true
  deriving DecidableEq, Repr

/-! ### Event recorder, counters, samples (19_observability.md) -/

/-- An event record (R450); its CRC is computed where it is read. -/
structure EvRec where
  time : Nat
  code : Nat
  inst : Nat
  sev : Nat
  test : Bool
  held : Bool := false
  seqNo : Nat
  arg : Word64
  repeats : Nat := 0
  lastUs : Nat := 0
  deriving DecidableEq, Repr

/-- The recorder: the ring by slot, the next SEQ, the SEQs of the records open for merging (newest last), the hold queue of a
freeze and since when, the SEQ export stands at, when it last signalled and last reported a loss. -/
structure Recorder where
  ring : NMap EvRec := []
  seqNo : Nat := 0
  open_ : List Nat := []
  hold : List EvRec := []
  frozenAt : Option Nat := none
  expAt : Nat := 0
  msgAt : Option Nat := none
  lostAt : Option Nat := none
  deriving DecidableEq, Repr

/-- Performance counters: SELECT entries, live and snapshot values (R461). -/
structure Pmu where
  select : NMap Word64 := []
  live : NMap Word64 := []
  snap : NMap Word64 := []
  deriving DecidableEq, Repr

/-- A sampled message not yet answered (R465, R466). -/
structure SampleOpen where
  qpn : Nat
  lastPsn : Nat
  words : List Word64
  since : Nat
  deriving DecidableEq, Repr

/-- Sampling: records held, oldest first; messages being followed; the count within the run and the position drawn in it; when
the buffer last filled, since when the export ring is full and whether that was reported. -/
structure Sampling where
  buf : List (List Word64) := []
  open_ : List SampleOpen := []
  count : Nat := 0
  pick : Nat := 0
  fullAt : Option Nat := none
  stallSince : Option Nat := none
  stallSaid : Bool := false
  msgAt : Option Nat := none
  deriving DecidableEq, Repr

/-! ### Boot store and start-up (17_startup_update.md) -/

/-- A selector record (R416). -/
structure SelRec where
  active : Nat := 0
  trial : Bool := false
  boots : Nat := 0
  ok0 : Bool := true
  ok1 : Bool := false
  seqNo : Nat := 0
  ver0 : BitVec 32 := 0
  ver1 : BitVec 32 := 0
  deriving DecidableEq, Repr

/-- A full ember record, or what a final record holds of it (R458, R459). -/
structure Ember where
  stop : Nat
  rail : Nat := 0xFF
  boot : Nat
  tb : Nat
  flushStat : Word64
  startStat : Word64
  lost : Word64
  recs : List EvRec
  deriving DecidableEq, Repr

/-- An ember slot (R418, R458): its full record and its final record. -/
structure EmberSlot where
  full : Option Ember := none
  fin : Option Ember := none
  deriving DecidableEq, Repr

/-- The boot store and the start-up: both selector copies, the fused floor, the boot count, what the last verification of each
block found, the block being written and its bytes, saved settings (on BFL_SAVE, and those saved by themselves), ember slots
with the next one and whether it is erased, when the last reset was, when the trial image started, the 64-bit words of the image blocks by
byte address / 8 of the boot store (R418, R420). -/
structure Boot where
  sel0 : Option SelRec := some {}
  sel1 : Option SelRec := some {}
  floor : Nat := 0
  count : Nat := 0
  img0 : Option ImageInfo := none
  img1 : Option ImageInfo := none
  writing : Option Nat := none
  bytes : Nat := 0
  saved : NMap Word64 := []
  savedAddrs : NMap AddrEntry := []
  auto : NMap Word64 := []
  layout : Option Layout := none
  marks : NMap Nat := []
  embers : NMap EmberSlot := []
  emberNext : Nat := 0
  emberErased : Bool := true
  startAt : Nat := 0
  elapsed : Option Nat := none
  trialAt : Option Nat := none
  firstStart : Bool := true
  store : NMap Word64 := []
  deriving DecidableEq, Repr

/-! ### Cipher (16_cipher.md) -/

/-- A key slot (R392): EMPTY 0, DEVICE 1, LOADED 2; the key, its second half for an XTS pair; loads; the next invocation
counter and the value recorded in the boot store (R398). -/
structure KeySlot where
  st : Nat := 0
  key : BitVec 256 := 0
  key2 : BitVec 256 := 0
  loads : Nat := 0
  ivNext : Nat := 0
  ivRec : Nat := 0
  deriving DecidableEq, Repr

/-- The cipher: key slots, and seal and unseal commands that wait for a pipeline: their queue, the command, its data and since
when (R388). -/
structure Cipher where
  slots : NMap KeySlot := []
  held : List (Nat × RqCmd × List Byte × Nat) := []
  deriving DecidableEq, Repr

/-! ### Control complex and management (18_control_complex.md) -/

/-- The control complex: the march test in progress (bank, segments done, destructive, started by the steward), when the
watchdog was last restarted, the SMBus offset, the I3C devices, REQs completed by time, the words of the scratchpad by byte
address / 8 (R433, R434), when each bank was last accessed and the accesses that wait for a bank or a segment (master, address, kind; R436,
R437), the queue of 1 to 3 served last (R55). -/
structure Complex where
  march : Option (Nat × Nat × Bool × Bool) := none
  wdAt : Nat := 0
  smbOff : Nat := 0
  i3c : NMap (List Word64) := []
  cmTimes : List Nat := []
  spad : NMap Word64 := []
  spUsed : NMap Nat := []
  spWait : List (Nat × Nat × SpKind) := []
  rrLast : Nat := 3
  deriving DecidableEq, Repr

/-! ### Power, thermal (20_power_thermal_package.md), integrity (15_integrity.md) -/

/-- Rails: the step of the sequencer and when it began, the enables, the power-good inputs, since when each rail is outside its
warning and fault bands, 1 ms means of input power (newest first), whether the input is below its warning level, dies that may program
at once in a flush, when each of its samplings was last and their sums. -/
structure Rails where
  step : Nat := 1
  stepAt : Nat := 0
  en : List Nat := []
  good : List Nat := []
  warnSince : NMap Nat := []
  faultSince : NMap Nat := []
  means : List Nat := []
  vinLow : Bool := false
  flushDies : Nat := 0
  checkAt : Nat := 0
  mvSum : NMap Nat := []
  mvN : Nat := 0
  wSum : Nat := 0
  wN : Nat := 0
  inputAt : Nat := 0
  flushAt : Nat := 0
  paceAt : Nat := 0
  deriving DecidableEq, Repr

/-- Thermal: what of the limits holds, since when Tj is below the throttle's release, since when the model is off, references
that failed and since when each reads valid again, diodes open and over, NAND channels closed by heat, CASE_MAP, when the last sample was, this hour's start,
sum and number of samples, the sum of all counted hours. -/
structure Thermal where
  warn : Bool := false
  crit : Bool := false
  coolSince : Option Nat := none
  driftSince : Option Nat := none
  driftSaid : Bool := false
  failed : List Nat := []
  okSince : NMap Nat := []
  openDiodes : List Nat := []
  overDiodes : List Nat := []
  heat : List Nat := []
  caseMap : NMap Word64 := []
  sampleAt : Nat := 0
  hourAt : Nat := 0
  hourSum : Int := 0
  hourN : Nat := 0
  lifeSum : Int := 0
  tripped : Bool := false
  deriving DecidableEq, Repr

/-- A scrub lap (R380): when it began, the reads done, whether it is overdue. -/
structure Lap where
  start : Nat := 0
  done : Nat := 0
  last : Nat := 0
  overdue : Bool := false
  deriving DecidableEq, Repr

/-- Integrity: laps (0 the Hearth, 1 + c channel c), injected errors by place, corrections attributed to devices by time, frames
still to fill by channel. -/
structure Integrity where
  laps : NMap Lap := []
  injected : NMap Nat := []
  attrib : NMap (List Nat) := []
  unfilled : NMap Nat := []
  deriving DecidableEq, Repr

/-! ### Outcomes -/

/-- THE STATE. -/
structure State where
  mono : Nat := 0
  tbOff : Int := 0
  twinB : Bool := false
  regs : NMap Word64 := []
  out : List Out := []
  evInbox : List RaisedEv := []
  freeNext : Nat := 0
  msixMask : Word64 := 0xFFFFFFFFFFFFFFFF
  msixPend : Word64 := 0
  msixTab : NMap Word64 := []
  pcieUp : Bool := false
  bellCount : Nat := 0
  rqs : NMap Rq := []
  hearth : Hearth := {}
  banks : Banks := {}
  cache : Cache := {}
  ports : NMap Port := []
  addrs : NMap AddrEntry := []
  qps : NMap Qp := []
  hosts : List IpAddr := []
  dp : DataPath := {}
  prot : Prot := {}
  chains : Chains := {}
  tier : Tier := {}
  media : Media := {}
  dur : Dur := {}
  pair : Pair := {}
  link : Link := {}
  pwr : Power := {}
  rec_ : Recorder := {}
  pmu : Pmu := {}
  smp : Sampling := {}
  boot : Boot := {}
  cph : Cipher := {}
  ccx : Complex := {}
  rails : Rails := {}
  thm : Thermal := {}
  integ : Integrity := {}
  pending : List Instr := []
  deriving DecidableEq, Repr

/-- The outcome of a command. -/
abbrev Res := Host.Outcome State Fault Refusal

/-- The machine right after its reset, before power is applied: every register at the value its table gives (`resetKey`),
memory and queues with nothing listed. -/
def State.reset : State := {}

end Sys2Proof.Machine
end

