-- ==== Sys2Proof/Machine/Operands.lean ====
section
/-! DEFINITION. The register file: where a page's registers lie, their reset values, and reading and writing a field
by name (R12, R35 to R38). -/

namespace Sys2Proof.Machine

/-- How far PSN `a` lies past PSN `b`, of 24 bits (R164). -/
def psnDist (a b : Nat) : Nat := (2 ^ 24 + a - b) % 2 ^ 24

/-- Block ID and instance of a page; none where the page is unmapped (R35). -/
def blockOf (page : Nat) : Option (Nat × Nat) :=
  if page ≤ 0x12 then some (page, 0)
  else if 0x40 ≤ page ∧ page ≤ 0x6F then some (0x40, page - 0x40)
  else if 0x80 ≤ page ∧ page ≤ 0x9F then some (0x80, page - 0x80)
  else if 0x100 ≤ page ∧ page ≤ 0x15F then some (0x81, page - 0x100)
  else if 0x200 ≤ page ∧ page ≤ 0x203 then some (0x0D, page - 0x200 + 1)
  else none

/-- The page is mapped (R35). -/
def mapped (page : Nat) : Bool := (blockOf page).isSome

/-- Counter pages (R37). -/
def isCounterPage (page : Nat) : Bool := decide (0x200 ≤ page ∧ page ≤ 0x203)

/-- Host port pages. -/
def isHpt (page : Nat) : Bool := decide (0x100 ≤ page ∧ page ≤ 0x15F)

/-- PG_CAP.QUIESCE_SUP: HTH, TIR, MIR, MED, TRG and the HPT pages (R38). -/
def quiesceSup (page : Nat) : Bool :=
  page == 0x8 || page == 0xA || page == 0xB || page == 0xC || page == 0x10 || isHpt page

/-- PG_CAP.SOFT_RST_SUP: the HPT pages (R137); the other chapters give their pages 0. -/
def softRstSup (page : Nat) : Bool := isHpt page

/-- The block registers of a page (each chapter's register tables). -/
def pageRegs (page : Nat) : List RegDesc :=
  match blockOf page with
  | some (0x00, _) => regsGLB
  | some (0x01, _) => regsPWR
  | some (0x02, _) => regsTHM
  | some (0x03, _) => regsEVR
  | some (0x04, _) => regsBFL
  | some (0x05, _) => regsSPB
  | some (0x06, _) => regsCPH
  | some (0x07, _) => regsKEY
  | some (0x08, _) => regsHTH
  | some (0x09, _) => regsHCA
  | some (0x0A, _) => regsTIR
  | some (0x0B, _) => regsMIR
  | some (0x0C, _) => regsMED
  | some (0x0D, i) => if i = 0 then regsPMU
      else [⟨0x100, 256, 8, 0, [⟨63, 0, .ro⟩]⟩, ⟨0x900, 256, 8, 0, [⟨63, 0, .ro⟩]⟩]
  | some (0x0E, _) => regsSMP
  | some (0x0F, _) => regsMGI
  | some (0x10, _) => regsTRG
  | some (0x11, _) => regsRDX
  | some (0x12, _) => regsCCX
  | some (0x40, _) => regsDCH
  | some (0x80, _) => regsNCH
  | some (0x81, _) => regsHPT
  | _ => []

/-- The common page header (R38): PG_ID, PG_CAP, PG_CTRL, PG_STAT, PG_EVT, PG_EVT_EN, PG_EVT_SET, PG_GEN. -/
def headerRegs : List RegDesc := [
  ⟨0x00, 1, 8, 0, [⟨47, 0, .ro⟩]⟩, ⟨0x08, 1, 8, 0, [⟨31, 0, .ro⟩]⟩,
  ⟨0x10, 1, 8, 0, [⟨3, 3, .rw⟩, ⟨2, 2, .w1s⟩, ⟨1, 1, .w1s⟩, ⟨0, 0, .rw⟩]⟩,
  ⟨0x18, 1, 8, 0, [⟨15, 0, .ro⟩]⟩, ⟨0x20, 1, 8, 0, [⟨63, 0, .w1c⟩]⟩,
  ⟨0x28, 1, 8, 0, [⟨63, 0, .rw⟩]⟩, ⟨0x30, 1, 8, 0, [⟨63, 0, .wo⟩]⟩, ⟨0x38, 1, 8, 0, [⟨31, 0, .ro⟩]⟩]

/-- A register description covers an offset: one of its instances starts there. -/
def RegDesc.covers (d : RegDesc) (off : Nat) : Bool :=
  decide (d.off ≤ off) && (off - d.off) % d.stride == 0 && decide ((off - d.off) / d.stride < d.count)

/-- The description of the register at an 8-byte-aligned offset of a page; none where the offset is unassigned (R36). -/
def descAt (page off : Nat) : Option RegDesc :=
  if off < 0x40 then (if mapped page then headerRegs.find? (fun d => d.covers off) else none)
  else (pageRegs page).find? (fun d => d.covers off)

/-- Event numbers a block defines, with their severities 0 (INFO) to 3 (FATAL) (R14, R469 and the chapters it names). -/
def eventsOf : Nat → List (Nat × Nat)
  | 0x00 => [(0, 1), (1, 1)]
  | 0x01 => [(0, 1), (1, 3), (2, 3), (3, 0), (4, 1), (5, 0), (6, 2), (7, 1), (8, 3),
      (32, 2), (33, 1), (34, 0), (35, 3), (36, 1), (37, 2), (38, 1), (39, 0)]
  | 0x02 => [(0, 1), (1, 2), (2, 3), (3, 0), (4, 1), (5, 2), (6, 1), (7, 1), (8, 1), (9, 3)]
  | 0x03 => [(0, 1), (1, 1), (2, 2), (3, 0), (4, 1)]
  | 0x04 => [(0, 0), (1, 1), (2, 1), (3, 1), (4, 0), (5, 2), (6, 1), (7, 2), (8, 0), (9, 3), (10, 0)]
  | 0x05 => [(0, 2), (1, 2), (2, 2), (3, 0)]
  | 0x06 => [(0, 1), (1, 0), (2, 1), (3, 0), (4, 2), (5, 1), (6, 2), (7, 1),
      (32, 2), (33, 2), (34, 2), (35, 1), (36, 1), (37, 1), (38, 1), (39, 2), (40, 0), (41, 0)]
  | 0x07 => [(0, 0), (1, 0), (2, 1), (3, 1), (4, 0), (5, 0)]
  | 0x08 => [(0, 0), (1, 1), (2, 0), (3, 2), (4, 1), (5, 0), (6, 1), (7, 1), (8, 1), (9, 1), (10, 2)]
  | 0x09 => [(0, 0), (1, 0), (2, 0), (3, 1), (4, 1), (5, 0), (6, 0)]
  | 0x0A => [(0, 0), (1, 1), (2, 2), (3, 1), (4, 2), (5, 0), (6, 1), (7, 0)]
  | 0x0B => [(0, 0), (1, 2), (2, 2), (3, 1), (4, 1), (5, 2), (6, 1), (7, 2), (8, 3), (9, 1), (10, 0), (11, 0),
      (12, 0), (13, 2), (32, 0), (33, 1), (34, 2), (35, 1), (36, 2), (37, 0), (38, 2), (39, 2), (40, 0), (41, 1),
      (42, 1), (43, 1), (44, 1)]
  | 0x0C => [(0, 1), (1, 0), (2, 2), (3, 1), (4, 2), (5, 1), (6, 1), (7, 0), (8, 2), (9, 1), (10, 0)]
  | 0x0E => [(0, 0), (1, 1)]
  | 0x0F => [(0, 1), (1, 1), (2, 2), (3, 1), (4, 1), (5, 1), (6, 1)]
  | 0x10 => [(0, 1), (1, 0), (2, 1)]
  | 0x11 => [(0, 1), (1, 1), (2, 1), (3, 0), (4, 1), (5, 0)]
  | 0x12 => [(0, 2), (1, 1)]
  | 0x40 => [(0, 0), (1, 2), (2, 1), (3, 2), (4, 1), (5, 1), (6, 1), (7, 1), (8, 1), (9, 2), (10, 2), (11, 2), (12, 2)]
  | 0x80 => [(0, 0), (1, 1), (2, 2), (3, 2), (4, 1), (5, 2), (6, 0), (7, 0)]
  | 0x81 => [(0, 0), (1, 1), (2, 1), (3, 1), (4, 1), (5, 2), (6, 0), (7, 2), (8, 1), (9, 0), (10, 2)]
  | _ => []

/-- The event numbers the block of a page defines. -/
def pageEvents (page : Nat) : List (Nat × Nat) :=
  match blockOf page with
  | some (b, i) => if b = 0x0D ∧ i ≠ 0 then [] else eventsOf b
  | none => []

/-- Bits of PG_EVT that the block defines (R40). -/
def evtMask (page : Nat) : Word64 :=
  (pageEvents page).foldl (fun w e => w ||| (1#64 <<< e.1)) 0

/-- Number of Rister tables of a page (PG_CAP.N_TABLES, R38). -/
def nTables (page : Nat) : Nat :=
  match blockOf page with
  | some (0x02, _) => 1 | some (0x03, _) => 1 | some (0x06, _) => 1 | some (0x07, _) => 3
  | some (0x08, _) => 1 | some (0x09, _) => 1 | some (0x0A, _) => 2 | some (0x0D, 0) => 2
  | some (0x0F, _) => 1 | some (0x10, _) => 2 | some (0x11, _) => 1 | some (0x80, _) => 1 | some (0x81, _) => 1
  | _ => 0

/-- PG_ID of a page (R38). -/
def pgId (page : Nat) : Word64 :=
  match blockOf page with
  | some (b, i) => BitVec.ofNat 64 (b * 2 ^ 40 + i * 2 ^ 32 + 0x0001 * 2 ^ 16 + 0x0096)
  | none => 0

/-- PG_CAP of a page (R38). -/
def pgCap (page : Nat) : Word64 :=
  if mapped page then
    BitVec.ofNat 64 ((pageEvents page).length * 2 ^ 24 + nTables page * 2 ^ 16 + b2n (isCounterPage page) * 8
      + b2n (nTables page != 0) * 4 + b2n (softRstSup page) * 2 + b2n (quiesceSup page))
  else 0

/-- Pages that are enabled out of reset: where QUIESCE_SUP is 0 EN reads 1 (R38); a port is disabled until the steward
enables it (R135); the other quiescible blocks run from start-up on (R424; log 9). -/
def enAtReset (page : Nat) : Bool := !isHpt page

/-- Reset value of the register at an offset of a page: PG_CTRL.EN as above, PG_STAT of the pages of the always-on
domain RUNNING (R469 chapter 19, MGI chapter 18), PG_STAT.QUIESCED while EN is 0, the tables' values elsewhere. -/
def resetAt (page off : Nat) : Word64 :=
  if off = 0x10 then (if enAtReset page then 1 else 0)
  else if off = 0x18 then
    (if page = 0x3 ∨ page = 0xF then 0x0101
     else if enAtReset page then 0 else 0x0004)
  else match descAt page off with
    | some d => BitVec.ofNat 64 d.reset
    | none => 0

/-- Control fields (R46): every RW field of the Rister queue registers, RECOVERY_SRC.ADDR, HCA.CTRL.EN, EVR.FREEZE, EVR.WIN_SEL,
the HEAD fields of both export rings, SPB.MARCH. -/
def isControl (page off : Nat) (f : FieldDesc) : Bool :=
  (page == 0 && (decide (0x400 ≤ off ∧ off < 0x500) || off == 0x218)) || (page == 9 && off == 0x100 && f.lo == 0)
    || (page == 3 && (off == 0x118 || off == 0x130 || off == 0x140)) || (page == 0xE && off == 0x120) || (page == 5 && off == 0x110)

/-- A configuration field of a block register (R46). -/
def isConfig (page off : Nat) (f : FieldDesc) : Bool := f.ty == FieldTy.rw && !isControl page off f

/-- The bits of a field. -/
def fieldMask (f : FieldDesc) : Word64 := BitVec.ofNat 64 ((2 ^ (f.hi + 1 - f.lo) - 1) * 2 ^ f.lo)

/-- The bits of those fields of a register that satisfy a test. -/
def RegDesc.maskOf (d : RegDesc) (p : FieldDesc → Bool) : Word64 :=
  (d.fields.filter p).foldl (fun w f => w ||| fieldMask f) 0

/-- The bits of a register's configuration fields; 0 in the header registers (R46). -/
def configMask (page off : Nat) : Word64 :=
  if off < 0x40 then 0
  else match descAt page off with
    | some d => d.maskOf (isConfig page off)
    | none => 0

/-- BAR0 byte offset of a register (R35). -/
def regKey (page off : Nat) : Nat := page * 0x10000 + off

/-- Reset value by BAR0 byte offset. -/
def resetKey (k : Nat) : Word64 := resetAt (k / 0x10000) (k % 0x10000)

/-- The stored value of a register. -/
def State.reg (s : State) (k : Nat) : Word64 := NMap.getD s.regs k (resetKey k)

/-- Stores a register, keeping the file canonical. -/
def State.setReg (s : State) (k : Nat) (v : Word64) : State := { s with regs := NMap.put (resetKey k) s.regs k v }

/-- BAR0 byte offset of a field's register: `i` the page instance, `a` the byte offset of the array element. -/
def Fld.key (f : Fld) (i : Nat := 0) (a : Nat := 0) : Nat := regKey (f.page + i) (f.off + a)

/-- The value of a field. -/
def State.rd (s : State) (f : Fld) (i : Nat := 0) (a : Nat := 0) : Nat := bits (s.reg (f.key i a)) f.hi f.lo

/-- Writes a field, the register's other fields keeping their values. -/
def State.wr (s : State) (f : Fld) (v : Nat) (i : Nat := 0) (a : Nat := 0) : State :=
  s.setReg (f.key i a) (setBits (s.reg (f.key i a)) f.hi f.lo v)

/-- Adds to a field, saturating at its largest value. -/
def State.satInc (s : State) (f : Fld) (n : Nat) (i : Nat := 0) (a : Nat := 0) : State :=
  s.wr f (min (2 ^ (f.hi + 1 - f.lo) - 1) (s.rd f i a + n)) i a

/-- Adds to a counter field, wrapping. -/
def State.inc (s : State) (f : Fld) (n : Nat := 1) (i : Nat := 0) (a : Nat := 0) : State :=
  s.wr f (s.rd f i a + n) i a

/-- Header fields of every page (R38): the page number goes in as the instance. -/
abbrev PG_CTRL_QUIESCE : Fld := ⟨0, 0x10, 3, 3⟩
abbrev PG_CTRL_LOCK : Fld := ⟨0, 0x10, 2, 2⟩
abbrev PG_CTRL_SOFT_RST : Fld := ⟨0, 0x10, 1, 1⟩
abbrev PG_CTRL_EN : Fld := ⟨0, 0x10, 0, 0⟩
abbrev PG_STAT_STATE : Fld := ⟨0, 0x18, 15, 8⟩
abbrev PG_STAT_FAULT : Fld := ⟨0, 0x18, 3, 3⟩
abbrev PG_STAT_QUIESCED : Fld := ⟨0, 0x18, 2, 2⟩
abbrev PG_STAT_BUSY : Fld := ⟨0, 0x18, 1, 1⟩
abbrev PG_STAT_READY : Fld := ⟨0, 0x18, 0, 0⟩
abbrev PG_EVT_FLAGS : Fld := ⟨0, 0x20, 63, 0⟩
abbrev PG_EVT_EN_EN : Fld := ⟨0, 0x28, 63, 0⟩
abbrev PG_GEN_GEN : Fld := ⟨0, 0x38, 31, 0⟩

/-- PG_STAT.READY of a page. -/
def State.ready (s : State) (page : Nat) : Bool := s.rd PG_STAT_READY page == 1
/-- PG_CTRL.LOCK of a page. -/
def State.locked (s : State) (page : Nat) : Bool := s.rd PG_CTRL_LOCK page == 1
/-- The page takes no new work: its QUIESCE is 1, or its EN is 0 (R38, R39). -/
def State.quiescing (s : State) (page : Nat) : Bool := s.rd PG_CTRL_QUIESCE page == 1 || s.rd PG_CTRL_EN page == 0
/-- Work a page starts by itself does not start: the page quiesces (R292), or a flush has begun (R304 step 1). -/
def State.halts (s : State) (page : Nat) : Bool := s.quiescing page || s.dur.flush.isSome
/-- PG_STAT.QUIESCED of a page. -/
def State.quiesced (s : State) (page : Nat) : Bool := s.rd PG_STAT_QUIESCED page == 1
/-- Sets PG_STAT.STATE and READY of a page. -/
def State.setStat (s : State) (page st : Nat) (ready : Bool) : State :=
  (s.wr PG_STAT_STATE st page).wr PG_STAT_READY (b2n ready) page
/-- PG_GEN rises by 1 for a committed configuration change (R46). -/
def State.bumpGen (s : State) (page : Nat) : State := s.inc PG_GEN_GEN 1 page

end Sys2Proof.Machine
end

