-- ==== Sys2Proof/Machine/Flags.lean ====
section
/-! DEFINITION. Events and interrupts: the flags of PG_EVT, the interrupt condition of a page, MSI-X messages, and what
goes on its way to the event recorder (R38, R40, R52 to R54, R449 to R451). -/

namespace Sys2Proof.Machine

/-- TB_NS (R26). -/
def State.tb (s : State) : Nat := (((s.mono : Int) + s.tbOff) % (2 ^ 64 : Int)).toNat

/-- Logs what leaves the block. -/
def State.emit (s : State) (o : Out) : State := { s with out := o :: s.out }

/-- Sends an MSI-X message, or sets the pending bit of a masked vector (R53). While the PCIe link is down the message
stays pending (log 12). -/
def State.msix (s : State) (v : Nat) : State :=
  if s.msixMask.getLsbD v || !s.pcieUp then { s with msixPend := s.msixPend ||| (1#64 <<< v) }
  else s.emit (.msix v)

/-- The interrupt condition of a page (R53). -/
def State.irqCond (s : State) (page : Nat) : Bool :=
  (s.reg (regKey page 0x20) &&& s.reg (regKey page 0x28)) != 0

/-- The vector of a page (R54). -/
def State.pageVector (s : State) (page : Nat) : Nat :=
  match blockOf page with
  | some (b, i) =>
    (s.rd GLB_IRQ_ROUTE_VECTOR 0 (8 * b) + i % 2 ^ s.rd GLB_IRQ_ROUTE_SPREAD 0 (8 * b)) % 64
  | none => 0

/-- Sets flags of PG_EVT, sending the page's message on a rise of its interrupt condition (R53). -/
def State.setFlags (s : State) (page : Nat) (mask : Word64) : State :=
  let s' := s.setReg (regKey page 0x20) (s.reg (regKey page 0x20) ||| mask)
  if !s.irqCond page && s'.irqCond page then s'.msix (s.pageVector page) else s'

/-- Severity of an event; none where the block does not define it (R14, R40). -/
def evSeverity (page n : Nat) : Option Nat := ((pageEvents page).find? (fun e => e.1 == n)).map Prod.snd

/-- ARG of an event without a register of its own (R451): PG_STAT of a multi-instance page, 0 elsewhere. -/
def State.defaultArg (s : State) (page : Nat) : Word64 := if page ≥ 0x40 then s.reg (regKey page 0x18) else 0

/-- Raises event n of a page's block: its flag and interrupt, and the event on its way to the recorder. A FAULT or FATAL
event leaves PG_STAT.FAULT 1 while its flag stands (R38). -/
def State.raiseWith (s : State) (page n : Nat) (test : Bool) (arg : Word64) : State :=
  match evSeverity page n, blockOf page with
  | some sev, some (b, i) =>
    let s := s.setFlags page (1#64 <<< n)
    let s := if sev ≥ 2 && !test then s.wr PG_STAT_FAULT 1 page else s
    { s with evInbox := s.evInbox ++ [⟨s.tb, b * 0x100 + n, if page < 0x40 then 0 else i, sev, test, arg⟩] }
  | _, _ => s

/-- Raises an event with the argument of R451. -/
def State.raise (s : State) (page n : Nat) : State := s.raiseWith page n false (s.defaultArg page)

/-- Raises an event whose argument is a register its chapter names (R451). -/
def State.raiseArg (s : State) (page n : Nat) (arg : Word64) : State := s.raiseWith page n false arg

/-- Raises an event when a condition holds. -/
def State.raiseIf (s : State) (c : Bool) (page n : Nat) : State := if c then s.raise page n else s

/-- A steward write that leaves the page's condition at 1 sends one more message (R53). -/
def State.irqAfterWrite (s : State) (page : Nat) : State :=
  if s.irqCond page then s.msix (s.pageVector page) else s

/-- Records an access error (R36, R50): the first in an empty register raises ACCESS_ERR. -/
def State.accessErr (s : State) (cause : Nat) (write : Bool) (addr : Nat) : State :=
  if s.rd GLB_ACCESS_ERR_VALID = 1 then s.satInc GLB_ACCESS_ERR_COUNT 1
  else
    let s := s.wr GLB_ACCESS_ERR_VALID 1
    let s := s.wr GLB_ACCESS_ERR_CAUSE cause
    let s := s.wr GLB_ACCESS_ERR_COUNT 1
    let s := s.wr GLB_ACCESS_ERR_WRITE (b2n write)
    let s := s.wr GLB_ACCESS_ERR_ADDR addr
    s.raiseArg 0 0 (s.reg (regKey 0 0x300))

/-- What a slew of at most 200 ppm takes off an offset while the clock goes from a to b (R26, R336), in ps. -/
def State.slewed (s : State) (a b : Nat) : Int :=
  let cap : Int := (b / 5 - a / 5 : Nat)
  if s.link.slewPs < 0 then max s.link.slewPs (-cap) else min s.link.slewPs cap

/-- d nanoseconds of the reference pass, the fraction of a nanosecond slewed so far carried on (0 to 999 ps). Every timer and deadline is held in `mono`, which is TB_NS but for its steps, so a slew acts on
them alike (R25, R26); it never makes the clock run backwards. -/
def State.advanceBy (s : State) (d : Nat) : State :=
  let c := s.slewed s.mono (s.mono + d)
  let f := s.link.fracPs % 1000 + c
  let whole := f / 1000
  { s with mono := s.mono + ((d : Int) - whole).toNat, link := { s.link with slewPs := s.link.slewPs - c, fracPs := f - 1000 * whole } }

/-- A timed command finds its deadline reached: time not yet there advances to it (log 4). -/
def State.upTo (s : State) (t : Nat) : State :=
  if t ≤ s.mono then s
  else { s with mono := t, link := { s.link with slewPs := s.link.slewPs - s.slewed s.mono t } }

end Sys2Proof.Machine
end

