-- ==== Sys2Proof/Machine/Ops.lean ====
section
/-! DEFINITION. The named operations the families share: bytes and words in lines, DRAM lines, free values, who owns and
serves a region, the open epoch, staging a change (R65, R144, R345, R349, R350). -/

namespace Sys2Proof.Machine

/-! ### Bytes -/

/-- Byte i of a line. -/
def lineByte (l : Line) (i : Nat) : Byte := l.extractLsb' (8 * i) 8

/-- n bytes of a line from an offset. -/
def lineGet (l : Line) (off n : Nat) : List Byte := (List.range n).map (fun i => lineByte l (off + i))

/-- Little-endian number of a byte list. -/
def leNat : List Byte → Nat
  | [] => 0
  | b :: bs => b.toNat + 256 * leNat bs

/-- Big-endian number of a byte list. -/
def beNat (bs : List Byte) : Nat := leNat bs.reverse

/-- n little-endian bytes of a number. -/
def toLe : Nat → Nat → List Byte
  | 0, _ => []
  | n + 1, v => BitVec.ofNat 8 v :: toLe n (v / 256)

/-- n big-endian bytes of a number. -/
def toBe (n v : Nat) : List Byte := (toLe n v).reverse

/-- A line with bytes written from an offset. -/
def linePut (l : Line) (off : Nat) (bs : List Byte) : Line :=
  let mask := (2 ^ (8 * bs.length) - 1) * 2 ^ (8 * off)
  BitVec.ofNat 512 ((l.toNat &&& (2 ^ 512 - 1 - mask)) ||| leNat bs * 2 ^ (8 * off))

/-- The word at an 8-byte-aligned offset of a line. -/
def lineWord (l : Line) (off : Nat) : Word64 := l.extractLsb' (8 * off) 64

/-- 64-bit little-endian words as bytes. -/
def wordsBytes (ws : List Word64) : List Byte := ws.flatMap (fun w => toLe 8 w.toNat)

/-- Bytes as 64-bit little-endian words, the last one filled up with zeros. -/
def bytesWords (bs : List Byte) : List Word64 :=
  (List.range (divUp bs.length 8)).map (fun i => BitVec.ofNat 64 (leNat ((bs.drop (8 * i)).take 8)))

/-- The eight words of a line. -/
def lineWords (l : Line) : List Word64 := (List.range 8).map (fun i => lineWord l (8 * i))

/-- Word i of an entry given as words, 0 past its end. -/
def wordAt (ws : List Word64) (i : Nat) : Word64 := nth 0 ws i

/-! ### Free values -/

/-- The number of the next free value. -/
def State.takeFree (s : State) : Nat × State := (s.freeNext, { s with freeNext := s.freeNext + 1 })

/-! ### Twins and regions -/

/-- Whether this U96 is twin B (R1, R13). -/
def State.isB (s : State) : Bool := s.twinB

/-- Bit of this twin in fields that hold a twin. -/
def State.selfBit (s : State) : Nat := b2n s.twinB

/-- The region of a pool offset (R13). -/
def regionOf (pool : Nat) : Nat := pool / 2 ^ 30

/-- Owner a rule gives a region: 0 twin A, 1 twin B, 2 by parity (R345). -/
def ownerRule (base r : Nat) : Bool := base == 1 || (base == 2 && r % 2 == 1)

/-- A region is held after a stop that lost data (R317): this twin owned it at the stop. -/
def State.heldRegion (s : State) (r : Nat) : Bool :=
  match s.dur.heldBase with
  | some b => ((NMap.getD s.dur.heldRegs r {}).ownerB != ownerRule b r) == s.twinB
  | none => false

/-- A region's register (R188). -/
def State.region (s : State) (r : Nat) : Region :=
  let g := NMap.getD s.prot.regions r {}
  { g with ownerB := g.ownerB != ownerRule s.prot.ownerBase r, served := (g.served != s.prot.servedBase) && !s.heldRegion r }

/-- Writes a region's register. -/
def State.setRegion (s : State) (r : Nat) (v : Region) : State :=
  let g := NMap.getD s.prot.regions r {}
  { s with prot := { s.prot with regions := NMap.put {} s.prot.regions r { v with ownerB := v.ownerB != ownerRule s.prot.ownerBase r, served := g.served } } }

/-- Every region takes its owner from a rule. -/
def State.allOwned (s : State) (base : Nat) : State :=
  { s with prot := { s.prot with ownerBase := base, regions := (s.prot.regions.map (fun (e : Nat × Region) => (e.1, { e.2 with ownerB := false, moving := false }))).filter (fun e => e.2 != {}) } }

/-- Regions of the pool owned by a twin (true: B). -/
def State.ownedCount (s : State) (b : Bool) : Nat :=
  let n := s.tier.poolRegions
  let base := if s.prot.ownerBase = 2 then (if b then n / 2 else (n + 1) / 2) else if ownerRule s.prot.ownerBase 0 == b then n else 0
  let flips := s.prot.regions.filter (fun e => e.2.ownerB && decide (e.1 < n))
  base + (flips.filter (fun e => ownerRule s.prot.ownerBase e.1 != b)).length - (flips.filter (fun e => ownerRule s.prot.ownerBase e.1 == b)).length

/-- This twin owns a region (R2). -/
def State.owns (s : State) (r : Nat) : Bool := (s.region r).ownerB == s.twinB

/-- Pair role (R342). -/
def State.role (s : State) : Nat := s.rd PG_STAT_STATE 0xB

/-- In PAIRED, SOLO, SURVIVOR or SOURCE (R343): this twin serves. -/
def State.serving (s : State) : Bool :=
  let r := s.role
  r == 1 || r == 2 || r == 4 || r == 7

/-- Another twin is in service with this one: its seals are needed for confirmation (R159). A source confirms with its
standby (R357). -/
def State.paired (s : State) : Bool :=
  let r := s.role
  r == 1 || r == 6 || r == 7

/-- The tenant record (R185); tenant 0 is the device: ACTIVE with no quota. -/
def State.tenant (s : State) (t : Nat) : Tenant :=
  NMap.getD s.prot.tenants t (if t = 0 then { state := 1 } else {})

/-- Writes a tenant record. -/
def State.setTenant (s : State) (t : Nat) (v : Tenant) : State :=
  { s with prot := { s.prot with tenants := NMap.put (if t = 0 then { state := 1 } else {}) s.prot.tenants t v } }

/-- Changes WUSED of a tenant (R187, R230). -/
def State.addWused (s : State) (t : Nat) (up down : Nat) : State :=
  let r := s.tenant t
  s.setTenant t { r with wused := r.wused + up - down }

/-! ### Epoch staging -/

/-- Bytes a record takes in its frames (R350): header and body. -/
def recBytes : EpochRec → Nat
  | .line .. => 80
  | .discard .. => 24
  | .qpCtx _ ws => 16 + 8 * ws.length
  | .prot _ _ _ e => 24 + 8 * e.length
  | .chain _ _ e => 16 + 8 * e.length
  | .chainData _ _ d => 16 + 8 * divUp d.length 8
  | .addr _ _ ws => 8 + 8 * ws.length
  | .config .. => 24
  | .owner .. => 16
  | .wused .. => 16
  | .opDone .. => 24

/-- Values at byte offsets, in little-endian order, in n bytes; the rest is 0. -/
def placeBytes (n : Nat) (l : List (Nat × List Byte)) : List Byte :=
  (List.range n).map (fun i => match l.find? (fun e => decide (e.1 ≤ i) && decide (i < e.1 + e.2.length)) with
    | some e => nth 0 e.2 (i - e.1)
    | none => 0)

/-- Bytes of one share of a staging half (R349): PART_EPOCH / 4. -/
def State.shareBytes (s : State) : Nat := s.hearth.layout.epoch * 2 ^ 20 / 4

/-- The epoch now open, if epochs run. -/
def State.openSlot (s : State) : Option Epoch := s.pair.epochs.find? (fun e => e.closed.isNone)

/-- The open half can take a change of so many bytes (R349, R350, R90): an epoch is open. -/
def State.canStage (s : State) : Bool := s.openSlot.isSome || !s.pair.opened

/-- A record replaces an unsent one of the same line (R350), of the same context or the same tenant's WUSED (log 25). -/
def mergeRec (recs : List EpochRec) (r : EpochRec) : List EpochRec :=
  match r with
  | .line _ l _ _ =>
    (recs.filter (fun x => match x with | .line _ l' _ _ => l' != l | _ => true)) ++ [r]
  | .qpCtx n _ =>
    (recs.filter (fun x => match x with | .qpCtx n' _ => n' != n | _ => true)) ++ [r]
  | .wused t _ =>
    (recs.filter (fun x => match x with | .wused t' _ => t' != t | _ => true)) ++ [r]
  | _ => recs ++ [r]

/-- The epoch whose records a change made now joins: the open one, or the next where both halves are held (R349). None before the
first epoch opens: there is no copy to keep equal. -/
def State.stageEpoch (s : State) : Option Nat :=
  match s.openSlot with
  | some e => some e.n
  | none => if s.pair.opened then some (s.pair.openEpoch + 1) else none

/-- Stages a record into the open epoch (R350). While both halves are held it waits for the next epoch to open (R349; log 194). -/
def State.stage (s : State) (r : EpochRec) : State :=
  if s.canStage then
    { s with pair := { s.pair with epochs := s.pair.epochs.map (fun e =>
        if e.closed.isNone then
          let rs := mergeRec e.recs r
          { e with recs := rs, bytes := (rs.map recBytes).sum } else e) } }
  else { s with pair := { s.pair with waitRecs := mergeRec s.pair.waitRecs r } }

/-- Marks a chunk of 256 KiB in the change map, while one is kept (R360). -/
def State.markChange (s : State) (pool : Nat) : State :=
  match s.pair.changeMap with
  | some (n, cs) =>
    let c := pool / 2 ^ 18
    if cs.contains c then s else { s with pair := { s.pair with changeMap := some (n, cs ++ [c]) } }
  | none => s

/-- An epoch is confirmed (R159). -/
def State.isConfirmed (s : State) (n : Nat) : Bool := decide (n ≤ s.pair.confirmed)

/-! ### Clock helpers -/

/-- Nanoseconds of a count of microseconds and milliseconds. -/
def us (n : Nat) : Nat := n * 1000
def ms (n : Nat) : Nat := n * 1000000

end Sys2Proof.Machine
end

