-- ==== Sys2Proof/Machine/RecOps.lean ====
section
/-! DEFINITION. The event recorder and the ember record: records and their CRC, merging, overwriting, freezing, what a stop
writes (R449 to R460). -/

namespace Sys2Proof.Machine

/-! ### CRC-32C (R450) -/

/-- One bit of CRC-32C, reflected. -/
def crcBit (c : BitVec 32) : BitVec 32 := if c.getLsbD 0 then (c >>> 1) ^^^ 0x82F63B78#32 else c >>> 1

/-- One byte. -/
def crcByte (c : BitVec 32) (b : Byte) : BitVec 32 := Nat.repeat crcBit 8 (c ^^^ b.zeroExtend 32)

/-- CRC-32C of bytes: initial value and final XOR 0xFFFF_FFFF. -/
def crc32c (bs : List Byte) : BitVec 32 := (bs.foldl crcByte 0xFFFFFFFF#32) ^^^ 0xFFFFFFFF#32

/-! ### Records -/

/-- Word 1 of a record. -/
def EvRec.word1 (r : EvRec) : Word64 :=
  BitVec.ofNat 64 (r.code + r.inst * 2 ^ 16 + r.sev * 2 ^ 24 + b2n r.test * 2 ^ 26 + b2n r.held * 2 ^ 27 + r.seqNo % 2 ^ 32 * 2 ^ 32)

/-- Word 3 of a record without its CRC. -/
def EvRec.word3 (r : EvRec) : Nat := r.repeats + r.lastUs * 2 ^ 16

/-- A record as four words (R450). -/
def EvRec.words (r : EvRec) : List Word64 :=
  let t := BitVec.ofNat 64 r.time
  let crc := crc32c (wordsBytes [t, r.word1, r.arg] ++ toLe 4 r.word3)
  [t, r.word1, r.arg, BitVec.ofNat 64 (r.word3 + crc.toNat * 2 ^ 32)]

/-- The slot of a record whose SEQ is lowest, among those a test admits. -/
def lowestSlot (l : NMap EvRec) (f : EvRec → Bool) : Option (Nat × EvRec) :=
  l.foldl (fun best e =>
    if f e.2 then
      match best with
      | some b => if e.2.seqNo < b.2.seqNo then some e else best
      | none => some e
    else best) none

/-- EVR.STAT and EVR.FREEZE.HELD follow the ring. -/
def State.recStat (s : State) : State :=
  let s := (s.wr EVR_STAT_NEXT_SEQ s.rec_.seqNo).wr EVR_STAT_COUNT s.rec_.ring.length
  let s := s.wr EVR_STAT_OLDEST (match lowestSlot s.rec_.ring (fun _ => true) with | some e => e.1 | none => 0)
  s.wr EVR_FREEZE_HELD s.rec_.hold.length

/-- A record is overwritten (R454, R457): counted by severity, and as lost to export where it was not copied. -/
def State.overwritten (s : State) (r : EvRec) : State :=
  let s := match r.sev with
    | 0 => s.satInc EVR_LOST_INFO 1
    | 1 => s.satInc EVR_LOST_NOTICE 1
    | _ => (s.satInc EVR_LOST_HIGH 1).raise 3 2
  if s.rd EVR_EXP_CTRL_EN = 1 && decide (s.rec_.expAt ≤ r.seqNo) && decide (s.rd EVR_EXP_CTRL_MIN_SEV ≤ r.sev) then
    let s := s.satInc EVR_EXP_CTRL_EXP_LOST 1
    let quiet := match s.rec_.lostAt with | some t => decide (ms 1 ≤ s.mono - t) | none => true
    if quiet then { (s.raise 3 1) with rec_ := { s.rec_ with lostAt := some s.mono } } else s
  else s

/-- A record enters the ring (R454). -/
def State.ringPut (s : State) (r : EvRec) : State :=
  let ring := s.rec_.ring
  if ring.length < 4096 then { s with rec_ := { s.rec_ with ring := NMap.insert ring ring.length r } }
  else match lowestSlot ring (fun x => decide (x.sev ≤ r.sev)) with
    | some (k, old) => (({ s with rec_ := { s.rec_ with ring := NMap.insert ring k r } }).overwritten old)
    | none => s.satInc EVR_LOST_DROPPED 1

/-- A record enters the hold queue of a freeze (R455). -/
def State.holdPut (s : State) (r : EvRec) : State :=
  let h := s.rec_.hold
  if h.length < 256 then { s with rec_ := { s.rec_ with hold := h ++ [r] } }
  else match h.find? (fun x => decide (x.sev ≤ r.sev)) with
    | some old => (({ s with rec_ := { s.rec_ with hold := h.erase old ++ [r] } }).overwritten old)
    | none => s.satInc EVR_LOST_DROPPED 1

/-- The record a raise merges into (R453). -/
def State.mergeTarget (s : State) (e : RaisedEv) : Option EvRec :=
  let all := if s.rec_.frozenAt.isSome then s.rec_.hold else s.rec_.ring.map Prod.snd
  let w := us (s.rd EVR_CFG_REPEAT_US)
  if e.sev = 3 ∨ w = 0 then none
  else all.find? (fun r => s.rec_.open_.contains r.seqNo && r.code == e.code && r.inst == e.inst && r.arg == e.arg && r.test == e.test
    && decide (s.tb - r.time < w))

/-- A raised event reaches the recorder (R449, R452, R453). -/
def State.recordEvent (s : State) (e : RaisedEv) : State :=
  match s.mergeTarget e with
  | some r =>
    let r' := { r with repeats := min 0xFFFF (r.repeats + 1), lastUs := min 0xFFFF ((e.time - r.time) / 1000) }
    let f (x : EvRec) : EvRec := if x.seqNo = r.seqNo then r' else x
    { s with rec_ := { s.rec_ with
        ring := s.rec_.ring.map (fun (x : Nat × EvRec) => (x.1, f x.2)), hold := s.rec_.hold.map f } }
  | none =>
    let n := s.rec_.seqNo
    let r : EvRec := { time := e.time, code := e.code, inst := e.inst, sev := e.sev, test := e.test, seqNo := n, arg := e.arg }
    let o := s.rec_.open_ ++ [n]
    let s : State := { s with rec_ := { s.rec_ with seqNo := n + 1, open_ := o.drop (o.length - 16) } }
    let s := if s.rec_.frozenAt.isSome then s.holdPut r else s.ringPut r
    s.recStat

/-- The first event on its way reaches the recorder. -/
def State.takeEvent (s : State) : State :=
  match s.evInbox with
  | e :: es => ({ s with evInbox := es }).recordEvent e
  | [] => s

/-! ### Freeze (R455) -/

/-- Freezes the ring: every open record closes. -/
def State.freezeOn (s : State) : State :=
  if s.rec_.frozenAt.isSome then s
  else ({ s with rec_ := { s.rec_ with frozenAt := some s.mono, open_ := [] } }).wr EVR_FREEZE_FROZEN 1

/-- A freeze ends: the held records enter the ring in SEQ order, closed, with HELD. -/
def State.freezeOff (s : State) : State :=
  if s.rec_.frozenAt.isNone then s
  else
    let h := s.rec_.hold
    let s : State := { s with rec_ := { s.rec_ with frozenAt := none, open_ := [], hold := [] } }
    (h.foldl (fun s r => s.ringPut { r with held := true }) (s.wr EVR_FREEZE_FROZEN 0)).recStat

/-! ### Ember records (R458, R459) -/

/-- Sorts records by SEQ. -/
def sortRecs (l : List EvRec) : List EvRec := (l.foldl (fun (m : NMap EvRec) r => NMap.insert m r.seqNo r) []).map Prod.snd

/-- Every ring record and held record, in SEQ order. -/
def State.allRecs (s : State) : List EvRec := sortRecs (s.rec_.ring.map Prod.snd ++ s.rec_.hold)

/-- What an ember record holds of now. -/
def State.emberOf (s : State) (stop rail : Nat) (recs : List EvRec) : Ember :=
  { stop := stop, rail := rail, boot := s.rd BFL_BOOT_COUNT_COUNT, tb := s.tb, flushStat := s.reg (regKey 1 0x220), startStat := s.reg (regKey 0 0x210), lost := s.reg (regKey 3 0x110), recs := recs }

/-- Writes the ember slot that is ready; with none ready nothing is written (R418, R460). -/
def State.emberPut (s : State) (x : EmberSlot) : State :=
  if s.boot.emberErased then
    { s with boot := { s.boot with embers := NMap.insert s.boot.embers s.boot.emberNext x, emberNext := (s.boot.emberNext + 1) % 16, emberErased := false } }
  else s

/-- A full ember record for a stop cause: FLUSH 1, CLEAN 2, WATCHDOG 3, HALT 4, STEWARD 5, TRIAL 6. -/
def State.emberFull (s : State) (stop : Nat) : State := s.emberPut { full := some (s.emberOf stop 0xFF s.allRecs) }

/-- An immediate stop (R459): the final record with the six newest FAULT or FATAL records, then the full record. -/
def State.emberFinal (s : State) (rail : Nat) : State :=
  let bad := s.allRecs.filter (fun r => decide (2 ≤ r.sev))
  s.emberPut { full := some (s.emberOf 7 rail s.allRecs), fin := some (s.emberOf 7 rail (bad.drop (bad.length - 6))) }

/-- Bytes of a full ember record (R458) with its CRC. -/
def Ember.fullBytes (e : Ember) : List Byte :=
  let head (crc : Nat) : List Byte := toLe 2 0x4501 ++ toLe 1 e.stop ++ toLe 1 0 ++ toLe 4 crc ++ toLe 4 e.boot ++ toLe 4 e.recs.length
    ++ toLe 8 e.tb ++ wordsBytes [e.flushStat, e.startStat, e.lost] ++ List.replicate 208 0
  let body := e.recs.flatMap (fun r => wordsBytes r.words)
  head (crc32c (head 0 ++ body)).toNat ++ body

/-- Bytes of a final record (R459). -/
def Ember.finBytes (e : Ember) : List Byte :=
  let all (crc : Nat) : List Byte := toLe 2 0x4502 ++ toLe 1 e.stop ++ toLe 1 e.rail ++ toLe 4 crc ++ toLe 4 e.boot ++ toLe 4 0
    ++ toLe 8 e.tb ++ wordsBytes [e.flushStat, e.startStat] ++ List.replicate 24 (0 : Byte)
    ++ (List.range 6).flatMap (fun i => (match e.recs.drop i with | r :: _ => wordsBytes r.words | [] => List.replicate 32 (0 : Byte) : List Byte))
  all (crc32c (all 0)).toNat

/-- The bytes of an ember slot of 256 KiB: erased flash reads 0xFF where nothing is written. -/
def EmberSlot.bytes (x : EmberSlot) (n : Nat) : List Byte :=
  let fin : List Byte := match x.fin with | some e => e.finBytes | none => []
  let full : List Byte := match x.full with | some e => e.fullBytes | none => []
  ((fin ++ List.replicate (4096 - fin.length) (0xFF : Byte) ++ full) ++ List.replicate (n - 4096 - full.length) (0xFF : Byte)).take n

/-! ### Performance counters (R461) -/

/-- EVENT counters count a happening of a source, instance and tenant. -/
def State.pmuCount (s : State) (src ev inst tenant : Nat) (n : Nat := 1) : State :=
  if s.pmu.select.isEmpty || s.rd PMU_CTRL_RUN = 0 then s
  else
    let hit (w : Word64) : Bool := bits w 1 0 == 1 && bits w 15 8 == src && bits w 23 16 == ev
      && (bits w 31 24 == 0xFF || bits w 31 24 == inst) && (bits w 39 32 == 0 || bits w 39 32 == tenant)
    s.pmu.select.foldl (fun s e =>
      if hit e.2 then { s with pmu := { s.pmu with live := NMap.put 0 s.pmu.live e.1 (NMap.getD s.pmu.live e.1 0 + BitVec.ofNat 64 n) } }
      else s) s

end Sys2Proof.Machine
end

