-- ==== Sys2Proof/Machine/SmpOps.lean ====
section
/-! DEFINITION. Request sampling (R465 to R467): which messages are eligible and which of them is taken, the record of a
message that ends. Stage times are what the hardware measures: free values. -/

namespace Sys2Proof.Machine

/-- Records the sample buffer holds at most: PART_SMP / 64 (R467). -/
def State.smpRoom (s : State) : Nat := s.hearth.layout.smp * 2 ^ 20 / 64

/-- A message matches SMP.FILTER (R465). Operation kinds: READ 0, WRITE 1, atomic 2, SEND and FLUSH 3. -/
def State.smpEligible (s : State) (port qpn tenant op : Nat) : Bool :=
  s.rd SMP_CFG_EN == 1 && s.dur.flush.isNone
    && (s.rd SMP_FILTER_QPN_EN == 0 || s.rd SMP_FILTER_QPN == qpn)
    && s.rd SMP_FILTER_OPS / 2 ^ op % 2 == 1
    && (s.rd SMP_FILTER_TENANT == 0 || s.rd SMP_FILTER_TENANT == tenant)
    && (s.rd SMP_FILTER_PORT == 0x7F || s.rd SMP_FILTER_PORT == port)

/-- A message's First or Only packet is taken up: one message in each run of PERIOD eligible ones is followed, at a place drawn
at random within the run; none while the buffer is full. -/
def State.smpStart (s : State) (port qpn tenant op : Nat) (ws : List Word64) (psn since : Nat) : State :=
  if !s.smpEligible port qpn tenant op then s
  else
    let period := max 1 (s.rd SMP_CFG_PERIOD)
    let s : State := if s.smp.count = 0 then
        let (k, s) := s.takeFree
        { s with smp := { s.smp with pick := Config.freeNat k % period } }
      else s
    let mine := s.smp.count == s.smp.pick
    let s : State := { s with smp := { s.smp with count := if period ≤ s.smp.count + 1 then 0 else s.smp.count + 1 } }
    if !mine then s
    else if s.smpRoom ≤ s.smp.buf.length then s.satInc SMP_STAT_MISSED 1
    else { s with smp := { s.smp with open_ := s.smp.open_ ++ [(⟨qpn, psn, ws, since⟩ : SampleOpen)] } }

/-- A stage time of a message, in sixteenths of a nanosecond: measured, so free. -/
def State.smpStage (s : State) : Nat × State :=
  let (k, s) := s.takeFree
  (Config.freeNat k % 0xFFFFFFFF, s)

/-- The stage time of a moment the model knows: sixteenths of a nanosecond since arrival, at most 0xFFFF_FFFE (R466). -/
def stageSince (since at_ : Nat) : Nat := min (16 * (at_ - since)) 0xFFFFFFFE

/-- Stage 6 of a message followed since a moment: the confirmation of the seal that held its answer, the last of the epochs its
operations waited for (R23, R154, R466). None, when no seal held it. Of a confirmation too old to be kept the time is free. -/
def State.smpSealed (s : State) (since : Nat) (epoch : Option Nat) : Nat × State :=
  match epoch with
  | none => (0xFFFFFFFF, s)
  | some e =>
    match s.pair.confTimes.find? (fun c => decide (e ≤ c.1) && s.pair.confTimes.all (fun d => decide (d.1 < e) || decide (c.1 ≤ d.1))) with
    | some c => (stageSince since c.2, s)
    | none => s.smpStage

/-- The record of a sampled message followed since a moment enters the buffer, unless its stage 8 came less than MIN_NS after its
arrival. -/
def State.smpRecord (s : State) (ws : List Word64) (since outcome syndrome : Nat) (epoch : Option Nat) (answered : Bool) : State :=
  let (s1, s) := s.smpStage
  let (s2, s) := s.smpStage
  let (s3, s) := s.smpStage
  let (s4, s) := s.smpStage
  let (s5, s) := s.smpStage
  let (t6, s) := s.smpSealed since epoch
  let (s7, s) := s.smpStage
  let (s8, s) := s.smpStage
  let no := 0xFFFFFFFF
  let t7 := if answered then s7 else no
  let t8 := if answered then s8 else no
  if answered && decide (s8 < 16 * s.rd SMP_CFG_MIN_NS) then s
  else
    let pair (a b : Nat) : Word64 := BitVec.ofNat 64 (a + b * 2 ^ 32)
    let w1 := setBits (setBits (wordAt ws 1) 55 52 outcome) 63 56 syndrome
    let r := [wordAt ws 0, w1, wordAt ws 2, wordAt ws 3, pair s1 s2, pair s3 s4, pair s5 t6, pair t7 t8]
    let s : State := { s with smp := { s.smp with buf := s.smp.buf ++ [r] } }
    let s := s.satInc SMP_STAT_TAKEN 1
    if s.smp.buf.length < s.smpRoom then s
    else
      let quiet := match s.smp.fullAt with | some t => decide (1000000 ≤ s.mono - t) | none => true
      { s.raiseIf quiet 0xE 0 with smp := { (s.raiseIf quiet 0xE 0).smp with fullAt := some s.mono } }

/-- The message of a QP answered at a PSN ends: the oldest one followed that began at or before it. -/
def State.smpEnd (s : State) (qpn psn outcome syndrome : Nat) (epoch : Option Nat) (answered : Bool) : State :=
  match s.smp.open_.find? (fun o => o.qpn == qpn && decide (psnDist psn o.lastPsn < 2 ^ 23)) with
  | some o => ({ s with smp := { s.smp with open_ := s.smp.open_.erase o } }).smpRecord o.words o.since outcome syndrome epoch answered
  | none => s

/-- The message followed on a QP that a packet belongs to changes its words. -/
def State.smpMod (s : State) (qpn psn : Nat) (f : List Word64 → List Word64) : State :=
  match s.smp.open_.reverse.find? (fun o => o.qpn == qpn && decide (psnDist psn o.lastPsn < 2 ^ 23)) with
  | some o => { s with smp := { s.smp with open_ := s.smp.open_.map (fun x => if x = o then { o with words := f o.words } else x) } }
  | none => s

/-- A stall of a cause delays a message (R466 STALLS). -/
def State.smpStall (s : State) (qpn psn cause : Nat) : State :=
  if s.smp.open_.isEmpty then s
  else s.smpMod qpn psn (fun ws => setNth ws 3 (setBits (wordAt ws 3) (48 + cause) (48 + cause) 1))

/-- Every message followed on a QP ends without an answer: DISCARDED 3, DROPPED 4 (R466, R468). -/
def State.smpDrop (s : State) (qpn outcome : Nat) : State :=
  let os := s.smp.open_.filter (fun o => o.qpn == qpn)
  os.foldl (fun (s : State) o => s.smpRecord o.words o.since outcome 0 none false)
    { s with smp := { s.smp with open_ := s.smp.open_.filter (fun o => o.qpn != qpn) } }

/-- Messages of a QP that began after a PSN are discarded behind an RNR NAK. -/
def State.smpDiscard (s : State) (qpn psn : Nat) : State :=
  let late (o : SampleOpen) : Bool := o.qpn == qpn && o.lastPsn != psn && decide (psnDist o.lastPsn psn < 2 ^ 23)
  let os := s.smp.open_.filter late
  os.foldl (fun (s : State) o => s.smpRecord o.words o.since 3 0 none false)
    { s with smp := { s.smp with open_ := s.smp.open_.filter (fun o => !late o) } }

end Sys2Proof.Machine
end

