-- ==== Sys2Proof/Machine/BankOps.lean ====
section
/-! DEFINITION. The banks of the Hearth (R64 to R66, R82 to R86): where a Hearth address lies, which class a requester has, the
request queue of each bank, which request a bank grants next, and what the grants and waits count. -/

namespace Sys2Proof.Machine

/-! ### Where a line lies (R64, R65) -/

/-- The bank of a 31-bit Hearth address: L[8:0] XOR L[17:9] XOR L[24:18] of its line index L = address[30:6]. -/
def hearthBank (addr : Nat) : Nat :=
  let l := addr / 64
  (l % 512) ^^^ (l / 512 % 512) ^^^ (l / 2 ^ 18 % 128)

/-- The row of its bank that a Hearth address lies in: L[24:9]. -/
def hearthRow (addr : Nat) : Nat := addr / 64 / 512 % 65536

/-- The address of a row of a bank: the map of R65 the other way. -/
def hearthAt (bank row : Nat) : Nat := 64 * (row * 512 + (bank ^^^ (row % 512) ^^^ (row / 512 % 128)))

/-- Hearth die of a bank: 64 banks each (R64). -/
def dieOf (bank : Nat) : Nat := bank / 64

/-! ### Who asks (R72, R83) -/

/-- Grant class of a requester (R83); a Hearth scrubber forced on an overdue lap is granted in class 2 (R380). -/
def Requester.cls : Requester → Nat
  | .gather | .lookup | .fill | .writeBack | .flue | .staging | .seal | .context | .control | .rister | .flush => 0
  | .ingress | .forwarded => 1
  | .program | .delivery | .flushData | .twinApply | .forcedScrub => 2
  | .scrub | .migration | .readahead | .samples => 3

/-- Requesters a bank grants while HTH's EN is 0: the control complex, the scrubber and Rister table access (R72). -/
def Requester.atEn0 : Requester → Bool
  | .control | .rister | .scrub | .forcedScrub => true
  | _ => false

/-- A request for the line of a Hearth address joins its bank: in the queue while it holds fewer than 16, else it waits with its
acknowledge withheld (R66). -/
def State.ask (s : State) (who : Requester) (addr : Nat) : State :=
  let b := hearthBank addr
  let q := NMap.getD s.banks.reqs b []
  { s with banks := { s.banks with reqs := NMap.insert s.banks.reqs b (q ++ [⟨who, hearthRow addr, s.mono, s.mono⟩]) } }

/-- The data of a way is accessed: way w of set s lies at cache-partition offset (16 s + w) × 64 (R91). -/
def State.askWay (s : State) (who : Requester) (i : Nat) : State :=
  s.ask who (s.rd HTH_PART_CACHE_BASE_MIB * 2 ^ 20 + 64 * i)

/-- Lines of a partition are accessed of which the spec does not say where they lie: consecutive ones at a free place (log 215). -/
def State.askIn (s : State) (who : Requester) (baseMib sizeMib lines : Nat) : State :=
  if sizeMib = 0 then s
  else
    let (k, s) := s.takeFree
    let first := Config.freeNat k % (sizeMib * 16384)
    (List.range lines).foldl (fun (s : State) j =>
      s.ask who (64 * (baseMib * 16384 + (first + j) % (sizeMib * 16384)))) s

/-! ### What a bank grants (R65, R84, R86) -/

/-- Picoseconds of a bank's cycle: the typical figures at full draught and at banked draught (R65; log 215). -/
def State.bankCycle (s : State) : Nat := if s.rd PWR_OP_STAT_FAMILY = 1 then 2220 else 1000

/-- A request a bank may grant at a damper level: none of class 3 at SHUT; with EN 0 only those of R72. -/
def State.grantable (s : State) (r : BankReq) : Bool :=
  if s.rd PG_CTRL_EN 8 = 0 then r.who.atEn0 else s.hearth.level != 2 || r.who.cls != 3

/-- The request a bank grants of those that wait, oldest first (R84, R86): at OPEN every 16th grant goes to the oldest of any class; else
the oldest of the highest class that waits. So class 2 never passes class 0 or 1, and class 3 waits for all others. -/
def grantPick (level grants : Nat) (q : List BankReq) : Option BankReq :=
  if level = 0 ∧ grants % 16 = 15 then q.head?
  else [0, 1, 2, 3].findSome? (fun c => q.find? (fun r => r.who.cls == c))

/-- A bank grants a request at a moment given in picoseconds: it is busy for one cycle, the first request whose acknowledge was withheld
takes the place in its queue, the grant and the nanoseconds waited are counted (R461). -/
def State.grant (s : State) (b t : Nat) (r : BankReq) : State :=
  let q := (NMap.getD s.banks.reqs b []).erase r
  let at_ := divUp t 1000
  let q := q.mapIdx (fun i x => if i = 15 then { x with entered := max at_ x.asked } else x)
  let c := r.who.cls
  let s : State := { s with banks := { s.banks with
    reqs := if q.isEmpty then NMap.erase s.banks.reqs b else NMap.insert s.banks.reqs b q
    freePs := NMap.insert s.banks.freePs b (t + s.bankCycle)
    grants := NMap.insert s.banks.grants b ((NMap.getD s.banks.grants b 0 + 1) % 16)
    waited := (r.entered, at_) :: s.banks.waited } }
  (s.pmuCount 8 c (dieOf b) 0).pmuCount 8 (0x10 + c) (dieOf b) 0 (at_ - r.asked)

/-- A bank grants what it may up to now, one request a cycle. -/
def bankLoop : Nat → State → Nat → State
  | 0, s, _ => s
  | k + 1, s, b =>
    let q := ((NMap.getD s.banks.reqs b []).take 16).filter s.grantable
    match q with
    | [] => s
    | r :: _ =>
      let t := max (NMap.getD s.banks.freePs b 0) (1000 * r.asked)
      if 1000 * s.mono < t then s
      else match grantPick s.hearth.level (NMap.getD s.banks.grants b 0) (q.filter (fun x => decide (1000 * x.asked ≤ t))) with
        | some x => bankLoop k (s.grant b t x) b
        | none => s

/-- Every bank grants what it may up to now; waits that ended more than 1 µs ago are forgotten. -/
def State.banksGo (s : State) : State :=
  if s.banks.reqs.isEmpty then s
  else
    let s := s.banks.reqs.foldl (fun (s : State) e => bankLoop e.2.length s e.1) s
    { s with banks := { s.banks with waited := s.banks.waited.filter (fun w => decide (s.mono ≤ w.2 + 1000)) } }

/-- No request waits at the bank of an address. -/
def State.bankIdle (s : State) (addr : Nat) : Bool := (NMap.getD s.banks.reqs (hearthBank addr) []).isEmpty

/-! ### Bank pressure (R82) -/

/-- Nanoseconds of the preceding 1 µs that a stay in a queue from one moment to another takes up. -/
def lastMicro (now a b : Nat) : Nat := min b now - max a (now - 1000)

/-- The mean depth of the 512 bank queues over the preceding 1 µs, divided by 16, in 64ths. -/
def State.bankPressure (s : State) : Nat :=
  let past := (s.banks.waited.map (fun w => lastMicro s.mono w.1 w.2)).sum
  let now := (s.banks.reqs.map (fun e => ((e.2.take 16).map (fun r => lastMicro s.mono r.entered s.mono)).sum)).sum
  min 64 ((past + now) * 64 / (1000 * 512 * 16))

end Sys2Proof.Machine
end

