-- ==== Sys2Proof/Machine/DramOps.lean ====
section
/-! DEFINITION. The DRAM channels' own operations: where a frame's lines lie, bank queues and the pick, self-refresh wake,
frames, corrected errors and rank retirement (R219, R243 to R248, R251, R255, R256). -/

namespace Sys2Proof.Machine

/-! ### Channels -/

/-- A channel's state. -/
def State.chan (s : State) (c : Nat) : Chan := NMap.getD s.tier.chans c {}

/-- Writes a channel's state. -/
def State.setChan (s : State) (c : Nat) (v : Chan) : State :=
  { s with tier := { s.tier with chans := NMap.put {} s.tier.chans c v } }

/-- Changes a channel's state. -/
def State.modChan (s : State) (c : Nat) (f : Chan → Chan) : State := s.setChan c (f (s.chan c))

/-- PG_STAT.STATE of a DCH page (R259): EMPTY 0, TRAINING 1, FILLING 2, RUNNING 3, RETRAINING 4, SELF_REFRESH 5, OUT 7. -/
def State.chanSt (s : State) (c : Nat) : Nat := s.rd PG_STAT_STATE (0x40 + c)

/-- Sets it; READY is 1 in RUNNING, RETRAINING and SELF_REFRESH (R259). -/
def State.setChanSt (s : State) (c v : Nat) : State := s.setStat (0x40 + c) v (v == 3 || v == 4 || v == 5)

/-- DCH counter k (R261). -/
def State.dchCount (s : State) (c k : Nat) (n : Nat := 1) : State := s.inc DCH_COUNTER_COUNT n c (8 * k)

/-- A group of eight channels trains (R252). -/
def State.trainGroup (s : State) (g : Nat) : State := (List.range 8).foldl (fun (s : State) i => s.setChanSt (8 * g + i) 1) s

/-- The group after one whose channels have all trained begins (R252). -/
def State.trainNext (s : State) (g : Nat) : State :=
  if (List.range 8).any (fun i => s.chanSt (8 * g + i) == 1) || 5 ≤ g then s else s.trainGroup (g + 1)

/-! ### Where a frame's lines lie (R243) -/

/-- Slot width s: 5 for x4 devices, 4 for x8. -/
def State.slotBits (s : State) (c : Nat) : Nat := if s.rd DCH_POP_WIDTH c = 0 then 5 else 4

/-- Number of populated slots. -/
def State.nDimms (s : State) (c : Nat) : Nat := let v := s.rd DCH_POP_SLOTS c; v % 2 + v / 2 % 2

/-- Package-rank width p. -/
def State.rankBits (s : State) (c : Nat) : Nat := (if s.nDimms c = 2 then 1 else 0) + s.rd DCH_POP_RANKS c

/-- Package rank of a frame. -/
def State.rankOf (s : State) (c f : Nat) : Nat := (f / 2 ^ (s.slotBits c + 2)) % 2 ^ s.rankBits c

/-- Number of package ranks of a channel. -/
def State.nRanks (s : State) (c : Nat) : Nat := 2 ^ s.rankBits c

/-- Frames of a package rank. -/
def State.rankFrames (s : State) (c : Nat) : Nat := s.rd DCH_POP_CAP_GIB c * 2 ^ 18 / 2 ^ s.rd DCH_POP_RANKS c

/-- Row with the logical rank, and bank address within the subchannel, of line j of frame f. -/
def State.rowOf (s : State) (c f : Nat) : Nat := f / 2 ^ (s.slotBits c + 2 + s.rankBits c)
def State.bankOf (s : State) (c f j : Nat) : Nat :=
  let row := f / 2 ^ (s.slotBits c + 2 + s.rankBits c + s.rd DCH_POP_STACK c)
  let inGroup := (f / 2 ^ s.slotBits c) % 4 ^^^ row % 4
  32 * s.rankOf c f + 4 * ((j / 2) % 8) + inGroup

/-- Logical rank and column burst of a line (R243). -/
def State.logicalOf (s : State) (c f : Nat) : Nat := s.rowOf c f % 2 ^ s.rd DCH_POP_STACK c
def State.colOf (s : State) (c f j : Nat) : Nat := f % 2 ^ s.slotBits c * 4 + j / 16

/-- State of a package rank: ABSENT 0, IN_SERVICE 1, RETIRING 2, RETIRED 3. -/
def State.rankSt (s : State) (c r : Nat) : Nat := (s.rd DCH_RANK_STATE c / 4 ^ r) % 4

/-- Writes it. -/
def State.setRankSt (s : State) (c r v : Nat) : State :=
  let w := s.rd DCH_RANK_STATE c
  s.wr DCH_RANK_STATE (w - (w / 4 ^ r) % 4 * 4 ^ r + v * 4 ^ r) c

/-! ### Queues (R244, R247) -/

/-- Requests of a bank of a subchannel queued. -/
def Chan.bankQ (x : Chan) (sub bank : Nat) : List DramReq := x.queue.filter (fun r => r.sub == sub && r.bank == bank)

/-- Moves what fits from the overflow list into the bank queues in arrival order, and what the fabric holds into the
overflow list. Counts the requests sent to the overflow list. -/
def Chan.refill (x : Chan) : Chan × Nat :=
  let (q, o) := x.ovf.foldl (fun (qo : List DramReq × List DramReq) r =>
    let n := (qo.1.filter (fun e => e.sub == r.sub && e.bank == r.bank)).length
    if n < 32 && !qo.2.any (fun e => e.sub == r.sub && e.bank == r.bank) then (qo.1 ++ [r], qo.2) else (qo.1, qo.2 ++ [r])) (x.queue, [])
  let k := 256 - o.length
  let add := x.held.take k
  ({ x with queue := q, ovf := o ++ add, held := x.held.drop k }, add.length)

/-- The operating point is in the banked family (R476). -/
def State.banked (s : State) : Bool := s.rd PWR_OP_STAT_FAMILY == 1

/-- A channel may enter self-refresh (R250). -/
def State.srAllowed (s : State) (c : Nat) : Bool := s.banked && s.rd DCH_SELFREF_SR_EN c == 1

/-- The channel has nothing queued. -/
def Chan.empty (x : Chan) : Bool := x.queue.isEmpty && x.ovf.isEmpty && x.held.isEmpty && x.refOwed.isEmpty && x.postponed.isEmpty

/-- A request reaches a channel (R244, R247, R251): a read that finds a queued write of its line is answered from it; a
self-refresh entry not yet issued is cancelled; one issued is ended by a wake. -/
def State.dramReq (s : State) (c f j : Nat) (write : Bool) (cls : Nat) : State :=
  let x := s.chan c
  let line := 64 * f + j
  if !write && (x.queue ++ x.ovf ++ x.held).any (fun r => r.line == line && r.write) then s
  else
    let r : DramReq := ⟨s.tier.nextReq, j % 2, s.bankOf c f j, s.rowOf c f, line, write, cls, s.mono⟩
    let s : State := { s with tier := { s.tier with nextReq := s.tier.nextReq + 1 } }
    let cancel := s.chanSt c == 3 && s.srAllowed c && x.empty && decide (x.idleSince + us (s.rd DCH_SELFREF_IDLE_US c) ≤ s.mono)
    let s := if cancel then s.dchCount c 10 else s
    let s := if s.chanSt c = 5 && !x.srWanted then s.dchCount c 9 else s
    let full := decide (32 ≤ (x.bankQ r.sub r.bank).length) || !(x.ovf.filter (fun e => e.sub == r.sub && e.bank == r.bank)).isEmpty
    let x := { x with idleSince := s.mono, srWanted := x.srWanted || s.chanSt c == 5 }
    if !full then s.setChan c { x with queue := x.queue ++ [r] }
    else if x.ovf.length < 256 then (s.setChan c { x with ovf := x.ovf ++ [r] }).dchCount c 5
    else s.setChan c { x with held := x.held ++ [r] }

/-- A line's request leaves the channel's queues: its data has come back. -/
def State.dramTaken (s : State) (c f j : Nat) (write : Bool) : State :=
  let line := 64 * f + j
  let gone (r : DramReq) : Bool := r.line == line && r.write == write
  let x := s.chan c
  let (x, n) := ({ x with queue := x.queue.filter (fun r => !gone r), ovf := x.ovf.filter (fun r => !gone r), held := x.held.filter (fun r => !gone r) } : Chan).refill
  (s.setChan c x).dchCount c 5 n

/-- Target of a class in ns (R245). -/
def State.target (s : State) (c : Nat) : Nat → Nat
  | 0 => 10 * s.rd DCH_URG_TGT_DEMAND c
  | 1 => 10 * s.rd DCH_URG_TGT_WRITE c
  | 2 => 10 * s.rd DCH_URG_TGT_MEDIA c
  | 3 => 10 * s.rd DCH_URG_TGT_APPLY c
  | _ => 10 * s.rd DCH_URG_TGT_BACKGROUND c

/-- Urgency of a request (R246). -/
def State.urgency (s : State) (c : Nat) (r : DramReq) : Nat :=
  let age := s.mono - r.entered
  let t := s.target c r.cls
  if 2 * age < t then 0 else if age < t then 1 else if age < 2 * t then 2 else 3

/-- Oldest request of the highest urgency (R246). -/
def State.mostUrgent (s : State) (c : Nat) (l : List DramReq) : Option DramReq :=
  l.foldl (fun b r => match b with
    | none => some r
    | some x => if s.urgency c x < s.urgency c r then some r else some x) none

/-- The mode of a subchannel now: true for WRITE_DRAIN (R246). -/
def State.drainMode (s : State) (c sub : Nat) : Bool :=
  let x := s.chan c
  let ws := x.queue.filter (fun r => r.sub == sub && r.write)
  let urg := ws.any (fun r => decide (2 ≤ s.urgency c r))
  if s.rd DCH_SCHED_WR_HI c ≤ ws.length || urg then true
  else if ws.length ≤ s.rd DCH_SCHED_WR_LO c then false
  else x.drain.contains sub

/-- cand(bank) of R246. Requests of one line keep their order of entry (R247). A request of the other direction at urgency
3 is a candidate too. -/
def State.cand (s : State) (c sub bank : Nat) (drain : Bool) : Option DramReq :=
  let x := s.chan c
  let q := x.bankQ sub bank
  let free := q.filter (fun r => !q.any (fun e => e.line == r.line && decide (e.seqNo < r.seqNo)))
  let elig := free.filter (fun r => r.write == drain || s.urgency c r == 3)
  let k := 128 * sub + bank
  let open_ := NMap.find x.openRow k
  let hit := elig.find? (fun r => r.write == drain && open_ == some r.row)
  let otherUrgent := q.any (fun r => decide (2 ≤ s.urgency c r) && open_ != some r.row)
  match hit with
  | some r => if NMap.getD x.streak k 0 < s.rd DCH_SCHED_HIT_MAX c && !otherUrgent then some r else s.mostUrgent c elig
  | none => s.mostUrgent c elig

/-- The pick (R246): among the banks whose timing allows a command, counting from the bank after the last one issued. -/
def State.pick (s : State) (c sub : Nat) (ready : List Nat) : Option DramReq :=
  let drain := s.drainMode c sub
  let last := NMap.getD (s.chan c).lastBank sub 127
  let order := (List.range 128).map (fun i => (last + 1 + i) % 128)
  let cs := (order.filter (fun b => ready.contains b)).filterMap (fun b => s.cand c sub b drain)
  let u := cs.foldl (fun m r => max m (s.urgency c r)) 0
  cs.find? (fun r => s.urgency c r == u)

/-! ### The page table and the system area (R214) -/

/-- Channels in service at start-up, over which the page table and the system area lie. -/
def State.svcChannels (s : State) : List Nat := s.tier.layChans

/-- Channel and frame of a block of the page table or the system area: block k on the (k mod n)-th channel, its blocks from frame 0 up, or
where a rank's retirement has moved it (R256). -/
def State.sysPlace (s : State) (k : Nat) : Nat × Nat :=
  let cs := s.svcChannels
  let n := max 1 cs.length
  let home := (nth 0 cs (k % n), k / n)
  (NMap.find s.tier.sysMoved (home.1 * 2 ^ 27 + home.2)).getD home

/-- The channel of page-table line m, which lies in block m / 64. -/
def State.ptChannel (s : State) (m : Nat) : Nat := (s.sysPlace (m / 64)).1

/-- Frames that hold blocks at their first places on a channel. -/
def State.sysTop (s : State) (c : Nat) : Nat := NMap.getD s.tier.sysFrames c 0

/-- Where a frame's block first lay, if the frame holds one. -/
def State.sysHome (s : State) (c f : Nat) : Option Nat :=
  let k := c * 2 ^ 27 + f
  if f < s.sysTop c && (NMap.find s.tier.sysMoved k).isNone then some k
  else (s.tier.sysMoved.find? (fun e => e.2 == (c, f))).map Prod.fst

/-! ### Frames (R219, R256) -/

/-- Frames of a channel. -/
def State.chFrames (s : State) (c : Nat) : ChFrames := NMap.getD s.tier.frames c {}

/-- Writes them. -/
def State.setChFrames (s : State) (c : Nat) (f : ChFrames) : State :=
  { s with tier := { s.tier with frames := NMap.insert s.tier.frames c f } }

/-- The frame of a page lies in a rank that cannot be read (R257). -/
def State.frameLost (s : State) (e : Pte) : Bool :=
  (e.st == .resident || e.st == .demoting || e.st == .moving) && (s.chan e.ch).unread.contains (s.rankOf e.ch e.idx)

/-- Free frames of a channel. -/
def ChFrames.free (f : ChFrames) : Nat := f.total - f.used - f.blocked

/-- Free frames of the frame pool (TIR.FRAMES_FREE). -/
def State.framesFree (s : State) : Nat := (s.tier.frames.map (fun e => e.2.free)).sum

/-- Frames of the frame pool (TIR.FRAMES_TOTAL). -/
def State.framesTotal (s : State) : Nat := (s.tier.frames.map (fun e => e.2.total)).sum

/-- The lowest index from one on whose rank is in service: at most four ranks interleave. -/
def State.nextTop (s : State) (c : Nat) : Nat → Nat → Nat
  | 0, t => t
  | k + 1, t =>
    if s.rankSt c (s.rankOf c t) ≤ 1 then t
    else
      let b := 2 ^ (s.slotBits c + 2)
      State.nextTop s c k ((t / b + 1) * b)

/-- Inserts a number into a rising list. -/
def insertNat : List Nat → Nat → List Nat
  | [], x => [x]
  | y :: ys, x => if x < y then x :: y :: ys else if x = y then y :: ys else y :: insertNat ys x

/-- An index for a new frame of a channel: the lowest given back, else the next never used (log 20). -/
def State.takeIdx (s : State) (c : Nat) : Nat × State :=
  let f := s.chFrames c
  match f.freed with
  | i :: r => (i, s.setChFrames c { f with freed := r })
  | [] =>
    let i := s.nextTop c 4 f.top
    (i, s.setChFrames c { f with top := i + 1 })

/-- Takes a frame for a page: the first channel from P mod 48 upwards, wrapping, that has one free (R219). -/
def State.takeFrame (s : State) (p : Nat) : Option (Nat × Nat × State) :=
  match (List.range 48).find? (fun j => decide (0 < (s.chFrames ((p + j) % 48)).free)) with
  | some j =>
    let c := (p + j) % 48
    let (i, s) := s.takeIdx c
    let f := s.chFrames c
    some (c, i, s.setChFrames c { f with used := f.used + 1 })
  | none => none

/-- Takes a spare frame, from channel c + 1 on and wrapping (R256). It joins the pool. -/
def State.takeSpare (s : State) (c : Nat) : Option (Nat × Nat × State) :=
  match (List.range 48).find? (fun j => decide (0 < (s.chFrames ((c + 1 + j) % 48)).spare)) with
  | some j =>
    let d := (c + 1 + j) % 48
    let (i, s) := s.takeIdx d
    let f := s.chFrames d
    some (d, i, s.setChFrames d { f with spare := f.spare - 1, total := f.total + 1, used := f.used + 1 })
  | none => none

/-- Spare frames a channel should hold (TIR.SPARE_FRAMES.TENTHS of its frames). -/
def State.spareTarget (s : State) (f : ChFrames) : Nat := (f.total + f.spare) * s.rd TIR_SPARE_FRAMES_TENTHS / 1000

/-- Gives a frame back. One of a rank that retires is not free again (R256); a short spare share takes it first. -/
def State.giveFrame (s : State) (c i : Nat) : State :=
  let f := s.chFrames c
  if 2 ≤ s.rankSt c (s.rankOf c i) then s.setChFrames c { f with used := f.used - 1, blocked := f.blocked + 1 }
  else if f.spare < s.spareTarget f then
    s.setChFrames c { f with used := f.used - 1, spare := f.spare + 1, total := f.total - 1, freed := insertNat f.freed i }
  else s.setChFrames c { f with used := f.used - 1, freed := insertNat f.freed i }

/-! ### Retirement (R255, R256, R258) -/

/-- Frames in use of a rank by pages, in ascending index. -/
def State.usedOfRank (s : State) (c r : Nat) : List Nat :=
  (s.tier.pt.filter (fun e => (e.2.st != .zero && e.2.st != .media) && e.2.ch == c && s.rankOf c e.2.idx == r)).foldl
    (fun l e => insertNat l e.2.idx) []

/-- Frames of a rank that hold blocks of the page table or the system area, which move like frames in use (R214): those moved before, and
those at their first places. -/
def State.sysOfRank (s : State) (c r : Nat) : List Nat :=
  let moved := s.tier.sysMoved.filter (fun e => e.2.1 == c && s.rankOf c e.2.2 == r)
  let home := (List.range (s.sysTop c)).filter (fun f => s.rankOf c f == r && (NMap.find s.tier.sysMoved (c * 2 ^ 27 + f)).isNone)
  moved.foldl (fun l e => insertNat l e.2.2) home

/-- When no frame is left to move, every rank that retires is RETIRED: its frames leave the pool and firmware records it
with its DIMM's serial number; a channel with no rank in service is OUT (R256, R258). -/
def State.retireEnd (s : State) (c : Nat) : State :=
  let x := s.chan c
  let rs := (List.range 4).filter (fun r => s.rankSt c r == 2)
  if !x.migq.isEmpty || rs.isEmpty then s
  else
    let f := s.chFrames c
    let s := s.setChFrames c { f with total := f.total - f.blocked, blocked := 0 }
    let s := rs.foldl (fun s r =>
      let slot := r / 2 ^ s.rd DCH_POP_RANKS c
      let s : State := { s with tier := { s.tier with retiredRec := s.tier.retiredRec ++ [(c, r, NMap.getD x.serial slot 0)] } }
      (s.setRankSt c r 3).raise (0x40 + c) 8) s
    if (List.range 4).all (fun r => s.rankSt c r == 0 || s.rankSt c r == 3) then (s.setChanSt c 7).raise (0x40 + c) 10 else s

/-- A rank is retired (R255, R256): it gets no new frames, its frames in use join the migration queue. -/
def State.retireRank (s : State) (c r : Nat) (readable : Bool) : State :=
  if s.rankSt c r != 1 then
    (if readable then s else s.modChan c (fun x => { x with unread := insertNat x.unread r }))
  else
    let mine := s.usedOfRank c r
    let f := s.chFrames c
    let n := min (s.rankFrames c) f.total
    let s := s.setChFrames c { f with blocked := f.blocked + (n - mine.length), spare := f.spare - (s.rankFrames c - n), freed := f.freed.filter (fun i => s.rankOf c i != r) }
    let s := s.setRankSt c r 2
    let s := s.modChan c (fun x => { x with migq := x.migq ++ (s.sysOfRank c r).foldl insertNat mine, unread := if readable then x.unread else insertNat x.unread r })
    let s := s.wr DCH_MIGRATE_FRAMES_LEFT (s.chan c).migq.length c
    (s.raise (0x40 + c) 7).retireEnd c

/-- A corrected error in a rank (R255, R261): counted; the rank is retired when the window holds COUNT of them. -/
def State.ceSeen (s : State) (c r : Nat) : State :=
  let s := s.dchCount c 19
  let w := s.rd DCH_CE_LIMIT_WINDOW_S c * 1000000000
  let old := (NMap.getD (s.chan c).ceTimes r []).filter (fun t => decide (s.mono - t < w))
  let now := old ++ [s.mono]
  let s := s.modChan c (fun x => { x with ceTimes := NMap.insert x.ceTimes r now })
  let n := s.rd DCH_CE_LIMIT_COUNT c
  if n != 0 && decide (n ≤ now.length) then s.retireRank c r true else s

/-- An uncorrectable error in a rank (R255): UE_SEEN, and retirement where UE_RETIRE asks for it. -/
def State.ueSeen (s : State) (c r : Nat) : State :=
  let s := s.wr DCH_RANK_UE_SEEN (s.rd DCH_RANK_UE_SEEN c ||| 2 ^ r) c
  if s.rd DCH_CE_LIMIT_UE_RETIRE c = 1 then s.retireRank c r true else s

/-- Installed DRAM in MiB. -/
def State.dramMib (s : State) : Nat :=
  ((List.range 48).map (fun c => s.rd DCH_POP_CAP_GIB c * s.nDimms c * 1024)).sum

/-- The largest pool this twin's DRAM allows (R214): the page table within 5/12 of it. -/
def State.maxRegions (s : State) : Nat := s.dramMib * 5 / 48

end Sys2Proof.Machine
end

