-- ==== Sys2Proof/Machine/CacheOps.lean ====
section
/-! DEFINITION. The line cache's own operations: keys and sets, PLRU, victims, pins, the flue, miss registers
(R91 to R104, R106), and the frames and page-table entries beneath (R216 to R220, R230). -/

namespace Sys2Proof.Machine

/-! ### Keys, sets, ways -/

/-- Number of sets: PART_CACHE / 1 KiB (R91). -/
def State.nSets (s : State) : Nat := s.hearth.layout.cache * 1024

/-- Key of a page-table line (R92): line number with bit 42 set. -/
def ptKey (m : Nat) : Nat := 2 ^ 42 + m

/-- The key is that of a page-table line. -/
def isPtKey (k : Nat) : Bool := decide (2 ^ 42 ≤ k)

/-- The set of a key (R92). -/
def State.setOf (s : State) (k : Nat) : Nat :=
  let h := (k % 2 ^ 32) ^^^ (((k / 2 ^ 32) % 2 ^ 11) * 2 ^ 21)
  h % (max 1 s.nSets)

/-- The way at a place, if it is not INVALID. -/
def State.wayAt (s : State) (i : Nat) : Option Way := NMap.find s.cache.ways i

/-- Writes a way. -/
def State.setWay (s : State) (i : Nat) (w : Way) : State :=
  { s with cache := { s.cache with ways := NMap.insert s.cache.ways i w } }

/-- Makes a way INVALID for another line to take its place. -/
def State.dropWay (s : State) (i : Nat) : State :=
  { s with cache := { s.cache with ways := NMap.erase s.cache.ways i } }

/-- Makes a way INVALID; a set that is emptied has its PLRU bits 0 (R95). -/
def State.freeWay (s : State) (i : Nat) : State :=
  let s := s.dropWay i
  let b := 16 * (i / 16)
  if (List.range 16).all (fun w => (s.wayAt (b + w)).isNone) then
    { s with cache := { s.cache with plru := NMap.erase s.cache.plru (i / 16) } }
  else s

/-- The way lookup matches for a key: DETACHED ways do not match (R93). -/
def State.findWay (s : State) (k : Nat) : Option (Nat × Way) :=
  let b := 16 * s.setOf k
  (List.range 16).findSome? (fun w =>
    match s.wayAt (b + w) with
    | some x => if x.key = k && x.st != .detached then some (b + w, x) else none
    | none => none)

/-- PLRU bits of a set after a touch of a way (R96). -/
def plruTouch (v w : Nat) : Nat :=
  (List.range 4).foldl (fun v k =>
    let leaf := w + 16
    let node := leaf >>> (k + 1)
    let child := (leaf >>> k) % 2
    let m := 2 ^ (node - 1)
    if child = 0 then v ||| m else (v ||| m) - m) v

/-- Touches a way. -/
def State.touch (s : State) (i : Nat) : State :=
  let st := i / 16
  { s with cache := { s.cache with
      plru := NMap.put 0 s.cache.plru st (plruTouch (NMap.getD s.cache.plru st 0) (i % 16)) } }

/-- The walk of R97 from a node of which `d` levels lie below: the leaf reached, keeping to subtrees that hold a
candidate way. -/
def plruWalk (v : Nat) (cand : Nat → Bool) : Nat → Nat → Nat
  | 0, node => node - 16
  | d + 1, node =>
    let b := (v >>> (node - 1)) % 2
    let c := 2 * node + b
    let some_ := (List.range (2 ^ d)).any (fun j => cand (c * 2 ^ d + j - 16))
    plruWalk v cand d (if some_ then c else 2 * node + 1 - b)

/-- Occupancy of a tenant: CLEAN, DIRTY and FILLING ways it owns (R106). -/
def State.occOf (s : State) (t : Nat) : Nat :=
  (s.cache.ways.filter (fun e => e.2.owner == t && e.2.st != .detached)).length

/-- DIRTY lines (HCA.OCC). -/
def State.dirtyWays (s : State) : Nat := (s.cache.ways.filter (fun e => e.2.st == .dirty)).length

/-- Quota of a tenant in lines (R107). -/
def State.quotaOf (s : State) (t : Nat) : Nat := NMap.getD s.cache.quota t 0xFFFFFFFF

/-- The cache is ENABLED (R109). -/
def State.cacheOn (s : State) : Bool := s.rd HCA_STAT_STATE == 1

/-- Raises HCA.MSHR_STAT.PEAK. -/
def State.mshrPeak (s : State) : State :=
  if s.rd HCA_MSHR_STAT_PEAK < s.cache.mshrs.length then s.wr HCA_MSHR_STAT_PEAK s.cache.mshrs.length else s

/-! ### DRAM lines and page-table entries -/

/-- Place of a line of a frame in the DRAM store. -/
def dramKey (ch idx l : Nat) : Nat := (ch * 2 ^ 27 + idx) * 64 + l

/-- A line of a frame. -/
def State.dramLine (s : State) (ch idx l : Nat) : DLine := NMap.getD s.tier.dram (dramKey ch idx l) {}

/-- Writes a line of a frame; an error injected there is gone (R383). -/
def State.setDram (s : State) (ch idx l : Nat) (v : DLine) : State :=
  let k := dramKey ch idx l
  { s with tier := { s.tier with dram := NMap.put {} s.tier.dram k v }, integ := { s.integ with injected := NMap.erase s.integ.injected (4 * k) } }

/-- Fills a frame (R217, R222): line l from a function of l, in writes of a DRAM class (R245). -/
def State.fillFrame (s : State) (ch idx cls : Nat) (f : Nat → DLine) : State :=
  (List.range 64).foldl (fun s l => (s.setDram ch idx l (f l)).dramReq ch idx l true cls) s

/-- The page-table entry of a page (R216). -/
def State.pte (s : State) (p : Nat) : Pte := NMap.getD s.tier.pt p {}

/-- The DRAM request of a cached line (R243, R245): of its page's frame, or of its block of the page table (R214). -/
def State.lineReq (s : State) (k ch : Nat) (write : Bool) (cls : Nat) : State :=
  if isPtKey k then s.dramReq ch (s.sysPlace ((k - 2 ^ 42) / 64)).2 ((k - 2 ^ 42) % 64) write cls
  else s.dramReq ch (s.pte (k / 64)).idx (k % 64) write cls

/-- Writes a page-table entry. Page-table lines are written through to DRAM and are never DIRTY (R375). -/
def State.setPte (s : State) (p : Nat) (e : Pte) : State :=
  if s.pte p = e then s
  else
    let s := { s with tier := { s.tier with pt := NMap.put {} s.tier.pt p e } }
    if s.svcChannels.isEmpty then s else s.lineReq (ptKey (p / 4)) (s.ptChannel (p / 4)) true 1

/-- Changes a tenant's frame count (R227). -/
def State.addT1 (s : State) (t up down : Nat) : State :=
  { s with tier := { s.tier with t1Used := NMap.put 0 s.tier.t1Used t (NMap.getD s.tier.t1Used t 0 + up - down) } }

/-- Changes a tenant's page count (R227). -/
def State.addT2 (s : State) (t up down : Nat) : State :=
  { s with tier := { s.tier with t2Used := NMap.put 0 s.tier.t2Used t (NMap.getD s.tier.t2Used t 0 + up - down) } }

/-- A tenant is at its tier-1 quota (R227). -/
def State.t1Full (s : State) (t : Nat) : Bool :=
  decide (NMap.getD s.tier.t1Quota t 0xFFFFFFFFFF ≤ NMap.getD s.tier.t1Used t 0)

/-- AGE of now: TB_NS[35:20] (R216). -/
def State.age (s : State) : Nat := (s.tb / 2 ^ 20) % 2 ^ 16

/-- A demand access raises HEAT at most once per AGE (R220). -/
def State.heatPage (s : State) (p : Nat) : State :=
  let e := s.pte p
  if e.age = s.age then s else s.setPte p { e with heat := min 15 (e.heat + 1), age := s.age }

/-- Charges a line to the dirty budget (R230). During a destage of its page it is charged again (R231). -/
def State.charge (s : State) (line tenant : Nat) : State :=
  let p := line / 64
  let m : Word64 := 1#64 <<< (line % 64)
  let r := (NMap.find s.tier.recs p).getD ⟨0, tenant, s.mono⟩
  let s : State := { s with tier := { s.tier with destages := s.tier.destages.map (fun d =>
    if d.1 = p then (d.1, { d.2 with again := d.2.again ||| m }) else d) } }
  if (r.mask &&& m) != 0 then s
  else
    let s := { s with tier := { s.tier with recs := NMap.insert s.tier.recs p { r with mask := r.mask ||| m } } }
    let s := s.wr TIR_DIRTY_CHARGED_BYTES (s.rd TIR_DIRTY_CHARGED_BYTES + 64)
    let s := s.setPte p { s.pte p with dirty := true }
    if s.owns (regionOf (line * 64)) then s.addWused r.tenant 64 0 else s

/-- Bytes of reservation an access's placement releases (R163): its bytes, 64 for an atomic. -/
def AccKind.reserved : AccKind → Nat
  | .read => 0
  | .write _ bs => bs.length
  | _ => 64

/-- Changes an operation in progress. -/
def State.modOp (s : State) (id : Nat) (f : Op → Op) : State :=
  { s with dp := { s.dp with ops := s.dp.ops.map (fun o => if o.id = id then f o else o) } }

/-- An operation in progress. -/
def State.op? (s : State) (id : Nat) : Option Op := s.dp.ops.find? (fun o => o.id == id)

/-- Reservation an access's operation gives back for it (R163): 64 bytes for an ATOMIC WRITE too. -/
def State.accReserved (s : State) (a : Acc) : Nat :=
  match s.op? a.op with
  | some o => if o.kind == .atomicWrite then 64 else a.kind.reserved
  | none => a.kind.reserved

/-- Releases reserved bytes of a message as they are placed (R163, R187, R230). -/
def State.unreserve (s : State) (tenant n : Nat) : State :=
  (s.wr TIR_DIRTY_RESERVED_BYTES (s.rd TIR_DIRTY_RESERVED_BYTES - n)).addWused tenant 0 n

/-! ### Victims, pins, write-backs -/

/-- What choosing a way gives (R97). -/
inductive Alloc where
  | way (i : Nat) (s : State)
  | bypass
  | waitSet (n : Nat)
  | waitFlue

/-- The channel that holds a line's frame, or its block of the page table (R100, R214). -/
def State.keyChannel (s : State) (k : Nat) : Nat := if isPtKey k then s.ptChannel (k - 2 ^ 42) else (s.pte (k / 64)).ch

/-- The page of a line is MOVING: its write-backs wait until the move ends (R217). -/
def State.keyMoving (s : State) (k : Nat) : Bool := !isPtKey k && (s.pte (k / 64)).st == .moving

/-- A write-back waits for the move of its page (R217): counted as a stall MOVING (R226). -/
def State.moveWait (s : State) (k : Nat) : State :=
  if s.cache.moveWaits.any (fun w => w.1 == k) then s
  else
    let s : State := { s with cache := { s.cache with moveWaits := s.cache.moveWaits ++ [(k, s.mono)] } }
    (s.inc TIR_STALL_COUNT_COUNT 1 0 (8 * 7)).pmuCount 0x0A 7 0 0

/-- A DIRTY line enters the flue, which asks for its write (R101). -/
def State.toFlue (s : State) (k : Nat) (data : Line) (poison : Bool) : State :=
  let s : State := { s with cache := { s.cache with flue := s.cache.flue ++ [(⟨k, data, poison, false⟩ : Flue)] } }
  if s.keyMoving k then s.moveWait k else s.lineReq k (s.keyChannel k) true 1

/-- Chooses a way in the set of a key for a tenant (R97): an INVALID way below quota, else the walk over the candidates;
a DIRTY victim goes to the flue. Every miss of a tenant whose quota is 0 is bypassed (R106). -/
def State.alloc (s : State) (k t : Nat) : Alloc :=
  let n := s.setOf k
  let b := 16 * n
  let under := decide (s.occOf t < s.quotaOf t)
  if s.quotaOf t = 0 then .bypass
  else match (List.range 16).find? (fun w => under && (s.wayAt (b + w)).isNone) with
  | some w => .way (b + w) s
  | none =>
    let free (w : Nat) : Bool := match s.wayAt (b + w) with
      | some x => (x.st == .clean || x.st == .dirty) && x.pins == 0 && x.unsealed.isNone
      | none => false
    let cand (w : Nat) : Bool := free w && (match s.wayAt (b + w) with | some x => under || x.owner == t | none => false)
    if !(List.range 16).any cand then
      if under || !(List.range 16).any (fun w => free w || (s.wayAt (b + w)).isNone) then .waitSet n else .bypass
    else
      let w := plruWalk (NMap.getD s.cache.plru n 0) cand 4 1
      match s.wayAt (b + w) with
      | some x =>
        if x.st == .dirty then
          if 4096 ≤ s.cache.flue.length then .waitFlue
          else .way (b + w) ((s.dropWay (b + w)).toFlue x.key x.data x.poison)
        else .way (b + w) (s.dropWay (b + w))
      | none => .waitSet n

/-- A miss is sent to the bypass path by a quota (R97, R106, HCA.WAITS.QUOTA_BYPASS). -/
def State.quotaBypass (s : State) (t : Nat) : State :=
  let s := s.satInc HCA_WAITS_QUOTA_BYPASS 1
  { s with cache := { s.cache with bypasses := NMap.put 0 s.cache.bypasses t ((NMap.getD s.cache.bypasses t 0 + 1) % 2 ^ 32) } }

/-- The newest flue entry of a line: an older one whose write is still in progress may lie beside it (R102). -/
def State.flueOf (s : State) (k : Nat) : Option Flue := (s.cache.flue.filter (fun f => f.key == k)).getLast?

/-- A line is reinstated from the flue (R102): a write-back not yet issued is cancelled, and a cache command that waited for it takes the
line up again (R113). -/
def State.reinstate (s : State) (k : Nat) : State :=
  let cancelled := s.cache.flue.any (fun f => f.key == k && !f.issued)
  let back (c : CacheCmd) : CacheCmd :=
    if cancelled && c.out.contains k then { c with out := c.out.filter (· != k), todo := c.todo ++ [k], wrote := c.wrote - 1 } else c
  { s with cache := { s.cache with
      flue := s.cache.flue.filter (fun f => f.key != k || f.issued), cmds := s.cache.cmds.map back
      moveWaits := s.cache.moveWaits.filter (fun w => w.1 != k) } }

/-- Pins the way at a place once more (R75). -/
def State.pin (s : State) (i : Nat) : State :=
  match s.wayAt i with
  | some x => s.setWay i { x with pins := x.pins + 1 }
  | none => s

/-- Releases one pin of the way at a place, a DETACHED way with no pin left becoming INVALID (R75, R93). -/
def State.unpin (s : State) (i : Nat) : State :=
  match s.wayAt i with
  | some x => if x.st == .detached && x.pins ≤ 1 then s.freeWay i else s.setWay i { x with pins := x.pins - 1 }
  | none => s

/-- Invalidates a way under a cache command, a drain or a move: a PINNED line becomes DETACHED (R110, R112). -/
def State.invalidate (s : State) (i : Nat) : State :=
  match s.wayAt i with
  | some x => if x.pins = 0 then s.freeWay i else s.setWay i { x with st := .detached }
  | none => s

/-- The write of a flue entry is issued on a channel (R101, R102). -/
def State.flueIssued (s : State) (c line : Nat) : State :=
  let at_ (k : Nat) : Bool :=
    if isPtKey k then s.ptChannel (k - 2 ^ 42) == c && 64 * (s.sysPlace ((k - 2 ^ 42) / 64)).2 + (k - 2 ^ 42) % 64 == line
    else (s.pte (k / 64)).ch == c && 64 * (s.pte (k / 64)).idx + k % 64 == line
  { s with cache := { s.cache with flue := s.cache.flue.map (fun f => if at_ f.key then { f with issued := true } else f) } }

/-- A DIRTY way is written back (R101, R104, R110, R112): its frame holds its value, the write is in progress, the way is
CLEAN. An older write of the line still in progress from the flue cannot land after it (R102). While its page is MOVING the write-back
waits (R217). -/
def State.writeBackWay (s : State) (i : Nat) : State :=
  match s.wayAt i with
  | some x =>
    if x.st != .dirty then s
    else if s.keyMoving x.key then s.moveWait x.key
    else
      let ch := s.keyChannel x.key
      let s := if isPtKey x.key then s else s.setDram ch (s.pte (x.key / 64)).idx (x.key % 64) ⟨x.data, x.poison⟩
      let s := ((s.lineReq x.key ch true 1).askWay .writeBack i).setWay i { x with st := .clean }
      let s : State := { s with cache := { s.cache with flue := s.cache.flue.map (fun (f : Flue) => if f.key = x.key then { f with data := x.data, poison := x.poison } else f) } }
      { s with cache := { s.cache with writeBacks := s.cache.writeBacks ++ [(⟨x.key, x.data, x.poison, true⟩ : Flue)] } }
  | none => s

/-- The move of a page has ended: write-backs that waited go to the new frame (R217, R226). A line reinstated, written back or
discarded since has none left. -/
def State.moveWaitsGo (s : State) (p : Nat) : State :=
  let mine := s.cache.moveWaits.filter (fun w => w.1 / 64 == p)
  let s : State := { s with cache := { s.cache with moveWaits := s.cache.moveWaits.filter (fun w => w.1 / 64 != p) } }
  mine.foldl (fun s w =>
    let s := s.inc TIR_STALL_NS_COUNT (s.mono - w.2) 0 (8 * 7)
    let s := if s.cache.flue.any (fun f => f.key == w.1 && !f.issued) then s.lineReq w.1 (s.keyChannel w.1) true 1 else s
    match s.findWay w.1 with
    | some (i, x) => if x.unsealed.isNone then s.writeBackWay i else s
    | none => s) s

/-! ### Cells of the packet pool -/

/-- Key of a port and priority in the pool's accounts. -/
def pq (p q : Nat) : Nat := 8 * p + q

/-- Shared cells charged to a port and priority, and to a port (R78). -/
def State.prioCharge (s : State) (p q : Nat) : Nat := NMap.getD s.hearth.charge (pq p q) 0
def State.portCharge (s : State) (p : Nat) : Nat := ((List.range 8).map (fun q => s.prioCharge p q)).sum

/-- Charges shared cells, keeping PEAK (R88). -/
def State.addCells (s : State) (p q n : Nat) : State :=
  let s := { s with hearth := { s.hearth with charge := NMap.put 0 s.hearth.charge (pq p q) (s.prioCharge p q + n) } }
  { s with hearth := { s.hearth with
      peak := NMap.put 0 s.hearth.peak p (max (NMap.getD s.hearth.peak p 0) (s.portCharge p)) } }

end Sys2Proof.Machine
end

