-- ==== Sys2Proof/Machine/IntOps.lean ====
section
/-! DEFINITION. Integrity operations (15_integrity.md): counting, injected errors, the recovery of an uncorrectable line,
reads of DRAM lines with their check bits, device marks. -/

namespace Sys2Proof.Machine

/-- Integrity counter k (R385). -/
def State.intCount (s : State) (k : Nat) (n : Nat := 1) : State := s.inc CPH_INT_COUNTER_COUNT n 0 (8 * k)

/-- INT.LAST_UE (R384). -/
def State.lastUe (s : State) (source outcome ch rank line : Nat) : State :=
  let s := (s.wr INT_LAST_UE_SOURCE source).wr INT_LAST_UE_OUTCOME outcome
  ((s.wr INT_LAST_UE_CHANNEL ch).wr INT_LAST_UE_RANK rank).wr INT_LAST_UE_LINE line

/-! ### Injected errors (R383): keys 4 × DRAM key, 4 × line + 1 of a way, 4 × Hearth line + 2, 4 × page + 3 -/

/-- The kind of an error injected at a place: CE 1, UE 2. -/
def State.injKind (s : State) (k : Nat) : Nat := NMap.getD s.integ.injected k 0

/-- It is gone. -/
def State.injDrop (s : State) (k : Nat) : State := { s with integ := { s.integ with injected := NMap.erase s.integ.injected k } }

/-- What a decode finds where an error is injected. -/
def State.eccAt (s : State) (k : Nat) (e : Ecc) : Ecc :=
  match s.injKind k with
  | 1 => (match e with | .uncorrectable => .uncorrectable | _ => .corrected none)
  | 2 => .uncorrectable
  | _ => e

/-! ### Addresses in the codes (R370) -/

/-- Number of bits in which two addresses differ. -/
def bitsApart (a b : Nat) : Nat := ((List.range 64).filter (fun i => a / 2 ^ i % 2 != b / 2 ^ i % 2)).length

/-- Address of a line that its DRAM code takes in: subchannel, package rank with bank group and bank, column burst, row with the logical
rank. -/
def State.dramAddr (s : State) (c f j : Nat) : Nat :=
  j % 2 + 2 * s.bankOf c f j + 2 ^ 9 * (j / 16 + 4 * (f % 2 ^ s.slotBits c)) + 2 ^ 18 * s.rowOf c f

/-- A line of another address decodes as uncorrectable: always where the two differ in 1 to 4 bits, else unless the code misses it
(log 200). -/
def addrFound (mine other : Nat) : Bool := mine != other && (decide (bitsApart mine other ≤ 4) || !Config.addressMissed mine other)

/-- What a decode finds of a line whose address and the address it was asked at are known. -/
def eccResolve (mine : Nat) (addr : Nat → Nat → Nat) : Ecc → Ecc
  | .otherLine f j => if addrFound mine (addr f j) then .uncorrectable else .otherLine f j
  | e => e

/-! ### Device marks (R381) -/

/-- DEV_MARKS of a channel. -/
def State.devMarks (s : State) (c : Nat) : Nat := NMap.getD s.boot.marks c 0

/-- A correction that names a device: the device is marked when the window holds COUNT of them; an x8 rank then retires. -/
def State.attribute (s : State) (c r sub d : Nat) : State :=
  let place := 16 * r + 8 * sub
  if s.rd INT_DEV_MARK_EN = 0 || (s.devMarks c / 2 ^ (place + 4)) % 2 = 1 then s
  else
    let k := ((c * 4 + r) * 2 + sub) * 32 + d
    let w := s.rd DCH_CE_LIMIT_WINDOW_S c * 1000000000
    let now := (NMap.getD s.integ.attrib k []).filter (fun t => decide (s.mono - t < w)) ++ [s.mono]
    let s : State := { s with integ := { s.integ with attrib := NMap.insert s.integ.attrib k now } }
    if now.length < s.rd INT_DEV_MARK_COUNT then s
    else
      let v := s.devMarks c + (d % 16 + 16) * 2 ^ place
      let s : State := { s with boot := { s.boot with marks := NMap.insert s.boot.marks c v } }
      let s := (s.intCount 11).raise 6 37
      if s.rd DCH_POP_WIDTH c = 0 then s else s.retireRank c r true

/-! ### Recovery (R376) -/

/-- The line's bit in the page's dirty-page record is set. -/
def State.charged (s : State) (line : Nat) : Bool :=
  match NMap.find s.tier.recs (line / 64) with | some r => r.mask.getLsbD (line % 64) | none => false

/-- An uncorrectable pool line is recovered: from the page's NAND copy where its bit is clear, from the twin while paired, else
poisoned. `v` is the line's latest value, which the twin's copy holds once the epoch open at detection is confirmed; `twin` what the
twin returned. -/
def State.recoverLine (s : State) (line : Nat) (v : Line) (twin : Option Line) (source ch rank : Nat) : State × DLine :=
  let e := s.pte (line / 64)
  match e.hasMedia && !s.charged line, NMap.find s.media.units e.media with
  | true, some u => (((s.intCount 4).raise 6 35).lastUe source 2 ch rank line, nth {} u.lines (line % 64))
  | _, _ =>
    if s.paired then (((s.intCount 5).raise 6 35).lastUe source 3 ch rank line, ⟨twin.getD v, false⟩)
    else (((s.intCount 6).raise 6 34).lastUe source 4 ch rank line, ⟨0, true⟩)

/-- A line of a page's frame is read with its check bits (R374, R375, R382): a corrected line is rewritten, an uncorrectable one
is taken from a valid cache way or recovered. -/
def State.dramRead (s : State) (line : Nat) (ecc : Ecc) (twin : Option Line) : State × DLine :=
  let e := s.pte (line / 64)
  let j := line % 64
  let v := s.dramLine e.ch e.idx j
  let r := s.rankOf e.ch e.idx
  if v.poison then (s, v)
  else match s.eccAt (4 * dramKey e.ch e.idx j) (eccResolve (s.dramAddr e.ch e.idx j) (s.dramAddr e.ch) ecc) with
    | .good => (s, v)
    | .otherLine f l => (s, s.dramLine e.ch f l)
    | .corrected d =>
      let s := s.ceSeen e.ch r
      let s := match d with | some d => s.attribute e.ch r (j % 2) d | none => s
      (s.setDram e.ch e.idx j v, v)
    | .uncorrectable =>
      let s := (((s.intCount 2).raise 6 33).ueSeen e.ch r)
      let way := match s.findWay line with | some (_, x) => if x.st == WaySt.filling then none else some x | none => none
      let (s, w) := match way with
        | some x => ((s.intCount 3).lastUe 2 1 e.ch r line, (⟨x.data, x.poison⟩ : DLine))
        | none => s.recoverLine line v.data twin 2 e.ch r
      (s.setDram e.ch e.idx j w, w)

/-- A line of a page's frame that two deliveries of the fabric in a row brought poisoned is handled as one found uncorrectable where it
lies (R20, R375): from a valid cache way, else recovered. -/
def State.flitLost (s : State) (line : Nat) (twin : Option Line) : State × DLine :=
  let e := s.pte (line / 64)
  let j := line % 64
  let v := s.dramLine e.ch e.idx j
  if v.poison then (s, v)
  else
    let (s, w) := s.recoverLine line v.data twin 3 0 0
    (s.setDram e.ch e.idx j w, w)

/-- Poisoned deliveries of a transfer are counted by leaf switch (R20, R461; the event has no code in the catalogue, log 201). -/
def State.flitsCount (s : State) (flits : List Nat) : State := flits.foldl (fun s l => s.pmuCount 0xF0 0x0F l 0) s

/-- Places of a page's ways. -/
def State.pageWaysOf (s : State) (p : Nat) : List Nat := (s.cache.ways.filter (fun e => e.2.key / 64 == p)).map Prod.fst

/-- The new frame of a page whose entry was rebuilt (R375, R376): charged lines recovered from the twin, or poisoned, the others from the
page's NAND copy; the old frame stays unused. With no frame free the old one serves on. -/
def State.rebuildPage (s : State) (p : Nat) (mask : Word64) : State :=
  let e := s.pte p
  let old (j : Nat) : DLine := s.dramLine e.ch e.idx j
  let nand (j : Nat) : DLine := if e.hasMedia then (match NMap.find s.media.units e.media with | some u => nth {} u.lines j | none => {}) else {}
  let js := (List.range 64).filter (fun j => mask.getLsbD j)
  let both := s.paired
  let s := js.foldl (fun s _ => if both then s.intCount 5 else (s.intCount 6).raise 6 34) s
  let value (j : Nat) : DLine := if mask.getLsbD j then (if both then ⟨(old j).data, false⟩ else ⟨0, true⟩) else nand j
  match s.takeFrame p with
  | some (c, i, s) => (s.fillFrame c i 4 value).setPte p { s.pte p with ch := c, idx := i }
  | none => js.foldl (fun s j => s.setDram e.ch e.idx j (value j)) s

/-- Four page-table entries are rebuilt from the checkpoint and the journal (R375): a page without charged lines becomes MEDIA or
ZERO and its old frame stays unused; charged lines are recovered from the twin, or poisoned. A demotion in progress is over. -/
def State.rebuildEntries (s : State) (m : Nat) : State :=
  (List.range 4).foldl (fun (s : State) i =>
    let p := 4 * m + i
    let e := s.pte p
    if !(e.st == .resident || e.st == .demoting) then s
    else
      let s : State := { s with tier := { s.tier with
        destages := NMap.erase s.tier.destages p, destageWait := NMap.erase s.tier.destageWait p, demoteWait := s.tier.demoteWait.filter (· != p) } }
      match NMap.find s.tier.recs p with
      | none =>
        let s := s.addT1 e.tenant 0 1
        let s : State := (s.pageWaysOf p).foldl (fun s k => s.invalidate k) s
        if e.hasMedia then s.setPte p { e with st := .media, ch := 0, idx := 0, dirty := false } else (s.addT2 e.tenant 0 1).setPte p {}
      | some r => (s.setPte p { e with st := .resident }).rebuildPage p r.mask) s

/-- A line of the tables' homes is lost (R375): its entry is that of the twin, which is the same, while paired, else that of the last state
image; which entry the line holds, nothing states. -/
def State.tableRestore (s : State) : State :=
  let s := s.raise 6 39
  match s.paired, s.dur.image with
  | false, some im =>
    let (k, s) := s.takeFree
    let n := Config.freeNat k
    let of (l : List Nat) : Nat := nth 0 l (n / 4 % max 1 l.length)
    match n % 4 with
    | 0 => let i := of (s.prot.keys.map Prod.fst); { s with prot := { s.prot with keys := NMap.put {} s.prot.keys i (NMap.getD im.keys i {}) } }
    | 1 => let i := of (s.prot.tenants.map Prod.fst); { s with prot := { s.prot with tenants := NMap.put {} s.prot.tenants i (NMap.getD im.tenants i {}) } }
    | 2 => let i := of (s.prot.regions.map Prod.fst); { s with prot := { s.prot with regions := NMap.put {} s.prot.regions i (NMap.getD im.regions i {}) } }
    | _ =>
      let i := of (s.chains.chains.map Prod.fst)
      { s with chains := { s.chains with chains := NMap.put (List.replicate 8 0) s.chains.chains i (NMap.getD im.chains i (List.replicate 8 0)) } }
  | _, _ => s

/-- The last 1 GiB of the system area holds the homes of tables, after the page table and the dirty-page records (R214). -/
def State.tableLine (s : State) (m : Nat) : Bool := decide (s.tier.poolRegions * 2 ^ 16 + 2 ^ 29 ≤ m)

/-- A page-table line's DRAM line is found uncorrectable: its four entries are rebuilt; one of a table's home is restored (R375). -/
def State.ptUe (s : State) (c r m : Nat) : State :=
  let s := ((s.intCount 2).raise 6 33).ueSeen c r
  if m < s.tier.poolRegions * 2 ^ 16 then (s.lastUe 2 7 c r 0).rebuildEntries m
  else if s.tableLine m then (s.lastUe 2 7 c r 0).tableRestore else s

/-- A page-table line is read from DRAM for a fill (R374, R375): its decode, and two poisoned deliveries by the fabric. -/
def State.ptRead (s : State) (m : Nat) (ecc : Ecc) (lost : Bool) : State :=
  let c := s.ptChannel m
  let f := (s.sysPlace (m / 64)).2
  let r := s.rankOf c f
  match s.eccAt (4 * dramKey c f (m % 64)) (eccResolve (s.dramAddr c f (m % 64)) (s.dramAddr c) ecc) with
  | .uncorrectable => s.ptUe c r m
  | .corrected d =>
    let s := s.ceSeen c r
    match d with | some d => s.attribute c r (m % 2) d | none => s
  | _ => if lost && decide (m < s.tier.poolRegions * 2 ^ 16) then (s.lastUe 3 7 0 0 0).rebuildEntries m else s

/-! ### Errors in a cache way (R375) -/

/-- A way found uncorrectable: a CLEAN one is dropped and refilled as a miss, an UNSEALED one restored from its staging record, a
DIRTY one recovered. -/
def State.wayUe (s : State) (line : Nat) : State :=
  match s.findWay line with
  | none => s
  | some (i, x) =>
    let s := (s.intCount 1).raise 6 32
    if x.poison then s
    else match x.st with
      | .clean => ((s.intCount 3).lastUe 1 1 0 0 line).invalidate i
      | .dirty =>
        if x.unsealed.isSome then (s.intCount 3).lastUe 1 1 0 0 line
        else
          let (s, w) := s.recoverLine line x.data none 1 0 0
          s.setWay i { x with data := w.data, poison := w.poison }
      | _ => s

/-- An access reaches a way with an injected error: a write of the whole line removes it, any other access decodes it. -/
def State.cacheError (s : State) (line : Nat) (full : Bool) : State :=
  match s.injKind (4 * line + 1) with
  | 1 => if full then s.injDrop (4 * line + 1) else (s.injDrop (4 * line + 1)).intCount 0
  | 2 => if full then s.injDrop (4 * line + 1) else (s.injDrop (4 * line + 1)).wayUe line
  | _ => s

end Sys2Proof.Machine
end

