-- ==== Sys2Proof/Machine/CphOps.lean ====
section
/-! DEFINITION. Cipher operations (16_cipher.md): AES-256 and AES-256-GCM as R387 and R398 name them, the key wrap of R395,
key slots, their records, and keys the device generates. Byte strings are lists, the first byte first. -/

namespace Sys2Proof.Machine

/-! ### AES-256 -/

/-- Doubling in GF(2^8). -/
def gfDouble (a : Byte) : Byte := (a <<< 1) ^^^ (if a.getLsbD 7 then 0x1B#8 else 0#8)

/-- Product in GF(2^8), over the bits of the second factor from k downwards. -/
def gfMulUp : Nat → Byte → Byte → Byte
  | 0, _, _ => 0
  | k + 1, a, b => gfDouble (gfMulUp k a (b >>> 1)) ^^^ (if b.getLsbD 0 then a else 0#8)

/-- Product in GF(2^8). -/
def gfMul (a b : Byte) : Byte := gfMulUp 8 a b

/-- Inverse in GF(2^8), 0 for 0: the 254th power. -/
def gfInv (a : Byte) : Byte :=
  let a2 := gfMul a a
  let a4 := gfMul a2 a2
  let a8 := gfMul a4 a4
  let a16 := gfMul a8 a8
  let a32 := gfMul a16 a16
  let a64 := gfMul a32 a32
  let a128 := gfMul a64 a64
  gfMul (gfMul (gfMul a2 a4) (gfMul a8 a16)) (gfMul (gfMul a32 a64) a128)

/-- The S-box: the inverse and the affine map. -/
def sboxOf (a : Byte) : Byte :=
  let b := gfInv a
  b ^^^ b.rotateLeft 1 ^^^ b.rotateLeft 2 ^^^ b.rotateLeft 3 ^^^ b.rotateLeft 4 ^^^ 0x63#8

/-- The S-box and its inverse as tables. -/
def sbox : List Byte := (List.range 256).map (fun i => sboxOf (BitVec.ofNat 8 i))
def sboxInv (a : Byte) : Byte := BitVec.ofNat 8 (sbox.idxOf a)

/-- XOR of byte strings. -/
def xorBytes (a b : List Byte) : List Byte := List.zipWith (· ^^^ ·) a b

/-- The S-box at each byte. -/
def subBytes (t : List Byte) (l : List Byte) : List Byte := l.map (fun b => nth 0 t b.toNat)

/-- Word i of the key schedule from the words before it, newest first. -/
def nextKeyWord (t : List Byte) (i : Nat) (ws : List (List Byte)) : List Byte :=
  let p := nth [] ws 0
  let x :=
    if i % 8 = 0 then
      xorBytes (subBytes t (p.drop 1 ++ p.take 1)) [Nat.repeat gfDouble (i / 8 - 1) 1#8, 0, 0, 0]
    else if i % 8 = 4 then subBytes t p else p
  xorBytes (nth [] ws 7) x

/-- The 15 round keys of a 32-byte key. -/
def roundKeys (key : List Byte) : List (List Byte) :=
  let w0 := (List.range 8).map (fun i => (key.drop (4 * i)).take 4)
  let ws := ((List.range 52).foldl (fun ws i => nextKeyWord sbox (i + 8) ws :: ws) w0.reverse).reverse
  (List.range 15).map (fun r => ((ws.drop (4 * r)).take 4).flatten)

/-- Rows shifted: byte i of the result stands at row i mod 4, column i / 4. -/
def shiftRows (l : List Byte) : List Byte := (List.range 16).map (fun i => nth 0 l ((i + 4 * (i % 4)) % 16))
def unshiftRows (l : List Byte) : List Byte := (List.range 16).map (fun i => nth 0 l ((i + 12 * (i % 4)) % 16))

/-- Columns multiplied by a circulant matrix whose first row is given. -/
def mixWith (m : List Byte) (l : List Byte) : List Byte :=
  (List.range 16).map (fun i =>
    (List.range 4).foldl (fun (a : Byte) j => a ^^^ gfMul (nth 0 m ((j + 4 - i % 4) % 4)) (nth 0 l (4 * (i / 4) + j))) 0)

/-- AES-256 of one block. -/
def aesEnc (key block : List Byte) : List Byte :=
  let ks := roundKeys key
  let x := (List.range 13).foldl (fun x r => xorBytes (mixWith [2, 3, 1, 1] (shiftRows (subBytes sbox x))) (nth [] ks (r + 1)))
    (xorBytes block (nth [] ks 0))
  xorBytes (shiftRows (subBytes sbox x)) (nth [] ks 14)

/-- The inverse of AES-256. -/
def aesDec (key block : List Byte) : List Byte :=
  let ks := roundKeys key
  let x := (unshiftRows (xorBytes block (nth [] ks 14))).map sboxInv
  let x := (List.range 13).foldl (fun x r => (unshiftRows (mixWith [14, 11, 13, 9] (xorBytes x (nth [] ks (13 - r))))).map sboxInv) x
  xorBytes x (nth [] ks 0)

/-! ### XTS-AES-256 (R389, R390) -/

/-- Product by x in the field of XTS, bit 0 the lowest. -/
def xtsDouble (t : BitVec 128) : BitVec 128 := (t <<< 1) ^^^ (if t.getLsbD 127 then 0x87#128 else 0)

/-- The mask of block j of a data unit under a tweak value, a 128-bit little-endian integer. -/
def xtsMask (key2 : List Byte) (tweak j : Nat) : List Byte :=
  toLe 16 (Nat.repeat xtsDouble j (BitVec.ofNat 128 (leNat (aesEnc key2 (toLe 16 tweak))))).toNat

/-- A data unit of whole blocks encrypted, or decrypted where `f` is the inverse cipher. -/
def xts (f : List Byte → List Byte → List Byte) (key1 key2 : List Byte) (tweak : Nat) (data : List Byte) : List Byte :=
  (List.range (data.length / 16)).flatMap (fun j =>
    let m := xtsMask key2 tweak j
    xorBytes (f key1 (xorBytes ((data.drop (16 * j)).take 16) m)) m)

/-- Tweak value of a NAND unit: its pool page (R389). -/
def pageTweak (p : Nat) : Nat := p

/-- Tweak value of a flush unit: J of FLUSH_BEGIN and the flush sequence number S (R390). -/
def flushTweak (j n : Nat) : Nat := 2 ^ 127 + j % 2 ^ 63 * 2 ^ 64 + n

/-! ### Key wrap (RFC 3394, R395) -/

/-- One step of unwrapping: A and the n registers, at step t. -/
def unwrapStep (kek : List Byte) (n : Nat) (st : List Byte × List (List Byte)) (t : Nat) : List Byte × List (List Byte) :=
  let i := (t - 1) % n
  let b := aesDec kek (xorBytes st.1 (toBe 8 t) ++ nth [] st.2 i)
  (b.take 8, st.2.set i (b.drop 8))

/-- The key a wrapped string holds: none where the integrity value does not result. -/
def unwrap (kek data : List Byte) : Option (List Byte) :=
  let n := data.length / 8 - 1
  let rs := (List.range n).map (fun i => (data.drop (8 * (i + 1))).take 8)
  let (a, r) := (List.range (6 * n)).foldl (fun st j => unwrapStep kek n st (6 * n - j)) (data.take 8, rs)
  if a == List.replicate 8 0xA6#8 then some r.flatten else none

/-! ### GCM (R398) -/

/-- One step of the product in GF(2^128): Z and V, with the next bit of X. -/
def ghashBit (zv : BitVec 128 × BitVec 128) (x : Bool) : BitVec 128 × BitVec 128 :=
  (if x then zv.1 ^^^ zv.2 else zv.1, (zv.2 >>> 1) ^^^ (if zv.2.getLsbD 0 then BitVec.ofNat 128 (0xE1 * 2 ^ 120) else 0))

/-- Product in GF(2^128), bit 0 the most significant. -/
def ghashMul (x h : BitVec 128) : BitVec 128 := ((List.range 128).foldl (fun zv i => ghashBit zv (x.getLsbD (127 - i))) (0, h)).1

/-- A string filled up with zeros to whole blocks. -/
def padTo16 (l : List Byte) : List Byte := l ++ List.replicate ((16 - l.length % 16) % 16) (0 : Byte)

/-- GHASH under a hash key. -/
def ghash (h : BitVec 128) (data : List Byte) : BitVec 128 :=
  (List.range (data.length / 16)).foldl (fun y i => ghashMul (y ^^^ BitVec.ofNat 128 (beNat ((data.drop (16 * i)).take 16))) h) 0

/-- The key stream block of a counter value under an IV of 12 bytes. -/
def gcmBlock (key iv : List Byte) (n : Nat) : List Byte := aesEnc key (iv ++ toBe 4 n)

/-- Encryption, which is decryption too. -/
def gcmCtr (key iv data : List Byte) : List Byte :=
  (List.range (divUp data.length 16)).flatMap (fun i => xorBytes ((data.drop (16 * i)).take 16) (gcmBlock key iv (i + 2)))

/-- The tag over additional data and ciphertext. -/
def gcmTag (key iv aad ct : List Byte) : List Byte :=
  let h := BitVec.ofNat 128 (beNat (aesEnc key (List.replicate 16 0)))
  let y := ghash h (padTo16 aad ++ padTo16 ct ++ toBe 8 (8 * aad.length) ++ toBe 8 (8 * ct.length))
  xorBytes (toBe 16 y.toNat) (gcmBlock key iv 1)

/-! ### Sealed objects (R398 to R400) -/

/-- The IV of a seal: the device's serial, the slot and the invocation counter. -/
def sealIv (slot n : Nat) : List Byte := toLe 6 Config.serial.toNat ++ toLe 2 slot ++ toLe 4 n

/-- The padded plaintext: one byte 0x80 and zeros, up to a multiple of 64. -/
def sealPad (p : List Byte) : List Byte :=
  p ++ [0x80#8] ++ List.replicate (64 * (p.length / 64 + 1) - p.length - 1) (0 : Byte)

/-- The header of an object. -/
def sealHead (slot plen n : Nat) (context : Nat) : List Byte :=
  toLe 2 0x4F01 ++ [BitVec.ofNat 8 slot, 0] ++ toLe 4 plen ++ sealIv slot n ++ List.replicate 4 (0 : Byte) ++ toLe 8 context ++ List.replicate 32 (0 : Byte)

/-- The object of a plaintext. -/
def sealObject (key : List Byte) (slot n context : Nat) (p : List Byte) : List Byte :=
  let x := sealPad p
  let head := sealHead slot x.length n context
  let ct := gcmCtr key (sealIv slot n) x
  head ++ ct ++ gcmTag key (sealIv slot n) head ct ++ List.replicate 48 (0 : Byte)

/-- Position of the last byte that is not 0, counted from the end: the zeros that follow it. -/
def trailingZeros (p : List Byte) : Nat := (p.reverse.takeWhile (fun b => b == 0)).length

/-- An object opened: the plaintext, or 0x46 (TAG_FAIL) or 0x47 (PAD_ERR). -/
def unsealObject (key : List Byte) (slot context : Nat) (o : List Byte) : Except Nat (List Byte) :=
  let at_ (a n : Nat) : List Byte := (o.drop a).take n
  let z (l : List Byte) : Bool := l.all (fun b => b == 0)
  let plen := leNat (at_ 4 4)
  if leNat (at_ 0 2) != 0x4F01 || plen + 128 != o.length || plen % 64 != 0 || plen == 0 || leNat (at_ 2 2) != slot
      || !z (at_ 20 4) || !z (at_ 32 32) || !z (at_ (80 + plen) 48) then .error 0x46
  else
    let iv := at_ 8 12
    let head := at_ 0 24 ++ toLe 8 context ++ at_ 32 32
    let ct := at_ 64 plen
    if gcmTag key iv head ct != at_ (64 + plen) 16 then .error 0x46
    else
      let x := gcmCtr key iv ct
      let n := trailingZeros x
      if 64 ≤ n || nth 0 x (plen - 1 - n) != 0x80#8 then .error 0x47 else .ok (x.take (plen - 1 - n))

/-! ### Key slots (R392 to R397) -/

/-- A key slot. -/
def State.keySlot (s : State) (n : Nat) : KeySlot := NMap.getD s.cph.slots n {}

/-- Writes a slot and its boot store record (R394). -/
def State.setKeySlot (s : State) (n : Nat) (k : KeySlot) : State := { s with cph := { s.cph with slots := NMap.put {} s.cph.slots n k } }

/-- TYPE of a slot: KEK 1, GCM256 2, XTS512 3. -/
def slotType (n : Nat) : Nat := if n = 0 then 1 else if n < 4 then 2 else 3

/-- A key as bytes, and bytes as a key. -/
def keyBytes (k : BitVec 256) : List Byte := toBe 32 k.toNat
def keyOfBytes (l : List Byte) : BitVec 256 := BitVec.ofNat 256 (beNat l)

/-- Lines of a data unit under the key pair of a tenant's slot (R389, R390): `f` the cipher or its inverse. -/
def State.xtsLines (s : State) (f : List Byte → List Byte → List Byte) (t tweak : Nat) (ls : List Line) : List Line :=
  let k := s.keySlot (4 + t)
  let out := xts f (keyBytes k.key) (keyBytes k.key2) tweak (ls.flatMap (fun l => lineGet l 0 64))
  (List.range ls.length).map (fun i => BitVec.ofNat 512 (leNat ((out.drop (64 * i)).take 64)))

/-- What NAND holds of a unit (R267, R389): its 64 lines under its page tenant's key. -/
def State.unitCipher (s : State) (u : MUnit) : List Line := s.xtsLines aesEnc u.tenant (pageTweak u.page) (u.lines.map (fun l => l.data))

/-- KCV (R392): the first three bytes of AES-256(K, 0), the first one lowest; 0 while EMPTY. -/
def KeySlot.kcv (k : KeySlot) : Nat := if k.st = 0 then 0 else leNat ((aesEnc (keyBytes k.key) (List.replicate 16 0)).take 3)

/-- KEY_SLOTS entry of a slot (R392). -/
def State.slotWords (s : State) (n : Nat) : List Word64 :=
  let k := s.keySlot n
  let iv := if n = 2 ∨ n = 3 then min k.ivNext 0xFFFFFFFF else 0
  [BitVec.ofNat 64 (k.st + slotType n * 16 + k.kcv * 2 ^ 8 + k.loads * 2 ^ 32), BitVec.ofNat 64 iv]

/-- Cipher counter k (R403). -/
def State.cphCount (s : State) (k : Nat) (n : Nat := 1) : State := s.inc CPH_COUNTER_COUNT n 0 (8 * k)

/-- A slot gets a fresh key of the device (R391, R396, R398). Its invocation counter starts again. -/
def State.deviceKey (s : State) (n : Nat) : State :=
  let (a, s) := s.takeFree
  let (b, s) := s.takeFree
  (s.setKeySlot n { s.keySlot n with st := 1, key := Config.freeKey a, key2 := if 4 ≤ n then Config.freeKey b else 0, ivNext := 0, ivRec := 0 }).raise 6 3

/-- An EMPTY slot that the U96 fills itself (R391, R396). -/
def State.fillSlot (s : State) (n : Nat) : State := if (s.keySlot n).st = 0 then s.deviceKey n else s

/-- A seal under a slot takes its invocation counter (R398): a value that opens a block of 65,536 is recorded first; the
warning; at WARN slot 2 gets a fresh key. -/
def State.takeIv (s : State) (n : Nat) : Nat × State :=
  let k := s.keySlot n
  let c := k.ivNext
  let k := { k with ivNext := c + 1, ivRec := if c % 65536 = 0 then c + 65536 else k.ivRec }
  let s := s.setKeySlot n k
  let s := if c + 1 = s.rd CPH_IV_CFG_WARN then (s.raise 6 5) else s
  (c, if n = 2 && c + 1 == s.rd CPH_IV_CFG_WARN then s.deviceKey 2 else s)

/-- Firmware seals objects of its own under slot 2 (R401, R412): how many they are spec/ does not state. -/
def State.selfSeal (s : State) : State :=
  let (k, s) := s.takeFree
  let n := Config.freeNat k
  let x := s.keySlot 2
  let c := x.ivNext + n
  let w := s.rd CPH_IV_CFG_WARN
  let s := (s.setKeySlot 2 { x with ivNext := c, ivRec := max x.ivRec (divUp c 65536 * 65536) }).cphCount 2 n
  if x.ivNext < w && decide (w ≤ c) then (s.raise 6 5).deviceKey 2 else s

/-- Registers whose settings are saved by themselves: hold-up, derating, pair-wide settings, pool size, fill mode. -/
def autoKeys : List Nat :=
  [regKey 1 0x200, regKey 1 0x208, regKey 1 0x210, regKey 0xA 0x100, regKey 0xB 0x140, regKey 0xB 0x148, regKey 0xB 0x150, regKey 0xB 0x158, regKey 6 0x800]

/-- Saves the settings that are saved by themselves. -/
def State.autoSave (s : State) : State :=
  let s := s.selfSeal
  { s with boot := { s.boot with auto := autoKeys.foldl (fun m k => NMap.insert m k (s.reg k)) s.boot.auto } }

end Sys2Proof.Machine
end

