-- ==== Sys2Proof/Machine/NandOps.lean ====
section
/-! DEFINITION. Places on NAND, what is kept of superblocks and dies, and the suspension of a program or an erase by a fetch (R266,
R268, R282, R294, R297, R298). -/

namespace Sys2Proof.Machine

/-- MED counter k (R294). -/
def State.medCount (s : State) (k : Nat) (n : Nat := 1) : State := s.inc MED_COUNTER_COUNT n 0 (8 * k)
/-- NCH counter k of a channel (R298). -/
def State.nchCount (s : State) (c k : Nat) (n : Nat := 1) : State := s.inc NCH_COUNTER_COUNT n c (8 * k)


/-- MEDIA_ADDR of a unit (R266). -/
def mediaAddr (ch die plane block page unit : Nat) : Nat :=
  ch * 2 ^ 35 + die * 2 ^ 31 + plane * 2 ^ 29 + block * 2 ^ 14 + page * 8 + unit
def addrCh (a : Nat) : Nat := (a / 2 ^ 35) % 32
def addrDie (a : Nat) : Nat := (a / 2 ^ 31) % 16
def addrPlane (a : Nat) : Nat := (a / 2 ^ 29) % 4
def addrBlock (a : Nat) : Nat := (a / 2 ^ 14) % 32768
/-- Number of the block a unit lies in, over all dies and planes. -/
def addrBlk (a : Nat) : Nat := a / 2 ^ 14
/-- Key of superblock (g, k). -/
def sbKey (g k : Nat) : Nat := g * 32768 + k
/-- Superblock of a unit (R268): its die position and block. -/
def addrSb (a : Nat) : Nat := sbKey (addrDie a) (addrBlock a)

/-- A superblock's record. -/
def State.sb (s : State) (k : Nat) : Sb := NMap.getD s.media.sbs k {}
/-- Writes it. -/
def State.setSb (s : State) (k : Nat) (v : Sb) : State := { s with media := { s.media with sbs := NMap.put {} s.media.sbs k v } }
/-- Statistics of a die. -/
def State.stat (s : State) (c d : Nat) : DieStat := NMap.getD s.media.stats (16 * c + d) {}
/-- Changes them. -/
def State.modStat (s : State) (c d : Nat) (f : DieStat → DieStat) : State :=
  { s with media := { s.media with stats := NMap.put {} s.media.stats (16 * c + d) (f (s.stat c d)) } }

/-! ### Suspension (R282) -/

/-- The program a die runs: of those queued on it the one that has begun. -/
def State.runningProg (s : State) (c d : Nat) : Option (Nat × Prog) :=
  s.media.progs.find? (fun e => addrCh e.1 == c && addrDie e.1 == d && e.2.began.isSome)

/-- The superblock a die erases. -/
def State.runningErase (s : State) (d : Nat) : Option (Nat × Sb) := s.media.sbs.find? (fun e => e.1 / 32768 == d && e.2.st == 4)

/-- Writes a program in flight. -/
def State.setProg (s : State) (a : Nat) (p : Prog) : State := { s with media := { s.media with progs := NMap.insert s.media.progs a p } }

/-- A die that programs or erases may be suspended now (R282): SUSPEND.EN, MIN_US of running (log 197), fewer suspensions than the
limit; never a flush program. Gives the state with the operation suspended once more. -/
def State.suspendOp (s : State) (c d : Nat) : Option State :=
  let old (began idle : Nat) : Bool := decide (us (s.rd MED_SUSPEND_MIN_US) ≤ s.mono - began - idle)
  if s.rd MED_SUSPEND_EN = 0 then none
  else match s.runningProg c d, s.runningErase d with
    | some (a, p), _ =>
      if p.stream != 3 && old (p.began.getD s.mono) p.idle && decide (p.susp < s.rd MED_SUSPEND_MAX_PROG) then
        some (s.setProg a { p with susp := p.susp + 1 })
      else none
    | none, some (k, x) =>
      if old x.eraseAt (NMap.getD x.idle c 0) && decide (NMap.getD x.susp c 0 < s.rd MED_SUSPEND_MAX_ERASE) then
        some (s.setSb k { x with susp := NMap.insert x.susp c (NMap.getD x.susp c 0 + 1) })
      else none
    | none, none => none

/-- The read of a fetch reaches its die (R282): it joins the reads of a suspension, up to 8, or suspends what the die does. -/
def State.suspendFor (s : State) (a : Nat) : State :=
  let c := addrCh a
  let d := addrDie a
  let k := 16 * c + d
  match NMap.find s.media.suspended k with
  | some v =>
    if 8 ≤ v.reads then s else { s with media := { s.media with suspended := NMap.insert s.media.suspended k { v with reads := v.reads + 1 } } }
  | none =>
    match s.suspendOp c d with
    | some s =>
      let s := (s.medCount 11).modStat c d (fun x => { x with suspends := x.suspends + 1 })
      { s with media := { s.media with suspended := NMap.insert s.media.suspended k ⟨1, 0, s.mono⟩ } }
    | none => s

/-- The time an operation stood suspended does not count as run (log 197). -/
def State.resume (s : State) (c d : Nat) (v : Suspension) : State :=
  let s : State := { s with media := { s.media with suspended := NMap.erase s.media.suspended (16 * c + d) } }
  let t := s.mono - v.since
  match s.runningProg c d, s.runningErase d with
  | some (a, p), _ => s.setProg a { p with idle := p.idle + t }
  | none, some (k, x) => s.setSb k { x with idle := NMap.insert x.idle c (NMap.getD x.idle c 0 + t) }
  | none, none => s

/-- The read of a fetch has ended: with the last read of a suspension the operation resumes (R282). -/
def State.fetchRead (s : State) (a : Nat) : State :=
  let k := 16 * addrCh a + addrDie a
  match NMap.find s.media.suspended k with
  | some v =>
    if v.reads ≤ v.done + 1 then s.resume (addrCh a) (addrDie a) v
    else { s with media := { s.media with suspended := NMap.insert s.media.suspended k { v with done := v.done + 1 } } }
  | none => s

end Sys2Proof.Machine
end

