-- ==== Sys2Proof/Machine/DataPath.lean ====
section
/-! DEFINITION. The path of one line access: its page-table line, its page, the cache, the flue, the miss registers or the
bypass path, and what is charged and staged when a write is placed (R21 to R23, R98 to R108, R155, R157, R217, R222,
R226, R230). An access that cannot go on waits in `parked`, in order of arrival, and is tried again by `pump`. -/

namespace Sys2Proof.Machine

/-- Stall cause of R226 that a wait counts under. -/
def Wait.stall : Wait → Option Nat
  | .fetch => some 0 | .frame => some 1 | .t1Quota => some 2 | .mediaStaging => some 3 | .chanCap => some 4 | .secFull => some 5
  | .ptFill => some 6 | .moving => some 7 | .region => some 8 | .srWake => some 9 | .applyFetch => some 10 | .fetchRecover => some 11
  | _ => none

/-- Counts a stall's start (R226). -/
def State.stallStart (s : State) (w : Wait) (tenant : Nat) : State :=
  match w.stall with
  | some k => (s.inc TIR_STALL_COUNT_COUNT 1 0 (8 * k)).pmuCount 0x0A k 0 tenant
  | none => s

/-- Adds a stall's duration at its end (R226). -/
def State.stallEnd (s : State) (w : Wait) (since : Nat) : State :=
  match w.stall with
  | some k => s.inc TIR_STALL_NS_COUNT (s.mono - since) 0 (8 * k)
  | none => s

/-- What an access does to a line's value: the new value and poison, and what it returns; none where the data is
uncorrectable for it (R166): a read or an atomic of a poisoned line, a write of part of one. A write of all 64 bytes
clears the poison. -/
def accOn (l : Line) (p : Bool) : AccKind → Line × Bool × Option (Line × Word64)
  | .read => (l, p, if p then none else some (l, 0))
  | .write off bs =>
    if off = 0 ∧ bs.length = 64 then (linePut l 0 bs, false, some (l, 0))
    else if p then (l, p, none) else (linePut l off bs, false, some (l, 0))
  | .cas off c w =>
    if p then (l, p, none)
    else
      let o := lineWord l off
      (if o = c then linePut l off (toLe 8 w.toNat) else l, false, some (l, o))
  | .poison => (0, true, some (l, 0))
  | .fadd off a =>
    if p then (l, p, none)
    else
      let o := lineWord l off
      (linePut l off (toLe 8 (o + a).toNat), false, some (l, o))

/-- The access writes. -/
def AccKind.writes : AccKind → Bool
  | .read => false
  | _ => true

/-- The access covers its whole line (R98). -/
def AccKind.full : AccKind → Bool
  | .write off bs => off == 0 && bs.length == 64
  | .poison => true
  | _ => false

/-- Later of two optional epochs. -/
def maxEp (a b : Option Nat) : Option Nat :=
  match a, b with
  | some x, some y => some (max x y)
  | some x, none => some x
  | none, y => y

/-- An access is done: its operation keeps what it returned, and the epoch its answer must wait for. A write that is not
applied gives its reservation back. -/
def State.accDone (s : State) (a : Acc) (r : Option (Line × Word64)) (ep : Option Nat) : State :=
  let s := s.stallEnd a.wait a.since
  let s := if r.isNone && a.kind.writes && a.demand then s.unreserve a.tenant (s.accReserved a) else s
  s.modOp a.op (fun o =>
    let o := { o with left := o.left - 1, epoch := maxEp o.epoch ep, placed := o.left ≤ 1 }
    match r with
    | some (l, w) => { o with got := NMap.insert o.got a.line l, result := if a.kind.writes then w else o.result }
    | none => { o with bad := o.bad ++ [a.line] })

/-- The epoch whose seal a reader of a line waits for: that of an unsealed M write in its way, or held on the bypass
path, or of a discard of its page (R23, R103, R108, R236). -/
def State.unsealedAt (s : State) (line : Nat) : Option Nat :=
  let w := match s.findWay line with | some (_, x) => x.unsealed | none => none
  let h := (s.cache.held.filter (fun h => h.line == line)).foldl (fun e h => maxEp e (some h.epoch)) none
  let d := (s.tier.discards.filter (fun d => d.1 == line / 64)).foldl (fun e d => maxEp e (some d.2)) none
  maxEp w (maxEp h d)

/-- The host QP of an operation keeps the latest epoch that a line it wrote waits for (R156). -/
def State.noteUnsealed (s : State) (op : Nat) (ep : Option Nat) : State :=
  match s.op? op, ep with
  | some { for_ := .host n, .. }, some _ =>
    let q := NMap.getD s.qps n {}
    { s with qps := NMap.put {} s.qps n { q with unsealedTo := maxEp q.unsealedTo ep } }
  | _, _ => s

/-- Everything a placed write of an owned line does beside the line itself: charge, release of its reservation, the LINE
record of the epoch, the change map (R153, R157, R230, R350, R360). Gives the epoch that holds the change. -/
def State.placed (s : State) (a : Acc) (l : Line) (p : Bool) : State :=
  let s := s.charge a.line a.tenant
  let s := if a.demand then s.unreserve a.tenant (s.accReserved a) else s
  let s := s.stage (.line a.tenant a.line p l)
  s.markChange (a.line * 64)

/-- Copies the pinned line of a way into a cell for every frame that holds it in its gather list, before a write is applied (R75): a
cell charged to the frame's port and priority. -/
def State.copyOnWrite (s : State) (i : Nat) (x : Way) : State :=
  if x.pins = 0 then s
  else
    let fix (f : TxFrame) : TxFrame :=
      if f.pins.contains i then { f with pins := f.pins.filter (· != i), cells := f.cells + 1 } else f
    let cost := (s.ports.map (fun e =>
      ((e.2.cur.toList ++ e.2.txq).filter (fun f => f.pins.contains i)).map (fun f => (e.1, f.prio)))).flatten
    let s := { s with ports := s.ports.map (fun (e : Nat × Port) =>
      (e.1, { e.2 with cur := e.2.cur.map fix, txq := e.2.txq.map fix })) }
    (cost.foldl (fun s c => s.addCells c.1 c.2 1) s).satInc HTH_COPIES_COW 1

/-- An access reaches a valid way. -/
def State.hit (s : State) (i : Nat) (x : Way) (a : Acc) (touches : Bool) : State :=
  let s := (if touches then s.touch i else s).askWay .lookup i
  let (l, p, r) := accOn x.data x.poison a.kind
  if a.kind.writes && r.isSome then
    let s := s.copyOnWrite i x
    let ep := s.openSlot.map (fun e => e.n)
    let m := a.cls == 0
    let u := if m then maxEp x.unsealed ep else x.unsealed
    let s := s.setWay i { x with st := .dirty, data := l, poison := p, unsealed := u, pins := 0 }
    let s := (s.placed a l p).noteUnsealed a.op u
    s.accDone a r (if m then ep else none)
  else
    s.accDone a r x.unsealed

/-- A free miss register for a tenant and channel (R100): whether one may be taken, else why not. -/
def State.mshrRoom (s : State) (t ch : Nat) : Option Wait :=
  let n := s.cache.mshrs.length
  let rsv := if t = 0 then 0 else s.rd HCA_MSHR_CFG_RSV_T0
  if 16384 ≤ n + rsv then some .mshr
  else if s.chanSt ch = 5 then some .srWake
  else if s.rd HCA_MSHR_CFG_CHAN_CAP ≤ (s.cache.mshrs.filter (fun m => m.channel == ch)).length then some .chanCap
  else none

/-- A channel in self-refresh is woken by a request that waits for it (R251). -/
def State.srWake (s : State) (c : Nat) : State :=
  if s.chanSt c = 5 && !(s.chan c).srWanted then (s.modChan c (fun x => { x with srWanted := true })).dchCount c 9 else s

/-- Takes a miss register. A channel that reaches its cap raises CHAN_CAP_HIT. -/
def State.takeMshr (s : State) (m : Mshr) : State :=
  let s := { s with cache := { s.cache with mshrs := s.cache.mshrs ++ [m] } }
  let s := s.lineReq m.key m.channel false 0
  let n := (s.cache.mshrs.filter (fun x => x.channel == m.channel)).length
  (s.raiseIf (n == s.rd HCA_MSHR_CFG_CHAN_CAP) 9 5).mshrPeak

/-- Outcome of trying an access: done, waiting for a cause with what of it is settled, or taken by a miss register. -/
inductive Tried where
  | done (s : State)
  | wait (w : Wait) (a : Acc) (s : State)
  | merged (s : State)

/-- A FRAME stall raises FRAMES_OUT, a quota stall T1_QUOTA_WAIT after 1 ms without one (R239). -/
def State.stallEvents (s : State) (w : Wait) : State :=
  match w with
  | .frame => s.raise 0xA 3
  | .t1Quota =>
    let quiet := match s.tier.lastT1 with | none => true | some t => decide (ms 1 ≤ s.mono - t)
    let s := s.raiseIf quiet 0xA 7
    { s with tier := { s.tier with lastT1 := some s.mono } }
  | _ => s

/-- Side counters of a new wait: SET_FULL, SEC_FULL, CHAN_CAP, FULL_WAITS and their events (R97, R99 to R101, R114). -/
def State.waitCounters (s : State) (w : Wait) : State :=
  match w with
  | .set _ => s.satInc HCA_WAITS_SET_FULL 1
  | .secFull => s.satInc HCA_WAITS_SEC_FULL 1
  | .chanCap => s.satInc HCA_WAITS_CHAN_CAP 1
  | .flue => (s.satInc HCA_FLUE_STAT_FULL_WAITS 1).raise 9 3
  | _ => s

/-- A wait of an access begins: its stall, counters and events, its cause in the sample of its message (R226, R466). -/
def State.waitBegins (s : State) (a : Acc) (w : Wait) : State :=
  let s := ((s.stallStart w a.tenant).waitCounters w).stallEvents w
  let s : State := match w.stall, s.op? a.op with
    | some k, some o => match o.for_ with | .host n => s.smpStall n o.psn k | _ => s
    | _, _ => s
  if w = .srWake then (s.srWake (s.pte (a.line / 64)).ch).srWake (s.ptChannel (a.line / 64 / 4)) else s

/-- A lookup finds its line: in a valid way, or in the flue of an enabled cache, whose line is reinstated (HCA.HITS). -/
def State.lookupHits (s : State) (k : Nat) : Bool :=
  match s.findWay k with
  | some (_, x) => x.st != .filling
  | none => s.cacheOn && s.cache.flue.any (fun f => f.key == k)

/-- A lookup counts a hit or a miss (HCA.HITS, HCA.MISSES). -/
def State.countLookup (s : State) (k tenant : Nat) : State :=
  if s.lookupHits k then (s.inc HCA_HITS_COUNT).pmuCount 9 0 0 tenant else (s.inc HCA_MISSES_COUNT).pmuCount 9 1 0 tenant

/-- An access joins the miss register of a line as a secondary, or finds 8 of them (R99). -/
def State.mergeAcc (s : State) (k : Nat) (a : Acc) (w : Wait) : Tried :=
  if s.cache.mshrs.any (fun m => m.key == k && decide (9 ≤ m.accs.length)) then .wait .secFull a s
  else
    let s := if w = .mshr then s else s.waitBegins a w
    .merged { s with cache := { s.cache with mshrs := s.cache.mshrs.map (fun m =>
      if m.key = k then { m with accs := m.accs ++ [{ a with wait := w, since := s.mono }] } else m) } }

/-- A miss takes a register for a key, whose way has been chosen, with the access as its primary (R98, R99). -/
def State.missTake (s : State) (k tenant ch : Nat) (way : Option Nat) (a : Acc) (w : Wait) : Tried :=
  let s := if w = .mshr then s else s.waitBegins a w
  .merged (s.takeMshr ⟨k, tenant, ch, way, [{ a with wait := w, since := s.mono }]⟩)

/-- The page-table line of a page must be held, or be read (R21 step 4, R94, R226 PT_FILL). On the bypass path it is read
from DRAM each time (R108). Gives the access with what of the lookup is settled. -/
def State.ptLookup (s : State) (a : Acc) : Option Tried × State × Acc :=
  if a.ptOk then (none, s, a)
  else
    let m := a.line / 64 / 4
    let k := ptKey m
    let s := if a.ptCounted then s else s.countLookup k a.tenant
    let a := { a with ptCounted := true }
    let ok := { a with ptOk := true }
    match s.findWay k with
    | some (i, x) =>
      if x.st == .filling then (some (s.mergeAcc k a .ptFill), s, a)
      else (none, if a.demand then s.touch i else s, ok)
    | none =>
      if s.cache.mshrs.any (fun r => r.key == k) then (some (s.mergeAcc k a .ptFill), s, a)
      else if s.cacheOn && s.cache.flue.any (fun f => f.key == k) then
        match s.alloc k 0 with
        | .way i s => (none, (((s.reinstate k).setWay i { st := .dirty, key := k, owner := 0 }).touch i), ok)
        | .bypass => (none, s, ok)
        | .waitSet n => (some (.wait (.set n) a s), s, a)
        | .waitFlue => (some (.wait .flue a s), s, a)
      else
        let ch := s.ptChannel m
        match s.mshrRoom 0 ch with
        | some w => (some (.wait w a s), s, a)
        | none =>
          if s.cacheOn then
            match s.alloc k 0 with
            | .way i s => (some ((s.setWay i { st := .filling, key := k, owner := 0 }).missTake k 0 ch (some i) a .ptFill), s, a)
            | .bypass => (some ((s.quotaBypass 0).missTake k 0 ch none a .ptFill), s, a)
            | .waitSet n => (some (.wait (.set n) a s), s, a)
            | .waitFlue => (some (.wait .flue a s), s, a)
          else (some (s.missTake k 0 ch none a .ptFill), s, a)

/-- A page leaves ZERO for a tenant: that of its region, or of the key in a SHARED region (R218). -/
def State.pageTenant (s : State) (p t : Nat) : Nat :=
  let r := s.region (regionOf (p * 4096))
  if r.shared then t else r.tenant

/-- Pages in media staging: those being fetched that hold space of it and the units being programmed (R90). -/
def State.stagingUsed (s : State) : Nat :=
  (s.tier.pt.filter (fun e => e.2.st == .fetching && !s.tier.stagingWait.any (fun w => w.1 == e.1))).length + s.media.progs.length

/-- Media staging is full: PART_MEDIA holds no further page (R90, R226). -/
def State.stagingFull (s : State) : Bool := decide (s.hearth.layout.media * 256 ≤ s.stagingUsed)

/-- A page begins to wait for media staging (R222 step 2, R90): stall MEDIA_STAGING. -/
def State.stagingBegins (s : State) (p : Nat) : State :=
  if s.tier.stagingWait.any (fun w => w.1 == p) then s
  else
    let s := s.stallStart .mediaStaging (s.pte p).tenant
    { s with tier := { s.tier with stagingWait := s.tier.stagingWait ++ [(p, s.mono)] } }

/-- A page's wait for media staging is over (R226). -/
def State.stagingEnds (s : State) (p : Nat) : State :=
  match s.tier.stagingWait.find? (fun w => w.1 == p) with
  | some w =>
    let s := s.stallEnd .mediaStaging w.2
    { s with tier := { s.tier with stagingWait := s.tier.stagingWait.filter (fun w => w.1 != p) } }
  | none => s

/-- Starts the fetch of a MEDIA page (R222, step 1): tenant's tier-1 quota, a frame, FETCHING; step 2 waits for staging space. -/
def State.startFetch (s : State) (p : Nat) : Except Wait State :=
  let e := s.pte p
  if s.halts 0xA || s.quiescing 0xC then .error .fetch
  else if s.t1Full e.tenant then .error .t1Quota
  else match s.takeFrame p with
    | none => .error .frame
    | some (c, i, s) =>
      let full := s.stagingFull
      let s := (s.setPte p { e with st := .fetching, ch := c, idx := i }).addT1 e.tenant 1 0
      .ok (if full then s.stagingBegins p else s.suspendFor e.media)

/-- Fetches that waited for media staging go on as it frees, oldest first (R90, R222). -/
def State.stagingGo (s : State) : State :=
  s.tier.stagingWait.foldl (fun (s : State) w =>
    if s.stagingFull then s
    else if (s.pte w.1).st == .fetching then (s.stagingEnds w.1).suspendFor (s.pte w.1).media
    else if (NMap.find s.tier.destageWait w.1).isSome then s
    else s.stagingEnds w.1) s

/-- Readahead of the pages after a demand fetch, within the region, is asked for (R223). -/
def State.readAhead (s : State) (p : Nat) : State :=
  (List.range (s.rd TIR_FETCH_CFG_RA_PAGES)).foldl (fun (s : State) j =>
    let q := p + 1 + j
    if regionOf (q * 4096) = regionOf (p * 4096) && (s.pte q).st == .media && !s.tier.ra.any (fun r => r.page == q) then
      { s with tier := { s.tier with ra := s.tier.ra ++ [{ page := q, since := s.mono }] } }
    else s) s

/-- A readahead fetch waits no more. -/
def State.raDrop (s : State) (r : RaWait) : State :=
  let s := s.stallEnd r.wait r.since
  { s with tier := { s.tier with ra := s.tier.ra.filter (fun x => x.page != r.page) } }

/-- A readahead fetch waits for another cause from now on. -/
def State.raWaits (s : State) (r : RaWait) (w : Wait) : State :=
  let s := (s.stallEnd r.wait r.since).stallStart w (s.pte r.page).tenant
  { s with tier := { s.tier with ra := s.tier.ra.map (fun x => if x.page = r.page then { x with wait := w, since := s.mono } else x) } }

/-- A fetch that no request waits for begins: its frame is written in the class BACKGROUND (R245). -/
def State.fetchAhead (s : State) (p : Nat) : State := { s with tier := { s.tier with raFetch := insertNat s.tier.raFetch p } }

/-- Readahead fetches start where they may, in damper class 3, which SHUT stops (R84, R223), a stall of each counted under its own page.
A page that has left MEDIA needs none. -/
def State.readAheadGo (s : State) : State :=
  if s.hearth.level == 2 then s
  else s.tier.ra.foldl (fun (s : State) r =>
    if (s.pte r.page).st != .media then s.raDrop r
    else match s.startFetch r.page with
      | .ok s => s.fetchAhead r.page |>.raDrop r
      | .error w => if w = r.wait then s else s.raWaits r w) s

/-- A demand request waits for a fetch that began ahead of demand. -/
def State.fetchWanted (s : State) (p : Nat) : State := { s with tier := { s.tier with raFetch := s.tier.raFetch.filter (· != p) } }

/-- Takes the page out of ZERO with a zero-filled frame (R217, R218, R227). -/
def State.zeroFill (s : State) (p t : Nat) : Except Wait State :=
  let pt := s.pageTenant p t
  if s.t1Full pt then .error .t1Quota
  else match s.takeFrame p with
    | none => .error .frame
    | some (c, i, s) =>
      let s := s.fillFrame c i 0 (fun _ => {})
      let s := s.setPte p { s.pte p with st := .resident, ch := c, idx := i, tenant := pt }
      .ok ((s.addT1 pt 1 0).addT2 pt 1 0)

/-- The page of an access is brought to a state that can serve it (R217, R222). `none`: go on to the cache. Where the frame lies in a rank
that cannot be read it waits until the page has left it (R257), where a discard waits for fills in flight until it has happened (R236). -/
def State.pageStep (s : State) (a : Acc) : Option Tried × State :=
  let p := a.line / 64
  let e := s.pte p
  if s.frameLost e then (some (.wait .fetchRecover a s), s)
  else if s.tier.discardLater.contains p && e.st != .fetching then (some (.wait .discard a s), s)
  else match e.st with
  | .zero =>
    if a.kind.writes then
      match s.zeroFill p a.tenant with
      | .ok s => (none, s)
      | .error w => (some (.wait w a s), s)
    else
      let (_, _, r) := accOn 0 false a.kind
      (some (.done (s.accDone a r (s.unsealedAt a.line))), s)
  | .media =>
    match s.startFetch p with
    | .ok s =>
      let s := if a.demand then (s.readAhead p).readAheadGo else s
      (some (.wait (if a.apply then .applyFetch else .fetch) a s), s)
    | .error w => (some (.wait w a s), s)
  | .fetching =>
    let w := if s.tier.recovering.contains p then Wait.fetchRecover else if a.apply then .applyFetch else .fetch
    (some (.wait w a (if a.demand then s.fetchWanted p else s)), s)
  | .demoting =>
    if a.kind.writes then
      (none, { s with tier := { s.tier with destages := s.tier.destages.map (fun d =>
          if d.1 = p then (d.1, { d.2 with wrote := true }) else d) } })
    else (none, s)
  | _ => (none, s)

/-- A write or an atomic on the bypass path (R102, R108, R111): through to DRAM, into a flue entry whose write is not issued, or, of
class M, into epoch staging until its seal is confirmed; one of another class joins a held write of its line (log 195). -/
def State.bypassWrite (s : State) (a : Acc) : Tried :=
  let e := s.pte (a.line / 64)
  let l := a.line % 64
  let heldNow := s.cache.held.filter (fun h => h.line == a.line)
  let fl := s.flueOf a.line
  let ep := if a.cls == 0 then s.openSlot.map (fun e => e.n) else none
  let through := ep.isNone && heldNow.isEmpty
  if through && s.keyMoving a.line then .wait .moving a s
  else if through && (fl.map (fun f => f.issued)).getD false then .wait .flueBusy a s
  else
    let d := s.dramLine e.ch e.idx l
    let (b, p) := match heldNow.getLast?, fl with
      | some h, _ => (h.data, h.poison)
      | none, some f => (f.data, f.poison)
      | none, none => (d.data, d.poison)
    let (nl, np, r) := accOn b p a.kind
    if r.isNone then .done (s.accDone a r none)
    else
      let s : State := match ep with
        | some n => { s with cache := { s.cache with
            held := (s.cache.held.filter (fun h => h.line != a.line || h.epoch != n)) ++ [(⟨a.line, n, nl, np⟩ : HeldWrite)] } }
        | none =>
          if !heldNow.isEmpty then
            { s with cache := { s.cache with held := s.cache.held.map (fun h => if h.line = a.line then { h with data := nl, poison := np } else h) } }
          else if fl.isSome then
            { s with cache := { s.cache with flue := s.cache.flue.map (fun f => if f.key = a.line then { f with data := nl, poison := np } else f) } }
          else (s.setDram e.ch e.idx l ⟨nl, np⟩).dramReq e.ch e.idx l true 0
      let u := maxEp ep (heldNow.foldl (fun m h => maxEp m (some h.epoch)) none)
      .done (((s.placed a nl np).noteUnsealed a.op u).accDone a r ep)

/-- The bypass path (R102, R108, R111). A request for a line whose miss register is outstanding merges with it (R99). -/
def State.bypass (s : State) (a : Acc) : Tried :=
  if s.cache.mshrs.any (fun m => m.key == a.line) then s.mergeAcc a.line a .mshr
  else match a.kind with
  | .read =>
    match (s.cache.held.filter (fun h => h.line == a.line)).getLast?, s.flueOf a.line with
    | some h, _ => .done (s.accDone a (if h.poison then none else some (h.data, 0)) (some h.epoch))
    | none, some f => .done (s.accDone a (if f.poison then none else some (f.data, 0)) none)
    | none, none =>
      let ch := (s.pte (a.line / 64)).ch
      match s.mshrRoom a.tenant ch with
      | some w => .wait w a s
      | none => s.missTake a.line a.tenant ch none a .mshr
  | _ => s.bypassWrite a

/-- A miss that a quota sends to the bypass path, counted once (R106). -/
def State.bypassFor (s : State) (a : Acc) : Tried :=
  (if a.quotaSaid then s else s.quotaBypass a.tenant).bypass { a with quotaSaid := true }

/-- The cache's part of an access (R98): lookup, flue, merge, full-line allocation, miss. A line with a write held on the bypass path
stays there until its seal is confirmed (R108; log 195). A reinstated line belongs to the tenant that asks for it: R94 and R97 differ on
its owner (DESIGN CHOICE, log 196). -/
def State.cacheStep (s : State) (a : Acc) : Tried :=
  let s := if a.counted then s else s.countLookup a.line a.tenant
  let a := { a with counted := true }
  match s.findWay a.line with
  | some (i, x) => if x.st == .filling then s.mergeAcc a.line a .mshr else .done (s.hit i x a a.demand)
  | none =>
    if !s.cacheOn || s.cache.held.any (fun h => h.line == a.line) then s.bypass a
    else match s.flueOf a.line with
    | some f =>
      match s.alloc a.line a.tenant with
      | .way i s =>
        let x : Way := { st := .dirty, key := a.line, owner := a.tenant, data := f.data, poison := f.poison }
        .done ((((s.reinstate a.line).pmuCount 9 3 0 a.tenant).setWay i x).hit i x a true)
      | .bypass => s.bypassFor a
      | .waitSet n => .wait (.set n) a s
      | .waitFlue => .wait .flue a s
    | none =>
      if s.cache.mshrs.any (fun m => m.key == a.line) then s.mergeAcc a.line a .mshr
      else if a.kind.full then
        match s.alloc a.line a.tenant with
        | .way i s =>
          let x : Way := { st := .dirty, key := a.line, owner := a.tenant }
          .done ((s.setWay i x).hit i x a true)
        | .bypass => s.bypassFor a
        | .waitSet n => .wait (.set n) a s
        | .waitFlue => .wait .flue a s
      else
        let ch := (s.pte (a.line / 64)).ch
        match s.mshrRoom a.tenant ch with
        | some w => .wait w a s
        | none =>
          match s.alloc a.line a.tenant with
          | .way i s => (s.setWay i { st := .filling, key := a.line, owner := a.tenant }).missTake a.line a.tenant ch (some i) a .mshr
          | .bypass => s.bypassFor a
          | .waitSet n => .wait (.set n) a s
          | .waitFlue => .wait .flue a s

/-- The apply of a twin's LINE goes to this twin's copy of a region it does not own: straight to the frame, charged there
(R94, R230, R352). -/
def State.applyLine (s : State) (a : Acc) : Tried :=
  let e := s.pte (a.line / 64)
  let d := s.dramLine e.ch e.idx (a.line % 64)
  let (l, p, _) := accOn d.data d.poison a.kind
  let s := (s.setDram e.ch e.idx (a.line % 64) ⟨l, p⟩).dramReq e.ch e.idx (a.line % 64) true 3
  .done ((s.charge a.line a.tenant).accDone a (some (l, 0)) none)

/-- Tries an access. A write of an owned line waits while no epoch is open to take it (R90). A demand access raises its page's HEAT
once, whatever state the page is in (R220). -/
def State.tryAcc (s : State) (a : Acc) : Tried :=
  if a.kind.writes && !a.apply && !s.canStage then .wait .staging a s
  else match s.ptLookup a with
    | (some r, _, _) => r
    | (none, s, a) =>
      let s := if a.demand && !a.heated then s.heatPage (a.line / 64) else s
      let a := { a with heated := true }
      match s.pageStep a with
      | (some r, _) => r
      | (none, s) => if a.apply then s.applyLine a else (s.cacheError a.line a.kind.full).cacheStep a

/-- An access goes on waiting, or begins a new wait: the old stall ends and the new one is counted (R226). -/
def State.park (s : State) (a : Acc) (w : Wait) : State × Acc :=
  if a.wait = w then (s, a)
  else ((s.stallEnd a.wait a.since).waitBegins a w, { a with wait := w, since := s.mono })

/-- One pass over the parked accesses in order of arrival: each is tried unless an earlier one for its line still waits.
Gives the accesses still parked, in order, and whether any went on. -/
def pumpList : List Acc → State → List Acc → Bool → State × List Acc × Bool
  | [], s, kept, moved => (s, kept, moved)
  | a :: as, s, kept, moved =>
    if kept.any (fun b => b.line == a.line) then pumpList as s (kept ++ [a]) moved
    else match s.tryAcc a with
      | .done s => pumpList as s kept true
      | .merged s =>
        let s := if s.cache.mshrs.any (fun m => m.key == a.line && decide (2 ≤ m.accs.length)) then s.pmuCount 9 2 0 a.tenant else s
        pumpList as (s.stallEnd a.wait a.since) kept true
      | .wait w b s =>
        let (s, b) := s.park b w
        pumpList as s (kept ++ [b]) moved

/-- The Hearth grants no access of a request while its EN is 0 (R72); a flush goes on. -/
def State.hearthShut (s : State) : Bool := s.rd PG_CTRL_EN 8 == 0 && s.dur.flush.isNone

/-- One pass over `parked`. -/
def State.pump (s : State) : State × Bool :=
  if s.hearthShut then (s, false)
  else
  let (s', kept, moved) := pumpList s.dp.parked { s with dp := { s.dp with parked := [] } } [] false
  ({ s' with dp := { s'.dp with parked := kept } }, moved)

/-- Puts accesses back into `parked` at their places in the order of arrival. -/
def insertAcc : List Acc → Acc → List Acc
  | [], a => [a]
  | b :: bs, a => if a.seqNo < b.seqNo then a :: b :: bs else b :: insertAcc bs a

/-- A fill of a miss register lands with a value (R98, R99): its way becomes CLEAN, the accesses it holds are applied in
order of arrival; those of a page-table line go on to their page. On the bypass path reads before the first write take the value, the
others go on from there. -/
def State.fillLine (s : State) (m : Mshr) (v : DLine) : State :=
  let s := { s with cache := { s.cache with mshrs := s.cache.mshrs.filter (fun r => r.key != m.key) } }
  let s : State := match m.way with
    | some i =>
      let s := (s.setWay i { st := .clean, key := m.key, owner := m.tenant, data := v.data, poison := v.poison }).askWay .fill i
      if m.accs.any (fun a => a.demand) then s.touch i else s
    | none => s
  let again (s : State) (as : List Acc) : State := { s with dp := { s.dp with parked := as.foldl insertAcc s.dp.parked } }
  if isPtKey m.key then again s (m.accs.map (fun a => { a with ptOk := true }))
  else match m.way with
    | some _ => again s m.accs
    | none =>
      let first := m.accs.takeWhile (fun a => !a.kind.writes)
      let s := first.foldl (fun s a => s.accDone a (if v.poison then none else some (v.data, 0)) none) s
      again s (m.accs.drop first.length)

end Sys2Proof.Machine
end

