-- ==== Sys2Proof/Machine/MediaOps.lean ====
section
/-! DEFINITION. The media manager's own operations: geometry, dies, superblocks and the place of a unit, the journal,
capacity and the flush reserve, the effective dirty budget (R230 to R234, R266 to R273, R283 to R288). -/

namespace Sys2Proof.Machine

/-! ### Geometry and dies -/

/-- Bits per native cell: 3 for TLC, 4 for QLC (R266). -/
def State.cellBits (s : State) : Nat := if s.rd MED_GEOM_CELL = 1 then 3 else 4
/-- User bytes of a die. -/
def State.dieBytes (s : State) : Nat := 2 ^ 37 * s.rd MED_GEOM_DIE_TBIT
/-- Pages of a block in a mode (R266). -/
def State.blockPages (s : State) (slc : Bool) : Nat :=
  let n := s.dieBytes / (max 1 (s.rd MED_GEOM_PLANES * s.rd MED_GEOM_BLOCKS)) / 16384
  if slc then n / s.cellBits else n

/-- State of a die (NCH.DIES): ABSENT 0, IN_SERVICE 1, SLOW 2, RETIRING 3, FAILED 4. -/
def State.dieSt (s : State) (c d : Nat) : Nat := (s.rd NCH_DIES_STATE c / 8 ^ d) % 8

/-- Dies IN_SERVICE or SLOW. -/
def State.liveDies (s : State) : List (Nat × Nat) :=
  (List.range 32).flatMap (fun c => (List.range 16).filterMap (fun d =>
    if s.dieSt c d = 1 ∨ s.dieSt c d = 2 then some (c, d) else none))

/-! ### Journal (R285 to R287) -/

/-- A record joins the pending unit. -/
def State.jrn (s : State) (r : JRec) (frees : Option Nat := none) : State :=
  { s with media := { s.media with jpend := s.media.jpend ++ [{ rec_ := r, frees := frees }], jfirst := some (s.media.jfirst.getD s.mono) } }

/-- Writes a die's state with its record and the count of dies (R286, MED.GEOM). -/
def State.setDieSt (s : State) (c d v : Nat) : State :=
  let w := s.rd NCH_DIES_STATE c
  let s := s.wr NCH_DIES_STATE (w - (w / 8 ^ d) % 8 * 8 ^ d + v * 8 ^ d) c
  (s.jrn (.dieState c d v)).wr MED_GEOM_DIES s.liveDies.length

/-! ### Capacity (R270, R272) -/

/-- SLC bytes of a superblock of a group on dies in service and not SLOW. -/
def State.sbSlcBytes (s : State) (g : Nat) : Nat :=
  16384 * (((List.range 32).filter (fun c => s.dieSt c g == 1)).length * s.rd MED_GEOM_PLANES * s.blockPages true)

/-- Members of superblock (g, k): the good ones and the possible ones of dies that satisfy a test on their state (R268). -/
def State.sbMembers (s : State) (g k : Nat) (die : Nat → Bool) : Nat × Nat :=
  let cs := (List.range 32).filter (fun c => die (s.dieSt c g))
  let bad := (s.media.bad.filter (fun b => addrSb (b * 2 ^ 14) == sbKey g k && cs.contains (addrCh (b * 2 ^ 14)))).length
  (cs.length * s.rd MED_GEOM_PLANES - bad, cs.length * s.rd MED_GEOM_PLANES)

/-- A superblock may be used: at least half of its possible members are good (R268). -/
def State.sbUsable (s : State) (g k : Nat) : Bool :=
  let m := s.sbMembers g k (fun v => v == 1 || v == 2)
  decide (m.2 ≤ 2 * m.1)

/-- SLC bytes of the good members of a superblock on dies in service and not SLOW. -/
def State.sbGoodBytes (s : State) (k : Nat) : Nat := 16384 * s.blockPages true * (s.sbMembers (k / 32768) (k % 32768) (· == 1)).1

/-- Superblocks of the reserve in a group. -/
def State.rsvIn (s : State) (g : Nat) : List Nat := s.media.rsv.filter (fun k => k / 32768 == g)

/-- Erased and verified reserve in SLC bytes (R272). -/
def State.rsvBytes (s : State) : Nat := (s.media.rsv.map s.sbGoodBytes).sum

/-- Reserve target in SLC bytes (R272). -/
def State.rsvTarget (s : State) : Nat :=
  divUp (min (s.rd TIR_DIRTY_BUDGET_BUDGET_MIB) (s.rd TIR_DIRTY_MAX_MAX_MIB) * 2 ^ 20 * 64) 56 + 2 ^ 32

/-- CAP_MIB (R272). -/
def State.capMib (s : State) : Nat := (s.rsvBytes - 2 ^ 32) * 56 / 64 / 2 ^ 20

/-- DATA_MAX in bytes (R270), with a number of dies. -/
def State.dataMaxOf (s : State) (dies : Nat) : Nat :=
  let good := dies * s.dieBytes - s.media.bad.length * (s.blockPages false * 16384)
  let op := good * s.rd MED_OP_PCT / 100
  let fixed := s.cellBits * (32 * 2 ^ 30 + (s.rd TIR_POOL_CFG_PT_MIB * 2 ^ 20 + 2 ^ 30) + s.rsvTarget)
  good - op - fixed

/-- DATA_MAX in bytes. -/
def State.dataMax (s : State) : Nat := s.dataMaxOf (s.rd MED_GEOM_DIES)

/-- D in bytes: mapped units (R270). -/
def State.dataBytes (s : State) : Nat := 4096 * (s.tier.pt.filter (fun e => e.2.hasMedia)).length

/-- S in SLC bytes (R270). -/
def State.slcBytes (s : State) : Nat := min (s.rd MED_SLC_MAX_GIB * 2 ^ 30) ((s.dataMax - s.dataBytes) / s.cellBits)

/-- SLC buffer in use: valid units of BUFFER superblocks (R271). -/
def State.slcUsed (s : State) : Nat :=
  4096 * ((s.media.sbs.filter (fun e => e.2.role == 0 && e.2.slc)).map (fun e => e.2.valid)).sum

/-- E and its causes, and the dirty-page limit (R232), with the events of R234. Before F is measured DIRTY_MAX reads 0
(R237). -/
def State.budgetRecompute (s : State) : State :=
  let ho := s.rd PWR_HOLDUP_MS_MS
  let f := s.media.flushF
  let m := if s.rd TIR_FLUSH_RATE_VALID = 0 ∨ ho ≤ 600 then 0 else min 2097152 ((ho - 600) * f * 8 / 10000 / 2 ^ 20)
  let budget := s.rd TIR_DIRTY_BUDGET_BUDGET_MIB
  let s := s.wr TIR_DIRTY_MAX_MAX_MIB m
  let cap := s.capMib
  let e := min budget (min m cap)
  let s := ((s.wr TIR_DIRTY_MAX_EFF_MIB e).wr TIR_DIRTY_MAX_CAP_MAX (b2n (m == e && m != budget))).wr TIR_DIRTY_MAX_CAP_RESERVE (b2n (cap == e && cap != budget && cap != m))
  let s := s.wr TIR_DIRTY_PAGES_MAX (min (e * 1024) (s.framesTotal / 2))
  if s.rd TIR_FLUSH_RATE_VALID = 0 then s
  else
    let low := decide (m < budget)
    let fl := decide (m < 16384)
    let s := s.raiseIf (low && !s.tier.dirtyMaxLow) 0xA 1
    let s := s.raiseIf (fl && !s.tier.floorSaid) 0xA 2
    { s with tier := { s.tier with dirtyMaxLow := low, floorSaid := fl } }

/-- The SLC buffer is above FOLD_PCT of S (R271). -/
def State.foldAbove (s : State) : Bool := decide (s.slcBytes * s.rd MED_SLC_FOLD_PCT < s.slcUsed * 100)

/-- The program of those queued on a die that begins after one of a stream: the oldest, FOLD last; above FOLD_PCT HOST and FOLD in turn
(R271). -/
def State.nextProg (s : State) (c d ended : Nat) : Option (Nat × Prog) :=
  let q := s.media.progs.filter (fun e => addrCh e.1 == c && addrDie e.1 == d)
  let oldest (p : Nat → Bool) : Option (Nat × Prog) := (q.filter (fun e => p e.2.stream)).foldl (fun b e => match b with
    | none => some e
    | some x => if e.2.no < x.2.no then some e else some x) none
  match oldest (· == 0), oldest (· == 1), oldest (· != 1) with
  | some h, some f, _ => if s.foldAbove && ended == 0 then some f else some h
  | _, _, some x => some x
  | _, f, none => f

/-- A program of a die has ended: the next one queued on it begins, and no suspension of the ended one stands (R271, R282). -/
def State.progEnds (s : State) (c d stream : Nat) : State :=
  let s : State := { s with media := { s.media with suspended := NMap.erase s.media.suspended (16 * c + d) } }
  if (s.runningProg c d).isSome then s
  else match s.nextProg c d stream with
    | some (a, p) => s.setProg a { p with began := some s.mono }
    | none => s

/-- Number of superblocks of a group that are not erased. -/
def State.nonErased (s : State) (g : Nat) : Nat :=
  (s.media.sbs.filter (fun e => e.1 / 32768 == g && e.2.st != 0)).length

/-- Erased superblocks of a group outside the reserve. -/
def State.erasedIn (s : State) (g : Nat) : Nat :=
  s.rd MED_GEOM_BLOCKS - s.nonErased g - (s.rsvIn g).length

/-- The erased superblock of a group to be opened next among those that a test lets through: of the lowest erase count, of equals the lowest
number; one with too many bad members is never used (R268). -/
def State.nextErased (s : State) (g : Nat) (may : Nat → Bool) : Option Nat :=
  let n := s.rd MED_GEOM_BLOCKS
  let listed := s.media.sbs.filter (fun e => e.1 / 32768 == g)
  let ok (k : Nat) : Bool := decide (k < n) && may (sbKey g k) && s.sbUsable g k
  let tries := listed.length + s.media.rsv.length + s.media.bad.length + 1
  let fresh := (List.range tries).find? (fun k => ok k && !listed.any (fun e => e.1 % 32768 == k))
  let old := (listed.filter (fun e => e.2.st == 0 && ok (e.1 % 32768))).foldl (fun (b : Option (Nat × Nat)) e =>
    match b with
    | none => some (e.2.erases, e.1 % 32768)
    | some x => if e.2.erases < x.1 then some (e.2.erases, e.1 % 32768) else some x) none
  match fresh, old with
  | some k, _ => some k
  | none, some x => some x.2
  | none, none => none

/-- Up to n erased superblocks of a group join the reserve. -/
def reserveMore : Nat → State → Nat → State
  | 0, s, _ => s
  | n + 1, s, g =>
    match s.nextErased g (fun k => !s.media.rsv.contains k) with
    | some k => reserveMore n { s with media := { s.media with rsv := insertNat s.media.rsv (sbKey g k) } } g
    | none => s

/-- Erased superblocks are verified into the reserve while CAP_MIB is below its target, over all die groups (R272). -/
def State.fillReserve (s : State) : State :=
  let gs := (List.range 16).filter (fun g => decide (0 < s.sbSlcBytes g) && decide (1 < s.erasedIn g))
  let per := (gs.map s.sbSlcBytes).sum
  let lack := s.rsvTarget - s.rsvBytes
  if per = 0 ∨ lack = 0 then s
  else gs.foldl (fun (s : State) g => reserveMore (min (divUp lack per) (s.erasedIn g - 1)) s g) s

/-- Capacity, SLC buffer, reserve and budget are computed again (R270, R272). -/
def State.mediaRecompute (s : State) : State :=
  let s := (s.wr MED_CAP_DATA_MAX_GIB (s.dataMax / 2 ^ 30)).wr MED_CAP_DATA_GIB (s.dataBytes / 2 ^ 30)
  let s := (s.wr MED_SLC_SIZE_GIB (s.slcBytes / 2 ^ 30)).wr MED_SLC_USED_GIB (s.slcUsed / 2 ^ 30)
  let s := (s.wr MED_FLUSH_RSV_CAP_MIB s.capMib).wr MED_FLUSH_RSV_TARGET_MIB (s.rsvTarget / 2 ^ 20)
  let short := decide (s.rsvBytes < s.rsvTarget)
  let s := s.raiseIf (short && !s.media.shortSaid) 0xC 3
  { s with media := { s.media with shortSaid := short } }.budgetRecompute

/-! ### Superblocks and the place of a unit (R268, R269) -/

/-- A block is bad. -/
def State.isBad (s : State) (c d pl k : Nat) : Bool := s.media.bad.contains (addrBlk (mediaAddr c d pl k 0 0))

/-- A channel's program window is open (R278). -/
def State.winOpen (s : State) (c : Nat) : Bool := (s.rd MED_WIN_STAT_OPEN / 2 ^ c) % 2 == 1

/-- A plane of a die whose block of a superblock still takes a unit. -/
def State.memberRoom (s : State) (c d k : Nat) : Option Nat :=
  let x := s.sb (sbKey d k)
  (List.range (s.rd MED_GEOM_PLANES)).find? (fun pl =>
    !s.isBad c d pl k && decide (NMap.getD x.ptr (4 * c + pl) 0 < 4 * s.blockPages x.slc))

/-- Programs in flight on a die. -/
def State.dieQueue (s : State) (c d : Nat) : Nat :=
  (s.media.progs.filter (fun e => addrCh e.1 == c && addrDie e.1 == d)).length

/-- Dies a stream may use (R269, R278, R279): not SLOW for HOST and FLUSH; the window open but for FLUSH. -/
def State.streamDies (s : State) (stream : Nat) : List (Nat × Nat) :=
  s.liveDies.filter (fun e => (s.dieSt e.1 e.2 == 1 || stream == 1 || stream == 2) && (stream == 3 || s.winOpen e.1))

/-- Key of a stream's open superblock in a group. -/
def openKey (stream g : Nat) (slc : Bool) : Nat := (stream * 2 + b2n slc) * 16 + g

/-- Role a stream opens a superblock for. -/
def roleFor (stream : Nat) (slc : Bool) : Nat := if stream = 3 then 2 else if slc then 0 else 1

/-- Opens a superblock of a group for a stream (R268, R286). FLUSH takes one of the reserve. -/
def State.openSb (s : State) (stream g : Nat) (slc : Bool) : Option State :=
  if stream != 3 && s.erasedIn g == 0 then none
  else match s.nextErased g (fun k => s.media.rsv.contains k == (stream == 3)) with
    | none => none
    | some k =>
      let x := s.sb (sbKey g k)
      let role := roleFor stream slc
      let s := s.setSb (sbKey g k) { x with st := 1, slc := slc, role := role, ptr := [], valid := 0, order := s.media.opened }
      let s := s.jrn (.sbOpen g k slc role x.erases)
      some { s with media := { s.media with opened := s.media.opened + 1, open_ := NMap.insert s.media.open_ (openKey stream g slc) k, rsv := s.media.rsv.filter (· != sbKey g k) } }

/-- Closes a full superblock. -/
def State.closeSb (s : State) (stream g : Nat) (slc : Bool) : State :=
  match NMap.find s.media.open_ (openKey stream g slc) with
  | none => s
  | some k =>
    let x := s.sb (sbKey g k)
    let s := (s.setSb (sbKey g k) { x with st := 2 }).jrn (.sbClose g k x.valid)
    { s with media := { s.media with open_ := NMap.erase s.media.open_ (openKey stream g slc) } }

/-- A die takes a unit of a stream now: its open superblock has room on it. -/
def State.dieRoom (s : State) (stream : Nat) (slc : Bool) (c d : Nat) : Option (Nat × Nat) :=
  match NMap.find s.media.open_ (openKey stream d slc) with
  | some k => (s.memberRoom c d k).map (fun pl => (k, pl))
  | none => none

/-- A die has HOST or fetch work (R271). -/
def State.dieBusy (s : State) (c d : Nat) : Bool :=
  s.media.progs.any (fun e => addrCh e.1 == c && addrDie e.1 == d && e.2.stream == 0)
    || s.tier.pt.any (fun e => e.2.st == .fetching && e.2.hasMedia && addrCh e.2.media == c && addrDie e.2.media == d)

/-- A die may take a unit of a stream by what it does (R271, R275): folding only where there is no HOST or fetch work, but above FOLD_PCT;
a HOST destage to NATIVE only in a group that has an erased superblock. -/
def State.dieTakes (s : State) (stream : Nat) (slc : Bool) (c d : Nat) : Bool :=
  if stream = 1 then s.foldAbove || !s.dieBusy c d
  else if stream = 0 && !slc then decide (0 < s.erasedIn d)
  else true

/-- The die of the shortest program queue among some (R269). -/
def State.shortest (s : State) (l : List (Nat × Nat)) : Option (Nat × Nat) :=
  l.foldl (fun b e => match b with
    | none => some e
    | some x => if s.dieQueue e.1 e.2 < s.dieQueue x.1 x.2 then some e else some x) none

/-- Every group of a stream has an open superblock with room, as far as erased ones allow. -/
def State.readyOpen (s : State) (stream : Nat) (slc : Bool) : State :=
  let ds := s.streamDies stream
  (List.range 16).foldl (fun s g =>
    let mine := ds.filter (fun e => e.2 == g)
    if mine.isEmpty || mine.any (fun e => (s.dieRoom stream slc e.1 e.2).isSome) then s
    else
      let s := s.closeSb stream g slc
      match s.openSb stream g slc with
      | some s => s
      | none => s) s

/-- Starts a program of a unit in a stream (R269): its place, and the state. Nothing where no die has room, while a probe holds HOST programs
back (R274) or while MED quiesces (R292). The unit is stored with the journal sequence of now (R267). -/
def State.startProg (s : State) (stream : Nat) (slc : Bool) (src : Option Nat) (u : MUnit) : Option (Nat × State) :=
  if (stream == 0 && s.media.probing) || (stream != 3 && s.quiescing 0xC) then none
  else
    let s := s.readyOpen stream slc
    let l := (s.streamDies stream).filter (fun e => (s.dieRoom stream slc e.1 e.2).isSome && s.dieTakes stream slc e.1 e.2)
    match s.shortest l with
    | none => none
    | some (c, d) => match s.dieRoom stream slc c d with
      | none => none
      | some (k, pl) =>
        let x := s.sb (sbKey d k)
        let n := NMap.getD x.ptr (4 * c + pl) 0
        let a := mediaAddr c d pl k (n / 4) (n % 4)
        let s := s.setSb (sbKey d k) { x with ptr := NMap.insert x.ptr (4 * c + pl) (n + 1), hot := x.hot || (stream == 3 && !s.winOpen c) }
        let s := if stream = 0 then s.cphCount 0 else s
        let s := s.askIn .program (s.rd HTH_PART_MEDIA_BASE_MIB) s.hearth.layout.media 64
        let g : Prog := { stream := stream, src := src, unit := { u with seq := s.media.jseq }, slc := slc, began := if s.dieQueue c d = 0 then some s.mono else none, no := s.media.progNo }
        some (a, { s with media := { s.media with progs := NMap.insert s.media.progs a g, progNo := s.media.progNo + 1 } })

/-- A unit is valid: its page's entry names it (R275). -/
def State.unitValid (s : State) (a : Nat) (u : MUnit) : Bool := (s.pte u.page).hasMedia && (s.pte u.page).media == a

/-- A unit is no longer named: one valid unit less in its superblock. -/
def State.dropUnit (s : State) (a : Nat) : State :=
  let x := s.sb (addrSb a)
  s.setSb (addrSb a) { x with valid := x.valid - 1 }

/-- Valid units that satisfy a test are to be read and moved in a stream (R271, R275, R280, R283). -/
def State.moveUnits (s : State) (stream : Nat) (p : Nat → Bool) : State :=
  let as := s.media.units.filter (fun e => p e.1 && s.unitValid e.1 e.2)
  { s with media := { s.media with relocs := as.foldl (fun m e => NMap.insert m e.1 stream) s.media.relocs } }

/-- A superblock is chosen to be emptied and erased. -/
def State.victim (s : State) (k stream : Nat) : State :=
  let x := s.sb k
  if x.st = 2 then (s.setSb k { x with st := 3 }).moveUnits stream (fun a => addrSb a == k) else s

/-- A pending record supersedes a unit of a superblock (R287). -/
def State.heldByJrn (s : State) (k : Nat) : Bool :=
  s.media.jpend.any (fun r => match r.frees with | some a => addrSb a == k | none => false)

/-- A fetch in progress reads a unit of a superblock (R287). -/
def State.heldByRead (s : State) (k : Nat) : Bool :=
  s.tier.pt.any (fun e => e.2.st == .fetching && e.2.hasMedia && addrSb e.2.media == k)

/-- Emptied victims begin their erase (R287): an ERASE_BEGIN record, the erase once it is durable. -/
def State.eraseCheck (s : State) : State :=
  s.media.sbs.foldl (fun s e =>
    let x := s.sb e.1
    if x.st == 3 && x.valid == 0 && !s.heldByJrn e.1 && !s.heldByRead e.1
        && !s.media.jpend.any (fun r => r.rec_ == .eraseBegin (e.1 / 32768) (e.1 % 32768)) then
      s.jrn (.eraseBegin (e.1 / 32768) (e.1 % 32768)) else s) s

/-- Reclaim (R275): from below FREE_LO erased NATIVE superblocks until FREE_HI, a group empties the closed one with the fewest valid units,
of equals the one with the lower erase count. -/
def State.reclaimCheck (s : State) : State :=
  if s.halts 0xC || s.rd PG_STAT_STATE 0xC != 2 then s
  else (List.range 16).foldl (fun (s : State) g =>
    let busy := s.media.sbs.any (fun e => e.1 / 32768 == g && (e.2.st == 3 || e.2.st == 4))
    let on := s.sbSlcBytes g != 0
      && decide (s.erasedIn g < if s.media.reclaiming.contains g then s.rd MED_RECLAIM_FREE_HI else s.rd MED_RECLAIM_FREE_LO)
    let s : State := { s with media := { s.media with reclaiming := if on then insertNat s.media.reclaiming g else s.media.reclaiming.filter (· != g) } }
    if !on || busy then s
    else
      let cs := s.media.sbs.filter (fun e => e.1 / 32768 == g && e.2.st == 2 && e.2.role == 1)
      let best := cs.foldl (fun (b : Option (Nat × Sb)) e => match b with
        | none => some e
        | some x => if e.2.valid < x.2.valid ∨ (e.2.valid = x.2.valid ∧ e.2.erases < x.2.erases) then some e else some x) none
      match best with
      | some e => s.victim e.1 2
      | none => s) s

/-- Folding (R271): while some die has no HOST or fetch work, or above FOLD_PCT of S, the oldest closed BUFFER superblock is emptied. -/
def State.foldCheck (s : State) : State :=
  let idle := s.liveDies.any (fun e => !s.dieBusy e.1 e.2)
  if s.halts 0xC || s.rd PG_STAT_STATE 0xC != 2 || !(idle || s.foldAbove) || s.media.relocs.any (fun e => e.2 == 1) then s
  else
    let cs := s.media.sbs.filter (fun e => e.2.st == 2 && e.2.role == 0)
    match cs.foldl (fun (b : Option (Nat × Sb)) e => match b with
      | none => some e
      | some x => if e.2.order < x.2.order then some e else some x) none with
    | some e => s.victim e.1 1
    | none => s

/-- A page's NAND copy is given up (R277). -/
def State.unmapPage (s : State) (p : Nat) : State :=
  let e := s.pte p
  if e.hasMedia then ((s.dropUnit e.media).jrn (.unmap p) (some e.media)).medCount 12 else s

/-- A block turns bad (R283, R284, R286): recorded, reported, its valid units to be moved; a die with more than 5 % bad
blocks fails. Gives whether the die must fail. -/
def State.badBlock (s : State) (c d pl k cause : Nat) : State × Bool :=
  let b := addrBlk (mediaAddr c d pl k 0 0)
  if s.media.bad.contains b then (s, false)
  else
    let s : State := { s with media := { s.media with bad := insertNat s.media.bad b } }
    let s := (s.jrn (.badBlock c d pl k cause)).raise (0x80 + c) 7
    let s := s.modStat c d (fun x => { x with bad := x.bad + 1 })
    let s := s.moveUnits 2 (fun a => addrBlk a == b)
    (s, decide (s.rd MED_GEOM_PLANES * s.rd MED_GEOM_BLOCKS * 5 < (s.stat c d).bad * 100))

/-- What a record does once durable (R287): the map NAND keeps; an erase may run. -/
def State.durable (s : State) (r : JRec) : State :=
  match r with
  | .map t p a _ => { s with media := { s.media with durMap := NMap.insert s.media.durMap p (a, t) } }
  | .unmap p => { s with media := { s.media with durMap := NMap.erase s.media.durMap p } }
  | .eraseBegin g k => s.setSb (sbKey g k) { s.sb (sbKey g k) with st := 4, eraseAt := s.mono, susp := [], idle := [] }
  | .dieState c d v => { s with media := { s.media with dieRec := NMap.insert s.media.dieRec (16 * c + d) v } }
  | _ => s

/-- Journal units since the oldest copy of a page-table segment that is still needed (R285, R288). -/
def State.jrnNeeded (s : State) : Nat :=
  let n := divUp (s.rd TIR_POOL_CFG_PT_MIB) 256
  if n = 0 then 0
  else s.media.jseq - ((List.range n).map (fun k => NMap.getD s.media.ckpt k 0)).foldl min s.media.jseq

/-- A journal unit is programmed in both copies of the ring, and its records are durable (R285). -/
def State.jrnUnit (s : State) (now : List JRec) : State :=
  let u : JUnit := ⟨s.media.jseq + 1, s.tb, now⟩
  let s : State := { s with media := { s.media with jseq := u.seq, journal := (s.media.journal ++ [u]).drop (s.media.journal.length + 1 - 2 ^ 22) } }
  now.foldl (fun s r => s.durable r) (s.medCount 15)

/-- The pending records and others after them are programmed at once (R304 steps 3 and 6, R313). -/
def State.jrnForce (s : State) (rs : List JRec) : State :=
  let all := s.media.jpend.map (fun r => r.rec_) ++ rs
  let s : State := { s with media := { s.media with jpend := [], jfirst := none } }
  (List.range (divUp all.length 126)).foldl (fun (s : State) i => s.jrnUnit ((all.drop (126 * i)).take 126)) s

end Sys2Proof.Machine
end

