-- ==== Sys2Proof/Machine/TierOps.lean ====
section
/-! DEFINITION. The tier manager's own operations: destage, demotion, the sweep, discard of a page, the end of a fetch
(R220 to R224, R230, R231, R236). -/

namespace Sys2Proof.Machine

/-- Number of bits set. -/
def popcount (w : Word64) : Nat := ((List.range 64).filter (fun i => w.getLsbD i)).length

/-- Cached lines of a page: places and ways that are not DETACHED. -/
def State.pageWays (s : State) (p : Nat) : NMap Way :=
  s.cache.ways.filter (fun e => !isPtKey e.2.key && e.2.key / 64 == p && e.2.st != .detached)

/-- A line of the page is PINNED or UNSEALED (R221). -/
def State.pageHeld (s : State) (p : Nat) : Bool :=
  (s.pageWays p).any (fun e => e.2.pins != 0 || e.2.unsealed.isSome) || s.cache.held.any (fun h => h.line / 64 == p)

/-- A line of the page is UNSEALED (R231). -/
def State.pageUnsealed (s : State) (p : Nat) : Bool :=
  (s.pageWays p).any (fun e => e.2.unsealed.isSome) || s.cache.held.any (fun h => h.line / 64 == p)

/-- The page's DIRTY lines and its flue entries are written to its frame (R231). -/
def State.writeBackPage (s : State) (p : Nat) : State :=
  let e := s.pte p
  let s : State := { s with cache := { s.cache with moveWaits := s.cache.moveWaits.filter (fun w => w.1 / 64 != p) } }
  let fl := s.cache.flue.filter (fun f => f.key / 64 == p && !isPtKey f.key)
  let s := fl.foldl (fun s f => s.setDram e.ch e.idx (f.key % 64) ⟨f.data, f.poison⟩) s
  let s : State := { s with cache := { s.cache with flue := s.cache.flue.filter (fun f => isPtKey f.key || f.key / 64 != p) } }
  (s.pageWays p).foldl (fun s x =>
    if x.2.st == .dirty then
      (s.setDram e.ch e.idx (x.2.key % 64) ⟨x.2.data, x.2.poison⟩).setWay x.1 { x.2 with st := .clean }
    else s) s

/-- The 64 lines of a page's frame. -/
def State.frameLines (s : State) (p : Nat) : List DLine :=
  let e := s.pte p
  (List.range 64).map (fun j => s.dramLine e.ch e.idx j)

/-- The page's cache lines are invalidated without write-back, PINNED ones becoming DETACHED. -/
def State.dropPageLines (s : State) (p : Nat) : State :=
  let s := (s.pageWays p).foldl (fun s x => s.invalidate x.1) s
  { s with cache := { s.cache with flue := s.cache.flue.filter (fun f => isPtKey f.key || f.key / 64 != p), held := s.cache.held.filter (fun h => h.line / 64 != p), moveWaits := s.cache.moveWaits.filter (fun w => w.1 / 64 != p) } }

/-- A fill of a line of the page is in flight from its frame. -/
def State.pageFilling (s : State) (p : Nat) : Bool := s.cache.mshrs.any (fun m => !isPtKey m.key && m.key / 64 == p)

/-- A page gives up its frame and becomes MEDIA (R221). -/
def State.toMedia (s : State) (p : Nat) : State :=
  let s := s.dropPageLines p
  let e := s.pte p
  let s := (s.giveFrame e.ch e.idx).addT1 e.tenant 0 1
  s.setPte p { e with st := .media, ch := 0, idx := 0 }

/-- Neither TIR nor MED is quiescing, and the media manager runs (R237, R292). -/
def State.mediaRuns (s : State) : Bool := !s.quiescing 0xA && !s.quiescing 0xC && s.rd PG_STAT_STATE 0xC == 2 && s.dur.flush.isNone

/-- Starts the destage of a page (R231, R269, R271, R273): write-back, a unit of the HOST stream, the mask charged now. Without media
staging it waits (R90, R226). -/
def State.startDestage (s : State) (p : Nat) (demote : Bool) : State :=
  let e := s.pte p
  if (s.tier.destages.any (fun d => d.1 == p)) || !(e.st == .resident || e.st == .demoting) || !s.mediaRuns || s.pageUnsealed p || s.frameLost e then s
  else if !e.hasMedia && decide (s.dataMax < s.dataBytes + 4096) then
    let s := s.raiseIf (!s.media.fullSaid) 0xC 2
    { s with media := { s.media with fullSaid := true } }
  else if s.stagingFull then
    let s : State := { s with tier := { s.tier with destageWait := NMap.insert s.tier.destageWait p (demote || NMap.getD s.tier.destageWait p false) } }
    (if demote then s.setPte p { s.pte p with st := .demoting } else s).stagingBegins p
  else
    let s := s.writeBackPage p
    let slc := decide (s.slcUsed < s.slcBytes)
    let u : MUnit := { page := p, tenant := e.tenant, lines := s.frameLines p }
    match s.startProg 0 slc none u with
    | none => if demote then s.setPte p { s.pte p with st := .resident } else s
    | some (a, s) =>
      let mask := match NMap.find s.tier.recs p with | some r => r.mask | none => 0
      let s : State := { s with tier := { s.tier with destages := NMap.insert s.tier.destages p { mask := mask, demote := demote, wrote := false, unit := some a } } }
      let s : State := { s with media := { s.media with fullSaid := false } }
      let s := (List.range 64).foldl (fun s j => s.dramReq e.ch e.idx j false 2) s
      if demote then s.setPte p { s.pte p with st := .demoting } else s

/-- Destages that waited for media staging start as it frees, oldest first (R90). -/
def State.destageGo (s : State) : State :=
  (s.tier.stagingWait.filter (fun w => (NMap.find s.tier.destageWait w.1).isSome)).foldl (fun (s : State) w =>
    if s.stagingFull then s
    else
      let d := NMap.getD s.tier.destageWait w.1 false
      let s := s.stagingEnds w.1
      let s : State := { s with tier := { s.tier with destageWait := NMap.erase s.tier.destageWait w.1 } }
      s.startDestage w.1 d) s

/-- A demotion ends (R221): the frame is freed, unless a write reached the page or charged it again. While a fill of one of its lines is in
flight from the frame it waits (R94; log 198). -/
def State.endDemotion (s : State) (p : Nat) (wrote : Bool) : State :=
  let e := s.pte p
  if wrote || e.dirty || s.pageUnsealed p then s.setPte p { e with st := .resident }
  else if s.pageFilling p then
    let s := s.setPte p { e with st := .demoting }
    { s with tier := { s.tier with demoteWait := insertNat s.tier.demoteWait p } }
  else s.toMedia p

/-- Demotions that waited for a fill go on once it has landed. -/
def State.demotesGo (s : State) : State :=
  s.tier.demoteWait.foldl (fun (s : State) p =>
    if s.pageFilling p then s
    else
      let s : State := { s with tier := { s.tier with demoteWait := s.tier.demoteWait.filter (· != p) } }
      if (s.pte p).st == .demoting && !(s.tier.destages.any (fun d => d.1 == p)) then s.endDemotion p false else s) s

/-- Demotes a page (R221): at once where it is clean and on NAND, else through a destage; one in progress serves the demotion. None starts
while TIR quiesces (R237). -/
def State.demote (s : State) (p : Nat) : State :=
  let e := s.pte p
  if !e.dirty && e.hasMedia && !s.tier.redo.contains p then (if s.halts 0xA then s else s.endDemotion p false)
  else if s.tier.destages.any (fun d => d.1 == p) then
    let s := s.setPte p { e with st := .demoting }
    { s with tier := { s.tier with
        destages := s.tier.destages.map (fun (d : Nat × Destage) => if d.1 = p then (d.1, { d.2 with demote := true }) else d) } }
  else s.startDestage p true

/-- One page of the sweep (R221): passed over with its HEAT halved, or demoted. -/
def State.sweepPage (s : State) (p : Nat) : State :=
  let e := s.pte p
  if e.st == .moving then s.setPte p { e with heat := e.heat / 2 }
  else if e.st != .resident then s
  else if e.heat != 0 || e.pin || s.pageHeld p then s.setPte p { e with heat := e.heat / 2 }
  else s.demote p

/-- Frames free or about to be: pages DEMOTING give theirs back when their destage ends (log 21). -/
def State.freeSoon (s : State) : Nat := s.framesFree + (s.tier.pt.filter (fun e => e.2.st == .demoting)).length

/-- Sweeps a list of pages while a number of frames is wanted. -/
def sweepList : List Nat → Nat → State → State
  | [], _, s => s
  | p :: ps, want, s => if want ≤ s.freeSoon then s else sweepList ps want ({ s with tier := { s.tier with sweep := p + 1 } }.sweepPage p)

/-- Pages in the circular order of the sweep, from its place (R221). -/
def State.sweepOrder (s : State) (pr : Pte → Bool) : List Nat :=
  let ks := (s.tier.pt.filter (fun e => (e.2.st == .resident || e.2.st == .moving) && pr e.2)).map Prod.fst
  ks.filter (fun k => decide (s.tier.sweep ≤ k)) ++ ks.filter (fun k => decide (k < s.tier.sweep))

/-- The demoter (R221): from below LOW thousandths free until HIGH are, cancelled demotions made up for. Damper class 3, class 0 once the
pool is empty. -/
def State.demoter (s : State) : State :=
  let total := s.framesTotal
  let on := total != 0 && (s.tier.sweeping || decide (s.framesFree * 1000 < s.rd TIR_FRAME_WM_LOW * total))
  let want := divUp (s.rd TIR_FRAME_WM_HIGH * total) 1000
  let s : State := { s with tier := { s.tier with sweeping := on && decide (s.framesFree < want) } }
  if !s.tier.sweeping || !s.mediaRuns || (s.hearth.level == 2 && s.framesFree != 0) then s
  else
    let round := s.sweepOrder (fun _ => true)
    sweepList (round ++ round ++ round ++ round ++ round) want s

/-- A tenant at its tier-1 quota loses a page by the sweep limited to its pages (R227). -/
def State.quotaSweep (s : State) (t : Nat) : State :=
  if (s.tier.pt.any (fun e => e.2.tenant == t && e.2.st == .demoting)) || !s.t1Full t || !s.mediaRuns then s
  else
    let round := s.sweepOrder (fun e => e.tenant == t)
    (round ++ round ++ round ++ round ++ round).foldl (fun s p =>
      if !s.t1Full t || s.tier.pt.any (fun e => e.2.tenant == t && e.2.st == .demoting) then s else s.sweepPage p) s

/-- Dirty-page records, oldest first. -/
def State.oldestRecs (s : State) : List Nat :=
  let rec ins (x : Nat × DirtyRec) : List (Nat × DirtyRec) → List (Nat × DirtyRec)
    | [] => [x]
    | y :: ys => if x.2.born < y.2.born then x :: y :: ys else y :: ins x ys
  (s.tier.recs.foldl (fun l r => ins r l) []).map Prod.fst

/-- Destage under pressure (R231): while the charge beyond what is being destaged passes HI 64ths of E, oldest first. -/
def State.pressure (s : State) : State :=
  let above (s : State) : Bool :=
    let under := (s.tier.destages.map (fun d => 64 * popcount d.2.mask)).sum
    decide (s.rd TIR_DESTAGE_HI * (s.rd TIR_DIRTY_MAX_EFF_MIB * 2 ^ 20) < 64 * (s.rd TIR_DIRTY_CHARGED_BYTES - under))
  if !above s || !s.mediaRuns then s
  else s.oldestRecs.foldl (fun s p => if above s then s.startDestage p false else s) s

/-- The page whose frame is a given one. -/
def State.pageOfFrame (s : State) (c f : Nat) : Option (Nat × Pte) :=
  s.tier.pt.find? (fun e => e.2.st != .zero && e.2.st != .media && e.2.ch == c && e.2.idx == f)

/-- The next frame leaves a channel's migration queue (R256). -/
def State.popMove (s : State) (c : Nat) : State :=
  let s := s.modChan c (fun x => { x with migq := x.migq.drop 1, moveTo := none })
  (s.wr DCH_MIGRATE_FRAMES_LEFT (s.chan c).migq.length c).retireEnd c

/-- A frame for a move out of channel c (R256): a spare one, else one of the pool as for page p; MIG_NO_SPARE where no spare is left. -/
def State.moveFrame (s : State) (c p : Nat) : Option (Nat × Nat) × State :=
  match s.takeSpare c with
  | some (d, i, s) => (some (d, i), s)
  | none =>
    let s := s.raise (0x40 + c) 9
    match s.takeFrame p with
    | some (d, i, s) => (some (d, i), s)
    | none => (none, s)

/-- Starts the move of the first frame of a channel's migration queue (R256, R257): a page goes through MOVING, or is demoted where no frame
is left and PIN does not hold it; a clean page with a NAND copy on a rank that cannot be read becomes MEDIA; a block of the page table or
the system area moves like a frame in use (R214). -/
def startMove : Nat → State → Nat → State
  | 0, s, _ => s
  | k + 1, s, c =>
    match (s.chan c).migq, (s.chan c).moveTo with
    | f :: _, none =>
      match s.pageOfFrame c f with
      | none =>
        if (s.sysHome c f).isNone then startMove k (s.popMove c) c
        else if s.hearth.level == 2 || s.halts 0xA then s
        else match s.moveFrame c 0 with
          | (some (d, i), s) => s.modChan c (fun x => { x with moveTo := some ⟨none, f, d, i, none⟩ })
          | (none, s) => s
      | some (p, e) =>
        if e.st != .resident || s.hearth.level == 2 || s.halts 0xA then s
        else if (s.chan c).unread.contains (s.rankOf c f) && !e.dirty && e.hasMedia then startMove k ((s.toMedia p).popMove c) c
        else match s.moveFrame c p with
          | (some (d, i), s) => (s.setPte p { e with st := .moving }).modChan c (fun x => { x with moveTo := some ⟨some p, f, d, i, none⟩ })
          | (none, s) => if e.pin then s else s.demote p
    | _, _ => s

/-- Moves start on every channel that has one to start. -/
def State.startMoves (s : State) : State :=
  s.tier.chans.foldl (fun s (e : Nat × Chan) =>
    if e.2.migq.isEmpty then s else startMove (e.2.migq.length + 1) s e.1) s

/-- Pages whose copy on NAND cannot be read are destaged again from their frames, without a charge (R283). -/
def State.redoGo (s : State) : State :=
  s.tier.redo.foldl (fun (s : State) p =>
    match (s.pte p).st with
    | .resident =>
      let s := s.startDestage p false
      if s.tier.destages.any (fun d => d.1 == p) then { s with tier := { s.tier with redo := s.tier.redo.filter (· != p) } } else s
    | .demoting | .moving => s
    | _ => { s with tier := { s.tier with redo := s.tier.redo.filter (· != p) } }) s

/-- Returns the charge of the lines of a mask (R230, R231). -/
def State.discharge (s : State) (p : Nat) (mask : Word64) : State :=
  match NMap.find s.tier.recs p with
  | none => s
  | some r =>
    let gone := r.mask &&& mask
    let n := 64 * popcount gone
    let left := r.mask &&& ~~~gone
    let s := s.wr TIR_DIRTY_CHARGED_BYTES (s.rd TIR_DIRTY_CHARGED_BYTES - n)
    let s := if s.owns (regionOf (p * 4096)) then s.addWused r.tenant 0 n else s
    let s : State := { s with tier := { s.tier with recs := if left = 0 then NMap.erase s.tier.recs p else NMap.insert s.tier.recs p { r with mask := left } } }
    s.setPte p { s.pte p with dirty := left != 0 }

/-- Discards a page at this twin (R236): cache lines, frame, charges, T2_USED and the NAND copy go, and it is ZERO; HEAT, AGE and PIN stay
(log 217). A page in FETCHING is discarded once its fetch lands, one of whose lines a fill is in flight once that has landed. -/
def State.discardPage (s : State) (p : Nat) : State :=
  let e := s.pte p
  match e.st with
  | .zero => s
  | .fetching => { s with tier := { s.tier with discardLater := insertNat s.tier.discardLater p } }
  | _ =>
    if s.pageFilling p then { s with tier := { s.tier with discardLater := insertNat s.tier.discardLater p } }
    else
    let s := s.dropPageLines p
    let s := s.discharge p (BitVec.allOnes 64)
    let s := if e.st == .media then s else (s.giveFrame e.ch e.idx).addT1 e.tenant 0 1
    let s := (s.unmapPage p).addT2 e.tenant 0 1
    let s := s.stagingEnds p
    let s : State := { s with tier := { s.tier with
        destages := NMap.erase s.tier.destages p, recs := NMap.erase s.tier.recs p, destageWait := NMap.erase s.tier.destageWait p
        demoteWait := s.tier.demoteWait.filter (· != p) } }
    s.setPte p { heat := e.heat, age := e.age, pin := e.pin }

/-- Discards that waited for a fill happen once it has landed. -/
def State.discardsGo (s : State) : State :=
  s.tier.discardLater.foldl (fun (s : State) p =>
    if (s.pte p).st == .fetching || s.pageFilling p then s
    else { s with tier := { s.tier with discardLater := s.tier.discardLater.filter (· != p) } }.discardPage p) s

/-- What tier state asks for on its own: pressure, the demoter, pages demoted for a quota. -/
def State.tierWork (s : State) : State :=
  let s := if s.dur.stopping then s.oldestRecs.foldl (fun s p => s.startDestage p false) s else s
  if s.tier.recs.isEmpty && s.tier.pt.isEmpty then s
  else
    let s := ((s.discardsGo.stagingGo.destageGo.demotesGo.redoGo).readAheadGo).pressure.demoter
    let ts := (s.dp.parked.filter (fun a => a.wait == .t1Quota)).map (fun a =>
      let e := s.pte (a.line / 64)
      if e.st == .zero then s.pageTenant (a.line / 64) a.tenant else e.tenant)
    (ts.eraseDups.foldl (fun s t => s.quotaSweep t) s).startMoves

/-- The end of a fetch (R222, R224): the frame is written, the page RESIDENT; a discard that waited happens now. -/
def State.fetchLands (s : State) (p : Nat) (lines : List DLine) (markDirty : Bool) : State :=
  let e := s.pte p
  let s := s.askIn .delivery (s.rd HTH_PART_MEDIA_BASE_MIB) s.hearth.layout.media 64
  let s := (s.cphCount 1).fillFrame e.ch e.idx (if s.tier.raFetch.contains p then 4 else 2) (fun j => nth {} lines j)
  let s := (s.fetchWanted p).setPte p { s.pte p with st := .resident, dirty := e.dirty || markDirty }
  let s : State := if markDirty && (NMap.find s.tier.recs p).isNone then
      { s with tier := { s.tier with recs := NMap.insert s.tier.recs p ⟨0, e.tenant, s.mono⟩ } } else s
  let s : State := { s with tier := { s.tier with recovering := s.tier.recovering.filter (· != p) } }
  if s.tier.discardLater.contains p then
    { s with tier := { s.tier with discardLater := s.tier.discardLater.filter (· != p) } }.discardPage p
  else s

/-- The MAP record of a destage is durable: its program has ended and nothing of it is pending (R287). -/
def State.destageDurable (s : State) (p : Nat) (d : Destage) : Bool :=
  match d.unit with
  | none => false
  | some a => (NMap.find s.media.progs a).isNone && (s.pte p).hasMedia && (s.pte p).media == a
      && !s.media.jpend.any (fun r => match r.rec_ with | .map _ q b _ => q == p && b == a | _ => false)

/-- The end of a destage (R221, R231): charges return but those of lines charged again during it; a demotion ends. -/
def State.destageEnds (s : State) (p : Nat) (d : Destage) : State :=
  let s := s.discharge p (d.mask &&& ~~~d.again)
  let s : State := match NMap.find s.tier.recs p with
    | some r => if r.mask = 0 then { s with tier := { s.tier with recs := NMap.erase s.tier.recs p } } else s
    | none => s
  let dirty := (NMap.find s.tier.recs p).isSome
  let s := s.setPte p { s.pte p with dirty := dirty }
  let s : State := { s with tier := { s.tier with destages := NMap.erase s.tier.destages p } }
  if d.demote then s.endDemotion p d.wrote else s

/-- No fetch, destage, demotion or move runs (R237). -/
def State.tirIdle (s : State) : Bool :=
  s.tier.destages.isEmpty && !s.tier.pt.any (fun e => e.2.st == .fetching || e.2.st == .demoting || e.2.st == .moving)
    && !s.tier.chans.any (fun e => e.2.moveTo.isSome)

/-- QUIESCED of TIR: no fetch, destage, demotion or move runs (R237); of MED: media staging is empty (R292). -/
def State.tierQuiesce (s : State) : State :=
  let s := if s.quiescing 0xA && s.tirIdle then s.wr PG_STAT_QUIESCED 1 0xA else s
  if s.quiescing 0xC && s.stagingUsed == 0 then s.wr PG_STAT_QUIESCED 1 0xC else s

/-- The pool's size is in force: the page table's share of the frames changes with it (R214, R215). -/
def State.setPool (s : State) (n : Nat) : State :=
  let cs := s.svcChannels
  let k := max 1 cs.length
  let old := s.tier.poolRegions
  let s := cs.foldl (fun s c =>
    let f := s.chFrames c
    s.setChFrames c { f with total := f.total + old * 1024 / k - n * 1024 / k }) s
  let s : State := { s with tier := { s.tier with poolRegions := n, growing := none } }
  (s.wr TIR_POOL_CFG_PT_MIB (4 * n)).wr TIR_POOL_CFG_REGIONS n

end Sys2Proof.Machine
end

