-- ==== Sys2Proof/Machine/Pool.lean ====
section
/-! DEFINITION. Packet pool and port transmitters: cells, caps, headroom, XOFF and XON, egress reserve, frames queued and
in transmission, holds (R73 to R81, R122 to R127, R135). -/

namespace Sys2Proof.Machine

/-- A port's state. -/
def State.port (s : State) (p : Nat) : Port := NMap.getD s.ports p {}

/-- Writes a port's state. -/
def State.setPort (s : State) (p : Nat) (v : Port) : State := { s with ports := NMap.put {} s.ports p v }

/-- Changes a port's state. -/
def State.modPort (s : State) (p : Nat) (f : Port → Port) : State := s.setPort p (f (s.port p))

/-- Port is UP (R135). -/
def State.portUp (s : State) (p : Nat) : Bool := s.rd PG_STAT_STATE (0x100 + p) == 4

/-- Port counter k of R139. -/
def State.hptCount (s : State) (p k : Nat) (n : Nat := 1) : State := s.inc HPT_COUNTER_COUNT n p (8 * k)

/-- The port's rate in Mbit/s (R115). -/
def State.portRate (s : State) (p : Nat) : Nat := if s.rd HPT_MODE_SPEED p = 2 then 400000 else 800000

/-- Cells of a frame of so many bytes (R73). -/
def cellsOf (bytes : Nat) : Nat := divUp bytes 256

/-- Priorities named lossless on a port (R122). -/
def State.named (s : State) (p q : Nat) : Bool :=
  match s.rd HPT_FC_CFG_FC_MODE p with
  | 1 => q == 0
  | 2 => (s.rd HPT_FC_CFG_LOSSLESS p / 2 ^ q) % 2 == 1
  | _ => false

/-- Headroom of a lossless priority in cells, as applied (R77). -/
def State.headroomCells (s : State) : Nat := s.hearth.layout.headroomKib * 4

/-- The priority is lossless now: named, with its headroom complete (R122). -/
def State.lossless (s : State) (p q : Nat) : Bool :=
  s.named p q && NMap.getD s.hearth.granted (pq p q) 0 == s.headroomCells

/-- Size of the shared part in cells (R77). -/
def State.sharedSize (s : State) : Nat :=
  s.hearth.layout.pkt * 4096 - (s.hearth.granted.map Prod.snd).sum - s.hearth.layout.egressRsv

/-- Shared cells in use. -/
def State.sharedUsed (s : State) : Nat := (s.hearth.charge.map Prod.snd).sum + s.hearth.linkCharge

/-- Shared cells free. -/
def State.sharedFree (s : State) : Nat := s.sharedSize - s.sharedUsed

/-- Headroom cells in use of a port and priority. -/
def State.headUsed (s : State) (p q : Nat) : Nat := NMap.getD s.hearth.headroom (pq p q) 0

/-- Charges shared cells to the link, keeping PEAK of entry 96 (R88). -/
def State.addLink (s : State) (n : Nat) : State :=
  let c := s.hearth.linkCharge + n
  { s with hearth := { s.hearth with linkCharge := c, peak := NMap.put 0 s.hearth.peak 96 (max (NMap.getD s.hearth.peak 96 0) c) } }

/-- Returns shared cells of the link. -/
def State.subLink (s : State) (n : Nat) : State := { s with hearth := { s.hearth with linkCharge := s.hearth.linkCharge - n } }

/-- Charges headroom cells. -/
def State.addHead (s : State) (p q n : Nat) : State :=
  { s with hearth := { s.hearth with headroom := NMap.put 0 s.hearth.headroom (pq p q) (s.headUsed p q + n) } }

/-- Returns shared cells. -/
def State.subCells (s : State) (p q n : Nat) : State :=
  { s with hearth := { s.hearth with charge := NMap.put 0 s.hearth.charge (pq p q) (s.prioCharge p q - n) } }

/-- Returns headroom cells; headroom of a priority no longer lossless goes back to the shared part once empty (R122). -/
def State.subHead (s : State) (p q n : Nat) : State :=
  let s := { s with hearth := { s.hearth with headroom := NMap.put 0 s.hearth.headroom (pq p q) (s.headUsed p q - n) } }
  if !s.named p q && s.headUsed p q == 0 then
    { s with hearth := { s.hearth with granted := NMap.put 0 s.hearth.granted (pq p q) 0 } }
  else s

/-! ### Transmitter -/

/-- The partner holds a priority: the pause time has not run out (R123). -/
def State.heldPrio (s : State) (p q : Nat) : Bool := decide (s.mono < NMap.getD (s.port p).holdUntil q 0)

/-- A priority in a storm whose frames are discarded (R126). -/
def State.stormDrop (s : State) (p q : Nat) : Bool :=
  s.rd HPT_FC_WD_ACT p == 1 && (s.rd HPT_FC_STAT_STORM p / 2 ^ q) % 2 == 1

/-- Ends a message's hold on its entries (R184): one hold of the stamp for the QP goes. -/
def State.dropHold (s : State) (stamp qpn : Nat) : State :=
  { s with prot := { s.prot with holds := s.prot.holds.eraseP (fun h => h.1 == stamp && h.2.1 == qpn) } }

/-- QP of an outgoing frame. -/
def TxBody.qpn : TxBody → Nat
  | .ack q .. => q | .nak q .. => q | .readResp q .. => q | .atomicAck q .. => q | .send q .. => q
  | _ => 0

/-- Frees what a frame holds: cells, pins, the stamp of a READ whose last packet it is (R75, R78, R184). -/
def State.freeTx (s : State) (f : TxFrame) : State :=
  let s : State := match f.body with
    | .sideband _ => s.subLink f.cells
    | _ => s.subCells f.port f.prio f.cells
  let s := s.subLink f.linkCells
  let s := { s with hearth := { s.hearth with egressUsed := s.hearth.egressUsed - f.rsvCells } }
  let s := f.pins.foldl (fun s k => s.unpin k) s
  match f.stampOf with
  | some st => s.dropHold st f.body.qpn
  | none => s

/-- Adds priorities whose state changes to the pause frame of a flow-control mode that waits for the next boundary (R122, R125). -/
def State.queuePauseAs (s : State) (mode p : Nat) (qs : List (Nat × Nat)) : State :=
  if qs.isEmpty then s
  else if mode = 1 then
    let f : TxFrame := { port := p, prio := 0, len := 64, body := .pause ((qs.getLast?.map Prod.snd).getD 0) }
    s.modPort p (fun x => { x with ctl := x.ctl.filter (fun g => match g.body with | .pause _ => false | _ => true) ++ [f] })
  else
    let old := ((s.port p).ctl.filterMap (fun g => match g.body with | .pfc l => some l | _ => none)).flatten
    let b := (old.filter (fun e => !qs.any (fun n => n.1 == e.1))) ++ qs
    s.modPort p (fun x => { x with ctl := x.ctl.filter (fun g => match g.body with | .pfc _ => false | _ => true)
      ++ [{ port := p, prio := 0, len := 64, body := .pfc b }] })

/-- Adds priorities to the pause frame of the port's mode. -/
def State.queuePause (s : State) (p : Nat) (qs : List (Nat × Nat)) : State := s.queuePauseAs (s.rd HPT_FC_CFG_FC_MODE p) p qs

/-- Pause frames sent are counted by priority (R139). -/
def State.countPause (s : State) (p : Nat) : TxBody → State
  | .pfc qs => qs.foldl (fun s e => s.hptCount p (24 + e.1)) s
  | .pause _ => s.hptCount p 24
  | _ => s

/-- Frames that leave a port's queue unsent at this boundary: all of a port that is not UP (R135), a storm's priorities (R126), one
longer than MAX_FRAME at the head of its priority (R120; log 210). Whether there were any. -/
def State.dropTx (s : State) (p : Nat) : State × Bool :=
  let x := s.port p
  if x.cur.isSome then (s, false)
  else if !s.portUp p then
    let s := x.txq.foldl (fun s f => (s.freeTx f).hptCount p 9) s
    (s.modPort p (fun x => { x with txq := [], ctl := [] }), !x.txq.isEmpty)
  else if !x.ctl.isEmpty then (s, false)
  else
    let drop := x.txq.filter (fun f => s.stormDrop p f.prio)
    let s := drop.foldl (fun s f => (s.freeTx f).hptCount p 10) s
    let long (f : TxFrame) : Bool := decide (s.rd HPT_FRAME_MAX_FRAME p < f.len)
    let tooLong := x.txq.filter (fun f => !s.stormDrop p f.prio && long f)
    let s := tooLong.foldl (fun s f => s.freeTx f) s
    (s.modPort p (fun x => { x with txq := x.txq.filter (fun f => !s.stormDrop p f.prio && !long f) }), !drop.isEmpty || !tooLong.isEmpty)

/-- At a frame boundary the transmitter takes its next frame: a pause frame first, else the first queued frame that nothing holds
(R124, R125). -/
def State.pickTx (s : State) (p : Nat) : State :=
  let x := s.port p
  if x.cur.isSome || !s.portUp p then s
  else match x.ctl with
    | f :: r => (s.modPort p (fun x => { x with ctl := r, cur := some f })).countPause p f.body
    | [] =>
      match x.txq.find? (fun f => !s.heldPrio p f.prio && !f.paced) with
      | some f =>
        let d := ((x.txq.filter (fun g => g.prio == f.prio)).map (fun g => g.len)).sum
        s.modPort p (fun x => { x with txq := x.txq.erase f, cur := some { f with depth := d } })
      | none => s

/-! ### Outgoing chains (R74, R75, R77, R78, R81) -/

/-- Response, ACK and NAK chains: those the egress reserve is kept for (R77). -/
def TxBody.isAnswer : TxBody → Bool
  | .ack .. | .nak .. | .readResp .. | .atomicAck .. => true
  | _ => false

/-- The frame is charged to the link (R78). -/
def TxBody.isSideband : TxBody → Bool
  | .sideband _ => true
  | _ => false

/-- Takes cells for an outgoing chain: shared first, the egress reserve for an answer when that would pass a cap or the shared part is
empty; none where there are none (R77, R81). Sideband frames are charged to the link (R78). -/
def State.chargeTx (s : State) (f : TxFrame) (n : Nat) : Option (State × TxFrame) :=
  if f.body.isSideband then
    if s.hearth.linkCharge + n ≤ s.rd HTH_CELL_RSV_LINK_CAP && n ≤ s.sharedFree then some (s.addLink n, { f with cells := n }) else none
  else if s.portCharge f.port + n ≤ s.rd HTH_CELL_CAPS_PORT_CAP && s.prioCharge f.port f.prio + n ≤ s.rd HTH_CELL_CAPS_PRIO_CAP
      && n ≤ s.sharedFree then
    some (s.addCells f.port f.prio n, { f with cells := n })
  else if f.body.isAnswer && decide (s.hearth.egressUsed + n ≤ s.hearth.layout.egressRsv) then
    some ({ s with hearth := { s.hearth with egressUsed := s.hearth.egressUsed + n } }, { f with rsvCells := n })
  else none

/-- Cells of a chain whose gather list has n entries (R74). -/
def chainCells (n : Nat) : Nat := 1 + divUp (n - 16) 32

/-- How the lines of a gather list are held as the list is built (R74, R75): the ways to pin, lines copied because of 255 pins, lines
that lie in no way. -/
def State.gather (s : State) (ks : List Nat) : List Nat × Nat × Nat :=
  ks.foldl (fun (r : List Nat × Nat × Nat) k =>
    match s.findWay k with
    | some (i, w) =>
      if w.st == .filling then (r.1, r.2.1, r.2.2 + 1)
      else if 255 ≤ w.pins then (r.1, r.2.1 + 1, r.2.2)
      else (r.1 ++ [i], r.2.1, r.2.2)
    | none => (r.1, r.2.1, r.2.2 + 1)) ([], 0, 0)

/-- Cells a frame takes (R73, R74): a READ response an entry for each pinned line and each cell with a copy or with bytes that lie in
no line, beside those cells; a SEND its payload's cells; other frames their bytes (log 209). -/
def TxFrame.chainOf (f : TxFrame) (pins copies loose : Nat) : Nat :=
  match f.body with
  | .readResp .. =>
    let own := copies + divUp (64 * loose) 256
    chainCells (pins + own + f.linkCells) + own
  | .send _ _ pay => let own := cellsOf pay.length; chainCells own + own
  | .ack .. | .nak .. | .atomicAck .. => 1
  | _ => cellsOf f.len

/-- Returns the cells of a request (R78). -/
def State.freeRx (s : State) (h : Nat × Nat × Nat × Bool) : State :=
  if h.2.2.2 then s.subHead h.1 h.2.1 h.2.2.1 else s.subCells h.1 h.2.1 h.2.2.1

/-- Builds a chain and queues its frame, where it gets its cells: its lines are pinned, its request's cells return (R74, R75, R78).
COPIES.PIN_SAT counts the response. -/
def State.buildTx (s : State) (w : EgressWait) : Option State :=
  let (ps, copies, loose) := s.gather w.lines
  match s.chargeTx w.frame (w.frame.chainOf ps.length copies loose) with
  | none => none
  | some (s, f) =>
    let s := ps.foldl (fun s i => s.pin i) s
    let s := if copies = 0 then s else s.satInc HTH_COPIES_PIN_SAT 1
    let s := s.modPort f.port (fun x => { x with txq := x.txq ++ [{ f with pins := ps }] })
    some (w.frees.foldl (fun s h => s.freeRx h) s)

/-- Chains whose building waits are built as cells free, the oldest first; one that still finds none lets later ones pass (R81; DESIGN CHOICE, log 203).
Gives the ports of the frames built and those whose cells returned. -/
def State.egressRetry (s : State) : State × List Nat × List Nat :=
  s.hearth.egressWait.foldl (fun (r : State × List Nat × List Nat) w =>
    match r.1.buildTx w with
    | some s => (s, r.2.1 ++ [w.frame.port], r.2.2 ++ w.frees.map Prod.fst)
    | none => ({ r.1 with hearth := { r.1.hearth with egressWait := r.1.hearth.egressWait ++ [w] } }, r.2))
    ({ s with hearth := { s.hearth with egressWait := [] } }, [], [])

/-! ### XOFF, XON, headroom -/

/-- Priorities of a port that are lossless. -/
def State.losslessList (s : State) (p : Nat) : List Nat := (List.range 8).filter (fun q => s.lossless p q)

/-- XOFF sent for a port and priority, not ended by an XON (R80). -/
def State.xoffSent (s : State) (p q : Nat) : Bool := (s.rd HPT_FC_STAT_TX_XOFF p / 2 ^ q) % 2 == 1

/-- The conditions of R80 for an XON. XON_GAP above a cap leaves a charge of 0 as the bound (DESIGN CHOICE, log 202). -/
def State.xonOk (s : State) (p q : Nat) : Bool :=
  let gap := s.rd HTH_PFC_CFG_XON_GAP
  decide (s.portCharge p ≤ s.rd HTH_CELL_CAPS_PORT_CAP - gap) && decide (s.prioCharge p q ≤ s.rd HTH_CELL_CAPS_PRIO_CAP - gap)
    && s.headUsed p q == 0 && s.hearth.level != 2

/-- XOFFs end: a frame of pause time zero in the mode that paused them waits for the next boundary (R80, R122, R125). -/
def State.endXoff (s : State) (mode p : Nat) (qs : List Nat) : State :=
  let s := qs.foldl (fun s q =>
    let s := s.wr HPT_FC_STAT_TX_XOFF (s.rd HPT_FC_STAT_TX_XOFF p - 2 ^ q) p
    s.modPort p (fun x => { x with xoffAt := NMap.erase x.xoffAt q })) s
  s.queuePauseAs mode p (qs.map (fun q => (q, 0)))

/-- Priorities of a port whose XON is due. -/
def State.xonDue (s : State) (p : Nat) : List Nat :=
  if (s.port p).xoffAt.isEmpty then [] else (List.range 8).filter (fun q => s.xoffSent p q && s.xonOk p q)

/-- FC_STAT.PENDING of a priority, and its place among those whose headroom is pending. -/
def State.setPending (s : State) (p q : Nat) (on : Bool) : State :=
  let old := s.rd HPT_FC_STAT_PENDING p
  let s := s.wr HPT_FC_STAT_PENDING (if on then old ||| 2 ^ q else old &&& (255 - 2 ^ q)) p
  let rest := s.hearth.headPending.filter (· != (p, q))
  { s with hearth := { s.hearth with headPending := if on then rest ++ [(p, q)] else rest } }

/-- A priority named lossless whose headroom is not complete takes cells as they free; refused where the shared part
would shrink below 16 MiB (R77, R122). -/
def State.grantHeadroom (s : State) (p q : Nat) (first : Bool) : State :=
  if !s.named p q then s
  else
    let g := NMap.getD s.hearth.granted (pq p q) 0
    let need := s.headroomCells - g
    if need = 0 then s.setPending p q false
    else if s.sharedSize < need + 65536 then (s.setPending p q true).raiseIf first 8 4
    else
      let t := min need s.sharedFree
      let s := { s with hearth := { s.hearth with granted := NMap.put 0 s.hearth.granted (pq p q) (g + t) } }
      s.setPending p q (t != need)

/-- Pending headroom takes cells that have freed, whoever held them (R122). -/
def State.grantPending (s : State) : State := s.hearth.headPending.foldl (fun s h => s.grantHeadroom h.1 h.2 false) s

/-- No cell is charged to a port (R78, R137): of the shared part, of its headroom, of the egress reserve. -/
def State.portEmpty (s : State) (p : Nat) : Bool :=
  s.portCharge p == 0 && (List.range 8).all (fun q => s.headUsed p q == 0)
    && ((s.port p).cur.toList ++ (s.port p).txq).all (fun f => f.rsvCells == 0)

/-- What follows cells freed on a port, or of the link (96): waiting chains are built, pending headroom takes cells, XONs are due, a
quiescing port may be QUIESCED (R80, R81, R122, R137). Gives the ports with a frame to send and those whose cells returned. -/
def State.afterCells (s : State) (p : Nat) : State × List Nat × List Nat :=
  let (s, ps, fs) := s.egressRetry
  let s := s.grantPending
  let s := s.endXoff (s.rd HPT_FC_CFG_FC_MODE p) p (s.xonDue p)
  let s := if s.quiescing (0x100 + p) && s.portEmpty p then s.wr PG_STAT_QUIESCED 1 (0x100 + p) else s
  (s, ps ++ [p], fs)

/-- Runs the transmitters of some ports on, and what freed cells let go on, until nothing more can. -/
def txGo : Nat → List Nat → List Nat → State → State
  | 0, _, _, s => s
  | k + 1, ps, fs, s =>
    match fs, ps with
    | f :: fs, ps =>
      let (s, ps2, fs2) := s.afterCells f
      txGo k (ps ++ ps2) (fs ++ fs2) s
    | [], p :: ps =>
      let (s, freed) := s.dropTx p
      if freed then txGo k (p :: ps) [p] s else txGo k ps [] (s.pickTx p)
    | [], [] => s

/-- Steps enough for every frame queued and every chain that waits, with the request cells each frees as it is built. -/
def State.txSteps (s : State) : Nat := 8 + 6 * ((s.ports.map (fun e => e.2.txq.length)).sum + (s.hearth.egressWait.map (fun w => 1 + w.frees.length)).sum)

/-- A port's transmitter goes on: of a port that is not UP its queue is discarded (R124 to R126, R135). -/
def State.startTx (s : State) (p : Nat) : State := txGo s.txSteps [p] [] s

/-- What follows cells freed on a port. -/
def State.afterFree (s : State) (p : Nat) : State := txGo s.txSteps [] [p] s

/-- A chain is built and its frame queued; without cells its building waits, and EGRESS_WAIT is raised where an answer finds the reserve
empty as well (R81, R89). -/
def State.queueChain (s : State) (w : EgressWait) : State :=
  match s.buildTx w with
  | some s => txGo (s.txSteps + 2 * w.frees.length) [w.frame.port] (w.frees.map Prod.fst) s
  | none =>
    let s := s.raiseIf w.frame.body.isAnswer 8 8
    { s with hearth := { s.hearth with egressWait := s.hearth.egressWait ++ [w] } }

/-- Queues a frame whose payload comes from some lines. -/
def State.queueTx (s : State) (f : TxFrame) (lines : List Nat) : State := s.queueChain { frame := f, lines := lines }

/-- Sends XOFF for priorities not yet paused (R79, R125). -/
def State.sendXoff (s : State) (p : Nat) (qs : List Nat) : State :=
  let qs := qs.filter (fun q => !s.xoffSent p q)
  let s := qs.foldl (fun s q =>
    let s := s.wr HPT_FC_STAT_TX_XOFF (s.rd HPT_FC_STAT_TX_XOFF p ||| 2 ^ q) p
    s.modPort p (fun x => { x with xoffAt := NMap.insert x.xoffAt q (s.mono + us (s.rd HPT_FC_CFG_REFRESH_US p)) })) s
  (s.queuePause p (qs.map (fun q => (q, s.rd HPT_FC_CFG_XOFF_QUANTA p)))).startTx p

/-- Ends XOFFs as `endXoff` says, at the next boundary. -/
def State.sendXon (s : State) (mode p : Nat) (qs : List Nat) : State := (s.endXoff mode p qs).startTx p

/-- XON of every priority of a port whose conditions hold. -/
def State.xonCheck (s : State) (p : Nat) : State := s.sendXon (s.rd HPT_FC_CFG_FC_MODE p) p (s.xonDue p)

/-- A received frame is consumed: its cells return (R78). -/
def State.consumeRx (s : State) (p : Nat) (f : RxFrame) : State := (s.freeRx (p, f.prio, f.cells, f.inHeadroom)).afterFree p

/-- The oldest received frame of a port that a test admits, taken out of its queue. -/
def State.popRx (s : State) (p : Nat) (ok : RxFrame → Bool) : Option (RxFrame × State) :=
  match (s.port p).rxq.find? ok with
  | some f => some (f, s.modPort p (fun x => { x with rxq := x.rxq.erase f }))
  | none => none

/-- Headroom of every priority a port names lossless is reserved at once (R122): where a layout comes into force. -/
def State.reserveHeadroom (s : State) : State :=
  (List.range 96).foldl (fun (s : State) p =>
    let s := s.wr HPT_FC_STAT_PENDING 0 p
    let s : State := { s with hearth := { s.hearth with headPending := [] } }
    (List.range 8).foldl (fun (s : State) q =>
      { s with hearth := { s.hearth with granted := NMap.put 0 s.hearth.granted (pq p q) (if s.named p q then s.headroomCells else 0) } }) s) s

/-! ### The damper's level (R84, R85) -/

/-- Time spent at the level in force is added up (DMP_TIME_HALF, DMP_TIME_SHUT). -/
def State.damperTime (s : State) : State :=
  let d := s.mono - s.hearth.levelSince
  let s := match s.hearth.level with
    | 1 => s.inc HTH_DMP_TIME_HALF_NS d
    | 2 => s.inc HTH_DMP_TIME_SHUT_NS d
    | _ => s
  { s with hearth := { s.hearth with levelSince := s.mono } }

/-- The level in force changes: its event, SHUT_ENTRIES, XOFF on every lossless priority of every port at SHUT, XON where R80
allows it after SHUT (R79, R80, R84, R89). -/
def State.setLevel (s : State) (l : Nat) : State :=
  let old := s.hearth.level
  if l = old then s
  else
    let s := s.damperTime
    let s := ({ s with hearth := { s.hearth with level := l } }).wr HTH_DMP_STAT_LEVEL l
    let s := s.raise 8 (match l with | 1 => 0 | 2 => 1 | _ => 2)
    if l = 2 then
      (List.range 96).foldl (fun (s : State) p => s.sendXoff p (s.losslessList p)) (s.satInc HTH_DMP_STAT_SHUT_ENTRIES 1)
    else if old = 2 then (List.range 96).foldl (fun (s : State) p => s.xonCheck p) s
    else s

/-- A frame takes headroom cells of its port and priority, or overruns them (R79). -/
def State.takeHead (s : State) (p q n : Nat) : State × Option Bool :=
  if s.headUsed p q + n ≤ s.headroomCells then (s.addHead p q n, some true)
  else ((s.satInc HTH_DROPS_OVERRUN 1).raise 8 3, none)

/-- Outcome of admitting a frame (R79): it takes headroom or shared cells, or is dropped. -/
def State.admitFrame (s : State) (p q n : Nat) : State × Option Bool :=
  let ll := s.lossless p q
  if ll && s.xoffSent p q then s.takeHead p q n
  else
    let portOver := decide (s.rd HTH_CELL_CAPS_PORT_CAP < s.portCharge p + n)
    let prioOver := decide (s.rd HTH_CELL_CAPS_PRIO_CAP < s.prioCharge p q + n)
    let shut := s.hearth.level == 2
    if portOver || prioOver || shut || decide (s.sharedFree < n) then
      if ll then (s.sendXoff p (if portOver then s.losslessList p else [q])).takeHead p q n
      else (s.satInc HTH_DROPS_LOSSY 1, none)
    else (s.addCells p q n, some false)

end Sys2Proof.Machine
end

