-- ==== Sys2Proof/Machine/KeyOps.lean ====
section
/-! DEFINITION. The key unit's operations: entries, the check on every access, failures, stamps and the drain, and the
admission steps that follow the check (R177 to R189, R193, R228, R232). -/

namespace Sys2Proof.Machine

/-- A key entry (R177). -/
def State.key (s : State) (k : Nat) : Key := NMap.getD s.prot.keys k {}

/-- Writes a key entry. -/
def State.setKey (s : State) (k : Nat) (e : Key) : State :=
  { s with prot := { s.prot with keys := NMap.put {} s.prot.keys k e } }

/-- Key entries the table portion holds: its bytes less the region table, the tenant table and 6 MiB for chains, by 32
(R180, R198). -/
def State.keyRoom (s : State) : Nat :=
  ((s.hearth.layout.ctx - s.hearth.layout.qpMib) * 2 ^ 20 - 163840 * 8 - 256 * 64 - 6 * 2 ^ 20) / 32

/-- QP contexts the QP portion holds (R67, R69). -/
def State.ctxRoom (s : State) : Nat := s.hearth.layout.qpMib * 2 ^ 20 / 512

/-- An item becomes the most recently used of a resident list kept oldest first. -/
def useLru (l : List Nat) (x : Nat) : List Nat := l.filter (· != x) ++ [x]

/-- The rights bit an operation needs (R182): bit numbers of word 0. -/
def rightOf : OpKind → Nat
  | .read => 4
  | .write | .atomicWrite => 5
  | .cas | .fadd => 6
  | .flush _ => 7
  | .copySrc | .notifySrc => 8
  | _ => 9

/-- Causes of KEY.LAST_FAIL: INVALID 1, GEN 2, TENANT 3, RIGHTS 4, BOUNDS 5, REGION 6. -/
def State.keyCheck (s : State) (rkey : Nat) (useGen : Bool) (tenant : Nat) (right : Nat) (range : Option (Nat × Nat)) :
    Except Nat (Key × Nat) :=
  let k := rkey / 4096
  let e := s.key k
  if k = 0 ∨ !e.valid then .error 1
  else if useGen && e.gen != rkey % 4096 then .error 2
  else if e.tenant != tenant || (s.tenant e.tenant).state != 1 then .error 3
  else if (e.rights / 2 ^ (right - 4)) % 2 = 0 then .error 4
  else match range with
    | none => .ok (e, e.poolBase)
    | some (va, len) =>
      if va < e.vaBase ∨ e.vaBase + e.length < va + len then .error 5
      else
        let pool := e.poolBase + (va - e.vaBase)
        let r0 := regionOf pool
        let r1 := regionOf (pool + max len 1 - 1)
        if (List.range (r1 + 1 - r0)).all (fun i =>
            let g := s.region (r0 + i)
            g.en && (g.tenant == e.tenant || g.shared)) then .ok (e, pool)
        else .error 6

/-- Records a failed check (R181, R197): its counter, LAST_FAIL, ACCESS_FAIL after 1 ms without a failure. -/
def State.keyFail (s : State) (cause key qpn : Nat) : State :=
  let s := match cause with
    | 1 => s.satInc KEY_FAIL_A_INVALID 1
    | 2 => s.satInc KEY_FAIL_A_GEN 1
    | 3 => s.satInc KEY_FAIL_A_TENANT 1
    | 4 => s.satInc KEY_FAIL_A_RIGHTS 1
    | 5 => s.satInc KEY_FAIL_B_BOUNDS 1
    | _ => s.satInc KEY_FAIL_B_REGION 1
  let s := ((s.wr KEY_LAST_FAIL_CAUSE cause).wr KEY_LAST_FAIL_KEY key).wr KEY_LAST_FAIL_QPN qpn
  let quiet := match s.prot.lastFail with | none => true | some t => decide (ms 1 ≤ s.mono - t)
  let s := if quiet then s.raiseArg 7 0 (s.reg (KEY_LAST_FAIL_CAUSE.key)) else s
  { s with prot := { s.prot with lastFail := some s.mono } }

/-- PROT_SEQ in force (R191). -/
def State.protSeq (s : State) : Nat := s.rd KEY_PROT_SEQ_SEQ

/-- A message takes its stamp and holds a key's entry (R184). -/
def State.takeHold (s : State) (qpn key : Nat) : State × Nat :=
  let st := s.protSeq
  ({ s with prot := { s.prot with holds := s.prot.holds ++ [(st, qpn, key)] } }, st)

/-- Smallest stamp a local message holds (R193). -/
def State.minStamp (s : State) : Option Nat :=
  s.prot.holds.foldl (fun m h => match m with | none => some h.1 | some x => some (min x h.1)) none

/-- The smallest stamp in force: PROT_SEQ where no message holds one (R193). -/
def State.stampFloor (s : State) : Nat := match s.minStamp with | some x => min x s.protSeq | none => s.protSeq

/-- Recomputes GEN_DRAIN and DRAIN_HOLD (R193): paired, as the last confirmed epoch told both twins' smallest stamps; on a U96 serving
alone from its own holders of the moment. -/
def State.drainUpdate (s : State) : State :=
  let own := s.minStamp
  let seq := s.protSeq
  let d := if s.paired then min seq (min s.prot.ownFloor s.prot.twinFloor) else s.stampFloor
  let d := max d (s.rd KEY_GEN_DRAIN_DRAINED_SEQ)
  let s := (s.wr KEY_GEN_DRAIN_DRAINED_SEQ d).wr KEY_GEN_DRAIN_IDLE (b2n (own.isNone && (!s.paired || s.prot.twinIdle)))
  let s := s.wr KEY_DRAIN_HOLD_HOLDERS (s.prot.holds.filter (fun h => decide (h.1 < seq))).length
  let s := s.wr KEY_DRAIN_HOLD_OLDEST_QPN
    (match own with | some m => ((s.prot.holds.find? (fun h => h.1 == m)).map (fun h => h.2.1)).getD 0 | none => 0)
  if d < seq then
    (if s.prot.belowSince.isSome then s else { s with prot := { s.prot with belowSince := some s.mono } })
  else { s with prot := { s.prot with belowSince := none, slowSaid := false } }

/-- Whether a key's entry is resident, else its load is asked for (R180). Key 0 has none. -/
def State.keyReady (s : State) (i : Nat) : Bool × State :=
  if i = 0 then (true, s)
  else if s.prot.resident.contains i then (true, { s with prot := { s.prot with resident := useLru s.prot.resident i } })
  else if s.prot.loads.contains i then (false, s)
  else (false, { s with prot := { s.prot with loads := s.prot.loads ++ [i] } })

/-- Every key of a list is resident; the missing ones are asked for (R180). -/
def State.keysReady (s : State) (ks : List Nat) : Bool × State :=
  ks.foldl (fun (r : Bool × State) i =>
    let (b, s) := r.2.keyReady i
    (r.1 && b, s)) (true, s)

/-! ### Admission (R183) -/

/-- Causes of an RNR NAK. -/
inductive Rnr where
  | budget | window | quota | recv | region
  deriving DecidableEq, Repr

/-- The NAND program window of this U96 is closed (MED.WIN_STAT, R278). -/
def State.windowClosed (s : State) : Bool := s.rd MED_WIN_STAT_CLOSED == 1

/-- ZERO pages a range covers (R228). -/
def State.zeroPages (s : State) (pool len : Nat) : Nat :=
  let p0 := pool / 4096
  let p1 := (pool + max len 1 - 1) / 4096
  let n := p1 + 1 - p0
  n - (s.tier.pt.filter (fun e => decide (p0 ≤ e.1 ∧ e.1 ≤ p1) && e.2.st != .zero)).length

/-- The dirty budget refuses a need at a twin (R232). -/
def State.budgetRefuses (s : State) (need : Nat) : Option Rnr :=
  let c := s.rd TIR_DIRTY_CHARGED_BYTES + s.rd TIR_DIRTY_RESERVED_BYTES
  if s.rd TIR_DIRTY_MAX_EFF_MIB * 2 ^ 20 < c + need || decide (s.rd TIR_DIRTY_PAGES_MAX ≤ s.tier.recs.length) then
    some (if s.windowClosed then .window else .budget)
  else if s.paired && (decide (s.tier.twinBudget * 2 ^ 20 < s.tier.twinCharged + need)
      || decide (s.tier.twinPagesMax ≤ s.tier.twinPages)) then
    some (if s.tier.twinWindowClosed then .window else .budget)
  else none

/-- Parts of a pool range in one region each. -/
def regionParts (pool need : Nat) : List (Nat × Nat) :=
  let r0 := regionOf pool
  let r1 := regionOf (pool + max need 1 - 1)
  (List.range (r1 + 1 - r0)).map (fun i =>
    let a := max pool ((r0 + i) * 2 ^ 30)
    let b := min (pool + need) ((r0 + i + 1) * 2 ^ 30)
    (a, b - a))

/-- What a message reserves with each owner of its range: this twin, the other one. An atomic reserves 64 bytes with the owner of its 8. -/
def State.needsAt (s : State) (pool len need : Nat) : Nat × Nat :=
  if regionOf pool = regionOf (pool + max len 1 - 1) then (if s.owns (regionOf pool) then (need, 0) else (0, need))
  else
    let ps := regionParts pool len
    (((ps.filter (fun x => s.owns (regionOf x.1))).map Prod.snd).sum, ((ps.filter (fun x => !s.owns (regionOf x.1))).map Prod.snd).sum)

/-- The quota refuses (R187, R228): the tenant's write quota at each owner, its tier-2 quota. -/
def State.quotaRefuses (s : State) (t pool len need : Nat) : Bool :=
  let r := s.tenant t
  let (own, other) := s.needsAt pool len need
  let full (used n : Nat) : Bool := n != 0 && r.wquota != 0xFFFFFFFF && decide (r.wquota * 2 ^ 20 < used + n)
  full r.wused own || full (r.twinWused + r.fwdRsv) other
    || decide (NMap.getD s.tier.t2Quota t 0xFFFFFFFFFF < NMap.getD s.tier.t2Used t 0 + s.zeroPages pool len)

/-- Every region of a range is served by some twin (R188, RNR_REGION). -/
def State.regionsServed (s : State) (pool len : Nat) : Bool :=
  let r0 := regionOf pool
  let r1 := regionOf (pool + max len 1 - 1)
  (List.range (r1 + 1 - r0)).all (fun i => (s.region (r0 + i)).served)

/-- Steps 1 to 3 of R183 for a write of `need` reserved bytes. -/
def State.admitWrite (s : State) (t pool len need : Nat) : Option Rnr :=
  if !s.regionsServed pool len then some .region
  else if s.quotaRefuses t pool len need then some .quota
  else s.budgetRefuses need

/-- Reserves a message's bytes against the budget and the quota (R163, R187, R232). -/
def State.reserveAt (s : State) (t pool need : Nat) : State :=
  let s := s.wr TIR_DIRTY_RESERVED_BYTES (s.rd TIR_DIRTY_RESERVED_BYTES + need)
  if s.owns (regionOf pool) then s.addWused t need 0
  else let r := s.tenant t; s.setTenant t { r with fwdRsv := r.fwdRsv + need }

/-- Gives a reservation back: at its owner, or at the home of a forwarded write. -/
def State.unreserveAt (s : State) (t pool n : Nat) : State :=
  if s.owns (regionOf pool) then s.unreserve t n
  else
    let s := s.wr TIR_DIRTY_RESERVED_BYTES (s.rd TIR_DIRTY_RESERVED_BYTES - n)
    let r := s.tenant t
    s.setTenant t { r with fwdRsv := r.fwdRsv - n }

/-- Reserves a range, each part with its region's owner. -/
def State.reserve (s : State) (t pool need : Nat) : State := (regionParts pool need).foldl (fun s x => s.reserveAt t x.1 x.2) s

/-- Gives a range's reservation back. -/
def State.unreserveRange (s : State) (t pool n : Nat) : State := (regionParts pool n).foldl (fun s x => s.unreserveAt t x.1 x.2) s

/-- RDX counter k (R174). -/
def State.rdxCount (s : State) (k : Nat) (n : Nat := 1) : State := s.inc RDX_COUNTER_COUNT n 0 (8 * k)

/-- Counters and events of an RNR NAK (R160, R175, R197, R239). -/
def State.rnrCount (s : State) (r : Rnr) : State :=
  let quiet (t : Option Nat) : Bool := match t with | none => true | some t => decide (ms 1 ≤ s.mono - t)
  let s := s.raiseIf (quiet s.prot.lastRnr) 0x11 3
  let s := { s with prot := { s.prot with lastRnr := some s.mono } }
  match r with
  | .budget =>
    let s := (s.rdxCount 8).raiseIf (quiet s.tier.lastBudget) 0xA 0
    { s with tier := { s.tier with lastBudget := some s.mono } }
  | .window =>
    let s := (s.rdxCount 9).raiseIf (quiet s.tier.lastBudget) 0xA 0
    { s with tier := { s.tier with lastBudget := some s.mono } }
  | .quota =>
    let s := (s.rdxCount 19).raiseIf (quiet s.prot.lastQuota) 7 5
    { s with prot := { s.prot with lastQuota := some s.mono } }
  | .recv => s.rdxCount 10
  | .region => s.rdxCount 11

end Sys2Proof.Machine
end

