-- ==== Sys2Proof/Machine/QpOps.lean ====
section
/-! DEFINITION. QP contexts and answers: the context's fields, entering ERROR and RESET, the frames of answers, and their
release in PSN order at the ACK points of R10 and R154 (R145, R146, R154, R155, R160 to R165, R168). -/

namespace Sys2Proof.Machine

/-- A QP's engine state. -/
def State.qp (s : State) (n : Nat) : Qp := NMap.getD s.qps n {}

/-- Writes a QP's engine state. -/
def State.setQp (s : State) (n : Nat) (q : Qp) : State := { s with qps := NMap.put {} s.qps n q }

/-- Changes a QP's engine state. -/
def State.modQp (s : State) (n : Nat) (f : Qp → Qp) : State := s.setQp n (f (s.qp n))

/-- Bits [hi:lo] of context word w (R146). -/
def State.qf (s : State) (n w hi lo : Nat) : Nat := bits (NMap.getD (s.qp n).words w 0) hi lo

/-- Writes bits of a context word. -/
def State.setQf (s : State) (n w hi lo v : Nat) : State :=
  s.modQp n (fun q => { q with words := NMap.put 0 q.words w (setBits (NMap.getD q.words w 0) hi lo v) })

/-- Fields of R146 used most. -/
def State.qState (s : State) (n : Nat) : Nat := s.qf n 0 2 0
def State.qPmtu (s : State) (n : Nat) : Nat := 128 * 2 ^ s.qf n 0 6 4
def State.qHosted (s : State) (n : Nat) : Bool := s.qf n 0 7 7 == 1
def State.qTenant (s : State) (n : Nat) : Nat := s.qf n 0 15 8
def State.qPort (s : State) (n : Nat) : Nat := s.qf n 0 22 16
def State.qEpsn (s : State) (n : Nat) : Nat := s.qf n 1 55 32

/-- The QPN lies in a twin's range (R13): true for twin B's. -/
def qpnRange (n : Nat) : Option Bool :=
  if 0x10000 ≤ n ∧ n ≤ 0x1FFFF then some false
  else if 0x20000 ≤ n ∧ n ≤ 0x2FFFF then some true
  else none

/-- This twin is the QP's home (R144): its own range, unless the twin still hosts it, or hosted after a takeover (R361). -/
def State.homeOf (s : State) (n : Nat) : Bool :=
  (qpnRange n == some s.twinB && !s.pair.away) || (qpnRange n == some (!s.twinB) && s.qHosted n)

/-- QPNs this twin serves that are not in RESET. -/
def State.liveQps (s : State) : List Nat := (s.qps.filter (fun e => s.homeOf e.1 && s.qState e.1 != 0)).map Prod.fst

/-- Codes of operations in the record of a context. -/
def OpKind.code : OpKind → Nat
  | .write => 1 | .send => 2 | _ => 0

/-- Engine-internal words 16 to 23 of a context's record (R146, R350; log 212): the MSN once everything placed is answered, and the
message in progress. -/
def msgWords (msn : Nat) (m : Option Msg) : List (Nat × Word64) :=
  let w (i v : Nat) : Nat × Word64 := (i, BitVec.ofNat 64 v)
  match m with
  | none => [w 16 (msn % 2 ^ 24)]
  | some m => [w 16 (msn % 2 ^ 24 + 2 ^ 24 + m.kind.code * 2 ^ 25 + m.cls * 2 ^ 29 + m.tenant * 2 ^ 32 + m.sink * 2 ^ 40), w 17 m.nextPool, w 18 (m.left + m.len * 2 ^ 32),
      w 19 (m.chain + m.key * 2 ^ 32), w 20 m.slot, w 21 m.got, w 22 m.reserve]

/-- The message in progress that a context's record holds. -/
def msgOfWords (ws : NMap Word64) : Option Msg :=
  let g (i hi lo : Nat) : Nat := bits (NMap.getD ws i 0) hi lo
  if g 16 24 24 = 0 then none
  else some { kind := if g 16 28 25 = 1 then .write else .send, cls := g 16 30 29, tenant := g 16 39 32, sink := g 16 41 40, nextPool := g 17 63 0, left := g 18 31 0, len := g 18 63 32
              stamp := none, chain := g 19 31 0, key := g 19 63 32, slot := g 20 63 0, got := g 21 63 0, reserve := g 22 63 0 }

/-- Stages a QP's context into the open epoch (R350). EPSN and the message in progress are those before the first operation that is not
placed, so that no confirmed epoch holds a context ahead of its effects (R167); an arming message's is its capture (R204). -/
def State.stageQp (s : State) (n : Nat) : State :=
  let ws := (s.qp n).words
  let ops := s.dp.ops.filter (fun o => o.for_ == .host n && (match o.kind with | .nak _ => false | _ => true))
  let done := ops.takeWhile (fun o => o.placed || (match o.kind with | .arm _ => true | _ => false))
  let left := (ops.drop done.length).head?
  let epsn := match left with | some o => o.psn | none => s.qEpsn n
  let msg := match left with | some o => o.before | none => (s.qp n).msg
  let msn := s.qf n 2 23 0 + (done.filter (fun o => o.endsMsg)).length
  let w1 := setBits (NMap.getD ws 1 0) 55 32 epsn
  s.stage (.qpCtx n ((List.range 16).map (fun i => (i, if i = 1 then w1 else NMap.getD ws i 0)) ++ msgWords msn msg))

/-- A frame's length (R29): Ethernet, IP, UDP, BTH, extension headers, payload, ICRC, FCS. -/
def frameLen (tagged v6 : Bool) (ext payload : Nat) : Nat :=
  14 + (if tagged then 4 else 0) + (if v6 then 40 else 20) + 8 + 12 + ext + payload + 4 + 4

/-- The host's MAC in the context (R131, R146). -/
def State.qMac (s : State) (n : Nat) : Option Mac := some (BitVec.ofNat 48 (s.qf n 3 47 0))

/-- A device-initiated frame of a QP leaves by its PORT, on its PRIO, VLAN and DSCP (R121, R144). -/
def State.qFrame (s : State) (n ext payload : Nat) (b : TxBody) : TxFrame :=
  let tagged := s.qf n 0 27 27 == 1
  { port := s.qPort n, prio := s.qf n 0 26 24, tagged := tagged, vlan := s.qf n 0 39 28, pcp := s.qf n 0 26 24, dscp := s.qf n 0 45 40, dst := s.qMac n
    len := frameLen tagged (s.qf n 3 50 50 == 1) ext payload, ect := Config.ectSent, body := b }

/-- Disarms the chains bound to a QP that enters ERROR (R145, R207); CHAIN_DISARMED where some were ARMED. -/
def State.disarmFor (s : State) (n : Nat) : State :=
  let hit (e : Nat × List Word64) : Bool := bits (wordAt e.2 0) 2 0 == 1 && bits (wordAt e.2 1) 23 0 == n
  let some_ := s.chains.chains.any hit
  let out := (s.chains.chains.filter hit).map (fun e => (e.1, setNth e.2 0 (setBits (wordAt e.2 0) 2 0 0)))
  let s := out.foldl (fun (s : State) e =>
    ({ s with chains := { s.chains with chains := NMap.put (List.replicate 8 0) s.chains.chains e.1 e.2 } }).stage (.chain false e.1 e.2)) s
  s.raiseIf some_ 0x10 1

/-- A QP's SENDs that have not left go: those queued, those that wait for cells or for the context (R145). -/
def State.dropSends (s : State) (n : Nat) : State :=
  let mine (f : TxFrame) : Bool := match f.body with | .send q .. => q == n | _ => false
  let s := s.modQp n (fun q => { q with sends := [], sendWait := [] })
  let s : State := { s with hearth := { s.hearth with egressWait := s.hearth.egressWait.filter (fun w => !mine w.frame) } }
  s.ports.foldl (fun (s : State) e =>
    let out := e.2.txq.filter mine
    if out.isEmpty then s
    else ((out.foldl (fun s f => s.freeTx f) s).modPort e.1 (fun x => { x with txq := x.txq.filter (fun f => !mine f) })).afterFree e.1) s

/-- Removes what a QP's messages hold: the message in progress gives back its reservation and its stamp. -/
def State.dropMsg (s : State) (n : Nat) : State :=
  match (s.qp n).msg with
  | some m =>
    let s := s.unreserveRange m.tenant m.nextPool m.reserve
    let s := match m.stamp with | some st => s.dropHold st n | none => s
    s.modQp n (fun q => { q with msg := none })
  | none => s

/-- A QP enters ERROR for a cause (R145, R160, R168, R175): queued SENDs are discarded, chains disarmed. -/
def State.qpError (s : State) (n cause : Nat) : State :=
  if s.qState n = 2 ∨ s.qState n = 3 then
    let s := (s.setQf n 0 2 0 4).setQf n 0 55 48 cause
    let s := s.dropMsg n
    let s := (s.dropSends n).modQp n (fun q => { q with errSince := some s.mono })
    let s := s.setQf n 7 31 16 0
    let s := s.disarmFor n
    let s := (s.raiseIf (cause != 7) 0x11 0).smpDrop n 4
    s.stageQp n
  else s

/-- Returns an operation's received cells (R78). -/
def State.freeOpCells (s : State) (o : Op) : State :=
  if o.cells = 0 then s else (s.freeRx (o.port, o.cellPrio, o.cells, o.rxHead)).afterFree o.port

/-- An operation that draws no answer of its own gives up the entries it holds (R184). -/
def State.dropOpHold (s : State) (o : Op) (n : Nat) : State := match o.stamp with | some st => s.dropHold st n | none => s

/-- Removes operations from the list in progress; the cells of the link that hold them return (R78). -/
def State.removeOps (s : State) (ids : List Nat) : State :=
  let out := s.dp.ops.filter (fun o => ids.contains o.id)
  let s : State := { s with dp := { s.dp with ops := s.dp.ops.filter (fun o => !ids.contains o.id) } }
  s.subLink (out.map (fun o => o.linkCells)).sum

/-- Bytes a write reserves (R163). -/
def Op.need (o : Op) : Nat :=
  match o.kind with
  | .write | .send | .copyDst => o.len
  | .cas | .fadd | .atomicWrite => 64
  | _ => 0

/-- Bytes an operation still holds reserved: those of its lines not placed. -/
def State.opReserved (s : State) (o : Op) : Nat :=
  if o.placed then 0
  else if o.toTwin || !o.issued then o.need
  else (((s.dp.parked ++ s.cache.mshrs.flatMap (fun m => m.accs)).filter (fun a => a.op == o.id)).map (fun a => s.accReserved a)).sum

/-- Gives back what an operation holds reserved. -/
def State.unreserveOp (s : State) (o : Op) : State :=
  let n := s.opReserved o
  if n = 0 then s
  else if o.toTwin || !s.owns (regionOf o.pool) then
    let s := s.wr TIR_DIRTY_RESERVED_BYTES (s.rd TIR_DIRTY_RESERVED_BYTES - n)
    let t := s.tenant o.tenant
    s.setTenant o.tenant { t with fwdRsv := t.fwdRsv - n }
  else s.unreserve o.tenant n

/-- Operations end without having run to their end: their reservations, cells and holds return, nothing of them is done any more. -/
def State.dropOps (s : State) (f : Op → Bool) : State :=
  let out := s.dp.ops.filter f
  let ids := out.map (fun o => o.id)
  let s := out.foldl (fun s o =>
    let s := (s.unreserveOp o).freeOpCells o
    match o.for_ with | .host n => s.dropOpHold o n | _ => s) s
  let s := s.removeOps ids
  let gone (a : Acc) : Bool := ids.contains a.op
  { s with
    dp := { s.dp with parked := s.dp.parked.filter (fun a => !gone a) }
    cache := { s.cache with mshrs := s.cache.mshrs.map (fun m => { m with accs := m.accs.filter (fun a => !gone a) }) }
    pair := { s.pair with fwdOut := s.pair.fwdOut.filter (fun x => !ids.contains x.op), fwdQueue := s.pair.fwdQueue.filter (fun x => !ids.contains x.op) } }

/-- QPs of a tenant that are not in RESET and whose home is this twin (R185). -/
def State.homedQps (s : State) (t : Nat) : Nat := (s.qps.filter (fun e => s.homeOf e.1 && s.qState e.1 != 0 && s.qTenant e.1 == t)).length

/-- QP_COUNT of every tenant that has QPs follows their homes (R185). -/
def State.recountQps (s : State) : State :=
  let ts := ((s.qps.map (fun e => bits (NMap.getD e.2.words 0 0) 15 8)) ++ (s.prot.tenants.filter (fun e => e.2.qpCount != 0)).map Prod.fst).eraseDups
  ts.foldl (fun s t => if t = 0 then s else s.setTenant t { s.tenant t with qpCount := s.homedQps t }) s

/-! ### Resident contexts (R69) -/

/-- A context is held: by a request whose first check has been made, until its answers have been built, or by a device-initiated SEND
until its chain has been built. -/
def State.ctxHeld (s : State) (n : Nat) : Bool :=
  s.dp.ops.any (fun o => o.for_ == OpFor.host n || o.for_ == OpFor.ring n) || s.hearth.ctxHolds.contains n
    || s.hearth.egressWait.any (fun w => w.frame.body.qpn == n) || !(s.qp n).sendWait.isEmpty

/-- A context is resident and becomes the most recently used, else its load is asked for. -/
def State.ctxUse (s : State) (n : Nat) : Bool × State :=
  if s.hearth.resident.contains n then (true, { s with hearth := { s.hearth with resident := useLru s.hearth.resident n } })
  else if s.hearth.ctxLoads.contains n then (false, s)
  else (false, { s with hearth := { s.hearth with ctxLoads := s.hearth.ctxLoads ++ [n] } })

/-- Requests of a QP hold its context while they wait for key entries. -/
def State.ctxHold (s : State) (n : Nat) (on : Bool) : State :=
  let l := s.hearth.ctxHolds.filter (· != n)
  { s with hearth := { s.hearth with ctxHolds := if on then l ++ [n] else l } }

/-- Holds of keys and the residence of a context end with its QP (R69, R145, R184). -/
def State.qpForget (s : State) (n : Nat) : State :=
  { s with prot := { s.prot with holds := s.prot.holds.filter (fun h => h.2.1 != n) }
           hearth := { s.hearth with resident := s.hearth.resident.filter (· != n) } }

/-- A source address that no context names any more is no host's (R147). -/
def State.sourceLeft (s : State) (src : Option IpAddr) : State :=
  match src with
  | some a => if s.qps.any (fun e => e.2.srcAddr == some a) then s else { s with hosts := s.hosts.filter (· != a) }
  | none => s

/-- A QP returns to RESET (R145): its entry reads the reset values, its tenant's QP_COUNT falls, its QPN is held for 1 s
(R142). -/
def State.qpReset (s : State) (n : Nat) : State :=
  let t := s.qTenant n
  let src := (s.qp n).srcAddr
  let s := (s.dropMsg n).dropOps (fun o => o.for_ == OpFor.host n || o.for_ == OpFor.ring n)
  let s := ((s.dropSends n).ctxHold n false).qpForget n
  let s := s.setQp n { freedAt := some s.mono }
  let s := if t = 0 then s else s.setTenant t { s.tenant t with qpCount := s.homedQps t }
  (s.sourceLeft src).stageQp n

/-- The U96 sends DREQ on a QP (R145, R498). -/
def State.sendDreq (s : State) (n : Nat) : State := s.queueTx (s.qFrame n 8 256 (.cmDreq n)) []

/-- R498: every QP this twin serves goes to ERROR, by its state. -/
def State.allToError (s : State) (qpns : List Nat) (cause : Nat) : State :=
  qpns.foldl (fun s n =>
    match s.qState n with
    | 1 =>
      let s := s.queueTx (s.qFrame n 8 256 .cmRej) []
      s.qpReset n
    | 2 => (s.qpError n cause).sendDreq n
    | 3 => (s.qpError n cause).sendDreq n
    | _ => s) s

/-! ### Answers -/

/-- The answer frame of an operation leaves by the port of its request, with its priority and tag (R121, R144). -/
def Op.frame (o : Op) (ext payload : Nat) (b : TxBody) : TxFrame :=
  { port := o.port, prio := o.prio, tagged := o.tagged, vlan := o.vlan, pcp := o.pcp, dscp := o.dscp, dst := o.mac
    len := frameLen o.tagged o.v6 ext payload, ect := Config.ectSent, body := b }

/-- MSN of a QP, raised as a message completes. -/
def State.bumpMsn (s : State) (n : Nat) (yes : Bool) : State := if yes then s.setQf n 2 23 0 (s.qf n 2 23 0 + 1) else s

/-- ACKED_PSN rises to a PSN (R146). -/
def State.ackPsn (s : State) (n psn : Nat) : State :=
  if psnDist psn (s.qf n 15 23 0) < 2 ^ 23 then
    s.setQf n 15 23 0 psn
  else s

/-- Every operation of the head group (one PSN) has reached its ACK point (R154). -/
def State.opReady (s : State) (o : Op) : Bool :=
  match o.kind with
  | .nak _ => true
  | .arm _ => o.placed
  | _ => (o.placed || (o.issued && o.left == 0)) && (match o.epoch with | none => true | some e => s.isConfirmed e)

/-- The data a READ group answers with: each operation's bytes, in order. -/
def Op.readBytes (o : Op) : List Byte :=
  let l0 := o.pool / 64
  let l1 := (o.pool + max o.len 1 - 1) / 64
  let all := (List.range (l1 + 1 - l0)).flatMap (fun i => lineGet (NMap.getD o.got (l0 + i) 0) 0 64)
  (all.drop (o.pool % 64)).take o.len

/-- Lines a READ group's payload refers to. -/
def Op.readLines (o : Op) : List Nat :=
  if o.len = 0 then [] else (List.range ((o.pool + o.len - 1) / 64 + 1 - o.pool / 64)).map (fun i => o.pool / 64 + i)

/-- Lines that the answer of a forwarded operation is gathered from. -/
def Op.respLines (o : Op) : Nat := if o.kind == .read && o.bad.isEmpty then o.readLines.length else 0

/-- Response pacing: frames of a QP whose rate is below the port's wait for its pacer (R170). -/
def State.paces (s : State) (n p : Nat) : Bool := decide (s.qf n 8 31 0 < s.portRate p)

/-- Cells of the request an operation holds: port, priority, number, whether of the headroom. -/
def Op.heldCells (o : Op) : Option (Nat × Nat × Nat × Bool) := if o.cells = 0 then none else some (o.port, o.cellPrio, o.cells, o.rxHead)

/-- The answer of a group of operations with one PSN: what is sent at its turn. `pendAck` is an ACK not yet sent that a
later answer makes needless. Gives the state, the ACK pending now and whether the QP goes on. A message's entries are held
until its READ's last packet has left, its Atomic ACK is built (R184); a READ request's cells until its chain is built (R78). -/
def State.answerGroup (s : State) (n : Nat) (g : List Op) (pendAck : Option Op) : State × Option Op × Bool :=
  match g.getLast? with
  | none => (s, pendAck, true)
  | some o =>
    let bad := g.any (fun o => !o.bad.isEmpty)
    let nakOf (s : State) (syn cause : Nat) (ctr : Nat) : State × Option Op × Bool :=
      let s := (s.setQf n 13 63 32 (s.qf n 13 63 32 + 1)).rdxCount ctr
      let s := (s.queueTx (o.frame 4 0 (.nak n o.psn syn (s.qf n 2 23 0))) []).rdxCount 1
      (s.qpError n cause, none, false)
    match o.kind with
    | .nak 0x61 => nakOf s 0x61 1 5
    | .nak 0x62 => nakOf s 0x62 2 6
    | .nak 0x63 => nakOf s 0x63 3 7
    | .nak syn =>
      let s := s.setQf n 13 63 32 (s.qf n 13 63 32 + 1)
      ((s.queueTx (o.frame 4 0 (.nak n o.psn syn (s.qf n 2 23 0))) []).rdxCount 1, none, true)
    | .read =>
      if bad then nakOf s 0x63 3 7
      else
        let s := s.bumpMsn n o.endsMsg
        let first := o.first
        let last := o.last
        let pay := g.flatMap (fun o => o.readBytes)
        let ext := if first || last then 4 else 0
        let f := o.frame ext pay.length (.readResp n o.psn first last (s.qf n 2 23 0) pay)
        let link := (g.map (fun o => o.linkCells)).sum
        let f := { f with paced := s.paces n o.port, stampOf := if last then o.stamp else none, linkCells := link }
        let s := g.foldl (fun s o => s.modOp o.id (fun x => { x with linkCells := 0 })) s
        let s := (s.queueChain
          { frame := f, lines := g.flatMap (fun o => if o.toTwin then [] else o.readLines), frees := g.filterMap (fun o => o.heldCells) }).rdxCount 1
        let s := if last then s.setQf n 2 30 24 (s.qf n 2 30 24 - 1) else s
        (s.ackPsn n o.psn, none, true)
    | .cas | .fadd =>
      if bad then nakOf s 0x63 3 7
      else
        let s := (s.bumpMsn n true).setQf n 2 30 24 (s.qf n 2 30 24 - 1)
        let keep := s.qf n 0 62 56
        let s := s.modQp n (fun q => { q with atomics := ((o.psn, o.result) :: q.atomics).take keep })
        let s := match o.stamp with | some st => s.dropHold st n | none => s
        let s := (s.queueTx (o.frame 12 0 (.atomicAck n o.psn (s.qf n 2 23 0) o.result)) []).rdxCount 1
        (s.ackPsn n o.psn, none, true)
    | _ =>
      if bad then nakOf s 0x63 3 7
      else
        let s := s.bumpMsn n o.endsMsg
        let s := s.ackPsn n o.psn
        if o.ackReq then
          ((s.queueTx (o.frame 4 0 (.ack n o.psn 0x1F (s.qf n 2 23 0))) []).rdxCount 1, none, true)
        else (s, some o, true)

/-- READs whose last packet is among some operations. -/
def readsIn (l : List Op) : Nat := ((l.filter (fun o => o.kind == .read && o.last)).map (fun o => o.psn)).eraseDups.length

/-- Operations of a QP in order. -/
def State.qpOps (s : State) (n : Nat) : List Op := s.dp.ops.filter (fun o => o.for_ == .host n)

/-- Releases a QP's answers in PSN order, as far as they have reached their ACK points (R154). On a QP in ERROR what is left draws
no answer (R145). -/
def releaseLoop : Nat → State → Nat → Option Op → State
  | 0, s, n, pend =>
    match pend with
    | some o => (s.queueTx (o.frame 4 0 (.ack n o.psn 0x1F (s.qf n 2 23 0))) []).rdxCount 1
    | none => s
  | k + 1, s, n, pend =>
    match s.qpOps n with
    | [] => releaseLoop 0 s n pend
    | o :: os =>
      let isNak := match o.kind with | .nak _ => true | _ => false
      let g := if isNak then [o] else o :: os.takeWhile (fun x => x.psn == o.psn && (match x.kind with | .nak _ => false | _ => true))
      if g.all s.opReady then
        let s := s.removeOps (g.map (fun o => o.id))
        let bad := g.any (fun x => !x.bad.isEmpty)
        let s := if o.kind == .read && !bad && s.qState n != 4 then s else g.foldl (fun s o => s.freeOpCells o) s
        if s.qState n = 4 then releaseLoop k (g.foldl (fun (s : State) o => s.dropOpHold o n) s) n none
        else
          let syn := match o.kind with | .nak v => v | _ => if bad then 0x63 else 0x1F
          let ends := (g.getLast?.map (fun x => x.endsMsg)).getD true || isNak || bad
          let out := if syn = 0x1F then 0 else if 0x20 ≤ syn ∧ syn < 0x40 then 2 else 1
          let s := if ends && syn != 0x60 then s.smpEnd n ((g.getLast?.map (fun x => x.psn)).getD o.psn) out syn (g.foldl (fun (m : Option Nat) x => maxEp m x.epoch) none) true else s
          let s := if bad then g.foldl (fun (s : State) o => s.dropOpHold o n) s else s
          let (s, pend, _) := s.answerGroup n g pend
          releaseLoop k (s.stageQp n) n pend
      else releaseLoop 0 s n pend

/-- Releases a QP's answers. A fenced twin sends none (R355). -/
def State.release (s : State) (n : Nat) : State :=
  if s.role = 5 then s else releaseLoop ((s.qpOps n).length) s n none

end Sys2Proof.Machine
end

