-- ==== Sys2Proof/Machine/AddrOps.lean ====
section
/-! DEFINITION. The addresses a port serves: the ADDR tables, announcements, placing the twin's addresses at takeover and
giving them back (R129 to R133). -/

namespace Sys2Proof.Machine

/-- Entry e of port p's ADDR table (R130). -/
def State.addr (s : State) (p e : Nat) : AddrEntry := NMap.getD s.addrs (8 * p + e) {}

/-- Writes an entry. -/
def State.setAddr (s : State) (p e : Nat) (v : AddrEntry) : State :=
  { s with addrs := NMap.put {} s.addrs (8 * p + e) v }

/-- An entry as words (R130). ON_PORT is of entries 4 to 7 only. -/
def AddrEntry.words (a : AddrEntry) (hosted : Bool) : List Word64 :=
  [BitVec.ofNat 64 (a.state + b2n a.addr.v6 * 4 + b2n a.vlanEn * 2 ^ 15 + a.vlan * 2 ^ 16 + (if hosted then a.onPort * 2 ^ 32 else 0)), a.addr.hi, a.addr.lo, 0]

/-- An entry from words. -/
def addrOfWords (ws : List Word64) : AddrEntry :=
  let w := wordAt ws 0
  { state := bits w 1 0, addr := ⟨bit w 2, wordAt ws 1, wordAt ws 2⟩, vlanEn := bit w 15, vlan := bits w 27 16, onPort := bits w 39 32 }

/-- The entry at a key of `addrs` is served on port p (R129). -/
def servedOn (p k : Nat) (a : AddrEntry) : Bool :=
  (k / 8 == p && k % 8 < 4 && a.state == 1) || (4 ≤ k % 8 && a.state == 3 && a.onPort == p)

/-- The entries served on a port. -/
def State.served (s : State) (p : Nat) : List AddrEntry := (s.addrs.filter (fun e => servedOn p e.1 e.2)).map Prod.snd

/-- An address is served on a port. -/
def State.serves (s : State) (p : Nat) (a : IpAddr) : Bool := (s.served p).any (fun e => e.addr == a)

/-- Hosted entries placed on a port from other ports (R133). -/
def State.hostedFrom (s : State) (p : Nat) : Nat :=
  (s.addrs.filter (fun e => decide (4 ≤ e.1 % 8) && e.2.state == 3 && e.2.onPort == p && e.1 / 8 != p)).length

/-- The port's MAC address: what firmware loaded, the device's base address counted up by the port number, unless another one was
written (R119). -/
def State.portMac (s : State) (p : Nat) : Mac :=
  let v := s.rd HPT_MAC_ADDR_ADDR p
  if v = 0 then BitVec.ofNat 48 (Config.baseMac.toNat + p) else BitVec.ofNat 48 v

/-- An announcement leaves on priority 0, untagged or on the entry's VLAN (R132). -/
def State.sendAnnounce (s : State) (p : Nat) (a : AddrEntry) : State :=
  let len := if a.addr.v6 then 14 + 72 + 4 else 64
  let b : TxBody := if a.addr.v6 then .neighbourAdv a.addr (s.portMac p) false true else .gratuitousArp a.addr (s.portMac p)
  (s.hptCount p 33).queueTx { port := p, prio := 0, tagged := a.vlanEn, vlan := a.vlan, len := len + (if a.vlanEn then 4 else 0), body := b } []

/-- Announcements of an entry's address on its VLAN: an address may be served on two VLANs of a port (R130). -/
def Announce.isFor (y : Announce) (a : AddrEntry) : Bool :=
  y.addr == a.addr && y.vlanEn == a.vlanEn && (!a.vlanEn || y.vlan == a.vlan)

/-- An address becomes served on a port: it is announced ANNOUNCE.COUNT times, the first time at once (R132). -/
def State.announceAddr (s : State) (p : Nat) (a : AddrEntry) : State :=
  let n := s.rd HPT_ANNOUNCE_COUNT p
  if n = 0 then s
  else
    let s := s.sendAnnounce p a
    s.modPort p (fun x => { x with
      announces := (x.announces.filter (fun y => !y.isFor a)) ++ (if n = 1 then [] else [(⟨a.addr, a.vlanEn, a.vlan, n - 1, s.mono + ms (s.rd HPT_ANNOUNCE_GAP_MS p)⟩ : Announce)]) })

/-- Announces every address a port serves (R132, R344). -/
def State.announceAll (s : State) (p : Nat) : State := (s.served p).foldl (fun s a => s.announceAddr p a) s

/-- Where an entry of port p is placed (R133): p where it is UP, else its alternate where that is UP and has room. -/
def State.placeFor (s : State) (p : Nat) : Option Nat :=
  if s.portUp p then some p
  else
    let a := s.rd HPT_ANNOUNCE_ALT_PORT p
    if a < 96 && a != p && s.portUp a && decide (s.hostedFrom a < 8) then some a else none

/-- Places every STANDBY entry, in ascending order of port and entry, while this twin hosts the other's addresses (R133); one of `said`
that finds no place raises ADDR_UNPLACED (R140). -/
def State.placeHosted (s : State) (said : Nat → Bool) : State :=
  if !s.pair.hosting then s
  else s.addrs.foldl (fun s (e : Nat × AddrEntry) =>
    let p := e.1 / 8
    let a := s.addr p (e.1 % 8)
    if 4 ≤ e.1 % 8 && a.state == 2 then
      match s.placeFor p with
      | some d =>
        let b := { a with state := 3, onPort := d }
        ((s.setAddr p (e.1 % 8) b).raise (0x100 + d) 8).announceAddr d b
      | none => s.raiseIf (said e.1) (0x100 + p) 10
    else s) s

/-- The entry of a key of `addrs` is a hosted one served on port d. -/
def hostedOn (d : Nat) (e : Nat × AddrEntry) : Bool := 4 ≤ e.1 % 8 && e.2.state == 3 && e.2.onPort == d

/-- Hosted entries of a port that left UP move under the same rule; one that finds no place is back in STANDBY, ADDR_RELEASED (R133, R140). -/
def State.moveHosted (s : State) (d : Nat) : State :=
  let ks := (s.addrs.filter (hostedOn d)).map Prod.fst
  let s : State := { s with addrs := s.addrs.map (fun (e : Nat × AddrEntry) => if hostedOn d e then (e.1, { e.2 with state := 2, onPort := 0xFF }) else e) }
  let s := s.placeHosted ks.contains
  s.raiseIf (ks.any (fun k => (s.addr (k / 8) (k % 8)).state == 2)) (0x100 + d) 9

/-- The twin takes its addresses back: hosted entries return to STANDBY, ADDR_RELEASED on the port of each (R133, R140, R361). -/
def State.returnAddrs (s : State) : State :=
  let back := s.addrs.filter (fun e => decide (4 ≤ e.1 % 8) && e.2.state == 3)
  let s : State := { s with
    addrs := s.addrs.map (fun (e : Nat × AddrEntry) => if 4 ≤ e.1 % 8 && e.2.state == 3 then (e.1, { e.2 with state := 2, onPort := 0xFF }) else e)
    pair := { s.pair with hosting := false } }
  back.foldl (fun s e => s.raise (0x100 + e.2.onPort) 9) s

end Sys2Proof.Machine
end

