-- ==== Sys2Proof/Machine/LineCode.lean ====
section
/-! DEFINITION. The line code of the Swidun link (R322): blocks, payload symbols, scrambler, lane ID symbols and RS(544,514) codewords of a
row of a strand. Where R322 names the code of IEEE 802.3, its field, its generator and the order of bits in a symbol are those of that
standard (PRESUMED, log 214). Frames carry in their headers whether their codewords could be decoded. -/

namespace Sys2Proof.Machine

/-- A symbol of the code. -/
abbrev Symbol := BitVec 10

/-! ### GF(2^10) and RS(544,514) -/

/-- Product by the primitive element of GF(2^10), whose polynomial is x^10 + x^3 + 1. -/
def symDouble (a : Symbol) : Symbol := (a <<< 1) ^^^ (if a.getLsbD 9 then 0x9#10 else 0)

/-- Product of two symbols. -/
def symMul (a b : Symbol) : Symbol := (List.range 10).foldr (fun i x => symDouble x ^^^ (if b.getLsbD i then a else 0)) 0

/-- A polynomial, highest coefficient first, times x + r. -/
def polyTimes (p : List Symbol) (r : Symbol) : List Symbol := List.zipWith (· ^^^ ·) (p ++ [0]) (0 :: p.map (fun c => symMul c r))

/-- The generator of degree 30, whose roots are the powers 0 to 29 of the primitive element, without its leading 1. -/
def rsGenerator : List Symbol := ((List.range 30).foldl (fun p j => polyTimes p (Nat.repeat symDouble j 1)) [1]).drop 1

/-- The 30 check symbols of 514 message symbols. -/
def rsCheck (msg : List Symbol) : List Symbol :=
  let g := rsGenerator
  msg.foldl (fun (p : List Symbol) m =>
    let f := m ^^^ p.headD 0
    List.zipWith (· ^^^ ·) (p.drop 1 ++ [0]) (g.map (fun c => symMul f c))) (List.replicate 30 0)

/-- The codeword of 514 message symbols. -/
def rsEncode (msg : List Symbol) : List Symbol := msg ++ rsCheck msg

/-- The 30 syndromes of a received word, all 0 for a codeword. -/
def rsSyndromes (word : List Symbol) : List Symbol :=
  (List.range 30).map (fun j => word.foldl (fun x c => symMul x (Nat.repeat symDouble j 1) ^^^ c) 0)

/-- The word is a codeword. -/
def rsIsCodeword (word : List Symbol) : Bool := word.length == 544 && (rsSyndromes word).all (fun x => x == 0)

/-! ### Blocks and rows -/

/-- Bits of a block: its flag, then 64 bytes, byte 0 first, each least significant bit first. -/
def blockBits (flag : Bool) (bytes : List Byte) : List Bool := flag :: bytes.flatMap (fun b => (List.range 8).map (fun i => b.getLsbD i))

/-- Symbols of a bit string, ten bits each, the first the least significant. -/
def symbolsOf (bs : List Bool) : List Symbol :=
  (List.range (bs.length / 10)).map (fun k => BitVec.ofNat 10 (((List.range 10).map (fun i => if nth false bs (10 * k + i) then 2 ^ i else 0)).sum))

/-- The payload of a lane's codeword: of the 4,104 payload symbols of a row, symbol k goes to lane k mod 8, as symbol 1 + floor(k / 8). -/
def lanePayload (payload : List Symbol) (lane : Nat) : List Symbol := (List.range 513).map (fun i => nth 0 payload (8 * i + lane))

/-- Symbol 0 of a lane's codeword: strand in [9:7], lane in [6:4], row count modulo 16 in [3:0]. -/
def laneId (strand lane row : Nat) : Symbol := BitVec.ofNat 10 (strand % 8 * 128 + lane % 8 * 16 + row % 16)

/-- The strand, the lane and the row count that a lane ID symbol reports; another strand or lane fails the strand (R324). -/
def laneIdFields (x : Symbol) : Nat × Nat × Nat := (x.toNat / 128, x.toNat / 16 % 8, x.toNat % 16)

/-- One bit through the self-synchronous scrambler 1 + x^39 + x^58: the register of the last 58 bits sent, and the bit sent. -/
def scrambleBit (r : BitVec 58) (b : Bool) : BitVec 58 × Bool :=
  let o := xor b (xor (r.getLsbD 38) (r.getLsbD 57))
  ((r <<< 1) ||| (if o then 1 else 0), o)

/-- One bit through the descrambler. -/
def descrambleBit (r : BitVec 58) (o : Bool) : BitVec 58 × Bool := ((r <<< 1) ||| (if o then 1 else 0), xor o (xor (r.getLsbD 38) (r.getLsbD 57)))

/-- Bits through a scrambler or descrambler, in order. -/
def scrambleBits (f : BitVec 58 → Bool → BitVec 58 × Bool) (r : BitVec 58) (bs : List Bool) : BitVec 58 × List Bool :=
  bs.foldl (fun x b => let y := f x.1 b; (y.1, x.2 ++ [y.2])) (r, [])

/-- Bits of symbols, each least significant first. -/
def symbolBits (l : List Symbol) : List Bool := l.flatMap (fun x => (List.range 10).map (fun i => x.getLsbD i))

/-- One lane's codeword of a row: its scrambler's register before, its payload of the row's 80 blocks. The lane ID symbol is not
scrambled. -/
def laneCodeword (strand lane row : Nat) (r : BitVec 58) (payload : List Symbol) : BitVec 58 × List Symbol :=
  let (r, bs) := scrambleBits scrambleBit r (symbolBits (lanePayload payload lane))
  (r, rsEncode (laneId strand lane row :: symbolsOf bs))

/-- A row of a strand: eight codewords from 80 blocks of a flag and 64 bytes. -/
def rowOf (strand row : Nat) (regs : List (BitVec 58)) (blocks : List (Bool × List Byte)) : List (BitVec 58 × List Symbol) :=
  let payload := symbolsOf (blocks.flatMap (fun b => blockBits b.1 b.2))
  (List.range 8).map (fun l => laneCodeword strand l row (nth 0 regs l) payload)

/-- Rows follow every 25.6 ns: the count of a row sent so many nanoseconds after the strand's first (R322). -/
def rowCount (ns : Nat) : Nat := ns * 10 / 256

end Sys2Proof.Machine
end

