-- ==== Sys2Proof/Machine/Issue.lean ====
section
/-! DEFINITION. Making, issuing and settling operations: the line accesses of an operation, forwarding to the owner
(R144, R158, R346), the answers of forwarded operations (R346, R347), and the loop that runs the data path until nothing
more can go on. -/

namespace Sys2Proof.Machine

/-- Adds an operation to those in progress. -/
def State.addOp (s : State) (o : Op) : State :=
  { s with dp := { s.dp with ops := s.dp.ops ++ [{ o with id := s.dp.nextOp }], nextOp := s.dp.nextOp + 1 } }

/-- The line accesses of an operation on this twin: one per line, in ascending address order (R149). -/
def Op.accesses (o : Op) : List (Nat × AccKind) :=
  match o.kind with
  | .read | .copySrc | .notifySrc | .resyncRead => o.readLines.map (fun l => (l, .read))
  | .write | .send | .copyDst =>
    o.readLines.map (fun l =>
      let a := max o.pool (64 * l)
      let b := min (o.pool + o.len) (64 * l + 64)
      (l, .write (a - 64 * l) ((o.data.drop (a - o.pool)).take (b - a))))
  | .atomicWrite => [(o.pool / 64, .write (o.pool % 64) (o.data.take 8))]
  | .cas => [(o.pool / 64, .cas (o.pool % 64) o.cmp o.swap)]
  | .fadd => [(o.pool / 64, .fadd (o.pool % 64) o.swap)]
  | .poison => [(o.pool / 64, .poison)]
  | _ => []

/-- Puts an operation's accesses into `parked`. -/
def State.startAccs (s : State) (o : Op) : State :=
  let accs := o.accesses
  let ap := match o.for_ with | .apply => true | _ => false
  let dem := match o.for_ with | .apply => false | .fwd .. => true | _ => true
  let s := accs.foldl (fun s a =>
    let x : Acc := { op := o.id, seqNo := s.dp.nextAcc, line := a.1, kind := a.2, tenant := o.tenant, cls := o.cls, demand := dem, apply := ap, wait := .fresh, since := s.mono }
    { s with dp := { s.dp with parked := s.dp.parked ++ [x], nextAcc := s.dp.nextAcc + 1 } }) s
  s.modOp o.id (fun o => { o with issued := true, left := accs.length, placed := accs.isEmpty })

/-- A forwarded operation's opcode (R346). -/
def OpKind.fwdOp : OpKind → FwdOp
  | .write | .send | .copyDst => .write
  | .cas => .cas
  | .fadd => .fadd
  | .atomicWrite => .atomicWrite
  | _ => .read

/-- Identity of a forwarded operation (R346): that of the host's request; an operation of the device's own takes QPN 0 and a
PSN from its number, a chain's ATOMIC one from its chain, step and run, so that its twin knows it again (R209; log 33). -/
def Op.identity (o : Op) : Nat × Nat × Nat :=
  match o.for_ with
  | .host n => (n, o.psn, o.seg)
  | .chain _ _ => if o.seg = 1 then (0, o.psn, 1) else (0, 0x10000 + o.id % 0xFF0000, 0)
  | _ => (0, 0x10000 + o.id % 0xFF0000, 0)

/-- The forwarded form of an operation (R346). -/
def Op.fwdMsg (o : Op) : FwdReqMsg :=
  let d := o.identity
  { qpn := d.1, psn := d.2.1, seg := d.2.2, op := o.kind.fwdOp, cls := o.cls, first := true, last := true, poolOff := o.pool, tenant := o.tenant, len := o.len, data := o.data, a := o.cmp, b := o.swap, entry := [] }

/-- Forwards an operation to the twin: it waits in the link's queue until credits and the MIR page's QUIESCE allow
(R342, R346). -/
def State.forward (s : State) (o : Op) : State :=
  let s := s.rdxCount 18
  let s := s.modOp o.id (fun o => { o with issued := true, toTwin := true, left := 1, placed := false })
  { s with pair := { s.pair with fwdQueue := s.pair.fwdQueue ++ [{ op := o.id, msg := o.fwdMsg }] } }

/-- New operations on a region wait while it moves, is in takeover, or is served by neither (R226 REGION, R348). -/
def State.regionWaits (s : State) (r : Nat) : Bool :=
  (s.region r).moving || s.role == 3

/-- Lines of a persistence FLUSH's QP: earlier operations all placed (R156). -/
def State.earlierPlaced (s : State) (o : Op) : Bool :=
  (s.dp.ops.filter (fun x => x.for_ == o.for_ && decide (x.id < o.id))).all (fun x => x.placed)

/-- An operation may be issued: for a host's QP, when every earlier one is issued, and those for another owner are placed
(R158); a FLUSH, an ATOMIC WRITE and a ring slot's header when every earlier one is placed (R149, R152, R156). -/
def State.mayIssue (s : State) (o : Op) : Bool :=
  match o.for_ with
  | .host _ =>
    let before := s.dp.ops.filter (fun x => x.for_ == o.for_ && decide (x.id < o.id))
    match o.kind with
    | .nak _ | .arm _ => false
    | .flush _ | .atomicWrite | .send => before.all (fun x => x.placed || (match x.kind with | .nak _ | .arm _ => true | _ => false))
    | _ => before.all (fun x => match x.kind with
        | .nak _ => true
        | .arm _ => true
        | .flush _ => x.placed
        | _ => x.issued && (x.placed || x.toTwin == !s.owns (regionOf o.pool)))
      && !s.regionWaits (regionOf o.pool)
  | .apply => true
  | .fwd .. => !s.regionWaits (regionOf o.pool)
  | _ => !s.regionWaits (regionOf o.pool)

/-- Executes a FLUSH (R156): with persistence it waits for the next seal after its execution, by every owner
written, when anything was; with visibility only, for the lines still unsealed of the QP's earlier writes. -/
def State.issueFlush (s : State) (o : Op) (persist : Bool) : State :=
  let n := match o.for_ with | .host n => n | _ => 0
  let ep := if persist then (if (s.qp n).ownersWritten then s.stageEpoch else none)
    else (s.qp n).unsealedTo
  let s := if persist then s.modQp n (fun q => { q with ownersWritten := false }) else s
  s.modOp o.id (fun o => { o with issued := true, left := 0, placed := true, epoch := ep })

/-- Issues every operation that may be. -/
def State.issueAll (s : State) : State :=
  s.dp.ops.foldl (fun s o0 =>
    match s.op? o0.id with
    | some o =>
      if o.issued || !s.mayIssue o then s
      else match o.kind with
        | .flush p => s.issueFlush o p
        | _ =>
          if o.len = 0 && (match o.kind with | .read | .write | .send => true | _ => false) then
            s.modOp o.id (fun o => { o with issued := true, left := 0, placed := true })
          else
            let local_ := match o.for_ with | .apply => true | .fwd .. => true | _ => s.owns (regionOf o.pool)
            if local_ then s.startAccs o else s.forward o
    | none => s) s

/-- Answers a forwarded operation that is done (R346): M and atomic results name the epoch that holds them. The owner keeps
identity and result and stages OPDONE for everything but READ (R347). Needs a way to send a link frame. -/
def State.fwdFinish (s : State) (o : Op) (qpn psn seg : Nat) : State × FwdRespMsg × Nat :=
  let ep := s.stageEpoch.getD s.pair.openEpoch
  if !o.bad.isEmpty then
    (s, { qpn := qpn, psn := psn, seg := seg, status := .poison, data := [], result := 0 }, ep)
  else match o.kind with
    | .read => (s, { qpn := qpn, psn := psn, seg := seg, status := .done, data := o.readBytes, result := 0 }, ep)
    | _ =>
      let r : FwdRespMsg := { qpn := qpn, psn := psn, seg := seg, status := .done, data := [], result := o.result }
      let s := s.stage (.opDone qpn psn seg o.result)
      let k : Kept := ⟨qpn, psn, seg, ep, o.result⟩
      ({ s with pair := { s.pair with kept := s.pair.kept ++ [k] } }, r, ep)

end Sys2Proof.Machine
end

