-- ==== Sys2Proof/Machine/LinkFrame.lean ====
section
/-! DEFINITION. Swidun frames as bytes and their protection (R326, R331, R332, R337): the header, the payload of each type, the keys of a link
session, the tags. -/

namespace Sys2Proof.Machine

/-! ### AES-256-CMAC and the KDF (R332) -/

/-- AES-256-CMAC. -/
def cmac (key msg : List Byte) : List Byte :=
  let k1 := xtsDouble (BitVec.ofNat 128 (beNat (aesEnc key (List.replicate 16 0))))
  let n := (msg.length - 1) / 16
  let last := msg.drop (16 * n)
  let tail := if last.length = 16 then xorBytes last (toBe 16 k1.toNat)
    else xorBytes (padTo16 (last ++ [0x80])) (toBe 16 (xtsDouble k1).toNat)
  let c := (List.range n).foldl (fun c i => aesEnc key (xorBytes c ((msg.drop (16 * i)).take 16))) (List.replicate 16 0)
  aesEnc key (xorBytes c tail)

/-- The counter-mode KDF with AES-256-CMAC: 256 bits in two iterations. How label, context and length are laid out the spec leaves open
(log 220). -/
def kdf (key : List Byte) (context : List Nat) : List Byte := cmac key (Config.kdfInput 1 context) ++ cmac key (Config.kdfInput 2 context)

/-! ### Bytes of a frame (R326) -/

/-- Frame type (R327). -/
def LinkBody.type : LinkBody → Nat
  | .credit .. => 0x00 | .epochData _ => 0x01 | .seal _ => 0x02 | .sealAck => 0x03 | .fwdReq _ => 0x04 | .fwdResp _ => 0x05
  | .resync _ => 0x06 | .heartbeat _ => 0x07 | .time _ => 0x08 | .keyNext _ => 0x09 | .handshake _ => 0x0A

def twinNo : Twin → Nat
  | .a => 0 | .b => 1

/-- OP of a FWD_REQ (R346); `stop` has none there (log 219). -/
def fwdOpNo : FwdOp → Nat
  | .read => 1 | .write => 2 | .cas => 3 | .fadd => 4 | .atomicWrite => 5 | .protWrite => 6 | .discard => 7 | .stop => 8

/-- STATUS of a FWD_RESP and the cause beside it (R346). -/
def fwdStatusNo : FwdStatus → Nat × Nat
  | .done => (0, 0) | .poison => (1, 0) | .notOwner => (2, 0) | .rnr c => (3, c)

/-- ARG, bytes 32 to 47 of the header (R333, R335, R346, R353, R359). -/
def LinkBody.arg (b : LinkBody) : List Byte :=
  placeBytes 16 (match b with
    | .fwdReq m => [(0, toLe 3 m.qpn), (3, toLe 3 m.psn), (6, toLe 1 (fwdOpNo m.op)), (7, toLe 1 (m.cls + 4 * b2n m.first + 8 * b2n m.last + 16 * m.seg)),
        (8, toLe 6 m.poolOff), (14, toLe 1 m.tenant)]
    | .fwdResp m => [(0, toLe 3 m.qpn), (3, toLe 3 m.psn), (6, toLe 1 (fwdStatusNo m.status).1), (7, toLe 1 ((fwdStatusNo m.status).2 + 16 * m.seg))]
    | .resync (.quarter p t z l q _) => [(0, toLe 8 p), (8, toLe 1 t), (9, toLe 1 (b2n z + 2 * b2n l)), (10, toLe 1 q)]
    | .resync (.changeList _) => [(9, toLe 1 4)]
    | .heartbeat m => [(0, toLe 8 m.pairGen), (8, toLe 1 (b2n m.fenced + 2 * b2n m.flushing + 4 * b2n m.takingOver + 8 * b2n m.standby))]
    | .time m => [(0, toLe 8 m.depart), (8, toLe 8 m.lastArrival)]
    | .keyNext g => [(0, toLe 4 g)]
    | _ => [])

/-- RTYPE, tenant and the type-specific field of a record (R350). -/
def recHead : EpochRec → Nat × Nat × Nat
  | .line t .. => (0x01, t, 0) | .discard .. => (0x02, 0, 0) | .qpCtx q _ => (0x03, 0, q) | .prot t .. => (0x04, 0, t)
  | .chain o .. => (0x05, 0, b2n o) | .chainData c .. => (0x06, 0, c) | .addr p e _ => (0x07, 0, p + 256 * e) | .config .. => (0x08, 0, 0)
  | .owner r _ => (0x09, 0, r) | .wused t _ => (0x0A, t, 0) | .opDone q .. => (0x0B, 0, q)

/-- Body of a record (R350). -/
def recBody : EpochRec → List Byte
  | .line _ l p d => toLe 8 (l % 2 ^ 42 + b2n p * 2 ^ 42) ++ lineGet d 0 64
  | .discard p n => toLe 8 p ++ toLe 8 n
  | .qpCtx _ ws => toLe 8 (ws.map (fun w => 2 ^ w.1)).sum ++ ws.flatMap (fun w => toLe 8 w.2.toNat)
  | .prot _ i n e => toLe 8 i ++ toLe 8 n ++ e.flatMap (fun w => toLe 8 w.toNat)
  | .chain _ i e => toLe 8 i ++ e.flatMap (fun w => toLe 8 w.toNat)
  | .chainData _ o d => toLe 4 o ++ toLe 4 d.length ++ d
  | .addr _ _ ws => ws.flatMap (fun w => toLe 8 w.toNat)
  | .config p o v => toLe 8 (p * 2 ^ 16 + o) ++ toLe 8 v.toNat
  | .owner _ t => toLe 8 (twinNo t)
  | .wused _ n => toLe 8 n
  | .opDone _ p g r => toLe 4 (p + g * 2 ^ 31) ++ toLe 8 r.toNat

/-- A record with its 8-byte header, filled up to its length (R350). -/
def recWire (r : EpochRec) : List Byte :=
  let n := recBytes r
  let h := recHead r
  let b := toLe 1 h.1 ++ toLe 1 h.2.1 ++ toLe 2 n ++ toLe 4 h.2.2 ++ recBody r
  b ++ List.replicate (n - b.length) 0

/-- The block of a SEAL (R351). -/
def sealBytes (m : SealMsg) : List Byte :=
  placeBytes 64 [(0, toLe 8 m.closeTb), (8, toLe 4 m.lastVc1), (12, toLe 4 (m.lastResync.getD 0xFFFFFFFF)), (16, toLe 8 m.dirtyBytes), (24, toLe 4 m.dirtyPages),
    (28, toLe 4 m.dirtyPagesMax), (32, toLe 4 m.budgetMib),
    (36, toLe 1 (b2n m.windowClosed + 2 * b2n m.final + 4 * b2n m.early + 8 * b2n m.drill + 16 * b2n m.noStamps)), (40, toLe 8 m.minStamp), (48, toLe 8 m.protSeq),
    (56, toLe 4 m.maxRegions)]

/-- The two blocks of a HANDSHAKE (R343). -/
def handshakeBytes (m : HandshakeMsg) : List Byte :=
  placeBytes 128 [(0, toLe 2 0x4801), (2, toLe 1 (twinNo m.twin)), (3, toLe 1 m.kind), (4, toLe 4 m.bootCount), (8, toLe 8 m.pairGen), (16, toLe 8 m.confirmed),
    (24, toLe 2 m.part), (26, toLe 2 m.layout), (28, toLe 4 m.epochNs), (32, toLe 2 m.hbMiss), (34, toLe 1 m.fencePref),
    (35, toLe 1 (b2n m.ownedRegions + 2 * b2n m.fenced + 4 * b2n m.changeMapValid + 8 * b2n m.serving)), (36, toLe 4 m.regions), (40, toLe 4 m.vc1Credit),
    (44, toLe 4 m.maxRegions), (48, toLe 8 m.firstEpochTb), (56, toLe 8 m.changeMapEpoch), (64, toLe 4 m.vc2Credit), (68, toLe 4 m.vc3Credit)]

/-- Payload of a FWD_REQ (R346). -/
def fwdReqBytes (m : FwdReqMsg) : List Byte :=
  match m.op with
  | .read => toLe 8 m.len
  | .write => m.data
  | .cas => toLe 8 m.a.toNat ++ toLe 8 m.b.toNat
  | .fadd => toLe 8 m.b.toNat
  | .atomicWrite => m.data.take 8
  | .protWrite => toLe 8 m.a.toNat ++ m.entry.flatMap (fun w => toLe 8 w.toNat)
  | .discard => toLe 8 (m.len / 4096)
  | .stop => []

/-- Payload of a frame. -/
def LinkBody.payload : LinkBody → List Byte
  | .epochData rs => rs.flatMap recWire
  | .seal m => sealBytes m
  | .fwdReq m => fwdReqBytes m
  | .fwdResp m => if m.data.isEmpty then toLe 8 m.result.toNat else m.data
  | .resync (.quarter _ _ z _ _ ls) => if z then [] else ls.flatMap (fun l => lineGet l 0 64)
  | .resync (.changeList cs) => cs.flatMap (fun c => toLe 8 c)
  | .handshake m => handshakeBytes m
  | _ => []

/-- Payload blocks of a frame. -/
def LinkBody.blocks (b : LinkBody) : Nat := divUp b.payload.length 64

/-- Bytes 0 to 47 of a frame with a header (R326): the additional data of its tag. -/
def hdrBytes (h : LinkHdr) (b : LinkBody) : List Byte :=
  let n := b.payload.length
  placeBytes 48 [(0, toLe 1 b.type), (1, toLe 1 (h.vc + 4 * b2n h.final + 8 * b2n h.keysel + 16 * b2n h.nak)), (2, toLe 1 b.blocks),
    (3, toLe 1 (if n = 0 then 0 else (n - 1) % 64 + 1)), (4, toLe 4 h.fseq), (8, toLe 4 h.ack), (12, toLe 4 h.vseq), (16, toLe 2 h.credit0), (18, toLe 2 h.credit1),
    (20, toLe 2 h.credit2), (22, toLe 2 h.credit3), (24, toLe 8 h.epoch), (32, b.arg)]

/-! ### Keys, IVs, tags (R331, R332, R337) -/

/-- Direction of an IV: 0x0A from A, 0x0B from B. -/
def dirNo (b : Bool) : Nat := if b then 0x0B else 0x0A

/-- An IV of 96 bits from its fields [95:88], [87:80], [79:64], [63:32] and [31:0], the most significant byte first (DEDUCED, log 220). -/
def ivOf (a b c d e : Nat) : List Byte := toBe 1 a ++ toBe 1 b ++ toBe 2 c ++ toBe 4 d ++ toBe 4 e

/-- The link master key (R331). -/
def State.masterKey (s : State) : List Byte := keyBytes (s.keySlot 1).key

/-- This device's boot count (R331). -/
def State.bootNo (s : State) : Nat := s.rd BFL_BOOT_COUNT_COUNT

/-- The session key of a direction and generation (R332). -/
def State.linkKey (s : State) (fromB : Bool) (g : Nat) : List Byte :=
  let own := (s.bootNo, s.link.linkCount)
  let twin := (s.link.twinBoot, s.link.twinLink)
  let (a, b) := if s.twinB then (twin, own) else (own, twin)
  kdf s.masterKey [0, a.1, b.1, a.2, b.2, dirNo fromB, g]

/-- What a frame of a strand under a generation holds beside its header bytes 0 to 47 (R332): the tag and the payload blocks, encrypted. -/
def State.sealFrame (s : State) (fromB : Bool) (n g : Nat) (h : LinkHdr) (b : LinkBody) : List Byte × List Byte :=
  let key := s.linkKey fromB g
  let iv := ivOf n (dirNo fromB) 0 g h.fseq
  let plain := b.payload ++ List.replicate (64 * b.blocks - b.payload.length) 0
  let ct := gcmCtr key iv plain
  (gcmTag key iv (hdrBytes h b) ct, ct)

/-- A frame as this side sends it (R326, R329): header, tag, payload. A resent frame is bit-identical. -/
def State.frameWire (s : State) (n : Nat) (f : SentFrame) : List Byte :=
  let h : LinkHdr := { vc := f.vc, final := f.final, keysel := f.gen % 2 == 1, nak := f.nak, slots := f.blocks, fseq := f.fseq, ack := f.ack, vseq := f.vseq
                       credit0 := 0, credit1 := f.credits.1, credit2 := f.credits.2.1, credit3 := f.credits.2.2, epoch := f.epoch, codewordOk := true, tag := [] }
  let x := s.sealFrame s.twinB n f.gen h f.body
  hdrBytes h f.body ++ x.1 ++ x.2

/-- The generation a received frame's KEYSEL names: the one in use, or the one before while it is accepted (R333). -/
def State.rxKeyGen (s : State) (keysel : Bool) : Option Nat :=
  if (s.link.rxGen % 2 == 1) == keysel then some s.link.rxGen else s.link.rxOld

/-- The tag of a received frame verifies (R332). -/
def State.linkTagOk (s : State) (n : Nat) (h : LinkHdr) (b : LinkBody) : Bool :=
  match s.rxKeyGen h.keysel with
  | some g => h.tag == (s.sealFrame (!s.twinB) n g h b).1
  | none => false

/-- Header bytes of a HELLO (R326, R331): fields that only numbered frames use are 0 (DEDUCED, log 220). -/
def helloBytes (m : HelloMsg) : List Byte :=
  placeBytes 48 [(0, toLe 1 0x0B), (32, toLe 4 m.bootCount), (36, toLe 4 m.linkCount), (40, toLe 1 (twinNo m.twin)), (44, toLe 4 m.gen)]

/-- The GMAC tag of a HELLO on a strand under the master key (R331). -/
def State.helloTag (s : State) (fromB : Bool) (n : Nat) (m : HelloMsg) : List Byte :=
  gcmTag s.masterKey (ivOf n (dirNo fromB) 0xFFFF m.bootCount m.linkCount) (helloBytes m) []

/-- Bytes 0 to 39 of a sideband frame (R337). -/
def sbBytes (f : SbFrame) : List Byte :=
  placeBytes 40 [(0, toLe 2 0x5301), (2, toLe 1 (twinNo f.twin)), (3, toLe 1 (b2n f.linkUp + 2 * b2n f.fenced + 4 * b2n f.flushing)), (4, toLe 4 f.seq), (8, toLe 8 f.tbNs),
    (16, toLe 8 f.pairGen), (24, toLe 8 f.confirmed), (32, toLe 4 f.bootCount)]

/-- The tag of a sideband frame under K_SB of its sender's boot count (R337, R338). -/
def State.sbTag (s : State) (f : SbFrame) : List Byte :=
  gcmTag (kdf s.masterKey [1, f.bootCount]) (ivOf 0x53 (twinNo f.twin) 0 f.bootCount f.seq) (sbBytes f) []

/-- The 56 bytes of a sideband frame's payload (R337). -/
def sbPayload (f : SbFrame) : List Byte := sbBytes f ++ f.tag

end Sys2Proof.Machine
end

