-- ==== Sys2Proof/Machine/LinkOps.lean ====
section
/-! DEFINITION. The Swidun link below its payloads: strands and the link's state, sending with credits, sequence numbers
and retry, receiving in VC order (R325 to R334, R340). -/

namespace Sys2Proof.Machine

/-- A strand. -/
def State.strand (s : State) (n : Nat) : Strand := NMap.getD s.link.strands n {}

/-- Writes a strand. -/
def State.setStrand (s : State) (n : Nat) (v : Strand) : State :=
  { s with link := { s.link with strands := NMap.put {} s.link.strands n v } }

/-- Changes a strand. -/
def State.modStrand (s : State) (n : Nat) (f : Strand → Strand) : State := s.setStrand n (f (s.strand n))

/-- State of a strand: OFF 0, TRAINING 1, ALIGNING 2, KEYING 3, UP 4, FAILED 5 (R324, R325, LINK_STAT). -/
def State.strandSt (s : State) (n : Nat) : Nat := bits (s.reg (regKey 0xB 0x108)) (4 * n + 35) (4 * n + 32)

/-- Writes a strand's state and its UP bit. -/
def State.setStrandSt (s : State) (n v : Nat) : State :=
  let w := setBits (s.reg (regKey 0xB 0x108)) (4 * n + 35) (4 * n + 32) v
  s.setReg (regKey 0xB 0x108) (setBits w (24 + n) (24 + n) (b2n (v == 4)))

/-- Strands UP. -/
def State.upStrands (s : State) : List Nat := (List.range 8).filter (fun n => s.strandSt n == 4)

/-- MIR link counter k (R340). -/
def State.linkCtr (s : State) (k : Nat) (n : Nat := 1) : State := s.inc MIR_LINK_COUNTER_COUNT n 0 (8 * k)

/-- Virtual channel of a frame (R327). -/
def LinkBody.vc : LinkBody → Nat
  | .epochData _ => 1
  | .fwdReq _ => 2
  | .fwdResp _ => 3
  | .resync _ => 3
  | _ => 0

/-- Credit left on a VC in blocks; VC0 is never withheld (R330). -/
def State.vcCredit (s : State) (vc : Nat) : Nat := if vc = 0 then 256 else NMap.getD s.link.credit vc 0

/-- Strand with the least transmit work queued, the lowest of equals (R328). A strand that its generation's frame limit
or a clearing STRAND_EN stops takes no new frame. -/
def State.pickStrand (s : State) : Option Nat :=
  (s.upStrands.filter (fun n => !(s.strand n).blocked && (s.strand n).disableAt.isNone)).foldl (fun best n =>
    match best with
    | none => some n
    | some b => if (s.strand n).unacked.length < (s.strand b).unacked.length then some n else best) none

/-- Generation a frame is sent under: the one in use; KEY_NEXT goes under the one before the generation it names (R333, R334). -/
def State.genOf (s : State) : LinkBody → Nat
  | .keyNext g => g - 1
  | _ => s.link.txGen

/-- FINAL stands on the frames of a final epoch (R327). -/
def State.finalFrame (s : State) (epoch : Nat) (b : LinkBody) : Bool :=
  match b, s.dur.flush with
  | .epochData _, some f => epoch == f.finalEpoch
  | .seal m, _ => m.final
  | _, _ => false

/-- Puts a frame on a strand with the next FSEQ (R326, R329). -/
def State.putFrame (s : State) (n : Nat) (vc vseq epoch blocks : Nat) (b : LinkBody) : State :=
  let st := s.strand n
  let f : SentFrame := { fseq := st.nextFseq, vc := vc, vseq := vseq, epoch := epoch, blocks := blocks, body := b, gen := s.genOf b, final := s.finalFrame epoch b
                         ack := st.rxFseq, nak := st.nakOwed }
  let frames := st.genFrames + 1
  let s := s.setStrand n { st with
    unacked := st.unacked ++ [f], nextFseq := st.nextFseq + 1, genFrames := frames, blocked := decide (2 ^ 31 ≤ frames), rotWait := if 2 ^ 31 ≤ frames then some s.mono else none, retryAt := some (st.retryAt.getD (s.mono + s.rd MIR_LINK_CFG_RETRY_NS)), ackOwed := false, nakOwed := false }
  ((s.linkCtr 0).linkCtr 2 (1 + blocks)).emit (.linkFrame n st.nextFseq vc vseq epoch b (s.frameWire n f))

/-- Sends what a VC's credit and the strands allow, VC0 first (R328, R330); the cells of a chain return as it leaves (R78). -/
def drainQueue : Nat → State → State
  | 0, s => s
  | k + 1, s =>
    let ready (f : QueuedFrame) : Bool := f.vc == 0 || decide (f.blocks ≤ s.vcCredit f.vc)
    let q := s.link.queue
    let firstOf (vc : Nat) : Option QueuedFrame := (q.find? (fun f => f.vc == vc)).filter ready
    match s.pickStrand, (firstOf 0).or ((firstOf 1).or ((firstOf 2).or (firstOf 3))) with
    | some n, some f =>
      let v := NMap.getD s.link.nextVseq f.vc 1
      let s := { s with link := { s.link with
        queue := q.erase f, nextVseq := NMap.insert s.link.nextVseq f.vc (v + 1), credit := if f.vc = 0 then s.link.credit else NMap.put 0 s.link.credit f.vc (s.vcCredit f.vc - f.blocks) } }
      let s := s.subLink f.cells
      let s := { s with hearth := { s.hearth with egressUsed := s.hearth.egressUsed - f.rsvCells } }
      drainQueue k (s.putFrame n f.vc v f.epoch f.blocks f.body)
    | _, _ => s

/-- Queues a frame built as a chain and sends what can go: its cells are held until it leaves (R78). -/
def State.sendChain (s : State) (epoch : Nat) (b : LinkBody) (cells rsv : Nat) : State :=
  let s := { s with link := { s.link with queue := s.link.queue ++ [⟨b.vc, epoch, b.blocks, b, cells, rsv⟩] } }
  drainQueue s.link.queue.length s

/-- Queues a frame and sends what can go. -/
def State.sendLink (s : State) (epoch : Nat) (b : LinkBody) : State := s.sendChain epoch b 0 0

/-- A FWD_RESP leaves in frames of up to 1,024 bytes of payload (R326, R346); its cells return with the last. -/
def State.sendResp (s : State) (epoch : Nat) (r : FwdRespMsg) (cells rsv : Nat) : State :=
  let n := max 1 (divUp r.data.length 1024)
  (List.range n).foldl (fun (s : State) j =>
    let last := j + 1 == n
    s.sendChain epoch (.fwdResp { r with data := (r.data.drop (1024 * j)).take 1024 }) (if last then cells else 0) (if last then rsv else 0)) s

/-- Cells for a response returned over the link whose payload comes from n lines (R74, R78, R81): shared under LINK_CAP, else of the egress
reserve. Gives how many of each; none where its building waits. -/
def State.chainForTwin (s : State) (n : Nat) : Option (State × Nat × Nat) :=
  let c := chainCells n
  if s.hearth.linkCharge + c ≤ s.rd HTH_CELL_RSV_LINK_CAP && c ≤ s.sharedFree then some (s.addLink c, c, 0)
  else if s.hearth.egressUsed + c ≤ s.hearth.layout.egressRsv then
    some ({ s with hearth := { s.hearth with egressUsed := s.hearth.egressUsed + c } }, 0, c)
  else none

/-- Sends everything waiting. -/
def State.drainLink (s : State) : State := drainQueue s.link.queue.length s

/-- Link state DOWN 0, DEGRADED 1, UP 2 (R334). -/
def State.linkState (s : State) : Nat := s.rd MIR_LINK_STAT_STATE

/-- Recomputes the link's state from its strands, with the events of a change (R334, R341). -/
def State.linkUpdate (s : State) : State :=
  let n := s.upStrands.length
  let v := if n = 8 then 2 else if n = 0 then 0 else 1
  let old := s.linkState
  if v = old then s
  else
    let s := s.wr MIR_LINK_STAT_STATE v
    let s := if v = 0 then ((s.wr MIR_KEY_STAT_TX_GEN 0).raise 0xB 36)
      else if v = 2 then s.raise 0xB 37 else s.raise 0xB 35
    if v = 0 then { s with link := { s.link with txGen := 0 } } else s

/-- Cause of a strand's departure in STRAND_CAUSE. -/
def State.setCause (s : State) (n c : Nat) : State :=
  s.setReg (regKey 0xB 0x110) (setBits (s.reg (regKey 0xB 0x110)) (4 * n + 3) (4 * n) c)

/-- A strand leaves UP (R325, R334): its frames are sent again on the others, it retrains after 100 ms, or fails after
ten departures within an hour. `off`: it was disabled. -/
def State.strandLeaves (s : State) (n cause : Nat) (off : Bool) : State :=
  let st := s.strand n
  let wasUp := s.strandSt n == 4
  let downs := if wasUp then (st.downs.filter (fun t => decide (s.mono - t < 3600 * 1000000000))) ++ [s.mono] else st.downs
  let failed := decide (10 ≤ downs.length) || cause == 5 || cause == 6
  let s := s.setCause n cause
  let s := s.setStrandSt n (if off then 0 else if failed then 5 else 0)
  let s : State := if s.upStrands.head? = some n || wasUp && s.upStrands.all (fun m => decide (n < m)) then { s with link := { s.link with timeT1 := 0, timeSent := 0 } } else s
  let s := s.setStrand n { downs := downs, retrainAt := if off || failed then none else some (s.mono + ms 100) }
  let s := if wasUp then (s.linkCtr 8).raise 0xB 33 else s
  let s := s.raiseIf failed 0xB 34
  let s := s.raiseIf (cause == 4) 0xB 39
  let s := s.linkUpdate
  st.unacked.foldl (fun s f =>
    match s.pickStrand with
    | some m => (s.linkCtr 7).putFrame m f.vc f.vseq f.epoch f.blocks f.body
    | none => s.setStrand n { (s.strand n) with unacked := (s.strand n).unacked ++ [f] }) s

/-- Frames held while no strand was UP go out on one that comes UP (R334). -/
def State.resendHeld (s : State) : State :=
  (List.range 8).foldl (fun s n =>
    if s.strandSt n = 4 then s
    else
      let fs := (s.strand n).unacked
      if fs.isEmpty then s
      else match s.pickStrand with
        | none => s
        | some _ =>
          let s := s.modStrand n (fun x => { x with unacked := [] })
          fs.foldl (fun s f => match s.pickStrand with
            | some m => (s.linkCtr 7).putFrame m f.vc f.vseq f.epoch f.blocks f.body
            | none => s) s) s

/-- Sends the frames of a strand again from the one after an FSEQ, bit-identical (R329). A frame sent 16 times again makes
the strand leave UP with RETRY_EXC. -/
def State.goBack (s : State) (n from_ : Nat) : State :=
  let st := s.strand n
  let again := st.unacked.filter (fun f => decide (from_ < f.fseq))
  let s := s.modStrand n (fun x => { x with
    unacked := x.unacked.map (fun f => if from_ < f.fseq then { f with tries := f.tries + 1 } else f), retryAt := some (s.mono + s.rd MIR_LINK_CFG_RETRY_NS) })
  let s := again.foldl (fun s f => (s.linkCtr 7).emit (.linkFrame n f.fseq f.vc f.vseq f.epoch f.body (s.frameWire n f))) s
  if again.any (fun f => decide (16 ≤ f.tries + 1)) then s.strandLeaves n 3 false else s

/-- Credit of a VC arrives; a stall of it ends (R330). -/
def State.addCredit (s : State) (vc c : Nat) : State :=
  if c = 0 then s
  else
    let s : State := match NMap.find s.link.stallSince vc with
      | some t =>
        let s := s.linkCtr 11 (s.mono - t)
        { s with link := { s.link with stallSince := NMap.erase s.link.stallSince vc } }
      | none => s
    { s with link := { s.link with credit := NMap.put 0 s.link.credit vc (NMap.getD s.link.credit vc 0 + c) } }

/-- ACK and credits of a received header (R329, R330). -/
def State.takeAck (s : State) (n : Nat) (h : LinkHdr) : State :=
  let st := s.strand n
  let left := st.unacked.filter (fun f => decide (h.ack < f.fseq))
  let progress := left.length != st.unacked.length
  let s := s.setStrand n { st with
    unacked := left, retryAt := if left.isEmpty then none else if progress then some (s.mono + s.rd MIR_LINK_CFG_RETRY_NS) else st.retryAt }
  let s := ((s.addCredit 1 h.credit1).addCredit 2 h.credit2).addCredit 3 h.credit3
  let s := if h.nak then s.goBack n h.ack else s
  s.drainLink

/-- A strand delivered a frame: the generation before is no longer accepted once every UP strand has delivered one under the next (R333). -/
def State.genSeen (s : State) (n : Nat) (keysel : Bool) : State :=
  if s.link.rxOld.isNone || (s.link.rxGen % 2 == 1) != keysel then s
  else
    let s := s.modStrand n (fun x => { x with rxNewGen := true })
    if s.upStrands.all (fun m => (s.strand m).rxNewGen) then { s with link := { s.link with rxOld := none } } else s

/-- Outcome of receiving a frame on a strand: dropped, or taken in FSEQ order (R329, R332). -/
def State.takeFrameHdr (s : State) (n : Nat) (h : LinkHdr) (b : LinkBody) : State × Bool :=
  let st := s.strand n
  if s.strandSt n != 4 then (s, false)
  else if !h.codewordOk then (s.modStrand n (fun x => { x with nakOwed := true }), false)
  else if !s.linkTagOk n h b then
    let s := s.linkCtr 6
    let run := st.tagRun + 1
    let s := s.modStrand n (fun x => { x with nakOwed := true, tagRun := run })
    (if 4 ≤ run then s.strandLeaves n 4 false else s, false)
  else
    let s := s.takeAck n h
    if h.fseq = st.rxFseq + 1 then
      ((s.modStrand n (fun x => { x with rxFseq := h.fseq, tagRun := 0, nakOwed := false, ackOwed := true })).genSeen n h.keysel, true)
    else if h.fseq ≤ st.rxFseq then (s.modStrand n (fun x => { x with ackOwed := true }), false)
    else (s.modStrand n (fun x => { x with nakOwed := true }), false)

/-- Frames of a VC that may now be delivered, in VSEQ order (R328). -/
def takeInOrder : Nat → Nat → List HeldFrame → List HeldFrame × Nat × List HeldFrame
  | 0, next, held => ([], next, held)
  | k + 1, next, held =>
    match held.find? (fun f => f.vseq == next) with
    | some f =>
      let (out, n, h) := takeInOrder k (next + 1) (held.filter (fun g => g.vseq != next))
      (f :: out, n, h)
    | none => ([], next, held)

/-- Receives a frame: what may be delivered now, in order. A copy whose VSEQ was delivered is discarded (R334). -/
def State.receive (s : State) (n : Nat) (h : LinkHdr) (b : LinkBody) : State × List HeldFrame :=
  let (s, ok) := s.takeFrameHdr n h b
  if !ok then (s, [])
  else
    let s := (s.linkCtr 1).linkCtr 3 (1 + b.blocks)
    let vc := b.vc
    let next := NMap.getD s.link.rxVseq vc 1
    let held := NMap.getD s.link.reorder vc []
    if h.vseq < next || held.any (fun f => f.vseq == h.vseq) || decide (4096 ≤ held.length) then (s, [])
    else
      let (out, next, held) := takeInOrder (held.length + 1) next (held ++ [⟨h.vseq, h, b⟩])
      ({ s with link := { s.link with
          rxVseq := NMap.insert s.link.rxVseq vc next, reorder := NMap.put [] s.link.reorder vc held } }, out)

/-- Credit to be returned to the twin (R330): VC1 as records are applied, VC2 and VC3 as their space frees; VC2 credit is
withheld at LINK_CAP or at SHUT (R81). -/
def State.oweCredit (s : State) (vc n : Nat) : State :=
  { s with link := { s.link with owed := NMap.put 0 s.link.owed vc (NMap.getD s.link.owed vc 0 + n) } }

end Sys2Proof.Machine
end

