-- ==== Sys2Proof/Machine/ChainOps.lean ====
section
/-! DEFINITION. Trigger-chain runs: the fields of chains and operation slots, starting an operation, its completion, the
end of a run, failure (R199, R200, R204 to R208), and device-initiated SENDs (R168). -/

namespace Sys2Proof.Machine

/-- A chain's entry (R199). -/
def State.chain (s : State) (i : Nat) : List Word64 := NMap.getD s.chains.chains i (List.replicate 8 0)

/-- Bits of a word of a chain's entry. -/
def State.cf (s : State) (i w hi lo : Nat) : Nat := bits (wordAt (s.chain i) w) hi lo

/-- Writes bits of a word of a chain's entry. -/
def State.setCf (s : State) (i w hi lo v : Nat) : State :=
  let e := setNth (s.chain i) w (setBits (wordAt (s.chain i) w) hi lo v)
  { s with chains := { s.chains with chains := NMap.put (List.replicate 8 0) s.chains.chains i e } }

/-- Stages a chain's entry (R209, R350). -/
def State.stageChain (s : State) (i : Nat) : State := s.stage (.chain false i (s.chain i))

/-- A run in progress. -/
def State.run (s : State) (i : Nat) : Run := NMap.getD s.chains.runs i {}

/-- Writes a run. -/
def State.setRun (s : State) (i : Nat) (r : Run) : State :=
  { s with chains := { s.chains with runs := NMap.put {} s.chains.runs i r } }

/-- The operation slot of a chain's step: slots are relative to its twin's half (R198, R199). -/
def State.slot (s : State) (i step : Nat) : List Word64 :=
  NMap.getD s.chains.ops ((if i < 16384 then 0 else 32768) + s.cf i 0 46 32 + step) (List.replicate 8 0)

/-- CUR_STEP of a chain. -/
def State.curStep (s : State) (i : Nat) : Nat := s.cf i 3 35 32

/-- TRG.STAT (R210): chains in a state whose QP this twin serves, hosted ones included. -/
def State.chainCount (s : State) (st : Nat) : Nat :=
  (s.chains.chains.filter (fun e => bits (wordAt e.2 0) 2 0 == st && s.homeOf (bits (wordAt e.2 1) 23 0))).length

/-- Sends a device-initiated SEND (R168) on a resident context: next SPSN, its timer, the frame paced as R170 asks. The NOTIFY of a chain
is complete when the frame has left (R206). -/
def State.sendNow (s : State) (n : Nat) (payload : List Byte) (chain : Option Nat) : State :=
  let psn := s.qf n 2 55 32
  let to_ := s.qf n 7 4 0
  let dl := if to_ = 0 then none else some (s.mono + 4096 * 2 ^ to_)
  let o : SendOut := { psn := psn, deadline := dl, tries := 0, rnrTries := 0, rnrAt := none, payload := payload, chain := chain }
  let s := s.setQf n 2 55 32 (psn + 1)
  let s := s.setQf n 7 31 16 (s.qf n 7 31 16 + 1)
  let s := s.modQp n (fun q => { q with sends := q.sends ++ [o] })
  let s := match chain with
    | some i => s.setRun i { s.run i with notifyPsn := some psn, notifyWait := false }
    | none => s
  let f := s.qFrame n 0 payload.length (.send n psn payload)
  let s := s.queueTx { f with paced := s.paces n f.port } []
  s.stageQp n

/-- A device-initiated SEND: where its context is not resident it waits for the load (R69), behind those that wait already. -/
def State.deviceSend (s : State) (n : Nat) (payload : List Byte) (chain : Option Nat) : State :=
  let (here, s) := s.ctxUse n
  if here && (s.qp n).sendWait.isEmpty then s.sendNow n payload chain
  else s.modQp n (fun q => { q with sendWait := q.sendWait ++ [(payload, chain)] })

/-- SENDs that waited for their QP's context go on, in order. -/
def State.sendsGo (s : State) (n : Nat) : State :=
  let l := (s.qp n).sendWait
  let s := s.modQp n (fun q => { q with sendWait := [] })
  l.foldl (fun s x => s.sendNow n x.1 x.2) s

/-- What a run holds is returned when it leaves RUNNING (R204, R207): its message's cells, what is left of its
reservation. -/
def State.freeRun (s : State) (i : Nat) : State :=
  let r := s.run i
  let s := s.unreserve (s.cf i 0 15 8) r.reserve
  let s := r.held.foldl (fun (s : State) h => (s.freeRx h).afterFree h.1) s
  (r.stamps.foldl (fun s st => s.dropHold st (s.cf i 1 23 0)) s).setRun i {}

/-- Number of a chain on its twin (R198): what notices carry. -/
def chainNo (i : Nat) : Nat := i % 16384

/-- An operation holds the entries it was checked against, with the stamp of its check (R184, R208). -/
def State.chainHold (s : State) (i : Nat) (keys : List Nat) : State :=
  keys.foldl (fun s k =>
    let (s, st) := s.takeHold (s.cf i 1 23 0) k
    s.setRun i { s.run i with stamps := (s.run i).stamps ++ [st] }) s

/-- Its effects are placed: it lets them go. -/
def State.chainLetGo (s : State) (i : Nat) : State :=
  let l := (s.run i).stamps
  (l.foldl (fun s st => s.dropHold st (s.cf i 1 23 0)) s).setRun i { s.run i with stamps := [] }

/-- The arming message reaches its ACK point (R204), or its NAK 0x63 is due (R207). -/
def State.armAnswer (s : State) (i : Nat) (ok : Bool) : State :=
  match (s.run i).armOp with
  | some id =>
    if ok then s.modOp id (fun o => { o with placed := true, issued := true })
    else s.modOp id (fun o => { o with placed := true, issued := true, kind := .nak 0x63 })
  | none => s

/-- A run fails at its operation in progress (R207). -/
def State.chainFail (s : State) (i cause : Nat) : State :=
  let step := s.curStep i
  let qpn := s.cf i 1 23 0
  let s := ((s.setCf i 0 2 0 4).setCf i 3 43 40 step).setCf i 3 55 48 cause
  let s := s.satInc TRG_COUNTS_FAILS 1
  let s := (((s.wr TRG_LAST_FAIL_CAUSE cause).wr TRG_LAST_FAIL_STEP step).wr TRG_LAST_FAIL_CHAIN i).wr TRG_LAST_FAIL_QPN qpn
  let s := s.raiseArg 0x10 0 (s.reg (TRG_LAST_FAIL_CAUSE.key))
  let s := if s.cf i 0 5 5 = 1 then s.armAnswer i false else s
  let s := if s.cf i 0 6 6 = 1 && s.qState qpn == 3 then
      s.deviceSend qpn (toBe 4 (chainNo i) ++ toBe 4 (s.cf i 3 31 0) ++ toBe 1 step ++ toBe 1 cause ++ List.replicate 6 0) none
    else s
  let s := s.dropOps (fun o => match o.for_ with | .chain j _ => j == i | _ => false)
  (s.freeRun i).stageChain i

/-- The operation in progress of a run is complete (R205): the next one may start; after the last the chain re-arms or is
DONE (R206). A steward's disarm ends the run here (R201). -/
def State.chainStepDone (s : State) (i : Nat) : State :=
  let step := s.curStep i
  let s := s.chainLetGo i
  let r := s.run i
  if r.disarm then s.chainFail i 4
  else if step + 1 < s.cf i 0 20 16 then
    ((s.setCf i 3 35 32 (step + 1)).setRun i { r with busy := false, waitEpoch := none, notifyPsn := none, notifyWait := false }).stageChain i
  else
    let s := s.setCf i 0 2 0 (if s.cf i 0 4 4 = 1 then 1 else 3)
    let s := s.setCf i 3 35 32 0
    let s := if s.cf i 0 5 5 = 1 then s.armAnswer i true else s
    (s.freeRun i).stageChain i

/-- LENGTH of an operation: P2 with LEN_P2 (R200). -/
def State.opLen (s : State) (i : Nat) (e : List Word64) : Nat :=
  if bit (wordAt e 0) 11 then s.cf i 6 31 0 else bits (wordAt e 4) 31 0

/-- Source offset of an operation: P0 added with SRC_ADD_P0 (R200). -/
def State.opSrcOff (s : State) (i : Nat) (e : List Word64) : Nat :=
  ((wordAt e 2).toNat + (if bit (wordAt e 0) 9 then s.cf i 4 63 0 else 0)) % 2 ^ 64

/-- Destination offset of an operation: P1 added with ADD_P1 (R200). -/
def State.opDstOff (s : State) (i : Nat) (e : List Word64) : Nat :=
  ((wordAt e 3).toNat + (if bit (wordAt e 0) 10 then s.cf i 5 63 0 else 0)) % 2 ^ 64

/-- The key check of a chain operation (R206): against the chain's tenant, the generation compared. -/
def State.chainKey (s : State) (i rkey right off len : Nat) : Except Nat (Key × Nat) :=
  s.keyCheck rkey true (s.cf i 0 15 8) right (some ((s.key (rkey / 4096)).vaBase + off, len))

/-- A failed key check ends the run (R207). -/
def State.chainKeyFail (s : State) (i cause rkey : Nat) : State :=
  (s.keyFail cause (rkey / 4096) (s.cf i 1 23 0)).chainFail i 1

/-- The run is at an operation that has not been started (R205). -/
def State.chainReady (s : State) (i : Nat) : Bool :=
  let r := s.run i
  s.cf i 0 2 0 == 2 && r.ready && !r.busy

/-- Pieces of a range of the pool: cut at region boundaries, and in a region of the twin's into 4,096 bytes (R346). -/
def State.pieces : Nat → State → Nat → Nat → List (Nat × Nat)
  | 0, _, _, _ => []
  | k + 1, s, pool, len =>
    if len = 0 then []
    else
      let room := 2 ^ 30 - pool % 2 ^ 30
      let n := min len (if s.owns (regionOf pool) then room else min room 4096)
      (pool, n) :: State.pieces k s (pool + n) (len - n)

/-- PSN by which the twin knows an ATOMIC of this run and step again (R209; log 33). -/
def State.chainPsn (s : State) (i : Nat) : Nat := (s.cf i 3 4 0) * 2 ^ 19 + i * 16 + s.curStep i

/-- Adds the memory operations of the run's step; what they write of the run's reservation is theirs from here (R204). -/
def State.addChainOps (s : State) (i : Nat) (k : OpKind) (cls tenant pool len : Nat) (data : List Byte) (cmp swap : Word64) : State :=
  let r := s.run i
  let writes := k != .copySrc && k != .notifySrc
  let n := if k == .copyDst then len else if writes then 64 else 0
  let s := s.setRun i { r with busy := true, ownersWritten := r.ownersWritten || writes, reserve := r.reserve - n }
  (State.pieces (len / 4096 + 3) s pool len).foldl (fun s x =>
    let m := if k == .copyDst then x.2 else if writes then 64 else 0
    let s := if m = 0 || s.owns (regionOf x.1) then s
      else
        let s := s.addWused tenant 0 m
        let t := s.tenant tenant
        s.setTenant tenant { t with fwdRsv := t.fwdRsv + m }
    let once := k == .cas || k == .fadd
    s.addOp { id := 0, for_ := .chain i (s.curStep i), kind := k, psn := if once then s.chainPsn i else 0, seg := b2n once, cls := cls, tenant := tenant, pool := x.1, len := x.2, data := (data.drop (x.1 - pool)).take x.2, cmp := cmp, swap := swap }) s

/-- Starts a COPY (R206), once its keys' entries are resident (R180). -/
def State.chainCopy (s : State) (i : Nat) : State :=
  let e := s.slot i (s.curStep i)
  let len := s.opLen i e
  let off := s.opSrcOff i e
  let msg := bit (wordAt e 0) 8
  let dst := bits (wordAt e 1) 63 32
  let src := bits (wordAt e 1) 31 0
  if len = 0 ∨ 2 ^ 24 < len ∨ (msg ∧ (s.run i).data.length < off + len) then s.chainFail i 5
  else
    let keys := (dst / 4096) :: (if msg then [] else [src / 4096])
    let (here, s) := s.keysReady keys
    if !here then s
    else match s.chainKey i dst 9 (s.opDstOff i e) len with
    | .error c => s.chainKeyFail i c dst
    | .ok (k, pool) =>
      if msg then (s.chainHold i keys).addChainOps i .copyDst k.cls (s.cf i 0 15 8) pool len (((s.run i).data.drop off).take len) 0 0
      else match s.chainKey i src 8 off len with
        | .error c => s.chainKeyFail i c src
        | .ok (_, sp) =>
          let s := s.chainHold i keys
          (s.setRun i { s.run i with dstPool := pool, dstCls := k.cls }).addChainOps i .copySrc 2 (s.cf i 0 15 8) sp len [] 0 0

/-- Starts an ATOMIC (R206). -/
def State.chainAtomic (s : State) (i : Nat) : State :=
  let e := s.slot i (s.curStep i)
  let dst := bits (wordAt e 1) 63 32
  let (here, s) := s.keysReady [dst / 4096]
  if !here then s
  else match s.chainKey i dst 9 (s.opDstOff i e) 8 with
  | .error c => s.chainKeyFail i c dst
  | .ok (k, pool) =>
    let s := s.chainHold i [dst / 4096]
    if pool % 8 ≠ 0 then s.chainFail i 5
    else if bit (wordAt e 0) 12 then s.addChainOps i .fadd k.cls (s.cf i 0 15 8) pool 8 [] 0 (wordAt e 5)
    else s.addChainOps i .cas k.cls (s.cf i 0 15 8) pool 8 [] (wordAt e 5) (wordAt e 6)

/-- Starts a PERSIST (R206): it waits for the next seal after its execution, if earlier operations wrote anything. -/
def State.chainPersist (s : State) (i : Nat) : State :=
  let r := s.run i
  match r.ownersWritten, s.stageEpoch with
  | true, some n => s.setRun i { r with busy := true, waitEpoch := some n, ownersWritten := false }
  | _, _ => s.chainStepDone i

/-- NOTIFY_QPN is in RTS, homed here and of the chain's tenant (R206). -/
def State.notifyOk (s : State) (i n : Nat) : Bool :=
  s.qState n == 3 && s.homeOf n && s.qTenant n == s.cf i 0 15 8

/-- Sends a NOTIFY's SEND; it is complete when the frame has left (R206). -/
def State.notifySend (s : State) (i n : Nat) (payload : List Byte) : State :=
  (s.setRun i { s.run i with busy := true, notifyWait := true }).deviceSend n payload (some i)

/-- Starts a NOTIFY (R206, R207). -/
def State.chainNotify (s : State) (i : Nat) : State :=
  let e := s.slot i (s.curStep i)
  let n := bits (wordAt e 4) 55 32
  let len := s.opLen i e
  let src := bits (wordAt e 1) 31 0
  if !s.notifyOk i n then s.chainFail i 3
  else if len = 0 then
    let w := (wordAt e 7).toNat + (if bit (wordAt e 0) 10 then s.cf i 5 63 0 else 0)
    s.notifySend i n (toBe 4 (chainNo i) ++ toBe 4 (s.cf i 3 31 0) ++ toBe 8 w)
  else if 4096 < len ∨ s.qPmtu n < len then s.chainFail i 5
  else
    let (here, s) := s.keysReady [src / 4096]
    if !here then s
    else match s.chainKey i src 8 (s.opSrcOff i e) len with
    | .error c => s.chainKeyFail i c src
    | .ok (_, sp) => (s.chainHold i [src / 4096]).addChainOps i .notifySrc 2 (s.cf i 0 15 8) sp len [] 0 0

/-- The destination line of a COPY whose source is uncorrectable is written poisoned (R207): by an operation at its owner, or, of a line
the twin owns, by a record with POISON set in the open epoch (R350, R377). Gives whether an operation runs. -/
def State.chainPoison (s : State) (i cls pool : Nat) : State × Bool :=
  let t := s.cf i 0 15 8
  let line := pool / 64
  if s.owns (regionOf pool) then
    let left := (s.run i).reserve
    let s := s.reserveAt t (64 * line) (64 - left)
    ((s.setRun i { s.run i with reserve := max left 64 }).addChainOps i .poison cls t (64 * line) 64 [] 0 0, true)
  else (s.stage (.line t line true 0), false)

/-- The memory operations of a run's step are done: a COPY's source read goes on to its destination, a NOTIFY's to its
SEND, the others complete the step. An uncorrectable source copies what precedes it and poisons the destination line
(R206, R207). -/
def State.chainOpsDone (s : State) (i : Nat) (g : List Op) : State :=
  let s := s.removeOps (g.map (fun o => o.id))
  let bad := g.flatMap (fun o => o.bad)
  match g with
  | [] => s
  | o :: _ =>
    let e := s.slot i (s.curStep i)
    match o.kind with
    | .copySrc =>
      let all := g.flatMap (fun o => o.readBytes)
      let r := s.run i
      let t := s.cf i 0 15 8
      (match bad with
       | [] => s.addChainOps i .copyDst r.dstCls t r.dstPool all.length all 0 0
       | b :: bs =>
         let n := 64 * bs.foldl min b - o.pool
         let s := if n = 0 then s else s.addChainOps i .copyDst r.dstCls t r.dstPool n (all.take n) 0 0
         let (s, runs) := s.chainPoison i r.dstCls (r.dstPool + n)
         if runs || n != 0 then s.setRun i { s.run i with failCause := some 2 } else s.chainFail i 2)
    | .notifySrc =>
      if !bad.isEmpty then s.chainFail i 2
      else
        let n := bits (wordAt e 4) 55 32
        if s.notifyOk i n then s.notifySend i n (g.flatMap (fun o => o.readBytes)) else s.chainFail i 3
    | _ =>
      if !bad.isEmpty then s.chainFail i 2
      else match (s.run i).failCause with
        | some c => s.chainFail i c
        | none => s.chainStepDone i

end Sys2Proof.Machine
end

