-- ==== Sys2Proof/Machine/EpochOps.lean ====
section
/-! DEFINITION. Epochs: opening into a freed half, closing with records, SEAL and heartbeat, confirmation and what it
releases, and the moves of regions that confirmations carry on (R103, R108, R159, R187, R215, R302, R347 to R353). -/

namespace Sys2Proof.Machine

/-- Twin counter k of R366. -/
def State.twinCtr (s : State) (k : Nat) (n : Nat := 1) : State := s.inc MIR_TWIN_COUNTER_COUNT n 0 (8 * k)

/-- Stages a pair-wide setting in the open epoch n, at whose confirmation it takes effect (R350). -/
def State.stageSetting (s : State) (n page off : Nat) (v : Word64) : State :=
  let s := s.stage (.config page off v)
  { s with pair := { s.pair with configWait := s.pair.configWait ++ [(n, .config page off v)] } }

/-- Opens the next epoch if its half is free (R349, R350): that of the epoch two before is confirmed. None opens before the
first, or after a final one. -/
def State.openNext (s : State) : State :=
  let n := s.pair.openEpoch + 1
  if !s.pair.opened || s.openSlot.isSome || s.pair.flushEpoch.isSome || decide (s.pair.confirmed + 2 < n) then s
  else
    let recs := s.pair.waitRecs
    let s : State := { s with pair := { s.pair with
        epochs := s.pair.epochs ++ [{ n := n, recs := recs, bytes := (recs.map recBytes).sum }], openEpoch := n, waitRecs := [] } }
    let held := s.pair.configHold
    let s : State := { s with pair := { s.pair with configHold := [] } }
    let s := held.foldl (fun (s : State) (c : Nat × Nat × Word64) => s.stageSetting n c.1 c.2.1 c.2.2) s
    s.wr MIR_OPEN_EPOCH_VALUE n

/-- Records in frames of at most 16 blocks; a record never spans frames (R350). -/
def packRecs : List EpochRec → List EpochRec → Nat → List (List EpochRec)
  | [], cur, _ => if cur.isEmpty then [] else [cur]
  | r :: rs, cur, n =>
    if n + recBytes r ≤ 1024 || cur.isEmpty then packRecs rs (cur ++ [r]) (n + recBytes r)
    else cur :: packRecs rs [r] (recBytes r)

/-- The SEAL of the epoch that closes now (R351). -/
def State.sealMsg (s : State) (early fin drill : Bool) (n : Nat) : SealMsg :=
  let queued := (s.link.queue.filter (fun f => f.vc == 1)).length
  { closeTb := s.tb, lastVc1 := NMap.getD s.link.nextVseq 1 1 - 1 + queued
    lastResync := match s.pair.resyncVseq with | some (e, v) => if e = n then some v else none | none => none
    dirtyBytes := s.rd TIR_DIRTY_CHARGED_BYTES + s.rd TIR_DIRTY_RESERVED_BYTES, dirtyPages := s.tier.recs.length
    dirtyPagesMax := s.rd TIR_DIRTY_PAGES_MAX, budgetMib := s.rd TIR_DIRTY_MAX_EFF_MIB, windowClosed := s.windowClosed
    final := fin, early := early, drill := drill, noStamps := s.prot.holds.isEmpty, minStamp := s.minStamp.getD 0
    protSeq := s.protSeq, maxRegions := s.maxRegions }

/-- The heartbeat of now (R353). -/
def State.heartbeatMsg (s : State) : HeartbeatMsg :=
  { confirmed := s.pair.confirmed, pairGen := s.rd MIR_PAIR_GEN_VALUE, fenced := s.role == 5, flushing := s.dur.flush.isSome, takingOver := s.role == 3, standby := s.role == 6 }

/-- Sends a HEARTBEAT (R353). -/
def State.sendHeartbeat (s : State) : State :=
  if s.linkState = 0 then s
  else { s.sendLink s.pair.confirmed (.heartbeat s.heartbeatMsg) with pair := { s.pair with lastHbSent := s.mono } }

/-- WUSED of every tenant whose value the twin does not have yet (R187, R350). -/
def State.stageWused (s : State) : State :=
  s.prot.tenants.foldl (fun (s : State) e =>
    if NMap.getD s.pair.wusedSent e.1 0 = e.2.wused then s
    else { s.stage (.wused e.1 e.2.wused) with pair := { (s.stage (.wused e.1 e.2.wused)).pair with wusedSent := NMap.put 0 s.pair.wusedSent e.1 e.2.wused } }) s

/-- Chunks of 256 KiB that records write or discard (R358, R360). -/
def recChunks (rs : List EpochRec) : List Nat :=
  (rs.flatMap (fun r => match r with
    | .line _ l _ _ => [l / 4096]
    | .discard p n => (List.range ((p + n - 1) / 64 + 1 - p / 64)).map (fun i => p / 64 + i)
    | _ => [])).eraseDups

/-- The open epoch closes (R350, R351): its records and SEAL leave, the next opens if it may, a HEARTBEAT is sent. A U96
serving alone confirms at its own seal (R302). -/
def State.closeEpoch (s : State) (early fin drill : Bool) : State :=
  if s.openSlot.isNone then s
  else
    let s := if s.paired then s.stageWused else s
    match s.openSlot with
    | none => s
    | some e =>
      let alone := !s.paired
      let s := if alone then s
        else (packRecs e.recs [] 0).foldl (fun s rs => s.sendLink e.n (.epochData rs)) s
      let s := if alone then s else s.sendLink e.n (.seal (s.sealMsg early fin drill e.n))
      let s : State := { s with pair := { s.pair with
          epochs := s.pair.epochs.map (fun x => if x.n = e.n then { x with closed := some s.mono, acked := alone, applied := alone, recs := [], chunks := recChunks x.recs, floor := s.stampFloor, final := fin, drill := drill } else x)
          deadline := s.mono + s.rd MIR_EPOCH_NS_NS, flushEpoch := if fin then some e.n else s.pair.flushEpoch } }
      let s := s.twinCtr 0
      let s := if early then s.twinCtr 1 else s
      s.openNext.sendHeartbeat

/-- The open epoch's share is full, or its records would pass the VC1 credit (R350): it closes early. -/
def State.shareFull (s : State) : Bool :=
  match s.openSlot with
  | some e => decide (s.shareBytes ≤ e.bytes) || (s.paired && decide (s.vcCredit 1 < divUp e.bytes 64) && e.bytes != 0)
  | none => false

/-! ### Moves (R348) -/

/-- Lines of a region held in this twin's cache or flue, by page. -/
def State.regionPages (s : State) (r : Nat) : List Nat :=
  let a := s.cache.ways.filterMap (fun e => if !isPtKey e.2.key && e.2.st != .detached && regionOf (e.2.key * 64) == r then some (e.2.key / 64) else none)
  let b := s.cache.flue.filterMap (fun f => if !isPtKey f.key && regionOf (f.key * 64) == r then some (f.key / 64) else none)
  (a ++ b).eraseDups

/-- Operations in flight on a region. -/
def State.regionBusy (s : State) (r : Nat) : Bool :=
  s.dp.ops.any (fun o => o.issued && !o.placed && !o.toTwin && regionOf o.pool == r)
    || s.cache.held.any (fun h => regionOf (h.line * 64) == r)

/-- Step 2 of a move at the old owner: operations in flight are placed, lines written back and invalidated, none of them
UNSEALED; then RELEASE is staged (R348). Without a twin in service to serve the region the move waits (log 23). -/
def State.releaseRegion (s : State) (m : Move) : State :=
  let ps := s.regionPages m.region
  if s.role != 1 || !s.owns m.region || m.release.isSome || s.regionBusy m.region || ps.any (fun p => s.pageUnsealed p || (s.pte p).st == .moving) then s
  else match s.openSlot with
    | none => s
    | some e =>
      let s := ps.foldl (fun s p => (s.writeBackPage p).dropPageLines p) s
      let s := s.stage (.owner m.region (if m.toB then .b else .a))
      { s with pair := { s.pair with moves := s.pair.moves.map (fun x => if x.region = m.region then { x with running := true, release := some e.n } else x) } }

/-- Moves in the first eight places go on (R348). -/
def State.moveStep (s : State) : State := (s.pair.moves.take 8).foldl (fun s m => s.releaseRegion m) s

/-- Step 3: the new owner serves the region (R348); forwarded operations that waited here learn that this twin is not the
owner (R346). -/
def State.finishMove (s : State) (m : Move) : State :=
  let s := s.setRegion m.region { s.region m.region with ownerB := m.toB, moving := false }
  let s : State := { s with pair := { s.pair with moves := s.pair.moves.filter (fun x => x.region != m.region) } }
  let s := (s.twinCtr 9).raise 0xB 11
  if s.owns m.region then s
  else s.dp.ops.foldl (fun s o =>
    match o.for_ with
    | .fwd q p g =>
      if regionOf o.pool = m.region && !o.issued then
        (s.removeOps [o.id]).sendLink 0 (.fwdResp { qpn := q, psn := p, seg := g, status := .notOwner, data := [], result := 0 })
      else s
    | _ => s) s

/-! ### Confirmation (R159, R352) -/

/-- PG_GEN for a pair-wide setting in effect: at once for a write of BAR0, once at its end for a batch that waits (R46). -/
def State.cfgBump (s : State) (page off : Nat) : State :=
  let mine (b : BatchWait) : Bool := b.page == page && b.offs.contains off
  if s.pair.batches.any mine then
    { s with pair := { s.pair with batches := s.pair.batches.map (fun b => if mine b then { b with changed := true } else b) } }
  else s.bumpGen page

/-- A pair-wide setting takes effect and is saved (R350, R215, R417). A growing pool waits for its new page-table entries. -/
def State.applyConfig (s : State) (page off : Nat) (v : Word64) : State :=
  if page = 0xA ∧ off = 0x100 then
    let n := bits v 17 0
    if s.tier.poolRegions < n then { s with tier := { s.tier with growing := some n } }
    else ((s.setPool n).raise 0xA 5).cfgBump 0xA 0x100 |>.autoSave
  else
    let same := v &&& configMask page off == s.reg (regKey page off) &&& configMask page off
    let s := s.setReg (regKey page off) v
    (if same then s else s.cfgBump page off).autoSave

/-- A write of a pair-wide setting (R350): staged in the open epoch, or in the next where none is open; at once where no epoch
has opened yet. -/
def State.pairConfig (s : State) (page off : Nat) (v : Word64) : State :=
  match s.openSlot with
  | some e => s.stageSetting e.n page off v
  | none =>
    if s.pair.opened || s.paired then { s with pair := { s.pair with configHold := s.pair.configHold ++ [(page, off, v)] } }
    else s.applyConfig page off v

/-- What a confirmed seal of the twin tells takes effect (R187, R193, R215, R232). -/
def State.takeSeal (s : State) (m : SealMsg) : State :=
  { s with tier := { s.tier with
      twinCharged := m.dirtyBytes, twinPages := m.dirtyPages, twinPagesMax := m.dirtyPagesMax, twinBudget := m.budgetMib, twinWindowClosed := m.windowClosed, twinMaxRegions := m.maxRegions }, prot := { s.prot with twinIdle := m.noStamps, twinFloor := if m.noStamps then m.protSeq else min m.minStamp m.protSeq } }

/-- A PSN is at or before the last one acknowledged on its QP. -/
def State.psnAcked (s : State) (qpn psn : Nat) : Bool :=
  decide (psnDist (s.qf qpn 15 23 0) psn < 2 ^ 23)

/-- A chain's ATOMIC of this identity (log 33) is past, as this twin's copy of the chain says: neither its run nor the step still to come
(R209). -/
def State.chainPast (s : State) (psn : Nat) : Bool :=
  let e := NMap.getD s.chains.chains (psn / 16 % 32768) []
  let fires := bits (wordAt e 3) 4 0
  let f := psn / 2 ^ 19
  !((fires == f && bits (wordAt e 0) 2 0 == 2 && decide (bits (wordAt e 3) 35 32 ≤ psn % 16)) || (fires + 1) % 32 == f)

/-- A kept result is no longer needed (R347): its PSN is acknowledged, the chain is past it, or an operation of the device's own is
answered. -/
def State.keptDone (s : State) (k : Kept) : Bool :=
  if k.qpn = 0 && k.seg == 1 then s.chainPast k.psn
  else if k.qpn = 0 then !s.pair.fwdOut.any (fun f => f.msg.qpn == 0 && f.msg.psn == k.psn) else s.psnAcked k.qpn k.psn

/-- A write held on the bypass path goes through (R102, R108): into a flue entry whose write is not issued, else to DRAM, after a write of
the line that is in progress; to a page being moved as a write-back that waits (R217). -/
def State.heldLands (s : State) (h : HeldWrite) : State :=
  let e := s.pte (h.line / 64)
  let merged := s.cache.flue.any (fun f => f.key == h.line && !f.issued)
  let s : State := { s with cache := { s.cache with flue := s.cache.flue.map (fun f =>
    if f.key = h.line then { f with data := h.data, poison := h.poison } else f) } }
  if merged then s
  else if s.keyMoving h.line then s.toFlue h.line h.data h.poison
  else (s.setDram e.ch e.idx (h.line % 64) ⟨h.data, h.poison⟩).dramReq e.ch e.idx (h.line % 64) true 0

/-- An epoch is confirmed: its lines are no longer UNSEALED, writes held on the bypass path go to DRAM, settings and counts
it carried take effect, moves it released end, its half is freed (R103, R108, R159, R348, R350, R352). -/
def State.confirmOne (s : State) (n : Nat) : State :=
  let floor := match s.pair.epochs.find? (fun e => e.n == n) with | some e => e.floor | none => s.prot.ownFloor
  let s : State := { s with pair := { s.pair with epochs := s.pair.epochs.filter (fun e => decide (n < e.n)), confirmed := n, confTimes := ((n, s.mono) :: s.pair.confTimes).take 256 }, prot := { s.prot with ownFloor := floor } }
  let s := (s.wr MIR_CONFIRMED_VALUE n).pmuCount 0xB 0 0 0
  let s : State := { s with cache := { s.cache with ways := s.cache.ways.map (fun (e : Nat × Way) =>
    match e.2.unsealed with
    | some m => if m ≤ n then (e.1, { e.2 with unsealed := none }) else e
    | none => e) } }
  let out := s.cache.held.filter (fun h => decide (h.epoch ≤ n))
  let s : State := { s with cache := { s.cache with held := s.cache.held.filter (fun h => decide (n < h.epoch)) } }
  let s := out.foldl (fun s h => s.heldLands h) s
  let s : State := { s with tier := { s.tier with discards := s.tier.discards.filter (fun d => decide (n < d.2)) } }
  let late := s.pair.configWait.filter (fun c => decide (c.1 ≤ n))
  let s : State := { s with pair := { s.pair with configWait := s.pair.configWait.filter (fun c => decide (n < c.1)) } }
  let s := late.foldl (fun s c => match c.2 with
    | .config p o v => s.applyConfig p o v
    | .wused t b => (let x := s.tenant t; s.setTenant t { x with twinWused := b })
    | _ => s) s
  let seals := s.pair.seals.filter (fun c => decide (c.1 ≤ n))
  let s : State := { s with pair := { s.pair with seals := s.pair.seals.filter (fun c => decide (n < c.1)) } }
  let s := seals.foldl (fun s c => s.takeSeal c.2) s
  let done := s.pair.moves.filter (fun m => match m.release with | some e => decide (e ≤ n) | none => false)
  let s := done.foldl (fun s m => s.finishMove m) s
  { s with pair := { s.pair with kept := s.pair.kept.filter (fun k => !(decide (k.epoch ≤ n) && s.keptDone k)) } }

/-- Confirms every epoch that may be, in order, and opens the next (R159, R352). -/
def confirmLoop : Nat → State → State
  | 0, s => s.openNext
  | k + 1, s =>
    match s.pair.epochs with
    | e :: _ => if e.closed.isSome && e.acked && e.applied then confirmLoop k (s.confirmOne e.n) else s.openNext
    | [] => s.openNext

/-- Confirms what may be. -/
def State.confirmAll (s : State) : State := confirmLoop (s.pair.epochs.length + 1) s

/-- Work of the mirror unit that other happenings let go on: an early close of a full share, moves, confirmation. -/
def State.mirrorWork (s : State) : State :=
  if s.pair.epochs.isEmpty && s.pair.moves.isEmpty then s
  else
    let s := if s.shareFull then s.closeEpoch true false false else s
    s.moveStep.confirmAll

end Sys2Proof.Machine
end

