-- ==== Sys2Proof/Machine/Rister.lean ====
section
/-! DEFINITION. The Rister command queue: fields of a command, the order of checks, starting the front command of a
queue, completions, stopping and faults (R55 to R63, R497). -/

namespace Sys2Proof.Machine

end Sys2Proof.Machine

namespace Sys2Proof

open Sys2Proof.Machine

/-! ### Fields of a command (R59) -/
def RqCmd.opcode (c : RqCmd) : Nat := bits c.w0 7 0
def RqCmd.fence (c : RqCmd) : Bool := bit c.w0 8
def RqCmd.notify (c : RqCmd) : Bool := bit c.w0 9
def RqCmd.genCheck (c : RqCmd) : Bool := bit c.w0 10
def RqCmd.cmdId (c : RqCmd) : Nat := bits c.w0 47 32
def RqCmd.page (c : RqCmd) : Nat := bits c.w0 57 48
def RqCmd.index (c : RqCmd) : Nat := c.w1.toNat
def RqCmd.dataAddr (c : RqCmd) : Nat := c.w2.toNat
def RqCmd.length (c : RqCmd) : Nat := bits c.w3 23 0
def RqCmd.count (c : RqCmd) : Nat := bits c.w3 47 32
def RqCmd.table (c : RqCmd) : Nat := bits c.w3 55 48
def RqCmd.expectGen (c : RqCmd) : Nat := bits c.w4 31 0

/-- Reserved fields of words 0, 3 and 4 are 0 (R59). -/
def RqCmd.reservedOk (c : RqCmd) : Bool :=
  bits c.w0 31 11 == 0 && bits c.w0 63 58 == 0 && bits c.w3 31 24 == 0 && bits c.w3 63 56 == 0 && bits c.w4 63 32 == 0

/-- Fields that a block command without buffer must leave 0: INDEX, COUNT, LENGTH, DATA_ADDR, TABLE and OPERAND word 6. -/
def RqCmd.bare (c : RqCmd) : Bool :=
  c.w1 == 0 && c.w2 == 0 && c.length == 0 && c.count == 0 && c.table == 0 && c.w6 == 0

end Sys2Proof

namespace Sys2Proof.Machine

/-- Block commands by block ID: HCA, KEY, TIR, DCH, MED, PWR, MIR, CPH, BFL and EVR (R60 and the chapters it names). -/
def blockOps : Nat → List Nat
  | 0x09 => [0x40, 0x41]
  | 0x07 => [0x40]
  | 0x0A => [0x40, 0x41, 0x42, 0x43]
  | 0x40 => [0x40, 0x41, 0x42]
  | 0x0C => [0x40, 0x41]
  | 0x01 => [0x40, 0x41]
  | 0x0B => [0x40, 0x41, 0x42, 0x43]
  | 0x06 => [0x40, 0x41, 0x42, 0x43, 0x44, 0x45, 0x60]
  | 0x04 => [0x40, 0x41, 0x42, 0x43, 0x44, 0x45]
  | 0x03 => [0x40]
  | _ => []

/-- The opcode is defined for the page (R60): NOP and the table and batch commands for every mapped page. -/
def opDefined (page op : Nat) : Bool :=
  match blockOf page with
  | some (b, _) => (decide (1 ≤ op) && decide (op ≤ 5)) || (blockOps b).contains op
  | none => false

end Sys2Proof.Machine

namespace Sys2Proof

open Sys2Proof.Machine

/-- The command uses its data buffer (R61). -/
def RqCmd.usesBuffer (c : RqCmd) : Bool :=
  let b := (blockOf c.page).map Prod.fst
  match c.opcode with
  | 0x02 | 0x03 | 0x05 => true
  | 0x40 => b == some 0x06 || b == some 0x03
  | 0x41 => b == some 0x06 || b == some 0x04
  | 0x42 => b == some 0x06 || b == some 0x40
  | 0x44 | 0x45 => b == some 0x06
  | _ => false

end Sys2Proof

namespace Sys2Proof.Machine

/-- Completion statuses (R63). -/
def stOk : Nat := 0
def stBadOpcode : Nat := 1
def stBadPage : Nat := 2
def stBadTable : Nat := 3
def stBadIndex : Nat := 4
def stBadLength : Nat := 5
def stBadValue : Nat := 6
def stLocked : Nat := 7
def stGenMismatch : Nat := 8
def stNotReady : Nat := 9
def stReadOnly : Nat := 0xA
def stFirmwareOnly : Nat := 0xB
def stDmaError : Nat := 0xC
def stAborted : Nat := 0xD

/-! ### A queue -/

/-- What a queue holds. -/
def State.rq (s : State) (q : Nat) : Rq := NMap.getD s.rqs q {}

/-- Writes what a queue holds. -/
def State.setRq (s : State) (q : Nat) (r : Rq) : State := { s with rqs := NMap.put {} s.rqs q r }

/-- Byte offset of queue q's registers. -/
def rqOff (q : Nat) : Nat := 0x40 * q

/-- STATE of a queue: IDLE 0, RUNNING 1, STOPPING 2, ERROR 3. -/
def State.rqState (s : State) (q : Nat) : Nat := s.rd GLB_RQ_STAT_STATE 0 (rqOff q)

/-- Sends the queue's message where RQ_CTRL.IRQ_EN lets it (R57). -/
def State.rqMsix (s : State) (q : Nat) : State :=
  if s.rd GLB_RQ_CTRL_IRQ_EN 0 (rqOff q) = 1 then s.msix (s.rd GLB_RQ_CTRL_VECTOR 0 (rqOff q)) else s

/-- A queue enters ERROR (R58): ERR, the submission index, RQ_ERROR, and its message. -/
def State.rqError (s : State) (q code index : Nat) : State :=
  let s := (s.wr GLB_RQ_STAT_STATE 3 0 (rqOff q)).wr GLB_RQ_STAT_ERR code 0 (rqOff q)
  ((s.wr GLB_RQ_STAT_ERR_INDEX index 0 (rqOff q)).raise 0 1).rqMsix q

/-- Submission index of the command a queue is at: the oldest fetched, else the next to fetch. -/
def State.rqIndex (s : State) (q : Nat) : Nat :=
  match (s.rq q).fetched with
  | f :: _ => f.index
  | [] => s.rd GLB_RQ_SQ_HEAD_HEAD 0 (rqOff q)

/-- Sizes of the rings. -/
def State.sqSize (s : State) (q : Nat) : Nat := 2 ^ s.rd GLB_RQ_CTRL_SQ_SIZE 0 (rqOff q)
def State.cqSize (s : State) (q : Nat) : Nat := 2 ^ s.rd GLB_RQ_CTRL_CQ_SIZE 0 (rqOff q)

/-- A slot of the completion ring is free (R56). -/
def State.cqRoom (s : State) (q : Nat) : Bool :=
  (s.rd GLB_RQ_CQ_TAIL_TAIL 0 (rqOff q) + 1) % s.cqSize q != s.rd GLB_RQ_CQ_HEAD_HEAD 0 (rqOff q)

/-- Writes a completion at CQ_TAIL (R56, R57, R63). A write that the U96 cannot transmit stops the queue with POST_FAILED
(R58). -/
def State.postNow (s : State) (q : Nat) (p : Posting) : State :=
  if !s.pcieUp then s.rqError q 4 (s.rqIndex q)
  else
    let o := rqOff q
    let tail := s.rd GLB_RQ_CQ_TAIL_TAIL 0 o
    let phase := s.rd GLB_RQ_CQ_TAIL_PHASE 0 o
    let w0 := p.cmdId + p.status * 2 ^ 16 + q * 2 ^ 24 + phase * 2 ^ 31 + p.head * 2 ^ 32
    let s := s.emit (.completion q tail (BitVec.ofNat 64 w0) p.result)
    let next := (tail + 1) % s.cqSize q
    let s := s.wr GLB_RQ_CQ_TAIL_TAIL next 0 o
    let s := if next = 0 then s.wr GLB_RQ_CQ_TAIL_PHASE (1 - phase) 0 o else s
    if p.notify then s.rqMsix q else s

/-- Writes the completions that wait, as far as slots allow, and lets a STOPPING queue with none left become IDLE (R56,
R58). -/
def postAll : Nat → State → Nat → State
  | 0, s, _ => s
  | k + 1, s, q =>
    let r := s.rq q
    if s.rqState q = 3 then s
    else match r.posts with
      | p :: ps => if s.cqRoom q then postAll k ((s.setRq q { r with posts := ps }).postNow q p) q else s
      | [] => if s.rqState q = 2 && !r.running && r.fetched.isEmpty then s.wr GLB_RQ_STAT_STATE 0 0 (rqOff q) else s

/-- Posts what waits on a queue. -/
def State.postWaiting (s : State) (q : Nat) : State := postAll ((s.rq q).posts.length + 1) s q

/-- The completion of a fetched command: SQ_HEAD is the submission head after it (R63). -/
def State.posting (s : State) (q : Nat) (f : Fetched) (status : Nat) (result : Word64) : Posting :=
  { cmdId := f.cmd.cmdId, status := status, result := result, notify := f.cmd.notify, bell := f.bell, head := (f.index + 1) % s.sqSize q }

/-- Ends the front command of a queue with a status and a result; of a STOPPING queue every further fetched command ends
ABORTED (R58). -/
def State.complete (s : State) (q status : Nat) (result : Word64) : State :=
  let r := s.rq q
  if r.ghost then s.setRq q { r with ghost := false }
  else match r.fetched with
  | [] => s
  | f :: fs =>
    let p := s.posting q f status result
    let ab := if s.rqState q = 2 then fs.map (fun g => s.posting q g stAborted 0) else []
    let s := s.setRq q { r with fetched := if s.rqState q = 2 then [] else fs, running := false, posts := r.posts ++ [p] ++ ab }
    s.postWaiting q

/-- Every command on any queue whose doorbell precedes a given one has completed (R55): none fetched, being posted, or
still to be fetched. -/
def State.fenceOk (s : State) (bell : Nat) : Bool :=
  s.rqs.all (fun e => e.2.fetched.all (fun f => decide (bell ≤ f.bell)) && e.2.posts.all (fun p => decide (bell ≤ p.bell))
    && e.2.bells.all (fun b => decide (bell ≤ b.2)))

/-- The front command of a queue could start: the queue runs, nothing of it is in execution or waits to be posted, its fence
is met. -/
def State.startFree (s : State) (q : Nat) : Option RqCmd :=
  let r := s.rq q
  match r.fetched with
  | f :: _ => if s.rqState q = 1 && !r.running && !r.ghost && r.posts.isEmpty && (!f.cmd.fence || s.fenceOk f.bell) then some f.cmd else none
  | [] => none

/-- Place of one of the queues 1 to 3 in the round that follows the one served last. -/
def State.rrPlace (s : State) (q : Nat) : Nat := (q + 5 - s.ccx.rrLast) % 3

/-- The front command of a queue may start: queue 0 is served ahead of the others, queues 1 to 3 round-robin (R55). -/
def State.startable (s : State) (q : Nat) : Option RqCmd :=
  if q = 0 then s.startFree 0
  else if (s.startFree 0).isSome || [1, 2, 3].any (fun k => k != q && decide (s.rrPlace k < s.rrPlace q) && (s.startFree k).isSome) then none
  else s.startFree q

/-- The page is running where a command needs it: enabled and not quiescing (R497 step 4). -/
def State.pageRuns (s : State) (page : Nat) : Bool := s.rd PG_CTRL_EN page == 1 && !s.quiescing page

/-- Checks 1 to 5 of R497. -/
def State.checkCmd (s : State) (c : RqCmd) (needsRun : Bool) : Option Nat :=
  if !c.reservedOk || (c.usesBuffer && c.dataAddr % 8 != 0) then some stBadLength
  else if !mapped c.page then some stBadPage
  else if !opDefined c.page c.opcode then some stBadOpcode
  else if !s.ready c.page || (needsRun && !s.pageRuns c.page) then some stNotReady
  else if c.genCheck && s.rd PG_GEN_GEN c.page != c.expectGen then some stGenMismatch
  else none

/-- Marks the front command of a queue as in execution; it is the one served last. -/
def State.running (s : State) (q : Nat) : State :=
  let s := s.setRq q { s.rq q with running := true }
  if q = 0 then s else { s with ccx := { s.ccx with rrLast := q } }

/-- Completes every front command of a queue that names no page or no opcode of it (R63, R497 checks 1 to 3). -/
def rqAdvance : Nat → State → Nat → State
  | 0, s, _ => s
  | k + 1, s, q =>
    match s.startFree q with
    | none => s
    | some c =>
      if opDefined c.page c.opcode then s
      else match s.checkCmd c false with
        | some st => rqAdvance k (s.complete q st 0) q
        | none => s

/-- Lets a queue pass the commands nothing is defined for. -/
def State.advance (s : State) (q : Nat) : State := rqAdvance 16 s q

/-- Ends a command and goes on. -/
def State.finishCmd (s : State) (q status result : Nat) : State :=
  (s.complete q status (BitVec.ofNat 64 result)).advance q

/-- Runs the front command of a queue if it is the given one of a block: after checks 1 to 5 and `zeroOk` (check 7), `f`
carries it out and completes it, at once or later. -/
def State.blockCmd (s : State) (q blk op : Nat) (needsRun : Bool) (zeroOk : RqCmd → Bool)
    (f : State → Nat → RqCmd → State) : State :=
  match s.startable q with
  | none => s
  | some c =>
    match blockOf c.page with
    | some (b, i) =>
      if b = blk ∧ c.opcode = op then
        let s := s.running q
        match s.checkCmd c needsRun with
        | some st => s.finishCmd q st 0
        | none => if zeroOk c then f s i c else s.finishCmd q stBadLength 0
      else s
    | none => s

/-- Runs the front command of a queue if it has a general opcode (R60): after checks 1 to 5, `f` carries it out and completes it. -/
def State.generalCmd (s : State) (q op : Nat) (f : State → RqCmd → State) : State :=
  match s.startable q with
  | none => s
  | some c =>
    if c.opcode = op then
      let s := s.running q
      match s.checkCmd c false with
      | some st => s.finishCmd q st 0
      | none => f s c
    else s

/-- Writes a data buffer in steward memory; false where it cannot be transmitted (R58). -/
def State.dmaWrite (s : State) (addr : Nat) (ws : List Word64) : State × Bool :=
  if s.pcieUp then (s.emit (.dma (BitVec.ofNat 64 addr) ws), true) else (s, false)

end Sys2Proof.Machine
end

