-- ==== Sys2Proof/Machine/CacheWork.lean ====
section
/-! DEFINITION. What the cache does by itself: the cleaner, a drain, the lines of a cache command (R104, R109 to R113). -/

namespace Sys2Proof.Machine

/-- Sets HCA.STAT.STATE and PG_STAT.STATE. -/
def State.setCacheSt (s : State) (st : Nat) : State := (s.wr HCA_STAT_STATE st).wr PG_STAT_STATE st 9

/-- Lines of the cache. -/
def State.cacheLines (s : State) : Nat := 16 * s.nSets

/-- The way the cleaner takes in a set: the DIRTY one the walk of R97 reaches first, neither PINNED nor UNSEALED (R104). -/
def State.cleanWay (s : State) (n : Nat) : Option Nat :=
  let cand (w : Nat) : Bool := match s.wayAt (16 * n + w) with
    | some x => x.st == .dirty && x.pins == 0 && x.unsealed.isNone && !s.keyMoving x.key
    | none => false
  if (List.range 16).any cand then some (16 * n + plruWalk (NMap.getD s.cache.plru n 0) cand 4 1) else none

/-- Sets that hold a DIRTY line. -/
def State.dirtySets (s : State) : List Nat := ((s.cache.ways.filter (fun e => e.2.st == .dirty)).map (fun e => e.1 / 16)).eraseDups

/-- One round of the cleaner over the sets. -/
def cleanRound : List Nat → State → State
  | [], s => s
  | n :: ns, s =>
    if 64 * s.dirtyWays < s.rd HCA_CLEAN_LO * s.cacheLines then s
    else match s.cleanWay n with
      | some i => cleanRound ns (s.writeBackWay i)
      | none => cleanRound ns s

/-- The cleaner starts above HI and runs until it is below LO (R104): lines it must pass over hold it between. -/
def State.cleaner (s : State) : State :=
  let on := s.cacheOn && s.rd HCA_CTRL_CLEAN_EN == 1
    && (s.cache.cleaning || decide (s.rd HCA_CLEAN_HI * s.cacheLines < 64 * s.dirtyWays))
  let s := if on then (List.range 16).foldl (fun (s : State) _ => cleanRound s.dirtySets s) s else s
  { s with cache := { s.cache with cleaning := on && decide (s.rd HCA_CLEAN_LO * s.cacheLines ≤ 64 * s.dirtyWays) } }

/-- A drain passes a way (R110 step 2): written back, then invalidated; an UNSEALED line, a line being filled and a DIRTY line of a page
being moved wait. -/
def State.drainWay (s : State) (i : Nat) : State :=
  match s.wayAt i with
  | some x =>
    if x.unsealed.isSome || x.st == .filling || x.st == .detached then s
    else if x.st == .dirty && s.keyMoving x.key then s.writeBackWay i
    else (s.writeBackWay i).invalidate i
  | none => s

/-- A drain goes on, and ends when the flue is empty and nothing is DIRTY (R110 steps 2 to 4). -/
def State.drainGo (s : State) : State :=
  if s.rd HCA_STAT_STATE != 2 then s
  else
    let s := (s.cache.ways.map Prod.fst).foldl (fun (s : State) i => s.drainWay i) s
    if s.cache.flue.isEmpty && s.cache.writeBacks.isEmpty && s.cache.ways.all (fun e => e.2.st == .detached) then
      (((s.setCacheSt 0).wr HCA_CTRL_EN 0).bumpGen 9).raise 9 1
    else s

/-- One line of a cache command (R113): none where it must wait. -/
def State.cmdLine (s : State) (c : CacheCmd) (k : Nat) : Option (State × CacheCmd) :=
  match s.findWay k with
  | none => some (s, if s.cache.flue.any (fun f => f.key == k) then { c with out := c.out ++ [k], wrote := c.wrote + 1 } else c)
  | some (i, x) =>
    if x.unsealed.isSome || x.st == .filling then none
    else if x.st == .dirty && s.keyMoving k then none
    else
      let d := x.st == .dirty
      let s := s.writeBackWay i
      let c := if d then { c with out := c.out ++ [k], wrote := c.wrote + 1 } else c
      if c.invalidate then some (s.invalidate i, { c with dropped := c.dropped + 1 }) else some (s, c)

/-- The lines of a command that can go on. -/
def cmdLines : List Nat → State → CacheCmd → List Nat → State × CacheCmd
  | [], s, c, left => (s, { c with todo := left })
  | k :: ks, s, c, left =>
    match s.cmdLine c k with
    | some (s, c) => cmdLines ks s c left
    | none => cmdLines ks s c (left ++ [k])

/-- Cache commands go on and end (R113). -/
def State.cmdsGo (s : State) : State :=
  let cs := s.cache.cmds
  cs.foldl (fun (s : State) c =>
    let (s, c) := cmdLines c.todo s c []
    let c := { c with out := c.out.filter (fun k => s.cache.writeBacks.any (fun f => f.key == k) || s.cache.flue.any (fun f => f.key == k)) }
    if c.todo.isEmpty && c.out.isEmpty then s.finishCmd c.q stOk (c.wrote * 2 ^ 32 + c.dropped)
    else { s with cache := { s.cache with cmds := s.cache.cmds ++ [c] } }) { s with cache := { s.cache with cmds := [] } }

/-- What the cache does by itself. -/
def State.cacheWork (s : State) : State := (s.cleaner.drainGo).cmdsGo

end Sys2Proof.Machine
end

