-- ==== Sys2Proof/Machine/Settle.lean ====
section
/-! DEFINITION. Settling: after a command the data path runs on, step by step, until nothing more can go on without a
further happening (a fill, a fetch, a seal, an answer of the twin). -/

namespace Sys2Proof.Machine

/-- Sends the forwarded operations that may go: not while the MIR page quiesces (R342). A WRITE goes in frames of up to
1,024 bytes (R346). -/
def State.sendForwards (s : State) : State :=
  if s.quiescing 0xB || s.linkState == 0 then s
  else
    let q := s.pair.fwdQueue
    let s := { s with pair := { s.pair with fwdQueue := [], fwdOut := s.pair.fwdOut ++ q } }
    q.foldl (fun s f =>
      let s := s.inc MIR_TWIN_COUNTER_COUNT 1 0 40
      if f.msg.op = .write then
        let n := max 1 (divUp f.msg.data.length 1024)
        (List.range n).foldl (fun s j =>
          let m := { f.msg with data := (f.msg.data.drop (1024 * j)).take 1024, first := j == 0, last := j + 1 == n }
          s.sendLink 0 (.fwdReq m)) s
      else s.sendLink 0 (.fwdReq f.msg)) s

/-- Operations of one chain's step, all done and their epochs confirmed where they read unsealed lines (R23, R206). -/
def State.chainGroups (s : State) : List (Nat × List Op) :=
  let is_ := (s.dp.ops.filterMap (fun o => match o.for_ with | .chain i _ => some i | _ => none)).eraseDups
  is_.filterMap (fun i =>
    let g := s.dp.ops.filter (fun o => match o.for_ with | .chain j _ => j == i | _ => false)
    if g.all (fun o => o.placed && (match o.kind, o.epoch with
        | .copySrc, some e => s.isConfirmed e
        | .notifySrc, some e => s.isConfirmed e
        | _, _ => true)) then some (i, g) else none)

/-- What a host's operation leaves as it is placed (R78, R152, R154, R167): its request's cells return, a ring's slot is filled, an answer
that waits for a seal is counted, the epoch carries the context and an atomic's result (log 212). -/
def State.placedHost (s : State) (n : Nat) (o : Op) : State :=
  let s := s.modOp o.id (fun x => { x with settled := true })
  let waits := match o.epoch with | some e => !s.isConfirmed e | none => false
  let s := if waits && o.endsMsg then s.rdxCount 17 else s
  let s := match o.kind with
    | .read | .nak _ | .arm _ => s
    | _ => (s.freeOpCells o).modOp o.id (fun x => { x with cells := 0 })
  let s := if o.kind == .send && o.bad.isEmpty then s.setQf n 12 63 0 (s.qf n 12 63 0 + 1) else s
  let s := match o.kind with
    | .cas | .fadd => if s.paired && o.bad.isEmpty then s.stage (.opDone n o.psn o.seg o.result) else s
    | _ => s
  s.stageQp n

/-- Kinds of operations that write for a message (R184). -/
def OpKind.writesMsg : OpKind → Bool
  | .write | .send | .atomicWrite => true
  | _ => false

/-- A message whose lines are all placed, those of its earlier packets too, lets the entries go that it holds (R184). -/
def State.endHolds (s : State) : State :=
  s.dp.ops.foldl (fun (s : State) o =>
    match o.for_, o.stamp with
    | .host n, some _ =>
      if o.placed && o.kind.writesMsg && (s.dp.ops.filter (fun x => x.for_ == o.for_ && decide (x.id < o.id) && x.kind.writesMsg)).all (fun x => x.placed) then
        (s.dropOpHold o n).modOp o.id (fun x => { x with stamp := none })
      else s
    | _, _ => s) s

/-- Operations of hosts that have been placed with everything of their packet before them. -/
def State.placedOps (s : State) : State :=
  s.dp.ops.foldl (fun (s : State) o =>
    match o.for_ with
    | .host n =>
      if o.placed && !o.settled && (s.dp.ops.filter (fun x => x.for_ == o.for_ && x.psn == o.psn && decide (x.id < o.id))).all (fun x => x.placed) then
        s.placedHost n o
      else s
    | _ => s) s

/-- A NOTIFY whose QP is no longer in RTS before its SEND has left fails (R207). -/
def State.notifyLost (s : State) (i : Nat) : Bool :=
  ((s.run i).notifyPsn.isSome || (s.run i).notifyWait) && s.qState (bits (wordAt (s.slot i (s.curStep i)) 4) 55 32) != 3

/-- What is finished goes on: ring reads, chain steps, forwarded operations' answers, PERSISTs, answers to hosts. -/
def State.finishAll (s : State) : State :=
  let s := s.placedOps.endHolds
  let s := s.dp.ops.foldl (fun s o =>
    match o.for_ with
    | .ring n =>
      if o.placed then
        let v := if o.bad.isEmpty then leNat (o.readBytes.take 8) else 0
        (s.removeOps [o.id]).modQp n (fun q => { q with consVal := some v })
      else s
    | .fwd q p g =>
      if o.placed then
        let t := (s.removeOps [o.id]).afterFree 96
        match t.chainForTwin o.respLines with
        | some (t, cells, rsv) =>
          let (t, r, ep) := t.fwdFinish o q p g
          (t.oweCredit 2 (max 1 (divUp o.data.length 64))).sendResp ep r cells rsv
        | none => if o.settled then s else (s.modOp o.id (fun x => { x with settled := true })).raise 8 8
      else s
    | .apply => if o.placed then s.removeOps [o.id] else s
    | _ => s) s
  let s := s.chainGroups.foldl (fun s g => s.chainOpsDone g.1 g.2) s
  let s := s.chains.runs.foldl (fun s (e : Nat × Run) =>
    match (s.run e.1).waitEpoch with
    | some n => if s.isConfirmed n then s.chainStepDone e.1 else s
    | none => if s.notifyLost e.1 then s.chainFail e.1 3 else s) s
  let qs := (s.dp.ops.filterMap (fun o => match o.for_ with | .host n => some n | _ => none)).eraseDups
  qs.foldl (fun s n => s.release n) s

/-- Progress measure of settling: what is in progress. -/
def State.busyMark (s : State) : Nat × Nat × Nat × Nat :=
  (s.dp.nextOp, s.dp.ops.length, (s.dp.ops.filter (fun o => o.issued)).length, (s.dp.ops.map (fun o => o.left)).sum)

/-- Runs the data path on. -/
def settleLoop : Nat → State → State
  | 0, s => s
  | k + 1, s =>
    if s.dp.ops.isEmpty && s.dp.parked.isEmpty && s.chains.runs.isEmpty && s.pair.fwdQueue.isEmpty then s
    else
      let m := s.busyMark
      let (s, moved) := s.issueAll.pump
      let s := s.sendForwards.finishAll
      if moved || s.busyMark != m then settleLoop k s else s

/-- Key drain waits whose sequence number is drained complete (R195). -/
def State.drainDone (s : State) : State :=
  let s := s.drainUpdate
  s.prot.drainWaits.foldl (fun (s : State) w =>
    let d := s.rd KEY_GEN_DRAIN_DRAINED_SEQ
    if w.2 ≤ d then
      { s with prot := { s.prot with drainWaits := s.prot.drainWaits.filter (fun x => x.1 != w.1) } }.finishCmd w.1 stOk d
    else s) s

/-- A batch's pair-wide setting has not taken effect yet. -/
def State.cfgWaits (s : State) (page off : Nat) : Bool :=
  s.pair.configHold.any (fun c => c.1 == page && c.2.1 == off)
    || s.pair.configWait.any (fun c => match c.2 with | .config p o _ => p == page && o == off | _ => false)
    || (page == 0xA && off == 0x100 && s.tier.growing.isSome)

/-- Batches whose settings are all in effect complete (R62), PG_GEN rising once (R46). -/
def State.batchDone (s : State) : State :=
  (s.pair.batches.filter (fun b => b.offs.all (fun o => !s.cfgWaits b.page o))).foldl (fun (s : State) b =>
    let s : State := { s with pair := { s.pair with batches := s.pair.batches.filter (fun x => x.q != b.q) } }
    let s := if b.changed then s.bumpGen b.page else s
    s.finishCmd b.q stOk (b.count * 2 ^ 32 + s.rd PG_GEN_GEN b.page)) s

/-- Table writes whose chains have all stopped complete (R62). -/
def State.tableDone (s : State) : State :=
  (s.chains.tableWaits.filter (fun w => w.chains.all (fun i => !(s.run i).disarm))).foldl (fun (s : State) w =>
    let s : State := { s with chains := { s.chains with tableWaits := s.chains.tableWaits.filter (fun x => x.q != w.q) } }
    s.finishCmd w.q w.status w.result) s

/-- The data path runs on as far as it can. -/
def State.runOn (s : State) : State := settleLoop (2 * s.dp.ops.length + 2 * s.dp.parked.length + 16) s

/-- QUIESCED of MIR: both halves and the incoming shares are empty, no forwarded operation is outstanding (R342). -/
def State.mirQuiesce (s : State) : State :=
  if s.quiescing 0xB && s.pair.epochs.all (fun e => e.recs.isEmpty && e.closed.isNone) && s.pair.incoming.isEmpty && s.pair.fwdOut.isEmpty then
    s.wr PG_STAT_QUIESCED 1 0xB
  else s

/-- Settles the data path, what the mirror unit and the tier manager can do after it, and what that lets go on. -/
def State.settle (s : State) : State :=
  let s := s.runOn
  let c := s.pair.confirmed
  let n := s.pair.openEpoch
  let s := s.mirrorWork
  let s := if s.pair.confirmed = c && s.pair.openEpoch = n then s else s.runOn
  s.cacheWork.tierWork.tierQuiesce.mirQuiesce.drainDone.batchDone.tableDone

end Sys2Proof.Machine
end

