-- ==== Sys2Proof/Machine/Dram.lean ====
section
/-! DEFINITION. The DRAM commands (10_dram.md): training, the pick, refresh, DIMM sensors, self-refresh, upkeep, sideband
and the DCH block commands. The copy of a page out of a retiring rank stands with the tiers. -/

namespace Sys2Proof.Machine

/-- Speeds tried, highest first (R242). -/
def speedsOf (type dimms cap : Nat) : List Nat :=
  let all := if type = 2 then [12800, 8800] else if dimms = 2 then [7200, 6400] else [8800, 8000, 7200, 6400]
  if cap = 0 then all else all.filter (fun v => decide (v ≤ cap))

/-- Up to three attempts at each speed, falling back a step after three failures (R242): the speed reached, 0 for none, and
the steps fallen. -/
def trainWalk : List Nat → List Bool → Nat × Nat
  | [], _ => (0, 0)
  | v :: vs, t =>
    if (t.take 3).any id then (v, 0)
    else
      let (m, k) := trainWalk vs (t.drop 3)
      (m, if vs.isEmpty then k else k + 1)

/-- Two DIMMs are of one type, capacity, device width, number of ranks and stack height (R241). -/
def dimmsAlike (a b : Word64) : Bool :=
  bits a 9 8 == bits b 9 8 && bits a 40 32 == bits b 40 32 && bits a 12 12 == bits b 12 12 && bits a 19 18 == bits b 19 18 && bits a 17 16 == bits b 17 16

/-- The population of a channel obeys R240 and R241: a DIMM type, slot 0 before slot 1, a capacity of 16 to 256 GiB, 1 or 2 ranks, stacks of
1, 2 or 4 dies, two identical DIMMs, and the type of the lowest-numbered populated channel. -/
def State.popOk (s : State) (c : Nat) (pop : Word64) (d1 : Spd) : Bool :=
  let slots := bits pop 1 0
  let type := bits pop 9 8
  let cap := bits pop 40 32
  let first := (List.range c).find? (fun d => s.rd DCH_POP_SLOTS d != 0)
  (type == 1 || type == 2) && (slots == 1 || slots == 3 && dimmsAlike pop d1.pop) && decide (16 ≤ cap) && decide (cap ≤ 256)
    && decide (bits pop 19 18 ≤ 1) && decide (bits pop 17 16 ≤ 2)
    && (match first with | some d => s.rd DCH_POP_TYPE d == type | none => true)

/-- SPEED_FALLBACK for each step a channel falls (R242). -/
def State.fallbacks (s : State) (c n : Nat) : State := (List.range n).foldl (fun s _ => s.raise (0x40 + c) 2) s

/-- Rank states after training (R258): a rank recorded as retired on a DIMM of the same serial number stays RETIRED; a
record of another serial number is cleared. -/
def State.rankInit (s : State) (c : Nat) : State :=
  let serialOf (r : Nat) : Nat := NMap.getD (s.chan c).serial (r / 2 ^ s.rd DCH_POP_RANKS c) 0
  let rec_ := s.tier.retiredRec.filter (fun e => e.1 != c || e.2.2 == serialOf e.2.1)
  let s : State := { s with tier := { s.tier with retiredRec := rec_ } }
  let s := s.wr DCH_RANK_STATE 0 c
  (List.range (s.nRanks c)).foldl (fun s r =>
    s.setRankSt c r (if rec_.any (fun e => e.1 == c && e.2.1 == r) then 3 else 1)) s

/-- A channel that trains is populated: the SPD is read, it trains or goes OUT (R241, R242, R258). -/
def State.trainChan (s : State) (c : Nat) (pop : Word64) (ser0 : Nat) (d1 : Spd) (trained : List Bool) : State :=
  let s := s.setReg (regKey (0x40 + c) 0x100) (setBits pop 63 48 0)
  let s := s.modChan c (fun x => { x with serial := [(0, ser0), (1, d1.serial)] })
  if !s.popOk c pop d1 then (s.setChanSt c 7).raise (0x40 + c) 3
  else
    let (m, k) := trainWalk (speedsOf (s.rd DCH_POP_TYPE c) (s.nDimms c) (s.rd DCH_CFG_SPEED_CAP c)) trained
    let s := s.fallbacks c k
    if m = 0 then (s.setChanSt c 7).raise (0x40 + c) 1
    else
      let s := (s.wr DCH_POP_MTS m c).rankInit c
      if (List.range (s.nRanks c)).all (fun r => s.rankSt c r == 3) then (s.setChanSt c 7).raise (0x40 + c) 10
      else (s.setChanSt c 2).raise (0x40 + c) 0

/-- TRAIN_DONE (R241, R242, R252, R258) of a channel whose group trains; one that holds no DIMM is EMPTY. -/
def State.trainDone (s : State) (c : Nat) (pop : Word64) (ser0 : Nat) (d1 : Spd) (trained : List Bool) : State :=
  if s.chanSt c != 1 then s
  else if bits pop 1 0 = 0 then (s.setChanSt c 0).trainNext (c / 8)
  else (s.trainChan c pop ser0 d1 trained).trainNext (c / 8)

def execTrainDone (channel : Nat) (pop : Word64) (serial0 : Nat) (dimm1 : Spd) (trained : List Bool) (s : State) : Res :=
  .next (s.trainDone channel pop serial0 dimm1 trained)

/-- Refreshes of a rank are issued: its banks are closed. -/
def State.issueRefresh (s : State) (c r n : Nat) : State :=
  let s := s.modChan c (fun x => { x with
    openRow := x.openRow.filter (fun e => e.1 % 128 / 32 != r), postponed := NMap.put 0 x.postponed r 0 })
  s.dchCount c 6 n

/-- DEMAND requests of urgency 2 or more wait at a channel (R248). -/
def State.demandUrgent (s : State) (c : Nat) : Bool :=
  ((s.chan c).queue ++ (s.chan c).ovf).any (fun q => q.cls == 0 && decide (2 ≤ s.urgency c q))

/-- Once no urgent DEMAND request waits, the refreshes postponed are issued back to back (R248). -/
def State.refreshPaid (s : State) (c : Nat) : State :=
  if s.demandUrgent c then s
  else (s.chan c).postponed.foldl (fun (s : State) e => s.issueRefresh c e.1 e.2) s

/-- DRAM_COMMAND_ISSUE (R246, R249): subchannel 2c or 2c + 1 picks its next command. A throttled channel lets every second
opportunity pass. -/
def State.dramIssue (s : State) (sub : Nat) (ready : List Nat) : State :=
  let c := sub / 2
  let b := sub % 2
  let x := s.chan c
  if s.chanSt c != 3 || x.short.contains b then s
  else if x.throttledAt.isSome && x.skip then s.modChan c (fun x => { x with skip := false })
  else
    let drain := s.drainMode c b
    let s := s.modChan c (fun x => { x with drain := if drain then insertNat x.drain b else x.drain.filter (· != b) })
    match s.pick c b ready with
    | none => s
    | some r =>
      let k := 128 * b + r.bank
      let hit := NMap.find x.openRow k == some r.row
      let u := s.urgency c r
      let x := s.chan c
      let (x, n) := ({ x with queue := x.queue.erase r, skip := x.throttledAt.isSome, idleSince := s.mono, lastBank := NMap.insert x.lastBank b r.bank, openRow := NMap.insert x.openRow k r.row, streak := NMap.insert x.streak k (if hit then NMap.getD x.streak k 0 + 1 else 0) } : Chan).refill
      let s := ((s.setChan c x).dchCount c 5 n).dchCount c (if r.write then 1 else 0)
      let s := s.dchCount c (if hit then 2 else 3)
      let s := if r.write then s.flueIssued c r.line else s
      (if u = 3 then s.dchCount c 4 else s).refreshPaid c

def execDramCommandIssue (sub : Nat) (ready : List Nat) (s : State) : Res := .next (s.dramIssue sub ready)

/-- The refresh interval of a rank in ns (R248): 1.95 µs by bank, 3.9 µs for all banks, half of it on a DIMM at HOT_C or above. -/
def State.refInterval (s : State) (c r : Nat) : Nat :=
  let t := if r / 2 ^ s.rd DCH_POP_RANKS c = 0 then s.rd DCH_TEMP_SLOT0_C c else s.rd DCH_TEMP_SLOT1_C c
  (if s.rd DCH_REFRESH_MODE c = 1 then 3900 else 1950) / (if s.rd DCH_REFRESH_HOT_C c ≤ t then 2 else 1)

/-- REFRESH (R248): an interval of a rank falls due. It is postponed while urgent DEMAND requests wait, up to POSTPONE_MAX;
in self-refresh it is owed at the exit (R251). -/
def State.refreshDue (s : State) (c r : Nat) : State :=
  if s.rankSt c r = 0 || s.rankSt c r = 3 || s.chanSt c == 0 || s.chanSt c == 7 then s
  else
    let s := s.upTo (NMap.getD (s.chan c).refAt r 0 + s.refInterval c r)
    let s := s.modChan c (fun x => { x with refAt := NMap.insert x.refAt r s.mono })
    if s.chanSt c = 5 then s.modChan c (fun x => { x with refOwed := insertNat x.refOwed r })
    else
    let p := NMap.getD (s.chan c).postponed r 0
    if s.demandUrgent c && decide (p < s.rd DCH_REFRESH_POSTPONE_MAX c) then
      (s.modChan c (fun x => { x with postponed := NMap.put 0 x.postponed r (p + 1) })).dchCount c 7
    else s.issueRefresh c r (p + 1)

def execRefresh (channel rank : Nat) (s : State) : Res := .next (s.refreshDue channel rank)

/-- The sensors of a channel are read every 16 ms (R248). -/
def State.sensedTick (s : State) (c : Nat) : State :=
  let s := s.upTo ((s.chan c).sensedAt + ms 16)
  s.modChan c (fun x => { x with sensedAt := s.mono })

/-- The channel is throttled at THROTTLE_C, and no more 2 degrees below it (R248). -/
def State.throttleStep (s : State) (c t0 t1 : Nat) : State :=
  let thr := s.rd DCH_REFRESH_THROTTLE_C c
  match (s.chan c).throttledAt with
  | some since =>
    let s := s.dchCount c 15 (s.mono - since)
    if t0 + 2 ≤ thr ∧ t1 + 2 ≤ thr then
      (s.modChan c (fun x => { x with throttledAt := none, skip := false })).wr DCH_TEMP_THROTTLED 0 c
    else s.modChan c (fun x => { x with throttledAt := some s.mono })
  | none =>
    if thr ≤ t0 ∨ thr ≤ t1 then
      ((s.modChan c (fun x => { x with throttledAt := some s.mono })).wr DCH_TEMP_THROTTLED 1 c).raise (0x40 + c) 6
    else s

/-- DIMM_SENSOR_READ (R248, R249): the hotter sensor of each slot. -/
def State.dimmSensors (s : State) (c t0 t1 : Nat) : State :=
  let s := s.sensedTick c
  let hot := s.rd DCH_REFRESH_HOT_C c
  let old0 := s.rd DCH_TEMP_SLOT0_C c
  let old1 := s.rd DCH_TEMP_SLOT1_C c
  let p := 0x40 + c
  let s := (s.wr DCH_TEMP_SLOT0_C t0 c).wr DCH_TEMP_SLOT1_C t1 c
  let s := s.raiseIf ((decide (old0 < hot) && decide (hot ≤ t0)) || (decide (old1 < hot) && decide (hot ≤ t1))) p 5
  (s.wr DCH_TEMP_HOT (b2n (decide (hot ≤ t0) || decide (hot ≤ t1))) c).throttleStep c t0 t1

def execDimmSensorRead (channel slot0 slot1 : Nat) (s : State) : Res := .next (s.dimmSensors channel slot0 slot1)

/-- SELF_REFRESH_ENTRY (R250): the entry command goes to the PHY once the channel has been idle for IDLE_US. -/
def State.srEntry (s : State) (c : Nat) : State :=
  let x := s.chan c
  if s.chanSt c = 3 && s.srAllowed c && x.empty then
    let s := s.upTo (x.idleSince + us (s.rd DCH_SELFREF_IDLE_US c))
    ((s.setChanSt c 5).modChan c (fun x => { x with openRow := [], srWanted := false })).dchCount c 8
  else s

def execSelfRefreshEntry (channel : Nat) (s : State) : Res := .next (s.srEntry channel)

/-- SELF_REFRESH_EXIT (R250, R251): owed refreshes are issued first, then the waiting requests go on. -/
def State.srExit (s : State) (c : Nat) : State :=
  let x := s.chan c
  if s.chanSt c = 5 && (x.srWanted || !s.banked) then
    let s := s.setChanSt c 3
    let s := x.refOwed.foldl (fun s r => s.issueRefresh c r 1) s
    (s.modChan c (fun x => { x with refOwed := [], srWanted := false, idleSince := s.mono })).settle
  else s

def execSelfRefreshExit (channel : Nat) (s : State) : Res := .next (s.srExit channel)

/-- DRIFT_CHECK (R253), every INTERVAL_MS: a drift above DRIFT_PS starts a short retraining of the subchannel. -/
def State.driftCheck (s : State) (c sub drift : Nat) : State :=
  let s := s.upTo (NMap.getD (s.chan c).driftAt sub 0 + ms (s.rd DCH_RETRAIN_INTERVAL_MS c))
  let s := s.modChan c (fun x => { x with driftAt := NMap.insert x.driftAt sub s.mono })
  if (s.chanSt c = 3 || s.chanSt c = 5) && decide (s.rd DCH_RETRAIN_DRIFT_PS c < drift) && !(s.chan c).short.contains sub then
    (s.modChan c (fun x => { x with short := insertNat x.short sub })).dchCount c 11
  else s

def execDriftCheck (channel sub driftPs : Nat) (s : State) : Res := .next (s.driftCheck channel (sub % 2) driftPs)

/-- RETRAIN_SHORT_DONE (R253): subchannel 2c or 2c + 1 issues commands again. -/
def State.shortDone (s : State) (sub : Nat) : State :=
  s.modChan (sub / 2) (fun x => { x with short := x.short.filter (· != sub % 2) })

def execRetrainShortDone (sub : Nat) (s : State) : Res := .next (s.shortDone sub)

/-- A full retraining starts (R253). -/
def State.startRetrain (s : State) (c : Nat) : State :=
  (((s.setChanSt c 4).modChan c (fun x => { x with retries := [], srWanted := false })).dchCount c 12).raise (0x40 + c) 4

/-- DRAM_ALERT (R253): the retry is counted; more than RETRY_LIMIT in one second start a full retraining. -/
def State.dramAlert (s : State) (c : Nat) (writeCrc : Bool) : State :=
  let s := s.dchCount c (if writeCrc then 13 else 14)
  let rs := ((s.chan c).retries.filter (fun t => decide (s.mono - t < 1000000000))) ++ [s.mono]
  let s := s.modChan c (fun x => { x with retries := rs })
  if (s.chanSt c = 3 || s.chanSt c = 5) && decide (s.rd DCH_RETRAIN_RETRY_LIMIT c < rs.length) then s.startRetrain c else s

def execDramAlert (channel _sub : Nat) (writeCrc : Bool) (s : State) : Res := .next (s.dramAlert channel writeCrc)

/-- DCH_RETIRE commands whose rank is RETIRED complete (R260). -/
def State.retireDone (s : State) (c : Nat) : State :=
  let done := (s.chan c).retireCmds.filter (fun e => s.rankSt c e.2.1 == 3)
  let s := s.modChan c (fun x => { x with retireCmds := x.retireCmds.filter (fun e => s.rankSt c e.2.1 != 3) })
  done.foldl (fun s e => s.finishCmd e.1 stOk e.2.2) s

/-- RETRAIN_DONE (R253, R242): a speed is chosen afresh; at none the channel is OUT and every rank is retired, unreadable. -/
def State.retrainDone (s : State) (c : Nat) (trained : List Bool) : State :=
  if s.chanSt c != 4 then s
  else
    let (m, k) := trainWalk (speedsOf (s.rd DCH_POP_TYPE c) (s.nDimms c) (s.rd DCH_CFG_SPEED_CAP c)) trained
    let s := (s.fallbacks c k).wr DCH_POP_MTS m c
    let s := if m = 0 then
        let s := (s.setChanSt c 7).raise (0x40 + c) 1
        ((List.range (s.nRanks c)).foldl (fun s r => s.retireRank c r false) s).retireDone c
      else (s.setChanSt c 3).modChan c (fun x => { x with idleSince := s.mono })
    match (s.chan c).fullCmd with
    | some q => ((s.modChan c (fun x => { x with fullCmd := none })).finishCmd q stOk m).settle
    | none => s.settle

def execRetrainDone (channel : Nat) (trained : List Bool) (s : State) : Res := .next (s.retrainDone channel trained)

/-- SB_FAULT (R255, R262): the ranks of the slot are retired, unreadable. -/
def State.sbFault (s : State) (c slot : Nat) : State :=
  if slot < 2 ∧ (s.rd DCH_POP_SLOTS c / 2 ^ slot) % 2 = 1 then
    let s := s.raise (0x40 + c) 12
    let n := 2 ^ s.rd DCH_POP_RANKS c
    ((List.range n).foldl (fun s r => s.retireRank c (slot * n + r) false) s).retireDone c
  else s

def execSbFault (channel slot : Nat) (s : State) : Res := .next (s.sbFault channel slot)

/-- DCH_RETRAIN (R260). A channel with no DIMM ends it with NO_DIMM, one that is OUT at once, one that is still starting with BUSY
(log 216). -/
def State.dchRetrain (s : State) (q : Nat) : State :=
  s.blockCmd q 0x40 0x40 false (fun c => c.bare && c.w5 == 0) (fun s c _ =>
    if s.chanSt c = 0 then s.finishCmd q 0x40 0
    else if s.chanSt c = 7 then s.finishCmd q stOk (s.rd DCH_POP_MTS c)
    else if s.chanSt c != 3 && s.chanSt c != 5 then s.finishCmd q 0x42 0
    else (s.startRetrain c).modChan c (fun x => { x with fullCmd := some q }))

def execDchRetrain (q : Nat) (s : State) : Res := .next (s.dchRetrain q)

/-- DCH_RETIRE (R256, R260). -/
def State.dchRetire (s : State) (q : Nat) : State :=
  s.blockCmd q 0x40 0x41 false (fun c => c.bare && bits c.w5 63 2 == 0) (fun s c cmd =>
    let r := bits cmd.w5 1 0
    if s.rankSt c r != 1 then s.finishCmd q 0x40 0
    else
      let s := s.modChan c (fun x => { x with retireCmds := x.retireCmds ++ [(q, r, 0)] })
      (s.retireRank c r true).retireDone c)

def execDchRetire (q : Nat) (s : State) : Res := .next (s.dchRetire q)

/-- DCH_SB_READ (R254, R260): `answer` is what the sideband device returned, none where it did not answer. -/
def State.dchSbRead (s : State) (q : Nat) (answer : Option (List Byte)) : State :=
  s.blockCmd q 0x40 0x42 false
    (fun c => c.w1 == 0 && c.count == 0 && c.table == 0 && c.w6 == 0 && decide (1 ≤ c.length) && decide (c.length ≤ 1024)
      && bits c.w5 7 4 == 0 && bits c.w5 63 24 == 0)
    (fun s c cmd =>
      if (s.rd DCH_POP_SLOTS c / 2 ^ bits cmd.w5 0 0) % 2 = 0 then s.finishCmd q 0x40 0
      else if 4 ≤ bits cmd.w5 3 1 then s.finishCmd q stBadValue 0
      else match answer with
        | none => s.finishCmd q 0x41 0
        | some bs =>
          let bs := bs.take cmd.length
          let (s, ok) := s.dmaWrite cmd.dataAddr (bytesWords bs)
          if ok then s.finishCmd q stOk bs.length else s.finishCmd q stDmaError 0)

def execDchSbRead (q : Nat) (answer : Option (List Byte)) (s : State) : Res := .next (s.dchSbRead q answer)

end Sys2Proof.Machine
end

