-- ==== Sys2Proof/Machine/Journal.lean ====
section
/-! DEFINITION. The bytes of the journal, of a stored unit's metadata and of the flush manifest (R267, R285, R286, R309). Firmware alone reads and writes them. -/

namespace Sys2Proof.Machine

/-- Group and block of a superblock, and a die as ce.lun, in the records of R286. -/
def groupBlock (g k : Nat) : List (Nat × List Byte) := [(1, toLe 1 g), (2, toLe 2 k)]
def dieByte (ch die : Nat) : List (Nat × List Byte) := [(1, toLe 1 ch), (2, toLe 1 die)]

/-- A record's 32 bytes (R286). The spec numbers neither modes nor roles: SLC is mode 1, the roles count in the order of R268 (DESIGN CHOICE,
log 218). -/
def JRec.bytes (r : JRec) : List Byte :=
  let put (t : Nat) (l : List (Nat × List Byte)) : List Byte := placeBytes 32 ((0, toLe 1 t) :: l)
  match r with
  | .map tenant page addr slc => put 0x01 [(1, toLe 1 tenant), (2, toLe 6 page), (8, toLe 5 addr), (13, toLe 1 (b2n slc))]
  | .unmap page => put 0x02 [(2, toLe 6 page)]
  | .sbOpen g k slc role erases => put 0x03 (groupBlock g k ++ [(4, toLe 1 (b2n slc)), (5, toLe 1 role), (6, toLe 4 erases)])
  | .sbClose g k valid => put 0x04 (groupBlock g k ++ [(6, toLe 4 valid)])
  | .eraseBegin g k => put 0x05 (groupBlock g k)
  | .eraseDone g k erases => put 0x06 (groupBlock g k ++ [(6, toLe 4 erases)])
  | .badBlock ch die plane block cause => put 0x07 (dieByte ch die ++ [(3, toLe 1 plane), (4, toLe 2 block), (6, toLe 1 cause)])
  | .dieState ch die st => put 0x08 (dieByte ch die ++ [(3, toLe 1 st)])
  | .ckptSeg seg covered => put 0x09 [(2, toLe 4 seg), (8, toLe 8 covered)]
  | .hotProg g k => put 0x0A (groupBlock g k)
  | .flushBegin => put 0x0B []
  | .flushEnd => put 0x0C []
  | .cleanStop unitSeq => put 0x0D [(8, toLe 8 unitSeq)]

/-- A journal unit's 4 KiB with a CRC word (R285). -/
def JUnit.bytesWith (u : JUnit) (crc : Nat) : List Byte :=
  let head := placeBytes 64 [(0, toLe 2 0x4A01), (2, toLe 2 u.recs.length), (4, toLe 4 crc), (8, toLe 8 u.seq), (16, toLe 8 u.tb)]
  let body := head ++ u.recs.flatMap JRec.bytes
  body ++ List.replicate (4096 - body.length) 0

/-- A journal unit's 4 KiB: its CRC-32C is computed with the CRC's bytes as 0. -/
def JUnit.bytes (u : JUnit) : List Byte := u.bytesWith (crc32c (u.bytesWith 0)).toNat

/-- The CRC-32C of the plaintext that a stored unit's metadata holds (R267). -/
def MUnit.crc (u : MUnit) : BitVec 32 := crc32c (u.lines.flatMap (fun l => lineGet l.data 0 64))

/-- Fields that every unit of the manifest repeats (R309, bytes 16 to 95): `b` is twin B, `img` the state image's location and its units. -/
def FlushRec.manifestHead (f : FlushRec) (b : Bool) (img : Nat × Nat) : List (Nat × List Byte) :=
  [(16, toLe 8 f.startTb), (24, toLe 8 f.endTb), (32, toLe 1 (b2n b)), (33, toLe 1 f.cause), (34, toLe 1 f.final), (35, toLe 1 f.roles), (36, toLe 1 (b2n f.hot)),
   (40, toLe 8 f.pairGen), (48, toLe 8 f.confirmed), (56, toLe 8 f.finalEpoch), (64, toLe 8 f.units.length),
   (72, toLe 8 (f.units.map (fun u => u.lines.length)).sum), (80, toLe 8 f.charged), (88, toLe 5 img.1), (93, toLe 3 img.2)]

/-- Extent j of the manifest (R309). -/
def extentWord (e : Nat × Nat × Bool) : Nat := e.1 / 32768 % 16 + e.1 % 32768 * 16 + e.2.1 % 2 ^ 21 * 2 ^ 19 + b2n e.2.2 * 2 ^ 40

/-- Unit n of the manifest chain with its 496 extents; `next` is the location of the one after it, 0 for the last (R309). The CRC-32C is
computed with its bytes as 0. Where the chain and the state image lie is not in the model (log 218). -/
def FlushRec.manifestUnit (f : FlushRec) (b : Bool) (img : Nat × Nat) (n next : Nat) : List Byte :=
  let es := (f.extents.drop (496 * n)).take 496
  let body (crc : Nat) : List Byte :=
    placeBytes 128 ([(0, toLe 2 0x4D01), (2, toLe 2 n), (4, toLe 4 crc), (8, toLe 8 f.jseq)] ++ f.manifestHead b img ++ [(96, toLe 5 next)])
      ++ es.flatMap (fun e => toLe 8 (extentWord e)) ++ List.replicate (8 * (496 - es.length)) 0
  body (crc32c (body 0)).toNat

end Sys2Proof.Machine
end

