-- ==== Sys2Proof/Machine/Media.lean ====
section
/-! DEFINITION. The NAND media commands (11_media.md): programs, erases, reads, the journal and checkpoint, capacity, the
flush-rate probe, wear levelling, patrol, windows, die retirement. -/

namespace Sys2Proof.Machine

/-- Keeps the newest 256 of a list. -/
def keep256 (l : List Nat) (x : Nat) : List Nat := (x :: l).take 256

/-- Mean of a list, 0 of none. -/
def mean (l : List Nat) : Nat := l.sum / max 1 l.length

/-- Inserts into a rising list, keeping equals. -/
def insertLe : List Nat → Nat → List Nat
  | [], x => [x]
  | y :: ys, x => if x ≤ y then x :: y :: ys else y :: insertLe ys x

/-- Median of a list. -/
def median (l : List Nat) : Nat := let t := l.foldl insertLe []; nth 0 t (t.length / 2)

/-- Marks a die SLOW or back IN_SERVICE by its last 256 programs (R269). -/
def State.slowCheck (s : State) (c d : Nat) (slc : Bool) : State :=
  let of (x : DieStat) : List Nat := if slc then x.slc else x.native
  let all := (s.media.stats.filter (fun e => !(of e.2).isEmpty)).map (fun e => mean (of e.2))
  let m := median all
  let mine := of (s.stat c d)
  if mine.length < 256 then s
  else if s.dieSt c d = 1 && decide (3 * m < 2 * mean mine) then ((s.setDieSt c d 2).raise (0x80 + c) 4).mediaRecompute
  else if s.dieSt c d = 2 && decide (4 * mean mine < 5 * m) then (s.setDieSt c d 1).mediaRecompute
  else s

/-- A program whose die is lost or whose block failed is placed on another member (R283). A destage that finds no place starts again later,
as does the read of a unit that was being moved. -/
def State.reprogram (s : State) (a : Nat) (p : Prog) : State :=
  let s : State := { s with media := { s.media with progs := NMap.erase s.media.progs a } }
  let s := s.progEnds (addrCh a) (addrDie a) p.stream
  match s.startProg p.stream p.slc p.src p.unit with
  | some (b, s) =>
    { s with tier := { s.tier with destages := s.tier.destages.map (fun (d : Nat × Destage) =>
        if d.2.unit = some a then (d.1, { d.2 with unit := some b }) else d) } }
  | none =>
    let ds := s.tier.destages.filter (fun d => d.2.unit == some a)
    let s := ds.foldl (fun (s : State) d =>
      let s := if (s.pte d.1).st == .demoting then s.setPte d.1 { s.pte d.1 with st := .resident } else s
      { s with tier := { s.tier with redo := insertNat s.tier.redo d.1 } }) s
    let s : State := { s with tier := { s.tier with destages := s.tier.destages.filter (fun d => d.2.unit != some a) } }
    match p.src with
    | some b => { s with media := { s.media with relocs := NMap.insert s.media.relocs b p.stream } }
    | none => s

/-- MED_DIE_RETIRE ends once nothing of the die is left to move (R284, R293). -/
def State.retireCheck (s : State) : State :=
  s.media.retireCmds.foldl (fun s e =>
    let c := e.2.1
    let d := e.2.2.1
    let left := s.media.units.any (fun u => addrCh u.1 == c && addrDie u.1 == d && s.unitValid u.1 u.2)
      || s.media.progs.any (fun u => addrCh u.1 == c && addrDie u.1 == d)
    if left && s.dieSt c d == 3 then s
    else
      let s := if s.dieSt c d = 3 then ((s.setDieSt c d 4).raise (0x80 + c) 5).mediaRecompute else s
      let s : State := { s with media := { s.media with retireCmds := s.media.retireCmds.filter (fun f => f.1 != e.1) } }
      s.finishCmd e.1 stOk (e.2.2.2.2 * 2 ^ 32 + e.2.2.2.1)) s

/-- A die goes to FAILED (R284): its programs go elsewhere, its units are read and moved. -/
def State.dieFails (s : State) (c d : Nat) : State :=
  if s.dieSt c d = 0 || s.dieSt c d == 4 then s
  else
    let s := (s.setDieSt c d 4).raise (0x80 + c) 5
    let ps := s.media.progs.filter (fun e => addrCh e.1 == c && addrDie e.1 == d)
    let s := ps.foldl (fun s e => s.reprogram e.1 e.2) s
    ((s.moveUnits 2 (fun a => addrCh a == c && addrDie a == d)).mediaRecompute).retireCheck

/-- What follows a change of the media: victims, erases, folding, retirements, the data path. -/
def State.mediaGoOn (s : State) : State := s.reclaimCheck.foldCheck.eraseCheck.retireCheck.settle

/-- A superblock whose members are all full is closed. -/
def State.closeFull (s : State) (a stream : Nat) (slc : Bool) : State :=
  let g := addrDie a
  match NMap.find s.media.open_ (openKey stream g slc) with
  | some k =>
    if s.liveDies.any (fun e => e.2 == g && (s.memberRoom e.1 g k).isSome) then s else s.closeSb stream g slc
  | none => s

/-- A unit is now a page's copy on NAND: entry, valid counts and MAP record (R231, R275, R287). -/
def State.mapUnit (s : State) (a : Nat) (p : Prog) : State :=
  let e := s.pte p.unit.page
  let s := if e.hasMedia then s.dropUnit e.media else s
  let s := s.setPte p.unit.page { s.pte p.unit.page with hasMedia := true, media := a }
  let x := s.sb (addrSb a)
  (s.setSb (addrSb a) { x with valid := x.valid + 1 }).jrn (.map e.tenant p.unit.page a p.slc) (if e.hasMedia then some e.media else none)

/-- What becomes of a unit once its program ended: a destage's frame comes free and the page maps it (R259); a direct write still mapped
here, a group write and a copy that is still valid map it (R273, R283). -/
def State.programMaps (s : State) (a : Nat) (p : Prog) : State :=
  match p.stream, p.src with
  | 0, _ =>
    if s.tier.destages.any (fun t => t.1 == p.unit.page && t.2.unit == some a) then
      let e := s.pte p.unit.page
      let s := (List.range 64).foldl (fun (s : State) j => s.dramTaken e.ch e.idx j false) s
      s.mapUnit a p
    else if p.direct && (s.pte p.unit.page).st == .media && (s.pte p.unit.page).media == a then
      s.jrn (.map p.unit.tenant p.unit.page a p.slc)
    else s
  | 1, some b => if s.unitValid b p.unit then s.mapUnit a p else s
  | 2, some b => if s.unitValid b p.unit then s.mapUnit a p else s
  | _, _ => s

/-- PROGRAM_DONE (R231, R271, R275, R287). -/
def State.programDone (s : State) (a ns : Nat) : State :=
  match NMap.find s.media.progs a with
  | none => s
  | some p =>
    let c := addrCh a
    let d := addrDie a
    let s : State := { s with media := { s.media with progs := NMap.erase s.media.progs a, units := NMap.insert s.media.units a p.unit } }
    let s := s.progEnds c d p.stream
    let s := (s.nchCount c 1).nchCount c 4 4096
    let s := if p.stream ≤ 2 then s.medCount p.stream else s
    let s := s.modStat c d (fun x => if p.slc then { x with slc := keep256 x.slc ns } else { x with native := keep256 x.native ns })
    let s := s.slowCheck c d p.slc
    let s := s.programMaps a p
    (s.closeFull a p.stream p.slc).mediaGoOn

def execProgramDone (addr ns : Nat) (s : State) : Res := .next (s.programDone addr ns)

/-- PROGRAM_FAIL (R283). -/
def State.programFail (s : State) (a : Nat) : State :=
  match NMap.find s.media.progs a with
  | none => s
  | some p =>
    let c := addrCh a
    let d := addrDie a
    let s := (s.medCount 8).modStat c d (fun x => { x with progFails := x.progFails + 1 })
    let (s, die) := s.badBlock c d (addrPlane a) (addrBlock a) 1
    let s := (s.reprogram a p).mediaRecompute
    (if die then s.dieFails c d else s).mediaGoOn

def execProgramFail (addr : Nat) (s : State) : Res := .next (s.programFail addr)

/-- Wear statistics (MED.WEAR) and WEAR_WARN at 90 % of RATED (R276). -/
def State.wearStats (s : State) : State :=
  let gs := (List.range 16).filter (fun g => decide (0 < s.sbSlcBytes g))
  let n := gs.length * s.rd MED_GEOM_BLOCKS
  let es := s.media.sbs.map (fun e => e.2.erases)
  let m := es.sum / max 1 n
  let lo := if es.length < n then 0 else (es.foldl (fun a b => min a b) (es.headD 0))
  let s := ((s.wr MED_WEAR_MAX (es.foldl max 0)).wr MED_WEAR_MEAN m).wr MED_WEAR_MIN lo
  let warn := s.rd MED_WEAR_RATED != 0 && decide (9 * s.rd MED_WEAR_RATED ≤ 10 * m)
  let s := s.raiseIf (warn && !s.media.warnSaid) 0xC 6
  { s with media := { s.media with warnSaid := warn } }

/-- ERASE_DONE (R272, R287): the superblock is erased and refills the reserve first. -/
def State.eraseDone (s : State) (g k ns : Nat) : State :=
  let x := s.sb (sbKey g k)
  if x.st != 4 then s
  else
    let s : State := { s with media := { s.media with units := s.media.units.filter (fun u => addrSb u.1 != sbKey g k) } }
    let s := s.setSb (sbKey g k) { erases := x.erases + 1, halves := x.halves }
    let s : State := { s with media := { s.media with suspended := s.media.suspended.filter (fun e => e.1 % 16 != g) } }
    let s := (s.jrn (.eraseDone g k (x.erases + 1))).medCount 4
    let s := (List.range 32).foldl (fun s c =>
      if s.dieSt c g = 1 ∨ s.dieSt c g = 2 then
        (s.nchCount c 2).modStat c g (fun y => { y with erase := keep256 y.erase ns, erases := y.erases + 1 })
      else s) s
    let s := if s.rsvBytes < s.rsvTarget && s.sbUsable g k then
        { s with media := { s.media with rsv := insertNat s.media.rsv (sbKey g k) } }.mediaRecompute
      else s
    s.wearStats.mediaGoOn

def execEraseDone (group block ns : Nat) (s : State) : Res := .next (s.eraseDone group block ns)

/-- ERASE_FAIL (R284): the block turns bad, its superblock goes on without it. -/
def State.eraseFail (s : State) (c d pl k : Nat) : State :=
  if (s.sb (sbKey d k)).st != 4 then s
  else
    let s := (s.medCount 9).modStat c d (fun x => { x with eraseFails := x.eraseFails + 1 })
    let (s, die) := s.badBlock c d pl k 2
    let s := s.mediaRecompute
    (if die then s.dieFails c d else s).mediaGoOn

def execEraseFail (channel die plane block : Nat) (s : State) : Res := .next (s.eraseFail channel die plane block)

/-- DIE_TIMEOUT (R284). -/
def execDieTimeout (channel die : Nat) (s : State) : Res := .next ((s.dieFails channel die).mediaGoOn)

/-- A unit that cannot be read while its page still needs it (R281, R283): a page with a frame is destaged again without a charge, one in
MEDIA is fetched, in damper class 3, so that R224 recovers it. -/
def State.unitLost (s : State) (p : Nat) : State :=
  match (s.pte p).st with
  | .media =>
    if s.tier.ra.any (fun r => r.page == p) then s
    else { s with tier := { s.tier with ra := s.tier.ra ++ [{ page := p, since := s.mono }] } }
  | .resident | .demoting | .moving => { s with tier := { s.tier with redo := insertNat s.tier.redo p } }
  | _ => s

/-- Counters of an uncorrectable unit (R280, R294, R295, R297, R298). -/
def State.countLost (s : State) (a : Nat) : State :=
  let c := addrCh a
  let s := ((s.medCount 7).nchCount c 6).modStat c (addrDie a) (fun x => { x with uncorr := x.uncorr + 1 })
  let s : State := { s with media := { s.media with units := s.media.units.map (fun (e : Nat × MUnit) => if e.1 = a then (e.1, { e.2 with good := false }) else e) } }
  s.raise 0xC 4

/-- Counts a unit recovered or moved on the MED_DIE_RETIRE of its die (R293). -/
def State.countRetire (s : State) (a moved lost : Nat) : State :=
  { s with media := { s.media with retireCmds := s.media.retireCmds.map (fun e =>
      if e.2.1 = addrCh a ∧ e.2.2.1 = addrDie a then (e.1, e.2.1, e.2.2.1, e.2.2.2.1 + moved, e.2.2.2.2 + lost) else e) } }

/-- UNIT_READ_DONE (R280, R283): the decode's outcome, and for a unit being moved its program elsewhere. -/
def State.unitRead (s : State) (a ns steps : Nat) (soft : Bool) (corr : Nat) (good : Bool) : State :=
  match NMap.find s.media.units a with
  | none => s
  | some u =>
    let c := addrCh a
    let d := addrDie a
    let s := (s.nchCount c 0).nchCount c 3 4096
    let s := if steps = 0 then s else ((s.medCount 5).nchCount c 5).modStat c d (fun x => { x with retries := x.retries + 1 })
    let s := if soft then s.medCount 6 else s
    let s := s.modStat c d (fun x => { x with read := keep256 x.read ns, corrMax := max x.corrMax corr })
    let s := if good then s else s.countLost a
    let s := if good && (steps != 0 || decide (s.rd MED_RETRY_REFRESH_BITS ≤ corr)) then s.victim (addrSb a) 2 else s
    let s := match NMap.find s.media.relocs a with
      | none => if good || !s.unitValid a u then s else s.unitLost u.page
      | some stream =>
        if !s.unitValid a u then { s with media := { s.media with relocs := NMap.erase s.media.relocs a } }
        else if good then
          match s.startProg stream false (some a) u with
          | some (_, s) => { s with media := { s.media with relocs := NMap.erase s.media.relocs a } }.countRetire a 1 0
          | none => s
        else { s with media := { s.media with relocs := NMap.erase s.media.relocs a } }.countRetire a 0 1 |>.unitLost u.page
    s.mediaGoOn

def execUnitReadDone (addr ns steps : Nat) (soft : Bool) (corrBits : Nat) (good : Bool) (s : State) : Res :=
  .next (s.unitRead addr ns steps soft corrBits good)

/-- JOURNAL_UNIT (R285): 50 µs after its first record, or at 126, the unit is programmed in both copies. With the ring full
of needed units the operation waits (JRN_FULL). -/
def State.journalUnit (s : State) : State :=
  match s.media.jfirst with
  | none => s
  | some t =>
    let s := if s.media.jpend.length < 126 then s.upTo (t + us 50) else s
    if 2 ^ 22 ≤ s.jrnNeeded then s.raise 0xC 8
    else
      let now := s.media.jpend.take 126
      let rest := s.media.jpend.drop 126
      let s : State := { s with media := { s.media with jpend := rest, jfirst := if rest.isEmpty then none else some s.mono } }
      (s.jrnUnit (now.map (fun r => r.rec_))).mediaGoOn

def execJournalUnit (s : State) : Res := .next s.journalUnit

/-- The state image of now (R308). -/
def State.stateImage (s : State) : StateImage :=
  let idle := s.chains.chains.map (fun (e : Nat × List Word64) => (e.1, setNth e.2 0 (setBits (wordAt e.2 0) 2 0 0)))
  { keys := s.prot.keys, tenants := s.prot.tenants, regions := s.prot.regions, ownerBase := s.prot.ownerBase, t1Quota := s.tier.t1Quota, t2Quota := s.tier.t2Quota
    quota := s.cache.quota, chains := idle, ops := s.chains.ops, protSeq := s.protSeq, pairGen := s.rd MIR_PAIR_GEN_VALUE, confirmed := s.pair.confirmed
    pairWide := [regKey 0xA 0x100, regKey 0xB 0x140, regKey 0xB 0x148, regKey 0xB 0x150, regKey 0xB 0x158].map (fun k => (k, s.reg k)) }

/-- CKPT_SEG (R288, R308): the segments in turn; with each cycle the state image is written. -/
def State.ckptSeg (s : State) : State :=
  let n := max 1 (divUp (s.rd TIR_POOL_CFG_PT_MIB) 256)
  let k := s.media.ckptNext % n
  let s := s.jrn (.ckptSeg k s.media.ckptBegan)
  let s : State := { s with media := { s.media with ckpt := NMap.insert s.media.ckpt k s.media.ckptBegan, ckptNext := (k + 1) % n, ckptBegan := s.media.jseq } }
  if k + 1 = n then { s with dur := { s.dur with image := some s.stateImage } } else s

def execCkptSeg (s : State) : Res := .next (if s.rd PG_STAT_STATE 0xC = 2 then s.ckptSeg else s)

/-- CAPACITY_RECOMPUTE (R270, R272). -/
def execCapacityRecompute (s : State) : Res :=
  .next (if s.rd PG_STAT_STATE 0xC = 2 then s.fillReserve.mediaRecompute.mediaGoOn else s)

/-- A probe starts (R274). -/
def State.startProbe (s : State) : State :=
  { s with media := { s.media with probing := true, lastProbe := s.mono } }.wr MED_PROBE_BUSY 1

/-- PROBE_INTERVAL (R274). -/
def State.probeInterval (s : State) : State :=
  let h := s.rd MED_PROBE_INTERVAL_H
  if h = 0 || s.rd PG_STAT_STATE 0xC != 2 then s
  else (s.upTo (s.media.lastProbe + h * 3600 * 1000000000)).startProbe

def execProbeInterval (s : State) : Res := .next s.probeInterval

/-- A new F in bytes per second is in force (R233, R274). -/
def State.setF (s : State) (f : Nat) : State :=
  let s : State := { s with media := { s.media with flushF := f } }
  (((s.wr TIR_FLUSH_RATE_MBPS (f / 1000000)).wr TIR_FLUSH_RATE_VALID 1).budgetRecompute).mediaRecompute

/-- PROBE_DONE (R237, R274): F is the unit rate times 3,584 bytes; the first measurement makes TIR RUNNING. -/
def State.probeDone (s : State) (units conc rateSum : Nat) : State :=
  if !s.media.probing then s
  else
    let f := units * 3584
    let s : State := { s with media := { s.media with probing := false, probeSum := rateSum, probeF := f } }
    let s := ((s.wr MED_PROBE_BUSY 0).wr MED_PROBE_CONC conc).raise 0xC 7
    let s := if s.rd PG_STAT_STATE 0xA = 1 then s.setStat 0xA 2 true else s
    let s := s.setF f
    let qs := s.media.probeCmds
    let s : State := { s with media := { s.media with probeCmds := [] } }
    (qs.foldl (fun s q => s.finishCmd q stOk (f / 1000000)) s).settle

def execProbeDone (unitsPerSec conc rateSum : Nat) (s : State) : Res := .next (s.probeDone unitsPerSec conc rateSum)

/-- FLUSH_RATE_RESCALE (R274). -/
def State.rescale (s : State) (rateSum : Nat) : State :=
  if s.rd TIR_FLUSH_RATE_VALID = 0 ∨ s.media.probeSum = 0 then s else s.setF (s.media.probeF * rateSum / s.media.probeSum)

def execFlushRateRescale (rateSum : Nat) (s : State) : Res := .next (s.rescale rateSum)

/-- WEAR_LEVEL (R276): the closed NATIVE superblock of the lowest erase count is relocated, within the hourly limit. -/
def State.wearLevel (s : State) : State :=
  let nat_ := s.media.sbs.filter (fun e => e.2.role == 1)
  let hi := (nat_.map (fun e => e.2.erases)).foldl max 0
  let cs := nat_.filter (fun e => e.2.st == 2)
  let low := cs.foldl (fun (b : Option (Nat × Sb)) e => match b with
    | none => some e
    | some x => if e.2.erases < x.2.erases then some e else some x) none
  let recent := s.media.wlMoves.filter (fun t => decide (s.mono - t < 3600 * 1000000000))
  match low with
  | some e =>
    if !s.halts 0xC && decide (e.2.erases + s.rd MED_RECLAIM_WL_DELTA < hi) && decide (recent.length < s.rd MED_RECLAIM_WL_MOVES_H) then
      ({ s with media := { s.media with wlMoves := recent ++ [s.mono] } }.victim e.1 2).mediaGoOn
    else s
  | none => s

def execWearLevel (s : State) : Res := .next s.wearLevel

/-- PATROL (R281): the programmed superblock is read; `bad` are its units found uncorrectable. -/
def State.patrol (s : State) (g k : Nat) (bad : List Nat) : State :=
  let us := s.media.units.filter (fun e => addrSb e.1 == sbKey g k)
  if us.isEmpty || s.halts 0xC || s.rd MED_RECLAIM_PATROL_D == 0 then s
  else
    let s := us.foldl (fun s e => s.nchCount (addrCh e.1) 0) s
    let s := (us.filter (fun e => bad.contains e.1)).foldl (fun s e =>
      let s := s.countLost e.1
      if s.unitValid e.1 e.2 then s.unitLost e.2.page else s) s
    s.mediaGoOn

def execPatrol (group block : Nat) (bad : List Nat) (s : State) : Res := .next (s.patrol group block bad)

/-- RESERVE_VERIFY (R272, R289 step 7): a half-erased reserve superblock is erased again, or turned bad when it was found so
the last time as well. -/
def State.reserveVerify (s : State) (half : List (Nat × Nat)) : State :=
  let s : State := { s with media := { s.media with sbs := s.media.sbs.map (fun (e : Nat × Sb) =>
      if half.any (fun h => sbKey h.1 h.2 == e.1) then e else (e.1, { e.2 with halves := 0 })) } }
  let s := half.foldl (fun s h =>
    let (g, k) := h
    let x := s.sb (sbKey g k)
    if x.st != 0 then s
    else
      let s := (s.medCount 10).raise 0xC 5
      let s : State := { s with media := { s.media with rsv := s.media.rsv.filter (· != sbKey g k) } }
      if x.halves = 1 then
        (s.liveDies.filter (fun e => e.2 == g)).foldl (fun s e =>
          (List.range (s.rd MED_GEOM_PLANES)).foldl (fun s pl => (s.badBlock e.1 e.2 pl k 3).1) s) s
      else s.setSb (sbKey g k) { x with st := 3, halves := 1 }) s
  s.mediaRecompute.mediaGoOn

def execReserveVerify (halfErased : List (Nat × Nat)) (s : State) : Res := .next (s.reserveVerify halfErased)

/-- A register byte as a signed number. -/
def sByte (v : Nat) : Int := if v % 256 < 128 then (v % 256 : Nat) else (v % 256 : Nat) - 256

/-- The U96's own window follows its channels' (R278). -/
def State.windowUpdate (s : State) : State :=
  let svc := (List.range 32).filter (fun c => s.rd PG_STAT_STATE (0x80 + c) == 2)
  let closed := svc.all (fun c => !s.winOpen c)
  let was := s.windowClosed
  if closed = was then s
  else if closed then
    { s with media := { s.media with closedSince := some s.mono } }.wr MED_WIN_STAT_CLOSED 1 |>.raise 0xC 0
  else
    let ns := match s.media.closedSince with | some t => s.mono - t | none => 0
    ((({ s with media := { s.media with closedSince := none } }.wr MED_WIN_STAT_CLOSED 0).medCount 13 ns).raise 0xC 1).settle

/-- Opens or closes a channel's window; one closed by heat is so until it reopens (R278, R485). -/
def State.setWindow (s : State) (c : Nat) (v : Bool) : State :=
  let hi := sByte (s.rd MED_PROG_TMAX_C)
  let hot := !v && decide (hi < sByte (s.rd NCH_TEMP_CASE_C c))
  let s : State := { s with thm := { s.thm with heat := if v then s.thm.heat.filter (· != c) else if hot then insertNat s.thm.heat c else s.thm.heat } }
  if s.winOpen c = v then s
  else
    let w := s.rd MED_WIN_STAT_OPEN
    let s := s.wr MED_WIN_STAT_OPEN (if v then w + 2 ^ c else w - 2 ^ c)
    ((s.wr NCH_TEMP_WIN_OPEN (b2n v) c).raise (0x80 + c) 6).windowUpdate

/-- DIE_TEMP_READ (R278, R486): the case temperature of a channel, its source's reading with the offset of CASE_MAP. -/
def State.dieTemp (s : State) (c : Nat) (reading : Int) : State :=
  let t := reading + sByte (bits (NMap.getD s.thm.caseMap c 0) 23 16)
  let s := s.wr NCH_TEMP_CASE_C ((t % 256).toNat) c
  let lo := sByte (s.rd MED_PROG_TMIN_C)
  let hi := sByte (s.rd MED_PROG_TMAX_C)
  if !s.media.caseRead.contains c then
    let s : State := { s with media := { s.media with caseRead := insertNat s.media.caseRead c } }
    s.setWindow c (decide (lo ≤ t ∧ t ≤ hi))
  else if s.winOpen c then (if t < lo ∨ hi < t then s.setWindow c false else s)
  else if lo + 3 ≤ t ∧ t ≤ hi - 3 then s.setWindow c true
  else s

def execDieTempRead (channel : Nat) (hottest : Int) (s : State) : Res := .next (s.dieTemp channel hottest)

/-- MED_PROBE_RUN (R274, R293). -/
def State.medProbeRun (s : State) (q : Nat) : State :=
  s.blockCmd q 0x0C 0x40 true (fun c => c.bare && c.w5 == 0) (fun s _ _ =>
    let s := if s.media.probing then s else s.startProbe
    { s with media := { s.media with probeCmds := s.media.probeCmds ++ [q] } })

def execMedProbeRun (q : Nat) (s : State) : Res := .next (s.medProbeRun q)

/-- MED_DIE_RETIRE (R284, R293). -/
def State.medDieRetire (s : State) (q : Nat) : State :=
  s.blockCmd q 0x0C 0x41 true (fun c => c.bare && bits c.w5 63 9 == 0) (fun s _ cmd =>
    let c := bits cmd.w5 4 0
    let d := 4 * bits cmd.w5 6 5 + bits cmd.w5 8 7
    if s.dieSt c d != 1 && s.dieSt c d != 2 then s.finishCmd q 0x40 0
    else if s.dataMaxOf (s.rd MED_GEOM_DIES - 1) < s.dataBytes then s.finishCmd q 0x41 0
    else
      let s := s.setDieSt c d 3
      let ps := s.media.progs.filter (fun e => addrCh e.1 == c && addrDie e.1 == d)
      let s := ps.foldl (fun s e => s.reprogram e.1 e.2) s
      let s := (s.moveUnits 2 (fun a => addrCh a == c && addrDie a == d)).mediaRecompute
      { s with media := { s.media with retireCmds := s.media.retireCmds ++ [(q, c, d, 0, 0)] } }.mediaGoOn)

def execMedDieRetire (q : Nat) (s : State) : Res := .next (s.medDieRetire q)

end Sys2Proof.Machine
end

