-- ==== Sys2Proof/Machine/Tiers.lean ====
section
/-! DEFINITION. The tier commands (09_pool_tiers.md) and the copy of a page out of a retiring rank (R256, R257). -/

namespace Sys2Proof.Machine

/-! ### Commands of R235 in progress -/

/-- Discards a range of pages at their owner and stages it (R236). -/
def State.discardRange (s : State) (first count : Nat) : State × Nat :=
  let ps := (s.tier.pt.filter (fun e => decide (first ≤ e.1) && decide (e.1 < first + count) && e.2.st != .zero)).map Prod.fst
  let s := ps.foldl (fun s p => s.discardPage p) s
  if ps.isEmpty then (s, 0)
  else
    let s := (s.stage (.discard first count)).markChange (first * 4096)
    match s.stageEpoch with
    | some n => ({ s with tier := { s.tier with discards := s.tier.discards ++ ps.map (fun p => (p, n)) } }, ps.length)
    | none => (s, ps.length)

/-- Changes a command in progress. -/
def State.modTir (s : State) (q : Nat) (f : TirCmd → TirCmd) : State :=
  { s with tier := { s.tier with cmds := s.tier.cmds.map (fun c => if c.q = q then f c else c) } }

/-- Ends a command with its counts (R235). -/
def State.tirEnd (s : State) (c : TirCmd) (status done passed : Nat) : State :=
  let s : State := { s with tier := { s.tier with cmds := s.tier.cmds.filter (fun x => x.q != c.q) } }
  s.finishCmd c.q status (done * 2 ^ 32 + passed)

/-- Goes on with a promotion (R235): starts the fetches that may start; at a tenant's quota the command stops. -/
def tirPromoteOn : List Nat → State → List Nat → Nat → State × List Nat × Nat × Bool
  | [], s, left, done => (s, left, done, false)
  | p :: ps, s, left, done =>
    match (s.pte p).st with
    | .media =>
      if s.hearth.level = 2 then tirPromoteOn ps s (left ++ [p]) done
      else match s.startFetch p with
        | .ok s => tirPromoteOn ps (s.fetchAhead p) (left ++ [p]) done
        | .error .t1Quota => (s, left ++ (p :: ps), done, true)
        | .error _ => tirPromoteOn ps s (left ++ [p]) done
    | .fetching => tirPromoteOn ps s (left ++ [p]) done
    | _ => tirPromoteOn ps s left (done + 1)

/-- One command in progress. -/
def State.tirStep (s : State) (c : TirCmd) : State :=
  match c.op with
  | 0x40 =>
    let sealedAll := match c.epoch with | some n => s.isConfirmed n | none => true
    if sealedAll && c.fwd == 0 && !c.pages.any (fun p => s.tier.discardLater.contains p) then
      s.tirEnd c stOk c.done (c.total - c.done) else s
  | 0x42 =>
    if c.pages.any (fun p => (s.pte p).st == .demoting) then s
    else
      let n := (c.pages.filter (fun p => (s.pte p).st == .media)).length
      s.tirEnd c stOk n (c.total - n)
  | _ =>
    let (s, left, done, quota) := tirPromoteOn c.pages s [] c.done
    if quota then s.tirEnd c 0x41 done (c.total - done)
    else if left.isEmpty then s.tirEnd c stOk done (c.total - done)
    else s.modTir c.q (fun x => { x with pages := left, done := done })

/-- Every command in progress. -/
def State.tirCheck (s : State) : State := s.tier.cmds.foldl (fun s c => s.tirStep c) s

/-- Fields a TIR command must leave 0 (R235). -/
def tirZero (pin : Bool) (c : RqCmd) : Bool :=
  c.w2 == 0 && c.count == 0 && c.length == 0 && c.table == 0 && (if pin then bits c.w6 63 1 == 0 else c.w6 == 0)

/-- Runs a TIR command over its range of pages (R235). -/
def State.tirCmd (s : State) (q op : Nat) (f : State → Nat → Nat → RqCmd → State) : State :=
  s.blockCmd q 0x0A op true (tirZero (op == 0x43)) (fun s _ c =>
    let len := c.w5.toNat
    if c.index % 4096 ≠ 0 ∨ len % 4096 ≠ 0 ∨ len = 0 ∨ s.tier.poolRegions * 2 ^ 30 < c.index + len then s.finishCmd q 0x40 0
    else f s (c.index / 4096) (len / 4096) c)

/-- Pages of a range that are not ZERO. -/
def State.rangePages (s : State) (first n : Nat) : List Nat :=
  (s.tier.pt.filter (fun e => decide (first ≤ e.1) && decide (e.1 < first + n) && e.2.st != .zero)).map Prod.fst

/-- A new command in progress. -/
def State.tirStart (s : State) (c : TirCmd) : State :=
  ({ s with tier := { s.tier with cmds := s.tier.cmds ++ [c] } }.settle).tirCheck.settle

/-- TIR_DISCARD (R235, R236): at the owner of each region of the range; forwarded for the regions the twin owns. -/
def State.tirDiscard (s : State) (q : Nat) : State :=
  s.tirCmd q 0x40 (fun s first n _ =>
    let r0 := first / 2 ^ 18
    let r1 := (first + n - 1) / 2 ^ 18
    let parts := (List.range (r1 + 1 - r0)).map (fun i =>
      let a := max first ((r0 + i) * 2 ^ 18)
      let b := min (first + n) ((r0 + i + 1) * 2 ^ 18)
      (r0 + i, a, b - a))
    let mine := s.rangePages first n
    let (s, done, fwd) := parts.foldl (fun (x : State × Nat × Nat) p =>
      let (s, done, fwd) := x
      if s.owns p.1 then
        let (s, k) := s.discardRange p.2.1 p.2.2
        (s, done + k, fwd)
      else
        let k := (mine.filter (fun m => decide (p.2.1 ≤ m) && decide (m < p.2.1 + p.2.2))).length
        let m : FwdReqMsg := { qpn := 0, psn := q, seg := p.1, op := .discard, cls := 0, first := true, last := true, poolOff := p.2.1 * 4096, tenant := 0, len := p.2.2 * 4096, data := [], a := 0, b := 0, entry := [] }
        (s.sendLink 0 (.fwdReq m), done + k, fwd + 1)) (s, 0, 0)
    s.tirStart { q := q, op := 0x40, pages := mine, done := done, passed := 0, epoch := s.stageEpoch, fwd := fwd, total := n })

def execTirDiscard (q : Nat) (s : State) : Res := .next (s.tirDiscard q)

/-- TIR_PROMOTE (R235). -/
def State.tirPromote (s : State) (q : Nat) : State :=
  s.tirCmd q 0x41 (fun s first n _ =>
    let ps := (s.rangePages first n).filter (fun p => (s.pte p).st == .media || (s.pte p).st == .fetching)
    s.tirStart { q := q, op := 0x41, pages := ps, done := 0, passed := 0, epoch := none, total := n })

def execTirPromote (q : Nat) (s : State) : Res := .next (s.tirPromote q)

/-- TIR_DEMOTE (R221, R235). -/
def State.tirDemote (s : State) (q : Nat) : State :=
  s.tirCmd q 0x42 (fun s first n _ =>
    let ps := (s.rangePages first n).filter (fun p => (s.pte p).st == .resident && !(s.pte p).pin && !s.pageHeld p)
    let s := ps.foldl (fun s p => s.demote p) s
    s.tirStart { q := q, op := 0x42, pages := ps, done := 0, passed := 0, epoch := none, total := n })

def execTirDemote (q : Nat) (s : State) : Res := .next (s.tirDemote q)

/-- TIR_PIN (R235): setting PIN promotes the page; pinned frames stay within half the frame pool. -/
def State.tirPin (s : State) (q : Nat) : State :=
  s.tirCmd q 0x43 (fun s first n c =>
    let set := bits c.w6 0 0 == 1
    let all := (List.range n).map (fun i => first + i)
    let pinned := (s.tier.pt.filter (fun e => e.2.pin)).length
    let add := (all.filter (fun p => !(s.pte p).pin)).length
    if set && decide (s.framesTotal < 2 * (pinned + add)) then s.finishCmd q 0x42 0
    else
      let s := all.foldl (fun s p => s.setPte p { s.pte p with pin := set }) s
      if set then
        let ps := all.filter (fun p => (s.pte p).st == .media || (s.pte p).st == .fetching)
        s.tirStart { q := q, op := 0x43, pages := ps, done := n - ps.length, passed := 0, epoch := none, total := n }
      else s.finishCmd q stOk (n * 2 ^ 32))

def execTirPin (q : Nat) (s : State) : Res := .next (s.tirPin q)

/-! ### Fetch and destage -/

/-- FETCH_DONE (R222, R224): a good fetch fills the frame; one that cannot be corrected is recovered from the twin, with the
page marked DIRTY, or fills the frame with poison. -/
def State.fetchDone (s : State) (p : Nat) (good : Bool) (twin : Option (List Line)) : State :=
  let e := s.pte p
  if e.st != .fetching || s.tier.stagingWait.any (fun w => w.1 == p) then s
  else
    let lost := s.injKind (4 * p + 3) == 2
    let s := ((s.injDrop (4 * p + 3)).medCount 3).fetchRead e.media
    let s := if good && !lost then
        let ls := match NMap.find s.media.units e.media with | some u => u.lines | none => []
        s.fetchLands p ls false
      else
        match twin with
        | some ls => if s.paired then (s.raiseIf (!s.tier.recovering.contains p) 0xA 4).fetchLands p (ls.map (fun l => ⟨l, false⟩)) true
            else (s.raise 0xA 4).fetchLands p (List.replicate 64 ⟨0, true⟩) false
        | none =>
          if s.paired && !s.tier.recovering.contains p then
            let s := s.raise 0xA 4
            { s with tier := { s.tier with recovering := s.tier.recovering ++ [p] } }
          else (s.raiseIf (!s.tier.recovering.contains p) 0xA 4).fetchLands p (List.replicate 64 ⟨0, true⟩) false
    s.settle.tirCheck.eraseCheck.settle

def execFetchDone (page : Nat) (good : Bool) (twinPage : Option (List Line)) (s : State) : Res :=
  .next (s.fetchDone page good twinPage)

/-- DESTAGE_AGE (R231): a record has existed for DESTAGE.AGE_US. -/
def State.destageAge (s : State) (p : Nat) : State :=
  match NMap.find s.tier.recs p with
  | some r => ((s.upTo (r.born + us (s.rd TIR_DESTAGE_AGE_US))).startDestage p false).settle
  | none => s

def execDestageAge (page : Nat) (s : State) : Res := .next (s.destageAge page)

/-- A page whose lines a replay placed has been destaged: a superblock of the flush that no page needs any more is erased
(R316). -/
def State.releaseReserve (s : State) (p : Nat) : State :=
  let h := s.dur.reserveHeld.map (fun (e : Nat × List Nat) => (e.1, e.2.filter (· != p)))
  let gone := (h.filter (fun e => e.2.isEmpty)).map Prod.fst
  let s : State := { s with dur := { s.dur with reserveHeld := h.filter (fun e => !e.2.isEmpty) } }
  gone.foldl (fun s k => s.setSb k { s.sb k with st := 3, valid := 0 }) s

/-- DESTAGE_DONE (R231). A reserve superblock of a replayed flush is released by the destages after it (R316). -/
def State.destageDone (s : State) (p : Nat) : State :=
  match NMap.find s.tier.destages p with
  | some d =>
    if s.destageDurable p d then
      let s := s.destageEnds p d
      (s.releaseReserve p).settle.tirCheck.mediaGoOn
    else s
  | none => s

def execDestageDone (page : Nat) (s : State) : Res := .next (s.destageDone page)

/-! ### Migration out of a retiring rank (R256, R257) -/

/-- A line of the page in its new frame: read from the old one, or recovered from NAND, from the twin, or poisoned. Counts
recovered and poisoned lines. -/
def State.moveLine (s : State) (c : Nat) (p : Nat) (e : Pte) (bad : List Nat) (twin : List (Nat × Line)) (j : Nat) :
    DLine × Nat × Nat :=
  let readable := !(s.chan c).unread.contains (s.rankOf c e.idx)
  let d := s.dramLine e.ch e.idx j
  if readable && !bad.contains j then (d, 0, 0)
  else
    let clear := match NMap.find s.tier.recs p with | some r => !r.mask.getLsbD j | none => true
    match e.hasMedia && clear, NMap.find s.media.units e.media with
    | true, some u => (nth {} u.lines j, 1, 0)
    | _, _ =>
      match s.paired, twin.find? (fun t => t.1 == j) with
      | true, some t => (⟨t.2, false⟩, 1, 0)
      | _, _ => (⟨0, true⟩, 0, 1)

/-- A frame has been moved (R256): counted, and on the DCH_RETIRE of its rank; the next move starts. -/
def State.movedFrame (s : State) (c f rec_ poi : Nat) : State :=
  let r := s.rankOf c f
  let s := ((s.dchCount c 16).dchCount c 17 rec_).dchCount c 18 poi
  let s := s.raiseIf (poi != 0) (0x40 + c) 11
  let s := s.modChan c (fun x => { x with retireCmds := x.retireCmds.map (fun t => if t.2.1 = r then (t.1, t.2.1, t.2.2 + 1) else t) })
  ((s.popMove c).startMoves.retireDone c).settle

/-- A line of the page is to be recovered from the twin: neither its old frame nor NAND gives it (R257). -/
def State.moveAsksTwin (s : State) (c p : Nat) (bad : List Nat) : Bool :=
  s.paired && (List.range 64).any (fun j => (s.moveLine c p (s.pte p) bad [(j, 0)] j).1 == ⟨0, false⟩
    && (s.moveLine c p (s.pte p) bad [] j).1 == ⟨0, true⟩)

/-- The migration rate of channel 0's page (R256): a page takes 4096 bytes of it; at 0 none moves. -/
def State.migDue (s : State) : Nat := s.tier.migAt + divUp 4096000 (max 1 (s.rd DCH_MIGRATE_RATE_MB))

/-- MIGRATION_PAGE (R214, R256, R257): the copy of a frame ends, no faster than MIGRATE.RATE_MB lets it. Of a region this twin owns a line
is taken from the twin once the epoch open at the error is confirmed. A page discarded during its move leaves the new frame free. -/
def State.migrationPage (s : State) (c : Nat) (bad : List Nat) (twin : List (Nat × Line)) : State :=
  match (s.chan c).moveTo with
  | none => s.startMoves.retireDone c |>.settle
  | some ⟨none, f, d, i, _⟩ =>
    if s.rd DCH_MIGRATE_RATE_MB = 0 then s
    else
    let s := s.upTo s.migDue
    let s : State := { s with tier := { s.tier with migAt := s.mono } }
    let s : State := match s.sysHome c f with
      | some k => { s with tier := { s.tier with sysMoved := NMap.insert s.tier.sysMoved k (d, i) } }
      | none => s
    (s.giveFrame c f).movedFrame c f 0 0
  | some ⟨some p, f, d, i, ep⟩ =>
    let e := s.pte p
    if e.st != .moving then ((((s.giveFrame d i).popMove c).startMoves).retireDone c).settle
    else if s.rd DCH_MIGRATE_RATE_MB = 0 then s
    else if s.moveAsksTwin c p bad && s.owns (regionOf (p * 4096)) && !(match ep with | some n => s.isConfirmed n | none => false) then
      if ep.isSome then s
      else s.modChan c (fun x => { x with moveTo := some ⟨some p, f, d, i, some (s.stageEpoch.getD s.pair.openEpoch)⟩ })
    else
      let s := s.upTo s.migDue
      let s : State := { s with tier := { s.tier with migAt := s.mono } }
      let ls := (List.range 64).map (fun j => s.moveLine c p e bad twin j)
      let s := s.fillFrame d i 4 (fun j => (nth ({}, 0, 0) ls j).1)
      let s := ((s.setPte p { s.pte p with st := .resident, ch := d, idx := i }).giveFrame e.ch e.idx).moveWaitsGo p
      s.movedFrame c f (ls.map (fun l => l.2.1)).sum (ls.map (fun l => l.2.2)).sum

def execMigrationPage (channel : Nat) (bad : List Nat) (twin : List (Nat × Line)) (s : State) : Res :=
  .next (s.migrationPage channel bad twin)

/-! ### The pool's size and the budget (R214, R215, R234) -/

/-- A new pool size is refused (R215). -/
def State.poolRefused (s : State) (n : Nat) : Bool :=
  n == 0 || decide (163840 < n) || decide (s.maxRegions < n) || (s.paired && decide (s.tier.twinMaxRegions < n))
    || (decide (n < s.tier.poolRegions) && (s.prot.regions.any (fun e => decide (n ≤ e.1) && e.2.en)
      || s.tier.pt.any (fun e => decide (n ≤ regionOf (e.1 * 4096)) && e.2.st != .zero)))

/-- POOL_RESIZED (R215): the new entries are written, the size is in force. -/
def State.poolResized (s : State) : State :=
  match s.tier.growing with
  | some n => (((s.setPool n).raise 0xA 5).cfgBump 0xA 0x100).autoSave.mediaRecompute.settle
  | none => s

def execPoolResized (s : State) : Res := .next s.poolResized

/-- The budget asked for is refused (R234). -/
def State.budgetBad (s : State) (mib : Nat) : Bool :=
  decide (mib < 16384) || decide (2097152 < mib) || mib % 1024 != 0 || decide (s.rd TIR_DIRTY_MAX_MAX_MIB < mib)

end Sys2Proof.Machine
end

