-- ==== Sys2Proof/Machine/Prot.lean ====
section
/-! DEFINITION. The protection tables as Rister and the twin see them: entries as words, the checks of a write, its effect
at the protection master, changes that arrive in an epoch, and writes forwarded to the master (R107, R177 to R179, R185,
R188, R190, R191, R229). Tables 0 to 4 are KEYS, TENANTS, REGIONS, TENANT_QUOTA and TENANT_TIER (R350). -/

namespace Sys2Proof.Machine

/-! ### Entries as words -/

/-- A key entry (R177). -/
def Key.words (k : Key) : List Word64 :=
  [BitVec.ofNat 64 (b2n k.valid + k.cls * 4 + k.rights * 16 + k.tenant * 2 ^ 16 + k.gen * 2 ^ 32), BitVec.ofNat 64 k.vaBase, BitVec.ofNat 64 k.poolBase, BitVec.ofNat 64 k.length]

/-- A tenant record (R185) with this twin's counts. -/
def Tenant.words (t : Tenant) : List Word64 :=
  [BitVec.ofNat 64 (t.state + b2n t.prefixEn * 2 ^ 8 + b2n t.prefixV6 * 2 ^ 9 + t.prefixLen * 2 ^ 16), BitVec.ofNat 64 t.admitTag, BitVec.ofNat 64 (t.qpMax + t.qpCount * 2 ^ 32), BitVec.ofNat 64 (t.keyMax + t.keyCount * 2 ^ 32), BitVec.ofNat 64 t.wquota, BitVec.ofNat 64 t.wused, t.prefixHi, t.prefixLo]

/-- A region register (R188). -/
def Region.words (r : Region) : List Word64 :=
  [BitVec.ofNat 64 (b2n r.en + b2n r.shared * 2 + r.tenant * 2 ^ 8 + b2n r.ownerB * 2 ^ 16 + b2n r.moving * 2 ^ 17 + b2n r.served * 2 ^ 18)]

/-- An entry of a protection table, as TABLE_READ copies it. -/
def State.protEntry (s : State) (table i : Nat) : List Word64 :=
  match table with
  | 0 => if i = 0 then [0, 0, 0, 0] else (s.key i).words
  | 1 => (s.tenant i).words
  | 2 => (s.region i).words
  | 3 => [BitVec.ofNat 64 (s.quotaOf i), BitVec.ofNat 64 (s.occOf i + NMap.getD s.cache.bypasses i 0 * 2 ^ 32)]
  | _ => [BitVec.ofNat 64 (NMap.getD s.tier.t1Quota i 0xFFFFFFFFFF), BitVec.ofNat 64 (NMap.getD s.tier.t1Used i 0), BitVec.ofNat 64 (NMap.getD s.tier.t2Quota i 0xFFFFFFFFFF), BitVec.ofNat 64 (NMap.getD s.tier.t2Used i 0)]

/-! ### Effects of an entry -/

/-- A key entry is in force; KEY_COUNT of its tenants follows; a GEN that passes to 0 raises GEN_WRAP (R178). -/
def State.putKey (s : State) (i : Nat) (k : Key) : State :=
  let o := s.key i
  let s := if o.valid then (let t := s.tenant o.tenant; s.setTenant o.tenant { t with keyCount := t.keyCount - 1 }) else s
  let s := if k.valid then (let t := s.tenant k.tenant; s.setTenant k.tenant { t with keyCount := t.keyCount + 1 }) else s
  (s.setKey i k).raiseIf (k.gen == 0 && o.gen == 4095) 7 1

/-- A tenant record is in force; its counts stay. -/
def State.putTenant (s : State) (i : Nat) (v : Tenant) : State :=
  let o := s.tenant i
  let s := s.setTenant i { v with qpCount := o.qpCount, keyCount := o.keyCount, wused := o.wused, twinWused := o.twinWused, fwdRsv := o.fwdRsv }
  let s := if v.state == 1 && o.state != 1 then s.fillSlot (4 + i) else s
  s.raiseIf (v.state == 2 && o.state != 2) 7 4

/-- A region register is in force; a change of OWNER requests a move (R188, R348). -/
def State.putRegion (s : State) (i : Nat) (v : Region) : State :=
  let o := s.region i
  let s := s.setRegion i { o with en := v.en, shared := v.shared, tenant := v.tenant, moving := o.moving || v.ownerB != o.ownerB }
  if v.ownerB != o.ownerB && !o.moving then
    { s with pair := { s.pair with moves := s.pair.moves ++ [(⟨i, v.ownerB, false, none⟩ : Move)] } }
  else s

/-- A key entry from words; GEN is not the writer's. -/
def keyOfWords (ws : List Word64) (gen : Nat) : Key :=
  let w := wordAt ws 0
  { valid := bits w 1 0 == 1, cls := bits w 3 2, rights := bits w 9 4, tenant := bits w 23 16, gen := gen, vaBase := (wordAt ws 1).toNat, poolBase := bits (wordAt ws 2) 47 0, length := bits (wordAt ws 3) 48 0 }

/-- A tenant record from words. -/
def tenantOfWords (ws : List Word64) : Tenant :=
  let w := wordAt ws 0
  { state := bits w 1 0, prefixEn := bit w 8, prefixV6 := bit w 9, prefixLen := bits w 23 16, admitTag := bits (wordAt ws 1) 31 0, qpMax := bits (wordAt ws 2) 16 0, keyMax := bits (wordAt ws 3) 19 0, wquota := bits (wordAt ws 4) 31 0, prefixHi := wordAt ws 6, prefixLo := wordAt ws 7 }

/-- A region register from words. -/
def regionOfWords (ws : List Word64) : Region :=
  let w := wordAt ws 0
  { en := bit w 0, shared := bit w 1, tenant := bits w 15 8, ownerB := bit w 16 }

/-- An entry of a table, whole, as an epoch carries it, is in force (R191, R350); a quota below OCC raises QUOTA_OVER (R114). -/
def State.putEntry (s : State) (table i : Nat) (ws : List Word64) : State :=
  match table with
  | 0 => s.putKey i (keyOfWords ws (bits (wordAt ws 0) 43 32))
  | 1 => s.putTenant i (tenantOfWords ws)
  | 2 => s.putRegion i (regionOfWords ws)
  | 3 =>
    let n := bits (wordAt ws 0) 31 0
    ({ s with cache := { s.cache with quota := NMap.put 0xFFFFFFFF s.cache.quota i n } }).raiseIf (decide (n < s.occOf i)) 9 6
  | _ => { s with tier := { s.tier with
      t1Quota := NMap.put 0xFFFFFFFFFF s.tier.t1Quota i (bits (wordAt ws 0) 39 0), t2Quota := NMap.put 0xFFFFFFFFFF s.tier.t2Quota i (bits (wordAt ws 2) 39 0) } }

/-! ### The checks of a write -/

/-- Bits of an entry's words that are named writable or read-only (log 22). -/
def namedBits : Nat → List Nat
  | 0 => [0x3 + 0x3F0 + 0xC + 0x8000 + 0xFF0000 + 0xFFF00000000, 2 ^ 64 - 1, 2 ^ 48 - 1, 2 ^ 49 - 1]
  | 1 => [0x3 + 0x300 + 0xFF0000, 0xFFFFFFFF, 0x1FFFF + 0x1FFFF * 2 ^ 32, 0xFFFFF + 0xFFFFF * 2 ^ 32, 0xFFFFFFFF, 2 ^ 64 - 1, 2 ^ 64 - 1, 2 ^ 64 - 1]
  | 2 => [0x3 + 0xFF00 + 0x70000]
  | _ => []

/-- Every bit not named is 0. -/
def unnamedZero (named : List Nat) (ws : List Word64) : Bool :=
  (List.range named.length).all (fun i => (wordAt ws i).toNat &&& (2 ^ 64 - 1 - nth 0 named i) == 0)

/-- Every region a pool range covers is enabled for a tenant (R189). -/
def State.rangeEnabled (s : State) (pool len t : Nat) : Bool :=
  let r0 := regionOf pool
  (List.range (regionOf (pool + max len 1 - 1) + 1 - r0)).all (fun j =>
    let g := s.region (r0 + j)
    g.en && (g.tenant == t || g.shared))

/-- A write that leaves a key entry VALID is refused (R179). -/
def State.keyBad (s : State) (o k : Key) (stateRaw len : Nat) : Bool :=
  let t := s.tenant k.tenant
  let registers := !o.valid || o.tenant != k.tenant
  decide (1 < stateRaw) || k.cls == 3 || len == 0 || decide (2 ^ 48 < len) || decide (2 ^ 48 < k.poolBase + len)
    || decide (2 ^ 64 < k.vaBase + len) || (k.tenant != 0 && t.state != 1)
    || (registers && k.tenant != 0 && decide (t.keyMax ≤ t.keyCount)) || !s.rangeEnabled k.poolBase len k.tenant

/-- The new key entry of a write (R178): none where it is refused; unchanged where nothing changes. -/
def State.keyWrite (s : State) (i : Nat) (ws : List Word64) : Option Key :=
  let o := s.key i
  let w := wordAt ws 0
  let st := bits w 1 0
  let keep := bit w 15
  let up := (o.gen + 1) % 4096
  let k := keyOfWords ws up
  let len := bits (wordAt ws 3) 48 0
  if 1 < st || k.cls == 3 || !unnamedZero (namedBits 0) ws then none
  else if st = 0 then (if o.valid then some { o with valid := false, gen := up } else some o)
  else if s.keyBad o k st len then none
  else if !keep then some k
  else if !o.valid then none
  else if k.tenant = o.tenant && k.vaBase = o.vaBase && k.poolBase = o.poolBase && (o.rights &&& k.rights) = o.rights && decide (o.length ≤ k.length) then
    some { k with gen := o.gen }
  else none

/-- A tenant record write is refused (R185). -/
def State.tenantBad (s : State) (i : Nat) (ws : List Word64) : Bool :=
  let v := tenantOfWords ws
  let o := s.tenant i
  v.state == 3 || (v.state == 0 && (o.keyCount != 0 || o.qpCount != 0)) || decide ((if v.prefixV6 then 128 else 32) < v.prefixLen)
    || decide (65536 < v.qpMax) || !unnamedZero (namedBits 1) ws

/-- A region write is refused (R188). -/
def State.regionBad (s : State) (i : Nat) (ws : List Word64) : Bool :=
  let v := regionOfWords ws
  let o := s.region i
  (v.en && decide (s.tier.poolRegions ≤ i)) || (v.ownerB != o.ownerB && o.moving) || !unnamedZero (namedBits 2) ws

/-- Entries of each protection table. -/
def protCount : Nat → Nat
  | 0 => 1048576 | 1 => 256 | 2 => 163840 | _ => 256

/-- Words of an entry of each protection table. -/
def protWords : Nat → Nat
  | 0 => 4 | 1 => 8 | 2 => 1 | 3 => 2 | _ => 4

/-- Entry 0 refuses a write (R177, R185, R229). -/
def protZeroBad (table : Nat) : Bool := table == 0 || table == 1 || table == 4

/-- The entry is written here and now, at the master or on a U96 serving alone (R191): none where it is refused, else the
state with PROT_SEQ raised and the change staged where the entry changed. -/
def State.protWrite (s : State) (table i : Nat) (ws : List Word64) : Option State :=
  let before := s.protEntry table i
  let done : Option State := match table with
    | 0 => (s.keyWrite i ws).map (fun k => s.putKey i k)
    | 1 => if s.tenantBad i ws then none else some (s.putTenant i (tenantOfWords ws))
    | 2 => if s.regionBad i ws then none else some (s.putRegion i (regionOfWords ws))
    | 3 => some (s.putEntry 3 i ws)
    | _ => some (s.putEntry 4 i ws)
  match done with
  | none => none
  | some t =>
    let sent := if table = 2 then [setBits (wordAt (t.protEntry 2 i) 0) 16 16 (b2n (regionOfWords ws).ownerB)] else t.protEntry table i
    if t.protEntry table i = before then some t
    else
      let t := t.wr KEY_PROT_SEQ_SEQ (t.protSeq + 1)
      some (t.stage (.prot table i t.protSeq sent))

/-! ### Commands -/

/-- This twin is the protection master, or serves alone (R190). -/
def State.isMaster (s : State) : Bool := !s.paired || s.rd KEY_PROT_STAT_MASTER == s.selfBit

/-- The protection master changes (R190, R197). -/
def State.setMaster (s : State) (b : Nat) : State :=
  if s.rd KEY_PROT_STAT_MASTER = b then s else (s.wr KEY_PROT_STAT_MASTER b).raise 7 3

/-- The page of a protection table. -/
def protPage : Nat → Nat
  | 3 => 0x9 | 4 => 0xA | _ => 0x7

/-- Ends a protection write (R60, R62). -/
def State.protEnd (s : State) (w : ProtWait) : State :=
  let s : State := { s with prot := { s.prot with waits := s.prot.waits.filter (fun x => x.q != w.q) } }
  if w.rebal then s else s.finishCmd w.q w.status (w.written * 2 ^ 32 + s.rd PG_GEN_GEN (protPage w.table))

/-- Writes entries at the master until one is refused. -/
def protWriteAll : Nat → List (Nat × List Word64) → State → Nat → State × Nat × Nat
  | _, [], s, n => (s, n, stOk)
  | table, e :: es, s, n =>
    match s.protWrite table e.1 e.2 with
    | some s => protWriteAll table es s (n + 1)
    | none => (s, n, stBadValue)

/-- Forwards the next entry of a write to the master (R191, R346), one at a time so that none after a refused one is
written. -/
def State.protAsk (s : State) (w : ProtWait) : State :=
  match w.todo with
  | [] => s
  | e :: _ =>
    let m : FwdReqMsg := { qpn := 0, psn := w.q, seg := 0, op := .protWrite, cls := 0, first := true, last := true, poolOff := w.table, tenant := 0, len := e.1, data := [], a := BitVec.ofNat 64 e.1, b := 0, entry := e.2 }
    s.sendLink 0 (.fwdReq m)

/-- Changes a waiting protection write. -/
def State.modWait (s : State) (q : Nat) (f : ProtWait → ProtWait) : State :=
  { s with prot := { s.prot with waits := s.prot.waits.map (fun w => if w.q = q then f w else w) } }

/-- A waiting write goes on: at the master it applies what is left; it completes once every change is in effect at both
twins (R191). -/
def State.protStep (s : State) (w : ProtWait) : State :=
  if s.isMaster && !w.todo.isEmpty then
    let (s, n, st) := protWriteAll w.table w.todo s w.written
    let w' := { w with todo := [], asked := false, written := n, status := if st = stOk then w.status else st, epoch := if s.paired then s.stageEpoch else none, seq := 0 }
    if w'.epoch.isNone || n = 0 then s.protEnd w' else s.modWait w.q (fun _ => w')
  else if !w.todo.isEmpty then
    if w.asked then s else (s.modWait w.q (fun x => { x with asked := true })).protAsk w
  else
    let there := match w.epoch with | some n => s.isConfirmed n | none => true
    if there && decide (w.seq ≤ s.protSeq) then s.protEnd w else s

/-- Every waiting write. -/
def State.protCheck (s : State) : State := s.prot.waits.foldl (fun s w => s.protStep w) s

/-- A TABLE_WRITE of a protection table that passed its checks; `status` is what it ends with where no entry is refused: DMA_ERROR
after a read that failed behind these entries (R58). -/
def State.protCommand (s : State) (q table index : Nat) (entries : List (List Word64)) (status : Nat := stOk) : State :=
  let es := (List.range entries.length).map (fun i => (index + i, nth [] entries i))
  let w : ProtWait := { q := q, table := table, todo := es, status := status }
  if es.isEmpty then s.finishCmd q status (s.rd PG_GEN_GEN (protPage table))
  else ({ s with prot := { s.prot with waits := s.prot.waits ++ [w] } }).protStep w

/-- The master's answer to a forwarded write (R346): PROT_SEQ, or bit 63 set where it was refused (log 24). -/
def State.protAnswer (s : State) (q : Nat) (r : Word64) : State :=
  match s.prot.waits.find? (fun w => w.q == q && w.asked) with
  | none => s
  | some w =>
    let w' : ProtWait := if bit r 63 then { w with asked := false, todo := [], status := stBadValue }
      else { w with asked := false, todo := w.todo.drop 1, written := w.written + 1, seq := max w.seq (bits r 47 0)
                    answered := w.answered ++ (w.todo.take 1).map (fun e => (bits r 47 0, e.1, e.2)) }
    (s.modWait q (fun _ => w')).protStep w'

/-- Changes that the lost master had applied and whose epoch did not come, kept by this twin, which forwarded them, are applied here, the new
master, in the order of their PROT_SEQ (R191). -/
def State.protRevive (s : State) : State :=
  let lost := s.prot.waits.flatMap (fun w => (w.answered.filter (fun a => decide (s.protSeq < a.1))).map (fun a => (a.1, w.table, a.2.1, a.2.2)))
  let sorted := lost.foldl (fun (l : List (Nat × Nat × Nat × List Word64)) x => l.filter (fun y => decide (y.1 ≤ x.1)) ++ [x] ++ l.filter (fun y => decide (x.1 < y.1))) []
  let s := sorted.foldl (fun (s : State) x => (s.protWrite x.2.1 x.2.2.1 x.2.2.2).getD s) s
  { s with prot := { s.prot with waits := s.prot.waits.map (fun w => { w with answered := [], seq := 0, asked := false }) } }

/-- A write the twin forwarded is applied here, the master, and answered with PROT_SEQ (R191, R346). -/
def State.protServe (s : State) (m : FwdReqMsg) : State :=
  let (s, r) := match s.protWrite m.poolOff m.a.toNat m.entry with
    | some s => (s, BitVec.ofNat 64 s.protSeq)
    | none => (s, (1#64 <<< 63))
  let ep := s.stageEpoch.getD 0
  s.sendLink ep (.fwdResp { qpn := m.qpn, psn := m.psn, seg := m.seg, status := .done, data := [], result := r })

/-- KEY_DRAIN_WAIT (R195). -/
def State.keyDrainWait (s : State) (q : Nat) : State :=
  s.blockCmd q 0x07 0x40 false (fun c => c.w1 == 0 && c.count == 0 && c.length == 0 && c.w2 == 0) (fun s _ c =>
    let n := bits c.w5 47 0
    if s.protSeq < n then s.finishCmd q 0x40 0
    else ({ s with prot := { s.prot with drainWaits := s.prot.drainWaits ++ [(q, n)] } }).drainDone)

def execKeyDrainWait (q : Nat) (s : State) : Res := .next (s.keyDrainWait q)

/-- DRAIN_SLOW (R197): DRAINED_SEQ has stayed below PROT_SEQ for 100 ms. -/
def State.drainSlow (s : State) : State :=
  match s.prot.belowSince with
  | some t =>
    if s.prot.slowSaid then s
    else
      let s := (s.upTo (t + ms 100)).raise 7 2
      { s with prot := { s.prot with slowSaid := true } }
  | none => s

def execDrainSlow (s : State) : Res := .next s.drainSlow

/-- The resident entries with room for one more: the oldest that no message holds goes; none where every one is held (R180). -/
def State.keyPlace (s : State) : Option (List Nat) :=
  if s.prot.resident.length < s.keyRoom then some s.prot.resident
  else match s.prot.resident.find? (fun k => !s.prot.holds.any (fun h => h.2.2 == k)) with
    | some k => some (s.prot.resident.erase k)
    | none => none

/-- KEY_ENTRY_LOAD (R180): the entry a request waits for becomes resident; a full table portion writes the least recently
used entry that no message holds (R184) home; while messages hold all of them the load waits. -/
def State.keyEntryLoad (s : State) (k : Nat) : State :=
  if !s.prot.loads.contains k then s
  else match s.keyPlace with
    | none => s
    | some res =>
      let res := useLru res k
      let s : State := { s with prot := { s.prot with resident := res, loads := s.prot.loads.filter (· != k) } }
      (s.satInc KEY_KCACHE_MISSES 1).wr KEY_KCACHE_RESIDENT res.length

def execKeyEntryLoad (key : Nat) (s : State) : Res := .next (s.keyEntryLoad key)

end Sys2Proof.Machine
end

