-- ==== Sys2Proof/Machine/DurOps.lean ====
section
/-! DEFINITION. The power-loss flush (R303 to R309): its causes, the final epoch, powering down, the walk of the dirty-page
records into flush units, and the operating-point move it makes (R478, R480). -/

namespace Sys2Proof.Machine

/-! ### Operating point -/

/-- VCORE target of a family in mV (R478). -/
def familyMv (banked : Bool) : Nat := if banked then 580 else 800

/-- Starts a move of VCORE to a family for a cause: AUTO 0, STEWARD 1, THROTTLE 2, FLUSH 3, START 4 (R478, R480). Nothing
where VCORE is there or already on its way. -/
def State.opTo (s : State) (banked : Bool) (cause : Nat) : State :=
  let s := s.wr PWR_OP_STAT_CAUSE cause
  if s.rd PWR_OP_STAT_TARGET_MV = familyMv banked && !s.pwr.avsFailed then s
  else
    let s := (s.wr PWR_OP_STAT_TARGET_MV (familyMv banked)).wr PWR_OP_STAT_FAMILY 2
    let s := s.inc PWR_OP_STAT_SLEWS 1
    { s.emit (.vcore (familyMv banked)) with pwr := { s.pwr with toBanked := banked, slewAt := some s.mono, tries := 1, avsFailed := false } }

/-- The family a condition of R478 forces, with its cause: the flush from step 3, the throttle, the start, MODE. -/
def State.opForced (s : State) : Option (Bool × Nat) :=
  if s.dur.flush.isSome && decide (3 ≤ s.rd PWR_FLUSH_STAT_STATE) then some (true, 3)
  else if s.pwr.throttle then some (true, 2)
  else if !s.ready 0 then some (false, 4)
  else match s.rd PWR_OP_MODE with
    | 1 => some (false, 1)
    | 2 => some (true, 1)
    | _ => none

/-- The operating point follows what is forced; in AUTO it stays until a sample moves it. -/
def State.opEval (s : State) : State :=
  if s.pwr.off then s
  else match s.opForced with
    | some (b, c) => s.opTo b c
    | none => s.wr PWR_OP_STAT_CAUSE 0

/-! ### Ports -/

/-- State of a port (R135), in PG_STAT and LINK_STAT. -/
def State.setPortSt (s : State) (p st : Nat) : State := (s.wr PG_STAT_STATE st (0x100 + p)).wr HPT_LINK_STAT_STATE st p

/-- A port leaves UP (R135): counted, reported, its hosted addresses move (R133). LANE_LOCK reads 0 from here until it is UP again, in
FAULT_REMOTE and ALIGNING too (DESIGN CHOICE, log 206). -/
def State.portLeaves (s : State) (p st cause : Nat) : State :=
  if s.portUp p then
    let s := ((s.setPortSt p st).inc HPT_LINK_STAT_DOWN_COUNT 1 p).wr HPT_LINK_STAT_DOWN_CAUSE cause p
    let s := (s.wr HPT_LINK_STAT_LANE_LOCK 0 p).raise (0x100 + p) 1
    let s := s.modPort p (fun x => { x with announces := [] })
    s.moveHosted p
  else s.setPortSt p st

/-! ### The flush -/

/-- Value of a line that no way and no flue entry holds: epoch staging, else the frame (R306). -/
def State.frameValue (s : State) (line : Nat) : DLine :=
  match (s.cache.held.filter (fun h => h.line == line)).getLast? with
  | some h => ⟨h.data, h.poison⟩
  | none => let e := s.pte (line / 64); s.dramLine e.ch e.idx (line % 64)

/-- Value of a charged line in the order of R306: a valid way, the flue, epoch staging, the frame. -/
def State.flushValue (s : State) (line : Nat) : DLine :=
  match s.findWay line with
  | some (_, x) => if x.st == .filling then s.frameValue line else ⟨x.data, x.poison⟩
  | none =>
    match s.flueOf line with
    | some f => ⟨f.data, f.poison⟩
    | none => s.frameValue line

/-- Charged lines of a page, in ascending order, as a flush writes them: a poisoned line as a mark with zero data (R306). -/
def State.flushLines (s : State) (p : Nat) (mask : Word64) : List FlushLine :=
  ((List.range 64).filter (fun j => mask.getLsbD j)).map (fun j =>
    let v := s.flushValue (64 * p + j)
    ⟨64 * p + j, v.poison, if v.poison then 0 else v.data⟩)

/-- Adds lines of a tenant to its open unit; a unit of 56 lines is complete (R307). Gives tenant and lines of units complete, open units
by tenant. -/
def addFlush : List FlushLine → Nat → List (Nat × List FlushLine) → NMap (List FlushLine) → List (Nat × List FlushLine) × NMap (List FlushLine)
  | [], _, done, open_ => (done, open_)
  | l :: ls, t, done, open_ =>
    let u := NMap.getD open_ t [] ++ [l]
    if 56 ≤ u.length then addFlush ls t (done ++ [(t, u)]) (NMap.erase open_ t)
    else addFlush ls t done (NMap.insert open_ t u)

/-- Lines of a flush unit encrypted or decrypted under its tenant's key, with the tweak of J and S (R390). -/
def State.flushCipher (s : State) (f : List Byte → List Byte → List Byte) (t j n : Nat) (ls : List FlushLine) : List FlushLine :=
  List.zipWith (fun (l : FlushLine) d => { l with data := d }) ls (s.xtsLines f t (flushTweak j n) (ls.map (fun l => l.data)))

/-- The flush units of every charged line, oldest record first, numbered from 0, encrypted (R304 step 4, R307, R390). -/
def State.flushUnits (s : State) (j : Nat) : List FlushUnit :=
  let (done, open_) := s.oldestRecs.foldl (fun (x : List (Nat × List FlushLine) × NMap (List FlushLine)) p =>
    match NMap.find s.tier.recs p with
    | some r => addFlush (s.flushLines p r.mask) (s.pte p).tenant x.1 x.2
    | none => x) ([], [])
  (done ++ open_).mapIdx (fun n e => (⟨e.1, n, j, s.flushCipher aesEnc e.1 j n e.2⟩ : FlushUnit))

/-- Lines of a flush unit in clear, as the replay reads them (R315, R390). -/
def State.flushClear (s : State) (u : FlushUnit) : List FlushLine := s.flushCipher aesDec u.tenant u.journal u.seq u.lines

/-- A flush unit as its 4 KiB of the reserve, unused entries and slots 0 (R307, R390). -/
def flushBytes (u : FlushUnit) : List Byte :=
  let image (crc : Nat) : List Byte :=
    toLe 2 0x4601 ++ [BitVec.ofNat 8 u.lines.length, BitVec.ofNat 8 u.tenant] ++ toLe 4 crc ++ toLe 8 u.seq ++ toLe 8 u.journal ++ List.replicate 40 0
      ++ u.lines.flatMap (fun l => toLe 8 (l.line % 2 ^ 42 + b2n l.poison * 2 ^ 42)) ++ List.replicate (8 * (56 - u.lines.length)) 0
      ++ u.lines.flatMap (fun l => lineGet l.data 0 64) ++ List.replicate (64 * (56 - u.lines.length)) 0
  image (crc32c (image 0)).toNat

/-- Flush units of 4 KiB that a superblock of the reserve takes (R272). -/
def State.sbUnits (s : State) (g : Nat) : Nat := s.sbSlcBytes g / 4096

/-- An erased reserve superblock of a group is opened for n flush units (R279, R309): its key, the units it takes, whether in a
closed window. -/
def State.reserveOne (s : State) (n g : Nat) : Option (State × (Nat × Nat × Bool)) :=
  if s.sbUnits g = 0 then none
  else match s.openSb 3 g true with
  | some t =>
    let key := sbKey g (NMap.getD t.media.open_ (openKey 3 g true) 0)
    let hot := (List.range 32).any (fun c => s.dieSt c g == 1 && !s.winOpen c)
    some (t.setSb key { t.sb key with st := 2, hot := hot }, (key, min n (s.sbUnits g), hot))
  | none => none

/-- Superblocks of the reserve for flush units, group after group, with the units each takes and whether a window of its
channels is closed (R272, R279, R309). -/
def takeReserve : Nat → State → Nat → Nat → List (Nat × Nat × Bool) → State × List (Nat × Nat × Bool)
  | 0, s, _, _, es => (s, es)
  | k + 1, s, n, g, es =>
    if n = 0 then (s, es)
    else match s.reserveOne n g with
      | some (t, e) => takeReserve k t (n - e.2.1) ((g + 1) % 16) (es ++ [e])
      | none => takeReserve k s n ((g + 1) % 16) es

/-- Chunks of this twin's regions discarded in epochs that are not confirmed (R358). -/
def State.unmapChunks (s : State) : List Nat :=
  let recs := (s.pair.epochs.filter (fun e => decide (s.pair.confirmed < e.n))).flatMap (fun e => e.recs)
  (recs.flatMap (fun r => match r with
    | .discard p n => (List.range ((p + n - 1) / 64 + 1 - p / 64)).map (fun i => p / 64 + i)
    | _ => [])).eraseDups

/-- FLUSH_STAT.STATE. -/
def State.flushSt (s : State) : Nat := s.rd PWR_FLUSH_STAT_STATE

/-- Every strand is off and what the link holds is gone. -/
def State.linkOff (s : State) : State :=
  let s := s.setReg (regKey 0xB 0x108) 0
  { s with link := { s.link with strands := [], queue := [], reorder := [], owed := [] } }

/-- Steps 3 and 4 (R304): ports and link down, VCORE to banked, FLUSH_BEGIN with the pending journal units, and the units of
every charged line. They are durable one after another until FLUSH_DONE. -/
def State.flushWrite (s : State) (fin : Nat) : State :=
  match s.dur.flush with
  | none => s
  | some f =>
    let s := (List.range 96).foldl (fun s p => if s.rd PG_STAT_STATE (0x100 + p) = 0 then s else s.portLeaves p 0 0) s
    let s := s.linkOff.opTo true 3
    let s := s.jrnForce [.flushBegin]
    let us := s.flushUnits s.media.jseq
    let (s, es) := takeReserve (17 * (us.length + 1)) s us.length 0 []
    let hot := es.any (fun e => e.2.2)
    let hosted := s.prot.regions.any (fun e => e.2.en && s.owns e.1) && s.role == 4
    let f : FlushRec := { f with final := fin, roles := 1 + (if hosted then 2 else 0), hot := hot, pairGen := s.rd MIR_PAIR_GEN_VALUE, confirmed := s.pair.confirmed, units := us, extents := es, unmaps := s.unmapChunks, jseq := s.media.jseq }
    let s : State := { s with dur := { s.dur with flush := some f, newest := 2, waitFinal := false } }
    let s := ((s.cphCount 0 us.length).setStat 0xC 3 true).wr PWR_FLUSH_STAT_STATE 3
    s.wr PWR_FLUSH_STAT_UNITS us.length

/-- The final epoch is confirmed: the flush goes on with state CONFIRMED (R304 step 2, R305). -/
def State.flushGo (s : State) : State :=
  match s.dur.flush, s.pair.flushEpoch with
  | some _, some n => if s.dur.waitFinal && s.isConfirmed n then s.flushWrite 2 else s
  | _, _ => s

/-- A flush starts (R303, R304): steps 1 and 2. Not before step 12 of the start-up order, not in STOPPED, not while one
runs. -/
def State.startFlush (s : State) (cause : Nat) : State :=
  let phase := s.rd GLB_START_STAT_PHASE
  if s.dur.flush.isSome || phase < 12 || 14 < phase || s.flushSt == 7 || s.pwr.off then s
  else
    let f : FlushRec := { cause := cause, startTb := s.tb, finalEpoch := s.pair.openEpoch, charged := s.rd TIR_DIRTY_CHARGED_BYTES, final := 0, roles := 1, pairGen := s.rd MIR_PAIR_GEN_VALUE, confirmed := s.pair.confirmed }
    let s : State := { s with dur := { s.dur with flush := some f, startedAt := s.mono, stopping := false } }
    let s := ((s.wr PWR_FLUSH_STAT_STATE 1).wr PWR_FLUSH_STAT_CAUSE cause).raise 1 32
    let s := s.setStat 1 2 true
    let s : State := { s with pair := { s.pair with incoming := s.pair.incoming.filter (fun i => i.started) } }
    let s := (s.setLevel 2).wr PWR_FLUSH_STAT_STATE 2
    if s.paired && s.linkState != 0 && s.openSlot.isSome then
      let s := s.closeEpoch true true false
      ({ s with dur := { s.dur with waitFinal := true } }).settle.flushGo
    else s.flushWrite 0

/-- Every enabled port is quiesced. -/
def State.quiescePorts (s : State) : State :=
  (List.range 96).foldl (fun (s : State) p => if s.rd PG_CTRL_EN (0x100 + p) = 1 then s.wr PG_CTRL_QUIESCE 1 (0x100 + p) else s) s

/-- A clean stop begins (R313 step 1): every QP to ERROR, every port quiesced. The charge is then destaged. -/
def State.stopBegins (s : State) : State :=
  let s := (s.allToError s.liveQps 7).quiescePorts
  { s with dur := { s.dur with stopping := true } }.setStat 1 2 true

/-- Ingress is closed (R304 step 1, R313): request frames and forwarded requests are dropped. -/
def State.ingressClosed (s : State) : Bool := s.dur.flush.isSome || s.dur.stopping || s.pair.dropping

end Sys2Proof.Machine
end

