-- ==== Sys2Proof/Machine/TwinOps.lean ====
section
/-! DEFINITION. Twin operation: applying the twin's epochs, the handshake's contents and the roles it leads to, fencing,
takeover, resynchronisation, giving roles back (R3, R4, R342 to R363). -/

namespace Sys2Proof.Machine

/-! ### Applying the twin's epochs (R352) -/

/-- Adds an operation that applies a LINE of the twin (R352): charged to the record's tenant, a poisoned line as poison. -/
def State.applyLineRec (s : State) (t line : Nat) (poison : Bool) (d : Line) : State :=
  s.addOp { id := 0, for_ := .apply, kind := if poison then .poison else .write, cls := 2, tenant := t, pool := 64 * line, len := 64, data := lineGet d 0 64 }

/-- The twin has handed this one's QPs back (R361): it is their home again, announces the addresses it serves and raises QP_RELEASED, as
the source did (log 213). -/
def State.comeBack (s : State) : State :=
  let s := ({ s with pair := { s.pair with away := false } }).recountQps
  let s := (List.range 96).foldl (fun s p => if s.portUp p then s.announceAll p else s) s
  s.raiseIf (!s.liveQps.isEmpty) 0x11 5

/-- A record of the twin's epoch n is applied (R350). Settings and counts wait for the epoch's confirmation. -/
def State.applyRec (s : State) (n : Nat) (r : EpochRec) : State :=
  match r with
  | .line t l p d => s.applyLineRec t l p d
  | .discard p c =>
    let ps := (s.tier.pt.filter (fun e => decide (p ≤ e.1) && decide (e.1 < p + c) && e.2.st != .zero)).map Prod.fst
    ps.foldl (fun s p => s.discardPage p) s
  | .qpCtx q ws =>
    let s := s.modQp q (fun x => { x with words := ws.foldl (fun m w => NMap.put 0 m w.1 w.2) x.words })
    if qpnRange q == some s.twinB && s.pair.away && !s.qHosted q then s.comeBack else s
  | .prot t i seq e => (s.putEntry t i e).wr KEY_PROT_SEQ_SEQ (max s.protSeq seq)
  | .chain ops i e =>
    if ops then { s with chains := { s.chains with ops := NMap.put (List.replicate 8 0) s.chains.ops i e } }
    else { s with chains := { s.chains with chains := NMap.put (List.replicate 8 0) s.chains.chains i e } }
  | .chainData c off d =>
    let x := s.run c
    s.setRun c { x with data := x.data.take off ++ d }
  | .addr p e ws =>
    let a := addrOfWords ws
    let o := s.addr p (4 + e % 4)
    if o.state = 3 then s.setAddr p (4 + e % 4) { a with state := if a.state = 1 then 3 else 0, onPort := o.onPort }
    else s.setAddr p (4 + e % 4) { a with state := if a.state = 1 then 2 else 0, onPort := 0xFF }
  | .config .. => { s with pair := { s.pair with configWait := s.pair.configWait ++ [(n, r)] } }
  | .wused .. => { s with pair := { s.pair with configWait := s.pair.configWait ++ [(n, r)] } }
  | .owner g _ =>
    { s with pair := { s.pair with moves := s.pair.moves.map (fun m => if m.region = g then { m with running := true, release := some n } else m) } }
  | .opDone q p g w =>
    let s : State := { s with pair := { s.pair with kept := s.pair.kept ++ [⟨q, p, g, n, w⟩] } }
    if qpnRange q == some (!s.twinB) then s.modQp q (fun x => { x with atomics := ((p, w) :: x.atomics).take (s.qf q 0 62 56) }) else s

/-- A page of a resynchronisation is written (R359): into its frame where it is RESIDENT, otherwise through the media
manager, uncharged; a ZERO page is made ZERO. -/
def State.putPage (s : State) (p t : Nat) (zero : Bool) (ls : List Line) : State :=
  let e := s.pte p
  if zero then s.discardPage p
  else if e.st != .zero && e.st != .media then
    (s.dropPageLines p).fillFrame e.ch e.idx 4 (fun j => ⟨nth 0 ls j, false⟩)
  else
    let u : MUnit := { page := p, tenant := t, lines := ls.map (fun l => ⟨l, false⟩) }
    match s.startProg 0 false none u with
    | some (a, s) =>
      let s : State := { s with media := { s.media with
          progs := s.media.progs.map (fun (x : Nat × Prog) => if x.1 = a then (a, { x.2 with direct := true }) else x), units := NMap.insert s.media.units a u } }
      let s := if e.st == .zero then s.addT2 t 1 0 else s
      let s := if e.hasMedia then s.dropUnit e.media else s
      let x := s.sb (addrSb a)
      (s.setSb (addrSb a) { x with valid := x.valid + 1 }).setPte p { e with st := .media, hasMedia := true, media := a, tenant := t }
    | none =>
      match s.takeFrame p with
      | some (c, i, s) =>
        let s := s.fillFrame c i 4 (fun j => ⟨nth 0 ls j, false⟩)
        let s := if e.st == .zero then s.addT2 t 1 0 else s
        s.setPte p { s.pte p with st := .resident, ch := c, idx := i, tenant := t, dirty := true }
      | none => s

/-- Pages of an epoch's RESYNC frames, put together from their quarters. -/
def State.putPages (s : State) (fs : List ResyncMsg) : State :=
  let pages := (fs.filterMap (fun f => match f with | .quarter p .. => some p | _ => none)).eraseDups
  pages.foldl (fun s p =>
    let mine := fs.filter (fun f => match f with | .quarter x .. => x == p | _ => false)
    let part (q : Nat) : List Line := mine.flatMap (fun f => match f with | .quarter _ _ _ _ k ls => if k = q then ls else [] | _ => [])
    match mine.head? with
    | some (.quarter _ t z ..) => s.putPage p t z (part 0 ++ part 1 ++ part 2 ++ part 3)
    | _ => s) s

/-- Everything of an incoming epoch is there (R352): its predecessor applied, its seal, every VC1 and RESYNC frame. -/
def State.incomingReady (s : State) (i : Incoming) : Bool :=
  match i.sealed with
  | none => false
  | some m =>
    i.n == s.pair.appliedTo + 1 && !i.started && decide (m.lastVc1 < NMap.getD s.link.rxVseq 1 1)
      && (match m.lastResync with | some v => decide (v < NMap.getD s.link.rxVseq 3 1) | none => true)

/-- Starts the apply of an incoming epoch: its RESYNC pages first, then its records in order (R352). -/
def State.startApply (s : State) (i : Incoming) : State :=
  let s : State := { s with pair := { s.pair with incoming := s.pair.incoming.map (fun x => if x.n = i.n then { x with started := true, startedAt := s.mono } else x) } }
  let s := s.putPages i.resync
  let whole := (i.resync.filterMap (fun f => match f with | .quarter p _ _ true _ _ => some (p / 2 ^ 18, i.n) | _ => none)).eraseDups
  let s : State := { s with pair := { s.pair with rxDone := s.pair.rxDone ++ whole } }
  let s := i.recs.foldl (fun s r => s.applyRec i.n r) s
  match i.sealed with
  | some m => s.wr KEY_PROT_SEQ_SEQ (max s.protSeq m.protSeq)
  | none => s

/-- Starts the apply of the next epoch if it may start, and runs it on. -/
def State.applyNext (s : State) : State :=
  match s.pair.incoming.find? (fun i => s.incomingReady i) with
  | some i => (s.startApply i).settle
  | none => s

/-! ### Entering service -/

/-- Every region is served, but those held (R188, R317). -/
def State.serveAll (s : State) : State :=
  { s with prot := { s.prot with servedBase := true, regions := s.prot.regions.map (fun (e : Nat × Region) => (e.1, { e.2 with served := false })) } }

/-- A role of R342: READY in every state but WAITING and CONFLICT; KEY.PROT_STAT.PAIRED in service with the twin. -/
def State.setRole (s : State) (r : Nat) : State :=
  let s := s.setStat 0xB r (r != 0 && r != 8)
  s.wr KEY_PROT_STAT_PAIRED (b2n (r == 1 || r == 6 || r == 7))

/-- Step 11 of the start-up order ends: GLB is READY, ports may link up, and what a stop left on NAND has
been taken over (R424, R315). The port pages accept configuration from here on (log 26). -/
def State.enterService (s : State) : State :=
  if s.rd GLB_START_STAT_PHASE = 11 then
    let s : State := { s with dur := { s.dur with newest := 0 }, boot := { s.boot with firstStart := false } }
    let s := (List.range 96).foldl (fun (s : State) p => s.wr PG_STAT_READY 1 (0x100 + p)) s
    ((s.wr GLB_START_STAT_PHASE 12).setStat 0 (s.rd PG_STAT_STATE 0) true).opEval
  else s

/-- The first epoch of a run of service opens (R344, R350); its deadline is one epoch after the time proposed. -/
def State.openFirst (s : State) (n : Nat) (at_ : Nat) : State :=
  let s : State := { s with pair := { s.pair with
      opened := true, epochs := [], incoming := [], openEpoch := n - 1, confirmed := n - 1, appliedTo := n - 1, deadline := at_ + s.rd MIR_EPOCH_NS_NS, lastHb := some s.mono, flushEpoch := none, wusedSent := [], seals := [], configWait := [], waitRecs := [] } }
  (s.wr MIR_CONFIRMED_VALUE (n - 1)).openNext

/-- Whether this twin's start-up lost data of the regions it owned (R317): FLUSH_INCOMPLETE or NO_FLUSH, but not after a
device reset that discarded nothing. -/
def State.lostData (s : State) : Bool :=
  let k := s.rd PWR_LAST_STOP_KIND
  k == 3 || (k == 4 && !(s.rd GLB_RESET_CAUSE_CAUSE != 0 && s.rd GLB_RESET_CAUSE_FORCED == 0))

/-- Regions owned at the stop stay unserved until DUR_ACCEPT_LOSS (R317). -/
def State.holdOwn (s : State) : State :=
  if s.lostData then
    match s.dur.image with
    | some im => { s with dur := { s.dur with heldBase := some im.ownerBase, heldRegs := im.regions } }.wr PWR_FLUSH_STAT_STATE 8
    | none => s
  else s

/-- The U96 opens service alone (R4, R302, R345, R360): owner of every region, pair generation raised by 1. -/
def State.openSolo (s : State) : State :=
  let s := s.holdOwn
  let s := (s.allOwned s.selfBit).serveAll.setRole 2
  let s := ((s.wr MIR_PAIR_GEN_VALUE (s.rd MIR_PAIR_GEN_VALUE + 1)).setMaster s.selfBit).raise 0xB 3
  let s := s.openFirst (s.rd MIR_CONFIRMED_VALUE + 1) s.mono
  let s : State := { s with pair := { s.pair with changeMap := some (s.pair.openEpoch, []), waitSince := none } }
  s.enterService.settle

/-! ### The handshake (R343, R344) -/

/-- The time proposed for the first epoch by a reference: a sixteenth epoch from now (log 27). -/
def State.proposeAt (s : State) : Nat := s.tb + 16 * s.rd MIR_EPOCH_NS_NS

/-- This twin is the time reference (R335): in service when the other joins, else twin A of two that start together. -/
def State.timeRef (s : State) : Bool :=
  if s.serving then true
  else match s.pair.twinHello with
    | some m => !m.serving && !s.twinB
    | none => !s.twinB

/-- The HANDSHAKE this twin sends (R343). VC2 and VC3 are each given half of LINK_CAP (log 28). -/
def State.handshakeMsg (s : State) : HandshakeMsg :=
  let blocks := s.rd HTH_CELL_RSV_LINK_CAP * 2
  { twin := if s.twinB then .b else .a, kind := s.rd PWR_LAST_STOP_KIND, bootCount := s.rd BFL_BOOT_COUNT_COUNT
    pairGen := s.rd MIR_PAIR_GEN_VALUE, confirmed := s.pair.confirmed, part := 0x0096, layout := 1
    epochNs := s.rd MIR_EPOCH_NS_NS, hbMiss := s.rd MIR_HB_MISS_MISS, fencePref := s.rd MIR_FENCE_PREF_STRICT * 2 + s.rd MIR_FENCE_PREF_PREF
    ownedRegions := s.pair.ownedAtStop, fenced := s.role == 5, changeMapValid := s.pair.changeMap.isSome, serving := s.serving
    regions := s.rd TIR_POOL_CFG_REGIONS, vc1Credit := s.hearth.layout.epoch * 2 ^ 20 / 2 / 64, maxRegions := s.maxRegions
    firstEpochTb := if s.timeRef then s.proposeAt else 0, changeMapEpoch := match s.pair.changeMap with | some c => c.1 | none => 0
    vc2Credit := blocks, vc3Credit := blocks }

/-- Sends the HANDSHAKE. -/
def State.sendHandshake (s : State) : State :=
  if s.linkState = 0 || s.rd GLB_START_STAT_PHASE < 11 then s
  else
    let m := s.handshakeMsg
    { s.sendLink 0 (.handshake m) with pair := { s.pair with
        hsSentAt := some s.mono, firstOpenAt := if s.timeRef then some m.firstEpochTb else s.pair.firstOpenAt } }

/-- This twin's own addresses are staged, for the twin's entries 4 to 7 (R130). -/
def State.stageAddrs (s : State) : State :=
  s.addrs.foldl (fun s (e : Nat × AddrEntry) => if e.1 % 8 < 4 then s.stage (.addr (e.1 / 8) (e.1 % 8) (e.2.words false)) else s) s

/-- This twin's tables are staged whole into the epoch now open, for a twin that adopts them (R344; log 29). -/
def State.stageAll (s : State) : State :=
  let seq := s.protSeq
  let s := s.prot.keys.foldl (fun s (e : Nat × Key) => s.stage (.prot 0 e.1 seq (s.protEntry 0 e.1))) s
  let s := s.prot.tenants.foldl (fun s (e : Nat × Tenant) => if e.1 = 0 then s else s.stage (.prot 1 e.1 seq (s.protEntry 1 e.1))) s
  let s := s.prot.regions.foldl (fun s (e : Nat × Region) => s.stage (.prot 2 e.1 seq (s.protEntry 2 e.1))) s
  let s := s.cache.quota.foldl (fun s (e : Nat × Nat) => s.stage (.prot 3 e.1 seq (s.protEntry 3 e.1))) s
  let s := (s.tier.t1Quota ++ s.tier.t2Quota).foldl (fun s (e : Nat × Nat) => s.stage (.prot 4 e.1 seq (s.protEntry 4 e.1))) s
  let s := s.chains.chains.foldl (fun s (e : Nat × List Word64) => s.stage (.chain false e.1 e.2)) s
  let s := s.chains.ops.foldl (fun s (e : Nat × List Word64) => s.stage (.chain true e.1 e.2)) s
  s.qps.foldl (fun s (e : Nat × Qp) => if s.homeOf e.1 then s.stageQp e.1 else s) s

/-- This twin's tables and settings give way to the twin's (R344): they arrive in its first epoch. -/
def State.adopt (s : State) (m : HandshakeMsg) : State :=
  let t := s.prot.tenants.map (fun (e : Nat × Tenant) => (e.1, ({ wquota := 0xFFFFFFFF, qpCount := e.2.qpCount, wused := e.2.wused } : Tenant)))
  let s : State := { s with prot := { s.prot with keys := [], tenants := t, regions := [], resident := [] }, cache := { s.cache with quota := [] }, tier := { s.tier with t1Quota := [], t2Quota := [] }, chains := { chains := [], ops := [], runs := [] } }
  let s := s.wr KEY_KCACHE_RESIDENT 0
  let s := ((s.wr MIR_EPOCH_NS_NS m.epochNs).wr MIR_HB_MISS_MISS m.hbMiss).wr MIR_FENCE_PREF_STRICT (m.fencePref / 2)
  let s := s.wr MIR_FENCE_PREF_PREF (m.fencePref % 2)
  if m.regions = s.tier.poolRegions then s else s.setPool m.regions

/-- Frames of a forwarded request that will not be whole are given up: their cells of the link return (R73, R78). -/
def State.dropPartials (s : State) : State :=
  let n := (s.link.partial_.map (fun m => cellsOf (64 * (max 1 (LinkBody.blocks (.fwdReq m)) + 1)))).sum
  (({ s with link := { s.link with partial_ := [] } }).subLink n).afterFree 96

/-- The operations, runs and messages in progress of a twin that stops serving are dropped (R355, R344). -/
def State.dropWork (s : State) : State :=
  let s := s.qps.foldl (fun s (e : Nat × Qp) => if e.2.msg.isSome then s.dropMsg e.1 else s) s
  let s := s.chains.runs.foldl (fun s (e : Nat × Run) => s.freeRun e.1) s
  let s := (s.dropOps (fun o => o.for_ != .apply)).dropPartials
  { s with chains := { s.chains with runs := [] }, pair := { s.pair with fwdOut := [], fwdQueue := [], moves := [] } }

/-- Chunks a resynchronisation copies for a standby, or every page (R357, R358). -/
def State.startResync (s : State) (plan : Option (List Nat)) (mutual_ : Bool) : State :=
  let total := s.rd TIR_POOL_CFG_REGIONS
  let regs := match plan with | some cs => ((cs.map (fun c => c / 4096)).eraseDups).length | none => total
  let s := ((s.wr MIR_RESYNC_STAT_ACTIVE 1).wr MIR_RESYNC_STAT_DELTA (b2n plan.isSome)).wr MIR_RESYNC_STAT_MUTUAL (b2n mutual_)
  let s := (s.wr MIR_RESYNC_STAT_LEFT regs).wr MIR_RESYNC_STAT_DONE (total - regs)
  let s : State := { s with pair := { s.pair with
      resyncOn := true, resyncPlan := plan, resyncAt := 0, resyncDone := [], resyncVseq := none, mutualDelta := mutual_, lastCopy := s.mono } }
  s.raise 0xB 9

/-- A delta serves a standby (R357): its kind or fence, its generation one below the source's, a change map that began in
time. -/
def deltaOk (stKind : Nat) (stFenced : Bool) (stGen stConf srcGen : Nat) (mapOk : Bool) (mapEpoch : Nat) : Bool :=
  (stKind == 1 || stKind == 2 || stFenced) && stGen + 1 == srcGen && mapOk && decide (mapEpoch ≤ stConf + 1)

/-- Chunks this twin wrote after its last confirmed epoch, and those its replay wrote (R358). -/
def State.ownList (s : State) : List Nat :=
  ((s.pair.epochs.flatMap (fun e => e.chunks ++ recChunks e.recs)) ++ s.pair.standbyList ++ s.pair.replayList).eraseDups

/-- Number of the first epoch after a handshake and when it opens (R344, item 4). -/
def State.firstEpoch (s : State) (m : HandshakeMsg) : Nat × Nat :=
  let at_ := if s.timeRef then s.pair.firstOpenAt.getD s.tb else m.firstEpochTb
  (max s.pair.confirmed m.confirmed + 1, ((at_ : Int) - s.tbOff).toNat)

/-- Becomes STANDBY of a serving or authoritative twin (R344, R357). -/
def State.becomeStandby (s : State) (m : HandshakeMsg) (full : Bool) : State :=
  let mine := s.ownList
  let delta := !full && deltaOk (s.rd PWR_LAST_STOP_KIND) (s.role == 5) (s.rd MIR_PAIR_GEN_VALUE) s.pair.confirmed m.pairGen m.changeMapValid m.changeMapEpoch
  let s : State := { s with link := { s.link with stepped := s.link.stepped && !s.serving } }
  let (n, at_) := s.firstEpoch m
  let s := ((s.returnAddrs.dropWork.adopt m).allOwned (1 - s.selfBit)).setRole 6
  let s : State := { s with pair := { s.pair with away := true, standbyList := [], rxDone := [], changeMap := none, dropping := false }, dur := { s.dur with heldBase := none, heldRegs := [] } }
  let s := ((s.serveAll.setMaster (1 - s.selfBit)).openFirst n at_).stageAddrs
  let s := ((s.wr MIR_RESYNC_STAT_ACTIVE 1).wr MIR_RESYNC_STAT_DELTA (b2n delta)).raise 0xB 9
  let s := if delta then s.sendLink 0 (.resync (.changeList mine)) else s
  s.enterService

/-- Becomes SOURCE for a twin that joins as STANDBY (R344, R357). Its epochs run on. A full copy starts at once, a delta once
the standby's list has come. -/
def State.becomeSource (s : State) (m : HandshakeMsg) (full : Bool) : State :=
  let delta := !full && (match s.pair.changeMap with
    | some c => deltaOk m.kind m.fenced m.pairGen m.confirmed (s.rd MIR_PAIR_GEN_VALUE) true c.1
    | none => false)
  let fresh := !s.serving
  let (n, at_) := s.firstEpoch m
  let s := if fresh then (s.allOwned s.selfBit).serveAll else s
  let s := (s.setRole 7).setMaster s.selfBit
  let s := (s.openFirst n at_).stageAddrs.stageAll
  let chunks := match s.pair.changeMap with | some c => c.2 | none => []
  let s := s.startResync (if delta then some chunks else none) false
  { s with pair := { s.pair with listWait := delta } }.enterService

/-- Enters PAIRED (R342, R361, R190). -/
def State.enterPaired (s : State) : State :=
  let s := ((s.setRole 1).setMaster 0).raise 0xB 0
  let s := s.wr MIR_RESYNC_STAT_ACTIVE 0
  let s : State := { s with pair := { s.pair with changeMap := none, resyncOn := false, replayList := [], standbyList := [], mutualDelta := false, dropping := false } }
  match s.pair.drillCmd with
  | some q =>
    let (k, s) := s.takeFree
    let s : State := { s with pair := { s.pair with drillCmd := none } }
    (s.raise 0xB 12).finishCmd q stOk (Config.freeNat k % 2 ^ 32)
  | none => s

/-- Stops serving after a split (R344, item 2): every QP it serves goes to ERROR with DISCONNECT. -/
def State.splitLoser (s : State) (m : HandshakeMsg) : State :=
  let s := (s.raise 0xB 13).allToError s.liveQps 7
  s.becomeStandby m true

/-- Keeps serving after a split (R344, item 2): HOSTED QPs go to ERROR, every address is announced again. -/
def State.splitWinner (s : State) (m : HandshakeMsg) : State :=
  let s := s.allToError (s.liveQps.filter (fun n => s.qHosted n)) 7
  let s := (List.range 96).foldl (fun s p => if s.portUp p then s.announceAll p else s) s
  s.becomeSource m true

/-- The higher of two twins: by pair generation, by last confirmed epoch, then twin A (R344, item 3). True: this one. -/
def State.outranks (s : State) (m : HandshakeMsg) : Bool :=
  let g := s.rd MIR_PAIR_GEN_VALUE
  if g ≠ m.pairGen then decide (m.pairGen < g)
  else if s.pair.confirmed ≠ m.confirmed then decide (m.confirmed < s.pair.confirmed)
  else !s.twinB

/-- Both twins start (R344, item 3). -/
def State.bothStart (s : State) (m : HandshakeMsg) : State :=
  let k := s.rd PWR_LAST_STOP_KIND
  let okSelf := k == 1 || k == 2
  let okTwin := m.kind == 1 || m.kind == 2
  let (n, at_) := s.firstEpoch m
  if k = 0 ∧ m.kind = 0 then
    let s := ((s.allOwned 2).serveAll.openFirst n at_).stageAddrs
    (s.enterPaired).enterService
  else if okSelf && okTwin && s.rd MIR_PAIR_GEN_VALUE == m.pairGen then
    let s : State := { s with pair := { s.pair with rxDone := [] } }
    let s := (((s.setRole 7).setMaster 0).serveAll.openFirst n at_).stageAddrs
    let s := if s.outranks m then s.stageAll else s
    let mine := s.pair.replayList.filter (fun c => s.owns (c / 4096))
    (s.startResync (some mine) true).enterService
  else
    let auth := if okSelf && okTwin then s.outranks m
      else if okSelf then true
      else if okTwin then false
      else if k = 0 then false
      else if m.kind = 0 then true
      else !s.twinB
    if auth then (if okSelf then s else s.holdOwn).becomeSource m false
    else s.becomeStandby m false

/-- The twin's HANDSHAKE is decided on (R3, R344). A link that returns before any loss was declared changes no role (R334). -/
def State.decide_ (s : State) (m : HandshakeMsg) : State :=
  let same := (m.twin == .b) == s.twinB
  let s : State := { s with pair := { s.pair with twinHello := some m, waitSince := none }, tier := { s.tier with twinMaxRegions := m.maxRegions, twinBudget := s.rd TIR_DIRTY_MAX_EFF_MIB, twinPagesMax := s.rd TIR_DIRTY_PAGES_MAX, twinCharged := 0, twinPages := 0, twinWindowClosed := false } }
  let s : State := { s with link := { s.link with credit := NMap.put 0 (NMap.put 0 (NMap.put 0 s.link.credit 1 m.vc1Credit) 2 m.vc2Credit) 3 m.vc3Credit } }
  if m.part ≠ 0x0096 ∨ m.layout ≠ 1 then (s.setRole 8).raise 0xB 2
  else if same then
    { (s.setRole 8).raise 0xB 1 with pair := { s.pair with conflict := true } }
  else if m.serving && !s.serving then s.becomeStandby m false
  else if m.serving && s.serving then
    let g := s.rd MIR_PAIR_GEN_VALUE
    if (s.role == 1 || s.role == 7) && g == m.pairGen then s
    else
      let prefMine := s.rd MIR_FENCE_PREF_PREF
      let keep := if g ≠ m.pairGen then decide (m.pairGen < g)
        else if prefMine = m.fencePref % 2 then prefMine == s.selfBit else !s.twinB
      if keep then s.splitWinner m else s.splitLoser m
  else if s.serving then s.becomeSource m false
  else if s.role = 5 then s
  else s.bothStart m

/-! ### Loss, fence and takeover -/

/-- The twin fences (R355). -/
def State.fence (s : State) : State :=
  let mine := s.ownList
  let s := ({ s with link := { s.link with stepped := false } }.setRole 5).raise 0xB 7
  let s : State := { s with pair := { s.pair with standbyList := mine, lossWait := false, prefWait := false } }
  s.dropWork

/-- Step 2 of R356: every epoch of the twin received in full is applied, those received in part are discarded. -/
def applyAllIn : Nat → State → State
  | 0, s => s
  | k + 1, s =>
    match s.pair.incoming.find? (fun i => s.incomingReady i) with
    | some i =>
      let s := s.startApply i
      let s : State := { s with pair := { s.pair with appliedTo := i.n, seals := match i.sealed with | some m => s.pair.seals ++ [(i.n, m)] | none => s.pair.seals } }
      applyAllIn k s
    | none => { s with pair := { s.pair with incoming := [] } }

/-- Forwarded operations the twin left unanswered (R356 step 5): answered from an applied OPDONE record, else executed here
from the cells held. -/
def State.reviveForwards (s : State) : State :=
  let outs := s.pair.fwdOut ++ s.pair.fwdQueue
  let s : State := { s with pair := { s.pair with fwdOut := [], fwdQueue := [] } }
  outs.foldl (fun s f =>
    match s.pair.kept.find? (fun k => k.qpn == f.msg.qpn && k.psn == f.msg.psn && k.seg == f.msg.seg) with
    | some k => s.modOp f.op (fun o => { o with toTwin := false, placed := true, left := 0, result := k.result })
    | none => s.modOp f.op (fun o => { o with toTwin := false, issued := false, placed := false, left := 0 })) s

/-- A QP of the twin is served here from its last confirmed context (R167): every PSN below EPSN has been answered or is answered as a
duplicate, its message in progress goes on with its reservation and entries held, no READ is in progress. -/
def State.hostQp (s : State) (n : Nat) : State :=
  let ws := (s.qp n).words
  let acked := (s.qEpsn n + 2 ^ 24 - 1) % 2 ^ 24
  let g (w hi lo : Nat) : Nat := bits (NMap.getD ws w 0) hi lo
  let msg := msgOfWords ws
  let s := s.modQp n (fun q => { q with
    words := ws.filter (fun e => decide (e.1 < 16)), alphaAt := s.mono, incAt := s.mono, srcAddr := some ⟨g 3 50 50 == 1, NMap.getD ws 4 0, NMap.getD ws 5 0⟩ })
  let s := ((((s.setQf n 0 7 7 1).setQf n 2 23 0 (g 16 23 0)).setQf n 2 30 24 0).setQf n 7 31 16 0).setQf n 15 23 0 acked
  match msg with
  | none => s
  | some m =>
    let (s, st) := s.takeHold n m.key
    (s.reserve m.tenant m.nextPool m.reserve).modQp n (fun q => { q with msg := some { m with stamp := some st } })

/-- A RUNNING chain of the twin resumes at the first operation whose completion no confirmed epoch holds (R209): once its arming message is
whole, with what its operations to come write reserved (R204); an ATOMIC that this twin has executed as its owner is complete (R347). -/
def State.resumeRun (s : State) (i : Nat) : State :=
  let partly := match (s.qp (s.cf i 1 23 0)).msg with | some m => m.sink == 1 && m.chain == i | none => false
  let need := (((List.range (s.cf i 0 20 16)).drop (s.curStep i)).map (fun j =>
    let e := s.slot i j
    match bits (wordAt e 0) 3 0 with | 1 => s.opLen i e | 3 => 64 | _ => 0)).sum
  let s := (s.wr TIR_DIRTY_RESERVED_BYTES (s.rd TIR_DIRTY_RESERVED_BYTES + need)).addWused (s.cf i 0 15 8) need 0
  let s := s.setRun i { s.run i with ready := !partly, busy := false, reserve := need }
  let atomic := bits (wordAt (s.slot i (s.curStep i)) 0) 3 0 == 3
  let psn := s.chainPsn i
  if atomic && s.pair.kept.any (fun k => k.qpn == 0 && k.seg == 1 && k.psn == psn) then s.chainStepDone i else s

/-- Takes over from the lost twin (R356) for a cause: HB_LOSS 1, FINAL 2, STEWARD 3, DRILL 4. -/
def State.takeover (s : State) (cause : Nat) : State :=
  let s := (s.setRole 3).raise 0xB 5
  let s := applyAllIn 4 s
  let s : State := { s with pair := { s.pair with epochs := s.pair.epochs.map (fun e => { e with closed := some (e.closed.getD s.mono), acked := true, applied := true }), flushEpoch := none } }
  let regs := s.ownedCount (!s.twinB)
  let s := s.allOwned s.selfBit
  let s : State := { s with pair := { s.pair with moves := [], lossWait := false, prefWait := false, strictWait := false, resyncOn := false, twinHello := none, hsSentAt := none } }
  let s := ((s.setRole 4).serveAll.setMaster s.selfBit).wr MIR_PAIR_GEN_VALUE (s.rd MIR_PAIR_GEN_VALUE + 1)
  let s := s.confirmAll
  let s : State := { s with pair := { s.pair with changeMap := some (s.pair.openEpoch, s.pair.standbyList), deadline := s.mono + s.rd MIR_EPOCH_NS_NS } }
  let s := (s.dropOps (fun o => match o.for_ with | .fwd .. => !o.issued | _ => false)).dropPartials
  let theirs := (s.qps.filter (fun e => qpnRange e.1 == some (!s.twinB) && bits (NMap.getD e.2.words 0 0) 2 0 != 0)).map Prod.fst
  let s := (theirs.foldl (fun s n => s.hostQp n) s).recountQps
  let s := s.raiseIf (!theirs.isEmpty) 0x11 4
  let cs := (s.chains.chains.filter (fun e => decide (16384 ≤ e.1) == !s.twinB)).map Prod.fst
  let s := cs.foldl (fun s i =>
    let s := s.setCf i 0 7 7 1
    if s.cf i 0 2 0 = 2 then s.resumeRun i else s) s
  let s := (s.raiseIf (!cs.isEmpty) 0x10 2).reviveForwards
  let (k, s) := s.takeFree
  let s := (s.wr MIR_TAKEOVER_STAT_DURATION_NS (Config.freeNat k)).wr MIR_TAKEOVER_STAT_CAUSE cause
  let s := ((s.wr MIR_TAKEOVER_STAT_REGIONS regs).twinCtr 8).raise 0xB 6
  let s := s.wr MIR_RESYNC_STAT_ACTIVE 0
  let s := (({ s with pair := { s.pair with hosting := true } }).placeHosted (fun _ => true)).settle
  s.protRevive.protCheck.tirCheck.settle

/-- A receiver of a resynchronisation takes over the regions whose copy is complete; the others are served by neither (R364). Regions come
in rising order (R358), and a delta names none that it leaves out: those up to the last one completed are complete (log 221). -/
def State.standbyTakeover (s : State) (cause : Nat) : State :=
  let mine := s.owns
  let total := s.rd TIR_POOL_CFG_REGIONS
  let delta := s.rd MIR_RESYNC_STAT_DELTA == 1
  let s := s.takeover cause
  let done := s.pair.rxDone.map Prod.fst
  let whole (r : Nat) : Bool := if delta then done.any (fun d => decide (r ≤ d)) else done.contains r
  let regs := (List.range total).foldl (fun (m : NMap Region) r =>
    let g := NMap.getD s.prot.regions r {}
    NMap.put {} m r { g with served := !(mine r || whole r) }) s.prot.regions
  let s : State := { s with pair := { s.pair with away := false }, prot := { s.prot with regions := regs } }
  s.wr MIR_TAKEOVER_STAT_REGIONS ((List.range total).filter (fun r => !mine r && whole r)).length

/-- Declares loss of the twin (R354, R356). -/
def State.declareLoss (s : State) (cause : Nat) : State :=
  let whole := match s.pair.twinHb with | some h => h.pairGen == s.rd MIR_PAIR_GEN_VALUE + 1 | none => false
  if s.role = 6 || (s.role == 7 && s.pair.mutualDelta && !whole) then s.standbyTakeover cause else s.takeover cause

/-- Acts on heartbeat loss by the first row of R354 that holds; not while flushing. -/
def State.onLoss (s : State) : State :=
  let pref := s.rd MIR_FENCE_PREF_PREF == s.selfBit
  let alive := s.rd MIR_SB_STAT_ALIVE == 1
  let shown := match s.link.sbFlags with | some f => f.fenced || f.flushing | none => false
  if s.dur.flush.isSome then s
  else if s.pair.finalSeen then s.declareLoss 2
  else if alive && shown then s.declareLoss 1
  else if alive && pref then { s with pair := { s.pair with lossWait := true, prefWait := true } }
  else if alive then s.fence
  else if pref || s.rd MIR_FENCE_PREF_STRICT == 0 then s.declareLoss 1
  else { (s.fence.raise 0xB 8) with pair := { s.fence.pair with strictWait := true } }

/-! ### Resynchronisation goes on (R357 to R361) -/

/-- Hosted QPs and addresses go back to the twin (R361). A record of the twin's first QPN always goes with them, so that the
twin learns of it (log 30). -/
def State.giveBack (s : State) : State × Nat :=
  let base := if s.twinB then 0x10000 else 0x20000
  let hosted := (s.qps.filter (fun e => qpnRange e.1 == some (!s.twinB) && s.qHosted e.1)).map Prod.fst
  let s := hosted.foldl (fun s n => (s.setQf n 0 7 7 0).stageQp n) s
  let s := if hosted.contains base then s else s.stageQp base
  let cs := (s.chains.chains.filter (fun e => decide (16384 ≤ e.1) == !s.twinB)).map Prod.fst
  let s := cs.foldl (fun s i => if s.cf i 0 7 7 = 1 then (s.setCf i 0 7 7 0).stageChain i else s) s
  let s := s.returnAddrs.recountQps.raiseIf (!hosted.isEmpty) 0x11 5
  (s, hosted.length)

/-- The source's copy is complete (R361). -/
def State.resyncComplete (s : State) : State :=
  let s := s.wr MIR_PAIR_GEN_VALUE (s.rd MIR_PAIR_GEN_VALUE + 1)
  let s : State := { s with pair := { s.pair with resyncOn := false } }
  let s := (s.wr MIR_RESYNC_STAT_ACTIVE 0).raise 0xB 10
  if s.pair.mutualDelta then
    match s.pair.twinHb with
    | some h => if h.pairGen = s.rd MIR_PAIR_GEN_VALUE then s.enterPaired else s
    | none => s
  else
    let s := s.enterPaired
    if s.rd MIR_RESYNC_CFG_RETURN_AUTO = 1 then s.giveBack.1 else s

/-- Regions whose last page lies in a confirmed epoch are complete (R359); with none left the resynchronisation is. -/
def State.resyncCheck (s : State) : State :=
  let done := s.pair.resyncDone.filter (fun d => s.isConfirmed d.2)
  let s : State := { s with pair := { s.pair with
      resyncDone := s.pair.resyncDone.filter (fun d => !s.isConfirmed d.2) } }
  let s := if done.isEmpty || !s.pair.resyncOn then s
    else (s.wr MIR_RESYNC_STAT_LEFT (s.rd MIR_RESYNC_STAT_LEFT - done.length)).wr MIR_RESYNC_STAT_DONE (s.rd MIR_RESYNC_STAT_DONE + done.length)
  if s.pair.resyncOn && s.role == 7 && s.rd MIR_RESYNC_STAT_LEFT == 0 && !s.pair.listWait then s.resyncComplete else s

/-- The giver of a drill seals its final epoch, the next to open where none was open at the command, enters FENCED once that is confirmed, and
asks to rejoin (R363). -/
def State.drillCheck (s : State) : State :=
  if s.pair.drillCmd.isNone || !s.pair.dropping || s.role != 1 then s
  else if s.openSlot.isSome then (if s.pair.flushEpoch.isNone then s.closeEpoch true true true else s)
  else if s.pair.flushEpoch.isSome && s.pair.epochs.isEmpty then
    ({ s.fence with pair := { s.fence.pair with twinHello := none } }).sendHandshake
  else s

/-- MIR_REBALANCE completes when its moves have ended (R365). -/
def State.rebalanceCheck (s : State) : State :=
  match s.pair.rebalance with
  | some (q, rs) =>
    if s.prot.waits.any (fun w => w.rebal) || rs.any (fun r => (s.region r).moving) then s
    else { s with pair := { s.pair with rebalance := none } }.finishCmd q stOk rs.length
  | none => s

/-- What a confirmation, an apply or a loss lets go on beyond the data path. -/
def State.twinGo (s : State) : State :=
  s.settle.protCheck.tirCheck.flushGo.resyncCheck.drillCheck.rebalanceCheck.settle

end Sys2Proof.Machine
end

