-- ==== Sys2Proof/Machine/Link.lean ====
section
/-! DEFINITION. The Swidun link's own commands (13_swidun_link.md): training, HELLO and keying, loss of strands, FEC, credit
and retry, key rotation, time, the sideband heartbeat. -/

namespace Sys2Proof.Machine

/-! ### Strands -/

/-- The strand is enabled (R325). -/
def State.strandEn (s : State) (n : Nat) : Bool := (s.rd MIR_LINK_CFG_STRAND_EN / 2 ^ n) % 2 == 1

/-- A strand starts training (R324). -/
def State.strandTrain (s : State) (n : Nat) : State :=
  if s.strandEn n then (s.setStrandSt n 1).modStrand n (fun x => { x with retrainAt := none }) else s

/-- The HELLO of now without its tag (R331): generation 0 while the link is DOWN. -/
def State.helloBare (s : State) : HelloMsg :=
  { bootCount := s.rd BFL_BOOT_COUNT_COUNT, linkCount := s.link.linkCount, twin := if s.twinB then .b else .a, gen := if s.linkState = 0 then 0 else s.link.txGen, tag := [] }

/-- The HELLO a strand sends now. -/
def State.helloMsg (s : State) (n : Nat) : HelloMsg := { s.helloBare with tag := s.helloTag s.twinB n s.helloBare }

/-- The lane ID symbols that a strand's eight lanes report name this strand and each its lane (R322, R324). -/
def lanesOk (n : Nat) (lanes : List Nat) : Bool :=
  (List.range 8).all (fun l =>
    let f := laneIdFields (BitVec.ofNat 10 (nth 0 lanes l))
    f.1 == n && f.2.1 == l)

/-- STRAND_TRAINED (R324, R325): a wrong lane fails the strand with WIRING; else it goes to KEYING and sends HELLO. The first
HELLO of a link that is DOWN raises the link count (log 32). -/
def State.strandTrained (s : State) (n : Nat) (ok : Bool) : State :=
  if !(s.strandSt n == 1 || s.strandSt n == 2) then s
  else if !ok then s.strandLeaves n 5 false
  else
    let fresh := s.linkState == 0 && !(List.range 8).any (fun m => s.strandSt m == 3)
    let s : State := if fresh then { s with link := { s.link with linkCount := s.link.linkCount + 1 } } else s
    let s := (s.setStrandSt n 3).modStrand n (fun x => { x with helloSent := true })
    if (s.keySlot 1).st = 0 then s else s.emit (.hello n (s.helloMsg n))

def execStrandTrained (strand : Nat) (lanes : List Nat) (s : State) : Res :=
  .next (if strand < 8 then s.strandTrained strand (lanesOk strand lanes) else s)

/-- The counts of a HELLO are above those last accepted (R331): by boot count, then link count; within one link session the
other strands carry the same (log 32). -/
def State.helloFresh (s : State) (m : HelloMsg) : Bool :=
  decide (s.link.twinBoot < m.bootCount) || (m.bootCount == s.link.twinBoot && (decide (s.link.twinLink < m.linkCount)
    || (s.linkState != 0 && m.linkCount == s.link.twinLink)))

/-- HELLO (R331, R332): the strand keys and enters UP, or fails with KEY_MISMATCH. -/
def State.helloRecv (s : State) (n : Nat) (m : HelloMsg) : State :=
  if s.strandSt n != 3 || (s.keySlot 1).st == 0 then s
  else if m.tag != s.helloTag (!s.twinB) n m || !s.helloFresh m then (s.strandLeaves n 6 false).raise 0xB 38
  else
    let down := s.linkState == 0
    let newBoot := m.bootCount != s.link.twinBoot
    let s : State := { s with link := { s.link with twinBoot := m.bootCount, twinLink := m.linkCount } }
    let s : State := if newBoot then { s with link := { s.link with nextVseq := [], rxVseq := [], reorder := [], queue := [], credit := [], owed := [], strands := s.link.strands.map (fun (e : Nat × Strand) => (e.1, { e.2 with unacked := [] })) } } else s
    let s : State := if down then { s with link := { s.link with txGen := 1, rxGen := 1, rxOld := none, genSince := s.mono } } else s
    let s := (s.wr MIR_KEY_STAT_TX_GEN s.link.txGen).wr MIR_KEY_STAT_RX_GEN s.link.rxGen
    let held := (s.strand n).unacked
    let s := s.setStrand n { downs := (s.strand n).downs, unacked := held }
    let s := s.modStrand n (fun x => { x with unacked := [] })
    let s := (s.setStrandSt n 4).raise 0xB 32
    let s := s.linkUpdate
    let s := held.foldl (fun s f => (s.linkCtr 7).putFrame n f.vc f.vseq f.epoch f.blocks f.body) s
    let s := s.resendHeld
    if down then
      let s : State := { s with pair := { s.pair with twinHello := none, hsSentAt := none } }
      s.sendHandshake.drainLink
    else s.drainLink

def execHello (strand : Nat) (m : HelloMsg) (s : State) : Res := .next (if strand < 8 then s.helloRecv strand m else s)

/-- Number of a cause in STRAND_CAUSE. -/
def strandCauseNo : StrandCause → Nat
  | .signalLoss => 1 | .retryExc => 3 | .tag => 4

/-- STRAND_DOWN (R325, R334). -/
def execStrandDown (strand : Nat) (cause : StrandCause) (s : State) : Res :=
  .next (if strand < 8 && s.strandSt strand == 4 then (s.strandLeaves strand (strandCauseNo cause) false).settle else s)

/-- LINK_FEC_WINDOW (R325, R340): the third window in a row with uncorrectable codewords takes the strand out of UP. -/
def State.linkFec (s : State) (n corr uncorr : Nat) : State :=
  if s.strandSt n != 4 then s
  else
    let s := (s.linkCtr 4 corr).linkCtr 5 uncorr
    if uncorr = 0 then s.modStrand n (fun x => { x with fecBad := 0 })
    else if 2 ≤ (s.strand n).fecBad then s.strandLeaves n 2 false
    else s.modStrand n (fun x => { x with fecBad := x.fecBad + 1 })

def execLinkFecWindow (strand corrCw uncorrCw : Nat) (s : State) : Res :=
  .next (if strand < 8 then s.linkFec strand corrCw uncorrCw else s)

/-- STRAND_RETRAIN (R325): 100 ms after leaving UP. -/
def State.strandRetrain (s : State) (n : Nat) : State :=
  match (s.strand n).retrainAt with
  | some t => if s.strandSt n = 0 then (s.upTo t).strandTrain n else s
  | none => s

def execStrandRetrain (strand : Nat) (s : State) : Res := .next (if strand < 8 then s.strandRetrain strand else s)

/-- A STRAND_EN bit is cleared (R325): no new frames, up to 10 µs for acknowledgements, then OFF. -/
def State.strandOff (s : State) (n : Nat) : State :=
  if s.strandSt n = 4 then
    if (s.strand n).unacked.isEmpty then s.strandLeaves n 7 true
    else s.modStrand n (fun x => { x with disableAt := some (s.mono + us 10) })
  else ((s.setStrandSt n 0).setCause n 7).modStrand n (fun x => { x with retrainAt := none })

/-- A STRAND_EN bit is set (R325). -/
def State.strandOn (s : State) (n : Nat) : State :=
  if s.strandSt n = 0 ∨ s.strandSt n = 5 then (s.modStrand n (fun x => { x with downs := [], disableAt := none })).strandTrain n
  else s.modStrand n (fun x => { x with disableAt := none })

/-- STRAND_DISABLE_TIMEOUT (R325). -/
def State.strandOffLate (s : State) (n : Nat) : State :=
  match (s.strand n).disableAt with
  | some t => ((s.upTo t).strandLeaves n 7 true).settle
  | none => s

def execStrandDisableTimeout (strand : Nat) (s : State) : Res := .next (if strand < 8 then s.strandOffLate strand else s)

/-- A disabled strand with every frame acknowledged turns off (R325). -/
def State.offCheck (s : State) (n : Nat) : State :=
  let x := s.strand n
  if x.disableAt.isSome && x.unacked.isEmpty && s.strandSt n == 4 then s.strandLeaves n 7 true else s

/-! ### Credit and retry -/

/-- CREDIT (R329, R330): acknowledgement, credits, or a NAK that sends frames again. A CREDIT frame takes no FSEQ of its own
(log 31). -/
def State.creditRecv (s : State) (n : Nat) (h : LinkHdr) : State :=
  if s.strandSt n != 4 || !h.codewordOk then s
  else if !s.linkTagOk n h (.credit h.ack h.nak h.credit1 h.credit2 h.credit3) then
    let run := (s.strand n).tagRun + 1
    let s := (s.linkCtr 6).modStrand n (fun x => { x with tagRun := run })
    if 4 ≤ run then s.strandLeaves n 4 false else s
  else (((s.linkCtr 1).linkCtr 3).takeAck n h).offCheck n

def execCredit (strand : Nat) (h : LinkHdr) (s : State) : Res := .next (if strand < 8 then (s.creditRecv strand h).settle else s)

/-- VC2 credit is withheld at LINK_CAP or at SHUT (R81). -/
def State.vc2Withheld (s : State) : Bool := s.hearth.level == 2 || decide (s.rd HTH_CELL_RSV_LINK_CAP ≤ s.hearth.linkCharge)

/-- CREDIT_SEND (R329). -/
def State.creditSend (s : State) (n : Nat) : State :=
  let x := s.strand n
  let c2 := if s.vc2Withheld then 0 else NMap.getD s.link.owed 2 0
  let c1 := NMap.getD s.link.owed 1 0
  let c3 := NMap.getD s.link.owed 3 0
  if s.strandSt n != 4 || !(x.ackOwed || x.nakOwed || c1 + c2 + c3 != 0) then s
  else
    let s := s.modStrand n (fun x => { x with ackOwed := false, nakOwed := false })
    let keep := if s.vc2Withheld then NMap.getD s.link.owed 2 0 else 0
    let s : State := { s with link := { s.link with owed := NMap.put 0 [] 2 keep } }
    ((s.linkCtr 0).linkCtr 2).emit (.linkFrame n (x.nextFseq - 1) 0 0 0 (.credit x.rxFseq x.nakOwed c1 c2 c3)
      (s.frameWire n { fseq := x.nextFseq - 1, vc := 0, vseq := 0, epoch := 0, blocks := 0, body := .credit x.rxFseq x.nakOwed c1 c2 c3, gen := s.link.txGen
                       ack := x.rxFseq, nak := x.nakOwed, credits := (c1, c2, c3) }))

def execCreditSend (strand : Nat) (s : State) : Res := .next (if strand < 8 then s.creditSend strand else s)

/-- LINK_RETRY_TIMEOUT (R329). -/
def State.retryTimeout (s : State) (n : Nat) : State :=
  match (s.strand n).retryAt, (s.strand n).unacked with
  | some t, f :: _ => if s.strandSt n = 4 then (s.upTo t).goBack n (f.fseq - 1) else s
  | _, _ => s

def execLinkRetryTimeout (strand : Nat) (s : State) : Res := .next (if strand < 8 then s.retryTimeout strand else s)

/-! ### Keys -/

/-- The receiver takes the next generation, and accepts both until every UP strand has delivered a frame under it (R333). -/
def State.keyNextTake (s : State) (g : Nat) : State :=
  let strands := s.link.strands.map (fun (e : Nat × Strand) => (e.1, { e.2 with rxNewGen := false }))
  ({ s with link := { s.link with rxGen := g, rxOld := some (g - 1), strands := strands } }).wr MIR_KEY_STAT_RX_GEN g

/-- KEY_ROTATE (R333): KEY_NEXT under generation g, then every frame under g + 1. After 0xFFFF_FFFF the link is taken DOWN. -/
def State.keyRotate (s : State) : State :=
  if s.linkState = 0 then s
  else
    let full := s.upStrands.any (fun n => decide (2 ^ s.rd MIR_KEY_CFG_ROTATE_LOG2 ≤ (s.strand n).genFrames))
    let s := if full then s else s.upTo (s.link.genSince + s.rd MIR_KEY_CFG_ROTATE_S * 1000000000)
    if s.link.txGen = 0xFFFFFFFF then s.upStrands.foldl (fun s n => s.strandLeaves n 8 false) s
    else
      let g := s.link.txGen + 1
      let s := s.sendLink 0 (.keyNext g)
      let s := s.upStrands.foldl (fun s n => s.modStrand n (fun x => { x with genFrames := 0, blocked := false, rotWait := none })) s
      let s : State := { s with link := { s.link with txGen := g, genSince := s.mono } }
      (((s.wr MIR_KEY_STAT_TX_GEN g).linkCtr 9).raise 0xB 40).drainLink

def execKeyRotate (s : State) : Res := .next s.keyRotate

/-- ROTATION_TIMEOUT (R333). -/
def State.rotationTimeout (s : State) (n : Nat) : State :=
  match (s.strand n).rotWait with
  | some t => if s.strandSt n = 4 then (s.upTo (t + us 10)).strandLeaves n 8 false else s
  | none => s

def execRotationTimeout (strand : Nat) (s : State) : Res := .next (if strand < 8 then s.rotationTimeout strand else s)

/-! ### Time (R335, R336) -/

/-- TIME_EXCHANGE: every 100 µs each side sends a TIME frame. -/
def State.timeExchange (s : State) : State :=
  if s.linkState = 0 then s
  else
    let s := s.upTo s.link.timeNext
    let s := s.wr MIR_TIME_STAT_REFERENCE (b2n s.timeRef)
    let m : TimeMsg := { depart := s.tb % 2 ^ 56 * 256, lastArrival := s.link.timeT2, arrived := 0 }
    let s := s.sendLink 0 (.time m)
    { s with link := { s.link with timeSent := m.depart, timeNext := s.mono + us 100 } }

def execTimeExchange (s : State) : Res := .next s.timeExchange

/-- ALIGNED after 8 exchanges in a row within ±20 ns, unaligned after 8 outside (R336). -/
def State.alignCheck (s : State) (within : Bool) : State :=
  let a := if within then s.link.alignedRun + 1 else 0
  let o := if within then 0 else s.link.outRun + 1
  let s : State := { s with link := { s.link with alignedRun := a, outRun := o } }
  if within && decide (8 ≤ a) then s.wr MIR_TIME_STAT_ALIGNED 1
  else if !within && decide (8 ≤ o) && s.rd MIR_TIME_STAT_ALIGNED == 1 then (s.wr MIR_TIME_STAT_ALIGNED 0).raise 0xB 41
  else s

/-- A TIME frame arrives (R335, R336): the follower computes offset and delay from the exchange before, steps TB_NS once
before service while it serves no region, and slews from then on. -/
def State.timeTake (s : State) (m : TimeMsg) : State :=
  let t1 := s.link.timeT1
  let t2 := s.link.timeT2
  let t3 := s.link.timeSent
  let keep (s : State) : State := { s with link := { s.link with timeT1 := m.depart, timeT2 := m.arrived } }
  if s.timeRef then keep (s.wr MIR_TIME_STAT_OFFSET_PS 0)
  else if t1 = 0 ∨ t3 = 0 ∨ m.lastArrival = 0 then keep s
  else
    let there : Int := (t2 : Int) - t1
    let back : Int := (m.lastArrival : Int) - t3
    let off := (there - back) / 2
    let delay := (there + back) / 2
    let ps := off * 1000 / 256
    let s := (s.wr MIR_TIME_STAT_OFFSET_PS (ps % (2 ^ 32 : Int)).toNat).wr MIR_TIME_STAT_DELAY_NS (delay / 256).toNat
    let s := s.alignCheck (decide (-20000 ≤ ps) && decide (ps ≤ 20000))
    if !s.link.stepped && !s.serving && ps != 0 then
      let s : State := { s with tbOff := s.tbOff - ps / 1000, link := { s.link with stepped := true, timeT1 := 0, timeSent := 0 } }
      s.raise 0xB 42
    else keep { s with link := { s.link with slewPs := ps } }

/-! ### Sideband (R337, R338) -/

/-- SIDEBAND_SEND: every 100 µs, whether the link is up or not. -/
def State.sidebandSend (s : State) : State :=
  let p := s.rd MIR_SB_CFG_PORT
  if 96 ≤ p then s
  else
    let s := s.upTo s.link.sbNext
    let f : SbFrame := { twin := if s.twinB then .b else .a, linkUp := s.linkState != 0, fenced := s.role == 5, flushing := s.dur.flush.isSome, seq := s.link.sbSeq, tbNs := s.tb, pairGen := s.rd MIR_PAIR_GEN_VALUE, confirmed := s.pair.confirmed, bootCount := s.bootNo, tag := [] }
    let f : SbFrame := { f with tag := s.sbTag f }
    let s : State := { s with link := { s.link with sbSeq := s.link.sbSeq + 1, sbNext := s.mono + us 100 } }
    (s.linkCtr 12).queueTx { port := p, prio := s.rd MIR_SB_CFG_PRIO, pcp := s.rd MIR_SB_CFG_PRIO, dst := some (BitVec.ofNat 48 (s.rd MIR_SB_CFG_PEER_MAC)), len := 14 + 56 + 4, body := .sideband f } []

def execSidebandSend (s : State) : Res := .next s.sidebandSend

/-- A sideband frame is accepted: its tag, its boot count above the last accepted or its sequence above it (R338). -/
def State.sbFresh (s : State) (f : SbFrame) : Bool :=
  f.tag == s.sbTag f && (decide (s.link.sbTwinBoot < f.bootCount) || (f.bootCount == s.link.sbTwinBoot && (s.link.sbLast.isNone || decide (s.link.sbTwinSeq < f.seq))))

/-- SIDEBAND_FRAME: the oldest sideband frame of a port's received frames. -/
def State.sidebandFrame (s : State) (p : Nat) : State :=
  match s.popRx p (fun f => match f.frame.body with | .sideband _ => true | _ => false) with
  | none => s
  | some (f, s) =>
    match f.frame.body with
    | .sideband b =>
      let s := ((s.subLink f.cells).afterFree 96).linkCtr 13
      if s.sbFresh b then
        let s : State := { s with link := { s.link with sbTwinBoot := b.bootCount, sbTwinSeq := b.seq, sbLast := some s.mono, sbFlags := some b } }
        let s := (s.wr MIR_SB_STAT_ALIVE 1).wr MIR_SB_STAT_LAST_SEQ b.seq
        if s.pair.prefWait && b.fenced then (s.declareLoss 1).twinGo else s
      else (s.linkCtr 14).raise 0xB 44
    | _ => s

def execSidebandFrame (port : Nat) (s : State) : Res := .next (s.sidebandFrame port)

/-- SB_LOST: MISS periods without an accepted frame; a preferred twin that waits declares loss (R338, R354). -/
def State.sbLost (s : State) : State :=
  match s.link.sbLast with
  | some t =>
    if s.rd MIR_SB_STAT_ALIVE = 0 then s
    else
      let s := s.upTo (t + s.rd MIR_SB_CFG_MISS * us 100)
      let s := (s.wr MIR_SB_STAT_ALIVE 0).raise 0xB 43
      if s.pair.prefWait then (s.declareLoss 1).twinGo else s
  | none => s

def execSbLost (s : State) : Res := .next s.sbLost

end Sys2Proof.Machine
end

