-- ==== Sys2Proof/Machine/Cipher.lean ====
section
/-! DEFINITION. The cipher's commands (16_cipher.md): keys loaded, rolled and cleared (R395, R396), sealed objects (R398 to
R400). -/

namespace Sys2Proof.Machine

/-- The slot a command names (R395). -/
def cmdSlot (c : RqCmd) : Nat := bits c.w5 8 0

/-- What a key command leaves 0: INDEX, COUNT and the OPERAND fields it does not name. -/
def keyCmdZero (len : List Nat) (c : RqCmd) : Bool :=
  c.w1 == 0 && c.count == 0 && bits c.w5 63 9 == 0 && c.w6 == 0 && c.w7 == 0 && len.contains c.length

/-- An all-zero key, or an XTS pair of equal keys (BAD_KEY). -/
def badKey (ks : List (BitVec 256)) : Bool := ks.any (fun k => k == 0) || (decide (1 < ks.length) && nth 0 ks 0 == nth 0 ks 1)

/-- Installs a key a command brought: STATE LOADED, LOADS one more, the invocation counter from 0. -/
def State.installKey (s : State) (n : Nat) (ks : List (BitVec 256)) : State :=
  let k := s.keySlot n
  let k : KeySlot := { st := 2, key := nth 0 ks 0, key2 := nth 0 ks 1, loads := (k.loads + 1) % 2 ^ 32 }
  (s.setKeySlot n k).cphCount 5

/-- Ends a key command with its KCV. -/
def State.keyDone (s : State) (q n ev : Nat) : State := (s.raise 6 ev).finishCmd q stOk (s.keySlot n).kcv

/-- CPH_KEK_SET (R395). -/
def State.kekSet (s : State) (q : Nat) (data : List Word64) : State :=
  s.blockCmd q 0x06 0x40 false (fun c => keyCmdZero [32] c && c.w5 == 0) (fun s _ _ =>
    let k := keyOfBytes (wordsBytes data)
    if (s.keySlot 0).st != 0 then s.finishCmd q 0x40 0
    else if data.length < 4 then s.finishCmd q stDmaError 0
    else if k = 0 then s.finishCmd q 0x43 0
    else (s.installKey 0 [k]).keyDone q 0 0)

def execCphKekSet (q : Nat) (data : List Word64) (s : State) : Res := .next (s.kekSet q (data.take 4))

/-- The keys a wrapped string holds under the KEK; none where its check fails. -/
def State.unwrapKeys (s : State) (data : List Byte) : Option (List (BitVec 256)) :=
  (unwrap (keyBytes (s.keySlot 0).key) data).map (fun b => (List.range (b.length / 32)).map (fun i => keyOfBytes ((b.drop (32 * i)).take 32)))

/-- Installs a wrapped key of a slot, or says why not: SLOT_EMPTY, DMA_ERROR, UNWRAP_FAIL, BAD_KEY. -/
def State.loadWrapped (s : State) (q n len ev : Nat) (data : List Word64) : State :=
  if (s.keySlot 0).st = 0 then s.finishCmd q 0x41 0
  else if 8 * data.length < len then s.finishCmd q stDmaError 0
  else match s.unwrapKeys ((wordsBytes data).take len) with
    | none => ((s.cphCount 6).raise 6 4).finishCmd q 0x42 0
    | some ks => if badKey ks then s.finishCmd q 0x43 0 else (s.installKey n ks).keyDone q n ev

/-- CPH_KEK_ROLL (R395). -/
def State.kekRoll (s : State) (q : Nat) (data : List Word64) : State :=
  s.blockCmd q 0x06 0x41 false (fun c => keyCmdZero [40] c && c.w5 == 0) (fun s _ _ => s.loadWrapped q 0 40 0 data)

def execCphKekRoll (q : Nat) (data : List Word64) (s : State) : Res := .next (s.kekRoll q data)

/-- A key may be loaded into a slot (R396). -/
def State.loadOk (s : State) (n : Nat) : Bool :=
  if n = 2 then false
  else if n < 4 then (s.keySlot n).st == 0
  else (s.keySlot n).st == 0 || NMap.getD s.tier.t2Used (n - 4) 0 == 0

/-- Strands that wait at KEYING for a master key send HELLO (R324, R396). -/
def State.helloWaiting (s : State) : State :=
  (List.range 8).foldl (fun (s : State) n => if s.strandSt n = 3 then s.emit (.hello n (s.helloMsg n)) else s) s

/-- CPH_KEY_LOAD (R395, R396). -/
def State.cphKeyLoad (s : State) (q : Nat) (data : List Word64) : State :=
  s.blockCmd q 0x06 0x42 false (keyCmdZero [40, 72]) (fun s _ c =>
    let n := cmdSlot c
    if 259 < n || n == 0 then s.finishCmd q stBadIndex 0
    else if c.length != (if n < 4 then 40 else 72) then s.finishCmd q stBadLength 0
    else if !s.loadOk n then s.finishCmd q 0x40 0
    else
      let empty := (s.keySlot 1).st == 0
      let s := s.loadWrapped q n c.length 1 data
      if n = 1 && empty && (s.keySlot 1).st != 0 then s.helloWaiting else s)

def execCphKeyLoad (q : Nat) (data : List Word64) (s : State) : Res := .next (s.cphKeyLoad q data)

/-- A slot may be cleared (R396). -/
def State.clearOk (s : State) (n : Nat) : Bool :=
  match n with
  | 1 => s.rd MIR_KEY_STAT_TX_GEN == 0
  | 2 => false
  | 3 => true
  | n => NMap.getD s.tier.t2Used (n - 4) 0 == 0

/-- CPH_KEY_CLEAR (R395 to R397). -/
def State.cphKeyClear (s : State) (q : Nat) : State :=
  s.blockCmd q 0x06 0x43 false (fun c => keyCmdZero [0] c && c.w2 == 0) (fun s _ c =>
    let n := cmdSlot c
    if 259 < n || n == 0 then s.finishCmd q stBadIndex 0
    else if !s.clearOk n then s.finishCmd q 0x44 0
    else
      let s := s.setKeySlot n { loads := (s.keySlot n).loads }
      let s := if 4 ≤ n && (n == 4 || (s.tenant (n - 4)).state == 1) then s.deviceKey n else s
      (s.raise 6 2).finishCmd q stOk 0)

def execCphKeyClear (q : Nat) (s : State) : Res := .next (s.cphKeyClear q)

/-! ### Sealed objects (R398 to R400) -/

/-- The slot of a seal or unseal. -/
def sealSlot (c : RqCmd) : Nat := if bit c.w5 0 then 2 else 3

/-- A seal has a pipeline. -/
def State.sealRun (s : State) (q : Nat) (c : RqCmd) (data : List Byte) : State :=
  let n := sealSlot c
  let k := s.keySlot n
  if k.st = 0 then s.finishCmd q 0x41 0
  else if 2 ^ 32 ≤ k.ivNext then (s.raise 6 6).finishCmd q 0x45 0
  else if 1048575 < c.length then s.finishCmd q 0x48 0
  else if data.length < c.length then s.finishCmd q stDmaError 0
  else
    let (iv, s) := s.takeIv n
    let o := sealObject (keyBytes k.key) n iv c.w7.toNat (data.take c.length)
    if !s.pcieUp then s.finishCmd q stDmaError 0
    else ((s.cphCount 2).emit (.dmaBytes c.w6 o)).finishCmd q stOk (o.length + iv * 2 ^ 32)

/-- An unseal has a pipeline. -/
def State.unsealRun (s : State) (q : Nat) (c : RqCmd) (data : List Byte) : State :=
  let n := sealSlot c
  let k := s.keySlot n
  if k.st = 0 then s.finishCmd q 0x41 0
  else if 1048704 < c.length then s.finishCmd q 0x48 0
  else if data.length < c.length then s.finishCmd q stDmaError 0
  else match unsealObject (keyBytes k.key) n c.w7.toNat (data.take c.length) with
    | .error e => ((s.cphCount 4).raise 6 7).finishCmd q e 0
    | .ok p =>
      if !s.pcieUp then s.finishCmd q stDmaError 0
      else ((s.cphCount 3).emit (.dmaBytes c.w6 p)).finishCmd q stOk p.length

/-- Sealed-object work waits (R388): no pipeline is allowed to it, or a flush has every one. -/
def State.sealHolds (s : State) : Bool := s.rd CPH_ALLOC_SEAL_MAX == 0 || s.dur.flush.isSome

/-- A seal or an unseal runs, or waits for a pipeline. -/
def State.sealGo (s : State) (q : Nat) (c : RqCmd) (data : List Byte) : State :=
  if s.sealHolds then { s with cph := { s.cph with held := s.cph.held ++ [(q, c, data, s.mono)] } }
  else if c.opcode = 0x44 then s.sealRun q c data else s.unsealRun q c data

/-- Held work runs once a pipeline is allowed to it, and its waiting counts. -/
def State.sealRelease (s : State) : State :=
  if s.sealHolds then s
  else
    let hs := s.cph.held
    hs.foldl (fun (s : State) h => (s.cphCount 7 (s.mono - h.2.2.2)).sealGo h.1 h.2.1 h.2.2.1)
      { s with cph := { s.cph with held := [] } }

/-- CPH_SEAL (R399). -/
def State.cphSeal (s : State) (q : Nat) (data : List Byte) : State :=
  s.blockCmd q 0x06 0x44 false (fun c => c.w1 == 0 && c.count == 0 && bits c.w5 63 1 == 0 && bits c.w6 5 0 == 0) (fun s _ c => s.sealGo q c data)

def execCphSeal (q : Nat) (data : List Byte) (s : State) : Res := .next (s.cphSeal q data)

/-- CPH_UNSEAL (R400). -/
def State.cphUnseal (s : State) (q : Nat) (data : List Byte) : State :=
  s.blockCmd q 0x06 0x45 false (fun c => c.w1 == 0 && c.count == 0 && bits c.w5 63 1 == 0) (fun s _ c => s.sealGo q c data)

def execCphUnseal (q : Nat) (data : List Byte) (s : State) : Res := .next (s.cphUnseal q data)

end Sys2Proof.Machine
end

