-- ==== Sys2Proof/Machine/ResetOps.lean ====
section
/-! DEFINITION. Resets and stops: what the always-on domain, the boot store and NAND keep, the device reset, power-on, the
rail sequencer, immediate stops, PCIe resets (R405 to R407, R471 to R475). -/

namespace Sys2Proof.Machine

/-! ### The event recorder at a stop -/

/-- Every event on its way reaches the recorder. -/
def State.recordAll (s : State) : State :=
  let es := s.evInbox
  es.foldl (fun s e => s.recordEvent e) { s with evInbox := [] }

/-- The full ember record of a stop, with the events raised up to it. -/
def State.emberStop (s : State) (stop : Nat) : State := s.recordAll.emberFull stop

/-! ### The steward link -/

/-- The steward link is down (R446, R447). -/
def State.pcieLost (s : State) : State :=
  if s.pcieUp then
    let s := { s with pcieUp := false }.inc MGI_PCIE_STAT_DOWN_COUNT 1
    ((s.wr MGI_PCIE_STAT_UP 0).wr MGI_PCIE_STAT_GEN 0).wr MGI_PCIE_STAT_WIDTH 0
  else s

/-- Every Rister queue returns to IDLE with EN 0 at once (R405): a command in execution runs to its end and posts nothing, the
others are discarded. -/
def State.queuesIdle (s : State) : State :=
  (List.range 4).foldl (fun s q =>
    let r := s.rq q
    let s := s.setRq q { ghost := r.ghost || r.running }
    let s := (s.wr GLB_RQ_CTRL_EN 0 0 (rqOff q)).wr GLB_RQ_STAT_STATE 0 0 (rqOff q)
    (s.wr GLB_RQ_STAT_ERR 0 0 (rqOff q)).wr GLB_RQ_STAT_ERR_INDEX 0 0 (rqOff q)) s

/-- PERST, or a function-level reset (R405, R446): the steward link retrains, the MSI-X table is cleared, the queues are
IDLE. -/
def State.perst (s : State) : State :=
  let s := s.pcieLost.queuesIdle
  let s : State := { s with msixMask := 0xFFFFFFFFFFFFFFFF, msixPend := 0, msixTab := [] }
  s.inc GLB_RESET_CAUSE_PERST_COUNT 1

/-! ### What is kept -/

/-- What NAND keeps of the media manager's state (R266 to R268, R285 to R289). -/
def Media.kept (m : Media) : Media :=
  { units := m.units, sbs := m.sbs, bad := m.bad, rsv := m.rsv, jseq := m.jseq, durMap := m.durMap, journal := m.journal, ckpt := m.ckpt, opened := m.opened
    dieRec := m.dieRec, stats := m.stats.map (fun (e : Nat × DieStat) => (e.1, { bad := e.2.bad, erases := e.2.erases })) }

/-- What the boot store keeps of the key slots: an invocation counter resumes at the value recorded (R393, R398). -/
def Cipher.kept (c : Cipher) : Cipher :=
  { slots := c.slots.map (fun (e : Nat × KeySlot) => (e.1, { e.2 with ivNext := e.2.ivRec })) }

/-- The block being written stays without VERIFIED, so it is INVALID (R423). -/
def Boot.kept (b : Boot) : Boot := { b with writing := none, bytes := 0, trialAt := none }

/-- Registers the always-on domain and the boot store keep over a device reset (R406, R487). -/
def State.keptRegs (s : State) : NMap Word64 :=
  let t : State := { twinB := s.twinB }
  let t := t.wr GLB_RESET_CAUSE_PERST_COUNT (s.rd GLB_RESET_CAUSE_PERST_COUNT)
  let t := t.wr PWR_RAIL_STAT_LAST_FAULT (s.rd PWR_RAIL_STAT_LAST_FAULT)
  let t := t.wr MGI_PCIE_STAT_DOWN_COUNT (s.rd MGI_PCIE_STAT_DOWN_COUNT)
  (([regKey 2 0x140, regKey 2 0x148, regKey 3 0x108, regKey 3 0x110].foldl (fun (t : State) k => t.setReg k (s.reg k)) t)).regs

/-- The machine with everything gone that no domain keeps: time, straps, the boot store, NAND and the recorder stay. -/
def State.fresh (s : State) : State :=
  { mono := s.mono, tbOff := s.tbOff, twinB := s.twinB, regs := s.keptRegs, out := s.out, evInbox := s.evInbox, freeNext := s.freeNext
    rec_ := s.rec_, boot := s.boot.kept, cph := s.cph.kept, media := s.media.kept, tier := { retiredRec := s.tier.retiredRec }
    dur := { last := s.dur.last, newest := s.dur.newest, image := s.dur.image }
    rails := s.rails, thm := { lifeSum := s.thm.lifeSum, sampleAt := s.mono, hourAt := s.mono }, pwr := { off := s.pwr.off }
    ccx := { smbOff := s.ccx.smbOff, i3c := s.ccx.i3c, wdAt := s.mono }, pending := s.pending }

/-- What of a flush in progress is durable when it is cut short: a prefix of its units whose length nothing states. -/
def State.cutFlush (s : State) : State :=
  match s.dur.flush with
  | none => s
  | some f =>
    if s.dur.newest = 2 then
      let (k, s) := s.takeFree
      let n := Config.freeNat k % (f.units.length + 1)
      { s with dur := { s.dur with flush := none, last := some { f with units := f.units.take n } } }
    else { s with dur := { s.dur with flush := none } }

/-! ### Rails (R471, R472) -/

/-- RAIL_STAT.STATE: GOOD, RAMPING, OFF. -/
def State.railStat (s : State) : State :=
  let st (r : Nat) : Nat := if s.rails.good.contains r then 2 else if s.rails.en.contains r then 1 else 0
  s.wr PWR_RAIL_STAT_STATE ((List.range 12).map (fun r => st r * 16 ^ r)).sum

/-- Rails a step of the sequencer enables. -/
def stepRails : Nat → List Nat
  | 2 => [1] | 3 => [2, 3] | 4 => [4, 5, 10] | 5 => [7, 9] | 6 => [6] | _ => []

/-- The sequencer enters a step. -/
def State.seqStep (s : State) (n : Nat) : State :=
  { s with rails := { s.rails with step := n, stepAt := s.mono, en := s.rails.en ++ stepRails n } }.railStat

/-- The sequencer starts with VAON and VAIO good. -/
def State.seqStart (s : State) : State :=
  let s : State := { s with rails := { en := [], good := [0, 11] }, pwr := { s.pwr with off := true } }
  (s.wr GLB_START_STAT_PHASE 1).seqStep 2

/-- Every rail the sequencer enables is good. -/
def State.railsUp (s : State) : Bool := (List.range 12).all (fun r => s.rails.good.contains r)

/-- The steps follow one another as power-good inputs rise; VSRT follows VSRD and VSWD (R471). -/
def State.seqGo (s : State) : State :=
  let ok (l : List Nat) : Bool := l.all (fun r => s.rails.good.contains r)
  match s.rails.step with
  | 1 => if ok [0, 11] then s.seqStep 2 else s.railStat
  | 5 =>
    if !ok [7, 9] then s.railStat
    else if !s.rails.en.contains 8 then
      { s with rails := { s.rails with en := s.rails.en ++ [8], stepAt := s.mono } }.railStat
    else if ok [8] then s.seqStep 6
    else s.railStat
  | 2 | 3 | 4 | 6 => if ok (stepRails s.rails.step) then s.seqStep (s.rails.step + 1) else s.railStat
  | _ => s.railStat

/-- The U96 has no power but the always-on rails (R472): what the other domains held is gone, the pages of the always-on
domain keep their registers. -/
def State.powerDown (s : State) : State :=
  let s := s.cutFlush.pcieLost
  let keep := s.regs.filter (fun e => decide (e.1 < 0x40000) || (decide (0xF0000 ≤ e.1) && decide (e.1 < 0x100000)))
  let t : State := { s.fresh with regs := keep, rails := { step := 0, en := [], good := [0, 11] }, pwr := { off := true } }
  ((t.setStat 0 0 false).setStat 1 0 (t.ready 1)).railStat

/-- A rail is not good in time, or falls, during the sequence (R471). -/
def State.seqFail (s : State) (r : Nat) : State :=
  let s := ((s.wr PWR_RAIL_STAT_LAST_FAULT r).wr GLB_START_STAT_FAIL 6).raise 1 2
  { s with rails := { s.rails with step := 0, en := [], good := [0, 11] } }.railStat

/-- An immediate stop (R473, R475, R484): every enable drops at once; the always-on domain writes the final record and the
full one. -/
def State.immediateStop (s : State) (rail : Nat) : State :=
  let s := s.wr PWR_RAIL_STAT_LAST_FAULT rail
  let phase := s.rd GLB_START_STAT_PHASE
  let s := if phase < 12 then s.wr GLB_START_STAT_FAIL 6 else s
  (s.recordAll.emberFinal rail).powerDown

/-! ### Resets (R405, R406) -/

/-- START_STAT.ELAPSED_MS starts again (R406); the boot ROM starts, or the sequencer where the rails are down. -/
def State.startAgain (s : State) : State :=
  let s : State := { s with boot := { s.boot with startAt := s.mono, elapsed := none } }
  if s.pwr.off then s.seqStart
  else
    let s := ((s.wr GLB_START_STAT_PHASE 2).setStat 1 1 false).railStat
    s.wr PWR_OP_STAT_CAUSE 4

/-- A device reset of a cause: what is charged is discarded, except by a reset in STOPPED and by FLUSH_RESTART (R407). -/
def State.deviceReset (s : State) (cause : Nat) : State :=
  let forced := s.rd TIR_DIRTY_CHARGED_BYTES != 0 && cause != 5 && s.flushSt != 7
  let s := s.cutFlush.pcieLost.freezeOff
  let t := s.fresh
  let t := (t.wr GLB_RESET_CAUSE_CAUSE cause).wr GLB_RESET_CAUSE_FORCED (b2n forced)
  t.startAgain

/-- Power-on (R405): the always-on domain is reset too, TB_NS restarts at 0, the recorder is empty. -/
def State.powerOn (s : State) : State :=
  let s := s.cutFlush
  let life : State := [regKey 2 0x140, regKey 2 0x148].foldl (fun (t : State) k => t.setReg k (s.reg k)) {}
  let t : State := { s.fresh with regs := life.regs, rec_ := {}, evInbox := [], tbOff := -(s.mono : Int), pwr := { off := true } }
  t.startAgain

/-- The end of a start-up that cannot continue (R426). -/
def State.startHalt (s : State) (fail : Nat) : State :=
  (((s.wr GLB_START_STAT_FAIL fail).wr GLB_START_STAT_PHASE 0x21).raise 4 9).emberStop 4

end Sys2Proof.Machine
end

