-- ==== Sys2Proof/Machine/Twin.lean ====
section
/-! DEFINITION. The payload rows of the link and of twin operation (14_twin_operation.md, 13_swidun_link.md): epochs and
seals, forwarding, heartbeats and loss, the handshake, resynchronisation, the MIR commands. -/

namespace Sys2Proof.Machine

/-! ### Receiving a frame -/

/-- Receives a frame on a strand and delivers what its VC may now deliver, in order (R328, R329). -/
def State.takeLink (s : State) (n : Nat) (h : LinkHdr) (b : LinkBody) (f : State → LinkHdr → LinkBody → State) : State :=
  if 8 ≤ n then s
  else
    let (s, fs) := s.receive n h b
    let s := fs.foldl (fun s x => f s x.hdr x.body) s
    (s.offCheck n).twinGo

/-- Changes what has arrived of an epoch of the twin; an epoch already applied takes nothing more. -/
def State.modIncoming (s : State) (n : Nat) (f : Incoming → Incoming) : State :=
  if n ≤ s.pair.appliedTo then s
  else
    let l := s.pair.incoming
    let l := if l.any (fun i => i.n == n) then l else l ++ [({ n := n } : Incoming)]
    { s with pair := { s.pair with incoming := l.map (fun i => if i.n = n then f i else i) } }

/-! ### Epochs (R350 to R352) -/

/-- EPOCH_DATA: its records join the incoming share of its epoch. -/
def State.takeData (s : State) (n : Nat) (rs : List EpochRec) : State :=
  s.modIncoming n (fun i => { i with recs := i.recs ++ rs, blocks := i.blocks + divUp (rs.map recBytes).sum 64 })

/-- The monotonic time of a TB_NS of this twin. -/
def State.monoOf (s : State) (tb : Nat) : Nat := ((tb : Int) - s.tbOff).toNat

/-- SEAL n (R350, R352): it closes this twin's epoch n where it is still open, lowers the next deadline to its own, and lets
the apply of n start. -/
def State.takeSealFrame (s : State) (n : Nat) (m : SealMsg) : State :=
  let s := s.modIncoming n (fun i => { i with sealed := some m })
  let s : State := if m.final then { s with pair := { s.pair with finalSeen := true } } else s
  let s := match s.openSlot with
    | some e => if e.n = n then s.closeEpoch true false false else s
    | none => s
  let d := s.monoOf m.closeTb + s.rd MIR_EPOCH_NS_NS
  let s : State := if s.pair.openEpoch = n + 1 then { s with pair := { s.pair with deadline := min s.pair.deadline d } } else s
  s.applyNext

/-- A payload of the link is taken, by its type. -/
def State.takeEpochFrame (s : State) (h : LinkHdr) : LinkBody → State
  | .epochData rs => s.takeData h.epoch rs
  | .seal m => s.takeSealFrame h.epoch m
  | _ => s

def execEpochData (strand : Nat) (h : LinkHdr) (recs : List EpochRec) (s : State) : Res :=
  .next (s.takeLink strand h (.epochData recs) (fun s h b => (s.takeEpochFrame h b).applyNext))

def execSeal (strand : Nat) (h : LinkHdr) (m : SealMsg) (s : State) : Res :=
  .next (s.takeLink strand h (.seal m) (fun s h b => s.takeEpochFrame h b))

/-- Every record of a started epoch is placed (R352): SEAL_ACK, its credit, its counters; a FINAL seal that is no drill's
declares loss at once, a DRILL seal starts the takeover (R305, R354, R363). -/
def State.epochApplied (s : State) : State :=
  match s.pair.incoming.find? (fun i => i.started) with
  | none => s
  | some i =>
    if s.dp.ops.any (fun o => o.for_ == .apply) then s
    else
      let s : State := { s with pair := { s.pair with
          incoming := s.pair.incoming.filter (fun x => x.n != i.n), appliedTo := i.n, epochs := s.pair.epochs.map (fun e => if e.n = i.n then { e with applied := true } else e), seals := match i.sealed with | some m => s.pair.seals ++ [(i.n, m)] | none => s.pair.seals } }
      let s := ((s.twinCtr 3).twinCtr 4 (s.mono - i.startedAt)).oweCredit 1 i.blocks
      let s := s.sendLink i.n .sealAck
      let s := s.twinGo
      match i.sealed with
      | some m =>
        if m.drill then s.takeover 4
        else if m.final && s.dur.flush.isNone then (s.declareLoss 2).twinGo
        else s.applyNext.twinGo
      | none => s

def execEpochApplied (s : State) : Res := .next s.epochApplied

/-- SEAL_ACK n (R159): this twin's epoch n is acknowledged. -/
def State.takeSealAck (s : State) (n : Nat) : State :=
  match s.pair.epochs.find? (fun e => e.n == n) with
  | some e =>
    match e.closed with
    | some t =>
      let s : State := { s with pair := { s.pair with epochs := s.pair.epochs.map (fun x => if x.n = n then { x with acked := true } else x) } }
      (s.twinCtr 2 (s.mono - t)).pmuCount 0xB 1 0 0 (s.mono - t)
    | none => s
  | none => s

def execSealAck (strand : Nat) (h : LinkHdr) (s : State) : Res :=
  .next (s.takeLink strand h .sealAck (fun s h _ => s.takeSealAck h.epoch))

/-- EPOCH_CLOSE (R350): the deadline of the open epoch. -/
def State.epochClose (s : State) : State :=
  if s.openSlot.isNone then s
  else ((s.upTo s.pair.deadline).closeEpoch false false false).applyNext.twinGo

def execEpochClose (s : State) : Res := .next s.epochClose

/-! ### Forwarded operations at the owner (R346, R347) -/

/-- Kind of a forwarded operation. -/
def fwdKind (m : FwdReqMsg) : OpKind :=
  match m.op with
  | .read => .read | .write => .write | .cas => .cas | .fadd => .fadd | _ => .atomicWrite

/-- Bytes a forwarded operation reserves at the owner (R163). -/
def fwdNeed (m : FwdReqMsg) : Nat :=
  match m.op with
  | .read => 0 | .write => m.len | _ => 64

/-- RNR causes of a FWD_RESP (R346). -/
def rnrCode : Rnr → Nat
  | .budget => 1 | .window => 2 | .quota => 3 | .region => 4 | .recv => 4

/-- Answers a forwarded operation at once, giving back its VC2 credit (R330). -/
def State.fwdAnswer (s : State) (m : FwdReqMsg) (st : FwdStatus) (r : Word64) : State :=
  let ep := s.stageEpoch.getD s.pair.openEpoch
  (s.oweCredit 2 (max 1 (divUp m.data.length 64))).sendLink ep (.fwdResp { qpn := m.qpn, psn := m.psn, seg := m.seg, status := st, data := [], result := r })

/-- Cells of the link that a FWD_REQ frame takes (R73, R78). -/
def fwdCells (m : FwdReqMsg) : Nat := cellsOf (64 * (max 1 (LinkBody.blocks (.fwdReq m)) + 1))

/-- The operation is kept as done (R347): its result is returned and it is not executed again. -/
def State.keptOf (s : State) (m : FwdReqMsg) : Option Kept :=
  s.pair.kept.find? (fun k => k.qpn == m.qpn && k.psn == m.psn && k.seg == m.seg && m.op != .read)

/-- Memory operations of the pool: those an owner executes. -/
def onPool (m : FwdReqMsg) : Bool :=
  match m.op with | .protWrite => false | .discard => false | .stop => false | _ => true

/-- The owner refuses an operation of the pool: it does not own the region, or serves it not. Budget and quotas are tested once per message,
at its home (R163, R187, R228, R232). -/
def State.fwdRefused (s : State) (m : FwdReqMsg) : Option FwdStatus :=
  let r := regionOf m.poolOff
  if !s.owns r then some .notOwner else if !(s.region r).served then some (.rnr 4) else none

/-- The reservation of a forwarded write is made at the owner as its first frame arrives (R187). -/
def State.fwdReserve (s : State) (m : FwdReqMsg) : State :=
  if m.first && onPool m && (s.keptOf m).isNone && (s.fwdRefused m).isNone && fwdNeed m != 0 then s.reserveAt m.tenant m.poolOff (fwdNeed m) else s

/-- A whole forwarded operation is executed here, or answered without (R346, R347). Its frames hold so many cells of the link until it is
placed (R78). -/
def State.fwdExecute (s : State) (m : FwdReqMsg) (cells : Nat) : State :=
  let s := s.twinCtr 6
  let free (s : State) : State := (s.subLink cells).afterFree 96
  match s.keptOf m with
  | some k =>
    ((free s).oweCredit 2 (max 1 (divUp m.data.length 64))).sendLink k.epoch (.fwdResp { qpn := m.qpn, psn := m.psn, seg := m.seg, status := .done, data := [], result := k.result })
  | none =>
    match m.op with
    | .protWrite => ((free s).oweCredit 2 (LinkBody.blocks (.fwdReq m))).protServe m
    | .stop => ((free s).oweCredit 2 1).stopBegins
    | .discard =>
      let r := regionOf m.poolOff
      if !s.owns r then (free s).fwdAnswer m .notOwner 0
      else
        let (s, n) := s.discardRange (m.poolOff / 4096) (m.len / 4096)
        (free s).fwdAnswer m .done (BitVec.ofNat 64 n)
    | _ =>
      match s.fwdRefused m with
      | some st => (free s).fwdAnswer m st 0
      | none =>
        s.addOp { id := 0, for_ := .fwd m.qpn m.psn m.seg, kind := (fwdKind m), psn := m.psn, seg := m.seg, cls := m.cls, tenant := m.tenant, pool := m.poolOff, len := m.len, data := m.data, cmp := m.a, swap := m.b, linkCells := cells }

/-- FWD_REQ: each frame takes cells of the link; frames of one WRITE are put together; a U96 whose ingress is closed drops it (R73, R78,
R304 step 1). -/
def State.takeFwdReq (s : State) (m : FwdReqMsg) : State :=
  if s.ingressClosed || s.role == 5 then s
  else
    let s := ((s.addLink (fwdCells m)).fwdReserve m).askIn .forwarded (s.rd HTH_PART_PKT_BASE_MIB) s.hearth.layout.pkt (4 * fwdCells m)
    let same (x : FwdReqMsg) : Bool := x.qpn == m.qpn && x.psn == m.psn && x.seg == m.seg
    let old : List FwdReqMsg := if m.first then [] else s.link.partial_.filter same
    let stale := if m.first then ((s.link.partial_.filter same).map fwdCells).sum else 0
    let rest := s.link.partial_.filter (fun x => !same x)
    let s := s.subLink stale
    if m.last then
      ({ s with link := { s.link with partial_ := rest } }).fwdExecute { m with data := old.flatMap (fun x : FwdReqMsg => x.data) ++ m.data }
        ((old.map fwdCells).sum + fwdCells m)
    else { s with link := { s.link with partial_ := rest ++ old ++ [m] } }

def execFwdReq (strand : Nat) (h : LinkHdr) (m : FwdReqMsg) (s : State) : Res :=
  .next (s.takeLink strand h (.fwdReq m) (fun s _ b => match b with | .fwdReq m => s.takeFwdReq m | _ => s))

/-! ### The owner's answer at the home (R346) -/

/-- A forwarded operation's reservation at the home ends: what the owner placed it has charged (R187, R232). -/
def State.fwdRelease (s : State) (m : FwdReqMsg) : State :=
  let n := fwdNeed m
  let s := s.wr TIR_DIRTY_RESERVED_BYTES (s.rd TIR_DIRTY_RESERVED_BYTES - n)
  let t := s.tenant m.tenant
  s.setTenant m.tenant { t with fwdRsv := t.fwdRsv - n }

/-- Bytes of a READ's answer as lines of the operation. -/
def Op.linesOf (o : Op) (data : List Byte) : NMap Line :=
  (o.readLines).foldl (fun m l =>
    let a := max o.pool (64 * l)
    let b := min (o.pool + o.len) (64 * l + 64)
    NMap.insert m l (linePut 0 (a - 64 * l) ((data.drop (a - o.pool)).take (b - a)))) []

/-- An RNR NAK for a request already taken (R161, R346): it and every later request of the QP are discarded without effect,
the message stands as before the request, EPSN is its PSN. -/
def State.rnrBack (s : State) (n psn cause : Nat) : State :=
  let ops := (s.qpOps n).dropWhile (fun o => o.psn != psn)
  match ops with
  | [] => s
  | o :: _ =>
    let ids := ops.map (fun x => x.id)
    let s := ops.foldl (fun s x => (s.unreserveOp x).freeOpCells x) s
    let gone := readsIn ops + (ops.filter (fun x => x.kind == .cas || x.kind == .fadd)).length
    let s := s.setQf n 2 30 24 (s.qf n 2 30 24 - gone)
    let s : State := { s with pair := { s.pair with
        fwdOut := s.pair.fwdOut.filter (fun f => !ids.contains f.op), fwdQueue := s.pair.fwdQueue.filter (fun f => !ids.contains f.op) } }
    let s := ((s.removeOps ids).dropMsg n).smpDiscard n psn
    let s := match o.before with
      | some m =>
        let s := s.reserve m.tenant m.nextPool m.reserve
        let s : State := match m.stamp with
          | some st => { s with prot := { s.prot with holds := s.prot.holds ++ [(st, n, m.key)] } }
          | none => s
        s.modQp n (fun q => { q with msg := some m })
      | none => s
    let s := (s.setQf n 1 55 32 psn).modQp n (fun q => { q with nakSent := false })
    let s := s.rnrCount (match cause with | 1 => .budget | 2 => .window | 3 => .quota | _ => .region)
    s.addOp { o with kind := .nak (0x20 + s.rd TIR_RNR_TIMER_CODE), cells := 0, issued := true, placed := true, toTwin := false, left := 0, bad := [], epoch := none, stamp := none }

/-- Cells of the link that hold a FWD_RESP's payload until what is built from it has left (R73, R78). -/
def fwdRespCells (m : FwdRespMsg) : Nat := cellsOf (64 * (LinkBody.blocks (.fwdResp m) + 1))

/-- Cells of the link that a forwarded READ's operation holds for what it received. -/
def State.holdResp (s : State) (op n : Nat) : State :=
  match s.op? op with
  | some _ => (s.addLink n).modOp op (fun o => { o with linkCells := o.linkCells + n })
  | none => s

/-- A forwarded operation is answered (R346). An RNR answer to a packet that is not its message's first sends the operation again: only a
First draws an RNR NAK (R163). -/
def State.fwdAnswered (s : State) (f : FwdOut) (h : LinkHdr) (m : FwdRespMsg) : State :=
  let s : State := { s with pair := { s.pair with fwdOut := s.pair.fwdOut.filter (fun x => x.op != f.op) } }
  match m.status, s.op? f.op with
  | _, none => s.fwdRelease f.msg
  | .done, some o =>
    let waits := f.msg.op != .read && f.msg.cls == 0
    let ep := if waits then some h.epoch else none
    ((s.fwdRelease f.msg).noteUnsealed f.op ep).modOp f.op (fun _ =>
      { o with left := 0, placed := true, result := m.result, got := o.linesOf m.data, epoch := ep })
  | .poison, some _ => (s.fwdRelease f.msg).modOp f.op (fun o => { o with left := 0, placed := true, bad := [o.pool / 64] })
  | .notOwner, some _ => s.modOp f.op (fun o => { o with issued := false, toTwin := false, left := 0, placed := false })
  | .rnr c, some o =>
    match o.for_, o.before with
    | .host n, none => s.rnrBack n o.psn c
    | _, _ => s.modOp f.op (fun o => { o with issued := false, toTwin := false, left := 0, placed := false })

/-- FWD_RESP (R346): of an operation of a QP or chain, a READ's data in frames of up to 16 blocks (R326), of a protection write, of a discard. -/
def State.takeFwdResp (s : State) (h : LinkHdr) (m : FwdRespMsg) : State :=
  let s := s.oweCredit 3 (LinkBody.blocks (.fwdResp m))
  match s.pair.fwdOut.find? (fun f => f.msg.qpn == m.qpn && f.msg.psn == m.psn && f.msg.seg == m.seg) with
  | some f =>
    let s := if f.msg.op = .read then s.holdResp f.op (fwdRespCells m) else s
    let got := f.got ++ m.data
    if f.msg.op = .read && m.status == .done && decide (got.length < f.msg.len) then
      { s with pair := { s.pair with fwdOut := s.pair.fwdOut.map (fun x => if x.op = f.op then { x with got := got } else x) } }
    else s.fwdAnswered f h { m with data := got }
  | none =>
    if s.prot.waits.any (fun w => w.q == m.psn && w.asked) && m.qpn == 0 then s.protAnswer m.psn m.result
    else if m.qpn == 0 then s.modTir m.psn (fun c => { c with fwd := c.fwd - 1 })
    else s

def execFwdResp (strand : Nat) (h : LinkHdr) (m : FwdRespMsg) (s : State) : Res :=
  .next (s.takeLink strand h (.fwdResp m) (fun s h b => match b with | .fwdResp m => s.takeFwdResp h m | _ => s))

/-! ### Heartbeats (R353, R354) -/

/-- HEARTBEAT: the loss timer restarts. A receiving twin learns from the source's pair generation that the copy is complete
(R361; log 34). -/
def State.takeHeartbeat (s : State) (m : HeartbeatMsg) : State :=
  let s : State := { s with pair := { s.pair with lastHb := some s.mono, twinHb := some m } }
  let own := s.rd MIR_PAIR_GEN_VALUE
  if s.role = 6 && m.pairGen == own + 1 && !m.standby && !m.takingOver then (s.wr MIR_PAIR_GEN_VALUE (own + 1)).raise 0xB 10 |>.enterPaired
  else if s.role = 7 && s.pair.mutualDelta && !s.pair.resyncOn && m.pairGen == own then s.enterPaired
  else s

def execHeartbeat (strand : Nat) (h : LinkHdr) (m : HeartbeatMsg) (s : State) : Res :=
  .next (s.takeLink strand h (.heartbeat m) (fun s _ b => match b with | .heartbeat m => s.takeHeartbeat m | _ => s))

/-- HEARTBEAT_SEND (R353): EPOCH_NS since the last one without a close. -/
def execHeartbeatSend (s : State) : Res :=
  .next (if s.linkState = 0 || !s.pair.opened then s else (s.upTo (s.pair.lastHbSent + s.rd MIR_EPOCH_NS_NS)).sendHeartbeat)

/-- HB_LOSS (R353, R354). -/
def State.hbLoss (s : State) : State :=
  match s.pair.lastHb with
  | some t =>
    if !s.paired || s.pair.lossWait then s
    else (((s.upTo (t + s.rd MIR_HB_MISS_MISS * s.rd MIR_EPOCH_NS_NS)).raise 0xB 4).onLoss).twinGo
  | none => s

def execHbLoss (s : State) : Res := .next s.hbLoss

/-! ### Time and keys -/

def execTime (strand : Nat) (h : LinkHdr) (m : TimeMsg) (s : State) : Res :=
  .next (s.takeLink strand h (.time m) (fun s _ b => match b with | .time m => s.timeTake m | _ => s))

def execKeyNext (strand : Nat) (h : LinkHdr) (gen : Nat) (s : State) : Res :=
  .next (s.takeLink strand h (.keyNext gen) (fun s _ b => match b with | .keyNext g => s.keyNextTake g | _ => s))

/-! ### The handshake (R343, R344) -/

/-- HANDSHAKE: decided on once this twin has sent its own; before step 11 of the start-up order it is kept until then. A
repeat of one already decided on changes nothing. -/
def State.takeHandshake (s : State) (m : HandshakeMsg) : State :=
  if s.pair.twinHello.isSome then s
  else if s.rd GLB_START_STAT_PHASE < 11 then s
  else
    let s := if s.pair.hsSentAt.isSome then s else s.sendHandshake
    s.decide_ m

def execHandshake (strand : Nat) (h : LinkHdr) (m : HandshakeMsg) (s : State) : Res :=
  .next (s.takeLink strand h (.handshake m) (fun s _ b => match b with | .handshake m => s.takeHandshake m | _ => s))

/-- HANDSHAKE_REPEAT (R343): every 1 ms until the twin's arrives. -/
def State.handshakeRepeat (s : State) : State :=
  match s.pair.hsSentAt, s.pair.twinHello with
  | some t, none => (s.upTo (t + ms 1)).sendHandshake
  | _, _ => s

def execHandshakeRepeat (s : State) : Res := .next s.handshakeRepeat

/-- SOLO_WAIT_EXPIRY (R4): never with SOLO_WAIT 0, nor in CONFLICT. -/
def State.soloExpiry (s : State) : State :=
  match s.pair.waitSince with
  | some t =>
    let w := s.rd MIR_SOLO_WAIT_S
    if w = 0 || s.role != 0 || s.pair.conflict || s.rd GLB_START_STAT_PHASE != 11 then s
    else (s.upTo (t + w * 1000000000)).openSolo
  | none => s

def execSoloWaitExpiry (s : State) : Res := .next s.soloExpiry

/-! ### Resynchronisation (R357 to R361) -/

/-- A RESYNC frame: a quarter of a page goes with its epoch; the standby's change list joins the source's plan. -/
def State.takeResync (s : State) (h : LinkHdr) (m : ResyncMsg) : State :=
  match m with
  | .quarter .. => ((s.modIncoming h.epoch (fun i => { i with resync := i.resync ++ [m] })).oweCredit 3 (LinkBody.resync m).blocks).applyNext
  | .changeList cs =>
    let s := s.oweCredit 3 (LinkBody.resync m).blocks
    if s.role = 7 && s.pair.listWait then
      match s.pair.resyncPlan with
      | some p =>
        let all := (p ++ cs.filter (fun c => !p.contains c))
        let n := ((all.map (fun c => c / 4096)).eraseDups).length
        let total := s.rd TIR_POOL_CFG_REGIONS
        let s := (s.wr MIR_RESYNC_STAT_LEFT n).wr MIR_RESYNC_STAT_DONE (total - n)
        { s with pair := { s.pair with resyncPlan := some all, listWait := false } }
      | none => { s with pair := { s.pair with listWait := false } }
    else s

def execResync (strand : Nat) (h : LinkHdr) (m : ResyncMsg) (s : State) : Res :=
  .next (s.takeLink strand h (.resync m) (fun s h b => match b with | .resync m => s.takeResync h m | _ => s))

/-- A page is in a resynchronisation's plan: every page, or those of its chunks (R358). -/
def State.inPlan (s : State) (p : Nat) : Bool :=
  match s.pair.resyncPlan with
  | some cs => cs.contains (p / 64)
  | none => true

/-- The last page of a region that the plan copies. -/
def State.lastInPlan (s : State) (r : Nat) : Nat :=
  match s.pair.resyncPlan with
  | some cs => (cs.filter (fun c => c / 4096 == r)).foldl max 0 * 64 + 63
  | none => r * 2 ^ 18 + 2 ^ 18 - 1

/-- The next page a resynchronisation copies: the lowest of the plan from where the copy stands (R358). -/
def State.nextCopy (s : State) : Option Nat :=
  let a := s.pair.resyncAt
  match s.pair.resyncPlan with
  | none => if a < s.tier.poolRegions * 2 ^ 18 then some a else none
  | some cs =>
    cs.foldl (fun best c =>
      let p := if c * 64 ≤ a && a < c * 64 + 64 then some a else if a < c * 64 then some (c * 64) else none
      match best, p with
      | some x, some y => some (min x y)
      | none, y => y
      | x, none => x) none

/-- A page as a resynchronisation reads it: each line's latest value, or the unit on NAND. -/
def State.copyLines (s : State) (p : Nat) : List Line :=
  let e := s.pte p
  match e.st with
  | .zero => []
  | .media | .fetching =>
    match NMap.find s.media.units e.media with
    | some u => u.lines.map (fun l => l.data)
    | none => List.replicate 64 0
  | _ => (List.range 64).map (fun j => (s.flushValue (64 * p + j)).data)

/-- RESYNC_COPY (R359): the next page leaves in four frames tagged with the open epoch; not while one of its lines is
UNSEALED, nor at SHUT, whose rates stop damper class 3. The copy keeps RATE_GBPS. -/
def State.resyncCopy (s : State) (p : Nat) : State :=
  if s.role != 7 || !s.pair.resyncOn || s.pair.listWait || s.nextCopy != some p || s.pageUnsealed p || s.hearth.level == 2 then s
  else match s.openSlot with
    | none => s
    | some e =>
      let s := s.upTo (s.pair.lastCopy + 4096 / max 1 (s.rd MIR_RESYNC_CFG_RATE_GBPS))
      let ls := s.copyLines p
      let t := (s.pte p).tenant
      let r := regionOf (4096 * p)
      let fin := p == s.lastInPlan r
      let zero := ls.isEmpty
      let s := (List.range 4).foldl (fun s q =>
        s.sendLink e.n (.resync (.quarter p t zero fin q (if zero then [] else (ls.drop (16 * q)).take 16)))) s
      let queued := (s.link.queue.filter (fun f => f.vc == 3)).length
      let s := s.twinCtr 7
      let s : State := { s with pair := { s.pair with
          resyncAt := p + 1, lastCopy := s.mono, resyncVseq := some (e.n, NMap.getD s.link.nextVseq 3 1 - 1 + queued), resyncDone := if fin then s.pair.resyncDone ++ [(r, e.n)] else s.pair.resyncDone } }
      s.twinGo

def execResyncCopy (page : Nat) (q : List Line) (s : State) : Res := .next (let _ := q; s.resyncCopy page)

/-! ### Commands (R365) -/

/-- A takeover, a move or a resynchronisation runs (R365 BUSY). -/
def State.mirBusy (s : State) : Bool :=
  s.role == 3 || !s.pair.moves.isEmpty || s.rd MIR_RESYNC_STAT_ACTIVE == 1

/-- Runs a MIR command whose other fields must be 0 (R365). -/
def State.mirCmd (s : State) (q op : Nat) (w5 : Nat) (f : State → RqCmd → State) : State :=
  s.blockCmd q 0xB op false (fun c => c.bare && decide (c.w5.toNat ≤ w5)) (fun s _ c => f s c)

/-- MIR_REBALANCE (R362): every region, or the lower half of them, whose owner is not that of R345. -/
def State.mirRebalance (s : State) (q : Nat) : State :=
  s.mirCmd q 0x40 1 (fun s c =>
    if s.role != 1 then s.finishCmd q 0x40 0
    else if s.mirBusy then s.finishCmd q 0x41 0
    else
      let all := (List.range s.tier.poolRegions).filter (fun r => (s.region r).ownerB != (r % 2 == 1))
      let rs := if bit c.w5 0 then all.take (all.length / 2) else all
      let es := rs.map (fun r =>
        let g := s.region r
        (r, ({ g with ownerB := r % 2 == 1, moving := false, served := false }).words))
      let w : ProtWait := { q := q, rebal := true, table := 2, todo := es }
      let s : State := { s with pair := { s.pair with rebalance := some (q, rs) } }
      if es.isEmpty then s.rebalanceCheck
      else (({ s with prot := { s.prot with waits := s.prot.waits ++ [w] } }).protStep w).twinGo)

def execMirRebalance (q : Nat) (s : State) : Res := .next (s.mirRebalance q)

/-- MIR_RETURN (R361). -/
def State.mirReturn (s : State) (q : Nat) : State :=
  s.mirCmd q 0x41 0 (fun s _ =>
    if s.role != 1 then s.finishCmd q 0x40 0
    else if s.mirBusy then s.finishCmd q 0x41 0
    else
      let (s, n) := s.giveBack
      s.finishCmd q stOk n)

def execMirReturn (q : Nat) (s : State) : Res := .next (s.mirReturn q)

/-- MIR_DRILL (R363): ingress closes, a final epoch with DRILL is sealed. -/
def State.mirDrill (s : State) (q : Nat) : State :=
  s.mirCmd q 0x42 0 (fun s _ =>
    if s.role != 1 then s.finishCmd q 0x40 0
    else if s.mirBusy then s.finishCmd q 0x41 0
    else
      let s : State := { s with pair := { s.pair with dropping := true, drillCmd := some q } }
      (s.closeEpoch true true true).twinGo)

def execMirDrill (q : Nat) (s : State) : Res := .next (s.mirDrill q)

/-- MIR_TAKEOVER (R354, R355, R365): declares loss from FENCED or from a wait. -/
def State.mirTakeover (s : State) (q : Nat) : State :=
  s.mirCmd q 0x43 0 (fun s _ =>
    if s.role == 5 || s.pair.prefWait || s.pair.strictWait then
      let s := (s.declareLoss 3).twinGo
      s.finishCmd q stOk (s.rd MIR_TAKEOVER_STAT_DURATION_NS)
    else if s.mirBusy then s.finishCmd q 0x41 0
    else s.finishCmd q 0x42 0)

def execMirTakeover (q : Nat) (s : State) : Res := .next (s.mirTakeover q)

end Sys2Proof.Machine
end

