-- ==== Sys2Proof/Machine/StartOps.lean ====
section
/-! DEFINITION. Start-up and the boot store (R408 to R428): images, the selector, saved settings, the ember area, and what
each step of the start-up order leaves (R424), with the recovery of what a stop left on NAND (R314 to R317). -/

namespace Sys2Proof.Machine

/-! ### Images and the selector (R409, R416) -/

/-- The first check of R409 an image fails, from 1; 0 where every check passes. -/
def imageFault (floor : Nat) (m : ImageInfo) : Nat :=
  if !m.formatOk then 1
  else if !m.keyDigestOk then 2
  else if !m.signatureOk then 3
  else if m.secVersion < floor then 4
  else if !m.sectionsInside then 5
  else if !m.digestsOk then 6
  else 0

/-- The selector record in force: of the two copies' records the one with the higher sequence number. -/
def State.selRec (s : State) : Option SelRec :=
  match s.boot.sel0, s.boot.sel1 with
  | some a, some b => some (if a.seqNo < b.seqNo then b else a)
  | some a, none => some a
  | none, b => b

/-- The selector, an empty one where no copy holds a valid record. -/
def State.sel (s : State) : SelRec := s.selRec.getD { ok0 := false }

/-- A block's VERIFIED flag and version. -/
def SelRec.ok (x : SelRec) (b : Nat) : Bool := if b = 0 then x.ok0 else x.ok1
def SelRec.setOk (x : SelRec) (b : Nat) (v : Bool) (ver : BitVec 32) : SelRec :=
  if b = 0 then { x with ok0 := v, ver0 := ver } else { x with ok1 := v, ver1 := ver }

/-- State of a block in UPDATE_STAT (R421): INVALID 0, WRITING 1, VERIFIED 2, ACTIVE 3. -/
def State.blockSt (s : State) (b : Nat) : Nat :=
  if s.rd BFL_STATUS_STATE != 3 && s.sel.active = b then 3
  else if s.boot.writing = some b then 1
  else if s.sel.ok b then 2 else 0

/-- The BFL page's registers follow the boot store (R427). -/
def State.bflStat (s : State) : State :=
  let x := s.sel
  let v0 := if x.ok0 then x.ver0.toNat else 0
  let v1 := if x.ok1 then x.ver1.toNat else 0
  let s := (s.wr BFL_STATUS_SEC_FLOOR s.boot.floor).wr BFL_STATUS_ACTIVE_VERSION (if x.active = 0 then x.ver0.toNat else x.ver1.toNat)
  let s := (s.wr BFL_STATUS_TRIAL_BOOTS x.boots).wr BFL_STATUS_ACTIVE x.active
  let s := if s.rd BFL_STATUS_STATE = 3 then s else s.wr BFL_STATUS_STATE (if x.trial then 2 else 1)
  let s := (s.wr BFL_VERSIONS_PRIMROSE v0).wr BFL_VERSIONS_BLUEBELL v1
  let s := (s.wr BFL_SEL_SEQ_SEQ x.seqNo).wr BFL_UPDATE_STAT_BYTES s.boot.bytes
  let s := (s.wr BFL_UPDATE_STAT_PRIMROSE (s.blockSt 0)).wr BFL_UPDATE_STAT_BLUEBELL (s.blockSt 1)
  s.wr BFL_BOOT_COUNT_COUNT s.boot.count

/-- A new selector record is written to copy 0, then to copy 1 (R416). -/
def State.writeSel (s : State) (x : SelRec) : State :=
  let y := { x with seqNo := s.sel.seqNo + 1 }
  { s with boot := { s.boot with sel0 := some y, sel1 := some y } }.bflStat

/-- The selector reverts to the other block (R408, R422): ACTIVE and CONFIRMED, REVERTED. -/
def State.revert (s : State) (b : Nat) : State :=
  (s.writeSel { s.sel with active := b, trial := false, boots := 0 }).raise 4 5

/-- The device enters recovery (R411): without an image from the recovery flash it waits for the steward, with the PCIe link
and GLB alone; an image there starts its Kindling in recovery mode. -/
def State.recoveryRun (s : State) : State :=
  let s := (s.wr GLB_START_STAT_PHASE 0x20).wr BFL_STATUS_STATE 3
  ((s.setStat 4 1 true).setStat 0 (s.rd PG_STAT_STATE 0) true).bflStat

def State.enterRecovery (s : State) (flash : Option ImageInfo) : State :=
  let s := ((s.wr GLB_START_STAT_PHASE 0x20).wr GLB_START_STAT_FAIL 1).raise 4 7
  match flash with
  | some m => if imageFault s.boot.floor m = 0 then s.recoveryRun else s.raise 4 1
  | none => s

/-! ### Saved settings (R417) -/

/-- The registers BFL_SAVE saves: block registers with a RW field on every page but GLB and the counter pages. -/
def savedPage (page : Nat) : Bool := mapped page && page != 0 && !isCounterPage page

/-- A register holds a RW field. -/
def RegDesc.isRw (d : RegDesc) : Bool := d.fields.any (fun f => f.ty == FieldTy.rw)

/-- The register at a key is one that BFL_SAVE saves: it holds a configuration field (R46, R417). -/
def savedKey (k : Nat) : Bool := savedPage (k / 0x10000) && configMask (k / 0x10000) (k % 0x10000) != 0

/-- How many registers BFL_SAVE saves. -/
def savedCount : Nat :=
  ((List.range 0x160).filter savedPage).foldl (fun n p =>
    n + ((pageRegs p).filter (fun d => d.fields.any (isConfig p d.off))).foldl (fun m d => m + d.count) 0) 0

/-- Restores the configuration fields of a register. -/
def State.restoreReg (s : State) (k : Nat) (v : Word64) : State :=
  let m := configMask (k / 0x10000) (k % 0x10000)
  s.setReg k ((s.reg k &&& ~~~m) ||| (v &&& m))

/-- Saved settings are restored; a value saved by itself wins (R417). The layout in force is the one saved at the last apply, or
the default one (R71). -/
def State.restore (s : State) : State :=
  let s := s.boot.saved.foldl (fun (s : State) (e : Nat × Word64) => s.restoreReg e.1 e.2) s
  let s := s.boot.auto.foldl (fun (s : State) (e : Nat × Word64) => s.setReg e.1 e.2) s
  let s := ((s.wr INT_FILL_CFG_LEFT_GIB 0).wr PWR_HOLDUP_STAT_LAST_USED_PCT 0).wr TIR_POOL_CFG_PT_MIB 0
  let s : State := { s with addrs := s.boot.savedAddrs }
  let l := { s.boot.layout.getD {} with egressRsv := s.rd HTH_CELL_RSV_EGRESS_RSV }
  let s : State := { s with hearth := { s.hearth with layout := l } }
  let s := ((s.wr HTH_PART_CACHE_SIZE_MIB l.cache).wr HTH_PART_PKT_SIZE_MIB l.pkt).wr HTH_PART_EPOCH_SIZE_MIB l.epoch
  let s := ((s.wr HTH_PART_MEDIA_SIZE_MIB l.media).wr HTH_PART_CTX_SIZE_MIB l.ctx).wr HTH_PART_SMP_SIZE_MIB l.smp
  (s.wr HTH_PART_CTX_QP_MIB l.qpMib).wr HTH_PFC_CFG_HEADROOM_KIB l.headroomKib

/-! ### The ember area (R418, R460) -/

/-- The newest slot that holds a record is reported; the slot of the next stop is erased. -/
def State.emberStart (s : State) : State :=
  let full := s.boot.embers.foldl (fun n (e : Nat × EmberSlot) => if e.2.full.isSome then n + 2 ^ e.1 else n) 0
  let fin := s.boot.embers.foldl (fun n (e : Nat × EmberSlot) => if e.2.fin.isSome then n + 2 ^ e.1 else n) 0
  let newest := (s.boot.emberNext + 15) % 16
  let s := (s.wr EVR_EMBER_FULL full).wr EVR_EMBER_FINAL fin
  let s := match NMap.find s.boot.embers newest with
    | some x =>
      let s := s.wr EVR_EMBER_NEWEST newest
      if x.full.isSome then s.raise 3 3 else if x.fin.isSome then s.raise 3 4 else s
    | none => s
  { s with boot := { s.boot with embers := NMap.erase s.boot.embers s.boot.emberNext, emberErased := true } }

/-- A hardware trip ended the previous run (R484). -/
def State.tripSeen (s : State) : Bool :=
  s.rd PWR_RAIL_STAT_LAST_FAULT == 0xFD
    || (match NMap.find s.boot.embers ((s.boot.emberNext + 15) % 16) with
        | some x => (match x.fin with | some e => e.rail == 0xFD && e.boot + 1 == s.boot.count | none => false)
        | none => false)

/-! ### Boot ROM and Kindling (steps 2 to 4) -/

/-- The image found in a block. -/
def imageIn (r : StepResult) (b : Nat) : ImageInfo := if b = 0 then r.image0 else r.image1

/-- An interrupted erase of a boot store block is done again; an image block it belongs to is INVALID (R415, R421). -/
def State.eraseRedone (s : State) (n : Nat) : State :=
  if n < 128 then s
  else
    let b := if n < 320 then 0 else 1
    if s.sel.ok b then s.writeSel (s.sel.setOk b false 0) else s

/-- The boot ROM after it sampled TWIN_SEL (R408): interrupted erases are redone, the active block or the other one verifies, or recovery. -/
def State.romStep (s : State) (r : StepResult) : State :=
  if r.scratchFault then s.startHalt 5
  else
    let s := r.openErases.foldl (fun (s : State) n => (s.eraseRedone n).raise 4 6) s
    let s : State := { s with boot := { s.boot with img0 := some r.image0, img1 := some r.image1 } }
    let none_ := s.selRec.isNone
    let a := s.sel.active
    let ok (b : Nat) : Bool := imageFault s.boot.floor (imageIn r b) == 0
    let s := (s.setStat 5 1 true).wr GLB_START_STAT_PHASE 3
    if ok a then (if none_ then s.writeSel { s.sel with active := a, trial := false, boots := 0 } else s)
    else
      let s := s.raise 4 1
      if ok (1 - a) then s.revert (1 - a) else (s.raise 4 1).enterRecovery r.recoveryImage

/-- Kindling (R408, R414, R416, R422): a selector copy that lags is written, a trial boot is counted or the selector reverts,
the boot count is raised. -/
def State.kindlingStep (s : State) (r : StepResult) : State :=
  let s : State := { s with boot := { s.boot with sel0 := s.selRec, sel1 := s.selRec } }
  let x := s.sel
  let back := x.trial && decide (3 ≤ x.boots)
  let s := if back then s.revert (1 - x.active)
    else if x.trial then (s.writeSel { x with boots := x.boots + 1 }).raise 4 3 else s
  if back && imageFault s.boot.floor (imageIn r s.sel.active) != 0 then (s.raise 4 1).enterRecovery r.recoveryImage
  else if s.boot.count = 0xFFFFFFFF then s.startHalt 7
  else ({ s with boot := { s.boot with count := s.boot.count + 1 } }.wr GLB_START_STAT_PHASE 4).bflStat

/-- Roles at the end of start-up (R429). -/
def rolesAtStart : Nat := 0x4433332222222211

/-- The main firmware runs (R424 step 4): BFL, CCX and the recorder's page are up, the start after a reset or a trip is
reported, the trial watchdog starts; the fill of the Hearth begins (R72). -/
def State.mainStep (s : State) (r : StepResult) : State :=
  if r.scratchFault then s.startHalt 5
  else
    let s := ((s.wr GLB_START_STAT_PHASE 5).setStat 4 1 true).setStat 0x12 1 true
    let s := ((s.wr CCX_CORE_STAT_STATE 0x1111111111111111).wr CCX_ROLE_ROLE rolesAtStart).wr SPB_BANK_STAT_STATE 0x1111111111111111
    let s : State := { s with ccx := { s.ccx with wdAt := s.mono }, boot := { s.boot with trialAt := if s.sel.trial then some s.mono else none } }
    let s := if s.rd GLB_RESET_CAUSE_CAUSE = 0 then s else s.raiseArg 4 10 (s.reg (regKey 0 0x228))
    let s := s.raiseIf s.tripSeen 2 9
    (s.emberStart.bflStat).setStat 8 1 false

/-! ### Subsystems (steps 5 to 9) -/

/-- The registers report the bases of the layout in force: the partitions lie in the order of R67 from 0 upwards (R68). -/
def State.setBases (s : State) : State :=
  let l := s.hearth.layout
  let s := (s.wr HTH_PART_CACHE_BASE_MIB 0).wr HTH_PART_PKT_BASE_MIB l.cache
  let s := (s.wr HTH_PART_EPOCH_BASE_MIB (l.cache + l.pkt)).wr HTH_PART_MEDIA_BASE_MIB (l.cache + l.pkt + l.epoch)
  let s := s.wr HTH_PART_CTX_BASE_MIB (l.cache + l.pkt + l.epoch + l.media)
  s.wr HTH_PART_SMP_BASE_MIB (l.cache + l.pkt + l.epoch + l.media + l.ctx)

/-- Step 5: Hearth fill, key slots, saved settings (R372, R393, R417). -/
def State.hearthStep (s : State) : State :=
  let s := s.restore.setBases
  let s := ((s.setStat 8 2 true).setStat 9 1 true).wr HCA_STAT_STATE 1
  let s := s.reserveHeadroom
  let s := ((s.setStat 6 1 true).fillSlot 2).fillSlot 4
  let s := (s.setStat 0xD 1 true).setStat 0xE 1 true
  let s := [0x200, 0x201, 0x202, 0x203].foldl (fun (s : State) p => s.wr PG_STAT_READY 1 p) s
  let s := s.budgetRecompute
  (s.trainGroup 0).wr GLB_START_STAT_PHASE 6

/-- Channels trained. -/
def State.trainedChans (s : State) : List Nat := (List.range 48).filter (fun c => s.chanSt c == 2 || s.chanSt c == 3)

/-- Frames of the ranks in service of a channel. -/
def State.usableFrames (s : State) (c : Nat) : Nat :=
  ((List.range (s.nRanks c)).filter (fun r => s.rankSt c r == 1)).length * s.rankFrames c

/-- The layout of DRAM (R214): page table and system area over every channel in service, spare frames, the frame pool. Under
AREAS no frame of the pool is filled yet (R373). -/
def State.layFrames (s : State) : State :=
  let cs := s.trainedChans
  let n := cs.length
  let sys := s.rd TIR_POOL_CFG_REGIONS * 1024 + 33 * 2 ^ 18
  let spare := (cs.map s.usableFrames).sum * s.rd TIR_SPARE_FRAMES_TENTHS / 1000
  let share (t i : Nat) : Nat := (t + n - 1 - i) / n
  let s : State := { s with tier := { s.tier with layChans := cs, sysFrames := (List.range n).map (fun i => (nth 0 cs i, share sys i)), sysMoved := [] } }
  (List.range n).foldl (fun (s : State) i =>
    let c := nth 0 cs i
    let a := share sys i
    let b := share spare i
    let pool := s.usableFrames c - a - b
    let late := s.rd INT_FILL_CFG_MODE = 1
    let s : State := if late then { s with integ := { s.integ with unfilled := NMap.insert s.integ.unfilled c pool } } else s
    s.setChFrames c { total := pool, blocked := if late then pool else 0, spare := b, top := a }) s

/-- Step 6 ends once no channel trains (R241, R252): the strands train from its start; with no channel trained the start halts. NAND channels
begin to train (R296). -/
def State.dramStep (s : State) : State :=
  if (List.range 48).any (fun c => s.chanSt c == 1) then s
  else if s.trainedChans.isEmpty then s.startHalt 2
  else
    let s := (List.range 32).foldl (fun (s : State) c => s.setStat (0x80 + c) 1 false) s
    let s := (List.range 8).foldl (fun (s : State) n => if s.strandSt n = 0 then s.strandTrain n else s) s
    s.wr GLB_START_STAT_PHASE 7

/-- The die answers with a valid copy of its parameter page (R264). -/
def dieValid (d : NandDie) : Bool := d.copies.any id && decide (d.pos < 16)

/-- The die has the properties of R263. -/
def dieFits (d : NandDie) : Bool :=
  let tb := bits d.geom 63 56
  let pl := bits d.geom 55 52
  d.supported && (tb == 1 || tb == 2 || tb == 4) && (pl == 2 || pl == 4) && (bits d.geom 49 48 == 1 || bits d.geom 49 48 == 2)

/-- The reference die (R264): the lowest-numbered one that answers with a valid parameter page. -/
def referenceDie (fs : List NandFound) : Option NandDie :=
  let ds := fs.flatMap (fun f => (f.dies.filter dieValid).map (fun d => (16 * f.channel + d.pos, d)))
  (ds.foldl (fun (b : Option (Nat × NandDie)) e => match b with
    | none => some e
    | some x => if e.1 < x.1 then some e else some x) none).map Prod.snd

/-- The die is accepted beside a reference die (R264). -/
def dieTaken (r : NandDie) (d : NandDie) : Bool := dieValid d && dieFits d && d.ident == r.ident

/-- Speeds a NAND channel tries in MT/s, highest first (R265). -/
def nandSpeeds (cap : Nat) : List Nat :=
  let all := [4800, 3600, 2400, 1600, 800]
  if cap = 0 then all else all.filter (fun v => decide (v ≤ cap))

/-- A NAND channel's enumeration and training (R264, R265): POP_MISMATCH for each die refused; the highest speed that works. A die recorded as
SLOW, RETIRING or FAILED stays so. -/
def State.nandChannel (s : State) (ref : NandDie) (f : NandFound) : State :=
  let c := f.channel
  if 32 ≤ c then s
  else
    let ds := (f.dies.filter (dieTaken ref)).map (fun d => d.pos)
    let s := (f.dies.filter (fun d => !dieTaken ref d)).foldl (fun (s : State) _ => s.raise (0x80 + c) 3) s
    if ds.isEmpty then s.setStat (0x80 + c) 0 false
    else
      let (mts, falls) := trainWalk (nandSpeeds (s.rd NCH_CFG_MTS_CAP c)) f.trained
      let s := (List.range falls).foldl (fun (s : State) _ => s.raise (0x80 + c) 1) s
      let s := s.nchCount c 7 (f.trained.takeWhile (fun b => !b)).length
      if mts = 0 then (s.setStat (0x80 + c) 7 false).raise (0x80 + c) 2
      else
        let st (d : Nat) : Nat := max 1 (NMap.getD s.media.dieRec (16 * c + d) 1)
        let s := s.wr NCH_DIES_STATE ((ds.map (fun d => st d * 8 ^ d)).sum) c
        let s := (s.wr NCH_STAT_FITTED ((ds.map (fun d => 2 ^ d)).sum) c).wr NCH_STAT_MTS mts c
        let s := s.wr NCH_STAT_MODE (b2n f.toggle) c
        (s.setStat (0x80 + c) 2 true).raise (0x80 + c) 0

/-- Step 7 ends: the DRAM fill and the NAND enumeration (R264, R265, R373). -/
def State.nandStep (s : State) (r : StepResult) : State :=
  let s := (List.range 32).foldl (fun (s : State) c => s.setStat (0x80 + c) 0 false) s
  let fs := r.nand.filter (fun f => decide (f.channel < 32))
  let ref := (referenceDie fs).getD ⟨0, [], 0, false, 0, 0⟩
  let s := fs.foldl (fun (s : State) f => s.nandChannel ref f) s
  let s := s.setReg (regKey 0xC 0x100) (setBits (setBits ref.geom 25 16 0) 9 0 0)
  let s := s.wr MED_WEAR_RATED ref.rated
  let fit := (fs.map (fun f => (f.dies.filter (dieTaken ref)).length)).sum
  let s := (s.wr MED_GEOM_FITTED fit).wr MED_GEOM_DIES s.liveDies.length
  let s := s.trainedChans.foldl (fun (s : State) c => s.setChanSt c 3) s
  let gib := if s.rd INT_FILL_CFG_MODE = 1 then (s.trainedChans.map s.usableFrames).sum / 2 ^ 18 - 33 else 0
  let s := s.wr INT_FILL_CFG_LEFT_GIB gib
  if s.liveDies.isEmpty then s.startHalt 3
  else ((s.raiseIf (gib == 0) 6 40).setStat 0xC 1 false).wr GLB_START_STAT_PHASE 8

/-- The page table as the durable records give it (R289). -/
def State.loadTable (s : State) : State :=
  let lim := s.rd TIR_POOL_CFG_REGIONS * 2 ^ 18
  let es := s.media.durMap.filter (fun e => decide (e.1 < lim))
  let pt : NMap Pte := es.map (fun (e : Nat × Nat × Nat) => (e.1, { st := .media, hasMedia := true, media := e.2.1, tenant := e.2.2 }))
  let sbs := s.media.sbs.map (fun (e : Nat × Sb) =>
    (e.1, { e.2 with st := if e.2.st = 1 ∨ e.2.st = 3 then 2 else e.2.st, valid := (es.filter (fun x => addrSb x.2.1 == e.1)).length }))
  let s : State := { s with tier := { s.tier with pt := pt, poolRegions := s.rd TIR_POOL_CFG_REGIONS }, media := { s.media with sbs := sbs } }
  es.foldl (fun (s : State) e => s.addT2 e.2.2 1 0) s

/-- Step 8 ends: the page table is loaded; the probe starts (R214, R237, R289). -/
def State.tableStep (s : State) : State :=
  if s.maxRegions < s.rd TIR_POOL_CFG_REGIONS then s.startHalt 4
  else
    let s := s.layFrames.loadTable
    let s := (s.wr TIR_POOL_CFG_PT_MIB (4 * s.tier.poolRegions)).setStat 0xA 1 false
    s.startProbe.wr GLB_START_STAT_PHASE 9

/-- Superblocks the last flush named. -/
def State.extentKeys (s : State) : List Nat := match s.dur.last with | some f => f.extents.map Prod.fst | none => []

/-- The units of superblocks that were open are read; one that fails is handled as in R283 (R289 step 5). -/
def State.openUnitsRead (s : State) (bad : List Nat) : State :=
  (s.media.units.filter (fun e => bad.contains e.1)).foldl (fun (s : State) e =>
    let s := s.countLost e.1
    if s.unitValid e.1 e.2 then s.unitLost e.2.page else s) s

/-- Step 9 ends once F is measured (R289 steps 4 to 8): interrupted erases are repeated, half-erased blocks erased again,
hot-programmed superblocks relocated, but for those of the reserve (R279, R316). -/
def State.mediaStep (s : State) (r : StepResult) : State :=
  if s.rd PG_STAT_STATE 0xA != 2 then s
  else
    let s := (s.setStat 0xC 2 true).raise 0xC 10
    let s := s.media.sbs.foldl (fun (s : State) e => if e.2.st = 4 then s.jrn (.eraseBegin (e.1 / 32768) (e.1 % 32768)) else s) s
    let s := s.media.sbs.foldl (fun (s : State) e =>
      if e.2.hot && e.2.st == 2 then
        let s := s.raise 0xC 9
        if s.extentKeys.contains e.1 then s else s.victim e.1 2
      else s) s
    let s := s.openUnitsRead r.badUnits
    let s := s.reserveVerify r.halfErased
    let st := if s.dur.newest = 2 ∨ s.dur.newest = 3 then 6 else 0
    (s.fillReserve.mediaRecompute.wr PWR_FLUSH_STAT_STATE st).wr GLB_START_STAT_PHASE 10

/-! ### Step 10: the state image and replay (R311, R314 to R317) -/

/-- The kind of a start (R314): FIRST_START 0, CLEAN 1, FLUSHED 2, FLUSH_INCOMPLETE 3, NO_FLUSH 4. -/
def State.startKind (s : State) (r : StepResult) : Nat :=
  if s.boot.firstStart then 0
  else match s.dur.newest with
    | 1 => 1
    | 3 => if r.manifestOk && r.lostUnits.isEmpty then 2 else 3
    | 2 => 3
    | _ => 4

/-- The audit of the declared hold-up after a flush of cause INPUT_LOSS (R311). With a declaration of 0 the share has no
value. -/
def State.audit (s : State) (f : FlushRec) (kind : Nat) : State :=
  let h := s.rd PWR_HOLDUP_MS_MS
  let s := if kind = 2 then
      let d := (f.endTb - f.startTb) / 1000000
      let (k, s) := s.takeFree
      let p := if h = 0 then Config.freeNat k % 256 else min 255 (d * 100 / h)
      (s.wr PWR_HOLDUP_STAT_LAST_USED_PCT p).raiseIf (decide (90 * h < 100 * d) && decide (0 < h)) 1 36
    else s
  if kind = 3 then
    let s := if s.rd PWR_HOLDUP_STAT_DERATED = 1 then s else s.wr PWR_HOLDUP_STAT_DECLARED_MS h
    let s := if h = 0 then s else s.wr PWR_HOLDUP_MS_MS (if h / 2 ≤ 600 then 601 else h / 2)
    ((s.wr PWR_HOLDUP_STAT_DERATED 1).raise 1 37).budgetRecompute.autoSave
  else s

/-- The state image is loaded (R308, R314). -/
def State.loadImage (s : State) : State :=
  match s.dur.image with
  | none => s
  | some im =>
    let ts := im.tenants.map (fun (e : Nat × Tenant) => (e.1, { e.2 with qpCount := 0, wused := 0, twinWused := 0, fwdRsv := 0 }))
    let rs := (im.regions.map (fun (e : Nat × Region) => (e.1, { e.2 with served := false, moving := false }))).filter (fun e => e.2 != {})
    let s : State := { s with prot := { s.prot with keys := im.keys, tenants := ts, regions := rs, ownerBase := im.ownerBase, servedBase := false }
                              cache := { s.cache with quota := im.quota }, tier := { s.tier with t1Quota := im.t1Quota, t2Quota := im.t2Quota }, chains := { chains := im.chains, ops := im.ops } }
    let s := (s.wr KEY_PROT_SEQ_SEQ im.protSeq).wr MIR_PAIR_GEN_VALUE im.pairGen
    { s.wr MIR_CONFIRMED_VALUE im.confirmed with pair := { s.pair with confirmed := im.confirmed, appliedTo := im.confirmed, openEpoch := im.confirmed } }

/-- A flush unit's line is written into its page's frame and charged (R315 step 3): a MEDIA page is fetched first, a ZERO page
zero-filled. -/
def State.replayLine (s : State) (t : Nat) (l : FlushLine) : State :=
  let p := l.line / 64
  let s := match (s.pte p).st with
    | .media =>
      (match s.takeFrame p with
       | some (c, i, s) =>
         let ls : List DLine := match NMap.find s.media.units (s.pte p).media with | some u => u.lines | none => []
         let s := (s.setPte p { s.pte p with st := .resident, ch := c, idx := i }).addT1 (s.pte p).tenant 1 0
         s.fillFrame c i 2 (fun j => nth {} ls j)
       | none => s : State)
    | .zero =>
      (match s.takeFrame p with
       | some (c, i, s) =>
         let s := ((s.setPte p { st := .resident, tenant := t, ch := c, idx := i }).addT1 t 1 0).addT2 t 1 0
         s.fillFrame c i 2 (fun _ => {})
       | none => s : State)
    | _ => s
  if (s.pte p).st = .resident then
    let e := s.pte p
    (s.setDram e.ch e.idx (l.line % 64) ⟨l.data, l.poison⟩).charge l.line t
  else s

/-- Units of the last flush are replayed in manifest order, but those that cannot be read; a reserve superblock stays until
its pages have been destaged (R315, R316). -/
def State.replay (s : State) (f : FlushRec) (lost : List Nat) : State :=
  let us := (List.range f.units.length).filter (fun i => !lost.contains i)
  let s := us.foldl (fun (s : State) i => match f.units.drop i with
    | u :: _ => (s.flushClear u).foldl (fun s l => s.replayLine u.tenant l) s
    | [] => s) s
  let pagesOf (a n : Nat) : List Nat := (((f.units.drop a).take n).flatMap (fun u => u.lines.map (fun l => l.line / 64))).eraseDups
  let held := f.extents.foldl (fun (x : Nat × NMap (List Nat)) e => (x.1 + e.2.1, NMap.insert x.2 e.1 (pagesOf x.1 e.2.1))) (0, [])
  let s : State := { s with dur := { s.dur with reserveHeld := held.2.filter (fun e => !e.2.isEmpty) } }
  let cs := (us.flatMap (fun i => match f.units.drop i with | u :: _ => u.lines.map (fun l => l.line / 4096) | [] => [])).eraseDups
  let s : State := { s with pair := { s.pair with replayList := cs ++ f.unmaps.filter (fun c => !cs.contains c) } }
  ((s.cphCount 1 us.length).wr PWR_FLUSH_STAT_UNITS us.length).raise 1 34

/-- Reaching step 11 (R343, R425). -/
def State.enterTwinStep (s : State) : State :=
  let s := (s.wr GLB_START_STAT_PHASE 11).setStat 0xB 0 false
  let s : State := { s with pair := { s.pair with waitSince := some s.mono } }
  s.sendHandshake

/-- Step 10 ends: the kind of the start, the audit, the state image, the replay; the blocks whose tables are loaded run. -/
def State.replayStep (s : State) (r : StepResult) : State :=
  let kind := s.startKind r
  let s := s.wr PWR_LAST_STOP_KIND kind
  let flushed := kind == 2 || kind == 3
  let s := match s.dur.last with
    | some f =>
      if flushed then
        let s := (s.wr PWR_LAST_STOP_DURATION_MS ((f.endTb - f.startTb) / 1000000)).wr PWR_LAST_STOP_FINAL f.final
        let s := s.wr PWR_LAST_STOP_CAUSE f.cause
        if f.cause = 1 then s.audit f kind else s
      else s
    | none => s
  let s := if kind = 0 then (s.allOwned 2) else s.loadImage
  let s : State := { s with pair := { s.pair with ownedAtStop := kind != 0 && s.ownedCount s.twinB != 0 } }
  let s := match s.dur.last with
    | some f => if flushed then
        let s := if kind = 2 then ({ (s.wr MIR_PAIR_GEN_VALUE f.pairGen).wr MIR_CONFIRMED_VALUE f.confirmed with pair := { s.pair with confirmed := f.confirmed, appliedTo := f.confirmed, openEpoch := f.confirmed } }) else s
        s.replay f r.lostUnits
      else s
    | none => s
  let s := s.raiseIf (kind == 3 || kind == 4) 1 35
  let s := (((s.setStat 7 1 true).setStat 0x10 1 true).setStat 0x11 1 true).wr PWR_FLUSH_STAT_STATE 0
  s.mediaRecompute.enterTwinStep

/-! ### The start-up order (R424) -/

/-- Step 1 of R408 samples the TWIN_SEL strap. -/
def State.sampleStrap (s : State) (r : StepResult) : State :=
  if !s.pwr.off && s.rd GLB_START_STAT_PHASE == 2 then { s with twinB := r.twinSel } else s

/-- The step in progress ends and the next begins. Step 1 ends with the sequencer's hold, step 11 with the handshake or
SOLO_WAIT. -/
def State.startStep (s : State) (r : StepResult) : State :=
  if s.pwr.off then s
  else match s.rd GLB_START_STAT_PHASE with
    | 2 => s.romStep r
    | 3 => s.kindlingStep r
    | 4 => s.mainStep r
    | 5 => s.hearthStep
    | 6 => s.dramStep
    | 7 => s.nandStep r
    | 8 => s.tableStep
    | 9 => s.mediaStep r
    | 10 => s.replayStep r
    | 12 => s.wr GLB_START_STAT_PHASE 13
    | 13 => { s with boot := { s.boot with elapsed := some ((s.mono - s.boot.startAt) / 1000000) } }.wr GLB_START_STAT_PHASE 14
    | _ => s

/-! ### Register writes of this chapter -/

/-- A write of GLB.RESET (R407): false where it is refused. -/
def State.glbReset (s : State) (v : Word64) : Option State :=
  if bits v 63 48 != 0xB007 then none
  else if !bit v 0 then some s
  else if s.rd TIR_DIRTY_CHARGED_BYTES != 0 && !bit v 1 && s.flushSt != 7 then none
  else some ((s.emberStop 5).deviceReset 2)

/-- A write of BFL.CONFIRM (R422): none where it is ignored. -/
def State.bflConfirm (s : State) (v : Word64) : Option State :=
  if bits v 15 0 != 0xC0F1 || !s.sel.trial || !s.ready 0 || s.rd BFL_STATUS_STATE == 3 then none
  else
    let s := s.writeSel { s.sel with trial := false, boots := 0 }
    let img := if s.sel.active = 0 then s.boot.img0 else s.boot.img1
    let fl := match img with | some m => if m.raiseFloor then max s.boot.floor m.secVersion else s.boot.floor | none => s.boot.floor
    some (({ s with boot := { s.boot with floor := fl, trialAt := none } }.raise 4 4).bflStat)

/-- The recovery copy ends (R410, R411): the image is read into scratchpad, verified there, and its Kindling runs. -/
def State.recoveryCopied (s : State) (m : Option ImageInfo) : State :=
  let s := s.wr GLB_RECOVERY_SRC_GO 0
  match m with
  | some m => if imageFault s.boot.floor m = 0 then s.recoveryRun else s.raise 4 1
  | none => s

end Sys2Proof.Machine
end

