-- ==== Sys2Proof/Machine/HearthOps.lean ====
section
/-! DEFINITION. The Hearth store (03_hearth_store.md): its layout and its apply, quiescing, the damper, resident QP
contexts (R67 to R72, R82 to R87). -/

namespace Sys2Proof.Machine

/-! ### The layout (R67 to R71) -/

/-- The layout the registers request (R67, R70). -/
def State.reqLayout (s : State) : Layout :=
  { cache := s.rd HTH_PART_CACHE_SIZE_MIB, pkt := s.rd HTH_PART_PKT_SIZE_MIB, epoch := s.rd HTH_PART_EPOCH_SIZE_MIB
    media := s.rd HTH_PART_MEDIA_SIZE_MIB, ctx := s.rd HTH_PART_CTX_SIZE_MIB, smp := s.rd HTH_PART_SMP_SIZE_MIB
    qpMib := s.rd HTH_PART_CTX_QP_MIB, headroomKib := s.rd HTH_PFC_CFG_HEADROOM_KIB, egressRsv := s.rd HTH_CELL_RSV_EGRESS_RSV }

/-- A size lies in its range and on its step. -/
def sizeOk (lo hi step v : Nat) : Bool := decide (lo ≤ v) && decide (v ≤ hi) && v % step == 0

/-- Ranges and steps of R67, and QP_MIB under R68. -/
def Layout.ranges (l : Layout) : Bool :=
  sizeOk 256 1856 64 l.cache && sizeOk 64 1024 16 l.pkt && sizeOk 32 256 32 l.epoch && sizeOk 32 256 16 l.media
    && sizeOk 32 128 8 l.ctx && sizeOk 0 64 4 l.smp && sizeOk 16 64 8 l.qpMib && decide (l.qpMib + 16 ≤ l.ctx)

/-- Pairs of a port and a priority that LOSSLESS names. -/
def State.namedCount (s : State) : Nat :=
  ((List.range 96).map (fun p => ((List.range 8).filter (fun q => s.named p q)).length)).sum

/-- PART_PKT meets the minimum of R77. -/
def State.pktEnough (s : State) (l : Layout) : Bool :=
  decide (s.namedCount * l.headroomKib * 1024 + l.egressRsv * 256 + 16 * 2 ^ 20 ≤ l.pkt * 2 ^ 20)

/-- The first condition of R70 that fails; 0 where none does, or where the layout asked for is the one in force. -/
def State.applyErr (s : State) (l : Layout) : Nat :=
  let now := s.hearth.layout
  if l = now then 0
  else if l.cache + l.pkt + l.epoch + l.media + l.ctx + l.smp != 2048 then 1
  else if !l.ranges then 2
  else if l.cache != now.cache && s.rd HCA_STAT_STATE != 0 then 3
  else if !s.quiesced 8 then 4
  else if l.smp != now.smp && s.rd SMP_CFG_EN == 1 then 5
  else if !s.pktEnough l then 6
  else 0

/-- A write of HTH.PARTITION.APPLY (R70): refused with ERR; where nothing changes it succeeds at once (R89); else BUSY until PART_APPLIED. One
more write while an apply runs does nothing: the spec names no outcome for it (DESIGN CHOICE, log 192). -/
def State.applyLayout (s : State) : State :=
  let l := s.reqLayout
  if s.hearth.applying.isSome then s
  else match s.applyErr l with
    | 0 =>
      let s := s.wr HTH_PARTITION_ERR 0
      if l = s.hearth.layout then s.raise 8 5
      else
        let s := ((s.wr HTH_PARTITION_BUSY 1).wr PG_STAT_BUSY 1 8).wr PG_STAT_STATE 3 8
        { s with hearth := { s.hearth with applying := some l } }
    | e => (s.wr HTH_PARTITION_ERR e).raise 8 6

/-- An apply ends (R71): contexts and tables are home, the layout is in force, a cache of another size and a sample buffer of
another size are empty, headroom is reserved anew (R122), PG_GEN rises, the layout is saved (R417). -/
def State.applied (s : State) : State :=
  match s.hearth.applying with
  | none => s
  | some l =>
    let old := s.hearth.layout
    let s : State := { s with hearth := { s.hearth with layout := l, applying := none, resident := [] } }
    let s : State := if l.cache = old.cache then s else { s with cache := { s.cache with ways := [], plru := [] } }
    let s : State := if l.smp = old.smp then s else { s with smp := { s.smp with buf := [] } }
    let s : State := { s with prot := { s.prot with resident := s.prot.resident.drop (s.prot.resident.length - s.keyRoom) } }
    let s := (s.setBases.reserveHeadroom.bumpGen 8)
    let s := s.wr HTH_PARTITION_APPLIED_GEN (s.rd PG_GEN_GEN 8)
    let s := ((s.wr HTH_PARTITION_BUSY 0).wr PG_STAT_BUSY 0 8).wr PG_STAT_STATE 2 8
    let s : State := { s with boot := { s.boot with layout := some l } }
    s.autoSave.raise 8 5

/-- PARTITION_APPLY: a write of 1 to HTH.PARTITION.APPLY reaches the block; it is not accepted before GLB is READY (R50). APPLY is no
configuration field (R46), so HTH's own READY does not matter. -/
def State.partitionApply (s : State) : State :=
  if s.ready 0 then s.applyLayout else s.accessErr 7 true (regKey 8 0x130)

def execPartitionApply (s : State) : Res := .next s.partitionApply

def execPartApplied (s : State) : Res := .next s.applied

/-! ### Quiescing (R72, R137, R210, R237, R342) -/

/-- The Hearth holds nothing in transit (R72): every other quiescible block is quiesced, no cell, epoch-staging or media-staging data
remains, no request holds a QP context. -/
def State.hearthEmpty (s : State) : Bool :=
  (List.range 96).all (fun p => s.quiesced (0x100 + p)) && [0xB, 0xC, 0x10, 0xA].all (fun p => s.quiesced p)
    && s.sharedUsed == 0 && s.hearth.headroom.all (fun e => e.2 == 0) && s.hearth.egressUsed == 0
    && s.pair.epochs.all (fun e => e.recs.isEmpty) && s.pair.incoming.isEmpty
    && s.stagingUsed == 0
    && s.dp.ops.all (fun o => match o.for_ with | .host _ => false | .ring _ => false | _ => true)

/-- What a page must hold no more before it is QUIESCED. -/
def State.drained (s : State) (page : Nat) : Bool :=
  if isHpt page then s.portEmpty (page - 0x100)
  else if page = 0x8 then s.hearthEmpty
  else if page = 0x10 then s.chainCount 2 == 0
  else if page = 0xB then s.pair.epochs.all (fun e => e.recs.isEmpty && e.closed.isNone) && s.pair.incoming.isEmpty && s.pair.fwdOut.isEmpty
  else if page = 0xA then s.tirIdle
  else if page = 0xC then s.stagingUsed == 0
  else false

/-- A quiescing page whose work has drained away is QUIESCED. -/
def State.quiesceCheck (s : State) (page : Nat) : State :=
  if quiesceSup page && s.quiescing page && s.drained page then s.wr PG_STAT_QUIESCED 1 page else s

/-- QUIESCE_DONE: a block's held work drains away. -/
def execQuiesceDone (page : Nat) (s : State) : Res := .next (s.quiesceCheck page)

/-! ### The damper (R82, R85) -/

/-- Packet pressure in 64ths: the share of the shared part in use (R82). -/
def State.pktPressure (s : State) : Nat := if s.sharedSize = 0 then 64 else min 64 (s.sharedUsed * 64 / s.sharedSize)

/-- The level in force (R85, R86): the higher of the measured level and FORCE; SHUT during a flush. -/
def State.levelNow (s : State) : Nat :=
  if s.dur.flush.isSome then 2 else max s.hearth.measured (min 2 (s.rd HTH_DMP_CTRL_FORCE))

/-- A pressure sample of the damper: rises at once, falls after HOLD_US below a level's lower threshold. -/
def State.damper (s : State) (bank : Nat) : State :=
  let pkt := s.pktPressure
  let bank := min 64 bank
  let below (f : Fld) : Bool := decide (pkt < s.rd f) && decide (bank < s.rd f)
  let at_ (f : Fld) : Bool := decide (s.rd f ≤ pkt) || decide (s.rd f ≤ bank)
  let since (old : Option Nat) (b : Bool) : Option Nat := if b then some (old.getD s.mono) else none
  let shut := since s.hearth.belowShutSince (below HTH_DMP_THRESH_SHUT_OFF)
  let half := since s.hearth.belowHalfSince (below HTH_DMP_THRESH_HALF_OFF)
  let heldFor (t : Option Nat) : Bool := match t with | some t => decide (us (s.rd HTH_DMP_THRESH_HOLD_US) ≤ s.mono - t) | none => false
  let m0 := s.hearth.measured
  let m1 := if at_ HTH_DMP_THRESH_SHUT_ON then 2 else if at_ HTH_DMP_THRESH_HALF_ON then max m0 1 else m0
  let m2 := if m1 = 2 && heldFor shut then 1 else m1
  let m3 := if m2 = 1 && heldFor half then 0 else m2
  let s := (s.wr HTH_DMP_STAT_PKT_64THS pkt).wr HTH_DMP_STAT_BANK_64THS bank
  let s : State := { s with hearth := { s.hearth with measured := m3, belowShutSince := shut, belowHalfSince := half, lastSample := s.mono } }
  s.setLevel s.levelNow

/-- DAMPER_SAMPLE: every 100 ns of TB_NS (R82). To the depth of the bank queues as the requests held here make it comes what requests
add that are not held one by one: the command brings it (log 215). -/
def execDamperSample (bank64ths : Nat) (s : State) : Res :=
  .next (if s.ready 8 then
      let s := (s.upTo (s.hearth.lastSample + 100)).banksGo
      s.damper (s.bankPressure + bank64ths)
    else s)

/-! ### Resident QP contexts (R69) -/

/-- QP contexts in existence on this twin (OCC_CTX.DEMAND). -/
def State.ctxDemand (s : State) : Nat := s.liveQps.length

/-- CONTEXT_LOAD: the context a request waits for is loaded; a full portion writes home the least recently used one that is not
held. SENDs of the device that waited for it go on. -/
def State.contextLoad (s : State) (n : Nat) : State :=
  if !s.hearth.ctxLoads.contains n then s
  else
    let r := s.hearth.resident
    let room : Option (List Nat) := if r.length < s.ctxRoom then some r
      else match r.find? (fun x => !s.ctxHeld x) with
        | some x => some (r.erase x)
        | none => none
    match room with
    | some r =>
      let s := s.askIn .context (s.rd HTH_PART_CTX_BASE_MIB) s.hearth.layout.qpMib 8
      ({ s with hearth := { s.hearth with resident := r ++ [n], ctxLoads := s.hearth.ctxLoads.filter (· != n) } }).sendsGo n
    | none => s

def execContextLoad (qpn : Nat) (s : State) : Res := .next (s.contextLoad qpn)

/-- A new context is resident where the portion has room; CTX_SPILL when the demand first exceeds it (R69, R89). -/
def State.ctxNew (s : State) (n : Nat) : State :=
  let s : State := if s.hearth.resident.length < s.ctxRoom then { s with hearth := { s.hearth with resident := s.hearth.resident ++ [n] } } else s
  if s.ctxRoom < s.ctxDemand && !s.hearth.spilled then
    { s.raise 8 7 with hearth := { (s.raise 8 7).hearth with spilled := true } }
  else s

end Sys2Proof.Machine
end

