-- ==== Sys2Proof/Machine/PortOps.lean ====
section
/-! DEFINITION. Host ports below their frames (05_host_ports.md): link bring-up, enabling and soft reset, priorities, the
port's MAC address (R115 to R121, R135, R137). -/

namespace Sys2Proof.Machine

/-- This twin serves no address: it is fenced (R355), or the other twin still holds its QPs and addresses (R344, R361). -/
def State.silent (s : State) : Bool := s.role == 5 || s.pair.away

/-- State a port takes as it starts link bring-up (R135, row of OFF). -/
def State.bringUp (s : State) (p : Nat) : Nat :=
  if s.rd HPT_MODE_SPEED p = 0 then 0
  else if s.rd HPT_MODE_MEDIA p = 2 then 3
  else if s.rd HPT_MODE_AN_EN p = 1 then 1
  else if s.rd HPT_MODE_LT_EN p = 1 then 2
  else 3

/-- The transmitter goes on: of a port that is not UP its queue is discarded (R135). -/
def State.kickTx (s : State) (p : Nat) : State := s.startTx p

/-- A port that is enabled starts link bring-up. -/
def State.portEnable (s : State) (p : Nat) : State :=
  (s.modPort p (fun x => { x with anFails := 0, fecBad := 0 })).setPortSt p (s.bringUp p)

/-- A port that is disabled is OFF. -/
def State.portDisable (s : State) (p : Nat) : State := (s.portLeaves p 0 0).kickTx p

/-- Priority of a received frame (R121). -/
def State.framePrio (s : State) (p : Nat) (f : Frame) : Nat :=
  if s.rd HPT_FRAME_PRIO_MODE p = 0 then (if f.tagged then f.pcp % 8 else 0)
  else
    let d := f.dscp % 64
    bits (s.reg (regKey (0x100 + p) (0x138 + 8 * (d / 16)))) (4 * (d % 16) + 2) (4 * (d % 16))

/-- Priority a received frame is charged to: 0 in PAUSE mode (R122). -/
def State.chargePrio (s : State) (p : Nat) (f : Frame) : Nat :=
  if s.rd HPT_FC_CFG_FC_MODE p = 1 then 0 else s.framePrio p f

/-- FC_CFG has changed, FC_MODE having been `mode` (R122): a priority newly named takes headroom; one no longer named is lossy at once, an
XOFF held for it ends in the mode that sent it, and its headroom goes back once empty. -/
def State.fcAfter (s : State) (mode p : Nat) : State :=
  let s := (List.range 8).foldl (fun (s : State) q =>
    if s.named p q then s.grantHeadroom p q true
    else
      let s := s.setPending p q false
      let s := if s.xoffSent p q then s.endXoff mode p [q] else s
      s.subHead p q 0) s
  s.afterFree p

/-- Configuration registers of the page (R46) return to their reset values, but for MAC_ADDR, which firmware loads again (R137). -/
def State.portRegsReset (s : State) (p : Nat) : State :=
  (regsHPT.filter (fun d => d.isRw)).foldl (fun (s : State) d =>
    (List.range d.count).foldl (fun (s : State) i =>
      let k := regKey (0x100 + p) (d.off + i * d.stride)
      s.setReg k (resetKey k)) s) s

/-- The port's internal state returns to what it is at reset (R38): storms, holds, XOFFs, announcements, stamps; its link comes up anew. Frames
it still holds keep their cells. -/
def State.portInner (s : State) (p : Nat) : State :=
  let s := ((s.wr HPT_FC_STAT_STORM 0 p).wr HPT_FC_STAT_TX_XOFF 0 p).modPort p (fun x => { rxq := x.rxq, txq := x.txq })
  s.portLeaves p (if s.rd PG_CTRL_EN (0x100 + p) = 1 then s.bringUp p else 0) 0

/-- A soft reset starts (R39): BUSY until SOFT_RST_DONE. -/
def State.softReset (s : State) (p : Nat) : State :=
  let mode := s.rd HPT_FC_CFG_FC_MODE p
  let s := ((s.portRegsReset p).portInner p).fcAfter mode p
  (s.wr PG_CTRL_SOFT_RST 1 (0x100 + p)).wr PG_STAT_BUSY 1 (0x100 + p)

/-- SOFT_RST_DONE (R39): BUSY clears, PG_GEN rises. -/
def State.softRstDone (s : State) (page : Nat) : State :=
  if s.rd PG_CTRL_SOFT_RST page = 1 then
    ((s.wr PG_CTRL_SOFT_RST 0 page).wr PG_STAT_BUSY 0 page).bumpGen page
  else s

def execSoftRstDone (page : Nat) (s : State) : Res := .next (s.softRstDone page)

end Sys2Proof.Machine
end

