-- ==== Sys2Proof/Machine/Ports.lean ====
section
/-! DEFINITION. The commands of the host ports (05_host_ports.md): link states, pause frames, storms, addresses, and the
frames a port receives and sends (R78, R79, R115 to R140). -/

namespace Sys2Proof.Machine

/-! ### Link states (R118, R135) -/

/-- State of a port. -/
def State.portSt (s : State) (p : Nat) : Nat := s.rd PG_STAT_STATE (0x100 + p)

def execAutonegResolved (port : Nat) (s : State) : Res :=
  .next (if s.portSt port = 1 then (s.modPort port (fun x => { x with anFails := 0 })).setPortSt port (if s.rd HPT_MODE_LT_EN port = 1 then 2 else 3) else s)

/-- AN_ATTEMPT_FAIL (R118): AN_FAIL once per ten failed attempts. -/
def execAnAttemptFail (port : Nat) (s : State) : Res :=
  .next (if s.portSt port = 1 then
    let n := (s.port port).anFails + 1
    if n < 10 then s.modPort port (fun x => { x with anFails := n })
    else (s.modPort port (fun x => { x with anFails := 0 })).raise (0x100 + port) 2
  else s)

def execTrainingDone (port : Nat) (s : State) : Res :=
  .next (if s.portSt port = 2 then s.setPortSt port 3 else s)

def execTrainFail (port : Nat) (s : State) : Res :=
  .next (if s.portSt port = 2 then (s.raise (0x100 + port) 3).setPortSt port (if s.rd HPT_MODE_AN_EN port = 1 then 1 else 2) else s)

/-- A port enters UP: LINK_UP, its addresses are announced, hosted entries without a place are placed (R132, R133, R135). -/
def State.portRises (s : State) (p : Nat) : State :=
  let s := (s.setPortSt p 4).wr HPT_LINK_STAT_LANE_LOCK (if s.rd HPT_MODE_SPEED p = 2 then 3 else 15) p
  let s := (s.modPort p (fun x => { x with fecBad := 0 })).raise (0x100 + p) 0
  let s := if s.silent then s else s.announceAll p
  (s.placeHosted (fun _ => false)).kickTx p

def execLinkUp (port : Nat) (s : State) : Res := .next (if s.portSt port = 3 then (s.portRises port).settle else s)

/-- Code of a cause in LINK_STAT.DOWN_CAUSE. -/
def PortDownCause.code : PortDownCause → Nat
  | .signalLoss => 1 | .alignLoss => 2 | .localFault => 3 | .highSer => 5

def execLinkDown (port : Nat) (cause : PortDownCause) (s : State) : Res :=
  .next (if s.portUp port then (((s.portLeaves port (s.bringUp port) (PortDownCause.code cause)).modPort port (fun x => { x with anFails := 0 })).kickTx port).settle else s)

def execRemoteFault (port : Nat) (s : State) : Res :=
  .next (if s.portUp port then ((s.portLeaves port 5 4).kickTx port).settle else s)

def execRemoteFaultClear (port : Nat) (s : State) : Res := .next (if s.portSt port = 5 then (s.portRises port).settle else s)

/-- FEC_WINDOW (R136, R139): 1 ms of a port's FEC; the third window in a row with uncorrectable codewords raises FEC_DEGRADE. -/
def execFecWindow (port : Nat) (corrCw uncorrCw corrSym : Nat) (s : State) : Res :=
  .next (if s.portUp port then
    let s := ((s.hptCount port 13 corrCw).hptCount port 14 uncorrCw).hptCount port 15 corrSym
    let n := if uncorrCw = 0 then 0 else (s.port port).fecBad + 1
    if n < 3 then s.modPort port (fun x => { x with fecBad := n })
    else (s.modPort port (fun x => { x with fecBad := 0 })).raise (0x100 + port) 4
  else s.modPort port (fun x => { x with fecBad := 0 }))

/-! ### Pause frames (R122 to R126) -/

/-- Nanoseconds of a number of quanta: 512 bit times each at the port's rate. -/
def State.quantaNs (s : State) (p n : Nat) : Nat := if s.rd HPT_MODE_SPEED p = 2 then divUp (n * 128) 100 else divUp (n * 64) 100

/-- A pause time for a priority, measured from its frame's reception (R123). -/
def State.pausePrio (s : State) (p q quanta at_ : Nat) : State :=
  let t := at_ + s.quantaNs p quanta
  let held := s.heldPrio p q
  s.modPort p (fun x =>
    if t ≤ s.mono then
      { x with holdUntil := NMap.erase x.holdUntil q, holdSince := NMap.erase x.holdSince q, freeSince := if held then NMap.insert x.freeSince q s.mono else x.freeSince }
    else
      { x with holdUntil := NMap.insert x.holdUntil q t, holdSince := if held then x.holdSince else NMap.insert x.holdSince q s.mono, freeSince := NMap.erase x.freeSince q })

/-- PFC_FRAME (R122, R123, R139): the oldest received PFC or PAUSE frame of a port. Frames that FC_MODE does not honour are counted
and otherwise ignored. -/
def State.pfcFrame (s : State) (p : Nat) : State :=
  match s.popRx p (fun f => match f.frame.body with | .pfc _ => true | .pause _ => true | _ => false) with
  | none => s
  | some (f, s) =>
    let mode := s.rd HPT_FC_CFG_FC_MODE p
    match f.frame.body with
    | .pfc qs =>
      let qs := qs.filter (fun x => decide (x.1 < 8))
      let s := qs.foldl (fun (s : State) x => s.hptCount p (16 + x.1)) s
      if mode = 2 then (qs.foldl (fun (s : State) x => s.pausePrio p x.1 (x.2 % 65536) f.arrival) s).kickTx p else s
    | .pause n =>
      let s := s.hptCount p 16
      if mode = 1 then ((List.range 8).foldl (fun (s : State) q => s.pausePrio p q (n % 65536) f.arrival) s).kickTx p else s
    | _ => s

def execPfcFrame (port : Nat) (s : State) : Res := .next ((s.pfcFrame port).settle)

/-- PAUSE_EXPIRY (R123): the pause time of a priority runs out. -/
def State.pauseExpiry (s : State) (p q : Nat) : State :=
  match NMap.find (s.port p).holdUntil q with
  | some t =>
    let s := s.upTo t
    (s.modPort p (fun x => { x with holdUntil := NMap.erase x.holdUntil q, holdSince := NMap.erase x.holdSince q, freeSince := NMap.insert x.freeSince q s.mono })).kickTx p
  | none => s

def execPauseExpiry (port : Nat) (prio : Nat) (s : State) : Res := .next ((s.pauseExpiry port prio).settle)

/-- XOFF_REFRESH (R125): an XOFF that lasts is repeated every REFRESH_US. -/
def State.xoffRefresh (s : State) (p q : Nat) : State :=
  match NMap.find (s.port p).xoffAt q with
  | some t =>
    if s.xoffSent p q then
      let s := s.upTo t
      let s := s.modPort p (fun x => { x with xoffAt := NMap.insert x.xoffAt q (s.mono + us (s.rd HPT_FC_CFG_REFRESH_US p)) })
      (s.queuePause p [(q, s.rd HPT_FC_CFG_XOFF_QUANTA p)]).kickTx p
    else s
  | none => s

def execXoffRefresh (port : Nat) (prio : Nat) (s : State) : Res := .next (s.xoffRefresh port prio)

/-- PAUSE_STORM (R126): the partner has held a priority for WD_MS without a break. -/
def State.pauseStorm (s : State) (p q : Nat) : State :=
  let wd := ms (s.rd HPT_FC_WD_WD_MS p)
  let x := s.port p
  match NMap.find x.holdSince q, NMap.find x.holdUntil q with
  | some a, some b =>
    if wd = 0 || (s.rd HPT_FC_STAT_STORM p / 2 ^ q) % 2 = 1 || decide (b < a + wd) then s
    else
      let s := s.upTo (a + wd)
      ((s.wr HPT_FC_STAT_STORM (s.rd HPT_FC_STAT_STORM p ||| 2 ^ q) p).raise (0x100 + p) 5).kickTx p
  | _, _ => s

def execPauseStorm (port : Nat) (prio : Nat) (s : State) : Res := .next ((s.pauseStorm port prio).settle)

/-- STORM_CLEAR (R126): WD_MS have passed with no hold on a priority in a storm, from the end of the last one: a zero pause time,
a hold that was taken as run out, or the moment it runs out by itself. -/
def State.stormClear (s : State) (p q : Nat) : State :=
  if (s.rd HPT_FC_STAT_STORM p / 2 ^ q) % 2 = 0 || s.heldPrio p q then s
  else
    let from_ := match NMap.find (s.port p).freeSince q with | some t => t | none => NMap.getD (s.port p).holdUntil q s.mono
    let s := s.upTo (from_ + ms (s.rd HPT_FC_WD_WD_MS p))
    ((s.wr HPT_FC_STAT_STORM (s.rd HPT_FC_STAT_STORM p - 2 ^ q) p).raise (0x100 + p) 6).kickTx p

def execStormClear (port : Nat) (prio : Nat) (s : State) : Res := .next ((s.stormClear port prio).settle)

/-! ### Addresses (R131, R132, R134) -/

/-- The entry that makes an address served on a port. -/
def State.servedEntry (s : State) (p : Nat) (a : IpAddr) : Option AddrEntry := (s.served p).find? (fun e => e.addr == a)

/-- Another MAC claims an address served on the port: ADDR_CONFLICT and one announcement in defence. -/
def State.defend (s : State) (p : Nat) (a : IpAddr) (m : Mac) : State :=
  match s.servedEntry p a with
  | some e => if m = s.portMac p || s.silent then s else (s.raise (0x100 + p) 7).sendAnnounce p e
  | none => s

/-- A reply leaves on the priority, the VLAN and the DSCP of its request, to the MAC that asked (R121, R131). -/
def State.replyTo (s : State) (p : Nat) (f : Frame) (mac : Mac) (len : Nat) (b : TxBody) : State :=
  (s.hptCount p 32).queueTx { port := p, prio := s.framePrio p f, tagged := f.tagged, vlan := f.vlan, pcp := f.pcp, dscp := f.dscp, dst := some mac, len := len + (if f.tagged then 4 else 0), body := b } []

/-- ARP_FRAME: the oldest received ARP frame of a port. -/
def State.arpFrame (s : State) (p : Nat) : State :=
  match s.popRx p (fun f => match f.frame.body with | .arp .. => true | _ => false) with
  | none => s
  | some (f, s) =>
    match f.frame.body with
    | .arp req sender target mac =>
      let s := s.defend p sender mac
      let s := if req && s.serves p target && !s.silent then s.replyTo p f.frame mac 64 (.arpReply target (s.portMac p)) else s
      s.consumeRx p f
    | _ => s

def execArpFrame (port : Nat) (s : State) : Res := .next ((s.arpFrame port).settle)

/-- NEIGHBOUR_FRAME: the oldest received neighbour solicitation or advertisement of a port. -/
def State.neighbourFrame (s : State) (p : Nat) : State :=
  match s.popRx p (fun f => match f.frame.body with | .neighbour .. => true | _ => false) with
  | none => s
  | some (f, s) =>
    match f.frame.body with
    | .neighbour sol target mac =>
      let s := if sol then (if target.v6 && s.serves p target && !s.silent then s.replyTo p f.frame mac 90 (.neighbourAdv target (s.portMac p) true true) else s)
        else s.defend p target mac
      s.consumeRx p f
    | _ => s

def execNeighbourFrame (port : Nat) (s : State) : Res := .next ((s.neighbourFrame port).settle)

/-- ANNOUNCE (R132): GAP_MS have passed since the last announcement of an address that has more to come: of its VLANs the one that is due
first. -/
def State.announceNext (s : State) (p : Nat) (a : IpAddr) : State :=
  let mine := (s.port p).announces.filter (fun x => x.addr == a)
  match mine.foldl (fun (m : Option Announce) x => match m with | some y => if x.next < y.next then some x else m | none => some x) none with
  | none => s
  | some x =>
    let s := s.upTo x.next
    let rest (y : Port) : List Announce := y.announces.erase x
    let more : List Announce := if x.left ≤ 1 then [] else [{ x with left := x.left - 1, next := s.mono + ms (s.rd HPT_ANNOUNCE_GAP_MS p) }]
    let s := s.modPort p (fun y => { y with announces := rest y ++ more })
    match (s.served p).find? (fun e => x.isFor e) with
    | some e => if s.silent then s else s.sendAnnounce p e
    | none => s.modPort p (fun y => { y with announces := y.announces.filter (fun z => !more.contains z) })

def execAnnounce (port : Nat) (addr : IpAddr) (s : State) : Res := .next (s.announceNext port addr)

/-- PTP_FRAME (R138): an event message is stamped in TB_NS as it arrived; both kinds go to the control cores, which steer TB_NS of the time
reference by what they find in them, in slews (R26, R335). The spec gives no form to that: the offset they find comes with the frame, in
nanoseconds (log 211). -/
def State.ptpFrame (s : State) (p : Nat) : State :=
  match s.popRx p (fun f => match f.frame.body with | .ptp .. => true | _ => false) with
  | none => s
  | some (f, s) =>
    let s := s.modPort p (fun x => { x with ptpSeen := x.ptpSeen + 1 })
    let s : State := match f.frame.body with
      | .ptp event off =>
        let s := if event then s.modPort p (fun x => { x with ptpStamps := x.ptpStamps ++ [(f.arrival : Int) + s.tbOff] }) else s
        if event && s.timeRef then { s with link := { s.link with slewPs := 1000 * off } } else s
      | _ => s
    s.consumeRx p f

def execPtpFrame (port : Nat) (s : State) : Res := .next ((s.ptpFrame port).settle)

/-! ### Receiving (R79, R120, R121, R128, R129, R137, R141, R169) -/

/-- The destination is the port's own address. -/
def State.toMe (s : State) (p : Nat) (d : DstMac) : Bool := match d with | .uni m => m == s.portMac p | _ => false

/-- A frame is accepted (R129). -/
def State.accepted (s : State) (p : Nat) (f : Frame) : Bool :=
  let me := s.toMe p f.dst
  match f.body with
  | .pfc _ | .pause _ => true
  | .arp .. => f.ipOk && (me || f.dst == .broadcast)
  | .neighbour .. => f.ipOk && (me || (match f.dst with | .solicitedNode a => s.serves p a | _ => false))
  | .ptp .. => f.ipOk && s.rd HPT_MODE_PTP_EN p == 1 && (me || f.dst == .ptpMulticast)
  | .sideband _ => me && s.rd MIR_SB_CFG_PORT == p
  | .roce _ dst _ _ _ => f.ipOk && me && s.serves p dst
  | .other => false

/-- Frames a quiescing port still takes: pause frames, ARP and neighbour requests (R137). -/
def passesQuiesce : FrameBody → Bool
  | .pfc _ | .pause _ => true
  | .arp request .. => request
  | .neighbour solicit .. => solicit
  | _ => false

/-- A request packet that carries CE causes a CNP (R169): one per QP and CNP_GAP_US, from the port of arrival. -/
def State.cnpFor (s : State) (p : Nat) (f : Frame) (k : Packet) : State :=
  let n := k.destQpn
  let q := s.qp n
  let due := match q.cnpAt with | some t => decide (us (s.rd RDX_CNP_CFG_CNP_GAP_US) ≤ s.mono - t) | none => true
  if k.transport == .rc && k.opcode != 0x11 && s.rd RDX_CNP_CFG_EN == 1 && s.homeOf n && (s.qState n == 2 || s.qState n == 3) && due then
    let s := (s.modQp n (fun q => { q with cnpAt := some s.mono })).rdxCount 12
    s.queueTx { port := p, prio := s.rd RDX_CNP_CFG_CNP_PRIO, tagged := f.tagged, vlan := f.vlan, pcp := s.rd RDX_CNP_CFG_CNP_PRIO, dscp := s.rd RDX_CNP_CFG_CNP_DSCP, dst := s.qMac n, len := frameLen f.tagged false 16 0, body := .cnp (s.qf n 1 23 0) } []
  else s

/-- A frame enters the port's received frames with the cells it is charged. -/
def State.takeRx (s : State) (p : Nat) (f : Frame) (prio cells : Nat) (head : Bool) : State :=
  s.modPort p (fun x => { x with rxq := x.rxq ++ [(⟨f, prio, cells, head, s.mono⟩ : RxFrame)] })

/-- FRAME_RECEIVED: a whole frame with its FCS. A frame that R129 refuses is RX_FILTERED on a quiescing port too: R137 speaks of those R129
accepts (DESIGN CHOICE, log 205). -/
def State.frameReceived (s : State) (p : Nat) (f : Frame) : State :=
  if !s.portUp p then s
  else if f.len < 64 then s.hptCount p 6
  else if s.rd HPT_FRAME_MAX_FRAME p < f.len then s.hptCount p 5
  else if !f.fcsOk then s.hptCount p 4
  else
    let s := (s.hptCount p 0).hptCount p 1 f.len
    if !s.accepted p f then s.hptCount p 7
    else if s.quiescing (0x100 + p) && !passesQuiesce f.body then s.hptCount p 8
    else
      let n := cellsOf f.len
      match f.body with
      | .pfc _ | .pause _ => s.takeRx p f 0 0 false
      | .sideband _ =>
        (s.addLink n).takeRx p f 0 n false
      | b =>
        let s := if f.ecn = 3 && (match b with | .roce .. => true | _ => false) then s.hptCount p 12 else s
        let bad : Bool := match b with | .roce _ _ _ k _ => k.transport == .other | _ => false
        let isRoce : Bool := match b with | .roce .. => true | _ => false
        let idle : Bool := match b with | .roce _ _ _ k cm => k.transport == .udQp1 && (cm.isNone || cm == some .other) | _ => false
        if bad then s.rdxCount 16
        else if isRoce && (s.ingressClosed || s.silent) then s
        else if idle then s
        else
          let q := s.chargePrio p f
          match s.admitFrame p q n with
          | (s, none) => s
          | (s, some head) =>
            let s := (s.takeRx p f q n head).askIn .ingress (s.rd HTH_PART_PKT_BASE_MIB) s.hearth.layout.pkt (divUp f.len 64)
            match b with
            | .roce _ _ _ k _ => if f.ecn = 3 then s.cnpFor p f k else s
            | _ => s

def execFrameReceived (port : Nat) (frame : Frame) (s : State) : Res := .next (s.frameReceived port frame)

/-! ### Sending (R75, R76, R78, R80, R127, R135, R168) -/

/-- A frame leaves with CE (R127): by its depth, its priority's marking, whether it carries ECT; between KMIN and KMAX by a draw in
256ths. -/
def State.ecnMarks (s : State) (f : TxFrame) (draw : Nat) : Bool :=
  let lo := s.rd HPT_ECN_KMIN f.port * 1024
  let hi := s.rd HPT_ECN_KMAX f.port * 1024
  (s.rd HPT_ECN_EN f.port / 2 ^ f.prio) % 2 == 1 && f.ect && (decide (hi ≤ f.depth)
    || (decide (lo ≤ f.depth) && decide ((draw % 256) * (hi - lo) < s.rd HPT_ECN_PMAX f.port * (f.depth - lo))))

/-- A NOTIFY is complete when its SEND has left (R206). -/
def State.notifyLeft (s : State) (qpn psn : Nat) : State :=
  s.chains.runs.foldl (fun (s : State) (e : Nat × Run) =>
    if (s.run e.1).notifyPsn = some psn && bits (wordAt (s.slot e.1 (s.curStep e.1)) 4) 55 32 = qpn then s.chainStepDone e.1 else s) s

/-- FRAME_TX_END: the last bit of a port's frame leaves. `gatherBad`: a line of it was found uncorrectable during the gather. -/
def State.frameTxEnd (s : State) (p : Nat) (gatherBad : Bool) (draw : Nat) : State :=
  match (s.port p).cur with
  | none => s
  | some f =>
    let s := s.modPort p (fun x => { x with cur := none })
    if !s.portUp p then (((s.freeTx f).hptCount p 9).afterFree p).kickTx p
    else
      let ce := s.ecnMarks f draw
      let bad := gatherBad && !f.pins.isEmpty
      let s := f.pins.foldl (fun (s : State) i => s.askWay .gather i) s
      let s := s.askIn .gather (s.rd HTH_PART_PKT_BASE_MIB) s.hearth.layout.pkt f.cells
      let s := (s.emit (.hostFrame f ce bad)).raiseIf bad 8 10
      let s := (s.hptCount p 2).hptCount p 3 f.len
      let s := if ce then s.hptCount p 11 else s
      let s := ((s.freeTx f).afterFree p).kickTx p
      match f.body with
      | .send q psn pay => (s.pmuCount 0x11 9 p (s.qTenant q) pay.length).notifyLeft q psn
      | .readResp q _ _ _ _ pay => s.pmuCount 0x11 9 p (s.qTenant q) pay.length
      | _ => s

def execFrameTxEnd (port : Nat) (gatherBad : Bool) (ecnDraw : Nat) (s : State) : Res :=
  .next ((s.frameTxEnd port gatherBad ecnDraw).settle)

end Sys2Proof.Machine
end

