-- ==== Sys2Proof/Machine/ReqOps.lean ====
section
/-! DEFINITION. What every request packet of a queue pair goes through (06_rdma_transport.md): its turn, its context and key, its
PSN, duplicates, NAKs and RNR NAKs, and the operations it becomes (R141, R144 to R166, R181 to R184). -/

namespace Sys2Proof.Machine

/-! ### Which frame is next -/

/-- RC opcodes that are no requests: the answer to a device-initiated SEND (R149). -/
def isAck (op : Nat) : Bool := op == 0x11

/-- The oldest received request of a port that a test admits, no earlier request of its QP waiting on the port. -/
def findReq (ok : Nat → Bool) : List RxFrame → List Nat → Option (RxFrame × Packet)
  | [], _ => none
  | f :: fs, seen =>
    match f.frame.body with
    | .roce _ _ _ k _ =>
      if k.transport == .rc && !isAck k.opcode then
        if seen.contains k.destQpn then findReq ok fs seen
        else if ok k.opcode then some (f, k)
        else findReq ok fs (k.destQpn :: seen)
      else findReq ok fs seen
    | _ => findReq ok fs seen

/-- Takes a frame out of a port's received frames; its cells stay charged. -/
def State.removeRx (s : State) (p : Nat) (f : RxFrame) : State := s.modPort p (fun x => { x with rxq := x.rxq.erase f })

/-- A received frame is done with: its cells return. -/
def State.doneRx (s : State) (p : Nat) (f : RxFrame) : State := (s.removeRx p f).consumeRx p f

/-- A received frame is a request packet of a QP. -/
def RxFrame.isReqOf (f : RxFrame) (n : Nat) : Bool :=
  match f.frame.body with
  | .roce _ _ _ k _ => k.transport == .rc && k.destQpn == n && !isAck k.opcode
  | _ => false

/-- Later requests of a QP that have arrived are discarded (R161). -/
def State.discardRx (s : State) (n : Nat) : State :=
  (s.ctxHold n false).ports.foldl (fun (s : State) (e : Nat × Port) =>
    ((s.port e.1).rxq.filter (fun f => f.isReqOf n)).foldl (fun (s : State) f => s.doneRx e.1 f) s) (s.ctxHold n false)

/-! ### Answers a request draws at once -/

/-- The source address of a frame is IPv6. -/
def frameV6 (f : Frame) : Bool := match f.body with | .roce src _ _ _ _ => src.v6 | _ => false

/-- The MAC a request came from: that of its answers (R131). -/
def frameMac (f : Frame) : Option Mac := match f.body with | .roce _ _ m _ _ => some m | _ => none

/-- An operation of a request packet: who it is for and how its answer is addressed (R121, R144). -/
def State.reqOp (s : State) (p : Nat) (f : RxFrame) (k : Packet) (kind : OpKind) : Op :=
  { id := 0, for_ := .host k.destQpn, kind := kind, psn := k.psn, lastPsn := k.psn, tenant := s.qTenant k.destQpn, ackReq := k.ackReq, port := p, prio := s.framePrio p f.frame, tagged := f.frame.tagged, vlan := f.frame.vlan, pcp := f.frame.pcp, dscp := f.frame.dscp, mac := frameMac f.frame, v6 := frameV6 f.frame, cells := f.cells, rxHead := f.inHeadroom, cellPrio := f.prio, before := (s.qp k.destQpn).msg }

/-- A NAK takes its place among the answers of the QP (R154, R161). -/
def State.nakReq (s : State) (p : Nat) (f : RxFrame) (k : Packet) (syn : Nat) : State :=
  s.addOp { s.reqOp p f k (.nak syn) with issued := true, placed := true }

/-- A NAK for invalid request (R149 to R151). -/
def State.invalidReq (s : State) (p : Nat) (f : RxFrame) (k : Packet) : State := s.nakReq p f k 0x61

/-- A failed key check: counted, recorded, NAK 0x62 (R160, R181). -/
def State.accessNak (s : State) (p : Nat) (f : RxFrame) (k : Packet) (cause key : Nat) : State :=
  ((s.keyFail cause key k.destQpn).pmuCount 7 1 0 (s.qTenant k.destQpn)).nakReq p f k 0x62

/-- An RNR NAK (R160, R161): the request and the later ones that have arrived are discarded without effect; EPSN stays. -/
def State.rnrReq (s : State) (p : Nat) (f : RxFrame) (k : Packet) (c : Rnr) : State :=
  let n := k.destQpn
  let s := (s.rnrCount c).discardRx n
  let s := s.smpDiscard n k.psn
  (s.modQp n (fun q => { q with nakSent := false })).nakReq p f k (0x20 + s.rd TIR_RNR_TIMER_CODE)

/-- A NAK that will take the QP to ERROR waits for its turn: what arrives after it has no effect. -/
def State.nakPending (s : State) (n : Nat) : Bool :=
  (s.qpOps n).any (fun o => match o.kind with | .nak v => decide (0x61 ≤ v) | _ => false)

/-- A packet ahead of EPSN (R164): one NAK 0x60 per gap. -/
def State.aheadReq (s : State) (p : Nat) (f : RxFrame) (k : Packet) : State :=
  let n := k.destQpn
  if (s.qp n).nakSent then s.consumeRx p f
  else
    let s := (s.modQp n (fun q => { q with nakSent := true })).rdxCount 4
    s.addOp { s.reqOp p f k (.nak 0x60) with psn := s.qEpsn n, issued := true, placed := true }

/-! ### Taking a new request -/

/-- EPSN moves past a packet's PSNs (R164). -/
def State.takePsn (s : State) (n by_ : Nat) : State :=
  (s.setQf n 1 55 32 (s.qEpsn n + by_)).modQp n (fun q => { q with nakSent := false })

/-- Adds the operations of one packet: cut at region boundaries and, in a region of the twin's, into 4,096 bytes (R346). The last one
carries what ends the packet. -/
def State.addPieces (s : State) (o : Op) (pool len : Nat) (data : List Byte) : State :=
  let ps := State.pieces (len / 4096 + 3) s pool len
  if ps.isEmpty then s.addOp { o with pool := pool, len := len }
  else
    let n := ps.length
    (List.range n).foldl (fun (s : State) i =>
      let x := nth (pool, len) ps i
      let fin := i + 1 == n
      s.addOp { o with seg := i, pool := x.1, len := x.2, data := (data.drop (x.1 - pool)).take x.2, cells := (if fin then o.cells else 0), stamp := (if fin then o.stamp else none), endsMsg := o.endsMsg && fin }) s

/-- Tier of a line as a message finds it (R466): 0 in the cache, 2 on NAND, else 1. -/
def State.tierOf (s : State) (pool : Nat) : Nat :=
  if (s.findWay (pool / 64)).isSome then 0
  else match (s.pte (pool / 4096)).st with
    | .media => 2
    | .fetching => 2
    | _ => 1

/-- A message begins: it is counted (R461) and may be sampled (R465). `ev` is its event number: READ 0, WRITE 1, atomic 2, SEND 3,
FLUSH 4. Class 3 is a message without a key. -/
def State.msgBegins (s : State) (p : Nat) (f : RxFrame) (k : Packet) (ev cls len : Nat) (pool : Option Nat) : State :=
  let n := k.destQpn
  let t := s.qTenant n
  let s := s.pmuCount 0x11 ev p t
  let s := if cls = 3 then s else s.pmuCount 7 0 0 t
  if s.rd SMP_CFG_EN = 0 then s
  else
    let fw : Bool := match pool with | some x => !s.owns (regionOf x) | none => false
    let tier := match pool with | some x => s.tierOf x | none => 0
    let w0 : Word64 := BitVec.ofInt 64 ((f.arrival : Int) + s.tbOff)
    let w1 : Word64 := BitVec.ofNat 64 (n % 2 ^ 24 + (k.opcode % 256) * 2 ^ 24 + (p % 128) * 2 ^ 32 + b2n fw * 2 ^ 39 + t * 2 ^ 40 + cls * 2 ^ 48 + tier * 2 ^ 50)
    let w2 : Word64 := BitVec.ofNat 64 (k.psn % 2 ^ 24 + (len % 2 ^ 32) * 2 ^ 32)
    let w3 : Word64 := BitVec.ofNat 64 (pool.getD 0 % 2 ^ 48)
    s.smpStart p n t (min ev 3) [w0, w1, w2, w3] k.psn f.arrival

/-- Payload received is counted (R461). -/
def State.rxPayload (s : State) (p : Nat) (k : Packet) : State :=
  if k.payload.isEmpty then s else s.pmuCount 0x11 8 p (s.qTenant k.destQpn) k.payload.length

/-- Key index an rkey names. -/
def rkeyIndex (k : Packet) : Nat := k.rkey.toNat / 4096

/-- Parts of the opcodes of SENDs and WRITEs: 0 First, 1 Middle, 2 Last, 3 Last with immediate, 4 Only, 5 Only with immediate. -/
def partOf (op : Nat) : Nat := if op < 6 then op else op - 6
def isFirst (op : Nat) : Bool := partOf op == 0
def isMiddle (op : Nat) : Bool := partOf op == 1
def isLast (op : Nat) : Bool := partOf op == 2 || partOf op == 3
def isOnly (op : Nat) : Bool := partOf op == 4 || partOf op == 5
def hasImm (op : Nat) : Bool := partOf op == 3 || partOf op == 5

/-- Receive mode of a QP (R151). -/
def State.recvMode (s : State) (n : Nat) : Nat := s.qf n 10 1 0

/-- Keys whose entries a request packet needs (R182, R183). -/
def State.keysNeeded (s : State) (k : Packet) : List Nat :=
  let ring := if s.recvMode k.destQpn = 2 then [s.qf k.destQpn 10 51 32] else []
  let op := k.opcode
  if op < 6 then (if isFirst op || isOnly op then ring else [])
  else if op < 12 then
    (if (isFirst op || isOnly op) && k.dmaLen != 0 then [rkeyIndex k] else []) ++ (if hasImm op then ring else [])
  else if op = 0x0C then (if k.dmaLen = 0 then [] else [rkeyIndex k])
  else if op = 0x13 || op = 0x14 || op = 0x1C || op = 0x1D then [rkeyIndex k]
  else []

/-- A packet of a served QP is counted: REQ_PKTS, LAST_RX_NS, PORT; RTR becomes RTS (R144 to R146). -/
def State.countReq (s : State) (p n : Nat) : State :=
  let s := (s.rdxCount 0).setQf n 14 63 0 s.tb
  let s := s.setQf n 0 22 16 p
  if s.qState n = 2 then s.setQf n 0 2 0 3 else s

/-- A request packet of the oldest kind admitted on a port: dropped (R144, R145, R160), left waiting for its context or its keys (R69,
R180), ahead of its turn (R164), a duplicate (R165), or new. -/
def State.request (s : State) (p : Nat) (ok : Nat → Bool)
    (dup new_ : State → Nat → RxFrame → Packet → State) : State :=
  match findReq ok (s.port p).rxq [] with
  | none => s
  | some (f, k) =>
    let n := k.destQpn
    if s.silent || s.ingressClosed then s.doneRx p f
    else if !s.homeOf n then (s.rdxCount 14).doneRx p f
    else if s.qState n != 2 && s.qState n != 3 then (s.rdxCount 15).doneRx p f
    else if s.rd HPT_FRAME_MAX_FRAME p < s.qPmtu n + 90 then (s.rdxCount 21).doneRx p f
    else
      let (here, s) := s.ctxUse n
      if !here then s
      else
        let (keyed, s) := s.keysReady (s.keysNeeded k)
        let s := s.ctxHold n (!keyed)
        if !keyed then s
        else if s.nakPending n then s.doneRx p f
        else
          let d := psnDist k.psn (s.qEpsn n)
          if d = 0 then new_ s p f k
          else
            let s := (s.removeRx p f).countReq p n
            if d < 2 ^ 23 then s.aheadReq p f k
            else
              let s := (s.rdxCount 2).setQf n 13 31 0 (s.qf n 13 31 0 + 1)
              dup s p f k

/-- A new packet leaves the received frames; its cells go with its operation. -/
def State.beginReq (s : State) (p : Nat) (f : RxFrame) (k : Packet) : State :=
  let s := ((s.removeRx p f).countReq p k.destQpn).rxPayload p k
  s.modQp k.destQpn (fun q => { q with nakSent := false })

/-! ### Duplicates (R165) -/

/-- A duplicate of a WRITE, SEND, FLUSH or ATOMIC WRITE: an ACK of the highest PSN at its ACK point, at once or when the original
reaches its own. -/
def State.dupWrite (s : State) (p : Nat) (f : RxFrame) (k : Packet) : State :=
  let n := k.destQpn
  let acked := s.qf n 15 23 0
  let o := s.reqOp p f k .write
  let s := s.consumeRx p f
  if psnDist acked k.psn < 2 ^ 23 then
    (s.queueTx (o.frame 4 0 (.ack n acked 0x1F (s.qf n 2 23 0))) []).rdxCount 1
  else
    { s with dp := { s.dp with ops := s.dp.ops.map (fun x => if x.for_ == OpFor.host n && x.psn == k.psn then { x with ackReq := true } else x) } }

/-- A response of a READ that has not been sent. -/
def TxBody.lateRead (b : TxBody) (n psn : Nat) : Bool :=
  match b with
  | .readResp q r _ _ _ _ => q == n && decide (psnDist r psn < 2 ^ 23)
  | _ => false

/-- Responses of a QP's READs from a PSN on that have not been sent are cancelled: frames queued, chains that wait for cells, operations. -/
def State.cancelReads (s : State) (n psn : Nat) : State :=
  let waits := s.hearth.egressWait.filter (fun w => w.frame.body.lateRead n psn)
  let s : State := { s with hearth := { s.hearth with egressWait := s.hearth.egressWait.filter (fun w => !w.frame.body.lateRead n psn) } }
  let s := waits.foldl (fun (s : State) w => (w.frees.foldl (fun s h => s.freeRx h) (s.freeTx w.frame)).afterFree w.frame.port) s
  let s := s.ports.foldl (fun (s : State) (e : Nat × Port) =>
    let late := (s.port e.1).txq.filter (fun x => x.body.lateRead n psn)
    if late.isEmpty then s
    else (((late.foldl (fun (s : State) x => s.freeTx x) s).modPort e.1 (fun x => { x with txq := x.txq.filter (fun y => !y.body.lateRead n psn) })).afterFree e.1)) s
  let late (o : Op) : Bool := o.for_ == .host n && o.kind == .read && decide (psnDist o.psn psn < 2 ^ 23)
  let gone := readsIn (s.dp.ops.filter late)
  (s.dropOps late).setQf n 2 30 24 (s.qf n 2 30 24 - gone)

/-- Packets of a READ of so many bytes (R149). -/
def State.readPackets (s : State) (n len : Nat) : Nat := max 1 (divUp len (s.qPmtu n))

/-- The operations of a READ from its first PSN on, one packet after another. -/
def State.addRead (s : State) (o : Op) (pool len : Nat) (ends : Nat → Bool) : State :=
  let n := match o.for_ with | .host n => n | _ => 0
  let m := s.qPmtu n
  let c := s.readPackets n len
  (List.range c).foldl (fun (s : State) j =>
    let psn := (o.psn + j) % 2 ^ 24
    let fin := j + 1 == c
    let x := { o with psn := psn, lastPsn := (o.psn + c - 1) % 2 ^ 24, first := j == 0, last := fin, endsMsg := fin && ends psn, cells := (if fin then o.cells else 0), stamp := (if fin then o.stamp else none) }
    s.addPieces x (pool + j * m) (min m (len - j * m)) []) s

/-- Moves the operations added last among those of their QP to their place by PSN: a repeated READ's responses come before what followed
it, and after what it followed (R154, R165). -/
def State.toPlace (s : State) (n from_ psn : Nat) : State :=
  let newer (o : Op) : Bool := o.for_ == OpFor.host n && decide (from_ ≤ o.id)
  let mine := s.dp.ops.filter newer
  let rest := s.dp.ops.filter (fun o => !newer o)
  let before (o : Op) : Bool := o.for_ != OpFor.host n || o.psn == psn || decide (psnDist psn o.psn < 2 ^ 23)
  let head := rest.takeWhile before
  { s with dp := { s.dp with ops := head ++ mine ++ rest.drop head.length } }

/-- A duplicate READ is executed again from its PSN, under the check of any request: the length limit and the depth of R150, the key. -/
def State.dupRead (s : State) (p : Nat) (f : RxFrame) (k : Packet) : State :=
  let n := k.destQpn
  let s := s.cancelReads n k.psn
  if decide (2 ^ 31 < k.dmaLen) || !decide (s.qf n 2 30 24 < s.qf n 0 62 56) then s.invalidReq p f k
  else
    let o := s.reqOp p f k .read
    let first := s.dp.nextOp
    let acked := s.qf n 15 23 0
    let ends (psn : Nat) : Bool := decide (2 ^ 23 ≤ psnDist acked psn)
    let more (s : State) : State := s.setQf n 2 30 24 (s.qf n 2 30 24 + 1)
    if k.dmaLen = 0 then ((more s).addRead o 0 0 ends).toPlace n first k.psn
    else match s.keyCheck k.rkey.toNat true (s.qTenant n) (rightOf .read) (some (k.va, k.dmaLen)) with
      | .error c => s.accessNak p f k c (rkeyIndex k)
      | .ok (e, pool) =>
        let (s, st) := (more s).takeHold n (rkeyIndex k)
        (s.addRead { o with cls := e.cls, stamp := some st } pool k.dmaLen ends).toPlace n first k.psn

/-- A duplicate atomic is answered from the stored results, those the owner kept among them (R165, R347). -/
def State.dupAtomic (s : State) (p : Nat) (f : RxFrame) (k : Packet) : State :=
  let n := k.destQpn
  let o := s.reqOp p f k .cas
  let s := s.consumeRx p f
  let kept := (s.pair.kept.filter (fun x => x.qpn == n)).map (fun x => (x.psn, x.result))
  match ((s.qp n).atomics ++ kept).find? (fun x => x.1 == k.psn) with
  | some x => (s.queueTx (o.frame 12 0 (.atomicAck n k.psn (s.qf n 2 23 0) x.2)) []).rdxCount 1
  | none => if (s.qpOps n).any (fun x => x.psn == k.psn) then s else s.rdxCount 3

end Sys2Proof.Machine
end

