-- ==== Sys2Proof/Machine/Requests.lean ====
section
/-! DEFINITION. The requests a host sends on a queue pair and the steps of a trigger chain (06_rdma_transport.md,
08_trigger_chains.md): READ, WRITE, atomics, ATOMIC WRITE, FLUSH, SEND into a ring or to a chain. -/

namespace Sys2Proof.Machine

/-! ### READ, atomics, ATOMIC WRITE, FLUSH (R149, R150, R153 to R156, R181 to R184) -/

/-- A READ or atomic fits the responder resources (R150). -/
def State.rdAtomFits (s : State) (n : Nat) : Bool := decide (s.qf n 2 30 24 < s.qf n 0 62 56)

/-- A READ that passed its checks: its operation, the resource it takes, its PSNs (R150, R154). -/
def State.readGoes (s : State) (p : Nat) (f : RxFrame) (k : Packet) (o : Op) (cls pool : Nat) : State :=
  let n := k.destQpn
  let s := s.msgBegins p f k 0 cls k.dmaLen (if k.dmaLen = 0 then none else some pool)
  let s := (s.setQf n 2 30 24 (s.qf n 2 30 24 + 1)).addRead o pool k.dmaLen (fun _ => true)
  (s.takePsn n (s.readPackets n k.dmaLen)).stageQp n

/-- A new READ request. -/
def State.newRead (s : State) (p : Nat) (f : RxFrame) (k : Packet) : State :=
  let n := k.destQpn
  let t := s.qTenant n
  let s := s.beginReq p f k
  if (s.qp n).msg.isSome || decide (2 ^ 31 < k.dmaLen) || !k.payload.isEmpty || !s.rdAtomFits n then s.invalidReq p f k
  else
    let o := s.reqOp p f k .read
    if k.dmaLen = 0 then s.readGoes p f k o 3 0
    else match s.keyCheck k.rkey.toNat true t (rightOf .read) (some (k.va, k.dmaLen)) with
      | .error c => s.accessNak p f k c (rkeyIndex k)
      | .ok (e, pool) =>
        if !s.regionsServed pool k.dmaLen then s.rnrReq p f k .region
        else
          let (s, st) := s.takeHold n (rkeyIndex k)
          s.readGoes p f k { o with cls := e.cls, stamp := some st } e.cls pool

/-- A new atomic or ATOMIC WRITE: 8 bytes, 8-byte aligned. `ev` as in `msgBegins`. -/
def State.newAtomic (s : State) (p : Nat) (f : RxFrame) (k : Packet) (kind : OpKind) (ev : Nat) : State :=
  let n := k.destQpn
  let t := s.qTenant n
  let s := s.beginReq p f k
  let isWrite := kind == .atomicWrite
  if (s.qp n).msg.isSome || k.va % 8 != 0 || k.payload.length != (if isWrite then 8 else 0) || decide (2 ^ 31 < k.dmaLen) || (!isWrite && !s.rdAtomFits n) then s.invalidReq p f k
  else match s.keyCheck k.rkey.toNat true t (rightOf kind) (some (k.va, 8)) with
    | .error c => s.accessNak p f k c (rkeyIndex k)
    | .ok (e, pool) =>
      if pool % 8 ≠ 0 then s.invalidReq p f k
      else match s.admitWrite t pool 8 64 with
        | some c => s.rnrReq p f k c
        | none =>
          let s := (s.msgBegins p f k ev e.cls 8 (some pool)).reserveAt t pool 64
          let (s, st) := s.takeHold n (rkeyIndex k)
          let s := if isWrite then s else s.setQf n 2 30 24 (s.qf n 2 30 24 + 1)
          let s := s.modQp n (fun q => { q with ownersWritten := true })
          let s := s.addOp { s.reqOp p f k kind with cls := e.cls, pool := pool, len := 8, data := k.payload, cmp := k.compare, swap := k.swapAdd, stamp := some st }
          (s.takePsn n 1).stageQp n

/-- A new FLUSH: its key needs the right alone (R182). -/
def State.newFlush (s : State) (p : Nat) (f : RxFrame) (k : Packet) : State :=
  let n := k.destQpn
  let s := s.beginReq p f k
  if (s.qp n).msg.isSome || !k.payload.isEmpty || decide (2 ^ 31 < k.dmaLen) then s.invalidReq p f k
  else match s.keyCheck k.rkey.toNat true (s.qTenant n) (rightOf (.flush true)) none with
    | .error c => s.accessNak p f k c (rkeyIndex k)
    | .ok (e, _) =>
      let s := s.msgBegins p f k 4 e.cls 0 none
      let s := s.addOp { s.reqOp p f k (.flush k.flushPersist) with cls := e.cls }
      (s.takePsn n 1).stageQp n

/-! ### Receive rings (R148, R151, R152) -/

/-- Bytes of a slot and number of slots of a QP's ring. -/
def State.ringSlot (s : State) (n : Nat) : Nat := 2 ^ s.qf n 10 8 4
def State.ringCount (s : State) (n : Nat) : Nat := 2 ^ s.qf n 10 20 16

/-- Slots filled or about to be: RING_PROD and the headers not yet placed. -/
def State.ringProd (s : State) (n : Nat) : Nat :=
  s.qf n 12 63 0 + ((s.qpOps n).filter (fun o => o.kind == .send && !(o.placed && o.settled))).length

/-- Offset in the ring area of the slot the next message fills. -/
def State.ringOff (s : State) (n : Nat) : Nat := 64 + (s.ringProd n % s.ringCount n) * s.ringSlot n

/-- The key check of a range of the ring area (R182): the generation is not compared. Gives the class and the pool offset. -/
def State.ringKey (s : State) (n off len : Nat) : Except Nat (Key × Nat) :=
  let i := s.qf n 10 51 32
  s.keyCheck (i * 4096) false (s.qTenant n) 9 (some ((s.key i).vaBase + s.qf n 11 63 0 + off, len))

/-- What the ring's CONS says of the next message: not read yet, full, or room. -/
inductive RingRoom where
  | asking | full | room
  deriving DecidableEq, Repr

/-- CONS is read before each message (R152): asked for, still on its way, or read. -/
def State.ringAsk (s : State) (n : Nat) : RingRoom × State :=
  match (s.qp n).consVal with
  | some c => (if (s.ringProd n + 2 ^ 64 - c) % 2 ^ 64 = s.ringCount n then .full else .room, s)
  | none =>
    if (s.qp n).consAsked then (.asking, s)
    else match s.ringKey n 0 8 with
      | .error _ => (.full, s)
      | .ok (e, pool) =>
        (.asking, (s.modQp n (fun q => { q with consAsked := true })).addOp
          { id := 0, for_ := .ring n, kind := .read, cls := e.cls, tenant := s.qTenant n, pool := pool, len := 8 })

/-- The next message reads CONS again. -/
def State.ringUsed (s : State) (n : Nat) : State := s.modQp n (fun q => { q with consVal := none, consAsked := false })

/-- Header of a slot (R152). -/
def slotHeader (len imm prod : Nat) (immValid fromWrite : Bool) : List Byte :=
  toLe 4 len ++ toLe 4 imm ++ toLe 4 ((prod + 1) % 2 ^ 32) ++ toLe 4 (b2n immValid + 2 * b2n fromWrite)

/-- The header line of a slot is written last; it ends the packet. Bytes of the packet that lie in that line are applied with it (R158). -/
def State.addHeader (s : State) (o : Op) (slot cls len imm prod : Nat) (immValid fromWrite : Bool) (shared : List Byte := []) : State :=
  s.addOp { o with kind := .send, cls := cls, pool := slot, len := 16 + shared.length, data := slotHeader len imm prod immValid fromWrite ++ shared }

/-- Bytes of a slot's payload that lie in the line its header ends in. -/
def headerShares (slot : Nat) : Nat := (slot + 15) / 64 * 64 + 64 - (slot + 16)

/-- An operation of a packet that does not end it. -/
def Op.inner (o : Op) : Op := { o with cells := 0, stamp := none, endsMsg := false }

/-- First or Only packet of a SEND into a ring. No RETH gives the length of a SEND of several packets: its First reserves the whole slot
(DESIGN CHOICE, log 208). -/
def State.ringFirst (s : State) (p : Nat) (f : RxFrame) (k : Packet) : State :=
  let n := k.destQpn
  let t := s.qTenant n
  let slot := s.ringSlot n
  let only := isOnly k.opcode
  let len := k.payload.length
  if slot < len + 16 then (s.beginReq p f k).invalidReq p f k
  else match s.ringKey n (s.ringOff n) slot with
    | .error c => (s.beginReq p f k).accessNak p f k c (s.qf n 10 51 32)
    | .ok (e, pool) =>
      let need := if only then len + 16 else slot
      match s.admitWrite t pool need need with
      | some c => (s.beginReq p f k).rnrReq p f k c
      | none =>
        match s.ringAsk n with
        | (.asking, s) => s
        | (.full, s) => ((s.beginReq p f k).ringUsed n).rnrReq p f k .recv
        | (.room, s) =>
          let s := ((s.beginReq p f k).ringUsed n).msgBegins p f k 3 e.cls len (some pool)
          let s := s.reserve t pool need
          let prod := s.ringProd n
          let (s, st) := s.takeHold n (s.qf n 10 51 32)
          let s := s.modQp n (fun q => { q with ownersWritten := true })
          let o := { s.reqOp p f k .write with cls := e.cls }
          let s : State := if only then
              let h := min len (headerShares pool)
              let s := if len = h then s else s.addPieces o.inner (pool + 16 + h) (len - h) (k.payload.drop h)
              s.addHeader { o with stamp := some st } pool e.cls len k.imm.toNat prod (hasImm k.opcode) false (k.payload.take h)
            else
              let s := s.addPieces { o with endsMsg := false } (pool + 16) len k.payload
              s.modQp n (fun q => { q with msg := some { kind := .send, cls := e.cls, tenant := t, nextPool := pool + 16 + len, left := slot - 16 - len, len := len, stamp := some st, sink := 2, chain := 0, slot := pool, got := prod, reserve := need - len, key := s.qf n 10 51 32 } })
          (s.takePsn n 1).stageQp n

/-- Middle or Last packet of a SEND into a ring. -/
def State.ringNext (s : State) (p : Nat) (f : RxFrame) (k : Packet) (m : Msg) : State :=
  let n := k.destQpn
  let s := s.beginReq p f k
  let len := k.payload.length
  if m.left < len then s.invalidReq p f k
  else
    let o := { s.reqOp p f k .write with cls := m.cls }
    let total := m.len + len
    let s : State := if isLast k.opcode then
        let rest := m.reserve - len - 16
        let s := (s.addPieces o.inner m.nextPool len k.payload).unreserveRange m.tenant (m.nextPool + len) rest
        let s := s.smpMod n k.psn (fun ws => setNth ws 2 (setBits (wordAt ws 2) 63 32 total))
        (s.modQp n (fun q => { q with msg := none })).addHeader { o with stamp := m.stamp } m.slot m.cls total k.imm.toNat m.got (hasImm k.opcode) false
      else
        let s := s.addPieces { o with endsMsg := false } m.nextPool len k.payload
        s.modQp n (fun q => { q with msg := some { m with nextPool := m.nextPool + len, left := m.left - len, len := total, reserve := m.reserve - len } })
    (s.takePsn n 1).stageQp n

/-! ### Arming messages (R202 to R204) -/

/-- The header of an arming message is well formed. -/
def armHeaderOk (b : List Byte) : Bool := decide (32 ≤ b.length) && beNat (b.take 1) == 0xB3 && beNat ((b.drop 1).take 3) == 0

/-- The first ARMED chain bound to a QP whose tag matches (R203); none while the page quiesces (R210). -/
def State.matchChain (s : State) (n tag : Nat) : Option Nat :=
  if s.quiescing 0x10 || !s.ready 0x10 then none
  else
    let hit (e : Nat × List Word64) : Bool :=
      let w := wordAt e.2 2
      let mask := bits w 63 32
      bits (wordAt e.2 0) 2 0 == 1 && bits (wordAt e.2 1) 23 0 == n && (tag &&& mask) == (bits w 31 0 &&& mask)
    (s.chains.chains.find? hit).map Prod.fst

/-- Bytes a chain reserves (R204): every COPY's length, 64 for an ATOMIC; P2 is the message's. -/
def State.chainNeed (s : State) (i p2 : Nat) : Nat :=
  ((List.range (s.cf i 0 20 16)).map (fun j =>
    let e := s.slot i j
    let w := wordAt e 0
    match bits w 3 0 with
    | 1 => if bit w 11 then p2 % 2 ^ 32 else bits (wordAt e 4) 31 0
    | 3 => 64
    | _ => 0)).sum

/-- The chain's reservation is refused (R187, R204, R232). -/
def State.chainRefused (s : State) (t need : Nat) : Option Rnr :=
  let r := s.tenant t
  if r.wquota != 0xFFFFFFFF && decide (r.wquota * 2 ^ 20 < r.wused + need) then some .quota
  else if need = 0 then none
  else s.budgetRefuses need

/-- A packet of an arming message is captured: it draws an ACK of its own only where it asks for one. -/
def State.armPacket (s : State) (p : Nat) (f : RxFrame) (k : Packet) (i : Nat) (fin : Bool) : State :=
  let s := s.setRun i { s.run i with held := (s.run i).held ++ [(p, f.prio, f.cells, f.inHeadroom)] }
  let now := !fin || s.cf i 0 5 5 == 0
  let id := s.dp.nextOp
  let s := s.addOp { s.reqOp p f k (.arm i) with cells := 0, endsMsg := fin, issued := now, placed := now }
  if fin then s.setRun i { s.run i with ready := true, armOp := some id } else s

/-- A packet of an arming message whose run has ended before its Last (R201, R207): its data goes nowhere; the Last draws NAK 0x63 where the
message was to be acknowledged when the chain is DONE. -/
def State.armLate (s : State) (p : Nat) (f : RxFrame) (k : Packet) (i : Nat) (fin ackDone : Bool) : State :=
  let s := (s.freeRx (p, f.prio, f.cells, f.inHeadroom)).afterFree p
  s.addOp { s.reqOp p f k (if fin && ackDone then .nak 0x63 else .arm i) with cells := 0, endsMsg := fin, issued := true, placed := true }

/-- The run of an arming message in progress goes on. -/
def State.armLives (s : State) (n i : Nat) : Bool := s.cf i 0 2 0 == 2 && s.cf i 1 23 0 == n && !(s.run i).ready

/-- Message data is staged with the chain (R209, R350). -/
def State.stageData (s : State) (i off : Nat) (d : List Byte) : State :=
  let s := s.stageChain i
  if d.isEmpty then s else s.stage (.chainData i off d)

/-- First or Only packet of an arming message. -/
def State.armFirst (s : State) (p : Nat) (f : RxFrame) (k : Packet) : State :=
  let n := k.destQpn
  let t := s.qTenant n
  let s := s.beginReq p f k
  let b := k.payload
  if !armHeaderOk b then s.invalidReq p f k
  else
    let be (o l : Nat) : Nat := beNat ((b.drop o).take l)
    match s.matchChain n (be 4 4) with
    | none => s.rnrReq p f k .recv
    | some i =>
      let need := s.chainNeed i (be 24 8)
      match s.chainRefused t need with
      | some c => s.rnrReq p f k c
      | none =>
        let s := s.msgBegins p f k 3 3 b.length none
        let s := (s.wr TIR_DIRTY_RESERVED_BYTES (s.rd TIR_DIRTY_RESERVED_BYTES + need)).addWused t need 0
        let d := b.drop 32
        let s := (s.setCf i 0 2 0 2).setCf i 3 31 0 (s.cf i 3 31 0 + 1)
        let s := (((s.setCf i 3 35 32 0).setCf i 4 63 0 (be 8 8)).setCf i 5 63 0 (be 16 8)).setCf i 6 63 0 (be 24 8)
        let s := (s.setCf i 7 16 0 d.length).satInc TRG_COUNTS_FIRES 1
        let s := s.setRun i { data := d, reserve := need }
        let fin := isOnly k.opcode
        let s := s.armPacket p f k i fin
        let s := s.stageData i 0 d
        let s := if fin then s
          else s.modQp n (fun q => { q with msg := some { kind := .send, cls := 0, tenant := t, nextPool := 0, left := 65536 - d.length, len := b.length, stamp := none, sink := 1, chain := i, slot := s.cf i 0 5 5, got := 0, reserve := 0, key := 0 } })
        (s.takePsn n 1).stageQp n

/-- Middle or Last packet of an arming message. -/
def State.armNext (s : State) (p : Nat) (f : RxFrame) (k : Packet) (m : Msg) : State :=
  let n := k.destQpn
  let s := s.beginReq p f k
  let b := k.payload
  if m.left < b.length then s.invalidReq p f k
  else
    let i := m.chain
    let r := s.run i
    let off := r.data.length
    let fin := isLast k.opcode
    let s := if s.armLives n i then
        (((s.setRun i { r with data := r.data ++ b }).setCf i 7 16 0 (off + b.length)).armPacket p f k i fin).stageData i off b
      else s.armLate p f k i fin (m.slot == 1)
    let s := if fin then s.smpMod n k.psn (fun ws => setNth ws 2 (setBits (wordAt ws 2) 63 32 (m.len + b.length))) else s
    let s := s.modQp n (fun q => { q with msg := if fin then none else some { m with left := m.left - b.length, len := m.len + b.length } })
    (s.takePsn n 1).stageQp n

/-! ### SEND (R149 to R151) -/

/-- The packet's place in its message and its length are as R150 asks. -/
def State.partOk (s : State) (k : Packet) (kind : OpKind) : Bool :=
  let op := k.opcode
  let len := k.payload.length
  let m := s.qPmtu k.destQpn
  let inMsg : Bool := match (s.qp k.destQpn).msg with | some x => x.kind == kind | none => false
  let place := if isFirst op || isOnly op then (s.qp k.destQpn).msg.isNone else inMsg
  let size := if isFirst op || isMiddle op then len == m else if isLast op then decide (1 ≤ len) && decide (len ≤ m) else decide (len ≤ m)
  place && size

/-- A new SEND packet goes to the receive sink; an RC opcode that R149 does not list is an invalid request. -/
def State.newSend (s : State) (p : Nat) (f : RxFrame) (k : Packet) : State :=
  if 5 < k.opcode || !s.partOk k .send then (s.beginReq p f k).invalidReq p f k
  else match (s.qp k.destQpn).msg with
    | some m => if m.sink = 1 then s.armNext p f k m else s.ringNext p f k m
    | none =>
      match s.recvMode k.destQpn with
      | 1 => s.armFirst p f k
      | 2 => s.ringFirst p f k
      | _ => (s.beginReq p f k).invalidReq p f k

/-! ### RDMA WRITE (R149 to R153, R163) -/

/-- The lines of a WRITE packet are placed; an immediate fills a ring slot after them. -/
def State.writePacket (s : State) (p : Nat) (f : RxFrame) (k : Packet) (cls tenant pool : Nat) (stamp : Option Nat) (fin : Bool) (slot : Option (Nat × Nat)) : State :=
  let n := k.destQpn
  let o := { s.reqOp p f k .write with cls := cls, tenant := tenant }
  let len := k.payload.length
  let s := if len = 0 then s else s.modQp n (fun q => { q with ownersWritten := true })
  match slot with
  | none => s.addPieces { o with endsMsg := fin, stamp := if fin then stamp else none } pool len k.payload
  | some (sl, c) =>
    let prod := s.ringProd n
    let s := if len = 0 then s else s.addPieces { o.inner with stamp := stamp } pool len k.payload
    let s := (s.reserve (s.qTenant n) sl 16).modQp n (fun q => { q with ownersWritten := true })
    s.addHeader { o with tenant := s.qTenant n } sl c 0 k.imm.toNat prod true true

/-- What the receive sink says of a WRITE's immediate (R151): nothing to ask, an answer at once, or a slot with its class. -/
inductive Sink where
  | none | wait | invalid | access (cause : Nat) | rnr | slot (pool cls : Nat)
  deriving DecidableEq, Repr

/-- The sink of a packet with an immediate. A WRITE's immediate is no arming message, so no chain matches it. -/
def State.immSink (s : State) (k : Packet) : Sink × State :=
  let n := k.destQpn
  if !hasImm k.opcode then (.none, s)
  else match s.recvMode n with
    | 1 => (.rnr, s)
    | 2 =>
      match s.ringKey n (s.ringOff n) (s.ringSlot n) with
      | .error c => (.access c, s)
      | .ok (e, pool) =>
        match s.ringAsk n with
        | (.asking, s) => (.wait, s)
        | (.full, s) => (.rnr, s.ringUsed n)
        | (.room, s) => (.slot pool e.cls, s)
    | _ => (.invalid, s)

/-- A WRITE with immediate whose sink is refused with a NAK that ends the QP: no RNR NAK comes before it (R183). -/
def State.sinkNak (s : State) (k : Packet) : Option Sink :=
  let n := k.destQpn
  if !hasImm k.opcode then none
  else match s.recvMode n with
    | 1 => none
    | 2 => match s.ringKey n (s.ringOff n) (s.ringSlot n) with | .error c => some (.access c) | .ok _ => none
    | _ => some .invalid

/-- A WRITE packet meets its sink and goes on with the slot it may fill. -/
def State.withSink (s : State) (p : Nat) (f : RxFrame) (k : Packet) (go : State → Option (Nat × Nat) → State) : State :=
  let n := k.destQpn
  match s.immSink k with
  | (.none, s) => go (s.beginReq p f k) none
  | (.wait, s) => s
  | (.invalid, s) => (s.beginReq p f k).invalidReq p f k
  | (.access c, s) => (s.beginReq p f k).accessNak p f k c (s.qf n 10 51 32)
  | (.rnr, s) => (s.beginReq p f k).rnrReq p f k .recv
  | (.slot pool cls, s) => go ((s.beginReq p f k).ringUsed n) (some (pool, cls))

/-- First or Only packet of a WRITE. -/
def State.writeFirst (s : State) (p : Nat) (f : RxFrame) (k : Packet) : State :=
  let n := k.destQpn
  let t := s.qTenant n
  let only := isOnly k.opcode
  let len := k.payload.length
  if decide (2 ^ 31 < k.dmaLen) || (if only then len != k.dmaLen else decide (k.dmaLen ≤ len)) then (s.beginReq p f k).invalidReq p f k
  else if k.dmaLen = 0 then
    s.withSink p f k (fun s sl =>
      let s := (s.msgBegins p f k 1 3 0 none).writePacket p f k 0 t 0 none true sl
      (s.takePsn n 1).stageQp n)
  else match s.keyCheck k.rkey.toNat true t (rightOf .write) (some (k.va, k.dmaLen)) with
    | .error c => (s.beginReq p f k).accessNak p f k c (rkeyIndex k)
    | .ok (e, pool) =>
      match (if (s.sinkNak k).isSome then none else s.admitWrite t pool k.dmaLen k.dmaLen) with
      | some c => (s.beginReq p f k).rnrReq p f k c
      | none =>
        s.withSink p f k (fun s sl =>
          let s := (s.msgBegins p f k 1 e.cls k.dmaLen (some pool)).reserve t pool k.dmaLen
          let (s, st) := s.takeHold n (rkeyIndex k)
          let s := s.writePacket p f k e.cls t pool (some st) only sl
          let s := if only then s
            else s.modQp n (fun q => { q with msg := some { kind := .write, cls := e.cls, tenant := t, nextPool := pool + len, left := k.dmaLen - len, len := k.dmaLen, stamp := some st, sink := 0, chain := 0, slot := 0, got := len, reserve := k.dmaLen - len, key := rkeyIndex k } })
          (s.takePsn n 1).stageQp n)

/-- Middle or Last packet of a WRITE: it uses what its First was checked against (R184). -/
def State.writeNext (s : State) (p : Nat) (f : RxFrame) (k : Packet) (m : Msg) : State :=
  let n := k.destQpn
  let len := k.payload.length
  let fin := isLast k.opcode
  if (if fin then len != m.left else decide (m.left ≤ len)) then (s.beginReq p f k).invalidReq p f k
  else s.withSink p f k (fun s sl =>
    let s := s.writePacket p f k m.cls m.tenant m.nextPool m.stamp fin sl
    let s := s.modQp n (fun q => { q with msg := if fin then none else some { m with nextPool := m.nextPool + len, left := m.left - len, reserve := m.reserve - len, got := m.got + len } })
    (s.takePsn n 1).stageQp n)

/-- A new WRITE packet. -/
def State.newWrite (s : State) (p : Nat) (f : RxFrame) (k : Packet) : State :=
  if !s.partOk k .write then (s.beginReq p f k).invalidReq p f k
  else match (s.qp k.destQpn).msg with
    | some m => s.writeNext p f k m
    | none => s.writeFirst p f k

/-! ### The commands -/

/-- A request that waits only for its ring's CONS goes on once that has been read. -/
def State.requestTwice (s : State) (p : Nat) (ok : Nat → Bool) (dup new_ : State → Nat → RxFrame → Packet → State) : State :=
  let s1 := s.request p ok dup new_
  if s1.dp.ops.any (fun o => match o.for_ with | .ring _ => true | _ => false) then s1.runOn.request p ok dup new_ else s1

def isRead (op : Nat) : Bool := op == 0x0C
def isCas (op : Nat) : Bool := op == 0x13
def isFadd (op : Nat) : Bool := op == 0x14
def isFlush (op : Nat) : Bool := op == 0x1C
def isAtomicWrite (op : Nat) : Bool := op == 0x1D
def isWriteOp (op : Nat) : Bool := decide (6 ≤ op) && decide (op ≤ 0x0B)
/-- SENDs, and every RC opcode R149 does not list. -/
def isSendOp (op : Nat) : Bool := !(isRead op || isCas op || isFadd op || isFlush op || isAtomicWrite op || isWriteOp op || isAck op)

/-- An unlisted opcode with an old PSN draws nothing but what a duplicate SEND does. -/
def execSend (port : Nat) (s : State) : Res :=
  .next (s.requestTwice port isSendOp (fun s p f k => s.dupWrite p f k) (fun s p f k => s.newSend p f k)).settle

def execRdmaWrite (port : Nat) (s : State) : Res :=
  .next (s.requestTwice port isWriteOp (fun s p f k => s.dupWrite p f k) (fun s p f k => s.newWrite p f k)).settle

def execRdmaReadRequest (port : Nat) (s : State) : Res :=
  .next (s.request port isRead (fun s p f k => s.dupRead p f k) (fun s p f k => s.newRead p f k)).settle

def execAtomicCompareAndSwap (port : Nat) (s : State) : Res :=
  .next (s.request port isCas (fun s p f k => s.dupAtomic p f k) (fun s p f k => s.newAtomic p f k .cas 2)).settle

def execAtomicFetchAndAdd (port : Nat) (s : State) : Res :=
  .next (s.request port isFadd (fun s p f k => s.dupAtomic p f k) (fun s p f k => s.newAtomic p f k .fadd 2)).settle

def execAtomicWrite (port : Nat) (s : State) : Res :=
  .next (s.request port isAtomicWrite (fun s p f k => s.dupWrite p f k) (fun s p f k => s.newAtomic p f k .atomicWrite 1)).settle

def execFlush (port : Nat) (s : State) : Res :=
  .next (s.request port isFlush (fun s p f k => s.dupWrite p f k) (fun s p f k => s.newFlush p f k)).settle

/-! ### Steps of a trigger chain (R205, R206) -/

/-- The step a run is at has the operation asked for and may start. -/
def State.chainAt (s : State) (i op : Nat) : Bool := s.chainReady i && bits (wordAt (s.slot i (s.curStep i)) 0) 3 0 == op

def execCopy (chain : Nat) (s : State) : Res := .next (if s.chainAt chain 1 then (s.chainCopy chain).settle else s)

def execPersist (chain : Nat) (s : State) : Res := .next (if s.chainAt chain 2 then (s.chainPersist chain).settle else s)

def execAtomic (chain : Nat) (s : State) : Res := .next (if s.chainAt chain 3 then (s.chainAtomic chain).settle else s)

def execNotify (chain : Nat) (s : State) : Res := .next (if s.chainAt chain 4 then (s.chainNotify chain).settle else s)

end Sys2Proof.Machine
end

