-- ==== Sys2Proof/Machine/Connect.lean ====
section
/-! DEFINITION. Connection management on QP1, answers to device-initiated SENDs, and the rate a queue pair's frames leave at
(06_rdma_transport.md, 07_keys_protection.md: R142, R143, R145, R148, R168, R170, R186). -/

namespace Sys2Proof.Machine

/-! ### Connection management (R142, R143, R145, R148, R186) -/

/-- A connection-management frame in hand. -/
structure CmFrame where
  rx : RxFrame
  src : IpAddr
  mac : Mac
  msg : CmMsg
  deriving DecidableEq, Repr

/-- The connection-management message of a received frame. -/
def cmOf (f : RxFrame) : Option CmFrame :=
  match f.frame.body with
  | .roce src _ m k (some c) => if k.transport == .udQp1 then some ⟨f, src, m, c⟩ else none
  | _ => none

/-- The QP a message works on, whose context must be there (R69). -/
def cmQpn : CmMsg → Option Nat
  | .rtu n => some n
  | .dreq n => some n
  | .drep n => some n
  | _ => none

/-- A message waits for the context it works on: of a QP served here, not resident, its load asked for (R69). -/
def State.cmWaits (s : State) (m : CmMsg) : Option State :=
  match cmQpn m with
  | some n => if s.homeOf n && s.qState n != 0 then (let r := s.ctxUse n; if r.1 then none else some r.2) else none
  | none => none

/-- The message of a received frame waits. -/
def State.frameWaits (s : State) (f : RxFrame) : Option State :=
  match cmOf f with
  | some c => s.cmWaits c.msg
  | none => none

/-- Takes the oldest message of a kind from a port, once the context it works on is resident; a silent twin answers none. -/
def State.takeCm (s : State) (p : Nat) (ok : CmMsg → Bool) (go : State → CmFrame → State) : State :=
  match s.popRx p (fun f => match cmOf f with | some c => ok c.msg | none => false) with
  | none => s
  | some (f, t) =>
    match s.frameWaits f with
    | some s => s
    | none =>
      let s := t.consumeRx p f
      if s.silent || s.ingressClosed || !s.ready 0x11 then s
      else match cmOf f with
        | some c =>
          let s := match cmQpn c.msg with | some n => if s.homeOf n && s.qState n != 0 then (s.ctxUse n).2 else s | none => s
          go s c
        | none => s

/-- A connection-management answer that belongs to no context leaves as its request came. -/
def State.cmAnswer (s : State) (p : Nat) (c : CmFrame) (b : TxBody) : State :=
  let f := c.rx.frame
  s.queueTx { port := p, prio := s.framePrio p f, tagged := f.tagged, vlan := f.vlan, pcp := f.pcp, dscp := f.dscp, dst := some c.mac, len := frameLen f.tagged c.src.v6 8 256, ect := Config.ectSent, body := b } []

/-- REJ with reason "no resources". -/
def State.cmReject (s : State) (p : Nat) (c : CmFrame) : State := (s.rdxCount 20).cmAnswer p c .cmRej

/-- First QPN of this twin's range (R13). -/
def State.firstQpn (s : State) : Nat := if s.twinB then 0x20000 else 0x10000

/-- QPs of this twin's range that are not in RESET. -/
def State.ownedQps (s : State) : Nat := (s.qps.filter (fun e => qpnRange e.1 == some s.twinB && s.qState e.1 != 0)).length

/-- A QPN may be assigned: in RESET, and not within 1 s of its return to it. -/
def State.qpnFree (s : State) (n : Nat) : Bool :=
  s.qState n == 0 && (match (s.qp n).freedAt with | some t => decide (ms 1000 ≤ s.mono - t) | none => true)

/-- The lowest QPN that may be assigned. -/
def State.freeQpn (s : State) : Option Nat := ((List.range 65536).find? (fun i => s.qpnFree (s.firstQpn + i))).map (s.firstQpn + ·)

/-- The admission field of a REQ and the tenant it names (R186). -/
def State.admits (s : State) (src : IpAddr) (pd : List Byte) : Option Nat :=
  let at_ (o n : Nat) : Nat := beNat ((pd.drop o).take n)
  let t := at_ 1 1
  let r := s.tenant t
  let width := if r.prefixV6 then 128 else 32
  let value (hi lo : Word64) : Nat := if r.prefixV6 then hi.toNat * 2 ^ 64 + lo.toNat else hi.toNat % 2 ^ 32
  let shift := width - r.prefixLen
  let prefixOk := !r.prefixEn || (src.v6 == r.prefixV6 && value src.hi src.lo / 2 ^ shift == value r.prefixHi r.prefixLo / 2 ^ shift)
  if decide (8 ≤ pd.length) && at_ 0 1 == 0xA7 && at_ 2 2 == 0 && t != 0 && r.state == 1
      && (r.admitTag == 0 || r.admitTag == at_ 4 4) && prefixOk && decide (r.qpCount < r.qpMax) then some t
  else none

/-- Path MTU of REP (R143): none where the REQ is rejected for it. -/
def State.pathMtu (s : State) (p offered : Nat) : Option Nat :=
  match [4096, 2048, 1024].find? (fun m => decide (m + 90 ≤ s.rd HPT_FRAME_MAX_FRAME p)) with
  | some m => if min offered m < 1024 then none else some (min offered m)
  | none => none

/-- Code of a path MTU in the context. -/
def mtuCode (m : Nat) : Nat := if m < 2048 then 3 else if m < 4096 then 4 else 5

/-- The receive ring of a new context passes R148. -/
def State.ringOk (s : State) (r : CmReq) (t : Nat) : Bool :=
  let k := s.key r.ringKey
  r.recvMode != 2 || (decide (6 ≤ r.slotLog2) && decide (r.slotLog2 ≤ 16) && decide (r.countLog2 ≤ 20) && r.ringBase.toNat % 64 == 0
    && k.valid && k.tenant == t && k.rights / 32 % 2 == 1 && decide (r.ringBase.toNat + 64 + 2 ^ r.countLog2 * 2 ^ r.slotLog2 ≤ k.length))

/-- The context of an accepted REQ, in RTR (R145, R146). -/
def State.newContext (s : State) (n p t m : Nat) (c : CmFrame) (r : CmReq) : State :=
  let f := c.rx.frame
  let rate := s.portRate p
  let fields : List (Nat × Nat × Nat × Nat) := [
    (0, 2, 0, 2), (0, 6, 4, mtuCode m), (0, 15, 8, t), (0, 22, 16, p), (0, 26, 24, s.framePrio p f), (0, 27, 27, b2n f.tagged), (0, 39, 28, f.vlan), (0, 45, 40, f.dscp), (0, 62, 56, min r.initiatorDepth 64),
    (1, 23, 0, r.hostQpn), (1, 55, 32, r.startPsn), (2, 55, 32, r.devicePsn),
    (3, 47, 0, c.mac.toNat), (3, 49, 48, r.addrEntry), (3, 50, 50, b2n c.src.v6),
    (4, 63, 0, c.src.hi.toNat), (5, 63, 0, c.src.lo.toNat),
    (6, 15, 0, r.udpSport), (6, 23, 16, r.hopLimit), (6, 43, 24, r.flowLabel),
    (7, 4, 0, r.ackTimeout), (7, 7, 5, r.retryCnt), (7, 10, 8, r.rnrRetry),
    (8, 31, 0, rate), (8, 63, 32, rate), (9, 15, 0, 0x8000),
    (10, 1, 0, r.recvMode), (10, 8, 4, r.slotLog2), (10, 20, 16, r.countLog2), (10, 51, 32, r.ringKey), (11, 63, 0, r.ringBase.toNat),
    (15, 23, 0, 2 ^ 24 - 1 + r.startPsn)]
  let s := s.setQp n { srcAddr := some c.src, alphaAt := s.mono, incAt := s.mono }
  fields.foldl (fun (s : State) x => s.setQf n x.1 x.2.1 x.2.2.1 x.2.2.2) s

/-- A REQ: the cases of R142, R143, R148 and R186, in that order, else REP. -/
def State.cmReq (s : State) (p : Nat) (c : CmFrame) (r : CmReq) : State :=
  if 65536 ≤ s.ownedQps then (s.raise 0x11 1).cmReject p c
  else match s.freeQpn with
    | none => s.cmReject p c
    | some n =>
      if !s.hosts.contains c.src && decide (4096 ≤ s.hosts.length) then (s.raise 0x11 2).cmReject p c
      else match s.admits c.src r.privData, s.pathMtu p r.pmtu with
        | some t, some m =>
          if !s.ringOk r t then s.cmReject p c
          else
            let s := s.newContext n p t m c r
            let s := s.setTenant t { s.tenant t with qpCount := s.homedQps t }
            let s : State := { s with hosts := if s.hosts.contains c.src then s.hosts else s.hosts ++ [c.src], ccx := { s.ccx with cmTimes := s.ccx.cmTimes ++ [s.mono] } }
            let s := (s.ctxNew n).cmAnswer p c (.cmRep n m (min r.initiatorDepth 64))
            s.stageQp n
        | _, _ => s.cmReject p c

def execReq (port : Nat) (s : State) : Res :=
  .next (s.takeCm port (fun m => match m with | .req _ => true | _ => false) (fun s c => match c.msg with | .req r => s.cmReq port c r | _ => s)).settle

/-- RTU: RTR becomes RTS (R145). -/
def State.cmRtu (s : State) (n : Nat) : State :=
  if s.homeOf n && s.qState n == 2 then (s.setQf n 0 2 0 3).stageQp n else s

def execRtu (port : Nat) (s : State) : Res :=
  .next (s.takeCm port (fun m => match m with | .rtu _ => true | _ => false) (fun s c => match c.msg with | .rtu n => s.cmRtu n | _ => s)).settle

/-- DREQ: the QP enters ERROR with cause DISCONNECT; DREP is sent in ERROR too (R145). -/
def State.cmDreq (s : State) (p : Nat) (c : CmFrame) (n : Nat) : State :=
  let st := s.qState n
  if s.homeOf n && (st == 2 || st == 3) then (s.qpError n 7).cmAnswer p c (.cmDrep n)
  else if s.homeOf n && st == 4 then s.cmAnswer p c (.cmDrep n)
  else s

def execDreq (port : Nat) (s : State) : Res :=
  .next (s.takeCm port (fun m => match m with | .dreq _ => true | _ => false) (fun s c => match c.msg with | .dreq n => s.cmDreq port c n | _ => s)).settle

/-- DREP: a QP in ERROR returns to RESET. -/
def State.cmDrep (s : State) (n : Nat) : State := if s.homeOf n && s.qState n == 4 then s.qpReset n else s

def execDrep (port : Nat) (s : State) : Res :=
  .next (s.takeCm port (fun m => match m with | .drep _ => true | _ => false) (fun s c => match c.msg with | .drep n => s.cmDrep n | _ => s)).settle

/-- DISCONNECT_TIMEOUT: 1 s in ERROR with no DREP. -/
def State.disconnectTimeout (s : State) (n : Nat) : State :=
  match (s.qp n).errSince with
  | some t => if s.qState n = 4 then (s.upTo (t + ms 1000)).qpReset n else s
  | none => s

def execDisconnectTimeout (qpn : Nat) (s : State) : Res := .next (s.disconnectTimeout qpn).settle

/-! ### Device-initiated SENDs (R168) -/

/-- RNR timer codes 0 to 31 in microseconds, as the IBA gives them. -/
def rnrUs (code : Nat) : Nat :=
  nth 0 [655360, 10, 20, 30, 40, 60, 80, 120, 160, 240, 320, 480, 640, 960, 1280, 1920, 2560, 3840, 5120, 7680, 10240, 15360,
    20480, 30720, 40960, 61440, 81920, 122880, 163840, 245760, 327680, 491520] (code % 32)

/-- Outstanding SENDs of a QP; SEND_OUT follows. -/
def State.setSends (s : State) (n : Nat) (l : List SendOut) : State :=
  (s.modQp n (fun q => { q with sends := l })).setQf n 7 31 16 l.length

/-- A PSN is at or before another, in 24-bit order. -/
def psnLe (a b : Nat) : Bool := decide (psnDist b a < 2 ^ 23)

/-- The PSN is that of an outstanding SEND or of one sent before it. -/
def State.sentPsn (s : State) (n psn : Nat) : Bool := psnLe psn (psnDist (s.qf n 2 55 32) 1)

/-- SENDs from a PSN on leave again, in order, each with its timer anew. -/
def State.resend (s : State) (n psn : Nat) : State :=
  let to_ := s.qf n 7 4 0
  let dl := if to_ = 0 then none else some (s.mono + 4096 * 2 ^ to_)
  let l := (s.qp n).sends
  let s := s.setSends n (l.map (fun o => if psnLe psn o.psn then { o with deadline := dl, rnrAt := none } else o))
  (l.filter (fun o => psnLe psn o.psn)).foldl (fun (s : State) o =>
    let f := s.qFrame n 0 o.payload.length (.send n o.psn o.payload)
    s.queueTx { f with paced := s.paces n f.port } []) s

/-- An acknowledgement of a QP's SENDs: an ACK, an RNR NAK, a NAK for sequence error. What another NAK asks of the QP is left to its
timer. -/
def State.sendAcked (s : State) (n psn syn : Nat) : State :=
  if !s.sentPsn n psn then s
  else
    let nak := decide (0x20 ≤ syn)
    let done (o : SendOut) : Bool := psnLe o.psn psn && !(nak && o.psn == psn)
    let s := s.setSends n ((s.qp n).sends.filter (fun o => !done o))
    let s := s.stageQp n
    match (s.qp n).sends with
    | [] => s
    | o :: _ =>
      if syn < 0x20 then s
      else if syn < 0x40 then
        let limit := s.qf n 7 10 8
        if limit != 7 && decide (limit < o.rnrTries + 1) then s.qpError n 5
        else s.setSends n ((s.qp n).sends.map (fun x =>
          if x.psn = o.psn then { x with rnrTries := x.rnrTries + 1, rnrAt := some (s.mono + us (rnrUs syn)), deadline := none } else { x with deadline := none }))
      else if syn = 0x60 then s.resend n psn
      else s

/-- ACKNOWLEDGE: the oldest received acknowledgement of a port. In RESET and INIT it is dropped and counted (R145). -/
def State.acknowledge (s : State) (p : Nat) : State :=
  match s.popRx p (fun f => match f.frame.body with | .roce _ _ _ k _ => k.transport == .rc && isAck k.opcode | _ => false) with
  | none => s
  | some (f, s) =>
    let s := s.consumeRx p f
    match f.frame.body with
    | .roce _ _ _ k _ =>
      if s.silent || !s.homeOf k.destQpn then s
      else if s.qState k.destQpn < 2 then s.rdxCount 15
      else if s.qState k.destQpn != 3 then s
      else s.sendAcked k.destQpn k.psn k.syndrome
    | _ => s

def execAcknowledge (port : Nat) (s : State) : Res := .next (s.acknowledge port).settle

/-- SEND_ACK_TIMEOUT: the oldest SEND that is timed has waited ACK_TIMEOUT; it and those after it leave again, up to RETRY_CNT times. -/
def State.sendTimeout (s : State) (n : Nat) : State :=
  if s.silent || s.qState n != 3 then s
  else match (s.qp n).sends with
    | [] => s
    | o :: _ =>
      match o.deadline with
      | none => s
      | some t =>
        let s := s.upTo t
        if s.qf n 7 7 5 < o.tries + 1 then s.qpError n 4
        else (s.setSends n ((s.qp n).sends.map (fun x => if x.psn = o.psn then { x with tries := x.tries + 1 } else x))).resend n o.psn

def execSendAckTimeout (qpn : Nat) (s : State) : Res := .next (s.sendTimeout qpn).settle

/-- SEND_RNR_RETRY: the timer of a host's RNR NAK has run. -/
def State.sendRnrRetry (s : State) (n : Nat) : State :=
  if s.silent || s.qState n != 3 then s
  else match (s.qp n).sends with
    | [] => s
    | o :: _ => match o.rnrAt with | some t => (s.upTo t).resend n o.psn | none => s

def execSendRnrRetry (qpn : Nat) (s : State) : Res := .next (s.sendRnrRetry qpn).settle

/-! ### Congestion reaction (R170) -/

/-- A QP whose rate is in force. -/
def State.rated (s : State) (n : Nat) : Bool := s.homeOf n && (s.qState n == 2 || s.qState n == 3)

/-- A CNP for a QP: RATE_TGT, RATE_CUR, ALPHA and INC_STEP, fractions cut off; both timers start anew. -/
def State.cnpStep (s : State) (n : Nat) : State :=
  let a := s.qf n 9 15 0
  let g := s.rd RDX_CC_CFG_G_SHIFT
  let cur := s.qf n 8 31 0
  let s := (s.setQf n 8 63 32 cur).setQf n 8 31 0 (max (100 * s.rd RDX_CC_CFG_RATE_MIN) (cur * (65536 - a) / 65536))
  let s := (s.setQf n 9 15 0 ((a * (2 ^ g - 1) + 0x8000) / 2 ^ g)).setQf n 9 23 16 0
  s.modQp n (fun q => { q with alphaAt := s.mono, incAt := s.mono })

/-- CNP_RECEIVED: the oldest received CNP of a port. In RESET and INIT it is dropped and counted (R145). -/
def State.cnpReceived (s : State) (p : Nat) : State :=
  match s.popRx p (fun f => match f.frame.body with | .roce _ _ _ k _ => k.transport == .cnp | _ => false) with
  | none => s
  | some (f, s) =>
    let s := (s.consumeRx p f).rdxCount 13
    match f.frame.body with
    | .roce _ _ _ k _ =>
      if s.rated k.destQpn then (s.cnpStep k.destQpn).stageQp k.destQpn
      else if s.homeOf k.destQpn && decide (s.qState k.destQpn < 2) then s.rdxCount 15
      else s
    | _ => s

def execCnpReceived (port : Nat) (s : State) : Res := .next (s.cnpReceived port).settle

/-- ALPHA_DECAY: ALPHA_US without a CNP. -/
def State.alphaDecay (s : State) (n : Nat) : State :=
  if !s.rated n then s
  else
    let s := s.upTo ((s.qp n).alphaAt + us (s.rd RDX_CC_CFG_ALPHA_US))
    let g := s.rd RDX_CC_CFG_G_SHIFT
    ((s.setQf n 9 15 0 (s.qf n 9 15 0 * (2 ^ g - 1) / 2 ^ g)).modQp n (fun q => { q with alphaAt := s.mono })).stageQp n

def execAlphaDecay (qpn : Nat) (s : State) : Res := .next (s.alphaDecay qpn)

/-- RATE_INCREASE: INC_US without a CNP. -/
def State.rateIncrease (s : State) (n : Nat) : State :=
  if !s.rated n then s
  else
    let s := s.upTo ((s.qp n).incAt + us (s.rd RDX_CC_CFG_INC_US))
    let port := s.portRate (s.qPort n)
    let k := min 255 (s.qf n 9 23 16 + 1)
    let tgt := if 5 < k then min port (s.qf n 8 63 32 + 100 * s.rd RDX_CC_CFG_RAI) else s.qf n 8 63 32
    let s := ((s.setQf n 9 23 16 k).setQf n 8 63 32 tgt).setQf n 8 31 0 (min port ((s.qf n 8 31 0 + tgt) / 2))
    (s.modQp n (fun q => { q with incAt := s.mono })).stageQp n

def execRateIncrease (qpn : Nat) (s : State) : Res := .next (s.rateIncrease qpn)

/-- Nanoseconds a frame takes at a QP's rate RATE_CUR, in Mbit/s (R170). -/
def State.paceNs (s : State) (n len : Nat) : Nat := divUp (8000 * len) (max 1 (s.qf n 8 31 0))

/-- PACER_RELEASE: the pacer lets the oldest held frame of a QP go, once the frame before it has taken its time at RATE_CUR (R170). -/
def State.pacerRelease (s : State) (n : Nat) : State :=
  let held (f : TxFrame) : Bool := f.paced && f.body.qpn == n
  match s.ports.find? (fun e => e.2.txq.any held) with
  | none => s
  | some e =>
    match e.2.txq.find? held with
    | none => s
    | some f =>
      let s := s.upTo (s.qp n).paceAt
      let s := s.modQp n (fun q => { q with paceAt := s.mono + s.paceNs n f.len })
      let rec go : List TxFrame → List TxFrame
        | [] => []
        | x :: xs => if x = f then { x with paced := false } :: xs else x :: go xs
      (s.modPort e.1 (fun x => { x with txq := go x.txq })).kickTx e.1

def execPacerRelease (qpn : Nat) (s : State) : Res := .next (s.pacerRelease qpn).settle

end Sys2Proof.Machine
end

