-- ==== Sys2Proof/Machine/CacheRows.lean ====
section
/-! DEFINITION. The commands of the Hearth line cache (04_hearth_cache.md): a wait for a victim that lasts, fills, write-backs that
end, flush and invalidate; starting a drain and enabling the cache (R97 to R102, R109 to R114). -/

namespace Sys2Proof.Machine

/-- SET_STALL (R97): the access of a set that has waited longest for a victim, and for which it was not yet raised, has waited 100 µs. -/
def State.setStall (s : State) (n : Nat) : State :=
  let waits := s.dp.parked.map (fun a => a.seqNo)
  let said := s.cache.stallSaid.filter (fun x => waits.contains x)
  match s.dp.parked.find? (fun a => a.wait == .set n && !said.contains a.seqNo) with
  | none => s
  | some a =>
    let s := (s.upTo (a.since + us 100)).raise 9 4
    { s with cache := { s.cache with stallSaid := said ++ [a.seqNo] } }

def execSetStall (set : Nat) (s : State) : Res := .next (s.setStall set)

/-- FILL_LANDS (R98, R99, R374, R376): the DRAM read of a miss register ends. `twinLine` is what the twin returned where the line was
recovered from it. A first time that a leaf delivers it poisoned the transfer is repeated, a
second is handled as for the line where it lies (R20, R375). -/
def State.fillLands (s : State) (k : Nat) (found : LineRead) (twinLine : Option Line) : State :=
  match s.cache.mshrs.find? (fun m => m.key == k) with
  | none => s
  | some m =>
    let s := s.flitsCount found.flits
    let lost := decide (2 ≤ found.flits.length)
    let (s, v) : State × DLine :=
      if isPtKey k then (s.ptRead (k - 2 ^ 42) found.ecc lost, {})
      else
        let (s, v) := s.dramRead k found.ecc twinLine
        if lost then s.flitLost k twinLine else (s, v)
    s.fillLine m v

def execFillLands (line : Nat) (found : LineRead) (twinLine : Option Line) (s : State) : Res :=
  .next (s.fillLands line found twinLine).settle

/-- FLUE_WRITEBACK_DONE (R101): the DRAM write of a flue entry, or of a line the cleaner, a drain or a command wrote back, ends. Of two
entries of a line the older one's does. That of a page being moved has not been asked for (R217). -/
def State.flueDone (s : State) (k : Nat) : State :=
  match s.cache.flue.find? (fun f => f.key == k && !s.keyMoving k) with
  | some f =>
    let e := s.pte (k / 64)
    let s := if isPtKey k then s else s.setDram e.ch e.idx (k % 64) ⟨f.data, f.poison⟩
    { s with cache := { s.cache with flue := s.cache.flue.erase f } }
  | none =>
    match s.cache.writeBacks.find? (fun f => f.key == k) with
    | some f => { s with cache := { s.cache with writeBacks := s.cache.writeBacks.erase f } }
    | none => s

def execFlueWritebackDone (line : Nat) (s : State) : Res := .next (s.flueDone line).settle

/-! ### Flush and invalidate (R112, R113) -/

/-- A way matches a cache command's range and filter. -/
def cmdMatch (c : RqCmd) (x : Way) : Bool :=
  if isPtKey x.key then bit c.w6 9
  else
    let first := c.index
    let len := c.w5.toNat
    let at_ := x.key * 64
    (len == 0 || (decide (first ≤ at_) && decide (at_ < first + len))) && (!bit c.w6 8 || x.owner == bits c.w6 7 0)

/-- A cache command starts over the lines valid now. -/
def State.cacheCmd (s : State) (q : Nat) (c : RqCmd) (inv : Bool) : State :=
  let first := c.index
  let len := c.w5.toNat
  if first % 64 != 0 || len % 64 != 0 || decide (2 ^ 48 < first + len) || decide (2 ^ 48 ≤ first) then s.finishCmd q 0x40 0
  else
    let todo := (s.cache.ways.filter (fun e => e.2.st != .detached && cmdMatch c e.2)).map (fun e => e.2.key)
    ({ s with cache := { s.cache with cmds := s.cache.cmds ++ [(⟨q, inv, todo, [], 0, 0⟩ : CacheCmd)] } }).cmdsGo

/-- Fields R112 asks to be 0. -/
def cacheZero (c : RqCmd) : Bool := c.count == 0 && c.length == 0 && c.table == 0 && bits c.w6 63 10 == 0

def State.hcaFlush (s : State) (q : Nat) : State := s.blockCmd q 0x09 0x40 false cacheZero (fun s _ c => s.cacheCmd q c false)

def State.hcaInvalidate (s : State) (q : Nat) : State := s.blockCmd q 0x09 0x41 false cacheZero (fun s _ c => s.cacheCmd q c true)

def execHcaFlush (q : Nat) (s : State) : Res := .next (s.hcaFlush q).settle

def execHcaInvalidate (q : Nat) (s : State) : Res := .next (s.hcaInvalidate q).settle

/-! ### Drain and enable (R109, R110) -/

/-- What a write of HCA.CTRL.EN does: it starts a drain of an enabled cache, or enables a disabled one, which is empty. EN reads 1
until a drain completes. -/
def State.cacheEn (s : State) (en : Bool) : State :=
  let st := s.rd HCA_STAT_STATE
  let s := s.wr HCA_CTRL_EN (b2n (st != 0))
  if st = 1 && !en then (s.setCacheSt 2).raise 9 0
  else if st = 0 && en then (((s.setCacheSt 1).wr HCA_CTRL_EN 1).bumpGen 9).raise 9 2
  else s

end Sys2Proof.Machine
end

