-- ==== Sys2Proof/Machine/Durability.lean ====
section
/-! DEFINITION. The rows of 12_durability_power_loss.md: the flush as it goes on, the clean stop, the acceptance of a loss. -/

namespace Sys2Proof.Machine

/-- A DUR_STOP in execution ends where a flush takes the stop over (R313). -/
def State.stopCut (s : State) : State :=
  match s.dur.stopCmd with
  | some (q, _) => if s.dur.flush.isSome then { s with dur := { s.dur with stopCmd := none } }.finishCmd q 0x41 0 else s
  | none => s

/-- POWER_FAIL_WARNING (R303, R474). -/
def execPowerFailWarning (s : State) : Res := .next (s.startFlush 1).stopCut

/-- FINAL_WAIT_EXPIRY (R304 step 2): the flush goes on with the final epoch UNCONFIRMED. -/
def State.finalWait (s : State) : State :=
  if s.dur.flush.isSome && s.dur.waitFinal then
    (s.upTo (s.dur.startedAt + us (s.rd PWR_DUR_CFG_FINAL_WAIT_US))).flushWrite 1
  else s

def execFinalWaitExpiry (s : State) : Res := .next s.finalWait

/-- FLUSH_DONE (R304 steps 4 to 6, R474, R318): units, state image, manifest and FLUSH_END are durable, the ember record is
written, the rails drop; where input has returned during an INPUT_LOSS flush the U96 resets. -/
def State.flushDone (s : State) : State :=
  match s.dur.flush with
  | none => s
  | some f =>
    if s.flushSt != 3 then s
    else
      let s := s.selfSeal.jrnForce ((f.extents.filter (fun e => e.2.2)).map (fun e => .hotProg (e.1 / 32768) (e.1 % 32768)) ++ [.flushEnd])
      let s : State := { s with dur := { s.dur with image := some s.stateImage, last := some { f with endTb := s.tb, ended := true }, newest := 3, flush := none } }
      let s := ((s.wr PWR_FLUSH_STAT_STATE 5).setStat 0xC 4 true).raise 1 33
      let s := s.emberStop 1
      if f.cause = 1 && s.pwr.inputBack then s.deviceReset 5 else s.powerDown

def execFlushDone (s : State) : Res := .next s.flushDone

/-- FLUSH_POWER_CHECK (R475): a 1 ms mean above HOLDUP_W × 1.05 lowers the dies that program at once by 32. -/
def State.flushPower (s : State) (w : Nat) : State :=
  if s.dur.flush.isNone then s
  else
    let s := s.upTo (max s.dur.startedAt s.rails.flushAt + ms 1)
    let s : State := { s with rails := { s.rails with flushAt := s.mono } }
    if min 420 (s.rd PWR_HOLDUP_W_W) * 105 < w * 100 then
      { s with rails := { s.rails with flushDies := (if s.rails.flushDies = 0 then s.rd MED_PROBE_CONC else s.rails.flushDies) - 32 } }.raise 1 7
    else s

def execFlushPowerCheck (meanW : Nat) (s : State) : Res := .next (s.flushPower meanW)

/-- DUR_STOP with PAIR is forwarded to the twin (R313): the spec gives the forward no frame, so it is a FWD_REQ with an operation of its own,
which the twin does not answer (DESIGN CHOICE, log 219). -/
def State.stopAsk (s : State) (q : Nat) : State :=
  s.sendLink 0 (.fwdReq { qpn := 0, psn := q, seg := 0, op := .stop, cls := 0, first := true, last := true, poolOff := 0, tenant := 0, len := 0, data := [], a := 0, b := 0, entry := [] })

/-- DUR_STOP (R313, R319): every QP to ERROR, every port quiesced, the charge destaged. -/
def State.durStop (s : State) (q : Nat) : State :=
  s.blockCmd q 0x01 0x40 false (fun c => c.bare && decide (c.w5.toNat ≤ 1)) (fun s _ c =>
    if s.dur.flush.isSome then s.finishCmd q 0x41 0
    else if c.w5 == 0 && s.paired && s.ownedCount s.twinB != 0 then s.finishCmd q 0x40 0
    else
      let s : State := { s with dur := { s.dur with stopCmd := some (q, s.mono) } }
      let s := if c.w5 == 1 && s.paired && s.linkState != 0 then s.stopAsk q else s
      s.stopBegins.settle)

def execDurStop (q : Nat) (s : State) : Res := .next (s.durStop q)

/-- STOPPED (R313): nothing is charged; the journal, a full checkpoint cycle, the state image and CLEAN_STOP are durable. -/
def State.stopped (s : State) : State :=
  if !s.dur.stopping || s.dur.flush.isSome || s.rd TIR_DIRTY_CHARGED_BYTES != 0 || !s.tier.destages.isEmpty || !s.media.progs.isEmpty || s.flushSt == 7 then s
  else
    let s := s.jrnForce []
    let n := divUp (s.rd TIR_POOL_CFG_PT_MIB) 256
    let j := s.media.jseq
    let s : State := { s with media := { s.media with ckpt := (List.range n).map (fun k => (k, j)) } }
    let s := s.selfSeal.jrnForce ((List.range n).map (fun k => .ckptSeg k j) ++ [.cleanStop j])
    let s : State := { s with dur := { s.dur with image := some s.stateImage, newest := 1 } }
    let s := ((s.wr PWR_FLUSH_STAT_STATE 7).raise 1 39).emberStop 2
    match s.dur.stopCmd with
    | some (q, t) => { s with dur := { s.dur with stopCmd := none } }.finishCmd q stOk ((s.mono - t) / 1000000)
    | none => s

def execStopped (s : State) : Res := .next s.stopped

/-- DUR_ACCEPT_LOSS (R317, R319): the held regions are served as they stand. -/
def State.acceptLoss (s : State) (q : Nat) : State :=
  s.blockCmd q 0x01 0x41 false (fun c => c.bare && c.w5 == 0) (fun s _ _ =>
    if s.dur.flush.isSome then s.finishCmd q 0x41 0
    else if s.dur.heldBase.isNone then s.finishCmd q 0x42 0
    else
      let n := ((List.range s.tier.poolRegions).filter (fun r => s.heldRegion r)).length
      let s : State := { s with dur := { s.dur with heldBase := none, heldRegs := [] } }
      ((s.wr PWR_FLUSH_STAT_STATE 0).raise 1 38).settle.finishCmd q stOk n)

def execDurAcceptLoss (q : Nat) (s : State) : Res := .next (s.acceptLoss q)

end Sys2Proof.Machine
end

