-- ==== Sys2Proof/Machine/Power.lean ====
section
/-! DEFINITION. Power, thermal and pace rows (20_power_thermal_package.md, 01_architecture.md): the rail sequencer, rail
supervision, input power, the operating point, the thermal limits, service life, GLB.PACE. -/

namespace Sys2Proof.Machine

/-! ### Power-on and the sequencer (R405, R471) -/

/-- POWER_ON: VAON and VAIO power-good rise. -/
def execPowerOn (s : State) : Res := .next s.powerOn

/-- RAIL_POWER_GOOD (R471). -/
def State.railGood (s : State) (r : Nat) : State :=
  if 12 ≤ r || s.rails.good.contains r then s
  else if r = 0 || r = 11 || s.rails.en.contains r then
    { s with rails := { s.rails with good := insertNat s.rails.good r } }.seqGo
  else s

def execRailPowerGood (rail : Nat) (s : State) : Res := .next (s.railGood rail)

/-- SEQUENCE_TIMEOUT (R471): a rail of the step is not good within 50 ms. -/
def State.seqTimeout (s : State) : State :=
  if s.rails.step < 2 || 6 < s.rails.step then s
  else match s.rails.en.find? (fun r => !s.rails.good.contains r) with
    | some r => (s.upTo (s.rails.stepAt + ms 50)).seqFail r
    | none => s

def execSequenceTimeout (s : State) : Res := .next s.seqTimeout

/-- SEQUENCER_HOLD (R471 step 7): 40 ms with every rail good, then the boot ROM starts. -/
def State.seqHold (s : State) : State :=
  if s.rails.step != 7 || !s.railsUp then s
  else
    let s := s.upTo (s.rails.stepAt + ms 40)
    let s : State := { s with rails := { s.rails with step := 8, checkAt := s.mono, inputAt := s.mono }, pwr := { s.pwr with off := false } }
    ((s.wr GLB_START_STAT_PHASE 2).setStat 1 1 (s.ready 1)).wr PWR_OP_STAT_CAUSE 4

def execSequencerHold (s : State) : Res := .next s.seqHold

/-! ### The operating point (R478 to R480) -/

/-- OP_SAMPLE (R479): every 1 ms in AUTO. -/
def State.opSample (s : State) (bytes : Nat) : State :=
  let s := s.upTo (s.pwr.sampleAt + ms 1)
  let s : State := { s with pwr := { s.pwr with sampleAt := s.mono } }
  if s.pwr.off || s.opForced.isSome || s.pwr.avsFailed then { s with pwr := { s.pwr with lowSince := none } }
  else
    let u := bytes * 100 / 19200000000
    let b := s.rd HTH_DMP_STAT_BANK_64THS
    match s.rd PWR_OP_STAT_FAMILY with
    | 0 =>
      if u < s.rd PWR_OP_BK_PCT && decide (b < 8) then
        let t := s.pwr.lowSince.getD (s.mono - ms 1)
        if ms (s.rd PWR_OP_DWELL_MS) ≤ s.mono - t then { s with pwr := { s.pwr with lowSince := none } }.opTo true 0
        else { s with pwr := { s.pwr with lowSince := some t } }
      else { s with pwr := { s.pwr with lowSince := none } }
    | 1 => if s.rd PWR_OP_FD_PCT ≤ u || 16 ≤ b then s.opTo false 0 else s
    | _ => s

def execOpSample (bytesMoved : Nat) (s : State) : Res := .next (s.opSample bytesMoved)

/-- FAMILY_REACHED (R480): VCORE senses within 1 % of its target. -/
def State.familyReached (s : State) : State :=
  if s.pwr.slewAt.isNone then s
  else
    let s := (s.wr PWR_OP_STAT_VCORE_MV (s.rd PWR_OP_STAT_TARGET_MV)).wr PWR_OP_STAT_FAMILY (b2n s.pwr.toBanked)
    { s with pwr := { s.pwr with slewAt := none } }.raise 1 5

def execFamilyReached (s : State) : Res := .next s.familyReached

/-- AVS_TIMEOUT (R480): not there within 200 µs, VCORE is commanded once more; a second failure stays where it senses. -/
def State.avsTimeout (s : State) : State :=
  match s.pwr.slewAt with
  | none => s
  | some t =>
    let s := s.upTo (t + us 200)
    if s.pwr.tries < 2 then
      { s.emit (.vcore (s.rd PWR_OP_STAT_TARGET_MV)) with pwr := { s.pwr with slewAt := some s.mono, tries := 2 } }
    else { s with pwr := { s.pwr with slewAt := none, avsFailed := true } }.raise 1 6

def execAvsTimeout (s : State) : Res := .next s.avsTimeout

/-! ### Rail supervision (R473) -/

/-- Rails of the flush path (R312, R470). -/
def flushRail (r : Nat) : Bool := r ≤ 6 || r == 11

/-- A fault of a running rail (R473): a flush of cause RAIL for one outside the flush path, after which the rails drop;
before step 12, and in STOPPED, no flush runs and they drop at once; an immediate stop for one of the flush path. -/
def State.railFault (s : State) (r : Nat) : State :=
  let s := (s.wr PWR_RAIL_STAT_LAST_FAULT r).raise 1 1
  if flushRail r then s.immediateStop r
  else if s.dur.flush.isSome then s
  else
    let s := (s.startFlush 2).stopCut
    if s.dur.flush.isSome then s
    else if s.rd GLB_START_STAT_PHASE < 12 then (s.wr GLB_START_STAT_FAIL 6).recordAll.powerDown
    else s.recordAll.powerDown

/-- Target of a rail in mV; for VCORE the lower and the upper one while it slews (R470, R473). -/
def State.railTarget (s : State) (r : Nat) : Nat × Nat :=
  match r with
  | 0 => (850, 850)
  | 1 => if s.pwr.slewAt.isSome then (580, 800) else (s.rd PWR_OP_STAT_TARGET_MV, s.rd PWR_OP_STAT_TARGET_MV)
  | 2 | 3 => (850, 850) | 4 => (1100, 1100) | 5 | 8 => (1200, 1200) | 7 | 9 | 10 => (750, 750) | 11 => (1800, 1800)
  | _ => (0, 0)

/-- A sensed level lies outside a band in 0.1 % of its targets. -/
def outside (t : Nat × Nat) (band mv : Nat) : Bool := decide (mv * 1000 < t.1 * (1000 - band)) || decide (t.2 * (1000 + band) < mv * 1000)

/-- Since when a condition has held. -/
def heldSince (m : NMap Nat) (k now : Nat) (c : Bool) : NMap Nat :=
  if c then (if (NMap.find m k).isSome then m else NMap.insert m k now) else NMap.erase m k

/-- One rail of a check: its bands with their filter, WARN and FAULT. -/
def State.railOne (s : State) (r mv : Nat) : State :=
  if s.pwr.off || !s.rails.good.contains r || r = 6 then s
  else
    let t := s.railTarget r
    let filter := us (s.rd PWR_RAIL_LIM_FILTER_US 0 (8 * r))
    let w := heldSince s.rails.warnSince r s.mono (outside t (s.rd PWR_RAIL_LIM_WARN 0 (8 * r)) mv)
    let f := heldSince s.rails.faultSince r s.mono (outside t (s.rd PWR_RAIL_LIM_FAULT 0 (8 * r)) mv)
    let s : State := { s with rails := { s.rails with warnSince := w, faultSince := f, mvSum := NMap.insert s.rails.mvSum r (NMap.getD s.rails.mvSum r 0 + mv) } }
    let s := if r = 1 then s.wr PWR_OP_STAT_VCORE_MV mv else s
    let due (m : NMap Nat) : Bool := match NMap.find m r with | some a => decide (filter ≤ s.mono - a) | none => false
    let st := s.rd PWR_RAIL_STAT_STATE
    let cur := (st / 16 ^ r) % 16
    let put (s : State) (v : Nat) : State := s.wr PWR_RAIL_STAT_STATE (st - cur * 16 ^ r + v * 16 ^ r)
    if due f then (if cur = 4 then s else (put s 4).railFault r)
    else if due w then (if cur = 3 then s else (put s 3).raise 1 0)
    else if (NMap.find w r).isNone && cur != 2 then put s 2 else s

/-- RAIL_CHECK (R473): every 1 µs. -/
def State.railCheck (s : State) (mv : List Nat) : State :=
  if s.pwr.off then s
  else
    let s := s.upTo (s.rails.checkAt + us 1)
    let s : State := { s with rails := { s.rails with checkAt := s.mono, mvN := s.rails.mvN + 1 } }
    let s := (List.range (min 12 mv.length)).foldl (fun (s : State) r => s.railOne r (nth 0 mv r)) s
    if s.rails.mvN < 1000 then s
    else
      let s := s.rails.mvSum.foldl (fun (s : State) (e : Nat × Nat) => s.wr PWR_RAIL_MEAS_MV (e.2 / 1000) 0 (8 * e.1)) s
      { s with rails := { s.rails with mvN := 0, mvSum := [] } }

def execRailCheck (mv : List Nat) (s : State) : Res := .next (s.railCheck mv)

/-- POWER_GOOD_LOSS (R471, R473). -/
def State.pgLoss (s : State) (r : Nat) : State :=
  if !s.rails.good.contains r then s
  else
    let s : State := { s with rails := { s.rails with good := s.rails.good.filter (· != r) } }
    if 2 ≤ s.rails.step && s.rails.step ≤ 7 then s.seqFail r
    else if s.pwr.off then s.railStat
    else s.railFault r

def execPowerGoodLoss (rail : Nat) (s : State) : Res := .next (s.pgLoss rail)

/-- PFW_GLITCH (R474). -/
def execPfwGlitch (s : State) : Res := .next ((s.satInc PWR_INPUT_GLITCHES 1).raise 1 3)

/-! ### Input power (R474, R475, R477) -/

/-- The 1 ms and 1 s means of input power. -/
def State.powerMeans (s : State) (w : Nat) : State :=
  let n := s.rails.wN + 1
  let sum := s.rails.wSum + w
  if n < 100 then { s with rails := { s.rails with wN := n, wSum := sum } }
  else
    let m := sum / 100
    let l := (m :: s.rails.means).take 1000
    let s : State := { s with rails := { s.rails with wN := 0, wSum := 0, means := l } }
    let s := (s.wr PWR_INPUT_W m).wr PWR_INPUT_PEAK_W (max m (s.rd PWR_INPUT_PEAK_W))
    s.wr PWR_INPUT_W_1S (l.sum / max 1 l.length)

/-- INPUT_POWER_SAMPLE (R474, R475, R477): every 10 µs. Two samples below WARN in a row have held 2 µs. -/
def State.inputSample (s : State) (vin w : Nat) : State :=
  let s := s.upTo (s.rails.inputAt + us 10)
  let s : State := { s with rails := { s.rails with inputAt := s.mono } }
  let s := (s.wr PWR_VIN_MEAS vin).powerMeans w
  let low := s.rd PWR_VIN_WARN != 0 && decide (vin < s.rd PWR_VIN_WARN)
  let was := s.rails.vinLow
  let s : State := { s with rails := { s.rails with vinLow := low } }
  let s := s.raiseIf (low && !was) 1 4
  let s := if low && was then (s.startFlush 1).stopCut else s
  let s : State := { s with pwr := { s.pwr with inputBack := if low then false else s.dur.flush.isSome } }
  if s.dur.flush.isSome && s.rd PWR_VIN_CUT != 0 && decide (vin < s.rd PWR_VIN_CUT) then (s.raise 1 8).immediateStop 0xFE
  else s

def execInputPowerSample (vin10mv watts : Nat) (s : State) : Res := .next (s.inputSample vin10mv watts)

/-- One regulator's answer (R443, R477): one that does not answer, retried three times, reads 0 mA, its bit of PMB_FAILED is set
and PMB_FAIL raised; a bit clears when its regulator answers again. Regulator r supplies rail r (log 35). -/
def State.pollOne (s : State) (r : Nat) (ma : Option Nat) : State :=
  let was := s.rd MGI_BUS_STAT_PMB_FAILED
  let failed := (was / 2 ^ r) % 2 == 1
  let s := s.wr PWR_RAIL_MEAS_MA (ma.getD 0) 0 (8 * r)
  match ma with
  | some _ => if failed then s.wr MGI_BUS_STAT_PMB_FAILED (was - 2 ^ r) else s
  | none => if failed then s else (s.wr MGI_BUS_STAT_PMB_FAILED (was + 2 ^ r)).raise 0xF 2

/-- RAIL_CURRENT_POLL (R477). -/
def State.currentPoll (s : State) (ma : List (Option Nat)) : State :=
  (List.range 12).foldl (fun (s : State) r => s.pollOne r (nth none ma r)) s

def execRailCurrentPoll (ma : List (Option Nat)) (s : State) : Res := .next (s.currentPoll ma)

/-! ### Thermal limits (R482 to R485) -/

/-- A temperature register of 16 bits. -/
def temp16 (t : Int) : Nat := (t % 65536).toNat

/-- HARDWARE_TRIP (R484): THERMTRIP_N drops every enable; handled as a fault of a flush-path rail, number 0xFD. -/
def State.hardwareTrip (s : State) : State :=
  if s.pwr.off then s
  else
    let s := s.immediateStop 0xFD
    { s with thm := { s.thm with tripped := true } }

def execHardwareTrip (s : State) : Res := .next s.hardwareTrip

/-- A reference diode of a sample (R482). -/
def State.refOne (s : State) (k : Nat) (r : Option Int) : State :=
  let failed := s.thm.failed.contains k
  match r with
  | none =>
    let s : State := { s with thm := { s.thm with failed := insertNat s.thm.failed k, okSince := NMap.erase s.thm.okSince k } }
    if failed then s else s.raise 2 5
  | some _ =>
    if !failed then s
    else
      let t := (NMap.find s.thm.okSince k).getD s.mono
      if 1000000000 ≤ s.mono - t then { s with thm := { s.thm with failed := s.thm.failed.filter (· != k), okSince := NMap.erase s.thm.okSince k } }
      else { s with thm := { s.thm with okSince := NMap.insert s.thm.okSince k t } }

/-- A remote diode of a sample (R483). -/
def State.diodeOne (s : State) (k : Nat) (r : Option Int) : State :=
  if s.rd THM_DIODE_MODE 0 (8 * k) = 0 then
    { s.wr THM_DIODE_TEMP 0x8000 0 (8 * k) with thm := { s.thm with openDiodes := s.thm.openDiodes.filter (· != k), overDiodes := s.thm.overDiodes.filter (· != k) } }
  else match r with
    | none =>
      let was := s.thm.openDiodes.contains k
      let s : State := { s.wr THM_DIODE_TEMP 0x8000 0 (8 * k) with thm := { s.thm with openDiodes := insertNat s.thm.openDiodes k, overDiodes := s.thm.overDiodes.filter (· != k) } }
      s.raiseIf (!was) 2 7
    | some t =>
      let hot := decide (((s.rd THM_DIODE_LIMIT_C 0 (8 * k) * 16 : Nat) : Int) < t)
      let was := s.thm.overDiodes.contains k
      let s : State := { s.wr THM_DIODE_TEMP (temp16 t) 0 (8 * k) with thm := { s.thm with openDiodes := s.thm.openDiodes.filter (· != k), overDiodes := if hot then insertNat s.thm.overDiodes k else s.thm.overDiodes.filter (· != k) } }
      s.raiseIf (hot && !was) 2 6

/-- Channels whose case temperature comes from a diode (R486). -/
def State.diodeCases (s : State) (k : Nat) (r : Option Int) : State :=
  match r with
  | none => s
  | some t =>
    s.thm.caseMap.foldl (fun (s : State) (e : Nat × Word64) =>
      if bits e.2 1 0 = 2 && bits e.2 13 8 = k && s.rd THM_DIODE_MODE 0 (8 * k) = 3 then s.dieTemp e.1 (t / 16) else s) s

/-- Tj of the limits in 1/16 °C: 5 °C more while a reference is failed (R482). -/
def State.tjLimit (s : State) (tj : Int) : Int := if s.thm.failed.isEmpty then tj else tj + 80

/-- WARN, THROTTLE and CRIT (R484). -/
def State.tjLimits (s : State) (te : Int) : State :=
  let c (n : Nat) : Int := ((16 * n : Nat) : Int)
  let warn := s.rd THM_LIMITS_WARN
  let thr := s.rd THM_LIMITS_THROTTLE
  let s := if s.thm.warn then
      (if te < c (warn - 2) then { s with thm := { s.thm with warn := false } }.raise 2 3 else s)
    else (if c warn ≤ te then { s with thm := { s.thm with warn := true } }.raise 2 0 else s)
  let s := if s.pwr.throttle then
      (if te ≤ c (thr - s.rd THM_LIMITS_THROTTLE_HYST) then
        let t := s.thm.coolSince.getD s.mono
        if 1000000000 ≤ s.mono - t then { s with thm := { s.thm with coolSince := none }, pwr := { s.pwr with throttle := false } }.opEval
        else { s with thm := { s.thm with coolSince := some t } }
      else { s with thm := { s.thm with coolSince := none } })
    else (if c thr ≤ te then ({ s with pwr := { s.pwr with throttle := true } }.raise 2 1).opEval else s)
  if s.thm.crit then (if te < c 110 then { s with thm := { s.thm with crit := false } } else s)
  else if c 110 ≤ te then (({ s with thm := { s.thm with crit := true } }.raise 2 2).startFlush 3).stopCut
  else s

/-- The sample interval of R484. -/
def State.nearLimit (s : State) (te : Int) : Bool :=
  let near : Int := ((s.rd THM_LIMITS_NEAR_BAND : Nat) : Int)
  let close (a b : Int) : Bool := decide (a - b ≤ near) && decide (b - a ≤ near)
  let ch := (List.range 32).filter (fun c => s.rd PG_STAT_STATE (0x80 + c) == 2 && s.media.caseRead.contains c)
  decide (((16 * s.rd THM_LIMITS_WARN : Nat) : Int) - 16 * near ≤ te)
    || ch.any (fun c => close (sByte (s.rd NCH_TEMP_CASE_C c)) (sByte (s.rd MED_PROG_TMIN_C)) || close (sByte (s.rd NCH_TEMP_CASE_C c)) (sByte (s.rd MED_PROG_TMAX_C)))
    || (List.range 4).any (fun k => s.rd THM_DIODE_MODE 0 (8 * k) != 0 && !s.thm.openDiodes.contains k
        && (let t : Int := ((s.rd THM_DIODE_TEMP 0 (8 * k) : Nat) : Int); let l : Int := ((16 * s.rd THM_DIODE_LIMIT_C 0 (8 * k) : Nat) : Int)
            decide (t - l ≤ 16 * near) && decide (l - t ≤ 16 * near)))

/-- The model is off by more than 3 °C for 1 s (R482). -/
def State.modelDrift (s : State) (off : Bool) : State :=
  if !off then { s with thm := { s.thm with driftSince := none, driftSaid := false } }
  else
    let t := s.thm.driftSince.getD s.mono
    let due := decide (1000000000 ≤ s.mono - t) && !s.thm.driftSaid
    ({ s with thm := { s.thm with driftSince := some t, driftSaid := s.thm.driftSaid || due } }).raiseIf due 2 4

/-- THERMAL_SAMPLE (R481 to R486). -/
def State.thermalSample (s : State) (x : ThermalIn) : State :=
  let s := s.upTo (s.thm.sampleAt + us (s.rd THM_TJ_SAMPLE_US))
  let s : State := { s with thm := { s.thm with sampleAt := s.mono, hourSum := s.thm.hourSum + x.tj16, hourN := s.thm.hourN + 1 } }
  let s := ((s.wr THM_TJ_VALID 1).wr THM_TJ_HOT_NODE x.hotNode).wr THM_TJ_TJ_MAX (temp16 x.tj16)
  let s := s.wr THM_TJ_INLET (temp16 x.inlet16)
  let s := (s.refOne 0 x.ref0).refOne 1 x.ref1
  let err (m : Int) (r : Option Int) : Int := match r with | some t => m - t | none => 0
  let raw (r : Option Int) : Nat := match r with | some t => temp16 t | none => 0x8000
  let s := (s.wr THM_REF_REF0 (raw x.ref0)).wr THM_REF_REF1 (raw x.ref1)
  let s := (s.wr THM_REF_ERR0 (temp16 (err x.m0 x.ref0))).wr THM_REF_ERR1 (temp16 (err x.m1 x.ref1))
  let big (e : Int) : Bool := decide (48 < e) || decide (e < -48)
  let s := s.modelDrift (big (err x.m0 x.ref0) || big (err x.m1 x.ref1))
  let s := s.setStat 2 (if s.thm.failed.isEmpty then 1 else 2) true
  let s := s.wr PG_STAT_READY 1 1
  let s := (((s.diodeOne 0 x.d0).diodeOne 1 x.d1).diodeOne 2 x.d2).diodeOne 3 x.d3
  let s := (((s.diodeCases 0 x.d0).diodeCases 1 x.d1).diodeCases 2 x.d2).diodeCases 3 x.d3
  let te := s.tjLimit x.tj16
  let s := s.tjLimits te
  let s := s.wr THM_TJ_SAMPLE_US (if s.nearLimit te then 100 else 1000)
  let trip (r : Option Int) : Bool := match r with | some t => decide (1920 ≤ t) | none => false
  if trip x.ref0 || trip x.ref1 then s.hardwareTrip else s

def execThermalSample (t : ThermalIn) (s : State) : Res := .next (s.thermalSample t)

/-- CASE_SOURCE_SILENT (R486): a channel's source has been silent for 100 ms; its window closes. -/
def execCaseSourceSilent (channel : Nat) (s : State) : Res :=
  .next (if s.rd PG_STAT_STATE (0x80 + channel) = 2 ∧ channel < 32 then
    { s.setWindow channel false with thm := { (s.setWindow channel false).thm with heat := s.thm.heat } } else s)

/-- LIFE_HOUR (R487): the hour is classed by its mean Tj. The mean of an hour without a sample has no value. -/
def State.lifeHour (s : State) : State :=
  if s.pwr.off then s
  else
    let s := s.upTo (3600000000000 + s.thm.hourAt)
    let (k, s) := s.takeFree
    let m : Int := if s.thm.hourN = 0 then ((Config.freeNat k % 65536 : Nat) : Int) else s.thm.hourSum / s.thm.hourN
    let was := decide (1360 < s.rd THM_LIFE_MEAN_MEAN)
    let past (s : State) : Bool := decide (1000 ≤ s.rd THM_LIFE_HOURS) && decide (s.rd THM_LIFE_HOURS < 10 * s.rd THM_LIFE_OVER85_H)
    let wasPast := past s
    let hot := decide (1680 < m)
    let s := ((s.inc THM_LIFE_HOURS 1).inc THM_LIFE_OVER85_H (b2n (decide (1360 < m)))).inc THM_LIFE_OVER105_H (b2n hot)
    let sum := s.thm.lifeSum + m
    let s : State := { s with thm := { s.thm with hourAt := s.mono, hourSum := 0, hourN := 0, lifeSum := sum } }
    let s := s.wr THM_LIFE_MEAN_MEAN (temp16 (sum / max 1 (s.rd THM_LIFE_HOURS)))
    s.raiseIf ((past s && !wasPast) || hot || (decide (1360 < s.rd THM_LIFE_MEAN_MEAN) && !was)) 2 8

def execLifeHour (s : State) : Res := .next s.lifeHour

/-- Causes of THM.ALERT (R485). -/
def State.alertCause (s : State) : Nat :=
  let dimm := s.tier.chans.any (fun e => e.2.throttledAt.isSome)
  let nand := s.thm.heat.any (fun c => s.rd PG_STAT_STATE (0x80 + c) == 2)
  b2n s.thm.warn + 2 * b2n s.pwr.throttle + 4 * b2n dimm + 8 * b2n nand + 16 * b2n (!s.thm.overDiodes.isEmpty) + 32 * b2n (!s.thm.failed.isEmpty)

/-- THERM_ALERT_N is low (R485). -/
def State.thermAlert (s : State) : Bool := (s.alertCause &&& s.rd THM_ALERT_MASK) != 0

/-! ### Pace (R28) -/

/-- Place of the largest entry of a list, the first of equal ones. -/
def slowest : List Nat → Nat → Nat × Nat → Nat × Nat
  | [], _, best => best
  | x :: xs, i, best => slowest xs (i + 1) (if best.2 < x then (i, x) else best)

/-- PACE_UPDATE (R28): every 10 µs the mean of the sixteen rings over the last 10 µs. STAGE_FS in femtoseconds and SPREAD in units of 100 fs are
rounded down: the spec says nothing of their rounding (DESIGN CHOICE, log 204). -/
def State.paceUpdate (s : State) (rings : List Nat) : State :=
  let s := s.upTo (s.rails.paceAt + us 10)
  let s : State := { s with rails := { s.rails with paceAt := s.mono } }
  let m := rings.sum / max 1 rings.length
  let b := slowest rings 0 (0, 0)
  let s := ((s.wr GLB_PACE_VALID 1).inc GLB_PACE_SEQ 1).wr GLB_PACE_SLOW_RING b.1
  (s.wr GLB_PACE_SPREAD (min 0xFFF ((b.2 - m) / 100))).wr GLB_PACE_STAGE_FS m

def execPaceUpdate (rings : List Nat) (s : State) : Res := .next (s.paceUpdate rings)

end Sys2Proof.Machine
end

