-- ==== Sys2Proof/Machine/Integrity.lean ====
section
/-! DEFINITION. The rows of 15_integrity.md: scrub reads, laps, the DRAM fill, error injection. -/

namespace Sys2Proof.Machine

/-- Key of a scrubber's lap: 0 the Hearth, 1 + c a channel. -/
def lapKey : Scrubber → Nat
  | .hearth => 0
  | .dram c => 1 + c

/-- Lines of a lap (R380): every Hearth line, or every line of a channel's ranks in service. -/
def State.lapLines (s : State) : Scrubber → Nat
  | .hearth => 2 ^ 25
  | .dram c => ((List.range (s.nRanks c)).filter (fun r => s.rankSt c r == 1 || s.rankSt c r == 2)).length * s.rankFrames c * 64

/-- Target of a lap in ns. -/
def State.lapTarget (s : State) : Scrubber → Nat
  | .hearth => s.rd INT_SCRUB_CFG_HEARTH_LAP_S * 1000000000
  | .dram _ => s.rd INT_SCRUB_CFG_DRAM_LAP_H * 3600 * 1000000000

/-- The lap a scrubber is in; its first read begins one. -/
def State.lapOf (s : State) (x : Scrubber) : Lap := (NMap.find s.integ.laps (lapKey x)).getD { start := s.mono }

/-- When a scrubber's next read comes (R380): at the lap's pace, or while behind it at up to 8 times the pace. -/
def State.lapNext (s : State) (x : Scrubber) : Nat :=
  let l := s.lapOf x
  let n := max 1 (s.lapLines x)
  max (l.start + l.done * s.lapTarget x / n) (l.last + s.lapTarget x / (8 * n))

/-- A scrub read counts towards its lap; a lap that ends is counted and the next begins. -/
def State.lapRead (s : State) (x : Scrubber) : State :=
  let k := lapKey x
  let l := s.lapOf x
  let s := (s.upTo (s.lapNext x)).intCount 9
  if s.lapLines x ≤ l.done + 1 then
    { s with integ := { s.integ with laps := NMap.insert s.integ.laps k { start := s.mono, last := s.mono } } }.intCount 13
  else { s with integ := { s.integ with laps := NMap.insert s.integ.laps k { l with done := l.done + 1, last := s.mono } } }

/-! ### Hearth lines (R375) -/

/-- The way a Hearth line holds, where it lies in the cache partition. -/
def State.wayOfLine (s : State) (l : Nat) : Option Nat :=
  let base := s.rd HTH_PART_CACHE_BASE_MIB * 2 ^ 14
  if base ≤ l ∧ l < base + s.hearth.layout.cache * 2 ^ 14 then some (l - base) else none

/-- A line lies in a partition. -/
def inPart (base size l : Nat) : Bool := decide (base * 2 ^ 14 ≤ l) && decide (l < (base + size) * 2 ^ 14)

/-- A cell of the packet pool is lost: which frame holds it, nothing states; a frame received is dropped (R375). -/
def State.cellLost (s : State) (l : Nat) : State :=
  let frames := s.ports.filter (fun e => !e.2.rxq.isEmpty)
  let (k, s) := s.takeFree
  let s := (s.intCount 8).lastUe 1 5 0 0 l
  match nth none (frames.map (fun e => some e.1)) (Config.freeNat k % (frames.length + 1)) with
  | some p =>
    match (s.port p).rxq with
    | r :: rs => if rs.isEmpty then s else { s with ports := s.ports.map (fun (e : Nat × Port) => if e.1 = p then (p, { e.2 with rxq := r :: rs.dropLast }) else e) }
    | [] => s
  | none => s

/-- A resident QP context, or a resident key entry, is lost (R375): the QP goes to ERROR; the entry is read again from its DRAM
home. -/
def State.ctxLost (s : State) (l : Nat) : State :=
  let base := s.rd HTH_PART_CTX_BASE_MIB
  if inPart base s.hearth.layout.qpMib l then
    let (k, s) := s.takeFree
    match nth none (s.hearth.resident.map some) (Config.freeNat k % (s.hearth.resident.length + 1)) with
    | some n => (((s.raise 6 38).lastUe 1 6 0 0 l).qpError n 3).sendDreq n
    | none => s
  else (s.intCount 3).lastUe 1 1 0 0 l

/-- A Hearth line is uncorrectable, by where it lies. -/
def State.hearthUe (s : State) (l : Nat) : State :=
  match s.wayOfLine l with
  | some w => (match s.wayAt w with | some x => s.wayUe x.key | none => (s.intCount 1).raise 6 32)
  | none =>
    let s := (s.intCount 1).raise 6 32
    if inPart (s.rd HTH_PART_PKT_BASE_MIB) s.hearth.layout.pkt l then s.cellLost l
    else if inPart (s.rd HTH_PART_CTX_BASE_MIB) s.hearth.layout.ctx l then s.ctxLost l
    else (s.intCount 3).lastUe 1 1 0 0 l

/-- A scrub read of a Hearth line (R374, R379): offered to a bank whose queue is empty, in damper class 3, which SHUT stops (R84); of an
overdue lap under FORCE to any bank, in class 2 (R380). -/
def State.scrubHearth (s : State) (l : Nat) (ecc : Ecc) : State :=
  let s := s.banksGo
  let forced := s.rd INT_SCRUB_CFG_ACT == 1 && (match NMap.find s.integ.laps (lapKey .hearth) with | some x => x.overdue | none => false)
  if s.rd INT_SCRUB_CFG_EN_HEARTH = 0 || s.dur.flush.isSome || !s.ready 8 || 2 ^ 25 ≤ l || (!forced && (s.hearth.level == 2 || !s.bankIdle (64 * l))) then s
  else
    let s := (s.lapRead .hearth).ask (if forced then .forcedScrub else .scrub) (64 * l)
    let key := match s.wayOfLine l with
      | some w => (match s.wayAt w with | some x => 4 * x.key + 1 | none => 4 * l + 2)
      | none => 4 * l + 2
    let found := s.eccAt key (eccResolve l (fun _ x => x) ecc)
    let s := s.injDrop key
    match found with
    | .corrected _ => (s.intCount 0).intCount 10
    | .uncorrectable => s.hearthUe l
    | _ => s

/-! ### DRAM lines -/

/-- What a scrub read finds in a line: of a page's frame, of a page table or of a system area (R379). -/
def State.scrubLine (s : State) (c f j : Nat) (ecc : Ecc) (twin : Option Line) : State :=
  let r := s.rankOf c f
  match s.pageOfFrame c f with
  | some (p, _) =>
    let fixed := match s.eccAt (4 * dramKey c f j) ecc with | .corrected _ => true | _ => false
    let s := (s.dramRead (64 * p + j) ecc twin).1
    if fixed then s.intCount 10 else s
  | none =>
    let cs := s.svcChannels
    let home := ((s.sysHome c f).getD (c * 2 ^ 27 + f))
    let m := 64 * (home % 2 ^ 27 * cs.length + (cs.takeWhile (fun x => x != home / 2 ^ 27)).length) + j
    match s.eccAt (4 * dramKey c f j) (eccResolve (s.dramAddr c f j) (s.dramAddr c) ecc) with
    | .corrected d => (match d with | some d => (s.ceSeen c r).attribute c r (j % 2) d | none => s.ceSeen c r).intCount 10
    | .uncorrectable => s.ptUe c r m
    | _ => s

/-- A scrub read of a line of a frame (R379): only while the subchannel is idle, but for a lap that is overdue under FORCE (R380). -/
def State.scrubDram (s : State) (c f j : Nat) (ecc : Ecc) (twin : Option Line) : State :=
  let r := s.rankOf c f
  let x := s.chan c
  let forced := s.rd INT_SCRUB_CFG_ACT == 1 && (match NMap.find s.integ.laps (lapKey (.dram c)) with | some l => l.overdue | none => false)
  let busy := x.queue.any (fun q => q.sub == j % 2) || !x.ovf.isEmpty
  if s.rd INT_SCRUB_CFG_EN_DRAM = 0 || s.dur.flush.isSome || s.chanSt c != 3 || !(s.rankSt c r == 1 || s.rankSt c r == 2) || (busy && !forced) then s
  else
    (s.lapRead (.dram c)).scrubLine c f j ecc twin

/-- SCRUB_READ (R379). -/
def State.scrubRead (s : State) (t : ScrubTarget) (ecc : Ecc) (twin : Option Line) : State :=
  match t with
  | .hearth l => (s.scrubHearth l ecc).settle
  | .dram c f j => if c < 48 ∧ j < 64 then (s.scrubDram c f j ecc twin).settle else s

def execScrubRead (target : ScrubTarget) (ecc : Ecc) (twinLine : Option Line) (s : State) : Res :=
  .next (s.scrubRead target ecc twinLine)

/-- A forced scrubber wakes its channel from self-refresh (R251, R380). -/
def State.scrubWake (s : State) (x : Scrubber) : State :=
  match x with
  | .dram c =>
    if s.rd INT_SCRUB_CFG_ACT = 1 && s.chanSt c = 5 && !(s.chan c).srWanted then
      (s.modChan c (fun x => { x with srWanted := true })).dchCount c 9
    else s
  | .hearth => s

/-- LAP_OVERDUE (R380): a lap has run for twice its target. -/
def State.lapOverdue (s : State) (x : Scrubber) : State :=
  match NMap.find s.integ.laps (lapKey x) with
  | some l =>
    if l.overdue then s
    else
      let s := s.upTo (l.start + 2 * s.lapTarget x)
      { s with integ := { s.integ with laps := NMap.insert s.integ.laps (lapKey x) { l with overdue := true } } }.raise 6 36 |>.scrubWake x
  | none => s

def execLapOverdue (scrubber : Scrubber) (s : State) : Res := .next (s.lapOverdue scrubber)

/-- DRAM_FILL (R373): under AREAS, frames are filled on all channels; they may be handed out from then on. -/
def State.dramFill (s : State) (gib : Nat) : State :=
  let left := s.rd INT_FILL_CFG_LEFT_GIB
  if left = 0 || s.rd PG_STAT_STATE 0xA != 2 then s
  else
    let n := min gib left
    let ends := n == left
    let k := max 1 s.integ.unfilled.length
    let s := s.integ.unfilled.foldl (fun (s : State) (e : Nat × Nat) =>
      let d := if ends then e.2 else min e.2 (n * 2 ^ 18 / k)
      let f := s.chFrames e.1
      let s := s.setChFrames e.1 { f with blocked := f.blocked - d }
      { s with integ := { s.integ with unfilled := NMap.insert s.integ.unfilled e.1 (e.2 - d) } }) s
    let s := s.wr INT_FILL_CFG_LEFT_GIB (left - n)
    if ends then ({ s with integ := { s.integ with unfilled := [] } }.raise 6 40).settle else s.settle

def execDramFill (gib : Nat) (s : State) : Res := .next (s.dramFill gib)

/-! ### Injection (R383) -/

/-- An injection is counted and reported. -/
def State.injected (s : State) (q : Nat) (res : Nat) : State := ((s.intCount 12).raise 6 41).finishCmd q stOk res

/-- Stores an injected error, or the poison pattern by `f`. -/
def State.inject (s : State) (kind k : Nat) (f : State → State) : State :=
  if kind = 3 then f s else { s with integ := { s.integ with injected := NMap.insert s.integ.injected k kind } }

/-- INT_INJECT. The address of a DRAM line as stored has no stated form. -/
def State.intInject (s : State) (q : Nat) : State :=
  s.blockCmd q 0x06 0x60 false (fun c => c.w2 == 0 && c.length == 0 && c.count == 0 && c.table == 0 && c.w6 == 0 && bits c.w5 63 8 == 0)
    (fun s _ c =>
      let target := bits c.w5 3 0
      let kind := bits c.w5 7 4
      let pool := s.tier.poolRegions * 2 ^ 30
      let l := c.index / 64
      let e := s.pte (l / 64)
      if s.rd INT_INJ_CFG_ARM = 0 then s.finishCmd q 0x60 0
      else if kind = 0 || 3 < kind || 3 < target || c.index % 64 != 0 || (target != 2 && pool ≤ c.index) || (target == 2 && 2 ^ 31 ≤ c.index) then s.finishCmd q 0x62 0
      else match target with
        | 0 =>
          if e.st == .resident || e.st == .demoting || e.st == .moving then
            let (k, s) := s.takeFree
            let s := s.inject kind (4 * dramKey e.ch e.idx (l % 64)) (fun s => s.setDram e.ch e.idx (l % 64) ⟨0, true⟩)
            s.injected q (Config.freeWord k).toNat
          else s.finishCmd q 0x61 0
        | 1 =>
          match s.findWay l with
          | some (i, x) =>
            if x.st == .filling then s.finishCmd q 0x61 0
            else
              let s := s.inject kind (4 * l + 1) (fun s => s.setWay i { x with poison := true })
              s.injected q ((s.rd HTH_PART_CACHE_BASE_MIB * 2 ^ 14 + i) * 64)
          | none => s.finishCmd q 0x61 0
        | 2 =>
          if (s.wayOfLine l).isSome then s.finishCmd q 0x62 0
          else (s.inject kind (4 * l + 2) (fun s => s)).injected q c.index
        | _ =>
          match e.hasMedia, NMap.find s.media.units e.media with
          | true, some u =>
            let bad (s : State) : State := { s with media := { s.media with units := NMap.insert s.media.units e.media { u with lines := setNth u.lines (l % 64) ⟨0, true⟩ } } }
            (s.inject kind (4 * (l / 64) + 3) bad).injected q e.media
          | _, _ => s.finishCmd q 0x61 0)

def execIntInject (q : Nat) (s : State) : Res := .next (s.intInject q)

end Sys2Proof.Machine
end

