-- ==== Sys2Proof/Machine/View.lean ====
section
/-! DEFINITION. What a register reads as (R36 to R38, R50 and the register tables): most hold their value; those below show what
the state holds elsewhere. -/

namespace Sys2Proof.Machine

/-- Places values in fields given by their lowest bit. -/
def pack (l : List (Nat × Nat)) : Word64 := BitVec.ofNat 64 (l.map (fun e => e.2 * 2 ^ e.1)).sum

/-- The value of a performance counter (R461): a MIRROR counter reads the counter register it names. -/
def State.pmuLive (s : State) (n : Nat) : Word64 :=
  let w := NMap.getD s.pmu.select n 0
  if bits w 1 0 = 2 then s.reg (regKey (bits w 49 40) (8 * bits w 63 50)) else NMap.getD s.pmu.live n 0

/-- The snapshot value of a performance counter. -/
def State.pmuSnap (s : State) (n : Nat) : Word64 := NMap.getD s.pmu.snap n 0

/-- A register of GLB (R26, R51, R426). -/
def State.viewGlb (s : State) (off : Nat) : Word64 :=
  match off with
  | 0x200 => BitVec.ofNat 64 s.tb
  | 0x210 => setBits (s.reg (regKey 0 0x210)) 63 32 (s.boot.elapsed.getD ((s.mono - s.boot.startAt) / 1000000))
  | 0x230 => pack [(12, Config.siliconRev.toNat), (0, if Config.gradeL then 2 else 1)]
  | _ => s.reg (regKey 0 off)

/-- A word of the selected slot of the ring (R456). -/
def State.viewEvr (s : State) (off : Nat) : Word64 :=
  if 0x148 ≤ off ∧ off ≤ 0x160 then
    match NMap.find s.rec_.ring (s.rd EVR_WIN_SEL_SLOT) with
    | some r => wordAt r.words ((off - 0x148) / 8)
    | none => 0
  else s.reg (regKey 3 off)

/-- INT.SCRUB_STAT (R380): the channel whose running lap is oldest, with its age. -/
def State.scrubStat (s : State) : Word64 :=
  let ch := s.integ.laps.filter (fun e => decide (1 ≤ e.1))
  let old := ch.foldl (fun (m : Option (Nat × Nat)) e =>
    match m with
    | some x => if e.2.start < x.2 then some (e.1 - 1, e.2.start) else m
    | none => some (e.1 - 1, e.2.start)) none
  let late (k : Nat) : Bool := match NMap.find s.integ.laps k with | some l => l.overdue | none => false
  let (c, t) := old.getD (0, s.mono)
  pack [(63, b2n (late 0)), (48, (ch.filter (fun e => e.2.overdue)).length), (42, c), (0, (s.mono - t) / 1000000000)]

/-- A register of CPH: DEV_ID (R398), PIPE_STAT (R388: a pipeline is busy only inside a command, log 36), SCRUB_STAT. -/
def State.viewCph (s : State) (off : Nat) : Word64 :=
  match off with
  | 0x100 => BitVec.ofNat 64 (Config.serial.toNat % 2 ^ 48)
  | 0x810 => s.scrubStat
  | _ => s.reg (regKey 6 off)

/-- A register of HTH: occupancy (R88) and the damper's times (R85). -/
def State.viewHth (s : State) (off : Nat) : Word64 :=
  let h := s.hearth
  match off with
  | 0x170 => s.reg (regKey 8 0x170) + BitVec.ofNat 64 (if h.level = 1 then s.mono - h.levelSince else 0)
  | 0x178 => s.reg (regKey 8 0x178) + BitVec.ofNat 64 (if h.level = 2 then s.mono - h.levelSince else 0)
  | 0x180 => pack [(32, (h.headroom.map Prod.snd).sum), (0, s.sharedUsed + h.egressUsed)]
  | 0x188 =>
    let inBytes := (s.pair.incoming.map (fun e => (e.recs.map recBytes).sum)).sum
    pack [(32, (s.tier.pt.filter (fun e => e.2.st == .fetching)).length + s.media.progs.length),
      (0, divUp ((s.pair.epochs.map (fun e => e.bytes)).sum + inBytes) 4096)]
  | 0x190 => pack [(32, s.ctxDemand), (0, h.resident.length)]
  | _ => s.reg (regKey 8 off)

/-- A register of HCA (R93, R99, R101). -/
def State.viewHca (s : State) (off : Nat) : Word64 :=
  let n (p : Way → Bool) : Nat := (s.cache.ways.filter (fun e => p e.2)).length
  match off with
  | 0x110 => pack [(32, s.dirtyWays), (0, n (fun w => w.st != .detached))]
  | 0x118 => pack [(32, n (fun w => w.unsealed.isSome)), (0, n (fun w => decide (0 < w.pins)))]
  | 0x128 => setBits (s.reg (regKey 9 0x128)) 14 0 s.cache.mshrs.length
  | 0x138 => setBits (s.reg (regKey 9 0x138)) 12 0 s.cache.flue.length
  | _ => s.reg (regKey 9 off)

/-- A register of TIR (R219, R230). -/
def State.viewTir (s : State) (off : Nat) : Word64 :=
  match off with
  | 0x128 => setBits (s.reg (regKey 0xA 0x128)) 31 0 s.tier.recs.length
  | 0x138 => BitVec.ofNat 64 s.framesTotal
  | 0x140 => BitVec.ofNat 64 s.framesFree
  | 0x148 => setBits (s.reg (regKey 0xA 0x148)) 40 8 (s.tier.frames.map (fun e => e.2.spare)).sum
  | _ => s.reg (regKey 0xA off)

/-- JTAG IDCODE (R445). -/
def idcode : Nat := Config.siliconRev.toNat * 2 ^ 28 + 0x0096 * 2 ^ 12 + 0x3A5 * 2 + 1

/-- A register of MGI (R444, R445). -/
def State.viewMgi (s : State) (off : Nat) : Word64 :=
  let bus (b : Nat) : Nat := (s.ccx.i3c.filter (fun e => e.1 / 32 == b && bit (wordAt e.2 1) 9)).length
  match off with
  | 0x120 => setBits (setBits (s.reg (regKey 0xF 0x120)) 13 8 (bus 1)) 5 0 (bus 0)
  | 0x128 => setBits (setBits (s.reg (regKey 0xF 0x128)) 63 32 idcode) 1 1 (b2n Config.testMode)
  | _ => s.reg (regKey 0xF off)

/-- The watchdog is stopped while a flush runs and during a clean stop (R431), and until the roles are assigned. -/
def State.wdStopped (s : State) : Bool := s.dur.flush.isSome || s.dur.stopping || s.rd PG_STAT_STATE 0x12 == 0

/-- A SUPERVISOR core runs (R429, R430). -/
def State.supervised (s : State) : Bool :=
  (List.range 16).any (fun k => bits (s.reg (regKey 0x12 0x108)) (4 * k + 3) (4 * k) == 1
    && bits (s.reg (regKey 0x12 0x100)) (4 * k + 3) (4 * k) == 1)

/-- Milliseconds since the watchdog's count was restarted, while a SUPERVISOR core restarts it: at most a quarter of it (R431). -/
def State.wdSince (s : State) : Nat := Config.wdPhase s.mono % (s.rd CCX_WD_TIMEOUT_MS / 4 + 1)

/-- Milliseconds left on the watchdog. -/
def State.wdLeft (s : State) : Nat :=
  if s.wdStopped then 0
  else if s.supervised then s.rd CCX_WD_TIMEOUT_MS - s.wdSince
  else divUp (s.ccx.wdAt + s.rd CCX_WD_TIMEOUT_MS * 1000000 - s.mono) 1000000

/-- A register of CCX (R429, R431). -/
def State.viewCcx (s : State) (off : Nat) : Word64 :=
  match off with
  | 0x110 => Config.coreLoad s.mono
  | 0x118 =>
    setBits (s.reg (regKey 0x12 0x118)) 63 32 s.wdLeft
  | 0x120 =>
    let queued := (s.ports.map (fun e => (e.2.rxq.filter (fun f => (cmOf f).any (fun c => match c.msg with | .req _ => true | _ => false))).length)).sum
    pack [(32, (s.ccx.cmTimes.filter (fun t => decide (s.mono < t + 1000000000))).length), (0, min 0xFFFF queued)]
  | _ => s.reg (regKey 0x12 off)

/-- A register of a DCH page: its queues (R244). -/
def State.viewDch (s : State) (c off : Nat) : Word64 :=
  match off with
  | 0x158 =>
    let q := (s.chan c).queue
    pack [(48, (q.filter (fun r => r.write)).length), (32, (q.filter (fun r => !r.write)).length),
      (16, (s.chan c).ovf.length), (0, (q.filter (fun r => s.urgency c r == 3)).length)]
  | 0x148 => setBits (s.reg (regKey (0x40 + c) 0x148)) 63 48 (s.rd DCH_MIGRATE_RATE_MB)
  | _ => s.reg (regKey (0x40 + c) off)

/-- A register of a port page: priorities the partner holds now (R123), the port's address. -/
def State.viewHpt (s : State) (p off : Nat) : Word64 :=
  match off with
  | 0x128 =>
    let held := ((List.range 8).map (fun q => b2n (s.heldPrio p q) * 2 ^ q)).sum
    setBits (s.reg (regKey (0x100 + p) 0x128)) 7 0 held
  | 0x108 => BitVec.ofNat 64 (s.portMac p).toNat
  | _ => s.reg (regKey (0x100 + p) off)

/-- A block register of a mapped page. -/
def State.viewBlock (s : State) (page off : Nat) : Word64 :=
  match blockOf page with
  | some (0x00, _) => s.viewGlb off
  | some (0x02, _) => if off = 0x138 then setBits (s.reg (regKey 2 0x138)) 5 0 s.alertCause else s.reg (regKey 2 off)
  | some (0x03, _) => s.viewEvr off
  | some (0x04, _) =>
    if off = 0x128 then
      let left := match s.boot.trialAt with
        | some t => divUp (t + s.rd BFL_TRIAL_CFG_WD_S * 1000000000 - s.mono) 1000000000
        | none => 0
      setBits (s.reg (regKey 4 0x128)) 47 32 left
    else s.reg (regKey 4 off)
  | some (0x06, _) => s.viewCph off
  | some (0x08, _) => s.viewHth off
  | some (0x09, _) => s.viewHca off
  | some (0x0A, _) => s.viewTir off
  | some (0x0D, i) =>
    if i = 0 then s.reg (regKey page off)
    else if s.rd PMU_CTRL_USER_EN = 0 then 0
    else if off < 0x900 then s.pmuLive (256 * (i - 1) + (off - 0x100) / 8)
    else s.pmuSnap (256 * (i - 1) + (off - 0x900) / 8)
  | some (0x0E, _) => if off = 0x128 then setBits (s.reg (regKey 0xE 0x128)) 20 0 s.smp.buf.length else s.reg (regKey 0xE off)
  | some (0x0F, _) => s.viewMgi off
  | some (0x10, _) => if off = 0x100 then pack [(32, s.chainCount 2), (0, s.chainCount 1)] else s.reg (regKey 0x10 off)
  | some (0x11, _) =>
    if off = 0x110 then
      pack [(32, (s.qps.filter (fun e => qpnRange e.1 == some (!s.twinB) && s.homeOf e.1 && s.qState e.1 != 0)).length), (0, s.ownedQps)]
    else s.reg (regKey 0x11 off)
  | some (0x12, _) => s.viewCcx off
  | some (0x40, c) => s.viewDch c off
  | some (0x81, p) => s.viewHpt p off
  | _ => s.reg (regKey page off)

/-- Pages the BMC reaches at every offset before GLB is READY (R439). -/
def bmcPage (page : Nat) : Bool := page ≤ 3 || page == 0xF

/-- Before GLB is READY a page shows only its header, but for GLB, and for the BMC's five pages (R50, R439). -/
def State.hidden (s : State) (bmc : Bool) (page : Nat) : Bool := !s.ready 0 && page != 0 && !(bmc && bmcPage page)

/-- What the register at an 8-byte-aligned offset of a page reads as. -/
def State.view (s : State) (page off : Nat) (bmc : Bool := false) : Word64 :=
  match descAt page off with
  | none => 0
  | some _ =>
    if off = 0 then pgId page
    else if off = 8 then pgCap page
    else if off = 0x30 then 0
    else if off < 0x40 then s.reg (regKey page off)
    else if s.hidden bmc page then 0
    else s.viewBlock page off

end Sys2Proof.Machine
end

