-- ==== Sys2Proof/Machine/BusRules.lean ====
section
/-! DEFINITION. What a write of a register must satisfy: the ranges, steps and conditions of the register tables, a write that
breaks one being refused whole (R496), firmware-only fields (R49) and values that leave an enable at 0. -/

namespace Sys2Proof.Machine

/-- A value lies in a range. -/
def inRange (lo hi v : Nat) : Bool := decide (lo ≤ v) && decide (v ≤ hi)

/-- A field of a value. -/
def Fld.of (f : Fld) (w : Word64) : Nat := bits w f.hi f.lo

/-- Reserved SMBus target addresses (R442; which they are is PRESUMED from the SMBus specification, log 37). -/
def smbusReserved (a : Nat) : Bool := decide (a ≤ 8) || [0x0C, 0x28, 0x37, 0x61].contains a || decide (0x78 ≤ a)

/-- A temperature byte in two's complement lies in −40 °C to 125 °C. -/
def windowC (v : Nat) : Bool := decide (v ≤ 125) || inRange 216 255 v

/-- Conditions of PWR registers. -/
def pwrOk (off : Nat) (v : Word64) : Bool :=
  if 0x108 ≤ off ∧ off < 0x168 then
    inRange 1 1000 (PWR_RAIL_LIM_FILTER_US.of v) && inRange 40 120 (PWR_RAIL_LIM_FAULT.of v)
      && inRange 10 (PWR_RAIL_LIM_FAULT.of v - 10) (PWR_RAIL_LIM_WARN.of v)
  else match off with
    | 0x1C8 => decide (1 ≤ PWR_VIN_DIV.of v)
    | 0x1D8 => decide (1 ≤ PWR_OP_DWELL_MS.of v) && PWR_OP_MODE.of v != 3 && decide (PWR_OP_BK_PCT.of v < PWR_OP_FD_PCT.of v)
    | 0x200 => PWR_HOLDUP_MS_MS.of v == 0 || inRange 601 600000 (PWR_HOLDUP_MS_MS.of v)
    | 0x208 => PWR_HOLDUP_W_W.of v == 0 || inRange 150 1000 (PWR_HOLDUP_W_W.of v)
    | 0x218 => decide (1 ≤ PWR_DUR_CFG_FINAL_WAIT_US.of v)
    | _ => true

/-- Conditions of THM registers: only one diode input may be INLET. -/
def State.thmOk (s : State) (off : Nat) (v : Word64) : Bool :=
  if 0x118 ≤ off ∧ off ≤ 0x130 then
    THM_DIODE_MODE.of v != 2 || (List.range 4).all (fun k => 0x118 + 8 * k == off || s.rd THM_DIODE_MODE 0 (8 * k) != 2)
  else match off with
    | 0x108 => inRange 2 30 (THM_LIMITS_THROTTLE_HYST.of v) && inRange 1 20 (THM_LIMITS_NEAR_BAND.of v)
        && inRange 70 100 (THM_LIMITS_THROTTLE.of v) && inRange 60 (THM_LIMITS_THROTTLE.of v - 1) (THM_LIMITS_WARN.of v)
    | _ => true

/-- Conditions of HTH registers (R80, R87). -/
def hthOk (off : Nat) (v : Word64) : Bool :=
  match off with
  | 0x140 => inRange 128 1024 (HTH_PFC_CFG_HEADROOM_KIB.of v) && HTH_PFC_CFG_HEADROOM_KIB.of v % 16 == 0
  | 0x158 => decide (HTH_DMP_THRESH_HALF_OFF.of v < HTH_DMP_THRESH_HALF_ON.of v)
      && decide (HTH_DMP_THRESH_HALF_ON.of v ≤ HTH_DMP_THRESH_SHUT_OFF.of v)
      && decide (HTH_DMP_THRESH_SHUT_OFF.of v < HTH_DMP_THRESH_SHUT_ON.of v) && decide (HTH_DMP_THRESH_SHUT_ON.of v ≤ 64)
      && decide (1 ≤ HTH_DMP_THRESH_HOLD_US.of v)
  | _ => true

/-- Conditions of HCA registers (R99, R104). -/
def hcaOk (off : Nat) (v : Word64) : Bool :=
  match off with
  | 0x120 => decide (HCA_MSHR_CFG_RSV_T0.of v ≤ 4096) && inRange 64 16384 (HCA_MSHR_CFG_CHAN_CAP.of v)
  | 0x130 => decide (HCA_CLEAN_LO.of v < HCA_CLEAN_HI.of v) && decide (HCA_CLEAN_HI.of v ≤ 64)
  | _ => true

/-- Conditions of port registers (R119, R120, R122, R125, R127, R132). R125's condition is asked of writes of FC_CFG alone: a write of MODE that
raises the rate is accepted (DESIGN CHOICE, log 207). -/
def State.hptOk (s : State) (p off : Nat) (v : Word64) : Bool :=
  match off with
  | 0x100 => s.rd PG_CTRL_EN (0x100 + p) == 0 && HPT_MODE_SPEED.of v != 3 && HPT_MODE_MEDIA.of v != 3
      && decide (HPT_MODE_FEC.of v ≤ 1) && (HPT_MODE_FEC.of v == 0 || HPT_MODE_MEDIA.of v == 2)
  | 0x108 => HPT_MAC_ADDR_ADDR.of v != 0 && !bit v 40
  | 0x110 => inRange 1518 9216 (HPT_FRAME_MAX_FRAME.of v)
  | 0x118 => HPT_FC_CFG_FC_MODE.of v != 3 && inRange 1 1000 (HPT_FC_CFG_REFRESH_US.of v) && decide (1 ≤ HPT_FC_CFG_XOFF_QUANTA.of v)
      && decide (((List.range 8).filter (fun q => bit v q)).length ≤ 3)
      && decide (HPT_FC_CFG_REFRESH_US.of v * s.portRate p < HPT_FC_CFG_XOFF_QUANTA.of v * 512)
  | 0x130 => decide (HPT_ECN_KMIN.of v < HPT_ECN_KMAX.of v)
  | 0x158 => inRange 1 1000 (HPT_ANNOUNCE_GAP_MS.of v)
      && (HPT_ANNOUNCE_ALT_PORT.of v == 0xFF || decide (HPT_ANNOUNCE_ALT_PORT.of v ≤ 95))
  | _ => true

/-- Conditions of TIR registers (R215, R219, R221, R231, R234). -/
def State.tirOk (s : State) (off : Nat) (v : Word64) : Bool :=
  match off with
  | 0x100 => !s.poolRefused (TIR_POOL_CFG_REGIONS.of v)
  | 0x108 => !s.budgetBad (TIR_DIRTY_BUDGET_BUDGET_MIB.of v)
  | 0x148 => decide (TIR_SPARE_FRAMES_TENTHS.of v ≤ 100)
  | 0x150 => decide (TIR_FRAME_WM_LOW.of v < TIR_FRAME_WM_HIGH.of v) && decide (TIR_FRAME_WM_HIGH.of v ≤ 100)
  | 0x158 => inRange 1 64 (TIR_DESTAGE_HI.of v) && decide (1 ≤ TIR_DESTAGE_AGE_US.of v)
  | _ => true

/-- Conditions of MIR registers. -/
def mirOk (off : Nat) (v : Word64) : Bool :=
  match off with
  | 0x100 => decide (100 ≤ MIR_LINK_CFG_RETRY_NS.of v)
  | 0x118 => inRange 20 30 (MIR_KEY_CFG_ROTATE_LOG2.of v) && decide (1 ≤ MIR_KEY_CFG_ROTATE_S.of v)
  | 0x130 => decide (4 ≤ MIR_SB_CFG_MISS.of v) && (MIR_SB_CFG_PORT.of v == 0x7F || decide (MIR_SB_CFG_PORT.of v ≤ 95))
  | 0x140 => inRange 125 16000 (MIR_EPOCH_NS_NS.of v)
  | 0x148 => inRange 4 256 (MIR_HB_MISS_MISS.of v)
  | 0x180 => inRange 1 1500 (MIR_RESYNC_CFG_RATE_GBPS.of v)
  | _ => true

/-- Conditions of MED registers (R270, R271, R275, R278); an overprovisioning that leaves DATA_MAX below D; a program window narrower than 7 °C. -/
def State.medOk (s : State) (off : Nat) (v : Word64) : Bool :=
  match off with
  | 0x110 => inRange 1 100 (MED_SLC_FOLD_PCT.of v)
  | 0x120 => inRange 7 50 (MED_OP_PCT.of v) && decide (s.dataBytes ≤ (s.wr MED_OP_PCT (MED_OP_PCT.of v)).dataMax)
  | 0x128 => windowC (MED_PROG_TMIN_C.of v) && decide (sByte (MED_PROG_TMIN_C.of v) + 7 ≤ sByte (s.rd MED_PROG_TMAX_C))
  | 0x130 => windowC (MED_PROG_TMAX_C.of v) && decide (sByte (s.rd MED_PROG_TMIN_C) + 7 ≤ sByte (MED_PROG_TMAX_C.of v))
  | 0x150 => decide (1 ≤ MED_RECLAIM_FREE_LO.of v) && decide (MED_RECLAIM_FREE_LO.of v < MED_RECLAIM_FREE_HI.of v)
      && decide (MED_RECLAIM_PATROL_D.of v ≤ 365)
  | _ => true

/-- Conditions of DCH registers. -/
def dchOk (off : Nat) (v : Word64) : Bool :=
  match off with
  | 0x110 => [0, 12, 24, 36, 48].all (fun i => bits v (i + 11) i != 0)
  | 0x118 => decide (DCH_SCHED_WR_LO.of v < DCH_SCHED_WR_HI.of v) && decide (1 ≤ DCH_SCHED_HIT_MAX.of v)
  | 0x120 => decide (DCH_REFRESH_HOT_C.of v ≤ DCH_REFRESH_THROTTLE_C.of v) && decide (DCH_REFRESH_POSTPONE_MAX.of v ≤ 4)
      && decide (DCH_REFRESH_MODE.of v ≤ 1)
  | 0x128 => decide (1 ≤ DCH_SELFREF_IDLE_US.of v)
  | 0x130 => decide (1 ≤ DCH_RETRAIN_RETRY_LIMIT.of v) && decide (1 ≤ DCH_RETRAIN_INTERVAL_MS.of v)
  | 0x140 => decide (1 ≤ DCH_CE_LIMIT_WINDOW_S.of v)
  | _ => true

/-- Conditions of CPH and INT registers (R380, R381, R388, R398). -/
def cphOk (off : Nat) (v : Word64) : Bool :=
  match off with
  | 0x108 => decide (CPH_ALLOC_SEAL_MAX.of v ≤ 4)
  | 0x110 => inRange 0x10000 0xFFFF0000 (CPH_IV_CFG_WARN.of v)
  | 0x800 => decide (INT_FILL_CFG_MODE.of v ≤ 1)
  | 0x808 => decide (1 ≤ INT_SCRUB_CFG_HEARTH_LAP_S.of v) && decide (1 ≤ INT_SCRUB_CFG_DRAM_LAP_H.of v)
  | 0x818 => decide (1 ≤ INT_DEV_MARK_COUNT.of v)
  | _ => true

/-- A write whose register would become `v` (and whose WO and W1S fields carry `op`) breaks no condition stated for the register
(R496). The writes of GLB.RESET and BFL.CONFIRM are judged where they are carried out. -/
def State.writeOk (s : State) (page off : Nat) (v op : Word64) : Bool :=
  match blockOf page with
  | some (0x00, _) =>
    if off = 0x218 then !(bit op 0 && s.rd GLB_START_STAT_PHASE != 0x20)
    else if 0x400 ≤ off ∧ off < 0x500 ∧ off % 0x40 = 0x10 then
      !(bit v 0 && (!s.ready 0 || s.rqState ((off - 0x400) / 0x40) == 2))
    else true
  | some (0x01, _) => pwrOk off v
  | some (0x02, _) => s.thmOk off v
  | some (0x03, _) => off != 0x100 || decide (1 ≤ EVR_CFG_FREEZE_MS.of v)
  | some (0x04, _) => off != 0x128 || decide (60 ≤ BFL_TRIAL_CFG_WD_S.of v)
  | some (0x05, _) => off != 0x108 || decide (1 ≤ SPB_RET_CFG_IDLE_US.of v)
  | some (0x06, _) => cphOk off v
  | some (0x08, _) => hthOk off v
  | some (0x09, _) => hcaOk off v
  | some (0x0A, _) => s.tirOk off v
  | some (0x0B, _) => mirOk off v
  | some (0x0C, _) => s.medOk off v
  | some (0x0E, _) => off != 0x100 || (decide (1 ≤ SMP_CFG_PERIOD.of v) && !(bit v 0 && s.hearth.layout.smp == 0))
  | some (0x0F, _) => off != 0x110 || !smbusReserved (MGI_SMB_CFG_ADDR.of v)
  | some (0x11, _) => off != 0x100 || (RDX_CC_CFG_G_SHIFT.of v != 0 && RDX_CC_CFG_ALPHA_US.of v != 0 && RDX_CC_CFG_INC_US.of v != 0)
  | some (0x12, _) => off != 0x118 || inRange 100 60000 (CCX_WD_TIMEOUT_MS.of v)
  | some (0x40, _) => dchOk off v
  | some (0x81, p) => s.hptOk p off v
  | _ => true

/-- The event that a refused write raises (R87, R215, R234). -/
def refusedEvent (page off : Nat) : Option Nat :=
  if page = 0x8 ∧ off = 0x158 then some 9 else if page = 0xA ∧ (off = 0x100 ∨ off = 0x108) then some 6 else none

/-- Firmware-only fields (R49): the scratchpad's region registers, and MODE of SPB.MARCH. -/
def isFirmware (page off : Nat) (f : FieldDesc) : Bool :=
  page == 5 && (decide (0x200 ≤ off) || (off == 0x110 && f.lo == 8)) && f.ty == FieldTy.rw

/-- Values that leave a field at another value: an export enabled with a SIZE outside its range leaves EN at 0; the low half of
RET_EN reads 0 (R436, R457, R467); MIGRATE.RATE_MB acts on channel 0's page only. -/
def fixValue (page off : Nat) (v : Word64) : Word64 :=
  if page = 3 ∧ off = 0x128 then (if inRange 4 15 (EVR_EXP_CTRL_SIZE.of v) then v else setBits v 31 31 0)
  else if page = 0xE ∧ off = 0x118 then (if inRange 4 20 (SMP_EXP_CTRL_SIZE.of v) then v else setBits v 31 31 0)
  else if page = 5 ∧ off = 0x108 then setBits v 39 32 0
  else v

/-- Pair-wide settings (R350). -/
def pairWide (page off : Nat) : Bool :=
  (page == 0xA && off == 0x100) || (page == 0xB && (off == 0x140 || off == 0x148 || off == 0x150 || off == 0x158))

end Sys2Proof.Machine
end

