-- ==== Sys2Proof/Machine/Bus.lean ====
section
/-! DEFINITION. Register access (02_control_plane.md): which accesses act, which are recorded in GLB.ACCESS_ERR, what a write does
to a register's fields, and what it starts (R36 to R58, R439, R496). -/

namespace Sys2Proof.Machine

/-- A byte enable of the written half (R42). -/
def halfMask (width addr : Nat) : Word64 :=
  if width = 8 then 0xFFFFFFFFFFFFFFFF else if addr % 8 = 4 then 0xFFFFFFFF00000000 else 0x00000000FFFFFFFF

/-- The written value in its place in the register. -/
def lane (width addr : Nat) (v : Word64) : Word64 :=
  if width = 8 then v else if addr % 8 = 4 then v <<< 32 else v &&& 0xFFFFFFFF

/-- Values merge under a mask. -/
def mix (m old new : Word64) : Word64 := (old &&& ~~~m) ||| (new &&& m)

/-! ### MSI-X (R52, R53) -/

/-- Sends the messages of unmasked vectors that hold a pending bit. -/
def State.msixFlush (s : State) : State :=
  (List.range 64).foldl (fun (s : State) v =>
    if s.msixPend.getLsbD v && !s.msixMask.getLsbD v && s.pcieUp then
      { s with msixPend := s.msixPend &&& ~~~(1#64 <<< v) }.emit (.msix v)
    else s) s

/-- A write of the MSI-X table: 16 bytes an entry, the mask bit in bit 32 of its second half. -/
def State.msixWrite (s : State) (off : Nat) (m v : Word64) : State :=
  let i := (off - 0x8000) / 8
  if i % 2 = 0 then { s with msixTab := NMap.put 0 s.msixTab i (mix m (NMap.getD s.msixTab i 0) v) }
  else
    let n := i / 2
    let cur := NMap.getD s.msixTab i 0 ||| (if s.msixMask.getLsbD n then (1#64 <<< 32) else 0)
    let w := mix m cur v
    let mask := if bit w 32 then s.msixMask ||| (1#64 <<< n) else s.msixMask &&& ~~~(1#64 <<< n)
    ({ s with msixTab := NMap.put 0 s.msixTab i (w &&& ~~~(1#64 <<< 32)), msixMask := mask }).msixFlush

/-- A read of it. -/
def State.msixRead (s : State) (off : Nat) : Word64 :=
  let i := (off - 0x8000) / 8
  if i % 2 = 0 then NMap.getD s.msixTab i 0
  else NMap.getD s.msixTab i 0 ||| (if s.msixMask.getLsbD (i / 2) then (1#64 <<< 32) else 0)

/-! ### The page header (R38 to R40, R48, R53) -/

/-- The block of a page takes new work again, or is asked to stop: QUIESCED follows, and what quiescing stops goes on. -/
def State.quiesceTo (s : State) (page : Nat) (q : Bool) : State :=
  let s := s.wr PG_CTRL_QUIESCE (b2n q) page
  if q then s.quiesceCheck page
  else if s.rd PG_CTRL_EN page = 1 then s.wr PG_STAT_QUIESCED 0 page else s

/-- PG_CTRL.EN changes (R38, R135). -/
def State.enTo (s : State) (page : Nat) (en : Bool) : State :=
  let s := s.wr PG_CTRL_EN (b2n en) page
  if en then
    let s := if s.rd PG_CTRL_QUIESCE page = 1 then s else s.wr PG_STAT_QUIESCED 0 page
    if isHpt page then s.portEnable (page - 0x100) else s
  else
    let s := s.wr PG_STAT_QUIESCED 1 page
    if isHpt page then s.portDisable (page - 0x100) else s

/-- A write of PG_CTRL (R38, R39, R48). `op` holds what is written to W1S bits. -/
def State.ctrlWrite (s : State) (page addr : Nat) (v op : Word64) : State :=
  let sup := quiesceSup page
  let en := bit v 0
  let lock := s.locked page
  let was := s.rd PG_CTRL_EN page == 1
  let done := s.quiesced page
  if !lock && ((sup && was && !en && !done) || (bit op 1 && !(softRstSup page && done))) then s.accessErr 5 true addr
  else
    let q := bit v 3 && sup
    let s := if q != (s.rd PG_CTRL_QUIESCE page == 1) then s.quiesceTo page q else s
    let s := if sup && en != was && !lock then s.enTo page en else s
    let s := if bit op 1 && !lock && isHpt page then s.softReset (page - 0x100) else s
    let s := if bit op 2 then s.wr PG_CTRL_LOCK 1 page else s
    if lock && ((sup && en != was) || bit op 1) then s.accessErr 3 true addr else s

/-- PG_STAT.FAULT stands while a FAULT or FATAL flag is uncleared (R38). -/
def State.faultCheck (s : State) (page : Nat) : State :=
  let f := s.reg (regKey page 0x20)
  if (pageEvents page).any (fun e => decide (2 ≤ e.2) && bit f e.1) then s else s.wr PG_STAT_FAULT 0 page

/-- Raises every defined event of a mask as a test (R38). -/
def State.evtSet (s : State) (page : Nat) (m : Word64) : State :=
  (pageEvents page).foldl (fun (s : State) e => if bit m e.1 then s.raiseWith page e.1 true (s.defaultArg page) else s) s

/-- A write of a header register. R53's message after a write of PG_EVT or PG_EVT_EN that leaves the condition at 1 follows a write of the BMC
like one of the steward: the rule names the steward alone (DESIGN CHOICE, log 190). -/
def State.headerWrite (s : State) (page off addr : Nat) (m v : Word64) : State :=
  match off with
  | 0x10 => s.ctrlWrite page addr (mix m (s.reg (regKey page 0x10)) v) (v &&& m)
  | 0x20 =>
    let s := s.setReg (regKey page 0x20) (s.reg (regKey page 0x20) &&& ~~~(v &&& m))
    (s.faultCheck page).irqAfterWrite page
  | 0x28 => (s.setReg (regKey page 0x28) (mix m (s.reg (regKey page 0x28)) v &&& evtMask page)).irqAfterWrite page
  | 0x30 => s.evtSet page (v &&& m)
  | _ => s

/-! ### The Rister queue registers (R55 to R58) -/

/-- EN written 0 to 1: pointers and phase are reset, sizes checked. Commands up to a SQ_TAIL written before are waiting; one outside the ring is
a BAD_DOORBELL as a later write of it is (log 48). -/
def State.rqOn (s : State) (q : Nat) : State :=
  let o := rqOff q
  let s := ((s.wr GLB_RQ_SQ_HEAD_HEAD 0 0 o).wr GLB_RQ_CQ_TAIL_TAIL 0 0 o).wr GLB_RQ_CQ_TAIL_PHASE 1 0 o
  let s := (s.wr GLB_RQ_STAT_ERR 0 0 o).wr GLB_RQ_STAT_ERR_INDEX 0 0 o
  let t := s.rd GLB_RQ_SQ_TAIL_TAIL 0 o
  let bells : List (Nat × Nat) := if t = 0 then [] else [(t, s.bellCount)]
  let s : State := ({ s with bellCount := s.bellCount + 1 }).setRq q { ghost := (s.rq q).ghost, bells := bells }
  if inRange 4 16 (s.rd GLB_RQ_CTRL_SQ_SIZE 0 o) && inRange 4 16 (s.rd GLB_RQ_CTRL_CQ_SIZE 0 o) then
    if t < s.sqSize q then s.wr GLB_RQ_STAT_STATE 1 0 o else s.rqError q 1 0
  else s.rqError q 5 0

/-- EN written 1 to 0: the command in execution finishes, those fetched and not started end ABORTED; of a queue in ERROR nothing is
posted. -/
def State.rqOff1 (s : State) (q : Nat) : State :=
  let o := rqOff q
  let r := s.rq q
  match s.rqState q with
  | 1 =>
    let ab : List Posting := r.fetched.map (fun g => s.posting q g stAborted 0)
    let s := s.wr GLB_RQ_STAT_STATE 2 0 o
    let s := s.setRq q (if r.running then { r with bells := [] } else { r with bells := [], fetched := [], posts := r.posts ++ ab })
    s.postWaiting q
  | 3 => (s.setRq q { ghost := r.ghost || r.running }).wr GLB_RQ_STAT_STATE 0 0 o
  | _ => s

/-- A doorbell (R55): the commands it covers are there; an index outside the ring stops the queue (R58). -/
def State.rqBell (s : State) (q : Nat) : State :=
  let o := rqOff q
  let t := s.rd GLB_RQ_SQ_TAIL_TAIL 0 o
  let r := s.rq q
  if s.rqState q != 1 then s
  else if s.sqSize q ≤ t then s.rqError q 1 (s.rqIndex q)
  else
    let last := match r.bells.getLast? with | some b => b.1 | none => s.rd GLB_RQ_SQ_HEAD_HEAD 0 o
    if t = last then s
    else ({ s with bellCount := s.bellCount + 1 }).setRq q { r with bells := r.bells ++ [(t, s.bellCount)] }

/-- CQ_HEAD is written (R56, R58). -/
def State.rqCqHead (s : State) (q : Nat) : State :=
  if s.rqState q != 1 && s.rqState q != 2 then s
  else if s.cqSize q ≤ s.rd GLB_RQ_CQ_HEAD_HEAD 0 (rqOff q) then s.rqError q 2 (s.rqIndex q)
  else (s.postWaiting q).advance q

/-- What a write of a queue register starts. -/
def State.rqAfter (s : State) (off : Nat) (old new : Word64) : State :=
  let q := (off - 0x400) / 0x40
  match off % 0x40 with
  | 0x10 => if !bit old 0 && bit new 0 then s.rqOn q else if bit old 0 && !bit new 0 then s.rqOff1 q else s
  | 0x18 => s.rqBell q
  | 0x28 => s.rqCqHead q
  | _ => s

/-! ### What writes of other registers start -/

/-- HOLDUP_MS is accepted (R310, R311): DERATED clears, DIRTY_MAX follows, the setting is saved. -/
def State.holdupMs (s : State) : State := ((s.wr PWR_HOLDUP_STAT_DERATED 0).budgetRecompute).autoSave

/-- A TAIL returns to 0 where EN of an export is written 1 (R457, R467). -/
def State.exportAfter (s : State) (smp : Bool) (op : Word64) : State :=
  if !bit op 31 then s else if smp then s.wr SMP_EXP_PTR_TAIL 0 else s.wr EVR_EXP_PTR_TAIL 0

/-- Performance counters that count EVENTs. -/
def State.pmuEvents (s : State) (m : NMap Word64) : NMap Word64 := m.keep (fun n _ => bits (NMap.getD s.pmu.select n 0) 1 0 == 2)

/-- PMU.CTRL commands: CLEAR first, then SNAP (R462, R468). -/
def State.pmuAfter (s : State) (op : Word64) : State :=
  let s : State := if bit op 2 then { s with pmu := { s.pmu with live := s.pmuEvents s.pmu.live, snap := s.pmuEvents s.pmu.snap } } else s
  if bit op 1 then
    let m := s.pmu.select.foldl (fun (m : NMap Word64) e => NMap.put 0 m e.1 (s.pmuLive e.1)) []
    ({ s with pmu := { s.pmu with snap := m } }).setReg (regKey 0xD 0x108) (BitVec.ofNat 64 s.tb)
  else s

/-- STRAND_EN bits that change (R325). -/
def State.strandsAfter (s : State) (old new : Word64) : State :=
  (List.range 8).foldl (fun (s : State) n =>
    let a := bit old (32 + n)
    let b := bit new (32 + n)
    if a && !b then s.strandOff n else if !a && b then s.strandOn n else s) s

/-- State of a scratchpad bank (R436). -/
def State.bankSt (s : State) (b : Nat) : Nat := bits (s.reg (regKey 5 0x100)) (4 * b + 3) (4 * b)

/-- Writes it. -/
def State.setBank (s : State) (b st : Nat) : State := s.setReg (regKey 5 0x100) (setBits (s.reg (regKey 5 0x100)) (4 * b + 3) (4 * b) st)

/-- A march test starts (R437): refused while one runs, or of a bank that is FAILED or OFF; a bank in retention wakes first
(R438). -/
def State.marchStart (s : State) (steward : Bool) : State :=
  let b := s.rd SPB_MARCH_BANK
  let st := s.bankSt b
  if s.ccx.march.isSome || st == 0 || st == 5 then s.wr SPB_MARCH_RESULT 3
  else
    let s := if st = 2 ∨ st = 3 then s.satInc SPB_ECC_WAKES 1 else s
    let s := (((s.setBank b 4).wr SPB_MARCH_GO 1).wr SPB_MARCH_SEGMENTS 0).wr PG_STAT_BUSY 1 5
    { s with ccx := { s.ccx with march := some (b, 0, s.rd SPB_MARCH_MODE == 1, steward) } }

/-- What a write that was accepted starts, the register having gone from `old` to `new`; `op` is what WO, W1S and RW fields of the
written half were written with. -/
def State.afterWrite (s : State) (page off : Nat) (old new op : Word64) : State :=
  match blockOf page with
  | some (0x00, _) => if 0x400 ≤ off ∧ off < 0x500 then s.rqAfter off old new
      else if off = 0x218 ∧ bit op 0 then s.wr GLB_RECOVERY_SRC_GO 1 else s
  | some (0x01, _) =>
    match off with
    | 0x1D8 => ({ s with pwr := { s.pwr with avsFailed := false } }).opEval
    | 0x200 => s.holdupMs
    | 0x208 => s.autoSave.startProbe
    | _ => s
  | some (0x03, _) =>
    if off = 0x118 then (if bit new 0 then s.freezeOn else s.freezeOff)
    else if off = 0x128 then s.exportAfter false op else s
  | some (0x05, _) => if off = 0x110 ∧ bit op 0 then s.marchStart true else s
  | some (0x06, _) => if off = 0x108 then s.sealRelease else if off = 0x800 then s.autoSave else s
  | some (0x08, _) =>
    if off = 0x130 ∧ bit op 0 then s.applyLayout else if off = 0x160 then s.setLevel s.levelNow else s
  | some (0x09, _) => if off = 0x100 ∧ bit new 0 != bit old 0 then s.cacheEn (bit new 0) else s
  | some (0x0A, _) => if off = 0x108 then s.budgetRecompute else s
  | some (0x0B, _) => if off = 0x100 then s.strandsAfter old new else s
  | some (0x0C, _) => if off = 0x110 ∨ off = 0x120 then s.mediaRecompute else s
  | some (0x0D, _) => if off = 0x100 then s.pmuAfter op else s
  | some (0x0E, _) => if off = 0x118 then s.exportAfter true op else s
  | some (0x81, p) => if off = 0x118 then s.fcAfter (bits old 17 16) p else s
  | _ => s

/-! ### A write -/

/-- Configuration fields of a page's registers are frozen: its own READY is 0 (7), unless it is a channel that is EMPTY or OUT
(R259), or LOCK is 1 (3). GLB's take effect before GLB is READY (R50). -/
def State.frozenBy (s : State) (page : Nat) : Nat :=
  let chanFree := decide (0x40 ≤ page ∧ page ≤ 0x6F) && (s.rd PG_STAT_STATE page == 0 || s.rd PG_STAT_STATE page == 7)
  if page != 0 && !s.ready page && !chanFree then 7 else if s.locked page then 3 else 0

/-- RW bits of a register that a write may change: not the frozen ones, not firmware-only ones. -/
def State.openMask (s : State) (page off : Nat) (d : RegDesc) : Word64 :=
  let fz := s.frozenBy page != 0
  d.maskOf (fun f => f.ty == FieldTy.rw && !(fz && isConfig page off f) && !isFirmware page off f)

/-- What a field's register holds now, its computed parts included. -/
def State.cur (s : State) (page off : Nat) : Word64 := if isHpt page && off == 0x108 then s.view page off true else s.reg (regKey page off)

/-- The value a write leaves in a register. -/
def State.newValue (s : State) (page off : Nat) (d : RegDesc) (m v : Word64) : Word64 :=
  let old := s.cur page off
  let rw := s.openMask page off d
  let w1c := d.maskOf (fun f => f.ty == FieldTy.w1c)
  let shared := if page ≠ 0x40 ∧ 0x40 ≤ page ∧ page ≤ 0x6F ∧ off = 0x148 then 0 else rw
  fixValue page off (mix (shared &&& m) old v &&& ~~~(v &&& m &&& w1c))

/-- A write that is accepted: the register, PG_GEN, what it starts. Pair-wide settings wait for their epoch (R350); of a page that is frozen
they are left alone, a change that waits among them (R48, R50). -/
def State.storeReg (s : State) (page off : Nat) (old new op : Word64) : State :=
  if pairWide page off then
    if (new = old && !s.cfgWaits page off) || s.frozenBy page != 0 then s else s.pairConfig page off (new &&& configMask page off)
  else
    let s := if new = old then s else s.setReg (regKey page off) new
    let s := if ((new ^^^ old) &&& configMask page off) = 0 then s else s.bumpGen page
    s.afterWrite page off old new op

/-- A write of a block register. -/
def State.blockWrite (s : State) (page off addr : Nat) (d : RegDesc) (m v : Word64) : State :=
  let old := s.cur page off
  let new := s.newValue page off d m v
  let cfg := configMask page off &&& m
  let op := v &&& m
  let asked := mix cfg old v
  let fz := s.frozenBy page
  let mixed := d.fields.any (fun f => f.ty == FieldTy.rw && isControl page off f)
  let fzErr := fz != 0 && cfg != 0 && (asked != old || !mixed)
  let fw := d.maskOf (isFirmware page off) &&& m
  let fwErr := (fz = 0 || off = 0x110) && ((old ^^^ v) &&& fw) != 0
  if page = 0 ∧ off = 0x220 then (s.glbReset op).getD (s.accessErr 5 true addr)
  else if page = 4 ∧ off = 0x120 then (s.bflConfirm op).getD (s.accessErr 5 true addr)
  else if !s.writeOk page off new op then
    let s := s.accessErr 5 true addr
    match refusedEvent page off with
    | some n => s.raise page n
    | none => s
  else
    let s := s.storeReg page off old new op
    if fzErr then s.accessErr fz true addr
    else if fwErr then s.accessErr 4 true addr
    else s

/-- The page and register that an address names. -/
def pageOf (addr : Nat) : Nat := addr / 0x10000
def offOf (addr : Nat) : Nat := addr % 0x10000 / 8 * 8

/-- The width and alignment are ones R41 allows. -/
def widthOk (addr width : Nat) : Bool := (width == 8 && addr % 8 == 0) || (width == 4 && addr % 4 == 0)

/-- The address lies in the MSI-X table or the pending-bit array (R52). -/
def inMsix (addr : Nat) : Bool := decide (0x8000 ≤ addr ∧ addr < 0x8400) || decide (0x9000 ≤ addr ∧ addr < 0x9008)

/-- A write of BAR0 (R36, R37, R41, R50). Before GLB is READY a write to an unassigned offset of a hidden page is recorded as NOT_READY: R36 and
R50 both name a cause for it and neither comes first (DESIGN CHOICE, log 191). -/
def State.busWrite (s : State) (addr width : Nat) (value : Word64) (bmc : Bool := false) : State :=
  let page := pageOf addr
  let off := offOf addr
  let m := halfMask width addr
  let v := lane width addr value
  if 2 ^ 26 ≤ addr then s
  else if !widthOk addr width then s.accessErr 2 true addr
  else if !mapped page then s.accessErr 1 true addr
  else if inMsix addr then (if addr < 0x9000 then s.msixWrite off m v else s)
  else if s.hidden bmc page then s.accessErr 7 true addr
  else match descAt page off with
    | none => s.accessErr 6 true addr
    | some d =>
      if isCounterPage page then s
      else if off < 0x40 then s.headerWrite page off addr m v
      else s.blockWrite page off addr d m v

/-! ### A read -/

/-- RC bits of a register. -/
def RegDesc.rcMask (d : RegDesc) : Word64 := d.maskOf (fun f => f.ty == FieldTy.rc)

/-- The bits that a read covers, as the reader gets them. -/
def taken (width addr : Nat) (w : Word64) : Word64 :=
  if width = 8 then w else if addr % 8 = 4 then w >>> 32 else w &&& 0xFFFFFFFF

/-- A read of BAR0: the value, and the state with RC fields of the half read cleared (R36, R41, R42). -/
def State.busRead (s : State) (addr width : Nat) (bmc : Bool := false) : Word64 × State :=
  let page := pageOf addr
  let off := offOf addr
  if 2 ^ 26 ≤ addr then (0, s)
  else if !widthOk addr width then (0, s.accessErr 2 false addr)
  else if !mapped page then (0, s.accessErr 1 false addr)
  else if inMsix addr then (taken width addr (if addr < 0x9000 then s.msixRead off else s.msixPend), s)
  else
    let w := taken width addr (s.view page off bmc)
    match descAt page off with
    | some d =>
      let rc := d.rcMask &&& halfMask width addr
      if rc = 0 || s.hidden bmc page then (w, s) else (w, s.setReg (regKey page off) (s.reg (regKey page off) &&& ~~~rc))
    | none => (w, s)

end Sys2Proof.Machine
end

