-- ==== Sys2Proof/Machine/BusRows.lean ====
section
/-! DEFINITION. The rows of the table that are register accesses: each is one access of BAR0 (Bus.lean) with the value its row names,
and what the waiting operations then do. -/

namespace Sys2Proof.Machine

/-- One 64-bit write of a register, and what it lets go on. -/
def State.put (s : State) (page off : Nat) (v : Word64) : State := (s.busWrite (regKey page off) 8 v).settle

/-- A write of more than 8 bytes: 64-bit accesses in ascending address order (R43), the last one of the bytes that are left. -/
def busSeries : List Word64 → State → Nat → Nat → State
  | [], s, _, _ => s
  | v :: vs, s, addr, n => if n = 0 then s else busSeries vs (s.busWrite addr (min 8 n) v) (addr + 8) (n - 8)

/-- REGISTER_WRITE (R43, R44). -/
def execRegisterWrite (off width : Nat) (value : WriteData) (s : State) : Res :=
  .next (if value.more.isEmpty then s.busWrite off width value.first else busSeries (value.first :: value.more) s off width).settle

/-- A read of a register by the steward, its value returned (R12, R41). -/
def State.readOut (s : State) (addr width : Nat) : State :=
  let (w, s) := s.busRead addr width
  s.emit (.readData addr w)

/-- RC_FIELD_READ (R12). -/
def execRcFieldRead (off width : Nat) (s : State) : Res := .next (s.readOut off width)

/-- PG_CTRL with one RW bit changed and a W1S bit written. -/
def State.putCtrl (s : State) (page : Nat) (f : Word64 → Word64) : State := s.put page 0x10 (f (s.reg (regKey page 0x10) &&& 0x9))

/-- PG_QUIESCE (R38). -/
def execPgQuiesce (page : Nat) (s : State) : Res := .next (s.putCtrl page (fun w => w ||| 0x8))

/-- PG_RESUME (R38). -/
def execPgResume (page : Nat) (s : State) : Res := .next (s.putCtrl page (fun w => w &&& 0x1))

/-- PG_LOCK (R48). -/
def execPgLock (page : Nat) (s : State) : Res := .next (s.putCtrl page (fun w => w ||| 0x4))

/-- PG_SOFT_RST (R39). -/
def execPgSoftRst (page : Nat) (s : State) : Res := .next (s.putCtrl page (fun w => w ||| 0x2))

/-- PG_ENABLE (R39). -/
def execPgEnable (page : Nat) (s : State) : Res := .next (s.putCtrl page (fun w => w ||| 0x1))

/-- PG_DISABLE (R39). -/
def execPgDisable (page : Nat) (s : State) : Res := .next (s.putCtrl page (fun w => w &&& 0x8))

/-- PG_EVT_CLEAR (R38, R53). -/
def execPgEvtClear (page : Nat) (mask : Word64) (s : State) : Res := .next (s.put page 0x20 mask)

/-- PG_EVT_EN_WRITE (R40, R53). -/
def execPgEvtEnWrite (page : Nat) (mask : Word64) (s : State) : Res := .next (s.put page 0x28 mask)

/-- PG_EVT_SET (R38). -/
def execPgEvtSet (page : Nat) (mask : Word64) (s : State) : Res := .next (s.put page 0x30 mask)

/-- MSIX_UNMASK (R53): the vector's mask bit, in the last quarter of its table entry, is written 0. -/
def execMsixUnmask (vector : Nat) (s : State) : Res := .next (s.busWrite (0x8000 + 16 * (vector % 64) + 12) 4 0)

/-- RQ_ENABLE (R58): RQ_CTRL is written with EN 1. -/
def execRqEnable (q : Nat) (value : Word64) (s : State) : Res := .next (s.put 0 (0x410 + rqOff (q % 4)) (value ||| 1))

/-- RQ_DISABLE (R58): RQ_CTRL is written with EN 0, its other fields as they are. -/
def execRqDisable (q : Nat) (s : State) : Res :=
  .next (s.put 0 (0x410 + rqOff (q % 4)) (s.reg (regKey 0 (0x410 + rqOff (q % 4))) &&& ~~~(1 : Word64)))

/-- RQ_DOORBELL (R55, R58). -/
def execRqDoorbell (q tail : Nat) (s : State) : Res := .next (s.put 0 (0x418 + rqOff (q % 4)) (BitVec.ofNat 64 tail))

/-- RQ_CQ_HEAD_WRITE (R56, R58). -/
def execRqCqHeadWrite (q head : Nat) (s : State) : Res := .next (s.put 0 (0x428 + rqOff (q % 4)) (BitVec.ofNat 64 head))

/-- CACHE_DRAIN (R110): HCA.CTRL.EN is written 0. -/
def execCacheDrain (s : State) : Res := .next (s.put 9 0x100 (s.reg (regKey 9 0x100) &&& ~~~(1 : Word64)))

/-- CACHE_ENABLE (R109): HCA.CTRL.EN is written 1. -/
def execCacheEnable (s : State) : Res := .next (s.put 9 0x100 (s.reg (regKey 9 0x100) ||| 1))

/-- POOL_RESIZE (R215): TIR.POOL_CFG.REGIONS is written. -/
def execPoolResize (regions : Nat) (s : State) : Res := .next (s.put 0xA 0x100 (BitVec.ofNat 64 (regions % 2 ^ 18)))

/-- DIRTY_BUDGET_WRITE (R234). -/
def execDirtyBudgetWrite (mib : Nat) (s : State) : Res := .next (s.put 0xA 0x108 (BitVec.ofNat 64 (mib % 2 ^ 22)))

/-- HOLDUP_MS_WRITE (R310). -/
def execHoldupMsWrite (ms : Nat) (s : State) : Res := .next (s.put 1 0x200 (BitVec.ofNat 64 (ms % 2 ^ 20)))

/-- HOLDUP_W_WRITE (R310). -/
def execHoldupWWrite (w : Nat) (s : State) : Res := .next (s.put 1 0x208 (BitVec.ofNat 64 (w % 2 ^ 16)))

/-- OP_WRITE (R478). -/
def execOpWrite (value : Word64) (s : State) : Res := .next (s.put 1 0x1D8 value)

/-- A strand's enable bit is written, the others as they are. -/
def State.putStrand (s : State) (n : Nat) (on : Bool) : State :=
  s.put 0xB 0x100 (setBits (s.reg (regKey 0xB 0x100)) (32 + n % 8) (32 + n % 8) (b2n on))

/-- STRAND_DISABLE (R325). -/
def execStrandDisable (strand : Nat) (s : State) : Res := .next (s.putStrand strand false)

/-- STRAND_ENABLE (R325). -/
def execStrandEnable (strand : Nat) (s : State) : Res := .next (s.putStrand strand true)

/-- PAIR_CONFIG_WRITE (R350): a write of one of the pair-wide settings; of another register it is none. -/
def execPairConfigWrite (page off : Nat) (value : Word64) (s : State) : Res :=
  .next (if pairWide page off then s.put page off value else s)

/-- RESET (R407): a write of GLB.RESET. -/
def execReset (value : Word64) (s : State) : Res := .next (s.busWrite (regKey 0 0x220) 8 value)

/-- RECOVERY_COPY (R411): RECOVERY_SRC is written with GO; in recovery the copy ends with what it found, no image where the read of
steward memory fails. -/
def State.recoveryCopy (s : State) (addr : Word64) (img : Option ImageInfo) : State :=
  let s := s.busWrite (regKey 0 0x218) 8 ((addr &&& ~~~(0xFFF : Word64)) ||| 1)
  if s.rd GLB_RECOVERY_SRC_GO = 1 then s.recoveryCopied img else s

def execRecoveryCopy (addr : Word64) (img : Option ImageInfo) (s : State) : Res := .next (s.recoveryCopy addr img)

/-- CONFIRM (R422). -/
def execConfirm (key : Nat) (s : State) : Res := .next (s.busWrite (regKey 4 0x120) 8 (BitVec.ofNat 64 key))

/-- FREEZE (R455). -/
def execFreeze (s : State) : Res := .next (s.busWrite (regKey 3 0x118) 8 1)

/-- FREEZE_RELEASE (R455). -/
def execFreezeRelease (s : State) : Res := .next (s.busWrite (regKey 3 0x118) 8 0)

/-- EXP_HEAD_WRITE (R457, R467). -/
def execExpHeadWrite (sample : Bool) (head : Nat) (s : State) : Res :=
  .next (s.busWrite (if sample then regKey 0xE 0x120 else regKey 3 0x130) 8 (BitVec.ofNat 64 (if sample then head % 2 ^ 20 else head % 2 ^ 16)))

/-- PMU.CTRL with a command bit. -/
def State.putPmu (s : State) (b : Word64) : State := s.busWrite (regKey 0xD 0x100) 8 ((s.reg (regKey 0xD 0x100) &&& 0x9) ||| b)

/-- SNAP (R462). -/
def execSnap (s : State) : Res := .next (s.putPmu 2)

/-- CLEAR (R462). -/
def execClear (s : State) : Res := .next (s.putPmu 4)

/-- MARCH_TEST (R437): the steward selects a bank and starts a preserving test. -/
def execMarchTest (bank : Nat) (s : State) : Res :=
  .next (s.busWrite (regKey 5 0x110) 8 (BitVec.ofNat 64 (s.rd SPB_MARCH_MODE * 256 + bank % 16 * 16 + 1)))

end Sys2Proof.Machine
end

