-- ==== Sys2Proof/Machine/Boot.lean ====
section
/-! DEFINITION. Start-up steps, resets, the boot store's block commands and the two watchdogs (17_startup_update.md,
18_control_complex.md R431). -/

namespace Sys2Proof.Machine

/-- START_STEP_DONE (R424). -/
def execStartStepDone (r : StepResult) (s : State) : Res := .next ((s.sampleStrap r).startStep r).settle

/-- RESET_PIN (R405). -/
def execResetPin (s : State) : Res := .next (s.deviceReset 1)

/-- PERST (R405, R446). -/
def execPerst (s : State) : Res := .next s.perst

/-! ### The boot store's commands (R420, R421) -/

/-- BFL.STATUS reads RECOVERY. -/
def State.inRecovery (s : State) : Bool := s.rd BFL_STATUS_STATE == 3

/-- The block a command works on: the inactive one, in recovery the one word 6 names. -/
def State.inactive (s : State) (c : RqCmd) : Nat := if s.inRecovery then bits c.w6 0 0 else 1 - s.sel.active

/-- Fields R420 asks to be 0. -/
def State.bflZero (s : State) (c : RqCmd) (data : Bool) : Bool :=
  c.count == 0 && c.table == 0 && c.w5 == 0 && c.w7 == 0 && (if s.inRecovery then bits c.w6 63 1 == 0 else c.w6 == 0)
    && (if data then inRange 256 0x100000 c.length && c.length % 256 == 0 else c.w1 == 0 && c.w2 == 0 && c.length == 0)

/-- A command that changes an image block, refused while STATE is TRIAL. -/
def State.bflCmd (s : State) (q op : Nat) (data : Bool) (f : State → Nat → RqCmd → State) : State :=
  s.blockCmd q 0x04 op false (fun c => s.bflZero c data) (fun s _ c =>
    if s.rd BFL_STATUS_STATE = 2 then s.finishCmd q 0x40 0 else f s (s.inactive c) c)

/-- The first word of an image block in the boot store: 256 KiB blocks 128 to 319 hold one image, 320 to 511 the other (R418). -/
def imageBase (b : Nat) : Nat := (if b = 0 then 128 else 320) * 2 ^ 15

/-- The boot store with an image block erased: its words are not listed. -/
def Boot.eraseImage (t : Boot) (b : Nat) : Boot :=
  { t with store := t.store.filter (fun e => decide (e.1 < imageBase b) || decide (imageBase b + 192 * 2 ^ 15 ≤ e.1)) }

/-- BFL_BEGIN: the block's VERIFIED flag is cleared, then the block is erased. -/
def State.bflBegin (s : State) (q : Nat) : State :=
  s.bflCmd q 0x40 false (fun s b _ =>
    let s := s.writeSel (s.sel.setOk b false 0)
    let s : State := { s with boot := { s.boot.eraseImage b with writing := some b, bytes := 0 } }
    s.bflStat.finishCmd q stOk 0)

def execBflBegin (q : Nat) (s : State) : Res := .next (s.bflBegin q)

/-- BFL_WRITE: the chunk follows the bytes written. -/
def State.bflWrite (s : State) (q : Nat) (data : List Word64) : State :=
  s.bflCmd q 0x41 true (fun s b c =>
    if s.boot.writing != some b || c.index != s.boot.bytes then s.finishCmd q 0x41 0
    else if 48 * 2 ^ 20 < c.index + c.length then s.finishCmd q 0x42 0
    else if 8 * data.length < c.length then s.finishCmd q stDmaError 0
    else
      let at_ := imageBase b + c.index / 8
      let ws := (List.range (c.length / 8)).foldl (fun m i => NMap.insert m (at_ + i) (wordAt data i)) s.boot.store
      let s : State := { s with boot := { s.boot with bytes := s.boot.bytes + c.length, store := ws } }
      s.bflStat.finishCmd q stOk s.boot.bytes)

def execBflWrite (q : Nat) (data : List Word64) (s : State) : Res := .next (s.bflWrite q data)

/-- What a verification of a block found. -/
def State.setImg (s : State) (b : Nat) (m : ImageInfo) : State :=
  { s with boot := if b = 0 then { s.boot with img0 := some m } else { s.boot with img1 := some m } }

/-- BFL_VERIFY: VERIFIED is set, or the block is INVALID. -/
def State.bflVerify (s : State) (q : Nat) (m : ImageInfo) : State :=
  s.bflCmd q 0x42 false (fun s b _ =>
    let s : State := { s with boot := { s.boot with writing := if s.boot.writing = some b then none else s.boot.writing } }
    let s := s.setImg b m
    match imageFault s.boot.floor m with
    | 0 => ((s.writeSel (s.sel.setOk b true m.version)).raise 4 0).finishCmd q stOk m.version.toNat
    | e =>
      let s := if s.sel.ok b then s.writeSel (s.sel.setOk b false 0) else s.bflStat
      (s.raise 4 1).finishCmd q 0x43 e)

def execBflVerify (q : Nat) (img : ImageInfo) (s : State) : Res := .next (s.bflVerify q img)

/-- BFL_ACTIVATE: the other block is ACTIVE in TRIAL from the next device reset on. -/
def State.bflActivate (s : State) (q : Nat) : State :=
  s.bflCmd q 0x43 false (fun s b _ =>
    if !s.sel.ok b then s.finishCmd q 0x44 0
    else
      let s := (s.writeSel { s.sel with active := b, trial := true, boots := 0 }).raise 4 2
      s.finishCmd q stOk s.sel.seqNo)

def execBflActivate (q : Nat) (s : State) : Res := .next (s.bflActivate q)

/-- BFL_SAVE: the configuration fields of every page but GLB and the counter pages, and ADDR entries 0 to 3 (R417). -/
def State.bflSave (s : State) (q : Nat) : State :=
  s.blockCmd q 0x04 0x44 false (fun c => s.bflZero c false) (fun s _ _ =>
    let s := s.selfSeal
    let keep := s.regs.filter (fun e => savedKey e.1)
    let s : State := { s with boot := { s.boot with saved := keep, savedAddrs := s.addrs.filter (fun e => decide (e.1 % 8 < 4)) } }
    (s.raise 4 8).finishCmd q stOk savedCount)

def execBflSave (q : Nat) (s : State) : Res := .next (s.bflSave q)

/-- BFL_FORGET. -/
def State.bflForget (s : State) (q : Nat) : State :=
  s.blockCmd q 0x04 0x45 false (fun c => s.bflZero c false) (fun s _ _ =>
    let s : State := { s with boot := { s.boot with saved := [], savedAddrs := [] } }
    (s.raise 4 8).finishCmd q stOk 0)

def execBflForget (q : Nat) (s : State) : Res := .next (s.bflForget q)

/-! ### Watchdogs (R422, R431) -/

/-- TRIAL_WATCHDOG: the revert record is written and the device resets, with its ember record. -/
def State.trialExpired (s : State) : State :=
  match s.boot.trialAt with
  | some t =>
    if s.rd BFL_STATUS_STATE = 2 then
      let s := s.upTo (t + s.rd BFL_TRIAL_CFG_WD_S * 1000000000)
      ((s.revert (1 - s.sel.active)).emberStop 6).deviceReset 4
    else s
  | none => s

def execTrialWatchdog (s : State) : Res := .next s.trialExpired

/-- CORE_WATCHDOG: stopped during a flush and a clean stop, and before the roles are assigned. With no SUPERVISOR core left it
expires at the end of the count; of a hang of the firmware the last restart is not known, and the command comes when it expires. -/
def State.coreExpired (s : State) : State :=
  if s.wdStopped then s
  else
    let s := if s.supervised then s else s.upTo (s.ccx.wdAt + s.rd CCX_WD_TIMEOUT_MS * 1000000)
    (s.emberStop 3).deviceReset 3

def execCoreWatchdog (s : State) : Res := .next s.coreExpired

end Sys2Proof.Machine
end

