-- ==== Sys2Proof/Machine/Control.lean ====
section
/-! DEFINITION. The control complex and the management interfaces (18_control_complex.md): halted cores, march tests and retention of
the scratchpad, the SPI and SMBus targets, I3C, JTAG, the steward link. -/

namespace Sys2Proof.Machine

/-! ### Control cores (R429, R430) -/

/-- State of a core: OFF 0, RUNNING 1, HALTED 2; its role. -/
def State.coreSt (s : State) (k : Nat) : Nat := bits (s.reg (regKey 0x12 0x100)) (4 * k + 3) (4 * k)
def State.coreRole (s : State) (k : Nat) : Nat := bits (s.reg (regKey 0x12 0x108)) (4 * k + 3) (4 * k)

/-- Writes the state or the role of a core. -/
def State.setCore (s : State) (off k v : Nat) : State :=
  s.setReg (regKey 0x12 off) (setBits (s.reg (regKey 0x12 off)) (4 * k + 3) (4 * k) v)

/-- Running cores of a role, rising. -/
def State.coresOf (s : State) (role : Nat) : List Nat := (List.range 16).filter (fun k => s.coreSt k == 1 && s.coreRole k == role)

/-- The core that moves into a lost role: the lowest HOUSEKEEPING core, else the highest CONNECTION core. -/
def State.replacement (s : State) : Option Nat :=
  match (s.coresOf 4).head? with
  | some k => some k
  | none => (s.coresOf 2).getLast?

/-- The replacement takes a lost role; a core that has that role already stays as it is. -/
def State.moveRole (s : State) (role : Nat) : State :=
  match s.replacement with
  | some k => if s.coreRole k = role then s else (s.setCore 0x108 k role).raise 0x12 1
  | none => s

/-! ### Accesses to the scratchpad (R434, R435) -/

/-- A region register of master m admits an access of a kind to a scratchpad address. -/
def State.spAdmits (s : State) (m addr : Nat) (k : SpKind) : Bool :=
  (List.range 4).any (fun i =>
    let a := 0x20 * m + 8 * i
    let right := match k with
      | .read => s.rd SPB_REGION_RD 0 a
      | .write _ => s.rd SPB_REGION_WR 0 a
      | _ => s.rd SPB_REGION_AT 0 a
    s.rd SPB_REGION_EN 0 a == 1 && right == 1 && decide (s.rd SPB_REGION_BASE 0 a ≤ addr / 4096) && decide (addr / 4096 ≤ s.rd SPB_REGION_LIMIT 0 a))

/-- Records a fault in SPB.LAST_FAULT. -/
def State.spFault (s : State) (cause m addr : Nat) : State :=
  s.setReg (regKey 5 0x120) (pack [(60, cause), (48, m), (0, addr % 2 ^ 26)])

/-- An atomic needs an address aligned to 8 bytes. -/
def spMisaligned (addr : Nat) : SpKind → Bool
  | .read | .write _ => false
  | .add _ | .swap _ => addr % 8 != 0

/-- An access of master m to a scratchpad word: what it returns, the state after it, and whether no region admits it. ADD adds modulo
2^64, SWAP exchanges; each returns the word's previous value. -/
def State.spAccess (s : State) (m addr : Nat) (k : SpKind) : State × Word64 × Bool :=
  let old := NMap.getD s.ccx.spad (addr / 8) 0
  let put (v : Word64) : State := { s with ccx := { s.ccx with spad := NMap.put 0 s.ccx.spad (addr / 8) v } }
  if !s.spAdmits m addr k then ((s.spFault 1 m addr).raiseArg 5 0 ((s.spFault 1 m addr).reg (regKey 5 0x120)), 0, true)
  else if spMisaligned addr k then (s.spFault 2 m addr, 0, false)
  else match k with
    | .read => (s, old, false)
    | .write v => (put v, 0, false)
    | .add v => (put (old + v), old, false)
    | .swap v => (put v, old, false)

/-- A core halts: HALTED with no role, CORE_HALTED, and its role moves. The watchdog counts on from here where no SUPERVISOR core is left. -/
def State.coreStops (s : State) (k : Nat) : State :=
  let role := s.coreRole k
  let s := ((s.setCore 0x100 k 2).setCore 0x108 k 0).raise 0x12 0
  let s := s.moveRole role
  if s.supervised then s else { s with ccx := { s.ccx with wdAt := s.mono - s.wdSince * 1000000 } }

/-- A core's access reaches its bank: performed if a region in force then admits it, else the core halts (R435). -/
def State.spPerform (s : State) (k addr : Nat) (a : SpKind) : State :=
  let s : State := { s with ccx := { s.ccx with spUsed := NMap.put 0 s.ccx.spUsed (addr / 2 ^ 22) s.mono } }
  let (s, _, refused) := s.spAccess k addr a
  if refused && s.coreSt k == 1 then s.coreStops k else s

/-- An access waits: its bank is in retention or waking (R436), or its segment is under a preserving test (R437). -/
def State.spWaits (s : State) (addr : Nat) : Bool :=
  let b := addr / 2 ^ 22
  s.bankSt b == 2 || s.bankSt b == 3
    || (match s.ccx.march with | some (c, n, d, _) => c == b && !d && addr % 2 ^ 22 / 4096 == n | none => false)

/-- An access waits; one that finds the bank in retention wakes it, and each wait for a wake is counted (R436). -/
def State.spHold (s : State) (k addr : Nat) (a : SpKind) : State :=
  let b := addr / 2 ^ 22
  let s := if s.bankSt b = 2 ∨ s.bankSt b = 3 then (s.setBank b 3).satInc SPB_ECC_WAKES 1 else s
  { s with ccx := { s.ccx with spWait := s.ccx.spWait ++ [(k, addr, a)] } }

/-- Waiting accesses of a bank that may now go are performed in their order (R434, R436, R437). -/
def State.spGo (s : State) (b : Nat) : State :=
  let go := s.ccx.spWait.filter (fun e => e.2.1 / 2 ^ 22 == b && !s.spWaits e.2.1)
  let s : State := { s with ccx := { s.ccx with spWait := s.ccx.spWait.filter (fun e => !(e.2.1 / 2 ^ 22 == b && !s.spWaits e.2.1)) } }
  go.foldl (fun (s : State) e => s.spPerform e.1 e.2.1 e.2.2) s

/-- CORE_HALTED (R430): a core takes an exception, or reads an uncorrectable scratchpad word, which is recorded (R438), or makes an access
that no region of its own admits (R435); an access that is admitted is performed and halts nothing; one to a bank that sleeps or is tested
waits (R436, R437). -/
def State.coreHalted (s : State) (k : Nat) (cause : CoreCause) (addr : Nat) : State :=
  if 16 ≤ k || s.coreSt k != 1 then s
  else match cause with
    | .exception => s.coreStops k
    | .uncorrectable =>
      let s := (s.satInc SPB_ECC_UE 1).spFault 3 k addr
      (s.raiseArg 5 2 (s.reg (regKey 5 0x120))).coreStops k
    | .access kind => if s.spWaits addr then s.spHold k addr kind else s.spPerform k addr kind

def execCoreHalted (core : Nat) (cause : CoreCause) (addr : Nat) (s : State) : Res := .next (s.coreHalted core cause addr)

/-! ### Scratchpad (R436, R437) -/

/-- MARCH_SEGMENT_DONE. -/
def State.marchSegment (s : State) (b : Nat) : State :=
  match s.ccx.march with
  | some (c, n, d, st) =>
    if c = b && !d && decide (n < 1024) then ({ s with ccx := { s.ccx with march := some (c, n + 1, d, st) } }.wr SPB_MARCH_SEGMENTS (n + 1)).spGo b
    else s
  | none => s

def execMarchSegmentDone (bank : Nat) (s : State) : Res := .next (s.marchSegment bank)

/-- Disables the regions that cover a bank (R437). -/
def State.regionsOff (s : State) (b : Nat) : State :=
  (List.range 88).foldl (fun (s : State) i =>
    if s.rd SPB_REGION_EN 0 (8 * i) == 1 && decide (s.rd SPB_REGION_BASE 0 (8 * i) ≤ 1024 * b + 1023)
        && decide (1024 * b ≤ s.rd SPB_REGION_LIMIT 0 (8 * i)) then s.wr SPB_REGION_EN 0 0 (8 * i) else s) s

/-- MARCH_DONE: a preserving test that found no fault has done its 1,024 segments; a destructive one leaves the bank zeroed; a bank with a fault is FAILED and no region covers
it. -/
def State.marchEnd (s : State) (b : Nat) (fault : Bool) : State :=
  match s.ccx.march with
  | some (c, _, d, st) =>
    if c != b then s
    else
      let s := { s with ccx := { s.ccx with march := none } }.spGo b
      let s := ((s.wr SPB_MARCH_GO 0).wr SPB_MARCH_RESULT (if fault then 2 else 1)).wr PG_STAT_BUSY 0 5
      let s : State := if d then { s with ccx := { s.ccx with spad := s.ccx.spad.filter (fun e => e.1 / 2 ^ 19 != b) } } else s
      let s := if d || fault then s else s.wr SPB_MARCH_SEGMENTS 1024
      let s := if fault then ((s.setBank b 5).regionsOff b).raise 5 1 else s.setBank b 1
      s.raiseIf st 5 3
  | none => s

def execMarchDone (bank : Nat) (fault : Bool) (s : State) : Res := .next (s.marchEnd bank fault)

/-- RETENTION_ENTRY: a bank of 8 to 15 that RET_EN names, ACTIVE, IDLE_US after its last access. -/
def State.retEntry (s : State) (b : Nat) : State :=
  if inRange 8 15 b && (s.rd SPB_RET_CFG_RET_EN / 2 ^ b) % 2 == 1 && s.bankSt b == 1 then
    (s.upTo (NMap.getD s.ccx.spUsed b 0 + us (s.rd SPB_RET_CFG_IDLE_US))).setBank b 2
  else s

def execRetentionEntry (bank : Nat) (s : State) : Res := .next (s.retEntry bank)

/-- RETENTION_WAKE: the waiting accesses proceed. One that is not held here, of another master, is counted as the wake ends. -/
def State.retWake (s : State) (b : Nat) : State :=
  if b < 16 && (s.bankSt b == 2 || s.bankSt b == 3) then
    let s := if s.bankSt b = 2 then s.satInc SPB_ECC_WAKES 1 else s
    (s.setBank b 1).spGo b
  else s

def execRetentionWake (bank : Nat) (s : State) : Res := .next (s.retWake bank)

/-! ### Access for the BMC (R439) -/

/-- A page the BMC may write. -/
def State.bmcMayWrite (s : State) (addr : Nat) : Bool :=
  let p := pageOf addr
  p ≤ 18 && (s.rd MGI_BMC_WR_PAGES / 2 ^ p) % 2 == 1

/-! ### SPI target (R440, R441) -/

/-- Sets an error flag of MGI.SPI_ERR; FRAG, EXTRA and BADOP raise SPI_ERR when set from 0. -/
def State.spiErr (s : State) (f : Fld) (ev : Bool) : State := (s.wr f 1).raiseIf (ev && s.rd f == 0) 0xF 0

/-- Edges beyond the frame. -/
def State.spiExtra (s : State) (extra : Bool) : State :=
  if extra then (s.satInc MGI_SPI_ERR_EXTRA_COUNT 1).spiErr MGI_SPI_ERR_EXTRA true else s

/-- A command word is a defined one: the operation, bits [27:26] 0, an aligned offset. -/
def spiOk (op : Nat) (cmd : BitVec 32) : Bool := cmd.toNat / 2 ^ 28 == op && cmd.toNat / 2 ^ 26 % 4 == 0 && cmd.toNat % 8 == 0

/-- SPI_WRITE. -/
def State.spiWrite (s : State) (cmd : BitVec 32) (value : Word64) (extra : Bool) : State :=
  if !spiOk 2 cmd then s.spiErr MGI_SPI_ERR_BADOP true
  else
    let addr := cmd.toNat % 2 ^ 26
    let s := if s.bmcMayWrite addr then s.busWrite addr 8 value true else s.spiErr MGI_SPI_ERR_DENIED false
    (s.spiExtra extra).settle

def execSpiWrite (cmd : BitVec 32) (value : Word64) (extraEdges : Bool) (s : State) : Res := .next (s.spiWrite cmd value extraEdges)

/-- SPI_READ: a value that is not ready in time, or a page that is not reachable, answers NOT_VALID with data 0 and clears nothing. -/
def State.spiRead (s : State) (cmd : BitVec 32) (onTime extra : Bool) : State :=
  if !spiOk 1 cmd then s.spiErr MGI_SPI_ERR_BADOP true
  else
    let addr := cmd.toNat % 2 ^ 26
    let s : State :=
      if !mapped (pageOf addr) then (s.spiErr MGI_SPI_ERR_DENIED false).emit (.spi 0x5A 0)
      else if !onTime then (s.spiErr MGI_SPI_ERR_LATE false).emit (.spi 0x5A 0)
      else
        let (w, s) := s.busRead addr 8 true
        s.emit (.spi 0xA5 w)
    s.spiExtra extra

def execSpiRead (cmd : BitVec 32) (onTime extraEdges : Bool) (s : State) : Res := .next (s.spiRead cmd onTime extraEdges)

/-- SPI_SELECT_RELEASE: the frame is aborted. -/
def execSpiSelectRelease (s : State) : Res := .next ((s.satInc MGI_SPI_ERR_FRAG_COUNT 1).spiErr MGI_SPI_ERR_FRAG true)

/-! ### SMBus target (R442) -/

/-- A failed transaction: counted, its flag set, SMB_ERR raised when the flag is set from 0. -/
def State.smbErr (s : State) (f : Fld) : State := ((s.satInc MGI_SMB_ERR_COUNT 1).wr f 1).raiseIf (s.rd f == 0) 0xF 1

/-- A write without a valid PEC is discarded where PEC_REQ is 1. -/
def State.pecBad (s : State) (pecOk : Bool) : Bool := s.rd MGI_SMB_CFG_PEC_REQ == 1 && !pecOk

/-- SET_OFFSET: four bytes, 8-byte aligned. -/
def State.smbOffset (s : State) (bs : List Byte) (pecOk : Bool) : State :=
  if s.pecBad pecOk then s.smbErr MGI_SMB_ERR_PEC
  else if bs.length != 4 || leNat bs % 8 != 0 then s.smbErr MGI_SMB_ERR_BADCMD
  else { s with ccx := { s.ccx with smbOff := leNat bs } }

def execSetOffset (bytes : List Byte) (pecOk : Bool) (s : State) : Res := .next (s.smbOffset bytes pecOk)

/-- READ: nine bytes, the register and the status. -/
def State.smbRead (s : State) (n : Nat) : State :=
  if n != 9 then s.smbErr MGI_SMB_ERR_BADCMD
  else if !mapped (pageOf s.ccx.smbOff) then
    (s.smbErr MGI_SMB_ERR_DENIED).emit (.smbus (List.replicate 8 (0 : Byte) ++ [(0x5A : Byte)]))
  else
    let (w, s) := s.busRead s.ccx.smbOff 8 true
    s.emit (.smbus (toLe 8 w.toNat ++ [(0xA5 : Byte)]))

def execRead (bytes : Nat) (s : State) : Res := .next (s.smbRead bytes)

/-- WRITE: twelve bytes, the offset and the value. -/
def State.smbWrite (s : State) (bs : List Byte) (pecOk : Bool) : State :=
  let addr := leNat (bs.take 4)
  if s.pecBad pecOk then s.smbErr MGI_SMB_ERR_PEC
  else if bs.length != 12 || addr % 8 != 0 then s.smbErr MGI_SMB_ERR_BADCMD
  else if !s.bmcMayWrite addr then s.smbErr MGI_SMB_ERR_DENIED
  else (s.busWrite addr 8 (BitVec.ofNat 64 (leNat (bs.drop 4))) true).settle

def execWrite (bytes : List Byte) (pecOk : Bool) (s : State) : Res := .next (s.smbWrite bytes pecOk)

/-- SMBUS_TIMEOUT: the target releases the bus. -/
def execSmbusTimeout (s : State) : Res := .next (s.smbErr MGI_SMB_ERR_TIMEOUT)

/-! ### Board buses, JTAG (R444, R445) -/

/-- I3C_IBI: an in-band interrupt is accepted; its device answers. What the device's identity is, the board decides. -/
def State.i3cIbi (s : State) (d : Nat) : State :=
  if 64 ≤ d then s
  else
    let e := NMap.getD s.ccx.i3c d []
    let (w0, w1, s) : Word64 × Word64 × State :=
      if e.isEmpty then
        let (a, s) := s.takeFree
        let (b, s) := s.takeFree
        (Config.freeWord a, Config.freeWord b &&& 0x7F, s)
      else (wordAt e 0, wordAt e 1, s)
    { s with ccx := { s.ccx with i3c := NMap.put [] s.ccx.i3c d [w0, w1 ||| 0x200] } }

def execI3cIbi (device : Nat) (s : State) : Res := .next (s.i3cIbi device)

/-- Instructions that act whatever the TEST_MODE strap. -/
def jtagFree : JtagInstr → Bool
  | .bypass | .idcode | .samplePreload => true
  | _ => false

/-- JTAG_INSTRUCTION: any other one acts as BYPASS while TEST_MODE is low, and is reported. -/
def State.jtag (s : State) (i : JtagInstr) : State :=
  if jtagFree i || Config.testMode then s.emit (.jtag (match i with | .idcode => idcode | _ => 0))
  else ((s.wr MGI_JTAG_STAT_REFUSED 1).raise 0xF 4).emit (.jtag 0)

def execJtagInstruction (i : JtagInstr) (s : State) : Res := .next (s.jtag i)

/-! ### The steward link (R446, R447) -/

/-- PCIE_LINK_UP: from the start of the main firmware on (R408); messages that wait leave. -/
def State.pcieOn (s : State) (gen width : Nat) : State :=
  if s.pwr.off || decide (s.rd GLB_START_STAT_PHASE < 5) || !inRange 1 5 gen || !([1, 2, 4, 8].contains width) then s
  else
    let s := ({ s with pcieUp := true }.wr MGI_PCIE_STAT_UP 1)
    let s := (s.wr MGI_PCIE_STAT_GEN gen).wr MGI_PCIE_STAT_WIDTH width
    (s.raiseIf (decide (gen < 5) || decide (width < 8)) 0xF 6).msixFlush

def execPcieLinkUp (gen width : Nat) (s : State) : Res := .next (s.pcieOn gen width)

/-- PCIE_DOWN. -/
def execPcieDown (s : State) : Res := .next (if s.pcieUp then s.pcieLost.raise 0xF 5 else s)

end Sys2Proof.Machine
end

