-- ==== Sys2Proof/Machine/Observe.lean ====
section
/-! DEFINITION. What the event recorder and request sampling do as time passes: records close and are exported, freezes expire,
samples are exported; and the read of an ember slot (R449 to R460, R467). -/

namespace Sys2Proof.Machine

/-- EVENT_RECORD (R449, R453): the first event on its way reaches the recorder. -/
def execEventRecord (s : State) : Res := .next s.takeEvent

/-- Records that are open for merging (R453). -/
def State.openRecs (s : State) : List EvRec :=
  (s.rec_.ring.map Prod.snd ++ s.rec_.hold).filter (fun r => s.rec_.open_.contains r.seqNo)

/-- RECORD_CLOSE (R453): REPEAT_US has passed since the TIME of the oldest open record. -/
def State.recordClose (s : State) : State :=
  match s.openRecs with
  | [] => s
  | r :: rs =>
    let t := rs.foldl (fun m x => min m x.time) r.time
    let s := s.upTo (s.mono + (t + us (s.rd EVR_CFG_REPEAT_US) - s.tb))
    let late := (s.openRecs.filter (fun x => decide (x.time ≤ t))).map (fun x => x.seqNo)
    { s with rec_ := { s.rec_ with open_ := s.rec_.open_.filter (fun n => !late.contains n) } }

def execRecordClose (s : State) : Res := .next s.recordClose

/-- FREEZE_EXPIRED (R455): FREEZE_MS has passed since the freeze. -/
def State.freezeExpired (s : State) : State :=
  match s.rec_.frozenAt with
  | none => s
  | some t => ((s.upTo (t + ms (s.rd EVR_CFG_FREEZE_MS))).freezeOff).raise 3 0

def execFreezeExpired (s : State) : Res := .next s.freezeExpired

/-! ### Export (R457, R467) -/

/-- The event export ring has a free entry. -/
def State.expRoom (s : State) : Bool :=
  (s.rd EVR_EXP_PTR_TAIL + 1) % 2 ^ s.rd EVR_EXP_CTRL_SIZE != s.rd EVR_EXP_PTR_HEAD

/-- Copies a record to TAIL of the event export ring. -/
def State.expPut (s : State) (r : EvRec) : State :=
  let tail := s.rd EVR_EXP_PTR_TAIL
  let s := s.emit (.dma (BitVec.ofNat 64 (s.rd EVR_EXP_BASE_ADDR * 4096 + 32 * tail)) r.words)
  s.wr EVR_EXP_PTR_TAIL ((tail + 1) % 2 ^ s.rd EVR_EXP_CTRL_SIZE)

/-- Copies closed records in SEQ order, from the first not yet considered, until one is open or the ring is full; tells whether
one was copied. -/
def expRun : List EvRec → State → Bool → State × Bool
  | [], s, any => (s, any)
  | r :: rs, s, any =>
    if r.seqNo < s.rec_.expAt then expRun rs s any
    else if s.rec_.open_.contains r.seqNo then (s, any)
    else if r.sev < s.rd EVR_EXP_CTRL_MIN_SEV then
      expRun rs { s with rec_ := { s.rec_ with expAt := r.seqNo + 1 } } any
    else if s.expRoom then
      expRun rs { (s.expPut r) with rec_ := { s.rec_ with expAt := r.seqNo + 1 } } true
    else (s, any)

/-- When the message of a batch may be sent: 10 µs after the last. -/
def msgDue (last : Option Nat) : Nat := match last with | some t => t + us 10 | none => 0

/-- EVENT_EXPORT: a batch of records and its message. -/
def State.eventExport (s : State) : State :=
  if s.rd EVR_EXP_CTRL_EN = 0 || !s.pcieUp then s
  else
    let (s, any) := expRun (sortRecs (s.rec_.ring.map Prod.snd)) s false
    if !any then s
    else
      let s := s.upTo (msgDue s.rec_.msgAt)
      { s with rec_ := { s.rec_ with msgAt := some s.mono } }.msix (s.rd EVR_EXP_CTRL_VECTOR)

def execEventExport (s : State) : Res := .next s.eventExport

/-- The sample export ring has a free entry. -/
def State.smpExpRoom (s : State) : Bool :=
  (s.rd SMP_EXP_PTR_TAIL + 1) % 2 ^ s.rd SMP_EXP_CTRL_SIZE != s.rd SMP_EXP_PTR_HEAD

/-- Copies samples, oldest first, until the ring is full; tells whether one was copied. -/
def smpExpRun : List (List Word64) → State → Bool → State × Bool
  | [], s, any => (s, any)
  | r :: rs, s, any =>
    if s.smpExpRoom then
      let tail := s.rd SMP_EXP_PTR_TAIL
      let s := (s.askIn .samples (s.rd HTH_PART_SMP_BASE_MIB) s.hearth.layout.smp 1).emit (.dma (BitVec.ofNat 64 (s.rd SMP_EXP_BASE_ADDR * 4096 + 64 * tail)) r)
      let s := s.wr SMP_EXP_PTR_TAIL ((tail + 1) % 2 ^ s.rd SMP_EXP_CTRL_SIZE)
      smpExpRun rs { s with smp := { s.smp with buf := rs } } true
    else (s, any)

/-- The export ring is full, for how long, and EXPORT_STALL once it has stayed so for 1 ms (R469). -/
def State.smpStallCheck (s : State) : State :=
  if s.smpExpRoom then { s with smp := { s.smp with stallSince := none, stallSaid := false } }
  else match s.smp.stallSince with
    | none => { s with smp := { s.smp with stallSince := some s.mono } }
    | some t =>
      if s.smp.stallSaid || decide (s.mono < t + ms 1) then s
      else { (s.raise 0xE 1) with smp := { s.smp with stallSaid := true } }

/-- SAMPLE_EXPORT: a batch of samples and its message; none while a flush runs (R467). Its reads of the Hearth run in damper class 3: SHUT
stops them, as EN 0 does (R72, R84). -/
def State.sampleExport (s : State) : State :=
  if s.rd SMP_EXP_CTRL_EN = 0 || !s.pcieUp || s.dur.flush.isSome || s.hearth.level == 2 || s.rd PG_CTRL_EN 8 = 0 then s
  else
    let s := if s.smpExpRoom then s.smpStallCheck else s
    let (s, any) := smpExpRun s.smp.buf s false
    let s := s.smpStallCheck
    if !any then s
    else
      let s := s.upTo (msgDue s.smp.msgAt)
      { s with smp := { s.smp with msgAt := some s.mono } }.msix (s.rd SMP_EXP_CTRL_VECTOR)

def execSampleExport (s : State) : Res := .next s.sampleExport

/-! ### Reading an ember slot (R460) -/

/-- EVR_EMBER_READ: the first LENGTH bytes of the slot go to the data buffer. -/
def State.evrEmberRead (s : State) (q : Nat) : State :=
  s.blockCmd q 0x03 0x40 false
    (fun c => c.w1 == 0 && c.count == 0 && c.table == 0 && c.w6 == 0 && bits c.w5 63 4 == 0 && inRange 4096 262144 c.length)
    (fun s _ c =>
      let x : EmberSlot := (NMap.find s.boot.embers (bits c.w5 3 0)).getD {}
      if s.pcieUp then
        (s.emit (.dmaBytes c.w2 (x.bytes c.length))).finishCmd q stOk c.length
      else s.finishCmd q stDmaError 0)

def execEvrEmberRead (q : Nat) (s : State) : Res := .next (s.evrEmberRead q)

end Sys2Proof.Machine
end

