-- ==== Sys2Proof/Machine/Tables.lean ====
section
/-! DEFINITION. The general Rister commands (R60 to R62, R497): NOP, the table commands over every table of the pages, the register
batch; and the fetch of commands and its failure (R56, R58). -/

namespace Sys2Proof.Machine

/-! ### The tables -/

/-- What TABLE_INFO tells of a table, and how it is written: the words of an entry, the entries, WRITABLE, the protection table it is,
reserved to firmware, a configuration table. -/
structure TableDesc where
  words : Nat
  entries : Nat
  writable : Bool := false
  prot : Option Nat := none
  fw : Bool := false
  config : Bool := false
  deriving DecidableEq, Repr

/-- Table `t` of a page (R88, R107, R130, R146, R177, R185, R188, R198, R216, R229, R297, R392, R444, R456, R461, R464, R486). -/
def State.tableAt (s : State) (page t : Nat) : Option TableDesc :=
  let protTable (k : Nat) : TableDesc := { words := protWords k, entries := protCount k, writable := true, prot := some k }
  match blockOf page, t with
  | some (0x02, _), 0 => some { words := 1, entries := 32, writable := true, config := true }
  | some (0x03, _), 0 => some { words := 4, entries := 4096 }
  | some (0x06, _), 0 => some { words := 2, entries := 260, fw := true }
  | some (0x07, _), 0 => some (protTable 0)
  | some (0x07, _), 1 => some (protTable 1)
  | some (0x07, _), 2 => some (protTable 2)
  | some (0x08, _), 0 => some { words := 6, entries := 97 }
  | some (0x09, _), 0 => some (protTable 3)
  | some (0x0A, _), 0 => some { words := 2, entries := s.tier.poolRegions * 2 ^ 18 }
  | some (0x0A, _), 1 => some (protTable 4)
  | some (0x0D, 0), 0 => some { words := 1, entries := 1024, writable := true, config := true }
  | some (0x0D, 0), 1 => some { words := 2, entries := 1024 }
  | some (0x0F, _), 0 => some { words := 2, entries := 64 }
  | some (0x10, _), 0 => some { words := 8, entries := 32768, writable := true }
  | some (0x10, _), 1 => some { words := 8, entries := 65536, writable := true }
  | some (0x11, _), 0 => some { words := 64, entries := 131072, writable := true }
  | some (0x80, _), 0 => some { words := 8, entries := 16 }
  | some (0x81, _), 0 => some { words := 4, entries := 8, writable := true, config := true }
  | _, _ => none

/-! ### Entries as words -/

/-- STATE of a page-table entry (R216). -/
def PageSt.code : PageSt → Nat
  | .zero => 0 | .resident => 1 | .media => 2 | .fetching => 3 | .demoting => 4 | .moving => 5

/-- A page-table entry (R216). -/
def Pte.words (e : Pte) : List Word64 :=
  [pack [(0, e.st.code), (3, e.heat), (7, b2n e.pin), (8, e.tenant), (16, b2n e.dirty), (17, b2n e.hasMedia), (18, e.ch), (24, e.idx)], pack [(0, e.media), (48, e.age)]]

/-- Entry of PORT_OCC: a port, or the link as entry 96 (R88). -/
def State.portOcc (s : State) (p : Nat) : List Word64 :=
  let peak := NMap.getD s.hearth.peak p 0
  if p = 96 then [pack [(0, s.hearth.linkCharge)], pack [(32, peak)], 0, 0, 0, 0]
  else
    let rsv := ((List.range 8).map (fun q => if NMap.getD s.hearth.granted (pq p q) 0 = 0 then 0 else 2 ^ q)).sum
    let head := ((List.range 8).map (fun q => s.headUsed p q)).sum
    [pack [(0, s.portCharge p), (32, s.rd HPT_FC_STAT_TX_XOFF p), (40, rsv)], pack [(0, head), (32, peak)]]
      ++ (List.range 4).map (fun k => pack [(0, s.prioCharge p (2 * k)), (32, s.prioCharge p (2 * k + 1))])

/-- Entry of DIE_STATS (R297): a die whose position is empty reads 0. -/
def State.dieWords (s : State) (c d : Nat) : List Word64 :=
  if s.dieSt c d = 0 then List.replicate 8 0
  else
    let x := s.stat c d
    let erases := ((s.media.sbs.filter (fun e => e.1 / 32768 == d)).map (fun e => e.2.erases)).sum
    [pack [(0, mean x.read), (32, mean x.slc)], pack [(0, mean x.native), (32, mean x.erase / 1000)], pack [(0, x.bad), (32, erases / max 1 (s.rd MED_GEOM_BLOCKS))], pack [(0, x.retries)], pack [(0, x.uncorr)], pack [(0, x.corrMax)], pack [(0, x.progFails), (32, x.eraseFails)], pack [(0, x.suspends)]]

/-- QPN of an entry of QP_CTX (R146). -/
def ctxQpn (i : Nat) : Nat := i + 0x10000

/-- An entry of QP_CTX (R146): words 16 to 63 read 0. HOSTED reads 1 only of a QP of the twin's range. -/
def State.ctxWords (s : State) (i : Nat) : List Word64 :=
  let own := qpnRange (ctxQpn i) == some s.twinB
  (List.range 64).map (fun w =>
    let v := NMap.getD (s.qp (ctxQpn i)).words w 0
    if w = 0 && own then setBits v 7 7 0 else if w < 16 then v else 0)

/-- An entry of a table. -/
def State.tableEntry (s : State) (page t i : Nat) : List Word64 :=
  match blockOf page with
  | some (0x02, _) => [NMap.getD s.thm.caseMap i 0]
  | some (0x03, _) => match NMap.find s.rec_.ring i with | some r => r.words | none => [0, 0, 0, 0]
  | some (0x06, _) => s.slotWords i
  | some (0x07, _) => s.protEntry t i
  | some (0x08, _) => s.portOcc i
  | some (0x09, _) => s.protEntry 3 i
  | some (0x0A, _) => if t = 0 then (s.pte i).words else s.protEntry 4 i
  | some (0x0D, _) => if t = 0 then [NMap.getD s.pmu.select i 0] else [s.pmuLive i, s.pmuSnap i]
  | some (0x0F, _) => let e := NMap.getD s.ccx.i3c i []; [wordAt e 0, wordAt e 1]
  | some (0x10, _) => if t = 0 then s.chain i else NMap.getD s.chains.ops i (List.replicate 8 0)
  | some (0x11, _) => s.ctxWords i
  | some (0x80, c) => s.dieWords c i
  | some (0x81, p) => (s.addr p i).words (decide (4 ≤ i))
  | _ => []

/-- What reading an entry leaves: PEAK is the current TOTAL (R88), CORR_MAX is 0 (R297). -/
def State.afterTableRead (s : State) (page i : Nat) : State :=
  match blockOf page with
  | some (0x08, _) =>
    let now := if i = 96 then s.hearth.linkCharge else s.portCharge i
    { s with hearth := { s.hearth with peak := NMap.put 0 s.hearth.peak i now } }
  | some (0x80, c) => if s.dieSt c i = 0 then s else s.modStat c i (fun x => { x with corrMax := 0 })
  | _ => s

/-! ### Writing entries -/

/-- CASE_MAP (R486). -/
def State.caseWrite (s : State) (c : Nat) (ws : List Word64) : Option State :=
  let w := wordAt ws 0
  let src := bits w 1 0
  let idx := bits w 13 8
  if !unnamedZero [0x3 + 0x3F00 + 0xFF0000] ws || src == 3 then none
  else if src = 2 && (decide (3 < idx) || s.rd THM_DIODE_MODE 0 (8 * idx) != 3) then none
  else some { s with thm := { s.thm with caseMap := NMap.put 0 s.thm.caseMap c w } }

/-- The register is one of the block counters that a MIRROR counter may name (R461). -/
def isCounterReg (page off : Nat) : Bool :=
  let lies (base n : Nat) : Bool := decide (base ≤ off) && decide (off < base + 8 * n)
  match blockOf page with
  | some (0x06, _) => lies 0x400 8 || lies 0xC00 14
  | some (0x0A, _) => lies 0x400 12 || lies 0x480 12
  | some (0x0B, _) => lies 0x600 15 || lies 0x680 10
  | some (0x0C, _) => lies 0x400 16
  | some (0x11, _) => lies 0x400 22
  | some (0x40, _) => lies 0x400 20
  | some (0x80, _) => lies 0x400 8
  | some (0x81, _) => lies 0x400 34
  | _ => false

/-- The sources of EVENT counters: their events, their instances and whether they tell tenants apart (R461). -/
def eventSource (src ev inst tenant : Nat) : Bool :=
  let anyOr (n : Nat) : Bool := inst == 0xFF || decide (inst < n)
  match src with
  | 0x08 => (decide (ev ≤ 3) || inRange 0x10 0x13 ev) && anyOr 8 && tenant == 0
  | 0x09 => decide (ev ≤ 3) && anyOr 1
  | 0x07 => decide (ev ≤ 1) && anyOr 1
  | 0x11 => (decide (ev ≤ 4) || inRange 8 9 ev) && anyOr 96
  | 0x0A => decide (ev ≤ 0xB) && anyOr 1
  | 0x0B => decide (ev ≤ 1) && anyOr 1 && tenant == 0
  | 0xF0 => (decide (ev ≤ 2) || inRange 8 0xA ev || ev == 0xF) && anyOr 128 && tenant == 0
  | _ => false

/-- SELECT (R461): a write zeroes the counter's live and snapshot values. -/
def State.selectWrite (s : State) (n : Nat) (ws : List Word64) : Option State :=
  let w := wordAt ws 0
  let ok := match bits w 1 0 with
    | 0 => true
    | 1 => eventSource (bits w 15 8) (bits w 23 16) (bits w 31 24) (bits w 39 32)
    | 2 => isCounterReg (bits w 49 40) (8 * bits w 63 50)
    | _ => false
  if bits w 7 2 != 0 || !ok then none
  else some { s with pmu := { s.pmu with select := NMap.put 0 s.pmu.select n w, live := NMap.put 0 s.pmu.live n 0, snap := NMap.put 0 s.pmu.snap n 0 } }

/-- Bits of a chain's entry that are named, and those of them that the steward writes (R199). -/
def chainNamed : List Nat :=
  [0x1F_FFF7 + 0x7FFF * 2 ^ 32, 0xFFFFFF, 2 ^ 64 - 1, 0xFFFFFFFF + 0xF * 2 ^ 32 + 0xF * 2 ^ 40 + 0xFF * 2 ^ 48, 2 ^ 64 - 1, 2 ^ 64 - 1, 2 ^ 64 - 1, 0x1FFFF]
def chainRw : List Nat := [0x1F_FF77 + 0x7FFF * 2 ^ 32, 0xFFFFFF, 2 ^ 64 - 1, 0, 0, 0, 0, 0]

/-- An entry written under a mask of bits the steward writes. -/
def mixWords (mask : List Nat) (old new : List Word64) : List Word64 :=
  (List.range mask.length).map (fun w => mix (BitVec.ofNat 64 (nth 0 mask w)) (wordAt old w) (wordAt new w))

/-- A chain may be written ARMED (R201): its operations lie in its half, its QP has its home here, is in RTR or RTS, takes
arming messages and belongs to its tenant. -/
def State.armable (s : State) (e : List Word64) : Bool :=
  let n := bits (wordAt e 0) 20 16
  let qpn := bits (wordAt e 1) 23 0
  inRange 1 16 n && decide (bits (wordAt e 0) 46 32 + n ≤ 32768) && s.homeOf qpn && inRange 2 3 (s.qState qpn)
    && s.qf qpn 10 1 0 == 1 && s.qTenant qpn == bits (wordAt e 0) 15 8

/-- Writes a chain's entry and stages it. -/
def State.storeChain (s : State) (i : Nat) (e : List Word64) : State :=
  ({ s with chains := { s.chains with chains := NMap.put (List.replicate 8 0) s.chains.chains i e } }).stageChain i

/-- CHAINS (R199, R201): none where the write is refused. -/
def State.chainWrite (s : State) (i : Nat) (ws : List Word64) : Option State :=
  let old := s.chain i
  let e := mixWords chainRw old ws
  let st := bits (wordAt e 0) 2 0
  let was := bits (wordAt old 0) 2 0
  if !unnamedZero chainNamed ws then none
  else if was = 2 then
    if st != 0 || setNth e 0 (setBits (wordAt e 0) 2 0 2) != old then none
    else if (s.run i).busy then some (s.setRun i { s.run i with disarm := true })
    else some (s.chainFail i 4)
  else if st = 1 then
    if s.armable e then some (s.storeChain i (setNth e 3 (setBits (wordAt e 3) 31 0 0))) else none
  else if st = 0 || st = was then some (s.storeChain i e)
  else none

/-- Bits of an operation slot that are named (R200). -/
def opNamed : List Nat :=
  [0x1F0F, 2 ^ 64 - 1, 2 ^ 64 - 1, 2 ^ 64 - 1, 0xFFFFFFFF + 0xFFFFFF * 2 ^ 32, 2 ^ 64 - 1, 2 ^ 64 - 1, 2 ^ 64 - 1]

/-- The slot lies within the slots of an ARMED or RUNNING chain of its half (R201). -/
def State.slotInUse (s : State) (i : Nat) : Bool :=
  s.chains.chains.any (fun c =>
    let e := wordAt c.2 0
    let at_ := (if c.1 < 16384 then 0 else 32768) + bits e 46 32
    inRange 1 2 (bits e 2 0) && decide (at_ ≤ i) && decide (i < at_ + bits e 20 16))

/-- OPS (R200, R201): none where the write is refused; bits that are not named are not held. -/
def State.opWrite (s : State) (i : Nat) (ws : List Word64) : Option State :=
  let e := mixWords opNamed (List.replicate 8 0) ws
  let op := bits (wordAt e 0) 3 0
  let len := bits (wordAt e 4) 31 0
  let lenBad := !bit (wordAt e 0) 11 && ((op == 1 && !inRange 1 (2 ^ 24) len) || (op == 4 && decide (4096 < len)))
  if !inRange 1 4 op || lenBad || s.slotInUse i then none
  else some (({ s with chains := { s.chains with ops := NMap.put (List.replicate 8 0) s.chains.ops i e } }).stage (.chain true i e))

/-- Bits of a QP context that the steward's write is held against: RW fields, but for EPSN and SPSN, writable only in INIT (R146). -/
def ctxRw : List Nat :=
  [0x7 + 0x70 + 0xFF00 + 0x7F0000 + 0xFFFF000000 + 0x3F * 2 ^ 40 + 0x7F * 2 ^ 56, 0xFFFFFF, 0, 0x3FFFFFFFFFFFF, 2 ^ 64 - 1, 2 ^ 64 - 1, 0xFFFFFFFFFFF, 0x7FF, 0, 0, 0x3 + 0x1F0 + 0x1F0000 + 0xFFFFF * 2 ^ 32, 2 ^ 64 - 1, 0, 0, 0, 0]

/-- QP_CTX (R147): STATE from RTR or RTS to ERROR and nothing else changes, which sends a DREQ (R145); every other write is
refused. -/
def State.ctxWrite (s : State) (i : Nat) (ws : List Word64) : Option State :=
  let n := ctxQpn i
  let old := s.ctxWords i
  let want := mixWords ctxRw old (setNth ws 0 (setBits (wordAt ws 0) 2 0 (s.qState n)))
  if s.homeOf n && inRange 2 3 (s.qState n) && bits (wordAt ws 0) 2 0 == 4 && want == old.take 16 then some ((s.qpError n 6).sendDreq n)
  else none

/-- An address with its VLAN is served on some port by another entry than the given one (R130). -/
def State.servedElsewhere (s : State) (k : Nat) (a : AddrEntry) : Bool :=
  s.addrs.any (fun e => e.1 != k && ((decide (e.1 % 8 < 4) && e.2.state == 1) || (decide (4 ≤ e.1 % 8) && e.2.state == 3))
    && e.2.addr == a.addr && e.2.vlanEn == a.vlanEn && (!a.vlanEn || e.2.vlan == a.vlan))

/-- ADDR (R130, R132): entries 0 to 3 of a port. -/
def State.addrWrite (s : State) (p e : Nat) (ws : List Word64) : Option State :=
  let a : AddrEntry := { addrOfWords ws with onPort := 0xFF }
  let old := s.addr p e
  let v4Bad := !a.addr.v6 && (bits a.addr.hi 63 32 != 0 || a.addr.lo != 0)
  if !unnamedZero [0xFFF8007, 2 ^ 64 - 1, 2 ^ 64 - 1, 0] ws || decide (1 < a.state) || v4Bad then none
  else if a.state = 1 && s.servedElsewhere (8 * p + e) a then none
  else if a = old then some s
  else
    let s := (s.setAddr p e a).stage (.addr p e (a.words false))
    some (if a.state = 1 && s.portUp p then s.announceAddr p a else s)

/-- Writes one entry of a table that is no protection table; none where its validation refuses it. -/
def State.entryWrite (s : State) (page t i : Nat) (ws : List Word64) : Option State :=
  match blockOf page with
  | some (0x02, _) => s.caseWrite i ws
  | some (0x0D, _) => s.selectWrite i ws
  | some (0x10, _) => if t = 0 then s.chainWrite i ws else s.opWrite i ws
  | some (0x11, _) => s.ctxWrite i ws
  | some (0x81, p) => s.addrWrite p i ws
  | _ => none

/-- The status of an entry that is refused (R147, R497). -/
def refusedStatus (page : Nat) : Nat := if page = 0x11 then stFirmwareOnly else stBadValue

/-- Writes entries in ascending order until one is refused (R62): the state, the entries written, the status, and whether a
configuration entry changed. -/
def writeEntries (page t : Nat) (config : Bool) : List (Nat × List Word64) → State → Nat → Bool → State × Nat × Nat × Bool
  | [], s, n, ch => (s, n, stOk, ch)
  | e :: es, s, n, ch =>
    match s.entryWrite page t e.1 e.2 with
    | none => (s, n, refusedStatus page, ch)
    | some s' => writeEntries page t config es s' (n + 1) (ch || (config && s'.tableEntry page t e.1 != s.tableEntry page t e.1))

/-- Entries that no TABLE_WRITE may name: entry 0 of KEYS, TENANTS and TENANT_TIER, the other twin's half of CHAINS and OPS, the
twin's addresses (R130, R177, R185, R198, R229). -/
def State.badEntries (s : State) (page t first count : Nat) : Bool :=
  match blockOf page with
  | some (0x07, _) => protZeroBad t && first == 0
  | some (0x0A, _) => t == 1 && first == 0
  | some (0x10, _) =>
    let half := if t = 0 then 16384 else 32768
    if s.twinB then decide (first < half) else decide (half < first + count)
  | some (0x81, _) => decide (4 < first + count)
  | _ => false

/-! ### The commands -/

/-- Words 5 to 7 of a general command are 0 (R59). -/
def RqOperandsZero (c : RqCmd) : Bool := c.w5 == 0 && c.w6 == 0 && c.w7 == 0

/-- NOP (R60). -/
def State.nop (s : State) (q : Nat) : State :=
  s.generalCmd q 1 (fun s c => s.finishCmd q (if RqOperandsZero c then stOk else stBadLength) 0)

def execNop (q : Nat) (s : State) : Res := .next (s.nop q).settle

/-- A table command: its table is there, its length agrees, its entries lie in the table (R497 checks 6 to 8). -/
def State.tableCmd (s : State) (q op : Nat) (f : State → RqCmd → TableDesc → State) : State :=
  s.generalCmd q op (fun s c =>
    match s.tableAt c.page c.table with
    | none => s.finishCmd q stBadTable 0
    | some d =>
      if op = 4 then (if RqOperandsZero c then f s c d else s.finishCmd q stBadLength 0)
      else if c.length != c.count * (8 * d.words) || !RqOperandsZero c then s.finishCmd q stBadLength 0
      else if c.count = 0 || decide (d.entries < c.index + c.count) then s.finishCmd q stBadIndex 0
      else f s c d)

/-- TABLE_INFO (R60). -/
def State.tableInfo (s : State) (q : Nat) : State :=
  s.tableCmd q 4 (fun s _ d =>
    s.finishCmd q stOk (8 * d.words + b2n d.writable * 2 ^ 16 + b2n d.prot.isSome * 2 ^ 17 + d.entries * 2 ^ 24))

def execTableInfo (q : Nat) (s : State) : Res := .next (s.tableInfo q).settle

/-- Rister access to a table held in the Hearth's table portion: keys, chains and QP contexts (R67, R83). -/
def State.askTable (s : State) (page bytes : Nat) : State :=
  if page = 7 ∨ page = 0x10 ∨ page = 0x11 then
    s.askIn .rister (s.rd HTH_PART_CTX_BASE_MIB) s.hearth.layout.ctx (divUp bytes 64)
  else s

/-- TABLE_READ (R60, R62): the entries go to the data buffer. -/
def State.tableRead (s : State) (q : Nat) : State :=
  s.tableCmd q 2 (fun s c d =>
    let s := s.askTable c.page (8 * d.words * c.count)
    let is_ := (List.range c.count).map (fun k => c.index + k)
    let (s, ok) := s.dmaWrite c.dataAddr (is_.flatMap (fun i => s.tableEntry c.page c.table i))
    if ok then (is_.foldl (fun (s : State) i => s.afterTableRead c.page i) s).finishCmd q stOk (c.count * 2 ^ 32)
    else s.finishCmd q stDmaError 0)

def execTableRead (q : Nat) (s : State) : Res := .next (s.tableRead q).settle

/-- The entries a data buffer holds, as far as it could be read. -/
def entriesOf (words index count : Nat) (data : List Word64) : List (Nat × List Word64) :=
  (List.range (min count (data.length / words))).map (fun k => (index + k, (data.drop (words * k)).take words))

/-- TABLE_WRITE (R60, R62, R497). A read of the buffer that fails keeps the entries before it (R58). One that disarms a chain whose operation
is in progress ends once that chain has stopped (R62). -/
def State.tableWrite (s : State) (q : Nat) (data : List Word64) : State :=
  s.tableCmd q 3 (fun s c d =>
    if s.badEntries c.page c.table c.index c.count then s.finishCmd q stBadIndex 0
    else if d.fw then s.finishCmd q stFirmwareOnly 0
    else if !d.writable then s.finishCmd q stReadOnly 0
    else if d.config && s.locked c.page then s.finishCmd q stLocked 0
    else
      let s := s.askTable c.page (8 * d.words * c.count)
      let es := entriesOf d.words c.index c.count data
      let short := decide (es.length < c.count)
      match d.prot with
      | some k => s.protCommand q k c.index (es.map Prod.snd) (if short then stDmaError else stOk)
      | none =>
        let (s, n, st, ch) := writeEntries c.page c.table d.config es s 0 false
        let s := if ch then s.bumpGen c.page else s
        let st := if st = stOk && short then stDmaError else st
        let late := if c.page = 0x10 && c.table = 0 then ((es.take n).map Prod.fst).filter (fun i => (s.run i).disarm) else []
        if late.isEmpty then s.finishCmd q st (n * 2 ^ 32 + s.rd PG_GEN_GEN c.page)
        else { s with chains := { s.chains with tableWaits := s.chains.tableWaits ++ [⟨q, st, n * 2 ^ 32 + s.rd PG_GEN_GEN c.page, late⟩] } })

def execTableWrite (q : Nat) (data : List Word64) (s : State) : Res := .next (s.tableWrite q data).settle

/-! ### REG_WRITE_BATCH (R61, R62) -/

/-- The pairs of a batch. -/
def pairsOf (n : Nat) (data : List Word64) : List (Nat × Word64) :=
  (List.range n).map (fun k => ((wordAt data (2 * k)).toNat, wordAt data (2 * k + 1)))

/-- A register that is firmware-only as a whole (R49, R497 check 9). -/
def fwRegister (page off : Nat) : Bool :=
  match descAt page off with
  | some d => d.fields.any (isFirmware page off) && d.fields.all (fun f => f.ty != FieldTy.rw || isFirmware page off f)
  | none => false

/-- A pair's offset names a configuration register. A first word whose bits [63:16] are not 0 names none and ends BAD_INDEX: the spec asks
for zeros there and states no status (DESIGN CHOICE, log 193). -/
def batchOffOk (page off : Nat) : Bool := decide (0x100 ≤ off) && decide (off < 0x10000) && off % 8 == 0 && configMask page off != 0

/-- The value a pair leaves in its register: configuration fields only. -/
def State.pairValue (s : State) (page : Nat) (x : Nat × Word64) : Word64 :=
  match descAt page x.1 with
  | some d => s.newValue page x.1 d (configMask page x.1) x.2
  | none => s.reg (regKey page x.1)

/-- Why a pair is refused as a write of its own: a firmware-only field would change, or the write would be refused. -/
def State.pairRefused (s : State) (page : Nat) (x : Nat × Word64) : Option Nat :=
  let fw := match descAt page x.1 with | some d => d.maskOf (isFirmware page x.1) | none => 0
  if ((s.cur page x.1 ^^^ x.2) &&& fw) != 0 then some stFirmwareOnly
  else if !s.writeOk page x.1 (s.pairValue page x) 0 then some stBadValue
  else none

/-- Applies one pair of a queue's batch. -/
def State.pairApply (s : State) (q page : Nat) (x : Nat × Word64) : State :=
  let old := s.cur page x.1
  let new := s.pairValue page x
  if pairWide page x.1 then
    if new = old && !s.cfgWaits page x.1 then s else s.pairConfig page x.1 (new &&& configMask page x.1)
  else
    let s := if new = old then s
      else
        let t := s.setReg (regKey page x.1) new
        { t with pair := { t.pair with batches := t.pair.batches.map (fun b => if b.q = q then { b with changed := true } else b) } }
    s.afterWrite page x.1 old new (x.2 &&& configMask page x.1)

/-- Applies the pairs in order; none where one breaks a condition with those before it. -/
def applyPairs (q page : Nat) : List (Nat × Word64) → State → Option State
  | [], s => some s
  | x :: xs, s => if s.writeOk page x.1 (s.pairValue page x) 0 then applyPairs q page xs (s.pairApply q page x) else none

/-- Every pair is validated; then all are applied, and the command ends once every one is in effect (R62, R350). -/
def State.batchRun (s : State) (q page : Nat) (ps : List (Nat × Word64)) : State :=
  match ps.findSome? (fun x => s.pairRefused page x) with
  | some st => s.finishCmd q st (s.rd PG_GEN_GEN page)
  | none =>
    let b : BatchWait := { q := q, page := page, offs := (ps.map Prod.fst).filter (fun o => pairWide page o), count := ps.length, changed := false }
    match applyPairs q page ps { s with pair := { s.pair with batches := s.pair.batches ++ [b] } } with
    | some s => s.batchDone
    | none => s.finishCmd q stBadValue (s.rd PG_GEN_GEN page)

/-- REG_WRITE_BATCH. -/
def State.regWriteBatch (s : State) (q : Nat) (data : List Word64) : State :=
  s.generalCmd q 5 (fun s c =>
    if c.length != 16 * c.count || !RqOperandsZero c then s.finishCmd q stBadLength 0
    else if c.count = 0 then s.finishCmd q stBadIndex 0
    else if 8 * data.length < c.length then s.finishCmd q stDmaError 0
    else
      let ps := pairsOf c.count data
      if !ps.all (fun x => batchOffOk c.page x.1) then s.finishCmd q stBadIndex 0
      else if ps.any (fun x => fwRegister c.page x.1) then s.finishCmd q stFirmwareOnly 0
      else if s.locked c.page then s.finishCmd q stLocked 0
      else s.batchRun q c.page ps)

def execRegWriteBatch (q : Nat) (data : List Word64) (s : State) : Res := .next (s.regWriteBatch q data).settle

/-! ### Fetching (R55, R56, R58) -/

/-- A command of a queue may be fetched: the queue runs, a doorbell covers one, fewer than 16 are held. -/
def State.fetchable (s : State) (q : Nat) : Bool :=
  let r := s.rq q
  s.rqState q == 1 && !r.bells.isEmpty && decide (r.fetched.length + r.posts.length < 16)

/-- COMMAND_FETCH: the command read at SQ_HEAD arrives. -/
def State.commandFetch (s : State) (q : Nat) (c : RqCmd) : State :=
  if !s.fetchable q || !s.pcieUp then s
  else
    let r := s.rq q
    match r.bells with
    | [] => s
    | b :: bs =>
      let head := s.rd GLB_RQ_SQ_HEAD_HEAD 0 (rqOff q)
      let next := (head + 1) % s.sqSize q
      let f : Fetched := { cmd := c, index := head, bell := b.2 }
      let s := s.setRq q { r with fetched := r.fetched ++ [f], bells := if next = b.1 then bs else r.bells }
      (s.wr GLB_RQ_SQ_HEAD_HEAD next 0 (rqOff q)).advance q

def execCommandFetch (q : Nat) (cmd : RqCmd) (s : State) : Res := .next (s.commandFetch q cmd).settle

/-- The command at the front of a queue runs with a data buffer that could be read only in part (R58). -/
def State.bufferFails (s : State) (q : Nat) (c : RqCmd) (data : List Word64) : State :=
  let ws := data.take (c.length / 8 - 1)
  let bs := (wordsBytes data).take (c.length - 1)
  match c.opcode, (blockOf c.page).map Prod.fst with
  | 0x03, _ => s.tableWrite q ws
  | 0x05, _ => s.regWriteBatch q ws
  | 0x40, some 0x06 => s.kekSet q ws
  | 0x41, some 0x06 => s.kekRoll q ws
  | 0x42, some 0x06 => s.cphKeyLoad q ws
  | 0x44, some 0x06 => s.cphSeal q bs
  | 0x45, some 0x06 => s.cphUnseal q bs
  | 0x41, some 0x04 => s.bflWrite q ws
  | _, _ => s

/-- DMA_COMPLETION_TIMEOUT: a fetch stops its queue; a buffer read ends its command with DMA_ERROR. -/
def State.dmaTimeout (s : State) (q : Nat) (fetch : Bool) (data : List Word64) : State :=
  if fetch then (if s.fetchable q then s.rqError q 3 (s.rd GLB_RQ_SQ_HEAD_HEAD 0 (rqOff q)) else s)
  else match s.startable q with
    | some c => s.bufferFails q c data
    | none => s

def execDmaCompletionTimeout (q : Nat) (fetch : Bool) (data : List Word64) (s : State) : Res := .next (s.dmaTimeout q fetch data).settle

end Sys2Proof.Machine
end

