-- ==== Sys2Proof/Machine/Dispatch.lean ====
section
/-! DEFINITION. What each command does: one arm per command, each a call of its meaning. -/

namespace Sys2Proof.Machine

def exec (i : Instr) (s : State) : Host.Outcome State Fault Refusal :=
  match i with
  | .registerWrite off width value => Sys2Proof.Machine.execRegisterWrite off width value s
  | .rcFieldRead off width => Sys2Proof.Machine.execRcFieldRead off width s
  | .pgQuiesce page => Sys2Proof.Machine.execPgQuiesce page s
  | .pgResume page => Sys2Proof.Machine.execPgResume page s
  | .quiesceDone page => Sys2Proof.Machine.execQuiesceDone page s
  | .pgLock page => Sys2Proof.Machine.execPgLock page s
  | .pgSoftRst page => Sys2Proof.Machine.execPgSoftRst page s
  | .softRstDone page => Sys2Proof.Machine.execSoftRstDone page s
  | .pgEnable page => Sys2Proof.Machine.execPgEnable page s
  | .pgDisable page => Sys2Proof.Machine.execPgDisable page s
  | .pgEvtClear page mask => Sys2Proof.Machine.execPgEvtClear page mask s
  | .pgEvtEnWrite page mask => Sys2Proof.Machine.execPgEvtEnWrite page mask s
  | .pgEvtSet page mask => Sys2Proof.Machine.execPgEvtSet page mask s
  | .msixUnmask vector => Sys2Proof.Machine.execMsixUnmask vector s
  | .rqEnable q value => Sys2Proof.Machine.execRqEnable q value s
  | .rqDisable q => Sys2Proof.Machine.execRqDisable q s
  | .rqDoorbell q tail => Sys2Proof.Machine.execRqDoorbell q tail s
  | .rqCqHeadWrite q head => Sys2Proof.Machine.execRqCqHeadWrite q head s
  | .commandFetch q cmd => Sys2Proof.Machine.execCommandFetch q cmd s
  | .dmaCompletionTimeout q fetch data => Sys2Proof.Machine.execDmaCompletionTimeout q fetch data s
  | .nop q => Sys2Proof.Machine.execNop q s
  | .tableRead q => Sys2Proof.Machine.execTableRead q s
  | .tableWrite q data => Sys2Proof.Machine.execTableWrite q data s
  | .tableInfo q => Sys2Proof.Machine.execTableInfo q s
  | .regWriteBatch q data => Sys2Proof.Machine.execRegWriteBatch q data s
  | .partitionApply => Sys2Proof.Machine.execPartitionApply s
  | .partApplied => Sys2Proof.Machine.execPartApplied s
  | .damperSample bank64ths => Sys2Proof.Machine.execDamperSample bank64ths s
  | .frameReceived port frame => Sys2Proof.Machine.execFrameReceived port frame s
  | .frameTxEnd port gatherBad ecnDraw => Sys2Proof.Machine.execFrameTxEnd port gatherBad ecnDraw s
  | .contextLoad qpn => Sys2Proof.Machine.execContextLoad qpn s
  | .setStall set => Sys2Proof.Machine.execSetStall set s
  | .fillLands line found twinLine => Sys2Proof.Machine.execFillLands line found twinLine s
  | .flueWritebackDone line => Sys2Proof.Machine.execFlueWritebackDone line s
  | .cacheDrain => Sys2Proof.Machine.execCacheDrain s
  | .cacheEnable => Sys2Proof.Machine.execCacheEnable s
  | .hcaFlush q => Sys2Proof.Machine.execHcaFlush q s
  | .hcaInvalidate q => Sys2Proof.Machine.execHcaInvalidate q s
  | .autonegResolved port => Sys2Proof.Machine.execAutonegResolved port s
  | .anAttemptFail port => Sys2Proof.Machine.execAnAttemptFail port s
  | .trainingDone port => Sys2Proof.Machine.execTrainingDone port s
  | .trainFail port => Sys2Proof.Machine.execTrainFail port s
  | .linkUp port => Sys2Proof.Machine.execLinkUp port s
  | .linkDown port cause => Sys2Proof.Machine.execLinkDown port cause s
  | .remoteFault port => Sys2Proof.Machine.execRemoteFault port s
  | .remoteFaultClear port => Sys2Proof.Machine.execRemoteFaultClear port s
  | .fecWindow port corrCw uncorrCw corrSym => Sys2Proof.Machine.execFecWindow port corrCw uncorrCw corrSym s
  | .pfcFrame port => Sys2Proof.Machine.execPfcFrame port s
  | .pauseExpiry port prio => Sys2Proof.Machine.execPauseExpiry port prio s
  | .xoffRefresh port prio => Sys2Proof.Machine.execXoffRefresh port prio s
  | .pauseStorm port prio => Sys2Proof.Machine.execPauseStorm port prio s
  | .stormClear port prio => Sys2Proof.Machine.execStormClear port prio s
  | .arpFrame port => Sys2Proof.Machine.execArpFrame port s
  | .neighbourFrame port => Sys2Proof.Machine.execNeighbourFrame port s
  | .announce port addr => Sys2Proof.Machine.execAnnounce port addr s
  | .ptpFrame port => Sys2Proof.Machine.execPtpFrame port s
  | .req port => Sys2Proof.Machine.execReq port s
  | .rtu port => Sys2Proof.Machine.execRtu port s
  | .dreq port => Sys2Proof.Machine.execDreq port s
  | .drep port => Sys2Proof.Machine.execDrep port s
  | .disconnectTimeout qpn => Sys2Proof.Machine.execDisconnectTimeout qpn s
  | .send port => Sys2Proof.Machine.execSend port s
  | .rdmaWrite port => Sys2Proof.Machine.execRdmaWrite port s
  | .rdmaReadRequest port => Sys2Proof.Machine.execRdmaReadRequest port s
  | .atomicCompareAndSwap port => Sys2Proof.Machine.execAtomicCompareAndSwap port s
  | .atomicFetchAndAdd port => Sys2Proof.Machine.execAtomicFetchAndAdd port s
  | .atomicWrite port => Sys2Proof.Machine.execAtomicWrite port s
  | .flush port => Sys2Proof.Machine.execFlush port s
  | .acknowledge port => Sys2Proof.Machine.execAcknowledge port s
  | .sendAckTimeout qpn => Sys2Proof.Machine.execSendAckTimeout qpn s
  | .sendRnrRetry qpn => Sys2Proof.Machine.execSendRnrRetry qpn s
  | .cnpReceived port => Sys2Proof.Machine.execCnpReceived port s
  | .alphaDecay qpn => Sys2Proof.Machine.execAlphaDecay qpn s
  | .rateIncrease qpn => Sys2Proof.Machine.execRateIncrease qpn s
  | .keyEntryLoad key => Sys2Proof.Machine.execKeyEntryLoad key s
  | .keyDrainWait q => Sys2Proof.Machine.execKeyDrainWait q s
  | .drainSlow => Sys2Proof.Machine.execDrainSlow s
  | .copy chain => Sys2Proof.Machine.execCopy chain s
  | .atomic chain => Sys2Proof.Machine.execAtomic chain s
  | .persist chain => Sys2Proof.Machine.execPersist chain s
  | .notify chain => Sys2Proof.Machine.execNotify chain s
  | .fetchDone page good twinPage => Sys2Proof.Machine.execFetchDone page good twinPage s
  | .destageAge page => Sys2Proof.Machine.execDestageAge page s
  | .destageDone page => Sys2Proof.Machine.execDestageDone page s
  | .poolResize regions => Sys2Proof.Machine.execPoolResize regions s
  | .poolResized => Sys2Proof.Machine.execPoolResized s
  | .dirtyBudgetWrite mib => Sys2Proof.Machine.execDirtyBudgetWrite mib s
  | .tirDiscard q => Sys2Proof.Machine.execTirDiscard q s
  | .tirPromote q => Sys2Proof.Machine.execTirPromote q s
  | .tirDemote q => Sys2Proof.Machine.execTirDemote q s
  | .tirPin q => Sys2Proof.Machine.execTirPin q s
  | .trainDone channel pop serial0 dimm1 trained => Sys2Proof.Machine.execTrainDone channel pop serial0 dimm1 trained s
  | .dramCommandIssue sub ready => Sys2Proof.Machine.execDramCommandIssue sub ready s
  | .refresh channel rank => Sys2Proof.Machine.execRefresh channel rank s
  | .dimmSensorRead channel slot0 slot1 => Sys2Proof.Machine.execDimmSensorRead channel slot0 slot1 s
  | .selfRefreshEntry channel => Sys2Proof.Machine.execSelfRefreshEntry channel s
  | .selfRefreshExit channel => Sys2Proof.Machine.execSelfRefreshExit channel s
  | .driftCheck channel sub driftPs => Sys2Proof.Machine.execDriftCheck channel sub driftPs s
  | .retrainDone channel trained => Sys2Proof.Machine.execRetrainDone channel trained s
  | .sbFault channel slot => Sys2Proof.Machine.execSbFault channel slot s
  | .migrationPage channel bad twin => Sys2Proof.Machine.execMigrationPage channel bad twin s
  | .dchRetrain q => Sys2Proof.Machine.execDchRetrain q s
  | .dchRetire q => Sys2Proof.Machine.execDchRetire q s
  | .dchSbRead q answer => Sys2Proof.Machine.execDchSbRead q answer s
  | .programDone addr ns => Sys2Proof.Machine.execProgramDone addr ns s
  | .programFail addr => Sys2Proof.Machine.execProgramFail addr s
  | .eraseDone group block ns => Sys2Proof.Machine.execEraseDone group block ns s
  | .eraseFail channel die plane block => Sys2Proof.Machine.execEraseFail channel die plane block s
  | .dieTimeout channel die => Sys2Proof.Machine.execDieTimeout channel die s
  | .unitReadDone addr ns steps soft corrBits good => Sys2Proof.Machine.execUnitReadDone addr ns steps soft corrBits good s
  | .journalUnit => Sys2Proof.Machine.execJournalUnit s
  | .ckptSeg => Sys2Proof.Machine.execCkptSeg s
  | .capacityRecompute => Sys2Proof.Machine.execCapacityRecompute s
  | .probeInterval => Sys2Proof.Machine.execProbeInterval s
  | .probeDone unitsPerSec conc rateSum => Sys2Proof.Machine.execProbeDone unitsPerSec conc rateSum s
  | .flushRateRescale rateSum => Sys2Proof.Machine.execFlushRateRescale rateSum s
  | .wearLevel => Sys2Proof.Machine.execWearLevel s
  | .patrol group block bad => Sys2Proof.Machine.execPatrol group block bad s
  | .reserveVerify halfErased => Sys2Proof.Machine.execReserveVerify halfErased s
  | .dieTempRead channel hottest => Sys2Proof.Machine.execDieTempRead channel hottest s
  | .caseSourceSilent channel => Sys2Proof.Machine.execCaseSourceSilent channel s
  | .medProbeRun q => Sys2Proof.Machine.execMedProbeRun q s
  | .medDieRetire q => Sys2Proof.Machine.execMedDieRetire q s
  | .powerFailWarning => Sys2Proof.Machine.execPowerFailWarning s
  | .finalWaitExpiry => Sys2Proof.Machine.execFinalWaitExpiry s
  | .flushDone => Sys2Proof.Machine.execFlushDone s
  | .flushPowerCheck meanW => Sys2Proof.Machine.execFlushPowerCheck meanW s
  | .durStop q => Sys2Proof.Machine.execDurStop q s
  | .stopped => Sys2Proof.Machine.execStopped s
  | .durAcceptLoss q => Sys2Proof.Machine.execDurAcceptLoss q s
  | .holdupMsWrite ms => Sys2Proof.Machine.execHoldupMsWrite ms s
  | .holdupWWrite w => Sys2Proof.Machine.execHoldupWWrite w s
  | .strandTrained strand lanes => Sys2Proof.Machine.execStrandTrained strand lanes s
  | .hello strand m => Sys2Proof.Machine.execHello strand m s
  | .strandDown strand cause => Sys2Proof.Machine.execStrandDown strand cause s
  | .linkFecWindow strand corrCw uncorrCw => Sys2Proof.Machine.execLinkFecWindow strand corrCw uncorrCw s
  | .strandRetrain strand => Sys2Proof.Machine.execStrandRetrain strand s
  | .strandDisable strand => Sys2Proof.Machine.execStrandDisable strand s
  | .strandEnable strand => Sys2Proof.Machine.execStrandEnable strand s
  | .credit strand h => Sys2Proof.Machine.execCredit strand h s
  | .creditSend strand => Sys2Proof.Machine.execCreditSend strand s
  | .linkRetryTimeout strand => Sys2Proof.Machine.execLinkRetryTimeout strand s
  | .epochData strand h recs => Sys2Proof.Machine.execEpochData strand h recs s
  | .sealFrame strand h m => Sys2Proof.Machine.execSeal strand h m s
  | .epochApplied => Sys2Proof.Machine.execEpochApplied s
  | .sealAck strand h => Sys2Proof.Machine.execSealAck strand h s
  | .epochClose => Sys2Proof.Machine.execEpochClose s
  | .fwdReq strand h m => Sys2Proof.Machine.execFwdReq strand h m s
  | .fwdResp strand h m => Sys2Proof.Machine.execFwdResp strand h m s
  | .resync strand h m => Sys2Proof.Machine.execResync strand h m s
  | .heartbeat strand h m => Sys2Proof.Machine.execHeartbeat strand h m s
  | .heartbeatSend => Sys2Proof.Machine.execHeartbeatSend s
  | .hbLoss => Sys2Proof.Machine.execHbLoss s
  | .time strand h m => Sys2Proof.Machine.execTime strand h m s
  | .timeExchange => Sys2Proof.Machine.execTimeExchange s
  | .keyNext strand h gen => Sys2Proof.Machine.execKeyNext strand h gen s
  | .keyRotate => Sys2Proof.Machine.execKeyRotate s
  | .rotationTimeout strand => Sys2Proof.Machine.execRotationTimeout strand s
  | .handshake strand h m => Sys2Proof.Machine.execHandshake strand h m s
  | .handshakeRepeat => Sys2Proof.Machine.execHandshakeRepeat s
  | .soloWaitExpiry => Sys2Proof.Machine.execSoloWaitExpiry s
  | .sidebandSend => Sys2Proof.Machine.execSidebandSend s
  | .sidebandFrame port => Sys2Proof.Machine.execSidebandFrame port s
  | .sbLost => Sys2Proof.Machine.execSbLost s
  | .pairConfigWrite page off value => Sys2Proof.Machine.execPairConfigWrite page off value s
  | .mirRebalance q => Sys2Proof.Machine.execMirRebalance q s
  | .mirReturn q => Sys2Proof.Machine.execMirReturn q s
  | .mirDrill q => Sys2Proof.Machine.execMirDrill q s
  | .mirTakeover q => Sys2Proof.Machine.execMirTakeover q s
  | .scrubRead target ecc twinLine => Sys2Proof.Machine.execScrubRead target ecc twinLine s
  | .lapOverdue scrubber => Sys2Proof.Machine.execLapOverdue scrubber s
  | .dramFill gib => Sys2Proof.Machine.execDramFill gib s
  | .intInject q => Sys2Proof.Machine.execIntInject q s
  | .cphKekSet q data => Sys2Proof.Machine.execCphKekSet q data s
  | .cphKekRoll q data => Sys2Proof.Machine.execCphKekRoll q data s
  | .cphKeyLoad q data => Sys2Proof.Machine.execCphKeyLoad q data s
  | .cphKeyClear q => Sys2Proof.Machine.execCphKeyClear q s
  | .cphSeal q data => Sys2Proof.Machine.execCphSeal q data s
  | .cphUnseal q data => Sys2Proof.Machine.execCphUnseal q data s
  | .powerOn => Sys2Proof.Machine.execPowerOn s
  | .railPowerGood rail => Sys2Proof.Machine.execRailPowerGood rail s
  | .sequenceTimeout => Sys2Proof.Machine.execSequenceTimeout s
  | .sequencerHold => Sys2Proof.Machine.execSequencerHold s
  | .startStepDone r => Sys2Proof.Machine.execStartStepDone r s
  | .resetPin => Sys2Proof.Machine.execResetPin s
  | .reset value => Sys2Proof.Machine.execReset value s
  | .perst => Sys2Proof.Machine.execPerst s
  | .recoveryCopy addr img => Sys2Proof.Machine.execRecoveryCopy addr img s
  | .bflBegin q => Sys2Proof.Machine.execBflBegin q s
  | .bflWrite q data => Sys2Proof.Machine.execBflWrite q data s
  | .bflVerify q img => Sys2Proof.Machine.execBflVerify q img s
  | .bflActivate q => Sys2Proof.Machine.execBflActivate q s
  | .bflSave q => Sys2Proof.Machine.execBflSave q s
  | .bflForget q => Sys2Proof.Machine.execBflForget q s
  | .confirm key => Sys2Proof.Machine.execConfirm key s
  | .trialWatchdog => Sys2Proof.Machine.execTrialWatchdog s
  | .coreHalted core cause addr => Sys2Proof.Machine.execCoreHalted core cause addr s
  | .coreWatchdog => Sys2Proof.Machine.execCoreWatchdog s
  | .marchTest bank => Sys2Proof.Machine.execMarchTest bank s
  | .marchDone bank fault => Sys2Proof.Machine.execMarchDone bank fault s
  | .retentionEntry bank => Sys2Proof.Machine.execRetentionEntry bank s
  | .retentionWake bank => Sys2Proof.Machine.execRetentionWake bank s
  | .spiWrite cmd value extraEdges => Sys2Proof.Machine.execSpiWrite cmd value extraEdges s
  | .spiRead cmd onTime extraEdges => Sys2Proof.Machine.execSpiRead cmd onTime extraEdges s
  | .spiSelectRelease => Sys2Proof.Machine.execSpiSelectRelease s
  | .setOffset bytes pecOk => Sys2Proof.Machine.execSetOffset bytes pecOk s
  | .read bytes => Sys2Proof.Machine.execRead bytes s
  | .write bytes pecOk => Sys2Proof.Machine.execWrite bytes pecOk s
  | .smbusTimeout => Sys2Proof.Machine.execSmbusTimeout s
  | .i3cIbi device => Sys2Proof.Machine.execI3cIbi device s
  | .jtagInstruction instr => Sys2Proof.Machine.execJtagInstruction instr s
  | .pcieLinkUp gen width => Sys2Proof.Machine.execPcieLinkUp gen width s
  | .pcieDown => Sys2Proof.Machine.execPcieDown s
  | .eventRecord => Sys2Proof.Machine.execEventRecord s
  | .recordClose => Sys2Proof.Machine.execRecordClose s
  | .freeze => Sys2Proof.Machine.execFreeze s
  | .freezeRelease => Sys2Proof.Machine.execFreezeRelease s
  | .freezeExpired => Sys2Proof.Machine.execFreezeExpired s
  | .eventExport => Sys2Proof.Machine.execEventExport s
  | .expHeadWrite sample head => Sys2Proof.Machine.execExpHeadWrite sample head s
  | .evrEmberRead q => Sys2Proof.Machine.execEvrEmberRead q s
  | .snap => Sys2Proof.Machine.execSnap s
  | .clear => Sys2Proof.Machine.execClear s
  | .sampleExport => Sys2Proof.Machine.execSampleExport s
  | .paceUpdate rings => Sys2Proof.Machine.execPaceUpdate rings s
  | .thermalSample t => Sys2Proof.Machine.execThermalSample t s
  | .hardwareTrip => Sys2Proof.Machine.execHardwareTrip s
  | .opSample bytesMoved => Sys2Proof.Machine.execOpSample bytesMoved s
  | .opWrite value => Sys2Proof.Machine.execOpWrite value s
  | .familyReached => Sys2Proof.Machine.execFamilyReached s
  | .avsTimeout => Sys2Proof.Machine.execAvsTimeout s
  | .railCheck mv => Sys2Proof.Machine.execRailCheck mv s
  | .powerGoodLoss rail => Sys2Proof.Machine.execPowerGoodLoss rail s
  | .pfwGlitch => Sys2Proof.Machine.execPfwGlitch s
  | .inputPowerSample vin10mv watts => Sys2Proof.Machine.execInputPowerSample vin10mv watts s
  | .railCurrentPoll ma => Sys2Proof.Machine.execRailCurrentPoll ma s
  | .lifeHour => Sys2Proof.Machine.execLifeHour s
  | .resyncCopy page q => Sys2Proof.Machine.execResyncCopy page q s
  | .pacerRelease qpn => Sys2Proof.Machine.execPacerRelease qpn s
  | .retrainShortDone sub => Sys2Proof.Machine.execRetrainShortDone sub s
  | .dramAlert channel sub writeCrc => Sys2Proof.Machine.execDramAlert channel sub writeCrc s
  | .strandDisableTimeout strand => Sys2Proof.Machine.execStrandDisableTimeout strand s
  | .marchSegmentDone bank => Sys2Proof.Machine.execMarchSegmentDone bank s

end Sys2Proof.Machine
end

