-- ==== Sys2Proof/Machine/Idle.lean ====
section
/-! DEFINITION. What passes while no command waits. -/

namespace Sys2Proof.Machine

/-- An EVENT counter of the fabric that grows with what the switches do by themselves: flits passed, nanoseconds of withheld acknowledges
(R461). -/
def fabricCounter (w : Word64) : Bool :=
  bits w 1 0 == 1 && bits w 15 8 == 0xF0 && (decide (bits w 23 16 ≤ 2) || (decide (8 ≤ bits w 23 16) && decide (bits w 23 16 ≤ 10)))

/-- The fabric's counters while PMU runs (R15, R461): by how much they grow no rule says, so by a free amount (log 152). -/
def State.fabricCount (s : State) : State :=
  if s.rd PMU_CTRL_RUN = 0 then s
  else (s.pmu.select.filter (fun e => fabricCounter e.2)).foldl (fun (s : State) e =>
    let (k, s) := s.takeFree
    { s with pmu := { s.pmu with live := NMap.put 0 s.pmu.live e.1 (NMap.getD s.pmu.live e.1 0 + BitVec.ofNat 64 (Config.freeNat k)) } }) s

/-- One nanosecond passes (R26, R28): banks grant what waits at them, the fabric's counters grow. -/
def State.idle (s : State) : State := (s.advanceBy 1).banksGo.fabricCount

end Sys2Proof.Machine
end

