-- ==== Sys2Proof/WellFormed.lean ====
section
/-! DEFINITION. Operands a command can carry: the numbers spec/ gives pages, queues, ports, priorities, channels, strands
and the like. The meanings are total; these checks say which operand values name something. -/

namespace Sys2Proof

/-- 64 KiB pages of BAR0 (R35). -/
def nPages : Nat := 1024
/-- Rister queues (R55). -/
def nQueues : Nat := 4
/-- Host ports (R114). -/
def nPorts : Nat := 96
/-- DRAM channels (R5). -/
def nDramChannels : Nat := 48
/-- NAND channels (R5). -/
def nNandChannels : Nat := 32
/-- Swidun strands (R324). -/
def nStrands : Nat := 8
/-- Scratchpad banks (R435). -/
def nBanks : Nat := 16
/-- Control cores (R429). -/
def nCores : Nat := 16
/-- Trigger chains of both twins (R198). -/
def nChains : Nat := 32768
/-- Rails (R470). -/
def nRails : Nat := 12

/-- Widths a register access may have, in bytes (R36). -/
def accessWidth (w : Nat) : Bool := w == 4 || w == 8

/-- The QPN lies in the range of one of the twins (R13). -/
def qpnOk (n : Nat) : Bool := decide (0x10000 ≤ n) && decide (n ≤ 0x2FFFF)

/-- Every operand that numbers something names one that exists. -/
def Instr.wf : Instr → Bool
  | .registerWrite off w d => (if d.more.isEmpty then accessWidth w else decide (d.more.length = (w - 1) / 8)) && decide (off < 2 ^ 26)
  | .rcFieldRead off w => accessWidth w && decide (off < 2 ^ 26)
  | .pgQuiesce p | .pgResume p | .quiesceDone p | .pgLock p | .pgSoftRst p | .softRstDone p | .pgEnable p
  | .pgDisable p => decide (p < nPages)
  | .pgEvtClear p _ | .pgEvtEnWrite p _ | .pgEvtSet p _ => decide (p < nPages)
  | .msixUnmask v => decide (v < 64)
  | .rqEnable q _ | .rqDisable q | .rqDoorbell q _ | .rqCqHeadWrite q _ | .commandFetch q _ | .dmaCompletionTimeout q _ _
  | .nop q | .tableRead q | .tableWrite q _ | .tableInfo q | .regWriteBatch q _ | .hcaFlush q | .hcaInvalidate q
  | .keyDrainWait q | .tirDiscard q | .tirPromote q | .tirDemote q | .tirPin q | .dchRetrain q | .dchRetire q
  | .dchSbRead q _ | .medProbeRun q | .medDieRetire q | .durStop q | .durAcceptLoss q | .mirRebalance q | .mirReturn q
  | .mirDrill q | .mirTakeover q | .intInject q | .cphKekSet q _ | .cphKekRoll q _ | .cphKeyLoad q _ | .cphKeyClear q
  | .cphSeal q _ | .cphUnseal q _ | .bflBegin q | .bflWrite q _ | .bflVerify q _ | .bflActivate q | .bflSave q
  | .bflForget q | .evrEmberRead q => decide (q < nQueues)
  | .frameReceived p _ | .frameTxEnd p _ _ | .autonegResolved p | .anAttemptFail p | .trainingDone p | .trainFail p
  | .linkUp p | .linkDown p _ | .remoteFault p | .remoteFaultClear p | .fecWindow p _ _ _ | .pfcFrame p | .arpFrame p
  | .neighbourFrame p | .announce p _ | .ptpFrame p | .req p | .rtu p | .dreq p | .drep p | .send p | .rdmaWrite p
  | .rdmaReadRequest p | .atomicCompareAndSwap p | .atomicFetchAndAdd p | .atomicWrite p | .flush p | .acknowledge p
  | .cnpReceived p | .sidebandFrame p => decide (p < nPorts)
  | .pauseExpiry p q | .xoffRefresh p q | .pauseStorm p q | .stormClear p q => decide (p < nPorts) && decide (q < 8)
  | .contextLoad n | .disconnectTimeout n | .sendAckTimeout n | .sendRnrRetry n | .alphaDecay n | .rateIncrease n
  | .pacerRelease n => qpnOk n
  | .keyEntryLoad k => decide (k < 2 ^ 20)
  | .copy i | .atomic i | .persist i | .notify i => decide (i < nChains)
  | .trainDone c _ _ _ _ | .dimmSensorRead c _ _ | .selfRefreshEntry c | .selfRefreshExit c | .driftCheck c _ _
  | .retrainDone c _ | .sbFault c _ | .migrationPage c _ _ | .dramAlert c _ _ => decide (c < nDramChannels)
  | .refresh c r => decide (c < nDramChannels) && decide (r < 4)
  | .dramCommandIssue s _ | .retrainShortDone s => decide (s < 2 * nDramChannels)
  | .eraseFail c d _ _ | .dieTimeout c d => decide (c < nNandChannels) && decide (d < 16)
  | .dieTempRead c _ | .caseSourceSilent c => decide (c < nNandChannels)
  | .strandTrained n _ | .hello n _ | .strandDown n _ | .linkFecWindow n _ _ | .strandRetrain n | .strandDisable n
  | .strandEnable n | .credit n _ | .creditSend n | .linkRetryTimeout n | .epochData n _ _ | .sealFrame n _ _ | .sealAck n _
  | .fwdReq n _ _ | .fwdResp n _ _ | .resync n _ _ | .heartbeat n _ _ | .time n _ _ | .keyNext n _ _
  | .rotationTimeout n | .handshake n _ _ | .strandDisableTimeout n => decide (n < nStrands)
  | .railPowerGood r | .powerGoodLoss r => decide (r < nRails)
  | .coreHalted c _ _ => decide (c < nCores)
  | .marchTest b | .marchDone b _ | .retentionEntry b | .retentionWake b | .marchSegmentDone b => decide (b < nBanks)
  | .i3cIbi d => decide (d < 64)
  | _ => true

end Sys2Proof
end

