-- ==== Sys2Proof/Safety.lean ====
section
/-! DEFINITION. What counts as a safe run: a step that neither faults nor refuses; and the terms the statements use. -/

namespace Sys2Proof.Machine

/-- The outcome is a next state. -/
def isNext (o : Host.Outcome State Fault Refusal) : Prop := ∃ t, o = .next t

/-- A step of the machine goes on. -/
def goesOn (s : State) : Prop := isNext (step s)

/-! ### How the statements speak of a state -/

/-- Event n of a page's block stands in PG_EVT (R38). -/
def State.flagged (s : State) (page n : Nat) : Bool := bit (s.reg (regKey page 0x20)) n

/-- Every register but the listed ones (by their BAR0 byte offsets) reads in `b` as in `a`. -/
def regsKept (a b : State) (ks : List Nat) : Prop := ∀ k, k ∉ ks → b.reg k = a.reg k

/-- The registers that an event of a page may change: PG_EVT and PG_STAT (R38). -/
def evRegs (page : Nat) : List Nat := [regKey page 0x20, regKey page 0x18]

/-- From `a` to `b` event n of a page was raised: its flag stands, and one entry more waits for the recorder, with the block
and the number of the event and the time (R38, R450). -/
def raisedIn (a b : State) (page n : Nat) : Prop :=
  b.flagged page n = true ∧ ∃ e : RaisedEv, b.evInbox = a.evInbox ++ [e] ∧ e.time = b.tb ∧ e.test = false
    ∧ e.code = ((blockOf page).map Prod.fst).getD 0 * 0x100 + n

/-- `b` differs from `a` in nothing but registers, events on their way to the recorder, pending messages and what left the block. -/
def restKept (a b : State) : Prop := b = { a with regs := b.regs, evInbox := b.evInbox, msixPend := b.msixPend, out := b.out }

/-- The front command c of queue q may start, has opcode op and passes checks 1 to 5 of R497. -/
def State.mayRun (s : State) (q : Nat) (c : RqCmd) (op : Nat) (needsRun : Bool) : Prop :=
  s.startable q = some c ∧ c.opcode = op ∧ (s.running q).checkCmd c needsRun = none

/-- What a device reset of a cause leaves of a powered U96 (R406, R407): the boot ROM runs, the cause and whether a charge was discarded are
recorded, PG_STAT.READY of GLB is 0, the steward link is down; time, the boot store and NAND stay; what the core held is gone. -/
def restarted (s t : State) (cause : Nat) (forced : Bool) : Prop :=
  t.rd GLB_RESET_CAUSE_CAUSE = cause ∧ t.rd GLB_RESET_CAUSE_FORCED = b2n forced ∧ t.rd GLB_START_STAT_PHASE = 2
    ∧ t.rd GLB_RESET_CAUSE_PERST_COUNT = s.rd GLB_RESET_CAUSE_PERST_COUNT ∧ t.ready 0 = false ∧ t.pcieUp = false
    ∧ t.mono = s.mono ∧ t.tbOff = s.tbOff ∧ t.media = s.media.kept ∧ t.boot.saved = s.boot.saved ∧ t.boot.floor = s.boot.floor
    ∧ t.rqs = [] ∧ t.hearth = {} ∧ t.cache = {} ∧ t.ports = [] ∧ t.qps = [] ∧ t.dp = {} ∧ t.prot = {} ∧ t.chains = {} ∧ t.pair = {} ∧ t.link = {}

/-- The front command c of queue q may start, is block command op of instance i of block blk, and passes checks 1 to 5 of R497. -/
def State.blockRuns (s : State) (q : Nat) (c : RqCmd) (blk i op : Nat) (needsRun : Bool) : Prop :=
  s.startable q = some c ∧ c.opcode = op ∧ blockOf c.page = some (blk, i) ∧ (s.running q).checkCmd c needsRun = none

/-- The oldest received connection-management message of port p that `ok` admits is the one of c; w is the state behind its frame, in which
this twin answers (R142, R355); a message to a context that is not in the Hearth waits for it (R69), so here it is there, and used. -/
def State.cmTaken (s : State) (p : Nat) (ok : CmMsg → Bool) (c : CmFrame) (w : State) : Prop :=
  ∃ f u v, s.popRx p (fun f => match cmOf f with | some c => ok c.msg | none => false) = some (f, u) ∧ cmOf f = some c ∧ s.frameWaits f = none ∧ v = u.consumeRx p f
    ∧ v.silent = false ∧ v.ingressClosed = false ∧ v.ready 0x11 = true
    ∧ w = (match cmQpn c.msg with | some n => if v.homeOf n && v.qState n != 0 then (v.ctxUse n).2 else v | none => v)

/-- The oldest received frame of port p that `ok` admits carries the packet k; w is the state behind it. -/
def State.packetTaken (s : State) (p : Nat) (ok : RxFrame → Bool) (k : Packet) (w : State) : Prop :=
  ∃ f u, s.popRx p ok = some (f, u) ∧ w = u.consumeRx p f ∧ ∃ a b m cm, f.frame.body = .roce a b m k cm

/-- Packet k, in frame f, is the oldest request of port p that `ok` admits, is the next one its QP expects, and may be judged: the QP is
served here, its context and the keys the packet needs are resident (R69, R144, R145, R164, R180), and no read of a ring's CONS is under
way (R152). u is the state that judges it. -/
def State.newRequest (s : State) (p : Nat) (ok : Nat → Bool) (f : RxFrame) (k : Packet) (u : State) : Prop :=
  findReq ok (s.port p).rxq [] = some (f, k) ∧ s.silent = false ∧ s.ingressClosed = false ∧ s.homeOf k.destQpn = true
    ∧ (s.qState k.destQpn = 2 ∨ s.qState k.destQpn = 3) ∧ s.qPmtu k.destQpn + 90 ≤ s.rd HPT_FRAME_MAX_FRAME p ∧ k.destQpn ∈ s.hearth.resident
    ∧ ((s.ctxUse k.destQpn).2.keysReady ((s.ctxUse k.destQpn).2.keysNeeded k)).1 = true
    ∧ u = ((s.ctxUse k.destQpn).2.keysReady ((s.ctxUse k.destQpn).2.keysNeeded k)).2.ctxHold k.destQpn false ∧ u.nakPending k.destQpn = false ∧ psnDist k.psn (u.qEpsn k.destQpn) = 0
    ∧ s.dp.ops.all (fun o => match o.for_ with | .ring _ => false | _ => true) = true

/-- From u, t took the request on QP n as the operations l, and expects the PSN by_ further on (R154, R164). -/
def requestTaken (u t : State) (n by_ : Nat) (l : List Op) : Prop :=
  t.dp.ops = u.dp.ops ++ l ∧ l ≠ [] ∧ (∀ o ∈ l, o.for_ = .host n) ∧ t.qEpsn n = (u.qEpsn n + by_) % 2 ^ 24

/-- The frame with header h and payload b, received on strand n, is delivered at once and alone; u is the state that takes it (R328, R329). -/
def State.delivered (s : State) (n : Nat) (h : LinkHdr) (b : LinkBody) (u : State) : Prop :=
  n < 8 ∧ s.receive n h b = (u, [⟨h.vseq, h, b⟩])

end Sys2Proof.Machine
end

