-- ==== Sys2Proof/Certificates/Slice0/Obligations.lean ====
section
/-! DEFINITION. The statements for the provers, each with the rules of spec/ it formalises. A statement of a result says which next state
a command answers; `settle`, where it stands around that state, is what waiting operations then do (Settle.lean). -/

open Sys2Proof Sys2Proof.Machine Host

/-- A step takes the command at the front of the queue and runs it with the queue's rest (the model's own queue, log 1). -/
def Obligations.StepRunsFrontCommand : Prop :=
  ∀ (c : Instr) (rest : List Instr) (s : State), step { s with pending := c :: rest } = exec c { s with pending := rest }

/-- On an empty queue one nanosecond of the reference passes (DESIGN CHOICE, log 5). Of an offset still to be slewed away (R26) at most one
picosecond goes over into the clock, which counts whole nanoseconds and never runs backwards; no part of it is lost. The banks of the Hearth
grant what waits at them (R66, R84), and the performance counters of HTH and of the fabric count while PMU runs (R461; by how much the fabric's
grow is free, log 152); nothing else changes. -/
def Obligations.EmptyQueueLetsTimePass : Prop :=
  ∀ s : State, s.pending = [] → ∃ t, step s = .next t ∧ s.mono ≤ t.mono ∧ t.mono ≤ s.mono + 2
    ∧ (1000 * t.mono : Int) - t.link.fracPs - t.link.slewPs = 1000 * s.mono + 1000 - s.link.fracPs % 1000 - s.link.slewPs
    ∧ 0 ≤ t.link.fracPs ∧ t.link.fracPs < 1000
    ∧ t.link.slewPs.natAbs ≤ s.link.slewPs.natAbs ∧ (s.link.slewPs - t.link.slewPs).natAbs ≤ 1
    ∧ (s.banks.reqs = [] → t.banks = s.banks)
    ∧ (s.rd PMU_CTRL_RUN = 0 → t.pmu = s.pmu ∧ t.freeNext = s.freeNext)
    ∧ ((∀ e ∈ s.pmu.select, fabricCounter e.2 = false) → t.freeNext = s.freeNext)
    ∧ t.pmu = { s.pmu with live := t.pmu.live }
    ∧ t = { s with mono := t.mono, link := { s.link with slewPs := t.link.slewPs, fracPs := t.link.fracPs }, banks := t.banks, pmu := t.pmu, freeNext := t.freeNext }

/-- Every command goes on in every state: none faults, none is refused. It leaves the queue alone, does not change which twin the
U96 is unless it is the step of the start that samples the strap (R408), does not turn time back, uses no free value twice and takes nothing
back that left the block. -/
def Obligations.EveryCommandGoesOn : Prop :=
  ∀ (c : Instr) (s : State), ∃ t, exec c s = .next t ∧ t.pending = s.pending ∧ ((∀ r, c ≠ .startStepDone r) → t.twinB = s.twinB) ∧ s.mono ≤ t.mono
    ∧ s.freeNext ≤ t.freeNext ∧ ∃ l, t.out = l ++ s.out

/-- The register file and the DRAM of a state are in canonical form. -/
def Obligations.StepKeepsCanonicalForm : Prop :=
  ∀ s t : State, step s = .next t → NMap.wf resetKey s.regs = true → NMap.wf (fun _ => ({} : DLine)) s.tier.dram = true →
    NMap.wf resetKey t.regs = true ∧ NMap.wf (fun _ => ({} : DLine)) t.tier.dram = true

/-- The canonical form holds after reset, with an empty queue and every register at the value of its table. -/
def Obligations.ResetIsCanonical : Prop :=
  NMap.wf resetKey State.reset.regs = true ∧ NMap.wf (fun _ => ({} : DLine)) State.reset.tier.dram = true
    ∧ State.reset.pending = [] ∧ ∀ k, State.reset.reg k = resetKey k

/-- A field reads what was last written into it, the fields beside it and every other register read as before. -/
def Obligations.FieldReadsWhatWasWritten : Prop :=
  ∀ (s : State) (f g : Fld) (v i a j b : Nat), f.lo ≤ f.hi → f.hi < 64 → g.lo ≤ g.hi → g.hi < 64 →
    (s.wr f v i a).rd f i a = v % 2 ^ (f.hi + 1 - f.lo)
    ∧ (g.key j b ≠ f.key i a ∨ g.hi < f.lo ∨ f.hi < g.lo → (s.wr f v i a).rd g j b = s.rd g j b)
    ∧ (NMap.wf resetKey s.regs = true → NMap.wf resetKey (s.wr f v i a).regs = true)

/-- REGISTER_WRITE, accepted: a 64-bit write of a block register whose page is ready, not locked and not hidden, which breaks no
condition of the register. The register takes the value that its field types give (R37, R43), PG_GEN rises by one exactly where a
configuration field changed (R46), no other register is written, and then what the write starts follows. -/
def Obligations.AcceptedWriteTakesEffect : Prop :=
  ∀ (s : State) (page off : Nat) (v : Word64) (d : RegDesc),
    page < 1024 → off < 0x10000 → off % 8 = 0 → 0x40 ≤ off → isCounterPage page = false → inMsix (regKey page off) = false →
    mapped page = true → s.hidden false page = false → descAt page off = some d → s.frozenBy page = 0 →
    ¬(page = 0 ∧ off = 0x220) → ¬(page = 4 ∧ off = 0x120) → pairWide page off = false →
    s.writeOk page off (s.newValue page off d (BitVec.allOnes 64) v) v = true →
    (s.cur page off ^^^ v) &&& d.maskOf (isFirmware page off) = 0 →
    let old := s.cur page off
    let new := s.newValue page off d (BitVec.allOnes 64) v
    ∃ t, exec (.registerWrite (regKey page off) 8 ⟨v, []⟩) s = .next (t.afterWrite page off old new v).settle
      ∧ (new ≠ old → t.reg (regKey page off) = new)
      ∧ t.rd PG_GEN_GEN page = (s.rd PG_GEN_GEN page + b2n ((new ^^^ old) &&& configMask page off != 0)) % 2 ^ 32
      ∧ regsKept s t [regKey page off, regKey page 0x38] ∧ t = { s with regs := t.regs }

/-- RC_FIELD_READ: a 64-bit read returns the register's value and clears exactly its RC fields (R12); it changes nothing else. -/
def Obligations.ReadClearsRcFields : Prop :=
  ∀ (s : State) (page off : Nat) (d : RegDesc), page < 1024 → off < 0x10000 → off % 8 = 0 → inMsix (regKey page off) = false →
    mapped page = true → s.hidden false page = false → descAt page off = some d →
    ∃ t, exec (.rcFieldRead (regKey page off) 8) s = .next t
      ∧ t.out = .readData (regKey page off) (s.view page off) :: s.out
      ∧ t.reg (regKey page off) = s.reg (regKey page off) &&& ~~~d.rcMask
      ∧ regsKept s t [regKey page off] ∧ t = { s with regs := t.regs, out := t.out }

/-- An access the U96 does not carry out leaves its record in an empty GLB.ACCESS_ERR (R36, R50): valid, the cause, one so far,
whether it was a write, and the address; the event ACCESS_ERR is raised. In a register that already holds one only the count rises, up
to its largest value. A read returns zero. -/
def Obligations.RefusedAccessIsRecorded : Prop :=
  ∀ (s : State) (addr width : Nat) (v : Word64), addr < 2 ^ 26 →
    (widthOk addr width = false ∨ mapped (addr / 0x10000) = false) →
    let cause := if widthOk addr width then 1 else 2
    (∃ t, exec (.registerWrite addr width ⟨v, []⟩) s = .next t.settle ∧ regsKept s t (regKey 0 0x300 :: evRegs 0)
      ∧ (s.rd GLB_ACCESS_ERR_VALID = 0 → t.rd GLB_ACCESS_ERR_VALID = 1 ∧ t.rd GLB_ACCESS_ERR_CAUSE = cause
          ∧ t.rd GLB_ACCESS_ERR_COUNT = 1 ∧ t.rd GLB_ACCESS_ERR_WRITE = 1 ∧ t.rd GLB_ACCESS_ERR_ADDR = addr ∧ raisedIn s t 0 0)
      ∧ (s.rd GLB_ACCESS_ERR_VALID = 1 → t.rd GLB_ACCESS_ERR_VALID = 1 ∧ t.evInbox = s.evInbox))
    ∧ (∃ t, exec (.rcFieldRead addr width) s = .next t ∧ regsKept s t (regKey 0 0x300 :: evRegs 0)
      ∧ (∃ l, t.out = .readData addr 0 :: l)
      ∧ (s.rd GLB_ACCESS_ERR_VALID = 0 → t.rd GLB_ACCESS_ERR_VALID = 1 ∧ t.rd GLB_ACCESS_ERR_CAUSE = cause
          ∧ t.rd GLB_ACCESS_ERR_COUNT = 1 ∧ t.rd GLB_ACCESS_ERR_WRITE = 0 ∧ t.rd GLB_ACCESS_ERR_ADDR = addr))

/-- PG_LOCK, PG_QUIESCE, PG_RESUME, PG_ENABLE and PG_DISABLE on the page of a quiescible block the steward sees. LOCK and QUIESCE
become 1; QUIESCE and QUIESCED become 0 on PG_RESUME; EN becomes 1 on an unlocked page, and 0 on one that is quiesced; a write of 0 to EN of
a page that is not quiesced is refused (R38, R39, R48). A port starts link bring-up when it is enabled and leaves UP when it is disabled
(R135).
PG_SOFT_RST on a quiesced, unlocked host port sets SOFT_RST and BUSY; SOFT_RST_DONE clears both and raises PG_GEN by one; QUIESCE_DONE
sets QUIESCED on a quiescing page whose work has drained away (R38, R39, R72, R137). -/
def Obligations.PageControl : Prop :=
(∀ (s : State) (page : Nat), page < 1024 → quiesceSup page = true → s.hidden false page = false →
    (∃ t : State, exec (.pgLock page) s = .next t.settle ∧ t.rd PG_CTRL_LOCK page = 1 ∧ regsKept s t [regKey page 0x10]
      ∧ t.rd PG_CTRL_EN page = s.rd PG_CTRL_EN page ∧ t.rd PG_CTRL_QUIESCE page = s.rd PG_CTRL_QUIESCE page ∧ t = { s with regs := t.regs })
    ∧ (∃ t : State, exec (.pgQuiesce page) s = .next t.settle ∧ t.rd PG_CTRL_QUIESCE page = 1
      ∧ (s.rd PG_CTRL_QUIESCE page = 0 → s.drained page = true → t.quiesced page = true)
      ∧ regsKept s t [regKey page 0x10, regKey page 0x18] ∧ t = { s with regs := t.regs })
    ∧ (∃ t : State, exec (.pgResume page) s = .next t.settle ∧ t.rd PG_CTRL_QUIESCE page = 0
      ∧ (s.rd PG_CTRL_QUIESCE page = 1 → s.rd PG_CTRL_EN page = 1 → t.quiesced page = false)
      ∧ regsKept s t [regKey page 0x10, regKey page 0x18] ∧ t = { s with regs := t.regs })
    ∧ (s.locked page = false → s.rd PG_CTRL_EN page = 0 →
      ∃ t : State, exec (.pgEnable page) s = .next (if isHpt page then t.portEnable (page - 0x100) else t).settle ∧ t.rd PG_CTRL_EN page = 1
        ∧ (s.rd PG_CTRL_QUIESCE page = 0 → t.quiesced page = false)
        ∧ regsKept s t [regKey page 0x10, regKey page 0x18] ∧ t = { s with regs := t.regs })
    ∧ (s.locked page = false → s.rd PG_CTRL_EN page = 1 → s.quiesced page = true →
      ∃ t : State, exec (.pgDisable page) s = .next (if isHpt page then t.portDisable (page - 0x100) else t).settle ∧ t.rd PG_CTRL_EN page = 0
        ∧ t.quiesced page = true ∧ regsKept s t [regKey page 0x10, regKey page 0x18] ∧ t = { s with regs := t.regs })
    ∧ (s.locked page = false → s.rd PG_CTRL_EN page = 1 → s.quiesced page = false →
      exec (.pgDisable page) s = .next (s.accessErr 5 true (regKey page 0x10)).settle))
  ∧ (∀ (s : State) (page : Nat),
    (isHpt page = true → s.hidden false page = false → s.locked page = false → s.quiesced page = true →
      ∃ t : State, exec (.pgSoftRst page) s = .next t.settle ∧ t.rd PG_CTRL_SOFT_RST page = 1 ∧ t.rd PG_STAT_BUSY page = 1)
    ∧ (s.rd PG_CTRL_SOFT_RST page = 1 →
      ∃ t : State, exec (.softRstDone page) s = .next t ∧ t.rd PG_CTRL_SOFT_RST page = 0 ∧ t.rd PG_STAT_BUSY page = 0
        ∧ t.rd PG_GEN_GEN page = (s.rd PG_GEN_GEN page + 1) % 2 ^ 32
        ∧ regsKept s t [regKey page 0x10, regKey page 0x18, regKey page 0x38] ∧ t = { s with regs := t.regs })
    ∧ (quiesceSup page = true → s.quiescing page = true → s.drained page = true →
      ∃ t : State, exec (.quiesceDone page) s = .next t ∧ t.quiesced page = true ∧ regsKept s t [regKey page 0x18]
        ∧ t.rd PG_STAT_STATE page = s.rd PG_STAT_STATE page ∧ t = { s with regs := t.regs }))

/-- PG_EVT_CLEAR clears the flags written 1, and PG_STAT.FAULT once no FAULT or FATAL flag stands; PG_EVT_EN_WRITE leaves the enables of
the events that the block defines; PG_EVT_SET sets the flags written 1 of defined events, each an event marked as a test that leaves
PG_STAT alone (R38, R40). -/
def Obligations.PageEventRegisters : Prop :=
  ∀ (s : State) (page : Nat) (mask : Word64), page < 1024 → mapped page = true → isCounterPage page = false →
    s.hidden false page = false →
    (∃ t : State, exec (.pgEvtClear page mask) s = .next t.settle ∧ t.reg (regKey page 0x20) = s.reg (regKey page 0x20) &&& ~~~mask
      ∧ ((∀ e ∈ pageEvents page, 2 ≤ e.2 → bit (s.reg (regKey page 0x20) &&& ~~~mask) e.1 = false) → t.rd PG_STAT_FAULT page = 0)
      ∧ regsKept s t (evRegs page) ∧ t.evInbox = s.evInbox)
    ∧ (∃ t : State, exec (.pgEvtEnWrite page mask) s = .next t.settle ∧ t.reg (regKey page 0x28) = mask &&& evtMask page
      ∧ (t.irqCond page = false → t.out = s.out ∧ t.msixPend = s.msixPend) ∧ regsKept s t [regKey page 0x28] ∧ t.evInbox = s.evInbox)
    ∧ (∃ t : State, exec (.pgEvtSet page mask) s = .next t.settle
      ∧ (∀ e ∈ pageEvents page, bit mask e.1 = true → t.flagged page e.1 = true)
      ∧ t.evInbox.map (fun e => (e.code % 0x100, e.test))
          = s.evInbox.map (fun e => (e.code % 0x100, e.test)) ++ ((pageEvents page).filter (fun e => bit mask e.1)).map (fun e => (e.1, true))
      ∧ regsKept s t [regKey page 0x20])

/-- The queue registers of the Rister (R55 to R58). RQ_ENABLE of a queue with sizes in range starts it with its pointers and its phase
at their start, or in error where SQ_TAIL lies outside the ring (the model's choice of that moment, log 48); RQ_DISABLE ends it, at once where nothing is in execution or waits, else as STOPPING; RQ_DOORBELL adds what lies up to
the new tail to what may be fetched; RQ_CQ_HEAD_WRITE frees slots, and completions that wait go on; a doorbell or a head outside its ring
stops the queue with its error. -/
def Obligations.QueueRegisters : Prop :=
  ∀ (s : State) (q : Nat), q < 4 →
    (∀ value : Word64, s.ready 0 = true → s.rd GLB_RQ_CTRL_EN 0 (rqOff q) = 0 → s.rqState q ≠ 2 →
      4 ≤ bits value 11 8 → 4 ≤ bits value 19 16 → s.rd GLB_RQ_SQ_TAIL_TAIL 0 (rqOff q) < 2 ^ bits value 11 8 →
      ∃ t : State, exec (.rqEnable q value) s = .next t.settle ∧ t.rqState q = 1 ∧ t.rd GLB_RQ_CTRL_EN 0 (rqOff q) = 1
        ∧ t.rd GLB_RQ_CTRL_SQ_SIZE 0 (rqOff q) = bits value 11 8 ∧ t.rd GLB_RQ_CTRL_CQ_SIZE 0 (rqOff q) = bits value 19 16
        ∧ t.rd GLB_RQ_SQ_HEAD_HEAD 0 (rqOff q) = 0 ∧ t.rd GLB_RQ_CQ_TAIL_TAIL 0 (rqOff q) = 0
        ∧ t.rd GLB_RQ_CQ_TAIL_PHASE 0 (rqOff q) = 1 ∧ (t.rq q).fetched = [] ∧ (t.rq q).posts = [])
    ∧ (∀ value : Word64, s.ready 0 = true → s.rd GLB_RQ_CTRL_EN 0 (rqOff q) = 0 → s.rqState q ≠ 2 →
      4 ≤ bits value 11 8 → 4 ≤ bits value 19 16 → 2 ^ bits value 11 8 ≤ s.rd GLB_RQ_SQ_TAIL_TAIL 0 (rqOff q) →
      ∃ t : State, exec (.rqEnable q value) s = .next t.settle ∧ t.rqState q = 3 ∧ t.rd GLB_RQ_STAT_ERR 0 (rqOff q) = 1)
    ∧ (s.rd GLB_RQ_CTRL_EN 0 (rqOff q) = 1 → s.rqState q = 1 → (s.rq q).posts = [] → ((s.rq q).running = true ∨ (s.rq q).fetched = []) →
      ∃ t : State, exec (.rqDisable q) s = .next t.settle ∧ t.rd GLB_RQ_CTRL_EN 0 (rqOff q) = 0 ∧ (t.rq q).bells = []
        ∧ (t.rq q).fetched = (s.rq q).fetched ∧ t.rqState q = if (s.rq q).running then 2 else 0)
    ∧ (∀ tail, tail < 2 ^ 16 → s.rqState q = 1 →
      (tail < s.sqSize q → tail ≠ (match (s.rq q).bells.getLast? with | some b => b.1 | none => s.rd GLB_RQ_SQ_HEAD_HEAD 0 (rqOff q)) →
        ∃ t : State, exec (.rqDoorbell q tail) s = .next t.settle ∧ t.rd GLB_RQ_SQ_TAIL_TAIL 0 (rqOff q) = tail
          ∧ (t.rq q).bells = (s.rq q).bells ++ [(tail, s.bellCount)] ∧ t.bellCount = s.bellCount + 1
          ∧ regsKept s t [GLB_RQ_SQ_TAIL_TAIL.key 0 (rqOff q)])
      ∧ (s.sqSize q ≤ tail →
        ∃ t : State, exec (.rqDoorbell q tail) s = .next t.settle ∧ t.rqState q = 3 ∧ t.rd GLB_RQ_STAT_ERR 0 (rqOff q) = 1))
    ∧ (∀ head, head < 2 ^ 16 → s.rqState q = 1 →
      (head < s.cqSize q →
        ∃ t : State, exec (.rqCqHeadWrite q head) s = .next ((t.postWaiting q).advance q).settle
          ∧ t.rd GLB_RQ_CQ_HEAD_HEAD 0 (rqOff q) = head ∧ regsKept s t [GLB_RQ_CQ_HEAD_HEAD.key 0 (rqOff q)] ∧ t = { s with regs := t.regs })
      ∧ (s.cqSize q ≤ head →
        ∃ t : State, exec (.rqCqHeadWrite q head) s = .next t.settle ∧ t.rqState q = 3 ∧ t.rd GLB_RQ_STAT_ERR 0 (rqOff q) = 2))

/-- The front command of a running queue ends (R56, R63): its completion, with its command number, its status, the queue, the phase, the
submission head behind it and the result, goes to the slot at CQ_TAIL; CQ_TAIL moves on by one slot and PHASE turns where it wraps; the
command leaves the queue. At most one message follows the completion. -/
def Obligations.CompletionIsPosted : Prop :=
  ∀ (s : State) (q st : Nat) (r : Word64) (f : Fetched) (fs : List Fetched), q < 4 → (s.rq q).fetched = f :: fs → (s.rq q).ghost = false →
    (s.rq q).posts = [] → s.rqState q = 1 → s.cqRoom q = true → s.pcieUp = true →
    let tail := s.rd GLB_RQ_CQ_TAIL_TAIL 0 (rqOff q)
    let phase := s.rd GLB_RQ_CQ_TAIL_PHASE 0 (rqOff q)
    let w0 : Word64 := BitVec.ofNat 64 (f.cmd.cmdId + st * 2 ^ 16 + q * 2 ^ 24 + phase * 2 ^ 31 + ((f.index + 1) % s.sqSize q) * 2 ^ 32)
    ∃ t : State, s.complete q st r = t ∧ (t.rq q).fetched = fs ∧ (t.rq q).running = false ∧ (t.rq q).posts = []
      ∧ (∃ l, t.out = l ++ .completion q tail w0 r :: s.out ∧ l.length ≤ 1 ∧ (f.cmd.notify = false → l = []))
      ∧ t.rd GLB_RQ_CQ_TAIL_TAIL 0 (rqOff q) = (tail + 1) % s.cqSize q
      ∧ t.rd GLB_RQ_CQ_TAIL_PHASE 0 (rqOff q) = (if (tail + 1) % s.cqSize q = 0 then 1 - phase else phase)
      ∧ regsKept s t [GLB_RQ_CQ_TAIL_TAIL.key 0 (rqOff q)]

/-- The general commands of the Rister (R60, R62, R497). NOP ends OK; TABLE_INFO tells what the table is; TABLE_READ writes the entries to
the data buffer; TABLE_WRITE writes entries in ascending order, PG_GEN rising once where a configuration entry changed, and tells how
many it wrote, once the chains it disarms have stopped; REG_WRITE_BATCH applies its pairs in order.
COMMAND_FETCH takes the command at SQ_HEAD into the queue and moves SQ_HEAD on by one, the doorbell being spent once it reaches it; a
fetch that times out stops the queue with FETCH_FAILED; a buffer read that times out ends its command with what was read before, here a
TABLE_WRITE (R55, R58). -/
def Obligations.QueueCommands : Prop :=
(∀ (s : State) (q : Nat) (c : RqCmd),
    (s.mayRun q c 1 false → RqOperandsZero c = true → exec (.nop q) s = .next ((s.running q).finishCmd q stOk 0).settle)
    ∧ (∀ d, s.mayRun q c 4 false → RqOperandsZero c = true → s.tableAt c.page c.table = some d →
      exec (.tableInfo q) s = .next ((s.running q).finishCmd q stOk (8 * d.words + b2n d.writable * 2 ^ 16 + b2n d.prot.isSome * 2 ^ 17 + d.entries * 2 ^ 24)).settle)
    ∧ (∀ d, s.mayRun q c 2 false → RqOperandsZero c = true → s.tableAt c.page c.table = some d → c.length = c.count * (8 * d.words) →
      0 < c.count → c.index + c.count ≤ d.entries → s.pcieUp = true →
      let u := (s.running q).askTable c.page (8 * d.words * c.count)
      ∃ t : State, exec (.tableRead q) s = .next ((((List.range c.count).map (fun k => c.index + k)).foldl (fun (u : State) i => u.afterTableRead c.page i) t).finishCmd q stOk (c.count * 2 ^ 32)).settle
        ∧ t.out = .dma (BitVec.ofNat 64 c.dataAddr) (((List.range c.count).map (fun k => c.index + k)).flatMap (fun i => u.tableEntry c.page c.table i)) :: s.out
        ∧ t = { u with out := t.out })
    ∧ (∀ d data, s.mayRun q c 3 false → RqOperandsZero c = true → s.tableAt c.page c.table = some d → c.length = c.count * (8 * d.words) →
      0 < c.count → c.index + c.count ≤ d.entries → s.badEntries c.page c.table c.index c.count = false → d.fw = false → d.writable = true →
      (d.config && s.locked c.page) = false → d.prot = none → c.count * d.words ≤ data.length → 0 < d.words →
      ∃ (t : State) (n st : Nat) (ch : Bool),
        writeEntries c.page c.table d.config (entriesOf d.words c.index c.count data) ((s.running q).askTable c.page (8 * d.words * c.count)) 0 false = (t, n, st, ch)
        ∧ (st = stOk → n = c.count) ∧ n ≤ c.count
        ∧ (let u := if ch then t.bumpGen c.page else t
          let late := if c.page = 0x10 ∧ c.table = 0 then (((entriesOf d.words c.index c.count data).take n).map Prod.fst).filter (fun i => (u.run i).disarm) else []
          exec (.tableWrite q data) s = .next (if late = [] then u.finishCmd q st (n * 2 ^ 32 + u.rd PG_GEN_GEN c.page)
            else { u with chains := { u.chains with tableWaits := u.chains.tableWaits ++ [⟨q, st, n * 2 ^ 32 + u.rd PG_GEN_GEN c.page, late⟩] } }).settle))
    ∧ (∀ data, s.mayRun q c 5 false → RqOperandsZero c = true → c.length = 16 * c.count → 0 < c.count → c.length ≤ 8 * data.length →
      (pairsOf c.count data).all (fun x => batchOffOk c.page x.1) = true → (pairsOf c.count data).any (fun x => fwRegister c.page x.1) = false → s.locked c.page = false →
      (∀ x ∈ pairsOf c.count data, (s.running q).pairRefused c.page x = none) →
      let b : BatchWait := { q := q, page := c.page, offs := ((pairsOf c.count data).map Prod.fst).filter (fun o => pairWide c.page o), count := c.count, changed := false }
      ∀ t : State, applyPairs q c.page (pairsOf c.count data) { s.running q with pair := { s.pair with batches := s.pair.batches ++ [b] } } = some t →
        exec (.regWriteBatch q data) s = .next t.batchDone.settle))
  ∧ (∀ (s : State) (q : Nat), q < 4 →
    (∀ (c : RqCmd) (b : Nat × Nat) (bs : List (Nat × Nat)), s.fetchable q = true → s.pcieUp = true → (s.rq q).bells = b :: bs →
      ∃ t : State, exec (.commandFetch q c) s = .next (t.advance q).settle
        ∧ (t.rq q).fetched = (s.rq q).fetched ++ [⟨c, s.rd GLB_RQ_SQ_HEAD_HEAD 0 (rqOff q), b.2⟩]
        ∧ t.rd GLB_RQ_SQ_HEAD_HEAD 0 (rqOff q) = (s.rd GLB_RQ_SQ_HEAD_HEAD 0 (rqOff q) + 1) % s.sqSize q
        ∧ (t.rq q).bells = (if (s.rd GLB_RQ_SQ_HEAD_HEAD 0 (rqOff q) + 1) % s.sqSize q = b.1 then bs else b :: bs)
        ∧ regsKept s t [GLB_RQ_SQ_HEAD_HEAD.key 0 (rqOff q)] ∧ t = { s with regs := t.regs, rqs := t.rqs })
    ∧ (∀ data, s.fetchable q = true →
      ∃ t : State, exec (.dmaCompletionTimeout q true data) s = .next t.settle ∧ t.rqState q = 3 ∧ t.rd GLB_RQ_STAT_ERR 0 (rqOff q) = 3)
    ∧ (∀ (c : RqCmd) (data : List Word64), s.startable q = some c → c.opcode = 3 →
      exec (.dmaCompletionTimeout q false data) s = .next (s.tableWrite q (data.take (c.length / 8 - 1))).settle))

/-- MSIX_UNMASK unmasks the vector; a message that waited for it leaves at once while the PCIe link is up, and its pending bit clears
(R53). -/
def Obligations.UnmaskSendsPending : Prop :=
  ∀ (s : State) (v : Nat), v < 64 →
    ∃ t : State, exec (.msixUnmask v) s = .next t ∧ t.msixMask.getLsbD v = false
      ∧ (∀ u, u < 64 → u ≠ v → t.msixMask.getLsbD u = s.msixMask.getLsbD u)
      ∧ (s.msixPend.getLsbD v = true → s.pcieUp = true → t.msixPend.getLsbD v = false ∧ Out.msix v ∈ t.out)
      ∧ t = { s with msixTab := t.msixTab, msixMask := t.msixMask, msixPend := t.msixPend, out := t.out }

/-- Settings the operator writes, each within its range and its page open to writes: HOLDUP_MS, HOLDUP_W, DIRTY_BUDGET and OP take the value, PG_GEN
counts a change, and what depends on the setting is worked out anew (R46, R234, R310, R478). POOL_RESIZE and the other pair-wide settings do
not take the value at once: while an epoch is open they wait for it to be confirmed (R215, R350). -/
def Obligations.SettingsTakeEffect : Prop :=
  ∀ s : State,
    (∀ ms, s.hidden false 1 = false → s.frozenBy 1 = 0 → ms = 0 ∨ (601 ≤ ms ∧ ms ≤ 600000) →
      ∃ t : State, exec (.holdupMsWrite ms) s = .next t.holdupMs.settle ∧ t.rd PWR_HOLDUP_MS_MS = ms
        ∧ t.rd PG_GEN_GEN 1 = (s.rd PG_GEN_GEN 1 + b2n (s.rd PWR_HOLDUP_MS_MS != ms)) % 2 ^ 32
        ∧ regsKept s t [PWR_HOLDUP_MS_MS.key, regKey 1 0x38] ∧ t = { s with regs := t.regs })
    ∧ (∀ w, s.hidden false 1 = false → s.frozenBy 1 = 0 → w = 0 ∨ (150 ≤ w ∧ w ≤ 1000) →
      ∃ t : State, exec (.holdupWWrite w) s = .next t.autoSave.startProbe.settle ∧ t.rd PWR_HOLDUP_W_W = w
        ∧ regsKept s t [PWR_HOLDUP_W_W.key, regKey 1 0x38] ∧ t = { s with regs := t.regs })
    ∧ (∀ mib, s.hidden false 0xA = false → s.frozenBy 0xA = 0 → s.budgetBad mib = false →
      ∃ t : State, exec (.dirtyBudgetWrite mib) s = .next t.budgetRecompute.settle ∧ t.rd TIR_DIRTY_BUDGET_BUDGET_MIB = mib
        ∧ regsKept s t [TIR_DIRTY_BUDGET_BUDGET_MIB.key, regKey 0xA 0x38] ∧ t = { s with regs := t.regs })
    ∧ (∀ v : Word64, s.hidden false 1 = false → s.frozenBy 1 = 0 → 1 ≤ bits v 47 32 → bits v 1 0 ≠ 3 → bits v 15 8 < bits v 23 16 →
      ∃ t : State, exec (.opWrite v) s = .next ({ t with pwr := { t.pwr with avsFailed := false } }).opEval.settle
        ∧ t.rd PWR_OP_DWELL_MS = bits v 47 32 ∧ t.rd PWR_OP_MODE = bits v 1 0 ∧ t.rd PWR_OP_BK_PCT = bits v 15 8 ∧ t.rd PWR_OP_FD_PCT = bits v 23 16
        ∧ regsKept s t [PWR_OP_MODE.key, regKey 1 0x38] ∧ t = { s with regs := t.regs })
    ∧ (∀ (n : Nat) (e : Epoch), s.hidden false 0xA = false → s.frozenBy 0xA = 0 → s.poolRefused n = false → n < 2 ^ 18 → s.rd TIR_POOL_CFG_REGIONS ≠ n →
      s.openSlot = some e →
      ∃ t : State, exec (.poolResize n) s = .next t.settle ∧ t.pair.configWait = s.pair.configWait ++ [(e.n, .config 0xA 0x100 (BitVec.ofNat 64 n))]
        ∧ t = { s with pair := t.pair })
    ∧ (∀ (v : Word64) (e : Epoch), s.hidden false 0xB = false → s.frozenBy 0xB = 0 → 125 ≤ bits v 14 0 → bits v 14 0 ≤ 16000 → s.rd MIR_EPOCH_NS_NS ≠ bits v 14 0 →
      s.openSlot = some e →
      ∃ t : State, exec (.pairConfigWrite 0xB 0x140 v) s = .next t.settle
        ∧ t.pair.configWait = s.pair.configWait ++ [(e.n, .config 0xB 0x140 (BitVec.ofNat 64 (bits v 14 0)))]
        ∧ t = { s with pair := t.pair })

/-- Enables of the cache and of a strand. CACHE_DRAIN of an enabled cache starts the drain, CACHE_ENABLE of a disabled one enables it
empty, each with its event (R109, R110); STRAND_DISABLE and STRAND_ENABLE write the strand's enable bit, the others standing, and take the
strand out or bring it back (R325). -/
def Obligations.CacheAndStrandEnables : Prop :=
  ∀ s : State,
    (s.hidden false 9 = false → s.frozenBy 9 = 0 → s.rd HCA_CTRL_EN = 1 → s.rd HCA_STAT_STATE = 1 →
      ∃ t : State, exec .cacheDrain s = .next t.settle ∧ t.rd HCA_STAT_STATE = 2 ∧ raisedIn s t 9 0
        ∧ regsKept s t (HCA_CTRL_EN.key :: HCA_STAT_STATE.key :: evRegs 9))
    ∧ (s.hidden false 9 = false → s.frozenBy 9 = 0 → s.rd HCA_CTRL_EN = 0 → s.rd HCA_STAT_STATE = 0 →
      ∃ t : State, exec .cacheEnable s = .next t.settle ∧ t.rd HCA_STAT_STATE = 1 ∧ t.rd HCA_CTRL_EN = 1 ∧ raisedIn s t 9 2
        ∧ regsKept s t (HCA_CTRL_EN.key :: HCA_STAT_STATE.key :: regKey 9 0x38 :: evRegs 9))
    ∧ (∀ n, n < 8 → s.hidden false 0xB = false → s.frozenBy 0xB = 0 → 100 ≤ s.rd MIR_LINK_CFG_RETRY_NS →
      (bit (s.reg (regKey 0xB 0x100)) (32 + n) = true →
        ∃ t : State, exec (.strandDisable n) s = .next (t.strandOff n).settle ∧ bit (t.reg (regKey 0xB 0x100)) (32 + n) = false
          ∧ (∀ m, m < 8 → m ≠ n → bit (t.reg (regKey 0xB 0x100)) (32 + m) = bit (s.reg (regKey 0xB 0x100)) (32 + m))
          ∧ regsKept s t [regKey 0xB 0x100, regKey 0xB 0x38] ∧ t = { s with regs := t.regs })
      ∧ (bit (s.reg (regKey 0xB 0x100)) (32 + n) = false →
        ∃ t : State, exec (.strandEnable n) s = .next (t.strandOn n).settle ∧ bit (t.reg (regKey 0xB 0x100)) (32 + n) = true
          ∧ (∀ m, m < 8 → m ≠ n → bit (t.reg (regKey 0xB 0x100)) (32 + m) = bit (s.reg (regKey 0xB 0x100)) (32 + m))
          ∧ regsKept s t [regKey 0xB 0x100, regKey 0xB 0x38] ∧ t = { s with regs := t.regs }))

/-- A device reset restarts the U96 (R406, R407). RESET_PIN does so with cause PIN; a write of GLB.RESET with its key and GO, while nothing
is charged, or with FORCE, or in STOPPED, with cause STEWARD, after the ember record of the stop; without the key the write is recorded as
an access error and resets nothing; CORE_WATCHDOG, where the watchdog counts and a SUPERVISOR core runs, with cause WATCHDOG. -/
def Obligations.DeviceResets : Prop :=
  ∀ (s : State),
    (∀ cause, cause < 16 → s.pwr.off = false →
      restarted s (s.deviceReset cause) cause (s.rd TIR_DIRTY_CHARGED_BYTES != 0 && cause != 5 && s.rd PWR_FLUSH_STAT_STATE != 7))
    ∧ exec .resetPin s = .next (s.deviceReset 1)
    ∧ (∀ v : Word64, bits v 63 48 = 0xB007 → bit v 0 = true → (s.rd TIR_DIRTY_CHARGED_BYTES = 0 ∨ bit v 1 = true ∨ s.rd PWR_FLUSH_STAT_STATE = 7) →
      exec (.reset v) s = .next ((s.emberStop 5).deviceReset 2))
    ∧ (∀ v : Word64, bits v 63 48 ≠ 0xB007 → exec (.reset v) s = .next (s.accessErr 5 true (regKey 0 0x220)))
    ∧ (s.wdStopped = false → s.supervised = true → exec .coreWatchdog s = .next ((s.emberStop 3).deviceReset 3))

/-- PERST, or a function-level reset, resets the host interface alone (R405, R446): the steward link is down, the MSI-X table is cleared with
every vector masked, every queue is IDLE with EN 0, and PERST_COUNT counts; registers of other pages and all other state stay. -/
def Obligations.PerstResetsHostInterface : Prop :=
  ∀ (s : State),
    ∃ t : State, exec .perst s = .next t ∧ t.pcieUp = false ∧ t.msixMask = BitVec.allOnes 64 ∧ t.msixPend = 0 ∧ t.msixTab = []
      ∧ (∀ q, q < 4 → t.rqState q = 0 ∧ t.rd GLB_RQ_CTRL_EN 0 (rqOff q) = 0 ∧ (t.rq q).fetched = [] ∧ (t.rq q).posts = [] ∧ (t.rq q).bells = [])
      ∧ t.rd GLB_RESET_CAUSE_PERST_COUNT = (s.rd GLB_RESET_CAUSE_PERST_COUNT + 1) % 2 ^ 32
      ∧ (∀ page off, 0 < page → page ≠ 0xF → off < 0x10000 → t.reg (regKey page off) = s.reg (regKey page off))
      ∧ t = { s with regs := t.regs, pcieUp := t.pcieUp, rqs := t.rqs, msixMask := t.msixMask, msixPend := t.msixPend, msixTab := t.msixTab }

/-- A trial image that is not confirmed in time, and one that is (R422). TRIAL_WATCHDOG: time stands at the deadline, the selector reverts to
the other block, the ember record is written and the device resets with cause TRIAL. CONFIRM with its key makes the trial image the confirmed
one and raises the version floor where the image asks for it; with another key it is recorded and changes nothing of the boot store. -/
def Obligations.TrialEnds : Prop :=
  ∀ (s : State),
    (∀ t0, s.boot.trialAt = some t0 → s.rd BFL_STATUS_STATE = 2 →
      let u := s.upTo (t0 + s.rd BFL_TRIAL_CFG_WD_S * 1000000000)
      exec .trialWatchdog s = .next (((u.revert (1 - u.sel.active)).emberStop 6).deviceReset 4))
    ∧ (∀ key, key % 2 ^ 16 = 0xC0F1 → s.sel.trial = true → s.ready 0 = true → s.rd BFL_STATUS_STATE ≠ 3 → s.sel.active < 2 →
      ∃ t : State, exec (.confirm key) s = .next t ∧ t.sel = { s.sel with trial := false, boots := 0, seqNo := s.sel.seqNo + 1 }
        ∧ t.rd BFL_STATUS_STATE = 1 ∧ t.boot.trialAt = none ∧ t.boot.saved = s.boot.saved ∧ s.boot.floor ≤ t.boot.floor
        ∧ (∀ m, (if s.sel.active = 0 then s.boot.img0 else s.boot.img1) = some m → t.boot.floor = if m.raiseFloor then max s.boot.floor m.secVersion else s.boot.floor)
        ∧ raisedIn s t 4 4)
    ∧ (∀ key, key % 2 ^ 16 ≠ 0xC0F1 → s.ready 0 = true → exec (.confirm key) s = .next (s.accessErr 5 true (regKey 4 0x120)))

/-- START_STEP_DONE ends the step in progress and PHASE goes on (R408, R414, R424, R426). Step 2 samples the TWIN_SEL strap; with a verified active image what the
blocks hold is noted, PHASE reads 3; a fault in scratchpad halts the start with SCRATCH_FAULT, no DRAM channel with NO_DRAM. Step 3 of an
image that is no trial: the boot count rises, PHASE reads 4. Step 12 leads to 13; step 13 to SERVING, with the time the start took.
RECOVERY_COPY in recovery (R410, R411): the image read from steward memory is verified where it lies in scratchpad and its Kindling
starts GLB and BFL in recovery; an image that fails a check runs nothing and raises IMAGE_BAD; GO reads 0 once the copy ends. -/
def Obligations.BootAndRecovery : Prop :=
(∀ (s : State) (r : StepResult), s.pwr.off = false →
    (s.rd GLB_START_STAT_PHASE = 2 → r.scratchFault = false → r.openErases = [] → s.selRec.isSome = true →
      imageFault s.boot.floor (imageIn r s.sel.active) = 0 →
      ∃ t : State, exec (.startStepDone r) s = .next t.settle ∧ t.rd GLB_START_STAT_PHASE = 3 ∧ t.boot.img0 = some r.image0 ∧ t.boot.img1 = some r.image1
        ∧ t.ready 5 = true ∧ regsKept s t [GLB_START_STAT_PHASE.key, PG_STAT_STATE.key 5] ∧ t = { s with twinB := r.twinSel, regs := t.regs, boot := { s.boot with img0 := t.boot.img0, img1 := t.boot.img1 } })
    ∧ (s.rd GLB_START_STAT_PHASE = 2 → r.scratchFault = true →
      ∃ t : State, exec (.startStepDone r) s = .next (t.emberStop 4).settle ∧ t.rd GLB_START_STAT_PHASE = 0x21 ∧ t.rd GLB_START_STAT_FAIL = 5 ∧ raisedIn s t 4 9
        ∧ regsKept s t (GLB_START_STAT_PHASE.key :: evRegs 4))
    ∧ (s.rd GLB_START_STAT_PHASE = 3 → s.sel.trial = false → s.selRec.isSome = true → s.boot.count < 2 ^ 32 - 1 →
      ∃ t : State, exec (.startStepDone r) s = .next t.settle ∧ t.rd GLB_START_STAT_PHASE = 4 ∧ t.boot.count = s.boot.count + 1 ∧ t.rd BFL_BOOT_COUNT_COUNT = s.boot.count + 1
        ∧ t.sel = s.sel ∧ t.boot.sel0 = s.selRec ∧ t.boot.sel1 = s.selRec)
    ∧ (s.rd GLB_START_STAT_PHASE = 6 → (∃ c < 48, s.chanSt c = 1) → exec (.startStepDone r) s = .next s.settle)
    ∧ (s.rd GLB_START_STAT_PHASE = 6 → (∀ c < 48, s.chanSt c ≠ 1) → s.trainedChans = [] →
      ∃ t : State, exec (.startStepDone r) s = .next (t.emberStop 4).settle ∧ t.rd GLB_START_STAT_PHASE = 0x21 ∧ t.rd GLB_START_STAT_FAIL = 2 ∧ raisedIn s t 4 9
        ∧ regsKept s t (GLB_START_STAT_PHASE.key :: evRegs 4))
    ∧ (s.rd GLB_START_STAT_PHASE = 12 →
      ∃ t : State, exec (.startStepDone r) s = .next t.settle ∧ t.rd GLB_START_STAT_PHASE = 13 ∧ regsKept s t [GLB_START_STAT_PHASE.key] ∧ t = { s with regs := t.regs })
    ∧ (s.rd GLB_START_STAT_PHASE = 13 →
      ∃ t : State, exec (.startStepDone r) s = .next t.settle ∧ t.rd GLB_START_STAT_PHASE = 14 ∧ t.boot.elapsed = some ((s.mono - s.boot.startAt) / 1000000)
        ∧ regsKept s t [GLB_START_STAT_PHASE.key] ∧ t = { s with regs := t.regs, boot := { s.boot with elapsed := t.boot.elapsed } }))
  ∧ (∀ (s : State) (addr : Word64) (m : ImageInfo), s.rd GLB_START_STAT_PHASE = 0x20 →
    (imageFault s.boot.floor m = 0 →
      ∃ t : State, exec (.recoveryCopy addr (some m)) s = .next t ∧ t.rd GLB_RECOVERY_SRC_GO = 0 ∧ t.rd GLB_RECOVERY_SRC_ADDR = bits addr 63 12
        ∧ t.rd BFL_STATUS_STATE = 3 ∧ t.ready 0 = true ∧ t.ready 4 = true)
    ∧ (imageFault s.boot.floor m ≠ 0 →
      ∃ t : State, exec (.recoveryCopy addr (some m)) s = .next t ∧ t.rd GLB_RECOVERY_SRC_GO = 0 ∧ t.rd GLB_RECOVERY_SRC_ADDR = bits addr 63 12
        ∧ raisedIn s t 4 1 ∧ regsKept s t (GLB_RECOVERY_SRC_GO.key :: evRegs 4))
    ∧ (∃ t : State, exec (.recoveryCopy addr none) s = .next t ∧ t.rd GLB_RECOVERY_SRC_GO = 0 ∧ t.rd GLB_RECOVERY_SRC_ADDR = bits addr 63 12
        ∧ regsKept s t [GLB_RECOVERY_SRC_GO.key] ∧ t = { s with regs := t.regs }))

/-- The boot store's block commands, outside TRIAL (R420, R421). BFL_BEGIN clears VERIFIED of the inactive block, erases it and opens it; BFL_WRITE writes
a chunk behind the bytes written; BFL_VERIFY sets VERIFIED and answers the version, or answers the first check that failed;
BFL_ACTIVATE makes the block ACTIVE in TRIAL; BFL_SAVE saves the settings and answers how many; BFL_FORGET voids them. In TRIAL the first
four end TRIAL_OPEN. -/
def Obligations.BootStoreCommands : Prop :=
  ∀ (s : State) (q : Nat) (c : RqCmd),
    let b := s.inactive c
    (s.blockRuns q c 4 0 0x40 false → s.bflZero c false = true → s.rd BFL_STATUS_STATE ≠ 2 →
      ∃ t : State, exec (.bflBegin q) s = .next (t.finishCmd q stOk 0) ∧ t.boot.writing = some b ∧ t.boot.bytes = 0 ∧ t.sel.ok b = false
        ∧ (∀ w, imageBase b ≤ w → w < imageBase b + 192 * 2 ^ 15 → NMap.find t.boot.store w = none)
        ∧ (∀ w, w < imageBase b ∨ imageBase b + 192 * 2 ^ 15 ≤ w → NMap.find t.boot.store w = NMap.find s.boot.store w)
        ∧ t.sel.seqNo = s.sel.seqNo + 1 ∧ t.sel.active = s.sel.active ∧ t.boot.saved = s.boot.saved)
    ∧ (∀ data, s.blockRuns q c 4 0 0x41 false → s.bflZero c true = true → s.rd BFL_STATUS_STATE ≠ 2 → s.boot.writing = some b → c.index = s.boot.bytes →
      c.index + c.length ≤ 48 * 2 ^ 20 → c.length ≤ 8 * data.length →
      ∃ t : State, exec (.bflWrite q data) s = .next (t.finishCmd q stOk (s.boot.bytes + c.length)) ∧ t.boot = { s.boot with bytes := s.boot.bytes + c.length, store := t.boot.store }
        ∧ (∀ i, i < c.length / 8 → NMap.find t.boot.store (imageBase b + c.index / 8 + i) = some (wordAt data i))
        ∧ (∀ w, w < imageBase b + c.index / 8 ∨ imageBase b + c.index / 8 + c.length / 8 ≤ w → NMap.find t.boot.store w = NMap.find s.boot.store w)
        ∧ t.rd BFL_UPDATE_STAT_BYTES = (s.boot.bytes + c.length) % 2 ^ 32)
    ∧ (∀ m : ImageInfo, s.blockRuns q c 4 0 0x42 false → s.bflZero c false = true → s.rd BFL_STATUS_STATE ≠ 2 →
      (imageFault s.boot.floor m = 0 →
        ∃ t : State, exec (.bflVerify q m) s = .next (t.finishCmd q stOk m.version.toNat) ∧ t.sel.ok b = true ∧ (if b = 0 then t.boot.img0 else t.boot.img1) = some m
          ∧ t.boot.writing ≠ some b ∧ raisedIn s t 4 0)
      ∧ (imageFault s.boot.floor m ≠ 0 →
        ∃ t : State, exec (.bflVerify q m) s = .next (t.finishCmd q 0x43 (imageFault s.boot.floor m)) ∧ t.sel.ok b = false ∧ t.boot.writing ≠ some b ∧ raisedIn s t 4 1))
    ∧ (s.blockRuns q c 4 0 0x43 false → s.bflZero c false = true → s.rd BFL_STATUS_STATE ≠ 2 → s.sel.ok b = true →
      ∃ t : State, exec (.bflActivate q) s = .next (t.finishCmd q stOk (s.sel.seqNo + 1))
        ∧ t.sel = { s.sel with active := b, trial := true, boots := 0, seqNo := s.sel.seqNo + 1 } ∧ raisedIn s t 4 2)
    ∧ (s.blockRuns q c 4 0 0x43 false → s.bflZero c false = true → s.rd BFL_STATUS_STATE = 2 →
      exec (.bflActivate q) s = .next ((s.running q).finishCmd q 0x40 0))
    ∧ (s.blockRuns q c 4 0 0x44 false → s.bflZero c false = true →
      ∃ t : State, exec (.bflSave q) s = .next (t.finishCmd q stOk savedCount) ∧ t.boot.saved = (s.running q).selfSeal.regs.filter (fun e => savedKey e.1)
        ∧ t.boot.savedAddrs = s.addrs.filter (fun e => decide (e.1 % 8 < 4)) ∧ t.flagged 4 8 = true)
    ∧ (s.blockRuns q c 4 0 0x45 false → s.bflZero c false = true →
      ∃ t : State, exec (.bflForget q) s = .next (t.finishCmd q stOk 0) ∧ t.boot = { s.boot with saved := [], savedAddrs := [] } ∧ raisedIn s t 4 8)

/-- The interrupt condition of a page and its messages (R53, R54). When flags of PG_EVT make the condition rise, one message leaves, on
vector (VECTOR + (i mod 2^SPREAD)) mod 64 of the page's block; while it stays at 1 further flags send nothing; a write of PG_EVT or
PG_EVT_EN that leaves it at 1 sends one more; a message for a masked vector sets its pending bit instead, and leaves when the vector is
unmasked. -/
def Obligations.InterruptMessages : Prop :=
  ∀ (s : State) (page : Nat) (mask : Word64) (b i : Nat), blockOf page = some (b, i) → s.pcieUp = true →
    let v := (s.rd GLB_IRQ_ROUTE_VECTOR 0 (8 * b) + i % 2 ^ s.rd GLB_IRQ_ROUTE_SPREAD 0 (8 * b)) % 64
    let after := (s.reg (regKey page 0x20) ||| mask) &&& s.reg (regKey page 0x28)
    (s.irqCond page = true ↔ s.reg (regKey page 0x20) &&& s.reg (regKey page 0x28) ≠ 0)
    ∧ (s.irqCond page = false → after ≠ 0 → s.msixMask.getLsbD v = false → (s.setFlags page mask).out = .msix v :: s.out ∧ (s.setFlags page mask).msixPend = s.msixPend)
    ∧ (s.irqCond page = false → after ≠ 0 → s.msixMask.getLsbD v = true → (s.setFlags page mask).out = s.out ∧ (s.setFlags page mask).msixPend.getLsbD v = true)
    ∧ (s.irqCond page = true ∨ after = 0 → (s.setFlags page mask).out = s.out ∧ (s.setFlags page mask).msixPend = s.msixPend)
    ∧ (page < 1024 → isCounterPage page = false → s.hidden false page = false → s.msixMask.getLsbD v = false →
      (s.reg (regKey page 0x20) &&& ~~~mask) &&& s.reg (regKey page 0x28) ≠ 0 →
        ∃ t : State, exec (.pgEvtClear page mask) s = .next t.settle ∧ t.out = .msix v :: s.out)
    ∧ (page < 1024 → isCounterPage page = false → s.hidden false page = false → s.msixMask.getLsbD v = false →
      s.reg (regKey page 0x20) &&& (mask &&& evtMask page) ≠ 0 →
        ∃ t : State, exec (.pgEvtEnWrite page mask) s = .next t.settle ∧ t.out = .msix v :: s.out)
    ∧ (s.msixMask.getLsbD v = true → s.msixPend.getLsbD v = true → ∃ t : State, exec (.msixUnmask v) s = .next t ∧ Out.msix v ∈ t.out ∧ t.msixPend.getLsbD v = false)

/-- The damper's four thresholds must satisfy HALF_OFF < HALF_ON ≤ SHUT_OFF < SHUT_ON ≤ 64, and HOLD_US must not be 0 (R87): a write that
breaks a condition leaves the register as it is and raises BAD_CONFIG. -/
def Obligations.DamperThresholdsChecked : Prop :=
  ∀ (s : State) (v : Word64), s.hidden false 8 = false → s.frozenBy 8 = 0 →
    (¬(HTH_DMP_THRESH_HALF_OFF.of v < HTH_DMP_THRESH_HALF_ON.of v ∧ HTH_DMP_THRESH_HALF_ON.of v ≤ HTH_DMP_THRESH_SHUT_OFF.of v
        ∧ HTH_DMP_THRESH_SHUT_OFF.of v < HTH_DMP_THRESH_SHUT_ON.of v ∧ HTH_DMP_THRESH_SHUT_ON.of v ≤ 64) ∨ HTH_DMP_THRESH_HOLD_US.of v = 0 →
      ∃ t : State, exec (.registerWrite (regKey 8 0x158) 8 ⟨v, []⟩) s = .next t.settle ∧ t.reg (regKey 8 0x158) = s.reg (regKey 8 0x158) ∧ t.flagged 8 9 = true
        ∧ regsKept s t ([regKey 0 0x300, regKey 0 0x20, regKey 0 0x18] ++ evRegs 8))
    ∧ (HTH_DMP_THRESH_HALF_OFF.of v < HTH_DMP_THRESH_HALF_ON.of v → HTH_DMP_THRESH_HALF_ON.of v ≤ HTH_DMP_THRESH_SHUT_OFF.of v →
      HTH_DMP_THRESH_SHUT_OFF.of v < HTH_DMP_THRESH_SHUT_ON.of v → HTH_DMP_THRESH_SHUT_ON.of v ≤ 64 → HTH_DMP_THRESH_HOLD_US.of v ≠ 0 →
      ∃ t : State, exec (.registerWrite (regKey 8 0x158) 8 ⟨v, []⟩) s = .next t.settle
        ∧ (∀ f ∈ [HTH_DMP_THRESH_HALF_OFF, HTH_DMP_THRESH_HALF_ON, HTH_DMP_THRESH_SHUT_OFF, HTH_DMP_THRESH_SHUT_ON, HTH_DMP_THRESH_HOLD_US], t.rd f = f.of v)
        ∧ regsKept s t [regKey 8 0x158, regKey 8 0x38] ∧ t = { s with regs := t.regs })

/-- HPT.MODE is written only while the port's EN is 0 (R119): a write while EN is 1, one that sets FEC, MEDIA or SPEED to 3 and one that
sets RS544_INNER without AUI is ignored and recorded in GLB.ACCESS_ERR with CAUSE REFUSED. -/
def Obligations.PortModeChecked : Prop :=
  ∀ (s : State) (p : Nat) (v : Word64), p < 96 → s.hidden false (0x100 + p) = false → s.frozenBy (0x100 + p) = 0 → s.rd GLB_ACCESS_ERR_VALID = 0 →
    (s.rd PG_CTRL_EN (0x100 + p) = 1 ∨ HPT_MODE_FEC.of v = 3 ∨ HPT_MODE_MEDIA.of v = 3 ∨ HPT_MODE_SPEED.of v = 3 ∨ (HPT_MODE_FEC.of v = 1 ∧ HPT_MODE_MEDIA.of v ≠ 2)) →
    ∃ t : State, exec (.registerWrite (regKey (0x100 + p) 0x100) 8 ⟨v, []⟩) s = .next t.settle ∧ t.reg (regKey (0x100 + p) 0x100) = s.reg (regKey (0x100 + p) 0x100)
      ∧ t.rd GLB_ACCESS_ERR_VALID = 1 ∧ t.rd GLB_ACCESS_ERR_CAUSE = 5 ∧ t.rd GLB_ACCESS_ERR_WRITE = 1 ∧ raisedIn s t 0 0
      ∧ regsKept s t (regKey 0 0x300 :: evRegs 0)

/-- A control core that halts (R430): it reads HALTED with no role, CORE_HALTED is raised; where another core can take over, the lowest
HOUSEKEEPING core, else the highest CONNECTION core takes the lost role and ROLE_MOVED is raised. One that reads an uncorrectable
scratchpad word has it counted and recorded first (R438); one whose access no region of its own admits is recorded with cause REGION (R435); a
misaligned atomic is recorded and does nothing, and an access that is admitted reads, writes, adds or swaps its word (R434). An access to a bank
that is asleep or waking, or to the segment under a preserving test, waits (R436, R437).
The scratchpad's march tests and retention (R436, R437, R438). A test started by the steward marks its bank and begins at its first
segment; each segment counts; at the end the bank is ACTIVE and the result PASS, or FAILED with its event; a bank that RET_EN names
enters retention once it has not been used for IDLE_US, and a wake makes it ACTIVE, is counted unless it was waking, and lets what waits for it
go on. -/
def Obligations.CoreAndScratchpad : Prop :=
(∀ (s : State) (k : Nat), k < 16 → s.coreSt k = 1 →
    (∀ addr, ∃ t u : State, exec (.coreHalted k .exception addr) s = .next u ∧ t.coreSt k = 2 ∧ t.coreRole k = 0
      ∧ raisedIn s t 0x12 0 ∧ regsKept s t (regKey 0x12 0x100 :: regKey 0x12 0x108 :: evRegs 0x12) ∧ restKept s t
      ∧ (t.moveRole (s.coreRole k)).regs = u.regs
      ∧ (∀ j, t.replacement = some j → j < 16 → t.coreRole j ≠ s.coreRole k → u.coreRole j = s.coreRole k ∧ u.flagged 0x12 1 = true))
    ∧ (∀ addr, ∃ u : State, exec (.coreHalted k .uncorrectable addr) s = .next u ∧ u.coreSt k = 2
      ∧ u.reg (regKey 5 0x120) = pack [(60, 3), (48, k), (0, addr % 2 ^ 26)] ∧ u.flagged 5 2 = true ∧ u.flagged 0x12 0 = true)
    ∧ (∀ addr a, s.spWaits addr = true →
      ∃ u : State, exec (.coreHalted k (.access a) addr) s = .next u ∧ u.ccx = { s.ccx with spWait := s.ccx.spWait ++ [(k, addr, a)] } ∧ u.evInbox = s.evInbox
        ∧ regsKept s u [regKey 5 0x100, SPB_ECC_WAKES.key]
        ∧ (addr < 2 ^ 26 → s.bankSt (addr / 2 ^ 22) = 2 ∨ s.bankSt (addr / 2 ^ 22) = 3 → u.bankSt (addr / 2 ^ 22) = 3
          ∧ u.rd SPB_ECC_WAKES = min (2 ^ (SPB_ECC_WAKES.hi + 1 - SPB_ECC_WAKES.lo) - 1) (s.rd SPB_ECC_WAKES + 1)))
    ∧ (∀ addr a, s.spWaits addr = false → s.spAdmits k addr a = false →
      ∃ u : State, exec (.coreHalted k (.access a) addr) s = .next u ∧ u.coreSt k = 2
        ∧ u.reg (regKey 5 0x120) = pack [(60, 1), (48, k), (0, addr % 2 ^ 26)] ∧ u.flagged 5 0 = true ∧ u.flagged 0x12 0 = true)
    ∧ (∀ addr a, s.spWaits addr = false → s.spAdmits k addr a = true → spMisaligned addr a = true →
      ∃ u : State, exec (.coreHalted k (.access a) addr) s = .next u ∧ u.reg (regKey 5 0x120) = pack [(60, 2), (48, k), (0, addr % 2 ^ 26)]
        ∧ regsKept s u [regKey 5 0x120] ∧ u = { s with regs := u.regs, ccx := { s.ccx with spUsed := NMap.put 0 s.ccx.spUsed (addr / 2 ^ 22) s.mono } })
    ∧ (∀ addr a, s.spWaits addr = false → s.spAdmits k addr a = true → spMisaligned addr a = false →
      let old := NMap.getD s.ccx.spad (addr / 8) 0
      let x := { s.ccx with spUsed := NMap.put 0 s.ccx.spUsed (addr / 2 ^ 22) s.mono }
      exec (.coreHalted k (.access a) addr) s = .next { s with ccx := (match a with
        | .read => x
        | .write v => { x with spad := NMap.put 0 s.ccx.spad (addr / 8) v }
        | .add v => { x with spad := NMap.put 0 s.ccx.spad (addr / 8) (old + v) }
        | .swap v => { x with spad := NMap.put 0 s.ccx.spad (addr / 8) v }) }))
  ∧ (∀ (s : State) (b : Nat), b < 16 →
    (s.hidden false 5 = false → s.ccx.march = none → s.bankSt b = 1 →
      ∃ t : State, exec (.marchTest b) s = .next t ∧ t.ccx.march = some (b, 0, s.rd SPB_MARCH_MODE == 1, true) ∧ t.bankSt b = 4
        ∧ t.rd SPB_MARCH_GO = 1 ∧ t.rd SPB_MARCH_SEGMENTS = 0 ∧ t.rd SPB_MARCH_BANK = b ∧ t.rd SPB_MARCH_MODE = s.rd SPB_MARCH_MODE
        ∧ t.rd PG_STAT_BUSY 5 = 1
        ∧ regsKept s t [SPB_MARCH_GO.key, regKey 5 0x100, regKey 5 0x18] ∧ t = { s with regs := t.regs, ccx := { s.ccx with march := t.ccx.march } })
    ∧ (∀ n st, s.ccx.march = some (b, n, false, st) → n < 1024 →
      ∃ t : State, exec (.marchSegmentDone b) s = .next (t.spGo b) ∧ (s.ccx.spWait = [] → t.spGo b = t) ∧ t.ccx.march = some (b, n + 1, false, st) ∧ t.rd SPB_MARCH_SEGMENTS = n + 1
        ∧ regsKept s t [SPB_MARCH_SEGMENTS.key] ∧ t = { s with regs := t.regs, ccx := { s.ccx with march := t.ccx.march } })
    ∧ (∀ n d st, s.ccx.march = some (b, n, d, st) → s.ccx.spWait = [] →
      (∃ t : State, exec (.marchDone b false) s = .next t ∧ t.ccx.march = none ∧ t.rd SPB_MARCH_GO = 0 ∧ t.rd SPB_MARCH_RESULT = 1 ∧ t.bankSt b = 1
        ∧ (st = true → raisedIn s t 5 3) ∧ regsKept s t (SPB_MARCH_GO.key :: regKey 5 0x100 :: evRegs 5))
      ∧ (∃ t : State, exec (.marchDone b true) s = .next t ∧ t.ccx.march = none ∧ t.rd SPB_MARCH_GO = 0 ∧ t.rd SPB_MARCH_RESULT = 2 ∧ t.bankSt b = 5
        ∧ t.flagged 5 1 = true))
    ∧ (8 ≤ b → (s.rd SPB_RET_CFG_RET_EN / 2 ^ b) % 2 = 1 → s.bankSt b = 1 →
      ∃ t : State, exec (.retentionEntry b) s = .next t ∧ t.bankSt b = 2 ∧ (∀ c, c < 16 → c ≠ b → t.bankSt c = s.bankSt c)
        ∧ regsKept s t [regKey 5 0x100] ∧ t.mono = max s.mono (NMap.getD s.ccx.spUsed b 0 + s.rd SPB_RET_CFG_IDLE_US * 1000)
        ∧ t = { s with regs := t.regs, mono := t.mono, link := { s.link with slewPs := t.link.slewPs } })
    ∧ (s.bankSt b = 2 ∨ s.bankSt b = 3 →
      ∃ t : State, exec (.retentionWake b) s = .next (t.spGo b) ∧ t.bankSt b = 1
        ∧ t.rd SPB_ECC_WAKES = (if s.bankSt b = 2 then min (2 ^ (SPB_ECC_WAKES.hi + 1 - SPB_ECC_WAKES.lo) - 1) (s.rd SPB_ECC_WAKES + 1) else s.rd SPB_ECC_WAKES)
        ∧ (s.ccx.spWait = [] → t.spGo b = t)
        ∧ (∀ k addr a, s.ccx.spWait = [(k, addr, a)] → addr / 2 ^ 22 = b → s.ccx.march = none → t.spGo b = ({ t with ccx := { t.ccx with spWait := [] } } : State).spPerform k addr a)
        ∧ regsKept s t [regKey 5 0x100, SPB_ECC_WAKES.key] ∧ t = { s with regs := t.regs }))

/-- The SPI target (R439, R440, R441): a write reaches a page the BMC may write and is denied on another; a read answers the register with
VALID, or NOT_VALID and data 0 where the value is late; an undefined command sets BADOP; a released select aborts the frame.
The SMBus target (R442): four bytes set the offset; a read of nine bytes answers the register there, low byte first, and the status;
twelve bytes write a register of a page the BMC may write; a missing PEC, where it is required, discards the write; a time-out releases
the bus; every failure is counted and sets its flag. -/
def Obligations.BoardTargets : Prop :=
(∀ (s : State) (cmd : BitVec 32) (v : Word64),
    let addr := cmd.toNat % 2 ^ 26
    (spiOk 2 cmd = true → s.bmcMayWrite addr = true → exec (.spiWrite cmd v false) s = .next (s.busWrite addr 8 v true).settle)
    ∧ (spiOk 2 cmd = true → s.bmcMayWrite addr = false →
      ∃ t : State, exec (.spiWrite cmd v false) s = .next t.settle ∧ t.rd MGI_SPI_ERR_DENIED = 1 ∧ regsKept s t [MGI_SPI_ERR_DENIED.key] ∧ t = { s with regs := t.regs })
    ∧ (spiOk 1 cmd = true → mapped (pageOf addr) = true →
      exec (.spiRead cmd true false) s = .next ((s.busRead addr 8 true).2.emit (.spi 0xA5 (s.busRead addr 8 true).1)))
    ∧ (spiOk 1 cmd = true → mapped (pageOf addr) = true →
      ∃ t : State, exec (.spiRead cmd false false) s = .next t ∧ t.out = .spi 0x5A 0 :: s.out ∧ t.rd MGI_SPI_ERR_LATE = 1
        ∧ regsKept s t [MGI_SPI_ERR_LATE.key] ∧ t = { s with regs := t.regs, out := t.out })
    ∧ (spiOk 2 cmd = false → s.rd MGI_SPI_ERR_BADOP = 0 →
      ∃ t : State, exec (.spiWrite cmd v false) s = .next t ∧ t.rd MGI_SPI_ERR_BADOP = 1 ∧ raisedIn s t 0xF 0
        ∧ regsKept s t (MGI_SPI_ERR_BADOP.key :: evRegs 0xF) ∧ restKept s t)
    ∧ (s.rd MGI_SPI_ERR_FRAG = 0 →
      ∃ t : State, exec .spiSelectRelease s = .next t ∧ t.rd MGI_SPI_ERR_FRAG = 1 ∧ raisedIn s t 0xF 0
        ∧ regsKept s t (MGI_SPI_ERR_FRAG.key :: MGI_SPI_ERR_FRAG_COUNT.key :: evRegs 0xF) ∧ restKept s t))
  ∧ (∀ (s : State) (bs : List Byte),
    (bs.length = 4 → leNat bs % 8 = 0 → exec (.setOffset bs true) s = .next { s with ccx := { s.ccx with smbOff := leNat bs } })
    ∧ (s.rd MGI_SMB_CFG_PEC_REQ = 1 → s.rd MGI_SMB_ERR_PEC = 0 →
      ∃ t : State, exec (.setOffset bs false) s = .next t ∧ t.rd MGI_SMB_ERR_PEC = 1 ∧ raisedIn s t 0xF 1
        ∧ t.rd MGI_SMB_ERR_COUNT = min (2 ^ (MGI_SMB_ERR_COUNT.hi + 1 - MGI_SMB_ERR_COUNT.lo) - 1) (s.rd MGI_SMB_ERR_COUNT + 1)
        ∧ regsKept s t (MGI_SMB_ERR_PEC.key :: MGI_SMB_ERR_COUNT.key :: evRegs 0xF) ∧ restKept s t)
    ∧ (mapped (pageOf s.ccx.smbOff) = true →
      exec (.read 9) s = .next ((s.busRead s.ccx.smbOff 8 true).2.emit (.smbus (toLe 8 (s.busRead s.ccx.smbOff 8 true).1.toNat ++ [(0xA5 : Byte)]))))
    ∧ (bs.length = 12 → leNat (bs.take 4) % 8 = 0 → s.bmcMayWrite (leNat (bs.take 4)) = true →
      exec (.write bs true) s = .next (s.busWrite (leNat (bs.take 4)) 8 (BitVec.ofNat 64 (leNat (bs.drop 4))) true).settle)
    ∧ (s.rd MGI_SMB_ERR_TIMEOUT = 0 →
      ∃ t : State, exec .smbusTimeout s = .next t ∧ t.rd MGI_SMB_ERR_TIMEOUT = 1 ∧ raisedIn s t 0xF 1
        ∧ regsKept s t (MGI_SMB_ERR_TIMEOUT.key :: MGI_SMB_ERR_COUNT.key :: evRegs 0xF) ∧ restKept s t))

/-- Board buses, JTAG and the steward link (R444 to R447). An in-band interrupt marks its device; IDCODE answers the code of the device;
with TEST_MODE low any instruction but BYPASS, IDCODE and SAMPLE/PRELOAD acts as BYPASS and is reported; the link that comes up reports
its generation and width, and raises PCIE_DEGRADED below ×8 Gen5; one that goes down reports 0 and raises PCIE_DOWN. -/
def Obligations.BoardAndStewardLink : Prop :=
  ∀ (s : State),
    (∀ d, d < 64 → ∃ t : State, exec (.i3cIbi d) s = .next t ∧ bit (wordAt (NMap.getD t.ccx.i3c d []) 1) 9 = true
      ∧ (∀ e, e ≠ d → NMap.getD t.ccx.i3c e [] = NMap.getD s.ccx.i3c e []) ∧ t = { s with freeNext := t.freeNext, ccx := { s.ccx with i3c := t.ccx.i3c } })
    ∧ exec (.jtagInstruction .idcode) s = .next (s.emit (.jtag idcode))
    ∧ (∀ i, jtagFree i = false →
      ∃ t : State, exec (.jtagInstruction i) s = .next t ∧ (∃ l, t.out = .jtag 0 :: l) ∧ regsKept s t (MGI_JTAG_STAT_REFUSED.key :: evRegs 0xF) ∧ restKept s t
        ∧ (Config.testMode = true ∧ t = s.emit (.jtag 0) ∨ Config.testMode = false ∧ t.rd MGI_JTAG_STAT_REFUSED = 1 ∧ raisedIn s t 0xF 4))
    ∧ (∀ gen width, s.pwr.off = false → 5 ≤ s.rd GLB_START_STAT_PHASE → 1 ≤ gen → gen ≤ 5 → width ∈ [1, 2, 4, 8] →
      ∃ t : State, exec (.pcieLinkUp gen width) s = .next t.msixFlush ∧ t.pcieUp = true ∧ t.rd MGI_PCIE_STAT_UP = 1 ∧ t.rd MGI_PCIE_STAT_GEN = gen
        ∧ t.rd MGI_PCIE_STAT_WIDTH = width ∧ (gen < 5 ∨ width < 8 → raisedIn s t 0xF 6) ∧ regsKept s t (MGI_PCIE_STAT_UP.key :: evRegs 0xF))
    ∧ (s.pcieUp = true →
      ∃ t : State, exec .pcieDown s = .next t ∧ t.pcieUp = false ∧ t.rd MGI_PCIE_STAT_UP = 0 ∧ t.rd MGI_PCIE_STAT_GEN = 0 ∧ t.rd MGI_PCIE_STAT_WIDTH = 0
        ∧ t.rd MGI_PCIE_STAT_DOWN_COUNT = (s.rd MGI_PCIE_STAT_DOWN_COUNT + 1) % 2 ^ 32 ∧ raisedIn s t 0xF 5 ∧ regsKept s t (MGI_PCIE_STAT_UP.key :: evRegs 0xF))

/-- A raised event reaches the recorder (R449, R450, R452, R453). Where no open record takes it in, it becomes a record with the next SEQ, which
stays open; one that merges raises REPEAT of that record and makes none. With nothing on its way nothing happens.
A full ring (R454): a new record overwrites the one with the lowest SEQ among those whose severity is at most its own, and the record it
overwrites is counted by its severity; where every record is of a higher severity, the new one is refused and counted in DROPPED.
Freezing the ring (R453, R455). FREEZE closes every open record and sets FROZEN; FREEZE_RELEASE, or FREEZE_MS of time, ends it: the
held records enter the ring, closed and with HELD; an expiry raises FREEZE_EXPIRED. RECORD_CLOSE closes the open records of the earliest TIME. -/
def Obligations.EventRing : Prop :=
(∀ (s : State),
    (s.evInbox = [] → exec .eventRecord s = .next s)
    ∧ (∀ e es, s.evInbox = e :: es → s.mergeTarget e = none → s.rec_.frozenAt = none → s.rec_.ring.length < 4096 →
      let n := s.rec_.seqNo
      let r : EvRec := { time := e.time, code := e.code, inst := e.inst, sev := e.sev, test := e.test, seqNo := n, arg := e.arg }
      ∃ t : State, exec .eventRecord s = .next t ∧ t.evInbox = es ∧ t.rec_ = { s.rec_ with ring := NMap.insert s.rec_.ring s.rec_.ring.length r, seqNo := n + 1, open_ := t.rec_.open_ }
        ∧ n ∈ t.rec_.open_ ∧ t.rec_.open_.length ≤ 16 ∧ t.rd EVR_STAT_NEXT_SEQ = (n + 1) % 2 ^ 32
        ∧ regsKept s t [EVR_STAT_NEXT_SEQ.key, EVR_STAT_COUNT.key, EVR_STAT_OLDEST.key, EVR_FREEZE_HELD.key] ∧ t = { s with regs := t.regs, evInbox := es, rec_ := t.rec_ })
    ∧ (∀ e es, s.evInbox = e :: es → s.mergeTarget e = none → s.rec_.frozenAt.isSome = true → s.rec_.hold.length < 256 →
      ∃ t : State, exec .eventRecord s = .next t ∧ t.rec_.ring = s.rec_.ring ∧ t.rec_.seqNo = s.rec_.seqNo + 1
        ∧ t.rec_.hold = s.rec_.hold ++ [{ time := e.time, code := e.code, inst := e.inst, sev := e.sev, test := e.test, seqNo := s.rec_.seqNo, arg := e.arg }])
    ∧ (∀ e es r, s.evInbox = e :: es → s.mergeTarget e = some r →
      ∃ t : State, exec .eventRecord s = .next t ∧ t.rec_.seqNo = s.rec_.seqNo ∧ t.rec_.open_ = s.rec_.open_ ∧ t.evInbox = es
        ∧ t.rec_.ring.map (fun x => (x.1, x.2.seqNo)) = s.rec_.ring.map (fun x => (x.1, x.2.seqNo))
        ∧ (∀ x ∈ t.rec_.ring, x.2.seqNo = r.seqNo → x.2 = { r with repeats := min 0xFFFF (r.repeats + 1), lastUs := min 0xFFFF ((e.time - r.time) / 1000) })
        ∧ (∀ x ∈ t.rec_.ring, x.2.seqNo ≠ r.seqNo → x ∈ s.rec_.ring) ∧ t = { s with evInbox := es, rec_ := t.rec_ }))
  ∧ (∀ (s : State) (r : EvRec), 4096 ≤ s.rec_.ring.length →
    ((∀ x ∈ s.rec_.ring, r.sev < x.2.sev) → (s.ringPut r).rec_ = s.rec_ ∧ (s.ringPut r).rd EVR_LOST_DROPPED = min 0xFFFF (s.rd EVR_LOST_DROPPED + 1)
      ∧ regsKept s (s.ringPut r) [EVR_LOST_DROPPED.key])
    ∧ ((∃ x ∈ s.rec_.ring, x.2.sev ≤ r.sev) → ∃ k old, (k, old) ∈ s.rec_.ring ∧ old.sev ≤ r.sev ∧ (∀ x ∈ s.rec_.ring, x.2.sev ≤ r.sev → old.seqNo ≤ x.2.seqNo)
      ∧ (s.ringPut r).rec_.ring = NMap.insert s.rec_.ring k r
      ∧ (old.sev = 0 → (s.ringPut r).rd EVR_LOST_INFO = min 0xFFFF (s.rd EVR_LOST_INFO + 1))
      ∧ (old.sev = 1 → (s.ringPut r).rd EVR_LOST_NOTICE = min 0xFFFF (s.rd EVR_LOST_NOTICE + 1))
      ∧ (2 ≤ old.sev → (s.ringPut r).rd EVR_LOST_HIGH = min 0xFFFF (s.rd EVR_LOST_HIGH + 1))))
  ∧ (∀ (s : State),
    (s.hidden false 3 = false → s.rec_.frozenAt = none →
      ∃ t : State, exec .freeze s = .next t ∧ t.rec_ = { s.rec_ with frozenAt := some s.mono, open_ := [] } ∧ t.rd EVR_FREEZE_FROZEN = 1
        ∧ regsKept s t [EVR_FREEZE_FROZEN.key] ∧ t = { s with regs := t.regs, rec_ := t.rec_ })
    ∧ (∀ t0, s.hidden false 3 = false → s.rec_.frozenAt = some t0 →
      ∃ t : State, exec .freezeRelease s = .next t ∧ t.rec_.frozenAt = none ∧ t.rec_.hold = [] ∧ t.rec_.open_ = [] ∧ t.rec_.seqNo = s.rec_.seqNo ∧ t.rd EVR_FREEZE_FROZEN = 0
        ∧ (s.rec_.hold = [] → t.rec_.ring = s.rec_.ring ∧ t.evInbox = s.evInbox)
        ∧ (∀ r, s.rec_.hold = [r] → s.rec_.ring.length < 4096 → t.rec_.ring = NMap.insert s.rec_.ring s.rec_.ring.length { r with held := true }))
    ∧ (∀ t0, s.rec_.frozenAt = some t0 →
      ∃ t : State, exec .freezeExpired s = .next t ∧ t.rec_.frozenAt = none ∧ t.rec_.hold = [] ∧ t.mono = max s.mono (t0 + s.rd EVR_CFG_FREEZE_MS * 1000000)
        ∧ t.flagged 3 0 = true ∧ (s.rec_.hold = [] → raisedIn s t 3 0 ∧ t.rec_.ring = s.rec_.ring))
    ∧ (s.openRecs ≠ [] →
      ∃ t : State, exec .recordClose s = .next t ∧ s.mono ≤ t.mono
        ∧ (∀ n, n ∈ t.rec_.open_ ↔ n ∈ s.rec_.open_ ∧ ∀ x ∈ s.openRecs, x.seqNo = n → ∃ y ∈ s.openRecs, y.time < x.time)
        ∧ t.rec_.ring = s.rec_.ring ∧ t.rec_.hold = s.rec_.hold ∧ t.regs = s.regs))

/-- The export rings (R457, R467, R469). A closed record, or a sample, is copied to TAIL, which moves on by one; one message follows the
batch on VECTOR; nothing is copied while export is off or the steward link is down, a sample neither at damper level SHUT nor while HTH's EN is 0, nor into a full
ring: a sample ring that stays full for
1 ms raises EXPORT_STALL. A write of HEAD frees entries.
The performance counters (R461, R462): SNAP copies every counter in one moment and notes TB_NS; CLEAR sets every EVENT counter to 0 and
leaves MIRROR counters. And the read of an ember slot (R460): the first LENGTH bytes go to the data buffer. -/
def Obligations.ExportAndCounters : Prop :=
(∀ (s : State),
    (s.rd EVR_EXP_CTRL_EN = 0 ∨ s.pcieUp = false → exec .eventExport s = .next s)
    ∧ (∀ r, s.rd EVR_EXP_CTRL_EN = 1 → s.pcieUp = true → sortRecs (s.rec_.ring.map Prod.snd) = [r] → s.rec_.expAt ≤ r.seqNo → r.seqNo ∉ s.rec_.open_ →
      s.rd EVR_EXP_CTRL_MIN_SEV ≤ r.sev → s.expRoom = true → s.rec_.msgAt = none → s.msixMask.getLsbD (s.rd EVR_EXP_CTRL_VECTOR) = false →
      let tail := s.rd EVR_EXP_PTR_TAIL
      ∃ t : State, exec .eventExport s = .next t ∧ t.rd EVR_EXP_PTR_TAIL = (tail + 1) % 2 ^ s.rd EVR_EXP_CTRL_SIZE ∧ t.rec_.expAt = r.seqNo + 1 ∧ t.rec_.msgAt = some s.mono
        ∧ t.out = .msix (s.rd EVR_EXP_CTRL_VECTOR) :: .dma (BitVec.ofNat 64 (s.rd EVR_EXP_BASE_ADDR * 4096 + 32 * tail)) r.words :: s.out
        ∧ t.rec_.ring = s.rec_.ring ∧ regsKept s t [EVR_EXP_PTR_TAIL.key])
    ∧ (s.rd SMP_EXP_CTRL_EN = 0 ∨ s.pcieUp = false ∨ s.dur.flush.isSome = true ∨ s.hearth.level = 2 ∨ s.rd PG_CTRL_EN 8 = 0 → exec .sampleExport s = .next s)
    ∧ (∀ x, s.rd SMP_EXP_CTRL_EN = 1 → s.pcieUp = true → s.dur.flush = none → s.hearth.level ≠ 2 → s.rd PG_CTRL_EN 8 = 1 → s.smp.buf = [x] → s.smpExpRoom = true → s.rd SMP_EXP_CTRL_SIZE ≤ 20 → s.smp.msgAt = none →
      s.msixMask.getLsbD (s.rd SMP_EXP_CTRL_VECTOR) = false →
      let tail := s.rd SMP_EXP_PTR_TAIL
      ∃ t : State, exec .sampleExport s = .next t ∧ t.rd SMP_EXP_PTR_TAIL = (tail + 1) % 2 ^ s.rd SMP_EXP_CTRL_SIZE ∧ t.smp.buf = [] ∧ t.smp.msgAt = some s.mono
        ∧ t.out = .msix (s.rd SMP_EXP_CTRL_VECTOR) :: .dma (BitVec.ofNat 64 (s.rd SMP_EXP_BASE_ADDR * 4096 + 64 * tail)) x :: s.out
        ∧ regsKept s t [SMP_EXP_PTR_TAIL.key])
    ∧ (∀ t0, s.rd SMP_EXP_CTRL_EN = 1 → s.pcieUp = true → s.dur.flush = none → s.hearth.level ≠ 2 → s.rd PG_CTRL_EN 8 = 1 → s.smpExpRoom = false → s.smp.stallSince = some t0 → s.smp.stallSaid = false → t0 + 1000000 ≤ s.mono →
      ∃ t : State, exec .sampleExport s = .next t ∧ raisedIn s t 0xE 1 ∧ t.smp = { s.smp with stallSaid := true } ∧ regsKept s t (evRegs 0xE))
    ∧ (∀ head, s.hidden false 3 = false → ∃ t : State, exec (.expHeadWrite false head) s = .next t ∧ t.rd EVR_EXP_PTR_HEAD = head % 2 ^ 16 ∧ t.rd EVR_EXP_PTR_TAIL = s.rd EVR_EXP_PTR_TAIL
        ∧ regsKept s t [EVR_EXP_PTR_HEAD.key] ∧ t = { s with regs := t.regs })
    ∧ (∀ head, s.hidden false 0xE = false → ∃ t : State, exec (.expHeadWrite true head) s = .next t ∧ t.rd SMP_EXP_PTR_HEAD = head % 2 ^ 20 ∧ t.rd SMP_EXP_PTR_TAIL = s.rd SMP_EXP_PTR_TAIL
        ∧ regsKept s t [SMP_EXP_PTR_HEAD.key] ∧ t = { s with regs := t.regs }))
  ∧ (∀ (s : State),
    (s.hidden false 0xD = false → s.frozenBy 0xD = 0 →
      (∃ t : State, exec .snap s = .next t ∧ (∀ n w, (n, w) ∈ s.pmu.select → NMap.getD t.pmu.snap n 0 = s.pmuLive n) ∧ t.reg (regKey 0xD 0x108) = BitVec.ofNat 64 s.tb
        ∧ t.pmu.live = s.pmu.live ∧ t.pmu.select = s.pmu.select ∧ regsKept s t [regKey 0xD 0x108] ∧ t = { s with regs := t.regs, pmu := t.pmu })
      ∧ (∃ t : State, exec .clear s = .next t ∧ (∀ n, NMap.getD t.pmu.live n 0 = if bits (NMap.getD s.pmu.select n 0) 1 0 = 2 then NMap.getD s.pmu.live n 0 else 0)
        ∧ t.pmu.select = s.pmu.select ∧ t.regs = s.regs ∧ t = { s with pmu := t.pmu }))
    ∧ (∀ q c, s.blockRuns q c 3 0 0x40 false → c.w1 = 0 → c.count = 0 → c.table = 0 → c.w6 = 0 → bits c.w5 63 4 = 0 → 4096 ≤ c.length → c.length ≤ 262144 →
      let x : EmberSlot := (NMap.find s.boot.embers (bits c.w5 3 0)).getD {}
      exec (.evrEmberRead q) s = .next (if s.pcieUp then ((s.running q).emit (.dmaBytes c.w2 (x.bytes c.length))).finishCmd q stOk c.length
        else (s.running q).finishCmd q stDmaError 0)))

/-- Fills and write-backs of the cache (R97 to R102). SET_STALL raises SET_STALL once for an access of the set that waits for a victim; a
fill makes its way CLEAN with the line's value, frees its miss register and lets the accesses it held go on; a flue entry whose write
ends is in its frame and leaves the flue.
HCA_FLUSH and HCA_INVALIDATE (R112, R113): the command takes the lines of its range and filter that are valid when it starts, and goes
on over them; a range that is not aligned or leaves the pool ends it with 0x40. Of one line: a CLEAN one that is not pinned is dropped by
an invalidate and left by a flush; one that is being filled waits. -/
def Obligations.HearthCacheWork : Prop :=
(∀ (s : State) (k : Nat),
    let e := s.pte (k / 64)
    (∀ n a, s.dp.parked.find? (fun a => a.wait == .set n && !((s.cache.stallSaid.filter (fun x => (s.dp.parked.map (fun a => a.seqNo)).contains x)).contains a.seqNo)) = some a →
      ∃ t : State, exec (.setStall n) s = .next t ∧ t.mono = max s.mono (a.since + 100000) ∧ raisedIn s t 9 4 ∧ a.seqNo ∈ t.cache.stallSaid ∧ regsKept s t (evRegs 9) ∧ t.dp = s.dp)
    ∧ (∀ n, (∀ a ∈ s.dp.parked, a.wait = .set n → a.seqNo ∈ s.cache.stallSaid) → exec (.setStall n) s = .next s)
    ∧ (∀ m i ecc tw flits, s.cache.mshrs.find? (fun m => m.key == k) = some m → m.way = some i → isPtKey k = false → flits.length < 2 →
      ((s.dramLine e.ch e.idx (k % 64)).poison = true ∨ s.eccAt (4 * dramKey e.ch e.idx (k % 64)) ecc = .good) →
      let d := s.dramLine e.ch e.idx (k % 64)
      ∃ t : State, exec (.fillLands k ⟨ecc, flits⟩ tw) s = .next t.settle ∧ t.wayAt i = some { st := .clean, key := k, owner := m.tenant, data := d.data, poison := d.poison }
        ∧ (∀ r ∈ t.cache.mshrs, r.key ≠ k ∧ r ∈ s.cache.mshrs) ∧ t.dp.parked = m.accs.foldl insertAcc s.dp.parked ∧ t.regs = s.regs ∧ t.tier = s.tier)
    ∧ (∀ m i ecc tw flits, s.cache.mshrs.find? (fun m => m.key == k) = some m → m.way = some i → isPtKey k = true → flits.length < 2 →
      s.eccAt (4 * dramKey (s.ptChannel (k - 2 ^ 42)) (s.sysPlace ((k - 2 ^ 42) / 64)).2 ((k - 2 ^ 42) % 64)) ecc = .good →
      ∃ t : State, exec (.fillLands k ⟨ecc, flits⟩ tw) s = .next t.settle ∧ t.wayAt i = some { st := .clean, key := k, owner := m.tenant, data := 0, poison := false }
        ∧ t.dp.parked = (m.accs.map (fun a => { a with ptOk := true })).foldl insertAcc s.dp.parked
        ∧ (∀ r ∈ t.cache.mshrs, r.key ≠ k ∧ r ∈ s.cache.mshrs) ∧ t.regs = s.regs ∧ t.tier = s.tier)
    ∧ (∀ f, s.cache.flue.find? (fun f => f.key == k && !s.keyMoving k) = some f → isPtKey k = false →
      ∃ t : State, exec (.flueWritebackDone k) s = .next t.settle ∧ t.dramLine e.ch e.idx (k % 64) = ⟨f.data, f.poison⟩ ∧ t.cache = { s.cache with flue := s.cache.flue.erase f }
        ∧ t.regs = s.regs ∧ t.tier.pt = s.tier.pt)
    ∧ (∀ f, s.cache.flue.find? (fun f => f.key == k && !s.keyMoving k) = none → s.cache.writeBacks.find? (fun f => f.key == k) = some f →
      exec (.flueWritebackDone k) s = .next ({ s with cache := { s.cache with writeBacks := s.cache.writeBacks.erase f } } : State).settle))
  ∧ (∀ (s : State) (q : Nat) (c : RqCmd) (inv : Bool),
    (s.blockRuns q c 9 0 (if inv then 0x41 else 0x40) false → c.count = 0 → c.length = 0 → c.table = 0 → bits c.w6 63 10 = 0 →
      (c.index % 64 = 0 → c.w5.toNat % 64 = 0 → c.index < 2 ^ 48 → c.index + c.w5.toNat ≤ 2 ^ 48 →
        let todo := (s.cache.ways.filter (fun e => e.2.st != .detached && cmdMatch c e.2)).map (fun e => e.2.key)
        exec (if inv then .hcaInvalidate q else .hcaFlush q) s
          = .next (({ (s.running q) with cache := { s.cache with cmds := s.cache.cmds ++ [⟨q, inv, todo, [], 0, 0⟩] } } : State).cmdsGo).settle)
      ∧ (c.index % 64 ≠ 0 ∨ c.w5.toNat % 64 ≠ 0 ∨ 2 ^ 48 ≤ c.index ∨ 2 ^ 48 < c.index + c.w5.toNat →
        exec (if inv then .hcaInvalidate q else .hcaFlush q) s = .next ((s.running q).finishCmd q 0x40 0).settle))
    ∧ (∀ (cc : CacheCmd) k i x, s.findWay k = some (i, x) →
      (x.unsealed = none → x.st = .clean → cc.invalidate = false → s.cmdLine cc k = some (s, cc))
      ∧ (x.unsealed = none → x.st = .clean → x.pins = 0 → cc.invalidate = true → s.cmdLine cc k = some (s.freeWay i, { cc with dropped := cc.dropped + 1 }))
      ∧ (x.st = .filling ∨ x.unsealed.isSome = true → s.cmdLine cc k = none)))

/-- Keys brought by commands (R392, R395, R396). CPH_KEK_SET loads slot 0 where it is empty; CPH_KEK_ROLL and CPH_KEY_LOAD unwrap the
key under the KEK: a wrapped key whose check fails leaves the slot, is counted and raises UNWRAP_FAIL, an unusable one ends BAD_KEY, a good one
fills the slot, LOADED, with LOADS one higher and its invocation counter at 0; the command answers the key check value.
CPH_KEY_CLEAR (R395 to R397): a slot whose key nothing uses is emptied and keeps LOADS; a slot of an ACTIVE tenant then gets a fresh key
of the device; a slot in use ends the command with 0x44.
CPH_SEAL and CPH_UNSEAL (R388, R398 to R400). A seal under a slot with a key writes the object of the plaintext under the slot's next
invocation, which it answers beside the object's length; an unseal writes the plaintext, or is counted, raises UNSEAL_FAIL and ends with the check
that failed; without a pipeline the command waits. -/
def Obligations.KeysAndSeals : Prop :=
(∀ (s : State) (q : Nat) (c : RqCmd) (data : List Word64),
    (s.blockRuns q c 6 0 0x40 false → keyCmdZero [32] c = true → c.w5 = 0 → 4 ≤ data.length →
      let k := keyOfBytes (wordsBytes (data.take 4))
      ((s.keySlot 0).st = 0 → k ≠ 0 →
        ∃ t : State, exec (.cphKekSet q data) s = .next (t.finishCmd q stOk (t.keySlot 0).kcv) ∧ t.keySlot 0 = { st := 2, key := k, loads := ((s.keySlot 0).loads + 1) % 2 ^ 32 }
          ∧ (∀ m, m ≠ 0 → t.keySlot m = s.keySlot m) ∧ raisedIn s t 6 0)
      ∧ ((s.keySlot 0).st = 0 → k = 0 → exec (.cphKekSet q data) s = .next ((s.running q).finishCmd q 0x43 0))
      ∧ ((s.keySlot 0).st ≠ 0 → exec (.cphKekSet q data) s = .next ((s.running q).finishCmd q 0x40 0)))
    ∧ (s.blockRuns q c 6 0 0x41 false → keyCmdZero [40] c = true → c.w5 = 0 → (s.keySlot 0).st ≠ 0 → 5 ≤ data.length →
      match s.unwrapKeys ((wordsBytes data).take 40) with
      | none => ∃ t : State, exec (.cphKekRoll q data) s = .next (t.finishCmd q 0x42 0) ∧ t.cph = s.cph ∧ raisedIn s t 6 4
      | some ks => if badKey ks then exec (.cphKekRoll q data) s = .next ((s.running q).finishCmd q 0x43 0)
        else ∃ t : State, exec (.cphKekRoll q data) s = .next (t.finishCmd q stOk (t.keySlot 0).kcv)
          ∧ t.keySlot 0 = { st := 2, key := nth 0 ks 0, key2 := nth 0 ks 1, loads := ((s.keySlot 0).loads + 1) % 2 ^ 32 } ∧ raisedIn s t 6 0)
    ∧ (s.blockRuns q c 6 0 0x42 false → keyCmdZero [40, 72] c = true → (s.keySlot 0).st ≠ 0 → 2 ≤ cmdSlot c → cmdSlot c ≤ 259 → c.length = (if cmdSlot c < 4 then 40 else 72) →
      c.length ≤ 8 * data.length → s.loadOk (cmdSlot c) = true →
      match s.unwrapKeys ((wordsBytes data).take c.length) with
      | none => ∃ t : State, exec (.cphKeyLoad q data) s = .next (t.finishCmd q 0x42 0) ∧ t.cph = s.cph ∧ raisedIn s t 6 4
      | some ks => if badKey ks then exec (.cphKeyLoad q data) s = .next ((s.running q).finishCmd q 0x43 0)
        else ∃ t : State, exec (.cphKeyLoad q data) s = .next (t.finishCmd q stOk (t.keySlot (cmdSlot c)).kcv)
          ∧ t.keySlot (cmdSlot c) = { st := 2, key := nth 0 ks 0, key2 := nth 0 ks 1, loads := ((s.keySlot (cmdSlot c)).loads + 1) % 2 ^ 32 }
          ∧ (∀ m, m ≠ cmdSlot c → t.keySlot m = s.keySlot m) ∧ raisedIn s t 6 1))
  ∧ (∀ (s : State) (q : Nat) (c : RqCmd), s.blockRuns q c 6 0 0x43 false → keyCmdZero [0] c = true → c.w2 = 0 → 1 ≤ cmdSlot c → cmdSlot c ≤ 259 →
    let n := cmdSlot c
    (s.clearOk n = false → exec (.cphKeyClear q) s = .next ((s.running q).finishCmd q 0x44 0))
    ∧ (s.clearOk n = true → n < 4 ∨ (n ≠ 4 ∧ (s.tenant (n - 4)).state ≠ 1) →
      ∃ t : State, exec (.cphKeyClear q) s = .next (t.finishCmd q stOk 0) ∧ t.keySlot n = { loads := (s.keySlot n).loads } ∧ (∀ m, m ≠ n → t.keySlot m = s.keySlot m)
        ∧ raisedIn s t 6 2 ∧ regsKept s t (evRegs 6))
    ∧ (s.clearOk n = true → 4 ≤ n → n = 4 ∨ (s.tenant (n - 4)).state = 1 →
      ∃ t : State, exec (.cphKeyClear q) s = .next (t.finishCmd q stOk 0) ∧ (t.keySlot n).st = 1 ∧ (t.keySlot n).loads = (s.keySlot n).loads
        ∧ (t.keySlot n).key = Config.freeKey s.freeNext ∧ (∀ m, m ≠ n → t.keySlot m = s.keySlot m) ∧ t.flagged 6 2 = true ∧ t.flagged 6 3 = true))
  ∧ (∀ (s : State) (q : Nat) (c : RqCmd) (data : List Byte), c.w1 = 0 → c.count = 0 → bits c.w5 63 1 = 0 →
    let n := sealSlot c
    let k := s.keySlot n
    (s.blockRuns q c 6 0 0x44 false → bits c.w6 5 0 = 0 → s.sealHolds = false → k.st ≠ 0 → k.ivNext < 2 ^ 32 → k.ivNext + 1 ≠ s.rd CPH_IV_CFG_WARN →
      c.length ≤ 1048575 → c.length ≤ data.length → s.pcieUp = true →
      let o := sealObject (keyBytes k.key) n k.ivNext c.w7.toNat (data.take c.length)
      ∃ t : State, exec (.cphSeal q data) s = .next (t.finishCmd q stOk (o.length + k.ivNext * 2 ^ 32)) ∧ t.out = .dmaBytes c.w6 o :: s.out
        ∧ (t.keySlot n).ivNext = k.ivNext + 1 ∧ (t.keySlot n).key = k.key ∧ (∀ m, m ≠ n → t.keySlot m = s.keySlot m) ∧ t.evInbox = s.evInbox)
    ∧ (s.blockRuns q c 6 0 0x44 false → bits c.w6 5 0 = 0 → s.sealHolds = true →
      exec (.cphSeal q data) s = .next { (s.running q) with cph := { s.cph with held := s.cph.held ++ [(q, c, data, s.mono)] } })
    ∧ (s.blockRuns q c 6 0 0x45 false → s.sealHolds = false → k.st ≠ 0 → c.length ≤ 1048704 → c.length ≤ data.length → s.pcieUp = true →
      match unsealObject (keyBytes k.key) n c.w7.toNat (data.take c.length) with
      | .error e => ∃ t : State, exec (.cphUnseal q data) s = .next (t.finishCmd q e 0) ∧ t.cph = s.cph ∧ raisedIn s t 6 7 ∧ t.out.length ≤ s.out.length + 1
      | .ok p => ∃ t : State, exec (.cphUnseal q data) s = .next (t.finishCmd q stOk p.length) ∧ t.cph = s.cph ∧ t.out = .dmaBytes c.w6 p :: s.out)
    ∧ (s.blockRuns q c 6 0 0x45 false → s.sealHolds = true →
      exec (.cphUnseal q data) s = .next { (s.running q) with cph := { s.cph with held := s.cph.held ++ [(q, c, data, s.mono)] } }))

/-- Connection management on QP1 (R142, R143, R145, R186). A REQ that passes admission, path MTU and ring checks gets the lowest free QPN, whose
context is in RTR with the tenant and the host's QPN, and REP; one that does not gets REJ. RTU turns RTR into RTS; DREQ ends a connection with
cause DISCONNECT and is answered by DREP, in ERROR too; DREP, or 1 s in ERROR without it, returns the QP to RESET. -/
def Obligations.ConnectionManagement : Prop :=
  ∀ (s : State) (p : Nat) (c : CmFrame) (w : State),
    (∀ r, s.cmTaken p (fun m => match m with | .req _ => true | _ => false) c w → c.msg = .req r →
      (∀ n t m, w.ownedQps < 65536 → w.freeQpn = some n → (c.src ∈ w.hosts ∨ w.hosts.length < 4096) → w.admits c.src r.privData = some t → w.pathMtu p r.pmtu = some m → w.ringOk r t = true →
        ∃ u : State, exec (.req p) s = .next ((u.cmAnswer p c (.cmRep n m (min r.initiatorDepth 64))).stageQp n).settle ∧ u.qState n = 2 ∧ u.qTenant n = t
          ∧ u.qf n 1 23 0 = r.hostQpn % 2 ^ 24 ∧ u.qEpsn n = r.startPsn % 2 ^ 24 ∧ (u.tenant t).qpCount = u.homedQps t ∧ c.src ∈ u.hosts ∧ (∀ j, j ≠ n → u.qp j = w.qp j))
      ∧ (65536 ≤ w.ownedQps → exec (.req p) s = .next ((w.raise 0x11 1).cmReject p c).settle)
      ∧ (∀ n, w.ownedQps < 65536 → w.freeQpn = some n → (c.src ∈ w.hosts ∨ w.hosts.length < 4096) → w.admits c.src r.privData = none →
        exec (.req p) s = .next (w.cmReject p c).settle))
    ∧ (∀ n, s.cmTaken p (fun m => match m with | .rtu _ => true | _ => false) c w → c.msg = .rtu n →
      (w.homeOf n = true → w.qState n = 2 →
        ∃ t : State, exec (.rtu p) s = .next t.settle ∧ t.qState n = 3 ∧ (∀ j, j ≠ n → t.qp j = w.qp j) ∧ t.regs = w.regs)
      ∧ (w.homeOf n = false ∨ w.qState n ≠ 2 → exec (.rtu p) s = .next w.settle))
    ∧ (∀ n, s.cmTaken p (fun m => match m with | .dreq _ => true | _ => false) c w → c.msg = .dreq n → w.homeOf n = true →
      (w.qState n = 2 ∨ w.qState n = 3 →
        ∃ t : State, exec (.dreq p) s = .next (t.cmAnswer p c (.cmDrep n)).settle ∧ t.qState n = 4 ∧ t.qf n 0 55 48 = 7 ∧ (t.qp n).sends = [] ∧ (t.qp n).errSince = some w.mono)
      ∧ (w.qState n = 4 → exec (.dreq p) s = .next (w.cmAnswer p c (.cmDrep n)).settle))
    ∧ (∀ n, s.cmTaken p (fun m => match m with | .drep _ => true | _ => false) c w → c.msg = .drep n → w.homeOf n = true → w.qState n = 4 →
      ∃ t : State, exec (.drep p) s = .next t.settle ∧ t.qp n = { freedAt := some w.mono } ∧ (∀ j, j ≠ n → t.qp j = w.qp j))
    ∧ (∀ n t0, (s.qp n).errSince = some t0 → s.qState n = 4 →
      ∃ t : State, exec (.disconnectTimeout n) s = .next t.settle ∧ t.mono = max s.mono (t0 + 1000000000) ∧ t.qp n = { freedAt := some t.mono } ∧ (∀ j, j ≠ n → t.qp j = s.qp j))

/-- SENDs of the device that wait for an answer (R168). An ACK ends every SEND up to its PSN; a time-out sends again from the oldest SEND, up to
RETRY_CNT times, then the QP enters ERROR with cause 4; the RNR timer sends again.
The rate of a queue pair (R170). A CNP sets RATE_TGT to the rate in force, lowers the rate by ALPHA, raises ALPHA and clears INC_STEP; ALPHA_US
without one lets ALPHA decay; INC_US without one raises the rate half-way to its target, which rises from the sixth step on; the pacer
releases the oldest frame it holds of a QP once its moment at the rate in force has come, and the next one a frame's time later. -/
def Obligations.SendsAndRate : Prop :=
(∀ (s : State),
    (∀ p k w, s.packetTaken p (fun f => match f.frame.body with | .roce _ _ _ k _ => k.transport == .rc && isAck k.opcode | _ => false) k w →
      w.silent = false → w.homeOf k.destQpn = true → w.qState k.destQpn = 3 → w.sentPsn k.destQpn k.psn = true → k.syndrome < 0x20 →
      ∃ t : State, exec (.acknowledge p) s = .next t.settle ∧ (t.qp k.destQpn).sends = (w.qp k.destQpn).sends.filter (fun o => !psnLe o.psn k.psn)
        ∧ t.qf k.destQpn 7 31 16 = (t.qp k.destQpn).sends.length % 2 ^ 16 ∧ (∀ j, j ≠ k.destQpn → t.qp j = w.qp j) ∧ t.regs = w.regs)
    ∧ (∀ n o os t0, s.silent = false → s.qState n = 3 → (s.qp n).sends = o :: os → o.deadline = some t0 →
      let u := s.upTo t0
      (s.qf n 7 7 5 < o.tries + 1 → exec (.sendAckTimeout n) s = .next (u.qpError n 4).settle ∧ (u.qpError n 4).qState n = 4)
      ∧ (o.tries < s.qf n 7 7 5 →
        exec (.sendAckTimeout n) s = .next ((u.setSends n ((o :: os).map (fun x => if x.psn = o.psn then { x with tries := x.tries + 1 } else x))).resend n o.psn).settle))
    ∧ (∀ n o os t0, s.silent = false → s.qState n = 3 → (s.qp n).sends = o :: os → o.rnrAt = some t0 →
      exec (.sendRnrRetry n) s = .next ((s.upTo t0).resend n o.psn).settle))
  ∧ (∀ (s : State) (n : Nat),
    (∀ p k v, s.packetTaken p (fun f => match f.frame.body with | .roce _ _ _ k _ => k.transport == .cnp | _ => false) k v → k.destQpn = n → (v.rdxCount 13).rated n = true →
      let a := v.qf n 9 15 0
      let g := v.rd RDX_CC_CFG_G_SHIFT
      ∃ t : State, exec (.cnpReceived p) s = .next t.settle ∧ t.qf n 8 63 32 = v.qf n 8 31 0
        ∧ t.qf n 8 31 0 = max (100 * v.rd RDX_CC_CFG_RATE_MIN) (v.qf n 8 31 0 * (65536 - a) / 65536) % 2 ^ 32 ∧ t.qf n 9 15 0 = (a * (2 ^ g - 1) + 0x8000) / 2 ^ g % 2 ^ 16
        ∧ t.qf n 9 23 16 = 0 ∧ (t.qp n).alphaAt = v.mono ∧ (t.qp n).incAt = v.mono ∧ (∀ j, j ≠ n → t.qp j = v.qp j) ∧ regsKept v t [RDX_COUNTER_COUNT.key 0 104])
    ∧ (s.rated n = true →
      (∃ t : State, exec (.alphaDecay n) s = .next t ∧ t.mono = max s.mono ((s.qp n).alphaAt + s.rd RDX_CC_CFG_ALPHA_US * 1000)
        ∧ t.qf n 9 15 0 = s.qf n 9 15 0 * (2 ^ s.rd RDX_CC_CFG_G_SHIFT - 1) / 2 ^ s.rd RDX_CC_CFG_G_SHIFT ∧ (t.qp n).alphaAt = t.mono ∧ t.qf n 8 31 0 = s.qf n 8 31 0
        ∧ (∀ j, j ≠ n → t.qp j = s.qp j) ∧ t.regs = s.regs)
      ∧ (let k := min 255 (s.qf n 9 23 16 + 1)
        let tgt := if 5 < k then min (s.portRate (s.qPort n)) (s.qf n 8 63 32 + 100 * s.rd RDX_CC_CFG_RAI) else s.qf n 8 63 32
        ∃ t : State, exec (.rateIncrease n) s = .next t ∧ t.mono = max s.mono ((s.qp n).incAt + s.rd RDX_CC_CFG_INC_US * 1000)
          ∧ t.qf n 9 23 16 = k ∧ t.qf n 8 63 32 = tgt ∧ t.qf n 8 31 0 = min (s.portRate (s.qPort n)) ((s.qf n 8 31 0 + tgt) / 2)
          ∧ (t.qp n).incAt = t.mono ∧ (∀ j, j ≠ n → t.qp j = s.qp j) ∧ t.regs = s.regs))
    ∧ (s.ports.all (fun e => e.2.txq.all (fun f => !(f.paced && f.body.qpn == n))) = true → exec (.pacerRelease n) s = .next s.settle)
    ∧ (∀ e pre f post, s.ports.find? (fun e => e.2.txq.any (fun f => f.paced && f.body.qpn == n)) = some e → s.port e.1 = e.2 → e.2.txq = pre ++ f :: post →
      (∀ x ∈ pre, (x.paced && x.body.qpn == n) = false) → (f.paced && f.body.qpn == n) = true →
      ∃ t : State, exec (.pacerRelease n) s = .next (t.kickTx e.1).settle ∧ (t.port e.1).txq = pre ++ { f with paced := false } :: post ∧ t.regs = s.regs
        ∧ t.mono = max s.mono (s.qp n).paceAt ∧ (t.qp n).paceAt = t.mono + t.paceNs n f.len ∧ (∀ j, j ≠ n → t.qp j = s.qp j) ∧ (∀ j, j ≠ e.1 → t.port j = s.port j)))

/-- READ (R149, R150, R154, R181): a READ that is well formed, finds a responder resource and passes its key check becomes one operation or
more on its range, takes the resource and one PSN for each of its response packets; a READ without data needs no key; an invalid one
draws NAK 0x61, one whose key check fails NAK 0x62.
RDMA WRITE (R149 to R151, R163): an Only packet that is well formed, passes its key check and is admitted becomes write operations on its
range and takes one PSN; one whose DMA length is not its payload's draws NAK 0x61; one that is not admitted an RNR NAK. -/
def Obligations.ReadAndWriteRequests : Prop :=
(∀ (s u : State) (p : Nat) (f : RxFrame) (k : Packet), s.newRequest p isRead f k u →
    let n := k.destQpn
    let v := u.beginReq p f k
    ((v.qp n).msg = none → k.dmaLen ≤ 2 ^ 31 → k.payload = [] → v.rdAtomFits n = true →
      (∀ e pool, 0 < k.dmaLen → v.keyCheck k.rkey.toNat true (u.qTenant n) (rightOf .read) (some (k.va, k.dmaLen)) = .ok (e, pool) → v.regionsServed pool k.dmaLen = true →
        ∃ (t : State) (l : List Op), exec (.rdmaReadRequest p) s = .next t.settle ∧ requestTaken u t n (u.readPackets n k.dmaLen) l ∧ (∀ o ∈ l, o.kind = .read ∧ o.cls = e.cls)
          ∧ t.qf n 2 30 24 = u.qf n 2 30 24 + 1)
      ∧ (k.dmaLen = 0 →
        ∃ (t : State) (l : List Op), exec (.rdmaReadRequest p) s = .next t.settle ∧ requestTaken u t n 1 l ∧ (∀ o ∈ l, o.kind = .read) ∧ t.qf n 2 30 24 = u.qf n 2 30 24 + 1)
      ∧ (∀ c, 0 < k.dmaLen → v.keyCheck k.rkey.toNat true (u.qTenant n) (rightOf .read) (some (k.va, k.dmaLen)) = .error c →
        exec (.rdmaReadRequest p) s = .next (v.accessNak p f k c (rkeyIndex k)).settle))
    ∧ ((v.qp n).msg.isSome = true ∨ 2 ^ 31 < k.dmaLen ∨ k.payload ≠ [] ∨ v.rdAtomFits n = false →
      ∃ (t : State) (o : Op), exec (.rdmaReadRequest p) s = .next t.settle ∧ requestTaken u t n 0 [o] ∧ o.kind = .nak 0x61 ∧ o.psn = k.psn))
  ∧ (∀ (s u : State) (p : Nat) (f : RxFrame) (k : Packet), s.newRequest p isWriteOp f k u → k.opcode = 0x0A → (u.qp k.destQpn).msg = none → k.payload.length ≤ u.qPmtu k.destQpn →
    let n := k.destQpn
    (∀ e pool, 0 < k.dmaLen → k.dmaLen ≤ 2 ^ 31 → k.payload.length = k.dmaLen →
      u.keyCheck k.rkey.toNat true (u.qTenant n) (rightOf .write) (some (k.va, k.dmaLen)) = .ok (e, pool) →
      (u.admitWrite (u.qTenant n) pool k.dmaLen k.dmaLen = none →
        ∃ (t : State) (l : List Op), exec (.rdmaWrite p) s = .next t.settle ∧ requestTaken u t n 1 l ∧ (∀ o ∈ l, o.kind = .write ∧ o.cls = e.cls ∧ o.tenant = u.qTenant n)
          ∧ (t.qp n).ownersWritten = true ∧ (t.qp n).msg = none)
      ∧ (∀ c, u.admitWrite (u.qTenant n) pool k.dmaLen k.dmaLen = some c → exec (.rdmaWrite p) s = .next ((u.beginReq p f k).rnrReq p f k c).settle))
    ∧ (k.payload.length ≠ k.dmaLen →
      ∃ (t : State) (o : Op), exec (.rdmaWrite p) s = .next t.settle ∧ requestTaken u t n 0 [o] ∧ o.kind = .nak 0x61 ∧ o.psn = k.psn))

/-- Atomics, ATOMIC WRITE and FLUSH (R149, R150, R155, R156, R182): compare-and-swap, fetch-and-add and ATOMIC WRITE of 8 aligned bytes become one
operation with the packet's operands, the atomics take a responder resource; FLUSH becomes one operation of its kind; each takes one PSN.
A SEND to a QP whose sink is trigger chains (R151, R202 to R204): an Only packet with a good header fires the first ARMED chain whose tag
matches: it is RUNNING at step 0 with the message's parameters, FIRE_SEQ one higher; a bad header draws NAK 0x61; where no chain matches an RNR
NAK. -/
def Obligations.AtomicsAndFiringSends : Prop :=
(∀ (s u : State) (p : Nat) (f : RxFrame) (k : Packet),
    let n := k.destQpn
    let v := u.beginReq p f k
    (∀ e pool kind, (v.qp n).msg = none → k.va % 8 = 0 → k.dmaLen ≤ 2 ^ 31 →
      (kind = OpKind.cas ∧ s.newRequest p isCas f k u ∧ k.payload = [] ∧ v.rdAtomFits n = true ∨ kind = OpKind.fadd ∧ s.newRequest p isFadd f k u ∧ k.payload = [] ∧ v.rdAtomFits n = true
        ∨ kind = OpKind.atomicWrite ∧ s.newRequest p isAtomicWrite f k u ∧ k.payload.length = 8) →
      v.keyCheck k.rkey.toNat true (u.qTenant n) (rightOf kind) (some (k.va, 8)) = .ok (e, pool) → pool % 8 = 0 → v.admitWrite (u.qTenant n) pool 8 64 = none →
      ∃ (t : State) (o : Op), exec (if kind = .cas then .atomicCompareAndSwap p else if kind = .fadd then .atomicFetchAndAdd p else .atomicWrite p) s = .next t.settle
        ∧ requestTaken u t n 1 [o] ∧ o.kind = kind ∧ o.pool = pool ∧ o.len = 8 ∧ o.data = k.payload ∧ o.cmp = k.compare ∧ o.swap = k.swapAdd ∧ o.cls = e.cls
        ∧ t.qf n 2 30 24 = u.qf n 2 30 24 + (if kind = .atomicWrite then 0 else 1))
    ∧ (∀ e x, s.newRequest p isFlush f k u → (v.qp n).msg = none → k.payload = [] → k.dmaLen ≤ 2 ^ 31 →
      v.keyCheck k.rkey.toNat true (u.qTenant n) (rightOf (.flush true)) none = .ok (e, x) →
      ∃ (t : State) (o : Op), exec (.flush p) s = .next t.settle ∧ requestTaken u t n 1 [o] ∧ o.kind = .flush k.flushPersist ∧ o.cls = e.cls))
  ∧ (∀ (s u : State) (p : Nat) (f : RxFrame) (k : Packet), s.newRequest p isSendOp f k u → k.opcode = 4 → (u.qp k.destQpn).msg = none → k.payload.length ≤ u.qPmtu k.destQpn → u.recvMode k.destQpn = 1 →
    let n := k.destQpn
    let v := u.beginReq p f k
    let be (o l : Nat) : Nat := beNat ((k.payload.drop o).take l)
    (∀ i, armHeaderOk k.payload = true → v.matchChain n (be 4 4) = some i → v.chainRefused (u.qTenant n) (v.chainNeed i (be 24 8)) = none → (v.chain i).length = 8 →
      ∃ (t : State) (o : Op), exec (.send p) s = .next t.settle ∧ requestTaken u t n 1 [o] ∧ o.kind = .arm i ∧ t.cf i 0 2 0 = 2 ∧ t.curStep i = 0
        ∧ t.cf i 3 31 0 = (u.cf i 3 31 0 + 1) % 2 ^ 32 ∧ t.cf i 4 63 0 = be 8 8 ∧ t.cf i 5 63 0 = be 16 8 ∧ t.cf i 6 63 0 = be 24 8 ∧ (t.run i).data = k.payload.drop 32 ∧ (t.run i).ready = true)
    ∧ (armHeaderOk k.payload = false →
      ∃ (t : State) (o : Op), exec (.send p) s = .next t.settle ∧ requestTaken u t n 0 [o] ∧ o.kind = .nak 0x61 ∧ o.psn = k.psn)
    ∧ (armHeaderOk k.payload = true → v.matchChain n (be 4 4) = none → exec (.send p) s = .next (v.rnrReq p f k .recv).settle))

/-- The steps of a trigger chain (R200, R205, R206, R207). COPY starts its source's reads, or, from the message, its destination's writes; ATOMIC
starts a compare-and-swap or a fetch-and-add; PERSIST waits for the seal of the open epoch where earlier steps wrote, else is done; NOTIFY
sends on its QP; each once the entries of its keys are resident. A step whose length is 0, or whose QP may not be notified, ends the run; a step that is not at its turn does nothing. -/
def Obligations.ChainSteps : Prop :=
  ∀ (s : State) (i : Nat),
    let e := s.slot i (s.curStep i)
    let len := s.opLen i e
    let dst := bits (wordAt e 1) 63 32
    let src := bits (wordAt e 1) 31 0
    (s.chainAt i 1 = true →
      (∀ k pool, 0 < len → len ≤ 2 ^ 24 → bit (wordAt e 0) 8 = true → s.opSrcOff i e + len ≤ (s.run i).data.length → (s.keysReady [dst / 4096]).1 = true → s.chainKey i dst 9 (s.opDstOff i e) len = .ok (k, pool) →
        ∃ (t : State) (l : List Op), exec (.copy i) s = .next t.settle ∧ t.dp.ops = s.dp.ops ++ l ∧ (∀ o ∈ l, o.for_ = .chain i (s.curStep i) ∧ o.kind = .copyDst) ∧ (t.run i).busy = true)
      ∧ (∀ k pool x y, 0 < len → len ≤ 2 ^ 24 → bit (wordAt e 0) 8 = false → (s.keysReady [dst / 4096, src / 4096]).1 = true → s.chainKey i dst 9 (s.opDstOff i e) len = .ok (k, pool) → s.chainKey i src 8 (s.opSrcOff i e) len = .ok (x, y) →
        ∃ (t : State) (l : List Op), exec (.copy i) s = .next t.settle ∧ t.dp.ops = s.dp.ops ++ l ∧ (∀ o ∈ l, o.for_ = .chain i (s.curStep i) ∧ o.kind = .copySrc) ∧ (t.run i).busy = true
          ∧ t.regs = s.regs)
      ∧ (len = 0 ∨ 2 ^ 24 < len → exec (.copy i) s = .next (s.chainFail i 5).settle))
    ∧ (s.chainAt i 2 = true →
      (∀ x, (s.run i).ownersWritten = true → s.stageEpoch = some x →
        ∃ t : State, exec (.persist i) s = .next t.settle ∧ t.run i = { s.run i with busy := true, waitEpoch := some x, ownersWritten := false } ∧ t = { s with chains := { s.chains with runs := t.chains.runs } })
      ∧ ((s.run i).ownersWritten = false ∨ s.stageEpoch = none → exec (.persist i) s = .next (s.chainStepDone i).settle))
    ∧ (s.chainAt i 3 = true → ∀ k pool, (s.keysReady [dst / 4096]).1 = true → s.chainKey i dst 9 (s.opDstOff i e) 8 = .ok (k, pool) →
      (pool % 8 = 0 →
        ∃ (t : State) (l : List Op), exec (.atomic i) s = .next t.settle ∧ t.dp.ops = s.dp.ops ++ l ∧ (t.run i).busy = true ∧ (t.run i).ownersWritten = true
          ∧ (∀ o ∈ l, o.for_ = .chain i (s.curStep i) ∧ (bit (wordAt e 0) 12 = true → o.kind = .fadd ∧ o.swap = wordAt e 5)
            ∧ (bit (wordAt e 0) 12 = false → o.kind = .cas ∧ o.cmp = wordAt e 5 ∧ o.swap = wordAt e 6)))
      ∧ (pool % 8 ≠ 0 → exec (.atomic i) s = .next (((s.keysReady [dst / 4096]).2.chainHold i [dst / 4096]).chainFail i 5).settle))
    ∧ (s.chainAt i 4 = true →
      let n := bits (wordAt e 4) 55 32
      (s.notifyOk i n = true → len = 0 →
        exec (.notify i) s = .next (s.notifySend i n (toBe 4 (chainNo i) ++ toBe 4 (s.cf i 3 31 0) ++ toBe 8 ((wordAt e 7).toNat + (if bit (wordAt e 0) 10 then s.cf i 5 63 0 else 0)))).settle)
      ∧ (∀ x y, s.notifyOk i n = true → 0 < len → len ≤ 4096 → len ≤ s.qPmtu n → (s.keysReady [src / 4096]).1 = true → s.chainKey i src 8 (s.opSrcOff i e) len = .ok (x, y) →
        ∃ (t : State) (l : List Op), exec (.notify i) s = .next t.settle ∧ t.dp.ops = s.dp.ops ++ l ∧ (∀ o ∈ l, o.for_ = .chain i (s.curStep i) ∧ o.kind = .notifySrc) ∧ (t.run i).busy = true)
      ∧ (s.notifyOk i n = false → exec (.notify i) s = .next (s.chainFail i 3).settle))
    ∧ (s.chainAt i 1 = false → exec (.copy i) s = .next s) ∧ (s.chainAt i 2 = false → exec (.persist i) s = .next s)
    ∧ (s.chainAt i 3 = false → exec (.atomic i) s = .next s) ∧ (s.chainAt i 4 = false → exec (.notify i) s = .next s)

/-- Training of a DRAM channel (R241, R242, R253, R258, R260). TRAIN_DONE of a channel in TRAINING: one with no
DIMM is EMPTY; a population that obeys the rules trains at the highest speed that works and goes on to FILLING; one that does not, or at
which nothing trains, leaves the channel OUT with its event. RETRAIN_DONE leaves it RUNNING at the speed chosen afresh, and ends the
command that asked for it. DCH_RETRAIN starts in RUNNING and SELF_REFRESH; what it answers elsewhere is the model's choice where the spec
names no status (log 216).
Commands to the devices (R246, R248, R249). The pick issues its request: the row is open in its bank, the request counted as a read or a
write, and once no urgent DEMAND request waits the postponed refreshes follow; a subchannel that retrains or a channel that is not RUNNING
issues none. A refresh interval is postponed while urgent DEMAND requests wait, up to POSTPONE_MAX, else the refreshes due are issued; in
self-refresh they are owed. -/
def Obligations.DramWork : Prop :=
(∀ (s : State) (c : Nat), c < 48 →
    (∀ pop ser0 d1 trained, s.chanSt c = 1 → bits pop 1 0 = 0 → ∃ t : State, exec (.trainDone c pop ser0 d1 trained) s = .next t ∧ t.chanSt c = 0 ∧ t.evInbox = s.evInbox)
    ∧ (∀ pop ser0 d1 trained, s.chanSt c = 1 → bits pop 1 0 ≠ 0 →
      let v := (s.setReg (regKey (0x40 + c) 0x100) (setBits pop 63 48 0)).modChan c (fun x => { x with serial := [(0, ser0), (1, d1.serial)] })
      let mk := trainWalk (speedsOf (v.rd DCH_POP_TYPE c) (v.nDimms c) (v.rd DCH_CFG_SPEED_CAP c)) trained
      (v.popOk c pop d1 = true → mk.1 ≠ 0 → mk.2 = 0 → s.tier.retiredRec = [] →
        ∃ t : State, exec (.trainDone c pop ser0 d1 trained) s = .next t ∧ t.chanSt c = 2 ∧ t.rd DCH_POP_MTS c = mk.1 ∧ t.ready (0x40 + c) = false ∧ raisedIn s t (0x40 + c) 0
          ∧ (t.chan c).serial = [(0, ser0), (1, d1.serial)])
      ∧ (v.popOk c pop d1 = true → mk.1 = 0 → ∃ t : State, exec (.trainDone c pop ser0 d1 trained) s = .next t ∧ t.chanSt c = 7 ∧ t.flagged (0x40 + c) 1 = true)
      ∧ (v.popOk c pop d1 = false → ∃ t : State, exec (.trainDone c pop ser0 d1 trained) s = .next t ∧ t.chanSt c = 7 ∧ raisedIn s t (0x40 + c) 3))
    ∧ (∀ trained, s.chanSt c = 4 →
      let mk := trainWalk (speedsOf (s.rd DCH_POP_TYPE c) (s.nDimms c) (s.rd DCH_CFG_SPEED_CAP c)) trained
      mk.1 ≠ 0 → ∃ t : State, t.chanSt c = 3 ∧ t.ready (0x40 + c) = true ∧ t.rd DCH_POP_MTS c = mk.1 ∧ (t.chan c).idleSince = s.mono ∧ (t.chan c).fullCmd = none
        ∧ ((s.chan c).fullCmd = none → exec (.retrainDone c trained) s = .next t.settle)
        ∧ (∀ q, (s.chan c).fullCmd = some q → exec (.retrainDone c trained) s = .next (t.finishCmd q stOk mk.1).settle))
    ∧ (∀ q cmd, s.blockRuns q cmd 0x40 c 0x40 false → cmd.bare = true → cmd.w5 = 0 →
      (s.chanSt c = 3 ∨ s.chanSt c = 5 → ∃ t : State, exec (.dchRetrain q) s = .next t ∧ t.chanSt c = 4 ∧ (t.chan c).fullCmd = some q ∧ (t.chan c).retries = [] ∧ raisedIn s t (0x40 + c) 4
          ∧ t.rd DCH_COUNTER_COUNT c 96 = (s.rd DCH_COUNTER_COUNT c 96 + 1) % 2 ^ 64)
      ∧ (s.chanSt c = 1 ∨ s.chanSt c = 2 ∨ s.chanSt c = 4 → exec (.dchRetrain q) s = .next ((s.running q).finishCmd q 0x42 0))
      ∧ (s.chanSt c = 0 → exec (.dchRetrain q) s = .next ((s.running q).finishCmd q 0x40 0))
      ∧ (s.chanSt c = 7 → exec (.dchRetrain q) s = .next ((s.running q).finishCmd q stOk (s.rd DCH_POP_MTS c)))))
  ∧ (∀ (s : State) (c : Nat), c < 48 →
    (∀ sub ready, sub / 2 = c →
      let b := sub % 2
      let v := s.modChan c (fun x => { x with drain := if s.drainMode c b then insertNat x.drain b else x.drain.filter (· != b) })
      (s.chanSt c = 3 → b ∉ (s.chan c).short → (s.chan c).throttledAt = none →
        (∀ r, v.pick c b ready = some r →
          ∃ t : State, exec (.dramCommandIssue sub ready) s = .next (t.refreshPaid c) ∧ (t.demandUrgent c = true → t.refreshPaid c = t)
            ∧ (t.demandUrgent c = false → ∀ r, NMap.getD ((t.refreshPaid c).chan c).postponed r 0 = 0) ∧ NMap.find (t.chan c).openRow (128 * b + r.bank) = some r.row ∧ NMap.find (t.chan c).lastBank b = some r.bank
            ∧ t.rd DCH_COUNTER_COUNT c (if r.write then 8 else 0) = (s.rd DCH_COUNTER_COUNT c (if r.write then 8 else 0) + 1) % 2 ^ 64)
        ∧ (v.pick c b ready = none → exec (.dramCommandIssue sub ready) s = .next v))
      ∧ (s.chanSt c ≠ 3 ∨ b ∈ (s.chan c).short → exec (.dramCommandIssue sub ready) s = .next s))
    ∧ (∀ r, s.rankSt c r = 1 ∨ s.rankSt c r = 2 → s.chanSt c ≠ 0 → s.chanSt c ≠ 7 →
      let x := s.chan c
      let p := NMap.getD x.postponed r 0
      let z := s.upTo (NMap.getD x.refAt r 0 + s.refInterval c r)
      let urgent := z.demandUrgent c
      (s.chanSt c = 5 → ∃ t : State, exec (.refresh c r) s = .next t ∧ r ∈ (t.chan c).refOwed ∧ NMap.find (t.chan c).refAt r = some z.mono ∧ t.mono = z.mono ∧ t.regs = s.regs)
      ∧ (s.chanSt c ≠ 5 → urgent = true → p < s.rd DCH_REFRESH_POSTPONE_MAX c →
        ∃ t : State, exec (.refresh c r) s = .next t ∧ NMap.getD (t.chan c).postponed r 0 = p + 1 ∧ NMap.find (t.chan c).refAt r = some z.mono ∧ t.mono = z.mono ∧ t.rd DCH_COUNTER_COUNT c 56 = (s.rd DCH_COUNTER_COUNT c 56 + 1) % 2 ^ 64
          ∧ regsKept s t [DCH_COUNTER_COUNT.key c 56])
      ∧ (s.chanSt c ≠ 5 → urgent = false ∨ s.rd DCH_REFRESH_POSTPONE_MAX c ≤ p →
        ∃ t : State, exec (.refresh c r) s = .next t ∧ NMap.getD (t.chan c).postponed r 0 = 0 ∧ NMap.find (t.chan c).refAt r = some z.mono ∧ t.mono = z.mono ∧ (∀ e ∈ (t.chan c).openRow, e.1 % 128 / 32 ≠ r)
          ∧ t.rd DCH_COUNTER_COUNT c 48 = (s.rd DCH_COUNTER_COUNT c 48 + (p + 1)) % 2 ^ 64 ∧ regsKept s t [DCH_COUNTER_COUNT.key c 48])))

/-- DIMM sensors, self-refresh, drift and alerts (R248 to R253). A slot at THROTTLE_C or above throttles the channel and raises the
event; 2 °C below it on every slot ends it. An idle channel enters self-refresh after IDLE_US; a wake issues what is owed and the channel
runs. Drift above DRIFT_PS stops a subchannel until its short retraining is done; more alerts in a second than RETRY_LIMIT retrain the channel.
Faults and the retiring of ranks, and the sideband (R254 to R256, R260). A sideband fault of a populated slot raises SB_FAULT and retires the
slot's ranks; DCH_RETIRE retires a rank in service, or ends with 0x40; DCH_SB_READ answers with the bytes the device returned, or with why
there are none. -/
def Obligations.DramCare : Prop :=
(∀ (s : State) (c : Nat), c < 48 →
    (∀ t0 t1, t0 < 256 → t1 < 256 →
      let z := s.upTo ((s.chan c).sensedAt + ms 16)
      ((s.chan c).throttledAt = none → s.rd DCH_REFRESH_THROTTLE_C c ≤ t0 ∨ s.rd DCH_REFRESH_THROTTLE_C c ≤ t1 →
        ∃ t : State, exec (.dimmSensorRead c t0 t1) s = .next t ∧ t.rd DCH_TEMP_SLOT0_C c = t0 ∧ t.rd DCH_TEMP_SLOT1_C c = t1 ∧ t.rd DCH_TEMP_THROTTLED c = 1
          ∧ t.rd DCH_TEMP_HOT c = b2n (decide (s.rd DCH_REFRESH_HOT_C c ≤ t0) || decide (s.rd DCH_REFRESH_HOT_C c ≤ t1)) ∧ (t.chan c).throttledAt = some z.mono ∧ (t.chan c).sensedAt = z.mono ∧ t.mono = z.mono ∧ t.flagged (0x40 + c) 6 = true)
      ∧ (∀ t9, (s.chan c).throttledAt = some t9 → t0 + 2 ≤ s.rd DCH_REFRESH_THROTTLE_C c → t1 + 2 ≤ s.rd DCH_REFRESH_THROTTLE_C c →
        ∃ t : State, exec (.dimmSensorRead c t0 t1) s = .next t ∧ t.rd DCH_TEMP_SLOT0_C c = t0 ∧ t.rd DCH_TEMP_SLOT1_C c = t1 ∧ t.rd DCH_TEMP_THROTTLED c = 0 ∧ (t.chan c).throttledAt = none
          ∧ t.rd DCH_COUNTER_COUNT c 120 = (s.rd DCH_COUNTER_COUNT c 120 + (z.mono - t9)) % 2 ^ 64))
    ∧ (s.chanSt c = 3 → s.srAllowed c = true → (s.chan c).empty = true →
      ∃ t : State, exec (.selfRefreshEntry c) s = .next t ∧ t.chanSt c = 5 ∧ t.ready (0x40 + c) = true ∧ (t.chan c).openRow = []
        ∧ t.mono = max s.mono ((s.chan c).idleSince + s.rd DCH_SELFREF_IDLE_US c * 1000) ∧ regsKept s t [regKey (0x40 + c) 0x18, DCH_COUNTER_COUNT.key c 64])
    ∧ (s.chanSt c = 5 → (s.chan c).srWanted = true →
      ∃ t : State, exec (.selfRefreshExit c) s = .next t.settle ∧ t.chanSt c = 3 ∧ t.ready (0x40 + c) = true ∧ (t.chan c).refOwed = [] ∧ (t.chan c).srWanted = false
        ∧ (∀ r ∈ (s.chan c).refOwed, NMap.getD (t.chan c).postponed r 0 = 0))
    ∧ (∀ sub drift, s.chanSt c = 3 ∨ s.chanSt c = 5 → s.rd DCH_RETRAIN_DRIFT_PS c < drift → sub % 2 ∉ (s.chan c).short →
      ∃ t : State, exec (.driftCheck c sub drift) s = .next t ∧ sub % 2 ∈ (t.chan c).short ∧ t.rd DCH_COUNTER_COUNT c 88 = (s.rd DCH_COUNTER_COUNT c 88 + 1) % 2 ^ 64
        ∧ t.mono = (s.upTo (NMap.getD (s.chan c).driftAt (sub % 2) 0 + ms (s.rd DCH_RETRAIN_INTERVAL_MS c))).mono
        ∧ (∀ ready, exec (.dramCommandIssue (2 * c + sub % 2) ready) t = .next t) ∧ regsKept s t [DCH_COUNTER_COUNT.key c 88])
    ∧ (∀ sub, sub / 2 = c → ∃ t : State, exec (.retrainShortDone sub) s = .next t ∧ (∀ b, b ∈ (t.chan c).short ↔ b ∈ (s.chan c).short ∧ b ≠ sub % 2)
        ∧ t = { s with tier := { s.tier with chans := t.tier.chans } })
    ∧ (∀ sub crc,
      let rs := ((s.chan c).retries.filter (fun t => decide (s.mono - t < 1000000000))) ++ [s.mono]
      let k := if crc then 104 else 112
      (s.chanSt c = 3 ∨ s.chanSt c = 5 → s.rd DCH_RETRAIN_RETRY_LIMIT c < rs.length →
        ∃ t : State, exec (.dramAlert c sub crc) s = .next t ∧ t.chanSt c = 4 ∧ (t.chan c).retries = [] ∧ t.rd DCH_COUNTER_COUNT c k = (s.rd DCH_COUNTER_COUNT c k + 1) % 2 ^ 64 ∧ raisedIn s t (0x40 + c) 4)
      ∧ (rs.length ≤ s.rd DCH_RETRAIN_RETRY_LIMIT c →
        ∃ t : State, exec (.dramAlert c sub crc) s = .next t ∧ (t.chan c).retries = rs ∧ t.rd DCH_COUNTER_COUNT c k = (s.rd DCH_COUNTER_COUNT c k + 1) % 2 ^ 64 ∧ regsKept s t [DCH_COUNTER_COUNT.key c k])))
  ∧ (∀ (s : State) (c : Nat), c < 48 →
    (∀ slot, slot < 2 → (s.rd DCH_POP_SLOTS c / 2 ^ slot) % 2 = 1 →
      let n := 2 ^ s.rd DCH_POP_RANKS c
      exec (.sbFault c slot) s = .next (((List.range n).foldl (fun (s : State) r => s.retireRank c (slot * n + r) false) (s.raise (0x40 + c) 12)).retireDone c)
        ∧ raisedIn s (s.raise (0x40 + c) 12) (0x40 + c) 12)
    ∧ (∀ slot, (s.rd DCH_POP_SLOTS c / 2 ^ slot) % 2 = 0 → exec (.sbFault c slot) s = .next s)
    ∧ (∀ r, r < 4 → s.rankSt c r = 1 → (s.chan c).migq ++ s.usedOfRank c r ++ s.sysOfRank c r ≠ [] →
      (s.retireRank c r true).rankSt c r = 2 ∧ ((s.retireRank c r true).chan c).migq = (s.chan c).migq ++ (s.sysOfRank c r).foldl insertNat (s.usedOfRank c r) ∧ raisedIn s (s.retireRank c r true) (0x40 + c) 7
        ∧ (∀ j, j < 4 → j ≠ r → (s.retireRank c r true).rankSt c j = s.rankSt c j))
    ∧ (∀ q cmd, s.blockRuns q cmd 0x40 c 0x41 false → cmd.bare = true → bits cmd.w5 63 2 = 0 →
      let r := bits cmd.w5 1 0
      (s.rankSt c r = 1 → exec (.dchRetire q) s = .next (((((s.running q).modChan c (fun x => { x with retireCmds := x.retireCmds ++ [(q, r, 0)] })).retireRank c r true).retireDone c)))
      ∧ (s.rankSt c r ≠ 1 → exec (.dchRetire q) s = .next ((s.running q).finishCmd q 0x40 0)))
    ∧ (∀ q cmd, s.blockRuns q cmd 0x40 c 0x42 false → cmd.w1 = 0 → cmd.count = 0 → cmd.table = 0 → cmd.w6 = 0 → 1 ≤ cmd.length → cmd.length ≤ 1024 → bits cmd.w5 7 4 = 0 → bits cmd.w5 63 24 = 0 →
      ((s.rd DCH_POP_SLOTS c / 2 ^ bits cmd.w5 0 0) % 2 = 0 → ∀ a, exec (.dchSbRead q a) s = .next ((s.running q).finishCmd q 0x40 0))
      ∧ ((s.rd DCH_POP_SLOTS c / 2 ^ bits cmd.w5 0 0) % 2 = 1 → bits cmd.w5 3 1 < 4 → exec (.dchSbRead q none) s = .next ((s.running q).finishCmd q 0x41 0))
      ∧ (∀ bs, (s.rd DCH_POP_SLOTS c / 2 ^ bits cmd.w5 0 0) % 2 = 1 → bits cmd.w5 3 1 < 4 → s.pcieUp = true →
        exec (.dchSbRead q (some bs)) s = .next (((s.running q).emit (.dma cmd.w2 (bytesWords (bs.take cmd.length)))).finishCmd q stOk (bs.take cmd.length).length))))

/-- Link states of a port (R118, R135, R136, R139). Auto-negotiation that resolves, training that ends or fails, alignment, a loss of the link and
a remote fault move the state as the table of R135 has it, in PG_STAT.STATE and in LINK_STAT; every tenth failed attempt raises AN_FAIL, the
third 1 ms window in a row with uncorrectable codewords FEC_DEGRADE. A happening that the state has no row for changes nothing. -/
def Obligations.PortLinkStates : Prop :=
  ∀ (s : State) (p : Nat), p < 96 →
    let pg := 0x100 + p
    let links : List Nat := [regKey pg 0x18, HPT_LINK_STAT_STATE.key p]
    (s.portSt p = 1 → ∃ t : State, exec (.autonegResolved p) s = .next t ∧ t.portSt p = (if s.rd HPT_MODE_LT_EN p = 1 then 2 else 3) ∧ t.rd HPT_LINK_STAT_STATE p = t.portSt p
        ∧ (t.port p).anFails = 0 ∧ regsKept s t links ∧ t = { s with regs := t.regs, ports := t.ports })
    ∧ (s.portSt p = 1 → (s.port p).anFails < 9 →
        ∃ t : State, exec (.anAttemptFail p) s = .next t ∧ (t.port p).anFails = (s.port p).anFails + 1 ∧ t = { s with ports := t.ports })
    ∧ (s.portSt p = 1 → 9 ≤ (s.port p).anFails →
        ∃ t : State, exec (.anAttemptFail p) s = .next t ∧ (t.port p).anFails = 0 ∧ raisedIn s t pg 2 ∧ t.portSt p = 1 ∧ regsKept s t (evRegs pg))
    ∧ (s.portSt p = 2 → ∃ t : State, exec (.trainingDone p) s = .next t ∧ t.portSt p = 3 ∧ t.rd HPT_LINK_STAT_STATE p = 3 ∧ regsKept s t links ∧ t = { s with regs := t.regs })
    ∧ (s.portSt p = 2 → ∃ t : State, exec (.trainFail p) s = .next t ∧ t.portSt p = (if s.rd HPT_MODE_AN_EN p = 1 then 1 else 2) ∧ raisedIn s t pg 3
        ∧ regsKept s t (HPT_LINK_STAT_STATE.key p :: evRegs pg))
    ∧ (s.portSt p = 3 → ∃ t : State, exec (.linkUp p) s = .next t.settle ∧ t.portSt p = 4 ∧ t.rd HPT_LINK_STAT_STATE p = 4
        ∧ t.rd HPT_LINK_STAT_LANE_LOCK p = (if s.rd HPT_MODE_SPEED p = 2 then 3 else 15) ∧ (t.port p).fecBad = 0 ∧ t.flagged pg 0 = true)
    ∧ (s.portSt p = 5 → ∃ t : State, exec (.remoteFaultClear p) s = .next t.settle ∧ t.portSt p = 4 ∧ t.rd HPT_LINK_STAT_STATE p = 4 ∧ t.flagged pg 0 = true)
    ∧ (s.portSt p = 4 → ∃ t : State, exec (.remoteFault p) s = .next t.settle ∧ t.portSt p = 5 ∧ t.rd HPT_LINK_STAT_STATE p = 5 ∧ t.rd HPT_LINK_STAT_DOWN_CAUSE p = 4
        ∧ t.rd HPT_LINK_STAT_DOWN_COUNT p = (s.rd HPT_LINK_STAT_DOWN_COUNT p + 1) % 2 ^ 32 ∧ t.flagged pg 1 = true)
    ∧ (∀ cause, s.portSt p = 4 → ∃ t : State, exec (.linkDown p cause) s = .next t.settle ∧ t.portSt p = s.bringUp p ∧ t.rd HPT_LINK_STAT_DOWN_CAUSE p = PortDownCause.code cause
        ∧ t.rd HPT_LINK_STAT_LANE_LOCK p = 0 ∧ t.rd HPT_LINK_STAT_DOWN_COUNT p = (s.rd HPT_LINK_STAT_DOWN_COUNT p + 1) % 2 ^ 32 ∧ t.flagged pg 1 = true)
    ∧ (∀ a b c, s.portSt p = 4 →
      let n := if b = 0 then 0 else (s.port p).fecBad + 1
      ∃ t : State, exec (.fecWindow p a b c) s = .next t ∧ t.rd HPT_COUNTER_COUNT p 104 = (s.rd HPT_COUNTER_COUNT p 104 + a) % 2 ^ 64
        ∧ t.rd HPT_COUNTER_COUNT p 112 = (s.rd HPT_COUNTER_COUNT p 112 + b) % 2 ^ 64 ∧ t.rd HPT_COUNTER_COUNT p 120 = (s.rd HPT_COUNTER_COUNT p 120 + c) % 2 ^ 64
        ∧ regsKept s t ([HPT_COUNTER_COUNT.key p 104, HPT_COUNTER_COUNT.key p 112, HPT_COUNTER_COUNT.key p 120] ++ evRegs pg)
        ∧ (n < 3 → (t.port p).fecBad = n ∧ t.evInbox = s.evInbox) ∧ (3 ≤ n → (t.port p).fecBad = 0 ∧ raisedIn s t pg 4))
    ∧ (∀ cause, s.portSt p ≠ 4 → exec (.linkDown p cause) s = .next s ∧ exec (.remoteFault p) s = .next s)
    ∧ (s.portSt p ≠ 3 → exec (.linkUp p) s = .next s) ∧ (s.portSt p ≠ 5 → exec (.remoteFaultClear p) s = .next s)

/-- Pause frames, XOFF and storms (R122, R123, R125, R126). A received pause time that has not run out holds its priority until that time, one
that has ends the hold; a frame that FC_MODE does not honour is counted only. A hold that lasts WD_MS raises PAUSE_STORM and sets the bit of
its priority; WD_MS without one clears it. An XOFF that lasts is sent again, and the next time stands. -/
def Obligations.PortPauseAndStorms : Prop :=
  ∀ (s : State) (p : Nat), p < 96 →
    (∀ f n, (s.port p).rxq.find? (fun f => match f.frame.body with | .pfc _ => true | .pause _ => true | _ => false) = some f → f.frame.body = .pause n →
      let t0 := f.arrival + s.quantaNs p (n % 65536)
      (s.rd HPT_FC_CFG_FC_MODE p = 1 → ∃ t : State, exec (.pfcFrame p) s = .next t.settle ∧ (t.port p).rxq = (s.port p).rxq.erase f
        ∧ t.rd HPT_COUNTER_COUNT p 128 = (s.rd HPT_COUNTER_COUNT p 128 + 1) % 2 ^ 64
        ∧ (∀ q < 8, NMap.find (t.port p).holdUntil q = if t0 ≤ s.mono then none else some t0))
      ∧ (s.rd HPT_FC_CFG_FC_MODE p ≠ 1 → exec (.pfcFrame p) s = .next (((s.modPort p (fun x => { x with rxq := x.rxq.erase f })).hptCount p 16).settle)))
    ∧ (∀ f qs, (s.port p).rxq.find? (fun f => match f.frame.body with | .pfc _ => true | .pause _ => true | _ => false) = some f → f.frame.body = .pfc qs →
      s.rd HPT_FC_CFG_FC_MODE p = 2 → (qs.map Prod.fst).Nodup →
      ∃ t : State, exec (.pfcFrame p) s = .next t.settle ∧ (t.port p).rxq = (s.port p).rxq.erase f
        ∧ (∀ x ∈ qs, x.1 < 8 → t.rd HPT_COUNTER_COUNT p (8 * (16 + x.1)) = (s.rd HPT_COUNTER_COUNT p (8 * (16 + x.1)) + 1) % 2 ^ 64
          ∧ NMap.find (t.port p).holdUntil x.1 = if f.arrival + s.quantaNs p (x.2 % 65536) ≤ s.mono then none else some (f.arrival + s.quantaNs p (x.2 % 65536)))
        ∧ (∀ q, q ∉ qs.map Prod.fst → NMap.find (t.port p).holdUntil q = NMap.find (s.port p).holdUntil q))
    ∧ (∀ q x, NMap.find (s.port p).holdUntil q = some x →
      ∃ t : State, exec (.pauseExpiry p q) s = .next t.settle ∧ t.mono = max s.mono x ∧ NMap.find (t.port p).holdUntil q = none ∧ NMap.find (t.port p).holdSince q = none
        ∧ NMap.find (t.port p).freeSince q = some t.mono)
    ∧ (∀ q x, NMap.find (s.port p).xoffAt q = some x → s.portSt p = 4 →
      (s.xoffSent p q = true → ∃ t : State, exec (.xoffRefresh p q) s = .next t ∧ t.mono = max s.mono x ∧ (t.port p).cur.isSome = true
        ∧ NMap.find (t.port p).xoffAt q = some (t.mono + s.rd HPT_FC_CFG_REFRESH_US p * 1000)
        ∧ ((s.port p).cur = none → (s.port p).ctl = [] → ∃ f, (t.port p).cur = some f ∧ f.port = p
          ∧ f.body = (if s.rd HPT_FC_CFG_FC_MODE p = 1 then .pause (s.rd HPT_FC_CFG_XOFF_QUANTA p) else .pfc [(q, s.rd HPT_FC_CFG_XOFF_QUANTA p)])))
      ∧ (s.xoffSent p q = false → exec (.xoffRefresh p q) s = .next s))
    ∧ (∀ q a b, q < 8 → NMap.find (s.port p).holdSince q = some a → NMap.find (s.port p).holdUntil q = some b →
      let wd := s.rd HPT_FC_WD_WD_MS p * 1000000
      (0 < wd → a + wd ≤ b → s.rd HPT_FC_STAT_STORM p / 2 ^ q % 2 = 0 → ∃ t : State, exec (.pauseStorm p q) s = .next t.settle ∧ t.mono = max s.mono (a + wd)
        ∧ t.rd HPT_FC_STAT_STORM p = s.rd HPT_FC_STAT_STORM p ||| 2 ^ q ∧ t.flagged (0x100 + p) 5 = true)
      ∧ (wd = 0 ∨ b < a + wd → exec (.pauseStorm p q) s = .next s.settle))
    ∧ (∀ q x, q < 8 → s.rd HPT_FC_STAT_STORM p / 2 ^ q % 2 = 1 → s.heldPrio p q = false → NMap.find (s.port p).freeSince q = some x →
      ∃ t : State, exec (.stormClear p q) s = .next t.settle ∧ t.mono = max s.mono (x + s.rd HPT_FC_WD_WD_MS p * 1000000)
        ∧ t.rd HPT_FC_STAT_STORM p = s.rd HPT_FC_STAT_STORM p - 2 ^ q ∧ t.flagged (0x100 + p) 6 = true)

/-- Frames of a port that are received and sent, and its addresses (R120, R127 to R129, R131, R132, R134, R138, R139). A frame too short, too long
or with a bad FCS, one not accepted and one a quiescing port does not take are dropped, each counted; an accepted ARP, neighbour or PTP frame
waits with the cells it is charged. A request for a served address is answered; another MAC that claims one raises ADDR_CONFLICT and is
answered by an announcement; announcements follow each other by GAP_MS, of an address served on two VLANs the one that is due first. An event
message of PTP is stamped as it arrived. The last bit of a frame counts it, marked with CE as R127 has it. -/
def Obligations.PortFramesAndAddresses : Prop :=
  ∀ (s : State) (p : Nat), p < 96 →
    (∀ f : Frame,
      (s.portUp p = false → exec (.frameReceived p f) s = .next s)
      ∧ (s.portUp p = true →
        (f.len < 64 → exec (.frameReceived p f) s = .next (s.hptCount p 6))
        ∧ (64 ≤ f.len → s.rd HPT_FRAME_MAX_FRAME p < f.len → exec (.frameReceived p f) s = .next (s.hptCount p 5))
        ∧ (64 ≤ f.len → f.len ≤ s.rd HPT_FRAME_MAX_FRAME p → f.fcsOk = false → exec (.frameReceived p f) s = .next (s.hptCount p 4))
        ∧ (64 ≤ f.len → f.len ≤ s.rd HPT_FRAME_MAX_FRAME p → f.fcsOk = true →
          let u := (s.hptCount p 0).hptCount p 1 f.len
          (u.accepted p f = false → exec (.frameReceived p f) s = .next (u.hptCount p 7))
          ∧ (u.accepted p f = true → s.quiescing (0x100 + p) = true → passesQuiesce f.body = false → exec (.frameReceived p f) s = .next (u.hptCount p 8))
          ∧ (u.accepted p f = true → s.quiescing (0x100 + p) = false → (∃ a b, f.body = .ptp a b) ∨ (∃ a b c d, f.body = .arp a b c d) ∨ (∃ a b c, f.body = .neighbour a b c) →
            (s.lossless p (s.chargePrio p f) && s.xoffSent p (s.chargePrio p f)) = false → s.portCharge p + cellsOf f.len ≤ s.rd HTH_CELL_CAPS_PORT_CAP →
            s.prioCharge p (s.chargePrio p f) + cellsOf f.len ≤ s.rd HTH_CELL_CAPS_PRIO_CAP → s.hearth.level ≠ 2 → cellsOf f.len ≤ s.sharedFree →
            ∃ t : State, exec (.frameReceived p f) s = .next t ∧ (t.port p).rxq = (s.port p).rxq ++ [⟨f, s.chargePrio p f, cellsOf f.len, false, s.mono⟩]
              ∧ t.prioCharge p (s.chargePrio p f) = s.prioCharge p (s.chargePrio p f) + cellsOf f.len))))
    ∧ (∀ f req a b m, (s.port p).rxq.find? (fun f => match f.frame.body with | .arp .. => true | _ => false) = some f → f.frame.body = .arp req a b m → s.silent = false →
      let u := s.modPort p (fun x => { x with rxq := x.rxq.erase f })
      (req = true → s.serves p b = true → s.servedEntry p a = none → exec (.arpFrame p) s = .next ((u.replyTo p f.frame m 64 (.arpReply b (s.portMac p))).consumeRx p f).settle)
      ∧ (∀ e, req = false → s.servedEntry p a = some e → m ≠ s.portMac p →
        ∃ t : State, exec (.arpFrame p) s = .next t.settle ∧ t.flagged (0x100 + p) 7 = true ∧ t.rd HPT_COUNTER_COUNT p 264 = (s.rd HPT_COUNTER_COUNT p 264 + 1) % 2 ^ 64))
    ∧ (∀ f sol b m, (s.port p).rxq.find? (fun f => match f.frame.body with | .neighbour .. => true | _ => false) = some f → f.frame.body = .neighbour sol b m → s.silent = false →
      let u := s.modPort p (fun x => { x with rxq := x.rxq.erase f })
      (sol = true → b.v6 = true → s.serves p b = true → exec (.neighbourFrame p) s = .next ((u.replyTo p f.frame m 90 (.neighbourAdv b (s.portMac p) true true)).consumeRx p f).settle)
      ∧ (∀ e, sol = false → s.servedEntry p b = some e → m ≠ s.portMac p →
        ∃ t : State, exec (.neighbourFrame p) s = .next t.settle ∧ t.flagged (0x100 + p) 7 = true ∧ t.rd HPT_COUNTER_COUNT p 264 = (s.rd HPT_COUNTER_COUNT p 264 + 1) % 2 ^ 64))
    ∧ (∀ a x e pre post, (s.port p).announces.filter (fun y => y.addr == a) = pre ++ x :: post → (∀ y ∈ pre, x.next < y.next) → (∀ y ∈ post, x.next ≤ y.next) →
      (s.served p).find? (fun e => x.isFor e) = some e → s.silent = false →
      ∃ t : State, exec (.announce p a) s = .next t ∧ t.mono = max s.mono x.next ∧ t.rd HPT_COUNTER_COUNT p 264 = (s.rd HPT_COUNTER_COUNT p 264 + 1) % 2 ^ 64
        ∧ (t.port p).announces.filter (fun y => y.addr == a)
          = pre ++ post ++ (if x.left ≤ 1 then [] else [{ x with left := x.left - 1, next := t.mono + s.rd HPT_ANNOUNCE_GAP_MS p * 1000000 }]))
    ∧ (∀ f ev off, (s.port p).rxq.find? (fun f => match f.frame.body with | .ptp .. => true | _ => false) = some f → f.frame.body = .ptp ev off →
      ∃ t : State, exec (.ptpFrame p) s = .next t.settle ∧ (t.port p).ptpSeen = (s.port p).ptpSeen + 1 ∧ (t.port p).rxq = (s.port p).rxq.erase f
        ∧ (t.port p).ptpStamps = (s.port p).ptpStamps ++ (if ev then [(f.arrival : Int) + s.tbOff] else [])
        ∧ t.link.slewPs = (if ev && s.timeRef then 1000 * off else s.link.slewPs))
    ∧ (∀ f bad draw, (s.port p).cur = some f →
      let ce := s.ecnMarks f draw
      (s.portUp p = true → ∃ (t : State) (l : List Out), exec (.frameTxEnd p bad draw) s = .next t.settle ∧ t.out = l ++ .hostFrame f ce (bad && !f.pins.isEmpty) :: s.out
        ∧ t.rd HPT_COUNTER_COUNT p 16 = (s.rd HPT_COUNTER_COUNT p 16 + 1) % 2 ^ 64 ∧ t.rd HPT_COUNTER_COUNT p 24 = (s.rd HPT_COUNTER_COUNT p 24 + f.len) % 2 ^ 64
        ∧ t.rd HPT_COUNTER_COUNT p 88 = (s.rd HPT_COUNTER_COUNT p 88 + b2n ce) % 2 ^ 64 ∧ (bad = true → f.pins ≠ [] → t.flagged 8 10 = true))
      ∧ (s.portUp p = false → ∃ t : State, exec (.frameTxEnd p bad draw) s = .next t.settle ∧ t.out = s.out ∧ (t.port p).cur = none ∧ (t.port p).txq = []))

/-- The Hearth store (R69 to R71, R82, R85, R50). An apply is refused with its code and raises PARTITION_ERR where a condition fails, changes nothing but
says so where the layout stands already, is not heard while one runs, else makes the block BUSY until PART_APPLIED puts the layout into force, with no QP context resident and a cache of another size
empty. A pressure sample at or above SHUT_ON makes the damper SHUT, one from HALF_ON below SHUT_ON HALF. A context that is asked for becomes
resident, in the room of the least recently used one that is not held where the portion is full. -/
def Obligations.HearthLayoutAndDamper : Prop :=
  ∀ (s : State),
    (s.ready 0 = true → s.hearth.applying = none →
      let l := s.reqLayout
      (l.cache + l.pkt + l.epoch + l.media + l.ctx + l.smp ≠ 2048 → l ≠ s.hearth.layout → s.applyErr l = 1)
      ∧ (s.applyErr l ≠ 0 → ∃ t : State, exec .partitionApply s = .next t ∧ t.rd HTH_PARTITION_ERR = s.applyErr l ∧ raisedIn s t 8 6
        ∧ regsKept s t (HTH_PARTITION_ERR.key :: evRegs 8) ∧ restKept s t)
      ∧ (l = s.hearth.layout → ∃ t : State, exec .partitionApply s = .next t ∧ t.rd HTH_PARTITION_ERR = 0 ∧ raisedIn s t 8 5 ∧ regsKept s t (HTH_PARTITION_ERR.key :: evRegs 8) ∧ restKept s t)
      ∧ (s.applyErr l = 0 → l ≠ s.hearth.layout → ∃ t : State, exec .partitionApply s = .next t ∧ t.hearth = { s.hearth with applying := some l }
        ∧ t.rd HTH_PARTITION_ERR = 0 ∧ t.rd HTH_PARTITION_BUSY = 1 ∧ t.rd PG_STAT_BUSY 8 = 1 ∧ t.rd PG_STAT_STATE 8 = 3
        ∧ regsKept s t [HTH_PARTITION_ERR.key, regKey 8 0x18] ∧ t = { s with regs := t.regs, hearth := t.hearth }))
    ∧ (s.ready 0 = true → s.hearth.applying.isSome = true → exec .partitionApply s = .next s)
    ∧ (s.ready 0 = false → exec .partitionApply s = .next (s.accessErr 7 true (regKey 8 0x130)))
    ∧ (∀ l, s.hearth.applying = some l → ∃ t : State, exec .partApplied s = .next t ∧ t.hearth.layout = l ∧ t.hearth.applying = none ∧ t.hearth.resident = []
        ∧ (l.cache ≠ s.hearth.layout.cache → t.cache.ways = []) ∧ t.rd PG_GEN_GEN 8 = (s.rd PG_GEN_GEN 8 + 1) % 2 ^ 32 ∧ t.rd HTH_PARTITION_APPLIED_GEN = t.rd PG_GEN_GEN 8
        ∧ t.rd HTH_PARTITION_BUSY = 0 ∧ t.rd PG_STAT_BUSY 8 = 0 ∧ t.rd PG_STAT_STATE 8 = 2 ∧ t.rd HTH_PART_PKT_BASE_MIB = l.cache % 2 ^ 12 ∧ t.boot.layout = some l ∧ t.flagged 8 5 = true)
    ∧ (s.hearth.applying = none → exec .partApplied s = .next s)
    ∧ (∀ bank, s.ready 8 = true →
      let v := (s.upTo (s.hearth.lastSample + 100)).banksGo
      let bk := min 64 (v.bankPressure + bank)
      let hits (f : Fld) : Prop := s.rd f ≤ s.pktPressure ∨ s.rd f ≤ bk
      ∃ t : State, exec (.damperSample bank) s = .next t ∧ t.mono = max s.mono (s.hearth.lastSample + 100) ∧ t.hearth.lastSample = t.mono
        ∧ t.rd HTH_DMP_STAT_PKT_64THS = s.pktPressure ∧ t.rd HTH_DMP_STAT_BANK_64THS = bk
        ∧ (hits HTH_DMP_THRESH_SHUT_ON → hits HTH_DMP_THRESH_SHUT_OFF → t.hearth.measured = 2 ∧ t.hearth.level = 2 ∧ (s.hearth.level ≠ 2 → t.rd HTH_DMP_STAT_LEVEL = 2 ∧ t.flagged 8 1 = true))
        ∧ (hits HTH_DMP_THRESH_HALF_ON → ¬ hits HTH_DMP_THRESH_SHUT_ON → hits HTH_DMP_THRESH_HALF_OFF → s.hearth.measured ≤ 1 → t.hearth.measured = 1))
    ∧ (∀ bank, s.ready 8 = false → exec (.damperSample bank) s = .next s)
    ∧ (∀ n, n ∈ s.hearth.ctxLoads →
      let v := s.askIn .context (s.rd HTH_PART_CTX_BASE_MIB) s.hearth.layout.qpMib 8
      let ld (r : List Nat) : State := ({ v with hearth := { v.hearth with resident := r ++ [n], ctxLoads := s.hearth.ctxLoads.filter (· != n) } } : State).sendsGo n
      (s.hearth.resident.length < s.ctxRoom → exec (.contextLoad n) s = .next (ld s.hearth.resident))
      ∧ (∀ x, s.ctxRoom ≤ s.hearth.resident.length → s.hearth.resident.find? (fun x => !s.ctxHeld x) = some x → exec (.contextLoad n) s = .next (ld (s.hearth.resident.erase x)))
      ∧ (s.ctxRoom ≤ s.hearth.resident.length → (∀ x ∈ s.hearth.resident, s.ctxHeld x = true) → exec (.contextLoad n) s = .next s))
    ∧ (∀ n, n ∉ s.hearth.ctxLoads → exec (.contextLoad n) s = .next s)

/-- The flush and the clean stop (R303 to R305, R313, R317, R474, R475). A power-fail warning of a U96 in operation that has no final epoch to
confirm closes ingress, makes the damper SHUT, takes every port down and writes; FINAL_WAIT_EXPIRY goes on with the final epoch UNCONFIRMED;
FLUSH_DONE ends with the rails down, or with a reset where input is back; power above the limit takes 32 dies off. DUR_STOP quiesces the ports
and stops; STOPPED completes it with its time; DUR_ACCEPT_LOSS serves the held regions. -/
def Obligations.FlushAndCleanStop : Prop :=
  ∀ (s : State),
    (s.dur.flush = none → 12 ≤ s.rd GLB_START_STAT_PHASE → s.rd GLB_START_STAT_PHASE ≤ 14 → s.flushSt ≠ 7 → s.pwr.off = false →
      s.paired = false ∨ s.linkState = 0 ∨ s.openSlot = none →
      ∃ (t : State) (f : FlushRec), exec .powerFailWarning s = .next t ∧ t.dur.flush = some f ∧ f.cause = 1 ∧ f.startTb = s.tb ∧ f.charged = s.rd TIR_DIRTY_CHARGED_BYTES ∧ f.final = 0
        ∧ t.flushSt = 3 ∧ t.rd PWR_FLUSH_STAT_CAUSE = 1 ∧ t.flagged 1 32 = true ∧ t.hearth.level = 2 ∧ (∀ p < 96, t.portSt p = 0) ∧ t.ingressClosed = true ∧ t.dur.stopCmd = none)
    ∧ (s.dur.stopCmd = none → s.dur.flush.isSome = true ∨ s.rd GLB_START_STAT_PHASE < 12 ∨ s.flushSt = 7 ∨ s.pwr.off = true → exec .powerFailWarning s = .next s)
    ∧ (∀ f, s.dur.flush = some f → s.dur.waitFinal = true →
      ∃ (t : State) (g : FlushRec), exec .finalWaitExpiry s = .next t ∧ t.mono = max s.mono (s.dur.startedAt + s.rd PWR_DUR_CFG_FINAL_WAIT_US * 1000) ∧ t.dur.flush = some g ∧ g.final = 1
        ∧ g.cause = f.cause ∧ g.startTb = f.startTb ∧ t.flushSt = 3 ∧ t.dur.waitFinal = false)
    ∧ (s.dur.flush = none ∨ s.dur.waitFinal = false → exec .finalWaitExpiry s = .next s)
    ∧ (∀ f, s.dur.flush = some f → s.flushSt = 3 →
      ∃ x : State, exec .flushDone s = .next (if f.cause = 1 && s.pwr.inputBack then x.deviceReset 5 else x.powerDown) ∧ x.flushSt = 5 ∧ x.dur.flush = none
        ∧ x.dur.last = some { f with endTb := s.tb, ended := true } ∧ x.dur.newest = 3 ∧ x.dur.image.isSome = true ∧ x.flagged 1 33 = true)
    ∧ (s.dur.flush = none ∨ s.flushSt ≠ 3 → exec .flushDone s = .next s)
    ∧ (∀ w, s.dur.flush.isSome = true →
      ∃ t : State, exec (.flushPowerCheck w) s = .next t ∧ t.mono = max s.mono (max s.dur.startedAt s.rails.flushAt + 1000000) ∧ t.rails.flushAt = t.mono
        ∧ (min 420 (s.rd PWR_HOLDUP_W_W) * 105 < w * 100 →
          t.rails.flushDies = (if s.rails.flushDies = 0 then s.rd MED_PROBE_CONC else s.rails.flushDies) - 32 ∧ raisedIn s t 1 7 ∧ regsKept s t (evRegs 1))
        ∧ (w * 100 ≤ min 420 (s.rd PWR_HOLDUP_W_W) * 105 → t.rails.flushDies = s.rails.flushDies ∧ t.regs = s.regs))
    ∧ (∀ q c i, s.blockRuns q c 1 i 0x40 false → c.bare = true → c.w5.toNat ≤ 1 →
      let u := s.running q
      (s.dur.flush.isSome = true → exec (.durStop q) s = .next (u.finishCmd q 0x41 0))
      ∧ (s.dur.flush = none → c.w5 = 0 → s.paired = true → s.ownedCount s.twinB ≠ 0 → exec (.durStop q) s = .next (u.finishCmd q 0x40 0))
      ∧ (s.dur.flush = none → c.w5 = 1 ∨ s.paired = false ∨ s.ownedCount s.twinB = 0 →
        ∃ t : State, exec (.durStop q) s = .next t.settle ∧ t.dur.stopping = true ∧ t.dur.stopCmd = some (q, s.mono) ∧ t.ingressClosed = true
          ∧ ∀ p < 96, s.rd PG_CTRL_EN (0x100 + p) = 1 → t.rd PG_CTRL_QUIESCE (0x100 + p) = 1))
    ∧ (s.dur.stopping = true → s.dur.flush = none → s.rd TIR_DIRTY_CHARGED_BYTES = 0 → s.tier.destages = [] → s.media.progs = [] → s.flushSt ≠ 7 →
      ∃ x : State, x.flushSt = 7 ∧ x.dur.newest = 1 ∧ x.dur.image.isSome = true ∧ x.media.jpend = [] ∧ x.flagged 1 39 = true
        ∧ (s.dur.stopCmd = none → exec .stopped s = .next x)
        ∧ (∀ q t0, s.dur.stopCmd = some (q, t0) → exec .stopped s = .next (({ x with dur := { x.dur with stopCmd := none } } : State).finishCmd q stOk ((s.mono - t0) / 1000000))))
    ∧ (s.dur.stopping = false ∨ s.rd TIR_DIRTY_CHARGED_BYTES ≠ 0 ∨ s.media.progs ≠ [] → exec .stopped s = .next s)
    ∧ (∀ q c i, s.blockRuns q c 1 i 0x41 false → c.bare = true → c.w5 = 0 →
      (s.dur.flush.isSome = true → exec (.durAcceptLoss q) s = .next ((s.running q).finishCmd q 0x41 0))
      ∧ (s.dur.flush = none → s.dur.heldBase = none → exec (.durAcceptLoss q) s = .next ((s.running q).finishCmd q 0x42 0))
      ∧ (s.dur.flush = none → s.dur.heldBase.isSome = true →
        ∃ t : State, exec (.durAcceptLoss q) s = .next (t.settle.finishCmd q stOk ((List.range s.tier.poolRegions).filter (fun r => s.heldRegion r)).length)
          ∧ (∀ r, t.heldRegion r = false) ∧ t.flushSt = 0 ∧ t.flagged 1 38 = true))

/-- Key entries and the drain (R180, R191, R195, R197). A key entry that is asked for becomes resident as the most recently used one, in the room of the
least recently used one that no message holds where there is none, and counts as a miss. KEY_DRAIN_WAIT for a sequence number not yet given ends with 0x40; else it completes once DRAINED_SEQ has reached its number, and
waits before. DRAINED_SEQ below PROT_SEQ for 100 ms raises DRAIN_SLOW once. -/
def Obligations.KeyLoadsAndDrain : Prop :=
  ∀ (s : State),
    (∀ k r, k ∈ s.prot.loads → s.keyPlace = some r →
      let res := r.filter (· != k) ++ [k]
      ∃ t : State, exec (.keyEntryLoad k) s = .next t ∧ t.prot = { s.prot with resident := res, loads := s.prot.loads.filter (· != k) }
        ∧ t.rd KEY_KCACHE_MISSES = min (2 ^ 32 - 1) (s.rd KEY_KCACHE_MISSES + 1) ∧ t.rd KEY_KCACHE_RESIDENT = res.length % 2 ^ 21
        ∧ regsKept s t [regKey 7 0x138] ∧ t = { s with regs := t.regs, prot := t.prot })
    ∧ (s.prot.resident.length < s.keyRoom → s.keyPlace = some s.prot.resident)
    ∧ (∀ a k b, s.keyRoom ≤ s.prot.resident.length → s.prot.resident = a ++ k :: b → (∀ x ∈ a, ∃ h ∈ s.prot.holds, h.2.2 = x) → (∀ h ∈ s.prot.holds, h.2.2 ≠ k) → s.keyPlace = some (s.prot.resident.erase k))
    ∧ (∀ k, k ∉ s.prot.loads ∨ s.keyPlace = none → exec (.keyEntryLoad k) s = .next s)
    ∧ (∀ q c i, s.blockRuns q c 7 i 0x40 false → c.w1 = 0 → c.count = 0 → c.length = 0 → c.w2 = 0 → s.prot.drainWaits = [] →
      let n := bits c.w5 47 0
      let u := s.running q
      let v := ({ u with prot := { u.prot with drainWaits := [(q, n)] } } : State).drainUpdate
      (s.protSeq < n → exec (.keyDrainWait q) s = .next (u.finishCmd q 0x40 0))
      ∧ (n ≤ s.protSeq → v.rd KEY_GEN_DRAIN_DRAINED_SEQ < n → exec (.keyDrainWait q) s = .next v)
      ∧ (n ≤ s.protSeq → n ≤ v.rd KEY_GEN_DRAIN_DRAINED_SEQ →
        exec (.keyDrainWait q) s = .next (({ v with prot := { v.prot with drainWaits := [] } } : State).finishCmd q stOk (v.rd KEY_GEN_DRAIN_DRAINED_SEQ)))
      ∧ (s.prot.holds = [] → s.paired = false → s.rd KEY_GEN_DRAIN_DRAINED_SEQ ≤ s.protSeq → v.rd KEY_GEN_DRAIN_DRAINED_SEQ = s.protSeq)
      ∧ (let d := min s.protSeq (min s.prot.ownFloor s.prot.twinFloor)
        s.paired = true → s.rd KEY_GEN_DRAIN_DRAINED_SEQ ≤ d → v.rd KEY_GEN_DRAIN_DRAINED_SEQ = d))
    ∧ (∀ t0, s.prot.belowSince = some t0 →
      (s.prot.slowSaid = false → ∃ t : State, exec .drainSlow s = .next t ∧ t.mono = max s.mono (t0 + 100000000) ∧ raisedIn s t 7 2 ∧ t.prot = { s.prot with slowSaid := true } ∧ regsKept s t (evRegs 7))
      ∧ (s.prot.slowSaid = true → exec .drainSlow s = .next s))
    ∧ (s.prot.belowSince = none → exec .drainSlow s = .next s)

/-- Scrubbing, the DRAM fill and injected errors (R373 to R375, R379, R380, R383, R385). A scrub read counts towards its lap; a correction of a Hearth line is counted,
an uncorrectable line raises its event; with its scrubber disabled, and, but for a forced lap, at SHUT or at a bank that is busy, nothing is read. A lap that has run for twice its target raises LAP_OVERDUE
once. DRAM_FILL takes what it filled off LEFT_GIB and raises FILL_DONE as nothing is left. INT_INJECT needs ARM; it stores the error, counts and reports it. -/
def Obligations.ScrubFillAndInjection : Prop :=
  ∀ (s : State),
    (∀ l ecc tw, l < 2 ^ 25 → s.dur.flush = none → s.rd INT_SCRUB_CFG_EN_HEARTH ≠ 0 → s.ready 8 = true → s.hearth.level ≠ 2 → s.banksGo.bankIdle (64 * l) = true → s.wayOfLine l = none → s.injKind (4 * l + 2) = 0 →
      ∃ t : State, exec (.scrubRead (.hearth l) ecc tw) s = .next t.settle ∧ t.mono = max s.mono (s.lapNext .hearth)
        ∧ (ecc = .good → t.rd CPH_INT_COUNTER_COUNT 0 72 = (s.rd CPH_INT_COUNTER_COUNT 0 72 + 1) % 2 ^ 64 ∧ t.evInbox = s.evInbox
          ∧ regsKept s t [CPH_INT_COUNTER_COUNT.key 0 72, CPH_INT_COUNTER_COUNT.key 0 104])
        ∧ (∀ d, ecc = .corrected d → t.rd CPH_INT_COUNTER_COUNT 0 0 = (s.rd CPH_INT_COUNTER_COUNT 0 0 + 1) % 2 ^ 64
          ∧ t.rd CPH_INT_COUNTER_COUNT 0 80 = (s.rd CPH_INT_COUNTER_COUNT 0 80 + 1) % 2 ^ 64 ∧ t.evInbox = s.evInbox)
        ∧ (ecc = .uncorrectable → t.flagged 6 32 = true))
    ∧ (∀ l ecc tw, s.rd INT_SCRUB_CFG_EN_HEARTH = 0 ∨ s.ready 8 = false ∨ s.dur.flush.isSome = true ∨ s.rd INT_SCRUB_CFG_ACT = 0 ∧ (s.hearth.level = 2 ∨ s.banksGo.bankIdle (64 * l) = false) →
      exec (.scrubRead (.hearth l) ecc tw) s = .next s.banksGo.settle)
    ∧ (∀ c f j tw, c < 48 → j < 64 → s.dur.flush = none → s.rd INT_SCRUB_CFG_EN_DRAM ≠ 0 → s.chanSt c = 3 → s.rankSt c (s.rankOf c f) = 1 ∨ s.rankSt c (s.rankOf c f) = 2 →
      (s.chan c).queue = [] → (s.chan c).ovf = [] → s.pageOfFrame c f = none → s.injKind (4 * dramKey c f j) = 0 →
      exec (.scrubRead (.dram c f j) .good tw) s = .next (s.lapRead (.dram c)).settle
        ∧ (s.lapRead (.dram c)).mono = max s.mono (s.lapNext (.dram c))
        ∧ (s.lapRead (.dram c)).rd CPH_INT_COUNTER_COUNT 0 72 = (s.rd CPH_INT_COUNTER_COUNT 0 72 + 1) % 2 ^ 64)
    ∧ (∀ x l, NMap.find s.integ.laps (lapKey x) = some l →
      (l.overdue = false → ∃ t : State, exec (.lapOverdue x) s = .next t ∧ t.mono = max s.mono (l.start + 2 * s.lapTarget x) ∧ NMap.find t.integ.laps (lapKey x) = some { l with overdue := true }
        ∧ raisedIn s t 6 36)
      ∧ (l.overdue = true → exec (.lapOverdue x) s = .next s))
    ∧ (∀ gib, s.rd INT_FILL_CFG_LEFT_GIB ≠ 0 → s.rd PG_STAT_STATE 0xA = 2 →
      ∃ t : State, exec (.dramFill gib) s = .next t.settle ∧ t.rd INT_FILL_CFG_LEFT_GIB = s.rd INT_FILL_CFG_LEFT_GIB - gib
        ∧ (s.rd INT_FILL_CFG_LEFT_GIB ≤ gib → t.integ.unfilled = [] ∧ raisedIn s t 6 40) ∧ (gib < s.rd INT_FILL_CFG_LEFT_GIB → t.evInbox = s.evInbox))
    ∧ (∀ gib, s.rd INT_FILL_CFG_LEFT_GIB = 0 ∨ s.rd PG_STAT_STATE 0xA ≠ 2 → exec (.dramFill gib) s = .next s)
    ∧ (∀ q c i, s.blockRuns q c 6 i 0x60 false → c.w2 = 0 → c.length = 0 → c.count = 0 → c.table = 0 → c.w6 = 0 → bits c.w5 63 8 = 0 →
      let u := s.running q
      let kind := bits c.w5 7 4
      (s.rd INT_INJ_CFG_ARM = 0 → exec (.intInject q) s = .next (u.finishCmd q 0x60 0))
      ∧ (s.rd INT_INJ_CFG_ARM ≠ 0 → kind = 0 ∨ 3 < kind ∨ 3 < bits c.w5 3 0 ∨ c.index % 64 ≠ 0 → exec (.intInject q) s = .next (u.finishCmd q 0x62 0))
      ∧ (s.rd INT_INJ_CFG_ARM ≠ 0 → bits c.w5 3 0 = 2 → kind = 1 ∨ kind = 2 → c.index % 64 = 0 → c.index < 2 ^ 31 → s.wayOfLine (c.index / 64) = none →
        ∃ t : State, exec (.intInject q) s = .next (t.finishCmd q stOk c.index) ∧ t.injKind (4 * (c.index / 64) + 2) = kind ∧ raisedIn u t 6 41
          ∧ t.rd CPH_INT_COUNTER_COUNT 0 96 = (s.rd CPH_INT_COUNTER_COUNT 0 96 + 1) % 2 ^ 64)
      ∧ (∀ w x, s.rd INT_INJ_CFG_ARM ≠ 0 → bits c.w5 3 0 = 1 → kind = 1 ∨ kind = 2 → c.index % 64 = 0 → c.index < s.tier.poolRegions * 2 ^ 30 →
        s.findWay (c.index / 64) = some (w, x) → x.st ≠ .filling →
        ∃ t : State, exec (.intInject q) s = .next (t.finishCmd q stOk ((s.rd HTH_PART_CACHE_BASE_MIB * 2 ^ 14 + w) * 64)) ∧ t.injKind (4 * (c.index / 64) + 1) = kind ∧ raisedIn u t 6 41))

/-- The banks of the Hearth (R65, R66, R83, R84). Bank and row of a line's address are one to one with it; a request joins its bank behind those that
wait. A bank grants the oldest request of the highest class that waits, at OPEN every 16th time the oldest of all; at SHUT a request of class 3
stays where it is. What a bank grants changes nothing but the banks and what PMU counts. -/
def Obligations.HearthBanks : Prop :=
  (∀ a, a % 64 = 0 → a < 2 ^ 31 → hearthBank a < 512 ∧ hearthRow a < 65536 ∧ hearthAt (hearthBank a) (hearthRow a) = a)
  ∧ (∀ b r, b < 512 → r < 65536 → hearthAt b r < 2 ^ 31 ∧ hearthAt b r % 64 = 0 ∧ hearthBank (hearthAt b r) = b ∧ hearthRow (hearthAt b r) = r)
  ∧ (∀ level n q, q ≠ [] → ∃ x, grantPick level n q = some x ∧ (level = 0 → n % 16 = 15 → q.head? = some x)
    ∧ (level ≠ 0 ∨ n % 16 ≠ 15 → ∃ a c, q = a ++ x :: c ∧ (∀ y ∈ a, x.who.cls < y.who.cls) ∧ ∀ y ∈ c, x.who.cls ≤ y.who.cls))
  ∧ (∀ (s : State) (who : Requester) (a b : Nat),
    let q (t : State) : List BankReq := NMap.getD t.banks.reqs b []
    (q (s.ask who a) = q s ++ (if hearthBank a = b then [⟨who, hearthRow a, s.mono, s.mono⟩] else []))
    ∧ (s.hearth.level = 2 → s.rd PG_CTRL_EN 8 ≠ 0 →
      ((q s.banksGo).filter (fun r => r.who.cls == 3)).map (fun r => (r.who, r.row, r.asked)) = ((q s).filter (fun r => r.who.cls == 3)).map (fun r => (r.who, r.row, r.asked)))
    ∧ s.banksGo = { s with banks := s.banksGo.banks, pmu := s.banksGo.pmu } ∧ (s.banks.reqs = [] → s.banksGo = s))

/-- Power-on, the rail sequencer and stops (R405, R471 to R474, R484). Power-on starts the sequencer, TB_NS at 0 and the recorder empty; a step
follows once its rails are good; a rail that is not good in 50 ms, or falls, ends the sequence with every enable dropped; 40 ms with
every rail good starts the boot ROM. A loss of a rail of the flush path, and THERMTRIP_N, drop every enable at once. A glitch is counted and reported. -/
def Obligations.PowerSequence : Prop :=
  ∀ (s : State),
    (∃ t : State, exec .powerOn s = .next t ∧ t.mono = s.mono ∧ t.tb = 0 ∧ t.rec_ = {} ∧ t.evInbox = [] ∧ t.pwr.off = true ∧ t.rails.step = 2 ∧ t.rails.en = [1] ∧ t.rails.good = [0, 11]
      ∧ t.rails.stepAt = s.mono ∧ t.rd GLB_START_STAT_PHASE = 1 ∧ t.media = s.media.kept ∧ t.boot.saved = s.boot.saved)
    ∧ (∀ r, r < 12 → r ∉ s.rails.good → r = 0 ∨ r = 11 ∨ r ∈ s.rails.en →
      ∃ t : State, exec (.railPowerGood r) s = .next t ∧ (∀ x, x ∈ t.rails.good ↔ x = r ∨ x ∈ s.rails.good) ∧ t = { s with regs := t.regs, rails := t.rails } ∧ regsKept s t [PWR_RAIL_STAT_STATE.key]
        ∧ (s.rails.step = 2 ∨ s.rails.step = 3 ∨ s.rails.step = 4 ∨ s.rails.step = 6 →
          ((stepRails s.rails.step).all (fun x => x == r || s.rails.good.contains x) = true → t.rails.step = s.rails.step + 1 ∧ t.rails.stepAt = s.mono ∧ t.rails.en = s.rails.en ++ stepRails (s.rails.step + 1))
          ∧ ((stepRails s.rails.step).all (fun x => x == r || s.rails.good.contains x) = false → t.rails.step = s.rails.step ∧ t.rails.en = s.rails.en)))
    ∧ (∀ r, 12 ≤ r ∨ r ∈ s.rails.good → exec (.railPowerGood r) s = .next s)
    ∧ (∀ r, 2 ≤ s.rails.step → s.rails.step ≤ 6 → r < 12 → s.rails.en.find? (fun r => !s.rails.good.contains r) = some r →
      ∃ t : State, exec .sequenceTimeout s = .next t ∧ t.mono = max s.mono (s.rails.stepAt + 50000000) ∧ t.rails.step = 0 ∧ t.rails.en = [] ∧ t.rails.good = [0, 11]
        ∧ t.rd PWR_RAIL_STAT_LAST_FAULT = r ∧ t.rd GLB_START_STAT_FAIL = 6 ∧ raisedIn s t 1 2)
    ∧ (s.rails.step < 2 ∨ 6 < s.rails.step ∨ (∀ r ∈ s.rails.en, r ∈ s.rails.good) → exec .sequenceTimeout s = .next s)
    ∧ (s.rails.step = 7 → s.railsUp = true →
      ∃ t : State, exec .sequencerHold s = .next t ∧ t.mono = max s.mono (s.rails.stepAt + 40000000) ∧ t.rails.step = 8 ∧ t.pwr.off = false ∧ t.rd GLB_START_STAT_PHASE = 2
        ∧ t.rd PG_STAT_STATE 1 = 1 ∧ t.rd PWR_OP_STAT_CAUSE = 4 ∧ t.evInbox = s.evInbox)
    ∧ (s.rails.step ≠ 7 ∨ s.railsUp = false → exec .sequencerHold s = .next s)
    ∧ (∀ r, r < 12 → r ∈ s.rails.good →
      (2 ≤ s.rails.step → s.rails.step ≤ 7 → ∃ t : State, exec (.powerGoodLoss r) s = .next t ∧ t.rails.step = 0 ∧ t.rails.en = [] ∧ t.rails.good = [0, 11]
        ∧ t.rd PWR_RAIL_STAT_LAST_FAULT = r ∧ t.rd GLB_START_STAT_FAIL = 6 ∧ raisedIn s t 1 2)
      ∧ (7 < s.rails.step → s.pwr.off = false → flushRail r = true → ∃ t : State, exec (.powerGoodLoss r) s = .next t ∧ t.pwr.off = true ∧ t.rails.en = [] ∧ t.rails.good = [0, 11]
        ∧ t.rd PWR_RAIL_STAT_LAST_FAULT = r ∧ t.cache = {} ∧ t.tier.chans = [] ∧ t.media = s.media.kept ∧ t.mono = s.mono))
    ∧ (∀ r, r ∉ s.rails.good → exec (.powerGoodLoss r) s = .next s)
    ∧ (s.pwr.off = false → ∃ t : State, exec .hardwareTrip s = .next t ∧ t.pwr.off = true ∧ t.thm.tripped = true ∧ t.rails.en = [] ∧ t.rails.good = [0, 11] ∧ t.rd PWR_RAIL_STAT_LAST_FAULT = 0xFD
        ∧ t.cache = {} ∧ t.media = s.media.kept ∧ t.mono = s.mono)
    ∧ (s.pwr.off = true → exec .hardwareTrip s = .next s)
    ∧ (∃ t : State, exec .pfwGlitch s = .next t ∧ t.rd PWR_INPUT_GLITCHES = min 255 (s.rd PWR_INPUT_GLITCHES + 1) ∧ raisedIn s t 1 3
      ∧ regsKept s t (PWR_INPUT_GLITCHES.key :: evRegs 1) ∧ restKept s t)

/-- The operating point, rail supervision, input power and pace (R28, R473 to R475, R477 to R480). A sample in AUTO moves VCORE to banked once the load
has been low for DWELL_MS, and to the other family at FD_PCT or 16 of 64 bank entries; VCORE is commanded again once, then stays. Rails inside
their bands are GOOD, one outside WARN for its filter is reported. The first sample below VIN_WARN raises VIN_LOW; below CUT during a flush
the U96 stops at once. -/
def Obligations.OperatingPointAndRails : Prop :=
  ∀ (s : State),
    (∀ n,
      let m := max s.mono (s.pwr.sampleAt + 1000000)
      let u := n * 100 / 19200000000
      let b := s.rd HTH_DMP_STAT_BANK_64THS
      ∃ t : State, exec (.opSample n) s = .next t ∧ t.mono = m ∧ t.pwr.sampleAt = m
        ∧ (s.pwr.off = true ∨ s.opForced.isSome = true ∨ s.pwr.avsFailed = true → t.pwr = { s.pwr with sampleAt := m, lowSince := none } ∧ t.regs = s.regs)
        ∧ (s.pwr.off = false → s.opForced = none → s.pwr.avsFailed = false →
          (∀ t0, s.rd PWR_OP_STAT_FAMILY = 0 → u < s.rd PWR_OP_BK_PCT → b < 8 → s.pwr.lowSince = some t0 → s.rd PWR_OP_DWELL_MS * 1000000 ≤ m - t0 → s.rd PWR_OP_STAT_TARGET_MV ≠ 580 →
            t.rd PWR_OP_STAT_TARGET_MV = 580 ∧ t.rd PWR_OP_STAT_FAMILY = 2 ∧ t.pwr.toBanked = true ∧ t.pwr.slewAt = some m ∧ t.out = .vcore 580 :: s.out)
          ∧ (s.rd PWR_OP_STAT_FAMILY = 0 → s.rd PWR_OP_BK_PCT ≤ u ∨ 8 ≤ b → t.pwr.lowSince = none ∧ t.regs = s.regs)
          ∧ (s.rd PWR_OP_STAT_FAMILY = 1 → s.rd PWR_OP_FD_PCT ≤ u ∨ 16 ≤ b → s.rd PWR_OP_STAT_TARGET_MV ≠ 800 →
            t.rd PWR_OP_STAT_TARGET_MV = 800 ∧ t.rd PWR_OP_STAT_FAMILY = 2 ∧ t.pwr.toBanked = false ∧ t.pwr.slewAt = some m ∧ t.out = .vcore 800 :: s.out)))
    ∧ (s.pwr.slewAt.isSome = true → ∃ t : State, exec .familyReached s = .next t ∧ t.rd PWR_OP_STAT_VCORE_MV = s.rd PWR_OP_STAT_TARGET_MV ∧ t.rd PWR_OP_STAT_FAMILY = b2n s.pwr.toBanked
        ∧ t.pwr.slewAt = none ∧ raisedIn s t 1 5 ∧ regsKept s t (PWR_OP_STAT_FAMILY.key :: evRegs 1))
    ∧ (s.pwr.slewAt = none → exec .familyReached s = .next s ∧ exec .avsTimeout s = .next s)
    ∧ (∀ t0, s.pwr.slewAt = some t0 →
      ∃ t : State, exec .avsTimeout s = .next t ∧ t.mono = max s.mono (t0 + 200000)
        ∧ (s.pwr.tries < 2 → t.pwr = { s.pwr with slewAt := some t.mono, tries := 2 } ∧ t.out = .vcore (s.rd PWR_OP_STAT_TARGET_MV) :: s.out ∧ t.regs = s.regs)
        ∧ (2 ≤ s.pwr.tries → t.pwr = { s.pwr with slewAt := none, avsFailed := true } ∧ raisedIn s t 1 6 ∧ regsKept s t (evRegs 1)))
    ∧ (∀ mv, s.pwr.off = false →
      let u := s.upTo (s.rails.checkAt + 1000)
      let v := (List.range (min 12 mv.length)).foldl (fun (s : State) r => s.railOne r (nth 0 mv r)) { u with rails := { u.rails with checkAt := u.mono, mvN := u.rails.mvN + 1 } }
      (v.rails.mvN < 1000 → exec (.railCheck mv) s = .next v)
      ∧ (1000 ≤ v.rails.mvN → ∃ t : State, exec (.railCheck mv) s = .next t ∧ t.rails = { v.rails with mvN := 0, mvSum := [] }))
    ∧ (∀ mv, s.pwr.off = true → exec (.railCheck mv) s = .next s)
    ∧ (∀ r mv, r < 12 → r ≠ 6 → s.pwr.off = false → r ∈ s.rails.good →
      let nib (x : State) : Nat := x.rd PWR_RAIL_STAT_STATE / 16 ^ r % 16
      let warn := outside (s.railTarget r) (s.rd PWR_RAIL_LIM_WARN 0 (8 * r)) mv
      let fault := outside (s.railTarget r) (s.rd PWR_RAIL_LIM_FAULT 0 (8 * r)) mv
      (warn = false → fault = false → nib (s.railOne r mv) = 2 ∧ (s.railOne r mv).evInbox = s.evInbox)
      ∧ (∀ a, warn = true → fault = false → NMap.find s.rails.warnSince r = some a → s.rd PWR_RAIL_LIM_FILTER_US 0 (8 * r) * 1000 ≤ s.mono - a → nib s ≠ 3 →
        nib (s.railOne r mv) = 3 ∧ raisedIn s (s.railOne r mv) 1 0))
    ∧ (∀ ma, ∃ t : State, exec (.railCurrentPoll ma) s = .next t ∧ (∀ r < 12, t.rd PWR_RAIL_MEAS_MA 0 (8 * r) = ((nth none ma r).getD 0) % 2 ^ 32)
        ∧ (∀ r < 12, t.rd MGI_BUS_STAT_PMB_FAILED / 2 ^ r % 2 = b2n (nth none ma r).isNone)
        ∧ ((∃ r < 12, nth none ma r = none ∧ s.rd MGI_BUS_STAT_PMB_FAILED / 2 ^ r % 2 = 0) → t.flagged 0xF 2 = true))
    ∧ (∀ vin w, vin < 2 ^ 16 →
      (s.dur.flush = none → s.rd PWR_VIN_WARN = 0 ∨ s.rd PWR_VIN_WARN ≤ vin →
        ∃ t : State, exec (.inputPowerSample vin w) s = .next t ∧ t.mono = max s.mono (s.rails.inputAt + 10000) ∧ t.rd PWR_VIN_MEAS = vin ∧ t.rails.vinLow = false ∧ t.pwr.inputBack = false
          ∧ t.evInbox = s.evInbox)
      ∧ (s.dur.flush = none → 0 < s.rd PWR_VIN_WARN → vin < s.rd PWR_VIN_WARN → s.rails.vinLow = false →
        ∃ t : State, exec (.inputPowerSample vin w) s = .next t ∧ t.rd PWR_VIN_MEAS = vin ∧ t.rails.vinLow = true ∧ t.dur.flush = none ∧ raisedIn s t 1 4)
      ∧ (s.dur.flush.isSome = true → 0 < s.rd PWR_VIN_CUT → vin < s.rd PWR_VIN_CUT →
        ∃ t : State, exec (.inputPowerSample vin w) s = .next t ∧ t.pwr.off = true ∧ t.rails.en = [] ∧ t.rd PWR_RAIL_STAT_LAST_FAULT = 0xFE))
    ∧ (∀ rings, rings.length = 16 →
      let m := rings.sum / 16
      ∃ t : State, exec (.paceUpdate rings) s = .next t ∧ t.mono = max s.mono (s.rails.paceAt + 10000) ∧ t.rd GLB_PACE_VALID = 1 ∧ t.rd GLB_PACE_SEQ = (s.rd GLB_PACE_SEQ + 1) % 2 ^ 8
        ∧ t.rd GLB_PACE_STAGE_FS = m % 2 ^ 32 ∧ (∀ x ∈ rings, x ≤ nth 0 rings (t.rd GLB_PACE_SLOW_RING))
        ∧ t.rd GLB_PACE_SPREAD = min 0xFFF ((nth 0 rings (t.rd GLB_PACE_SLOW_RING) - m) / 100) ∧ regsKept s t [GLB_PACE_VALID.key])

/-- Thermal limits and service life (R482, R484, R486, R487). A sample reports Tj, its node, the inlet and the references; a reference that fails is reported;
Tj at WARN and at THROTTLE raises their events, the latter with the throttle on; a reference at 120 °C is a hardware trip. A silent case source
closes its channel's window. An hour is classed by its mean Tj, and reported above 105 °C. -/
def Obligations.ThermalAndLife : Prop :=
  ∀ (s : State),
    (∀ (x : ThermalIn) a b, x.ref0 = some a → x.ref1 = some b → a < 1920 → b < 1920 →
      ∃ t : State, exec (.thermalSample x) s = .next t ∧ t.rd THM_TJ_VALID = 1 ∧ t.rd THM_TJ_HOT_NODE = x.hotNode % 2 ^ 8 ∧ t.rd THM_TJ_TJ_MAX = temp16 x.tj16 ∧ t.rd THM_TJ_INLET = temp16 x.inlet16
        ∧ t.rd THM_REF_REF0 = temp16 a ∧ t.rd THM_REF_REF1 = temp16 b ∧ (t.rd THM_TJ_SAMPLE_US = 100 ∨ t.rd THM_TJ_SAMPLE_US = 1000)
        ∧ (s.thm.failed = [] → s.thm.warn = false → ((16 * s.rd THM_LIMITS_WARN : Nat) : Int) ≤ x.tj16 → t.thm.warn = true ∧ t.flagged 2 0 = true)
        ∧ (s.thm.failed = [] → s.pwr.throttle = false → ((16 * s.rd THM_LIMITS_THROTTLE : Nat) : Int) ≤ x.tj16 → t.pwr.throttle = true ∧ t.flagged 2 1 = true))
    ∧ (∀ (x : ThermalIn) b, x.ref0 = none → x.ref1 = some b → b < 1920 → 0 ∉ s.thm.failed →
      ∃ t : State, exec (.thermalSample x) s = .next t ∧ 0 ∈ t.thm.failed ∧ t.flagged 2 5 = true ∧ t.rd THM_REF_REF0 = 0x8000)
    ∧ (∀ (x : ThermalIn) a, x.ref0 = some a → 1920 ≤ a → ∃ t : State, exec (.thermalSample x) s = .next t ∧ t.pwr.off = true)
    ∧ (∀ c, c < 32 → s.rd PG_STAT_STATE (0x80 + c) = 2 →
      ∃ t : State, exec (.caseSourceSilent c) s = .next t ∧ t.winOpen c = false ∧ t.thm = s.thm ∧ (s.winOpen c = true → t.rd NCH_TEMP_WIN_OPEN c = 0 ∧ t.flagged (0x80 + c) 6 = true))
    ∧ (∀ c, 32 ≤ c ∨ s.rd PG_STAT_STATE (0x80 + c) ≠ 2 → exec (.caseSourceSilent c) s = .next s)
    ∧ (s.pwr.off = false → s.thm.hourN ≠ 0 →
      let m := s.thm.hourSum / (s.thm.hourN : Int)
      ∃ t : State, exec .lifeHour s = .next t ∧ t.mono = max s.mono (s.thm.hourAt + 3600000000000) ∧ t.rd THM_LIFE_HOURS = (s.rd THM_LIFE_HOURS + 1) % 2 ^ 22
        ∧ t.rd THM_LIFE_OVER85_H = (s.rd THM_LIFE_OVER85_H + b2n (decide (1360 < m))) % 2 ^ 21 ∧ t.rd THM_LIFE_OVER105_H = (s.rd THM_LIFE_OVER105_H + b2n (decide (1680 < m))) % 2 ^ 21
        ∧ t.thm.hourAt = t.mono ∧ t.thm.hourN = 0 ∧ t.thm.lifeSum = s.thm.lifeSum + m ∧ (1680 < m → raisedIn s t 2 8))
    ∧ (s.pwr.off = true → exec .lifeHour s = .next s)

/-- Programs, erases and reads of NAND (R231, R271, R272, R275, R280, R283, R284, R287, R294, R298). A program that ends makes its unit readable, is counted, and
for a host's destage becomes the page's copy with a MAP record; one that fails makes its block bad. An erase that ends empties the superblock
and counts it; one that fails makes the block bad. A die that answers no more is FAILED. A read is counted, an uncorrectable unit reported. -/
def Obligations.NandOperations : Prop :=
  ∀ (s : State),
    (∀ a ns p, NMap.find s.media.progs a = some p →
      ∃ t : State, exec (.programDone a ns) s = .next (t.closeFull a p.stream p.slc).mediaGoOn ∧ NMap.find t.media.progs a = none ∧ NMap.find t.media.units a = some p.unit
        ∧ t.rd NCH_COUNTER_COUNT (addrCh a) 8 = (s.rd NCH_COUNTER_COUNT (addrCh a) 8 + 1) % 2 ^ 64
        ∧ t.rd NCH_COUNTER_COUNT (addrCh a) 32 = (s.rd NCH_COUNTER_COUNT (addrCh a) 32 + 4096) % 2 ^ 64
        ∧ (p.stream ≤ 2 → t.rd MED_COUNTER_COUNT 0 (8 * p.stream) = (s.rd MED_COUNTER_COUNT 0 (8 * p.stream) + 1) % 2 ^ 64)
        ∧ (p.stream = 0 → (∃ x ∈ s.tier.destages, x.1 = p.unit.page ∧ x.2.unit = some a) →
          (t.pte p.unit.page).hasMedia = true ∧ (t.pte p.unit.page).media = a ∧ ∃ x ∈ t.media.jpend, ∃ tn, x.rec_ = .map tn p.unit.page a p.slc))
    ∧ (∀ a ns, NMap.find s.media.progs a = none → exec (.programDone a ns) s = .next s ∧ exec (.programFail a) s = .next s)
    ∧ (∀ a p, NMap.find s.media.progs a = some p →
      ∃ t : State, exec (.programFail a) s = .next t.mediaGoOn ∧ addrBlk (mediaAddr (addrCh a) (addrDie a) (addrPlane a) (addrBlock a) 0 0) ∈ t.media.bad
        ∧ t.rd MED_COUNTER_COUNT 0 64 = (s.rd MED_COUNTER_COUNT 0 64 + 1) % 2 ^ 64)
    ∧ (∀ g k ns, (s.sb (sbKey g k)).st = 4 →
      ∃ t : State, exec (.eraseDone g k ns) s = .next t.mediaGoOn ∧ (∀ u ∈ t.media.units, addrSb u.1 ≠ sbKey g k ∧ u ∈ s.media.units)
        ∧ t.sb (sbKey g k) = { erases := (s.sb (sbKey g k)).erases + 1, halves := (s.sb (sbKey g k)).halves } ∧ t.rd MED_COUNTER_COUNT 0 32 = (s.rd MED_COUNTER_COUNT 0 32 + 1) % 2 ^ 64)
    ∧ (∀ g k ns, (s.sb (sbKey g k)).st ≠ 4 → exec (.eraseDone g k ns) s = .next s)
    ∧ (∀ c d pl k, (s.sb (sbKey d k)).st = 4 →
      ∃ t : State, exec (.eraseFail c d pl k) s = .next t.mediaGoOn ∧ addrBlk (mediaAddr c d pl k 0 0) ∈ t.media.bad ∧ t.rd MED_COUNTER_COUNT 0 72 = (s.rd MED_COUNTER_COUNT 0 72 + 1) % 2 ^ 64)
    ∧ (∀ c d pl k, (s.sb (sbKey d k)).st ≠ 4 → exec (.eraseFail c d pl k) s = .next s)
    ∧ (∀ c d, c < 32 → d < 16 →
      (s.dieSt c d ≠ 0 → s.dieSt c d ≠ 4 → ∃ t : State, exec (.dieTimeout c d) s = .next t.mediaGoOn ∧ t.dieSt c d = 4 ∧ t.flagged (0x80 + c) 5 = true)
      ∧ (s.dieSt c d = 0 ∨ s.dieSt c d = 4 → exec (.dieTimeout c d) s = .next s.mediaGoOn))
    ∧ (∀ a ns steps soft corr good, NMap.find s.media.units a = none → exec (.unitReadDone a ns steps soft corr good) s = .next s)
    ∧ (∀ a ns corr u, NMap.find s.media.units a = some u →
      (corr < s.rd MED_RETRY_REFRESH_BITS → NMap.find s.media.relocs a = none →
        ∃ t : State, exec (.unitReadDone a ns 0 false corr true) s = .next t.mediaGoOn ∧ t.rd NCH_COUNTER_COUNT (addrCh a) 0 = (s.rd NCH_COUNTER_COUNT (addrCh a) 0 + 1) % 2 ^ 64
          ∧ t.rd NCH_COUNTER_COUNT (addrCh a) 24 = (s.rd NCH_COUNTER_COUNT (addrCh a) 24 + 4096) % 2 ^ 64
          ∧ regsKept s t [NCH_COUNTER_COUNT.key (addrCh a) 0, NCH_COUNTER_COUNT.key (addrCh a) 24] ∧ t.evInbox = s.evInbox ∧ t.media.units = s.media.units)
      ∧ (∀ steps soft, ∃ t : State, exec (.unitReadDone a ns steps soft corr false) s = .next t.mediaGoOn ∧ t.flagged 0xC 4 = true
        ∧ t.rd MED_COUNTER_COUNT 0 56 = (s.rd MED_COUNTER_COUNT 0 56 + 1) % 2 ^ 64))

/-- The media manager's upkeep (R270, R272, R274, R276, R278, R281, R285, R287, R288, R293). A journal unit makes its records durable; a checkpoint segment
is written, the last with the state image; a probe's end sets F and completes the commands that wait; wear levelling empties the least worn
closed NATIVE superblock; a patrol read that finds a bad unit reports it; a half-erased reserve superblock is erased again. A channel's window follows
its case temperature. MED_DIE_RETIRE needs a die in service and room for the data. -/
def Obligations.MediaUpkeep : Prop :=
  ∀ (s : State),
    (s.media.jfirst = none → exec .journalUnit s = .next s)
    ∧ (∀ t0, s.media.jfirst = some t0 →
      let m := if s.media.jpend.length < 126 then max s.mono (t0 + 50000) else s.mono
      (2 ^ 22 ≤ s.jrnNeeded → ∃ t : State, exec .journalUnit s = .next t ∧ t.mono = m ∧ raisedIn s t 0xC 8 ∧ t.media = s.media ∧ regsKept s t (evRegs 0xC))
      ∧ (s.jrnNeeded < 2 ^ 22 → ∃ t : State, exec .journalUnit s = .next t.mediaGoOn ∧ t.mono = m ∧ t.media.jpend = s.media.jpend.drop 126 ∧ t.media.jseq = s.media.jseq + 1
        ∧ t.media.jfirst = (if (s.media.jpend.drop 126).isEmpty then none else some m) ∧ t.rd MED_COUNTER_COUNT 0 120 = (s.rd MED_COUNTER_COUNT 0 120 + 1) % 2 ^ 64
        ∧ t.media.journal.getLast? = some ⟨s.media.jseq + 1, t.tb, (s.media.jpend.take 126).map (fun r => r.rec_)⟩
        ∧ (∀ tn pg a slc fr, s.media.jpend = [⟨.map tn pg a slc, fr⟩] → NMap.find t.media.durMap pg = some (a, tn))
        ∧ (∀ pg fr, s.media.jpend = [⟨.unmap pg, fr⟩] → NMap.find t.media.durMap pg = none)
        ∧ (∀ g k fr, s.media.jpend = [⟨.eraseBegin g k, fr⟩] → (t.sb (sbKey g k)).st = 4)))
    ∧ (s.rd PG_STAT_STATE 0xC = 2 →
      let n := max 1 (divUp (s.rd TIR_POOL_CFG_PT_MIB) 256)
      let k := s.media.ckptNext % n
      ∃ t : State, exec .ckptSeg s = .next t ∧ NMap.find t.media.ckpt k = some s.media.ckptBegan ∧ t.media.ckptNext = (k + 1) % n ∧ t.media.ckptBegan = s.media.jseq
        ∧ (k + 1 = n → t.dur.image.isSome = true) ∧ (k + 1 ≠ n → t.dur = s.dur) ∧ t.regs = s.regs)
    ∧ (s.rd PG_STAT_STATE 0xC = 2 → ∃ t : State, exec .capacityRecompute s = .next t.mediaGoOn ∧ t.rd MED_CAP_DATA_GIB = s.dataBytes / 2 ^ 30 % 2 ^ 32 ∧ t.media.units = s.media.units)
    ∧ (s.rd PG_STAT_STATE 0xC ≠ 2 → exec .ckptSeg s = .next s ∧ exec .capacityRecompute s = .next s ∧ exec .probeInterval s = .next s)
    ∧ (s.rd PG_STAT_STATE 0xC = 2 → 0 < s.rd MED_PROBE_INTERVAL_H →
      ∃ t : State, exec .probeInterval s = .next t ∧ t.mono = max s.mono (s.media.lastProbe + s.rd MED_PROBE_INTERVAL_H * 3600 * 1000000000) ∧ t.media = { s.media with probing := true, lastProbe := t.mono }
        ∧ t.rd MED_PROBE_BUSY = 1 ∧ regsKept s t [MED_PROBE_BUSY.key])
    ∧ (∀ units conc sum, s.media.probing = true →
      ∃ t : State, exec (.probeDone units conc sum) s = .next (s.media.probeCmds.foldl (fun u q => u.finishCmd q stOk (units * 3584 / 1000000)) t).settle
        ∧ t.media.probing = false ∧ t.media.probeCmds = [] ∧ t.media.probeF = units * 3584 ∧ t.media.probeSum = sum ∧ t.rd MED_PROBE_BUSY = 0
        ∧ t.rd TIR_FLUSH_RATE_MBPS = units * 3584 / 1000000 % 2 ^ 32 ∧ t.rd TIR_FLUSH_RATE_VALID = 1 ∧ t.flagged 0xC 7 = true
        ∧ (s.rd PG_STAT_STATE 0xA = 1 → t.rd PG_STAT_STATE 0xA = 2 ∧ t.ready 0xA = true))
    ∧ (∀ units conc sum, s.media.probing = false → exec (.probeDone units conc sum) s = .next s)
    ∧ (∀ sum, s.rd TIR_FLUSH_RATE_VALID ≠ 0 → s.media.probeSum ≠ 0 →
      ∃ t : State, exec (.flushRateRescale sum) s = .next t ∧ t.rd TIR_FLUSH_RATE_MBPS = s.media.probeF * sum / s.media.probeSum / 1000000 % 2 ^ 32)
    ∧ (∀ sum, s.rd TIR_FLUSH_RATE_VALID = 0 ∨ s.media.probeSum = 0 → exec (.flushRateRescale sum) s = .next s)
    ∧ (let nat_ := s.media.sbs.filter (fun e => e.2.role == 1)
      let hi := (nat_.map (fun e => e.2.erases)).foldl max 0
      let recent := s.media.wlMoves.filter (fun t => decide (s.mono - t < 3600 * 1000000000))
      (∀ e, s.halts 0xC = false → nat_.filter (fun e => e.2.st == 2) = [e] → e.2.erases + s.rd MED_RECLAIM_WL_DELTA < hi → recent.length < s.rd MED_RECLAIM_WL_MOVES_H →
        exec .wearLevel s = .next (({ s with media := { s.media with wlMoves := recent ++ [s.mono] } } : State).victim e.1 2).mediaGoOn)
      ∧ (s.halts 0xC = true ∨ s.rd MED_RECLAIM_WL_MOVES_H ≤ recent.length → exec .wearLevel s = .next s)
      ∧ (nat_.filter (fun e => e.2.st == 2) = [] → exec .wearLevel s = .next s))
    ∧ (∀ g k bad, (∃ e ∈ s.media.units, addrSb e.1 = sbKey g k) → s.halts 0xC = false → s.rd MED_RECLAIM_PATROL_D ≠ 0 →
      ∃ t : State, exec (.patrol g k bad) s = .next t.mediaGoOn ∧ (bad = [] → t = { s with regs := t.regs } ∧ t.evInbox = s.evInbox)
        ∧ ((∃ e ∈ s.media.units, addrSb e.1 = sbKey g k ∧ e.1 ∈ bad) → t.flagged 0xC 4 = true))
    ∧ (∀ g k bad, (∀ e ∈ s.media.units, addrSb e.1 ≠ sbKey g k) ∨ s.halts 0xC = true ∨ s.rd MED_RECLAIM_PATROL_D = 0 → exec (.patrol g k bad) s = .next s)
    ∧ (∀ g k, (s.sb (sbKey g k)).st = 0 → (s.sb (sbKey g k)).halves = 0 →
      ∃ t : State, exec (.reserveVerify [(g, k)]) s = .next t.mediaGoOn ∧ t.sb (sbKey g k) = { s.sb (sbKey g k) with st := 3, halves := 1 }
        ∧ t.rd MED_COUNTER_COUNT 0 80 = (s.rd MED_COUNTER_COUNT 0 80 + 1) % 2 ^ 64 ∧ t.flagged 0xC 5 = true)
    ∧ (∀ c r, c < 32 →
      let t0 := r + sByte (bits (NMap.getD s.thm.caseMap c 0) 23 16)
      let lo := sByte (s.rd MED_PROG_TMIN_C)
      let hi := sByte (s.rd MED_PROG_TMAX_C)
      ∃ t : State, exec (.dieTempRead c r) s = .next t ∧ t.rd NCH_TEMP_CASE_C c = (t0 % 256).toNat
        ∧ (c ∉ s.media.caseRead → t.winOpen c = decide (lo ≤ t0 ∧ t0 ≤ hi))
        ∧ (c ∈ s.media.caseRead → s.winOpen c = true → t.winOpen c = decide (lo ≤ t0 ∧ t0 ≤ hi))
        ∧ (c ∈ s.media.caseRead → s.winOpen c = false → t.winOpen c = decide (lo + 3 ≤ t0 ∧ t0 ≤ hi - 3)))
    ∧ (∀ q cmd i, s.blockRuns q cmd 0xC i 0x40 true → cmd.bare = true → cmd.w5 = 0 →
      ∃ t : State, exec (.medProbeRun q) s = .next t ∧ t.media.probing = true ∧ t.media.probeCmds = s.media.probeCmds ++ [q]
        ∧ (s.media.probing = false → t.rd MED_PROBE_BUSY = 1 ∧ t.media.lastProbe = s.mono))
    ∧ (∀ q cmd i, s.blockRuns q cmd 0xC i 0x41 true → cmd.bare = true → bits cmd.w5 63 9 = 0 →
      let c := bits cmd.w5 4 0
      let d := 4 * bits cmd.w5 6 5 + bits cmd.w5 8 7
      (s.dieSt c d ≠ 1 → s.dieSt c d ≠ 2 → exec (.medDieRetire q) s = .next ((s.running q).finishCmd q 0x40 0))
      ∧ (s.dieSt c d = 1 ∨ s.dieSt c d = 2 → s.dataMaxOf (s.rd MED_GEOM_DIES - 1) < s.dataBytes → exec (.medDieRetire q) s = .next ((s.running q).finishCmd q 0x41 0))
      ∧ (s.dieSt c d = 1 ∨ s.dieSt c d = 2 → s.dataBytes ≤ s.dataMaxOf (s.rd MED_GEOM_DIES - 1) →
        ∃ t : State, exec (.medDieRetire q) s = .next t.mediaGoOn ∧ t.dieSt c d = 3 ∧ t.media.retireCmds = s.media.retireCmds ++ [(q, c, d, 0, 0)]))

/-- Strands of the Swidun link (R324, R325, R331, R334, R340). A trained strand keys and sends its HELLO, a miswired one fails; a HELLO with a good tag and
fresh counts brings it UP, another fails it; a strand that leaves UP names its cause, is reported and counted, and trains again after 100 ms,
or fails with its tenth departure in an hour; the third window in a row with uncorrectable codewords takes it down. -/
def Obligations.LinkStrands : Prop :=
  ∀ (s : State) (n : Nat), n < 8 →
    let cause (t : State) : Nat := bits (t.reg (regKey 0xB 0x110)) (4 * n + 3) (4 * n)
    let recent := ((s.strand n).downs.filter (fun t => decide (s.mono - t < 3600 * 1000000000))).length
    let left (t : State) (c : Nat) : Prop := cause t = c ∧ t.strandSt n = (if 9 ≤ recent then 5 else 0) ∧ (t.strand n).retrainAt = (if 9 ≤ recent then none else some (s.mono + 100000000))
      ∧ t.flagged 0xB 33 = true ∧ t.rd MIR_LINK_COUNTER_COUNT 0 64 = (s.rd MIR_LINK_COUNTER_COUNT 0 64 + 1) % 2 ^ 64
    (s.strandSt n = 1 ∨ s.strandSt n = 2 →
      (∀ lanes, lanesOk n lanes = false → ∃ t : State, exec (.strandTrained n lanes) s = .next t ∧ t.strandSt n = 5 ∧ cause t = 5 ∧ (t.strand n).retrainAt = none ∧ t.flagged 0xB 34 = true)
      ∧ (∀ lanes, lanesOk n lanes = true → ∃ t : State, exec (.strandTrained n lanes) s = .next t ∧ t.strandSt n = 3 ∧ (t.strand n).helloSent = true
        ∧ ((s.keySlot 1).st = 0 → t.out = s.out) ∧ ((s.keySlot 1).st ≠ 0 → t.out = .hello n (t.helloMsg n) :: s.out)
        ∧ (s.linkState = 0 → (∀ m < 8, s.strandSt m ≠ 3) → t.link.linkCount = s.link.linkCount + 1)))
    ∧ (∀ lanes, s.strandSt n ≠ 1 → s.strandSt n ≠ 2 → exec (.strandTrained n lanes) s = .next s)
    ∧ (∀ m, s.strandSt n = 3 → (s.keySlot 1).st ≠ 0 →
      (m.tag = s.helloTag (!s.twinB) n m → s.helloFresh m = true → ∃ t : State, exec (.hello n m) s = .next t ∧ t.strandSt n = 4 ∧ t.linkState ≠ 0 ∧ t.link.twinBoot = m.bootCount ∧ t.link.twinLink = m.linkCount
        ∧ t.flagged 0xB 32 = true)
      ∧ (m.tag ≠ s.helloTag (!s.twinB) n m ∨ s.helloFresh m = false → ∃ t : State, exec (.hello n m) s = .next t ∧ t.strandSt n = 5 ∧ cause t = 6 ∧ t.flagged 0xB 38 = true))
    ∧ (∀ m, s.strandSt n ≠ 3 ∨ (s.keySlot 1).st = 0 → exec (.hello n m) s = .next s)
    ∧ (∀ c, (s.strandSt n = 4 → ∃ t : State, exec (.strandDown n c) s = .next t.settle ∧ left t (strandCauseNo c)) ∧ (s.strandSt n ≠ 4 → exec (.strandDown n c) s = .next s))
    ∧ (∀ a b, s.strandSt n = 4 →
      ∃ t : State, exec (.linkFecWindow n a b) s = .next t
        ∧ (b = 0 ∨ (s.strand n).fecBad < 2 → t.strandSt n = 4 ∧ (t.strand n).fecBad = (if b = 0 then 0 else (s.strand n).fecBad + 1)
          ∧ t.rd MIR_LINK_COUNTER_COUNT 0 32 = (s.rd MIR_LINK_COUNTER_COUNT 0 32 + a) % 2 ^ 64 ∧ t.rd MIR_LINK_COUNTER_COUNT 0 40 = (s.rd MIR_LINK_COUNTER_COUNT 0 40 + b) % 2 ^ 64
          ∧ regsKept s t [MIR_LINK_COUNTER_COUNT.key 0 32, MIR_LINK_COUNTER_COUNT.key 0 40])
        ∧ (b ≠ 0 → 2 ≤ (s.strand n).fecBad → left t 2))
    ∧ (∀ a b, s.strandSt n ≠ 4 → exec (.linkFecWindow n a b) s = .next s)
    ∧ (∀ t0, (s.strand n).retrainAt = some t0 → s.strandSt n = 0 → s.strandEn n = true →
      ∃ t : State, exec (.strandRetrain n) s = .next t ∧ t.mono = max s.mono t0 ∧ t.strandSt n = 1 ∧ (t.strand n).retrainAt = none ∧ regsKept s t [regKey 0xB 0x108])
    ∧ ((s.strand n).retrainAt = none ∨ s.strandSt n ≠ 0 → exec (.strandRetrain n) s = .next s)
    ∧ (∀ t0, (s.strand n).disableAt = some t0 →
      ∃ t : State, exec (.strandDisableTimeout n) s = .next t.settle ∧ t.mono = max s.mono t0 ∧ t.strandSt n = 0 ∧ cause t = 7 ∧ (t.strand n).retrainAt = none)
    ∧ ((s.strand n).disableAt = none → exec (.strandDisableTimeout n) s = .next s)

/-- Credit, retry, key rotation, time and the sideband (R329, R330, R333, R335, R337, R338, R340). A CREDIT frame acknowledges frames and adds credit; one
with a bad tag is counted, the fourth in a row takes the strand down. A retry time-out sends the frames again, a frame at most 16 times. A rotation
raises the generation by 1 and is reported; one that does not end in 10 µs takes the strand down. Sideband frames leave every
100 µs; one received is accepted by its tag, boot count and sequence; MISS periods without one raise SB_LOST. -/
def Obligations.LinkTraffic : Prop :=
  ∀ (s : State) (n : Nat), n < 8 →
    let cause (t : State) : Nat := bits (t.reg (regKey 0xB 0x110)) (4 * n + 3) (4 * n)
    let ofHdr (h : LinkHdr) : LinkBody := .credit h.ack h.nak h.credit1 h.credit2 h.credit3
    (∀ h, s.strandSt n ≠ 4 ∨ h.codewordOk = false → exec (.credit n h) s = .next s.settle)
    ∧ (∀ h, s.strandSt n = 4 → h.codewordOk = true → s.linkTagOk n h (ofHdr h) = true → h.nak = false → s.link.queue = [] → (s.strand n).disableAt = none →
      ∃ t : State, exec (.credit n h) s = .next t.settle ∧ (t.strand n).unacked = (s.strand n).unacked.filter (fun f => decide (h.ack < f.fseq))
        ∧ NMap.getD t.link.credit 1 0 = NMap.getD s.link.credit 1 0 + h.credit1 ∧ NMap.getD t.link.credit 2 0 = NMap.getD s.link.credit 2 0 + h.credit2
        ∧ NMap.getD t.link.credit 3 0 = NMap.getD s.link.credit 3 0 + h.credit3 ∧ t.strandSt n = 4 ∧ t.rd MIR_LINK_COUNTER_COUNT 0 8 = (s.rd MIR_LINK_COUNTER_COUNT 0 8 + 1) % 2 ^ 64)
    ∧ (∀ h, s.strandSt n = 4 → h.codewordOk = true → s.linkTagOk n h (ofHdr h) = false →
      ∃ t : State, exec (.credit n h) s = .next t.settle ∧ t.rd MIR_LINK_COUNTER_COUNT 0 48 = (s.rd MIR_LINK_COUNTER_COUNT 0 48 + 1) % 2 ^ 64
        ∧ ((s.strand n).tagRun < 3 → (t.strand n).tagRun = (s.strand n).tagRun + 1 ∧ t.strandSt n = 4) ∧ (3 ≤ (s.strand n).tagRun → t.strandSt n ≠ 4 ∧ cause t = 4 ∧ t.flagged 0xB 39 = true))
    ∧ (let c (v : Nat) : Nat := NMap.getD s.link.owed v 0
      let c2 := if s.vc2Withheld then 0 else c 2
      let b : LinkBody := .credit (s.strand n).rxFseq (s.strand n).nakOwed (c 1) c2 (c 3)
      let f : SentFrame := { fseq := (s.strand n).nextFseq - 1, vc := 0, vseq := 0, epoch := 0, blocks := 0, body := b, gen := s.link.txGen, ack := (s.strand n).rxFseq,
                             nak := (s.strand n).nakOwed, credits := (c 1, c2, c 3) }
      (s.strandSt n = 4 → (s.strand n).ackOwed = true ∨ (s.strand n).nakOwed = true ∨ c 1 + c2 + c 3 ≠ 0 →
        ∃ t : State, exec (.creditSend n) s = .next t ∧ t.out = .linkFrame n ((s.strand n).nextFseq - 1) 0 0 0 b (s.frameWire n f) :: s.out
          ∧ (t.strand n).ackOwed = false ∧ (t.strand n).nakOwed = false ∧ t.rd MIR_LINK_COUNTER_COUNT 0 0 = (s.rd MIR_LINK_COUNTER_COUNT 0 0 + 1) % 2 ^ 64
          ∧ NMap.getD t.link.owed 1 0 = 0 ∧ NMap.getD t.link.owed 2 0 = c 2 - c2 ∧ NMap.getD t.link.owed 3 0 = 0)
      ∧ (s.strandSt n ≠ 4 → exec (.creditSend n) s = .next s))
    ∧ (∀ t0 f, (s.strand n).retryAt = some t0 → (s.strand n).unacked = [f] → 0 < f.fseq → s.strandSt n = 4 →
      ∃ t : State, exec (.linkRetryTimeout n) s = .next t ∧ t.mono = max s.mono t0
        ∧ (f.tries < 15 → t.out = .linkFrame n f.fseq f.vc f.vseq f.epoch f.body (s.frameWire n f) :: s.out ∧ (t.strand n).unacked = [{ f with tries := f.tries + 1 }] ∧ t.strandSt n = 4
          ∧ t.rd MIR_LINK_COUNTER_COUNT 0 56 = (s.rd MIR_LINK_COUNTER_COUNT 0 56 + 1) % 2 ^ 64)
        ∧ (15 ≤ f.tries → t.strandSt n ≠ 4 ∧ cause t = 3))
    ∧ ((s.strand n).unacked = [] ∨ s.strandSt n ≠ 4 → exec (.linkRetryTimeout n) s = .next s)
    ∧ (s.linkState ≠ 0 → ∃ t : State, exec .timeExchange s = .next t ∧ t.mono = max s.mono s.link.timeNext ∧ t.link.timeSent = t.tb % 2 ^ 56 * 256 ∧ t.link.timeNext = t.mono + 100000
        ∧ t.rd MIR_TIME_STAT_REFERENCE = b2n s.timeRef)
    ∧ (s.linkState = 0 → exec .timeExchange s = .next s ∧ exec .keyRotate s = .next s)
    ∧ (s.linkState ≠ 0 → s.link.txGen ≠ 0xFFFFFFFF →
      ∃ t : State, exec .keyRotate s = .next t ∧ t.link.txGen = s.link.txGen + 1 ∧ t.rd MIR_KEY_STAT_TX_GEN = (s.link.txGen + 1) % 2 ^ 32 ∧ t.link.genSince = t.mono
        ∧ t.rd MIR_LINK_COUNTER_COUNT 0 72 = (s.rd MIR_LINK_COUNTER_COUNT 0 72 + 1) % 2 ^ 64 ∧ t.flagged 0xB 40 = true)
    ∧ (s.linkState ≠ 0 → s.link.txGen = 0xFFFFFFFF → ∃ t : State, exec .keyRotate s = .next t ∧ ∀ m < 8, t.strandSt m ≠ 4)
    ∧ (∀ t0, (s.strand n).rotWait = some t0 → s.strandSt n = 4 →
      ∃ t : State, exec (.rotationTimeout n) s = .next t ∧ t.mono = max s.mono (t0 + 10000) ∧ t.strandSt n ≠ 4 ∧ cause t = 8 ∧ t.flagged 0xB 33 = true)
    ∧ ((s.strand n).rotWait = none ∨ s.strandSt n ≠ 4 → exec (.rotationTimeout n) s = .next s)
    ∧ (s.rd MIR_SB_CFG_PORT < 96 → ∃ t : State, exec .sidebandSend s = .next t ∧ t.mono = max s.mono s.link.sbNext ∧ t.link.sbSeq = s.link.sbSeq + 1 ∧ t.link.sbNext = t.mono + 100000
        ∧ t.rd MIR_LINK_COUNTER_COUNT 0 96 = (s.rd MIR_LINK_COUNTER_COUNT 0 96 + 1) % 2 ^ 64)
    ∧ (96 ≤ s.rd MIR_SB_CFG_PORT → exec .sidebandSend s = .next s)
    ∧ (∀ p f b, (s.port p).rxq.find? (fun f => match f.frame.body with | .sideband _ => true | _ => false) = some f → f.frame.body = .sideband b →
      (s.sbFresh b = true → s.pair.prefWait = false → ∃ t : State, exec (.sidebandFrame p) s = .next t ∧ t.link.sbTwinBoot = b.bootCount ∧ t.link.sbTwinSeq = b.seq ∧ t.link.sbLast = some s.mono
        ∧ t.link.sbFlags = some b ∧ t.rd MIR_SB_STAT_ALIVE = 1 ∧ t.rd MIR_SB_STAT_LAST_SEQ = b.seq % 2 ^ 32 ∧ (t.port p).rxq = (s.port p).rxq.erase f ∧ t.evInbox = s.evInbox)
      ∧ (s.sbFresh b = false → ∃ t : State, exec (.sidebandFrame p) s = .next t ∧ t.link = s.link ∧ raisedIn s t 0xB 44
        ∧ t.rd MIR_LINK_COUNTER_COUNT 0 112 = (s.rd MIR_LINK_COUNTER_COUNT 0 112 + 1) % 2 ^ 64))
    ∧ (∀ t0, s.link.sbLast = some t0 → s.rd MIR_SB_STAT_ALIVE = 1 → s.pair.prefWait = false →
      ∃ t : State, exec .sbLost s = .next t ∧ t.mono = max s.mono (t0 + s.rd MIR_SB_CFG_MISS * 100000) ∧ t.rd MIR_SB_STAT_ALIVE = 0 ∧ raisedIn s t 0xB 43
        ∧ regsKept s t (MIR_SB_STAT_ALIVE.key :: evRegs 0xB))
    ∧ (s.link.sbLast = none ∨ s.rd MIR_SB_STAT_ALIVE = 0 → exec .sbLost s = .next s)

/-- Frames of the twin that are delivered (R159, R328, R329, R332, R333, R343, R344, R346, R350 to R353, R359). Records, pages and a SEAL join the incoming epoch
they name; a SEAL_ACK acknowledges an epoch; a request for a region owned here becomes an operation or is answered NOT_OWNER; an answer
ends its operation; a HEARTBEAT restarts the loss timer; KEY_NEXT sets the receiver's generation. A frame in order is delivered; on a
strand that is not UP nothing is. -/
def Obligations.TwinFrames : Prop :=
  ∀ (s u : State) (n : Nat) (h : LinkHdr),
    let inc (v : State) : Option Incoming := v.pair.incoming.find? (fun i => i.n == h.epoch)
    let old : Incoming := (inc u).getD { n := h.epoch }
    (∀ b, n < 8 → s.strandSt n = 4 → h.codewordOk = true → s.linkTagOk n h b = true → h.nak = false → s.link.queue = [] → h.fseq = (s.strand n).rxFseq + 1 →
      h.vseq = NMap.getD s.link.rxVseq b.vc 1 → NMap.getD s.link.reorder b.vc [] = [] → ∃ v, s.delivered n h b v ∧ (v.strand n).rxFseq = h.fseq ∧ (v.strand n).ackOwed = true)
    ∧ (n < 8 → s.strandSt n ≠ 4 → exec (.sealAck n h) s = .next (s.offCheck n).twinGo)
    ∧ (∀ rs, s.delivered n h (.epochData rs) u → u.pair.appliedTo < h.epoch →
      ∃ v : State, exec (.epochData n h rs) s = .next (v.applyNext.offCheck n).twinGo ∧ v.regs = u.regs ∧ ∃ i, inc v = some i ∧ i.recs = old.recs ++ rs ∧ i.resync = old.resync ∧ i.sealed = old.sealed)
    ∧ (∀ m, s.delivered n h (.resync m) u → u.pair.appliedTo < h.epoch → (∃ a b c d e f, m = .quarter a b c d e f) →
      ∃ v : State, exec (.resync n h m) s = .next (v.applyNext.offCheck n).twinGo ∧ v.regs = u.regs ∧ ∃ i, inc v = some i ∧ i.resync = old.resync ++ [m] ∧ i.recs = old.recs)
    ∧ (∀ m, s.delivered n h (.seal m) u → u.pair.appliedTo < h.epoch → u.openSlot = none →
      ∃ v : State, exec (.sealFrame n h m) s = .next (v.applyNext.offCheck n).twinGo ∧ v.regs = u.regs ∧ (m.final = true → v.pair.finalSeen = true)
        ∧ v.pair.deadline = (if u.pair.openEpoch = h.epoch + 1 then min u.pair.deadline (u.monoOf m.closeTb + u.rd MIR_EPOCH_NS_NS) else u.pair.deadline)
        ∧ ∃ i, inc v = some i ∧ i.sealed = some m ∧ i.recs = old.recs)
    ∧ (∀ e t0, s.delivered n h .sealAck u → u.pair.epochs.find? (fun e => e.n == h.epoch) = some e → e.closed = some t0 →
      ∃ v : State, exec (.sealAck n h) s = .next (v.offCheck n).twinGo ∧ v.pair.epochs = u.pair.epochs.map (fun x => if x.n = h.epoch then { x with acked := true } else x)
        ∧ v.rd MIR_TWIN_COUNTER_COUNT 0 16 = (u.rd MIR_TWIN_COUNTER_COUNT 0 16 + (u.mono - t0)) % 2 ^ 64)
    ∧ (∀ m, s.delivered n h (.fwdReq m) u →
      (u.ingressClosed = true ∨ u.role = 5 → exec (.fwdReq n h m) s = .next (u.offCheck n).twinGo)
      ∧ (u.ingressClosed = false → u.role ≠ 5 → m.first = true → m.last = true → m.op ≠ .protWrite → m.op ≠ .discard → m.op ≠ .stop → u.pair.kept = [] → u.link.partial_ = [] →
        (u.owns (regionOf m.poolOff) = false →
          let w := ((u.addLink (fwdCells m)).askIn .forwarded (u.rd HTH_PART_PKT_BASE_MIB) u.hearth.layout.pkt (4 * fwdCells m)).twinCtr 6
          exec (.fwdReq n h m) s = .next ((((w.subLink (fwdCells m)).afterFree 96).fwdAnswer m .notOwner 0).offCheck n).twinGo)
        ∧ (u.owns (regionOf m.poolOff) = true → (u.region (regionOf m.poolOff)).served = true →
          ∃ (v : State) (o : Op), exec (.fwdReq n h m) s = .next (v.offCheck n).twinGo ∧ v.dp.ops = u.dp.ops ++ [o] ∧ o.for_ = .fwd m.qpn m.psn m.seg ∧ o.kind = fwdKind m ∧ o.pool = m.poolOff ∧ o.len = m.len
            ∧ o.data = m.data ∧ o.tenant = m.tenant ∧ o.linkCells = fwdCells m ∧ v.hearth.linkCharge = u.hearth.linkCharge + fwdCells m ∧ v.rd MIR_TWIN_COUNTER_COUNT 0 48 = (u.rd MIR_TWIN_COUNTER_COUNT 0 48 + 1) % 2 ^ 64)))
    ∧ (∀ m f o, s.delivered n h (.fwdResp m) u → u.pair.fwdOut.find? (fun f => f.msg.qpn == m.qpn && f.msg.psn == m.psn && f.msg.seg == m.seg) = some f → u.op? f.op = some o → m.status = .done →
      (f.msg.op = .read → f.msg.len ≤ f.got.length + m.data.length) →
      ∃ (v : State) (o' : Op), exec (.fwdResp n h m) s = .next (v.offCheck n).twinGo ∧ v.op? f.op = some o' ∧ o'.placed = true ∧ o'.left = 0 ∧ o'.result = m.result ∧ o'.got = o.linesOf (f.got ++ m.data) ∧ (∀ x ∈ v.pair.fwdOut, x.op ≠ f.op)
        ∧ v.rd TIR_DIRTY_RESERVED_BYTES = u.rd TIR_DIRTY_RESERVED_BYTES - fwdNeed f.msg)
    ∧ (∀ m, s.delivered n h (.heartbeat m) u → u.role ≠ 6 → u.role ≠ 7 →
      exec (.heartbeat n h m) s = .next (({ u with pair := { u.pair with lastHb := some u.mono, twinHb := some m } } : State).offCheck n).twinGo)
    ∧ (∀ g, s.delivered n h (.keyNext g) u →
      ∃ v : State, exec (.keyNext n h g) s = .next (v.offCheck n).twinGo ∧ v.link = { u.link with rxGen := g, rxOld := some (g - 1), strands := v.link.strands } ∧ (∀ k, v.strand k = { u.strand k with rxNewGen := false }) ∧ v.rd MIR_KEY_STAT_RX_GEN = g % 2 ^ 32 ∧ regsKept u v [MIR_KEY_STAT_RX_GEN.key])
    ∧ (∀ m, s.delivered n h (.handshake m) u →
      (u.pair.twinHello.isSome = true ∨ u.rd GLB_START_STAT_PHASE < 11 → exec (.handshake n h m) s = .next (u.offCheck n).twinGo)
      ∧ (u.pair.twinHello = none → 11 ≤ u.rd GLB_START_STAT_PHASE → u.pair.hsSentAt.isSome = true →
        exec (.handshake n h m) s = .next ((u.decide_ m).offCheck n).twinGo ∧ (u.decide_ m).pair.twinHello = some m
          ∧ (m.part ≠ 0x96 ∨ m.layout ≠ 1 → (u.decide_ m).role = 8 ∧ (u.decide_ m).flagged 0xB 2 = true)))

/-- The mirror unit's own happenings (R4, R159, R302, R342, R343, R350 to R354, R359). An applied epoch of the twin is acknowledged and counted; the open epoch
closes at its deadline; heartbeats, handshakes and pages of a copy leave in turn; heartbeats missed raise HB_LOSS; SOLO_WAIT that expires opens service alone,
with every region owned and the pair generation raised. -/
def Obligations.TwinHappenings : Prop :=
  ∀ (s : State),
    (∀ i, s.pair.incoming.find? (fun i => i.started) = some i → (∀ o ∈ s.dp.ops, o.for_ ≠ .apply) →
      ∃ v : State, v.pair.appliedTo = i.n ∧ v.pair.incoming = s.pair.incoming.filter (fun x => x.n != i.n) ∧ v.pair.epochs = s.pair.epochs.map (fun e => if e.n = i.n then { e with applied := true } else e)
        ∧ v.rd MIR_TWIN_COUNTER_COUNT 0 24 = (s.rd MIR_TWIN_COUNTER_COUNT 0 24 + 1) % 2 ^ 64 ∧ v.rd MIR_TWIN_COUNTER_COUNT 0 32 = (s.rd MIR_TWIN_COUNTER_COUNT 0 32 + (s.mono - i.startedAt)) % 2 ^ 64
        ∧ (∀ m, i.sealed = some m → m.drill = false → m.final = false → exec .epochApplied s = .next v.twinGo.applyNext.twinGo) ∧ (i.sealed = none → exec .epochApplied s = .next v.twinGo))
    ∧ ((∃ o ∈ s.dp.ops, o.for_ = .apply) ∨ (∀ i ∈ s.pair.incoming, i.started = false) → exec .epochApplied s = .next s)
    ∧ (∀ e, s.openSlot = some e →
      ∃ v : State, exec .epochClose s = .next v.applyNext.twinGo ∧ v.mono = max s.mono s.pair.deadline ∧ v.pair.deadline = v.mono + s.rd MIR_EPOCH_NS_NS ∧ (∃ x ∈ v.pair.epochs, x.n = e.n ∧ x.closed = some v.mono)
        ∧ v.rd MIR_TWIN_COUNTER_COUNT 0 0 = (s.rd MIR_TWIN_COUNTER_COUNT 0 0 + 1) % 2 ^ 64)
    ∧ (s.openSlot = none → exec .epochClose s = .next s)
    ∧ (s.linkState ≠ 0 → s.pair.opened = true →
      ∃ t : State, exec .heartbeatSend s = .next t ∧ t.mono = max s.mono (s.pair.lastHbSent + s.rd MIR_EPOCH_NS_NS) ∧ t.pair = { s.pair with lastHbSent := t.mono })
    ∧ (s.linkState = 0 ∨ s.pair.opened = false → exec .heartbeatSend s = .next s)
    ∧ (∀ t0, s.pair.lastHb = some t0 → s.paired = true → s.pair.lossWait = false →
      ∃ v : State, exec .hbLoss s = .next v.onLoss.twinGo ∧ v.mono = max s.mono (t0 + s.rd MIR_HB_MISS_MISS * s.rd MIR_EPOCH_NS_NS) ∧ raisedIn s v 0xB 4 ∧ v.pair = s.pair ∧ regsKept s v (evRegs 0xB))
    ∧ (s.pair.lastHb = none ∨ s.paired = false ∨ s.pair.lossWait = true → exec .hbLoss s = .next s)
    ∧ (∀ t0, s.pair.hsSentAt = some t0 → s.pair.twinHello = none → s.linkState ≠ 0 → 11 ≤ s.rd GLB_START_STAT_PHASE →
      ∃ t : State, exec .handshakeRepeat s = .next t ∧ t.mono = max s.mono (t0 + 1000000) ∧ t.pair.hsSentAt = some t.mono ∧ t.pair.twinHello = none)
    ∧ (s.pair.hsSentAt = none ∨ s.pair.twinHello.isSome = true → exec .handshakeRepeat s = .next s)
    ∧ (∀ t0, s.pair.waitSince = some t0 → 0 < s.rd MIR_SOLO_WAIT_S → s.role = 0 → s.pair.conflict = false → s.rd GLB_START_STAT_PHASE = 11 →
      ∃ v : State, exec .soloWaitExpiry s = .next v.settle ∧ v.mono = max s.mono (t0 + s.rd MIR_SOLO_WAIT_S * 1000000000) ∧ v.role = 2 ∧ v.rd GLB_START_STAT_PHASE = 12 ∧ v.ready 0 = true
        ∧ v.rd MIR_PAIR_GEN_VALUE = (s.rd MIR_PAIR_GEN_VALUE + 1) % 2 ^ 64 ∧ v.pair.waitSince = none ∧ v.flagged 0xB 3 = true ∧ ∀ r, v.owns r = true)
    ∧ (s.pair.waitSince = none ∨ s.rd MIR_SOLO_WAIT_S = 0 ∨ s.role ≠ 0 ∨ s.pair.conflict = true → exec .soloWaitExpiry s = .next s)
    ∧ (∀ p q e, s.role = 7 → s.pair.resyncOn = true → s.pair.listWait = false → s.nextCopy = some p → s.pageUnsealed p = false → s.hearth.level ≠ 2 → s.openSlot = some e →
      ∃ v : State, exec (.resyncCopy p q) s = .next v.twinGo ∧ v.mono = max s.mono (s.pair.lastCopy + 4096 / max 1 (s.rd MIR_RESYNC_CFG_RATE_GBPS)) ∧ v.pair.resyncAt = p + 1 ∧ v.pair.lastCopy = v.mono
        ∧ v.rd MIR_TWIN_COUNTER_COUNT 0 56 = (s.rd MIR_TWIN_COUNTER_COUNT 0 56 + 1) % 2 ^ 64)
    ∧ (∀ p q, s.role ≠ 7 ∨ s.pair.resyncOn = false ∨ s.nextCopy ≠ some p → exec (.resyncCopy p q) s = .next s)

/-- The MIR commands (R348, R355, R361 to R363, R365). MIR_REBALANCE, MIR_RETURN and MIR_DRILL end with 0x40 outside PAIRED and with 0x41 while a takeover, a move
or a resynchronisation runs. MIR_REBALANCE moves the regions whose owner is not that of the rule, MIR_RETURN gives the hosted QPs back, MIR_DRILL
closes ingress and seals a final epoch, MIR_TAKEOVER declares loss from FENCED or from a wait and has nothing to do elsewhere. -/
def Obligations.MirCommands : Prop :=
  ∀ (s : State) (q : Nat) (c : RqCmd) (i : Nat),
    let u := s.running q
    (s.blockRuns q c 0xB i 0x40 false → c.bare = true → c.w5.toNat ≤ 1 →
      let all := (List.range s.tier.poolRegions).filter (fun r => (s.region r).ownerB != (r % 2 == 1))
      let rs := if c.w5 = 1 then all.take (all.length / 2) else all
      (s.role ≠ 1 → exec (.mirRebalance q) s = .next (u.finishCmd q 0x40 0))
      ∧ (s.role = 1 → s.mirBusy = true → exec (.mirRebalance q) s = .next (u.finishCmd q 0x41 0))
      ∧ (s.role = 1 → s.mirBusy = false → rs ≠ [] → ∃ v : State, exec (.mirRebalance q) s = .next v.twinGo ∧ v.pair.rebalance = some (q, rs))
      ∧ (s.role = 1 → s.mirBusy = false → rs = [] → s.prot.waits = [] →
        exec (.mirRebalance q) s = .next (({ u with pair := { u.pair with rebalance := none } } : State).finishCmd q stOk 0)))
    ∧ (s.blockRuns q c 0xB i 0x41 false → c.bare = true → c.w5 = 0 →
      let hosted := (s.qps.filter (fun e => qpnRange e.1 == some (!s.twinB) && s.qHosted e.1)).map Prod.fst
      (s.role ≠ 1 → exec (.mirReturn q) s = .next (u.finishCmd q 0x40 0))
      ∧ (s.role = 1 → s.mirBusy = true → exec (.mirReturn q) s = .next (u.finishCmd q 0x41 0))
      ∧ (s.role = 1 → s.mirBusy = false → ∃ v : State, exec (.mirReturn q) s = .next (v.finishCmd q stOk hosted.length) ∧ (∀ n ∈ hosted, v.qHosted n = false)
        ∧ (∀ e ∈ v.addrs, 4 ≤ e.1 % 8 → e.2.state ≠ 3) ∧ (hosted ≠ [] → v.flagged 0x11 5 = true)))
    ∧ (s.blockRuns q c 0xB i 0x42 false → c.bare = true → c.w5 = 0 →
      (s.role ≠ 1 → exec (.mirDrill q) s = .next (u.finishCmd q 0x40 0))
      ∧ (s.role = 1 → s.mirBusy = true → exec (.mirDrill q) s = .next (u.finishCmd q 0x41 0))
      ∧ (s.role = 1 → s.mirBusy = false → ∃ v : State, exec (.mirDrill q) s = .next v.twinGo ∧ v.pair.dropping = true ∧ v.ingressClosed = true ∧ v.pair.drillCmd = some q
        ∧ (∀ e, s.openSlot = some e → v.pair.flushEpoch = some e.n) ∧ (s.openSlot = none → v.pair = { s.pair with dropping := true, drillCmd := some q })))
    ∧ (s.blockRuns q c 0xB i 0x43 false → c.bare = true → c.w5 = 0 →
      (s.role = 5 ∨ s.pair.prefWait = true ∨ s.pair.strictWait = true →
        exec (.mirTakeover q) s = .next ((u.declareLoss 3).twinGo.finishCmd q stOk ((u.declareLoss 3).twinGo.rd MIR_TAKEOVER_STAT_DURATION_NS)))
      ∧ (s.role ≠ 5 → s.pair.prefWait = false → s.pair.strictWait = false → exec (.mirTakeover q) s = .next (u.finishCmd q (if s.mirBusy then 0x41 else 0x42) 0)))

/-- Fetches, destages, moves and the pool's size (R215, R221, R222, R224, R231, R256, R257). A good fetch fills the frame and makes the page RESIDENT; one that cannot
be corrected takes the twin's page, DIRTY, or poison. A destage that is durable returns its charges; a demotion then frees the frame unless a
write came or a fill is in flight. A page moved out of a retiring rank lies in its new frame, line by line as read or recovered; a block
of the page table or the system area lies there too, and a page discarded meanwhile leaves the frame free. A larger pool takes effect. -/
def Obligations.FetchDestageAndMove : Prop :=
  ∀ (s : State),
    (∀ p good twin, (s.pte p).st ≠ .fetching ∨ (∃ w ∈ s.tier.stagingWait, w.1 = p) → exec (.fetchDone p good twin) s = .next s)
    ∧ (∀ p, (s.pte p).st = .fetching → (∀ w ∈ s.tier.stagingWait, w.1 ≠ p) → p ∉ s.tier.discardLater →
      let e := s.pte p
      (∀ u twin, s.injKind (4 * p + 3) ≠ 2 → NMap.find s.media.units e.media = some u →
        ∃ v : State, exec (.fetchDone p true twin) s = .next v.settle.tirCheck.eraseCheck.settle ∧ v.pte p = { e with st := .resident } ∧ (∀ j < 64, v.dramLine e.ch e.idx j = nth {} u.lines j)
          ∧ v.evInbox = s.evInbox ∧ v.rd MED_COUNTER_COUNT 0 24 = (s.rd MED_COUNTER_COUNT 0 24 + 1) % 2 ^ 64)
      ∧ (∀ ls, s.paired = true →
        ∃ v : State, exec (.fetchDone p false (some ls)) s = .next v.settle.tirCheck.eraseCheck.settle ∧ v.pte p = { e with st := .resident, dirty := true }
          ∧ (∀ j < 64, v.dramLine e.ch e.idx j = nth {} (ls.map (fun l => ⟨l, false⟩)) j) ∧ (NMap.find v.tier.recs p).isSome = true ∧ (p ∉ s.tier.recovering → v.flagged 0xA 4 = true))
      ∧ (s.paired = true → p ∉ s.tier.recovering →
        ∃ v : State, exec (.fetchDone p false none) s = .next v.settle.tirCheck.eraseCheck.settle ∧ v.pte p = e ∧ v.tier.recovering = s.tier.recovering ++ [p] ∧ v.flagged 0xA 4 = true)
      ∧ (∀ twin, s.paired = false → p ∉ s.tier.recovering →
        ∃ v : State, exec (.fetchDone p false twin) s = .next v.settle.tirCheck.eraseCheck.settle ∧ v.pte p = { e with st := .resident }
          ∧ (∀ j < 64, v.dramLine e.ch e.idx j = ⟨0, true⟩) ∧ v.flagged 0xA 4 = true))
    ∧ (∀ p, NMap.find s.tier.recs p = none → exec (.destageAge p) s = .next s)
    ∧ (∀ p r, NMap.find s.tier.recs p = some r →
      let z := s.upTo (r.born + s.rd TIR_DESTAGE_AGE_US * 1000)
      let w := z.writeBackPage p
      (z.pageUnsealed p = true ∨ z.mediaRuns = false → exec (.destageAge p) s = .next z.settle)
      ∧ (∀ a x, z.pageUnsealed p = false → z.mediaRuns = true → z.stagingFull = false → (∀ d ∈ s.tier.destages, d.1 ≠ p) → (s.pte p).st = .resident → (s.pte p).hasMedia = true → s.frameLost (s.pte p) = false →
        w.startProg 0 (decide (w.slcUsed < w.slcBytes)) none { page := p, tenant := (s.pte p).tenant, lines := w.frameLines p } = some (a, x) →
        ∃ v : State, exec (.destageAge p) s = .next v.settle ∧ v.mono = z.mono ∧ NMap.find v.tier.destages p = some { mask := r.mask, demote := false, wrote := false, unit := some a } ∧ v.media.progs = x.media.progs))
    ∧ (∀ p, NMap.find s.tier.destages p = none → exec (.destageDone p) s = .next s)
    ∧ (∀ p d, NMap.find s.tier.destages p = some d →
      (s.destageDurable p d = false → exec (.destageDone p) s = .next s)
      ∧ (∀ r, s.destageDurable p d = true → NMap.find s.tier.recs p = some r →
        let gone := r.mask &&& (d.mask &&& ~~~d.again)
        let left := r.mask &&& ~~~gone
        ∃ v : State, exec (.destageDone p) s = .next v.settle.tirCheck.mediaGoOn ∧ NMap.find v.tier.destages p = none
          ∧ v.rd TIR_DIRTY_CHARGED_BYTES = s.rd TIR_DIRTY_CHARGED_BYTES - 64 * popcount gone
          ∧ NMap.find v.tier.recs p = (if left = 0 then none else some { r with mask := left })
          ∧ (d.demote = false → v.pte p = { s.pte p with dirty := decide (left ≠ 0) })
          ∧ (d.demote = true → d.wrote = true ∨ left ≠ 0 ∨ s.pageUnsealed p = true → v.pte p = { s.pte p with dirty := decide (left ≠ 0), st := .resident })
          ∧ (d.demote = true → d.wrote = false → left = 0 → s.pageUnsealed p = false → s.pageFilling p = true → v.pte p = { s.pte p with dirty := false, st := .demoting } ∧ p ∈ v.tier.demoteWait)
          ∧ (d.demote = true → d.wrote = false → left = 0 → s.pageUnsealed p = false → s.pageFilling p = false → v.pte p = { s.pte p with dirty := false, st := .media, ch := 0, idx := 0 })))
    ∧ (∀ c bad twin, (s.chan c).moveTo = none → exec (.migrationPage c bad twin) s = .next (s.startMoves.retireDone c).settle)
    ∧ (∀ c bad twin p f d i ep, (s.chan c).moveTo = some ⟨p, f, d, i, ep⟩ → (∀ x, p = some x → (s.pte x).st = .moving) → s.rd DCH_MIGRATE_RATE_MB = 0 → exec (.migrationPage c bad twin) s = .next s)
    ∧ (∀ c bad twin f d i ep, (s.chan c).moveTo = some ⟨none, f, d, i, ep⟩ → s.rd DCH_MIGRATE_RATE_MB ≠ 0 →
      ∃ v : State, exec (.migrationPage c bad twin) s = .next (v.startMoves.retireDone c).settle ∧ v.mono = (s.upTo s.migDue).mono ∧ (v.chan c).migq = (s.chan c).migq.drop 1 ∧ (v.chan c).moveTo = none
        ∧ v.rd DCH_COUNTER_COUNT c 128 = (s.rd DCH_COUNTER_COUNT c 128 + 1) % 2 ^ 64 ∧ (∀ k, s.sysHome c f = some k → NMap.find v.tier.sysMoved k = some (d, i)))
    ∧ (∀ c bad twin p f d i ep, (s.chan c).moveTo = some ⟨some p, f, d, i, ep⟩ → (s.pte p).st ≠ .moving →
      exec (.migrationPage c bad twin) s = .next ((((s.giveFrame d i).popMove c).startMoves).retireDone c).settle)
    ∧ (∀ c bad twin p f d i ep, (s.chan c).moveTo = some ⟨some p, f, d, i, ep⟩ → (s.pte p).st = .moving → s.rd DCH_MIGRATE_RATE_MB ≠ 0 → s.moveAsksTwin c p bad = true → s.owns (regionOf (p * 4096)) = true →
      (∀ n, ep = some n → s.isConfirmed n = false → exec (.migrationPage c bad twin) s = .next s)
      ∧ (ep = none → ∃ v : State, exec (.migrationPage c bad twin) s = .next v ∧ (v.chan c).moveTo = some ⟨some p, f, d, i, some (s.stageEpoch.getD s.pair.openEpoch)⟩ ∧ v.regs = s.regs ∧ v.mono = s.mono))
    ∧ (∀ c bad twin p f d i ep, (s.chan c).moveTo = some ⟨some p, f, d, i, ep⟩ → (s.pte p).st = .moving → s.rd DCH_MIGRATE_RATE_MB ≠ 0 →
      s.moveAsksTwin c p bad = false ∨ s.owns (regionOf (p * 4096)) = false ∨ (∃ n, ep = some n ∧ s.isConfirmed n = true) → (∀ w ∈ s.cache.moveWaits, w.1 / 64 ≠ p) →
      let e := s.pte p
      let good (j : Nat) : Prop := s.rankOf c e.idx ∉ (s.chan c).unread ∧ j ∉ bad
      let onNand (j : Nat) : Prop := e.hasMedia = true ∧ ∀ r, NMap.find s.tier.recs p = some r → r.mask.getLsbD j = false
      ∃ v : State, exec (.migrationPage c bad twin) s = .next (v.startMoves.retireDone c).settle ∧ v.pte p = { e with st := .resident, ch := d, idx := i }
        ∧ (v.chan c).migq = (s.chan c).migq.drop 1 ∧ (v.chan c).moveTo = none ∧ v.rd DCH_COUNTER_COUNT c 128 = (s.rd DCH_COUNTER_COUNT c 128 + 1) % 2 ^ 64
        ∧ ∀ j < 64, (good j → v.dramLine d i j = s.dramLine e.ch e.idx j)
          ∧ (∀ u, ¬ good j → onNand j → NMap.find s.media.units e.media = some u → v.dramLine d i j = nth {} u.lines j)
          ∧ (∀ l, ¬ good j → ¬ onNand j → s.paired = true → twin.find? (fun t => t.1 == j) = some (j, l) → v.dramLine d i j = ⟨l, false⟩)
          ∧ (¬ good j → ¬ onNand j → s.paired = false → v.dramLine d i j = ⟨0, true⟩ ∧ v.flagged (0x40 + c) 11 = true))
    ∧ (s.tier.growing = none → exec .poolResized s = .next s)
    ∧ (∀ n, s.tier.growing = some n →
      ∃ v : State, exec .poolResized s = .next v.autoSave.mediaRecompute.settle ∧ v.tier.poolRegions = n ∧ v.tier.growing = none ∧ v.rd TIR_POOL_CFG_REGIONS = n % 2 ^ 18 ∧ v.rd TIR_POOL_CFG_PT_MIB = 4 * n % 2 ^ 20
        ∧ v.flagged 0xA 5 = true)

/-- The TIR commands (R221, R235, R236). A range that is not whole pages of the pool ends with 0x40. TIR_PROMOTE waits for every page that is MEDIA or FETCHING;
TIR_DEMOTE demotes every RESIDENT page that is neither PIN nor held and waits for them; TIR_PIN sets or clears PIN, and promotes, or ends with
0x42 where pinned frames would pass half the pool; TIR_DISCARD discards what this twin owns and forwards what the other owns. A command ends once its pages are done, with its counts. -/
def Obligations.TierCommands : Prop :=
  ∀ (s : State) (q : Nat) (c : RqCmd) (i : Nat),
    let u := s.running q
    let len := c.w5.toNat
    let first := c.index / 4096
    let n := len / 4096
    let fits : Prop := c.index % 4096 = 0 ∧ len % 4096 = 0 ∧ len ≠ 0 ∧ c.index + len ≤ s.tier.poolRegions * 2 ^ 30
    let inR (p : Nat) : Prop := first ≤ p ∧ p < first + n
    let waits (p : Nat) : Bool := (s.pte p).st == .media || (s.pte p).st == .fetching
    (s.blockRuns q c 0xA i 0x41 true → tirZero false c = true →
      (¬ fits → exec (.tirPromote q) s = .next (u.finishCmd q 0x40 0))
      ∧ (fits → exec (.tirPromote q) s = .next (u.tirStart { q := q, op := 0x41, pages := (s.rangePages first n).filter waits, done := 0, passed := 0, epoch := none, total := n })))
    ∧ (s.blockRuns q c 0xA i 0x42 true → tirZero false c = true →
      let ps := (s.rangePages first n).filter (fun p => (s.pte p).st == .resident && !(s.pte p).pin && !s.pageHeld p)
      (¬ fits → exec (.tirDemote q) s = .next (u.finishCmd q 0x40 0))
      ∧ (fits → exec (.tirDemote q) s = .next ((ps.foldl State.demote u).tirStart { q := q, op := 0x42, pages := ps, done := 0, passed := 0, epoch := none, total := n })))
    ∧ (∀ p, (s.pte p).dirty = false → (s.pte p).hasMedia = true → p ∉ s.tier.redo → s.halts 0xA = true → s.demote p = s)
    ∧ (∀ p, (s.pte p).dirty = false → (s.pte p).hasMedia = true → p ∉ s.tier.redo → s.halts 0xA = false → s.pageUnsealed p = false →
      (s.demote p).pte p = if s.pageFilling p then { s.pte p with st := .demoting } else { s.pte p with st := .media, ch := 0, idx := 0 })
    ∧ (s.blockRuns q c 0xA i 0x43 true → tirZero true c = true →
      let all := (List.range n).map (fun k => first + k)
      let much := s.framesTotal < 2 * ((s.tier.pt.filter (fun e => e.2.pin)).length + (all.filter (fun p => !(s.pte p).pin)).length)
      (¬ fits → exec (.tirPin q) s = .next (u.finishCmd q 0x40 0))
      ∧ (fits → bits c.w6 0 0 = 1 → much → exec (.tirPin q) s = .next (u.finishCmd q 0x42 0))
      ∧ (fits → bits c.w6 0 0 = 1 → ¬ much → ∃ v : State, exec (.tirPin q) s = .next (v.tirStart { q := q, op := 0x43, pages := all.filter waits, done := n - (all.filter waits).length, passed := 0, epoch := none, total := n })
        ∧ (∀ p, inR p → v.pte p = { s.pte p with pin := true }) ∧ (∀ p, ¬ inR p → v.pte p = s.pte p))
      ∧ (fits → bits c.w6 0 0 = 0 → ∃ v : State, exec (.tirPin q) s = .next (v.finishCmd q stOk (n * 2 ^ 32)) ∧ (∀ p, inR p → v.pte p = { s.pte p with pin := false }) ∧ (∀ p, ¬ inR p → v.pte p = s.pte p)))
    ∧ (s.blockRuns q c 0xA i 0x40 true → tirZero false c = true →
      let r := first / 2 ^ 18
      let k := (s.rangePages first n).length
      (¬ fits → exec (.tirDiscard q) s = .next (u.finishCmd q 0x40 0))
      ∧ (fits → (first + n - 1) / 2 ^ 18 = r → s.owns r = true →
        ∃ v : State, exec (.tirDiscard q) s = .next (v.tirStart { q := q, op := 0x40, pages := s.rangePages first n, done := k, passed := 0, epoch := s.stageEpoch, fwd := 0, total := n })
          ∧ (∀ p, inR p → (s.pte p).st ≠ .fetching → s.pageFilling p = false → (v.pte p).st = .zero)
          ∧ (∀ p, inR p → (s.pte p).st = .fetching ∨ ((s.pte p).st ≠ .zero ∧ s.pageFilling p = true) → p ∈ v.tier.discardLater) ∧ (∀ p, ¬ inR p → v.pte p = s.pte p))
      ∧ (fits → (first + n - 1) / 2 ^ 18 = r → s.owns r = false →
        let m : FwdReqMsg := { qpn := 0, psn := q, seg := r, op := .discard, cls := 0, first := true, last := true, poolOff := first * 4096, tenant := 0, len := n * 4096, data := [], a := 0, b := 0, entry := [] }
        exec (.tirDiscard q) s = .next ((u.sendLink 0 (.fwdReq m)).tirStart { q := q, op := 0x40, pages := s.rangePages first n, done := k, passed := 0, epoch := s.stageEpoch, fwd := 1, total := n })))
    ∧ (∀ x : TirCmd, x.op = 0x41 ∨ x.op = 0x43 → (∀ p ∈ x.pages, waits p = false) → s.tirStep x = s.tirEnd x stOk (x.done + x.pages.length) (x.total - (x.done + x.pages.length)))
    ∧ (∀ x : TirCmd, x.op = 0x42 → (∀ p ∈ x.pages, (s.pte p).st ≠ .demoting) →
      let m := (x.pages.filter (fun p => (s.pte p).st == .media)).length
      s.tirStep x = s.tirEnd x stOk m (x.total - m))
    ∧ (∀ x : TirCmd, x.op = 0x42 → (∃ p ∈ x.pages, (s.pte p).st = .demoting) → s.tirStep x = s)
    ∧ (∀ x : TirCmd, x.op = 0x40 → x.fwd = 0 → (∀ e, x.epoch = some e → e ≤ s.pair.confirmed) → (∀ p ∈ x.pages, p ∉ s.tier.discardLater) → s.tirStep x = s.tirEnd x stOk x.done (x.total - x.done))
end

