-- ==== Sys2Proof/Laws/NMap.lean ====
section
/-! SUPPORT. Laws of sparse maps: reading after writing, the canonical form and its uniqueness; fields of words. -/

namespace Sys2Proof.Machine

theorem NMap.find_insert_same {α : Type} (m : NMap α) (k : Nat) (v : α) : NMap.find (NMap.insert m k v) k = some v := by
  induction m with
  | nil => simp [NMap.insert, NMap.find]
  | cons e m ih =>
    obtain ⟨j, w⟩ := e
    simp only [NMap.insert]
    split
    · simp [NMap.find]
    · split
      · simp [NMap.find]
      · rename_i h1 h2
        simp [NMap.find, h2, ih]

theorem NMap.find_insert_other {α : Type} (m : NMap α) {k j : Nat} (v : α) (h : j ≠ k) :
    NMap.find (NMap.insert m k v) j = NMap.find m j := by
  induction m with
  | nil => simp [NMap.insert, NMap.find, h]
  | cons e m ih =>
    obtain ⟨i, w⟩ := e
    simp only [NMap.insert]
    split
    · simp [NMap.find, h]
    · split
      · rename_i h2; subst h2; simp [NMap.find, h]
      · simp [NMap.find, ih]

theorem NMap.find_erase_other {α : Type} (m : NMap α) {k j : Nat} (h : j ≠ k) :
    NMap.find (NMap.erase m k) j = NMap.find m j := by
  induction m with
  | nil => rfl
  | cons e m ih =>
    obtain ⟨i, w⟩ := e
    simp only [NMap.erase]
    split
    · rename_i h2; subst h2; simp [NMap.find, h, ih]
    · simp [NMap.find, ih]

theorem NMap.above_mono {α : Type} {m : NMap α} {b c : Nat} (h : NMap.above b m = true) (hc : c ≤ b) : NMap.above c m = true := by
  induction m with
  | nil => rfl
  | cons e m ih =>
    obtain ⟨i, w⟩ := e
    simp only [NMap.above, Bool.and_eq_true, decide_eq_true_eq] at h ⊢
    exact ⟨by omega, ih h.2⟩

theorem NMap.find_none_of_above {α : Type} {m : NMap α} {b k : Nat} (h : NMap.above b m = true) (hk : k ≤ b) : NMap.find m k = none := by
  induction m with
  | nil => rfl
  | cons e m ih =>
    obtain ⟨i, w⟩ := e
    simp only [NMap.above, Bool.and_eq_true, decide_eq_true_eq] at h
    have : k ≠ i := by omega
    simp [NMap.find, this, ih h.2]

theorem NMap.find_erase_same {α : Type} (m : NMap α) (k : Nat) : NMap.find (NMap.erase m k) k = none := by
  induction m with
  | nil => rfl
  | cons e m ih =>
    obtain ⟨i, w⟩ := e
    simp only [NMap.erase]
    split
    · exact ih
    · rename_i h2; simp [NMap.find, h2, ih]

theorem NMap.above_insert {α : Type} {m : NMap α} {b k : Nat} {v : α} (h : NMap.above b m = true) (hk : b < k) :
    NMap.above b (NMap.insert m k v) = true := by
  induction m with
  | nil => simp [NMap.insert, NMap.above, hk]
  | cons e m ih =>
    obtain ⟨i, w⟩ := e
    simp only [NMap.above, Bool.and_eq_true, decide_eq_true_eq] at h
    simp only [NMap.insert]
    split
    · simp [NMap.above, hk, h.1, h.2]
    · split
      · simp [NMap.above, hk, h.2]
      · simp [NMap.above, h.1, ih h.2]

theorem NMap.above_erase {α : Type} {m : NMap α} {b k : Nat} (h : NMap.above b m = true) : NMap.above b (NMap.erase m k) = true := by
  induction m with
  | nil => rfl
  | cons e m ih =>
    obtain ⟨i, w⟩ := e
    simp only [NMap.above, Bool.and_eq_true, decide_eq_true_eq] at h
    simp only [NMap.erase]
    split
    · exact ih h.2
    · simp [NMap.above, h.1, ih h.2]

theorem NMap.sorted_insert {α : Type} {m : NMap α} {k : Nat} {v : α} (h : NMap.sorted m = true) : NMap.sorted (NMap.insert m k v) = true := by
  induction m with
  | nil => rfl
  | cons e m ih =>
    obtain ⟨i, w⟩ := e
    simp only [NMap.sorted, Bool.and_eq_true] at h
    simp only [NMap.insert]
    split
    · rename_i h1
      simp [NMap.sorted, NMap.above, h.1, h.2, h1, NMap.above_mono h.1 (Nat.le_of_lt h1)]
    · split
      · rename_i h2; subst h2; simp [NMap.sorted, h.1, h.2]
      · rename_i h1 h2
        simp only [NMap.sorted, Bool.and_eq_true]
        exact ⟨NMap.above_insert h.1 (by omega), ih h.2⟩

theorem NMap.sorted_erase {α : Type} {m : NMap α} {k : Nat} (h : NMap.sorted m = true) : NMap.sorted (NMap.erase m k) = true := by
  induction m with
  | nil => rfl
  | cons e m ih =>
    obtain ⟨i, w⟩ := e
    simp only [NMap.sorted, Bool.and_eq_true] at h
    simp only [NMap.erase]
    split
    · exact ih h.2
    · simp only [NMap.sorted, Bool.and_eq_true]
      exact ⟨NMap.above_erase h.1, ih h.2⟩

theorem NMap.noDefault_insert {α : Type} [DecidableEq α] {d : Nat → α} {m : NMap α} {k : Nat} {v : α}
    (h : NMap.noDefault d m = true) (hv : v ≠ d k) : NMap.noDefault d (NMap.insert m k v) = true := by
  induction m with
  | nil => simp [NMap.insert, NMap.noDefault, hv]
  | cons e m ih =>
    obtain ⟨i, w⟩ := e
    simp only [NMap.noDefault, Bool.and_eq_true, decide_eq_true_eq] at h
    simp only [NMap.insert]
    split
    · simp [NMap.noDefault, hv, h.1, h.2]
    · split
      · simp [NMap.noDefault, hv, h.2]
      · simp [NMap.noDefault, h.1, ih h.2]

theorem NMap.noDefault_erase {α : Type} [DecidableEq α] {d : Nat → α} {m : NMap α} {k : Nat}
    (h : NMap.noDefault d m = true) : NMap.noDefault d (NMap.erase m k) = true := by
  induction m with
  | nil => rfl
  | cons e m ih =>
    obtain ⟨i, w⟩ := e
    simp only [NMap.noDefault, Bool.and_eq_true, decide_eq_true_eq] at h
    simp only [NMap.erase]
    split
    · exact ih h.2
    · simp [NMap.noDefault, h.1, ih h.2]

/-- A write keeps the canonical form. -/
theorem NMap.wf_put {α : Type} [DecidableEq α] {d : Nat → α} {m : NMap α} {k : Nat} {v : α} (h : NMap.wf d m = true) :
    NMap.wf d (NMap.put (d k) m k v) = true := by
  simp only [NMap.wf, Bool.and_eq_true] at h ⊢
  unfold NMap.put
  split
  · exact ⟨NMap.sorted_erase h.1, NMap.noDefault_erase h.2⟩
  · exact ⟨NMap.sorted_insert h.1, NMap.noDefault_insert h.2 ‹_›⟩

theorem NMap.sorted_put {α : Type} [DecidableEq α] {d : α} {m : NMap α} {k : Nat} {v : α} (h : NMap.sorted m = true) :
    NMap.sorted (NMap.put d m k v) = true := by
  unfold NMap.put
  split
  · exact NMap.sorted_erase h
  · exact NMap.sorted_insert h

/-- Reading back what was written. -/
theorem NMap.getD_put_same {α : Type} [DecidableEq α] {d : α} (m : NMap α) (k : Nat) (v : α) :
    NMap.getD (NMap.put d m k v) k d = v := by
  unfold NMap.getD NMap.put
  split
  · rename_i hv; rw [NMap.find_erase_same, hv]; rfl
  · rw [NMap.find_insert_same]; rfl

/-- A write leaves every other key. -/
theorem NMap.getD_put_other {α : Type} [DecidableEq α] {d e : α} {m : NMap α} {k j : Nat} {v : α} (h : j ≠ k) :
    NMap.getD (NMap.put d m k v) j e = NMap.getD m j e := by
  unfold NMap.getD NMap.put
  split
  · rw [NMap.find_erase_other m h]
  · rw [NMap.find_insert_other m v h]

theorem NMap.find_put_other {α : Type} [DecidableEq α] {d : α} {m : NMap α} {k j : Nat} {v : α} (h : j ≠ k) :
    NMap.find (NMap.put d m k v) j = NMap.find m j := by
  unfold NMap.put
  split
  · rw [NMap.find_erase_other m h]
  · rw [NMap.find_insert_other m v h]

theorem NMap.getD_insert_same {α : Type} (m : NMap α) (k : Nat) (v d : α) : NMap.getD (NMap.insert m k v) k d = v := by
  unfold NMap.getD; rw [NMap.find_insert_same]; rfl

theorem NMap.getD_insert_other {α : Type} (m : NMap α) {k j : Nat} (v d : α) (h : j ≠ k) : NMap.getD (NMap.insert m k v) j d = NMap.getD m j d := by
  unfold NMap.getD; rw [NMap.find_insert_other m v h]

/-! ### Fields of words -/

theorem bits_setBits_same (w : Word64) {hi lo v : Nat} (h : hi < 64) (hl : lo ≤ hi) :
    bits (setBits w hi lo v) hi lo = v % 2 ^ (hi + 1 - lo) := by
  unfold bits setBits
  simp only [BitVec.toNat_ofNat]
  apply Nat.eq_of_testBit_eq
  intro i
  simp only [Nat.testBit_mod_two_pow, Nat.testBit_shiftRight, Nat.testBit_or, Nat.testBit_and]
  by_cases hi' : i < hi + 1 - lo
  · have h64 : lo + i < 64 := by omega
    have e1 : (2 ^ (hi + 1 - lo) - 1) * 2 ^ lo = (2 ^ (hi + 1 - lo) - 1) <<< lo := by rw [Nat.shiftLeft_eq]
    have e2 : (v % 2 ^ (hi + 1 - lo)) * 2 ^ lo = (v % 2 ^ (hi + 1 - lo)) <<< lo := by rw [Nat.shiftLeft_eq]
    have hm : (2 ^ (hi + 1 - lo) - 1) * 2 ^ lo < 2 ^ 64 := by
      have : (2 ^ (hi + 1 - lo) - 1) * 2 ^ lo < 2 ^ (hi + 1 - lo) * 2 ^ lo :=
        Nat.mul_lt_mul_of_pos_right (Nat.sub_lt (Nat.two_pow_pos _) (by decide)) (Nat.two_pow_pos _)
      rw [← Nat.pow_add] at this
      exact lt_of_lt_of_le this (Nat.pow_le_pow_right (by decide) (by omega))
    have e3 : 2 ^ 64 - 1 - (2 ^ (hi + 1 - lo) - 1) * 2 ^ lo = 2 ^ 64 - ((2 ^ (hi + 1 - lo) - 1) * 2 ^ lo + 1) := by omega
    rw [e3, Nat.testBit_two_pow_sub_succ hm, e1, e2]
    simp [Nat.testBit_shiftLeft, hi', h64, Nat.testBit_two_pow_sub_one]
  · simp [hi', Nat.testBit_mod_two_pow]

theorem bits_setBits_other (w : Word64) {hi lo hi' lo' v : Nat} (h : hi < 64) (h' : hi' < 64) (hl : lo ≤ hi)
    (hd : hi' < lo ∨ hi < lo') : bits (setBits w hi lo v) hi' lo' = bits w hi' lo' := by
  unfold bits setBits
  simp only [BitVec.toNat_ofNat]
  apply Nat.eq_of_testBit_eq
  intro i
  simp only [Nat.testBit_mod_two_pow, Nat.testBit_shiftRight, Nat.testBit_or, Nat.testBit_and]
  by_cases hi'' : i < hi' + 1 - lo'
  · have h64 : lo' + i < 64 := by omega
    have e1 : (2 ^ (hi + 1 - lo) - 1) * 2 ^ lo = (2 ^ (hi + 1 - lo) - 1) <<< lo := by rw [Nat.shiftLeft_eq]
    have e2 : (v % 2 ^ (hi + 1 - lo)) * 2 ^ lo = (v % 2 ^ (hi + 1 - lo)) <<< lo := by rw [Nat.shiftLeft_eq]
    have hm : (2 ^ (hi + 1 - lo) - 1) * 2 ^ lo < 2 ^ 64 := by
      have : (2 ^ (hi + 1 - lo) - 1) * 2 ^ lo < 2 ^ (hi + 1 - lo) * 2 ^ lo :=
        Nat.mul_lt_mul_of_pos_right (Nat.sub_lt (Nat.two_pow_pos _) (by decide)) (Nat.two_pow_pos _)
      rw [← Nat.pow_add] at this
      exact lt_of_lt_of_le this (Nat.pow_le_pow_right (by decide) (by omega))
    have e3 : 2 ^ 64 - 1 - (2 ^ (hi + 1 - lo) - 1) * 2 ^ lo = 2 ^ 64 - ((2 ^ (hi + 1 - lo) - 1) * 2 ^ lo + 1) := by omega
    rw [e3, Nat.testBit_two_pow_sub_succ hm, e1, e2]
    simp only [Nat.testBit_shiftLeft, Nat.testBit_two_pow_sub_one, Nat.testBit_mod_two_pow, h64, hi'', decide_true, Bool.true_and, Bool.and_true]
    rcases hd with hd | hd
    · have : ¬ lo ≤ lo' + i := by omega
      simp [this]
    · have : ¬ lo' + i - lo < hi + 1 - lo := by omega
      simp [this]
  · simp [hi'']

end Sys2Proof.Machine
end

