-- ==== Sys2Proof/Laws/State.lean ====
section
/-! SUPPORT. What the named updates leave alone, field by field, and what is read back after them. -/



namespace Sys2Proof.Machine

@[simp] theorem State.setReg_mono (s : State) (k : Nat) (v : Word64) : (s.setReg k v).mono = s.mono := by simp only [State.setReg]
@[simp] theorem State.setReg_tbOff (s : State) (k : Nat) (v : Word64) : (s.setReg k v).tbOff = s.tbOff := by simp only [State.setReg]
@[simp] theorem State.setReg_twinB (s : State) (k : Nat) (v : Word64) : (s.setReg k v).twinB = s.twinB := by simp only [State.setReg]
@[simp] theorem State.setReg_out (s : State) (k : Nat) (v : Word64) : (s.setReg k v).out = s.out := by simp only [State.setReg]
@[simp] theorem State.setReg_evInbox (s : State) (k : Nat) (v : Word64) : (s.setReg k v).evInbox = s.evInbox := by simp only [State.setReg]
@[simp] theorem State.setReg_freeNext (s : State) (k : Nat) (v : Word64) : (s.setReg k v).freeNext = s.freeNext := by simp only [State.setReg]
@[simp] theorem State.setReg_msixMask (s : State) (k : Nat) (v : Word64) : (s.setReg k v).msixMask = s.msixMask := by simp only [State.setReg]
@[simp] theorem State.setReg_msixPend (s : State) (k : Nat) (v : Word64) : (s.setReg k v).msixPend = s.msixPend := by simp only [State.setReg]
@[simp] theorem State.setReg_msixTab (s : State) (k : Nat) (v : Word64) : (s.setReg k v).msixTab = s.msixTab := by simp only [State.setReg]
@[simp] theorem State.setReg_pcieUp (s : State) (k : Nat) (v : Word64) : (s.setReg k v).pcieUp = s.pcieUp := by simp only [State.setReg]
@[simp] theorem State.setReg_bellCount (s : State) (k : Nat) (v : Word64) : (s.setReg k v).bellCount = s.bellCount := by simp only [State.setReg]
@[simp] theorem State.setReg_rqs (s : State) (k : Nat) (v : Word64) : (s.setReg k v).rqs = s.rqs := by simp only [State.setReg]
@[simp] theorem State.setReg_hearth (s : State) (k : Nat) (v : Word64) : (s.setReg k v).hearth = s.hearth := by simp only [State.setReg]
@[simp] theorem State.setReg_banks (s : State) (k : Nat) (v : Word64) : (s.setReg k v).banks = s.banks := by simp only [State.setReg]
@[simp] theorem State.setReg_cache (s : State) (k : Nat) (v : Word64) : (s.setReg k v).cache = s.cache := by simp only [State.setReg]
@[simp] theorem State.setReg_ports (s : State) (k : Nat) (v : Word64) : (s.setReg k v).ports = s.ports := by simp only [State.setReg]
@[simp] theorem State.setReg_addrs (s : State) (k : Nat) (v : Word64) : (s.setReg k v).addrs = s.addrs := by simp only [State.setReg]
@[simp] theorem State.setReg_qps (s : State) (k : Nat) (v : Word64) : (s.setReg k v).qps = s.qps := by simp only [State.setReg]
@[simp] theorem State.setReg_hosts (s : State) (k : Nat) (v : Word64) : (s.setReg k v).hosts = s.hosts := by simp only [State.setReg]
@[simp] theorem State.setReg_dp (s : State) (k : Nat) (v : Word64) : (s.setReg k v).dp = s.dp := by simp only [State.setReg]
@[simp] theorem State.setReg_prot (s : State) (k : Nat) (v : Word64) : (s.setReg k v).prot = s.prot := by simp only [State.setReg]
@[simp] theorem State.setReg_chains (s : State) (k : Nat) (v : Word64) : (s.setReg k v).chains = s.chains := by simp only [State.setReg]
@[simp] theorem State.setReg_tier (s : State) (k : Nat) (v : Word64) : (s.setReg k v).tier = s.tier := by simp only [State.setReg]
@[simp] theorem State.setReg_media (s : State) (k : Nat) (v : Word64) : (s.setReg k v).media = s.media := by simp only [State.setReg]
@[simp] theorem State.setReg_dur (s : State) (k : Nat) (v : Word64) : (s.setReg k v).dur = s.dur := by simp only [State.setReg]
@[simp] theorem State.setReg_pair (s : State) (k : Nat) (v : Word64) : (s.setReg k v).pair = s.pair := by simp only [State.setReg]
@[simp] theorem State.setReg_link (s : State) (k : Nat) (v : Word64) : (s.setReg k v).link = s.link := by simp only [State.setReg]
@[simp] theorem State.setReg_pwr (s : State) (k : Nat) (v : Word64) : (s.setReg k v).pwr = s.pwr := by simp only [State.setReg]
@[simp] theorem State.setReg_rec_ (s : State) (k : Nat) (v : Word64) : (s.setReg k v).rec_ = s.rec_ := by simp only [State.setReg]
@[simp] theorem State.setReg_pmu (s : State) (k : Nat) (v : Word64) : (s.setReg k v).pmu = s.pmu := by simp only [State.setReg]
@[simp] theorem State.setReg_smp (s : State) (k : Nat) (v : Word64) : (s.setReg k v).smp = s.smp := by simp only [State.setReg]
@[simp] theorem State.setReg_boot (s : State) (k : Nat) (v : Word64) : (s.setReg k v).boot = s.boot := by simp only [State.setReg]
@[simp] theorem State.setReg_cph (s : State) (k : Nat) (v : Word64) : (s.setReg k v).cph = s.cph := by simp only [State.setReg]
@[simp] theorem State.setReg_ccx (s : State) (k : Nat) (v : Word64) : (s.setReg k v).ccx = s.ccx := by simp only [State.setReg]
@[simp] theorem State.setReg_rails (s : State) (k : Nat) (v : Word64) : (s.setReg k v).rails = s.rails := by simp only [State.setReg]
@[simp] theorem State.setReg_thm (s : State) (k : Nat) (v : Word64) : (s.setReg k v).thm = s.thm := by simp only [State.setReg]
@[simp] theorem State.setReg_integ (s : State) (k : Nat) (v : Word64) : (s.setReg k v).integ = s.integ := by simp only [State.setReg]
@[simp] theorem State.setReg_pending (s : State) (k : Nat) (v : Word64) : (s.setReg k v).pending = s.pending := by simp only [State.setReg]

@[simp] theorem State.wr_mono (s : State) (f : Fld) (v i a : Nat) : (s.wr f v i a).mono = s.mono := State.setReg_mono _ _ _
@[simp] theorem State.wr_tbOff (s : State) (f : Fld) (v i a : Nat) : (s.wr f v i a).tbOff = s.tbOff := State.setReg_tbOff _ _ _
@[simp] theorem State.wr_twinB (s : State) (f : Fld) (v i a : Nat) : (s.wr f v i a).twinB = s.twinB := State.setReg_twinB _ _ _
@[simp] theorem State.wr_out (s : State) (f : Fld) (v i a : Nat) : (s.wr f v i a).out = s.out := State.setReg_out _ _ _
@[simp] theorem State.wr_evInbox (s : State) (f : Fld) (v i a : Nat) : (s.wr f v i a).evInbox = s.evInbox := State.setReg_evInbox _ _ _
@[simp] theorem State.wr_freeNext (s : State) (f : Fld) (v i a : Nat) : (s.wr f v i a).freeNext = s.freeNext := State.setReg_freeNext _ _ _
@[simp] theorem State.wr_msixMask (s : State) (f : Fld) (v i a : Nat) : (s.wr f v i a).msixMask = s.msixMask := State.setReg_msixMask _ _ _
@[simp] theorem State.wr_msixPend (s : State) (f : Fld) (v i a : Nat) : (s.wr f v i a).msixPend = s.msixPend := State.setReg_msixPend _ _ _
@[simp] theorem State.wr_msixTab (s : State) (f : Fld) (v i a : Nat) : (s.wr f v i a).msixTab = s.msixTab := State.setReg_msixTab _ _ _
@[simp] theorem State.wr_pcieUp (s : State) (f : Fld) (v i a : Nat) : (s.wr f v i a).pcieUp = s.pcieUp := State.setReg_pcieUp _ _ _
@[simp] theorem State.wr_bellCount (s : State) (f : Fld) (v i a : Nat) : (s.wr f v i a).bellCount = s.bellCount := State.setReg_bellCount _ _ _
@[simp] theorem State.wr_rqs (s : State) (f : Fld) (v i a : Nat) : (s.wr f v i a).rqs = s.rqs := State.setReg_rqs _ _ _
@[simp] theorem State.wr_hearth (s : State) (f : Fld) (v i a : Nat) : (s.wr f v i a).hearth = s.hearth := State.setReg_hearth _ _ _
@[simp] theorem State.wr_banks (s : State) (f : Fld) (v i a : Nat) : (s.wr f v i a).banks = s.banks := State.setReg_banks _ _ _
@[simp] theorem State.wr_cache (s : State) (f : Fld) (v i a : Nat) : (s.wr f v i a).cache = s.cache := State.setReg_cache _ _ _
@[simp] theorem State.wr_ports (s : State) (f : Fld) (v i a : Nat) : (s.wr f v i a).ports = s.ports := State.setReg_ports _ _ _
@[simp] theorem State.wr_addrs (s : State) (f : Fld) (v i a : Nat) : (s.wr f v i a).addrs = s.addrs := State.setReg_addrs _ _ _
@[simp] theorem State.wr_qps (s : State) (f : Fld) (v i a : Nat) : (s.wr f v i a).qps = s.qps := State.setReg_qps _ _ _
@[simp] theorem State.wr_hosts (s : State) (f : Fld) (v i a : Nat) : (s.wr f v i a).hosts = s.hosts := State.setReg_hosts _ _ _
@[simp] theorem State.wr_dp (s : State) (f : Fld) (v i a : Nat) : (s.wr f v i a).dp = s.dp := State.setReg_dp _ _ _
@[simp] theorem State.wr_prot (s : State) (f : Fld) (v i a : Nat) : (s.wr f v i a).prot = s.prot := State.setReg_prot _ _ _
@[simp] theorem State.wr_chains (s : State) (f : Fld) (v i a : Nat) : (s.wr f v i a).chains = s.chains := State.setReg_chains _ _ _
@[simp] theorem State.wr_tier (s : State) (f : Fld) (v i a : Nat) : (s.wr f v i a).tier = s.tier := State.setReg_tier _ _ _
@[simp] theorem State.wr_media (s : State) (f : Fld) (v i a : Nat) : (s.wr f v i a).media = s.media := State.setReg_media _ _ _
@[simp] theorem State.wr_dur (s : State) (f : Fld) (v i a : Nat) : (s.wr f v i a).dur = s.dur := State.setReg_dur _ _ _
@[simp] theorem State.wr_pair (s : State) (f : Fld) (v i a : Nat) : (s.wr f v i a).pair = s.pair := State.setReg_pair _ _ _
@[simp] theorem State.wr_link (s : State) (f : Fld) (v i a : Nat) : (s.wr f v i a).link = s.link := State.setReg_link _ _ _
@[simp] theorem State.wr_pwr (s : State) (f : Fld) (v i a : Nat) : (s.wr f v i a).pwr = s.pwr := State.setReg_pwr _ _ _
@[simp] theorem State.wr_rec_ (s : State) (f : Fld) (v i a : Nat) : (s.wr f v i a).rec_ = s.rec_ := State.setReg_rec_ _ _ _
@[simp] theorem State.wr_pmu (s : State) (f : Fld) (v i a : Nat) : (s.wr f v i a).pmu = s.pmu := State.setReg_pmu _ _ _
@[simp] theorem State.wr_smp (s : State) (f : Fld) (v i a : Nat) : (s.wr f v i a).smp = s.smp := State.setReg_smp _ _ _
@[simp] theorem State.wr_boot (s : State) (f : Fld) (v i a : Nat) : (s.wr f v i a).boot = s.boot := State.setReg_boot _ _ _
@[simp] theorem State.wr_cph (s : State) (f : Fld) (v i a : Nat) : (s.wr f v i a).cph = s.cph := State.setReg_cph _ _ _
@[simp] theorem State.wr_ccx (s : State) (f : Fld) (v i a : Nat) : (s.wr f v i a).ccx = s.ccx := State.setReg_ccx _ _ _
@[simp] theorem State.wr_rails (s : State) (f : Fld) (v i a : Nat) : (s.wr f v i a).rails = s.rails := State.setReg_rails _ _ _
@[simp] theorem State.wr_thm (s : State) (f : Fld) (v i a : Nat) : (s.wr f v i a).thm = s.thm := State.setReg_thm _ _ _
@[simp] theorem State.wr_integ (s : State) (f : Fld) (v i a : Nat) : (s.wr f v i a).integ = s.integ := State.setReg_integ _ _ _
@[simp] theorem State.wr_pending (s : State) (f : Fld) (v i a : Nat) : (s.wr f v i a).pending = s.pending := State.setReg_pending _ _ _

@[simp] theorem State.satInc_mono (s : State) (f : Fld) (n i a : Nat) : (s.satInc f n i a).mono = s.mono := State.wr_mono _ _ _ _ _
@[simp] theorem State.satInc_tbOff (s : State) (f : Fld) (n i a : Nat) : (s.satInc f n i a).tbOff = s.tbOff := State.wr_tbOff _ _ _ _ _
@[simp] theorem State.satInc_twinB (s : State) (f : Fld) (n i a : Nat) : (s.satInc f n i a).twinB = s.twinB := State.wr_twinB _ _ _ _ _
@[simp] theorem State.satInc_out (s : State) (f : Fld) (n i a : Nat) : (s.satInc f n i a).out = s.out := State.wr_out _ _ _ _ _
@[simp] theorem State.satInc_evInbox (s : State) (f : Fld) (n i a : Nat) : (s.satInc f n i a).evInbox = s.evInbox := State.wr_evInbox _ _ _ _ _
@[simp] theorem State.satInc_freeNext (s : State) (f : Fld) (n i a : Nat) : (s.satInc f n i a).freeNext = s.freeNext := State.wr_freeNext _ _ _ _ _
@[simp] theorem State.satInc_msixMask (s : State) (f : Fld) (n i a : Nat) : (s.satInc f n i a).msixMask = s.msixMask := State.wr_msixMask _ _ _ _ _
@[simp] theorem State.satInc_msixPend (s : State) (f : Fld) (n i a : Nat) : (s.satInc f n i a).msixPend = s.msixPend := State.wr_msixPend _ _ _ _ _
@[simp] theorem State.satInc_msixTab (s : State) (f : Fld) (n i a : Nat) : (s.satInc f n i a).msixTab = s.msixTab := State.wr_msixTab _ _ _ _ _
@[simp] theorem State.satInc_pcieUp (s : State) (f : Fld) (n i a : Nat) : (s.satInc f n i a).pcieUp = s.pcieUp := State.wr_pcieUp _ _ _ _ _
@[simp] theorem State.satInc_bellCount (s : State) (f : Fld) (n i a : Nat) : (s.satInc f n i a).bellCount = s.bellCount := State.wr_bellCount _ _ _ _ _
@[simp] theorem State.satInc_rqs (s : State) (f : Fld) (n i a : Nat) : (s.satInc f n i a).rqs = s.rqs := State.wr_rqs _ _ _ _ _
@[simp] theorem State.satInc_hearth (s : State) (f : Fld) (n i a : Nat) : (s.satInc f n i a).hearth = s.hearth := State.wr_hearth _ _ _ _ _
@[simp] theorem State.satInc_banks (s : State) (f : Fld) (n i a : Nat) : (s.satInc f n i a).banks = s.banks := State.wr_banks _ _ _ _ _
@[simp] theorem State.satInc_cache (s : State) (f : Fld) (n i a : Nat) : (s.satInc f n i a).cache = s.cache := State.wr_cache _ _ _ _ _
@[simp] theorem State.satInc_ports (s : State) (f : Fld) (n i a : Nat) : (s.satInc f n i a).ports = s.ports := State.wr_ports _ _ _ _ _
@[simp] theorem State.satInc_addrs (s : State) (f : Fld) (n i a : Nat) : (s.satInc f n i a).addrs = s.addrs := State.wr_addrs _ _ _ _ _
@[simp] theorem State.satInc_qps (s : State) (f : Fld) (n i a : Nat) : (s.satInc f n i a).qps = s.qps := State.wr_qps _ _ _ _ _
@[simp] theorem State.satInc_hosts (s : State) (f : Fld) (n i a : Nat) : (s.satInc f n i a).hosts = s.hosts := State.wr_hosts _ _ _ _ _
@[simp] theorem State.satInc_dp (s : State) (f : Fld) (n i a : Nat) : (s.satInc f n i a).dp = s.dp := State.wr_dp _ _ _ _ _
@[simp] theorem State.satInc_prot (s : State) (f : Fld) (n i a : Nat) : (s.satInc f n i a).prot = s.prot := State.wr_prot _ _ _ _ _
@[simp] theorem State.satInc_chains (s : State) (f : Fld) (n i a : Nat) : (s.satInc f n i a).chains = s.chains := State.wr_chains _ _ _ _ _
@[simp] theorem State.satInc_tier (s : State) (f : Fld) (n i a : Nat) : (s.satInc f n i a).tier = s.tier := State.wr_tier _ _ _ _ _
@[simp] theorem State.satInc_media (s : State) (f : Fld) (n i a : Nat) : (s.satInc f n i a).media = s.media := State.wr_media _ _ _ _ _
@[simp] theorem State.satInc_dur (s : State) (f : Fld) (n i a : Nat) : (s.satInc f n i a).dur = s.dur := State.wr_dur _ _ _ _ _
@[simp] theorem State.satInc_pair (s : State) (f : Fld) (n i a : Nat) : (s.satInc f n i a).pair = s.pair := State.wr_pair _ _ _ _ _
@[simp] theorem State.satInc_link (s : State) (f : Fld) (n i a : Nat) : (s.satInc f n i a).link = s.link := State.wr_link _ _ _ _ _
@[simp] theorem State.satInc_pwr (s : State) (f : Fld) (n i a : Nat) : (s.satInc f n i a).pwr = s.pwr := State.wr_pwr _ _ _ _ _
@[simp] theorem State.satInc_rec_ (s : State) (f : Fld) (n i a : Nat) : (s.satInc f n i a).rec_ = s.rec_ := State.wr_rec_ _ _ _ _ _
@[simp] theorem State.satInc_pmu (s : State) (f : Fld) (n i a : Nat) : (s.satInc f n i a).pmu = s.pmu := State.wr_pmu _ _ _ _ _
@[simp] theorem State.satInc_smp (s : State) (f : Fld) (n i a : Nat) : (s.satInc f n i a).smp = s.smp := State.wr_smp _ _ _ _ _
@[simp] theorem State.satInc_boot (s : State) (f : Fld) (n i a : Nat) : (s.satInc f n i a).boot = s.boot := State.wr_boot _ _ _ _ _
@[simp] theorem State.satInc_cph (s : State) (f : Fld) (n i a : Nat) : (s.satInc f n i a).cph = s.cph := State.wr_cph _ _ _ _ _
@[simp] theorem State.satInc_ccx (s : State) (f : Fld) (n i a : Nat) : (s.satInc f n i a).ccx = s.ccx := State.wr_ccx _ _ _ _ _
@[simp] theorem State.satInc_rails (s : State) (f : Fld) (n i a : Nat) : (s.satInc f n i a).rails = s.rails := State.wr_rails _ _ _ _ _
@[simp] theorem State.satInc_thm (s : State) (f : Fld) (n i a : Nat) : (s.satInc f n i a).thm = s.thm := State.wr_thm _ _ _ _ _
@[simp] theorem State.satInc_integ (s : State) (f : Fld) (n i a : Nat) : (s.satInc f n i a).integ = s.integ := State.wr_integ _ _ _ _ _
@[simp] theorem State.satInc_pending (s : State) (f : Fld) (n i a : Nat) : (s.satInc f n i a).pending = s.pending := State.wr_pending _ _ _ _ _

@[simp] theorem State.inc_mono (s : State) (f : Fld) (n i a : Nat) : (s.inc f n i a).mono = s.mono := State.wr_mono _ _ _ _ _
@[simp] theorem State.inc_tbOff (s : State) (f : Fld) (n i a : Nat) : (s.inc f n i a).tbOff = s.tbOff := State.wr_tbOff _ _ _ _ _
@[simp] theorem State.inc_twinB (s : State) (f : Fld) (n i a : Nat) : (s.inc f n i a).twinB = s.twinB := State.wr_twinB _ _ _ _ _
@[simp] theorem State.inc_out (s : State) (f : Fld) (n i a : Nat) : (s.inc f n i a).out = s.out := State.wr_out _ _ _ _ _
@[simp] theorem State.inc_evInbox (s : State) (f : Fld) (n i a : Nat) : (s.inc f n i a).evInbox = s.evInbox := State.wr_evInbox _ _ _ _ _
@[simp] theorem State.inc_freeNext (s : State) (f : Fld) (n i a : Nat) : (s.inc f n i a).freeNext = s.freeNext := State.wr_freeNext _ _ _ _ _
@[simp] theorem State.inc_msixMask (s : State) (f : Fld) (n i a : Nat) : (s.inc f n i a).msixMask = s.msixMask := State.wr_msixMask _ _ _ _ _
@[simp] theorem State.inc_msixPend (s : State) (f : Fld) (n i a : Nat) : (s.inc f n i a).msixPend = s.msixPend := State.wr_msixPend _ _ _ _ _
@[simp] theorem State.inc_msixTab (s : State) (f : Fld) (n i a : Nat) : (s.inc f n i a).msixTab = s.msixTab := State.wr_msixTab _ _ _ _ _
@[simp] theorem State.inc_pcieUp (s : State) (f : Fld) (n i a : Nat) : (s.inc f n i a).pcieUp = s.pcieUp := State.wr_pcieUp _ _ _ _ _
@[simp] theorem State.inc_bellCount (s : State) (f : Fld) (n i a : Nat) : (s.inc f n i a).bellCount = s.bellCount := State.wr_bellCount _ _ _ _ _
@[simp] theorem State.inc_rqs (s : State) (f : Fld) (n i a : Nat) : (s.inc f n i a).rqs = s.rqs := State.wr_rqs _ _ _ _ _
@[simp] theorem State.inc_hearth (s : State) (f : Fld) (n i a : Nat) : (s.inc f n i a).hearth = s.hearth := State.wr_hearth _ _ _ _ _
@[simp] theorem State.inc_banks (s : State) (f : Fld) (n i a : Nat) : (s.inc f n i a).banks = s.banks := State.wr_banks _ _ _ _ _
@[simp] theorem State.inc_cache (s : State) (f : Fld) (n i a : Nat) : (s.inc f n i a).cache = s.cache := State.wr_cache _ _ _ _ _
@[simp] theorem State.inc_ports (s : State) (f : Fld) (n i a : Nat) : (s.inc f n i a).ports = s.ports := State.wr_ports _ _ _ _ _
@[simp] theorem State.inc_addrs (s : State) (f : Fld) (n i a : Nat) : (s.inc f n i a).addrs = s.addrs := State.wr_addrs _ _ _ _ _
@[simp] theorem State.inc_qps (s : State) (f : Fld) (n i a : Nat) : (s.inc f n i a).qps = s.qps := State.wr_qps _ _ _ _ _
@[simp] theorem State.inc_hosts (s : State) (f : Fld) (n i a : Nat) : (s.inc f n i a).hosts = s.hosts := State.wr_hosts _ _ _ _ _
@[simp] theorem State.inc_dp (s : State) (f : Fld) (n i a : Nat) : (s.inc f n i a).dp = s.dp := State.wr_dp _ _ _ _ _
@[simp] theorem State.inc_prot (s : State) (f : Fld) (n i a : Nat) : (s.inc f n i a).prot = s.prot := State.wr_prot _ _ _ _ _
@[simp] theorem State.inc_chains (s : State) (f : Fld) (n i a : Nat) : (s.inc f n i a).chains = s.chains := State.wr_chains _ _ _ _ _
@[simp] theorem State.inc_tier (s : State) (f : Fld) (n i a : Nat) : (s.inc f n i a).tier = s.tier := State.wr_tier _ _ _ _ _
@[simp] theorem State.inc_media (s : State) (f : Fld) (n i a : Nat) : (s.inc f n i a).media = s.media := State.wr_media _ _ _ _ _
@[simp] theorem State.inc_dur (s : State) (f : Fld) (n i a : Nat) : (s.inc f n i a).dur = s.dur := State.wr_dur _ _ _ _ _
@[simp] theorem State.inc_pair (s : State) (f : Fld) (n i a : Nat) : (s.inc f n i a).pair = s.pair := State.wr_pair _ _ _ _ _
@[simp] theorem State.inc_link (s : State) (f : Fld) (n i a : Nat) : (s.inc f n i a).link = s.link := State.wr_link _ _ _ _ _
@[simp] theorem State.inc_pwr (s : State) (f : Fld) (n i a : Nat) : (s.inc f n i a).pwr = s.pwr := State.wr_pwr _ _ _ _ _
@[simp] theorem State.inc_rec_ (s : State) (f : Fld) (n i a : Nat) : (s.inc f n i a).rec_ = s.rec_ := State.wr_rec_ _ _ _ _ _
@[simp] theorem State.inc_pmu (s : State) (f : Fld) (n i a : Nat) : (s.inc f n i a).pmu = s.pmu := State.wr_pmu _ _ _ _ _
@[simp] theorem State.inc_smp (s : State) (f : Fld) (n i a : Nat) : (s.inc f n i a).smp = s.smp := State.wr_smp _ _ _ _ _
@[simp] theorem State.inc_boot (s : State) (f : Fld) (n i a : Nat) : (s.inc f n i a).boot = s.boot := State.wr_boot _ _ _ _ _
@[simp] theorem State.inc_cph (s : State) (f : Fld) (n i a : Nat) : (s.inc f n i a).cph = s.cph := State.wr_cph _ _ _ _ _
@[simp] theorem State.inc_ccx (s : State) (f : Fld) (n i a : Nat) : (s.inc f n i a).ccx = s.ccx := State.wr_ccx _ _ _ _ _
@[simp] theorem State.inc_rails (s : State) (f : Fld) (n i a : Nat) : (s.inc f n i a).rails = s.rails := State.wr_rails _ _ _ _ _
@[simp] theorem State.inc_thm (s : State) (f : Fld) (n i a : Nat) : (s.inc f n i a).thm = s.thm := State.wr_thm _ _ _ _ _
@[simp] theorem State.inc_integ (s : State) (f : Fld) (n i a : Nat) : (s.inc f n i a).integ = s.integ := State.wr_integ _ _ _ _ _
@[simp] theorem State.inc_pending (s : State) (f : Fld) (n i a : Nat) : (s.inc f n i a).pending = s.pending := State.wr_pending _ _ _ _ _

@[simp] theorem State.setStat_mono (s : State) (p st : Nat) (r : Bool) : (s.setStat p st r).mono = s.mono := (State.wr_mono _ _ _ _ _).trans (State.wr_mono _ _ _ _ _)
@[simp] theorem State.setStat_tbOff (s : State) (p st : Nat) (r : Bool) : (s.setStat p st r).tbOff = s.tbOff := (State.wr_tbOff _ _ _ _ _).trans (State.wr_tbOff _ _ _ _ _)
@[simp] theorem State.setStat_twinB (s : State) (p st : Nat) (r : Bool) : (s.setStat p st r).twinB = s.twinB := (State.wr_twinB _ _ _ _ _).trans (State.wr_twinB _ _ _ _ _)
@[simp] theorem State.setStat_out (s : State) (p st : Nat) (r : Bool) : (s.setStat p st r).out = s.out := (State.wr_out _ _ _ _ _).trans (State.wr_out _ _ _ _ _)
@[simp] theorem State.setStat_evInbox (s : State) (p st : Nat) (r : Bool) : (s.setStat p st r).evInbox = s.evInbox := (State.wr_evInbox _ _ _ _ _).trans (State.wr_evInbox _ _ _ _ _)
@[simp] theorem State.setStat_freeNext (s : State) (p st : Nat) (r : Bool) : (s.setStat p st r).freeNext = s.freeNext := (State.wr_freeNext _ _ _ _ _).trans (State.wr_freeNext _ _ _ _ _)
@[simp] theorem State.setStat_msixMask (s : State) (p st : Nat) (r : Bool) : (s.setStat p st r).msixMask = s.msixMask := (State.wr_msixMask _ _ _ _ _).trans (State.wr_msixMask _ _ _ _ _)
@[simp] theorem State.setStat_msixPend (s : State) (p st : Nat) (r : Bool) : (s.setStat p st r).msixPend = s.msixPend := (State.wr_msixPend _ _ _ _ _).trans (State.wr_msixPend _ _ _ _ _)
@[simp] theorem State.setStat_msixTab (s : State) (p st : Nat) (r : Bool) : (s.setStat p st r).msixTab = s.msixTab := (State.wr_msixTab _ _ _ _ _).trans (State.wr_msixTab _ _ _ _ _)
@[simp] theorem State.setStat_pcieUp (s : State) (p st : Nat) (r : Bool) : (s.setStat p st r).pcieUp = s.pcieUp := (State.wr_pcieUp _ _ _ _ _).trans (State.wr_pcieUp _ _ _ _ _)
@[simp] theorem State.setStat_bellCount (s : State) (p st : Nat) (r : Bool) : (s.setStat p st r).bellCount = s.bellCount := (State.wr_bellCount _ _ _ _ _).trans (State.wr_bellCount _ _ _ _ _)
@[simp] theorem State.setStat_rqs (s : State) (p st : Nat) (r : Bool) : (s.setStat p st r).rqs = s.rqs := (State.wr_rqs _ _ _ _ _).trans (State.wr_rqs _ _ _ _ _)
@[simp] theorem State.setStat_hearth (s : State) (p st : Nat) (r : Bool) : (s.setStat p st r).hearth = s.hearth := (State.wr_hearth _ _ _ _ _).trans (State.wr_hearth _ _ _ _ _)
@[simp] theorem State.setStat_banks (s : State) (p st : Nat) (r : Bool) : (s.setStat p st r).banks = s.banks := (State.wr_banks _ _ _ _ _).trans (State.wr_banks _ _ _ _ _)
@[simp] theorem State.setStat_cache (s : State) (p st : Nat) (r : Bool) : (s.setStat p st r).cache = s.cache := (State.wr_cache _ _ _ _ _).trans (State.wr_cache _ _ _ _ _)
@[simp] theorem State.setStat_ports (s : State) (p st : Nat) (r : Bool) : (s.setStat p st r).ports = s.ports := (State.wr_ports _ _ _ _ _).trans (State.wr_ports _ _ _ _ _)
@[simp] theorem State.setStat_addrs (s : State) (p st : Nat) (r : Bool) : (s.setStat p st r).addrs = s.addrs := (State.wr_addrs _ _ _ _ _).trans (State.wr_addrs _ _ _ _ _)
@[simp] theorem State.setStat_qps (s : State) (p st : Nat) (r : Bool) : (s.setStat p st r).qps = s.qps := (State.wr_qps _ _ _ _ _).trans (State.wr_qps _ _ _ _ _)
@[simp] theorem State.setStat_hosts (s : State) (p st : Nat) (r : Bool) : (s.setStat p st r).hosts = s.hosts := (State.wr_hosts _ _ _ _ _).trans (State.wr_hosts _ _ _ _ _)
@[simp] theorem State.setStat_dp (s : State) (p st : Nat) (r : Bool) : (s.setStat p st r).dp = s.dp := (State.wr_dp _ _ _ _ _).trans (State.wr_dp _ _ _ _ _)
@[simp] theorem State.setStat_prot (s : State) (p st : Nat) (r : Bool) : (s.setStat p st r).prot = s.prot := (State.wr_prot _ _ _ _ _).trans (State.wr_prot _ _ _ _ _)
@[simp] theorem State.setStat_chains (s : State) (p st : Nat) (r : Bool) : (s.setStat p st r).chains = s.chains := (State.wr_chains _ _ _ _ _).trans (State.wr_chains _ _ _ _ _)
@[simp] theorem State.setStat_tier (s : State) (p st : Nat) (r : Bool) : (s.setStat p st r).tier = s.tier := (State.wr_tier _ _ _ _ _).trans (State.wr_tier _ _ _ _ _)
@[simp] theorem State.setStat_media (s : State) (p st : Nat) (r : Bool) : (s.setStat p st r).media = s.media := (State.wr_media _ _ _ _ _).trans (State.wr_media _ _ _ _ _)
@[simp] theorem State.setStat_dur (s : State) (p st : Nat) (r : Bool) : (s.setStat p st r).dur = s.dur := (State.wr_dur _ _ _ _ _).trans (State.wr_dur _ _ _ _ _)
@[simp] theorem State.setStat_pair (s : State) (p st : Nat) (r : Bool) : (s.setStat p st r).pair = s.pair := (State.wr_pair _ _ _ _ _).trans (State.wr_pair _ _ _ _ _)
@[simp] theorem State.setStat_link (s : State) (p st : Nat) (r : Bool) : (s.setStat p st r).link = s.link := (State.wr_link _ _ _ _ _).trans (State.wr_link _ _ _ _ _)
@[simp] theorem State.setStat_pwr (s : State) (p st : Nat) (r : Bool) : (s.setStat p st r).pwr = s.pwr := (State.wr_pwr _ _ _ _ _).trans (State.wr_pwr _ _ _ _ _)
@[simp] theorem State.setStat_rec_ (s : State) (p st : Nat) (r : Bool) : (s.setStat p st r).rec_ = s.rec_ := (State.wr_rec_ _ _ _ _ _).trans (State.wr_rec_ _ _ _ _ _)
@[simp] theorem State.setStat_pmu (s : State) (p st : Nat) (r : Bool) : (s.setStat p st r).pmu = s.pmu := (State.wr_pmu _ _ _ _ _).trans (State.wr_pmu _ _ _ _ _)
@[simp] theorem State.setStat_smp (s : State) (p st : Nat) (r : Bool) : (s.setStat p st r).smp = s.smp := (State.wr_smp _ _ _ _ _).trans (State.wr_smp _ _ _ _ _)
@[simp] theorem State.setStat_boot (s : State) (p st : Nat) (r : Bool) : (s.setStat p st r).boot = s.boot := (State.wr_boot _ _ _ _ _).trans (State.wr_boot _ _ _ _ _)
@[simp] theorem State.setStat_cph (s : State) (p st : Nat) (r : Bool) : (s.setStat p st r).cph = s.cph := (State.wr_cph _ _ _ _ _).trans (State.wr_cph _ _ _ _ _)
@[simp] theorem State.setStat_ccx (s : State) (p st : Nat) (r : Bool) : (s.setStat p st r).ccx = s.ccx := (State.wr_ccx _ _ _ _ _).trans (State.wr_ccx _ _ _ _ _)
@[simp] theorem State.setStat_rails (s : State) (p st : Nat) (r : Bool) : (s.setStat p st r).rails = s.rails := (State.wr_rails _ _ _ _ _).trans (State.wr_rails _ _ _ _ _)
@[simp] theorem State.setStat_thm (s : State) (p st : Nat) (r : Bool) : (s.setStat p st r).thm = s.thm := (State.wr_thm _ _ _ _ _).trans (State.wr_thm _ _ _ _ _)
@[simp] theorem State.setStat_integ (s : State) (p st : Nat) (r : Bool) : (s.setStat p st r).integ = s.integ := (State.wr_integ _ _ _ _ _).trans (State.wr_integ _ _ _ _ _)
@[simp] theorem State.setStat_pending (s : State) (p st : Nat) (r : Bool) : (s.setStat p st r).pending = s.pending := (State.wr_pending _ _ _ _ _).trans (State.wr_pending _ _ _ _ _)

@[simp] theorem State.bumpGen_mono (s : State) (p : Nat) : (s.bumpGen p).mono = s.mono := State.inc_mono _ _ _ _ _
@[simp] theorem State.bumpGen_tbOff (s : State) (p : Nat) : (s.bumpGen p).tbOff = s.tbOff := State.inc_tbOff _ _ _ _ _
@[simp] theorem State.bumpGen_twinB (s : State) (p : Nat) : (s.bumpGen p).twinB = s.twinB := State.inc_twinB _ _ _ _ _
@[simp] theorem State.bumpGen_out (s : State) (p : Nat) : (s.bumpGen p).out = s.out := State.inc_out _ _ _ _ _
@[simp] theorem State.bumpGen_evInbox (s : State) (p : Nat) : (s.bumpGen p).evInbox = s.evInbox := State.inc_evInbox _ _ _ _ _
@[simp] theorem State.bumpGen_freeNext (s : State) (p : Nat) : (s.bumpGen p).freeNext = s.freeNext := State.inc_freeNext _ _ _ _ _
@[simp] theorem State.bumpGen_msixMask (s : State) (p : Nat) : (s.bumpGen p).msixMask = s.msixMask := State.inc_msixMask _ _ _ _ _
@[simp] theorem State.bumpGen_msixPend (s : State) (p : Nat) : (s.bumpGen p).msixPend = s.msixPend := State.inc_msixPend _ _ _ _ _
@[simp] theorem State.bumpGen_msixTab (s : State) (p : Nat) : (s.bumpGen p).msixTab = s.msixTab := State.inc_msixTab _ _ _ _ _
@[simp] theorem State.bumpGen_pcieUp (s : State) (p : Nat) : (s.bumpGen p).pcieUp = s.pcieUp := State.inc_pcieUp _ _ _ _ _
@[simp] theorem State.bumpGen_bellCount (s : State) (p : Nat) : (s.bumpGen p).bellCount = s.bellCount := State.inc_bellCount _ _ _ _ _
@[simp] theorem State.bumpGen_rqs (s : State) (p : Nat) : (s.bumpGen p).rqs = s.rqs := State.inc_rqs _ _ _ _ _
@[simp] theorem State.bumpGen_hearth (s : State) (p : Nat) : (s.bumpGen p).hearth = s.hearth := State.inc_hearth _ _ _ _ _
@[simp] theorem State.bumpGen_banks (s : State) (p : Nat) : (s.bumpGen p).banks = s.banks := State.inc_banks _ _ _ _ _
@[simp] theorem State.bumpGen_cache (s : State) (p : Nat) : (s.bumpGen p).cache = s.cache := State.inc_cache _ _ _ _ _
@[simp] theorem State.bumpGen_ports (s : State) (p : Nat) : (s.bumpGen p).ports = s.ports := State.inc_ports _ _ _ _ _
@[simp] theorem State.bumpGen_addrs (s : State) (p : Nat) : (s.bumpGen p).addrs = s.addrs := State.inc_addrs _ _ _ _ _
@[simp] theorem State.bumpGen_qps (s : State) (p : Nat) : (s.bumpGen p).qps = s.qps := State.inc_qps _ _ _ _ _
@[simp] theorem State.bumpGen_hosts (s : State) (p : Nat) : (s.bumpGen p).hosts = s.hosts := State.inc_hosts _ _ _ _ _
@[simp] theorem State.bumpGen_dp (s : State) (p : Nat) : (s.bumpGen p).dp = s.dp := State.inc_dp _ _ _ _ _
@[simp] theorem State.bumpGen_prot (s : State) (p : Nat) : (s.bumpGen p).prot = s.prot := State.inc_prot _ _ _ _ _
@[simp] theorem State.bumpGen_chains (s : State) (p : Nat) : (s.bumpGen p).chains = s.chains := State.inc_chains _ _ _ _ _
@[simp] theorem State.bumpGen_tier (s : State) (p : Nat) : (s.bumpGen p).tier = s.tier := State.inc_tier _ _ _ _ _
@[simp] theorem State.bumpGen_media (s : State) (p : Nat) : (s.bumpGen p).media = s.media := State.inc_media _ _ _ _ _
@[simp] theorem State.bumpGen_dur (s : State) (p : Nat) : (s.bumpGen p).dur = s.dur := State.inc_dur _ _ _ _ _
@[simp] theorem State.bumpGen_pair (s : State) (p : Nat) : (s.bumpGen p).pair = s.pair := State.inc_pair _ _ _ _ _
@[simp] theorem State.bumpGen_link (s : State) (p : Nat) : (s.bumpGen p).link = s.link := State.inc_link _ _ _ _ _
@[simp] theorem State.bumpGen_pwr (s : State) (p : Nat) : (s.bumpGen p).pwr = s.pwr := State.inc_pwr _ _ _ _ _
@[simp] theorem State.bumpGen_rec_ (s : State) (p : Nat) : (s.bumpGen p).rec_ = s.rec_ := State.inc_rec_ _ _ _ _ _
@[simp] theorem State.bumpGen_pmu (s : State) (p : Nat) : (s.bumpGen p).pmu = s.pmu := State.inc_pmu _ _ _ _ _
@[simp] theorem State.bumpGen_smp (s : State) (p : Nat) : (s.bumpGen p).smp = s.smp := State.inc_smp _ _ _ _ _
@[simp] theorem State.bumpGen_boot (s : State) (p : Nat) : (s.bumpGen p).boot = s.boot := State.inc_boot _ _ _ _ _
@[simp] theorem State.bumpGen_cph (s : State) (p : Nat) : (s.bumpGen p).cph = s.cph := State.inc_cph _ _ _ _ _
@[simp] theorem State.bumpGen_ccx (s : State) (p : Nat) : (s.bumpGen p).ccx = s.ccx := State.inc_ccx _ _ _ _ _
@[simp] theorem State.bumpGen_rails (s : State) (p : Nat) : (s.bumpGen p).rails = s.rails := State.inc_rails _ _ _ _ _
@[simp] theorem State.bumpGen_thm (s : State) (p : Nat) : (s.bumpGen p).thm = s.thm := State.inc_thm _ _ _ _ _
@[simp] theorem State.bumpGen_integ (s : State) (p : Nat) : (s.bumpGen p).integ = s.integ := State.inc_integ _ _ _ _ _
@[simp] theorem State.bumpGen_pending (s : State) (p : Nat) : (s.bumpGen p).pending = s.pending := State.inc_pending _ _ _ _ _

@[simp] theorem State.emit_mono (s : State) (o : Out) : (s.emit o).mono = s.mono := by simp only [State.emit]
@[simp] theorem State.emit_tbOff (s : State) (o : Out) : (s.emit o).tbOff = s.tbOff := by simp only [State.emit]
@[simp] theorem State.emit_twinB (s : State) (o : Out) : (s.emit o).twinB = s.twinB := by simp only [State.emit]
@[simp] theorem State.emit_regs (s : State) (o : Out) : (s.emit o).regs = s.regs := by simp only [State.emit]
@[simp] theorem State.emit_evInbox (s : State) (o : Out) : (s.emit o).evInbox = s.evInbox := by simp only [State.emit]
@[simp] theorem State.emit_freeNext (s : State) (o : Out) : (s.emit o).freeNext = s.freeNext := by simp only [State.emit]
@[simp] theorem State.emit_msixMask (s : State) (o : Out) : (s.emit o).msixMask = s.msixMask := by simp only [State.emit]
@[simp] theorem State.emit_msixPend (s : State) (o : Out) : (s.emit o).msixPend = s.msixPend := by simp only [State.emit]
@[simp] theorem State.emit_msixTab (s : State) (o : Out) : (s.emit o).msixTab = s.msixTab := by simp only [State.emit]
@[simp] theorem State.emit_pcieUp (s : State) (o : Out) : (s.emit o).pcieUp = s.pcieUp := by simp only [State.emit]
@[simp] theorem State.emit_bellCount (s : State) (o : Out) : (s.emit o).bellCount = s.bellCount := by simp only [State.emit]
@[simp] theorem State.emit_rqs (s : State) (o : Out) : (s.emit o).rqs = s.rqs := by simp only [State.emit]
@[simp] theorem State.emit_hearth (s : State) (o : Out) : (s.emit o).hearth = s.hearth := by simp only [State.emit]
@[simp] theorem State.emit_banks (s : State) (o : Out) : (s.emit o).banks = s.banks := by simp only [State.emit]
@[simp] theorem State.emit_cache (s : State) (o : Out) : (s.emit o).cache = s.cache := by simp only [State.emit]
@[simp] theorem State.emit_ports (s : State) (o : Out) : (s.emit o).ports = s.ports := by simp only [State.emit]
@[simp] theorem State.emit_addrs (s : State) (o : Out) : (s.emit o).addrs = s.addrs := by simp only [State.emit]
@[simp] theorem State.emit_qps (s : State) (o : Out) : (s.emit o).qps = s.qps := by simp only [State.emit]
@[simp] theorem State.emit_hosts (s : State) (o : Out) : (s.emit o).hosts = s.hosts := by simp only [State.emit]
@[simp] theorem State.emit_dp (s : State) (o : Out) : (s.emit o).dp = s.dp := by simp only [State.emit]
@[simp] theorem State.emit_prot (s : State) (o : Out) : (s.emit o).prot = s.prot := by simp only [State.emit]
@[simp] theorem State.emit_chains (s : State) (o : Out) : (s.emit o).chains = s.chains := by simp only [State.emit]
@[simp] theorem State.emit_tier (s : State) (o : Out) : (s.emit o).tier = s.tier := by simp only [State.emit]
@[simp] theorem State.emit_media (s : State) (o : Out) : (s.emit o).media = s.media := by simp only [State.emit]
@[simp] theorem State.emit_dur (s : State) (o : Out) : (s.emit o).dur = s.dur := by simp only [State.emit]
@[simp] theorem State.emit_pair (s : State) (o : Out) : (s.emit o).pair = s.pair := by simp only [State.emit]
@[simp] theorem State.emit_link (s : State) (o : Out) : (s.emit o).link = s.link := by simp only [State.emit]
@[simp] theorem State.emit_pwr (s : State) (o : Out) : (s.emit o).pwr = s.pwr := by simp only [State.emit]
@[simp] theorem State.emit_rec_ (s : State) (o : Out) : (s.emit o).rec_ = s.rec_ := by simp only [State.emit]
@[simp] theorem State.emit_pmu (s : State) (o : Out) : (s.emit o).pmu = s.pmu := by simp only [State.emit]
@[simp] theorem State.emit_smp (s : State) (o : Out) : (s.emit o).smp = s.smp := by simp only [State.emit]
@[simp] theorem State.emit_boot (s : State) (o : Out) : (s.emit o).boot = s.boot := by simp only [State.emit]
@[simp] theorem State.emit_cph (s : State) (o : Out) : (s.emit o).cph = s.cph := by simp only [State.emit]
@[simp] theorem State.emit_ccx (s : State) (o : Out) : (s.emit o).ccx = s.ccx := by simp only [State.emit]
@[simp] theorem State.emit_rails (s : State) (o : Out) : (s.emit o).rails = s.rails := by simp only [State.emit]
@[simp] theorem State.emit_thm (s : State) (o : Out) : (s.emit o).thm = s.thm := by simp only [State.emit]
@[simp] theorem State.emit_integ (s : State) (o : Out) : (s.emit o).integ = s.integ := by simp only [State.emit]
@[simp] theorem State.emit_pending (s : State) (o : Out) : (s.emit o).pending = s.pending := by simp only [State.emit]

theorem State.msix_eq (s : State) (v : Nat) : s.msix v = { s with out := (s.msix v).out, msixPend := (s.msix v).msixPend } := by
  unfold State.msix; split <;> rfl
@[simp] theorem State.msix_mono (s : State) (v : Nat) : (s.msix v).mono = s.mono := (congrArg State.mono (State.msix_eq s v)).trans rfl
@[simp] theorem State.msix_tbOff (s : State) (v : Nat) : (s.msix v).tbOff = s.tbOff := (congrArg State.tbOff (State.msix_eq s v)).trans rfl
@[simp] theorem State.msix_twinB (s : State) (v : Nat) : (s.msix v).twinB = s.twinB := (congrArg State.twinB (State.msix_eq s v)).trans rfl
@[simp] theorem State.msix_regs (s : State) (v : Nat) : (s.msix v).regs = s.regs := (congrArg State.regs (State.msix_eq s v)).trans rfl
@[simp] theorem State.msix_evInbox (s : State) (v : Nat) : (s.msix v).evInbox = s.evInbox := (congrArg State.evInbox (State.msix_eq s v)).trans rfl
@[simp] theorem State.msix_freeNext (s : State) (v : Nat) : (s.msix v).freeNext = s.freeNext := (congrArg State.freeNext (State.msix_eq s v)).trans rfl
@[simp] theorem State.msix_msixMask (s : State) (v : Nat) : (s.msix v).msixMask = s.msixMask := (congrArg State.msixMask (State.msix_eq s v)).trans rfl
@[simp] theorem State.msix_msixTab (s : State) (v : Nat) : (s.msix v).msixTab = s.msixTab := (congrArg State.msixTab (State.msix_eq s v)).trans rfl
@[simp] theorem State.msix_pcieUp (s : State) (v : Nat) : (s.msix v).pcieUp = s.pcieUp := (congrArg State.pcieUp (State.msix_eq s v)).trans rfl
@[simp] theorem State.msix_bellCount (s : State) (v : Nat) : (s.msix v).bellCount = s.bellCount := (congrArg State.bellCount (State.msix_eq s v)).trans rfl
@[simp] theorem State.msix_rqs (s : State) (v : Nat) : (s.msix v).rqs = s.rqs := (congrArg State.rqs (State.msix_eq s v)).trans rfl
@[simp] theorem State.msix_hearth (s : State) (v : Nat) : (s.msix v).hearth = s.hearth := (congrArg State.hearth (State.msix_eq s v)).trans rfl
@[simp] theorem State.msix_banks (s : State) (v : Nat) : (s.msix v).banks = s.banks := (congrArg State.banks (State.msix_eq s v)).trans rfl
@[simp] theorem State.msix_cache (s : State) (v : Nat) : (s.msix v).cache = s.cache := (congrArg State.cache (State.msix_eq s v)).trans rfl
@[simp] theorem State.msix_ports (s : State) (v : Nat) : (s.msix v).ports = s.ports := (congrArg State.ports (State.msix_eq s v)).trans rfl
@[simp] theorem State.msix_addrs (s : State) (v : Nat) : (s.msix v).addrs = s.addrs := (congrArg State.addrs (State.msix_eq s v)).trans rfl
@[simp] theorem State.msix_qps (s : State) (v : Nat) : (s.msix v).qps = s.qps := (congrArg State.qps (State.msix_eq s v)).trans rfl
@[simp] theorem State.msix_hosts (s : State) (v : Nat) : (s.msix v).hosts = s.hosts := (congrArg State.hosts (State.msix_eq s v)).trans rfl
@[simp] theorem State.msix_dp (s : State) (v : Nat) : (s.msix v).dp = s.dp := (congrArg State.dp (State.msix_eq s v)).trans rfl
@[simp] theorem State.msix_prot (s : State) (v : Nat) : (s.msix v).prot = s.prot := (congrArg State.prot (State.msix_eq s v)).trans rfl
@[simp] theorem State.msix_chains (s : State) (v : Nat) : (s.msix v).chains = s.chains := (congrArg State.chains (State.msix_eq s v)).trans rfl
@[simp] theorem State.msix_tier (s : State) (v : Nat) : (s.msix v).tier = s.tier := (congrArg State.tier (State.msix_eq s v)).trans rfl
@[simp] theorem State.msix_media (s : State) (v : Nat) : (s.msix v).media = s.media := (congrArg State.media (State.msix_eq s v)).trans rfl
@[simp] theorem State.msix_dur (s : State) (v : Nat) : (s.msix v).dur = s.dur := (congrArg State.dur (State.msix_eq s v)).trans rfl
@[simp] theorem State.msix_pair (s : State) (v : Nat) : (s.msix v).pair = s.pair := (congrArg State.pair (State.msix_eq s v)).trans rfl
@[simp] theorem State.msix_link (s : State) (v : Nat) : (s.msix v).link = s.link := (congrArg State.link (State.msix_eq s v)).trans rfl
@[simp] theorem State.msix_pwr (s : State) (v : Nat) : (s.msix v).pwr = s.pwr := (congrArg State.pwr (State.msix_eq s v)).trans rfl
@[simp] theorem State.msix_rec_ (s : State) (v : Nat) : (s.msix v).rec_ = s.rec_ := (congrArg State.rec_ (State.msix_eq s v)).trans rfl
@[simp] theorem State.msix_pmu (s : State) (v : Nat) : (s.msix v).pmu = s.pmu := (congrArg State.pmu (State.msix_eq s v)).trans rfl
@[simp] theorem State.msix_smp (s : State) (v : Nat) : (s.msix v).smp = s.smp := (congrArg State.smp (State.msix_eq s v)).trans rfl
@[simp] theorem State.msix_boot (s : State) (v : Nat) : (s.msix v).boot = s.boot := (congrArg State.boot (State.msix_eq s v)).trans rfl
@[simp] theorem State.msix_cph (s : State) (v : Nat) : (s.msix v).cph = s.cph := (congrArg State.cph (State.msix_eq s v)).trans rfl
@[simp] theorem State.msix_ccx (s : State) (v : Nat) : (s.msix v).ccx = s.ccx := (congrArg State.ccx (State.msix_eq s v)).trans rfl
@[simp] theorem State.msix_rails (s : State) (v : Nat) : (s.msix v).rails = s.rails := (congrArg State.rails (State.msix_eq s v)).trans rfl
@[simp] theorem State.msix_thm (s : State) (v : Nat) : (s.msix v).thm = s.thm := (congrArg State.thm (State.msix_eq s v)).trans rfl
@[simp] theorem State.msix_integ (s : State) (v : Nat) : (s.msix v).integ = s.integ := (congrArg State.integ (State.msix_eq s v)).trans rfl
@[simp] theorem State.msix_pending (s : State) (v : Nat) : (s.msix v).pending = s.pending := (congrArg State.pending (State.msix_eq s v)).trans rfl

theorem State.setFlags_eq (s : State) (p : Nat) (m : Word64) : s.setFlags p m = { s with regs := (s.setFlags p m).regs, out := (s.setFlags p m).out, msixPend := (s.setFlags p m).msixPend } := by
  have h : ∀ (x : State) (v : Nat), x.msix v = { x with out := (x.msix v).out, msixPend := (x.msix v).msixPend } := fun x v => State.msix_eq x v
  generalize e : s.setFlags p m = y
  unfold State.setFlags at e
  dsimp only at e
  split at e
  · rw [h] at e; subst e; rfl
  · subst e; rfl
@[simp] theorem State.setFlags_mono (s : State) (p : Nat) (m : Word64) : (s.setFlags p m).mono = s.mono := (congrArg State.mono (State.setFlags_eq s p m)).trans rfl
@[simp] theorem State.setFlags_tbOff (s : State) (p : Nat) (m : Word64) : (s.setFlags p m).tbOff = s.tbOff := (congrArg State.tbOff (State.setFlags_eq s p m)).trans rfl
@[simp] theorem State.setFlags_twinB (s : State) (p : Nat) (m : Word64) : (s.setFlags p m).twinB = s.twinB := (congrArg State.twinB (State.setFlags_eq s p m)).trans rfl
@[simp] theorem State.setFlags_evInbox (s : State) (p : Nat) (m : Word64) : (s.setFlags p m).evInbox = s.evInbox := (congrArg State.evInbox (State.setFlags_eq s p m)).trans rfl
@[simp] theorem State.setFlags_freeNext (s : State) (p : Nat) (m : Word64) : (s.setFlags p m).freeNext = s.freeNext := (congrArg State.freeNext (State.setFlags_eq s p m)).trans rfl
@[simp] theorem State.setFlags_msixMask (s : State) (p : Nat) (m : Word64) : (s.setFlags p m).msixMask = s.msixMask := (congrArg State.msixMask (State.setFlags_eq s p m)).trans rfl
@[simp] theorem State.setFlags_msixTab (s : State) (p : Nat) (m : Word64) : (s.setFlags p m).msixTab = s.msixTab := (congrArg State.msixTab (State.setFlags_eq s p m)).trans rfl
@[simp] theorem State.setFlags_pcieUp (s : State) (p : Nat) (m : Word64) : (s.setFlags p m).pcieUp = s.pcieUp := (congrArg State.pcieUp (State.setFlags_eq s p m)).trans rfl
@[simp] theorem State.setFlags_bellCount (s : State) (p : Nat) (m : Word64) : (s.setFlags p m).bellCount = s.bellCount := (congrArg State.bellCount (State.setFlags_eq s p m)).trans rfl
@[simp] theorem State.setFlags_rqs (s : State) (p : Nat) (m : Word64) : (s.setFlags p m).rqs = s.rqs := (congrArg State.rqs (State.setFlags_eq s p m)).trans rfl
@[simp] theorem State.setFlags_hearth (s : State) (p : Nat) (m : Word64) : (s.setFlags p m).hearth = s.hearth := (congrArg State.hearth (State.setFlags_eq s p m)).trans rfl
@[simp] theorem State.setFlags_banks (s : State) (p : Nat) (m : Word64) : (s.setFlags p m).banks = s.banks := (congrArg State.banks (State.setFlags_eq s p m)).trans rfl
@[simp] theorem State.setFlags_cache (s : State) (p : Nat) (m : Word64) : (s.setFlags p m).cache = s.cache := (congrArg State.cache (State.setFlags_eq s p m)).trans rfl
@[simp] theorem State.setFlags_ports (s : State) (p : Nat) (m : Word64) : (s.setFlags p m).ports = s.ports := (congrArg State.ports (State.setFlags_eq s p m)).trans rfl
@[simp] theorem State.setFlags_addrs (s : State) (p : Nat) (m : Word64) : (s.setFlags p m).addrs = s.addrs := (congrArg State.addrs (State.setFlags_eq s p m)).trans rfl
@[simp] theorem State.setFlags_qps (s : State) (p : Nat) (m : Word64) : (s.setFlags p m).qps = s.qps := (congrArg State.qps (State.setFlags_eq s p m)).trans rfl
@[simp] theorem State.setFlags_hosts (s : State) (p : Nat) (m : Word64) : (s.setFlags p m).hosts = s.hosts := (congrArg State.hosts (State.setFlags_eq s p m)).trans rfl
@[simp] theorem State.setFlags_dp (s : State) (p : Nat) (m : Word64) : (s.setFlags p m).dp = s.dp := (congrArg State.dp (State.setFlags_eq s p m)).trans rfl
@[simp] theorem State.setFlags_prot (s : State) (p : Nat) (m : Word64) : (s.setFlags p m).prot = s.prot := (congrArg State.prot (State.setFlags_eq s p m)).trans rfl
@[simp] theorem State.setFlags_chains (s : State) (p : Nat) (m : Word64) : (s.setFlags p m).chains = s.chains := (congrArg State.chains (State.setFlags_eq s p m)).trans rfl
@[simp] theorem State.setFlags_tier (s : State) (p : Nat) (m : Word64) : (s.setFlags p m).tier = s.tier := (congrArg State.tier (State.setFlags_eq s p m)).trans rfl
@[simp] theorem State.setFlags_media (s : State) (p : Nat) (m : Word64) : (s.setFlags p m).media = s.media := (congrArg State.media (State.setFlags_eq s p m)).trans rfl
@[simp] theorem State.setFlags_dur (s : State) (p : Nat) (m : Word64) : (s.setFlags p m).dur = s.dur := (congrArg State.dur (State.setFlags_eq s p m)).trans rfl
@[simp] theorem State.setFlags_pair (s : State) (p : Nat) (m : Word64) : (s.setFlags p m).pair = s.pair := (congrArg State.pair (State.setFlags_eq s p m)).trans rfl
@[simp] theorem State.setFlags_link (s : State) (p : Nat) (m : Word64) : (s.setFlags p m).link = s.link := (congrArg State.link (State.setFlags_eq s p m)).trans rfl
@[simp] theorem State.setFlags_pwr (s : State) (p : Nat) (m : Word64) : (s.setFlags p m).pwr = s.pwr := (congrArg State.pwr (State.setFlags_eq s p m)).trans rfl
@[simp] theorem State.setFlags_rec_ (s : State) (p : Nat) (m : Word64) : (s.setFlags p m).rec_ = s.rec_ := (congrArg State.rec_ (State.setFlags_eq s p m)).trans rfl
@[simp] theorem State.setFlags_pmu (s : State) (p : Nat) (m : Word64) : (s.setFlags p m).pmu = s.pmu := (congrArg State.pmu (State.setFlags_eq s p m)).trans rfl
@[simp] theorem State.setFlags_smp (s : State) (p : Nat) (m : Word64) : (s.setFlags p m).smp = s.smp := (congrArg State.smp (State.setFlags_eq s p m)).trans rfl
@[simp] theorem State.setFlags_boot (s : State) (p : Nat) (m : Word64) : (s.setFlags p m).boot = s.boot := (congrArg State.boot (State.setFlags_eq s p m)).trans rfl
@[simp] theorem State.setFlags_cph (s : State) (p : Nat) (m : Word64) : (s.setFlags p m).cph = s.cph := (congrArg State.cph (State.setFlags_eq s p m)).trans rfl
@[simp] theorem State.setFlags_ccx (s : State) (p : Nat) (m : Word64) : (s.setFlags p m).ccx = s.ccx := (congrArg State.ccx (State.setFlags_eq s p m)).trans rfl
@[simp] theorem State.setFlags_rails (s : State) (p : Nat) (m : Word64) : (s.setFlags p m).rails = s.rails := (congrArg State.rails (State.setFlags_eq s p m)).trans rfl
@[simp] theorem State.setFlags_thm (s : State) (p : Nat) (m : Word64) : (s.setFlags p m).thm = s.thm := (congrArg State.thm (State.setFlags_eq s p m)).trans rfl
@[simp] theorem State.setFlags_integ (s : State) (p : Nat) (m : Word64) : (s.setFlags p m).integ = s.integ := (congrArg State.integ (State.setFlags_eq s p m)).trans rfl
@[simp] theorem State.setFlags_pending (s : State) (p : Nat) (m : Word64) : (s.setFlags p m).pending = s.pending := (congrArg State.pending (State.setFlags_eq s p m)).trans rfl

theorem State.raiseWith_eq (s : State) (p n : Nat) (t : Bool) (a : Word64) : s.raiseWith p n t a = { s with regs := (s.raiseWith p n t a).regs, out := (s.raiseWith p n t a).out, evInbox := (s.raiseWith p n t a).evInbox, msixPend := (s.raiseWith p n t a).msixPend } := by
  generalize e : s.raiseWith p n t a = y
  unfold State.raiseWith at e
  dsimp only at e
  split at e
  · have h := State.setFlags_eq s p (1#64 <<< n)
    split at e
    · rw [h] at e; subst e; rfl
    · rw [h] at e; subst e; rfl
  · subst e; rfl
@[simp] theorem State.raiseWith_mono (s : State) (p n : Nat) (t : Bool) (a : Word64) : (s.raiseWith p n t a).mono = s.mono := (congrArg State.mono (State.raiseWith_eq s p n t a)).trans rfl
@[simp] theorem State.raiseWith_tbOff (s : State) (p n : Nat) (t : Bool) (a : Word64) : (s.raiseWith p n t a).tbOff = s.tbOff := (congrArg State.tbOff (State.raiseWith_eq s p n t a)).trans rfl
@[simp] theorem State.raiseWith_twinB (s : State) (p n : Nat) (t : Bool) (a : Word64) : (s.raiseWith p n t a).twinB = s.twinB := (congrArg State.twinB (State.raiseWith_eq s p n t a)).trans rfl
@[simp] theorem State.raiseWith_freeNext (s : State) (p n : Nat) (t : Bool) (a : Word64) : (s.raiseWith p n t a).freeNext = s.freeNext := (congrArg State.freeNext (State.raiseWith_eq s p n t a)).trans rfl
@[simp] theorem State.raiseWith_msixMask (s : State) (p n : Nat) (t : Bool) (a : Word64) : (s.raiseWith p n t a).msixMask = s.msixMask := (congrArg State.msixMask (State.raiseWith_eq s p n t a)).trans rfl
@[simp] theorem State.raiseWith_msixTab (s : State) (p n : Nat) (t : Bool) (a : Word64) : (s.raiseWith p n t a).msixTab = s.msixTab := (congrArg State.msixTab (State.raiseWith_eq s p n t a)).trans rfl
@[simp] theorem State.raiseWith_pcieUp (s : State) (p n : Nat) (t : Bool) (a : Word64) : (s.raiseWith p n t a).pcieUp = s.pcieUp := (congrArg State.pcieUp (State.raiseWith_eq s p n t a)).trans rfl
@[simp] theorem State.raiseWith_bellCount (s : State) (p n : Nat) (t : Bool) (a : Word64) : (s.raiseWith p n t a).bellCount = s.bellCount := (congrArg State.bellCount (State.raiseWith_eq s p n t a)).trans rfl
@[simp] theorem State.raiseWith_rqs (s : State) (p n : Nat) (t : Bool) (a : Word64) : (s.raiseWith p n t a).rqs = s.rqs := (congrArg State.rqs (State.raiseWith_eq s p n t a)).trans rfl
@[simp] theorem State.raiseWith_hearth (s : State) (p n : Nat) (t : Bool) (a : Word64) : (s.raiseWith p n t a).hearth = s.hearth := (congrArg State.hearth (State.raiseWith_eq s p n t a)).trans rfl
@[simp] theorem State.raiseWith_banks (s : State) (p n : Nat) (t : Bool) (a : Word64) : (s.raiseWith p n t a).banks = s.banks := (congrArg State.banks (State.raiseWith_eq s p n t a)).trans rfl
@[simp] theorem State.raiseWith_cache (s : State) (p n : Nat) (t : Bool) (a : Word64) : (s.raiseWith p n t a).cache = s.cache := (congrArg State.cache (State.raiseWith_eq s p n t a)).trans rfl
@[simp] theorem State.raiseWith_ports (s : State) (p n : Nat) (t : Bool) (a : Word64) : (s.raiseWith p n t a).ports = s.ports := (congrArg State.ports (State.raiseWith_eq s p n t a)).trans rfl
@[simp] theorem State.raiseWith_addrs (s : State) (p n : Nat) (t : Bool) (a : Word64) : (s.raiseWith p n t a).addrs = s.addrs := (congrArg State.addrs (State.raiseWith_eq s p n t a)).trans rfl
@[simp] theorem State.raiseWith_qps (s : State) (p n : Nat) (t : Bool) (a : Word64) : (s.raiseWith p n t a).qps = s.qps := (congrArg State.qps (State.raiseWith_eq s p n t a)).trans rfl
@[simp] theorem State.raiseWith_hosts (s : State) (p n : Nat) (t : Bool) (a : Word64) : (s.raiseWith p n t a).hosts = s.hosts := (congrArg State.hosts (State.raiseWith_eq s p n t a)).trans rfl
@[simp] theorem State.raiseWith_dp (s : State) (p n : Nat) (t : Bool) (a : Word64) : (s.raiseWith p n t a).dp = s.dp := (congrArg State.dp (State.raiseWith_eq s p n t a)).trans rfl
@[simp] theorem State.raiseWith_prot (s : State) (p n : Nat) (t : Bool) (a : Word64) : (s.raiseWith p n t a).prot = s.prot := (congrArg State.prot (State.raiseWith_eq s p n t a)).trans rfl
@[simp] theorem State.raiseWith_chains (s : State) (p n : Nat) (t : Bool) (a : Word64) : (s.raiseWith p n t a).chains = s.chains := (congrArg State.chains (State.raiseWith_eq s p n t a)).trans rfl
@[simp] theorem State.raiseWith_tier (s : State) (p n : Nat) (t : Bool) (a : Word64) : (s.raiseWith p n t a).tier = s.tier := (congrArg State.tier (State.raiseWith_eq s p n t a)).trans rfl
@[simp] theorem State.raiseWith_media (s : State) (p n : Nat) (t : Bool) (a : Word64) : (s.raiseWith p n t a).media = s.media := (congrArg State.media (State.raiseWith_eq s p n t a)).trans rfl
@[simp] theorem State.raiseWith_dur (s : State) (p n : Nat) (t : Bool) (a : Word64) : (s.raiseWith p n t a).dur = s.dur := (congrArg State.dur (State.raiseWith_eq s p n t a)).trans rfl
@[simp] theorem State.raiseWith_pair (s : State) (p n : Nat) (t : Bool) (a : Word64) : (s.raiseWith p n t a).pair = s.pair := (congrArg State.pair (State.raiseWith_eq s p n t a)).trans rfl
@[simp] theorem State.raiseWith_link (s : State) (p n : Nat) (t : Bool) (a : Word64) : (s.raiseWith p n t a).link = s.link := (congrArg State.link (State.raiseWith_eq s p n t a)).trans rfl
@[simp] theorem State.raiseWith_pwr (s : State) (p n : Nat) (t : Bool) (a : Word64) : (s.raiseWith p n t a).pwr = s.pwr := (congrArg State.pwr (State.raiseWith_eq s p n t a)).trans rfl
@[simp] theorem State.raiseWith_rec_ (s : State) (p n : Nat) (t : Bool) (a : Word64) : (s.raiseWith p n t a).rec_ = s.rec_ := (congrArg State.rec_ (State.raiseWith_eq s p n t a)).trans rfl
@[simp] theorem State.raiseWith_pmu (s : State) (p n : Nat) (t : Bool) (a : Word64) : (s.raiseWith p n t a).pmu = s.pmu := (congrArg State.pmu (State.raiseWith_eq s p n t a)).trans rfl
@[simp] theorem State.raiseWith_smp (s : State) (p n : Nat) (t : Bool) (a : Word64) : (s.raiseWith p n t a).smp = s.smp := (congrArg State.smp (State.raiseWith_eq s p n t a)).trans rfl
@[simp] theorem State.raiseWith_boot (s : State) (p n : Nat) (t : Bool) (a : Word64) : (s.raiseWith p n t a).boot = s.boot := (congrArg State.boot (State.raiseWith_eq s p n t a)).trans rfl
@[simp] theorem State.raiseWith_cph (s : State) (p n : Nat) (t : Bool) (a : Word64) : (s.raiseWith p n t a).cph = s.cph := (congrArg State.cph (State.raiseWith_eq s p n t a)).trans rfl
@[simp] theorem State.raiseWith_ccx (s : State) (p n : Nat) (t : Bool) (a : Word64) : (s.raiseWith p n t a).ccx = s.ccx := (congrArg State.ccx (State.raiseWith_eq s p n t a)).trans rfl
@[simp] theorem State.raiseWith_rails (s : State) (p n : Nat) (t : Bool) (a : Word64) : (s.raiseWith p n t a).rails = s.rails := (congrArg State.rails (State.raiseWith_eq s p n t a)).trans rfl
@[simp] theorem State.raiseWith_thm (s : State) (p n : Nat) (t : Bool) (a : Word64) : (s.raiseWith p n t a).thm = s.thm := (congrArg State.thm (State.raiseWith_eq s p n t a)).trans rfl
@[simp] theorem State.raiseWith_integ (s : State) (p n : Nat) (t : Bool) (a : Word64) : (s.raiseWith p n t a).integ = s.integ := (congrArg State.integ (State.raiseWith_eq s p n t a)).trans rfl
@[simp] theorem State.raiseWith_pending (s : State) (p n : Nat) (t : Bool) (a : Word64) : (s.raiseWith p n t a).pending = s.pending := (congrArg State.pending (State.raiseWith_eq s p n t a)).trans rfl

theorem State.raise_eq (s : State) (p n : Nat) : s.raise p n = { s with regs := (s.raise p n).regs, out := (s.raise p n).out, evInbox := (s.raise p n).evInbox, msixPend := (s.raise p n).msixPend } := by
  exact State.raiseWith_eq s p n false _
@[simp] theorem State.raise_mono (s : State) (p n : Nat) : (s.raise p n).mono = s.mono := (congrArg State.mono (State.raise_eq s p n)).trans rfl
@[simp] theorem State.raise_tbOff (s : State) (p n : Nat) : (s.raise p n).tbOff = s.tbOff := (congrArg State.tbOff (State.raise_eq s p n)).trans rfl
@[simp] theorem State.raise_twinB (s : State) (p n : Nat) : (s.raise p n).twinB = s.twinB := (congrArg State.twinB (State.raise_eq s p n)).trans rfl
@[simp] theorem State.raise_freeNext (s : State) (p n : Nat) : (s.raise p n).freeNext = s.freeNext := (congrArg State.freeNext (State.raise_eq s p n)).trans rfl
@[simp] theorem State.raise_msixMask (s : State) (p n : Nat) : (s.raise p n).msixMask = s.msixMask := (congrArg State.msixMask (State.raise_eq s p n)).trans rfl
@[simp] theorem State.raise_msixTab (s : State) (p n : Nat) : (s.raise p n).msixTab = s.msixTab := (congrArg State.msixTab (State.raise_eq s p n)).trans rfl
@[simp] theorem State.raise_pcieUp (s : State) (p n : Nat) : (s.raise p n).pcieUp = s.pcieUp := (congrArg State.pcieUp (State.raise_eq s p n)).trans rfl
@[simp] theorem State.raise_bellCount (s : State) (p n : Nat) : (s.raise p n).bellCount = s.bellCount := (congrArg State.bellCount (State.raise_eq s p n)).trans rfl
@[simp] theorem State.raise_rqs (s : State) (p n : Nat) : (s.raise p n).rqs = s.rqs := (congrArg State.rqs (State.raise_eq s p n)).trans rfl
@[simp] theorem State.raise_hearth (s : State) (p n : Nat) : (s.raise p n).hearth = s.hearth := (congrArg State.hearth (State.raise_eq s p n)).trans rfl
@[simp] theorem State.raise_banks (s : State) (p n : Nat) : (s.raise p n).banks = s.banks := (congrArg State.banks (State.raise_eq s p n)).trans rfl
@[simp] theorem State.raise_cache (s : State) (p n : Nat) : (s.raise p n).cache = s.cache := (congrArg State.cache (State.raise_eq s p n)).trans rfl
@[simp] theorem State.raise_ports (s : State) (p n : Nat) : (s.raise p n).ports = s.ports := (congrArg State.ports (State.raise_eq s p n)).trans rfl
@[simp] theorem State.raise_addrs (s : State) (p n : Nat) : (s.raise p n).addrs = s.addrs := (congrArg State.addrs (State.raise_eq s p n)).trans rfl
@[simp] theorem State.raise_qps (s : State) (p n : Nat) : (s.raise p n).qps = s.qps := (congrArg State.qps (State.raise_eq s p n)).trans rfl
@[simp] theorem State.raise_hosts (s : State) (p n : Nat) : (s.raise p n).hosts = s.hosts := (congrArg State.hosts (State.raise_eq s p n)).trans rfl
@[simp] theorem State.raise_dp (s : State) (p n : Nat) : (s.raise p n).dp = s.dp := (congrArg State.dp (State.raise_eq s p n)).trans rfl
@[simp] theorem State.raise_prot (s : State) (p n : Nat) : (s.raise p n).prot = s.prot := (congrArg State.prot (State.raise_eq s p n)).trans rfl
@[simp] theorem State.raise_chains (s : State) (p n : Nat) : (s.raise p n).chains = s.chains := (congrArg State.chains (State.raise_eq s p n)).trans rfl
@[simp] theorem State.raise_tier (s : State) (p n : Nat) : (s.raise p n).tier = s.tier := (congrArg State.tier (State.raise_eq s p n)).trans rfl
@[simp] theorem State.raise_media (s : State) (p n : Nat) : (s.raise p n).media = s.media := (congrArg State.media (State.raise_eq s p n)).trans rfl
@[simp] theorem State.raise_dur (s : State) (p n : Nat) : (s.raise p n).dur = s.dur := (congrArg State.dur (State.raise_eq s p n)).trans rfl
@[simp] theorem State.raise_pair (s : State) (p n : Nat) : (s.raise p n).pair = s.pair := (congrArg State.pair (State.raise_eq s p n)).trans rfl
@[simp] theorem State.raise_link (s : State) (p n : Nat) : (s.raise p n).link = s.link := (congrArg State.link (State.raise_eq s p n)).trans rfl
@[simp] theorem State.raise_pwr (s : State) (p n : Nat) : (s.raise p n).pwr = s.pwr := (congrArg State.pwr (State.raise_eq s p n)).trans rfl
@[simp] theorem State.raise_rec_ (s : State) (p n : Nat) : (s.raise p n).rec_ = s.rec_ := (congrArg State.rec_ (State.raise_eq s p n)).trans rfl
@[simp] theorem State.raise_pmu (s : State) (p n : Nat) : (s.raise p n).pmu = s.pmu := (congrArg State.pmu (State.raise_eq s p n)).trans rfl
@[simp] theorem State.raise_smp (s : State) (p n : Nat) : (s.raise p n).smp = s.smp := (congrArg State.smp (State.raise_eq s p n)).trans rfl
@[simp] theorem State.raise_boot (s : State) (p n : Nat) : (s.raise p n).boot = s.boot := (congrArg State.boot (State.raise_eq s p n)).trans rfl
@[simp] theorem State.raise_cph (s : State) (p n : Nat) : (s.raise p n).cph = s.cph := (congrArg State.cph (State.raise_eq s p n)).trans rfl
@[simp] theorem State.raise_ccx (s : State) (p n : Nat) : (s.raise p n).ccx = s.ccx := (congrArg State.ccx (State.raise_eq s p n)).trans rfl
@[simp] theorem State.raise_rails (s : State) (p n : Nat) : (s.raise p n).rails = s.rails := (congrArg State.rails (State.raise_eq s p n)).trans rfl
@[simp] theorem State.raise_thm (s : State) (p n : Nat) : (s.raise p n).thm = s.thm := (congrArg State.thm (State.raise_eq s p n)).trans rfl
@[simp] theorem State.raise_integ (s : State) (p n : Nat) : (s.raise p n).integ = s.integ := (congrArg State.integ (State.raise_eq s p n)).trans rfl
@[simp] theorem State.raise_pending (s : State) (p n : Nat) : (s.raise p n).pending = s.pending := (congrArg State.pending (State.raise_eq s p n)).trans rfl

theorem State.raiseArg_eq (s : State) (p n : Nat) (a : Word64) : s.raiseArg p n a = { s with regs := (s.raiseArg p n a).regs, out := (s.raiseArg p n a).out, evInbox := (s.raiseArg p n a).evInbox, msixPend := (s.raiseArg p n a).msixPend } := by
  exact State.raiseWith_eq s p n false _
@[simp] theorem State.raiseArg_mono (s : State) (p n : Nat) (a : Word64) : (s.raiseArg p n a).mono = s.mono := (congrArg State.mono (State.raiseArg_eq s p n a)).trans rfl
@[simp] theorem State.raiseArg_tbOff (s : State) (p n : Nat) (a : Word64) : (s.raiseArg p n a).tbOff = s.tbOff := (congrArg State.tbOff (State.raiseArg_eq s p n a)).trans rfl
@[simp] theorem State.raiseArg_twinB (s : State) (p n : Nat) (a : Word64) : (s.raiseArg p n a).twinB = s.twinB := (congrArg State.twinB (State.raiseArg_eq s p n a)).trans rfl
@[simp] theorem State.raiseArg_freeNext (s : State) (p n : Nat) (a : Word64) : (s.raiseArg p n a).freeNext = s.freeNext := (congrArg State.freeNext (State.raiseArg_eq s p n a)).trans rfl
@[simp] theorem State.raiseArg_msixMask (s : State) (p n : Nat) (a : Word64) : (s.raiseArg p n a).msixMask = s.msixMask := (congrArg State.msixMask (State.raiseArg_eq s p n a)).trans rfl
@[simp] theorem State.raiseArg_msixTab (s : State) (p n : Nat) (a : Word64) : (s.raiseArg p n a).msixTab = s.msixTab := (congrArg State.msixTab (State.raiseArg_eq s p n a)).trans rfl
@[simp] theorem State.raiseArg_pcieUp (s : State) (p n : Nat) (a : Word64) : (s.raiseArg p n a).pcieUp = s.pcieUp := (congrArg State.pcieUp (State.raiseArg_eq s p n a)).trans rfl
@[simp] theorem State.raiseArg_bellCount (s : State) (p n : Nat) (a : Word64) : (s.raiseArg p n a).bellCount = s.bellCount := (congrArg State.bellCount (State.raiseArg_eq s p n a)).trans rfl
@[simp] theorem State.raiseArg_rqs (s : State) (p n : Nat) (a : Word64) : (s.raiseArg p n a).rqs = s.rqs := (congrArg State.rqs (State.raiseArg_eq s p n a)).trans rfl
@[simp] theorem State.raiseArg_hearth (s : State) (p n : Nat) (a : Word64) : (s.raiseArg p n a).hearth = s.hearth := (congrArg State.hearth (State.raiseArg_eq s p n a)).trans rfl
@[simp] theorem State.raiseArg_banks (s : State) (p n : Nat) (a : Word64) : (s.raiseArg p n a).banks = s.banks := (congrArg State.banks (State.raiseArg_eq s p n a)).trans rfl
@[simp] theorem State.raiseArg_cache (s : State) (p n : Nat) (a : Word64) : (s.raiseArg p n a).cache = s.cache := (congrArg State.cache (State.raiseArg_eq s p n a)).trans rfl
@[simp] theorem State.raiseArg_ports (s : State) (p n : Nat) (a : Word64) : (s.raiseArg p n a).ports = s.ports := (congrArg State.ports (State.raiseArg_eq s p n a)).trans rfl
@[simp] theorem State.raiseArg_addrs (s : State) (p n : Nat) (a : Word64) : (s.raiseArg p n a).addrs = s.addrs := (congrArg State.addrs (State.raiseArg_eq s p n a)).trans rfl
@[simp] theorem State.raiseArg_qps (s : State) (p n : Nat) (a : Word64) : (s.raiseArg p n a).qps = s.qps := (congrArg State.qps (State.raiseArg_eq s p n a)).trans rfl
@[simp] theorem State.raiseArg_hosts (s : State) (p n : Nat) (a : Word64) : (s.raiseArg p n a).hosts = s.hosts := (congrArg State.hosts (State.raiseArg_eq s p n a)).trans rfl
@[simp] theorem State.raiseArg_dp (s : State) (p n : Nat) (a : Word64) : (s.raiseArg p n a).dp = s.dp := (congrArg State.dp (State.raiseArg_eq s p n a)).trans rfl
@[simp] theorem State.raiseArg_prot (s : State) (p n : Nat) (a : Word64) : (s.raiseArg p n a).prot = s.prot := (congrArg State.prot (State.raiseArg_eq s p n a)).trans rfl
@[simp] theorem State.raiseArg_chains (s : State) (p n : Nat) (a : Word64) : (s.raiseArg p n a).chains = s.chains := (congrArg State.chains (State.raiseArg_eq s p n a)).trans rfl
@[simp] theorem State.raiseArg_tier (s : State) (p n : Nat) (a : Word64) : (s.raiseArg p n a).tier = s.tier := (congrArg State.tier (State.raiseArg_eq s p n a)).trans rfl
@[simp] theorem State.raiseArg_media (s : State) (p n : Nat) (a : Word64) : (s.raiseArg p n a).media = s.media := (congrArg State.media (State.raiseArg_eq s p n a)).trans rfl
@[simp] theorem State.raiseArg_dur (s : State) (p n : Nat) (a : Word64) : (s.raiseArg p n a).dur = s.dur := (congrArg State.dur (State.raiseArg_eq s p n a)).trans rfl
@[simp] theorem State.raiseArg_pair (s : State) (p n : Nat) (a : Word64) : (s.raiseArg p n a).pair = s.pair := (congrArg State.pair (State.raiseArg_eq s p n a)).trans rfl
@[simp] theorem State.raiseArg_link (s : State) (p n : Nat) (a : Word64) : (s.raiseArg p n a).link = s.link := (congrArg State.link (State.raiseArg_eq s p n a)).trans rfl
@[simp] theorem State.raiseArg_pwr (s : State) (p n : Nat) (a : Word64) : (s.raiseArg p n a).pwr = s.pwr := (congrArg State.pwr (State.raiseArg_eq s p n a)).trans rfl
@[simp] theorem State.raiseArg_rec_ (s : State) (p n : Nat) (a : Word64) : (s.raiseArg p n a).rec_ = s.rec_ := (congrArg State.rec_ (State.raiseArg_eq s p n a)).trans rfl
@[simp] theorem State.raiseArg_pmu (s : State) (p n : Nat) (a : Word64) : (s.raiseArg p n a).pmu = s.pmu := (congrArg State.pmu (State.raiseArg_eq s p n a)).trans rfl
@[simp] theorem State.raiseArg_smp (s : State) (p n : Nat) (a : Word64) : (s.raiseArg p n a).smp = s.smp := (congrArg State.smp (State.raiseArg_eq s p n a)).trans rfl
@[simp] theorem State.raiseArg_boot (s : State) (p n : Nat) (a : Word64) : (s.raiseArg p n a).boot = s.boot := (congrArg State.boot (State.raiseArg_eq s p n a)).trans rfl
@[simp] theorem State.raiseArg_cph (s : State) (p n : Nat) (a : Word64) : (s.raiseArg p n a).cph = s.cph := (congrArg State.cph (State.raiseArg_eq s p n a)).trans rfl
@[simp] theorem State.raiseArg_ccx (s : State) (p n : Nat) (a : Word64) : (s.raiseArg p n a).ccx = s.ccx := (congrArg State.ccx (State.raiseArg_eq s p n a)).trans rfl
@[simp] theorem State.raiseArg_rails (s : State) (p n : Nat) (a : Word64) : (s.raiseArg p n a).rails = s.rails := (congrArg State.rails (State.raiseArg_eq s p n a)).trans rfl
@[simp] theorem State.raiseArg_thm (s : State) (p n : Nat) (a : Word64) : (s.raiseArg p n a).thm = s.thm := (congrArg State.thm (State.raiseArg_eq s p n a)).trans rfl
@[simp] theorem State.raiseArg_integ (s : State) (p n : Nat) (a : Word64) : (s.raiseArg p n a).integ = s.integ := (congrArg State.integ (State.raiseArg_eq s p n a)).trans rfl
@[simp] theorem State.raiseArg_pending (s : State) (p n : Nat) (a : Word64) : (s.raiseArg p n a).pending = s.pending := (congrArg State.pending (State.raiseArg_eq s p n a)).trans rfl

theorem State.raiseIf_eq (s : State) (c : Bool) (p n : Nat) : s.raiseIf c p n = { s with regs := (s.raiseIf c p n).regs, out := (s.raiseIf c p n).out, evInbox := (s.raiseIf c p n).evInbox, msixPend := (s.raiseIf c p n).msixPend } := by
  unfold State.raiseIf; split
  · exact State.raise_eq s p n
  · rfl
@[simp] theorem State.raiseIf_mono (s : State) (c : Bool) (p n : Nat) : (s.raiseIf c p n).mono = s.mono := (congrArg State.mono (State.raiseIf_eq s c p n)).trans rfl
@[simp] theorem State.raiseIf_tbOff (s : State) (c : Bool) (p n : Nat) : (s.raiseIf c p n).tbOff = s.tbOff := (congrArg State.tbOff (State.raiseIf_eq s c p n)).trans rfl
@[simp] theorem State.raiseIf_twinB (s : State) (c : Bool) (p n : Nat) : (s.raiseIf c p n).twinB = s.twinB := (congrArg State.twinB (State.raiseIf_eq s c p n)).trans rfl
@[simp] theorem State.raiseIf_freeNext (s : State) (c : Bool) (p n : Nat) : (s.raiseIf c p n).freeNext = s.freeNext := (congrArg State.freeNext (State.raiseIf_eq s c p n)).trans rfl
@[simp] theorem State.raiseIf_msixMask (s : State) (c : Bool) (p n : Nat) : (s.raiseIf c p n).msixMask = s.msixMask := (congrArg State.msixMask (State.raiseIf_eq s c p n)).trans rfl
@[simp] theorem State.raiseIf_msixTab (s : State) (c : Bool) (p n : Nat) : (s.raiseIf c p n).msixTab = s.msixTab := (congrArg State.msixTab (State.raiseIf_eq s c p n)).trans rfl
@[simp] theorem State.raiseIf_pcieUp (s : State) (c : Bool) (p n : Nat) : (s.raiseIf c p n).pcieUp = s.pcieUp := (congrArg State.pcieUp (State.raiseIf_eq s c p n)).trans rfl
@[simp] theorem State.raiseIf_bellCount (s : State) (c : Bool) (p n : Nat) : (s.raiseIf c p n).bellCount = s.bellCount := (congrArg State.bellCount (State.raiseIf_eq s c p n)).trans rfl
@[simp] theorem State.raiseIf_rqs (s : State) (c : Bool) (p n : Nat) : (s.raiseIf c p n).rqs = s.rqs := (congrArg State.rqs (State.raiseIf_eq s c p n)).trans rfl
@[simp] theorem State.raiseIf_hearth (s : State) (c : Bool) (p n : Nat) : (s.raiseIf c p n).hearth = s.hearth := (congrArg State.hearth (State.raiseIf_eq s c p n)).trans rfl
@[simp] theorem State.raiseIf_banks (s : State) (c : Bool) (p n : Nat) : (s.raiseIf c p n).banks = s.banks := (congrArg State.banks (State.raiseIf_eq s c p n)).trans rfl
@[simp] theorem State.raiseIf_cache (s : State) (c : Bool) (p n : Nat) : (s.raiseIf c p n).cache = s.cache := (congrArg State.cache (State.raiseIf_eq s c p n)).trans rfl
@[simp] theorem State.raiseIf_ports (s : State) (c : Bool) (p n : Nat) : (s.raiseIf c p n).ports = s.ports := (congrArg State.ports (State.raiseIf_eq s c p n)).trans rfl
@[simp] theorem State.raiseIf_addrs (s : State) (c : Bool) (p n : Nat) : (s.raiseIf c p n).addrs = s.addrs := (congrArg State.addrs (State.raiseIf_eq s c p n)).trans rfl
@[simp] theorem State.raiseIf_qps (s : State) (c : Bool) (p n : Nat) : (s.raiseIf c p n).qps = s.qps := (congrArg State.qps (State.raiseIf_eq s c p n)).trans rfl
@[simp] theorem State.raiseIf_hosts (s : State) (c : Bool) (p n : Nat) : (s.raiseIf c p n).hosts = s.hosts := (congrArg State.hosts (State.raiseIf_eq s c p n)).trans rfl
@[simp] theorem State.raiseIf_dp (s : State) (c : Bool) (p n : Nat) : (s.raiseIf c p n).dp = s.dp := (congrArg State.dp (State.raiseIf_eq s c p n)).trans rfl
@[simp] theorem State.raiseIf_prot (s : State) (c : Bool) (p n : Nat) : (s.raiseIf c p n).prot = s.prot := (congrArg State.prot (State.raiseIf_eq s c p n)).trans rfl
@[simp] theorem State.raiseIf_chains (s : State) (c : Bool) (p n : Nat) : (s.raiseIf c p n).chains = s.chains := (congrArg State.chains (State.raiseIf_eq s c p n)).trans rfl
@[simp] theorem State.raiseIf_tier (s : State) (c : Bool) (p n : Nat) : (s.raiseIf c p n).tier = s.tier := (congrArg State.tier (State.raiseIf_eq s c p n)).trans rfl
@[simp] theorem State.raiseIf_media (s : State) (c : Bool) (p n : Nat) : (s.raiseIf c p n).media = s.media := (congrArg State.media (State.raiseIf_eq s c p n)).trans rfl
@[simp] theorem State.raiseIf_dur (s : State) (c : Bool) (p n : Nat) : (s.raiseIf c p n).dur = s.dur := (congrArg State.dur (State.raiseIf_eq s c p n)).trans rfl
@[simp] theorem State.raiseIf_pair (s : State) (c : Bool) (p n : Nat) : (s.raiseIf c p n).pair = s.pair := (congrArg State.pair (State.raiseIf_eq s c p n)).trans rfl
@[simp] theorem State.raiseIf_link (s : State) (c : Bool) (p n : Nat) : (s.raiseIf c p n).link = s.link := (congrArg State.link (State.raiseIf_eq s c p n)).trans rfl
@[simp] theorem State.raiseIf_pwr (s : State) (c : Bool) (p n : Nat) : (s.raiseIf c p n).pwr = s.pwr := (congrArg State.pwr (State.raiseIf_eq s c p n)).trans rfl
@[simp] theorem State.raiseIf_rec_ (s : State) (c : Bool) (p n : Nat) : (s.raiseIf c p n).rec_ = s.rec_ := (congrArg State.rec_ (State.raiseIf_eq s c p n)).trans rfl
@[simp] theorem State.raiseIf_pmu (s : State) (c : Bool) (p n : Nat) : (s.raiseIf c p n).pmu = s.pmu := (congrArg State.pmu (State.raiseIf_eq s c p n)).trans rfl
@[simp] theorem State.raiseIf_smp (s : State) (c : Bool) (p n : Nat) : (s.raiseIf c p n).smp = s.smp := (congrArg State.smp (State.raiseIf_eq s c p n)).trans rfl
@[simp] theorem State.raiseIf_boot (s : State) (c : Bool) (p n : Nat) : (s.raiseIf c p n).boot = s.boot := (congrArg State.boot (State.raiseIf_eq s c p n)).trans rfl
@[simp] theorem State.raiseIf_cph (s : State) (c : Bool) (p n : Nat) : (s.raiseIf c p n).cph = s.cph := (congrArg State.cph (State.raiseIf_eq s c p n)).trans rfl
@[simp] theorem State.raiseIf_ccx (s : State) (c : Bool) (p n : Nat) : (s.raiseIf c p n).ccx = s.ccx := (congrArg State.ccx (State.raiseIf_eq s c p n)).trans rfl
@[simp] theorem State.raiseIf_rails (s : State) (c : Bool) (p n : Nat) : (s.raiseIf c p n).rails = s.rails := (congrArg State.rails (State.raiseIf_eq s c p n)).trans rfl
@[simp] theorem State.raiseIf_thm (s : State) (c : Bool) (p n : Nat) : (s.raiseIf c p n).thm = s.thm := (congrArg State.thm (State.raiseIf_eq s c p n)).trans rfl
@[simp] theorem State.raiseIf_integ (s : State) (c : Bool) (p n : Nat) : (s.raiseIf c p n).integ = s.integ := (congrArg State.integ (State.raiseIf_eq s c p n)).trans rfl
@[simp] theorem State.raiseIf_pending (s : State) (c : Bool) (p n : Nat) : (s.raiseIf c p n).pending = s.pending := (congrArg State.pending (State.raiseIf_eq s c p n)).trans rfl

theorem State.irqAfterWrite_eq (s : State) (p : Nat) : s.irqAfterWrite p = { s with out := (s.irqAfterWrite p).out, msixPend := (s.irqAfterWrite p).msixPend } := by
  unfold State.irqAfterWrite; split
  · exact State.msix_eq s _
  · rfl
@[simp] theorem State.irqAfterWrite_mono (s : State) (p : Nat) : (s.irqAfterWrite p).mono = s.mono := (congrArg State.mono (State.irqAfterWrite_eq s p)).trans rfl
@[simp] theorem State.irqAfterWrite_tbOff (s : State) (p : Nat) : (s.irqAfterWrite p).tbOff = s.tbOff := (congrArg State.tbOff (State.irqAfterWrite_eq s p)).trans rfl
@[simp] theorem State.irqAfterWrite_twinB (s : State) (p : Nat) : (s.irqAfterWrite p).twinB = s.twinB := (congrArg State.twinB (State.irqAfterWrite_eq s p)).trans rfl
@[simp] theorem State.irqAfterWrite_regs (s : State) (p : Nat) : (s.irqAfterWrite p).regs = s.regs := (congrArg State.regs (State.irqAfterWrite_eq s p)).trans rfl
@[simp] theorem State.irqAfterWrite_evInbox (s : State) (p : Nat) : (s.irqAfterWrite p).evInbox = s.evInbox := (congrArg State.evInbox (State.irqAfterWrite_eq s p)).trans rfl
@[simp] theorem State.irqAfterWrite_freeNext (s : State) (p : Nat) : (s.irqAfterWrite p).freeNext = s.freeNext := (congrArg State.freeNext (State.irqAfterWrite_eq s p)).trans rfl
@[simp] theorem State.irqAfterWrite_msixMask (s : State) (p : Nat) : (s.irqAfterWrite p).msixMask = s.msixMask := (congrArg State.msixMask (State.irqAfterWrite_eq s p)).trans rfl
@[simp] theorem State.irqAfterWrite_msixTab (s : State) (p : Nat) : (s.irqAfterWrite p).msixTab = s.msixTab := (congrArg State.msixTab (State.irqAfterWrite_eq s p)).trans rfl
@[simp] theorem State.irqAfterWrite_pcieUp (s : State) (p : Nat) : (s.irqAfterWrite p).pcieUp = s.pcieUp := (congrArg State.pcieUp (State.irqAfterWrite_eq s p)).trans rfl
@[simp] theorem State.irqAfterWrite_bellCount (s : State) (p : Nat) : (s.irqAfterWrite p).bellCount = s.bellCount := (congrArg State.bellCount (State.irqAfterWrite_eq s p)).trans rfl
@[simp] theorem State.irqAfterWrite_rqs (s : State) (p : Nat) : (s.irqAfterWrite p).rqs = s.rqs := (congrArg State.rqs (State.irqAfterWrite_eq s p)).trans rfl
@[simp] theorem State.irqAfterWrite_hearth (s : State) (p : Nat) : (s.irqAfterWrite p).hearth = s.hearth := (congrArg State.hearth (State.irqAfterWrite_eq s p)).trans rfl
@[simp] theorem State.irqAfterWrite_banks (s : State) (p : Nat) : (s.irqAfterWrite p).banks = s.banks := (congrArg State.banks (State.irqAfterWrite_eq s p)).trans rfl
@[simp] theorem State.irqAfterWrite_cache (s : State) (p : Nat) : (s.irqAfterWrite p).cache = s.cache := (congrArg State.cache (State.irqAfterWrite_eq s p)).trans rfl
@[simp] theorem State.irqAfterWrite_ports (s : State) (p : Nat) : (s.irqAfterWrite p).ports = s.ports := (congrArg State.ports (State.irqAfterWrite_eq s p)).trans rfl
@[simp] theorem State.irqAfterWrite_addrs (s : State) (p : Nat) : (s.irqAfterWrite p).addrs = s.addrs := (congrArg State.addrs (State.irqAfterWrite_eq s p)).trans rfl
@[simp] theorem State.irqAfterWrite_qps (s : State) (p : Nat) : (s.irqAfterWrite p).qps = s.qps := (congrArg State.qps (State.irqAfterWrite_eq s p)).trans rfl
@[simp] theorem State.irqAfterWrite_hosts (s : State) (p : Nat) : (s.irqAfterWrite p).hosts = s.hosts := (congrArg State.hosts (State.irqAfterWrite_eq s p)).trans rfl
@[simp] theorem State.irqAfterWrite_dp (s : State) (p : Nat) : (s.irqAfterWrite p).dp = s.dp := (congrArg State.dp (State.irqAfterWrite_eq s p)).trans rfl
@[simp] theorem State.irqAfterWrite_prot (s : State) (p : Nat) : (s.irqAfterWrite p).prot = s.prot := (congrArg State.prot (State.irqAfterWrite_eq s p)).trans rfl
@[simp] theorem State.irqAfterWrite_chains (s : State) (p : Nat) : (s.irqAfterWrite p).chains = s.chains := (congrArg State.chains (State.irqAfterWrite_eq s p)).trans rfl
@[simp] theorem State.irqAfterWrite_tier (s : State) (p : Nat) : (s.irqAfterWrite p).tier = s.tier := (congrArg State.tier (State.irqAfterWrite_eq s p)).trans rfl
@[simp] theorem State.irqAfterWrite_media (s : State) (p : Nat) : (s.irqAfterWrite p).media = s.media := (congrArg State.media (State.irqAfterWrite_eq s p)).trans rfl
@[simp] theorem State.irqAfterWrite_dur (s : State) (p : Nat) : (s.irqAfterWrite p).dur = s.dur := (congrArg State.dur (State.irqAfterWrite_eq s p)).trans rfl
@[simp] theorem State.irqAfterWrite_pair (s : State) (p : Nat) : (s.irqAfterWrite p).pair = s.pair := (congrArg State.pair (State.irqAfterWrite_eq s p)).trans rfl
@[simp] theorem State.irqAfterWrite_link (s : State) (p : Nat) : (s.irqAfterWrite p).link = s.link := (congrArg State.link (State.irqAfterWrite_eq s p)).trans rfl
@[simp] theorem State.irqAfterWrite_pwr (s : State) (p : Nat) : (s.irqAfterWrite p).pwr = s.pwr := (congrArg State.pwr (State.irqAfterWrite_eq s p)).trans rfl
@[simp] theorem State.irqAfterWrite_rec_ (s : State) (p : Nat) : (s.irqAfterWrite p).rec_ = s.rec_ := (congrArg State.rec_ (State.irqAfterWrite_eq s p)).trans rfl
@[simp] theorem State.irqAfterWrite_pmu (s : State) (p : Nat) : (s.irqAfterWrite p).pmu = s.pmu := (congrArg State.pmu (State.irqAfterWrite_eq s p)).trans rfl
@[simp] theorem State.irqAfterWrite_smp (s : State) (p : Nat) : (s.irqAfterWrite p).smp = s.smp := (congrArg State.smp (State.irqAfterWrite_eq s p)).trans rfl
@[simp] theorem State.irqAfterWrite_boot (s : State) (p : Nat) : (s.irqAfterWrite p).boot = s.boot := (congrArg State.boot (State.irqAfterWrite_eq s p)).trans rfl
@[simp] theorem State.irqAfterWrite_cph (s : State) (p : Nat) : (s.irqAfterWrite p).cph = s.cph := (congrArg State.cph (State.irqAfterWrite_eq s p)).trans rfl
@[simp] theorem State.irqAfterWrite_ccx (s : State) (p : Nat) : (s.irqAfterWrite p).ccx = s.ccx := (congrArg State.ccx (State.irqAfterWrite_eq s p)).trans rfl
@[simp] theorem State.irqAfterWrite_rails (s : State) (p : Nat) : (s.irqAfterWrite p).rails = s.rails := (congrArg State.rails (State.irqAfterWrite_eq s p)).trans rfl
@[simp] theorem State.irqAfterWrite_thm (s : State) (p : Nat) : (s.irqAfterWrite p).thm = s.thm := (congrArg State.thm (State.irqAfterWrite_eq s p)).trans rfl
@[simp] theorem State.irqAfterWrite_integ (s : State) (p : Nat) : (s.irqAfterWrite p).integ = s.integ := (congrArg State.integ (State.irqAfterWrite_eq s p)).trans rfl
@[simp] theorem State.irqAfterWrite_pending (s : State) (p : Nat) : (s.irqAfterWrite p).pending = s.pending := (congrArg State.pending (State.irqAfterWrite_eq s p)).trans rfl

theorem State.accessErr_eq (s : State) (c : Nat) (w : Bool) (a : Nat) : s.accessErr c w a = { s with regs := (s.accessErr c w a).regs, out := (s.accessErr c w a).out, evInbox := (s.accessErr c w a).evInbox, msixPend := (s.accessErr c w a).msixPend } := by
  generalize e : s.accessErr c w a = y
  unfold State.accessErr at e
  dsimp only at e
  split at e
  · subst e; rfl
  · rw [State.raiseArg_eq] at e; subst e; rfl
@[simp] theorem State.accessErr_mono (s : State) (c : Nat) (w : Bool) (a : Nat) : (s.accessErr c w a).mono = s.mono := (congrArg State.mono (State.accessErr_eq s c w a)).trans rfl
@[simp] theorem State.accessErr_tbOff (s : State) (c : Nat) (w : Bool) (a : Nat) : (s.accessErr c w a).tbOff = s.tbOff := (congrArg State.tbOff (State.accessErr_eq s c w a)).trans rfl
@[simp] theorem State.accessErr_twinB (s : State) (c : Nat) (w : Bool) (a : Nat) : (s.accessErr c w a).twinB = s.twinB := (congrArg State.twinB (State.accessErr_eq s c w a)).trans rfl
@[simp] theorem State.accessErr_freeNext (s : State) (c : Nat) (w : Bool) (a : Nat) : (s.accessErr c w a).freeNext = s.freeNext := (congrArg State.freeNext (State.accessErr_eq s c w a)).trans rfl
@[simp] theorem State.accessErr_msixMask (s : State) (c : Nat) (w : Bool) (a : Nat) : (s.accessErr c w a).msixMask = s.msixMask := (congrArg State.msixMask (State.accessErr_eq s c w a)).trans rfl
@[simp] theorem State.accessErr_msixTab (s : State) (c : Nat) (w : Bool) (a : Nat) : (s.accessErr c w a).msixTab = s.msixTab := (congrArg State.msixTab (State.accessErr_eq s c w a)).trans rfl
@[simp] theorem State.accessErr_pcieUp (s : State) (c : Nat) (w : Bool) (a : Nat) : (s.accessErr c w a).pcieUp = s.pcieUp := (congrArg State.pcieUp (State.accessErr_eq s c w a)).trans rfl
@[simp] theorem State.accessErr_bellCount (s : State) (c : Nat) (w : Bool) (a : Nat) : (s.accessErr c w a).bellCount = s.bellCount := (congrArg State.bellCount (State.accessErr_eq s c w a)).trans rfl
@[simp] theorem State.accessErr_rqs (s : State) (c : Nat) (w : Bool) (a : Nat) : (s.accessErr c w a).rqs = s.rqs := (congrArg State.rqs (State.accessErr_eq s c w a)).trans rfl
@[simp] theorem State.accessErr_hearth (s : State) (c : Nat) (w : Bool) (a : Nat) : (s.accessErr c w a).hearth = s.hearth := (congrArg State.hearth (State.accessErr_eq s c w a)).trans rfl
@[simp] theorem State.accessErr_banks (s : State) (c : Nat) (w : Bool) (a : Nat) : (s.accessErr c w a).banks = s.banks := (congrArg State.banks (State.accessErr_eq s c w a)).trans rfl
@[simp] theorem State.accessErr_cache (s : State) (c : Nat) (w : Bool) (a : Nat) : (s.accessErr c w a).cache = s.cache := (congrArg State.cache (State.accessErr_eq s c w a)).trans rfl
@[simp] theorem State.accessErr_ports (s : State) (c : Nat) (w : Bool) (a : Nat) : (s.accessErr c w a).ports = s.ports := (congrArg State.ports (State.accessErr_eq s c w a)).trans rfl
@[simp] theorem State.accessErr_addrs (s : State) (c : Nat) (w : Bool) (a : Nat) : (s.accessErr c w a).addrs = s.addrs := (congrArg State.addrs (State.accessErr_eq s c w a)).trans rfl
@[simp] theorem State.accessErr_qps (s : State) (c : Nat) (w : Bool) (a : Nat) : (s.accessErr c w a).qps = s.qps := (congrArg State.qps (State.accessErr_eq s c w a)).trans rfl
@[simp] theorem State.accessErr_hosts (s : State) (c : Nat) (w : Bool) (a : Nat) : (s.accessErr c w a).hosts = s.hosts := (congrArg State.hosts (State.accessErr_eq s c w a)).trans rfl
@[simp] theorem State.accessErr_dp (s : State) (c : Nat) (w : Bool) (a : Nat) : (s.accessErr c w a).dp = s.dp := (congrArg State.dp (State.accessErr_eq s c w a)).trans rfl
@[simp] theorem State.accessErr_prot (s : State) (c : Nat) (w : Bool) (a : Nat) : (s.accessErr c w a).prot = s.prot := (congrArg State.prot (State.accessErr_eq s c w a)).trans rfl
@[simp] theorem State.accessErr_chains (s : State) (c : Nat) (w : Bool) (a : Nat) : (s.accessErr c w a).chains = s.chains := (congrArg State.chains (State.accessErr_eq s c w a)).trans rfl
@[simp] theorem State.accessErr_tier (s : State) (c : Nat) (w : Bool) (a : Nat) : (s.accessErr c w a).tier = s.tier := (congrArg State.tier (State.accessErr_eq s c w a)).trans rfl
@[simp] theorem State.accessErr_media (s : State) (c : Nat) (w : Bool) (a : Nat) : (s.accessErr c w a).media = s.media := (congrArg State.media (State.accessErr_eq s c w a)).trans rfl
@[simp] theorem State.accessErr_dur (s : State) (c : Nat) (w : Bool) (a : Nat) : (s.accessErr c w a).dur = s.dur := (congrArg State.dur (State.accessErr_eq s c w a)).trans rfl
@[simp] theorem State.accessErr_pair (s : State) (c : Nat) (w : Bool) (a : Nat) : (s.accessErr c w a).pair = s.pair := (congrArg State.pair (State.accessErr_eq s c w a)).trans rfl
@[simp] theorem State.accessErr_link (s : State) (c : Nat) (w : Bool) (a : Nat) : (s.accessErr c w a).link = s.link := (congrArg State.link (State.accessErr_eq s c w a)).trans rfl
@[simp] theorem State.accessErr_pwr (s : State) (c : Nat) (w : Bool) (a : Nat) : (s.accessErr c w a).pwr = s.pwr := (congrArg State.pwr (State.accessErr_eq s c w a)).trans rfl
@[simp] theorem State.accessErr_rec_ (s : State) (c : Nat) (w : Bool) (a : Nat) : (s.accessErr c w a).rec_ = s.rec_ := (congrArg State.rec_ (State.accessErr_eq s c w a)).trans rfl
@[simp] theorem State.accessErr_pmu (s : State) (c : Nat) (w : Bool) (a : Nat) : (s.accessErr c w a).pmu = s.pmu := (congrArg State.pmu (State.accessErr_eq s c w a)).trans rfl
@[simp] theorem State.accessErr_smp (s : State) (c : Nat) (w : Bool) (a : Nat) : (s.accessErr c w a).smp = s.smp := (congrArg State.smp (State.accessErr_eq s c w a)).trans rfl
@[simp] theorem State.accessErr_boot (s : State) (c : Nat) (w : Bool) (a : Nat) : (s.accessErr c w a).boot = s.boot := (congrArg State.boot (State.accessErr_eq s c w a)).trans rfl
@[simp] theorem State.accessErr_cph (s : State) (c : Nat) (w : Bool) (a : Nat) : (s.accessErr c w a).cph = s.cph := (congrArg State.cph (State.accessErr_eq s c w a)).trans rfl
@[simp] theorem State.accessErr_ccx (s : State) (c : Nat) (w : Bool) (a : Nat) : (s.accessErr c w a).ccx = s.ccx := (congrArg State.ccx (State.accessErr_eq s c w a)).trans rfl
@[simp] theorem State.accessErr_rails (s : State) (c : Nat) (w : Bool) (a : Nat) : (s.accessErr c w a).rails = s.rails := (congrArg State.rails (State.accessErr_eq s c w a)).trans rfl
@[simp] theorem State.accessErr_thm (s : State) (c : Nat) (w : Bool) (a : Nat) : (s.accessErr c w a).thm = s.thm := (congrArg State.thm (State.accessErr_eq s c w a)).trans rfl
@[simp] theorem State.accessErr_integ (s : State) (c : Nat) (w : Bool) (a : Nat) : (s.accessErr c w a).integ = s.integ := (congrArg State.integ (State.accessErr_eq s c w a)).trans rfl
@[simp] theorem State.accessErr_pending (s : State) (c : Nat) (w : Bool) (a : Nat) : (s.accessErr c w a).pending = s.pending := (congrArg State.pending (State.accessErr_eq s c w a)).trans rfl

@[simp] theorem State.advanceBy_tbOff (s : State) (d : Nat) : (s.advanceBy d).tbOff = s.tbOff := by simp only [State.advanceBy]
@[simp] theorem State.advanceBy_twinB (s : State) (d : Nat) : (s.advanceBy d).twinB = s.twinB := by simp only [State.advanceBy]
@[simp] theorem State.advanceBy_regs (s : State) (d : Nat) : (s.advanceBy d).regs = s.regs := by simp only [State.advanceBy]
@[simp] theorem State.advanceBy_out (s : State) (d : Nat) : (s.advanceBy d).out = s.out := by simp only [State.advanceBy]
@[simp] theorem State.advanceBy_evInbox (s : State) (d : Nat) : (s.advanceBy d).evInbox = s.evInbox := by simp only [State.advanceBy]
@[simp] theorem State.advanceBy_freeNext (s : State) (d : Nat) : (s.advanceBy d).freeNext = s.freeNext := by simp only [State.advanceBy]
@[simp] theorem State.advanceBy_msixMask (s : State) (d : Nat) : (s.advanceBy d).msixMask = s.msixMask := by simp only [State.advanceBy]
@[simp] theorem State.advanceBy_msixPend (s : State) (d : Nat) : (s.advanceBy d).msixPend = s.msixPend := by simp only [State.advanceBy]
@[simp] theorem State.advanceBy_msixTab (s : State) (d : Nat) : (s.advanceBy d).msixTab = s.msixTab := by simp only [State.advanceBy]
@[simp] theorem State.advanceBy_pcieUp (s : State) (d : Nat) : (s.advanceBy d).pcieUp = s.pcieUp := by simp only [State.advanceBy]
@[simp] theorem State.advanceBy_bellCount (s : State) (d : Nat) : (s.advanceBy d).bellCount = s.bellCount := by simp only [State.advanceBy]
@[simp] theorem State.advanceBy_rqs (s : State) (d : Nat) : (s.advanceBy d).rqs = s.rqs := by simp only [State.advanceBy]
@[simp] theorem State.advanceBy_hearth (s : State) (d : Nat) : (s.advanceBy d).hearth = s.hearth := by simp only [State.advanceBy]
@[simp] theorem State.advanceBy_banks (s : State) (d : Nat) : (s.advanceBy d).banks = s.banks := by simp only [State.advanceBy]
@[simp] theorem State.advanceBy_cache (s : State) (d : Nat) : (s.advanceBy d).cache = s.cache := by simp only [State.advanceBy]
@[simp] theorem State.advanceBy_ports (s : State) (d : Nat) : (s.advanceBy d).ports = s.ports := by simp only [State.advanceBy]
@[simp] theorem State.advanceBy_addrs (s : State) (d : Nat) : (s.advanceBy d).addrs = s.addrs := by simp only [State.advanceBy]
@[simp] theorem State.advanceBy_qps (s : State) (d : Nat) : (s.advanceBy d).qps = s.qps := by simp only [State.advanceBy]
@[simp] theorem State.advanceBy_hosts (s : State) (d : Nat) : (s.advanceBy d).hosts = s.hosts := by simp only [State.advanceBy]
@[simp] theorem State.advanceBy_dp (s : State) (d : Nat) : (s.advanceBy d).dp = s.dp := by simp only [State.advanceBy]
@[simp] theorem State.advanceBy_prot (s : State) (d : Nat) : (s.advanceBy d).prot = s.prot := by simp only [State.advanceBy]
@[simp] theorem State.advanceBy_chains (s : State) (d : Nat) : (s.advanceBy d).chains = s.chains := by simp only [State.advanceBy]
@[simp] theorem State.advanceBy_tier (s : State) (d : Nat) : (s.advanceBy d).tier = s.tier := by simp only [State.advanceBy]
@[simp] theorem State.advanceBy_media (s : State) (d : Nat) : (s.advanceBy d).media = s.media := by simp only [State.advanceBy]
@[simp] theorem State.advanceBy_dur (s : State) (d : Nat) : (s.advanceBy d).dur = s.dur := by simp only [State.advanceBy]
@[simp] theorem State.advanceBy_pair (s : State) (d : Nat) : (s.advanceBy d).pair = s.pair := by simp only [State.advanceBy]
@[simp] theorem State.advanceBy_pwr (s : State) (d : Nat) : (s.advanceBy d).pwr = s.pwr := by simp only [State.advanceBy]
@[simp] theorem State.advanceBy_rec_ (s : State) (d : Nat) : (s.advanceBy d).rec_ = s.rec_ := by simp only [State.advanceBy]
@[simp] theorem State.advanceBy_pmu (s : State) (d : Nat) : (s.advanceBy d).pmu = s.pmu := by simp only [State.advanceBy]
@[simp] theorem State.advanceBy_smp (s : State) (d : Nat) : (s.advanceBy d).smp = s.smp := by simp only [State.advanceBy]
@[simp] theorem State.advanceBy_boot (s : State) (d : Nat) : (s.advanceBy d).boot = s.boot := by simp only [State.advanceBy]
@[simp] theorem State.advanceBy_cph (s : State) (d : Nat) : (s.advanceBy d).cph = s.cph := by simp only [State.advanceBy]
@[simp] theorem State.advanceBy_ccx (s : State) (d : Nat) : (s.advanceBy d).ccx = s.ccx := by simp only [State.advanceBy]
@[simp] theorem State.advanceBy_rails (s : State) (d : Nat) : (s.advanceBy d).rails = s.rails := by simp only [State.advanceBy]
@[simp] theorem State.advanceBy_thm (s : State) (d : Nat) : (s.advanceBy d).thm = s.thm := by simp only [State.advanceBy]
@[simp] theorem State.advanceBy_integ (s : State) (d : Nat) : (s.advanceBy d).integ = s.integ := by simp only [State.advanceBy]
@[simp] theorem State.advanceBy_pending (s : State) (d : Nat) : (s.advanceBy d).pending = s.pending := by simp only [State.advanceBy]

theorem State.upTo_eq (s : State) (t : Nat) : s.upTo t = { s with mono := (s.upTo t).mono, link := (s.upTo t).link } := by
  unfold State.upTo; split <;> rfl
@[simp] theorem State.upTo_tbOff (s : State) (t : Nat) : (s.upTo t).tbOff = s.tbOff := (congrArg State.tbOff (State.upTo_eq s t)).trans rfl
@[simp] theorem State.upTo_twinB (s : State) (t : Nat) : (s.upTo t).twinB = s.twinB := (congrArg State.twinB (State.upTo_eq s t)).trans rfl
@[simp] theorem State.upTo_regs (s : State) (t : Nat) : (s.upTo t).regs = s.regs := (congrArg State.regs (State.upTo_eq s t)).trans rfl
@[simp] theorem State.upTo_out (s : State) (t : Nat) : (s.upTo t).out = s.out := (congrArg State.out (State.upTo_eq s t)).trans rfl
@[simp] theorem State.upTo_evInbox (s : State) (t : Nat) : (s.upTo t).evInbox = s.evInbox := (congrArg State.evInbox (State.upTo_eq s t)).trans rfl
@[simp] theorem State.upTo_freeNext (s : State) (t : Nat) : (s.upTo t).freeNext = s.freeNext := (congrArg State.freeNext (State.upTo_eq s t)).trans rfl
@[simp] theorem State.upTo_msixMask (s : State) (t : Nat) : (s.upTo t).msixMask = s.msixMask := (congrArg State.msixMask (State.upTo_eq s t)).trans rfl
@[simp] theorem State.upTo_msixPend (s : State) (t : Nat) : (s.upTo t).msixPend = s.msixPend := (congrArg State.msixPend (State.upTo_eq s t)).trans rfl
@[simp] theorem State.upTo_msixTab (s : State) (t : Nat) : (s.upTo t).msixTab = s.msixTab := (congrArg State.msixTab (State.upTo_eq s t)).trans rfl
@[simp] theorem State.upTo_pcieUp (s : State) (t : Nat) : (s.upTo t).pcieUp = s.pcieUp := (congrArg State.pcieUp (State.upTo_eq s t)).trans rfl
@[simp] theorem State.upTo_bellCount (s : State) (t : Nat) : (s.upTo t).bellCount = s.bellCount := (congrArg State.bellCount (State.upTo_eq s t)).trans rfl
@[simp] theorem State.upTo_rqs (s : State) (t : Nat) : (s.upTo t).rqs = s.rqs := (congrArg State.rqs (State.upTo_eq s t)).trans rfl
@[simp] theorem State.upTo_hearth (s : State) (t : Nat) : (s.upTo t).hearth = s.hearth := (congrArg State.hearth (State.upTo_eq s t)).trans rfl
@[simp] theorem State.upTo_banks (s : State) (t : Nat) : (s.upTo t).banks = s.banks := (congrArg State.banks (State.upTo_eq s t)).trans rfl
@[simp] theorem State.upTo_cache (s : State) (t : Nat) : (s.upTo t).cache = s.cache := (congrArg State.cache (State.upTo_eq s t)).trans rfl
@[simp] theorem State.upTo_ports (s : State) (t : Nat) : (s.upTo t).ports = s.ports := (congrArg State.ports (State.upTo_eq s t)).trans rfl
@[simp] theorem State.upTo_addrs (s : State) (t : Nat) : (s.upTo t).addrs = s.addrs := (congrArg State.addrs (State.upTo_eq s t)).trans rfl
@[simp] theorem State.upTo_qps (s : State) (t : Nat) : (s.upTo t).qps = s.qps := (congrArg State.qps (State.upTo_eq s t)).trans rfl
@[simp] theorem State.upTo_hosts (s : State) (t : Nat) : (s.upTo t).hosts = s.hosts := (congrArg State.hosts (State.upTo_eq s t)).trans rfl
@[simp] theorem State.upTo_dp (s : State) (t : Nat) : (s.upTo t).dp = s.dp := (congrArg State.dp (State.upTo_eq s t)).trans rfl
@[simp] theorem State.upTo_prot (s : State) (t : Nat) : (s.upTo t).prot = s.prot := (congrArg State.prot (State.upTo_eq s t)).trans rfl
@[simp] theorem State.upTo_chains (s : State) (t : Nat) : (s.upTo t).chains = s.chains := (congrArg State.chains (State.upTo_eq s t)).trans rfl
@[simp] theorem State.upTo_tier (s : State) (t : Nat) : (s.upTo t).tier = s.tier := (congrArg State.tier (State.upTo_eq s t)).trans rfl
@[simp] theorem State.upTo_media (s : State) (t : Nat) : (s.upTo t).media = s.media := (congrArg State.media (State.upTo_eq s t)).trans rfl
@[simp] theorem State.upTo_dur (s : State) (t : Nat) : (s.upTo t).dur = s.dur := (congrArg State.dur (State.upTo_eq s t)).trans rfl
@[simp] theorem State.upTo_pair (s : State) (t : Nat) : (s.upTo t).pair = s.pair := (congrArg State.pair (State.upTo_eq s t)).trans rfl
@[simp] theorem State.upTo_pwr (s : State) (t : Nat) : (s.upTo t).pwr = s.pwr := (congrArg State.pwr (State.upTo_eq s t)).trans rfl
@[simp] theorem State.upTo_rec_ (s : State) (t : Nat) : (s.upTo t).rec_ = s.rec_ := (congrArg State.rec_ (State.upTo_eq s t)).trans rfl
@[simp] theorem State.upTo_pmu (s : State) (t : Nat) : (s.upTo t).pmu = s.pmu := (congrArg State.pmu (State.upTo_eq s t)).trans rfl
@[simp] theorem State.upTo_smp (s : State) (t : Nat) : (s.upTo t).smp = s.smp := (congrArg State.smp (State.upTo_eq s t)).trans rfl
@[simp] theorem State.upTo_boot (s : State) (t : Nat) : (s.upTo t).boot = s.boot := (congrArg State.boot (State.upTo_eq s t)).trans rfl
@[simp] theorem State.upTo_cph (s : State) (t : Nat) : (s.upTo t).cph = s.cph := (congrArg State.cph (State.upTo_eq s t)).trans rfl
@[simp] theorem State.upTo_ccx (s : State) (t : Nat) : (s.upTo t).ccx = s.ccx := (congrArg State.ccx (State.upTo_eq s t)).trans rfl
@[simp] theorem State.upTo_rails (s : State) (t : Nat) : (s.upTo t).rails = s.rails := (congrArg State.rails (State.upTo_eq s t)).trans rfl
@[simp] theorem State.upTo_thm (s : State) (t : Nat) : (s.upTo t).thm = s.thm := (congrArg State.thm (State.upTo_eq s t)).trans rfl
@[simp] theorem State.upTo_integ (s : State) (t : Nat) : (s.upTo t).integ = s.integ := (congrArg State.integ (State.upTo_eq s t)).trans rfl
@[simp] theorem State.upTo_pending (s : State) (t : Nat) : (s.upTo t).pending = s.pending := (congrArg State.pending (State.upTo_eq s t)).trans rfl

@[simp] theorem State.setPort_mono (s : State) (p : Nat) (v : Port) : (s.setPort p v).mono = s.mono := by simp only [State.setPort]
@[simp] theorem State.setPort_tbOff (s : State) (p : Nat) (v : Port) : (s.setPort p v).tbOff = s.tbOff := by simp only [State.setPort]
@[simp] theorem State.setPort_twinB (s : State) (p : Nat) (v : Port) : (s.setPort p v).twinB = s.twinB := by simp only [State.setPort]
@[simp] theorem State.setPort_regs (s : State) (p : Nat) (v : Port) : (s.setPort p v).regs = s.regs := by simp only [State.setPort]
@[simp] theorem State.setPort_out (s : State) (p : Nat) (v : Port) : (s.setPort p v).out = s.out := by simp only [State.setPort]
@[simp] theorem State.setPort_evInbox (s : State) (p : Nat) (v : Port) : (s.setPort p v).evInbox = s.evInbox := by simp only [State.setPort]
@[simp] theorem State.setPort_freeNext (s : State) (p : Nat) (v : Port) : (s.setPort p v).freeNext = s.freeNext := by simp only [State.setPort]
@[simp] theorem State.setPort_msixMask (s : State) (p : Nat) (v : Port) : (s.setPort p v).msixMask = s.msixMask := by simp only [State.setPort]
@[simp] theorem State.setPort_msixPend (s : State) (p : Nat) (v : Port) : (s.setPort p v).msixPend = s.msixPend := by simp only [State.setPort]
@[simp] theorem State.setPort_msixTab (s : State) (p : Nat) (v : Port) : (s.setPort p v).msixTab = s.msixTab := by simp only [State.setPort]
@[simp] theorem State.setPort_pcieUp (s : State) (p : Nat) (v : Port) : (s.setPort p v).pcieUp = s.pcieUp := by simp only [State.setPort]
@[simp] theorem State.setPort_bellCount (s : State) (p : Nat) (v : Port) : (s.setPort p v).bellCount = s.bellCount := by simp only [State.setPort]
@[simp] theorem State.setPort_rqs (s : State) (p : Nat) (v : Port) : (s.setPort p v).rqs = s.rqs := by simp only [State.setPort]
@[simp] theorem State.setPort_hearth (s : State) (p : Nat) (v : Port) : (s.setPort p v).hearth = s.hearth := by simp only [State.setPort]
@[simp] theorem State.setPort_banks (s : State) (p : Nat) (v : Port) : (s.setPort p v).banks = s.banks := by simp only [State.setPort]
@[simp] theorem State.setPort_cache (s : State) (p : Nat) (v : Port) : (s.setPort p v).cache = s.cache := by simp only [State.setPort]
@[simp] theorem State.setPort_addrs (s : State) (p : Nat) (v : Port) : (s.setPort p v).addrs = s.addrs := by simp only [State.setPort]
@[simp] theorem State.setPort_qps (s : State) (p : Nat) (v : Port) : (s.setPort p v).qps = s.qps := by simp only [State.setPort]
@[simp] theorem State.setPort_hosts (s : State) (p : Nat) (v : Port) : (s.setPort p v).hosts = s.hosts := by simp only [State.setPort]
@[simp] theorem State.setPort_dp (s : State) (p : Nat) (v : Port) : (s.setPort p v).dp = s.dp := by simp only [State.setPort]
@[simp] theorem State.setPort_prot (s : State) (p : Nat) (v : Port) : (s.setPort p v).prot = s.prot := by simp only [State.setPort]
@[simp] theorem State.setPort_chains (s : State) (p : Nat) (v : Port) : (s.setPort p v).chains = s.chains := by simp only [State.setPort]
@[simp] theorem State.setPort_tier (s : State) (p : Nat) (v : Port) : (s.setPort p v).tier = s.tier := by simp only [State.setPort]
@[simp] theorem State.setPort_media (s : State) (p : Nat) (v : Port) : (s.setPort p v).media = s.media := by simp only [State.setPort]
@[simp] theorem State.setPort_dur (s : State) (p : Nat) (v : Port) : (s.setPort p v).dur = s.dur := by simp only [State.setPort]
@[simp] theorem State.setPort_pair (s : State) (p : Nat) (v : Port) : (s.setPort p v).pair = s.pair := by simp only [State.setPort]
@[simp] theorem State.setPort_link (s : State) (p : Nat) (v : Port) : (s.setPort p v).link = s.link := by simp only [State.setPort]
@[simp] theorem State.setPort_pwr (s : State) (p : Nat) (v : Port) : (s.setPort p v).pwr = s.pwr := by simp only [State.setPort]
@[simp] theorem State.setPort_rec_ (s : State) (p : Nat) (v : Port) : (s.setPort p v).rec_ = s.rec_ := by simp only [State.setPort]
@[simp] theorem State.setPort_pmu (s : State) (p : Nat) (v : Port) : (s.setPort p v).pmu = s.pmu := by simp only [State.setPort]
@[simp] theorem State.setPort_smp (s : State) (p : Nat) (v : Port) : (s.setPort p v).smp = s.smp := by simp only [State.setPort]
@[simp] theorem State.setPort_boot (s : State) (p : Nat) (v : Port) : (s.setPort p v).boot = s.boot := by simp only [State.setPort]
@[simp] theorem State.setPort_cph (s : State) (p : Nat) (v : Port) : (s.setPort p v).cph = s.cph := by simp only [State.setPort]
@[simp] theorem State.setPort_ccx (s : State) (p : Nat) (v : Port) : (s.setPort p v).ccx = s.ccx := by simp only [State.setPort]
@[simp] theorem State.setPort_rails (s : State) (p : Nat) (v : Port) : (s.setPort p v).rails = s.rails := by simp only [State.setPort]
@[simp] theorem State.setPort_thm (s : State) (p : Nat) (v : Port) : (s.setPort p v).thm = s.thm := by simp only [State.setPort]
@[simp] theorem State.setPort_integ (s : State) (p : Nat) (v : Port) : (s.setPort p v).integ = s.integ := by simp only [State.setPort]
@[simp] theorem State.setPort_pending (s : State) (p : Nat) (v : Port) : (s.setPort p v).pending = s.pending := by simp only [State.setPort]

@[simp] theorem State.modPort_mono (s : State) (p : Nat) (f : Port → Port) : (s.modPort p f).mono = s.mono := State.setPort_mono _ _ _
@[simp] theorem State.modPort_tbOff (s : State) (p : Nat) (f : Port → Port) : (s.modPort p f).tbOff = s.tbOff := State.setPort_tbOff _ _ _
@[simp] theorem State.modPort_twinB (s : State) (p : Nat) (f : Port → Port) : (s.modPort p f).twinB = s.twinB := State.setPort_twinB _ _ _
@[simp] theorem State.modPort_regs (s : State) (p : Nat) (f : Port → Port) : (s.modPort p f).regs = s.regs := State.setPort_regs _ _ _
@[simp] theorem State.modPort_out (s : State) (p : Nat) (f : Port → Port) : (s.modPort p f).out = s.out := State.setPort_out _ _ _
@[simp] theorem State.modPort_evInbox (s : State) (p : Nat) (f : Port → Port) : (s.modPort p f).evInbox = s.evInbox := State.setPort_evInbox _ _ _
@[simp] theorem State.modPort_freeNext (s : State) (p : Nat) (f : Port → Port) : (s.modPort p f).freeNext = s.freeNext := State.setPort_freeNext _ _ _
@[simp] theorem State.modPort_msixMask (s : State) (p : Nat) (f : Port → Port) : (s.modPort p f).msixMask = s.msixMask := State.setPort_msixMask _ _ _
@[simp] theorem State.modPort_msixPend (s : State) (p : Nat) (f : Port → Port) : (s.modPort p f).msixPend = s.msixPend := State.setPort_msixPend _ _ _
@[simp] theorem State.modPort_msixTab (s : State) (p : Nat) (f : Port → Port) : (s.modPort p f).msixTab = s.msixTab := State.setPort_msixTab _ _ _
@[simp] theorem State.modPort_pcieUp (s : State) (p : Nat) (f : Port → Port) : (s.modPort p f).pcieUp = s.pcieUp := State.setPort_pcieUp _ _ _
@[simp] theorem State.modPort_bellCount (s : State) (p : Nat) (f : Port → Port) : (s.modPort p f).bellCount = s.bellCount := State.setPort_bellCount _ _ _
@[simp] theorem State.modPort_rqs (s : State) (p : Nat) (f : Port → Port) : (s.modPort p f).rqs = s.rqs := State.setPort_rqs _ _ _
@[simp] theorem State.modPort_hearth (s : State) (p : Nat) (f : Port → Port) : (s.modPort p f).hearth = s.hearth := State.setPort_hearth _ _ _
@[simp] theorem State.modPort_banks (s : State) (p : Nat) (f : Port → Port) : (s.modPort p f).banks = s.banks := State.setPort_banks _ _ _
@[simp] theorem State.modPort_cache (s : State) (p : Nat) (f : Port → Port) : (s.modPort p f).cache = s.cache := State.setPort_cache _ _ _
@[simp] theorem State.modPort_addrs (s : State) (p : Nat) (f : Port → Port) : (s.modPort p f).addrs = s.addrs := State.setPort_addrs _ _ _
@[simp] theorem State.modPort_qps (s : State) (p : Nat) (f : Port → Port) : (s.modPort p f).qps = s.qps := State.setPort_qps _ _ _
@[simp] theorem State.modPort_hosts (s : State) (p : Nat) (f : Port → Port) : (s.modPort p f).hosts = s.hosts := State.setPort_hosts _ _ _
@[simp] theorem State.modPort_dp (s : State) (p : Nat) (f : Port → Port) : (s.modPort p f).dp = s.dp := State.setPort_dp _ _ _
@[simp] theorem State.modPort_prot (s : State) (p : Nat) (f : Port → Port) : (s.modPort p f).prot = s.prot := State.setPort_prot _ _ _
@[simp] theorem State.modPort_chains (s : State) (p : Nat) (f : Port → Port) : (s.modPort p f).chains = s.chains := State.setPort_chains _ _ _
@[simp] theorem State.modPort_tier (s : State) (p : Nat) (f : Port → Port) : (s.modPort p f).tier = s.tier := State.setPort_tier _ _ _
@[simp] theorem State.modPort_media (s : State) (p : Nat) (f : Port → Port) : (s.modPort p f).media = s.media := State.setPort_media _ _ _
@[simp] theorem State.modPort_dur (s : State) (p : Nat) (f : Port → Port) : (s.modPort p f).dur = s.dur := State.setPort_dur _ _ _
@[simp] theorem State.modPort_pair (s : State) (p : Nat) (f : Port → Port) : (s.modPort p f).pair = s.pair := State.setPort_pair _ _ _
@[simp] theorem State.modPort_link (s : State) (p : Nat) (f : Port → Port) : (s.modPort p f).link = s.link := State.setPort_link _ _ _
@[simp] theorem State.modPort_pwr (s : State) (p : Nat) (f : Port → Port) : (s.modPort p f).pwr = s.pwr := State.setPort_pwr _ _ _
@[simp] theorem State.modPort_rec_ (s : State) (p : Nat) (f : Port → Port) : (s.modPort p f).rec_ = s.rec_ := State.setPort_rec_ _ _ _
@[simp] theorem State.modPort_pmu (s : State) (p : Nat) (f : Port → Port) : (s.modPort p f).pmu = s.pmu := State.setPort_pmu _ _ _
@[simp] theorem State.modPort_smp (s : State) (p : Nat) (f : Port → Port) : (s.modPort p f).smp = s.smp := State.setPort_smp _ _ _
@[simp] theorem State.modPort_boot (s : State) (p : Nat) (f : Port → Port) : (s.modPort p f).boot = s.boot := State.setPort_boot _ _ _
@[simp] theorem State.modPort_cph (s : State) (p : Nat) (f : Port → Port) : (s.modPort p f).cph = s.cph := State.setPort_cph _ _ _
@[simp] theorem State.modPort_ccx (s : State) (p : Nat) (f : Port → Port) : (s.modPort p f).ccx = s.ccx := State.setPort_ccx _ _ _
@[simp] theorem State.modPort_rails (s : State) (p : Nat) (f : Port → Port) : (s.modPort p f).rails = s.rails := State.setPort_rails _ _ _
@[simp] theorem State.modPort_thm (s : State) (p : Nat) (f : Port → Port) : (s.modPort p f).thm = s.thm := State.setPort_thm _ _ _
@[simp] theorem State.modPort_integ (s : State) (p : Nat) (f : Port → Port) : (s.modPort p f).integ = s.integ := State.setPort_integ _ _ _
@[simp] theorem State.modPort_pending (s : State) (p : Nat) (f : Port → Port) : (s.modPort p f).pending = s.pending := State.setPort_pending _ _ _

@[simp] theorem State.setPortSt_mono (s : State) (p n : Nat) : (s.setPortSt p n).mono = s.mono := (State.wr_mono _ _ _ _ _).trans (State.wr_mono _ _ _ _ _)
@[simp] theorem State.setPortSt_tbOff (s : State) (p n : Nat) : (s.setPortSt p n).tbOff = s.tbOff := (State.wr_tbOff _ _ _ _ _).trans (State.wr_tbOff _ _ _ _ _)
@[simp] theorem State.setPortSt_twinB (s : State) (p n : Nat) : (s.setPortSt p n).twinB = s.twinB := (State.wr_twinB _ _ _ _ _).trans (State.wr_twinB _ _ _ _ _)
@[simp] theorem State.setPortSt_out (s : State) (p n : Nat) : (s.setPortSt p n).out = s.out := (State.wr_out _ _ _ _ _).trans (State.wr_out _ _ _ _ _)
@[simp] theorem State.setPortSt_evInbox (s : State) (p n : Nat) : (s.setPortSt p n).evInbox = s.evInbox := (State.wr_evInbox _ _ _ _ _).trans (State.wr_evInbox _ _ _ _ _)
@[simp] theorem State.setPortSt_freeNext (s : State) (p n : Nat) : (s.setPortSt p n).freeNext = s.freeNext := (State.wr_freeNext _ _ _ _ _).trans (State.wr_freeNext _ _ _ _ _)
@[simp] theorem State.setPortSt_msixMask (s : State) (p n : Nat) : (s.setPortSt p n).msixMask = s.msixMask := (State.wr_msixMask _ _ _ _ _).trans (State.wr_msixMask _ _ _ _ _)
@[simp] theorem State.setPortSt_msixPend (s : State) (p n : Nat) : (s.setPortSt p n).msixPend = s.msixPend := (State.wr_msixPend _ _ _ _ _).trans (State.wr_msixPend _ _ _ _ _)
@[simp] theorem State.setPortSt_msixTab (s : State) (p n : Nat) : (s.setPortSt p n).msixTab = s.msixTab := (State.wr_msixTab _ _ _ _ _).trans (State.wr_msixTab _ _ _ _ _)
@[simp] theorem State.setPortSt_pcieUp (s : State) (p n : Nat) : (s.setPortSt p n).pcieUp = s.pcieUp := (State.wr_pcieUp _ _ _ _ _).trans (State.wr_pcieUp _ _ _ _ _)
@[simp] theorem State.setPortSt_bellCount (s : State) (p n : Nat) : (s.setPortSt p n).bellCount = s.bellCount := (State.wr_bellCount _ _ _ _ _).trans (State.wr_bellCount _ _ _ _ _)
@[simp] theorem State.setPortSt_rqs (s : State) (p n : Nat) : (s.setPortSt p n).rqs = s.rqs := (State.wr_rqs _ _ _ _ _).trans (State.wr_rqs _ _ _ _ _)
@[simp] theorem State.setPortSt_hearth (s : State) (p n : Nat) : (s.setPortSt p n).hearth = s.hearth := (State.wr_hearth _ _ _ _ _).trans (State.wr_hearth _ _ _ _ _)
@[simp] theorem State.setPortSt_banks (s : State) (p n : Nat) : (s.setPortSt p n).banks = s.banks := (State.wr_banks _ _ _ _ _).trans (State.wr_banks _ _ _ _ _)
@[simp] theorem State.setPortSt_cache (s : State) (p n : Nat) : (s.setPortSt p n).cache = s.cache := (State.wr_cache _ _ _ _ _).trans (State.wr_cache _ _ _ _ _)
@[simp] theorem State.setPortSt_ports (s : State) (p n : Nat) : (s.setPortSt p n).ports = s.ports := (State.wr_ports _ _ _ _ _).trans (State.wr_ports _ _ _ _ _)
@[simp] theorem State.setPortSt_addrs (s : State) (p n : Nat) : (s.setPortSt p n).addrs = s.addrs := (State.wr_addrs _ _ _ _ _).trans (State.wr_addrs _ _ _ _ _)
@[simp] theorem State.setPortSt_qps (s : State) (p n : Nat) : (s.setPortSt p n).qps = s.qps := (State.wr_qps _ _ _ _ _).trans (State.wr_qps _ _ _ _ _)
@[simp] theorem State.setPortSt_hosts (s : State) (p n : Nat) : (s.setPortSt p n).hosts = s.hosts := (State.wr_hosts _ _ _ _ _).trans (State.wr_hosts _ _ _ _ _)
@[simp] theorem State.setPortSt_dp (s : State) (p n : Nat) : (s.setPortSt p n).dp = s.dp := (State.wr_dp _ _ _ _ _).trans (State.wr_dp _ _ _ _ _)
@[simp] theorem State.setPortSt_prot (s : State) (p n : Nat) : (s.setPortSt p n).prot = s.prot := (State.wr_prot _ _ _ _ _).trans (State.wr_prot _ _ _ _ _)
@[simp] theorem State.setPortSt_chains (s : State) (p n : Nat) : (s.setPortSt p n).chains = s.chains := (State.wr_chains _ _ _ _ _).trans (State.wr_chains _ _ _ _ _)
@[simp] theorem State.setPortSt_tier (s : State) (p n : Nat) : (s.setPortSt p n).tier = s.tier := (State.wr_tier _ _ _ _ _).trans (State.wr_tier _ _ _ _ _)
@[simp] theorem State.setPortSt_media (s : State) (p n : Nat) : (s.setPortSt p n).media = s.media := (State.wr_media _ _ _ _ _).trans (State.wr_media _ _ _ _ _)
@[simp] theorem State.setPortSt_dur (s : State) (p n : Nat) : (s.setPortSt p n).dur = s.dur := (State.wr_dur _ _ _ _ _).trans (State.wr_dur _ _ _ _ _)
@[simp] theorem State.setPortSt_pair (s : State) (p n : Nat) : (s.setPortSt p n).pair = s.pair := (State.wr_pair _ _ _ _ _).trans (State.wr_pair _ _ _ _ _)
@[simp] theorem State.setPortSt_link (s : State) (p n : Nat) : (s.setPortSt p n).link = s.link := (State.wr_link _ _ _ _ _).trans (State.wr_link _ _ _ _ _)
@[simp] theorem State.setPortSt_pwr (s : State) (p n : Nat) : (s.setPortSt p n).pwr = s.pwr := (State.wr_pwr _ _ _ _ _).trans (State.wr_pwr _ _ _ _ _)
@[simp] theorem State.setPortSt_rec_ (s : State) (p n : Nat) : (s.setPortSt p n).rec_ = s.rec_ := (State.wr_rec_ _ _ _ _ _).trans (State.wr_rec_ _ _ _ _ _)
@[simp] theorem State.setPortSt_pmu (s : State) (p n : Nat) : (s.setPortSt p n).pmu = s.pmu := (State.wr_pmu _ _ _ _ _).trans (State.wr_pmu _ _ _ _ _)
@[simp] theorem State.setPortSt_smp (s : State) (p n : Nat) : (s.setPortSt p n).smp = s.smp := (State.wr_smp _ _ _ _ _).trans (State.wr_smp _ _ _ _ _)
@[simp] theorem State.setPortSt_boot (s : State) (p n : Nat) : (s.setPortSt p n).boot = s.boot := (State.wr_boot _ _ _ _ _).trans (State.wr_boot _ _ _ _ _)
@[simp] theorem State.setPortSt_cph (s : State) (p n : Nat) : (s.setPortSt p n).cph = s.cph := (State.wr_cph _ _ _ _ _).trans (State.wr_cph _ _ _ _ _)
@[simp] theorem State.setPortSt_ccx (s : State) (p n : Nat) : (s.setPortSt p n).ccx = s.ccx := (State.wr_ccx _ _ _ _ _).trans (State.wr_ccx _ _ _ _ _)
@[simp] theorem State.setPortSt_rails (s : State) (p n : Nat) : (s.setPortSt p n).rails = s.rails := (State.wr_rails _ _ _ _ _).trans (State.wr_rails _ _ _ _ _)
@[simp] theorem State.setPortSt_thm (s : State) (p n : Nat) : (s.setPortSt p n).thm = s.thm := (State.wr_thm _ _ _ _ _).trans (State.wr_thm _ _ _ _ _)
@[simp] theorem State.setPortSt_integ (s : State) (p n : Nat) : (s.setPortSt p n).integ = s.integ := (State.wr_integ _ _ _ _ _).trans (State.wr_integ _ _ _ _ _)
@[simp] theorem State.setPortSt_pending (s : State) (p n : Nat) : (s.setPortSt p n).pending = s.pending := (State.wr_pending _ _ _ _ _).trans (State.wr_pending _ _ _ _ _)

@[simp] theorem State.hptCount_mono (s : State) (p k n : Nat) : (s.hptCount p k n).mono = s.mono := State.inc_mono _ _ _ _ _
@[simp] theorem State.hptCount_tbOff (s : State) (p k n : Nat) : (s.hptCount p k n).tbOff = s.tbOff := State.inc_tbOff _ _ _ _ _
@[simp] theorem State.hptCount_twinB (s : State) (p k n : Nat) : (s.hptCount p k n).twinB = s.twinB := State.inc_twinB _ _ _ _ _
@[simp] theorem State.hptCount_out (s : State) (p k n : Nat) : (s.hptCount p k n).out = s.out := State.inc_out _ _ _ _ _
@[simp] theorem State.hptCount_evInbox (s : State) (p k n : Nat) : (s.hptCount p k n).evInbox = s.evInbox := State.inc_evInbox _ _ _ _ _
@[simp] theorem State.hptCount_freeNext (s : State) (p k n : Nat) : (s.hptCount p k n).freeNext = s.freeNext := State.inc_freeNext _ _ _ _ _
@[simp] theorem State.hptCount_msixMask (s : State) (p k n : Nat) : (s.hptCount p k n).msixMask = s.msixMask := State.inc_msixMask _ _ _ _ _
@[simp] theorem State.hptCount_msixPend (s : State) (p k n : Nat) : (s.hptCount p k n).msixPend = s.msixPend := State.inc_msixPend _ _ _ _ _
@[simp] theorem State.hptCount_msixTab (s : State) (p k n : Nat) : (s.hptCount p k n).msixTab = s.msixTab := State.inc_msixTab _ _ _ _ _
@[simp] theorem State.hptCount_pcieUp (s : State) (p k n : Nat) : (s.hptCount p k n).pcieUp = s.pcieUp := State.inc_pcieUp _ _ _ _ _
@[simp] theorem State.hptCount_bellCount (s : State) (p k n : Nat) : (s.hptCount p k n).bellCount = s.bellCount := State.inc_bellCount _ _ _ _ _
@[simp] theorem State.hptCount_rqs (s : State) (p k n : Nat) : (s.hptCount p k n).rqs = s.rqs := State.inc_rqs _ _ _ _ _
@[simp] theorem State.hptCount_hearth (s : State) (p k n : Nat) : (s.hptCount p k n).hearth = s.hearth := State.inc_hearth _ _ _ _ _
@[simp] theorem State.hptCount_banks (s : State) (p k n : Nat) : (s.hptCount p k n).banks = s.banks := State.inc_banks _ _ _ _ _
@[simp] theorem State.hptCount_cache (s : State) (p k n : Nat) : (s.hptCount p k n).cache = s.cache := State.inc_cache _ _ _ _ _
@[simp] theorem State.hptCount_ports (s : State) (p k n : Nat) : (s.hptCount p k n).ports = s.ports := State.inc_ports _ _ _ _ _
@[simp] theorem State.hptCount_addrs (s : State) (p k n : Nat) : (s.hptCount p k n).addrs = s.addrs := State.inc_addrs _ _ _ _ _
@[simp] theorem State.hptCount_qps (s : State) (p k n : Nat) : (s.hptCount p k n).qps = s.qps := State.inc_qps _ _ _ _ _
@[simp] theorem State.hptCount_hosts (s : State) (p k n : Nat) : (s.hptCount p k n).hosts = s.hosts := State.inc_hosts _ _ _ _ _
@[simp] theorem State.hptCount_dp (s : State) (p k n : Nat) : (s.hptCount p k n).dp = s.dp := State.inc_dp _ _ _ _ _
@[simp] theorem State.hptCount_prot (s : State) (p k n : Nat) : (s.hptCount p k n).prot = s.prot := State.inc_prot _ _ _ _ _
@[simp] theorem State.hptCount_chains (s : State) (p k n : Nat) : (s.hptCount p k n).chains = s.chains := State.inc_chains _ _ _ _ _
@[simp] theorem State.hptCount_tier (s : State) (p k n : Nat) : (s.hptCount p k n).tier = s.tier := State.inc_tier _ _ _ _ _
@[simp] theorem State.hptCount_media (s : State) (p k n : Nat) : (s.hptCount p k n).media = s.media := State.inc_media _ _ _ _ _
@[simp] theorem State.hptCount_dur (s : State) (p k n : Nat) : (s.hptCount p k n).dur = s.dur := State.inc_dur _ _ _ _ _
@[simp] theorem State.hptCount_pair (s : State) (p k n : Nat) : (s.hptCount p k n).pair = s.pair := State.inc_pair _ _ _ _ _
@[simp] theorem State.hptCount_link (s : State) (p k n : Nat) : (s.hptCount p k n).link = s.link := State.inc_link _ _ _ _ _
@[simp] theorem State.hptCount_pwr (s : State) (p k n : Nat) : (s.hptCount p k n).pwr = s.pwr := State.inc_pwr _ _ _ _ _
@[simp] theorem State.hptCount_rec_ (s : State) (p k n : Nat) : (s.hptCount p k n).rec_ = s.rec_ := State.inc_rec_ _ _ _ _ _
@[simp] theorem State.hptCount_pmu (s : State) (p k n : Nat) : (s.hptCount p k n).pmu = s.pmu := State.inc_pmu _ _ _ _ _
@[simp] theorem State.hptCount_smp (s : State) (p k n : Nat) : (s.hptCount p k n).smp = s.smp := State.inc_smp _ _ _ _ _
@[simp] theorem State.hptCount_boot (s : State) (p k n : Nat) : (s.hptCount p k n).boot = s.boot := State.inc_boot _ _ _ _ _
@[simp] theorem State.hptCount_cph (s : State) (p k n : Nat) : (s.hptCount p k n).cph = s.cph := State.inc_cph _ _ _ _ _
@[simp] theorem State.hptCount_ccx (s : State) (p k n : Nat) : (s.hptCount p k n).ccx = s.ccx := State.inc_ccx _ _ _ _ _
@[simp] theorem State.hptCount_rails (s : State) (p k n : Nat) : (s.hptCount p k n).rails = s.rails := State.inc_rails _ _ _ _ _
@[simp] theorem State.hptCount_thm (s : State) (p k n : Nat) : (s.hptCount p k n).thm = s.thm := State.inc_thm _ _ _ _ _
@[simp] theorem State.hptCount_integ (s : State) (p k n : Nat) : (s.hptCount p k n).integ = s.integ := State.inc_integ _ _ _ _ _
@[simp] theorem State.hptCount_pending (s : State) (p k n : Nat) : (s.hptCount p k n).pending = s.pending := State.inc_pending _ _ _ _ _

@[simp] theorem State.setQp_mono (s : State) (n : Nat) (q : Qp) : (s.setQp n q).mono = s.mono := by simp only [State.setQp]
@[simp] theorem State.setQp_tbOff (s : State) (n : Nat) (q : Qp) : (s.setQp n q).tbOff = s.tbOff := by simp only [State.setQp]
@[simp] theorem State.setQp_twinB (s : State) (n : Nat) (q : Qp) : (s.setQp n q).twinB = s.twinB := by simp only [State.setQp]
@[simp] theorem State.setQp_regs (s : State) (n : Nat) (q : Qp) : (s.setQp n q).regs = s.regs := by simp only [State.setQp]
@[simp] theorem State.setQp_out (s : State) (n : Nat) (q : Qp) : (s.setQp n q).out = s.out := by simp only [State.setQp]
@[simp] theorem State.setQp_evInbox (s : State) (n : Nat) (q : Qp) : (s.setQp n q).evInbox = s.evInbox := by simp only [State.setQp]
@[simp] theorem State.setQp_freeNext (s : State) (n : Nat) (q : Qp) : (s.setQp n q).freeNext = s.freeNext := by simp only [State.setQp]
@[simp] theorem State.setQp_msixMask (s : State) (n : Nat) (q : Qp) : (s.setQp n q).msixMask = s.msixMask := by simp only [State.setQp]
@[simp] theorem State.setQp_msixPend (s : State) (n : Nat) (q : Qp) : (s.setQp n q).msixPend = s.msixPend := by simp only [State.setQp]
@[simp] theorem State.setQp_msixTab (s : State) (n : Nat) (q : Qp) : (s.setQp n q).msixTab = s.msixTab := by simp only [State.setQp]
@[simp] theorem State.setQp_pcieUp (s : State) (n : Nat) (q : Qp) : (s.setQp n q).pcieUp = s.pcieUp := by simp only [State.setQp]
@[simp] theorem State.setQp_bellCount (s : State) (n : Nat) (q : Qp) : (s.setQp n q).bellCount = s.bellCount := by simp only [State.setQp]
@[simp] theorem State.setQp_rqs (s : State) (n : Nat) (q : Qp) : (s.setQp n q).rqs = s.rqs := by simp only [State.setQp]
@[simp] theorem State.setQp_hearth (s : State) (n : Nat) (q : Qp) : (s.setQp n q).hearth = s.hearth := by simp only [State.setQp]
@[simp] theorem State.setQp_banks (s : State) (n : Nat) (q : Qp) : (s.setQp n q).banks = s.banks := by simp only [State.setQp]
@[simp] theorem State.setQp_cache (s : State) (n : Nat) (q : Qp) : (s.setQp n q).cache = s.cache := by simp only [State.setQp]
@[simp] theorem State.setQp_ports (s : State) (n : Nat) (q : Qp) : (s.setQp n q).ports = s.ports := by simp only [State.setQp]
@[simp] theorem State.setQp_addrs (s : State) (n : Nat) (q : Qp) : (s.setQp n q).addrs = s.addrs := by simp only [State.setQp]
@[simp] theorem State.setQp_hosts (s : State) (n : Nat) (q : Qp) : (s.setQp n q).hosts = s.hosts := by simp only [State.setQp]
@[simp] theorem State.setQp_dp (s : State) (n : Nat) (q : Qp) : (s.setQp n q).dp = s.dp := by simp only [State.setQp]
@[simp] theorem State.setQp_prot (s : State) (n : Nat) (q : Qp) : (s.setQp n q).prot = s.prot := by simp only [State.setQp]
@[simp] theorem State.setQp_chains (s : State) (n : Nat) (q : Qp) : (s.setQp n q).chains = s.chains := by simp only [State.setQp]
@[simp] theorem State.setQp_tier (s : State) (n : Nat) (q : Qp) : (s.setQp n q).tier = s.tier := by simp only [State.setQp]
@[simp] theorem State.setQp_media (s : State) (n : Nat) (q : Qp) : (s.setQp n q).media = s.media := by simp only [State.setQp]
@[simp] theorem State.setQp_dur (s : State) (n : Nat) (q : Qp) : (s.setQp n q).dur = s.dur := by simp only [State.setQp]
@[simp] theorem State.setQp_pair (s : State) (n : Nat) (q : Qp) : (s.setQp n q).pair = s.pair := by simp only [State.setQp]
@[simp] theorem State.setQp_link (s : State) (n : Nat) (q : Qp) : (s.setQp n q).link = s.link := by simp only [State.setQp]
@[simp] theorem State.setQp_pwr (s : State) (n : Nat) (q : Qp) : (s.setQp n q).pwr = s.pwr := by simp only [State.setQp]
@[simp] theorem State.setQp_rec_ (s : State) (n : Nat) (q : Qp) : (s.setQp n q).rec_ = s.rec_ := by simp only [State.setQp]
@[simp] theorem State.setQp_pmu (s : State) (n : Nat) (q : Qp) : (s.setQp n q).pmu = s.pmu := by simp only [State.setQp]
@[simp] theorem State.setQp_smp (s : State) (n : Nat) (q : Qp) : (s.setQp n q).smp = s.smp := by simp only [State.setQp]
@[simp] theorem State.setQp_boot (s : State) (n : Nat) (q : Qp) : (s.setQp n q).boot = s.boot := by simp only [State.setQp]
@[simp] theorem State.setQp_cph (s : State) (n : Nat) (q : Qp) : (s.setQp n q).cph = s.cph := by simp only [State.setQp]
@[simp] theorem State.setQp_ccx (s : State) (n : Nat) (q : Qp) : (s.setQp n q).ccx = s.ccx := by simp only [State.setQp]
@[simp] theorem State.setQp_rails (s : State) (n : Nat) (q : Qp) : (s.setQp n q).rails = s.rails := by simp only [State.setQp]
@[simp] theorem State.setQp_thm (s : State) (n : Nat) (q : Qp) : (s.setQp n q).thm = s.thm := by simp only [State.setQp]
@[simp] theorem State.setQp_integ (s : State) (n : Nat) (q : Qp) : (s.setQp n q).integ = s.integ := by simp only [State.setQp]
@[simp] theorem State.setQp_pending (s : State) (n : Nat) (q : Qp) : (s.setQp n q).pending = s.pending := by simp only [State.setQp]

@[simp] theorem State.modQp_mono (s : State) (n : Nat) (f : Qp → Qp) : (s.modQp n f).mono = s.mono := State.setQp_mono _ _ _
@[simp] theorem State.modQp_tbOff (s : State) (n : Nat) (f : Qp → Qp) : (s.modQp n f).tbOff = s.tbOff := State.setQp_tbOff _ _ _
@[simp] theorem State.modQp_twinB (s : State) (n : Nat) (f : Qp → Qp) : (s.modQp n f).twinB = s.twinB := State.setQp_twinB _ _ _
@[simp] theorem State.modQp_regs (s : State) (n : Nat) (f : Qp → Qp) : (s.modQp n f).regs = s.regs := State.setQp_regs _ _ _
@[simp] theorem State.modQp_out (s : State) (n : Nat) (f : Qp → Qp) : (s.modQp n f).out = s.out := State.setQp_out _ _ _
@[simp] theorem State.modQp_evInbox (s : State) (n : Nat) (f : Qp → Qp) : (s.modQp n f).evInbox = s.evInbox := State.setQp_evInbox _ _ _
@[simp] theorem State.modQp_freeNext (s : State) (n : Nat) (f : Qp → Qp) : (s.modQp n f).freeNext = s.freeNext := State.setQp_freeNext _ _ _
@[simp] theorem State.modQp_msixMask (s : State) (n : Nat) (f : Qp → Qp) : (s.modQp n f).msixMask = s.msixMask := State.setQp_msixMask _ _ _
@[simp] theorem State.modQp_msixPend (s : State) (n : Nat) (f : Qp → Qp) : (s.modQp n f).msixPend = s.msixPend := State.setQp_msixPend _ _ _
@[simp] theorem State.modQp_msixTab (s : State) (n : Nat) (f : Qp → Qp) : (s.modQp n f).msixTab = s.msixTab := State.setQp_msixTab _ _ _
@[simp] theorem State.modQp_pcieUp (s : State) (n : Nat) (f : Qp → Qp) : (s.modQp n f).pcieUp = s.pcieUp := State.setQp_pcieUp _ _ _
@[simp] theorem State.modQp_bellCount (s : State) (n : Nat) (f : Qp → Qp) : (s.modQp n f).bellCount = s.bellCount := State.setQp_bellCount _ _ _
@[simp] theorem State.modQp_rqs (s : State) (n : Nat) (f : Qp → Qp) : (s.modQp n f).rqs = s.rqs := State.setQp_rqs _ _ _
@[simp] theorem State.modQp_hearth (s : State) (n : Nat) (f : Qp → Qp) : (s.modQp n f).hearth = s.hearth := State.setQp_hearth _ _ _
@[simp] theorem State.modQp_banks (s : State) (n : Nat) (f : Qp → Qp) : (s.modQp n f).banks = s.banks := State.setQp_banks _ _ _
@[simp] theorem State.modQp_cache (s : State) (n : Nat) (f : Qp → Qp) : (s.modQp n f).cache = s.cache := State.setQp_cache _ _ _
@[simp] theorem State.modQp_ports (s : State) (n : Nat) (f : Qp → Qp) : (s.modQp n f).ports = s.ports := State.setQp_ports _ _ _
@[simp] theorem State.modQp_addrs (s : State) (n : Nat) (f : Qp → Qp) : (s.modQp n f).addrs = s.addrs := State.setQp_addrs _ _ _
@[simp] theorem State.modQp_hosts (s : State) (n : Nat) (f : Qp → Qp) : (s.modQp n f).hosts = s.hosts := State.setQp_hosts _ _ _
@[simp] theorem State.modQp_dp (s : State) (n : Nat) (f : Qp → Qp) : (s.modQp n f).dp = s.dp := State.setQp_dp _ _ _
@[simp] theorem State.modQp_prot (s : State) (n : Nat) (f : Qp → Qp) : (s.modQp n f).prot = s.prot := State.setQp_prot _ _ _
@[simp] theorem State.modQp_chains (s : State) (n : Nat) (f : Qp → Qp) : (s.modQp n f).chains = s.chains := State.setQp_chains _ _ _
@[simp] theorem State.modQp_tier (s : State) (n : Nat) (f : Qp → Qp) : (s.modQp n f).tier = s.tier := State.setQp_tier _ _ _
@[simp] theorem State.modQp_media (s : State) (n : Nat) (f : Qp → Qp) : (s.modQp n f).media = s.media := State.setQp_media _ _ _
@[simp] theorem State.modQp_dur (s : State) (n : Nat) (f : Qp → Qp) : (s.modQp n f).dur = s.dur := State.setQp_dur _ _ _
@[simp] theorem State.modQp_pair (s : State) (n : Nat) (f : Qp → Qp) : (s.modQp n f).pair = s.pair := State.setQp_pair _ _ _
@[simp] theorem State.modQp_link (s : State) (n : Nat) (f : Qp → Qp) : (s.modQp n f).link = s.link := State.setQp_link _ _ _
@[simp] theorem State.modQp_pwr (s : State) (n : Nat) (f : Qp → Qp) : (s.modQp n f).pwr = s.pwr := State.setQp_pwr _ _ _
@[simp] theorem State.modQp_rec_ (s : State) (n : Nat) (f : Qp → Qp) : (s.modQp n f).rec_ = s.rec_ := State.setQp_rec_ _ _ _
@[simp] theorem State.modQp_pmu (s : State) (n : Nat) (f : Qp → Qp) : (s.modQp n f).pmu = s.pmu := State.setQp_pmu _ _ _
@[simp] theorem State.modQp_smp (s : State) (n : Nat) (f : Qp → Qp) : (s.modQp n f).smp = s.smp := State.setQp_smp _ _ _
@[simp] theorem State.modQp_boot (s : State) (n : Nat) (f : Qp → Qp) : (s.modQp n f).boot = s.boot := State.setQp_boot _ _ _
@[simp] theorem State.modQp_cph (s : State) (n : Nat) (f : Qp → Qp) : (s.modQp n f).cph = s.cph := State.setQp_cph _ _ _
@[simp] theorem State.modQp_ccx (s : State) (n : Nat) (f : Qp → Qp) : (s.modQp n f).ccx = s.ccx := State.setQp_ccx _ _ _
@[simp] theorem State.modQp_rails (s : State) (n : Nat) (f : Qp → Qp) : (s.modQp n f).rails = s.rails := State.setQp_rails _ _ _
@[simp] theorem State.modQp_thm (s : State) (n : Nat) (f : Qp → Qp) : (s.modQp n f).thm = s.thm := State.setQp_thm _ _ _
@[simp] theorem State.modQp_integ (s : State) (n : Nat) (f : Qp → Qp) : (s.modQp n f).integ = s.integ := State.setQp_integ _ _ _
@[simp] theorem State.modQp_pending (s : State) (n : Nat) (f : Qp → Qp) : (s.modQp n f).pending = s.pending := State.setQp_pending _ _ _

@[simp] theorem State.setQf_mono (s : State) (n w hi lo v : Nat) : (s.setQf n w hi lo v).mono = s.mono := State.modQp_mono _ _ _
@[simp] theorem State.setQf_tbOff (s : State) (n w hi lo v : Nat) : (s.setQf n w hi lo v).tbOff = s.tbOff := State.modQp_tbOff _ _ _
@[simp] theorem State.setQf_twinB (s : State) (n w hi lo v : Nat) : (s.setQf n w hi lo v).twinB = s.twinB := State.modQp_twinB _ _ _
@[simp] theorem State.setQf_regs (s : State) (n w hi lo v : Nat) : (s.setQf n w hi lo v).regs = s.regs := State.modQp_regs _ _ _
@[simp] theorem State.setQf_out (s : State) (n w hi lo v : Nat) : (s.setQf n w hi lo v).out = s.out := State.modQp_out _ _ _
@[simp] theorem State.setQf_evInbox (s : State) (n w hi lo v : Nat) : (s.setQf n w hi lo v).evInbox = s.evInbox := State.modQp_evInbox _ _ _
@[simp] theorem State.setQf_freeNext (s : State) (n w hi lo v : Nat) : (s.setQf n w hi lo v).freeNext = s.freeNext := State.modQp_freeNext _ _ _
@[simp] theorem State.setQf_msixMask (s : State) (n w hi lo v : Nat) : (s.setQf n w hi lo v).msixMask = s.msixMask := State.modQp_msixMask _ _ _
@[simp] theorem State.setQf_msixPend (s : State) (n w hi lo v : Nat) : (s.setQf n w hi lo v).msixPend = s.msixPend := State.modQp_msixPend _ _ _
@[simp] theorem State.setQf_msixTab (s : State) (n w hi lo v : Nat) : (s.setQf n w hi lo v).msixTab = s.msixTab := State.modQp_msixTab _ _ _
@[simp] theorem State.setQf_pcieUp (s : State) (n w hi lo v : Nat) : (s.setQf n w hi lo v).pcieUp = s.pcieUp := State.modQp_pcieUp _ _ _
@[simp] theorem State.setQf_bellCount (s : State) (n w hi lo v : Nat) : (s.setQf n w hi lo v).bellCount = s.bellCount := State.modQp_bellCount _ _ _
@[simp] theorem State.setQf_rqs (s : State) (n w hi lo v : Nat) : (s.setQf n w hi lo v).rqs = s.rqs := State.modQp_rqs _ _ _
@[simp] theorem State.setQf_hearth (s : State) (n w hi lo v : Nat) : (s.setQf n w hi lo v).hearth = s.hearth := State.modQp_hearth _ _ _
@[simp] theorem State.setQf_banks (s : State) (n w hi lo v : Nat) : (s.setQf n w hi lo v).banks = s.banks := State.modQp_banks _ _ _
@[simp] theorem State.setQf_cache (s : State) (n w hi lo v : Nat) : (s.setQf n w hi lo v).cache = s.cache := State.modQp_cache _ _ _
@[simp] theorem State.setQf_ports (s : State) (n w hi lo v : Nat) : (s.setQf n w hi lo v).ports = s.ports := State.modQp_ports _ _ _
@[simp] theorem State.setQf_addrs (s : State) (n w hi lo v : Nat) : (s.setQf n w hi lo v).addrs = s.addrs := State.modQp_addrs _ _ _
@[simp] theorem State.setQf_hosts (s : State) (n w hi lo v : Nat) : (s.setQf n w hi lo v).hosts = s.hosts := State.modQp_hosts _ _ _
@[simp] theorem State.setQf_dp (s : State) (n w hi lo v : Nat) : (s.setQf n w hi lo v).dp = s.dp := State.modQp_dp _ _ _
@[simp] theorem State.setQf_prot (s : State) (n w hi lo v : Nat) : (s.setQf n w hi lo v).prot = s.prot := State.modQp_prot _ _ _
@[simp] theorem State.setQf_chains (s : State) (n w hi lo v : Nat) : (s.setQf n w hi lo v).chains = s.chains := State.modQp_chains _ _ _
@[simp] theorem State.setQf_tier (s : State) (n w hi lo v : Nat) : (s.setQf n w hi lo v).tier = s.tier := State.modQp_tier _ _ _
@[simp] theorem State.setQf_media (s : State) (n w hi lo v : Nat) : (s.setQf n w hi lo v).media = s.media := State.modQp_media _ _ _
@[simp] theorem State.setQf_dur (s : State) (n w hi lo v : Nat) : (s.setQf n w hi lo v).dur = s.dur := State.modQp_dur _ _ _
@[simp] theorem State.setQf_pair (s : State) (n w hi lo v : Nat) : (s.setQf n w hi lo v).pair = s.pair := State.modQp_pair _ _ _
@[simp] theorem State.setQf_link (s : State) (n w hi lo v : Nat) : (s.setQf n w hi lo v).link = s.link := State.modQp_link _ _ _
@[simp] theorem State.setQf_pwr (s : State) (n w hi lo v : Nat) : (s.setQf n w hi lo v).pwr = s.pwr := State.modQp_pwr _ _ _
@[simp] theorem State.setQf_rec_ (s : State) (n w hi lo v : Nat) : (s.setQf n w hi lo v).rec_ = s.rec_ := State.modQp_rec_ _ _ _
@[simp] theorem State.setQf_pmu (s : State) (n w hi lo v : Nat) : (s.setQf n w hi lo v).pmu = s.pmu := State.modQp_pmu _ _ _
@[simp] theorem State.setQf_smp (s : State) (n w hi lo v : Nat) : (s.setQf n w hi lo v).smp = s.smp := State.modQp_smp _ _ _
@[simp] theorem State.setQf_boot (s : State) (n w hi lo v : Nat) : (s.setQf n w hi lo v).boot = s.boot := State.modQp_boot _ _ _
@[simp] theorem State.setQf_cph (s : State) (n w hi lo v : Nat) : (s.setQf n w hi lo v).cph = s.cph := State.modQp_cph _ _ _
@[simp] theorem State.setQf_ccx (s : State) (n w hi lo v : Nat) : (s.setQf n w hi lo v).ccx = s.ccx := State.modQp_ccx _ _ _
@[simp] theorem State.setQf_rails (s : State) (n w hi lo v : Nat) : (s.setQf n w hi lo v).rails = s.rails := State.modQp_rails _ _ _
@[simp] theorem State.setQf_thm (s : State) (n w hi lo v : Nat) : (s.setQf n w hi lo v).thm = s.thm := State.modQp_thm _ _ _
@[simp] theorem State.setQf_integ (s : State) (n w hi lo v : Nat) : (s.setQf n w hi lo v).integ = s.integ := State.modQp_integ _ _ _
@[simp] theorem State.setQf_pending (s : State) (n w hi lo v : Nat) : (s.setQf n w hi lo v).pending = s.pending := State.modQp_pending _ _ _

@[simp] theorem State.setStrand_mono (s : State) (n : Nat) (v : Strand) : (s.setStrand n v).mono = s.mono := by simp only [State.setStrand]
@[simp] theorem State.setStrand_tbOff (s : State) (n : Nat) (v : Strand) : (s.setStrand n v).tbOff = s.tbOff := by simp only [State.setStrand]
@[simp] theorem State.setStrand_twinB (s : State) (n : Nat) (v : Strand) : (s.setStrand n v).twinB = s.twinB := by simp only [State.setStrand]
@[simp] theorem State.setStrand_regs (s : State) (n : Nat) (v : Strand) : (s.setStrand n v).regs = s.regs := by simp only [State.setStrand]
@[simp] theorem State.setStrand_out (s : State) (n : Nat) (v : Strand) : (s.setStrand n v).out = s.out := by simp only [State.setStrand]
@[simp] theorem State.setStrand_evInbox (s : State) (n : Nat) (v : Strand) : (s.setStrand n v).evInbox = s.evInbox := by simp only [State.setStrand]
@[simp] theorem State.setStrand_freeNext (s : State) (n : Nat) (v : Strand) : (s.setStrand n v).freeNext = s.freeNext := by simp only [State.setStrand]
@[simp] theorem State.setStrand_msixMask (s : State) (n : Nat) (v : Strand) : (s.setStrand n v).msixMask = s.msixMask := by simp only [State.setStrand]
@[simp] theorem State.setStrand_msixPend (s : State) (n : Nat) (v : Strand) : (s.setStrand n v).msixPend = s.msixPend := by simp only [State.setStrand]
@[simp] theorem State.setStrand_msixTab (s : State) (n : Nat) (v : Strand) : (s.setStrand n v).msixTab = s.msixTab := by simp only [State.setStrand]
@[simp] theorem State.setStrand_pcieUp (s : State) (n : Nat) (v : Strand) : (s.setStrand n v).pcieUp = s.pcieUp := by simp only [State.setStrand]
@[simp] theorem State.setStrand_bellCount (s : State) (n : Nat) (v : Strand) : (s.setStrand n v).bellCount = s.bellCount := by simp only [State.setStrand]
@[simp] theorem State.setStrand_rqs (s : State) (n : Nat) (v : Strand) : (s.setStrand n v).rqs = s.rqs := by simp only [State.setStrand]
@[simp] theorem State.setStrand_hearth (s : State) (n : Nat) (v : Strand) : (s.setStrand n v).hearth = s.hearth := by simp only [State.setStrand]
@[simp] theorem State.setStrand_banks (s : State) (n : Nat) (v : Strand) : (s.setStrand n v).banks = s.banks := by simp only [State.setStrand]
@[simp] theorem State.setStrand_cache (s : State) (n : Nat) (v : Strand) : (s.setStrand n v).cache = s.cache := by simp only [State.setStrand]
@[simp] theorem State.setStrand_ports (s : State) (n : Nat) (v : Strand) : (s.setStrand n v).ports = s.ports := by simp only [State.setStrand]
@[simp] theorem State.setStrand_addrs (s : State) (n : Nat) (v : Strand) : (s.setStrand n v).addrs = s.addrs := by simp only [State.setStrand]
@[simp] theorem State.setStrand_qps (s : State) (n : Nat) (v : Strand) : (s.setStrand n v).qps = s.qps := by simp only [State.setStrand]
@[simp] theorem State.setStrand_hosts (s : State) (n : Nat) (v : Strand) : (s.setStrand n v).hosts = s.hosts := by simp only [State.setStrand]
@[simp] theorem State.setStrand_dp (s : State) (n : Nat) (v : Strand) : (s.setStrand n v).dp = s.dp := by simp only [State.setStrand]
@[simp] theorem State.setStrand_prot (s : State) (n : Nat) (v : Strand) : (s.setStrand n v).prot = s.prot := by simp only [State.setStrand]
@[simp] theorem State.setStrand_chains (s : State) (n : Nat) (v : Strand) : (s.setStrand n v).chains = s.chains := by simp only [State.setStrand]
@[simp] theorem State.setStrand_tier (s : State) (n : Nat) (v : Strand) : (s.setStrand n v).tier = s.tier := by simp only [State.setStrand]
@[simp] theorem State.setStrand_media (s : State) (n : Nat) (v : Strand) : (s.setStrand n v).media = s.media := by simp only [State.setStrand]
@[simp] theorem State.setStrand_dur (s : State) (n : Nat) (v : Strand) : (s.setStrand n v).dur = s.dur := by simp only [State.setStrand]
@[simp] theorem State.setStrand_pair (s : State) (n : Nat) (v : Strand) : (s.setStrand n v).pair = s.pair := by simp only [State.setStrand]
@[simp] theorem State.setStrand_pwr (s : State) (n : Nat) (v : Strand) : (s.setStrand n v).pwr = s.pwr := by simp only [State.setStrand]
@[simp] theorem State.setStrand_rec_ (s : State) (n : Nat) (v : Strand) : (s.setStrand n v).rec_ = s.rec_ := by simp only [State.setStrand]
@[simp] theorem State.setStrand_pmu (s : State) (n : Nat) (v : Strand) : (s.setStrand n v).pmu = s.pmu := by simp only [State.setStrand]
@[simp] theorem State.setStrand_smp (s : State) (n : Nat) (v : Strand) : (s.setStrand n v).smp = s.smp := by simp only [State.setStrand]
@[simp] theorem State.setStrand_boot (s : State) (n : Nat) (v : Strand) : (s.setStrand n v).boot = s.boot := by simp only [State.setStrand]
@[simp] theorem State.setStrand_cph (s : State) (n : Nat) (v : Strand) : (s.setStrand n v).cph = s.cph := by simp only [State.setStrand]
@[simp] theorem State.setStrand_ccx (s : State) (n : Nat) (v : Strand) : (s.setStrand n v).ccx = s.ccx := by simp only [State.setStrand]
@[simp] theorem State.setStrand_rails (s : State) (n : Nat) (v : Strand) : (s.setStrand n v).rails = s.rails := by simp only [State.setStrand]
@[simp] theorem State.setStrand_thm (s : State) (n : Nat) (v : Strand) : (s.setStrand n v).thm = s.thm := by simp only [State.setStrand]
@[simp] theorem State.setStrand_integ (s : State) (n : Nat) (v : Strand) : (s.setStrand n v).integ = s.integ := by simp only [State.setStrand]
@[simp] theorem State.setStrand_pending (s : State) (n : Nat) (v : Strand) : (s.setStrand n v).pending = s.pending := by simp only [State.setStrand]

@[simp] theorem State.modStrand_mono (s : State) (n : Nat) (f : Strand → Strand) : (s.modStrand n f).mono = s.mono := State.setStrand_mono _ _ _
@[simp] theorem State.modStrand_tbOff (s : State) (n : Nat) (f : Strand → Strand) : (s.modStrand n f).tbOff = s.tbOff := State.setStrand_tbOff _ _ _
@[simp] theorem State.modStrand_twinB (s : State) (n : Nat) (f : Strand → Strand) : (s.modStrand n f).twinB = s.twinB := State.setStrand_twinB _ _ _
@[simp] theorem State.modStrand_regs (s : State) (n : Nat) (f : Strand → Strand) : (s.modStrand n f).regs = s.regs := State.setStrand_regs _ _ _
@[simp] theorem State.modStrand_out (s : State) (n : Nat) (f : Strand → Strand) : (s.modStrand n f).out = s.out := State.setStrand_out _ _ _
@[simp] theorem State.modStrand_evInbox (s : State) (n : Nat) (f : Strand → Strand) : (s.modStrand n f).evInbox = s.evInbox := State.setStrand_evInbox _ _ _
@[simp] theorem State.modStrand_freeNext (s : State) (n : Nat) (f : Strand → Strand) : (s.modStrand n f).freeNext = s.freeNext := State.setStrand_freeNext _ _ _
@[simp] theorem State.modStrand_msixMask (s : State) (n : Nat) (f : Strand → Strand) : (s.modStrand n f).msixMask = s.msixMask := State.setStrand_msixMask _ _ _
@[simp] theorem State.modStrand_msixPend (s : State) (n : Nat) (f : Strand → Strand) : (s.modStrand n f).msixPend = s.msixPend := State.setStrand_msixPend _ _ _
@[simp] theorem State.modStrand_msixTab (s : State) (n : Nat) (f : Strand → Strand) : (s.modStrand n f).msixTab = s.msixTab := State.setStrand_msixTab _ _ _
@[simp] theorem State.modStrand_pcieUp (s : State) (n : Nat) (f : Strand → Strand) : (s.modStrand n f).pcieUp = s.pcieUp := State.setStrand_pcieUp _ _ _
@[simp] theorem State.modStrand_bellCount (s : State) (n : Nat) (f : Strand → Strand) : (s.modStrand n f).bellCount = s.bellCount := State.setStrand_bellCount _ _ _
@[simp] theorem State.modStrand_rqs (s : State) (n : Nat) (f : Strand → Strand) : (s.modStrand n f).rqs = s.rqs := State.setStrand_rqs _ _ _
@[simp] theorem State.modStrand_hearth (s : State) (n : Nat) (f : Strand → Strand) : (s.modStrand n f).hearth = s.hearth := State.setStrand_hearth _ _ _
@[simp] theorem State.modStrand_banks (s : State) (n : Nat) (f : Strand → Strand) : (s.modStrand n f).banks = s.banks := State.setStrand_banks _ _ _
@[simp] theorem State.modStrand_cache (s : State) (n : Nat) (f : Strand → Strand) : (s.modStrand n f).cache = s.cache := State.setStrand_cache _ _ _
@[simp] theorem State.modStrand_ports (s : State) (n : Nat) (f : Strand → Strand) : (s.modStrand n f).ports = s.ports := State.setStrand_ports _ _ _
@[simp] theorem State.modStrand_addrs (s : State) (n : Nat) (f : Strand → Strand) : (s.modStrand n f).addrs = s.addrs := State.setStrand_addrs _ _ _
@[simp] theorem State.modStrand_qps (s : State) (n : Nat) (f : Strand → Strand) : (s.modStrand n f).qps = s.qps := State.setStrand_qps _ _ _
@[simp] theorem State.modStrand_hosts (s : State) (n : Nat) (f : Strand → Strand) : (s.modStrand n f).hosts = s.hosts := State.setStrand_hosts _ _ _
@[simp] theorem State.modStrand_dp (s : State) (n : Nat) (f : Strand → Strand) : (s.modStrand n f).dp = s.dp := State.setStrand_dp _ _ _
@[simp] theorem State.modStrand_prot (s : State) (n : Nat) (f : Strand → Strand) : (s.modStrand n f).prot = s.prot := State.setStrand_prot _ _ _
@[simp] theorem State.modStrand_chains (s : State) (n : Nat) (f : Strand → Strand) : (s.modStrand n f).chains = s.chains := State.setStrand_chains _ _ _
@[simp] theorem State.modStrand_tier (s : State) (n : Nat) (f : Strand → Strand) : (s.modStrand n f).tier = s.tier := State.setStrand_tier _ _ _
@[simp] theorem State.modStrand_media (s : State) (n : Nat) (f : Strand → Strand) : (s.modStrand n f).media = s.media := State.setStrand_media _ _ _
@[simp] theorem State.modStrand_dur (s : State) (n : Nat) (f : Strand → Strand) : (s.modStrand n f).dur = s.dur := State.setStrand_dur _ _ _
@[simp] theorem State.modStrand_pair (s : State) (n : Nat) (f : Strand → Strand) : (s.modStrand n f).pair = s.pair := State.setStrand_pair _ _ _
@[simp] theorem State.modStrand_pwr (s : State) (n : Nat) (f : Strand → Strand) : (s.modStrand n f).pwr = s.pwr := State.setStrand_pwr _ _ _
@[simp] theorem State.modStrand_rec_ (s : State) (n : Nat) (f : Strand → Strand) : (s.modStrand n f).rec_ = s.rec_ := State.setStrand_rec_ _ _ _
@[simp] theorem State.modStrand_pmu (s : State) (n : Nat) (f : Strand → Strand) : (s.modStrand n f).pmu = s.pmu := State.setStrand_pmu _ _ _
@[simp] theorem State.modStrand_smp (s : State) (n : Nat) (f : Strand → Strand) : (s.modStrand n f).smp = s.smp := State.setStrand_smp _ _ _
@[simp] theorem State.modStrand_boot (s : State) (n : Nat) (f : Strand → Strand) : (s.modStrand n f).boot = s.boot := State.setStrand_boot _ _ _
@[simp] theorem State.modStrand_cph (s : State) (n : Nat) (f : Strand → Strand) : (s.modStrand n f).cph = s.cph := State.setStrand_cph _ _ _
@[simp] theorem State.modStrand_ccx (s : State) (n : Nat) (f : Strand → Strand) : (s.modStrand n f).ccx = s.ccx := State.setStrand_ccx _ _ _
@[simp] theorem State.modStrand_rails (s : State) (n : Nat) (f : Strand → Strand) : (s.modStrand n f).rails = s.rails := State.setStrand_rails _ _ _
@[simp] theorem State.modStrand_thm (s : State) (n : Nat) (f : Strand → Strand) : (s.modStrand n f).thm = s.thm := State.setStrand_thm _ _ _
@[simp] theorem State.modStrand_integ (s : State) (n : Nat) (f : Strand → Strand) : (s.modStrand n f).integ = s.integ := State.setStrand_integ _ _ _
@[simp] theorem State.modStrand_pending (s : State) (n : Nat) (f : Strand → Strand) : (s.modStrand n f).pending = s.pending := State.setStrand_pending _ _ _

@[simp] theorem State.setRq_mono (s : State) (q : Nat) (r : Rq) : (s.setRq q r).mono = s.mono := by simp only [State.setRq]
@[simp] theorem State.setRq_tbOff (s : State) (q : Nat) (r : Rq) : (s.setRq q r).tbOff = s.tbOff := by simp only [State.setRq]
@[simp] theorem State.setRq_twinB (s : State) (q : Nat) (r : Rq) : (s.setRq q r).twinB = s.twinB := by simp only [State.setRq]
@[simp] theorem State.setRq_regs (s : State) (q : Nat) (r : Rq) : (s.setRq q r).regs = s.regs := by simp only [State.setRq]
@[simp] theorem State.setRq_out (s : State) (q : Nat) (r : Rq) : (s.setRq q r).out = s.out := by simp only [State.setRq]
@[simp] theorem State.setRq_evInbox (s : State) (q : Nat) (r : Rq) : (s.setRq q r).evInbox = s.evInbox := by simp only [State.setRq]
@[simp] theorem State.setRq_freeNext (s : State) (q : Nat) (r : Rq) : (s.setRq q r).freeNext = s.freeNext := by simp only [State.setRq]
@[simp] theorem State.setRq_msixMask (s : State) (q : Nat) (r : Rq) : (s.setRq q r).msixMask = s.msixMask := by simp only [State.setRq]
@[simp] theorem State.setRq_msixPend (s : State) (q : Nat) (r : Rq) : (s.setRq q r).msixPend = s.msixPend := by simp only [State.setRq]
@[simp] theorem State.setRq_msixTab (s : State) (q : Nat) (r : Rq) : (s.setRq q r).msixTab = s.msixTab := by simp only [State.setRq]
@[simp] theorem State.setRq_pcieUp (s : State) (q : Nat) (r : Rq) : (s.setRq q r).pcieUp = s.pcieUp := by simp only [State.setRq]
@[simp] theorem State.setRq_bellCount (s : State) (q : Nat) (r : Rq) : (s.setRq q r).bellCount = s.bellCount := by simp only [State.setRq]
@[simp] theorem State.setRq_hearth (s : State) (q : Nat) (r : Rq) : (s.setRq q r).hearth = s.hearth := by simp only [State.setRq]
@[simp] theorem State.setRq_banks (s : State) (q : Nat) (r : Rq) : (s.setRq q r).banks = s.banks := by simp only [State.setRq]
@[simp] theorem State.setRq_cache (s : State) (q : Nat) (r : Rq) : (s.setRq q r).cache = s.cache := by simp only [State.setRq]
@[simp] theorem State.setRq_ports (s : State) (q : Nat) (r : Rq) : (s.setRq q r).ports = s.ports := by simp only [State.setRq]
@[simp] theorem State.setRq_addrs (s : State) (q : Nat) (r : Rq) : (s.setRq q r).addrs = s.addrs := by simp only [State.setRq]
@[simp] theorem State.setRq_qps (s : State) (q : Nat) (r : Rq) : (s.setRq q r).qps = s.qps := by simp only [State.setRq]
@[simp] theorem State.setRq_hosts (s : State) (q : Nat) (r : Rq) : (s.setRq q r).hosts = s.hosts := by simp only [State.setRq]
@[simp] theorem State.setRq_dp (s : State) (q : Nat) (r : Rq) : (s.setRq q r).dp = s.dp := by simp only [State.setRq]
@[simp] theorem State.setRq_prot (s : State) (q : Nat) (r : Rq) : (s.setRq q r).prot = s.prot := by simp only [State.setRq]
@[simp] theorem State.setRq_chains (s : State) (q : Nat) (r : Rq) : (s.setRq q r).chains = s.chains := by simp only [State.setRq]
@[simp] theorem State.setRq_tier (s : State) (q : Nat) (r : Rq) : (s.setRq q r).tier = s.tier := by simp only [State.setRq]
@[simp] theorem State.setRq_media (s : State) (q : Nat) (r : Rq) : (s.setRq q r).media = s.media := by simp only [State.setRq]
@[simp] theorem State.setRq_dur (s : State) (q : Nat) (r : Rq) : (s.setRq q r).dur = s.dur := by simp only [State.setRq]
@[simp] theorem State.setRq_pair (s : State) (q : Nat) (r : Rq) : (s.setRq q r).pair = s.pair := by simp only [State.setRq]
@[simp] theorem State.setRq_link (s : State) (q : Nat) (r : Rq) : (s.setRq q r).link = s.link := by simp only [State.setRq]
@[simp] theorem State.setRq_pwr (s : State) (q : Nat) (r : Rq) : (s.setRq q r).pwr = s.pwr := by simp only [State.setRq]
@[simp] theorem State.setRq_rec_ (s : State) (q : Nat) (r : Rq) : (s.setRq q r).rec_ = s.rec_ := by simp only [State.setRq]
@[simp] theorem State.setRq_pmu (s : State) (q : Nat) (r : Rq) : (s.setRq q r).pmu = s.pmu := by simp only [State.setRq]
@[simp] theorem State.setRq_smp (s : State) (q : Nat) (r : Rq) : (s.setRq q r).smp = s.smp := by simp only [State.setRq]
@[simp] theorem State.setRq_boot (s : State) (q : Nat) (r : Rq) : (s.setRq q r).boot = s.boot := by simp only [State.setRq]
@[simp] theorem State.setRq_cph (s : State) (q : Nat) (r : Rq) : (s.setRq q r).cph = s.cph := by simp only [State.setRq]
@[simp] theorem State.setRq_ccx (s : State) (q : Nat) (r : Rq) : (s.setRq q r).ccx = s.ccx := by simp only [State.setRq]
@[simp] theorem State.setRq_rails (s : State) (q : Nat) (r : Rq) : (s.setRq q r).rails = s.rails := by simp only [State.setRq]
@[simp] theorem State.setRq_thm (s : State) (q : Nat) (r : Rq) : (s.setRq q r).thm = s.thm := by simp only [State.setRq]
@[simp] theorem State.setRq_integ (s : State) (q : Nat) (r : Rq) : (s.setRq q r).integ = s.integ := by simp only [State.setRq]
@[simp] theorem State.setRq_pending (s : State) (q : Nat) (r : Rq) : (s.setRq q r).pending = s.pending := by simp only [State.setRq]

@[simp] theorem State.setChan_mono (s : State) (c : Nat) (v : Chan) : (s.setChan c v).mono = s.mono := by simp only [State.setChan]
@[simp] theorem State.setChan_tbOff (s : State) (c : Nat) (v : Chan) : (s.setChan c v).tbOff = s.tbOff := by simp only [State.setChan]
@[simp] theorem State.setChan_twinB (s : State) (c : Nat) (v : Chan) : (s.setChan c v).twinB = s.twinB := by simp only [State.setChan]
@[simp] theorem State.setChan_regs (s : State) (c : Nat) (v : Chan) : (s.setChan c v).regs = s.regs := by simp only [State.setChan]
@[simp] theorem State.setChan_out (s : State) (c : Nat) (v : Chan) : (s.setChan c v).out = s.out := by simp only [State.setChan]
@[simp] theorem State.setChan_evInbox (s : State) (c : Nat) (v : Chan) : (s.setChan c v).evInbox = s.evInbox := by simp only [State.setChan]
@[simp] theorem State.setChan_freeNext (s : State) (c : Nat) (v : Chan) : (s.setChan c v).freeNext = s.freeNext := by simp only [State.setChan]
@[simp] theorem State.setChan_msixMask (s : State) (c : Nat) (v : Chan) : (s.setChan c v).msixMask = s.msixMask := by simp only [State.setChan]
@[simp] theorem State.setChan_msixPend (s : State) (c : Nat) (v : Chan) : (s.setChan c v).msixPend = s.msixPend := by simp only [State.setChan]
@[simp] theorem State.setChan_msixTab (s : State) (c : Nat) (v : Chan) : (s.setChan c v).msixTab = s.msixTab := by simp only [State.setChan]
@[simp] theorem State.setChan_pcieUp (s : State) (c : Nat) (v : Chan) : (s.setChan c v).pcieUp = s.pcieUp := by simp only [State.setChan]
@[simp] theorem State.setChan_bellCount (s : State) (c : Nat) (v : Chan) : (s.setChan c v).bellCount = s.bellCount := by simp only [State.setChan]
@[simp] theorem State.setChan_rqs (s : State) (c : Nat) (v : Chan) : (s.setChan c v).rqs = s.rqs := by simp only [State.setChan]
@[simp] theorem State.setChan_hearth (s : State) (c : Nat) (v : Chan) : (s.setChan c v).hearth = s.hearth := by simp only [State.setChan]
@[simp] theorem State.setChan_banks (s : State) (c : Nat) (v : Chan) : (s.setChan c v).banks = s.banks := by simp only [State.setChan]
@[simp] theorem State.setChan_cache (s : State) (c : Nat) (v : Chan) : (s.setChan c v).cache = s.cache := by simp only [State.setChan]
@[simp] theorem State.setChan_ports (s : State) (c : Nat) (v : Chan) : (s.setChan c v).ports = s.ports := by simp only [State.setChan]
@[simp] theorem State.setChan_addrs (s : State) (c : Nat) (v : Chan) : (s.setChan c v).addrs = s.addrs := by simp only [State.setChan]
@[simp] theorem State.setChan_qps (s : State) (c : Nat) (v : Chan) : (s.setChan c v).qps = s.qps := by simp only [State.setChan]
@[simp] theorem State.setChan_hosts (s : State) (c : Nat) (v : Chan) : (s.setChan c v).hosts = s.hosts := by simp only [State.setChan]
@[simp] theorem State.setChan_dp (s : State) (c : Nat) (v : Chan) : (s.setChan c v).dp = s.dp := by simp only [State.setChan]
@[simp] theorem State.setChan_prot (s : State) (c : Nat) (v : Chan) : (s.setChan c v).prot = s.prot := by simp only [State.setChan]
@[simp] theorem State.setChan_chains (s : State) (c : Nat) (v : Chan) : (s.setChan c v).chains = s.chains := by simp only [State.setChan]
@[simp] theorem State.setChan_media (s : State) (c : Nat) (v : Chan) : (s.setChan c v).media = s.media := by simp only [State.setChan]
@[simp] theorem State.setChan_dur (s : State) (c : Nat) (v : Chan) : (s.setChan c v).dur = s.dur := by simp only [State.setChan]
@[simp] theorem State.setChan_pair (s : State) (c : Nat) (v : Chan) : (s.setChan c v).pair = s.pair := by simp only [State.setChan]
@[simp] theorem State.setChan_link (s : State) (c : Nat) (v : Chan) : (s.setChan c v).link = s.link := by simp only [State.setChan]
@[simp] theorem State.setChan_pwr (s : State) (c : Nat) (v : Chan) : (s.setChan c v).pwr = s.pwr := by simp only [State.setChan]
@[simp] theorem State.setChan_rec_ (s : State) (c : Nat) (v : Chan) : (s.setChan c v).rec_ = s.rec_ := by simp only [State.setChan]
@[simp] theorem State.setChan_pmu (s : State) (c : Nat) (v : Chan) : (s.setChan c v).pmu = s.pmu := by simp only [State.setChan]
@[simp] theorem State.setChan_smp (s : State) (c : Nat) (v : Chan) : (s.setChan c v).smp = s.smp := by simp only [State.setChan]
@[simp] theorem State.setChan_boot (s : State) (c : Nat) (v : Chan) : (s.setChan c v).boot = s.boot := by simp only [State.setChan]
@[simp] theorem State.setChan_cph (s : State) (c : Nat) (v : Chan) : (s.setChan c v).cph = s.cph := by simp only [State.setChan]
@[simp] theorem State.setChan_ccx (s : State) (c : Nat) (v : Chan) : (s.setChan c v).ccx = s.ccx := by simp only [State.setChan]
@[simp] theorem State.setChan_rails (s : State) (c : Nat) (v : Chan) : (s.setChan c v).rails = s.rails := by simp only [State.setChan]
@[simp] theorem State.setChan_thm (s : State) (c : Nat) (v : Chan) : (s.setChan c v).thm = s.thm := by simp only [State.setChan]
@[simp] theorem State.setChan_integ (s : State) (c : Nat) (v : Chan) : (s.setChan c v).integ = s.integ := by simp only [State.setChan]
@[simp] theorem State.setChan_pending (s : State) (c : Nat) (v : Chan) : (s.setChan c v).pending = s.pending := by simp only [State.setChan]

@[simp] theorem State.modChan_mono (s : State) (c : Nat) (f : Chan → Chan) : (s.modChan c f).mono = s.mono := State.setChan_mono _ _ _
@[simp] theorem State.modChan_tbOff (s : State) (c : Nat) (f : Chan → Chan) : (s.modChan c f).tbOff = s.tbOff := State.setChan_tbOff _ _ _
@[simp] theorem State.modChan_twinB (s : State) (c : Nat) (f : Chan → Chan) : (s.modChan c f).twinB = s.twinB := State.setChan_twinB _ _ _
@[simp] theorem State.modChan_regs (s : State) (c : Nat) (f : Chan → Chan) : (s.modChan c f).regs = s.regs := State.setChan_regs _ _ _
@[simp] theorem State.modChan_out (s : State) (c : Nat) (f : Chan → Chan) : (s.modChan c f).out = s.out := State.setChan_out _ _ _
@[simp] theorem State.modChan_evInbox (s : State) (c : Nat) (f : Chan → Chan) : (s.modChan c f).evInbox = s.evInbox := State.setChan_evInbox _ _ _
@[simp] theorem State.modChan_freeNext (s : State) (c : Nat) (f : Chan → Chan) : (s.modChan c f).freeNext = s.freeNext := State.setChan_freeNext _ _ _
@[simp] theorem State.modChan_msixMask (s : State) (c : Nat) (f : Chan → Chan) : (s.modChan c f).msixMask = s.msixMask := State.setChan_msixMask _ _ _
@[simp] theorem State.modChan_msixPend (s : State) (c : Nat) (f : Chan → Chan) : (s.modChan c f).msixPend = s.msixPend := State.setChan_msixPend _ _ _
@[simp] theorem State.modChan_msixTab (s : State) (c : Nat) (f : Chan → Chan) : (s.modChan c f).msixTab = s.msixTab := State.setChan_msixTab _ _ _
@[simp] theorem State.modChan_pcieUp (s : State) (c : Nat) (f : Chan → Chan) : (s.modChan c f).pcieUp = s.pcieUp := State.setChan_pcieUp _ _ _
@[simp] theorem State.modChan_bellCount (s : State) (c : Nat) (f : Chan → Chan) : (s.modChan c f).bellCount = s.bellCount := State.setChan_bellCount _ _ _
@[simp] theorem State.modChan_rqs (s : State) (c : Nat) (f : Chan → Chan) : (s.modChan c f).rqs = s.rqs := State.setChan_rqs _ _ _
@[simp] theorem State.modChan_hearth (s : State) (c : Nat) (f : Chan → Chan) : (s.modChan c f).hearth = s.hearth := State.setChan_hearth _ _ _
@[simp] theorem State.modChan_banks (s : State) (c : Nat) (f : Chan → Chan) : (s.modChan c f).banks = s.banks := State.setChan_banks _ _ _
@[simp] theorem State.modChan_cache (s : State) (c : Nat) (f : Chan → Chan) : (s.modChan c f).cache = s.cache := State.setChan_cache _ _ _
@[simp] theorem State.modChan_ports (s : State) (c : Nat) (f : Chan → Chan) : (s.modChan c f).ports = s.ports := State.setChan_ports _ _ _
@[simp] theorem State.modChan_addrs (s : State) (c : Nat) (f : Chan → Chan) : (s.modChan c f).addrs = s.addrs := State.setChan_addrs _ _ _
@[simp] theorem State.modChan_qps (s : State) (c : Nat) (f : Chan → Chan) : (s.modChan c f).qps = s.qps := State.setChan_qps _ _ _
@[simp] theorem State.modChan_hosts (s : State) (c : Nat) (f : Chan → Chan) : (s.modChan c f).hosts = s.hosts := State.setChan_hosts _ _ _
@[simp] theorem State.modChan_dp (s : State) (c : Nat) (f : Chan → Chan) : (s.modChan c f).dp = s.dp := State.setChan_dp _ _ _
@[simp] theorem State.modChan_prot (s : State) (c : Nat) (f : Chan → Chan) : (s.modChan c f).prot = s.prot := State.setChan_prot _ _ _
@[simp] theorem State.modChan_chains (s : State) (c : Nat) (f : Chan → Chan) : (s.modChan c f).chains = s.chains := State.setChan_chains _ _ _
@[simp] theorem State.modChan_media (s : State) (c : Nat) (f : Chan → Chan) : (s.modChan c f).media = s.media := State.setChan_media _ _ _
@[simp] theorem State.modChan_dur (s : State) (c : Nat) (f : Chan → Chan) : (s.modChan c f).dur = s.dur := State.setChan_dur _ _ _
@[simp] theorem State.modChan_pair (s : State) (c : Nat) (f : Chan → Chan) : (s.modChan c f).pair = s.pair := State.setChan_pair _ _ _
@[simp] theorem State.modChan_link (s : State) (c : Nat) (f : Chan → Chan) : (s.modChan c f).link = s.link := State.setChan_link _ _ _
@[simp] theorem State.modChan_pwr (s : State) (c : Nat) (f : Chan → Chan) : (s.modChan c f).pwr = s.pwr := State.setChan_pwr _ _ _
@[simp] theorem State.modChan_rec_ (s : State) (c : Nat) (f : Chan → Chan) : (s.modChan c f).rec_ = s.rec_ := State.setChan_rec_ _ _ _
@[simp] theorem State.modChan_pmu (s : State) (c : Nat) (f : Chan → Chan) : (s.modChan c f).pmu = s.pmu := State.setChan_pmu _ _ _
@[simp] theorem State.modChan_smp (s : State) (c : Nat) (f : Chan → Chan) : (s.modChan c f).smp = s.smp := State.setChan_smp _ _ _
@[simp] theorem State.modChan_boot (s : State) (c : Nat) (f : Chan → Chan) : (s.modChan c f).boot = s.boot := State.setChan_boot _ _ _
@[simp] theorem State.modChan_cph (s : State) (c : Nat) (f : Chan → Chan) : (s.modChan c f).cph = s.cph := State.setChan_cph _ _ _
@[simp] theorem State.modChan_ccx (s : State) (c : Nat) (f : Chan → Chan) : (s.modChan c f).ccx = s.ccx := State.setChan_ccx _ _ _
@[simp] theorem State.modChan_rails (s : State) (c : Nat) (f : Chan → Chan) : (s.modChan c f).rails = s.rails := State.setChan_rails _ _ _
@[simp] theorem State.modChan_thm (s : State) (c : Nat) (f : Chan → Chan) : (s.modChan c f).thm = s.thm := State.setChan_thm _ _ _
@[simp] theorem State.modChan_integ (s : State) (c : Nat) (f : Chan → Chan) : (s.modChan c f).integ = s.integ := State.setChan_integ _ _ _
@[simp] theorem State.modChan_pending (s : State) (c : Nat) (f : Chan → Chan) : (s.modChan c f).pending = s.pending := State.setChan_pending _ _ _

@[simp] theorem State.setSb_mono (s : State) (k : Nat) (v : Sb) : (s.setSb k v).mono = s.mono := by simp only [State.setSb]
@[simp] theorem State.setSb_tbOff (s : State) (k : Nat) (v : Sb) : (s.setSb k v).tbOff = s.tbOff := by simp only [State.setSb]
@[simp] theorem State.setSb_twinB (s : State) (k : Nat) (v : Sb) : (s.setSb k v).twinB = s.twinB := by simp only [State.setSb]
@[simp] theorem State.setSb_regs (s : State) (k : Nat) (v : Sb) : (s.setSb k v).regs = s.regs := by simp only [State.setSb]
@[simp] theorem State.setSb_out (s : State) (k : Nat) (v : Sb) : (s.setSb k v).out = s.out := by simp only [State.setSb]
@[simp] theorem State.setSb_evInbox (s : State) (k : Nat) (v : Sb) : (s.setSb k v).evInbox = s.evInbox := by simp only [State.setSb]
@[simp] theorem State.setSb_freeNext (s : State) (k : Nat) (v : Sb) : (s.setSb k v).freeNext = s.freeNext := by simp only [State.setSb]
@[simp] theorem State.setSb_msixMask (s : State) (k : Nat) (v : Sb) : (s.setSb k v).msixMask = s.msixMask := by simp only [State.setSb]
@[simp] theorem State.setSb_msixPend (s : State) (k : Nat) (v : Sb) : (s.setSb k v).msixPend = s.msixPend := by simp only [State.setSb]
@[simp] theorem State.setSb_msixTab (s : State) (k : Nat) (v : Sb) : (s.setSb k v).msixTab = s.msixTab := by simp only [State.setSb]
@[simp] theorem State.setSb_pcieUp (s : State) (k : Nat) (v : Sb) : (s.setSb k v).pcieUp = s.pcieUp := by simp only [State.setSb]
@[simp] theorem State.setSb_bellCount (s : State) (k : Nat) (v : Sb) : (s.setSb k v).bellCount = s.bellCount := by simp only [State.setSb]
@[simp] theorem State.setSb_rqs (s : State) (k : Nat) (v : Sb) : (s.setSb k v).rqs = s.rqs := by simp only [State.setSb]
@[simp] theorem State.setSb_hearth (s : State) (k : Nat) (v : Sb) : (s.setSb k v).hearth = s.hearth := by simp only [State.setSb]
@[simp] theorem State.setSb_banks (s : State) (k : Nat) (v : Sb) : (s.setSb k v).banks = s.banks := by simp only [State.setSb]
@[simp] theorem State.setSb_cache (s : State) (k : Nat) (v : Sb) : (s.setSb k v).cache = s.cache := by simp only [State.setSb]
@[simp] theorem State.setSb_ports (s : State) (k : Nat) (v : Sb) : (s.setSb k v).ports = s.ports := by simp only [State.setSb]
@[simp] theorem State.setSb_addrs (s : State) (k : Nat) (v : Sb) : (s.setSb k v).addrs = s.addrs := by simp only [State.setSb]
@[simp] theorem State.setSb_qps (s : State) (k : Nat) (v : Sb) : (s.setSb k v).qps = s.qps := by simp only [State.setSb]
@[simp] theorem State.setSb_hosts (s : State) (k : Nat) (v : Sb) : (s.setSb k v).hosts = s.hosts := by simp only [State.setSb]
@[simp] theorem State.setSb_dp (s : State) (k : Nat) (v : Sb) : (s.setSb k v).dp = s.dp := by simp only [State.setSb]
@[simp] theorem State.setSb_prot (s : State) (k : Nat) (v : Sb) : (s.setSb k v).prot = s.prot := by simp only [State.setSb]
@[simp] theorem State.setSb_chains (s : State) (k : Nat) (v : Sb) : (s.setSb k v).chains = s.chains := by simp only [State.setSb]
@[simp] theorem State.setSb_tier (s : State) (k : Nat) (v : Sb) : (s.setSb k v).tier = s.tier := by simp only [State.setSb]
@[simp] theorem State.setSb_dur (s : State) (k : Nat) (v : Sb) : (s.setSb k v).dur = s.dur := by simp only [State.setSb]
@[simp] theorem State.setSb_pair (s : State) (k : Nat) (v : Sb) : (s.setSb k v).pair = s.pair := by simp only [State.setSb]
@[simp] theorem State.setSb_link (s : State) (k : Nat) (v : Sb) : (s.setSb k v).link = s.link := by simp only [State.setSb]
@[simp] theorem State.setSb_pwr (s : State) (k : Nat) (v : Sb) : (s.setSb k v).pwr = s.pwr := by simp only [State.setSb]
@[simp] theorem State.setSb_rec_ (s : State) (k : Nat) (v : Sb) : (s.setSb k v).rec_ = s.rec_ := by simp only [State.setSb]
@[simp] theorem State.setSb_pmu (s : State) (k : Nat) (v : Sb) : (s.setSb k v).pmu = s.pmu := by simp only [State.setSb]
@[simp] theorem State.setSb_smp (s : State) (k : Nat) (v : Sb) : (s.setSb k v).smp = s.smp := by simp only [State.setSb]
@[simp] theorem State.setSb_boot (s : State) (k : Nat) (v : Sb) : (s.setSb k v).boot = s.boot := by simp only [State.setSb]
@[simp] theorem State.setSb_cph (s : State) (k : Nat) (v : Sb) : (s.setSb k v).cph = s.cph := by simp only [State.setSb]
@[simp] theorem State.setSb_ccx (s : State) (k : Nat) (v : Sb) : (s.setSb k v).ccx = s.ccx := by simp only [State.setSb]
@[simp] theorem State.setSb_rails (s : State) (k : Nat) (v : Sb) : (s.setSb k v).rails = s.rails := by simp only [State.setSb]
@[simp] theorem State.setSb_thm (s : State) (k : Nat) (v : Sb) : (s.setSb k v).thm = s.thm := by simp only [State.setSb]
@[simp] theorem State.setSb_integ (s : State) (k : Nat) (v : Sb) : (s.setSb k v).integ = s.integ := by simp only [State.setSb]
@[simp] theorem State.setSb_pending (s : State) (k : Nat) (v : Sb) : (s.setSb k v).pending = s.pending := by simp only [State.setSb]

@[simp] theorem State.modStat_mono (s : State) (c d : Nat) (f : DieStat → DieStat) : (s.modStat c d f).mono = s.mono := by simp only [State.modStat]
@[simp] theorem State.modStat_tbOff (s : State) (c d : Nat) (f : DieStat → DieStat) : (s.modStat c d f).tbOff = s.tbOff := by simp only [State.modStat]
@[simp] theorem State.modStat_twinB (s : State) (c d : Nat) (f : DieStat → DieStat) : (s.modStat c d f).twinB = s.twinB := by simp only [State.modStat]
@[simp] theorem State.modStat_regs (s : State) (c d : Nat) (f : DieStat → DieStat) : (s.modStat c d f).regs = s.regs := by simp only [State.modStat]
@[simp] theorem State.modStat_out (s : State) (c d : Nat) (f : DieStat → DieStat) : (s.modStat c d f).out = s.out := by simp only [State.modStat]
@[simp] theorem State.modStat_evInbox (s : State) (c d : Nat) (f : DieStat → DieStat) : (s.modStat c d f).evInbox = s.evInbox := by simp only [State.modStat]
@[simp] theorem State.modStat_freeNext (s : State) (c d : Nat) (f : DieStat → DieStat) : (s.modStat c d f).freeNext = s.freeNext := by simp only [State.modStat]
@[simp] theorem State.modStat_msixMask (s : State) (c d : Nat) (f : DieStat → DieStat) : (s.modStat c d f).msixMask = s.msixMask := by simp only [State.modStat]
@[simp] theorem State.modStat_msixPend (s : State) (c d : Nat) (f : DieStat → DieStat) : (s.modStat c d f).msixPend = s.msixPend := by simp only [State.modStat]
@[simp] theorem State.modStat_msixTab (s : State) (c d : Nat) (f : DieStat → DieStat) : (s.modStat c d f).msixTab = s.msixTab := by simp only [State.modStat]
@[simp] theorem State.modStat_pcieUp (s : State) (c d : Nat) (f : DieStat → DieStat) : (s.modStat c d f).pcieUp = s.pcieUp := by simp only [State.modStat]
@[simp] theorem State.modStat_bellCount (s : State) (c d : Nat) (f : DieStat → DieStat) : (s.modStat c d f).bellCount = s.bellCount := by simp only [State.modStat]
@[simp] theorem State.modStat_rqs (s : State) (c d : Nat) (f : DieStat → DieStat) : (s.modStat c d f).rqs = s.rqs := by simp only [State.modStat]
@[simp] theorem State.modStat_hearth (s : State) (c d : Nat) (f : DieStat → DieStat) : (s.modStat c d f).hearth = s.hearth := by simp only [State.modStat]
@[simp] theorem State.modStat_banks (s : State) (c d : Nat) (f : DieStat → DieStat) : (s.modStat c d f).banks = s.banks := by simp only [State.modStat]
@[simp] theorem State.modStat_cache (s : State) (c d : Nat) (f : DieStat → DieStat) : (s.modStat c d f).cache = s.cache := by simp only [State.modStat]
@[simp] theorem State.modStat_ports (s : State) (c d : Nat) (f : DieStat → DieStat) : (s.modStat c d f).ports = s.ports := by simp only [State.modStat]
@[simp] theorem State.modStat_addrs (s : State) (c d : Nat) (f : DieStat → DieStat) : (s.modStat c d f).addrs = s.addrs := by simp only [State.modStat]
@[simp] theorem State.modStat_qps (s : State) (c d : Nat) (f : DieStat → DieStat) : (s.modStat c d f).qps = s.qps := by simp only [State.modStat]
@[simp] theorem State.modStat_hosts (s : State) (c d : Nat) (f : DieStat → DieStat) : (s.modStat c d f).hosts = s.hosts := by simp only [State.modStat]
@[simp] theorem State.modStat_dp (s : State) (c d : Nat) (f : DieStat → DieStat) : (s.modStat c d f).dp = s.dp := by simp only [State.modStat]
@[simp] theorem State.modStat_prot (s : State) (c d : Nat) (f : DieStat → DieStat) : (s.modStat c d f).prot = s.prot := by simp only [State.modStat]
@[simp] theorem State.modStat_chains (s : State) (c d : Nat) (f : DieStat → DieStat) : (s.modStat c d f).chains = s.chains := by simp only [State.modStat]
@[simp] theorem State.modStat_tier (s : State) (c d : Nat) (f : DieStat → DieStat) : (s.modStat c d f).tier = s.tier := by simp only [State.modStat]
@[simp] theorem State.modStat_dur (s : State) (c d : Nat) (f : DieStat → DieStat) : (s.modStat c d f).dur = s.dur := by simp only [State.modStat]
@[simp] theorem State.modStat_pair (s : State) (c d : Nat) (f : DieStat → DieStat) : (s.modStat c d f).pair = s.pair := by simp only [State.modStat]
@[simp] theorem State.modStat_link (s : State) (c d : Nat) (f : DieStat → DieStat) : (s.modStat c d f).link = s.link := by simp only [State.modStat]
@[simp] theorem State.modStat_pwr (s : State) (c d : Nat) (f : DieStat → DieStat) : (s.modStat c d f).pwr = s.pwr := by simp only [State.modStat]
@[simp] theorem State.modStat_rec_ (s : State) (c d : Nat) (f : DieStat → DieStat) : (s.modStat c d f).rec_ = s.rec_ := by simp only [State.modStat]
@[simp] theorem State.modStat_pmu (s : State) (c d : Nat) (f : DieStat → DieStat) : (s.modStat c d f).pmu = s.pmu := by simp only [State.modStat]
@[simp] theorem State.modStat_smp (s : State) (c d : Nat) (f : DieStat → DieStat) : (s.modStat c d f).smp = s.smp := by simp only [State.modStat]
@[simp] theorem State.modStat_boot (s : State) (c d : Nat) (f : DieStat → DieStat) : (s.modStat c d f).boot = s.boot := by simp only [State.modStat]
@[simp] theorem State.modStat_cph (s : State) (c d : Nat) (f : DieStat → DieStat) : (s.modStat c d f).cph = s.cph := by simp only [State.modStat]
@[simp] theorem State.modStat_ccx (s : State) (c d : Nat) (f : DieStat → DieStat) : (s.modStat c d f).ccx = s.ccx := by simp only [State.modStat]
@[simp] theorem State.modStat_rails (s : State) (c d : Nat) (f : DieStat → DieStat) : (s.modStat c d f).rails = s.rails := by simp only [State.modStat]
@[simp] theorem State.modStat_thm (s : State) (c d : Nat) (f : DieStat → DieStat) : (s.modStat c d f).thm = s.thm := by simp only [State.modStat]
@[simp] theorem State.modStat_integ (s : State) (c d : Nat) (f : DieStat → DieStat) : (s.modStat c d f).integ = s.integ := by simp only [State.modStat]
@[simp] theorem State.modStat_pending (s : State) (c d : Nat) (f : DieStat → DieStat) : (s.modStat c d f).pending = s.pending := by simp only [State.modStat]

@[simp] theorem State.setKeySlot_mono (s : State) (n : Nat) (k : KeySlot) : (s.setKeySlot n k).mono = s.mono := by simp only [State.setKeySlot]
@[simp] theorem State.setKeySlot_tbOff (s : State) (n : Nat) (k : KeySlot) : (s.setKeySlot n k).tbOff = s.tbOff := by simp only [State.setKeySlot]
@[simp] theorem State.setKeySlot_twinB (s : State) (n : Nat) (k : KeySlot) : (s.setKeySlot n k).twinB = s.twinB := by simp only [State.setKeySlot]
@[simp] theorem State.setKeySlot_regs (s : State) (n : Nat) (k : KeySlot) : (s.setKeySlot n k).regs = s.regs := by simp only [State.setKeySlot]
@[simp] theorem State.setKeySlot_out (s : State) (n : Nat) (k : KeySlot) : (s.setKeySlot n k).out = s.out := by simp only [State.setKeySlot]
@[simp] theorem State.setKeySlot_evInbox (s : State) (n : Nat) (k : KeySlot) : (s.setKeySlot n k).evInbox = s.evInbox := by simp only [State.setKeySlot]
@[simp] theorem State.setKeySlot_freeNext (s : State) (n : Nat) (k : KeySlot) : (s.setKeySlot n k).freeNext = s.freeNext := by simp only [State.setKeySlot]
@[simp] theorem State.setKeySlot_msixMask (s : State) (n : Nat) (k : KeySlot) : (s.setKeySlot n k).msixMask = s.msixMask := by simp only [State.setKeySlot]
@[simp] theorem State.setKeySlot_msixPend (s : State) (n : Nat) (k : KeySlot) : (s.setKeySlot n k).msixPend = s.msixPend := by simp only [State.setKeySlot]
@[simp] theorem State.setKeySlot_msixTab (s : State) (n : Nat) (k : KeySlot) : (s.setKeySlot n k).msixTab = s.msixTab := by simp only [State.setKeySlot]
@[simp] theorem State.setKeySlot_pcieUp (s : State) (n : Nat) (k : KeySlot) : (s.setKeySlot n k).pcieUp = s.pcieUp := by simp only [State.setKeySlot]
@[simp] theorem State.setKeySlot_bellCount (s : State) (n : Nat) (k : KeySlot) : (s.setKeySlot n k).bellCount = s.bellCount := by simp only [State.setKeySlot]
@[simp] theorem State.setKeySlot_rqs (s : State) (n : Nat) (k : KeySlot) : (s.setKeySlot n k).rqs = s.rqs := by simp only [State.setKeySlot]
@[simp] theorem State.setKeySlot_hearth (s : State) (n : Nat) (k : KeySlot) : (s.setKeySlot n k).hearth = s.hearth := by simp only [State.setKeySlot]
@[simp] theorem State.setKeySlot_banks (s : State) (n : Nat) (k : KeySlot) : (s.setKeySlot n k).banks = s.banks := by simp only [State.setKeySlot]
@[simp] theorem State.setKeySlot_cache (s : State) (n : Nat) (k : KeySlot) : (s.setKeySlot n k).cache = s.cache := by simp only [State.setKeySlot]
@[simp] theorem State.setKeySlot_ports (s : State) (n : Nat) (k : KeySlot) : (s.setKeySlot n k).ports = s.ports := by simp only [State.setKeySlot]
@[simp] theorem State.setKeySlot_addrs (s : State) (n : Nat) (k : KeySlot) : (s.setKeySlot n k).addrs = s.addrs := by simp only [State.setKeySlot]
@[simp] theorem State.setKeySlot_qps (s : State) (n : Nat) (k : KeySlot) : (s.setKeySlot n k).qps = s.qps := by simp only [State.setKeySlot]
@[simp] theorem State.setKeySlot_hosts (s : State) (n : Nat) (k : KeySlot) : (s.setKeySlot n k).hosts = s.hosts := by simp only [State.setKeySlot]
@[simp] theorem State.setKeySlot_dp (s : State) (n : Nat) (k : KeySlot) : (s.setKeySlot n k).dp = s.dp := by simp only [State.setKeySlot]
@[simp] theorem State.setKeySlot_prot (s : State) (n : Nat) (k : KeySlot) : (s.setKeySlot n k).prot = s.prot := by simp only [State.setKeySlot]
@[simp] theorem State.setKeySlot_chains (s : State) (n : Nat) (k : KeySlot) : (s.setKeySlot n k).chains = s.chains := by simp only [State.setKeySlot]
@[simp] theorem State.setKeySlot_tier (s : State) (n : Nat) (k : KeySlot) : (s.setKeySlot n k).tier = s.tier := by simp only [State.setKeySlot]
@[simp] theorem State.setKeySlot_media (s : State) (n : Nat) (k : KeySlot) : (s.setKeySlot n k).media = s.media := by simp only [State.setKeySlot]
@[simp] theorem State.setKeySlot_dur (s : State) (n : Nat) (k : KeySlot) : (s.setKeySlot n k).dur = s.dur := by simp only [State.setKeySlot]
@[simp] theorem State.setKeySlot_pair (s : State) (n : Nat) (k : KeySlot) : (s.setKeySlot n k).pair = s.pair := by simp only [State.setKeySlot]
@[simp] theorem State.setKeySlot_link (s : State) (n : Nat) (k : KeySlot) : (s.setKeySlot n k).link = s.link := by simp only [State.setKeySlot]
@[simp] theorem State.setKeySlot_pwr (s : State) (n : Nat) (k : KeySlot) : (s.setKeySlot n k).pwr = s.pwr := by simp only [State.setKeySlot]
@[simp] theorem State.setKeySlot_rec_ (s : State) (n : Nat) (k : KeySlot) : (s.setKeySlot n k).rec_ = s.rec_ := by simp only [State.setKeySlot]
@[simp] theorem State.setKeySlot_pmu (s : State) (n : Nat) (k : KeySlot) : (s.setKeySlot n k).pmu = s.pmu := by simp only [State.setKeySlot]
@[simp] theorem State.setKeySlot_smp (s : State) (n : Nat) (k : KeySlot) : (s.setKeySlot n k).smp = s.smp := by simp only [State.setKeySlot]
@[simp] theorem State.setKeySlot_boot (s : State) (n : Nat) (k : KeySlot) : (s.setKeySlot n k).boot = s.boot := by simp only [State.setKeySlot]
@[simp] theorem State.setKeySlot_ccx (s : State) (n : Nat) (k : KeySlot) : (s.setKeySlot n k).ccx = s.ccx := by simp only [State.setKeySlot]
@[simp] theorem State.setKeySlot_rails (s : State) (n : Nat) (k : KeySlot) : (s.setKeySlot n k).rails = s.rails := by simp only [State.setKeySlot]
@[simp] theorem State.setKeySlot_thm (s : State) (n : Nat) (k : KeySlot) : (s.setKeySlot n k).thm = s.thm := by simp only [State.setKeySlot]
@[simp] theorem State.setKeySlot_integ (s : State) (n : Nat) (k : KeySlot) : (s.setKeySlot n k).integ = s.integ := by simp only [State.setKeySlot]
@[simp] theorem State.setKeySlot_pending (s : State) (n : Nat) (k : KeySlot) : (s.setKeySlot n k).pending = s.pending := by simp only [State.setKeySlot]

@[simp] theorem State.setKey_mono (s : State) (k : Nat) (e : Key) : (s.setKey k e).mono = s.mono := by simp only [State.setKey]
@[simp] theorem State.setKey_tbOff (s : State) (k : Nat) (e : Key) : (s.setKey k e).tbOff = s.tbOff := by simp only [State.setKey]
@[simp] theorem State.setKey_twinB (s : State) (k : Nat) (e : Key) : (s.setKey k e).twinB = s.twinB := by simp only [State.setKey]
@[simp] theorem State.setKey_regs (s : State) (k : Nat) (e : Key) : (s.setKey k e).regs = s.regs := by simp only [State.setKey]
@[simp] theorem State.setKey_out (s : State) (k : Nat) (e : Key) : (s.setKey k e).out = s.out := by simp only [State.setKey]
@[simp] theorem State.setKey_evInbox (s : State) (k : Nat) (e : Key) : (s.setKey k e).evInbox = s.evInbox := by simp only [State.setKey]
@[simp] theorem State.setKey_freeNext (s : State) (k : Nat) (e : Key) : (s.setKey k e).freeNext = s.freeNext := by simp only [State.setKey]
@[simp] theorem State.setKey_msixMask (s : State) (k : Nat) (e : Key) : (s.setKey k e).msixMask = s.msixMask := by simp only [State.setKey]
@[simp] theorem State.setKey_msixPend (s : State) (k : Nat) (e : Key) : (s.setKey k e).msixPend = s.msixPend := by simp only [State.setKey]
@[simp] theorem State.setKey_msixTab (s : State) (k : Nat) (e : Key) : (s.setKey k e).msixTab = s.msixTab := by simp only [State.setKey]
@[simp] theorem State.setKey_pcieUp (s : State) (k : Nat) (e : Key) : (s.setKey k e).pcieUp = s.pcieUp := by simp only [State.setKey]
@[simp] theorem State.setKey_bellCount (s : State) (k : Nat) (e : Key) : (s.setKey k e).bellCount = s.bellCount := by simp only [State.setKey]
@[simp] theorem State.setKey_rqs (s : State) (k : Nat) (e : Key) : (s.setKey k e).rqs = s.rqs := by simp only [State.setKey]
@[simp] theorem State.setKey_hearth (s : State) (k : Nat) (e : Key) : (s.setKey k e).hearth = s.hearth := by simp only [State.setKey]
@[simp] theorem State.setKey_banks (s : State) (k : Nat) (e : Key) : (s.setKey k e).banks = s.banks := by simp only [State.setKey]
@[simp] theorem State.setKey_cache (s : State) (k : Nat) (e : Key) : (s.setKey k e).cache = s.cache := by simp only [State.setKey]
@[simp] theorem State.setKey_ports (s : State) (k : Nat) (e : Key) : (s.setKey k e).ports = s.ports := by simp only [State.setKey]
@[simp] theorem State.setKey_addrs (s : State) (k : Nat) (e : Key) : (s.setKey k e).addrs = s.addrs := by simp only [State.setKey]
@[simp] theorem State.setKey_qps (s : State) (k : Nat) (e : Key) : (s.setKey k e).qps = s.qps := by simp only [State.setKey]
@[simp] theorem State.setKey_hosts (s : State) (k : Nat) (e : Key) : (s.setKey k e).hosts = s.hosts := by simp only [State.setKey]
@[simp] theorem State.setKey_dp (s : State) (k : Nat) (e : Key) : (s.setKey k e).dp = s.dp := by simp only [State.setKey]
@[simp] theorem State.setKey_chains (s : State) (k : Nat) (e : Key) : (s.setKey k e).chains = s.chains := by simp only [State.setKey]
@[simp] theorem State.setKey_tier (s : State) (k : Nat) (e : Key) : (s.setKey k e).tier = s.tier := by simp only [State.setKey]
@[simp] theorem State.setKey_media (s : State) (k : Nat) (e : Key) : (s.setKey k e).media = s.media := by simp only [State.setKey]
@[simp] theorem State.setKey_dur (s : State) (k : Nat) (e : Key) : (s.setKey k e).dur = s.dur := by simp only [State.setKey]
@[simp] theorem State.setKey_pair (s : State) (k : Nat) (e : Key) : (s.setKey k e).pair = s.pair := by simp only [State.setKey]
@[simp] theorem State.setKey_link (s : State) (k : Nat) (e : Key) : (s.setKey k e).link = s.link := by simp only [State.setKey]
@[simp] theorem State.setKey_pwr (s : State) (k : Nat) (e : Key) : (s.setKey k e).pwr = s.pwr := by simp only [State.setKey]
@[simp] theorem State.setKey_rec_ (s : State) (k : Nat) (e : Key) : (s.setKey k e).rec_ = s.rec_ := by simp only [State.setKey]
@[simp] theorem State.setKey_pmu (s : State) (k : Nat) (e : Key) : (s.setKey k e).pmu = s.pmu := by simp only [State.setKey]
@[simp] theorem State.setKey_smp (s : State) (k : Nat) (e : Key) : (s.setKey k e).smp = s.smp := by simp only [State.setKey]
@[simp] theorem State.setKey_boot (s : State) (k : Nat) (e : Key) : (s.setKey k e).boot = s.boot := by simp only [State.setKey]
@[simp] theorem State.setKey_cph (s : State) (k : Nat) (e : Key) : (s.setKey k e).cph = s.cph := by simp only [State.setKey]
@[simp] theorem State.setKey_ccx (s : State) (k : Nat) (e : Key) : (s.setKey k e).ccx = s.ccx := by simp only [State.setKey]
@[simp] theorem State.setKey_rails (s : State) (k : Nat) (e : Key) : (s.setKey k e).rails = s.rails := by simp only [State.setKey]
@[simp] theorem State.setKey_thm (s : State) (k : Nat) (e : Key) : (s.setKey k e).thm = s.thm := by simp only [State.setKey]
@[simp] theorem State.setKey_integ (s : State) (k : Nat) (e : Key) : (s.setKey k e).integ = s.integ := by simp only [State.setKey]
@[simp] theorem State.setKey_pending (s : State) (k : Nat) (e : Key) : (s.setKey k e).pending = s.pending := by simp only [State.setKey]

@[simp] theorem State.setRegion_mono (s : State) (r : Nat) (v : Region) : (s.setRegion r v).mono = s.mono := by simp only [State.setRegion]
@[simp] theorem State.setRegion_tbOff (s : State) (r : Nat) (v : Region) : (s.setRegion r v).tbOff = s.tbOff := by simp only [State.setRegion]
@[simp] theorem State.setRegion_twinB (s : State) (r : Nat) (v : Region) : (s.setRegion r v).twinB = s.twinB := by simp only [State.setRegion]
@[simp] theorem State.setRegion_regs (s : State) (r : Nat) (v : Region) : (s.setRegion r v).regs = s.regs := by simp only [State.setRegion]
@[simp] theorem State.setRegion_out (s : State) (r : Nat) (v : Region) : (s.setRegion r v).out = s.out := by simp only [State.setRegion]
@[simp] theorem State.setRegion_evInbox (s : State) (r : Nat) (v : Region) : (s.setRegion r v).evInbox = s.evInbox := by simp only [State.setRegion]
@[simp] theorem State.setRegion_freeNext (s : State) (r : Nat) (v : Region) : (s.setRegion r v).freeNext = s.freeNext := by simp only [State.setRegion]
@[simp] theorem State.setRegion_msixMask (s : State) (r : Nat) (v : Region) : (s.setRegion r v).msixMask = s.msixMask := by simp only [State.setRegion]
@[simp] theorem State.setRegion_msixPend (s : State) (r : Nat) (v : Region) : (s.setRegion r v).msixPend = s.msixPend := by simp only [State.setRegion]
@[simp] theorem State.setRegion_msixTab (s : State) (r : Nat) (v : Region) : (s.setRegion r v).msixTab = s.msixTab := by simp only [State.setRegion]
@[simp] theorem State.setRegion_pcieUp (s : State) (r : Nat) (v : Region) : (s.setRegion r v).pcieUp = s.pcieUp := by simp only [State.setRegion]
@[simp] theorem State.setRegion_bellCount (s : State) (r : Nat) (v : Region) : (s.setRegion r v).bellCount = s.bellCount := by simp only [State.setRegion]
@[simp] theorem State.setRegion_rqs (s : State) (r : Nat) (v : Region) : (s.setRegion r v).rqs = s.rqs := by simp only [State.setRegion]
@[simp] theorem State.setRegion_hearth (s : State) (r : Nat) (v : Region) : (s.setRegion r v).hearth = s.hearth := by simp only [State.setRegion]
@[simp] theorem State.setRegion_banks (s : State) (r : Nat) (v : Region) : (s.setRegion r v).banks = s.banks := by simp only [State.setRegion]
@[simp] theorem State.setRegion_cache (s : State) (r : Nat) (v : Region) : (s.setRegion r v).cache = s.cache := by simp only [State.setRegion]
@[simp] theorem State.setRegion_ports (s : State) (r : Nat) (v : Region) : (s.setRegion r v).ports = s.ports := by simp only [State.setRegion]
@[simp] theorem State.setRegion_addrs (s : State) (r : Nat) (v : Region) : (s.setRegion r v).addrs = s.addrs := by simp only [State.setRegion]
@[simp] theorem State.setRegion_qps (s : State) (r : Nat) (v : Region) : (s.setRegion r v).qps = s.qps := by simp only [State.setRegion]
@[simp] theorem State.setRegion_hosts (s : State) (r : Nat) (v : Region) : (s.setRegion r v).hosts = s.hosts := by simp only [State.setRegion]
@[simp] theorem State.setRegion_dp (s : State) (r : Nat) (v : Region) : (s.setRegion r v).dp = s.dp := by simp only [State.setRegion]
@[simp] theorem State.setRegion_chains (s : State) (r : Nat) (v : Region) : (s.setRegion r v).chains = s.chains := by simp only [State.setRegion]
@[simp] theorem State.setRegion_tier (s : State) (r : Nat) (v : Region) : (s.setRegion r v).tier = s.tier := by simp only [State.setRegion]
@[simp] theorem State.setRegion_media (s : State) (r : Nat) (v : Region) : (s.setRegion r v).media = s.media := by simp only [State.setRegion]
@[simp] theorem State.setRegion_dur (s : State) (r : Nat) (v : Region) : (s.setRegion r v).dur = s.dur := by simp only [State.setRegion]
@[simp] theorem State.setRegion_pair (s : State) (r : Nat) (v : Region) : (s.setRegion r v).pair = s.pair := by simp only [State.setRegion]
@[simp] theorem State.setRegion_link (s : State) (r : Nat) (v : Region) : (s.setRegion r v).link = s.link := by simp only [State.setRegion]
@[simp] theorem State.setRegion_pwr (s : State) (r : Nat) (v : Region) : (s.setRegion r v).pwr = s.pwr := by simp only [State.setRegion]
@[simp] theorem State.setRegion_rec_ (s : State) (r : Nat) (v : Region) : (s.setRegion r v).rec_ = s.rec_ := by simp only [State.setRegion]
@[simp] theorem State.setRegion_pmu (s : State) (r : Nat) (v : Region) : (s.setRegion r v).pmu = s.pmu := by simp only [State.setRegion]
@[simp] theorem State.setRegion_smp (s : State) (r : Nat) (v : Region) : (s.setRegion r v).smp = s.smp := by simp only [State.setRegion]
@[simp] theorem State.setRegion_boot (s : State) (r : Nat) (v : Region) : (s.setRegion r v).boot = s.boot := by simp only [State.setRegion]
@[simp] theorem State.setRegion_cph (s : State) (r : Nat) (v : Region) : (s.setRegion r v).cph = s.cph := by simp only [State.setRegion]
@[simp] theorem State.setRegion_ccx (s : State) (r : Nat) (v : Region) : (s.setRegion r v).ccx = s.ccx := by simp only [State.setRegion]
@[simp] theorem State.setRegion_rails (s : State) (r : Nat) (v : Region) : (s.setRegion r v).rails = s.rails := by simp only [State.setRegion]
@[simp] theorem State.setRegion_thm (s : State) (r : Nat) (v : Region) : (s.setRegion r v).thm = s.thm := by simp only [State.setRegion]
@[simp] theorem State.setRegion_integ (s : State) (r : Nat) (v : Region) : (s.setRegion r v).integ = s.integ := by simp only [State.setRegion]
@[simp] theorem State.setRegion_pending (s : State) (r : Nat) (v : Region) : (s.setRegion r v).pending = s.pending := by simp only [State.setRegion]

@[simp] theorem State.setTenant_mono (s : State) (t : Nat) (v : Tenant) : (s.setTenant t v).mono = s.mono := by simp only [State.setTenant]
@[simp] theorem State.setTenant_tbOff (s : State) (t : Nat) (v : Tenant) : (s.setTenant t v).tbOff = s.tbOff := by simp only [State.setTenant]
@[simp] theorem State.setTenant_twinB (s : State) (t : Nat) (v : Tenant) : (s.setTenant t v).twinB = s.twinB := by simp only [State.setTenant]
@[simp] theorem State.setTenant_regs (s : State) (t : Nat) (v : Tenant) : (s.setTenant t v).regs = s.regs := by simp only [State.setTenant]
@[simp] theorem State.setTenant_out (s : State) (t : Nat) (v : Tenant) : (s.setTenant t v).out = s.out := by simp only [State.setTenant]
@[simp] theorem State.setTenant_evInbox (s : State) (t : Nat) (v : Tenant) : (s.setTenant t v).evInbox = s.evInbox := by simp only [State.setTenant]
@[simp] theorem State.setTenant_freeNext (s : State) (t : Nat) (v : Tenant) : (s.setTenant t v).freeNext = s.freeNext := by simp only [State.setTenant]
@[simp] theorem State.setTenant_msixMask (s : State) (t : Nat) (v : Tenant) : (s.setTenant t v).msixMask = s.msixMask := by simp only [State.setTenant]
@[simp] theorem State.setTenant_msixPend (s : State) (t : Nat) (v : Tenant) : (s.setTenant t v).msixPend = s.msixPend := by simp only [State.setTenant]
@[simp] theorem State.setTenant_msixTab (s : State) (t : Nat) (v : Tenant) : (s.setTenant t v).msixTab = s.msixTab := by simp only [State.setTenant]
@[simp] theorem State.setTenant_pcieUp (s : State) (t : Nat) (v : Tenant) : (s.setTenant t v).pcieUp = s.pcieUp := by simp only [State.setTenant]
@[simp] theorem State.setTenant_bellCount (s : State) (t : Nat) (v : Tenant) : (s.setTenant t v).bellCount = s.bellCount := by simp only [State.setTenant]
@[simp] theorem State.setTenant_rqs (s : State) (t : Nat) (v : Tenant) : (s.setTenant t v).rqs = s.rqs := by simp only [State.setTenant]
@[simp] theorem State.setTenant_hearth (s : State) (t : Nat) (v : Tenant) : (s.setTenant t v).hearth = s.hearth := by simp only [State.setTenant]
@[simp] theorem State.setTenant_banks (s : State) (t : Nat) (v : Tenant) : (s.setTenant t v).banks = s.banks := by simp only [State.setTenant]
@[simp] theorem State.setTenant_cache (s : State) (t : Nat) (v : Tenant) : (s.setTenant t v).cache = s.cache := by simp only [State.setTenant]
@[simp] theorem State.setTenant_ports (s : State) (t : Nat) (v : Tenant) : (s.setTenant t v).ports = s.ports := by simp only [State.setTenant]
@[simp] theorem State.setTenant_addrs (s : State) (t : Nat) (v : Tenant) : (s.setTenant t v).addrs = s.addrs := by simp only [State.setTenant]
@[simp] theorem State.setTenant_qps (s : State) (t : Nat) (v : Tenant) : (s.setTenant t v).qps = s.qps := by simp only [State.setTenant]
@[simp] theorem State.setTenant_hosts (s : State) (t : Nat) (v : Tenant) : (s.setTenant t v).hosts = s.hosts := by simp only [State.setTenant]
@[simp] theorem State.setTenant_dp (s : State) (t : Nat) (v : Tenant) : (s.setTenant t v).dp = s.dp := by simp only [State.setTenant]
@[simp] theorem State.setTenant_chains (s : State) (t : Nat) (v : Tenant) : (s.setTenant t v).chains = s.chains := by simp only [State.setTenant]
@[simp] theorem State.setTenant_tier (s : State) (t : Nat) (v : Tenant) : (s.setTenant t v).tier = s.tier := by simp only [State.setTenant]
@[simp] theorem State.setTenant_media (s : State) (t : Nat) (v : Tenant) : (s.setTenant t v).media = s.media := by simp only [State.setTenant]
@[simp] theorem State.setTenant_dur (s : State) (t : Nat) (v : Tenant) : (s.setTenant t v).dur = s.dur := by simp only [State.setTenant]
@[simp] theorem State.setTenant_pair (s : State) (t : Nat) (v : Tenant) : (s.setTenant t v).pair = s.pair := by simp only [State.setTenant]
@[simp] theorem State.setTenant_link (s : State) (t : Nat) (v : Tenant) : (s.setTenant t v).link = s.link := by simp only [State.setTenant]
@[simp] theorem State.setTenant_pwr (s : State) (t : Nat) (v : Tenant) : (s.setTenant t v).pwr = s.pwr := by simp only [State.setTenant]
@[simp] theorem State.setTenant_rec_ (s : State) (t : Nat) (v : Tenant) : (s.setTenant t v).rec_ = s.rec_ := by simp only [State.setTenant]
@[simp] theorem State.setTenant_pmu (s : State) (t : Nat) (v : Tenant) : (s.setTenant t v).pmu = s.pmu := by simp only [State.setTenant]
@[simp] theorem State.setTenant_smp (s : State) (t : Nat) (v : Tenant) : (s.setTenant t v).smp = s.smp := by simp only [State.setTenant]
@[simp] theorem State.setTenant_boot (s : State) (t : Nat) (v : Tenant) : (s.setTenant t v).boot = s.boot := by simp only [State.setTenant]
@[simp] theorem State.setTenant_cph (s : State) (t : Nat) (v : Tenant) : (s.setTenant t v).cph = s.cph := by simp only [State.setTenant]
@[simp] theorem State.setTenant_ccx (s : State) (t : Nat) (v : Tenant) : (s.setTenant t v).ccx = s.ccx := by simp only [State.setTenant]
@[simp] theorem State.setTenant_rails (s : State) (t : Nat) (v : Tenant) : (s.setTenant t v).rails = s.rails := by simp only [State.setTenant]
@[simp] theorem State.setTenant_thm (s : State) (t : Nat) (v : Tenant) : (s.setTenant t v).thm = s.thm := by simp only [State.setTenant]
@[simp] theorem State.setTenant_integ (s : State) (t : Nat) (v : Tenant) : (s.setTenant t v).integ = s.integ := by simp only [State.setTenant]
@[simp] theorem State.setTenant_pending (s : State) (t : Nat) (v : Tenant) : (s.setTenant t v).pending = s.pending := by simp only [State.setTenant]

theorem State.stage_eq (s : State) (r : EpochRec) : s.stage r = { s with pair := (s.stage r).pair } := by
  unfold State.stage; split <;> rfl
@[simp] theorem State.stage_mono (s : State) (r : EpochRec) : (s.stage r).mono = s.mono := (congrArg State.mono (State.stage_eq s r)).trans rfl
@[simp] theorem State.stage_tbOff (s : State) (r : EpochRec) : (s.stage r).tbOff = s.tbOff := (congrArg State.tbOff (State.stage_eq s r)).trans rfl
@[simp] theorem State.stage_twinB (s : State) (r : EpochRec) : (s.stage r).twinB = s.twinB := (congrArg State.twinB (State.stage_eq s r)).trans rfl
@[simp] theorem State.stage_regs (s : State) (r : EpochRec) : (s.stage r).regs = s.regs := (congrArg State.regs (State.stage_eq s r)).trans rfl
@[simp] theorem State.stage_out (s : State) (r : EpochRec) : (s.stage r).out = s.out := (congrArg State.out (State.stage_eq s r)).trans rfl
@[simp] theorem State.stage_evInbox (s : State) (r : EpochRec) : (s.stage r).evInbox = s.evInbox := (congrArg State.evInbox (State.stage_eq s r)).trans rfl
@[simp] theorem State.stage_freeNext (s : State) (r : EpochRec) : (s.stage r).freeNext = s.freeNext := (congrArg State.freeNext (State.stage_eq s r)).trans rfl
@[simp] theorem State.stage_msixMask (s : State) (r : EpochRec) : (s.stage r).msixMask = s.msixMask := (congrArg State.msixMask (State.stage_eq s r)).trans rfl
@[simp] theorem State.stage_msixPend (s : State) (r : EpochRec) : (s.stage r).msixPend = s.msixPend := (congrArg State.msixPend (State.stage_eq s r)).trans rfl
@[simp] theorem State.stage_msixTab (s : State) (r : EpochRec) : (s.stage r).msixTab = s.msixTab := (congrArg State.msixTab (State.stage_eq s r)).trans rfl
@[simp] theorem State.stage_pcieUp (s : State) (r : EpochRec) : (s.stage r).pcieUp = s.pcieUp := (congrArg State.pcieUp (State.stage_eq s r)).trans rfl
@[simp] theorem State.stage_bellCount (s : State) (r : EpochRec) : (s.stage r).bellCount = s.bellCount := (congrArg State.bellCount (State.stage_eq s r)).trans rfl
@[simp] theorem State.stage_rqs (s : State) (r : EpochRec) : (s.stage r).rqs = s.rqs := (congrArg State.rqs (State.stage_eq s r)).trans rfl
@[simp] theorem State.stage_hearth (s : State) (r : EpochRec) : (s.stage r).hearth = s.hearth := (congrArg State.hearth (State.stage_eq s r)).trans rfl
@[simp] theorem State.stage_banks (s : State) (r : EpochRec) : (s.stage r).banks = s.banks := (congrArg State.banks (State.stage_eq s r)).trans rfl
@[simp] theorem State.stage_cache (s : State) (r : EpochRec) : (s.stage r).cache = s.cache := (congrArg State.cache (State.stage_eq s r)).trans rfl
@[simp] theorem State.stage_ports (s : State) (r : EpochRec) : (s.stage r).ports = s.ports := (congrArg State.ports (State.stage_eq s r)).trans rfl
@[simp] theorem State.stage_addrs (s : State) (r : EpochRec) : (s.stage r).addrs = s.addrs := (congrArg State.addrs (State.stage_eq s r)).trans rfl
@[simp] theorem State.stage_qps (s : State) (r : EpochRec) : (s.stage r).qps = s.qps := (congrArg State.qps (State.stage_eq s r)).trans rfl
@[simp] theorem State.stage_hosts (s : State) (r : EpochRec) : (s.stage r).hosts = s.hosts := (congrArg State.hosts (State.stage_eq s r)).trans rfl
@[simp] theorem State.stage_dp (s : State) (r : EpochRec) : (s.stage r).dp = s.dp := (congrArg State.dp (State.stage_eq s r)).trans rfl
@[simp] theorem State.stage_prot (s : State) (r : EpochRec) : (s.stage r).prot = s.prot := (congrArg State.prot (State.stage_eq s r)).trans rfl
@[simp] theorem State.stage_chains (s : State) (r : EpochRec) : (s.stage r).chains = s.chains := (congrArg State.chains (State.stage_eq s r)).trans rfl
@[simp] theorem State.stage_tier (s : State) (r : EpochRec) : (s.stage r).tier = s.tier := (congrArg State.tier (State.stage_eq s r)).trans rfl
@[simp] theorem State.stage_media (s : State) (r : EpochRec) : (s.stage r).media = s.media := (congrArg State.media (State.stage_eq s r)).trans rfl
@[simp] theorem State.stage_dur (s : State) (r : EpochRec) : (s.stage r).dur = s.dur := (congrArg State.dur (State.stage_eq s r)).trans rfl
@[simp] theorem State.stage_link (s : State) (r : EpochRec) : (s.stage r).link = s.link := (congrArg State.link (State.stage_eq s r)).trans rfl
@[simp] theorem State.stage_pwr (s : State) (r : EpochRec) : (s.stage r).pwr = s.pwr := (congrArg State.pwr (State.stage_eq s r)).trans rfl
@[simp] theorem State.stage_rec_ (s : State) (r : EpochRec) : (s.stage r).rec_ = s.rec_ := (congrArg State.rec_ (State.stage_eq s r)).trans rfl
@[simp] theorem State.stage_pmu (s : State) (r : EpochRec) : (s.stage r).pmu = s.pmu := (congrArg State.pmu (State.stage_eq s r)).trans rfl
@[simp] theorem State.stage_smp (s : State) (r : EpochRec) : (s.stage r).smp = s.smp := (congrArg State.smp (State.stage_eq s r)).trans rfl
@[simp] theorem State.stage_boot (s : State) (r : EpochRec) : (s.stage r).boot = s.boot := (congrArg State.boot (State.stage_eq s r)).trans rfl
@[simp] theorem State.stage_cph (s : State) (r : EpochRec) : (s.stage r).cph = s.cph := (congrArg State.cph (State.stage_eq s r)).trans rfl
@[simp] theorem State.stage_ccx (s : State) (r : EpochRec) : (s.stage r).ccx = s.ccx := (congrArg State.ccx (State.stage_eq s r)).trans rfl
@[simp] theorem State.stage_rails (s : State) (r : EpochRec) : (s.stage r).rails = s.rails := (congrArg State.rails (State.stage_eq s r)).trans rfl
@[simp] theorem State.stage_thm (s : State) (r : EpochRec) : (s.stage r).thm = s.thm := (congrArg State.thm (State.stage_eq s r)).trans rfl
@[simp] theorem State.stage_integ (s : State) (r : EpochRec) : (s.stage r).integ = s.integ := (congrArg State.integ (State.stage_eq s r)).trans rfl
@[simp] theorem State.stage_pending (s : State) (r : EpochRec) : (s.stage r).pending = s.pending := (congrArg State.pending (State.stage_eq s r)).trans rfl

/-! ### Registers -/

theorem State.reg_setReg (s : State) (k : Nat) (v : Word64) (j : Nat) :
    (s.setReg k v).reg j = if j = k then v else s.reg j := by
  unfold State.reg State.setReg
  split
  · rename_i h; subst h; exact NMap.getD_put_same _ _ _
  · rename_i h; exact NMap.getD_put_other h

@[simp] theorem State.reg_setReg_same (s : State) (k : Nat) (v : Word64) : (s.setReg k v).reg k = v := by
  simp [State.reg_setReg]

theorem State.reg_setReg_other (s : State) {k j : Nat} (v : Word64) (h : j ≠ k) : (s.setReg k v).reg j = s.reg j := by
  simp [State.reg_setReg, h]

/-- States with one register file read alike. -/
theorem State.reg_congr {a b : State} (h : b.regs = a.regs) (k : Nat) : b.reg k = a.reg k := by
  unfold State.reg; rw [h]

theorem State.rd_congr {a b : State} (h : b.regs = a.regs) (f : Fld) (i j : Nat) : b.rd f i j = a.rd f i j := by
  unfold State.rd; rw [State.reg_congr h]

theorem State.reg_wr (s : State) (f : Fld) (v i a j : Nat) :
    (s.wr f v i a).reg j = if j = f.key i a then setBits (s.reg j) f.hi f.lo v else s.reg j := by
  unfold State.wr; rw [State.reg_setReg]; split <;> simp_all

/-- A field reads what was written into it. -/
theorem State.rd_wr_same (s : State) (f : Fld) (v i a : Nat) (h : f.hi < 64) (hl : f.lo ≤ f.hi) :
    (s.wr f v i a).rd f i a = v % 2 ^ (f.hi + 1 - f.lo) := by
  unfold State.rd; rw [State.reg_wr]; simp [bits_setBits_same _ h hl]

/-- A field of another register reads as before. -/
theorem State.rd_wr_other (s : State) (f g : Fld) (v i a j b : Nat) (h : g.key j b ≠ f.key i a) :
    (s.wr f v i a).rd g j b = s.rd g j b := by
  unfold State.rd; rw [State.reg_wr]; simp [h]

/-- Another field of the register reads as before. -/
theorem State.rd_wr_apart (s : State) (f g : Fld) (v i a j b : Nat) (h : f.hi < 64) (h' : g.hi < 64) (hl : f.lo ≤ f.hi)
    (hd : g.hi < f.lo ∨ f.hi < g.lo) : (s.wr f v i a).rd g j b = s.rd g j b := by
  unfold State.rd; rw [State.reg_wr]; split
  · rw [bits_setBits_other _ h h' hl hd]
  · rfl

theorem State.reg_msix (s : State) (v j : Nat) : (s.msix v).reg j = s.reg j := State.reg_congr (by simp) j

theorem State.reg_setFlags (s : State) (p : Nat) (m : Word64) (j : Nat) :
    (s.setFlags p m).reg j = if j = regKey p 0x20 then s.reg j ||| m else s.reg j := by
  unfold State.setFlags; dsimp only
  split
  · rw [State.reg_msix, State.reg_setReg]; split <;> simp_all
  · rw [State.reg_setReg]; split <;> simp_all

/-- Raising an event writes no register but PG_EVT and PG_STAT of its page. -/
theorem State.reg_raiseWith (s : State) (p n : Nat) (t : Bool) (a : Word64) {j : Nat} (h : j ≠ regKey p 0x20)
    (h' : j ≠ regKey p 0x18) : (s.raiseWith p n t a).reg j = s.reg j := by
  have k : PG_STAT_FAULT.key p 0 = regKey p 0x18 := by simp [Fld.key]
  unfold State.raiseWith; dsimp only
  split
  · split
    · show ((s.setFlags p (1#64 <<< n)).wr PG_STAT_FAULT 1 p).reg j = _
      rw [State.reg_wr, if_neg (by rw [k]; exact h'), State.reg_setFlags, if_neg h]
    · show (s.setFlags p (1#64 <<< n)).reg j = _
      rw [State.reg_setFlags, if_neg h]
  · rfl

theorem State.reg_raise (s : State) (p n : Nat) {j : Nat} (h : j ≠ regKey p 0x20) (h' : j ≠ regKey p 0x18) :
    (s.raise p n).reg j = s.reg j := State.reg_raiseWith s p n false _ h h'

end Sys2Proof.Machine
end

