-- ==== Sys2Proof/Laws/Events.lean ====
section
/-! SUPPORT. Raising an event: its flag, its entry for the recorder, and which registers it leaves alone. -/

namespace Sys2Proof.Machine

theorem bit_or_shift (w : Word64) (n : Nat) (h : n < 64) : bit (w ||| (1#64 <<< n)) n = true := by
  unfold bit
  rw [BitVec.getLsbD_or, BitVec.getLsbD_shiftLeft]
  simp [h]

theorem State.raiseWith_raisedIn (s : State) (p n : Nat) (a : Word64) {sev b i : Nat} (h : evSeverity p n = some sev)
    (hb : blockOf p = some (b, i)) (hn : n < 64) : raisedIn s (s.raiseWith p n false a) p n := by
  have e0 : regKey p 0x20 ≠ regKey p 0x18 := by unfold regKey; omega
  refine ⟨?_, ?_⟩
  · unfold State.flagged
    have : (s.raiseWith p n false a).reg (regKey p 0x20) = s.reg (regKey p 0x20) ||| (1#64 <<< n) := by
      unfold State.raiseWith
      simp only [h, hb]
      split
      · show ((s.setFlags p (1#64 <<< n)).wr PG_STAT_FAULT 1 p).reg _ = _
        rw [State.reg_wr, if_neg, State.reg_setFlags, if_pos rfl]
        unfold Fld.key; simp only [Nat.zero_add]; exact e0
      · show (s.setFlags p (1#64 <<< n)).reg _ = _
        rw [State.reg_setFlags, if_pos rfl]
    rw [this]; exact bit_or_shift _ _ hn
  · refine ⟨⟨s.tb, b * 0x100 + n, if p < 0x40 then 0 else i, sev, false, a⟩, ?_, ?_, rfl, ?_⟩
    · unfold State.raiseWith
      simp only [h, hb]
      split <;> simp [State.tb]
    · simp [State.tb]
    · simp [hb]

theorem State.raise_raisedIn (s : State) (p n : Nat) {sev b i : Nat} (h : evSeverity p n = some sev)
    (hb : blockOf p = some (b, i)) (hn : n < 64) : raisedIn s (s.raise p n) p n :=
  State.raiseWith_raisedIn s p n _ h hb hn

theorem regsKept.refl (s : State) (ks : List Nat) : regsKept s s ks := fun _ _ => rfl

theorem State.raise_regsKept (s : State) (p n : Nat) : regsKept s (s.raise p n) (evRegs p) := by
  intro k hk
  simp only [evRegs, List.mem_cons, List.not_mem_nil, or_false, not_or] at hk
  exact State.reg_raise s p n hk.1 hk.2
end Sys2Proof.Machine
end

