-- ==== Sys2Proof/Laws/Keep.lean ====
section
/-! SUPPORT. What every operation of the block keeps: the canonical form of the register file and of the DRAM lines, the queue of
commands, the strap; the clock, the log of what left the block and the numbering of free values only grow. One lemma per operation
says so, so that a claim over every command needs none of them unfolded. -/

namespace Sys2Proof.Machine

/-- The state `b` may follow from `a`. -/
structure Keep (a b : State) : Prop where
  regs : NMap.wf resetKey a.regs = true → NMap.wf resetKey b.regs = true
  dram : NMap.wf (fun _ => ({} : DLine)) a.tier.dram = true → NMap.wf (fun _ => ({} : DLine)) b.tier.dram = true
  pending : b.pending = a.pending
  twinB : b.twinB = a.twinB
  mono : a.mono ≤ b.mono
  freeNext : a.freeNext ≤ b.freeNext
  out : ∃ l, b.out = l ++ a.out

theorem Keep.refl (s : State) : Keep s s :=
  ⟨id, id, rfl, rfl, Nat.le_refl _, Nat.le_refl _, ⟨[], rfl⟩⟩

theorem Keep.trans {a b c : State} (h : Keep a b) (k : Keep b c) : Keep a c := by
  obtain ⟨l, hl⟩ := h.out
  obtain ⟨m, hm⟩ := k.out
  exact ⟨fun x => k.regs (h.regs x), fun x => k.dram (h.dram x), k.pending.trans h.pending, k.twinB.trans h.twinB,
    Nat.le_trans h.mono k.mono, Nat.le_trans h.freeNext k.freeNext, ⟨m ++ l, by rw [hm, hl, List.append_assoc]⟩⟩

/-- A change of other fields. -/
theorem Keep.upd {a s t : State} (h : Keep a s) (hr : t.regs = s.regs) (hd : t.tier.dram = s.tier.dram) (hp : t.pending = s.pending)
    (hb : t.twinB = s.twinB) (hm : t.mono = s.mono) (hf : t.freeNext = s.freeNext) (ho : t.out = s.out) : Keep a t := by
  refine h.trans ⟨fun x => hr ▸ x, fun x => hd ▸ x, hp, hb, Nat.le_of_eq hm.symm, Nat.le_of_eq hf.symm, ⟨[], by rw [ho]; rfl⟩⟩

theorem Keep.ite {a s t : State} {c : Prop} [Decidable c] (h : c → Keep a s) (k : ¬ c → Keep a t) : Keep a (if c then s else t) := by
  by_cases hc : c
  · rw [if_pos hc]; exact h hc
  · rw [if_neg hc]; exact k hc

theorem Keep.foldl {α : Type} {a s : State} {f : State → α → State} {l : List α} (h : Keep a s)
    (hf : ∀ s x, Keep a s → Keep a (f s x)) : Keep a (l.foldl f s) := by
  induction l generalizing s with
  | nil => exact h
  | cons x l ih => exact ih (hf s x h)

/-- A fold that carries a state and something beside it. -/
theorem Keep.foldl_fst {α β : Type} {a : State} {p : State × β} {f : State × β → α → State × β} {l : List α} (h : Keep a p.1)
    (hf : ∀ p x, Keep a p.1 → Keep a (f p x).1) : Keep a (l.foldl f p).1 := by
  induction l generalizing p with
  | nil => exact h
  | cons x l ih => exact ih (hf p x h)

theorem Keep.foldl_snd {α β : Type} {a : State} {p : β × State} {f : β × State → α → β × State} {l : List α} (h : Keep a p.2)
    (hf : ∀ p x, Keep a p.2 → Keep a (f p x).2) : Keep a (l.foldl f p).2 := by
  induction l generalizing p with
  | nil => exact h
  | cons x l ih => exact ih (hf p x h)

theorem Keep.setReg {a s : State} (h : Keep a s) (k : Nat) (v : Word64) : Keep a (s.setReg k v) :=
  h.trans ⟨fun x => NMap.wf_put x, id, rfl, rfl, Nat.le_refl _, Nat.le_refl _, ⟨[], rfl⟩⟩

theorem Keep.emit {a s : State} (h : Keep a s) (o : Out) : Keep a (s.emit o) :=
  h.trans ⟨id, id, rfl, rfl, Nat.le_refl _, Nat.le_refl _, ⟨[o], rfl⟩⟩

theorem Keep.advanceBy {a s : State} (h : Keep a s) (d : Nat) : Keep a (s.advanceBy d) :=
  h.trans ⟨id, id, rfl, rfl, Nat.le_add_right _ _, Nat.le_refl _, ⟨[], rfl⟩⟩

theorem Keep.upTo {a s : State} (h : Keep a s) (t : Nat) : Keep a (s.upTo t) := by
  unfold State.upTo
  split
  · exact h
  · exact h.trans ⟨id, id, rfl, rfl, by show s.mono ≤ t; omega, Nat.le_refl _, ⟨[], rfl⟩⟩

/-- A state written out field by field from another one. -/
theorem Keep.mk' {a s : State} {tbOff_ : Int} {evInbox_ : List RaisedEv} {msixMask_ : Word64} {msixPend_ : Word64} {msixTab_ : NMap Word64} {pcieUp_ : Bool} {bellCount_ : Nat} {rqs_ : NMap Rq} {hearth_ : Hearth} {banks_ : Banks} {cache_ : Cache} {ports_ : NMap Port} {addrs_ : NMap AddrEntry} {qps_ : NMap Qp} {hosts_ : List IpAddr} {dp_ : DataPath} {prot_ : Prot} {chains_ : Chains} {tier_ : Tier} {media_ : Media} {dur_ : Dur} {pair_ : Pair} {link_ : Link} {pwr_ : Power} {rec__ : Recorder} {pmu_ : Pmu} {smp_ : Sampling} {boot_ : Boot} {cph_ : Cipher} {ccx_ : Complex} {rails_ : Rails} {thm_ : Thermal} {integ_ : Integrity}
    (h : Keep a s) (hd : tier_.dram = s.tier.dram) : Keep a ⟨s.mono, tbOff_, s.twinB, s.regs, s.out, evInbox_, s.freeNext, msixMask_, msixPend_, msixTab_, pcieUp_, bellCount_, rqs_, hearth_, banks_, cache_, ports_, addrs_, qps_, hosts_, dp_, prot_, chains_, tier_, media_, dur_, pair_, link_, pwr_, rec__, pmu_, smp_, boot_, cph_, ccx_, rails_, thm_, integ_, s.pending⟩ :=
  h.upd rfl hd rfl rfl rfl rfl rfl

/-- The state of a pair. -/
theorem Keep.of_fst {β : Type} {a t : State} {y : β} {p : State × β} (e : p = (t, y)) (h : Keep a p.1) : Keep a t := by
  subst e; exact h

theorem Keep.of_snd {β : Type} {a t : State} {y : β} {p : β × State} (e : p = (y, t)) (h : Keep a p.2) : Keep a t := by
  subst e; exact h

/-- Whatever state an option holds may follow. -/
def KeepO (a : State) (o : Option State) : Prop := ∀ t, o = some t → Keep a t
def KeepO1 {β : Type} (a : State) (o : Option (State × β)) : Prop := ∀ t, o = some t → Keep a t.1
def KeepO2 {β : Type} (a : State) (o : Option (β × State)) : Prop := ∀ t, o = some t → Keep a t.2

theorem KeepO.none {a : State} : KeepO a none := fun _ h => nomatch h
theorem KeepO.some {a s : State} (h : Keep a s) : KeepO a (some s) := fun _ e => by cases e; exact h
theorem KeepO.get {a t : State} {o : Option State} (h : KeepO a o) (e : o = Option.some t) : Keep a t := h t e
theorem KeepO.map {α : Type} {a : State} {o : Option α} {f : α → State} (h : ∀ x, Keep a (f x)) : KeepO a (o.map f) := by
  cases o with
  | none => exact KeepO.none
  | some x => exact KeepO.some (h x)
theorem KeepO.getD {a d : State} {o : Option State} (h : KeepO a o) (k : Keep a d) : Keep a (o.getD d) := by
  cases o with
  | none => exact k
  | some t => exact h t rfl
theorem KeepO1.none {β : Type} {a : State} : KeepO1 a (none : Option (State × β)) := fun _ h => nomatch h
theorem KeepO1.some {β : Type} {a : State} {p : State × β} (h : Keep a p.1) : KeepO1 a (some p) := fun _ e => by cases e; exact h
theorem KeepO1.get {β : Type} {a t : State} {y : β} {o : Option (State × β)} (h : KeepO1 a o) (e : o = Option.some (t, y)) : Keep a t := h _ e
theorem KeepO2.none {β : Type} {a : State} : KeepO2 a (none : Option (β × State)) := fun _ h => nomatch h
theorem KeepO2.some {β : Type} {a : State} {p : β × State} (h : Keep a p.2) : KeepO2 a (some p) := fun _ e => by cases e; exact h
theorem KeepO2.get {β : Type} {a t : State} {y : β} {o : Option (β × State)} (h : KeepO2 a o) (e : o = Option.some (y, t)) : Keep a t := h _ e

def KeepO3 {β γ : Type} (a : State) (o : Option (β × γ × State)) : Prop := ∀ t, o = some t → Keep a t.2.2
theorem KeepO3.none {β γ : Type} {a : State} : KeepO3 a (none : Option (β × γ × State)) := fun _ h => nomatch h
theorem KeepO3.some {β γ : Type} {a : State} {p : β × γ × State} (h : Keep a p.2.2) : KeepO3 a (some p) := fun _ e => by cases e; exact h
theorem KeepO3.get {β γ : Type} {a t : State} {y : β} {z : γ} {o : Option (β × γ × State)} (h : KeepO3 a o) (e : o = Option.some (y, z, t)) : Keep a t := h _ e

end Sys2Proof.Machine
end

