-- ==== Sys2Proof/Laws/KeepOperands.lean ====
section
/-! SUPPORT. What the operations of Machine/Operands.lean keep (Keep). -/

set_option linter.unreachableTactic false
set_option linter.unusedTactic false
set_option linter.unusedVariables false

namespace Sys2Proof.Machine

theorem State.setReg_keep {s0 s : State} (h : Keep s0 s) (k : Nat) (v : Word64) : Keep s0 (s.setReg k v) := h.setReg k v

theorem State.wr_keep {s0 s : State} (h : Keep s0 s) (f : Fld) (v : Nat) (i : Nat) (a : Nat) : Keep s0 (State.wr s f v i a) := by
  unfold State.wr
  repeat' (with_reducible first | assumption | exact Keep.refl _ | apply State.setReg_keep)

theorem State.satInc_keep {s0 s : State} (h : Keep s0 s) (f : Fld) (n : Nat) (i : Nat) (a : Nat) : Keep s0 (State.satInc s f n i a) := by
  unfold State.satInc
  repeat' (with_reducible first | assumption | exact Keep.refl _ | apply State.wr_keep)

theorem State.inc_keep {s0 s : State} (h : Keep s0 s) (f : Fld) (n : Nat) (i : Nat) (a : Nat) : Keep s0 (State.inc s f n i a) := by
  unfold State.inc
  repeat' (with_reducible first | assumption | exact Keep.refl _ | apply State.wr_keep)

theorem State.setStat_keep {s0 s : State} (h : Keep s0 s) (page st : Nat) (ready : Bool) : Keep s0 (State.setStat s page st ready) := by
  unfold State.setStat
  repeat' (with_reducible first | assumption | exact Keep.refl _ | apply State.wr_keep)

theorem State.bumpGen_keep {s0 s : State} (h : Keep s0 s) (page : Nat) : Keep s0 (State.bumpGen s page) := by
  unfold State.bumpGen
  repeat' (with_reducible first | assumption | exact Keep.refl _ | apply State.inc_keep)

end Sys2Proof.Machine
end

