-- ==== Sys2Proof/Laws/KeepFlags.lean ====
section
/-! SUPPORT. What the operations of Machine/Flags.lean keep (Keep). -/

set_option linter.unreachableTactic false
set_option linter.unusedTactic false
set_option linter.unusedVariables false

namespace Sys2Proof.Machine

theorem State.emit_keep {s0 s : State} (h : Keep s0 s) (o : Out) : Keep s0 (s.emit o) := h.emit o

theorem State.msix_keep {s0 s : State} (h : Keep s0 s) (v : Nat) : Keep s0 (State.msix s v) := by
  unfold State.msix
  repeat' (with_reducible first | assumption | exact Keep.refl _ | apply State.emit_keep | fail_if_no_progress (refine Keep.mk' ?_ rfl) | (extract_lets -underBinder +onlyGivenNames x; (refine (fun (hx : Keep s0 x) => ?_) ?_); (on_goal 1 => try clear_value x); (on_goal 2 => (unfold x; clear x))) | (extract_lets -underBinder +onlyGivenNames x; try clear_value x) | split)

theorem State.setFlags_keep {s0 s : State} (h : Keep s0 s) (page : Nat) (mask : Word64) : Keep s0 (State.setFlags s page mask) := by
  unfold State.setFlags
  repeat' (with_reducible first | assumption | exact Keep.refl _ | apply State.setReg_keep | apply State.msix_keep | (extract_lets -underBinder +onlyGivenNames x; (refine (fun (hx : Keep s0 x) => ?_) ?_); (on_goal 1 => try clear_value x); (on_goal 2 => (unfold x; clear x))) | (extract_lets -underBinder +onlyGivenNames x; try clear_value x) | split)

theorem State.raiseWith_keep {s0 s : State} (h : Keep s0 s) (page n : Nat) (test : Bool) (arg : Word64) : Keep s0 (State.raiseWith s page n test arg) := by
  unfold State.raiseWith
  repeat' (with_reducible first | assumption | exact Keep.refl _ | apply State.wr_keep | apply State.setFlags_keep | fail_if_no_progress (refine Keep.mk' ?_ rfl) | (extract_lets -underBinder +onlyGivenNames x; (refine (fun (hx : Keep s0 x) => ?_) ?_); (on_goal 1 => try clear_value x); (on_goal 2 => (unfold x; clear x))) | (extract_lets -underBinder +onlyGivenNames x; try clear_value x) | split)

theorem State.raise_keep {s0 s : State} (h : Keep s0 s) (page n : Nat) : Keep s0 (State.raise s page n) := by
  unfold State.raise
  repeat' (with_reducible first | assumption | exact Keep.refl _ | apply State.raiseWith_keep)

theorem State.raiseArg_keep {s0 s : State} (h : Keep s0 s) (page n : Nat) (arg : Word64) : Keep s0 (State.raiseArg s page n arg) := by
  unfold State.raiseArg
  repeat' (with_reducible first | assumption | exact Keep.refl _ | apply State.raiseWith_keep)

theorem State.raiseIf_keep {s0 s : State} (h : Keep s0 s) (c : Bool) (page n : Nat) : Keep s0 (State.raiseIf s c page n) := by
  unfold State.raiseIf
  repeat' (with_reducible first | assumption | exact Keep.refl _ | apply State.raise_keep | split)

theorem State.irqAfterWrite_keep {s0 s : State} (h : Keep s0 s) (page : Nat) : Keep s0 (State.irqAfterWrite s page) := by
  unfold State.irqAfterWrite
  repeat' (with_reducible first | assumption | exact Keep.refl _ | apply State.msix_keep | split)

theorem State.accessErr_keep {s0 s : State} (h : Keep s0 s) (cause : Nat) (write : Bool) (addr : Nat) : Keep s0 (State.accessErr s cause write addr) := by
  unfold State.accessErr
  repeat' (with_reducible first | assumption | exact Keep.refl _ | apply State.wr_keep | apply State.satInc_keep | apply State.raiseArg_keep | (extract_lets -underBinder +onlyGivenNames x; (refine (fun (hx : Keep s0 x) => ?_) ?_); (on_goal 1 => try clear_value x); (on_goal 2 => (unfold x; clear x))) | (extract_lets -underBinder +onlyGivenNames x; try clear_value x) | split)

theorem State.advanceBy_keep {s0 s : State} (h : Keep s0 s) (d : Nat) : Keep s0 (s.advanceBy d) := h.advanceBy d

theorem State.upTo_keep {s0 s : State} (h : Keep s0 s) (t : Nat) : Keep s0 (s.upTo t) := h.upTo t

end Sys2Proof.Machine
end

