-- ==== Sys2Proof/Laws/KeepOps.lean ====
section
/-! SUPPORT. What the operations of Machine/Ops.lean keep (Keep). -/

set_option linter.unreachableTactic false
set_option linter.unusedTactic false
set_option linter.unusedVariables false

namespace Sys2Proof.Machine

theorem State.takeFree_keep {s0 s : State} (h : Keep s0 s) : Keep s0 (s.takeFree).2 :=
  h.trans ⟨id, id, rfl, rfl, Nat.le_refl _, Nat.le_add_right _ _, ⟨[], rfl⟩⟩

theorem State.setRegion_keep {s0 s : State} (h : Keep s0 s) (r : Nat) (v : Region) : Keep s0 (State.setRegion s r v) := by
  unfold State.setRegion
  repeat' (with_reducible first | assumption | exact Keep.refl _ | fail_if_no_progress (refine Keep.mk' ?_ rfl) | (extract_lets -underBinder +onlyGivenNames x; (refine (fun (hx : Keep s0 x) => ?_) ?_); (on_goal 1 => try clear_value x); (on_goal 2 => (unfold x; clear x))) | (extract_lets -underBinder +onlyGivenNames x; try clear_value x))

theorem State.allOwned_keep {s0 s : State} (h : Keep s0 s) (base : Nat) : Keep s0 (State.allOwned s base) := by
  unfold State.allOwned
  repeat' (with_reducible first | assumption | exact Keep.refl _ | fail_if_no_progress (refine Keep.mk' ?_ rfl) | (extract_lets -underBinder +onlyGivenNames x; (refine (fun (hx : Keep s0 x) => ?_) ?_); (on_goal 1 => try clear_value x); (on_goal 2 => (unfold x; clear x))) | exact KeepO.get (by assumption) rfl | exact KeepO.none | apply KeepO.some | (apply KeepO.map; intro _) | (extract_lets -underBinder +onlyGivenNames x; (refine (fun (hx : KeepO s0 x) => ?_) ?_); (on_goal 1 => try clear_value x); (on_goal 2 => (unfold x; clear x))) | (extract_lets -underBinder +onlyGivenNames x; try clear_value x))

theorem State.setTenant_keep {s0 s : State} (h : Keep s0 s) (t : Nat) (v : Tenant) : Keep s0 (State.setTenant s t v) := by
  unfold State.setTenant
  repeat' (with_reducible first | assumption | exact Keep.refl _ | fail_if_no_progress (refine Keep.mk' ?_ rfl) | (extract_lets -underBinder +onlyGivenNames x; (refine (fun (hx : Keep s0 x) => ?_) ?_); (on_goal 1 => try clear_value x); (on_goal 2 => (unfold x; clear x))) | (extract_lets -underBinder +onlyGivenNames x; try clear_value x) | split)

theorem State.addWused_keep {s0 s : State} (h : Keep s0 s) (t : Nat) (up down : Nat) : Keep s0 (State.addWused s t up down) := by
  unfold State.addWused
  repeat' (with_reducible first | assumption | exact Keep.refl _ | apply State.setTenant_keep | fail_if_no_progress (refine Keep.mk' ?_ rfl) | (extract_lets -underBinder +onlyGivenNames x; (refine (fun (hx : Keep s0 x) => ?_) ?_); (on_goal 1 => try clear_value x); (on_goal 2 => (unfold x; clear x))) | (extract_lets -underBinder +onlyGivenNames x; try clear_value x))

theorem State.stage_keep {s0 s : State} (h : Keep s0 s) (r : EpochRec) : Keep s0 (State.stage s r) := by
  unfold State.stage
  repeat' (with_reducible first | assumption | exact Keep.refl _ | fail_if_no_progress (refine Keep.mk' ?_ rfl) | (extract_lets -underBinder +onlyGivenNames x; (refine (fun (hx : Keep s0 x) => ?_) ?_); (on_goal 1 => try clear_value x); (on_goal 2 => (unfold x; clear x))) | exact KeepO.get (by assumption) rfl | exact KeepO.none | apply KeepO.some | (apply KeepO.map; intro _) | (extract_lets -underBinder +onlyGivenNames x; (refine (fun (hx : KeepO s0 x) => ?_) ?_); (on_goal 1 => try clear_value x); (on_goal 2 => (unfold x; clear x))) | (extract_lets -underBinder +onlyGivenNames x; try clear_value x) | split)

theorem State.markChange_keep {s0 s : State} (h : Keep s0 s) (pool : Nat) : Keep s0 (State.markChange s pool) := by
  unfold State.markChange
  repeat' (with_reducible first | assumption | exact Keep.refl _ | fail_if_no_progress (refine Keep.mk' ?_ rfl) | (extract_lets -underBinder +onlyGivenNames x; (refine (fun (hx : Keep s0 x) => ?_) ?_); (on_goal 1 => try clear_value x); (on_goal 2 => (unfold x; clear x))) | (extract_lets -underBinder +onlyGivenNames x; try clear_value x) | split)

end Sys2Proof.Machine
end

