-- ==== Sys2Proof/Laws/KeepRecOps.lean ====
section
/-! SUPPORT. What the operations of Machine/RecOps.lean keep (Keep). -/

set_option linter.unreachableTactic false
set_option linter.unusedTactic false
set_option linter.unusedVariables false

namespace Sys2Proof.Machine

theorem State.recStat_keep {s0 s : State} (h : Keep s0 s)  : Keep s0 (State.recStat s) := by
  unfold State.recStat
  repeat' (with_reducible first | assumption | exact Keep.refl _ | apply State.wr_keep | (extract_lets -underBinder +onlyGivenNames x; (refine (fun (hx : Keep s0 x) => ?_) ?_); (on_goal 1 => try clear_value x); (on_goal 2 => (unfold x; clear x))) | (extract_lets -underBinder +onlyGivenNames x; try clear_value x) | split)

theorem State.overwritten_keep {s0 s : State} (h : Keep s0 s) (r : EvRec) : Keep s0 (State.overwritten s r) := by
  unfold State.overwritten
  repeat' (with_reducible first | assumption | exact Keep.refl _ | apply State.satInc_keep | apply State.raise_keep | fail_if_no_progress (refine Keep.mk' ?_ rfl) | (extract_lets -underBinder +onlyGivenNames x; (refine (fun (hx : Keep s0 x) => ?_) ?_); (on_goal 1 => try clear_value x); (on_goal 2 => (unfold x; clear x))) | (extract_lets -underBinder +onlyGivenNames x; try clear_value x) | split)

theorem State.ringPut_keep {s0 s : State} (h : Keep s0 s) (r : EvRec) : Keep s0 (State.ringPut s r) := by
  unfold State.ringPut
  repeat' (with_reducible first | assumption | exact Keep.refl _ | apply State.satInc_keep | apply State.overwritten_keep | fail_if_no_progress (refine Keep.mk' ?_ rfl) | (extract_lets -underBinder +onlyGivenNames x; (refine (fun (hx : Keep s0 x) => ?_) ?_); (on_goal 1 => try clear_value x); (on_goal 2 => (unfold x; clear x))) | (extract_lets -underBinder +onlyGivenNames x; try clear_value x) | split)

theorem State.holdPut_keep {s0 s : State} (h : Keep s0 s) (r : EvRec) : Keep s0 (State.holdPut s r) := by
  unfold State.holdPut
  repeat' (with_reducible first | assumption | exact Keep.refl _ | apply State.satInc_keep | apply State.overwritten_keep | fail_if_no_progress (refine Keep.mk' ?_ rfl) | (extract_lets -underBinder +onlyGivenNames x; (refine (fun (hx : Keep s0 x) => ?_) ?_); (on_goal 1 => try clear_value x); (on_goal 2 => (unfold x; clear x))) | (extract_lets -underBinder +onlyGivenNames x; try clear_value x) | split)

theorem State.recordEvent_keep {s0 s : State} (h : Keep s0 s) (e : RaisedEv) : Keep s0 (State.recordEvent s e) := by
  unfold State.recordEvent
  repeat' (with_reducible first | assumption | exact Keep.refl _ | apply State.recStat_keep | apply State.ringPut_keep | apply State.holdPut_keep | fail_if_no_progress (refine Keep.mk' ?_ rfl) | (extract_lets -underBinder +onlyGivenNames x; (refine (fun (hx : Keep s0 x) => ?_) ?_); (on_goal 1 => try clear_value x); (on_goal 2 => (unfold x; clear x))) | exact KeepO.get (by assumption) rfl | exact KeepO.none | apply KeepO.some | (apply KeepO.map; intro _) | (extract_lets -underBinder +onlyGivenNames x; (refine (fun (hx : KeepO s0 x) => ?_) ?_); (on_goal 1 => try clear_value x); (on_goal 2 => (unfold x; clear x))) | (extract_lets -underBinder +onlyGivenNames x; have hf := fun z => x z) | (extract_lets -underBinder +onlyGivenNames x; try clear_value x) | split)

theorem State.takeEvent_keep {s0 s : State} (h : Keep s0 s)  : Keep s0 (State.takeEvent s) := by
  unfold State.takeEvent
  repeat' (with_reducible first | assumption | exact Keep.refl _ | apply State.recordEvent_keep | fail_if_no_progress (refine Keep.mk' ?_ rfl) | (extract_lets -underBinder +onlyGivenNames x; (refine (fun (hx : Keep s0 x) => ?_) ?_); (on_goal 1 => try clear_value x); (on_goal 2 => (unfold x; clear x))) | (extract_lets -underBinder +onlyGivenNames x; try clear_value x) | split)

theorem State.freezeOn_keep {s0 s : State} (h : Keep s0 s)  : Keep s0 (State.freezeOn s) := by
  unfold State.freezeOn
  repeat' (with_reducible first | assumption | exact Keep.refl _ | apply State.wr_keep | fail_if_no_progress (refine Keep.mk' ?_ rfl) | (extract_lets -underBinder +onlyGivenNames x; (refine (fun (hx : Keep s0 x) => ?_) ?_); (on_goal 1 => try clear_value x); (on_goal 2 => (unfold x; clear x))) | (extract_lets -underBinder +onlyGivenNames x; try clear_value x) | split)

theorem State.freezeOff_keep {s0 s : State} (h : Keep s0 s)  : Keep s0 (State.freezeOff s) := by
  unfold State.freezeOff
  repeat' (with_reducible first | assumption | exact Keep.refl _ | apply State.wr_keep | apply State.recStat_keep | apply State.ringPut_keep | apply Keep.foldl | apply Keep.foldl_fst | apply Keep.foldl_snd | intro _ | fail_if_no_progress (refine Keep.mk' ?_ rfl) | (extract_lets -underBinder +onlyGivenNames x; (refine (fun (hx : Keep s0 x) => ?_) ?_); (on_goal 1 => try clear_value x); (on_goal 2 => (unfold x; clear x))) | (extract_lets -underBinder +onlyGivenNames x; try clear_value x) | split)

theorem State.emberPut_keep {s0 s : State} (h : Keep s0 s) (x : EmberSlot) : Keep s0 (State.emberPut s x) := by
  unfold State.emberPut
  repeat' (with_reducible first | assumption | exact Keep.refl _ | fail_if_no_progress (refine Keep.mk' ?_ rfl) | (extract_lets -underBinder +onlyGivenNames x; (refine (fun (hx : Keep s0 x) => ?_) ?_); (on_goal 1 => try clear_value x); (on_goal 2 => (unfold x; clear x))) | (extract_lets -underBinder +onlyGivenNames x; try clear_value x) | split)

theorem State.emberFull_keep {s0 s : State} (h : Keep s0 s) (stop : Nat) : Keep s0 (State.emberFull s stop) := by
  unfold State.emberFull
  repeat' (with_reducible first | assumption | exact Keep.refl _ | apply State.emberPut_keep | fail_if_no_progress (refine Keep.mk' ?_ rfl))

theorem State.emberFinal_keep {s0 s : State} (h : Keep s0 s) (rail : Nat) : Keep s0 (State.emberFinal s rail) := by
  unfold State.emberFinal
  repeat' (with_reducible first | assumption | exact Keep.refl _ | apply State.emberPut_keep | fail_if_no_progress (refine Keep.mk' ?_ rfl) | (extract_lets -underBinder +onlyGivenNames x; (refine (fun (hx : Keep s0 x) => ?_) ?_); (on_goal 1 => try clear_value x); (on_goal 2 => (unfold x; clear x))) | (extract_lets -underBinder +onlyGivenNames x; try clear_value x))

theorem State.pmuCount_keep {s0 s : State} (h : Keep s0 s) (src ev inst tenant : Nat) (n : Nat) : Keep s0 (State.pmuCount s src ev inst tenant n) := by
  unfold State.pmuCount
  repeat' (with_reducible first | assumption | exact Keep.refl _ | apply Keep.foldl | intro _ | fail_if_no_progress (refine Keep.mk' ?_ rfl) | (extract_lets -underBinder +onlyGivenNames x; (refine (fun (hx : Keep s0 x) => ?_) ?_); (on_goal 1 => try clear_value x); (on_goal 2 => (unfold x; clear x))) | (extract_lets -underBinder +onlyGivenNames x; have hf := fun z => x z) | (extract_lets -underBinder +onlyGivenNames x; try clear_value x) | split)

end Sys2Proof.Machine
end

