-- ==== Sys2Proof/Laws/KeepSmpOps.lean ====
section
/-! SUPPORT. What the operations of Machine/SmpOps.lean keep (Keep). -/

set_option linter.unreachableTactic false
set_option linter.unusedTactic false
set_option linter.unusedVariables false

namespace Sys2Proof.Machine

theorem State.smpStart_keep {s0 s : State} (h : Keep s0 s) (port qpn tenant op : Nat) (ws : List Word64) (psn since : Nat) : Keep s0 (State.smpStart s port qpn tenant op ws psn since) := by
  unfold State.smpStart
  repeat' (with_reducible first | assumption | exact Keep.refl _ | apply State.satInc_keep | apply State.takeFree_keep | fail_if_no_progress (refine Keep.mk' ?_ rfl) | refine Keep.of_snd (by assumption) ?_ | (extract_lets -underBinder +onlyGivenNames x; (refine (fun (hx : Keep s0 x) => ?_) ?_); (on_goal 1 => try clear_value x); (on_goal 2 => (unfold x; clear x))) | (extract_lets -underBinder +onlyGivenNames x; (refine (fun (hx : Keep s0 x.2) => ?_) ?_); (on_goal 1 => try clear_value x); (on_goal 2 => (unfold x; clear x))) | (extract_lets -underBinder +onlyGivenNames x; try clear_value x) | split)

theorem State.smpStage_keep {s0 s : State} (h : Keep s0 s)  : Keep s0 (State.smpStage s).2 := by
  unfold State.smpStage
  repeat' (with_reducible first | assumption | exact Keep.refl _ | apply State.takeFree_keep | refine Keep.of_snd (by assumption) ?_ | (extract_lets -underBinder +onlyGivenNames x; (refine (fun (hx : Keep s0 x) => ?_) ?_); (on_goal 1 => try clear_value x); (on_goal 2 => (unfold x; clear x))) | (extract_lets -underBinder +onlyGivenNames x; (refine (fun (hx : Keep s0 x.2) => ?_) ?_); (on_goal 1 => try clear_value x); (on_goal 2 => (unfold x; clear x))) | (extract_lets -underBinder +onlyGivenNames x; try clear_value x) | split)

theorem State.smpSealed_keep {s0 s : State} (h : Keep s0 s) (since : Nat) (epoch : Option Nat) : Keep s0 (State.smpSealed s since epoch).2 := by
  unfold State.smpSealed
  repeat' (with_reducible first | assumption | exact Keep.refl _ | apply State.smpStage_keep | fail_if_no_progress (refine Keep.mk' ?_ rfl) | refine Keep.of_snd (by assumption) ?_ | (extract_lets -underBinder +onlyGivenNames x; (refine (fun (hx : Keep s0 x) => ?_) ?_); (on_goal 1 => try clear_value x); (on_goal 2 => (unfold x; clear x))) | (extract_lets -underBinder +onlyGivenNames x; (refine (fun (hx : Keep s0 x.2) => ?_) ?_); (on_goal 1 => try clear_value x); (on_goal 2 => (unfold x; clear x))) | (extract_lets -underBinder +onlyGivenNames x; try clear_value x) | split)

theorem State.smpRecord_keep {s0 s : State} (h : Keep s0 s) (ws : List Word64) (since outcome syndrome : Nat) (epoch : Option Nat) (answered : Bool) : Keep s0 (State.smpRecord s ws since outcome syndrome epoch answered) := by
  unfold State.smpRecord
  repeat' (with_reducible first | assumption | exact Keep.refl _ | apply State.satInc_keep | apply State.raiseIf_keep | apply State.smpStage_keep | apply State.smpSealed_keep | fail_if_no_progress (refine Keep.mk' ?_ rfl) | refine Keep.of_snd (by assumption) ?_ | (extract_lets -underBinder +onlyGivenNames x; (refine (fun (hx : Keep s0 x) => ?_) ?_); (on_goal 1 => try clear_value x); (on_goal 2 => (unfold x; clear x))) | (extract_lets -underBinder +onlyGivenNames x; (refine (fun (hx : Keep s0 x.2) => ?_) ?_); (on_goal 1 => try clear_value x); (on_goal 2 => (unfold x; clear x))) | (extract_lets -underBinder +onlyGivenNames x; have hf := fun z => x z) | (extract_lets -underBinder +onlyGivenNames x; try clear_value x) | split)

theorem State.smpEnd_keep {s0 s : State} (h : Keep s0 s) (qpn psn outcome syndrome : Nat) (epoch : Option Nat) (answered : Bool) : Keep s0 (State.smpEnd s qpn psn outcome syndrome epoch answered) := by
  unfold State.smpEnd
  repeat' (with_reducible first | assumption | exact Keep.refl _ | apply State.smpRecord_keep | fail_if_no_progress (refine Keep.mk' ?_ rfl) | (extract_lets -underBinder +onlyGivenNames x; (refine (fun (hx : Keep s0 x) => ?_) ?_); (on_goal 1 => try clear_value x); (on_goal 2 => (unfold x; clear x))) | (extract_lets -underBinder +onlyGivenNames x; try clear_value x) | split)

theorem State.smpMod_keep {s0 s : State} (h : Keep s0 s) (qpn psn : Nat) (f : List Word64 → List Word64) : Keep s0 (State.smpMod s qpn psn f) := by
  unfold State.smpMod
  repeat' (with_reducible first | assumption | exact Keep.refl _ | fail_if_no_progress (refine Keep.mk' ?_ rfl) | (extract_lets -underBinder +onlyGivenNames x; (refine (fun (hx : Keep s0 x) => ?_) ?_); (on_goal 1 => try clear_value x); (on_goal 2 => (unfold x; clear x))) | exact KeepO.get (by assumption) rfl | exact KeepO.none | apply KeepO.some | (apply KeepO.map; intro _) | (extract_lets -underBinder +onlyGivenNames x; (refine (fun (hx : KeepO s0 x) => ?_) ?_); (on_goal 1 => try clear_value x); (on_goal 2 => (unfold x; clear x))) | (extract_lets -underBinder +onlyGivenNames x; try clear_value x) | split)

theorem State.smpStall_keep {s0 s : State} (h : Keep s0 s) (qpn psn cause : Nat) : Keep s0 (State.smpStall s qpn psn cause) := by
  unfold State.smpStall
  repeat' (with_reducible first | assumption | exact Keep.refl _ | apply State.smpMod_keep | split)

theorem State.smpDrop_keep {s0 s : State} (h : Keep s0 s) (qpn outcome : Nat) : Keep s0 (State.smpDrop s qpn outcome) := by
  unfold State.smpDrop
  repeat' (with_reducible first | assumption | exact Keep.refl _ | apply State.smpRecord_keep | apply Keep.foldl | intro _ | fail_if_no_progress (refine Keep.mk' ?_ rfl) | (extract_lets -underBinder +onlyGivenNames x; (refine (fun (hx : Keep s0 x) => ?_) ?_); (on_goal 1 => try clear_value x); (on_goal 2 => (unfold x; clear x))) | (extract_lets -underBinder +onlyGivenNames x; try clear_value x))

theorem State.smpDiscard_keep {s0 s : State} (h : Keep s0 s) (qpn psn : Nat) : Keep s0 (State.smpDiscard s qpn psn) := by
  unfold State.smpDiscard
  repeat' (with_reducible first | assumption | exact Keep.refl _ | apply State.smpRecord_keep | apply Keep.foldl | intro _ | fail_if_no_progress (refine Keep.mk' ?_ rfl) | (extract_lets -underBinder +onlyGivenNames x; (refine (fun (hx : Keep s0 x) => ?_) ?_); (on_goal 1 => try clear_value x); (on_goal 2 => (unfold x; clear x))) | (extract_lets -underBinder +onlyGivenNames x; have hf := fun z => x z) | (extract_lets -underBinder +onlyGivenNames x; try clear_value x))

end Sys2Proof.Machine
end

