-- ==== Sys2Proof/Laws/KeepBankOps.lean ====
section
/-! SUPPORT. What the operations of Machine/BankOps.lean keep (Keep). -/

set_option linter.unreachableTactic false
set_option linter.unusedTactic false
set_option linter.unusedVariables false

namespace Sys2Proof.Machine

theorem State.ask_keep {s0 s : State} (h : Keep s0 s) (who : Requester) (addr : Nat) : Keep s0 (State.ask s who addr) := by
  unfold State.ask
  repeat' (with_reducible first | assumption | exact Keep.refl _ | fail_if_no_progress (refine Keep.mk' ?_ rfl) | (extract_lets -underBinder +onlyGivenNames x; (refine (fun (hx : Keep s0 x) => ?_) ?_); (on_goal 1 => try clear_value x); (on_goal 2 => (unfold x; clear x))) | (extract_lets -underBinder +onlyGivenNames x; try clear_value x))

theorem State.askWay_keep {s0 s : State} (h : Keep s0 s) (who : Requester) (i : Nat) : Keep s0 (State.askWay s who i) := by
  unfold State.askWay
  repeat' (with_reducible first | assumption | exact Keep.refl _ | apply State.ask_keep)

theorem State.askIn_keep {s0 s : State} (h : Keep s0 s) (who : Requester) (baseMib sizeMib lines : Nat) : Keep s0 (State.askIn s who baseMib sizeMib lines) := by
  unfold State.askIn
  repeat' (with_reducible first | assumption | exact Keep.refl _ | apply State.takeFree_keep | apply State.ask_keep | apply Keep.foldl | apply Keep.foldl_fst | apply Keep.foldl_snd | intro _ | refine Keep.of_snd (by assumption) ?_ | (extract_lets -underBinder +onlyGivenNames x; (refine (fun (hx : Keep s0 x) => ?_) ?_); (on_goal 1 => try clear_value x); (on_goal 2 => (unfold x; clear x))) | (extract_lets -underBinder +onlyGivenNames x; (refine (fun (hx : Keep s0 x.2) => ?_) ?_); (on_goal 1 => try clear_value x); (on_goal 2 => (unfold x; clear x))) | (extract_lets -underBinder +onlyGivenNames x; try clear_value x) | split)

theorem State.grant_keep {s0 s : State} (h : Keep s0 s) (b t : Nat) (r : BankReq) : Keep s0 (State.grant s b t r) := by
  unfold State.grant
  repeat' (with_reducible first | assumption | exact Keep.refl _ | apply State.pmuCount_keep | fail_if_no_progress (refine Keep.mk' ?_ rfl) | (extract_lets -underBinder +onlyGivenNames x; (refine (fun (hx : Keep s0 x) => ?_) ?_); (on_goal 1 => try clear_value x); (on_goal 2 => (unfold x; clear x))) | exact KeepO.get (by assumption) rfl | exact KeepO.none | apply KeepO.some | (apply KeepO.map; intro _) | (extract_lets -underBinder +onlyGivenNames x; (refine (fun (hx : KeepO s0 x) => ?_) ?_); (on_goal 1 => try clear_value x); (on_goal 2 => (unfold x; clear x))) | (extract_lets -underBinder +onlyGivenNames x; try clear_value x) | split)

theorem bankLoop_keep {s0 : State}  : ∀ (a0 : Nat) (a1 : State) (a2 : Nat), Keep s0 a1 → Keep s0 (bankLoop a0 a1 a2) := by
  intro  a0
  induction a0 with
  | zero =>
    intro a1 a2 h
    first | rw [bankLoop] | unfold bankLoop
    repeat' (with_reducible first | assumption | exact Keep.refl _ | apply State.grant_keep | fail_if_no_progress (refine Keep.mk' ?_ rfl) | (extract_lets -underBinder +onlyGivenNames x; (refine (fun (hx : Keep s0 x) => ?_) ?_); (on_goal 1 => try clear_value x); (on_goal 2 => (unfold x; clear x))) | (extract_lets -underBinder +onlyGivenNames x; try clear_value x) | split)
  | succ n ih =>
    intro a1 a2 h
    first | rw [bankLoop] | unfold bankLoop
    repeat' (with_reducible first | assumption | apply ih | exact Keep.refl _ | apply State.grant_keep | fail_if_no_progress (refine Keep.mk' ?_ rfl) | (extract_lets -underBinder +onlyGivenNames x; (refine (fun (hx : Keep s0 x) => ?_) ?_); (on_goal 1 => try clear_value x); (on_goal 2 => (unfold x; clear x))) | (extract_lets -underBinder +onlyGivenNames x; try clear_value x) | split)

theorem State.banksGo_keep {s0 s : State} (h : Keep s0 s)  : Keep s0 (State.banksGo s) := by
  unfold State.banksGo
  repeat' (with_reducible first | assumption | exact Keep.refl _ | apply bankLoop_keep | apply Keep.foldl | intro _ | fail_if_no_progress (refine Keep.mk' ?_ rfl) | (extract_lets -underBinder +onlyGivenNames x; (refine (fun (hx : Keep s0 x) => ?_) ?_); (on_goal 1 => try clear_value x); (on_goal 2 => (unfold x; clear x))) | (extract_lets -underBinder +onlyGivenNames x; try clear_value x) | split)

end Sys2Proof.Machine
end

