-- ==== Sys2Proof/Laws/KeepDramOps.lean ====
section
/-! SUPPORT. What the operations of Machine/DramOps.lean keep (Keep). -/

set_option linter.unreachableTactic false
set_option linter.unusedTactic false
set_option linter.unusedVariables false

namespace Sys2Proof.Machine

theorem State.setChan_keep {s0 s : State} (h : Keep s0 s) (c : Nat) (v : Chan) : Keep s0 (State.setChan s c v) := by
  unfold State.setChan
  repeat' (with_reducible first | assumption | exact Keep.refl _ | fail_if_no_progress (refine Keep.mk' ?_ rfl) | (extract_lets -underBinder +onlyGivenNames x; (refine (fun (hx : Keep s0 x) => ?_) ?_); (on_goal 1 => try clear_value x); (on_goal 2 => (unfold x; clear x))) | (extract_lets -underBinder +onlyGivenNames x; have hd : x.dram = x.dram := rfl) | (extract_lets -underBinder +onlyGivenNames x; try clear_value x))

theorem State.modChan_keep {s0 s : State} (h : Keep s0 s) (c : Nat) (f : Chan → Chan) : Keep s0 (State.modChan s c f) := by
  unfold State.modChan
  repeat' (with_reducible first | assumption | exact Keep.refl _ | apply State.setChan_keep)

theorem State.setChanSt_keep {s0 s : State} (h : Keep s0 s) (c v : Nat) : Keep s0 (State.setChanSt s c v) := by
  unfold State.setChanSt
  repeat' (with_reducible first | assumption | exact Keep.refl _ | apply State.setStat_keep)

theorem State.dchCount_keep {s0 s : State} (h : Keep s0 s) (c k : Nat) (n : Nat) : Keep s0 (State.dchCount s c k n) := by
  unfold State.dchCount
  repeat' (with_reducible first | assumption | exact Keep.refl _ | apply State.inc_keep)

theorem State.trainGroup_keep {s0 s : State} (h : Keep s0 s) (g : Nat) : Keep s0 (State.trainGroup s g) := by
  unfold State.trainGroup
  repeat' (with_reducible first | assumption | exact Keep.refl _ | apply State.setChanSt_keep | apply Keep.foldl | intro _)

theorem State.trainNext_keep {s0 s : State} (h : Keep s0 s) (g : Nat) : Keep s0 (State.trainNext s g) := by
  unfold State.trainNext
  repeat' (with_reducible first | assumption | exact Keep.refl _ | apply State.trainGroup_keep | split)

theorem State.setRankSt_keep {s0 s : State} (h : Keep s0 s) (c r v : Nat) : Keep s0 (State.setRankSt s c r v) := by
  unfold State.setRankSt
  repeat' (with_reducible first | assumption | exact Keep.refl _ | apply State.wr_keep | (extract_lets -underBinder +onlyGivenNames x; (refine (fun (hx : Keep s0 x) => ?_) ?_); (on_goal 1 => try clear_value x); (on_goal 2 => (unfold x; clear x))) | (extract_lets -underBinder +onlyGivenNames x; try clear_value x))

theorem State.dramReq_keep {s0 s : State} (h : Keep s0 s) (c f j : Nat) (write : Bool) (cls : Nat) : Keep s0 (State.dramReq s c f j write cls) := by
  unfold State.dramReq
  repeat' (with_reducible first | assumption | exact Keep.refl _ | apply State.setChan_keep | apply State.dchCount_keep | fail_if_no_progress (refine Keep.mk' ?_ rfl) | (extract_lets -underBinder +onlyGivenNames x; (refine (fun (hx : Keep s0 x) => ?_) ?_); (on_goal 1 => try clear_value x); (on_goal 2 => (unfold x; clear x))) | (extract_lets -underBinder +onlyGivenNames x; have hd : x.dram = x.dram := rfl) | (extract_lets -underBinder +onlyGivenNames x; try clear_value x) | split)

theorem State.dramTaken_keep {s0 s : State} (h : Keep s0 s) (c f j : Nat) (write : Bool) : Keep s0 (State.dramTaken s c f j write) := by
  unfold State.dramTaken
  repeat' (with_reducible first | assumption | exact Keep.refl _ | apply State.setChan_keep | apply State.dchCount_keep | fail_if_no_progress (refine Keep.mk' ?_ rfl) | (extract_lets -underBinder +onlyGivenNames x; (refine (fun (hx : Keep s0 x) => ?_) ?_); (on_goal 1 => try clear_value x); (on_goal 2 => (unfold x; clear x))) | (extract_lets -underBinder +onlyGivenNames x; have hf := fun z => x z) | (extract_lets -underBinder +onlyGivenNames x; try clear_value x) | split)

theorem State.setChFrames_keep {s0 s : State} (h : Keep s0 s) (c : Nat) (f : ChFrames) : Keep s0 (State.setChFrames s c f) := by
  unfold State.setChFrames
  repeat' (with_reducible first | assumption | exact Keep.refl _ | fail_if_no_progress (refine Keep.mk' ?_ rfl) | (extract_lets -underBinder +onlyGivenNames x; (refine (fun (hx : Keep s0 x) => ?_) ?_); (on_goal 1 => try clear_value x); (on_goal 2 => (unfold x; clear x))) | (extract_lets -underBinder +onlyGivenNames x; have hd : x.dram = x.dram := rfl) | (extract_lets -underBinder +onlyGivenNames x; try clear_value x))

theorem State.takeIdx_keep {s0 s : State} (h : Keep s0 s) (c : Nat) : Keep s0 (State.takeIdx s c).2 := by
  unfold State.takeIdx
  repeat' (with_reducible first | assumption | exact Keep.refl _ | apply State.setChFrames_keep | fail_if_no_progress (refine Keep.mk' ?_ rfl) | (extract_lets -underBinder +onlyGivenNames x; (refine (fun (hx : Keep s0 x) => ?_) ?_); (on_goal 1 => try clear_value x); (on_goal 2 => (unfold x; clear x))) | (extract_lets -underBinder +onlyGivenNames x; (refine (fun (hx : Keep s0 x.2) => ?_) ?_); (on_goal 1 => try clear_value x); (on_goal 2 => (unfold x; clear x))) | (extract_lets -underBinder +onlyGivenNames x; try clear_value x) | split)

theorem State.takeFrame_keep {s0 s : State} (h : Keep s0 s) (p : Nat) : KeepO3 s0 (State.takeFrame s p) := by
  unfold State.takeFrame
  repeat' (with_reducible first | assumption | exact Keep.refl _ | apply State.setChFrames_keep | apply State.takeIdx_keep | fail_if_no_progress (refine Keep.mk' ?_ rfl) | refine Keep.of_snd (by assumption) ?_ | exact KeepO3.none | apply KeepO3.some | (extract_lets -underBinder +onlyGivenNames x; (refine (fun (hx : Keep s0 x) => ?_) ?_); (on_goal 1 => try clear_value x); (on_goal 2 => (unfold x; clear x))) | (extract_lets -underBinder +onlyGivenNames x; (refine (fun (hx : Keep s0 x.2) => ?_) ?_); (on_goal 1 => try clear_value x); (on_goal 2 => (unfold x; clear x))) | (extract_lets -underBinder +onlyGivenNames x; try clear_value x) | split)

theorem State.takeSpare_keep {s0 s : State} (h : Keep s0 s) (c : Nat) : KeepO3 s0 (State.takeSpare s c) := by
  unfold State.takeSpare
  repeat' (with_reducible first | assumption | exact Keep.refl _ | apply State.setChFrames_keep | apply State.takeIdx_keep | fail_if_no_progress (refine Keep.mk' ?_ rfl) | refine Keep.of_snd (by assumption) ?_ | exact KeepO3.none | apply KeepO3.some | (extract_lets -underBinder +onlyGivenNames x; (refine (fun (hx : Keep s0 x) => ?_) ?_); (on_goal 1 => try clear_value x); (on_goal 2 => (unfold x; clear x))) | (extract_lets -underBinder +onlyGivenNames x; (refine (fun (hx : Keep s0 x.2) => ?_) ?_); (on_goal 1 => try clear_value x); (on_goal 2 => (unfold x; clear x))) | (extract_lets -underBinder +onlyGivenNames x; try clear_value x) | split)

theorem State.giveFrame_keep {s0 s : State} (h : Keep s0 s) (c i : Nat) : Keep s0 (State.giveFrame s c i) := by
  unfold State.giveFrame
  repeat' (with_reducible first | assumption | exact Keep.refl _ | apply State.setChFrames_keep | fail_if_no_progress (refine Keep.mk' ?_ rfl) | (extract_lets -underBinder +onlyGivenNames x; (refine (fun (hx : Keep s0 x) => ?_) ?_); (on_goal 1 => try clear_value x); (on_goal 2 => (unfold x; clear x))) | (extract_lets -underBinder +onlyGivenNames x; try clear_value x) | split)

theorem State.retireEnd_keep {s0 s : State} (h : Keep s0 s) (c : Nat) : Keep s0 (State.retireEnd s c) := by
  unfold State.retireEnd
  repeat' (with_reducible first | assumption | exact Keep.refl _ | apply State.raise_keep | apply State.setChanSt_keep | apply State.setRankSt_keep | apply State.setChFrames_keep | apply Keep.foldl | apply Keep.foldl_fst | apply Keep.foldl_snd | intro _ | fail_if_no_progress (refine Keep.mk' ?_ rfl) | (extract_lets -underBinder +onlyGivenNames x; (refine (fun (hx : Keep s0 x) => ?_) ?_); (on_goal 1 => try clear_value x); (on_goal 2 => (unfold x; clear x))) | (extract_lets -underBinder +onlyGivenNames x; have hd : x.dram = x.dram := rfl) | (extract_lets -underBinder +onlyGivenNames x; try clear_value x) | split)

theorem State.retireRank_keep {s0 s : State} (h : Keep s0 s) (c r : Nat) (readable : Bool) : Keep s0 (State.retireRank s c r readable) := by
  unfold State.retireRank
  repeat' (with_reducible first | assumption | exact Keep.refl _ | apply State.wr_keep | apply State.raise_keep | apply State.modChan_keep | apply State.setRankSt_keep | apply State.setChFrames_keep | apply State.retireEnd_keep | apply Keep.foldl | apply Keep.foldl_fst | apply Keep.foldl_snd | intro _ | fail_if_no_progress (refine Keep.mk' ?_ rfl) | (extract_lets -underBinder +onlyGivenNames x; (refine (fun (hx : Keep s0 x) => ?_) ?_); (on_goal 1 => try clear_value x); (on_goal 2 => (unfold x; clear x))) | (extract_lets -underBinder +onlyGivenNames x; try clear_value x) | split)

theorem State.ceSeen_keep {s0 s : State} (h : Keep s0 s) (c r : Nat) : Keep s0 (State.ceSeen s c r) := by
  unfold State.ceSeen
  repeat' (with_reducible first | assumption | exact Keep.refl _ | apply State.modChan_keep | apply State.dchCount_keep | apply State.retireRank_keep | fail_if_no_progress (refine Keep.mk' ?_ rfl) | (extract_lets -underBinder +onlyGivenNames x; (refine (fun (hx : Keep s0 x) => ?_) ?_); (on_goal 1 => try clear_value x); (on_goal 2 => (unfold x; clear x))) | (extract_lets -underBinder +onlyGivenNames x; try clear_value x) | split)

theorem State.ueSeen_keep {s0 s : State} (h : Keep s0 s) (c r : Nat) : Keep s0 (State.ueSeen s c r) := by
  unfold State.ueSeen
  repeat' (with_reducible first | assumption | exact Keep.refl _ | apply State.wr_keep | apply State.retireRank_keep | (extract_lets -underBinder +onlyGivenNames x; (refine (fun (hx : Keep s0 x) => ?_) ?_); (on_goal 1 => try clear_value x); (on_goal 2 => (unfold x; clear x))) | (extract_lets -underBinder +onlyGivenNames x; try clear_value x) | split)

end Sys2Proof.Machine
end

