-- ==== Sys2Proof/Laws/KeepCacheOps.lean ====
section
/-! SUPPORT. What the operations of Machine/CacheOps.lean keep (Keep). -/

set_option linter.unreachableTactic false
set_option linter.unusedTactic false
set_option linter.unusedVariables false

namespace Sys2Proof.Machine

/-- The state an allocation leaves. -/
def KeepA (a : State) : Alloc → Prop
  | .way _ s => Keep a s
  | _ => True
theorem KeepA.way {a s : State} {i : Nat} (h : Keep a s) : KeepA a (.way i s) := h
theorem KeepA.bypass {a : State} : KeepA a .bypass := trivial
theorem KeepA.waitSet {a : State} {n : Nat} : KeepA a (.waitSet n) := trivial
theorem KeepA.waitFlue {a : State} : KeepA a .waitFlue := trivial
theorem KeepA.of_way {a t : State} {i : Nat} {r : Alloc} (h : KeepA a r) (e : r = .way i t) : Keep a t := by subst e; exact h

theorem State.setWay_keep {s0 s : State} (h : Keep s0 s) (i : Nat) (w : Way) : Keep s0 (State.setWay s i w) := by
  unfold State.setWay
  repeat' (with_reducible first | assumption | exact Keep.refl _ | fail_if_no_progress (refine Keep.mk' ?_ rfl) | (extract_lets -underBinder +onlyGivenNames x; (refine (fun (hx : Keep s0 x) => ?_) ?_); (on_goal 1 => try clear_value x); (on_goal 2 => (unfold x; clear x))) | (extract_lets -underBinder +onlyGivenNames x; try clear_value x))

theorem State.dropWay_keep {s0 s : State} (h : Keep s0 s) (i : Nat) : Keep s0 (State.dropWay s i) := by
  unfold State.dropWay
  repeat' (with_reducible first | assumption | exact Keep.refl _ | fail_if_no_progress (refine Keep.mk' ?_ rfl) | (extract_lets -underBinder +onlyGivenNames x; (refine (fun (hx : Keep s0 x) => ?_) ?_); (on_goal 1 => try clear_value x); (on_goal 2 => (unfold x; clear x))) | (extract_lets -underBinder +onlyGivenNames x; try clear_value x))

theorem State.freeWay_keep {s0 s : State} (h : Keep s0 s) (i : Nat) : Keep s0 (State.freeWay s i) := by
  unfold State.freeWay
  repeat' (with_reducible first | assumption | exact Keep.refl _ | apply State.dropWay_keep | fail_if_no_progress (refine Keep.mk' ?_ rfl) | (extract_lets -underBinder +onlyGivenNames x; (refine (fun (hx : Keep s0 x) => ?_) ?_); (on_goal 1 => try clear_value x); (on_goal 2 => (unfold x; clear x))) | (extract_lets -underBinder +onlyGivenNames x; try clear_value x) | split)

theorem State.touch_keep {s0 s : State} (h : Keep s0 s) (i : Nat) : Keep s0 (State.touch s i) := by
  unfold State.touch
  repeat' (with_reducible first | assumption | exact Keep.refl _ | fail_if_no_progress (refine Keep.mk' ?_ rfl) | (extract_lets -underBinder +onlyGivenNames x; (refine (fun (hx : Keep s0 x) => ?_) ?_); (on_goal 1 => try clear_value x); (on_goal 2 => (unfold x; clear x))) | (extract_lets -underBinder +onlyGivenNames x; try clear_value x))

theorem State.mshrPeak_keep {s0 s : State} (h : Keep s0 s)  : Keep s0 (State.mshrPeak s) := by
  unfold State.mshrPeak
  repeat' (with_reducible first | assumption | exact Keep.refl _ | apply State.wr_keep | split)

theorem State.setDram_keep {s0 s : State} (h : Keep s0 s) (ch idx l : Nat) (v : DLine) : Keep s0 (s.setDram ch idx l v) :=
  h.trans ⟨id, fun x => NMap.wf_put (d := fun _ => ({} : DLine)) (m := s.tier.dram) (k := dramKey ch idx l) (v := v) x, rfl, rfl, Nat.le_refl _, Nat.le_refl _, ⟨[], rfl⟩⟩

theorem State.fillFrame_keep {s0 s : State} (h : Keep s0 s) (ch idx cls : Nat) (f : Nat → DLine) : Keep s0 (State.fillFrame s ch idx cls f) := by
  unfold State.fillFrame
  repeat' (with_reducible first | assumption | exact Keep.refl _ | apply State.dramReq_keep | apply State.setDram_keep | apply Keep.foldl | intro _)

theorem State.lineReq_keep {s0 s : State} (h : Keep s0 s) (k ch : Nat) (write : Bool) (cls : Nat) : Keep s0 (State.lineReq s k ch write cls) := by
  unfold State.lineReq
  repeat' (with_reducible first | assumption | exact Keep.refl _ | apply State.dramReq_keep | split)

theorem State.setPte_keep {s0 s : State} (h : Keep s0 s) (p : Nat) (e : Pte) : Keep s0 (State.setPte s p e) := by
  unfold State.setPte
  repeat' (with_reducible first | assumption | exact Keep.refl _ | apply State.lineReq_keep | fail_if_no_progress (refine Keep.mk' ?_ rfl) | (extract_lets -underBinder +onlyGivenNames x; (refine (fun (hx : Keep s0 x) => ?_) ?_); (on_goal 1 => try clear_value x); (on_goal 2 => (unfold x; clear x))) | (extract_lets -underBinder +onlyGivenNames x; have hd : x.dram = x.dram := rfl) | (extract_lets -underBinder +onlyGivenNames x; try clear_value x) | split)

theorem State.addT1_keep {s0 s : State} (h : Keep s0 s) (t up down : Nat) : Keep s0 (State.addT1 s t up down) := by
  unfold State.addT1
  repeat' (with_reducible first | assumption | exact Keep.refl _ | fail_if_no_progress (refine Keep.mk' ?_ rfl) | (extract_lets -underBinder +onlyGivenNames x; (refine (fun (hx : Keep s0 x) => ?_) ?_); (on_goal 1 => try clear_value x); (on_goal 2 => (unfold x; clear x))) | (extract_lets -underBinder +onlyGivenNames x; have hd : x.dram = x.dram := rfl) | (extract_lets -underBinder +onlyGivenNames x; try clear_value x))

theorem State.addT2_keep {s0 s : State} (h : Keep s0 s) (t up down : Nat) : Keep s0 (State.addT2 s t up down) := by
  unfold State.addT2
  repeat' (with_reducible first | assumption | exact Keep.refl _ | fail_if_no_progress (refine Keep.mk' ?_ rfl) | (extract_lets -underBinder +onlyGivenNames x; (refine (fun (hx : Keep s0 x) => ?_) ?_); (on_goal 1 => try clear_value x); (on_goal 2 => (unfold x; clear x))) | (extract_lets -underBinder +onlyGivenNames x; have hd : x.dram = x.dram := rfl) | (extract_lets -underBinder +onlyGivenNames x; try clear_value x))

theorem State.heatPage_keep {s0 s : State} (h : Keep s0 s) (p : Nat) : Keep s0 (State.heatPage s p) := by
  unfold State.heatPage
  repeat' (with_reducible first | assumption | exact Keep.refl _ | apply State.setPte_keep | fail_if_no_progress (refine Keep.mk' ?_ rfl) | (extract_lets -underBinder +onlyGivenNames x; (refine (fun (hx : Keep s0 x) => ?_) ?_); (on_goal 1 => try clear_value x); (on_goal 2 => (unfold x; clear x))) | (extract_lets -underBinder +onlyGivenNames x; try clear_value x) | split)

theorem State.charge_keep {s0 s : State} (h : Keep s0 s) (line tenant : Nat) : Keep s0 (State.charge s line tenant) := by
  unfold State.charge
  repeat' (with_reducible first | assumption | exact Keep.refl _ | apply State.wr_keep | apply State.addWused_keep | apply State.setPte_keep | fail_if_no_progress (refine Keep.mk' ?_ rfl) | (extract_lets -underBinder +onlyGivenNames x; (refine (fun (hx : Keep s0 x) => ?_) ?_); (on_goal 1 => try clear_value x); (on_goal 2 => (unfold x; clear x))) | exact KeepO.get (by assumption) rfl | exact KeepO.none | apply KeepO.some | (apply KeepO.map; intro _) | (extract_lets -underBinder +onlyGivenNames x; (refine (fun (hx : KeepO s0 x) => ?_) ?_); (on_goal 1 => try clear_value x); (on_goal 2 => (unfold x; clear x))) | (extract_lets -underBinder +onlyGivenNames x; have hd : x.dram = x.dram := rfl) | (extract_lets -underBinder +onlyGivenNames x; try clear_value x) | split)

theorem State.modOp_keep {s0 s : State} (h : Keep s0 s) (id : Nat) (f : Op → Op) : Keep s0 (State.modOp s id f) := by
  unfold State.modOp
  repeat' (with_reducible first | assumption | exact Keep.refl _ | fail_if_no_progress (refine Keep.mk' ?_ rfl) | (extract_lets -underBinder +onlyGivenNames x; (refine (fun (hx : Keep s0 x) => ?_) ?_); (on_goal 1 => try clear_value x); (on_goal 2 => (unfold x; clear x))) | exact KeepO.get (by assumption) rfl | exact KeepO.none | apply KeepO.some | (apply KeepO.map; intro _) | (extract_lets -underBinder +onlyGivenNames x; (refine (fun (hx : KeepO s0 x) => ?_) ?_); (on_goal 1 => try clear_value x); (on_goal 2 => (unfold x; clear x))) | (extract_lets -underBinder +onlyGivenNames x; try clear_value x) | split)

theorem State.unreserve_keep {s0 s : State} (h : Keep s0 s) (tenant n : Nat) : Keep s0 (State.unreserve s tenant n) := by
  unfold State.unreserve
  repeat' (with_reducible first | assumption | exact Keep.refl _ | apply State.wr_keep | apply State.addWused_keep)

theorem State.moveWait_keep {s0 s : State} (h : Keep s0 s) (k : Nat) : Keep s0 (State.moveWait s k) := by
  unfold State.moveWait
  repeat' (with_reducible first | assumption | exact Keep.refl _ | apply State.inc_keep | apply State.pmuCount_keep | fail_if_no_progress (refine Keep.mk' ?_ rfl) | (extract_lets -underBinder +onlyGivenNames x; (refine (fun (hx : Keep s0 x) => ?_) ?_); (on_goal 1 => try clear_value x); (on_goal 2 => (unfold x; clear x))) | (extract_lets -underBinder +onlyGivenNames x; try clear_value x) | split)

theorem State.toFlue_keep {s0 s : State} (h : Keep s0 s) (k : Nat) (data : Line) (poison : Bool) : Keep s0 (State.toFlue s k data poison) := by
  unfold State.toFlue
  repeat' (with_reducible first | assumption | exact Keep.refl _ | apply State.lineReq_keep | apply State.moveWait_keep | fail_if_no_progress (refine Keep.mk' ?_ rfl) | (extract_lets -underBinder +onlyGivenNames x; (refine (fun (hx : Keep s0 x) => ?_) ?_); (on_goal 1 => try clear_value x); (on_goal 2 => (unfold x; clear x))) | (extract_lets -underBinder +onlyGivenNames x; try clear_value x) | split)

theorem State.alloc_keep {s0 s : State} (h : Keep s0 s) (k t : Nat) : KeepA s0 (State.alloc s k t) := by
  unfold State.alloc
  repeat' (with_reducible first | assumption | exact Keep.refl _ | apply State.dropWay_keep | apply State.toFlue_keep | fail_if_no_progress (refine Keep.mk' ?_ rfl) | apply KeepA.way | exact KeepA.bypass | exact KeepA.waitSet | exact KeepA.waitFlue | (extract_lets -underBinder +onlyGivenNames x; (refine (fun (hx : Keep s0 x) => ?_) ?_); (on_goal 1 => try clear_value x); (on_goal 2 => (unfold x; clear x))) | (extract_lets -underBinder +onlyGivenNames x; have hf := fun z => x z) | (extract_lets -underBinder +onlyGivenNames x; try clear_value x) | split)

theorem State.quotaBypass_keep {s0 s : State} (h : Keep s0 s) (t : Nat) : Keep s0 (State.quotaBypass s t) := by
  unfold State.quotaBypass
  repeat' (with_reducible first | assumption | exact Keep.refl _ | apply State.satInc_keep | fail_if_no_progress (refine Keep.mk' ?_ rfl) | (extract_lets -underBinder +onlyGivenNames x; (refine (fun (hx : Keep s0 x) => ?_) ?_); (on_goal 1 => try clear_value x); (on_goal 2 => (unfold x; clear x))) | (extract_lets -underBinder +onlyGivenNames x; try clear_value x))

theorem State.reinstate_keep {s0 s : State} (h : Keep s0 s) (k : Nat) : Keep s0 (State.reinstate s k) := by
  unfold State.reinstate
  repeat' (with_reducible first | assumption | exact Keep.refl _ | fail_if_no_progress (refine Keep.mk' ?_ rfl) | (extract_lets -underBinder +onlyGivenNames x; (refine (fun (hx : Keep s0 x) => ?_) ?_); (on_goal 1 => try clear_value x); (on_goal 2 => (unfold x; clear x))) | exact KeepO.get (by assumption) rfl | exact KeepO.none | apply KeepO.some | (apply KeepO.map; intro _) | (extract_lets -underBinder +onlyGivenNames x; (refine (fun (hx : KeepO s0 x) => ?_) ?_); (on_goal 1 => try clear_value x); (on_goal 2 => (unfold x; clear x))) | (extract_lets -underBinder +onlyGivenNames x; have hf := fun z => x z) | (extract_lets -underBinder +onlyGivenNames x; try clear_value x) | split)

theorem State.pin_keep {s0 s : State} (h : Keep s0 s) (i : Nat) : Keep s0 (State.pin s i) := by
  unfold State.pin
  repeat' (with_reducible first | assumption | exact Keep.refl _ | apply State.setWay_keep | fail_if_no_progress (refine Keep.mk' ?_ rfl) | (extract_lets -underBinder +onlyGivenNames x; (refine (fun (hx : Keep s0 x) => ?_) ?_); (on_goal 1 => try clear_value x); (on_goal 2 => (unfold x; clear x))) | (extract_lets -underBinder +onlyGivenNames x; try clear_value x) | split)

theorem State.unpin_keep {s0 s : State} (h : Keep s0 s) (i : Nat) : Keep s0 (State.unpin s i) := by
  unfold State.unpin
  repeat' (with_reducible first | assumption | exact Keep.refl _ | apply State.setWay_keep | apply State.freeWay_keep | fail_if_no_progress (refine Keep.mk' ?_ rfl) | (extract_lets -underBinder +onlyGivenNames x; (refine (fun (hx : Keep s0 x) => ?_) ?_); (on_goal 1 => try clear_value x); (on_goal 2 => (unfold x; clear x))) | (extract_lets -underBinder +onlyGivenNames x; try clear_value x) | split)

theorem State.invalidate_keep {s0 s : State} (h : Keep s0 s) (i : Nat) : Keep s0 (State.invalidate s i) := by
  unfold State.invalidate
  repeat' (with_reducible first | assumption | exact Keep.refl _ | apply State.setWay_keep | apply State.freeWay_keep | fail_if_no_progress (refine Keep.mk' ?_ rfl) | (extract_lets -underBinder +onlyGivenNames x; (refine (fun (hx : Keep s0 x) => ?_) ?_); (on_goal 1 => try clear_value x); (on_goal 2 => (unfold x; clear x))) | (extract_lets -underBinder +onlyGivenNames x; try clear_value x) | split)

theorem State.flueIssued_keep {s0 s : State} (h : Keep s0 s) (c line : Nat) : Keep s0 (State.flueIssued s c line) := by
  unfold State.flueIssued
  repeat' (with_reducible first | assumption | exact Keep.refl _ | fail_if_no_progress (refine Keep.mk' ?_ rfl) | (extract_lets -underBinder +onlyGivenNames x; (refine (fun (hx : Keep s0 x) => ?_) ?_); (on_goal 1 => try clear_value x); (on_goal 2 => (unfold x; clear x))) | exact KeepO.get (by assumption) rfl | exact KeepO.none | apply KeepO.some | (apply KeepO.map; intro _) | (extract_lets -underBinder +onlyGivenNames x; (refine (fun (hx : KeepO s0 x) => ?_) ?_); (on_goal 1 => try clear_value x); (on_goal 2 => (unfold x; clear x))) | (extract_lets -underBinder +onlyGivenNames x; have hf := fun z => x z) | (extract_lets -underBinder +onlyGivenNames x; try clear_value x) | split)

theorem State.writeBackWay_keep {s0 s : State} (h : Keep s0 s) (i : Nat) : Keep s0 (State.writeBackWay s i) := by
  unfold State.writeBackWay
  repeat' (with_reducible first | assumption | exact Keep.refl _ | apply State.askWay_keep | apply State.setWay_keep | apply State.setDram_keep | apply State.lineReq_keep | apply State.moveWait_keep | fail_if_no_progress (refine Keep.mk' ?_ rfl) | (extract_lets -underBinder +onlyGivenNames x; (refine (fun (hx : Keep s0 x) => ?_) ?_); (on_goal 1 => try clear_value x); (on_goal 2 => (unfold x; clear x))) | exact KeepO.get (by assumption) rfl | exact KeepO.none | apply KeepO.some | (apply KeepO.map; intro _) | (extract_lets -underBinder +onlyGivenNames x; (refine (fun (hx : KeepO s0 x) => ?_) ?_); (on_goal 1 => try clear_value x); (on_goal 2 => (unfold x; clear x))) | (extract_lets -underBinder +onlyGivenNames x; try clear_value x) | split)

theorem State.moveWaitsGo_keep {s0 s : State} (h : Keep s0 s) (p : Nat) : Keep s0 (State.moveWaitsGo s p) := by
  unfold State.moveWaitsGo
  repeat' (with_reducible first | assumption | exact Keep.refl _ | apply State.inc_keep | apply State.lineReq_keep | apply State.writeBackWay_keep | apply Keep.foldl | apply Keep.foldl_fst | apply Keep.foldl_snd | intro _ | fail_if_no_progress (refine Keep.mk' ?_ rfl) | (extract_lets -underBinder +onlyGivenNames x; (refine (fun (hx : Keep s0 x) => ?_) ?_); (on_goal 1 => try clear_value x); (on_goal 2 => (unfold x; clear x))) | (extract_lets -underBinder +onlyGivenNames x; try clear_value x) | split)

theorem State.addCells_keep {s0 s : State} (h : Keep s0 s) (p q n : Nat) : Keep s0 (State.addCells s p q n) := by
  unfold State.addCells
  repeat' (with_reducible first | assumption | exact Keep.refl _ | apply State.charge_keep | fail_if_no_progress (refine Keep.mk' ?_ rfl) | (extract_lets -underBinder +onlyGivenNames x; (refine (fun (hx : Keep s0 x) => ?_) ?_); (on_goal 1 => try clear_value x); (on_goal 2 => (unfold x; clear x))) | (extract_lets -underBinder +onlyGivenNames x; try clear_value x))

end Sys2Proof.Machine
end

