-- ==== Sys2Proof/Laws/KeepIntOps.lean ====
section
/-! SUPPORT. What the operations of Machine/IntOps.lean keep (Keep). -/

set_option linter.unreachableTactic false
set_option linter.unusedTactic false
set_option linter.unusedVariables false

namespace Sys2Proof.Machine

theorem State.intCount_keep {s0 s : State} (h : Keep s0 s) (k : Nat) (n : Nat) : Keep s0 (State.intCount s k n) := by
  unfold State.intCount
  repeat' (with_reducible first | assumption | exact Keep.refl _ | apply State.inc_keep)

theorem State.lastUe_keep {s0 s : State} (h : Keep s0 s) (source outcome ch rank line : Nat) : Keep s0 (State.lastUe s source outcome ch rank line) := by
  unfold State.lastUe
  repeat' (with_reducible first | assumption | exact Keep.refl _ | apply State.wr_keep | (extract_lets -underBinder +onlyGivenNames x; (refine (fun (hx : Keep s0 x) => ?_) ?_); (on_goal 1 => try clear_value x); (on_goal 2 => (unfold x; clear x))) | (extract_lets -underBinder +onlyGivenNames x; try clear_value x))

theorem State.injDrop_keep {s0 s : State} (h : Keep s0 s) (k : Nat) : Keep s0 (State.injDrop s k) := by
  unfold State.injDrop
  repeat' (with_reducible first | assumption | exact Keep.refl _ | fail_if_no_progress (refine Keep.mk' ?_ rfl) | (extract_lets -underBinder +onlyGivenNames x; (refine (fun (hx : Keep s0 x) => ?_) ?_); (on_goal 1 => try clear_value x); (on_goal 2 => (unfold x; clear x))) | (extract_lets -underBinder +onlyGivenNames x; try clear_value x))

theorem State.attribute_keep {s0 s : State} (h : Keep s0 s) (c r sub d : Nat) : Keep s0 (State.attribute s c r sub d) := by
  unfold State.attribute
  repeat' (with_reducible first | assumption | exact Keep.refl _ | apply State.raise_keep | apply State.retireRank_keep | apply State.intCount_keep | fail_if_no_progress (refine Keep.mk' ?_ rfl) | (extract_lets -underBinder +onlyGivenNames x; (refine (fun (hx : Keep s0 x) => ?_) ?_); (on_goal 1 => try clear_value x); (on_goal 2 => (unfold x; clear x))) | (extract_lets -underBinder +onlyGivenNames x; try clear_value x) | split)

theorem State.recoverLine_keep {s0 s : State} (h : Keep s0 s) (line : Nat) (v : Line) (twin : Option Line) (source ch rank : Nat) : Keep s0 (State.recoverLine s line v twin source ch rank).1 := by
  unfold State.recoverLine
  repeat' (with_reducible first | assumption | exact Keep.refl _ | apply State.raise_keep | apply State.intCount_keep | apply State.lastUe_keep | fail_if_no_progress (refine Keep.mk' ?_ rfl) | (extract_lets -underBinder +onlyGivenNames x; (refine (fun (hx : Keep s0 x) => ?_) ?_); (on_goal 1 => try clear_value x); (on_goal 2 => (unfold x; clear x))) | (extract_lets -underBinder +onlyGivenNames x; (refine (fun (hx : Keep s0 x.1) => ?_) ?_); (on_goal 1 => try clear_value x); (on_goal 2 => (unfold x; clear x))) | (extract_lets -underBinder +onlyGivenNames x; try clear_value x) | split)

theorem State.dramRead_keep {s0 s : State} (h : Keep s0 s) (line : Nat) (ecc : Ecc) (twin : Option Line) : Keep s0 (State.dramRead s line ecc twin).1 := by
  unfold State.dramRead
  repeat' (with_reducible first | assumption | exact Keep.refl _ | apply State.raise_keep | apply State.ceSeen_keep | apply State.ueSeen_keep | apply State.setDram_keep | apply State.intCount_keep | apply State.lastUe_keep | apply State.attribute_keep | apply State.recoverLine_keep | fail_if_no_progress (refine Keep.mk' ?_ rfl) | refine Keep.of_fst (by assumption) ?_ | (extract_lets -underBinder +onlyGivenNames x; (refine (fun (hx : Keep s0 x) => ?_) ?_); (on_goal 1 => try clear_value x); (on_goal 2 => (unfold x; clear x))) | (extract_lets -underBinder +onlyGivenNames x; (refine (fun (hx : Keep s0 x.1) => ?_) ?_); (on_goal 1 => try clear_value x); (on_goal 2 => (unfold x; clear x))) | (extract_lets -underBinder +onlyGivenNames x; try clear_value x) | split)

theorem State.flitLost_keep {s0 s : State} (h : Keep s0 s) (line : Nat) (twin : Option Line) : Keep s0 (State.flitLost s line twin).1 := by
  unfold State.flitLost
  repeat' (with_reducible first | assumption | exact Keep.refl _ | apply State.setDram_keep | apply State.recoverLine_keep | refine Keep.of_fst (by assumption) ?_ | (extract_lets -underBinder +onlyGivenNames x; (refine (fun (hx : Keep s0 x) => ?_) ?_); (on_goal 1 => try clear_value x); (on_goal 2 => (unfold x; clear x))) | (extract_lets -underBinder +onlyGivenNames x; (refine (fun (hx : Keep s0 x.1) => ?_) ?_); (on_goal 1 => try clear_value x); (on_goal 2 => (unfold x; clear x))) | (extract_lets -underBinder +onlyGivenNames x; try clear_value x) | split)

theorem State.flitsCount_keep {s0 s : State} (h : Keep s0 s) (flits : List Nat) : Keep s0 (State.flitsCount s flits) := by
  unfold State.flitsCount
  repeat' (with_reducible first | assumption | exact Keep.refl _ | apply State.pmuCount_keep | apply Keep.foldl | intro _)

theorem State.rebuildPage_keep {s0 s : State} (h : Keep s0 s) (p : Nat) (mask : Word64) : Keep s0 (State.rebuildPage s p mask) := by
  unfold State.rebuildPage
  repeat' (with_reducible first | assumption | exact Keep.refl _ | apply State.raise_keep | apply State.takeFrame_keep | apply State.setDram_keep | apply State.fillFrame_keep | apply State.setPte_keep | apply State.intCount_keep | apply Keep.foldl | apply Keep.foldl_fst | apply Keep.foldl_snd | intro _ | fail_if_no_progress (refine Keep.mk' ?_ rfl) | refine KeepO3.get ?_ (by assumption) | (extract_lets -underBinder +onlyGivenNames x; (refine (fun (hx : Keep s0 x) => ?_) ?_); (on_goal 1 => try clear_value x); (on_goal 2 => (unfold x; clear x))) | (extract_lets -underBinder +onlyGivenNames x; have hf := fun z => x z) | (extract_lets -underBinder +onlyGivenNames x; try clear_value x) | split)

theorem State.rebuildEntries_keep {s0 s : State} (h : Keep s0 s) (m : Nat) : Keep s0 (State.rebuildEntries s m) := by
  unfold State.rebuildEntries
  repeat' (with_reducible first | assumption | exact Keep.refl _ | apply State.setPte_keep | apply State.addT1_keep | apply State.addT2_keep | apply State.invalidate_keep | apply State.rebuildPage_keep | apply Keep.foldl | apply Keep.foldl_fst | apply Keep.foldl_snd | intro _ | fail_if_no_progress (refine Keep.mk' ?_ rfl) | (extract_lets -underBinder +onlyGivenNames x; (refine (fun (hx : Keep s0 x) => ?_) ?_); (on_goal 1 => try clear_value x); (on_goal 2 => (unfold x; clear x))) | (extract_lets -underBinder +onlyGivenNames x; have hd : x.dram = x.dram := rfl) | (extract_lets -underBinder +onlyGivenNames x; try clear_value x) | split)

theorem State.tableRestore_keep {s0 s : State} (h : Keep s0 s)  : Keep s0 (State.tableRestore s) := by
  unfold State.tableRestore
  repeat' (with_reducible first | assumption | exact Keep.refl _ | apply State.raise_keep | apply State.takeFree_keep | fail_if_no_progress (refine Keep.mk' ?_ rfl) | refine Keep.of_snd (by assumption) ?_ | (extract_lets -underBinder +onlyGivenNames x; (refine (fun (hx : Keep s0 x) => ?_) ?_); (on_goal 1 => try clear_value x); (on_goal 2 => (unfold x; clear x))) | exact KeepO.get (by assumption) rfl | exact KeepO.none | apply KeepO.some | (apply KeepO.map; intro _) | (extract_lets -underBinder +onlyGivenNames x; (refine (fun (hx : KeepO s0 x) => ?_) ?_); (on_goal 1 => try clear_value x); (on_goal 2 => (unfold x; clear x))) | (extract_lets -underBinder +onlyGivenNames x; (refine (fun (hx : Keep s0 x.2) => ?_) ?_); (on_goal 1 => try clear_value x); (on_goal 2 => (unfold x; clear x))) | (extract_lets -underBinder +onlyGivenNames x; have hf := fun z => x z) | (extract_lets -underBinder +onlyGivenNames x; try clear_value x) | split)

theorem State.ptUe_keep {s0 s : State} (h : Keep s0 s) (c r m : Nat) : Keep s0 (State.ptUe s c r m) := by
  unfold State.ptUe
  repeat' (with_reducible first | assumption | exact Keep.refl _ | apply State.raise_keep | apply State.ueSeen_keep | apply State.intCount_keep | apply State.lastUe_keep | apply State.rebuildEntries_keep | apply State.tableRestore_keep | (extract_lets -underBinder +onlyGivenNames x; (refine (fun (hx : Keep s0 x) => ?_) ?_); (on_goal 1 => try clear_value x); (on_goal 2 => (unfold x; clear x))) | (extract_lets -underBinder +onlyGivenNames x; have hd : x.dram = x.dram := rfl) | (extract_lets -underBinder +onlyGivenNames x; try clear_value x) | split)

theorem State.ptRead_keep {s0 s : State} (h : Keep s0 s) (m : Nat) (ecc : Ecc) (lost : Bool) : Keep s0 (State.ptRead s m ecc lost) := by
  unfold State.ptRead
  repeat' (with_reducible first | assumption | exact Keep.refl _ | apply State.ceSeen_keep | apply State.lastUe_keep | apply State.attribute_keep | apply State.rebuildEntries_keep | apply State.ptUe_keep | fail_if_no_progress (refine Keep.mk' ?_ rfl) | (extract_lets -underBinder +onlyGivenNames x; (refine (fun (hx : Keep s0 x) => ?_) ?_); (on_goal 1 => try clear_value x); (on_goal 2 => (unfold x; clear x))) | (extract_lets -underBinder +onlyGivenNames x; have hd : x.dram = x.dram := rfl) | (extract_lets -underBinder +onlyGivenNames x; try clear_value x) | split)

theorem State.wayUe_keep {s0 s : State} (h : Keep s0 s) (line : Nat) : Keep s0 (State.wayUe s line) := by
  unfold State.wayUe
  repeat' (with_reducible first | assumption | exact Keep.refl _ | apply State.raise_keep | apply State.setWay_keep | apply State.invalidate_keep | apply State.intCount_keep | apply State.lastUe_keep | apply State.recoverLine_keep | fail_if_no_progress (refine Keep.mk' ?_ rfl) | refine Keep.of_fst (by assumption) ?_ | (extract_lets -underBinder +onlyGivenNames x; (refine (fun (hx : Keep s0 x) => ?_) ?_); (on_goal 1 => try clear_value x); (on_goal 2 => (unfold x; clear x))) | (extract_lets -underBinder +onlyGivenNames x; (refine (fun (hx : Keep s0 x.1) => ?_) ?_); (on_goal 1 => try clear_value x); (on_goal 2 => (unfold x; clear x))) | (extract_lets -underBinder +onlyGivenNames x; try clear_value x) | split)

theorem State.cacheError_keep {s0 s : State} (h : Keep s0 s) (line : Nat) (full : Bool) : Keep s0 (State.cacheError s line full) := by
  unfold State.cacheError
  repeat' (with_reducible first | assumption | exact Keep.refl _ | apply State.intCount_keep | apply State.injDrop_keep | apply State.wayUe_keep | fail_if_no_progress (refine Keep.mk' ?_ rfl) | (extract_lets -underBinder +onlyGivenNames x; (refine (fun (hx : Keep s0 x) => ?_) ?_); (on_goal 1 => try clear_value x); (on_goal 2 => (unfold x; clear x))) | (extract_lets -underBinder +onlyGivenNames x; try clear_value x) | split)

end Sys2Proof.Machine
end

