-- ==== Sys2Proof/Laws/KeepCphOps.lean ====
section
/-! SUPPORT. What the operations of Machine/CphOps.lean keep (Keep). -/

set_option linter.unreachableTactic false
set_option linter.unusedTactic false
set_option linter.unusedVariables false

namespace Sys2Proof.Machine

theorem State.setKeySlot_keep {s0 s : State} (h : Keep s0 s) (n : Nat) (k : KeySlot) : Keep s0 (State.setKeySlot s n k) := by
  unfold State.setKeySlot
  repeat' (with_reducible first | assumption | exact Keep.refl _ | fail_if_no_progress (refine Keep.mk' ?_ rfl) | (extract_lets -underBinder +onlyGivenNames x; (refine (fun (hx : Keep s0 x) => ?_) ?_); (on_goal 1 => try clear_value x); (on_goal 2 => (unfold x; clear x))) | (extract_lets -underBinder +onlyGivenNames x; try clear_value x))

theorem State.cphCount_keep {s0 s : State} (h : Keep s0 s) (k : Nat) (n : Nat) : Keep s0 (State.cphCount s k n) := by
  unfold State.cphCount
  repeat' (with_reducible first | assumption | exact Keep.refl _ | apply State.inc_keep)

theorem State.deviceKey_keep {s0 s : State} (h : Keep s0 s) (n : Nat) : Keep s0 (State.deviceKey s n) := by
  unfold State.deviceKey
  repeat' (with_reducible first | assumption | exact Keep.refl _ | apply State.raise_keep | apply State.takeFree_keep | apply State.setKeySlot_keep | fail_if_no_progress (refine Keep.mk' ?_ rfl) | refine Keep.of_snd (by assumption) ?_ | (extract_lets -underBinder +onlyGivenNames x; (refine (fun (hx : Keep s0 x) => ?_) ?_); (on_goal 1 => try clear_value x); (on_goal 2 => (unfold x; clear x))) | (extract_lets -underBinder +onlyGivenNames x; (refine (fun (hx : Keep s0 x.2) => ?_) ?_); (on_goal 1 => try clear_value x); (on_goal 2 => (unfold x; clear x))) | (extract_lets -underBinder +onlyGivenNames x; try clear_value x) | split)

theorem State.fillSlot_keep {s0 s : State} (h : Keep s0 s) (n : Nat) : Keep s0 (State.fillSlot s n) := by
  unfold State.fillSlot
  repeat' (with_reducible first | assumption | exact Keep.refl _ | apply State.deviceKey_keep | split)

theorem State.takeIv_keep {s0 s : State} (h : Keep s0 s) (n : Nat) : Keep s0 (State.takeIv s n).2 := by
  unfold State.takeIv
  repeat' (with_reducible first | assumption | exact Keep.refl _ | apply State.raise_keep | apply State.setKeySlot_keep | apply State.deviceKey_keep | fail_if_no_progress (refine Keep.mk' ?_ rfl) | (extract_lets -underBinder +onlyGivenNames x; (refine (fun (hx : Keep s0 x) => ?_) ?_); (on_goal 1 => try clear_value x); (on_goal 2 => (unfold x; clear x))) | (extract_lets -underBinder +onlyGivenNames x; (refine (fun (hx : Keep s0 x.2) => ?_) ?_); (on_goal 1 => try clear_value x); (on_goal 2 => (unfold x; clear x))) | (extract_lets -underBinder +onlyGivenNames x; try clear_value x) | split)

theorem State.selfSeal_keep {s0 s : State} (h : Keep s0 s)  : Keep s0 (State.selfSeal s) := by
  unfold State.selfSeal
  repeat' (with_reducible first | assumption | exact Keep.refl _ | apply State.raise_keep | apply State.takeFree_keep | apply State.setKeySlot_keep | apply State.cphCount_keep | apply State.deviceKey_keep | fail_if_no_progress (refine Keep.mk' ?_ rfl) | refine Keep.of_snd (by assumption) ?_ | (extract_lets -underBinder +onlyGivenNames x; (refine (fun (hx : Keep s0 x) => ?_) ?_); (on_goal 1 => try clear_value x); (on_goal 2 => (unfold x; clear x))) | (extract_lets -underBinder +onlyGivenNames x; (refine (fun (hx : Keep s0 x.2) => ?_) ?_); (on_goal 1 => try clear_value x); (on_goal 2 => (unfold x; clear x))) | (extract_lets -underBinder +onlyGivenNames x; try clear_value x) | split)

theorem State.autoSave_keep {s0 s : State} (h : Keep s0 s)  : Keep s0 (State.autoSave s) := by
  unfold State.autoSave
  repeat' (with_reducible first | assumption | exact Keep.refl _ | apply State.selfSeal_keep | apply Keep.foldl | intro _ | fail_if_no_progress (refine Keep.mk' ?_ rfl) | (extract_lets -underBinder +onlyGivenNames x; (refine (fun (hx : Keep s0 x) => ?_) ?_); (on_goal 1 => try clear_value x); (on_goal 2 => (unfold x; clear x))) | (extract_lets -underBinder +onlyGivenNames x; try clear_value x))

end Sys2Proof.Machine
end

