-- ==== Sys2Proof/Laws/KeepNandOps.lean ====
section
/-! SUPPORT. What the operations of Machine/NandOps.lean keep (Keep). -/

set_option linter.unreachableTactic false
set_option linter.unusedTactic false
set_option linter.unusedVariables false

namespace Sys2Proof.Machine

theorem State.medCount_keep {s0 s : State} (h : Keep s0 s) (k : Nat) (n : Nat) : Keep s0 (State.medCount s k n) := by
  unfold State.medCount
  repeat' (with_reducible first | assumption | exact Keep.refl _ | apply State.inc_keep)

theorem State.nchCount_keep {s0 s : State} (h : Keep s0 s) (c k : Nat) (n : Nat) : Keep s0 (State.nchCount s c k n) := by
  unfold State.nchCount
  repeat' (with_reducible first | assumption | exact Keep.refl _ | apply State.inc_keep)

theorem State.setSb_keep {s0 s : State} (h : Keep s0 s) (k : Nat) (v : Sb) : Keep s0 (State.setSb s k v) := by
  unfold State.setSb
  repeat' (with_reducible first | assumption | exact Keep.refl _ | fail_if_no_progress (refine Keep.mk' ?_ rfl) | (extract_lets -underBinder +onlyGivenNames x; (refine (fun (hx : Keep s0 x) => ?_) ?_); (on_goal 1 => try clear_value x); (on_goal 2 => (unfold x; clear x))) | (extract_lets -underBinder +onlyGivenNames x; try clear_value x))

theorem State.modStat_keep {s0 s : State} (h : Keep s0 s) (c d : Nat) (f : DieStat → DieStat) : Keep s0 (State.modStat s c d f) := by
  unfold State.modStat
  repeat' (with_reducible first | assumption | exact Keep.refl _ | fail_if_no_progress (refine Keep.mk' ?_ rfl) | (extract_lets -underBinder +onlyGivenNames x; (refine (fun (hx : Keep s0 x) => ?_) ?_); (on_goal 1 => try clear_value x); (on_goal 2 => (unfold x; clear x))) | (extract_lets -underBinder +onlyGivenNames x; try clear_value x))

theorem State.setProg_keep {s0 s : State} (h : Keep s0 s) (a : Nat) (p : Prog) : Keep s0 (State.setProg s a p) := by
  unfold State.setProg
  repeat' (with_reducible first | assumption | exact Keep.refl _ | fail_if_no_progress (refine Keep.mk' ?_ rfl) | (extract_lets -underBinder +onlyGivenNames x; (refine (fun (hx : Keep s0 x) => ?_) ?_); (on_goal 1 => try clear_value x); (on_goal 2 => (unfold x; clear x))) | (extract_lets -underBinder +onlyGivenNames x; try clear_value x))

theorem State.suspendOp_keep {s0 s : State} (h : Keep s0 s) (c d : Nat) : KeepO s0 (State.suspendOp s c d) := by
  unfold State.suspendOp
  repeat' (with_reducible first | assumption | exact Keep.refl _ | apply State.idle_keep | apply State.setSb_keep | apply State.setProg_keep | fail_if_no_progress (refine Keep.mk' ?_ rfl) | exact KeepO.none | apply KeepO.some | (extract_lets -underBinder +onlyGivenNames x; (refine (fun (hx : Keep s0 x) => ?_) ?_); (on_goal 1 => try clear_value x); (on_goal 2 => (unfold x; clear x))) | (extract_lets -underBinder +onlyGivenNames x; have hf := fun z => x z) | (extract_lets -underBinder +onlyGivenNames x; try clear_value x) | split)

theorem State.suspendFor_keep {s0 s : State} (h : Keep s0 s) (a : Nat) : Keep s0 (State.suspendFor s a) := by
  unfold State.suspendFor
  repeat' (with_reducible first | assumption | exact Keep.refl _ | apply State.medCount_keep | apply State.modStat_keep | apply State.suspendOp_keep | fail_if_no_progress (refine Keep.mk' ?_ rfl) | refine KeepO.get ?_ (by assumption) | (extract_lets -underBinder +onlyGivenNames x; (refine (fun (hx : Keep s0 x) => ?_) ?_); (on_goal 1 => try clear_value x); (on_goal 2 => (unfold x; clear x))) | exact KeepO.get (by assumption) rfl | exact KeepO.none | apply KeepO.some | (apply KeepO.map; intro _) | (extract_lets -underBinder +onlyGivenNames x; (refine (fun (hx : KeepO s0 x) => ?_) ?_); (on_goal 1 => try clear_value x); (on_goal 2 => (unfold x; clear x))) | (extract_lets -underBinder +onlyGivenNames x; try clear_value x) | split)

theorem State.resume_keep {s0 s : State} (h : Keep s0 s) (c d : Nat) (v : Suspension) : Keep s0 (State.resume s c d v) := by
  unfold State.resume
  repeat' (with_reducible first | assumption | exact Keep.refl _ | apply State.idle_keep | apply State.setSb_keep | apply State.setProg_keep | fail_if_no_progress (refine Keep.mk' ?_ rfl) | (extract_lets -underBinder +onlyGivenNames x; (refine (fun (hx : Keep s0 x) => ?_) ?_); (on_goal 1 => try clear_value x); (on_goal 2 => (unfold x; clear x))) | (extract_lets -underBinder +onlyGivenNames x; try clear_value x) | split)

theorem State.fetchRead_keep {s0 s : State} (h : Keep s0 s) (a : Nat) : Keep s0 (State.fetchRead s a) := by
  unfold State.fetchRead
  repeat' (with_reducible first | assumption | exact Keep.refl _ | apply State.resume_keep | fail_if_no_progress (refine Keep.mk' ?_ rfl) | (extract_lets -underBinder +onlyGivenNames x; (refine (fun (hx : Keep s0 x) => ?_) ?_); (on_goal 1 => try clear_value x); (on_goal 2 => (unfold x; clear x))) | (extract_lets -underBinder +onlyGivenNames x; try clear_value x) | split)

end Sys2Proof.Machine
end

