-- ==== Sys2Proof/Laws/KeepDataPath.lean ====
section
/-! SUPPORT. What the operations of Machine/DataPath.lean keep (Keep). -/

set_option linter.unreachableTactic false
set_option linter.unusedTactic false
set_option linter.unusedVariables false

namespace Sys2Proof.Machine

/-- The state an attempt leaves. -/
def KeepT (a : State) : Tried → Prop
  | .done s => Keep a s
  | .wait _ _ s => Keep a s
  | .merged s => Keep a s
theorem KeepT.done {a s : State} (h : Keep a s) : KeepT a (.done s) := h
theorem KeepT.wait {a s : State} {w : Wait} {b : Acc} (h : Keep a s) : KeepT a (.wait w b s) := h
theorem KeepT.merged {a s : State} (h : Keep a s) : KeepT a (.merged s) := h
theorem KeepT.of_done {a t : State} {r : Tried} (h : KeepT a r) (e : r = .done t) : Keep a t := by subst e; exact h
theorem KeepT.of_wait {a t : State} {w : Wait} {b : Acc} {r : Tried} (h : KeepT a r) (e : r = .wait w b t) : Keep a t := by subst e; exact h
theorem KeepT.of_merged {a t : State} {r : Tried} (h : KeepT a r) (e : r = .merged t) : Keep a t := by subst e; exact h
/-- The state of an outcome that is no error. -/
def KeepE (a : State) (r : Except Wait State) : Prop := ∀ t, r = .ok t → Keep a t
theorem KeepE.ok {a s : State} (h : Keep a s) : KeepE a (.ok s) := fun _ e => by cases e; exact h
theorem KeepE.error {a : State} {w : Wait} : KeepE a (.error w) := fun _ e => nomatch e
theorem KeepE.of_ok {a t : State} {r : Except Wait State} (h : KeepE a r) (e : r = .ok t) : Keep a t := h t e
/-- Both the attempt and the state beside it. -/
def KeepPT (a : State) (p : Option Tried × State) : Prop := (∀ t, p.1 = some t → KeepT a t) ∧ Keep a p.2
theorem KeepPT.none {a s : State} (h : Keep a s) : KeepPT a (Option.none, s) := ⟨fun _ e => (nomatch e), h⟩
theorem KeepPT.some {a s : State} {r : Tried} (k : KeepT a r) (h : Keep a s) : KeepPT a (Option.some r, s) := ⟨fun _ e => by cases e; exact k, h⟩
theorem KeepPT.get_some {a s : State} {r : Tried} {p : Option Tried × State} (h : KeepPT a p) (e : p = (Option.some r, s)) : KeepT a r := h.1 r (by rw [e])
theorem KeepPT.get_snd {a s : State} {o : Option Tried} {p : Option Tried × State} (h : KeepPT a p) (e : p = (o, s)) : Keep a s := by rw [e] at h; exact h.2

/-- The attempt, the state beside it, and the access with what is settled. -/
def KeepP3 (a : State) (p : Option Tried × State × Acc) : Prop := (∀ t, p.1 = some t → KeepT a t) ∧ Keep a p.2.1
theorem KeepP3.none {a s : State} {b : Acc} (h : Keep a s) : KeepP3 a (Option.none, s, b) := ⟨fun _ e => (nomatch e), h⟩
theorem KeepP3.some {a s : State} {b : Acc} {r : Tried} (k : KeepT a r) (h : Keep a s) : KeepP3 a (Option.some r, s, b) := ⟨fun _ e => by cases e; exact k, h⟩
theorem KeepP3.get_some {a s : State} {b : Acc} {r : Tried} {p : Option Tried × State × Acc} (h : KeepP3 a p) (e : p = (Option.some r, s, b)) : KeepT a r := h.1 r (by rw [e])
theorem KeepP3.get_snd {a s : State} {b : Acc} {o : Option Tried} {p : Option Tried × State × Acc} (h : KeepP3 a p) (e : p = (o, s, b)) : Keep a s := by rw [e] at h; exact h.2

theorem State.stallStart_keep {s0 s : State} (h : Keep s0 s) (w : Wait) (tenant : Nat) : Keep s0 (State.stallStart s w tenant) := by
  unfold State.stallStart
  repeat' (with_reducible first | assumption | exact Keep.refl _ | apply State.inc_keep | apply State.pmuCount_keep | fail_if_no_progress (refine Keep.mk' ?_ rfl) | (extract_lets -underBinder +onlyGivenNames x; (refine (fun (hx : Keep s0 x) => ?_) ?_); (on_goal 1 => try clear_value x); (on_goal 2 => (unfold x; clear x))) | (extract_lets -underBinder +onlyGivenNames x; try clear_value x) | split)

theorem State.stallEnd_keep {s0 s : State} (h : Keep s0 s) (w : Wait) (since : Nat) : Keep s0 (State.stallEnd s w since) := by
  unfold State.stallEnd
  repeat' (with_reducible first | assumption | exact Keep.refl _ | apply State.inc_keep | fail_if_no_progress (refine Keep.mk' ?_ rfl) | (extract_lets -underBinder +onlyGivenNames x; (refine (fun (hx : Keep s0 x) => ?_) ?_); (on_goal 1 => try clear_value x); (on_goal 2 => (unfold x; clear x))) | (extract_lets -underBinder +onlyGivenNames x; try clear_value x) | split)

theorem State.accDone_keep {s0 s : State} (h : Keep s0 s) (a : Acc) (r : Option (Line × Word64)) (ep : Option Nat) : Keep s0 (State.accDone s a r ep) := by
  unfold State.accDone
  repeat' (with_reducible first | assumption | exact Keep.refl _ | apply State.modOp_keep | apply State.unreserve_keep | apply State.stallEnd_keep | fail_if_no_progress (refine Keep.mk' ?_ rfl) | (extract_lets -underBinder +onlyGivenNames x; (refine (fun (hx : Keep s0 x) => ?_) ?_); (on_goal 1 => try clear_value x); (on_goal 2 => (unfold x; clear x))) | (extract_lets -underBinder +onlyGivenNames x; try clear_value x) | split)

theorem State.noteUnsealed_keep {s0 s : State} (h : Keep s0 s) (op : Nat) (ep : Option Nat) : Keep s0 (State.noteUnsealed s op ep) := by
  unfold State.noteUnsealed
  repeat' (with_reducible first | assumption | exact Keep.refl _ | fail_if_no_progress (refine Keep.mk' ?_ rfl) | (extract_lets -underBinder +onlyGivenNames x; (refine (fun (hx : Keep s0 x) => ?_) ?_); (on_goal 1 => try clear_value x); (on_goal 2 => (unfold x; clear x))) | (extract_lets -underBinder +onlyGivenNames x; try clear_value x) | split)

theorem State.placed_keep {s0 s : State} (h : Keep s0 s) (a : Acc) (l : Line) (p : Bool) : Keep s0 (State.placed s a l p) := by
  unfold State.placed
  repeat' (with_reducible first | assumption | exact Keep.refl _ | apply State.stage_keep | apply State.markChange_keep | apply State.charge_keep | apply State.unreserve_keep | (extract_lets -underBinder +onlyGivenNames x; (refine (fun (hx : Keep s0 x) => ?_) ?_); (on_goal 1 => try clear_value x); (on_goal 2 => (unfold x; clear x))) | (extract_lets -underBinder +onlyGivenNames x; try clear_value x) | split)

theorem State.copyOnWrite_keep {s0 s : State} (h : Keep s0 s) (i : Nat) (x : Way) : Keep s0 (State.copyOnWrite s i x) := by
  unfold State.copyOnWrite
  repeat' (with_reducible first | assumption | exact Keep.refl _ | apply State.satInc_keep | apply State.addCells_keep | apply Keep.foldl | apply Keep.foldl_fst | apply Keep.foldl_snd | intro _ | fail_if_no_progress (refine Keep.mk' ?_ rfl) | (extract_lets -underBinder +onlyGivenNames x; (refine (fun (hx : Keep s0 x) => ?_) ?_); (on_goal 1 => try clear_value x); (on_goal 2 => (unfold x; clear x))) | exact KeepO.get (by assumption) rfl | exact KeepO.none | apply KeepO.some | (apply KeepO.map; intro _) | (extract_lets -underBinder +onlyGivenNames x; (refine (fun (hx : KeepO s0 x) => ?_) ?_); (on_goal 1 => try clear_value x); (on_goal 2 => (unfold x; clear x))) | (extract_lets -underBinder +onlyGivenNames x; have hf := fun z => x z) | (extract_lets -underBinder +onlyGivenNames x; try clear_value x) | split)

theorem State.hit_keep {s0 s : State} (h : Keep s0 s) (i : Nat) (x : Way) (a : Acc) (touches : Bool) : Keep s0 (State.hit s i x a touches) := by
  unfold State.hit
  repeat' (with_reducible first | assumption | exact Keep.refl _ | apply State.askWay_keep | apply State.setWay_keep | apply State.touch_keep | apply State.accDone_keep | apply State.noteUnsealed_keep | apply State.placed_keep | apply State.copyOnWrite_keep | fail_if_no_progress (refine Keep.mk' ?_ rfl) | (extract_lets -underBinder +onlyGivenNames x; (refine (fun (hx : Keep s0 x) => ?_) ?_); (on_goal 1 => try clear_value x); (on_goal 2 => (unfold x; clear x))) | exact KeepO.get (by assumption) rfl | exact KeepO.none | apply KeepO.some | (apply KeepO.map; intro _) | (extract_lets -underBinder +onlyGivenNames x; (refine (fun (hx : KeepO s0 x) => ?_) ?_); (on_goal 1 => try clear_value x); (on_goal 2 => (unfold x; clear x))) | (extract_lets -underBinder +onlyGivenNames x; try clear_value x) | split)

theorem State.srWake_keep {s0 s : State} (h : Keep s0 s) (c : Nat) : Keep s0 (State.srWake s c) := by
  unfold State.srWake
  repeat' (with_reducible first | assumption | exact Keep.refl _ | apply State.modChan_keep | apply State.dchCount_keep | fail_if_no_progress (refine Keep.mk' ?_ rfl) | (extract_lets -underBinder +onlyGivenNames x; (refine (fun (hx : Keep s0 x) => ?_) ?_); (on_goal 1 => try clear_value x); (on_goal 2 => (unfold x; clear x))) | (extract_lets -underBinder +onlyGivenNames x; try clear_value x) | split)

theorem State.takeMshr_keep {s0 s : State} (h : Keep s0 s) (m : Mshr) : Keep s0 (State.takeMshr s m) := by
  unfold State.takeMshr
  repeat' (with_reducible first | assumption | exact Keep.refl _ | apply State.raiseIf_keep | apply State.mshrPeak_keep | apply State.lineReq_keep | fail_if_no_progress (refine Keep.mk' ?_ rfl) | (extract_lets -underBinder +onlyGivenNames x; (refine (fun (hx : Keep s0 x) => ?_) ?_); (on_goal 1 => try clear_value x); (on_goal 2 => (unfold x; clear x))) | (extract_lets -underBinder +onlyGivenNames x; try clear_value x))

theorem State.stallEvents_keep {s0 s : State} (h : Keep s0 s) (w : Wait) : Keep s0 (State.stallEvents s w) := by
  unfold State.stallEvents
  repeat' (with_reducible first | assumption | exact Keep.refl _ | apply State.raise_keep | apply State.raiseIf_keep | fail_if_no_progress (refine Keep.mk' ?_ rfl) | (extract_lets -underBinder +onlyGivenNames x; (refine (fun (hx : Keep s0 x) => ?_) ?_); (on_goal 1 => try clear_value x); (on_goal 2 => (unfold x; clear x))) | (extract_lets -underBinder +onlyGivenNames x; have hd : x.dram = x.dram := rfl) | (extract_lets -underBinder +onlyGivenNames x; try clear_value x) | split)

theorem State.waitCounters_keep {s0 s : State} (h : Keep s0 s) (w : Wait) : Keep s0 (State.waitCounters s w) := by
  unfold State.waitCounters
  repeat' (with_reducible first | assumption | exact Keep.refl _ | apply State.satInc_keep | apply State.raise_keep | fail_if_no_progress (refine Keep.mk' ?_ rfl) | (extract_lets -underBinder +onlyGivenNames x; (refine (fun (hx : Keep s0 x) => ?_) ?_); (on_goal 1 => try clear_value x); (on_goal 2 => (unfold x; clear x))) | (extract_lets -underBinder +onlyGivenNames x; try clear_value x) | split)

theorem State.waitBegins_keep {s0 s : State} (h : Keep s0 s) (a : Acc) (w : Wait) : Keep s0 (State.waitBegins s a w) := by
  unfold State.waitBegins
  repeat' (with_reducible first | assumption | exact Keep.refl _ | apply State.smpStall_keep | apply State.stallStart_keep | apply State.srWake_keep | apply State.stallEvents_keep | apply State.waitCounters_keep | fail_if_no_progress (refine Keep.mk' ?_ rfl) | (extract_lets -underBinder +onlyGivenNames x; (refine (fun (hx : Keep s0 x) => ?_) ?_); (on_goal 1 => try clear_value x); (on_goal 2 => (unfold x; clear x))) | (extract_lets -underBinder +onlyGivenNames x; try clear_value x) | split)

theorem State.countLookup_keep {s0 s : State} (h : Keep s0 s) (k tenant : Nat) : Keep s0 (State.countLookup s k tenant) := by
  unfold State.countLookup
  repeat' (with_reducible first | assumption | exact Keep.refl _ | apply State.inc_keep | apply State.pmuCount_keep | split)

theorem State.mergeAcc_keep {s0 s : State} (h : Keep s0 s) (k : Nat) (a : Acc) (w : Wait) : KeepT s0 (State.mergeAcc s k a w) := by
  unfold State.mergeAcc
  repeat' (with_reducible first | assumption | exact Keep.refl _ | apply State.waitBegins_keep | fail_if_no_progress (refine Keep.mk' ?_ rfl) | apply KeepT.done | apply KeepT.wait | apply KeepT.merged | (extract_lets -underBinder +onlyGivenNames x; (refine (fun (hx : Keep s0 x) => ?_) ?_); (on_goal 1 => try clear_value x); (on_goal 2 => (unfold x; clear x))) | exact KeepO.get (by assumption) rfl | exact KeepO.none | apply KeepO.some | (apply KeepO.map; intro _) | (extract_lets -underBinder +onlyGivenNames x; (refine (fun (hx : KeepO s0 x) => ?_) ?_); (on_goal 1 => try clear_value x); (on_goal 2 => (unfold x; clear x))) | (extract_lets -underBinder +onlyGivenNames x; try clear_value x) | split)

theorem State.missTake_keep {s0 s : State} (h : Keep s0 s) (k tenant ch : Nat) (way : Option Nat) (a : Acc) (w : Wait) : KeepT s0 (State.missTake s k tenant ch way a w) := by
  unfold State.missTake
  repeat' (with_reducible first | assumption | exact Keep.refl _ | apply State.takeMshr_keep | apply State.waitBegins_keep | fail_if_no_progress (refine Keep.mk' ?_ rfl) | apply KeepT.done | apply KeepT.wait | apply KeepT.merged | (extract_lets -underBinder +onlyGivenNames x; (refine (fun (hx : Keep s0 x) => ?_) ?_); (on_goal 1 => try clear_value x); (on_goal 2 => (unfold x; clear x))) | (extract_lets -underBinder +onlyGivenNames x; try clear_value x) | split)

theorem State.ptLookup_keep {s0 s : State} (h : Keep s0 s) (a : Acc) : KeepP3 s0 (State.ptLookup s a) := by
  unfold State.ptLookup
  repeat' (with_reducible first | assumption | exact Keep.refl _ | apply State.setWay_keep | apply State.touch_keep | apply State.alloc_keep | apply State.quotaBypass_keep | apply State.reinstate_keep | apply State.countLookup_keep | apply State.mergeAcc_keep | apply State.missTake_keep | fail_if_no_progress (refine Keep.mk' ?_ rfl) | refine KeepA.of_way ?_ (by assumption) | apply KeepT.done | apply KeepT.wait | apply KeepT.merged | refine KeepT.of_done ?_ (by assumption) | refine KeepT.of_wait ?_ (by assumption) | refine KeepT.of_merged ?_ (by assumption) | apply KeepP3.none | apply KeepP3.some | (extract_lets -underBinder +onlyGivenNames x; (refine (fun (hx : Keep s0 x) => ?_) ?_); (on_goal 1 => try clear_value x); (on_goal 2 => (unfold x; clear x))) | (extract_lets -underBinder +onlyGivenNames x; try clear_value x) | split)

theorem State.stagingBegins_keep {s0 s : State} (h : Keep s0 s) (p : Nat) : Keep s0 (State.stagingBegins s p) := by
  unfold State.stagingBegins
  repeat' (with_reducible first | assumption | exact Keep.refl _ | apply State.stallStart_keep | fail_if_no_progress (refine Keep.mk' ?_ rfl) | (extract_lets -underBinder +onlyGivenNames x; (refine (fun (hx : Keep s0 x) => ?_) ?_); (on_goal 1 => try clear_value x); (on_goal 2 => (unfold x; clear x))) | (extract_lets -underBinder +onlyGivenNames x; have hd : x.dram = x.dram := rfl) | (extract_lets -underBinder +onlyGivenNames x; try clear_value x) | split)

theorem State.stagingEnds_keep {s0 s : State} (h : Keep s0 s) (p : Nat) : Keep s0 (State.stagingEnds s p) := by
  unfold State.stagingEnds
  repeat' (with_reducible first | assumption | exact Keep.refl _ | apply State.stallEnd_keep | fail_if_no_progress (refine Keep.mk' ?_ rfl) | (extract_lets -underBinder +onlyGivenNames x; (refine (fun (hx : Keep s0 x) => ?_) ?_); (on_goal 1 => try clear_value x); (on_goal 2 => (unfold x; clear x))) | (extract_lets -underBinder +onlyGivenNames x; have hd : x.dram = x.dram := rfl) | (extract_lets -underBinder +onlyGivenNames x; try clear_value x) | split)

theorem State.startFetch_keep {s0 s : State} (h : Keep s0 s) (p : Nat) : KeepE s0 (State.startFetch s p) := by
  unfold State.startFetch
  repeat' (with_reducible first | assumption | exact Keep.refl _ | apply State.takeFrame_keep | apply State.setPte_keep | apply State.addT1_keep | apply State.suspendFor_keep | apply State.stagingBegins_keep | fail_if_no_progress (refine Keep.mk' ?_ rfl) | refine KeepO3.get ?_ (by assumption) | apply KeepE.ok | exact KeepE.error | (extract_lets -underBinder +onlyGivenNames x; (refine (fun (hx : Keep s0 x) => ?_) ?_); (on_goal 1 => try clear_value x); (on_goal 2 => (unfold x; clear x))) | (extract_lets -underBinder +onlyGivenNames x; try clear_value x) | split)

theorem State.stagingGo_keep {s0 s : State} (h : Keep s0 s)  : Keep s0 (State.stagingGo s) := by
  unfold State.stagingGo
  repeat' (with_reducible first | assumption | exact Keep.refl _ | apply State.suspendFor_keep | apply State.stagingEnds_keep | apply Keep.foldl | intro _ | split)

theorem State.readAhead_keep {s0 s : State} (h : Keep s0 s) (p : Nat) : Keep s0 (State.readAhead s p) := by
  unfold State.readAhead
  repeat' (with_reducible first | assumption | exact Keep.refl _ | apply Keep.foldl | apply Keep.foldl_fst | apply Keep.foldl_snd | intro _ | fail_if_no_progress (refine Keep.mk' ?_ rfl) | (extract_lets -underBinder +onlyGivenNames x; (refine (fun (hx : Keep s0 x) => ?_) ?_); (on_goal 1 => try clear_value x); (on_goal 2 => (unfold x; clear x))) | (extract_lets -underBinder +onlyGivenNames x; have hd : x.dram = x.dram := rfl) | (extract_lets -underBinder +onlyGivenNames x; try clear_value x) | split)

theorem State.raDrop_keep {s0 s : State} (h : Keep s0 s) (r : RaWait) : Keep s0 (State.raDrop s r) := by
  unfold State.raDrop
  repeat' (with_reducible first | assumption | exact Keep.refl _ | apply State.stallEnd_keep | fail_if_no_progress (refine Keep.mk' ?_ rfl) | (extract_lets -underBinder +onlyGivenNames x; (refine (fun (hx : Keep s0 x) => ?_) ?_); (on_goal 1 => try clear_value x); (on_goal 2 => (unfold x; clear x))) | (extract_lets -underBinder +onlyGivenNames x; have hd : x.dram = x.dram := rfl) | (extract_lets -underBinder +onlyGivenNames x; try clear_value x))

theorem State.raWaits_keep {s0 s : State} (h : Keep s0 s) (r : RaWait) (w : Wait) : Keep s0 (State.raWaits s r w) := by
  unfold State.raWaits
  repeat' (with_reducible first | assumption | exact Keep.refl _ | apply State.stallStart_keep | apply State.stallEnd_keep | fail_if_no_progress (refine Keep.mk' ?_ rfl) | (extract_lets -underBinder +onlyGivenNames x; (refine (fun (hx : Keep s0 x) => ?_) ?_); (on_goal 1 => try clear_value x); (on_goal 2 => (unfold x; clear x))) | exact KeepO.get (by assumption) rfl | exact KeepO.none | apply KeepO.some | (apply KeepO.map; intro _) | (extract_lets -underBinder +onlyGivenNames x; (refine (fun (hx : KeepO s0 x) => ?_) ?_); (on_goal 1 => try clear_value x); (on_goal 2 => (unfold x; clear x))) | (extract_lets -underBinder +onlyGivenNames x; have hd : x.dram = x.dram := rfl) | (extract_lets -underBinder +onlyGivenNames x; try clear_value x) | split)

theorem State.fetchAhead_keep {s0 s : State} (h : Keep s0 s) (p : Nat) : Keep s0 (State.fetchAhead s p) := by
  unfold State.fetchAhead
  repeat' (with_reducible first | assumption | exact Keep.refl _ | fail_if_no_progress (refine Keep.mk' ?_ rfl) | (extract_lets -underBinder +onlyGivenNames x; (refine (fun (hx : Keep s0 x) => ?_) ?_); (on_goal 1 => try clear_value x); (on_goal 2 => (unfold x; clear x))) | (extract_lets -underBinder +onlyGivenNames x; have hd : x.dram = x.dram := rfl) | (extract_lets -underBinder +onlyGivenNames x; try clear_value x))

theorem State.readAheadGo_keep {s0 s : State} (h : Keep s0 s)  : Keep s0 (State.readAheadGo s) := by
  unfold State.readAheadGo
  repeat' (with_reducible first | assumption | exact Keep.refl _ | apply State.startFetch_keep | apply State.raDrop_keep | apply State.raWaits_keep | apply State.fetchAhead_keep | apply Keep.foldl | intro _ | fail_if_no_progress (refine Keep.mk' ?_ rfl) | refine KeepE.of_ok ?_ (by assumption) | (extract_lets -underBinder +onlyGivenNames x; (refine (fun (hx : Keep s0 x) => ?_) ?_); (on_goal 1 => try clear_value x); (on_goal 2 => (unfold x; clear x))) | (extract_lets -underBinder +onlyGivenNames x; have hd : x.dram = x.dram := rfl) | (extract_lets -underBinder +onlyGivenNames x; try clear_value x) | split)

theorem State.fetchWanted_keep {s0 s : State} (h : Keep s0 s) (p : Nat) : Keep s0 (State.fetchWanted s p) := by
  unfold State.fetchWanted
  repeat' (with_reducible first | assumption | exact Keep.refl _ | fail_if_no_progress (refine Keep.mk' ?_ rfl) | (extract_lets -underBinder +onlyGivenNames x; (refine (fun (hx : Keep s0 x) => ?_) ?_); (on_goal 1 => try clear_value x); (on_goal 2 => (unfold x; clear x))) | (extract_lets -underBinder +onlyGivenNames x; have hd : x.dram = x.dram := rfl) | (extract_lets -underBinder +onlyGivenNames x; try clear_value x))

theorem State.zeroFill_keep {s0 s : State} (h : Keep s0 s) (p t : Nat) : KeepE s0 (State.zeroFill s p t) := by
  unfold State.zeroFill
  repeat' (with_reducible first | assumption | exact Keep.refl _ | apply State.takeFrame_keep | apply State.fillFrame_keep | apply State.setPte_keep | apply State.addT1_keep | apply State.addT2_keep | fail_if_no_progress (refine Keep.mk' ?_ rfl) | refine KeepO3.get ?_ (by assumption) | apply KeepE.ok | exact KeepE.error | (extract_lets -underBinder +onlyGivenNames x; (refine (fun (hx : Keep s0 x) => ?_) ?_); (on_goal 1 => try clear_value x); (on_goal 2 => (unfold x; clear x))) | (extract_lets -underBinder +onlyGivenNames x; try clear_value x) | split)

theorem State.pageStep_keep {s0 s : State} (h : Keep s0 s) (a : Acc) : KeepPT s0 (State.pageStep s a) := by
  unfold State.pageStep
  repeat' (with_reducible first | assumption | exact Keep.refl _ | apply State.accDone_keep | apply State.startFetch_keep | apply State.readAhead_keep | apply State.readAheadGo_keep | apply State.fetchWanted_keep | apply State.zeroFill_keep | fail_if_no_progress (refine Keep.mk' ?_ rfl) | apply KeepT.done | apply KeepT.wait | apply KeepT.merged | refine KeepE.of_ok ?_ (by assumption) | apply KeepPT.none | apply KeepPT.some | (extract_lets -underBinder +onlyGivenNames x; (refine (fun (hx : Keep s0 x) => ?_) ?_); (on_goal 1 => try clear_value x); (on_goal 2 => (unfold x; clear x))) | exact KeepO.get (by assumption) rfl | exact KeepO.none | apply KeepO.some | (apply KeepO.map; intro _) | (extract_lets -underBinder +onlyGivenNames x; (refine (fun (hx : KeepO s0 x) => ?_) ?_); (on_goal 1 => try clear_value x); (on_goal 2 => (unfold x; clear x))) | (extract_lets -underBinder +onlyGivenNames x; have hd : x.dram = x.dram := rfl) | (extract_lets -underBinder +onlyGivenNames x; try clear_value x) | split)

theorem State.bypassWrite_keep {s0 s : State} (h : Keep s0 s) (a : Acc) : KeepT s0 (State.bypassWrite s a) := by
  unfold State.bypassWrite
  repeat' (with_reducible first | assumption | exact Keep.refl _ | apply State.dramReq_keep | apply State.setDram_keep | apply State.accDone_keep | apply State.noteUnsealed_keep | apply State.placed_keep | apply Keep.foldl | apply Keep.foldl_fst | apply Keep.foldl_snd | intro _ | fail_if_no_progress (refine Keep.mk' ?_ rfl) | apply KeepT.done | apply KeepT.wait | apply KeepT.merged | (extract_lets -underBinder +onlyGivenNames x; (refine (fun (hx : Keep s0 x) => ?_) ?_); (on_goal 1 => try clear_value x); (on_goal 2 => (unfold x; clear x))) | exact KeepO.get (by assumption) rfl | exact KeepO.none | apply KeepO.some | (apply KeepO.map; intro _) | (extract_lets -underBinder +onlyGivenNames x; (refine (fun (hx : KeepO s0 x) => ?_) ?_); (on_goal 1 => try clear_value x); (on_goal 2 => (unfold x; clear x))) | (extract_lets -underBinder +onlyGivenNames x; try clear_value x) | split)

theorem State.bypass_keep {s0 s : State} (h : Keep s0 s) (a : Acc) : KeepT s0 (State.bypass s a) := by
  unfold State.bypass
  repeat' (with_reducible first | assumption | exact Keep.refl _ | apply State.accDone_keep | apply State.mergeAcc_keep | apply State.missTake_keep | apply State.bypassWrite_keep | fail_if_no_progress (refine Keep.mk' ?_ rfl) | apply KeepT.done | apply KeepT.wait | apply KeepT.merged | refine KeepT.of_done ?_ (by assumption) | refine KeepT.of_wait ?_ (by assumption) | refine KeepT.of_merged ?_ (by assumption) | (extract_lets -underBinder +onlyGivenNames x; (refine (fun (hx : Keep s0 x) => ?_) ?_); (on_goal 1 => try clear_value x); (on_goal 2 => (unfold x; clear x))) | (extract_lets -underBinder +onlyGivenNames x; try clear_value x) | split)

theorem State.bypassFor_keep {s0 s : State} (h : Keep s0 s) (a : Acc) : KeepT s0 (State.bypassFor s a) := by
  unfold State.bypassFor
  repeat' (with_reducible first | assumption | exact Keep.refl _ | apply State.quotaBypass_keep | apply State.bypass_keep | fail_if_no_progress (refine Keep.mk' ?_ rfl) | apply KeepT.done | apply KeepT.wait | apply KeepT.merged | (extract_lets -underBinder +onlyGivenNames x; (refine (fun (hx : Keep s0 x) => ?_) ?_); (on_goal 1 => try clear_value x); (on_goal 2 => (unfold x; clear x))) | (extract_lets -underBinder +onlyGivenNames x; try clear_value x) | split)

theorem State.cacheStep_keep {s0 s : State} (h : Keep s0 s) (a : Acc) : KeepT s0 (State.cacheStep s a) := by
  unfold State.cacheStep
  repeat' (with_reducible first | assumption | exact Keep.refl _ | apply State.pmuCount_keep | apply State.setWay_keep | apply State.alloc_keep | apply State.reinstate_keep | apply State.hit_keep | apply State.countLookup_keep | apply State.mergeAcc_keep | apply State.missTake_keep | apply State.bypass_keep | apply State.bypassFor_keep | fail_if_no_progress (refine Keep.mk' ?_ rfl) | refine KeepA.of_way ?_ (by assumption) | apply KeepT.done | apply KeepT.wait | apply KeepT.merged | refine KeepT.of_done ?_ (by assumption) | refine KeepT.of_wait ?_ (by assumption) | refine KeepT.of_merged ?_ (by assumption) | (extract_lets -underBinder +onlyGivenNames x; (refine (fun (hx : Keep s0 x) => ?_) ?_); (on_goal 1 => try clear_value x); (on_goal 2 => (unfold x; clear x))) | (extract_lets -underBinder +onlyGivenNames x; try clear_value x) | split)

theorem State.applyLine_keep {s0 s : State} (h : Keep s0 s) (a : Acc) : KeepT s0 (State.applyLine s a) := by
  unfold State.applyLine
  repeat' (with_reducible first | assumption | exact Keep.refl _ | apply State.dramReq_keep | apply State.setDram_keep | apply State.charge_keep | apply State.accDone_keep | apply KeepT.done | apply KeepT.wait | apply KeepT.merged | (extract_lets -underBinder +onlyGivenNames x; (refine (fun (hx : Keep s0 x) => ?_) ?_); (on_goal 1 => try clear_value x); (on_goal 2 => (unfold x; clear x))) | (extract_lets -underBinder +onlyGivenNames x; try clear_value x) | split)

theorem State.tryAcc_keep {s0 s : State} (h : Keep s0 s) (a : Acc) : KeepT s0 (State.tryAcc s a) := by
  unfold State.tryAcc
  repeat' (with_reducible first | assumption | exact Keep.refl _ | apply State.heatPage_keep | apply State.cacheError_keep | apply State.ptLookup_keep | apply State.pageStep_keep | apply State.cacheStep_keep | apply State.applyLine_keep | fail_if_no_progress (refine Keep.mk' ?_ rfl) | apply KeepT.done | apply KeepT.wait | apply KeepT.merged | refine KeepT.of_done ?_ (by assumption) | refine KeepT.of_wait ?_ (by assumption) | refine KeepT.of_merged ?_ (by assumption) | refine KeepP3.get_some ?_ (by assumption) | refine KeepP3.get_snd ?_ (by assumption) | refine KeepPT.get_some ?_ (by assumption) | refine KeepPT.get_snd ?_ (by assumption) | (extract_lets -underBinder +onlyGivenNames x; (refine (fun (hx : Keep s0 x) => ?_) ?_); (on_goal 1 => try clear_value x); (on_goal 2 => (unfold x; clear x))) | (extract_lets -underBinder +onlyGivenNames x; try clear_value x) | split)

theorem State.park_keep {s0 s : State} (h : Keep s0 s) (a : Acc) (w : Wait) : Keep s0 (State.park s a w).1 := by
  unfold State.park
  repeat' (with_reducible first | assumption | exact Keep.refl _ | apply State.stallEnd_keep | apply State.waitBegins_keep | fail_if_no_progress (refine Keep.mk' ?_ rfl) | (extract_lets -underBinder +onlyGivenNames x; (refine (fun (hx : Keep s0 x) => ?_) ?_); (on_goal 1 => try clear_value x); (on_goal 2 => (unfold x; clear x))) | (extract_lets -underBinder +onlyGivenNames x; (refine (fun (hx : Keep s0 x.1) => ?_) ?_); (on_goal 1 => try clear_value x); (on_goal 2 => (unfold x; clear x))) | (extract_lets -underBinder +onlyGivenNames x; try clear_value x) | split)

theorem pumpList_keep {s0 : State} (as : List Acc) : ∀ {s : State}, Keep s0 s → ∀ (kept : List Acc) (moved : Bool), Keep s0 (pumpList as s kept moved).1 := by
  induction as with
  | nil => intro s h kept moved; exact h
  | cons a as ih =>
    intro s h kept moved
    unfold pumpList
    have ht := State.tryAcc_keep h a
    repeat' (with_reducible first | assumption | apply ih | apply State.stallEnd_keep | apply State.pmuCount_keep | apply State.park_keep | refine KeepT.of_done ht (by assumption) | refine KeepT.of_merged ht (by assumption) | refine KeepT.of_wait ht (by assumption) | refine Keep.of_fst (by assumption) ?_ | (extract_lets -underBinder +onlyGivenNames x; (refine (fun (hx : Keep s0 x) => ?_) ?_); (on_goal 1 => try clear_value x); (on_goal 2 => unfold x)) | split)

theorem State.pump_keep {s0 s : State} (h : Keep s0 s)  : Keep s0 (State.pump s).1 := by
  unfold State.pump
  repeat' (with_reducible first | assumption | exact Keep.refl _ | apply pumpList_keep | fail_if_no_progress (refine Keep.mk' ?_ rfl) | refine Keep.of_fst (by assumption) ?_ | (extract_lets -underBinder +onlyGivenNames x; (refine (fun (hx : Keep s0 x) => ?_) ?_); (on_goal 1 => try clear_value x); (on_goal 2 => (unfold x; clear x))) | (extract_lets -underBinder +onlyGivenNames x; (refine (fun (hx : Keep s0 x.1) => ?_) ?_); (on_goal 1 => try clear_value x); (on_goal 2 => (unfold x; clear x))) | (extract_lets -underBinder +onlyGivenNames x; try clear_value x) | split)

theorem State.fillLine_keep {s0 s : State} (h : Keep s0 s) (m : Mshr) (v : DLine) : Keep s0 (State.fillLine s m v) := by
  unfold State.fillLine
  repeat' (with_reducible first | assumption | exact Keep.refl _ | apply State.askWay_keep | apply State.setWay_keep | apply State.touch_keep | apply State.accDone_keep | apply Keep.foldl | apply Keep.foldl_fst | apply Keep.foldl_snd | intro _ | fail_if_no_progress (refine Keep.mk' ?_ rfl) | (extract_lets -underBinder +onlyGivenNames x; (refine (fun (hx : Keep s0 x) => ?_) ?_); (on_goal 1 => try clear_value x); (on_goal 2 => (unfold x; clear x))) | exact KeepO.get (by assumption) rfl | exact KeepO.none | apply KeepO.some | (apply KeepO.map; intro _) | (extract_lets -underBinder +onlyGivenNames x; (refine (fun (hx : KeepO s0 x) => ?_) ?_); (on_goal 1 => try clear_value x); (on_goal 2 => (unfold x; clear x))) | (extract_lets -underBinder +onlyGivenNames x; have hf := fun z => x z) | (extract_lets -underBinder +onlyGivenNames x; try clear_value x) | split)

end Sys2Proof.Machine
end

