-- ==== Sys2Proof/Laws/KeepMediaOps.lean ====
section
/-! SUPPORT. What the operations of Machine/MediaOps.lean keep (Keep). -/

set_option linter.unreachableTactic false
set_option linter.unusedTactic false
set_option linter.unusedVariables false

namespace Sys2Proof.Machine

theorem State.jrn_keep {s0 s : State} (h : Keep s0 s) (r : JRec) (frees : Option Nat) : Keep s0 (State.jrn s r frees) := by
  unfold State.jrn
  repeat' (with_reducible first | assumption | exact Keep.refl _ | fail_if_no_progress (refine Keep.mk' ?_ rfl) | (extract_lets -underBinder +onlyGivenNames x; (refine (fun (hx : Keep s0 x) => ?_) ?_); (on_goal 1 => try clear_value x); (on_goal 2 => (unfold x; clear x))) | (extract_lets -underBinder +onlyGivenNames x; try clear_value x))

theorem State.setDieSt_keep {s0 s : State} (h : Keep s0 s) (c d v : Nat) : Keep s0 (State.setDieSt s c d v) := by
  unfold State.setDieSt
  repeat' (with_reducible first | assumption | exact Keep.refl _ | apply State.wr_keep | apply State.jrn_keep | (extract_lets -underBinder +onlyGivenNames x; (refine (fun (hx : Keep s0 x) => ?_) ?_); (on_goal 1 => try clear_value x); (on_goal 2 => (unfold x; clear x))) | (extract_lets -underBinder +onlyGivenNames x; try clear_value x))

theorem State.budgetRecompute_keep {s0 s : State} (h : Keep s0 s)  : Keep s0 (State.budgetRecompute s) := by
  unfold State.budgetRecompute
  repeat' (with_reducible first | assumption | exact Keep.refl _ | apply State.wr_keep | apply State.raiseIf_keep | fail_if_no_progress (refine Keep.mk' ?_ rfl) | (extract_lets -underBinder +onlyGivenNames x; (refine (fun (hx : Keep s0 x) => ?_) ?_); (on_goal 1 => try clear_value x); (on_goal 2 => (unfold x; clear x))) | (extract_lets -underBinder +onlyGivenNames x; have hd : x.dram = x.dram := rfl) | (extract_lets -underBinder +onlyGivenNames x; try clear_value x) | split)

theorem State.progEnds_keep {s0 s : State} (h : Keep s0 s) (c d stream : Nat) : Keep s0 (State.progEnds s c d stream) := by
  unfold State.progEnds
  repeat' (with_reducible first | assumption | exact Keep.refl _ | apply State.setProg_keep | fail_if_no_progress (refine Keep.mk' ?_ rfl) | (extract_lets -underBinder +onlyGivenNames x; (refine (fun (hx : Keep s0 x) => ?_) ?_); (on_goal 1 => try clear_value x); (on_goal 2 => (unfold x; clear x))) | (extract_lets -underBinder +onlyGivenNames x; try clear_value x) | split)

theorem reserveMore_keep {s0 : State}  : ∀ (a0 : Nat) (a1 : State) (a2 : Nat), Keep s0 a1 → Keep s0 (reserveMore a0 a1 a2) := by
  intro  a0
  induction a0 with
  | zero =>
    intro a1 a2 h
    first | rw [reserveMore] | unfold reserveMore
    repeat' (with_reducible first | assumption | exact Keep.refl _ | fail_if_no_progress (refine Keep.mk' ?_ rfl) | (extract_lets -underBinder +onlyGivenNames x; (refine (fun (hx : Keep s0 x) => ?_) ?_); (on_goal 1 => try clear_value x); (on_goal 2 => (unfold x; clear x))) | (extract_lets -underBinder +onlyGivenNames x; try clear_value x) | split)
  | succ n ih =>
    intro a1 a2 h
    first | rw [reserveMore] | unfold reserveMore
    repeat' (with_reducible first | assumption | apply ih | exact Keep.refl _ | fail_if_no_progress (refine Keep.mk' ?_ rfl) | (extract_lets -underBinder +onlyGivenNames x; (refine (fun (hx : Keep s0 x) => ?_) ?_); (on_goal 1 => try clear_value x); (on_goal 2 => (unfold x; clear x))) | (extract_lets -underBinder +onlyGivenNames x; try clear_value x) | split)

theorem State.fillReserve_keep {s0 s : State} (h : Keep s0 s)  : Keep s0 (State.fillReserve s) := by
  unfold State.fillReserve
  repeat' (with_reducible first | assumption | exact Keep.refl _ | apply reserveMore_keep | apply Keep.foldl | intro _ | (extract_lets -underBinder +onlyGivenNames x; (refine (fun (hx : Keep s0 x) => ?_) ?_); (on_goal 1 => try clear_value x); (on_goal 2 => (unfold x; clear x))) | exact KeepO.get (by assumption) rfl | exact KeepO.none | apply KeepO.some | (apply KeepO.map; intro _) | (extract_lets -underBinder +onlyGivenNames x; (refine (fun (hx : KeepO s0 x) => ?_) ?_); (on_goal 1 => try clear_value x); (on_goal 2 => (unfold x; clear x))) | (extract_lets -underBinder +onlyGivenNames x; try clear_value x) | split)

theorem State.mediaRecompute_keep {s0 s : State} (h : Keep s0 s)  : Keep s0 (State.mediaRecompute s) := by
  unfold State.mediaRecompute
  repeat' (with_reducible first | assumption | exact Keep.refl _ | apply State.wr_keep | apply State.raiseIf_keep | apply State.budgetRecompute_keep | fail_if_no_progress (refine Keep.mk' ?_ rfl) | (extract_lets -underBinder +onlyGivenNames x; (refine (fun (hx : Keep s0 x) => ?_) ?_); (on_goal 1 => try clear_value x); (on_goal 2 => (unfold x; clear x))) | (extract_lets -underBinder +onlyGivenNames x; try clear_value x))

theorem State.openSb_keep {s0 s : State} (h : Keep s0 s) (stream g : Nat) (slc : Bool) : KeepO s0 (State.openSb s stream g slc) := by
  unfold State.openSb
  repeat' (with_reducible first | assumption | exact Keep.refl _ | apply State.setSb_keep | apply State.jrn_keep | fail_if_no_progress (refine Keep.mk' ?_ rfl) | exact KeepO.none | apply KeepO.some | (extract_lets -underBinder +onlyGivenNames x; (refine (fun (hx : Keep s0 x) => ?_) ?_); (on_goal 1 => try clear_value x); (on_goal 2 => (unfold x; clear x))) | (extract_lets -underBinder +onlyGivenNames x; try clear_value x) | split)

theorem State.closeSb_keep {s0 s : State} (h : Keep s0 s) (stream g : Nat) (slc : Bool) : Keep s0 (State.closeSb s stream g slc) := by
  unfold State.closeSb
  repeat' (with_reducible first | assumption | exact Keep.refl _ | apply State.setSb_keep | apply State.jrn_keep | fail_if_no_progress (refine Keep.mk' ?_ rfl) | (extract_lets -underBinder +onlyGivenNames x; (refine (fun (hx : Keep s0 x) => ?_) ?_); (on_goal 1 => try clear_value x); (on_goal 2 => (unfold x; clear x))) | (extract_lets -underBinder +onlyGivenNames x; try clear_value x) | split)

theorem State.readyOpen_keep {s0 s : State} (h : Keep s0 s) (stream : Nat) (slc : Bool) : Keep s0 (State.readyOpen s stream slc) := by
  unfold State.readyOpen
  repeat' (with_reducible first | assumption | exact Keep.refl _ | apply State.openSb_keep | apply State.closeSb_keep | apply Keep.foldl | intro _ | fail_if_no_progress (refine Keep.mk' ?_ rfl) | refine KeepO.get ?_ (by assumption) | (extract_lets -underBinder +onlyGivenNames x; (refine (fun (hx : Keep s0 x) => ?_) ?_); (on_goal 1 => try clear_value x); (on_goal 2 => (unfold x; clear x))) | exact KeepO.get (by assumption) rfl | exact KeepO.none | apply KeepO.some | (apply KeepO.map; intro _) | (extract_lets -underBinder +onlyGivenNames x; (refine (fun (hx : KeepO s0 x) => ?_) ?_); (on_goal 1 => try clear_value x); (on_goal 2 => (unfold x; clear x))) | (extract_lets -underBinder +onlyGivenNames x; try clear_value x) | split)

theorem State.startProg_keep {s0 s : State} (h : Keep s0 s) (stream : Nat) (slc : Bool) (src : Option Nat) (u : MUnit) : KeepO2 s0 (State.startProg s stream slc src u) := by
  unfold State.startProg
  repeat' (with_reducible first | assumption | exact Keep.refl _ | apply State.askIn_keep | apply State.cphCount_keep | apply State.setSb_keep | apply State.readyOpen_keep | fail_if_no_progress (refine Keep.mk' ?_ rfl) | exact KeepO2.none | apply KeepO2.some | (extract_lets -underBinder +onlyGivenNames x; (refine (fun (hx : Keep s0 x) => ?_) ?_); (on_goal 1 => try clear_value x); (on_goal 2 => (unfold x; clear x))) | (extract_lets -underBinder +onlyGivenNames x; try clear_value x) | split)

theorem State.dropUnit_keep {s0 s : State} (h : Keep s0 s) (a : Nat) : Keep s0 (State.dropUnit s a) := by
  unfold State.dropUnit
  repeat' (with_reducible first | assumption | exact Keep.refl _ | apply State.setSb_keep | fail_if_no_progress (refine Keep.mk' ?_ rfl) | (extract_lets -underBinder +onlyGivenNames x; (refine (fun (hx : Keep s0 x) => ?_) ?_); (on_goal 1 => try clear_value x); (on_goal 2 => (unfold x; clear x))) | (extract_lets -underBinder +onlyGivenNames x; try clear_value x))

theorem State.moveUnits_keep {s0 s : State} (h : Keep s0 s) (stream : Nat) (p : Nat → Bool) : Keep s0 (State.moveUnits s stream p) := by
  unfold State.moveUnits
  repeat' (with_reducible first | assumption | exact Keep.refl _ | apply Keep.foldl | intro _ | fail_if_no_progress (refine Keep.mk' ?_ rfl) | (extract_lets -underBinder +onlyGivenNames x; (refine (fun (hx : Keep s0 x) => ?_) ?_); (on_goal 1 => try clear_value x); (on_goal 2 => (unfold x; clear x))) | (extract_lets -underBinder +onlyGivenNames x; try clear_value x))

theorem State.victim_keep {s0 s : State} (h : Keep s0 s) (k stream : Nat) : Keep s0 (State.victim s k stream) := by
  unfold State.victim
  repeat' (with_reducible first | assumption | exact Keep.refl _ | apply State.setSb_keep | apply State.moveUnits_keep | fail_if_no_progress (refine Keep.mk' ?_ rfl) | (extract_lets -underBinder +onlyGivenNames x; (refine (fun (hx : Keep s0 x) => ?_) ?_); (on_goal 1 => try clear_value x); (on_goal 2 => (unfold x; clear x))) | (extract_lets -underBinder +onlyGivenNames x; try clear_value x) | split)

theorem State.eraseCheck_keep {s0 s : State} (h : Keep s0 s)  : Keep s0 (State.eraseCheck s) := by
  unfold State.eraseCheck
  repeat' (with_reducible first | assumption | exact Keep.refl _ | apply State.jrn_keep | apply Keep.foldl | intro _ | (extract_lets -underBinder +onlyGivenNames x; (refine (fun (hx : Keep s0 x) => ?_) ?_); (on_goal 1 => try clear_value x); (on_goal 2 => (unfold x; clear x))) | (extract_lets -underBinder +onlyGivenNames x; try clear_value x) | split)

theorem State.reclaimCheck_keep {s0 s : State} (h : Keep s0 s)  : Keep s0 (State.reclaimCheck s) := by
  unfold State.reclaimCheck
  repeat' (with_reducible first | assumption | exact Keep.refl _ | apply State.victim_keep | apply Keep.foldl | apply Keep.foldl_fst | apply Keep.foldl_snd | intro _ | fail_if_no_progress (refine Keep.mk' ?_ rfl) | (extract_lets -underBinder +onlyGivenNames x; (refine (fun (hx : Keep s0 x) => ?_) ?_); (on_goal 1 => try clear_value x); (on_goal 2 => (unfold x; clear x))) | (extract_lets -underBinder +onlyGivenNames x; try clear_value x) | split)

theorem State.foldCheck_keep {s0 s : State} (h : Keep s0 s)  : Keep s0 (State.foldCheck s) := by
  unfold State.foldCheck
  repeat' (with_reducible first | assumption | exact Keep.refl _ | apply State.idle_keep | apply State.victim_keep | apply Keep.foldl | apply Keep.foldl_fst | apply Keep.foldl_snd | intro _ | fail_if_no_progress (refine Keep.mk' ?_ rfl) | (extract_lets -underBinder +onlyGivenNames x; (refine (fun (hx : Keep s0 x) => ?_) ?_); (on_goal 1 => try clear_value x); (on_goal 2 => (unfold x; clear x))) | (extract_lets -underBinder +onlyGivenNames x; try clear_value x) | split)

theorem State.unmapPage_keep {s0 s : State} (h : Keep s0 s) (p : Nat) : Keep s0 (State.unmapPage s p) := by
  unfold State.unmapPage
  repeat' (with_reducible first | assumption | exact Keep.refl _ | apply State.medCount_keep | apply State.jrn_keep | apply State.dropUnit_keep | (extract_lets -underBinder +onlyGivenNames x; (refine (fun (hx : Keep s0 x) => ?_) ?_); (on_goal 1 => try clear_value x); (on_goal 2 => (unfold x; clear x))) | (extract_lets -underBinder +onlyGivenNames x; try clear_value x) | split)

theorem State.badBlock_keep {s0 s : State} (h : Keep s0 s) (c d pl k cause : Nat) : Keep s0 (State.badBlock s c d pl k cause).1 := by
  unfold State.badBlock
  repeat' (with_reducible first | assumption | exact Keep.refl _ | apply State.raise_keep | apply State.modStat_keep | apply State.jrn_keep | apply State.moveUnits_keep | fail_if_no_progress (refine Keep.mk' ?_ rfl) | (extract_lets -underBinder +onlyGivenNames x; (refine (fun (hx : Keep s0 x) => ?_) ?_); (on_goal 1 => try clear_value x); (on_goal 2 => (unfold x; clear x))) | (extract_lets -underBinder +onlyGivenNames x; (refine (fun (hx : Keep s0 x.1) => ?_) ?_); (on_goal 1 => try clear_value x); (on_goal 2 => (unfold x; clear x))) | (extract_lets -underBinder +onlyGivenNames x; try clear_value x) | split)

theorem State.durable_keep {s0 s : State} (h : Keep s0 s) (r : JRec) : Keep s0 (State.durable s r) := by
  unfold State.durable
  repeat' (with_reducible first | assumption | exact Keep.refl _ | apply State.idle_keep | apply State.setSb_keep | fail_if_no_progress (refine Keep.mk' ?_ rfl) | (extract_lets -underBinder +onlyGivenNames x; (refine (fun (hx : Keep s0 x) => ?_) ?_); (on_goal 1 => try clear_value x); (on_goal 2 => (unfold x; clear x))) | exact KeepO.get (by assumption) rfl | exact KeepO.none | apply KeepO.some | (apply KeepO.map; intro _) | (extract_lets -underBinder +onlyGivenNames x; (refine (fun (hx : KeepO s0 x) => ?_) ?_); (on_goal 1 => try clear_value x); (on_goal 2 => (unfold x; clear x))) | (extract_lets -underBinder +onlyGivenNames x; try clear_value x) | split)

theorem State.jrnUnit_keep {s0 s : State} (h : Keep s0 s) (now : List JRec) : Keep s0 (State.jrnUnit s now) := by
  unfold State.jrnUnit
  repeat' (with_reducible first | assumption | exact Keep.refl _ | apply State.medCount_keep | apply State.durable_keep | apply Keep.foldl | apply Keep.foldl_fst | apply Keep.foldl_snd | intro _ | fail_if_no_progress (refine Keep.mk' ?_ rfl) | (extract_lets -underBinder +onlyGivenNames x; (refine (fun (hx : Keep s0 x) => ?_) ?_); (on_goal 1 => try clear_value x); (on_goal 2 => (unfold x; clear x))) | (extract_lets -underBinder +onlyGivenNames x; try clear_value x))

theorem State.jrnForce_keep {s0 s : State} (h : Keep s0 s) (rs : List JRec) : Keep s0 (State.jrnForce s rs) := by
  unfold State.jrnForce
  repeat' (with_reducible first | assumption | exact Keep.refl _ | apply State.jrnUnit_keep | apply Keep.foldl | apply Keep.foldl_fst | apply Keep.foldl_snd | intro _ | fail_if_no_progress (refine Keep.mk' ?_ rfl) | (extract_lets -underBinder +onlyGivenNames x; (refine (fun (hx : Keep s0 x) => ?_) ?_); (on_goal 1 => try clear_value x); (on_goal 2 => (unfold x; clear x))) | exact KeepO.get (by assumption) rfl | exact KeepO.none | apply KeepO.some | (apply KeepO.map; intro _) | (extract_lets -underBinder +onlyGivenNames x; (refine (fun (hx : KeepO s0 x) => ?_) ?_); (on_goal 1 => try clear_value x); (on_goal 2 => (unfold x; clear x))) | (extract_lets -underBinder +onlyGivenNames x; try clear_value x))

end Sys2Proof.Machine
end

