-- ==== Sys2Proof/Laws/KeepTierOps.lean ====
section
/-! SUPPORT. What the operations of Machine/TierOps.lean keep (Keep). -/

set_option linter.unreachableTactic false
set_option linter.unusedTactic false
set_option linter.unusedVariables false

namespace Sys2Proof.Machine

theorem State.writeBackPage_keep {s0 s : State} (h : Keep s0 s) (p : Nat) : Keep s0 (State.writeBackPage s p) := by
  unfold State.writeBackPage
  repeat' (with_reducible first | assumption | exact Keep.refl _ | apply State.setWay_keep | apply State.setDram_keep | apply Keep.foldl | apply Keep.foldl_fst | apply Keep.foldl_snd | intro _ | fail_if_no_progress (refine Keep.mk' ?_ rfl) | (extract_lets -underBinder +onlyGivenNames x; (refine (fun (hx : Keep s0 x) => ?_) ?_); (on_goal 1 => try clear_value x); (on_goal 2 => (unfold x; clear x))) | (extract_lets -underBinder +onlyGivenNames x; try clear_value x) | split)

theorem State.dropPageLines_keep {s0 s : State} (h : Keep s0 s) (p : Nat) : Keep s0 (State.dropPageLines s p) := by
  unfold State.dropPageLines
  repeat' (with_reducible first | assumption | exact Keep.refl _ | apply State.invalidate_keep | apply Keep.foldl | apply Keep.foldl_fst | apply Keep.foldl_snd | intro _ | fail_if_no_progress (refine Keep.mk' ?_ rfl) | (extract_lets -underBinder +onlyGivenNames x; (refine (fun (hx : Keep s0 x) => ?_) ?_); (on_goal 1 => try clear_value x); (on_goal 2 => (unfold x; clear x))) | (extract_lets -underBinder +onlyGivenNames x; try clear_value x))

theorem State.toMedia_keep {s0 s : State} (h : Keep s0 s) (p : Nat) : Keep s0 (State.toMedia s p) := by
  unfold State.toMedia
  repeat' (with_reducible first | assumption | exact Keep.refl _ | apply State.giveFrame_keep | apply State.setPte_keep | apply State.addT1_keep | apply State.dropPageLines_keep | fail_if_no_progress (refine Keep.mk' ?_ rfl) | (extract_lets -underBinder +onlyGivenNames x; (refine (fun (hx : Keep s0 x) => ?_) ?_); (on_goal 1 => try clear_value x); (on_goal 2 => (unfold x; clear x))) | (extract_lets -underBinder +onlyGivenNames x; try clear_value x))

theorem State.startDestage_keep {s0 s : State} (h : Keep s0 s) (p : Nat) (demote : Bool) : Keep s0 (State.startDestage s p demote) := by
  unfold State.startDestage
  repeat' (with_reducible first | assumption | exact Keep.refl _ | apply State.raiseIf_keep | apply State.dramReq_keep | apply State.setPte_keep | apply State.stagingBegins_keep | apply State.startProg_keep | apply State.writeBackPage_keep | apply Keep.foldl | apply Keep.foldl_fst | apply Keep.foldl_snd | intro _ | fail_if_no_progress (refine Keep.mk' ?_ rfl) | refine KeepO2.get ?_ (by assumption) | (extract_lets -underBinder +onlyGivenNames x; (refine (fun (hx : Keep s0 x) => ?_) ?_); (on_goal 1 => try clear_value x); (on_goal 2 => (unfold x; clear x))) | (extract_lets -underBinder +onlyGivenNames x; have hd : x.dram = x.dram := rfl) | (extract_lets -underBinder +onlyGivenNames x; try clear_value x) | split)

theorem State.destageGo_keep {s0 s : State} (h : Keep s0 s)  : Keep s0 (State.destageGo s) := by
  unfold State.destageGo
  repeat' (with_reducible first | assumption | exact Keep.refl _ | apply State.stagingEnds_keep | apply State.startDestage_keep | apply Keep.foldl | intro _ | fail_if_no_progress (refine Keep.mk' ?_ rfl) | (extract_lets -underBinder +onlyGivenNames x; (refine (fun (hx : Keep s0 x) => ?_) ?_); (on_goal 1 => try clear_value x); (on_goal 2 => (unfold x; clear x))) | (extract_lets -underBinder +onlyGivenNames x; have hd : x.dram = x.dram := rfl) | (extract_lets -underBinder +onlyGivenNames x; try clear_value x) | split)

theorem State.endDemotion_keep {s0 s : State} (h : Keep s0 s) (p : Nat) (wrote : Bool) : Keep s0 (State.endDemotion s p wrote) := by
  unfold State.endDemotion
  repeat' (with_reducible first | assumption | exact Keep.refl _ | apply State.setPte_keep | apply State.toMedia_keep | fail_if_no_progress (refine Keep.mk' ?_ rfl) | (extract_lets -underBinder +onlyGivenNames x; (refine (fun (hx : Keep s0 x) => ?_) ?_); (on_goal 1 => try clear_value x); (on_goal 2 => (unfold x; clear x))) | (extract_lets -underBinder +onlyGivenNames x; have hd : x.dram = x.dram := rfl) | (extract_lets -underBinder +onlyGivenNames x; try clear_value x) | split)

theorem State.demotesGo_keep {s0 s : State} (h : Keep s0 s)  : Keep s0 (State.demotesGo s) := by
  unfold State.demotesGo
  repeat' (with_reducible first | assumption | exact Keep.refl _ | apply State.endDemotion_keep | apply Keep.foldl | intro _ | fail_if_no_progress (refine Keep.mk' ?_ rfl) | (extract_lets -underBinder +onlyGivenNames x; (refine (fun (hx : Keep s0 x) => ?_) ?_); (on_goal 1 => try clear_value x); (on_goal 2 => (unfold x; clear x))) | (extract_lets -underBinder +onlyGivenNames x; have hd : x.dram = x.dram := rfl) | (extract_lets -underBinder +onlyGivenNames x; try clear_value x) | split)

theorem State.demote_keep {s0 s : State} (h : Keep s0 s) (p : Nat) : Keep s0 (State.demote s p) := by
  unfold State.demote
  repeat' (with_reducible first | assumption | exact Keep.refl _ | apply State.setPte_keep | apply State.startDestage_keep | apply State.endDemotion_keep | fail_if_no_progress (refine Keep.mk' ?_ rfl) | (extract_lets -underBinder +onlyGivenNames x; (refine (fun (hx : Keep s0 x) => ?_) ?_); (on_goal 1 => try clear_value x); (on_goal 2 => (unfold x; clear x))) | exact KeepO.get (by assumption) rfl | exact KeepO.none | apply KeepO.some | (apply KeepO.map; intro _) | (extract_lets -underBinder +onlyGivenNames x; (refine (fun (hx : KeepO s0 x) => ?_) ?_); (on_goal 1 => try clear_value x); (on_goal 2 => (unfold x; clear x))) | (extract_lets -underBinder +onlyGivenNames x; have hd : x.dram = x.dram := rfl) | (extract_lets -underBinder +onlyGivenNames x; try clear_value x) | split)

theorem State.sweepPage_keep {s0 s : State} (h : Keep s0 s) (p : Nat) : Keep s0 (State.sweepPage s p) := by
  unfold State.sweepPage
  repeat' (with_reducible first | assumption | exact Keep.refl _ | apply State.setPte_keep | apply State.pin_keep | apply State.demote_keep | fail_if_no_progress (refine Keep.mk' ?_ rfl) | (extract_lets -underBinder +onlyGivenNames x; (refine (fun (hx : Keep s0 x) => ?_) ?_); (on_goal 1 => try clear_value x); (on_goal 2 => (unfold x; clear x))) | (extract_lets -underBinder +onlyGivenNames x; try clear_value x) | split)

theorem sweepList_keep {s0 : State}  : ∀ (a0 : List Nat) (a1 : Nat) (a2 : State), Keep s0 a2 → Keep s0 (sweepList a0 a1 a2) := by
  intro  a0
  induction a0 with
  | nil =>
    intro a1 a2 h
    first | rw [sweepList] | unfold sweepList
    repeat' (with_reducible first | assumption | exact Keep.refl _ | apply State.sweepPage_keep | fail_if_no_progress (refine Keep.mk' ?_ rfl) | (extract_lets -underBinder +onlyGivenNames x; (refine (fun (hx : Keep s0 x) => ?_) ?_); (on_goal 1 => try clear_value x); (on_goal 2 => (unfold x; clear x))) | (extract_lets -underBinder +onlyGivenNames x; have hd : x.dram = x.dram := rfl) | (extract_lets -underBinder +onlyGivenNames x; try clear_value x) | split)
  | cons x xs ih =>
    intro a1 a2 h
    first | rw [sweepList] | unfold sweepList
    repeat' (with_reducible first | assumption | apply ih | exact Keep.refl _ | apply State.sweepPage_keep | fail_if_no_progress (refine Keep.mk' ?_ rfl) | (extract_lets -underBinder +onlyGivenNames x; (refine (fun (hx : Keep s0 x) => ?_) ?_); (on_goal 1 => try clear_value x); (on_goal 2 => (unfold x; clear x))) | (extract_lets -underBinder +onlyGivenNames x; have hd : x.dram = x.dram := rfl) | (extract_lets -underBinder +onlyGivenNames x; try clear_value x) | split)

theorem State.demoter_keep {s0 s : State} (h : Keep s0 s)  : Keep s0 (State.demoter s) := by
  unfold State.demoter
  repeat' (with_reducible first | assumption | exact Keep.refl _ | apply sweepList_keep | fail_if_no_progress (refine Keep.mk' ?_ rfl) | (extract_lets -underBinder +onlyGivenNames x; (refine (fun (hx : Keep s0 x) => ?_) ?_); (on_goal 1 => try clear_value x); (on_goal 2 => (unfold x; clear x))) | (extract_lets -underBinder +onlyGivenNames x; have hd : x.dram = x.dram := rfl) | (extract_lets -underBinder +onlyGivenNames x; try clear_value x) | split)

theorem State.quotaSweep_keep {s0 s : State} (h : Keep s0 s) (t : Nat) : Keep s0 (State.quotaSweep s t) := by
  unfold State.quotaSweep
  repeat' (with_reducible first | assumption | exact Keep.refl _ | apply State.sweepPage_keep | apply Keep.foldl | intro _ | (extract_lets -underBinder +onlyGivenNames x; (refine (fun (hx : Keep s0 x) => ?_) ?_); (on_goal 1 => try clear_value x); (on_goal 2 => (unfold x; clear x))) | (extract_lets -underBinder +onlyGivenNames x; have hd : x.dram = x.dram := rfl) | (extract_lets -underBinder +onlyGivenNames x; try clear_value x) | split)

theorem State.pressure_keep {s0 s : State} (h : Keep s0 s)  : Keep s0 (State.pressure s) := by
  unfold State.pressure
  repeat' (with_reducible first | assumption | exact Keep.refl _ | apply State.startDestage_keep | apply Keep.foldl | intro _ | (extract_lets -underBinder +onlyGivenNames x; (refine (fun (hx : Keep s0 x) => ?_) ?_); (on_goal 1 => try clear_value x); (on_goal 2 => (unfold x; clear x))) | exact KeepO.get (by assumption) rfl | exact KeepO.none | apply KeepO.some | (apply KeepO.map; intro _) | (extract_lets -underBinder +onlyGivenNames x; (refine (fun (hx : KeepO s0 x) => ?_) ?_); (on_goal 1 => try clear_value x); (on_goal 2 => (unfold x; clear x))) | (extract_lets -underBinder +onlyGivenNames x; have hd : x.dram = x.dram := rfl) | (extract_lets -underBinder +onlyGivenNames x; have hf := fun z => x z) | (extract_lets -underBinder +onlyGivenNames x; try clear_value x) | split)

theorem State.popMove_keep {s0 s : State} (h : Keep s0 s) (c : Nat) : Keep s0 (State.popMove s c) := by
  unfold State.popMove
  repeat' (with_reducible first | assumption | exact Keep.refl _ | apply State.wr_keep | apply State.modChan_keep | apply State.retireEnd_keep | fail_if_no_progress (refine Keep.mk' ?_ rfl) | (extract_lets -underBinder +onlyGivenNames x; (refine (fun (hx : Keep s0 x) => ?_) ?_); (on_goal 1 => try clear_value x); (on_goal 2 => (unfold x; clear x))) | (extract_lets -underBinder +onlyGivenNames x; try clear_value x))

theorem State.moveFrame_keep {s0 s : State} (h : Keep s0 s) (c p : Nat) : Keep s0 (State.moveFrame s c p).2 := by
  unfold State.moveFrame
  repeat' (with_reducible first | assumption | exact Keep.refl _ | apply State.raise_keep | apply State.takeFrame_keep | apply State.takeSpare_keep | fail_if_no_progress (refine Keep.mk' ?_ rfl) | refine KeepO3.get ?_ (by assumption) | (extract_lets -underBinder +onlyGivenNames x; (refine (fun (hx : Keep s0 x) => ?_) ?_); (on_goal 1 => try clear_value x); (on_goal 2 => (unfold x; clear x))) | (extract_lets -underBinder +onlyGivenNames x; (refine (fun (hx : Keep s0 x.2) => ?_) ?_); (on_goal 1 => try clear_value x); (on_goal 2 => (unfold x; clear x))) | (extract_lets -underBinder +onlyGivenNames x; try clear_value x) | split)

theorem startMove_keep {s0 : State}  : ∀ (a0 : Nat) (a1 : State) (a2 : Nat), Keep s0 a1 → Keep s0 (startMove a0 a1 a2) := by
  intro  a0
  induction a0 with
  | zero =>
    intro a1 a2 h
    first | rw [startMove] | unfold startMove
    repeat' (with_reducible first | assumption | exact Keep.refl _ | apply State.modChan_keep | apply State.setPte_keep | apply State.pin_keep | apply State.toMedia_keep | apply State.demote_keep | apply State.popMove_keep | apply State.moveFrame_keep | fail_if_no_progress (refine Keep.mk' ?_ rfl) | refine Keep.of_snd (by assumption) ?_ | (extract_lets -underBinder +onlyGivenNames x; (refine (fun (hx : Keep s0 x) => ?_) ?_); (on_goal 1 => try clear_value x); (on_goal 2 => (unfold x; clear x))) | (extract_lets -underBinder +onlyGivenNames x; (refine (fun (hx : Keep s0 x.2) => ?_) ?_); (on_goal 1 => try clear_value x); (on_goal 2 => (unfold x; clear x))) | (extract_lets -underBinder +onlyGivenNames x; try clear_value x) | split)
  | succ n ih =>
    intro a1 a2 h
    first | rw [startMove] | unfold startMove
    repeat' (with_reducible first | assumption | apply ih | exact Keep.refl _ | apply State.modChan_keep | apply State.setPte_keep | apply State.pin_keep | apply State.toMedia_keep | apply State.demote_keep | apply State.popMove_keep | apply State.moveFrame_keep | fail_if_no_progress (refine Keep.mk' ?_ rfl) | refine Keep.of_snd (by assumption) ?_ | (extract_lets -underBinder +onlyGivenNames x; (refine (fun (hx : Keep s0 x) => ?_) ?_); (on_goal 1 => try clear_value x); (on_goal 2 => (unfold x; clear x))) | (extract_lets -underBinder +onlyGivenNames x; (refine (fun (hx : Keep s0 x.2) => ?_) ?_); (on_goal 1 => try clear_value x); (on_goal 2 => (unfold x; clear x))) | (extract_lets -underBinder +onlyGivenNames x; try clear_value x) | split)

theorem State.startMoves_keep {s0 s : State} (h : Keep s0 s)  : Keep s0 (State.startMoves s) := by
  unfold State.startMoves
  repeat' (with_reducible first | assumption | exact Keep.refl _ | apply startMove_keep | apply Keep.foldl | apply Keep.foldl_fst | apply Keep.foldl_snd | intro _ | split)

theorem State.redoGo_keep {s0 s : State} (h : Keep s0 s)  : Keep s0 (State.redoGo s) := by
  unfold State.redoGo
  repeat' (with_reducible first | assumption | exact Keep.refl _ | apply State.startDestage_keep | apply Keep.foldl | intro _ | fail_if_no_progress (refine Keep.mk' ?_ rfl) | (extract_lets -underBinder +onlyGivenNames x; (refine (fun (hx : Keep s0 x) => ?_) ?_); (on_goal 1 => try clear_value x); (on_goal 2 => (unfold x; clear x))) | (extract_lets -underBinder +onlyGivenNames x; have hd : x.dram = x.dram := rfl) | (extract_lets -underBinder +onlyGivenNames x; try clear_value x) | split)

theorem State.discharge_keep {s0 s : State} (h : Keep s0 s) (p : Nat) (mask : Word64) : Keep s0 (State.discharge s p mask) := by
  unfold State.discharge
  repeat' (with_reducible first | assumption | exact Keep.refl _ | apply State.wr_keep | apply State.addWused_keep | apply State.setPte_keep | fail_if_no_progress (refine Keep.mk' ?_ rfl) | (extract_lets -underBinder +onlyGivenNames x; (refine (fun (hx : Keep s0 x) => ?_) ?_); (on_goal 1 => try clear_value x); (on_goal 2 => (unfold x; clear x))) | (extract_lets -underBinder +onlyGivenNames x; have hd : x.dram = x.dram := rfl) | (extract_lets -underBinder +onlyGivenNames x; try clear_value x) | split)

theorem State.discardPage_keep {s0 s : State} (h : Keep s0 s) (p : Nat) : Keep s0 (State.discardPage s p) := by
  unfold State.discardPage
  repeat' (with_reducible first | assumption | exact Keep.refl _ | apply State.giveFrame_keep | apply State.setPte_keep | apply State.addT1_keep | apply State.addT2_keep | apply State.pin_keep | apply State.stagingEnds_keep | apply State.unmapPage_keep | apply State.dropPageLines_keep | apply State.discharge_keep | fail_if_no_progress (refine Keep.mk' ?_ rfl) | (extract_lets -underBinder +onlyGivenNames x; (refine (fun (hx : Keep s0 x) => ?_) ?_); (on_goal 1 => try clear_value x); (on_goal 2 => (unfold x; clear x))) | (extract_lets -underBinder +onlyGivenNames x; have hd : x.dram = x.dram := rfl) | (extract_lets -underBinder +onlyGivenNames x; try clear_value x) | split)

theorem State.discardsGo_keep {s0 s : State} (h : Keep s0 s)  : Keep s0 (State.discardsGo s) := by
  unfold State.discardsGo
  repeat' (with_reducible first | assumption | exact Keep.refl _ | apply State.discardPage_keep | apply Keep.foldl | intro _ | fail_if_no_progress (refine Keep.mk' ?_ rfl) | (extract_lets -underBinder +onlyGivenNames x; (refine (fun (hx : Keep s0 x) => ?_) ?_); (on_goal 1 => try clear_value x); (on_goal 2 => (unfold x; clear x))) | (extract_lets -underBinder +onlyGivenNames x; have hd : x.dram = x.dram := rfl) | (extract_lets -underBinder +onlyGivenNames x; try clear_value x) | split)

theorem State.tierWork_keep {s0 s : State} (h : Keep s0 s)  : Keep s0 (State.tierWork s) := by
  unfold State.tierWork
  repeat' (with_reducible first | assumption | exact Keep.refl _ | apply State.stagingGo_keep | apply State.readAheadGo_keep | apply State.startDestage_keep | apply State.destageGo_keep | apply State.demotesGo_keep | apply State.demoter_keep | apply State.quotaSweep_keep | apply State.pressure_keep | apply State.startMoves_keep | apply State.redoGo_keep | apply State.discardsGo_keep | apply Keep.foldl | intro _ | (extract_lets -underBinder +onlyGivenNames x; (refine (fun (hx : Keep s0 x) => ?_) ?_); (on_goal 1 => try clear_value x); (on_goal 2 => (unfold x; clear x))) | exact KeepO.get (by assumption) rfl | exact KeepO.none | apply KeepO.some | (apply KeepO.map; intro _) | (extract_lets -underBinder +onlyGivenNames x; (refine (fun (hx : KeepO s0 x) => ?_) ?_); (on_goal 1 => try clear_value x); (on_goal 2 => (unfold x; clear x))) | (extract_lets -underBinder +onlyGivenNames x; have hd : x.dram = x.dram := rfl) | (extract_lets -underBinder +onlyGivenNames x; try clear_value x) | split)

theorem State.fetchLands_keep {s0 s : State} (h : Keep s0 s) (p : Nat) (lines : List DLine) (markDirty : Bool) : Keep s0 (State.fetchLands s p lines markDirty) := by
  unfold State.fetchLands
  repeat' (with_reducible first | assumption | exact Keep.refl _ | apply State.askIn_keep | apply State.fillFrame_keep | apply State.setPte_keep | apply State.cphCount_keep | apply State.fetchWanted_keep | apply State.discardPage_keep | fail_if_no_progress (refine Keep.mk' ?_ rfl) | (extract_lets -underBinder +onlyGivenNames x; (refine (fun (hx : Keep s0 x) => ?_) ?_); (on_goal 1 => try clear_value x); (on_goal 2 => (unfold x; clear x))) | (extract_lets -underBinder +onlyGivenNames x; have hd : x.dram = x.dram := rfl) | (extract_lets -underBinder +onlyGivenNames x; try clear_value x) | split)

theorem State.destageEnds_keep {s0 s : State} (h : Keep s0 s) (p : Nat) (d : Destage) : Keep s0 (State.destageEnds s p d) := by
  unfold State.destageEnds
  repeat' (with_reducible first | assumption | exact Keep.refl _ | apply State.setPte_keep | apply State.endDemotion_keep | apply State.demote_keep | apply State.discharge_keep | fail_if_no_progress (refine Keep.mk' ?_ rfl) | (extract_lets -underBinder +onlyGivenNames x; (refine (fun (hx : Keep s0 x) => ?_) ?_); (on_goal 1 => try clear_value x); (on_goal 2 => (unfold x; clear x))) | (extract_lets -underBinder +onlyGivenNames x; have hd : x.dram = x.dram := rfl) | (extract_lets -underBinder +onlyGivenNames x; try clear_value x) | split)

theorem State.tierQuiesce_keep {s0 s : State} (h : Keep s0 s)  : Keep s0 (State.tierQuiesce s) := by
  unfold State.tierQuiesce
  repeat' (with_reducible first | assumption | exact Keep.refl _ | apply State.wr_keep | (extract_lets -underBinder +onlyGivenNames x; (refine (fun (hx : Keep s0 x) => ?_) ?_); (on_goal 1 => try clear_value x); (on_goal 2 => (unfold x; clear x))) | (extract_lets -underBinder +onlyGivenNames x; try clear_value x) | split)

theorem State.setPool_keep {s0 s : State} (h : Keep s0 s) (n : Nat) : Keep s0 (State.setPool s n) := by
  unfold State.setPool
  repeat' (with_reducible first | assumption | exact Keep.refl _ | apply State.wr_keep | apply State.setChFrames_keep | apply Keep.foldl | apply Keep.foldl_fst | apply Keep.foldl_snd | intro _ | fail_if_no_progress (refine Keep.mk' ?_ rfl) | (extract_lets -underBinder +onlyGivenNames x; (refine (fun (hx : Keep s0 x) => ?_) ?_); (on_goal 1 => try clear_value x); (on_goal 2 => (unfold x; clear x))) | (extract_lets -underBinder +onlyGivenNames x; have hd : x.dram = x.dram := rfl) | (extract_lets -underBinder +onlyGivenNames x; try clear_value x))

end Sys2Proof.Machine
end

