-- ==== Sys2Proof/Laws/KeepPool.lean ====
section
/-! SUPPORT. What the operations of Machine/Pool.lean keep (Keep). -/

set_option linter.unreachableTactic false
set_option linter.unusedTactic false
set_option linter.unusedVariables false

namespace Sys2Proof.Machine

theorem State.setPort_keep {s0 s : State} (h : Keep s0 s) (p : Nat) (v : Port) : Keep s0 (State.setPort s p v) := by
  unfold State.setPort
  repeat' (with_reducible first | assumption | exact Keep.refl _ | fail_if_no_progress (refine Keep.mk' ?_ rfl) | (extract_lets -underBinder +onlyGivenNames x; (refine (fun (hx : Keep s0 x) => ?_) ?_); (on_goal 1 => try clear_value x); (on_goal 2 => (unfold x; clear x))) | (extract_lets -underBinder +onlyGivenNames x; try clear_value x))

theorem State.modPort_keep {s0 s : State} (h : Keep s0 s) (p : Nat) (f : Port → Port) : Keep s0 (State.modPort s p f) := by
  unfold State.modPort
  repeat' (with_reducible first | assumption | exact Keep.refl _ | apply State.setPort_keep)

theorem State.hptCount_keep {s0 s : State} (h : Keep s0 s) (p k : Nat) (n : Nat) : Keep s0 (State.hptCount s p k n) := by
  unfold State.hptCount
  repeat' (with_reducible first | assumption | exact Keep.refl _ | apply State.inc_keep)

theorem State.addLink_keep {s0 s : State} (h : Keep s0 s) (n : Nat) : Keep s0 (State.addLink s n) := by
  unfold State.addLink
  repeat' (with_reducible first | assumption | exact Keep.refl _ | fail_if_no_progress (refine Keep.mk' ?_ rfl) | (extract_lets -underBinder +onlyGivenNames x; (refine (fun (hx : Keep s0 x) => ?_) ?_); (on_goal 1 => try clear_value x); (on_goal 2 => (unfold x; clear x))) | (extract_lets -underBinder +onlyGivenNames x; try clear_value x))

theorem State.subLink_keep {s0 s : State} (h : Keep s0 s) (n : Nat) : Keep s0 (State.subLink s n) := by
  unfold State.subLink
  repeat' (with_reducible first | assumption | exact Keep.refl _ | fail_if_no_progress (refine Keep.mk' ?_ rfl) | (extract_lets -underBinder +onlyGivenNames x; (refine (fun (hx : Keep s0 x) => ?_) ?_); (on_goal 1 => try clear_value x); (on_goal 2 => (unfold x; clear x))) | (extract_lets -underBinder +onlyGivenNames x; try clear_value x))

theorem State.addHead_keep {s0 s : State} (h : Keep s0 s) (p q n : Nat) : Keep s0 (State.addHead s p q n) := by
  unfold State.addHead
  repeat' (with_reducible first | assumption | exact Keep.refl _ | fail_if_no_progress (refine Keep.mk' ?_ rfl) | (extract_lets -underBinder +onlyGivenNames x; (refine (fun (hx : Keep s0 x) => ?_) ?_); (on_goal 1 => try clear_value x); (on_goal 2 => (unfold x; clear x))) | (extract_lets -underBinder +onlyGivenNames x; try clear_value x))

theorem State.subCells_keep {s0 s : State} (h : Keep s0 s) (p q n : Nat) : Keep s0 (State.subCells s p q n) := by
  unfold State.subCells
  repeat' (with_reducible first | assumption | exact Keep.refl _ | apply State.charge_keep | fail_if_no_progress (refine Keep.mk' ?_ rfl) | (extract_lets -underBinder +onlyGivenNames x; (refine (fun (hx : Keep s0 x) => ?_) ?_); (on_goal 1 => try clear_value x); (on_goal 2 => (unfold x; clear x))) | (extract_lets -underBinder +onlyGivenNames x; try clear_value x))

theorem State.subHead_keep {s0 s : State} (h : Keep s0 s) (p q n : Nat) : Keep s0 (State.subHead s p q n) := by
  unfold State.subHead
  repeat' (with_reducible first | assumption | exact Keep.refl _ | fail_if_no_progress (refine Keep.mk' ?_ rfl) | (extract_lets -underBinder +onlyGivenNames x; (refine (fun (hx : Keep s0 x) => ?_) ?_); (on_goal 1 => try clear_value x); (on_goal 2 => (unfold x; clear x))) | (extract_lets -underBinder +onlyGivenNames x; try clear_value x) | split)

theorem State.dropHold_keep {s0 s : State} (h : Keep s0 s) (stamp qpn : Nat) : Keep s0 (State.dropHold s stamp qpn) := by
  unfold State.dropHold
  repeat' (with_reducible first | assumption | exact Keep.refl _ | fail_if_no_progress (refine Keep.mk' ?_ rfl) | (extract_lets -underBinder +onlyGivenNames x; (refine (fun (hx : Keep s0 x) => ?_) ?_); (on_goal 1 => try clear_value x); (on_goal 2 => (unfold x; clear x))) | (extract_lets -underBinder +onlyGivenNames x; try clear_value x))

theorem State.freeTx_keep {s0 s : State} (h : Keep s0 s) (f : TxFrame) : Keep s0 (State.freeTx s f) := by
  unfold State.freeTx
  repeat' (with_reducible first | assumption | exact Keep.refl _ | apply State.unpin_keep | apply State.subLink_keep | apply State.subCells_keep | apply State.dropHold_keep | apply Keep.foldl | intro _ | fail_if_no_progress (refine Keep.mk' ?_ rfl) | (extract_lets -underBinder +onlyGivenNames x; (refine (fun (hx : Keep s0 x) => ?_) ?_); (on_goal 1 => try clear_value x); (on_goal 2 => (unfold x; clear x))) | (extract_lets -underBinder +onlyGivenNames x; try clear_value x) | split)

theorem State.queuePauseAs_keep {s0 s : State} (h : Keep s0 s) (mode p : Nat) (qs : List (Nat × Nat)) : Keep s0 (State.queuePauseAs s mode p qs) := by
  unfold State.queuePauseAs
  repeat' (with_reducible first | assumption | exact Keep.refl _ | apply State.modPort_keep | fail_if_no_progress (refine Keep.mk' ?_ rfl) | (extract_lets -underBinder +onlyGivenNames x; (refine (fun (hx : Keep s0 x) => ?_) ?_); (on_goal 1 => try clear_value x); (on_goal 2 => (unfold x; clear x))) | exact KeepO.get (by assumption) rfl | exact KeepO.none | apply KeepO.some | (apply KeepO.map; intro _) | (extract_lets -underBinder +onlyGivenNames x; (refine (fun (hx : KeepO s0 x) => ?_) ?_); (on_goal 1 => try clear_value x); (on_goal 2 => (unfold x; clear x))) | (extract_lets -underBinder +onlyGivenNames x; try clear_value x) | split)

theorem State.queuePause_keep {s0 s : State} (h : Keep s0 s) (p : Nat) (qs : List (Nat × Nat)) : Keep s0 (State.queuePause s p qs) := by
  unfold State.queuePause
  repeat' (with_reducible first | assumption | exact Keep.refl _ | apply State.queuePauseAs_keep)

theorem State.countPause_keep {s0 : State} (s : State) (p : Nat) : ∀ (a0 : TxBody), Keep s0 s → Keep s0 (State.countPause s p a0) := by
  intro a0 h
  unfold State.countPause
  repeat' (with_reducible first | assumption | exact Keep.refl _ | apply State.hptCount_keep | apply Keep.foldl | intro _ | split)

theorem State.dropTx_keep {s0 s : State} (h : Keep s0 s) (p : Nat) : Keep s0 (State.dropTx s p).1 := by
  unfold State.dropTx
  repeat' (with_reducible first | assumption | exact Keep.refl _ | apply State.modPort_keep | apply State.hptCount_keep | apply State.freeTx_keep | apply Keep.foldl | apply Keep.foldl_fst | apply Keep.foldl_snd | intro _ | fail_if_no_progress (refine Keep.mk' ?_ rfl) | (extract_lets -underBinder +onlyGivenNames x; (refine (fun (hx : Keep s0 x) => ?_) ?_); (on_goal 1 => try clear_value x); (on_goal 2 => (unfold x; clear x))) | (extract_lets -underBinder +onlyGivenNames x; (refine (fun (hx : Keep s0 x.1) => ?_) ?_); (on_goal 1 => try clear_value x); (on_goal 2 => (unfold x; clear x))) | (extract_lets -underBinder +onlyGivenNames x; have hf := fun z => x z) | (extract_lets -underBinder +onlyGivenNames x; try clear_value x) | split)

theorem State.pickTx_keep {s0 s : State} (h : Keep s0 s) (p : Nat) : Keep s0 (State.pickTx s p) := by
  unfold State.pickTx
  repeat' (with_reducible first | assumption | exact Keep.refl _ | apply State.modPort_keep | apply State.countPause_keep | fail_if_no_progress (refine Keep.mk' ?_ rfl) | (extract_lets -underBinder +onlyGivenNames x; (refine (fun (hx : Keep s0 x) => ?_) ?_); (on_goal 1 => try clear_value x); (on_goal 2 => (unfold x; clear x))) | exact KeepO.get (by assumption) rfl | exact KeepO.none | apply KeepO.some | (apply KeepO.map; intro _) | (extract_lets -underBinder +onlyGivenNames x; (refine (fun (hx : KeepO s0 x) => ?_) ?_); (on_goal 1 => try clear_value x); (on_goal 2 => (unfold x; clear x))) | (extract_lets -underBinder +onlyGivenNames x; try clear_value x) | split)

theorem State.chargeTx_keep {s0 s : State} (h : Keep s0 s) (f : TxFrame) (n : Nat) : KeepO1 s0 (State.chargeTx s f n) := by
  unfold State.chargeTx
  repeat' (with_reducible first | assumption | exact Keep.refl _ | apply State.addCells_keep | apply State.addLink_keep | fail_if_no_progress (refine Keep.mk' ?_ rfl) | exact KeepO1.none | apply KeepO1.some | (extract_lets -underBinder +onlyGivenNames x; (refine (fun (hx : Keep s0 x) => ?_) ?_); (on_goal 1 => try clear_value x); (on_goal 2 => (unfold x; clear x))) | (extract_lets -underBinder +onlyGivenNames x; try clear_value x) | split)

theorem State.freeRx_keep {s0 s : State} (h : Keep s0 s) (h : Nat × Nat × Nat × Bool) : Keep s0 (State.freeRx s h) := by
  unfold State.freeRx
  repeat' (with_reducible first | assumption | exact Keep.refl _ | apply State.subCells_keep | apply State.subHead_keep | split)

theorem State.buildTx_keep {s0 s : State} (h : Keep s0 s) (w : EgressWait) : KeepO s0 (State.buildTx s w) := by
  unfold State.buildTx
  repeat' (with_reducible first | assumption | exact Keep.refl _ | apply State.satInc_keep | apply State.pin_keep | apply State.modPort_keep | apply State.chargeTx_keep | apply State.freeRx_keep | apply Keep.foldl | apply Keep.foldl_fst | apply Keep.foldl_snd | intro _ | fail_if_no_progress (refine Keep.mk' ?_ rfl) | exact KeepO.none | apply KeepO.some | refine KeepO1.get ?_ (by assumption) | (extract_lets -underBinder +onlyGivenNames x; (refine (fun (hx : Keep s0 x) => ?_) ?_); (on_goal 1 => try clear_value x); (on_goal 2 => (unfold x; clear x))) | (extract_lets -underBinder +onlyGivenNames x; try clear_value x) | split)

theorem State.egressRetry_keep {s0 s : State} (h : Keep s0 s)  : Keep s0 (State.egressRetry s).1 := by
  unfold State.egressRetry
  repeat' (with_reducible first | assumption | exact Keep.refl _ | apply State.buildTx_keep | apply Keep.foldl | apply Keep.foldl_fst | apply Keep.foldl_snd | intro _ | fail_if_no_progress (refine Keep.mk' ?_ rfl) | refine KeepO.get ?_ (by assumption) | (extract_lets -underBinder +onlyGivenNames x; (refine (fun (hx : Keep s0 x) => ?_) ?_); (on_goal 1 => try clear_value x); (on_goal 2 => (unfold x; clear x))) | exact KeepO.get (by assumption) rfl | exact KeepO.none | apply KeepO.some | (apply KeepO.map; intro _) | (extract_lets -underBinder +onlyGivenNames x; (refine (fun (hx : KeepO s0 x) => ?_) ?_); (on_goal 1 => try clear_value x); (on_goal 2 => (unfold x; clear x))) | (extract_lets -underBinder +onlyGivenNames x; (refine (fun (hx : Keep s0 x.1) => ?_) ?_); (on_goal 1 => try clear_value x); (on_goal 2 => (unfold x; clear x))) | (extract_lets -underBinder +onlyGivenNames x; try clear_value x) | split)

theorem State.endXoff_keep {s0 s : State} (h : Keep s0 s) (mode p : Nat) (qs : List Nat) : Keep s0 (State.endXoff s mode p qs) := by
  unfold State.endXoff
  repeat' (with_reducible first | assumption | exact Keep.refl _ | apply State.wr_keep | apply State.modPort_keep | apply State.queuePauseAs_keep | apply Keep.foldl | apply Keep.foldl_fst | apply Keep.foldl_snd | intro _ | fail_if_no_progress (refine Keep.mk' ?_ rfl) | (extract_lets -underBinder +onlyGivenNames x; (refine (fun (hx : Keep s0 x) => ?_) ?_); (on_goal 1 => try clear_value x); (on_goal 2 => (unfold x; clear x))) | exact KeepO.get (by assumption) rfl | exact KeepO.none | apply KeepO.some | (apply KeepO.map; intro _) | (extract_lets -underBinder +onlyGivenNames x; (refine (fun (hx : KeepO s0 x) => ?_) ?_); (on_goal 1 => try clear_value x); (on_goal 2 => (unfold x; clear x))) | (extract_lets -underBinder +onlyGivenNames x; try clear_value x))

theorem State.setPending_keep {s0 s : State} (h : Keep s0 s) (p q : Nat) (on : Bool) : Keep s0 (State.setPending s p q on) := by
  unfold State.setPending
  repeat' (with_reducible first | assumption | exact Keep.refl _ | apply State.wr_keep | fail_if_no_progress (refine Keep.mk' ?_ rfl) | (extract_lets -underBinder +onlyGivenNames x; (refine (fun (hx : Keep s0 x) => ?_) ?_); (on_goal 1 => try clear_value x); (on_goal 2 => (unfold x; clear x))) | (extract_lets -underBinder +onlyGivenNames x; try clear_value x) | split)

theorem State.grantHeadroom_keep {s0 s : State} (h : Keep s0 s) (p q : Nat) (first : Bool) : Keep s0 (State.grantHeadroom s p q first) := by
  unfold State.grantHeadroom
  repeat' (with_reducible first | assumption | exact Keep.refl _ | apply State.raiseIf_keep | apply State.setPending_keep | fail_if_no_progress (refine Keep.mk' ?_ rfl) | (extract_lets -underBinder +onlyGivenNames x; (refine (fun (hx : Keep s0 x) => ?_) ?_); (on_goal 1 => try clear_value x); (on_goal 2 => (unfold x; clear x))) | (extract_lets -underBinder +onlyGivenNames x; try clear_value x) | split)

theorem State.grantPending_keep {s0 s : State} (h : Keep s0 s)  : Keep s0 (State.grantPending s) := by
  unfold State.grantPending
  repeat' (with_reducible first | assumption | exact Keep.refl _ | apply State.grantHeadroom_keep | apply Keep.foldl | intro _)

theorem State.afterCells_keep {s0 s : State} (h : Keep s0 s) (p : Nat) : Keep s0 (State.afterCells s p).1 := by
  unfold State.afterCells
  repeat' (with_reducible first | assumption | exact Keep.refl _ | apply State.wr_keep | apply State.egressRetry_keep | apply State.endXoff_keep | apply State.grantPending_keep | refine Keep.of_fst (by assumption) ?_ | (extract_lets -underBinder +onlyGivenNames x; (refine (fun (hx : Keep s0 x) => ?_) ?_); (on_goal 1 => try clear_value x); (on_goal 2 => (unfold x; clear x))) | (extract_lets -underBinder +onlyGivenNames x; (refine (fun (hx : Keep s0 x.1) => ?_) ?_); (on_goal 1 => try clear_value x); (on_goal 2 => (unfold x; clear x))) | (extract_lets -underBinder +onlyGivenNames x; try clear_value x) | split)

theorem txGo_keep {s0 : State}  : ∀ (a0 : Nat) (a1 : List Nat) (a2 : List Nat) (a3 : State), Keep s0 a3 → Keep s0 (txGo a0 a1 a2 a3) := by
  intro  a0
  induction a0 with
  | zero =>
    intro a1 a2 a3 h
    first | rw [txGo] | unfold txGo
    repeat' (with_reducible first | assumption | exact Keep.refl _ | apply State.dropTx_keep | apply State.pickTx_keep | apply State.afterCells_keep | fail_if_no_progress (refine Keep.mk' ?_ rfl) | refine Keep.of_fst (by assumption) ?_ | (extract_lets -underBinder +onlyGivenNames x; (refine (fun (hx : Keep s0 x) => ?_) ?_); (on_goal 1 => try clear_value x); (on_goal 2 => (unfold x; clear x))) | (extract_lets -underBinder +onlyGivenNames x; (refine (fun (hx : Keep s0 x.1) => ?_) ?_); (on_goal 1 => try clear_value x); (on_goal 2 => (unfold x; clear x))) | (extract_lets -underBinder +onlyGivenNames x; try clear_value x) | split)
  | succ n ih =>
    intro a1 a2 a3 h
    first | rw [txGo] | unfold txGo
    repeat' (with_reducible first | assumption | apply ih | exact Keep.refl _ | apply State.dropTx_keep | apply State.pickTx_keep | apply State.afterCells_keep | fail_if_no_progress (refine Keep.mk' ?_ rfl) | refine Keep.of_fst (by assumption) ?_ | (extract_lets -underBinder +onlyGivenNames x; (refine (fun (hx : Keep s0 x) => ?_) ?_); (on_goal 1 => try clear_value x); (on_goal 2 => (unfold x; clear x))) | (extract_lets -underBinder +onlyGivenNames x; (refine (fun (hx : Keep s0 x.1) => ?_) ?_); (on_goal 1 => try clear_value x); (on_goal 2 => (unfold x; clear x))) | (extract_lets -underBinder +onlyGivenNames x; try clear_value x) | split)

theorem State.startTx_keep {s0 s : State} (h : Keep s0 s) (p : Nat) : Keep s0 (State.startTx s p) := by
  unfold State.startTx
  repeat' (with_reducible first | assumption | exact Keep.refl _ | apply txGo_keep)

theorem State.afterFree_keep {s0 s : State} (h : Keep s0 s) (p : Nat) : Keep s0 (State.afterFree s p) := by
  unfold State.afterFree
  repeat' (with_reducible first | assumption | exact Keep.refl _ | apply txGo_keep)

theorem State.queueChain_keep {s0 s : State} (h : Keep s0 s) (w : EgressWait) : Keep s0 (State.queueChain s w) := by
  unfold State.queueChain
  repeat' (with_reducible first | assumption | exact Keep.refl _ | apply State.raiseIf_keep | apply State.buildTx_keep | apply txGo_keep | fail_if_no_progress (refine Keep.mk' ?_ rfl) | refine KeepO.get ?_ (by assumption) | (extract_lets -underBinder +onlyGivenNames x; (refine (fun (hx : Keep s0 x) => ?_) ?_); (on_goal 1 => try clear_value x); (on_goal 2 => (unfold x; clear x))) | exact KeepO.get (by assumption) rfl | exact KeepO.none | apply KeepO.some | (apply KeepO.map; intro _) | (extract_lets -underBinder +onlyGivenNames x; (refine (fun (hx : KeepO s0 x) => ?_) ?_); (on_goal 1 => try clear_value x); (on_goal 2 => (unfold x; clear x))) | (extract_lets -underBinder +onlyGivenNames x; try clear_value x) | split)

theorem State.queueTx_keep {s0 s : State} (h : Keep s0 s) (f : TxFrame) (lines : List Nat) : Keep s0 (State.queueTx s f lines) := by
  unfold State.queueTx
  repeat' (with_reducible first | assumption | exact Keep.refl _ | apply State.queueChain_keep | fail_if_no_progress (refine Keep.mk' ?_ rfl))

theorem State.sendXoff_keep {s0 s : State} (h : Keep s0 s) (p : Nat) (qs : List Nat) : Keep s0 (State.sendXoff s p qs) := by
  unfold State.sendXoff
  repeat' (with_reducible first | assumption | exact Keep.refl _ | apply State.wr_keep | apply State.modPort_keep | apply State.queuePause_keep | apply State.startTx_keep | apply Keep.foldl | apply Keep.foldl_fst | apply Keep.foldl_snd | intro _ | fail_if_no_progress (refine Keep.mk' ?_ rfl) | (extract_lets -underBinder +onlyGivenNames x; (refine (fun (hx : Keep s0 x) => ?_) ?_); (on_goal 1 => try clear_value x); (on_goal 2 => (unfold x; clear x))) | exact KeepO.get (by assumption) rfl | exact KeepO.none | apply KeepO.some | (apply KeepO.map; intro _) | (extract_lets -underBinder +onlyGivenNames x; (refine (fun (hx : KeepO s0 x) => ?_) ?_); (on_goal 1 => try clear_value x); (on_goal 2 => (unfold x; clear x))) | (extract_lets -underBinder +onlyGivenNames x; try clear_value x))

theorem State.sendXon_keep {s0 s : State} (h : Keep s0 s) (mode p : Nat) (qs : List Nat) : Keep s0 (State.sendXon s mode p qs) := by
  unfold State.sendXon
  repeat' (with_reducible first | assumption | exact Keep.refl _ | apply State.endXoff_keep | apply State.startTx_keep)

theorem State.xonCheck_keep {s0 s : State} (h : Keep s0 s) (p : Nat) : Keep s0 (State.xonCheck s p) := by
  unfold State.xonCheck
  repeat' (with_reducible first | assumption | exact Keep.refl _ | apply State.sendXon_keep)

theorem State.consumeRx_keep {s0 s : State} (h : Keep s0 s) (p : Nat) (f : RxFrame) : Keep s0 (State.consumeRx s p f) := by
  unfold State.consumeRx
  repeat' (with_reducible first | assumption | exact Keep.refl _ | apply State.freeRx_keep | apply State.afterFree_keep)

theorem State.popRx_keep {s0 s : State} (h : Keep s0 s) (p : Nat) (ok : RxFrame → Bool) : KeepO2 s0 (State.popRx s p ok) := by
  unfold State.popRx
  repeat' (with_reducible first | assumption | exact Keep.refl _ | apply State.modPort_keep | fail_if_no_progress (refine Keep.mk' ?_ rfl) | exact KeepO2.none | apply KeepO2.some | (extract_lets -underBinder +onlyGivenNames x; (refine (fun (hx : Keep s0 x) => ?_) ?_); (on_goal 1 => try clear_value x); (on_goal 2 => (unfold x; clear x))) | (extract_lets -underBinder +onlyGivenNames x; try clear_value x) | split)

theorem State.reserveHeadroom_keep {s0 s : State} (h : Keep s0 s)  : Keep s0 (State.reserveHeadroom s) := by
  unfold State.reserveHeadroom
  repeat' (with_reducible first | assumption | exact Keep.refl _ | apply State.wr_keep | apply Keep.foldl | intro _ | fail_if_no_progress (refine Keep.mk' ?_ rfl) | (extract_lets -underBinder +onlyGivenNames x; (refine (fun (hx : Keep s0 x) => ?_) ?_); (on_goal 1 => try clear_value x); (on_goal 2 => (unfold x; clear x))) | (extract_lets -underBinder +onlyGivenNames x; try clear_value x) | split)

theorem State.damperTime_keep {s0 s : State} (h : Keep s0 s)  : Keep s0 (State.damperTime s) := by
  unfold State.damperTime
  repeat' (with_reducible first | assumption | exact Keep.refl _ | apply State.inc_keep | fail_if_no_progress (refine Keep.mk' ?_ rfl) | (extract_lets -underBinder +onlyGivenNames x; (refine (fun (hx : Keep s0 x) => ?_) ?_); (on_goal 1 => try clear_value x); (on_goal 2 => (unfold x; clear x))) | (extract_lets -underBinder +onlyGivenNames x; try clear_value x) | split)

theorem State.setLevel_keep {s0 s : State} (h : Keep s0 s) (l : Nat) : Keep s0 (State.setLevel s l) := by
  unfold State.setLevel
  repeat' (with_reducible first | assumption | exact Keep.refl _ | apply State.wr_keep | apply State.satInc_keep | apply State.raise_keep | apply State.sendXoff_keep | apply State.xonCheck_keep | apply State.damperTime_keep | apply Keep.foldl | intro _ | fail_if_no_progress (refine Keep.mk' ?_ rfl) | (extract_lets -underBinder +onlyGivenNames x; (refine (fun (hx : Keep s0 x) => ?_) ?_); (on_goal 1 => try clear_value x); (on_goal 2 => (unfold x; clear x))) | (extract_lets -underBinder +onlyGivenNames x; try clear_value x) | split)

theorem State.takeHead_keep {s0 s : State} (h : Keep s0 s) (p q n : Nat) : Keep s0 (State.takeHead s p q n).1 := by
  unfold State.takeHead
  repeat' (with_reducible first | assumption | exact Keep.refl _ | apply State.satInc_keep | apply State.raise_keep | apply State.addHead_keep | split)

theorem State.admitFrame_keep {s0 s : State} (h : Keep s0 s) (p q n : Nat) : Keep s0 (State.admitFrame s p q n).1 := by
  unfold State.admitFrame
  repeat' (with_reducible first | assumption | exact Keep.refl _ | apply State.satInc_keep | apply State.addCells_keep | apply State.sendXoff_keep | apply State.takeHead_keep | (extract_lets -underBinder +onlyGivenNames x; (refine (fun (hx : Keep s0 x) => ?_) ?_); (on_goal 1 => try clear_value x); (on_goal 2 => (unfold x; clear x))) | (extract_lets -underBinder +onlyGivenNames x; (refine (fun (hx : Keep s0 x.1) => ?_) ?_); (on_goal 1 => try clear_value x); (on_goal 2 => (unfold x; clear x))) | (extract_lets -underBinder +onlyGivenNames x; try clear_value x) | split)

end Sys2Proof.Machine
end

