-- ==== Sys2Proof/Laws/KeepKeyOps.lean ====
section
/-! SUPPORT. What the operations of Machine/KeyOps.lean keep (Keep). -/

set_option linter.unreachableTactic false
set_option linter.unusedTactic false
set_option linter.unusedVariables false

namespace Sys2Proof.Machine

theorem State.setKey_keep {s0 s : State} (h : Keep s0 s) (k : Nat) (e : Key) : Keep s0 (State.setKey s k e) := by
  unfold State.setKey
  repeat' (with_reducible first | assumption | exact Keep.refl _ | fail_if_no_progress (refine Keep.mk' ?_ rfl) | (extract_lets -underBinder +onlyGivenNames x; (refine (fun (hx : Keep s0 x) => ?_) ?_); (on_goal 1 => try clear_value x); (on_goal 2 => (unfold x; clear x))) | (extract_lets -underBinder +onlyGivenNames x; try clear_value x))

theorem State.keyFail_keep {s0 s : State} (h : Keep s0 s) (cause key qpn : Nat) : Keep s0 (State.keyFail s cause key qpn) := by
  unfold State.keyFail
  repeat' (with_reducible first | assumption | exact Keep.refl _ | apply State.wr_keep | apply State.satInc_keep | apply State.raiseArg_keep | fail_if_no_progress (refine Keep.mk' ?_ rfl) | (extract_lets -underBinder +onlyGivenNames x; (refine (fun (hx : Keep s0 x) => ?_) ?_); (on_goal 1 => try clear_value x); (on_goal 2 => (unfold x; clear x))) | (extract_lets -underBinder +onlyGivenNames x; try clear_value x) | split)

theorem State.takeHold_keep {s0 s : State} (h : Keep s0 s) (qpn key : Nat) : Keep s0 (State.takeHold s qpn key).1 := by
  unfold State.takeHold
  repeat' (with_reducible first | assumption | exact Keep.refl _ | fail_if_no_progress (refine Keep.mk' ?_ rfl) | (extract_lets -underBinder +onlyGivenNames x; (refine (fun (hx : Keep s0 x) => ?_) ?_); (on_goal 1 => try clear_value x); (on_goal 2 => (unfold x; clear x))) | (extract_lets -underBinder +onlyGivenNames x; (refine (fun (hx : Keep s0 x.1) => ?_) ?_); (on_goal 1 => try clear_value x); (on_goal 2 => (unfold x; clear x))) | (extract_lets -underBinder +onlyGivenNames x; try clear_value x))

theorem State.drainUpdate_keep {s0 s : State} (h : Keep s0 s)  : Keep s0 (State.drainUpdate s) := by
  unfold State.drainUpdate
  repeat' (with_reducible first | assumption | exact Keep.refl _ | apply State.wr_keep | fail_if_no_progress (refine Keep.mk' ?_ rfl) | (extract_lets -underBinder +onlyGivenNames x; (refine (fun (hx : Keep s0 x) => ?_) ?_); (on_goal 1 => try clear_value x); (on_goal 2 => (unfold x; clear x))) | exact KeepO.get (by assumption) rfl | exact KeepO.none | apply KeepO.some | (apply KeepO.map; intro _) | (extract_lets -underBinder +onlyGivenNames x; (refine (fun (hx : KeepO s0 x) => ?_) ?_); (on_goal 1 => try clear_value x); (on_goal 2 => (unfold x; clear x))) | (extract_lets -underBinder +onlyGivenNames x; try clear_value x) | split)

theorem State.keyReady_keep {s0 s : State} (h : Keep s0 s) (i : Nat) : Keep s0 (State.keyReady s i).2 := by
  unfold State.keyReady
  repeat' (with_reducible first | assumption | exact Keep.refl _ | fail_if_no_progress (refine Keep.mk' ?_ rfl) | (extract_lets -underBinder +onlyGivenNames x; (refine (fun (hx : Keep s0 x) => ?_) ?_); (on_goal 1 => try clear_value x); (on_goal 2 => (unfold x; clear x))) | (extract_lets -underBinder +onlyGivenNames x; (refine (fun (hx : Keep s0 x.2) => ?_) ?_); (on_goal 1 => try clear_value x); (on_goal 2 => (unfold x; clear x))) | (extract_lets -underBinder +onlyGivenNames x; try clear_value x) | split)

theorem State.keysReady_keep {s0 s : State} (h : Keep s0 s) (ks : List Nat) : Keep s0 (State.keysReady s ks).2 := by
  unfold State.keysReady
  repeat' (with_reducible first | assumption | exact Keep.refl _ | apply State.keyReady_keep | apply Keep.foldl | apply Keep.foldl_fst | apply Keep.foldl_snd | intro _ | refine Keep.of_snd (by assumption) ?_ | (extract_lets -underBinder +onlyGivenNames x; (refine (fun (hx : Keep s0 x) => ?_) ?_); (on_goal 1 => try clear_value x); (on_goal 2 => (unfold x; clear x))) | (extract_lets -underBinder +onlyGivenNames x; (refine (fun (hx : Keep s0 x.2) => ?_) ?_); (on_goal 1 => try clear_value x); (on_goal 2 => (unfold x; clear x))) | (extract_lets -underBinder +onlyGivenNames x; try clear_value x) | split)

theorem State.reserveAt_keep {s0 s : State} (h : Keep s0 s) (t pool need : Nat) : Keep s0 (State.reserveAt s t pool need) := by
  unfold State.reserveAt
  repeat' (with_reducible first | assumption | exact Keep.refl _ | apply State.wr_keep | apply State.setTenant_keep | apply State.addWused_keep | fail_if_no_progress (refine Keep.mk' ?_ rfl) | (extract_lets -underBinder +onlyGivenNames x; (refine (fun (hx : Keep s0 x) => ?_) ?_); (on_goal 1 => try clear_value x); (on_goal 2 => (unfold x; clear x))) | (extract_lets -underBinder +onlyGivenNames x; try clear_value x) | split)

theorem State.unreserveAt_keep {s0 s : State} (h : Keep s0 s) (t pool n : Nat) : Keep s0 (State.unreserveAt s t pool n) := by
  unfold State.unreserveAt
  repeat' (with_reducible first | assumption | exact Keep.refl _ | apply State.wr_keep | apply State.setTenant_keep | apply State.unreserve_keep | fail_if_no_progress (refine Keep.mk' ?_ rfl) | (extract_lets -underBinder +onlyGivenNames x; (refine (fun (hx : Keep s0 x) => ?_) ?_); (on_goal 1 => try clear_value x); (on_goal 2 => (unfold x; clear x))) | (extract_lets -underBinder +onlyGivenNames x; try clear_value x) | split)

theorem State.reserve_keep {s0 s : State} (h : Keep s0 s) (t pool need : Nat) : Keep s0 (State.reserve s t pool need) := by
  unfold State.reserve
  repeat' (with_reducible first | assumption | exact Keep.refl _ | apply State.reserveAt_keep | apply Keep.foldl | intro _)

theorem State.unreserveRange_keep {s0 s : State} (h : Keep s0 s) (t pool n : Nat) : Keep s0 (State.unreserveRange s t pool n) := by
  unfold State.unreserveRange
  repeat' (with_reducible first | assumption | exact Keep.refl _ | apply State.unreserveAt_keep | apply Keep.foldl | intro _)

theorem State.rdxCount_keep {s0 s : State} (h : Keep s0 s) (k : Nat) (n : Nat) : Keep s0 (State.rdxCount s k n) := by
  unfold State.rdxCount
  repeat' (with_reducible first | assumption | exact Keep.refl _ | apply State.inc_keep)

theorem State.rnrCount_keep {s0 s : State} (h : Keep s0 s) (r : Rnr) : Keep s0 (State.rnrCount s r) := by
  unfold State.rnrCount
  repeat' (with_reducible first | assumption | exact Keep.refl _ | apply State.raiseIf_keep | apply State.rdxCount_keep | fail_if_no_progress (refine Keep.mk' ?_ rfl) | (extract_lets -underBinder +onlyGivenNames x; (refine (fun (hx : Keep s0 x) => ?_) ?_); (on_goal 1 => try clear_value x); (on_goal 2 => (unfold x; clear x))) | (extract_lets -underBinder +onlyGivenNames x; have hd : x.dram = x.dram := rfl) | (extract_lets -underBinder +onlyGivenNames x; have hf := fun z => x z) | (extract_lets -underBinder +onlyGivenNames x; try clear_value x) | split)

end Sys2Proof.Machine
end

