-- ==== Sys2Proof/Laws/KeepQpOps.lean ====
section
/-! SUPPORT. What the operations of Machine/QpOps.lean keep (Keep). -/

set_option linter.unreachableTactic false
set_option linter.unusedTactic false
set_option linter.unusedVariables false

namespace Sys2Proof.Machine

theorem State.setQp_keep {s0 s : State} (h : Keep s0 s) (n : Nat) (q : Qp) : Keep s0 (State.setQp s n q) := by
  unfold State.setQp
  repeat' (with_reducible first | assumption | exact Keep.refl _ | fail_if_no_progress (refine Keep.mk' ?_ rfl) | (extract_lets -underBinder +onlyGivenNames x; (refine (fun (hx : Keep s0 x) => ?_) ?_); (on_goal 1 => try clear_value x); (on_goal 2 => (unfold x; clear x))) | (extract_lets -underBinder +onlyGivenNames x; try clear_value x))

theorem State.modQp_keep {s0 s : State} (h : Keep s0 s) (n : Nat) (f : Qp → Qp) : Keep s0 (State.modQp s n f) := by
  unfold State.modQp
  repeat' (with_reducible first | assumption | exact Keep.refl _ | apply State.setQp_keep)

theorem State.setQf_keep {s0 s : State} (h : Keep s0 s) (n w hi lo v : Nat) : Keep s0 (State.setQf s n w hi lo v) := by
  unfold State.setQf
  repeat' (with_reducible first | assumption | exact Keep.refl _ | apply State.modQp_keep | fail_if_no_progress (refine Keep.mk' ?_ rfl) | (extract_lets -underBinder +onlyGivenNames x; (refine (fun (hx : Keep s0 x) => ?_) ?_); (on_goal 1 => try clear_value x); (on_goal 2 => (unfold x; clear x))) | (extract_lets -underBinder +onlyGivenNames x; try clear_value x))

theorem State.stageQp_keep {s0 s : State} (h : Keep s0 s) (n : Nat) : Keep s0 (State.stageQp s n) := by
  unfold State.stageQp
  repeat' (with_reducible first | assumption | exact Keep.refl _ | apply State.stage_keep | apply State.placed_keep | (extract_lets -underBinder +onlyGivenNames x; (refine (fun (hx : Keep s0 x) => ?_) ?_); (on_goal 1 => try clear_value x); (on_goal 2 => (unfold x; clear x))) | exact KeepO.get (by assumption) rfl | exact KeepO.none | apply KeepO.some | (apply KeepO.map; intro _) | (extract_lets -underBinder +onlyGivenNames x; (refine (fun (hx : KeepO s0 x) => ?_) ?_); (on_goal 1 => try clear_value x); (on_goal 2 => (unfold x; clear x))) | (extract_lets -underBinder +onlyGivenNames x; try clear_value x) | split)

theorem State.disarmFor_keep {s0 s : State} (h : Keep s0 s) (n : Nat) : Keep s0 (State.disarmFor s n) := by
  unfold State.disarmFor
  repeat' (with_reducible first | assumption | exact Keep.refl _ | apply State.raiseIf_keep | apply State.stage_keep | apply State.hit_keep | apply Keep.foldl | apply Keep.foldl_fst | apply Keep.foldl_snd | intro _ | fail_if_no_progress (refine Keep.mk' ?_ rfl) | (extract_lets -underBinder +onlyGivenNames x; (refine (fun (hx : Keep s0 x) => ?_) ?_); (on_goal 1 => try clear_value x); (on_goal 2 => (unfold x; clear x))) | exact KeepO.get (by assumption) rfl | exact KeepO.none | apply KeepO.some | (apply KeepO.map; intro _) | (extract_lets -underBinder +onlyGivenNames x; (refine (fun (hx : KeepO s0 x) => ?_) ?_); (on_goal 1 => try clear_value x); (on_goal 2 => (unfold x; clear x))) | (extract_lets -underBinder +onlyGivenNames x; have hf := fun z => x z) | (extract_lets -underBinder +onlyGivenNames x; try clear_value x))

theorem State.dropSends_keep {s0 s : State} (h : Keep s0 s) (n : Nat) : Keep s0 (State.dropSends s n) := by
  unfold State.dropSends
  repeat' (with_reducible first | assumption | exact Keep.refl _ | apply State.modPort_keep | apply State.freeTx_keep | apply State.afterFree_keep | apply State.modQp_keep | apply Keep.foldl | apply Keep.foldl_fst | apply Keep.foldl_snd | intro _ | fail_if_no_progress (refine Keep.mk' ?_ rfl) | (extract_lets -underBinder +onlyGivenNames x; (refine (fun (hx : Keep s0 x) => ?_) ?_); (on_goal 1 => try clear_value x); (on_goal 2 => (unfold x; clear x))) | (extract_lets -underBinder +onlyGivenNames x; have hf := fun z => x z) | (extract_lets -underBinder +onlyGivenNames x; try clear_value x) | split)

theorem State.dropMsg_keep {s0 s : State} (h : Keep s0 s) (n : Nat) : Keep s0 (State.dropMsg s n) := by
  unfold State.dropMsg
  repeat' (with_reducible first | assumption | exact Keep.refl _ | apply State.dropHold_keep | apply State.reserve_keep | apply State.unreserveRange_keep | apply State.modQp_keep | fail_if_no_progress (refine Keep.mk' ?_ rfl) | (extract_lets -underBinder +onlyGivenNames x; (refine (fun (hx : Keep s0 x) => ?_) ?_); (on_goal 1 => try clear_value x); (on_goal 2 => (unfold x; clear x))) | (extract_lets -underBinder +onlyGivenNames x; try clear_value x) | split)

theorem State.qpError_keep {s0 s : State} (h : Keep s0 s) (n cause : Nat) : Keep s0 (State.qpError s n cause) := by
  unfold State.qpError
  repeat' (with_reducible first | assumption | exact Keep.refl _ | apply State.raiseIf_keep | apply State.smpDrop_keep | apply State.modQp_keep | apply State.setQf_keep | apply State.stageQp_keep | apply State.disarmFor_keep | apply State.dropSends_keep | apply State.dropMsg_keep | fail_if_no_progress (refine Keep.mk' ?_ rfl) | (extract_lets -underBinder +onlyGivenNames x; (refine (fun (hx : Keep s0 x) => ?_) ?_); (on_goal 1 => try clear_value x); (on_goal 2 => (unfold x; clear x))) | (extract_lets -underBinder +onlyGivenNames x; try clear_value x) | split)

theorem State.freeOpCells_keep {s0 s : State} (h : Keep s0 s) (o : Op) : Keep s0 (State.freeOpCells s o) := by
  unfold State.freeOpCells
  repeat' (with_reducible first | assumption | exact Keep.refl _ | apply State.freeRx_keep | apply State.afterFree_keep | split)

theorem State.dropOpHold_keep {s0 s : State} (h : Keep s0 s) (o : Op) (n : Nat) : Keep s0 (State.dropOpHold s o n) := by
  unfold State.dropOpHold
  repeat' (with_reducible first | assumption | exact Keep.refl _ | apply State.dropHold_keep | (extract_lets -underBinder +onlyGivenNames x; (refine (fun (hx : Keep s0 x) => ?_) ?_); (on_goal 1 => try clear_value x); (on_goal 2 => (unfold x; clear x))) | (extract_lets -underBinder +onlyGivenNames x; try clear_value x) | split)

theorem State.removeOps_keep {s0 s : State} (h : Keep s0 s) (ids : List Nat) : Keep s0 (State.removeOps s ids) := by
  unfold State.removeOps
  repeat' (with_reducible first | assumption | exact Keep.refl _ | apply State.subLink_keep | fail_if_no_progress (refine Keep.mk' ?_ rfl) | (extract_lets -underBinder +onlyGivenNames x; (refine (fun (hx : Keep s0 x) => ?_) ?_); (on_goal 1 => try clear_value x); (on_goal 2 => (unfold x; clear x))) | exact KeepO.get (by assumption) rfl | exact KeepO.none | apply KeepO.some | (apply KeepO.map; intro _) | (extract_lets -underBinder +onlyGivenNames x; (refine (fun (hx : KeepO s0 x) => ?_) ?_); (on_goal 1 => try clear_value x); (on_goal 2 => (unfold x; clear x))) | (extract_lets -underBinder +onlyGivenNames x; try clear_value x))

theorem State.unreserveOp_keep {s0 s : State} (h : Keep s0 s) (o : Op) : Keep s0 (State.unreserveOp s o) := by
  unfold State.unreserveOp
  repeat' (with_reducible first | assumption | exact Keep.refl _ | apply State.wr_keep | apply State.setTenant_keep | apply State.unreserve_keep | fail_if_no_progress (refine Keep.mk' ?_ rfl) | (extract_lets -underBinder +onlyGivenNames x; (refine (fun (hx : Keep s0 x) => ?_) ?_); (on_goal 1 => try clear_value x); (on_goal 2 => (unfold x; clear x))) | (extract_lets -underBinder +onlyGivenNames x; try clear_value x) | split)

theorem State.dropOps_keep {s0 s : State} (h : Keep s0 s) (f : Op → Bool) : Keep s0 (State.dropOps s f) := by
  unfold State.dropOps
  repeat' (with_reducible first | assumption | exact Keep.refl _ | apply State.freeOpCells_keep | apply State.dropOpHold_keep | apply State.removeOps_keep | apply State.unreserveOp_keep | apply Keep.foldl | apply Keep.foldl_fst | apply Keep.foldl_snd | intro _ | fail_if_no_progress (refine Keep.mk' ?_ rfl) | (extract_lets -underBinder +onlyGivenNames x; (refine (fun (hx : Keep s0 x) => ?_) ?_); (on_goal 1 => try clear_value x); (on_goal 2 => (unfold x; clear x))) | exact KeepO.get (by assumption) rfl | exact KeepO.none | apply KeepO.some | (apply KeepO.map; intro _) | (extract_lets -underBinder +onlyGivenNames x; (refine (fun (hx : KeepO s0 x) => ?_) ?_); (on_goal 1 => try clear_value x); (on_goal 2 => (unfold x; clear x))) | (extract_lets -underBinder +onlyGivenNames x; have hf := fun z => x z) | (extract_lets -underBinder +onlyGivenNames x; try clear_value x) | split)

theorem State.recountQps_keep {s0 s : State} (h : Keep s0 s)  : Keep s0 (State.recountQps s) := by
  unfold State.recountQps
  repeat' (with_reducible first | assumption | exact Keep.refl _ | apply State.setTenant_keep | apply Keep.foldl | intro _ | fail_if_no_progress (refine Keep.mk' ?_ rfl) | (extract_lets -underBinder +onlyGivenNames x; (refine (fun (hx : Keep s0 x) => ?_) ?_); (on_goal 1 => try clear_value x); (on_goal 2 => (unfold x; clear x))) | exact KeepO.get (by assumption) rfl | exact KeepO.none | apply KeepO.some | (apply KeepO.map; intro _) | (extract_lets -underBinder +onlyGivenNames x; (refine (fun (hx : KeepO s0 x) => ?_) ?_); (on_goal 1 => try clear_value x); (on_goal 2 => (unfold x; clear x))) | (extract_lets -underBinder +onlyGivenNames x; try clear_value x) | split)

theorem State.ctxUse_keep {s0 s : State} (h : Keep s0 s) (n : Nat) : Keep s0 (State.ctxUse s n).2 := by
  unfold State.ctxUse
  repeat' (with_reducible first | assumption | exact Keep.refl _ | fail_if_no_progress (refine Keep.mk' ?_ rfl) | (extract_lets -underBinder +onlyGivenNames x; (refine (fun (hx : Keep s0 x) => ?_) ?_); (on_goal 1 => try clear_value x); (on_goal 2 => (unfold x; clear x))) | (extract_lets -underBinder +onlyGivenNames x; (refine (fun (hx : Keep s0 x.2) => ?_) ?_); (on_goal 1 => try clear_value x); (on_goal 2 => (unfold x; clear x))) | (extract_lets -underBinder +onlyGivenNames x; try clear_value x) | split)

theorem State.ctxHold_keep {s0 s : State} (h : Keep s0 s) (n : Nat) (on : Bool) : Keep s0 (State.ctxHold s n on) := by
  unfold State.ctxHold
  repeat' (with_reducible first | assumption | exact Keep.refl _ | fail_if_no_progress (refine Keep.mk' ?_ rfl) | (extract_lets -underBinder +onlyGivenNames x; (refine (fun (hx : Keep s0 x) => ?_) ?_); (on_goal 1 => try clear_value x); (on_goal 2 => (unfold x; clear x))) | (extract_lets -underBinder +onlyGivenNames x; try clear_value x) | split)

theorem State.qpForget_keep {s0 s : State} (h : Keep s0 s) (n : Nat) : Keep s0 (State.qpForget s n) := by
  unfold State.qpForget
  repeat' (with_reducible first | assumption | exact Keep.refl _ | fail_if_no_progress (refine Keep.mk' ?_ rfl) | (extract_lets -underBinder +onlyGivenNames x; (refine (fun (hx : Keep s0 x) => ?_) ?_); (on_goal 1 => try clear_value x); (on_goal 2 => (unfold x; clear x))) | (extract_lets -underBinder +onlyGivenNames x; try clear_value x))

theorem State.sourceLeft_keep {s0 s : State} (h : Keep s0 s) (src : Option IpAddr) : Keep s0 (State.sourceLeft s src) := by
  unfold State.sourceLeft
  repeat' (with_reducible first | assumption | exact Keep.refl _ | fail_if_no_progress (refine Keep.mk' ?_ rfl) | (extract_lets -underBinder +onlyGivenNames x; (refine (fun (hx : Keep s0 x) => ?_) ?_); (on_goal 1 => try clear_value x); (on_goal 2 => (unfold x; clear x))) | (extract_lets -underBinder +onlyGivenNames x; try clear_value x) | split)

theorem State.qpReset_keep {s0 s : State} (h : Keep s0 s) (n : Nat) : Keep s0 (State.qpReset s n) := by
  unfold State.qpReset
  repeat' (with_reducible first | assumption | exact Keep.refl _ | apply State.setTenant_keep | apply State.setQp_keep | apply State.stageQp_keep | apply State.dropSends_keep | apply State.dropMsg_keep | apply State.dropOps_keep | apply State.ctxHold_keep | apply State.qpForget_keep | apply State.sourceLeft_keep | fail_if_no_progress (refine Keep.mk' ?_ rfl) | (extract_lets -underBinder +onlyGivenNames x; (refine (fun (hx : Keep s0 x) => ?_) ?_); (on_goal 1 => try clear_value x); (on_goal 2 => (unfold x; clear x))) | (extract_lets -underBinder +onlyGivenNames x; try clear_value x) | split)

theorem State.sendDreq_keep {s0 s : State} (h : Keep s0 s) (n : Nat) : Keep s0 (State.sendDreq s n) := by
  unfold State.sendDreq
  repeat' (with_reducible first | assumption | exact Keep.refl _ | apply State.queueTx_keep)

theorem State.allToError_keep {s0 s : State} (h : Keep s0 s) (qpns : List Nat) (cause : Nat) : Keep s0 (State.allToError s qpns cause) := by
  unfold State.allToError
  repeat' (with_reducible first | assumption | exact Keep.refl _ | apply State.queueTx_keep | apply State.qpError_keep | apply State.qpReset_keep | apply State.sendDreq_keep | apply Keep.foldl | intro _ | fail_if_no_progress (refine Keep.mk' ?_ rfl) | (extract_lets -underBinder +onlyGivenNames x; (refine (fun (hx : Keep s0 x) => ?_) ?_); (on_goal 1 => try clear_value x); (on_goal 2 => (unfold x; clear x))) | (extract_lets -underBinder +onlyGivenNames x; try clear_value x) | split)

theorem State.bumpMsn_keep {s0 s : State} (h : Keep s0 s) (n : Nat) (yes : Bool) : Keep s0 (State.bumpMsn s n yes) := by
  unfold State.bumpMsn
  repeat' (with_reducible first | assumption | exact Keep.refl _ | apply State.setQf_keep | split)

theorem State.ackPsn_keep {s0 s : State} (h : Keep s0 s) (n psn : Nat) : Keep s0 (State.ackPsn s n psn) := by
  unfold State.ackPsn
  repeat' (with_reducible first | assumption | exact Keep.refl _ | apply State.setQf_keep | split)

theorem State.answerGroup_keep {s0 s : State} (h : Keep s0 s) (n : Nat) (g : List Op) (pendAck : Option Op) : Keep s0 (State.answerGroup s n g pendAck).1 := by
  unfold State.answerGroup
  repeat' (with_reducible first | assumption | exact Keep.refl _ | apply State.modOp_keep | apply State.dropHold_keep | apply State.queueChain_keep | apply State.queueTx_keep | apply State.rdxCount_keep | apply State.modQp_keep | apply State.setQf_keep | apply State.qpError_keep | apply State.bumpMsn_keep | apply State.ackPsn_keep | apply Keep.foldl | apply Keep.foldl_fst | apply Keep.foldl_snd | intro _ | fail_if_no_progress (refine Keep.mk' ?_ rfl) | (extract_lets -underBinder +onlyGivenNames x; (refine (fun (hx : Keep s0 x) => ?_) ?_); (on_goal 1 => try clear_value x); (on_goal 2 => (unfold x; clear x))) | exact KeepO.get (by assumption) rfl | exact KeepO.none | apply KeepO.some | (apply KeepO.map; intro _) | (extract_lets -underBinder +onlyGivenNames x; (refine (fun (hx : KeepO s0 x) => ?_) ?_); (on_goal 1 => try clear_value x); (on_goal 2 => (unfold x; clear x))) | (extract_lets -underBinder +onlyGivenNames x; (refine (fun (hx : Keep s0 x.1) => ?_) ?_); (on_goal 1 => try clear_value x); (on_goal 2 => (unfold x; clear x))) | (extract_lets -underBinder +onlyGivenNames x; have hf := fun z => x z) | (extract_lets -underBinder +onlyGivenNames x; try clear_value x) | split)

theorem releaseLoop_keep0 {s0 : State}  : ∀ (a1 : State) (a2 : Nat) (a3 : Option Op), Keep s0 a1 → Keep s0 (releaseLoop 0 a1 a2 a3) := by
  intro a1 a2 a3 h
  first | rw [releaseLoop] | unfold releaseLoop
  repeat' (with_reducible first | assumption | exact Keep.refl _ | apply State.smpEnd_keep | apply State.queueTx_keep | apply State.rdxCount_keep | apply State.stageQp_keep | apply State.freeOpCells_keep | apply State.dropOpHold_keep | apply State.removeOps_keep | apply State.answerGroup_keep | apply Keep.foldl | apply Keep.foldl_fst | apply Keep.foldl_snd | intro _ | fail_if_no_progress (refine Keep.mk' ?_ rfl) | refine Keep.of_fst (by assumption) ?_ | (extract_lets -underBinder +onlyGivenNames x; (refine (fun (hx : Keep s0 x) => ?_) ?_); (on_goal 1 => try clear_value x); (on_goal 2 => (unfold x; clear x))) | exact KeepO.get (by assumption) rfl | exact KeepO.none | apply KeepO.some | (apply KeepO.map; intro _) | (extract_lets -underBinder +onlyGivenNames x; (refine (fun (hx : KeepO s0 x) => ?_) ?_); (on_goal 1 => try clear_value x); (on_goal 2 => (unfold x; clear x))) | (extract_lets -underBinder +onlyGivenNames x; (refine (fun (hx : Keep s0 x.1) => ?_) ?_); (on_goal 1 => try clear_value x); (on_goal 2 => (unfold x; clear x))) | (extract_lets -underBinder +onlyGivenNames x; try clear_value x) | split)

theorem releaseLoop_keep {s0 : State}  : ∀ (a0 : Nat) (a1 : State) (a2 : Nat) (a3 : Option Op), Keep s0 a1 → Keep s0 (releaseLoop a0 a1 a2 a3) := by
  intro  a0
  induction a0 with
  | zero =>
    intro a1 a2 a3 h
    first | rw [releaseLoop] | unfold releaseLoop
    repeat' (with_reducible first | assumption | apply releaseLoop_keep0 | exact Keep.refl _ | apply State.smpEnd_keep | apply State.queueTx_keep | apply State.rdxCount_keep | apply State.stageQp_keep | apply State.freeOpCells_keep | apply State.dropOpHold_keep | apply State.removeOps_keep | apply State.answerGroup_keep | apply Keep.foldl | apply Keep.foldl_fst | apply Keep.foldl_snd | intro _ | fail_if_no_progress (refine Keep.mk' ?_ rfl) | refine Keep.of_fst (by assumption) ?_ | (extract_lets -underBinder +onlyGivenNames x; (refine (fun (hx : Keep s0 x) => ?_) ?_); (on_goal 1 => try clear_value x); (on_goal 2 => (unfold x; clear x))) | exact KeepO.get (by assumption) rfl | exact KeepO.none | apply KeepO.some | (apply KeepO.map; intro _) | (extract_lets -underBinder +onlyGivenNames x; (refine (fun (hx : KeepO s0 x) => ?_) ?_); (on_goal 1 => try clear_value x); (on_goal 2 => (unfold x; clear x))) | (extract_lets -underBinder +onlyGivenNames x; (refine (fun (hx : Keep s0 x.1) => ?_) ?_); (on_goal 1 => try clear_value x); (on_goal 2 => (unfold x; clear x))) | (extract_lets -underBinder +onlyGivenNames x; try clear_value x) | split)
  | succ n ih =>
    intro a1 a2 a3 h
    first | rw [releaseLoop] | unfold releaseLoop
    repeat' (with_reducible first | assumption | apply releaseLoop_keep0 | apply ih | exact Keep.refl _ | apply State.smpEnd_keep | apply State.queueTx_keep | apply State.rdxCount_keep | apply State.stageQp_keep | apply State.freeOpCells_keep | apply State.dropOpHold_keep | apply State.removeOps_keep | apply State.answerGroup_keep | apply Keep.foldl | apply Keep.foldl_fst | apply Keep.foldl_snd | intro _ | fail_if_no_progress (refine Keep.mk' ?_ rfl) | refine Keep.of_fst (by assumption) ?_ | (extract_lets -underBinder +onlyGivenNames x; (refine (fun (hx : Keep s0 x) => ?_) ?_); (on_goal 1 => try clear_value x); (on_goal 2 => (unfold x; clear x))) | exact KeepO.get (by assumption) rfl | exact KeepO.none | apply KeepO.some | (apply KeepO.map; intro _) | (extract_lets -underBinder +onlyGivenNames x; (refine (fun (hx : KeepO s0 x) => ?_) ?_); (on_goal 1 => try clear_value x); (on_goal 2 => (unfold x; clear x))) | (extract_lets -underBinder +onlyGivenNames x; (refine (fun (hx : Keep s0 x.1) => ?_) ?_); (on_goal 1 => try clear_value x); (on_goal 2 => (unfold x; clear x))) | (extract_lets -underBinder +onlyGivenNames x; try clear_value x) | split)

theorem State.release_keep {s0 s : State} (h : Keep s0 s) (n : Nat) : Keep s0 (State.release s n) := by
  unfold State.release
  repeat' (with_reducible first | assumption | exact Keep.refl _ | apply releaseLoop_keep | split)

end Sys2Proof.Machine
end

