-- ==== Sys2Proof/Laws/KeepAddrOps.lean ====
section
/-! SUPPORT. What the operations of Machine/AddrOps.lean keep (Keep). -/

set_option linter.unreachableTactic false
set_option linter.unusedTactic false
set_option linter.unusedVariables false

namespace Sys2Proof.Machine

theorem State.setAddr_keep {s0 s : State} (h : Keep s0 s) (p e : Nat) (v : AddrEntry) : Keep s0 (State.setAddr s p e v) := by
  unfold State.setAddr
  repeat' (with_reducible first | assumption | exact Keep.refl _ | fail_if_no_progress (refine Keep.mk' ?_ rfl) | (extract_lets -underBinder +onlyGivenNames x; (refine (fun (hx : Keep s0 x) => ?_) ?_); (on_goal 1 => try clear_value x); (on_goal 2 => (unfold x; clear x))) | (extract_lets -underBinder +onlyGivenNames x; try clear_value x))

theorem State.sendAnnounce_keep {s0 s : State} (h : Keep s0 s) (p : Nat) (a : AddrEntry) : Keep s0 (State.sendAnnounce s p a) := by
  unfold State.sendAnnounce
  repeat' (with_reducible first | assumption | exact Keep.refl _ | apply State.hptCount_keep | apply State.queueTx_keep | fail_if_no_progress (refine Keep.mk' ?_ rfl) | (extract_lets -underBinder +onlyGivenNames x; (refine (fun (hx : Keep s0 x) => ?_) ?_); (on_goal 1 => try clear_value x); (on_goal 2 => (unfold x; clear x))) | (extract_lets -underBinder +onlyGivenNames x; try clear_value x) | split)

theorem State.announceAddr_keep {s0 s : State} (h : Keep s0 s) (p : Nat) (a : AddrEntry) : Keep s0 (State.announceAddr s p a) := by
  unfold State.announceAddr
  repeat' (with_reducible first | assumption | exact Keep.refl _ | apply State.modPort_keep | apply State.sendAnnounce_keep | fail_if_no_progress (refine Keep.mk' ?_ rfl) | (extract_lets -underBinder +onlyGivenNames x; (refine (fun (hx : Keep s0 x) => ?_) ?_); (on_goal 1 => try clear_value x); (on_goal 2 => (unfold x; clear x))) | (extract_lets -underBinder +onlyGivenNames x; try clear_value x) | split)

theorem State.announceAll_keep {s0 s : State} (h : Keep s0 s) (p : Nat) : Keep s0 (State.announceAll s p) := by
  unfold State.announceAll
  repeat' (with_reducible first | assumption | exact Keep.refl _ | apply State.announceAddr_keep | apply Keep.foldl | intro _)

theorem State.placeHosted_keep {s0 s : State} (h : Keep s0 s) (said : Nat → Bool) : Keep s0 (State.placeHosted s said) := by
  unfold State.placeHosted
  repeat' (with_reducible first | assumption | exact Keep.refl _ | apply State.raise_keep | apply State.raiseIf_keep | apply State.setAddr_keep | apply State.announceAddr_keep | apply Keep.foldl | apply Keep.foldl_fst | apply Keep.foldl_snd | intro _ | fail_if_no_progress (refine Keep.mk' ?_ rfl) | (extract_lets -underBinder +onlyGivenNames x; (refine (fun (hx : Keep s0 x) => ?_) ?_); (on_goal 1 => try clear_value x); (on_goal 2 => (unfold x; clear x))) | (extract_lets -underBinder +onlyGivenNames x; try clear_value x) | split)

theorem State.moveHosted_keep {s0 s : State} (h : Keep s0 s) (d : Nat) : Keep s0 (State.moveHosted s d) := by
  unfold State.moveHosted
  repeat' (with_reducible first | assumption | exact Keep.refl _ | apply State.raiseIf_keep | apply State.placeHosted_keep | fail_if_no_progress (refine Keep.mk' ?_ rfl) | (extract_lets -underBinder +onlyGivenNames x; (refine (fun (hx : Keep s0 x) => ?_) ?_); (on_goal 1 => try clear_value x); (on_goal 2 => (unfold x; clear x))) | exact KeepO.get (by assumption) rfl | exact KeepO.none | apply KeepO.some | (apply KeepO.map; intro _) | (extract_lets -underBinder +onlyGivenNames x; (refine (fun (hx : KeepO s0 x) => ?_) ?_); (on_goal 1 => try clear_value x); (on_goal 2 => (unfold x; clear x))) | (extract_lets -underBinder +onlyGivenNames x; try clear_value x) | split)

theorem State.returnAddrs_keep {s0 s : State} (h : Keep s0 s)  : Keep s0 (State.returnAddrs s) := by
  unfold State.returnAddrs
  repeat' (with_reducible first | assumption | exact Keep.refl _ | apply State.raise_keep | apply Keep.foldl | apply Keep.foldl_fst | apply Keep.foldl_snd | intro _ | fail_if_no_progress (refine Keep.mk' ?_ rfl) | (extract_lets -underBinder +onlyGivenNames x; (refine (fun (hx : Keep s0 x) => ?_) ?_); (on_goal 1 => try clear_value x); (on_goal 2 => (unfold x; clear x))) | exact KeepO.get (by assumption) rfl | exact KeepO.none | apply KeepO.some | (apply KeepO.map; intro _) | (extract_lets -underBinder +onlyGivenNames x; (refine (fun (hx : KeepO s0 x) => ?_) ?_); (on_goal 1 => try clear_value x); (on_goal 2 => (unfold x; clear x))) | (extract_lets -underBinder +onlyGivenNames x; try clear_value x) | split)

end Sys2Proof.Machine
end

