-- ==== Sys2Proof/Laws/KeepIssue.lean ====
section
/-! SUPPORT. What the operations of Machine/Issue.lean keep (Keep). -/

set_option linter.unreachableTactic false
set_option linter.unusedTactic false
set_option linter.unusedVariables false

namespace Sys2Proof.Machine

theorem State.addOp_keep {s0 s : State} (h : Keep s0 s) (o : Op) : Keep s0 (State.addOp s o) := by
  unfold State.addOp
  repeat' (with_reducible first | assumption | exact Keep.refl _ | fail_if_no_progress (refine Keep.mk' ?_ rfl) | (extract_lets -underBinder +onlyGivenNames x; (refine (fun (hx : Keep s0 x) => ?_) ?_); (on_goal 1 => try clear_value x); (on_goal 2 => (unfold x; clear x))) | (extract_lets -underBinder +onlyGivenNames x; try clear_value x))

theorem State.startAccs_keep {s0 s : State} (h : Keep s0 s) (o : Op) : Keep s0 (State.startAccs s o) := by
  unfold State.startAccs
  repeat' (with_reducible first | assumption | exact Keep.refl _ | apply State.modOp_keep | apply State.placed_keep | apply Keep.foldl | apply Keep.foldl_fst | apply Keep.foldl_snd | intro _ | fail_if_no_progress (refine Keep.mk' ?_ rfl) | (extract_lets -underBinder +onlyGivenNames x; (refine (fun (hx : Keep s0 x) => ?_) ?_); (on_goal 1 => try clear_value x); (on_goal 2 => (unfold x; clear x))) | (extract_lets -underBinder +onlyGivenNames x; try clear_value x) | split)

theorem State.forward_keep {s0 s : State} (h : Keep s0 s) (o : Op) : Keep s0 (State.forward s o) := by
  unfold State.forward
  repeat' (with_reducible first | assumption | exact Keep.refl _ | apply State.modOp_keep | apply State.placed_keep | apply State.rdxCount_keep | fail_if_no_progress (refine Keep.mk' ?_ rfl) | (extract_lets -underBinder +onlyGivenNames x; (refine (fun (hx : Keep s0 x) => ?_) ?_); (on_goal 1 => try clear_value x); (on_goal 2 => (unfold x; clear x))) | (extract_lets -underBinder +onlyGivenNames x; try clear_value x))

theorem State.issueFlush_keep {s0 s : State} (h : Keep s0 s) (o : Op) (persist : Bool) : Keep s0 (State.issueFlush s o persist) := by
  unfold State.issueFlush
  repeat' (with_reducible first | assumption | exact Keep.refl _ | apply State.modOp_keep | apply State.placed_keep | apply State.modQp_keep | fail_if_no_progress (refine Keep.mk' ?_ rfl) | (extract_lets -underBinder +onlyGivenNames x; (refine (fun (hx : Keep s0 x) => ?_) ?_); (on_goal 1 => try clear_value x); (on_goal 2 => (unfold x; clear x))) | (extract_lets -underBinder +onlyGivenNames x; try clear_value x) | split)

theorem State.issueAll_keep {s0 s : State} (h : Keep s0 s)  : Keep s0 (State.issueAll s) := by
  unfold State.issueAll
  repeat' (with_reducible first | assumption | exact Keep.refl _ | apply State.modOp_keep | apply State.placed_keep | apply State.startAccs_keep | apply State.forward_keep | apply State.issueFlush_keep | apply Keep.foldl | apply Keep.foldl_fst | apply Keep.foldl_snd | intro _ | fail_if_no_progress (refine Keep.mk' ?_ rfl) | (extract_lets -underBinder +onlyGivenNames x; (refine (fun (hx : Keep s0 x) => ?_) ?_); (on_goal 1 => try clear_value x); (on_goal 2 => (unfold x; clear x))) | (extract_lets -underBinder +onlyGivenNames x; try clear_value x) | split)

theorem State.fwdFinish_keep {s0 s : State} (h : Keep s0 s) (o : Op) (qpn psn seg : Nat) : Keep s0 (State.fwdFinish s o qpn psn seg).1 := by
  unfold State.fwdFinish
  repeat' (with_reducible first | assumption | exact Keep.refl _ | apply State.stage_keep | fail_if_no_progress (refine Keep.mk' ?_ rfl) | (extract_lets -underBinder +onlyGivenNames x; (refine (fun (hx : Keep s0 x) => ?_) ?_); (on_goal 1 => try clear_value x); (on_goal 2 => (unfold x; clear x))) | (extract_lets -underBinder +onlyGivenNames x; (refine (fun (hx : Keep s0 x.1) => ?_) ?_); (on_goal 1 => try clear_value x); (on_goal 2 => (unfold x; clear x))) | (extract_lets -underBinder +onlyGivenNames x; try clear_value x) | split)

end Sys2Proof.Machine
end

