-- ==== Sys2Proof/Laws/KeepLinkOps.lean ====
section
/-! SUPPORT. What the operations of Machine/LinkOps.lean keep (Keep). -/

set_option linter.unreachableTactic false
set_option linter.unusedTactic false
set_option linter.unusedVariables false

namespace Sys2Proof.Machine

theorem State.setStrand_keep {s0 s : State} (h : Keep s0 s) (n : Nat) (v : Strand) : Keep s0 (State.setStrand s n v) := by
  unfold State.setStrand
  repeat' (with_reducible first | assumption | exact Keep.refl _ | fail_if_no_progress (refine Keep.mk' ?_ rfl) | (extract_lets -underBinder +onlyGivenNames x; (refine (fun (hx : Keep s0 x) => ?_) ?_); (on_goal 1 => try clear_value x); (on_goal 2 => (unfold x; clear x))) | (extract_lets -underBinder +onlyGivenNames x; try clear_value x))

theorem State.modStrand_keep {s0 s : State} (h : Keep s0 s) (n : Nat) (f : Strand → Strand) : Keep s0 (State.modStrand s n f) := by
  unfold State.modStrand
  repeat' (with_reducible first | assumption | exact Keep.refl _ | apply State.setStrand_keep)

theorem State.setStrandSt_keep {s0 s : State} (h : Keep s0 s) (n v : Nat) : Keep s0 (State.setStrandSt s n v) := by
  unfold State.setStrandSt
  repeat' (with_reducible first | assumption | exact Keep.refl _ | apply State.setReg_keep | (extract_lets -underBinder +onlyGivenNames x; (refine (fun (hx : Keep s0 x) => ?_) ?_); (on_goal 1 => try clear_value x); (on_goal 2 => (unfold x; clear x))) | (extract_lets -underBinder +onlyGivenNames x; try clear_value x))

theorem State.linkCtr_keep {s0 s : State} (h : Keep s0 s) (k : Nat) (n : Nat) : Keep s0 (State.linkCtr s k n) := by
  unfold State.linkCtr
  repeat' (with_reducible first | assumption | exact Keep.refl _ | apply State.inc_keep)

theorem State.putFrame_keep {s0 s : State} (h : Keep s0 s) (n : Nat) (vc vseq epoch blocks : Nat) (b : LinkBody) : Keep s0 (State.putFrame s n vc vseq epoch blocks b) := by
  unfold State.putFrame
  repeat' (with_reducible first | assumption | exact Keep.refl _ | apply State.emit_keep | apply State.setStrand_keep | apply State.linkCtr_keep | fail_if_no_progress (refine Keep.mk' ?_ rfl) | (extract_lets -underBinder +onlyGivenNames x; (refine (fun (hx : Keep s0 x) => ?_) ?_); (on_goal 1 => try clear_value x); (on_goal 2 => (unfold x; clear x))) | (extract_lets -underBinder +onlyGivenNames x; try clear_value x) | split)

theorem drainQueue_keep {s0 : State}  : ∀ (a0 : Nat) (a1 : State), Keep s0 a1 → Keep s0 (drainQueue a0 a1) := by
  intro  a0
  induction a0 with
  | zero =>
    intro a1 h
    first | rw [drainQueue] | unfold drainQueue
    repeat' (with_reducible first | assumption | exact Keep.refl _ | apply State.subLink_keep | apply State.putFrame_keep | fail_if_no_progress (refine Keep.mk' ?_ rfl) | (extract_lets -underBinder +onlyGivenNames x; (refine (fun (hx : Keep s0 x) => ?_) ?_); (on_goal 1 => try clear_value x); (on_goal 2 => (unfold x; clear x))) | (extract_lets -underBinder +onlyGivenNames x; have hf := fun z => x z) | (extract_lets -underBinder +onlyGivenNames x; try clear_value x) | split)
  | succ n ih =>
    intro a1 h
    first | rw [drainQueue] | unfold drainQueue
    repeat' (with_reducible first | assumption | apply ih | exact Keep.refl _ | apply State.subLink_keep | apply State.putFrame_keep | fail_if_no_progress (refine Keep.mk' ?_ rfl) | (extract_lets -underBinder +onlyGivenNames x; (refine (fun (hx : Keep s0 x) => ?_) ?_); (on_goal 1 => try clear_value x); (on_goal 2 => (unfold x; clear x))) | (extract_lets -underBinder +onlyGivenNames x; have hf := fun z => x z) | (extract_lets -underBinder +onlyGivenNames x; try clear_value x) | split)

theorem State.sendChain_keep {s0 s : State} (h : Keep s0 s) (epoch : Nat) (b : LinkBody) (cells rsv : Nat) : Keep s0 (State.sendChain s epoch b cells rsv) := by
  unfold State.sendChain
  repeat' (with_reducible first | assumption | exact Keep.refl _ | apply drainQueue_keep | fail_if_no_progress (refine Keep.mk' ?_ rfl) | (extract_lets -underBinder +onlyGivenNames x; (refine (fun (hx : Keep s0 x) => ?_) ?_); (on_goal 1 => try clear_value x); (on_goal 2 => (unfold x; clear x))) | (extract_lets -underBinder +onlyGivenNames x; try clear_value x))

theorem State.sendLink_keep {s0 s : State} (h : Keep s0 s) (epoch : Nat) (b : LinkBody) : Keep s0 (State.sendLink s epoch b) := by
  unfold State.sendLink
  repeat' (with_reducible first | assumption | exact Keep.refl _ | apply State.sendChain_keep)

theorem State.sendResp_keep {s0 s : State} (h : Keep s0 s) (epoch : Nat) (r : FwdRespMsg) (cells rsv : Nat) : Keep s0 (State.sendResp s epoch r cells rsv) := by
  unfold State.sendResp
  repeat' (with_reducible first | assumption | exact Keep.refl _ | apply State.sendChain_keep | apply Keep.foldl | intro _ | fail_if_no_progress (refine Keep.mk' ?_ rfl) | (extract_lets -underBinder +onlyGivenNames x; (refine (fun (hx : Keep s0 x) => ?_) ?_); (on_goal 1 => try clear_value x); (on_goal 2 => (unfold x; clear x))) | (extract_lets -underBinder +onlyGivenNames x; try clear_value x) | split)

theorem State.chainForTwin_keep {s0 s : State} (h : Keep s0 s) (n : Nat) : KeepO1 s0 (State.chainForTwin s n) := by
  unfold State.chainForTwin
  repeat' (with_reducible first | assumption | exact Keep.refl _ | apply State.addLink_keep | fail_if_no_progress (refine Keep.mk' ?_ rfl) | exact KeepO1.none | apply KeepO1.some | (extract_lets -underBinder +onlyGivenNames x; (refine (fun (hx : Keep s0 x) => ?_) ?_); (on_goal 1 => try clear_value x); (on_goal 2 => (unfold x; clear x))) | (extract_lets -underBinder +onlyGivenNames x; try clear_value x) | split)

theorem State.drainLink_keep {s0 s : State} (h : Keep s0 s)  : Keep s0 (State.drainLink s) := by
  unfold State.drainLink
  repeat' (with_reducible first | assumption | exact Keep.refl _ | apply drainQueue_keep)

theorem State.linkUpdate_keep {s0 s : State} (h : Keep s0 s)  : Keep s0 (State.linkUpdate s) := by
  unfold State.linkUpdate
  repeat' (with_reducible first | assumption | exact Keep.refl _ | apply State.wr_keep | apply State.raise_keep | fail_if_no_progress (refine Keep.mk' ?_ rfl) | (extract_lets -underBinder +onlyGivenNames x; (refine (fun (hx : Keep s0 x) => ?_) ?_); (on_goal 1 => try clear_value x); (on_goal 2 => (unfold x; clear x))) | (extract_lets -underBinder +onlyGivenNames x; try clear_value x) | split)

theorem State.setCause_keep {s0 s : State} (h : Keep s0 s) (n c : Nat) : Keep s0 (State.setCause s n c) := by
  unfold State.setCause
  repeat' (with_reducible first | assumption | exact Keep.refl _ | apply State.setReg_keep)

theorem State.strandLeaves_keep {s0 s : State} (h : Keep s0 s) (n cause : Nat) (off : Bool) : Keep s0 (State.strandLeaves s n cause off) := by
  unfold State.strandLeaves
  repeat' (with_reducible first | assumption | exact Keep.refl _ | apply State.raise_keep | apply State.raiseIf_keep | apply State.setStrand_keep | apply State.setStrandSt_keep | apply State.linkCtr_keep | apply State.putFrame_keep | apply State.linkUpdate_keep | apply State.setCause_keep | apply Keep.foldl | apply Keep.foldl_fst | apply Keep.foldl_snd | intro _ | fail_if_no_progress (refine Keep.mk' ?_ rfl) | (extract_lets -underBinder +onlyGivenNames x; (refine (fun (hx : Keep s0 x) => ?_) ?_); (on_goal 1 => try clear_value x); (on_goal 2 => (unfold x; clear x))) | (extract_lets -underBinder +onlyGivenNames x; try clear_value x) | split)

theorem State.resendHeld_keep {s0 s : State} (h : Keep s0 s)  : Keep s0 (State.resendHeld s) := by
  unfold State.resendHeld
  repeat' (with_reducible first | assumption | exact Keep.refl _ | apply State.modStrand_keep | apply State.linkCtr_keep | apply State.putFrame_keep | apply Keep.foldl | intro _ | fail_if_no_progress (refine Keep.mk' ?_ rfl) | (extract_lets -underBinder +onlyGivenNames x; (refine (fun (hx : Keep s0 x) => ?_) ?_); (on_goal 1 => try clear_value x); (on_goal 2 => (unfold x; clear x))) | (extract_lets -underBinder +onlyGivenNames x; try clear_value x) | split)

theorem State.goBack_keep {s0 s : State} (h : Keep s0 s) (n from_ : Nat) : Keep s0 (State.goBack s n from_) := by
  unfold State.goBack
  repeat' (with_reducible first | assumption | exact Keep.refl _ | apply State.emit_keep | apply State.modStrand_keep | apply State.linkCtr_keep | apply State.strandLeaves_keep | apply Keep.foldl | apply Keep.foldl_fst | apply Keep.foldl_snd | intro _ | fail_if_no_progress (refine Keep.mk' ?_ rfl) | (extract_lets -underBinder +onlyGivenNames x; (refine (fun (hx : Keep s0 x) => ?_) ?_); (on_goal 1 => try clear_value x); (on_goal 2 => (unfold x; clear x))) | exact KeepO.get (by assumption) rfl | exact KeepO.none | apply KeepO.some | (apply KeepO.map; intro _) | (extract_lets -underBinder +onlyGivenNames x; (refine (fun (hx : KeepO s0 x) => ?_) ?_); (on_goal 1 => try clear_value x); (on_goal 2 => (unfold x; clear x))) | (extract_lets -underBinder +onlyGivenNames x; try clear_value x) | split)

theorem State.addCredit_keep {s0 s : State} (h : Keep s0 s) (vc c : Nat) : Keep s0 (State.addCredit s vc c) := by
  unfold State.addCredit
  repeat' (with_reducible first | assumption | exact Keep.refl _ | apply State.linkCtr_keep | fail_if_no_progress (refine Keep.mk' ?_ rfl) | (extract_lets -underBinder +onlyGivenNames x; (refine (fun (hx : Keep s0 x) => ?_) ?_); (on_goal 1 => try clear_value x); (on_goal 2 => (unfold x; clear x))) | (extract_lets -underBinder +onlyGivenNames x; try clear_value x) | split)

theorem State.takeAck_keep {s0 s : State} (h : Keep s0 s) (n : Nat) (h : LinkHdr) : Keep s0 (State.takeAck s n h) := by
  unfold State.takeAck
  repeat' (with_reducible first | assumption | exact Keep.refl _ | apply State.setStrand_keep | apply State.drainLink_keep | apply State.goBack_keep | apply State.addCredit_keep | fail_if_no_progress (refine Keep.mk' ?_ rfl) | (extract_lets -underBinder +onlyGivenNames x; (refine (fun (hx : Keep s0 x) => ?_) ?_); (on_goal 1 => try clear_value x); (on_goal 2 => (unfold x; clear x))) | (extract_lets -underBinder +onlyGivenNames x; try clear_value x) | split)

theorem State.genSeen_keep {s0 s : State} (h : Keep s0 s) (n : Nat) (keysel : Bool) : Keep s0 (State.genSeen s n keysel) := by
  unfold State.genSeen
  repeat' (with_reducible first | assumption | exact Keep.refl _ | apply State.modStrand_keep | fail_if_no_progress (refine Keep.mk' ?_ rfl) | (extract_lets -underBinder +onlyGivenNames x; (refine (fun (hx : Keep s0 x) => ?_) ?_); (on_goal 1 => try clear_value x); (on_goal 2 => (unfold x; clear x))) | (extract_lets -underBinder +onlyGivenNames x; try clear_value x) | split)

theorem State.takeFrameHdr_keep {s0 s : State} (h : Keep s0 s) (n : Nat) (h : LinkHdr) (b : LinkBody) : Keep s0 (State.takeFrameHdr s n h b).1 := by
  unfold State.takeFrameHdr
  repeat' (with_reducible first | assumption | exact Keep.refl _ | apply State.modStrand_keep | apply State.linkCtr_keep | apply State.strandLeaves_keep | apply State.takeAck_keep | apply State.genSeen_keep | fail_if_no_progress (refine Keep.mk' ?_ rfl) | (extract_lets -underBinder +onlyGivenNames x; (refine (fun (hx : Keep s0 x) => ?_) ?_); (on_goal 1 => try clear_value x); (on_goal 2 => (unfold x; clear x))) | (extract_lets -underBinder +onlyGivenNames x; (refine (fun (hx : Keep s0 x.1) => ?_) ?_); (on_goal 1 => try clear_value x); (on_goal 2 => (unfold x; clear x))) | (extract_lets -underBinder +onlyGivenNames x; try clear_value x) | split)

theorem State.receive_keep {s0 s : State} (h : Keep s0 s) (n : Nat) (h : LinkHdr) (b : LinkBody) : Keep s0 (State.receive s n h b).1 := by
  unfold State.receive
  repeat' (with_reducible first | assumption | exact Keep.refl _ | apply State.linkCtr_keep | apply State.takeFrameHdr_keep | fail_if_no_progress (refine Keep.mk' ?_ rfl) | refine Keep.of_fst (by assumption) ?_ | (extract_lets -underBinder +onlyGivenNames x; (refine (fun (hx : Keep s0 x) => ?_) ?_); (on_goal 1 => try clear_value x); (on_goal 2 => (unfold x; clear x))) | (extract_lets -underBinder +onlyGivenNames x; (refine (fun (hx : Keep s0 x.1) => ?_) ?_); (on_goal 1 => try clear_value x); (on_goal 2 => (unfold x; clear x))) | (extract_lets -underBinder +onlyGivenNames x; try clear_value x) | split)

theorem State.oweCredit_keep {s0 s : State} (h : Keep s0 s) (vc n : Nat) : Keep s0 (State.oweCredit s vc n) := by
  unfold State.oweCredit
  repeat' (with_reducible first | assumption | exact Keep.refl _ | fail_if_no_progress (refine Keep.mk' ?_ rfl) | (extract_lets -underBinder +onlyGivenNames x; (refine (fun (hx : Keep s0 x) => ?_) ?_); (on_goal 1 => try clear_value x); (on_goal 2 => (unfold x; clear x))) | (extract_lets -underBinder +onlyGivenNames x; try clear_value x))

end Sys2Proof.Machine
end

