-- ==== Sys2Proof/Laws/KeepChainOps.lean ====
section
/-! SUPPORT. What the operations of Machine/ChainOps.lean keep (Keep). -/

set_option linter.unreachableTactic false
set_option linter.unusedTactic false
set_option linter.unusedVariables false

namespace Sys2Proof.Machine

theorem State.setCf_keep {s0 s : State} (h : Keep s0 s) (i w hi lo v : Nat) : Keep s0 (State.setCf s i w hi lo v) := by
  unfold State.setCf
  repeat' (with_reducible first | assumption | exact Keep.refl _ | fail_if_no_progress (refine Keep.mk' ?_ rfl) | (extract_lets -underBinder +onlyGivenNames x; (refine (fun (hx : Keep s0 x) => ?_) ?_); (on_goal 1 => try clear_value x); (on_goal 2 => (unfold x; clear x))) | (extract_lets -underBinder +onlyGivenNames x; try clear_value x))

theorem State.stageChain_keep {s0 s : State} (h : Keep s0 s) (i : Nat) : Keep s0 (State.stageChain s i) := by
  unfold State.stageChain
  repeat' (with_reducible first | assumption | exact Keep.refl _ | apply State.stage_keep)

theorem State.setRun_keep {s0 s : State} (h : Keep s0 s) (i : Nat) (r : Run) : Keep s0 (State.setRun s i r) := by
  unfold State.setRun
  repeat' (with_reducible first | assumption | exact Keep.refl _ | fail_if_no_progress (refine Keep.mk' ?_ rfl) | (extract_lets -underBinder +onlyGivenNames x; (refine (fun (hx : Keep s0 x) => ?_) ?_); (on_goal 1 => try clear_value x); (on_goal 2 => (unfold x; clear x))) | (extract_lets -underBinder +onlyGivenNames x; try clear_value x))

theorem State.sendNow_keep {s0 s : State} (h : Keep s0 s) (n : Nat) (payload : List Byte) (chain : Option Nat) : Keep s0 (State.sendNow s n payload chain) := by
  unfold State.sendNow
  repeat' (with_reducible first | assumption | exact Keep.refl _ | apply State.queueTx_keep | apply State.modQp_keep | apply State.setQf_keep | apply State.stageQp_keep | apply State.setRun_keep | fail_if_no_progress (refine Keep.mk' ?_ rfl) | (extract_lets -underBinder +onlyGivenNames x; (refine (fun (hx : Keep s0 x) => ?_) ?_); (on_goal 1 => try clear_value x); (on_goal 2 => (unfold x; clear x))) | (extract_lets -underBinder +onlyGivenNames x; try clear_value x) | split)

theorem State.deviceSend_keep {s0 s : State} (h : Keep s0 s) (n : Nat) (payload : List Byte) (chain : Option Nat) : Keep s0 (State.deviceSend s n payload chain) := by
  unfold State.deviceSend
  repeat' (with_reducible first | assumption | exact Keep.refl _ | apply State.modQp_keep | apply State.ctxUse_keep | apply State.sendNow_keep | fail_if_no_progress (refine Keep.mk' ?_ rfl) | refine Keep.of_snd (by assumption) ?_ | (extract_lets -underBinder +onlyGivenNames x; (refine (fun (hx : Keep s0 x) => ?_) ?_); (on_goal 1 => try clear_value x); (on_goal 2 => (unfold x; clear x))) | (extract_lets -underBinder +onlyGivenNames x; (refine (fun (hx : Keep s0 x.2) => ?_) ?_); (on_goal 1 => try clear_value x); (on_goal 2 => (unfold x; clear x))) | (extract_lets -underBinder +onlyGivenNames x; try clear_value x) | split)

theorem State.sendsGo_keep {s0 s : State} (h : Keep s0 s) (n : Nat) : Keep s0 (State.sendsGo s n) := by
  unfold State.sendsGo
  repeat' (with_reducible first | assumption | exact Keep.refl _ | apply State.modQp_keep | apply State.sendNow_keep | apply Keep.foldl | intro _ | fail_if_no_progress (refine Keep.mk' ?_ rfl) | (extract_lets -underBinder +onlyGivenNames x; (refine (fun (hx : Keep s0 x) => ?_) ?_); (on_goal 1 => try clear_value x); (on_goal 2 => (unfold x; clear x))) | (extract_lets -underBinder +onlyGivenNames x; try clear_value x))

theorem State.freeRun_keep {s0 s : State} (h : Keep s0 s) (i : Nat) : Keep s0 (State.freeRun s i) := by
  unfold State.freeRun
  repeat' (with_reducible first | assumption | exact Keep.refl _ | apply State.unreserve_keep | apply State.dropHold_keep | apply State.freeRx_keep | apply State.afterFree_keep | apply State.reserve_keep | apply State.setRun_keep | apply Keep.foldl | intro _ | (extract_lets -underBinder +onlyGivenNames x; (refine (fun (hx : Keep s0 x) => ?_) ?_); (on_goal 1 => try clear_value x); (on_goal 2 => (unfold x; clear x))) | (extract_lets -underBinder +onlyGivenNames x; try clear_value x))

theorem State.chainHold_keep {s0 s : State} (h : Keep s0 s) (i : Nat) (keys : List Nat) : Keep s0 (State.chainHold s i keys) := by
  unfold State.chainHold
  repeat' (with_reducible first | assumption | exact Keep.refl _ | apply State.takeHold_keep | apply State.setRun_keep | apply Keep.foldl | apply Keep.foldl_fst | apply Keep.foldl_snd | intro _ | fail_if_no_progress (refine Keep.mk' ?_ rfl) | refine Keep.of_fst (by assumption) ?_ | (extract_lets -underBinder +onlyGivenNames x; (refine (fun (hx : Keep s0 x) => ?_) ?_); (on_goal 1 => try clear_value x); (on_goal 2 => (unfold x; clear x))) | (extract_lets -underBinder +onlyGivenNames x; (refine (fun (hx : Keep s0 x.1) => ?_) ?_); (on_goal 1 => try clear_value x); (on_goal 2 => (unfold x; clear x))) | (extract_lets -underBinder +onlyGivenNames x; try clear_value x) | split)

theorem State.chainLetGo_keep {s0 s : State} (h : Keep s0 s) (i : Nat) : Keep s0 (State.chainLetGo s i) := by
  unfold State.chainLetGo
  repeat' (with_reducible first | assumption | exact Keep.refl _ | apply State.dropHold_keep | apply State.setRun_keep | apply Keep.foldl | intro _ | fail_if_no_progress (refine Keep.mk' ?_ rfl) | (extract_lets -underBinder +onlyGivenNames x; (refine (fun (hx : Keep s0 x) => ?_) ?_); (on_goal 1 => try clear_value x); (on_goal 2 => (unfold x; clear x))) | (extract_lets -underBinder +onlyGivenNames x; try clear_value x))

theorem State.armAnswer_keep {s0 s : State} (h : Keep s0 s) (i : Nat) (ok : Bool) : Keep s0 (State.armAnswer s i ok) := by
  unfold State.armAnswer
  repeat' (with_reducible first | assumption | exact Keep.refl _ | apply State.modOp_keep | apply State.placed_keep | fail_if_no_progress (refine Keep.mk' ?_ rfl) | (extract_lets -underBinder +onlyGivenNames x; (refine (fun (hx : Keep s0 x) => ?_) ?_); (on_goal 1 => try clear_value x); (on_goal 2 => (unfold x; clear x))) | (extract_lets -underBinder +onlyGivenNames x; try clear_value x) | split)

theorem State.chainFail_keep {s0 s : State} (h : Keep s0 s) (i cause : Nat) : Keep s0 (State.chainFail s i cause) := by
  unfold State.chainFail
  repeat' (with_reducible first | assumption | exact Keep.refl _ | apply State.wr_keep | apply State.satInc_keep | apply State.raiseArg_keep | apply State.dropOps_keep | apply State.setCf_keep | apply State.stageChain_keep | apply State.deviceSend_keep | apply State.freeRun_keep | apply State.armAnswer_keep | (extract_lets -underBinder +onlyGivenNames x; (refine (fun (hx : Keep s0 x) => ?_) ?_); (on_goal 1 => try clear_value x); (on_goal 2 => (unfold x; clear x))) | (extract_lets -underBinder +onlyGivenNames x; try clear_value x) | split)

theorem State.chainStepDone_keep {s0 s : State} (h : Keep s0 s) (i : Nat) : Keep s0 (State.chainStepDone s i) := by
  unfold State.chainStepDone
  repeat' (with_reducible first | assumption | exact Keep.refl _ | apply State.setCf_keep | apply State.stageChain_keep | apply State.setRun_keep | apply State.freeRun_keep | apply State.chainLetGo_keep | apply State.armAnswer_keep | apply State.chainFail_keep | fail_if_no_progress (refine Keep.mk' ?_ rfl) | (extract_lets -underBinder +onlyGivenNames x; (refine (fun (hx : Keep s0 x) => ?_) ?_); (on_goal 1 => try clear_value x); (on_goal 2 => (unfold x; clear x))) | (extract_lets -underBinder +onlyGivenNames x; try clear_value x) | split)

theorem State.chainKeyFail_keep {s0 s : State} (h : Keep s0 s) (i cause rkey : Nat) : Keep s0 (State.chainKeyFail s i cause rkey) := by
  unfold State.chainKeyFail
  repeat' (with_reducible first | assumption | exact Keep.refl _ | apply State.keyFail_keep | apply State.chainFail_keep)

theorem State.addChainOps_keep {s0 s : State} (h : Keep s0 s) (i : Nat) (k : OpKind) (cls tenant pool len : Nat) (data : List Byte) (cmp swap : Word64) : Keep s0 (State.addChainOps s i k cls tenant pool len data cmp swap) := by
  unfold State.addChainOps
  repeat' (with_reducible first | assumption | exact Keep.refl _ | apply State.setTenant_keep | apply State.addWused_keep | apply State.reserve_keep | apply State.addOp_keep | apply State.setRun_keep | apply Keep.foldl | apply Keep.foldl_fst | apply Keep.foldl_snd | intro _ | fail_if_no_progress (refine Keep.mk' ?_ rfl) | (extract_lets -underBinder +onlyGivenNames x; (refine (fun (hx : Keep s0 x) => ?_) ?_); (on_goal 1 => try clear_value x); (on_goal 2 => (unfold x; clear x))) | (extract_lets -underBinder +onlyGivenNames x; try clear_value x) | split)

theorem State.chainCopy_keep {s0 s : State} (h : Keep s0 s) (i : Nat) : Keep s0 (State.chainCopy s i) := by
  unfold State.chainCopy
  repeat' (with_reducible first | assumption | exact Keep.refl _ | apply State.keysReady_keep | apply State.setRun_keep | apply State.chainHold_keep | apply State.chainFail_keep | apply State.chainKeyFail_keep | apply State.addChainOps_keep | fail_if_no_progress (refine Keep.mk' ?_ rfl) | refine Keep.of_snd (by assumption) ?_ | (extract_lets -underBinder +onlyGivenNames x; (refine (fun (hx : Keep s0 x) => ?_) ?_); (on_goal 1 => try clear_value x); (on_goal 2 => (unfold x; clear x))) | (extract_lets -underBinder +onlyGivenNames x; (refine (fun (hx : Keep s0 x.2) => ?_) ?_); (on_goal 1 => try clear_value x); (on_goal 2 => (unfold x; clear x))) | (extract_lets -underBinder +onlyGivenNames x; try clear_value x) | split)

theorem State.chainAtomic_keep {s0 s : State} (h : Keep s0 s) (i : Nat) : Keep s0 (State.chainAtomic s i) := by
  unfold State.chainAtomic
  repeat' (with_reducible first | assumption | exact Keep.refl _ | apply State.keysReady_keep | apply State.chainHold_keep | apply State.chainFail_keep | apply State.chainKeyFail_keep | apply State.addChainOps_keep | fail_if_no_progress (refine Keep.mk' ?_ rfl) | refine Keep.of_snd (by assumption) ?_ | (extract_lets -underBinder +onlyGivenNames x; (refine (fun (hx : Keep s0 x) => ?_) ?_); (on_goal 1 => try clear_value x); (on_goal 2 => (unfold x; clear x))) | (extract_lets -underBinder +onlyGivenNames x; (refine (fun (hx : Keep s0 x.2) => ?_) ?_); (on_goal 1 => try clear_value x); (on_goal 2 => (unfold x; clear x))) | (extract_lets -underBinder +onlyGivenNames x; try clear_value x) | split)

theorem State.chainPersist_keep {s0 s : State} (h : Keep s0 s) (i : Nat) : Keep s0 (State.chainPersist s i) := by
  unfold State.chainPersist
  repeat' (with_reducible first | assumption | exact Keep.refl _ | apply State.setRun_keep | apply State.chainStepDone_keep | fail_if_no_progress (refine Keep.mk' ?_ rfl) | (extract_lets -underBinder +onlyGivenNames x; (refine (fun (hx : Keep s0 x) => ?_) ?_); (on_goal 1 => try clear_value x); (on_goal 2 => (unfold x; clear x))) | (extract_lets -underBinder +onlyGivenNames x; try clear_value x) | split)

theorem State.notifySend_keep {s0 s : State} (h : Keep s0 s) (i n : Nat) (payload : List Byte) : Keep s0 (State.notifySend s i n payload) := by
  unfold State.notifySend
  repeat' (with_reducible first | assumption | exact Keep.refl _ | apply State.setRun_keep | apply State.deviceSend_keep | fail_if_no_progress (refine Keep.mk' ?_ rfl) | (extract_lets -underBinder +onlyGivenNames x; (refine (fun (hx : Keep s0 x) => ?_) ?_); (on_goal 1 => try clear_value x); (on_goal 2 => (unfold x; clear x))) | (extract_lets -underBinder +onlyGivenNames x; try clear_value x))

theorem State.chainNotify_keep {s0 s : State} (h : Keep s0 s) (i : Nat) : Keep s0 (State.chainNotify s i) := by
  unfold State.chainNotify
  repeat' (with_reducible first | assumption | exact Keep.refl _ | apply State.keysReady_keep | apply State.chainHold_keep | apply State.chainFail_keep | apply State.chainKeyFail_keep | apply State.addChainOps_keep | apply State.notifySend_keep | fail_if_no_progress (refine Keep.mk' ?_ rfl) | refine Keep.of_snd (by assumption) ?_ | (extract_lets -underBinder +onlyGivenNames x; (refine (fun (hx : Keep s0 x) => ?_) ?_); (on_goal 1 => try clear_value x); (on_goal 2 => (unfold x; clear x))) | (extract_lets -underBinder +onlyGivenNames x; (refine (fun (hx : Keep s0 x.2) => ?_) ?_); (on_goal 1 => try clear_value x); (on_goal 2 => (unfold x; clear x))) | (extract_lets -underBinder +onlyGivenNames x; try clear_value x) | split)

theorem State.chainPoison_keep {s0 s : State} (h : Keep s0 s) (i cls pool : Nat) : Keep s0 (State.chainPoison s i cls pool).1 := by
  unfold State.chainPoison
  repeat' (with_reducible first | assumption | exact Keep.refl _ | apply State.stage_keep | apply State.reserveAt_keep | apply State.reserve_keep | apply State.setRun_keep | apply State.addChainOps_keep | fail_if_no_progress (refine Keep.mk' ?_ rfl) | (extract_lets -underBinder +onlyGivenNames x; (refine (fun (hx : Keep s0 x) => ?_) ?_); (on_goal 1 => try clear_value x); (on_goal 2 => (unfold x; clear x))) | (extract_lets -underBinder +onlyGivenNames x; (refine (fun (hx : Keep s0 x.1) => ?_) ?_); (on_goal 1 => try clear_value x); (on_goal 2 => (unfold x; clear x))) | (extract_lets -underBinder +onlyGivenNames x; try clear_value x) | split)

theorem State.chainOpsDone_keep {s0 s : State} (h : Keep s0 s) (i : Nat) (g : List Op) : Keep s0 (State.chainOpsDone s i g) := by
  unfold State.chainOpsDone
  repeat' (with_reducible first | assumption | exact Keep.refl _ | apply State.removeOps_keep | apply State.setRun_keep | apply State.chainFail_keep | apply State.chainStepDone_keep | apply State.addChainOps_keep | apply State.notifySend_keep | apply State.chainPoison_keep | apply Keep.foldl | apply Keep.foldl_fst | apply Keep.foldl_snd | intro _ | fail_if_no_progress (refine Keep.mk' ?_ rfl) | refine Keep.of_fst (by assumption) ?_ | (extract_lets -underBinder +onlyGivenNames x; (refine (fun (hx : Keep s0 x) => ?_) ?_); (on_goal 1 => try clear_value x); (on_goal 2 => (unfold x; clear x))) | exact KeepO.get (by assumption) rfl | exact KeepO.none | apply KeepO.some | (apply KeepO.map; intro _) | (extract_lets -underBinder +onlyGivenNames x; (refine (fun (hx : KeepO s0 x) => ?_) ?_); (on_goal 1 => try clear_value x); (on_goal 2 => (unfold x; clear x))) | (extract_lets -underBinder +onlyGivenNames x; (refine (fun (hx : Keep s0 x.1) => ?_) ?_); (on_goal 1 => try clear_value x); (on_goal 2 => (unfold x; clear x))) | (extract_lets -underBinder +onlyGivenNames x; try clear_value x) | split)

end Sys2Proof.Machine
end

