-- ==== Sys2Proof/Laws/KeepEpochOps.lean ====
section
/-! SUPPORT. What the operations of Machine/EpochOps.lean keep (Keep). -/

set_option linter.unreachableTactic false
set_option linter.unusedTactic false
set_option linter.unusedVariables false

namespace Sys2Proof.Machine

theorem State.twinCtr_keep {s0 s : State} (h : Keep s0 s) (k : Nat) (n : Nat) : Keep s0 (State.twinCtr s k n) := by
  unfold State.twinCtr
  repeat' (with_reducible first | assumption | exact Keep.refl _ | apply State.inc_keep)

theorem State.stageSetting_keep {s0 s : State} (h : Keep s0 s) (n page off : Nat) (v : Word64) : Keep s0 (State.stageSetting s n page off v) := by
  unfold State.stageSetting
  repeat' (with_reducible first | assumption | exact Keep.refl _ | apply State.stage_keep | fail_if_no_progress (refine Keep.mk' ?_ rfl) | (extract_lets -underBinder +onlyGivenNames x; (refine (fun (hx : Keep s0 x) => ?_) ?_); (on_goal 1 => try clear_value x); (on_goal 2 => (unfold x; clear x))) | (extract_lets -underBinder +onlyGivenNames x; try clear_value x))

theorem State.openNext_keep {s0 s : State} (h : Keep s0 s)  : Keep s0 (State.openNext s) := by
  unfold State.openNext
  repeat' (with_reducible first | assumption | exact Keep.refl _ | apply State.wr_keep | apply State.stageSetting_keep | apply Keep.foldl | apply Keep.foldl_fst | apply Keep.foldl_snd | intro _ | fail_if_no_progress (refine Keep.mk' ?_ rfl) | (extract_lets -underBinder +onlyGivenNames x; (refine (fun (hx : Keep s0 x) => ?_) ?_); (on_goal 1 => try clear_value x); (on_goal 2 => (unfold x; clear x))) | exact KeepO.get (by assumption) rfl | exact KeepO.none | apply KeepO.some | (apply KeepO.map; intro _) | (extract_lets -underBinder +onlyGivenNames x; (refine (fun (hx : KeepO s0 x) => ?_) ?_); (on_goal 1 => try clear_value x); (on_goal 2 => (unfold x; clear x))) | (extract_lets -underBinder +onlyGivenNames x; try clear_value x) | split)

theorem State.sendHeartbeat_keep {s0 s : State} (h : Keep s0 s)  : Keep s0 (State.sendHeartbeat s) := by
  unfold State.sendHeartbeat
  repeat' (with_reducible first | assumption | exact Keep.refl _ | apply State.sendLink_keep | fail_if_no_progress (refine Keep.mk' ?_ rfl) | (extract_lets -underBinder +onlyGivenNames x; (refine (fun (hx : Keep s0 x) => ?_) ?_); (on_goal 1 => try clear_value x); (on_goal 2 => (unfold x; clear x))) | (extract_lets -underBinder +onlyGivenNames x; try clear_value x) | split)

theorem State.stageWused_keep {s0 s : State} (h : Keep s0 s)  : Keep s0 (State.stageWused s) := by
  unfold State.stageWused
  repeat' (with_reducible first | assumption | exact Keep.refl _ | apply State.stage_keep | apply Keep.foldl | intro _ | fail_if_no_progress (refine Keep.mk' ?_ rfl) | (extract_lets -underBinder +onlyGivenNames x; (refine (fun (hx : Keep s0 x) => ?_) ?_); (on_goal 1 => try clear_value x); (on_goal 2 => (unfold x; clear x))) | (extract_lets -underBinder +onlyGivenNames x; try clear_value x) | split)

theorem State.closeEpoch_keep {s0 s : State} (h : Keep s0 s) (early fin drill : Bool) : Keep s0 (State.closeEpoch s early fin drill) := by
  unfold State.closeEpoch
  repeat' (with_reducible first | assumption | exact Keep.refl _ | apply State.sendLink_keep | apply State.twinCtr_keep | apply State.openNext_keep | apply State.sendHeartbeat_keep | apply State.stageWused_keep | apply Keep.foldl | apply Keep.foldl_fst | apply Keep.foldl_snd | intro _ | fail_if_no_progress (refine Keep.mk' ?_ rfl) | (extract_lets -underBinder +onlyGivenNames x; (refine (fun (hx : Keep s0 x) => ?_) ?_); (on_goal 1 => try clear_value x); (on_goal 2 => (unfold x; clear x))) | exact KeepO.get (by assumption) rfl | exact KeepO.none | apply KeepO.some | (apply KeepO.map; intro _) | (extract_lets -underBinder +onlyGivenNames x; (refine (fun (hx : KeepO s0 x) => ?_) ?_); (on_goal 1 => try clear_value x); (on_goal 2 => (unfold x; clear x))) | (extract_lets -underBinder +onlyGivenNames x; try clear_value x) | split)

theorem State.releaseRegion_keep {s0 s : State} (h : Keep s0 s) (m : Move) : Keep s0 (State.releaseRegion s m) := by
  unfold State.releaseRegion
  repeat' (with_reducible first | assumption | exact Keep.refl _ | apply State.stage_keep | apply State.writeBackPage_keep | apply State.dropPageLines_keep | apply State.release_keep | apply Keep.foldl | apply Keep.foldl_fst | apply Keep.foldl_snd | intro _ | fail_if_no_progress (refine Keep.mk' ?_ rfl) | (extract_lets -underBinder +onlyGivenNames x; (refine (fun (hx : Keep s0 x) => ?_) ?_); (on_goal 1 => try clear_value x); (on_goal 2 => (unfold x; clear x))) | exact KeepO.get (by assumption) rfl | exact KeepO.none | apply KeepO.some | (apply KeepO.map; intro _) | (extract_lets -underBinder +onlyGivenNames x; (refine (fun (hx : KeepO s0 x) => ?_) ?_); (on_goal 1 => try clear_value x); (on_goal 2 => (unfold x; clear x))) | (extract_lets -underBinder +onlyGivenNames x; try clear_value x) | split)

theorem State.moveStep_keep {s0 s : State} (h : Keep s0 s)  : Keep s0 (State.moveStep s) := by
  unfold State.moveStep
  repeat' (with_reducible first | assumption | exact Keep.refl _ | apply State.releaseRegion_keep | apply Keep.foldl | intro _)

theorem State.finishMove_keep {s0 s : State} (h : Keep s0 s) (m : Move) : Keep s0 (State.finishMove s m) := by
  unfold State.finishMove
  repeat' (with_reducible first | assumption | exact Keep.refl _ | apply State.raise_keep | apply State.setRegion_keep | apply State.removeOps_keep | apply State.sendLink_keep | apply State.twinCtr_keep | apply Keep.foldl | apply Keep.foldl_fst | apply Keep.foldl_snd | intro _ | fail_if_no_progress (refine Keep.mk' ?_ rfl) | (extract_lets -underBinder +onlyGivenNames x; (refine (fun (hx : Keep s0 x) => ?_) ?_); (on_goal 1 => try clear_value x); (on_goal 2 => (unfold x; clear x))) | (extract_lets -underBinder +onlyGivenNames x; try clear_value x) | split)

theorem State.cfgBump_keep {s0 s : State} (h : Keep s0 s) (page off : Nat) : Keep s0 (State.cfgBump s page off) := by
  unfold State.cfgBump
  repeat' (with_reducible first | assumption | exact Keep.refl _ | apply State.bumpGen_keep | fail_if_no_progress (refine Keep.mk' ?_ rfl) | (extract_lets -underBinder +onlyGivenNames x; (refine (fun (hx : Keep s0 x) => ?_) ?_); (on_goal 1 => try clear_value x); (on_goal 2 => (unfold x; clear x))) | exact KeepO.get (by assumption) rfl | exact KeepO.none | apply KeepO.some | (apply KeepO.map; intro _) | (extract_lets -underBinder +onlyGivenNames x; (refine (fun (hx : KeepO s0 x) => ?_) ?_); (on_goal 1 => try clear_value x); (on_goal 2 => (unfold x; clear x))) | (extract_lets -underBinder +onlyGivenNames x; have hf := fun z => x z) | (extract_lets -underBinder +onlyGivenNames x; try clear_value x) | split)

theorem State.applyConfig_keep {s0 s : State} (h : Keep s0 s) (page off : Nat) (v : Word64) : Keep s0 (State.applyConfig s page off v) := by
  unfold State.applyConfig
  repeat' (with_reducible first | assumption | exact Keep.refl _ | apply State.setReg_keep | apply State.raise_keep | apply State.autoSave_keep | apply State.setPool_keep | apply State.cfgBump_keep | fail_if_no_progress (refine Keep.mk' ?_ rfl) | (extract_lets -underBinder +onlyGivenNames x; (refine (fun (hx : Keep s0 x) => ?_) ?_); (on_goal 1 => try clear_value x); (on_goal 2 => (unfold x; clear x))) | (extract_lets -underBinder +onlyGivenNames x; have hd : x.dram = x.dram := rfl) | (extract_lets -underBinder +onlyGivenNames x; try clear_value x) | split)

theorem State.pairConfig_keep {s0 s : State} (h : Keep s0 s) (page off : Nat) (v : Word64) : Keep s0 (State.pairConfig s page off v) := by
  unfold State.pairConfig
  repeat' (with_reducible first | assumption | exact Keep.refl _ | apply State.stageSetting_keep | apply State.applyConfig_keep | fail_if_no_progress (refine Keep.mk' ?_ rfl) | (extract_lets -underBinder +onlyGivenNames x; (refine (fun (hx : Keep s0 x) => ?_) ?_); (on_goal 1 => try clear_value x); (on_goal 2 => (unfold x; clear x))) | (extract_lets -underBinder +onlyGivenNames x; try clear_value x) | split)

theorem State.takeSeal_keep {s0 s : State} (h : Keep s0 s) (m : SealMsg) : Keep s0 (State.takeSeal s m) := by
  unfold State.takeSeal
  repeat' (with_reducible first | assumption | exact Keep.refl _ | fail_if_no_progress (refine Keep.mk' ?_ rfl) | (extract_lets -underBinder +onlyGivenNames x; (refine (fun (hx : Keep s0 x) => ?_) ?_); (on_goal 1 => try clear_value x); (on_goal 2 => (unfold x; clear x))) | (extract_lets -underBinder +onlyGivenNames x; have hd : x.dram = x.dram := rfl) | (extract_lets -underBinder +onlyGivenNames x; try clear_value x) | split)

theorem State.heldLands_keep {s0 s : State} (h : Keep s0 s) (h : HeldWrite) : Keep s0 (State.heldLands s h) := by
  unfold State.heldLands
  repeat' (with_reducible first | assumption | exact Keep.refl _ | apply State.dramReq_keep | apply State.setDram_keep | apply State.toFlue_keep | fail_if_no_progress (refine Keep.mk' ?_ rfl) | (extract_lets -underBinder +onlyGivenNames x; (refine (fun (hx : Keep s0 x) => ?_) ?_); (on_goal 1 => try clear_value x); (on_goal 2 => (unfold x; clear x))) | exact KeepO.get (by assumption) rfl | exact KeepO.none | apply KeepO.some | (apply KeepO.map; intro _) | (extract_lets -underBinder +onlyGivenNames x; (refine (fun (hx : KeepO s0 x) => ?_) ?_); (on_goal 1 => try clear_value x); (on_goal 2 => (unfold x; clear x))) | (extract_lets -underBinder +onlyGivenNames x; try clear_value x) | split)

theorem State.confirmOne_keep {s0 s : State} (h : Keep s0 s) (n : Nat) : Keep s0 (State.confirmOne s n) := by
  unfold State.confirmOne
  repeat' (with_reducible first | assumption | exact Keep.refl _ | apply State.wr_keep | apply State.setTenant_keep | apply State.pmuCount_keep | apply State.release_keep | apply State.finishMove_keep | apply State.applyConfig_keep | apply State.takeSeal_keep | apply State.heldLands_keep | apply Keep.foldl | apply Keep.foldl_fst | apply Keep.foldl_snd | intro _ | fail_if_no_progress (refine Keep.mk' ?_ rfl) | (extract_lets -underBinder +onlyGivenNames x; (refine (fun (hx : Keep s0 x) => ?_) ?_); (on_goal 1 => try clear_value x); (on_goal 2 => (unfold x; clear x))) | exact KeepO.get (by assumption) rfl | exact KeepO.none | apply KeepO.some | (apply KeepO.map; intro _) | (extract_lets -underBinder +onlyGivenNames x; (refine (fun (hx : KeepO s0 x) => ?_) ?_); (on_goal 1 => try clear_value x); (on_goal 2 => (unfold x; clear x))) | (extract_lets -underBinder +onlyGivenNames x; have hd : x.dram = x.dram := rfl) | (extract_lets -underBinder +onlyGivenNames x; try clear_value x) | split)

theorem confirmLoop_keep {s0 : State}  : ∀ (a0 : Nat) (a1 : State), Keep s0 a1 → Keep s0 (confirmLoop a0 a1) := by
  intro  a0
  induction a0 with
  | zero =>
    intro a1 h
    first | rw [confirmLoop] | unfold confirmLoop
    repeat' (with_reducible first | assumption | exact Keep.refl _ | apply State.openNext_keep | apply State.confirmOne_keep | fail_if_no_progress (refine Keep.mk' ?_ rfl) | (extract_lets -underBinder +onlyGivenNames x; (refine (fun (hx : Keep s0 x) => ?_) ?_); (on_goal 1 => try clear_value x); (on_goal 2 => (unfold x; clear x))) | (extract_lets -underBinder +onlyGivenNames x; try clear_value x) | split)
  | succ n ih =>
    intro a1 h
    first | rw [confirmLoop] | unfold confirmLoop
    repeat' (with_reducible first | assumption | apply ih | exact Keep.refl _ | apply State.openNext_keep | apply State.confirmOne_keep | fail_if_no_progress (refine Keep.mk' ?_ rfl) | (extract_lets -underBinder +onlyGivenNames x; (refine (fun (hx : Keep s0 x) => ?_) ?_); (on_goal 1 => try clear_value x); (on_goal 2 => (unfold x; clear x))) | (extract_lets -underBinder +onlyGivenNames x; try clear_value x) | split)

theorem State.confirmAll_keep {s0 s : State} (h : Keep s0 s)  : Keep s0 (State.confirmAll s) := by
  unfold State.confirmAll
  repeat' (with_reducible first | assumption | exact Keep.refl _ | apply confirmLoop_keep)

theorem State.mirrorWork_keep {s0 s : State} (h : Keep s0 s)  : Keep s0 (State.mirrorWork s) := by
  unfold State.mirrorWork
  repeat' (with_reducible first | assumption | exact Keep.refl _ | apply State.closeEpoch_keep | apply State.moveStep_keep | apply State.confirmAll_keep | (extract_lets -underBinder +onlyGivenNames x; (refine (fun (hx : Keep s0 x) => ?_) ?_); (on_goal 1 => try clear_value x); (on_goal 2 => (unfold x; clear x))) | (extract_lets -underBinder +onlyGivenNames x; try clear_value x) | split)

end Sys2Proof.Machine
end

