-- ==== Sys2Proof/Laws/KeepRister.lean ====
section
/-! SUPPORT. What the operations of Machine/Rister.lean keep (Keep). -/

set_option linter.unreachableTactic false
set_option linter.unusedTactic false
set_option linter.unusedVariables false

namespace Sys2Proof.Machine

theorem State.setRq_keep {s0 s : State} (h : Keep s0 s) (q : Nat) (r : Rq) : Keep s0 (State.setRq s q r) := by
  unfold State.setRq
  repeat' (with_reducible first | assumption | exact Keep.refl _ | fail_if_no_progress (refine Keep.mk' ?_ rfl) | (extract_lets -underBinder +onlyGivenNames x; (refine (fun (hx : Keep s0 x) => ?_) ?_); (on_goal 1 => try clear_value x); (on_goal 2 => (unfold x; clear x))) | (extract_lets -underBinder +onlyGivenNames x; try clear_value x))

theorem State.rqMsix_keep {s0 s : State} (h : Keep s0 s) (q : Nat) : Keep s0 (State.rqMsix s q) := by
  unfold State.rqMsix
  repeat' (with_reducible first | assumption | exact Keep.refl _ | apply State.msix_keep | split)

theorem State.rqError_keep {s0 s : State} (h : Keep s0 s) (q code index : Nat) : Keep s0 (State.rqError s q code index) := by
  unfold State.rqError
  repeat' (with_reducible first | assumption | exact Keep.refl _ | apply State.wr_keep | apply State.raise_keep | apply State.rqMsix_keep | (extract_lets -underBinder +onlyGivenNames x; (refine (fun (hx : Keep s0 x) => ?_) ?_); (on_goal 1 => try clear_value x); (on_goal 2 => (unfold x; clear x))) | (extract_lets -underBinder +onlyGivenNames x; try clear_value x))

theorem State.postNow_keep {s0 s : State} (h : Keep s0 s) (q : Nat) (p : Posting) : Keep s0 (State.postNow s q p) := by
  unfold State.postNow
  repeat' (with_reducible first | assumption | exact Keep.refl _ | apply State.wr_keep | apply State.emit_keep | apply State.rqMsix_keep | apply State.rqError_keep | (extract_lets -underBinder +onlyGivenNames x; (refine (fun (hx : Keep s0 x) => ?_) ?_); (on_goal 1 => try clear_value x); (on_goal 2 => (unfold x; clear x))) | (extract_lets -underBinder +onlyGivenNames x; try clear_value x) | split)

theorem postAll_keep {s0 : State}  : ∀ (a0 : Nat) (a1 : State) (a2 : Nat), Keep s0 a1 → Keep s0 (postAll a0 a1 a2) := by
  intro  a0
  induction a0 with
  | zero =>
    intro a1 a2 h
    first | rw [postAll] | unfold postAll
    repeat' (with_reducible first | assumption | exact Keep.refl _ | apply State.wr_keep | apply State.setRq_keep | apply State.postNow_keep | fail_if_no_progress (refine Keep.mk' ?_ rfl) | (extract_lets -underBinder +onlyGivenNames x; (refine (fun (hx : Keep s0 x) => ?_) ?_); (on_goal 1 => try clear_value x); (on_goal 2 => (unfold x; clear x))) | (extract_lets -underBinder +onlyGivenNames x; try clear_value x) | split)
  | succ n ih =>
    intro a1 a2 h
    first | rw [postAll] | unfold postAll
    repeat' (with_reducible first | assumption | apply ih | exact Keep.refl _ | apply State.wr_keep | apply State.setRq_keep | apply State.postNow_keep | fail_if_no_progress (refine Keep.mk' ?_ rfl) | (extract_lets -underBinder +onlyGivenNames x; (refine (fun (hx : Keep s0 x) => ?_) ?_); (on_goal 1 => try clear_value x); (on_goal 2 => (unfold x; clear x))) | (extract_lets -underBinder +onlyGivenNames x; try clear_value x) | split)

theorem State.postWaiting_keep {s0 s : State} (h : Keep s0 s) (q : Nat) : Keep s0 (State.postWaiting s q) := by
  unfold State.postWaiting
  repeat' (with_reducible first | assumption | exact Keep.refl _ | apply postAll_keep)

theorem State.complete_keep {s0 s : State} (h : Keep s0 s) (q status : Nat) (result : Word64) : Keep s0 (State.complete s q status result) := by
  unfold State.complete
  repeat' (with_reducible first | assumption | exact Keep.refl _ | apply State.setRq_keep | apply State.postWaiting_keep | fail_if_no_progress (refine Keep.mk' ?_ rfl) | (extract_lets -underBinder +onlyGivenNames x; (refine (fun (hx : Keep s0 x) => ?_) ?_); (on_goal 1 => try clear_value x); (on_goal 2 => (unfold x; clear x))) | exact KeepO.get (by assumption) rfl | exact KeepO.none | apply KeepO.some | (apply KeepO.map; intro _) | (extract_lets -underBinder +onlyGivenNames x; (refine (fun (hx : KeepO s0 x) => ?_) ?_); (on_goal 1 => try clear_value x); (on_goal 2 => (unfold x; clear x))) | (extract_lets -underBinder +onlyGivenNames x; try clear_value x) | split)

theorem State.running_keep {s0 s : State} (h : Keep s0 s) (q : Nat) : Keep s0 (State.running s q) := by
  unfold State.running
  repeat' (with_reducible first | assumption | exact Keep.refl _ | apply State.setRq_keep | fail_if_no_progress (refine Keep.mk' ?_ rfl) | (extract_lets -underBinder +onlyGivenNames x; (refine (fun (hx : Keep s0 x) => ?_) ?_); (on_goal 1 => try clear_value x); (on_goal 2 => (unfold x; clear x))) | (extract_lets -underBinder +onlyGivenNames x; try clear_value x) | split)

theorem rqAdvance_keep {s0 : State}  : ∀ (a0 : Nat) (a1 : State) (a2 : Nat), Keep s0 a1 → Keep s0 (rqAdvance a0 a1 a2) := by
  intro  a0
  induction a0 with
  | zero =>
    intro a1 a2 h
    first | rw [rqAdvance] | unfold rqAdvance
    repeat' (with_reducible first | assumption | exact Keep.refl _ | apply State.complete_keep | fail_if_no_progress (refine Keep.mk' ?_ rfl) | (extract_lets -underBinder +onlyGivenNames x; (refine (fun (hx : Keep s0 x) => ?_) ?_); (on_goal 1 => try clear_value x); (on_goal 2 => (unfold x; clear x))) | (extract_lets -underBinder +onlyGivenNames x; try clear_value x) | split)
  | succ n ih =>
    intro a1 a2 h
    first | rw [rqAdvance] | unfold rqAdvance
    repeat' (with_reducible first | assumption | apply ih | exact Keep.refl _ | apply State.complete_keep | fail_if_no_progress (refine Keep.mk' ?_ rfl) | (extract_lets -underBinder +onlyGivenNames x; (refine (fun (hx : Keep s0 x) => ?_) ?_); (on_goal 1 => try clear_value x); (on_goal 2 => (unfold x; clear x))) | (extract_lets -underBinder +onlyGivenNames x; try clear_value x) | split)

theorem State.advance_keep {s0 s : State} (h : Keep s0 s) (q : Nat) : Keep s0 (State.advance s q) := by
  unfold State.advance
  repeat' (with_reducible first | assumption | exact Keep.refl _ | apply rqAdvance_keep)

theorem State.finishCmd_keep {s0 s : State} (h : Keep s0 s) (q status result : Nat) : Keep s0 (State.finishCmd s q status result) := by
  unfold State.finishCmd
  repeat' (with_reducible first | assumption | exact Keep.refl _ | apply State.complete_keep | apply State.advance_keep | (extract_lets -underBinder +onlyGivenNames x; (refine (fun (hx : Keep s0 x) => ?_) ?_); (on_goal 1 => try clear_value x); (on_goal 2 => (unfold x; clear x))) | (extract_lets -underBinder +onlyGivenNames x; try clear_value x))

theorem State.blockCmd_keep {s0 s : State} (h : Keep s0 s) (q blk op : Nat) (needsRun : Bool) (zeroOk : RqCmd → Bool) (f : State → Nat → RqCmd → State) (hf : ∀ x0 x1 x2, Keep s0 x0 → Keep s0 (f x0 x1 x2)) : Keep s0 (State.blockCmd s q blk op needsRun zeroOk f) := by
  unfold State.blockCmd
  repeat' (with_reducible first | assumption | apply hf | exact Keep.refl _ | apply State.running_keep | apply State.finishCmd_keep | fail_if_no_progress (refine Keep.mk' ?_ rfl) | (extract_lets -underBinder +onlyGivenNames x; (refine (fun (hx : Keep s0 x) => ?_) ?_); (on_goal 1 => try clear_value x); (on_goal 2 => (unfold x; clear x))) | (extract_lets -underBinder +onlyGivenNames x; try clear_value x) | split)

theorem State.generalCmd_keep {s0 s : State} (h : Keep s0 s) (q op : Nat) (f : State → RqCmd → State) (hf : ∀ x0 x1, Keep s0 x0 → Keep s0 (f x0 x1)) : Keep s0 (State.generalCmd s q op f) := by
  unfold State.generalCmd
  repeat' (with_reducible first | assumption | apply hf | exact Keep.refl _ | apply State.running_keep | apply State.finishCmd_keep | fail_if_no_progress (refine Keep.mk' ?_ rfl) | (extract_lets -underBinder +onlyGivenNames x; (refine (fun (hx : Keep s0 x) => ?_) ?_); (on_goal 1 => try clear_value x); (on_goal 2 => (unfold x; clear x))) | (extract_lets -underBinder +onlyGivenNames x; try clear_value x) | split)

theorem State.dmaWrite_keep {s0 s : State} (h : Keep s0 s) (addr : Nat) (ws : List Word64) : Keep s0 (State.dmaWrite s addr ws).1 := by
  unfold State.dmaWrite
  repeat' (with_reducible first | assumption | exact Keep.refl _ | apply State.emit_keep | split)

end Sys2Proof.Machine
end

