-- ==== Sys2Proof/Laws/KeepCacheWork.lean ====
section
/-! SUPPORT. What the operations of Machine/CacheWork.lean keep (Keep). -/

set_option linter.unreachableTactic false
set_option linter.unusedTactic false
set_option linter.unusedVariables false

namespace Sys2Proof.Machine

theorem State.setCacheSt_keep {s0 s : State} (h : Keep s0 s) (st : Nat) : Keep s0 (State.setCacheSt s st) := by
  unfold State.setCacheSt
  repeat' (with_reducible first | assumption | exact Keep.refl _ | apply State.wr_keep)

theorem cleanRound_keep {s0 : State}  : ∀ (a0 : List Nat) (a1 : State), Keep s0 a1 → Keep s0 (cleanRound a0 a1) := by
  intro  a0
  induction a0 with
  | nil =>
    intro a1 h
    first | rw [cleanRound] | unfold cleanRound
    repeat' (with_reducible first | assumption | exact Keep.refl _ | apply State.writeBackWay_keep | fail_if_no_progress (refine Keep.mk' ?_ rfl) | (extract_lets -underBinder +onlyGivenNames x; (refine (fun (hx : Keep s0 x) => ?_) ?_); (on_goal 1 => try clear_value x); (on_goal 2 => (unfold x; clear x))) | (extract_lets -underBinder +onlyGivenNames x; try clear_value x) | split)
  | cons x xs ih =>
    intro a1 h
    first | rw [cleanRound] | unfold cleanRound
    repeat' (with_reducible first | assumption | apply ih | exact Keep.refl _ | apply State.writeBackWay_keep | fail_if_no_progress (refine Keep.mk' ?_ rfl) | (extract_lets -underBinder +onlyGivenNames x; (refine (fun (hx : Keep s0 x) => ?_) ?_); (on_goal 1 => try clear_value x); (on_goal 2 => (unfold x; clear x))) | (extract_lets -underBinder +onlyGivenNames x; try clear_value x) | split)

theorem State.cleaner_keep {s0 s : State} (h : Keep s0 s)  : Keep s0 (State.cleaner s) := by
  unfold State.cleaner
  repeat' (with_reducible first | assumption | exact Keep.refl _ | apply cleanRound_keep | apply Keep.foldl | intro _ | fail_if_no_progress (refine Keep.mk' ?_ rfl) | (extract_lets -underBinder +onlyGivenNames x; (refine (fun (hx : Keep s0 x) => ?_) ?_); (on_goal 1 => try clear_value x); (on_goal 2 => (unfold x; clear x))) | (extract_lets -underBinder +onlyGivenNames x; try clear_value x) | split)

theorem State.drainWay_keep {s0 s : State} (h : Keep s0 s) (i : Nat) : Keep s0 (State.drainWay s i) := by
  unfold State.drainWay
  repeat' (with_reducible first | assumption | exact Keep.refl _ | apply State.invalidate_keep | apply State.writeBackWay_keep | fail_if_no_progress (refine Keep.mk' ?_ rfl) | (extract_lets -underBinder +onlyGivenNames x; (refine (fun (hx : Keep s0 x) => ?_) ?_); (on_goal 1 => try clear_value x); (on_goal 2 => (unfold x; clear x))) | (extract_lets -underBinder +onlyGivenNames x; try clear_value x) | split)

theorem State.drainGo_keep {s0 s : State} (h : Keep s0 s)  : Keep s0 (State.drainGo s) := by
  unfold State.drainGo
  repeat' (with_reducible first | assumption | exact Keep.refl _ | apply State.wr_keep | apply State.bumpGen_keep | apply State.raise_keep | apply State.setCacheSt_keep | apply State.drainWay_keep | apply Keep.foldl | intro _ | (extract_lets -underBinder +onlyGivenNames x; (refine (fun (hx : Keep s0 x) => ?_) ?_); (on_goal 1 => try clear_value x); (on_goal 2 => (unfold x; clear x))) | exact KeepO.get (by assumption) rfl | exact KeepO.none | apply KeepO.some | (apply KeepO.map; intro _) | (extract_lets -underBinder +onlyGivenNames x; (refine (fun (hx : KeepO s0 x) => ?_) ?_); (on_goal 1 => try clear_value x); (on_goal 2 => (unfold x; clear x))) | (extract_lets -underBinder +onlyGivenNames x; try clear_value x) | split)

theorem State.cmdLine_keep {s0 s : State} (h : Keep s0 s) (c : CacheCmd) (k : Nat) : KeepO1 s0 (State.cmdLine s c k) := by
  unfold State.cmdLine
  repeat' (with_reducible first | assumption | exact Keep.refl _ | apply State.invalidate_keep | apply State.writeBackWay_keep | fail_if_no_progress (refine Keep.mk' ?_ rfl) | exact KeepO1.none | apply KeepO1.some | (extract_lets -underBinder +onlyGivenNames x; (refine (fun (hx : Keep s0 x) => ?_) ?_); (on_goal 1 => try clear_value x); (on_goal 2 => (unfold x; clear x))) | (extract_lets -underBinder +onlyGivenNames x; try clear_value x) | split)

theorem cmdLines_keep {s0 : State}  : ∀ (a0 : List Nat) (a1 : State) (a2 : CacheCmd) (a3 : List Nat), Keep s0 a1 → Keep s0 (cmdLines a0 a1 a2 a3).1 := by
  intro  a0
  induction a0 with
  | nil =>
    intro a1 a2 a3 h
    first | rw [cmdLines] | unfold cmdLines
    repeat' (with_reducible first | assumption | exact Keep.refl _ | apply State.cmdLine_keep | fail_if_no_progress (refine Keep.mk' ?_ rfl) | refine KeepO1.get ?_ (by assumption) | (extract_lets -underBinder +onlyGivenNames x; (refine (fun (hx : Keep s0 x) => ?_) ?_); (on_goal 1 => try clear_value x); (on_goal 2 => (unfold x; clear x))) | (extract_lets -underBinder +onlyGivenNames x; (refine (fun (hx : Keep s0 x.1) => ?_) ?_); (on_goal 1 => try clear_value x); (on_goal 2 => (unfold x; clear x))) | (extract_lets -underBinder +onlyGivenNames x; try clear_value x) | split)
  | cons x xs ih =>
    intro a1 a2 a3 h
    first | rw [cmdLines] | unfold cmdLines
    repeat' (with_reducible first | assumption | apply ih | exact Keep.refl _ | apply State.cmdLine_keep | fail_if_no_progress (refine Keep.mk' ?_ rfl) | refine KeepO1.get ?_ (by assumption) | (extract_lets -underBinder +onlyGivenNames x; (refine (fun (hx : Keep s0 x) => ?_) ?_); (on_goal 1 => try clear_value x); (on_goal 2 => (unfold x; clear x))) | (extract_lets -underBinder +onlyGivenNames x; (refine (fun (hx : Keep s0 x.1) => ?_) ?_); (on_goal 1 => try clear_value x); (on_goal 2 => (unfold x; clear x))) | (extract_lets -underBinder +onlyGivenNames x; try clear_value x) | split)

theorem State.cmdsGo_keep {s0 s : State} (h : Keep s0 s)  : Keep s0 (State.cmdsGo s) := by
  unfold State.cmdsGo
  repeat' (with_reducible first | assumption | exact Keep.refl _ | apply State.finishCmd_keep | apply cmdLines_keep | apply Keep.foldl | apply Keep.foldl_fst | apply Keep.foldl_snd | intro _ | fail_if_no_progress (refine Keep.mk' ?_ rfl) | refine Keep.of_fst (by assumption) ?_ | (extract_lets -underBinder +onlyGivenNames x; (refine (fun (hx : Keep s0 x) => ?_) ?_); (on_goal 1 => try clear_value x); (on_goal 2 => (unfold x; clear x))) | (extract_lets -underBinder +onlyGivenNames x; (refine (fun (hx : Keep s0 x.1) => ?_) ?_); (on_goal 1 => try clear_value x); (on_goal 2 => (unfold x; clear x))) | (extract_lets -underBinder +onlyGivenNames x; try clear_value x) | split)

theorem State.cacheWork_keep {s0 s : State} (h : Keep s0 s)  : Keep s0 (State.cacheWork s) := by
  unfold State.cacheWork
  repeat' (with_reducible first | assumption | exact Keep.refl _ | apply State.cleaner_keep | apply State.drainGo_keep | apply State.cmdsGo_keep)

end Sys2Proof.Machine
end

