-- ==== Sys2Proof/Laws/KeepSettle.lean ====
section
/-! SUPPORT. What the operations of Machine/Settle.lean keep (Keep). -/

set_option linter.unreachableTactic false
set_option linter.unusedTactic false
set_option linter.unusedVariables false

namespace Sys2Proof.Machine

theorem State.sendForwards_keep {s0 s : State} (h : Keep s0 s)  : Keep s0 (State.sendForwards s) := by
  unfold State.sendForwards
  repeat' (with_reducible first | assumption | exact Keep.refl _ | apply State.inc_keep | apply State.sendLink_keep | apply Keep.foldl | apply Keep.foldl_fst | apply Keep.foldl_snd | intro _ | fail_if_no_progress (refine Keep.mk' ?_ rfl) | (extract_lets -underBinder +onlyGivenNames x; (refine (fun (hx : Keep s0 x) => ?_) ?_); (on_goal 1 => try clear_value x); (on_goal 2 => (unfold x; clear x))) | (extract_lets -underBinder +onlyGivenNames x; try clear_value x) | split)

theorem State.placedHost_keep {s0 s : State} (h : Keep s0 s) (n : Nat) (o : Op) : Keep s0 (State.placedHost s n o) := by
  unfold State.placedHost
  repeat' (with_reducible first | assumption | exact Keep.refl _ | apply State.stage_keep | apply State.modOp_keep | apply State.rdxCount_keep | apply State.setQf_keep | apply State.stageQp_keep | apply State.freeOpCells_keep | fail_if_no_progress (refine Keep.mk' ?_ rfl) | (extract_lets -underBinder +onlyGivenNames x; (refine (fun (hx : Keep s0 x) => ?_) ?_); (on_goal 1 => try clear_value x); (on_goal 2 => (unfold x; clear x))) | (extract_lets -underBinder +onlyGivenNames x; try clear_value x) | split)

theorem State.endHolds_keep {s0 s : State} (h : Keep s0 s)  : Keep s0 (State.endHolds s) := by
  unfold State.endHolds
  repeat' (with_reducible first | assumption | exact Keep.refl _ | apply State.modOp_keep | apply State.placed_keep | apply State.dropOpHold_keep | apply Keep.foldl | apply Keep.foldl_fst | apply Keep.foldl_snd | intro _ | fail_if_no_progress (refine Keep.mk' ?_ rfl) | (extract_lets -underBinder +onlyGivenNames x; (refine (fun (hx : Keep s0 x) => ?_) ?_); (on_goal 1 => try clear_value x); (on_goal 2 => (unfold x; clear x))) | (extract_lets -underBinder +onlyGivenNames x; try clear_value x) | split)

theorem State.placedOps_keep {s0 s : State} (h : Keep s0 s)  : Keep s0 (State.placedOps s) := by
  unfold State.placedOps
  repeat' (with_reducible first | assumption | exact Keep.refl _ | apply State.placed_keep | apply State.placedHost_keep | apply Keep.foldl | intro _ | fail_if_no_progress (refine Keep.mk' ?_ rfl) | (extract_lets -underBinder +onlyGivenNames x; (refine (fun (hx : Keep s0 x) => ?_) ?_); (on_goal 1 => try clear_value x); (on_goal 2 => (unfold x; clear x))) | (extract_lets -underBinder +onlyGivenNames x; try clear_value x) | split)

theorem State.finishAll_keep {s0 s : State} (h : Keep s0 s)  : Keep s0 (State.finishAll s) := by
  unfold State.finishAll
  repeat' (with_reducible first | assumption | exact Keep.refl _ | apply State.raise_keep | apply State.modOp_keep | apply State.placed_keep | apply State.afterFree_keep | apply State.modQp_keep | apply State.removeOps_keep | apply State.release_keep | apply State.fwdFinish_keep | apply State.sendResp_keep | apply State.chainForTwin_keep | apply State.oweCredit_keep | apply State.chainFail_keep | apply State.chainStepDone_keep | apply State.chainOpsDone_keep | apply State.endHolds_keep | apply State.placedOps_keep | apply Keep.foldl | apply Keep.foldl_fst | apply Keep.foldl_snd | intro _ | fail_if_no_progress (refine Keep.mk' ?_ rfl) | refine Keep.of_fst (by assumption) ?_ | refine KeepO1.get ?_ (by assumption) | (extract_lets -underBinder +onlyGivenNames x; (refine (fun (hx : Keep s0 x) => ?_) ?_); (on_goal 1 => try clear_value x); (on_goal 2 => (unfold x; clear x))) | (extract_lets -underBinder +onlyGivenNames x; (refine (fun (hx : Keep s0 x.1) => ?_) ?_); (on_goal 1 => try clear_value x); (on_goal 2 => (unfold x; clear x))) | (extract_lets -underBinder +onlyGivenNames x; try clear_value x) | split)

theorem settleLoop_keep {s0 : State}  : ∀ (a0 : Nat) (a1 : State), Keep s0 a1 → Keep s0 (settleLoop a0 a1) := by
  intro  a0
  induction a0 with
  | zero =>
    intro a1 h
    first | rw [settleLoop] | unfold settleLoop
    repeat' (with_reducible first | assumption | exact Keep.refl _ | apply State.pump_keep | apply State.issueAll_keep | apply State.sendForwards_keep | apply State.finishAll_keep | refine Keep.of_fst (by assumption) ?_ | (extract_lets -underBinder +onlyGivenNames x; (refine (fun (hx : Keep s0 x) => ?_) ?_); (on_goal 1 => try clear_value x); (on_goal 2 => (unfold x; clear x))) | (extract_lets -underBinder +onlyGivenNames x; (refine (fun (hx : Keep s0 x.1) => ?_) ?_); (on_goal 1 => try clear_value x); (on_goal 2 => (unfold x; clear x))) | (extract_lets -underBinder +onlyGivenNames x; try clear_value x) | split)
  | succ n ih =>
    intro a1 h
    first | rw [settleLoop] | unfold settleLoop
    repeat' (with_reducible first | assumption | apply ih | exact Keep.refl _ | apply State.pump_keep | apply State.issueAll_keep | apply State.sendForwards_keep | apply State.finishAll_keep | refine Keep.of_fst (by assumption) ?_ | (extract_lets -underBinder +onlyGivenNames x; (refine (fun (hx : Keep s0 x) => ?_) ?_); (on_goal 1 => try clear_value x); (on_goal 2 => (unfold x; clear x))) | (extract_lets -underBinder +onlyGivenNames x; (refine (fun (hx : Keep s0 x.1) => ?_) ?_); (on_goal 1 => try clear_value x); (on_goal 2 => (unfold x; clear x))) | (extract_lets -underBinder +onlyGivenNames x; try clear_value x) | split)

theorem State.drainDone_keep {s0 s : State} (h : Keep s0 s)  : Keep s0 (State.drainDone s) := by
  unfold State.drainDone
  repeat' (with_reducible first | assumption | exact Keep.refl _ | apply State.drainUpdate_keep | apply State.finishCmd_keep | apply Keep.foldl | intro _ | fail_if_no_progress (refine Keep.mk' ?_ rfl) | (extract_lets -underBinder +onlyGivenNames x; (refine (fun (hx : Keep s0 x) => ?_) ?_); (on_goal 1 => try clear_value x); (on_goal 2 => (unfold x; clear x))) | (extract_lets -underBinder +onlyGivenNames x; try clear_value x) | split)

theorem State.batchDone_keep {s0 s : State} (h : Keep s0 s)  : Keep s0 (State.batchDone s) := by
  unfold State.batchDone
  repeat' (with_reducible first | assumption | exact Keep.refl _ | apply State.bumpGen_keep | apply State.finishCmd_keep | apply Keep.foldl | intro _ | fail_if_no_progress (refine Keep.mk' ?_ rfl) | (extract_lets -underBinder +onlyGivenNames x; (refine (fun (hx : Keep s0 x) => ?_) ?_); (on_goal 1 => try clear_value x); (on_goal 2 => (unfold x; clear x))) | (extract_lets -underBinder +onlyGivenNames x; try clear_value x) | split)

theorem State.tableDone_keep {s0 s : State} (h : Keep s0 s)  : Keep s0 (State.tableDone s) := by
  unfold State.tableDone
  repeat' (with_reducible first | assumption | exact Keep.refl _ | apply State.finishCmd_keep | apply Keep.foldl | intro _ | fail_if_no_progress (refine Keep.mk' ?_ rfl) | (extract_lets -underBinder +onlyGivenNames x; (refine (fun (hx : Keep s0 x) => ?_) ?_); (on_goal 1 => try clear_value x); (on_goal 2 => (unfold x; clear x))) | (extract_lets -underBinder +onlyGivenNames x; try clear_value x))

theorem State.runOn_keep {s0 s : State} (h : Keep s0 s)  : Keep s0 (State.runOn s) := by
  unfold State.runOn
  repeat' (with_reducible first | assumption | exact Keep.refl _ | apply settleLoop_keep)

theorem State.mirQuiesce_keep {s0 s : State} (h : Keep s0 s)  : Keep s0 (State.mirQuiesce s) := by
  unfold State.mirQuiesce
  repeat' (with_reducible first | assumption | exact Keep.refl _ | apply State.wr_keep | split)

theorem State.settle_keep {s0 s : State} (h : Keep s0 s)  : Keep s0 (State.settle s) := by
  unfold State.settle
  repeat' (with_reducible first | assumption | exact Keep.refl _ | apply State.tierWork_keep | apply State.tierQuiesce_keep | apply State.mirrorWork_keep | apply State.cacheWork_keep | apply State.drainDone_keep | apply State.batchDone_keep | apply State.tableDone_keep | apply State.runOn_keep | apply State.mirQuiesce_keep | (extract_lets -underBinder +onlyGivenNames x; (refine (fun (hx : Keep s0 x) => ?_) ?_); (on_goal 1 => try clear_value x); (on_goal 2 => (unfold x; clear x))) | (extract_lets -underBinder +onlyGivenNames x; have hd : x.dram = x.dram := rfl) | (extract_lets -underBinder +onlyGivenNames x; try clear_value x) | split)

end Sys2Proof.Machine
end

