-- ==== Sys2Proof/Laws/KeepDram.lean ====
section
/-! SUPPORT. What the operations of Machine/Dram.lean keep (Keep). -/

set_option linter.unreachableTactic false
set_option linter.unusedTactic false
set_option linter.unusedVariables false

namespace Sys2Proof.Machine

theorem State.fallbacks_keep {s0 s : State} (h : Keep s0 s) (c n : Nat) : Keep s0 (State.fallbacks s c n) := by
  unfold State.fallbacks
  repeat' (with_reducible first | assumption | exact Keep.refl _ | apply State.raise_keep | apply Keep.foldl | intro _)

theorem State.rankInit_keep {s0 s : State} (h : Keep s0 s) (c : Nat) : Keep s0 (State.rankInit s c) := by
  unfold State.rankInit
  repeat' (with_reducible first | assumption | exact Keep.refl _ | apply State.wr_keep | apply State.setRankSt_keep | apply Keep.foldl | intro _ | fail_if_no_progress (refine Keep.mk' ?_ rfl) | (extract_lets -underBinder +onlyGivenNames x; (refine (fun (hx : Keep s0 x) => ?_) ?_); (on_goal 1 => try clear_value x); (on_goal 2 => (unfold x; clear x))) | (extract_lets -underBinder +onlyGivenNames x; have hd : x.dram = x.dram := rfl) | (extract_lets -underBinder +onlyGivenNames x; have hf := fun z => x z) | (extract_lets -underBinder +onlyGivenNames x; try clear_value x) | split)

theorem State.trainChan_keep {s0 s : State} (h : Keep s0 s) (c : Nat) (pop : Word64) (ser0 : Nat) (d1 : Spd) (trained : List Bool) : Keep s0 (State.trainChan s c pop ser0 d1 trained) := by
  unfold State.trainChan
  repeat' (with_reducible first | assumption | exact Keep.refl _ | apply State.setReg_keep | apply State.wr_keep | apply State.raise_keep | apply State.modChan_keep | apply State.setChanSt_keep | apply State.fallbacks_keep | apply State.rankInit_keep | fail_if_no_progress (refine Keep.mk' ?_ rfl) | (extract_lets -underBinder +onlyGivenNames x; (refine (fun (hx : Keep s0 x) => ?_) ?_); (on_goal 1 => try clear_value x); (on_goal 2 => (unfold x; clear x))) | (extract_lets -underBinder +onlyGivenNames x; try clear_value x) | split)

theorem State.trainDone_keep {s0 s : State} (h : Keep s0 s) (c : Nat) (pop : Word64) (ser0 : Nat) (d1 : Spd) (trained : List Bool) : Keep s0 (State.trainDone s c pop ser0 d1 trained) := by
  unfold State.trainDone
  repeat' (with_reducible first | assumption | exact Keep.refl _ | apply State.setChanSt_keep | apply State.trainNext_keep | apply State.trainChan_keep | split)

theorem execTrainDone_keep {s0 s : State} (h : Keep s0 s) (channel : Nat) (pop : Word64) (serial0 : Nat) (dimm1 : Spd) (trained : List Bool) : ∃ t1, (execTrainDone channel pop serial0 dimm1 trained s) = .next t1 ∧ Keep s0 t1 := by
  unfold execTrainDone
  refine ⟨_, rfl, ?_⟩
  repeat' (with_reducible first | assumption | exact Keep.refl _ | apply State.trainDone_keep)

theorem State.issueRefresh_keep {s0 s : State} (h : Keep s0 s) (c r n : Nat) : Keep s0 (State.issueRefresh s c r n) := by
  unfold State.issueRefresh
  repeat' (with_reducible first | assumption | exact Keep.refl _ | apply State.modChan_keep | apply State.dchCount_keep | fail_if_no_progress (refine Keep.mk' ?_ rfl) | (extract_lets -underBinder +onlyGivenNames x; (refine (fun (hx : Keep s0 x) => ?_) ?_); (on_goal 1 => try clear_value x); (on_goal 2 => (unfold x; clear x))) | (extract_lets -underBinder +onlyGivenNames x; try clear_value x))

theorem State.refreshPaid_keep {s0 s : State} (h : Keep s0 s) (c : Nat) : Keep s0 (State.refreshPaid s c) := by
  unfold State.refreshPaid
  repeat' (with_reducible first | assumption | exact Keep.refl _ | apply State.issueRefresh_keep | apply Keep.foldl | intro _ | split)

theorem State.dramIssue_keep {s0 s : State} (h : Keep s0 s) (sub : Nat) (ready : List Nat) : Keep s0 (State.dramIssue s sub ready) := by
  unfold State.dramIssue
  repeat' (with_reducible first | assumption | exact Keep.refl _ | apply State.setChan_keep | apply State.modChan_keep | apply State.dchCount_keep | apply State.flueIssued_keep | apply State.hit_keep | apply State.refreshPaid_keep | fail_if_no_progress (refine Keep.mk' ?_ rfl) | (extract_lets -underBinder +onlyGivenNames x; (refine (fun (hx : Keep s0 x) => ?_) ?_); (on_goal 1 => try clear_value x); (on_goal 2 => (unfold x; clear x))) | (extract_lets -underBinder +onlyGivenNames x; try clear_value x) | split)

theorem execDramCommandIssue_keep {s0 s : State} (h : Keep s0 s) (sub : Nat) (ready : List Nat) : ∃ t1, (execDramCommandIssue sub ready s) = .next t1 ∧ Keep s0 t1 := by
  unfold execDramCommandIssue
  refine ⟨_, rfl, ?_⟩
  repeat' (with_reducible first | assumption | exact Keep.refl _ | apply State.dramIssue_keep)

theorem State.refreshDue_keep {s0 s : State} (h : Keep s0 s) (c r : Nat) : Keep s0 (State.refreshDue s c r) := by
  unfold State.refreshDue
  repeat' (with_reducible first | assumption | exact Keep.refl _ | apply State.upTo_keep | apply State.modChan_keep | apply State.dchCount_keep | apply State.issueRefresh_keep | fail_if_no_progress (refine Keep.mk' ?_ rfl) | (extract_lets -underBinder +onlyGivenNames x; (refine (fun (hx : Keep s0 x) => ?_) ?_); (on_goal 1 => try clear_value x); (on_goal 2 => (unfold x; clear x))) | (extract_lets -underBinder +onlyGivenNames x; try clear_value x) | split)

theorem execRefresh_keep {s0 s : State} (h : Keep s0 s) (channel rank : Nat) : ∃ t1, (execRefresh channel rank s) = .next t1 ∧ Keep s0 t1 := by
  unfold execRefresh
  refine ⟨_, rfl, ?_⟩
  repeat' (with_reducible first | assumption | exact Keep.refl _ | apply State.refreshDue_keep)

theorem State.sensedTick_keep {s0 s : State} (h : Keep s0 s) (c : Nat) : Keep s0 (State.sensedTick s c) := by
  unfold State.sensedTick
  repeat' (with_reducible first | assumption | exact Keep.refl _ | apply State.upTo_keep | apply State.modChan_keep | fail_if_no_progress (refine Keep.mk' ?_ rfl) | (extract_lets -underBinder +onlyGivenNames x; (refine (fun (hx : Keep s0 x) => ?_) ?_); (on_goal 1 => try clear_value x); (on_goal 2 => (unfold x; clear x))) | (extract_lets -underBinder +onlyGivenNames x; try clear_value x))

theorem State.throttleStep_keep {s0 s : State} (h : Keep s0 s) (c t0 t1 : Nat) : Keep s0 (State.throttleStep s c t0 t1) := by
  unfold State.throttleStep
  repeat' (with_reducible first | assumption | exact Keep.refl _ | apply State.wr_keep | apply State.raise_keep | apply State.modChan_keep | apply State.dchCount_keep | fail_if_no_progress (refine Keep.mk' ?_ rfl) | (extract_lets -underBinder +onlyGivenNames x; (refine (fun (hx : Keep s0 x) => ?_) ?_); (on_goal 1 => try clear_value x); (on_goal 2 => (unfold x; clear x))) | (extract_lets -underBinder +onlyGivenNames x; try clear_value x) | split)

theorem State.dimmSensors_keep {s0 s : State} (h : Keep s0 s) (c t0 t1 : Nat) : Keep s0 (State.dimmSensors s c t0 t1) := by
  unfold State.dimmSensors
  repeat' (with_reducible first | assumption | exact Keep.refl _ | apply State.wr_keep | apply State.raiseIf_keep | apply State.sensedTick_keep | apply State.throttleStep_keep | (extract_lets -underBinder +onlyGivenNames x; (refine (fun (hx : Keep s0 x) => ?_) ?_); (on_goal 1 => try clear_value x); (on_goal 2 => (unfold x; clear x))) | (extract_lets -underBinder +onlyGivenNames x; try clear_value x))

theorem execDimmSensorRead_keep {s0 s : State} (h : Keep s0 s) (channel slot0 slot1 : Nat) : ∃ t1, (execDimmSensorRead channel slot0 slot1 s) = .next t1 ∧ Keep s0 t1 := by
  unfold execDimmSensorRead
  refine ⟨_, rfl, ?_⟩
  repeat' (with_reducible first | assumption | exact Keep.refl _ | apply State.dimmSensors_keep)

theorem State.srEntry_keep {s0 s : State} (h : Keep s0 s) (c : Nat) : Keep s0 (State.srEntry s c) := by
  unfold State.srEntry
  repeat' (with_reducible first | assumption | exact Keep.refl _ | apply State.upTo_keep | apply State.modChan_keep | apply State.setChanSt_keep | apply State.dchCount_keep | fail_if_no_progress (refine Keep.mk' ?_ rfl) | (extract_lets -underBinder +onlyGivenNames x; (refine (fun (hx : Keep s0 x) => ?_) ?_); (on_goal 1 => try clear_value x); (on_goal 2 => (unfold x; clear x))) | (extract_lets -underBinder +onlyGivenNames x; try clear_value x) | split)

theorem execSelfRefreshEntry_keep {s0 s : State} (h : Keep s0 s) (channel : Nat) : ∃ t1, (execSelfRefreshEntry channel s) = .next t1 ∧ Keep s0 t1 := by
  unfold execSelfRefreshEntry
  refine ⟨_, rfl, ?_⟩
  repeat' (with_reducible first | assumption | exact Keep.refl _ | apply State.srEntry_keep)

theorem State.srExit_keep {s0 s : State} (h : Keep s0 s) (c : Nat) : Keep s0 (State.srExit s c) := by
  unfold State.srExit
  repeat' (with_reducible first | assumption | exact Keep.refl _ | apply State.modChan_keep | apply State.setChanSt_keep | apply State.settle_keep | apply State.issueRefresh_keep | apply Keep.foldl | apply Keep.foldl_fst | apply Keep.foldl_snd | intro _ | fail_if_no_progress (refine Keep.mk' ?_ rfl) | (extract_lets -underBinder +onlyGivenNames x; (refine (fun (hx : Keep s0 x) => ?_) ?_); (on_goal 1 => try clear_value x); (on_goal 2 => (unfold x; clear x))) | (extract_lets -underBinder +onlyGivenNames x; try clear_value x) | split)

theorem execSelfRefreshExit_keep {s0 s : State} (h : Keep s0 s) (channel : Nat) : ∃ t1, (execSelfRefreshExit channel s) = .next t1 ∧ Keep s0 t1 := by
  unfold execSelfRefreshExit
  refine ⟨_, rfl, ?_⟩
  repeat' (with_reducible first | assumption | exact Keep.refl _ | apply State.srExit_keep)

theorem State.driftCheck_keep {s0 s : State} (h : Keep s0 s) (c sub drift : Nat) : Keep s0 (State.driftCheck s c sub drift) := by
  unfold State.driftCheck
  repeat' (with_reducible first | assumption | exact Keep.refl _ | apply State.upTo_keep | apply State.modChan_keep | apply State.dchCount_keep | fail_if_no_progress (refine Keep.mk' ?_ rfl) | (extract_lets -underBinder +onlyGivenNames x; (refine (fun (hx : Keep s0 x) => ?_) ?_); (on_goal 1 => try clear_value x); (on_goal 2 => (unfold x; clear x))) | (extract_lets -underBinder +onlyGivenNames x; try clear_value x) | split)

theorem execDriftCheck_keep {s0 s : State} (h : Keep s0 s) (channel sub driftPs : Nat) : ∃ t1, (execDriftCheck channel sub driftPs s) = .next t1 ∧ Keep s0 t1 := by
  unfold execDriftCheck
  refine ⟨_, rfl, ?_⟩
  repeat' (with_reducible first | assumption | exact Keep.refl _ | apply State.driftCheck_keep)

theorem State.shortDone_keep {s0 s : State} (h : Keep s0 s) (sub : Nat) : Keep s0 (State.shortDone s sub) := by
  unfold State.shortDone
  repeat' (with_reducible first | assumption | exact Keep.refl _ | apply State.modChan_keep | fail_if_no_progress (refine Keep.mk' ?_ rfl) | (extract_lets -underBinder +onlyGivenNames x; (refine (fun (hx : Keep s0 x) => ?_) ?_); (on_goal 1 => try clear_value x); (on_goal 2 => (unfold x; clear x))) | (extract_lets -underBinder +onlyGivenNames x; try clear_value x))

theorem execRetrainShortDone_keep {s0 s : State} (h : Keep s0 s) (sub : Nat) : ∃ t1, (execRetrainShortDone sub s) = .next t1 ∧ Keep s0 t1 := by
  unfold execRetrainShortDone
  refine ⟨_, rfl, ?_⟩
  repeat' (with_reducible first | assumption | exact Keep.refl _ | apply State.shortDone_keep)

theorem State.startRetrain_keep {s0 s : State} (h : Keep s0 s) (c : Nat) : Keep s0 (State.startRetrain s c) := by
  unfold State.startRetrain
  repeat' (with_reducible first | assumption | exact Keep.refl _ | apply State.raise_keep | apply State.modChan_keep | apply State.setChanSt_keep | apply State.dchCount_keep | fail_if_no_progress (refine Keep.mk' ?_ rfl) | (extract_lets -underBinder +onlyGivenNames x; (refine (fun (hx : Keep s0 x) => ?_) ?_); (on_goal 1 => try clear_value x); (on_goal 2 => (unfold x; clear x))) | (extract_lets -underBinder +onlyGivenNames x; try clear_value x))

theorem State.dramAlert_keep {s0 s : State} (h : Keep s0 s) (c : Nat) (writeCrc : Bool) : Keep s0 (State.dramAlert s c writeCrc) := by
  unfold State.dramAlert
  repeat' (with_reducible first | assumption | exact Keep.refl _ | apply State.modChan_keep | apply State.dchCount_keep | apply State.startRetrain_keep | fail_if_no_progress (refine Keep.mk' ?_ rfl) | (extract_lets -underBinder +onlyGivenNames x; (refine (fun (hx : Keep s0 x) => ?_) ?_); (on_goal 1 => try clear_value x); (on_goal 2 => (unfold x; clear x))) | (extract_lets -underBinder +onlyGivenNames x; try clear_value x) | split)

theorem execDramAlert_keep {s0 s : State} (h : Keep s0 s) (channel _sub : Nat) (writeCrc : Bool) : ∃ t1, (execDramAlert channel _sub writeCrc s) = .next t1 ∧ Keep s0 t1 := by
  unfold execDramAlert
  refine ⟨_, rfl, ?_⟩
  repeat' (with_reducible first | assumption | exact Keep.refl _ | apply State.dramAlert_keep)

theorem State.retireDone_keep {s0 s : State} (h : Keep s0 s) (c : Nat) : Keep s0 (State.retireDone s c) := by
  unfold State.retireDone
  repeat' (with_reducible first | assumption | exact Keep.refl _ | apply State.modChan_keep | apply State.finishCmd_keep | apply Keep.foldl | intro _ | fail_if_no_progress (refine Keep.mk' ?_ rfl) | (extract_lets -underBinder +onlyGivenNames x; (refine (fun (hx : Keep s0 x) => ?_) ?_); (on_goal 1 => try clear_value x); (on_goal 2 => (unfold x; clear x))) | (extract_lets -underBinder +onlyGivenNames x; try clear_value x))

theorem State.retrainDone_keep {s0 s : State} (h : Keep s0 s) (c : Nat) (trained : List Bool) : Keep s0 (State.retrainDone s c trained) := by
  unfold State.retrainDone
  repeat' (with_reducible first | assumption | exact Keep.refl _ | apply State.wr_keep | apply State.raise_keep | apply State.modChan_keep | apply State.setChanSt_keep | apply State.retireRank_keep | apply State.finishCmd_keep | apply State.settle_keep | apply State.fallbacks_keep | apply State.retireDone_keep | apply Keep.foldl | apply Keep.foldl_fst | apply Keep.foldl_snd | intro _ | fail_if_no_progress (refine Keep.mk' ?_ rfl) | (extract_lets -underBinder +onlyGivenNames x; (refine (fun (hx : Keep s0 x) => ?_) ?_); (on_goal 1 => try clear_value x); (on_goal 2 => (unfold x; clear x))) | (extract_lets -underBinder +onlyGivenNames x; try clear_value x) | split)

theorem execRetrainDone_keep {s0 s : State} (h : Keep s0 s) (channel : Nat) (trained : List Bool) : ∃ t1, (execRetrainDone channel trained s) = .next t1 ∧ Keep s0 t1 := by
  unfold execRetrainDone
  refine ⟨_, rfl, ?_⟩
  repeat' (with_reducible first | assumption | exact Keep.refl _ | apply State.retrainDone_keep)

theorem State.sbFault_keep {s0 s : State} (h : Keep s0 s) (c slot : Nat) : Keep s0 (State.sbFault s c slot) := by
  unfold State.sbFault
  repeat' (with_reducible first | assumption | exact Keep.refl _ | apply State.raise_keep | apply State.retireRank_keep | apply State.retireDone_keep | apply Keep.foldl | intro _ | (extract_lets -underBinder +onlyGivenNames x; (refine (fun (hx : Keep s0 x) => ?_) ?_); (on_goal 1 => try clear_value x); (on_goal 2 => (unfold x; clear x))) | (extract_lets -underBinder +onlyGivenNames x; try clear_value x) | split)

theorem execSbFault_keep {s0 s : State} (h : Keep s0 s) (channel slot : Nat) : ∃ t1, (execSbFault channel slot s) = .next t1 ∧ Keep s0 t1 := by
  unfold execSbFault
  refine ⟨_, rfl, ?_⟩
  repeat' (with_reducible first | assumption | exact Keep.refl _ | apply State.sbFault_keep)

theorem State.dchRetrain_keep {s0 s : State} (h : Keep s0 s) (q : Nat) : Keep s0 (State.dchRetrain s q) := by
  unfold State.dchRetrain
  repeat' (with_reducible first | assumption | intro _ | exact Keep.refl _ | apply State.modChan_keep | apply State.finishCmd_keep | apply State.blockCmd_keep | apply State.startRetrain_keep | fail_if_no_progress (refine Keep.mk' ?_ rfl) | (extract_lets -underBinder +onlyGivenNames x; (refine (fun (hx : Keep s0 x) => ?_) ?_); (on_goal 1 => try clear_value x); (on_goal 2 => (unfold x; clear x))) | (extract_lets -underBinder +onlyGivenNames x; try clear_value x) | split)

theorem execDchRetrain_keep {s0 s : State} (h : Keep s0 s) (q : Nat) : ∃ t1, (execDchRetrain q s) = .next t1 ∧ Keep s0 t1 := by
  unfold execDchRetrain
  refine ⟨_, rfl, ?_⟩
  repeat' (with_reducible first | assumption | exact Keep.refl _ | apply State.dchRetrain_keep)

theorem State.dchRetire_keep {s0 s : State} (h : Keep s0 s) (q : Nat) : Keep s0 (State.dchRetire s q) := by
  unfold State.dchRetire
  repeat' (with_reducible first | assumption | intro _ | exact Keep.refl _ | apply State.modChan_keep | apply State.retireRank_keep | apply State.finishCmd_keep | apply State.blockCmd_keep | apply State.retireDone_keep | fail_if_no_progress (refine Keep.mk' ?_ rfl) | (extract_lets -underBinder +onlyGivenNames x; (refine (fun (hx : Keep s0 x) => ?_) ?_); (on_goal 1 => try clear_value x); (on_goal 2 => (unfold x; clear x))) | (extract_lets -underBinder +onlyGivenNames x; try clear_value x) | split)

theorem execDchRetire_keep {s0 s : State} (h : Keep s0 s) (q : Nat) : ∃ t1, (execDchRetire q s) = .next t1 ∧ Keep s0 t1 := by
  unfold execDchRetire
  refine ⟨_, rfl, ?_⟩
  repeat' (with_reducible first | assumption | exact Keep.refl _ | apply State.dchRetire_keep)

theorem State.dchSbRead_keep {s0 s : State} (h : Keep s0 s) (q : Nat) (answer : Option (List Byte)) : Keep s0 (State.dchSbRead s q answer) := by
  unfold State.dchSbRead
  repeat' (with_reducible first | assumption | intro _ | exact Keep.refl _ | apply State.finishCmd_keep | apply State.blockCmd_keep | apply State.dmaWrite_keep | fail_if_no_progress (refine Keep.mk' ?_ rfl) | refine Keep.of_fst (by assumption) ?_ | (extract_lets -underBinder +onlyGivenNames x; (refine (fun (hx : Keep s0 x) => ?_) ?_); (on_goal 1 => try clear_value x); (on_goal 2 => (unfold x; clear x))) | (extract_lets -underBinder +onlyGivenNames x; (refine (fun (hx : Keep s0 x.1) => ?_) ?_); (on_goal 1 => try clear_value x); (on_goal 2 => (unfold x; clear x))) | (extract_lets -underBinder +onlyGivenNames x; try clear_value x) | split)

theorem execDchSbRead_keep {s0 s : State} (h : Keep s0 s) (q : Nat) (answer : Option (List Byte)) : ∃ t1, (execDchSbRead q answer s) = .next t1 ∧ Keep s0 t1 := by
  unfold execDchSbRead
  refine ⟨_, rfl, ?_⟩
  repeat' (with_reducible first | assumption | exact Keep.refl _ | apply State.dchSbRead_keep)

end Sys2Proof.Machine
end

