-- ==== Sys2Proof/Laws/KeepMedia.lean ====
section
/-! SUPPORT. What the operations of Machine/Media.lean keep (Keep). -/

set_option linter.unreachableTactic false
set_option linter.unusedTactic false
set_option linter.unusedVariables false

namespace Sys2Proof.Machine

theorem State.slowCheck_keep {s0 s : State} (h : Keep s0 s) (c d : Nat) (slc : Bool) : Keep s0 (State.slowCheck s c d slc) := by
  unfold State.slowCheck
  repeat' (with_reducible first | assumption | exact Keep.refl _ | apply State.raise_keep | apply State.setDieSt_keep | apply State.mediaRecompute_keep | (extract_lets -underBinder +onlyGivenNames x; (refine (fun (hx : Keep s0 x) => ?_) ?_); (on_goal 1 => try clear_value x); (on_goal 2 => (unfold x; clear x))) | exact KeepO.get (by assumption) rfl | exact KeepO.none | apply KeepO.some | (apply KeepO.map; intro _) | (extract_lets -underBinder +onlyGivenNames x; (refine (fun (hx : KeepO s0 x) => ?_) ?_); (on_goal 1 => try clear_value x); (on_goal 2 => (unfold x; clear x))) | (extract_lets -underBinder +onlyGivenNames x; have hf := fun z => x z) | (extract_lets -underBinder +onlyGivenNames x; try clear_value x) | split)

theorem State.reprogram_keep {s0 s : State} (h : Keep s0 s) (a : Nat) (p : Prog) : Keep s0 (State.reprogram s a p) := by
  unfold State.reprogram
  repeat' (with_reducible first | assumption | exact Keep.refl _ | apply State.setPte_keep | apply State.progEnds_keep | apply State.startProg_keep | apply Keep.foldl | apply Keep.foldl_fst | apply Keep.foldl_snd | intro _ | fail_if_no_progress (refine Keep.mk' ?_ rfl) | refine KeepO2.get ?_ (by assumption) | (extract_lets -underBinder +onlyGivenNames x; (refine (fun (hx : Keep s0 x) => ?_) ?_); (on_goal 1 => try clear_value x); (on_goal 2 => (unfold x; clear x))) | exact KeepO.get (by assumption) rfl | exact KeepO.none | apply KeepO.some | (apply KeepO.map; intro _) | (extract_lets -underBinder +onlyGivenNames x; (refine (fun (hx : KeepO s0 x) => ?_) ?_); (on_goal 1 => try clear_value x); (on_goal 2 => (unfold x; clear x))) | (extract_lets -underBinder +onlyGivenNames x; have hd : x.dram = x.dram := rfl) | (extract_lets -underBinder +onlyGivenNames x; try clear_value x) | split)

theorem State.retireCheck_keep {s0 s : State} (h : Keep s0 s)  : Keep s0 (State.retireCheck s) := by
  unfold State.retireCheck
  repeat' (with_reducible first | assumption | exact Keep.refl _ | apply State.raise_keep | apply State.setDieSt_keep | apply State.mediaRecompute_keep | apply State.finishCmd_keep | apply Keep.foldl | intro _ | fail_if_no_progress (refine Keep.mk' ?_ rfl) | (extract_lets -underBinder +onlyGivenNames x; (refine (fun (hx : Keep s0 x) => ?_) ?_); (on_goal 1 => try clear_value x); (on_goal 2 => (unfold x; clear x))) | (extract_lets -underBinder +onlyGivenNames x; try clear_value x) | split)

theorem State.dieFails_keep {s0 s : State} (h : Keep s0 s) (c d : Nat) : Keep s0 (State.dieFails s c d) := by
  unfold State.dieFails
  repeat' (with_reducible first | assumption | exact Keep.refl _ | apply State.raise_keep | apply State.setDieSt_keep | apply State.mediaRecompute_keep | apply State.moveUnits_keep | apply State.reprogram_keep | apply State.retireCheck_keep | apply Keep.foldl | intro _ | (extract_lets -underBinder +onlyGivenNames x; (refine (fun (hx : Keep s0 x) => ?_) ?_); (on_goal 1 => try clear_value x); (on_goal 2 => (unfold x; clear x))) | (extract_lets -underBinder +onlyGivenNames x; try clear_value x) | split)

theorem State.mediaGoOn_keep {s0 s : State} (h : Keep s0 s)  : Keep s0 (State.mediaGoOn s) := by
  unfold State.mediaGoOn
  repeat' (with_reducible first | assumption | exact Keep.refl _ | apply State.eraseCheck_keep | apply State.reclaimCheck_keep | apply State.foldCheck_keep | apply State.settle_keep | apply State.retireCheck_keep)

theorem State.closeFull_keep {s0 s : State} (h : Keep s0 s) (a stream : Nat) (slc : Bool) : Keep s0 (State.closeFull s a stream slc) := by
  unfold State.closeFull
  repeat' (with_reducible first | assumption | exact Keep.refl _ | apply State.closeSb_keep | fail_if_no_progress (refine Keep.mk' ?_ rfl) | (extract_lets -underBinder +onlyGivenNames x; (refine (fun (hx : Keep s0 x) => ?_) ?_); (on_goal 1 => try clear_value x); (on_goal 2 => (unfold x; clear x))) | (extract_lets -underBinder +onlyGivenNames x; try clear_value x) | split)

theorem State.mapUnit_keep {s0 s : State} (h : Keep s0 s) (a : Nat) (p : Prog) : Keep s0 (State.mapUnit s a p) := by
  unfold State.mapUnit
  repeat' (with_reducible first | assumption | exact Keep.refl _ | apply State.setPte_keep | apply State.setSb_keep | apply State.jrn_keep | apply State.dropUnit_keep | fail_if_no_progress (refine Keep.mk' ?_ rfl) | (extract_lets -underBinder +onlyGivenNames x; (refine (fun (hx : Keep s0 x) => ?_) ?_); (on_goal 1 => try clear_value x); (on_goal 2 => (unfold x; clear x))) | exact KeepO.get (by assumption) rfl | exact KeepO.none | apply KeepO.some | (apply KeepO.map; intro _) | (extract_lets -underBinder +onlyGivenNames x; (refine (fun (hx : KeepO s0 x) => ?_) ?_); (on_goal 1 => try clear_value x); (on_goal 2 => (unfold x; clear x))) | (extract_lets -underBinder +onlyGivenNames x; try clear_value x) | split)

theorem State.programMaps_keep {s0 s : State} (h : Keep s0 s) (a : Nat) (p : Prog) : Keep s0 (State.programMaps s a p) := by
  unfold State.programMaps
  repeat' (with_reducible first | assumption | exact Keep.refl _ | apply State.dramTaken_keep | apply State.jrn_keep | apply State.mapUnit_keep | apply Keep.foldl | apply Keep.foldl_fst | apply Keep.foldl_snd | intro _ | fail_if_no_progress (refine Keep.mk' ?_ rfl) | (extract_lets -underBinder +onlyGivenNames x; (refine (fun (hx : Keep s0 x) => ?_) ?_); (on_goal 1 => try clear_value x); (on_goal 2 => (unfold x; clear x))) | exact KeepO.get (by assumption) rfl | exact KeepO.none | apply KeepO.some | (apply KeepO.map; intro _) | (extract_lets -underBinder +onlyGivenNames x; (refine (fun (hx : KeepO s0 x) => ?_) ?_); (on_goal 1 => try clear_value x); (on_goal 2 => (unfold x; clear x))) | (extract_lets -underBinder +onlyGivenNames x; have hd : x.dram = x.dram := rfl) | (extract_lets -underBinder +onlyGivenNames x; try clear_value x) | split)

theorem State.programDone_keep {s0 s : State} (h : Keep s0 s) (a ns : Nat) : Keep s0 (State.programDone s a ns) := by
  unfold State.programDone
  repeat' (with_reducible first | assumption | exact Keep.refl _ | apply State.medCount_keep | apply State.nchCount_keep | apply State.modStat_keep | apply State.progEnds_keep | apply State.slowCheck_keep | apply State.mediaGoOn_keep | apply State.closeFull_keep | apply State.programMaps_keep | fail_if_no_progress (refine Keep.mk' ?_ rfl) | (extract_lets -underBinder +onlyGivenNames x; (refine (fun (hx : Keep s0 x) => ?_) ?_); (on_goal 1 => try clear_value x); (on_goal 2 => (unfold x; clear x))) | (extract_lets -underBinder +onlyGivenNames x; try clear_value x) | split)

theorem execProgramDone_keep {s0 s : State} (h : Keep s0 s) (addr ns : Nat) : ∃ t1, (execProgramDone addr ns s) = .next t1 ∧ Keep s0 t1 := by
  unfold execProgramDone
  refine ⟨_, rfl, ?_⟩
  repeat' (with_reducible first | assumption | exact Keep.refl _ | apply State.programDone_keep)

theorem State.programFail_keep {s0 s : State} (h : Keep s0 s) (a : Nat) : Keep s0 (State.programFail s a) := by
  unfold State.programFail
  repeat' (with_reducible first | assumption | exact Keep.refl _ | apply State.medCount_keep | apply State.modStat_keep | apply State.mediaRecompute_keep | apply State.badBlock_keep | apply State.reprogram_keep | apply State.dieFails_keep | apply State.mediaGoOn_keep | fail_if_no_progress (refine Keep.mk' ?_ rfl) | refine Keep.of_fst (by assumption) ?_ | (extract_lets -underBinder +onlyGivenNames x; (refine (fun (hx : Keep s0 x) => ?_) ?_); (on_goal 1 => try clear_value x); (on_goal 2 => (unfold x; clear x))) | (extract_lets -underBinder +onlyGivenNames x; (refine (fun (hx : Keep s0 x.1) => ?_) ?_); (on_goal 1 => try clear_value x); (on_goal 2 => (unfold x; clear x))) | (extract_lets -underBinder +onlyGivenNames x; try clear_value x) | split)

theorem execProgramFail_keep {s0 s : State} (h : Keep s0 s) (addr : Nat) : ∃ t1, (execProgramFail addr s) = .next t1 ∧ Keep s0 t1 := by
  unfold execProgramFail
  refine ⟨_, rfl, ?_⟩
  repeat' (with_reducible first | assumption | exact Keep.refl _ | apply State.programFail_keep)

theorem State.wearStats_keep {s0 s : State} (h : Keep s0 s)  : Keep s0 (State.wearStats s) := by
  unfold State.wearStats
  repeat' (with_reducible first | assumption | exact Keep.refl _ | apply State.wr_keep | apply State.raiseIf_keep | apply Keep.foldl | intro _ | fail_if_no_progress (refine Keep.mk' ?_ rfl) | (extract_lets -underBinder +onlyGivenNames x; (refine (fun (hx : Keep s0 x) => ?_) ?_); (on_goal 1 => try clear_value x); (on_goal 2 => (unfold x; clear x))) | exact KeepO.get (by assumption) rfl | exact KeepO.none | apply KeepO.some | (apply KeepO.map; intro _) | (extract_lets -underBinder +onlyGivenNames x; (refine (fun (hx : KeepO s0 x) => ?_) ?_); (on_goal 1 => try clear_value x); (on_goal 2 => (unfold x; clear x))) | (extract_lets -underBinder +onlyGivenNames x; try clear_value x) | split)

theorem State.eraseDone_keep {s0 s : State} (h : Keep s0 s) (g k ns : Nat) : Keep s0 (State.eraseDone s g k ns) := by
  unfold State.eraseDone
  repeat' (with_reducible first | assumption | exact Keep.refl _ | apply State.medCount_keep | apply State.nchCount_keep | apply State.setSb_keep | apply State.modStat_keep | apply State.jrn_keep | apply State.mediaRecompute_keep | apply State.mediaGoOn_keep | apply State.wearStats_keep | apply Keep.foldl | apply Keep.foldl_fst | apply Keep.foldl_snd | intro _ | fail_if_no_progress (refine Keep.mk' ?_ rfl) | (extract_lets -underBinder +onlyGivenNames x; (refine (fun (hx : Keep s0 x) => ?_) ?_); (on_goal 1 => try clear_value x); (on_goal 2 => (unfold x; clear x))) | (extract_lets -underBinder +onlyGivenNames x; try clear_value x) | split)

theorem execEraseDone_keep {s0 s : State} (h : Keep s0 s) (group block ns : Nat) : ∃ t1, (execEraseDone group block ns s) = .next t1 ∧ Keep s0 t1 := by
  unfold execEraseDone
  refine ⟨_, rfl, ?_⟩
  repeat' (with_reducible first | assumption | exact Keep.refl _ | apply State.eraseDone_keep)

theorem State.eraseFail_keep {s0 s : State} (h : Keep s0 s) (c d pl k : Nat) : Keep s0 (State.eraseFail s c d pl k) := by
  unfold State.eraseFail
  repeat' (with_reducible first | assumption | exact Keep.refl _ | apply State.medCount_keep | apply State.modStat_keep | apply State.mediaRecompute_keep | apply State.badBlock_keep | apply State.dieFails_keep | apply State.mediaGoOn_keep | fail_if_no_progress (refine Keep.mk' ?_ rfl) | refine Keep.of_fst (by assumption) ?_ | (extract_lets -underBinder +onlyGivenNames x; (refine (fun (hx : Keep s0 x) => ?_) ?_); (on_goal 1 => try clear_value x); (on_goal 2 => (unfold x; clear x))) | (extract_lets -underBinder +onlyGivenNames x; (refine (fun (hx : Keep s0 x.1) => ?_) ?_); (on_goal 1 => try clear_value x); (on_goal 2 => (unfold x; clear x))) | (extract_lets -underBinder +onlyGivenNames x; try clear_value x) | split)

theorem execEraseFail_keep {s0 s : State} (h : Keep s0 s) (channel die plane block : Nat) : ∃ t1, (execEraseFail channel die plane block s) = .next t1 ∧ Keep s0 t1 := by
  unfold execEraseFail
  refine ⟨_, rfl, ?_⟩
  repeat' (with_reducible first | assumption | exact Keep.refl _ | apply State.eraseFail_keep)

theorem execDieTimeout_keep {s0 s : State} (h : Keep s0 s) (channel die : Nat) : ∃ t1, (execDieTimeout channel die s) = .next t1 ∧ Keep s0 t1 := by
  unfold execDieTimeout
  refine ⟨_, rfl, ?_⟩
  repeat' (with_reducible first | assumption | exact Keep.refl _ | apply State.dieFails_keep | apply State.mediaGoOn_keep)

theorem State.unitLost_keep {s0 s : State} (h : Keep s0 s) (p : Nat) : Keep s0 (State.unitLost s p) := by
  unfold State.unitLost
  repeat' (with_reducible first | assumption | exact Keep.refl _ | fail_if_no_progress (refine Keep.mk' ?_ rfl) | (extract_lets -underBinder +onlyGivenNames x; (refine (fun (hx : Keep s0 x) => ?_) ?_); (on_goal 1 => try clear_value x); (on_goal 2 => (unfold x; clear x))) | (extract_lets -underBinder +onlyGivenNames x; have hd : x.dram = x.dram := rfl) | (extract_lets -underBinder +onlyGivenNames x; try clear_value x) | split)

theorem State.countLost_keep {s0 s : State} (h : Keep s0 s) (a : Nat) : Keep s0 (State.countLost s a) := by
  unfold State.countLost
  repeat' (with_reducible first | assumption | exact Keep.refl _ | apply State.raise_keep | apply State.medCount_keep | apply State.nchCount_keep | apply State.modStat_keep | fail_if_no_progress (refine Keep.mk' ?_ rfl) | (extract_lets -underBinder +onlyGivenNames x; (refine (fun (hx : Keep s0 x) => ?_) ?_); (on_goal 1 => try clear_value x); (on_goal 2 => (unfold x; clear x))) | exact KeepO.get (by assumption) rfl | exact KeepO.none | apply KeepO.some | (apply KeepO.map; intro _) | (extract_lets -underBinder +onlyGivenNames x; (refine (fun (hx : KeepO s0 x) => ?_) ?_); (on_goal 1 => try clear_value x); (on_goal 2 => (unfold x; clear x))) | (extract_lets -underBinder +onlyGivenNames x; try clear_value x) | split)

theorem State.countRetire_keep {s0 s : State} (h : Keep s0 s) (a moved lost : Nat) : Keep s0 (State.countRetire s a moved lost) := by
  unfold State.countRetire
  repeat' (with_reducible first | assumption | exact Keep.refl _ | fail_if_no_progress (refine Keep.mk' ?_ rfl) | (extract_lets -underBinder +onlyGivenNames x; (refine (fun (hx : Keep s0 x) => ?_) ?_); (on_goal 1 => try clear_value x); (on_goal 2 => (unfold x; clear x))) | exact KeepO.get (by assumption) rfl | exact KeepO.none | apply KeepO.some | (apply KeepO.map; intro _) | (extract_lets -underBinder +onlyGivenNames x; (refine (fun (hx : KeepO s0 x) => ?_) ?_); (on_goal 1 => try clear_value x); (on_goal 2 => (unfold x; clear x))) | (extract_lets -underBinder +onlyGivenNames x; try clear_value x) | split)

theorem State.unitRead_keep {s0 s : State} (h : Keep s0 s) (a ns steps : Nat) (soft : Bool) (corr : Nat) (good : Bool) : Keep s0 (State.unitRead s a ns steps soft corr good) := by
  unfold State.unitRead
  repeat' (with_reducible first | assumption | exact Keep.refl _ | apply State.medCount_keep | apply State.nchCount_keep | apply State.modStat_keep | apply State.startProg_keep | apply State.victim_keep | apply State.mediaGoOn_keep | apply State.unitLost_keep | apply State.countLost_keep | apply State.countRetire_keep | fail_if_no_progress (refine Keep.mk' ?_ rfl) | refine KeepO2.get ?_ (by assumption) | (extract_lets -underBinder +onlyGivenNames x; (refine (fun (hx : Keep s0 x) => ?_) ?_); (on_goal 1 => try clear_value x); (on_goal 2 => (unfold x; clear x))) | (extract_lets -underBinder +onlyGivenNames x; try clear_value x) | split)

theorem execUnitReadDone_keep {s0 s : State} (h : Keep s0 s) (addr ns steps : Nat) (soft : Bool) (corrBits : Nat) (good : Bool) : ∃ t1, (execUnitReadDone addr ns steps soft corrBits good s) = .next t1 ∧ Keep s0 t1 := by
  unfold execUnitReadDone
  refine ⟨_, rfl, ?_⟩
  repeat' (with_reducible first | assumption | exact Keep.refl _ | apply State.unitRead_keep)

theorem State.journalUnit_keep {s0 s : State} (h : Keep s0 s)  : Keep s0 (State.journalUnit s) := by
  unfold State.journalUnit
  repeat' (with_reducible first | assumption | exact Keep.refl _ | apply State.raise_keep | apply State.upTo_keep | apply State.jrnUnit_keep | apply State.mediaGoOn_keep | fail_if_no_progress (refine Keep.mk' ?_ rfl) | (extract_lets -underBinder +onlyGivenNames x; (refine (fun (hx : Keep s0 x) => ?_) ?_); (on_goal 1 => try clear_value x); (on_goal 2 => (unfold x; clear x))) | exact KeepO.get (by assumption) rfl | exact KeepO.none | apply KeepO.some | (apply KeepO.map; intro _) | (extract_lets -underBinder +onlyGivenNames x; (refine (fun (hx : KeepO s0 x) => ?_) ?_); (on_goal 1 => try clear_value x); (on_goal 2 => (unfold x; clear x))) | (extract_lets -underBinder +onlyGivenNames x; try clear_value x) | split)

theorem execJournalUnit_keep {s0 s : State} (h : Keep s0 s)  : ∃ t1, (execJournalUnit s) = .next t1 ∧ Keep s0 t1 := by
  unfold execJournalUnit
  refine ⟨_, rfl, ?_⟩
  repeat' (with_reducible first | assumption | exact Keep.refl _ | apply State.journalUnit_keep)

theorem State.ckptSeg_keep {s0 s : State} (h : Keep s0 s)  : Keep s0 (State.ckptSeg s) := by
  unfold State.ckptSeg
  repeat' (with_reducible first | assumption | exact Keep.refl _ | apply State.jrn_keep | fail_if_no_progress (refine Keep.mk' ?_ rfl) | (extract_lets -underBinder +onlyGivenNames x; (refine (fun (hx : Keep s0 x) => ?_) ?_); (on_goal 1 => try clear_value x); (on_goal 2 => (unfold x; clear x))) | (extract_lets -underBinder +onlyGivenNames x; try clear_value x) | split)

theorem execCkptSeg_keep {s0 s : State} (h : Keep s0 s)  : ∃ t1, (execCkptSeg s) = .next t1 ∧ Keep s0 t1 := by
  unfold execCkptSeg
  refine ⟨_, rfl, ?_⟩
  repeat' (with_reducible first | assumption | exact Keep.refl _ | apply State.ckptSeg_keep | split)

theorem execCapacityRecompute_keep {s0 s : State} (h : Keep s0 s)  : ∃ t1, (execCapacityRecompute s) = .next t1 ∧ Keep s0 t1 := by
  unfold execCapacityRecompute
  refine ⟨_, rfl, ?_⟩
  repeat' (with_reducible first | assumption | exact Keep.refl _ | apply State.fillReserve_keep | apply State.mediaRecompute_keep | apply State.mediaGoOn_keep | split)

theorem State.startProbe_keep {s0 s : State} (h : Keep s0 s)  : Keep s0 (State.startProbe s) := by
  unfold State.startProbe
  repeat' (with_reducible first | assumption | exact Keep.refl _ | apply State.wr_keep | fail_if_no_progress (refine Keep.mk' ?_ rfl) | (extract_lets -underBinder +onlyGivenNames x; (refine (fun (hx : Keep s0 x) => ?_) ?_); (on_goal 1 => try clear_value x); (on_goal 2 => (unfold x; clear x))) | (extract_lets -underBinder +onlyGivenNames x; try clear_value x))

theorem State.probeInterval_keep {s0 s : State} (h : Keep s0 s)  : Keep s0 (State.probeInterval s) := by
  unfold State.probeInterval
  repeat' (with_reducible first | assumption | exact Keep.refl _ | apply State.upTo_keep | apply State.startProbe_keep | (extract_lets -underBinder +onlyGivenNames x; (refine (fun (hx : Keep s0 x) => ?_) ?_); (on_goal 1 => try clear_value x); (on_goal 2 => (unfold x; clear x))) | (extract_lets -underBinder +onlyGivenNames x; try clear_value x) | split)

theorem execProbeInterval_keep {s0 s : State} (h : Keep s0 s)  : ∃ t1, (execProbeInterval s) = .next t1 ∧ Keep s0 t1 := by
  unfold execProbeInterval
  refine ⟨_, rfl, ?_⟩
  repeat' (with_reducible first | assumption | exact Keep.refl _ | apply State.probeInterval_keep)

theorem State.setF_keep {s0 s : State} (h : Keep s0 s) (f : Nat) : Keep s0 (State.setF s f) := by
  unfold State.setF
  repeat' (with_reducible first | assumption | exact Keep.refl _ | apply State.wr_keep | apply State.budgetRecompute_keep | apply State.mediaRecompute_keep | fail_if_no_progress (refine Keep.mk' ?_ rfl) | (extract_lets -underBinder +onlyGivenNames x; (refine (fun (hx : Keep s0 x) => ?_) ?_); (on_goal 1 => try clear_value x); (on_goal 2 => (unfold x; clear x))) | (extract_lets -underBinder +onlyGivenNames x; try clear_value x))

theorem State.probeDone_keep {s0 s : State} (h : Keep s0 s) (units conc rateSum : Nat) : Keep s0 (State.probeDone s units conc rateSum) := by
  unfold State.probeDone
  repeat' (with_reducible first | assumption | exact Keep.refl _ | apply State.wr_keep | apply State.setStat_keep | apply State.raise_keep | apply State.finishCmd_keep | apply State.settle_keep | apply State.setF_keep | apply Keep.foldl | apply Keep.foldl_fst | apply Keep.foldl_snd | intro _ | fail_if_no_progress (refine Keep.mk' ?_ rfl) | (extract_lets -underBinder +onlyGivenNames x; (refine (fun (hx : Keep s0 x) => ?_) ?_); (on_goal 1 => try clear_value x); (on_goal 2 => (unfold x; clear x))) | (extract_lets -underBinder +onlyGivenNames x; try clear_value x) | split)

theorem execProbeDone_keep {s0 s : State} (h : Keep s0 s) (unitsPerSec conc rateSum : Nat) : ∃ t1, (execProbeDone unitsPerSec conc rateSum s) = .next t1 ∧ Keep s0 t1 := by
  unfold execProbeDone
  refine ⟨_, rfl, ?_⟩
  repeat' (with_reducible first | assumption | exact Keep.refl _ | apply State.probeDone_keep)

theorem State.rescale_keep {s0 s : State} (h : Keep s0 s) (rateSum : Nat) : Keep s0 (State.rescale s rateSum) := by
  unfold State.rescale
  repeat' (with_reducible first | assumption | exact Keep.refl _ | apply State.setF_keep | split)

theorem execFlushRateRescale_keep {s0 s : State} (h : Keep s0 s) (rateSum : Nat) : ∃ t1, (execFlushRateRescale rateSum s) = .next t1 ∧ Keep s0 t1 := by
  unfold execFlushRateRescale
  refine ⟨_, rfl, ?_⟩
  repeat' (with_reducible first | assumption | exact Keep.refl _ | apply State.rescale_keep)

theorem State.wearLevel_keep {s0 s : State} (h : Keep s0 s)  : Keep s0 (State.wearLevel s) := by
  unfold State.wearLevel
  repeat' (with_reducible first | assumption | exact Keep.refl _ | apply State.victim_keep | apply State.mediaGoOn_keep | apply Keep.foldl | apply Keep.foldl_fst | apply Keep.foldl_snd | intro _ | fail_if_no_progress (refine Keep.mk' ?_ rfl) | (extract_lets -underBinder +onlyGivenNames x; (refine (fun (hx : Keep s0 x) => ?_) ?_); (on_goal 1 => try clear_value x); (on_goal 2 => (unfold x; clear x))) | exact KeepO.get (by assumption) rfl | exact KeepO.none | apply KeepO.some | (apply KeepO.map; intro _) | (extract_lets -underBinder +onlyGivenNames x; (refine (fun (hx : KeepO s0 x) => ?_) ?_); (on_goal 1 => try clear_value x); (on_goal 2 => (unfold x; clear x))) | (extract_lets -underBinder +onlyGivenNames x; try clear_value x) | split)

theorem execWearLevel_keep {s0 s : State} (h : Keep s0 s)  : ∃ t1, (execWearLevel s) = .next t1 ∧ Keep s0 t1 := by
  unfold execWearLevel
  refine ⟨_, rfl, ?_⟩
  repeat' (with_reducible first | assumption | exact Keep.refl _ | apply State.wearLevel_keep)

theorem State.patrol_keep {s0 s : State} (h : Keep s0 s) (g k : Nat) (bad : List Nat) : Keep s0 (State.patrol s g k bad) := by
  unfold State.patrol
  repeat' (with_reducible first | assumption | exact Keep.refl _ | apply State.nchCount_keep | apply State.mediaGoOn_keep | apply State.unitLost_keep | apply State.countLost_keep | apply Keep.foldl | intro _ | (extract_lets -underBinder +onlyGivenNames x; (refine (fun (hx : Keep s0 x) => ?_) ?_); (on_goal 1 => try clear_value x); (on_goal 2 => (unfold x; clear x))) | (extract_lets -underBinder +onlyGivenNames x; try clear_value x) | split)

theorem execPatrol_keep {s0 s : State} (h : Keep s0 s) (group block : Nat) (bad : List Nat) : ∃ t1, (execPatrol group block bad s) = .next t1 ∧ Keep s0 t1 := by
  unfold execPatrol
  refine ⟨_, rfl, ?_⟩
  repeat' (with_reducible first | assumption | exact Keep.refl _ | apply State.patrol_keep)

theorem State.reserveVerify_keep {s0 s : State} (h : Keep s0 s) (half : List (Nat × Nat)) : Keep s0 (State.reserveVerify s half) := by
  unfold State.reserveVerify
  repeat' (with_reducible first | assumption | exact Keep.refl _ | apply State.raise_keep | apply State.medCount_keep | apply State.setSb_keep | apply State.mediaRecompute_keep | apply State.badBlock_keep | apply State.mediaGoOn_keep | apply Keep.foldl | apply Keep.foldl_fst | apply Keep.foldl_snd | intro _ | fail_if_no_progress (refine Keep.mk' ?_ rfl) | refine Keep.of_fst (by assumption) ?_ | (extract_lets -underBinder +onlyGivenNames x; (refine (fun (hx : Keep s0 x) => ?_) ?_); (on_goal 1 => try clear_value x); (on_goal 2 => (unfold x; clear x))) | exact KeepO.get (by assumption) rfl | exact KeepO.none | apply KeepO.some | (apply KeepO.map; intro _) | (extract_lets -underBinder +onlyGivenNames x; (refine (fun (hx : KeepO s0 x) => ?_) ?_); (on_goal 1 => try clear_value x); (on_goal 2 => (unfold x; clear x))) | (extract_lets -underBinder +onlyGivenNames x; (refine (fun (hx : Keep s0 x.1) => ?_) ?_); (on_goal 1 => try clear_value x); (on_goal 2 => (unfold x; clear x))) | (extract_lets -underBinder +onlyGivenNames x; try clear_value x) | split)

theorem execReserveVerify_keep {s0 s : State} (h : Keep s0 s) (halfErased : List (Nat × Nat)) : ∃ t1, (execReserveVerify halfErased s) = .next t1 ∧ Keep s0 t1 := by
  unfold execReserveVerify
  refine ⟨_, rfl, ?_⟩
  repeat' (with_reducible first | assumption | exact Keep.refl _ | apply State.reserveVerify_keep)

theorem State.windowUpdate_keep {s0 s : State} (h : Keep s0 s)  : Keep s0 (State.windowUpdate s) := by
  unfold State.windowUpdate
  repeat' (with_reducible first | assumption | exact Keep.refl _ | apply State.wr_keep | apply State.raise_keep | apply State.medCount_keep | apply State.settle_keep | fail_if_no_progress (refine Keep.mk' ?_ rfl) | (extract_lets -underBinder +onlyGivenNames x; (refine (fun (hx : Keep s0 x) => ?_) ?_); (on_goal 1 => try clear_value x); (on_goal 2 => (unfold x; clear x))) | (extract_lets -underBinder +onlyGivenNames x; try clear_value x) | split)

theorem State.setWindow_keep {s0 s : State} (h : Keep s0 s) (c : Nat) (v : Bool) : Keep s0 (State.setWindow s c v) := by
  unfold State.setWindow
  repeat' (with_reducible first | assumption | exact Keep.refl _ | apply State.wr_keep | apply State.raise_keep | apply State.windowUpdate_keep | fail_if_no_progress (refine Keep.mk' ?_ rfl) | (extract_lets -underBinder +onlyGivenNames x; (refine (fun (hx : Keep s0 x) => ?_) ?_); (on_goal 1 => try clear_value x); (on_goal 2 => (unfold x; clear x))) | (extract_lets -underBinder +onlyGivenNames x; try clear_value x) | split)

theorem State.dieTemp_keep {s0 s : State} (h : Keep s0 s) (c : Nat) (reading : Int) : Keep s0 (State.dieTemp s c reading) := by
  unfold State.dieTemp
  repeat' (with_reducible first | assumption | exact Keep.refl _ | apply State.wr_keep | apply State.setWindow_keep | fail_if_no_progress (refine Keep.mk' ?_ rfl) | (extract_lets -underBinder +onlyGivenNames x; (refine (fun (hx : Keep s0 x) => ?_) ?_); (on_goal 1 => try clear_value x); (on_goal 2 => (unfold x; clear x))) | (extract_lets -underBinder +onlyGivenNames x; try clear_value x) | split)

theorem execDieTempRead_keep {s0 s : State} (h : Keep s0 s) (channel : Nat) (hottest : Int) : ∃ t1, (execDieTempRead channel hottest s) = .next t1 ∧ Keep s0 t1 := by
  unfold execDieTempRead
  refine ⟨_, rfl, ?_⟩
  repeat' (with_reducible first | assumption | exact Keep.refl _ | apply State.dieTemp_keep)

theorem State.medProbeRun_keep {s0 s : State} (h : Keep s0 s) (q : Nat) : Keep s0 (State.medProbeRun s q) := by
  unfold State.medProbeRun
  repeat' (with_reducible first | assumption | intro _ | exact Keep.refl _ | apply State.blockCmd_keep | apply State.startProbe_keep | fail_if_no_progress (refine Keep.mk' ?_ rfl) | (extract_lets -underBinder +onlyGivenNames x; (refine (fun (hx : Keep s0 x) => ?_) ?_); (on_goal 1 => try clear_value x); (on_goal 2 => (unfold x; clear x))) | (extract_lets -underBinder +onlyGivenNames x; try clear_value x) | split)

theorem execMedProbeRun_keep {s0 s : State} (h : Keep s0 s) (q : Nat) : ∃ t1, (execMedProbeRun q s) = .next t1 ∧ Keep s0 t1 := by
  unfold execMedProbeRun
  refine ⟨_, rfl, ?_⟩
  repeat' (with_reducible first | assumption | exact Keep.refl _ | apply State.medProbeRun_keep)

theorem State.medDieRetire_keep {s0 s : State} (h : Keep s0 s) (q : Nat) : Keep s0 (State.medDieRetire s q) := by
  unfold State.medDieRetire
  repeat' (with_reducible first | assumption | exact Keep.refl _ | apply State.setDieSt_keep | apply State.mediaRecompute_keep | apply State.moveUnits_keep | apply State.finishCmd_keep | apply State.blockCmd_keep | apply State.reprogram_keep | apply State.mediaGoOn_keep | apply Keep.foldl | apply Keep.foldl_fst | apply Keep.foldl_snd | intro _ | fail_if_no_progress (refine Keep.mk' ?_ rfl) | (extract_lets -underBinder +onlyGivenNames x; (refine (fun (hx : Keep s0 x) => ?_) ?_); (on_goal 1 => try clear_value x); (on_goal 2 => (unfold x; clear x))) | (extract_lets -underBinder +onlyGivenNames x; try clear_value x) | split)

theorem execMedDieRetire_keep {s0 s : State} (h : Keep s0 s) (q : Nat) : ∃ t1, (execMedDieRetire q s) = .next t1 ∧ Keep s0 t1 := by
  unfold execMedDieRetire
  refine ⟨_, rfl, ?_⟩
  repeat' (with_reducible first | assumption | exact Keep.refl _ | apply State.medDieRetire_keep)

end Sys2Proof.Machine
end

