-- ==== Sys2Proof/Laws/KeepTiers.lean ====
section
/-! SUPPORT. What the operations of Machine/Tiers.lean keep (Keep). -/

set_option linter.unreachableTactic false
set_option linter.unusedTactic false
set_option linter.unusedVariables false

namespace Sys2Proof.Machine

theorem State.discardRange_keep {s0 s : State} (h : Keep s0 s) (first count : Nat) : Keep s0 (State.discardRange s first count).1 := by
  unfold State.discardRange
  repeat' (with_reducible first | assumption | exact Keep.refl _ | apply State.stage_keep | apply State.markChange_keep | apply State.discardPage_keep | apply Keep.foldl | apply Keep.foldl_fst | apply Keep.foldl_snd | intro _ | fail_if_no_progress (refine Keep.mk' ?_ rfl) | (extract_lets -underBinder +onlyGivenNames x; (refine (fun (hx : Keep s0 x) => ?_) ?_); (on_goal 1 => try clear_value x); (on_goal 2 => (unfold x; clear x))) | exact KeepO.get (by assumption) rfl | exact KeepO.none | apply KeepO.some | (apply KeepO.map; intro _) | (extract_lets -underBinder +onlyGivenNames x; (refine (fun (hx : KeepO s0 x) => ?_) ?_); (on_goal 1 => try clear_value x); (on_goal 2 => (unfold x; clear x))) | (extract_lets -underBinder +onlyGivenNames x; (refine (fun (hx : Keep s0 x.1) => ?_) ?_); (on_goal 1 => try clear_value x); (on_goal 2 => (unfold x; clear x))) | (extract_lets -underBinder +onlyGivenNames x; have hd : x.dram = x.dram := rfl) | (extract_lets -underBinder +onlyGivenNames x; try clear_value x) | split)

theorem State.modTir_keep {s0 s : State} (h : Keep s0 s) (q : Nat) (f : TirCmd → TirCmd) : Keep s0 (State.modTir s q f) := by
  unfold State.modTir
  repeat' (with_reducible first | assumption | exact Keep.refl _ | fail_if_no_progress (refine Keep.mk' ?_ rfl) | (extract_lets -underBinder +onlyGivenNames x; (refine (fun (hx : Keep s0 x) => ?_) ?_); (on_goal 1 => try clear_value x); (on_goal 2 => (unfold x; clear x))) | exact KeepO.get (by assumption) rfl | exact KeepO.none | apply KeepO.some | (apply KeepO.map; intro _) | (extract_lets -underBinder +onlyGivenNames x; (refine (fun (hx : KeepO s0 x) => ?_) ?_); (on_goal 1 => try clear_value x); (on_goal 2 => (unfold x; clear x))) | (extract_lets -underBinder +onlyGivenNames x; have hd : x.dram = x.dram := rfl) | (extract_lets -underBinder +onlyGivenNames x; try clear_value x) | split)

theorem State.tirEnd_keep {s0 s : State} (h : Keep s0 s) (c : TirCmd) (status done passed : Nat) : Keep s0 (State.tirEnd s c status done passed) := by
  unfold State.tirEnd
  repeat' (with_reducible first | assumption | exact Keep.refl _ | apply State.finishCmd_keep | fail_if_no_progress (refine Keep.mk' ?_ rfl) | (extract_lets -underBinder +onlyGivenNames x; (refine (fun (hx : Keep s0 x) => ?_) ?_); (on_goal 1 => try clear_value x); (on_goal 2 => (unfold x; clear x))) | (extract_lets -underBinder +onlyGivenNames x; have hd : x.dram = x.dram := rfl) | (extract_lets -underBinder +onlyGivenNames x; try clear_value x))

theorem tirPromoteOn_keep {s0 : State}  : ∀ (a0 : List Nat) (a1 : State) (a2 : List Nat) (a3 : Nat), Keep s0 a1 → Keep s0 (tirPromoteOn a0 a1 a2 a3).1 := by
  intro  a0
  induction a0 with
  | nil =>
    intro a1 a2 a3 h
    first | rw [tirPromoteOn] | unfold tirPromoteOn
    repeat' (with_reducible first | assumption | exact Keep.refl _ | apply State.startFetch_keep | apply State.fetchAhead_keep | fail_if_no_progress (refine Keep.mk' ?_ rfl) | refine KeepE.of_ok ?_ (by assumption) | (extract_lets -underBinder +onlyGivenNames x; (refine (fun (hx : Keep s0 x) => ?_) ?_); (on_goal 1 => try clear_value x); (on_goal 2 => (unfold x; clear x))) | (extract_lets -underBinder +onlyGivenNames x; (refine (fun (hx : Keep s0 x.1) => ?_) ?_); (on_goal 1 => try clear_value x); (on_goal 2 => (unfold x; clear x))) | (extract_lets -underBinder +onlyGivenNames x; try clear_value x) | split)
  | cons x xs ih =>
    intro a1 a2 a3 h
    first | rw [tirPromoteOn] | unfold tirPromoteOn
    repeat' (with_reducible first | assumption | apply ih | exact Keep.refl _ | apply State.startFetch_keep | apply State.fetchAhead_keep | fail_if_no_progress (refine Keep.mk' ?_ rfl) | refine KeepE.of_ok ?_ (by assumption) | (extract_lets -underBinder +onlyGivenNames x; (refine (fun (hx : Keep s0 x) => ?_) ?_); (on_goal 1 => try clear_value x); (on_goal 2 => (unfold x; clear x))) | (extract_lets -underBinder +onlyGivenNames x; (refine (fun (hx : Keep s0 x.1) => ?_) ?_); (on_goal 1 => try clear_value x); (on_goal 2 => (unfold x; clear x))) | (extract_lets -underBinder +onlyGivenNames x; try clear_value x) | split)

theorem State.tirStep_keep {s0 s : State} (h : Keep s0 s) (c : TirCmd) : Keep s0 (State.tirStep s c) := by
  unfold State.tirStep
  repeat' (with_reducible first | assumption | exact Keep.refl _ | apply State.modTir_keep | apply State.tirEnd_keep | apply tirPromoteOn_keep | fail_if_no_progress (refine Keep.mk' ?_ rfl) | refine Keep.of_fst (by assumption) ?_ | (extract_lets -underBinder +onlyGivenNames x; (refine (fun (hx : Keep s0 x) => ?_) ?_); (on_goal 1 => try clear_value x); (on_goal 2 => (unfold x; clear x))) | (extract_lets -underBinder +onlyGivenNames x; (refine (fun (hx : Keep s0 x.1) => ?_) ?_); (on_goal 1 => try clear_value x); (on_goal 2 => (unfold x; clear x))) | (extract_lets -underBinder +onlyGivenNames x; have hd : x.dram = x.dram := rfl) | (extract_lets -underBinder +onlyGivenNames x; try clear_value x) | split)

theorem State.tirCheck_keep {s0 s : State} (h : Keep s0 s)  : Keep s0 (State.tirCheck s) := by
  unfold State.tirCheck
  repeat' (with_reducible first | assumption | exact Keep.refl _ | apply State.tirStep_keep | apply Keep.foldl | intro _)

theorem State.tirCmd_keep {s0 s : State} (h : Keep s0 s) (q op : Nat) (f : State → Nat → Nat → RqCmd → State) (hf : ∀ x0 x1 x2 x3, Keep s0 x0 → Keep s0 (f x0 x1 x2 x3)) : Keep s0 (State.tirCmd s q op f) := by
  unfold State.tirCmd
  repeat' (with_reducible first | assumption | apply hf | intro _ | exact Keep.refl _ | apply State.finishCmd_keep | apply State.blockCmd_keep | (extract_lets -underBinder +onlyGivenNames x; (refine (fun (hx : Keep s0 x) => ?_) ?_); (on_goal 1 => try clear_value x); (on_goal 2 => (unfold x; clear x))) | (extract_lets -underBinder +onlyGivenNames x; have hd : x.dram = x.dram := rfl) | (extract_lets -underBinder +onlyGivenNames x; try clear_value x) | split)

theorem State.tirStart_keep {s0 s : State} (h : Keep s0 s) (c : TirCmd) : Keep s0 (State.tirStart s c) := by
  unfold State.tirStart
  repeat' (with_reducible first | assumption | exact Keep.refl _ | apply State.settle_keep | apply State.tirCheck_keep | fail_if_no_progress (refine Keep.mk' ?_ rfl) | (extract_lets -underBinder +onlyGivenNames x; (refine (fun (hx : Keep s0 x) => ?_) ?_); (on_goal 1 => try clear_value x); (on_goal 2 => (unfold x; clear x))) | (extract_lets -underBinder +onlyGivenNames x; have hd : x.dram = x.dram := rfl) | (extract_lets -underBinder +onlyGivenNames x; try clear_value x))

theorem State.tirDiscard_keep {s0 s : State} (h : Keep s0 s) (q : Nat) : Keep s0 (State.tirDiscard s q) := by
  unfold State.tirDiscard
  repeat' (with_reducible first | assumption | exact Keep.refl _ | apply State.sendLink_keep | apply State.discardRange_keep | apply State.tirCmd_keep | apply State.tirStart_keep | apply Keep.foldl | apply Keep.foldl_fst | apply Keep.foldl_snd | intro _ | fail_if_no_progress (refine Keep.mk' ?_ rfl) | refine Keep.of_fst (by assumption) ?_ | (extract_lets -underBinder +onlyGivenNames x; (refine (fun (hx : Keep s0 x) => ?_) ?_); (on_goal 1 => try clear_value x); (on_goal 2 => (unfold x; clear x))) | exact KeepO.get (by assumption) rfl | exact KeepO.none | apply KeepO.some | (apply KeepO.map; intro _) | (extract_lets -underBinder +onlyGivenNames x; (refine (fun (hx : KeepO s0 x) => ?_) ?_); (on_goal 1 => try clear_value x); (on_goal 2 => (unfold x; clear x))) | (extract_lets -underBinder +onlyGivenNames x; (refine (fun (hx : Keep s0 x.1) => ?_) ?_); (on_goal 1 => try clear_value x); (on_goal 2 => (unfold x; clear x))) | (extract_lets -underBinder +onlyGivenNames x; try clear_value x) | split)

theorem execTirDiscard_keep {s0 s : State} (h : Keep s0 s) (q : Nat) : ∃ t1, (execTirDiscard q s) = .next t1 ∧ Keep s0 t1 := by
  unfold execTirDiscard
  refine ⟨_, rfl, ?_⟩
  repeat' (with_reducible first | assumption | exact Keep.refl _ | apply State.tirDiscard_keep)

theorem State.tirPromote_keep {s0 s : State} (h : Keep s0 s) (q : Nat) : Keep s0 (State.tirPromote s q) := by
  unfold State.tirPromote
  repeat' (with_reducible first | assumption | intro _ | exact Keep.refl _ | apply State.tirCmd_keep | apply State.tirStart_keep | fail_if_no_progress (refine Keep.mk' ?_ rfl) | (extract_lets -underBinder +onlyGivenNames x; (refine (fun (hx : Keep s0 x) => ?_) ?_); (on_goal 1 => try clear_value x); (on_goal 2 => (unfold x; clear x))) | (extract_lets -underBinder +onlyGivenNames x; try clear_value x))

theorem execTirPromote_keep {s0 s : State} (h : Keep s0 s) (q : Nat) : ∃ t1, (execTirPromote q s) = .next t1 ∧ Keep s0 t1 := by
  unfold execTirPromote
  refine ⟨_, rfl, ?_⟩
  repeat' (with_reducible first | assumption | exact Keep.refl _ | apply State.tirPromote_keep)

theorem State.tirDemote_keep {s0 s : State} (h : Keep s0 s) (q : Nat) : Keep s0 (State.tirDemote s q) := by
  unfold State.tirDemote
  repeat' (with_reducible first | assumption | exact Keep.refl _ | apply State.pin_keep | apply State.demote_keep | apply State.tirCmd_keep | apply State.tirStart_keep | apply Keep.foldl | apply Keep.foldl_fst | apply Keep.foldl_snd | intro _ | fail_if_no_progress (refine Keep.mk' ?_ rfl) | (extract_lets -underBinder +onlyGivenNames x; (refine (fun (hx : Keep s0 x) => ?_) ?_); (on_goal 1 => try clear_value x); (on_goal 2 => (unfold x; clear x))) | (extract_lets -underBinder +onlyGivenNames x; try clear_value x))

theorem execTirDemote_keep {s0 s : State} (h : Keep s0 s) (q : Nat) : ∃ t1, (execTirDemote q s) = .next t1 ∧ Keep s0 t1 := by
  unfold execTirDemote
  refine ⟨_, rfl, ?_⟩
  repeat' (with_reducible first | assumption | exact Keep.refl _ | apply State.tirDemote_keep)

theorem State.tirPin_keep {s0 s : State} (h : Keep s0 s) (q : Nat) : Keep s0 (State.tirPin s q) := by
  unfold State.tirPin
  repeat' (with_reducible first | assumption | exact Keep.refl _ | apply State.setPte_keep | apply State.pin_keep | apply State.finishCmd_keep | apply State.tirCmd_keep | apply State.tirStart_keep | apply Keep.foldl | apply Keep.foldl_fst | apply Keep.foldl_snd | intro _ | fail_if_no_progress (refine Keep.mk' ?_ rfl) | (extract_lets -underBinder +onlyGivenNames x; (refine (fun (hx : Keep s0 x) => ?_) ?_); (on_goal 1 => try clear_value x); (on_goal 2 => (unfold x; clear x))) | exact KeepO.get (by assumption) rfl | exact KeepO.none | apply KeepO.some | (apply KeepO.map; intro _) | (extract_lets -underBinder +onlyGivenNames x; (refine (fun (hx : KeepO s0 x) => ?_) ?_); (on_goal 1 => try clear_value x); (on_goal 2 => (unfold x; clear x))) | (extract_lets -underBinder +onlyGivenNames x; have hd : x.dram = x.dram := rfl) | (extract_lets -underBinder +onlyGivenNames x; try clear_value x) | split)

theorem execTirPin_keep {s0 s : State} (h : Keep s0 s) (q : Nat) : ∃ t1, (execTirPin q s) = .next t1 ∧ Keep s0 t1 := by
  unfold execTirPin
  refine ⟨_, rfl, ?_⟩
  repeat' (with_reducible first | assumption | exact Keep.refl _ | apply State.tirPin_keep)

theorem State.fetchDone_keep {s0 s : State} (h : Keep s0 s) (p : Nat) (good : Bool) (twin : Option (List Line)) : Keep s0 (State.fetchDone s p good twin) := by
  unfold State.fetchDone
  repeat' (with_reducible first | assumption | exact Keep.refl _ | apply State.raise_keep | apply State.raiseIf_keep | apply State.injDrop_keep | apply State.medCount_keep | apply State.fetchRead_keep | apply State.eraseCheck_keep | apply State.fetchLands_keep | apply State.settle_keep | apply State.tirCheck_keep | fail_if_no_progress (refine Keep.mk' ?_ rfl) | (extract_lets -underBinder +onlyGivenNames x; (refine (fun (hx : Keep s0 x) => ?_) ?_); (on_goal 1 => try clear_value x); (on_goal 2 => (unfold x; clear x))) | exact KeepO.get (by assumption) rfl | exact KeepO.none | apply KeepO.some | (apply KeepO.map; intro _) | (extract_lets -underBinder +onlyGivenNames x; (refine (fun (hx : KeepO s0 x) => ?_) ?_); (on_goal 1 => try clear_value x); (on_goal 2 => (unfold x; clear x))) | (extract_lets -underBinder +onlyGivenNames x; have hd : x.dram = x.dram := rfl) | (extract_lets -underBinder +onlyGivenNames x; try clear_value x) | split)

theorem execFetchDone_keep {s0 s : State} (h : Keep s0 s) (page : Nat) (good : Bool) (twinPage : Option (List Line)) : ∃ t1, (execFetchDone page good twinPage s) = .next t1 ∧ Keep s0 t1 := by
  unfold execFetchDone
  refine ⟨_, rfl, ?_⟩
  repeat' (with_reducible first | assumption | exact Keep.refl _ | apply State.fetchDone_keep)

theorem State.destageAge_keep {s0 s : State} (h : Keep s0 s) (p : Nat) : Keep s0 (State.destageAge s p) := by
  unfold State.destageAge
  repeat' (with_reducible first | assumption | exact Keep.refl _ | apply State.upTo_keep | apply State.startDestage_keep | apply State.settle_keep | fail_if_no_progress (refine Keep.mk' ?_ rfl) | (extract_lets -underBinder +onlyGivenNames x; (refine (fun (hx : Keep s0 x) => ?_) ?_); (on_goal 1 => try clear_value x); (on_goal 2 => (unfold x; clear x))) | (extract_lets -underBinder +onlyGivenNames x; have hd : x.dram = x.dram := rfl) | (extract_lets -underBinder +onlyGivenNames x; try clear_value x) | split)

theorem execDestageAge_keep {s0 s : State} (h : Keep s0 s) (page : Nat) : ∃ t1, (execDestageAge page s) = .next t1 ∧ Keep s0 t1 := by
  unfold execDestageAge
  refine ⟨_, rfl, ?_⟩
  repeat' (with_reducible first | assumption | exact Keep.refl _ | apply State.destageAge_keep)

theorem State.releaseReserve_keep {s0 s : State} (h : Keep s0 s) (p : Nat) : Keep s0 (State.releaseReserve s p) := by
  unfold State.releaseReserve
  repeat' (with_reducible first | assumption | exact Keep.refl _ | apply State.setSb_keep | apply Keep.foldl | apply Keep.foldl_fst | apply Keep.foldl_snd | intro _ | fail_if_no_progress (refine Keep.mk' ?_ rfl) | (extract_lets -underBinder +onlyGivenNames x; (refine (fun (hx : Keep s0 x) => ?_) ?_); (on_goal 1 => try clear_value x); (on_goal 2 => (unfold x; clear x))) | exact KeepO.get (by assumption) rfl | exact KeepO.none | apply KeepO.some | (apply KeepO.map; intro _) | (extract_lets -underBinder +onlyGivenNames x; (refine (fun (hx : KeepO s0 x) => ?_) ?_); (on_goal 1 => try clear_value x); (on_goal 2 => (unfold x; clear x))) | (extract_lets -underBinder +onlyGivenNames x; try clear_value x))

theorem State.destageDone_keep {s0 s : State} (h : Keep s0 s) (p : Nat) : Keep s0 (State.destageDone s p) := by
  unfold State.destageDone
  repeat' (with_reducible first | assumption | exact Keep.refl _ | apply State.destageEnds_keep | apply State.settle_keep | apply State.mediaGoOn_keep | apply State.tirCheck_keep | apply State.releaseReserve_keep | fail_if_no_progress (refine Keep.mk' ?_ rfl) | (extract_lets -underBinder +onlyGivenNames x; (refine (fun (hx : Keep s0 x) => ?_) ?_); (on_goal 1 => try clear_value x); (on_goal 2 => (unfold x; clear x))) | (extract_lets -underBinder +onlyGivenNames x; have hd : x.dram = x.dram := rfl) | (extract_lets -underBinder +onlyGivenNames x; try clear_value x) | split)

theorem execDestageDone_keep {s0 s : State} (h : Keep s0 s) (page : Nat) : ∃ t1, (execDestageDone page s) = .next t1 ∧ Keep s0 t1 := by
  unfold execDestageDone
  refine ⟨_, rfl, ?_⟩
  repeat' (with_reducible first | assumption | exact Keep.refl _ | apply State.destageDone_keep)

theorem State.movedFrame_keep {s0 s : State} (h : Keep s0 s) (c f rec_ poi : Nat) : Keep s0 (State.movedFrame s c f rec_ poi) := by
  unfold State.movedFrame
  repeat' (with_reducible first | assumption | exact Keep.refl _ | apply State.raiseIf_keep | apply State.modChan_keep | apply State.dchCount_keep | apply State.popMove_keep | apply State.startMoves_keep | apply State.settle_keep | apply State.retireDone_keep | fail_if_no_progress (refine Keep.mk' ?_ rfl) | (extract_lets -underBinder +onlyGivenNames x; (refine (fun (hx : Keep s0 x) => ?_) ?_); (on_goal 1 => try clear_value x); (on_goal 2 => (unfold x; clear x))) | exact KeepO.get (by assumption) rfl | exact KeepO.none | apply KeepO.some | (apply KeepO.map; intro _) | (extract_lets -underBinder +onlyGivenNames x; (refine (fun (hx : KeepO s0 x) => ?_) ?_); (on_goal 1 => try clear_value x); (on_goal 2 => (unfold x; clear x))) | (extract_lets -underBinder +onlyGivenNames x; try clear_value x) | split)

theorem State.migrationPage_keep {s0 s : State} (h : Keep s0 s) (c : Nat) (bad : List Nat) (twin : List (Nat × Line)) : Keep s0 (State.migrationPage s c bad twin) := by
  unfold State.migrationPage
  repeat' (with_reducible first | assumption | exact Keep.refl _ | apply State.upTo_keep | apply State.modChan_keep | apply State.giveFrame_keep | apply State.fillFrame_keep | apply State.setPte_keep | apply State.moveWaitsGo_keep | apply State.popMove_keep | apply State.startMoves_keep | apply State.settle_keep | apply State.retireDone_keep | apply State.movedFrame_keep | fail_if_no_progress (refine Keep.mk' ?_ rfl) | (extract_lets -underBinder +onlyGivenNames x; (refine (fun (hx : Keep s0 x) => ?_) ?_); (on_goal 1 => try clear_value x); (on_goal 2 => (unfold x; clear x))) | exact KeepO.get (by assumption) rfl | exact KeepO.none | apply KeepO.some | (apply KeepO.map; intro _) | (extract_lets -underBinder +onlyGivenNames x; (refine (fun (hx : KeepO s0 x) => ?_) ?_); (on_goal 1 => try clear_value x); (on_goal 2 => (unfold x; clear x))) | (extract_lets -underBinder +onlyGivenNames x; have hd : x.dram = x.dram := rfl) | (extract_lets -underBinder +onlyGivenNames x; try clear_value x) | split)

theorem execMigrationPage_keep {s0 s : State} (h : Keep s0 s) (channel : Nat) (bad : List Nat) (twin : List (Nat × Line)) : ∃ t1, (execMigrationPage channel bad twin s) = .next t1 ∧ Keep s0 t1 := by
  unfold execMigrationPage
  refine ⟨_, rfl, ?_⟩
  repeat' (with_reducible first | assumption | exact Keep.refl _ | apply State.migrationPage_keep)

theorem State.poolResized_keep {s0 s : State} (h : Keep s0 s)  : Keep s0 (State.poolResized s) := by
  unfold State.poolResized
  repeat' (with_reducible first | assumption | exact Keep.refl _ | apply State.raise_keep | apply State.autoSave_keep | apply State.mediaRecompute_keep | apply State.setPool_keep | apply State.cfgBump_keep | apply State.settle_keep | fail_if_no_progress (refine Keep.mk' ?_ rfl) | (extract_lets -underBinder +onlyGivenNames x; (refine (fun (hx : Keep s0 x) => ?_) ?_); (on_goal 1 => try clear_value x); (on_goal 2 => (unfold x; clear x))) | (extract_lets -underBinder +onlyGivenNames x; have hd : x.dram = x.dram := rfl) | (extract_lets -underBinder +onlyGivenNames x; try clear_value x) | split)

theorem execPoolResized_keep {s0 s : State} (h : Keep s0 s)  : ∃ t1, (execPoolResized s) = .next t1 ∧ Keep s0 t1 := by
  unfold execPoolResized
  refine ⟨_, rfl, ?_⟩
  repeat' (with_reducible first | assumption | exact Keep.refl _ | apply State.poolResized_keep)

end Sys2Proof.Machine
end

