-- ==== Sys2Proof/Laws/KeepProt.lean ====
section
/-! SUPPORT. What the operations of Machine/Prot.lean keep (Keep). -/

set_option linter.unreachableTactic false
set_option linter.unusedTactic false
set_option linter.unusedVariables false

namespace Sys2Proof.Machine

theorem State.putKey_keep {s0 s : State} (h : Keep s0 s) (i : Nat) (k : Key) : Keep s0 (State.putKey s i k) := by
  unfold State.putKey
  repeat' (with_reducible first | assumption | exact Keep.refl _ | apply State.raiseIf_keep | apply State.setTenant_keep | apply State.setKey_keep | fail_if_no_progress (refine Keep.mk' ?_ rfl) | (extract_lets -underBinder +onlyGivenNames x; (refine (fun (hx : Keep s0 x) => ?_) ?_); (on_goal 1 => try clear_value x); (on_goal 2 => (unfold x; clear x))) | (extract_lets -underBinder +onlyGivenNames x; try clear_value x) | split)

theorem State.putTenant_keep {s0 s : State} (h : Keep s0 s) (i : Nat) (v : Tenant) : Keep s0 (State.putTenant s i v) := by
  unfold State.putTenant
  repeat' (with_reducible first | assumption | exact Keep.refl _ | apply State.raiseIf_keep | apply State.setTenant_keep | apply State.fillSlot_keep | fail_if_no_progress (refine Keep.mk' ?_ rfl) | (extract_lets -underBinder +onlyGivenNames x; (refine (fun (hx : Keep s0 x) => ?_) ?_); (on_goal 1 => try clear_value x); (on_goal 2 => (unfold x; clear x))) | (extract_lets -underBinder +onlyGivenNames x; try clear_value x) | split)

theorem State.putRegion_keep {s0 s : State} (h : Keep s0 s) (i : Nat) (v : Region) : Keep s0 (State.putRegion s i v) := by
  unfold State.putRegion
  repeat' (with_reducible first | assumption | exact Keep.refl _ | apply State.setRegion_keep | fail_if_no_progress (refine Keep.mk' ?_ rfl) | (extract_lets -underBinder +onlyGivenNames x; (refine (fun (hx : Keep s0 x) => ?_) ?_); (on_goal 1 => try clear_value x); (on_goal 2 => (unfold x; clear x))) | (extract_lets -underBinder +onlyGivenNames x; try clear_value x) | split)

theorem State.putEntry_keep {s0 s : State} (h : Keep s0 s) (table i : Nat) (ws : List Word64) : Keep s0 (State.putEntry s table i ws) := by
  unfold State.putEntry
  repeat' (with_reducible first | assumption | exact Keep.refl _ | apply State.raiseIf_keep | apply State.putKey_keep | apply State.putTenant_keep | apply State.putRegion_keep | fail_if_no_progress (refine Keep.mk' ?_ rfl) | (extract_lets -underBinder +onlyGivenNames x; (refine (fun (hx : Keep s0 x) => ?_) ?_); (on_goal 1 => try clear_value x); (on_goal 2 => (unfold x; clear x))) | (extract_lets -underBinder +onlyGivenNames x; have hd : x.dram = x.dram := rfl) | (extract_lets -underBinder +onlyGivenNames x; try clear_value x) | split)

theorem State.protWrite_keep {s0 s : State} (h : Keep s0 s) (table i : Nat) (ws : List Word64) : KeepO s0 (State.protWrite s table i ws) := by
  unfold State.protWrite
  repeat' (with_reducible first | assumption | exact Keep.refl _ | apply State.wr_keep | apply State.stage_keep | apply State.putKey_keep | apply State.putTenant_keep | apply State.putRegion_keep | apply State.putEntry_keep | fail_if_no_progress (refine Keep.mk' ?_ rfl) | exact KeepO.none | apply KeepO.some | (extract_lets -underBinder +onlyGivenNames x; (refine (fun (hx : Keep s0 x) => ?_) ?_); (on_goal 1 => try clear_value x); (on_goal 2 => (unfold x; clear x))) | exact KeepO.get (by assumption) rfl | exact KeepO.none | apply KeepO.some | (apply KeepO.map; intro _) | (extract_lets -underBinder +onlyGivenNames x; (refine (fun (hx : KeepO s0 x) => ?_) ?_); (on_goal 1 => try clear_value x); (on_goal 2 => (unfold x; clear x))) | (extract_lets -underBinder +onlyGivenNames x; try clear_value x) | split)

theorem State.setMaster_keep {s0 s : State} (h : Keep s0 s) (b : Nat) : Keep s0 (State.setMaster s b) := by
  unfold State.setMaster
  repeat' (with_reducible first | assumption | exact Keep.refl _ | apply State.wr_keep | apply State.raise_keep | split)

theorem State.protEnd_keep {s0 s : State} (h : Keep s0 s) (w : ProtWait) : Keep s0 (State.protEnd s w) := by
  unfold State.protEnd
  repeat' (with_reducible first | assumption | exact Keep.refl _ | apply State.finishCmd_keep | fail_if_no_progress (refine Keep.mk' ?_ rfl) | (extract_lets -underBinder +onlyGivenNames x; (refine (fun (hx : Keep s0 x) => ?_) ?_); (on_goal 1 => try clear_value x); (on_goal 2 => (unfold x; clear x))) | (extract_lets -underBinder +onlyGivenNames x; try clear_value x) | split)

theorem protWriteAll_keep {s0 : State}  : ∀ (a0 : Nat) (a1 : List (Nat × List Word64)) (a2 : State) (a3 : Nat), Keep s0 a2 → Keep s0 (protWriteAll a0 a1 a2 a3).1 := by
  intro a0 a1
  induction a1 with
  | nil =>
    intro a2 a3 h
    first | rw [protWriteAll] | unfold protWriteAll
    repeat' (with_reducible first | assumption | exact Keep.refl _ | apply State.protWrite_keep | fail_if_no_progress (refine Keep.mk' ?_ rfl) | refine KeepO.get ?_ (by assumption) | (extract_lets -underBinder +onlyGivenNames x; (refine (fun (hx : Keep s0 x) => ?_) ?_); (on_goal 1 => try clear_value x); (on_goal 2 => (unfold x; clear x))) | exact KeepO.get (by assumption) rfl | exact KeepO.none | apply KeepO.some | (apply KeepO.map; intro _) | (extract_lets -underBinder +onlyGivenNames x; (refine (fun (hx : KeepO s0 x) => ?_) ?_); (on_goal 1 => try clear_value x); (on_goal 2 => (unfold x; clear x))) | (extract_lets -underBinder +onlyGivenNames x; (refine (fun (hx : Keep s0 x.1) => ?_) ?_); (on_goal 1 => try clear_value x); (on_goal 2 => (unfold x; clear x))) | (extract_lets -underBinder +onlyGivenNames x; try clear_value x) | split)
  | cons x xs ih =>
    intro a2 a3 h
    first | rw [protWriteAll] | unfold protWriteAll
    repeat' (with_reducible first | assumption | apply ih | exact Keep.refl _ | apply State.protWrite_keep | fail_if_no_progress (refine Keep.mk' ?_ rfl) | refine KeepO.get ?_ (by assumption) | (extract_lets -underBinder +onlyGivenNames x; (refine (fun (hx : Keep s0 x) => ?_) ?_); (on_goal 1 => try clear_value x); (on_goal 2 => (unfold x; clear x))) | exact KeepO.get (by assumption) rfl | exact KeepO.none | apply KeepO.some | (apply KeepO.map; intro _) | (extract_lets -underBinder +onlyGivenNames x; (refine (fun (hx : KeepO s0 x) => ?_) ?_); (on_goal 1 => try clear_value x); (on_goal 2 => (unfold x; clear x))) | (extract_lets -underBinder +onlyGivenNames x; (refine (fun (hx : Keep s0 x.1) => ?_) ?_); (on_goal 1 => try clear_value x); (on_goal 2 => (unfold x; clear x))) | (extract_lets -underBinder +onlyGivenNames x; try clear_value x) | split)

theorem State.protAsk_keep {s0 s : State} (h : Keep s0 s) (w : ProtWait) : Keep s0 (State.protAsk s w) := by
  unfold State.protAsk
  repeat' (with_reducible first | assumption | exact Keep.refl _ | apply State.sendLink_keep | apply State.protWrite_keep | fail_if_no_progress (refine Keep.mk' ?_ rfl) | refine KeepO.get ?_ (by assumption) | (extract_lets -underBinder +onlyGivenNames x; (refine (fun (hx : Keep s0 x) => ?_) ?_); (on_goal 1 => try clear_value x); (on_goal 2 => (unfold x; clear x))) | exact KeepO.get (by assumption) rfl | exact KeepO.none | apply KeepO.some | (apply KeepO.map; intro _) | (extract_lets -underBinder +onlyGivenNames x; (refine (fun (hx : KeepO s0 x) => ?_) ?_); (on_goal 1 => try clear_value x); (on_goal 2 => (unfold x; clear x))) | (extract_lets -underBinder +onlyGivenNames x; try clear_value x) | split)

theorem State.modWait_keep {s0 s : State} (h : Keep s0 s) (q : Nat) (f : ProtWait → ProtWait) : Keep s0 (State.modWait s q f) := by
  unfold State.modWait
  repeat' (with_reducible first | assumption | exact Keep.refl _ | fail_if_no_progress (refine Keep.mk' ?_ rfl) | (extract_lets -underBinder +onlyGivenNames x; (refine (fun (hx : Keep s0 x) => ?_) ?_); (on_goal 1 => try clear_value x); (on_goal 2 => (unfold x; clear x))) | exact KeepO.get (by assumption) rfl | exact KeepO.none | apply KeepO.some | (apply KeepO.map; intro _) | (extract_lets -underBinder +onlyGivenNames x; (refine (fun (hx : KeepO s0 x) => ?_) ?_); (on_goal 1 => try clear_value x); (on_goal 2 => (unfold x; clear x))) | (extract_lets -underBinder +onlyGivenNames x; try clear_value x) | split)

theorem State.protStep_keep {s0 s : State} (h : Keep s0 s) (w : ProtWait) : Keep s0 (State.protStep s w) := by
  unfold State.protStep
  repeat' (with_reducible first | assumption | exact Keep.refl _ | apply State.protEnd_keep | apply protWriteAll_keep | apply State.protAsk_keep | apply State.modWait_keep | fail_if_no_progress (refine Keep.mk' ?_ rfl) | refine Keep.of_fst (by assumption) ?_ | (extract_lets -underBinder +onlyGivenNames x; (refine (fun (hx : Keep s0 x) => ?_) ?_); (on_goal 1 => try clear_value x); (on_goal 2 => (unfold x; clear x))) | (extract_lets -underBinder +onlyGivenNames x; (refine (fun (hx : Keep s0 x.1) => ?_) ?_); (on_goal 1 => try clear_value x); (on_goal 2 => (unfold x; clear x))) | (extract_lets -underBinder +onlyGivenNames x; try clear_value x) | split)

theorem State.protCheck_keep {s0 s : State} (h : Keep s0 s)  : Keep s0 (State.protCheck s) := by
  unfold State.protCheck
  repeat' (with_reducible first | assumption | exact Keep.refl _ | apply State.protStep_keep | apply Keep.foldl | intro _)

theorem State.protCommand_keep {s0 s : State} (h : Keep s0 s) (q table index : Nat) (entries : List (List Word64)) (status : Nat) : Keep s0 (State.protCommand s q table index entries status) := by
  unfold State.protCommand
  repeat' (with_reducible first | assumption | exact Keep.refl _ | apply State.finishCmd_keep | apply State.protStep_keep | fail_if_no_progress (refine Keep.mk' ?_ rfl) | (extract_lets -underBinder +onlyGivenNames x; (refine (fun (hx : Keep s0 x) => ?_) ?_); (on_goal 1 => try clear_value x); (on_goal 2 => (unfold x; clear x))) | exact KeepO.get (by assumption) rfl | exact KeepO.none | apply KeepO.some | (apply KeepO.map; intro _) | (extract_lets -underBinder +onlyGivenNames x; (refine (fun (hx : KeepO s0 x) => ?_) ?_); (on_goal 1 => try clear_value x); (on_goal 2 => (unfold x; clear x))) | (extract_lets -underBinder +onlyGivenNames x; try clear_value x) | split)

theorem State.protAnswer_keep {s0 s : State} (h : Keep s0 s) (q : Nat) (r : Word64) : Keep s0 (State.protAnswer s q r) := by
  unfold State.protAnswer
  repeat' (with_reducible first | assumption | exact Keep.refl _ | apply State.modWait_keep | apply State.protStep_keep | fail_if_no_progress (refine Keep.mk' ?_ rfl) | (extract_lets -underBinder +onlyGivenNames x; (refine (fun (hx : Keep s0 x) => ?_) ?_); (on_goal 1 => try clear_value x); (on_goal 2 => (unfold x; clear x))) | exact KeepO.get (by assumption) rfl | exact KeepO.none | apply KeepO.some | (apply KeepO.map; intro _) | (extract_lets -underBinder +onlyGivenNames x; (refine (fun (hx : KeepO s0 x) => ?_) ?_); (on_goal 1 => try clear_value x); (on_goal 2 => (unfold x; clear x))) | (extract_lets -underBinder +onlyGivenNames x; try clear_value x) | split)

theorem State.protRevive_keep {s0 s : State} (h : Keep s0 s)  : Keep s0 (State.protRevive s) := by
  unfold State.protRevive
  repeat' (with_reducible first | assumption | exact Keep.refl _ | apply State.protWrite_keep | apply Keep.foldl | apply Keep.foldl_fst | apply Keep.foldl_snd | intro _ | fail_if_no_progress (refine Keep.mk' ?_ rfl) | apply KeepO.getD | (extract_lets -underBinder +onlyGivenNames x; (refine (fun (hx : Keep s0 x) => ?_) ?_); (on_goal 1 => try clear_value x); (on_goal 2 => (unfold x; clear x))) | exact KeepO.get (by assumption) rfl | exact KeepO.none | apply KeepO.some | (apply KeepO.map; intro _) | (extract_lets -underBinder +onlyGivenNames x; (refine (fun (hx : KeepO s0 x) => ?_) ?_); (on_goal 1 => try clear_value x); (on_goal 2 => (unfold x; clear x))) | (extract_lets -underBinder +onlyGivenNames x; try clear_value x))

theorem State.protServe_keep {s0 s : State} (h : Keep s0 s) (m : FwdReqMsg) : Keep s0 (State.protServe s m) := by
  unfold State.protServe
  repeat' (with_reducible first | assumption | exact Keep.refl _ | apply State.sendLink_keep | apply State.protWrite_keep | fail_if_no_progress (refine Keep.mk' ?_ rfl) | refine KeepO.get ?_ (by assumption) | apply KeepO.getD | (extract_lets -underBinder +onlyGivenNames x; (refine (fun (hx : Keep s0 x) => ?_) ?_); (on_goal 1 => try clear_value x); (on_goal 2 => (unfold x; clear x))) | exact KeepO.get (by assumption) rfl | exact KeepO.none | apply KeepO.some | (apply KeepO.map; intro _) | (extract_lets -underBinder +onlyGivenNames x; (refine (fun (hx : KeepO s0 x) => ?_) ?_); (on_goal 1 => try clear_value x); (on_goal 2 => (unfold x; clear x))) | (extract_lets -underBinder +onlyGivenNames x; try clear_value x) | split)

theorem State.keyDrainWait_keep {s0 s : State} (h : Keep s0 s) (q : Nat) : Keep s0 (State.keyDrainWait s q) := by
  unfold State.keyDrainWait
  repeat' (with_reducible first | assumption | intro _ | exact Keep.refl _ | apply State.finishCmd_keep | apply State.blockCmd_keep | apply State.drainDone_keep | fail_if_no_progress (refine Keep.mk' ?_ rfl) | (extract_lets -underBinder +onlyGivenNames x; (refine (fun (hx : Keep s0 x) => ?_) ?_); (on_goal 1 => try clear_value x); (on_goal 2 => (unfold x; clear x))) | (extract_lets -underBinder +onlyGivenNames x; try clear_value x) | split)

theorem execKeyDrainWait_keep {s0 s : State} (h : Keep s0 s) (q : Nat) : ∃ t1, (execKeyDrainWait q s) = .next t1 ∧ Keep s0 t1 := by
  unfold execKeyDrainWait
  refine ⟨_, rfl, ?_⟩
  repeat' (with_reducible first | assumption | exact Keep.refl _ | apply State.keyDrainWait_keep)

theorem State.drainSlow_keep {s0 s : State} (h : Keep s0 s)  : Keep s0 (State.drainSlow s) := by
  unfold State.drainSlow
  repeat' (with_reducible first | assumption | exact Keep.refl _ | apply State.raise_keep | apply State.upTo_keep | fail_if_no_progress (refine Keep.mk' ?_ rfl) | (extract_lets -underBinder +onlyGivenNames x; (refine (fun (hx : Keep s0 x) => ?_) ?_); (on_goal 1 => try clear_value x); (on_goal 2 => (unfold x; clear x))) | (extract_lets -underBinder +onlyGivenNames x; try clear_value x) | split)

theorem execDrainSlow_keep {s0 s : State} (h : Keep s0 s)  : ∃ t1, (execDrainSlow s) = .next t1 ∧ Keep s0 t1 := by
  unfold execDrainSlow
  refine ⟨_, rfl, ?_⟩
  repeat' (with_reducible first | assumption | exact Keep.refl _ | apply State.drainSlow_keep)

theorem State.keyEntryLoad_keep {s0 s : State} (h : Keep s0 s) (k : Nat) : Keep s0 (State.keyEntryLoad s k) := by
  unfold State.keyEntryLoad
  repeat' (with_reducible first | assumption | exact Keep.refl _ | apply State.wr_keep | apply State.satInc_keep | fail_if_no_progress (refine Keep.mk' ?_ rfl) | (extract_lets -underBinder +onlyGivenNames x; (refine (fun (hx : Keep s0 x) => ?_) ?_); (on_goal 1 => try clear_value x); (on_goal 2 => (unfold x; clear x))) | (extract_lets -underBinder +onlyGivenNames x; try clear_value x) | split)

theorem execKeyEntryLoad_keep {s0 s : State} (h : Keep s0 s) (key : Nat) : ∃ t1, (execKeyEntryLoad key s) = .next t1 ∧ Keep s0 t1 := by
  unfold execKeyEntryLoad
  refine ⟨_, rfl, ?_⟩
  repeat' (with_reducible first | assumption | exact Keep.refl _ | apply State.keyEntryLoad_keep)

end Sys2Proof.Machine
end

