-- ==== Sys2Proof/Laws/KeepDurOps.lean ====
section
/-! SUPPORT. What the operations of Machine/DurOps.lean keep (Keep). -/

set_option linter.unreachableTactic false
set_option linter.unusedTactic false
set_option linter.unusedVariables false

namespace Sys2Proof.Machine

theorem State.opTo_keep {s0 s : State} (h : Keep s0 s) (banked : Bool) (cause : Nat) : Keep s0 (State.opTo s banked cause) := by
  unfold State.opTo
  repeat' (with_reducible first | assumption | exact Keep.refl _ | apply State.wr_keep | apply State.inc_keep | apply State.emit_keep | fail_if_no_progress (refine Keep.mk' ?_ rfl) | (extract_lets -underBinder +onlyGivenNames x; (refine (fun (hx : Keep s0 x) => ?_) ?_); (on_goal 1 => try clear_value x); (on_goal 2 => (unfold x; clear x))) | (extract_lets -underBinder +onlyGivenNames x; try clear_value x) | split)

theorem State.opEval_keep {s0 s : State} (h : Keep s0 s)  : Keep s0 (State.opEval s) := by
  unfold State.opEval
  repeat' (with_reducible first | assumption | exact Keep.refl _ | apply State.wr_keep | apply State.opTo_keep | fail_if_no_progress (refine Keep.mk' ?_ rfl) | (extract_lets -underBinder +onlyGivenNames x; (refine (fun (hx : Keep s0 x) => ?_) ?_); (on_goal 1 => try clear_value x); (on_goal 2 => (unfold x; clear x))) | (extract_lets -underBinder +onlyGivenNames x; try clear_value x) | split)

theorem State.setPortSt_keep {s0 s : State} (h : Keep s0 s) (p st : Nat) : Keep s0 (State.setPortSt s p st) := by
  unfold State.setPortSt
  repeat' (with_reducible first | assumption | exact Keep.refl _ | apply State.wr_keep)

theorem State.portLeaves_keep {s0 s : State} (h : Keep s0 s) (p st cause : Nat) : Keep s0 (State.portLeaves s p st cause) := by
  unfold State.portLeaves
  repeat' (with_reducible first | assumption | exact Keep.refl _ | apply State.wr_keep | apply State.inc_keep | apply State.raise_keep | apply State.modPort_keep | apply State.moveHosted_keep | apply State.setPortSt_keep | fail_if_no_progress (refine Keep.mk' ?_ rfl) | (extract_lets -underBinder +onlyGivenNames x; (refine (fun (hx : Keep s0 x) => ?_) ?_); (on_goal 1 => try clear_value x); (on_goal 2 => (unfold x; clear x))) | (extract_lets -underBinder +onlyGivenNames x; try clear_value x) | split)

theorem State.reserveOne_keep {s0 s : State} (h : Keep s0 s) (n g : Nat) : KeepO1 s0 (State.reserveOne s n g) := by
  unfold State.reserveOne
  repeat' (with_reducible first | assumption | exact Keep.refl _ | apply State.setSb_keep | apply State.openSb_keep | fail_if_no_progress (refine Keep.mk' ?_ rfl) | refine KeepO.get ?_ (by assumption) | exact KeepO1.none | apply KeepO1.some | apply KeepO.getD | (extract_lets -underBinder +onlyGivenNames x; (refine (fun (hx : Keep s0 x) => ?_) ?_); (on_goal 1 => try clear_value x); (on_goal 2 => (unfold x; clear x))) | exact KeepO.get (by assumption) rfl | exact KeepO.none | apply KeepO.some | (apply KeepO.map; intro _) | (extract_lets -underBinder +onlyGivenNames x; (refine (fun (hx : KeepO s0 x) => ?_) ?_); (on_goal 1 => try clear_value x); (on_goal 2 => (unfold x; clear x))) | (extract_lets -underBinder +onlyGivenNames x; try clear_value x) | split)

theorem takeReserve_keep {s0 : State}  : ∀ (a0 : Nat) (a1 : State) (a2 : Nat) (a3 : Nat) (a4 : List (Nat × Nat × Bool)), Keep s0 a1 → Keep s0 (takeReserve a0 a1 a2 a3 a4).1 := by
  intro  a0
  induction a0 with
  | zero =>
    intro a1 a2 a3 a4 h
    first | rw [takeReserve] | unfold takeReserve
    repeat' (with_reducible first | assumption | exact Keep.refl _ | apply State.reserveOne_keep | fail_if_no_progress (refine Keep.mk' ?_ rfl) | refine KeepO1.get ?_ (by assumption) | (extract_lets -underBinder +onlyGivenNames x; (refine (fun (hx : Keep s0 x) => ?_) ?_); (on_goal 1 => try clear_value x); (on_goal 2 => (unfold x; clear x))) | (extract_lets -underBinder +onlyGivenNames x; (refine (fun (hx : Keep s0 x.1) => ?_) ?_); (on_goal 1 => try clear_value x); (on_goal 2 => (unfold x; clear x))) | (extract_lets -underBinder +onlyGivenNames x; try clear_value x) | split)
  | succ n ih =>
    intro a1 a2 a3 a4 h
    first | rw [takeReserve] | unfold takeReserve
    repeat' (with_reducible first | assumption | apply ih | exact Keep.refl _ | apply State.reserveOne_keep | fail_if_no_progress (refine Keep.mk' ?_ rfl) | refine KeepO1.get ?_ (by assumption) | (extract_lets -underBinder +onlyGivenNames x; (refine (fun (hx : Keep s0 x) => ?_) ?_); (on_goal 1 => try clear_value x); (on_goal 2 => (unfold x; clear x))) | (extract_lets -underBinder +onlyGivenNames x; (refine (fun (hx : Keep s0 x.1) => ?_) ?_); (on_goal 1 => try clear_value x); (on_goal 2 => (unfold x; clear x))) | (extract_lets -underBinder +onlyGivenNames x; try clear_value x) | split)

theorem State.linkOff_keep {s0 s : State} (h : Keep s0 s)  : Keep s0 (State.linkOff s) := by
  unfold State.linkOff
  repeat' (with_reducible first | assumption | exact Keep.refl _ | apply State.setReg_keep | fail_if_no_progress (refine Keep.mk' ?_ rfl) | (extract_lets -underBinder +onlyGivenNames x; (refine (fun (hx : Keep s0 x) => ?_) ?_); (on_goal 1 => try clear_value x); (on_goal 2 => (unfold x; clear x))) | (extract_lets -underBinder +onlyGivenNames x; try clear_value x))

theorem State.flushWrite_keep {s0 s : State} (h : Keep s0 s) (fin : Nat) : Keep s0 (State.flushWrite s fin) := by
  unfold State.flushWrite
  repeat' (with_reducible first | assumption | exact Keep.refl _ | apply State.wr_keep | apply State.setStat_keep | apply State.cphCount_keep | apply State.jrnForce_keep | apply State.opTo_keep | apply State.portLeaves_keep | apply takeReserve_keep | apply State.linkOff_keep | apply Keep.foldl | apply Keep.foldl_fst | apply Keep.foldl_snd | intro _ | fail_if_no_progress (refine Keep.mk' ?_ rfl) | refine Keep.of_fst (by assumption) ?_ | (extract_lets -underBinder +onlyGivenNames x; (refine (fun (hx : Keep s0 x) => ?_) ?_); (on_goal 1 => try clear_value x); (on_goal 2 => (unfold x; clear x))) | (extract_lets -underBinder +onlyGivenNames x; (refine (fun (hx : Keep s0 x.1) => ?_) ?_); (on_goal 1 => try clear_value x); (on_goal 2 => (unfold x; clear x))) | (extract_lets -underBinder +onlyGivenNames x; try clear_value x) | split)

theorem State.flushGo_keep {s0 s : State} (h : Keep s0 s)  : Keep s0 (State.flushGo s) := by
  unfold State.flushGo
  repeat' (with_reducible first | assumption | exact Keep.refl _ | apply State.flushWrite_keep | fail_if_no_progress (refine Keep.mk' ?_ rfl) | (extract_lets -underBinder +onlyGivenNames x; (refine (fun (hx : Keep s0 x) => ?_) ?_); (on_goal 1 => try clear_value x); (on_goal 2 => (unfold x; clear x))) | (extract_lets -underBinder +onlyGivenNames x; try clear_value x) | split)

theorem State.startFlush_keep {s0 s : State} (h : Keep s0 s) (cause : Nat) : Keep s0 (State.startFlush s cause) := by
  unfold State.startFlush
  repeat' (with_reducible first | assumption | exact Keep.refl _ | apply State.wr_keep | apply State.setStat_keep | apply State.raise_keep | apply State.setLevel_keep | apply State.closeEpoch_keep | apply State.settle_keep | apply State.flushWrite_keep | apply State.flushGo_keep | fail_if_no_progress (refine Keep.mk' ?_ rfl) | (extract_lets -underBinder +onlyGivenNames x; (refine (fun (hx : Keep s0 x) => ?_) ?_); (on_goal 1 => try clear_value x); (on_goal 2 => (unfold x; clear x))) | (extract_lets -underBinder +onlyGivenNames x; try clear_value x) | split)

theorem State.quiescePorts_keep {s0 s : State} (h : Keep s0 s)  : Keep s0 (State.quiescePorts s) := by
  unfold State.quiescePorts
  repeat' (with_reducible first | assumption | exact Keep.refl _ | apply State.wr_keep | apply Keep.foldl | intro _ | split)

theorem State.stopBegins_keep {s0 s : State} (h : Keep s0 s)  : Keep s0 (State.stopBegins s) := by
  unfold State.stopBegins
  repeat' (with_reducible first | assumption | exact Keep.refl _ | apply State.setStat_keep | apply State.allToError_keep | apply State.quiescePorts_keep | fail_if_no_progress (refine Keep.mk' ?_ rfl) | (extract_lets -underBinder +onlyGivenNames x; (refine (fun (hx : Keep s0 x) => ?_) ?_); (on_goal 1 => try clear_value x); (on_goal 2 => (unfold x; clear x))) | (extract_lets -underBinder +onlyGivenNames x; try clear_value x))

end Sys2Proof.Machine
end

