-- ==== Sys2Proof/Laws/KeepTwinOps.lean ====
section
/-! SUPPORT. What the operations of Machine/TwinOps.lean keep (Keep). -/

set_option linter.unreachableTactic false
set_option linter.unusedTactic false
set_option linter.unusedVariables false

namespace Sys2Proof.Machine

theorem State.applyLineRec_keep {s0 s : State} (h : Keep s0 s) (t line : Nat) (poison : Bool) (d : Line) : Keep s0 (State.applyLineRec s t line poison d) := by
  unfold State.applyLineRec
  repeat' (with_reducible first | assumption | exact Keep.refl _ | apply State.addOp_keep | fail_if_no_progress (refine Keep.mk' ?_ rfl) | split)

theorem State.comeBack_keep {s0 s : State} (h : Keep s0 s)  : Keep s0 (State.comeBack s) := by
  unfold State.comeBack
  repeat' (with_reducible first | assumption | exact Keep.refl _ | apply State.raiseIf_keep | apply State.recountQps_keep | apply State.announceAll_keep | apply Keep.foldl | intro _ | fail_if_no_progress (refine Keep.mk' ?_ rfl) | (extract_lets -underBinder +onlyGivenNames x; (refine (fun (hx : Keep s0 x) => ?_) ?_); (on_goal 1 => try clear_value x); (on_goal 2 => (unfold x; clear x))) | (extract_lets -underBinder +onlyGivenNames x; try clear_value x) | split)

theorem State.applyRec_keep {s0 s : State} (h : Keep s0 s) (n : Nat) (r : EpochRec) : Keep s0 (State.applyRec s n r) := by
  unfold State.applyRec
  repeat' (with_reducible first | assumption | exact Keep.refl _ | apply State.wr_keep | apply State.discardPage_keep | apply State.modQp_keep | apply State.release_keep | apply State.setAddr_keep | apply State.setRun_keep | apply State.running_keep | apply State.putEntry_keep | apply State.applyLineRec_keep | apply State.comeBack_keep | apply Keep.foldl | apply Keep.foldl_fst | apply Keep.foldl_snd | intro _ | fail_if_no_progress (refine Keep.mk' ?_ rfl) | (extract_lets -underBinder +onlyGivenNames x; (refine (fun (hx : Keep s0 x) => ?_) ?_); (on_goal 1 => try clear_value x); (on_goal 2 => (unfold x; clear x))) | exact KeepO.get (by assumption) rfl | exact KeepO.none | apply KeepO.some | (apply KeepO.map; intro _) | (extract_lets -underBinder +onlyGivenNames x; (refine (fun (hx : KeepO s0 x) => ?_) ?_); (on_goal 1 => try clear_value x); (on_goal 2 => (unfold x; clear x))) | (extract_lets -underBinder +onlyGivenNames x; have hd : x.dram = x.dram := rfl) | (extract_lets -underBinder +onlyGivenNames x; try clear_value x) | split)

theorem State.putPage_keep {s0 s : State} (h : Keep s0 s) (p t : Nat) (zero : Bool) (ls : List Line) : Keep s0 (State.putPage s p t zero ls) := by
  unfold State.putPage
  repeat' (with_reducible first | assumption | exact Keep.refl _ | apply State.takeFrame_keep | apply State.fillFrame_keep | apply State.setPte_keep | apply State.addT2_keep | apply State.setSb_keep | apply State.startProg_keep | apply State.dropUnit_keep | apply State.dropPageLines_keep | apply State.discardPage_keep | fail_if_no_progress (refine Keep.mk' ?_ rfl) | refine KeepO2.get ?_ (by assumption) | refine KeepO3.get ?_ (by assumption) | (extract_lets -underBinder +onlyGivenNames x; (refine (fun (hx : Keep s0 x) => ?_) ?_); (on_goal 1 => try clear_value x); (on_goal 2 => (unfold x; clear x))) | exact KeepO.get (by assumption) rfl | exact KeepO.none | apply KeepO.some | (apply KeepO.map; intro _) | (extract_lets -underBinder +onlyGivenNames x; (refine (fun (hx : KeepO s0 x) => ?_) ?_); (on_goal 1 => try clear_value x); (on_goal 2 => (unfold x; clear x))) | (extract_lets -underBinder +onlyGivenNames x; try clear_value x) | split)

theorem State.putPages_keep {s0 s : State} (h : Keep s0 s) (fs : List ResyncMsg) : Keep s0 (State.putPages s fs) := by
  unfold State.putPages
  repeat' (with_reducible first | assumption | exact Keep.refl _ | apply State.putPage_keep | apply Keep.foldl | intro _ | fail_if_no_progress (refine Keep.mk' ?_ rfl) | (extract_lets -underBinder +onlyGivenNames x; (refine (fun (hx : Keep s0 x) => ?_) ?_); (on_goal 1 => try clear_value x); (on_goal 2 => (unfold x; clear x))) | (extract_lets -underBinder +onlyGivenNames x; have hf := fun z => x z) | (extract_lets -underBinder +onlyGivenNames x; try clear_value x) | split)

theorem State.startApply_keep {s0 s : State} (h : Keep s0 s) (i : Incoming) : Keep s0 (State.startApply s i) := by
  unfold State.startApply
  repeat' (with_reducible first | assumption | exact Keep.refl _ | apply State.wr_keep | apply State.applyRec_keep | apply State.putPages_keep | apply Keep.foldl | apply Keep.foldl_fst | apply Keep.foldl_snd | intro _ | fail_if_no_progress (refine Keep.mk' ?_ rfl) | (extract_lets -underBinder +onlyGivenNames x; (refine (fun (hx : Keep s0 x) => ?_) ?_); (on_goal 1 => try clear_value x); (on_goal 2 => (unfold x; clear x))) | exact KeepO.get (by assumption) rfl | exact KeepO.none | apply KeepO.some | (apply KeepO.map; intro _) | (extract_lets -underBinder +onlyGivenNames x; (refine (fun (hx : KeepO s0 x) => ?_) ?_); (on_goal 1 => try clear_value x); (on_goal 2 => (unfold x; clear x))) | (extract_lets -underBinder +onlyGivenNames x; try clear_value x) | split)

theorem State.applyNext_keep {s0 s : State} (h : Keep s0 s)  : Keep s0 (State.applyNext s) := by
  unfold State.applyNext
  repeat' (with_reducible first | assumption | exact Keep.refl _ | apply State.settle_keep | apply State.startApply_keep | fail_if_no_progress (refine Keep.mk' ?_ rfl) | (extract_lets -underBinder +onlyGivenNames x; (refine (fun (hx : Keep s0 x) => ?_) ?_); (on_goal 1 => try clear_value x); (on_goal 2 => (unfold x; clear x))) | (extract_lets -underBinder +onlyGivenNames x; try clear_value x) | split)

theorem State.serveAll_keep {s0 s : State} (h : Keep s0 s)  : Keep s0 (State.serveAll s) := by
  unfold State.serveAll
  repeat' (with_reducible first | assumption | exact Keep.refl _ | fail_if_no_progress (refine Keep.mk' ?_ rfl) | (extract_lets -underBinder +onlyGivenNames x; (refine (fun (hx : Keep s0 x) => ?_) ?_); (on_goal 1 => try clear_value x); (on_goal 2 => (unfold x; clear x))) | exact KeepO.get (by assumption) rfl | exact KeepO.none | apply KeepO.some | (apply KeepO.map; intro _) | (extract_lets -underBinder +onlyGivenNames x; (refine (fun (hx : KeepO s0 x) => ?_) ?_); (on_goal 1 => try clear_value x); (on_goal 2 => (unfold x; clear x))) | (extract_lets -underBinder +onlyGivenNames x; try clear_value x))

theorem State.setRole_keep {s0 s : State} (h : Keep s0 s) (r : Nat) : Keep s0 (State.setRole s r) := by
  unfold State.setRole
  repeat' (with_reducible first | assumption | exact Keep.refl _ | apply State.wr_keep | apply State.setStat_keep | (extract_lets -underBinder +onlyGivenNames x; (refine (fun (hx : Keep s0 x) => ?_) ?_); (on_goal 1 => try clear_value x); (on_goal 2 => (unfold x; clear x))) | (extract_lets -underBinder +onlyGivenNames x; try clear_value x))

theorem State.enterService_keep {s0 s : State} (h : Keep s0 s)  : Keep s0 (State.enterService s) := by
  unfold State.enterService
  repeat' (with_reducible first | assumption | exact Keep.refl _ | apply State.wr_keep | apply State.setStat_keep | apply State.opEval_keep | apply Keep.foldl | apply Keep.foldl_fst | apply Keep.foldl_snd | intro _ | fail_if_no_progress (refine Keep.mk' ?_ rfl) | (extract_lets -underBinder +onlyGivenNames x; (refine (fun (hx : Keep s0 x) => ?_) ?_); (on_goal 1 => try clear_value x); (on_goal 2 => (unfold x; clear x))) | (extract_lets -underBinder +onlyGivenNames x; try clear_value x) | split)

theorem State.openFirst_keep {s0 s : State} (h : Keep s0 s) (n : Nat) (at_ : Nat) : Keep s0 (State.openFirst s n at_) := by
  unfold State.openFirst
  repeat' (with_reducible first | assumption | exact Keep.refl _ | apply State.wr_keep | apply State.openNext_keep | fail_if_no_progress (refine Keep.mk' ?_ rfl) | (extract_lets -underBinder +onlyGivenNames x; (refine (fun (hx : Keep s0 x) => ?_) ?_); (on_goal 1 => try clear_value x); (on_goal 2 => (unfold x; clear x))) | (extract_lets -underBinder +onlyGivenNames x; try clear_value x))

theorem State.holdOwn_keep {s0 s : State} (h : Keep s0 s)  : Keep s0 (State.holdOwn s) := by
  unfold State.holdOwn
  repeat' (with_reducible first | assumption | exact Keep.refl _ | apply State.wr_keep | fail_if_no_progress (refine Keep.mk' ?_ rfl) | (extract_lets -underBinder +onlyGivenNames x; (refine (fun (hx : Keep s0 x) => ?_) ?_); (on_goal 1 => try clear_value x); (on_goal 2 => (unfold x; clear x))) | (extract_lets -underBinder +onlyGivenNames x; try clear_value x) | split)

theorem State.openSolo_keep {s0 s : State} (h : Keep s0 s)  : Keep s0 (State.openSolo s) := by
  unfold State.openSolo
  repeat' (with_reducible first | assumption | exact Keep.refl _ | apply State.wr_keep | apply State.raise_keep | apply State.allOwned_keep | apply State.settle_keep | apply State.setMaster_keep | apply State.serveAll_keep | apply State.setRole_keep | apply State.enterService_keep | apply State.openFirst_keep | apply State.holdOwn_keep | fail_if_no_progress (refine Keep.mk' ?_ rfl) | (extract_lets -underBinder +onlyGivenNames x; (refine (fun (hx : Keep s0 x) => ?_) ?_); (on_goal 1 => try clear_value x); (on_goal 2 => (unfold x; clear x))) | (extract_lets -underBinder +onlyGivenNames x; try clear_value x))

theorem State.sendHandshake_keep {s0 s : State} (h : Keep s0 s)  : Keep s0 (State.sendHandshake s) := by
  unfold State.sendHandshake
  repeat' (with_reducible first | assumption | exact Keep.refl _ | apply State.sendLink_keep | fail_if_no_progress (refine Keep.mk' ?_ rfl) | (extract_lets -underBinder +onlyGivenNames x; (refine (fun (hx : Keep s0 x) => ?_) ?_); (on_goal 1 => try clear_value x); (on_goal 2 => (unfold x; clear x))) | (extract_lets -underBinder +onlyGivenNames x; try clear_value x) | split)

theorem State.stageAddrs_keep {s0 s : State} (h : Keep s0 s)  : Keep s0 (State.stageAddrs s) := by
  unfold State.stageAddrs
  repeat' (with_reducible first | assumption | exact Keep.refl _ | apply State.stage_keep | apply Keep.foldl | apply Keep.foldl_fst | apply Keep.foldl_snd | intro _ | split)

theorem State.stageAll_keep {s0 s : State} (h : Keep s0 s)  : Keep s0 (State.stageAll s) := by
  unfold State.stageAll
  repeat' (with_reducible first | assumption | exact Keep.refl _ | apply State.stage_keep | apply State.stageQp_keep | apply Keep.foldl | apply Keep.foldl_fst | apply Keep.foldl_snd | intro _ | (extract_lets -underBinder +onlyGivenNames x; (refine (fun (hx : Keep s0 x) => ?_) ?_); (on_goal 1 => try clear_value x); (on_goal 2 => (unfold x; clear x))) | (extract_lets -underBinder +onlyGivenNames x; have hd : x.dram = x.dram := rfl) | (extract_lets -underBinder +onlyGivenNames x; try clear_value x) | split)

theorem State.adopt_keep {s0 s : State} (h : Keep s0 s) (m : HandshakeMsg) : Keep s0 (State.adopt s m) := by
  unfold State.adopt
  repeat' (with_reducible first | assumption | exact Keep.refl _ | apply State.wr_keep | apply State.setPool_keep | fail_if_no_progress (refine Keep.mk' ?_ rfl) | (extract_lets -underBinder +onlyGivenNames x; (refine (fun (hx : Keep s0 x) => ?_) ?_); (on_goal 1 => try clear_value x); (on_goal 2 => (unfold x; clear x))) | exact KeepO.get (by assumption) rfl | exact KeepO.none | apply KeepO.some | (apply KeepO.map; intro _) | (extract_lets -underBinder +onlyGivenNames x; (refine (fun (hx : KeepO s0 x) => ?_) ?_); (on_goal 1 => try clear_value x); (on_goal 2 => (unfold x; clear x))) | (extract_lets -underBinder +onlyGivenNames x; have hd : x.dram = x.dram := rfl) | (extract_lets -underBinder +onlyGivenNames x; try clear_value x) | split)

theorem State.dropPartials_keep {s0 s : State} (h : Keep s0 s)  : Keep s0 (State.dropPartials s) := by
  unfold State.dropPartials
  repeat' (with_reducible first | assumption | exact Keep.refl _ | apply State.subLink_keep | apply State.afterFree_keep | fail_if_no_progress (refine Keep.mk' ?_ rfl) | (extract_lets -underBinder +onlyGivenNames x; (refine (fun (hx : Keep s0 x) => ?_) ?_); (on_goal 1 => try clear_value x); (on_goal 2 => (unfold x; clear x))) | exact KeepO.get (by assumption) rfl | exact KeepO.none | apply KeepO.some | (apply KeepO.map; intro _) | (extract_lets -underBinder +onlyGivenNames x; (refine (fun (hx : KeepO s0 x) => ?_) ?_); (on_goal 1 => try clear_value x); (on_goal 2 => (unfold x; clear x))) | (extract_lets -underBinder +onlyGivenNames x; try clear_value x))

theorem State.dropWork_keep {s0 s : State} (h : Keep s0 s)  : Keep s0 (State.dropWork s) := by
  unfold State.dropWork
  repeat' (with_reducible first | assumption | exact Keep.refl _ | apply State.dropMsg_keep | apply State.dropOps_keep | apply State.freeRun_keep | apply State.dropPartials_keep | apply Keep.foldl | apply Keep.foldl_fst | apply Keep.foldl_snd | intro _ | fail_if_no_progress (refine Keep.mk' ?_ rfl) | (extract_lets -underBinder +onlyGivenNames x; (refine (fun (hx : Keep s0 x) => ?_) ?_); (on_goal 1 => try clear_value x); (on_goal 2 => (unfold x; clear x))) | (extract_lets -underBinder +onlyGivenNames x; try clear_value x) | split)

theorem State.startResync_keep {s0 s : State} (h : Keep s0 s) (plan : Option (List Nat)) (mutual_ : Bool) : Keep s0 (State.startResync s plan mutual_) := by
  unfold State.startResync
  repeat' (with_reducible first | assumption | exact Keep.refl _ | apply State.wr_keep | apply State.raise_keep | fail_if_no_progress (refine Keep.mk' ?_ rfl) | (extract_lets -underBinder +onlyGivenNames x; (refine (fun (hx : Keep s0 x) => ?_) ?_); (on_goal 1 => try clear_value x); (on_goal 2 => (unfold x; clear x))) | exact KeepO.get (by assumption) rfl | exact KeepO.none | apply KeepO.some | (apply KeepO.map; intro _) | (extract_lets -underBinder +onlyGivenNames x; (refine (fun (hx : KeepO s0 x) => ?_) ?_); (on_goal 1 => try clear_value x); (on_goal 2 => (unfold x; clear x))) | (extract_lets -underBinder +onlyGivenNames x; try clear_value x) | split)

theorem State.becomeStandby_keep {s0 s : State} (h : Keep s0 s) (m : HandshakeMsg) (full : Bool) : Keep s0 (State.becomeStandby s m full) := by
  unfold State.becomeStandby
  repeat' (with_reducible first | assumption | exact Keep.refl _ | apply State.wr_keep | apply State.raise_keep | apply State.allOwned_keep | apply State.returnAddrs_keep | apply State.sendLink_keep | apply State.setMaster_keep | apply State.serveAll_keep | apply State.setRole_keep | apply State.enterService_keep | apply State.openFirst_keep | apply State.stageAddrs_keep | apply State.adopt_keep | apply State.dropWork_keep | fail_if_no_progress (refine Keep.mk' ?_ rfl) | (extract_lets -underBinder +onlyGivenNames x; (refine (fun (hx : Keep s0 x) => ?_) ?_); (on_goal 1 => try clear_value x); (on_goal 2 => (unfold x; clear x))) | (extract_lets -underBinder +onlyGivenNames x; try clear_value x) | split)

theorem State.becomeSource_keep {s0 s : State} (h : Keep s0 s) (m : HandshakeMsg) (full : Bool) : Keep s0 (State.becomeSource s m full) := by
  unfold State.becomeSource
  repeat' (with_reducible first | assumption | exact Keep.refl _ | apply State.allOwned_keep | apply State.setMaster_keep | apply State.serveAll_keep | apply State.setRole_keep | apply State.enterService_keep | apply State.openFirst_keep | apply State.stageAddrs_keep | apply State.stageAll_keep | apply State.startResync_keep | fail_if_no_progress (refine Keep.mk' ?_ rfl) | (extract_lets -underBinder +onlyGivenNames x; (refine (fun (hx : Keep s0 x) => ?_) ?_); (on_goal 1 => try clear_value x); (on_goal 2 => (unfold x; clear x))) | (extract_lets -underBinder +onlyGivenNames x; try clear_value x) | split)

theorem State.enterPaired_keep {s0 s : State} (h : Keep s0 s)  : Keep s0 (State.enterPaired s) := by
  unfold State.enterPaired
  repeat' (with_reducible first | assumption | exact Keep.refl _ | apply State.wr_keep | apply State.raise_keep | apply State.takeFree_keep | apply State.finishCmd_keep | apply State.setMaster_keep | apply State.setRole_keep | fail_if_no_progress (refine Keep.mk' ?_ rfl) | refine Keep.of_snd (by assumption) ?_ | (extract_lets -underBinder +onlyGivenNames x; (refine (fun (hx : Keep s0 x) => ?_) ?_); (on_goal 1 => try clear_value x); (on_goal 2 => (unfold x; clear x))) | (extract_lets -underBinder +onlyGivenNames x; (refine (fun (hx : Keep s0 x.2) => ?_) ?_); (on_goal 1 => try clear_value x); (on_goal 2 => (unfold x; clear x))) | (extract_lets -underBinder +onlyGivenNames x; try clear_value x) | split)

theorem State.splitLoser_keep {s0 s : State} (h : Keep s0 s) (m : HandshakeMsg) : Keep s0 (State.splitLoser s m) := by
  unfold State.splitLoser
  repeat' (with_reducible first | assumption | exact Keep.refl _ | apply State.raise_keep | apply State.allToError_keep | apply State.becomeStandby_keep | (extract_lets -underBinder +onlyGivenNames x; (refine (fun (hx : Keep s0 x) => ?_) ?_); (on_goal 1 => try clear_value x); (on_goal 2 => (unfold x; clear x))) | (extract_lets -underBinder +onlyGivenNames x; try clear_value x))

theorem State.splitWinner_keep {s0 s : State} (h : Keep s0 s) (m : HandshakeMsg) : Keep s0 (State.splitWinner s m) := by
  unfold State.splitWinner
  repeat' (with_reducible first | assumption | exact Keep.refl _ | apply State.allToError_keep | apply State.announceAll_keep | apply State.becomeSource_keep | apply Keep.foldl | intro _ | (extract_lets -underBinder +onlyGivenNames x; (refine (fun (hx : Keep s0 x) => ?_) ?_); (on_goal 1 => try clear_value x); (on_goal 2 => (unfold x; clear x))) | (extract_lets -underBinder +onlyGivenNames x; try clear_value x) | split)

theorem State.bothStart_keep {s0 s : State} (h : Keep s0 s) (m : HandshakeMsg) : Keep s0 (State.bothStart s m) := by
  unfold State.bothStart
  repeat' (with_reducible first | assumption | exact Keep.refl _ | apply State.allOwned_keep | apply State.setMaster_keep | apply State.serveAll_keep | apply State.setRole_keep | apply State.enterService_keep | apply State.openFirst_keep | apply State.holdOwn_keep | apply State.stageAddrs_keep | apply State.stageAll_keep | apply State.startResync_keep | apply State.becomeStandby_keep | apply State.becomeSource_keep | apply State.enterPaired_keep | fail_if_no_progress (refine Keep.mk' ?_ rfl) | (extract_lets -underBinder +onlyGivenNames x; (refine (fun (hx : Keep s0 x) => ?_) ?_); (on_goal 1 => try clear_value x); (on_goal 2 => (unfold x; clear x))) | (extract_lets -underBinder +onlyGivenNames x; try clear_value x) | split)

theorem State.decide__keep {s0 s : State} (h : Keep s0 s) (m : HandshakeMsg) : Keep s0 (State.decide_ s m) := by
  unfold State.decide_
  repeat' (with_reducible first | assumption | exact Keep.refl _ | apply State.raise_keep | apply State.setRole_keep | apply State.becomeStandby_keep | apply State.becomeSource_keep | apply State.splitLoser_keep | apply State.splitWinner_keep | apply State.bothStart_keep | fail_if_no_progress (refine Keep.mk' ?_ rfl) | (extract_lets -underBinder +onlyGivenNames x; (refine (fun (hx : Keep s0 x) => ?_) ?_); (on_goal 1 => try clear_value x); (on_goal 2 => (unfold x; clear x))) | (extract_lets -underBinder +onlyGivenNames x; have hd : x.dram = x.dram := rfl) | (extract_lets -underBinder +onlyGivenNames x; try clear_value x) | split)

theorem State.fence_keep {s0 s : State} (h : Keep s0 s)  : Keep s0 (State.fence s) := by
  unfold State.fence
  repeat' (with_reducible first | assumption | exact Keep.refl _ | apply State.raise_keep | apply State.setRole_keep | apply State.dropWork_keep | fail_if_no_progress (refine Keep.mk' ?_ rfl) | (extract_lets -underBinder +onlyGivenNames x; (refine (fun (hx : Keep s0 x) => ?_) ?_); (on_goal 1 => try clear_value x); (on_goal 2 => (unfold x; clear x))) | (extract_lets -underBinder +onlyGivenNames x; try clear_value x))

theorem applyAllIn_keep {s0 : State}  : ∀ (a0 : Nat) (a1 : State), Keep s0 a1 → Keep s0 (applyAllIn a0 a1) := by
  intro  a0
  induction a0 with
  | zero =>
    intro a1 h
    first | rw [applyAllIn] | unfold applyAllIn
    repeat' (with_reducible first | assumption | exact Keep.refl _ | apply State.startApply_keep | fail_if_no_progress (refine Keep.mk' ?_ rfl) | (extract_lets -underBinder +onlyGivenNames x; (refine (fun (hx : Keep s0 x) => ?_) ?_); (on_goal 1 => try clear_value x); (on_goal 2 => (unfold x; clear x))) | (extract_lets -underBinder +onlyGivenNames x; try clear_value x) | split)
  | succ n ih =>
    intro a1 h
    first | rw [applyAllIn] | unfold applyAllIn
    repeat' (with_reducible first | assumption | apply ih | exact Keep.refl _ | apply State.startApply_keep | fail_if_no_progress (refine Keep.mk' ?_ rfl) | (extract_lets -underBinder +onlyGivenNames x; (refine (fun (hx : Keep s0 x) => ?_) ?_); (on_goal 1 => try clear_value x); (on_goal 2 => (unfold x; clear x))) | (extract_lets -underBinder +onlyGivenNames x; try clear_value x) | split)

theorem State.reviveForwards_keep {s0 s : State} (h : Keep s0 s)  : Keep s0 (State.reviveForwards s) := by
  unfold State.reviveForwards
  repeat' (with_reducible first | assumption | exact Keep.refl _ | apply State.modOp_keep | apply State.placed_keep | apply Keep.foldl | apply Keep.foldl_fst | apply Keep.foldl_snd | intro _ | fail_if_no_progress (refine Keep.mk' ?_ rfl) | (extract_lets -underBinder +onlyGivenNames x; (refine (fun (hx : Keep s0 x) => ?_) ?_); (on_goal 1 => try clear_value x); (on_goal 2 => (unfold x; clear x))) | (extract_lets -underBinder +onlyGivenNames x; try clear_value x) | split)

theorem State.hostQp_keep {s0 s : State} (h : Keep s0 s) (n : Nat) : Keep s0 (State.hostQp s n) := by
  unfold State.hostQp
  repeat' (with_reducible first | assumption | exact Keep.refl _ | apply State.takeHold_keep | apply State.reserve_keep | apply State.modQp_keep | apply State.setQf_keep | fail_if_no_progress (refine Keep.mk' ?_ rfl) | refine Keep.of_fst (by assumption) ?_ | (extract_lets -underBinder +onlyGivenNames x; (refine (fun (hx : Keep s0 x) => ?_) ?_); (on_goal 1 => try clear_value x); (on_goal 2 => (unfold x; clear x))) | (extract_lets -underBinder +onlyGivenNames x; (refine (fun (hx : Keep s0 x.1) => ?_) ?_); (on_goal 1 => try clear_value x); (on_goal 2 => (unfold x; clear x))) | (extract_lets -underBinder +onlyGivenNames x; have hf := fun z => x z) | (extract_lets -underBinder +onlyGivenNames x; try clear_value x) | split)

theorem State.resumeRun_keep {s0 s : State} (h : Keep s0 s) (i : Nat) : Keep s0 (State.resumeRun s i) := by
  unfold State.resumeRun
  repeat' (with_reducible first | assumption | exact Keep.refl _ | apply State.wr_keep | apply State.addWused_keep | apply State.reserve_keep | apply State.setRun_keep | apply State.chainStepDone_keep | fail_if_no_progress (refine Keep.mk' ?_ rfl) | (extract_lets -underBinder +onlyGivenNames x; (refine (fun (hx : Keep s0 x) => ?_) ?_); (on_goal 1 => try clear_value x); (on_goal 2 => (unfold x; clear x))) | exact KeepO.get (by assumption) rfl | exact KeepO.none | apply KeepO.some | (apply KeepO.map; intro _) | (extract_lets -underBinder +onlyGivenNames x; (refine (fun (hx : KeepO s0 x) => ?_) ?_); (on_goal 1 => try clear_value x); (on_goal 2 => (unfold x; clear x))) | (extract_lets -underBinder +onlyGivenNames x; try clear_value x) | split)

theorem State.takeover_keep {s0 s : State} (h : Keep s0 s) (cause : Nat) : Keep s0 (State.takeover s cause) := by
  unfold State.takeover
  repeat' (with_reducible first | assumption | exact Keep.refl _ | apply State.wr_keep | apply State.raise_keep | apply State.raiseIf_keep | apply State.takeFree_keep | apply State.allOwned_keep | apply State.dropOps_keep | apply State.recountQps_keep | apply State.placeHosted_keep | apply State.setCf_keep | apply State.twinCtr_keep | apply State.confirmAll_keep | apply State.settle_keep | apply State.tirCheck_keep | apply State.setMaster_keep | apply State.protCheck_keep | apply State.protRevive_keep | apply State.serveAll_keep | apply State.setRole_keep | apply State.dropPartials_keep | apply applyAllIn_keep | apply State.reviveForwards_keep | apply State.hostQp_keep | apply State.resumeRun_keep | apply Keep.foldl | apply Keep.foldl_fst | apply Keep.foldl_snd | intro _ | fail_if_no_progress (refine Keep.mk' ?_ rfl) | refine Keep.of_snd (by assumption) ?_ | (extract_lets -underBinder +onlyGivenNames x; (refine (fun (hx : Keep s0 x) => ?_) ?_); (on_goal 1 => try clear_value x); (on_goal 2 => (unfold x; clear x))) | exact KeepO.get (by assumption) rfl | exact KeepO.none | apply KeepO.some | (apply KeepO.map; intro _) | (extract_lets -underBinder +onlyGivenNames x; (refine (fun (hx : KeepO s0 x) => ?_) ?_); (on_goal 1 => try clear_value x); (on_goal 2 => (unfold x; clear x))) | (extract_lets -underBinder +onlyGivenNames x; (refine (fun (hx : Keep s0 x.2) => ?_) ?_); (on_goal 1 => try clear_value x); (on_goal 2 => (unfold x; clear x))) | (extract_lets -underBinder +onlyGivenNames x; try clear_value x) | split)

theorem State.standbyTakeover_keep {s0 s : State} (h : Keep s0 s) (cause : Nat) : Keep s0 (State.standbyTakeover s cause) := by
  unfold State.standbyTakeover
  repeat' (with_reducible first | assumption | exact Keep.refl _ | apply State.wr_keep | apply State.takeover_keep | apply Keep.foldl | apply Keep.foldl_fst | apply Keep.foldl_snd | intro _ | fail_if_no_progress (refine Keep.mk' ?_ rfl) | (extract_lets -underBinder +onlyGivenNames x; (refine (fun (hx : Keep s0 x) => ?_) ?_); (on_goal 1 => try clear_value x); (on_goal 2 => (unfold x; clear x))) | exact KeepO.get (by assumption) rfl | exact KeepO.none | apply KeepO.some | (apply KeepO.map; intro _) | (extract_lets -underBinder +onlyGivenNames x; (refine (fun (hx : KeepO s0 x) => ?_) ?_); (on_goal 1 => try clear_value x); (on_goal 2 => (unfold x; clear x))) | (extract_lets -underBinder +onlyGivenNames x; have hf := fun z => x z) | (extract_lets -underBinder +onlyGivenNames x; try clear_value x) | split)

theorem State.declareLoss_keep {s0 s : State} (h : Keep s0 s) (cause : Nat) : Keep s0 (State.declareLoss s cause) := by
  unfold State.declareLoss
  repeat' (with_reducible first | assumption | exact Keep.refl _ | apply State.takeover_keep | apply State.standbyTakeover_keep | (extract_lets -underBinder +onlyGivenNames x; (refine (fun (hx : Keep s0 x) => ?_) ?_); (on_goal 1 => try clear_value x); (on_goal 2 => (unfold x; clear x))) | (extract_lets -underBinder +onlyGivenNames x; try clear_value x) | split)

theorem State.onLoss_keep {s0 s : State} (h : Keep s0 s)  : Keep s0 (State.onLoss s) := by
  unfold State.onLoss
  repeat' (with_reducible first | assumption | exact Keep.refl _ | apply State.raise_keep | apply State.fence_keep | apply State.declareLoss_keep | fail_if_no_progress (refine Keep.mk' ?_ rfl) | (extract_lets -underBinder +onlyGivenNames x; (refine (fun (hx : Keep s0 x) => ?_) ?_); (on_goal 1 => try clear_value x); (on_goal 2 => (unfold x; clear x))) | (extract_lets -underBinder +onlyGivenNames x; try clear_value x) | split)

theorem State.giveBack_keep {s0 s : State} (h : Keep s0 s)  : Keep s0 (State.giveBack s).1 := by
  unfold State.giveBack
  repeat' (with_reducible first | assumption | exact Keep.refl _ | apply State.raiseIf_keep | apply State.setQf_keep | apply State.stageQp_keep | apply State.recountQps_keep | apply State.returnAddrs_keep | apply State.setCf_keep | apply State.stageChain_keep | apply Keep.foldl | apply Keep.foldl_fst | apply Keep.foldl_snd | intro _ | (extract_lets -underBinder +onlyGivenNames x; (refine (fun (hx : Keep s0 x) => ?_) ?_); (on_goal 1 => try clear_value x); (on_goal 2 => (unfold x; clear x))) | exact KeepO.get (by assumption) rfl | exact KeepO.none | apply KeepO.some | (apply KeepO.map; intro _) | (extract_lets -underBinder +onlyGivenNames x; (refine (fun (hx : KeepO s0 x) => ?_) ?_); (on_goal 1 => try clear_value x); (on_goal 2 => (unfold x; clear x))) | (extract_lets -underBinder +onlyGivenNames x; (refine (fun (hx : Keep s0 x.1) => ?_) ?_); (on_goal 1 => try clear_value x); (on_goal 2 => (unfold x; clear x))) | (extract_lets -underBinder +onlyGivenNames x; try clear_value x) | split)

theorem State.resyncComplete_keep {s0 s : State} (h : Keep s0 s)  : Keep s0 (State.resyncComplete s) := by
  unfold State.resyncComplete
  repeat' (with_reducible first | assumption | exact Keep.refl _ | apply State.wr_keep | apply State.raise_keep | apply State.enterPaired_keep | apply State.giveBack_keep | fail_if_no_progress (refine Keep.mk' ?_ rfl) | refine Keep.of_fst (by assumption) ?_ | (extract_lets -underBinder +onlyGivenNames x; (refine (fun (hx : Keep s0 x) => ?_) ?_); (on_goal 1 => try clear_value x); (on_goal 2 => (unfold x; clear x))) | (extract_lets -underBinder +onlyGivenNames x; (refine (fun (hx : Keep s0 x.1) => ?_) ?_); (on_goal 1 => try clear_value x); (on_goal 2 => (unfold x; clear x))) | (extract_lets -underBinder +onlyGivenNames x; try clear_value x) | split)

theorem State.resyncCheck_keep {s0 s : State} (h : Keep s0 s)  : Keep s0 (State.resyncCheck s) := by
  unfold State.resyncCheck
  repeat' (with_reducible first | assumption | exact Keep.refl _ | apply State.wr_keep | apply State.resyncComplete_keep | fail_if_no_progress (refine Keep.mk' ?_ rfl) | (extract_lets -underBinder +onlyGivenNames x; (refine (fun (hx : Keep s0 x) => ?_) ?_); (on_goal 1 => try clear_value x); (on_goal 2 => (unfold x; clear x))) | (extract_lets -underBinder +onlyGivenNames x; try clear_value x) | split)

theorem State.drillCheck_keep {s0 s : State} (h : Keep s0 s)  : Keep s0 (State.drillCheck s) := by
  unfold State.drillCheck
  repeat' (with_reducible first | assumption | exact Keep.refl _ | apply State.closeEpoch_keep | apply State.sendHandshake_keep | apply State.fence_keep | fail_if_no_progress (refine Keep.mk' ?_ rfl) | (extract_lets -underBinder +onlyGivenNames x; (refine (fun (hx : Keep s0 x) => ?_) ?_); (on_goal 1 => try clear_value x); (on_goal 2 => (unfold x; clear x))) | (extract_lets -underBinder +onlyGivenNames x; try clear_value x) | split)

theorem State.rebalanceCheck_keep {s0 s : State} (h : Keep s0 s)  : Keep s0 (State.rebalanceCheck s) := by
  unfold State.rebalanceCheck
  repeat' (with_reducible first | assumption | exact Keep.refl _ | apply State.finishCmd_keep | fail_if_no_progress (refine Keep.mk' ?_ rfl) | (extract_lets -underBinder +onlyGivenNames x; (refine (fun (hx : Keep s0 x) => ?_) ?_); (on_goal 1 => try clear_value x); (on_goal 2 => (unfold x; clear x))) | (extract_lets -underBinder +onlyGivenNames x; try clear_value x) | split)

theorem State.twinGo_keep {s0 s : State} (h : Keep s0 s)  : Keep s0 (State.twinGo s) := by
  unfold State.twinGo
  repeat' (with_reducible first | assumption | exact Keep.refl _ | apply State.settle_keep | apply State.tirCheck_keep | apply State.protCheck_keep | apply State.flushGo_keep | apply State.resyncCheck_keep | apply State.drillCheck_keep | apply State.rebalanceCheck_keep)

end Sys2Proof.Machine
end

