-- ==== Sys2Proof/Laws/KeepLink.lean ====
section
/-! SUPPORT. What the operations of Machine/Link.lean keep (Keep). -/

set_option linter.unreachableTactic false
set_option linter.unusedTactic false
set_option linter.unusedVariables false

namespace Sys2Proof.Machine

theorem State.strandTrain_keep {s0 s : State} (h : Keep s0 s) (n : Nat) : Keep s0 (State.strandTrain s n) := by
  unfold State.strandTrain
  repeat' (with_reducible first | assumption | exact Keep.refl _ | apply State.modStrand_keep | apply State.setStrandSt_keep | fail_if_no_progress (refine Keep.mk' ?_ rfl) | (extract_lets -underBinder +onlyGivenNames x; (refine (fun (hx : Keep s0 x) => ?_) ?_); (on_goal 1 => try clear_value x); (on_goal 2 => (unfold x; clear x))) | (extract_lets -underBinder +onlyGivenNames x; try clear_value x) | split)

theorem State.strandTrained_keep {s0 s : State} (h : Keep s0 s) (n : Nat) (ok : Bool) : Keep s0 (State.strandTrained s n ok) := by
  unfold State.strandTrained
  repeat' (with_reducible first | assumption | exact Keep.refl _ | apply State.emit_keep | apply State.modStrand_keep | apply State.setStrandSt_keep | apply State.strandLeaves_keep | fail_if_no_progress (refine Keep.mk' ?_ rfl) | (extract_lets -underBinder +onlyGivenNames x; (refine (fun (hx : Keep s0 x) => ?_) ?_); (on_goal 1 => try clear_value x); (on_goal 2 => (unfold x; clear x))) | (extract_lets -underBinder +onlyGivenNames x; try clear_value x) | split)

theorem execStrandTrained_keep {s0 s : State} (h : Keep s0 s) (strand : Nat) (lanes : List Nat) : ∃ t1, (execStrandTrained strand lanes s) = .next t1 ∧ Keep s0 t1 := by
  unfold execStrandTrained
  refine ⟨_, rfl, ?_⟩
  repeat' (with_reducible first | assumption | exact Keep.refl _ | apply State.strandTrained_keep | split)

theorem State.helloRecv_keep {s0 s : State} (h : Keep s0 s) (n : Nat) (m : HelloMsg) : Keep s0 (State.helloRecv s n m) := by
  unfold State.helloRecv
  repeat' (with_reducible first | assumption | exact Keep.refl _ | apply State.wr_keep | apply State.raise_keep | apply State.setStrand_keep | apply State.modStrand_keep | apply State.setStrandSt_keep | apply State.linkCtr_keep | apply State.putFrame_keep | apply State.drainLink_keep | apply State.linkUpdate_keep | apply State.strandLeaves_keep | apply State.resendHeld_keep | apply State.sendHandshake_keep | apply Keep.foldl | apply Keep.foldl_fst | apply Keep.foldl_snd | intro _ | fail_if_no_progress (refine Keep.mk' ?_ rfl) | (extract_lets -underBinder +onlyGivenNames x; (refine (fun (hx : Keep s0 x) => ?_) ?_); (on_goal 1 => try clear_value x); (on_goal 2 => (unfold x; clear x))) | exact KeepO.get (by assumption) rfl | exact KeepO.none | apply KeepO.some | (apply KeepO.map; intro _) | (extract_lets -underBinder +onlyGivenNames x; (refine (fun (hx : KeepO s0 x) => ?_) ?_); (on_goal 1 => try clear_value x); (on_goal 2 => (unfold x; clear x))) | (extract_lets -underBinder +onlyGivenNames x; try clear_value x) | split)

theorem execHello_keep {s0 s : State} (h : Keep s0 s) (strand : Nat) (m : HelloMsg) : ∃ t1, (execHello strand m s) = .next t1 ∧ Keep s0 t1 := by
  unfold execHello
  refine ⟨_, rfl, ?_⟩
  repeat' (with_reducible first | assumption | exact Keep.refl _ | apply State.helloRecv_keep | split)

theorem execStrandDown_keep {s0 s : State} (h : Keep s0 s) (strand : Nat) (cause : StrandCause) : ∃ t1, (execStrandDown strand cause s) = .next t1 ∧ Keep s0 t1 := by
  unfold execStrandDown
  refine ⟨_, rfl, ?_⟩
  repeat' (with_reducible first | assumption | exact Keep.refl _ | apply State.strandLeaves_keep | apply State.settle_keep | split)

theorem State.linkFec_keep {s0 s : State} (h : Keep s0 s) (n corr uncorr : Nat) : Keep s0 (State.linkFec s n corr uncorr) := by
  unfold State.linkFec
  repeat' (with_reducible first | assumption | exact Keep.refl _ | apply State.modStrand_keep | apply State.linkCtr_keep | apply State.strandLeaves_keep | fail_if_no_progress (refine Keep.mk' ?_ rfl) | (extract_lets -underBinder +onlyGivenNames x; (refine (fun (hx : Keep s0 x) => ?_) ?_); (on_goal 1 => try clear_value x); (on_goal 2 => (unfold x; clear x))) | (extract_lets -underBinder +onlyGivenNames x; try clear_value x) | split)

theorem execLinkFecWindow_keep {s0 s : State} (h : Keep s0 s) (strand corrCw uncorrCw : Nat) : ∃ t1, (execLinkFecWindow strand corrCw uncorrCw s) = .next t1 ∧ Keep s0 t1 := by
  unfold execLinkFecWindow
  refine ⟨_, rfl, ?_⟩
  repeat' (with_reducible first | assumption | exact Keep.refl _ | apply State.linkFec_keep | split)

theorem State.strandRetrain_keep {s0 s : State} (h : Keep s0 s) (n : Nat) : Keep s0 (State.strandRetrain s n) := by
  unfold State.strandRetrain
  repeat' (with_reducible first | assumption | exact Keep.refl _ | apply State.upTo_keep | apply State.strandTrain_keep | fail_if_no_progress (refine Keep.mk' ?_ rfl) | (extract_lets -underBinder +onlyGivenNames x; (refine (fun (hx : Keep s0 x) => ?_) ?_); (on_goal 1 => try clear_value x); (on_goal 2 => (unfold x; clear x))) | (extract_lets -underBinder +onlyGivenNames x; try clear_value x) | split)

theorem execStrandRetrain_keep {s0 s : State} (h : Keep s0 s) (strand : Nat) : ∃ t1, (execStrandRetrain strand s) = .next t1 ∧ Keep s0 t1 := by
  unfold execStrandRetrain
  refine ⟨_, rfl, ?_⟩
  repeat' (with_reducible first | assumption | exact Keep.refl _ | apply State.strandRetrain_keep | split)

theorem State.strandOff_keep {s0 s : State} (h : Keep s0 s) (n : Nat) : Keep s0 (State.strandOff s n) := by
  unfold State.strandOff
  repeat' (with_reducible first | assumption | exact Keep.refl _ | apply State.modStrand_keep | apply State.setStrandSt_keep | apply State.setCause_keep | apply State.strandLeaves_keep | fail_if_no_progress (refine Keep.mk' ?_ rfl) | (extract_lets -underBinder +onlyGivenNames x; (refine (fun (hx : Keep s0 x) => ?_) ?_); (on_goal 1 => try clear_value x); (on_goal 2 => (unfold x; clear x))) | (extract_lets -underBinder +onlyGivenNames x; try clear_value x) | split)

theorem State.strandOn_keep {s0 s : State} (h : Keep s0 s) (n : Nat) : Keep s0 (State.strandOn s n) := by
  unfold State.strandOn
  repeat' (with_reducible first | assumption | exact Keep.refl _ | apply State.modStrand_keep | apply State.strandTrain_keep | fail_if_no_progress (refine Keep.mk' ?_ rfl) | (extract_lets -underBinder +onlyGivenNames x; (refine (fun (hx : Keep s0 x) => ?_) ?_); (on_goal 1 => try clear_value x); (on_goal 2 => (unfold x; clear x))) | (extract_lets -underBinder +onlyGivenNames x; try clear_value x) | split)

theorem State.strandOffLate_keep {s0 s : State} (h : Keep s0 s) (n : Nat) : Keep s0 (State.strandOffLate s n) := by
  unfold State.strandOffLate
  repeat' (with_reducible first | assumption | exact Keep.refl _ | apply State.upTo_keep | apply State.strandLeaves_keep | apply State.settle_keep | fail_if_no_progress (refine Keep.mk' ?_ rfl) | (extract_lets -underBinder +onlyGivenNames x; (refine (fun (hx : Keep s0 x) => ?_) ?_); (on_goal 1 => try clear_value x); (on_goal 2 => (unfold x; clear x))) | (extract_lets -underBinder +onlyGivenNames x; try clear_value x) | split)

theorem execStrandDisableTimeout_keep {s0 s : State} (h : Keep s0 s) (strand : Nat) : ∃ t1, (execStrandDisableTimeout strand s) = .next t1 ∧ Keep s0 t1 := by
  unfold execStrandDisableTimeout
  refine ⟨_, rfl, ?_⟩
  repeat' (with_reducible first | assumption | exact Keep.refl _ | apply State.strandOffLate_keep | split)

theorem State.offCheck_keep {s0 s : State} (h : Keep s0 s) (n : Nat) : Keep s0 (State.offCheck s n) := by
  unfold State.offCheck
  repeat' (with_reducible first | assumption | exact Keep.refl _ | apply State.strandLeaves_keep | (extract_lets -underBinder +onlyGivenNames x; (refine (fun (hx : Keep s0 x) => ?_) ?_); (on_goal 1 => try clear_value x); (on_goal 2 => (unfold x; clear x))) | (extract_lets -underBinder +onlyGivenNames x; try clear_value x) | split)

theorem State.creditRecv_keep {s0 s : State} (h : Keep s0 s) (n : Nat) (h : LinkHdr) : Keep s0 (State.creditRecv s n h) := by
  unfold State.creditRecv
  repeat' (with_reducible first | assumption | exact Keep.refl _ | apply State.modStrand_keep | apply State.linkCtr_keep | apply State.strandLeaves_keep | apply State.takeAck_keep | apply State.offCheck_keep | fail_if_no_progress (refine Keep.mk' ?_ rfl) | (extract_lets -underBinder +onlyGivenNames x; (refine (fun (hx : Keep s0 x) => ?_) ?_); (on_goal 1 => try clear_value x); (on_goal 2 => (unfold x; clear x))) | (extract_lets -underBinder +onlyGivenNames x; try clear_value x) | split)

theorem execCredit_keep {s0 s : State} (h : Keep s0 s) (strand : Nat) (h : LinkHdr) : ∃ t1, (execCredit strand h s) = .next t1 ∧ Keep s0 t1 := by
  unfold execCredit
  refine ⟨_, rfl, ?_⟩
  repeat' (with_reducible first | assumption | exact Keep.refl _ | apply State.settle_keep | apply State.creditRecv_keep | split)

theorem State.creditSend_keep {s0 s : State} (h : Keep s0 s) (n : Nat) : Keep s0 (State.creditSend s n) := by
  unfold State.creditSend
  repeat' (with_reducible first | assumption | exact Keep.refl _ | apply State.emit_keep | apply State.modStrand_keep | apply State.linkCtr_keep | fail_if_no_progress (refine Keep.mk' ?_ rfl) | (extract_lets -underBinder +onlyGivenNames x; (refine (fun (hx : Keep s0 x) => ?_) ?_); (on_goal 1 => try clear_value x); (on_goal 2 => (unfold x; clear x))) | (extract_lets -underBinder +onlyGivenNames x; try clear_value x) | split)

theorem execCreditSend_keep {s0 s : State} (h : Keep s0 s) (strand : Nat) : ∃ t1, (execCreditSend strand s) = .next t1 ∧ Keep s0 t1 := by
  unfold execCreditSend
  refine ⟨_, rfl, ?_⟩
  repeat' (with_reducible first | assumption | exact Keep.refl _ | apply State.creditSend_keep | split)

theorem State.retryTimeout_keep {s0 s : State} (h : Keep s0 s) (n : Nat) : Keep s0 (State.retryTimeout s n) := by
  unfold State.retryTimeout
  repeat' (with_reducible first | assumption | exact Keep.refl _ | apply State.upTo_keep | apply State.goBack_keep | fail_if_no_progress (refine Keep.mk' ?_ rfl) | (extract_lets -underBinder +onlyGivenNames x; (refine (fun (hx : Keep s0 x) => ?_) ?_); (on_goal 1 => try clear_value x); (on_goal 2 => (unfold x; clear x))) | (extract_lets -underBinder +onlyGivenNames x; try clear_value x) | split)

theorem execLinkRetryTimeout_keep {s0 s : State} (h : Keep s0 s) (strand : Nat) : ∃ t1, (execLinkRetryTimeout strand s) = .next t1 ∧ Keep s0 t1 := by
  unfold execLinkRetryTimeout
  refine ⟨_, rfl, ?_⟩
  repeat' (with_reducible first | assumption | exact Keep.refl _ | apply State.retryTimeout_keep | split)

theorem State.keyNextTake_keep {s0 s : State} (h : Keep s0 s) (g : Nat) : Keep s0 (State.keyNextTake s g) := by
  unfold State.keyNextTake
  repeat' (with_reducible first | assumption | exact Keep.refl _ | apply State.wr_keep | fail_if_no_progress (refine Keep.mk' ?_ rfl) | (extract_lets -underBinder +onlyGivenNames x; (refine (fun (hx : Keep s0 x) => ?_) ?_); (on_goal 1 => try clear_value x); (on_goal 2 => (unfold x; clear x))) | exact KeepO.get (by assumption) rfl | exact KeepO.none | apply KeepO.some | (apply KeepO.map; intro _) | (extract_lets -underBinder +onlyGivenNames x; (refine (fun (hx : KeepO s0 x) => ?_) ?_); (on_goal 1 => try clear_value x); (on_goal 2 => (unfold x; clear x))) | (extract_lets -underBinder +onlyGivenNames x; try clear_value x))

theorem State.keyRotate_keep {s0 s : State} (h : Keep s0 s)  : Keep s0 (State.keyRotate s) := by
  unfold State.keyRotate
  repeat' (with_reducible first | assumption | exact Keep.refl _ | apply State.wr_keep | apply State.raise_keep | apply State.upTo_keep | apply State.modStrand_keep | apply State.linkCtr_keep | apply State.sendLink_keep | apply State.drainLink_keep | apply State.strandLeaves_keep | apply Keep.foldl | apply Keep.foldl_fst | apply Keep.foldl_snd | intro _ | fail_if_no_progress (refine Keep.mk' ?_ rfl) | (extract_lets -underBinder +onlyGivenNames x; (refine (fun (hx : Keep s0 x) => ?_) ?_); (on_goal 1 => try clear_value x); (on_goal 2 => (unfold x; clear x))) | (extract_lets -underBinder +onlyGivenNames x; try clear_value x) | split)

theorem execKeyRotate_keep {s0 s : State} (h : Keep s0 s)  : ∃ t1, (execKeyRotate s) = .next t1 ∧ Keep s0 t1 := by
  unfold execKeyRotate
  refine ⟨_, rfl, ?_⟩
  repeat' (with_reducible first | assumption | exact Keep.refl _ | apply State.keyRotate_keep)

theorem State.rotationTimeout_keep {s0 s : State} (h : Keep s0 s) (n : Nat) : Keep s0 (State.rotationTimeout s n) := by
  unfold State.rotationTimeout
  repeat' (with_reducible first | assumption | exact Keep.refl _ | apply State.upTo_keep | apply State.strandLeaves_keep | fail_if_no_progress (refine Keep.mk' ?_ rfl) | (extract_lets -underBinder +onlyGivenNames x; (refine (fun (hx : Keep s0 x) => ?_) ?_); (on_goal 1 => try clear_value x); (on_goal 2 => (unfold x; clear x))) | (extract_lets -underBinder +onlyGivenNames x; try clear_value x) | split)

theorem execRotationTimeout_keep {s0 s : State} (h : Keep s0 s) (strand : Nat) : ∃ t1, (execRotationTimeout strand s) = .next t1 ∧ Keep s0 t1 := by
  unfold execRotationTimeout
  refine ⟨_, rfl, ?_⟩
  repeat' (with_reducible first | assumption | exact Keep.refl _ | apply State.rotationTimeout_keep | split)

theorem State.timeExchange_keep {s0 s : State} (h : Keep s0 s)  : Keep s0 (State.timeExchange s) := by
  unfold State.timeExchange
  repeat' (with_reducible first | assumption | exact Keep.refl _ | apply State.wr_keep | apply State.upTo_keep | apply State.sendLink_keep | fail_if_no_progress (refine Keep.mk' ?_ rfl) | (extract_lets -underBinder +onlyGivenNames x; (refine (fun (hx : Keep s0 x) => ?_) ?_); (on_goal 1 => try clear_value x); (on_goal 2 => (unfold x; clear x))) | (extract_lets -underBinder +onlyGivenNames x; try clear_value x) | split)

theorem execTimeExchange_keep {s0 s : State} (h : Keep s0 s)  : ∃ t1, (execTimeExchange s) = .next t1 ∧ Keep s0 t1 := by
  unfold execTimeExchange
  refine ⟨_, rfl, ?_⟩
  repeat' (with_reducible first | assumption | exact Keep.refl _ | apply State.timeExchange_keep)

theorem State.alignCheck_keep {s0 s : State} (h : Keep s0 s) (within : Bool) : Keep s0 (State.alignCheck s within) := by
  unfold State.alignCheck
  repeat' (with_reducible first | assumption | exact Keep.refl _ | apply State.wr_keep | apply State.raise_keep | fail_if_no_progress (refine Keep.mk' ?_ rfl) | (extract_lets -underBinder +onlyGivenNames x; (refine (fun (hx : Keep s0 x) => ?_) ?_); (on_goal 1 => try clear_value x); (on_goal 2 => (unfold x; clear x))) | (extract_lets -underBinder +onlyGivenNames x; try clear_value x) | split)

theorem State.timeTake_keep {s0 s : State} (h : Keep s0 s) (m : TimeMsg) : Keep s0 (State.timeTake s m) := by
  unfold State.timeTake
  repeat' (with_reducible first | assumption | exact Keep.refl _ | apply State.wr_keep | apply State.raise_keep | apply State.alignCheck_keep | fail_if_no_progress (refine Keep.mk' ?_ rfl) | (extract_lets -underBinder +onlyGivenNames x; (refine (fun (hx : Keep s0 x) => ?_) ?_); (on_goal 1 => try clear_value x); (on_goal 2 => (unfold x; clear x))) | (extract_lets -underBinder +onlyGivenNames x; have hf := fun z => x z) | (extract_lets -underBinder +onlyGivenNames x; try clear_value x) | split)

theorem State.sidebandSend_keep {s0 s : State} (h : Keep s0 s)  : Keep s0 (State.sidebandSend s) := by
  unfold State.sidebandSend
  repeat' (with_reducible first | assumption | exact Keep.refl _ | apply State.upTo_keep | apply State.queueTx_keep | apply State.linkCtr_keep | fail_if_no_progress (refine Keep.mk' ?_ rfl) | (extract_lets -underBinder +onlyGivenNames x; (refine (fun (hx : Keep s0 x) => ?_) ?_); (on_goal 1 => try clear_value x); (on_goal 2 => (unfold x; clear x))) | (extract_lets -underBinder +onlyGivenNames x; try clear_value x) | split)

theorem execSidebandSend_keep {s0 s : State} (h : Keep s0 s)  : ∃ t1, (execSidebandSend s) = .next t1 ∧ Keep s0 t1 := by
  unfold execSidebandSend
  refine ⟨_, rfl, ?_⟩
  repeat' (with_reducible first | assumption | exact Keep.refl _ | apply State.sidebandSend_keep)

theorem State.sidebandFrame_keep {s0 s : State} (h : Keep s0 s) (p : Nat) : Keep s0 (State.sidebandFrame s p) := by
  unfold State.sidebandFrame
  repeat' (with_reducible first | assumption | exact Keep.refl _ | apply State.wr_keep | apply State.raise_keep | apply State.subLink_keep | apply State.afterFree_keep | apply State.popRx_keep | apply State.linkCtr_keep | apply State.declareLoss_keep | apply State.twinGo_keep | fail_if_no_progress (refine Keep.mk' ?_ rfl) | refine KeepO2.get ?_ (by assumption) | (extract_lets -underBinder +onlyGivenNames x; (refine (fun (hx : Keep s0 x) => ?_) ?_); (on_goal 1 => try clear_value x); (on_goal 2 => (unfold x; clear x))) | (extract_lets -underBinder +onlyGivenNames x; try clear_value x) | split)

theorem execSidebandFrame_keep {s0 s : State} (h : Keep s0 s) (port : Nat) : ∃ t1, (execSidebandFrame port s) = .next t1 ∧ Keep s0 t1 := by
  unfold execSidebandFrame
  refine ⟨_, rfl, ?_⟩
  repeat' (with_reducible first | assumption | exact Keep.refl _ | apply State.sidebandFrame_keep)

theorem State.sbLost_keep {s0 s : State} (h : Keep s0 s)  : Keep s0 (State.sbLost s) := by
  unfold State.sbLost
  repeat' (with_reducible first | assumption | exact Keep.refl _ | apply State.wr_keep | apply State.raise_keep | apply State.upTo_keep | apply State.declareLoss_keep | apply State.twinGo_keep | fail_if_no_progress (refine Keep.mk' ?_ rfl) | (extract_lets -underBinder +onlyGivenNames x; (refine (fun (hx : Keep s0 x) => ?_) ?_); (on_goal 1 => try clear_value x); (on_goal 2 => (unfold x; clear x))) | (extract_lets -underBinder +onlyGivenNames x; try clear_value x) | split)

theorem execSbLost_keep {s0 s : State} (h : Keep s0 s)  : ∃ t1, (execSbLost s) = .next t1 ∧ Keep s0 t1 := by
  unfold execSbLost
  refine ⟨_, rfl, ?_⟩
  repeat' (with_reducible first | assumption | exact Keep.refl _ | apply State.sbLost_keep)

end Sys2Proof.Machine
end

