-- ==== Sys2Proof/Laws/KeepCipher.lean ====
section
/-! SUPPORT. What the operations of Machine/Cipher.lean keep (Keep). -/

set_option linter.unreachableTactic false
set_option linter.unusedTactic false
set_option linter.unusedVariables false

namespace Sys2Proof.Machine

theorem State.installKey_keep {s0 s : State} (h : Keep s0 s) (n : Nat) (ks : List (BitVec 256)) : Keep s0 (State.installKey s n ks) := by
  unfold State.installKey
  repeat' (with_reducible first | assumption | exact Keep.refl _ | apply State.setKeySlot_keep | apply State.cphCount_keep | fail_if_no_progress (refine Keep.mk' ?_ rfl) | (extract_lets -underBinder +onlyGivenNames x; (refine (fun (hx : Keep s0 x) => ?_) ?_); (on_goal 1 => try clear_value x); (on_goal 2 => (unfold x; clear x))) | (extract_lets -underBinder +onlyGivenNames x; try clear_value x))

theorem State.keyDone_keep {s0 s : State} (h : Keep s0 s) (q n ev : Nat) : Keep s0 (State.keyDone s q n ev) := by
  unfold State.keyDone
  repeat' (with_reducible first | assumption | exact Keep.refl _ | apply State.raise_keep | apply State.finishCmd_keep)

theorem State.kekSet_keep {s0 s : State} (h : Keep s0 s) (q : Nat) (data : List Word64) : Keep s0 (State.kekSet s q data) := by
  unfold State.kekSet
  repeat' (with_reducible first | assumption | intro _ | exact Keep.refl _ | apply State.finishCmd_keep | apply State.blockCmd_keep | apply State.installKey_keep | apply State.keyDone_keep | (extract_lets -underBinder +onlyGivenNames x; (refine (fun (hx : Keep s0 x) => ?_) ?_); (on_goal 1 => try clear_value x); (on_goal 2 => (unfold x; clear x))) | (extract_lets -underBinder +onlyGivenNames x; try clear_value x) | split)

theorem execCphKekSet_keep {s0 s : State} (h : Keep s0 s) (q : Nat) (data : List Word64) : ∃ t1, (execCphKekSet q data s) = .next t1 ∧ Keep s0 t1 := by
  unfold execCphKekSet
  refine ⟨_, rfl, ?_⟩
  repeat' (with_reducible first | assumption | exact Keep.refl _ | apply State.kekSet_keep)

theorem State.loadWrapped_keep {s0 s : State} (h : Keep s0 s) (q n len ev : Nat) (data : List Word64) : Keep s0 (State.loadWrapped s q n len ev data) := by
  unfold State.loadWrapped
  repeat' (with_reducible first | assumption | exact Keep.refl _ | apply State.raise_keep | apply State.cphCount_keep | apply State.finishCmd_keep | apply State.installKey_keep | apply State.keyDone_keep | fail_if_no_progress (refine Keep.mk' ?_ rfl) | (extract_lets -underBinder +onlyGivenNames x; (refine (fun (hx : Keep s0 x) => ?_) ?_); (on_goal 1 => try clear_value x); (on_goal 2 => (unfold x; clear x))) | (extract_lets -underBinder +onlyGivenNames x; try clear_value x) | split)

theorem State.kekRoll_keep {s0 s : State} (h : Keep s0 s) (q : Nat) (data : List Word64) : Keep s0 (State.kekRoll s q data) := by
  unfold State.kekRoll
  repeat' (with_reducible first | assumption | intro _ | exact Keep.refl _ | apply State.blockCmd_keep | apply State.loadWrapped_keep)

theorem execCphKekRoll_keep {s0 s : State} (h : Keep s0 s) (q : Nat) (data : List Word64) : ∃ t1, (execCphKekRoll q data s) = .next t1 ∧ Keep s0 t1 := by
  unfold execCphKekRoll
  refine ⟨_, rfl, ?_⟩
  repeat' (with_reducible first | assumption | exact Keep.refl _ | apply State.kekRoll_keep)

theorem State.helloWaiting_keep {s0 s : State} (h : Keep s0 s)  : Keep s0 (State.helloWaiting s) := by
  unfold State.helloWaiting
  repeat' (with_reducible first | assumption | exact Keep.refl _ | apply State.emit_keep | apply Keep.foldl | intro _ | split)

theorem State.cphKeyLoad_keep {s0 s : State} (h : Keep s0 s) (q : Nat) (data : List Word64) : Keep s0 (State.cphKeyLoad s q data) := by
  unfold State.cphKeyLoad
  repeat' (with_reducible first | assumption | intro _ | exact Keep.refl _ | apply State.finishCmd_keep | apply State.blockCmd_keep | apply State.loadWrapped_keep | apply State.helloWaiting_keep | (extract_lets -underBinder +onlyGivenNames x; (refine (fun (hx : Keep s0 x) => ?_) ?_); (on_goal 1 => try clear_value x); (on_goal 2 => (unfold x; clear x))) | (extract_lets -underBinder +onlyGivenNames x; try clear_value x) | split)

theorem execCphKeyLoad_keep {s0 s : State} (h : Keep s0 s) (q : Nat) (data : List Word64) : ∃ t1, (execCphKeyLoad q data s) = .next t1 ∧ Keep s0 t1 := by
  unfold execCphKeyLoad
  refine ⟨_, rfl, ?_⟩
  repeat' (with_reducible first | assumption | exact Keep.refl _ | apply State.cphKeyLoad_keep)

theorem State.cphKeyClear_keep {s0 s : State} (h : Keep s0 s) (q : Nat) : Keep s0 (State.cphKeyClear s q) := by
  unfold State.cphKeyClear
  repeat' (with_reducible first | assumption | intro _ | exact Keep.refl _ | apply State.raise_keep | apply State.setKeySlot_keep | apply State.deviceKey_keep | apply State.finishCmd_keep | apply State.blockCmd_keep | fail_if_no_progress (refine Keep.mk' ?_ rfl) | (extract_lets -underBinder +onlyGivenNames x; (refine (fun (hx : Keep s0 x) => ?_) ?_); (on_goal 1 => try clear_value x); (on_goal 2 => (unfold x; clear x))) | (extract_lets -underBinder +onlyGivenNames x; try clear_value x) | split)

theorem execCphKeyClear_keep {s0 s : State} (h : Keep s0 s) (q : Nat) : ∃ t1, (execCphKeyClear q s) = .next t1 ∧ Keep s0 t1 := by
  unfold execCphKeyClear
  refine ⟨_, rfl, ?_⟩
  repeat' (with_reducible first | assumption | exact Keep.refl _ | apply State.cphKeyClear_keep)

theorem State.sealRun_keep {s0 s : State} (h : Keep s0 s) (q : Nat) (c : RqCmd) (data : List Byte) : Keep s0 (State.sealRun s q c data) := by
  unfold State.sealRun
  repeat' (with_reducible first | assumption | exact Keep.refl _ | apply State.emit_keep | apply State.raise_keep | apply State.cphCount_keep | apply State.takeIv_keep | apply State.finishCmd_keep | refine Keep.of_snd (by assumption) ?_ | (extract_lets -underBinder +onlyGivenNames x; (refine (fun (hx : Keep s0 x) => ?_) ?_); (on_goal 1 => try clear_value x); (on_goal 2 => (unfold x; clear x))) | (extract_lets -underBinder +onlyGivenNames x; (refine (fun (hx : Keep s0 x.2) => ?_) ?_); (on_goal 1 => try clear_value x); (on_goal 2 => (unfold x; clear x))) | (extract_lets -underBinder +onlyGivenNames x; try clear_value x) | split)

theorem State.unsealRun_keep {s0 s : State} (h : Keep s0 s) (q : Nat) (c : RqCmd) (data : List Byte) : Keep s0 (State.unsealRun s q c data) := by
  unfold State.unsealRun
  repeat' (with_reducible first | assumption | exact Keep.refl _ | apply State.emit_keep | apply State.raise_keep | apply State.cphCount_keep | apply State.finishCmd_keep | fail_if_no_progress (refine Keep.mk' ?_ rfl) | (extract_lets -underBinder +onlyGivenNames x; (refine (fun (hx : Keep s0 x) => ?_) ?_); (on_goal 1 => try clear_value x); (on_goal 2 => (unfold x; clear x))) | (extract_lets -underBinder +onlyGivenNames x; try clear_value x) | split)

theorem State.sealGo_keep {s0 s : State} (h : Keep s0 s) (q : Nat) (c : RqCmd) (data : List Byte) : Keep s0 (State.sealGo s q c data) := by
  unfold State.sealGo
  repeat' (with_reducible first | assumption | exact Keep.refl _ | apply State.sealRun_keep | apply State.unsealRun_keep | fail_if_no_progress (refine Keep.mk' ?_ rfl) | (extract_lets -underBinder +onlyGivenNames x; (refine (fun (hx : Keep s0 x) => ?_) ?_); (on_goal 1 => try clear_value x); (on_goal 2 => (unfold x; clear x))) | (extract_lets -underBinder +onlyGivenNames x; try clear_value x) | split)

theorem State.sealRelease_keep {s0 s : State} (h : Keep s0 s)  : Keep s0 (State.sealRelease s) := by
  unfold State.sealRelease
  repeat' (with_reducible first | assumption | exact Keep.refl _ | apply State.cphCount_keep | apply State.sealGo_keep | apply Keep.foldl | intro _ | fail_if_no_progress (refine Keep.mk' ?_ rfl) | (extract_lets -underBinder +onlyGivenNames x; (refine (fun (hx : Keep s0 x) => ?_) ?_); (on_goal 1 => try clear_value x); (on_goal 2 => (unfold x; clear x))) | (extract_lets -underBinder +onlyGivenNames x; try clear_value x) | split)

theorem State.cphSeal_keep {s0 s : State} (h : Keep s0 s) (q : Nat) (data : List Byte) : Keep s0 (State.cphSeal s q data) := by
  unfold State.cphSeal
  repeat' (with_reducible first | assumption | intro _ | exact Keep.refl _ | apply State.blockCmd_keep | apply State.sealGo_keep)

theorem execCphSeal_keep {s0 s : State} (h : Keep s0 s) (q : Nat) (data : List Byte) : ∃ t1, (execCphSeal q data s) = .next t1 ∧ Keep s0 t1 := by
  unfold execCphSeal
  refine ⟨_, rfl, ?_⟩
  repeat' (with_reducible first | assumption | exact Keep.refl _ | apply State.cphSeal_keep)

theorem State.cphUnseal_keep {s0 s : State} (h : Keep s0 s) (q : Nat) (data : List Byte) : Keep s0 (State.cphUnseal s q data) := by
  unfold State.cphUnseal
  repeat' (with_reducible first | assumption | intro _ | exact Keep.refl _ | apply State.blockCmd_keep | apply State.sealGo_keep)

theorem execCphUnseal_keep {s0 s : State} (h : Keep s0 s) (q : Nat) (data : List Byte) : ∃ t1, (execCphUnseal q data s) = .next t1 ∧ Keep s0 t1 := by
  unfold execCphUnseal
  refine ⟨_, rfl, ?_⟩
  repeat' (with_reducible first | assumption | exact Keep.refl _ | apply State.cphUnseal_keep)

end Sys2Proof.Machine
end

