-- ==== Sys2Proof/Laws/KeepResetOps.lean ====
section
/-! SUPPORT. What the operations of Machine/ResetOps.lean keep (Keep). -/

set_option linter.unreachableTactic false
set_option linter.unusedTactic false
set_option linter.unusedVariables false

namespace Sys2Proof.Machine

theorem State.keptRegs_wf (s : State) : NMap.wf resetKey s.keptRegs = true := by
  have h : ∀ t : State, Keep { twinB := s.twinB } t → NMap.wf resetKey t.regs = true := fun t k => k.regs rfl
  unfold State.keptRegs
  apply h
  apply Keep.foldl
  · repeat' (with_reducible first | exact Keep.refl _ | apply State.wr_keep)
  · intro t k ht
    exact ht.setReg _ _

/-- A filtered canonical map is canonical. -/
theorem NMap.above_filter {α : Type} {m : NMap α} {b : Nat} (p : Nat × α → Bool) (h : NMap.above b m = true) : NMap.above b (m.filter p) = true := by
  induction m with
  | nil => rfl
  | cons e m ih =>
    obtain ⟨i, w⟩ := e
    simp only [NMap.above, Bool.and_eq_true, decide_eq_true_eq] at h
    simp only [List.filter_cons]
    split
    · simp [NMap.above, h.1, ih h.2]
    · exact ih h.2

theorem NMap.wf_filter {α : Type} [DecidableEq α] {d : Nat → α} {m : NMap α} (p : Nat × α → Bool) (h : NMap.wf d m = true) :
    NMap.wf d (m.filter p) = true := by
  induction m with
  | nil => rfl
  | cons e m ih =>
    obtain ⟨i, w⟩ := e
    simp only [NMap.wf, NMap.sorted, NMap.noDefault, Bool.and_eq_true, decide_eq_true_eq] at h ih
    obtain ⟨⟨h1, h2⟩, h3, h4⟩ := h
    have hi := ih ⟨h2, h4⟩
    simp only [List.filter_cons]
    split
    · simp [NMap.wf, NMap.sorted, NMap.noDefault, NMap.above_filter p h1, hi.1, hi.2, h3]
    · simp [NMap.wf, hi.1, hi.2]

theorem State.recordAll_keep {s0 s : State} (h : Keep s0 s)  : Keep s0 (State.recordAll s) := by
  unfold State.recordAll
  repeat' (with_reducible first | assumption | exact Keep.refl _ | apply State.recordEvent_keep | apply Keep.foldl | intro _ | fail_if_no_progress (refine Keep.mk' ?_ rfl) | (extract_lets -underBinder +onlyGivenNames x; (refine (fun (hx : Keep s0 x) => ?_) ?_); (on_goal 1 => try clear_value x); (on_goal 2 => (unfold x; clear x))) | (extract_lets -underBinder +onlyGivenNames x; try clear_value x))

theorem State.emberStop_keep {s0 s : State} (h : Keep s0 s) (stop : Nat) : Keep s0 (State.emberStop s stop) := by
  unfold State.emberStop
  repeat' (with_reducible first | assumption | exact Keep.refl _ | apply State.emberFull_keep | apply State.recordAll_keep)

theorem State.pcieLost_keep {s0 s : State} (h : Keep s0 s)  : Keep s0 (State.pcieLost s) := by
  unfold State.pcieLost
  repeat' (with_reducible first | assumption | exact Keep.refl _ | apply State.wr_keep | apply State.inc_keep | fail_if_no_progress (refine Keep.mk' ?_ rfl) | (extract_lets -underBinder +onlyGivenNames x; (refine (fun (hx : Keep s0 x) => ?_) ?_); (on_goal 1 => try clear_value x); (on_goal 2 => (unfold x; clear x))) | (extract_lets -underBinder +onlyGivenNames x; try clear_value x) | split)

theorem State.queuesIdle_keep {s0 s : State} (h : Keep s0 s)  : Keep s0 (State.queuesIdle s) := by
  unfold State.queuesIdle
  repeat' (with_reducible first | assumption | exact Keep.refl _ | apply State.wr_keep | apply State.setRq_keep | apply State.running_keep | apply Keep.foldl | intro _ | fail_if_no_progress (refine Keep.mk' ?_ rfl) | (extract_lets -underBinder +onlyGivenNames x; (refine (fun (hx : Keep s0 x) => ?_) ?_); (on_goal 1 => try clear_value x); (on_goal 2 => (unfold x; clear x))) | (extract_lets -underBinder +onlyGivenNames x; try clear_value x))

theorem State.perst_keep {s0 s : State} (h : Keep s0 s)  : Keep s0 (State.perst s) := by
  unfold State.perst
  repeat' (with_reducible first | assumption | exact Keep.refl _ | apply State.inc_keep | apply State.pcieLost_keep | apply State.queuesIdle_keep | fail_if_no_progress (refine Keep.mk' ?_ rfl) | (extract_lets -underBinder +onlyGivenNames x; (refine (fun (hx : Keep s0 x) => ?_) ?_); (on_goal 1 => try clear_value x); (on_goal 2 => (unfold x; clear x))) | (extract_lets -underBinder +onlyGivenNames x; try clear_value x))

theorem State.fresh_keep {s0 s : State} (h : Keep s0 s) : Keep s0 s.fresh :=
  h.trans ⟨fun _ => s.keptRegs_wf, fun _ => rfl, rfl, rfl, Nat.le_refl _, Nat.le_refl _, ⟨[], rfl⟩⟩

theorem State.cutFlush_keep {s0 s : State} (h : Keep s0 s)  : Keep s0 (State.cutFlush s) := by
  unfold State.cutFlush
  repeat' (with_reducible first | assumption | exact Keep.refl _ | apply State.takeFree_keep | fail_if_no_progress (refine Keep.mk' ?_ rfl) | refine Keep.of_snd (by assumption) ?_ | (extract_lets -underBinder +onlyGivenNames x; (refine (fun (hx : Keep s0 x) => ?_) ?_); (on_goal 1 => try clear_value x); (on_goal 2 => (unfold x; clear x))) | (extract_lets -underBinder +onlyGivenNames x; (refine (fun (hx : Keep s0 x.2) => ?_) ?_); (on_goal 1 => try clear_value x); (on_goal 2 => (unfold x; clear x))) | (extract_lets -underBinder +onlyGivenNames x; try clear_value x) | split)

theorem State.railStat_keep {s0 s : State} (h : Keep s0 s)  : Keep s0 (State.railStat s) := by
  unfold State.railStat
  repeat' (with_reducible first | assumption | exact Keep.refl _ | apply State.wr_keep | (extract_lets -underBinder +onlyGivenNames x; (refine (fun (hx : Keep s0 x) => ?_) ?_); (on_goal 1 => try clear_value x); (on_goal 2 => (unfold x; clear x))) | exact KeepO.get (by assumption) rfl | exact KeepO.none | apply KeepO.some | (apply KeepO.map; intro _) | (extract_lets -underBinder +onlyGivenNames x; (refine (fun (hx : KeepO s0 x) => ?_) ?_); (on_goal 1 => try clear_value x); (on_goal 2 => (unfold x; clear x))) | (extract_lets -underBinder +onlyGivenNames x; have hf := fun z => x z) | (extract_lets -underBinder +onlyGivenNames x; try clear_value x) | split)

theorem State.seqStep_keep {s0 s : State} (h : Keep s0 s) (n : Nat) : Keep s0 (State.seqStep s n) := by
  unfold State.seqStep
  repeat' (with_reducible first | assumption | exact Keep.refl _ | apply State.railStat_keep | fail_if_no_progress (refine Keep.mk' ?_ rfl) | (extract_lets -underBinder +onlyGivenNames x; (refine (fun (hx : Keep s0 x) => ?_) ?_); (on_goal 1 => try clear_value x); (on_goal 2 => (unfold x; clear x))) | (extract_lets -underBinder +onlyGivenNames x; try clear_value x))

theorem State.seqStart_keep {s0 s : State} (h : Keep s0 s)  : Keep s0 (State.seqStart s) := by
  unfold State.seqStart
  repeat' (with_reducible first | assumption | exact Keep.refl _ | apply State.wr_keep | apply State.seqStep_keep | fail_if_no_progress (refine Keep.mk' ?_ rfl) | (extract_lets -underBinder +onlyGivenNames x; (refine (fun (hx : Keep s0 x) => ?_) ?_); (on_goal 1 => try clear_value x); (on_goal 2 => (unfold x; clear x))) | (extract_lets -underBinder +onlyGivenNames x; try clear_value x))

theorem State.seqGo_keep {s0 s : State} (h : Keep s0 s)  : Keep s0 (State.seqGo s) := by
  unfold State.seqGo
  repeat' (with_reducible first | assumption | exact Keep.refl _ | apply State.railStat_keep | apply State.seqStep_keep | fail_if_no_progress (refine Keep.mk' ?_ rfl) | (extract_lets -underBinder +onlyGivenNames x; (refine (fun (hx : Keep s0 x) => ?_) ?_); (on_goal 1 => try clear_value x); (on_goal 2 => (unfold x; clear x))) | (extract_lets -underBinder +onlyGivenNames x; have hf := fun z => x z) | (extract_lets -underBinder +onlyGivenNames x; try clear_value x) | split)

theorem State.powerDown_keep {s0 s : State} (h : Keep s0 s) : Keep s0 s.powerDown := by
  have k : Keep s0 s.cutFlush.pcieLost := State.pcieLost_keep (State.cutFlush_keep h)
  unfold State.powerDown
  refine State.railStat_keep (State.setStat_keep (State.setStat_keep (k.trans ?_) _ _ _) _ _ _)
  exact ⟨fun x => NMap.wf_filter _ x, fun _ => rfl, rfl, rfl, Nat.le_refl _, Nat.le_refl _, ⟨[], rfl⟩⟩

theorem State.seqFail_keep {s0 s : State} (h : Keep s0 s) (r : Nat) : Keep s0 (State.seqFail s r) := by
  unfold State.seqFail
  repeat' (with_reducible first | assumption | exact Keep.refl _ | apply State.wr_keep | apply State.raise_keep | apply State.railStat_keep | fail_if_no_progress (refine Keep.mk' ?_ rfl) | (extract_lets -underBinder +onlyGivenNames x; (refine (fun (hx : Keep s0 x) => ?_) ?_); (on_goal 1 => try clear_value x); (on_goal 2 => (unfold x; clear x))) | (extract_lets -underBinder +onlyGivenNames x; try clear_value x))

theorem State.immediateStop_keep {s0 s : State} (h : Keep s0 s) (rail : Nat) : Keep s0 (State.immediateStop s rail) := by
  unfold State.immediateStop
  repeat' (with_reducible first | assumption | exact Keep.refl _ | apply State.wr_keep | apply State.emberFinal_keep | apply State.recordAll_keep | apply State.powerDown_keep | (extract_lets -underBinder +onlyGivenNames x; (refine (fun (hx : Keep s0 x) => ?_) ?_); (on_goal 1 => try clear_value x); (on_goal 2 => (unfold x; clear x))) | (extract_lets -underBinder +onlyGivenNames x; try clear_value x) | split)

theorem State.startAgain_keep {s0 s : State} (h : Keep s0 s)  : Keep s0 (State.startAgain s) := by
  unfold State.startAgain
  repeat' (with_reducible first | assumption | exact Keep.refl _ | apply State.wr_keep | apply State.setStat_keep | apply State.railStat_keep | apply State.seqStart_keep | fail_if_no_progress (refine Keep.mk' ?_ rfl) | (extract_lets -underBinder +onlyGivenNames x; (refine (fun (hx : Keep s0 x) => ?_) ?_); (on_goal 1 => try clear_value x); (on_goal 2 => (unfold x; clear x))) | (extract_lets -underBinder +onlyGivenNames x; try clear_value x) | split)

theorem State.deviceReset_keep {s0 s : State} (h : Keep s0 s) (cause : Nat) : Keep s0 (State.deviceReset s cause) := by
  unfold State.deviceReset
  repeat' (with_reducible first | assumption | exact Keep.refl _ | apply State.wr_keep | apply State.freezeOff_keep | apply State.pcieLost_keep | apply State.fresh_keep | apply State.cutFlush_keep | apply State.startAgain_keep | (extract_lets -underBinder +onlyGivenNames x; (refine (fun (hx : Keep s0 x) => ?_) ?_); (on_goal 1 => try clear_value x); (on_goal 2 => (unfold x; clear x))) | (extract_lets -underBinder +onlyGivenNames x; try clear_value x))

theorem State.powerOn_keep {s0 s : State} (h : Keep s0 s) : Keep s0 s.powerOn := by
  have k : Keep s0 s.cutFlush := State.cutFlush_keep h
  unfold State.powerOn
  refine State.startAgain_keep (k.trans ?_)
  refine ⟨fun _ => ?_, fun _ => rfl, rfl, rfl, Nat.le_refl _, Nat.le_refl _, ⟨[], rfl⟩⟩
  refine Keep.regs (a := ({} : State)) (b := [regKey 2 0x140, regKey 2 0x148].foldl (fun (t : State) k => t.setReg k (s.cutFlush.reg k)) {}) ?_ rfl
  apply Keep.foldl (Keep.refl _)
  intro t k ht
  exact ht.setReg _ _

theorem State.startHalt_keep {s0 s : State} (h : Keep s0 s) (fail : Nat) : Keep s0 (State.startHalt s fail) := by
  unfold State.startHalt
  repeat' (with_reducible first | assumption | exact Keep.refl _ | apply State.wr_keep | apply State.raise_keep | apply State.emberStop_keep)

end Sys2Proof.Machine
end

