-- ==== Sys2Proof/Laws/KeepTwin.lean ====
section
/-! SUPPORT. What the operations of Machine/Twin.lean keep (Keep). -/

set_option linter.unreachableTactic false
set_option linter.unusedTactic false
set_option linter.unusedVariables false

namespace Sys2Proof.Machine

theorem State.takeLink_keep {s0 s : State} (h : Keep s0 s) (n : Nat) (h : LinkHdr) (b : LinkBody) (f : State → LinkHdr → LinkBody → State) (hf : ∀ x0 x1 x2, Keep s0 x0 → Keep s0 (f x0 x1 x2)) : Keep s0 (State.takeLink s n h b f) := by
  unfold State.takeLink
  repeat' (with_reducible first | assumption | apply hf | exact Keep.refl _ | apply State.receive_keep | apply State.twinGo_keep | apply State.offCheck_keep | apply Keep.foldl | apply Keep.foldl_fst | apply Keep.foldl_snd | intro _ | refine Keep.of_fst (by assumption) ?_ | (extract_lets -underBinder +onlyGivenNames x; (refine (fun (hx : Keep s0 x) => ?_) ?_); (on_goal 1 => try clear_value x); (on_goal 2 => (unfold x; clear x))) | (extract_lets -underBinder +onlyGivenNames x; (refine (fun (hx : Keep s0 x.1) => ?_) ?_); (on_goal 1 => try clear_value x); (on_goal 2 => (unfold x; clear x))) | (extract_lets -underBinder +onlyGivenNames x; try clear_value x) | split)

theorem State.modIncoming_keep {s0 s : State} (h : Keep s0 s) (n : Nat) (f : Incoming → Incoming) : Keep s0 (State.modIncoming s n f) := by
  unfold State.modIncoming
  repeat' (with_reducible first | assumption | exact Keep.refl _ | fail_if_no_progress (refine Keep.mk' ?_ rfl) | (extract_lets -underBinder +onlyGivenNames x; (refine (fun (hx : Keep s0 x) => ?_) ?_); (on_goal 1 => try clear_value x); (on_goal 2 => (unfold x; clear x))) | exact KeepO.get (by assumption) rfl | exact KeepO.none | apply KeepO.some | (apply KeepO.map; intro _) | (extract_lets -underBinder +onlyGivenNames x; (refine (fun (hx : KeepO s0 x) => ?_) ?_); (on_goal 1 => try clear_value x); (on_goal 2 => (unfold x; clear x))) | (extract_lets -underBinder +onlyGivenNames x; try clear_value x) | split)

theorem State.takeData_keep {s0 s : State} (h : Keep s0 s) (n : Nat) (rs : List EpochRec) : Keep s0 (State.takeData s n rs) := by
  unfold State.takeData
  repeat' (with_reducible first | assumption | exact Keep.refl _ | apply State.modIncoming_keep | fail_if_no_progress (refine Keep.mk' ?_ rfl) | (extract_lets -underBinder +onlyGivenNames x; (refine (fun (hx : Keep s0 x) => ?_) ?_); (on_goal 1 => try clear_value x); (on_goal 2 => (unfold x; clear x))) | exact KeepO.get (by assumption) rfl | exact KeepO.none | apply KeepO.some | (apply KeepO.map; intro _) | (extract_lets -underBinder +onlyGivenNames x; (refine (fun (hx : KeepO s0 x) => ?_) ?_); (on_goal 1 => try clear_value x); (on_goal 2 => (unfold x; clear x))) | (extract_lets -underBinder +onlyGivenNames x; try clear_value x))

theorem State.takeSealFrame_keep {s0 s : State} (h : Keep s0 s) (n : Nat) (m : SealMsg) : Keep s0 (State.takeSealFrame s n m) := by
  unfold State.takeSealFrame
  repeat' (with_reducible first | assumption | exact Keep.refl _ | apply State.closeEpoch_keep | apply State.applyNext_keep | apply State.modIncoming_keep | fail_if_no_progress (refine Keep.mk' ?_ rfl) | (extract_lets -underBinder +onlyGivenNames x; (refine (fun (hx : Keep s0 x) => ?_) ?_); (on_goal 1 => try clear_value x); (on_goal 2 => (unfold x; clear x))) | (extract_lets -underBinder +onlyGivenNames x; try clear_value x) | split)

theorem State.takeEpochFrame_keep {s0 : State} (s : State) (h : LinkHdr) : ∀ (a0 : LinkBody), Keep s0 s → Keep s0 (State.takeEpochFrame s h a0) := by
  intro a0 h
  unfold State.takeEpochFrame
  repeat' (with_reducible first | assumption | exact Keep.refl _ | apply State.takeData_keep | apply State.takeSealFrame_keep | split)

theorem execEpochData_keep {s0 s : State} (h : Keep s0 s) (strand : Nat) (h : LinkHdr) (recs : List EpochRec) : ∃ t1, (execEpochData strand h recs s) = .next t1 ∧ Keep s0 t1 := by
  unfold execEpochData
  refine ⟨_, rfl, ?_⟩
  repeat' (with_reducible first | assumption | intro _ | exact Keep.refl _ | apply State.applyNext_keep | apply State.takeLink_keep | apply State.takeEpochFrame_keep)

theorem execSeal_keep {s0 s : State} (h : Keep s0 s) (strand : Nat) (h : LinkHdr) (m : SealMsg) : ∃ t1, (execSeal strand h m s) = .next t1 ∧ Keep s0 t1 := by
  unfold execSeal
  refine ⟨_, rfl, ?_⟩
  repeat' (with_reducible first | assumption | intro _ | exact Keep.refl _ | apply State.takeLink_keep | apply State.takeEpochFrame_keep)

theorem State.epochApplied_keep {s0 s : State} (h : Keep s0 s)  : Keep s0 (State.epochApplied s) := by
  unfold State.epochApplied
  repeat' (with_reducible first | assumption | exact Keep.refl _ | apply State.sendLink_keep | apply State.oweCredit_keep | apply State.twinCtr_keep | apply State.applyNext_keep | apply State.takeover_keep | apply State.declareLoss_keep | apply State.twinGo_keep | fail_if_no_progress (refine Keep.mk' ?_ rfl) | (extract_lets -underBinder +onlyGivenNames x; (refine (fun (hx : Keep s0 x) => ?_) ?_); (on_goal 1 => try clear_value x); (on_goal 2 => (unfold x; clear x))) | exact KeepO.get (by assumption) rfl | exact KeepO.none | apply KeepO.some | (apply KeepO.map; intro _) | (extract_lets -underBinder +onlyGivenNames x; (refine (fun (hx : KeepO s0 x) => ?_) ?_); (on_goal 1 => try clear_value x); (on_goal 2 => (unfold x; clear x))) | (extract_lets -underBinder +onlyGivenNames x; try clear_value x) | split)

theorem execEpochApplied_keep {s0 s : State} (h : Keep s0 s)  : ∃ t1, (execEpochApplied s) = .next t1 ∧ Keep s0 t1 := by
  unfold execEpochApplied
  refine ⟨_, rfl, ?_⟩
  repeat' (with_reducible first | assumption | exact Keep.refl _ | apply State.epochApplied_keep)

theorem State.takeSealAck_keep {s0 s : State} (h : Keep s0 s) (n : Nat) : Keep s0 (State.takeSealAck s n) := by
  unfold State.takeSealAck
  repeat' (with_reducible first | assumption | exact Keep.refl _ | apply State.pmuCount_keep | apply State.twinCtr_keep | fail_if_no_progress (refine Keep.mk' ?_ rfl) | (extract_lets -underBinder +onlyGivenNames x; (refine (fun (hx : Keep s0 x) => ?_) ?_); (on_goal 1 => try clear_value x); (on_goal 2 => (unfold x; clear x))) | exact KeepO.get (by assumption) rfl | exact KeepO.none | apply KeepO.some | (apply KeepO.map; intro _) | (extract_lets -underBinder +onlyGivenNames x; (refine (fun (hx : KeepO s0 x) => ?_) ?_); (on_goal 1 => try clear_value x); (on_goal 2 => (unfold x; clear x))) | (extract_lets -underBinder +onlyGivenNames x; try clear_value x) | split)

theorem execSealAck_keep {s0 s : State} (h : Keep s0 s) (strand : Nat) (h : LinkHdr) : ∃ t1, (execSealAck strand h s) = .next t1 ∧ Keep s0 t1 := by
  unfold execSealAck
  refine ⟨_, rfl, ?_⟩
  repeat' (with_reducible first | assumption | intro _ | exact Keep.refl _ | apply State.takeLink_keep | apply State.takeSealAck_keep)

theorem State.epochClose_keep {s0 s : State} (h : Keep s0 s)  : Keep s0 (State.epochClose s) := by
  unfold State.epochClose
  repeat' (with_reducible first | assumption | exact Keep.refl _ | apply State.upTo_keep | apply State.closeEpoch_keep | apply State.applyNext_keep | apply State.twinGo_keep | split)

theorem execEpochClose_keep {s0 s : State} (h : Keep s0 s)  : ∃ t1, (execEpochClose s) = .next t1 ∧ Keep s0 t1 := by
  unfold execEpochClose
  refine ⟨_, rfl, ?_⟩
  repeat' (with_reducible first | assumption | exact Keep.refl _ | apply State.epochClose_keep)

theorem State.fwdAnswer_keep {s0 s : State} (h : Keep s0 s) (m : FwdReqMsg) (st : FwdStatus) (r : Word64) : Keep s0 (State.fwdAnswer s m st r) := by
  unfold State.fwdAnswer
  repeat' (with_reducible first | assumption | exact Keep.refl _ | apply State.sendLink_keep | apply State.oweCredit_keep | fail_if_no_progress (refine Keep.mk' ?_ rfl) | (extract_lets -underBinder +onlyGivenNames x; (refine (fun (hx : Keep s0 x) => ?_) ?_); (on_goal 1 => try clear_value x); (on_goal 2 => (unfold x; clear x))) | (extract_lets -underBinder +onlyGivenNames x; try clear_value x))

theorem State.fwdReserve_keep {s0 s : State} (h : Keep s0 s) (m : FwdReqMsg) : Keep s0 (State.fwdReserve s m) := by
  unfold State.fwdReserve
  repeat' (with_reducible first | assumption | exact Keep.refl _ | apply State.reserveAt_keep | split)

theorem State.fwdExecute_keep {s0 s : State} (h : Keep s0 s) (m : FwdReqMsg) (cells : Nat) : Keep s0 (State.fwdExecute s m cells) := by
  unfold State.fwdExecute
  repeat' (with_reducible first | assumption | exact Keep.refl _ | apply State.subLink_keep | apply State.afterFree_keep | apply State.addOp_keep | apply State.sendLink_keep | apply State.oweCredit_keep | apply State.twinCtr_keep | apply State.discardRange_keep | apply State.protWrite_keep | apply State.protServe_keep | apply State.stopBegins_keep | apply State.fwdAnswer_keep | fail_if_no_progress (refine Keep.mk' ?_ rfl) | refine Keep.of_fst (by assumption) ?_ | refine KeepO.get ?_ (by assumption) | (extract_lets -underBinder +onlyGivenNames x; (refine (fun (hx : Keep s0 x) => ?_) ?_); (on_goal 1 => try clear_value x); (on_goal 2 => (unfold x; clear x))) | exact KeepO.get (by assumption) rfl | exact KeepO.none | apply KeepO.some | (apply KeepO.map; intro _) | (extract_lets -underBinder +onlyGivenNames x; (refine (fun (hx : KeepO s0 x) => ?_) ?_); (on_goal 1 => try clear_value x); (on_goal 2 => (unfold x; clear x))) | (extract_lets -underBinder +onlyGivenNames x; (refine (fun (hx : Keep s0 x.1) => ?_) ?_); (on_goal 1 => try clear_value x); (on_goal 2 => (unfold x; clear x))) | (extract_lets -underBinder +onlyGivenNames x; have hf := fun z => x z) | (extract_lets -underBinder +onlyGivenNames x; try clear_value x) | split)

theorem State.takeFwdReq_keep {s0 s : State} (h : Keep s0 s) (m : FwdReqMsg) : Keep s0 (State.takeFwdReq s m) := by
  unfold State.takeFwdReq
  repeat' (with_reducible first | assumption | exact Keep.refl _ | apply State.askIn_keep | apply State.addLink_keep | apply State.subLink_keep | apply State.fwdReserve_keep | apply State.fwdExecute_keep | fail_if_no_progress (refine Keep.mk' ?_ rfl) | (extract_lets -underBinder +onlyGivenNames x; (refine (fun (hx : Keep s0 x) => ?_) ?_); (on_goal 1 => try clear_value x); (on_goal 2 => (unfold x; clear x))) | exact KeepO.get (by assumption) rfl | exact KeepO.none | apply KeepO.some | (apply KeepO.map; intro _) | (extract_lets -underBinder +onlyGivenNames x; (refine (fun (hx : KeepO s0 x) => ?_) ?_); (on_goal 1 => try clear_value x); (on_goal 2 => (unfold x; clear x))) | (extract_lets -underBinder +onlyGivenNames x; have hf := fun z => x z) | (extract_lets -underBinder +onlyGivenNames x; try clear_value x) | split)

theorem execFwdReq_keep {s0 s : State} (h : Keep s0 s) (strand : Nat) (h : LinkHdr) (m : FwdReqMsg) : ∃ t1, (execFwdReq strand h m s) = .next t1 ∧ Keep s0 t1 := by
  unfold execFwdReq
  refine ⟨_, rfl, ?_⟩
  repeat' (with_reducible first | assumption | intro _ | exact Keep.refl _ | apply State.takeLink_keep | apply State.takeFwdReq_keep | (extract_lets -underBinder +onlyGivenNames x; (refine (fun (hx : Keep s0 x) => ?_) ?_); (on_goal 1 => try clear_value x); (on_goal 2 => (unfold x; clear x))) | (extract_lets -underBinder +onlyGivenNames x; try clear_value x) | split)

theorem State.fwdRelease_keep {s0 s : State} (h : Keep s0 s) (m : FwdReqMsg) : Keep s0 (State.fwdRelease s m) := by
  unfold State.fwdRelease
  repeat' (with_reducible first | assumption | exact Keep.refl _ | apply State.wr_keep | apply State.setTenant_keep | fail_if_no_progress (refine Keep.mk' ?_ rfl) | (extract_lets -underBinder +onlyGivenNames x; (refine (fun (hx : Keep s0 x) => ?_) ?_); (on_goal 1 => try clear_value x); (on_goal 2 => (unfold x; clear x))) | (extract_lets -underBinder +onlyGivenNames x; try clear_value x))

theorem State.rnrBack_keep {s0 s : State} (h : Keep s0 s) (n psn cause : Nat) : Keep s0 (State.rnrBack s n psn cause) := by
  unfold State.rnrBack
  repeat' (with_reducible first | assumption | exact Keep.refl _ | apply State.smpDiscard_keep | apply State.placed_keep | apply State.reserve_keep | apply State.rnrCount_keep | apply State.modQp_keep | apply State.setQf_keep | apply State.dropMsg_keep | apply State.freeOpCells_keep | apply State.removeOps_keep | apply State.unreserveOp_keep | apply State.addOp_keep | apply Keep.foldl | apply Keep.foldl_fst | apply Keep.foldl_snd | intro _ | fail_if_no_progress (refine Keep.mk' ?_ rfl) | (extract_lets -underBinder +onlyGivenNames x; (refine (fun (hx : Keep s0 x) => ?_) ?_); (on_goal 1 => try clear_value x); (on_goal 2 => (unfold x; clear x))) | exact KeepO.get (by assumption) rfl | exact KeepO.none | apply KeepO.some | (apply KeepO.map; intro _) | (extract_lets -underBinder +onlyGivenNames x; (refine (fun (hx : KeepO s0 x) => ?_) ?_); (on_goal 1 => try clear_value x); (on_goal 2 => (unfold x; clear x))) | (extract_lets -underBinder +onlyGivenNames x; try clear_value x) | split)

theorem State.holdResp_keep {s0 s : State} (h : Keep s0 s) (op n : Nat) : Keep s0 (State.holdResp s op n) := by
  unfold State.holdResp
  repeat' (with_reducible first | assumption | exact Keep.refl _ | apply State.modOp_keep | apply State.addLink_keep | fail_if_no_progress (refine Keep.mk' ?_ rfl) | (extract_lets -underBinder +onlyGivenNames x; (refine (fun (hx : Keep s0 x) => ?_) ?_); (on_goal 1 => try clear_value x); (on_goal 2 => (unfold x; clear x))) | (extract_lets -underBinder +onlyGivenNames x; try clear_value x) | split)

theorem State.fwdAnswered_keep {s0 s : State} (h : Keep s0 s) (f : FwdOut) (h : LinkHdr) (m : FwdRespMsg) : Keep s0 (State.fwdAnswered s f h m) := by
  unfold State.fwdAnswered
  repeat' (with_reducible first | assumption | exact Keep.refl _ | apply State.modOp_keep | apply State.noteUnsealed_keep | apply State.placed_keep | apply State.fwdRelease_keep | apply State.rnrBack_keep | fail_if_no_progress (refine Keep.mk' ?_ rfl) | (extract_lets -underBinder +onlyGivenNames x; (refine (fun (hx : Keep s0 x) => ?_) ?_); (on_goal 1 => try clear_value x); (on_goal 2 => (unfold x; clear x))) | (extract_lets -underBinder +onlyGivenNames x; try clear_value x) | split)

theorem State.takeFwdResp_keep {s0 s : State} (h : Keep s0 s) (h : LinkHdr) (m : FwdRespMsg) : Keep s0 (State.takeFwdResp s h m) := by
  unfold State.takeFwdResp
  repeat' (with_reducible first | assumption | exact Keep.refl _ | apply State.oweCredit_keep | apply State.modTir_keep | apply State.protAnswer_keep | apply State.holdResp_keep | apply State.fwdAnswered_keep | fail_if_no_progress (refine Keep.mk' ?_ rfl) | (extract_lets -underBinder +onlyGivenNames x; (refine (fun (hx : Keep s0 x) => ?_) ?_); (on_goal 1 => try clear_value x); (on_goal 2 => (unfold x; clear x))) | exact KeepO.get (by assumption) rfl | exact KeepO.none | apply KeepO.some | (apply KeepO.map; intro _) | (extract_lets -underBinder +onlyGivenNames x; (refine (fun (hx : KeepO s0 x) => ?_) ?_); (on_goal 1 => try clear_value x); (on_goal 2 => (unfold x; clear x))) | (extract_lets -underBinder +onlyGivenNames x; try clear_value x) | split)

theorem execFwdResp_keep {s0 s : State} (h : Keep s0 s) (strand : Nat) (h : LinkHdr) (m : FwdRespMsg) : ∃ t1, (execFwdResp strand h m s) = .next t1 ∧ Keep s0 t1 := by
  unfold execFwdResp
  refine ⟨_, rfl, ?_⟩
  repeat' (with_reducible first | assumption | intro _ | exact Keep.refl _ | apply State.takeLink_keep | apply State.takeFwdResp_keep | (extract_lets -underBinder +onlyGivenNames x; (refine (fun (hx : Keep s0 x) => ?_) ?_); (on_goal 1 => try clear_value x); (on_goal 2 => (unfold x; clear x))) | (extract_lets -underBinder +onlyGivenNames x; try clear_value x) | split)

theorem State.takeHeartbeat_keep {s0 s : State} (h : Keep s0 s) (m : HeartbeatMsg) : Keep s0 (State.takeHeartbeat s m) := by
  unfold State.takeHeartbeat
  repeat' (with_reducible first | assumption | exact Keep.refl _ | apply State.wr_keep | apply State.raise_keep | apply State.enterPaired_keep | fail_if_no_progress (refine Keep.mk' ?_ rfl) | (extract_lets -underBinder +onlyGivenNames x; (refine (fun (hx : Keep s0 x) => ?_) ?_); (on_goal 1 => try clear_value x); (on_goal 2 => (unfold x; clear x))) | (extract_lets -underBinder +onlyGivenNames x; try clear_value x) | split)

theorem execHeartbeat_keep {s0 s : State} (h : Keep s0 s) (strand : Nat) (h : LinkHdr) (m : HeartbeatMsg) : ∃ t1, (execHeartbeat strand h m s) = .next t1 ∧ Keep s0 t1 := by
  unfold execHeartbeat
  refine ⟨_, rfl, ?_⟩
  repeat' (with_reducible first | assumption | intro _ | exact Keep.refl _ | apply State.takeLink_keep | apply State.takeHeartbeat_keep | (extract_lets -underBinder +onlyGivenNames x; (refine (fun (hx : Keep s0 x) => ?_) ?_); (on_goal 1 => try clear_value x); (on_goal 2 => (unfold x; clear x))) | (extract_lets -underBinder +onlyGivenNames x; try clear_value x) | split)

theorem execHeartbeatSend_keep {s0 s : State} (h : Keep s0 s)  : ∃ t1, (execHeartbeatSend s) = .next t1 ∧ Keep s0 t1 := by
  unfold execHeartbeatSend
  refine ⟨_, rfl, ?_⟩
  repeat' (with_reducible first | assumption | exact Keep.refl _ | apply State.upTo_keep | apply State.sendHeartbeat_keep | split)

theorem State.hbLoss_keep {s0 s : State} (h : Keep s0 s)  : Keep s0 (State.hbLoss s) := by
  unfold State.hbLoss
  repeat' (with_reducible first | assumption | exact Keep.refl _ | apply State.raise_keep | apply State.upTo_keep | apply State.onLoss_keep | apply State.twinGo_keep | fail_if_no_progress (refine Keep.mk' ?_ rfl) | (extract_lets -underBinder +onlyGivenNames x; (refine (fun (hx : Keep s0 x) => ?_) ?_); (on_goal 1 => try clear_value x); (on_goal 2 => (unfold x; clear x))) | (extract_lets -underBinder +onlyGivenNames x; try clear_value x) | split)

theorem execHbLoss_keep {s0 s : State} (h : Keep s0 s)  : ∃ t1, (execHbLoss s) = .next t1 ∧ Keep s0 t1 := by
  unfold execHbLoss
  refine ⟨_, rfl, ?_⟩
  repeat' (with_reducible first | assumption | exact Keep.refl _ | apply State.hbLoss_keep)

theorem execTime_keep {s0 s : State} (h : Keep s0 s) (strand : Nat) (h : LinkHdr) (m : TimeMsg) : ∃ t1, (execTime strand h m s) = .next t1 ∧ Keep s0 t1 := by
  unfold execTime
  refine ⟨_, rfl, ?_⟩
  repeat' (with_reducible first | assumption | intro _ | exact Keep.refl _ | apply State.timeTake_keep | apply State.takeLink_keep | (extract_lets -underBinder +onlyGivenNames x; (refine (fun (hx : Keep s0 x) => ?_) ?_); (on_goal 1 => try clear_value x); (on_goal 2 => (unfold x; clear x))) | (extract_lets -underBinder +onlyGivenNames x; try clear_value x) | split)

theorem execKeyNext_keep {s0 s : State} (h : Keep s0 s) (strand : Nat) (h : LinkHdr) (gen : Nat) : ∃ t1, (execKeyNext strand h gen s) = .next t1 ∧ Keep s0 t1 := by
  unfold execKeyNext
  refine ⟨_, rfl, ?_⟩
  repeat' (with_reducible first | assumption | intro _ | exact Keep.refl _ | apply State.keyNextTake_keep | apply State.takeLink_keep | (extract_lets -underBinder +onlyGivenNames x; (refine (fun (hx : Keep s0 x) => ?_) ?_); (on_goal 1 => try clear_value x); (on_goal 2 => (unfold x; clear x))) | (extract_lets -underBinder +onlyGivenNames x; try clear_value x) | split)

theorem State.takeHandshake_keep {s0 s : State} (h : Keep s0 s) (m : HandshakeMsg) : Keep s0 (State.takeHandshake s m) := by
  unfold State.takeHandshake
  repeat' (with_reducible first | assumption | exact Keep.refl _ | apply State.sendHandshake_keep | apply State.decide__keep | (extract_lets -underBinder +onlyGivenNames x; (refine (fun (hx : Keep s0 x) => ?_) ?_); (on_goal 1 => try clear_value x); (on_goal 2 => (unfold x; clear x))) | (extract_lets -underBinder +onlyGivenNames x; try clear_value x) | split)

theorem execHandshake_keep {s0 s : State} (h : Keep s0 s) (strand : Nat) (h : LinkHdr) (m : HandshakeMsg) : ∃ t1, (execHandshake strand h m s) = .next t1 ∧ Keep s0 t1 := by
  unfold execHandshake
  refine ⟨_, rfl, ?_⟩
  repeat' (with_reducible first | assumption | intro _ | exact Keep.refl _ | apply State.takeLink_keep | apply State.takeHandshake_keep | (extract_lets -underBinder +onlyGivenNames x; (refine (fun (hx : Keep s0 x) => ?_) ?_); (on_goal 1 => try clear_value x); (on_goal 2 => (unfold x; clear x))) | (extract_lets -underBinder +onlyGivenNames x; try clear_value x) | split)

theorem State.handshakeRepeat_keep {s0 s : State} (h : Keep s0 s)  : Keep s0 (State.handshakeRepeat s) := by
  unfold State.handshakeRepeat
  repeat' (with_reducible first | assumption | exact Keep.refl _ | apply State.upTo_keep | apply State.sendHandshake_keep | fail_if_no_progress (refine Keep.mk' ?_ rfl) | (extract_lets -underBinder +onlyGivenNames x; (refine (fun (hx : Keep s0 x) => ?_) ?_); (on_goal 1 => try clear_value x); (on_goal 2 => (unfold x; clear x))) | (extract_lets -underBinder +onlyGivenNames x; try clear_value x) | split)

theorem execHandshakeRepeat_keep {s0 s : State} (h : Keep s0 s)  : ∃ t1, (execHandshakeRepeat s) = .next t1 ∧ Keep s0 t1 := by
  unfold execHandshakeRepeat
  refine ⟨_, rfl, ?_⟩
  repeat' (with_reducible first | assumption | exact Keep.refl _ | apply State.handshakeRepeat_keep)

theorem State.soloExpiry_keep {s0 s : State} (h : Keep s0 s)  : Keep s0 (State.soloExpiry s) := by
  unfold State.soloExpiry
  repeat' (with_reducible first | assumption | exact Keep.refl _ | apply State.upTo_keep | apply State.openSolo_keep | fail_if_no_progress (refine Keep.mk' ?_ rfl) | (extract_lets -underBinder +onlyGivenNames x; (refine (fun (hx : Keep s0 x) => ?_) ?_); (on_goal 1 => try clear_value x); (on_goal 2 => (unfold x; clear x))) | (extract_lets -underBinder +onlyGivenNames x; try clear_value x) | split)

theorem execSoloWaitExpiry_keep {s0 s : State} (h : Keep s0 s)  : ∃ t1, (execSoloWaitExpiry s) = .next t1 ∧ Keep s0 t1 := by
  unfold execSoloWaitExpiry
  refine ⟨_, rfl, ?_⟩
  repeat' (with_reducible first | assumption | exact Keep.refl _ | apply State.soloExpiry_keep)

theorem State.takeResync_keep {s0 s : State} (h : Keep s0 s) (h : LinkHdr) (m : ResyncMsg) : Keep s0 (State.takeResync s h m) := by
  unfold State.takeResync
  repeat' (with_reducible first | assumption | exact Keep.refl _ | apply State.wr_keep | apply State.oweCredit_keep | apply State.applyNext_keep | apply State.modIncoming_keep | fail_if_no_progress (refine Keep.mk' ?_ rfl) | (extract_lets -underBinder +onlyGivenNames x; (refine (fun (hx : Keep s0 x) => ?_) ?_); (on_goal 1 => try clear_value x); (on_goal 2 => (unfold x; clear x))) | exact KeepO.get (by assumption) rfl | exact KeepO.none | apply KeepO.some | (apply KeepO.map; intro _) | (extract_lets -underBinder +onlyGivenNames x; (refine (fun (hx : KeepO s0 x) => ?_) ?_); (on_goal 1 => try clear_value x); (on_goal 2 => (unfold x; clear x))) | (extract_lets -underBinder +onlyGivenNames x; try clear_value x) | split)

theorem execResync_keep {s0 s : State} (h : Keep s0 s) (strand : Nat) (h : LinkHdr) (m : ResyncMsg) : ∃ t1, (execResync strand h m s) = .next t1 ∧ Keep s0 t1 := by
  unfold execResync
  refine ⟨_, rfl, ?_⟩
  repeat' (with_reducible first | assumption | intro _ | exact Keep.refl _ | apply State.takeLink_keep | apply State.takeResync_keep | (extract_lets -underBinder +onlyGivenNames x; (refine (fun (hx : Keep s0 x) => ?_) ?_); (on_goal 1 => try clear_value x); (on_goal 2 => (unfold x; clear x))) | (extract_lets -underBinder +onlyGivenNames x; try clear_value x) | split)

theorem State.resyncCopy_keep {s0 s : State} (h : Keep s0 s) (p : Nat) : Keep s0 (State.resyncCopy s p) := by
  unfold State.resyncCopy
  repeat' (with_reducible first | assumption | exact Keep.refl _ | apply State.upTo_keep | apply State.sendLink_keep | apply State.twinCtr_keep | apply State.twinGo_keep | apply Keep.foldl | apply Keep.foldl_fst | apply Keep.foldl_snd | intro _ | fail_if_no_progress (refine Keep.mk' ?_ rfl) | (extract_lets -underBinder +onlyGivenNames x; (refine (fun (hx : Keep s0 x) => ?_) ?_); (on_goal 1 => try clear_value x); (on_goal 2 => (unfold x; clear x))) | (extract_lets -underBinder +onlyGivenNames x; try clear_value x) | split)

theorem execResyncCopy_keep {s0 s : State} (h : Keep s0 s) (page : Nat) (q : List Line) : ∃ t1, (execResyncCopy page q s) = .next t1 ∧ Keep s0 t1 := by
  unfold execResyncCopy
  refine ⟨_, rfl, ?_⟩
  repeat' (with_reducible first | assumption | exact Keep.refl _ | apply State.resyncCopy_keep | (extract_lets -underBinder +onlyGivenNames x; (refine (fun (hx : Keep s0 x) => ?_) ?_); (on_goal 1 => try clear_value x); (on_goal 2 => (unfold x; clear x))) | (extract_lets -underBinder +onlyGivenNames x; try clear_value x))

theorem State.mirCmd_keep {s0 s : State} (h : Keep s0 s) (q op : Nat) (w5 : Nat) (f : State → RqCmd → State) (hf : ∀ x0 x1, Keep s0 x0 → Keep s0 (f x0 x1)) : Keep s0 (State.mirCmd s q op w5 f) := by
  unfold State.mirCmd
  repeat' (with_reducible first | assumption | apply hf | intro _ | exact Keep.refl _ | apply State.blockCmd_keep)

theorem State.mirRebalance_keep {s0 s : State} (h : Keep s0 s) (q : Nat) : Keep s0 (State.mirRebalance s q) := by
  unfold State.mirRebalance
  repeat' (with_reducible first | assumption | intro _ | exact Keep.refl _ | apply State.finishCmd_keep | apply State.protStep_keep | apply State.rebalanceCheck_keep | apply State.twinGo_keep | apply State.mirCmd_keep | fail_if_no_progress (refine Keep.mk' ?_ rfl) | (extract_lets -underBinder +onlyGivenNames x; (refine (fun (hx : Keep s0 x) => ?_) ?_); (on_goal 1 => try clear_value x); (on_goal 2 => (unfold x; clear x))) | exact KeepO.get (by assumption) rfl | exact KeepO.none | apply KeepO.some | (apply KeepO.map; intro _) | (extract_lets -underBinder +onlyGivenNames x; (refine (fun (hx : KeepO s0 x) => ?_) ?_); (on_goal 1 => try clear_value x); (on_goal 2 => (unfold x; clear x))) | (extract_lets -underBinder +onlyGivenNames x; have hd : x.dram = x.dram := rfl) | (extract_lets -underBinder +onlyGivenNames x; try clear_value x) | split)

theorem execMirRebalance_keep {s0 s : State} (h : Keep s0 s) (q : Nat) : ∃ t1, (execMirRebalance q s) = .next t1 ∧ Keep s0 t1 := by
  unfold execMirRebalance
  refine ⟨_, rfl, ?_⟩
  repeat' (with_reducible first | assumption | exact Keep.refl _ | apply State.mirRebalance_keep)

theorem State.mirReturn_keep {s0 s : State} (h : Keep s0 s) (q : Nat) : Keep s0 (State.mirReturn s q) := by
  unfold State.mirReturn
  repeat' (with_reducible first | assumption | intro _ | exact Keep.refl _ | apply State.finishCmd_keep | apply State.giveBack_keep | apply State.mirCmd_keep | refine Keep.of_fst (by assumption) ?_ | (extract_lets -underBinder +onlyGivenNames x; (refine (fun (hx : Keep s0 x) => ?_) ?_); (on_goal 1 => try clear_value x); (on_goal 2 => (unfold x; clear x))) | (extract_lets -underBinder +onlyGivenNames x; (refine (fun (hx : Keep s0 x.1) => ?_) ?_); (on_goal 1 => try clear_value x); (on_goal 2 => (unfold x; clear x))) | (extract_lets -underBinder +onlyGivenNames x; try clear_value x) | split)

theorem execMirReturn_keep {s0 s : State} (h : Keep s0 s) (q : Nat) : ∃ t1, (execMirReturn q s) = .next t1 ∧ Keep s0 t1 := by
  unfold execMirReturn
  refine ⟨_, rfl, ?_⟩
  repeat' (with_reducible first | assumption | exact Keep.refl _ | apply State.mirReturn_keep)

theorem State.mirDrill_keep {s0 s : State} (h : Keep s0 s) (q : Nat) : Keep s0 (State.mirDrill s q) := by
  unfold State.mirDrill
  repeat' (with_reducible first | assumption | intro _ | exact Keep.refl _ | apply State.closeEpoch_keep | apply State.finishCmd_keep | apply State.twinGo_keep | apply State.mirCmd_keep | fail_if_no_progress (refine Keep.mk' ?_ rfl) | (extract_lets -underBinder +onlyGivenNames x; (refine (fun (hx : Keep s0 x) => ?_) ?_); (on_goal 1 => try clear_value x); (on_goal 2 => (unfold x; clear x))) | (extract_lets -underBinder +onlyGivenNames x; try clear_value x) | split)

theorem execMirDrill_keep {s0 s : State} (h : Keep s0 s) (q : Nat) : ∃ t1, (execMirDrill q s) = .next t1 ∧ Keep s0 t1 := by
  unfold execMirDrill
  refine ⟨_, rfl, ?_⟩
  repeat' (with_reducible first | assumption | exact Keep.refl _ | apply State.mirDrill_keep)

theorem State.mirTakeover_keep {s0 s : State} (h : Keep s0 s) (q : Nat) : Keep s0 (State.mirTakeover s q) := by
  unfold State.mirTakeover
  repeat' (with_reducible first | assumption | intro _ | exact Keep.refl _ | apply State.finishCmd_keep | apply State.declareLoss_keep | apply State.twinGo_keep | apply State.mirCmd_keep | (extract_lets -underBinder +onlyGivenNames x; (refine (fun (hx : Keep s0 x) => ?_) ?_); (on_goal 1 => try clear_value x); (on_goal 2 => (unfold x; clear x))) | (extract_lets -underBinder +onlyGivenNames x; try clear_value x) | split)

theorem execMirTakeover_keep {s0 s : State} (h : Keep s0 s) (q : Nat) : ∃ t1, (execMirTakeover q s) = .next t1 ∧ Keep s0 t1 := by
  unfold execMirTakeover
  refine ⟨_, rfl, ?_⟩
  repeat' (with_reducible first | assumption | exact Keep.refl _ | apply State.mirTakeover_keep)

end Sys2Proof.Machine
end

