-- ==== Sys2Proof/Laws/KeepStartOps.lean ====
section
/-! SUPPORT. What the operations of Machine/StartOps.lean keep (Keep). -/

set_option linter.unreachableTactic false
set_option linter.unusedTactic false
set_option linter.unusedVariables false

namespace Sys2Proof.Machine

theorem State.bflStat_keep {s0 s : State} (h : Keep s0 s)  : Keep s0 (State.bflStat s) := by
  unfold State.bflStat
  repeat' (with_reducible first | assumption | exact Keep.refl _ | apply State.wr_keep | (extract_lets -underBinder +onlyGivenNames x; (refine (fun (hx : Keep s0 x) => ?_) ?_); (on_goal 1 => try clear_value x); (on_goal 2 => (unfold x; clear x))) | (extract_lets -underBinder +onlyGivenNames x; try clear_value x) | split)

theorem State.writeSel_keep {s0 s : State} (h : Keep s0 s) (x : SelRec) : Keep s0 (State.writeSel s x) := by
  unfold State.writeSel
  repeat' (with_reducible first | assumption | exact Keep.refl _ | apply State.bflStat_keep | fail_if_no_progress (refine Keep.mk' ?_ rfl) | (extract_lets -underBinder +onlyGivenNames x; (refine (fun (hx : Keep s0 x) => ?_) ?_); (on_goal 1 => try clear_value x); (on_goal 2 => (unfold x; clear x))) | (extract_lets -underBinder +onlyGivenNames x; try clear_value x))

theorem State.revert_keep {s0 s : State} (h : Keep s0 s) (b : Nat) : Keep s0 (State.revert s b) := by
  unfold State.revert
  repeat' (with_reducible first | assumption | exact Keep.refl _ | apply State.raise_keep | apply State.writeSel_keep | fail_if_no_progress (refine Keep.mk' ?_ rfl) | (extract_lets -underBinder +onlyGivenNames x; (refine (fun (hx : Keep s0 x) => ?_) ?_); (on_goal 1 => try clear_value x); (on_goal 2 => (unfold x; clear x))) | (extract_lets -underBinder +onlyGivenNames x; try clear_value x))

theorem State.recoveryRun_keep {s0 s : State} (h : Keep s0 s)  : Keep s0 (State.recoveryRun s) := by
  unfold State.recoveryRun
  repeat' (with_reducible first | assumption | exact Keep.refl _ | apply State.wr_keep | apply State.setStat_keep | apply State.bflStat_keep | (extract_lets -underBinder +onlyGivenNames x; (refine (fun (hx : Keep s0 x) => ?_) ?_); (on_goal 1 => try clear_value x); (on_goal 2 => (unfold x; clear x))) | (extract_lets -underBinder +onlyGivenNames x; try clear_value x))

theorem State.enterRecovery_keep {s0 s : State} (h : Keep s0 s) (flash : Option ImageInfo) : Keep s0 (State.enterRecovery s flash) := by
  unfold State.enterRecovery
  repeat' (with_reducible first | assumption | exact Keep.refl _ | apply State.wr_keep | apply State.raise_keep | apply State.recoveryRun_keep | fail_if_no_progress (refine Keep.mk' ?_ rfl) | (extract_lets -underBinder +onlyGivenNames x; (refine (fun (hx : Keep s0 x) => ?_) ?_); (on_goal 1 => try clear_value x); (on_goal 2 => (unfold x; clear x))) | (extract_lets -underBinder +onlyGivenNames x; try clear_value x) | split)

theorem State.restoreReg_keep {s0 s : State} (h : Keep s0 s) (k : Nat) (v : Word64) : Keep s0 (State.restoreReg s k v) := by
  unfold State.restoreReg
  repeat' (with_reducible first | assumption | exact Keep.refl _ | apply State.setReg_keep | (extract_lets -underBinder +onlyGivenNames x; (refine (fun (hx : Keep s0 x) => ?_) ?_); (on_goal 1 => try clear_value x); (on_goal 2 => (unfold x; clear x))) | (extract_lets -underBinder +onlyGivenNames x; try clear_value x))

theorem State.restore_keep {s0 s : State} (h : Keep s0 s)  : Keep s0 (State.restore s) := by
  unfold State.restore
  repeat' (with_reducible first | assumption | exact Keep.refl _ | apply State.setReg_keep | apply State.wr_keep | apply State.restoreReg_keep | apply Keep.foldl | apply Keep.foldl_fst | apply Keep.foldl_snd | intro _ | fail_if_no_progress (refine Keep.mk' ?_ rfl) | (extract_lets -underBinder +onlyGivenNames x; (refine (fun (hx : Keep s0 x) => ?_) ?_); (on_goal 1 => try clear_value x); (on_goal 2 => (unfold x; clear x))) | (extract_lets -underBinder +onlyGivenNames x; try clear_value x))

theorem State.emberStart_keep {s0 s : State} (h : Keep s0 s)  : Keep s0 (State.emberStart s) := by
  unfold State.emberStart
  repeat' (with_reducible first | assumption | exact Keep.refl _ | apply State.wr_keep | apply State.raise_keep | apply Keep.foldl | apply Keep.foldl_fst | apply Keep.foldl_snd | intro _ | fail_if_no_progress (refine Keep.mk' ?_ rfl) | (extract_lets -underBinder +onlyGivenNames x; (refine (fun (hx : Keep s0 x) => ?_) ?_); (on_goal 1 => try clear_value x); (on_goal 2 => (unfold x; clear x))) | (extract_lets -underBinder +onlyGivenNames x; try clear_value x) | split)

theorem State.eraseRedone_keep {s0 s : State} (h : Keep s0 s) (n : Nat) : Keep s0 (State.eraseRedone s n) := by
  unfold State.eraseRedone
  repeat' (with_reducible first | assumption | exact Keep.refl _ | apply State.writeSel_keep | (extract_lets -underBinder +onlyGivenNames x; (refine (fun (hx : Keep s0 x) => ?_) ?_); (on_goal 1 => try clear_value x); (on_goal 2 => (unfold x; clear x))) | (extract_lets -underBinder +onlyGivenNames x; try clear_value x) | split)

theorem State.romStep_keep {s0 s : State} (h : Keep s0 s) (r : StepResult) : Keep s0 (State.romStep s r) := by
  unfold State.romStep
  repeat' (with_reducible first | assumption | exact Keep.refl _ | apply State.wr_keep | apply State.setStat_keep | apply State.raise_keep | apply State.startHalt_keep | apply State.writeSel_keep | apply State.revert_keep | apply State.enterRecovery_keep | apply State.eraseRedone_keep | apply Keep.foldl | apply Keep.foldl_fst | apply Keep.foldl_snd | intro _ | fail_if_no_progress (refine Keep.mk' ?_ rfl) | (extract_lets -underBinder +onlyGivenNames x; (refine (fun (hx : Keep s0 x) => ?_) ?_); (on_goal 1 => try clear_value x); (on_goal 2 => (unfold x; clear x))) | (extract_lets -underBinder +onlyGivenNames x; have hf := fun z => x z) | (extract_lets -underBinder +onlyGivenNames x; try clear_value x) | split)

theorem State.kindlingStep_keep {s0 s : State} (h : Keep s0 s) (r : StepResult) : Keep s0 (State.kindlingStep s r) := by
  unfold State.kindlingStep
  repeat' (with_reducible first | assumption | exact Keep.refl _ | apply State.wr_keep | apply State.raise_keep | apply State.startHalt_keep | apply State.bflStat_keep | apply State.writeSel_keep | apply State.revert_keep | apply State.enterRecovery_keep | fail_if_no_progress (refine Keep.mk' ?_ rfl) | (extract_lets -underBinder +onlyGivenNames x; (refine (fun (hx : Keep s0 x) => ?_) ?_); (on_goal 1 => try clear_value x); (on_goal 2 => (unfold x; clear x))) | (extract_lets -underBinder +onlyGivenNames x; try clear_value x) | split)

theorem State.mainStep_keep {s0 s : State} (h : Keep s0 s) (r : StepResult) : Keep s0 (State.mainStep s r) := by
  unfold State.mainStep
  repeat' (with_reducible first | assumption | exact Keep.refl _ | apply State.wr_keep | apply State.setStat_keep | apply State.raiseArg_keep | apply State.raiseIf_keep | apply State.startHalt_keep | apply State.bflStat_keep | apply State.emberStart_keep | fail_if_no_progress (refine Keep.mk' ?_ rfl) | (extract_lets -underBinder +onlyGivenNames x; (refine (fun (hx : Keep s0 x) => ?_) ?_); (on_goal 1 => try clear_value x); (on_goal 2 => (unfold x; clear x))) | (extract_lets -underBinder +onlyGivenNames x; try clear_value x) | split)

theorem State.setBases_keep {s0 s : State} (h : Keep s0 s)  : Keep s0 (State.setBases s) := by
  unfold State.setBases
  repeat' (with_reducible first | assumption | exact Keep.refl _ | apply State.wr_keep | (extract_lets -underBinder +onlyGivenNames x; (refine (fun (hx : Keep s0 x) => ?_) ?_); (on_goal 1 => try clear_value x); (on_goal 2 => (unfold x; clear x))) | (extract_lets -underBinder +onlyGivenNames x; try clear_value x))

theorem State.hearthStep_keep {s0 s : State} (h : Keep s0 s)  : Keep s0 (State.hearthStep s) := by
  unfold State.hearthStep
  repeat' (with_reducible first | assumption | exact Keep.refl _ | apply State.wr_keep | apply State.setStat_keep | apply State.trainGroup_keep | apply State.fillSlot_keep | apply State.budgetRecompute_keep | apply State.reserveHeadroom_keep | apply State.restore_keep | apply State.setBases_keep | apply Keep.foldl | apply Keep.foldl_fst | apply Keep.foldl_snd | intro _ | (extract_lets -underBinder +onlyGivenNames x; (refine (fun (hx : Keep s0 x) => ?_) ?_); (on_goal 1 => try clear_value x); (on_goal 2 => (unfold x; clear x))) | (extract_lets -underBinder +onlyGivenNames x; try clear_value x))

theorem State.layFrames_keep {s0 s : State} (h : Keep s0 s)  : Keep s0 (State.layFrames s) := by
  unfold State.layFrames
  repeat' (with_reducible first | assumption | exact Keep.refl _ | apply State.setChFrames_keep | apply Keep.foldl | apply Keep.foldl_fst | apply Keep.foldl_snd | intro _ | fail_if_no_progress (refine Keep.mk' ?_ rfl) | (extract_lets -underBinder +onlyGivenNames x; (refine (fun (hx : Keep s0 x) => ?_) ?_); (on_goal 1 => try clear_value x); (on_goal 2 => (unfold x; clear x))) | exact KeepO.get (by assumption) rfl | exact KeepO.none | apply KeepO.some | (apply KeepO.map; intro _) | (extract_lets -underBinder +onlyGivenNames x; (refine (fun (hx : KeepO s0 x) => ?_) ?_); (on_goal 1 => try clear_value x); (on_goal 2 => (unfold x; clear x))) | (extract_lets -underBinder +onlyGivenNames x; have hd : x.dram = x.dram := rfl) | (extract_lets -underBinder +onlyGivenNames x; have hf := fun z => x z) | (extract_lets -underBinder +onlyGivenNames x; try clear_value x) | split)

theorem State.dramStep_keep {s0 s : State} (h : Keep s0 s)  : Keep s0 (State.dramStep s) := by
  unfold State.dramStep
  repeat' (with_reducible first | assumption | exact Keep.refl _ | apply State.wr_keep | apply State.setStat_keep | apply State.strandTrain_keep | apply State.startHalt_keep | apply Keep.foldl | intro _ | (extract_lets -underBinder +onlyGivenNames x; (refine (fun (hx : Keep s0 x) => ?_) ?_); (on_goal 1 => try clear_value x); (on_goal 2 => (unfold x; clear x))) | (extract_lets -underBinder +onlyGivenNames x; try clear_value x) | split)

theorem State.nandChannel_keep {s0 s : State} (h : Keep s0 s) (ref : NandDie) (f : NandFound) : Keep s0 (State.nandChannel s ref f) := by
  unfold State.nandChannel
  repeat' (with_reducible first | assumption | exact Keep.refl _ | apply State.wr_keep | apply State.setStat_keep | apply State.raise_keep | apply State.nchCount_keep | apply Keep.foldl | apply Keep.foldl_fst | apply Keep.foldl_snd | intro _ | (extract_lets -underBinder +onlyGivenNames x; (refine (fun (hx : Keep s0 x) => ?_) ?_); (on_goal 1 => try clear_value x); (on_goal 2 => (unfold x; clear x))) | exact KeepO.get (by assumption) rfl | exact KeepO.none | apply KeepO.some | (apply KeepO.map; intro _) | (extract_lets -underBinder +onlyGivenNames x; (refine (fun (hx : KeepO s0 x) => ?_) ?_); (on_goal 1 => try clear_value x); (on_goal 2 => (unfold x; clear x))) | (extract_lets -underBinder +onlyGivenNames x; have hf := fun z => x z) | (extract_lets -underBinder +onlyGivenNames x; try clear_value x) | split)

theorem State.nandStep_keep {s0 s : State} (h : Keep s0 s) (r : StepResult) : Keep s0 (State.nandStep s r) := by
  unfold State.nandStep
  repeat' (with_reducible first | assumption | exact Keep.refl _ | apply State.setReg_keep | apply State.wr_keep | apply State.setStat_keep | apply State.raiseIf_keep | apply State.setChanSt_keep | apply State.startHalt_keep | apply State.nandChannel_keep | apply Keep.foldl | apply Keep.foldl_fst | apply Keep.foldl_snd | intro _ | (extract_lets -underBinder +onlyGivenNames x; (refine (fun (hx : Keep s0 x) => ?_) ?_); (on_goal 1 => try clear_value x); (on_goal 2 => (unfold x; clear x))) | exact KeepO.get (by assumption) rfl | exact KeepO.none | apply KeepO.some | (apply KeepO.map; intro _) | (extract_lets -underBinder +onlyGivenNames x; (refine (fun (hx : KeepO s0 x) => ?_) ?_); (on_goal 1 => try clear_value x); (on_goal 2 => (unfold x; clear x))) | (extract_lets -underBinder +onlyGivenNames x; try clear_value x) | split)

theorem State.loadTable_keep {s0 s : State} (h : Keep s0 s)  : Keep s0 (State.loadTable s) := by
  unfold State.loadTable
  repeat' (with_reducible first | assumption | exact Keep.refl _ | apply State.addT2_keep | apply Keep.foldl | apply Keep.foldl_fst | apply Keep.foldl_snd | intro _ | fail_if_no_progress (refine Keep.mk' ?_ rfl) | (extract_lets -underBinder +onlyGivenNames x; (refine (fun (hx : Keep s0 x) => ?_) ?_); (on_goal 1 => try clear_value x); (on_goal 2 => (unfold x; clear x))) | exact KeepO.get (by assumption) rfl | exact KeepO.none | apply KeepO.some | (apply KeepO.map; intro _) | (extract_lets -underBinder +onlyGivenNames x; (refine (fun (hx : KeepO s0 x) => ?_) ?_); (on_goal 1 => try clear_value x); (on_goal 2 => (unfold x; clear x))) | (extract_lets -underBinder +onlyGivenNames x; have hd : x.dram = x.dram := rfl) | (extract_lets -underBinder +onlyGivenNames x; try clear_value x) | split)

theorem State.tableStep_keep {s0 s : State} (h : Keep s0 s)  : Keep s0 (State.tableStep s) := by
  unfold State.tableStep
  repeat' (with_reducible first | assumption | exact Keep.refl _ | apply State.wr_keep | apply State.setStat_keep | apply State.startProbe_keep | apply State.startHalt_keep | apply State.layFrames_keep | apply State.loadTable_keep | (extract_lets -underBinder +onlyGivenNames x; (refine (fun (hx : Keep s0 x) => ?_) ?_); (on_goal 1 => try clear_value x); (on_goal 2 => (unfold x; clear x))) | (extract_lets -underBinder +onlyGivenNames x; have hd : x.dram = x.dram := rfl) | (extract_lets -underBinder +onlyGivenNames x; try clear_value x) | split)

theorem State.openUnitsRead_keep {s0 s : State} (h : Keep s0 s) (bad : List Nat) : Keep s0 (State.openUnitsRead s bad) := by
  unfold State.openUnitsRead
  repeat' (with_reducible first | assumption | exact Keep.refl _ | apply State.unitLost_keep | apply State.countLost_keep | apply Keep.foldl | intro _ | (extract_lets -underBinder +onlyGivenNames x; (refine (fun (hx : Keep s0 x) => ?_) ?_); (on_goal 1 => try clear_value x); (on_goal 2 => (unfold x; clear x))) | (extract_lets -underBinder +onlyGivenNames x; try clear_value x) | split)

theorem State.mediaStep_keep {s0 s : State} (h : Keep s0 s) (r : StepResult) : Keep s0 (State.mediaStep s r) := by
  unfold State.mediaStep
  repeat' (with_reducible first | assumption | exact Keep.refl _ | apply State.wr_keep | apply State.setStat_keep | apply State.raise_keep | apply State.jrn_keep | apply State.fillReserve_keep | apply State.mediaRecompute_keep | apply State.victim_keep | apply State.reserveVerify_keep | apply State.openUnitsRead_keep | apply Keep.foldl | intro _ | (extract_lets -underBinder +onlyGivenNames x; (refine (fun (hx : Keep s0 x) => ?_) ?_); (on_goal 1 => try clear_value x); (on_goal 2 => (unfold x; clear x))) | (extract_lets -underBinder +onlyGivenNames x; try clear_value x) | split)

theorem State.audit_keep {s0 s : State} (h : Keep s0 s) (f : FlushRec) (kind : Nat) : Keep s0 (State.audit s f kind) := by
  unfold State.audit
  repeat' (with_reducible first | assumption | exact Keep.refl _ | apply State.wr_keep | apply State.raise_keep | apply State.raiseIf_keep | apply State.takeFree_keep | apply State.autoSave_keep | apply State.budgetRecompute_keep | refine Keep.of_snd (by assumption) ?_ | (extract_lets -underBinder +onlyGivenNames x; (refine (fun (hx : Keep s0 x) => ?_) ?_); (on_goal 1 => try clear_value x); (on_goal 2 => (unfold x; clear x))) | (extract_lets -underBinder +onlyGivenNames x; (refine (fun (hx : Keep s0 x.2) => ?_) ?_); (on_goal 1 => try clear_value x); (on_goal 2 => (unfold x; clear x))) | (extract_lets -underBinder +onlyGivenNames x; try clear_value x) | split)

theorem State.loadImage_keep {s0 s : State} (h : Keep s0 s)  : Keep s0 (State.loadImage s) := by
  unfold State.loadImage
  repeat' (with_reducible first | assumption | exact Keep.refl _ | apply State.wr_keep | fail_if_no_progress (refine Keep.mk' ?_ rfl) | (extract_lets -underBinder +onlyGivenNames x; (refine (fun (hx : Keep s0 x) => ?_) ?_); (on_goal 1 => try clear_value x); (on_goal 2 => (unfold x; clear x))) | exact KeepO.get (by assumption) rfl | exact KeepO.none | apply KeepO.some | (apply KeepO.map; intro _) | (extract_lets -underBinder +onlyGivenNames x; (refine (fun (hx : KeepO s0 x) => ?_) ?_); (on_goal 1 => try clear_value x); (on_goal 2 => (unfold x; clear x))) | (extract_lets -underBinder +onlyGivenNames x; have hd : x.dram = x.dram := rfl) | (extract_lets -underBinder +onlyGivenNames x; try clear_value x) | split)

theorem State.replayLine_keep {s0 s : State} (h : Keep s0 s) (t : Nat) (l : FlushLine) : Keep s0 (State.replayLine s t l) := by
  unfold State.replayLine
  repeat' (with_reducible first | assumption | exact Keep.refl _ | apply State.takeFrame_keep | apply State.setDram_keep | apply State.fillFrame_keep | apply State.setPte_keep | apply State.addT1_keep | apply State.addT2_keep | apply State.charge_keep | fail_if_no_progress (refine Keep.mk' ?_ rfl) | refine KeepO3.get ?_ (by assumption) | (extract_lets -underBinder +onlyGivenNames x; (refine (fun (hx : Keep s0 x) => ?_) ?_); (on_goal 1 => try clear_value x); (on_goal 2 => (unfold x; clear x))) | (extract_lets -underBinder +onlyGivenNames x; try clear_value x) | split)

theorem State.replay_keep {s0 s : State} (h : Keep s0 s) (f : FlushRec) (lost : List Nat) : Keep s0 (State.replay s f lost) := by
  unfold State.replay
  repeat' (with_reducible first | assumption | exact Keep.refl _ | apply State.wr_keep | apply State.raise_keep | apply State.cphCount_keep | apply State.replayLine_keep | apply Keep.foldl | apply Keep.foldl_fst | apply Keep.foldl_snd | intro _ | fail_if_no_progress (refine Keep.mk' ?_ rfl) | (extract_lets -underBinder +onlyGivenNames x; (refine (fun (hx : Keep s0 x) => ?_) ?_); (on_goal 1 => try clear_value x); (on_goal 2 => (unfold x; clear x))) | exact KeepO.get (by assumption) rfl | exact KeepO.none | apply KeepO.some | (apply KeepO.map; intro _) | (extract_lets -underBinder +onlyGivenNames x; (refine (fun (hx : KeepO s0 x) => ?_) ?_); (on_goal 1 => try clear_value x); (on_goal 2 => (unfold x; clear x))) | (extract_lets -underBinder +onlyGivenNames x; have hf := fun z => x z) | (extract_lets -underBinder +onlyGivenNames x; try clear_value x) | split)

theorem State.enterTwinStep_keep {s0 s : State} (h : Keep s0 s)  : Keep s0 (State.enterTwinStep s) := by
  unfold State.enterTwinStep
  repeat' (with_reducible first | assumption | exact Keep.refl _ | apply State.wr_keep | apply State.setStat_keep | apply State.sendHandshake_keep | fail_if_no_progress (refine Keep.mk' ?_ rfl) | (extract_lets -underBinder +onlyGivenNames x; (refine (fun (hx : Keep s0 x) => ?_) ?_); (on_goal 1 => try clear_value x); (on_goal 2 => (unfold x; clear x))) | (extract_lets -underBinder +onlyGivenNames x; try clear_value x))

theorem State.replayStep_keep {s0 s : State} (h : Keep s0 s) (r : StepResult) : Keep s0 (State.replayStep s r) := by
  unfold State.replayStep
  repeat' (with_reducible first | assumption | exact Keep.refl _ | apply State.wr_keep | apply State.setStat_keep | apply State.raiseIf_keep | apply State.allOwned_keep | apply State.mediaRecompute_keep | apply State.audit_keep | apply State.loadImage_keep | apply State.replay_keep | apply State.enterTwinStep_keep | fail_if_no_progress (refine Keep.mk' ?_ rfl) | (extract_lets -underBinder +onlyGivenNames x; (refine (fun (hx : Keep s0 x) => ?_) ?_); (on_goal 1 => try clear_value x); (on_goal 2 => (unfold x; clear x))) | (extract_lets -underBinder +onlyGivenNames x; try clear_value x) | split)

theorem State.startStep_keep {s0 s : State} (h : Keep s0 s) (r : StepResult) : Keep s0 (State.startStep s r) := by
  unfold State.startStep
  repeat' (with_reducible first | assumption | exact Keep.refl _ | apply State.wr_keep | apply State.romStep_keep | apply State.kindlingStep_keep | apply State.mainStep_keep | apply State.hearthStep_keep | apply State.dramStep_keep | apply State.nandStep_keep | apply State.tableStep_keep | apply State.mediaStep_keep | apply State.replayStep_keep | fail_if_no_progress (refine Keep.mk' ?_ rfl) | (extract_lets -underBinder +onlyGivenNames x; (refine (fun (hx : Keep s0 x) => ?_) ?_); (on_goal 1 => try clear_value x); (on_goal 2 => (unfold x; clear x))) | (extract_lets -underBinder +onlyGivenNames x; try clear_value x) | split)

theorem State.glbReset_keep {s0 s : State} (h : Keep s0 s) (v : Word64) : KeepO s0 (State.glbReset s v) := by
  unfold State.glbReset
  repeat' (with_reducible first | assumption | exact Keep.refl _ | apply State.emberStop_keep | apply State.deviceReset_keep | exact KeepO.none | apply KeepO.some | split)

theorem State.bflConfirm_keep {s0 s : State} (h : Keep s0 s) (v : Word64) : KeepO s0 (State.bflConfirm s v) := by
  unfold State.bflConfirm
  repeat' (with_reducible first | assumption | exact Keep.refl _ | apply State.raise_keep | apply State.bflStat_keep | apply State.writeSel_keep | fail_if_no_progress (refine Keep.mk' ?_ rfl) | exact KeepO.none | apply KeepO.some | (extract_lets -underBinder +onlyGivenNames x; (refine (fun (hx : Keep s0 x) => ?_) ?_); (on_goal 1 => try clear_value x); (on_goal 2 => (unfold x; clear x))) | (extract_lets -underBinder +onlyGivenNames x; try clear_value x) | split)

theorem State.recoveryCopied_keep {s0 s : State} (h : Keep s0 s) (m : Option ImageInfo) : Keep s0 (State.recoveryCopied s m) := by
  unfold State.recoveryCopied
  repeat' (with_reducible first | assumption | exact Keep.refl _ | apply State.wr_keep | apply State.raise_keep | apply State.recoveryRun_keep | fail_if_no_progress (refine Keep.mk' ?_ rfl) | (extract_lets -underBinder +onlyGivenNames x; (refine (fun (hx : Keep s0 x) => ?_) ?_); (on_goal 1 => try clear_value x); (on_goal 2 => (unfold x; clear x))) | (extract_lets -underBinder +onlyGivenNames x; try clear_value x) | split)

end Sys2Proof.Machine
end

