-- ==== Sys2Proof/Laws/KeepHearthOps.lean ====
section
/-! SUPPORT. What the operations of Machine/HearthOps.lean keep (Keep). -/

set_option linter.unreachableTactic false
set_option linter.unusedTactic false
set_option linter.unusedVariables false

namespace Sys2Proof.Machine

theorem State.applyLayout_keep {s0 s : State} (h : Keep s0 s)  : Keep s0 (State.applyLayout s) := by
  unfold State.applyLayout
  repeat' (with_reducible first | assumption | exact Keep.refl _ | apply State.wr_keep | apply State.raise_keep | fail_if_no_progress (refine Keep.mk' ?_ rfl) | (extract_lets -underBinder +onlyGivenNames x; (refine (fun (hx : Keep s0 x) => ?_) ?_); (on_goal 1 => try clear_value x); (on_goal 2 => (unfold x; clear x))) | (extract_lets -underBinder +onlyGivenNames x; try clear_value x) | split)

theorem State.applied_keep {s0 s : State} (h : Keep s0 s)  : Keep s0 (State.applied s) := by
  unfold State.applied
  repeat' (with_reducible first | assumption | exact Keep.refl _ | apply State.wr_keep | apply State.bumpGen_keep | apply State.raise_keep | apply State.autoSave_keep | apply State.reserveHeadroom_keep | apply State.setBases_keep | fail_if_no_progress (refine Keep.mk' ?_ rfl) | (extract_lets -underBinder +onlyGivenNames x; (refine (fun (hx : Keep s0 x) => ?_) ?_); (on_goal 1 => try clear_value x); (on_goal 2 => (unfold x; clear x))) | (extract_lets -underBinder +onlyGivenNames x; try clear_value x) | split)

theorem State.partitionApply_keep {s0 s : State} (h : Keep s0 s)  : Keep s0 (State.partitionApply s) := by
  unfold State.partitionApply
  repeat' (with_reducible first | assumption | exact Keep.refl _ | apply State.accessErr_keep | apply State.applyLayout_keep | split)

theorem execPartitionApply_keep {s0 s : State} (h : Keep s0 s)  : ∃ t1, (execPartitionApply s) = .next t1 ∧ Keep s0 t1 := by
  unfold execPartitionApply
  refine ⟨_, rfl, ?_⟩
  repeat' (with_reducible first | assumption | exact Keep.refl _ | apply State.partitionApply_keep)

theorem execPartApplied_keep {s0 s : State} (h : Keep s0 s)  : ∃ t1, (execPartApplied s) = .next t1 ∧ Keep s0 t1 := by
  unfold execPartApplied
  refine ⟨_, rfl, ?_⟩
  repeat' (with_reducible first | assumption | exact Keep.refl _ | apply State.applied_keep)

theorem State.quiesceCheck_keep {s0 s : State} (h : Keep s0 s) (page : Nat) : Keep s0 (State.quiesceCheck s page) := by
  unfold State.quiesceCheck
  repeat' (with_reducible first | assumption | exact Keep.refl _ | apply State.wr_keep | split)

theorem execQuiesceDone_keep {s0 s : State} (h : Keep s0 s) (page : Nat) : ∃ t1, (execQuiesceDone page s) = .next t1 ∧ Keep s0 t1 := by
  unfold execQuiesceDone
  refine ⟨_, rfl, ?_⟩
  repeat' (with_reducible first | assumption | exact Keep.refl _ | apply State.quiesceCheck_keep)

theorem State.damper_keep {s0 s : State} (h : Keep s0 s) (bank : Nat) : Keep s0 (State.damper s bank) := by
  unfold State.damper
  repeat' (with_reducible first | assumption | exact Keep.refl _ | apply State.wr_keep | apply State.setLevel_keep | fail_if_no_progress (refine Keep.mk' ?_ rfl) | (extract_lets -underBinder +onlyGivenNames x; (refine (fun (hx : Keep s0 x) => ?_) ?_); (on_goal 1 => try clear_value x); (on_goal 2 => (unfold x; clear x))) | (extract_lets -underBinder +onlyGivenNames x; have hf := fun z => x z) | (extract_lets -underBinder +onlyGivenNames x; try clear_value x) | split)

theorem execDamperSample_keep {s0 s : State} (h : Keep s0 s) (bank64ths : Nat) : ∃ t1, (execDamperSample bank64ths s) = .next t1 ∧ Keep s0 t1 := by
  unfold execDamperSample
  refine ⟨_, rfl, ?_⟩
  repeat' (with_reducible first | assumption | exact Keep.refl _ | apply State.upTo_keep | apply State.banksGo_keep | apply State.damper_keep | (extract_lets -underBinder +onlyGivenNames x; (refine (fun (hx : Keep s0 x) => ?_) ?_); (on_goal 1 => try clear_value x); (on_goal 2 => (unfold x; clear x))) | (extract_lets -underBinder +onlyGivenNames x; try clear_value x) | split)

theorem State.contextLoad_keep {s0 s : State} (h : Keep s0 s) (n : Nat) : Keep s0 (State.contextLoad s n) := by
  unfold State.contextLoad
  repeat' (with_reducible first | assumption | exact Keep.refl _ | apply State.askIn_keep | apply State.sendsGo_keep | fail_if_no_progress (refine Keep.mk' ?_ rfl) | (extract_lets -underBinder +onlyGivenNames x; (refine (fun (hx : Keep s0 x) => ?_) ?_); (on_goal 1 => try clear_value x); (on_goal 2 => (unfold x; clear x))) | (extract_lets -underBinder +onlyGivenNames x; try clear_value x) | split)

theorem execContextLoad_keep {s0 s : State} (h : Keep s0 s) (qpn : Nat) : ∃ t1, (execContextLoad qpn s) = .next t1 ∧ Keep s0 t1 := by
  unfold execContextLoad
  refine ⟨_, rfl, ?_⟩
  repeat' (with_reducible first | assumption | exact Keep.refl _ | apply State.contextLoad_keep)

theorem State.ctxNew_keep {s0 s : State} (h : Keep s0 s) (n : Nat) : Keep s0 (State.ctxNew s n) := by
  unfold State.ctxNew
  repeat' (with_reducible first | assumption | exact Keep.refl _ | apply State.raise_keep | fail_if_no_progress (refine Keep.mk' ?_ rfl) | (extract_lets -underBinder +onlyGivenNames x; (refine (fun (hx : Keep s0 x) => ?_) ?_); (on_goal 1 => try clear_value x); (on_goal 2 => (unfold x; clear x))) | (extract_lets -underBinder +onlyGivenNames x; try clear_value x) | split)

end Sys2Proof.Machine
end

