-- ==== Sys2Proof/Laws/KeepPortOps.lean ====
section
/-! SUPPORT. What the operations of Machine/PortOps.lean keep (Keep). -/

set_option linter.unreachableTactic false
set_option linter.unusedTactic false
set_option linter.unusedVariables false

namespace Sys2Proof.Machine

theorem State.kickTx_keep {s0 s : State} (h : Keep s0 s) (p : Nat) : Keep s0 (State.kickTx s p) := by
  unfold State.kickTx
  repeat' (with_reducible first | assumption | exact Keep.refl _ | apply State.startTx_keep)

theorem State.portEnable_keep {s0 s : State} (h : Keep s0 s) (p : Nat) : Keep s0 (State.portEnable s p) := by
  unfold State.portEnable
  repeat' (with_reducible first | assumption | exact Keep.refl _ | apply State.modPort_keep | apply State.setPortSt_keep | fail_if_no_progress (refine Keep.mk' ?_ rfl) | (extract_lets -underBinder +onlyGivenNames x; (refine (fun (hx : Keep s0 x) => ?_) ?_); (on_goal 1 => try clear_value x); (on_goal 2 => (unfold x; clear x))) | (extract_lets -underBinder +onlyGivenNames x; try clear_value x))

theorem State.portDisable_keep {s0 s : State} (h : Keep s0 s) (p : Nat) : Keep s0 (State.portDisable s p) := by
  unfold State.portDisable
  repeat' (with_reducible first | assumption | exact Keep.refl _ | apply State.portLeaves_keep | apply State.kickTx_keep)

theorem State.fcAfter_keep {s0 s : State} (h : Keep s0 s) (mode p : Nat) : Keep s0 (State.fcAfter s mode p) := by
  unfold State.fcAfter
  repeat' (with_reducible first | assumption | exact Keep.refl _ | apply State.subHead_keep | apply State.endXoff_keep | apply State.setPending_keep | apply State.grantHeadroom_keep | apply State.afterFree_keep | apply Keep.foldl | intro _ | (extract_lets -underBinder +onlyGivenNames x; (refine (fun (hx : Keep s0 x) => ?_) ?_); (on_goal 1 => try clear_value x); (on_goal 2 => (unfold x; clear x))) | (extract_lets -underBinder +onlyGivenNames x; try clear_value x) | split)

theorem State.portRegsReset_keep {s0 s : State} (h : Keep s0 s) (p : Nat) : Keep s0 (State.portRegsReset s p) := by
  unfold State.portRegsReset
  repeat' (with_reducible first | assumption | exact Keep.refl _ | apply State.setReg_keep | apply Keep.foldl | intro _ | (extract_lets -underBinder +onlyGivenNames x; (refine (fun (hx : Keep s0 x) => ?_) ?_); (on_goal 1 => try clear_value x); (on_goal 2 => (unfold x; clear x))) | (extract_lets -underBinder +onlyGivenNames x; try clear_value x))

theorem State.portInner_keep {s0 s : State} (h : Keep s0 s) (p : Nat) : Keep s0 (State.portInner s p) := by
  unfold State.portInner
  repeat' (with_reducible first | assumption | exact Keep.refl _ | apply State.wr_keep | apply State.modPort_keep | apply State.portLeaves_keep | fail_if_no_progress (refine Keep.mk' ?_ rfl) | (extract_lets -underBinder +onlyGivenNames x; (refine (fun (hx : Keep s0 x) => ?_) ?_); (on_goal 1 => try clear_value x); (on_goal 2 => (unfold x; clear x))) | (extract_lets -underBinder +onlyGivenNames x; try clear_value x) | split)

theorem State.softReset_keep {s0 s : State} (h : Keep s0 s) (p : Nat) : Keep s0 (State.softReset s p) := by
  unfold State.softReset
  repeat' (with_reducible first | assumption | exact Keep.refl _ | apply State.wr_keep | apply State.fcAfter_keep | apply State.portRegsReset_keep | apply State.portInner_keep | (extract_lets -underBinder +onlyGivenNames x; (refine (fun (hx : Keep s0 x) => ?_) ?_); (on_goal 1 => try clear_value x); (on_goal 2 => (unfold x; clear x))) | (extract_lets -underBinder +onlyGivenNames x; try clear_value x))

theorem State.softRstDone_keep {s0 s : State} (h : Keep s0 s) (page : Nat) : Keep s0 (State.softRstDone s page) := by
  unfold State.softRstDone
  repeat' (with_reducible first | assumption | exact Keep.refl _ | apply State.wr_keep | apply State.bumpGen_keep | split)

theorem execSoftRstDone_keep {s0 s : State} (h : Keep s0 s) (page : Nat) : ∃ t1, (execSoftRstDone page s) = .next t1 ∧ Keep s0 t1 := by
  unfold execSoftRstDone
  refine ⟨_, rfl, ?_⟩
  repeat' (with_reducible first | assumption | exact Keep.refl _ | apply State.softRstDone_keep)

end Sys2Proof.Machine
end

