-- ==== Sys2Proof/Laws/KeepPorts.lean ====
section
/-! SUPPORT. What the operations of Machine/Ports.lean keep (Keep). -/

set_option linter.unreachableTactic false
set_option linter.unusedTactic false
set_option linter.unusedVariables false

namespace Sys2Proof.Machine

theorem execAutonegResolved_keep {s0 s : State} (h : Keep s0 s) (port : Nat) : ∃ t1, (execAutonegResolved port s) = .next t1 ∧ Keep s0 t1 := by
  unfold execAutonegResolved
  refine ⟨_, rfl, ?_⟩
  repeat' (with_reducible first | assumption | exact Keep.refl _ | apply State.modPort_keep | apply State.setPortSt_keep | fail_if_no_progress (refine Keep.mk' ?_ rfl) | (extract_lets -underBinder +onlyGivenNames x; (refine (fun (hx : Keep s0 x) => ?_) ?_); (on_goal 1 => try clear_value x); (on_goal 2 => (unfold x; clear x))) | (extract_lets -underBinder +onlyGivenNames x; try clear_value x) | split)

theorem execAnAttemptFail_keep {s0 s : State} (h : Keep s0 s) (port : Nat) : ∃ t1, (execAnAttemptFail port s) = .next t1 ∧ Keep s0 t1 := by
  unfold execAnAttemptFail
  refine ⟨_, rfl, ?_⟩
  repeat' (with_reducible first | assumption | exact Keep.refl _ | apply State.raise_keep | apply State.modPort_keep | fail_if_no_progress (refine Keep.mk' ?_ rfl) | (extract_lets -underBinder +onlyGivenNames x; (refine (fun (hx : Keep s0 x) => ?_) ?_); (on_goal 1 => try clear_value x); (on_goal 2 => (unfold x; clear x))) | (extract_lets -underBinder +onlyGivenNames x; try clear_value x) | split)

theorem execTrainingDone_keep {s0 s : State} (h : Keep s0 s) (port : Nat) : ∃ t1, (execTrainingDone port s) = .next t1 ∧ Keep s0 t1 := by
  unfold execTrainingDone
  refine ⟨_, rfl, ?_⟩
  repeat' (with_reducible first | assumption | exact Keep.refl _ | apply State.setPortSt_keep | split)

theorem execTrainFail_keep {s0 s : State} (h : Keep s0 s) (port : Nat) : ∃ t1, (execTrainFail port s) = .next t1 ∧ Keep s0 t1 := by
  unfold execTrainFail
  refine ⟨_, rfl, ?_⟩
  repeat' (with_reducible first | assumption | exact Keep.refl _ | apply State.raise_keep | apply State.setPortSt_keep | split)

theorem State.portRises_keep {s0 s : State} (h : Keep s0 s) (p : Nat) : Keep s0 (State.portRises s p) := by
  unfold State.portRises
  repeat' (with_reducible first | assumption | exact Keep.refl _ | apply State.wr_keep | apply State.raise_keep | apply State.modPort_keep | apply State.announceAll_keep | apply State.placeHosted_keep | apply State.setPortSt_keep | apply State.kickTx_keep | fail_if_no_progress (refine Keep.mk' ?_ rfl) | (extract_lets -underBinder +onlyGivenNames x; (refine (fun (hx : Keep s0 x) => ?_) ?_); (on_goal 1 => try clear_value x); (on_goal 2 => (unfold x; clear x))) | (extract_lets -underBinder +onlyGivenNames x; try clear_value x) | split)

theorem execLinkUp_keep {s0 s : State} (h : Keep s0 s) (port : Nat) : ∃ t1, (execLinkUp port s) = .next t1 ∧ Keep s0 t1 := by
  unfold execLinkUp
  refine ⟨_, rfl, ?_⟩
  repeat' (with_reducible first | assumption | exact Keep.refl _ | apply State.settle_keep | apply State.portRises_keep | split)

theorem execLinkDown_keep {s0 s : State} (h : Keep s0 s) (port : Nat) (cause : PortDownCause) : ∃ t1, (execLinkDown port cause s) = .next t1 ∧ Keep s0 t1 := by
  unfold execLinkDown
  refine ⟨_, rfl, ?_⟩
  repeat' (with_reducible first | assumption | exact Keep.refl _ | apply State.modPort_keep | apply State.settle_keep | apply State.portLeaves_keep | apply State.kickTx_keep | fail_if_no_progress (refine Keep.mk' ?_ rfl) | (extract_lets -underBinder +onlyGivenNames x; (refine (fun (hx : Keep s0 x) => ?_) ?_); (on_goal 1 => try clear_value x); (on_goal 2 => (unfold x; clear x))) | (extract_lets -underBinder +onlyGivenNames x; try clear_value x) | split)

theorem execRemoteFault_keep {s0 s : State} (h : Keep s0 s) (port : Nat) : ∃ t1, (execRemoteFault port s) = .next t1 ∧ Keep s0 t1 := by
  unfold execRemoteFault
  refine ⟨_, rfl, ?_⟩
  repeat' (with_reducible first | assumption | exact Keep.refl _ | apply State.settle_keep | apply State.portLeaves_keep | apply State.kickTx_keep | split)

theorem execRemoteFaultClear_keep {s0 s : State} (h : Keep s0 s) (port : Nat) : ∃ t1, (execRemoteFaultClear port s) = .next t1 ∧ Keep s0 t1 := by
  unfold execRemoteFaultClear
  refine ⟨_, rfl, ?_⟩
  repeat' (with_reducible first | assumption | exact Keep.refl _ | apply State.settle_keep | apply State.portRises_keep | split)

theorem execFecWindow_keep {s0 s : State} (h : Keep s0 s) (port : Nat) (corrCw uncorrCw corrSym : Nat) : ∃ t1, (execFecWindow port corrCw uncorrCw corrSym s) = .next t1 ∧ Keep s0 t1 := by
  unfold execFecWindow
  refine ⟨_, rfl, ?_⟩
  repeat' (with_reducible first | assumption | exact Keep.refl _ | apply State.raise_keep | apply State.modPort_keep | apply State.hptCount_keep | fail_if_no_progress (refine Keep.mk' ?_ rfl) | (extract_lets -underBinder +onlyGivenNames x; (refine (fun (hx : Keep s0 x) => ?_) ?_); (on_goal 1 => try clear_value x); (on_goal 2 => (unfold x; clear x))) | (extract_lets -underBinder +onlyGivenNames x; try clear_value x) | split)

theorem State.pausePrio_keep {s0 s : State} (h : Keep s0 s) (p q quanta at_ : Nat) : Keep s0 (State.pausePrio s p q quanta at_) := by
  unfold State.pausePrio
  repeat' (with_reducible first | assumption | exact Keep.refl _ | apply State.modPort_keep | fail_if_no_progress (refine Keep.mk' ?_ rfl) | (extract_lets -underBinder +onlyGivenNames x; (refine (fun (hx : Keep s0 x) => ?_) ?_); (on_goal 1 => try clear_value x); (on_goal 2 => (unfold x; clear x))) | (extract_lets -underBinder +onlyGivenNames x; try clear_value x) | split)

theorem State.pfcFrame_keep {s0 s : State} (h : Keep s0 s) (p : Nat) : Keep s0 (State.pfcFrame s p) := by
  unfold State.pfcFrame
  repeat' (with_reducible first | assumption | exact Keep.refl _ | apply State.hptCount_keep | apply State.popRx_keep | apply State.kickTx_keep | apply State.pausePrio_keep | apply Keep.foldl | apply Keep.foldl_fst | apply Keep.foldl_snd | intro _ | fail_if_no_progress (refine Keep.mk' ?_ rfl) | refine KeepO2.get ?_ (by assumption) | (extract_lets -underBinder +onlyGivenNames x; (refine (fun (hx : Keep s0 x) => ?_) ?_); (on_goal 1 => try clear_value x); (on_goal 2 => (unfold x; clear x))) | (extract_lets -underBinder +onlyGivenNames x; try clear_value x) | split)

theorem execPfcFrame_keep {s0 s : State} (h : Keep s0 s) (port : Nat) : ∃ t1, (execPfcFrame port s) = .next t1 ∧ Keep s0 t1 := by
  unfold execPfcFrame
  refine ⟨_, rfl, ?_⟩
  repeat' (with_reducible first | assumption | exact Keep.refl _ | apply State.settle_keep | apply State.pfcFrame_keep)

theorem State.pauseExpiry_keep {s0 s : State} (h : Keep s0 s) (p q : Nat) : Keep s0 (State.pauseExpiry s p q) := by
  unfold State.pauseExpiry
  repeat' (with_reducible first | assumption | exact Keep.refl _ | apply State.upTo_keep | apply State.modPort_keep | apply State.kickTx_keep | fail_if_no_progress (refine Keep.mk' ?_ rfl) | (extract_lets -underBinder +onlyGivenNames x; (refine (fun (hx : Keep s0 x) => ?_) ?_); (on_goal 1 => try clear_value x); (on_goal 2 => (unfold x; clear x))) | (extract_lets -underBinder +onlyGivenNames x; try clear_value x) | split)

theorem execPauseExpiry_keep {s0 s : State} (h : Keep s0 s) (port : Nat) (prio : Nat) : ∃ t1, (execPauseExpiry port prio s) = .next t1 ∧ Keep s0 t1 := by
  unfold execPauseExpiry
  refine ⟨_, rfl, ?_⟩
  repeat' (with_reducible first | assumption | exact Keep.refl _ | apply State.settle_keep | apply State.pauseExpiry_keep)

theorem State.xoffRefresh_keep {s0 s : State} (h : Keep s0 s) (p q : Nat) : Keep s0 (State.xoffRefresh s p q) := by
  unfold State.xoffRefresh
  repeat' (with_reducible first | assumption | exact Keep.refl _ | apply State.upTo_keep | apply State.modPort_keep | apply State.queuePause_keep | apply State.kickTx_keep | fail_if_no_progress (refine Keep.mk' ?_ rfl) | (extract_lets -underBinder +onlyGivenNames x; (refine (fun (hx : Keep s0 x) => ?_) ?_); (on_goal 1 => try clear_value x); (on_goal 2 => (unfold x; clear x))) | (extract_lets -underBinder +onlyGivenNames x; try clear_value x) | split)

theorem execXoffRefresh_keep {s0 s : State} (h : Keep s0 s) (port : Nat) (prio : Nat) : ∃ t1, (execXoffRefresh port prio s) = .next t1 ∧ Keep s0 t1 := by
  unfold execXoffRefresh
  refine ⟨_, rfl, ?_⟩
  repeat' (with_reducible first | assumption | exact Keep.refl _ | apply State.xoffRefresh_keep)

theorem State.pauseStorm_keep {s0 s : State} (h : Keep s0 s) (p q : Nat) : Keep s0 (State.pauseStorm s p q) := by
  unfold State.pauseStorm
  repeat' (with_reducible first | assumption | exact Keep.refl _ | apply State.wr_keep | apply State.raise_keep | apply State.upTo_keep | apply State.kickTx_keep | fail_if_no_progress (refine Keep.mk' ?_ rfl) | (extract_lets -underBinder +onlyGivenNames x; (refine (fun (hx : Keep s0 x) => ?_) ?_); (on_goal 1 => try clear_value x); (on_goal 2 => (unfold x; clear x))) | (extract_lets -underBinder +onlyGivenNames x; try clear_value x) | split)

theorem execPauseStorm_keep {s0 s : State} (h : Keep s0 s) (port : Nat) (prio : Nat) : ∃ t1, (execPauseStorm port prio s) = .next t1 ∧ Keep s0 t1 := by
  unfold execPauseStorm
  refine ⟨_, rfl, ?_⟩
  repeat' (with_reducible first | assumption | exact Keep.refl _ | apply State.settle_keep | apply State.pauseStorm_keep)

theorem State.stormClear_keep {s0 s : State} (h : Keep s0 s) (p q : Nat) : Keep s0 (State.stormClear s p q) := by
  unfold State.stormClear
  repeat' (with_reducible first | assumption | exact Keep.refl _ | apply State.wr_keep | apply State.raise_keep | apply State.upTo_keep | apply State.kickTx_keep | (extract_lets -underBinder +onlyGivenNames x; (refine (fun (hx : Keep s0 x) => ?_) ?_); (on_goal 1 => try clear_value x); (on_goal 2 => (unfold x; clear x))) | (extract_lets -underBinder +onlyGivenNames x; try clear_value x) | split)

theorem execStormClear_keep {s0 s : State} (h : Keep s0 s) (port : Nat) (prio : Nat) : ∃ t1, (execStormClear port prio s) = .next t1 ∧ Keep s0 t1 := by
  unfold execStormClear
  refine ⟨_, rfl, ?_⟩
  repeat' (with_reducible first | assumption | exact Keep.refl _ | apply State.settle_keep | apply State.stormClear_keep)

theorem State.defend_keep {s0 s : State} (h : Keep s0 s) (p : Nat) (a : IpAddr) (m : Mac) : Keep s0 (State.defend s p a m) := by
  unfold State.defend
  repeat' (with_reducible first | assumption | exact Keep.refl _ | apply State.raise_keep | apply State.sendAnnounce_keep | fail_if_no_progress (refine Keep.mk' ?_ rfl) | (extract_lets -underBinder +onlyGivenNames x; (refine (fun (hx : Keep s0 x) => ?_) ?_); (on_goal 1 => try clear_value x); (on_goal 2 => (unfold x; clear x))) | (extract_lets -underBinder +onlyGivenNames x; try clear_value x) | split)

theorem State.replyTo_keep {s0 s : State} (h : Keep s0 s) (p : Nat) (f : Frame) (mac : Mac) (len : Nat) (b : TxBody) : Keep s0 (State.replyTo s p f mac len b) := by
  unfold State.replyTo
  repeat' (with_reducible first | assumption | exact Keep.refl _ | apply State.hptCount_keep | apply State.queueTx_keep | fail_if_no_progress (refine Keep.mk' ?_ rfl) | split)

theorem State.arpFrame_keep {s0 s : State} (h : Keep s0 s) (p : Nat) : Keep s0 (State.arpFrame s p) := by
  unfold State.arpFrame
  repeat' (with_reducible first | assumption | exact Keep.refl _ | apply State.consumeRx_keep | apply State.popRx_keep | apply State.defend_keep | apply State.replyTo_keep | fail_if_no_progress (refine Keep.mk' ?_ rfl) | refine KeepO2.get ?_ (by assumption) | (extract_lets -underBinder +onlyGivenNames x; (refine (fun (hx : Keep s0 x) => ?_) ?_); (on_goal 1 => try clear_value x); (on_goal 2 => (unfold x; clear x))) | (extract_lets -underBinder +onlyGivenNames x; try clear_value x) | split)

theorem execArpFrame_keep {s0 s : State} (h : Keep s0 s) (port : Nat) : ∃ t1, (execArpFrame port s) = .next t1 ∧ Keep s0 t1 := by
  unfold execArpFrame
  refine ⟨_, rfl, ?_⟩
  repeat' (with_reducible first | assumption | exact Keep.refl _ | apply State.settle_keep | apply State.arpFrame_keep)

theorem State.neighbourFrame_keep {s0 s : State} (h : Keep s0 s) (p : Nat) : Keep s0 (State.neighbourFrame s p) := by
  unfold State.neighbourFrame
  repeat' (with_reducible first | assumption | exact Keep.refl _ | apply State.consumeRx_keep | apply State.popRx_keep | apply State.defend_keep | apply State.replyTo_keep | fail_if_no_progress (refine Keep.mk' ?_ rfl) | refine KeepO2.get ?_ (by assumption) | (extract_lets -underBinder +onlyGivenNames x; (refine (fun (hx : Keep s0 x) => ?_) ?_); (on_goal 1 => try clear_value x); (on_goal 2 => (unfold x; clear x))) | (extract_lets -underBinder +onlyGivenNames x; try clear_value x) | split)

theorem execNeighbourFrame_keep {s0 s : State} (h : Keep s0 s) (port : Nat) : ∃ t1, (execNeighbourFrame port s) = .next t1 ∧ Keep s0 t1 := by
  unfold execNeighbourFrame
  refine ⟨_, rfl, ?_⟩
  repeat' (with_reducible first | assumption | exact Keep.refl _ | apply State.settle_keep | apply State.neighbourFrame_keep)

theorem State.announceNext_keep {s0 s : State} (h : Keep s0 s) (p : Nat) (a : IpAddr) : Keep s0 (State.announceNext s p a) := by
  unfold State.announceNext
  repeat' (with_reducible first | assumption | exact Keep.refl _ | apply State.upTo_keep | apply State.modPort_keep | apply State.sendAnnounce_keep | apply Keep.foldl | apply Keep.foldl_fst | apply Keep.foldl_snd | intro _ | fail_if_no_progress (refine Keep.mk' ?_ rfl) | (extract_lets -underBinder +onlyGivenNames x; (refine (fun (hx : Keep s0 x) => ?_) ?_); (on_goal 1 => try clear_value x); (on_goal 2 => (unfold x; clear x))) | (extract_lets -underBinder +onlyGivenNames x; have hf := fun z => x z) | (extract_lets -underBinder +onlyGivenNames x; try clear_value x) | split)

theorem execAnnounce_keep {s0 s : State} (h : Keep s0 s) (port : Nat) (addr : IpAddr) : ∃ t1, (execAnnounce port addr s) = .next t1 ∧ Keep s0 t1 := by
  unfold execAnnounce
  refine ⟨_, rfl, ?_⟩
  repeat' (with_reducible first | assumption | exact Keep.refl _ | apply State.announceNext_keep)

theorem State.ptpFrame_keep {s0 s : State} (h : Keep s0 s) (p : Nat) : Keep s0 (State.ptpFrame s p) := by
  unfold State.ptpFrame
  repeat' (with_reducible first | assumption | exact Keep.refl _ | apply State.modPort_keep | apply State.consumeRx_keep | apply State.popRx_keep | fail_if_no_progress (refine Keep.mk' ?_ rfl) | refine KeepO2.get ?_ (by assumption) | (extract_lets -underBinder +onlyGivenNames x; (refine (fun (hx : Keep s0 x) => ?_) ?_); (on_goal 1 => try clear_value x); (on_goal 2 => (unfold x; clear x))) | (extract_lets -underBinder +onlyGivenNames x; try clear_value x) | split)

theorem execPtpFrame_keep {s0 s : State} (h : Keep s0 s) (port : Nat) : ∃ t1, (execPtpFrame port s) = .next t1 ∧ Keep s0 t1 := by
  unfold execPtpFrame
  refine ⟨_, rfl, ?_⟩
  repeat' (with_reducible first | assumption | exact Keep.refl _ | apply State.settle_keep | apply State.ptpFrame_keep)

theorem State.cnpFor_keep {s0 s : State} (h : Keep s0 s) (p : Nat) (f : Frame) (k : Packet) : Keep s0 (State.cnpFor s p f k) := by
  unfold State.cnpFor
  repeat' (with_reducible first | assumption | exact Keep.refl _ | apply State.queueTx_keep | apply State.rdxCount_keep | apply State.modQp_keep | fail_if_no_progress (refine Keep.mk' ?_ rfl) | (extract_lets -underBinder +onlyGivenNames x; (refine (fun (hx : Keep s0 x) => ?_) ?_); (on_goal 1 => try clear_value x); (on_goal 2 => (unfold x; clear x))) | (extract_lets -underBinder +onlyGivenNames x; try clear_value x) | split)

theorem State.takeRx_keep {s0 s : State} (h : Keep s0 s) (p : Nat) (f : Frame) (prio cells : Nat) (head : Bool) : Keep s0 (State.takeRx s p f prio cells head) := by
  unfold State.takeRx
  repeat' (with_reducible first | assumption | exact Keep.refl _ | apply State.modPort_keep | fail_if_no_progress (refine Keep.mk' ?_ rfl) | (extract_lets -underBinder +onlyGivenNames x; (refine (fun (hx : Keep s0 x) => ?_) ?_); (on_goal 1 => try clear_value x); (on_goal 2 => (unfold x; clear x))) | (extract_lets -underBinder +onlyGivenNames x; try clear_value x))

theorem State.frameReceived_keep {s0 s : State} (h : Keep s0 s) (p : Nat) (f : Frame) : Keep s0 (State.frameReceived s p f) := by
  unfold State.frameReceived
  repeat' (with_reducible first | assumption | exact Keep.refl _ | apply State.askIn_keep | apply State.idle_keep | apply State.hptCount_keep | apply State.addLink_keep | apply State.admitFrame_keep | apply State.rdxCount_keep | apply State.cnpFor_keep | apply State.takeRx_keep | fail_if_no_progress (refine Keep.mk' ?_ rfl) | refine Keep.of_fst (by assumption) ?_ | (extract_lets -underBinder +onlyGivenNames x; (refine (fun (hx : Keep s0 x) => ?_) ?_); (on_goal 1 => try clear_value x); (on_goal 2 => (unfold x; clear x))) | (extract_lets -underBinder +onlyGivenNames x; (refine (fun (hx : Keep s0 x.1) => ?_) ?_); (on_goal 1 => try clear_value x); (on_goal 2 => (unfold x; clear x))) | (extract_lets -underBinder +onlyGivenNames x; try clear_value x) | split)

theorem execFrameReceived_keep {s0 s : State} (h : Keep s0 s) (port : Nat) (frame : Frame) : ∃ t1, (execFrameReceived port frame s) = .next t1 ∧ Keep s0 t1 := by
  unfold execFrameReceived
  refine ⟨_, rfl, ?_⟩
  repeat' (with_reducible first | assumption | exact Keep.refl _ | apply State.frameReceived_keep)

theorem State.notifyLeft_keep {s0 s : State} (h : Keep s0 s) (qpn psn : Nat) : Keep s0 (State.notifyLeft s qpn psn) := by
  unfold State.notifyLeft
  repeat' (with_reducible first | assumption | exact Keep.refl _ | apply State.chainStepDone_keep | apply Keep.foldl | apply Keep.foldl_fst | apply Keep.foldl_snd | intro _ | split)

theorem State.frameTxEnd_keep {s0 s : State} (h : Keep s0 s) (p : Nat) (gatherBad : Bool) (draw : Nat) : Keep s0 (State.frameTxEnd s p gatherBad draw) := by
  unfold State.frameTxEnd
  repeat' (with_reducible first | assumption | exact Keep.refl _ | apply State.emit_keep | apply State.raiseIf_keep | apply State.pmuCount_keep | apply State.askWay_keep | apply State.askIn_keep | apply State.modPort_keep | apply State.hptCount_keep | apply State.freeTx_keep | apply State.afterFree_keep | apply State.kickTx_keep | apply State.notifyLeft_keep | apply Keep.foldl | intro _ | fail_if_no_progress (refine Keep.mk' ?_ rfl) | (extract_lets -underBinder +onlyGivenNames x; (refine (fun (hx : Keep s0 x) => ?_) ?_); (on_goal 1 => try clear_value x); (on_goal 2 => (unfold x; clear x))) | (extract_lets -underBinder +onlyGivenNames x; try clear_value x) | split)

theorem execFrameTxEnd_keep {s0 s : State} (h : Keep s0 s) (port : Nat) (gatherBad : Bool) (ecnDraw : Nat) : ∃ t1, (execFrameTxEnd port gatherBad ecnDraw s) = .next t1 ∧ Keep s0 t1 := by
  unfold execFrameTxEnd
  refine ⟨_, rfl, ?_⟩
  repeat' (with_reducible first | assumption | exact Keep.refl _ | apply State.settle_keep | apply State.frameTxEnd_keep)

end Sys2Proof.Machine
end

