-- ==== Sys2Proof/Laws/KeepReqOps.lean ====
section
/-! SUPPORT. What the operations of Machine/ReqOps.lean keep (Keep). -/

set_option linter.unreachableTactic false
set_option linter.unusedTactic false
set_option linter.unusedVariables false

namespace Sys2Proof.Machine

theorem State.removeRx_keep {s0 s : State} (h : Keep s0 s) (p : Nat) (f : RxFrame) : Keep s0 (State.removeRx s p f) := by
  unfold State.removeRx
  repeat' (with_reducible first | assumption | exact Keep.refl _ | apply State.modPort_keep | fail_if_no_progress (refine Keep.mk' ?_ rfl) | (extract_lets -underBinder +onlyGivenNames x; (refine (fun (hx : Keep s0 x) => ?_) ?_); (on_goal 1 => try clear_value x); (on_goal 2 => (unfold x; clear x))) | (extract_lets -underBinder +onlyGivenNames x; try clear_value x))

theorem State.doneRx_keep {s0 s : State} (h : Keep s0 s) (p : Nat) (f : RxFrame) : Keep s0 (State.doneRx s p f) := by
  unfold State.doneRx
  repeat' (with_reducible first | assumption | exact Keep.refl _ | apply State.consumeRx_keep | apply State.removeRx_keep)

theorem State.discardRx_keep {s0 s : State} (h : Keep s0 s) (n : Nat) : Keep s0 (State.discardRx s n) := by
  unfold State.discardRx
  repeat' (with_reducible first | assumption | exact Keep.refl _ | apply State.ctxHold_keep | apply State.doneRx_keep | apply Keep.foldl | apply Keep.foldl_fst | apply Keep.foldl_snd | intro _)

theorem State.nakReq_keep {s0 s : State} (h : Keep s0 s) (p : Nat) (f : RxFrame) (k : Packet) (syn : Nat) : Keep s0 (State.nakReq s p f k syn) := by
  unfold State.nakReq
  repeat' (with_reducible first | assumption | exact Keep.refl _ | apply State.placed_keep | apply State.addOp_keep | fail_if_no_progress (refine Keep.mk' ?_ rfl) | (extract_lets -underBinder +onlyGivenNames x; (refine (fun (hx : Keep s0 x) => ?_) ?_); (on_goal 1 => try clear_value x); (on_goal 2 => (unfold x; clear x))) | (extract_lets -underBinder +onlyGivenNames x; try clear_value x))

theorem State.invalidReq_keep {s0 s : State} (h : Keep s0 s) (p : Nat) (f : RxFrame) (k : Packet) : Keep s0 (State.invalidReq s p f k) := by
  unfold State.invalidReq
  repeat' (with_reducible first | assumption | exact Keep.refl _ | apply State.nakReq_keep)

theorem State.accessNak_keep {s0 s : State} (h : Keep s0 s) (p : Nat) (f : RxFrame) (k : Packet) (cause key : Nat) : Keep s0 (State.accessNak s p f k cause key) := by
  unfold State.accessNak
  repeat' (with_reducible first | assumption | exact Keep.refl _ | apply State.pmuCount_keep | apply State.keyFail_keep | apply State.nakReq_keep)

theorem State.rnrReq_keep {s0 s : State} (h : Keep s0 s) (p : Nat) (f : RxFrame) (k : Packet) (c : Rnr) : Keep s0 (State.rnrReq s p f k c) := by
  unfold State.rnrReq
  repeat' (with_reducible first | assumption | exact Keep.refl _ | apply State.smpDiscard_keep | apply State.rnrCount_keep | apply State.modQp_keep | apply State.discardRx_keep | apply State.nakReq_keep | fail_if_no_progress (refine Keep.mk' ?_ rfl) | (extract_lets -underBinder +onlyGivenNames x; (refine (fun (hx : Keep s0 x) => ?_) ?_); (on_goal 1 => try clear_value x); (on_goal 2 => (unfold x; clear x))) | (extract_lets -underBinder +onlyGivenNames x; try clear_value x))

theorem State.aheadReq_keep {s0 s : State} (h : Keep s0 s) (p : Nat) (f : RxFrame) (k : Packet) : Keep s0 (State.aheadReq s p f k) := by
  unfold State.aheadReq
  repeat' (with_reducible first | assumption | exact Keep.refl _ | apply State.placed_keep | apply State.consumeRx_keep | apply State.rdxCount_keep | apply State.modQp_keep | apply State.addOp_keep | fail_if_no_progress (refine Keep.mk' ?_ rfl) | (extract_lets -underBinder +onlyGivenNames x; (refine (fun (hx : Keep s0 x) => ?_) ?_); (on_goal 1 => try clear_value x); (on_goal 2 => (unfold x; clear x))) | (extract_lets -underBinder +onlyGivenNames x; try clear_value x) | split)

theorem State.takePsn_keep {s0 s : State} (h : Keep s0 s) (n by_ : Nat) : Keep s0 (State.takePsn s n by_) := by
  unfold State.takePsn
  repeat' (with_reducible first | assumption | exact Keep.refl _ | apply State.modQp_keep | apply State.setQf_keep | fail_if_no_progress (refine Keep.mk' ?_ rfl) | (extract_lets -underBinder +onlyGivenNames x; (refine (fun (hx : Keep s0 x) => ?_) ?_); (on_goal 1 => try clear_value x); (on_goal 2 => (unfold x; clear x))) | (extract_lets -underBinder +onlyGivenNames x; try clear_value x))

theorem State.addPieces_keep {s0 s : State} (h : Keep s0 s) (o : Op) (pool len : Nat) (data : List Byte) : Keep s0 (State.addPieces s o pool len data) := by
  unfold State.addPieces
  repeat' (with_reducible first | assumption | exact Keep.refl _ | apply State.addOp_keep | apply Keep.foldl | apply Keep.foldl_fst | apply Keep.foldl_snd | intro _ | fail_if_no_progress (refine Keep.mk' ?_ rfl) | (extract_lets -underBinder +onlyGivenNames x; (refine (fun (hx : Keep s0 x) => ?_) ?_); (on_goal 1 => try clear_value x); (on_goal 2 => (unfold x; clear x))) | (extract_lets -underBinder +onlyGivenNames x; try clear_value x) | split)

theorem State.msgBegins_keep {s0 s : State} (h : Keep s0 s) (p : Nat) (f : RxFrame) (k : Packet) (ev cls len : Nat) (pool : Option Nat) : Keep s0 (State.msgBegins s p f k ev cls len pool) := by
  unfold State.msgBegins
  repeat' (with_reducible first | assumption | exact Keep.refl _ | apply State.pmuCount_keep | apply State.smpStart_keep | (extract_lets -underBinder +onlyGivenNames x; (refine (fun (hx : Keep s0 x) => ?_) ?_); (on_goal 1 => try clear_value x); (on_goal 2 => (unfold x; clear x))) | (extract_lets -underBinder +onlyGivenNames x; have hd : x.dram = x.dram := rfl) | (extract_lets -underBinder +onlyGivenNames x; try clear_value x) | split)

theorem State.rxPayload_keep {s0 s : State} (h : Keep s0 s) (p : Nat) (k : Packet) : Keep s0 (State.rxPayload s p k) := by
  unfold State.rxPayload
  repeat' (with_reducible first | assumption | exact Keep.refl _ | apply State.pmuCount_keep | split)

theorem State.countReq_keep {s0 s : State} (h : Keep s0 s) (p n : Nat) : Keep s0 (State.countReq s p n) := by
  unfold State.countReq
  repeat' (with_reducible first | assumption | exact Keep.refl _ | apply State.rdxCount_keep | apply State.setQf_keep | (extract_lets -underBinder +onlyGivenNames x; (refine (fun (hx : Keep s0 x) => ?_) ?_); (on_goal 1 => try clear_value x); (on_goal 2 => (unfold x; clear x))) | (extract_lets -underBinder +onlyGivenNames x; try clear_value x) | split)

theorem State.request_keep {s0 s : State} (h : Keep s0 s) (p : Nat) (ok : Nat → Bool) (dup new_ : State → Nat → RxFrame → Packet → State) (hdup : ∀ x0 x1 x2 x3, Keep s0 x0 → Keep s0 (dup x0 x1 x2 x3)) (hnew_ : ∀ x0 x1 x2 x3, Keep s0 x0 → Keep s0 (new_ x0 x1 x2 x3)) : Keep s0 (State.request s p ok dup new_) := by
  unfold State.request
  repeat' (with_reducible first | assumption | apply hdup | apply hnew_ | exact Keep.refl _ | apply State.keysReady_keep | apply State.rdxCount_keep | apply State.setQf_keep | apply State.ctxUse_keep | apply State.ctxHold_keep | apply State.removeRx_keep | apply State.doneRx_keep | apply State.aheadReq_keep | apply State.countReq_keep | fail_if_no_progress (refine Keep.mk' ?_ rfl) | refine Keep.of_snd (by assumption) ?_ | (extract_lets -underBinder +onlyGivenNames x; (refine (fun (hx : Keep s0 x) => ?_) ?_); (on_goal 1 => try clear_value x); (on_goal 2 => (unfold x; clear x))) | (extract_lets -underBinder +onlyGivenNames x; (refine (fun (hx : Keep s0 x.2) => ?_) ?_); (on_goal 1 => try clear_value x); (on_goal 2 => (unfold x; clear x))) | (extract_lets -underBinder +onlyGivenNames x; try clear_value x) | split)

theorem State.beginReq_keep {s0 s : State} (h : Keep s0 s) (p : Nat) (f : RxFrame) (k : Packet) : Keep s0 (State.beginReq s p f k) := by
  unfold State.beginReq
  repeat' (with_reducible first | assumption | exact Keep.refl _ | apply State.modQp_keep | apply State.removeRx_keep | apply State.rxPayload_keep | apply State.countReq_keep | fail_if_no_progress (refine Keep.mk' ?_ rfl) | (extract_lets -underBinder +onlyGivenNames x; (refine (fun (hx : Keep s0 x) => ?_) ?_); (on_goal 1 => try clear_value x); (on_goal 2 => (unfold x; clear x))) | (extract_lets -underBinder +onlyGivenNames x; try clear_value x))

theorem State.dupWrite_keep {s0 s : State} (h : Keep s0 s) (p : Nat) (f : RxFrame) (k : Packet) : Keep s0 (State.dupWrite s p f k) := by
  unfold State.dupWrite
  repeat' (with_reducible first | assumption | exact Keep.refl _ | apply State.queueTx_keep | apply State.consumeRx_keep | apply State.rdxCount_keep | fail_if_no_progress (refine Keep.mk' ?_ rfl) | (extract_lets -underBinder +onlyGivenNames x; (refine (fun (hx : Keep s0 x) => ?_) ?_); (on_goal 1 => try clear_value x); (on_goal 2 => (unfold x; clear x))) | exact KeepO.get (by assumption) rfl | exact KeepO.none | apply KeepO.some | (apply KeepO.map; intro _) | (extract_lets -underBinder +onlyGivenNames x; (refine (fun (hx : KeepO s0 x) => ?_) ?_); (on_goal 1 => try clear_value x); (on_goal 2 => (unfold x; clear x))) | (extract_lets -underBinder +onlyGivenNames x; try clear_value x) | split)

theorem State.cancelReads_keep {s0 s : State} (h : Keep s0 s) (n psn : Nat) : Keep s0 (State.cancelReads s n psn) := by
  unfold State.cancelReads
  repeat' (with_reducible first | assumption | exact Keep.refl _ | apply State.modPort_keep | apply State.freeTx_keep | apply State.freeRx_keep | apply State.afterFree_keep | apply State.setQf_keep | apply State.dropOps_keep | apply Keep.foldl | apply Keep.foldl_fst | apply Keep.foldl_snd | intro _ | fail_if_no_progress (refine Keep.mk' ?_ rfl) | (extract_lets -underBinder +onlyGivenNames x; (refine (fun (hx : Keep s0 x) => ?_) ?_); (on_goal 1 => try clear_value x); (on_goal 2 => (unfold x; clear x))) | (extract_lets -underBinder +onlyGivenNames x; have hf := fun z => x z) | (extract_lets -underBinder +onlyGivenNames x; try clear_value x) | split)

theorem State.addRead_keep {s0 s : State} (h : Keep s0 s) (o : Op) (pool len : Nat) (ends : Nat → Bool) : Keep s0 (State.addRead s o pool len ends) := by
  unfold State.addRead
  repeat' (with_reducible first | assumption | exact Keep.refl _ | apply State.addPieces_keep | apply Keep.foldl | apply Keep.foldl_fst | apply Keep.foldl_snd | intro _ | fail_if_no_progress (refine Keep.mk' ?_ rfl) | (extract_lets -underBinder +onlyGivenNames x; (refine (fun (hx : Keep s0 x) => ?_) ?_); (on_goal 1 => try clear_value x); (on_goal 2 => (unfold x; clear x))) | (extract_lets -underBinder +onlyGivenNames x; try clear_value x) | split)

theorem State.toPlace_keep {s0 s : State} (h : Keep s0 s) (n from_ psn : Nat) : Keep s0 (State.toPlace s n from_ psn) := by
  unfold State.toPlace
  repeat' (with_reducible first | assumption | exact Keep.refl _ | fail_if_no_progress (refine Keep.mk' ?_ rfl) | (extract_lets -underBinder +onlyGivenNames x; (refine (fun (hx : Keep s0 x) => ?_) ?_); (on_goal 1 => try clear_value x); (on_goal 2 => (unfold x; clear x))) | (extract_lets -underBinder +onlyGivenNames x; have hf := fun z => x z) | (extract_lets -underBinder +onlyGivenNames x; try clear_value x))

theorem State.dupRead_keep {s0 s : State} (h : Keep s0 s) (p : Nat) (f : RxFrame) (k : Packet) : Keep s0 (State.dupRead s p f k) := by
  unfold State.dupRead
  repeat' (with_reducible first | assumption | exact Keep.refl _ | apply State.takeHold_keep | apply State.setQf_keep | apply State.invalidReq_keep | apply State.accessNak_keep | apply State.cancelReads_keep | apply State.addRead_keep | apply State.toPlace_keep | fail_if_no_progress (refine Keep.mk' ?_ rfl) | refine Keep.of_fst (by assumption) ?_ | (extract_lets -underBinder +onlyGivenNames x; (refine (fun (hx : Keep s0 x) => ?_) ?_); (on_goal 1 => try clear_value x); (on_goal 2 => (unfold x; clear x))) | (extract_lets -underBinder +onlyGivenNames x; (refine (fun (hx : Keep s0 x.1) => ?_) ?_); (on_goal 1 => try clear_value x); (on_goal 2 => (unfold x; clear x))) | (extract_lets -underBinder +onlyGivenNames x; have hf := fun z => x z) | (extract_lets -underBinder +onlyGivenNames x; try clear_value x) | split)

theorem State.dupAtomic_keep {s0 s : State} (h : Keep s0 s) (p : Nat) (f : RxFrame) (k : Packet) : Keep s0 (State.dupAtomic s p f k) := by
  unfold State.dupAtomic
  repeat' (with_reducible first | assumption | exact Keep.refl _ | apply State.queueTx_keep | apply State.consumeRx_keep | apply State.rdxCount_keep | fail_if_no_progress (refine Keep.mk' ?_ rfl) | (extract_lets -underBinder +onlyGivenNames x; (refine (fun (hx : Keep s0 x) => ?_) ?_); (on_goal 1 => try clear_value x); (on_goal 2 => (unfold x; clear x))) | exact KeepO.get (by assumption) rfl | exact KeepO.none | apply KeepO.some | (apply KeepO.map; intro _) | (extract_lets -underBinder +onlyGivenNames x; (refine (fun (hx : KeepO s0 x) => ?_) ?_); (on_goal 1 => try clear_value x); (on_goal 2 => (unfold x; clear x))) | (extract_lets -underBinder +onlyGivenNames x; try clear_value x) | split)

end Sys2Proof.Machine
end

