-- ==== Sys2Proof/Laws/KeepRequests.lean ====
section
/-! SUPPORT. What the operations of Machine/Requests.lean keep (Keep). -/

set_option linter.unreachableTactic false
set_option linter.unusedTactic false
set_option linter.unusedVariables false

namespace Sys2Proof.Machine

theorem State.readGoes_keep {s0 s : State} (h : Keep s0 s) (p : Nat) (f : RxFrame) (k : Packet) (o : Op) (cls pool : Nat) : Keep s0 (State.readGoes s p f k o cls pool) := by
  unfold State.readGoes
  repeat' (with_reducible first | assumption | exact Keep.refl _ | apply State.setQf_keep | apply State.stageQp_keep | apply State.takePsn_keep | apply State.msgBegins_keep | apply State.addRead_keep | (extract_lets -underBinder +onlyGivenNames x; (refine (fun (hx : Keep s0 x) => ?_) ?_); (on_goal 1 => try clear_value x); (on_goal 2 => (unfold x; clear x))) | (extract_lets -underBinder +onlyGivenNames x; try clear_value x) | split)

theorem State.newRead_keep {s0 s : State} (h : Keep s0 s) (p : Nat) (f : RxFrame) (k : Packet) : Keep s0 (State.newRead s p f k) := by
  unfold State.newRead
  repeat' (with_reducible first | assumption | exact Keep.refl _ | apply State.takeHold_keep | apply State.invalidReq_keep | apply State.accessNak_keep | apply State.rnrReq_keep | apply State.beginReq_keep | apply State.readGoes_keep | fail_if_no_progress (refine Keep.mk' ?_ rfl) | refine Keep.of_fst (by assumption) ?_ | (extract_lets -underBinder +onlyGivenNames x; (refine (fun (hx : Keep s0 x) => ?_) ?_); (on_goal 1 => try clear_value x); (on_goal 2 => (unfold x; clear x))) | (extract_lets -underBinder +onlyGivenNames x; (refine (fun (hx : Keep s0 x.1) => ?_) ?_); (on_goal 1 => try clear_value x); (on_goal 2 => (unfold x; clear x))) | (extract_lets -underBinder +onlyGivenNames x; try clear_value x) | split)

theorem State.newAtomic_keep {s0 s : State} (h : Keep s0 s) (p : Nat) (f : RxFrame) (k : Packet) (kind : OpKind) (ev : Nat) : Keep s0 (State.newAtomic s p f k kind ev) := by
  unfold State.newAtomic
  repeat' (with_reducible first | assumption | exact Keep.refl _ | apply State.takeHold_keep | apply State.reserveAt_keep | apply State.modQp_keep | apply State.setQf_keep | apply State.stageQp_keep | apply State.addOp_keep | apply State.invalidReq_keep | apply State.accessNak_keep | apply State.rnrReq_keep | apply State.takePsn_keep | apply State.msgBegins_keep | apply State.beginReq_keep | fail_if_no_progress (refine Keep.mk' ?_ rfl) | refine Keep.of_fst (by assumption) ?_ | (extract_lets -underBinder +onlyGivenNames x; (refine (fun (hx : Keep s0 x) => ?_) ?_); (on_goal 1 => try clear_value x); (on_goal 2 => (unfold x; clear x))) | (extract_lets -underBinder +onlyGivenNames x; (refine (fun (hx : Keep s0 x.1) => ?_) ?_); (on_goal 1 => try clear_value x); (on_goal 2 => (unfold x; clear x))) | (extract_lets -underBinder +onlyGivenNames x; try clear_value x) | split)

theorem State.newFlush_keep {s0 s : State} (h : Keep s0 s) (p : Nat) (f : RxFrame) (k : Packet) : Keep s0 (State.newFlush s p f k) := by
  unfold State.newFlush
  repeat' (with_reducible first | assumption | exact Keep.refl _ | apply State.stageQp_keep | apply State.addOp_keep | apply State.invalidReq_keep | apply State.accessNak_keep | apply State.takePsn_keep | apply State.msgBegins_keep | apply State.beginReq_keep | fail_if_no_progress (refine Keep.mk' ?_ rfl) | (extract_lets -underBinder +onlyGivenNames x; (refine (fun (hx : Keep s0 x) => ?_) ?_); (on_goal 1 => try clear_value x); (on_goal 2 => (unfold x; clear x))) | (extract_lets -underBinder +onlyGivenNames x; try clear_value x) | split)

theorem State.ringAsk_keep {s0 s : State} (h : Keep s0 s) (n : Nat) : Keep s0 (State.ringAsk s n).2 := by
  unfold State.ringAsk
  repeat' (with_reducible first | assumption | exact Keep.refl _ | apply State.modQp_keep | apply State.addOp_keep | fail_if_no_progress (refine Keep.mk' ?_ rfl) | (extract_lets -underBinder +onlyGivenNames x; (refine (fun (hx : Keep s0 x) => ?_) ?_); (on_goal 1 => try clear_value x); (on_goal 2 => (unfold x; clear x))) | (extract_lets -underBinder +onlyGivenNames x; (refine (fun (hx : Keep s0 x.2) => ?_) ?_); (on_goal 1 => try clear_value x); (on_goal 2 => (unfold x; clear x))) | (extract_lets -underBinder +onlyGivenNames x; try clear_value x) | split)

theorem State.ringUsed_keep {s0 s : State} (h : Keep s0 s) (n : Nat) : Keep s0 (State.ringUsed s n) := by
  unfold State.ringUsed
  repeat' (with_reducible first | assumption | exact Keep.refl _ | apply State.modQp_keep | fail_if_no_progress (refine Keep.mk' ?_ rfl) | (extract_lets -underBinder +onlyGivenNames x; (refine (fun (hx : Keep s0 x) => ?_) ?_); (on_goal 1 => try clear_value x); (on_goal 2 => (unfold x; clear x))) | (extract_lets -underBinder +onlyGivenNames x; try clear_value x))

theorem State.addHeader_keep {s0 s : State} (h : Keep s0 s) (o : Op) (slot cls len imm prod : Nat) (immValid fromWrite : Bool) (shared : List Byte) : Keep s0 (State.addHeader s o slot cls len imm prod immValid fromWrite shared) := by
  unfold State.addHeader
  repeat' (with_reducible first | assumption | exact Keep.refl _ | apply State.addOp_keep | fail_if_no_progress (refine Keep.mk' ?_ rfl) | (extract_lets -underBinder +onlyGivenNames x; (refine (fun (hx : Keep s0 x) => ?_) ?_); (on_goal 1 => try clear_value x); (on_goal 2 => (unfold x; clear x))) | (extract_lets -underBinder +onlyGivenNames x; try clear_value x))

theorem State.ringFirst_keep {s0 s : State} (h : Keep s0 s) (p : Nat) (f : RxFrame) (k : Packet) : Keep s0 (State.ringFirst s p f k) := by
  unfold State.ringFirst
  repeat' (with_reducible first | assumption | exact Keep.refl _ | apply State.takeHold_keep | apply State.reserve_keep | apply State.modQp_keep | apply State.stageQp_keep | apply State.invalidReq_keep | apply State.accessNak_keep | apply State.rnrReq_keep | apply State.takePsn_keep | apply State.addPieces_keep | apply State.msgBegins_keep | apply State.beginReq_keep | apply State.ringAsk_keep | apply State.ringUsed_keep | apply State.addHeader_keep | fail_if_no_progress (refine Keep.mk' ?_ rfl) | refine Keep.of_fst (by assumption) ?_ | refine Keep.of_snd (by assumption) ?_ | (extract_lets -underBinder +onlyGivenNames x; (refine (fun (hx : Keep s0 x) => ?_) ?_); (on_goal 1 => try clear_value x); (on_goal 2 => (unfold x; clear x))) | (extract_lets -underBinder +onlyGivenNames x; (refine (fun (hx : Keep s0 x.1) => ?_) ?_); (on_goal 1 => try clear_value x); (on_goal 2 => (unfold x; clear x))) | (extract_lets -underBinder +onlyGivenNames x; (refine (fun (hx : Keep s0 x.2) => ?_) ?_); (on_goal 1 => try clear_value x); (on_goal 2 => (unfold x; clear x))) | (extract_lets -underBinder +onlyGivenNames x; try clear_value x) | split)

theorem State.ringNext_keep {s0 s : State} (h : Keep s0 s) (p : Nat) (f : RxFrame) (k : Packet) (m : Msg) : Keep s0 (State.ringNext s p f k m) := by
  unfold State.ringNext
  repeat' (with_reducible first | assumption | exact Keep.refl _ | apply State.smpMod_keep | apply State.reserve_keep | apply State.unreserveRange_keep | apply State.modQp_keep | apply State.stageQp_keep | apply State.invalidReq_keep | apply State.takePsn_keep | apply State.addPieces_keep | apply State.beginReq_keep | apply State.addHeader_keep | fail_if_no_progress (refine Keep.mk' ?_ rfl) | (extract_lets -underBinder +onlyGivenNames x; (refine (fun (hx : Keep s0 x) => ?_) ?_); (on_goal 1 => try clear_value x); (on_goal 2 => (unfold x; clear x))) | (extract_lets -underBinder +onlyGivenNames x; try clear_value x) | split)

theorem State.armPacket_keep {s0 s : State} (h : Keep s0 s) (p : Nat) (f : RxFrame) (k : Packet) (i : Nat) (fin : Bool) : Keep s0 (State.armPacket s p f k i fin) := by
  unfold State.armPacket
  repeat' (with_reducible first | assumption | exact Keep.refl _ | apply State.placed_keep | apply State.addOp_keep | apply State.setRun_keep | fail_if_no_progress (refine Keep.mk' ?_ rfl) | (extract_lets -underBinder +onlyGivenNames x; (refine (fun (hx : Keep s0 x) => ?_) ?_); (on_goal 1 => try clear_value x); (on_goal 2 => (unfold x; clear x))) | (extract_lets -underBinder +onlyGivenNames x; try clear_value x) | split)

theorem State.armLate_keep {s0 s : State} (h : Keep s0 s) (p : Nat) (f : RxFrame) (k : Packet) (i : Nat) (fin ackDone : Bool) : Keep s0 (State.armLate s p f k i fin ackDone) := by
  unfold State.armLate
  repeat' (with_reducible first | assumption | exact Keep.refl _ | apply State.placed_keep | apply State.freeRx_keep | apply State.afterFree_keep | apply State.addOp_keep | fail_if_no_progress (refine Keep.mk' ?_ rfl) | (extract_lets -underBinder +onlyGivenNames x; (refine (fun (hx : Keep s0 x) => ?_) ?_); (on_goal 1 => try clear_value x); (on_goal 2 => (unfold x; clear x))) | (extract_lets -underBinder +onlyGivenNames x; try clear_value x) | split)

theorem State.stageData_keep {s0 s : State} (h : Keep s0 s) (i off : Nat) (d : List Byte) : Keep s0 (State.stageData s i off d) := by
  unfold State.stageData
  repeat' (with_reducible first | assumption | exact Keep.refl _ | apply State.stage_keep | apply State.stageChain_keep | (extract_lets -underBinder +onlyGivenNames x; (refine (fun (hx : Keep s0 x) => ?_) ?_); (on_goal 1 => try clear_value x); (on_goal 2 => (unfold x; clear x))) | (extract_lets -underBinder +onlyGivenNames x; try clear_value x) | split)

theorem State.armFirst_keep {s0 s : State} (h : Keep s0 s) (p : Nat) (f : RxFrame) (k : Packet) : Keep s0 (State.armFirst s p f k) := by
  unfold State.armFirst
  repeat' (with_reducible first | assumption | exact Keep.refl _ | apply State.wr_keep | apply State.satInc_keep | apply State.addWused_keep | apply State.reserve_keep | apply State.modQp_keep | apply State.stageQp_keep | apply State.setCf_keep | apply State.setRun_keep | apply State.invalidReq_keep | apply State.rnrReq_keep | apply State.takePsn_keep | apply State.msgBegins_keep | apply State.beginReq_keep | apply State.armPacket_keep | apply State.stageData_keep | fail_if_no_progress (refine Keep.mk' ?_ rfl) | (extract_lets -underBinder +onlyGivenNames x; (refine (fun (hx : Keep s0 x) => ?_) ?_); (on_goal 1 => try clear_value x); (on_goal 2 => (unfold x; clear x))) | (extract_lets -underBinder +onlyGivenNames x; have hf := fun z => x z) | (extract_lets -underBinder +onlyGivenNames x; try clear_value x) | split)

theorem State.armNext_keep {s0 s : State} (h : Keep s0 s) (p : Nat) (f : RxFrame) (k : Packet) (m : Msg) : Keep s0 (State.armNext s p f k m) := by
  unfold State.armNext
  repeat' (with_reducible first | assumption | exact Keep.refl _ | apply State.smpMod_keep | apply State.modQp_keep | apply State.stageQp_keep | apply State.setCf_keep | apply State.setRun_keep | apply State.invalidReq_keep | apply State.takePsn_keep | apply State.beginReq_keep | apply State.armPacket_keep | apply State.armLate_keep | apply State.stageData_keep | fail_if_no_progress (refine Keep.mk' ?_ rfl) | (extract_lets -underBinder +onlyGivenNames x; (refine (fun (hx : Keep s0 x) => ?_) ?_); (on_goal 1 => try clear_value x); (on_goal 2 => (unfold x; clear x))) | (extract_lets -underBinder +onlyGivenNames x; try clear_value x) | split)

theorem State.newSend_keep {s0 s : State} (h : Keep s0 s) (p : Nat) (f : RxFrame) (k : Packet) : Keep s0 (State.newSend s p f k) := by
  unfold State.newSend
  repeat' (with_reducible first | assumption | exact Keep.refl _ | apply State.invalidReq_keep | apply State.beginReq_keep | apply State.ringFirst_keep | apply State.ringNext_keep | apply State.armFirst_keep | apply State.armNext_keep | fail_if_no_progress (refine Keep.mk' ?_ rfl) | (extract_lets -underBinder +onlyGivenNames x; (refine (fun (hx : Keep s0 x) => ?_) ?_); (on_goal 1 => try clear_value x); (on_goal 2 => (unfold x; clear x))) | (extract_lets -underBinder +onlyGivenNames x; try clear_value x) | split)

theorem State.writePacket_keep {s0 s : State} (h : Keep s0 s) (p : Nat) (f : RxFrame) (k : Packet) (cls tenant pool : Nat) (stamp : Option Nat) (fin : Bool) (slot : Option (Nat × Nat)) : Keep s0 (State.writePacket s p f k cls tenant pool stamp fin slot) := by
  unfold State.writePacket
  repeat' (with_reducible first | assumption | exact Keep.refl _ | apply State.reserve_keep | apply State.modQp_keep | apply State.addPieces_keep | apply State.addHeader_keep | fail_if_no_progress (refine Keep.mk' ?_ rfl) | (extract_lets -underBinder +onlyGivenNames x; (refine (fun (hx : Keep s0 x) => ?_) ?_); (on_goal 1 => try clear_value x); (on_goal 2 => (unfold x; clear x))) | (extract_lets -underBinder +onlyGivenNames x; try clear_value x) | split)

theorem State.immSink_keep {s0 s : State} (h : Keep s0 s) (k : Packet) : Keep s0 (State.immSink s k).2 := by
  unfold State.immSink
  repeat' (with_reducible first | assumption | exact Keep.refl _ | apply State.ringAsk_keep | apply State.ringUsed_keep | fail_if_no_progress (refine Keep.mk' ?_ rfl) | refine Keep.of_snd (by assumption) ?_ | (extract_lets -underBinder +onlyGivenNames x; (refine (fun (hx : Keep s0 x) => ?_) ?_); (on_goal 1 => try clear_value x); (on_goal 2 => (unfold x; clear x))) | (extract_lets -underBinder +onlyGivenNames x; (refine (fun (hx : Keep s0 x.2) => ?_) ?_); (on_goal 1 => try clear_value x); (on_goal 2 => (unfold x; clear x))) | (extract_lets -underBinder +onlyGivenNames x; try clear_value x) | split)

theorem State.withSink_keep {s0 s : State} (h : Keep s0 s) (p : Nat) (f : RxFrame) (k : Packet) (go : State → Option (Nat × Nat) → State) (hgo : ∀ x0 x1, Keep s0 x0 → Keep s0 (go x0 x1)) : Keep s0 (State.withSink s p f k go) := by
  unfold State.withSink
  repeat' (with_reducible first | assumption | apply hgo | exact Keep.refl _ | apply State.invalidReq_keep | apply State.accessNak_keep | apply State.rnrReq_keep | apply State.beginReq_keep | apply State.ringUsed_keep | apply State.immSink_keep | fail_if_no_progress (refine Keep.mk' ?_ rfl) | refine Keep.of_snd (by assumption) ?_ | (extract_lets -underBinder +onlyGivenNames x; (refine (fun (hx : Keep s0 x) => ?_) ?_); (on_goal 1 => try clear_value x); (on_goal 2 => (unfold x; clear x))) | (extract_lets -underBinder +onlyGivenNames x; (refine (fun (hx : Keep s0 x.2) => ?_) ?_); (on_goal 1 => try clear_value x); (on_goal 2 => (unfold x; clear x))) | (extract_lets -underBinder +onlyGivenNames x; try clear_value x) | split)

theorem State.writeFirst_keep {s0 s : State} (h : Keep s0 s) (p : Nat) (f : RxFrame) (k : Packet) : Keep s0 (State.writeFirst s p f k) := by
  unfold State.writeFirst
  repeat' (with_reducible first | assumption | intro _ | exact Keep.refl _ | apply State.takeHold_keep | apply State.reserve_keep | apply State.modQp_keep | apply State.stageQp_keep | apply State.invalidReq_keep | apply State.accessNak_keep | apply State.rnrReq_keep | apply State.takePsn_keep | apply State.msgBegins_keep | apply State.beginReq_keep | apply State.writePacket_keep | apply State.withSink_keep | fail_if_no_progress (refine Keep.mk' ?_ rfl) | refine Keep.of_fst (by assumption) ?_ | (extract_lets -underBinder +onlyGivenNames x; (refine (fun (hx : Keep s0 x) => ?_) ?_); (on_goal 1 => try clear_value x); (on_goal 2 => (unfold x; clear x))) | (extract_lets -underBinder +onlyGivenNames x; (refine (fun (hx : Keep s0 x.1) => ?_) ?_); (on_goal 1 => try clear_value x); (on_goal 2 => (unfold x; clear x))) | (extract_lets -underBinder +onlyGivenNames x; try clear_value x) | split)

theorem State.writeNext_keep {s0 s : State} (h : Keep s0 s) (p : Nat) (f : RxFrame) (k : Packet) (m : Msg) : Keep s0 (State.writeNext s p f k m) := by
  unfold State.writeNext
  repeat' (with_reducible first | assumption | intro _ | exact Keep.refl _ | apply State.reserve_keep | apply State.modQp_keep | apply State.stageQp_keep | apply State.invalidReq_keep | apply State.takePsn_keep | apply State.beginReq_keep | apply State.writePacket_keep | apply State.withSink_keep | fail_if_no_progress (refine Keep.mk' ?_ rfl) | (extract_lets -underBinder +onlyGivenNames x; (refine (fun (hx : Keep s0 x) => ?_) ?_); (on_goal 1 => try clear_value x); (on_goal 2 => (unfold x; clear x))) | (extract_lets -underBinder +onlyGivenNames x; try clear_value x) | split)

theorem State.newWrite_keep {s0 s : State} (h : Keep s0 s) (p : Nat) (f : RxFrame) (k : Packet) : Keep s0 (State.newWrite s p f k) := by
  unfold State.newWrite
  repeat' (with_reducible first | assumption | exact Keep.refl _ | apply State.invalidReq_keep | apply State.beginReq_keep | apply State.writeFirst_keep | apply State.writeNext_keep | fail_if_no_progress (refine Keep.mk' ?_ rfl) | (extract_lets -underBinder +onlyGivenNames x; (refine (fun (hx : Keep s0 x) => ?_) ?_); (on_goal 1 => try clear_value x); (on_goal 2 => (unfold x; clear x))) | (extract_lets -underBinder +onlyGivenNames x; try clear_value x) | split)

theorem State.requestTwice_keep {s0 s : State} (h : Keep s0 s) (p : Nat) (ok : Nat → Bool) (dup new_ : State → Nat → RxFrame → Packet → State) (hdup : ∀ x0 x1 x2 x3, Keep s0 x0 → Keep s0 (dup x0 x1 x2 x3)) (hnew_ : ∀ x0 x1 x2 x3, Keep s0 x0 → Keep s0 (new_ x0 x1 x2 x3)) : Keep s0 (State.requestTwice s p ok dup new_) := by
  unfold State.requestTwice
  repeat' (with_reducible first | assumption | apply hdup | apply hnew_ | intro _ | exact Keep.refl _ | apply State.runOn_keep | apply State.request_keep | (extract_lets -underBinder +onlyGivenNames x; (refine (fun (hx : Keep s0 x) => ?_) ?_); (on_goal 1 => try clear_value x); (on_goal 2 => (unfold x; clear x))) | (extract_lets -underBinder +onlyGivenNames x; try clear_value x) | split)

theorem execSend_keep {s0 s : State} (h : Keep s0 s) (port : Nat) : ∃ t1, (execSend port s) = .next t1 ∧ Keep s0 t1 := by
  unfold execSend
  refine ⟨_, rfl, ?_⟩
  repeat' (with_reducible first | assumption | intro _ | exact Keep.refl _ | apply State.settle_keep | apply State.dupWrite_keep | apply State.newSend_keep | apply State.requestTwice_keep)

theorem execRdmaWrite_keep {s0 s : State} (h : Keep s0 s) (port : Nat) : ∃ t1, (execRdmaWrite port s) = .next t1 ∧ Keep s0 t1 := by
  unfold execRdmaWrite
  refine ⟨_, rfl, ?_⟩
  repeat' (with_reducible first | assumption | intro _ | exact Keep.refl _ | apply State.settle_keep | apply State.dupWrite_keep | apply State.newWrite_keep | apply State.requestTwice_keep)

theorem execRdmaReadRequest_keep {s0 s : State} (h : Keep s0 s) (port : Nat) : ∃ t1, (execRdmaReadRequest port s) = .next t1 ∧ Keep s0 t1 := by
  unfold execRdmaReadRequest
  refine ⟨_, rfl, ?_⟩
  repeat' (with_reducible first | assumption | intro _ | exact Keep.refl _ | apply State.settle_keep | apply State.request_keep | apply State.dupRead_keep | apply State.newRead_keep)

theorem execAtomicCompareAndSwap_keep {s0 s : State} (h : Keep s0 s) (port : Nat) : ∃ t1, (execAtomicCompareAndSwap port s) = .next t1 ∧ Keep s0 t1 := by
  unfold execAtomicCompareAndSwap
  refine ⟨_, rfl, ?_⟩
  repeat' (with_reducible first | assumption | intro _ | exact Keep.refl _ | apply State.settle_keep | apply State.request_keep | apply State.dupAtomic_keep | apply State.newAtomic_keep)

theorem execAtomicFetchAndAdd_keep {s0 s : State} (h : Keep s0 s) (port : Nat) : ∃ t1, (execAtomicFetchAndAdd port s) = .next t1 ∧ Keep s0 t1 := by
  unfold execAtomicFetchAndAdd
  refine ⟨_, rfl, ?_⟩
  repeat' (with_reducible first | assumption | intro _ | exact Keep.refl _ | apply State.settle_keep | apply State.request_keep | apply State.dupAtomic_keep | apply State.newAtomic_keep)

theorem execAtomicWrite_keep {s0 s : State} (h : Keep s0 s) (port : Nat) : ∃ t1, (execAtomicWrite port s) = .next t1 ∧ Keep s0 t1 := by
  unfold execAtomicWrite
  refine ⟨_, rfl, ?_⟩
  repeat' (with_reducible first | assumption | intro _ | exact Keep.refl _ | apply State.settle_keep | apply State.request_keep | apply State.dupWrite_keep | apply State.newAtomic_keep)

theorem execFlush_keep {s0 s : State} (h : Keep s0 s) (port : Nat) : ∃ t1, (execFlush port s) = .next t1 ∧ Keep s0 t1 := by
  unfold execFlush
  refine ⟨_, rfl, ?_⟩
  repeat' (with_reducible first | assumption | intro _ | exact Keep.refl _ | apply State.settle_keep | apply State.request_keep | apply State.dupWrite_keep | apply State.newFlush_keep)

theorem execCopy_keep {s0 s : State} (h : Keep s0 s) (chain : Nat) : ∃ t1, (execCopy chain s) = .next t1 ∧ Keep s0 t1 := by
  unfold execCopy
  refine ⟨_, rfl, ?_⟩
  repeat' (with_reducible first | assumption | exact Keep.refl _ | apply State.chainCopy_keep | apply State.settle_keep | split)

theorem execPersist_keep {s0 s : State} (h : Keep s0 s) (chain : Nat) : ∃ t1, (execPersist chain s) = .next t1 ∧ Keep s0 t1 := by
  unfold execPersist
  refine ⟨_, rfl, ?_⟩
  repeat' (with_reducible first | assumption | exact Keep.refl _ | apply State.chainPersist_keep | apply State.settle_keep | split)

theorem execAtomic_keep {s0 s : State} (h : Keep s0 s) (chain : Nat) : ∃ t1, (execAtomic chain s) = .next t1 ∧ Keep s0 t1 := by
  unfold execAtomic
  refine ⟨_, rfl, ?_⟩
  repeat' (with_reducible first | assumption | exact Keep.refl _ | apply State.chainAtomic_keep | apply State.settle_keep | split)

theorem execNotify_keep {s0 s : State} (h : Keep s0 s) (chain : Nat) : ∃ t1, (execNotify chain s) = .next t1 ∧ Keep s0 t1 := by
  unfold execNotify
  refine ⟨_, rfl, ?_⟩
  repeat' (with_reducible first | assumption | exact Keep.refl _ | apply State.chainNotify_keep | apply State.settle_keep | split)

end Sys2Proof.Machine
end

