-- ==== Sys2Proof/Laws/KeepConnect.lean ====
section
/-! SUPPORT. What the operations of Machine/Connect.lean keep (Keep). -/

set_option linter.unreachableTactic false
set_option linter.unusedTactic false
set_option linter.unusedVariables false

namespace Sys2Proof.Machine

theorem State.cmWaits_keep {s0 s : State} (h : Keep s0 s) (m : CmMsg) : KeepO s0 (State.cmWaits s m) := by
  unfold State.cmWaits
  repeat' (with_reducible first | assumption | exact Keep.refl _ | apply State.ctxUse_keep | fail_if_no_progress (refine Keep.mk' ?_ rfl) | refine Keep.of_snd (by assumption) ?_ | exact KeepO.none | apply KeepO.some | (extract_lets -underBinder +onlyGivenNames x; (refine (fun (hx : Keep s0 x) => ?_) ?_); (on_goal 1 => try clear_value x); (on_goal 2 => (unfold x; clear x))) | (extract_lets -underBinder +onlyGivenNames x; (refine (fun (hx : Keep s0 x.2) => ?_) ?_); (on_goal 1 => try clear_value x); (on_goal 2 => (unfold x; clear x))) | (extract_lets -underBinder +onlyGivenNames x; try clear_value x) | split)

theorem State.frameWaits_keep {s0 s : State} (h : Keep s0 s) (f : RxFrame) : KeepO s0 (State.frameWaits s f) := by
  unfold State.frameWaits
  repeat' (with_reducible first | assumption | exact Keep.refl _ | apply State.cmWaits_keep | fail_if_no_progress (refine Keep.mk' ?_ rfl) | exact KeepO.none | apply KeepO.some | refine KeepO.get ?_ (by assumption) | (extract_lets -underBinder +onlyGivenNames x; (refine (fun (hx : Keep s0 x) => ?_) ?_); (on_goal 1 => try clear_value x); (on_goal 2 => (unfold x; clear x))) | exact KeepO.get (by assumption) rfl | exact KeepO.none | apply KeepO.some | (apply KeepO.map; intro _) | (extract_lets -underBinder +onlyGivenNames x; (refine (fun (hx : KeepO s0 x) => ?_) ?_); (on_goal 1 => try clear_value x); (on_goal 2 => (unfold x; clear x))) | (extract_lets -underBinder +onlyGivenNames x; try clear_value x) | split)

theorem State.takeCm_keep {s0 s : State} (h : Keep s0 s) (p : Nat) (ok : CmMsg → Bool) (go : State → CmFrame → State) (hgo : ∀ x0 x1, Keep s0 x0 → Keep s0 (go x0 x1)) : Keep s0 (State.takeCm s p ok go) := by
  unfold State.takeCm
  repeat' (with_reducible first | assumption | apply hgo | exact Keep.refl _ | apply State.consumeRx_keep | apply State.popRx_keep | apply State.ctxUse_keep | apply State.frameWaits_keep | fail_if_no_progress (refine Keep.mk' ?_ rfl) | refine Keep.of_snd (by assumption) ?_ | refine KeepO.get ?_ (by assumption) | refine KeepO2.get ?_ (by assumption) | (extract_lets -underBinder +onlyGivenNames x; (refine (fun (hx : Keep s0 x) => ?_) ?_); (on_goal 1 => try clear_value x); (on_goal 2 => (unfold x; clear x))) | exact KeepO.get (by assumption) rfl | exact KeepO.none | apply KeepO.some | (apply KeepO.map; intro _) | (extract_lets -underBinder +onlyGivenNames x; (refine (fun (hx : KeepO s0 x) => ?_) ?_); (on_goal 1 => try clear_value x); (on_goal 2 => (unfold x; clear x))) | (extract_lets -underBinder +onlyGivenNames x; (refine (fun (hx : Keep s0 x.2) => ?_) ?_); (on_goal 1 => try clear_value x); (on_goal 2 => (unfold x; clear x))) | (extract_lets -underBinder +onlyGivenNames x; try clear_value x) | split)

theorem State.cmAnswer_keep {s0 s : State} (h : Keep s0 s) (p : Nat) (c : CmFrame) (b : TxBody) : Keep s0 (State.cmAnswer s p c b) := by
  unfold State.cmAnswer
  repeat' (with_reducible first | assumption | exact Keep.refl _ | apply State.queueTx_keep | fail_if_no_progress (refine Keep.mk' ?_ rfl) | (extract_lets -underBinder +onlyGivenNames x; (refine (fun (hx : Keep s0 x) => ?_) ?_); (on_goal 1 => try clear_value x); (on_goal 2 => (unfold x; clear x))) | (extract_lets -underBinder +onlyGivenNames x; try clear_value x))

theorem State.cmReject_keep {s0 s : State} (h : Keep s0 s) (p : Nat) (c : CmFrame) : Keep s0 (State.cmReject s p c) := by
  unfold State.cmReject
  repeat' (with_reducible first | assumption | exact Keep.refl _ | apply State.rdxCount_keep | apply State.cmAnswer_keep)

theorem State.newContext_keep {s0 s : State} (h : Keep s0 s) (n p t m : Nat) (c : CmFrame) (r : CmReq) : Keep s0 (State.newContext s n p t m c r) := by
  unfold State.newContext
  repeat' (with_reducible first | assumption | exact Keep.refl _ | apply State.setQp_keep | apply State.setQf_keep | apply Keep.foldl | apply Keep.foldl_fst | apply Keep.foldl_snd | intro _ | fail_if_no_progress (refine Keep.mk' ?_ rfl) | (extract_lets -underBinder +onlyGivenNames x; (refine (fun (hx : Keep s0 x) => ?_) ?_); (on_goal 1 => try clear_value x); (on_goal 2 => (unfold x; clear x))) | (extract_lets -underBinder +onlyGivenNames x; try clear_value x))

theorem State.cmReq_keep {s0 s : State} (h : Keep s0 s) (p : Nat) (c : CmFrame) (r : CmReq) : Keep s0 (State.cmReq s p c r) := by
  unfold State.cmReq
  repeat' (with_reducible first | assumption | exact Keep.refl _ | apply State.raise_keep | apply State.setTenant_keep | apply State.stageQp_keep | apply State.ctxNew_keep | apply State.cmAnswer_keep | apply State.cmReject_keep | apply State.newContext_keep | fail_if_no_progress (refine Keep.mk' ?_ rfl) | (extract_lets -underBinder +onlyGivenNames x; (refine (fun (hx : Keep s0 x) => ?_) ?_); (on_goal 1 => try clear_value x); (on_goal 2 => (unfold x; clear x))) | (extract_lets -underBinder +onlyGivenNames x; try clear_value x) | split)

theorem execReq_keep {s0 s : State} (h : Keep s0 s) (port : Nat) : ∃ t1, (execReq port s) = .next t1 ∧ Keep s0 t1 := by
  unfold execReq
  refine ⟨_, rfl, ?_⟩
  repeat' (with_reducible first | assumption | intro _ | exact Keep.refl _ | apply State.settle_keep | apply State.takeCm_keep | apply State.cmReq_keep | (extract_lets -underBinder +onlyGivenNames x; (refine (fun (hx : Keep s0 x) => ?_) ?_); (on_goal 1 => try clear_value x); (on_goal 2 => (unfold x; clear x))) | (extract_lets -underBinder +onlyGivenNames x; try clear_value x) | split)

theorem State.cmRtu_keep {s0 s : State} (h : Keep s0 s) (n : Nat) : Keep s0 (State.cmRtu s n) := by
  unfold State.cmRtu
  repeat' (with_reducible first | assumption | exact Keep.refl _ | apply State.setQf_keep | apply State.stageQp_keep | split)

theorem execRtu_keep {s0 s : State} (h : Keep s0 s) (port : Nat) : ∃ t1, (execRtu port s) = .next t1 ∧ Keep s0 t1 := by
  unfold execRtu
  refine ⟨_, rfl, ?_⟩
  repeat' (with_reducible first | assumption | intro _ | exact Keep.refl _ | apply State.settle_keep | apply State.takeCm_keep | apply State.cmRtu_keep | (extract_lets -underBinder +onlyGivenNames x; (refine (fun (hx : Keep s0 x) => ?_) ?_); (on_goal 1 => try clear_value x); (on_goal 2 => (unfold x; clear x))) | (extract_lets -underBinder +onlyGivenNames x; try clear_value x) | split)

theorem State.cmDreq_keep {s0 s : State} (h : Keep s0 s) (p : Nat) (c : CmFrame) (n : Nat) : Keep s0 (State.cmDreq s p c n) := by
  unfold State.cmDreq
  repeat' (with_reducible first | assumption | exact Keep.refl _ | apply State.qpError_keep | apply State.cmAnswer_keep | (extract_lets -underBinder +onlyGivenNames x; (refine (fun (hx : Keep s0 x) => ?_) ?_); (on_goal 1 => try clear_value x); (on_goal 2 => (unfold x; clear x))) | (extract_lets -underBinder +onlyGivenNames x; try clear_value x) | split)

theorem execDreq_keep {s0 s : State} (h : Keep s0 s) (port : Nat) : ∃ t1, (execDreq port s) = .next t1 ∧ Keep s0 t1 := by
  unfold execDreq
  refine ⟨_, rfl, ?_⟩
  repeat' (with_reducible first | assumption | intro _ | exact Keep.refl _ | apply State.settle_keep | apply State.takeCm_keep | apply State.cmDreq_keep | (extract_lets -underBinder +onlyGivenNames x; (refine (fun (hx : Keep s0 x) => ?_) ?_); (on_goal 1 => try clear_value x); (on_goal 2 => (unfold x; clear x))) | (extract_lets -underBinder +onlyGivenNames x; try clear_value x) | split)

theorem State.cmDrep_keep {s0 s : State} (h : Keep s0 s) (n : Nat) : Keep s0 (State.cmDrep s n) := by
  unfold State.cmDrep
  repeat' (with_reducible first | assumption | exact Keep.refl _ | apply State.qpReset_keep | split)

theorem execDrep_keep {s0 s : State} (h : Keep s0 s) (port : Nat) : ∃ t1, (execDrep port s) = .next t1 ∧ Keep s0 t1 := by
  unfold execDrep
  refine ⟨_, rfl, ?_⟩
  repeat' (with_reducible first | assumption | intro _ | exact Keep.refl _ | apply State.settle_keep | apply State.takeCm_keep | apply State.cmDrep_keep | (extract_lets -underBinder +onlyGivenNames x; (refine (fun (hx : Keep s0 x) => ?_) ?_); (on_goal 1 => try clear_value x); (on_goal 2 => (unfold x; clear x))) | (extract_lets -underBinder +onlyGivenNames x; try clear_value x) | split)

theorem State.disconnectTimeout_keep {s0 s : State} (h : Keep s0 s) (n : Nat) : Keep s0 (State.disconnectTimeout s n) := by
  unfold State.disconnectTimeout
  repeat' (with_reducible first | assumption | exact Keep.refl _ | apply State.upTo_keep | apply State.qpReset_keep | fail_if_no_progress (refine Keep.mk' ?_ rfl) | (extract_lets -underBinder +onlyGivenNames x; (refine (fun (hx : Keep s0 x) => ?_) ?_); (on_goal 1 => try clear_value x); (on_goal 2 => (unfold x; clear x))) | (extract_lets -underBinder +onlyGivenNames x; try clear_value x) | split)

theorem execDisconnectTimeout_keep {s0 s : State} (h : Keep s0 s) (qpn : Nat) : ∃ t1, (execDisconnectTimeout qpn s) = .next t1 ∧ Keep s0 t1 := by
  unfold execDisconnectTimeout
  refine ⟨_, rfl, ?_⟩
  repeat' (with_reducible first | assumption | exact Keep.refl _ | apply State.settle_keep | apply State.disconnectTimeout_keep)

theorem State.setSends_keep {s0 s : State} (h : Keep s0 s) (n : Nat) (l : List SendOut) : Keep s0 (State.setSends s n l) := by
  unfold State.setSends
  repeat' (with_reducible first | assumption | exact Keep.refl _ | apply State.modQp_keep | apply State.setQf_keep | fail_if_no_progress (refine Keep.mk' ?_ rfl) | (extract_lets -underBinder +onlyGivenNames x; (refine (fun (hx : Keep s0 x) => ?_) ?_); (on_goal 1 => try clear_value x); (on_goal 2 => (unfold x; clear x))) | (extract_lets -underBinder +onlyGivenNames x; try clear_value x))

theorem State.resend_keep {s0 s : State} (h : Keep s0 s) (n psn : Nat) : Keep s0 (State.resend s n psn) := by
  unfold State.resend
  repeat' (with_reducible first | assumption | exact Keep.refl _ | apply State.queueTx_keep | apply State.setSends_keep | apply Keep.foldl | apply Keep.foldl_fst | apply Keep.foldl_snd | intro _ | fail_if_no_progress (refine Keep.mk' ?_ rfl) | (extract_lets -underBinder +onlyGivenNames x; (refine (fun (hx : Keep s0 x) => ?_) ?_); (on_goal 1 => try clear_value x); (on_goal 2 => (unfold x; clear x))) | exact KeepO.get (by assumption) rfl | exact KeepO.none | apply KeepO.some | (apply KeepO.map; intro _) | (extract_lets -underBinder +onlyGivenNames x; (refine (fun (hx : KeepO s0 x) => ?_) ?_); (on_goal 1 => try clear_value x); (on_goal 2 => (unfold x; clear x))) | (extract_lets -underBinder +onlyGivenNames x; try clear_value x) | split)

theorem State.sendAcked_keep {s0 s : State} (h : Keep s0 s) (n psn syn : Nat) : Keep s0 (State.sendAcked s n psn syn) := by
  unfold State.sendAcked
  repeat' (with_reducible first | assumption | exact Keep.refl _ | apply State.stageQp_keep | apply State.qpError_keep | apply State.setSends_keep | apply State.resend_keep | fail_if_no_progress (refine Keep.mk' ?_ rfl) | (extract_lets -underBinder +onlyGivenNames x; (refine (fun (hx : Keep s0 x) => ?_) ?_); (on_goal 1 => try clear_value x); (on_goal 2 => (unfold x; clear x))) | exact KeepO.get (by assumption) rfl | exact KeepO.none | apply KeepO.some | (apply KeepO.map; intro _) | (extract_lets -underBinder +onlyGivenNames x; (refine (fun (hx : KeepO s0 x) => ?_) ?_); (on_goal 1 => try clear_value x); (on_goal 2 => (unfold x; clear x))) | (extract_lets -underBinder +onlyGivenNames x; have hf := fun z => x z) | (extract_lets -underBinder +onlyGivenNames x; try clear_value x) | split)

theorem State.acknowledge_keep {s0 s : State} (h : Keep s0 s) (p : Nat) : Keep s0 (State.acknowledge s p) := by
  unfold State.acknowledge
  repeat' (with_reducible first | assumption | exact Keep.refl _ | apply State.consumeRx_keep | apply State.popRx_keep | apply State.rdxCount_keep | apply State.sendAcked_keep | fail_if_no_progress (refine Keep.mk' ?_ rfl) | refine KeepO2.get ?_ (by assumption) | (extract_lets -underBinder +onlyGivenNames x; (refine (fun (hx : Keep s0 x) => ?_) ?_); (on_goal 1 => try clear_value x); (on_goal 2 => (unfold x; clear x))) | (extract_lets -underBinder +onlyGivenNames x; try clear_value x) | split)

theorem execAcknowledge_keep {s0 s : State} (h : Keep s0 s) (port : Nat) : ∃ t1, (execAcknowledge port s) = .next t1 ∧ Keep s0 t1 := by
  unfold execAcknowledge
  refine ⟨_, rfl, ?_⟩
  repeat' (with_reducible first | assumption | exact Keep.refl _ | apply State.settle_keep | apply State.acknowledge_keep)

theorem State.sendTimeout_keep {s0 s : State} (h : Keep s0 s) (n : Nat) : Keep s0 (State.sendTimeout s n) := by
  unfold State.sendTimeout
  repeat' (with_reducible first | assumption | exact Keep.refl _ | apply State.upTo_keep | apply State.qpError_keep | apply State.setSends_keep | apply State.resend_keep | fail_if_no_progress (refine Keep.mk' ?_ rfl) | (extract_lets -underBinder +onlyGivenNames x; (refine (fun (hx : Keep s0 x) => ?_) ?_); (on_goal 1 => try clear_value x); (on_goal 2 => (unfold x; clear x))) | exact KeepO.get (by assumption) rfl | exact KeepO.none | apply KeepO.some | (apply KeepO.map; intro _) | (extract_lets -underBinder +onlyGivenNames x; (refine (fun (hx : KeepO s0 x) => ?_) ?_); (on_goal 1 => try clear_value x); (on_goal 2 => (unfold x; clear x))) | (extract_lets -underBinder +onlyGivenNames x; try clear_value x) | split)

theorem execSendAckTimeout_keep {s0 s : State} (h : Keep s0 s) (qpn : Nat) : ∃ t1, (execSendAckTimeout qpn s) = .next t1 ∧ Keep s0 t1 := by
  unfold execSendAckTimeout
  refine ⟨_, rfl, ?_⟩
  repeat' (with_reducible first | assumption | exact Keep.refl _ | apply State.settle_keep | apply State.sendTimeout_keep)

theorem State.sendRnrRetry_keep {s0 s : State} (h : Keep s0 s) (n : Nat) : Keep s0 (State.sendRnrRetry s n) := by
  unfold State.sendRnrRetry
  repeat' (with_reducible first | assumption | exact Keep.refl _ | apply State.upTo_keep | apply State.resend_keep | fail_if_no_progress (refine Keep.mk' ?_ rfl) | (extract_lets -underBinder +onlyGivenNames x; (refine (fun (hx : Keep s0 x) => ?_) ?_); (on_goal 1 => try clear_value x); (on_goal 2 => (unfold x; clear x))) | (extract_lets -underBinder +onlyGivenNames x; try clear_value x) | split)

theorem execSendRnrRetry_keep {s0 s : State} (h : Keep s0 s) (qpn : Nat) : ∃ t1, (execSendRnrRetry qpn s) = .next t1 ∧ Keep s0 t1 := by
  unfold execSendRnrRetry
  refine ⟨_, rfl, ?_⟩
  repeat' (with_reducible first | assumption | exact Keep.refl _ | apply State.settle_keep | apply State.sendRnrRetry_keep)

theorem State.cnpStep_keep {s0 s : State} (h : Keep s0 s) (n : Nat) : Keep s0 (State.cnpStep s n) := by
  unfold State.cnpStep
  repeat' (with_reducible first | assumption | exact Keep.refl _ | apply State.modQp_keep | apply State.setQf_keep | fail_if_no_progress (refine Keep.mk' ?_ rfl) | (extract_lets -underBinder +onlyGivenNames x; (refine (fun (hx : Keep s0 x) => ?_) ?_); (on_goal 1 => try clear_value x); (on_goal 2 => (unfold x; clear x))) | (extract_lets -underBinder +onlyGivenNames x; try clear_value x))

theorem State.cnpReceived_keep {s0 s : State} (h : Keep s0 s) (p : Nat) : Keep s0 (State.cnpReceived s p) := by
  unfold State.cnpReceived
  repeat' (with_reducible first | assumption | exact Keep.refl _ | apply State.consumeRx_keep | apply State.popRx_keep | apply State.rdxCount_keep | apply State.stageQp_keep | apply State.cnpStep_keep | fail_if_no_progress (refine Keep.mk' ?_ rfl) | refine KeepO2.get ?_ (by assumption) | (extract_lets -underBinder +onlyGivenNames x; (refine (fun (hx : Keep s0 x) => ?_) ?_); (on_goal 1 => try clear_value x); (on_goal 2 => (unfold x; clear x))) | (extract_lets -underBinder +onlyGivenNames x; try clear_value x) | split)

theorem execCnpReceived_keep {s0 s : State} (h : Keep s0 s) (port : Nat) : ∃ t1, (execCnpReceived port s) = .next t1 ∧ Keep s0 t1 := by
  unfold execCnpReceived
  refine ⟨_, rfl, ?_⟩
  repeat' (with_reducible first | assumption | exact Keep.refl _ | apply State.settle_keep | apply State.cnpReceived_keep)

theorem State.alphaDecay_keep {s0 s : State} (h : Keep s0 s) (n : Nat) : Keep s0 (State.alphaDecay s n) := by
  unfold State.alphaDecay
  repeat' (with_reducible first | assumption | exact Keep.refl _ | apply State.upTo_keep | apply State.modQp_keep | apply State.setQf_keep | apply State.stageQp_keep | fail_if_no_progress (refine Keep.mk' ?_ rfl) | (extract_lets -underBinder +onlyGivenNames x; (refine (fun (hx : Keep s0 x) => ?_) ?_); (on_goal 1 => try clear_value x); (on_goal 2 => (unfold x; clear x))) | (extract_lets -underBinder +onlyGivenNames x; try clear_value x) | split)

theorem execAlphaDecay_keep {s0 s : State} (h : Keep s0 s) (qpn : Nat) : ∃ t1, (execAlphaDecay qpn s) = .next t1 ∧ Keep s0 t1 := by
  unfold execAlphaDecay
  refine ⟨_, rfl, ?_⟩
  repeat' (with_reducible first | assumption | exact Keep.refl _ | apply State.alphaDecay_keep)

theorem State.rateIncrease_keep {s0 s : State} (h : Keep s0 s) (n : Nat) : Keep s0 (State.rateIncrease s n) := by
  unfold State.rateIncrease
  repeat' (with_reducible first | assumption | exact Keep.refl _ | apply State.upTo_keep | apply State.modQp_keep | apply State.setQf_keep | apply State.stageQp_keep | fail_if_no_progress (refine Keep.mk' ?_ rfl) | (extract_lets -underBinder +onlyGivenNames x; (refine (fun (hx : Keep s0 x) => ?_) ?_); (on_goal 1 => try clear_value x); (on_goal 2 => (unfold x; clear x))) | (extract_lets -underBinder +onlyGivenNames x; try clear_value x) | split)

theorem execRateIncrease_keep {s0 s : State} (h : Keep s0 s) (qpn : Nat) : ∃ t1, (execRateIncrease qpn s) = .next t1 ∧ Keep s0 t1 := by
  unfold execRateIncrease
  refine ⟨_, rfl, ?_⟩
  repeat' (with_reducible first | assumption | exact Keep.refl _ | apply State.rateIncrease_keep)

theorem State.pacerRelease_keep {s0 s : State} (h : Keep s0 s) (n : Nat) : Keep s0 (State.pacerRelease s n) := by
  unfold State.pacerRelease
  repeat' (with_reducible first | assumption | exact Keep.refl _ | apply State.upTo_keep | apply State.modPort_keep | apply State.modQp_keep | apply State.kickTx_keep | fail_if_no_progress (refine Keep.mk' ?_ rfl) | (extract_lets -underBinder +onlyGivenNames x; (refine (fun (hx : Keep s0 x) => ?_) ?_); (on_goal 1 => try clear_value x); (on_goal 2 => (unfold x; clear x))) | (extract_lets -underBinder +onlyGivenNames x; have hf := fun z => x z) | (extract_lets -underBinder +onlyGivenNames x; try clear_value x) | split)

theorem execPacerRelease_keep {s0 s : State} (h : Keep s0 s) (qpn : Nat) : ∃ t1, (execPacerRelease qpn s) = .next t1 ∧ Keep s0 t1 := by
  unfold execPacerRelease
  refine ⟨_, rfl, ?_⟩
  repeat' (with_reducible first | assumption | exact Keep.refl _ | apply State.settle_keep | apply State.pacerRelease_keep)

end Sys2Proof.Machine
end

