-- ==== Sys2Proof/Laws/KeepCacheRows.lean ====
section
/-! SUPPORT. What the operations of Machine/CacheRows.lean keep (Keep). -/

set_option linter.unreachableTactic false
set_option linter.unusedTactic false
set_option linter.unusedVariables false

namespace Sys2Proof.Machine

theorem State.setStall_keep {s0 s : State} (h : Keep s0 s) (n : Nat) : Keep s0 (State.setStall s n) := by
  unfold State.setStall
  repeat' (with_reducible first | assumption | exact Keep.refl _ | apply State.raise_keep | apply State.upTo_keep | fail_if_no_progress (refine Keep.mk' ?_ rfl) | (extract_lets -underBinder +onlyGivenNames x; (refine (fun (hx : Keep s0 x) => ?_) ?_); (on_goal 1 => try clear_value x); (on_goal 2 => (unfold x; clear x))) | exact KeepO.get (by assumption) rfl | exact KeepO.none | apply KeepO.some | (apply KeepO.map; intro _) | (extract_lets -underBinder +onlyGivenNames x; (refine (fun (hx : KeepO s0 x) => ?_) ?_); (on_goal 1 => try clear_value x); (on_goal 2 => (unfold x; clear x))) | (extract_lets -underBinder +onlyGivenNames x; try clear_value x) | split)

theorem execSetStall_keep {s0 s : State} (h : Keep s0 s) (set : Nat) : ∃ t1, (execSetStall set s) = .next t1 ∧ Keep s0 t1 := by
  unfold execSetStall
  refine ⟨_, rfl, ?_⟩
  repeat' (with_reducible first | assumption | exact Keep.refl _ | apply State.setStall_keep)

theorem State.fillLands_keep {s0 s : State} (h : Keep s0 s) (k : Nat) (found : LineRead) (twinLine : Option Line) : Keep s0 (State.fillLands s k found twinLine) := by
  unfold State.fillLands
  repeat' (with_reducible first | assumption | exact Keep.refl _ | apply State.dramRead_keep | apply State.flitLost_keep | apply State.flitsCount_keep | apply State.ptRead_keep | apply State.fillLine_keep | fail_if_no_progress (refine Keep.mk' ?_ rfl) | refine Keep.of_fst (by assumption) ?_ | (extract_lets -underBinder +onlyGivenNames x; (refine (fun (hx : Keep s0 x) => ?_) ?_); (on_goal 1 => try clear_value x); (on_goal 2 => (unfold x; clear x))) | (extract_lets -underBinder +onlyGivenNames x; (refine (fun (hx : Keep s0 x.1) => ?_) ?_); (on_goal 1 => try clear_value x); (on_goal 2 => (unfold x; clear x))) | (extract_lets -underBinder +onlyGivenNames x; try clear_value x) | split)

theorem execFillLands_keep {s0 s : State} (h : Keep s0 s) (line : Nat) (found : LineRead) (twinLine : Option Line) : ∃ t1, (execFillLands line found twinLine s) = .next t1 ∧ Keep s0 t1 := by
  unfold execFillLands
  refine ⟨_, rfl, ?_⟩
  repeat' (with_reducible first | assumption | exact Keep.refl _ | apply State.settle_keep | apply State.fillLands_keep)

theorem State.flueDone_keep {s0 s : State} (h : Keep s0 s) (k : Nat) : Keep s0 (State.flueDone s k) := by
  unfold State.flueDone
  repeat' (with_reducible first | assumption | exact Keep.refl _ | apply State.setDram_keep | fail_if_no_progress (refine Keep.mk' ?_ rfl) | (extract_lets -underBinder +onlyGivenNames x; (refine (fun (hx : Keep s0 x) => ?_) ?_); (on_goal 1 => try clear_value x); (on_goal 2 => (unfold x; clear x))) | (extract_lets -underBinder +onlyGivenNames x; try clear_value x) | split)

theorem execFlueWritebackDone_keep {s0 s : State} (h : Keep s0 s) (line : Nat) : ∃ t1, (execFlueWritebackDone line s) = .next t1 ∧ Keep s0 t1 := by
  unfold execFlueWritebackDone
  refine ⟨_, rfl, ?_⟩
  repeat' (with_reducible first | assumption | exact Keep.refl _ | apply State.settle_keep | apply State.flueDone_keep)

theorem State.cacheCmd_keep {s0 s : State} (h : Keep s0 s) (q : Nat) (c : RqCmd) (inv : Bool) : Keep s0 (State.cacheCmd s q c inv) := by
  unfold State.cacheCmd
  repeat' (with_reducible first | assumption | exact Keep.refl _ | apply State.finishCmd_keep | apply State.cmdsGo_keep | fail_if_no_progress (refine Keep.mk' ?_ rfl) | (extract_lets -underBinder +onlyGivenNames x; (refine (fun (hx : Keep s0 x) => ?_) ?_); (on_goal 1 => try clear_value x); (on_goal 2 => (unfold x; clear x))) | exact KeepO.get (by assumption) rfl | exact KeepO.none | apply KeepO.some | (apply KeepO.map; intro _) | (extract_lets -underBinder +onlyGivenNames x; (refine (fun (hx : KeepO s0 x) => ?_) ?_); (on_goal 1 => try clear_value x); (on_goal 2 => (unfold x; clear x))) | (extract_lets -underBinder +onlyGivenNames x; try clear_value x) | split)

theorem State.hcaFlush_keep {s0 s : State} (h : Keep s0 s) (q : Nat) : Keep s0 (State.hcaFlush s q) := by
  unfold State.hcaFlush
  repeat' (with_reducible first | assumption | intro _ | exact Keep.refl _ | apply State.blockCmd_keep | apply State.cacheCmd_keep)

theorem State.hcaInvalidate_keep {s0 s : State} (h : Keep s0 s) (q : Nat) : Keep s0 (State.hcaInvalidate s q) := by
  unfold State.hcaInvalidate
  repeat' (with_reducible first | assumption | intro _ | exact Keep.refl _ | apply State.blockCmd_keep | apply State.cacheCmd_keep)

theorem execHcaFlush_keep {s0 s : State} (h : Keep s0 s) (q : Nat) : ∃ t1, (execHcaFlush q s) = .next t1 ∧ Keep s0 t1 := by
  unfold execHcaFlush
  refine ⟨_, rfl, ?_⟩
  repeat' (with_reducible first | assumption | exact Keep.refl _ | apply State.settle_keep | apply State.hcaFlush_keep)

theorem execHcaInvalidate_keep {s0 s : State} (h : Keep s0 s) (q : Nat) : ∃ t1, (execHcaInvalidate q s) = .next t1 ∧ Keep s0 t1 := by
  unfold execHcaInvalidate
  refine ⟨_, rfl, ?_⟩
  repeat' (with_reducible first | assumption | exact Keep.refl _ | apply State.settle_keep | apply State.hcaInvalidate_keep)

theorem State.cacheEn_keep {s0 s : State} (h : Keep s0 s) (en : Bool) : Keep s0 (State.cacheEn s en) := by
  unfold State.cacheEn
  repeat' (with_reducible first | assumption | exact Keep.refl _ | apply State.wr_keep | apply State.bumpGen_keep | apply State.raise_keep | apply State.setCacheSt_keep | (extract_lets -underBinder +onlyGivenNames x; (refine (fun (hx : Keep s0 x) => ?_) ?_); (on_goal 1 => try clear_value x); (on_goal 2 => (unfold x; clear x))) | (extract_lets -underBinder +onlyGivenNames x; try clear_value x) | split)

end Sys2Proof.Machine
end

