-- ==== Sys2Proof/Laws/KeepDurability.lean ====
section
/-! SUPPORT. What the operations of Machine/Durability.lean keep (Keep). -/

set_option linter.unreachableTactic false
set_option linter.unusedTactic false
set_option linter.unusedVariables false

namespace Sys2Proof.Machine

theorem State.stopCut_keep {s0 s : State} (h : Keep s0 s)  : Keep s0 (State.stopCut s) := by
  unfold State.stopCut
  repeat' (with_reducible first | assumption | exact Keep.refl _ | apply State.finishCmd_keep | fail_if_no_progress (refine Keep.mk' ?_ rfl) | (extract_lets -underBinder +onlyGivenNames x; (refine (fun (hx : Keep s0 x) => ?_) ?_); (on_goal 1 => try clear_value x); (on_goal 2 => (unfold x; clear x))) | (extract_lets -underBinder +onlyGivenNames x; try clear_value x) | split)

theorem execPowerFailWarning_keep {s0 s : State} (h : Keep s0 s)  : ∃ t1, (execPowerFailWarning s) = .next t1 ∧ Keep s0 t1 := by
  unfold execPowerFailWarning
  refine ⟨_, rfl, ?_⟩
  repeat' (with_reducible first | assumption | exact Keep.refl _ | apply State.startFlush_keep | apply State.stopCut_keep)

theorem State.finalWait_keep {s0 s : State} (h : Keep s0 s)  : Keep s0 (State.finalWait s) := by
  unfold State.finalWait
  repeat' (with_reducible first | assumption | exact Keep.refl _ | apply State.upTo_keep | apply State.flushWrite_keep | split)

theorem execFinalWaitExpiry_keep {s0 s : State} (h : Keep s0 s)  : ∃ t1, (execFinalWaitExpiry s) = .next t1 ∧ Keep s0 t1 := by
  unfold execFinalWaitExpiry
  refine ⟨_, rfl, ?_⟩
  repeat' (with_reducible first | assumption | exact Keep.refl _ | apply State.finalWait_keep)

theorem State.flushDone_keep {s0 s : State} (h : Keep s0 s)  : Keep s0 (State.flushDone s) := by
  unfold State.flushDone
  repeat' (with_reducible first | assumption | exact Keep.refl _ | apply State.wr_keep | apply State.setStat_keep | apply State.raise_keep | apply State.selfSeal_keep | apply State.jrnForce_keep | apply State.emberStop_keep | apply State.powerDown_keep | apply State.deviceReset_keep | fail_if_no_progress (refine Keep.mk' ?_ rfl) | (extract_lets -underBinder +onlyGivenNames x; (refine (fun (hx : Keep s0 x) => ?_) ?_); (on_goal 1 => try clear_value x); (on_goal 2 => (unfold x; clear x))) | exact KeepO.get (by assumption) rfl | exact KeepO.none | apply KeepO.some | (apply KeepO.map; intro _) | (extract_lets -underBinder +onlyGivenNames x; (refine (fun (hx : KeepO s0 x) => ?_) ?_); (on_goal 1 => try clear_value x); (on_goal 2 => (unfold x; clear x))) | (extract_lets -underBinder +onlyGivenNames x; try clear_value x) | split)

theorem execFlushDone_keep {s0 s : State} (h : Keep s0 s)  : ∃ t1, (execFlushDone s) = .next t1 ∧ Keep s0 t1 := by
  unfold execFlushDone
  refine ⟨_, rfl, ?_⟩
  repeat' (with_reducible first | assumption | exact Keep.refl _ | apply State.flushDone_keep)

theorem State.flushPower_keep {s0 s : State} (h : Keep s0 s) (w : Nat) : Keep s0 (State.flushPower s w) := by
  unfold State.flushPower
  repeat' (with_reducible first | assumption | exact Keep.refl _ | apply State.raise_keep | apply State.upTo_keep | fail_if_no_progress (refine Keep.mk' ?_ rfl) | (extract_lets -underBinder +onlyGivenNames x; (refine (fun (hx : Keep s0 x) => ?_) ?_); (on_goal 1 => try clear_value x); (on_goal 2 => (unfold x; clear x))) | (extract_lets -underBinder +onlyGivenNames x; try clear_value x) | split)

theorem execFlushPowerCheck_keep {s0 s : State} (h : Keep s0 s) (meanW : Nat) : ∃ t1, (execFlushPowerCheck meanW s) = .next t1 ∧ Keep s0 t1 := by
  unfold execFlushPowerCheck
  refine ⟨_, rfl, ?_⟩
  repeat' (with_reducible first | assumption | exact Keep.refl _ | apply State.flushPower_keep)

theorem State.stopAsk_keep {s0 s : State} (h : Keep s0 s) (q : Nat) : Keep s0 (State.stopAsk s q) := by
  unfold State.stopAsk
  repeat' (with_reducible first | assumption | exact Keep.refl _ | apply State.sendLink_keep | fail_if_no_progress (refine Keep.mk' ?_ rfl))

theorem State.durStop_keep {s0 s : State} (h : Keep s0 s) (q : Nat) : Keep s0 (State.durStop s q) := by
  unfold State.durStop
  repeat' (with_reducible first | assumption | intro _ | exact Keep.refl _ | apply State.finishCmd_keep | apply State.blockCmd_keep | apply State.settle_keep | apply State.stopBegins_keep | apply State.stopAsk_keep | fail_if_no_progress (refine Keep.mk' ?_ rfl) | (extract_lets -underBinder +onlyGivenNames x; (refine (fun (hx : Keep s0 x) => ?_) ?_); (on_goal 1 => try clear_value x); (on_goal 2 => (unfold x; clear x))) | (extract_lets -underBinder +onlyGivenNames x; try clear_value x) | split)

theorem execDurStop_keep {s0 s : State} (h : Keep s0 s) (q : Nat) : ∃ t1, (execDurStop q s) = .next t1 ∧ Keep s0 t1 := by
  unfold execDurStop
  refine ⟨_, rfl, ?_⟩
  repeat' (with_reducible first | assumption | exact Keep.refl _ | apply State.durStop_keep)

theorem State.stopped_keep {s0 s : State} (h : Keep s0 s)  : Keep s0 (State.stopped s) := by
  unfold State.stopped
  repeat' (with_reducible first | assumption | exact Keep.refl _ | apply State.wr_keep | apply State.raise_keep | apply State.selfSeal_keep | apply State.jrnForce_keep | apply State.finishCmd_keep | apply State.ckptSeg_keep | apply State.emberStop_keep | fail_if_no_progress (refine Keep.mk' ?_ rfl) | (extract_lets -underBinder +onlyGivenNames x; (refine (fun (hx : Keep s0 x) => ?_) ?_); (on_goal 1 => try clear_value x); (on_goal 2 => (unfold x; clear x))) | exact KeepO.get (by assumption) rfl | exact KeepO.none | apply KeepO.some | (apply KeepO.map; intro _) | (extract_lets -underBinder +onlyGivenNames x; (refine (fun (hx : KeepO s0 x) => ?_) ?_); (on_goal 1 => try clear_value x); (on_goal 2 => (unfold x; clear x))) | (extract_lets -underBinder +onlyGivenNames x; have hd : x.dram = x.dram := rfl) | (extract_lets -underBinder +onlyGivenNames x; try clear_value x) | split)

theorem execStopped_keep {s0 s : State} (h : Keep s0 s)  : ∃ t1, (execStopped s) = .next t1 ∧ Keep s0 t1 := by
  unfold execStopped
  refine ⟨_, rfl, ?_⟩
  repeat' (with_reducible first | assumption | exact Keep.refl _ | apply State.stopped_keep)

theorem State.acceptLoss_keep {s0 s : State} (h : Keep s0 s) (q : Nat) : Keep s0 (State.acceptLoss s q) := by
  unfold State.acceptLoss
  repeat' (with_reducible first | assumption | intro _ | exact Keep.refl _ | apply State.wr_keep | apply State.raise_keep | apply State.finishCmd_keep | apply State.blockCmd_keep | apply State.settle_keep | fail_if_no_progress (refine Keep.mk' ?_ rfl) | (extract_lets -underBinder +onlyGivenNames x; (refine (fun (hx : Keep s0 x) => ?_) ?_); (on_goal 1 => try clear_value x); (on_goal 2 => (unfold x; clear x))) | (extract_lets -underBinder +onlyGivenNames x; have hd : x.dram = x.dram := rfl) | (extract_lets -underBinder +onlyGivenNames x; try clear_value x) | split)

theorem execDurAcceptLoss_keep {s0 s : State} (h : Keep s0 s) (q : Nat) : ∃ t1, (execDurAcceptLoss q s) = .next t1 ∧ Keep s0 t1 := by
  unfold execDurAcceptLoss
  refine ⟨_, rfl, ?_⟩
  repeat' (with_reducible first | assumption | exact Keep.refl _ | apply State.acceptLoss_keep)

end Sys2Proof.Machine
end

