-- ==== Sys2Proof/Laws/KeepPower.lean ====
section
/-! SUPPORT. What the operations of Machine/Power.lean keep (Keep). -/

set_option linter.unreachableTactic false
set_option linter.unusedTactic false
set_option linter.unusedVariables false

namespace Sys2Proof.Machine

theorem execPowerOn_keep {s0 s : State} (h : Keep s0 s)  : ∃ t1, (execPowerOn s) = .next t1 ∧ Keep s0 t1 := by
  unfold execPowerOn
  refine ⟨_, rfl, ?_⟩
  repeat' (with_reducible first | assumption | exact Keep.refl _ | apply State.powerOn_keep)

theorem State.railGood_keep {s0 s : State} (h : Keep s0 s) (r : Nat) : Keep s0 (State.railGood s r) := by
  unfold State.railGood
  repeat' (with_reducible first | assumption | exact Keep.refl _ | apply State.seqGo_keep | fail_if_no_progress (refine Keep.mk' ?_ rfl) | (extract_lets -underBinder +onlyGivenNames x; (refine (fun (hx : Keep s0 x) => ?_) ?_); (on_goal 1 => try clear_value x); (on_goal 2 => (unfold x; clear x))) | (extract_lets -underBinder +onlyGivenNames x; try clear_value x) | split)

theorem execRailPowerGood_keep {s0 s : State} (h : Keep s0 s) (rail : Nat) : ∃ t1, (execRailPowerGood rail s) = .next t1 ∧ Keep s0 t1 := by
  unfold execRailPowerGood
  refine ⟨_, rfl, ?_⟩
  repeat' (with_reducible first | assumption | exact Keep.refl _ | apply State.railGood_keep)

theorem State.seqTimeout_keep {s0 s : State} (h : Keep s0 s)  : Keep s0 (State.seqTimeout s) := by
  unfold State.seqTimeout
  repeat' (with_reducible first | assumption | exact Keep.refl _ | apply State.upTo_keep | apply State.seqFail_keep | fail_if_no_progress (refine Keep.mk' ?_ rfl) | (extract_lets -underBinder +onlyGivenNames x; (refine (fun (hx : Keep s0 x) => ?_) ?_); (on_goal 1 => try clear_value x); (on_goal 2 => (unfold x; clear x))) | (extract_lets -underBinder +onlyGivenNames x; try clear_value x) | split)

theorem execSequenceTimeout_keep {s0 s : State} (h : Keep s0 s)  : ∃ t1, (execSequenceTimeout s) = .next t1 ∧ Keep s0 t1 := by
  unfold execSequenceTimeout
  refine ⟨_, rfl, ?_⟩
  repeat' (with_reducible first | assumption | exact Keep.refl _ | apply State.seqTimeout_keep)

theorem State.seqHold_keep {s0 s : State} (h : Keep s0 s)  : Keep s0 (State.seqHold s) := by
  unfold State.seqHold
  repeat' (with_reducible first | assumption | exact Keep.refl _ | apply State.wr_keep | apply State.setStat_keep | apply State.upTo_keep | fail_if_no_progress (refine Keep.mk' ?_ rfl) | (extract_lets -underBinder +onlyGivenNames x; (refine (fun (hx : Keep s0 x) => ?_) ?_); (on_goal 1 => try clear_value x); (on_goal 2 => (unfold x; clear x))) | (extract_lets -underBinder +onlyGivenNames x; try clear_value x) | split)

theorem execSequencerHold_keep {s0 s : State} (h : Keep s0 s)  : ∃ t1, (execSequencerHold s) = .next t1 ∧ Keep s0 t1 := by
  unfold execSequencerHold
  refine ⟨_, rfl, ?_⟩
  repeat' (with_reducible first | assumption | exact Keep.refl _ | apply State.seqHold_keep)

theorem State.opSample_keep {s0 s : State} (h : Keep s0 s) (bytes : Nat) : Keep s0 (State.opSample s bytes) := by
  unfold State.opSample
  repeat' (with_reducible first | assumption | exact Keep.refl _ | apply State.upTo_keep | apply State.opTo_keep | fail_if_no_progress (refine Keep.mk' ?_ rfl) | (extract_lets -underBinder +onlyGivenNames x; (refine (fun (hx : Keep s0 x) => ?_) ?_); (on_goal 1 => try clear_value x); (on_goal 2 => (unfold x; clear x))) | (extract_lets -underBinder +onlyGivenNames x; try clear_value x) | split)

theorem execOpSample_keep {s0 s : State} (h : Keep s0 s) (bytesMoved : Nat) : ∃ t1, (execOpSample bytesMoved s) = .next t1 ∧ Keep s0 t1 := by
  unfold execOpSample
  refine ⟨_, rfl, ?_⟩
  repeat' (with_reducible first | assumption | exact Keep.refl _ | apply State.opSample_keep)

theorem State.familyReached_keep {s0 s : State} (h : Keep s0 s)  : Keep s0 (State.familyReached s) := by
  unfold State.familyReached
  repeat' (with_reducible first | assumption | exact Keep.refl _ | apply State.wr_keep | apply State.raise_keep | fail_if_no_progress (refine Keep.mk' ?_ rfl) | (extract_lets -underBinder +onlyGivenNames x; (refine (fun (hx : Keep s0 x) => ?_) ?_); (on_goal 1 => try clear_value x); (on_goal 2 => (unfold x; clear x))) | (extract_lets -underBinder +onlyGivenNames x; try clear_value x) | split)

theorem execFamilyReached_keep {s0 s : State} (h : Keep s0 s)  : ∃ t1, (execFamilyReached s) = .next t1 ∧ Keep s0 t1 := by
  unfold execFamilyReached
  refine ⟨_, rfl, ?_⟩
  repeat' (with_reducible first | assumption | exact Keep.refl _ | apply State.familyReached_keep)

theorem State.avsTimeout_keep {s0 s : State} (h : Keep s0 s)  : Keep s0 (State.avsTimeout s) := by
  unfold State.avsTimeout
  repeat' (with_reducible first | assumption | exact Keep.refl _ | apply State.emit_keep | apply State.raise_keep | apply State.upTo_keep | fail_if_no_progress (refine Keep.mk' ?_ rfl) | (extract_lets -underBinder +onlyGivenNames x; (refine (fun (hx : Keep s0 x) => ?_) ?_); (on_goal 1 => try clear_value x); (on_goal 2 => (unfold x; clear x))) | (extract_lets -underBinder +onlyGivenNames x; try clear_value x) | split)

theorem execAvsTimeout_keep {s0 s : State} (h : Keep s0 s)  : ∃ t1, (execAvsTimeout s) = .next t1 ∧ Keep s0 t1 := by
  unfold execAvsTimeout
  refine ⟨_, rfl, ?_⟩
  repeat' (with_reducible first | assumption | exact Keep.refl _ | apply State.avsTimeout_keep)

theorem State.railFault_keep {s0 s : State} (h : Keep s0 s) (r : Nat) : Keep s0 (State.railFault s r) := by
  unfold State.railFault
  repeat' (with_reducible first | assumption | exact Keep.refl _ | apply State.wr_keep | apply State.raise_keep | apply State.startFlush_keep | apply State.recordAll_keep | apply State.powerDown_keep | apply State.immediateStop_keep | apply State.stopCut_keep | (extract_lets -underBinder +onlyGivenNames x; (refine (fun (hx : Keep s0 x) => ?_) ?_); (on_goal 1 => try clear_value x); (on_goal 2 => (unfold x; clear x))) | (extract_lets -underBinder +onlyGivenNames x; try clear_value x) | split)

theorem State.railOne_keep {s0 s : State} (h : Keep s0 s) (r mv : Nat) : Keep s0 (State.railOne s r mv) := by
  unfold State.railOne
  repeat' (with_reducible first | assumption | exact Keep.refl _ | apply State.wr_keep | apply State.raise_keep | apply State.railFault_keep | fail_if_no_progress (refine Keep.mk' ?_ rfl) | (extract_lets -underBinder +onlyGivenNames x; (refine (fun (hx : Keep s0 x) => ?_) ?_); (on_goal 1 => try clear_value x); (on_goal 2 => (unfold x; clear x))) | (extract_lets -underBinder +onlyGivenNames x; have hf := fun z => x z) | (extract_lets -underBinder +onlyGivenNames x; try clear_value x) | split)

theorem State.railCheck_keep {s0 s : State} (h : Keep s0 s) (mv : List Nat) : Keep s0 (State.railCheck s mv) := by
  unfold State.railCheck
  repeat' (with_reducible first | assumption | exact Keep.refl _ | apply State.wr_keep | apply State.upTo_keep | apply State.railOne_keep | apply Keep.foldl | apply Keep.foldl_fst | apply Keep.foldl_snd | intro _ | fail_if_no_progress (refine Keep.mk' ?_ rfl) | (extract_lets -underBinder +onlyGivenNames x; (refine (fun (hx : Keep s0 x) => ?_) ?_); (on_goal 1 => try clear_value x); (on_goal 2 => (unfold x; clear x))) | (extract_lets -underBinder +onlyGivenNames x; try clear_value x) | split)

theorem execRailCheck_keep {s0 s : State} (h : Keep s0 s) (mv : List Nat) : ∃ t1, (execRailCheck mv s) = .next t1 ∧ Keep s0 t1 := by
  unfold execRailCheck
  refine ⟨_, rfl, ?_⟩
  repeat' (with_reducible first | assumption | exact Keep.refl _ | apply State.railCheck_keep)

theorem State.pgLoss_keep {s0 s : State} (h : Keep s0 s) (r : Nat) : Keep s0 (State.pgLoss s r) := by
  unfold State.pgLoss
  repeat' (with_reducible first | assumption | exact Keep.refl _ | apply State.railStat_keep | apply State.seqFail_keep | apply State.railFault_keep | fail_if_no_progress (refine Keep.mk' ?_ rfl) | (extract_lets -underBinder +onlyGivenNames x; (refine (fun (hx : Keep s0 x) => ?_) ?_); (on_goal 1 => try clear_value x); (on_goal 2 => (unfold x; clear x))) | (extract_lets -underBinder +onlyGivenNames x; try clear_value x) | split)

theorem execPowerGoodLoss_keep {s0 s : State} (h : Keep s0 s) (rail : Nat) : ∃ t1, (execPowerGoodLoss rail s) = .next t1 ∧ Keep s0 t1 := by
  unfold execPowerGoodLoss
  refine ⟨_, rfl, ?_⟩
  repeat' (with_reducible first | assumption | exact Keep.refl _ | apply State.pgLoss_keep)

theorem execPfwGlitch_keep {s0 s : State} (h : Keep s0 s)  : ∃ t1, (execPfwGlitch s) = .next t1 ∧ Keep s0 t1 := by
  unfold execPfwGlitch
  refine ⟨_, rfl, ?_⟩
  repeat' (with_reducible first | assumption | exact Keep.refl _ | apply State.satInc_keep | apply State.raise_keep)

theorem State.powerMeans_keep {s0 s : State} (h : Keep s0 s) (w : Nat) : Keep s0 (State.powerMeans s w) := by
  unfold State.powerMeans
  repeat' (with_reducible first | assumption | exact Keep.refl _ | apply State.wr_keep | fail_if_no_progress (refine Keep.mk' ?_ rfl) | (extract_lets -underBinder +onlyGivenNames x; (refine (fun (hx : Keep s0 x) => ?_) ?_); (on_goal 1 => try clear_value x); (on_goal 2 => (unfold x; clear x))) | (extract_lets -underBinder +onlyGivenNames x; try clear_value x) | split)

theorem State.inputSample_keep {s0 s : State} (h : Keep s0 s) (vin w : Nat) : Keep s0 (State.inputSample s vin w) := by
  unfold State.inputSample
  repeat' (with_reducible first | assumption | exact Keep.refl _ | apply State.wr_keep | apply State.raise_keep | apply State.raiseIf_keep | apply State.upTo_keep | apply State.startFlush_keep | apply State.immediateStop_keep | apply State.stopCut_keep | apply State.powerMeans_keep | fail_if_no_progress (refine Keep.mk' ?_ rfl) | (extract_lets -underBinder +onlyGivenNames x; (refine (fun (hx : Keep s0 x) => ?_) ?_); (on_goal 1 => try clear_value x); (on_goal 2 => (unfold x; clear x))) | (extract_lets -underBinder +onlyGivenNames x; try clear_value x) | split)

theorem execInputPowerSample_keep {s0 s : State} (h : Keep s0 s) (vin10mv watts : Nat) : ∃ t1, (execInputPowerSample vin10mv watts s) = .next t1 ∧ Keep s0 t1 := by
  unfold execInputPowerSample
  refine ⟨_, rfl, ?_⟩
  repeat' (with_reducible first | assumption | exact Keep.refl _ | apply State.inputSample_keep)

theorem State.pollOne_keep {s0 s : State} (h : Keep s0 s) (r : Nat) (ma : Option Nat) : Keep s0 (State.pollOne s r ma) := by
  unfold State.pollOne
  repeat' (with_reducible first | assumption | exact Keep.refl _ | apply State.wr_keep | apply State.raise_keep | fail_if_no_progress (refine Keep.mk' ?_ rfl) | (extract_lets -underBinder +onlyGivenNames x; (refine (fun (hx : Keep s0 x) => ?_) ?_); (on_goal 1 => try clear_value x); (on_goal 2 => (unfold x; clear x))) | (extract_lets -underBinder +onlyGivenNames x; try clear_value x) | split)

theorem State.currentPoll_keep {s0 s : State} (h : Keep s0 s) (ma : List (Option Nat)) : Keep s0 (State.currentPoll s ma) := by
  unfold State.currentPoll
  repeat' (with_reducible first | assumption | exact Keep.refl _ | apply State.pollOne_keep | apply Keep.foldl | intro _)

theorem execRailCurrentPoll_keep {s0 s : State} (h : Keep s0 s) (ma : List (Option Nat)) : ∃ t1, (execRailCurrentPoll ma s) = .next t1 ∧ Keep s0 t1 := by
  unfold execRailCurrentPoll
  refine ⟨_, rfl, ?_⟩
  repeat' (with_reducible first | assumption | exact Keep.refl _ | apply State.currentPoll_keep)

theorem State.hardwareTrip_keep {s0 s : State} (h : Keep s0 s)  : Keep s0 (State.hardwareTrip s) := by
  unfold State.hardwareTrip
  repeat' (with_reducible first | assumption | exact Keep.refl _ | apply State.immediateStop_keep | fail_if_no_progress (refine Keep.mk' ?_ rfl) | (extract_lets -underBinder +onlyGivenNames x; (refine (fun (hx : Keep s0 x) => ?_) ?_); (on_goal 1 => try clear_value x); (on_goal 2 => (unfold x; clear x))) | (extract_lets -underBinder +onlyGivenNames x; try clear_value x) | split)

theorem execHardwareTrip_keep {s0 s : State} (h : Keep s0 s)  : ∃ t1, (execHardwareTrip s) = .next t1 ∧ Keep s0 t1 := by
  unfold execHardwareTrip
  refine ⟨_, rfl, ?_⟩
  repeat' (with_reducible first | assumption | exact Keep.refl _ | apply State.hardwareTrip_keep)

theorem State.refOne_keep {s0 s : State} (h : Keep s0 s) (k : Nat) (r : Option Int) : Keep s0 (State.refOne s k r) := by
  unfold State.refOne
  repeat' (with_reducible first | assumption | exact Keep.refl _ | apply State.raise_keep | fail_if_no_progress (refine Keep.mk' ?_ rfl) | (extract_lets -underBinder +onlyGivenNames x; (refine (fun (hx : Keep s0 x) => ?_) ?_); (on_goal 1 => try clear_value x); (on_goal 2 => (unfold x; clear x))) | (extract_lets -underBinder +onlyGivenNames x; try clear_value x) | split)

theorem State.diodeOne_keep {s0 s : State} (h : Keep s0 s) (k : Nat) (r : Option Int) : Keep s0 (State.diodeOne s k r) := by
  unfold State.diodeOne
  repeat' (with_reducible first | assumption | exact Keep.refl _ | apply State.wr_keep | apply State.raiseIf_keep | fail_if_no_progress (refine Keep.mk' ?_ rfl) | (extract_lets -underBinder +onlyGivenNames x; (refine (fun (hx : Keep s0 x) => ?_) ?_); (on_goal 1 => try clear_value x); (on_goal 2 => (unfold x; clear x))) | (extract_lets -underBinder +onlyGivenNames x; try clear_value x) | split)

theorem State.diodeCases_keep {s0 s : State} (h : Keep s0 s) (k : Nat) (r : Option Int) : Keep s0 (State.diodeCases s k r) := by
  unfold State.diodeCases
  repeat' (with_reducible first | assumption | exact Keep.refl _ | apply State.dieTemp_keep | apply Keep.foldl | apply Keep.foldl_fst | apply Keep.foldl_snd | intro _ | fail_if_no_progress (refine Keep.mk' ?_ rfl) | (extract_lets -underBinder +onlyGivenNames x; (refine (fun (hx : Keep s0 x) => ?_) ?_); (on_goal 1 => try clear_value x); (on_goal 2 => (unfold x; clear x))) | (extract_lets -underBinder +onlyGivenNames x; try clear_value x) | split)

theorem State.tjLimits_keep {s0 s : State} (h : Keep s0 s) (te : Int) : Keep s0 (State.tjLimits s te) := by
  unfold State.tjLimits
  repeat' (with_reducible first | assumption | exact Keep.refl _ | apply State.raise_keep | apply State.opEval_keep | apply State.startFlush_keep | apply State.stopCut_keep | fail_if_no_progress (refine Keep.mk' ?_ rfl) | (extract_lets -underBinder +onlyGivenNames x; (refine (fun (hx : Keep s0 x) => ?_) ?_); (on_goal 1 => try clear_value x); (on_goal 2 => (unfold x; clear x))) | (extract_lets -underBinder +onlyGivenNames x; have hf := fun z => x z) | (extract_lets -underBinder +onlyGivenNames x; try clear_value x) | split)

theorem State.modelDrift_keep {s0 s : State} (h : Keep s0 s) (off : Bool) : Keep s0 (State.modelDrift s off) := by
  unfold State.modelDrift
  repeat' (with_reducible first | assumption | exact Keep.refl _ | apply State.raiseIf_keep | fail_if_no_progress (refine Keep.mk' ?_ rfl) | (extract_lets -underBinder +onlyGivenNames x; (refine (fun (hx : Keep s0 x) => ?_) ?_); (on_goal 1 => try clear_value x); (on_goal 2 => (unfold x; clear x))) | (extract_lets -underBinder +onlyGivenNames x; try clear_value x) | split)

theorem State.thermalSample_keep {s0 s : State} (h : Keep s0 s) (x : ThermalIn) : Keep s0 (State.thermalSample s x) := by
  unfold State.thermalSample
  repeat' (with_reducible first | assumption | exact Keep.refl _ | apply State.wr_keep | apply State.setStat_keep | apply State.upTo_keep | apply State.hardwareTrip_keep | apply State.refOne_keep | apply State.diodeOne_keep | apply State.diodeCases_keep | apply State.tjLimits_keep | apply State.modelDrift_keep | fail_if_no_progress (refine Keep.mk' ?_ rfl) | (extract_lets -underBinder +onlyGivenNames x; (refine (fun (hx : Keep s0 x) => ?_) ?_); (on_goal 1 => try clear_value x); (on_goal 2 => (unfold x; clear x))) | (extract_lets -underBinder +onlyGivenNames x; have hf := fun z => x z) | (extract_lets -underBinder +onlyGivenNames x; try clear_value x) | split)

theorem execThermalSample_keep {s0 s : State} (h : Keep s0 s) (t : ThermalIn) : ∃ t1, (execThermalSample t s) = .next t1 ∧ Keep s0 t1 := by
  unfold execThermalSample
  refine ⟨_, rfl, ?_⟩
  repeat' (with_reducible first | assumption | exact Keep.refl _ | apply State.thermalSample_keep)

theorem execCaseSourceSilent_keep {s0 s : State} (h : Keep s0 s) (channel : Nat) : ∃ t1, (execCaseSourceSilent channel s) = .next t1 ∧ Keep s0 t1 := by
  unfold execCaseSourceSilent
  refine ⟨_, rfl, ?_⟩
  repeat' (with_reducible first | assumption | exact Keep.refl _ | apply State.setWindow_keep | fail_if_no_progress (refine Keep.mk' ?_ rfl) | (extract_lets -underBinder +onlyGivenNames x; (refine (fun (hx : Keep s0 x) => ?_) ?_); (on_goal 1 => try clear_value x); (on_goal 2 => (unfold x; clear x))) | (extract_lets -underBinder +onlyGivenNames x; try clear_value x) | split)

theorem State.lifeHour_keep {s0 s : State} (h : Keep s0 s)  : Keep s0 (State.lifeHour s) := by
  unfold State.lifeHour
  repeat' (with_reducible first | assumption | exact Keep.refl _ | apply State.wr_keep | apply State.inc_keep | apply State.raiseIf_keep | apply State.upTo_keep | apply State.takeFree_keep | fail_if_no_progress (refine Keep.mk' ?_ rfl) | refine Keep.of_snd (by assumption) ?_ | (extract_lets -underBinder +onlyGivenNames x; (refine (fun (hx : Keep s0 x) => ?_) ?_); (on_goal 1 => try clear_value x); (on_goal 2 => (unfold x; clear x))) | (extract_lets -underBinder +onlyGivenNames x; (refine (fun (hx : Keep s0 x.2) => ?_) ?_); (on_goal 1 => try clear_value x); (on_goal 2 => (unfold x; clear x))) | (extract_lets -underBinder +onlyGivenNames x; have hf := fun z => x z) | (extract_lets -underBinder +onlyGivenNames x; try clear_value x) | split)

theorem execLifeHour_keep {s0 s : State} (h : Keep s0 s)  : ∃ t1, (execLifeHour s) = .next t1 ∧ Keep s0 t1 := by
  unfold execLifeHour
  refine ⟨_, rfl, ?_⟩
  repeat' (with_reducible first | assumption | exact Keep.refl _ | apply State.lifeHour_keep)

theorem State.paceUpdate_keep {s0 s : State} (h : Keep s0 s) (rings : List Nat) : Keep s0 (State.paceUpdate s rings) := by
  unfold State.paceUpdate
  repeat' (with_reducible first | assumption | exact Keep.refl _ | apply State.wr_keep | apply State.inc_keep | apply State.upTo_keep | fail_if_no_progress (refine Keep.mk' ?_ rfl) | (extract_lets -underBinder +onlyGivenNames x; (refine (fun (hx : Keep s0 x) => ?_) ?_); (on_goal 1 => try clear_value x); (on_goal 2 => (unfold x; clear x))) | (extract_lets -underBinder +onlyGivenNames x; try clear_value x))

theorem execPaceUpdate_keep {s0 s : State} (h : Keep s0 s) (rings : List Nat) : ∃ t1, (execPaceUpdate rings s) = .next t1 ∧ Keep s0 t1 := by
  unfold execPaceUpdate
  refine ⟨_, rfl, ?_⟩
  repeat' (with_reducible first | assumption | exact Keep.refl _ | apply State.paceUpdate_keep)

end Sys2Proof.Machine
end

