-- ==== Sys2Proof/Laws/KeepIntegrity.lean ====
section
/-! SUPPORT. What the operations of Machine/Integrity.lean keep (Keep). -/

set_option linter.unreachableTactic false
set_option linter.unusedTactic false
set_option linter.unusedVariables false

namespace Sys2Proof.Machine

theorem State.lapRead_keep {s0 s : State} (h : Keep s0 s) (x : Scrubber) : Keep s0 (State.lapRead s x) := by
  unfold State.lapRead
  repeat' (with_reducible first | assumption | exact Keep.refl _ | apply State.upTo_keep | apply State.intCount_keep | fail_if_no_progress (refine Keep.mk' ?_ rfl) | (extract_lets -underBinder +onlyGivenNames x; (refine (fun (hx : Keep s0 x) => ?_) ?_); (on_goal 1 => try clear_value x); (on_goal 2 => (unfold x; clear x))) | (extract_lets -underBinder +onlyGivenNames x; try clear_value x) | split)

theorem State.cellLost_keep {s0 s : State} (h : Keep s0 s) (l : Nat) : Keep s0 (State.cellLost s l) := by
  unfold State.cellLost
  repeat' (with_reducible first | assumption | exact Keep.refl _ | apply State.takeFree_keep | apply State.intCount_keep | apply State.lastUe_keep | fail_if_no_progress (refine Keep.mk' ?_ rfl) | refine Keep.of_snd (by assumption) ?_ | (extract_lets -underBinder +onlyGivenNames x; (refine (fun (hx : Keep s0 x) => ?_) ?_); (on_goal 1 => try clear_value x); (on_goal 2 => (unfold x; clear x))) | exact KeepO.get (by assumption) rfl | exact KeepO.none | apply KeepO.some | (apply KeepO.map; intro _) | (extract_lets -underBinder +onlyGivenNames x; (refine (fun (hx : KeepO s0 x) => ?_) ?_); (on_goal 1 => try clear_value x); (on_goal 2 => (unfold x; clear x))) | (extract_lets -underBinder +onlyGivenNames x; (refine (fun (hx : Keep s0 x.2) => ?_) ?_); (on_goal 1 => try clear_value x); (on_goal 2 => (unfold x; clear x))) | (extract_lets -underBinder +onlyGivenNames x; try clear_value x) | split)

theorem State.ctxLost_keep {s0 s : State} (h : Keep s0 s) (l : Nat) : Keep s0 (State.ctxLost s l) := by
  unfold State.ctxLost
  repeat' (with_reducible first | assumption | exact Keep.refl _ | apply State.raise_keep | apply State.takeFree_keep | apply State.intCount_keep | apply State.lastUe_keep | apply State.qpError_keep | apply State.sendDreq_keep | fail_if_no_progress (refine Keep.mk' ?_ rfl) | refine Keep.of_snd (by assumption) ?_ | (extract_lets -underBinder +onlyGivenNames x; (refine (fun (hx : Keep s0 x) => ?_) ?_); (on_goal 1 => try clear_value x); (on_goal 2 => (unfold x; clear x))) | exact KeepO.get (by assumption) rfl | exact KeepO.none | apply KeepO.some | (apply KeepO.map; intro _) | (extract_lets -underBinder +onlyGivenNames x; (refine (fun (hx : KeepO s0 x) => ?_) ?_); (on_goal 1 => try clear_value x); (on_goal 2 => (unfold x; clear x))) | (extract_lets -underBinder +onlyGivenNames x; (refine (fun (hx : Keep s0 x.2) => ?_) ?_); (on_goal 1 => try clear_value x); (on_goal 2 => (unfold x; clear x))) | (extract_lets -underBinder +onlyGivenNames x; try clear_value x) | split)

theorem State.hearthUe_keep {s0 s : State} (h : Keep s0 s) (l : Nat) : Keep s0 (State.hearthUe s l) := by
  unfold State.hearthUe
  repeat' (with_reducible first | assumption | exact Keep.refl _ | apply State.raise_keep | apply State.intCount_keep | apply State.lastUe_keep | apply State.wayUe_keep | apply State.cellLost_keep | apply State.ctxLost_keep | fail_if_no_progress (refine Keep.mk' ?_ rfl) | (extract_lets -underBinder +onlyGivenNames x; (refine (fun (hx : Keep s0 x) => ?_) ?_); (on_goal 1 => try clear_value x); (on_goal 2 => (unfold x; clear x))) | (extract_lets -underBinder +onlyGivenNames x; try clear_value x) | split)

theorem State.scrubHearth_keep {s0 s : State} (h : Keep s0 s) (l : Nat) (ecc : Ecc) : Keep s0 (State.scrubHearth s l ecc) := by
  unfold State.scrubHearth
  repeat' (with_reducible first | assumption | exact Keep.refl _ | apply State.ask_keep | apply State.banksGo_keep | apply State.intCount_keep | apply State.injDrop_keep | apply State.lapRead_keep | apply State.hearthUe_keep | fail_if_no_progress (refine Keep.mk' ?_ rfl) | (extract_lets -underBinder +onlyGivenNames x; (refine (fun (hx : Keep s0 x) => ?_) ?_); (on_goal 1 => try clear_value x); (on_goal 2 => (unfold x; clear x))) | (extract_lets -underBinder +onlyGivenNames x; try clear_value x) | split)

theorem State.scrubLine_keep {s0 s : State} (h : Keep s0 s) (c f j : Nat) (ecc : Ecc) (twin : Option Line) : Keep s0 (State.scrubLine s c f j ecc twin) := by
  unfold State.scrubLine
  repeat' (with_reducible first | assumption | exact Keep.refl _ | apply State.ceSeen_keep | apply State.intCount_keep | apply State.attribute_keep | apply State.dramRead_keep | apply State.ptUe_keep | fail_if_no_progress (refine Keep.mk' ?_ rfl) | refine Keep.of_fst (by assumption) ?_ | (extract_lets -underBinder +onlyGivenNames x; (refine (fun (hx : Keep s0 x) => ?_) ?_); (on_goal 1 => try clear_value x); (on_goal 2 => (unfold x; clear x))) | (extract_lets -underBinder +onlyGivenNames x; (refine (fun (hx : Keep s0 x.1) => ?_) ?_); (on_goal 1 => try clear_value x); (on_goal 2 => (unfold x; clear x))) | (extract_lets -underBinder +onlyGivenNames x; try clear_value x) | split)

theorem State.scrubDram_keep {s0 s : State} (h : Keep s0 s) (c f j : Nat) (ecc : Ecc) (twin : Option Line) : Keep s0 (State.scrubDram s c f j ecc twin) := by
  unfold State.scrubDram
  repeat' (with_reducible first | assumption | exact Keep.refl _ | apply State.lapRead_keep | apply State.scrubLine_keep | (extract_lets -underBinder +onlyGivenNames x; (refine (fun (hx : Keep s0 x) => ?_) ?_); (on_goal 1 => try clear_value x); (on_goal 2 => (unfold x; clear x))) | (extract_lets -underBinder +onlyGivenNames x; try clear_value x) | split)

theorem State.scrubRead_keep {s0 s : State} (h : Keep s0 s) (t : ScrubTarget) (ecc : Ecc) (twin : Option Line) : Keep s0 (State.scrubRead s t ecc twin) := by
  unfold State.scrubRead
  repeat' (with_reducible first | assumption | exact Keep.refl _ | apply State.settle_keep | apply State.scrubHearth_keep | apply State.scrubDram_keep | fail_if_no_progress (refine Keep.mk' ?_ rfl) | (extract_lets -underBinder +onlyGivenNames x; (refine (fun (hx : Keep s0 x) => ?_) ?_); (on_goal 1 => try clear_value x); (on_goal 2 => (unfold x; clear x))) | (extract_lets -underBinder +onlyGivenNames x; try clear_value x) | split)

theorem execScrubRead_keep {s0 s : State} (h : Keep s0 s) (target : ScrubTarget) (ecc : Ecc) (twinLine : Option Line) : ∃ t1, (execScrubRead target ecc twinLine s) = .next t1 ∧ Keep s0 t1 := by
  unfold execScrubRead
  refine ⟨_, rfl, ?_⟩
  repeat' (with_reducible first | assumption | exact Keep.refl _ | apply State.scrubRead_keep)

theorem State.scrubWake_keep {s0 s : State} (h : Keep s0 s) (x : Scrubber) : Keep s0 (State.scrubWake s x) := by
  unfold State.scrubWake
  repeat' (with_reducible first | assumption | exact Keep.refl _ | apply State.modChan_keep | apply State.dchCount_keep | fail_if_no_progress (refine Keep.mk' ?_ rfl) | (extract_lets -underBinder +onlyGivenNames x; (refine (fun (hx : Keep s0 x) => ?_) ?_); (on_goal 1 => try clear_value x); (on_goal 2 => (unfold x; clear x))) | (extract_lets -underBinder +onlyGivenNames x; try clear_value x) | split)

theorem State.lapOverdue_keep {s0 s : State} (h : Keep s0 s) (x : Scrubber) : Keep s0 (State.lapOverdue s x) := by
  unfold State.lapOverdue
  repeat' (with_reducible first | assumption | exact Keep.refl _ | apply State.raise_keep | apply State.upTo_keep | apply State.scrubWake_keep | fail_if_no_progress (refine Keep.mk' ?_ rfl) | (extract_lets -underBinder +onlyGivenNames x; (refine (fun (hx : Keep s0 x) => ?_) ?_); (on_goal 1 => try clear_value x); (on_goal 2 => (unfold x; clear x))) | (extract_lets -underBinder +onlyGivenNames x; try clear_value x) | split)

theorem execLapOverdue_keep {s0 s : State} (h : Keep s0 s) (scrubber : Scrubber) : ∃ t1, (execLapOverdue scrubber s) = .next t1 ∧ Keep s0 t1 := by
  unfold execLapOverdue
  refine ⟨_, rfl, ?_⟩
  repeat' (with_reducible first | assumption | exact Keep.refl _ | apply State.lapOverdue_keep)

theorem State.dramFill_keep {s0 s : State} (h : Keep s0 s) (gib : Nat) : Keep s0 (State.dramFill s gib) := by
  unfold State.dramFill
  repeat' (with_reducible first | assumption | exact Keep.refl _ | apply State.wr_keep | apply State.raise_keep | apply State.setChFrames_keep | apply State.settle_keep | apply Keep.foldl | apply Keep.foldl_fst | apply Keep.foldl_snd | intro _ | fail_if_no_progress (refine Keep.mk' ?_ rfl) | (extract_lets -underBinder +onlyGivenNames x; (refine (fun (hx : Keep s0 x) => ?_) ?_); (on_goal 1 => try clear_value x); (on_goal 2 => (unfold x; clear x))) | (extract_lets -underBinder +onlyGivenNames x; try clear_value x) | split)

theorem execDramFill_keep {s0 s : State} (h : Keep s0 s) (gib : Nat) : ∃ t1, (execDramFill gib s) = .next t1 ∧ Keep s0 t1 := by
  unfold execDramFill
  refine ⟨_, rfl, ?_⟩
  repeat' (with_reducible first | assumption | exact Keep.refl _ | apply State.dramFill_keep)

theorem State.injected_keep {s0 s : State} (h : Keep s0 s) (q : Nat) (res : Nat) : Keep s0 (State.injected s q res) := by
  unfold State.injected
  repeat' (with_reducible first | assumption | exact Keep.refl _ | apply State.raise_keep | apply State.intCount_keep | apply State.finishCmd_keep)

theorem State.inject_keep {s0 s : State} (h : Keep s0 s) (kind k : Nat) (f : State → State) (hf : ∀ x0, Keep s0 x0 → Keep s0 (f x0)) : Keep s0 (State.inject s kind k f) := by
  unfold State.inject
  repeat' (with_reducible first | assumption | apply hf | exact Keep.refl _ | apply State.injected_keep | fail_if_no_progress (refine Keep.mk' ?_ rfl) | (extract_lets -underBinder +onlyGivenNames x; (refine (fun (hx : Keep s0 x) => ?_) ?_); (on_goal 1 => try clear_value x); (on_goal 2 => (unfold x; clear x))) | (extract_lets -underBinder +onlyGivenNames x; try clear_value x) | split)

theorem State.intInject_keep {s0 s : State} (h : Keep s0 s) (q : Nat) : Keep s0 (State.intInject s q) := by
  unfold State.intInject
  repeat' (with_reducible first | assumption | intro _ | exact Keep.refl _ | apply State.takeFree_keep | apply State.setWay_keep | apply State.setDram_keep | apply State.finishCmd_keep | apply State.blockCmd_keep | apply State.injected_keep | apply State.inject_keep | fail_if_no_progress (refine Keep.mk' ?_ rfl) | refine Keep.of_snd (by assumption) ?_ | (extract_lets -underBinder +onlyGivenNames x; (refine (fun (hx : Keep s0 x) => ?_) ?_); (on_goal 1 => try clear_value x); (on_goal 2 => (unfold x; clear x))) | (extract_lets -underBinder +onlyGivenNames x; (refine (fun (hx : Keep s0 x.2) => ?_) ?_); (on_goal 1 => try clear_value x); (on_goal 2 => (unfold x; clear x))) | (extract_lets -underBinder +onlyGivenNames x; have hd : x.dram = x.dram := rfl) | (extract_lets -underBinder +onlyGivenNames x; have hf := fun z => x z) | (extract_lets -underBinder +onlyGivenNames x; try clear_value x) | split)

theorem execIntInject_keep {s0 s : State} (h : Keep s0 s) (q : Nat) : ∃ t1, (execIntInject q s) = .next t1 ∧ Keep s0 t1 := by
  unfold execIntInject
  refine ⟨_, rfl, ?_⟩
  repeat' (with_reducible first | assumption | exact Keep.refl _ | apply State.intInject_keep)

end Sys2Proof.Machine
end

