-- ==== Sys2Proof/Laws/KeepView.lean ====
section
/-! SUPPORT. What the operations of Machine/View.lean keep (Keep). -/

set_option linter.unreachableTactic false
set_option linter.unusedTactic false
set_option linter.unusedVariables false

namespace Sys2Proof.Machine


end Sys2Proof.Machine
end

