-- ==== Sys2Proof/Laws/KeepBusRules.lean ====
section
/-! SUPPORT. What the operations of Machine/BusRules.lean keep (Keep). -/

set_option linter.unreachableTactic false
set_option linter.unusedTactic false
set_option linter.unusedVariables false

namespace Sys2Proof.Machine


end Sys2Proof.Machine
end

