-- ==== Sys2Proof/Laws/KeepBus.lean ====
section
/-! SUPPORT. What the operations of Machine/Bus.lean keep (Keep). -/

set_option linter.unreachableTactic false
set_option linter.unusedTactic false
set_option linter.unusedVariables false

namespace Sys2Proof.Machine

theorem State.msixFlush_keep {s0 s : State} (h : Keep s0 s)  : Keep s0 (State.msixFlush s) := by
  unfold State.msixFlush
  repeat' (with_reducible first | assumption | exact Keep.refl _ | apply State.emit_keep | apply State.msix_keep | apply Keep.foldl | intro _ | fail_if_no_progress (refine Keep.mk' ?_ rfl) | (extract_lets -underBinder +onlyGivenNames x; (refine (fun (hx : Keep s0 x) => ?_) ?_); (on_goal 1 => try clear_value x); (on_goal 2 => (unfold x; clear x))) | (extract_lets -underBinder +onlyGivenNames x; try clear_value x) | split)

theorem State.msixWrite_keep {s0 s : State} (h : Keep s0 s) (off : Nat) (m v : Word64) : Keep s0 (State.msixWrite s off m v) := by
  unfold State.msixWrite
  repeat' (with_reducible first | assumption | exact Keep.refl _ | apply State.msixFlush_keep | fail_if_no_progress (refine Keep.mk' ?_ rfl) | (extract_lets -underBinder +onlyGivenNames x; (refine (fun (hx : Keep s0 x) => ?_) ?_); (on_goal 1 => try clear_value x); (on_goal 2 => (unfold x; clear x))) | (extract_lets -underBinder +onlyGivenNames x; try clear_value x) | split)

theorem State.quiesceTo_keep {s0 s : State} (h : Keep s0 s) (page : Nat) (q : Bool) : Keep s0 (State.quiesceTo s page q) := by
  unfold State.quiesceTo
  repeat' (with_reducible first | assumption | exact Keep.refl _ | apply State.wr_keep | apply State.quiesceCheck_keep | (extract_lets -underBinder +onlyGivenNames x; (refine (fun (hx : Keep s0 x) => ?_) ?_); (on_goal 1 => try clear_value x); (on_goal 2 => (unfold x; clear x))) | (extract_lets -underBinder +onlyGivenNames x; try clear_value x) | split)

theorem State.enTo_keep {s0 s : State} (h : Keep s0 s) (page : Nat) (en : Bool) : Keep s0 (State.enTo s page en) := by
  unfold State.enTo
  repeat' (with_reducible first | assumption | exact Keep.refl _ | apply State.wr_keep | apply State.portEnable_keep | apply State.portDisable_keep | (extract_lets -underBinder +onlyGivenNames x; (refine (fun (hx : Keep s0 x) => ?_) ?_); (on_goal 1 => try clear_value x); (on_goal 2 => (unfold x; clear x))) | (extract_lets -underBinder +onlyGivenNames x; try clear_value x) | split)

theorem State.ctrlWrite_keep {s0 s : State} (h : Keep s0 s) (page addr : Nat) (v op : Word64) : Keep s0 (State.ctrlWrite s page addr v op) := by
  unfold State.ctrlWrite
  repeat' (with_reducible first | assumption | exact Keep.refl _ | apply State.wr_keep | apply State.accessErr_keep | apply State.softReset_keep | apply State.quiesceTo_keep | apply State.enTo_keep | (extract_lets -underBinder +onlyGivenNames x; (refine (fun (hx : Keep s0 x) => ?_) ?_); (on_goal 1 => try clear_value x); (on_goal 2 => (unfold x; clear x))) | (extract_lets -underBinder +onlyGivenNames x; try clear_value x) | split)

theorem State.faultCheck_keep {s0 s : State} (h : Keep s0 s) (page : Nat) : Keep s0 (State.faultCheck s page) := by
  unfold State.faultCheck
  repeat' (with_reducible first | assumption | exact Keep.refl _ | apply State.wr_keep | (extract_lets -underBinder +onlyGivenNames x; (refine (fun (hx : Keep s0 x) => ?_) ?_); (on_goal 1 => try clear_value x); (on_goal 2 => (unfold x; clear x))) | (extract_lets -underBinder +onlyGivenNames x; try clear_value x) | split)

theorem State.evtSet_keep {s0 s : State} (h : Keep s0 s) (page : Nat) (m : Word64) : Keep s0 (State.evtSet s page m) := by
  unfold State.evtSet
  repeat' (with_reducible first | assumption | exact Keep.refl _ | apply State.raiseWith_keep | apply Keep.foldl | intro _ | split)

theorem State.headerWrite_keep {s0 s : State} (h : Keep s0 s) (page off addr : Nat) (m v : Word64) : Keep s0 (State.headerWrite s page off addr m v) := by
  unfold State.headerWrite
  repeat' (with_reducible first | assumption | exact Keep.refl _ | apply State.setReg_keep | apply State.irqAfterWrite_keep | apply State.ctrlWrite_keep | apply State.faultCheck_keep | apply State.evtSet_keep | fail_if_no_progress (refine Keep.mk' ?_ rfl) | (extract_lets -underBinder +onlyGivenNames x; (refine (fun (hx : Keep s0 x) => ?_) ?_); (on_goal 1 => try clear_value x); (on_goal 2 => (unfold x; clear x))) | (extract_lets -underBinder +onlyGivenNames x; try clear_value x) | split)

theorem State.rqOn_keep {s0 s : State} (h : Keep s0 s) (q : Nat) : Keep s0 (State.rqOn s q) := by
  unfold State.rqOn
  repeat' (with_reducible first | assumption | exact Keep.refl _ | apply State.wr_keep | apply State.setRq_keep | apply State.rqError_keep | fail_if_no_progress (refine Keep.mk' ?_ rfl) | (extract_lets -underBinder +onlyGivenNames x; (refine (fun (hx : Keep s0 x) => ?_) ?_); (on_goal 1 => try clear_value x); (on_goal 2 => (unfold x; clear x))) | (extract_lets -underBinder +onlyGivenNames x; try clear_value x) | split)

theorem State.rqOff1_keep {s0 s : State} (h : Keep s0 s) (q : Nat) : Keep s0 (State.rqOff1 s q) := by
  unfold State.rqOff1
  repeat' (with_reducible first | assumption | exact Keep.refl _ | apply State.wr_keep | apply State.setRq_keep | apply State.postWaiting_keep | apply State.running_keep | fail_if_no_progress (refine Keep.mk' ?_ rfl) | (extract_lets -underBinder +onlyGivenNames x; (refine (fun (hx : Keep s0 x) => ?_) ?_); (on_goal 1 => try clear_value x); (on_goal 2 => (unfold x; clear x))) | exact KeepO.get (by assumption) rfl | exact KeepO.none | apply KeepO.some | (apply KeepO.map; intro _) | (extract_lets -underBinder +onlyGivenNames x; (refine (fun (hx : KeepO s0 x) => ?_) ?_); (on_goal 1 => try clear_value x); (on_goal 2 => (unfold x; clear x))) | (extract_lets -underBinder +onlyGivenNames x; try clear_value x) | split)

theorem State.rqBell_keep {s0 s : State} (h : Keep s0 s) (q : Nat) : Keep s0 (State.rqBell s q) := by
  unfold State.rqBell
  repeat' (with_reducible first | assumption | exact Keep.refl _ | apply State.setRq_keep | apply State.rqError_keep | fail_if_no_progress (refine Keep.mk' ?_ rfl) | (extract_lets -underBinder +onlyGivenNames x; (refine (fun (hx : Keep s0 x) => ?_) ?_); (on_goal 1 => try clear_value x); (on_goal 2 => (unfold x; clear x))) | (extract_lets -underBinder +onlyGivenNames x; try clear_value x) | split)

theorem State.rqCqHead_keep {s0 s : State} (h : Keep s0 s) (q : Nat) : Keep s0 (State.rqCqHead s q) := by
  unfold State.rqCqHead
  repeat' (with_reducible first | assumption | exact Keep.refl _ | apply State.rqError_keep | apply State.postWaiting_keep | apply State.advance_keep | split)

theorem State.rqAfter_keep {s0 s : State} (h : Keep s0 s) (off : Nat) (old new : Word64) : Keep s0 (State.rqAfter s off old new) := by
  unfold State.rqAfter
  repeat' (with_reducible first | assumption | exact Keep.refl _ | apply State.rqOn_keep | apply State.rqOff1_keep | apply State.rqBell_keep | apply State.rqCqHead_keep | fail_if_no_progress (refine Keep.mk' ?_ rfl) | (extract_lets -underBinder +onlyGivenNames x; (refine (fun (hx : Keep s0 x) => ?_) ?_); (on_goal 1 => try clear_value x); (on_goal 2 => (unfold x; clear x))) | (extract_lets -underBinder +onlyGivenNames x; try clear_value x) | split)

theorem State.holdupMs_keep {s0 s : State} (h : Keep s0 s)  : Keep s0 (State.holdupMs s) := by
  unfold State.holdupMs
  repeat' (with_reducible first | assumption | exact Keep.refl _ | apply State.wr_keep | apply State.autoSave_keep | apply State.budgetRecompute_keep)

theorem State.exportAfter_keep {s0 s : State} (h : Keep s0 s) (smp : Bool) (op : Word64) : Keep s0 (State.exportAfter s smp op) := by
  unfold State.exportAfter
  repeat' (with_reducible first | assumption | exact Keep.refl _ | apply State.wr_keep | split)

theorem State.pmuAfter_keep {s0 s : State} (h : Keep s0 s) (op : Word64) : Keep s0 (State.pmuAfter s op) := by
  unfold State.pmuAfter
  repeat' (with_reducible first | assumption | exact Keep.refl _ | apply State.setReg_keep | apply Keep.foldl | apply Keep.foldl_fst | apply Keep.foldl_snd | intro _ | fail_if_no_progress (refine Keep.mk' ?_ rfl) | (extract_lets -underBinder +onlyGivenNames x; (refine (fun (hx : Keep s0 x) => ?_) ?_); (on_goal 1 => try clear_value x); (on_goal 2 => (unfold x; clear x))) | (extract_lets -underBinder +onlyGivenNames x; try clear_value x) | split)

theorem State.strandsAfter_keep {s0 s : State} (h : Keep s0 s) (old new : Word64) : Keep s0 (State.strandsAfter s old new) := by
  unfold State.strandsAfter
  repeat' (with_reducible first | assumption | exact Keep.refl _ | apply State.strandOff_keep | apply State.strandOn_keep | apply Keep.foldl | intro _ | (extract_lets -underBinder +onlyGivenNames x; (refine (fun (hx : Keep s0 x) => ?_) ?_); (on_goal 1 => try clear_value x); (on_goal 2 => (unfold x; clear x))) | (extract_lets -underBinder +onlyGivenNames x; try clear_value x) | split)

theorem State.setBank_keep {s0 s : State} (h : Keep s0 s) (b st : Nat) : Keep s0 (State.setBank s b st) := by
  unfold State.setBank
  repeat' (with_reducible first | assumption | exact Keep.refl _ | apply State.setReg_keep)

theorem State.marchStart_keep {s0 s : State} (h : Keep s0 s) (steward : Bool) : Keep s0 (State.marchStart s steward) := by
  unfold State.marchStart
  repeat' (with_reducible first | assumption | exact Keep.refl _ | apply State.wr_keep | apply State.satInc_keep | apply State.setBank_keep | fail_if_no_progress (refine Keep.mk' ?_ rfl) | (extract_lets -underBinder +onlyGivenNames x; (refine (fun (hx : Keep s0 x) => ?_) ?_); (on_goal 1 => try clear_value x); (on_goal 2 => (unfold x; clear x))) | (extract_lets -underBinder +onlyGivenNames x; try clear_value x) | split)

theorem State.afterWrite_keep {s0 s : State} (h : Keep s0 s) (page off : Nat) (old new op : Word64) : Keep s0 (State.afterWrite s page off old new op) := by
  unfold State.afterWrite
  repeat' (with_reducible first | assumption | exact Keep.refl _ | apply State.wr_keep | apply State.freezeOn_keep | apply State.freezeOff_keep | apply State.autoSave_keep | apply State.budgetRecompute_keep | apply State.mediaRecompute_keep | apply State.setLevel_keep | apply State.startProbe_keep | apply State.opEval_keep | apply State.sealRelease_keep | apply State.applyLayout_keep | apply State.fcAfter_keep | apply State.cacheEn_keep | apply State.rqAfter_keep | apply State.holdupMs_keep | apply State.exportAfter_keep | apply State.pmuAfter_keep | apply State.strandsAfter_keep | apply State.marchStart_keep | fail_if_no_progress (refine Keep.mk' ?_ rfl) | (extract_lets -underBinder +onlyGivenNames x; (refine (fun (hx : Keep s0 x) => ?_) ?_); (on_goal 1 => try clear_value x); (on_goal 2 => (unfold x; clear x))) | (extract_lets -underBinder +onlyGivenNames x; try clear_value x) | split)

theorem State.storeReg_keep {s0 s : State} (h : Keep s0 s) (page off : Nat) (old new op : Word64) : Keep s0 (State.storeReg s page off old new op) := by
  unfold State.storeReg
  repeat' (with_reducible first | assumption | exact Keep.refl _ | apply State.setReg_keep | apply State.bumpGen_keep | apply State.pairConfig_keep | apply State.afterWrite_keep | (extract_lets -underBinder +onlyGivenNames x; (refine (fun (hx : Keep s0 x) => ?_) ?_); (on_goal 1 => try clear_value x); (on_goal 2 => (unfold x; clear x))) | (extract_lets -underBinder +onlyGivenNames x; try clear_value x) | split)

theorem State.blockWrite_keep {s0 s : State} (h : Keep s0 s) (page off addr : Nat) (d : RegDesc) (m v : Word64) : Keep s0 (State.blockWrite s page off addr d m v) := by
  unfold State.blockWrite
  repeat' (with_reducible first | assumption | exact Keep.refl _ | apply State.raise_keep | apply State.accessErr_keep | apply State.glbReset_keep | apply State.bflConfirm_keep | apply State.storeReg_keep | fail_if_no_progress (refine Keep.mk' ?_ rfl) | refine KeepO.get ?_ (by assumption) | apply KeepO.getD | (extract_lets -underBinder +onlyGivenNames x; (refine (fun (hx : Keep s0 x) => ?_) ?_); (on_goal 1 => try clear_value x); (on_goal 2 => (unfold x; clear x))) | exact KeepO.get (by assumption) rfl | exact KeepO.none | apply KeepO.some | (apply KeepO.map; intro _) | (extract_lets -underBinder +onlyGivenNames x; (refine (fun (hx : KeepO s0 x) => ?_) ?_); (on_goal 1 => try clear_value x); (on_goal 2 => (unfold x; clear x))) | (extract_lets -underBinder +onlyGivenNames x; try clear_value x) | split)

theorem State.busWrite_keep {s0 s : State} (h : Keep s0 s) (addr width : Nat) (value : Word64) (bmc : Bool) : Keep s0 (State.busWrite s addr width value bmc) := by
  unfold State.busWrite
  repeat' (with_reducible first | assumption | exact Keep.refl _ | apply State.accessErr_keep | apply State.msixWrite_keep | apply State.headerWrite_keep | apply State.blockWrite_keep | fail_if_no_progress (refine Keep.mk' ?_ rfl) | (extract_lets -underBinder +onlyGivenNames x; (refine (fun (hx : Keep s0 x) => ?_) ?_); (on_goal 1 => try clear_value x); (on_goal 2 => (unfold x; clear x))) | (extract_lets -underBinder +onlyGivenNames x; try clear_value x) | split)

theorem State.busRead_keep {s0 s : State} (h : Keep s0 s) (addr width : Nat) (bmc : Bool) : Keep s0 (State.busRead s addr width bmc).2 := by
  unfold State.busRead
  repeat' (with_reducible first | assumption | exact Keep.refl _ | apply State.setReg_keep | apply State.accessErr_keep | fail_if_no_progress (refine Keep.mk' ?_ rfl) | (extract_lets -underBinder +onlyGivenNames x; (refine (fun (hx : Keep s0 x) => ?_) ?_); (on_goal 1 => try clear_value x); (on_goal 2 => (unfold x; clear x))) | (extract_lets -underBinder +onlyGivenNames x; (refine (fun (hx : Keep s0 x.2) => ?_) ?_); (on_goal 1 => try clear_value x); (on_goal 2 => (unfold x; clear x))) | (extract_lets -underBinder +onlyGivenNames x; try clear_value x) | split)

end Sys2Proof.Machine
end

