-- ==== Sys2Proof/Laws/KeepBusRows.lean ====
section
/-! SUPPORT. What the operations of Machine/BusRows.lean keep (Keep). -/

set_option linter.unreachableTactic false
set_option linter.unusedTactic false
set_option linter.unusedVariables false

namespace Sys2Proof.Machine

theorem State.put_keep {s0 s : State} (h : Keep s0 s) (page off : Nat) (v : Word64) : Keep s0 (State.put s page off v) := by
  unfold State.put
  repeat' (with_reducible first | assumption | exact Keep.refl _ | apply State.settle_keep | apply State.busWrite_keep)

theorem busSeries_keep {s0 : State}  : ∀ (a0 : List Word64) (a1 : State) (a2 : Nat) (a3 : Nat), Keep s0 a1 → Keep s0 (busSeries a0 a1 a2 a3) := by
  intro  a0
  induction a0 with
  | nil =>
    intro a1 a2 a3 h
    first | rw [busSeries] | unfold busSeries
    repeat' (with_reducible first | assumption | exact Keep.refl _ | apply State.busWrite_keep | split)
  | cons x xs ih =>
    intro a1 a2 a3 h
    first | rw [busSeries] | unfold busSeries
    repeat' (with_reducible first | assumption | apply ih | exact Keep.refl _ | apply State.busWrite_keep | split)

theorem execRegisterWrite_keep {s0 s : State} (h : Keep s0 s) (off width : Nat) (value : WriteData) : ∃ t1, (execRegisterWrite off width value s) = .next t1 ∧ Keep s0 t1 := by
  unfold execRegisterWrite
  refine ⟨_, rfl, ?_⟩
  repeat' (with_reducible first | assumption | exact Keep.refl _ | apply State.settle_keep | apply State.busWrite_keep | apply busSeries_keep | split)

theorem State.readOut_keep {s0 s : State} (h : Keep s0 s) (addr width : Nat) : Keep s0 (State.readOut s addr width) := by
  unfold State.readOut
  repeat' (with_reducible first | assumption | exact Keep.refl _ | apply State.emit_keep | apply State.busRead_keep | refine Keep.of_snd (by assumption) ?_ | (extract_lets -underBinder +onlyGivenNames x; (refine (fun (hx : Keep s0 x) => ?_) ?_); (on_goal 1 => try clear_value x); (on_goal 2 => (unfold x; clear x))) | (extract_lets -underBinder +onlyGivenNames x; (refine (fun (hx : Keep s0 x.2) => ?_) ?_); (on_goal 1 => try clear_value x); (on_goal 2 => (unfold x; clear x))) | (extract_lets -underBinder +onlyGivenNames x; try clear_value x) | split)

theorem execRcFieldRead_keep {s0 s : State} (h : Keep s0 s) (off width : Nat) : ∃ t1, (execRcFieldRead off width s) = .next t1 ∧ Keep s0 t1 := by
  unfold execRcFieldRead
  refine ⟨_, rfl, ?_⟩
  repeat' (with_reducible first | assumption | exact Keep.refl _ | apply State.readOut_keep)

theorem State.putCtrl_keep {s0 s : State} (h : Keep s0 s) (page : Nat) (f : Word64 → Word64) : Keep s0 (State.putCtrl s page f) := by
  unfold State.putCtrl
  repeat' (with_reducible first | assumption | exact Keep.refl _ | apply State.put_keep)

theorem execPgQuiesce_keep {s0 s : State} (h : Keep s0 s) (page : Nat) : ∃ t1, (execPgQuiesce page s) = .next t1 ∧ Keep s0 t1 := by
  unfold execPgQuiesce
  refine ⟨_, rfl, ?_⟩
  repeat' (with_reducible first | assumption | exact Keep.refl _ | apply State.putCtrl_keep)

theorem execPgResume_keep {s0 s : State} (h : Keep s0 s) (page : Nat) : ∃ t1, (execPgResume page s) = .next t1 ∧ Keep s0 t1 := by
  unfold execPgResume
  refine ⟨_, rfl, ?_⟩
  repeat' (with_reducible first | assumption | exact Keep.refl _ | apply State.putCtrl_keep)

theorem execPgLock_keep {s0 s : State} (h : Keep s0 s) (page : Nat) : ∃ t1, (execPgLock page s) = .next t1 ∧ Keep s0 t1 := by
  unfold execPgLock
  refine ⟨_, rfl, ?_⟩
  repeat' (with_reducible first | assumption | exact Keep.refl _ | apply State.putCtrl_keep)

theorem execPgSoftRst_keep {s0 s : State} (h : Keep s0 s) (page : Nat) : ∃ t1, (execPgSoftRst page s) = .next t1 ∧ Keep s0 t1 := by
  unfold execPgSoftRst
  refine ⟨_, rfl, ?_⟩
  repeat' (with_reducible first | assumption | exact Keep.refl _ | apply State.putCtrl_keep)

theorem execPgEnable_keep {s0 s : State} (h : Keep s0 s) (page : Nat) : ∃ t1, (execPgEnable page s) = .next t1 ∧ Keep s0 t1 := by
  unfold execPgEnable
  refine ⟨_, rfl, ?_⟩
  repeat' (with_reducible first | assumption | exact Keep.refl _ | apply State.putCtrl_keep)

theorem execPgDisable_keep {s0 s : State} (h : Keep s0 s) (page : Nat) : ∃ t1, (execPgDisable page s) = .next t1 ∧ Keep s0 t1 := by
  unfold execPgDisable
  refine ⟨_, rfl, ?_⟩
  repeat' (with_reducible first | assumption | exact Keep.refl _ | apply State.putCtrl_keep)

theorem execPgEvtClear_keep {s0 s : State} (h : Keep s0 s) (page : Nat) (mask : Word64) : ∃ t1, (execPgEvtClear page mask s) = .next t1 ∧ Keep s0 t1 := by
  unfold execPgEvtClear
  refine ⟨_, rfl, ?_⟩
  repeat' (with_reducible first | assumption | exact Keep.refl _ | apply State.put_keep)

theorem execPgEvtEnWrite_keep {s0 s : State} (h : Keep s0 s) (page : Nat) (mask : Word64) : ∃ t1, (execPgEvtEnWrite page mask s) = .next t1 ∧ Keep s0 t1 := by
  unfold execPgEvtEnWrite
  refine ⟨_, rfl, ?_⟩
  repeat' (with_reducible first | assumption | exact Keep.refl _ | apply State.put_keep)

theorem execPgEvtSet_keep {s0 s : State} (h : Keep s0 s) (page : Nat) (mask : Word64) : ∃ t1, (execPgEvtSet page mask s) = .next t1 ∧ Keep s0 t1 := by
  unfold execPgEvtSet
  refine ⟨_, rfl, ?_⟩
  repeat' (with_reducible first | assumption | exact Keep.refl _ | apply State.put_keep)

theorem execMsixUnmask_keep {s0 s : State} (h : Keep s0 s) (vector : Nat) : ∃ t1, (execMsixUnmask vector s) = .next t1 ∧ Keep s0 t1 := by
  unfold execMsixUnmask
  refine ⟨_, rfl, ?_⟩
  repeat' (with_reducible first | assumption | exact Keep.refl _ | apply State.busWrite_keep)

theorem execRqEnable_keep {s0 s : State} (h : Keep s0 s) (q : Nat) (value : Word64) : ∃ t1, (execRqEnable q value s) = .next t1 ∧ Keep s0 t1 := by
  unfold execRqEnable
  refine ⟨_, rfl, ?_⟩
  repeat' (with_reducible first | assumption | exact Keep.refl _ | apply State.put_keep)

theorem execRqDisable_keep {s0 s : State} (h : Keep s0 s) (q : Nat) : ∃ t1, (execRqDisable q s) = .next t1 ∧ Keep s0 t1 := by
  unfold execRqDisable
  refine ⟨_, rfl, ?_⟩
  repeat' (with_reducible first | assumption | exact Keep.refl _ | apply State.put_keep)

theorem execRqDoorbell_keep {s0 s : State} (h : Keep s0 s) (q tail : Nat) : ∃ t1, (execRqDoorbell q tail s) = .next t1 ∧ Keep s0 t1 := by
  unfold execRqDoorbell
  refine ⟨_, rfl, ?_⟩
  repeat' (with_reducible first | assumption | exact Keep.refl _ | apply State.put_keep)

theorem execRqCqHeadWrite_keep {s0 s : State} (h : Keep s0 s) (q head : Nat) : ∃ t1, (execRqCqHeadWrite q head s) = .next t1 ∧ Keep s0 t1 := by
  unfold execRqCqHeadWrite
  refine ⟨_, rfl, ?_⟩
  repeat' (with_reducible first | assumption | exact Keep.refl _ | apply State.put_keep)

theorem execCacheDrain_keep {s0 s : State} (h : Keep s0 s)  : ∃ t1, (execCacheDrain s) = .next t1 ∧ Keep s0 t1 := by
  unfold execCacheDrain
  refine ⟨_, rfl, ?_⟩
  repeat' (with_reducible first | assumption | exact Keep.refl _ | apply State.put_keep)

theorem execCacheEnable_keep {s0 s : State} (h : Keep s0 s)  : ∃ t1, (execCacheEnable s) = .next t1 ∧ Keep s0 t1 := by
  unfold execCacheEnable
  refine ⟨_, rfl, ?_⟩
  repeat' (with_reducible first | assumption | exact Keep.refl _ | apply State.put_keep)

theorem execPoolResize_keep {s0 s : State} (h : Keep s0 s) (regions : Nat) : ∃ t1, (execPoolResize regions s) = .next t1 ∧ Keep s0 t1 := by
  unfold execPoolResize
  refine ⟨_, rfl, ?_⟩
  repeat' (with_reducible first | assumption | exact Keep.refl _ | apply State.put_keep)

theorem execDirtyBudgetWrite_keep {s0 s : State} (h : Keep s0 s) (mib : Nat) : ∃ t1, (execDirtyBudgetWrite mib s) = .next t1 ∧ Keep s0 t1 := by
  unfold execDirtyBudgetWrite
  refine ⟨_, rfl, ?_⟩
  repeat' (with_reducible first | assumption | exact Keep.refl _ | apply State.put_keep)

theorem execHoldupMsWrite_keep {s0 s : State} (h : Keep s0 s) (ms : Nat) : ∃ t1, (execHoldupMsWrite ms s) = .next t1 ∧ Keep s0 t1 := by
  unfold execHoldupMsWrite
  refine ⟨_, rfl, ?_⟩
  repeat' (with_reducible first | assumption | exact Keep.refl _ | apply State.put_keep)

theorem execHoldupWWrite_keep {s0 s : State} (h : Keep s0 s) (w : Nat) : ∃ t1, (execHoldupWWrite w s) = .next t1 ∧ Keep s0 t1 := by
  unfold execHoldupWWrite
  refine ⟨_, rfl, ?_⟩
  repeat' (with_reducible first | assumption | exact Keep.refl _ | apply State.put_keep)

theorem execOpWrite_keep {s0 s : State} (h : Keep s0 s) (value : Word64) : ∃ t1, (execOpWrite value s) = .next t1 ∧ Keep s0 t1 := by
  unfold execOpWrite
  refine ⟨_, rfl, ?_⟩
  repeat' (with_reducible first | assumption | exact Keep.refl _ | apply State.put_keep)

theorem State.putStrand_keep {s0 s : State} (h : Keep s0 s) (n : Nat) (on : Bool) : Keep s0 (State.putStrand s n on) := by
  unfold State.putStrand
  repeat' (with_reducible first | assumption | exact Keep.refl _ | apply State.put_keep)

theorem execStrandDisable_keep {s0 s : State} (h : Keep s0 s) (strand : Nat) : ∃ t1, (execStrandDisable strand s) = .next t1 ∧ Keep s0 t1 := by
  unfold execStrandDisable
  refine ⟨_, rfl, ?_⟩
  repeat' (with_reducible first | assumption | exact Keep.refl _ | apply State.putStrand_keep)

theorem execStrandEnable_keep {s0 s : State} (h : Keep s0 s) (strand : Nat) : ∃ t1, (execStrandEnable strand s) = .next t1 ∧ Keep s0 t1 := by
  unfold execStrandEnable
  refine ⟨_, rfl, ?_⟩
  repeat' (with_reducible first | assumption | exact Keep.refl _ | apply State.putStrand_keep)

theorem execPairConfigWrite_keep {s0 s : State} (h : Keep s0 s) (page off : Nat) (value : Word64) : ∃ t1, (execPairConfigWrite page off value s) = .next t1 ∧ Keep s0 t1 := by
  unfold execPairConfigWrite
  refine ⟨_, rfl, ?_⟩
  repeat' (with_reducible first | assumption | exact Keep.refl _ | apply State.put_keep | split)

theorem execReset_keep {s0 s : State} (h : Keep s0 s) (value : Word64) : ∃ t1, (execReset value s) = .next t1 ∧ Keep s0 t1 := by
  unfold execReset
  refine ⟨_, rfl, ?_⟩
  repeat' (with_reducible first | assumption | exact Keep.refl _ | apply State.busWrite_keep)

theorem State.recoveryCopy_keep {s0 s : State} (h : Keep s0 s) (addr : Word64) (img : Option ImageInfo) : Keep s0 (State.recoveryCopy s addr img) := by
  unfold State.recoveryCopy
  repeat' (with_reducible first | assumption | exact Keep.refl _ | apply State.recoveryCopied_keep | apply State.busWrite_keep | (extract_lets -underBinder +onlyGivenNames x; (refine (fun (hx : Keep s0 x) => ?_) ?_); (on_goal 1 => try clear_value x); (on_goal 2 => (unfold x; clear x))) | (extract_lets -underBinder +onlyGivenNames x; try clear_value x) | split)

theorem execRecoveryCopy_keep {s0 s : State} (h : Keep s0 s) (addr : Word64) (img : Option ImageInfo) : ∃ t1, (execRecoveryCopy addr img s) = .next t1 ∧ Keep s0 t1 := by
  unfold execRecoveryCopy
  refine ⟨_, rfl, ?_⟩
  repeat' (with_reducible first | assumption | exact Keep.refl _ | apply State.recoveryCopy_keep)

theorem execConfirm_keep {s0 s : State} (h : Keep s0 s) (key : Nat) : ∃ t1, (execConfirm key s) = .next t1 ∧ Keep s0 t1 := by
  unfold execConfirm
  refine ⟨_, rfl, ?_⟩
  repeat' (with_reducible first | assumption | exact Keep.refl _ | apply State.busWrite_keep)

theorem execFreeze_keep {s0 s : State} (h : Keep s0 s)  : ∃ t1, (execFreeze s) = .next t1 ∧ Keep s0 t1 := by
  unfold execFreeze
  refine ⟨_, rfl, ?_⟩
  repeat' (with_reducible first | assumption | exact Keep.refl _ | apply State.busWrite_keep)

theorem execFreezeRelease_keep {s0 s : State} (h : Keep s0 s)  : ∃ t1, (execFreezeRelease s) = .next t1 ∧ Keep s0 t1 := by
  unfold execFreezeRelease
  refine ⟨_, rfl, ?_⟩
  repeat' (with_reducible first | assumption | exact Keep.refl _ | apply State.busWrite_keep)

theorem execExpHeadWrite_keep {s0 s : State} (h : Keep s0 s) (sample : Bool) (head : Nat) : ∃ t1, (execExpHeadWrite sample head s) = .next t1 ∧ Keep s0 t1 := by
  unfold execExpHeadWrite
  refine ⟨_, rfl, ?_⟩
  repeat' (with_reducible first | assumption | exact Keep.refl _ | apply State.busWrite_keep | split)

theorem State.putPmu_keep {s0 s : State} (h : Keep s0 s) (b : Word64) : Keep s0 (State.putPmu s b) := by
  unfold State.putPmu
  repeat' (with_reducible first | assumption | exact Keep.refl _ | apply State.busWrite_keep)

theorem execSnap_keep {s0 s : State} (h : Keep s0 s)  : ∃ t1, (execSnap s) = .next t1 ∧ Keep s0 t1 := by
  unfold execSnap
  refine ⟨_, rfl, ?_⟩
  repeat' (with_reducible first | assumption | exact Keep.refl _ | apply State.putPmu_keep)

theorem execClear_keep {s0 s : State} (h : Keep s0 s)  : ∃ t1, (execClear s) = .next t1 ∧ Keep s0 t1 := by
  unfold execClear
  refine ⟨_, rfl, ?_⟩
  repeat' (with_reducible first | assumption | exact Keep.refl _ | apply State.putPmu_keep)

theorem execMarchTest_keep {s0 s : State} (h : Keep s0 s) (bank : Nat) : ∃ t1, (execMarchTest bank s) = .next t1 ∧ Keep s0 t1 := by
  unfold execMarchTest
  refine ⟨_, rfl, ?_⟩
  repeat' (with_reducible first | assumption | exact Keep.refl _ | apply State.busWrite_keep)

end Sys2Proof.Machine
end

