-- ==== Sys2Proof/Laws/KeepBoot.lean ====
section
/-! SUPPORT. What the operations of Machine/Boot.lean keep (Keep). -/

set_option linter.unreachableTactic false
set_option linter.unusedTactic false
set_option linter.unusedVariables false

namespace Sys2Proof.Machine

theorem execStartStepDone_keep (r : StepResult) (s : State) : ∃ t1, execStartStepDone r s = .next t1 ∧ Keep (s.sampleStrap r) t1 :=
  ⟨_, rfl, State.settle_keep (State.startStep_keep (Keep.refl _) r)⟩

theorem execResetPin_keep {s0 s : State} (h : Keep s0 s)  : ∃ t1, (execResetPin s) = .next t1 ∧ Keep s0 t1 := by
  unfold execResetPin
  refine ⟨_, rfl, ?_⟩
  repeat' (with_reducible first | assumption | exact Keep.refl _ | apply State.deviceReset_keep)

theorem execPerst_keep {s0 s : State} (h : Keep s0 s)  : ∃ t1, (execPerst s) = .next t1 ∧ Keep s0 t1 := by
  unfold execPerst
  refine ⟨_, rfl, ?_⟩
  repeat' (with_reducible first | assumption | exact Keep.refl _ | apply State.perst_keep)

theorem State.bflCmd_keep {s0 s : State} (h : Keep s0 s) (q op : Nat) (data : Bool) (f : State → Nat → RqCmd → State) (hf : ∀ x0 x1 x2, Keep s0 x0 → Keep s0 (f x0 x1 x2)) : Keep s0 (State.bflCmd s q op data f) := by
  unfold State.bflCmd
  repeat' (with_reducible first | assumption | apply hf | intro _ | exact Keep.refl _ | apply State.finishCmd_keep | apply State.blockCmd_keep | split)

theorem State.bflBegin_keep {s0 s : State} (h : Keep s0 s) (q : Nat) : Keep s0 (State.bflBegin s q) := by
  unfold State.bflBegin
  repeat' (with_reducible first | assumption | intro _ | exact Keep.refl _ | apply State.finishCmd_keep | apply State.bflStat_keep | apply State.writeSel_keep | apply State.bflCmd_keep | fail_if_no_progress (refine Keep.mk' ?_ rfl) | (extract_lets -underBinder +onlyGivenNames x; (refine (fun (hx : Keep s0 x) => ?_) ?_); (on_goal 1 => try clear_value x); (on_goal 2 => (unfold x; clear x))) | (extract_lets -underBinder +onlyGivenNames x; try clear_value x))

theorem execBflBegin_keep {s0 s : State} (h : Keep s0 s) (q : Nat) : ∃ t1, (execBflBegin q s) = .next t1 ∧ Keep s0 t1 := by
  unfold execBflBegin
  refine ⟨_, rfl, ?_⟩
  repeat' (with_reducible first | assumption | exact Keep.refl _ | apply State.bflBegin_keep)

theorem State.bflWrite_keep {s0 s : State} (h : Keep s0 s) (q : Nat) (data : List Word64) : Keep s0 (State.bflWrite s q data) := by
  unfold State.bflWrite
  repeat' (with_reducible first | assumption | exact Keep.refl _ | apply State.finishCmd_keep | apply State.bflStat_keep | apply State.bflCmd_keep | apply Keep.foldl | apply Keep.foldl_fst | apply Keep.foldl_snd | intro _ | fail_if_no_progress (refine Keep.mk' ?_ rfl) | (extract_lets -underBinder +onlyGivenNames x; (refine (fun (hx : Keep s0 x) => ?_) ?_); (on_goal 1 => try clear_value x); (on_goal 2 => (unfold x; clear x))) | (extract_lets -underBinder +onlyGivenNames x; try clear_value x) | split)

theorem execBflWrite_keep {s0 s : State} (h : Keep s0 s) (q : Nat) (data : List Word64) : ∃ t1, (execBflWrite q data s) = .next t1 ∧ Keep s0 t1 := by
  unfold execBflWrite
  refine ⟨_, rfl, ?_⟩
  repeat' (with_reducible first | assumption | exact Keep.refl _ | apply State.bflWrite_keep)

theorem State.setImg_keep {s0 s : State} (h : Keep s0 s) (b : Nat) (m : ImageInfo) : Keep s0 (State.setImg s b m) := by
  unfold State.setImg
  repeat' (with_reducible first | assumption | exact Keep.refl _ | fail_if_no_progress (refine Keep.mk' ?_ rfl) | (extract_lets -underBinder +onlyGivenNames x; (refine (fun (hx : Keep s0 x) => ?_) ?_); (on_goal 1 => try clear_value x); (on_goal 2 => (unfold x; clear x))) | (extract_lets -underBinder +onlyGivenNames x; try clear_value x) | split)

theorem State.bflVerify_keep {s0 s : State} (h : Keep s0 s) (q : Nat) (m : ImageInfo) : Keep s0 (State.bflVerify s q m) := by
  unfold State.bflVerify
  repeat' (with_reducible first | assumption | intro _ | exact Keep.refl _ | apply State.raise_keep | apply State.finishCmd_keep | apply State.bflStat_keep | apply State.writeSel_keep | apply State.bflCmd_keep | apply State.setImg_keep | fail_if_no_progress (refine Keep.mk' ?_ rfl) | (extract_lets -underBinder +onlyGivenNames x; (refine (fun (hx : Keep s0 x) => ?_) ?_); (on_goal 1 => try clear_value x); (on_goal 2 => (unfold x; clear x))) | (extract_lets -underBinder +onlyGivenNames x; try clear_value x) | split)

theorem execBflVerify_keep {s0 s : State} (h : Keep s0 s) (q : Nat) (img : ImageInfo) : ∃ t1, (execBflVerify q img s) = .next t1 ∧ Keep s0 t1 := by
  unfold execBflVerify
  refine ⟨_, rfl, ?_⟩
  repeat' (with_reducible first | assumption | exact Keep.refl _ | apply State.bflVerify_keep)

theorem State.bflActivate_keep {s0 s : State} (h : Keep s0 s) (q : Nat) : Keep s0 (State.bflActivate s q) := by
  unfold State.bflActivate
  repeat' (with_reducible first | assumption | intro _ | exact Keep.refl _ | apply State.raise_keep | apply State.finishCmd_keep | apply State.writeSel_keep | apply State.bflCmd_keep | fail_if_no_progress (refine Keep.mk' ?_ rfl) | (extract_lets -underBinder +onlyGivenNames x; (refine (fun (hx : Keep s0 x) => ?_) ?_); (on_goal 1 => try clear_value x); (on_goal 2 => (unfold x; clear x))) | (extract_lets -underBinder +onlyGivenNames x; try clear_value x) | split)

theorem execBflActivate_keep {s0 s : State} (h : Keep s0 s) (q : Nat) : ∃ t1, (execBflActivate q s) = .next t1 ∧ Keep s0 t1 := by
  unfold execBflActivate
  refine ⟨_, rfl, ?_⟩
  repeat' (with_reducible first | assumption | exact Keep.refl _ | apply State.bflActivate_keep)

theorem State.bflSave_keep {s0 s : State} (h : Keep s0 s) (q : Nat) : Keep s0 (State.bflSave s q) := by
  unfold State.bflSave
  repeat' (with_reducible first | assumption | intro _ | exact Keep.refl _ | apply State.raise_keep | apply State.selfSeal_keep | apply State.finishCmd_keep | apply State.blockCmd_keep | fail_if_no_progress (refine Keep.mk' ?_ rfl) | (extract_lets -underBinder +onlyGivenNames x; (refine (fun (hx : Keep s0 x) => ?_) ?_); (on_goal 1 => try clear_value x); (on_goal 2 => (unfold x; clear x))) | (extract_lets -underBinder +onlyGivenNames x; try clear_value x))

theorem execBflSave_keep {s0 s : State} (h : Keep s0 s) (q : Nat) : ∃ t1, (execBflSave q s) = .next t1 ∧ Keep s0 t1 := by
  unfold execBflSave
  refine ⟨_, rfl, ?_⟩
  repeat' (with_reducible first | assumption | exact Keep.refl _ | apply State.bflSave_keep)

theorem State.bflForget_keep {s0 s : State} (h : Keep s0 s) (q : Nat) : Keep s0 (State.bflForget s q) := by
  unfold State.bflForget
  repeat' (with_reducible first | assumption | intro _ | exact Keep.refl _ | apply State.raise_keep | apply State.finishCmd_keep | apply State.blockCmd_keep | fail_if_no_progress (refine Keep.mk' ?_ rfl) | (extract_lets -underBinder +onlyGivenNames x; (refine (fun (hx : Keep s0 x) => ?_) ?_); (on_goal 1 => try clear_value x); (on_goal 2 => (unfold x; clear x))) | (extract_lets -underBinder +onlyGivenNames x; try clear_value x))

theorem execBflForget_keep {s0 s : State} (h : Keep s0 s) (q : Nat) : ∃ t1, (execBflForget q s) = .next t1 ∧ Keep s0 t1 := by
  unfold execBflForget
  refine ⟨_, rfl, ?_⟩
  repeat' (with_reducible first | assumption | exact Keep.refl _ | apply State.bflForget_keep)

theorem State.trialExpired_keep {s0 s : State} (h : Keep s0 s)  : Keep s0 (State.trialExpired s) := by
  unfold State.trialExpired
  repeat' (with_reducible first | assumption | exact Keep.refl _ | apply State.upTo_keep | apply State.emberStop_keep | apply State.deviceReset_keep | apply State.revert_keep | fail_if_no_progress (refine Keep.mk' ?_ rfl) | (extract_lets -underBinder +onlyGivenNames x; (refine (fun (hx : Keep s0 x) => ?_) ?_); (on_goal 1 => try clear_value x); (on_goal 2 => (unfold x; clear x))) | (extract_lets -underBinder +onlyGivenNames x; try clear_value x) | split)

theorem execTrialWatchdog_keep {s0 s : State} (h : Keep s0 s)  : ∃ t1, (execTrialWatchdog s) = .next t1 ∧ Keep s0 t1 := by
  unfold execTrialWatchdog
  refine ⟨_, rfl, ?_⟩
  repeat' (with_reducible first | assumption | exact Keep.refl _ | apply State.trialExpired_keep)

theorem State.coreExpired_keep {s0 s : State} (h : Keep s0 s)  : Keep s0 (State.coreExpired s) := by
  unfold State.coreExpired
  repeat' (with_reducible first | assumption | exact Keep.refl _ | apply State.upTo_keep | apply State.emberStop_keep | apply State.deviceReset_keep | (extract_lets -underBinder +onlyGivenNames x; (refine (fun (hx : Keep s0 x) => ?_) ?_); (on_goal 1 => try clear_value x); (on_goal 2 => (unfold x; clear x))) | (extract_lets -underBinder +onlyGivenNames x; try clear_value x) | split)

theorem execCoreWatchdog_keep {s0 s : State} (h : Keep s0 s)  : ∃ t1, (execCoreWatchdog s) = .next t1 ∧ Keep s0 t1 := by
  unfold execCoreWatchdog
  refine ⟨_, rfl, ?_⟩
  repeat' (with_reducible first | assumption | exact Keep.refl _ | apply State.coreExpired_keep)

end Sys2Proof.Machine
end

