-- ==== Sys2Proof/Laws/KeepControl.lean ====
section
/-! SUPPORT. What the operations of Machine/Control.lean keep (Keep). -/

set_option linter.unreachableTactic false
set_option linter.unusedTactic false
set_option linter.unusedVariables false

namespace Sys2Proof.Machine

theorem State.setCore_keep {s0 s : State} (h : Keep s0 s) (off k v : Nat) : Keep s0 (State.setCore s off k v) := by
  unfold State.setCore
  repeat' (with_reducible first | assumption | exact Keep.refl _ | apply State.setReg_keep)

theorem State.moveRole_keep {s0 s : State} (h : Keep s0 s) (role : Nat) : Keep s0 (State.moveRole s role) := by
  unfold State.moveRole
  repeat' (with_reducible first | assumption | exact Keep.refl _ | apply State.raise_keep | apply State.setCore_keep | fail_if_no_progress (refine Keep.mk' ?_ rfl) | (extract_lets -underBinder +onlyGivenNames x; (refine (fun (hx : Keep s0 x) => ?_) ?_); (on_goal 1 => try clear_value x); (on_goal 2 => (unfold x; clear x))) | (extract_lets -underBinder +onlyGivenNames x; try clear_value x) | split)

theorem State.spFault_keep {s0 s : State} (h : Keep s0 s) (cause m addr : Nat) : Keep s0 (State.spFault s cause m addr) := by
  unfold State.spFault
  repeat' (with_reducible first | assumption | exact Keep.refl _ | apply State.setReg_keep)

theorem State.spAccess_keep {s0 s : State} (h : Keep s0 s) (m addr : Nat) (k : SpKind) : Keep s0 (State.spAccess s m addr k).1 := by
  unfold State.spAccess
  repeat' (with_reducible first | assumption | exact Keep.refl _ | apply State.raiseArg_keep | apply State.put_keep | apply State.spFault_keep | fail_if_no_progress (refine Keep.mk' ?_ rfl) | (extract_lets -underBinder +onlyGivenNames x; (refine (fun (hx : Keep s0 x) => ?_) ?_); (on_goal 1 => try clear_value x); (on_goal 2 => (unfold x; clear x))) | (extract_lets -underBinder +onlyGivenNames x; (refine (fun (hx : Keep s0 x.1) => ?_) ?_); (on_goal 1 => try clear_value x); (on_goal 2 => (unfold x; clear x))) | (extract_lets -underBinder +onlyGivenNames x; have hf := fun z => x z) | (extract_lets -underBinder +onlyGivenNames x; try clear_value x) | split)

theorem State.coreStops_keep {s0 s : State} (h : Keep s0 s) (k : Nat) : Keep s0 (State.coreStops s k) := by
  unfold State.coreStops
  repeat' (with_reducible first | assumption | exact Keep.refl _ | apply State.raise_keep | apply State.setCore_keep | apply State.moveRole_keep | fail_if_no_progress (refine Keep.mk' ?_ rfl) | (extract_lets -underBinder +onlyGivenNames x; (refine (fun (hx : Keep s0 x) => ?_) ?_); (on_goal 1 => try clear_value x); (on_goal 2 => (unfold x; clear x))) | (extract_lets -underBinder +onlyGivenNames x; try clear_value x) | split)

theorem State.spPerform_keep {s0 s : State} (h : Keep s0 s) (k addr : Nat) (a : SpKind) : Keep s0 (State.spPerform s k addr a) := by
  unfold State.spPerform
  repeat' (with_reducible first | assumption | exact Keep.refl _ | apply State.put_keep | apply State.spAccess_keep | apply State.coreStops_keep | fail_if_no_progress (refine Keep.mk' ?_ rfl) | refine Keep.of_fst (by assumption) ?_ | (extract_lets -underBinder +onlyGivenNames x; (refine (fun (hx : Keep s0 x) => ?_) ?_); (on_goal 1 => try clear_value x); (on_goal 2 => (unfold x; clear x))) | (extract_lets -underBinder +onlyGivenNames x; (refine (fun (hx : Keep s0 x.1) => ?_) ?_); (on_goal 1 => try clear_value x); (on_goal 2 => (unfold x; clear x))) | (extract_lets -underBinder +onlyGivenNames x; try clear_value x) | split)

theorem State.spHold_keep {s0 s : State} (h : Keep s0 s) (k addr : Nat) (a : SpKind) : Keep s0 (State.spHold s k addr a) := by
  unfold State.spHold
  repeat' (with_reducible first | assumption | exact Keep.refl _ | apply State.satInc_keep | apply State.setBank_keep | fail_if_no_progress (refine Keep.mk' ?_ rfl) | (extract_lets -underBinder +onlyGivenNames x; (refine (fun (hx : Keep s0 x) => ?_) ?_); (on_goal 1 => try clear_value x); (on_goal 2 => (unfold x; clear x))) | (extract_lets -underBinder +onlyGivenNames x; try clear_value x) | split)

theorem State.spGo_keep {s0 s : State} (h : Keep s0 s) (b : Nat) : Keep s0 (State.spGo s b) := by
  unfold State.spGo
  repeat' (with_reducible first | assumption | exact Keep.refl _ | apply State.spPerform_keep | apply Keep.foldl | intro _ | fail_if_no_progress (refine Keep.mk' ?_ rfl) | (extract_lets -underBinder +onlyGivenNames x; (refine (fun (hx : Keep s0 x) => ?_) ?_); (on_goal 1 => try clear_value x); (on_goal 2 => (unfold x; clear x))) | (extract_lets -underBinder +onlyGivenNames x; try clear_value x))

theorem State.coreHalted_keep {s0 s : State} (h : Keep s0 s) (k : Nat) (cause : CoreCause) (addr : Nat) : Keep s0 (State.coreHalted s k cause addr) := by
  unfold State.coreHalted
  repeat' (with_reducible first | assumption | exact Keep.refl _ | apply State.satInc_keep | apply State.raiseArg_keep | apply State.spFault_keep | apply State.coreStops_keep | apply State.spPerform_keep | apply State.spHold_keep | fail_if_no_progress (refine Keep.mk' ?_ rfl) | (extract_lets -underBinder +onlyGivenNames x; (refine (fun (hx : Keep s0 x) => ?_) ?_); (on_goal 1 => try clear_value x); (on_goal 2 => (unfold x; clear x))) | (extract_lets -underBinder +onlyGivenNames x; try clear_value x) | split)

theorem execCoreHalted_keep {s0 s : State} (h : Keep s0 s) (core : Nat) (cause : CoreCause) (addr : Nat) : ∃ t1, (execCoreHalted core cause addr s) = .next t1 ∧ Keep s0 t1 := by
  unfold execCoreHalted
  refine ⟨_, rfl, ?_⟩
  repeat' (with_reducible first | assumption | exact Keep.refl _ | apply State.coreHalted_keep)

theorem State.marchSegment_keep {s0 s : State} (h : Keep s0 s) (b : Nat) : Keep s0 (State.marchSegment s b) := by
  unfold State.marchSegment
  repeat' (with_reducible first | assumption | exact Keep.refl _ | apply State.wr_keep | apply State.spGo_keep | fail_if_no_progress (refine Keep.mk' ?_ rfl) | (extract_lets -underBinder +onlyGivenNames x; (refine (fun (hx : Keep s0 x) => ?_) ?_); (on_goal 1 => try clear_value x); (on_goal 2 => (unfold x; clear x))) | (extract_lets -underBinder +onlyGivenNames x; try clear_value x) | split)

theorem execMarchSegmentDone_keep {s0 s : State} (h : Keep s0 s) (bank : Nat) : ∃ t1, (execMarchSegmentDone bank s) = .next t1 ∧ Keep s0 t1 := by
  unfold execMarchSegmentDone
  refine ⟨_, rfl, ?_⟩
  repeat' (with_reducible first | assumption | exact Keep.refl _ | apply State.marchSegment_keep)

theorem State.regionsOff_keep {s0 s : State} (h : Keep s0 s) (b : Nat) : Keep s0 (State.regionsOff s b) := by
  unfold State.regionsOff
  repeat' (with_reducible first | assumption | exact Keep.refl _ | apply State.wr_keep | apply Keep.foldl | intro _ | split)

theorem State.marchEnd_keep {s0 s : State} (h : Keep s0 s) (b : Nat) (fault : Bool) : Keep s0 (State.marchEnd s b fault) := by
  unfold State.marchEnd
  repeat' (with_reducible first | assumption | exact Keep.refl _ | apply State.wr_keep | apply State.raise_keep | apply State.raiseIf_keep | apply State.setBank_keep | apply State.spGo_keep | apply State.regionsOff_keep | fail_if_no_progress (refine Keep.mk' ?_ rfl) | (extract_lets -underBinder +onlyGivenNames x; (refine (fun (hx : Keep s0 x) => ?_) ?_); (on_goal 1 => try clear_value x); (on_goal 2 => (unfold x; clear x))) | (extract_lets -underBinder +onlyGivenNames x; try clear_value x) | split)

theorem execMarchDone_keep {s0 s : State} (h : Keep s0 s) (bank : Nat) (fault : Bool) : ∃ t1, (execMarchDone bank fault s) = .next t1 ∧ Keep s0 t1 := by
  unfold execMarchDone
  refine ⟨_, rfl, ?_⟩
  repeat' (with_reducible first | assumption | exact Keep.refl _ | apply State.marchEnd_keep)

theorem State.retEntry_keep {s0 s : State} (h : Keep s0 s) (b : Nat) : Keep s0 (State.retEntry s b) := by
  unfold State.retEntry
  repeat' (with_reducible first | assumption | exact Keep.refl _ | apply State.upTo_keep | apply State.setBank_keep | split)

theorem execRetentionEntry_keep {s0 s : State} (h : Keep s0 s) (bank : Nat) : ∃ t1, (execRetentionEntry bank s) = .next t1 ∧ Keep s0 t1 := by
  unfold execRetentionEntry
  refine ⟨_, rfl, ?_⟩
  repeat' (with_reducible first | assumption | exact Keep.refl _ | apply State.retEntry_keep)

theorem State.retWake_keep {s0 s : State} (h : Keep s0 s) (b : Nat) : Keep s0 (State.retWake s b) := by
  unfold State.retWake
  repeat' (with_reducible first | assumption | exact Keep.refl _ | apply State.satInc_keep | apply State.setBank_keep | apply State.spGo_keep | (extract_lets -underBinder +onlyGivenNames x; (refine (fun (hx : Keep s0 x) => ?_) ?_); (on_goal 1 => try clear_value x); (on_goal 2 => (unfold x; clear x))) | (extract_lets -underBinder +onlyGivenNames x; try clear_value x) | split)

theorem execRetentionWake_keep {s0 s : State} (h : Keep s0 s) (bank : Nat) : ∃ t1, (execRetentionWake bank s) = .next t1 ∧ Keep s0 t1 := by
  unfold execRetentionWake
  refine ⟨_, rfl, ?_⟩
  repeat' (with_reducible first | assumption | exact Keep.refl _ | apply State.retWake_keep)

theorem State.spiErr_keep {s0 s : State} (h : Keep s0 s) (f : Fld) (ev : Bool) : Keep s0 (State.spiErr s f ev) := by
  unfold State.spiErr
  repeat' (with_reducible first | assumption | exact Keep.refl _ | apply State.wr_keep | apply State.raiseIf_keep)

theorem State.spiExtra_keep {s0 s : State} (h : Keep s0 s) (extra : Bool) : Keep s0 (State.spiExtra s extra) := by
  unfold State.spiExtra
  repeat' (with_reducible first | assumption | exact Keep.refl _ | apply State.satInc_keep | apply State.spiErr_keep | split)

theorem State.spiWrite_keep {s0 s : State} (h : Keep s0 s) (cmd : BitVec 32) (value : Word64) (extra : Bool) : Keep s0 (State.spiWrite s cmd value extra) := by
  unfold State.spiWrite
  repeat' (with_reducible first | assumption | exact Keep.refl _ | apply State.settle_keep | apply State.busWrite_keep | apply State.spiErr_keep | apply State.spiExtra_keep | (extract_lets -underBinder +onlyGivenNames x; (refine (fun (hx : Keep s0 x) => ?_) ?_); (on_goal 1 => try clear_value x); (on_goal 2 => (unfold x; clear x))) | (extract_lets -underBinder +onlyGivenNames x; try clear_value x) | split)

theorem execSpiWrite_keep {s0 s : State} (h : Keep s0 s) (cmd : BitVec 32) (value : Word64) (extraEdges : Bool) : ∃ t1, (execSpiWrite cmd value extraEdges s) = .next t1 ∧ Keep s0 t1 := by
  unfold execSpiWrite
  refine ⟨_, rfl, ?_⟩
  repeat' (with_reducible first | assumption | exact Keep.refl _ | apply State.spiWrite_keep)

theorem State.spiRead_keep {s0 s : State} (h : Keep s0 s) (cmd : BitVec 32) (onTime extra : Bool) : Keep s0 (State.spiRead s cmd onTime extra) := by
  unfold State.spiRead
  repeat' (with_reducible first | assumption | exact Keep.refl _ | apply State.emit_keep | apply State.busRead_keep | apply State.spiErr_keep | apply State.spiExtra_keep | refine Keep.of_snd (by assumption) ?_ | (extract_lets -underBinder +onlyGivenNames x; (refine (fun (hx : Keep s0 x) => ?_) ?_); (on_goal 1 => try clear_value x); (on_goal 2 => (unfold x; clear x))) | (extract_lets -underBinder +onlyGivenNames x; (refine (fun (hx : Keep s0 x.2) => ?_) ?_); (on_goal 1 => try clear_value x); (on_goal 2 => (unfold x; clear x))) | (extract_lets -underBinder +onlyGivenNames x; try clear_value x) | split)

theorem execSpiRead_keep {s0 s : State} (h : Keep s0 s) (cmd : BitVec 32) (onTime extraEdges : Bool) : ∃ t1, (execSpiRead cmd onTime extraEdges s) = .next t1 ∧ Keep s0 t1 := by
  unfold execSpiRead
  refine ⟨_, rfl, ?_⟩
  repeat' (with_reducible first | assumption | exact Keep.refl _ | apply State.spiRead_keep)

theorem execSpiSelectRelease_keep {s0 s : State} (h : Keep s0 s)  : ∃ t1, (execSpiSelectRelease s) = .next t1 ∧ Keep s0 t1 := by
  unfold execSpiSelectRelease
  refine ⟨_, rfl, ?_⟩
  repeat' (with_reducible first | assumption | exact Keep.refl _ | apply State.satInc_keep | apply State.spiErr_keep)

theorem State.smbErr_keep {s0 s : State} (h : Keep s0 s) (f : Fld) : Keep s0 (State.smbErr s f) := by
  unfold State.smbErr
  repeat' (with_reducible first | assumption | exact Keep.refl _ | apply State.wr_keep | apply State.satInc_keep | apply State.raiseIf_keep)

theorem State.smbOffset_keep {s0 s : State} (h : Keep s0 s) (bs : List Byte) (pecOk : Bool) : Keep s0 (State.smbOffset s bs pecOk) := by
  unfold State.smbOffset
  repeat' (with_reducible first | assumption | exact Keep.refl _ | apply State.smbErr_keep | fail_if_no_progress (refine Keep.mk' ?_ rfl) | (extract_lets -underBinder +onlyGivenNames x; (refine (fun (hx : Keep s0 x) => ?_) ?_); (on_goal 1 => try clear_value x); (on_goal 2 => (unfold x; clear x))) | (extract_lets -underBinder +onlyGivenNames x; try clear_value x) | split)

theorem execSetOffset_keep {s0 s : State} (h : Keep s0 s) (bytes : List Byte) (pecOk : Bool) : ∃ t1, (execSetOffset bytes pecOk s) = .next t1 ∧ Keep s0 t1 := by
  unfold execSetOffset
  refine ⟨_, rfl, ?_⟩
  repeat' (with_reducible first | assumption | exact Keep.refl _ | apply State.smbOffset_keep)

theorem State.smbRead_keep {s0 s : State} (h : Keep s0 s) (n : Nat) : Keep s0 (State.smbRead s n) := by
  unfold State.smbRead
  repeat' (with_reducible first | assumption | exact Keep.refl _ | apply State.emit_keep | apply State.busRead_keep | apply State.smbErr_keep | refine Keep.of_snd (by assumption) ?_ | (extract_lets -underBinder +onlyGivenNames x; (refine (fun (hx : Keep s0 x) => ?_) ?_); (on_goal 1 => try clear_value x); (on_goal 2 => (unfold x; clear x))) | (extract_lets -underBinder +onlyGivenNames x; (refine (fun (hx : Keep s0 x.2) => ?_) ?_); (on_goal 1 => try clear_value x); (on_goal 2 => (unfold x; clear x))) | (extract_lets -underBinder +onlyGivenNames x; try clear_value x) | split)

theorem execRead_keep {s0 s : State} (h : Keep s0 s) (bytes : Nat) : ∃ t1, (execRead bytes s) = .next t1 ∧ Keep s0 t1 := by
  unfold execRead
  refine ⟨_, rfl, ?_⟩
  repeat' (with_reducible first | assumption | exact Keep.refl _ | apply State.smbRead_keep)

theorem State.smbWrite_keep {s0 s : State} (h : Keep s0 s) (bs : List Byte) (pecOk : Bool) : Keep s0 (State.smbWrite s bs pecOk) := by
  unfold State.smbWrite
  repeat' (with_reducible first | assumption | exact Keep.refl _ | apply State.settle_keep | apply State.busWrite_keep | apply State.smbErr_keep | (extract_lets -underBinder +onlyGivenNames x; (refine (fun (hx : Keep s0 x) => ?_) ?_); (on_goal 1 => try clear_value x); (on_goal 2 => (unfold x; clear x))) | (extract_lets -underBinder +onlyGivenNames x; try clear_value x) | split)

theorem execWrite_keep {s0 s : State} (h : Keep s0 s) (bytes : List Byte) (pecOk : Bool) : ∃ t1, (execWrite bytes pecOk s) = .next t1 ∧ Keep s0 t1 := by
  unfold execWrite
  refine ⟨_, rfl, ?_⟩
  repeat' (with_reducible first | assumption | exact Keep.refl _ | apply State.smbWrite_keep)

theorem execSmbusTimeout_keep {s0 s : State} (h : Keep s0 s)  : ∃ t1, (execSmbusTimeout s) = .next t1 ∧ Keep s0 t1 := by
  unfold execSmbusTimeout
  refine ⟨_, rfl, ?_⟩
  repeat' (with_reducible first | assumption | exact Keep.refl _ | apply State.smbErr_keep)

theorem State.i3cIbi_keep {s0 s : State} (h : Keep s0 s) (d : Nat) : Keep s0 (State.i3cIbi s d) := by
  unfold State.i3cIbi
  repeat' (with_reducible first | assumption | exact Keep.refl _ | apply State.takeFree_keep | apply State.put_keep | fail_if_no_progress (refine Keep.mk' ?_ rfl) | refine Keep.of_snd (by assumption) ?_ | (extract_lets -underBinder +onlyGivenNames x; (refine (fun (hx : Keep s0 x) => ?_) ?_); (on_goal 1 => try clear_value x); (on_goal 2 => (unfold x; clear x))) | (extract_lets -underBinder +onlyGivenNames x; (refine (fun (hx : Keep s0 x.2) => ?_) ?_); (on_goal 1 => try clear_value x); (on_goal 2 => (unfold x; clear x))) | (extract_lets -underBinder +onlyGivenNames x; try clear_value x) | split)

theorem execI3cIbi_keep {s0 s : State} (h : Keep s0 s) (device : Nat) : ∃ t1, (execI3cIbi device s) = .next t1 ∧ Keep s0 t1 := by
  unfold execI3cIbi
  refine ⟨_, rfl, ?_⟩
  repeat' (with_reducible first | assumption | exact Keep.refl _ | apply State.i3cIbi_keep)

theorem State.jtag_keep {s0 s : State} (h : Keep s0 s) (i : JtagInstr) : Keep s0 (State.jtag s i) := by
  unfold State.jtag
  repeat' (with_reducible first | assumption | exact Keep.refl _ | apply State.wr_keep | apply State.emit_keep | apply State.raise_keep | (extract_lets -underBinder +onlyGivenNames x; (refine (fun (hx : Keep s0 x) => ?_) ?_); (on_goal 1 => try clear_value x); (on_goal 2 => (unfold x; clear x))) | (extract_lets -underBinder +onlyGivenNames x; try clear_value x) | split)

theorem execJtagInstruction_keep {s0 s : State} (h : Keep s0 s) (i : JtagInstr) : ∃ t1, (execJtagInstruction i s) = .next t1 ∧ Keep s0 t1 := by
  unfold execJtagInstruction
  refine ⟨_, rfl, ?_⟩
  repeat' (with_reducible first | assumption | exact Keep.refl _ | apply State.jtag_keep)

theorem State.pcieOn_keep {s0 s : State} (h : Keep s0 s) (gen width : Nat) : Keep s0 (State.pcieOn s gen width) := by
  unfold State.pcieOn
  repeat' (with_reducible first | assumption | exact Keep.refl _ | apply State.wr_keep | apply State.raiseIf_keep | apply State.msixFlush_keep | fail_if_no_progress (refine Keep.mk' ?_ rfl) | (extract_lets -underBinder +onlyGivenNames x; (refine (fun (hx : Keep s0 x) => ?_) ?_); (on_goal 1 => try clear_value x); (on_goal 2 => (unfold x; clear x))) | (extract_lets -underBinder +onlyGivenNames x; try clear_value x) | split)

theorem execPcieLinkUp_keep {s0 s : State} (h : Keep s0 s) (gen width : Nat) : ∃ t1, (execPcieLinkUp gen width s) = .next t1 ∧ Keep s0 t1 := by
  unfold execPcieLinkUp
  refine ⟨_, rfl, ?_⟩
  repeat' (with_reducible first | assumption | exact Keep.refl _ | apply State.pcieOn_keep)

theorem execPcieDown_keep {s0 s : State} (h : Keep s0 s)  : ∃ t1, (execPcieDown s) = .next t1 ∧ Keep s0 t1 := by
  unfold execPcieDown
  refine ⟨_, rfl, ?_⟩
  repeat' (with_reducible first | assumption | exact Keep.refl _ | apply State.raise_keep | apply State.pcieLost_keep | split)

end Sys2Proof.Machine
end

