-- ==== Sys2Proof/Laws/KeepIdle.lean ====
section
/-! SUPPORT. What the operations of Machine/Idle.lean keep (Keep). -/

set_option linter.unreachableTactic false
set_option linter.unusedTactic false
set_option linter.unusedVariables false

namespace Sys2Proof.Machine

theorem State.fabricCount_keep {s0 s : State} (h : Keep s0 s)  : Keep s0 (State.fabricCount s) := by
  unfold State.fabricCount
  repeat' (with_reducible first | assumption | exact Keep.refl _ | apply State.takeFree_keep | apply Keep.foldl | apply Keep.foldl_fst | apply Keep.foldl_snd | intro _ | fail_if_no_progress (refine Keep.mk' ?_ rfl) | refine Keep.of_snd (by assumption) ?_ | (extract_lets -underBinder +onlyGivenNames x; (refine (fun (hx : Keep s0 x) => ?_) ?_); (on_goal 1 => try clear_value x); (on_goal 2 => (unfold x; clear x))) | (extract_lets -underBinder +onlyGivenNames x; (refine (fun (hx : Keep s0 x.2) => ?_) ?_); (on_goal 1 => try clear_value x); (on_goal 2 => (unfold x; clear x))) | (extract_lets -underBinder +onlyGivenNames x; try clear_value x) | split)

theorem State.idle_keep {s0 s : State} (h : Keep s0 s)  : Keep s0 (State.idle s) := by
  unfold State.idle
  repeat' (with_reducible first | assumption | exact Keep.refl _ | apply State.advanceBy_keep | apply State.banksGo_keep | apply State.fabricCount_keep)

end Sys2Proof.Machine
end

