-- ==== Sys2Proof/Laws/KeepObserve.lean ====
section
/-! SUPPORT. What the operations of Machine/Observe.lean keep (Keep). -/

set_option linter.unreachableTactic false
set_option linter.unusedTactic false
set_option linter.unusedVariables false

namespace Sys2Proof.Machine

theorem execEventRecord_keep {s0 s : State} (h : Keep s0 s)  : ∃ t1, (execEventRecord s) = .next t1 ∧ Keep s0 t1 := by
  unfold execEventRecord
  refine ⟨_, rfl, ?_⟩
  repeat' (with_reducible first | assumption | exact Keep.refl _ | apply State.takeEvent_keep)

theorem State.recordClose_keep {s0 s : State} (h : Keep s0 s)  : Keep s0 (State.recordClose s) := by
  unfold State.recordClose
  repeat' (with_reducible first | assumption | exact Keep.refl _ | apply State.upTo_keep | apply Keep.foldl | intro _ | fail_if_no_progress (refine Keep.mk' ?_ rfl) | (extract_lets -underBinder +onlyGivenNames x; (refine (fun (hx : Keep s0 x) => ?_) ?_); (on_goal 1 => try clear_value x); (on_goal 2 => (unfold x; clear x))) | exact KeepO.get (by assumption) rfl | exact KeepO.none | apply KeepO.some | (apply KeepO.map; intro _) | (extract_lets -underBinder +onlyGivenNames x; (refine (fun (hx : KeepO s0 x) => ?_) ?_); (on_goal 1 => try clear_value x); (on_goal 2 => (unfold x; clear x))) | (extract_lets -underBinder +onlyGivenNames x; try clear_value x) | split)

theorem execRecordClose_keep {s0 s : State} (h : Keep s0 s)  : ∃ t1, (execRecordClose s) = .next t1 ∧ Keep s0 t1 := by
  unfold execRecordClose
  refine ⟨_, rfl, ?_⟩
  repeat' (with_reducible first | assumption | exact Keep.refl _ | apply State.recordClose_keep)

theorem State.freezeExpired_keep {s0 s : State} (h : Keep s0 s)  : Keep s0 (State.freezeExpired s) := by
  unfold State.freezeExpired
  repeat' (with_reducible first | assumption | exact Keep.refl _ | apply State.raise_keep | apply State.upTo_keep | apply State.freezeOff_keep | fail_if_no_progress (refine Keep.mk' ?_ rfl) | (extract_lets -underBinder +onlyGivenNames x; (refine (fun (hx : Keep s0 x) => ?_) ?_); (on_goal 1 => try clear_value x); (on_goal 2 => (unfold x; clear x))) | (extract_lets -underBinder +onlyGivenNames x; try clear_value x) | split)

theorem execFreezeExpired_keep {s0 s : State} (h : Keep s0 s)  : ∃ t1, (execFreezeExpired s) = .next t1 ∧ Keep s0 t1 := by
  unfold execFreezeExpired
  refine ⟨_, rfl, ?_⟩
  repeat' (with_reducible first | assumption | exact Keep.refl _ | apply State.freezeExpired_keep)

theorem State.expPut_keep {s0 s : State} (h : Keep s0 s) (r : EvRec) : Keep s0 (State.expPut s r) := by
  unfold State.expPut
  repeat' (with_reducible first | assumption | exact Keep.refl _ | apply State.wr_keep | apply State.emit_keep | (extract_lets -underBinder +onlyGivenNames x; (refine (fun (hx : Keep s0 x) => ?_) ?_); (on_goal 1 => try clear_value x); (on_goal 2 => (unfold x; clear x))) | (extract_lets -underBinder +onlyGivenNames x; try clear_value x))

theorem expRun_keep {s0 : State}  : ∀ (a0 : List EvRec) (a1 : State) (a2 : Bool), Keep s0 a1 → Keep s0 (expRun a0 a1 a2).1 := by
  intro  a0
  induction a0 with
  | nil =>
    intro a1 a2 h
    first | rw [expRun] | unfold expRun
    repeat' (with_reducible first | assumption | exact Keep.refl _ | apply State.expPut_keep | fail_if_no_progress (refine Keep.mk' ?_ rfl) | (extract_lets -underBinder +onlyGivenNames x; (refine (fun (hx : Keep s0 x) => ?_) ?_); (on_goal 1 => try clear_value x); (on_goal 2 => (unfold x; clear x))) | (extract_lets -underBinder +onlyGivenNames x; (refine (fun (hx : Keep s0 x.1) => ?_) ?_); (on_goal 1 => try clear_value x); (on_goal 2 => (unfold x; clear x))) | (extract_lets -underBinder +onlyGivenNames x; try clear_value x) | split)
  | cons x xs ih =>
    intro a1 a2 h
    first | rw [expRun] | unfold expRun
    repeat' (with_reducible first | assumption | apply ih | exact Keep.refl _ | apply State.expPut_keep | fail_if_no_progress (refine Keep.mk' ?_ rfl) | (extract_lets -underBinder +onlyGivenNames x; (refine (fun (hx : Keep s0 x) => ?_) ?_); (on_goal 1 => try clear_value x); (on_goal 2 => (unfold x; clear x))) | (extract_lets -underBinder +onlyGivenNames x; (refine (fun (hx : Keep s0 x.1) => ?_) ?_); (on_goal 1 => try clear_value x); (on_goal 2 => (unfold x; clear x))) | (extract_lets -underBinder +onlyGivenNames x; try clear_value x) | split)

theorem State.eventExport_keep {s0 s : State} (h : Keep s0 s)  : Keep s0 (State.eventExport s) := by
  unfold State.eventExport
  repeat' (with_reducible first | assumption | exact Keep.refl _ | apply State.msix_keep | apply State.upTo_keep | apply expRun_keep | fail_if_no_progress (refine Keep.mk' ?_ rfl) | refine Keep.of_fst (by assumption) ?_ | (extract_lets -underBinder +onlyGivenNames x; (refine (fun (hx : Keep s0 x) => ?_) ?_); (on_goal 1 => try clear_value x); (on_goal 2 => (unfold x; clear x))) | exact KeepO.get (by assumption) rfl | exact KeepO.none | apply KeepO.some | (apply KeepO.map; intro _) | (extract_lets -underBinder +onlyGivenNames x; (refine (fun (hx : KeepO s0 x) => ?_) ?_); (on_goal 1 => try clear_value x); (on_goal 2 => (unfold x; clear x))) | (extract_lets -underBinder +onlyGivenNames x; (refine (fun (hx : Keep s0 x.1) => ?_) ?_); (on_goal 1 => try clear_value x); (on_goal 2 => (unfold x; clear x))) | (extract_lets -underBinder +onlyGivenNames x; try clear_value x) | split)

theorem execEventExport_keep {s0 s : State} (h : Keep s0 s)  : ∃ t1, (execEventExport s) = .next t1 ∧ Keep s0 t1 := by
  unfold execEventExport
  refine ⟨_, rfl, ?_⟩
  repeat' (with_reducible first | assumption | exact Keep.refl _ | apply State.eventExport_keep)

theorem smpExpRun_keep {s0 : State}  : ∀ (a0 : List (List Word64)) (a1 : State) (a2 : Bool), Keep s0 a1 → Keep s0 (smpExpRun a0 a1 a2).1 := by
  intro  a0
  induction a0 with
  | nil =>
    intro a1 a2 h
    first | rw [smpExpRun] | unfold smpExpRun
    repeat' (with_reducible first | assumption | exact Keep.refl _ | apply State.wr_keep | apply State.emit_keep | apply State.askIn_keep | fail_if_no_progress (refine Keep.mk' ?_ rfl) | (extract_lets -underBinder +onlyGivenNames x; (refine (fun (hx : Keep s0 x) => ?_) ?_); (on_goal 1 => try clear_value x); (on_goal 2 => (unfold x; clear x))) | (extract_lets -underBinder +onlyGivenNames x; (refine (fun (hx : Keep s0 x.1) => ?_) ?_); (on_goal 1 => try clear_value x); (on_goal 2 => (unfold x; clear x))) | (extract_lets -underBinder +onlyGivenNames x; try clear_value x) | split)
  | cons x xs ih =>
    intro a1 a2 h
    first | rw [smpExpRun] | unfold smpExpRun
    repeat' (with_reducible first | assumption | apply ih | exact Keep.refl _ | apply State.wr_keep | apply State.emit_keep | apply State.askIn_keep | fail_if_no_progress (refine Keep.mk' ?_ rfl) | (extract_lets -underBinder +onlyGivenNames x; (refine (fun (hx : Keep s0 x) => ?_) ?_); (on_goal 1 => try clear_value x); (on_goal 2 => (unfold x; clear x))) | (extract_lets -underBinder +onlyGivenNames x; (refine (fun (hx : Keep s0 x.1) => ?_) ?_); (on_goal 1 => try clear_value x); (on_goal 2 => (unfold x; clear x))) | (extract_lets -underBinder +onlyGivenNames x; try clear_value x) | split)

theorem State.smpStallCheck_keep {s0 s : State} (h : Keep s0 s)  : Keep s0 (State.smpStallCheck s) := by
  unfold State.smpStallCheck
  repeat' (with_reducible first | assumption | exact Keep.refl _ | apply State.raise_keep | fail_if_no_progress (refine Keep.mk' ?_ rfl) | (extract_lets -underBinder +onlyGivenNames x; (refine (fun (hx : Keep s0 x) => ?_) ?_); (on_goal 1 => try clear_value x); (on_goal 2 => (unfold x; clear x))) | (extract_lets -underBinder +onlyGivenNames x; try clear_value x) | split)

theorem State.sampleExport_keep {s0 s : State} (h : Keep s0 s)  : Keep s0 (State.sampleExport s) := by
  unfold State.sampleExport
  repeat' (with_reducible first | assumption | exact Keep.refl _ | apply State.msix_keep | apply State.upTo_keep | apply smpExpRun_keep | apply State.smpStallCheck_keep | fail_if_no_progress (refine Keep.mk' ?_ rfl) | refine Keep.of_fst (by assumption) ?_ | (extract_lets -underBinder +onlyGivenNames x; (refine (fun (hx : Keep s0 x) => ?_) ?_); (on_goal 1 => try clear_value x); (on_goal 2 => (unfold x; clear x))) | (extract_lets -underBinder +onlyGivenNames x; (refine (fun (hx : Keep s0 x.1) => ?_) ?_); (on_goal 1 => try clear_value x); (on_goal 2 => (unfold x; clear x))) | (extract_lets -underBinder +onlyGivenNames x; try clear_value x) | split)

theorem execSampleExport_keep {s0 s : State} (h : Keep s0 s)  : ∃ t1, (execSampleExport s) = .next t1 ∧ Keep s0 t1 := by
  unfold execSampleExport
  refine ⟨_, rfl, ?_⟩
  repeat' (with_reducible first | assumption | exact Keep.refl _ | apply State.sampleExport_keep)

theorem State.evrEmberRead_keep {s0 s : State} (h : Keep s0 s) (q : Nat) : Keep s0 (State.evrEmberRead s q) := by
  unfold State.evrEmberRead
  repeat' (with_reducible first | assumption | intro _ | exact Keep.refl _ | apply State.emit_keep | apply State.finishCmd_keep | apply State.blockCmd_keep | (extract_lets -underBinder +onlyGivenNames x; (refine (fun (hx : Keep s0 x) => ?_) ?_); (on_goal 1 => try clear_value x); (on_goal 2 => (unfold x; clear x))) | (extract_lets -underBinder +onlyGivenNames x; try clear_value x) | split)

theorem execEvrEmberRead_keep {s0 s : State} (h : Keep s0 s) (q : Nat) : ∃ t1, (execEvrEmberRead q s) = .next t1 ∧ Keep s0 t1 := by
  unfold execEvrEmberRead
  refine ⟨_, rfl, ?_⟩
  repeat' (with_reducible first | assumption | exact Keep.refl _ | apply State.evrEmberRead_keep)

end Sys2Proof.Machine
end

