-- ==== Sys2Proof/Laws/KeepTables.lean ====
section
/-! SUPPORT. What the operations of Machine/Tables.lean keep (Keep). -/

set_option linter.unreachableTactic false
set_option linter.unusedTactic false
set_option linter.unusedVariables false

namespace Sys2Proof.Machine

theorem State.afterTableRead_keep {s0 s : State} (h : Keep s0 s) (page i : Nat) : Keep s0 (State.afterTableRead s page i) := by
  unfold State.afterTableRead
  repeat' (with_reducible first | assumption | exact Keep.refl _ | apply State.modStat_keep | apply State.put_keep | fail_if_no_progress (refine Keep.mk' ?_ rfl) | (extract_lets -underBinder +onlyGivenNames x; (refine (fun (hx : Keep s0 x) => ?_) ?_); (on_goal 1 => try clear_value x); (on_goal 2 => (unfold x; clear x))) | (extract_lets -underBinder +onlyGivenNames x; try clear_value x) | split)

theorem State.caseWrite_keep {s0 s : State} (h : Keep s0 s) (c : Nat) (ws : List Word64) : KeepO s0 (State.caseWrite s c ws) := by
  unfold State.caseWrite
  repeat' (with_reducible first | assumption | exact Keep.refl _ | apply State.put_keep | fail_if_no_progress (refine Keep.mk' ?_ rfl) | exact KeepO.none | apply KeepO.some | (extract_lets -underBinder +onlyGivenNames x; (refine (fun (hx : Keep s0 x) => ?_) ?_); (on_goal 1 => try clear_value x); (on_goal 2 => (unfold x; clear x))) | (extract_lets -underBinder +onlyGivenNames x; try clear_value x) | split)

theorem State.selectWrite_keep {s0 s : State} (h : Keep s0 s) (n : Nat) (ws : List Word64) : KeepO s0 (State.selectWrite s n ws) := by
  unfold State.selectWrite
  repeat' (with_reducible first | assumption | exact Keep.refl _ | apply State.put_keep | fail_if_no_progress (refine Keep.mk' ?_ rfl) | exact KeepO.none | apply KeepO.some | (extract_lets -underBinder +onlyGivenNames x; (refine (fun (hx : Keep s0 x) => ?_) ?_); (on_goal 1 => try clear_value x); (on_goal 2 => (unfold x; clear x))) | (extract_lets -underBinder +onlyGivenNames x; try clear_value x) | split)

theorem State.storeChain_keep {s0 s : State} (h : Keep s0 s) (i : Nat) (e : List Word64) : Keep s0 (State.storeChain s i e) := by
  unfold State.storeChain
  repeat' (with_reducible first | assumption | exact Keep.refl _ | apply State.stageChain_keep | apply State.put_keep | fail_if_no_progress (refine Keep.mk' ?_ rfl) | (extract_lets -underBinder +onlyGivenNames x; (refine (fun (hx : Keep s0 x) => ?_) ?_); (on_goal 1 => try clear_value x); (on_goal 2 => (unfold x; clear x))) | (extract_lets -underBinder +onlyGivenNames x; try clear_value x))

theorem State.chainWrite_keep {s0 s : State} (h : Keep s0 s) (i : Nat) (ws : List Word64) : KeepO s0 (State.chainWrite s i ws) := by
  unfold State.chainWrite
  repeat' (with_reducible first | assumption | exact Keep.refl _ | apply State.setRun_keep | apply State.chainFail_keep | apply State.storeChain_keep | fail_if_no_progress (refine Keep.mk' ?_ rfl) | exact KeepO.none | apply KeepO.some | (extract_lets -underBinder +onlyGivenNames x; (refine (fun (hx : Keep s0 x) => ?_) ?_); (on_goal 1 => try clear_value x); (on_goal 2 => (unfold x; clear x))) | (extract_lets -underBinder +onlyGivenNames x; try clear_value x) | split)

theorem State.opWrite_keep {s0 s : State} (h : Keep s0 s) (i : Nat) (ws : List Word64) : KeepO s0 (State.opWrite s i ws) := by
  unfold State.opWrite
  repeat' (with_reducible first | assumption | exact Keep.refl _ | apply State.stage_keep | apply State.put_keep | fail_if_no_progress (refine Keep.mk' ?_ rfl) | exact KeepO.none | apply KeepO.some | (extract_lets -underBinder +onlyGivenNames x; (refine (fun (hx : Keep s0 x) => ?_) ?_); (on_goal 1 => try clear_value x); (on_goal 2 => (unfold x; clear x))) | (extract_lets -underBinder +onlyGivenNames x; try clear_value x) | split)

theorem State.ctxWrite_keep {s0 s : State} (h : Keep s0 s) (i : Nat) (ws : List Word64) : KeepO s0 (State.ctxWrite s i ws) := by
  unfold State.ctxWrite
  repeat' (with_reducible first | assumption | exact Keep.refl _ | apply State.qpError_keep | apply State.sendDreq_keep | exact KeepO.none | apply KeepO.some | (extract_lets -underBinder +onlyGivenNames x; (refine (fun (hx : Keep s0 x) => ?_) ?_); (on_goal 1 => try clear_value x); (on_goal 2 => (unfold x; clear x))) | (extract_lets -underBinder +onlyGivenNames x; try clear_value x) | split)

theorem State.addrWrite_keep {s0 s : State} (h : Keep s0 s) (p e : Nat) (ws : List Word64) : KeepO s0 (State.addrWrite s p e ws) := by
  unfold State.addrWrite
  repeat' (with_reducible first | assumption | exact Keep.refl _ | apply State.stage_keep | apply State.setAddr_keep | apply State.announceAddr_keep | fail_if_no_progress (refine Keep.mk' ?_ rfl) | exact KeepO.none | apply KeepO.some | (extract_lets -underBinder +onlyGivenNames x; (refine (fun (hx : Keep s0 x) => ?_) ?_); (on_goal 1 => try clear_value x); (on_goal 2 => (unfold x; clear x))) | (extract_lets -underBinder +onlyGivenNames x; try clear_value x) | split)

theorem State.entryWrite_keep {s0 s : State} (h : Keep s0 s) (page t i : Nat) (ws : List Word64) : KeepO s0 (State.entryWrite s page t i ws) := by
  unfold State.entryWrite
  repeat' (with_reducible first | assumption | exact Keep.refl _ | apply State.caseWrite_keep | apply State.selectWrite_keep | apply State.chainWrite_keep | apply State.opWrite_keep | apply State.ctxWrite_keep | apply State.addrWrite_keep | fail_if_no_progress (refine Keep.mk' ?_ rfl) | exact KeepO.none | apply KeepO.some | refine KeepO.get ?_ (by assumption) | (extract_lets -underBinder +onlyGivenNames x; (refine (fun (hx : Keep s0 x) => ?_) ?_); (on_goal 1 => try clear_value x); (on_goal 2 => (unfold x; clear x))) | exact KeepO.get (by assumption) rfl | exact KeepO.none | apply KeepO.some | (apply KeepO.map; intro _) | (extract_lets -underBinder +onlyGivenNames x; (refine (fun (hx : KeepO s0 x) => ?_) ?_); (on_goal 1 => try clear_value x); (on_goal 2 => (unfold x; clear x))) | (extract_lets -underBinder +onlyGivenNames x; try clear_value x) | split)

theorem writeEntries_keep {s0 : State} (page t : Nat) (config : Bool) : ∀ (a0 : List (Nat × List Word64)) (a1 : State) (a2 : Nat) (a3 : Bool), Keep s0 a1 → Keep s0 (writeEntries page t config a0 a1 a2 a3).1 := by
  intro  a0
  induction a0 with
  | nil =>
    intro a1 a2 a3 h
    first | rw [writeEntries] | unfold writeEntries
    repeat' (with_reducible first | assumption | exact Keep.refl _ | apply State.entryWrite_keep | fail_if_no_progress (refine Keep.mk' ?_ rfl) | refine KeepO.get ?_ (by assumption) | (extract_lets -underBinder +onlyGivenNames x; (refine (fun (hx : Keep s0 x) => ?_) ?_); (on_goal 1 => try clear_value x); (on_goal 2 => (unfold x; clear x))) | exact KeepO.get (by assumption) rfl | exact KeepO.none | apply KeepO.some | (apply KeepO.map; intro _) | (extract_lets -underBinder +onlyGivenNames x; (refine (fun (hx : KeepO s0 x) => ?_) ?_); (on_goal 1 => try clear_value x); (on_goal 2 => (unfold x; clear x))) | (extract_lets -underBinder +onlyGivenNames x; (refine (fun (hx : Keep s0 x.1) => ?_) ?_); (on_goal 1 => try clear_value x); (on_goal 2 => (unfold x; clear x))) | (extract_lets -underBinder +onlyGivenNames x; try clear_value x) | split)
  | cons x xs ih =>
    intro a1 a2 a3 h
    first | rw [writeEntries] | unfold writeEntries
    repeat' (with_reducible first | assumption | apply ih | exact Keep.refl _ | apply State.entryWrite_keep | fail_if_no_progress (refine Keep.mk' ?_ rfl) | refine KeepO.get ?_ (by assumption) | (extract_lets -underBinder +onlyGivenNames x; (refine (fun (hx : Keep s0 x) => ?_) ?_); (on_goal 1 => try clear_value x); (on_goal 2 => (unfold x; clear x))) | exact KeepO.get (by assumption) rfl | exact KeepO.none | apply KeepO.some | (apply KeepO.map; intro _) | (extract_lets -underBinder +onlyGivenNames x; (refine (fun (hx : KeepO s0 x) => ?_) ?_); (on_goal 1 => try clear_value x); (on_goal 2 => (unfold x; clear x))) | (extract_lets -underBinder +onlyGivenNames x; (refine (fun (hx : Keep s0 x.1) => ?_) ?_); (on_goal 1 => try clear_value x); (on_goal 2 => (unfold x; clear x))) | (extract_lets -underBinder +onlyGivenNames x; try clear_value x) | split)

theorem State.nop_keep {s0 s : State} (h : Keep s0 s) (q : Nat) : Keep s0 (State.nop s q) := by
  unfold State.nop
  repeat' (with_reducible first | assumption | intro _ | exact Keep.refl _ | apply State.finishCmd_keep | apply State.generalCmd_keep | split)

theorem execNop_keep {s0 s : State} (h : Keep s0 s) (q : Nat) : ∃ t1, (execNop q s) = .next t1 ∧ Keep s0 t1 := by
  unfold execNop
  refine ⟨_, rfl, ?_⟩
  repeat' (with_reducible first | assumption | exact Keep.refl _ | apply State.settle_keep | apply State.nop_keep)

theorem State.tableCmd_keep {s0 s : State} (h : Keep s0 s) (q op : Nat) (f : State → RqCmd → TableDesc → State) (hf : ∀ x0 x1 x2, Keep s0 x0 → Keep s0 (f x0 x1 x2)) : Keep s0 (State.tableCmd s q op f) := by
  unfold State.tableCmd
  repeat' (with_reducible first | assumption | apply hf | intro _ | exact Keep.refl _ | apply State.finishCmd_keep | apply State.generalCmd_keep | fail_if_no_progress (refine Keep.mk' ?_ rfl) | (extract_lets -underBinder +onlyGivenNames x; (refine (fun (hx : Keep s0 x) => ?_) ?_); (on_goal 1 => try clear_value x); (on_goal 2 => (unfold x; clear x))) | (extract_lets -underBinder +onlyGivenNames x; try clear_value x) | split)

theorem State.tableInfo_keep {s0 s : State} (h : Keep s0 s) (q : Nat) : Keep s0 (State.tableInfo s q) := by
  unfold State.tableInfo
  repeat' (with_reducible first | assumption | intro _ | exact Keep.refl _ | apply State.finishCmd_keep | apply State.tableCmd_keep)

theorem execTableInfo_keep {s0 s : State} (h : Keep s0 s) (q : Nat) : ∃ t1, (execTableInfo q s) = .next t1 ∧ Keep s0 t1 := by
  unfold execTableInfo
  refine ⟨_, rfl, ?_⟩
  repeat' (with_reducible first | assumption | exact Keep.refl _ | apply State.settle_keep | apply State.tableInfo_keep)

theorem State.askTable_keep {s0 s : State} (h : Keep s0 s) (page bytes : Nat) : Keep s0 (State.askTable s page bytes) := by
  unfold State.askTable
  repeat' (with_reducible first | assumption | exact Keep.refl _ | apply State.askIn_keep | split)

theorem State.tableRead_keep {s0 s : State} (h : Keep s0 s) (q : Nat) : Keep s0 (State.tableRead s q) := by
  unfold State.tableRead
  repeat' (with_reducible first | assumption | exact Keep.refl _ | apply State.finishCmd_keep | apply State.dmaWrite_keep | apply State.afterTableRead_keep | apply State.tableCmd_keep | apply State.askTable_keep | apply Keep.foldl | apply Keep.foldl_fst | apply Keep.foldl_snd | intro _ | refine Keep.of_fst (by assumption) ?_ | (extract_lets -underBinder +onlyGivenNames x; (refine (fun (hx : Keep s0 x) => ?_) ?_); (on_goal 1 => try clear_value x); (on_goal 2 => (unfold x; clear x))) | exact KeepO.get (by assumption) rfl | exact KeepO.none | apply KeepO.some | (apply KeepO.map; intro _) | (extract_lets -underBinder +onlyGivenNames x; (refine (fun (hx : KeepO s0 x) => ?_) ?_); (on_goal 1 => try clear_value x); (on_goal 2 => (unfold x; clear x))) | (extract_lets -underBinder +onlyGivenNames x; (refine (fun (hx : Keep s0 x.1) => ?_) ?_); (on_goal 1 => try clear_value x); (on_goal 2 => (unfold x; clear x))) | (extract_lets -underBinder +onlyGivenNames x; try clear_value x) | split)

theorem execTableRead_keep {s0 s : State} (h : Keep s0 s) (q : Nat) : ∃ t1, (execTableRead q s) = .next t1 ∧ Keep s0 t1 := by
  unfold execTableRead
  refine ⟨_, rfl, ?_⟩
  repeat' (with_reducible first | assumption | exact Keep.refl _ | apply State.settle_keep | apply State.tableRead_keep)

theorem State.tableWrite_keep {s0 s : State} (h : Keep s0 s) (q : Nat) (data : List Word64) : Keep s0 (State.tableWrite s q data) := by
  unfold State.tableWrite
  repeat' (with_reducible first | assumption | intro _ | exact Keep.refl _ | apply State.bumpGen_keep | apply State.finishCmd_keep | apply State.protCommand_keep | apply writeEntries_keep | apply State.tableCmd_keep | apply State.askTable_keep | fail_if_no_progress (refine Keep.mk' ?_ rfl) | refine Keep.of_fst (by assumption) ?_ | (extract_lets -underBinder +onlyGivenNames x; (refine (fun (hx : Keep s0 x) => ?_) ?_); (on_goal 1 => try clear_value x); (on_goal 2 => (unfold x; clear x))) | exact KeepO.get (by assumption) rfl | exact KeepO.none | apply KeepO.some | (apply KeepO.map; intro _) | (extract_lets -underBinder +onlyGivenNames x; (refine (fun (hx : KeepO s0 x) => ?_) ?_); (on_goal 1 => try clear_value x); (on_goal 2 => (unfold x; clear x))) | (extract_lets -underBinder +onlyGivenNames x; (refine (fun (hx : Keep s0 x.1) => ?_) ?_); (on_goal 1 => try clear_value x); (on_goal 2 => (unfold x; clear x))) | (extract_lets -underBinder +onlyGivenNames x; try clear_value x) | split)

theorem execTableWrite_keep {s0 s : State} (h : Keep s0 s) (q : Nat) (data : List Word64) : ∃ t1, (execTableWrite q data s) = .next t1 ∧ Keep s0 t1 := by
  unfold execTableWrite
  refine ⟨_, rfl, ?_⟩
  repeat' (with_reducible first | assumption | exact Keep.refl _ | apply State.settle_keep | apply State.tableWrite_keep)

theorem State.pairApply_keep {s0 s : State} (h : Keep s0 s) (q page : Nat) (x : Nat × Word64) : Keep s0 (State.pairApply s q page x) := by
  unfold State.pairApply
  repeat' (with_reducible first | assumption | exact Keep.refl _ | apply State.setReg_keep | apply State.pairConfig_keep | apply State.afterWrite_keep | fail_if_no_progress (refine Keep.mk' ?_ rfl) | (extract_lets -underBinder +onlyGivenNames x; (refine (fun (hx : Keep s0 x) => ?_) ?_); (on_goal 1 => try clear_value x); (on_goal 2 => (unfold x; clear x))) | exact KeepO.get (by assumption) rfl | exact KeepO.none | apply KeepO.some | (apply KeepO.map; intro _) | (extract_lets -underBinder +onlyGivenNames x; (refine (fun (hx : KeepO s0 x) => ?_) ?_); (on_goal 1 => try clear_value x); (on_goal 2 => (unfold x; clear x))) | (extract_lets -underBinder +onlyGivenNames x; try clear_value x) | split)

theorem applyPairs_keep {s0 : State} (q page : Nat) : ∀ (a0 : List (Nat × Word64)) (a1 : State), Keep s0 a1 → KeepO s0 (applyPairs q page a0 a1) := by
  intro  a0
  induction a0 with
  | nil =>
    intro a1 h
    first | rw [applyPairs] | unfold applyPairs
    repeat' (with_reducible first | assumption | exact Keep.refl _ | apply State.pairApply_keep | exact KeepO.none | apply KeepO.some | split)
  | cons x xs ih =>
    intro a1 h
    first | rw [applyPairs] | unfold applyPairs
    repeat' (with_reducible first | assumption | apply ih | exact Keep.refl _ | apply State.pairApply_keep | exact KeepO.none | apply KeepO.some | split)

theorem State.batchRun_keep {s0 s : State} (h : Keep s0 s) (q page : Nat) (ps : List (Nat × Word64)) : Keep s0 (State.batchRun s q page ps) := by
  unfold State.batchRun
  repeat' (with_reducible first | assumption | exact Keep.refl _ | apply State.finishCmd_keep | apply State.batchDone_keep | apply applyPairs_keep | fail_if_no_progress (refine Keep.mk' ?_ rfl) | refine KeepO.get ?_ (by assumption) | (extract_lets -underBinder +onlyGivenNames x; (refine (fun (hx : Keep s0 x) => ?_) ?_); (on_goal 1 => try clear_value x); (on_goal 2 => (unfold x; clear x))) | exact KeepO.get (by assumption) rfl | exact KeepO.none | apply KeepO.some | (apply KeepO.map; intro _) | (extract_lets -underBinder +onlyGivenNames x; (refine (fun (hx : KeepO s0 x) => ?_) ?_); (on_goal 1 => try clear_value x); (on_goal 2 => (unfold x; clear x))) | (extract_lets -underBinder +onlyGivenNames x; try clear_value x) | split)

theorem State.regWriteBatch_keep {s0 s : State} (h : Keep s0 s) (q : Nat) (data : List Word64) : Keep s0 (State.regWriteBatch s q data) := by
  unfold State.regWriteBatch
  repeat' (with_reducible first | assumption | intro _ | exact Keep.refl _ | apply State.finishCmd_keep | apply State.generalCmd_keep | apply State.batchRun_keep | (extract_lets -underBinder +onlyGivenNames x; (refine (fun (hx : Keep s0 x) => ?_) ?_); (on_goal 1 => try clear_value x); (on_goal 2 => (unfold x; clear x))) | (extract_lets -underBinder +onlyGivenNames x; try clear_value x) | split)

theorem execRegWriteBatch_keep {s0 s : State} (h : Keep s0 s) (q : Nat) (data : List Word64) : ∃ t1, (execRegWriteBatch q data s) = .next t1 ∧ Keep s0 t1 := by
  unfold execRegWriteBatch
  refine ⟨_, rfl, ?_⟩
  repeat' (with_reducible first | assumption | exact Keep.refl _ | apply State.settle_keep | apply State.regWriteBatch_keep)

theorem State.commandFetch_keep {s0 s : State} (h : Keep s0 s) (q : Nat) (c : RqCmd) : Keep s0 (State.commandFetch s q c) := by
  unfold State.commandFetch
  repeat' (with_reducible first | assumption | exact Keep.refl _ | apply State.wr_keep | apply State.setRq_keep | apply State.advance_keep | fail_if_no_progress (refine Keep.mk' ?_ rfl) | (extract_lets -underBinder +onlyGivenNames x; (refine (fun (hx : Keep s0 x) => ?_) ?_); (on_goal 1 => try clear_value x); (on_goal 2 => (unfold x; clear x))) | (extract_lets -underBinder +onlyGivenNames x; try clear_value x) | split)

theorem execCommandFetch_keep {s0 s : State} (h : Keep s0 s) (q : Nat) (cmd : RqCmd) : ∃ t1, (execCommandFetch q cmd s) = .next t1 ∧ Keep s0 t1 := by
  unfold execCommandFetch
  refine ⟨_, rfl, ?_⟩
  repeat' (with_reducible first | assumption | exact Keep.refl _ | apply State.settle_keep | apply State.commandFetch_keep)

theorem State.bufferFails_keep {s0 s : State} (h : Keep s0 s) (q : Nat) (c : RqCmd) (data : List Word64) : Keep s0 (State.bufferFails s q c data) := by
  unfold State.bufferFails
  repeat' (with_reducible first | assumption | exact Keep.refl _ | apply State.kekSet_keep | apply State.kekRoll_keep | apply State.cphKeyLoad_keep | apply State.cphSeal_keep | apply State.cphUnseal_keep | apply State.bflWrite_keep | apply State.tableWrite_keep | apply State.regWriteBatch_keep | fail_if_no_progress (refine Keep.mk' ?_ rfl) | (extract_lets -underBinder +onlyGivenNames x; (refine (fun (hx : Keep s0 x) => ?_) ?_); (on_goal 1 => try clear_value x); (on_goal 2 => (unfold x; clear x))) | exact KeepO.get (by assumption) rfl | exact KeepO.none | apply KeepO.some | (apply KeepO.map; intro _) | (extract_lets -underBinder +onlyGivenNames x; (refine (fun (hx : KeepO s0 x) => ?_) ?_); (on_goal 1 => try clear_value x); (on_goal 2 => (unfold x; clear x))) | (extract_lets -underBinder +onlyGivenNames x; try clear_value x) | split)

theorem State.dmaTimeout_keep {s0 s : State} (h : Keep s0 s) (q : Nat) (fetch : Bool) (data : List Word64) : Keep s0 (State.dmaTimeout s q fetch data) := by
  unfold State.dmaTimeout
  repeat' (with_reducible first | assumption | exact Keep.refl _ | apply State.rqError_keep | apply State.bufferFails_keep | fail_if_no_progress (refine Keep.mk' ?_ rfl) | (extract_lets -underBinder +onlyGivenNames x; (refine (fun (hx : Keep s0 x) => ?_) ?_); (on_goal 1 => try clear_value x); (on_goal 2 => (unfold x; clear x))) | (extract_lets -underBinder +onlyGivenNames x; try clear_value x) | split)

theorem execDmaCompletionTimeout_keep {s0 s : State} (h : Keep s0 s) (q : Nat) (fetch : Bool) (data : List Word64) : ∃ t1, (execDmaCompletionTimeout q fetch data s) = .next t1 ∧ Keep s0 t1 := by
  unfold execDmaCompletionTimeout
  refine ⟨_, rfl, ?_⟩
  repeat' (with_reducible first | assumption | exact Keep.refl _ | apply State.settle_keep | apply State.dmaTimeout_keep)

end Sys2Proof.Machine
end

