-- ==== Sys2Proof/Laws/Exec.lean ====
section
/-! SUPPORT. Every command answers a next state and keeps what Keep says; so does every step. -/

namespace Sys2Proof.Machine

/-- The state a command starts from, its TWIN_SEL strap sampled where the command is the step of the start that samples it. -/
def State.strapped (s : State) : Instr → State
  | .startStepDone r => s.sampleStrap r
  | _ => s

theorem State.strapped_eq (s : State) (c : Instr) : s.strapped c = { s with twinB := (s.strapped c).twinB } := by
  unfold State.strapped State.sampleStrap
  repeat' (first | rfl | split)

theorem State.strapped_of_ne (s : State) {c : Instr} (h : ∀ r, c ≠ .startStepDone r) : s.strapped c = s := by
  unfold State.strapped
  split
  · exact absurd rfl (h _)
  · rfl

/-- Every command, in every state, answers a next state that keeps what Keep says. -/
theorem exec_keep (c : Instr) (s : State) : ∃ t, exec c s = .next t ∧ Keep (s.strapped c) t := by
  cases c with
  | registerWrite a0 a1 a2 => exact execRegisterWrite_keep (Keep.refl s) a0 a1 a2
  | rcFieldRead a0 a1 => exact execRcFieldRead_keep (Keep.refl s) a0 a1
  | pgQuiesce a0 => exact execPgQuiesce_keep (Keep.refl s) a0
  | pgResume a0 => exact execPgResume_keep (Keep.refl s) a0
  | quiesceDone a0 => exact execQuiesceDone_keep (Keep.refl s) a0
  | pgLock a0 => exact execPgLock_keep (Keep.refl s) a0
  | pgSoftRst a0 => exact execPgSoftRst_keep (Keep.refl s) a0
  | softRstDone a0 => exact execSoftRstDone_keep (Keep.refl s) a0
  | pgEnable a0 => exact execPgEnable_keep (Keep.refl s) a0
  | pgDisable a0 => exact execPgDisable_keep (Keep.refl s) a0
  | pgEvtClear a0 a1 => exact execPgEvtClear_keep (Keep.refl s) a0 a1
  | pgEvtEnWrite a0 a1 => exact execPgEvtEnWrite_keep (Keep.refl s) a0 a1
  | pgEvtSet a0 a1 => exact execPgEvtSet_keep (Keep.refl s) a0 a1
  | msixUnmask a0 => exact execMsixUnmask_keep (Keep.refl s) a0
  | rqEnable a0 a1 => exact execRqEnable_keep (Keep.refl s) a0 a1
  | rqDisable a0 => exact execRqDisable_keep (Keep.refl s) a0
  | rqDoorbell a0 a1 => exact execRqDoorbell_keep (Keep.refl s) a0 a1
  | rqCqHeadWrite a0 a1 => exact execRqCqHeadWrite_keep (Keep.refl s) a0 a1
  | commandFetch a0 a1 => exact execCommandFetch_keep (Keep.refl s) a0 a1
  | dmaCompletionTimeout a0 a1 a2 => exact execDmaCompletionTimeout_keep (Keep.refl s) a0 a1 a2
  | nop a0 => exact execNop_keep (Keep.refl s) a0
  | tableRead a0 => exact execTableRead_keep (Keep.refl s) a0
  | tableWrite a0 a1 => exact execTableWrite_keep (Keep.refl s) a0 a1
  | tableInfo a0 => exact execTableInfo_keep (Keep.refl s) a0
  | regWriteBatch a0 a1 => exact execRegWriteBatch_keep (Keep.refl s) a0 a1
  | partitionApply => exact execPartitionApply_keep (Keep.refl s)
  | partApplied => exact execPartApplied_keep (Keep.refl s)
  | damperSample a0 => exact execDamperSample_keep (Keep.refl s) a0
  | frameReceived a0 a1 => exact execFrameReceived_keep (Keep.refl s) a0 a1
  | frameTxEnd a0 a1 a2 => exact execFrameTxEnd_keep (Keep.refl s) a0 a1 a2
  | contextLoad a0 => exact execContextLoad_keep (Keep.refl s) a0
  | setStall a0 => exact execSetStall_keep (Keep.refl s) a0
  | fillLands a0 a1 a2 => exact execFillLands_keep (Keep.refl s) a0 a1 a2
  | flueWritebackDone a0 => exact execFlueWritebackDone_keep (Keep.refl s) a0
  | cacheDrain => exact execCacheDrain_keep (Keep.refl s)
  | cacheEnable => exact execCacheEnable_keep (Keep.refl s)
  | hcaFlush a0 => exact execHcaFlush_keep (Keep.refl s) a0
  | hcaInvalidate a0 => exact execHcaInvalidate_keep (Keep.refl s) a0
  | autonegResolved a0 => exact execAutonegResolved_keep (Keep.refl s) a0
  | anAttemptFail a0 => exact execAnAttemptFail_keep (Keep.refl s) a0
  | trainingDone a0 => exact execTrainingDone_keep (Keep.refl s) a0
  | trainFail a0 => exact execTrainFail_keep (Keep.refl s) a0
  | linkUp a0 => exact execLinkUp_keep (Keep.refl s) a0
  | linkDown a0 a1 => exact execLinkDown_keep (Keep.refl s) a0 a1
  | remoteFault a0 => exact execRemoteFault_keep (Keep.refl s) a0
  | remoteFaultClear a0 => exact execRemoteFaultClear_keep (Keep.refl s) a0
  | fecWindow a0 a1 a2 a3 => exact execFecWindow_keep (Keep.refl s) a0 a1 a2 a3
  | pfcFrame a0 => exact execPfcFrame_keep (Keep.refl s) a0
  | pauseExpiry a0 a1 => exact execPauseExpiry_keep (Keep.refl s) a0 a1
  | xoffRefresh a0 a1 => exact execXoffRefresh_keep (Keep.refl s) a0 a1
  | pauseStorm a0 a1 => exact execPauseStorm_keep (Keep.refl s) a0 a1
  | stormClear a0 a1 => exact execStormClear_keep (Keep.refl s) a0 a1
  | arpFrame a0 => exact execArpFrame_keep (Keep.refl s) a0
  | neighbourFrame a0 => exact execNeighbourFrame_keep (Keep.refl s) a0
  | announce a0 a1 => exact execAnnounce_keep (Keep.refl s) a0 a1
  | ptpFrame a0 => exact execPtpFrame_keep (Keep.refl s) a0
  | req a0 => exact execReq_keep (Keep.refl s) a0
  | rtu a0 => exact execRtu_keep (Keep.refl s) a0
  | dreq a0 => exact execDreq_keep (Keep.refl s) a0
  | drep a0 => exact execDrep_keep (Keep.refl s) a0
  | disconnectTimeout a0 => exact execDisconnectTimeout_keep (Keep.refl s) a0
  | send a0 => exact execSend_keep (Keep.refl s) a0
  | rdmaWrite a0 => exact execRdmaWrite_keep (Keep.refl s) a0
  | rdmaReadRequest a0 => exact execRdmaReadRequest_keep (Keep.refl s) a0
  | atomicCompareAndSwap a0 => exact execAtomicCompareAndSwap_keep (Keep.refl s) a0
  | atomicFetchAndAdd a0 => exact execAtomicFetchAndAdd_keep (Keep.refl s) a0
  | atomicWrite a0 => exact execAtomicWrite_keep (Keep.refl s) a0
  | flush a0 => exact execFlush_keep (Keep.refl s) a0
  | acknowledge a0 => exact execAcknowledge_keep (Keep.refl s) a0
  | sendAckTimeout a0 => exact execSendAckTimeout_keep (Keep.refl s) a0
  | sendRnrRetry a0 => exact execSendRnrRetry_keep (Keep.refl s) a0
  | cnpReceived a0 => exact execCnpReceived_keep (Keep.refl s) a0
  | alphaDecay a0 => exact execAlphaDecay_keep (Keep.refl s) a0
  | rateIncrease a0 => exact execRateIncrease_keep (Keep.refl s) a0
  | keyEntryLoad a0 => exact execKeyEntryLoad_keep (Keep.refl s) a0
  | keyDrainWait a0 => exact execKeyDrainWait_keep (Keep.refl s) a0
  | drainSlow => exact execDrainSlow_keep (Keep.refl s)
  | copy a0 => exact execCopy_keep (Keep.refl s) a0
  | atomic a0 => exact execAtomic_keep (Keep.refl s) a0
  | persist a0 => exact execPersist_keep (Keep.refl s) a0
  | notify a0 => exact execNotify_keep (Keep.refl s) a0
  | fetchDone a0 a1 a2 => exact execFetchDone_keep (Keep.refl s) a0 a1 a2
  | destageAge a0 => exact execDestageAge_keep (Keep.refl s) a0
  | destageDone a0 => exact execDestageDone_keep (Keep.refl s) a0
  | poolResize a0 => exact execPoolResize_keep (Keep.refl s) a0
  | poolResized => exact execPoolResized_keep (Keep.refl s)
  | dirtyBudgetWrite a0 => exact execDirtyBudgetWrite_keep (Keep.refl s) a0
  | tirDiscard a0 => exact execTirDiscard_keep (Keep.refl s) a0
  | tirPromote a0 => exact execTirPromote_keep (Keep.refl s) a0
  | tirDemote a0 => exact execTirDemote_keep (Keep.refl s) a0
  | tirPin a0 => exact execTirPin_keep (Keep.refl s) a0
  | trainDone a0 a1 a2 a3 a4 => exact execTrainDone_keep (Keep.refl s) a0 a1 a2 a3 a4
  | dramCommandIssue a0 a1 => exact execDramCommandIssue_keep (Keep.refl s) a0 a1
  | refresh a0 a1 => exact execRefresh_keep (Keep.refl s) a0 a1
  | dimmSensorRead a0 a1 a2 => exact execDimmSensorRead_keep (Keep.refl s) a0 a1 a2
  | selfRefreshEntry a0 => exact execSelfRefreshEntry_keep (Keep.refl s) a0
  | selfRefreshExit a0 => exact execSelfRefreshExit_keep (Keep.refl s) a0
  | driftCheck a0 a1 a2 => exact execDriftCheck_keep (Keep.refl s) a0 a1 a2
  | retrainDone a0 a1 => exact execRetrainDone_keep (Keep.refl s) a0 a1
  | sbFault a0 a1 => exact execSbFault_keep (Keep.refl s) a0 a1
  | migrationPage a0 a1 a2 => exact execMigrationPage_keep (Keep.refl s) a0 a1 a2
  | dchRetrain a0 => exact execDchRetrain_keep (Keep.refl s) a0
  | dchRetire a0 => exact execDchRetire_keep (Keep.refl s) a0
  | dchSbRead a0 a1 => exact execDchSbRead_keep (Keep.refl s) a0 a1
  | programDone a0 a1 => exact execProgramDone_keep (Keep.refl s) a0 a1
  | programFail a0 => exact execProgramFail_keep (Keep.refl s) a0
  | eraseDone a0 a1 a2 => exact execEraseDone_keep (Keep.refl s) a0 a1 a2
  | eraseFail a0 a1 a2 a3 => exact execEraseFail_keep (Keep.refl s) a0 a1 a2 a3
  | dieTimeout a0 a1 => exact execDieTimeout_keep (Keep.refl s) a0 a1
  | unitReadDone a0 a1 a2 a3 a4 a5 => exact execUnitReadDone_keep (Keep.refl s) a0 a1 a2 a3 a4 a5
  | journalUnit => exact execJournalUnit_keep (Keep.refl s)
  | ckptSeg => exact execCkptSeg_keep (Keep.refl s)
  | capacityRecompute => exact execCapacityRecompute_keep (Keep.refl s)
  | probeInterval => exact execProbeInterval_keep (Keep.refl s)
  | probeDone a0 a1 a2 => exact execProbeDone_keep (Keep.refl s) a0 a1 a2
  | flushRateRescale a0 => exact execFlushRateRescale_keep (Keep.refl s) a0
  | wearLevel => exact execWearLevel_keep (Keep.refl s)
  | patrol a0 a1 a2 => exact execPatrol_keep (Keep.refl s) a0 a1 a2
  | reserveVerify a0 => exact execReserveVerify_keep (Keep.refl s) a0
  | dieTempRead a0 a1 => exact execDieTempRead_keep (Keep.refl s) a0 a1
  | caseSourceSilent a0 => exact execCaseSourceSilent_keep (Keep.refl s) a0
  | medProbeRun a0 => exact execMedProbeRun_keep (Keep.refl s) a0
  | medDieRetire a0 => exact execMedDieRetire_keep (Keep.refl s) a0
  | powerFailWarning => exact execPowerFailWarning_keep (Keep.refl s)
  | finalWaitExpiry => exact execFinalWaitExpiry_keep (Keep.refl s)
  | flushDone => exact execFlushDone_keep (Keep.refl s)
  | flushPowerCheck a0 => exact execFlushPowerCheck_keep (Keep.refl s) a0
  | durStop a0 => exact execDurStop_keep (Keep.refl s) a0
  | stopped => exact execStopped_keep (Keep.refl s)
  | durAcceptLoss a0 => exact execDurAcceptLoss_keep (Keep.refl s) a0
  | holdupMsWrite a0 => exact execHoldupMsWrite_keep (Keep.refl s) a0
  | holdupWWrite a0 => exact execHoldupWWrite_keep (Keep.refl s) a0
  | strandTrained a0 a1 => exact execStrandTrained_keep (Keep.refl s) a0 a1
  | hello a0 a1 => exact execHello_keep (Keep.refl s) a0 a1
  | strandDown a0 a1 => exact execStrandDown_keep (Keep.refl s) a0 a1
  | linkFecWindow a0 a1 a2 => exact execLinkFecWindow_keep (Keep.refl s) a0 a1 a2
  | strandRetrain a0 => exact execStrandRetrain_keep (Keep.refl s) a0
  | strandDisable a0 => exact execStrandDisable_keep (Keep.refl s) a0
  | strandEnable a0 => exact execStrandEnable_keep (Keep.refl s) a0
  | credit a0 a1 => exact execCredit_keep (Keep.refl s) a0 a1
  | creditSend a0 => exact execCreditSend_keep (Keep.refl s) a0
  | linkRetryTimeout a0 => exact execLinkRetryTimeout_keep (Keep.refl s) a0
  | epochData a0 a1 a2 => exact execEpochData_keep (Keep.refl s) a0 a1 a2
  | sealFrame a0 a1 a2 => exact execSeal_keep (Keep.refl s) a0 a1 a2
  | epochApplied => exact execEpochApplied_keep (Keep.refl s)
  | sealAck a0 a1 => exact execSealAck_keep (Keep.refl s) a0 a1
  | epochClose => exact execEpochClose_keep (Keep.refl s)
  | fwdReq a0 a1 a2 => exact execFwdReq_keep (Keep.refl s) a0 a1 a2
  | fwdResp a0 a1 a2 => exact execFwdResp_keep (Keep.refl s) a0 a1 a2
  | resync a0 a1 a2 => exact execResync_keep (Keep.refl s) a0 a1 a2
  | heartbeat a0 a1 a2 => exact execHeartbeat_keep (Keep.refl s) a0 a1 a2
  | heartbeatSend => exact execHeartbeatSend_keep (Keep.refl s)
  | hbLoss => exact execHbLoss_keep (Keep.refl s)
  | time a0 a1 a2 => exact execTime_keep (Keep.refl s) a0 a1 a2
  | timeExchange => exact execTimeExchange_keep (Keep.refl s)
  | keyNext a0 a1 a2 => exact execKeyNext_keep (Keep.refl s) a0 a1 a2
  | keyRotate => exact execKeyRotate_keep (Keep.refl s)
  | rotationTimeout a0 => exact execRotationTimeout_keep (Keep.refl s) a0
  | handshake a0 a1 a2 => exact execHandshake_keep (Keep.refl s) a0 a1 a2
  | handshakeRepeat => exact execHandshakeRepeat_keep (Keep.refl s)
  | soloWaitExpiry => exact execSoloWaitExpiry_keep (Keep.refl s)
  | sidebandSend => exact execSidebandSend_keep (Keep.refl s)
  | sidebandFrame a0 => exact execSidebandFrame_keep (Keep.refl s) a0
  | sbLost => exact execSbLost_keep (Keep.refl s)
  | pairConfigWrite a0 a1 a2 => exact execPairConfigWrite_keep (Keep.refl s) a0 a1 a2
  | mirRebalance a0 => exact execMirRebalance_keep (Keep.refl s) a0
  | mirReturn a0 => exact execMirReturn_keep (Keep.refl s) a0
  | mirDrill a0 => exact execMirDrill_keep (Keep.refl s) a0
  | mirTakeover a0 => exact execMirTakeover_keep (Keep.refl s) a0
  | scrubRead a0 a1 a2 => exact execScrubRead_keep (Keep.refl s) a0 a1 a2
  | lapOverdue a0 => exact execLapOverdue_keep (Keep.refl s) a0
  | dramFill a0 => exact execDramFill_keep (Keep.refl s) a0
  | intInject a0 => exact execIntInject_keep (Keep.refl s) a0
  | cphKekSet a0 a1 => exact execCphKekSet_keep (Keep.refl s) a0 a1
  | cphKekRoll a0 a1 => exact execCphKekRoll_keep (Keep.refl s) a0 a1
  | cphKeyLoad a0 a1 => exact execCphKeyLoad_keep (Keep.refl s) a0 a1
  | cphKeyClear a0 => exact execCphKeyClear_keep (Keep.refl s) a0
  | cphSeal a0 a1 => exact execCphSeal_keep (Keep.refl s) a0 a1
  | cphUnseal a0 a1 => exact execCphUnseal_keep (Keep.refl s) a0 a1
  | powerOn => exact execPowerOn_keep (Keep.refl s)
  | railPowerGood a0 => exact execRailPowerGood_keep (Keep.refl s) a0
  | sequenceTimeout => exact execSequenceTimeout_keep (Keep.refl s)
  | sequencerHold => exact execSequencerHold_keep (Keep.refl s)
  | startStepDone a0 => exact execStartStepDone_keep a0 s
  | resetPin => exact execResetPin_keep (Keep.refl s)
  | reset a0 => exact execReset_keep (Keep.refl s) a0
  | perst => exact execPerst_keep (Keep.refl s)
  | recoveryCopy a0 a1 => exact execRecoveryCopy_keep (Keep.refl s) a0 a1
  | bflBegin a0 => exact execBflBegin_keep (Keep.refl s) a0
  | bflWrite a0 a1 => exact execBflWrite_keep (Keep.refl s) a0 a1
  | bflVerify a0 a1 => exact execBflVerify_keep (Keep.refl s) a0 a1
  | bflActivate a0 => exact execBflActivate_keep (Keep.refl s) a0
  | bflSave a0 => exact execBflSave_keep (Keep.refl s) a0
  | bflForget a0 => exact execBflForget_keep (Keep.refl s) a0
  | confirm a0 => exact execConfirm_keep (Keep.refl s) a0
  | trialWatchdog => exact execTrialWatchdog_keep (Keep.refl s)
  | coreHalted a0 a1 a2 => exact execCoreHalted_keep (Keep.refl s) a0 a1 a2
  | coreWatchdog => exact execCoreWatchdog_keep (Keep.refl s)
  | marchTest a0 => exact execMarchTest_keep (Keep.refl s) a0
  | marchDone a0 a1 => exact execMarchDone_keep (Keep.refl s) a0 a1
  | retentionEntry a0 => exact execRetentionEntry_keep (Keep.refl s) a0
  | retentionWake a0 => exact execRetentionWake_keep (Keep.refl s) a0
  | spiWrite a0 a1 a2 => exact execSpiWrite_keep (Keep.refl s) a0 a1 a2
  | spiRead a0 a1 a2 => exact execSpiRead_keep (Keep.refl s) a0 a1 a2
  | spiSelectRelease => exact execSpiSelectRelease_keep (Keep.refl s)
  | setOffset a0 a1 => exact execSetOffset_keep (Keep.refl s) a0 a1
  | read a0 => exact execRead_keep (Keep.refl s) a0
  | write a0 a1 => exact execWrite_keep (Keep.refl s) a0 a1
  | smbusTimeout => exact execSmbusTimeout_keep (Keep.refl s)
  | i3cIbi a0 => exact execI3cIbi_keep (Keep.refl s) a0
  | jtagInstruction a0 => exact execJtagInstruction_keep (Keep.refl s) a0
  | pcieLinkUp a0 a1 => exact execPcieLinkUp_keep (Keep.refl s) a0 a1
  | pcieDown => exact execPcieDown_keep (Keep.refl s)
  | eventRecord => exact execEventRecord_keep (Keep.refl s)
  | recordClose => exact execRecordClose_keep (Keep.refl s)
  | freeze => exact execFreeze_keep (Keep.refl s)
  | freezeRelease => exact execFreezeRelease_keep (Keep.refl s)
  | freezeExpired => exact execFreezeExpired_keep (Keep.refl s)
  | eventExport => exact execEventExport_keep (Keep.refl s)
  | expHeadWrite a0 a1 => exact execExpHeadWrite_keep (Keep.refl s) a0 a1
  | evrEmberRead a0 => exact execEvrEmberRead_keep (Keep.refl s) a0
  | snap => exact execSnap_keep (Keep.refl s)
  | clear => exact execClear_keep (Keep.refl s)
  | sampleExport => exact execSampleExport_keep (Keep.refl s)
  | paceUpdate a0 => exact execPaceUpdate_keep (Keep.refl s) a0
  | thermalSample a0 => exact execThermalSample_keep (Keep.refl s) a0
  | hardwareTrip => exact execHardwareTrip_keep (Keep.refl s)
  | opSample a0 => exact execOpSample_keep (Keep.refl s) a0
  | opWrite a0 => exact execOpWrite_keep (Keep.refl s) a0
  | familyReached => exact execFamilyReached_keep (Keep.refl s)
  | avsTimeout => exact execAvsTimeout_keep (Keep.refl s)
  | railCheck a0 => exact execRailCheck_keep (Keep.refl s) a0
  | powerGoodLoss a0 => exact execPowerGoodLoss_keep (Keep.refl s) a0
  | pfwGlitch => exact execPfwGlitch_keep (Keep.refl s)
  | inputPowerSample a0 a1 => exact execInputPowerSample_keep (Keep.refl s) a0 a1
  | railCurrentPoll a0 => exact execRailCurrentPoll_keep (Keep.refl s) a0
  | lifeHour => exact execLifeHour_keep (Keep.refl s)
  | resyncCopy a0 a1 => exact execResyncCopy_keep (Keep.refl s) a0 a1
  | pacerRelease a0 => exact execPacerRelease_keep (Keep.refl s) a0
  | retrainShortDone a0 => exact execRetrainShortDone_keep (Keep.refl s) a0
  | dramAlert a0 a1 a2 => exact execDramAlert_keep (Keep.refl s) a0 a1 a2
  | strandDisableTimeout a0 => exact execStrandDisableTimeout_keep (Keep.refl s) a0
  | marchSegmentDone a0 => exact execMarchSegmentDone_keep (Keep.refl s) a0

/-- What Keep says of a command, the strap aside. -/
theorem exec_keep' (c : Instr) (s : State) : ∃ t, exec c s = .next t ∧ Keep { s with twinB := t.twinB } t := by
  obtain ⟨t, h, k⟩ := exec_keep c s
  rw [State.strapped_eq] at k
  have e : t.twinB = (s.strapped c).twinB := k.twinB
  exact ⟨t, h, by rw [e]; exact k⟩

/-- A step of the machine answers a next state; it takes the front of the queue and nothing else from it. -/
theorem step_keep (s : State) : ∃ t, step s = .next t ∧ Keep { s with pending := s.pending.drop 1, twinB := t.twinB } t := by
  unfold step
  split
  · rename_i h
    refine ⟨_, rfl, ?_⟩
    have e : s.pending.drop 1 = s.pending := by rw [h]; rfl
    have k := State.idle_keep (Keep.refl s)
    rw [e, k.twinB]
    exact k
  · rename_i c rest h
    have e : s.pending.drop 1 = rest := by rw [h]; rfl
    rw [e]
    exact exec_keep' c _

end Sys2Proof.Machine
end

