-- ==== Sys2Proof/Tests/Slice0.lean ====
section
/-! SUPPORT. Tests: an ill-formed term for each check of WellFormed, small checks of single commands, and for each statement with
hypotheses a state and operands that meet them. -/

open Sys2Proof Sys2Proof.Machine Host

/-! ### WellFormed refuses an operand that names nothing -/

theorem test_wf_width : (Instr.registerWrite 0x200 3 ⟨0, []⟩).wf = false := by decide
theorem test_wf_offset : (Instr.rcFieldRead (2 ^ 26) 8).wf = false := by decide
theorem test_wf_page : (Instr.pgQuiesce 1024).wf = false := by decide
theorem test_wf_evt_page : (Instr.pgEvtClear 1024 0).wf = false := by decide
theorem test_wf_vector : (Instr.msixUnmask 64).wf = false := by decide
theorem test_wf_queue : (Instr.nop 4).wf = false := by decide
theorem test_wf_port : (Instr.linkUp 96).wf = false := by decide
theorem test_wf_priority : (Instr.pauseExpiry 0 8).wf = false := by decide
theorem test_wf_qpn : (Instr.alphaDecay 0xFFFF).wf = false := by decide
theorem test_wf_key : (Instr.keyEntryLoad (2 ^ 20)).wf = false := by decide
theorem test_wf_chain : (Instr.notify 32768).wf = false := by decide
theorem test_wf_channel : (Instr.selfRefreshEntry 48).wf = false := by decide
theorem test_wf_rank : (Instr.refresh 0 4).wf = false := by decide
theorem test_wf_subchannel : (Instr.retrainShortDone 96).wf = false := by decide
theorem test_wf_die : (Instr.dieTimeout 0 16).wf = false := by decide
theorem test_wf_nand : (Instr.caseSourceSilent 32).wf = false := by decide
theorem test_wf_strand : (Instr.strandRetrain 8).wf = false := by decide
theorem test_wf_rail : (Instr.railPowerGood 12).wf = false := by decide
theorem test_wf_core : (Instr.coreHalted 16 .exception 0).wf = false := by decide
theorem test_wf_bank : (Instr.marchTest 16).wf = false := by decide
theorem test_wf_device : (Instr.i3cIbi 64).wf = false := by decide

/-! ### Reset -/

theorem reset_inv : NMap.wf resetKey State.reset.regs = true ∧ NMap.wf (fun _ => ({} : DLine)) State.reset.tier.dram = true := by decide
theorem test_idle_step : ∃ t, step State.reset = .next t ∧ t.mono = 1 := ⟨_, rfl, by decide⟩

set_option maxRecDepth 20000

/-! ### A state and operands that meet the hypotheses of each statement

Each theorem below is named after its statement and holds, clause by clause, hypotheses of it together, on concrete states. -/

/-- After reset, with the steward link up, GLB and the listed pages READY in state 2. -/
def wUp (ps : List Nat) : State :=
  ps.foldl (fun (s : State) p => s.setStat p 2 true) { State.reset.setStat 0 2 true with pcieUp := true, ccx := {} }

/-- A command of queue 0 to a page: opcode, page, the words from the second on. -/
def wCmd (op page : Nat) (w1 w2 w3 w5 w6 : Word64) : RqCmd := ⟨pack [(0, op), (48, page)], w1, w2, w3, 0, w5, w6, 0⟩

/-- Queue 0 of `s` runs, with rings of 16, and this command stands at its front. -/
def wQ (s : State) (c : RqCmd) : State :=
  (((s.setRq 0 { fetched := [⟨c, 0, 0⟩] }).wr GLB_RQ_STAT_STATE 1).wr GLB_RQ_CTRL_SQ_SIZE 4).wr GLB_RQ_CTRL_CQ_SIZE 4

/-! A host's queue pair 0x10000 of tenant 1 in RTS with its context resident, key 5 over the first MiB of region 0, served here, and one frame
received on port 0. -/

def wPkt (op dma va : Nat) (payload : List Byte) : Packet :=
  { transport := .rc, opcode := op, destQpn := 0x10000, psn := 0, ackReq := true, rkey := 5 * 4096, va := va, dmaLen := dma, imm := 0, compare := 0, swapAdd := 1,
    flushPersist := true, syndrome := 0, payload := payload }
def wRx (b : FrameBody) : RxFrame :=
  { frame := { len := 128, fcsOk := true, dst := .uni 0, tagged := false, pcp := 0, vlan := 0, dscp := 0, ecn := 0, ipOk := true, body := b }, prio := 0, cells := 1, inHeadroom := false, arrival := 0 }
def wIp (n : Nat) : IpAddr := ⟨false, 0, BitVec.ofNat 64 n⟩
def wReq (k : Packet) : RxFrame := wRx (.roce (wIp 1) (wIp 2) 1 k none)
def wCm (m : CmMsg) : RxFrame := wRx (.roce (wIp 1) (wIp 2) 1 { wPkt 0x64 0 0 [] with transport := .udQp1, destQpn := 1 } (some m))
/-- The queue pair in this state, with this receive mode. -/
def wHostIn (st mode : Nat) (fs : List RxFrame) : State :=
  let s := ((wUp [7, 0x10, 0x11, 8, 9, 0xA, 0xB, 0x100]).wr TIR_DIRTY_MAX_EFF_MIB 1024).wr TIR_DIRTY_PAGES_MAX 1024
  { (s.wr HPT_FRAME_MAX_FRAME 4200) with
      qps := [(0x10000, { words := [(0, pack [(0, st), (4, 3), (8, 1), (56, 16)]), (7, pack [(5, 7)]), (10, BitVec.ofNat 64 mode)] })]
      ports := [(0, { rxq := fs })]
      hearth := { s.hearth with resident := [0x10000] }
      prot := { s.prot with tenants := [(1, { state := 1, qpMax := 8 })], regions := [(0, { en := true, tenant := 1, served := true })],
                            keys := [(5, { valid := true, rights := 0x3F, tenant := 1, length := 2 ^ 20 })], resident := [5] } }
def wHost (fs : List RxFrame) : State := wHostIn 3 0 fs
/-- The state that judges a request. -/
def wJudge (s : State) (k : Packet) : State := ((s.ctxUse k.destQpn).2.keysReady ((s.ctxUse k.destQpn).2.keysNeeded k)).2.ctxHold k.destQpn false

theorem witness_EmptyQueueLetsTimePass : State.reset.pending = [] ∧ State.reset.banks.reqs = [] ∧ (State.reset.wr PMU_CTRL_RUN 0).rd PMU_CTRL_RUN = 0
    ∧ (∀ e ∈ State.reset.pmu.select, fabricCounter e.2 = false) := by decide

theorem witness_StepKeepsCanonicalForm :
    (∃ t, step State.reset = .next t) ∧ NMap.wf resetKey State.reset.regs = true ∧ NMap.wf (fun _ => ({} : DLine)) State.reset.tier.dram = true :=
  ⟨⟨_, rfl⟩, by decide, by decide⟩

/-- The field and one beside it; the field and one of another register. -/
theorem witness_FieldReadsWhatWasWritten :
    GLB_RQ_CTRL_EN.lo ≤ GLB_RQ_CTRL_EN.hi ∧ GLB_RQ_CTRL_EN.hi < 64 ∧ GLB_RQ_CTRL_SQ_SIZE.lo ≤ GLB_RQ_CTRL_SQ_SIZE.hi ∧ GLB_RQ_CTRL_SQ_SIZE.hi < 64
      ∧ GLB_RQ_CTRL_EN.hi < GLB_RQ_CTRL_SQ_SIZE.lo ∧ PWR_HOLDUP_MS_MS.key ≠ GLB_RQ_CTRL_EN.key := by decide

/-- HTH.DMP.THRESH, a value that keeps the order of its thresholds. -/
theorem witness_AcceptedWriteTakesEffect :
    let s := wUp [8]
    let v : Word64 := pack [(0, 40), (8, 32), (16, 56), (24, 48), (32, 10)]
    8 < 1024 ∧ 0x158 < 0x10000 ∧ 0x158 % 8 = 0 ∧ isCounterPage 8 = false ∧ inMsix (regKey 8 0x158) = false ∧ mapped 8 = true ∧ s.hidden false 8 = false
      ∧ s.frozenBy 8 = 0 ∧ pairWide 8 0x158 = false
      ∧ (∃ d, descAt 8 0x158 = some d ∧ s.writeOk 8 0x158 (s.newValue 8 0x158 d (BitVec.allOnes 64) v) v = true
        ∧ (s.cur 8 0x158 ^^^ v) &&& d.maskOf (isFirmware 8 0x158) = 0 ∧ s.newValue 8 0x158 d (BitVec.allOnes 64) v ≠ s.cur 8 0x158) := by
  refine ⟨by decide, by decide, by decide, by decide, by decide, by decide, by decide, by decide, by decide, _, rfl, by decide, by decide, by decide⟩

theorem witness_ReadClearsRcFields :
    let s := wUp [8]
    inMsix (regKey 8 0x158) = false ∧ mapped 8 = true ∧ s.hidden false 8 = false ∧ (descAt 8 0x158).isSome = true := by decide

/-- A width the U96 does not take, and a page nothing is mapped at. -/
theorem witness_RefusedAccessIsRecorded :
    widthOk (regKey 8 0x158) 3 = false ∧ regKey 8 0x158 < 2 ^ 26 ∧ widthOk (regKey 0x30 0) 8 = true ∧ mapped (regKey 0x30 0 / 0x10000) = false
      ∧ regKey 0x30 0 < 2 ^ 26 ∧ State.reset.rd GLB_ACCESS_ERR_VALID = 0 ∧ (State.reset.wr GLB_ACCESS_ERR_VALID 1).rd GLB_ACCESS_ERR_VALID = 1 := by decide

/-- TIR and the first host port; the port is quiesced, then resets. -/
theorem witness_PageControl :
    let s := wUp [0xA, 0x100]
    let d := s.wr PG_CTRL_EN 0 0xA
    let p := (s.wr PG_CTRL_EN 1 0x100).wr PG_STAT_QUIESCED 1 0x100
    let z := (s.wr PG_CTRL_QUIESCE 1 0xA)
    quiesceSup 0xA = true ∧ s.hidden false 0xA = false ∧ s.rd PG_CTRL_QUIESCE 0xA = 0 ∧ s.drained 0xA = true ∧ s.locked 0xA = false ∧ d.rd PG_CTRL_EN 0xA = 0 ∧ d.locked 0xA = false
      ∧ s.rd PG_CTRL_EN 0xA = 1 ∧ s.quiesced 0xA = false ∧ z.rd PG_CTRL_QUIESCE 0xA = 1 ∧ z.rd PG_CTRL_EN 0xA = 1 ∧ z.quiescing 0xA = true ∧ z.drained 0xA = true
      ∧ isHpt 0x100 = true ∧ p.hidden false 0x100 = false ∧ p.locked 0x100 = false ∧ p.rd PG_CTRL_EN 0x100 = 1 ∧ p.quiesced 0x100 = true
      ∧ (p.wr PG_CTRL_SOFT_RST 1 0x100).rd PG_CTRL_SOFT_RST 0x100 = 1 := by decide

theorem witness_PageEventRegisters :
    let s := (wUp [9]).raise 9 4
    mapped 9 = true ∧ isCounterPage 9 = false ∧ s.hidden false 9 = false ∧ s.irqCond 9 = false
      ∧ (∀ e ∈ pageEvents 9, 2 ≤ e.2 → bit (s.reg (regKey 9 0x20) &&& ~~~(16 : Word64)) e.1 = false) ∧ (∃ e ∈ pageEvents 9, bit 16 e.1 = true) := by decide

/-- Queue 0 before its enable, with SQ_TAIL inside and outside a ring of 16; a queue that runs. -/
theorem witness_QueueRegisters :
    let s := wUp []
    let value : Word64 := pack [(0, 1), (8, 4), (16, 4)]
    let r := (wQ s (wCmd 1 0 0 0 0 0 0)).wr GLB_RQ_CTRL_EN 1
    s.ready 0 = true ∧ s.rd GLB_RQ_CTRL_EN 0 (rqOff 0) = 0 ∧ s.rqState 0 ≠ 2 ∧ 4 ≤ bits value 11 8 ∧ 4 ≤ bits value 19 16
      ∧ s.rd GLB_RQ_SQ_TAIL_TAIL 0 (rqOff 0) < 2 ^ bits value 11 8 ∧ 2 ^ bits value 11 8 ≤ (s.wr GLB_RQ_SQ_TAIL_TAIL 16).rd GLB_RQ_SQ_TAIL_TAIL 0 (rqOff 0)
      ∧ r.rd GLB_RQ_CTRL_EN 0 (rqOff 0) = 1 ∧ r.rqState 0 = 1 ∧ (r.rq 0).posts = [] ∧ ((r.running 0).rq 0).running = true ∧ ((r.setRq 0 {}).rq 0).fetched = []
      ∧ 3 < r.sqSize 0 ∧ r.sqSize 0 ≤ 16 ∧ r.cqSize 0 ≤ 16 ∧ 15 < r.cqSize 0 ∧ (r.rq 0).bells.getLast? = none ∧ r.rd GLB_RQ_SQ_HEAD_HEAD 0 (rqOff 0) = 0 := by decide

theorem witness_CompletionIsPosted :
    let s := wQ (wUp []) (wCmd 1 0 0 0 0 0 0)
    (∃ f fs, (s.rq 0).fetched = f :: fs) ∧ (s.rq 0).ghost = false ∧ (s.rq 0).posts = [] ∧ s.rqState 0 = 1 ∧ s.cqRoom 0 = true ∧ s.pcieUp = true :=
  ⟨⟨_, _, rfl⟩, by decide, by decide, by decide, by decide, by decide⟩
/-- A command of each kind at the front of queue 0: NOP; TABLE_INFO, TABLE_READ and TABLE_WRITE of the chains; a batch on HTH. -/
theorem witness_QueueCommands :
    let z := wCmd 1 0 0 0 0 0 0
    let i := wCmd 4 0x10 0 0 0 0 0
    let r := wCmd 2 0x10 0 0 (pack [(0, 64), (32, 1)]) 0 0
    let w := wCmd 3 0x10 5 0 (pack [(0, 64), (32, 1)]) 0 0
    let b := wCmd 5 8 0 0 (pack [(0, 16), (32, 1)]) 0 0
    let ps := [(0x158 : Word64), pack [(0, 40), (8, 32), (16, 56), (24, 48), (32, 10)]]
    let u := wUp [8, 0x10]
    (wQ u z).mayRun 0 z 1 false ∧ RqOperandsZero z = true
      ∧ (wQ u i).mayRun 0 i 4 false ∧ (wQ u r).mayRun 0 r 2 false ∧ (wQ u w).mayRun 0 w 3 false ∧ (wQ u b).mayRun 0 b 5 false
      ∧ (∃ d, (wQ u r).tableAt 0x10 0 = some d ∧ r.length = r.count * (8 * d.words) ∧ 0 < r.count ∧ r.index + r.count ≤ d.entries ∧ w.length = w.count * (8 * d.words)
        ∧ w.index + w.count ≤ d.entries ∧ d.fw = false ∧ d.writable = true ∧ d.prot = none ∧ (d.config && (wQ u w).locked 0x10) = false ∧ w.count * d.words ≤ 8 ∧ 0 < d.words)
      ∧ (wQ u w).badEntries 0x10 0 w.index w.count = false
      ∧ b.length = 16 * b.count ∧ b.length ≤ 8 * ps.length ∧ (pairsOf b.count ps).all (fun x => batchOffOk 8 x.1) = true
      ∧ (pairsOf b.count ps).any (fun x => fwRegister 8 x.1) = false ∧ (wQ u b).locked 8 = false ∧ (∀ x ∈ pairsOf b.count ps, ((wQ u b).running 0).pairRefused 8 x = none)
      ∧ (applyPairs 0 8 (pairsOf b.count ps) ((wQ u b).running 0)).isSome = true := by
  unfold State.mayRun
  refine ⟨by decide, by decide, by decide, by decide, by decide, by decide, ⟨_, rfl, ?_⟩, ?_⟩ <;> decide

/-- A doorbell has named one command more; a TABLE_WRITE whose buffer is late. -/
theorem witness_QueueCommands_fetch :
    let s := (wQ (wUp []) (wCmd 1 0 0 0 0 0 0)).setRq 0 { bells := [(1, 0)] }
    let w := wCmd 3 0x10 5 0 (pack [(0, 64), (32, 1)]) 0 0
    s.fetchable 0 = true ∧ s.pcieUp = true ∧ (s.rq 0).bells = [(1, 0)] ∧ (wQ (wUp [0x10]) w).startable 0 = some w ∧ w.opcode = 3 := by decide

theorem witness_UnmaskSendsPending :
    let s : State := { wUp [] with msixPend := 4, msixMask := 4 }
    s.msixPend.getLsbD 2 = true ∧ s.pcieUp = true := by decide

/-- The pages open to writes, the least values of each range, and an open epoch. -/
theorem witness_SettingsTakeEffect :
    let s := wUp [1, 0xA, 0xB]
    let v : Word64 := pack [(32, 1), (0, 2), (8, 0), (16, 1)]
    let e : State := { (s.wr DCH_POP_CAP_GIB 64).wr DCH_POP_SLOTS 1 with pair := { s.pair with epochs := [{ n := 1, bytes := 4096 }], openEpoch := 1 } }
    s.hidden false 1 = false ∧ s.frozenBy 1 = 0 ∧ s.frozenBy 0xA = 0 ∧ s.frozenBy 0xB = 0 ∧ (s.wr TIR_DIRTY_MAX_MAX_MIB 16384).budgetBad 16384 = false
      ∧ 1 ≤ bits v 47 32 ∧ bits v 1 0 ≠ 3 ∧ bits v 15 8 < bits v 23 16 ∧ e.openSlot.isSome = true ∧ e.hidden false 0xB = false ∧ e.frozenBy 0xB = 0
      ∧ bits (125 : Word64) 14 0 = 125 ∧ e.rd MIR_EPOCH_NS_NS ≠ 125 ∧ e.frozenBy 0xA = 0 ∧ (∃ n, 0 < n ∧ e.poolRefused n = false ∧ e.rd TIR_POOL_CFG_REGIONS ≠ n) := by
  refine ⟨by decide, by decide, by decide, by decide, by decide, by decide, by decide, by decide, by decide, by decide, by decide, by decide, by decide, by decide, 1, by decide⟩

theorem witness_CacheAndStrandEnables :
    let s := wUp [9, 0xB]
    let d := (s.wr HCA_CTRL_EN 0).wr HCA_STAT_STATE 0
    let x := s.setReg (regKey 0xB 0x100) 0
    s.hidden false 9 = false ∧ s.frozenBy 9 = 0 ∧ (s.wr HCA_STAT_STATE 1).rd HCA_CTRL_EN = 1 ∧ (s.wr HCA_STAT_STATE 1).rd HCA_STAT_STATE = 1
      ∧ d.rd HCA_CTRL_EN = 0 ∧ d.rd HCA_STAT_STATE = 0 ∧ d.frozenBy 9 = 0
      ∧ s.frozenBy 0xB = 0 ∧ 100 ≤ s.rd MIR_LINK_CFG_RETRY_NS ∧ bit (s.reg (regKey 0xB 0x100)) 35 = true ∧ bit (x.reg (regKey 0xB 0x100)) 35 = false := by decide

/-- Power is on; nothing is charged; a write with its key and GO; a SUPERVISOR runs. -/
theorem witness_DeviceResets :
    let s : State := { wUp [] with pwr := { State.reset.pwr with off := false } }
    let k := ((s.setCore 0x100 0 1).setCore 0x108 0 1).wr PG_STAT_STATE 2 0x12
    s.pwr.off = false ∧ s.rd TIR_DIRTY_CHARGED_BYTES = 0 ∧ bits (0xB007000000000001 : Word64) 63 48 = 0xB007 ∧ bit (0xB007000000000001 : Word64) 0 = true
      ∧ bit (0xB007000000000003 : Word64) 1 = true ∧ bits (1 : Word64) 63 48 ≠ 0xB007 ∧ k.wdStopped = false ∧ k.supervised = true := by decide

theorem witness_TrialEnds :
    let s : State := ({ wUp [4] with boot := { State.reset.boot with trialAt := some 5, sel0 := some { active := 1, trial := true, seqNo := 3 }, img1 := none } }).wr BFL_STATUS_STATE 2
    s.boot.trialAt = some 5 ∧ s.rd BFL_STATUS_STATE = 2 ∧ 0xC0F1 % 2 ^ 16 = 0xC0F1 ∧ s.sel.trial = true ∧ s.ready 0 = true ∧ s.sel.active < 2 ∧ 0 % 2 ^ 16 ≠ 0xC0F1 := by decide
def wImage : ImageInfo := ⟨true, true, true, 7, 0, false, 4096, true, true⟩
def wStep : StepResult := { scratchFault := false, image0 := wImage, image1 := wImage, recoveryImage := none, nand := [], manifestOk := true, lostUnits := [], openErases := [], halfErased := [] }
/-- Power is on and the start stands at this phase. -/
def wPhase (n : Nat) : State := { State.reset.wr GLB_START_STAT_PHASE n with pwr := { State.reset.pwr with off := false } }

theorem witness_BootAndRecovery :
    (wPhase 2).pwr.off = false ∧ (wPhase 2).rd GLB_START_STAT_PHASE = 2 ∧ wStep.scratchFault = false ∧ wStep.openErases = [] ∧ (wPhase 2).selRec.isSome = true
      ∧ imageFault (wPhase 2).boot.floor (imageIn wStep (wPhase 2).sel.active) = 0 ∧ { wStep with scratchFault := true }.scratchFault = true
      ∧ (wPhase 3).rd GLB_START_STAT_PHASE = 3 ∧ (wPhase 3).sel.trial = false ∧ (wPhase 3).boot.count < 2 ^ 32 - 1
      ∧ (wPhase 6).rd GLB_START_STAT_PHASE = 6 ∧ (∃ c < 48, ((wPhase 6).setChanSt 5 1).chanSt c = 1) ∧ (∀ c < 48, (wPhase 6).chanSt c ≠ 1) ∧ (wPhase 6).trainedChans = []
      ∧ (wPhase 12).rd GLB_START_STAT_PHASE = 12 ∧ (wPhase 13).rd GLB_START_STAT_PHASE = 13 ∧ (wPhase 0x20).rd GLB_START_STAT_PHASE = 0x20
      ∧ imageFault (wPhase 0x20).boot.floor wImage = 0 ∧ imageFault (wPhase 0x20).boot.floor { wImage with signatureOk := false } ≠ 0 := by decide

theorem witness_BootStoreCommands :
    let u := wUp [4]
    let c (op : Nat) : RqCmd := wCmd op 4 0 0 0 0 0
    let w := wCmd 0x41 4 256 0 256 0 0
    let x : State := wQ { u with boot := { u.boot with writing := some 1, bytes := 256 } } w
    let v : State := wQ { u with boot := { u.boot with sel0 := some { ok1 := true }, sel1 := none } } (c 0x43)
    ((wQ u (c 0x40)).blockRuns 0 (c 0x40) 4 0 0x40 false ∧ (wQ u (c 0x40)).bflZero (c 0x40) false = true ∧ (wQ u (c 0x40)).rd BFL_STATUS_STATE ≠ 2)
      ∧ (x.blockRuns 0 w 4 0 0x41 false ∧ x.bflZero w true = true ∧ x.rd BFL_STATUS_STATE ≠ 2 ∧ x.boot.writing = some (x.inactive w) ∧ w.index = x.boot.bytes
        ∧ w.index + w.length ≤ 48 * 2 ^ 20 ∧ w.length ≤ 8 * (List.replicate 32 (0 : Word64)).length)
      ∧ ((wQ u (c 0x42)).blockRuns 0 (c 0x42) 4 0 0x42 false ∧ (wQ u (c 0x42)).bflZero (c 0x42) false = true ∧ (wQ u (c 0x42)).rd BFL_STATUS_STATE ≠ 2
        ∧ imageFault (wQ u (c 0x42)).boot.floor wImage = 0 ∧ imageFault (wQ u (c 0x42)).boot.floor { wImage with digestsOk := false } ≠ 0)
      ∧ (v.blockRuns 0 (c 0x43) 4 0 0x43 false ∧ v.bflZero (c 0x43) false = true ∧ v.rd BFL_STATUS_STATE ≠ 2 ∧ v.sel.ok (v.inactive (c 0x43)) = true
        ∧ (v.wr BFL_STATUS_STATE 2).rd BFL_STATUS_STATE = 2 ∧ (v.wr BFL_STATUS_STATE 2).startable 0 = some (c 0x43))
      ∧ ((wQ u (c 0x44)).blockRuns 0 (c 0x44) 4 0 0x44 false ∧ (wQ u (c 0x44)).bflZero (c 0x44) false = true)
      ∧ ((wQ u (c 0x45)).blockRuns 0 (c 0x45) 4 0 0x45 false ∧ (wQ u (c 0x45)).bflZero (c 0x45) false = true) := by
  unfold State.blockRuns
  decide

/-- HCA's event 0 is enabled and no flag stands, then one does; its vector is open, then masked. -/
theorem witness_InterruptMessages :
    let s : State := { (wUp [9]).setReg (regKey 9 0x28) 3 with msixMask := 0 }
    let m : State := { s with msixMask := BitVec.allOnes 64, msixPend := BitVec.allOnes 64 }
    let f := s.setFlags 9 1
    let v := (s.rd GLB_IRQ_ROUTE_VECTOR 0 (8 * 9) + 0 % 2 ^ s.rd GLB_IRQ_ROUTE_SPREAD 0 (8 * 9)) % 64
    blockOf 9 = some (9, 0) ∧ s.pcieUp = true ∧ s.irqCond 9 = false ∧ (s.reg (regKey 9 0x20) ||| 1) &&& s.reg (regKey 9 0x28) ≠ 0 ∧ s.msixMask.getLsbD v = false
      ∧ m.irqCond 9 = false ∧ m.msixMask.getLsbD v = true ∧ m.msixPend.getLsbD v = true ∧ f.irqCond 9 = true ∧ isCounterPage 9 = false ∧ s.hidden false 9 = false
      ∧ f.msixMask.getLsbD v = false ∧ (f.reg (regKey 9 0x20) &&& ~~~(2 : Word64)) &&& f.reg (regKey 9 0x28) ≠ 0 ∧ f.reg (regKey 9 0x20) &&& ((1 : Word64) &&& evtMask 9) ≠ 0 := by decide

/-- Thresholds out of order, HOLD_US 0, and thresholds at the ends of their ranges. -/
theorem witness_DamperThresholdsChecked :
    let s := wUp [8]
    let v (a b c d e : Nat) : Word64 := pack [(HTH_DMP_THRESH_HALF_OFF.lo, a), (HTH_DMP_THRESH_HALF_ON.lo, b), (HTH_DMP_THRESH_SHUT_OFF.lo, c), (HTH_DMP_THRESH_SHUT_ON.lo, d), (HTH_DMP_THRESH_HOLD_US.lo, e)]
    s.hidden false 8 = false ∧ s.frozenBy 8 = 0 ∧ ¬ HTH_DMP_THRESH_HALF_OFF.of (v 5 5 6 7 1) < HTH_DMP_THRESH_HALF_ON.of (v 5 5 6 7 1) ∧ HTH_DMP_THRESH_HOLD_US.of (v 1 2 3 4 0) = 0
      ∧ HTH_DMP_THRESH_HALF_OFF.of (v 62 63 63 64 1) < HTH_DMP_THRESH_HALF_ON.of (v 62 63 63 64 1) ∧ HTH_DMP_THRESH_HALF_ON.of (v 62 63 63 64 1) ≤ HTH_DMP_THRESH_SHUT_OFF.of (v 62 63 63 64 1)
      ∧ HTH_DMP_THRESH_SHUT_OFF.of (v 62 63 63 64 1) < HTH_DMP_THRESH_SHUT_ON.of (v 62 63 63 64 1) ∧ HTH_DMP_THRESH_SHUT_ON.of (v 62 63 63 64 1) ≤ 64
      ∧ HTH_DMP_THRESH_HOLD_US.of (v 62 63 63 64 1) ≠ 0 := by decide

theorem witness_PortModeChecked :
    let s := wUp [0x15F]
    s.hidden false (0x100 + 95) = false ∧ s.frozenBy (0x100 + 95) = 0 ∧ s.rd GLB_ACCESS_ERR_VALID = 0 ∧ (s.wr PG_CTRL_EN 1 0x15F).rd PG_CTRL_EN 0x15F = 1
      ∧ HPT_MODE_FEC.of (BitVec.allOnes 64) = 3 ∧ HPT_MODE_MEDIA.of (BitVec.allOnes 64) = 3 ∧ HPT_MODE_SPEED.of (BitVec.allOnes 64) = 3
      ∧ HPT_MODE_FEC.of (pack [(HPT_MODE_FEC.lo, 1)]) = 1 ∧ HPT_MODE_MEDIA.of (pack [(HPT_MODE_FEC.lo, 1)]) ≠ 2 := by decide

/-- Core 3 runs; one region of its own admits one page; bank 8 is active, asleep or waking. -/
theorem witness_CoreAndScratchpad :
    let s := ((wUp [5, 0x12]).setCore 0x100 3 1).setCore 0x108 3 2
    let r := (((s.wr SPB_REGION_EN 1 0 0x60).wr SPB_REGION_AT 1 0 0x60).wr SPB_REGION_BASE 0x2000 0 0x60).wr SPB_REGION_LIMIT 0x2000 0 0x60
    let b (n : Nat) : State := r.setReg (regKey 5 0x100) (setBits 0x1111111111111111 35 32 n)
    let m (x : Option (Nat × Nat × Bool × Bool)) : State := { b 4 with ccx := { (b 4).ccx with march := x } }
    s.coreSt 3 = 1 ∧ (b 2).coreSt 3 = 1 ∧ (b 2).spWaits 0x2000000 = true ∧ (b 3).spWaits 0x23FFFFF = true ∧ (b 1).spWaits 0x2000000 = false ∧ (b 1).coreSt 3 = 1
      ∧ (b 1).spAdmits 3 0x2000000 .read = false ∧ (b 1).spAdmits 3 0x2000004 (.add 1) = true ∧ spMisaligned 0x2000004 (.add 1) = true ∧ spMisaligned 0x2000FF8 (.add 1) = false
      ∧ (b 1).spAdmits 3 0x2000FF8 (.add 1) = true ∧ (b 1).hidden false 5 = false ∧ (b 1).ccx.march = none ∧ (b 1).bankSt 8 = 1
      ∧ (m (some (8, 1023, false, true))).ccx.march = some (8, 1023, false, true) ∧ (m (some (8, 1024, true, true))).ccx.spWait = []
      ∧ ((b 1).wr SPB_RET_CFG_RET_EN 256).rd SPB_RET_CFG_RET_EN / 2 ^ 8 % 2 = 1 ∧ (b 2).bankSt 8 = 2 ∧ (b 3).bankSt 8 = 3 := by decide

theorem witness_BoardTargets :
    let s := (wUp [5, 9]).wr MGI_BMC_WR_PAGES 32
    let w (page : Nat) : BitVec 32 := BitVec.ofNat 32 (2 * 2 ^ 28 + regKey page 0x100)
    let r : BitVec 32 := BitVec.ofNat 32 (2 ^ 28 + regKey 9 0x100)
    let bs : List Byte := toLe 4 (regKey 5 0x100) ++ toLe 8 1
    spiOk 2 (w 5) = true ∧ s.bmcMayWrite ((w 5).toNat % 2 ^ 26) = true ∧ spiOk 2 (w 9) = true ∧ s.bmcMayWrite ((w 9).toNat % 2 ^ 26) = false ∧ spiOk 1 r = true
      ∧ mapped (pageOf (r.toNat % 2 ^ 26)) = true ∧ spiOk 2 0 = false ∧ s.rd MGI_SPI_ERR_BADOP = 0 ∧ s.rd MGI_SPI_ERR_FRAG = 0
      ∧ (toLe 4 (regKey 5 0x100)).length = 4 ∧ leNat (toLe 4 (regKey 5 0x100)) % 8 = 0 ∧ (s.wr MGI_SMB_CFG_PEC_REQ 1).rd MGI_SMB_CFG_PEC_REQ = 1 ∧ s.rd MGI_SMB_ERR_PEC = 0
      ∧ mapped (pageOf s.ccx.smbOff) = true ∧ bs.length = 12 ∧ leNat (bs.take 4) % 8 = 0 ∧ s.bmcMayWrite (leNat (bs.take 4)) = true ∧ s.rd MGI_SMB_ERR_TIMEOUT = 0 := by decide

theorem witness_BoardAndStewardLink :
    jtagFree .extest = false ∧ (wPhase 5).pwr.off = false ∧ 5 ≤ (wPhase 5).rd GLB_START_STAT_PHASE ∧ (wUp []).pcieUp = true := by decide

def wEvent : RaisedEv := ⟨5, 0x904, 0, 1, false, 0⟩
def wRec : EvRec := { time := 5, code := 0x904, inst := 0, sev := 1, test := false, seqNo := 0, arg := 0 }

theorem witness_EventRing :
    let s : State := { wUp [3] with evInbox := [wEvent] }
    let z : State := { s with rec_ := { s.rec_ with frozenAt := some 0 } }
    let o : State := { s with rec_ := { s.rec_ with ring := [(0, wRec)], open_ := [0], seqNo := 1 } }
    let h : State := { s with rec_ := { s.rec_ with frozenAt := some 0, hold := [wRec] } }
    State.reset.evInbox = [] ∧ s.mergeTarget wEvent = none ∧ s.rec_.frozenAt = none ∧ s.rec_.ring.length < 4096 ∧ z.mergeTarget wEvent = none ∧ z.rec_.hold.length < 256
      ∧ (o.wr EVR_CFG_REPEAT_US 1).mergeTarget wEvent = some wRec ∧ s.hidden false 3 = false ∧ z.hidden false 3 = false ∧ h.rec_.hold = [wRec] ∧ h.rec_.ring.length < 4096
      ∧ o.openRecs ≠ [] := by decide

/-- A ring that is full, of records of severity 1. -/
theorem witness_EventRing_full :
    let s : State := { State.reset with rec_ := { ring := List.replicate 4096 (0, wRec) } }
    4096 ≤ s.rec_.ring.length ∧ (∀ x ∈ s.rec_.ring, (0 : Nat) < x.2.sev) ∧ (∃ x ∈ s.rec_.ring, x.2.sev ≤ 1) := by
  refine ⟨Nat.le_of_eq List.length_replicate.symm, ?_, (0, wRec), ?_, by decide⟩
  · intro x hx
    rw [(List.mem_replicate.1 hx).2]
    decide
  · exact List.mem_replicate.2 ⟨by decide, rfl⟩

set_option maxRecDepth 2048 in
theorem witness_ExportAndCounters :
    let e := ((wUp [3, 8, 0xD, 0xE]).wr EVR_EXP_CTRL_EN 1).wr EVR_EXP_CTRL_SIZE 8
    let s : State := { e with rec_ := { e.rec_ with ring := [(0, { wRec with sev := 3 })], seqNo := 1 }, msixMask := 0 }
    let m := ((wUp [8, 0xE]).wr SMP_EXP_CTRL_EN 1).wr SMP_EXP_CTRL_SIZE 8
    let x : State := { m with smp := { m.smp with buf := [[1]] }, msixMask := 0 }
    let y : State := { (x.wr SMP_EXP_PTR_HEAD 1) with mono := 1000000, smp := { x.smp with stallSince := some 0 } }
    let c := wCmd 0x40 3 0 0 4096 15 0
    State.reset.rd EVR_EXP_CTRL_EN = 0 ∧ s.rd EVR_EXP_CTRL_EN = 1 ∧ s.pcieUp = true ∧ sortRecs (s.rec_.ring.map Prod.snd) = [{ wRec with sev := 3 }] ∧ s.rec_.expAt ≤ 0
      ∧ 0 ∉ s.rec_.open_ ∧ s.rd EVR_EXP_CTRL_MIN_SEV ≤ 3 ∧ s.expRoom = true ∧ s.rec_.msgAt = none ∧ s.msixMask.getLsbD (s.rd EVR_EXP_CTRL_VECTOR) = false
      ∧ x.rd SMP_EXP_CTRL_EN = 1 ∧ x.pcieUp = true ∧ x.dur.flush = none ∧ x.hearth.level ≠ 2 ∧ x.rd PG_CTRL_EN 8 = 1 ∧ x.smp.buf = [[1]] ∧ x.smpExpRoom = true
      ∧ x.rd SMP_EXP_CTRL_SIZE ≤ 20 ∧ x.smp.msgAt = none ∧ x.msixMask.getLsbD (x.rd SMP_EXP_CTRL_VECTOR) = false
      ∧ y.smpExpRoom = false ∧ y.smp.stallSince = some 0 ∧ y.smp.stallSaid = false ∧ 0 + 1000000 ≤ y.mono ∧ y.rd SMP_EXP_CTRL_EN = 1 ∧ y.rd PG_CTRL_EN 8 = 1
      ∧ s.hidden false 0xE = false ∧ s.hidden false 0xD = false ∧ s.frozenBy 0xD = 0
      ∧ (wQ e c).blockRuns 0 c 3 0 0x40 false ∧ c.count = 0 ∧ c.table = 0 ∧ bits c.w5 63 4 = 0 ∧ 4096 ≤ c.length ∧ c.length ≤ 262144 := by
  unfold State.blockRuns
  decide
def wAcc : Acc := { op := 0, seqNo := 7, line := 64, kind := .read, tenant := 1, cls := 0, demand := true, apply := false, wait := .set 0, since := 5 }
/-- The cache on, with these ways and miss registers, and these accesses waiting. -/
def wCache (ws : NMap Way) (ms : List Mshr) (as : List Acc) : State :=
  let s := (wUp [8, 9, 0xA]).wr HCA_CTRL_EN 1
  { s with cache := { s.cache with ways := ws, mshrs := ms }, dp := { s.dp with parked := as }, tier := { s.tier with pt := [(1, { st := .resident, tenant := 1 })], poolRegions := 1, layChans := [0] } }

theorem witness_HearthCacheWork :
    let s := wCache [] [] [wAcc]
    let f (k : Nat) : State := wCache [] [⟨k, 1, 0, some 0, [wAcc]⟩] []
    let b : State := { s with cache := { s.cache with flue := [⟨64, 5, false, true⟩] } }
    let w : State := { s with cache := { s.cache with writeBacks := [⟨64, 5, false, true⟩] } }
    let c (op : Nat) (a : Word64) : RqCmd := wCmd op 9 a 0 0 64 0
    let x : Way := { st := .clean, key := 64, owner := 1 }
    let i := 16 * s.setOf 64
    let v (y : Way) : State := wCache [(i, y)] [] []
    s.dp.parked.find? (fun a => a.wait == .set 0 && !((s.cache.stallSaid.filter (fun x => (s.dp.parked.map (fun a => a.seqNo)).contains x)).contains a.seqNo)) = some wAcc
      ∧ ((f 64).cache.mshrs.find? (fun m => m.key == 64) = some ⟨64, 1, 0, some 0, [wAcc]⟩ ∧ isPtKey 64 = false ∧ (f 64).eccAt (4 * dramKey 0 0 0) .good = .good)
      ∧ ((f (2 ^ 42)).cache.mshrs.find? (fun m => m.key == 2 ^ 42) = some ⟨2 ^ 42, 1, 0, some 0, [wAcc]⟩ ∧ isPtKey (2 ^ 42) = true
        ∧ (f (2 ^ 42)).eccAt (4 * dramKey ((f (2 ^ 42)).ptChannel 0) ((f (2 ^ 42)).sysPlace 0).2 0) .good = .good)
      ∧ (b.cache.flue.find? (fun f => f.key == 64 && !b.keyMoving 64)).isSome = true
      ∧ (w.cache.flue.find? (fun f => f.key == 64 && !w.keyMoving 64) = none ∧ (w.cache.writeBacks.find? (fun f => f.key == 64)).isSome = true)
      ∧ ((wQ s (c 0x40 4096)).blockRuns 0 (c 0x40 4096) 9 0 0x40 false ∧ (wQ s (c 0x41 1)).blockRuns 0 (c 0x41 1) 9 0 0x41 false ∧ (c 0x40 4096).count = 0 ∧ (c 0x40 4096).length = 0
        ∧ (c 0x40 4096).table = 0 ∧ (c 0x40 4096).index % 64 = 0 ∧ (c 0x40 4096).w5.toNat % 64 = 0 ∧ (c 0x40 4096).index + 64 ≤ 2 ^ 48 ∧ (c 0x41 1).index % 64 ≠ 0)
      ∧ ((v x).findWay 64 = some (i, x) ∧ x.unsealed = none ∧ x.pins = 0 ∧ (v { x with st := .filling }).findWay 64 = some (i, { x with st := .filling })
        ∧ (v { x with unsealed := some 1 }).findWay 64 = some (i, { x with unsealed := some 1 })) := by
  unfold State.blockRuns
  decide

theorem witness_KeysAndSeals :
    let u := wUp [6]
    let k : State := { u with cph := { u.cph with slots := [(0, { st := 2, key := 9 }), (3, { st := 2, key := 7 })] } }
    let c (op : Nat) (len w5 : Word64) : RqCmd := wCmd op 6 0 0 len w5 0
    let g := c 0x44 64 0
    let h (s : State) : State := s.wr CPH_ALLOC_SEAL_MAX 0
    ((wQ u (c 0x40 32 0)).blockRuns 0 (c 0x40 32 0) 6 0 0x40 false ∧ keyCmdZero [32] (c 0x40 32 0) = true ∧ (c 0x40 32 0).w5 = 0 ∧ 4 ≤ [(1 : Word64), 2, 3, 4].length ∧ (u.keySlot 0).st = 0
        ∧ keyOfBytes (wordsBytes [1, 2, 3, 4]) ≠ 0 ∧ keyOfBytes (wordsBytes [0, 0, 0, 0]) = 0 ∧ (k.keySlot 0).st ≠ 0)
      ∧ ((wQ k (c 0x41 40 0)).blockRuns 0 (c 0x41 40 0) 6 0 0x41 false ∧ keyCmdZero [40] (c 0x41 40 0) = true)
      ∧ ((wQ k (c 0x42 72 259)).blockRuns 0 (c 0x42 72 259) 6 0 0x42 false ∧ keyCmdZero [40, 72] (c 0x42 72 259) = true ∧ cmdSlot (c 0x42 72 259) = 259 ∧ (c 0x42 72 259).length = 72 ∧ k.loadOk 259 = true
        ∧ k.loadOk 3 = false ∧ u.loadOk 3 = true)
      ∧ ((wQ k (c 0x43 0 3)).blockRuns 0 (c 0x43 0 3) 6 0 0x43 false ∧ keyCmdZero [0] (c 0x43 0 3) = true ∧ k.clearOk 3 = true ∧ k.clearOk 2 = false ∧ k.clearOk 4 = true ∧ k.clearOk 259 = true
        ∧ (k.tenant 255).state ≠ 1)
      ∧ ((wQ k g).blockRuns 0 g 6 0 0x44 false ∧ sealSlot g = 3 ∧ (wQ k g).sealHolds = false ∧ (k.keySlot 3).st ≠ 0 ∧ (k.keySlot 3).ivNext < 2 ^ 32 ∧ (k.keySlot 3).ivNext + 1 ≠ k.rd CPH_IV_CFG_WARN
        ∧ g.length ≤ 1048575 ∧ g.length ≤ (List.replicate 64 (0 : Byte)).length ∧ (wQ k g).pcieUp = true ∧ (h (wQ k g)).sealHolds = true ∧ (h (wQ k g)).startable 0 = some g)
      ∧ ((wQ k (c 0x45 128 0)).blockRuns 0 (c 0x45 128 0) 6 0 0x45 false ∧ (wQ k (c 0x45 128 0)).sealHolds = false) := by
  unfold State.blockRuns
  refine ⟨?_, ?_, ?_, ?_, ?_, ?_⟩ <;> decide

def wCmReq : CmReq :=
  { privData := [0xA7, 1, 0, 0, 0, 0, 0, 0], pmtu := 1024, initiatorDepth := 16, hostQpn := 7, startPsn := 0, devicePsn := 0, ackTimeout := 14, retryCnt := 7, rnrRetry := 7, hopLimit := 64, flowLabel := 0,
    udpSport := 0, addrEntry := 0, recvMode := 0, slotLog2 := 6, countLog2 := 0, ringKey := 0, ringBase := 0 }

/-- The oldest connection-management message of port 0, as its statement takes it. -/
theorem witness_ConnectionManagement_taken :
    (∃ c w, (wHost [wCm (.req wCmReq)]).cmTaken 0 (fun m => match m with | .req _ => true | _ => false) c w ∧ c.msg = .req wCmReq)
      ∧ (∃ c w, (wHostIn 2 0 [wCm (.rtu 0x10000)]).cmTaken 0 (fun m => match m with | .rtu _ => true | _ => false) c w ∧ c.msg = .rtu 0x10000 ∧ w.homeOf 0x10000 = true ∧ w.qState 0x10000 = 2)
      ∧ (∃ c w, (wHost [wCm (.dreq 0x10000)]).cmTaken 0 (fun m => match m with | .dreq _ => true | _ => false) c w ∧ c.msg = .dreq 0x10000 ∧ w.homeOf 0x10000 = true ∧ w.qState 0x10000 = 3)
      ∧ (∃ c w, (wHostIn 4 0 [wCm (.drep 0x10000)]).cmTaken 0 (fun m => match m with | .drep _ => true | _ => false) c w ∧ c.msg = .drep 0x10000 ∧ w.homeOf 0x10000 = true ∧ w.qState 0x10000 = 4) := by
  refine ⟨⟨_, _, ⟨_, _, _, rfl, rfl, rfl, rfl, by decide, by decide, by decide, rfl⟩, rfl⟩,
    ⟨_, _, ⟨_, _, _, rfl, rfl, rfl, rfl, by decide, by decide, by decide, rfl⟩, rfl, by decide, by decide⟩,
    ⟨_, _, ⟨_, _, _, rfl, rfl, rfl, rfl, by decide, by decide, by decide, rfl⟩, rfl, by decide, by decide⟩,
    ⟨_, _, ⟨_, _, _, rfl, rfl, rfl, rfl, by decide, by decide, by decide, rfl⟩, rfl, by decide, by decide⟩⟩

theorem witness_ConnectionManagement :
    let w := wHost []
    let e : State := { w with qps := [(0x10000, { words := [(0, 4)], errSince := some 0 })] }
    w.ownedQps < 65536 ∧ (∃ n, w.freeQpn = some n) ∧ w.hosts.length < 4096 ∧ w.admits (wIp 1) wCmReq.privData = some 1 ∧ w.pathMtu 0 1024 = some 1024 ∧ w.ringOk wCmReq 1 = true
      ∧ w.admits (wIp 1) [] = none ∧ (e.qp 0x10000).errSince = some 0 ∧ e.qState 0x10000 = 4 := by
  refine ⟨by decide, ?_, by decide, by decide, by decide, by decide, by decide, by decide, by decide⟩
  simp only [← Option.isSome_iff_exists, State.freeQpn, Option.isSome_map, List.find?_isSome]
  exact ⟨1, by simp, by decide⟩

def wSend (d r : Option Nat) (tries : Nat) : SendOut := { psn := 0, deadline := d, tries := tries, rnrTries := 0, rnrAt := r, payload := [1], chain := none }
def wTx : TxFrame := { port := 0, prio := 0, len := 128, paced := true, body := .send 0x10000 0 [1] }

theorem witness_SendsAndRate :
    let ack : Packet := wPkt 0x11 0 0 []
    let cnp : Packet := { wPkt 0x81 0 0 [] with transport := .cnp }
    let q (s : State) (l : List SendOut) : State := s.modQp 0x10000 (fun x => { x with sends := l })
    let s := wHost [wReq ack]
    let p : State := { wHost [] with ports := [(0, { txq := [wTx] })] }
    (∃ w, s.packetTaken 0 (fun f => match f.frame.body with | .roce _ _ _ k _ => k.transport == .rc && isAck k.opcode | _ => false) ack w ∧ w.silent = false ∧ w.homeOf 0x10000 = true
        ∧ w.qState 0x10000 = 3)
      ∧ ack.syndrome < 0x20 ∧ (s.setQf 0x10000 2 55 32 1).sentPsn 0x10000 0 = true
      ∧ (s.silent = false ∧ s.qState 0x10000 = 3 ∧ ((q s [wSend (some 0) none 0]).qp 0x10000).sends = [wSend (some 0) none 0] ∧ 0 < s.qf 0x10000 7 7 5 ∧ s.qf 0x10000 7 7 5 < 7 + 1)
      ∧ (wSend none (some 0) 0).rnrAt = some 0
      ∧ (∃ v, (wHost [wReq cnp]).packetTaken 0 (fun f => match f.frame.body with | .roce _ _ _ k _ => k.transport == .cnp | _ => false) cnp v ∧ (v.rdxCount 13).rated 0x10000 = true)
      ∧ s.rated 0x10000 = true
      ∧ s.ports.all (fun e => e.2.txq.all (fun f => !(f.paced && f.body.qpn == 0x10000))) = true
      ∧ p.ports.find? (fun e => e.2.txq.any (fun f => f.paced && f.body.qpn == 0x10000)) = some (0, { txq := [wTx] }) ∧ p.port 0 = { txq := [wTx] } ∧ (wTx.paced && wTx.body.qpn == 0x10000) = true := by
  refine ⟨⟨_, ⟨_, _, rfl, rfl, _, _, _, _, rfl⟩, by decide, by decide, by decide⟩, by decide, by decide, by decide, rfl, ⟨_, ⟨_, _, rfl, rfl, _, _, _, _, rfl⟩, by decide⟩, by decide, by decide, by decide, by decide, by decide⟩
theorem witness_ReadAndWriteRequests :
    let r := wPkt 0x0C 64 0 []
    let z := wPkt 0x0C 0 0 []
    let w := wPkt 0x0A 8 0 [1, 2, 3, 4, 5, 6, 7, 8]
    let s (k : Packet) : State := wHost [wReq k]
    (∃ u, (s r).newRequest 0 isRead (wReq r) r u ∧ (u.beginReq 0 (wReq r) r).rdAtomFits 0x10000 = true ∧ ((u.beginReq 0 (wReq r) r).qp 0x10000).msg = none
        ∧ (∃ e pool, (u.beginReq 0 (wReq r) r).keyCheck r.rkey.toNat true (u.qTenant 0x10000) (rightOf .read) (some (r.va, r.dmaLen)) = .ok (e, pool)
          ∧ (u.beginReq 0 (wReq r) r).regionsServed pool r.dmaLen = true))
      ∧ (∃ u, (s z).newRequest 0 isRead (wReq z) z u)
      ∧ (∃ u, (s { r with rkey := 0 }).newRequest 0 isRead (wReq { r with rkey := 0 }) { r with rkey := 0 } u)
      ∧ (∃ c, (s r).keyCheck 0 true 1 (rightOf .read) (some (0, 64)) = .error c)
      ∧ (∃ u, (s w).newRequest 0 isWriteOp (wReq w) w u ∧ (u.qp 0x10000).msg = none ∧ w.payload.length ≤ u.qPmtu 0x10000
        ∧ (∃ e pool, u.keyCheck w.rkey.toNat true (u.qTenant 0x10000) (rightOf .write) (some (w.va, w.dmaLen)) = .ok (e, pool) ∧ u.admitWrite (u.qTenant 0x10000) pool 8 8 = none
          ∧ (∃ c, (u.wr TIR_DIRTY_MAX_EFF_MIB 0).admitWrite (u.qTenant 0x10000) pool 8 8 = some c)))
      ∧ { w with dmaLen := 7 }.payload.length ≠ 7 := by
  refine ⟨⟨_, ⟨rfl, by decide, by decide, by decide, by decide, by decide, by decide, by decide, rfl, by decide, by decide, by decide⟩, by decide, by decide, _, _, rfl, by decide⟩,
    ⟨_, rfl, by decide, by decide, by decide, by decide, by decide, by decide, by decide, rfl, by decide, by decide, by decide⟩,
    ⟨_, rfl, by decide, by decide, by decide, by decide, by decide, by decide, by decide, rfl, by decide, by decide, by decide⟩,
    ⟨_, rfl⟩,
    ⟨_, ⟨rfl, by decide, by decide, by decide, by decide, by decide, by decide, by decide, rfl, by decide, by decide, by decide⟩, by decide, by decide, _, _, rfl, by decide, .budget, by decide⟩, by decide⟩

/-- A chain that is armed for the queue pair, with one slot: its words, and the message that fires it. -/
def wChain : List Word64 := [pack [(0, 1), (8, 1), (16, 1)], 0x10000, 0, 0, 0, 0, 0, 0]
def wArm : List Byte := [0xB3, 0, 0, 0] ++ List.replicate 28 0

theorem witness_AtomicsAndFiringSends :
    let k (op : Nat) (pl : List Byte) : Packet := wPkt op 0 8 pl
    let s (f : Packet) : State := wHost [wReq f]
    let m := wPkt 4 0 0 wArm
    let b := wPkt 4 0 0 [1]
    let v (f : Packet) : State := { wHostIn 3 1 [wReq f] with chains := { chains := [(0, wChain)] } }
    (∃ u, (s (k 0x13 [])).newRequest 0 isCas (wReq (k 0x13 [])) (k 0x13 []) u ∧ (u.beginReq 0 (wReq (k 0x13 [])) (k 0x13 [])).rdAtomFits 0x10000 = true
        ∧ ∃ e pool, (u.beginReq 0 (wReq (k 0x13 [])) (k 0x13 [])).keyCheck (5 * 4096) true (u.qTenant 0x10000) (rightOf .cas) (some (8, 8)) = .ok (e, pool) ∧ pool % 8 = 0
          ∧ (u.beginReq 0 (wReq (k 0x13 [])) (k 0x13 [])).admitWrite (u.qTenant 0x10000) pool 8 64 = none)
      ∧ (∃ u, (s (k 0x14 [])).newRequest 0 isFadd (wReq (k 0x14 [])) (k 0x14 []) u)
      ∧ (∃ u, (s (k 0x1D (List.replicate 8 0))).newRequest 0 isAtomicWrite (wReq (k 0x1D (List.replicate 8 0))) (k 0x1D (List.replicate 8 0)) u)
      ∧ (∃ u e x, (s (k 0x1C [])).newRequest 0 isFlush (wReq (k 0x1C [])) (k 0x1C []) u ∧ u.keyCheck (5 * 4096) true (u.qTenant 0x10000) (rightOf (.flush true)) none = .ok (e, x))
      ∧ (∃ u, (v m).newRequest 0 isSendOp (wReq m) m u ∧ u.recvMode 0x10000 = 1 ∧ m.payload.length ≤ u.qPmtu 0x10000 ∧ (u.qp 0x10000).msg = none ∧ armHeaderOk m.payload = true
        ∧ (u.beginReq 0 (wReq m) m).matchChain 0x10000 0 = some 0 ∧ (u.beginReq 0 (wReq m) m).chainRefused (u.qTenant 0x10000) ((u.beginReq 0 (wReq m) m).chainNeed 0 0) = none
        ∧ ((u.beginReq 0 (wReq m) m).chain 0).length = 8)
      ∧ (∃ u, (v b).newRequest 0 isSendOp (wReq b) b u ∧ armHeaderOk b.payload = false)
      ∧ (v m).matchChain 0x10001 0 = none := by
  refine ⟨⟨_, ⟨rfl, by decide, by decide, by decide, by decide, by decide, by decide, by decide, rfl, by decide, by decide, by decide⟩, by decide, _, _, rfl, by decide, by decide⟩,
    ⟨_, rfl, by decide, by decide, by decide, by decide, by decide, by decide, by decide, rfl, by decide, by decide, by decide⟩,
    ⟨_, rfl, by decide, by decide, by decide, by decide, by decide, by decide, by decide, rfl, by decide, by decide, by decide⟩,
    ⟨_, _, _, ⟨rfl, by decide, by decide, by decide, by decide, by decide, by decide, by decide, rfl, by decide, by decide, by decide⟩, rfl⟩,
    ⟨_, ⟨rfl, by decide, by decide, by decide, by decide, by decide, by decide, by decide, rfl, by decide, by decide, by decide⟩, by decide, by decide, by decide, by decide, by decide, by decide, by decide⟩,
    ⟨_, ⟨rfl, by decide, by decide, by decide, by decide, by decide, by decide, by decide, rfl, by decide, by decide, by decide⟩, by decide⟩, by decide⟩

/-- The chain runs at its one slot, which holds this operation. -/
def wRun (e : List Word64) (r : Run) : State :=
  { wHost [] with chains := { chains := [(0, pack [(0, 2), (8, 1), (16, 1)] :: wChain.drop 1)], ops := [(0, e)], runs := [(0, r)] } }

theorem witness_ChainSteps :
    let r : Run := { ready := true, data := [1, 2, 3, 4, 5, 6, 7, 8] }
    let keys : Word64 := pack [(32, 5 * 4096), (0, 5 * 4096)]
    let msg := wRun [pack [(0, 1), (8, 1)], keys, 0, 0, 8, 0, 0, 0] r
    let cpy := wRun [1, keys, 0, 64, 8, 0, 0, 0] r
    let per := wRun [2, 0, 0, 0, 0, 0, 0, 0] { r with ownersWritten := true }
    let atm := wRun [3, keys, 0, 8, 0, 1, 2, 0] r
    let nfy (n : Nat) : State := wRun [4, keys, 0, 0, pack [(0, n), (32, 0x10000)], 0, 0, 0] r
    (msg.chainAt 0 1 = true ∧ msg.opLen 0 (msg.slot 0 0) = 8 ∧ bit (wordAt (msg.slot 0 0) 0) 8 = true ∧ (msg.keysReady [5]).1 = true ∧ ∃ k pool, msg.chainKey 0 (5 * 4096) 9 0 8 = .ok (k, pool))
      ∧ (cpy.chainAt 0 1 = true ∧ bit (wordAt (cpy.slot 0 0) 0) 8 = false ∧ (cpy.keysReady [5, 5]).1 = true ∧ ∃ x y, cpy.chainKey 0 (5 * 4096) 8 0 8 = .ok (x, y))
      ∧ (per.chainAt 0 2 = true ∧ (per.run 0).ownersWritten = true ∧ per.stageEpoch = none ∧ ({ per with pair := { per.pair with opened := true } } : State).stageEpoch = some 1)
      ∧ (atm.chainAt 0 3 = true ∧ ∃ k pool, atm.chainKey 0 (5 * 4096) 9 8 8 = .ok (k, pool) ∧ pool % 8 = 0)
      ∧ ((nfy 0).chainAt 0 4 = true ∧ (nfy 0).notifyOk 0 0x10000 = true ∧ (nfy 0).notifyOk 0 0x10001 = false ∧ (nfy 0).opLen 0 ((nfy 0).slot 0 0) = 0 ∧ (nfy 8).opLen 0 ((nfy 8).slot 0 0) = 8
        ∧ 8 ≤ (nfy 8).qPmtu 0x10000)
      ∧ per.chainAt 0 1 = false ∧ msg.chainAt 0 2 = false := by
  refine ⟨⟨by decide, by decide, by decide, by decide, _, _, rfl⟩, ⟨by decide, by decide, by decide, _, _, rfl⟩, by decide, ⟨by decide, _, _, rfl, by decide⟩, by decide, by decide, by decide⟩
/-- Channel 5 in this state, one slot with a DDR5 DIMM of 64 GiB and two ranks in service, its page READY. -/
def wDram (st : Nat) : State :=
  let s := ((wUp [0x45]).setReg (regKey 0x45 0x100) (pack [(0, 1), (8, 1), (18, 1), (32, 64)])).wr DCH_RANK_STATE 5 5
  s.wr PG_STAT_STATE st 0x45

theorem witness_DramWork :
    let pop : Word64 := pack [(0, 1), (8, 1), (18, 1), (32, 64)]
    let s := wDram 1
    let v := (s.setReg (regKey 0x45 0x100) (setBits pop 63 48 0)).modChan 5 (fun x => { x with serial := [(0, 7), (1, 0)] })
    let c := wCmd 0x40 0x45 0 0 0 0 0
    let r : DramReq := ⟨0, 0, 3, 9, 64, false, 0, 0⟩
    let q (s : State) : State := s.modChan 5 (fun x => { x with queue := [r] })
    let late : State := { q (wDram 3) with mono := 10000000 }
    (s.chanSt 5 = 1 ∧ bits (0 : Word64) 1 0 = 0 ∧ bits pop 1 0 ≠ 0 ∧ v.popOk 5 pop ⟨0, 0⟩ = true ∧ (trainWalk (speedsOf (v.rd DCH_POP_TYPE 5) (v.nDimms 5) (v.rd DCH_CFG_SPEED_CAP 5)) [true]).1 ≠ 0
        ∧ (trainWalk (speedsOf (v.rd DCH_POP_TYPE 5) (v.nDimms 5) (v.rd DCH_CFG_SPEED_CAP 5)) [true]).2 = 0 ∧ s.tier.retiredRec = []
        ∧ (trainWalk (speedsOf (v.rd DCH_POP_TYPE 5) (v.nDimms 5) (v.rd DCH_CFG_SPEED_CAP 5)) []).1 = 0 ∧ v.popOk 5 0 ⟨0, 0⟩ = false)
      ∧ ((wDram 4).chanSt 5 = 4 ∧ (trainWalk (speedsOf ((wDram 4).rd DCH_POP_TYPE 5) ((wDram 4).nDimms 5) ((wDram 4).rd DCH_CFG_SPEED_CAP 5)) [true]).1 ≠ 0 ∧ ((wDram 4).chan 5).fullCmd = none)
      ∧ ((wQ (wDram 3) c).blockRuns 0 c 0x40 5 0x40 false ∧ c.bare = true ∧ c.w5 = 0 ∧ (wQ (wDram 3) c).chanSt 5 = 3 ∧ (wQ (wDram 5) c).blockRuns 0 c 0x40 5 0x40 false
        ∧ (wQ (wDram 4) c).blockRuns 0 c 0x40 5 0x40 false ∧ (wQ (wDram 4) c).chanSt 5 = 4)
      ∧ (10 / 2 = 5 ∧ (wDram 3).chanSt 5 = 3 ∧ 0 ∉ ((wDram 3).chan 5).short ∧ ((wDram 3).chan 5).throttledAt = none ∧ (q (wDram 3)).pick 5 0 [3] = some r ∧ (wDram 3).pick 5 0 [3] = none
        ∧ (wDram 5).chanSt 5 ≠ 3)
      ∧ ((wDram 3).rankSt 5 0 = 1 ∧ (wDram 3).chanSt 5 ≠ 0 ∧ (wDram 3).chanSt 5 ≠ 7 ∧ (wDram 5).chanSt 5 = 5 ∧ late.demandUrgent 5 = true ∧ 0 < late.rd DCH_REFRESH_POSTPONE_MAX 5
        ∧ (wDram 3).demandUrgent 5 = false) := by
  unfold State.blockRuns
  refine ⟨?_, ?_, ?_, ?_, ?_⟩ <;> decide

theorem witness_DramCare :
    let s := wDram 3
    let t := s.modChan 5 (fun x => { x with throttledAt := some 0 })
    let b := (s.wr PWR_OP_STAT_FAMILY 1).wr DCH_SELFREF_SR_EN 1 5
    let w := (wDram 5).modChan 5 (fun x => { x with srWanted := true, refOwed := [0] })
    let a := s.modChan 5 (fun x => { x with retries := List.replicate (s.rd DCH_RETRAIN_RETRY_LIMIT 5) 0 })
    let p : State := { s with tier := { s.tier with pt := [(1, { st := .resident, ch := 5, idx := 0 })] } }
    let c (op : Nat) (len w5 : Word64) : RqCmd := wCmd op 0x45 0 0 len w5 0
    ((s.chan 5).throttledAt = none ∧ s.rd DCH_REFRESH_THROTTLE_C 5 ≤ 255 ∧ (t.chan 5).throttledAt = some 0 ∧ 0 + 2 ≤ t.rd DCH_REFRESH_THROTTLE_C 5)
      ∧ (b.chanSt 5 = 3 ∧ b.srAllowed 5 = true ∧ (b.chan 5).empty = true)
      ∧ (w.chanSt 5 = 5 ∧ (w.chan 5).srWanted = true)
      ∧ (s.rd DCH_RETRAIN_DRIFT_PS 5 < s.rd DCH_RETRAIN_DRIFT_PS 5 + 1 ∧ 1 ∉ (s.chan 5).short)
      ∧ (a.chanSt 5 = 3 ∧ a.rd DCH_RETRAIN_RETRY_LIMIT 5 < (((a.chan 5).retries.filter (fun t => decide (a.mono - t < 1000000000))) ++ [a.mono]).length
        ∧ (((s.chan 5).retries.filter (fun t => decide (s.mono - t < 1000000000))) ++ [s.mono]).length ≤ s.rd DCH_RETRAIN_RETRY_LIMIT 5)
      ∧ (s.rd DCH_POP_SLOTS 5 / 2 ^ 0 % 2 = 1 ∧ s.rd DCH_POP_SLOTS 5 / 2 ^ 1 % 2 = 0 ∧ p.rankSt 5 0 = 1 ∧ (p.chan 5).migq ++ p.usedOfRank 5 0 ++ p.sysOfRank 5 0 ≠ [])
      ∧ ((wQ s (c 0x41 0 1)).blockRuns 0 (c 0x41 0 1) 0x40 5 0x41 false ∧ (c 0x41 0 1).bare = true ∧ bits (c 0x41 0 1).w5 63 2 = 0 ∧ s.rankSt 5 1 = 1 ∧ s.rankSt 5 2 ≠ 1)
      ∧ ((wQ s (c 0x42 1024 0)).blockRuns 0 (c 0x42 1024 0) 0x40 5 0x42 false ∧ (c 0x42 1024 0).length = 1024 ∧ (c 0x42 1024 0).count = 0 ∧ bits (c 0x42 1024 0).w5 7 4 = 0) := by
  unfold State.blockRuns
  refine ⟨?_, ?_, ?_, ?_, ?_, ?_, ?_, ?_⟩ <;> decide

/-- Port 95 in each of its states (R135). -/
theorem witness_PortLinkStates :
    let s (n : Nat) : State := (wUp [0x15F]).wr PG_STAT_STATE n 0x15F
    (s 1).portSt 95 = 1 ∧ ((s 1).port 95).anFails < 9 ∧ 9 ≤ (((s 1).modPort 95 (fun x => { x with anFails := 9 })).port 95).anFails ∧ (s 2).portSt 95 = 2 ∧ (s 3).portSt 95 = 3
      ∧ (s 4).portSt 95 = 4 ∧ (s 5).portSt 95 = 5 := by decide

theorem witness_PortPauseAndStorms :
    let s (x : Port) : State := { (wUp [0x100]).wr PG_STAT_STATE 4 0x100 with ports := [(0, x)] }
    let pa : Port := { rxq := [wRx (.pause 65535)] }
    let pf : Port := { rxq := [wRx (.pfc [(7, 1), (0, 0)])] }
    let isFc (f : RxFrame) : Bool := match f.frame.body with | .pfc _ => true | .pause _ => true | _ => false
    let h : State := s { holdUntil := [(7, 5000000000)], holdSince := [(7, 0)], xoffAt := [(7, 100)] }
    let x := (s { freeSince := [(7, 0)] }).wr HPT_FC_STAT_STORM 128 0
    (((s pa).port 0).rxq.find? isFc = some (wRx (.pause 65535)) ∧ ((s pa).wr HPT_FC_CFG_FC_MODE 1 0).rd HPT_FC_CFG_FC_MODE 0 = 1 ∧ ((s pa).wr HPT_FC_CFG_FC_MODE 2 0).rd HPT_FC_CFG_FC_MODE 0 ≠ 1)
      ∧ (((s pf).port 0).rxq.find? isFc = some (wRx (.pfc [(7, 1), (0, 0)])) ∧ ([(7, 1), (0, 0)].map Prod.fst : List Nat).Nodup)
      ∧ (NMap.find (h.port 0).holdUntil 7 = some 5000000000 ∧ NMap.find (h.port 0).xoffAt 7 = some 100 ∧ h.portSt 0 = 4 ∧ (h.wr HPT_FC_STAT_TX_XOFF 128 0).xoffSent 0 7 = true ∧ h.xoffSent 0 7 = false)
      ∧ (NMap.find (h.port 0).holdSince 7 = some 0 ∧ 0 < (h.wr HPT_FC_WD_WD_MS 5000 0).rd HPT_FC_WD_WD_MS 0 * 1000000 ∧ 0 + (h.wr HPT_FC_WD_WD_MS 5000 0).rd HPT_FC_WD_WD_MS 0 * 1000000 ≤ 5000000000
        ∧ h.rd HPT_FC_STAT_STORM 0 / 2 ^ 7 % 2 = 0)
      ∧ (x.rd HPT_FC_STAT_STORM 0 / 2 ^ 7 % 2 = 1 ∧ x.heldPrio 0 7 = false ∧ NMap.find (x.port 0).freeSince 7 = some 0) := by decide

theorem witness_PortFramesAndAddresses :
    let e : AddrEntry := { state := 1, addr := wIp 2, onPort := 0 }
    let s (x : Port) : State := { ((wUp [8, 0x100]).wr PG_STAT_STATE 4 0x100).wr HPT_MODE_PTP_EN 1 with ports := [(0, x)], addrs := [(0, e)] }
    let f : Frame := { (wRx (.arp true (wIp 1) (wIp 2) 9)).frame with dst := .broadcast, len := 64 }
    let q : Announce := ⟨wIp 2, false, 0, 3, 10⟩
    let arp (r : Bool) (a b : Nat) : Port := { rxq := [wRx (.arp r (wIp a) (wIp b) 9)] }
    let t : TxFrame := { wTx with ect := true, paced := false }
    ((wUp []).portUp 0 = false ∧ (s {}).portUp 0 = true ∧ 64 ≤ f.len ∧ f.len ≤ (s {}).rd HPT_FRAME_MAX_FRAME 0 ∧ f.fcsOk = true ∧ (((s {}).hptCount 0 0).hptCount 0 1 f.len).accepted 0 f = true
        ∧ (((s {}).hptCount 0 0).hptCount 0 1 f.len).accepted 0 { f with dst := .other } = false ∧ (((s {}).wr PG_CTRL_EN 0 0x100)).quiescing 0x100 = true ∧ passesQuiesce (.ptp true 0) = false
        ∧ ((s {}).wr PG_CTRL_EN 1 0x100).quiescing 0x100 = false)
      ∧ (((s {}).lossless 0 ((s {}).chargePrio 0 f) && (s {}).xoffSent 0 ((s {}).chargePrio 0 f)) = false ∧ (s {}).portCharge 0 + cellsOf f.len ≤ (s {}).rd HTH_CELL_CAPS_PORT_CAP
        ∧ (s {}).prioCharge 0 ((s {}).chargePrio 0 f) + cellsOf f.len ≤ (s {}).rd HTH_CELL_CAPS_PRIO_CAP ∧ (s {}).hearth.level ≠ 2 ∧ cellsOf f.len ≤ (s {}).sharedFree)
      ∧ ((s (arp true 1 2)).serves 0 (wIp 2) = true ∧ (s (arp true 1 2)).servedEntry 0 (wIp 1) = none ∧ (s (arp true 1 2)).silent = false ∧ (s (arp false 2 2)).servedEntry 0 (wIp 2) = some e)
      ∧ ((s { announces := [q] }).served 0 = [e] ∧ q.isFor e = true ∧ ((s { announces := [q] }).port 0).announces.filter (fun y => y.addr == wIp 2) = [] ++ q :: [])
      ∧ ((s { rxq := [wRx (.ptp true 5)] }).port 0).rxq.find? (fun f => match f.frame.body with | .ptp .. => true | _ => false) = some (wRx (.ptp true 5))
      ∧ (((s { cur := some t }).port 0).cur = some t ∧ (s { cur := some t }).portUp 0 = true ∧ { t with pins := [3] }.pins ≠ []) := by
  refine ⟨?_, ?_, ?_, ?_, ?_, ?_⟩ <;> first | decide | exact ⟨by decide, by decide, rfl⟩

theorem witness_HearthLayoutAndDamper :
    let u := (wUp [8, 9]).wr PG_STAT_QUIESCED 1 8
    let r := ((u.wr HTH_PART_CACHE_SIZE_MIB 0x600).wr HTH_PART_EPOCH_SIZE_MIB 0x60).wr HTH_PART_MEDIA_SIZE_MIB 0x60
    let a : State := { u with hearth := { u.hearth with applying := some { u.hearth.layout with epoch := 0x60, media := 0x60 } } }
    let d := u.wr HTH_DMP_THRESH_SHUT_ON 64
    let z : State := { u with hearth := { u.hearth with resident := 7 :: List.replicate 65535 6, ctxLoads := [5] } }
    (u.ready 0 = true ∧ u.hearth.applying = none ∧ u.reqLayout = u.hearth.layout ∧ (u.wr HTH_PART_CACHE_SIZE_MIB 0x601).applyErr ((u.wr HTH_PART_CACHE_SIZE_MIB 0x601).reqLayout) ≠ 0
        ∧ r.applyErr r.reqLayout = 0 ∧ r.reqLayout ≠ r.hearth.layout ∧ a.hearth.applying.isSome = true ∧ State.reset.ready 0 = false)
      ∧ (d.ready 8 = true ∧ d.rd HTH_DMP_THRESH_SHUT_ON ≤ min 64 ((d.upTo (d.hearth.lastSample + 100)).banksGo.bankPressure + 64)
        ∧ d.rd HTH_DMP_THRESH_SHUT_OFF ≤ min 64 ((d.upTo (d.hearth.lastSample + 100)).banksGo.bankPressure + 64) ∧ d.hearth.measured ≤ 1)
      ∧ (5 ∈ z.hearth.ctxLoads ∧ u.hearth.resident.length < u.ctxRoom ∧ z.ctxRoom ≤ z.hearth.resident.length ∧ z.hearth.resident.find? (fun x => !z.ctxHeld x) = some 7 ∧ 8 ∉ z.hearth.ctxLoads) := by
  refine ⟨by decide, by decide, by decide, by decide, ?_, rfl, by decide⟩
  exact Nat.le_of_eq (by rw [show (7 :: List.replicate 65535 6 : List Nat).length = 65535 + 1 from congrArg (· + 1) List.length_replicate]; decide)
def wFlush : FlushRec := { cause := 1, startTb := 0 }
/-- Power is on and the start has ended. -/
def wRuns (ps : List Nat) : State :=
  let s := (wUp ps).wr GLB_START_STAT_PHASE 14
  { s with pwr := { s.pwr with off := false } }

theorem witness_FlushAndCleanStop :
    let s := wRuns [1]
    let f (st : Nat) (w : Bool) : State := { s.wr PWR_FLUSH_STAT_STATE st with dur := { s.dur with flush := some wFlush, waitFinal := w } }
    let c (op : Nat) (w5 : Word64) : RqCmd := wCmd op 1 0 0 0 w5 0
    let p : State := { s.wr PG_STAT_STATE 1 0xB with tier := { s.tier with poolRegions := 2 }, prot := { s.prot with ownerBase := 2 } }
    let q : State := { s with dur := { s.dur with stopping := true, stopCmd := some (0, 0) } }
    let h : State := { s with dur := { s.dur with heldBase := some 0 } }
    (s.dur.flush = none ∧ 12 ≤ s.rd GLB_START_STAT_PHASE ∧ s.rd GLB_START_STAT_PHASE ≤ 14 ∧ s.flushSt ≠ 7 ∧ s.pwr.off = false ∧ s.paired = false ∧ s.dur.stopCmd = none ∧ (f 3 false).dur.flush.isSome = true)
      ∧ ((f 2 true).dur.flush = some wFlush ∧ (f 2 true).dur.waitFinal = true ∧ (f 3 false).flushSt = 3)
      ∧ ((wQ s (c 0x40 0)).blockRuns 0 (c 0x40 0) 1 0 0x40 false ∧ (c 0x40 1).bare = true ∧ (c 0x40 1).w5.toNat ≤ 1 ∧ (wQ s (c 0x40 0)).paired = false ∧ (wQ (f 3 false) (c 0x40 0)).blockRuns 0 (c 0x40 0) 1 0 0x40 false
        ∧ (wQ p (c 0x40 0)).blockRuns 0 (c 0x40 0) 1 0 0x40 false ∧ p.paired = true ∧ p.ownedCount p.twinB ≠ 0 ∧ p.dur.flush = none)
      ∧ (q.dur.stopping = true ∧ q.dur.flush = none ∧ q.rd TIR_DIRTY_CHARGED_BYTES = 0 ∧ q.tier.destages = [] ∧ q.media.progs = [] ∧ q.flushSt ≠ 7 ∧ s.dur.stopCmd = none ∧ q.dur.stopCmd = some (0, 0))
      ∧ ((wQ s (c 0x41 0)).blockRuns 0 (c 0x41 0) 1 0 0x41 false ∧ s.dur.heldBase = none ∧ (wQ h (c 0x41 0)).blockRuns 0 (c 0x41 0) 1 0 0x41 false ∧ h.dur.heldBase.isSome = true ∧ h.dur.flush = none
        ∧ (wQ (f 3 false) (c 0x41 0)).blockRuns 0 (c 0x41 0) 1 0 0x41 false) := by
  unfold State.blockRuns
  refine ⟨?_, ?_, ?_, ?_, ?_⟩ <;> decide

theorem witness_KeyLoadsAndDrain :
    let s : State := { wUp [7] with prot := { State.reset.prot with loads := [5] } }
    let z : State := { s with hearth := { s.hearth with layout := { s.hearth.layout with ctx := 0x20 } }, prot := { s.prot with resident := [5, 6], holds := [(0, 0x10000, 5)] } }
    let c (n : Nat) : RqCmd := wCmd 0x40 7 0 0 0 (BitVec.ofNat 64 n) 0
    let v (s : State) (n : Nat) : State := ({ s.running 0 with prot := { (s.running 0).prot with drainWaits := [(0, n)] } } : State).drainUpdate
    let d := wQ (s.wr KEY_PROT_SEQ_SEQ 3) (c 3)
    let h : State := { d with prot := { d.prot with holds := [(1, 0x10000, 5)] } }
    let p := d.wr PG_STAT_STATE 1 0xB
    let b (x : Bool) : State := { s with prot := { s.prot with belowSince := some 0, slowSaid := x } }
    (5 ∈ s.prot.loads ∧ s.keyPlace = some s.prot.resident ∧ s.prot.resident.length < s.keyRoom ∧ z.keyRoom ≤ z.prot.resident.length ∧ z.prot.resident = [5] ++ 6 :: [] ∧ (∀ x ∈ [5], ∃ h ∈ z.prot.holds, h.2.2 = x)
        ∧ (∀ h ∈ z.prot.holds, h.2.2 ≠ 6) ∧ 7 ∉ s.prot.loads)
      ∧ (d.blockRuns 0 (c 3) 7 0 0x40 false ∧ (c 3).w1 = 0 ∧ (c 3).count = 0 ∧ (c 3).length = 0 ∧ (c 3).w2 = 0 ∧ d.prot.drainWaits = [] ∧ d.protSeq < 4 ∧ bits (c 3).w5 47 0 = 3
        ∧ 3 ≤ d.protSeq ∧ 3 ≤ (v d 3).rd KEY_GEN_DRAIN_DRAINED_SEQ ∧ d.prot.holds = [] ∧ d.paired = false ∧ d.rd KEY_GEN_DRAIN_DRAINED_SEQ ≤ d.protSeq)
      ∧ (h.blockRuns 0 (c 3) 7 0 0x40 false ∧ 3 ≤ h.protSeq ∧ (v h 3).rd KEY_GEN_DRAIN_DRAINED_SEQ < 3)
      ∧ (p.blockRuns 0 (c 3) 7 0 0x40 false ∧ p.paired = true ∧ p.rd KEY_GEN_DRAIN_DRAINED_SEQ ≤ min p.protSeq (min p.prot.ownFloor p.prot.twinFloor))
      ∧ ((b false).prot.belowSince = some 0 ∧ (b false).prot.slowSaid = false ∧ (b true).prot.slowSaid = true) := by
  unfold State.blockRuns
  refine ⟨?_, ?_, ?_, ?_, ?_⟩ <;> decide

theorem witness_ScrubFillAndInjection :
    let s := ((((wUp [6, 8, 0xA]).wr INT_SCRUB_CFG_EN_HEARTH 1).wr INT_SCRUB_CFG_EN_DRAM 1).setStat 0x45 3 true).wr DCH_RANK_STATE 5 5
    let l := 2 ^ 25 - 1
    let o (x : Bool) : State := { s with integ := { s.integ with laps := [(0, { overdue := x })] } }
    let c (op i : Nat) : RqCmd := wCmd 0x60 6 (BitVec.ofNat 64 i) 0 0 (BitVec.ofNat 64 op) 0
    let a (k : RqCmd) : State := wQ (s.wr INT_INJ_CFG_ARM 1) k
    let w : State := { a (c 0x11 4096) with cache := { s.cache with ways := [(16 * s.setOf 64, { st := .clean, key := 64, owner := 1 })] }, tier := { s.tier with poolRegions := 1 } }
    (s.dur.flush = none ∧ s.rd INT_SCRUB_CFG_EN_HEARTH ≠ 0 ∧ s.ready 8 = true ∧ s.hearth.level ≠ 2 ∧ s.banksGo.bankIdle (64 * l) = true ∧ s.wayOfLine l = none ∧ s.injKind (4 * l + 2) = 0)
      ∧ (s.rd INT_SCRUB_CFG_EN_DRAM ≠ 0 ∧ s.chanSt 5 = 3 ∧ s.rankSt 5 (s.rankOf 5 0) = 1 ∧ (s.chan 5).queue = [] ∧ (s.chan 5).ovf = [] ∧ s.pageOfFrame 5 0 = none ∧ s.injKind (4 * dramKey 5 0 63) = 0)
      ∧ (NMap.find (o false).integ.laps (lapKey .hearth) = some { overdue := false } ∧ NMap.find (o true).integ.laps (lapKey .hearth) = some { overdue := true })
      ∧ ((s.wr INT_FILL_CFG_LEFT_GIB 4).rd INT_FILL_CFG_LEFT_GIB ≠ 0 ∧ (s.wr INT_FILL_CFG_LEFT_GIB 4).rd PG_STAT_STATE 0xA = 2)
      ∧ ((wQ s (c 0x12 64)).blockRuns 0 (c 0x12 64) 6 0 0x60 false ∧ (wQ s (c 0x12 64)).rd INT_INJ_CFG_ARM = 0 ∧ (a (c 0x12 64)).rd INT_INJ_CFG_ARM ≠ 0 ∧ (c 0x12 64).count = 0 ∧ bits (c 0x12 64).w5 63 8 = 0 ∧ bits (c 0x02 64).w5 7 4 = 0
        ∧ bits (c 0x12 64).w5 3 0 = 2 ∧ bits (c 0x12 64).w5 7 4 = 1 ∧ (c 0x12 (2 ^ 31 - 64)).index % 64 = 0 ∧ (a (c 0x12 (2 ^ 31 - 64))).blockRuns 0 (c 0x12 (2 ^ 31 - 64)) 6 0 0x60 false
        ∧ s.wayOfLine ((2 ^ 31 - 64) / 64) = none)
      ∧ (w.blockRuns 0 (c 0x11 4096) 6 0 0x60 false ∧ bits (c 0x11 4096).w5 3 0 = 1 ∧ (c 0x11 4096).index < w.tier.poolRegions * 2 ^ 30 ∧ (w.findWay 64).isSome = true) := by
  unfold State.blockRuns
  refine ⟨?_, ?_, ?_, ?_, ?_, ?_⟩ <;> decide

/-- The first and the last line, bank and row; a queue of requests of two classes; SHUT. -/
theorem witness_HearthBanks :
    (0 % 64 = 0 ∧ (2 ^ 31 - 64) % 64 = 0 ∧ 2 ^ 31 - 64 < 2 ^ 31 ∧ 511 < 512 ∧ 65535 < 65536) ∧ ([⟨.scrub, 0, 0, 0⟩, ⟨.gather, 1, 0, 0⟩] : List BankReq) ≠ []
      ∧ ({ wUp [8] with hearth := { State.reset.hearth with level := 2 } } : State).rd PG_CTRL_EN 8 ≠ 0 := by decide

theorem witness_PowerSequence :
    let s (n : Nat) (en good : List Nat) : State := { State.reset with rails := { State.reset.rails with step := n, en := en, good := good } }
    let o (n : Nat) : State := { wRuns [] with rails := { State.reset.rails with step := n, en := [1], good := List.range 12 } }
    (1 ∉ (s 2 [1] [0, 11]).rails.good ∧ 1 ∈ (s 2 [1] [0, 11]).rails.en ∧ (s 2 [1] [0, 11]).rails.step = 2 ∧ (stepRails 2).all (fun x => x == 1 || [0, 11].contains x) = true
        ∧ (stepRails 3).all (fun x => x == 2 || [0, 1, 11].contains x) = false)
      ∧ ((s 3 [1, 2, 3] [0, 1, 3, 11]).rails.en.find? (fun r => !(s 3 [1, 2, 3] [0, 1, 3, 11]).rails.good.contains r) = some 2)
      ∧ ((o 7).rails.step = 7 ∧ (o 7).railsUp = true ∧ 5 ∈ (o 7).rails.good ∧ 7 < (o 8).rails.step ∧ (o 8).pwr.off = false ∧ flushRail 5 = true ∧ flushRail 7 = false ∧ 5 ∉ (s 2 [1] [0, 11]).rails.good
        ∧ State.reset.pwr.off = true) := by decide

theorem witness_OperatingPointAndRails :
    let s := wRuns [1]
    let l : State := { (s.wr PWR_OP_BK_PCT 20).wr PWR_OP_STAT_TARGET_MV 800 with mono := 10000000000, pwr := { s.pwr with lowSince := some 0 } }
    let b := ((s.wr PWR_OP_STAT_FAMILY 1).wr PWR_OP_FD_PCT 40).wr PWR_OP_STAT_TARGET_MV 580
    let z : State := { s with pwr := { s.pwr with slewAt := some 0 } }
    let g : State := { s with rails := { s.rails with good := List.range 12, warnSince := [(2, 0)] }, mono := 1000000000 }
    let f : State := { s.wr PWR_VIN_CUT 40000 with dur := { s.dur with flush := some wFlush } }
    (s.opForced = none ∧ s.pwr.avsFailed = false ∧ l.rd PWR_OP_STAT_FAMILY = 0 ∧ 0 * 100 / 19200000000 < l.rd PWR_OP_BK_PCT ∧ l.rd HTH_DMP_STAT_BANK_64THS < 8 ∧ l.pwr.lowSince = some 0
        ∧ l.rd PWR_OP_DWELL_MS * 1000000 ≤ l.mono ∧ l.rd PWR_OP_STAT_TARGET_MV ≠ 580 ∧ l.opForced = none ∧ b.rd PWR_OP_STAT_FAMILY = 1 ∧ b.rd PWR_OP_FD_PCT ≤ 19200000000 * 100 / 19200000000
        ∧ b.rd PWR_OP_STAT_TARGET_MV ≠ 800 ∧ b.opForced = none ∧ 16 ≤ (b.wr HTH_DMP_STAT_BANK_64THS 16).rd HTH_DMP_STAT_BANK_64THS)
      ∧ (z.pwr.slewAt = some 0 ∧ z.pwr.tries < 2 ∧ s.pwr.slewAt = none)
      ∧ (2 ∈ g.rails.good ∧ outside (g.railTarget 2) (g.rd PWR_RAIL_LIM_WARN 0 16) 850 = false ∧ outside (g.railTarget 2) (g.rd PWR_RAIL_LIM_FAULT 0 16) 850 = false)
      ∧ (outside (g.railTarget 2) ((g.wr PWR_RAIL_LIM_WARN 1 0 16).rd PWR_RAIL_LIM_WARN 0 16) 852 = true ∧ outside (g.railTarget 2) ((g.wr PWR_RAIL_LIM_FAULT 100 0 16).rd PWR_RAIL_LIM_FAULT 0 16) 852 = false
        ∧ NMap.find g.rails.warnSince 2 = some 0 ∧ g.rd PWR_RAIL_LIM_FILTER_US 0 16 * 1000 ≤ g.mono ∧ g.rd PWR_RAIL_STAT_STATE / 16 ^ 2 % 16 ≠ 3)
      ∧ (s.dur.flush = none ∧ s.rd PWR_VIN_WARN = 0 ∧ 44000 < (s.wr PWR_VIN_WARN 44001).rd PWR_VIN_WARN ∧ s.rails.vinLow = false ∧ f.dur.flush.isSome = true ∧ 39999 < f.rd PWR_VIN_CUT)
      ∧ (List.replicate 16 0).length = 16 := by
  refine ⟨?_, ?_, ?_, ?_, ?_, ?_⟩ <;> decide

def wTherm (tj : Int) (r0 r1 : Option Int) : ThermalIn := ⟨3, tj, 400, 0, 0, r0, r1, none, none, none, none⟩

theorem witness_ThermalAndLife :
    let s := wRuns [2, 0x85]
    let h : State := { s with thm := { s.thm with hourN := 2, hourSum := 3400 } }
    ((wTherm 1600 (some 1919) (some 0)).ref0 = some 1919 ∧ (wTherm 1600 (some 1919) (some 0)).ref1 = some 0 ∧ s.thm.failed = [] ∧ s.thm.warn = false ∧ s.pwr.throttle = false)
      ∧ ((16 * s.rd THM_LIMITS_WARN : Nat) : Int) ≤ (wTherm 4000 (some 0) (some 0)).tj16 ∧ ((16 * s.rd THM_LIMITS_THROTTLE : Nat) : Int) ≤ (wTherm 4000 (some 0) (some 0)).tj16
      ∧ ((wTherm 0 none (some 0)).ref0 = none ∧ 0 ∉ s.thm.failed ∧ (wTherm 0 (some 1920) none).ref0 = some 1920)
      ∧ (s.rd PG_STAT_STATE 0x85 = 2 ∧ (s.wr MED_WIN_STAT_OPEN 32).winOpen 5 = true ∧ s.rd PG_STAT_STATE 0x86 ≠ 2)
      ∧ (h.pwr.off = false ∧ h.thm.hourN ≠ 0 ∧ 1680 < h.thm.hourSum / (h.thm.hourN : Int)) := by decide

/-- Unit 0 of page 7: on its way to NAND, or there; superblock 9 of die position 3, being erased. -/
theorem witness_NandOperations :
    let u : MUnit := { page := 7, tenant := 1, lines := [] }
    let p : Prog := { stream := 0, src := none, unit := u, slc := false }
    let s := wRuns [0xA, 0xC, 0x85]
    let g : State := { s with media := { s.media with progs := [(0, p)] }, tier := { s.tier with destages := [(7, { mask := 1, demote := false, wrote := false, unit := some 0 })] } }
    let e : State := { s with media := { s.media with sbs := [(sbKey 3 9, { st := 4 })], units := [(0, u)] } }
    (NMap.find g.media.progs 0 = some p ∧ p.stream = 0 ∧ (∃ x ∈ g.tier.destages, x.1 = p.unit.page ∧ x.2.unit = some 0) ∧ NMap.find g.media.progs 1 = none)
      ∧ ((e.sb (sbKey 3 9)).st = 4 ∧ (e.sb (sbKey 3 8)).st ≠ 4)
      ∧ ((s.wr NCH_DIES_STATE 1 5).dieSt 5 0 ≠ 0 ∧ (s.wr NCH_DIES_STATE 1 5).dieSt 5 0 ≠ 4 ∧ s.dieSt 5 1 = 0)
      ∧ (NMap.find e.media.units 0 = some u ∧ e.rd MED_RETRY_REFRESH_BITS ≠ 0 ∧ NMap.find e.media.relocs 0 = none ∧ NMap.find e.media.units 8 = none) := by
  refine ⟨?_, ?_, ?_, ?_⟩ <;> decide

theorem witness_MediaUpkeep :
    let s := wRuns [0xA, 0xC]
    let m (f : Media → Media) : State := { s with media := f s.media }
    let j := m (fun x => { x with jfirst := some 0, jpend := [⟨.unmap 7, none⟩] })
    let k : State := { j.wr TIR_POOL_CFG_PT_MIB 256 with media := { j.media with jseq := 2 ^ 22 } }
    let e : Sb := { st := 2, role := 1 }
    let w := m (fun x => { x with sbs := [(0, e), (1, { st := 1, role := 1, erases := 10 ^ 6 })] })
    let pt : State := { m (fun x => { x with units := [(0, { page := 7, tenant := 1, lines := [] })] }) with tier := { s.tier with pt := [(7, { st := .media, hasMedia := true })] } }
    let c (op : Nat) : RqCmd := wCmd op 0xC 0 0 0 0 0
    let d (s : State) : State := s.wr NCH_DIES_STATE 1
    (j.media.jfirst = some 0 ∧ j.jrnNeeded < 2 ^ 22 ∧ 2 ^ 22 ≤ k.jrnNeeded ∧ k.media.jfirst = some 0 ∧ s.media.jfirst = none)
      ∧ (s.rd PG_STAT_STATE 0xC = 2 ∧ 0 < (s.wr MED_PROBE_INTERVAL_H 1).rd MED_PROBE_INTERVAL_H ∧ (m (fun x => { x with probing := true })).media.probing = true)
      ∧ ((s.wr TIR_FLUSH_RATE_VALID 1).rd TIR_FLUSH_RATE_VALID ≠ 0 ∧ (m (fun x => { x with probeSum := 1 })).media.probeSum ≠ 0)
      ∧ (w.halts 0xC = false ∧ (w.media.sbs.filter (fun e => e.2.role == 1)).filter (fun e => e.2.st == 2) = [(0, e)]
        ∧ e.erases + w.rd MED_RECLAIM_WL_DELTA < ((w.media.sbs.filter (fun e => e.2.role == 1)).map (fun e => e.2.erases)).foldl max 0 ∧ 0 < w.rd MED_RECLAIM_WL_MOVES_H)
      ∧ ((∃ x ∈ pt.media.units, addrSb x.1 = sbKey 0 0) ∧ pt.halts 0xC = false ∧ (pt.wr MED_RECLAIM_PATROL_D 1).rd MED_RECLAIM_PATROL_D ≠ 0)
      ∧ ((s.sb (sbKey 3 9)).st = 0 ∧ (s.sb (sbKey 3 9)).halves = 0)
      ∧ (5 ∉ s.media.caseRead ∧ 5 ∈ (m (fun x => { x with caseRead := [5] })).media.caseRead ∧ (s.wr MED_WIN_STAT_OPEN 32).winOpen 5 = true ∧ (s.wr MED_WIN_STAT_OPEN 0).winOpen 5 = false)
      ∧ ((wQ s (c 0x40)).blockRuns 0 (c 0x40) 0xC 0 0x40 true ∧ (wQ s (c 0x41)).blockRuns 0 (c 0x41) 0xC 0 0x41 true ∧ (c 0x41).bare = true ∧ bits (c 0x41).w5 63 9 = 0 ∧ s.dieSt 0 0 ≠ 1 ∧ s.dieSt 0 0 ≠ 2
        ∧ (d s).dieSt 0 0 = 1 ∧ (d s).dataBytes ≤ (d s).dataMaxOf ((d s).rd MED_GEOM_DIES - 1) ∧ (d pt).dataMaxOf ((d pt).rd MED_GEOM_DIES - 1) < (d pt).dataBytes) := by
  unfold State.blockRuns
  refine ⟨?_, ?_, ?_, ?_, ?_, ?_, ?_, ?_⟩ <;> decide

def wPool (ps : List (Nat × Pte)) : State :=
  let s := (wUp [7, 8, 9, 0xA, 0xB, 0xC]).wr TIR_POOL_CFG_REGIONS 1
  { s with tier := { s.tier with poolRegions := 1, pt := ps }, prot := { s.prot with regions := [(0, { en := true, tenant := 1, served := true })] } }
def wTir (op len w6 : Nat) : RqCmd := ⟨pack [(0, op), (48, 0xA)], 0, 0, 0, 0, BitVec.ofNat 64 len, BitVec.ofNat 64 w6, 0⟩

theorem witness_TierCommands :
    let e : Pte := { st := .resident, hasMedia := true, idx := 20000 }
    let s := wPool [(0, e), (1, { st := .media, hasMedia := true }), (2, { st := .zero })]
    let halt : State := s.wr PG_CTRL_EN 0 0xA
    let x (op : Nat) : TirCmd := { q := 0, op := op, pages := [0], done := 0, passed := 0, epoch := none, total := 1 }
    ((wQ s (wTir 0x41 8192 0)).blockRuns 0 (wTir 0x41 8192 0) 0xA 0 0x41 true ∧ tirZero false (wTir 0x41 8192 0) = true ∧ (wTir 0x41 8192 0).index % 4096 = 0 ∧ 8192 ≤ s.tier.poolRegions * 2 ^ 30
        ∧ tirZero false (wTir 0x41 8191 0) = true)
      ∧ ((wQ s (wTir 0x42 4096 0)).blockRuns 0 (wTir 0x42 4096 0) 0xA 0 0x42 true ∧ tirZero false (wTir 0x42 4096 0) = true)
      ∧ ((s.pte 0).dirty = false ∧ (s.pte 0).hasMedia = true ∧ 0 ∉ s.tier.redo ∧ s.halts 0xA = false ∧ s.pageUnsealed 0 = false ∧ halt.halts 0xA = true)
      ∧ ((wQ s (wTir 0x43 4096 1)).blockRuns 0 (wTir 0x43 4096 1) 0xA 0 0x43 true ∧ tirZero true (wTir 0x43 4096 1) = true ∧ bits (wTir 0x43 4096 1).w6 0 0 = 1 ∧ bits (wTir 0x43 4096 0).w6 0 0 = 0
        ∧ (wQ s (wTir 0x43 4096 0)).blockRuns 0 (wTir 0x43 4096 0) 0xA 0 0x43 true)
      ∧ ((wQ s (wTir 0x40 4096 0)).blockRuns 0 (wTir 0x40 4096 0) 0xA 0 0x40 true ∧ tirZero false (wTir 0x40 4096 0) = true ∧ s.owns 0 = true ∧ ({ s with twinB := true } : State).owns 0 = false)
      ∧ ((x 0x41).op = 0x41 ∧ (s.pte 0).st ≠ .demoting ∧ ((wPool [(0, { e with st := .demoting })]).pte 0).st = .demoting ∧ (x 0x40).fwd = 0 ∧ 0 ∉ s.tier.discardLater) := by
  unfold State.blockRuns
  refine ⟨?_, ?_, ?_, ?_, ?_, ?_⟩ <;> decide

def wMir (op : Nat) : RqCmd := wCmd op 0xB 0 0 0 0 0
def wPaired (role : Nat) : State := (wUp [7, 8, 9, 0xA]).setStat 0xB role true

theorem witness_MirCommands :
    let p := wPaired 1
    let f := wPaired 5
    (∀ op ∈ [0x40, 0x41, 0x42, 0x43], (wQ p (wMir op)).blockRuns 0 (wMir op) 0xB 0 op false ∧ (wMir op).bare = true ∧ (wMir op).w5.toNat ≤ 1)
      ∧ (p.role = 1 ∧ p.mirBusy = false ∧ p.prot.waits = [] ∧ f.role = 5 ∧ (wPaired 2).role ≠ 1) ∧ (p.pair.prefWait = false ∧ p.pair.strictWait = false)
      ∧ (p.wr MIR_RESYNC_STAT_ACTIVE 1).mirBusy = true := by
  unfold State.blockRuns
  refine ⟨?_, ?_, ?_, ?_⟩ <;> decide

/-- Pages 0 and 1 in a pool of one region: a fetch, a destage, a move out of channel 0, in each of their stages. -/
theorem witness_FetchDestageAndMove :
    let u0 : MUnit := { page := 0, tenant := 1, lines := [] }
    let e : Pte := { st := .resident, hasMedia := true, idx := 20000, dirty := true }
    let s := ((wPool [(0, e), (1, { st := .fetching, hasMedia := true, media := 8, idx := 20001 }), (2, { e with st := .moving })]).wr DCH_MIGRATE_RATE_MB 100).setStat 0xB 2 true
    let m (f : Tier → Tier) : State := { s with tier := f s.tier }
    let r : State := m (fun x => { x with recs := [(0, { born := 0, mask := 1, tenant := 1 })] })
    let d : Destage := { mask := 1, demote := true, wrote := false, unit := some 0 }
    let g : State := { m (fun x => { x with recs := [(0, { born := 0, mask := 3, tenant := 1 })], destages := [(0, d)] }) with media := { s.media with units := [(0, u0), (8, { u0 with page := 1 })] } }
    let mv (p : Option Nat) (ep : Option Nat) : State := { s.modChan 0 (fun x => { x with moveTo := some ⟨p, 5, 1, 30000, ep⟩, migq := [5] }) with pair := { s.pair with confirmed := 3 } }
    ((s.pte 0).st ≠ .fetching ∧ (s.pte 1).st = .fetching ∧ s.tier.stagingWait = [] ∧ 1 ∉ s.tier.discardLater ∧ g.injKind 7 ≠ 2 ∧ NMap.find g.media.units (g.pte 1).media = some { u0 with page := 1 }
        ∧ s.paired = false ∧ 1 ∉ s.tier.recovering ∧ (s.setStat 0xB 1 true).paired = true)
      ∧ (NMap.find s.tier.recs 0 = none ∧ NMap.find r.tier.recs 0 = some { born := 0, mask := 1, tenant := 1 } ∧ (let z := r.upTo (0 + r.rd TIR_DESTAGE_AGE_US * 1000); z.pageUnsealed 0 = false ∧ z.mediaRuns = true ∧ z.stagingFull = false ∧ r.tier.destages = [] ∧ (r.pte 0).st = .resident ∧ r.frameLost (r.pte 0) = false) ∧ (r.wr PG_CTRL_EN 0 0xC).mediaRuns = false)
      ∧ (NMap.find s.tier.destages 0 = none ∧ NMap.find g.tier.destages 0 = some d ∧ NMap.find g.tier.recs 0 = some { born := 0, mask := 3, tenant := 1 } ∧ g.destageDurable 0 d = true ∧ g.pageUnsealed 0 = false ∧ g.pageFilling 0 = false)
      ∧ ((s.chan 0).moveTo = none ∧ ((mv none none).chan 0).moveTo = some ⟨none, 5, 1, 30000, none⟩ ∧ (mv none none).rd DCH_MIGRATE_RATE_MB ≠ 0 ∧ ((mv none none).wr DCH_MIGRATE_RATE_MB 0).rd DCH_MIGRATE_RATE_MB = 0)
      ∧ (((mv (some 0) none).chan 0).moveTo = some ⟨some 0, 5, 1, 30000, none⟩ ∧ ((mv (some 0) none).pte 0).st ≠ .moving)
      ∧ (((mv (some 2) none).chan 0).moveTo = some ⟨some 2, 5, 1, 30000, none⟩ ∧ ((mv (some 2) none).pte 2).st = .moving ∧ (mv (some 2) none).moveAsksTwin 0 2 [] = false ∧ (mv (some 2) none).cache.moveWaits = [])
      ∧ (let t : State := { (mv (some 2) (some 3)).setStat 0xB 1 true with tier := { s.tier with recs := [(2, { born := 0, mask := 1, tenant := 1 })] } }; t.moveAsksTwin 0 2 [0] = true ∧ t.owns (regionOf (2 * 4096)) = true ∧ t.isConfirmed 3 = true ∧ t.isConfirmed 4 = false)
      ∧ (s.tier.growing = none ∧ (m (fun x => { x with growing := some 2 })).tier.growing = some 2) := by
  refine ⟨?_, ?_, ?_, ?_, ?_, ?_, ?_, ?_⟩ <;> decide

/-- A forwarded READ of 64 bytes. -/
def wReqMsg (psn : Nat) : FwdReqMsg := { qpn := 0x10000, psn := psn, seg := 0, op := .read, cls := 0, first := true, last := true, poolOff := 0, tenant := 1, len := 64, data := [], a := 0, b := 0, entry := [] }
/-- Strand 0 of the link is UP, epoch 3 open, the twin's epoch 3 coming in, this twin in `role`. -/
def wLk (role : Nat) : State :=
  let s := ((wPaired role).setStrandSt 0 4).wr MIR_LINK_STAT_STATE 1
  { s.wr GLB_START_STAT_PHASE 11 with
    pair := { s.pair with epochs := [{ n := 3, closed := some 0 }, { n := 2, closed := some 0 }], openEpoch := 3, opened := true, hsSentAt := some 0, fwdOut := [{ op := 9, msg := wReqMsg 5 }] }
    dp := { s.dp with ops := [{ id := 9, kind := .read, for_ := .host 0x10000, pool := 0, len := 64, tenant := 1 }] }
    tier := { s.tier with poolRegions := 1 }
    prot := { s.prot with regions := [(0, { en := true, tenant := 1, served := true })] } }

/-- A header of epoch `e` on strand 0 with nothing but the tag to set, and the same with the tag of body `b`. -/
def wHdr0 (e : Nat) : LinkHdr := ⟨1, true, false, false, 0, 1, 0, 1, 0, 0, 0, 0, e, true, []⟩
def wHdr (s : State) (e : Nat) (b : LinkBody) : LinkHdr := { wHdr0 e with tag := (s.sealFrame (!s.twinB) 0 0 (wHdr0 e) b).1 }

theorem sealFrame_withTag (s : State) (f : Bool) (n g : Nat) (h : LinkHdr) (t : List Byte) (b : LinkBody) : s.sealFrame f n g { h with tag := t } b = s.sealFrame f n g h b := by
  have e : hdrBytes { h with tag := t } b = hdrBytes h b := rfl
  unfold State.sealFrame
  rw [e]

theorem linkTagOk_wHdr (s : State) (e : Nat) (b : LinkBody) (hr : s.rxKeyGen false = some 0) : s.linkTagOk 0 (wHdr s e b) b = true := by
  unfold State.linkTagOk wHdr
  change (match s.rxKeyGen false with | some g => _ | none => _) = true
  rw [hr]
  dsimp only
  rw [beq_iff_eq]
  exact congrArg Prod.fst (sealFrame_withTag s _ 0 0 (wHdr0 e) _ b).symm

/-- The state after a frame with body `b` in order. -/
def wAfter (e : Nat) (b : LinkBody) : State :=
  let h := wHdr0 e
  let s := ((((wLk 1).takeAck 0 h).modStrand 0 (fun x => { x with rxFseq := 1, tagRun := 0, nakOwed := false, ackOwed := true })).genSeen 0 false)
  let s := (s.linkCtr 1).linkCtr 3 (1 + b.blocks)
  { s with link := { s.link with rxVseq := NMap.insert s.link.rxVseq b.vc 2, reorder := NMap.put [] s.link.reorder b.vc [] } }
/-- A frame in order is delivered. -/
theorem delivered_wAfter (e : Nat) (b : LinkBody) : (wLk 1).delivered 0 (wHdr (wLk 1) e b) b (wAfter e b) := by
  refine ⟨by decide, ?_⟩
  unfold State.receive State.takeFrameHdr
  rw [linkTagOk_wHdr (wLk 1) e b rfl]
  rfl

theorem witness_TwinFrames :
    let s := wLk 1
    let h := wHdr0 3
    let sl : SealMsg := { closeTb := 0, lastVc1 := 0, lastResync := none, dirtyBytes := 0, dirtyPages := 0, dirtyPagesMax := 0, budgetMib := 0, windowClosed := false, final := true, early := false, drill := false, noStamps := false, minStamp := 0, protSeq := 0, maxRegions := 1 }
    let hs : HandshakeMsg := { twin := .b, kind := 1, bootCount := 1, pairGen := 1, confirmed := 0, part := 0x96, layout := 1, epochNs := 50000, hbMiss := 4, fencePref := 0, ownedRegions := false, fenced := false, changeMapValid := false, serving := false, regions := 1, vc1Credit := 0, maxRegions := 1, firstEpochTb := 0, changeMapEpoch := 0, vc2Credit := 0, vc3Credit := 0 }
    let hb : HeartbeatMsg := { confirmed := 0, pairGen := 1, fenced := false, flushing := false, takingOver := false, standby := false }
    let m : FwdRespMsg := { qpn := 0x10000, psn := 5, seg := 0, status := .done, data := List.replicate 64 7, result := 0 }
    (∀ b, s.delivered 0 (wHdr s 3 b) b (wAfter 3 b))
      ∧ (s.strandSt 0 = 4 ∧ h.codewordOk = true ∧ h.nak = false ∧ s.link.queue = [] ∧ h.fseq = (s.strand 0).rxFseq + 1 ∧ h.vseq = NMap.getD s.link.rxVseq 1 1 ∧ NMap.getD s.link.reorder 1 [] = []
        ∧ s.strandSt 1 ≠ 4)
      ∧ ((wAfter 3 (.epochData [])).pair.appliedTo < h.epoch ∧ (wAfter 3 (.resync (.quarter 0 0 false 0 0 []))).pair.appliedTo < h.epoch ∧ (wAfter 3 (.seal sl)).pair.appliedTo < h.epoch
        ∧ (wAfter 3 (.seal sl)).openSlot = none)
      ∧ ((wAfter 2 .sealAck).pair.epochs.find? (fun e => e.n == 2) = some { n := 2, closed := some 0 })
      ∧ (let u := wAfter 3 (.fwdReq (wReqMsg 0)); u.ingressClosed = false ∧ u.role ≠ 5 ∧ (wReqMsg 0).op ≠ .protWrite ∧ (wReqMsg 0).op ≠ .discard ∧ (wReqMsg 0).op ≠ .stop ∧ u.pair.kept = [] ∧ u.link.partial_ = []
          ∧ u.owns (regionOf (wReqMsg 0).poolOff) = true ∧ (u.region (regionOf (wReqMsg 0).poolOff)).served = true)
      ∧ (let u := wAfter 3 (.fwdResp m); let f : FwdOut := { op := 9, msg := wReqMsg 5 }; u.pair.fwdOut.find? (fun f => f.msg.qpn == m.qpn && f.msg.psn == m.psn && f.msg.seg == m.seg) = some f
          ∧ (u.op? f.op).isSome = true ∧ m.status = .done ∧ f.msg.len ≤ f.got.length + m.data.length)
      ∧ ((wAfter 3 (.heartbeat hb)).role ≠ 6 ∧ (wAfter 3 (.heartbeat hb)).role ≠ 7)
      ∧ (let u := wAfter 3 (.handshake hs); u.pair.twinHello = none ∧ 11 ≤ u.rd GLB_START_STAT_PHASE ∧ u.pair.hsSentAt.isSome = true) := by
  refine ⟨fun b => delivered_wAfter 3 b, ?_, ?_, ?_, ?_, ?_, ?_, ?_⟩ <;> decide

/-- The lane IDs that row 0 of strand `n` carries. -/
def wLanes (n : Nat) : List Nat := (List.range 8).map (fun l => (laneId n l 0).toNat)

theorem witness_LinkStrands :
    let s := wPaired 2
    let k : State := { s.setStrandSt 0 3 with cph := { s.cph with slots := [(1, { st := 1 })] } }
    let m0 : HelloMsg := { bootCount := 1, linkCount := 1, twin := .b, gen := 0, tag := [] }
    let m : HelloMsg := { m0 with tag := k.helloTag (!k.twinB) 0 m0 }
    let up : State := s.setStrandSt 0 4
    let w (f : Strand → Strand) (st : Nat) : State := (s.setStrandSt 0 st).modStrand 0 f
    ((s.setStrandSt 0 1).strandSt 0 = 1 ∧ (s.setStrandSt 0 2).strandSt 0 = 2 ∧ lanesOk 0 (wLanes 0) = true ∧ lanesOk 1 (wLanes 0) = false ∧ up.linkState = 0 ∧ (∀ m < 8, s.strandSt m ≠ 3))
      ∧ (k.strandSt 0 = 3 ∧ (k.keySlot 1).st ≠ 0 ∧ k.helloFresh m = true ∧ k.helloFresh { m0 with bootCount := 0, linkCount := 0 } = false ∧ (s.keySlot 1).st = 0)
      ∧ m.tag = k.helloTag (!k.twinB) 0 m
      ∧ (up.strandSt 0 = 4 ∧ up.strandSt 1 ≠ 4)
      ∧ (up.strand 0).fecBad < 2 ∧ 2 ≤ ((w (fun x => { x with fecBad := 2 }) 4).strand 0).fecBad ∧ (w (fun x => { x with fecBad := 2 }) 4).strandSt 0 = 4
      ∧ (((w (fun x => { x with retrainAt := some 5 }) 0).strand 0).retrainAt = some 5 ∧ (w (fun x => { x with retrainAt := some 5 }) 0).strandSt 0 = 0 ∧ s.strandEn 0 = true ∧ (s.strand 0).retrainAt = none)
      ∧ ((w (fun x => { x with disableAt := some 5 }) 4).strand 0).disableAt = some 5 ∧ (s.strand 0).disableAt = none := by
  refine ⟨?_, ?_, rfl, ?_, ?_, ?_, ?_, ?_, ?_, ?_⟩ <;> decide

theorem sbTag_withTag (s t : State) (f : SbFrame) (x : List Byte) (h : s.cph = t.cph) : s.sbTag { f with tag := x } = t.sbTag f := by
  have e : sbBytes { f with tag := x } = sbBytes f := rfl
  unfold State.sbTag State.masterKey State.keySlot
  rw [e, h]

/-- A sideband frame with no tag, a state that received frame `x`, and the frame with the tag that state finds. -/
def wSb0 : SbFrame := { twin := .b, linkUp := true, fenced := false, flushing := false, seq := 1, tbNs := 0, pairGen := 1, confirmed := 0, bootCount := 1, tag := [] }
def wSbIn (s : State) (x : SbFrame) : State := { s with ports := [(0, { rxq := [wRx (.sideband x)] })], link := { s.link with sbTwinBoot := 1 } }
theorem wSbIn_cph (s : State) (x : SbFrame) : (wSbIn s x).cph = s.cph := rfl
def wSb : SbFrame := { wSb0 with tag := (wLk 1).sbTag wSb0 }

theorem sbFresh_wSb : (wSbIn (wLk 1) wSb).sbFresh wSb = true := by
  have e : wSb.tag = (wSbIn (wLk 1) wSb).sbTag wSb := by
    have t := sbTag_withTag (wSbIn (wLk 1) wSb) (wLk 1) wSb0 ((wLk 1).sbTag wSb0) (wSbIn_cph _ _)
    unfold wSb at t ⊢
    exact t.symm
  unfold State.sbFresh
  rw [← e, beq_self_eq_true, Bool.true_and]
  decide

theorem not_sbFresh_old : (wSbIn (wLk 1) { wSb0 with bootCount := 0 }).sbFresh { wSb0 with bootCount := 0 } = false := by
  unfold State.sbFresh
  rw [Bool.and_eq_false_iff]
  exact .inr (by decide)

theorem witness_LinkTraffic :
    let s := wLk 1
    let w (f : Strand → Strand) : State := s.modStrand 0 f
    let fr : SentFrame := { fseq := 1, vc := 1, vseq := 1, epoch := 3, blocks := 0, body := .sealAck }
    let c : LinkBody := .credit 0 false 0 0 0
    let one : State := w (fun x => { x with unacked := [fr], retryAt := some 7, ackOwed := true, rotWait := some 3 })
    let z : State := { s.wr MIR_SB_STAT_ALIVE 1 with link := { s.link with sbLast := some 9 } }
    (s.strandSt 0 = 4 ∧ s.strandSt 1 ≠ 4 ∧ (wHdr s 3 c).codewordOk = true ∧ (wHdr s 3 c).nak = false ∧ s.link.queue = [] ∧ (s.strand 0).disableAt = none ∧ (s.strand 0).tagRun < 3
        ∧ 3 ≤ ((w (fun x => { x with tagRun := 3 })).strand 0).tagRun)
      ∧ s.linkTagOk 0 (wHdr s 3 c) c = true
      ∧ s.linkTagOk 0 { wHdr0 3 with keysel := true } c = false
      ∧ ((one.strand 0).ackOwed = true ∧ one.strandSt 0 = 4 ∧ (one.strand 0).retryAt = some 7 ∧ (one.strand 0).unacked = [fr] ∧ 0 < fr.fseq ∧ fr.tries < 15 ∧ 15 ≤ ({ fr with tries := 15 } : SentFrame).tries
        ∧ (one.strand 0).rotWait = some 3 ∧ (s.strand 0).unacked = [] ∧ (s.strand 0).rotWait = none)
      ∧ (s.linkState ≠ 0 ∧ (wPaired 2).linkState = 0 ∧ s.link.txGen ≠ 0xFFFFFFFF ∧ ({ s with link := { s.link with txGen := 0xFFFFFFFF } } : State).link.txGen = 0xFFFFFFFF)
      ∧ ((s.wr MIR_SB_CFG_PORT 3).rd MIR_SB_CFG_PORT < 96 ∧ 96 ≤ (s.wr MIR_SB_CFG_PORT 127).rd MIR_SB_CFG_PORT)
      ∧ (∀ x : SbFrame, ((wSbIn (wLk 1) x).port 0).rxq.find? (fun f => match f.frame.body with | .sideband _ => true | _ => false) = some (wRx (.sideband x)) ∧ (wRx (.sideband x)).frame.body = .sideband x)
      ∧ (wSbIn (wLk 1) wSb).sbFresh wSb = true ∧ (wSbIn (wLk 1) { wSb0 with bootCount := 0 }).sbFresh { wSb0 with bootCount := 0 } = false ∧ (wSbIn (wLk 1) wSb).pair.prefWait = false
      ∧ (z.link.sbLast = some 9 ∧ z.rd MIR_SB_STAT_ALIVE = 1 ∧ z.pair.prefWait = false ∧ s.link.sbLast = none) := by
  refine ⟨?_, linkTagOk_wHdr _ _ _ rfl, rfl, ?_, ?_, ?_, fun _ => ⟨rfl, rfl⟩, sbFresh_wSb, not_sbFresh_old, ?_, ?_⟩ <;> decide

theorem witness_TwinHappenings :
    let s := wLk 1
    let i : Incoming := { n := 5, started := true, sealed := none }
    let m (f : Pair → Pair) : State := { s with pair := f s.pair }
    let a : State := { m (fun p => { p with incoming := [i] }) with dp := { s.dp with ops := [] } }
    let b : State := { a with dp := { s.dp with ops := [{ id := 1, kind := .write, for_ := .apply }] } }
    let o := m (fun p => { p with epochs := [{ n := 6 }] })
    let w0 := wLk 0
    let w : State := { w0.wr MIR_SOLO_WAIT_S 1 with pair := { w0.pair with waitSince := some 0 } }
    let c0 := wLk 7
    let c : State := { c0 with pair := { c0.pair with epochs := [{ n := 6 }], resyncOn := true } }
    (a.pair.incoming.find? (fun i => i.started) = some i ∧ (∀ o ∈ a.dp.ops, o.for_ ≠ .apply) ∧ i.sealed = none ∧ (∃ o ∈ b.dp.ops, o.for_ = .apply) ∧ ∀ i ∈ s.pair.incoming, i.started = false)
      ∧ (o.openSlot = some { n := 6 } ∧ s.openSlot = none)
      ∧ (s.linkState ≠ 0 ∧ s.pair.opened = true ∧ (wPaired 2).linkState = 0)
      ∧ ((m (fun p => { p with lastHb := some 4 })).pair.lastHb = some 4 ∧ s.paired = true ∧ s.pair.lossWait = false ∧ s.pair.lastHb = none)
      ∧ (s.pair.hsSentAt = some 0 ∧ s.pair.twinHello = none ∧ 11 ≤ s.rd GLB_START_STAT_PHASE ∧ (wPaired 2).pair.hsSentAt = none)
      ∧ (w.pair.waitSince = some 0 ∧ 0 < w.rd MIR_SOLO_WAIT_S ∧ w.role = 0 ∧ w.pair.conflict = false ∧ w.rd GLB_START_STAT_PHASE = 11 ∧ s.pair.waitSince = none)
      ∧ (c.role = 7 ∧ c.pair.resyncOn = true ∧ c.pair.listWait = false ∧ c.nextCopy = some 0 ∧ c.pageUnsealed 0 = false ∧ c.hearth.level ≠ 2 ∧ c.openSlot = some { n := 6 } ∧ s.role ≠ 7) := by
  refine ⟨?_, ?_, ?_, ?_, ?_, ?_, ?_⟩ <;> decide
end

section
/-! PROOFS. The scope of a register access: what a field write changes, what a 64-bit read returns and clears (O6, O8). -/

namespace Sys2Proof.Machine

/-! ### A field write -/

/-- A field write keeps the canonical form of the register file. -/
theorem State.wr_regs_wf (s : State) (f : Fld) (v i a : Nat) (h : NMap.wf resetKey s.regs = true) :
    NMap.wf resetKey (s.wr f v i a).regs = true :=
  ((Keep.refl s).setReg _ _).regs h

/-- Settles O6: of the register written, the field and the fields beside it; of another register, every field. -/
theorem fieldReadsWhatWasWritten : Obligations.FieldReadsWhatWasWritten := by
  intro s f g v i a j b hf hf64 _ hg64
  refine ⟨State.rd_wr_same s f v i a hf64 hf, ?_, State.wr_regs_wf s f v i a⟩
  rintro (hkey | hapart)
  · exact State.rd_wr_other s f g v i a j b hkey
  · exact State.rd_wr_apart s f g v i a j b hf64 hg64 hf hapart

/-! ### The address of a register -/

theorem pageOf_regKey (page : Nat) {off : Nat} (h : off < 0x10000) : pageOf (regKey page off) = page := by
  unfold pageOf regKey; omega

theorem offOf_regKey (page : Nat) {off : Nat} (h : off < 0x10000) (h8 : off % 8 = 0) : offOf (regKey page off) = off := by
  unfold offOf regKey; omega

theorem regKey_lt {page off : Nat} (hp : page < 1024) (h : off < 0x10000) : regKey page off < 2 ^ 26 := by
  unfold regKey; omega

theorem widthOk_regKey (page : Nat) {off : Nat} (h8 : off % 8 = 0) : widthOk (regKey page off) 8 = true := by
  have : regKey page off % 8 = 0 := by unfold regKey; omega
  simp [widthOk, this]

/-! ### A 64-bit read -/

/-- A register with the bits of a mask cleared; with none to clear the state stands. -/
def State.clearBits (s : State) (k : Nat) (m : Word64) : State :=
  if m = 0 then s else s.setReg k (s.reg k &&& ~~~m)

theorem State.reg_clearBits_same (s : State) (k : Nat) (m : Word64) : (s.clearBits k m).reg k = s.reg k &&& ~~~m := by
  unfold State.clearBits
  split
  · rename_i hm; rw [hm]; exact BitVec.and_allOnes.symm
  · exact State.reg_setReg_same s k _

theorem State.clearBits_regsKept (s : State) (k : Nat) (m : Word64) : regsKept s (s.clearBits k m) [k] := by
  intro j hj
  unfold State.clearBits
  split
  · rfl
  · exact State.reg_setReg_other s _ (by simpa using hj)

@[simp] theorem State.clearBits_out (s : State) (k : Nat) (m : Word64) : (s.clearBits k m).out = s.out := by
  unfold State.clearBits
  split
  · rfl
  · exact State.setReg_out s k _

/-- Clearing bits of a register changes the register file alone. -/
theorem State.clearBits_eq (s : State) (k : Nat) (m : Word64) : s.clearBits k m = { s with regs := (s.clearBits k m).regs } := by
  unfold State.clearBits; split <;> rfl

/-- A 64-bit read of a register that shows, outside the MSI-X table, returns what it reads as and clears its RC fields (R12, R41). -/
theorem State.busRead_regKey (s : State) {page off : Nat} {d : RegDesc} (hp : page < 1024) (ho : off < 0x10000) (h8 : off % 8 = 0)
    (hx : inMsix (regKey page off) = false) (hm : mapped page = true) (hh : s.hidden false page = false) (hd : descAt page off = some d) :
    s.busRead (regKey page off) 8 = (s.view page off, s.clearBits (regKey page off) d.rcMask) := by
  have hbar : ¬ 2 ^ 26 ≤ regKey page off := Nat.not_le.mpr (regKey_lt hp ho)
  have hmask (w : Word64) : w &&& halfMask 8 (regKey page off) = w := BitVec.and_allOnes
  have htaken (w : Word64) : taken 8 (regKey page off) w = w := rfl
  unfold State.busRead State.clearBits
  simp only [pageOf_regKey page ho, offOf_regKey page ho h8, hbar, widthOk_regKey page h8, hx, hm, hh, hd, hmask, htaken,
    Bool.not_true, Bool.false_eq_true, if_false, Bool.or_false, decide_eq_true_eq]
  exact (apply_ite (Prod.mk _) _ _ _).symm

/-- A register read sends the value out after what the read cleared. -/
theorem exec_rcFieldRead (s : State) (addr width : Nat) :
    exec (.rcFieldRead addr width) s = .next ((s.busRead addr width).2.emit (.readData addr (s.busRead addr width).1)) := rfl

/-- Settles O8, by what a 64-bit read of BAR0 does: the state after it is the one with the RC fields cleared and the value sent out. -/
theorem readClearsRcFields : Obligations.ReadClearsRcFields := by
  intro s page off d hp ho h8 hx hm hh hd
  let k := regKey page off
  let c := s.clearBits k d.rcMask
  have hread : s.busRead k 8 = (s.view page off, c) := s.busRead_regKey hp ho h8 hx hm hh hd
  have hframe : c = { s with regs := c.regs } := s.clearBits_eq k d.rcMask
  refine ⟨c.emit (.readData k (s.view page off)), ?_, ?_, ?_, ?_, ?_⟩
  · rw [exec_rcFieldRead, hread]
  · exact congrArg _ (s.clearBits_out k d.rcMask)
  · exact s.reg_clearBits_same k d.rcMask
  · exact s.clearBits_regsKept k d.rcMask
  · rw [hframe]; rfl

end Sys2Proof.Machine
end

section
/-! PROOFS. An empty queue: one nanosecond of the reference passes, the banks grant, the performance counters count (O2). -/

namespace Sys2Proof.Machine

/-! ### The clock -/

/-- In one nanosecond a slew takes at most one picosecond off an offset, and never more than is left of it (R26). -/
theorem State.slewed_one (s : State) :
    (s.slewed s.mono (s.mono + 1)).natAbs ≤ 1 ∧ (s.link.slewPs - s.slewed s.mono (s.mono + 1)).natAbs ≤ s.link.slewPs.natAbs := by
  unfold State.slewed
  dsimp only
  split <;> omega

/-- One nanosecond of the reference moves the clock on by whole nanoseconds, none to two, and the offset by at most a picosecond; what is not
whole is carried on (R26). -/
theorem State.advanceBy_one (s : State) :
    let t := s.advanceBy 1
    s.mono ≤ t.mono ∧ t.mono ≤ s.mono + 2
      ∧ (1000 * t.mono : Int) - t.link.fracPs - t.link.slewPs = 1000 * s.mono + 1000 - s.link.fracPs % 1000 - s.link.slewPs
      ∧ 0 ≤ t.link.fracPs ∧ t.link.fracPs < 1000
      ∧ t.link.slewPs.natAbs ≤ s.link.slewPs.natAbs ∧ (s.link.slewPs - t.link.slewPs).natAbs ≤ 1 := by
  obtain ⟨hone, hleft⟩ := s.slewed_one
  unfold State.advanceBy
  dsimp only
  generalize s.slewed s.mono (s.mono + 1) = c at hone hleft ⊢
  refine ⟨?_, ?_, ?_, ?_, ?_, hleft, ?_⟩ <;> omega

/-! ### What banks and counters may change -/

/-- From `a` to `b` banks granted and performance counters counted, and nothing else happened: with PMU stopped no counter moved, and without
a selected counter of the fabric no free value was taken (R461; log 152). -/
structure OnlyCounts (a b : State) : Prop where
  frame : b = { a with banks := b.banks, pmu := { a.pmu with live := b.pmu.live }, freeNext := b.freeNext }
  stopped : a.rd PMU_CTRL_RUN = 0 → b.pmu = a.pmu ∧ b.freeNext = a.freeNext
  free : (∀ e ∈ a.pmu.select, fabricCounter e.2 = false) → b.freeNext = a.freeNext

theorem OnlyCounts.refl (s : State) : OnlyCounts s s := ⟨rfl, fun _ => ⟨rfl, rfl⟩, fun _ => rfl⟩

theorem OnlyCounts.regs {a b : State} (h : OnlyCounts a b) : b.regs = a.regs := (congrArg State.regs h.frame).trans rfl

theorem OnlyCounts.select {a b : State} (h : OnlyCounts a b) : b.pmu.select = a.pmu.select :=
  (congrArg (fun s => s.pmu.select) h.frame).trans rfl

theorem OnlyCounts.pmu {a b : State} (h : OnlyCounts a b) : b.pmu = { a.pmu with live := b.pmu.live } :=
  (congrArg State.pmu h.frame).trans rfl

/-- PMU runs still, or stands still, where only counts were made. -/
theorem OnlyCounts.run {a b : State} (h : OnlyCounts a b) : b.rd PMU_CTRL_RUN = a.rd PMU_CTRL_RUN := State.rd_congr h.regs _ _ _

theorem OnlyCounts.trans {a b c : State} (h : OnlyCounts a b) (k : OnlyCounts b c) : OnlyCounts a c := by
  refine ⟨?_, fun hrun => ?_, fun hsel => ?_⟩
  · calc c = { b with banks := c.banks, pmu := { b.pmu with live := c.pmu.live }, freeNext := c.freeNext } := k.frame
      _ = _ := by rw [h.frame]
  · have hb : b.rd PMU_CTRL_RUN = 0 := h.run.trans hrun
    exact ⟨(k.stopped hb).1.trans (h.stopped hrun).1, (k.stopped hb).2.trans (h.stopped hrun).2⟩
  · exact (k.free (by rw [h.select]; exact hsel)).trans (h.free hsel)

/-- A change of the banks alone. -/
theorem OnlyCounts.banks (s : State) (b : Banks) : OnlyCounts s { s with banks := b } := ⟨rfl, fun _ => ⟨rfl, rfl⟩, fun _ => rfl⟩

/-- While PMU runs a counter may take any value. -/
theorem OnlyCounts.live {s : State} (hrun : s.rd PMU_CTRL_RUN ≠ 0) (l : NMap Word64) :
    OnlyCounts s { s with pmu := { s.pmu with live := l } } := ⟨rfl, fun h => absurd h hrun, fun _ => rfl⟩

theorem State.pmuCount_onlyCounts (s : State) (src ev inst tenant n : Nat) : OnlyCounts s (s.pmuCount src ev inst tenant n) := by
  unfold State.pmuCount
  split
  · exact OnlyCounts.refl s
  · next h =>
    simp only [Bool.or_eq_true, decide_eq_true_eq, not_or] at h
    refine List.foldlRecOn _ _ (OnlyCounts.refl s) (fun u hu e _ => hu.trans ?_)
    dsimp only
    split
    · exact OnlyCounts.live (by rw [hu.run]; exact h.2) _
    · exact OnlyCounts.refl u

theorem State.grant_onlyCounts (s : State) (b t : Nat) (r : BankReq) : OnlyCounts s (s.grant b t r) := by
  unfold State.grant
  exact ((OnlyCounts.banks s _).trans (State.pmuCount_onlyCounts _ ..)).trans (State.pmuCount_onlyCounts _ ..)

theorem bankLoop_onlyCounts (k : Nat) (s : State) (b : Nat) : OnlyCounts s (bankLoop k s b) := by
  induction k generalizing s with
  | zero => exact OnlyCounts.refl s
  | succ k ih =>
    unfold bankLoop
    dsimp only
    split
    · exact OnlyCounts.refl s
    · split
      · exact OnlyCounts.refl s
      · split
        · exact (State.grant_onlyCounts ..).trans (ih _)
        · exact OnlyCounts.refl s

theorem State.banksGo_onlyCounts (s : State) : OnlyCounts s s.banksGo := by
  unfold State.banksGo
  split
  · exact OnlyCounts.refl s
  · refine OnlyCounts.trans ?_ (OnlyCounts.banks _ _)
    exact List.foldlRecOn _ _ (OnlyCounts.refl s) (fun u hu e _ => hu.trans (bankLoop_onlyCounts e.2.length u e.1))

/-- Where no request waits the banks do nothing. -/
theorem State.banksGo_of_no_requests {s : State} (h : s.banks.reqs = []) : s.banksGo = s := by
  unfold State.banksGo
  rw [h]
  rfl

/-- The fabric's counters leave the banks alone. -/
theorem State.fabricCount_banks (s : State) : s.fabricCount.banks = s.banks := by
  unfold State.fabricCount
  split
  · rfl
  · exact List.foldlRecOn (motive := fun t : State => t.banks = s.banks) _ _ rfl (fun _ ht _ _ => ht)

theorem State.fabricCount_onlyCounts (s : State) : OnlyCounts s s.fabricCount := by
  unfold State.fabricCount
  split
  · exact OnlyCounts.refl s
  · next hrun =>
    refine List.foldlRecOn _ _ (OnlyCounts.refl s) (fun u hu e he => hu.trans ?_)
    obtain ⟨hmem, hfabric⟩ := List.mem_filter.mp he
    have hrun' : u.rd PMU_CTRL_RUN ≠ 0 := by rwa [hu.run]
    refine ⟨rfl, fun h => absurd h hrun', fun h => ?_⟩
    rw [← hu.select] at hmem
    exact absurd hfabric (by rw [h e hmem]; decide)

/-- What passes in a nanosecond beside the clock. -/
theorem State.idle_onlyCounts (s : State) : OnlyCounts (s.advanceBy 1) s.idle :=
  (State.banksGo_onlyCounts _).trans (State.fabricCount_onlyCounts _)

theorem State.idle_banks_of_no_requests {s : State} (h : s.banks.reqs = []) : s.idle.banks = s.banks := by
  unfold State.idle
  rw [State.fabricCount_banks, State.banksGo_of_no_requests (s := s.advanceBy 1) (by simpa using h), State.advanceBy_banks]

theorem step_of_no_pending {s : State} (h : s.pending = []) : step s = .next s.idle := by
  unfold step
  rw [h]

/-- Settles O2: the clock goes on by `advanceBy_one`, and what the banks and the counters then do is `idle_onlyCounts`. -/
theorem emptyQueueLetsTimePass : Obligations.EmptyQueueLetsTimePass := by
  intro s hpending
  have hcount : OnlyCounts (s.advanceBy 1) s.idle := s.idle_onlyCounts
  have hmono : s.idle.mono = (s.advanceBy 1).mono := (congrArg State.mono hcount.frame).trans rfl
  have hlink : s.idle.link = (s.advanceBy 1).link := (congrArg State.link hcount.frame).trans rfl
  obtain ⟨hback, hfast, hlost, hfrac, hfrac', hleft, hslew⟩ := s.advanceBy_one
  refine ⟨s.idle, step_of_no_pending hpending, ?_⟩
  rw [hmono, hlink]
  refine ⟨hback, hfast, hlost, hfrac, hfrac', hleft, hslew, State.idle_banks_of_no_requests, fun hrun => ?_, hcount.free, hcount.pmu, ?_⟩
  · exact hcount.stopped hrun
  · calc s.idle = { s.advanceBy 1 with banks := s.idle.banks, pmu := { (s.advanceBy 1).pmu with live := s.idle.pmu.live }, freeNext := s.idle.freeNext } := hcount.frame
      _ = { s.advanceBy 1 with banks := s.idle.banks, pmu := s.idle.pmu, freeNext := s.idle.freeNext } := by rw [← hcount.pmu]

end Sys2Proof.Machine
end

section
/-! PROOFS. The operating point, rail telemetry, input power and the pace of an oscillator (O49). -/

namespace Sys2Proof.Machine

/-! ### Time, registers and events that an operation leaves alone -/

theorem State.upTo_mono (s : State) (t : Nat) : (s.upTo t).mono = max s.mono t := by
  unfold State.upTo
  split
  · next h => exact (Nat.max_eq_left h).symm
  · next h => exact (Nat.max_eq_right (Nat.le_of_not_le h)).symm

theorem State.rd_upTo (s : State) (t : Nat) (f : Fld) (i a : Nat) : (s.upTo t).rd f i a = s.rd f i a :=
  State.rd_congr (State.upTo_regs s t) f i a

theorem State.rd_raise (s : State) (p n : Nat) {f : Fld} {i a : Nat} (h : f.key i a ≠ regKey p 0x20) (h' : f.key i a ≠ regKey p 0x18) :
    (s.raise p n).rd f i a = s.rd f i a := by
  unfold State.rd
  rw [State.reg_raise s p n h h']

/-- An event raised by a state that sent nothing to the recorder so far is raised from the first state. -/
theorem raisedIn_raise {s u : State} (p n : Nat) {sev b i : Nat} (hu : u.evInbox = s.evInbox) (h : evSeverity p n = some sev)
    (hb : blockOf p = some (b, i)) (hn : n < 64) : raisedIn s (u.raise p n) p n := by
  have hraised := State.raise_raisedIn u p n h hb hn
  unfold raisedIn at hraised ⊢
  rwa [hu] at hraised

theorem regsKept.trans {a b c : State} {ks : List Nat} (h : regsKept a b ks) (k : regsKept b c ks) : regsKept a c ks :=
  fun j hj => (k j hj).trans (h j hj)

theorem regsKept.mono {a b : State} {ks ls : List Nat} (h : regsKept a b ks) (hl : ks ⊆ ls) : regsKept a b ls :=
  fun j hj => h j (fun hk => hj (hl hk))

theorem regsKept.of_regs {a b : State} (h : b.regs = a.regs) (ks : List Nat) : regsKept a b ks := fun j _ => State.reg_congr h j

theorem State.wr_regsKept (s : State) (f : Fld) (v i a : Nat) : regsKept s (s.wr f v i a) [f.key i a] := by
  intro j hj
  rw [State.reg_wr, if_neg (by simpa using hj)]

theorem regsKept.rd {a b : State} {ks : List Nat} (h : regsKept a b ks) {f : Fld} {i j : Nat} (hk : f.key i j ∉ ks) :
    b.rd f i j = a.rd f i j := by
  unfold State.rd
  rw [h _ hk]

/-! ### A move of VCORE (R478, R480) -/

theorem State.opTo_mono (s : State) (banked : Bool) (cause : Nat) : (s.opTo banked cause).mono = s.mono := by
  unfold State.opTo
  dsimp only
  split <;> simp

theorem State.opTo_sampleAt (s : State) (banked : Bool) (cause : Nat) : (s.opTo banked cause).pwr.sampleAt = s.pwr.sampleAt := by
  unfold State.opTo
  dsimp only
  split <;> simp

/-- A move of VCORE where it is not at the family's level nor on its way there (R478, R480). -/
theorem State.opTo_moves {s : State} {banked : Bool} (cause : Nat) (h : s.rd PWR_OP_STAT_TARGET_MV ≠ familyMv banked) :
    let t := s.opTo banked cause
    t.rd PWR_OP_STAT_TARGET_MV = familyMv banked ∧ t.rd PWR_OP_STAT_FAMILY = 2 ∧ t.pwr.toBanked = banked ∧ t.pwr.slewAt = some s.mono
      ∧ t.out = .vcore (familyMv banked) :: s.out := by
  have hcause : (s.wr PWR_OP_STAT_CAUSE cause).rd PWR_OP_STAT_TARGET_MV = s.rd PWR_OP_STAT_TARGET_MV := by
    simp (disch := decide) only [State.rd_wr_apart]
  let u := (((s.wr PWR_OP_STAT_CAUSE cause).wr PWR_OP_STAT_TARGET_MV (familyMv banked)).wr PWR_OP_STAT_FAMILY 2).inc PWR_OP_STAT_SLEWS 1
  have hmove : s.opTo banked cause =
      { u.emit (.vcore (familyMv banked)) with pwr := { u.pwr with toBanked := banked, slewAt := some u.mono, tries := 1, avsFailed := false } } := by
    unfold State.opTo
    dsimp only
    rw [hcause, if_neg (by simp [h])]
  have hrd (f : Fld) : (s.opTo banked cause).rd f = u.rd f := by rw [hmove]; rfl
  refine ⟨?_, ?_, ?_, ?_, ?_⟩
  · rw [hrd]
    unfold u State.inc
    simp (disch := decide) only [State.rd_wr_apart, State.rd_wr_same]
    cases banked <;> rfl
  · rw [hrd]
    unfold u State.inc
    simp (disch := decide) only [State.rd_wr_apart, State.rd_wr_same]
    rfl
  · rw [hmove]
  · rw [hmove]
    simp [u]
  · rw [hmove]
    simp [u, State.emit]

/-! ### A sample of the load (R479) -/

/-- The state in which a sample of this moment is judged. -/
def State.sampled (x : State) : State := { x with pwr := { x.pwr with sampleAt := x.mono } }

/-- The load has been low since a moment, or is not low (R479). -/
def State.lowFrom (s : State) (t : Option Nat) : State := { s with pwr := { s.pwr with lowSince := t } }

@[simp] theorem State.lowFrom_mono (s : State) (t : Option Nat) : (s.lowFrom t).mono = s.mono := rfl
@[simp] theorem State.lowFrom_sampleAt (s : State) (t : Option Nat) : (s.lowFrom t).pwr.sampleAt = s.pwr.sampleAt := rfl
@[simp] theorem State.lowFrom_regs (s : State) (t : Option Nat) : (s.lowFrom t).regs = s.regs := rfl

/-- VCORE follows the load: the rails run, nothing forces a family, the last move succeeded (R478 to R480). -/
def State.inAuto (s : State) : Prop := s.pwr.off = false ∧ s.opForced = none ∧ s.pwr.avsFailed = false

theorem State.not_inAuto {s : State} : ¬ s.inAuto ↔ s.pwr.off = true ∨ s.opForced.isSome = true ∨ s.pwr.avsFailed = true := by
  simp only [State.inAuto, not_and_or, Bool.not_eq_false, Option.isSome_iff_ne_none, ne_eq]

section
variable {s x : State} (hx : s.upTo (s.pwr.sampleAt + ms 1) = x)
include hx

theorem State.sampled_mono : x.sampled.mono = max s.mono (s.pwr.sampleAt + ms 1) := by
  show x.mono = _
  rw [← hx, State.upTo_mono]

theorem State.sampled_pwr : x.sampled.pwr = { s.pwr with sampleAt := x.sampled.mono } := by
  have hpwr : x.pwr = s.pwr := by rw [← hx, State.upTo_pwr]
  unfold State.sampled
  rw [hpwr]

theorem State.sampled_out : x.sampled.out = s.out := by
  show x.out = _
  rw [← hx, State.upTo_out]

theorem State.sampled_regs : x.sampled.regs = s.regs := by
  show x.regs = _
  rw [← hx, State.upTo_regs]

theorem State.rd_sampled (f : Fld) (i a : Nat) : x.sampled.rd f i a = s.rd f i a := State.rd_congr (State.sampled_regs hx) f i a

theorem State.sampled_opForced : x.sampled.opForced = s.opForced := by
  have hdur : x.sampled.dur = s.dur := by
    show x.dur = _
    rw [← hx, State.upTo_dur]
  unfold State.opForced State.ready
  simp only [hdur, State.rd_sampled hx, State.sampled_pwr hx]

/-- A sample where the operating point is forced, or VCORE failed to move, ends a stretch of low load (R478, R480). -/
theorem State.opSample_forced (h : ¬ s.inAuto) (n : Nat) : s.opSample n = x.sampled.lowFrom none := by
  have hforced : (x.sampled.pwr.off || x.sampled.opForced.isSome || x.sampled.pwr.avsFailed) = true := by
    rw [State.sampled_opForced hx, State.sampled_pwr hx]
    simpa [or_assoc] using State.not_inAuto.mp h
  unfold State.opSample
  rw [hx]
  extract_lets +onlyGivenNames u p v
  have hv : v = x.sampled := rfl
  clear_value v
  subst hv
  rw [if_pos hforced]
  rfl

/-- A sample in AUTO. At full draught low load that has lasted moves VCORE to banked, load that is not low ends the stretch; at banked draught
high load, or a filled bank queue, moves it to full draught; while VCORE moves nothing follows (R479). -/
theorem State.opSample_inAuto (h : s.inAuto) (n : Nat) :
    (s.rd PWR_OP_STAT_FAMILY = 0 → s.opSample n =
      if n * 100 / 19200000000 < s.rd PWR_OP_BK_PCT ∧ s.rd HTH_DMP_STAT_BANK_64THS < 8 then
        if ms (s.rd PWR_OP_DWELL_MS) ≤ x.sampled.mono - s.pwr.lowSince.getD (x.sampled.mono - ms 1) then (x.sampled.lowFrom none).opTo true 0
        else x.sampled.lowFrom (some (s.pwr.lowSince.getD (x.sampled.mono - ms 1)))
      else x.sampled.lowFrom none)
    ∧ (s.rd PWR_OP_STAT_FAMILY = 1 → s.opSample n =
      if s.rd PWR_OP_FD_PCT ≤ n * 100 / 19200000000 ∨ 16 ≤ s.rd HTH_DMP_STAT_BANK_64THS then x.sampled.opTo false 0 else x.sampled)
    ∧ (s.rd PWR_OP_STAT_FAMILY ≠ 0 → s.rd PWR_OP_STAT_FAMILY ≠ 1 → s.opSample n = x.sampled) := by
  obtain ⟨hoff, hnone, hfailed⟩ := h
  have hforced : ¬ (x.sampled.pwr.off || x.sampled.opForced.isSome || x.sampled.pwr.avsFailed) = true := by
    rw [State.sampled_opForced hx, State.sampled_pwr hx]
    simp [hoff, hnone, hfailed]
  have hlow : x.sampled.pwr.lowSince = s.pwr.lowSince := by rw [State.sampled_pwr hx]
  have hrd := State.rd_sampled hx
  unfold State.opSample
  rw [hx]
  extract_lets +onlyGivenNames u p v
  have hv : v = x.sampled := rfl
  clear_value v
  subst hv
  rw [if_neg hforced]
  unfold State.lowFrom
  simp only [hrd, hlow, Bool.and_eq_true, Bool.or_eq_true, decide_eq_true_eq]
  refine ⟨fun hfam => ?_, fun hfam => ?_, fun h0 h1 => ?_⟩
  · simp only [hfam]
  · simp only [hfam]
  · split
    · next h => exact absurd h h0
    · next h => exact absurd h h1
    · rfl

theorem State.opSample_time (n : Nat) : (s.opSample n).mono = x.sampled.mono ∧ (s.opSample n).pwr.sampleAt = x.sampled.mono := by
  have hat : x.sampled.pwr.sampleAt = x.sampled.mono := by rw [State.sampled_pwr hx]
  by_cases hauto : s.inAuto
  · obtain ⟨hfull, hbanked, hslews⟩ := State.opSample_inAuto hx hauto n
    by_cases h0 : s.rd PWR_OP_STAT_FAMILY = 0
    · rw [hfull h0]
      split_ifs <;> simp [State.opTo_mono, State.opTo_sampleAt, hat]
    · by_cases h1 : s.rd PWR_OP_STAT_FAMILY = 1
      · rw [hbanked h1]
        split_ifs <;> simp [State.opTo_mono, State.opTo_sampleAt, hat]
      · rw [hslews h0 h1]
        exact ⟨rfl, hat⟩
  · rw [State.opSample_forced hx hauto]
    exact ⟨rfl, hat⟩

/-- What the load is followed by in AUTO: low load that has lasted moves VCORE to banked, load that is not low ends the stretch, high load moves it
to full draught (R479). -/
theorem State.opSample_followsLoad (h : s.inAuto) (n : Nat) :
    let t := s.opSample n
    let u := n * 100 / 19200000000
    let b := s.rd HTH_DMP_STAT_BANK_64THS
    (∀ t0, s.rd PWR_OP_STAT_FAMILY = 0 → u < s.rd PWR_OP_BK_PCT → b < 8 → s.pwr.lowSince = some t0 →
      ms (s.rd PWR_OP_DWELL_MS) ≤ x.sampled.mono - t0 → s.rd PWR_OP_STAT_TARGET_MV ≠ 580 →
      t.rd PWR_OP_STAT_TARGET_MV = 580 ∧ t.rd PWR_OP_STAT_FAMILY = 2 ∧ t.pwr.toBanked = true ∧ t.pwr.slewAt = some x.sampled.mono
        ∧ t.out = .vcore 580 :: s.out)
    ∧ (s.rd PWR_OP_STAT_FAMILY = 0 → s.rd PWR_OP_BK_PCT ≤ u ∨ 8 ≤ b → t.pwr.lowSince = none ∧ t.regs = s.regs)
    ∧ (s.rd PWR_OP_STAT_FAMILY = 1 → s.rd PWR_OP_FD_PCT ≤ u ∨ 16 ≤ b → s.rd PWR_OP_STAT_TARGET_MV ≠ 800 →
      t.rd PWR_OP_STAT_TARGET_MV = 800 ∧ t.rd PWR_OP_STAT_FAMILY = 2 ∧ t.pwr.toBanked = false ∧ t.pwr.slewAt = some x.sampled.mono
        ∧ t.out = .vcore 800 :: s.out) := by
  obtain ⟨hfull, hbanked, -⟩ := State.opSample_inAuto hx h n
  have htarget : x.sampled.rd PWR_OP_STAT_TARGET_MV = s.rd PWR_OP_STAT_TARGET_MV := State.rd_sampled hx _ _ _
  have hout := State.sampled_out hx
  refine ⟨fun t0 hfam hu hb hlow hdwell h580 => ?_, fun hfam hbusy => ?_, fun hfam hbusy h800 => ?_⟩
  · rw [hfull hfam, if_pos ⟨hu, hb⟩, hlow, Option.getD_some, if_pos hdwell, ← hout]
    exact State.opTo_moves (s := x.sampled.lowFrom none) (banked := true) 0 (by rw [← htarget] at h580; exact h580)
  · rw [hfull hfam, if_neg (by omega)]
    exact ⟨rfl, (State.lowFrom_regs _ _).trans (State.sampled_regs hx)⟩
  · rw [hbanked hfam, if_pos hbusy, ← hout]
    exact State.opTo_moves (banked := false) 0 (by rw [← htarget] at h800; exact h800)

end

/-! ### VCORE at its target, or not in time (R480) -/

theorem State.familyReached_of_slewing {s : State} (h : s.pwr.slewAt.isSome = true) :
    let u := (s.wr PWR_OP_STAT_VCORE_MV (s.rd PWR_OP_STAT_TARGET_MV)).wr PWR_OP_STAT_FAMILY (b2n s.pwr.toBanked)
    s.familyReached = ({ u with pwr := { u.pwr with slewAt := none } } : State).raise 1 5 := by
  unfold State.familyReached
  rw [if_neg (by simpa [← Option.isSome_iff_ne_none] using h)]

theorem State.familyReached_reports {s : State} (h : s.pwr.slewAt.isSome = true) :
    let t := s.familyReached
    t.rd PWR_OP_STAT_VCORE_MV = s.rd PWR_OP_STAT_TARGET_MV ∧ t.rd PWR_OP_STAT_FAMILY = b2n s.pwr.toBanked ∧ t.pwr.slewAt = none
      ∧ raisedIn s t 1 5 ∧ regsKept s t (PWR_OP_STAT_FAMILY.key :: evRegs 1) := by
  dsimp only
  rw [State.familyReached_of_slewing h]
  generalize hu : (s.wr PWR_OP_STAT_VCORE_MV (s.rd PWR_OP_STAT_TARGET_MV)).wr PWR_OP_STAT_FAMILY (b2n s.pwr.toBanked) = u
  have hkept : regsKept s u [PWR_OP_STAT_FAMILY.key] := by
    rw [← hu]
    exact regsKept.trans (State.wr_regsKept s PWR_OP_STAT_VCORE_MV _ 0 0) (State.wr_regsKept _ PWR_OP_STAT_FAMILY _ 0 0)
  have hinbox : u.evInbox = s.evInbox := by simp [← hu]
  have hvcore : u.rd PWR_OP_STAT_VCORE_MV = s.rd PWR_OP_STAT_TARGET_MV := by
    rw [← hu]
    simp (disch := decide) only [State.rd_wr_apart, State.rd_wr_same]
    exact Nat.mod_eq_of_lt (Nat.mod_lt _ (by decide))
  have hfamily : u.rd PWR_OP_STAT_FAMILY = b2n s.pwr.toBanked := by
    rw [← hu]
    simp (disch := decide) only [State.rd_wr_same]
    cases s.pwr.toBanked <;> rfl
  refine ⟨?_, ?_, ?_, raisedIn_raise 1 5 hinbox rfl rfl (by decide), ?_⟩
  · rw [State.rd_raise _ _ _ (by decide) (by decide)]
    exact hvcore
  · rw [State.rd_raise _ _ _ (by decide) (by decide)]
    exact hfamily
  · rw [State.raise_pwr]
  · exact (hkept.mono (by simp)).trans ((State.raise_regsKept _ 1 5).mono (by simp))

theorem State.no_move_of_not_slewing {s : State} (h : s.pwr.slewAt = none) : s.familyReached = s ∧ s.avsTimeout = s := by
  unfold State.familyReached State.avsTimeout
  simp [h]

/-- A deadline missed: VCORE is commanded again once, then it stays where it senses. -/
theorem State.avsTimeout_of_slewing {s : State} {t0 : Nat} (h : s.pwr.slewAt = some t0) :
    ∃ t : State, s.avsTimeout = t ∧ t.mono = max s.mono (t0 + us 200)
      ∧ (s.pwr.tries < 2 → t.pwr = { s.pwr with slewAt := some t.mono, tries := 2 } ∧ t.out = .vcore (s.rd PWR_OP_STAT_TARGET_MV) :: s.out ∧ t.regs = s.regs)
      ∧ (2 ≤ s.pwr.tries → t.pwr = { s.pwr with slewAt := none, avsFailed := true } ∧ raisedIn s t 1 6 ∧ regsKept s t (evRegs 1)) := by
  obtain ⟨x, hx⟩ : ∃ x, s.upTo (t0 + us 200) = x := ⟨_, rfl⟩
  have hmono : x.mono = max s.mono (t0 + us 200) := by rw [← hx, State.upTo_mono]
  have hpwr : x.pwr = s.pwr := by rw [← hx, State.upTo_pwr]
  have hregs : x.regs = s.regs := by rw [← hx, State.upTo_regs]
  have hinbox : x.evInbox = s.evInbox := by rw [← hx, State.upTo_evInbox]
  have hout : x.out = s.out := by rw [← hx, State.upTo_out]
  have htarget : x.rd PWR_OP_STAT_TARGET_MV = s.rd PWR_OP_STAT_TARGET_MV := State.rd_congr hregs _ _ _
  refine ⟨_, rfl, ?_⟩
  unfold State.avsTimeout
  simp only [h, hx, hpwr, htarget]
  by_cases htries : s.pwr.tries < 2
  · rw [if_pos htries]
    refine ⟨hmono, fun _ => ⟨rfl, ?_, hregs⟩, fun h2 => absurd htries (by omega)⟩
    exact congrArg _ hout
  · rw [if_neg htries]
    refine ⟨?_, fun h2 => absurd h2 htries, fun _ => ⟨?_, raisedIn_raise 1 6 hinbox rfl rfl (by decide), ?_⟩⟩
    · rw [State.raise_mono]
      exact hmono
    · rw [State.raise_pwr]
    · exact (regsKept.of_regs hregs _).trans (State.raise_regsKept _ 1 6)

/-! ### Rail checks (R473) -/

theorem State.foldl_wr_rails {α : Type} (g : State → α → State) (hg : ∀ u e, (g u e).rails = u.rails) (l : List α) (s : State) :
    (l.foldl g s).rails = s.rails :=
  List.foldlRecOn (motive := fun t : State => t.rails = s.rails) l g rfl (fun t ht e _ => (hg t e).trans ht)

theorem State.railCheck_off {s : State} (h : s.pwr.off = true) (mv : List Nat) : s.railCheck mv = s := by
  unfold State.railCheck
  rw [if_pos h]

/-- The rails of a check, one after another; at the thousandth check the means of 1 ms are due. -/
theorem State.railCheck_on {s : State} (h : s.pwr.off = false) (mv : List Nat) :
    let u := s.upTo (s.rails.checkAt + us 1)
    let v := (List.range (min 12 mv.length)).foldl (fun (s : State) r => s.railOne r (nth 0 mv r))
      { u with rails := { u.rails with checkAt := u.mono, mvN := u.rails.mvN + 1 } }
    (v.rails.mvN < 1000 → s.railCheck mv = v)
    ∧ (1000 ≤ v.rails.mvN → (s.railCheck mv).rails = { v.rails with mvN := 0, mvSum := [] }) := by
  intro u v
  unfold State.railCheck
  rw [if_neg (by rw [h]; decide)]
  refine ⟨fun hfew => if_pos hfew, fun hmany => ?_⟩
  dsimp only
  rw [if_neg (Nat.not_lt.mpr hmany)]
  dsimp only
  rw [State.foldl_wr_rails _ (fun u e => State.wr_rails ..)]

/-- A hexadecimal digit of a number that is cut to more digits than that. -/
theorem digit_mod {b n r : Nat} (h : r < n) (x : Nat) : x % b ^ n / b ^ r % b = x / b ^ r % b := by
  obtain ⟨k, rfl⟩ : ∃ k, n = r + 1 + k := ⟨n - (r + 1), by omega⟩
  rw [pow_add, pow_succ, mul_assoc, Nat.mod_mul_right_div_self, Nat.mod_mul_right_mod]

/-- A hexadecimal digit that is taken out of a number and replaced. -/
theorem digit_replaced (x r : Nat) {v : Nat} (hv : v < 16) : (x - x / 16 ^ r % 16 * 16 ^ r + v * 16 ^ r) / 16 ^ r % 16 = v := by
  have hpos : 0 < 16 ^ r := Nat.pow_pos (by decide)
  rw [Nat.add_mul_div_right _ _ hpos, Nat.mul_comm (x / 16 ^ r % 16), Nat.sub_mul_div]
  omega

/-- The state of rail `r` in RAIL_STAT. -/
def State.railState (s : State) (r : Nat) : Nat := s.rd PWR_RAIL_STAT_STATE / 16 ^ r % 16

/-- RAIL_STAT with the state of one rail replaced. -/
def State.putRailState (s : State) (r v : Nat) : State :=
  s.wr PWR_RAIL_STAT_STATE (s.rd PWR_RAIL_STAT_STATE - s.railState r * 16 ^ r + v * 16 ^ r)

theorem State.railState_putRailState (s : State) {r v : Nat} (hr : r < 12) (hv : v < 16) : (s.putRailState r v).railState r = v := by
  have hrd : (s.putRailState r v).rd PWR_RAIL_STAT_STATE
      = (s.rd PWR_RAIL_STAT_STATE - s.railState r * 16 ^ r + v * 16 ^ r) % 16 ^ 12 :=
    State.rd_wr_same s _ _ _ _ (by decide) (by decide)
  unfold State.railState
  rw [hrd, digit_mod hr]
  exact digit_replaced _ _ hv

/-- What a check of a rail notes before it judges: since when the rail has been outside its bands, its sum, and VCORE as sensed. -/
def State.railNoted (s : State) (r mv : Nat) (w f : NMap Nat) : State :=
  let u : State := { s with rails := { s.rails with warnSince := w, faultSince := f, mvSum := NMap.insert s.rails.mvSum r (NMap.getD s.rails.mvSum r 0 + mv) } }
  if r = 1 then u.wr PWR_OP_STAT_VCORE_MV mv else u

theorem State.railNoted_evInbox (s : State) (r mv : Nat) (w f : NMap Nat) : (s.railNoted r mv w f).evInbox = s.evInbox := by
  unfold State.railNoted
  split <;> simp

theorem State.railNoted_mono (s : State) (r mv : Nat) (w f : NMap Nat) : (s.railNoted r mv w f).mono = s.mono := by
  unfold State.railNoted
  split <;> simp

theorem State.rd_railNoted (s : State) (r mv : Nat) (w f : NMap Nat) : (s.railNoted r mv w f).rd PWR_RAIL_STAT_STATE = s.rd PWR_RAIL_STAT_STATE := by
  unfold State.railNoted
  dsimp only
  split
  · rw [State.rd_wr_other _ _ _ _ _ _ _ _ (by decide)]
    rfl
  · rfl

/-- The judgement of a rail that is not outside its FAULT band: inside its WARN band it is GOOD, outside it for the filter's time it is reported. -/
theorem State.railOne_noted {s : State} {r mv : Nat} (hr6 : r ≠ 6) (hoff : s.pwr.off = false) (hgood : r ∈ s.rails.good) {w f : NMap Nat}
    (hw : heldSince s.rails.warnSince r s.mono (outside (s.railTarget r) (s.rd PWR_RAIL_LIM_WARN 0 (8 * r)) mv) = w)
    (hf : heldSince s.rails.faultSince r s.mono (outside (s.railTarget r) (s.rd PWR_RAIL_LIM_FAULT 0 (8 * r)) mv) = f)
    (hnofault : NMap.find f r = none) :
    let u := s.railNoted r mv w f
    (NMap.find w r = none → s.railOne r mv = if s.railState r = 2 then u else u.putRailState r 2)
    ∧ (∀ a, NMap.find w r = some a → us (s.rd PWR_RAIL_LIM_FILTER_US 0 (8 * r)) ≤ s.mono - a →
      s.railOne r mv = if s.railState r = 3 then u else (u.putRailState r 3).raise 1 0) := by
  intro u
  have hstat : u.rd PWR_RAIL_STAT_STATE = s.rd PWR_RAIL_STAT_STATE := State.rd_railNoted ..
  have hmono : u.mono = s.mono := State.railNoted_mono ..
  unfold State.railOne
  rw [if_neg (by simp [hoff, hgood, hr6])]
  extract_lets t filter w' f' p v v' due st cur put
  have hw' : w' = w := hw
  have hf' : f' = f := hf
  clear_value w' f'
  subst hw' hf'
  have hv : v' = u := rfl
  clear_value v'
  subst hv
  have hcur : cur = s.railState r := by
    unfold cur st State.railState
    rw [hstat]
  have hput (n : Nat) : put u n = u.putRailState r n := by
    rfl
  have hdue_f : due f' = false := by simp only [due, hnofault]
  refine ⟨fun hnone => ?_, fun a hsome hlong => ?_⟩
  · have hdue_w : due w' = false := by simp only [due, hnone]
    simp only [hdue_f, hdue_w, hnone, hcur, hput, Bool.false_eq_true, if_false, Option.isNone_none, Bool.true_and, bne_iff_ne, ne_eq, ite_not]
  · have hdue_w : due w' = true := by simpa only [due, hsome, hmono, decide_eq_true_eq] using hlong
    simp only [hdue_f, hdue_w, hcur, hput, Bool.false_eq_true, if_false, if_true]

/-- A rail inside both bands is GOOD, and nothing is reported of it. -/
theorem State.railOne_inside {s : State} {r mv : Nat} (hr : r < 12) (hr6 : r ≠ 6) (hoff : s.pwr.off = false) (hgood : r ∈ s.rails.good)
    (hwarn : outside (s.railTarget r) (s.rd PWR_RAIL_LIM_WARN 0 (8 * r)) mv = false)
    (hfault : outside (s.railTarget r) (s.rd PWR_RAIL_LIM_FAULT 0 (8 * r)) mv = false) :
    (s.railOne r mv).railState r = 2 ∧ (s.railOne r mv).evInbox = s.evInbox := by
  have hw : heldSince s.rails.warnSince r s.mono (outside (s.railTarget r) (s.rd PWR_RAIL_LIM_WARN 0 (8 * r)) mv) = NMap.erase s.rails.warnSince r := by
    rw [hwarn]; rfl
  have hf : heldSince s.rails.faultSince r s.mono (outside (s.railTarget r) (s.rd PWR_RAIL_LIM_FAULT 0 (8 * r)) mv) = NMap.erase s.rails.faultSince r := by
    rw [hfault]; rfl
  rw [(State.railOne_noted hr6 hoff hgood hw hf (NMap.find_erase_same _ _)).1 (NMap.find_erase_same _ _)]
  split
  · next h2 =>
    refine ⟨?_, State.railNoted_evInbox ..⟩
    unfold State.railState at h2 ⊢
    rw [State.rd_railNoted, h2]
  · refine ⟨State.railState_putRailState _ hr (by decide), ?_⟩
    unfold State.putRailState
    rw [State.wr_evInbox, State.railNoted_evInbox]

/-- A rail that has been outside its WARN band for the filter's time, inside its FAULT band, is reported, once. -/
theorem State.railOne_warns {s : State} {r mv a : Nat} (hr : r < 12) (hr6 : r ≠ 6) (hoff : s.pwr.off = false) (hgood : r ∈ s.rails.good)
    (hwarn : outside (s.railTarget r) (s.rd PWR_RAIL_LIM_WARN 0 (8 * r)) mv = true)
    (hfault : outside (s.railTarget r) (s.rd PWR_RAIL_LIM_FAULT 0 (8 * r)) mv = false)
    (hsince : NMap.find s.rails.warnSince r = some a) (hlong : us (s.rd PWR_RAIL_LIM_FILTER_US 0 (8 * r)) ≤ s.mono - a) (hnew : s.railState r ≠ 3) :
    (s.railOne r mv).railState r = 3 ∧ raisedIn s (s.railOne r mv) 1 0 := by
  have hw : heldSince s.rails.warnSince r s.mono (outside (s.railTarget r) (s.rd PWR_RAIL_LIM_WARN 0 (8 * r)) mv) = s.rails.warnSince := by
    rw [hwarn]
    simp [heldSince, hsince]
  have hf : heldSince s.rails.faultSince r s.mono (outside (s.railTarget r) (s.rd PWR_RAIL_LIM_FAULT 0 (8 * r)) mv) = NMap.erase s.rails.faultSince r := by
    rw [hfault]; rfl
  rw [(State.railOne_noted hr6 hoff hgood hw hf (NMap.find_erase_same _ _)).2 a hsince hlong, if_neg hnew]
  refine ⟨?_, raisedIn_raise 1 0 ?_ rfl rfl (by decide)⟩
  · have hput := State.railState_putRailState (s.railNoted r mv s.rails.warnSince (NMap.erase s.rails.faultSince r)) hr (v := 3) (by decide)
    unfold State.railState at hput ⊢
    rw [State.rd_raise _ _ _ (by decide) (by decide), hput]
  · unfold State.putRailState
    rw [State.wr_evInbox, State.railNoted_evInbox]

/-! ### Currents and the regulators that answer (R443, R477) -/

/-- A power of two added to a number whose bit of that place is 0 sets that bit and no other. -/
theorem bit_add_two_pow {x r : Nat} (h : x / 2 ^ r % 2 = 0) (j : Nat) : (x + 2 ^ r) / 2 ^ j % 2 = if j = r then 1 else x / 2 ^ j % 2 := by
  rcases Nat.lt_trichotomy j r with hj | rfl | hj
  · obtain ⟨k, rfl⟩ : ∃ k, r = j + (k + 1) := ⟨r - j - 1, by omega⟩
    rw [if_neg (by omega), pow_add, Nat.add_mul_div_left _ _ (Nat.two_pow_pos j), pow_succ]
    omega
  · rw [if_pos rfl, Nat.add_div_right _ (Nat.two_pow_pos j)]
    omega
  · obtain ⟨k, rfl⟩ : ∃ k, j = r + 1 + k := ⟨j - r - 1, by omega⟩
    have hhalf : (x + 2 ^ r) / 2 ^ (r + 1) = x / 2 ^ (r + 1) := by
      rw [pow_succ, ← Nat.div_div_eq_div_mul, ← Nat.div_div_eq_div_mul, Nat.add_div_right _ (Nat.two_pow_pos r)]
      omega
    rw [if_neg (by omega), pow_add, ← Nat.div_div_eq_div_mul, ← Nat.div_div_eq_div_mul, hhalf]

/-- A power of two taken from a number whose bit of that place is 1 clears that bit and no other. -/
theorem bit_sub_two_pow {x r : Nat} (h : x / 2 ^ r % 2 = 1) (j : Nat) : (x - 2 ^ r) / 2 ^ j % 2 = if j = r then 0 else x / 2 ^ j % 2 := by
  have hle : 2 ^ r ≤ x := by
    by_contra hlt
    rw [Nat.div_eq_of_lt (by omega)] at h
    exact absurd h (by decide)
  obtain ⟨y, rfl⟩ := Nat.exists_eq_add_of_le' hle
  rw [Nat.add_div_right _ (Nat.two_pow_pos r)] at h
  have hy : y / 2 ^ r % 2 = 0 := by omega
  rw [Nat.add_sub_cancel, bit_add_two_pow hy]
  split
  · next hj => rw [hj, hy]
  · rfl

/-- PMB_FAILED of regulator `r` (log 35). -/
def State.pmbFailed (s : State) (r : Nat) : Nat := s.rd MGI_BUS_STAT_PMB_FAILED / 2 ^ r % 2

theorem State.pmbFailed_wr (s : State) (v : Nat) {r : Nat} (hr : r < 12) : (s.wr MGI_BUS_STAT_PMB_FAILED v).pmbFailed r = v / 2 ^ r % 2 := by
  have hrd : (s.wr MGI_BUS_STAT_PMB_FAILED v).rd MGI_BUS_STAT_PMB_FAILED = v % 2 ^ 16 := State.rd_wr_same s _ _ _ _ (by decide) (by decide)
  unfold State.pmbFailed
  rw [hrd]
  exact digit_mod (by omega) v

theorem State.pmbFailed_raise (s : State) (n r : Nat) : (s.raise 0xF n).pmbFailed r = s.pmbFailed r := by
  unfold State.pmbFailed
  rw [State.rd_raise _ _ _ (by decide) (by decide)]

/-- The currents' registers lie among the block registers of PWR. -/
theorem key_ma (r : Nat) : PWR_RAIL_MEAS_MA.key 0 (8 * r) = 0x10168 + 8 * r := by
  show (1 + 0) * 0x10000 + (0x168 + 8 * r) = _
  omega

theorem State.pmbFailed_wr_ma (s : State) (v : Nat) {r : Nat} (hr : r < 12) (j : Nat) : (s.wr PWR_RAIL_MEAS_MA v 0 (8 * r)).pmbFailed j = s.pmbFailed j := by
  unfold State.pmbFailed
  rw [State.rd_wr_other]
  rw [key_ma]
  have hkey : MGI_BUS_STAT_PMB_FAILED.key = 0xF0120 := rfl
  omega

theorem State.rd_ma_wr_ma (s : State) (v r j : Nat) :
    (s.wr PWR_RAIL_MEAS_MA v 0 (8 * r)).rd PWR_RAIL_MEAS_MA 0 (8 * j) = if j = r then v % 2 ^ 32 else s.rd PWR_RAIL_MEAS_MA 0 (8 * j) := by
  split
  · next h =>
    rw [h]
    exact State.rd_wr_same s _ _ _ _ (by decide) (by decide)
  · next h =>
    rw [State.rd_wr_other]
    rw [key_ma, key_ma]
    omega

theorem State.rd_ma_wr_pmb (s : State) (v : Nat) {j : Nat} (hj : j < 12) :
    (s.wr MGI_BUS_STAT_PMB_FAILED v).rd PWR_RAIL_MEAS_MA 0 (8 * j) = s.rd PWR_RAIL_MEAS_MA 0 (8 * j) := by
  rw [State.rd_wr_other]
  rw [key_ma, show MGI_BUS_STAT_PMB_FAILED.key = 0xF0120 from rfl]
  omega

theorem State.rd_ma_raise (s : State) (n : Nat) {j : Nat} (hj : j < 12) :
    (s.raise 0xF n).rd PWR_RAIL_MEAS_MA 0 (8 * j) = s.rd PWR_RAIL_MEAS_MA 0 (8 * j) := by
  have hkey : PWR_RAIL_MEAS_MA.key 0 (8 * j) < 0xF0000 := by rw [key_ma]; omega
  exact State.rd_raise _ _ _ (fun h => absurd (h ▸ hkey) (by decide)) (fun h => absurd (h ▸ hkey) (by decide))

/-- A write of another register leaves the flags of a page. -/
theorem State.flagged_wr (s : State) (p n : Nat) {f : Fld} {v i a : Nat} (h : regKey p 0x20 ≠ f.key i a) :
    (s.wr f v i a).flagged p n = s.flagged p n := by
  unfold State.flagged
  rw [State.reg_wr, if_neg h]

/-- From `s` to `t` the regulator of rail `r` was asked and gave this answer; what is known of the others stands. -/
structure Polled (s t : State) (r : Nat) (answer : Option Nat) : Prop where
  current : ∀ j < 12, t.rd PWR_RAIL_MEAS_MA 0 (8 * j) = if j = r then answer.getD 0 % 2 ^ 32 else s.rd PWR_RAIL_MEAS_MA 0 (8 * j)
  failed : ∀ j < 12, t.pmbFailed j = if j = r then b2n answer.isNone else s.pmbFailed j
  flagStays : s.flagged 0xF 2 = true → t.flagged 0xF 2 = true
  newFails : answer = none → s.pmbFailed r = 0 → t.flagged 0xF 2 = true

/-- The bit of PMB_FAILED follows from the current's write, the bit before it and the answer. -/
theorem State.pollOne_eq (s : State) (r : Nat) (answer : Option Nat) :
    let u := s.wr PWR_RAIL_MEAS_MA (answer.getD 0) 0 (8 * r)
    s.pollOne r answer =
      if answer.isNone then
        if s.pmbFailed r = 1 then u else (u.wr MGI_BUS_STAT_PMB_FAILED (s.rd MGI_BUS_STAT_PMB_FAILED + 2 ^ r)).raise 0xF 2
      else if s.pmbFailed r = 1 then u.wr MGI_BUS_STAT_PMB_FAILED (s.rd MGI_BUS_STAT_PMB_FAILED - 2 ^ r) else u := by
  unfold State.pollOne State.pmbFailed
  cases answer <;> simp only [beq_iff_eq] <;> rfl

theorem State.pollOne_polled (s : State) {r : Nat} (hr : r < 12) (answer : Option Nat) : Polled s (s.pollOne r answer) r answer := by
  have hbit : s.pmbFailed r < 2 := Nat.mod_lt _ (by decide)
  rw [State.pollOne_eq]
  generalize hu : s.wr PWR_RAIL_MEAS_MA (answer.getD 0) 0 (8 * r) = u
  have hma : ∀ j < 12, u.rd PWR_RAIL_MEAS_MA 0 (8 * j) = if j = r then answer.getD 0 % 2 ^ 32 else s.rd PWR_RAIL_MEAS_MA 0 (8 * j) :=
    fun j _ => hu ▸ State.rd_ma_wr_ma s _ r j
  have hfailed (j : Nat) : u.pmbFailed j = s.pmbFailed j := hu ▸ State.pmbFailed_wr_ma s _ hr j
  have hflag : u.flagged 0xF 2 = s.flagged 0xF 2 := by
    rw [← hu]
    refine State.flagged_wr s 0xF 2 ?_
    rw [key_ma, show regKey 0xF 0x20 = 0xF0020 from rfl]
    omega
  cases answer with
  | none =>
    rw [if_pos Option.isNone_none]
    split
    · next h1 =>
      refine ⟨hma, fun j _ => ?_, fun h => hflag.trans h, fun _ h0 => by omega⟩
      rw [hfailed]
      split
      · next hj => rw [hj, h1]; rfl
      · rfl
    · next h1 =>
      have hraised := (State.raise_raisedIn (u.wr MGI_BUS_STAT_PMB_FAILED (s.rd MGI_BUS_STAT_PMB_FAILED + 2 ^ r)) 0xF 2 rfl rfl (by decide)).1
      refine ⟨fun j hj => ?_, fun j hj => ?_, fun _ => hraised, fun _ _ => hraised⟩
      · rw [State.rd_ma_raise _ _ hj, State.rd_ma_wr_pmb _ _ hj, hma j hj]
      · rw [State.pmbFailed_raise, State.pmbFailed_wr _ _ hj]
        exact bit_add_two_pow (by unfold State.pmbFailed at hbit h1; omega) j
  | some m =>
    rw [if_neg (by simp)]
    split
    · next h1 =>
      refine ⟨fun j hj => ?_, fun j hj => ?_, fun h => ?_, fun h => nomatch h⟩
      · rw [State.rd_ma_wr_pmb _ _ hj, hma j hj]
      · rw [State.pmbFailed_wr _ _ hj]
        exact bit_sub_two_pow h1 j
      · rw [State.flagged_wr _ _ _ (by decide), hflag, h]
    · next h1 =>
      refine ⟨hma, fun j _ => ?_, fun h => hflag.trans h, fun h => nomatch h⟩
      rw [hfailed]
      split
      · next hj =>
        rw [hj]
        exact Nat.lt_one_iff.mp (by omega)
      · rfl

/-- The first `n` regulators were asked. -/
structure PolledTo (s t : State) (n : Nat) (answers : Nat → Option Nat) : Prop where
  current : ∀ j < n, t.rd PWR_RAIL_MEAS_MA 0 (8 * j) = (answers j).getD 0 % 2 ^ 32
  failed : ∀ j < n, t.pmbFailed j = b2n (answers j).isNone
  rest : ∀ j < 12, n ≤ j → t.pmbFailed j = s.pmbFailed j
  newFails : ∀ j < n, answers j = none → s.pmbFailed j = 0 → t.flagged 0xF 2 = true

theorem PolledTo.next {s t u : State} {n : Nat} {answers : Nat → Option Nat} (h : PolledTo s t n answers) (hn : n < 12) (k : Polled t u n (answers n)) :
    PolledTo s u (n + 1) answers := by
  refine ⟨fun j hj => ?_, fun j hj => ?_, fun j hj hle => ?_, fun j hj hnone h0 => ?_⟩
  · rw [k.current j (by omega)]
    split
    · next hjn => rw [hjn]
    · exact h.current j (by omega)
  · rw [k.failed j (by omega)]
    split
    · next hjn => rw [hjn]
    · exact h.failed j (by omega)
  · rw [k.failed j hj, if_neg (by omega)]
    exact h.rest j hj (by omega)
  · rcases Nat.lt_succ_iff_lt_or_eq.mp hj with hlt | rfl
    · exact k.flagStays (h.newFails j hlt hnone h0)
    · exact k.newFails hnone ((h.rest j hn (Nat.le_refl j)).trans h0)

theorem State.pollTo (s : State) (answers : Nat → Option Nat) {n : Nat} (hn : n ≤ 12) :
    PolledTo s ((List.range n).foldl (fun (s : State) r => s.pollOne r (answers r)) s) n answers := by
  induction n with
  | zero => exact ⟨fun j hj => absurd hj (by omega), fun j hj => absurd hj (by omega), fun _ _ _ => rfl, fun j hj => absurd hj (by omega)⟩
  | succ n ih =>
    rw [List.range_succ, List.foldl_append]
    exact (ih (by omega)).next (by omega) (State.pollOne_polled _ (by omega) _)

theorem State.currentPoll_polled (s : State) (ma : List (Option Nat)) : PolledTo s (s.currentPoll ma) 12 (nth none ma) :=
  State.pollTo s (nth none ma) (Nat.le_refl 12)

/-! ### An immediate stop keeps the record of its rail (R472, R473, R475) -/

/-- A register is found in what a test of addresses keeps of a register file. -/
theorem NMap.find_filter_of_key {α : Type} {p : Nat → Bool} {k : Nat} (h : p k = true) (m : NMap α) :
    NMap.find (m.filter (fun e => p e.1)) k = NMap.find m k := by
  induction m with
  | nil => rfl
  | cons e m ih =>
    obtain ⟨j, v⟩ := e
    by_cases hp : p j = true
    · rw [List.filter_cons_of_pos (by exact hp)]
      simp only [NMap.find, ih]
    · have hjk : k ≠ j := fun hkj => hp (hkj ▸ h)
      rw [List.filter_cons_of_neg (by exact hp), ih]
      simp only [NMap.find, if_neg hjk]

/-- The rail of the last fault, in RAIL_STAT. -/
def State.lastFault (s : State) : Nat := s.rd PWR_RAIL_STAT_LAST_FAULT

theorem State.lastFault_wr_other (s : State) {f : Fld} {v i a : Nat} (h : PWR_RAIL_STAT_LAST_FAULT.key ≠ f.key i a) :
    (s.wr f v i a).lastFault = s.lastFault := State.rd_wr_other s _ _ _ _ _ _ _ h

theorem State.lastFault_satInc_other (s : State) {f : Fld} {n i a : Nat} (h : PWR_RAIL_STAT_LAST_FAULT.key ≠ f.key i a) :
    (s.satInc f n i a).lastFault = s.lastFault := s.lastFault_wr_other h

theorem State.lastFault_raise (s : State) (p n : Nat) (h : PWR_RAIL_STAT_LAST_FAULT.key ≠ regKey p 0x20) (h' : PWR_RAIL_STAT_LAST_FAULT.key ≠ regKey p 0x18) :
    (s.raise p n).lastFault = s.lastFault := State.rd_raise s p n h h'

theorem State.lastFault_overwritten (s : State) (r : EvRec) : (s.overwritten r).lastFault = s.lastFault := by
  unfold State.overwritten
  extract_lets u v quiet p
  have hu : u.lastFault = s.lastFault := by
    unfold u
    split <;> simp (disch := decide) only [State.lastFault_satInc_other, State.lastFault_raise]
  have hv : v.lastFault = s.lastFault := (u.lastFault_satInc_other (by decide)).trans hu
  split_ifs
  · exact (v.lastFault_raise 3 1 (by decide) (by decide)).trans hv
  · exact hv
  · exact hu

theorem State.lastFault_ringPut (s : State) (r : EvRec) : (s.ringPut r).lastFault = s.lastFault := by
  unfold State.ringPut
  dsimp only
  split
  · rfl
  · split
    · rw [State.lastFault_overwritten]
      rfl
    · exact s.lastFault_satInc_other (by decide)

theorem State.lastFault_holdPut (s : State) (r : EvRec) : (s.holdPut r).lastFault = s.lastFault := by
  unfold State.holdPut
  dsimp only
  split
  · rfl
  · split
    · rw [State.lastFault_overwritten]
      rfl
    · exact s.lastFault_satInc_other (by decide)

theorem State.lastFault_recStat (s : State) : s.recStat.lastFault = s.lastFault := by
  unfold State.recStat
  simp (disch := decide) only [State.lastFault_wr_other]

theorem State.lastFault_recordEvent (s : State) (e : RaisedEv) : (s.recordEvent e).lastFault = s.lastFault := by
  unfold State.recordEvent
  split
  · rfl
  · dsimp only
    rw [State.lastFault_recStat]
    split
    · rw [State.lastFault_holdPut]
      rfl
    · rw [State.lastFault_ringPut]
      rfl

theorem State.lastFault_recordAll (s : State) : s.recordAll.lastFault = s.lastFault := by
  unfold State.recordAll
  refine List.foldlRecOn (motive := fun t : State => t.lastFault = s.lastFault) s.evInbox _ ?_ (fun t ht e _ => ?_)
  · rfl
  · exact (t.lastFault_recordEvent e).trans ht

theorem State.lastFault_emberFinal (s : State) (rail : Nat) : (s.emberFinal rail).lastFault = s.lastFault := by
  unfold State.emberFinal State.emberPut
  split <;> rfl

theorem State.cutFlush_regs (s : State) : s.cutFlush.regs = s.regs := by
  unfold State.cutFlush
  split
  · rfl
  · split <;> rfl

theorem State.lastFault_pcieLost (s : State) : s.pcieLost.lastFault = s.lastFault := by
  unfold State.pcieLost State.inc
  split
  · simp (disch := decide) only [State.lastFault_wr_other]
    rfl
  · rfl

theorem State.lastFault_setStat (s : State) {p : Nat} (st : Nat) (r : Bool) (h : PWR_RAIL_STAT_LAST_FAULT.key ≠ PG_STAT_STATE.key p)
    (h' : PWR_RAIL_STAT_LAST_FAULT.key ≠ PG_STAT_READY.key p) : (s.setStat p st r).lastFault = s.lastFault := by
  unfold State.setStat
  rw [State.lastFault_wr_other _ h', State.lastFault_wr_other _ h]

theorem State.lastFault_railStat (s : State) : s.railStat.lastFault = s.lastFault :=
  State.rd_wr_apart _ _ _ _ _ _ _ _ (by decide) (by decide) (by decide) (by decide)

/-- The rails are down; the pages of the always-on domain keep their registers. -/
theorem State.powerDown_drops (s : State) : s.powerDown.pwr.off = true ∧ s.powerDown.rails.en = [] ∧ s.powerDown.lastFault = s.lastFault := by
  have hcut : s.cutFlush.pcieLost.lastFault = s.lastFault := by
    rw [State.lastFault_pcieLost]
    exact State.rd_congr s.cutFlush_regs _ _ _
  unfold State.powerDown
  extract_lets u keep fresh t
  have hkeep : t.lastFault = u.lastFault := by
    unfold State.lastFault State.rd State.reg NMap.getD
    rw [show t.regs = keep from rfl, NMap.find_filter_of_key (p := fun k => decide (k < 0x40000) || (decide (0xF0000 ≤ k) && decide (k < 0x100000))) (by decide)]
  refine ⟨?_, ?_, ?_⟩
  · simp [State.railStat, t]
  · simp [State.railStat, t]
  · rw [State.lastFault_railStat, State.lastFault_setStat _ _ _ (by decide) (by decide), State.lastFault_setStat _ _ _ (by decide) (by decide), hkeep, hcut]

theorem State.immediateStop_drops (s : State) (rail : Nat) :
    let t := s.immediateStop rail
    t.pwr.off = true ∧ t.rails.en = [] ∧ t.rd PWR_RAIL_STAT_LAST_FAULT = rail % 2 ^ 8 := by
  unfold State.immediateStop
  extract_lets u phase v
  have hu : u.lastFault = rail % 2 ^ 8 := State.rd_wr_same s _ _ _ _ (by decide) (by decide)
  have hv : v.lastFault = u.lastFault := by
    unfold v
    split
    · exact u.lastFault_wr_other (by decide)
    · rfl
  obtain ⟨hoff, hen, hkept⟩ := (v.recordAll.emberFinal rail).powerDown_drops
  refine ⟨hoff, hen, hkept.trans ?_⟩
  rw [State.lastFault_emberFinal, State.lastFault_recordAll, hv, hu]

/-! ### The end of a command leaves the flush and the input's registers alone (R58, R313) -/

/-- From `a` to `b` the flush and PWR.VIN stand. -/
structure InputKept (a b : State) : Prop where
  flush : b.dur.flush = a.dur.flush
  vin : b.reg PWR_VIN_CUT.key = a.reg PWR_VIN_CUT.key

theorem InputKept.refl (s : State) : InputKept s s := ⟨rfl, rfl⟩

theorem InputKept.trans {a b c : State} (h : InputKept a b) (k : InputKept b c) : InputKept a c :=
  ⟨k.flush.trans h.flush, k.vin.trans h.vin⟩

/-- A register of a command queue: none of the queues' places meets PWR.VIN, not even those of queues the U96 does not have. -/
theorem InputKept.wrQueue (s : State) {f : Fld} (v q : Nat) (hpage : f.page = 0) (hoff : f.off % 64 ≠ 8) : InputKept s (s.wr f v 0 (rqOff q)) := by
  refine ⟨by rw [State.wr_dur], ?_⟩
  rw [State.reg_wr, if_neg]
  have hkey : f.key 0 (rqOff q) = f.off + 64 * q := by
    unfold Fld.key regKey rqOff
    rw [hpage]
    omega
  have hvin : PWR_VIN_CUT.key = 0x101C8 := rfl
  omega

theorem InputKept.setRq (s : State) (q : Nat) (r : Rq) : InputKept s (s.setRq q r) := ⟨rfl, rfl⟩

theorem InputKept.msix (s : State) (v : Nat) : InputKept s (s.msix v) := ⟨by rw [State.msix_dur], s.reg_msix v _⟩

theorem InputKept.rqMsix (s : State) (q : Nat) : InputKept s (s.rqMsix q) := by
  unfold State.rqMsix
  split
  · exact InputKept.msix s _
  · exact InputKept.refl s

theorem InputKept.rqError (s : State) (q code index : Nat) : InputKept s (s.rqError q code index) := by
  have hraise (u : State) : InputKept u (u.raise 0 1) := ⟨by rw [State.raise_dur], State.reg_raise u 0 1 (by decide) (by decide)⟩
  unfold State.rqError
  exact ((((InputKept.wrQueue s _ q rfl (by decide)).trans (InputKept.wrQueue _ _ q rfl (by decide))).trans
    (InputKept.wrQueue _ _ q rfl (by decide))).trans (hraise _)).trans (InputKept.rqMsix _ q)

theorem InputKept.postNow (s : State) (q : Nat) (p : Posting) : InputKept s (s.postNow q p) := by
  unfold State.postNow
  split
  · exact InputKept.rqError s q _ _
  · extract_lets o tail phase w0 u next v w
    have hu : InputKept s u := ⟨rfl, rfl⟩
    have hv : InputKept s v := hu.trans (InputKept.wrQueue u _ q rfl (by decide))
    have hw : InputKept s w := by
      unfold w
      split
      · exact hv.trans (InputKept.wrQueue v _ q rfl (by decide))
      · exact hv
    split
    · exact hw.trans (InputKept.rqMsix w q)
    · exact hw

theorem InputKept.postAll (k : Nat) (s : State) (q : Nat) : InputKept s (postAll k s q) := by
  induction k generalizing s with
  | zero => exact InputKept.refl s
  | succ k ih =>
    unfold Machine.postAll
    dsimp only
    split
    · exact InputKept.refl s
    · split
      · split
        · exact ((InputKept.setRq s q _).trans (InputKept.postNow _ q _)).trans (ih _)
        · exact InputKept.refl s
      · split
        · exact InputKept.wrQueue s _ q rfl (by decide)
        · exact InputKept.refl s

theorem InputKept.complete (s : State) (q status : Nat) (result : Word64) : InputKept s (s.complete q status result) := by
  unfold State.complete
  dsimp only
  split
  · exact InputKept.setRq s q _
  · split
    · exact InputKept.refl s
    · exact (InputKept.setRq s q _).trans (InputKept.postAll _ _ q)

theorem InputKept.rqAdvance (k : Nat) (s : State) (q : Nat) : InputKept s (rqAdvance k s q) := by
  induction k generalizing s with
  | zero => exact InputKept.refl s
  | succ k ih =>
    unfold Machine.rqAdvance
    split
    · exact InputKept.refl s
    · split
      · exact InputKept.refl s
      · split
        · exact (InputKept.complete s q _ _).trans (ih _)
        · exact InputKept.refl s

theorem InputKept.finishCmd (s : State) (q status result : Nat) : InputKept s (s.finishCmd q status result) := by
  unfold State.finishCmd State.advance
  exact (InputKept.complete ..).trans (InputKept.rqAdvance ..)

theorem InputKept.stopCut (s : State) : InputKept s s.stopCut := by
  unfold State.stopCut
  split
  · split
    · exact InputKept.trans (b := { s with dur := { s.dur with stopCmd := none } }) ⟨rfl, rfl⟩ (InputKept.finishCmd ..)
    · exact InputKept.refl s
  · exact InputKept.refl s

/-- While a flush runs no other starts (R303). -/
theorem State.startFlush_flushing {s : State} (h : s.dur.flush.isSome = true) (cause : Nat) : s.startFlush cause = s := by
  unfold State.startFlush
  rw [h]
  rfl

/-! ### A sample of the input (R474, R475, R477) -/

/-- The means of input power are in a register of their own. -/
theorem State.powerMeans_kept (s : State) (w : Nat) :
    let t := s.powerMeans w
    regsKept s t [PWR_INPUT_W.key] ∧ t.mono = s.mono ∧ t.dur = s.dur ∧ t.evInbox = s.evInbox ∧ t.rails.vinLow = s.rails.vinLow := by
  unfold State.powerMeans
  dsimp only
  split
  · exact ⟨regsKept.refl _ _, rfl, rfl, rfl, rfl⟩
  · refine ⟨?_, by simp, by simp, by simp, by simp⟩
    refine regsKept.trans (regsKept.trans (regsKept.trans (regsKept.of_regs ?_ _) (State.wr_regsKept _ PWR_INPUT_W _ 0 0))
      (State.wr_regsKept _ PWR_INPUT_PEAK_W _ 0 0)) (State.wr_regsKept _ PWR_INPUT_W_1S _ 0 0)
    rfl

/-- What a sample of the input measures, at its moment. -/
def State.inputTaken (x : State) (vin w : Nat) : State :=
  (({ x with rails := { x.rails with inputAt := x.mono } } : State).wr PWR_VIN_MEAS vin).powerMeans w

section
variable {s x : State} (hx : s.upTo (s.rails.inputAt + us 10) = x)
include hx

theorem State.inputTaken_kept (vin w : Nat) :
    let t := x.inputTaken vin w
    t.mono = max s.mono (s.rails.inputAt + us 10) ∧ t.dur = s.dur ∧ t.evInbox = s.evInbox ∧ t.rails.vinLow = s.rails.vinLow
      ∧ t.rd PWR_VIN_MEAS = vin % 2 ^ 16 ∧ t.rd PWR_VIN_WARN = s.rd PWR_VIN_WARN ∧ t.rd PWR_VIN_CUT = s.rd PWR_VIN_CUT := by
  have hmono : x.mono = max s.mono (s.rails.inputAt + us 10) := by rw [← hx, State.upTo_mono]
  have hdur : x.dur = s.dur := by rw [← hx, State.upTo_dur]
  have hinbox : x.evInbox = s.evInbox := by rw [← hx, State.upTo_evInbox]
  have hrails : x.rails = s.rails := by rw [← hx, State.upTo_rails]
  have hrd (f : Fld) : x.rd f = s.rd f := by rw [← hx, State.rd_upTo]
  obtain ⟨kregs, kmono, kdur, kinbox, kvin⟩ := (({ x with rails := { x.rails with inputAt := x.mono } } : State).wr PWR_VIN_MEAS vin).powerMeans_kept w
  unfold State.inputTaken
  refine ⟨kmono.trans hmono, kdur.trans hdur, kinbox.trans hinbox, ?_, ?_, ?_, ?_⟩
  · rw [kvin, State.wr_rails]
    show x.rails.vinLow = s.rails.vinLow
    rw [hrails]
  · rw [kregs.rd (by decide)]
    exact State.rd_wr_same _ _ _ _ _ (by decide) (by decide)
  · rw [kregs.rd (by decide), State.rd_wr_apart _ _ _ _ _ _ _ _ (by decide) (by decide) (by decide) (by decide)]
    exact hrd _
  · rw [kregs.rd (by decide), State.rd_wr_apart _ _ _ _ _ _ _ _ (by decide) (by decide) (by decide) (by decide)]
    exact hrd _

/-- A sample of an input that has not been low twice in a row, outside a flush, notes whether it is low and reports the first low one. -/
theorem State.inputSample_noFlush (hflush : s.dur.flush = none) {vin : Nat} (w : Nat) {low : Bool}
    (hlow : (s.rd PWR_VIN_WARN != 0 && decide (vin < s.rd PWR_VIN_WARN)) = low) (hfirst : low = false ∨ s.rails.vinLow = false) :
    let v := x.inputTaken vin w
    let u := ({ v with rails := { v.rails with vinLow := low } } : State).raiseIf low 1 4
    s.inputSample vin w = { u with pwr := { u.pwr with inputBack := false } } := by
  intro v u
  obtain ⟨-, hdur, -, hwas, -, hwarn, -⟩ := State.inputTaken_kept hx vin w
  have htwice : (low && s.rails.vinLow) = false := by rcases hfirst with h | h <;> simp [h]
  have hnew : (low && !s.rails.vinLow) = low := by rcases hfirst with h | h <;> simp [h]
  have huflush : u.dur.flush = none := by rw [State.raiseIf_dur, ← hflush, ← hdur]
  unfold State.inputSample
  rw [hx]
  extract_lets y q c v' low' was q2 a u' b q3 d
  have hlow' : low' = low := by
    show (v.rd PWR_VIN_WARN != 0 && decide (vin < v.rd PWR_VIN_WARN)) = low
    rw [hwarn, hlow]
  have hwas' : was = s.rails.vinLow := hwas
  clear_value low' was
  subst hlow' hwas'
  have hu : u' = u := by
    unfold u'
    rw [hnew]
    rfl
  have hb : b = u := by
    unfold b
    rw [htwice, hu]
    rfl
  have hd : d = { u with pwr := { u.pwr with inputBack := false } } := by
    unfold d q3
    rw [hb, huflush]
    simp
  rw [hd, if_neg (by simp [huflush])]

/-- An input that is not low, outside a flush. -/
theorem State.inputSample_enough (hflush : s.dur.flush = none) {vin : Nat} (w : Nat) (hvin : vin < 2 ^ 16)
    (henough : s.rd PWR_VIN_WARN = 0 ∨ s.rd PWR_VIN_WARN ≤ vin) :
    let t := s.inputSample vin w
    t.mono = max s.mono (s.rails.inputAt + us 10) ∧ t.rd PWR_VIN_MEAS = vin ∧ t.rails.vinLow = false ∧ t.pwr.inputBack = false
      ∧ t.evInbox = s.evInbox := by
  obtain ⟨hmono, -, hinbox, -, hmeas, -, -⟩ := State.inputTaken_kept hx vin w
  have hlow : (s.rd PWR_VIN_WARN != 0 && decide (vin < s.rd PWR_VIN_WARN)) = false := by
    rcases henough with h | h
    · simp [h]
    · simp [Nat.not_lt.mpr h]
  have ht := State.inputSample_noFlush hx hflush w hlow (.inl rfl)
  generalize x.inputTaken vin w = v at hmono hinbox hmeas ht
  have hmeas' : v.rd PWR_VIN_MEAS = vin := hmeas.trans (Nat.mod_eq_of_lt hvin)
  intro t
  rw [show t = { v with rails := { v.rails with vinLow := false }, pwr := { v.pwr with inputBack := false } } from ht]
  exact ⟨hmono, hmeas', rfl, rfl, hinbox⟩

/-- The first low sample, outside a flush. -/
theorem State.inputSample_firstLow (hflush : s.dur.flush = none) {vin : Nat} (w : Nat) (hvin : vin < 2 ^ 16) (hwarn : vin < s.rd PWR_VIN_WARN)
    (hfirst : s.rails.vinLow = false) :
    let t := s.inputSample vin w
    t.rd PWR_VIN_MEAS = vin ∧ t.rails.vinLow = true ∧ t.dur.flush = none ∧ raisedIn s t 1 4 := by
  obtain ⟨-, hdur, hinbox, -, hmeas, -, -⟩ := State.inputTaken_kept hx vin w
  have hlow : (s.rd PWR_VIN_WARN != 0 && decide (vin < s.rd PWR_VIN_WARN)) = true := by
    simp only [hwarn, decide_true, Bool.and_true, bne_iff_ne]
    omega
  have ht := State.inputSample_noFlush hx hflush w hlow (.inr hfirst)
  generalize x.inputTaken vin w = v at hdur hinbox hmeas ht
  let a : State := { v with rails := { v.rails with vinLow := true } }
  have hraised : raisedIn s (a.raise 1 4) 1 4 := raisedIn_raise 1 4 hinbox rfl rfl (by decide)
  intro t
  rw [show t = { a.raise 1 4 with pwr := { (a.raise 1 4).pwr with inputBack := false } } from ht]
  refine ⟨?_, ?_, ?_, hraised⟩
  · exact (State.rd_raise a 1 4 (by decide) (by decide)).trans (hmeas.trans (Nat.mod_eq_of_lt hvin))
  · exact congrArg Rails.vinLow (State.raise_rails a 1 4)
  · exact (congrArg Dur.flush (State.raise_dur a 1 4)).trans ((congrArg Dur.flush hdur).trans hflush)

/-- During a flush a sample below CUT stops the U96 at once, whatever its predecessors were (R475). -/
theorem State.inputSample_cut (hflush : s.dur.flush.isSome = true) {vin : Nat} (w : Nat) (hpos : 0 < s.rd PWR_VIN_CUT) (hcut : vin < s.rd PWR_VIN_CUT) :
    ∃ y : State, s.inputSample vin w = y.immediateStop 0xFE := by
  obtain ⟨-, hdur, -, -, -, -, hrd⟩ := State.inputTaken_kept hx vin w
  unfold State.inputSample
  rw [hx]
  extract_lets y q c v low was q2 a u b q3 d
  have hu : InputKept v u := by
    unfold u State.raiseIf
    split
    · exact ⟨by rw [State.raise_dur], State.reg_raise a 1 4 (by decide) (by decide)⟩
    · exact ⟨rfl, rfl⟩
  have huflush : u.dur.flush.isSome = true := by rw [hu.flush]; exact hdur ▸ hflush
  have hb : InputKept u b := by
    unfold b
    split
    · rw [State.startFlush_flushing huflush]
      exact InputKept.stopCut u
    · exact InputKept.refl u
  have hd : InputKept v d := (hu.trans hb).trans ⟨rfl, rfl⟩
  have hdflush : d.dur.flush.isSome = true := by rw [hd.flush]; exact hdur ▸ hflush
  have hdcut : d.rd PWR_VIN_CUT = s.rd PWR_VIN_CUT := (congrArg (bits · _ _) hd.vin).trans hrd
  refine ⟨d.raise 1 8, if_pos ?_⟩
  simp only [hdflush, hdcut, Bool.true_and, Bool.and_eq_true, bne_iff_ne, decide_eq_true_eq]
  exact ⟨by omega, hcut⟩

theorem State.inputSample_cutDrops (hflush : s.dur.flush.isSome = true) {vin : Nat} (w : Nat) (hpos : 0 < s.rd PWR_VIN_CUT)
    (hcut : vin < s.rd PWR_VIN_CUT) :
    let t := s.inputSample vin w
    t.pwr.off = true ∧ t.rails.en = [] ∧ t.rd PWR_RAIL_STAT_LAST_FAULT = 0xFE := by
  obtain ⟨y, hy⟩ := State.inputSample_cut hx hflush w hpos hcut
  obtain ⟨hoff, hen, hrail⟩ := y.immediateStop_drops 0xFE
  intro t
  rw [show t = y.immediateStop 0xFE from hy]
  exact ⟨hoff, hen, hrail⟩

end

/-! ### The pace of the ring oscillators (R28) -/

theorem nth_cons_of_pos {α : Type} (d x : α) (xs : List α) {n : Nat} (h : 0 < n) : nth d (x :: xs) n = nth d xs (n - 1) := by
  obtain ⟨m, rfl⟩ : ∃ m, n = m + 1 := ⟨n - 1, by omega⟩
  rfl

/-- The place found is that of an entry as large as any other: the best so far, or one of the entries looked through. -/
theorem slowest_spec (xs : List Nat) (i : Nat) (best : Nat × Nat) :
    let b := slowest xs i best
    (∀ x ∈ xs, x ≤ b.2) ∧ best.2 ≤ b.2 ∧ (b = best ∨ i ≤ b.1 ∧ b.1 < i + xs.length ∧ nth 0 xs (b.1 - i) = b.2) := by
  induction xs generalizing i best with
  | nil => exact ⟨fun x hx => absurd hx (List.not_mem_nil), Nat.le_refl _, .inl rfl⟩
  | cons x xs ih =>
    obtain ⟨hall, hbest, hplace⟩ := ih (i + 1) (if best.2 < x then (i, x) else best)
    unfold slowest
    generalize slowest xs (i + 1) (if best.2 < x then (i, x) else best) = b at hall hbest hplace ⊢
    have hx : x ≤ b.2 ∧ best.2 ≤ b.2 := by
      split at hbest
      · next hlt =>
        have hle : x ≤ b.2 := hbest
        omega
      · omega
    refine ⟨List.forall_mem_cons.mpr ⟨hx.1, hall⟩, hx.2, ?_⟩
    rcases hplace with hkeep | ⟨hlo, hhi, hnth⟩
    · split at hkeep
      · right
        rw [hkeep]
        exact ⟨Nat.le_refl i, by simp, by simp [nth]⟩
      · exact .inl hkeep
    · right
      rw [List.length_cons, nth_cons_of_pos 0 x xs (by omega)]
      exact ⟨by omega, by omega, by rwa [Nat.sub_sub]⟩

/-- Of sixteen rings the place found is one of them, and its entry is the largest (R28). -/
theorem slowest_of_rings {rings : List Nat} (h : rings.length = 16) :
    let b := slowest rings 0 (0, 0)
    b.1 < 16 ∧ nth 0 rings b.1 = b.2 ∧ ∀ x ∈ rings, x ≤ b.2 := by
  obtain ⟨hall, -, hplace⟩ := slowest_spec rings 0 (0, 0)
  generalize slowest rings 0 (0, 0) = b at hall hplace ⊢
  rcases hplace with rfl | ⟨-, hhi, hnth⟩
  · refine ⟨by decide, ?_, hall⟩
    cases rings with
    | nil => rfl
    | cons x xs => exact Nat.le_zero.mp (hall x (List.mem_cons_self ..))
  · exact ⟨by omega, hnth, hall⟩

section
variable {s x : State} (hx : s.upTo (s.rails.paceAt + us 10) = x)
include hx

/-- The registers of GLB.PACE after an update; its mean and its spread are rounded down (log 204). -/
theorem State.paceUpdate_writes {rings : List Nat} (hlen : rings.length = 16) :
    let m := rings.sum / 16
    let b := slowest rings 0 (0, 0)
    let t := s.paceUpdate rings
    t.mono = x.mono ∧ t.rd GLB_PACE_VALID = 1 ∧ t.rd GLB_PACE_SEQ = (s.rd GLB_PACE_SEQ + 1) % 2 ^ 8 ∧ t.rd GLB_PACE_STAGE_FS = m % 2 ^ 32
      ∧ t.rd GLB_PACE_SLOW_RING = b.1 ∧ t.rd GLB_PACE_SPREAD = min 0xFFF ((b.2 - m) / 100) ∧ regsKept s t [GLB_PACE_VALID.key] := by
  intro m b t
  have hregs : x.regs = s.regs := by rw [← hx, State.upTo_regs]
  have hmean : rings.sum / max 1 rings.length = m := by
    rw [hlen]
    rfl
  let u : State := { x with rails := { x.rails with paceAt := x.mono } }
  have hu (f : Fld) : u.rd f = s.rd f := State.rd_congr hregs f 0 0
  have ht : t = ((((u.wr GLB_PACE_VALID 1).inc GLB_PACE_SEQ 1).wr GLB_PACE_SLOW_RING b.1).wr GLB_PACE_SPREAD (min 0xFFF ((b.2 - m) / 100))).wr
      GLB_PACE_STAGE_FS m := by
    unfold t State.paceUpdate
    rw [hx, ← hmean]
  have hring : b.1 < 16 := (slowest_of_rings hlen).1
  rw [ht]
  unfold State.inc
  refine ⟨by simp [u], ?_, ?_, ?_, ?_, ?_, ?_⟩
  · simp (disch := decide) only [State.rd_wr_apart, State.rd_wr_same]
    rfl
  · simp (disch := decide) only [State.rd_wr_apart, State.rd_wr_same, hu]
  · simp (disch := decide) only [State.rd_wr_same]
  · simp (disch := decide) only [State.rd_wr_apart, State.rd_wr_same]
    exact Nat.mod_eq_of_lt hring
  · simp (disch := decide) only [State.rd_wr_apart, State.rd_wr_same]
    exact Nat.mod_eq_of_lt (Nat.lt_of_le_of_lt (Nat.min_le_left ..) (by decide))
  · exact regsKept.trans (regsKept.trans (regsKept.trans (regsKept.trans (regsKept.trans (regsKept.of_regs hregs _)
      (State.wr_regsKept u GLB_PACE_VALID _ 0 0)) (State.wr_regsKept _ GLB_PACE_SEQ _ 0 0)) (State.wr_regsKept _ GLB_PACE_SLOW_RING _ 0 0))
      (State.wr_regsKept _ GLB_PACE_SPREAD _ 0 0)) (State.wr_regsKept _ GLB_PACE_STAGE_FS _ 0 0)

/-- The ring shown as the slowest has an entry no other exceeds, and the spread is taken from it. -/
theorem State.paceUpdate_reports {rings : List Nat} (hlen : rings.length = 16) :
    let m := rings.sum / 16
    let t := s.paceUpdate rings
    t.mono = max s.mono (s.rails.paceAt + us 10) ∧ t.rd GLB_PACE_VALID = 1 ∧ t.rd GLB_PACE_SEQ = (s.rd GLB_PACE_SEQ + 1) % 2 ^ 8
      ∧ t.rd GLB_PACE_STAGE_FS = m % 2 ^ 32 ∧ (∀ r ∈ rings, r ≤ nth 0 rings (t.rd GLB_PACE_SLOW_RING))
      ∧ t.rd GLB_PACE_SPREAD = min 0xFFF ((nth 0 rings (t.rd GLB_PACE_SLOW_RING) - m) / 100) ∧ regsKept s t [GLB_PACE_VALID.key] := by
  intro m t
  have hx10 : x.mono = max s.mono (s.rails.paceAt + us 10) := by rw [← hx, State.upTo_mono]
  obtain ⟨hmono, hvalid, hseq, hstage, hring, hspread, hkept⟩ := State.paceUpdate_writes hx hlen
  obtain ⟨-, hslow, hall⟩ := slowest_of_rings hlen
  rw [hring, hslow]
  exact ⟨hmono.trans hx10, hvalid, hseq, hstage, hall, hspread, hkept⟩

end

/-! ### The statement -/

/-- Settles O49, part by part: the load's samples, VCORE's moves, the rails' checks and currents, the input, the pace. -/
theorem operatingPointAndRails : Obligations.OperatingPointAndRails := by
  intro s
  refine ⟨fun n => ?_, fun hslews => ?_, fun hstays => ?_, fun t0 hslews => ?_, fun mv hon => ?_, fun mv hoff => ?_, fun r mv hr hr6 hon hgood => ?_,
    fun ma => ?_, fun vin w hvin => ?_, fun rings hlen => ?_⟩
  · obtain ⟨x, hx⟩ : ∃ x, s.upTo (s.pwr.sampleAt + ms 1) = x := ⟨_, rfl⟩
    obtain ⟨hmono, hat⟩ := State.opSample_time hx n
    have hm : x.sampled.mono = max s.mono (s.pwr.sampleAt + 1000000) := State.sampled_mono hx
    intro m u b
    refine ⟨s.opSample n, rfl, hmono.trans hm, hat.trans hm, fun hforced => ?_, fun hon hnone hmoved => ?_⟩
    · rw [State.opSample_forced hx (State.not_inAuto.mpr hforced)]
      refine ⟨?_, (State.lowFrom_regs _ _).trans (State.sampled_regs hx)⟩
      unfold State.lowFrom m
      rw [State.sampled_pwr hx, hm]
    · unfold m
      rw [← hm]
      exact State.opSample_followsLoad hx ⟨hon, hnone, hmoved⟩ n
  · exact ⟨s.familyReached, rfl, State.familyReached_reports hslews⟩
  · obtain ⟨hfamily, havs⟩ := State.no_move_of_not_slewing hstays
    exact ⟨congrArg _ hfamily, congrArg _ havs⟩
  · obtain ⟨t, ht, hmono, hagain, hfails⟩ := State.avsTimeout_of_slewing hslews
    exact ⟨t, congrArg _ ht, hmono, hagain, hfails⟩
  · obtain ⟨hfew, hmany⟩ := State.railCheck_on hon mv
    exact ⟨fun h => congrArg _ (hfew h), fun h => ⟨s.railCheck mv, rfl, hmany h⟩⟩
  · exact congrArg _ (State.railCheck_off hoff mv)
  · exact ⟨State.railOne_inside hr hr6 hon hgood, fun a hwarn hfault hsince hlong => State.railOne_warns hr hr6 hon hgood hwarn hfault hsince hlong⟩
  · obtain ⟨hcurrent, hfailed, -, hnew⟩ := s.currentPoll_polled ma
    exact ⟨s.currentPoll ma, rfl, hcurrent, hfailed, fun ⟨r, hr, hnone, hzero⟩ => hnew r hr hnone hzero⟩
  · obtain ⟨x, hx⟩ : ∃ x, s.upTo (s.rails.inputAt + us 10) = x := ⟨_, rfl⟩
    refine ⟨fun hflush henough => ?_, fun hflush _ hwarn hfirst => ?_, fun hflush hpos hcut => ?_⟩
    · exact ⟨s.inputSample vin w, rfl, State.inputSample_enough hx hflush w hvin henough⟩
    · exact ⟨s.inputSample vin w, rfl, State.inputSample_firstLow hx hflush w hvin hwarn hfirst⟩
    · exact ⟨s.inputSample vin w, rfl, State.inputSample_cutDrops hx hflush w hpos hcut⟩
  · obtain ⟨x, hx⟩ : ∃ x, s.upTo (s.rails.paceAt + us 10) = x := ⟨_, rfl⟩
    exact ⟨s.paceUpdate rings, rfl, State.paceUpdate_reports hx hlen⟩

end Sys2Proof.Machine
end

section
/-! PROOFS. A write of BAR0: which accesses are recorded, what an accepted write leaves, the bits a register takes (O7, O9). -/

namespace Sys2Proof.Machine

/-! ### Fields of words -/

theorem getLsbD_toNat_testBit (w : Word64) (i : Nat) : w.toNat.testBit i = w.getLsbD i := rfl

/-- A field is made of the bits from `lo` to `hi` alone. -/
theorem bits_congr {a b : Word64} {hi lo : Nat} (h : ∀ i, lo ≤ i → i ≤ hi → a.getLsbD i = b.getLsbD i) : bits a hi lo = bits b hi lo := by
  refine Nat.eq_of_testBit_eq fun j => ?_
  unfold bits
  simp only [Nat.testBit_mod_two_pow, Nat.testBit_shiftRight, getLsbD_toNat_testBit]
  by_cases hj : j < hi + 1 - lo
  · rw [h (lo + j) (by omega) (by omega)]
  · simp [hj]

theorem bits_lt (w : Word64) (hi lo : Nat) : bits w hi lo < 2 ^ (hi + 1 - lo) := Nat.mod_lt _ (Nat.two_pow_pos _)

theorem State.rd_lt (s : State) (f : Fld) (i a : Nat) : s.rd f i a < 2 ^ (f.hi + 1 - f.lo) := bits_lt ..

/-- A one-bit field is 1 where its bit stands. -/
theorem bits_one (w : Word64) (n : Nat) : bits w n n = b2n (bit w n) := by
  unfold bits bit b2n
  rw [← getLsbD_toNat_testBit, Nat.testBit_eq_decide_div_mod_eq, Nat.shiftRight_eq_div_pow, Nat.add_sub_cancel_left, pow_one]
  have := Nat.mod_two_eq_zero_or_one (w.toNat / 2 ^ n)
  by_cases h : w.toNat / 2 ^ n % 2 = 1
  · simp [h]
  · simp [this.resolve_right h]

/-- Bit 0 of a register as a field, with the other way round. -/
theorem bit_eq_bits (w : Word64) (n : Nat) : bit w n = (bits w n n == 1) := by
  rw [bits_one]
  cases bit w n <;> rfl

theorem bits_mix_in {m old new : Word64} {hi lo : Nat} (h : ∀ i, lo ≤ i → i ≤ hi → m.getLsbD i = true) : bits (mix m old new) hi lo = bits new hi lo := by
  refine bits_congr fun i hl hh => ?_
  simp [mix, h i hl hh]

/-! ### Addresses -/

theorem inMsix_regKey (page : Nat) {off : Nat} (h : off < 0x8000) : inMsix (regKey page off) = false := by
  unfold inMsix regKey
  rcases Nat.eq_zero_or_pos page with rfl | hp
  · simp; omega
  · simp; omega

theorem halfMask_eight (addr : Nat) : halfMask 8 addr = BitVec.allOnes 64 := rfl

theorem mix_allOnes (old new : Word64) : mix (BitVec.allOnes 64) old new = new := by
  simp only [mix, BitVec.not_allOnes, BitVec.and_zero, BitVec.and_allOnes, BitVec.zero_or]

/-! ### Which writes reach a register (R36, R37, R41) -/

/-- A 64-bit write of a register that shows, outside the MSI-X table and the counter pages. -/
theorem State.busWrite_regKey (s : State) {page off : Nat} {d : RegDesc} (v : Word64) (hp : page < 1024) (ho : off < 0x10000) (h8 : off % 8 = 0)
    (hx : inMsix (regKey page off) = false) (hm : mapped page = true) (hc : isCounterPage page = false) (hh : s.hidden false page = false)
    (hd : descAt page off = some d) :
    s.busWrite (regKey page off) 8 v = if off < 0x40 then s.headerWrite page off (regKey page off) (BitVec.allOnes 64) v
      else s.blockWrite page off (regKey page off) d (BitVec.allOnes 64) v := by
  have hbar : ¬ 2 ^ 26 ≤ regKey page off := Nat.not_le.mpr (regKey_lt hp ho)
  have hlane : lane 8 (regKey page off) v = v := rfl
  unfold State.busWrite
  simp only [pageOf_regKey page ho, offOf_regKey page ho h8, hbar, widthOk_regKey page h8, hx, hm, hh, hd, hc, halfMask_eight, hlane,
    Bool.not_true, Bool.false_eq_true, if_false]

/-- A write of an address no register answers to, or of a width R41 does not allow, is recorded (R36, R41; log 55). -/
theorem State.busWrite_refused (s : State) {addr width : Nat} (v : Word64) (ha : addr < 2 ^ 26) (h : widthOk addr width = false ∨ mapped (addr / 0x10000) = false) :
    s.busWrite addr width v = s.accessErr (if widthOk addr width then 1 else 2) true addr := by
  have hbar : ¬ 2 ^ 26 ≤ addr := Nat.not_le.mpr ha
  unfold State.busWrite pageOf
  rcases hw : widthOk addr width with _ | _
  · simp only [hbar, if_false, Bool.not_false, if_true, Bool.false_eq_true]
  · simp only [hbar, if_false, Bool.not_true, if_true, h.resolve_left (by rw [hw]; decide), Bool.not_false, Bool.false_eq_true]

theorem State.busRead_refused (s : State) {addr width : Nat} (ha : addr < 2 ^ 26) (h : widthOk addr width = false ∨ mapped (addr / 0x10000) = false) :
    s.busRead addr width = (0, s.accessErr (if widthOk addr width then 1 else 2) false addr) := by
  have hbar : ¬ 2 ^ 26 ≤ addr := Nat.not_le.mpr ha
  unfold State.busRead pageOf
  rcases hw : widthOk addr width with _ | _
  · simp only [hbar, if_false, Bool.not_false, if_true, Bool.false_eq_true]
  · simp only [hbar, if_false, Bool.not_true, if_true, h.resolve_left (by rw [hw]; decide), Bool.not_false, Bool.false_eq_true]

/-! ### The record of an access error (R36, R50) -/

/-- GLB.ACCESS_ERR with the record of an access; the event is not raised yet. -/
def State.errRecord (s : State) (cause : Nat) (write : Bool) (addr : Nat) : State :=
  ((((s.wr GLB_ACCESS_ERR_VALID 1).wr GLB_ACCESS_ERR_CAUSE cause).wr GLB_ACCESS_ERR_COUNT 1).wr GLB_ACCESS_ERR_WRITE (b2n write)).wr GLB_ACCESS_ERR_ADDR addr

theorem State.accessErr_of_empty {s : State} (h : s.rd GLB_ACCESS_ERR_VALID ≠ 1) (cause : Nat) (write : Bool) (addr : Nat) :
    s.accessErr cause write addr = (s.errRecord cause write addr).raiseArg 0 0 ((s.errRecord cause write addr).reg (regKey 0 0x300)) := by
  unfold State.accessErr
  rw [if_neg h]
  rfl

theorem State.accessErr_of_valid {s : State} (h : s.rd GLB_ACCESS_ERR_VALID = 1) (cause : Nat) (write : Bool) (addr : Nat) :
    s.accessErr cause write addr = s.satInc GLB_ACCESS_ERR_COUNT 1 := by
  unfold State.accessErr
  rw [if_pos h]

theorem State.errRecord_regsKept (s : State) (cause : Nat) (write : Bool) (addr : Nat) : regsKept s (s.errRecord cause write addr) [regKey 0 0x300] :=
  regsKept.trans (regsKept.trans (regsKept.trans (regsKept.trans (State.wr_regsKept s GLB_ACCESS_ERR_VALID _ 0 0) (State.wr_regsKept _ GLB_ACCESS_ERR_CAUSE _ 0 0))
    (State.wr_regsKept _ GLB_ACCESS_ERR_COUNT _ 0 0)) (State.wr_regsKept _ GLB_ACCESS_ERR_WRITE _ 0 0)) (State.wr_regsKept _ GLB_ACCESS_ERR_ADDR _ 0 0)

/-- The fields of a record. -/
theorem State.errRecord_reads (s : State) {cause addr : Nat} (hc : cause < 8) (write : Bool) (ha : addr < 2 ^ 26) :
    let t := s.errRecord cause write addr
    t.rd GLB_ACCESS_ERR_VALID = 1 ∧ t.rd GLB_ACCESS_ERR_CAUSE = cause ∧ t.rd GLB_ACCESS_ERR_COUNT = 1 ∧ t.rd GLB_ACCESS_ERR_WRITE = b2n write
      ∧ t.rd GLB_ACCESS_ERR_ADDR = addr := by
  unfold State.errRecord
  refine ⟨?_, ?_, ?_, ?_, ?_⟩ <;> simp (disch := decide) only [State.rd_wr_apart, State.rd_wr_same]
  · rfl
  · exact Nat.mod_eq_of_lt hc
  · rfl
  · cases write <;> rfl
  · exact Nat.mod_eq_of_lt ha

theorem State.raiseArg_regsKept (s : State) (p n : Nat) (a : Word64) : regsKept s (s.raiseArg p n a) (evRegs p) := by
  intro k hk
  simp only [evRegs, List.mem_cons, List.not_mem_nil, or_false, not_or] at hk
  exact State.reg_raiseWith s p n false a hk.1 hk.2

theorem State.accessErr_regsKept (s : State) (cause : Nat) (write : Bool) (addr : Nat) :
    regsKept s (s.accessErr cause write addr) (regKey 0 0x300 :: evRegs 0) := by
  by_cases h : s.rd GLB_ACCESS_ERR_VALID = 1
  · rw [State.accessErr_of_valid h]
    exact (State.wr_regsKept s GLB_ACCESS_ERR_COUNT _ 0 0).mono (List.cons_subset_cons _ (List.nil_subset _))
  · rw [State.accessErr_of_empty h]
    exact ((s.errRecord_regsKept cause write addr).mono (List.cons_subset_cons _ (List.nil_subset _))).trans
      ((State.raiseArg_regsKept _ 0 0 _).mono (List.subset_cons_self _ _))

/-- An empty GLB.ACCESS_ERR takes the record of the access, and the event is raised. -/
theorem State.accessErr_records {s : State} (h : s.rd GLB_ACCESS_ERR_VALID = 0) {cause addr : Nat} (hc : cause < 8) (write : Bool) (ha : addr < 2 ^ 26) :
    let t := s.accessErr cause write addr
    t.rd GLB_ACCESS_ERR_VALID = 1 ∧ t.rd GLB_ACCESS_ERR_CAUSE = cause ∧ t.rd GLB_ACCESS_ERR_COUNT = 1 ∧ t.rd GLB_ACCESS_ERR_WRITE = b2n write
      ∧ t.rd GLB_ACCESS_ERR_ADDR = addr ∧ raisedIn s t 0 0 := by
  intro t
  have ht : t = (s.errRecord cause write addr).raiseArg 0 0 _ := State.accessErr_of_empty (by omega) cause write addr
  obtain ⟨hvalid, hcause, hcount, hwrite, haddr⟩ := s.errRecord_reads hc write ha
  have hraised := State.raiseWith_raisedIn (s.errRecord cause write addr) 0 0 ((s.errRecord cause write addr).reg (regKey 0 0x300))
    (sev := 1) (b := 0) (i := 0) (by decide) (by decide) (by decide)
  have hkept := State.raiseArg_regsKept (s.errRecord cause write addr) 0 0 ((s.errRecord cause write addr).reg (regKey 0 0x300))
  rw [← ht] at hkept
  refine ⟨?_, ?_, ?_, ?_, ?_, ?_⟩
  · rw [hkept.rd (by decide), hvalid]
  · rw [hkept.rd (by decide), hcause]
  · rw [hkept.rd (by decide), hcount]
  · rw [hkept.rd (by decide), hwrite]
  · rw [hkept.rd (by decide), haddr]
  · rw [ht]
    have hinbox : (s.errRecord cause write addr).evInbox = s.evInbox := by simp [State.errRecord]
    unfold raisedIn at hraised ⊢
    rwa [hinbox] at hraised

/-- Of a GLB.ACCESS_ERR that holds a record only the count moves, and nothing is raised. -/
theorem State.accessErr_counts {s : State} (h : s.rd GLB_ACCESS_ERR_VALID = 1) (cause : Nat) (write : Bool) (addr : Nat) :
    (s.accessErr cause write addr).rd GLB_ACCESS_ERR_VALID = 1 ∧ (s.accessErr cause write addr).evInbox = s.evInbox := by
  rw [State.accessErr_of_valid h]
  refine ⟨?_, by simp⟩
  unfold State.satInc
  rw [State.rd_wr_apart _ _ _ _ _ _ _ _ (by decide) (by decide) (by decide) (by decide), h]

theorem exec_registerWrite (s : State) (addr width : Nat) (v : Word64) : exec (.registerWrite addr width ⟨v, []⟩) s = .next (s.busWrite addr width v).settle := rfl

/-- Settles O9: the write and the read are both recorded by `accessErr`, with the cause of `busWrite_refused`. -/
theorem refusedAccessIsRecorded : Obligations.RefusedAccessIsRecorded := by
  intro s addr width v ha hrefused cause
  have hcause : cause < 8 := by unfold cause; split <;> decide
  refine ⟨⟨s.accessErr cause true addr, ?_, s.accessErr_regsKept _ _ _, fun h => ?_, fun h => State.accessErr_counts h cause true addr⟩,
    ⟨(s.accessErr cause false addr).emit (.readData addr 0), ?_, s.accessErr_regsKept _ _ _, ⟨_, rfl⟩, fun h => ?_⟩⟩
  · rw [exec_registerWrite, State.busWrite_refused s v ha hrefused]
  · exact State.accessErr_records h hcause true ha
  · rw [exec_rcFieldRead, State.busRead_refused s ha hrefused]
  · obtain ⟨hvalid, hread, hcount, hwrite, haddr, -⟩ := State.accessErr_records h hcause false ha
    exact ⟨hvalid, hread, hcount, hwrite, haddr⟩

/-! ### An accepted write of a block register (R12, R37, R43, R46) -/

/-- The register and PG_GEN after an accepted write, before what the write starts. -/
def State.stored (s : State) (page off : Nat) (old new : Word64) : State :=
  let u := if new = old then s else s.setReg (regKey page off) new
  if ((new ^^^ old) &&& configMask page off) = 0 then u else u.bumpGen page

theorem State.storeReg_stored (s : State) {page off : Nat} (h : pairWide page off = false) (old new op : Word64) :
    s.storeReg page off old new op = (s.stored page off old new).afterWrite page off old new op := by
  unfold State.storeReg
  rw [if_neg (by rw [h]; decide)]
  rfl

theorem genKey (page : Nat) : PG_GEN_GEN.key page = regKey page 0x38 := by
  unfold Fld.key
  simp only [Nat.zero_add, Nat.add_zero]

/-- Two registers of a page lie at different addresses. -/
theorem regKey_ne (page : Nat) {a b : Nat} (h : a ≠ b) : regKey page a ≠ regKey page b := by
  unfold regKey
  omega

theorem State.bumpGen_regsKept (s : State) (page : Nat) : regsKept s (s.bumpGen page) [regKey page 0x38] := by
  rw [← genKey]
  exact State.wr_regsKept s PG_GEN_GEN _ page 0

theorem State.rd_bumpGen (s : State) (page : Nat) : (s.bumpGen page).rd PG_GEN_GEN page = (s.rd PG_GEN_GEN page + 1) % 2 ^ 32 :=
  State.rd_wr_same s _ _ _ _ (by decide) (by decide)

theorem State.setReg_regsKept (s : State) (k : Nat) (v : Word64) : regsKept s (s.setReg k v) [k] :=
  fun _ hj => State.reg_setReg_other s v (by simpa using hj)

/-- An accepted write changes the register file alone. -/
theorem State.stored_eq (s : State) (page off : Nat) (old new : Word64) : s.stored page off old new = { s with regs := (s.stored page off old new).regs } := by
  unfold State.stored
  dsimp only
  split <;> split <;> rfl

theorem State.stored_regsKept (s : State) (page off : Nat) (old new : Word64) : regsKept s (s.stored page off old new) [regKey page off, regKey page 0x38] := by
  have hu : regsKept s (if new = old then s else s.setReg (regKey page off) new) [regKey page off, regKey page 0x38] := by
    split
    · exact regsKept.refl s _
    · exact (s.setReg_regsKept _ _).mono (List.cons_subset_cons _ (List.nil_subset _))
  unfold State.stored
  dsimp only
  split
  · exact hu
  · exact hu.trans ((State.bumpGen_regsKept _ page).mono (List.subset_cons_self _ _))

/-- The register takes the new value, where that is another one. -/
theorem State.stored_reg (s : State) {page off : Nat} (ho : off ≠ 0x38) {old new : Word64} (h : new ≠ old) :
    (s.stored page off old new).reg (regKey page off) = new := by
  unfold State.stored
  rw [if_neg h]
  split
  · exact State.reg_setReg_same ..
  · rw [State.bumpGen_regsKept _ page _ (by simpa using regKey_ne page ho), State.reg_setReg_same]

/-- A register whose present value is `old` reads `new` after the write, changed or not. -/
theorem State.stored_reg_of_old (s : State) {page off : Nat} (ho : off ≠ 0x38) {old : Word64} (new : Word64) (h : s.reg (regKey page off) = old) :
    (s.stored page off old new).reg (regKey page off) = new := by
  by_cases hn : new = old
  · subst hn
    unfold State.stored
    simp [h]
  · exact s.stored_reg ho hn

/-- PG_GEN rises by one exactly where a configuration field changed (R46). -/
theorem State.stored_gen (s : State) {page off : Nat} (ho : off ≠ 0x38) (old new : Word64) :
    (s.stored page off old new).rd PG_GEN_GEN page = (s.rd PG_GEN_GEN page + b2n ((new ^^^ old) &&& configMask page off != 0)) % 2 ^ 32 := by
  have hu : (if new = old then s else s.setReg (regKey page off) new).rd PG_GEN_GEN page = s.rd PG_GEN_GEN page := by
    split
    · rfl
    · exact (s.setReg_regsKept _ _).rd (by simpa [genKey] using regKey_ne page ho.symm)
  unfold State.stored
  dsimp only
  by_cases h : (new ^^^ old) &&& configMask page off = 0
  · rw [if_pos h, hu, h]
    exact (Nat.mod_eq_of_lt (s.rd_lt PG_GEN_GEN page 0)).symm
  · rw [if_neg h, State.rd_bumpGen, hu, bne_iff_ne.mpr h]
    rfl

/-- A write of a block register that is accepted, and that meets no frozen or firmware-only field (R37, R48 to R50, R496). -/
theorem State.blockWrite_accepted (s : State) {page off : Nat} (addr : Nat) (d : RegDesc) (v : Word64)
    (hopen : s.frozenBy page = 0 ∨ configMask page off = 0) (hreset : ¬(page = 0 ∧ off = 0x220)) (hconfirm : ¬(page = 4 ∧ off = 0x120))
    (hok : s.writeOk page off (s.newValue page off d (BitVec.allOnes 64) v) v = true)
    (hfw : (s.cur page off ^^^ v) &&& d.maskOf (isFirmware page off) = 0) :
    s.blockWrite page off addr d (BitVec.allOnes 64) v = s.storeReg page off (s.cur page off) (s.newValue page off d (BitVec.allOnes 64) v) v := by
  unfold State.blockWrite
  simp only [BitVec.and_allOnes, if_neg hreset, if_neg hconfirm, hok, hfw, Bool.not_true, Bool.false_eq_true, if_false]
  rcases hopen with h | h <;> simp [h]

/-- Settles O7: an accepted write is `stored`, and what follows is what the write starts. -/
theorem acceptedWriteTakesEffect : Obligations.AcceptedWriteTakesEffect := by
  intro s page off v d hp ho h8 h40 hc hx hm hh hd hfz hreset hconfirm hpair hok hfw old new
  have h38 : off ≠ 0x38 := by omega
  refine ⟨s.stored page off old new, ?_, s.stored_reg h38, s.stored_gen h38 old new, s.stored_regsKept _ _ _ _, s.stored_eq _ _ _ _⟩
  rw [exec_registerWrite, State.busWrite_regKey s v hp ho h8 hx hm hc hh hd, if_neg (Nat.not_lt.mpr h40),
    State.blockWrite_accepted s _ d v (.inl hfz) hreset hconfirm hok hfw, State.storeReg_stored s hpair]

end Sys2Proof.Machine
end

section
/-! PROOFS. The header of a page: control, soft reset, event flags (O10, O11). -/

namespace Sys2Proof.Machine

/-! ### A write of a header register -/

theorem mapped_of_blockOf {page b i : Nat} (h : blockOf page = some (b, i)) : mapped page = true := by
  unfold mapped
  rw [h]
  rfl

theorem isHpt_iff {page : Nat} : isHpt page = true ↔ 0x100 ≤ page ∧ page ≤ 0x15F := by
  simp [isHpt]

/-- Pages of quiescible blocks are mapped, and none is a counter page. -/
theorem quiesceSup_page {page : Nat} (h : quiesceSup page = true) : mapped page = true ∧ isCounterPage page = false := by
  have hcases : page = 0x8 ∨ page = 0xA ∨ page = 0xB ∨ page = 0xC ∨ page = 0x10 ∨ (0x100 ≤ page ∧ page ≤ 0x15F) := by
    simpa [quiesceSup, isHpt_iff, or_assoc] using h
  rcases hcases with rfl | rfl | rfl | rfl | rfl | ⟨hlo, hhi⟩
  iterate 5 exact ⟨rfl, rfl⟩
  have hblock : blockOf page = some (0x81, page - 0x100) := by
    unfold blockOf
    repeat rw [if_neg (by omega)]
    rw [if_pos ⟨hlo, hhi⟩]
  refine ⟨mapped_of_blockOf hblock, ?_⟩
  simp [isCounterPage]
  omega

theorem quiesceSup_of_isHpt {page : Nat} (h : isHpt page = true) : quiesceSup page = true := by
  simp [quiesceSup, h]

/-- Each of the eight words of the header holds a register on a mapped page (R38). -/
theorem descAt_header {page off : Nat} (hm : mapped page = true) (ho : off < 0x40) (h8 : off % 8 = 0) : ∃ d, descAt page off = some d := by
  have hfound : ∀ o < 0x40, o % 8 = 0 → (headerRegs.find? (fun d => d.covers o)).isSome = true := by decide
  unfold descAt
  rw [if_pos ho, if_pos hm]
  exact Option.isSome_iff_exists.mp (hfound off ho h8)

theorem State.busWrite_header (s : State) {page off : Nat} (v : Word64) (hp : page < 1024) (ho : off < 0x40) (h8 : off % 8 = 0)
    (hm : mapped page = true) (hc : isCounterPage page = false) (hh : s.hidden false page = false) :
    s.busWrite (regKey page off) 8 v = s.headerWrite page off (regKey page off) (BitVec.allOnes 64) v := by
  obtain ⟨d, hd⟩ := descAt_header hm ho h8
  rw [State.busWrite_regKey s v hp (by omega) h8 (inMsix_regKey page (by omega)) hm hc hh hd, if_pos ho]

theorem State.headerWrite_ctrl (s : State) (page addr : Nat) (v : Word64) :
    s.headerWrite page 0x10 addr (BitVec.allOnes 64) v = s.ctrlWrite page addr v v := by
  show s.ctrlWrite page addr (mix (BitVec.allOnes 64) (s.reg (regKey page 0x10)) v) (v &&& BitVec.allOnes 64) = _
  rw [mix_allOnes, BitVec.and_allOnes]

/-- A command that writes PG_CTRL: the steward sees the page, and the value is made of EN and QUIESCE as they stand. -/
theorem State.putCtrl_eq (s : State) {page : Nat} (f : Word64 → Word64) (hp : page < 1024) (hm : mapped page = true) (hc : isCounterPage page = false)
    (hh : s.hidden false page = false) :
    let v := f (s.reg (regKey page 0x10) &&& 0x9)
    s.putCtrl page f = (s.ctrlWrite page (regKey page 0x10) v v).settle := by
  intro v
  unfold State.putCtrl State.put
  rw [State.busWrite_header s v hp (by decide) rfl hm hc hh, State.headerWrite_ctrl]

/-! ### PG_CTRL (R38, R39, R48) -/

theorem headerKey (f : Fld) (page : Nat) (h : f.page = 0) : f.key page = regKey page f.off := by
  unfold Fld.key
  rw [h, Nat.zero_add, Nat.add_zero]

section
variable (s : State) (page : Nat)

theorem State.rd_ctrl_en : (s.rd PG_CTRL_EN page == 1) = bit (s.reg (regKey page 0x10)) 0 := by
  rw [bit_eq_bits, ← headerKey PG_CTRL_EN page rfl]
  rfl

theorem State.rd_ctrl_quiesce : (s.rd PG_CTRL_QUIESCE page == 1) = bit (s.reg (regKey page 0x10)) 3 := by
  rw [bit_eq_bits, ← headerKey PG_CTRL_QUIESCE page rfl]
  rfl

theorem State.wr_ctrl_regsKept (f : Fld) (v : Nat) (hf : f.page = 0) : regsKept s (s.wr f v page) [regKey page f.off] := by
  rw [← headerKey f page hf]
  exact State.wr_regsKept s f v page 0

/-- A write of PG_CTRL that leaves EN and asks for no soft reset: QUIESCE, then LOCK. -/
theorem State.ctrlWrite_same_en {v : Word64} (addr : Nat) (hsup : quiesceSup page = true) (hen : bit v 0 = (s.rd PG_CTRL_EN page == 1)) (hrst : bit v 1 = false) :
    s.ctrlWrite page addr v v =
      let u := if bit v 3 != (s.rd PG_CTRL_QUIESCE page == 1) then s.quiesceTo page (bit v 3) else s
      if bit v 2 then u.wr PG_CTRL_LOCK 1 page else u := by
  unfold State.ctrlWrite
  simp only [hsup, hen, hrst, Bool.and_true, Bool.and_not_self, Bool.true_and, Bool.false_and, Bool.or_false, Bool.and_false, Bool.false_eq_true, if_false,
    bne_self_eq_false]

/-- A write of PG_CTRL that changes EN alone, on an unlocked page; 0 is admitted where the page is quiesced. -/
theorem State.ctrlWrite_other_en {v : Word64} (addr : Nat) (hsup : quiesceSup page = true) (hlock : s.locked page = false)
    (hen : bit v 0 = !(s.rd PG_CTRL_EN page == 1)) (hdone : bit v 0 = true ∨ s.quiesced page = true) (hq : bit v 3 = (s.rd PG_CTRL_QUIESCE page == 1))
    (hrst : bit v 1 = false) (hlk : bit v 2 = false) : s.ctrlWrite page addr v v = s.enTo page (bit v 0) := by
  have hon : (s.rd PG_CTRL_EN page == 1) = !bit v 0 := by rw [hen, Bool.not_not]
  have hrefused : (!bit v 0 && !bit v 0 && !s.quiesced page) = false := by
    rcases hdone with h | h <;> rw [h] <;> simp
  unfold State.ctrlWrite
  simp only [hsup, hlock, hon, hq, hrst, hlk, hrefused, Bool.true_and, Bool.and_true, Bool.not_false, Bool.false_and, Bool.or_false, Bool.false_eq_true, if_false,
    bne_self_eq_false]
  simp

theorem State.ctrlWrite_refused {v : Word64} (addr : Nat) (hsup : quiesceSup page = true) (hlock : s.locked page = false)
    (hen : s.rd PG_CTRL_EN page = 1) (hoff : bit v 0 = false) (hdone : s.quiesced page = false) :
    s.ctrlWrite page addr v v = s.accessErr 5 true addr := by
  unfold State.ctrlWrite
  simp [hsup, hlock, hen, hoff, hdone]

end

/-- What a page must hold no more does not hang on its PG_CTRL. -/
theorem State.drained_wr_quiesce (s : State) (v page p : Nat) : (s.wr PG_CTRL_QUIESCE v page).drained p = s.drained p := by
  have hother (q : Nat) : (s.wr PG_CTRL_QUIESCE v page).quiesced q = s.quiesced q := by
    unfold State.quiesced
    rw [State.rd_wr_other]
    rw [headerKey PG_STAT_QUIESCED q rfl, headerKey PG_CTRL_QUIESCE page rfl]
    show regKey q 0x18 ≠ regKey page 0x10
    unfold regKey
    omega
  have hhearth : (s.wr PG_CTRL_QUIESCE v page).hearthEmpty = s.hearthEmpty := by
    unfold State.hearthEmpty
    simp only [hother]
    rfl
  unfold State.drained
  rw [hhearth]
  rfl

section
variable (s : State) (page : Nat)

/-- QUIESCE is set: the page is QUIESCED at once where nothing is left to drain (R38, R72). -/
theorem State.quiesceTo_on (hsup : quiesceSup page = true) :
    s.quiesceTo page true = if s.drained page then (s.wr PG_CTRL_QUIESCE 1 page).wr PG_STAT_QUIESCED 1 page else s.wr PG_CTRL_QUIESCE 1 page := by
  have hq : (s.wr PG_CTRL_QUIESCE 1 page).quiescing page = true := by
    unfold State.quiescing
    rw [State.rd_wr_same _ _ _ _ _ (by decide) (by decide)]
    rfl
  have hd : (s.wr PG_CTRL_QUIESCE 1 page).drained page = s.drained page := s.drained_wr_quiesce 1 page page
  unfold State.quiesceTo State.quiesceCheck
  simp only [b2n, if_true, hsup, hq, hd, Bool.true_and]

/-- QUIESCE is cleared: an enabled page is QUIESCED no more (R38). -/
theorem State.quiesceTo_off : s.quiesceTo page false =
    if s.rd PG_CTRL_EN page = 1 then (s.wr PG_CTRL_QUIESCE 0 page).wr PG_STAT_QUIESCED 0 page else s.wr PG_CTRL_QUIESCE 0 page := by
  have hen : (s.wr PG_CTRL_QUIESCE 0 page).rd PG_CTRL_EN page = s.rd PG_CTRL_EN page := by
    simp (disch := decide) only [State.rd_wr_apart]
  unfold State.quiesceTo
  simp only [b2n, Bool.false_eq_true, if_false, hen]

/-- PG_CTRL and PG_STAT as EN becomes 1 or 0, before a port's link follows. -/
def State.enSet (s : State) (page : Nat) (en : Bool) : State :=
  if en then
    if s.rd PG_CTRL_QUIESCE page = 1 then s.wr PG_CTRL_EN 1 page else (s.wr PG_CTRL_EN 1 page).wr PG_STAT_QUIESCED 0 page
  else (s.wr PG_CTRL_EN 0 page).wr PG_STAT_QUIESCED 1 page

theorem State.enTo_enSet (en : Bool) : s.enTo page en =
    if isHpt page then (if en then (s.enSet page en).portEnable (page - 0x100) else (s.enSet page en).portDisable (page - 0x100)) else s.enSet page en := by
  have hq : (s.wr PG_CTRL_EN 1 page).rd PG_CTRL_QUIESCE page = s.rd PG_CTRL_QUIESCE page := by
    simp (disch := decide) only [State.rd_wr_apart]
  unfold State.enTo State.enSet
  cases en
  · simp only [b2n, Bool.false_eq_true, if_false]
  · simp only [b2n, if_true, hq]

/-- A change of PG_CTRL and then perhaps of PG_STAT of the page, and of nothing else. -/
structure HeaderOnly (s t : State) (page : Nat) : Prop where
  kept : regsKept s t [regKey page 0x10, regKey page 0x18]
  frame : t = { s with regs := t.regs }

theorem HeaderOnly.refl : HeaderOnly s s page := ⟨regsKept.refl s _, rfl⟩

theorem HeaderOnly.ctrl (f : Fld) (v : Nat) (hf : f.page = 0) (ho : f.off = 0x10 ∨ f.off = 0x18) : HeaderOnly s (s.wr f v page) page := by
  refine ⟨(s.wr_ctrl_regsKept page f v hf).mono ?_, rfl⟩
  rcases ho with h | h <;> simp [h]

theorem HeaderOnly.trans {s t u : State} {page : Nat} (h : HeaderOnly s t page) (k : HeaderOnly t u page) : HeaderOnly s u page :=
  ⟨h.kept.trans k.kept, by rw [k.frame, h.frame]⟩

/-- PG_CTRL and then PG_STAT of a page. -/
theorem HeaderOnly.both (f g : Fld) (v w : Nat) (hf : f.page = 0) (ho : f.off = 0x10) (hg : g.page = 0) (hgo : g.off = 0x18) :
    HeaderOnly s ((s.wr f v page).wr g w page) page :=
  (HeaderOnly.ctrl s page f v hf (.inl ho)).trans (HeaderOnly.ctrl _ page g w hg (.inr hgo))

end

/-! ### The commands on PG_CTRL -/

section
variable {s : State} {page : Nat}

/-- The value a command writes: of EN and QUIESCE as they stand, with bits set or kept under a mask. -/
theorem bit_ctrl_or (w m : Word64) (n : Nat) : bit (w &&& 0x9 ||| m) n = (bit w n && bit 0x9 n || bit m n) := by
  simp [bit]

theorem bit_ctrl_and (w m : Word64) (n : Nat) : bit (w &&& 0x9 &&& m) n = (bit w n && bit 0x9 n && bit m n) := by
  simp [bit]

/-- What a command on PG_CTRL of a page that the steward sees comes to. -/
theorem exec_pgCtrl (hp : page < 1024) (hsup : quiesceSup page = true) (hh : s.hidden false page = false) (f : Word64 → Word64) :
    let v := f (s.reg (regKey page 0x10) &&& 0x9)
    (.next (s.putCtrl page f) : Res) = .next (s.ctrlWrite page (regKey page 0x10) v v).settle :=
  congrArg _ (s.putCtrl_eq f hp (quiesceSup_page hsup).1 (quiesceSup_page hsup).2 hh)

section
variable (hp : page < 1024) (hsup : quiesceSup page = true) (hh : s.hidden false page = false)
include hp hsup hh

theorem exec_pgLock : exec (.pgLock page) s = .next (s.wr PG_CTRL_LOCK 1 page).settle := by
  refine (exec_pgCtrl hp hsup hh _).trans (congrArg (fun t : State => Host.Outcome.next t.settle) ?_)
  rw [State.ctrlWrite_same_en s page _ hsup (by rw [bit_ctrl_or, s.rd_ctrl_en]; simp [bit]) (by rw [bit_ctrl_or]; simp [bit])]
  simp only [bit_ctrl_or, s.rd_ctrl_quiesce]
  simp [bit]

theorem exec_pgQuiesce : exec (.pgQuiesce page) s = .next (if s.rd PG_CTRL_QUIESCE page = 1 then s else s.quiesceTo page true).settle := by
  refine (exec_pgCtrl hp hsup hh _).trans (congrArg (fun t : State => Host.Outcome.next t.settle) ?_)
  rw [State.ctrlWrite_same_en s page _ hsup (by rw [bit_ctrl_or, s.rd_ctrl_en]; simp [bit]) (by rw [bit_ctrl_or]; simp [bit])]
  have h3 : bit (s.reg (regKey page 0x10) &&& 0x9 ||| 0x8) 3 = true := by rw [bit_ctrl_or]; simp [bit]
  have h2 : bit (s.reg (regKey page 0x10) &&& 0x9 ||| 0x8) 2 = false := by rw [bit_ctrl_or]; simp [bit]
  rw [h3, h2]
  by_cases hq : s.rd PG_CTRL_QUIESCE page = 1 <;> simp [hq]

theorem exec_pgResume : exec (.pgResume page) s = .next (if s.rd PG_CTRL_QUIESCE page = 1 then s.quiesceTo page false else s).settle := by
  refine (exec_pgCtrl hp hsup hh _).trans (congrArg (fun t : State => Host.Outcome.next t.settle) ?_)
  rw [State.ctrlWrite_same_en s page _ hsup (by rw [bit_ctrl_and, s.rd_ctrl_en]; simp [bit]) (by rw [bit_ctrl_and]; simp [bit])]
  have h3 : bit (s.reg (regKey page 0x10) &&& 0x9 &&& 0x1) 3 = false := by rw [bit_ctrl_and]; simp [bit]
  have h2 : bit (s.reg (regKey page 0x10) &&& 0x9 &&& 0x1) 2 = false := by rw [bit_ctrl_and]; simp [bit]
  rw [h3, h2]
  by_cases hq : s.rd PG_CTRL_QUIESCE page = 1 <;> simp [hq]

theorem exec_pgEnable (hlock : s.locked page = false) (hen : s.rd PG_CTRL_EN page = 0) : exec (.pgEnable page) s = .next (s.enTo page true).settle := by
  refine (exec_pgCtrl hp hsup hh _).trans (congrArg (fun t : State => Host.Outcome.next t.settle) ?_)
  have h0 : bit (s.reg (regKey page 0x10) &&& 0x9 ||| 0x1) 0 = true := by rw [bit_ctrl_or]; simp [bit]
  rw [State.ctrlWrite_other_en s page _ hsup hlock (by rw [h0, hen]; rfl) (.inl h0) (by rw [bit_ctrl_or, s.rd_ctrl_quiesce]; simp [bit])
    (by rw [bit_ctrl_or]; simp [bit]) (by rw [bit_ctrl_or]; simp [bit]), h0]

theorem exec_pgDisable (hlock : s.locked page = false) (hen : s.rd PG_CTRL_EN page = 1) (hdone : s.quiesced page = true) :
    exec (.pgDisable page) s = .next (s.enTo page false).settle := by
  refine (exec_pgCtrl hp hsup hh _).trans (congrArg (fun t : State => Host.Outcome.next t.settle) ?_)
  have h0 : bit (s.reg (regKey page 0x10) &&& 0x9 &&& 0x8) 0 = false := by rw [bit_ctrl_and]; simp [bit]
  rw [State.ctrlWrite_other_en s page _ hsup hlock (by rw [h0, hen]; rfl) (.inr hdone) (by rw [bit_ctrl_and, s.rd_ctrl_quiesce]; simp [bit])
    (by rw [bit_ctrl_and]; simp [bit]) (by rw [bit_ctrl_and]; simp [bit]), h0]

theorem exec_pgDisable_refused (hlock : s.locked page = false) (hen : s.rd PG_CTRL_EN page = 1) (hdone : s.quiesced page = false) :
    exec (.pgDisable page) s = .next (s.accessErr 5 true (regKey page 0x10)).settle := by
  refine (exec_pgCtrl hp hsup hh _).trans (congrArg (fun t : State => Host.Outcome.next t.settle) ?_)
  exact State.ctrlWrite_refused s page _ hsup hlock hen (by rw [bit_ctrl_and]; simp [bit]) hdone

end

theorem State.quiesced_wr_same (t : State) (v : Nat) : (t.wr PG_STAT_QUIESCED v page).quiesced page = (v % 2 == 1) := by
  unfold State.quiesced
  rw [State.rd_wr_same _ _ _ _ _ (by decide) (by decide)]
  rfl

/-- Of PG_STAT's writes PG_CTRL is left alone. -/
theorem State.rd_ctrl_wr_stat (t : State) (f g : Fld) (v : Nat) (hf : f.page = 0) (hfo : f.off = 0x18) (hg : g.page = 0) (hgo : g.off = 0x10) :
    (t.wr f v page).rd g page = t.rd g page := by
  refine State.rd_wr_other _ _ _ _ _ _ _ _ ?_
  rw [headerKey f page hf, headerKey g page hg, hfo, hgo]
  exact regKey_ne page (by decide)

/-- PG_SOFT_RST on a quiesced, unlocked port (R39, R137): the reset runs from here on. -/
theorem exec_pgSoftRst (hport : isHpt page = true) (hh : s.hidden false page = false) (hlock : s.locked page = false) (hdone : s.quiesced page = true) :
    exec (.pgSoftRst page) s = .next (s.softReset (page - 0x100)).settle := by
  have hsup := quiesceSup_of_isHpt hport
  have hp : page < 1024 := by have := isHpt_iff.mp hport; omega
  refine (exec_pgCtrl hp hsup hh _).trans (congrArg (fun t : State => Host.Outcome.next t.settle) ?_)
  have h0 : bit (s.reg (regKey page 0x10) &&& 0x9 ||| 0x2) 0 = (s.rd PG_CTRL_EN page == 1) := by rw [bit_ctrl_or, s.rd_ctrl_en]; simp [bit]
  have h1 : bit (s.reg (regKey page 0x10) &&& 0x9 ||| 0x2) 1 = true := by rw [bit_ctrl_or]; simp [bit]
  have h2 : bit (s.reg (regKey page 0x10) &&& 0x9 ||| 0x2) 2 = false := by rw [bit_ctrl_or]; simp [bit]
  have h3 : bit (s.reg (regKey page 0x10) &&& 0x9 ||| 0x2) 3 = (s.rd PG_CTRL_QUIESCE page == 1) := by rw [bit_ctrl_or, s.rd_ctrl_quiesce]; simp [bit]
  unfold State.ctrlWrite
  simp only [hsup, hlock, h0, h1, h2, h3, softRstSup, hport, hdone]
  simp

end

theorem State.softReset_reads (s : State) {page : Nat} (hport : isHpt page = true) :
    (s.softReset (page - 0x100)).rd PG_CTRL_SOFT_RST page = 1 ∧ (s.softReset (page - 0x100)).rd PG_STAT_BUSY page = 1 := by
  have hpage : 0x100 + (page - 0x100) = page := by have := isHpt_iff.mp hport; omega
  unfold State.softReset
  dsimp only
  rw [hpage]
  refine ⟨?_, ?_⟩
  · rw [State.rd_ctrl_wr_stat _ _ _ _ rfl rfl rfl rfl, State.rd_wr_same _ _ _ _ _ (by decide) (by decide)]
    rfl
  · rw [State.rd_wr_same _ _ _ _ _ (by decide) (by decide)]
    rfl

/-- SOFT_RST_DONE (R39). -/
theorem State.softRstDone_of_running {s : State} {page : Nat} (h : s.rd PG_CTRL_SOFT_RST page = 1) :
    s.softRstDone page = ((s.wr PG_CTRL_SOFT_RST 0 page).wr PG_STAT_BUSY 0 page).bumpGen page := by
  unfold State.softRstDone
  rw [if_pos h]

theorem State.softRstDone_reads {s : State} {page : Nat} (h : s.rd PG_CTRL_SOFT_RST page = 1) :
    let t := s.softRstDone page
    t.rd PG_CTRL_SOFT_RST page = 0 ∧ t.rd PG_STAT_BUSY page = 0 ∧ t.rd PG_GEN_GEN page = (s.rd PG_GEN_GEN page + 1) % 2 ^ 32
      ∧ regsKept s t [regKey page 0x10, regKey page 0x18, regKey page 0x38] ∧ t = { s with regs := t.regs } := by
  rw [State.softRstDone_of_running h]
  intro t
  have hgen : regsKept _ t [regKey page 0x38] := State.bumpGen_regsKept _ page
  have hhead := HeaderOnly.both s page PG_CTRL_SOFT_RST PG_STAT_BUSY 0 0 rfl rfl rfl rfl
  refine ⟨?_, ?_, ?_, (hhead.kept.mono (by simp)).trans (hgen.mono (by simp)), rfl⟩
  · rw [hgen.rd (by simpa [headerKey] using regKey_ne page (by decide)), State.rd_ctrl_wr_stat _ _ _ _ rfl rfl rfl rfl,
      State.rd_wr_same _ _ _ _ _ (by decide) (by decide)]
    rfl
  · rw [hgen.rd (by simpa [headerKey] using regKey_ne page (by decide)), State.rd_wr_same _ _ _ _ _ (by decide) (by decide)]
    rfl
  · unfold t
    rw [State.rd_bumpGen, hhead.kept.rd (by simpa [headerKey] using ⟨regKey_ne page (by decide), regKey_ne page (by decide)⟩)]

theorem State.quiesceCheck_of_drained {s : State} {page : Nat} (hsup : quiesceSup page = true) (hq : s.quiescing page = true) (hd : s.drained page = true) :
    s.quiesceCheck page = s.wr PG_STAT_QUIESCED 1 page := by
  unfold State.quiesceCheck
  simp [hsup, hq, hd]

/-- The commands on PG_CTRL of the page of a quiescible block. -/
theorem pageControl_of_quiescible (s : State) {page : Nat} (hp : page < 1024) (hsup : quiesceSup page = true) (hh : s.hidden false page = false) :
    (∃ t : State, exec (.pgLock page) s = .next t.settle ∧ t.rd PG_CTRL_LOCK page = 1 ∧ regsKept s t [regKey page 0x10]
      ∧ t.rd PG_CTRL_EN page = s.rd PG_CTRL_EN page ∧ t.rd PG_CTRL_QUIESCE page = s.rd PG_CTRL_QUIESCE page ∧ t = { s with regs := t.regs })
    ∧ (∃ t : State, exec (.pgQuiesce page) s = .next t.settle ∧ t.rd PG_CTRL_QUIESCE page = 1
      ∧ (s.rd PG_CTRL_QUIESCE page = 0 → s.drained page = true → t.quiesced page = true) ∧ HeaderOnly s t page)
    ∧ (∃ t : State, exec (.pgResume page) s = .next t.settle ∧ t.rd PG_CTRL_QUIESCE page = 0
      ∧ (s.rd PG_CTRL_QUIESCE page = 1 → s.rd PG_CTRL_EN page = 1 → t.quiesced page = false) ∧ HeaderOnly s t page) := by
  have hquiesce : s.rd PG_CTRL_QUIESCE page < 2 := s.rd_lt PG_CTRL_QUIESCE page 0
  refine ⟨⟨_, exec_pgLock hp hsup hh, ?_, State.wr_ctrl_regsKept s page PG_CTRL_LOCK 1 rfl, ?_, ?_, rfl⟩, ⟨_, exec_pgQuiesce hp hsup hh, ?_⟩,
    ⟨_, exec_pgResume hp hsup hh, ?_⟩⟩
  · rw [State.rd_wr_same _ _ _ _ _ (by decide) (by decide)]
    rfl
  · simp (disch := decide) only [State.rd_wr_apart]
  · simp (disch := decide) only [State.rd_wr_apart]
  · have hone (t : State) : (t.wr PG_CTRL_QUIESCE 1 page).rd PG_CTRL_QUIESCE page = 1 := State.rd_wr_same _ _ _ _ _ (by decide) (by decide)
    by_cases hq : s.rd PG_CTRL_QUIESCE page = 1
    · rw [if_pos hq]
      exact ⟨hq, fun h => absurd (hq.symm.trans h) (by decide), HeaderOnly.refl s page⟩
    · rw [if_neg hq, State.quiesceTo_on s page hsup]
      split
      · refine ⟨?_, fun _ _ => State.quiesced_wr_same _ 1, HeaderOnly.both s page _ _ _ _ rfl rfl rfl rfl⟩
        rw [State.rd_ctrl_wr_stat _ _ _ _ rfl rfl rfl rfl, hone]
      · next hd => exact ⟨hone s, fun _ h => absurd h hd, HeaderOnly.ctrl s page _ _ rfl (.inl rfl)⟩
  · have hzero (t : State) : (t.wr PG_CTRL_QUIESCE 0 page).rd PG_CTRL_QUIESCE page = 0 := State.rd_wr_same _ _ _ _ _ (by decide) (by decide)
    by_cases hq : s.rd PG_CTRL_QUIESCE page = 1
    · rw [if_pos hq, State.quiesceTo_off s page]
      split
      · refine ⟨?_, fun _ _ => State.quiesced_wr_same _ 0, HeaderOnly.both s page _ _ _ _ rfl rfl rfl rfl⟩
        rw [State.rd_ctrl_wr_stat _ _ _ _ rfl rfl rfl rfl, hzero]
      · next hen => exact ⟨hzero s, fun _ h => absurd h hen, HeaderOnly.ctrl s page _ _ rfl (.inl rfl)⟩
    · rw [if_neg hq]
      exact ⟨by omega, fun h => absurd h hq, HeaderOnly.refl s page⟩

/-- EN becomes 1; the page is QUIESCED no more unless it quiesces still. -/
theorem State.enSet_on (s : State) (page : Nat) :
    (s.enSet page true).rd PG_CTRL_EN page = 1 ∧ (s.rd PG_CTRL_QUIESCE page = 0 → (s.enSet page true).quiesced page = false) ∧ HeaderOnly s (s.enSet page true) page := by
  have hone : (s.wr PG_CTRL_EN 1 page).rd PG_CTRL_EN page = 1 := State.rd_wr_same _ _ _ _ _ (by decide) (by decide)
  unfold State.enSet
  rw [if_pos rfl]
  split
  · next hq => exact ⟨hone, fun h => absurd (hq.symm.trans h) (by decide), HeaderOnly.ctrl s page _ _ rfl (.inl rfl)⟩
  · refine ⟨?_, fun _ => State.quiesced_wr_same _ 0, HeaderOnly.both s page _ _ _ _ rfl rfl rfl rfl⟩
    rw [State.rd_ctrl_wr_stat _ _ _ _ rfl rfl rfl rfl, hone]

/-- EN becomes 0, and the page is QUIESCED. -/
theorem State.enSet_off (s : State) (page : Nat) :
    (s.enSet page false).rd PG_CTRL_EN page = 0 ∧ (s.enSet page false).quiesced page = true ∧ HeaderOnly s (s.enSet page false) page := by
  have hzero : (s.wr PG_CTRL_EN 0 page).rd PG_CTRL_EN page = 0 := State.rd_wr_same _ _ _ _ _ (by decide) (by decide)
  refine ⟨?_, State.quiesced_wr_same _ 1, HeaderOnly.both s page _ _ _ _ rfl rfl rfl rfl⟩
  exact (State.rd_ctrl_wr_stat _ _ _ _ rfl rfl rfl rfl).trans hzero

/-- Settles O10, command by command. -/
theorem pageControl : Obligations.PageControl := by
  refine ⟨fun s page hp hsup hh => ?_, fun s page => ⟨fun hport hh hlock hdone => ?_, fun hrst => ?_, fun hsup hq hd => ?_⟩⟩
  · obtain ⟨hlk, ⟨tq, htq, hq1, hq2, hqonly⟩, ⟨tr, htr, hr1, hr2, hronly⟩⟩ := pageControl_of_quiescible s hp hsup hh
    refine ⟨hlk, ⟨tq, htq, hq1, hq2, hqonly.kept, hqonly.frame⟩, ⟨tr, htr, hr1, hr2, hronly.kept, hronly.frame⟩, fun hlock hen => ?_, fun hlock hen hdone => ?_,
      fun hlock hen hdone => exec_pgDisable_refused hp hsup hh hlock hen hdone⟩
    · obtain ⟨hone, hq, honly⟩ := s.enSet_on page
      refine ⟨s.enSet page true, ?_, hone, hq, honly.kept, honly.frame⟩
      rw [exec_pgEnable hp hsup hh hlock hen, State.enTo_enSet, if_pos rfl]
    · obtain ⟨hzero, hq, honly⟩ := s.enSet_off page
      refine ⟨s.enSet page false, ?_, hzero, hq, honly.kept, honly.frame⟩
      rw [exec_pgDisable hp hsup hh hlock hen hdone, State.enTo_enSet, if_neg Bool.false_ne_true]
  · exact ⟨_, exec_pgSoftRst hport hh hlock hdone, s.softReset_reads hport⟩
  · exact ⟨_, rfl, State.softRstDone_reads hrst⟩
  · have hdone : exec (.quiesceDone page) s = .next (s.wr PG_STAT_QUIESCED 1 page) :=
      congrArg (fun t : State => Host.Outcome.next t) (State.quiesceCheck_of_drained hsup hq hd)
    refine ⟨_, hdone, State.quiesced_wr_same _ 1, State.wr_ctrl_regsKept s page PG_STAT_QUIESCED 1 rfl, ?_, rfl⟩
    simp (disch := decide) only [State.rd_wr_apart]

/-! ### Event flags (R38, R40) -/

theorem State.irqAfterWrite_silent {s : State} {page : Nat} (h : s.irqCond page = false) : s.irqAfterWrite page = s := by
  unfold State.irqAfterWrite
  rw [h]
  rfl

theorem State.irqAfterWrite_regsKept (s : State) (page : Nat) : regsKept s (s.irqAfterWrite page) [] := regsKept.of_regs (by simp) _

/-- Looking after PG_STAT.FAULT changes the register file alone. -/
theorem State.faultCheck_eq (s : State) (page : Nat) : s.faultCheck page = { s with regs := (s.faultCheck page).regs } := by
  unfold State.faultCheck
  dsimp only
  split <;> rfl

theorem State.faultCheck_evInbox (s : State) (page : Nat) : (s.faultCheck page).evInbox = s.evInbox :=
  (congrArg State.evInbox (s.faultCheck_eq page)).trans rfl

theorem State.faultCheck_regsKept (s : State) (page : Nat) : regsKept s (s.faultCheck page) [regKey page 0x18] := by
  unfold State.faultCheck
  dsimp only
  split
  · exact regsKept.refl s _
  · exact State.wr_ctrl_regsKept s page PG_STAT_FAULT 0 rfl

/-- PG_STAT.FAULT clears once no FAULT or FATAL flag stands (R38). -/
theorem State.faultCheck_clear {s : State} {page : Nat} (h : ∀ e ∈ pageEvents page, 2 ≤ e.2 → bit (s.reg (regKey page 0x20)) e.1 = false) :
    (s.faultCheck page).rd PG_STAT_FAULT page = 0 := by
  have hnone : (pageEvents page).any (fun e => decide (2 ≤ e.2) && bit (s.reg (regKey page 0x20)) e.1) = false := by
    rw [List.any_eq_false]
    intro e he
    by_cases hsev : 2 ≤ e.2 <;> simp [hsev, h e he]
  unfold State.faultCheck
  dsimp only
  rw [if_neg (by rw [hnone]; decide), State.rd_wr_same _ _ _ _ _ (by decide) (by decide)]
  rfl

section
variable (s : State) {page : Nat} (mask : Word64) (hp : page < 1024) (hm : mapped page = true) (hc : isCounterPage page = false)
  (hh : s.hidden false page = false)
include hp hm hc hh

/-- PG_EVT_CLEAR: the flags, PG_STAT.FAULT, and the message of a condition that stays. -/
theorem exec_pgEvtClear : exec (.pgEvtClear page mask) s =
    .next ((((s.setReg (regKey page 0x20) (s.reg (regKey page 0x20) &&& ~~~mask)).faultCheck page).irqAfterWrite page).settle) := by
  refine congrArg (fun t : State => Host.Outcome.next t.settle) ((s.busWrite_header mask hp (by decide) rfl hm hc hh).trans ?_)
  show ((s.setReg (regKey page 0x20) (s.reg (regKey page 0x20) &&& ~~~(mask &&& BitVec.allOnes 64))).faultCheck page).irqAfterWrite page = _
  rw [BitVec.and_allOnes]

/-- PG_EVT_EN_WRITE: the enables of defined events, and the message of a condition that stands. -/
theorem exec_pgEvtEnWrite : exec (.pgEvtEnWrite page mask) s = .next (((s.setReg (regKey page 0x28) (mask &&& evtMask page)).irqAfterWrite page).settle) := by
  refine congrArg (fun t : State => Host.Outcome.next t.settle) ((s.busWrite_header mask hp (by decide) rfl hm hc hh).trans ?_)
  show (s.setReg (regKey page 0x28) (mix (BitVec.allOnes 64) (s.reg (regKey page 0x28)) mask &&& evtMask page)).irqAfterWrite page = _
  rw [mix_allOnes]

theorem exec_pgEvtSet : exec (.pgEvtSet page mask) s = .next (s.evtSet page mask).settle := by
  refine congrArg (fun t : State => Host.Outcome.next t.settle) ((s.busWrite_header mask hp (by decide) rfl hm hc hh).trans ?_)
  show s.evtSet page (mask &&& BitVec.allOnes 64) = _
  rw [BitVec.and_allOnes]

end

/-! ### Test events -/

/-- Events are numbered below 64 (R14, R40). -/
theorem eventsOf_lt (b : Nat) : ∀ e ∈ eventsOf b, e.1 < 64 := by
  unfold eventsOf
  split <;> decide

/-- An event that a page defines has a number below 64 and a severity; its page has a block. -/
theorem pageEvents_defined {page : Nat} {e : Nat × Nat} (h : e ∈ pageEvents page) :
    e.1 < 64 ∧ (∃ sev, evSeverity page e.1 = some sev) ∧ ∃ b i, blockOf page = some (b, i) := by
  have hsev : ∃ sev, evSeverity page e.1 = some sev := by
    have hfound : ((pageEvents page).find? (fun x => x.1 == e.1)).isSome = true := List.find?_isSome.mpr ⟨e, h, by simp⟩
    obtain ⟨x, hx⟩ := Option.isSome_iff_exists.mp hfound
    exact ⟨x.2, by unfold evSeverity; rw [hx]; rfl⟩
  refine ⟨?_, hsev, ?_⟩ <;> unfold pageEvents at h <;> rcases hb : blockOf page with _ | ⟨b, i⟩ <;> simp only [hb] at h
  · simp at h
  · split at h
    · simp at h
    · exact eventsOf_lt b e h
  · simp at h
  · exact ⟨b, i, rfl⟩

/-- From `s` to `t` the events of `l` whose bit stands in the mask were set as tests: their flags stand, each has its entry for the recorder, and
no register but PG_EVT changed. -/
structure TestsSet (s t : State) (page : Nat) (mask : Word64) (l : List (Nat × Nat)) : Prop where
  flags : ∀ e ∈ l, bit mask e.1 = true → t.flagged page e.1 = true
  stands : ∀ n, s.flagged page n = true → t.flagged page n = true
  entries : t.evInbox.map (fun e => (e.code % 0x100, e.test))
    = s.evInbox.map (fun e => (e.code % 0x100, e.test)) ++ (l.filter (fun e => bit mask e.1)).map (fun e => (e.1, true))
  kept : regsKept s t [regKey page 0x20]

theorem State.reg_flags_setFlags (s : State) (page : Nat) (m : Word64) : (s.setFlags page m).reg (regKey page 0x20) = s.reg (regKey page 0x20) ||| m := by
  rw [State.reg_setFlags, if_pos rfl]

theorem State.setFlags_regsKept (s : State) (page : Nat) (m : Word64) : regsKept s (s.setFlags page m) [regKey page 0x20] := by
  intro j hj
  rw [State.reg_setFlags, if_neg (by simpa using hj)]

/-- An event set as a test: PG_STAT is left alone (R38). -/
theorem State.raiseWith_test (s : State) {page n sev b i : Nat} (a : Word64) (hsev : evSeverity page n = some sev) (hb : blockOf page = some (b, i)) :
    s.raiseWith page n true a = { s.setFlags page (1#64 <<< n) with
      evInbox := s.evInbox ++ [⟨s.tb, b * 0x100 + n, if page < 0x40 then 0 else i, sev, true, a⟩] } := by
  unfold State.raiseWith State.tb
  simp [hsev, hb]

theorem TestsSet.cons {s u t : State} {page : Nat} {mask : Word64} {e : Nat × Nat} {l : List (Nat × Nat)} (he : e ∈ pageEvents page) (a : Word64)
    (hu : u = if bit mask e.1 then s.raiseWith page e.1 true a else s) (h : TestsSet u t page mask l) : TestsSet s t page mask (e :: l) := by
  obtain ⟨hlt, ⟨sev, hsev⟩, b, i, hb⟩ := pageEvents_defined he
  by_cases hbit : bit mask e.1 = true
  · rw [if_pos hbit, s.raiseWith_test a hsev hb] at hu
    have hflags : u.reg (regKey page 0x20) = s.reg (regKey page 0x20) ||| (1#64 <<< e.1) := by
      rw [hu]
      exact s.reg_flags_setFlags page _
    have hcode : (b * 0x100 + e.1) % 0x100 = e.1 := by omega
    refine ⟨List.forall_mem_cons.mpr ⟨fun _ => h.stands _ ?_, h.flags⟩, fun n hn => h.stands n ?_, ?_, regsKept.trans ?_ h.kept⟩
    · unfold State.flagged
      rw [hflags]
      exact bit_or_shift _ _ hlt
    · unfold State.flagged bit at hn ⊢
      rw [hflags, BitVec.getLsbD_or, hn, Bool.true_or]
    · rw [h.entries, hu]
      simp [hbit, hcode]
    · rw [hu]
      exact s.setFlags_regsKept page _
  · rw [if_neg hbit] at hu
    subst hu
    refine ⟨List.forall_mem_cons.mpr ⟨fun hyes => absurd hyes hbit, h.flags⟩, h.stands, ?_, h.kept⟩
    rw [h.entries, List.filter_cons_of_neg (by simpa using hbit)]

/-- Defined events, set one after another. -/
theorem TestsSet.foldl (s : State) {page : Nat} (mask : Word64) {l : List (Nat × Nat)} (hsub : l ⊆ pageEvents page) :
    TestsSet s (l.foldl (fun (s : State) e => if bit mask e.1 then s.raiseWith page e.1 true (s.defaultArg page) else s) s) page mask l := by
  induction l generalizing s with
  | nil => exact ⟨by simp, fun _ h => h, by simp, regsKept.refl s _⟩
  | cons e l ih =>
    obtain ⟨he, hrest⟩ := List.cons_subset.mp hsub
    exact TestsSet.cons he (s.defaultArg page) rfl (ih _ hrest)

theorem State.evtSet_testsSet (s : State) (page : Nat) (mask : Word64) : TestsSet s (s.evtSet page mask) page mask (pageEvents page) :=
  TestsSet.foldl s mask (List.Subset.refl _)

/-- Settles O11, command by command. -/
theorem pageEventRegisters : Obligations.PageEventRegisters := by
  intro s page mask hp hm hc hh
  refine ⟨⟨_, exec_pgEvtClear s mask hp hm hc hh, ?_, fun hnone => ?_, ?_, ?_⟩, ⟨_, exec_pgEvtEnWrite s mask hp hm hc hh, ?_, fun hcond => ?_, ?_, ?_⟩,
    ⟨_, exec_pgEvtSet s mask hp hm hc hh, ?_⟩⟩
  · rw [State.irqAfterWrite_regsKept _ page _ (by simp), State.faultCheck_regsKept _ page _ (by simpa using regKey_ne page (by decide)), State.reg_setReg_same]
  · rw [(State.irqAfterWrite_regsKept _ page).rd (by simp)]
    exact State.faultCheck_clear (by simpa using hnone)
  · exact (((s.setReg_regsKept _ _).mono (by simp [evRegs])).trans ((State.faultCheck_regsKept _ page).mono (by simp [evRegs]))).trans
      ((State.irqAfterWrite_regsKept _ page).mono (List.nil_subset _))
  · rw [State.irqAfterWrite_evInbox, State.faultCheck_evInbox, State.setReg_evInbox]
  · rw [State.irqAfterWrite_regsKept _ page _ (by simp), State.reg_setReg_same]
  · have hsilent : ∀ u : State, (u.irqAfterWrite page).irqCond page = u.irqCond page := by
      intro u
      unfold State.irqCond
      rw [State.irqAfterWrite_regsKept u page _ (by simp), State.irqAfterWrite_regsKept u page _ (by simp)]
    rw [hsilent] at hcond
    rw [State.irqAfterWrite_silent hcond]
    exact ⟨State.setReg_out .., State.setReg_msixPend ..⟩
  · exact (s.setReg_regsKept _ _).trans ((State.irqAfterWrite_regsKept _ page).mono (List.nil_subset _))
  · rw [State.irqAfterWrite_evInbox, State.setReg_evInbox]
  · obtain ⟨hflags, -, hentries, hkept⟩ := s.evtSet_testsSet page mask
    exact ⟨hflags, hentries, hkept⟩

end Sys2Proof.Machine
end

section
/-! PROOFS. Interrupts: the condition of a page, its messages and their vectors, masked vectors (O15, O23). -/

namespace Sys2Proof.Machine

/-! ### One bit of a word set or cleared -/

theorem getLsbD_one_shift {v : Nat} (hv : v < 64) (u : Nat) : (1#64 <<< v).getLsbD u = decide (u = v) := by
  rw [BitVec.getLsbD_shiftLeft, BitVec.getLsbD_one]
  by_cases h : u = v
  · subst h
    simp [hv]
  · simp only [h, decide_false, Bool.and_eq_false_iff, decide_eq_false_iff_not, Bool.not_eq_false', decide_eq_true_eq]
    omega

theorem getLsbD_set (w : Word64) {v : Nat} (hv : v < 64) (u : Nat) : (w ||| (1#64 <<< v)).getLsbD u = (w.getLsbD u || decide (u = v)) := by
  rw [BitVec.getLsbD_or, getLsbD_one_shift hv]

theorem getLsbD_clear (w : Word64) {v : Nat} (hv : v < 64) (u : Nat) : (w &&& ~~~(1#64 <<< v)).getLsbD u = (w.getLsbD u && !decide (u = v)) := by
  rw [BitVec.getLsbD_and, BitVec.getLsbD_not, getLsbD_one_shift hv]
  by_cases hu : u < 64
  · simp [hu]
  · simp [hu, BitVec.getLsbD_of_ge w u (by omega)]

/-! ### Messages (R53) -/

theorem State.msix_sent {s : State} {v : Nat} (hmask : s.msixMask.getLsbD v = false) (hup : s.pcieUp = true) : s.msix v = s.emit (.msix v) := by
  unfold State.msix
  rw [hmask, hup]
  rfl

theorem State.msix_waits {s : State} {v : Nat} (hmask : s.msixMask.getLsbD v = true) : s.msix v = { s with msixPend := s.msixPend ||| (1#64 <<< v) } := by
  unfold State.msix
  rw [hmask]
  rfl

/-- Block IDs fit a byte, so IRQ_ROUTE has an entry for each. -/
theorem blockOf_lt {page b i : Nat} (hb : blockOf page = some (b, i)) : b < 0x100 := by
  have hall : b ≤ 0x12 ∨ b = 0x40 ∨ b = 0x80 ∨ b = 0x81 := by
    unfold blockOf at hb
    split_ifs at hb <;> simp only [Option.some.injEq, Prod.mk.injEq] at hb <;> omega
  omega

/-- The registers of the page headers do not lie in IRQ_ROUTE: no change of them moves a vector. -/
theorem State.pageVector_kept {s t : State} {page : Nat} (q : Nat) {offs : List Nat} (hoffs : ∀ o ∈ offs, o < 0x40) (h : regsKept s t (offs.map (regKey page))) :
    t.pageVector q = s.pageVector q := by
  unfold State.pageVector
  split
  · next b i hb =>
    have hlt := blockOf_lt hb
    have haway (f : Fld) (hf : f.page = 0) (ho : f.off = 0x1000) : f.key 0 (8 * b) ∉ offs.map (regKey page) := by
      simp only [List.mem_map, not_exists, not_and]
      intro o hmem heq
      have := hoffs o hmem
      unfold Fld.key regKey at heq
      rw [hf, ho] at heq
      omega
    rw [h.rd (haway _ rfl rfl), h.rd (haway _ rfl rfl)]
  · rfl

theorem State.irqCond_iff (s : State) (page : Nat) : s.irqCond page = true ↔ s.reg (regKey page 0x20) &&& s.reg (regKey page 0x28) ≠ 0 := by
  unfold State.irqCond
  exact bne_iff_ne

/-- The condition after flags are set. -/
theorem State.irqCond_flags (s : State) (page : Nat) (w : Word64) :
    (s.setReg (regKey page 0x20) w).irqCond page = true ↔ w &&& s.reg (regKey page 0x28) ≠ 0 := by
  rw [State.irqCond_iff, State.reg_setReg_same, State.reg_setReg_other _ _ (regKey_ne page (by decide))]

section
variable {s : State} {page : Nat} (mask : Word64)

/-- The condition rises: the page's message is due (R53). -/
theorem State.setFlags_rise (hwas : s.irqCond page = false) (hafter : (s.reg (regKey page 0x20) ||| mask) &&& s.reg (regKey page 0x28) ≠ 0) :
    s.setFlags page mask = (s.setReg (regKey page 0x20) (s.reg (regKey page 0x20) ||| mask)).msix (s.pageVector page) := by
  have hnow := (s.irqCond_flags page (s.reg (regKey page 0x20) ||| mask)).mpr hafter
  unfold State.setFlags
  simp only [hwas, hnow, Bool.not_false, Bool.and_self, if_true]

/-- The condition stands already, or does not rise: no message (R53). -/
theorem State.setFlags_silent (h : s.irqCond page = true ∨ (s.reg (regKey page 0x20) ||| mask) &&& s.reg (regKey page 0x28) = 0) :
    s.setFlags page mask = s.setReg (regKey page 0x20) (s.reg (regKey page 0x20) ||| mask) := by
  have hno : (!s.irqCond page && (s.setReg (regKey page 0x20) (s.reg (regKey page 0x20) ||| mask)).irqCond page) = false := by
    rcases h with hwas | hafter
    · rw [hwas]
      rfl
    · rw [Bool.eq_false_iff.mpr (fun hnow => (s.irqCond_flags page _).mp hnow hafter), Bool.and_false]
  unfold State.setFlags
  simp only [hno, Bool.false_eq_true, if_false]

end

/-- A steward write leaves the condition at 1, and the vector is not masked: one message leaves (R53). -/
theorem State.irqAfterWrite_sends {s : State} {page : Nat} (hcond : s.irqCond page = true) (hmask : s.msixMask.getLsbD (s.pageVector page) = false)
    (hup : s.pcieUp = true) : (s.irqAfterWrite page).out = .msix (s.pageVector page) :: s.out := by
  unfold State.irqAfterWrite
  rw [if_pos hcond, State.msix_sent hmask hup]
  rfl

/-- The message of a header write that leaves the condition at 1. -/
theorem State.message_after_write {s t : State} {page v : Nat} {offs : List Nat} (hoffs : ∀ o ∈ offs, o < 0x40) (hkept : regsKept s t (offs.map (regKey page)))
    (hframe : t = { s with regs := t.regs }) (hcond : t.irqCond page = true) (hv : s.pageVector page = v) (hmask : s.msixMask.getLsbD v = false)
    (hup : s.pcieUp = true) : (t.irqAfterWrite page).out = .msix v :: s.out := by
  have hvec : t.pageVector page = v := (State.pageVector_kept page hoffs hkept).trans hv
  have hsent := State.irqAfterWrite_sends hcond (by rw [hvec, hframe]; exact hmask) (by rw [hframe]; exact hup)
  rw [hsent, hvec, hframe]

/-! ### Masked vectors (R52, R53) -/

/-- The message of vector `v` leaves where it waits and nothing holds it. -/
def State.msixSend (s : State) (v : Nat) : State :=
  if s.msixPend.getLsbD v && !s.msixMask.getLsbD v && s.pcieUp then { s with msixPend := s.msixPend &&& ~~~(1#64 <<< v), out := .msix v :: s.out } else s

theorem State.msixFlush_eq (s : State) : s.msixFlush = (List.range 64).foldl State.msixSend s := rfl

/-- The vectors below `n` have had their turn: of each that could send the message left; of the others the pending bit stands. -/
structure FlushedTo (s t : State) (n : Nat) : Prop where
  frame : t = { s with msixPend := t.msixPend, out := t.out }
  sent : ∀ v < n, s.msixPend.getLsbD v = true → s.msixMask.getLsbD v = false → s.pcieUp = true → t.msixPend.getLsbD v = false ∧ Out.msix v ∈ t.out
  waits : ∀ v, n ≤ v → t.msixPend.getLsbD v = s.msixPend.getLsbD v

theorem FlushedTo.mask {s t : State} {n : Nat} (h : FlushedTo s t n) : t.msixMask = s.msixMask := (congrArg State.msixMask h.frame).trans rfl

theorem FlushedTo.up {s t : State} {n : Nat} (h : FlushedTo s t n) : t.pcieUp = s.pcieUp := (congrArg State.pcieUp h.frame).trans rfl

theorem FlushedTo.next {s t : State} {n : Nat} (hn : n < 64) (h : FlushedTo s t n) : FlushedTo s (t.msixSend n) (n + 1) := by
  unfold State.msixSend
  split
  · refine ⟨by rw [h.frame], fun v hv hpend hmask hup => ?_, fun v hv => ?_⟩
    · show (t.msixPend &&& ~~~(1#64 <<< n)).getLsbD v = false ∧ Out.msix v ∈ Out.msix n :: t.out
      rw [getLsbD_clear _ hn]
      rcases Nat.lt_succ_iff_lt_or_eq.mp hv with hlt | rfl
      · obtain ⟨hclear, hout⟩ := h.sent v hlt hpend hmask hup
        exact ⟨by rw [hclear, Bool.false_and], List.mem_cons_of_mem _ hout⟩
      · exact ⟨by simp, List.mem_cons_self ..⟩
    · show (t.msixPend &&& ~~~(1#64 <<< n)).getLsbD v = _
      rw [getLsbD_clear _ hn, h.waits v (by omega), decide_eq_false (by omega), Bool.not_false, Bool.and_true]
  · next hno =>
    refine ⟨h.frame, fun v hv hpend hmask hup => ?_, fun v hv => h.waits v (by omega)⟩
    rcases Nat.lt_succ_iff_lt_or_eq.mp hv with hlt | rfl
    · exact h.sent v hlt hpend hmask hup
    · exact absurd (by rw [h.waits v (Nat.le_refl v), h.mask, h.up, hpend, hmask, hup]; rfl) hno

theorem State.flushedTo (s : State) {n : Nat} (hn : n ≤ 64) : FlushedTo s ((List.range n).foldl State.msixSend s) n := by
  induction n with
  | zero => exact ⟨rfl, fun v hv => absurd hv (Nat.not_lt_zero v), fun _ _ => rfl⟩
  | succ n ih =>
    rw [List.range_succ, List.foldl_append]
    exact (ih (by omega)).next hn

theorem State.msixFlush_flushed (s : State) : FlushedTo s s.msixFlush 64 := by
  rw [s.msixFlush_eq]
  exact s.flushedTo (Nat.le_refl 64)

/-- The state in which the mask bit of a vector has been written 0. -/
def State.unmasked (s : State) (v : Nat) (tab : NMap Word64) : State := { s with msixTab := tab, msixMask := s.msixMask &&& ~~~(1#64 <<< v) }

/-- MSIX_UNMASK writes the upper half of a table entry's second word with 0: the mask bit among it (R52). -/
theorem exec_msixUnmask (s : State) {v : Nat} (hv : v < 64) : ∃ tab, exec (.msixUnmask v) s = .next (s.unmasked v tab).msixFlush := by
  have haddr : 0x8000 + 16 * (v % 64) + 12 = 0x8000 + 16 * v + 12 := by omega
  let addr := 0x8000 + 16 * v + 12
  have hoff : offOf addr = 0x8000 + 8 * (2 * v + 1) := by unfold offOf; omega
  have hhalf : addr % 8 = 4 := by omega
  have hwidth : widthOk addr 4 = true := by
    have : addr % 4 = 0 := by omega
    simp [widthOk, this]
  have hpage : mapped (pageOf addr) = true := by
    have : pageOf addr = 0 := by unfold pageOf; omega
    rw [this]
    rfl
  have hin : inMsix addr = true := by
    unfold inMsix
    simp only [Bool.or_eq_true, decide_eq_true_eq]
    omega
  have hwrite : s.busWrite addr 4 0 = s.msixWrite (0x8000 + 8 * (2 * v + 1)) (halfMask 4 addr) (lane 4 addr 0) := by
    have hbar : ¬ 2 ^ 26 ≤ addr := by omega
    have htab : addr < 0x9000 := by omega
    unfold State.busWrite
    simp only [hbar, hwidth, hpage, hin, htab, hoff, if_true, if_false, Bool.not_true, Bool.false_eq_true]
  have hmask : halfMask 4 addr = 0xFFFFFFFF00000000 := by
    unfold halfMask
    rw [if_neg (by decide), if_pos hhalf]
  have hlane : lane 4 addr 0 = 0 := by
    unfold lane
    rw [if_neg (by decide), if_pos hhalf]
    rfl
  have hidx : (0x8000 + 8 * (2 * v + 1) - 0x8000) / 8 = 2 * v + 1 := by omega
  have hodd : ¬ (2 * v + 1) % 2 = 0 := by omega
  have hvec : (2 * v + 1) / 2 = v := by omega
  have hclear (w : Word64) : bit (mix 0xFFFFFFFF00000000 w 0) 32 = false := by
    unfold bit mix
    simp
  show ∃ tab, Host.Outcome.next (s.busWrite (0x8000 + 16 * (v % 64) + 12) 4 0) = _
  rw [haddr, hwrite, hmask, hlane]
  unfold State.msixWrite
  simp only [hidx, if_neg hodd, hvec, hclear, Bool.false_eq_true, if_false]
  exact ⟨_, rfl⟩

/-- Settles O15: the mask bit is cleared, and `msixFlush` sends what waited. -/
theorem unmaskSendsPending : Obligations.UnmaskSendsPending := by
  intro s v hv
  obtain ⟨tab, hexec⟩ := exec_msixUnmask s hv
  have hflush := (s.unmasked v tab).msixFlush_flushed
  have hbit (u : Nat) : (s.unmasked v tab).msixMask.getLsbD u = (s.msixMask.getLsbD u && !decide (u = v)) := getLsbD_clear _ hv u
  refine ⟨_, hexec, ?_, fun u _ hne => ?_, fun hpend hup => ?_, ?_⟩
  · rw [hflush.mask, hbit, decide_eq_true rfl, Bool.not_true, Bool.and_false]
  · rw [hflush.mask, hbit, decide_eq_false hne, Bool.not_false, Bool.and_true]
  · exact hflush.sent v hv hpend (by rw [hbit, decide_eq_true rfl, Bool.not_true, Bool.and_false]) hup
  · rw [hflush.frame]
    rfl

/-- Settles O23: the message of a rise is `setFlags_rise`, its absence `setFlags_silent`; a write that leaves the condition at 1 sends by
`irqAfterWrite_sends`; an unmasked vector sends by O15. -/
theorem interruptMessages : Obligations.InterruptMessages := by
  intro s page mask b i hb hup v after
  have hv : s.pageVector page = v := by
    unfold State.pageVector
    rw [hb]
  have hlt : v < 64 := Nat.mod_lt _ (by decide)
  have hm := mapped_of_blockOf hb
  refine ⟨s.irqCond_iff page, fun hwas hafter hmask => ?_, fun hwas hafter hmask => ?_, fun h => ?_, fun hp hc hh hmask hstays => ?_, fun hp hc hh hmask hstays => ?_,
    fun hmask hpend => ?_⟩
  · rw [State.setFlags_rise mask hwas hafter, hv, State.msix_sent (by simpa using hmask) (by simpa using hup)]
    simp [State.emit]
  · rw [State.setFlags_rise mask hwas hafter, hv, State.msix_waits (by simpa using hmask)]
    refine ⟨by simp, ?_⟩
    rw [getLsbD_set _ hlt, decide_eq_true rfl, Bool.or_true]
  · rw [State.setFlags_silent mask h]
    exact ⟨State.setReg_out .., State.setReg_msixPend ..⟩
  · obtain ⟨u, hu⟩ : ∃ u, s.setReg (regKey page 0x20) (s.reg (regKey page 0x20) &&& ~~~mask) = u := ⟨_, rfl⟩
    have hfault := u.faultCheck_regsKept page
    have hkept : regsKept s (u.faultCheck page) ([0x20, 0x18].map (regKey page)) :=
      ((hu ▸ s.setReg_regsKept _ _).mono (by simp)).trans (hfault.mono (by simp))
    have hcond : (u.faultCheck page).irqCond page = true := by
      rw [State.irqCond_iff, hfault _ (by simpa using regKey_ne page (by decide)), hfault _ (by simpa using regKey_ne page (by decide)), ← hu,
        State.reg_setReg_same, State.reg_setReg_other _ _ (regKey_ne page (by decide))]
      exact hstays
    have hframe : u.faultCheck page = { s with regs := (u.faultCheck page).regs } := by
      rw [u.faultCheck_eq page, ← hu]
      rfl
    refine ⟨_, exec_pgEvtClear s mask hp hm hc hh, ?_⟩
    rw [hu]
    exact State.message_after_write (by decide) hkept hframe hcond hv hmask hup
  · have hkept : regsKept s (s.setReg (regKey page 0x28) (mask &&& evtMask page)) ([0x28].map (regKey page)) := s.setReg_regsKept _ _
    have hcond : (s.setReg (regKey page 0x28) (mask &&& evtMask page)).irqCond page = true := by
      rw [State.irqCond_iff, State.reg_setReg_same, State.reg_setReg_other _ _ (regKey_ne page (by decide))]
      exact hstays
    exact ⟨_, exec_pgEvtEnWrite s mask hp hm hc hh, State.message_after_write (by decide) hkept rfl hcond hv hmask hup⟩
  · obtain ⟨t, ht, -, -, hsent, -⟩ := unmaskSendsPending s v hlt
    obtain ⟨hclear, hout⟩ := hsent hpend hup
    exact ⟨t, ht, hout, hclear⟩

end Sys2Proof.Machine
end

section
/-! PROOFS. The plain registers: those whose fields are RW or RO and whose value no rule of its own changes. -/

namespace Sys2Proof.Machine

/-- The bits of a register's RW fields. -/
def RegDesc.rwMask (d : RegDesc) : Word64 := d.maskOf (fun f => f.ty == FieldTy.rw)

/-- A block register whose value a write replaces in its RW fields and nowhere else: no W1C field, no firmware field, no value of its own
(`fixValue`), no half the U96 computes, not GLB.RESET, not CONFIRM. -/
structure PlainReg (page off : Nat) (d : RegDesc) : Prop where
  block : page ≤ 0x12 ∧ page ≠ 3 ∧ page ≠ 4 ∧ page ≠ 5 ∧ page ≠ 0xE
  place : 0x40 ≤ off ∧ off < 0x8000 ∧ off % 8 = 0 ∧ off ≠ 0x220
  desc : descAt page off = some d
  w1c : d.maskOf (fun f => f.ty == FieldTy.w1c) = 0

theorem RegDesc.maskOf_congr {d : RegDesc} {p q : FieldDesc → Bool} (h : ∀ f ∈ d.fields, p f = q f) : d.maskOf p = d.maskOf q := by
  unfold RegDesc.maskOf
  rw [List.filter_congr h]

theorem RegDesc.maskOf_none {d : RegDesc} {p : FieldDesc → Bool} (h : ∀ f ∈ d.fields, p f = false) : d.maskOf p = 0 := by
  rw [RegDesc.maskOf_congr h]
  unfold RegDesc.maskOf
  rw [List.filter_false]
  rfl

theorem mapped_of_le {page : Nat} (h : page ≤ 0x12) : mapped page = true := by
  unfold mapped blockOf
  rw [if_pos h]
  rfl

section
variable {page off : Nat} {d : RegDesc} (h : PlainReg page off d)
include h

theorem PlainReg.firmware (f : FieldDesc) : isFirmware page off f = false := by
  unfold isFirmware
  rw [beq_eq_false_iff_ne.mpr h.block.2.2.2.1]
  rfl

theorem PlainReg.fix (v : Word64) : fixValue page off v = v := by
  obtain ⟨-, h3, -, h5, hE⟩ := h.block
  unfold fixValue
  rw [if_neg (fun k => h3 k.1), if_neg (fun k => hE k.1), if_neg (fun k => h5 k.1)]

theorem PlainReg.cur (s : State) : s.cur page off = s.reg (regKey page off) := by
  have hport : isHpt page = false := by
    have := h.block.1
    simp [isHpt]
    omega
  unfold State.cur
  rw [hport]
  rfl

/-- What of the register a write may change, where none of its fields is frozen. -/
theorem PlainReg.openMask {s : State} (hopen : s.frozenBy page = 0 ∨ ∀ f ∈ d.fields, isConfig page off f = false) : s.openMask page off d = d.rwMask := by
  unfold State.openMask RegDesc.rwMask
  refine RegDesc.maskOf_congr fun f hf => ?_
  rw [h.firmware f]
  rcases hopen with hfz | hcfg
  · simp [hfz]
  · simp [hcfg f hf]

theorem PlainReg.newValue {s : State} (hopen : s.frozenBy page = 0 ∨ ∀ f ∈ d.fields, isConfig page off f = false) (v : Word64) :
    s.newValue page off d (BitVec.allOnes 64) v = mix d.rwMask (s.reg (regKey page off)) v := by
  have hdram : ¬(page ≠ 0x40 ∧ 0x40 ≤ page ∧ page ≤ 0x6F ∧ off = 0x148) := by
    have := h.block.1
    omega
  have hclear : v &&& BitVec.allOnes 64 &&& 0 = 0 := BitVec.and_zero
  unfold State.newValue
  dsimp only
  rw [h.w1c, if_neg hdram, h.openMask hopen, h.cur s, h.fix, hclear, BitVec.and_allOnes]
  exact BitVec.and_allOnes

theorem PlainReg.configMask_zero (hcfg : ∀ f ∈ d.fields, isConfig page off f = false) : configMask page off = 0 := by
  unfold configMask
  rw [if_neg (Nat.not_lt.mpr h.place.1), h.desc]
  exact RegDesc.maskOf_none hcfg

theorem PlainReg.configMask_rw (hcfg : ∀ f ∈ d.fields, isControl page off f = false) : configMask page off = d.rwMask := by
  unfold configMask
  rw [if_neg (Nat.not_lt.mpr h.place.1), h.desc]
  refine RegDesc.maskOf_congr fun f hf => ?_
  unfold isConfig
  rw [hcfg f hf, Bool.not_false, Bool.and_true]

/-- A 64-bit write that the conditions of the register admit. -/
theorem PlainReg.busWrite {s : State} (v : Word64) (hh : s.hidden false page = false)
    (hopen : s.frozenBy page = 0 ∨ ∀ f ∈ d.fields, isConfig page off f = false)
    (hok : s.writeOk page off (mix d.rwMask (s.reg (regKey page off)) v) v = true) :
    s.busWrite (regKey page off) 8 v = s.storeReg page off (s.reg (regKey page off)) (mix d.rwMask (s.reg (regKey page off)) v) v := by
  obtain ⟨hle, -, h4, -, -⟩ := h.block
  obtain ⟨h40, ho, h8, hr⟩ := h.place
  have hcount : isCounterPage page = false := by
    simp [isCounterPage]
    omega
  have hnew := h.newValue hopen v
  have hfw : (s.cur page off ^^^ v) &&& d.maskOf (isFirmware page off) = 0 := by
    rw [RegDesc.maskOf_none (fun f _ => h.firmware f)]
    exact BitVec.and_zero
  rw [State.busWrite_regKey s v (by omega) (by omega) h8 (inMsix_regKey page ho) (mapped_of_le hle) hcount hh h.desc, if_neg (Nat.not_lt.mpr h40),
    State.blockWrite_accepted s _ d v (hopen.imp_right h.configMask_zero) (fun k => hr k.2) (fun k => h4 k.1) (by rw [hnew]; exact hok) hfw, hnew, h.cur s]

/-- The same of a register that is no pair-wide setting: what is stored, and what the write starts. -/
theorem PlainReg.put {s : State} (v : Word64) (hh : s.hidden false page = false) (hpair : pairWide page off = false)
    (hopen : s.frozenBy page = 0 ∨ ∀ f ∈ d.fields, isConfig page off f = false)
    (hok : s.writeOk page off (mix d.rwMask (s.reg (regKey page off)) v) v = true) :
    let old := s.reg (regKey page off)
    let new := mix d.rwMask old v
    s.put page off v = ((s.stored page off old new).afterWrite page off old new v).settle := by
  intro old new
  unfold State.put
  rw [h.busWrite v hh hopen hok, State.storeReg_stored s hpair]

end

/-- A number written into a field from bit 0 on reads back where it fits. -/
theorem bits_ofNat_of_lt {n hi : Nat} (hhi : hi < 64) (h : n < 2 ^ (hi + 1)) : bits (BitVec.ofNat 64 n) hi 0 = n := by
  have h64 : n < 2 ^ 64 := lt_of_lt_of_le h (Nat.pow_le_pow_right (by decide) (by omega))
  unfold bits
  rw [BitVec.toNat_ofNat, Nat.mod_eq_of_lt h64, Nat.shiftRight_zero]
  exact Nat.mod_eq_of_lt h

theorem State.hidden_glb (s : State) (bmc : Bool) : s.hidden bmc 0 = false := by
  unfold State.hidden
  simp

/-- Bits of a closed mask, one after another. -/
theorem getLsbD_range {m : Word64} {b : Bool} {hi lo : Nat} (h : ∀ i < 64, lo ≤ i → i ≤ hi → m.getLsbD i = b) (hhi : hi < 64) :
    ∀ i, lo ≤ i → i ≤ hi → m.getLsbD i = b := fun i hl hh => h i (by omega) hl hh

end Sys2Proof.Machine
end

section
/-! PROOFS. The command queues of the Rister: their registers, and the completion of the front command (O12, O13). -/

namespace Sys2Proof.Machine

/-! ### A queue beside the registers -/

@[simp] theorem State.rq_setRq_same (s : State) (q : Nat) (r : Rq) : (s.setRq q r).rq q = r := NMap.getD_put_same s.rqs q r

@[simp] theorem State.rq_wr (s : State) (f : Fld) (v i a q : Nat) : (s.wr f v i a).rq q = s.rq q := rfl

@[simp] theorem State.rd_setRq (s : State) (q : Nat) (r : Rq) (f : Fld) (i a : Nat) : (s.setRq q r).rd f i a = s.rd f i a := rfl

/-- Registers of one place of an array differ by their offsets. -/
theorem Fld.key_ne {f g : Fld} (i a : Nat) (hp : g.page = f.page) (ho : g.off ≠ f.off) : g.key i a ≠ f.key i a := by
  unfold Fld.key regKey
  omega

theorem State.rd_wr_off (s : State) {f g : Fld} (v i a : Nat) (hp : g.page = f.page) (ho : g.off ≠ f.off) : (s.wr f v i a).rd g i a = s.rd g i a :=
  State.rd_wr_other s f g v i a i a (Fld.key_ne i a hp ho)

/-- The registers of a queue lie beyond the header. -/
theorem rqKey_header {f : Fld} (q : Nat) (hp : f.page = 0) (ho : 0x40 ≤ f.off) : f.key 0 (rqOff q) ≠ regKey 0 0x20 ∧ f.key 0 (rqOff q) ≠ regKey 0 0x18 := by
  unfold Fld.key regKey
  omega

theorem rqKey_notMem {f : Fld} {o : Nat} (q : Nat) (hp : f.page = 0) (ho : f.off ≠ o) : f.key 0 (rqOff q) ∉ [regKey 0 (o + rqOff q)] := by
  rw [List.mem_singleton]
  unfold Fld.key regKey
  omega

theorem State.rqMsix_regs (s : State) (q : Nat) : (s.rqMsix q).regs = s.regs := by
  unfold State.rqMsix
  split
  · simp
  · rfl

/-- A queue in ERROR reads so, with its code (R58). -/
theorem State.rqError_reads (s : State) (q : Nat) {code : Nat} (index : Nat) (hc : code < 256) :
    (s.rqError q code index).rqState q = 3 ∧ (s.rqError q code index).rd GLB_RQ_STAT_ERR 0 (rqOff q) = code := by
  have hrd (f : Fld) (hp : f.page = 0) (ho : 0x40 ≤ f.off) : (s.rqError q code index).rd f 0 (rqOff q)
      = (((s.wr GLB_RQ_STAT_STATE 3 0 (rqOff q)).wr GLB_RQ_STAT_ERR code 0 (rqOff q)).wr GLB_RQ_STAT_ERR_INDEX index 0 (rqOff q)).rd f 0 (rqOff q) := by
    obtain ⟨h20, h18⟩ := rqKey_header q hp ho
    unfold State.rqError
    rw [State.rd_congr (State.rqMsix_regs _ q), State.rd_raise _ _ _ h20 h18]
  unfold State.rqState
  refine ⟨?_, ?_⟩ <;> rw [hrd _ rfl (by decide)] <;> simp (disch := decide) only [State.rd_wr_apart, State.rd_wr_same]
  · rfl
  · exact Nat.mod_eq_of_lt hc

/-! ### The registers a queue's driver writes (R57) -/

/-- RQ_CTRL, SQ_TAIL and CQ_HEAD of queue `q` as registers of the page. -/
def rqCtrlDesc : RegDesc := ⟨0x410, 4, 0x40, 0, [⟨30, 30, .rw⟩, ⟨29, 24, .rw⟩, ⟨19, 16, .rw⟩, ⟨11, 8, .rw⟩, ⟨0, 0, .rw⟩]⟩
def rqTailDesc : RegDesc := ⟨0x418, 4, 0x40, 0, [⟨15, 0, .rw⟩]⟩
def rqHeadDesc : RegDesc := ⟨0x428, 4, 0x40, 0, [⟨15, 0, .rw⟩]⟩

section
variable {q : Nat} (hq : q < 4)
include hq

theorem rqCtrl_plain : PlainReg 0 (0x410 + rqOff q) rqCtrlDesc := by
  interval_cases q <;> exact ⟨by decide, by decide, by decide, by decide⟩

theorem rqTail_plain : PlainReg 0 (0x418 + rqOff q) rqTailDesc := by
  interval_cases q <;> exact ⟨by decide, by decide, by decide, by decide⟩

theorem rqHead_plain : PlainReg 0 (0x428 + rqOff q) rqHeadDesc := by
  interval_cases q <;> exact ⟨by decide, by decide, by decide, by decide⟩

/-- Every field of a queue's registers is a control field: LOCK does not freeze it, and PG_GEN does not count it (R46). -/
theorem rq_noConfig {o : Nat} (ho : 0x400 ≤ o) (ho' : o < 0x440) (f : FieldDesc) : isConfig 0 (o + rqOff q) f = false := by
  have hin : 0x400 ≤ o + rqOff q ∧ o + rqOff q < 0x500 := by
    unfold rqOff
    omega
  unfold isConfig isControl
  simp [hin]

/-- A write of a queue's register that its conditions admit: only that register is stored, PG_GEN stands, and what the write starts follows. -/
theorem State.put_rq {s : State} {o : Nat} {d : RegDesc} (h : PlainReg 0 (o + rqOff q) d) (v : Word64) {old new : Word64} (ho : 0x400 ≤ o) (ho' : o < 0x440)
    (hold : s.reg (regKey 0 (o + rqOff q)) = old) (hnew : mix d.rwMask old v = new) (hok : s.writeOk 0 (o + rqOff q) new v = true) :
    ∃ t : State, s.put 0 (o + rqOff q) v = (t.rqAfter (o + rqOff q) old new).settle ∧ t.reg (regKey 0 (o + rqOff q)) = new
      ∧ regsKept s t [regKey 0 (o + rqOff q)] ∧ t = { s with regs := t.regs } := by
  have hin : 0x400 ≤ o + rqOff q ∧ o + rqOff q < 0x500 := by
    unfold rqOff
    omega
  have hcfg : configMask 0 (o + rqOff q) = 0 := h.configMask_zero fun f _ => rq_noConfig hq ho ho' f
  subst hold hnew
  refine ⟨s.stored 0 (o + rqOff q) _ _, ?_, s.stored_reg_of_old (by omega) _ rfl, ?_, s.stored_eq ..⟩
  · rw [h.put v (s.hidden_glb false) rfl (.inr fun f _ => rq_noConfig hq ho ho' f) hok]
    refine congrArg State.settle ?_
    show (if 0x400 ≤ o + rqOff q ∧ o + rqOff q < 0x500 then _ else _) = _
    rw [if_pos hin]
  · unfold State.stored
    rw [hcfg, if_pos (by simp)]
    split
    · exact regsKept.refl s _
    · exact s.setReg_regsKept _ _

/-- What a write of RQ_CTRL, SQ_TAIL or CQ_HEAD starts (R55, R56, R58). -/
theorem State.rqAfter_queue (t : State) (old new : Word64) :
    t.rqAfter (0x410 + rqOff q) old new = (if !bit old 0 && bit new 0 then t.rqOn q else if bit old 0 && !bit new 0 then t.rqOff1 q else t)
    ∧ t.rqAfter (0x418 + rqOff q) old new = t.rqBell q ∧ t.rqAfter (0x428 + rqOff q) old new = t.rqCqHead q := by
  interval_cases q <;> exact ⟨rfl, rfl, rfl⟩

theorem State.writeOk_rq (s : State) (v op : Word64) :
    s.writeOk 0 (0x410 + rqOff q) v op = !(bit v 0 && (!s.ready 0 || s.rqState q == 2))
    ∧ s.writeOk 0 (0x418 + rqOff q) v op = true ∧ s.writeOk 0 (0x428 + rqOff q) v op = true := by
  interval_cases q <;> exact ⟨rfl, rfl, rfl⟩

end

/-! ### Enabling a queue (R58) -/

/-- Pointers, phase and error of a queue, cleared. -/
def State.rqCleared (s : State) (q : Nat) : State :=
  ((((s.wr GLB_RQ_SQ_HEAD_HEAD 0 0 (rqOff q)).wr GLB_RQ_CQ_TAIL_TAIL 0 0 (rqOff q)).wr GLB_RQ_CQ_TAIL_PHASE 1 0 (rqOff q)).wr GLB_RQ_STAT_ERR 0 0 (rqOff q)).wr
    GLB_RQ_STAT_ERR_INDEX 0 0 (rqOff q)

/-- A queue at its start: a doorbell written before is kept (log 48); STATE is not chosen yet. -/
def State.rqFresh (s : State) (q : Nat) : State :=
  let u := s.rqCleared q
  let t := u.rd GLB_RQ_SQ_TAIL_TAIL 0 (rqOff q)
  ({ u with bellCount := u.bellCount + 1 } : State).setRq q { ghost := (u.rq q).ghost, bells := if t = 0 then [] else [(t, u.bellCount)] }

theorem State.rd_rqFresh (s : State) (q : Nat) (f : Fld) : (s.rqFresh q).rd f 0 (rqOff q) = (s.rqCleared q).rd f 0 (rqOff q) :=
  State.rd_congr (by unfold State.rqFresh; rw [State.setRq_regs]) f 0 (rqOff q)

theorem State.rd_rqFresh_other (s : State) (q : Nat) {f : Fld} (hp : f.page = 0) (hhead : f.off ≠ 0x420) (htail : f.off ≠ 0x430) (hstat : f.off ≠ 0x438) :
    (s.rqFresh q).rd f 0 (rqOff q) = s.rd f 0 (rqOff q) := by
  rw [State.rd_rqFresh]
  unfold State.rqCleared
  rw [State.rd_wr_off _ _ _ _ hp hstat, State.rd_wr_off _ _ _ _ hp hstat, State.rd_wr_off _ _ _ _ hp htail, State.rd_wr_off _ _ _ _ hp htail,
    State.rd_wr_off _ _ _ _ hp hhead]

/-- The pointers and the phase of a queue that starts. -/
theorem State.rqFresh_pointers (s : State) (q : Nat) :
    let u := s.rqFresh q
    u.rd GLB_RQ_SQ_HEAD_HEAD 0 (rqOff q) = 0 ∧ u.rd GLB_RQ_CQ_TAIL_TAIL 0 (rqOff q) = 0 ∧ u.rd GLB_RQ_CQ_TAIL_PHASE 0 (rqOff q) = 1
      ∧ (u.rq q).fetched = [] ∧ (u.rq q).posts = [] := by
  intro u
  refine ⟨?_, ?_, ?_, ?_⟩
  · rw [State.rd_rqFresh]
    unfold State.rqCleared
    simp (disch := decide) only [State.rd_wr_off, State.rd_wr_same]
    rfl
  · rw [State.rd_rqFresh]
    unfold State.rqCleared
    simp (disch := decide) only [State.rd_wr_off, State.rd_wr_apart, State.rd_wr_same]
    rfl
  · rw [State.rd_rqFresh]
    unfold State.rqCleared
    simp (disch := decide) only [State.rd_wr_off, State.rd_wr_same]
    rfl
  · unfold u State.rqFresh
    rw [State.rq_setRq_same]
    exact ⟨rfl, rfl⟩

/-- The sizes are in range: the queue runs, or stops at once where SQ_TAIL lies outside the ring (log 48). -/
theorem State.rqOn_of_sizes {s : State} {q : Nat} (hsq : 4 ≤ s.rd GLB_RQ_CTRL_SQ_SIZE 0 (rqOff q)) (hcq : 4 ≤ s.rd GLB_RQ_CTRL_CQ_SIZE 0 (rqOff q)) :
    s.rqOn q = if s.rd GLB_RQ_SQ_TAIL_TAIL 0 (rqOff q) < s.sqSize q then (s.rqFresh q).wr GLB_RQ_STAT_STATE 1 0 (rqOff q) else (s.rqFresh q).rqError q 1 0 := by
  have hsq' : (s.rqFresh q).rd GLB_RQ_CTRL_SQ_SIZE 0 (rqOff q) = s.rd GLB_RQ_CTRL_SQ_SIZE 0 (rqOff q) := s.rd_rqFresh_other q rfl (by decide) (by decide) (by decide)
  have hcq' : (s.rqFresh q).rd GLB_RQ_CTRL_CQ_SIZE 0 (rqOff q) = s.rd GLB_RQ_CTRL_CQ_SIZE 0 (rqOff q) := s.rd_rqFresh_other q rfl (by decide) (by decide) (by decide)
  have htail : (s.rqFresh q).rd GLB_RQ_SQ_TAIL_TAIL 0 (rqOff q) = s.rd GLB_RQ_SQ_TAIL_TAIL 0 (rqOff q) := s.rd_rqFresh_other q rfl (by decide) (by decide) (by decide)
  have hsq16 : s.rd GLB_RQ_CTRL_SQ_SIZE 0 (rqOff q) < 16 := s.rd_lt ..
  have hcq16 : s.rd GLB_RQ_CTRL_CQ_SIZE 0 (rqOff q) < 16 := s.rd_lt ..
  have hsize : (s.rqFresh q).sqSize q = s.sqSize q := congrArg (2 ^ ·) hsq'
  have hin : (inRange 4 16 ((s.rqFresh q).rd GLB_RQ_CTRL_SQ_SIZE 0 (rqOff q)) && inRange 4 16 ((s.rqFresh q).rd GLB_RQ_CTRL_CQ_SIZE 0 (rqOff q))) = true := by
    rw [hsq', hcq']
    simp only [inRange, Bool.and_eq_true, decide_eq_true_eq]
    omega
  have hon : s.rqOn q = if inRange 4 16 ((s.rqFresh q).rd GLB_RQ_CTRL_SQ_SIZE 0 (rqOff q)) && inRange 4 16 ((s.rqFresh q).rd GLB_RQ_CTRL_CQ_SIZE 0 (rqOff q)) then
      (if (s.rqFresh q).rd GLB_RQ_SQ_TAIL_TAIL 0 (rqOff q) < (s.rqFresh q).sqSize q then (s.rqFresh q).wr GLB_RQ_STAT_STATE 1 0 (rqOff q) else (s.rqFresh q).rqError q 1 0)
    else (s.rqFresh q).rqError q 5 0 := rfl
  rw [hon, if_pos hin, htail, hsize]

section
variable {s : State} {q : Nat} (hq : q < 4)
include hq

/-- RQ_ENABLE of a queue that is off and has stopped, the register file having been read: the sizes written, and EN. -/
theorem exec_rqEnable (value : Word64) (hready : s.ready 0 = true) (hoff : s.rd GLB_RQ_CTRL_EN 0 (rqOff q) = 0) (hstop : s.rqState q ≠ 2) :
    ∃ u : State, exec (.rqEnable q value) s = .next (u.rqOn q).settle ∧ u.rd GLB_RQ_CTRL_EN 0 (rqOff q) = 1
      ∧ u.rd GLB_RQ_CTRL_SQ_SIZE 0 (rqOff q) = bits value 11 8 ∧ u.rd GLB_RQ_CTRL_CQ_SIZE 0 (rqOff q) = bits value 19 16
      ∧ u.rd GLB_RQ_SQ_TAIL_TAIL 0 (rqOff q) = s.rd GLB_RQ_SQ_TAIL_TAIL 0 (rqOff q) := by
  have hfield {hi lo : Nat} (old : Word64) (hin : ∀ i < 64, lo ≤ i → i ≤ hi → rqCtrlDesc.rwMask.getLsbD i = true) (h64 : hi < 64) :
      bits (mix rqCtrlDesc.rwMask old (value ||| 1)) hi lo = bits (value ||| 1) hi lo := bits_mix_in (getLsbD_range hin h64)
  have hor {hi lo : Nat} (h : 0 < lo) : bits (value ||| 1) hi lo = bits value hi lo := by
    refine bits_congr fun i hl _ => ?_
    have hone : (1 : Word64).getLsbD i = false := (BitVec.getLsbD_one (w := 64) (i := i)).trans (by simp; omega)
    rw [BitVec.getLsbD_or, hone, Bool.or_false]
  have hen (old : Word64) : bits (mix rqCtrlDesc.rwMask old (value ||| 1)) 0 0 = 1 := by
    rw [hfield old (by decide) (by decide), bits_one]
    simp [bit, b2n]
  obtain ⟨old, hold⟩ : ∃ w, s.reg (regKey 0 (0x410 + rqOff q)) = w := ⟨_, rfl⟩
  obtain ⟨new, hnew⟩ : ∃ w, mix rqCtrlDesc.rwMask old (value ||| 1) = w := ⟨_, rfl⟩
  have hwas : bit old 0 = false := by
    rw [bit_eq_bits, ← hold, show bits (s.reg (regKey 0 (0x410 + rqOff q))) 0 0 = 0 from hoff]
    rfl
  have hnow : bit new 0 = true := by
    rw [bit_eq_bits, ← hnew, hen]
    rfl
  have hok : s.writeOk 0 (0x410 + rqOff q) new (value ||| 1) = true := by
    rw [(s.writeOk_rq hq new (value ||| 1)).1, hready, beq_eq_false_iff_ne.mpr hstop]
    simp
  obtain ⟨u, hput, hreg, hkept, -⟩ := State.put_rq hq (rqCtrl_plain hq) (value ||| 1) (by decide) (by decide) hold hnew hok
  refine ⟨u, ?_, ?_, ?_, ?_, ?_⟩
  · show (.next (s.put 0 (0x410 + rqOff (q % 4)) (value ||| 1)) : Res) = _
    rw [Nat.mod_eq_of_lt hq, hput, (State.rqAfter_queue hq _ _ _).1, hwas, hnow]
    rfl
  · exact (congrArg (bits · 0 0) hreg).trans (hnew ▸ hen old)
  · exact (congrArg (bits · 11 8) hreg).trans (hnew ▸ (hfield old (by decide) (by decide)).trans (hor (by decide)))
  · exact (congrArg (bits · 19 16) hreg).trans (hnew ▸ (hfield old (by decide) (by decide)).trans (hor (by decide)))
  · exact hkept.rd (rqKey_notMem q rfl (by decide))

/-- RQ_DISABLE of a queue that is on. -/
theorem exec_rqDisable (hon : s.rd GLB_RQ_CTRL_EN 0 (rqOff q) = 1) :
    ∃ u : State, exec (.rqDisable q) s = .next (u.rqOff1 q).settle ∧ u.rd GLB_RQ_CTRL_EN 0 (rqOff q) = 0 ∧ u.rqState q = s.rqState q ∧ u.rq q = s.rq q := by
  obtain ⟨old, hold⟩ : ∃ w, s.reg (regKey 0 (0x410 + rqOff q)) = w := ⟨_, rfl⟩
  obtain ⟨new, hnew⟩ : ∃ w, mix rqCtrlDesc.rwMask old (old &&& ~~~(1 : Word64)) = w := ⟨_, rfl⟩
  have hwas : bit old 0 = true := by
    rw [bit_eq_bits, ← hold, show bits (s.reg (regKey 0 (0x410 + rqOff q))) 0 0 = 1 from hon]
    rfl
  have hnow : bit new 0 = false := by
    rw [bit_eq_bits, ← hnew, bits_mix_in (getLsbD_range (by decide) (by decide)), ← bit_eq_bits]
    simp [bit]
  have hok : s.writeOk 0 (0x410 + rqOff q) new (old &&& ~~~(1 : Word64)) = true := by
    rw [(s.writeOk_rq hq new _).1, hnow]
    rfl
  obtain ⟨u, hput, hreg, hkept, hframe⟩ := State.put_rq hq (rqCtrl_plain hq) (old &&& ~~~(1 : Word64)) (by decide) (by decide) hold hnew hok
  refine ⟨u, ?_, ?_, hkept.rd (rqKey_notMem q rfl (by decide)), by rw [hframe]; rfl⟩
  · show (.next (s.put 0 (0x410 + rqOff (q % 4)) (s.reg (regKey 0 (0x410 + rqOff (q % 4))) &&& ~~~(1 : Word64))) : Res) = _
    rw [Nat.mod_eq_of_lt hq, hold, hput, (State.rqAfter_queue hq _ _ _).1, hwas, hnow]
    rfl
  · have hbit : bits new 0 0 = 0 := by rw [bits_one, hnow]; rfl
    exact (congrArg (bits · 0 0) hreg).trans hbit

/-- RQ_DOORBELL: SQ_TAIL holds the index, and the queue looks at it. -/
theorem exec_rqDoorbell {tail : Nat} (ht : tail < 2 ^ 16) :
    ∃ u : State, exec (.rqDoorbell q tail) s = .next (u.rqBell q).settle ∧ u.rd GLB_RQ_SQ_TAIL_TAIL 0 (rqOff q) = tail
      ∧ regsKept s u [GLB_RQ_SQ_TAIL_TAIL.key 0 (rqOff q)] ∧ u = { s with regs := u.regs } := by
  obtain ⟨u, hput, hreg, hkept, hframe⟩ := State.put_rq hq (rqTail_plain hq) (BitVec.ofNat 64 tail) (by decide) (by decide) rfl rfl
    (s.writeOk_rq hq _ (BitVec.ofNat 64 tail)).2.1
  refine ⟨u, ?_, ?_, hkept, hframe⟩
  · show (.next (s.put 0 (0x418 + rqOff (q % 4)) (BitVec.ofNat 64 tail)) : Res) = _
    rw [Nat.mod_eq_of_lt hq, hput, (State.rqAfter_queue hq _ _ _).2.1]
  · exact (congrArg (bits · 15 0) hreg).trans ((bits_mix_in (getLsbD_range (by decide) (by decide))).trans (bits_ofNat_of_lt (by decide) ht))

/-- RQ_CQ_HEAD_WRITE: CQ_HEAD holds the index, and the queue looks at it. -/
theorem exec_rqCqHeadWrite {head : Nat} (hh : head < 2 ^ 16) :
    ∃ u : State, exec (.rqCqHeadWrite q head) s = .next (u.rqCqHead q).settle ∧ u.rd GLB_RQ_CQ_HEAD_HEAD 0 (rqOff q) = head
      ∧ regsKept s u [GLB_RQ_CQ_HEAD_HEAD.key 0 (rqOff q)] ∧ u = { s with regs := u.regs } := by
  obtain ⟨u, hput, hreg, hkept, hframe⟩ := State.put_rq hq (rqHead_plain hq) (BitVec.ofNat 64 head) (by decide) (by decide) rfl rfl
    (s.writeOk_rq hq _ (BitVec.ofNat 64 head)).2.2
  refine ⟨u, ?_, ?_, hkept, hframe⟩
  · show (.next (s.put 0 (0x428 + rqOff (q % 4)) (BitVec.ofNat 64 head)) : Res) = _
    rw [Nat.mod_eq_of_lt hq, hput, (State.rqAfter_queue hq _ _ _).2.2]
  · exact (congrArg (bits · 15 0) hreg).trans ((bits_mix_in (getLsbD_range (by decide) (by decide))).trans (bits_ofNat_of_lt (by decide) hh))

end

/-! ### Disabling, doorbells, the completion head (R55, R56, R58) -/

/-- With no completion that waits, posting only lets a STOPPING queue with nothing left become IDLE. -/
theorem State.postWaiting_none {s : State} {q : Nat} (hposts : (s.rq q).posts = []) (h3 : s.rqState q ≠ 3) :
    s.postWaiting q = if s.rqState q = 2 && !(s.rq q).running && (s.rq q).fetched.isEmpty then s.wr GLB_RQ_STAT_STATE 0 0 (rqOff q) else s := by
  unfold State.postWaiting
  rw [hposts]
  show postAll 1 s q = _
  unfold postAll
  dsimp only
  rw [if_neg h3, hposts]

/-- With nothing fetched and nothing to post there is nothing to abort. -/
theorem Rq.aborted_none {r : Rq} {l : List Posting} (hf : r.fetched = []) (hp : r.posts = []) (hl : l = []) :
    ({ r with bells := [], fetched := [], posts := r.posts ++ l } : Rq) = { r with bells := [] } := by
  cases r
  simp_all

/-- A running queue is disabled while nothing waits: STOPPING while a command is in execution, else IDLE. -/
theorem State.rqOff1_running {s : State} {q : Nat} (hrun : s.rqState q = 1) (hposts : (s.rq q).posts = [])
    (hidle : (s.rq q).running = true ∨ (s.rq q).fetched = []) :
    let w := (s.wr GLB_RQ_STAT_STATE 2 0 (rqOff q)).setRq q { s.rq q with bells := [] }
    s.rqOff1 q = if (s.rq q).running then w else w.wr GLB_RQ_STAT_STATE 0 0 (rqOff q) := by
  intro w
  have hw : w.rqState q = 2 := State.rd_wr_same s _ _ _ _ (by decide) (by decide)
  have hwq : w.rq q = { s.rq q with bells := [] } := State.rq_setRq_same ..
  have hset : s.rqOff1 q = w.postWaiting q := by
    have hstop : s.rqOff1 q = ((s.wr GLB_RQ_STAT_STATE 2 0 (rqOff q)).setRq q (if (s.rq q).running then { s.rq q with bells := [] }
        else { s.rq q with bells := [], fetched := [], posts := (s.rq q).posts ++ (s.rq q).fetched.map (fun g => s.posting q g stAborted 0) })).postWaiting q := by
      unfold State.rqOff1
      rw [hrun]
      rfl
    rw [hstop]
    rcases hidle with h | h
    · rw [if_pos h]
    · rw [Rq.aborted_none h hposts (by rw [h]; rfl), ite_self]
  rw [hset, State.postWaiting_none (by rw [hwq]; exact hposts) (by rw [hw]; decide), hw, hwq]
  rcases hrunning : (s.rq q).running with _ | _
  · have hempty := hidle.resolve_left (by rw [hrunning]; decide)
    simp [hempty]
  · simp

/-- What is left of a queue that is disabled. -/
theorem State.rqOff1_leaves {s : State} {q : Nat} (hrun : s.rqState q = 1) (hposts : (s.rq q).posts = [])
    (hidle : (s.rq q).running = true ∨ (s.rq q).fetched = []) :
    let t := s.rqOff1 q
    t.rd GLB_RQ_CTRL_EN 0 (rqOff q) = s.rd GLB_RQ_CTRL_EN 0 (rqOff q) ∧ (t.rq q).bells = [] ∧ (t.rq q).fetched = (s.rq q).fetched
      ∧ t.rqState q = if (s.rq q).running then 2 else 0 := by
  intro t
  obtain ⟨w, hw⟩ : ∃ w, (s.wr GLB_RQ_STAT_STATE 2 0 (rqOff q)).setRq q { s.rq q with bells := [] } = w := ⟨_, rfl⟩
  have ht : t = if (s.rq q).running then w else w.wr GLB_RQ_STAT_STATE 0 0 (rqOff q) := hw ▸ State.rqOff1_running hrun hposts hidle
  have hen : w.rd GLB_RQ_CTRL_EN 0 (rqOff q) = s.rd GLB_RQ_CTRL_EN 0 (rqOff q) := by
    rw [← hw, State.rd_setRq, State.rd_wr_off _ _ _ _ (by rfl) (by decide)]
  have hstate : w.rqState q = 2 := by
    unfold State.rqState
    rw [← hw, State.rd_setRq, State.rd_wr_same _ _ _ _ _ (by decide) (by decide)]
    rfl
  have hrq : w.rq q = { s.rq q with bells := [] } := by rw [← hw, State.rq_setRq_same]
  rw [ht]
  split
  · exact ⟨hen, by rw [hrq], by rw [hrq], hstate⟩
  · refine ⟨?_, by rw [State.rq_wr, hrq], by rw [State.rq_wr, hrq], ?_⟩
    · rw [State.rd_wr_off _ _ _ _ (by rfl) (by decide), hen]
    · unfold State.rqState
      rw [State.rd_wr_same _ _ _ _ _ (by decide) (by decide)]
      exact Nat.zero_mod _

/-- A doorbell that covers new commands (R55). -/
theorem State.rqBell_covers {s : State} {q : Nat} (hrun : s.rqState q = 1) (hin : s.rd GLB_RQ_SQ_TAIL_TAIL 0 (rqOff q) < s.sqSize q)
    (hnew : s.rd GLB_RQ_SQ_TAIL_TAIL 0 (rqOff q) ≠ (match (s.rq q).bells.getLast? with | some b => b.1 | none => s.rd GLB_RQ_SQ_HEAD_HEAD 0 (rqOff q))) :
    s.rqBell q = ({ s with bellCount := s.bellCount + 1 } : State).setRq q
      { s.rq q with bells := (s.rq q).bells ++ [(s.rd GLB_RQ_SQ_TAIL_TAIL 0 (rqOff q), s.bellCount)] } := by
  unfold State.rqBell
  dsimp only
  rw [hrun, if_neg (by decide), if_neg (Nat.not_le.mpr hin), if_neg]
  cases hlast : (s.rq q).bells.getLast? <;> rw [hlast] at hnew <;> exact hnew

theorem State.rqBell_outside {s : State} {q : Nat} (hrun : s.rqState q = 1) (hout : s.sqSize q ≤ s.rd GLB_RQ_SQ_TAIL_TAIL 0 (rqOff q)) :
    s.rqBell q = s.rqError q 1 (s.rqIndex q) := by
  unfold State.rqBell
  dsimp only
  rw [hrun, if_neg (by decide), if_pos hout]

theorem State.rqCqHead_running {s : State} {q : Nat} (hrun : s.rqState q = 1) :
    s.rqCqHead q = if s.cqSize q ≤ s.rd GLB_RQ_CQ_HEAD_HEAD 0 (rqOff q) then s.rqError q 2 (s.rqIndex q) else (s.postWaiting q).advance q := by
  unfold State.rqCqHead
  rw [hrun]
  rfl

/-- Settles O12, command by command. -/
theorem queueRegisters : Obligations.QueueRegisters := by
  intro s q hq
  refine ⟨fun value hready hoff hstop hsq hcq htail => ?_, fun value hready hoff hstop hsq hcq htail => ?_, fun hon hrun hposts hidle => ?_,
    fun tail ht hrun => ⟨fun hin hnew => ?_, fun hout => ?_⟩, fun head hh hrun => ⟨fun hin => ?_, fun hout => ?_⟩⟩
  · obtain ⟨u, hexec, hen, husq, hucq, hutail⟩ := exec_rqEnable hq value hready hoff hstop
    have hsize : u.rd GLB_RQ_SQ_TAIL_TAIL 0 (rqOff q) < u.sqSize q := by
      unfold State.sqSize
      rw [hutail, husq]
      exact htail
    rw [State.rqOn_of_sizes (by rw [husq]; exact hsq) (by rw [hucq]; exact hcq), if_pos hsize] at hexec
    obtain ⟨h1, h2, h3, h4, h5⟩ := u.rqFresh_pointers q
    refine ⟨_, hexec, State.rd_wr_same _ _ _ _ _ (by decide) (by decide), ?_, ?_, ?_, ?_, ?_, ?_, h4, h5⟩
    · rw [State.rd_wr_off _ _ _ _ (by rfl) (by decide), u.rd_rqFresh_other q rfl (by decide) (by decide) (by decide), hen]
    · rw [State.rd_wr_off _ _ _ _ (by rfl) (by decide), u.rd_rqFresh_other q rfl (by decide) (by decide) (by decide), husq]
    · rw [State.rd_wr_off _ _ _ _ (by rfl) (by decide), u.rd_rqFresh_other q rfl (by decide) (by decide) (by decide), hucq]
    · rw [State.rd_wr_off _ _ _ _ (by rfl) (by decide), h1]
    · rw [State.rd_wr_off _ _ _ _ (by rfl) (by decide), h2]
    · rw [State.rd_wr_off _ _ _ _ (by rfl) (by decide), h3]
  · obtain ⟨u, hexec, -, husq, hucq, hutail⟩ := exec_rqEnable hq value hready hoff hstop
    have hsize : ¬ u.rd GLB_RQ_SQ_TAIL_TAIL 0 (rqOff q) < u.sqSize q := by
      unfold State.sqSize
      rw [hutail, husq]
      exact Nat.not_lt.mpr htail
    rw [State.rqOn_of_sizes (by rw [husq]; exact hsq) (by rw [hucq]; exact hcq), if_neg hsize] at hexec
    exact ⟨_, hexec, State.rqError_reads _ q 0 (by decide)⟩
  · obtain ⟨u, hexec, hen, hstate, hrq⟩ := exec_rqDisable hq hon
    obtain ⟨h1, h2, h3, h4⟩ := State.rqOff1_leaves (hstate.trans hrun) (by rw [hrq]; exact hposts) (by rw [hrq]; exact hidle)
    rw [hrq] at h3 h4
    exact ⟨_, hexec, h1.trans hen, h2, h3, h4⟩
  · obtain ⟨u, hexec, htail, hkept, hframe⟩ := exec_rqDoorbell (s := s) hq ht
    have hrd (f : Fld) (hp : f.page = 0) (ho : f.off ≠ 0x418) : u.rd f 0 (rqOff q) = s.rd f 0 (rqOff q) := hkept.rd (rqKey_notMem q hp ho)
    have hrq : u.rq q = s.rq q := by rw [hframe]; rfl
    have hsize : u.sqSize q = s.sqSize q := congrArg (2 ^ ·) (hrd _ rfl (by decide))
    rw [State.rqBell_covers ((hrd _ rfl (by decide)).trans hrun) (by rw [htail, hsize]; exact hin)
      (by rw [htail, hrq, hrd GLB_RQ_SQ_HEAD_HEAD rfl (by decide)]; exact hnew), htail, hrq] at hexec
    have hcount : u.bellCount = s.bellCount := by rw [hframe]
    rw [hcount] at hexec
    refine ⟨_, hexec, htail, ?_, rfl, hkept⟩
    rw [State.rq_setRq_same]
  · obtain ⟨u, hexec, htail, hkept, -⟩ := exec_rqDoorbell (s := s) hq ht
    have hrd (f : Fld) (hp : f.page = 0) (ho : f.off ≠ 0x418) : u.rd f 0 (rqOff q) = s.rd f 0 (rqOff q) := hkept.rd (rqKey_notMem q hp ho)
    have hsize : u.sqSize q = s.sqSize q := congrArg (2 ^ ·) (hrd _ rfl (by decide))
    rw [State.rqBell_outside ((hrd _ rfl (by decide)).trans hrun) (by rw [htail, hsize]; exact hout)] at hexec
    exact ⟨_, hexec, State.rqError_reads u q _ (by decide)⟩
  · obtain ⟨u, hexec, hhead, hkept, hframe⟩ := exec_rqCqHeadWrite (s := s) hq hh
    have hrd (f : Fld) (hp : f.page = 0) (ho : f.off ≠ 0x428) : u.rd f 0 (rqOff q) = s.rd f 0 (rqOff q) := hkept.rd (rqKey_notMem q hp ho)
    have hsize : u.cqSize q = s.cqSize q := congrArg (2 ^ ·) (hrd _ rfl (by decide))
    rw [State.rqCqHead_running ((hrd _ rfl (by decide)).trans hrun), if_neg (by rw [hhead, hsize]; exact Nat.not_le.mpr hin)] at hexec
    exact ⟨u, hexec, hhead, hkept, hframe⟩
  · obtain ⟨u, hexec, hhead, hkept, -⟩ := exec_rqCqHeadWrite (s := s) hq hh
    have hrd (f : Fld) (hp : f.page = 0) (ho : f.off ≠ 0x428) : u.rd f 0 (rqOff q) = s.rd f 0 (rqOff q) := hkept.rd (rqKey_notMem q hp ho)
    have hsize : u.cqSize q = s.cqSize q := congrArg (2 ^ ·) (hrd _ rfl (by decide))
    rw [State.rqCqHead_running ((hrd _ rfl (by decide)).trans hrun), if_pos (by rw [hhead, hsize]; exact hout)] at hexec
    exact ⟨_, hexec, State.rqError_reads u q _ (by decide)⟩

end Sys2Proof.Machine
end

section
/-! PROOFS. Completions and the commands of a queue (O13, O14). -/

namespace Sys2Proof.Machine

/-! ### A completion is written (R56, R57, R63) -/

/-- A message of a queue: at most one leaves, and a masked one waits. -/
theorem State.rqMsix_out (s : State) (q : Nat) : ∃ l, (s.rqMsix q).out = l ++ s.out ∧ l.length ≤ 1 := by
  unfold State.rqMsix
  split
  · unfold State.msix
    split
    · exact ⟨[], rfl, Nat.zero_le _⟩
    · exact ⟨[_], rfl, Nat.le_refl _⟩
  · exact ⟨[], rfl, Nat.zero_le _⟩

theorem State.rqMsix_rqs (s : State) (q : Nat) : (s.rqMsix q).rqs = s.rqs := by
  unfold State.rqMsix
  split
  · simp
  · rfl

/-- What a completion sends and where the queue's tail goes. -/
structure Posted (s t : State) (q : Nat) (p : Posting) : Prop where
  out : ∃ l, t.out = l ++ .completion q (s.rd GLB_RQ_CQ_TAIL_TAIL 0 (rqOff q))
    (BitVec.ofNat 64 (p.cmdId + p.status * 2 ^ 16 + q * 2 ^ 24 + s.rd GLB_RQ_CQ_TAIL_PHASE 0 (rqOff q) * 2 ^ 31 + p.head * 2 ^ 32)) p.result :: s.out
    ∧ l.length ≤ 1 ∧ (p.notify = false → l = [])
  tail : t.rd GLB_RQ_CQ_TAIL_TAIL 0 (rqOff q) = (s.rd GLB_RQ_CQ_TAIL_TAIL 0 (rqOff q) + 1) % s.cqSize q
  phase : t.rd GLB_RQ_CQ_TAIL_PHASE 0 (rqOff q) =
    if (s.rd GLB_RQ_CQ_TAIL_TAIL 0 (rqOff q) + 1) % s.cqSize q = 0 then 1 - s.rd GLB_RQ_CQ_TAIL_PHASE 0 (rqOff q) else s.rd GLB_RQ_CQ_TAIL_PHASE 0 (rqOff q)
  rqs : t.rqs = s.rqs
  kept : regsKept s t [GLB_RQ_CQ_TAIL_TAIL.key 0 (rqOff q)]

/-- CQ_TAIL and PHASE after a completion. -/
def State.tailNext (s : State) (q : Nat) : State :=
  let next := (s.rd GLB_RQ_CQ_TAIL_TAIL 0 (rqOff q) + 1) % s.cqSize q
  let u := s.wr GLB_RQ_CQ_TAIL_TAIL next 0 (rqOff q)
  if next = 0 then u.wr GLB_RQ_CQ_TAIL_PHASE (1 - s.rd GLB_RQ_CQ_TAIL_PHASE 0 (rqOff q)) 0 (rqOff q) else u

/-- A place of a completion ring fits its field. -/
theorem State.cqPlace_lt (s : State) (q n : Nat) : n % s.cqSize q < 2 ^ 16 := by
  have hsize : s.rd GLB_RQ_CTRL_CQ_SIZE 0 (rqOff q) < 16 := s.rd_lt ..
  have hpow : s.cqSize q ≤ 2 ^ 16 := Nat.pow_le_pow_right (by decide) (by omega)
  exact lt_of_lt_of_le (Nat.mod_lt _ (Nat.two_pow_pos _)) hpow

theorem State.tailNext_reads (s : State) (q : Nat) :
    let next := (s.rd GLB_RQ_CQ_TAIL_TAIL 0 (rqOff q) + 1) % s.cqSize q
    let phase := s.rd GLB_RQ_CQ_TAIL_PHASE 0 (rqOff q)
    (s.tailNext q).rd GLB_RQ_CQ_TAIL_TAIL 0 (rqOff q) = next ∧ (s.tailNext q).rd GLB_RQ_CQ_TAIL_PHASE 0 (rqOff q) = (if next = 0 then 1 - phase else phase)
      ∧ regsKept s (s.tailNext q) [GLB_RQ_CQ_TAIL_TAIL.key 0 (rqOff q)] ∧ s.tailNext q = { s with regs := (s.tailNext q).regs } := by
  intro next phase
  have hnext : next < 2 ^ 16 := s.cqPlace_lt q _
  have hphase : phase < 2 := s.rd_lt GLB_RQ_CQ_TAIL_PHASE 0 (rqOff q)
  have htail : (s.wr GLB_RQ_CQ_TAIL_TAIL next 0 (rqOff q)).rd GLB_RQ_CQ_TAIL_TAIL 0 (rqOff q) = next := by
    rw [State.rd_wr_same _ _ _ _ _ (by decide) (by decide)]
    exact Nat.mod_eq_of_lt hnext
  have hkept := State.wr_regsKept s GLB_RQ_CQ_TAIL_TAIL next 0 (rqOff q)
  have hdef : s.tailNext q = if next = 0 then (s.wr GLB_RQ_CQ_TAIL_TAIL next 0 (rqOff q)).wr GLB_RQ_CQ_TAIL_PHASE (1 - phase) 0 (rqOff q)
    else s.wr GLB_RQ_CQ_TAIL_TAIL next 0 (rqOff q) := rfl
  rw [hdef]
  split
  · refine ⟨?_, ?_, hkept.trans (State.wr_regsKept _ GLB_RQ_CQ_TAIL_PHASE _ 0 (rqOff q)), rfl⟩
    · rw [State.rd_wr_apart _ _ _ _ _ _ _ _ (by decide) (by decide) (by decide) (by decide), htail]
    · rw [State.rd_wr_same _ _ _ _ _ (by decide) (by decide)]
      exact Nat.mod_eq_of_lt (by show 1 - phase < 2; omega)
  · exact ⟨htail, State.rd_wr_apart _ _ _ _ _ _ _ _ (by decide) (by decide) (by decide) (by decide), hkept, rfl⟩

theorem State.postNow_posted {s : State} (q : Nat) (p : Posting) (hup : s.pcieUp = true) : Posted s (s.postNow q p) q p := by
  obtain ⟨c, hc⟩ : ∃ c, Out.completion q (s.rd GLB_RQ_CQ_TAIL_TAIL 0 (rqOff q))
    (BitVec.ofNat 64 (p.cmdId + p.status * 2 ^ 16 + q * 2 ^ 24 + s.rd GLB_RQ_CQ_TAIL_PHASE 0 (rqOff q) * 2 ^ 31 + p.head * 2 ^ 32)) p.result = c := ⟨_, rfl⟩
  obtain ⟨u, hu⟩ : ∃ u, (s.emit c).tailNext q = u := ⟨_, rfl⟩
  have hpost : s.postNow q p = if p.notify then u.rqMsix q else u := by
    unfold State.postNow
    rw [if_neg (by simp [hup]), ← hu, ← hc]
    rfl
  obtain ⟨htail, hphase, hkept, hframe⟩ := (s.emit c).tailNext_reads q
  rw [hu] at htail hphase hkept hframe
  have hout : u.out = c :: s.out := by rw [hframe]; rfl
  have hrqs : u.rqs = s.rqs := by rw [hframe]; rfl
  rw [hpost]
  split
  · next hnotify =>
    obtain ⟨l, hl, hlen⟩ := u.rqMsix_out q
    have hrd (f : Fld) : (u.rqMsix q).rd f 0 (rqOff q) = u.rd f 0 (rqOff q) := State.rd_congr (u.rqMsix_regs q) f 0 (rqOff q)
    exact ⟨⟨l, by rw [hl, hout, hc], hlen, fun h => absurd hnotify (by rw [h]; decide)⟩, (hrd _).trans htail, (hrd _).trans hphase, (u.rqMsix_rqs q).trans hrqs,
      regsKept.trans hkept (regsKept.of_regs (u.rqMsix_regs q) _)⟩
  · exact ⟨⟨[], by rw [hout, hc]; rfl, Nat.zero_le _, fun _ => rfl⟩, htail, hphase, hrqs, hkept⟩

/-- One completion waits on a running queue with room: it is written, and nothing else happens. -/
theorem State.postWaiting_one {s : State} {q : Nat} {p : Posting} (hposts : (s.rq q).posts = [p]) (hrun : s.rqState q = 1) (hroom : s.cqRoom q = true)
    (hup : s.pcieUp = true) : s.postWaiting q = (s.setRq q { s.rq q with posts := [] }).postNow q p := by
  obtain ⟨u, hu⟩ : ∃ u, s.setRq q { s.rq q with posts := [] } = u := ⟨_, rfl⟩
  have hposted : Posted u (u.postNow q p) q p := State.postNow_posted q p (by rw [← hu, State.setRq_pcieUp]; exact hup)
  have hstate : (u.postNow q p).rqState q = 1 := by
    unfold State.rqState
    rw [hposted.kept.rd (by simpa using Fld.key_ne (f := GLB_RQ_CQ_TAIL_TAIL) (g := GLB_RQ_STAT_STATE) 0 (rqOff q) rfl (by decide)), ← hu, State.rd_setRq]
    exact hrun
  have hnone : ((u.postNow q p).rq q).posts = [] := by
    unfold State.rq
    rw [hposted.rqs, ← hu]
    exact congrArg Rq.posts (State.rq_setRq_same s q _)
  have hlast : postAll 1 (u.postNow q p) q = u.postNow q p := by
    unfold postAll
    dsimp only
    rw [hstate, if_neg (by decide), hnone]
    rfl
  unfold State.postWaiting
  rw [hposts]
  show postAll 2 s q = _
  unfold postAll
  dsimp only
  rw [hrun, if_neg (by decide), hposts]
  dsimp only
  rw [if_pos hroom, hu, hlast]

/-- Settles O13: the command's posting is the only one, and `postNow` writes it. -/
theorem completionIsPosted : Obligations.CompletionIsPosted := by
  intro s q st r f fs hq hfetched hghost hposts hrun hroom hup tail phase w0
  obtain ⟨u, hu⟩ : ∃ u, s.setRq q { s.rq q with fetched := fs, running := false, posts := [s.posting q f st r] } = u := ⟨_, rfl⟩
  have hurq : u.rq q = { s.rq q with fetched := fs, running := false, posts := [s.posting q f st r] } := by rw [← hu, State.rq_setRq_same]
  have hcomplete : s.complete q st r = u.postWaiting q := by
    unfold State.complete
    dsimp only
    rw [if_neg (by rw [hghost]; decide), hfetched]
    dsimp only
    rw [hrun, if_neg (by decide), if_neg (by decide), hposts, ← hu]
    rfl
  obtain ⟨v, hv⟩ : ∃ v, u.setRq q { u.rq q with posts := [] } = v := ⟨_, rfl⟩
  have hroom' : u.cqRoom q = true := by rw [← hu]; exact hroom
  have hpost : u.postWaiting q = v.postNow q (s.posting q f st r) :=
    hv ▸ State.postWaiting_one (by rw [hurq]) (by rw [← hu]; exact hrun) hroom' (by rw [← hu]; exact hup)
  have hregs : v.regs = s.regs := by rw [← hv, ← hu]; rfl
  have hsize : v.cqSize q = s.cqSize q := congrArg (2 ^ ·) (State.rd_congr hregs _ _ _)
  have hposted : Posted v (v.postNow q (s.posting q f st r)) q (s.posting q f st r) :=
    State.postNow_posted q _ (by rw [← hv, ← hu]; exact hup)
  have hout : v.out = s.out := by rw [← hv, ← hu]; rfl
  have hvrq : (v.postNow q (s.posting q f st r)).rq q = { s.rq q with fetched := fs, running := false, posts := [] } := by
    unfold State.rq
    rw [hposted.rqs, ← hv]
    refine (State.rq_setRq_same u q _).trans ?_
    rw [hurq]
    rfl
  have htail : v.rd GLB_RQ_CQ_TAIL_TAIL 0 (rqOff q) = tail := State.rd_congr hregs _ _ _
  have hphase : v.rd GLB_RQ_CQ_TAIL_PHASE 0 (rqOff q) = phase := State.rd_congr hregs _ _ _
  obtain ⟨⟨l, hl, hlen, hnone⟩, h1, h2, -, hkept⟩ := hposted
  rw [htail, hphase, hout] at hl
  rw [htail, hsize] at h1 h2
  rw [hphase] at h2
  refine ⟨v.postNow q (s.posting q f st r), hcomplete.trans hpost, ?_, ?_, ?_, ⟨l, hl, hlen, hnone⟩, h1, h2, fun k hk => ?_⟩
  · rw [hvrq]
  · rw [hvrq]
  · rw [hvrq]
  · rw [hkept k hk]
    exact State.reg_congr hregs k

/-! ### A command in execution -/

/-- Marking a command as in execution touches the queues and the round alone. -/
theorem State.running_eq (s : State) (q : Nat) : s.running q = { s with rqs := (s.running q).rqs, ccx := (s.running q).ccx } := by
  unfold State.running
  dsimp only
  split <;> rfl

@[simp] theorem State.running_regs (s : State) (q : Nat) : (s.running q).regs = s.regs := (congrArg State.regs (s.running_eq q)).trans rfl
@[simp] theorem State.running_tier (s : State) (q : Nat) : (s.running q).tier = s.tier := (congrArg State.tier (s.running_eq q)).trans rfl
@[simp] theorem State.running_twinB (s : State) (q : Nat) : (s.running q).twinB = s.twinB := (congrArg State.twinB (s.running_eq q)).trans rfl
@[simp] theorem State.running_out (s : State) (q : Nat) : (s.running q).out = s.out := (congrArg State.out (s.running_eq q)).trans rfl
@[simp] theorem State.running_pcieUp (s : State) (q : Nat) : (s.running q).pcieUp = s.pcieUp := (congrArg State.pcieUp (s.running_eq q)).trans rfl
@[simp] theorem State.running_pair (s : State) (q : Nat) : (s.running q).pair = s.pair := (congrArg State.pair (s.running_eq q)).trans rfl

/-- The tables of a page are those of another moment with the same pool. -/
theorem State.tableAt_congr {s t : State} (h : t.tier = s.tier) (page k : Nat) : t.tableAt page k = s.tableAt page k := by
  unfold State.tableAt
  rw [h]

theorem State.badEntries_congr {s t : State} (h : t.twinB = s.twinB) (page k first count : Nat) : t.badEntries page k first count = s.badEntries page k first count := by
  unfold State.badEntries
  rw [h]

theorem State.locked_congr {s t : State} (h : t.regs = s.regs) (page : Nat) : t.locked page = s.locked page := by
  unfold State.locked
  rw [State.rd_congr h]

/-- Asking for lines of the Hearth changes what waits at its banks, and takes a free value. -/
theorem State.askIn_eq (s : State) (who : Requester) (baseMib sizeMib lines : Nat) :
    s.askIn who baseMib sizeMib lines =
      { s with banks := (s.askIn who baseMib sizeMib lines).banks, freeNext := (s.askIn who baseMib sizeMib lines).freeNext } := by
  unfold State.askIn
  split
  · rfl
  · refine List.foldlRecOn (motive := fun t : State => t = { s with banks := t.banks, freeNext := t.freeNext }) _ _ rfl (fun t ht j _ => ?_)
    exact congrArg (fun x : State => ({ x with banks := (t.ask who _).banks } : State)) ht

theorem State.askTable_eq (s : State) (page bytes : Nat) :
    s.askTable page bytes = { s with banks := (s.askTable page bytes).banks, freeNext := (s.askTable page bytes).freeNext } := by
  unfold State.askTable
  split
  · exact s.askIn_eq ..
  · rfl

/-- A general command that may run is carried out by its meaning (R60, R497 checks 1 to 5). -/
theorem State.generalCmd_mayRun {s : State} {q op : Nat} {c : RqCmd} (h : s.mayRun q c op false) (f : State → RqCmd → State) :
    s.generalCmd q op f = f (s.running q) c := by
  obtain ⟨hstart, hop, hcheck⟩ := h
  unfold State.generalCmd
  rw [hstart]
  dsimp only
  rw [if_pos hop, hcheck]

section
variable {s : State} {q : Nat} {c : RqCmd} {d : TableDesc} (hz : RqOperandsZero c = true) (htable : s.tableAt c.page c.table = some d)
include hz htable

theorem State.tableCmd_info (h : s.mayRun q c 4 false) (f : State → RqCmd → TableDesc → State) : s.tableCmd q 4 f = f (s.running q) c d := by
  unfold State.tableCmd
  rw [State.generalCmd_mayRun h, State.tableAt_congr (s.running_tier q), htable]
  dsimp only
  rw [if_pos rfl, if_pos hz]

/-- A table command with entries: its length agrees and its entries lie in the table (R497 checks 6 to 8). -/
theorem State.tableCmd_entries {op : Nat} (hop : op ≠ 4) (h : s.mayRun q c op false) (hlen : c.length = c.count * (8 * d.words)) (hcount : 0 < c.count)
    (hin : c.index + c.count ≤ d.entries) (f : State → RqCmd → TableDesc → State) : s.tableCmd q op f = f (s.running q) c d := by
  have hbad : (decide (c.count = 0) || decide (d.entries < c.index + c.count)) = false := by
    rw [decide_eq_false (by omega), decide_eq_false (by omega)]
    rfl
  unfold State.tableCmd
  rw [State.generalCmd_mayRun h, State.tableAt_congr (s.running_tier q), htable]
  dsimp only
  rw [if_neg hop, if_neg (by rw [hlen, hz]; simp), if_neg (by rw [hbad]; decide)]

end

/-! ### TABLE_READ and TABLE_WRITE (R60, R62) -/

/-- A buffer write that is transmitted. -/
theorem State.dmaWrite_up {s : State} (h : s.pcieUp = true) (addr : Nat) (ws : List Word64) :
    s.dmaWrite addr ws = (s.emit (.dma (BitVec.ofNat 64 addr) ws), true) := by
  unfold State.dmaWrite
  rw [if_pos h]

theorem exec_tableRead {s : State} {q : Nat} {c : RqCmd} {d : TableDesc} (h : s.mayRun q c 2 false) (hz : RqOperandsZero c = true)
    (htable : s.tableAt c.page c.table = some d) (hlen : c.length = c.count * (8 * d.words)) (hcount : 0 < c.count) (hin : c.index + c.count ≤ d.entries)
    (hup : s.pcieUp = true) :
    let u := (s.running q).askTable c.page (8 * d.words * c.count)
    let entries := (List.range c.count).map (fun k => c.index + k)
    exec (.tableRead q) s = .next ((entries.foldl (fun (u : State) i => u.afterTableRead c.page i)
      (u.emit (.dma (BitVec.ofNat 64 c.dataAddr) (entries.flatMap (fun i => u.tableEntry c.page c.table i))))).finishCmd q stOk (c.count * 2 ^ 32)).settle := by
  intro u entries
  have hu : u.pcieUp = true := by
    unfold u
    rw [State.askTable_eq, ← hup]
    exact s.running_pcieUp q
  refine congrArg (fun t : State => Host.Outcome.next t.settle) ?_
  unfold State.tableRead
  rw [State.tableCmd_entries hz htable (by decide) h hlen hcount hin]
  dsimp only
  rw [State.dmaWrite_up hu]
  rfl

theorem refusedStatus_ne_ok (page : Nat) : refusedStatus page ≠ stOk := by
  unfold refusedStatus
  split <;> decide

/-- Entries are written until one is refused: OK is answered where none was. -/
theorem writeEntries_count {page k : Nat} {config : Bool} {es : List (Nat × List Word64)} {s t : State} {n m st : Nat} {ch ch' : Bool}
    (h : writeEntries page k config es s n ch = (t, m, st, ch')) : (st = stOk → m = n + es.length) ∧ m ≤ n + es.length := by
  induction es generalizing s n ch with
  | nil =>
    obtain ⟨-, rfl, -, -⟩ := Prod.mk.injEq .. ▸ h
    simp
  | cons e es ih =>
    unfold writeEntries at h
    split at h
    · simp only [Prod.mk.injEq] at h
      obtain ⟨-, rfl, rfl, -⟩ := h
      exact ⟨fun hok => absurd hok (refusedStatus_ne_ok page), by omega⟩
    · have hrest := ih h
      rw [List.length_cons]
      omega

/-- A buffer that holds all the words asked for holds all the entries. -/
theorem entriesOf_length {words index count : Nat} {data : List Word64} (hw : 0 < words) (h : count * words ≤ data.length) :
    (entriesOf words index count data).length = count := by
  have hall : count ≤ data.length / words := (Nat.le_div_iff_mul_le hw).mpr h
  unfold entriesOf
  rw [List.length_map, List.length_range, Nat.min_eq_left hall]

/-- TABLE_WRITE of an unprotected table whose buffer could be read whole, up to the entries' validation. -/
theorem exec_tableWrite {s : State} {q : Nat} {c : RqCmd} {d : TableDesc} {data : List Word64} (h : s.mayRun q c 3 false) (hz : RqOperandsZero c = true)
    (htable : s.tableAt c.page c.table = some d) (hlen : c.length = c.count * (8 * d.words)) (hcount : 0 < c.count) (hin : c.index + c.count ≤ d.entries)
    (hbad : s.badEntries c.page c.table c.index c.count = false) (hfw : d.fw = false) (hwritable : d.writable = true) (hlock : (d.config && s.locked c.page) = false)
    (hprot : d.prot = none) (hdata : c.count * d.words ≤ data.length) (hwords : 0 < d.words) {t : State} {n st : Nat} {ch : Bool}
    (hwrite : writeEntries c.page c.table d.config (entriesOf d.words c.index c.count data) ((s.running q).askTable c.page (8 * d.words * c.count)) 0 false = (t, n, st, ch)) :
    let u := if ch then t.bumpGen c.page else t
    let late := if c.page = 0x10 ∧ c.table = 0 then (((entriesOf d.words c.index c.count data).take n).map Prod.fst).filter (fun i => (u.run i).disarm) else []
    exec (.tableWrite q data) s = .next (if late = [] then u.finishCmd q st (n * 2 ^ 32 + u.rd PG_GEN_GEN c.page)
      else { u with chains := { u.chains with tableWaits := u.chains.tableWaits ++ [⟨q, st, n * 2 ^ 32 + u.rd PG_GEN_GEN c.page, late⟩] } }).settle := by
  intro u late
  refine congrArg (fun t : State => Host.Outcome.next t.settle) ?_
  unfold State.tableWrite
  rw [State.tableCmd_entries hz htable (by decide) h hlen hcount hin]
  dsimp only
  rw [State.badEntries_congr (s.running_twinB q), State.locked_congr (s.running_regs q), hbad, hfw, hwritable, hlock, entriesOf_length hwords hdata, hprot]
  rw [if_neg Bool.false_ne_true, if_neg Bool.false_ne_true, if_neg (by decide), if_neg Bool.false_ne_true, hwrite]
  dsimp only
  rw [decide_eq_false (Nat.lt_irrefl c.count), Bool.and_false, if_neg Bool.false_ne_true]
  simp only [Bool.and_eq_true, decide_eq_true_eq, List.isEmpty_iff]
  rfl

/-! ### REG_WRITE_BATCH (R61, R62) -/

theorem exec_regWriteBatch {s : State} {q : Nat} {c : RqCmd} {data : List Word64} (h : s.mayRun q c 5 false) (hz : RqOperandsZero c = true)
    (hlen : c.length = 16 * c.count) (hcount : 0 < c.count) (hdata : c.length ≤ 8 * data.length)
    (hoffs : (pairsOf c.count data).all (fun x => batchOffOk c.page x.1) = true) (hfw : (pairsOf c.count data).any (fun x => fwRegister c.page x.1) = false)
    (hlock : s.locked c.page = false) : exec (.regWriteBatch q data) s = .next ((s.running q).batchRun q c.page (pairsOf c.count data)).settle := by
  refine congrArg (fun t : State => Host.Outcome.next t.settle) ?_
  unfold State.regWriteBatch
  rw [State.generalCmd_mayRun h]
  dsimp only
  rw [if_neg (by rw [hlen, hz]; simp), if_neg (by omega), if_neg (by omega), State.locked_congr (s.running_regs q), hlock, hoffs, hfw]
  rfl

/-- Every pair is admitted and they apply in order: the batch waits for its pair-wide settings, or ends (R62, R350). -/
theorem State.batchRun_applied {s t : State} {q page : Nat} {ps : List (Nat × Word64)} (hnone : ∀ x ∈ ps, s.pairRefused page x = none)
    (happly : applyPairs q page ps { s with pair := { s.pair with batches := s.pair.batches
      ++ [{ q := q, page := page, offs := (ps.map Prod.fst).filter (fun o => pairWide page o), count := ps.length, changed := false }] } } = some t) :
    s.batchRun q page ps = t.batchDone := by
  unfold State.batchRun
  rw [List.findSome?_eq_none_iff.mpr hnone]
  dsimp only
  rw [happly]

theorem pairsOf_length (n : Nat) (data : List Word64) : (pairsOf n data).length = n := by
  unfold pairsOf
  rw [List.length_map, List.length_range]

/-! ### Fetching (R55, R58) -/

/-- The state behind the fetch of a command, before the queue goes on. -/
def State.fetched (s : State) (q : Nat) (c : RqCmd) (b : Nat × Nat) (bs : List (Nat × Nat)) : State :=
  let head := s.rd GLB_RQ_SQ_HEAD_HEAD 0 (rqOff q)
  let next := (head + 1) % s.sqSize q
  (s.setRq q { s.rq q with fetched := (s.rq q).fetched ++ [⟨c, head, b.2⟩], bells := if next = b.1 then bs else b :: bs }).wr GLB_RQ_SQ_HEAD_HEAD next 0 (rqOff q)

theorem State.commandFetch_fetchable {s : State} {q : Nat} (c : RqCmd) {b : Nat × Nat} {bs : List (Nat × Nat)} (hf : s.fetchable q = true) (hup : s.pcieUp = true)
    (hbells : (s.rq q).bells = b :: bs) : s.commandFetch q c = (s.fetched q c b bs).advance q := by
  unfold State.commandFetch
  rw [hf, hup]
  dsimp only
  rw [if_neg (by decide), hbells]
  rfl

/-- A place of a submission ring fits its field. -/
theorem State.sqPlace_lt (s : State) (q n : Nat) : n % s.sqSize q < 2 ^ 16 := by
  have hsize : s.rd GLB_RQ_CTRL_SQ_SIZE 0 (rqOff q) < 16 := s.rd_lt ..
  have hpow : s.sqSize q ≤ 2 ^ 16 := Nat.pow_le_pow_right (by decide) (by omega)
  exact lt_of_lt_of_le (Nat.mod_lt _ (Nat.two_pow_pos _)) hpow

theorem State.dmaTimeout_fetch {s : State} {q : Nat} (h : s.fetchable q = true) (data : List Word64) :
    s.dmaTimeout q true data = s.rqError q 3 (s.rd GLB_RQ_SQ_HEAD_HEAD 0 (rqOff q)) := by
  unfold State.dmaTimeout
  rw [if_pos rfl, if_pos h]

theorem State.dmaTimeout_tableWrite {s : State} {q : Nat} {c : RqCmd} (hstart : s.startable q = some c) (hop : c.opcode = 3) (data : List Word64) :
    s.dmaTimeout q false data = s.tableWrite q (data.take (c.length / 8 - 1)) := by
  unfold State.dmaTimeout
  rw [if_neg Bool.false_ne_true, hstart]
  dsimp only
  unfold State.bufferFails
  rw [hop]
  rfl

/-- Settles O14, command by command. -/
theorem queueCommands : Obligations.QueueCommands := by
  refine ⟨fun s q c => ⟨fun h hz => ?_, fun d h hz htable => ?_, fun d h hz htable hlen hcount hin hup => ?_,
    fun d data h hz htable hlen hcount hin hbad hfw hwritable hlock hprot hdata hwords => ?_, fun data h hz hlen hcount hdata hoffs hfw hlock hnone t happly => ?_⟩,
    fun s q hq => ⟨fun c b bs hf hup hbells => ?_, fun data hf => ?_, fun c data hstart hop => ?_⟩⟩
  · refine congrArg (fun t : State => Host.Outcome.next t.settle) ?_
    unfold State.nop
    rw [State.generalCmd_mayRun h, if_pos hz]
  · refine congrArg (fun t : State => Host.Outcome.next t.settle) ?_
    unfold State.tableInfo
    rw [State.tableCmd_info hz htable h]
  · refine ⟨_, exec_tableRead h hz htable hlen hcount hin hup, ?_, rfl⟩
    show _ :: ((s.running q).askTable c.page (8 * d.words * c.count)).out = _
    rw [State.askTable_eq]
    exact congrArg _ (s.running_out q)
  · obtain ⟨⟨t, n, st, ch⟩, hwrite⟩ : ∃ r, writeEntries c.page c.table d.config (entriesOf d.words c.index c.count data)
      ((s.running q).askTable c.page (8 * d.words * c.count)) 0 false = r := ⟨_, rfl⟩
    have hn := writeEntries_count hwrite
    rw [entriesOf_length hwords hdata, Nat.zero_add] at hn
    exact ⟨t, n, st, ch, hwrite, hn.1, hn.2, exec_tableWrite h hz htable hlen hcount hin hbad hfw hwritable hlock hprot hdata hwords hwrite⟩
  · rw [exec_regWriteBatch h hz hlen hcount hdata hoffs hfw hlock]
    refine congrArg (fun t : State => Host.Outcome.next t.settle) (State.batchRun_applied hnone ?_)
    rw [pairsOf_length, State.running_pair]
    exact happly
  · refine ⟨s.fetched q c b bs, congrArg (fun t : State => Host.Outcome.next t.settle) (State.commandFetch_fetchable c hf hup hbells), ?_, ?_, ?_, ?_, rfl⟩
    · exact congrArg Rq.fetched (State.rq_setRq_same s q _)
    · exact (State.rd_wr_same _ _ _ _ _ (by decide) (by decide)).trans (Nat.mod_eq_of_lt (s.sqPlace_lt q _))
    · exact congrArg Rq.bells (State.rq_setRq_same s q _)
    · exact fun k hk => State.wr_regsKept (s.setRq q _) GLB_RQ_SQ_HEAD_HEAD _ 0 (rqOff q) k hk
  · exact ⟨_, congrArg (fun t : State => Host.Outcome.next t.settle) (State.dmaTimeout_fetch hf data), State.rqError_reads s q _ (by decide)⟩
  · exact congrArg (fun t : State => Host.Outcome.next t.settle) (State.dmaTimeout_tableWrite hstart hop data)

end Sys2Proof.Machine
end

section
/-! PROOFS. Settings the operator writes: a number in a register's low bits, the operating point, and the pair-wide settings that wait for
their epoch (O16). -/

namespace Sys2Proof.Machine

/-! ### A number in the low bits of a register -/

/-- The low bits of a word, as a word. -/
theorem and_lowMask (w : Word64) {hi : Nat} (hhi : hi < 64) : w &&& BitVec.ofNat 64 (2 ^ (hi + 1) - 1) = BitVec.ofNat 64 (bits w hi 0) := by
  have hpow : 2 ^ (hi + 1) ≤ 2 ^ 64 := Nat.pow_le_pow_right (by decide) (by omega)
  have hpos : 0 < 2 ^ (hi + 1) := Nat.two_pow_pos _
  apply BitVec.eq_of_toNat_eq
  unfold bits
  rw [BitVec.toNat_and, BitVec.toNat_ofNat, Nat.mod_eq_of_lt (by omega), Nat.and_two_pow_sub_one_eq_mod, BitVec.toNat_ofNat, Nat.shiftRight_zero]
  exact (Nat.mod_eq_of_lt (lt_of_lt_of_le (Nat.mod_lt _ hpos) hpow)).symm

theorem and_lowMask_inj {a b : Word64} {hi : Nat} (hhi : hi < 64) :
    a &&& BitVec.ofNat 64 (2 ^ (hi + 1) - 1) = b &&& BitVec.ofNat 64 (2 ^ (hi + 1) - 1) ↔ bits a hi 0 = bits b hi 0 := by
  have hlt (w : Word64) : bits w hi 0 < 2 ^ (hi + 1) := bits_lt ..
  rw [and_lowMask a hhi, and_lowMask b hhi]
  refine ⟨fun h => ?_, fun h => congrArg _ h⟩
  rw [← bits_ofNat_of_lt hhi (hlt a), h, bits_ofNat_of_lt hhi (hlt b)]

theorem xor_and_eq_zero {a b m : Word64} : (a ^^^ b) &&& m = 0 ↔ a &&& m = b &&& m := by
  have hdist : (a ^^^ b) &&& m = (a &&& m) ^^^ (b &&& m) := BitVec.eq_of_getLsbD_eq fun i _ => by simp [Bool.and_xor_distrib_right]
  rw [hdist]
  exact BitVec.xor_eq_zero_iff

theorem getLsbD_lowMask {hi i : Nat} (hhi : hi < 64) (h : i ≤ hi) : (BitVec.ofNat 64 (2 ^ (hi + 1) - 1)).getLsbD i = true := by
  rw [BitVec.getLsbD_ofNat, Nat.testBit_two_pow_sub_one]
  simp
  omega

section
variable {page off hi : Nat} {d : RegDesc} {s : State} (h : PlainReg page off d) (hm : d.rwMask = BitVec.ofNat 64 (2 ^ (hi + 1) - 1)) (hhi : hi < 64)
  (hcfg : ∀ f ∈ d.fields, isControl page off f = false) (hh : s.hidden false page = false) (hfz : s.frozenBy page = 0)
include h hm hhi hcfg hh hfz

/-- A number that fits and that the register's condition admits: the field holds it, PG_GEN counts a change (R46), and what the write starts follows. -/
theorem PlainReg.put_number (hpair : pairWide page off = false) {n : Nat} (hn : n < 2 ^ (hi + 1))
    (hok : ∀ w op, bits w hi 0 = n → s.writeOk page off w op = true) :
    ∃ (t : State) (old new : Word64), s.put page off (BitVec.ofNat 64 n) = (t.afterWrite page off old new (BitVec.ofNat 64 n)).settle
      ∧ bits (t.reg (regKey page off)) hi 0 = n
      ∧ t.rd PG_GEN_GEN page = (s.rd PG_GEN_GEN page + b2n (bits (s.reg (regKey page off)) hi 0 != n)) % 2 ^ 32
      ∧ regsKept s t [regKey page off, regKey page 0x38] ∧ t = { s with regs := t.regs } := by
  obtain ⟨old, hold⟩ : ∃ w, s.reg (regKey page off) = w := ⟨_, rfl⟩
  obtain ⟨new, hnew⟩ : ∃ w, mix d.rwMask old (BitVec.ofNat 64 n) = w := ⟨_, rfl⟩
  have hin : bits new hi 0 = n := by
    rw [← hnew, hm, bits_mix_in (fun i _ hi' => getLsbD_lowMask hhi hi'), bits_ofNat_of_lt hhi hn]
  have hoff : off ≠ 0x38 := by
    have := h.place.1
    omega
  have hchange : ((new ^^^ old) &&& configMask page off != 0) = (bits old hi 0 != n) := by
    rw [h.configMask_rw hcfg, hm, Bool.eq_iff_iff, bne_iff_ne, bne_iff_ne, ne_eq, ne_eq, xor_and_eq_zero, and_lowMask_inj hhi, hin, eq_comm]
  refine ⟨s.stored page off old new, old, new, ?_, ?_, ?_, s.stored_regsKept _ _ _ _, s.stored_eq ..⟩
  · rw [h.put _ hh hpair (.inl hfz) (by rw [hold, hnew]; exact hok _ _ hin), hold, hnew]
  · rw [s.stored_reg_of_old hoff new hold, hin]
  · rw [s.stored_gen hoff, hchange, hold]

/-- A change of a pair-wide setting while an epoch is open is staged in it (R350). -/
theorem PlainReg.put_pairWide (hpair : pairWide page off = true) {v : Word64} {e : Epoch} (hslot : s.openSlot = some e)
    (hdiff : bits (s.reg (regKey page off)) hi 0 ≠ bits v hi 0) (hok : ∀ w op, bits w hi 0 = bits v hi 0 → s.writeOk page off w op = true) :
    s.put page off v = (s.stageSetting e.n page off (BitVec.ofNat 64 (bits v hi 0))).settle := by
  obtain ⟨old, hold⟩ : ∃ w, s.reg (regKey page off) = w := ⟨_, rfl⟩
  obtain ⟨new, hnew⟩ : ∃ w, mix d.rwMask old v = w := ⟨_, rfl⟩
  have hin : bits new hi 0 = bits v hi 0 := by
    rw [← hnew, hm, bits_mix_in (fun i _ hi' => getLsbD_lowMask hhi hi')]
  have hne : new ≠ old := fun k => hdiff (by rw [hold, ← hin, k])
  unfold State.put
  rw [h.busWrite v hh (.inl hfz) (by rw [hold, hnew]; exact hok _ _ hin), hold, hnew]
  unfold State.storeReg State.pairConfig
  rw [if_pos hpair, decide_eq_false hne, hfz, h.configMask_rw hcfg, hm, and_lowMask new hhi, hin, hslot]
  rfl

end

/-! ### Staging -/

theorem State.stage_configWait (s : State) (r : EpochRec) : (s.stage r).pair.configWait = s.pair.configWait := by
  unfold State.stage
  split <;> rfl

/-- A setting that is staged waits for its epoch, and nothing but the pair's state changes. -/
theorem State.stageSetting_pair (s : State) (n page off : Nat) (v : Word64) :
    (s.stageSetting n page off v).pair.configWait = s.pair.configWait ++ [(n, .config page off v)]
    ∧ s.stageSetting n page off v = { s with pair := (s.stageSetting n page off v).pair } := by
  refine ⟨congrArg (· ++ [(n, EpochRec.config page off v)]) (s.stage_configWait _), ?_⟩
  exact (congrArg (fun t : State => ({ t with pair := (s.stageSetting n page off v).pair } : State)) (s.stage_eq (.config page off v)) :)

/-! ### The registers -/

def holdupMsDesc : RegDesc := ⟨0x200, 1, 0x8, 0, [⟨19, 0, .rw⟩]⟩
def holdupWDesc : RegDesc := ⟨0x208, 1, 0x8, 0, [⟨15, 0, .rw⟩]⟩
def dirtyBudgetDesc : RegDesc := ⟨0x108, 1, 0x8, 0x80000, [⟨21, 0, .rw⟩]⟩
def opDesc : RegDesc := ⟨0x1D8, 1, 0x8, 0x6400190F00, [⟨47, 32, .rw⟩, ⟨23, 16, .rw⟩, ⟨15, 8, .rw⟩, ⟨1, 0, .rw⟩]⟩
def poolCfgDesc : RegDesc := ⟨0x100, 1, 0x8, 0, [⟨51, 32, .ro⟩, ⟨17, 0, .rw⟩]⟩
def epochNsDesc : RegDesc := ⟨0x140, 1, 0x8, 0x1F4, [⟨14, 0, .rw⟩]⟩

theorem holdupMs_plain : PlainReg 1 0x200 holdupMsDesc := ⟨by decide, by decide, by decide, by decide⟩
theorem holdupW_plain : PlainReg 1 0x208 holdupWDesc := ⟨by decide, by decide, by decide, by decide⟩
theorem op_plain : PlainReg 1 0x1D8 opDesc := ⟨by decide, by decide, by decide, by decide⟩
theorem dirtyBudget_plain : PlainReg 0xA 0x108 dirtyBudgetDesc := ⟨by decide, by decide, by decide, by decide⟩
theorem poolCfg_plain : PlainReg 0xA 0x100 poolCfgDesc := ⟨by decide, by decide, by decide, by decide⟩
theorem epochNs_plain : PlainReg 0xB 0x140 epochNsDesc := ⟨by decide, by decide, by decide, by decide⟩

section
variable {s : State}

theorem exec_holdupMsWrite {ms : Nat} (hh : s.hidden false 1 = false) (hfz : s.frozenBy 1 = 0) (hms : ms = 0 ∨ (601 ≤ ms ∧ ms ≤ 600000)) :
    ∃ t : State, exec (.holdupMsWrite ms) s = .next t.holdupMs.settle ∧ t.rd PWR_HOLDUP_MS_MS = ms
      ∧ t.rd PG_GEN_GEN 1 = (s.rd PG_GEN_GEN 1 + b2n (s.rd PWR_HOLDUP_MS_MS != ms)) % 2 ^ 32
      ∧ regsKept s t [PWR_HOLDUP_MS_MS.key, regKey 1 0x38] ∧ t = { s with regs := t.regs } := by
  have hlt : ms < 2 ^ 20 := by omega
  have hok (w op : Word64) (hw : bits w 19 0 = ms) : s.writeOk 1 0x200 w op = true := by
    show (bits w 19 0 == 0 || inRange 601 600000 (bits w 19 0)) = true
    rw [hw]
    simp [inRange]
    omega
  obtain ⟨t, old, new, hput, hreg, hgen, hkept, hframe⟩ := holdupMs_plain.put_number (hi := 19) (by decide) (by decide) (by decide) hh hfz (by decide) hlt hok
  refine ⟨t, ?_, hreg, hgen, hkept, hframe⟩
  show (.next (s.put 1 0x200 (BitVec.ofNat 64 (ms % 2 ^ 20))) : Res) = _
  rw [Nat.mod_eq_of_lt hlt, hput]
  rfl

theorem exec_holdupWWrite {w : Nat} (hh : s.hidden false 1 = false) (hfz : s.frozenBy 1 = 0) (hw : w = 0 ∨ (150 ≤ w ∧ w ≤ 1000)) :
    ∃ t : State, exec (.holdupWWrite w) s = .next t.autoSave.startProbe.settle ∧ t.rd PWR_HOLDUP_W_W = w
      ∧ regsKept s t [PWR_HOLDUP_W_W.key, regKey 1 0x38] ∧ t = { s with regs := t.regs } := by
  have hlt : w < 2 ^ 16 := by omega
  have hok (v op : Word64) (hv : bits v 15 0 = w) : s.writeOk 1 0x208 v op = true := by
    show (bits v 15 0 == 0 || inRange 150 1000 (bits v 15 0)) = true
    rw [hv]
    simp [inRange]
    omega
  obtain ⟨t, old, new, hput, hreg, -, hkept, hframe⟩ := holdupW_plain.put_number (hi := 15) (by decide) (by decide) (by decide) hh hfz (by decide) hlt hok
  refine ⟨t, ?_, hreg, hkept, hframe⟩
  show (.next (s.put 1 0x208 (BitVec.ofNat 64 (w % 2 ^ 16))) : Res) = _
  rw [Nat.mod_eq_of_lt hlt, hput]
  rfl

theorem exec_dirtyBudgetWrite {mib : Nat} (hh : s.hidden false 0xA = false) (hfz : s.frozenBy 0xA = 0) (hbad : s.budgetBad mib = false) :
    ∃ t : State, exec (.dirtyBudgetWrite mib) s = .next t.budgetRecompute.settle ∧ t.rd TIR_DIRTY_BUDGET_BUDGET_MIB = mib
      ∧ regsKept s t [TIR_DIRTY_BUDGET_BUDGET_MIB.key, regKey 0xA 0x38] ∧ t = { s with regs := t.regs } := by
  have hlt : mib < 2 ^ 22 := by
    unfold State.budgetBad at hbad
    simp only [Bool.or_eq_false_iff, decide_eq_false_iff_not] at hbad
    omega
  have hok (v op : Word64) (hv : bits v 21 0 = mib) : s.writeOk 0xA 0x108 v op = true := by
    show (!s.budgetBad (bits v 21 0)) = true
    rw [hv, hbad]
    rfl
  obtain ⟨t, old, new, hput, hreg, -, hkept, hframe⟩ := dirtyBudget_plain.put_number (hi := 21) (by decide) (by decide) (by decide) hh hfz (by decide) hlt hok
  refine ⟨t, ?_, hreg, hkept, hframe⟩
  show (.next (s.put 0xA 0x108 (BitVec.ofNat 64 (mib % 2 ^ 22))) : Res) = _
  rw [Nat.mod_eq_of_lt hlt, hput]
  rfl

theorem exec_opWrite {v : Word64} (hh : s.hidden false 1 = false) (hfz : s.frozenBy 1 = 0) (hdwell : 1 ≤ bits v 47 32) (hmode : bits v 1 0 ≠ 3)
    (hpct : bits v 15 8 < bits v 23 16) :
    ∃ t : State, exec (.opWrite v) s = .next ({ t with pwr := { t.pwr with avsFailed := false } }).opEval.settle
      ∧ t.rd PWR_OP_DWELL_MS = bits v 47 32 ∧ t.rd PWR_OP_MODE = bits v 1 0 ∧ t.rd PWR_OP_BK_PCT = bits v 15 8 ∧ t.rd PWR_OP_FD_PCT = bits v 23 16
      ∧ regsKept s t [PWR_OP_MODE.key, regKey 1 0x38] ∧ t = { s with regs := t.regs } := by
  obtain ⟨old, hold⟩ : ∃ w, s.reg (regKey 1 0x1D8) = w := ⟨_, rfl⟩
  obtain ⟨new, hnew⟩ : ∃ w, mix opDesc.rwMask old v = w := ⟨_, rfl⟩
  have hfield {hi lo : Nat} (hin : ∀ i < 64, lo ≤ i → i ≤ hi → opDesc.rwMask.getLsbD i = true) (h64 : hi < 64) : bits new hi lo = bits v hi lo := by
    rw [← hnew]
    exact bits_mix_in (getLsbD_range hin h64)
  have hD : bits new 47 32 = bits v 47 32 := hfield (by decide) (by decide)
  have hM : bits new 1 0 = bits v 1 0 := hfield (by decide) (by decide)
  have hB : bits new 15 8 = bits v 15 8 := hfield (by decide) (by decide)
  have hF : bits new 23 16 = bits v 23 16 := hfield (by decide) (by decide)
  have hok : s.writeOk 1 0x1D8 new v = true := by
    show (decide (1 ≤ bits new 47 32) && bits new 1 0 != 3 && decide (bits new 15 8 < bits new 23 16)) = true
    rw [hD, hM, hB, hF]
    simp [hdwell, hmode, hpct]
  have hreg : (s.stored 1 0x1D8 old new).reg (regKey 1 0x1D8) = new := s.stored_reg_of_old (by decide) new hold
  refine ⟨s.stored 1 0x1D8 old new, ?_, (congrArg (bits · 47 32) hreg).trans hD, (congrArg (bits · 1 0) hreg).trans hM, (congrArg (bits · 15 8) hreg).trans hB,
    (congrArg (bits · 23 16) hreg).trans hF, s.stored_regsKept _ _ _ _, s.stored_eq ..⟩
  show (.next (s.put 1 0x1D8 v) : Res) = _
  rw [op_plain.put v hh (by decide) (.inl hfz) (by rw [hold, hnew]; exact hok), hold, hnew]
  rfl

theorem exec_poolResize {n : Nat} {e : Epoch} (hh : s.hidden false 0xA = false) (hfz : s.frozenBy 0xA = 0) (hpool : s.poolRefused n = false) (hn : n < 2 ^ 18)
    (hdiff : s.rd TIR_POOL_CFG_REGIONS ≠ n) (hslot : s.openSlot = some e) :
    exec (.poolResize n) s = .next (s.stageSetting e.n 0xA 0x100 (BitVec.ofNat 64 n)).settle := by
  have hbits : bits (BitVec.ofNat 64 n) 17 0 = n := bits_ofNat_of_lt (by decide) hn
  have hok (w op : Word64) (hw : bits w 17 0 = bits (BitVec.ofNat 64 n) 17 0) : s.writeOk 0xA 0x100 w op = true := by
    show (!s.poolRefused (bits w 17 0)) = true
    rw [hw, hbits, hpool]
    rfl
  have hput := poolCfg_plain.put_pairWide (hi := 17) (v := BitVec.ofNat 64 n) (by decide) (by decide) (by decide) hh hfz (by decide) hslot (by rw [hbits]; exact hdiff) hok
  show (.next (s.put 0xA 0x100 (BitVec.ofNat 64 (n % 2 ^ 18))) : Res) = _
  rw [Nat.mod_eq_of_lt hn, hput, hbits]

theorem exec_epochNsWrite {v : Word64} {e : Epoch} (hh : s.hidden false 0xB = false) (hfz : s.frozenBy 0xB = 0) (hlo : 125 ≤ bits v 14 0) (hhi : bits v 14 0 ≤ 16000)
    (hdiff : s.rd MIR_EPOCH_NS_NS ≠ bits v 14 0) (hslot : s.openSlot = some e) :
    exec (.pairConfigWrite 0xB 0x140 v) s = .next (s.stageSetting e.n 0xB 0x140 (BitVec.ofNat 64 (bits v 14 0))).settle := by
  have hok (w op : Word64) (hw : bits w 14 0 = bits v 14 0) : s.writeOk 0xB 0x140 w op = true := by
    show inRange 125 16000 (bits w 14 0) = true
    rw [hw]
    simp [inRange, hlo, hhi]
  have hput := epochNs_plain.put_pairWide (hi := 14) (v := v) (by decide) (by decide) (by decide) hh hfz (by decide) hslot hdiff hok
  show (.next (s.put 0xB 0x140 v) : Res) = _
  rw [hput]

end

/-- Settles O16, setting by setting. -/
theorem settingsTakeEffect : Obligations.SettingsTakeEffect := by
  refine fun s => ⟨fun ms => exec_holdupMsWrite, fun w => exec_holdupWWrite, fun mib => exec_dirtyBudgetWrite, fun v => exec_opWrite, ?_, ?_⟩
  · intro n e hh hfz hpool hn hdiff hslot
    exact ⟨_, exec_poolResize hh hfz hpool hn hdiff hslot, s.stageSetting_pair ..⟩
  · intro v e hh hfz hlo hhi hdiff hslot
    exact ⟨_, exec_epochNsWrite hh hfz hlo hhi hdiff hslot, s.stageSetting_pair ..⟩

end Sys2Proof.Machine
end

section
/-! PROOFS. What the ports' transmitters leave alone (R78, R80, R81, R122 to R126). -/

namespace Sys2Proof.Machine

/-- From `a` to `b` transmitters went on and cells moved: the clock and the damper stand, and so does every register below the ports' pages
but the count of lines copied. -/
structure PortWork (a b : State) : Prop where
  mono : b.mono = a.mono
  measured : b.hearth.measured = a.hearth.measured
  level : b.hearth.level = a.hearth.level
  lastSample : b.hearth.lastSample = a.hearth.lastSample
  regs : ∀ k < 0x1000000, k ≠ HTH_COPIES_PIN_SAT.key → b.reg k = a.reg k

theorem PortWork.of_regs {a b : State} (hm : b.mono = a.mono) (h1 : b.hearth.measured = a.hearth.measured) (h2 : b.hearth.level = a.hearth.level)
    (h3 : b.hearth.lastSample = a.hearth.lastSample) (hr : b.regs = a.regs) : PortWork a b := ⟨hm, h1, h2, h3, fun k _ _ => State.reg_congr hr k⟩

theorem PortWork.refl (s : State) : PortWork s s := .of_regs rfl rfl rfl rfl rfl

theorem PortWork.trans {a b c : State} (h : PortWork a b) (k : PortWork b c) : PortWork a c :=
  ⟨k.mono.trans h.mono, k.measured.trans h.measured, k.level.trans h.level, k.lastSample.trans h.lastSample,
    fun j hj hp => (k.regs j hj hp).trans (h.regs j hj hp)⟩

theorem PortWork.foldl {α : Type} {f : State → α → State} (h : ∀ s x, PortWork s (f s x)) (s : State) (l : List α) : PortWork s (l.foldl f s) :=
  List.foldlRecOn (motive := PortWork s) l f (PortWork.refl s) (fun _ hu x _ => hu.trans (h _ x))

/-- The registers of the ports lie above all others. -/
theorem Fld.portKey_le {f : Fld} {i : Nat} (a : Nat) (h : 0x100 ≤ f.page + i) : 0x1000000 ≤ f.key i a := by
  unfold Fld.key regKey
  omega

theorem State.wr_portWork (s : State) (f : Fld) (v i a : Nat) (h : 0x100 ≤ f.page + i) : PortWork s (s.wr f v i a) := by
  refine ⟨s.wr_mono .., by rw [s.wr_hearth], by rw [s.wr_hearth], by rw [s.wr_hearth], fun k hk _ => s.wr_regsKept f v i a k ?_⟩
  rw [List.mem_singleton]
  have := Fld.portKey_le a h
  omega

theorem State.hptCount_portWork (s : State) (p k n : Nat) : PortWork s (s.hptCount p k n) := s.wr_portWork _ _ _ _ (Nat.le_add_right ..)

theorem State.modPort_portWork (s : State) (p : Nat) (f : Port → Port) : PortWork s (s.modPort p f) := .of_regs rfl rfl rfl rfl rfl

theorem State.satInc_pinSat_portWork (s : State) (n : Nat) : PortWork s (s.satInc HTH_COPIES_PIN_SAT n) := by
  refine ⟨s.satInc_mono .., by rw [s.satInc_hearth], by rw [s.satInc_hearth], by rw [s.satInc_hearth], fun k _ hk => s.wr_regsKept _ _ _ _ k ?_⟩
  rwa [List.mem_singleton]

/-! ### Cells and pins -/

theorem State.pin_portWork (s : State) (i : Nat) : PortWork s (s.pin i) := by
  unfold State.pin
  split
  · exact .of_regs rfl rfl rfl rfl rfl
  · exact PortWork.refl s

theorem State.freeWay_portWork (s : State) (i : Nat) : PortWork s (s.freeWay i) := by
  unfold State.freeWay
  dsimp only
  split
  · exact .of_regs rfl rfl rfl rfl rfl
  · exact .of_regs rfl rfl rfl rfl rfl

theorem State.unpin_portWork (s : State) (i : Nat) : PortWork s (s.unpin i) := by
  unfold State.unpin
  split
  · split
    · exact s.freeWay_portWork i
    · exact .of_regs rfl rfl rfl rfl rfl
  · exact PortWork.refl s

theorem State.subHead_portWork (s : State) (p q n : Nat) : PortWork s (s.subHead p q n) := by
  unfold State.subHead
  dsimp only
  split
  · exact .of_regs rfl rfl rfl rfl rfl
  · exact .of_regs rfl rfl rfl rfl rfl

theorem State.freeRx_portWork (s : State) (h : Nat × Nat × Nat × Bool) : PortWork s (s.freeRx h) := by
  unfold State.freeRx
  split
  · exact s.subHead_portWork ..
  · exact .of_regs rfl rfl rfl rfl rfl

theorem State.freeTx_portWork (s : State) (f : TxFrame) : PortWork s (s.freeTx f) := by
  unfold State.freeTx
  extract_lets u v src w x
  have hu : PortWork s u := by
    unfold u
    split <;> exact .of_regs rfl rfl rfl rfl rfl
  have hw : PortWork u w := .of_regs rfl rfl rfl rfl rfl
  have hx : PortWork s x := (hu.trans hw).trans (PortWork.foldl State.unpin_portWork w f.pins)
  split
  · exact hx.trans (.of_regs rfl rfl rfl rfl rfl)
  · exact hx

/-! ### The transmitter -/

theorem State.countPause_portWork (s : State) (p : Nat) (b : TxBody) : PortWork s (s.countPause p b) := by
  unfold State.countPause
  split
  · exact PortWork.foldl (fun s e => s.hptCount_portWork ..) s _
  · exact s.hptCount_portWork ..
  · exact PortWork.refl s

theorem State.dropTx_portWork (s : State) (p : Nat) : PortWork s (s.dropTx p).1 := by
  have hcounted (k : Nat) (u : State) (l : List TxFrame) : PortWork u (l.foldl (fun u f => (u.freeTx f).hptCount p k) u) :=
    PortWork.foldl (fun u f => (u.freeTx_portWork f).trans (State.hptCount_portWork ..)) u l
  unfold State.dropTx
  dsimp only
  split
  · exact PortWork.refl s
  · split
    · dsimp only
      exact (hcounted 9 s _).trans (State.modPort_portWork ..)
    · split
      · exact PortWork.refl s
      · dsimp only
        exact ((hcounted 10 s _).trans (PortWork.foldl State.freeTx_portWork _ _)).trans (State.modPort_portWork ..)

theorem State.pickTx_portWork (s : State) (p : Nat) : PortWork s (s.pickTx p) := by
  unfold State.pickTx
  dsimp only
  split
  · exact PortWork.refl s
  · split
    · exact (s.modPort_portWork ..).trans (State.countPause_portWork ..)
    · split
      · exact s.modPort_portWork ..
      · exact PortWork.refl s

/-! ### Chains that wait for cells -/

theorem State.chargeTx_portWork {s : State} {f : TxFrame} {n : Nat} {r : State × TxFrame} (h : s.chargeTx f n = some r) : PortWork s r.1 := by
  unfold State.chargeTx at h
  split at h
  · split at h
    · obtain rfl := Option.some.inj h
      exact .of_regs rfl rfl rfl rfl rfl
    · exact absurd h (by simp)
  · split at h
    · obtain rfl := Option.some.inj h
      exact .of_regs rfl rfl rfl rfl rfl
    · split at h
      · obtain rfl := Option.some.inj h
        exact .of_regs rfl rfl rfl rfl rfl
      · exact absurd h (by simp)

theorem State.buildTx_portWork {s t : State} {w : EgressWait} (h : s.buildTx w = some t) : PortWork s t := by
  unfold State.buildTx at h
  obtain ⟨⟨ps, copies, loose⟩, hg⟩ : ∃ g, s.gather w.lines = g := ⟨_, rfl⟩
  rw [hg] at h
  dsimp only at h
  split at h
  · exact absurd h (by simp)
  · next u f hcharge =>
    obtain rfl := Option.some.inj h
    have hpins := (State.chargeTx_portWork hcharge).trans (PortWork.foldl State.pin_portWork u ps)
    have hcopies (v : State) : PortWork v (if copies = 0 then v else v.satInc HTH_COPIES_PIN_SAT 1) := by
      split
      · exact PortWork.refl v
      · exact v.satInc_pinSat_portWork 1
    exact ((hpins.trans (hcopies _)).trans (State.modPort_portWork ..)).trans (PortWork.foldl State.freeRx_portWork _ _)

theorem State.egressRetry_portWork (s : State) : PortWork s s.egressRetry.1 := by
  unfold State.egressRetry
  refine List.foldlRecOn (motive := fun r : State × List Nat × List Nat => PortWork s r.1) _ _ (.of_regs rfl rfl rfl rfl rfl) (fun r hr w _ => ?_)
  split
  · next t hbuild => exact hr.trans (State.buildTx_portWork hbuild)
  · exact hr.trans (.of_regs rfl rfl rfl rfl rfl)

/-! ### Headroom, XOFF and XON -/

theorem State.setPending_portWork (s : State) (p q : Nat) (on : Bool) : PortWork s (s.setPending p q on) :=
  (s.wr_portWork HPT_FC_STAT_PENDING _ p 0 (Nat.le_add_right ..)).trans (.of_regs rfl rfl rfl rfl rfl)

/-- Headroom that was pending already raises no event. -/
theorem State.grantHeadroom_portWork (s : State) (p q : Nat) : PortWork s (s.grantHeadroom p q false) := by
  unfold State.grantHeadroom
  dsimp only
  split
  · exact PortWork.refl s
  · split
    · exact s.setPending_portWork ..
    · split
      · exact s.setPending_portWork ..
      · refine PortWork.trans ?_ (State.setPending_portWork ..)
        exact .of_regs rfl rfl rfl rfl rfl

theorem State.queuePauseAs_portWork (s : State) (mode p : Nat) (qs : List (Nat × Nat)) : PortWork s (s.queuePauseAs mode p qs) := by
  unfold State.queuePauseAs
  split
  · exact PortWork.refl s
  · split <;> exact s.modPort_portWork ..

theorem State.endXoff_portWork (s : State) (mode p : Nat) (qs : List Nat) : PortWork s (s.endXoff mode p qs) :=
  (PortWork.foldl (fun u _ => (u.wr_portWork HPT_FC_STAT_TX_XOFF _ p 0 (Nat.le_add_right ..)).trans (State.modPort_portWork ..)) s qs).trans
    (State.queuePauseAs_portWork ..)

theorem State.grantPending_portWork (s : State) : PortWork s s.grantPending := by
  unfold State.grantPending
  refine PortWork.foldl (fun u h => ?_) s _
  exact u.grantHeadroom_portWork h.1 h.2

theorem State.afterCells_portWork (s : State) (p : Nat) : PortWork s (s.afterCells p).1 := by
  obtain ⟨⟨u, ps, fs⟩, hu⟩ : ∃ r, s.egressRetry = r := ⟨_, rfl⟩
  have hretry : PortWork s u := by
    have := s.egressRetry_portWork
    rwa [hu] at this
  unfold State.afterCells
  rw [hu]
  dsimp only
  have hxon := u.grantPending.endXoff_portWork (u.grantPending.rd HPT_FC_CFG_FC_MODE p) p (u.grantPending.xonDue p)
  refine ((hretry.trans u.grantPending_portWork).trans hxon).trans ?_
  split
  · exact State.wr_portWork _ _ _ _ _ (by omega)
  · exact PortWork.refl _

theorem txGo_portWork (k : Nat) (ps fs : List Nat) (s : State) : PortWork s (txGo k ps fs s) := by
  induction k generalizing ps fs s with
  | zero =>
    unfold txGo
    exact PortWork.refl s
  | succ k ih =>
    unfold txGo
    split
    · exact (s.afterCells_portWork _).trans (ih ..)
    · dsimp only
      split
      · exact (s.dropTx_portWork _).trans (ih ..)
      · exact ((s.dropTx_portWork _).trans (State.pickTx_portWork ..)).trans (ih ..)
    · exact PortWork.refl s

theorem State.sendXoff_portWork (s : State) (p : Nat) (qs : List Nat) : PortWork s (s.sendXoff p qs) := by
  unfold State.sendXoff
  extract_lets qs u
  have hu : PortWork s u :=
    PortWork.foldl (fun v _ => (v.wr_portWork HPT_FC_STAT_TX_XOFF _ p 0 (Nat.le_add_right ..)).trans (State.modPort_portWork ..)) s qs
  exact (hu.trans (State.queuePauseAs_portWork ..)).trans (txGo_portWork ..)

theorem State.xonCheck_portWork (s : State) (p : Nat) : PortWork s (s.xonCheck p) := (s.endXoff_portWork ..).trans (txGo_portWork ..)

end Sys2Proof.Machine
end

section
/-! PROOFS. The damper and the Hearth layout (R69 to R71, R82, R85), settling O43. -/

namespace Sys2Proof.Machine

/-- An INFO or WARN event writes PG_EVT of its page alone: PG_STAT.FAULT stands (R38). -/
theorem State.raise_minor_regsKept (s : State) {p n sev : Nat} (h : evSeverity p n = some sev) (hs : sev < 2) : regsKept s (s.raise p n) [regKey p 0x20] := by
  unfold State.raise State.raiseWith
  rw [h]
  split
  · next sev' b i hsev hb =>
    obtain rfl := Option.some.inj hsev
    rw [decide_eq_false (by omega), Bool.false_and]
    exact (s.setFlags_regsKept p _).trans (regsKept.of_regs rfl _)
  · exact regsKept.refl s _

/-! ### The damper's level (R84, R85) -/

/-- The event of a level: DMP_HALF, DMP_SHUT, DMP_OPEN. -/
def levelEvent (l : Nat) : Nat := match l with | 1 => 0 | 2 => 1 | _ => 2

theorem levelEvent_minor (l : Nat) : levelEvent l < 64 ∧ ∃ sev < 2, evSeverity 8 (levelEvent l) = some sev := by
  unfold levelEvent
  split
  · exact ⟨by decide, 0, by decide, by decide⟩
  · exact ⟨by decide, 1, by decide, by decide⟩
  · exact ⟨by decide, 0, by decide, by decide⟩

/-- The level in force is another one, with its event; the ports have not heard of it yet. -/
def State.levelSet (s : State) (l : Nat) : State := (({ s.damperTime with hearth := { s.damperTime.hearth with level := l } } : State).wr HTH_DMP_STAT_LEVEL l).raise 8 (levelEvent l)

/-- Time at a level is added up in the registers of it. -/
theorem State.damperTime_frame (s : State) : s.damperTime = { s with regs := s.damperTime.regs, hearth := { s.hearth with levelSince := s.mono } }
    ∧ regsKept s s.damperTime [HTH_DMP_TIME_HALF_NS.key, HTH_DMP_TIME_SHUT_NS.key] := by
  unfold State.damperTime
  dsimp only
  split
  · exact ⟨rfl, (s.wr_regsKept HTH_DMP_TIME_HALF_NS _ 0 0).mono (by simp)⟩
  · exact ⟨rfl, (s.wr_regsKept HTH_DMP_TIME_SHUT_NS _ 0 0).mono (by simp)⟩
  · exact ⟨rfl, regsKept.refl s _⟩

theorem State.levelSet_mono (s : State) (l : Nat) : (s.levelSet l).mono = s.mono := by
  unfold State.levelSet
  rw [State.raise_mono, State.wr_mono]
  exact (congrArg State.mono s.damperTime_frame.1 :)

theorem State.levelSet_hearth (s : State) (l : Nat) : (s.levelSet l).hearth = { s.hearth with levelSince := s.mono, level := l } := by
  unfold State.levelSet
  rw [State.raise_hearth, State.wr_hearth]
  exact congrArg (fun t : State => { t.hearth with level := l }) s.damperTime_frame.1

theorem State.levelSet_flagged (s : State) (l : Nat) : (s.levelSet l).flagged 8 (levelEvent l) = true := by
  obtain ⟨hlt, sev, -, hsev⟩ := levelEvent_minor l
  exact (State.raise_raisedIn _ 8 _ hsev rfl hlt).1

/-- DMP_STAT shows the level; its measurements stand. -/
theorem State.levelSet_dmpStat (s : State) (l : Nat) : (s.levelSet l).rd HTH_DMP_STAT_LEVEL = l % 4
    ∧ (s.levelSet l).rd HTH_DMP_STAT_PKT_64THS = s.rd HTH_DMP_STAT_PKT_64THS ∧ (s.levelSet l).rd HTH_DMP_STAT_BANK_64THS = s.rd HTH_DMP_STAT_BANK_64THS := by
  have htime (f : Fld) (hf : f.key 0 0 ∉ [HTH_DMP_TIME_HALF_NS.key, HTH_DMP_TIME_SHUT_NS.key]) : s.damperTime.rd f = s.rd f := s.damperTime_frame.2.rd hf
  unfold State.levelSet
  refine ⟨?_, ?_, ?_⟩ <;> rw [State.rd_raise _ 8 _ (by decide) (by decide)]
  · exact State.rd_wr_same _ HTH_DMP_STAT_LEVEL l 0 0 (by decide) (by decide)
  · rw [State.rd_wr_apart _ _ _ _ _ _ _ _ (by decide) (by decide) (by decide) (by decide)]
    exact htime HTH_DMP_STAT_PKT_64THS (by decide)
  · rw [State.rd_wr_apart _ _ _ _ _ _ _ _ (by decide) (by decide) (by decide) (by decide)]
    exact htime HTH_DMP_STAT_BANK_64THS (by decide)

/-- From `a` to `b` the damper's level, its measurements and its flags stand. -/
structure DamperKept (a b : State) : Prop where
  mono : b.mono = a.mono
  measured : b.hearth.measured = a.hearth.measured
  level : b.hearth.level = a.hearth.level
  lastSample : b.hearth.lastSample = a.hearth.lastSample
  shown : b.rd HTH_DMP_STAT_LEVEL = a.rd HTH_DMP_STAT_LEVEL
  pkt : b.rd HTH_DMP_STAT_PKT_64THS = a.rd HTH_DMP_STAT_PKT_64THS
  bank : b.rd HTH_DMP_STAT_BANK_64THS = a.rd HTH_DMP_STAT_BANK_64THS
  flags : ∀ n, b.flagged 8 n = a.flagged 8 n

theorem DamperKept.refl (s : State) : DamperKept s s := ⟨rfl, rfl, rfl, rfl, rfl, rfl, rfl, fun _ => rfl⟩

theorem DamperKept.trans {a b c : State} (h : DamperKept a b) (k : DamperKept b c) : DamperKept a c :=
  ⟨k.mono.trans h.mono, k.measured.trans h.measured, k.level.trans h.level, k.lastSample.trans h.lastSample, k.shown.trans h.shown, k.pkt.trans h.pkt,
    k.bank.trans h.bank, fun n => (k.flags n).trans (h.flags n)⟩

theorem PortWork.damperKept {a b : State} (h : PortWork a b) : DamperKept a b := by
  have hreg : b.reg (regKey 8 0x168) = a.reg (regKey 8 0x168) := h.regs _ (by decide) (by decide)
  have hevt : b.reg (regKey 8 0x20) = a.reg (regKey 8 0x20) := h.regs _ (by decide) (by decide)
  exact ⟨h.mono, h.measured, h.level, h.lastSample, congrArg (bits · 1 0) hreg, congrArg (bits · 22 16) hreg, congrArg (bits · 30 24) hreg,
    fun n => congrArg (bit · n) hevt⟩

theorem State.shutEntries_damperKept (s : State) (n : Nat) : DamperKept s (s.satInc HTH_DMP_STAT_SHUT_ENTRIES n) := by
  have hrd (f : Fld) (hf : f.hi < 48) : (s.satInc HTH_DMP_STAT_SHUT_ENTRIES n).rd f = s.rd f :=
    State.rd_wr_apart s HTH_DMP_STAT_SHUT_ENTRIES f _ 0 0 0 0 (by decide) (by omega) (by decide) (.inl hf)
  have hevt : (s.satInc HTH_DMP_STAT_SHUT_ENTRIES n).reg (regKey 8 0x20) = s.reg (regKey 8 0x20) := s.wr_regsKept _ _ _ _ _ (by decide)
  exact ⟨s.satInc_mono .., by rw [s.satInc_hearth], by rw [s.satInc_hearth], by rw [s.satInc_hearth], hrd _ (by decide), hrd _ (by decide), hrd _ (by decide),
    fun k => congrArg (bit · k) hevt⟩

/-- Another level: `levelSet`, and then only the ports' XOFF and XON. -/
theorem State.setLevel_damperKept (s : State) {l : Nat} (h : l ≠ s.hearth.level) : DamperKept (s.levelSet l) (s.setLevel l) := by
  have hset : s.setLevel l = if l = 2 then (List.range 96).foldl (fun (s : State) p => s.sendXoff p (s.losslessList p)) ((s.levelSet l).satInc HTH_DMP_STAT_SHUT_ENTRIES 1)
      else if s.hearth.level = 2 then (List.range 96).foldl (fun (s : State) p => s.xonCheck p) (s.levelSet l) else s.levelSet l := by
    unfold State.setLevel
    dsimp only
    rw [if_neg h]
    rfl
  rw [hset]
  split
  · refine (State.shutEntries_damperKept _ 1).trans (PortWork.damperKept ?_)
    exact PortWork.foldl (fun u p => u.sendXoff_portWork p _) _ _
  · split
    · exact (PortWork.foldl (fun u p => u.xonCheck_portWork p) _ _).damperKept
    · exact DamperKept.refl _

/-- What a level that is set leaves, the same one as before or another. -/
theorem State.setLevel_reads (s : State) (l : Nat) : (s.setLevel l).mono = s.mono ∧ (s.setLevel l).hearth.lastSample = s.hearth.lastSample
    ∧ (s.setLevel l).hearth.measured = s.hearth.measured ∧ (s.setLevel l).hearth.level = l
    ∧ (s.setLevel l).rd HTH_DMP_STAT_PKT_64THS = s.rd HTH_DMP_STAT_PKT_64THS ∧ (s.setLevel l).rd HTH_DMP_STAT_BANK_64THS = s.rd HTH_DMP_STAT_BANK_64THS
    ∧ (s.hearth.level ≠ l → (s.setLevel l).rd HTH_DMP_STAT_LEVEL = l % 4 ∧ (s.setLevel l).flagged 8 (levelEvent l) = true) := by
  by_cases h : l = s.hearth.level
  · have hsame : s.setLevel l = s := by
      unfold State.setLevel
      exact if_pos h
    rw [hsame]
    exact ⟨rfl, rfl, rfl, h.symm, rfl, rfl, fun k => absurd h.symm k⟩
  · have hkept := s.setLevel_damperKept h
    have hhearth := s.levelSet_hearth l
    obtain ⟨hlevel, hpkt, hbank⟩ := s.levelSet_dmpStat l
    exact ⟨hkept.mono.trans (s.levelSet_mono l), hkept.lastSample.trans (congrArg Hearth.lastSample hhearth :), hkept.measured.trans (congrArg Hearth.measured hhearth :),
      hkept.level.trans (congrArg Hearth.level hhearth :), hkept.pkt.trans hpkt, hkept.bank.trans hbank,
      fun _ => ⟨hkept.shown.trans hlevel, (hkept.flags _).trans (s.levelSet_flagged l)⟩⟩

/-! ### A pressure sample (R82, R85) -/

theorem State.pktPressure_le (s : State) : s.pktPressure ≤ 64 := by
  unfold State.pktPressure
  split
  · exact Nat.le_refl _
  · exact Nat.min_le_left ..

theorem State.pktPressure_congr {a b : State} (h : b.hearth = a.hearth) : b.pktPressure = a.pktPressure := by
  unfold State.pktPressure State.sharedSize State.sharedUsed
  rw [h]

/-- A sample before the level in force follows: what it writes, and the level measured where a threshold is met. -/
theorem State.damper_measured (s : State) (bank : Nat) : ∃ w : State, s.damper bank = w.setLevel w.levelNow ∧ w.mono = s.mono ∧ w.hearth.lastSample = s.mono
    ∧ w.hearth.level = s.hearth.level ∧ w.rd HTH_DMP_STAT_PKT_64THS = s.pktPressure ∧ w.rd HTH_DMP_STAT_BANK_64THS = min 64 bank
    ∧ (let hits (f : Fld) : Prop := s.rd f ≤ s.pktPressure ∨ s.rd f ≤ min 64 bank
      (hits HTH_DMP_THRESH_SHUT_ON → hits HTH_DMP_THRESH_SHUT_OFF → w.hearth.measured = 2)
      ∧ (hits HTH_DMP_THRESH_HALF_ON → ¬ hits HTH_DMP_THRESH_SHUT_ON → hits HTH_DMP_THRESH_HALF_OFF → s.hearth.measured ≤ 1 → w.hearth.measured = 1)) := by
  unfold State.damper
  extract_lets pkt bk below at_ since shut half heldFor m0 m1 m2 m3 u src w
  have hat (f : Fld) : at_ f = decide (s.rd f ≤ s.pktPressure ∨ s.rd f ≤ min 64 bank) := by simp [at_, pkt, bk]
  have hbelow (f : Fld) (h : s.rd f ≤ s.pktPressure ∨ s.rd f ≤ min 64 bank) : below f = false := by
    simp only [below, pkt, bk, Bool.and_eq_false_iff, decide_eq_false_iff_not]
    omega
  refine ⟨w, rfl, rfl, rfl, rfl, ?_, ?_, fun hon hoff => ?_, fun hon hnot hoff hm => ?_⟩
  · show ((s.wr HTH_DMP_STAT_PKT_64THS pkt).wr HTH_DMP_STAT_BANK_64THS bk).rd HTH_DMP_STAT_PKT_64THS = _
    have := s.pktPressure_le
    rw [State.rd_wr_apart _ _ _ _ _ _ _ _ (by decide) (by decide) (by decide) (by decide), State.rd_wr_same _ _ _ _ _ (by decide) (by decide)]
    exact Nat.mod_eq_of_lt (by show _ < 128; omega)
  · show ((s.wr HTH_DMP_STAT_PKT_64THS pkt).wr HTH_DMP_STAT_BANK_64THS bk).rd HTH_DMP_STAT_BANK_64THS = _
    rw [State.rd_wr_same _ _ _ _ _ (by decide) (by decide)]
    exact Nat.mod_eq_of_lt (by show min 64 bank < 128; omega)
  · have hshut : heldFor shut = false := by simp [shut, since, heldFor, hbelow _ hoff]
    have h1 : m1 = 2 := if_pos ((hat _).trans (decide_eq_true hon))
    have h2 : m2 = 2 := by
      show (if (decide (m1 = 2) && heldFor shut) = true then 1 else m1) = 2
      rw [hshut, Bool.and_false, h1]
      rfl
    show (if (decide (m2 = 1) && heldFor half) = true then 0 else m2) = 2
    rw [h2]
    rfl
  · have hhalf : heldFor half = false := by simp [half, since, heldFor, hbelow _ hoff]
    have h1 : m1 = 1 := by
      show (if at_ HTH_DMP_THRESH_SHUT_ON = true then 2 else if at_ HTH_DMP_THRESH_HALF_ON = true then max m0 1 else m0) = 1
      rw [hat, hat, decide_eq_false hnot, decide_eq_true hon]
      exact Nat.max_eq_right hm
    have h2 : m2 = 1 := by
      show (if (decide (m1 = 2) && heldFor shut) = true then 1 else m1) = 1
      rw [h1]
      rfl
    show (if (decide (m2 = 1) && heldFor half) = true then 0 else m2) = 1
    rw [h2, hhalf]
    rfl

/-- A level that is measured as SHUT is in force, whatever FORCE says (R85). -/
theorem State.levelNow_shut {s : State} (h : s.hearth.measured = 2) : s.levelNow = 2 := by
  unfold State.levelNow
  rw [h]
  split
  · rfl
  · omega

theorem exec_damperSample {s : State} (bank : Nat) (h : s.ready 8 = true) :
    let v := (s.upTo (s.hearth.lastSample + 100)).banksGo
    exec (.damperSample bank) s = .next (v.damper (v.bankPressure + bank)) ∧ v.mono = max s.mono (s.hearth.lastSample + 100) ∧ v.regs = s.regs ∧ v.hearth = s.hearth := by
  intro v
  have hgo : OnlyCounts (s.upTo (s.hearth.lastSample + 100)) v := State.banksGo_onlyCounts _
  refine ⟨?_, ?_, hgo.regs.trans (State.upTo_regs ..), ?_⟩
  · show (.next (if s.ready 8 then _ else s) : Res) = _
    rw [if_pos h]
  · exact (congrArg State.mono hgo.frame).trans (s.upTo_mono _)
  · exact (congrArg State.hearth hgo.frame).trans (State.upTo_hearth ..)

/-! ### An apply is asked for (R70) -/

theorem State.applyErr_lt (s : State) (l : Layout) : s.applyErr l < 2 ^ 8 := by
  unfold State.applyErr
  dsimp only
  repeat' split
  all_goals decide

theorem State.applyErr_same {s : State} : s.applyErr s.hearth.layout = 0 := by
  unfold State.applyErr
  exact if_pos rfl

theorem State.applyErr_sum {s : State} {l : Layout} (hsum : l.cache + l.pkt + l.epoch + l.media + l.ctx + l.smp ≠ 2048) (hne : l ≠ s.hearth.layout) : s.applyErr l = 1 := by
  unfold State.applyErr
  dsimp only
  rw [if_neg hne, if_pos (bne_iff_ne.mpr hsum)]

section
variable {s : State} (hready : s.ready 0 = true) (hfree : s.hearth.applying = none)
include hready

theorem exec_partitionApply : exec .partitionApply s = .next s.applyLayout := by
  show (.next (if s.ready 0 then s.applyLayout else _) : Res) = _
  rw [if_pos hready]

include hfree

theorem exec_partitionApply_refused (herr : s.applyErr s.reqLayout ≠ 0) :
    exec .partitionApply s = .next ((s.wr HTH_PARTITION_ERR (s.applyErr s.reqLayout)).raise 8 6) := by
  rw [exec_partitionApply hready]
  unfold State.applyLayout
  dsimp only
  rw [if_neg (by simp [hfree])]
  split
  · next h => exact absurd h herr
  · rfl

theorem exec_partitionApply_admitted (herr : s.applyErr s.reqLayout = 0) :
    exec .partitionApply s = .next (if s.reqLayout = s.hearth.layout then (s.wr HTH_PARTITION_ERR 0).raise 8 5
      else { (((s.wr HTH_PARTITION_ERR 0).wr HTH_PARTITION_BUSY 1).wr PG_STAT_BUSY 1 8).wr PG_STAT_STATE 3 8 with hearth := { s.hearth with applying := some s.reqLayout } }) := by
  rw [exec_partitionApply hready]
  unfold State.applyLayout
  dsimp only
  rw [if_neg (by simp [hfree]), herr]
  rfl

end

/-- ERR is written and an event of HTH is raised: nothing else. -/
theorem State.applyAnswer (s : State) {e n sev : Nat} (he : e < 2 ^ 8) (hsev : evSeverity 8 n = some sev) (hn : n < 64) :
    let t := (s.wr HTH_PARTITION_ERR e).raise 8 n
    t.rd HTH_PARTITION_ERR = e ∧ raisedIn s t 8 n ∧ regsKept s t (HTH_PARTITION_ERR.key :: evRegs 8) ∧ restKept s t := by
  refine ⟨?_, raisedIn_raise 8 n (State.wr_evInbox ..) hsev rfl hn, ?_, ?_⟩
  · rw [State.rd_raise _ 8 n (by decide) (by decide), State.rd_wr_same _ _ _ _ _ (by decide) (by decide)]
    exact Nat.mod_eq_of_lt he
  · exact ((s.wr_regsKept HTH_PARTITION_ERR e 0 0).mono (by simp)).trans ((State.raise_regsKept _ 8 n).mono (List.subset_cons_self _ _))
  · exact State.raise_eq (s.wr HTH_PARTITION_ERR e) 8 n

/-- An apply that starts: BUSY, the layout asked for kept until it is in force (R70). -/
theorem State.applyStarts (s : State) (l : Layout) :
    let t : State := { (((s.wr HTH_PARTITION_ERR 0).wr HTH_PARTITION_BUSY 1).wr PG_STAT_BUSY 1 8).wr PG_STAT_STATE 3 8 with hearth := { s.hearth with applying := some l } }
    t.rd HTH_PARTITION_ERR = 0 ∧ t.rd HTH_PARTITION_BUSY = 1 ∧ t.rd PG_STAT_BUSY 8 = 1 ∧ t.rd PG_STAT_STATE 8 = 3
      ∧ regsKept s t [HTH_PARTITION_ERR.key, regKey 8 0x18] := by
  intro t
  obtain ⟨u, hu⟩ : ∃ u : State, (((s.wr HTH_PARTITION_ERR 0).wr HTH_PARTITION_BUSY 1).wr PG_STAT_BUSY 1 8).wr PG_STAT_STATE 3 8 = u := ⟨_, rfl⟩
  have hrd (f : Fld) (i a : Nat) : t.rd f i a = u.rd f i a := State.rd_congr (congrArg State.regs hu) f i a
  have hp : regsKept s ((s.wr HTH_PARTITION_ERR 0).wr HTH_PARTITION_BUSY 1) [HTH_PARTITION_ERR.key] :=
    (s.wr_regsKept HTH_PARTITION_ERR 0 0 0).trans (State.wr_regsKept _ HTH_PARTITION_BUSY 1 0 0)
  have hst : regsKept ((s.wr HTH_PARTITION_ERR 0).wr HTH_PARTITION_BUSY 1) u [regKey 8 0x18] :=
    hu ▸ (State.wr_regsKept _ PG_STAT_BUSY 1 8 0).trans (State.wr_regsKept _ PG_STAT_STATE 3 8 0)
  rw [hrd, hrd, hrd, hrd]
  refine ⟨?_, ?_, ?_, ?_, ?_⟩
  · rw [hst.rd (by decide), State.rd_wr_apart _ _ _ _ _ _ _ _ (by decide) (by decide) (by decide) (by decide), State.rd_wr_same _ _ _ _ _ (by decide) (by decide)]
    rfl
  · rw [hst.rd (by decide), State.rd_wr_same _ _ _ _ _ (by decide) (by decide)]
    rfl
  · rw [← hu, State.rd_wr_apart _ _ _ _ _ _ _ _ (by decide) (by decide) (by decide) (by decide), State.rd_wr_same _ _ _ _ _ (by decide) (by decide)]
    rfl
  · rw [← hu, State.rd_wr_same _ _ _ _ _ (by decide) (by decide)]
    rfl
  · have hall : regsKept s u [HTH_PARTITION_ERR.key, regKey 8 0x18] := (hp.mono (by simp)).trans (hst.mono (by simp))
    exact hall.trans (regsKept.of_regs (congrArg State.regs hu) _)

/-! ### The layout comes into force (R71) -/

/-- From `a` to `b` device keys and counters of CPH moved: the store, the cache and the saved layout stand, and every register off CPH's page. -/
structure SealWork (a b : State) : Prop where
  hearth : b.hearth = a.hearth
  cache : b.cache = a.cache
  layout : b.boot.layout = a.boot.layout
  regs : ∀ k, k / 0x10000 ≠ 6 → b.reg k = a.reg k

theorem SealWork.of_regs {a b : State} (hh : b.hearth = a.hearth) (hc : b.cache = a.cache) (hl : b.boot.layout = a.boot.layout) (hr : b.regs = a.regs) : SealWork a b :=
  ⟨hh, hc, hl, fun k _ => State.reg_congr hr k⟩

theorem SealWork.trans {a b c : State} (h : SealWork a b) (k : SealWork b c) : SealWork a c :=
  ⟨k.hearth.trans h.hearth, k.cache.trans h.cache, k.layout.trans h.layout, fun j hj => (k.regs j hj).trans (h.regs j hj)⟩

theorem SealWork.rd {a b : State} (h : SealWork a b) {f : Fld} {i j : Nat} (hk : f.key i j / 0x10000 ≠ 6) : b.rd f i j = a.rd f i j := by
  unfold State.rd
  rw [h.regs _ hk]

theorem State.raise6_sealWork (s : State) (n : Nat) : SealWork s (s.raise 6 n) := by
  refine ⟨State.raise_hearth .., State.raise_cache .., by rw [State.raise_boot], fun k hk => State.raise_regsKept s 6 n k ?_⟩
  unfold evRegs regKey
  simp only [List.mem_cons, List.not_mem_nil, or_false]
  omega

theorem State.deviceKey_sealWork (s : State) (n : Nat) : SealWork s (s.deviceKey n) := by
  unfold State.deviceKey State.takeFree
  dsimp only
  refine SealWork.trans ?_ (State.raise6_sealWork _ 3)
  exact .of_regs rfl rfl rfl rfl

/-- The warning of slot 2 gives it a fresh key (R398). -/
theorem SealWork.warned {s v : State} {c : Prop} [Decidable c] (h : SealWork s v) : SealWork s (if c then (v.raise 6 5).deviceKey 2 else v) := by
  split
  · exact (h.trans (v.raise6_sealWork 5)).trans (State.deviceKey_sealWork ..)
  · exact h

theorem State.cphCount_sealWork (s : State) (k n : Nat) (hk : k < 0x100) : SealWork s (s.cphCount k n) := by
  refine ⟨State.wr_hearth .., State.wr_cache .., congrArg Boot.layout (State.wr_boot ..), fun j hj => s.wr_regsKept CPH_COUNTER_COUNT _ 0 (8 * k) j ?_⟩
  rw [List.mem_singleton]
  rintro rfl
  simp only [Fld.key, regKey] at hj
  omega

theorem State.selfSeal_sealWork (s : State) : SealWork s s.selfSeal := by
  unfold State.selfSeal State.takeFree
  dsimp only
  refine SealWork.warned (SealWork.trans ?_ (State.cphCount_sealWork _ 2 _ (by decide)))
  exact .of_regs rfl rfl rfl rfl

theorem State.autoSave_sealWork (s : State) : SealWork s s.autoSave := by
  unfold State.autoSave
  exact s.selfSeal_sealWork.trans (.of_regs rfl rfl rfl rfl)

/-- Headroom reserved anew: pages of ports and the headroom's accounts, nothing else. -/
structure HeadroomWork (a b : State) : Prop where
  layout : b.hearth.layout = a.hearth.layout
  applying : b.hearth.applying = a.hearth.applying
  resident : b.hearth.resident = a.hearth.resident
  cache : b.cache = a.cache
  regs : ∀ k < 0x1000000, b.reg k = a.reg k

theorem HeadroomWork.rd {a b : State} (h : HeadroomWork a b) {f : Fld} {i j : Nat} (hk : f.key i j < 0x1000000) : b.rd f i j = a.rd f i j := by
  unfold State.rd
  rw [h.regs _ hk]

theorem HeadroomWork.refl (s : State) : HeadroomWork s s := ⟨rfl, rfl, rfl, rfl, fun _ _ => rfl⟩

theorem HeadroomWork.trans {a b c : State} (h : HeadroomWork a b) (k : HeadroomWork b c) : HeadroomWork a c :=
  ⟨k.layout.trans h.layout, k.applying.trans h.applying, k.resident.trans h.resident, k.cache.trans h.cache, fun j hj => (k.regs j hj).trans (h.regs j hj)⟩

theorem HeadroomWork.foldl {α : Type} {f : State → α → State} (h : ∀ s x, HeadroomWork s (f s x)) (s : State) (l : List α) : HeadroomWork s (l.foldl f s) :=
  List.foldlRecOn (motive := HeadroomWork s) l f (HeadroomWork.refl s) (fun _ hu x _ => hu.trans (h _ x))

theorem State.reserveHeadroom_work (s : State) : HeadroomWork s s.reserveHeadroom := by
  unfold State.reserveHeadroom
  refine HeadroomWork.foldl (fun u p => ?_) s _
  have hpending : HeadroomWork u { u.wr HPT_FC_STAT_PENDING 0 p with hearth := { (u.wr HPT_FC_STAT_PENDING 0 p).hearth with headPending := [] } } := by
    refine ⟨rfl, rfl, rfl, rfl, fun k hk => (State.reg_congr rfl k).trans (u.wr_regsKept HPT_FC_STAT_PENDING 0 p 0 k ?_)⟩
    have := Fld.portKey_le (f := HPT_FC_STAT_PENDING) (i := p) 0 (Nat.le_add_right ..)
    rw [List.mem_singleton]
    omega
  refine hpending.trans (HeadroomWork.foldl (fun v q => ?_) _ _)
  exact ⟨rfl, rfl, rfl, rfl, fun _ _ => rfl⟩

theorem State.setBases_hearth (s : State) : s.setBases.hearth = s.hearth := by
  unfold State.setBases
  simp only [State.wr_hearth]

theorem State.setBases_cache (s : State) : s.setBases.cache = s.cache := by
  unfold State.setBases
  simp only [State.wr_cache]

/-- The bases lie in registers of their own. -/
theorem State.setBases_gen (s : State) : s.setBases.rd PG_GEN_GEN 8 = s.rd PG_GEN_GEN 8 := by
  unfold State.setBases
  dsimp only
  simp (disch := decide) only [State.rd_wr_other]

theorem State.setBases_pktBase (s : State) : s.setBases.rd HTH_PART_PKT_BASE_MIB = s.hearth.layout.cache % 2 ^ 12 := by
  unfold State.setBases
  dsimp only
  simp (disch := decide) only [State.rd_wr_other]
  exact State.rd_wr_same _ HTH_PART_PKT_BASE_MIB _ 0 0 (by decide) (by decide)

/-- What the store, the cache and the buffers hold as the layout comes into force: no QP context, no line of a cache of another size. -/
def State.relaid (s : State) (l : Layout) : State :=
  let old := s.hearth.layout
  let s : State := { s with hearth := { s.hearth with layout := l, applying := none, resident := [] } }
  let s : State := if l.cache = old.cache then s else { s with cache := { s.cache with ways := [], plru := [] } }
  let s : State := if l.smp = old.smp then s else { s with smp := { s.smp with buf := [] } }
  { s with prot := { s.prot with resident := s.prot.resident.drop (s.prot.resident.length - s.keyRoom) } }

theorem State.relaid_eq (s : State) (l : Layout) : (s.relaid l).regs = s.regs ∧ (s.relaid l).hearth = { s.hearth with layout := l, applying := none, resident := [] }
    ∧ (l.cache ≠ s.hearth.layout.cache → (s.relaid l).cache.ways = []) := by
  unfold State.relaid
  dsimp only
  refine ⟨?_, ?_, fun hne => ?_⟩
  · split <;> split <;> rfl
  · split <;> split <;> rfl
  · rw [if_neg hne]
    split <;> rfl

/-- HTH's registers as an apply ends: PG_GEN, APPLIED_GEN, BUSY and STATE. -/
def State.applyEnds (s : State) : State :=
  let s := s.bumpGen 8
  (((s.wr HTH_PARTITION_APPLIED_GEN (s.rd PG_GEN_GEN 8)).wr HTH_PARTITION_BUSY 0).wr PG_STAT_BUSY 0 8).wr PG_STAT_STATE 2 8

theorem State.applyEnds_hearth (s : State) : s.applyEnds.hearth = s.hearth := by
  unfold State.applyEnds State.bumpGen State.inc
  simp only [State.wr_hearth]

theorem State.applyEnds_cache (s : State) : s.applyEnds.cache = s.cache := by
  unfold State.applyEnds State.bumpGen State.inc
  simp only [State.wr_cache]

theorem State.applied_eq {s : State} {l : Layout} (h : s.hearth.applying = some l) :
    let b := (s.relaid l).setBases.reserveHeadroom.applyEnds
    s.applied = ({ b with boot := { b.boot with layout := some l } } : State).autoSave.raise 8 5 := by
  unfold State.applied
  rw [h]
  rfl

theorem State.applyEnds_reads (s : State) : s.applyEnds.rd PG_GEN_GEN 8 = (s.rd PG_GEN_GEN 8 + 1) % 2 ^ 32
    ∧ s.applyEnds.rd HTH_PARTITION_APPLIED_GEN = s.applyEnds.rd PG_GEN_GEN 8 ∧ s.applyEnds.rd HTH_PARTITION_BUSY = 0
    ∧ s.applyEnds.rd PG_STAT_BUSY 8 = 0 ∧ s.applyEnds.rd PG_STAT_STATE 8 = 2 ∧ s.applyEnds.rd HTH_PART_PKT_BASE_MIB = s.rd HTH_PART_PKT_BASE_MIB := by
  have hbump : (s.bumpGen 8).rd PG_GEN_GEN 8 = (s.rd PG_GEN_GEN 8 + 1) % 2 ^ 32 := s.rd_bumpGen 8
  have hgen : s.applyEnds.rd PG_GEN_GEN 8 = (s.rd PG_GEN_GEN 8 + 1) % 2 ^ 32 := by
    unfold State.applyEnds
    dsimp only
    rw [← hbump]
    simp (disch := decide) only [State.rd_wr_other]
  refine ⟨hgen, ?_, ?_, ?_, ?_, ?_⟩
  · rw [hgen]
    unfold State.applyEnds
    dsimp only
    rw [State.rd_wr_other _ _ _ _ _ _ _ _ (by decide), State.rd_wr_other _ _ _ _ _ _ _ _ (by decide),
      State.rd_wr_apart _ _ _ _ _ _ _ _ (by decide) (by decide) (by decide) (by decide), State.rd_wr_same _ _ _ _ _ (by decide) (by decide), hbump]
    exact Nat.mod_mod ..
  · unfold State.applyEnds
    dsimp only
    rw [State.rd_wr_other _ _ _ _ _ _ _ _ (by decide), State.rd_wr_other _ _ _ _ _ _ _ _ (by decide), State.rd_wr_same _ _ _ _ _ (by decide) (by decide)]
    rfl
  · unfold State.applyEnds
    dsimp only
    rw [State.rd_wr_apart _ _ _ _ _ _ _ _ (by decide) (by decide) (by decide) (by decide), State.rd_wr_same _ _ _ _ _ (by decide) (by decide)]
    rfl
  · unfold State.applyEnds
    dsimp only
    rw [State.rd_wr_same _ _ _ _ _ (by decide) (by decide)]
    rfl
  · unfold State.applyEnds
    dsimp only
    simp (disch := decide) only [State.rd_wr_other]
    exact (s.bumpGen_regsKept 8).rd (by decide)

/-- PART_APPLIED while a layout is being applied. -/
theorem State.applied_reads {s : State} {l : Layout} (h : s.hearth.applying = some l) : s.applied.hearth.layout = l ∧ s.applied.hearth.applying = none
    ∧ s.applied.hearth.resident = [] ∧ (l.cache ≠ s.hearth.layout.cache → s.applied.cache.ways = [])
    ∧ s.applied.rd PG_GEN_GEN 8 = (s.rd PG_GEN_GEN 8 + 1) % 2 ^ 32 ∧ s.applied.rd HTH_PARTITION_APPLIED_GEN = s.applied.rd PG_GEN_GEN 8
    ∧ s.applied.rd HTH_PARTITION_BUSY = 0 ∧ s.applied.rd PG_STAT_BUSY 8 = 0 ∧ s.applied.rd PG_STAT_STATE 8 = 2
    ∧ s.applied.rd HTH_PART_PKT_BASE_MIB = l.cache % 2 ^ 12 ∧ s.applied.boot.layout = some l ∧ s.applied.flagged 8 5 = true := by
  obtain ⟨hregs, hhearth, hways⟩ := s.relaid_eq l
  obtain ⟨u, hu⟩ : ∃ u, (s.relaid l).setBases = u := ⟨_, rfl⟩
  have hroom := u.reserveHeadroom_work
  have huhearth : u.hearth = (s.relaid l).hearth := hu ▸ State.setBases_hearth _
  have hucache : u.cache = (s.relaid l).cache := hu ▸ State.setBases_cache _
  obtain ⟨v, hv⟩ : ∃ v, u.reserveHeadroom = v := ⟨_, rfl⟩
  rw [hv] at hroom
  obtain ⟨b, hb⟩ : ∃ b : State, v.applyEnds = b := ⟨_, rfl⟩
  obtain ⟨hgen, happ, hbusy, hpbusy, hstate, hbase⟩ := v.applyEnds_reads
  obtain ⟨w, hw⟩ : ∃ w : State, ({ b with boot := { b.boot with layout := some l } } : State).autoSave = w := ⟨_, rfl⟩
  have hseal : SealWork { b with boot := { b.boot with layout := some l } } w := hw ▸ State.autoSave_sealWork _
  have ht : s.applied = w.raise 8 5 := by
    rw [State.applied_eq h, hu, hv, hb, hw]
  have hkept : regsKept w (w.raise 8 5) [regKey 8 0x20] := w.raise_minor_regsKept (sev := 0) (by decide) (by decide)
  have hrd (f : Fld) (i : Nat) (hk : f.key i 0 ∉ [regKey 8 0x20]) (h6 : f.key i 0 / 0x10000 ≠ 6) : s.applied.rd f i = v.applyEnds.rd f i := by
    rw [ht, hkept.rd hk, hseal.rd h6, hb]
    rfl
  have hbh : b.hearth = v.hearth := hb ▸ v.applyEnds_hearth
  have hth : s.applied.hearth = v.hearth := by
    rw [ht, State.raise_hearth, hseal.hearth]
    exact hbh
  have hrelaid : u.hearth = { s.hearth with layout := l, applying := none, resident := [] } := huhearth.trans hhearth
  have htc : s.applied.cache = (s.relaid l).cache := by
    rw [ht, State.raise_cache, hseal.cache, ← hucache, ← hroom.cache, ← v.applyEnds_cache, ← hb]
  have hvgen : v.rd PG_GEN_GEN 8 = s.rd PG_GEN_GEN 8 := by
    rw [hroom.rd (by decide), ← hu, State.setBases_gen, State.rd_congr hregs]
  have hvbase : v.rd HTH_PART_PKT_BASE_MIB = l.cache % 2 ^ 12 := by
    rw [hroom.rd (by decide), ← hu, State.setBases_pktBase, hhearth]
  refine ⟨by rw [hth, hroom.layout, hrelaid], by rw [hth, hroom.applying, hrelaid], by rw [hth, hroom.resident, hrelaid], fun hne => by rw [htc]; exact hways hne, ?_, ?_, ?_, ?_, ?_, ?_, ?_, ?_⟩
  · rw [hrd _ _ (by decide) (by decide), hgen, hvgen]
  · rw [hrd _ _ (by decide) (by decide), hrd _ _ (by decide) (by decide), happ]
  · rw [hrd _ _ (by decide) (by decide), hbusy]
  · rw [hrd _ _ (by decide) (by decide), hpbusy]
  · rw [hrd _ _ (by decide) (by decide), hstate]
  · rw [hrd _ _ (by decide) (by decide), hbase, hvbase]
  · rw [ht, State.raise_boot, hseal.layout]
  · rw [ht]
    exact (State.raise_raisedIn w 8 5 (sev := 0) (by decide) rfl (by decide)).1

/-! ### Contexts that become resident (R69) -/

section
variable {s : State} {n : Nat} (hn : n ∈ s.hearth.ctxLoads)

/-- A context becomes resident beside those that stay: `v` is the state that has asked for its lines. -/
def State.ctxLoaded (s : State) (n : Nat) (r : List Nat) : State :=
  let v := s.askIn .context (s.rd HTH_PART_CTX_BASE_MIB) s.hearth.layout.qpMib 8
  ({ v with hearth := { v.hearth with resident := r ++ [n], ctxLoads := s.hearth.ctxLoads.filter (· != n) } } : State).sendsGo n

theorem State.askContext_loads (s : State) : (s.askIn .context (s.rd HTH_PART_CTX_BASE_MIB) s.hearth.layout.qpMib 8).hearth.ctxLoads = s.hearth.ctxLoads :=
  (congrArg (fun t : State => t.hearth.ctxLoads) (s.askIn_eq .context _ _ 8) :)

include hn

theorem State.contextLoad_room (hroom : s.hearth.resident.length < s.ctxRoom) : s.contextLoad n = s.ctxLoaded n s.hearth.resident := by
  have hin : s.hearth.ctxLoads.contains n = true := by simp [hn]
  unfold State.contextLoad State.ctxLoaded
  simp only [hin, Bool.not_true, Bool.false_eq_true, if_false, if_pos hroom, s.askContext_loads]

theorem State.contextLoad_evicts {x : Nat} (hfull : s.ctxRoom ≤ s.hearth.resident.length) (hx : s.hearth.resident.find? (fun x => !s.ctxHeld x) = some x) :
    s.contextLoad n = s.ctxLoaded n (s.hearth.resident.erase x) := by
  have hin : s.hearth.ctxLoads.contains n = true := by simp [hn]
  unfold State.contextLoad State.ctxLoaded
  simp only [hin, Bool.not_true, Bool.false_eq_true, if_false, if_neg (Nat.not_lt.mpr hfull), hx, s.askContext_loads]

theorem State.contextLoad_held (hfull : s.ctxRoom ≤ s.hearth.resident.length) (hheld : ∀ x ∈ s.hearth.resident, s.ctxHeld x = true) : s.contextLoad n = s := by
  have hin : s.hearth.ctxLoads.contains n = true := by simp [hn]
  have hnone : s.hearth.resident.find? (fun x => !s.ctxHeld x) = none := List.find?_eq_none.mpr fun x hx => by simp [hheld x hx]
  unfold State.contextLoad
  simp only [hin, Bool.not_true, Bool.false_eq_true, if_false, if_neg (Nat.not_lt.mpr hfull), hnone]

end

/-- Settles O43: the layout, the damper, the contexts. -/
theorem hearthLayoutAndDamper : Obligations.HearthLayoutAndDamper := by
  refine fun s => ⟨fun hready hfree => ⟨fun hsum hne => ?_, fun herr => ?_, fun hsame => ?_, fun herr hne => ?_⟩, fun hready hbusy => ?_,
    fun hready => ?_, fun l hl => ?_, fun hfree => ?_, fun bank hready => ?_, fun bank hready => ?_,
    fun n hn => ⟨fun hroom => ?_, fun x hfull hx => ?_, fun hfull hheld => ?_⟩, fun n hn => ?_⟩
  · exact State.applyErr_sum hsum hne
  · exact ⟨_, exec_partitionApply_refused hready hfree herr, s.applyAnswer (s.applyErr_lt _) (sev := 1) (by decide) (by decide)⟩
  · have herr : s.applyErr s.reqLayout = 0 := hsame ▸ State.applyErr_same
    exact ⟨_, (exec_partitionApply_admitted hready hfree herr).trans (congrArg Host.Outcome.next (if_pos hsame)),
      s.applyAnswer (e := 0) (n := 5) (by decide) (sev := 0) (by decide) (by decide)⟩
  · obtain ⟨hE, hB, hP, hS, hkept⟩ := s.applyStarts s.reqLayout
    exact ⟨_, (exec_partitionApply_admitted hready hfree herr).trans (congrArg Host.Outcome.next (if_neg hne)), rfl, hE, hB, hP, hS, hkept, rfl⟩
  · rw [exec_partitionApply hready]
    unfold State.applyLayout
    exact congrArg Host.Outcome.next (if_pos hbusy)
  · show (.next (if s.ready 0 then _ else s.accessErr 7 true (regKey 8 0x130)) : Res) = _
    rw [hready, if_neg Bool.false_ne_true]
  · exact ⟨s.applied, rfl, State.applied_reads hl⟩
  · show (.next s.applied : Res) = _
    unfold State.applied
    rw [hfree]
  · intro v bk hits
    obtain ⟨hexec, hmono, hregs, hhearth⟩ := exec_damperSample bank hready
    obtain ⟨w, hdamper, hwmono, hwlast, hwlevel, hwpkt, hwbank, hshut, hhalf⟩ := v.damper_measured (v.bankPressure + bank)
    obtain ⟨htmono, htlast, htmeasured, htlevel, htpkt, htbank, htnew⟩ := w.setLevel_reads w.levelNow
    have hpressure : v.pktPressure = s.pktPressure := State.pktPressure_congr hhearth
    have hhits (f : Fld) : hits f ↔ v.rd f ≤ v.pktPressure ∨ v.rd f ≤ min 64 (v.bankPressure + bank) := by rw [State.rd_congr hregs, hpressure]
    refine ⟨w.setLevel w.levelNow, by rw [← hdamper]; exact hexec, ?_, ?_, ?_, ?_, fun hon hoff => ?_, fun hon hnot hoff hm => ?_⟩
    · rw [htmono, hwmono, hmono]
    · rw [htlast, hwlast, htmono, hwmono]
    · rw [htpkt, hwpkt, hpressure]
    · rw [htbank, hwbank]
    · have hmeasured := hshut ((hhits _).mp hon) ((hhits _).mp hoff)
      have hnow : w.levelNow = 2 := State.levelNow_shut hmeasured
      rw [hnow] at htmeasured htlevel htnew ⊢
      refine ⟨htmeasured.trans hmeasured, htlevel, fun hold => htnew ?_⟩
      rwa [hwlevel, hhearth]
    · exact htmeasured.trans (hhalf ((hhits _).mp hon) (fun k => hnot ((hhits _).mpr k)) ((hhits _).mp hoff) (by rwa [hhearth]))
  · show (.next (if s.ready 8 then _ else s) : Res) = _
    rw [hready, if_neg Bool.false_ne_true]
  · exact congrArg Host.Outcome.next (State.contextLoad_room hn hroom)
  · exact congrArg Host.Outcome.next (State.contextLoad_evicts hn hfull hx)
  · exact congrArg Host.Outcome.next (State.contextLoad_held hn hfull hheld)
  · show (.next (s.contextLoad n) : Res) = _
    unfold State.contextLoad
    rw [if_pos (by simp [hn])]

end Sys2Proof.Machine
end

section
/-! PROOFS. The damper's thresholds (O24). -/

namespace Sys2Proof.Machine

/-- A write that breaks a condition of a register whose refusal has an event of its own: recorded, and the event raised; nothing is stored (R36, R496). -/
theorem PlainReg.busWrite_refused {page off : Nat} {d : RegDesc} (h : PlainReg page off d) {s : State} (v : Word64) (hh : s.hidden false page = false)
    (hopen : s.frozenBy page = 0 ∨ ∀ f ∈ d.fields, isConfig page off f = false)
    (hbad : s.writeOk page off (mix d.rwMask (s.reg (regKey page off)) v) v = false) {n : Nat} (hev : refusedEvent page off = some n) :
    s.busWrite (regKey page off) 8 v = (s.accessErr 5 true (regKey page off)).raise page n := by
  obtain ⟨hle, -, h4, -, -⟩ := h.block
  obtain ⟨h40, ho, h8, hr⟩ := h.place
  have hcount : isCounterPage page = false := by
    simp [isCounterPage]
    omega
  rw [State.busWrite_regKey s v (by omega) (by omega) h8 (inMsix_regKey page ho) (mapped_of_le hle) hcount hh h.desc, if_neg (Nat.not_lt.mpr h40)]
  unfold State.blockWrite
  dsimp only
  rw [if_neg (fun k => hr k.2), if_neg (fun k => h4 k.1), h.newValue hopen, BitVec.and_allOnes, hbad, hev]
  rfl

def dmpThreshDesc : RegDesc := ⟨0x158, 1, 0x8, 0xA343A2830, [⟨47, 32, .rw⟩, ⟨30, 24, .rw⟩, ⟨22, 16, .rw⟩, ⟨14, 8, .rw⟩, ⟨6, 0, .rw⟩]⟩

def dmpThreshFields : List Fld := [HTH_DMP_THRESH_HALF_OFF, HTH_DMP_THRESH_HALF_ON, HTH_DMP_THRESH_SHUT_OFF, HTH_DMP_THRESH_SHUT_ON, HTH_DMP_THRESH_HOLD_US]

theorem dmpThresh_plain : PlainReg 8 0x158 dmpThreshDesc := ⟨by decide, by decide, by decide, by decide⟩

/-- Every field of the register is written: a write leaves none at its old value. -/
theorem dmpThresh_mix (old v : Word64) : ∀ f ∈ dmpThreshFields, f.of (mix dmpThreshDesc.rwMask old v) = f.of v := by
  have hmask : ∀ f ∈ dmpThreshFields, f.hi < 64 ∧ ∀ i < 64, f.lo ≤ i → i ≤ f.hi → dmpThreshDesc.rwMask.getLsbD i = true := by decide
  intro f hf
  obtain ⟨h64, hin⟩ := hmask f hf
  exact bits_mix_in (getLsbD_range hin h64)

/-- The order of the thresholds, and a HOLD_US that is not 0 (R87). -/
theorem hthOk_dmpThresh (v : Word64) : hthOk 0x158 v = true ↔
    (HTH_DMP_THRESH_HALF_OFF.of v < HTH_DMP_THRESH_HALF_ON.of v ∧ HTH_DMP_THRESH_HALF_ON.of v ≤ HTH_DMP_THRESH_SHUT_OFF.of v
      ∧ HTH_DMP_THRESH_SHUT_OFF.of v < HTH_DMP_THRESH_SHUT_ON.of v ∧ HTH_DMP_THRESH_SHUT_ON.of v ≤ 64) ∧ HTH_DMP_THRESH_HOLD_US.of v ≠ 0 := by
  show (_ && _) = true ↔ _
  simp only [Bool.and_eq_true, decide_eq_true_eq, and_assoc, Nat.one_le_iff_ne_zero]

/-- The conditions are those of the value that is written. -/
theorem State.writeOk_dmpThresh (s : State) (old v op : Word64) : s.writeOk 8 0x158 (mix dmpThreshDesc.rwMask old v) op = hthOk 0x158 v := by
  have hmix := dmpThresh_mix old v
  simp only [dmpThreshFields, List.forall_mem_cons, List.not_mem_nil, false_imp_iff, implies_true, and_true] at hmix
  obtain ⟨hHalfOff, hHalfOn, hShutOff, hShutOn, hHold⟩ := hmix
  show hthOk 0x158 _ = _
  rw [Bool.eq_iff_iff, hthOk_dmpThresh, hthOk_dmpThresh, hHalfOff, hHalfOn, hShutOff, hShutOn, hHold]

/-- Nothing else starts with a write of the thresholds. -/
theorem State.afterWrite_dmpThresh (t : State) (old new op : Word64) : t.afterWrite 8 0x158 old new op = t := rfl

section
variable {s : State} {v : Word64} (hh : s.hidden false 8 = false) (hfz : s.frozenBy 8 = 0)
include hh hfz

theorem exec_dmpThreshWrite_refused (hbad : hthOk 0x158 v = false) :
    exec (.registerWrite (regKey 8 0x158) 8 ⟨v, []⟩) s = .next ((s.accessErr 5 true (regKey 8 0x158)).raise 8 9).settle := by
  rw [exec_registerWrite, dmpThresh_plain.busWrite_refused v hh (.inl hfz) ((s.writeOk_dmpThresh ..).trans hbad) rfl]

theorem exec_dmpThreshWrite_accepted (hok : hthOk 0x158 v = true) :
    exec (.registerWrite (regKey 8 0x158) 8 ⟨v, []⟩) s
      = .next (s.stored 8 0x158 (s.reg (regKey 8 0x158)) (mix dmpThreshDesc.rwMask (s.reg (regKey 8 0x158)) v)).settle := by
  rw [exec_registerWrite, dmpThresh_plain.busWrite v hh (.inl hfz) ((s.writeOk_dmpThresh ..).trans hok), State.storeReg_stored s (by decide), State.afterWrite_dmpThresh]

end

/-- Settles O24: the refused write is recorded and raises BAD_CONFIG, the accepted one is `stored`. -/
theorem damperThresholdsChecked : Obligations.DamperThresholdsChecked := by
  refine fun s v hh hfz => ⟨fun hbroken => ?_, fun h1 h2 h3 h4 h5 => ?_⟩
  · have hbad : hthOk 0x158 v = false := by
      rw [← Bool.not_eq_true, hthOk_dmpThresh]
      rintro ⟨horder, hhold⟩
      exact hbroken.elim (fun k => k horder) hhold
    obtain ⟨u, hu⟩ : ∃ u, s.accessErr 5 true (regKey 8 0x158) = u := ⟨_, rfl⟩
    have hrecord : regsKept s u (regKey 0 0x300 :: evRegs 0) := hu ▸ s.accessErr_regsKept 5 true _
    have hkept : regsKept s (u.raise 8 9) ([regKey 0 0x300, regKey 0 0x20, regKey 0 0x18] ++ evRegs 8) :=
      (hrecord.mono (List.subset_append_left ..)).trans ((u.raise_regsKept 8 9).mono (List.subset_append_right ..))
    refine ⟨u.raise 8 9, ?_, hkept _ (by decide), (u.raise_raisedIn 8 9 (sev := 1) (by decide) rfl (by decide)).1, hkept⟩
    rw [exec_dmpThreshWrite_refused hh hfz hbad, hu]
  · refine ⟨_, exec_dmpThreshWrite_accepted hh hfz ((hthOk_dmpThresh v).mpr ⟨⟨h1, h2, h3, h4⟩, h5⟩), fun f hf => ?_, s.stored_regsKept _ _ _ _, s.stored_eq ..⟩
    have hkey : ∀ f ∈ dmpThreshFields, f.key = regKey 8 0x158 := by decide
    show bits (State.reg _ f.key) f.hi f.lo = _
    rw [hkey f hf, s.stored_reg_of_old (by decide) _ rfl]
    exact dmpThresh_mix _ v f hf

end Sys2Proof.Machine
end

section
/-! PROOFS. The banks of the Hearth: where a line lies, what joins a bank, what it grants and what a grant leaves alone (O47). -/

namespace Sys2Proof.Machine

/-! ### Where a line lies (R64, R65) -/

/-- Mixing a bank number with two others twice gives it back. -/
theorem xor_pair_cancel (b m n : Nat) : (b ^^^ m ^^^ n) ^^^ m ^^^ n = b := by
  rw [Nat.xor_assoc b m n, Nat.xor_assoc _ m n, Nat.xor_xor_cancel_right]

/-- The high bits that the map of R65 mixes into the bank are bits of the row. -/
theorem hearthBank_row {a : Nat} (ha : a < 2 ^ 31) : hearthBank a = (a / 64 % 512) ^^^ (hearthRow a % 512) ^^^ (hearthRow a / 512 % 128) := by
  have hlow : a / 64 / 512 % 512 = hearthRow a % 512 := by unfold hearthRow; omega
  have hhigh : a / 64 / 2 ^ 18 % 128 = hearthRow a / 512 % 128 := by unfold hearthRow; omega
  unfold hearthBank
  dsimp only
  rw [hlow, hhigh]

/-- A bank mixed with bits of the row is a number of 9 bits still. -/
theorem bankMix_lt {b : Nat} (hb : b < 512) (row : Nat) : b ^^^ (row % 512) ^^^ (row / 512 % 128) < 512 :=
  Nat.xor_lt_two_pow (n := 9) (Nat.xor_lt_two_pow hb (Nat.mod_lt _ (by decide))) (by omega)

theorem hearthBank_lt {a : Nat} (ha : a < 2 ^ 31) : hearthBank a < 512 := by
  rw [hearthBank_row ha]
  exact bankMix_lt (Nat.mod_lt _ (by decide)) _

theorem hearthRow_lt (a : Nat) : hearthRow a < 65536 := Nat.mod_lt _ (by decide)

/-- Bank and row name the line they were taken from. -/
theorem hearthAt_bank_row {a : Nat} (hline : a % 64 = 0) (ha : a < 2 ^ 31) : hearthAt (hearthBank a) (hearthRow a) = a := by
  unfold hearthAt
  rw [hearthBank_row ha, xor_pair_cancel]
  unfold hearthRow
  omega

/-- The line at a row of a bank, and that it lies there. -/
theorem hearthAt_reads {b r : Nat} (hb : b < 512) (hr : r < 65536) :
    hearthAt b r < 2 ^ 31 ∧ hearthAt b r % 64 = 0 ∧ hearthBank (hearthAt b r) = b ∧ hearthRow (hearthAt b r) = r := by
  have hmix := bankMix_lt hb r
  obtain ⟨x, hx⟩ : ∃ x, b ^^^ (r % 512) ^^^ (r / 512 % 128) = x := ⟨_, rfl⟩
  have hat : hearthAt b r = 64 * (r * 512 + x) := by rw [← hx]; rfl
  rw [hx] at hmix
  have hlt : hearthAt b r < 2 ^ 31 := by omega
  have hrow : hearthRow (hearthAt b r) = r := by unfold hearthRow; omega
  have hlow : hearthAt b r / 64 % 512 = x := by omega
  refine ⟨hlt, by omega, ?_, hrow⟩
  rw [hearthBank_row hlt, hrow, hlow, ← hx, xor_pair_cancel]

/-! ### What joins a bank (R66) -/

/-- A request joins its bank behind those that wait, and no other bank. -/
theorem State.ask_queue (s : State) (who : Requester) (a b : Nat) :
    NMap.getD (s.ask who a).banks.reqs b [] = NMap.getD s.banks.reqs b [] ++ if hearthBank a = b then [⟨who, hearthRow a, s.mono, s.mono⟩] else [] := by
  unfold State.ask
  split
  · next h =>
    subst h
    exact NMap.getD_insert_same ..
  · next h => rw [NMap.getD_insert_other _ _ _ (Ne.symm h), List.append_nil]

/-! ### Which request is granted (R84, R86) -/

theorem Requester.cls_lt (w : Requester) : w.cls < 4 := by
  cases w <;> decide

/-- Looking for the classes one after another finds the oldest request of the highest class that waits. -/
theorem findSome_cls (n : Nat) {k : Nat} {q : List BankReq} (hq : q ≠ []) (hcls : ∀ y ∈ q, k ≤ y.who.cls ∧ y.who.cls < k + n) :
    ∃ x, (List.range' k n).findSome? (fun c => q.find? (fun r => r.who.cls == c)) = some x
      ∧ ∃ a c, q = a ++ x :: c ∧ (∀ y ∈ a, x.who.cls < y.who.cls) ∧ ∀ y ∈ c, x.who.cls ≤ y.who.cls := by
  induction n generalizing k with
  | zero =>
    obtain ⟨y, hy⟩ := List.exists_mem_of_ne_nil q hq
    have := hcls y hy
    omega
  | succ n ih =>
    rw [List.range'_succ, List.findSome?_cons]
    rcases hfind : q.find? (fun r => r.who.cls == k) with _ | x
    · obtain ⟨x, hx, hsplit⟩ := ih (k := k + 1) fun y hy => by
        have hne : y.who.cls ≠ k := by simpa using List.find?_eq_none.mp hfind y hy
        have := hcls y hy
        omega
      exact ⟨x, by rw [hfind]; exact hx, hsplit⟩
    · obtain ⟨hx, a, c, hsplit, ha⟩ := List.find?_eq_some_iff_append.mp hfind
      have hxk : x.who.cls = k := by simpa using hx
      refine ⟨x, by rw [hfind], a, c, hsplit, fun y hy => ?_, fun y hy => ?_⟩
      · have hne : y.who.cls ≠ k := by simpa using ha y hy
        have := hcls y (hsplit ▸ List.mem_append_left _ hy)
        omega
      · have := hcls y (hsplit ▸ List.mem_append_right _ (List.mem_cons_of_mem _ hy))
        omega

/-- At OPEN the 16th grant goes to the oldest request; else the oldest of the highest class is granted. -/
theorem grantPick_reads (level n : Nat) {q : List BankReq} (hq : q ≠ []) : ∃ x, grantPick level n q = some x ∧ (level = 0 → n % 16 = 15 → q.head? = some x)
    ∧ (level ≠ 0 ∨ n % 16 ≠ 15 → ∃ a c, q = a ++ x :: c ∧ (∀ y ∈ a, x.who.cls < y.who.cls) ∧ ∀ y ∈ c, x.who.cls ≤ y.who.cls) := by
  unfold grantPick
  split
  · next h => exact ⟨q.head hq, List.head?_eq_some_head hq, fun _ _ => List.head?_eq_some_head hq, fun k => absurd h (by omega)⟩
  · next h =>
    obtain ⟨x, hx, hsplit⟩ := findSome_cls 4 hq (k := 0) fun y _ => ⟨Nat.zero_le _, by have := y.who.cls_lt; omega⟩
    exact ⟨x, hx, fun h0 h15 => absurd ⟨h0, h15⟩ h, fun _ => hsplit⟩

/-- A bank grants one of those that wait. -/
theorem grantPick_mem {level n : Nat} {q : List BankReq} {x : BankReq} (h : grantPick level n q = some x) : x ∈ q := by
  unfold grantPick at h
  split at h
  · exact List.mem_of_head? h
  · obtain ⟨c, -, hc⟩ := List.exists_of_findSome?_eq_some h
    exact List.mem_of_find?_eq_some hc

/-! ### What a grant leaves alone (R83, R84) -/

/-- The requests of class 3 in a queue, in order: who asks, for which row, since when. -/
def classThree (q : List BankReq) : List (Requester × Nat × Nat) := (q.filter (fun r => r.who.cls == 3)).map (fun r => (r.who, r.row, r.asked))

theorem classThree_erase {x : BankReq} (hx : x.who.cls ≠ 3) (q : List BankReq) : classThree (q.erase x) = classThree q := by
  unfold classThree
  rw [← List.erase_filter, List.erase_of_not_mem (fun h => hx (by simpa using (List.mem_filter.mp h).2))]

/-- The place that a withheld request takes changes only when it entered the queue. -/
theorem classThree_mapIdx {f : Nat → BankReq → BankReq} (hf : ∀ i x, ∃ e, f i x = { x with entered := e }) (q : List BankReq) :
    classThree (q.mapIdx f) = classThree q := by
  induction q generalizing f with
  | nil => rfl
  | cons x q ih =>
    obtain ⟨e, he⟩ := hf 0 x
    have htail : classThree (q.mapIdx fun i => f (i + 1)) = classThree q := ih fun i => hf (i + 1)
    unfold classThree at htail ⊢
    rw [List.mapIdx_cons, he, List.filter_cons, List.filter_cons]
    split
    · rw [List.map_cons, List.map_cons, htail]
    · exact htail

/-- The queues after one of them is kept or, left empty, forgotten. -/
theorem NMap.getD_queue {α : Type} (m : NMap (List α)) (b k : Nat) (q : List α) :
    NMap.getD (if q.isEmpty then NMap.erase m b else NMap.insert m b q) k [] = if k = b then q else NMap.getD m k [] := by
  by_cases hk : k = b
  · subst hk
    rw [if_pos rfl]
    split
    · next hq =>
      unfold NMap.getD
      rw [NMap.find_erase_same, List.isEmpty_iff.mp hq]
      rfl
    · exact NMap.getD_insert_same ..
  · rw [if_neg hk]
    split
    · unfold NMap.getD
      rw [NMap.find_erase_other m hk]
    · exact NMap.getD_insert_other _ _ _ hk

/-- From `a` to `b` banks granted: nothing else but the counts of PMU changed, and at SHUT every request of class 3 waits as it did. -/
structure Grants (a b : State) : Prop where
  frame : b = { a with banks := b.banks, pmu := b.pmu }
  shut : a.hearth.level = 2 → a.rd PG_CTRL_EN 8 ≠ 0 → ∀ k, classThree (NMap.getD b.banks.reqs k []) = classThree (NMap.getD a.banks.reqs k [])

theorem Grants.refl (s : State) : Grants s s := ⟨rfl, fun _ _ _ => rfl⟩

theorem Grants.trans {a b c : State} (h : Grants a b) (k : Grants b c) : Grants a c := by
  have hhearth : b.hearth = a.hearth := (congrArg State.hearth h.frame :)
  have hregs : b.regs = a.regs := (congrArg State.regs h.frame :)
  refine ⟨?_, fun hlevel hen j => ?_⟩
  · calc c = { b with banks := c.banks, pmu := c.pmu } := k.frame
      _ = _ := by rw [h.frame]
  · exact (k.shut (by rwa [hhearth]) (by rwa [State.rd_congr hregs]) j).trans (h.shut hlevel hen j)

theorem State.pmuCount_frame (s : State) (src ev inst tenant n : Nat) : s.pmuCount src ev inst tenant n = { s with pmu := (s.pmuCount src ev inst tenant n).pmu } := by
  unfold State.pmuCount
  split
  · rfl
  · refine List.foldlRecOn (motive := fun t : State => t = { s with pmu := t.pmu }) _ _ rfl (fun t ht e _ => ?_)
    dsimp only
    split
    · exact (congrArg (fun x : State => ({ x with pmu := _ } : State)) ht :)
    · exact ht

theorem State.pmuCount_grants (s : State) (src ev inst tenant n : Nat) : Grants s (s.pmuCount src ev inst tenant n) := by
  have hframe := s.pmuCount_frame src ev inst tenant n
  have hbanks : (s.pmuCount src ev inst tenant n).banks = s.banks := (congrArg State.banks hframe :)
  refine ⟨?_, fun _ _ _ => by rw [hbanks]⟩
  rw [hbanks]
  exact hframe

theorem State.grantable_shut {s : State} {r : BankReq} (h : s.grantable r = true) (hlevel : s.hearth.level = 2) (hen : s.rd PG_CTRL_EN 8 ≠ 0) : r.who.cls ≠ 3 := by
  unfold State.grantable at h
  rw [if_neg hen, hlevel] at h
  simpa using h

theorem State.grant_grants {s : State} (b t : Nat) {r : BankReq} (hr : s.grantable r = true) : Grants s (s.grant b t r) := by
  unfold State.grant
  refine (Grants.trans ⟨rfl, fun hlevel hen k => ?_⟩ (State.pmuCount_grants _ ..)).trans (State.pmuCount_grants _ ..)
  dsimp only
  rw [NMap.getD_queue]
  split
  · next h =>
    subst h
    rw [classThree_mapIdx fun i x => ?_, classThree_erase (State.grantable_shut hr hlevel hen)]
    split
    · exact ⟨_, rfl⟩
    · exact ⟨x.entered, rfl⟩
  · rfl

theorem bankLoop_grants (n : Nat) (s : State) (b : Nat) : Grants s (bankLoop n s b) := by
  induction n generalizing s with
  | zero => exact Grants.refl s
  | succ n ih =>
    unfold bankLoop
    dsimp only
    split
    · exact Grants.refl s
    · split
      · exact Grants.refl s
      · split
        · next x hpick =>
          have hmem := List.mem_of_mem_filter (grantPick_mem hpick)
          exact (State.grant_grants b _ (List.mem_filter.mp hmem).2).trans (ih _)
        · exact Grants.refl s

theorem State.banksGo_grants (s : State) : Grants s s.banksGo := by
  unfold State.banksGo
  split
  · exact Grants.refl s
  · refine Grants.trans ?_ ⟨rfl, fun _ _ _ => rfl⟩
    exact List.foldlRecOn _ _ (Grants.refl s) (fun u hu e _ => hu.trans (bankLoop_grants e.2.length u e.1))

/-- Settles O47: the map of R65, the queues, what is granted, and what a grant leaves alone. -/
theorem hearthBanks : Obligations.HearthBanks := by
  refine ⟨fun a hline ha => ⟨hearthBank_lt ha, hearthRow_lt a, hearthAt_bank_row hline ha⟩, fun b r => hearthAt_reads, fun level n q => grantPick_reads level n,
    fun s who a b => ⟨s.ask_queue who a b, fun hlevel hen => s.banksGo_grants.shut hlevel hen b, s.banksGo_grants.frame, State.banksGo_of_no_requests⟩⟩

end Sys2Proof.Machine
end

section
/-! PROOFS. Draining and enabling the cache, disabling and enabling a strand (O17). -/

namespace Sys2Proof.Machine

/-! ### HCA.CTRL (R108, R109, R110) -/

def hcaCtrlDesc : RegDesc := ⟨0x100, 1, 0x8, 0x3, [⟨1, 1, .rw⟩, ⟨0, 0, .rw⟩]⟩

theorem hcaCtrl_plain : PlainReg 9 0x100 hcaCtrlDesc := ⟨by decide, by decide, by decide, by decide⟩

theorem mix_and_of_and_eq {m old v w : Word64} (h : v &&& w = old &&& w) : mix m old v &&& w = old &&& w := by
  refine BitVec.eq_of_getLsbD_eq fun i hlt => ?_
  have hi : (v &&& w).getLsbD i = (old &&& w).getLsbD i := by rw [h]
  simp only [mix, BitVec.getLsbD_and, BitVec.getLsbD_or, BitVec.getLsbD_not, hlt, decide_true, Bool.true_and] at hi ⊢
  cases m.getLsbD i
  · simp
  · simpa using hi

/-- A write that changes no configuration field leaves PG_GEN alone (R46). -/
theorem State.stored_regsKept_of_config (s : State) {page off : Nat} {old new : Word64} (h : (new ^^^ old) &&& configMask page off = 0) :
    regsKept s (s.stored page off old new) [regKey page off] := by
  unfold State.stored
  dsimp only
  rw [if_pos h]
  split
  · exact regsKept.refl s _
  · exact s.setReg_regsKept _ _

theorem State.stored_evInbox (s : State) (page off : Nat) (old new : Word64) : (s.stored page off old new).evInbox = s.evInbox :=
  (congrArg State.evInbox (s.stored_eq page off old new)).trans rfl

/-- A write of HCA.CTRL that changes EN and leaves CLEAN_EN: the cache is drained or enabled. -/
theorem State.put_hcaCtrl {s : State} (hh : s.hidden false 9 = false) (hfz : s.frozenBy 9 = 0) {v : Word64} {en : Bool} (hen : bit v 0 = en)
    (hold : s.rd HCA_CTRL_EN = b2n (!en)) (hclean : v &&& 2 = s.reg (regKey 9 0x100) &&& 2) :
    ∃ u : State, s.put 9 0x100 v = (u.cacheEn en).settle ∧ u.evInbox = s.evInbox ∧ regsKept s u [HCA_CTRL_EN.key] := by
  have hnew : bit (mix hcaCtrlDesc.rwMask (s.reg (regKey 9 0x100)) v) 0 = en := by
    rw [bit_eq_bits, bits_mix_in (getLsbD_range (by decide) (by decide)), ← bit_eq_bits, hen]
  have hwas : bit (s.reg (regKey 9 0x100)) 0 = !en := by
    have h0 : bits (s.reg (regKey 9 0x100)) 0 0 = b2n (!en) := hold
    rw [bit_eq_bits, h0]
    cases en <;> rfl
  have hconfig : (mix hcaCtrlDesc.rwMask (s.reg (regKey 9 0x100)) v ^^^ s.reg (regKey 9 0x100)) &&& configMask 9 0x100 = 0 :=
    xor_and_eq_zero.mpr (mix_and_of_and_eq hclean)
  refine ⟨_, ?_, s.stored_evInbox .., s.stored_regsKept_of_config hconfig⟩
  rw [hcaCtrl_plain.put v hh (by decide) (.inl hfz) rfl]
  show State.settle (if 0x100 = 0x100 ∧ (bit _ 0 != bit _ 0) = true then _ else _) = _
  rw [hnew, hwas, if_pos ⟨rfl, by cases en <;> rfl⟩]

/-! ### The cache's state (R109, R110) -/

theorem State.setCacheSt_regsKept (s : State) (st : Nat) : regsKept s (s.setCacheSt st) [HCA_STAT_STATE.key, regKey 9 0x18] :=
  ((s.wr_regsKept HCA_STAT_STATE st 0 0).mono (List.cons_subset_cons _ (List.nil_subset _))).trans
    ((State.wr_regsKept _ PG_STAT_STATE st 9 0).mono (List.subset_cons_self _ _))

theorem State.rd_setCacheSt (s : State) {st : Nat} (h : st < 4) : (s.setCacheSt st).rd HCA_STAT_STATE = st := by
  unfold State.setCacheSt
  rw [State.rd_wr_other _ _ _ _ _ _ _ _ (by decide), State.rd_wr_same _ _ _ _ _ (by decide) (by decide)]
  exact Nat.mod_eq_of_lt h

theorem State.cacheEn_drains {s : State} (h : s.rd HCA_STAT_STATE = 1) : s.cacheEn false = ((s.wr HCA_CTRL_EN 1).setCacheSt 2).raise 9 0 := by
  unfold State.cacheEn
  rw [h]
  rfl

theorem State.cacheEn_enables {s : State} (h : s.rd HCA_STAT_STATE = 0) :
    s.cacheEn true = ((((s.wr HCA_CTRL_EN 0).setCacheSt 1).wr HCA_CTRL_EN 1).bumpGen 9).raise 9 2 := by
  unfold State.cacheEn
  rw [h]
  rfl

section
variable {s : State} (hh : s.hidden false 9 = false) (hfz : s.frozenBy 9 = 0)
include hh hfz

/-- CACHE_DRAIN of an enabled cache: DRAINING, with its event (R110 step 1). -/
theorem exec_cacheDrain (hen : s.rd HCA_CTRL_EN = 1) (hst : s.rd HCA_STAT_STATE = 1) :
    ∃ t : State, exec .cacheDrain s = .next t.settle ∧ t.rd HCA_STAT_STATE = 2 ∧ raisedIn s t 9 0
      ∧ regsKept s t (HCA_CTRL_EN.key :: HCA_STAT_STATE.key :: evRegs 9) := by
  have hbit : bit (s.reg (regKey 9 0x100) &&& ~~~1) 0 = false := by simp [bit]
  obtain ⟨u, hput, hev, hkept⟩ := State.put_hcaCtrl hh hfz hbit hen (by rw [BitVec.and_assoc]; rfl)
  have hu : u.rd HCA_STAT_STATE = 1 := (hkept.rd (by decide)).trans hst
  refine ⟨((u.wr HCA_CTRL_EN 1).setCacheSt 2).raise 9 0, ?_, ?_, raisedIn_raise 9 0 hev rfl rfl (by decide), ?_⟩
  · rw [← State.cacheEn_drains hu, ← hput]
    rfl
  · rw [State.rd_raise _ _ _ (by decide) (by decide), State.rd_setCacheSt _ (by decide)]
  · exact (hkept.mono (by decide)).trans <| ((u.wr_regsKept HCA_CTRL_EN 1 0 0).mono (by decide)).trans <|
      ((State.setCacheSt_regsKept _ 2).mono (by decide)).trans ((State.raise_regsKept _ 9 0).mono (by decide))

/-- CACHE_ENABLE of a disabled cache: ENABLED, with its event (R109). -/
theorem exec_cacheEnable (hen : s.rd HCA_CTRL_EN = 0) (hst : s.rd HCA_STAT_STATE = 0) :
    ∃ t : State, exec .cacheEnable s = .next t.settle ∧ t.rd HCA_STAT_STATE = 1 ∧ t.rd HCA_CTRL_EN = 1 ∧ raisedIn s t 9 2
      ∧ regsKept s t (HCA_CTRL_EN.key :: HCA_STAT_STATE.key :: regKey 9 0x38 :: evRegs 9) := by
  have hbit : bit (s.reg (regKey 9 0x100) ||| 1) 0 = true := by simp [bit]
  have hclean : (s.reg (regKey 9 0x100) ||| 1) &&& 2 = s.reg (regKey 9 0x100) &&& 2 := by
    have hone : (1 : Word64) &&& 2 = 0#64 := rfl
    rw [BitVec.and_comm, BitVec.and_or_distrib_left, BitVec.and_comm 2 1, hone, BitVec.or_zero, BitVec.and_comm]
  obtain ⟨u, hput, hev, hkept⟩ := State.put_hcaCtrl hh hfz hbit hen hclean
  have hu : u.rd HCA_STAT_STATE = 0 := (hkept.rd (by decide)).trans hst
  refine ⟨((((u.wr HCA_CTRL_EN 0).setCacheSt 1).wr HCA_CTRL_EN 1).bumpGen 9).raise 9 2, ?_, ?_, ?_, raisedIn_raise 9 2 hev rfl rfl (by decide), ?_⟩
  · rw [← State.cacheEn_enables hu, ← hput]
    rfl
  · rw [State.rd_raise _ _ _ (by decide) (by decide), (State.bumpGen_regsKept _ 9).rd (by decide), State.rd_wr_other _ _ _ _ _ _ _ _ (by decide),
      State.rd_setCacheSt _ (by decide)]
  · rw [State.rd_raise _ _ _ (by decide) (by decide), (State.bumpGen_regsKept _ 9).rd (by decide), State.rd_wr_same _ _ _ _ _ (by decide) (by decide)]
    rfl
  · exact (hkept.mono (by decide)).trans <| ((u.wr_regsKept HCA_CTRL_EN 0 0 0).mono (by decide)).trans <|
      ((State.setCacheSt_regsKept _ 1).mono (by decide)).trans <| ((State.wr_regsKept _ HCA_CTRL_EN 1 0 0).mono (by decide)).trans <|
      ((State.bumpGen_regsKept _ 9).mono (by decide)).trans ((State.raise_regsKept _ 9 2).mono (by decide))

end

/-! ### MIR.LINK_CFG (R325, R339) -/

def linkCfgDesc : RegDesc := ⟨0x100, 1, 0x8, 0xFF000007D0, [⟨39, 32, .rw⟩, ⟨15, 0, .rw⟩]⟩

theorem linkCfg_plain : PlainReg 0xB 0x100 linkCfgDesc := ⟨by decide, by decide, by decide, by decide⟩

/-- A fold that acts at one entry of its list alone. -/
theorem foldl_acts_once {α β : Type} {f : β → α → β} {l : List α} {n : α} (hl : l.Nodup) (hn : n ∈ l) (hf : ∀ m ∈ l, m ≠ n → ∀ s, f s m = s) (s : β) :
    l.foldl f s = f s n := by
  obtain ⟨a, b, rfl⟩ := List.append_of_mem hn
  obtain ⟨hna, hnb⟩ : n ∉ a ∧ n ∉ b := by simpa using (List.nodup_middle.mp hl).notMem
  have hskip {l : List α} (hsub : l ⊆ a ++ n :: b) (hnl : n ∉ l) (s : β) : l.foldl f s = s :=
    List.foldlRecOn (motive := fun t => t = s) l f rfl fun t ht m hm => (hf m (hsub hm) (fun k => hnl (k ▸ hm)) t).trans ht
  rw [List.foldl_append, List.foldl_cons, hskip (by simp) hna, hskip (by simp) hnb]

/-- Where one enable bit alone changes, its strand alone leaves or comes back. -/
theorem State.strandsAfter_one (s : State) {old new : Word64} {n : Nat} (hn : n < 8) {on : Bool} (hold : bit old (32 + n) = !on) (hnew : bit new (32 + n) = on)
    (hsame : ∀ m < 8, m ≠ n → bit new (32 + m) = bit old (32 + m)) : s.strandsAfter old new = if on then s.strandOn n else s.strandOff n := by
  unfold State.strandsAfter
  rw [foldl_acts_once List.nodup_range (List.mem_range.mpr hn) fun m hm hmn t => ?_]
  · dsimp only
    rw [hold, hnew]
    cases on <;> rfl
  · dsimp only
    rw [hsame m (List.mem_range.mp hm) hmn]
    cases bit old (32 + m) <;> rfl

/-- One bit of a word replaced. -/
theorem bit_setBits_one (w : Word64) {n : Nat} (hn : n < 64) (b : Bool) {m : Nat} (hm : m < 64) :
    bit (setBits w n n (b2n b)) m = if m = n then b else bit w m := by
  rw [bit_eq_bits]
  split
  · next h =>
    subst h
    rw [bits_setBits_same w hm (Nat.le_refl m)]
    cases b <;> simp [b2n]
  · next h => rw [bits_setBits_other w hn hm (Nat.le_refl n) (by omega), ← bit_eq_bits]

/-- A strand's enable bit changes: it is written alone, and the strand is taken out or brought back (R325). -/
theorem State.putStrand_changes {s : State} {n : Nat} (hn : n < 8) (hh : s.hidden false 0xB = false) (hfz : s.frozenBy 0xB = 0)
    (hretry : 100 ≤ s.rd MIR_LINK_CFG_RETRY_NS) {on : Bool} (hwas : bit (s.reg (regKey 0xB 0x100)) (32 + n) = !on) :
    ∃ t : State, s.putStrand n on = (if on then t.strandOn n else t.strandOff n).settle ∧ bit (t.reg (regKey 0xB 0x100)) (32 + n) = on
      ∧ (∀ m, m < 8 → m ≠ n → bit (t.reg (regKey 0xB 0x100)) (32 + m) = bit (s.reg (regKey 0xB 0x100)) (32 + m))
      ∧ regsKept s t [regKey 0xB 0x100, regKey 0xB 0x38] ∧ t = { s with regs := t.regs } := by
  obtain ⟨old, hold⟩ : ∃ w, s.reg (regKey 0xB 0x100) = w := ⟨_, rfl⟩
  obtain ⟨v, hv⟩ : ∃ w, setBits old (32 + n) (32 + n) (b2n on) = w := ⟨_, rfl⟩
  obtain ⟨new, hnew⟩ : ∃ w, mix linkCfgDesc.rwMask old v = w := ⟨_, rfl⟩
  have hbit (m : Nat) (hm : m < 8) : bit new (32 + m) = if m = n then on else bit old (32 + m) := by
    have hin : linkCfgDesc.rwMask.getLsbD (32 + m) = true := getLsbD_range (hi := 39) (lo := 32) (by decide) (by decide) _ (by omega) (by omega)
    have hmix : bits new (32 + m) (32 + m) = bits v (32 + m) (32 + m) := by
      rw [← hnew]
      exact bits_mix_in fun i hl hh => Nat.le_antisymm hl hh ▸ hin
    rw [bit_eq_bits, hmix, ← bit_eq_bits, ← hv, bit_setBits_one old (by omega) on (by omega)]
    simp only [Nat.add_left_cancel_iff]
  have hon : bit new (32 + n) = on := by rw [hbit n hn, if_pos rfl]
  have hothers (m : Nat) (hm : m < 8) (hmn : m ≠ n) : bit new (32 + m) = bit old (32 + m) := by rw [hbit m hm, if_neg hmn]
  have hok : s.writeOk 0xB 0x100 new v = true := by
    have hfield : bits new 15 0 = bits old 15 0 := by
      rw [← hnew, bits_mix_in (getLsbD_range (by decide) (by decide)), ← hv, bits_setBits_other old (by omega) (by decide) (Nat.le_refl _) (by omega)]
    show decide (100 ≤ bits new 15 0) = true
    rw [hfield, ← hold]
    exact decide_eq_true hretry
  have hreg : (s.stored 0xB 0x100 old new).reg (regKey 0xB 0x100) = new := s.stored_reg_of_old (by decide) new hold
  refine ⟨s.stored 0xB 0x100 old new, ?_, by rw [hreg, hon], fun m hm hmn => by rw [hreg, hold, hothers m hm hmn], s.stored_regsKept _ _ _ _, s.stored_eq ..⟩
  unfold State.putStrand
  rw [Nat.mod_eq_of_lt hn, hold, hv, linkCfg_plain.put v hh (by decide) (.inl hfz) (by rw [hold, hnew]; exact hok), hold, hnew,
    ← State.strandsAfter_one _ hn (hold ▸ hwas) hon hothers]
  rfl

/-- Settles O17: the enable of the cache is `put_hcaCtrl`, that of a strand `putStrand_changes`. -/
theorem cacheAndStrandEnables : Obligations.CacheAndStrandEnables := by
  refine fun s => ⟨exec_cacheDrain, exec_cacheEnable, fun n hn hh hfz hretry => ⟨fun hwas => ?_, fun hwas => ?_⟩⟩
  · obtain ⟨t, hput, hrest⟩ := State.putStrand_changes (on := false) hn hh hfz hretry hwas
    exact ⟨t, congrArg Host.Outcome.next hput, hrest⟩
  · obtain ⟨t, hput, hrest⟩ := State.putStrand_changes (on := true) hn hh hfz hretry hwas
    exact ⟨t, congrArg Host.Outcome.next hput, hrest⟩

end Sys2Proof.Machine
end

section
/-! PROOFS. The work of the cache: SET_STALL, fills, write-backs that end, HCA_FLUSH and HCA_INVALIDATE (O31). -/

namespace Sys2Proof.Machine

theorem nextSettled_congr {a b : State} (h : a = b) : (.next a.settle : Res) = .next b.settle := by rw [h]

/-! ### SET_STALL (R97) -/

/-- The parked accesses for which SET_STALL stands raised. -/
def State.stallSaid (s : State) : List Nat := s.cache.stallSaid.filter (fun x => (s.dp.parked.map (fun a => a.seqNo)).contains x)

/-- The access that waits longest for a victim of a set, among those for which SET_STALL was not raised. -/
def State.stalled (s : State) (n : Nat) : Option Acc := s.dp.parked.find? (fun a => a.wait == .set n && !s.stallSaid.contains a.seqNo)

theorem State.mem_stallSaid {s : State} {a : Acc} (hp : a ∈ s.dp.parked) (h : a.seqNo ∈ s.cache.stallSaid) : a.seqNo ∈ s.stallSaid :=
  List.mem_filter.mpr ⟨h, List.contains_iff_mem.mpr (List.mem_map_of_mem hp)⟩

/-- SET_STALL is raised at a moment, and noted for the accesses `said`. -/
def State.sayStall (s : State) (due : Nat) (said : List Nat) : State :=
  { (s.upTo due).raise 9 4 with cache := { s.cache with stallSaid := said } }

theorem State.sayStall_mono (s : State) (due : Nat) (said : List Nat) : (s.sayStall due said).mono = max s.mono due :=
  ((s.upTo due).raise_mono 9 4).trans (s.upTo_mono due)

theorem State.sayStall_raisedIn (s : State) (due : Nat) (said : List Nat) : raisedIn s (s.sayStall due said) 9 4 :=
  (raisedIn_raise 9 4 (s.upTo_evInbox due) rfl rfl (by decide) : raisedIn s ((s.upTo due).raise 9 4) 9 4)

theorem State.sayStall_regsKept (s : State) (due : Nat) (said : List Nat) : regsKept s (s.sayStall due said) (evRegs 9) :=
  (regsKept.of_regs (s.upTo_regs due) _).trans ((s.upTo due).raise_regsKept 9 4)

theorem State.sayStall_dp (s : State) (due : Nat) (said : List Nat) : (s.sayStall due said).dp = s.dp :=
  ((s.upTo due).raise_dp 9 4).trans (s.upTo_dp due)

theorem State.setStall_of_stalled {s : State} {n : Nat} {a : Acc} (h : s.stalled n = some a) :
    s.setStall n = s.sayStall (a.since + us 100) (s.stallSaid ++ [a.seqNo]) := by
  unfold State.stalled State.stallSaid at h
  unfold State.setStall State.stallSaid State.sayStall
  dsimp only
  rw [h]
  simp

theorem State.setStall_of_none {s : State} {n : Nat} (h : s.stalled n = none) : s.setStall n = s := by
  unfold State.stalled State.stallSaid at h
  unfold State.setStall
  dsimp only
  rw [h]

theorem exec_setStall_raises {s : State} {n : Nat} {a : Acc} (h : s.stalled n = some a) :
    ∃ t : State, exec (.setStall n) s = .next t ∧ t.mono = max s.mono (a.since + 100000) ∧ raisedIn s t 9 4 ∧ a.seqNo ∈ t.cache.stallSaid
      ∧ regsKept s t (evRegs 9) ∧ t.dp = s.dp :=
  ⟨_, congrArg Host.Outcome.next (State.setStall_of_stalled h), s.sayStall_mono _ _, s.sayStall_raisedIn _ _, List.mem_append_right _ (List.mem_singleton_self _),
    s.sayStall_regsKept _ _, s.sayStall_dp _ _⟩

theorem exec_setStall_said {s : State} {n : Nat} (h : ∀ a ∈ s.dp.parked, a.wait = .set n → a.seqNo ∈ s.cache.stallSaid) : exec (.setStall n) s = .next s := by
  refine congrArg Host.Outcome.next (State.setStall_of_none (List.find?_eq_none.mpr fun a ha hbad => ?_))
  simp only [Bool.and_eq_true, beq_iff_eq, Bool.not_eq_true', List.contains_eq_mem, decide_eq_false_iff_not] at hbad
  exact hbad.2 (State.mem_stallSaid ha (h a ha hbad.1))

/-! ### What a read of DRAM finds (R374, R382) -/

/-- A line in which no error is injected decodes as it is told. -/
theorem State.eccAt_good {s : State} {k : Nat} {e : Ecc} (h : s.eccAt k e = .good) : e = .good := by
  unfold State.eccAt at h
  split at h
  · split at h <;> cases h
  · cases h
  · exact h

theorem eccResolve_good (mine : Nat) (addr : Nat → Nat → Nat) : eccResolve mine addr .good = .good := rfl

theorem State.eccAt_congr {s t : State} (h : t.integ = s.integ) (k : Nat) (e : Ecc) : t.eccAt k e = s.eccAt k e := by
  unfold State.eccAt State.injKind
  rw [h]

/-- A line that decodes well, or lies poisoned, is read as it lies. -/
theorem State.dramRead_good {s : State} {k : Nat} {ecc : Ecc} {e : Pte} (he : s.pte (k / 64) = e) (tw : Option Line)
    (h : (s.dramLine e.ch e.idx (k % 64)).poison = true ∨ s.eccAt (4 * dramKey e.ch e.idx (k % 64)) ecc = .good) :
    s.dramRead k ecc tw = (s, s.dramLine e.ch e.idx (k % 64)) := by
  subst he
  unfold State.dramRead
  extract_lets e j v r
  split
  · rfl
  · next hp =>
    have hgood := h.resolve_left hp
    obtain rfl := State.eccAt_good hgood
    rw [eccResolve_good, hgood]

/-- A line of the page table that decodes well and arrives leaves no trace. -/
theorem State.ptRead_good {s : State} {m : Nat} {ecc : Ecc} (h : s.eccAt (4 * dramKey (s.ptChannel m) (s.sysPlace (m / 64)).2 (m % 64)) ecc = .good) :
    s.ptRead m ecc false = s := by
  obtain rfl := State.eccAt_good h
  unfold State.ptRead
  dsimp only
  rw [eccResolve_good, h]
  rfl

/-! ### A fill (R98, R99) -/

theorem State.flitsCount_frame (s : State) (flits : List Nat) : s.flitsCount flits = { s with pmu := (s.flitsCount flits).pmu } :=
  List.foldlRecOn (motive := fun t : State => t = { s with pmu := t.pmu }) flits _ rfl fun t ht l _ =>
    (t.pmuCount_frame 0xF0 0x0F l 0 1).trans (congrArg (fun x : State => ({ x with pmu := _ } : State)) ht :)

/-- What the accesses held for a line go on as when it lands: those of a page-table line go on to their page. -/
def releasedAt (k : Nat) (l : List Acc) : List Acc := if isPtKey k then l.map (fun a => { a with ptOk := true }) else l

/-- The way that a fill leaves. -/
def Mshr.filled (m : Mshr) (v : DLine) : Way := { st := .clean, key := m.key, owner := m.tenant, data := v.data, poison := v.poison }

theorem State.askWay_banks (s : State) (who : Requester) (i : Nat) : ∃ banks, s.askWay who i = { s with banks := banks } := ⟨_, rfl⟩

theorem State.touch_plru (s : State) (i : Nat) : ∃ plru, s.touch i = { s with cache := { s.cache with plru := plru } } := ⟨_, rfl⟩

/-- A fill into a way changes the cache and the accesses that wait; it asks its bank for the line. -/
theorem State.fillLine_way (s : State) {m : Mshr} {i : Nat} (hway : m.way = some i) (v : DLine) :
    ∃ plru banks, s.fillLine m v = { s with
      cache := { s.cache with ways := NMap.insert s.cache.ways i (m.filled v), mshrs := s.cache.mshrs.filter (fun r => r.key != m.key), plru := plru }
      dp := { s.dp with parked := (releasedAt m.key m.accs).foldl insertAcc s.dp.parked }
      banks := banks } := by
  unfold State.fillLine releasedAt
  extract_lets c u w again
  obtain ⟨plru, banks, hw⟩ : ∃ plru banks, w = { s with
      cache := { s.cache with ways := NMap.insert s.cache.ways i (m.filled v), mshrs := s.cache.mshrs.filter (fun r => r.key != m.key), plru := plru }
      banks := banks } := by
    unfold w
    rw [hway]
    dsimp only
    obtain ⟨banks, hbanks⟩ := State.askWay_banks (u.setWay i (m.filled v)) .fill i
    rw [← Mshr.filled, hbanks]
    split
    · obtain ⟨plru, hplru⟩ := State.touch_plru ({ u.setWay i (m.filled v) with banks := banks } : State) i
      exact ⟨plru, banks, hplru⟩
    · exact ⟨_, banks, rfl⟩
  refine ⟨plru, banks, ?_⟩
  clear_value w
  subst hw
  rw [hway]
  split <;> rfl

/-- A fill into a way: the way CLEAN with the line, its miss register free, its accesses waiting no more for it; registers and tiers as they were. -/
theorem exec_fillLands_filled {s : State} {k i : Nat} {m : Mshr} {found : LineRead} {flits : List Nat} {tw : Option Line} {v : DLine}
    (hm : s.cache.mshrs.find? (fun m => m.key == k) = some m) (hway : m.way = some i) (h : s.fillLands k found tw = (s.flitsCount flits).fillLine m v) :
    ∃ t : State, exec (.fillLands k found tw) s = .next t.settle ∧ t.wayAt i = some { st := .clean, key := k, owner := m.tenant, data := v.data, poison := v.poison }
      ∧ t.dp.parked = (releasedAt k m.accs).foldl insertAcc s.dp.parked ∧ (∀ r ∈ t.cache.mshrs, r.key ≠ k ∧ r ∈ s.cache.mshrs) ∧ t.regs = s.regs ∧ t.tier = s.tier := by
  obtain rfl : m.key = k := by simpa using List.find?_some hm
  refine ⟨_, nextSettled_congr h, ?_⟩
  obtain ⟨plru, banks, hfill⟩ := (s.flitsCount flits).fillLine_way hway v
  rw [hfill, s.flitsCount_frame flits]
  refine ⟨NMap.find_insert_same .., rfl, fun r hr => ?_, rfl, rfl⟩
  obtain ⟨hmem, hne⟩ := List.mem_filter.mp hr
  exact ⟨by simpa using hne, hmem⟩

section
variable {s : State} {k : Nat} {m : Mshr} {ecc : Ecc} {flits : List Nat} (hm : s.cache.mshrs.find? (fun m => m.key == k) = some m) (hflits : flits.length < 2)
include hm hflits

/-- The fill of a line whose read of its frame is good. -/
theorem State.fillLands_line (hpt : isPtKey k = false) {e : Pte} (he : s.pte (k / 64) = e) (tw : Option Line)
    (hread : (s.dramLine e.ch e.idx (k % 64)).poison = true ∨ s.eccAt (4 * dramKey e.ch e.idx (k % 64)) ecc = .good) :
    s.fillLands k ⟨ecc, flits⟩ tw = (s.flitsCount flits).fillLine m (s.dramLine e.ch e.idx (k % 64)) := by
  have hlost : decide (2 ≤ flits.length) = false := decide_eq_false (by omega)
  obtain ⟨u, hu⟩ : ∃ u, s.flitsCount flits = u := ⟨_, rfl⟩
  have hframe := s.flitsCount_frame flits
  rw [hu] at hframe
  have hline (j : Nat) : u.dramLine e.ch e.idx j = s.dramLine e.ch e.idx j := by rw [hframe]; rfl
  unfold State.fillLands
  rw [hm]
  dsimp only
  rw [hpt, hlost, hu, State.dramRead_good (e := e) (by rw [hframe]; exact he) tw (by rw [hline, State.eccAt_congr (by rw [hframe])]; exact hread), hline]
  rfl

/-- The fill of a line of the page table whose read is good. -/
theorem State.fillLands_pt (hpt : isPtKey k = true) (tw : Option Line)
    (hread : s.eccAt (4 * dramKey (s.ptChannel (k - 2 ^ 42)) (s.sysPlace ((k - 2 ^ 42) / 64)).2 ((k - 2 ^ 42) % 64)) ecc = .good) :
    s.fillLands k ⟨ecc, flits⟩ tw = (s.flitsCount flits).fillLine m {} := by
  have hlost : decide (2 ≤ flits.length) = false := decide_eq_false (by omega)
  have hgood : (s.flitsCount flits).ptRead (k - 2 ^ 42) ecc false = s.flitsCount flits := State.ptRead_good (by rw [s.flitsCount_frame flits]; exact hread)
  unfold State.fillLands
  rw [hm]
  dsimp only
  rw [hpt, hlost, hgood]
  rfl

end

/-! ### Write-backs that end (R101, R102) -/

theorem State.dramLine_setDram_same (s : State) (ch idx j : Nat) (v : DLine) : (s.setDram ch idx j v).dramLine ch idx j = v := NMap.getD_put_same ..

theorem State.flueDone_flue {s : State} {k : Nat} {f : Flue} (h : s.cache.flue.find? (fun f => f.key == k && !s.keyMoving k) = some f) (hpt : isPtKey k = false) :
    s.flueDone k = { s.setDram (s.pte (k / 64)).ch (s.pte (k / 64)).idx (k % 64) ⟨f.data, f.poison⟩ with cache := { s.cache with flue := s.cache.flue.erase f } } := by
  unfold State.flueDone
  rw [h]
  dsimp only
  rw [hpt]
  rfl

theorem State.flueDone_writeBack {s : State} {k : Nat} {f : Flue} (hflue : s.cache.flue.find? (fun f => f.key == k && !s.keyMoving k) = none)
    (h : s.cache.writeBacks.find? (fun f => f.key == k) = some f) :
    s.flueDone k = { s with cache := { s.cache with writeBacks := s.cache.writeBacks.erase f } } := by
  unfold State.flueDone
  rw [hflue, h]

/-! ### HCA_FLUSH and HCA_INVALIDATE (R112, R113) -/

@[simp] theorem State.running_cache (s : State) (q : Nat) : (s.running q).cache = s.cache := (congrArg State.cache (s.running_eq q)).trans rfl

/-- A block command that may run, and whose fields are 0 where they must be, is carried out by its meaning (R497). -/
theorem State.blockCmd_blockRuns {s : State} {q blk i op : Nat} {c : RqCmd} {needsRun : Bool} (h : s.blockRuns q c blk i op needsRun) {zeroOk : RqCmd → Bool}
    (hz : zeroOk c = true) (f : State → Nat → RqCmd → State) : s.blockCmd q blk op needsRun zeroOk f = f (s.running q) i c := by
  obtain ⟨hstart, hop, hblock, hcheck⟩ := h
  unfold State.blockCmd
  rw [hstart]
  dsimp only
  rw [hblock]
  dsimp only
  rw [if_pos ⟨rfl, hop⟩, hcheck, hz]
  rfl

/-- The lines of a command's range and filter that are valid in the cache. -/
def State.cmdTodo (s : State) (c : RqCmd) : List Nat := (s.cache.ways.filter (fun e => e.2.st != .detached && cmdMatch c e.2)).map (fun e => e.2.key)

/-- The range of a cache command is aligned and lies in the pool. -/
def cacheRangeOk (c : RqCmd) : Prop := c.index % 64 = 0 ∧ c.w5.toNat % 64 = 0 ∧ c.index < 2 ^ 48 ∧ c.index + c.w5.toNat ≤ 2 ^ 48

theorem State.cacheCmd_starts (s : State) (q : Nat) {c : RqCmd} (inv : Bool) (h : cacheRangeOk c) :
    s.cacheCmd q c inv = ({ s with cache := { s.cache with cmds := s.cache.cmds ++ [⟨q, inv, s.cmdTodo c, [], 0, 0⟩] } } : State).cmdsGo := by
  obtain ⟨hfirst, hlen, hlow, hhigh⟩ := h
  unfold State.cacheCmd
  dsimp only
  rw [if_neg (by simp; omega)]
  rfl

theorem State.cacheCmd_refused (s : State) (q : Nat) {c : RqCmd} (inv : Bool) (h : ¬cacheRangeOk c) : s.cacheCmd q c inv = s.finishCmd q 0x40 0 := by
  unfold State.cacheCmd
  dsimp only
  rw [if_pos (by unfold cacheRangeOk at h; simp; omega)]

/-- HCA_FLUSH and HCA_INVALIDATE are one command but for what they do with a line. -/
theorem exec_cacheCmd {s : State} {q : Nat} {c : RqCmd} {inv : Bool} (h : s.blockRuns q c 9 0 (if inv then 0x41 else 0x40) false) (hz : cacheZero c = true) :
    exec (if inv then .hcaInvalidate q else .hcaFlush q) s = .next ((s.running q).cacheCmd q c inv).settle := by
  cases inv <;> exact nextSettled_congr (State.blockCmd_blockRuns h hz _)

/-! ### One line of a command (R113) -/

theorem State.wayAt_of_findWay {s : State} {k i : Nat} {x : Way} (h : s.findWay k = some (i, x)) : s.wayAt i = some x := by
  obtain ⟨w, -, hw⟩ := List.exists_of_findSome?_eq_some h
  split at hw
  · next y hy =>
    split at hw
    · obtain ⟨rfl, rfl⟩ := Prod.mk.inj (Option.some.inj hw)
      exact hy
    · cases hw
  · cases hw

theorem State.writeBackWay_not_dirty {s : State} {i : Nat} {x : Way} (h : s.wayAt i = some x) (hst : x.st ≠ .dirty) : s.writeBackWay i = s := by
  unfold State.writeBackWay
  rw [h]
  dsimp only
  rw [if_pos (bne_iff_ne.mpr hst)]

theorem State.invalidate_unpinned {s : State} {i : Nat} {x : Way} (h : s.wayAt i = some x) (hpins : x.pins = 0) : s.invalidate i = s.freeWay i := by
  unfold State.invalidate
  rw [h]
  exact if_pos hpins

section
variable {s : State} {k i : Nat} {x : Way} (hfind : s.findWay k = some (i, x)) (cc : CacheCmd)
include hfind

/-- A CLEAN line that no epoch holds: nothing is written back, and an invalidate takes it. -/
theorem State.cmdLine_clean (hsealed : x.unsealed = none) (hst : x.st = .clean) :
    s.cmdLine cc k = some (if cc.invalidate then (s.invalidate i, { cc with dropped := cc.dropped + 1 }) else (s, cc)) := by
  have hback : s.writeBackWay i = s := State.writeBackWay_not_dirty (State.wayAt_of_findWay hfind) (by rw [hst]; decide)
  unfold State.cmdLine
  rw [hfind]
  dsimp only
  have hfilling : (WaySt.clean == WaySt.filling) = false := by decide
  have hdirty : (WaySt.clean == WaySt.dirty) = false := by decide
  rw [hsealed, hst, hback, hfilling, hdirty]
  simp only [Option.isSome_none, Bool.or_self, Bool.false_and, Bool.false_eq_true, if_false]
  split <;> rfl

/-- A line being filled, or held by an epoch that is not sealed, waits. -/
theorem State.cmdLine_waits (h : x.st = .filling ∨ x.unsealed.isSome = true) : s.cmdLine cc k = none := by
  unfold State.cmdLine
  rw [hfind]
  dsimp only
  rw [if_pos (by simpa [or_comm] using h)]

end

/-- Settles O31, in the order of the statement: SET_STALL, fills, write-backs, the commands, their lines. -/
theorem hearthCacheWork : Obligations.HearthCacheWork := by
  refine ⟨fun s k => ⟨fun n a h => exec_setStall_raises h, fun n h => exec_setStall_said h, ?_, ?_, ?_, ?_⟩,
    fun s q c inv => ⟨fun hruns hcount hlen htable hw6 => ?_, fun cc k i x hfind => ⟨?_, ?_, ?_⟩⟩⟩
  · intro m i ecc tw flits hm hway hpt hflits hread
    obtain ⟨t, hexec, hfilled, hparked, hmshrs, hregs, htier⟩ := exec_fillLands_filled hm hway (State.fillLands_line hm hflits hpt rfl tw hread)
    exact ⟨t, hexec, hfilled, hmshrs, by rw [hparked, releasedAt, hpt]; rfl, hregs, htier⟩
  · intro m i ecc tw flits hm hway hpt hflits hread
    obtain ⟨t, hexec, hfilled, hparked, hmshrs, hregs, htier⟩ := exec_fillLands_filled hm hway (State.fillLands_pt hm hflits hpt tw hread)
    exact ⟨t, hexec, hfilled, by rw [hparked, releasedAt, hpt]; rfl, hmshrs, hregs, htier⟩
  · intro f hflue hpt
    exact ⟨_, nextSettled_congr (State.flueDone_flue hflue hpt), State.dramLine_setDram_same .., rfl, rfl, rfl⟩
  · intro f hflue hback
    exact nextSettled_congr (State.flueDone_writeBack hflue hback)
  · have hz : cacheZero c = true := by simp [cacheZero, hcount, hlen, htable, hw6]
    refine ⟨fun hfirst hlen hlow hhigh => ?_, fun hbad => ?_⟩
    · rw [exec_cacheCmd hruns hz, State.cacheCmd_starts _ q inv ⟨hfirst, hlen, hlow, hhigh⟩, State.cmdTodo, s.running_cache q]
    · rw [exec_cacheCmd hruns hz, State.cacheCmd_refused _ q inv (by unfold cacheRangeOk; omega)]
  · intro hsealed hst hinv
    rw [State.cmdLine_clean hfind cc hsealed hst, hinv]
    rfl
  · intro hsealed hst hpins hinv
    rw [State.cmdLine_clean hfind cc hsealed hst, hinv, ← State.invalidate_unpinned (State.wayAt_of_findWay hfind) hpins]
    rfl
  · exact State.cmdLine_waits hfind cc

end Sys2Proof.Machine
end

section
/-! PROOFS. HPT.MODE: which writes of it are refused (O25). -/

namespace Sys2Proof.Machine

/-! ### A register of a port's page -/

theorem blockOf_port {p : Nat} (hp : p < 96) : blockOf (0x100 + p) = some (0x81, p) := by
  unfold blockOf
  repeat rw [if_neg (by omega)]
  rw [if_pos (by omega), Nat.add_sub_cancel_left]

theorem descAt_port {p off : Nat} (hp : p < 96) (h40 : 0x40 ≤ off) : descAt (0x100 + p) off = regsHPT.find? (fun d => d.covers off) := by
  unfold descAt pageRegs
  rw [if_neg (Nat.not_lt.mpr h40), blockOf_port hp]
  rfl

/-- A write that breaks a condition of a register whose refusal raises no event of its own is recorded as REFUSED and stores nothing (R36, R496). -/
theorem State.blockWrite_refused (s : State) {page off : Nat} (addr : Nat) (d : RegDesc) (v : Word64) (hreset : ¬(page = 0 ∧ off = 0x220))
    (hconfirm : ¬(page = 4 ∧ off = 0x120)) (hev : refusedEvent page off = none)
    (hbad : s.writeOk page off (s.newValue page off d (BitVec.allOnes 64) v) v = false) :
    s.blockWrite page off addr d (BitVec.allOnes 64) v = s.accessErr 5 true addr := by
  unfold State.blockWrite
  dsimp only
  rw [if_neg hreset, if_neg hconfirm, BitVec.and_allOnes, hbad, hev]
  rfl

/-! ### HPT.MODE (R119) -/

def hptModeDesc : RegDesc := ⟨0x100, 1, 0x8, 0x1801, [⟨24, 24, .rw⟩, ⟨23, 20, .rw⟩, ⟨12, 12, .rw⟩, ⟨11, 11, .rw⟩, ⟨7, 6, .rw⟩, ⟨5, 4, .rw⟩, ⟨1, 0, .rw⟩]⟩

/-- The fields of HPT.MODE that have reserved values or must agree. -/
def hptModeFields : List Fld := [HPT_MODE_FEC, HPT_MODE_MEDIA, HPT_MODE_SPEED]

theorem descAt_hptMode {p : Nat} (hp : p < 96) : descAt (0x100 + p) 0x100 = some hptModeDesc :=
  (descAt_port hp (by decide)).trans rfl

/-- Each of these fields takes the value that is written. -/
theorem hptMode_mix (old v : Word64) : ∀ f ∈ hptModeFields, f.of (mix hptModeDesc.rwMask old v) = f.of v := by
  have hmask : ∀ f ∈ hptModeFields, f.hi < 64 ∧ ∀ i < 64, f.lo ≤ i → i ≤ f.hi → hptModeDesc.rwMask.getLsbD i = true := by decide
  intro f hf
  obtain ⟨h64, hin⟩ := hmask f hf
  exact bits_mix_in (getLsbD_range hin h64)

/-- On an open page the RW fields of HPT.MODE take the value that is written. -/
theorem State.newValue_hptMode {s : State} {p : Nat} (hopen : s.frozenBy (0x100 + p) = 0) (v : Word64) :
    s.newValue (0x100 + p) 0x100 hptModeDesc (BitVec.allOnes 64) v = mix hptModeDesc.rwMask (s.reg (regKey (0x100 + p) 0x100)) v := by
  have hfirmware (f : FieldDesc) : isFirmware (0x100 + p) 0x100 f = false := by
    unfold isFirmware
    rw [beq_eq_false_iff_ne.mpr (by omega)]
    rfl
  have hmask : s.openMask (0x100 + p) 0x100 hptModeDesc = hptModeDesc.rwMask := by
    refine RegDesc.maskOf_congr fun f _ => ?_
    simp [hopen, hfirmware f]
  have hcur : s.cur (0x100 + p) 0x100 = s.reg (regKey (0x100 + p) 0x100) := by simp [State.cur]
  have hw1c : hptModeDesc.maskOf (fun f => f.ty == FieldTy.w1c) = 0 := by decide
  have hfix (w : Word64) : fixValue (0x100 + p) 0x100 w = w := by
    unfold fixValue
    repeat rw [if_neg (by omega)]
  have hclear : v &&& BitVec.allOnes 64 &&& 0 = 0 := BitVec.and_zero
  unfold State.newValue
  dsimp only
  rw [hw1c, if_neg (by omega), hmask, hcur, hfix, hclear, BitVec.and_allOnes]
  exact BitVec.and_allOnes

/-- The values R119 admits, on a port whose EN is 0. -/
theorem State.hptOk_mode (s : State) (p : Nat) (v : Word64) : s.hptOk p 0x100 v = true ↔
    s.rd PG_CTRL_EN (0x100 + p) = 0 ∧ HPT_MODE_SPEED.of v ≠ 3 ∧ HPT_MODE_MEDIA.of v ≠ 3 ∧ HPT_MODE_FEC.of v ≤ 1 ∧ (HPT_MODE_FEC.of v = 0 ∨ HPT_MODE_MEDIA.of v = 2) := by
  show (_ && _) = true ↔ _
  simp only [Bool.and_eq_true, Bool.or_eq_true, beq_iff_eq, bne_iff_ne, decide_eq_true_eq, and_assoc]

/-- The conditions are those of the value that is written. -/
theorem State.writeOk_hptMode (s : State) {p : Nat} (hp : p < 96) (old v op : Word64) :
    s.writeOk (0x100 + p) 0x100 (mix hptModeDesc.rwMask old v) op = s.hptOk p 0x100 v := by
  have hmix := hptMode_mix old v
  simp only [hptModeFields, List.forall_mem_cons, List.not_mem_nil, false_imp_iff, implies_true, and_true] at hmix
  obtain ⟨hfec, hmedia, hspeed⟩ := hmix
  unfold State.writeOk
  rw [blockOf_port hp]
  show s.hptOk p 0x100 _ = _
  rw [Bool.eq_iff_iff, s.hptOk_mode, s.hptOk_mode, hfec, hmedia, hspeed]

theorem exec_hptModeWrite_refused {s : State} {p : Nat} {v : Word64} (hp : p < 96) (hh : s.hidden false (0x100 + p) = false) (hopen : s.frozenBy (0x100 + p) = 0)
    (hbad : s.hptOk p 0x100 v = false) :
    exec (.registerWrite (regKey (0x100 + p) 0x100) 8 ⟨v, []⟩) s = .next (s.accessErr 5 true (regKey (0x100 + p) 0x100)).settle := by
  have hcount : isCounterPage (0x100 + p) = false := by
    simp [isCounterPage]
    omega
  have hev : refusedEvent (0x100 + p) 0x100 = none := by
    unfold refusedEvent
    repeat rw [if_neg (by omega)]
  rw [exec_registerWrite, State.busWrite_regKey s v (by omega) (by decide) (by decide) (inMsix_regKey _ (by decide)) (mapped_of_blockOf (blockOf_port hp)) hcount hh
    (descAt_hptMode hp), if_neg (by decide),
    State.blockWrite_refused s _ _ v (by omega) (by omega) hev (by rw [State.newValue_hptMode hopen, s.writeOk_hptMode hp, hbad])]

/-- Settles O25: each of the five cases breaks a condition of `hptOk`, and the write ends in the record alone. -/
theorem portModeChecked : Obligations.PortModeChecked := by
  intro s p v hp hh hopen hempty hbroken
  have hbad : s.hptOk p 0x100 v = false := by
    rw [← Bool.not_eq_true, s.hptOk_mode]
    rintro ⟨hen, hspeed, hmedia, hfec, hagree⟩
    omega
  obtain ⟨hvalid, hcause, -, hwrite, -, hraised⟩ := State.accessErr_records hempty (cause := 5) (by decide) true (regKey_lt (page := 0x100 + p) (off := 0x100) (by omega) (by decide))
  have hkept := s.accessErr_regsKept 5 true (regKey (0x100 + p) 0x100)
  refine ⟨_, exec_hptModeWrite_refused hp hh hopen hbad, hkept _ ?_, hvalid, hcause, hwrite, hraised, hkept⟩
  simp only [evRegs, regKey, List.mem_cons, List.not_mem_nil, or_false, not_or]
  omega

end Sys2Proof.Machine
end

section
/-! PROOFS. Announcements and the pause frame that leaves before them: O42 fails. -/

namespace Sys2Proof.Machine

/-! ### A pause frame counts the priorities it names (R139)

`countPause` counts a PFC frame that leaves on counter 24 + q for each priority q it names. Nothing in a state keeps q below 8: a frame that
names priority 9 counts on counter 33, that of the announcements sent. -/

/-- The address that port 0 serves and announces. -/
def announcedAddr : IpAddr := ⟨false, 0, 1⟩

/-- Its last announcement, due now. -/
def lastAnnounce : Announce := ⟨announcedAddr, false, 0, 1, 0⟩

/-- The entry that makes it served. -/
def announcedEntry : AddrEntry := { state := 1, addr := announcedAddr }

/-- A PFC frame that names priority 9. -/
def pfcPrio9 : TxFrame := { port := 0, prio := 0, len := 64, body := .pfc [(9, 0)] }

/-- Port 0 is UP, an announcement is due, and a pause frame that names priority 9 waits for the next frame boundary. -/
def pauseBeforeAnnounce : State :=
  { State.reset.wr PG_STAT_STATE 4 0x100 with
    ports := [(0, { announces := [lastAnnounce], ctl := [pfcPrio9] })]
    addrs := [(0, announcedEntry)] }

theorem pauseBeforeAnnounce_served : (pauseBeforeAnnounce.served 0).find? (fun e => lastAnnounce.isFor e) = some announcedEntry := by decide

theorem pauseBeforeAnnounce_not_silent : pauseBeforeAnnounce.silent = false := by decide

/-- The pause frame that leaves as the announcement is queued counts on counter 33 (offset 264) a second time. -/
theorem pauseBeforeAnnounce_counts_twice : pauseBeforeAnnounce.rd HPT_COUNTER_COUNT 0 264 = 0
    ∧ (pauseBeforeAnnounce.announceNext 0 announcedAddr).rd HPT_COUNTER_COUNT 0 264 = 2 := by decide

theorem exec_announce (s : State) (p : Nat) (a : IpAddr) : exec (.announce p a) s = .next (s.announceNext p a) := rfl

/-- Refutes O42 by its clause on announcements: one is sent, and counter 33 rises by 2, since the waiting pause frame names priority 9. No
rule sends such a frame; the statement is about every state, those no run reaches too. -/
theorem not_portFramesAndAddresses : ¬ Obligations.PortFramesAndAddresses := by
  intro h
  obtain ⟨-, -, -, hannounce, -, -⟩ := h pauseBeforeAnnounce 0 (by decide)
  obtain ⟨t, hexec, -, hcount, -⟩ := hannounce announcedAddr lastAnnounce announcedEntry [] [] (by decide) (by simp) (by simp)
    pauseBeforeAnnounce_served pauseBeforeAnnounce_not_silent
  obtain ⟨hbefore, hafter⟩ := pauseBeforeAnnounce_counts_twice
  rw [exec_announce] at hexec
  obtain rfl := Host.Outcome.next.inj hexec
  rw [hafter, hbefore] at hcount
  exact absurd hcount (by decide)

end Sys2Proof.Machine
end

section
/-! PROOFS. What `settle` does to LINK_STAT and to the first pause counter of port 1 (O40, O41): read backwards. A state is Quiet where no
epoch, waiting record, confirmation or owed credit stands beside an opened pair. Whatever stages a record leaves such evidence, so the
operations that lead to a Quiet state staged none, and only those that stage reach the ports' transmitters. -/

namespace Sys2Proof.Machine

/-- What of the mirror unit tells that records were staged or epochs confirmed. -/
@[reducible] def pairMark (p : Pair) : Bool × List Epoch × List EpochRec × List (Nat × Nat) :=
  (p.opened, p.epochs, p.waitRecs, p.confTimes)

/-- The pair is opened and nothing of a staged record, a confirmed epoch or owed credit is left; no QP is in ERROR. -/
structure Quiet (s : State) : Prop where
  mark : pairMark s.pair = (true, [], [], [])
  owed : s.link.owed = []
  qps : ∀ n, s.qState n ≠ 4

/-- LINK_STAT and counter 16 of port 1, the registers watched. -/
def watched : List Nat := [regKey 0x101 0x160, regKey 0x101 0x480]

/-- The state `a` is Quiet where `b`, which follows from it, is; with `B` the watched registers then stand. -/
structure Calm (B : Bool) (a b : State) : Prop where
  quiet : Quiet b → Quiet a
  regs : B = true → Quiet b → ∀ k ∈ watched, b.reg k = a.reg k

/-- A register that an operation may write where the watched ones are to stand. -/
def Apart (B : Bool) (k : Nat) : Prop := B = true → k ∉ watched

/-- Offsets in a page at which no watched register lies. -/
def offOk (n : Nat) : Bool := decide (n < 0x10000) && n != 0x160 && n != 0x480

theorem Apart.off {B : Bool} {n : Nat} (p : Nat) (h : offOk n = true) : Apart B (regKey p n) := by
  intro _
  simp only [offOk, Bool.and_eq_true, decide_eq_true_eq, bne_iff_ne] at h
  simp only [watched, regKey, List.mem_cons, List.not_mem_nil, or_false]
  omega

theorem Apart.fld {B : Bool} {f : Fld} {i a : Nat} (h : offOk (f.off + a) = true) : Apart B (f.key i a) := Apart.off _ h

theorem Apart.low {B : Bool} {f : Fld} {i a : Nat} (h : f.page + i < 0x100) (ha : f.off + a < 0x10000) : Apart B (f.key i a) := by
  intro _
  simp only [watched, Fld.key, regKey, List.mem_cons, List.not_mem_nil, or_false]
  omega

/-- The registers of the command queues lie at other places of their row of 64 bytes. -/
theorem Apart.queue {B : Bool} {f : Fld} (q : Nat) (hp : f.page = 0) (ho : 0x30 ≤ f.off % 64 := by decide) : Apart B (f.key 0 (rqOff q)) := by
  intro _
  simp only [watched, Fld.key, regKey, rqOff, List.mem_cons, List.not_mem_nil, or_false]
  omega

theorem Apart.none {k : Nat} : Apart false k := nofun

theorem Calm.refl {B : Bool} (s : State) : Calm B s s := ⟨id, fun _ _ _ _ => rfl⟩

theorem Calm.trans {B : Bool} {a b c : State} (h : Calm B a b) (k : Calm B b c) : Calm B a c :=
  ⟨fun q => h.quiet (k.quiet q), fun e q j hj => (k.regs e q j hj).trans (h.regs e (k.quiet q) j hj)⟩

/-- Where the state reached is not Quiet nothing is claimed. -/
theorem Calm.vacuous {B : Bool} {a b : State} (h : ¬ Quiet b) : Calm B a b := ⟨fun q => absurd q h, fun _ q => absurd q h⟩

/-- What follows a state that is not Quiet is not. -/
theorem Calm.after {B C : Bool} {a s b : State} (h : ¬ Quiet s) (k : Calm C s b) : Calm B a b := .vacuous (fun q => h (k.quiet q))

theorem Quiet.congr {s t : State} (hp : pairMark t.pair = pairMark s.pair) (hl : t.link.owed = s.link.owed) (hq : ∀ n, t.qState n = s.qState n)
    (q : Quiet t) : Quiet s := ⟨hp ▸ q.mark, hl ▸ q.owed, fun n => hq n ▸ q.qps n⟩

theorem Calm.upd {B : Bool} {a s t : State} (h : Calm B a s) (hr : t.regs = s.regs) (hp : pairMark t.pair = pairMark s.pair)
    (hl : t.link.owed = s.link.owed) (hq : t.qps = s.qps) : Calm B a t :=
  h.trans ⟨Quiet.congr hp hl (fun n => by unfold State.qState State.qf State.qp; rw [hq]), fun _ _ k _ => State.reg_congr hr k⟩

theorem Calm.ite {B : Bool} {a s t : State} {c : Prop} [Decidable c] (h : c → Calm B a s) (k : ¬ c → Calm B a t) : Calm B a (if c then s else t) := by
  by_cases hc : c
  · rw [if_pos hc]; exact h hc
  · rw [if_neg hc]; exact k hc

theorem Calm.foldl {B : Bool} {α : Type} {a s : State} {f : State → α → State} {l : List α} (h : Calm B a s)
    (hf : ∀ s x, Calm B a s → Calm B a (f s x)) : Calm B a (l.foldl f s) := by
  induction l generalizing s with
  | nil => exact h
  | cons x l ih => exact ih (hf s x h)

/-- A fold that carries a state and something beside it. -/
theorem Calm.foldl_fst {B : Bool} {α β : Type} {a : State} {p : State × β} {f : State × β → α → State × β} {l : List α} (h : Calm B a p.1)
    (hf : ∀ p x, Calm B a p.1 → Calm B a (f p x).1) : Calm B a (l.foldl f p).1 := by
  induction l generalizing p with
  | nil => exact h
  | cons x l ih => exact ih (hf p x h)

/-- A state written out field by field from another one. -/
theorem Calm.mk' {B : Bool} {a s : State} {mono_ : Nat} {tbOff_ : Int} {twinB_ : Bool} {out_ : List Out} {evInbox_ : List RaisedEv} {freeNext_ : Nat} {msixMask_ : Word64} {msixPend_ : Word64} {msixTab_ : NMap Word64} {pcieUp_ : Bool} {bellCount_ : Nat} {rqs_ : NMap Rq} {hearth_ : Hearth} {banks_ : Banks} {cache_ : Cache} {ports_ : NMap Port} {addrs_ : NMap AddrEntry} {hosts_ : List IpAddr} {dp_ : DataPath} {prot_ : Prot} {chains_ : Chains} {tier_ : Tier} {media_ : Media} {dur_ : Dur} {pair_ : Pair} {link_ : Link} {pwr_ : Power} {rec__ : Recorder} {pmu_ : Pmu} {smp_ : Sampling} {boot_ : Boot} {cph_ : Cipher} {ccx_ : Complex} {rails_ : Rails} {thm_ : Thermal} {integ_ : Integrity} {pending_ : _}
    (h : Calm B a s) (hp : pairMark pair_ = pairMark s.pair) (hl : link_.owed = s.link.owed) : Calm B a ⟨mono_, tbOff_, twinB_, s.regs, out_, evInbox_, freeNext_, msixMask_, msixPend_, msixTab_, pcieUp_, bellCount_, rqs_, hearth_, banks_, cache_, ports_, addrs_, s.qps, hosts_, dp_, prot_, chains_, tier_, media_, dur_, pair_, link_, pwr_, rec__, pmu_, smp_, boot_, cph_, ccx_, rails_, thm_, integ_, pending_⟩ :=
  h.upd rfl hp hl rfl

theorem Calm.of_fst {B : Bool} {β : Type} {a t : State} {y : β} {p : State × β} (e : p = (t, y)) (h : Calm B a p.1) : Calm B a t := by
  subst e; exact h

theorem Calm.of_snd {B : Bool} {β : Type} {a t : State} {y : β} {p : β × State} (e : p = (y, t)) (h : Calm B a p.2) : Calm B a t := by
  subst e; exact h

/-- Whatever state an option holds may follow. -/
def CalmO (B : Bool) (a : State) (o : Option State) : Prop := ∀ t, o = some t → Calm B a t
def CalmO1 {β : Type} (B : Bool) (a : State) (o : Option (State × β)) : Prop := ∀ t, o = some t → Calm B a t.1
def CalmO2 {β : Type} (B : Bool) (a : State) (o : Option (β × State)) : Prop := ∀ t, o = some t → Calm B a t.2
def CalmO3 {β γ : Type} (B : Bool) (a : State) (o : Option (β × γ × State)) : Prop := ∀ t, o = some t → Calm B a t.2.2

theorem CalmO.none {B : Bool} {a : State} : CalmO B a none := fun _ h => nomatch h
theorem CalmO.some {B : Bool} {a s : State} (h : Calm B a s) : CalmO B a (some s) := fun _ e => by cases e; exact h
theorem CalmO.get {B : Bool} {a t : State} {o : Option State} (h : CalmO B a o) (e : o = Option.some t) : Calm B a t := h t e
theorem CalmO1.none {B : Bool} {β : Type} {a : State} : CalmO1 B a (none : Option (State × β)) := fun _ h => nomatch h
theorem CalmO1.some {B : Bool} {β : Type} {a : State} {p : State × β} (h : Calm B a p.1) : CalmO1 B a (some p) := fun _ e => by cases e; exact h
theorem CalmO1.get {B : Bool} {β : Type} {a t : State} {y : β} {o : Option (State × β)} (h : CalmO1 B a o) (e : o = Option.some (t, y)) : Calm B a t := h _ e
theorem CalmO2.none {B : Bool} {β : Type} {a : State} : CalmO2 B a (none : Option (β × State)) := fun _ h => nomatch h
theorem CalmO2.some {B : Bool} {β : Type} {a : State} {p : β × State} (h : Calm B a p.2) : CalmO2 B a (some p) := fun _ e => by cases e; exact h
theorem CalmO2.get {B : Bool} {β : Type} {a t : State} {y : β} {o : Option (β × State)} (h : CalmO2 B a o) (e : o = Option.some (y, t)) : Calm B a t := h _ e
theorem CalmO3.none {B : Bool} {β γ : Type} {a : State} : CalmO3 B a (none : Option (β × γ × State)) := fun _ h => nomatch h
theorem CalmO3.some {B : Bool} {β γ : Type} {a : State} {p : β × γ × State} (h : Calm B a p.2.2) : CalmO3 B a (some p) := fun _ e => by cases e; exact h
theorem CalmO3.get {B : Bool} {β γ : Type} {a t : State} {y : β} {z : γ} {o : Option (β × γ × State)} (h : CalmO3 B a o) (e : o = Option.some (y, z, t)) : Calm B a t := h _ e

/-- The state an allocation leaves. -/
def CalmA (B : Bool) (a : State) : Alloc → Prop
  | .way _ s => Calm B a s
  | _ => True
theorem CalmA.way {B : Bool} {a s : State} {i : Nat} (h : Calm B a s) : CalmA B a (.way i s) := h
theorem CalmA.bypass {B : Bool} {a : State} : CalmA B a .bypass := trivial
theorem CalmA.waitSet {B : Bool} {a : State} {n : Nat} : CalmA B a (.waitSet n) := trivial
theorem CalmA.waitFlue {B : Bool} {a : State} : CalmA B a .waitFlue := trivial
theorem CalmA.of_way {B : Bool} {a t : State} {i : Nat} {r : Alloc} (h : CalmA B a r) (e : r = .way i t) : Calm B a t := by subst e; exact h

/-- The state an attempt leaves. -/
def CalmT (B : Bool) (a : State) : Tried → Prop
  | .done s => Calm B a s
  | .wait _ _ s => Calm B a s
  | .merged s => Calm B a s
theorem CalmT.done {B : Bool} {a s : State} (h : Calm B a s) : CalmT B a (.done s) := h
theorem CalmT.wait {B : Bool} {a s : State} {w : Wait} {b : Acc} (h : Calm B a s) : CalmT B a (.wait w b s) := h
theorem CalmT.merged {B : Bool} {a s : State} (h : Calm B a s) : CalmT B a (.merged s) := h
theorem CalmT.of_done {B : Bool} {a t : State} {r : Tried} (h : CalmT B a r) (e : r = .done t) : Calm B a t := by subst e; exact h
theorem CalmT.of_wait {B : Bool} {a t : State} {w : Wait} {b : Acc} {r : Tried} (h : CalmT B a r) (e : r = .wait w b t) : Calm B a t := by subst e; exact h
theorem CalmT.of_merged {B : Bool} {a t : State} {r : Tried} (h : CalmT B a r) (e : r = .merged t) : Calm B a t := by subst e; exact h
/-- The state of an outcome that is no error. -/
def CalmE (B : Bool) (a : State) (r : Except Wait State) : Prop := ∀ t, r = .ok t → Calm B a t
theorem CalmE.ok {B : Bool} {a s : State} (h : Calm B a s) : CalmE B a (.ok s) := fun _ e => by cases e; exact h
theorem CalmE.error {B : Bool} {a : State} {w : Wait} : CalmE B a (.error w) := fun _ e => nomatch e
theorem CalmE.of_ok {B : Bool} {a t : State} {r : Except Wait State} (h : CalmE B a r) (e : r = .ok t) : Calm B a t := h t e
/-- Both the attempt and the state beside it. -/
def CalmPT (B : Bool) (a : State) (p : Option Tried × State) : Prop := (∀ t, p.1 = some t → CalmT B a t) ∧ Calm B a p.2
theorem CalmPT.none {B : Bool} {a s : State} (h : Calm B a s) : CalmPT B a (Option.none, s) := ⟨fun _ e => (nomatch e), h⟩
theorem CalmPT.some {B : Bool} {a s : State} {r : Tried} (k : CalmT B a r) (h : Calm B a s) : CalmPT B a (Option.some r, s) := ⟨fun _ e => by cases e; exact k, h⟩
theorem CalmPT.get_some {B : Bool} {a s : State} {r : Tried} {p : Option Tried × State} (h : CalmPT B a p) (e : p = (Option.some r, s)) : CalmT B a r := h.1 r (by rw [e])
theorem CalmPT.get_snd {B : Bool} {a s : State} {o : Option Tried} {p : Option Tried × State} (h : CalmPT B a p) (e : p = (o, s)) : Calm B a s := by rw [e] at h; exact h.2

/-- The attempt, the state beside it, and the access with what is settled. -/
def CalmP3 (B : Bool) (a : State) (p : Option Tried × State × Acc) : Prop := (∀ t, p.1 = some t → CalmT B a t) ∧ Calm B a p.2.1
theorem CalmP3.none {B : Bool} {a s : State} {b : Acc} (h : Calm B a s) : CalmP3 B a (Option.none, s, b) := ⟨fun _ e => (nomatch e), h⟩
theorem CalmP3.some {B : Bool} {a s : State} {b : Acc} {r : Tried} (k : CalmT B a r) (h : Calm B a s) : CalmP3 B a (Option.some r, s, b) := ⟨fun _ e => by cases e; exact k, h⟩
theorem CalmP3.get_some {B : Bool} {a s : State} {b : Acc} {r : Tried} {p : Option Tried × State × Acc} (h : CalmP3 B a p) (e : p = (Option.some r, s, b)) : CalmT B a r := h.1 r (by rw [e])
theorem CalmP3.get_snd {B : Bool} {a s : State} {b : Acc} {o : Option Tried} {p : Option Tried × State × Acc} (h : CalmP3 B a p) (e : p = (o, s, b)) : Calm B a s := by rw [e] at h; exact h.2

/-! ### Registers -/

theorem State.setReg_calm {B : Bool} {s0 s : State} (h : Calm B s0 s) (k : Nat) (v : Word64) (hk : Apart B k) : Calm B s0 (s.setReg k v) :=
  h.trans ⟨Quiet.congr rfl rfl (fun _ => rfl), fun e _ j hj => State.reg_setReg_other s v (fun c => hk e (c ▸ hj))⟩

theorem State.wr_calm {B : Bool} {s0 s : State} (h : Calm B s0 s) (f : Fld) (v : Nat) (i : Nat) (a : Nat) (hk : Apart B (f.key i a)) : Calm B s0 (s.wr f v i a) :=
  State.setReg_calm h _ _ hk

theorem State.satInc_calm {B : Bool} {s0 s : State} (h : Calm B s0 s) (f : Fld) (n : Nat) (i : Nat) (a : Nat) (hk : Apart B (f.key i a)) : Calm B s0 (s.satInc f n i a) :=
  State.wr_calm h _ _ _ _ hk

theorem State.inc_calm {B : Bool} {s0 s : State} (h : Calm B s0 s) (f : Fld) (n : Nat) (i : Nat) (a : Nat) (hk : Apart B (f.key i a)) : Calm B s0 (s.inc f n i a) :=
  State.wr_calm h _ _ _ _ hk

/-! ### What stages a record -/

theorem mergeRec_ne_nil (l : List EpochRec) (r : EpochRec) : mergeRec l r ≠ [] := by
  cases r <;> simp [mergeRec]

/-- A staged record stands in an epoch or waits for one. -/
theorem State.stage_not_quiet (s : State) (r : EpochRec) : ¬ Quiet (s.stage r) := by
  rintro ⟨hm, -, -⟩
  unfold State.stage at hm
  split at hm
  · rename_i hc
    simp only [pairMark, Prod.mk.injEq, List.map_eq_nil_iff] at hm
    obtain ⟨ho, he, -, -⟩ := hm
    simp [State.canStage, State.openSlot, ho, he] at hc
  · simp only [pairMark, Prod.mk.injEq] at hm
    exact mergeRec_ne_nil _ _ hm.2.2.1

theorem State.stage_calm {B : Bool} {s0 : State} (s : State) (r : EpochRec) : Calm B s0 (s.stage r) := .vacuous (s.stage_not_quiet r)

theorem State.stageQp_calm {B : Bool} {s0 : State} (s : State) (n : Nat) : Calm B s0 (s.stageQp n) := State.stage_calm _ _

theorem State.stageChain_calm {B : Bool} {s0 : State} (s : State) (i : Nat) : Calm B s0 (s.stageChain i) := State.stage_calm _ _

theorem State.sendNow_calm {B : Bool} {s0 : State} (s : State) (n : Nat) (payload : List Byte) (chain : Option Nat) : Calm B s0 (s.sendNow n payload chain) :=
  State.stageQp_calm _ _

theorem State.chainFail_calm {B : Bool} {s0 : State} (s : State) (i cause : Nat) : Calm B s0 (s.chainFail i cause) := State.stageChain_calm _ _

theorem State.chainStepDone_calm {B : Bool} {s0 : State} (s : State) (i : Nat) : Calm B s0 (s.chainStepDone i) := by
  unfold State.chainStepDone
  dsimp only
  split
  · exact State.chainFail_calm _ _ _
  · split <;> exact State.stageChain_calm _ _

theorem State.placedHost_calm {B : Bool} {s0 : State} (s : State) (n : Nat) (o : Op) : Calm B s0 (s.placedHost n o) := State.stageQp_calm _ _

/-- Owed credit stays owed. -/
theorem State.oweCredit_not_quiet (s : State) (vc n : Nat) (h : n ≠ 0) : ¬ Quiet (s.oweCredit vc n) := by
  intro q
  have := q.owed
  unfold State.oweCredit at this
  have hg := NMap.getD_put_same (d := 0) s.link.owed vc (NMap.getD s.link.owed vc 0 + n)
  simp only at this
  rw [this] at hg
  simp [NMap.getD, NMap.find] at hg
  omega

end Sys2Proof.Machine
end

section
/-! PROOFS. The operations that settling runs, read backwards (O40, O41): each that leads to a Quiet state starts from one and leaves the
watched registers alone. What follows a staged record, a confirmed epoch or owed credit is never Quiet, and claims nothing (`Calm false`
where an operation may write a watched register). A proof walks along its definition: at each place it cites the rule of the operation that
stands there, and shows a state that a `let` names to be reached calmly (`hx`) before it goes on with the state only named. -/

set_option linter.unreachableTactic false
set_option linter.unusedTactic false

namespace Sys2Proof.Machine

variable {B : Bool} {s0 s : State}

/-! ### Machine/Operands.lean -/

theorem State.setStat_calm (h : Calm B s0 s) (page st : Nat) (ready : Bool) : Calm B s0 (State.setStat s page st ready) :=
  State.wr_calm (State.wr_calm h _ _ _ _ (Apart.fld (by decide))) _ _ _ _ (Apart.fld (by decide))

theorem State.bumpGen_calm (h : Calm B s0 s) (page : Nat) : Calm B s0 (State.bumpGen s page) :=
  State.inc_calm h _ _ _ _ (Apart.fld (by decide))

/-! ### Machine/Flags.lean -/

theorem State.emit_calm (h : Calm B s0 s) (o : Out) : Calm B s0 (s.emit o) := h.upd rfl rfl rfl rfl

theorem State.msix_calm (h : Calm B s0 s) (v : Nat) : Calm B s0 (State.msix s v) := by
  unfold State.msix
  split
  · exact h.upd rfl rfl rfl rfl
  · exact State.emit_calm h ..

theorem State.setFlags_calm (h : Calm B s0 s) (page : Nat) (mask : Word64) : Calm B s0 (State.setFlags s page mask) := by
  unfold State.setFlags
  repeat' (with_reducible first | assumption | refine State.setReg_calm ?_ _ _ (Apart.off _ (by decide)) | apply State.msix_calm | (extract_lets -underBinder +onlyGivenNames x; (refine (fun (hx : Calm B s0 x) => ?_) ?_); (on_goal 1 => try clear_value x); (on_goal 2 => (unfold x; clear x))) | split)

theorem State.raiseWith_calm (h : Calm B s0 s) (page n : Nat) (test : Bool) (arg : Word64) : Calm B s0 (State.raiseWith s page n test arg) := by
  unfold State.raiseWith
  repeat' (with_reducible first | assumption | refine State.wr_calm ?_ _ _ _ _ (Apart.fld (by decide)) | apply State.setFlags_calm | fail_if_no_progress (refine Calm.mk' ?_ rfl rfl) | split)

theorem State.raise_calm (h : Calm B s0 s) (page n : Nat) : Calm B s0 (State.raise s page n) := State.raiseWith_calm h ..

theorem State.raiseIf_calm (h : Calm B s0 s) (c : Bool) (page n : Nat) : Calm B s0 (State.raiseIf s c page n) := by
  unfold State.raiseIf
  split
  · exact State.raise_calm h ..
  · exact h

/-! ### Machine/Ops.lean -/

theorem State.takeFree_calm (h : Calm B s0 s) : Calm B s0 s.takeFree.2 := h.upd rfl rfl rfl rfl

theorem State.setRegion_calm (h : Calm false s0 s) (r : Nat) (v : Region) : Calm false s0 (State.setRegion s r v) := h.upd rfl rfl rfl rfl

theorem State.setTenant_calm (h : Calm B s0 s) (t : Nat) (v : Tenant) : Calm B s0 (State.setTenant s t v) :=
  h.upd rfl rfl rfl rfl

theorem State.addWused_calm (h : Calm B s0 s) (t : Nat) (up down : Nat) : Calm B s0 (State.addWused s t up down) :=
  State.setTenant_calm h ..

theorem State.markChange_calm (h : Calm B s0 s) (pool : Nat) : Calm B s0 (State.markChange s pool) := by
  unfold State.markChange
  repeat' (with_reducible first | assumption | fail_if_no_progress (refine Calm.mk' ?_ rfl rfl) | (extract_lets -underBinder +onlyGivenNames x; have ho : x.opened = x.opened := rfl) | (extract_lets -underBinder +onlyGivenNames x; try clear_value x) | split)

/-! ### Machine/RecOps.lean -/

theorem State.pmuCount_calm (h : Calm B s0 s) (src ev inst tenant : Nat) (n : Nat) : Calm B s0 (State.pmuCount s src ev inst tenant n) := by
  unfold State.pmuCount
  repeat' (with_reducible first | assumption | apply Calm.foldl | intro _ | fail_if_no_progress (refine Calm.mk' ?_ rfl rfl) | split)

/-! ### Machine/SmpOps.lean -/

theorem State.smpMod_calm (h : Calm B s0 s) (qpn psn : Nat) (f : List Word64 → List Word64) : Calm B s0 (State.smpMod s qpn psn f) := by
  unfold State.smpMod
  split
  · exact h.upd rfl rfl rfl rfl
  · exact h

theorem State.smpStall_calm (h : Calm B s0 s) (qpn psn cause : Nat) : Calm B s0 (State.smpStall s qpn psn cause) := by
  unfold State.smpStall
  split
  · exact h
  · exact State.smpMod_calm h ..

/-! ### Machine/BankOps.lean -/

theorem State.ask_calm (h : Calm B s0 s) (who : Requester) (addr : Nat) : Calm B s0 (State.ask s who addr) :=
  h.upd rfl rfl rfl rfl

theorem State.askWay_calm (h : Calm B s0 s) (who : Requester) (i : Nat) : Calm B s0 (State.askWay s who i) :=
  State.ask_calm h ..

theorem State.askIn_calm (h : Calm B s0 s) (who : Requester) (baseMib sizeMib lines : Nat) : Calm B s0 (State.askIn s who baseMib sizeMib lines) := by
  unfold State.askIn
  repeat' (with_reducible first | assumption | apply State.takeFree_calm | apply State.ask_calm | apply Calm.foldl | intro _ | split)

/-! ### Machine/DramOps.lean -/

theorem State.setChan_calm (h : Calm B s0 s) (c : Nat) (v : Chan) : Calm B s0 (State.setChan s c v) := h.upd rfl rfl rfl rfl

theorem State.modChan_calm (h : Calm B s0 s) (c : Nat) (f : Chan → Chan) : Calm B s0 (State.modChan s c f) :=
  State.setChan_calm h ..

theorem State.setChanSt_calm (h : Calm B s0 s) (c v : Nat) : Calm B s0 (State.setChanSt s c v) := State.setStat_calm h ..

theorem State.dchCount_calm (h : Calm B s0 s) (c k : Nat) (n : Nat) (hk : k < 16) : Calm B s0 (s.dchCount c k n) :=
  State.inc_calm h _ _ _ _ (Apart.off _ (by simp only [offOk, Bool.and_eq_true, decide_eq_true_eq, bne_iff_ne]; omega))

theorem State.setRankSt_calm (h : Calm B s0 s) (c r v : Nat) : Calm B s0 (State.setRankSt s c r v) :=
  State.wr_calm h _ _ _ _ (Apart.fld (by decide))

theorem State.dramReq_calm (h : Calm B s0 s) (c f j : Nat) (write : Bool) (cls : Nat) : Calm B s0 (State.dramReq s c f j write cls) := by
  unfold State.dramReq
  repeat' (with_reducible first | assumption | apply State.setChan_calm | refine State.dchCount_calm ?_ _ _ _ (by decide) | fail_if_no_progress (refine Calm.mk' ?_ rfl rfl) | (extract_lets -underBinder +onlyGivenNames x; (refine (fun (hx : Calm B s0 x) => ?_) ?_); (on_goal 1 => try clear_value x); (on_goal 2 => (unfold x; clear x))) | (extract_lets -underBinder +onlyGivenNames x; try clear_value x) | split)

theorem State.setChFrames_calm (h : Calm B s0 s) (c : Nat) (f : ChFrames) : Calm B s0 (State.setChFrames s c f) :=
  h.upd rfl rfl rfl rfl

theorem State.takeIdx_calm (h : Calm B s0 s) (c : Nat) : Calm B s0 (State.takeIdx s c).2 := by
  unfold State.takeIdx
  repeat' (with_reducible first | assumption | apply State.setChFrames_calm | (extract_lets -underBinder +onlyGivenNames x; try clear_value x) | split)

theorem State.takeFrame_calm (h : Calm B s0 s) (p : Nat) : CalmO3 B s0 (State.takeFrame s p) := by
  unfold State.takeFrame
  repeat' (with_reducible first | assumption | apply State.setChFrames_calm | apply State.takeIdx_calm | exact CalmO3.none | apply CalmO3.some | split)

theorem State.takeSpare_calm (h : Calm B s0 s) (c : Nat) : CalmO3 B s0 (State.takeSpare s c) := by
  unfold State.takeSpare
  repeat' (with_reducible first | assumption | apply State.setChFrames_calm | apply State.takeIdx_calm | exact CalmO3.none | apply CalmO3.some | split)

theorem State.giveFrame_calm (h : Calm B s0 s) (c i : Nat) : Calm B s0 (State.giveFrame s c i) := by
  unfold State.giveFrame
  repeat' (with_reducible first | assumption | apply State.setChFrames_calm | (extract_lets -underBinder +onlyGivenNames x; try clear_value x) | split)

theorem State.retireEnd_calm (h : Calm B s0 s) (c : Nat) : Calm B s0 (State.retireEnd s c) := by
  unfold State.retireEnd
  repeat' (with_reducible first | assumption | apply State.raise_calm | apply State.setChanSt_calm | apply State.setRankSt_calm | apply State.setChFrames_calm | apply Calm.foldl | intro _ | fail_if_no_progress (refine Calm.mk' ?_ rfl rfl) | (extract_lets -underBinder +onlyGivenNames x; (refine (fun (hx : Calm B s0 x) => ?_) ?_); (on_goal 1 => try clear_value x); (on_goal 2 => (unfold x; clear x))) | (extract_lets -underBinder +onlyGivenNames x; try clear_value x) | split)

/-! ### Machine/CacheOps.lean -/

theorem State.setWay_calm (h : Calm B s0 s) (i : Nat) (w : Way) : Calm B s0 (State.setWay s i w) := h.upd rfl rfl rfl rfl

theorem State.dropWay_calm (h : Calm B s0 s) (i : Nat) : Calm B s0 (State.dropWay s i) := h.upd rfl rfl rfl rfl

theorem State.freeWay_calm (h : Calm B s0 s) (i : Nat) : Calm B s0 (State.freeWay s i) := by
  unfold State.freeWay
  repeat' (with_reducible first | assumption | apply State.dropWay_calm | fail_if_no_progress (refine Calm.mk' ?_ rfl rfl) | (extract_lets -underBinder +onlyGivenNames x; (refine (fun (hx : Calm B s0 x) => ?_) ?_); (on_goal 1 => try clear_value x); (on_goal 2 => (unfold x; clear x))) | (extract_lets -underBinder +onlyGivenNames x; try clear_value x) | split)

theorem State.touch_calm (h : Calm B s0 s) (i : Nat) : Calm B s0 (State.touch s i) := h.upd rfl rfl rfl rfl

theorem State.mshrPeak_calm (h : Calm B s0 s) : Calm B s0 (State.mshrPeak s) := by
  unfold State.mshrPeak
  split
  · exact State.wr_calm h _ _ _ _ (Apart.fld (by decide))
  · exact h

theorem State.setDram_calm (h : Calm B s0 s) (ch idx j : Nat) (v : DLine) : Calm B s0 (s.setDram ch idx j v) := h.upd rfl rfl rfl rfl

theorem State.fillFrame_calm (h : Calm B s0 s) (ch idx cls : Nat) (f : Nat → DLine) : Calm B s0 (State.fillFrame s ch idx cls f) :=
  h.foldl (fun _ _ hs => State.dramReq_calm (State.setDram_calm hs ..) ..)

theorem State.lineReq_calm (h : Calm B s0 s) (k ch : Nat) (write : Bool) (cls : Nat) : Calm B s0 (State.lineReq s k ch write cls) := by
  unfold State.lineReq
  split
  · exact State.dramReq_calm h ..
  · exact State.dramReq_calm h ..

theorem State.setPte_calm (h : Calm B s0 s) (p : Nat) (e : Pte) : Calm B s0 (State.setPte s p e) := by
  unfold State.setPte
  repeat' (with_reducible first | assumption | apply State.lineReq_calm | fail_if_no_progress (refine Calm.mk' ?_ rfl rfl) | (extract_lets -underBinder +onlyGivenNames x; (refine (fun (hx : Calm B s0 x) => ?_) ?_); (on_goal 1 => try clear_value x); (on_goal 2 => (unfold x; clear x))) | (extract_lets -underBinder +onlyGivenNames x; try clear_value x) | split)

theorem State.addT1_calm (h : Calm B s0 s) (t up down : Nat) : Calm B s0 (State.addT1 s t up down) := h.upd rfl rfl rfl rfl

theorem State.addT2_calm (h : Calm B s0 s) (t up down : Nat) : Calm B s0 (State.addT2 s t up down) := h.upd rfl rfl rfl rfl

theorem State.heatPage_calm (h : Calm B s0 s) (p : Nat) : Calm B s0 (State.heatPage s p) := by
  unfold State.heatPage
  repeat' (with_reducible first | assumption | apply State.setPte_calm | (extract_lets -underBinder +onlyGivenNames x; try clear_value x) | split)

theorem State.charge_calm (h : Calm B s0 s) (line tenant : Nat) : Calm B s0 (State.charge s line tenant) := by
  unfold State.charge
  repeat' (with_reducible first | assumption | refine State.wr_calm ?_ _ _ _ _ (Apart.fld (by decide)) | apply State.addWused_calm | apply State.setPte_calm | fail_if_no_progress (refine Calm.mk' ?_ rfl rfl) | exact CalmO.get (by assumption) rfl | apply CalmO.some | (extract_lets -underBinder +onlyGivenNames x; (refine (fun (hx : CalmO B s0 x) => ?_) ?_); (on_goal 1 => try clear_value x); (on_goal 2 => (unfold x; clear x))) | (extract_lets -underBinder +onlyGivenNames x; try clear_value x) | split)

theorem State.modOp_calm (h : Calm B s0 s) (id : Nat) (f : Op → Op) : Calm B s0 (State.modOp s id f) := h.upd rfl rfl rfl rfl

theorem State.unreserve_calm (h : Calm B s0 s) (tenant n : Nat) : Calm B s0 (State.unreserve s tenant n) :=
  State.addWused_calm (State.wr_calm h _ _ _ _ (Apart.fld (by decide))) ..

theorem State.moveWait_calm (h : Calm B s0 s) (k : Nat) : Calm B s0 (State.moveWait s k) := by
  unfold State.moveWait
  repeat' (with_reducible first | assumption | refine State.inc_calm ?_ _ _ _ _ (Apart.fld (by decide)) | apply State.pmuCount_calm | fail_if_no_progress (refine Calm.mk' ?_ rfl rfl) | (extract_lets -underBinder +onlyGivenNames x; (refine (fun (hx : Calm B s0 x) => ?_) ?_); (on_goal 1 => try clear_value x); (on_goal 2 => (unfold x; clear x))) | split)

theorem State.toFlue_calm (h : Calm B s0 s) (k : Nat) (data : Line) (poison : Bool) : Calm B s0 (State.toFlue s k data poison) := by
  unfold State.toFlue
  repeat' (with_reducible first | assumption | apply State.lineReq_calm | apply State.moveWait_calm | fail_if_no_progress (refine Calm.mk' ?_ rfl rfl) | (extract_lets -underBinder +onlyGivenNames x; (refine (fun (hx : Calm B s0 x) => ?_) ?_); (on_goal 1 => try clear_value x); (on_goal 2 => (unfold x; clear x))) | (extract_lets -underBinder +onlyGivenNames x; try clear_value x) | split)

theorem State.alloc_calm (h : Calm B s0 s) (k t : Nat) : CalmA B s0 (State.alloc s k t) := by
  unfold State.alloc
  repeat' (with_reducible first | assumption | apply State.dropWay_calm | apply State.toFlue_calm | apply CalmA.way | exact CalmA.bypass | exact CalmA.waitSet | exact CalmA.waitFlue | (extract_lets -underBinder +onlyGivenNames x; try clear_value x) | split)

theorem State.quotaBypass_calm (h : Calm B s0 s) (t : Nat) : Calm B s0 (State.quotaBypass s t) :=
  (State.satInc_calm h _ _ _ _ (Apart.fld (by decide))).upd rfl rfl rfl rfl

theorem State.reinstate_calm (h : Calm B s0 s) (k : Nat) : Calm B s0 (State.reinstate s k) := h.upd rfl rfl rfl rfl

theorem State.pin_calm (h : Calm B s0 s) (i : Nat) : Calm B s0 (State.pin s i) := by
  unfold State.pin
  split
  · exact State.setWay_calm h ..
  · exact h

theorem State.unpin_calm (h : Calm B s0 s) (i : Nat) : Calm B s0 (State.unpin s i) := by
  unfold State.unpin
  repeat' (with_reducible first | assumption | apply State.setWay_calm | apply State.freeWay_calm | split)

theorem State.invalidate_calm (h : Calm B s0 s) (i : Nat) : Calm B s0 (State.invalidate s i) := by
  unfold State.invalidate
  repeat' (with_reducible first | assumption | apply State.setWay_calm | apply State.freeWay_calm | split)

theorem State.writeBackWay_calm (h : Calm B s0 s) (i : Nat) : Calm B s0 (State.writeBackWay s i) := by
  unfold State.writeBackWay
  repeat' (with_reducible first | assumption | apply State.askWay_calm | apply State.setWay_calm | apply State.setDram_calm | apply State.lineReq_calm | apply State.moveWait_calm | fail_if_no_progress (refine Calm.mk' ?_ rfl rfl) | split)

theorem State.addCells_calm (h : Calm B s0 s) (p q n : Nat) : Calm B s0 (State.addCells s p q n) := h.upd rfl rfl rfl rfl

/-! ### Machine/IntOps.lean -/

theorem State.intCount_calm (h : Calm B s0 s) (k : Nat) (n : Nat) (hk : k < 128) : Calm B s0 (s.intCount k n) :=
  State.inc_calm h _ _ _ _ (Apart.low (by decide) (by simp only; omega))

theorem State.lastUe_calm (h : Calm B s0 s) (source outcome ch rank line : Nat) : Calm B s0 (State.lastUe s source outcome ch rank line) := by
  unfold State.lastUe
  repeat' (with_reducible first | assumption | refine State.wr_calm ?_ _ _ _ _ (Apart.fld (by decide)))

theorem State.injDrop_calm (h : Calm B s0 s) (k : Nat) : Calm B s0 (State.injDrop s k) := h.upd rfl rfl rfl rfl

theorem State.recoverLine_calm (h : Calm B s0 s) (line : Nat) (v : Line) (twin : Option Line) (source ch rank : Nat) : Calm B s0 (State.recoverLine s line v twin source ch rank).1 := by
  unfold State.recoverLine
  repeat' (with_reducible first | assumption | apply State.raise_calm | refine State.intCount_calm ?_ _ _ (by decide) | apply State.lastUe_calm | (extract_lets -underBinder +onlyGivenNames x; try clear_value x) | split)

theorem State.wayUe_calm (h : Calm B s0 s) (line : Nat) : Calm B s0 (State.wayUe s line) := by
  unfold State.wayUe
  repeat' (with_reducible first | assumption | apply State.raise_calm | apply State.setWay_calm | apply State.invalidate_calm | refine State.intCount_calm ?_ _ _ (by decide) | apply State.lastUe_calm | apply State.recoverLine_calm | (extract_lets -underBinder +onlyGivenNames x; (refine (fun (hx : Calm B s0 x) => ?_) ?_); (on_goal 1 => try clear_value x); (on_goal 2 => (unfold x; clear x))) | split)

theorem State.cacheError_calm (h : Calm B s0 s) (line : Nat) (full : Bool) : Calm B s0 (State.cacheError s line full) := by
  unfold State.cacheError
  repeat' (with_reducible first | assumption | refine State.intCount_calm ?_ _ _ (by decide) | apply State.injDrop_calm | apply State.wayUe_calm | split)

/-! ### Machine/CphOps.lean -/

theorem State.setKeySlot_calm (h : Calm false s0 s) (n : Nat) (k : KeySlot) : Calm false s0 (State.setKeySlot s n k) :=
  h.upd rfl rfl rfl rfl

theorem State.cphCount_calm (h : Calm B s0 s) (k : Nat) (n : Nat) (hk : k < 128) : Calm B s0 (s.cphCount k n) :=
  State.inc_calm h _ _ _ _ (Apart.low (by decide) (by simp only; omega))

theorem State.deviceKey_calm (h : Calm false s0 s) (n : Nat) : Calm false s0 (State.deviceKey s n) := by
  unfold State.deviceKey
  repeat' (with_reducible first | assumption | apply State.raise_calm | apply State.takeFree_calm | apply State.setKeySlot_calm)

theorem State.selfSeal_calm (h : Calm false s0 s) : Calm false s0 (State.selfSeal s) := by
  unfold State.selfSeal
  repeat' (with_reducible first | assumption | apply State.raise_calm | apply State.takeFree_calm | apply State.setKeySlot_calm | refine State.cphCount_calm ?_ _ _ (by decide) | apply State.deviceKey_calm | refine Calm.of_snd (by assumption) ?_ | (extract_lets -underBinder +onlyGivenNames x; (refine (fun (hx : Calm false s0 x) => ?_) ?_); (on_goal 1 => try clear_value x); (on_goal 2 => (unfold x; clear x))) | (extract_lets -underBinder +onlyGivenNames x; try clear_value x) | split)

theorem State.autoSave_calm (h : Calm false s0 s) : Calm false s0 (State.autoSave s) := (State.selfSeal_calm h ..).upd rfl rfl rfl rfl

/-! ### Machine/NandOps.lean -/

theorem Wait.stall_lt {w : Wait} {k : Nat} (h : w.stall = some k) : k < 12 := by
  cases w <;> simp [Wait.stall] at h <;> omega

theorem State.medCount_calm (h : Calm B s0 s) (k : Nat) (n : Nat) (hk : k < 128) : Calm B s0 (s.medCount k n) :=
  State.inc_calm h _ _ _ _ (Apart.low (by decide) (by simp only; omega))

theorem State.setSb_calm (h : Calm B s0 s) (k : Nat) (v : Sb) : Calm B s0 (State.setSb s k v) := h.upd rfl rfl rfl rfl

theorem State.modStat_calm (h : Calm B s0 s) (c d : Nat) (f : DieStat → DieStat) : Calm B s0 (State.modStat s c d f) :=
  h.upd rfl rfl rfl rfl

theorem State.setProg_calm (h : Calm B s0 s) (a : Nat) (p : Prog) : Calm B s0 (State.setProg s a p) := h.upd rfl rfl rfl rfl

theorem State.suspendOp_calm (h : Calm B s0 s) (c d : Nat) : CalmO B s0 (State.suspendOp s c d) := by
  unfold State.suspendOp
  repeat' (with_reducible first | assumption | apply State.setSb_calm | apply State.setProg_calm | exact CalmO.none | apply CalmO.some | (extract_lets -underBinder +onlyGivenNames x; try clear_value x) | split)

theorem State.suspendFor_calm (h : Calm B s0 s) (a : Nat) : Calm B s0 (State.suspendFor s a) := by
  unfold State.suspendFor
  repeat' (with_reducible first | assumption | refine State.medCount_calm ?_ _ _ (by decide) | apply State.modStat_calm | apply State.suspendOp_calm | fail_if_no_progress (refine Calm.mk' ?_ rfl rfl) | refine CalmO.get ?_ (by assumption) | (extract_lets -underBinder +onlyGivenNames x; try clear_value x) | split)

/-! ### Machine/DataPath.lean -/

theorem State.stallStart_calm (h : Calm B s0 s) (w : Wait) (tenant : Nat) : Calm B s0 (s.stallStart w tenant) := by
  unfold State.stallStart
  split
  · rename_i k hk
    have := Wait.stall_lt hk
    exact State.pmuCount_calm (State.inc_calm h _ _ _ _ (Apart.low (by decide) (by simp only; omega))) _ _ _ _ _
  · exact h

theorem State.stallEnd_calm (h : Calm B s0 s) (w : Wait) (since : Nat) : Calm B s0 (s.stallEnd w since) := by
  unfold State.stallEnd
  split
  · rename_i k hk
    have := Wait.stall_lt hk
    exact State.inc_calm h _ _ _ _ (Apart.low (by decide) (by simp only; omega))
  · exact h

theorem State.accDone_calm (h : Calm B s0 s) (a : Acc) (r : Option (Line × Word64)) (ep : Option Nat) : Calm B s0 (State.accDone s a r ep) := by
  unfold State.accDone
  repeat' (with_reducible first | assumption | apply State.modOp_calm | apply State.unreserve_calm | apply State.stallEnd_calm | split)

/-- A QP whose context's words stand is in the state it was in. -/
theorem State.setQp_calm (h : Calm B s0 s) (n : Nat) (q : Qp) (hq : q.words = (s.qp n).words) : Calm B s0 (s.setQp n q) := by
  refine h.trans ⟨Quiet.congr rfl rfl (fun m => ?_), fun _ _ _ _ => rfl⟩
  have hw : ((s.setQp n q).qp m).words = (s.qp m).words := by
    by_cases hm : m = n
    · subst hm
      rw [← hq]
      exact congrArg Qp.words (NMap.getD_put_same ..)
    · exact congrArg Qp.words (NMap.getD_put_other hm)
  unfold State.qState State.qf
  rw [hw]

theorem State.noteUnsealed_calm (h : Calm B s0 s) (op : Nat) (ep : Option Nat) : Calm B s0 (s.noteUnsealed op ep) := by
  unfold State.noteUnsealed
  split
  · exact State.setQp_calm h _ _ rfl
  · exact h

theorem State.placed_calm (h : Calm B s0 s) (a : Acc) (l : Line) (p : Bool) : Calm B s0 (State.placed s a l p) := by
  unfold State.placed
  repeat' (with_reducible first | exact State.stage_calm _ _ | apply State.markChange_calm)

theorem State.copyOnWrite_calm (h : Calm B s0 s) (i : Nat) (x : Way) : Calm B s0 (State.copyOnWrite s i x) := by
  unfold State.copyOnWrite
  repeat' (with_reducible first | assumption | refine State.satInc_calm ?_ _ _ _ _ (Apart.fld (by decide)) | apply State.addCells_calm | apply Calm.foldl | intro _ | fail_if_no_progress (refine Calm.mk' ?_ rfl rfl) | split)

theorem State.hit_calm (h : Calm B s0 s) (i : Nat) (x : Way) (a : Acc) (touches : Bool) : Calm B s0 (State.hit s i x a touches) := by
  unfold State.hit
  repeat' (with_reducible first | assumption | apply State.askWay_calm | apply State.setWay_calm | apply State.touch_calm | apply State.accDone_calm | apply State.noteUnsealed_calm | apply State.placed_calm | apply State.copyOnWrite_calm | split)

theorem State.srWake_calm (h : Calm B s0 s) (c : Nat) : Calm B s0 (State.srWake s c) := by
  unfold State.srWake
  repeat' (with_reducible first | assumption | apply State.modChan_calm | refine State.dchCount_calm ?_ _ _ _ (by decide) | split)

theorem State.takeMshr_calm (h : Calm B s0 s) (m : Mshr) : Calm B s0 (State.takeMshr s m) := by
  unfold State.takeMshr
  repeat' (with_reducible first | assumption | apply State.raiseIf_calm | apply State.mshrPeak_calm | apply State.lineReq_calm | fail_if_no_progress (refine Calm.mk' ?_ rfl rfl))

theorem State.stallEvents_calm (h : Calm B s0 s) (w : Wait) : Calm B s0 (State.stallEvents s w) := by
  unfold State.stallEvents
  repeat' (with_reducible first | assumption | apply State.raise_calm | apply State.raiseIf_calm | fail_if_no_progress (refine Calm.mk' ?_ rfl rfl) | split)

theorem State.waitCounters_calm (h : Calm B s0 s) (w : Wait) : Calm B s0 (State.waitCounters s w) := by
  unfold State.waitCounters
  repeat' (with_reducible first | assumption | refine State.satInc_calm ?_ _ _ _ _ (Apart.fld (by decide)) | apply State.raise_calm | split)

theorem State.waitBegins_calm (h : Calm B s0 s) (a : Acc) (w : Wait) : Calm B s0 (State.waitBegins s a w) := by
  unfold State.waitBegins
  repeat' (with_reducible first | assumption | apply State.smpStall_calm | apply State.stallStart_calm | apply State.srWake_calm | apply State.stallEvents_calm | apply State.waitCounters_calm | (extract_lets -underBinder +onlyGivenNames x; (refine (fun (hx : Calm B s0 x) => ?_) ?_); (on_goal 1 => try clear_value x); (on_goal 2 => (unfold x; clear x))) | split)

theorem State.countLookup_calm (h : Calm B s0 s) (k tenant : Nat) : Calm B s0 (State.countLookup s k tenant) := by
  unfold State.countLookup
  repeat' (with_reducible first | assumption | refine State.inc_calm ?_ _ _ _ _ (Apart.fld (by decide)) | apply State.pmuCount_calm | split)

theorem State.mergeAcc_calm (h : Calm B s0 s) (k : Nat) (a : Acc) (w : Wait) : CalmT B s0 (State.mergeAcc s k a w) := by
  unfold State.mergeAcc
  repeat' (with_reducible first | assumption | apply State.waitBegins_calm | fail_if_no_progress (refine Calm.mk' ?_ rfl rfl) | apply CalmT.wait | apply CalmT.merged | split)

theorem State.missTake_calm (h : Calm B s0 s) (k tenant ch : Nat) (way : Option Nat) (a : Acc) (w : Wait) : CalmT B s0 (State.missTake s k tenant ch way a w) := by
  unfold State.missTake
  repeat' (with_reducible first | assumption | apply State.takeMshr_calm | apply State.waitBegins_calm | apply CalmT.merged | split)

theorem State.ptLookup_calm (h : Calm B s0 s) (a : Acc) : CalmP3 B s0 (State.ptLookup s a) := by
  unfold State.ptLookup
  repeat' (with_reducible first | assumption | apply State.setWay_calm | apply State.touch_calm | apply State.alloc_calm | apply State.quotaBypass_calm | apply State.reinstate_calm | apply State.countLookup_calm | apply State.mergeAcc_calm | apply State.missTake_calm | refine CalmA.of_way ?_ (by assumption) | apply CalmT.wait | apply CalmP3.none | apply CalmP3.some | (extract_lets -underBinder +onlyGivenNames x; (refine (fun (hx : Calm B s0 x) => ?_) ?_); (on_goal 1 => try clear_value x); (on_goal 2 => (unfold x; clear x))) | (extract_lets -underBinder +onlyGivenNames x; try clear_value x) | split)

theorem State.stagingBegins_calm (h : Calm B s0 s) (p : Nat) : Calm B s0 (State.stagingBegins s p) := by
  unfold State.stagingBegins
  repeat' (with_reducible first | assumption | apply State.stallStart_calm | fail_if_no_progress (refine Calm.mk' ?_ rfl rfl) | (extract_lets -underBinder +onlyGivenNames x; (refine (fun (hx : Calm B s0 x) => ?_) ?_); (on_goal 1 => try clear_value x); (on_goal 2 => (unfold x; clear x))) | split)

theorem State.stagingEnds_calm (h : Calm B s0 s) (p : Nat) : Calm B s0 (State.stagingEnds s p) := by
  unfold State.stagingEnds
  split
  · exact (State.stallEnd_calm h ..).upd rfl rfl rfl rfl
  · exact h

theorem State.startFetch_calm (h : Calm B s0 s) (p : Nat) : CalmE B s0 (State.startFetch s p) := by
  unfold State.startFetch
  repeat' (with_reducible first | assumption | apply State.takeFrame_calm | apply State.setPte_calm | apply State.addT1_calm | apply State.suspendFor_calm | apply State.stagingBegins_calm | refine CalmO3.get ?_ (by assumption) | apply CalmE.ok | exact CalmE.error | (extract_lets -underBinder +onlyGivenNames x; try clear_value x) | split)

theorem State.stagingGo_calm (h : Calm B s0 s) : Calm B s0 (State.stagingGo s) := by
  unfold State.stagingGo
  repeat' (with_reducible first | assumption | apply State.suspendFor_calm | apply State.stagingEnds_calm | apply Calm.foldl | intro _ | split)

theorem State.readAhead_calm (h : Calm B s0 s) (p : Nat) : Calm B s0 (State.readAhead s p) := by
  unfold State.readAhead
  repeat' (with_reducible first | assumption | apply Calm.foldl | intro _ | fail_if_no_progress (refine Calm.mk' ?_ rfl rfl) | (extract_lets -underBinder +onlyGivenNames x; try clear_value x) | split)

theorem State.raDrop_calm (h : Calm B s0 s) (r : RaWait) : Calm B s0 (State.raDrop s r) :=
  (State.stallEnd_calm h ..).upd rfl rfl rfl rfl

theorem State.raWaits_calm (h : Calm B s0 s) (r : RaWait) (w : Wait) : Calm B s0 (State.raWaits s r w) :=
  (State.stallStart_calm (State.stallEnd_calm h ..) ..).upd rfl rfl rfl rfl

theorem State.fetchAhead_calm (h : Calm B s0 s) (p : Nat) : Calm B s0 (State.fetchAhead s p) := h.upd rfl rfl rfl rfl

theorem State.readAheadGo_calm (h : Calm B s0 s) : Calm B s0 (State.readAheadGo s) := by
  unfold State.readAheadGo
  repeat' (with_reducible first | assumption | apply State.startFetch_calm | apply State.raDrop_calm | apply State.raWaits_calm | apply State.fetchAhead_calm | apply Calm.foldl | intro _ | refine CalmE.of_ok ?_ (by assumption) | split)

theorem State.fetchWanted_calm (h : Calm B s0 s) (p : Nat) : Calm B s0 (State.fetchWanted s p) := h.upd rfl rfl rfl rfl

theorem State.zeroFill_calm (h : Calm B s0 s) (p t : Nat) : CalmE B s0 (State.zeroFill s p t) := by
  unfold State.zeroFill
  repeat' (with_reducible first | assumption | apply State.takeFrame_calm | apply State.fillFrame_calm | apply State.setPte_calm | apply State.addT1_calm | apply State.addT2_calm | refine CalmO3.get ?_ (by assumption) | apply CalmE.ok | exact CalmE.error | (extract_lets -underBinder +onlyGivenNames x; try clear_value x) | split)

theorem State.pageStep_calm (h : Calm B s0 s) (a : Acc) : CalmPT B s0 (State.pageStep s a) := by
  unfold State.pageStep
  repeat' (with_reducible first | assumption | apply State.accDone_calm | apply State.startFetch_calm | apply State.readAhead_calm | apply State.readAheadGo_calm | apply State.fetchWanted_calm | apply State.zeroFill_calm | fail_if_no_progress (refine Calm.mk' ?_ rfl rfl) | apply CalmT.done | apply CalmT.wait | refine CalmE.of_ok ?_ (by assumption) | apply CalmPT.none | apply CalmPT.some | (extract_lets -underBinder +onlyGivenNames x; try clear_value x) | split)

theorem State.bypassWrite_calm (h : Calm B s0 s) (a : Acc) : CalmT B s0 (State.bypassWrite s a) := by
  unfold State.bypassWrite
  repeat' (with_reducible first | assumption | apply State.dramReq_calm | apply State.setDram_calm | apply State.accDone_calm | apply State.noteUnsealed_calm | apply State.placed_calm | fail_if_no_progress (refine Calm.mk' ?_ rfl rfl) | apply CalmT.done | apply CalmT.wait | exact CalmO.get (by assumption) rfl | apply CalmO.some | (extract_lets -underBinder +onlyGivenNames x; (refine (fun (hx : CalmO B s0 x) => ?_) ?_); (on_goal 1 => try clear_value x); (on_goal 2 => (unfold x; clear x))) | (extract_lets -underBinder +onlyGivenNames x; try clear_value x) | split)

theorem State.bypass_calm (h : Calm B s0 s) (a : Acc) : CalmT B s0 (State.bypass s a) := by
  unfold State.bypass
  repeat' (with_reducible first | assumption | apply State.accDone_calm | apply State.mergeAcc_calm | apply State.missTake_calm | apply State.bypassWrite_calm | apply CalmT.done | apply CalmT.wait | (extract_lets -underBinder +onlyGivenNames x; try clear_value x) | split)

theorem State.bypassFor_calm (h : Calm B s0 s) (a : Acc) : CalmT B s0 (State.bypassFor s a) := by
  unfold State.bypassFor
  repeat' (with_reducible first | assumption | apply State.quotaBypass_calm | apply State.bypass_calm | split)

theorem State.cacheStep_calm (h : Calm B s0 s) (a : Acc) : CalmT B s0 (State.cacheStep s a) := by
  unfold State.cacheStep
  repeat' (with_reducible first | assumption | apply State.pmuCount_calm | apply State.setWay_calm | apply State.alloc_calm | apply State.reinstate_calm | apply State.hit_calm | apply State.countLookup_calm | apply State.mergeAcc_calm | apply State.missTake_calm | apply State.bypass_calm | apply State.bypassFor_calm | refine CalmA.of_way ?_ (by assumption) | apply CalmT.done | apply CalmT.wait | (extract_lets -underBinder +onlyGivenNames x; (refine (fun (hx : Calm B s0 x) => ?_) ?_); (on_goal 1 => try clear_value x); (on_goal 2 => (unfold x; clear x))) | (extract_lets -underBinder +onlyGivenNames x; try clear_value x) | split)

theorem State.applyLine_calm (h : Calm B s0 s) (a : Acc) : CalmT B s0 (State.applyLine s a) := by
  unfold State.applyLine
  repeat' (with_reducible first | assumption | apply State.dramReq_calm | apply State.setDram_calm | apply State.charge_calm | apply State.accDone_calm | apply CalmT.done)

theorem State.tryAcc_calm (h : Calm B s0 s) (a : Acc) : CalmT B s0 (State.tryAcc s a) := by
  unfold State.tryAcc
  repeat' (with_reducible first | assumption | apply State.heatPage_calm | apply State.cacheError_calm | apply State.ptLookup_calm | apply State.pageStep_calm | apply State.cacheStep_calm | apply State.applyLine_calm | apply CalmT.wait | refine CalmP3.get_some ?_ (by assumption) | refine CalmP3.get_snd ?_ (by assumption) | refine CalmPT.get_some ?_ (by assumption) | refine CalmPT.get_snd ?_ (by assumption) | (extract_lets -underBinder +onlyGivenNames x; (refine (fun (hx : Calm B s0 x) => ?_) ?_); (on_goal 1 => try clear_value x); (on_goal 2 => (unfold x; clear x))) | (extract_lets -underBinder +onlyGivenNames x; try clear_value x) | split)

theorem State.park_calm (h : Calm B s0 s) (a : Acc) (w : Wait) : Calm B s0 (State.park s a w).1 := by
  unfold State.park
  repeat' (with_reducible first | assumption | apply State.stallEnd_calm | apply State.waitBegins_calm | split)

theorem pumpList_calm (as : List Acc) : ∀ {s : State}, Calm B s0 s → ∀ (kept : List Acc) (moved : Bool), Calm B s0 (pumpList as s kept moved).1 := by
  induction as with
  | nil => intro s h kept moved; exact h
  | cons a as ih =>
    intro s h kept moved
    unfold pumpList
    have ht := State.tryAcc_calm h a
    repeat' (with_reducible first | assumption | apply ih | apply State.stallEnd_calm | apply State.pmuCount_calm | apply State.park_calm | refine CalmT.of_done ht (by assumption) | refine CalmT.of_merged ht (by assumption) | refine CalmT.of_wait ht (by assumption) | split)

theorem State.pump_calm (h : Calm B s0 s) : Calm B s0 (State.pump s).1 := by
  unfold State.pump
  repeat' (with_reducible first | assumption | apply pumpList_calm | fail_if_no_progress (refine Calm.mk' ?_ rfl rfl) | split)

/-! ### Machine/MediaOps.lean -/

theorem State.jrn_calm (h : Calm B s0 s) (r : JRec) (frees : Option Nat) : Calm B s0 (State.jrn s r frees) :=
  h.upd rfl rfl rfl rfl

theorem State.openSb_calm (h : Calm B s0 s) (stream g : Nat) (slc : Bool) : CalmO B s0 (State.openSb s stream g slc) := by
  unfold State.openSb
  repeat' (with_reducible first | assumption | apply State.setSb_calm | apply State.jrn_calm | fail_if_no_progress (refine Calm.mk' ?_ rfl rfl) | exact CalmO.none | apply CalmO.some | split)

theorem State.closeSb_calm (h : Calm B s0 s) (stream g : Nat) (slc : Bool) : Calm B s0 (State.closeSb s stream g slc) := by
  unfold State.closeSb
  repeat' (with_reducible first | assumption | apply State.setSb_calm | apply State.jrn_calm | fail_if_no_progress (refine Calm.mk' ?_ rfl rfl) | split)

theorem State.readyOpen_calm (h : Calm B s0 s) (stream : Nat) (slc : Bool) : Calm B s0 (State.readyOpen s stream slc) := by
  unfold State.readyOpen
  repeat' (with_reducible first | assumption | apply State.openSb_calm | apply State.closeSb_calm | apply Calm.foldl | intro _ | refine CalmO.get ?_ (by assumption) | exact CalmO.get (by assumption) rfl | apply CalmO.some | (extract_lets -underBinder +onlyGivenNames x; (refine (fun (hx : CalmO B s0 x) => ?_) ?_); (on_goal 1 => try clear_value x); (on_goal 2 => (unfold x; clear x))) | (extract_lets -underBinder +onlyGivenNames x; try clear_value x) | split)

theorem State.startProg_calm (h : Calm B s0 s) (stream : Nat) (slc : Bool) (src : Option Nat) (u : MUnit) : CalmO2 B s0 (State.startProg s stream slc src u) := by
  unfold State.startProg
  repeat' (with_reducible first | assumption | apply State.askIn_calm | refine State.cphCount_calm ?_ _ _ (by decide) | apply State.setSb_calm | apply State.readyOpen_calm | fail_if_no_progress (refine Calm.mk' ?_ rfl rfl) | exact CalmO2.none | apply CalmO2.some | (extract_lets -underBinder +onlyGivenNames x; (refine (fun (hx : Calm B s0 x) => ?_) ?_); (on_goal 1 => try clear_value x); (on_goal 2 => (unfold x; clear x))) | (extract_lets -underBinder +onlyGivenNames x; try clear_value x) | split)

theorem State.dropUnit_calm (h : Calm B s0 s) (a : Nat) : Calm B s0 (State.dropUnit s a) := State.setSb_calm h ..

theorem State.unmapPage_calm (h : Calm B s0 s) (p : Nat) : Calm B s0 (State.unmapPage s p) := by
  unfold State.unmapPage
  repeat' (with_reducible first | assumption | refine State.medCount_calm ?_ _ _ (by decide) | apply State.jrn_calm | apply State.dropUnit_calm | (extract_lets -underBinder +onlyGivenNames x; try clear_value x) | split)

/-! ### Machine/TierOps.lean -/

theorem State.writeBackPage_calm (h : Calm B s0 s) (p : Nat) : Calm B s0 (State.writeBackPage s p) := by
  unfold State.writeBackPage
  repeat' (with_reducible first | assumption | apply State.setWay_calm | apply State.setDram_calm | apply Calm.foldl | intro _ | fail_if_no_progress (refine Calm.mk' ?_ rfl rfl) | split)

theorem State.dropPageLines_calm (h : Calm B s0 s) (p : Nat) : Calm B s0 (State.dropPageLines s p) := by
  unfold State.dropPageLines
  repeat' (with_reducible first | assumption | apply State.invalidate_calm | apply Calm.foldl | intro _ | fail_if_no_progress (refine Calm.mk' ?_ rfl rfl))

theorem State.toMedia_calm (h : Calm B s0 s) (p : Nat) : Calm B s0 (State.toMedia s p) := by
  unfold State.toMedia
  repeat' (with_reducible first | assumption | apply State.giveFrame_calm | apply State.setPte_calm | apply State.addT1_calm | apply State.dropPageLines_calm)

theorem State.startDestage_calm (h : Calm B s0 s) (p : Nat) (demote : Bool) : Calm B s0 (State.startDestage s p demote) := by
  unfold State.startDestage
  repeat' (with_reducible first | assumption | apply State.raiseIf_calm | apply State.dramReq_calm | apply State.setPte_calm | apply State.stagingBegins_calm | apply State.startProg_calm | apply State.writeBackPage_calm | apply Calm.foldl | intro _ | fail_if_no_progress (refine Calm.mk' ?_ rfl rfl) | refine CalmO2.get ?_ (by assumption) | (extract_lets -underBinder +onlyGivenNames x; (refine (fun (hx : Calm B s0 x) => ?_) ?_); (on_goal 1 => try clear_value x); (on_goal 2 => (unfold x; clear x))) | (extract_lets -underBinder +onlyGivenNames x; try clear_value x) | split)

theorem State.destageGo_calm (h : Calm B s0 s) : Calm B s0 (State.destageGo s) := by
  unfold State.destageGo
  repeat' (with_reducible first | assumption | apply State.stagingEnds_calm | apply State.startDestage_calm | apply Calm.foldl | intro _ | fail_if_no_progress (refine Calm.mk' ?_ rfl rfl) | (extract_lets -underBinder +onlyGivenNames x; (refine (fun (hx : Calm B s0 x) => ?_) ?_); (on_goal 1 => try clear_value x); (on_goal 2 => (unfold x; clear x))) | split)

theorem State.endDemotion_calm (h : Calm B s0 s) (p : Nat) (wrote : Bool) : Calm B s0 (State.endDemotion s p wrote) := by
  unfold State.endDemotion
  repeat' (with_reducible first | assumption | apply State.setPte_calm | apply State.toMedia_calm | fail_if_no_progress (refine Calm.mk' ?_ rfl rfl) | (extract_lets -underBinder +onlyGivenNames x; (refine (fun (hx : Calm B s0 x) => ?_) ?_); (on_goal 1 => try clear_value x); (on_goal 2 => (unfold x; clear x))) | (extract_lets -underBinder +onlyGivenNames x; try clear_value x) | split)

theorem State.demotesGo_calm (h : Calm B s0 s) : Calm B s0 (State.demotesGo s) := by
  unfold State.demotesGo
  repeat' (with_reducible first | assumption | apply State.endDemotion_calm | apply Calm.foldl | intro _ | fail_if_no_progress (refine Calm.mk' ?_ rfl rfl) | (extract_lets -underBinder +onlyGivenNames x; (refine (fun (hx : Calm B s0 x) => ?_) ?_); (on_goal 1 => try clear_value x); (on_goal 2 => (unfold x; clear x))) | (extract_lets -underBinder +onlyGivenNames x; try clear_value x) | split)

theorem State.demote_calm (h : Calm B s0 s) (p : Nat) : Calm B s0 (State.demote s p) := by
  unfold State.demote
  repeat' (with_reducible first | assumption | apply State.setPte_calm | apply State.startDestage_calm | apply State.endDemotion_calm | fail_if_no_progress (refine Calm.mk' ?_ rfl rfl) | exact CalmO.get (by assumption) rfl | apply CalmO.some | (extract_lets -underBinder +onlyGivenNames x; (refine (fun (hx : CalmO B s0 x) => ?_) ?_); (on_goal 1 => try clear_value x); (on_goal 2 => (unfold x; clear x))) | (extract_lets -underBinder +onlyGivenNames x; try clear_value x) | split)

theorem State.sweepPage_calm (h : Calm B s0 s) (p : Nat) : Calm B s0 (State.sweepPage s p) := by
  unfold State.sweepPage
  repeat' (with_reducible first | assumption | apply State.setPte_calm | apply State.demote_calm | (extract_lets -underBinder +onlyGivenNames x; try clear_value x) | split)

theorem sweepList_calm : ∀ (a0 : List Nat) (a1 : Nat) (a2 : State), Calm B s0 a2 → Calm B s0 (sweepList a0 a1 a2) := by
  intro a0
  induction a0 with
  | nil =>
    intro a1 a2 h
    rw [sweepList]
    exact h
  | cons x xs ih =>
    intro a1 a2 h
    rw [sweepList]
    repeat' (with_reducible first | assumption | apply ih | apply State.sweepPage_calm | fail_if_no_progress (refine Calm.mk' ?_ rfl rfl) | split)

theorem State.demoter_calm (h : Calm B s0 s) : Calm B s0 (State.demoter s) := by
  unfold State.demoter
  repeat' (with_reducible first | assumption | apply sweepList_calm | fail_if_no_progress (refine Calm.mk' ?_ rfl rfl) | (extract_lets -underBinder +onlyGivenNames x; (refine (fun (hx : Calm B s0 x) => ?_) ?_); (on_goal 1 => try clear_value x); (on_goal 2 => (unfold x; clear x))) | (extract_lets -underBinder +onlyGivenNames x; try clear_value x) | split)

theorem State.quotaSweep_calm (h : Calm B s0 s) (t : Nat) : Calm B s0 (State.quotaSweep s t) := by
  unfold State.quotaSweep
  repeat' (with_reducible first | assumption | apply State.sweepPage_calm | apply Calm.foldl | intro _ | split)

theorem State.pressure_calm (h : Calm B s0 s) : Calm B s0 (State.pressure s) := by
  unfold State.pressure
  repeat' (with_reducible first | assumption | apply State.startDestage_calm | apply Calm.foldl | intro _ | (extract_lets -underBinder +onlyGivenNames x; try clear_value x) | split)

theorem State.popMove_calm (h : Calm B s0 s) (c : Nat) : Calm B s0 (State.popMove s c) :=
  State.retireEnd_calm (State.wr_calm (State.modChan_calm h ..) _ _ _ _ (Apart.fld (by decide))) ..

theorem State.moveFrame_calm (h : Calm B s0 s) (c p : Nat) : Calm B s0 (State.moveFrame s c p).2 := by
  unfold State.moveFrame
  repeat' (with_reducible first | assumption | apply State.raise_calm | apply State.takeFrame_calm | apply State.takeSpare_calm | refine CalmO3.get ?_ (by assumption) | (extract_lets -underBinder +onlyGivenNames x; (refine (fun (hx : Calm B s0 x) => ?_) ?_); (on_goal 1 => try clear_value x); (on_goal 2 => (unfold x; clear x))) | split)

theorem startMove_calm : ∀ (a0 : Nat) (a1 : State) (a2 : Nat), Calm B s0 a1 → Calm B s0 (startMove a0 a1 a2) := by
  intro a0
  induction a0 with
  | zero =>
    intro a1 a2 h
    rw [startMove]
    exact h
  | succ n ih =>
    intro a1 a2 h
    rw [startMove]
    repeat' (with_reducible first | assumption | apply ih | apply State.modChan_calm | apply State.setPte_calm | apply State.toMedia_calm | apply State.demote_calm | apply State.popMove_calm | apply State.moveFrame_calm | refine Calm.of_snd (by assumption) ?_ | split)

theorem State.startMoves_calm (h : Calm B s0 s) : Calm B s0 (State.startMoves s) := by
  unfold State.startMoves
  repeat' (with_reducible first | assumption | apply startMove_calm | apply Calm.foldl | intro _ | split)

theorem State.redoGo_calm (h : Calm B s0 s) : Calm B s0 (State.redoGo s) := by
  unfold State.redoGo
  repeat' (with_reducible first | assumption | apply State.startDestage_calm | apply Calm.foldl | intro _ | fail_if_no_progress (refine Calm.mk' ?_ rfl rfl) | (extract_lets -underBinder +onlyGivenNames x; (refine (fun (hx : Calm B s0 x) => ?_) ?_); (on_goal 1 => try clear_value x); (on_goal 2 => (unfold x; clear x))) | split)

theorem State.discharge_calm (h : Calm B s0 s) (p : Nat) (mask : Word64) : Calm B s0 (State.discharge s p mask) := by
  unfold State.discharge
  repeat' (with_reducible first | assumption | refine State.wr_calm ?_ _ _ _ _ (Apart.fld (by decide)) | apply State.addWused_calm | apply State.setPte_calm | fail_if_no_progress (refine Calm.mk' ?_ rfl rfl) | split)

theorem State.discardPage_calm (h : Calm B s0 s) (p : Nat) : Calm B s0 (State.discardPage s p) := by
  unfold State.discardPage
  repeat' (with_reducible first | assumption | apply State.giveFrame_calm | apply State.setPte_calm | apply State.addT1_calm | apply State.addT2_calm | apply State.stagingEnds_calm | apply State.unmapPage_calm | apply State.dropPageLines_calm | apply State.discharge_calm | fail_if_no_progress (refine Calm.mk' ?_ rfl rfl) | (extract_lets -underBinder +onlyGivenNames x; (refine (fun (hx : Calm B s0 x) => ?_) ?_); (on_goal 1 => try clear_value x); (on_goal 2 => (unfold x; clear x))) | (extract_lets -underBinder +onlyGivenNames x; try clear_value x) | split)

theorem State.discardsGo_calm (h : Calm B s0 s) : Calm B s0 (State.discardsGo s) := by
  unfold State.discardsGo
  repeat' (with_reducible first | assumption | apply State.discardPage_calm | apply Calm.foldl | intro _ | fail_if_no_progress (refine Calm.mk' ?_ rfl rfl) | split)

theorem State.tierWork_calm (h : Calm B s0 s) : Calm B s0 (State.tierWork s) := by
  unfold State.tierWork
  repeat' (with_reducible first | assumption | apply State.stagingGo_calm | apply State.readAheadGo_calm | apply State.startDestage_calm | apply State.destageGo_calm | apply State.demotesGo_calm | apply State.demoter_calm | apply State.quotaSweep_calm | apply State.pressure_calm | apply State.startMoves_calm | apply State.redoGo_calm | apply State.discardsGo_calm | apply Calm.foldl | intro _ | exact CalmO.get (by assumption) rfl | apply CalmO.some | (extract_lets -underBinder +onlyGivenNames x; (refine (fun (hx : CalmO B s0 x) => ?_) ?_); (on_goal 1 => try clear_value x); (on_goal 2 => (unfold x; clear x))) | split)

theorem State.tierQuiesce_calm (h : Calm B s0 s) : Calm B s0 (State.tierQuiesce s) := by
  unfold State.tierQuiesce
  repeat' (with_reducible first | assumption | refine State.wr_calm ?_ _ _ _ _ (Apart.fld (by decide)) | (extract_lets -underBinder +onlyGivenNames x; (refine (fun (hx : Calm B s0 x) => ?_) ?_); (on_goal 1 => try clear_value x); (on_goal 2 => (unfold x; clear x))) | split)

theorem State.setPool_calm (h : Calm false s0 s) (n : Nat) : Calm false s0 (State.setPool s n) := by
  unfold State.setPool
  repeat' (with_reducible first | assumption | refine State.wr_calm ?_ _ _ _ _ Apart.none | apply State.setChFrames_calm | apply Calm.foldl | intro _ | fail_if_no_progress (refine Calm.mk' ?_ rfl rfl))

/-! ### Machine/Pool.lean -/

theorem State.setPort_calm (h : Calm B s0 s) (p : Nat) (v : Port) : Calm B s0 (State.setPort s p v) := h.upd rfl rfl rfl rfl

theorem State.modPort_calm (h : Calm B s0 s) (p : Nat) (f : Port → Port) : Calm B s0 (State.modPort s p f) :=
  State.setPort_calm h ..

theorem State.hptCount_calm (h : Calm false s0 s) (p k : Nat) (n : Nat) : Calm false s0 (State.hptCount s p k n) :=
  State.inc_calm h _ _ _ _ Apart.none

theorem State.addLink_calm (h : Calm B s0 s) (n : Nat) : Calm B s0 (State.addLink s n) := h.upd rfl rfl rfl rfl

theorem State.subLink_calm (h : Calm B s0 s) (n : Nat) : Calm B s0 (State.subLink s n) := h.upd rfl rfl rfl rfl

theorem State.subCells_calm (h : Calm false s0 s) (p q n : Nat) : Calm false s0 (State.subCells s p q n) := h.upd rfl rfl rfl rfl

theorem State.subHead_calm (h : Calm false s0 s) (p q n : Nat) : Calm false s0 (State.subHead s p q n) := by
  unfold State.subHead
  repeat' (with_reducible first | assumption | fail_if_no_progress (refine Calm.mk' ?_ rfl rfl) | (extract_lets -underBinder +onlyGivenNames x; (refine (fun (hx : Calm false s0 x) => ?_) ?_); (on_goal 1 => try clear_value x); (on_goal 2 => (unfold x; clear x))) | (extract_lets -underBinder +onlyGivenNames x; try clear_value x) | split)

theorem State.dropHold_calm (h : Calm B s0 s) (stamp qpn : Nat) : Calm B s0 (State.dropHold s stamp qpn) :=
  h.upd rfl rfl rfl rfl

theorem State.freeTx_calm (h : Calm false s0 s) (f : TxFrame) : Calm false s0 (State.freeTx s f) := by
  unfold State.freeTx
  repeat' (with_reducible first | assumption | apply State.unpin_calm | apply State.subLink_calm | apply State.subCells_calm | apply State.dropHold_calm | apply Calm.foldl | intro _ | fail_if_no_progress (refine Calm.mk' ?_ rfl rfl) | (extract_lets -underBinder +onlyGivenNames x; (refine (fun (hx : Calm false s0 x) => ?_) ?_); (on_goal 1 => try clear_value x); (on_goal 2 => (unfold x; clear x))) | split)

theorem State.queuePauseAs_calm (h : Calm false s0 s) (mode p : Nat) (qs : List (Nat × Nat)) : Calm false s0 (State.queuePauseAs s mode p qs) := by
  unfold State.queuePauseAs
  repeat' (with_reducible first | assumption | apply State.modPort_calm | split)

theorem State.countPause_calm (s : State) (p : Nat) : ∀ (a0 : TxBody), Calm false s0 s → Calm false s0 (State.countPause s p a0) := by
  intro a0 h
  unfold State.countPause
  repeat' (with_reducible first | assumption | apply State.hptCount_calm | apply Calm.foldl | intro _ | split)

theorem State.dropTx_calm (h : Calm false s0 s) (p : Nat) : Calm false s0 (State.dropTx s p).1 := by
  unfold State.dropTx
  repeat' (with_reducible first | assumption | apply State.modPort_calm | apply State.hptCount_calm | apply State.freeTx_calm | apply Calm.foldl | intro _ | (extract_lets -underBinder +onlyGivenNames x; (refine (fun (hx : Calm false s0 x) => ?_) ?_); (on_goal 1 => try clear_value x); (on_goal 2 => (unfold x; clear x))) | (extract_lets -underBinder +onlyGivenNames x; try clear_value x) | split)

theorem State.pickTx_calm (h : Calm false s0 s) (p : Nat) : Calm false s0 (State.pickTx s p) := by
  unfold State.pickTx
  repeat' (with_reducible first | assumption | apply State.modPort_calm | apply State.countPause_calm | (extract_lets -underBinder +onlyGivenNames x; try clear_value x) | split)

theorem State.chargeTx_calm (h : Calm false s0 s) (f : TxFrame) (n : Nat) : CalmO1 false s0 (State.chargeTx s f n) := by
  unfold State.chargeTx
  repeat' (with_reducible first | assumption | apply State.addCells_calm | apply State.addLink_calm | fail_if_no_progress (refine Calm.mk' ?_ rfl rfl) | exact CalmO1.none | apply CalmO1.some | split)

theorem State.freeRx_calm (h : Calm false s0 s) (h : Nat × Nat × Nat × Bool) : Calm false s0 (State.freeRx s h) := by
  unfold State.freeRx
  repeat' (with_reducible first | assumption | apply State.subCells_calm | apply State.subHead_calm | split)

theorem State.buildTx_calm (h : Calm false s0 s) (w : EgressWait) : CalmO false s0 (State.buildTx s w) := by
  unfold State.buildTx
  repeat' (with_reducible first | assumption | refine State.satInc_calm ?_ _ _ _ _ Apart.none | apply State.pin_calm | apply State.modPort_calm | apply State.chargeTx_calm | apply State.freeRx_calm | apply Calm.foldl | intro _ | exact CalmO.none | apply CalmO.some | refine CalmO1.get ?_ (by assumption) | split)

theorem State.egressRetry_calm (h : Calm false s0 s) : Calm false s0 (State.egressRetry s).1 := by
  unfold State.egressRetry
  repeat' (with_reducible first | assumption | apply State.buildTx_calm | apply Calm.foldl_fst | intro _ | fail_if_no_progress (refine Calm.mk' ?_ rfl rfl) | refine CalmO.get ?_ (by assumption) | split)

theorem State.endXoff_calm (h : Calm false s0 s) (mode p : Nat) (qs : List Nat) : Calm false s0 (State.endXoff s mode p qs) := by
  unfold State.endXoff
  repeat' (with_reducible first | assumption | refine State.wr_calm ?_ _ _ _ _ Apart.none | apply State.modPort_calm | apply State.queuePauseAs_calm | apply Calm.foldl | intro _)

theorem State.setPending_calm (h : Calm false s0 s) (p q : Nat) (on : Bool) : Calm false s0 (State.setPending s p q on) :=
  (State.wr_calm h _ _ _ _ Apart.none).upd rfl rfl rfl rfl

theorem State.grantHeadroom_calm (h : Calm false s0 s) (p q : Nat) (first : Bool) : Calm false s0 (State.grantHeadroom s p q first) := by
  unfold State.grantHeadroom
  repeat' (with_reducible first | assumption | apply State.raiseIf_calm | apply State.setPending_calm | fail_if_no_progress (refine Calm.mk' ?_ rfl rfl) | (extract_lets -underBinder +onlyGivenNames x; (refine (fun (hx : Calm false s0 x) => ?_) ?_); (on_goal 1 => try clear_value x); (on_goal 2 => (unfold x; clear x))) | (extract_lets -underBinder +onlyGivenNames x; try clear_value x) | split)

theorem State.grantPending_calm (h : Calm false s0 s) : Calm false s0 (State.grantPending s) :=
  h.foldl (fun _ _ hs => State.grantHeadroom_calm hs ..)

theorem State.afterCells_calm (h : Calm false s0 s) (p : Nat) : Calm false s0 (State.afterCells s p).1 := by
  unfold State.afterCells
  repeat' (with_reducible first | assumption | refine State.wr_calm ?_ _ _ _ _ Apart.none | apply State.egressRetry_calm | apply State.endXoff_calm | apply State.grantPending_calm | refine Calm.of_fst (by assumption) ?_ | (extract_lets -underBinder +onlyGivenNames x; (refine (fun (hx : Calm false s0 x) => ?_) ?_); (on_goal 1 => try clear_value x); (on_goal 2 => (unfold x; clear x))) | split)

theorem txGo_calm : ∀ (a0 : Nat) (a1 : List Nat) (a2 : List Nat) (a3 : State), Calm false s0 a3 → Calm false s0 (txGo a0 a1 a2 a3) := by
  intro a0
  induction a0 with
  | zero =>
    intro a1 a2 a3 h
    unfold txGo
    exact h
  | succ n ih =>
    intro a1 a2 a3 h
    unfold txGo
    repeat' (with_reducible first | assumption | apply ih | apply State.dropTx_calm | apply State.pickTx_calm | apply State.afterCells_calm | refine Calm.of_fst (by assumption) ?_ | split)

theorem State.queueChain_calm (h : Calm false s0 s) (w : EgressWait) : Calm false s0 (State.queueChain s w) := by
  unfold State.queueChain
  repeat' (with_reducible first | assumption | apply State.raiseIf_calm | apply State.buildTx_calm | apply txGo_calm | fail_if_no_progress (refine Calm.mk' ?_ rfl rfl) | refine CalmO.get ?_ (by assumption) | split)

theorem State.queueTx_calm (h : Calm false s0 s) (f : TxFrame) (lines : List Nat) : Calm false s0 (State.queueTx s f lines) :=
  State.queueChain_calm h ..

/-! ### Machine/KeyOps.lean -/

theorem State.drainUpdate_calm (h : Calm B s0 s) : Calm B s0 (State.drainUpdate s) := by
  unfold State.drainUpdate
  repeat' (with_reducible first | assumption | refine State.wr_calm ?_ _ _ _ _ (Apart.fld (by decide)) | fail_if_no_progress (refine Calm.mk' ?_ rfl rfl) | exact CalmO.get (by assumption) rfl | apply CalmO.some | (extract_lets -underBinder +onlyGivenNames x; (refine (fun (hx : CalmO B s0 x) => ?_) ?_); (on_goal 1 => try clear_value x); (on_goal 2 => (unfold x; clear x))) | (extract_lets -underBinder +onlyGivenNames x; try clear_value x) | split)

theorem State.reserveAt_calm (h : Calm B s0 s) (t pool need : Nat) : Calm B s0 (State.reserveAt s t pool need) := by
  unfold State.reserveAt
  repeat' (with_reducible first | assumption | refine State.wr_calm ?_ _ _ _ _ (Apart.fld (by decide)) | apply State.setTenant_calm | apply State.addWused_calm | (extract_lets -underBinder +onlyGivenNames x; (refine (fun (hx : Calm B s0 x) => ?_) ?_); (on_goal 1 => try clear_value x); (on_goal 2 => (unfold x; clear x))) | split)

theorem State.rdxCount_calm (h : Calm B s0 s) (k : Nat) (n : Nat) (hk : k < 128) : Calm B s0 (s.rdxCount k n) :=
  State.inc_calm h _ _ _ _ (Apart.low (by decide) (by simp only; omega))

/-! ### Machine/QpOps.lean -/

theorem State.modQp_calm (h : Calm B s0 s) (n : Nat) (f : Qp → Qp) (hf : ∀ q, (f q).words = q.words) : Calm B s0 (s.modQp n f) :=
  State.setQp_calm h n _ (hf _)

theorem State.dropOpHold_calm (h : Calm B s0 s) (o : Op) (n : Nat) : Calm B s0 (State.dropOpHold s o n) := by
  unfold State.dropOpHold
  split
  · exact State.dropHold_calm h ..
  · exact h

theorem State.removeOps_calm (h : Calm B s0 s) (ids : List Nat) : Calm B s0 (State.removeOps s ids) := by
  unfold State.removeOps
  repeat' (with_reducible first | assumption | apply State.subLink_calm | fail_if_no_progress (refine Calm.mk' ?_ rfl rfl))

theorem State.ctxUse_calm (h : Calm B s0 s) (n : Nat) : Calm B s0 (State.ctxUse s n).2 := by
  unfold State.ctxUse
  repeat' (with_reducible first | assumption | fail_if_no_progress (refine Calm.mk' ?_ rfl rfl) | split)

/-- The answers of a group are followed by the QP's context, staged: only a QP in ERROR goes on without, and the ACK left over follows a
group. -/
theorem releaseLoop_calm {B : Bool} {s0 : State} : ∀ (k : Nat) (s : State) (n : Nat) (pend : Option Op), Calm B s0 s → (pend = none ∨ ¬ Quiet s) →
    Calm B s0 (releaseLoop k s n pend)
  | 0, s, n, none, h, _ => by rw [releaseLoop]; exact h
  | 0, s, n, some o, h, hp => by
    have hs : ¬ Quiet s := hp.resolve_left (by simp)
    rw [releaseLoop]
    exact .after hs (State.rdxCount_calm (State.queueTx_calm (Calm.refl s) _ _) 1 1 (by decide))
  | k + 1, s, n, pend, h, hp => by
    rw [releaseLoop]
    split
    · exact releaseLoop_calm 0 s n pend h hp
    · extract_lets isNak g r bad r' syn ends out
      split
      · split
        · rename_i h4
          have hr : Calm B r' (g.foldl (fun s o => s.dropOpHold o n) r') := (Calm.refl r').foldl (fun s o hs => State.dropOpHold_calm hs o n)
          have hq : ¬ Quiet r' := fun q => q.qps n h4
          exact .after hq (hr.trans (releaseLoop_calm k _ n none (Calm.refl _) (.inl rfl)))
        · have hs : ∀ t p, Calm B s0 (releaseLoop k (State.stageQp t n) n p) := fun t p =>
            releaseLoop_calm k _ n p (State.stageQp_calm t n) (.inr (State.stage_not_quiet _ _))
          exact hs _ _
      · exact releaseLoop_calm 0 s n pend h hp

theorem State.release_calm (h : Calm B s0 s) (n : Nat) : Calm B s0 (s.release n) := by
  unfold State.release
  split
  · exact h
  · exact releaseLoop_calm _ _ _ _ h (.inl rfl)

/-! ### Machine/Issue.lean -/

theorem State.addOp_calm (h : Calm B s0 s) (o : Op) : Calm B s0 (State.addOp s o) := h.upd rfl rfl rfl rfl

theorem State.startAccs_calm (h : Calm B s0 s) (o : Op) : Calm B s0 (State.startAccs s o) := by
  unfold State.startAccs
  repeat' (with_reducible first | assumption | apply State.modOp_calm | apply Calm.foldl | intro _ | fail_if_no_progress (refine Calm.mk' ?_ rfl rfl))

theorem State.forward_calm (h : Calm B s0 s) (o : Op) : Calm B s0 (State.forward s o) :=
  (State.rdxCount_calm (State.modOp_calm h ..) _ _ (by decide)).upd rfl rfl rfl rfl

theorem State.issueFlush_calm (h : Calm B s0 s) (o : Op) (persist : Bool) : Calm B s0 (State.issueFlush s o persist) := by
  unfold State.issueFlush
  repeat' (with_reducible first | assumption | apply State.modOp_calm | refine State.modQp_calm ?_ _ _ (fun _ => rfl) | split)

theorem State.issueAll_calm (h : Calm B s0 s) : Calm B s0 (State.issueAll s) := by
  unfold State.issueAll
  repeat' (with_reducible first | assumption | apply State.modOp_calm | apply State.startAccs_calm | apply State.forward_calm | apply State.issueFlush_calm | apply Calm.foldl | intro _ | (extract_lets -underBinder +onlyGivenNames x; try clear_value x) | split)

/-! ### Machine/LinkOps.lean -/

theorem State.setStrand_calm (h : Calm B s0 s) (n : Nat) (v : Strand) : Calm B s0 (State.setStrand s n v) :=
  h.upd rfl rfl rfl rfl

theorem State.linkCtr_calm (h : Calm B s0 s) (k : Nat) (n : Nat) (hk : k < 128) : Calm B s0 (s.linkCtr k n) :=
  State.inc_calm h _ _ _ _ (Apart.low (by decide) (by simp only; omega))

theorem State.putFrame_calm (h : Calm B s0 s) (n : Nat) (vc vseq epoch blocks : Nat) (b : LinkBody) : Calm B s0 (State.putFrame s n vc vseq epoch blocks b) := by
  unfold State.putFrame
  repeat' (with_reducible first | assumption | apply State.emit_calm | apply State.setStrand_calm | refine State.linkCtr_calm ?_ _ _ (by decide))

theorem drainQueue_calm : ∀ (a0 : Nat) (a1 : State), Calm B s0 a1 → Calm B s0 (drainQueue a0 a1) := by
  intro a0
  induction a0 with
  | zero =>
    intro a1 h
    rw [drainQueue]
    exact h
  | succ n ih =>
    intro a1 h
    rw [drainQueue]
    repeat' (with_reducible first | assumption | apply ih | apply State.subLink_calm | apply State.putFrame_calm | fail_if_no_progress (refine Calm.mk' ?_ rfl rfl) | split)

theorem State.sendChain_calm (h : Calm B s0 s) (epoch : Nat) (b : LinkBody) (cells rsv : Nat) : Calm B s0 (State.sendChain s epoch b cells rsv) := by
  unfold State.sendChain
  repeat' (with_reducible first | assumption | apply drainQueue_calm | fail_if_no_progress (refine Calm.mk' ?_ rfl rfl))

theorem State.sendLink_calm (h : Calm B s0 s) (epoch : Nat) (b : LinkBody) : Calm B s0 (State.sendLink s epoch b) :=
  State.sendChain_calm h ..

theorem State.sendResp_calm (h : Calm B s0 s) (epoch : Nat) (r : FwdRespMsg) (cells rsv : Nat) : Calm B s0 (State.sendResp s epoch r cells rsv) :=
  h.foldl (fun _ _ hs => State.sendChain_calm hs ..)

/-! ### Machine/ChainOps.lean -/

theorem State.setRun_calm (h : Calm B s0 s) (i : Nat) (r : Run) : Calm B s0 (State.setRun s i r) := h.upd rfl rfl rfl rfl

theorem State.deviceSend_calm (h : Calm B s0 s) (n : Nat) (payload : List Byte) (chain : Option Nat) : Calm B s0 (s.deviceSend n payload chain) := by
  unfold State.deviceSend
  dsimp only
  split
  · exact State.sendNow_calm _ _ _ _
  · exact State.modQp_calm (State.ctxUse_calm h n) _ _ (fun _ => rfl)

theorem State.addChainOps_calm (h : Calm B s0 s) (i : Nat) (k : OpKind) (cls tenant pool len : Nat) (data : List Byte) (cmp swap : Word64) : Calm B s0 (State.addChainOps s i k cls tenant pool len data cmp swap) := by
  unfold State.addChainOps
  repeat' (with_reducible first | assumption | apply State.setTenant_calm | apply State.addWused_calm | apply State.addOp_calm | apply State.setRun_calm | apply Calm.foldl | intro _ | (extract_lets -underBinder +onlyGivenNames x; (refine (fun (hx : Calm B s0 x) => ?_) ?_); (on_goal 1 => try clear_value x); (on_goal 2 => (unfold x; clear x))) | split)

theorem State.notifySend_calm (h : Calm B s0 s) (i n : Nat) (payload : List Byte) : Calm B s0 (State.notifySend s i n payload) :=
  State.deviceSend_calm (State.setRun_calm h ..) ..

theorem State.chainPoison_calm (h : Calm B s0 s) (i cls pool : Nat) : Calm B s0 (State.chainPoison s i cls pool).1 := by
  unfold State.chainPoison
  repeat' (with_reducible first | assumption | exact State.stage_calm _ _ | apply State.reserveAt_calm | apply State.setRun_calm | apply State.addChainOps_calm | (extract_lets -underBinder +onlyGivenNames x; (refine (fun (hx : Calm B s0 x) => ?_) ?_); (on_goal 1 => try clear_value x); (on_goal 2 => (unfold x; clear x))) | split)

theorem State.chainOpsDone_calm (h : Calm B s0 s) (i : Nat) (g : List Op) : Calm B s0 (State.chainOpsDone s i g) := by
  unfold State.chainOpsDone
  repeat' (with_reducible first | assumption | apply State.removeOps_calm | apply State.setRun_calm | exact State.chainFail_calm _ _ _ | exact State.chainStepDone_calm _ _ | apply State.addChainOps_calm | apply State.notifySend_calm | apply State.chainPoison_calm | refine Calm.of_fst (by assumption) ?_ | exact CalmO.get (by assumption) rfl | apply CalmO.some | (extract_lets -underBinder +onlyGivenNames x; (refine (fun (hx : CalmO B s0 x) => ?_) ?_); (on_goal 1 => try clear_value x); (on_goal 2 => (unfold x; clear x))) | (extract_lets -underBinder +onlyGivenNames x; try clear_value x) | split)

/-! ### Machine/EpochOps.lean -/

theorem State.twinCtr_calm (h : Calm B s0 s) (k : Nat) (n : Nat) (hk : k < 128) : Calm B s0 (s.twinCtr k n) :=
  State.inc_calm h _ _ _ _ (Apart.low (by decide) (by simp only; omega))

theorem State.stageSetting_calm (h : Calm B s0 s) (n page off : Nat) (v : Word64) : Calm B s0 (State.stageSetting s n page off v) := by
  unfold State.stageSetting
  repeat' (with_reducible first | exact State.stage_calm _ _ | fail_if_no_progress (refine Calm.mk' ?_ rfl rfl))

/-- An epoch opened stands among the epochs. -/
theorem State.openNext_calm (h : Calm B s0 s) : Calm B s0 s.openNext := by
  unfold State.openNext
  extract_lets n recs src s1 held src2 s2 s3
  split
  · exact h
  · have h1 : ¬ Quiet s1 := fun q => by
      have hm := q.mark
      simp [s1] at hm
    have h2 : Calm B s1 s2 := (Calm.refl s1).upd rfl rfl rfl rfl
    have h3 : Calm B s1 s3 := h2.foldl (fun s c hs => State.stageSetting_calm hs _ _ _ _)
    exact .after h1 (State.wr_calm h3 _ _ _ _ (Apart.fld (by decide)))

theorem State.linkCtr_pair (s : State) (k n : Nat) : (s.linkCtr k n).pair = s.pair := State.inc_pair ..

theorem State.putFrame_pair (s : State) (n vc vseq epoch blocks : Nat) (b : LinkBody) : (s.putFrame n vc vseq epoch blocks b).pair = s.pair := by
  simp only [State.putFrame, State.emit_pair, State.linkCtr_pair, State.setStrand_pair]

theorem drainQueue_pair : ∀ (k : Nat) (s : State), (drainQueue k s).pair = s.pair
  | 0, s => by rw [drainQueue]
  | k + 1, s => by
    rw [drainQueue]
    dsimp only
    split
    · rw [drainQueue_pair k, State.putFrame_pair]; rfl
    · rfl

theorem State.sendLink_pair (s : State) (epoch : Nat) (b : LinkBody) : (s.sendLink epoch b).pair = s.pair := drainQueue_pair _ _

theorem State.sendHeartbeat_calm (h : Calm B s0 s) : Calm B s0 s.sendHeartbeat := by
  unfold State.sendHeartbeat
  split
  · exact h
  · exact (State.sendLink_calm h _ _).upd rfl (congrArg pairMark (s.sendLink_pair _ _)).symm rfl rfl

theorem State.stageWused_calm (h : Calm B s0 s) : Calm B s0 s.stageWused := by
  unfold State.stageWused
  refine h.foldl (fun s e hs => ?_)
  split
  · exact hs
  · exact (State.stage_calm _ _).upd rfl rfl rfl rfl

theorem State.closeEpoch_calm (h : Calm B s0 s) (early fin drill : Bool) : Calm B s0 (s.closeEpoch early fin drill) := by
  unfold State.closeEpoch
  split
  · exact h
  · extract_lets s1
    have h1 : Calm B s0 s1 := .ite (fun _ => State.stageWused_calm h) (fun _ => h)
    clear_value s1
    split
    · exact h1
    · rename_i e _
      extract_lets s2 s3 p3 s4 s5 s6
      trace_state
      have h2 : Calm B s0 s2 := .ite (fun _ => h1) (fun _ => h1.foldl (fun s _ hs => State.sendLink_calm hs _ _))
      clear_value s2
      have h3 : Calm B s0 s3 := .ite (fun _ => h2) (fun _ => State.sendLink_calm h2 _ _)
      clear_value s3
      have h4 : Calm B s3 s4 := by
        refine ⟨fun q => ⟨?_, q.owed, q.qps⟩, fun _ _ _ _ => rfl⟩
        have hm := q.mark
        simp only [s4, p3, pairMark, Prod.mk.injEq, List.map_eq_nil_iff] at hm ⊢
        exact hm
      clear_value s4
      have h5 : Calm B s0 s5 := State.twinCtr_calm (h3.trans h4) 0 1 (by decide)
      have h6 : Calm B s0 s6 := .ite (fun _ => State.twinCtr_calm h5 1 1 (by decide)) (fun _ => h5)
      exact State.sendHeartbeat_calm (State.openNext_calm h6)

theorem State.releaseRegion_calm (h : Calm B s0 s) (m : Move) : Calm B s0 (State.releaseRegion s m) := by
  unfold State.releaseRegion
  repeat' (with_reducible first | assumption | exact State.stage_calm _ _ | fail_if_no_progress (refine Calm.mk' ?_ rfl rfl) | (extract_lets -underBinder +onlyGivenNames x; try clear_value x) | split)

theorem State.moveStep_calm (h : Calm B s0 s) : Calm B s0 (State.moveStep s) :=
  h.foldl (fun _ _ hs => State.releaseRegion_calm hs ..)

theorem State.finishMove_calm (h : Calm false s0 s) (m : Move) : Calm false s0 (State.finishMove s m) := by
  unfold State.finishMove
  repeat' (with_reducible first | assumption | apply State.raise_calm | apply State.setRegion_calm | apply State.removeOps_calm | apply State.sendLink_calm | refine State.twinCtr_calm ?_ _ _ (by decide) | apply Calm.foldl | intro _ | fail_if_no_progress (refine Calm.mk' ?_ rfl rfl) | (extract_lets -underBinder +onlyGivenNames x; (refine (fun (hx : Calm false s0 x) => ?_) ?_); (on_goal 1 => try clear_value x); (on_goal 2 => (unfold x; clear x))) | (extract_lets -underBinder +onlyGivenNames x; have ho : x.opened = x.opened := rfl) | (extract_lets -underBinder +onlyGivenNames x; try clear_value x) | split)

theorem State.cfgBump_calm (h : Calm false s0 s) (page off : Nat) : Calm false s0 (State.cfgBump s page off) := by
  unfold State.cfgBump
  repeat' (with_reducible first | assumption | apply State.bumpGen_calm | fail_if_no_progress (refine Calm.mk' ?_ rfl rfl) | (extract_lets -underBinder +onlyGivenNames x; have ho : x.opened = x.opened := rfl) | (extract_lets -underBinder +onlyGivenNames x; try clear_value x) | split)

theorem State.applyConfig_calm (h : Calm false s0 s) (page off : Nat) (v : Word64) : Calm false s0 (State.applyConfig s page off v) := by
  unfold State.applyConfig
  repeat' (with_reducible first | assumption | refine State.setReg_calm ?_ _ _ Apart.none | apply State.raise_calm | apply State.autoSave_calm | apply State.setPool_calm | apply State.cfgBump_calm | fail_if_no_progress (refine Calm.mk' ?_ rfl rfl) | (extract_lets -underBinder +onlyGivenNames x; (refine (fun (hx : Calm false s0 x) => ?_) ?_); (on_goal 1 => try clear_value x); (on_goal 2 => (unfold x; clear x))) | (extract_lets -underBinder +onlyGivenNames x; try clear_value x) | split)

theorem State.takeSeal_calm (h : Calm false s0 s) (m : SealMsg) : Calm false s0 (State.takeSeal s m) := h.upd rfl rfl rfl rfl

theorem State.heldLands_calm (h : Calm false s0 s) (h : HeldWrite) : Calm false s0 (State.heldLands s h) := by
  unfold State.heldLands
  repeat' (with_reducible first | assumption | apply State.dramReq_calm | apply State.setDram_calm | apply State.toFlue_calm | fail_if_no_progress (refine Calm.mk' ?_ rfl rfl) | exact CalmO.get (by assumption) rfl | apply CalmO.some | (extract_lets -underBinder +onlyGivenNames x; (refine (fun (hx : CalmO false s0 x) => ?_) ?_); (on_goal 1 => try clear_value x); (on_goal 2 => (unfold x; clear x))) | (extract_lets -underBinder +onlyGivenNames x; try clear_value x) | split)

/-- A confirmed epoch leaves the time of its confirmation. -/
theorem State.confirmOne_not_quiet (s : State) (n : Nat) : ¬ Quiet (s.confirmOne n) := by
  unfold State.confirmOne
  extract_lets floor p1 r1 s1 s2 c1 s3 out c2 s4 s5 t1 s6 late p2 s7 s8 seals p3 s9 s10 done s11 p4
  have h1 : ¬ Quiet s1 := fun q => by
    have hm := q.mark
    simp [s1] at hm
  have h3 : Calm false s1 s3 := (State.pmuCount_calm (State.wr_calm (Calm.refl s1) _ _ _ _ Apart.none) _ _ _ _ _).upd rfl rfl rfl rfl
  clear_value s1 s3
  have h5 : Calm false s1 s5 := Calm.foldl (h3.upd rfl rfl rfl rfl) (fun s x hs => State.heldLands_calm hs x)
  clear_value s5
  have h8 : Calm false s1 s8 := Calm.foldl (h5.upd rfl rfl rfl rfl) (fun s c hs => by
    dsimp only
    split
    · exact State.applyConfig_calm hs _ _ _
    · exact State.setTenant_calm hs _ _
    · exact hs)
  clear_value s8
  have h10 : Calm false s1 s10 := Calm.foldl (h8.upd rfl rfl rfl rfl) (fun s c hs => State.takeSeal_calm hs _)
  clear_value s10
  have h11 : Calm false s1 s11 := h10.foldl (fun s m hs => State.finishMove_calm hs m)
  clear_value s11
  refine fun q => h1 (Calm.quiet (B := false) ?_ q)
  exact h11.upd rfl rfl rfl rfl

theorem confirmLoop_calm {B : Bool} {s0 : State} : ∀ (k : Nat) (s : State), Calm B s0 s → Calm B s0 (confirmLoop k s)
  | 0, s, h => State.openNext_calm h
  | k + 1, s, h => by
    rw [confirmLoop]
    split
    · split
      · exact .after (State.confirmOne_not_quiet s _) (confirmLoop_calm (B := false) k _ (Calm.refl _))
      · exact State.openNext_calm h
    · exact State.openNext_calm h

theorem State.confirmAll_calm (h : Calm B s0 s) : Calm B s0 (State.confirmAll s) := by
  unfold State.confirmAll
  repeat' (with_reducible first | assumption | apply confirmLoop_calm)

theorem State.mirrorWork_calm (h : Calm B s0 s) : Calm B s0 s.mirrorWork := by
  unfold State.mirrorWork
  split
  · exact h
  · refine State.confirmAll_calm (State.moveStep_calm ?_)
    split
    · exact State.closeEpoch_calm h _ _ _
    · exact h

/-! ### Machine/Rister.lean -/

theorem State.setRq_calm (h : Calm B s0 s) (q : Nat) (r : Rq) : Calm B s0 (State.setRq s q r) := h.upd rfl rfl rfl rfl

theorem State.rqMsix_calm (h : Calm B s0 s) (q : Nat) : Calm B s0 (State.rqMsix s q) := by
  unfold State.rqMsix
  split
  · exact State.msix_calm h ..
  · exact h

theorem State.rqError_calm (h : Calm B s0 s) (q code index : Nat) : Calm B s0 (State.rqError s q code index) := by
  unfold State.rqError
  repeat' (with_reducible first | assumption | refine State.wr_calm ?_ _ _ _ _ (Apart.queue _ rfl) | apply State.raise_calm | apply State.rqMsix_calm)

theorem State.postNow_calm (h : Calm B s0 s) (q : Nat) (p : Posting) : Calm B s0 (s.postNow q p) := by
  unfold State.postNow
  split
  · exact State.rqError_calm h _ _ _
  · extract_lets o tail phase w0 s1 next s2 s3
    have h1 : Calm B s0 s1 := State.emit_calm h _
    have h2 : Calm B s0 s2 := State.wr_calm h1 _ _ _ _ (Apart.queue q rfl)
    have h3 : Calm B s0 s3 := .ite (fun _ => State.wr_calm h2 _ _ _ _ (Apart.queue q rfl)) (fun _ => h2)
    exact .ite (fun _ => State.rqMsix_calm h3 q) (fun _ => h3)

theorem postAll_calm : ∀ (a0 : Nat) (a1 : State) (a2 : Nat), Calm B s0 a1 → Calm B s0 (postAll a0 a1 a2) := by
  intro a0
  induction a0 with
  | zero =>
    intro a1 a2 h
    rw [postAll]
    exact h
  | succ n ih =>
    intro a1 a2 h
    rw [postAll]
    repeat' (with_reducible first | assumption | apply ih | refine State.wr_calm ?_ _ _ _ _ (Apart.queue _ rfl) | apply State.setRq_calm | apply State.postNow_calm | split)

theorem State.postWaiting_calm (h : Calm B s0 s) (q : Nat) : Calm B s0 (State.postWaiting s q) := by
  unfold State.postWaiting
  repeat' (with_reducible first | assumption | apply postAll_calm)

theorem State.complete_calm (h : Calm B s0 s) (q status : Nat) (result : Word64) : Calm B s0 (State.complete s q status result) := by
  unfold State.complete
  repeat' (with_reducible first | assumption | apply State.setRq_calm | apply State.postWaiting_calm | (extract_lets -underBinder +onlyGivenNames x; try clear_value x) | split)

theorem rqAdvance_calm : ∀ (a0 : Nat) (a1 : State) (a2 : Nat), Calm B s0 a1 → Calm B s0 (rqAdvance a0 a1 a2) := by
  intro a0
  induction a0 with
  | zero =>
    intro a1 a2 h
    rw [rqAdvance]
    exact h
  | succ n ih =>
    intro a1 a2 h
    rw [rqAdvance]
    repeat' (with_reducible first | assumption | apply ih | apply State.complete_calm | split)

theorem State.advance_calm (h : Calm B s0 s) (q : Nat) : Calm B s0 (State.advance s q) := by
  unfold State.advance
  repeat' (with_reducible first | assumption | apply rqAdvance_calm)

theorem State.finishCmd_calm (h : Calm B s0 s) (q status result : Nat) : Calm B s0 (State.finishCmd s q status result) :=
  State.advance_calm (State.complete_calm h ..) ..

/-! ### Machine/CacheWork.lean -/

theorem State.setCacheSt_calm (h : Calm B s0 s) (st : Nat) : Calm B s0 (State.setCacheSt s st) :=
  State.wr_calm (State.wr_calm h _ _ _ _ (Apart.fld (by decide))) _ _ _ _ (Apart.fld (by decide))

theorem cleanRound_calm : ∀ (a0 : List Nat) (a1 : State), Calm B s0 a1 → Calm B s0 (cleanRound a0 a1) := by
  intro a0
  induction a0 with
  | nil =>
    intro a1 h
    rw [cleanRound]
    exact h
  | cons x xs ih =>
    intro a1 h
    rw [cleanRound]
    repeat' (with_reducible first | assumption | apply ih | apply State.writeBackWay_calm | split)

theorem State.cleaner_calm (h : Calm B s0 s) : Calm B s0 (State.cleaner s) := by
  unfold State.cleaner
  repeat' (with_reducible first | assumption | apply cleanRound_calm | apply Calm.foldl | intro _ | fail_if_no_progress (refine Calm.mk' ?_ rfl rfl) | split)

theorem State.drainWay_calm (h : Calm B s0 s) (i : Nat) : Calm B s0 (State.drainWay s i) := by
  unfold State.drainWay
  repeat' (with_reducible first | assumption | apply State.invalidate_calm | apply State.writeBackWay_calm | split)

theorem State.drainGo_calm (h : Calm B s0 s) : Calm B s0 (State.drainGo s) := by
  unfold State.drainGo
  repeat' (with_reducible first | assumption | refine State.wr_calm ?_ _ _ _ _ (Apart.fld (by decide)) | apply State.bumpGen_calm | apply State.raise_calm | apply State.setCacheSt_calm | apply State.drainWay_calm | apply Calm.foldl | intro _ | exact CalmO.get (by assumption) rfl | apply CalmO.some | (extract_lets -underBinder +onlyGivenNames x; (refine (fun (hx : CalmO B s0 x) => ?_) ?_); (on_goal 1 => try clear_value x); (on_goal 2 => (unfold x; clear x))) | split)

theorem State.cmdLine_calm (h : Calm B s0 s) (c : CacheCmd) (k : Nat) : CalmO1 B s0 (State.cmdLine s c k) := by
  unfold State.cmdLine
  repeat' (with_reducible first | assumption | apply State.invalidate_calm | apply State.writeBackWay_calm | exact CalmO1.none | apply CalmO1.some | (extract_lets -underBinder +onlyGivenNames x; (refine (fun (hx : Calm B s0 x) => ?_) ?_); (on_goal 1 => try clear_value x); (on_goal 2 => (unfold x; clear x))) | (extract_lets -underBinder +onlyGivenNames x; try clear_value x) | split)

theorem cmdLines_calm : ∀ (a0 : List Nat) (a1 : State) (a2 : CacheCmd) (a3 : List Nat), Calm B s0 a1 → Calm B s0 (cmdLines a0 a1 a2 a3).1 := by
  intro a0
  induction a0 with
  | nil =>
    intro a1 a2 a3 h
    rw [cmdLines]
    exact h
  | cons x xs ih =>
    intro a1 a2 a3 h
    rw [cmdLines]
    repeat' (with_reducible first | assumption | apply ih | apply State.cmdLine_calm | refine CalmO1.get ?_ (by assumption) | split)

theorem State.cmdsGo_calm (h : Calm B s0 s) : Calm B s0 (State.cmdsGo s) := by
  unfold State.cmdsGo
  repeat' (with_reducible first | assumption | apply State.finishCmd_calm | apply cmdLines_calm | apply Calm.foldl | intro _ | fail_if_no_progress (refine Calm.mk' ?_ rfl rfl) | refine Calm.of_fst (by assumption) ?_ | (extract_lets -underBinder +onlyGivenNames x; try clear_value x) | split)

theorem State.cacheWork_calm (h : Calm B s0 s) : Calm B s0 (State.cacheWork s) :=
  State.cmdsGo_calm (State.drainGo_calm (State.cleaner_calm h ..) ..) ..

/-! ### Machine/Settle.lean -/

theorem State.sendForwards_calm (h : Calm B s0 s) : Calm B s0 (State.sendForwards s) := by
  unfold State.sendForwards
  repeat' (with_reducible first | assumption | refine State.inc_calm ?_ _ _ _ _ (Apart.fld (by decide)) | apply State.sendLink_calm | apply Calm.foldl | intro _ | fail_if_no_progress (refine Calm.mk' ?_ rfl rfl) | (extract_lets -underBinder +onlyGivenNames x; (refine (fun (hx : Calm B s0 x) => ?_) ?_); (on_goal 1 => try clear_value x); (on_goal 2 => (unfold x; clear x))) | (extract_lets -underBinder +onlyGivenNames x; have ho : x.opened = x.opened := rfl) | split)

theorem State.endHolds_calm (h : Calm B s0 s) : Calm B s0 (State.endHolds s) := by
  unfold State.endHolds
  repeat' (with_reducible first | assumption | apply State.modOp_calm | apply State.dropOpHold_calm | apply Calm.foldl | intro _ | split)

theorem State.placedOps_calm (h : Calm B s0 s) : Calm B s0 (State.placedOps s) := by
  unfold State.placedOps
  repeat' (with_reducible first | assumption | exact State.placedHost_calm _ _ _ | apply Calm.foldl | intro _ | split)

/-- The answer of a forwarded operation leaves credit owed to the twin. -/
theorem State.fwdAnswer_not_quiet (t : State) (n e : Nat) (r : FwdRespMsg) (cells rsv : Nat) : ¬ Quiet ((t.oweCredit 2 (max 1 n)).sendResp e r cells rsv) :=
  fun q => t.oweCredit_not_quiet 2 (max 1 n) (by omega) ((State.sendResp_calm (B := false) (Calm.refl _) e r cells rsv).quiet q)

theorem State.finishAll_calm (h : Calm B s0 s) : Calm B s0 s.finishAll := by
  unfold State.finishAll
  extract_lets s1 s2 s3 s4 qs
  have h1 : Calm B s0 s1 := State.endHolds_calm (State.placedOps_calm h)
  have h2 : Calm B s0 s2 := h1.foldl (fun s o hs => by
    dsimp only
    split
    · exact .ite (fun _ => State.modQp_calm (State.removeOps_calm hs _) _ _ (fun _ => rfl)) (fun _ => hs)
    · refine .ite (fun _ => ?_) (fun _ => hs)
      split
      · exact .vacuous (State.fwdAnswer_not_quiet _ _ _ _ _ _)
      · exact .ite (fun _ => hs) (fun _ => State.raise_calm (State.modOp_calm hs _ _) _ _)
    · exact .ite (fun _ => State.removeOps_calm hs _) (fun _ => hs)
    · exact hs)
  have h3 : Calm B s0 s3 := h2.foldl (fun s g hs => State.chainOpsDone_calm hs _ _)
  have h4 : Calm B s0 s4 := h3.foldl (fun s e hs => by
    split
    · exact .ite (fun _ => State.chainStepDone_calm _ _) (fun _ => hs)
    · exact .ite (fun _ => State.chainFail_calm _ _ _) (fun _ => hs))
  exact h4.foldl (fun s n hs => State.release_calm hs n)

theorem settleLoop_calm : ∀ (a0 : Nat) (a1 : State), Calm B s0 a1 → Calm B s0 (settleLoop a0 a1) := by
  intro a0
  induction a0 with
  | zero =>
    intro a1 h
    rw [settleLoop]
    exact h
  | succ n ih =>
    intro a1 h
    rw [settleLoop]
    repeat' (with_reducible first | assumption | apply ih | apply State.pump_calm | apply State.issueAll_calm | apply State.sendForwards_calm | apply State.finishAll_calm | refine Calm.of_fst (by assumption) ?_ | (extract_lets -underBinder +onlyGivenNames x; (refine (fun (hx : Calm B s0 x) => ?_) ?_); (on_goal 1 => try clear_value x); (on_goal 2 => (unfold x; clear x))) | (extract_lets -underBinder +onlyGivenNames x; try clear_value x) | split)

theorem State.drainDone_calm (h : Calm B s0 s) : Calm B s0 (State.drainDone s) := by
  unfold State.drainDone
  repeat' (with_reducible first | assumption | apply State.drainUpdate_calm | apply State.finishCmd_calm | apply Calm.foldl | intro _ | fail_if_no_progress (refine Calm.mk' ?_ rfl rfl) | (extract_lets -underBinder +onlyGivenNames x; try clear_value x) | split)

theorem State.batchDone_calm (h : Calm B s0 s) : Calm B s0 (State.batchDone s) := by
  unfold State.batchDone
  repeat' (with_reducible first | assumption | apply State.bumpGen_calm | apply State.finishCmd_calm | apply Calm.foldl | intro _ | fail_if_no_progress (refine Calm.mk' ?_ rfl rfl) | (extract_lets -underBinder +onlyGivenNames x; have ho : x.opened = x.opened := rfl) | split)

theorem State.tableDone_calm (h : Calm B s0 s) : Calm B s0 (State.tableDone s) := by
  unfold State.tableDone
  repeat' (with_reducible first | assumption | apply State.finishCmd_calm | apply Calm.foldl | intro _ | fail_if_no_progress (refine Calm.mk' ?_ rfl rfl))

theorem State.runOn_calm (h : Calm B s0 s) : Calm B s0 (State.runOn s) := by
  unfold State.runOn
  repeat' (with_reducible first | assumption | apply settleLoop_calm)

theorem State.mirQuiesce_calm (h : Calm B s0 s) : Calm B s0 (State.mirQuiesce s) := by
  unfold State.mirQuiesce
  split
  · exact State.wr_calm h _ _ _ _ (Apart.fld (by decide))
  · exact h

theorem State.settle_calm (h : Calm B s0 s) : Calm B s0 (State.settle s) := by
  unfold State.settle
  repeat' (with_reducible first | assumption | exact Calm.refl _ | apply State.tierWork_calm | apply State.tierQuiesce_calm | apply State.mirrorWork_calm | apply State.cacheWork_calm | apply State.drainDone_calm | apply State.batchDone_calm | apply State.tableDone_calm | apply State.runOn_calm | apply State.mirQuiesce_calm | (extract_lets -underBinder +onlyGivenNames x; (refine (fun (hx : Calm B s0 x) => ?_) ?_); (on_goal 1 => try clear_value x); (on_goal 2 => (unfold x; clear x))) | (extract_lets -underBinder +onlyGivenNames x; have hd : x.dram = x.dram := rfl) | (extract_lets -underBinder +onlyGivenNames x; try clear_value x) | split)

end Sys2Proof.Machine
end

section
/-! PROOFS. A port whose own frame makes room for another port's: O40 and O41 fail. -/

namespace Sys2Proof.Machine

/-- What settles into a Quiet state reads the watched registers as that state does. -/
theorem State.rd_of_settle_quiet {t x : State} (e : t.settle = x.settle) (q : Quiet x.settle) (f : Fld) (i a : Nat) (hk : f.key i a ∈ watched) :
    t.rd f i a = x.settle.rd f i a := by
  have hc : Calm true t x.settle := e ▸ State.settle_calm (Calm.refl t)
  exact congrArg (fun v => bits v f.hi f.lo) (hc.regs rfl q _ hk).symm

theorem Quiet.of_no_qps {s : State} (hm : pairMark s.pair = (true, [], [], [])) (ho : s.link.owed = []) (hq : s.qps = []) : Quiet s :=
  ⟨hm, ho, fun n => by
    unfold State.qState State.qf State.qp
    rw [hq]
    exact (by decide : bits (0 : Word64) 2 0 ≠ 4)⟩

/-- At port 0, UP, a PFC frame waits that names a priority `q` no wire has, so that it counts past the page of its port, and an answer waits
to be built. The only frame of port 1 is longer than the port takes: it is dropped as port 1 goes on, and with its cell freed port 0 sends. -/
def pfcBehindLongFrame (q : Nat) (rx : List RxFrame) (regs : State) : State :=
  { regs with
    ports := [(0, { ctl := [{ port := 0, prio := 0, len := 64, body := .pfc [(q, 0)] }] }), (1, { rxq := rx, txq := [{ port := 1, prio := 0, len := 20000, cells := 1, body := .cnp 1 }] })]
    hearth := { regs.hearth with egressWait := [{ frame := { port := 0, prio := 0, len := 64, body := .cmDreq 1 } }] }
    pair := { opened := true } }

/-- Port 1 is about to rise; the count of port 0's frame is a bit of port 1's LINK_STAT. -/
def riseBehindLongFrame : State := pfcBehindLongFrame 8084 [] ((State.reset.wr PG_STAT_STATE 4 0x100).wr PG_STAT_STATE 3 0x101)

/-- A PAUSE frame that port 1 has received. -/
def pauseFrame1 : RxFrame :=
  { frame := { len := 64, fcsOk := true, dst := .other, tagged := false, pcp := 0, vlan := 0, dscp := 0, ecn := 0, ipOk := true, body := .pause 0 }
    prio := 0, cells := 0, inHeadroom := false, arrival := 0 }

/-- Port 1 has received a PAUSE frame; the count of port 0's frame is that of the PAUSE frames of port 1. -/
def pauseBehindLongFrame : State :=
  pfcBehindLongFrame 8184 [pauseFrame1]
    (((State.reset.wr PG_STAT_STATE 4 0x100).wr PG_STAT_STATE 4 0x101).wr HPT_FC_CFG_FC_MODE 1 1)

theorem riseBehindLongFrame_linkUp : exec (.linkUp 1) riseBehindLongFrame = .next (riseBehindLongFrame.portRises 1).settle :=
  congrArg Host.Outcome.next (if_pos (by decide +kernel))

/-- Port 1 ends in REMOTE_FAULT, not in UP. -/
theorem riseBehindLongFrame_state : (riseBehindLongFrame.portRises 1).settle.rd HPT_LINK_STAT_STATE 1 = 5 := by decide +kernel

theorem riseBehindLongFrame_quiet : Quiet (riseBehindLongFrame.portRises 1).settle :=
  .of_no_qps (by decide +kernel) (by decide +kernel) (by decide +kernel)

/-- Refutes O40 by its clause on LINK_UP: LINK_STAT of port 1, which rises, ends at 5, since a PFC frame that leaves port 0 then names a
priority so high that its count falls on that register. No rule sends such a frame; the statement is about every state, those no run
reaches too. That settling leads there from a state with 4 in the register is excluded by what it keeps (`State.settle_calm`). -/
theorem not_portLinkStates : ¬ Obligations.PortLinkStates := by
  intro h
  obtain ⟨-, -, -, -, -, hup, -⟩ := h riseBehindLongFrame 1 (by decide)
  obtain ⟨t, hexec, -, hstate, -⟩ := hup (by decide +kernel)
  have hsettle := Host.Outcome.next.inj (riseBehindLongFrame_linkUp.symm.trans hexec)
  have hread := State.rd_of_settle_quiet hsettle.symm riseBehindLongFrame_quiet HPT_LINK_STAT_STATE 1 0 (by decide)
  exact absurd (hstate.symm.trans (hread.trans riseBehindLongFrame_state)) (by decide)

theorem pauseBehindLongFrame_pfcFrame : exec (.pfcFrame 1) pauseBehindLongFrame = .next (pauseBehindLongFrame.pfcFrame 1).settle := rfl

/-- Counter 16 of port 1 rises by 2. -/
theorem pauseBehindLongFrame_counts : pauseBehindLongFrame.rd HPT_COUNTER_COUNT 1 128 = 0
    ∧ (pauseBehindLongFrame.pfcFrame 1).settle.rd HPT_COUNTER_COUNT 1 128 = 2 := by decide +kernel

theorem pauseBehindLongFrame_quiet : Quiet (pauseBehindLongFrame.pfcFrame 1).settle :=
  .of_no_qps (by decide +kernel) (by decide +kernel) (by decide +kernel)

/-- Refutes O41 by its clause on a PAUSE frame: port 1 receives one and its counter 16 ends at 2, since a PFC frame that leaves port 0 then
names a priority so high that its count falls on that counter. No rule sends such a frame; the statement is about every state, those no
run reaches too. That settling leads there from a state with 1 in the counter is excluded by what it keeps (`State.settle_calm`). -/
theorem not_portPauseAndStorms : ¬ Obligations.PortPauseAndStorms := by
  intro h
  obtain ⟨hpause, -⟩ := h pauseBehindLongFrame 1 (by decide)
  obtain ⟨t, hexec, -, hcount, -⟩ := (hpause pauseFrame1 0 (by decide +kernel) rfl).1 (by decide +kernel)
  have hsettle := Host.Outcome.next.inj (pauseBehindLongFrame_pfcFrame.symm.trans hexec)
  have hread := State.rd_of_settle_quiet hsettle.symm pauseBehindLongFrame_quiet HPT_COUNTER_COUNT 1 128 (by decide)
  obtain ⟨hbefore, hafter⟩ := pauseBehindLongFrame_counts
  rw [hread, hafter, hbefore] at hcount
  exact absurd hcount (by decide)

end Sys2Proof.Machine
end

section
/-! PROOFS. What answers, cells, counters and holds leave alone: the clock, queue pairs, operations, chains, epochs and the link (R78, R81, R146,
R163, R184). -/

namespace Sys2Proof.Machine

/-- The state without what a port, the pool, the key unit and the counters work on: registers, cells, cache, ports, keys and tenants, samples. -/
@[irreducible] def State.still (s : State) : State :=
  { s with regs := [], out := [], evInbox := [], freeNext := 0, msixPend := 0, hearth := {}, banks := {}, cache := {}, ports := [], prot := {}, tier := {}, smp := {}, pmu := {} }

/-- A change of those parts alone. -/
theorem State.still_with (s : State) (r : NMap Word64) (o : List Out) (e : List RaisedEv) (f : Nat) (m : Word64) (h : Hearth) (k : Banks) (c : Cache) (p : NMap Port)
    (q : Prot) (t : Tier) (x : Sampling) (y : Pmu) :
    ({ s with regs := r, out := o, evInbox := e, freeNext := f, msixPend := m, hearth := h, banks := k, cache := c, ports := p, prot := q, tier := t, smp := x, pmu := y } : State).still = s.still := by
  unfold State.still
  rfl

theorem State.qps_still (s : State) : s.still.qps = s.qps := by unfold State.still; rfl
theorem State.dp_still (s : State) : s.still.dp = s.dp := by unfold State.still; rfl
theorem State.mono_still (s : State) : s.still.mono = s.mono := by unfold State.still; rfl
theorem State.pair_still (s : State) : s.still.pair = s.pair := by unfold State.still; rfl
theorem State.chains_still (s : State) : s.still.chains = s.chains := by unfold State.still; rfl
theorem State.link_still (s : State) : s.still.link = s.link := by unfold State.still; rfl
theorem State.twinB_still (s : State) : s.still.twinB = s.twinB := by unfold State.still; rfl
theorem State.hosts_still (s : State) : s.still.hosts = s.hosts := by unfold State.still; rfl

theorem State.qps_of_still {a b : State} (h : b.still = a.still) : b.qps = a.qps := by rw [← b.qps_still, h, a.qps_still]
theorem State.dp_of_still {a b : State} (h : b.still = a.still) : b.dp = a.dp := by rw [← b.dp_still, h, a.dp_still]
theorem State.mono_of_still {a b : State} (h : b.still = a.still) : b.mono = a.mono := by rw [← b.mono_still, h, a.mono_still]
theorem State.pair_of_still {a b : State} (h : b.still = a.still) : b.pair = a.pair := by rw [← b.pair_still, h, a.pair_still]
theorem State.chains_of_still {a b : State} (h : b.still = a.still) : b.chains = a.chains := by rw [← b.chains_still, h, a.chains_still]
theorem State.link_of_still {a b : State} (h : b.still = a.still) : b.link = a.link := by rw [← b.link_still, h, a.link_still]
theorem State.twinB_of_still {a b : State} (h : b.still = a.still) : b.twinB = a.twinB := by rw [← b.twinB_still, h, a.twinB_still]
theorem State.hosts_of_still {a b : State} (h : b.still = a.still) : b.hosts = a.hosts := by rw [← b.hosts_still, h, a.hosts_still]

/-- What each step of a walk leaves alone, the walk does. -/
theorem State.foldl_still {α : Type} {f : State → α → State} (h : ∀ s x, (f s x).still = s.still) (s : State) (l : List α) :
    (l.foldl f s).still = s.still :=
  List.foldlRecOn (motive := fun t : State => t.still = s.still) l f rfl (fun t ht x _ => (h t x).trans ht)

theorem State.still_ite {c : Prop} [Decidable c] {a b s : State} (ha : a.still = s.still) (hb : b.still = s.still) : (if c then a else b).still = s.still := by
  split
  · exact ha
  · exact hb

/-! ### Registers, events, counters -/

@[simp] theorem State.wr_still (s : State) (f : Fld) (v i a : Nat) : (s.wr f v i a).still = s.still := s.still_with ..
@[simp] theorem State.inc_still (s : State) (f : Fld) (n i a : Nat) : (s.inc f n i a).still = s.still := s.still_with ..
@[simp] theorem State.satInc_still (s : State) (f : Fld) (n i a : Nat) : (s.satInc f n i a).still = s.still := s.still_with ..
@[simp] theorem State.rdxCount_still (s : State) (k n : Nat) : (s.rdxCount k n).still = s.still := s.still_with ..
@[simp] theorem State.hptCount_still (s : State) (p k n : Nat) : (s.hptCount p k n).still = s.still := s.still_with ..

@[simp] theorem State.raiseWith_still (s : State) (p n : Nat) (t : Bool) (a : Word64) : (s.raiseWith p n t a).still = s.still :=
  (congrArg State.still (s.raiseWith_eq p n t a)).trans (s.still_with ..)
@[simp] theorem State.raise_still (s : State) (p n : Nat) : (s.raise p n).still = s.still := s.raiseWith_still ..
@[simp] theorem State.raiseArg_still (s : State) (p n : Nat) (a : Word64) : (s.raiseArg p n a).still = s.still := s.raiseWith_still ..
@[simp] theorem State.raiseIf_still (s : State) (c : Bool) (p n : Nat) : (s.raiseIf c p n).still = s.still :=
  (congrArg State.still (s.raiseIf_eq c p n)).trans (s.still_with ..)
@[simp] theorem State.pmuCount_still (s : State) (a b c d n : Nat) : (s.pmuCount a b c d n).still = s.still :=
  (congrArg State.still (s.pmuCount_frame a b c d n)).trans (s.still_with ..)
@[simp] theorem State.askIn_still (s : State) (w : Requester) (b m l : Nat) : (s.askIn w b m l).still = s.still :=
  (congrArg State.still (s.askIn_eq w b m l)).trans (s.still_with ..)

/-! ### Cells and pins -/

@[simp] theorem State.modPort_still (s : State) (p : Nat) (f : Port → Port) : (s.modPort p f).still = s.still := s.still_with ..
@[simp] theorem State.subLink_still (s : State) (n : Nat) : (s.subLink n).still = s.still := s.still_with ..
@[simp] theorem State.dropHold_still (s : State) (a b : Nat) : (s.dropHold a b).still = s.still := s.still_with ..

@[simp] theorem State.pin_still (s : State) (i : Nat) : (s.pin i).still = s.still := by unfold State.pin; split <;> exact s.still_with ..
@[simp] theorem State.freeWay_still (s : State) (i : Nat) : (s.freeWay i).still = s.still := by unfold State.freeWay; dsimp only; split <;> exact s.still_with ..

@[simp] theorem State.unpin_still (s : State) (i : Nat) : (s.unpin i).still = s.still := by
  unfold State.unpin
  split
  · split
    · exact s.freeWay_still i
    · exact s.still_with ..
  · rfl

@[simp] theorem State.freeRx_still (s : State) (h : Nat × Nat × Nat × Bool) : (s.freeRx h).still = s.still := by
  unfold State.freeRx State.subHead
  dsimp only
  split
  · split <;> exact s.still_with ..
  · exact s.still_with ..

@[simp] theorem State.freeTx_still (s : State) (f : TxFrame) : (s.freeTx f).still = s.still := by
  unfold State.freeTx
  extract_lets u v src w x
  have hu : u.still = s.still := by
    unfold u
    split <;> exact s.still_with ..
  have hw : w.still = s.still := (State.still_with v ..).trans ((u.subLink_still _).trans hu)
  have hx : x.still = s.still := (State.foldl_still State.unpin_still w f.pins).trans hw
  split
  · exact (x.dropHold_still ..).trans hx
  · exact hx

/-! ### The transmitter -/

@[simp] theorem State.countPause_still (s : State) (p : Nat) (b : TxBody) : (s.countPause p b).still = s.still := by
  unfold State.countPause
  split
  · exact State.foldl_still (fun s e => s.hptCount_still ..) s _
  · exact s.hptCount_still ..
  · rfl

@[simp] theorem State.dropTx_still (s : State) (p : Nat) : (s.dropTx p).1.still = s.still := by
  have hcounted (k : Nat) (u : State) (l : List TxFrame) : (l.foldl (fun u f => (u.freeTx f).hptCount p k) u).still = u.still :=
    State.foldl_still (fun u f => (State.hptCount_still ..).trans (u.freeTx_still f)) u l
  unfold State.dropTx
  dsimp only
  split
  · rfl
  · split
    · dsimp only
      exact (State.modPort_still ..).trans (hcounted 9 s _)
    · split
      · rfl
      · dsimp only
        exact (State.modPort_still ..).trans ((State.foldl_still (fun u f => u.freeTx_still f) _ _).trans (hcounted 10 s _))

@[simp] theorem State.pickTx_still (s : State) (p : Nat) : (s.pickTx p).still = s.still := by
  unfold State.pickTx
  dsimp only
  split
  · rfl
  · split
    · exact (State.countPause_still ..).trans (s.modPort_still ..)
    · split
      · exact s.modPort_still ..
      · rfl

theorem State.chargeTx_still {s : State} {f : TxFrame} {n : Nat} {r : State × TxFrame} (h : s.chargeTx f n = some r) : r.1.still = s.still := by
  unfold State.chargeTx at h
  split at h
  · split at h
    · obtain rfl := Option.some.inj h
      exact s.still_with ..
    · exact absurd h (by simp)
  · split at h
    · obtain rfl := Option.some.inj h
      exact s.still_with ..
    · split at h
      · obtain rfl := Option.some.inj h
        exact s.still_with ..
      · exact absurd h (by simp)

theorem State.buildTx_still {s t : State} {w : EgressWait} (h : s.buildTx w = some t) : t.still = s.still := by
  unfold State.buildTx at h
  obtain ⟨⟨ps, copies, loose⟩, hg⟩ : ∃ g, s.gather w.lines = g := ⟨_, rfl⟩
  rw [hg] at h
  dsimp only at h
  split at h
  · exact absurd h (by simp)
  · next u f hcharge =>
    obtain rfl := Option.some.inj h
    refine (State.foldl_still State.freeRx_still _ _).trans (Eq.trans ?_ (State.chargeTx_still hcharge))
    rw [State.modPort_still]
    have hpins := State.foldl_still State.pin_still u ps
    split
    · exact hpins
    · exact (State.satInc_still ..).trans hpins

@[simp] theorem State.egressRetry_still (s : State) : s.egressRetry.1.still = s.still := by
  unfold State.egressRetry
  refine List.foldlRecOn (motive := fun r : State × List Nat × List Nat => r.1.still = s.still) _ _ (s.still_with ..) (fun r hr w _ => ?_)
  split
  · next t hbuild => exact (State.buildTx_still hbuild).trans hr
  · exact (r.1.still_with ..).trans hr

@[simp] theorem State.setPending_still (s : State) (p q : Nat) (on : Bool) : (s.setPending p q on).still = s.still := s.still_with ..

@[simp] theorem State.grantHeadroom_still (s : State) (p q : Nat) (first : Bool) : (s.grantHeadroom p q first).still = s.still := by
  unfold State.grantHeadroom
  dsimp only
  split
  · rfl
  · split
    · exact s.setPending_still ..
    · split
      · exact (State.raiseIf_still ..).trans (s.setPending_still ..)
      · exact (State.setPending_still ..).trans (s.still_with ..)

@[simp] theorem State.grantPending_still (s : State) : s.grantPending.still = s.still := State.foldl_still (fun u _ => u.grantHeadroom_still ..) s _

@[simp] theorem State.queuePauseAs_still (s : State) (mode p : Nat) (qs : List (Nat × Nat)) : (s.queuePauseAs mode p qs).still = s.still := by
  unfold State.queuePauseAs
  split
  · rfl
  · split <;> exact s.modPort_still ..

@[simp] theorem State.endXoff_still (s : State) (mode p : Nat) (qs : List Nat) : (s.endXoff mode p qs).still = s.still :=
  (State.queuePauseAs_still ..).trans (State.foldl_still (fun u _ => (State.modPort_still ..).trans (u.wr_still ..)) s qs)

@[simp] theorem State.afterCells_still (s : State) (p : Nat) : (s.afterCells p).1.still = s.still := by
  obtain ⟨⟨u, ps, fs⟩, hu⟩ : ∃ r, s.egressRetry = r := ⟨_, rfl⟩
  have hretry : u.still = s.still := by
    have := s.egressRetry_still
    rwa [hu] at this
  unfold State.afterCells
  rw [hu]
  dsimp only
  have hxon := (u.grantPending.endXoff_still (u.grantPending.rd HPT_FC_CFG_FC_MODE p) p (u.grantPending.xonDue p)).trans (u.grantPending_still.trans hretry)
  split
  · exact (State.wr_still ..).trans hxon
  · exact hxon

@[simp] theorem txGo_still (k : Nat) (ps fs : List Nat) (s : State) : (txGo k ps fs s).still = s.still := by
  induction k generalizing ps fs s with
  | zero => rfl
  | succ k ih =>
    unfold txGo
    split
    · exact (ih ..).trans (s.afterCells_still _)
    · dsimp only
      split
      · exact (ih ..).trans (s.dropTx_still _)
      · exact (ih ..).trans ((State.pickTx_still ..).trans (s.dropTx_still _))
    · rfl

@[simp] theorem State.startTx_still (s : State) (p : Nat) : (s.startTx p).still = s.still := txGo_still ..
@[simp] theorem State.afterFree_still (s : State) (p : Nat) : (s.afterFree p).still = s.still := txGo_still ..

@[simp] theorem State.queueChain_still (s : State) (w : EgressWait) : (s.queueChain w).still = s.still := by
  unfold State.queueChain
  split
  · next t hbuild => exact (txGo_still ..).trans (State.buildTx_still hbuild)
  · exact (State.still_with ..).trans (s.raiseIf_still ..)

@[simp] theorem State.queueTx_still (s : State) (f : TxFrame) (l : List Nat) : (s.queueTx f l).still = s.still := s.queueChain_still _
@[simp] theorem State.consumeRx_still (s : State) (p : Nat) (f : RxFrame) : (s.consumeRx p f).still = s.still :=
  (State.afterFree_still ..).trans (State.freeRx_still ..)

@[simp] theorem State.freeOpCells_still (s : State) (o : Op) : (s.freeOpCells o).still = s.still := by
  unfold State.freeOpCells
  split
  · rfl
  · exact (State.afterFree_still ..).trans (State.freeRx_still ..)

@[simp] theorem State.dropOpHold_still (s : State) (o : Op) (n : Nat) : (s.dropOpHold o n).still = s.still := by
  unfold State.dropOpHold
  split <;> exact s.still_with ..

/-! ### Reservations and key checks -/

@[simp] theorem State.setTenant_still (s : State) (t : Nat) (v : Tenant) : (s.setTenant t v).still = s.still := s.still_with ..
@[simp] theorem State.unreserve_still (s : State) (t n : Nat) : (s.unreserve t n).still = s.still := s.still_with ..
@[simp] theorem State.takeHold_still (s : State) (n k : Nat) : (s.takeHold n k).1.still = s.still := s.still_with ..

@[simp] theorem State.reserveAt_still (s : State) (t pool n : Nat) : (s.reserveAt t pool n).still = s.still := by
  unfold State.reserveAt
  dsimp only
  split <;> exact s.still_with ..

@[simp] theorem State.unreserveAt_still (s : State) (t pool n : Nat) : (s.unreserveAt t pool n).still = s.still := by
  unfold State.unreserveAt
  dsimp only
  split <;> exact s.still_with ..

@[simp] theorem State.reserve_still (s : State) (t pool n : Nat) : (s.reserve t pool n).still = s.still := State.foldl_still (fun u _ => u.reserveAt_still ..) s _
@[simp] theorem State.unreserveRange_still (s : State) (t pool n : Nat) : (s.unreserveRange t pool n).still = s.still :=
  State.foldl_still (fun u _ => u.unreserveAt_still ..) s _

@[simp] theorem State.unreserveOp_still (s : State) (o : Op) : (s.unreserveOp o).still = s.still := by
  unfold State.unreserveOp
  dsimp only
  split
  · rfl
  · split <;> exact s.still_with ..

@[simp] theorem State.keyFail_still (s : State) (c k n : Nat) : (s.keyFail c k n).still = s.still := by
  unfold State.keyFail
  extract_lets u v quiet w src
  have hv : v.still = s.still := by
    refine ((State.wr_still ..).trans ((State.wr_still ..).trans (State.wr_still ..))).trans ?_
    unfold u
    split <;> exact s.satInc_still ..
  have hw : w.still = s.still := by
    unfold w
    split
    · exact (State.raiseArg_still ..).trans hv
    · exact hv
  exact (w.still_with ..).trans hw

@[simp] theorem State.rnrCount_still (s : State) (r : Rnr) : (s.rnrCount r).still = s.still := by
  unfold State.rnrCount
  extract_lets quiet u src v
  have hv : v.still = s.still := (u.still_with ..).trans (State.raiseIf_still ..)
  have hcounted (k p n : Nat) (b : Bool) : ((v.rdxCount k).raiseIf b p n).still = s.still := (State.raiseIf_still ..).trans ((v.rdxCount_still ..).trans hv)
  cases r with
  | budget => exact (State.still_with ..).trans (hcounted ..)
  | window => exact (State.still_with ..).trans (hcounted ..)
  | quota => exact (State.still_with ..).trans (hcounted ..)
  | recv => exact (v.rdxCount_still ..).trans hv
  | region => exact (v.rdxCount_still ..).trans hv

@[simp] theorem State.keyReady_still (s : State) (i : Nat) : (s.keyReady i).2.still = s.still := by
  unfold State.keyReady
  split
  · rfl
  · split
    · exact s.still_with ..
    · split
      · rfl
      · exact s.still_with ..

@[simp] theorem State.keysReady_still (s : State) (ks : List Nat) : (s.keysReady ks).2.still = s.still :=
  List.foldlRecOn (motive := fun r : Bool × State => r.2.still = s.still) ks _ rfl (fun r hr i _ => (r.2.keyReady_still i).trans hr)

/-! ### Resident contexts, samples -/

@[simp] theorem State.ctxHold_still (s : State) (n : Nat) (on : Bool) : (s.ctxHold n on).still = s.still := s.still_with ..
@[simp] theorem State.qpForget_still (s : State) (n : Nat) : (s.qpForget n).still = s.still := s.still_with ..

@[simp] theorem State.ctxUse_still (s : State) (n : Nat) : (s.ctxUse n).2.still = s.still := by
  unfold State.ctxUse
  split
  · exact s.still_with ..
  · split
    · rfl
    · exact s.still_with ..

@[simp] theorem State.smpStage_still (s : State) : s.smpStage.2.still = s.still := s.still_with ..

@[simp] theorem State.smpSealed_still (s : State) (t : Nat) (e : Option Nat) : (s.smpSealed t e).2.still = s.still := by
  unfold State.smpSealed
  split
  · rfl
  · split
    · rfl
    · exact s.smpStage_still

@[simp] theorem State.smpRecord_still (s : State) (ws : List Word64) (a b c : Nat) (e : Option Nat) (r : Bool) : (s.smpRecord ws a b c e r).still = s.still := by
  have hstages : (s.smpStage.2.smpStage.2.smpStage.2.smpStage.2.smpStage.2.smpSealed a e).2.smpStage.2.smpStage.2.still = s.still := by simp
  unfold State.smpRecord
  dsimp only
  generalize (s.smpStage.2.smpStage.2.smpStage.2.smpStage.2.smpStage.2.smpSealed a e).2.smpStage.2.smpStage.2 = t at hstages ⊢
  refine State.still_ite hstages (State.still_ite ?_ ?_)
  · exact (State.satInc_still ..).trans ((t.still_with ..).trans hstages)
  · exact (State.still_with ..).trans ((State.raiseIf_still ..).trans ((State.satInc_still ..).trans ((t.still_with ..).trans hstages)))

@[simp] theorem State.smpMod_still (s : State) (n p : Nat) (f : List Word64 → List Word64) : (s.smpMod n p f).still = s.still := by
  unfold State.smpMod
  split
  · exact s.still_with ..
  · rfl

@[simp] theorem State.smpDrop_still (s : State) (n o : Nat) : (s.smpDrop n o).still = s.still :=
  (State.foldl_still (fun u _ => u.smpRecord_still ..) _ _).trans (s.still_with ..)
@[simp] theorem State.smpDiscard_still (s : State) (n p : Nat) : (s.smpDiscard n p).still = s.still :=
  (State.foldl_still (fun u _ => u.smpRecord_still ..) _ _).trans (s.still_with ..)

@[simp] theorem State.smpStart_still (s : State) (p n t op : Nat) (ws : List Word64) (psn since : Nat) : (s.smpStart p n t op ws psn since).still = s.still := by
  unfold State.smpStart
  split
  · rfl
  · extract_lets period v mine src w
    have hv : v.still = s.still := State.still_ite (s.still_with ..) rfl
    have hw : w.still = s.still := (v.still_with ..).trans hv
    exact State.still_ite hw (State.still_ite ((w.satInc_still ..).trans hw) ((w.still_with ..).trans hw))

end Sys2Proof.Machine
end

section
/-! PROOFS. A queue pair's engine state and the fields of its context: what a write changes and what it leaves (R145, R146). -/

namespace Sys2Proof.Machine

theorem State.qp_of_qps {a b : State} (h : b.qps = a.qps) (n : Nat) : b.qp n = a.qp n := by
  unfold State.qp
  rw [h]

theorem State.qp_of_still {a b : State} (h : b.still = a.still) (n : Nat) : b.qp n = a.qp n := State.qp_of_qps (State.qps_of_still h) n

theorem State.qf_of_words {a b : State} {n : Nat} (h : (b.qp n).words = (a.qp n).words) (w hi lo : Nat) : b.qf n w hi lo = a.qf n w hi lo := by
  unfold State.qf
  rw [h]

theorem State.qf_of_qp {a b : State} {n : Nat} (h : b.qp n = a.qp n) (w hi lo : Nat) : b.qf n w hi lo = a.qf n w hi lo :=
  State.qf_of_words (congrArg Qp.words h) w hi lo

theorem State.qState_of_qp {a b : State} {n : Nat} (h : b.qp n = a.qp n) : b.qState n = a.qState n := State.qf_of_qp h ..

@[simp] theorem State.qp_setQp_same (s : State) (n : Nat) (q : Qp) : (s.setQp n q).qp n = q := NMap.getD_put_same ..
@[simp] theorem State.qp_modQp_same (s : State) (n : Nat) (f : Qp → Qp) : (s.modQp n f).qp n = f (s.qp n) := State.qp_setQp_same ..
theorem State.qp_setQf_same (s : State) (n w hi lo v : Nat) :
    (s.setQf n w hi lo v).qp n = { s.qp n with words := NMap.put 0 (s.qp n).words w (setBits (NMap.getD (s.qp n).words w 0) hi lo v) } := State.qp_modQp_same ..

theorem State.qp_setQp_other (s : State) {n j : Nat} (h : j ≠ n) (q : Qp) : (s.setQp n q).qp j = s.qp j := NMap.getD_put_other h
theorem State.qp_modQp_other (s : State) {n j : Nat} (h : j ≠ n) (f : Qp → Qp) : (s.modQp n f).qp j = s.qp j := State.qp_setQp_other s h _
theorem State.qp_setQf_other (s : State) {n j : Nat} (h : j ≠ n) (w hi lo v : Nat) : (s.setQf n w hi lo v).qp j = s.qp j := State.qp_modQp_other s h _

/-- A field reads what was written to it, cut to its width. -/
@[simp] theorem State.qf_setQf_same (s : State) (n w : Nat) {hi lo : Nat} (v : Nat) (h : hi < 64) (hl : lo ≤ hi) :
    (s.setQf n w hi lo v).qf n w hi lo = v % 2 ^ (hi + 1 - lo) := by
  unfold State.qf
  rw [State.qp_setQf_same, NMap.getD_put_same, bits_setBits_same _ h hl]

/-- A write of a field leaves the fields of other words and the other fields of its word. -/
theorem State.qf_setQf_apart (s : State) (n : Nat) {w w' hi lo hi' lo' : Nat} (v : Nat) (h : hi < 64) (h' : hi' < 64) (hl : lo ≤ hi)
    (hd : w' ≠ w ∨ hi' < lo ∨ hi < lo') : (s.setQf n w hi lo v).qf n w' hi' lo' = s.qf n w' hi' lo' := by
  unfold State.qf
  rw [State.qp_setQf_same]
  by_cases hw : w' = w
  · subst hw
    rw [NMap.getD_put_same, bits_setBits_other _ h h' hl (hd.resolve_left (fun k => k rfl))]
  · rw [NMap.getD_put_other hw]

theorem State.qf_lt (s : State) (n w hi lo : Nat) : s.qf n w hi lo < 2 ^ (hi + 1 - lo) := bits_lt ..

/-- A change of the engine state that leaves the context's words leaves its fields. -/
theorem State.qf_modQp (s : State) (n : Nat) {f : Qp → Qp} (h : (f (s.qp n)).words = (s.qp n).words) (w hi lo : Nat) :
    (s.modQp n f).qf n w hi lo = s.qf n w hi lo :=
  State.qf_of_words ((congrArg Qp.words (s.qp_modQp_same n f)).trans h) w hi lo

@[simp] theorem State.stageQp_qps (s : State) (n : Nat) : (s.stageQp n).qps = s.qps := State.stage_qps ..
@[simp] theorem State.stageQp_regs (s : State) (n : Nat) : (s.stageQp n).regs = s.regs := State.stage_regs ..
@[simp] theorem State.stageQp_mono (s : State) (n : Nat) : (s.stageQp n).mono = s.mono := State.stage_mono ..
@[simp] theorem State.stageQp_dp (s : State) (n : Nat) : (s.stageQp n).dp = s.dp := State.stage_dp ..
@[simp] theorem State.qp_stageQp (s : State) (n j : Nat) : (s.stageQp n).qp j = s.qp j := State.qp_of_qps (s.stageQp_qps n) j
@[simp] theorem State.qf_stageQp (s : State) (n j w hi lo : Nat) : (s.stageQp n).qf j w hi lo = s.qf j w hi lo := State.qf_of_qp (s.qp_stageQp n j) ..

end Sys2Proof.Machine
end

section
/-! PROOFS. A QP that enters ERROR or returns to RESET: what becomes of its engine state, and that other QPs keep theirs (R145). -/

namespace Sys2Proof.Machine

/-! ### The parts of both -/

theorem State.foldl_qps {α : Type} {f : State → α → State} (h : ∀ s x, (f s x).qps = s.qps) (s : State) (l : List α) : (l.foldl f s).qps = s.qps :=
  List.foldlRecOn (motive := fun t : State => t.qps = s.qps) l f rfl (fun t ht x _ => (h t x).trans ht)

theorem State.foldl_mono {α : Type} {f : State → α → State} (h : ∀ s x, (f s x).mono = s.mono) (s : State) (l : List α) : (l.foldl f s).mono = s.mono :=
  List.foldlRecOn (motive := fun t : State => t.mono = s.mono) l f rfl (fun t ht x _ => (h t x).trans ht)

theorem State.modQp_qps_congr {a b : State} (h : b.qps = a.qps) (n : Nat) (f : Qp → Qp) : (b.modQp n f).qps = (a.modQp n f).qps := by
  unfold State.modQp State.setQp State.qp
  rw [h]

/-- The message in progress of a QP ends: beside it, reservations and holds alone change. -/
theorem State.dropMsg_eq (s : State) (n : Nat) : ∃ u : State, u.still = s.still ∧ s.dropMsg n = u.modQp n (fun q => { q with msg := none }) ∨ (s.qp n).msg = none ∧ s.dropMsg n = s := by
  unfold State.dropMsg
  split
  · refine ⟨_, .inl ⟨?_, rfl⟩⟩
    split
    · exact (State.dropHold_still ..).trans (s.unreserveRange_still ..)
    · exact s.unreserveRange_still ..
  · next h => exact ⟨s, .inr ⟨h, rfl⟩⟩

theorem State.qp_dropMsg_same (s : State) (n : Nat) : (s.dropMsg n).qp n = { s.qp n with msg := none } := by
  obtain ⟨u, ⟨hu, he⟩ | ⟨hm, he⟩⟩ := s.dropMsg_eq n
  · rw [he, State.qp_modQp_same, State.qp_of_still hu]
  · rw [he, ← hm]

theorem State.qp_dropMsg_other (s : State) {n j : Nat} (h : j ≠ n) : (s.dropMsg n).qp j = s.qp j := by
  obtain ⟨u, ⟨hu, he⟩ | ⟨_, he⟩⟩ := s.dropMsg_eq n
  · rw [he, State.qp_modQp_other u h, State.qp_of_still hu]
  · rw [he]

@[simp] theorem State.dropMsg_mono (s : State) (n : Nat) : (s.dropMsg n).mono = s.mono := by
  obtain ⟨u, ⟨hu, he⟩ | ⟨_, he⟩⟩ := s.dropMsg_eq n
  · rw [he, State.modQp_mono, State.mono_of_still hu]
  · rw [he]

/-- Frames of a QP that have not left go: beside its own lists, ports and cells alone change. -/
theorem State.dropSends_still (s : State) (n : Nat) : (s.dropSends n).still = (s.modQp n (fun q => { q with sends := [], sendWait := [] })).still := by
  unfold State.dropSends
  extract_lets mine u src v
  refine (State.foldl_still (fun t e => ?_) v _).trans (u.still_with ..)
  dsimp only
  split
  · rfl
  · exact (State.afterFree_still ..).trans ((State.modPort_still ..).trans (State.foldl_still (fun x f => x.freeTx_still f) t _))

@[simp] theorem State.disarmFor_qps (s : State) (n : Nat) : (s.disarmFor n).qps = s.qps := by
  unfold State.disarmFor
  extract_lets hit some_ out u
  rw [State.raiseIf_qps]
  refine State.foldl_qps (fun t e => ?_) s out
  rw [State.stage_qps]

/-- Operations end: beside their lists, what they hold alone changes. -/
theorem State.dropOps_eq (s : State) (f : Op → Bool) : ∃ (u : State) (h : Hearth) (d : DataPath) (c : Cache) (x y : List FwdOut), u.still = s.still
    ∧ s.dropOps f = { u with hearth := h, dp := d, cache := c, pair := { u.pair with fwdOut := x, fwdQueue := y } } := by
  unfold State.dropOps
  extract_lets out ids u
  refine ⟨u, _, _, _, _, _, ?_, rfl⟩
  refine State.foldl_still (fun v o => ?_) s out
  dsimp only
  split
  · exact (State.dropOpHold_still ..).trans ((State.freeOpCells_still ..).trans (v.unreserveOp_still o))
  · exact (State.freeOpCells_still ..).trans (v.unreserveOp_still o)

@[simp] theorem State.dropOps_qps (s : State) (f : Op → Bool) : (s.dropOps f).qps = s.qps := by
  obtain ⟨u, _, _, _, _, _, hu, he⟩ := s.dropOps_eq f
  rw [he]
  exact (State.qps_of_still hu :)

@[simp] theorem State.dropOps_mono (s : State) (f : Op → Bool) : (s.dropOps f).mono = s.mono := by
  obtain ⟨u, _, _, _, _, _, hu, he⟩ := s.dropOps_eq f
  rw [he]
  exact (State.mono_of_still hu :)

@[simp] theorem State.sourceLeft_qps (s : State) (a : Option IpAddr) : (s.sourceLeft a).qps = s.qps := by
  unfold State.sourceLeft
  split
  · split <;> rfl
  · rfl

@[simp] theorem State.sourceLeft_mono (s : State) (a : Option IpAddr) : (s.sourceLeft a).mono = s.mono := by
  unfold State.sourceLeft
  split
  · split <;> rfl
  · rfl

/-! ### ERROR -/

/-- The fields that a QP's entry into ERROR writes: its state and cause, its message and SENDs, the moment. -/
theorem State.qpError_qps (s : State) {n : Nat} (cause : Nat) (h : s.qState n = 2 ∨ s.qState n = 3) :
    (s.qpError n cause).qps = ((((((s.setQf n 0 2 0 4).setQf n 0 55 48 cause).dropMsg n).modQp n (fun q => { q with sends := [], sendWait := [] })).modQp n
      (fun q => { q with errSince := some s.mono })).setQf n 7 31 16 0).qps := by
  unfold State.qpError
  rw [if_pos h]
  extract_lets a b c d e f
  have hb : b.mono = s.mono := by unfold b a; simp
  have hf : f.qps = e.qps := (State.qps_of_still (State.smpDrop_still ..)).trans (State.raiseIf_qps ..)
  rw [State.stageQp_qps, hf, State.disarmFor_qps]
  refine State.modQp_qps_congr ?_ n _
  unfold c
  rw [hb]
  exact State.modQp_qps_congr (State.qps_of_still (b.dropSends_still n)) n _

theorem State.qp_qpError_other (s : State) {n j : Nat} (cause : Nat) (h : j ≠ n) : (s.qpError n cause).qp j = s.qp j := by
  by_cases hst : s.qState n = 2 ∨ s.qState n = 3
  · rw [State.qp_of_qps (s.qpError_qps cause hst), State.qp_setQf_other _ h, State.qp_modQp_other _ h, State.qp_modQp_other _ h, State.qp_dropMsg_other _ h,
      State.qp_setQf_other _ h, State.qp_setQf_other _ h]
  · unfold State.qpError
    rw [if_neg hst]

theorem State.qf_dropMsg (s : State) (n w hi lo : Nat) : (s.dropMsg n).qf n w hi lo = s.qf n w hi lo :=
  State.qf_of_words ((congrArg Qp.words (s.qp_dropMsg_same n)).trans rfl) w hi lo

theorem State.qf_qpError (s : State) {n : Nat} (cause w hi lo : Nat) (h : s.qState n = 2 ∨ s.qState n = 3) (hw : w ≠ 7) (hhi : hi < 64) :
    (s.qpError n cause).qf n w hi lo = ((s.setQf n 0 2 0 4).setQf n 0 55 48 cause).qf n w hi lo := by
  rw [State.qf_of_qp (State.qp_of_qps (s.qpError_qps cause h) n), State.qf_setQf_apart _ _ _ (by decide) hhi (by decide) (.inl hw),
    State.qf_modQp _ _ rfl, State.qf_modQp _ _ rfl, State.qf_dropMsg]

theorem State.qState_qpError (s : State) {n : Nat} (cause : Nat) (h : s.qState n = 2 ∨ s.qState n = 3) : (s.qpError n cause).qState n = 4 := by
  unfold State.qState
  rw [s.qf_qpError cause 0 2 0 h (by decide) (by decide), State.qf_setQf_apart _ _ _ (by decide) (by decide) (by decide) (by decide),
    State.qf_setQf_same _ _ _ _ (by decide) (by decide)]
  rfl

/-- The cause of a QP's ERROR, cut to its 8 bits. -/
theorem State.errCause_qpError (s : State) {n : Nat} (cause : Nat) (h : s.qState n = 2 ∨ s.qState n = 3) : (s.qpError n cause).qf n 0 55 48 = cause % 2 ^ 8 := by
  rw [s.qf_qpError cause 0 55 48 h (by decide) (by decide), State.qf_setQf_same _ _ _ _ (by decide) (by decide)]

theorem State.sends_qpError (s : State) {n : Nat} (cause : Nat) (h : s.qState n = 2 ∨ s.qState n = 3) : ((s.qpError n cause).qp n).sends = [] := by
  rw [State.qp_of_qps (s.qpError_qps cause h), State.qp_setQf_same, State.qp_modQp_same, State.qp_modQp_same]

theorem State.errSince_qpError (s : State) {n : Nat} (cause : Nat) (h : s.qState n = 2 ∨ s.qState n = 3) : ((s.qpError n cause).qp n).errSince = some s.mono := by
  rw [State.qp_of_qps (s.qpError_qps cause h), State.qp_setQf_same, State.qp_modQp_same]

/-! ### RESET -/

/-- A QP that returns to RESET keeps the moment alone, and other QPs all of theirs. -/
theorem State.qpReset_effect (s : State) (n : Nat) :
    ∃ u : State, u.mono = s.mono ∧ (∀ j, j ≠ n → u.qp j = s.qp j) ∧ (s.qpReset n).qps = (u.setQp n { freedAt := some s.mono }).qps ∧ (s.qpReset n).mono = s.mono := by
  unfold State.qpReset
  extract_lets t src a b c r d
  have hb : b.still = ((a.modQp n (fun q => { q with sends := [], sendWait := [] }))).still :=
    (State.qpForget_still ..).trans ((State.ctxHold_still ..).trans (a.dropSends_still n))
  have hmono : b.mono = s.mono := by rw [State.mono_of_still hb]; simp [a]
  refine ⟨b, hmono, fun j hj => ?_, ?_, ?_⟩
  · rw [State.qp_of_still hb, State.qp_modQp_other _ hj, State.qp_of_qps (State.dropOps_qps ..), State.qp_dropMsg_other _ hj]
  · have hd : d.qps = c.qps := by unfold d; split <;> rfl
    rw [State.stageQp_qps, State.sourceLeft_qps, hd]
    unfold c
    rw [hmono]
  · have hd : d.mono = c.mono := by unfold d; split <;> rfl
    rw [State.stageQp_mono, State.sourceLeft_mono, hd]
    exact hmono

theorem State.qp_qpReset_same (s : State) (n : Nat) : (s.qpReset n).qp n = { freedAt := some s.mono } := by
  obtain ⟨u, _, _, he, _⟩ := s.qpReset_effect n
  rw [State.qp_of_qps he, State.qp_setQp_same]

theorem State.qp_qpReset_other (s : State) {n j : Nat} (h : j ≠ n) : (s.qpReset n).qp j = s.qp j := by
  obtain ⟨u, _, hother, he, _⟩ := s.qpReset_effect n
  rw [State.qp_of_qps he, State.qp_setQp_other _ h, hother j h]

@[simp] theorem State.qpReset_mono (s : State) (n : Nat) : (s.qpReset n).mono = s.mono := by
  obtain ⟨_, _, _, _, hmono⟩ := s.qpReset_effect n
  exact hmono

end Sys2Proof.Machine
end

section
/-! PROOFS. SENDs of the device that wait for an answer, and the rate of a queue pair (R168, R170), settling O34. -/

namespace Sys2Proof.Machine

/-! ### Outstanding SENDs -/

@[simp] theorem State.setSends_regs (s : State) (n : Nat) (l : List SendOut) : (s.setSends n l).regs = s.regs := (State.setQf_regs ..).trans (State.modQp_regs ..)

theorem State.sends_setSends (s : State) (n : Nat) (l : List SendOut) : ((s.setSends n l).qp n).sends = l := by
  unfold State.setSends
  rw [State.qp_setQf_same, State.qp_modQp_same]

theorem State.sendOut_setSends (s : State) (n : Nat) (l : List SendOut) : (s.setSends n l).qf n 7 31 16 = l.length % 2 ^ 16 :=
  State.qf_setQf_same _ _ _ _ (by decide) (by decide)

theorem State.qp_setSends_other (s : State) {n j : Nat} (h : j ≠ n) (l : List SendOut) : (s.setSends n l).qp j = s.qp j :=
  (State.qp_setQf_other _ h ..).trans (State.qp_modQp_other _ h _)

/-- An ACK ends the SENDs up to its PSN; nothing of what is left is sent anew (R168). -/
theorem State.sendAcked_ack {s : State} {n psn syn : Nat} (hsent : s.sentPsn n psn = true) (hsyn : syn < 0x20) :
    s.sendAcked n psn syn = (s.setSends n ((s.qp n).sends.filter (fun o => !psnLe o.psn psn))).stageQp n := by
  unfold State.sendAcked
  rw [hsent, decide_eq_false (by omega : ¬ 0x20 ≤ syn)]
  simp only [Bool.not_true, Bool.false_eq_true, if_false, Bool.false_and, Bool.not_false, Bool.and_true, if_pos hsyn]
  split <;> rfl

/-- The oldest received acknowledgement of a port is worked on in the state behind its frame. -/
theorem State.acknowledge_of_taken {s w : State} {p : Nat} {k : Packet}
    (h : s.packetTaken p (fun f => match f.frame.body with | .roce _ _ _ k _ => k.transport == .rc && isAck k.opcode | _ => false) k w)
    (hsilent : w.silent = false) (hhome : w.homeOf k.destQpn = true) (hst : w.qState k.destQpn = 3) :
    s.acknowledge p = w.sendAcked k.destQpn k.psn k.syndrome := by
  obtain ⟨f, u, hpop, rfl, a, b, m, cm, hbody⟩ := h
  unfold State.acknowledge
  split
  · next hnone => exact absurd (hnone.symm.trans hpop) nofun
  · next hsome =>
    obtain ⟨rfl, rfl⟩ := Prod.mk.inj (Option.some.inj (hsome.symm.trans hpop))
    dsimp only
    rw [hbody]
    dsimp only
    rw [hsilent, hhome, hst]
    rfl

theorem State.acknowledge_acked {s w : State} {p : Nat} {k : Packet}
    (h : s.packetTaken p (fun f => match f.frame.body with | .roce _ _ _ k _ => k.transport == .rc && isAck k.opcode | _ => false) k w)
    (hsilent : w.silent = false) (hhome : w.homeOf k.destQpn = true) (hst : w.qState k.destQpn = 3) (hsent : w.sentPsn k.destQpn k.psn = true) (hsyn : k.syndrome < 0x20) :
    ∃ t : State, exec (.acknowledge p) s = .next t.settle ∧ (t.qp k.destQpn).sends = (w.qp k.destQpn).sends.filter (fun o => !psnLe o.psn k.psn)
      ∧ t.qf k.destQpn 7 31 16 = (t.qp k.destQpn).sends.length % 2 ^ 16 ∧ (∀ j, j ≠ k.destQpn → t.qp j = w.qp j) ∧ t.regs = w.regs := by
  refine ⟨w.sendAcked k.destQpn k.psn k.syndrome, nextSettled_congr (State.acknowledge_of_taken h hsilent hhome hst), ?_⟩
  rw [State.sendAcked_ack hsent hsyn]
  refine ⟨?_, ?_, fun j hj => ?_, ?_⟩
  · rw [State.qp_stageQp, State.sends_setSends]
  · rw [State.qf_stageQp, State.qp_stageQp, State.sendOut_setSends, State.sends_setSends]
  · rw [State.qp_stageQp, State.qp_setSends_other _ hj]
  · rw [State.stageQp_regs, State.setSends_regs]

/-! ### Timers of SENDs -/

@[simp] theorem State.qp_upTo (s : State) (t n : Nat) : (s.upTo t).qp n = s.qp n := State.qp_of_qps (s.upTo_qps t) n
@[simp] theorem State.qf_upTo (s : State) (t n w hi lo : Nat) : (s.upTo t).qf n w hi lo = s.qf n w hi lo := State.qf_of_qp (s.qp_upTo t n) ..

/-- The oldest SEND is timed: what its time-out does, at that moment. -/
theorem State.sendTimeout_eq {s : State} {n t0 : Nat} {o : SendOut} {os : List SendOut} (hsilent : s.silent = false) (hst : s.qState n = 3)
    (hsends : (s.qp n).sends = o :: os) (hdl : o.deadline = some t0) :
    s.sendTimeout n = if s.qf n 7 7 5 < o.tries + 1 then (s.upTo t0).qpError n 4
      else ((s.upTo t0).setSends n ((o :: os).map (fun x => if x.psn = o.psn then { x with tries := x.tries + 1 } else x))).resend n o.psn := by
  unfold State.sendTimeout
  rw [hsilent, hst, hsends]
  simp only [bne_self_eq_false, Bool.or_self, Bool.false_eq_true, if_false, hdl, State.qf_upTo, State.qp_upTo, hsends]

theorem exec_sendAckTimeout {s : State} {n t0 : Nat} {o : SendOut} {os : List SendOut} (hsilent : s.silent = false) (hst : s.qState n = 3)
    (hsends : (s.qp n).sends = o :: os) (hdl : o.deadline = some t0) :
    (s.qf n 7 7 5 < o.tries + 1 → exec (.sendAckTimeout n) s = .next ((s.upTo t0).qpError n 4).settle ∧ ((s.upTo t0).qpError n 4).qState n = 4)
    ∧ (o.tries < s.qf n 7 7 5 → exec (.sendAckTimeout n) s = .next
        (((s.upTo t0).setSends n ((o :: os).map (fun x => if x.psn = o.psn then { x with tries := x.tries + 1 } else x))).resend n o.psn).settle) := by
  have heq := State.sendTimeout_eq hsilent hst hsends hdl
  refine ⟨fun hlast => ⟨nextSettled_congr (heq.trans (if_pos hlast)), State.qState_qpError _ 4 (.inr ?_)⟩, fun hmore => nextSettled_congr (heq.trans (if_neg (by omega)))⟩
  exact (State.qState_of_qp (s.qp_upTo t0 n)).trans hst

theorem exec_sendRnrRetry {s : State} {n t0 : Nat} {o : SendOut} {os : List SendOut} (hsilent : s.silent = false) (hst : s.qState n = 3)
    (hsends : (s.qp n).sends = o :: os) (hrnr : o.rnrAt = some t0) : exec (.sendRnrRetry n) s = .next ((s.upTo t0).resend n o.psn).settle := by
  refine nextSettled_congr (a := s.sendRnrRetry n) ?_
  unfold State.sendRnrRetry
  rw [hsilent, hst, hsends]
  simp only [bne_self_eq_false, Bool.or_self, Bool.false_eq_true, if_false, hrnr]

/-! ### The rate: CNPs, decay, increase -/

/-- What a CNP writes (R170). -/
theorem State.cnpStep_fields (s : State) (n : Nat) :
    let a := s.qf n 9 15 0
    let g := s.rd RDX_CC_CFG_G_SHIFT
    (s.cnpStep n).qf n 8 63 32 = s.qf n 8 31 0 ∧ (s.cnpStep n).qf n 8 31 0 = max (100 * s.rd RDX_CC_CFG_RATE_MIN) (s.qf n 8 31 0 * (65536 - a) / 65536) % 2 ^ 32
      ∧ (s.cnpStep n).qf n 9 15 0 = (a * (2 ^ g - 1) + 0x8000) / 2 ^ g % 2 ^ 16 ∧ (s.cnpStep n).qf n 9 23 16 = 0
      ∧ ((s.cnpStep n).qp n).alphaAt = s.mono ∧ ((s.cnpStep n).qp n).incAt = s.mono := by
  intro a g
  have hcur : s.qf n 8 31 0 < 2 ^ 32 := s.qf_lt n 8 31 0
  unfold State.cnpStep
  extract_lets cur u v
  have hread (w hi lo : Nat) : (v.modQp n (fun q => { q with alphaAt := v.mono, incAt := v.mono })).qf n w hi lo = v.qf n w hi lo := State.qf_modQp _ _ rfl ..
  have hmono : v.mono = s.mono := by simp [v, u]
  rw [hread, hread, hread, hread, State.qp_modQp_same, hmono]
  refine ⟨?_, ?_, ?_, ?_, rfl, rfl⟩
  · simpa (disch := decide) [v, u, cur, State.qf_setQf_apart] using hcur
  · simp (disch := decide) [v, u, cur, a, State.qf_setQf_apart]
  · simp (disch := decide) [v, u, g, a, State.qf_setQf_apart]
  · simp (disch := decide) [v, u]

theorem State.qp_cnpStep_other (s : State) {n j : Nat} (h : j ≠ n) : (s.cnpStep n).qp j = s.qp j := by
  unfold State.cnpStep
  simp only [State.qp_modQp_other _ h, State.qp_setQf_other _ h]

@[simp] theorem State.cnpStep_regs (s : State) (n : Nat) : (s.cnpStep n).regs = s.regs := by
  unfold State.cnpStep
  simp only [State.modQp_regs, State.setQf_regs]

/-- The oldest received CNP of a port is counted and worked on in the state behind its frame. -/
theorem State.cnpReceived_of_taken {s v : State} {p : Nat} {k : Packet}
    (h : s.packetTaken p (fun f => match f.frame.body with | .roce _ _ _ k _ => k.transport == .cnp | _ => false) k v)
    (hrated : (v.rdxCount 13).rated k.destQpn = true) : s.cnpReceived p = ((v.rdxCount 13).cnpStep k.destQpn).stageQp k.destQpn := by
  obtain ⟨f, u, hpop, rfl, a, b, m, cm, hbody⟩ := h
  unfold State.cnpReceived
  split
  · next hnone => exact absurd (hnone.symm.trans hpop) nofun
  · next hsome =>
    obtain ⟨rfl, rfl⟩ := Prod.mk.inj (Option.some.inj (hsome.symm.trans hpop))
    dsimp only
    rw [hbody]
    exact if_pos hrated

theorem exec_cnpReceived {s v : State} {p : Nat} {k : Packet}
    (h : s.packetTaken p (fun f => match f.frame.body with | .roce _ _ _ k _ => k.transport == .cnp | _ => false) k v)
    (hrated : (v.rdxCount 13).rated k.destQpn = true) :
    let n := k.destQpn
    let a := v.qf n 9 15 0
    let g := v.rd RDX_CC_CFG_G_SHIFT
    ∃ t : State, exec (.cnpReceived p) s = .next t.settle ∧ t.qf n 8 63 32 = v.qf n 8 31 0
      ∧ t.qf n 8 31 0 = max (100 * v.rd RDX_CC_CFG_RATE_MIN) (v.qf n 8 31 0 * (65536 - a) / 65536) % 2 ^ 32 ∧ t.qf n 9 15 0 = (a * (2 ^ g - 1) + 0x8000) / 2 ^ g % 2 ^ 16
      ∧ t.qf n 9 23 16 = 0 ∧ (t.qp n).alphaAt = v.mono ∧ (t.qp n).incAt = v.mono ∧ (∀ j, j ≠ n → t.qp j = v.qp j) ∧ regsKept v t [RDX_COUNTER_COUNT.key 0 104] := by
  intro n a g
  have hcount (f : Fld) (hk : f.key ≠ RDX_COUNTER_COUNT.key 0 104) : (v.rdxCount 13).rd f = v.rd f := State.rd_wr_other _ _ _ _ _ _ _ _ hk
  obtain ⟨htgt, hcur, halpha, hinc, hat, hiat⟩ := (v.rdxCount 13).cnpStep_fields n
  rw [hcount _ (by decide)] at hcur halpha
  refine ⟨((v.rdxCount 13).cnpStep n).stageQp n, nextSettled_congr (State.cnpReceived_of_taken h hrated), ?_⟩
  simp only [State.qf_stageQp, State.qp_stageQp]
  refine ⟨htgt, hcur, halpha, hinc, hat, hiat, fun j hj => State.qp_cnpStep_other _ hj, ?_⟩
  exact regsKept.trans (v.wr_regsKept RDX_COUNTER_COUNT _ 0 104) (regsKept.of_regs ((State.stageQp_regs ..).trans (State.cnpStep_regs ..)) _)

/-- ALPHA_US without a CNP lets the ALPHA of a QP decay. -/
theorem exec_alphaDecay {s : State} {n : Nat} (hrated : s.rated n = true) :
    ∃ t : State, exec (.alphaDecay n) s = .next t ∧ t.mono = max s.mono ((s.qp n).alphaAt + s.rd RDX_CC_CFG_ALPHA_US * 1000)
      ∧ t.qf n 9 15 0 = s.qf n 9 15 0 * (2 ^ s.rd RDX_CC_CFG_G_SHIFT - 1) / 2 ^ s.rd RDX_CC_CFG_G_SHIFT ∧ (t.qp n).alphaAt = t.mono ∧ t.qf n 8 31 0 = s.qf n 8 31 0
      ∧ (∀ j, j ≠ n → t.qp j = s.qp j) ∧ t.regs = s.regs := by
  refine ⟨s.alphaDecay n, rfl, ?_⟩
  unfold State.alphaDecay
  rw [if_neg (by simp [hrated])]
  extract_lets u g
  have hg : g = s.rd RDX_CC_CFG_G_SHIFT := State.rd_upTo ..
  have hread (w hi lo : Nat) : u.qf n w hi lo = s.qf n w hi lo := State.qf_upTo ..
  have halpha : s.qf n 9 15 0 * (2 ^ g - 1) / 2 ^ g < 2 ^ 16 := by
    refine lt_of_le_of_lt (Nat.div_le_of_le_mul ?_) (s.qf_lt n 9 15 0)
    rw [Nat.mul_comm]
    exact Nat.mul_le_mul_right _ (Nat.sub_le ..)
  simp (disch := rfl) only [State.qf_stageQp, State.qp_stageQp, State.stageQp_mono, State.stageQp_regs, State.modQp_mono, State.modQp_regs, State.qp_modQp_same, State.qf_modQp,
    State.setQf_mono, State.setQf_regs, hread]
  simp (disch := decide) only [State.qf_setQf_same, State.qf_setQf_apart, hread, ← hg]
  refine ⟨s.upTo_mono _, Nat.mod_eq_of_lt halpha, trivial, trivial, fun j hj => ?_, s.upTo_regs _⟩
  rw [State.qp_modQp_other _ hj, State.qp_setQf_other _ hj, State.qp_upTo]

theorem State.portRate_lt (s : State) (p : Nat) : s.portRate p < 2 ^ 32 := by
  unfold State.portRate
  split <;> decide

/-- INC_US without a CNP raises the rate of a QP half-way to its target. -/
theorem exec_rateIncrease {s : State} {n : Nat} (hrated : s.rated n = true) :
    let k := min 255 (s.qf n 9 23 16 + 1)
    let tgt := if 5 < k then min (s.portRate (s.qPort n)) (s.qf n 8 63 32 + 100 * s.rd RDX_CC_CFG_RAI) else s.qf n 8 63 32
    ∃ t : State, exec (.rateIncrease n) s = .next t ∧ t.mono = max s.mono ((s.qp n).incAt + s.rd RDX_CC_CFG_INC_US * 1000)
      ∧ t.qf n 9 23 16 = k ∧ t.qf n 8 63 32 = tgt ∧ t.qf n 8 31 0 = min (s.portRate (s.qPort n)) ((s.qf n 8 31 0 + tgt) / 2)
      ∧ (t.qp n).incAt = t.mono ∧ (∀ j, j ≠ n → t.qp j = s.qp j) ∧ t.regs = s.regs := by
  intro k tgt
  refine ⟨s.rateIncrease n, rfl, ?_⟩
  unfold State.rateIncrease
  rw [if_neg (by simp [hrated])]
  extract_lets u port k' tgt' v
  have hread (w hi lo : Nat) : u.qf n w hi lo = s.qf n w hi lo := State.qf_upTo ..
  have hport : port = s.portRate (s.qPort n) := by
    unfold port State.portRate State.qPort
    rw [hread, State.rd_upTo]
  have hk : k' = k := by unfold k' k; rw [hread]
  have htgt : tgt' = tgt := by
    unfold tgt' tgt
    rw [hk, hread, hport, State.rd_upTo]
  have hkb : k < 2 ^ 8 := by omega
  have htgtb : tgt < 2 ^ 32 := by
    have := s.portRate_lt (s.qPort n)
    have := s.qf_lt n 8 63 32
    unfold tgt
    split <;> omega
  have hcurb : min (s.portRate (s.qPort n)) ((s.qf n 8 31 0 + tgt) / 2) < 2 ^ 32 := lt_of_le_of_lt (Nat.min_le_left ..) (s.portRate_lt _)
  simp (disch := rfl) only [State.qf_stageQp, State.qp_stageQp, State.stageQp_mono, State.stageQp_regs, State.modQp_mono, State.modQp_regs, State.qp_modQp_same, State.qf_modQp, v,
    State.setQf_mono, State.setQf_regs, hk, htgt, hport, hread]
  simp (disch := decide) only [State.qf_setQf_same, State.qf_setQf_apart]
  refine ⟨s.upTo_mono _, Nat.mod_eq_of_lt hkb, Nat.mod_eq_of_lt htgtb, Nat.mod_eq_of_lt hcurb, trivial, fun j hj => ?_, s.upTo_regs _⟩
  rw [State.qp_modQp_other _ hj, State.qp_setQf_other _ hj, State.qp_setQf_other _ hj, State.qp_setQf_other _ hj, State.qp_upTo]

/-! ### The pacer -/

theorem State.port_of_ports {a b : State} (h : b.ports = a.ports) (p : Nat) : b.port p = a.port p := by
  unfold State.port
  rw [h]

theorem State.port_modPort_same (s : State) (p : Nat) (f : Port → Port) : (s.modPort p f).port p = f (s.port p) := NMap.getD_put_same ..
theorem State.port_modPort_other (s : State) {p j : Nat} (h : j ≠ p) (f : Port → Port) : (s.modPort p f).port j = s.port j := NMap.getD_put_other h


/-- The pacer holds no frame of the QP. -/
theorem exec_pacerRelease_idle {s : State} {n : Nat} (h : s.ports.all (fun e => e.2.txq.all (fun f => !(f.paced && f.body.qpn == n))) = true) :
    exec (.pacerRelease n) s = .next s.settle := by
  refine nextSettled_congr (a := s.pacerRelease n) ?_
  have hnone : s.ports.find? (fun e => e.2.txq.any (fun f => f.paced && f.body.qpn == n)) = none := by
    refine List.find?_eq_none.mpr (fun e he hheld => ?_)
    obtain ⟨f, hf, hmine⟩ := List.any_eq_true.mp hheld
    have hfree := List.all_eq_true.mp (List.all_eq_true.mp h e he) f hf
    rw [hmine] at hfree
    exact absurd hfree (by decide)
  unfold State.pacerRelease
  dsimp only
  rw [hnone]

/-- The first of a list's frames that equals one leaves the pacer. -/
theorem pacerRelease_go_append {f : TxFrame} {pre : List TxFrame} (post : List TxFrame) (h : f ∉ pre) :
    State.pacerRelease.go f (pre ++ f :: post) = pre ++ { f with paced := false } :: post := by
  induction pre with
  | nil => exact if_pos rfl
  | cons x xs ih =>
    rw [List.mem_cons, not_or] at h
    exact (if_neg (Ne.symm h.1)).trans (congrArg (x :: ·) (ih h.2))

theorem exec_pacerRelease_held {s : State} {n : Nat} {e : Nat × Port} {pre post : List TxFrame} {f : TxFrame}
    (hport : s.ports.find? (fun e => e.2.txq.any (fun f => f.paced && f.body.qpn == n)) = some e) (hp : s.port e.1 = e.2) (hq : e.2.txq = pre ++ f :: post)
    (hpre : ∀ x ∈ pre, (x.paced && x.body.qpn == n) = false) (hf : (f.paced && f.body.qpn == n) = true) :
    ∃ t : State, exec (.pacerRelease n) s = .next (t.kickTx e.1).settle ∧ (t.port e.1).txq = pre ++ { f with paced := false } :: post ∧ t.regs = s.regs
      ∧ t.mono = max s.mono (s.qp n).paceAt ∧ (t.qp n).paceAt = t.mono + t.paceNs n f.len ∧ (∀ j, j ≠ n → t.qp j = s.qp j) ∧ (∀ j, j ≠ e.1 → t.port j = s.port j) := by
  have hfind : e.2.txq.find? (fun f => f.paced && f.body.qpn == n) = some f := by
    rw [hq, List.find?_append, List.find?_eq_none.mpr (fun x hx => by simp [hpre x hx]), Option.none_or]
    exact List.find?_cons_of_pos hf
  have hnot : f ∉ pre := fun hmem => absurd hf (by rw [hpre f hmem]; decide)
  let v := s.upTo (s.qp n).paceAt
  let u := v.modQp n (fun q => { q with paceAt := v.mono + v.paceNs n f.len })
  let t := u.modPort e.1 (fun x => { x with txq := State.pacerRelease.go f x.txq })
  have hqps : t.qps = u.qps := u.modPort_qps ..
  have hrate (w hi lo : Nat) : t.qf n w hi lo = v.qf n w hi lo := (State.qf_of_qp (State.qp_of_qps hqps n) ..).trans (State.qf_modQp _ _ rfl ..)
  have hv (j : Nat) : u.port j = s.port j := State.port_of_ports ((v.modQp_ports ..).trans (s.upTo_ports _)) j
  refine ⟨t, ?_, ?_, ?_, ?_, ?_, fun j hj => ?_, fun j hj => ?_⟩
  · refine nextSettled_congr (a := s.pacerRelease n) ?_
    unfold State.pacerRelease
    dsimp only
    rw [hport]
    dsimp only
    rw [hfind]
  · rw [State.port_modPort_same, hv, hp, hq]
    exact pacerRelease_go_append post hnot
  · exact (u.modPort_regs ..).trans ((v.modQp_regs ..).trans (s.upTo_regs _))
  · exact (u.modPort_mono ..).trans ((v.modQp_mono ..).trans (s.upTo_mono _))
  · rw [State.qp_of_qps hqps, State.qp_modQp_same]
    unfold State.paceNs
    rw [hrate]
    rfl
  · rw [State.qp_of_qps hqps, State.qp_modQp_other _ hj, State.qp_upTo]
  · rw [State.port_modPort_other _ hj, hv]

/-- Settles O34. -/
theorem sendsAndRate : Obligations.SendsAndRate := by
  refine ⟨fun s => ⟨fun p k w => State.acknowledge_acked, fun n o os t0 => exec_sendAckTimeout, fun n o os t0 => exec_sendRnrRetry⟩,
    fun s n => ⟨?_, fun hrated => ⟨exec_alphaDecay hrated, exec_rateIncrease hrated⟩, exec_pacerRelease_idle, fun e pre f post => exec_pacerRelease_held⟩⟩
  rintro p k v htaken rfl hrated
  exact exec_cnpReceived htaken hrated

end Sys2Proof.Machine
end

section
/-! PROOFS. Connection management on QP1 (R142, R143, R145, R186), settling O33. -/

namespace Sys2Proof.Machine

/-- The message of a port that may be worked on is worked on in the state behind its frame. -/
theorem State.takeCm_of_taken {s w : State} {p : Nat} {ok : CmMsg → Bool} {c : CmFrame} (h : s.cmTaken p ok c w) (go : State → CmFrame → State) :
    s.takeCm p ok go = go w c := by
  obtain ⟨f, u, v, hpop, hcm, hwait, rfl, hsilent, hingress, hready, rfl⟩ := h
  unfold State.takeCm
  split
  · next hnone => exact absurd (hnone.symm.trans hpop) nofun
  · next hsome =>
    obtain ⟨rfl, rfl⟩ := Prod.mk.inj (Option.some.inj (hsome.symm.trans hpop))
    rw [hwait]
    dsimp only
    rw [hsilent, hingress, hready, hcm]
    rfl

/-! ### A new connection -/

/-- A number of big-endian bytes. -/
theorem leNat_lt (l : List Byte) : leNat l < 256 ^ l.length := by
  induction l with
  | nil => decide
  | cons b l ih =>
    have hb : b.toNat < 256 := b.isLt
    rw [List.length_cons, Nat.pow_succ]
    show b.toNat + 256 * leNat l < _
    omega

theorem beNat_lt {l : List Byte} {n : Nat} (h : l.length ≤ n) : beNat l < 256 ^ n :=
  lt_of_lt_of_le (leNat_lt l.reverse) (Nat.pow_le_pow_right (by decide) (by rwa [List.length_reverse]))

/-- A tenant that a REQ names has a number of one byte. -/
theorem State.admits_lt {s : State} {src : IpAddr} {pd : List Byte} {t : Nat} (h : s.admits src pd = some t) : t < 256 := by
  unfold State.admits at h
  obtain rfl := Option.some.inj (Option.ite_none_right_eq_some.mp h).2
  exact beNat_lt (n := 1) (List.length_take_le ..)

theorem State.tenant_of_prot {a b : State} (h : b.prot = a.prot) (t : Nat) : b.tenant t = a.tenant t := by
  unfold State.tenant
  rw [h]

theorem State.tenant_setTenant_same (s : State) (t : Nat) (v : Tenant) : (s.setTenant t v).tenant t = v := NMap.getD_put_same ..

theorem State.homedQps_congr {a b : State} (hq : b.qps = a.qps) (hb : b.twinB = a.twinB) (hp : b.pair = a.pair) (t : Nat) : b.homedQps t = a.homedQps t := by
  have hqf (n w hi lo : Nat) : b.qf n w hi lo = a.qf n w hi lo := State.qf_of_qp (State.qp_of_qps hq n) ..
  unfold State.homedQps State.homeOf State.qState State.qTenant State.qHosted
  simp only [hq, hb, hp, hqf]

/-- A new context changes what the Hearth holds resident, and may raise CTX_SPILL. -/
theorem State.ctxNew_still (s : State) (n : Nat) : (s.ctxNew n).still = s.still := by
  have hspill (v : State) (b : Bool) : (if b then { v.raise 8 7 with hearth := { (v.raise 8 7).hearth with spilled := true } } else v : State).still = v.still :=
    State.still_ite ((State.still_with ..).trans (v.raise_still 8 7)) rfl
  exact (hspill _ _).trans (State.still_ite (s.still_with ..) rfl)

theorem State.ctxNew_prot (s : State) (n : Nat) : (s.ctxNew n).prot = s.prot := by
  have hspill (v : State) (b : Bool) : (if b then { v.raise 8 7 with hearth := { (v.raise 8 7).hearth with spilled := true } } else v : State).prot = v.prot := by
    split
    · exact v.raise_prot 8 7
    · rfl
  refine (hspill _ _).trans ?_
  split <;> rfl

/-- Writes of a context's fields that lie apart from one leave it. -/
theorem State.qp_foldl_setQf_other (s : State) {n j : Nat} (h : j ≠ n) (l : List (Nat × Nat × Nat × Nat)) :
    (l.foldl (fun (s : State) x => s.setQf n x.1 x.2.1 x.2.2.1 x.2.2.2) s).qp j = s.qp j :=
  List.foldlRecOn (motive := fun t : State => t.qp j = s.qp j) l _ rfl (fun t ht _ _ => (t.qp_setQf_other h ..).trans ht)

theorem State.qp_newContext_other (s : State) {n j : Nat} (h : j ≠ n) (p t m : Nat) (c : CmFrame) (r : CmReq) : (s.newContext n p t m c r).qp j = s.qp j :=
  (State.qp_foldl_setQf_other _ h _).trans (State.qp_setQp_other _ h _)

/-- The fields of a new context that name its state, tenant, host and first PSN. -/
theorem State.newContext_fields (s : State) (n p t m : Nat) (c : CmFrame) (r : CmReq) :
    (s.newContext n p t m c r).qState n = 2 ∧ (s.newContext n p t m c r).qTenant n = t % 2 ^ 8 ∧ (s.newContext n p t m c r).qf n 1 23 0 = r.hostQpn % 2 ^ 24
      ∧ (s.newContext n p t m c r).qEpsn n = r.startPsn % 2 ^ 24 := by
  unfold State.qState State.qTenant State.qEpsn State.newContext
  simp (disch := decide) only [List.foldl_cons, List.foldl_nil, State.qf_setQf_apart, State.qf_setQf_same]
  exact ⟨rfl, trivial, trivial, trivial⟩

/-- A tenant's QPs are counted, a host is known (R147, R185). -/
def State.hostKnown (s : State) (t : Nat) (a : IpAddr) : State :=
  let v := s.setTenant t { s.tenant t with qpCount := s.homedQps t }
  { v with hosts := if v.hosts.contains a then v.hosts else v.hosts ++ [a], ccx := { v.ccx with cmTimes := v.ccx.cmTimes ++ [v.mono] } }

theorem State.hostKnown_qps (s : State) (t : Nat) (a : IpAddr) : (s.hostKnown t a).qps = s.qps := rfl
theorem State.hostKnown_twinB (s : State) (t : Nat) (a : IpAddr) : (s.hostKnown t a).twinB = s.twinB := rfl
theorem State.hostKnown_pair (s : State) (t : Nat) (a : IpAddr) : (s.hostKnown t a).pair = s.pair := rfl
theorem State.hostKnown_hosts (s : State) (t : Nat) (a : IpAddr) : (s.hostKnown t a).hosts = if s.hosts.contains a then s.hosts else s.hosts ++ [a] := rfl

theorem State.qpCount_hostKnown (s : State) (t : Nat) (a : IpAddr) : ((s.hostKnown t a).tenant t).qpCount = s.homedQps t := by
  have hprot : (s.hostKnown t a).prot = (s.setTenant t { s.tenant t with qpCount := s.homedQps t }).prot := rfl
  rw [State.tenant_of_prot hprot, State.tenant_setTenant_same]

/-- The state of an accepted REQ before its REP. -/
def State.cmAdmitted (s : State) (n p t m : Nat) (c : CmFrame) (r : CmReq) : State := ((s.newContext n p t m c r).hostKnown t c.src).ctxNew n

/-- A host that is known, or for which there is room (R147). -/
theorem State.knownHost (s : State) {a : IpAddr} (h : a ∈ s.hosts ∨ s.hosts.length < 4096) : (!s.hosts.contains a && decide (4096 ≤ s.hosts.length)) = false := by
  rcases h with h | h
  · simp [h]
  · simp [Nat.not_le.mpr h]

theorem State.cmReq_admitted {s : State} {p n t m : Nat} {c : CmFrame} {r : CmReq} (hroom : s.ownedQps < 65536) (hn : s.freeQpn = some n)
    (hhost : c.src ∈ s.hosts ∨ s.hosts.length < 4096) (ht : s.admits c.src r.privData = some t) (hm : s.pathMtu p r.pmtu = some m) (hring : s.ringOk r t = true) :
    s.cmReq p c r = ((s.cmAdmitted n p t m c r).cmAnswer p c (.cmRep n m (min r.initiatorDepth 64))).stageQp n := by
  unfold State.cmReq
  rw [if_neg (by omega), hn]
  dsimp only
  rw [s.knownHost hhost, ht, hm, if_neg (by decide)]
  dsimp only
  rw [hring, if_neg (by decide)]
  rfl

/-- What stands once a REQ is accepted. -/
theorem State.cmAdmitted_fields (s : State) {n p t m : Nat} (c : CmFrame) (r : CmReq) (ht : t < 256) :
    let u := s.cmAdmitted n p t m c r
    u.qState n = 2 ∧ u.qTenant n = t ∧ u.qf n 1 23 0 = r.hostQpn % 2 ^ 24 ∧ u.qEpsn n = r.startPsn % 2 ^ 24 ∧ (u.tenant t).qpCount = u.homedQps t ∧ c.src ∈ u.hosts
      ∧ (∀ j, j ≠ n → u.qp j = s.qp j) := by
  obtain ⟨hst, hten, hhost, hpsn⟩ := s.newContext_fields n p t m c r
  intro u
  let v := s.newContext n p t m c r
  have hstill : u.still = (v.hostKnown t c.src).still := State.ctxNew_still ..
  have hqps : u.qps = v.qps := (State.qps_of_still hstill).trans (v.hostKnown_qps ..)
  have hqf (w hi lo : Nat) : u.qf n w hi lo = v.qf n w hi lo := State.qf_of_qp (State.qp_of_qps hqps n) ..
  refine ⟨(hqf ..).trans hst, (hqf ..).trans (hten.trans (Nat.mod_eq_of_lt ht)), (hqf ..).trans hhost, (hqf ..).trans hpsn, ?_, ?_, fun j hj => ?_⟩
  · have htwin : u.twinB = v.twinB := (State.twinB_of_still hstill).trans (v.hostKnown_twinB ..)
    have hpair : u.pair = v.pair := (State.pair_of_still hstill).trans (v.hostKnown_pair ..)
    have hprot : u.prot = (v.hostKnown t c.src).prot := State.ctxNew_prot ..
    rw [State.homedQps_congr hqps htwin hpair t, State.tenant_of_prot hprot, State.qpCount_hostKnown]
  · rw [State.hosts_of_still hstill, State.hostKnown_hosts]
    split
    · next h => exact List.contains_iff_mem.mp h
    · exact List.mem_append_right _ (List.mem_singleton.mpr rfl)
  · exact (State.qp_of_qps hqps j).trans (s.qp_newContext_other hj ..)

/-- A REQ and what it draws, the cases of R142, R143 and R186. -/
theorem exec_req {s w : State} {p : Nat} {c : CmFrame} {r : CmReq} (h : s.cmTaken p (fun m => match m with | .req _ => true | _ => false) c w) (hc : c.msg = .req r) :
    exec (.req p) s = .next (w.cmReq p c r).settle := by
  refine nextSettled_congr ((State.takeCm_of_taken h _).trans ?_)
  rw [hc]

theorem State.cmReq_notAdmitted {s : State} {p n : Nat} {c : CmFrame} {r : CmReq} (hroom : s.ownedQps < 65536) (hn : s.freeQpn = some n)
    (hhost : c.src ∈ s.hosts ∨ s.hosts.length < 4096) (ht : s.admits c.src r.privData = none) : s.cmReq p c r = s.cmReject p c := by
  unfold State.cmReq
  rw [if_neg (by omega), hn]
  dsimp only
  rw [s.knownHost hhost, ht, if_neg (by decide)]

/-! ### RTU, DREQ, DREP -/

theorem exec_rtu {s w : State} {p n : Nat} {c : CmFrame} (h : s.cmTaken p (fun m => match m with | .rtu _ => true | _ => false) c w) (hc : c.msg = .rtu n) :
    exec (.rtu p) s = .next (w.cmRtu n).settle := by
  refine nextSettled_congr ((State.takeCm_of_taken h _).trans ?_)
  rw [hc]

theorem exec_dreq {s w : State} {p n : Nat} {c : CmFrame} (h : s.cmTaken p (fun m => match m with | .dreq _ => true | _ => false) c w) (hc : c.msg = .dreq n) :
    exec (.dreq p) s = .next (w.cmDreq p c n).settle := by
  refine nextSettled_congr ((State.takeCm_of_taken h _).trans ?_)
  rw [hc]

theorem exec_drep {s w : State} {p n : Nat} {c : CmFrame} (h : s.cmTaken p (fun m => match m with | .drep _ => true | _ => false) c w) (hc : c.msg = .drep n) :
    exec (.drep p) s = .next (w.cmDrep n).settle := by
  refine nextSettled_congr ((State.takeCm_of_taken h _).trans ?_)
  rw [hc]

/-- RTU turns RTR into RTS (R145). -/
theorem State.cmRtu_ready {s : State} {n : Nat} (hhome : s.homeOf n = true) (hst : s.qState n = 2) :
    s.cmRtu n = (s.setQf n 0 2 0 3).stageQp n := if_pos (by rw [hhome, hst]; rfl)

theorem State.cmRtu_notReady {s : State} {n : Nat} (h : s.homeOf n = false ∨ s.qState n ≠ 2) : s.cmRtu n = s := by
  refine if_neg ?_
  rcases h with h | h
  · simp [h]
  · simp [h]

theorem State.cmDreq_connected {s : State} {p n : Nat} {c : CmFrame} (hhome : s.homeOf n = true) (hst : s.qState n = 2 ∨ s.qState n = 3) :
    s.cmDreq p c n = (s.qpError n 7).cmAnswer p c (.cmDrep n) := if_pos (by rw [hhome]; simpa using hst)

theorem State.cmDreq_inError {s : State} {p n : Nat} {c : CmFrame} (hhome : s.homeOf n = true) (hst : s.qState n = 4) :
    s.cmDreq p c n = s.cmAnswer p c (.cmDrep n) := by
  unfold State.cmDreq
  rw [hhome, hst]
  rfl

theorem State.cmDrep_inError {s : State} {n : Nat} (hhome : s.homeOf n = true) (hst : s.qState n = 4) : s.cmDrep n = s.qpReset n :=
  if_pos (by rw [hhome, hst]; rfl)

/-- 1 s in ERROR without DREP. -/
theorem State.disconnectTimeout_eq {s : State} {n t0 : Nat} (h : (s.qp n).errSince = some t0) (hst : s.qState n = 4) :
    s.disconnectTimeout n = (s.upTo (t0 + ms 1000)).qpReset n := by
  unfold State.disconnectTimeout
  rw [h]
  exact if_pos hst

/-- Settles O33. -/
theorem connectionManagement : Obligations.ConnectionManagement := by
  intro s p c w
  refine ⟨fun r h hc => ⟨fun n t m hroom hn hhost ht hm hring => ?_, fun hfull => ?_, fun n hroom hn hhost ht => ?_⟩,
    fun n h hc => ⟨fun hhome hst => ?_, fun hno => ?_⟩, fun n h hc hhome => ⟨fun hst => ?_, fun hst => ?_⟩, fun n h hc hhome hst => ?_, fun n t0 h hst => ?_⟩
  · exact ⟨w.cmAdmitted n p t m c r, (exec_req h hc).trans (nextSettled_congr (State.cmReq_admitted hroom hn hhost ht hm hring)), w.cmAdmitted_fields c r (State.admits_lt ht)⟩
  · exact (exec_req h hc).trans (nextSettled_congr (if_pos hfull))
  · exact (exec_req h hc).trans (nextSettled_congr (State.cmReq_notAdmitted hroom hn hhost ht))
  · refine ⟨(w.setQf n 0 2 0 3).stageQp n, (exec_rtu h hc).trans (nextSettled_congr (State.cmRtu_ready hhome hst)), ?_, fun j hj => ?_, ?_⟩
    · exact (State.qf_stageQp ..).trans (State.qf_setQf_same _ _ _ _ (by decide) (by decide))
    · rw [State.qp_stageQp, State.qp_setQf_other _ hj]
    · rw [State.stageQp_regs, State.setQf_regs]
  · exact (exec_rtu h hc).trans (nextSettled_congr (State.cmRtu_notReady hno))
  · exact ⟨w.qpError n 7, (exec_dreq h hc).trans (nextSettled_congr (State.cmDreq_connected hhome hst)), w.qState_qpError 7 hst, w.errCause_qpError 7 hst,
      w.sends_qpError 7 hst, w.errSince_qpError 7 hst⟩
  · exact (exec_dreq h hc).trans (nextSettled_congr (State.cmDreq_inError hhome hst))
  · exact ⟨w.qpReset n, (exec_drep h hc).trans (nextSettled_congr (State.cmDrep_inError hhome hst)), w.qp_qpReset_same n, fun j hj => w.qp_qpReset_other hj⟩
  · refine ⟨_, nextSettled_congr (State.disconnectTimeout_eq h hst), ?_, ?_, fun j hj => ?_⟩
    · rw [State.qpReset_mono, State.upTo_mono]
      rfl
    · rw [State.qp_qpReset_same, State.qpReset_mono]
    · rw [State.qp_qpReset_other _ hj, State.qp_upTo]

end Sys2Proof.Machine
end

section
/-! PROOFS. What every request packet goes through: its turn, its operations, its PSN, NAKs and RNR NAKs (R149 to R164). -/

namespace Sys2Proof.Machine

/-! ### Operations added -/

/-- The operations added from `a` to `b`: at least one, each for the QP, of the kind, class and tenant of `o`; QPs keep their engine state. -/
structure AddsLike (o : Op) (a b : State) : Prop where
  qps : b.qps = a.qps
  ops : ∃ l : List Op, l ≠ [] ∧ b.dp.ops = a.dp.ops ++ l ∧ ∀ x ∈ l, x.for_ = o.for_ ∧ x.kind = o.kind ∧ x.cls = o.cls ∧ x.tenant = o.tenant

theorem AddsLike.trans {o : Op} {a b c : State} (h : AddsLike o a b) (k : AddsLike o b c) : AddsLike o a c := by
  obtain ⟨l, hl, hops, hlike⟩ := h.ops
  obtain ⟨l', _, hops', hlike'⟩ := k.ops
  refine ⟨k.qps.trans h.qps, l ++ l', by simp [hl], by rw [hops', hops, List.append_assoc], fun x hx => ?_⟩
  rcases List.mem_append.mp hx with hx | hx
  · exact hlike x hx
  · exact hlike' x hx

theorem AddsLike.foldl {α : Type} {o : Op} {f : State → α → State} (h : ∀ s x, AddsLike o s (f s x)) (s : State) {l : List α} (hl : l ≠ []) : AddsLike o s (l.foldl f s) := by
  cases l with
  | nil => exact absurd rfl hl
  | cons x xs => exact List.foldlRecOn (motive := AddsLike o s) xs f (h s x) (fun t ht y _ => ht.trans (h t y))

theorem State.addOp_like {o x : Op} (s : State) (hf : x.for_ = o.for_) (hk : x.kind = o.kind) (hc : x.cls = o.cls) (ht : x.tenant = o.tenant) : AddsLike o s (s.addOp x) := by
  refine ⟨rfl, [{ x with id := s.dp.nextOp }], by simp, rfl, fun y hy => ?_⟩
  rw [List.mem_singleton.mp hy]
  exact ⟨hf, hk, hc, ht⟩

theorem State.addPieces_like {o x : Op} (s : State) (pool len : Nat) (d : List Byte) (hf : x.for_ = o.for_) (hk : x.kind = o.kind) (hc : x.cls = o.cls) (ht : x.tenant = o.tenant) :
    AddsLike o s (s.addPieces x pool len d) := by
  unfold State.addPieces
  extract_lets ps n
  split
  · exact s.addOp_like hf hk hc ht
  · next hne =>
    refine AddsLike.foldl (fun v i => ?_) s ?_
    · exact v.addOp_like hf hk hc ht
    · exact List.range_eq_nil.not.mpr (by simpa [n] using hne)

theorem State.readPackets_pos (s : State) (n len : Nat) : 0 < s.readPackets n len := Nat.le_max_left ..

theorem State.addRead_like (s : State) (o : Op) (pool len : Nat) (ends : Nat → Bool) : AddsLike o s (s.addRead o pool len ends) := by
  unfold State.addRead
  extract_lets n m c
  refine AddsLike.foldl (fun v j => ?_) s (List.range_eq_nil.not.mpr (Nat.ne_of_gt (s.readPackets_pos ..)))
  exact v.addPieces_like _ _ _ rfl rfl rfl rfl

/-! ### The packet begins -/

@[simp] theorem State.rxPayload_still (s : State) (p : Nat) (k : Packet) : (s.rxPayload p k).still = s.still := State.still_ite rfl (s.pmuCount_still ..)

@[simp] theorem State.msgBegins_still (s : State) (p : Nat) (f : RxFrame) (k : Packet) (ev cls len : Nat) (pool : Option Nat) :
    (s.msgBegins p f k ev cls len pool).still = s.still := by
  unfold State.msgBegins
  extract_lets n t u v fw tier w0 w1 w2 w3
  have hv : v.still = s.still := (State.still_ite rfl (u.pmuCount_still ..)).trans (s.pmuCount_still ..)
  exact State.still_ite hv ((v.smpStart_still ..).trans hv)

@[simp] theorem State.removeRx_still (s : State) (p : Nat) (f : RxFrame) : (s.removeRx p f).still = s.still := s.modPort_still ..

/-- Fields of a context that the count of a packet writes: LAST_RX_NS, PORT and the state. -/
def counted (w hi lo : Nat) : Prop := w = 14 ∨ w = 0 ∧ (lo ≤ 2 ∨ lo ≤ 22 ∧ 16 ≤ hi)

theorem State.qf_countReq (s : State) (p n : Nat) {w hi lo : Nat} (h : ¬ counted w hi lo) (hhi : hi < 64) : (s.countReq p n).qf n w hi lo = s.qf n w hi lo := by
  simp only [counted, not_or, not_and] at h
  obtain ⟨h14, h0⟩ := h
  have hport (u : State) : (u.setQf n 0 22 16 p).qf n w hi lo = u.qf n w hi lo := State.qf_setQf_apart _ _ _ (by decide) hhi (by decide) (by omega)
  have hlast (u : State) (t : Nat) : (u.setQf n 14 63 0 t).qf n w hi lo = u.qf n w hi lo := State.qf_setQf_apart _ _ _ (by decide) hhi (by decide) (.inl h14)
  unfold State.countReq
  dsimp only
  split
  · rw [State.qf_setQf_apart _ _ _ (by decide) hhi (by decide) (by omega), hport, hlast]
    exact State.qf_of_qp (State.qp_of_still (s.rdxCount_still ..) n) ..
  · rw [hport, hlast]
    exact State.qf_of_qp (State.qp_of_still (s.rdxCount_still ..) n) ..

theorem State.msg_countReq (s : State) (p n : Nat) : ((s.countReq p n).qp n).msg = (s.qp n).msg := by
  unfold State.countReq
  dsimp only
  split <;> simp only [State.qp_setQf_same, State.qp_of_still (s.rdxCount_still 0 1)]

theorem State.countReq_dp (s : State) (p n : Nat) : (s.countReq p n).dp = s.dp := by
  unfold State.countReq
  dsimp only
  split <;> rfl

theorem State.countReq_chains (s : State) (p n : Nat) : (s.countReq p n).chains = s.chains := by
  unfold State.countReq
  dsimp only
  split <;> rfl

theorem State.beginReq_dp (s : State) (p : Nat) (f : RxFrame) (k : Packet) : (s.beginReq p f k).dp = s.dp :=
  (State.dp_of_still (State.rxPayload_still ..)).trans ((State.countReq_dp ..).trans (State.dp_of_still (s.removeRx_still ..)))

theorem State.beginReq_chains (s : State) (p : Nat) (f : RxFrame) (k : Packet) : (s.beginReq p f k).chains = s.chains :=
  (State.chains_of_still (State.rxPayload_still ..)).trans ((State.countReq_chains ..).trans (State.chains_of_still (s.removeRx_still ..)))

theorem State.msg_beginReq (s : State) (p : Nat) (f : RxFrame) (k : Packet) : ((s.beginReq p f k).qp k.destQpn).msg = (s.qp k.destQpn).msg := by
  unfold State.beginReq
  rw [State.qp_modQp_same, State.qp_of_still (State.rxPayload_still ..), State.msg_countReq, State.qp_of_still (s.removeRx_still ..)]

theorem State.qf_beginReq (s : State) (p : Nat) (f : RxFrame) (k : Packet) {w hi lo : Nat} (h : ¬ counted w hi lo) (hhi : hi < 64) :
    (s.beginReq p f k).qf k.destQpn w hi lo = s.qf k.destQpn w hi lo := by
  unfold State.beginReq
  rw [State.qf_modQp _ _ rfl, State.qf_of_qp (State.qp_of_still (State.rxPayload_still ..) _), State.qf_countReq _ _ _ h hhi,
    State.qf_of_qp (State.qp_of_still (s.removeRx_still ..) _)]

theorem State.qTenant_beginReq (s : State) (p : Nat) (f : RxFrame) (k : Packet) : (s.beginReq p f k).qTenant k.destQpn = s.qTenant k.destQpn :=
  s.qf_beginReq p f k (by simp [counted]) (by decide)

theorem State.qEpsn_beginReq (s : State) (p : Nat) (f : RxFrame) (k : Packet) : (s.beginReq p f k).qEpsn k.destQpn = s.qEpsn k.destQpn :=
  s.qf_beginReq p f k (by simp [counted]) (by decide)

/-! ### Its PSN, its NAK -/

theorem State.qEpsn_lt (s : State) (n : Nat) : s.qEpsn n < 2 ^ 24 := s.qf_lt n 1 55 32

@[simp] theorem State.takePsn_dp (s : State) (n by_ : Nat) : (s.takePsn n by_).dp = s.dp := rfl

theorem State.qEpsn_takePsn (s : State) (n by_ : Nat) : (s.takePsn n by_).qEpsn n = (s.qEpsn n + by_) % 2 ^ 24 :=
  (State.qf_modQp _ _ rfl ..).trans (State.qf_setQf_same _ _ _ _ (by decide) (by decide))

theorem State.qf_takePsn (s : State) (n by_ : Nat) {w hi lo : Nat} (h : w ≠ 1) (hhi : hi < 64) : (s.takePsn n by_).qf n w hi lo = s.qf n w hi lo :=
  (State.qf_modQp _ _ rfl ..).trans (State.qf_setQf_apart _ _ _ (by decide) hhi (by decide) (.inl h))

theorem State.qp_takePsn_same (s : State) (n by_ : Nat) : ((s.takePsn n by_).qp n).msg = (s.qp n).msg ∧ ((s.takePsn n by_).qp n).ownersWritten = (s.qp n).ownersWritten := by
  unfold State.takePsn
  rw [State.qp_modQp_same, State.qp_setQf_same]
  exact ⟨rfl, rfl⟩

/-- A request is taken once its operations are there and EPSN has moved on. -/
theorem requestTaken.of_takePsn {u v : State} {n by_ : Nat} {l : List Op} (hops : v.dp.ops = u.dp.ops ++ l) (hl : l ≠ []) (hfor : ∀ o ∈ l, o.for_ = .host n)
    (hpsn : v.qEpsn n = u.qEpsn n) : requestTaken u ((v.takePsn n by_).stageQp n) n by_ l := by
  refine ⟨?_, hl, hfor, ?_⟩
  · rw [State.stageQp_dp, State.takePsn_dp, hops]
  · refine (State.qf_stageQp ..).trans ((State.qEpsn_takePsn ..).trans ?_)
    rw [hpsn]

/-- A NAK takes its place among the answers of its QP. -/
theorem State.nakReq_taken {u v : State} {p : Nat} (f : RxFrame) {k : Packet} (syn : Nat) (hdp : v.dp = u.dp) (hpsn : v.qEpsn k.destQpn = u.qEpsn k.destQpn) :
    ∃ o : Op, requestTaken u (v.nakReq p f k syn) k.destQpn 0 [o] ∧ o.kind = .nak syn ∧ o.psn = k.psn := by
  refine ⟨{ v.reqOp p f k (.nak syn) with issued := true, placed := true, id := v.dp.nextOp }, ⟨?_, by simp, ?_, ?_⟩, rfl, rfl⟩
  · exact congrArg (fun d : DataPath => d.ops ++ _) hdp
  · intro o ho
    rw [List.mem_singleton.mp ho]
    rfl
  · rw [Nat.add_zero, Nat.mod_eq_of_lt (u.qEpsn_lt _), ← hpsn]
    rfl

/-! ### Its turn -/

theorem State.ctxUse_resident {s : State} {n : Nat} (h : n ∈ s.hearth.resident) : (s.ctxUse n).1 = true := by
  unfold State.ctxUse
  rw [if_pos (by simpa using h)]

/-- A packet at its turn is judged by its command. -/
theorem State.request_new {s u : State} {p : Nat} {ok : Nat → Bool} {f : RxFrame} {k : Packet} (h : s.newRequest p ok f k u)
    (dup new_ : State → Nat → RxFrame → Packet → State) : s.request p ok dup new_ = new_ u p f k := by
  obtain ⟨hfind, hsilent, hingress, hhome, hst, hsize, hres, hkeys, rfl, hnak, hdist, _⟩ := h
  have hlive : (s.qState k.destQpn != 2 && s.qState k.destQpn != 3) = false := by
    rcases hst with h | h <;> simp [h]
  unfold State.request
  rw [hfind]
  dsimp only
  rw [hsilent, hingress, hhome, hlive, if_neg (by decide), if_neg (by decide), if_neg (by decide), if_neg (by omega), State.ctxUse_resident hres, if_neg (by decide), hkeys]
  rw [if_neg (by decide), Bool.not_true, hnak, hdist]
  rfl

theorem State.newRequest_dp {s u : State} {p : Nat} {ok : Nat → Bool} {f : RxFrame} {k : Packet} (h : s.newRequest p ok f k u) : u.dp = s.dp := by
  obtain ⟨_, _, _, _, _, _, _, _, rfl, _⟩ := h
  exact State.dp_of_still ((State.ctxHold_still ..).trans ((State.keysReady_still ..).trans (s.ctxUse_still _)))

end Sys2Proof.Machine
end

section
/-! PROOFS. READ and RDMA WRITE requests (R149 to R154, R163, R181), settling O35. -/

namespace Sys2Proof.Machine

/-! ### READ -/

/-- Responder resources a QP has taken: one more, where one more fits (R150). -/
theorem State.rdAtom_taken (s : State) {n : Nat} (h : s.rdAtomFits n = true) : (s.setQf n 2 30 24 (s.qf n 2 30 24 + 1)).qf n 2 30 24 = s.qf n 2 30 24 + 1 := by
  have hlt : s.qf n 2 30 24 < s.qf n 0 62 56 := of_decide_eq_true h
  have hdepth : s.qf n 0 62 56 < 2 ^ 7 := s.qf_lt n 0 62 56
  rw [State.qf_setQf_same _ _ _ _ (by decide) (by decide)]
  exact Nat.mod_eq_of_lt (by omega)

theorem State.readPackets_congr {a b : State} {n : Nat} (h : b.qf n 0 6 4 = a.qf n 0 6 4) (len : Nat) : b.readPackets n len = a.readPackets n len := by
  unfold State.readPackets State.qPmtu
  rw [h]

theorem State.readPackets_zero (s : State) (n : Nat) : s.readPackets n 0 = 1 := by
  have hpos : 0 < s.qPmtu n := Nat.mul_pos (by decide) (Nat.two_pow_pos _)
  have hlast : (0 + s.qPmtu n - 1) / s.qPmtu n = 0 := Nat.div_eq_of_lt (by omega)
  unfold State.readPackets divUp
  rw [hlast]
  rfl

/-- A READ that passed its checks: its operations, its resource, its PSNs. `u` is the state before the packet begins. -/
theorem State.readGoes_taken {u s : State} {p : Nat} {f : RxFrame} {k : Packet} {o : Op} (cls pool : Nat) (hfor : o.for_ = .host k.destQpn) (hkind : o.kind = .read)
    (hs : s.still = (u.beginReq p f k).still) (hfits : (u.beginReq p f k).rdAtomFits k.destQpn = true) :
    ∃ l : List Op, requestTaken u (s.readGoes p f k o cls pool) k.destQpn (u.readPackets k.destQpn k.dmaLen) l ∧ (∀ x ∈ l, x.kind = .read ∧ x.cls = o.cls)
      ∧ (s.readGoes p f k o cls pool).qf k.destQpn 2 30 24 = u.qf k.destQpn 2 30 24 + 1 := by
  let n := k.destQpn
  let v := s.msgBegins p f k 0 cls k.dmaLen (if k.dmaLen = 0 then none else some pool)
  let w := v.setQf n 2 30 24 (v.qf n 2 30 24 + 1)
  let x := w.addRead o pool k.dmaLen (fun _ => true)
  have hv : v.still = (u.beginReq p f k).still := (s.msgBegins_still ..).trans hs
  have hvf {w hi lo : Nat} (h : ¬ counted w hi lo) (hhi : hi < 64) : v.qf n w hi lo = u.qf n w hi lo :=
    (State.qf_of_qp (State.qp_of_still hv n) ..).trans (u.qf_beginReq p f k h hhi)
  have hadd := w.addRead_like o pool k.dmaLen (fun _ => true)
  have hxf (a hi lo : Nat) : x.qf n a hi lo = w.qf n a hi lo := State.qf_of_qp (State.qp_of_qps hadd.qps n) ..
  have hwf {a hi lo : Nat} (h : a ≠ 2) (hhi : hi < 64) : w.qf n a hi lo = v.qf n a hi lo := State.qf_setQf_apart _ _ _ (by decide) hhi (by decide) (.inl h)
  have hpackets : x.readPackets n k.dmaLen = u.readPackets n k.dmaLen :=
    State.readPackets_congr ((hxf ..).trans ((hwf (by decide) (by decide)).trans (hvf (by simp [counted]) (by decide)))) _
  have hpsn : x.qEpsn n = u.qEpsn n := (hxf ..).trans ((hwf (by decide) (by decide)).trans (hvf (by simp [counted]) (by decide)))
  have hfits' : v.rdAtomFits n = true := by
    unfold State.rdAtomFits
    rw [State.qf_of_qp (State.qp_of_still hv n), State.qf_of_qp (State.qp_of_still hv n)]
    exact hfits
  obtain ⟨l, hne, hops, hlike⟩ := hadd.ops
  have hdp : w.dp = u.dp := (State.dp_of_still hv).trans (u.beginReq_dp p f k)
  rw [hdp] at hops
  have ht : s.readGoes p f k o cls pool = (x.takePsn n (u.readPackets n k.dmaLen)).stageQp n := by
    rw [← hpackets]
    rfl
  rw [ht]
  refine ⟨l, .of_takePsn hops hne (fun y hy => (hlike y hy).1.trans hfor) hpsn, fun y hy => ⟨(hlike y hy).2.1.trans hkind, (hlike y hy).2.2.1⟩, ?_⟩
  rw [State.qf_stageQp, State.qf_takePsn _ _ _ (by decide) (by decide), hxf, State.rdAtom_taken v hfits', hvf (by simp [counted]) (by decide)]

/-- R149 and R150 allow the READ of packet k. -/
def State.readAllowed (s : State) (k : Packet) : Prop := (s.qp k.destQpn).msg = none ∧ k.dmaLen ≤ 2 ^ 31 ∧ k.payload = [] ∧ s.rdAtomFits k.destQpn = true

theorem State.readAllowed.passes {s : State} {k : Packet} (h : s.readAllowed k) :
    ((s.qp k.destQpn).msg.isSome || decide (2 ^ 31 < k.dmaLen) || !k.payload.isEmpty || !s.rdAtomFits k.destQpn) = false := by
  obtain ⟨hmsg, hlen, hpay, hfits⟩ := h
  rw [hmsg, hpay, hfits, decide_eq_false (by omega)]
  rfl

theorem State.newRead_noData {u : State} {p : Nat} {f : RxFrame} {k : Packet} (h : (u.beginReq p f k).readAllowed k) (hzero : k.dmaLen = 0) :
    u.newRead p f k = (u.beginReq p f k).readGoes p f k ((u.beginReq p f k).reqOp p f k .read) 3 0 := by
  unfold State.newRead
  dsimp only
  rw [h.passes, if_neg (by decide), if_pos hzero]

theorem State.newRead_keyFails {u : State} {p c : Nat} {f : RxFrame} {k : Packet} (h : (u.beginReq p f k).readAllowed k) (hpos : 0 < k.dmaLen)
    (hkey : (u.beginReq p f k).keyCheck k.rkey.toNat true (u.qTenant k.destQpn) (rightOf .read) (some (k.va, k.dmaLen)) = .error c) :
    u.newRead p f k = (u.beginReq p f k).accessNak p f k c (rkeyIndex k) := by
  unfold State.newRead
  dsimp only
  rw [h.passes, if_neg (by decide), if_neg (by omega), hkey]

theorem State.newRead_keyed {u : State} {p pool : Nat} {f : RxFrame} {k : Packet} {e : Key} (h : (u.beginReq p f k).readAllowed k) (hpos : 0 < k.dmaLen)
    (hkey : (u.beginReq p f k).keyCheck k.rkey.toNat true (u.qTenant k.destQpn) (rightOf .read) (some (k.va, k.dmaLen)) = .ok (e, pool))
    (hserved : (u.beginReq p f k).regionsServed pool k.dmaLen = true) :
    u.newRead p f k = ((u.beginReq p f k).takeHold k.destQpn (rkeyIndex k)).1.readGoes p f k
      { (u.beginReq p f k).reqOp p f k .read with cls := e.cls, stamp := some ((u.beginReq p f k).takeHold k.destQpn (rkeyIndex k)).2 } e.cls pool := by
  unfold State.newRead
  dsimp only
  rw [h.passes, if_neg (by decide), if_neg (by omega), hkey]
  dsimp only
  rw [hserved]
  rfl

theorem State.newRead_invalid {u : State} {p : Nat} {f : RxFrame} {k : Packet}
    (h : ((u.beginReq p f k).qp k.destQpn).msg.isSome = true ∨ 2 ^ 31 < k.dmaLen ∨ k.payload ≠ [] ∨ (u.beginReq p f k).rdAtomFits k.destQpn = false) :
    u.newRead p f k = (u.beginReq p f k).invalidReq p f k := by
  refine if_pos ?_
  simp only [Bool.or_eq_true, decide_eq_true_eq, Bool.not_eq_true', List.isEmpty_eq_false_iff]
  tauto

theorem exec_rdmaReadRequest {s u : State} {p : Nat} {f : RxFrame} {k : Packet} (h : s.newRequest p isRead f k u) :
    exec (.rdmaReadRequest p) s = .next (u.newRead p f k).settle := nextSettled_congr (State.request_new h ..)

/-- An invalid request draws NAK 0x61 (R149 to R151). -/
theorem State.invalidReq_taken (u : State) (p : Nat) (f : RxFrame) (k : Packet) :
    ∃ o : Op, requestTaken u ((u.beginReq p f k).invalidReq p f k) k.destQpn 0 [o] ∧ o.kind = .nak 0x61 ∧ o.psn = k.psn :=
  State.nakReq_taken f 0x61 (u.beginReq_dp p f k) (u.qEpsn_beginReq p f k)

/-- The READ requests of R149, R150, R154 and R181. -/
theorem readRequests (s u : State) (p : Nat) (f : RxFrame) (k : Packet) (h : s.newRequest p isRead f k u) :
    let n := k.destQpn
    let v := u.beginReq p f k
    ((v.qp n).msg = none → k.dmaLen ≤ 2 ^ 31 → k.payload = [] → v.rdAtomFits n = true →
      (∀ e pool, 0 < k.dmaLen → v.keyCheck k.rkey.toNat true (u.qTenant n) (rightOf .read) (some (k.va, k.dmaLen)) = .ok (e, pool) → v.regionsServed pool k.dmaLen = true →
        ∃ (t : State) (l : List Op), exec (.rdmaReadRequest p) s = .next t.settle ∧ requestTaken u t n (u.readPackets n k.dmaLen) l ∧ (∀ o ∈ l, o.kind = .read ∧ o.cls = e.cls)
          ∧ t.qf n 2 30 24 = u.qf n 2 30 24 + 1)
      ∧ (k.dmaLen = 0 →
        ∃ (t : State) (l : List Op), exec (.rdmaReadRequest p) s = .next t.settle ∧ requestTaken u t n 1 l ∧ (∀ o ∈ l, o.kind = .read) ∧ t.qf n 2 30 24 = u.qf n 2 30 24 + 1)
      ∧ (∀ c, 0 < k.dmaLen → v.keyCheck k.rkey.toNat true (u.qTenant n) (rightOf .read) (some (k.va, k.dmaLen)) = .error c →
        exec (.rdmaReadRequest p) s = .next (v.accessNak p f k c (rkeyIndex k)).settle))
    ∧ ((v.qp n).msg.isSome = true ∨ 2 ^ 31 < k.dmaLen ∨ k.payload ≠ [] ∨ v.rdAtomFits n = false →
      ∃ (t : State) (o : Op), exec (.rdmaReadRequest p) s = .next t.settle ∧ requestTaken u t n 0 [o] ∧ o.kind = .nak 0x61 ∧ o.psn = k.psn) := by
  intro n v
  have hread {t : State} (ht : u.newRead p f k = t) : exec (.rdmaReadRequest p) s = .next t.settle := (exec_rdmaReadRequest h).trans (nextSettled_congr ht)
  refine ⟨fun hmsg hlen hpay hfits => ?_, fun hinv => ?_⟩
  · have hallowed : v.readAllowed k := ⟨hmsg, hlen, hpay, hfits⟩
    refine ⟨fun e pool hpos hkey hserved => ?_, fun hzero => ?_, fun c hpos hkey => hread (State.newRead_keyFails hallowed hpos hkey)⟩
    · obtain ⟨l, htaken, hlike, hres⟩ := State.readGoes_taken (o := { v.reqOp p f k .read with cls := e.cls, stamp := some (v.takeHold n (rkeyIndex k)).2 }) e.cls pool rfl rfl (v.takeHold_still ..) hfits
      exact ⟨_, l, hread (State.newRead_keyed hallowed hpos hkey hserved), htaken, hlike, hres⟩
    · obtain ⟨l, htaken, hlike, hres⟩ := State.readGoes_taken (o := v.reqOp p f k .read) 3 0 rfl rfl rfl hfits
      rw [hzero, State.readPackets_zero] at htaken
      exact ⟨_, l, hread (State.newRead_noData hallowed hzero), htaken, fun o ho => (hlike o ho).1, hres⟩
  · obtain ⟨o, ho⟩ := u.invalidReq_taken p f k
    exact ⟨_, o, hread (State.newRead_invalid hinv), ho⟩

/-! ### RDMA WRITE -/

/-- No read of a ring's CONS is among some operations. -/
def noRing (l : List Op) : Prop := ∀ o ∈ l, ∀ n, o.for_ ≠ .ring n

theorem noRing.append {l m : List Op} (h : noRing l) (k : noRing m) : noRing (l ++ m) := fun o ho => (List.mem_append.mp ho).elim (h o) (k o)

theorem noRing.of_host {l : List Op} {n : Nat} (h : ∀ o ∈ l, o.for_ = .host n) : noRing l := fun o ho j hj => by
  rw [h o ho] at hj
  exact absurd hj nofun

theorem State.newRequest_noRing {s u : State} {p : Nat} {ok : Nat → Bool} {f : RxFrame} {k : Packet} (h : s.newRequest p ok f k u) : noRing u.dp.ops := by
  rw [State.newRequest_dp h]
  obtain ⟨_, _, _, _, _, _, _, _, _, _, _, hall⟩ := h
  intro o ho n hring
  have ho' := List.all_eq_true.mp hall o ho
  rw [hring] at ho'
  exact Bool.false_ne_true ho'

/-- A packet at its turn is judged once where no read of a ring's CONS comes of it. -/
theorem State.requestTwice_new {s u t : State} {p : Nat} {ok : Nat → Bool} {f : RxFrame} {k : Packet} (h : s.newRequest p ok f k u)
    (dup new_ : State → Nat → RxFrame → Packet → State) (ht : new_ u p f k = t) (hring : noRing t.dp.ops) : s.requestTwice p ok dup new_ = t := by
  unfold State.requestTwice
  dsimp only
  rw [State.request_new h, ht]
  refine if_neg (fun hany => ?_)
  obtain ⟨o, ho, hfor⟩ := List.any_eq_true.mp hany
  split at hfor
  · next n hk => exact hring o ho n hk
  · exact Bool.false_ne_true hfor

theorem requestTaken.noRing {u t : State} {n by_ : Nat} {l : List Op} (h : requestTaken u t n by_ l) (hu : noRing u.dp.ops) : noRing t.dp.ops := by
  obtain ⟨hops, _, hfor, _⟩ := h
  rw [hops]
  exact hu.append (.of_host hfor)

@[simp] theorem State.doneRx_still (s : State) (p : Nat) (f : RxFrame) : (s.doneRx p f).still = s.still := (State.consumeRx_still ..).trans (s.removeRx_still ..)

@[simp] theorem State.discardRx_still (s : State) (n : Nat) : (s.discardRx n).still = s.still :=
  (State.foldl_still (fun u _ => State.foldl_still (fun v _ => v.doneRx_still ..) u _) _ _).trans (s.ctxHold_still ..)

/-- An RNR NAK adds its operation alone. -/
theorem State.rnrReq_ops (s : State) (p : Nat) (f : RxFrame) (k : Packet) (c : Rnr) :
    ∃ o : Op, o.for_ = .host k.destQpn ∧ (s.rnrReq p f k c).dp.ops = s.dp.ops ++ [o] := by
  have hdp : (((s.rnrCount c).discardRx k.destQpn).smpDiscard k.destQpn k.psn).dp = s.dp :=
    State.dp_of_still ((State.smpDiscard_still ..).trans ((State.discardRx_still ..).trans (s.rnrCount_still c)))
  exact ⟨_, rfl, congrArg (fun d : DataPath => d.ops ++ _) hdp⟩

theorem State.rnrReq_noRing {s : State} (p : Nat) (f : RxFrame) (k : Packet) (c : Rnr) (h : noRing s.dp.ops) : noRing (s.rnrReq p f k c).dp.ops := by
  obtain ⟨o, hfor, hops⟩ := s.rnrReq_ops p f k c
  rw [hops]
  exact h.append (.of_host (n := k.destQpn) (fun x hx => by rw [List.mem_singleton.mp hx, hfor]))

/-- An Only packet of a WRITE, without immediate, that fits the path MTU, is a whole WRITE. -/
theorem State.newWrite_only {u : State} {p : Nat} {f : RxFrame} {k : Packet} (hop : k.opcode = 0x0A) (hmsg : (u.qp k.destQpn).msg = none) (hsize : k.payload.length ≤ u.qPmtu k.destQpn) :
    u.newWrite p f k = u.writeFirst p f k := by
  have hpart : u.partOk k .write = true := by
    unfold State.partOk
    simp only [hop, hmsg, isOnly, isFirst, isMiddle, isLast, partOf]
    simpa using hsize
  unfold State.newWrite
  rw [hpart, hmsg, if_neg (by decide)]

theorem State.writeFirst_badLength {u : State} {p : Nat} {f : RxFrame} {k : Packet} (hop : k.opcode = 0x0A) (hlen : k.payload.length ≠ k.dmaLen) :
    u.writeFirst p f k = (u.beginReq p f k).invalidReq p f k := by
  refine if_pos ?_
  simp [hop, isOnly, partOf, hlen]

theorem State.withSink_noImm (s : State) (p : Nat) (f : RxFrame) {k : Packet} (go : State → Option (Nat × Nat) → State) (h : hasImm k.opcode = false) :
    s.withSink p f k go = go (s.beginReq p f k) none := by
  unfold State.withSink State.immSink
  dsimp only
  rw [h]
  rfl

/-- The state in which the lines of a whole WRITE are placed, and its stamp: it is counted, its bytes are reserved, it holds its key's entry (R163, R184). -/
def State.writeHeld (u : State) (p : Nat) (f : RxFrame) (k : Packet) (cls pool : Nat) : State × Nat :=
  (((u.beginReq p f k).msgBegins p f k 1 cls k.dmaLen (some pool)).reserve (u.qTenant k.destQpn) pool k.dmaLen).takeHold k.destQpn (rkeyIndex k)

theorem State.writeHeld_still (u : State) (p : Nat) (f : RxFrame) (k : Packet) (cls pool : Nat) : (u.writeHeld p f k cls pool).1.still = (u.beginReq p f k).still :=
  (State.takeHold_still ..).trans ((State.reserve_still ..).trans (State.msgBegins_still ..))

/-- An Only packet of a WRITE, without immediate, as long as its RETH says. -/
structure WholeWrite (k : Packet) : Prop where
  only : isOnly k.opcode = true
  noImm : hasImm k.opcode = false
  data : 0 < k.dmaLen
  max : k.dmaLen ≤ 2 ^ 31
  length : k.payload.length = k.dmaLen

theorem WholeWrite.passes {k : Packet} (h : WholeWrite k) :
    (decide (2 ^ 31 < k.dmaLen) || (if isOnly k.opcode then k.payload.length != k.dmaLen else decide (k.dmaLen ≤ k.payload.length))) = false := by
  rw [decide_eq_false (Nat.not_lt.mpr h.max), h.only, h.length]
  simp

theorem State.sinkNak_noImm (s : State) {k : Packet} (h : hasImm k.opcode = false) : s.sinkNak k = none := by
  unfold State.sinkNak
  dsimp only
  rw [h]
  rfl

/-- A whole WRITE that passes its key check and is not admitted (R160, R183). -/
theorem State.writeFirst_refused {u : State} {p pool : Nat} {f : RxFrame} {k : Packet} {e : Key} {c : Rnr} (h : WholeWrite k)
    (hkey : u.keyCheck k.rkey.toNat true (u.qTenant k.destQpn) (rightOf .write) (some (k.va, k.dmaLen)) = .ok (e, pool))
    (hc : u.admitWrite (u.qTenant k.destQpn) pool k.dmaLen k.dmaLen = some c) : u.writeFirst p f k = (u.beginReq p f k).rnrReq p f k c := by
  unfold State.writeFirst
  dsimp only
  rw [h.passes, if_neg (by decide), if_neg (Nat.ne_of_gt h.data), hkey]
  dsimp only
  rw [u.sinkNak_noImm h.noImm, if_neg (by decide), hc]

/-- A whole WRITE that passes its key check and is admitted (R149, R163). -/
theorem State.writeFirst_admitted {u : State} {p pool : Nat} {f : RxFrame} {k : Packet} {e : Key} (h : WholeWrite k)
    (hkey : u.keyCheck k.rkey.toNat true (u.qTenant k.destQpn) (rightOf .write) (some (k.va, k.dmaLen)) = .ok (e, pool))
    (hc : u.admitWrite (u.qTenant k.destQpn) pool k.dmaLen k.dmaLen = none) :
    u.writeFirst p f k = (((u.writeHeld p f k e.cls pool).1.writePacket p f k e.cls (u.qTenant k.destQpn) pool (some (u.writeHeld p f k e.cls pool).2) true none).takePsn
      k.destQpn 1).stageQp k.destQpn := by
  unfold State.writeFirst
  dsimp only
  rw [h.passes, if_neg (by decide), if_neg (Nat.ne_of_gt h.data), hkey]
  dsimp only
  rw [u.sinkNak_noImm h.noImm, if_neg (by decide), hc]
  dsimp only
  rw [State.withSink_noImm _ _ _ _ h.noImm, h.only, if_pos rfl]
  rfl

/-- The lines of a WRITE packet become write operations, and the QP has written with its regions' owners (R149). -/
theorem State.writePacket_like (s : State) (p : Nat) (f : RxFrame) {k : Packet} (cls t pool : Nat) (st : Option Nat) (h : k.payload.length ≠ 0) :
    AddsLike { s.reqOp p f k .write with cls := cls, tenant := t } (s.modQp k.destQpn (fun q => { q with ownersWritten := true })) (s.writePacket p f k cls t pool st true none) := by
  unfold State.writePacket
  dsimp only
  rw [if_neg h]
  exact State.addPieces_like _ _ _ _ rfl rfl rfl rfl

/-- A whole WRITE becomes write operations on its range and takes one PSN. -/
theorem State.wholeWrite_taken {u : State} {p : Nat} {f : RxFrame} {k : Packet} (cls pool : Nat) (st : Option Nat) (h : WholeWrite k) :
    let t := (((u.writeHeld p f k cls pool).1.writePacket p f k cls (u.qTenant k.destQpn) pool st true none).takePsn k.destQpn 1).stageQp k.destQpn
    ∃ l : List Op, requestTaken u t k.destQpn 1 l ∧ (∀ o ∈ l, o.kind = .write ∧ o.cls = cls ∧ o.tenant = u.qTenant k.destQpn)
      ∧ (t.qp k.destQpn).ownersWritten = true ∧ (t.qp k.destQpn).msg = (u.qp k.destQpn).msg := by
  intro t
  let v := (u.writeHeld p f k cls pool).1
  have hv : v.still = (u.beginReq p f k).still := u.writeHeld_still ..
  have hadd := v.writePacket_like p f cls (u.qTenant k.destQpn) pool st (Nat.ne_of_gt (h.length ▸ h.data))
  generalize hx : v.writePacket p f k cls (u.qTenant k.destQpn) pool st true none = x at hadd
  have ht : t = (x.takePsn k.destQpn 1).stageQp k.destQpn := by rw [← hx]
  have hqp : x.qp k.destQpn = { (u.beginReq p f k).qp k.destQpn with ownersWritten := true } := by
    rw [State.qp_of_qps hadd.qps, State.qp_modQp_same, State.qp_of_still hv]
  obtain ⟨l, hne, hops, hlike⟩ := hadd.ops
  have hdp : (v.modQp k.destQpn (fun q => { q with ownersWritten := true })).dp = u.dp := (State.dp_of_still hv).trans (u.beginReq_dp p f k)
  rw [hdp] at hops
  have hpsn : x.qEpsn k.destQpn = u.qEpsn k.destQpn := by
    refine (State.qf_of_words ?_ 1 55 32).trans (u.qEpsn_beginReq p f k)
    rw [hqp]
  obtain ⟨hmsg, howners⟩ := x.qp_takePsn_same k.destQpn 1
  rw [ht, State.qp_stageQp, hmsg, howners, hqp]
  exact ⟨l, .of_takePsn hops hne (fun o ho => (hlike o ho).1) hpsn, fun o ho => (hlike o ho).2, rfl, u.msg_beginReq p f k⟩

/-- Settles O35. -/
theorem readAndWriteRequests : Obligations.ReadAndWriteRequests := by
  refine ⟨readRequests, ?_⟩
  intro s u p f k h hop hmsg hsize n
  have hring := State.newRequest_noRing h
  have hexec {t : State} (ht : u.writeFirst p f k = t) (hr : noRing t.dp.ops) : exec (.rdmaWrite p) s = .next t.settle :=
    nextSettled_congr (State.requestTwice_new h _ _ ((State.newWrite_only hop hmsg hsize).trans ht) hr)
  refine ⟨fun e pool hpos hmax hlen hkey => ?_, fun hlen => ?_⟩
  · have hwhole : WholeWrite k := ⟨by rw [hop]; decide, by rw [hop]; decide, hpos, hmax, hlen⟩
    refine ⟨fun hnone => ?_, fun c hc => hexec (State.writeFirst_refused hwhole hkey hc) ?_⟩
    · obtain ⟨l, htaken, hlike, howners, hmsg'⟩ := State.wholeWrite_taken (u := u) (p := p) (f := f) e.cls pool (some (u.writeHeld p f k e.cls pool).2) hwhole
      exact ⟨_, l, hexec (State.writeFirst_admitted hwhole hkey hnone) (htaken.noRing hring), htaken, hlike, howners, hmsg'.trans hmsg⟩
    · refine State.rnrReq_noRing p f k c ?_
      rw [u.beginReq_dp p f k]
      exact hring
  · obtain ⟨o, htaken, ho⟩ := u.invalidReq_taken p f k
    exact ⟨_, o, hexec (State.writeFirst_badLength hop hlen) (htaken.noRing hring), htaken, ho⟩

end Sys2Proof.Machine
end

section
/-! PROOFS. Atomics, ATOMIC WRITE and FLUSH; the entry and the run of a trigger chain; a SEND that fires one (R149 to R156, R182, R202 to R204), settling
O36. -/

namespace Sys2Proof.Machine

/-! ### Atomics, ATOMIC WRITE, FLUSH -/

/-- The operation of an atomic or ATOMIC WRITE that passed its checks. -/
def State.atomicOp (s : State) (p : Nat) (f : RxFrame) (k : Packet) (kind : OpKind) (cls pool st : Nat) : Op :=
  { s.reqOp p f k kind with cls := cls, pool := pool, len := 8, data := k.payload, cmp := k.compare, swap := k.swapAdd, stamp := some st }

/-- An atomic that passed its checks is counted, reserves 64 bytes with the owner, holds its key's entry (R163, R183, R184). -/
def State.atomicHeld (s : State) (p : Nat) (f : RxFrame) (k : Packet) (ev cls pool t : Nat) : State × Nat :=
  ((s.msgBegins p f k ev cls 8 (some pool)).reserveAt t pool 64).takeHold k.destQpn (rkeyIndex k)

theorem State.atomicHeld_still (s : State) (p : Nat) (f : RxFrame) (k : Packet) (ev cls pool t : Nat) : (s.atomicHeld p f k ev cls pool t).1.still = s.still :=
  (State.takeHold_still ..).trans ((State.reserveAt_still ..).trans (State.msgBegins_still ..))

/-- A responder resource is taken, but by an ATOMIC WRITE; the QP has written with the region's owner. -/
def State.atomicTaken (s : State) (n : Nat) (isWrite : Bool) : State :=
  (if isWrite then s else s.setQf n 2 30 24 (s.qf n 2 30 24 + 1)).modQp n (fun q => { q with ownersWritten := true })

theorem State.newAtomic_valid {u : State} {p pool ev : Nat} {f : RxFrame} {k : Packet} {kind : OpKind} {e : Key} (hmsg : ((u.beginReq p f k).qp k.destQpn).msg = none)
    (hva : k.va % 8 = 0) (hlen : k.dmaLen ≤ 2 ^ 31) (hpay : k.payload.length = if kind == .atomicWrite then 8 else 0)
    (hfits : kind ≠ .atomicWrite → (u.beginReq p f k).rdAtomFits k.destQpn = true)
    (hkey : (u.beginReq p f k).keyCheck k.rkey.toNat true (u.qTenant k.destQpn) (rightOf kind) (some (k.va, 8)) = .ok (e, pool)) (hpool : pool % 8 = 0)
    (hadmit : (u.beginReq p f k).admitWrite (u.qTenant k.destQpn) pool 8 64 = none) :
    let h := (u.beginReq p f k).atomicHeld p f k ev e.cls pool (u.qTenant k.destQpn)
    let v := h.1.atomicTaken k.destQpn (kind == .atomicWrite)
    u.newAtomic p f k kind ev = ((v.addOp (v.atomicOp p f k kind e.cls pool h.2)).takePsn k.destQpn 1).stageQp k.destQpn := by
  have hguard : (((u.beginReq p f k).qp k.destQpn).msg.isSome || k.va % 8 != 0 || k.payload.length != (if kind == .atomicWrite then 8 else 0) || decide (2 ^ 31 < k.dmaLen)
      || (!(kind == .atomicWrite) && !(u.beginReq p f k).rdAtomFits k.destQpn)) = false := by
    rw [hmsg, hva, hpay, decide_eq_false (by omega)]
    by_cases hk : kind = .atomicWrite
    · simp [hk]
    · simp [hfits hk]
  unfold State.newAtomic
  dsimp only
  rw [hguard, if_neg (by decide), hkey]
  dsimp only
  rw [if_neg (by omega), hadmit]
  rfl

/-- An atomic or ATOMIC WRITE that passed its checks becomes one operation and takes one PSN. -/
theorem State.atomic_taken {u s : State} {p : Nat} {f : RxFrame} {k : Packet} (kind : OpKind) (cls pool st : Nat) (hs : s.still = (u.beginReq p f k).still)
    (hfits : kind ≠ .atomicWrite → (u.beginReq p f k).rdAtomFits k.destQpn = true) :
    let v := s.atomicTaken k.destQpn (kind == .atomicWrite)
    let t := ((v.addOp (v.atomicOp p f k kind cls pool st)).takePsn k.destQpn 1).stageQp k.destQpn
    ∃ o : Op, requestTaken u t k.destQpn 1 [o] ∧ o.kind = kind ∧ o.pool = pool ∧ o.len = 8 ∧ o.data = k.payload ∧ o.cmp = k.compare ∧ o.swap = k.swapAdd ∧ o.cls = cls
      ∧ t.qf k.destQpn 2 30 24 = u.qf k.destQpn 2 30 24 + (if kind = .atomicWrite then 0 else 1) := by
  intro v t
  have hused : s.qf k.destQpn 2 30 24 = u.qf k.destQpn 2 30 24 :=
    (State.qf_of_qp (State.qp_of_still hs _) ..).trans (u.qf_beginReq p f k (by simp [counted]) (by decide))
  have hepsn : s.qEpsn k.destQpn = u.qEpsn k.destQpn := (State.qf_of_qp (State.qp_of_still hs _) ..).trans (u.qEpsn_beginReq p f k)
  have hdp : v.dp = u.dp := by
    refine Eq.trans ?_ ((State.dp_of_still hs).trans (u.beginReq_dp p f k))
    unfold v State.atomicTaken
    split <;> rfl
  have hpsn : v.qEpsn k.destQpn = u.qEpsn k.destQpn := by
    refine (State.qf_modQp _ _ rfl ..).trans (Eq.trans ?_ hepsn)
    split
    · rfl
    · exact State.qf_setQf_apart _ _ _ (by decide) (by decide) (by decide) (by decide)
  refine ⟨{ v.atomicOp p f k kind cls pool st with id := v.dp.nextOp }, .of_takePsn (v := v.addOp (v.atomicOp p f k kind cls pool st)) ?_ (by simp) ?_ hpsn, rfl, rfl, rfl, rfl, rfl, rfl, rfl, ?_⟩
  · exact congrArg (fun d : DataPath => d.ops ++ _) hdp
  · intro o ho
    rw [List.mem_singleton.mp ho]
    rfl
  · have hadd : (v.addOp (v.atomicOp p f k kind cls pool st)).qf k.destQpn 2 30 24 = v.qf k.destQpn 2 30 24 := State.qf_of_qp (State.qp_of_qps rfl _) ..
    rw [State.qf_stageQp, State.qf_takePsn _ _ _ (by decide) (by decide), hadd]
    refine (State.qf_modQp _ _ rfl ..).trans ?_
    by_cases hk : kind = .atomicWrite
    · rw [if_pos (by simp [hk]), if_pos hk]
      exact hused
    · have hfits' : s.rdAtomFits k.destQpn = true := by
        unfold State.rdAtomFits
        rw [State.qf_of_qp (State.qp_of_still hs _), State.qf_of_qp (State.qp_of_still hs _)]
        exact hfits hk
      rw [if_neg (by simpa using hk), if_neg hk, State.rdAtom_taken s hfits', hused]

theorem State.newFlush_keyed {u : State} {p x : Nat} {f : RxFrame} {k : Packet} {e : Key} (hmsg : ((u.beginReq p f k).qp k.destQpn).msg = none) (hpay : k.payload = [])
    (hlen : k.dmaLen ≤ 2 ^ 31) (hkey : (u.beginReq p f k).keyCheck k.rkey.toNat true (u.qTenant k.destQpn) (rightOf (.flush true)) none = .ok (e, x)) :
    let v := (u.beginReq p f k).msgBegins p f k 4 e.cls 0 none
    u.newFlush p f k = ((v.addOp { v.reqOp p f k (.flush k.flushPersist) with cls := e.cls }).takePsn k.destQpn 1).stageQp k.destQpn := by
  unfold State.newFlush
  dsimp only
  rw [hmsg, hpay, decide_eq_false (by omega), if_neg (by decide), u.qTenant_beginReq p f k, hkey]

/-- A FLUSH that passed its checks becomes one operation and takes one PSN. -/
theorem State.flush_taken (u : State) (p : Nat) (f : RxFrame) (k : Packet) (cls : Nat) :
    let v := (u.beginReq p f k).msgBegins p f k 4 cls 0 none
    ∃ o : Op, requestTaken u (((v.addOp { v.reqOp p f k (.flush k.flushPersist) with cls := cls }).takePsn k.destQpn 1).stageQp k.destQpn) k.destQpn 1 [o]
      ∧ o.kind = .flush k.flushPersist ∧ o.cls = cls := by
  intro v
  have hv : v.still = (u.beginReq p f k).still := State.msgBegins_still ..
  have hdp : v.dp = u.dp := (State.dp_of_still hv).trans (u.beginReq_dp p f k)
  have hpsn : v.qEpsn k.destQpn = u.qEpsn k.destQpn := (State.qf_of_qp (State.qp_of_still hv _) ..).trans (u.qEpsn_beginReq p f k)
  refine ⟨{ v.reqOp p f k (.flush k.flushPersist) with cls := cls, id := v.dp.nextOp },
    .of_takePsn (v := v.addOp { v.reqOp p f k (.flush k.flushPersist) with cls := cls }) ?_ (by simp) ?_ hpsn, rfl, rfl⟩
  · exact congrArg (fun d : DataPath => d.ops ++ _) hdp
  · intro o ho
    rw [List.mem_singleton.mp ho]
    rfl

end Sys2Proof.Machine
end

section
/-! PROOFS. The entry and the run of a trigger chain, and a SEND that fires one (R151, R199 to R204), settling O36. -/

namespace Sys2Proof.Machine

/-! ### Items of lists -/

theorem length_setNth {α : Type} (l : List α) (i : Nat) (v : α) : (setNth l i v).length = l.length := by
  induction l generalizing i with
  | nil => rfl
  | cons x xs ih =>
    cases i with
    | zero => rfl
    | succ i => exact congrArg (· + 1) (ih i)

theorem nth_setNth_same {α : Type} (d : α) {l : List α} {i : Nat} (v : α) (h : i < l.length) : nth d (setNth l i v) i = v := by
  induction l generalizing i with
  | nil => exact absurd h (Nat.not_lt_zero _)
  | cons x xs ih =>
    cases i with
    | zero => rfl
    | succ i => exact ih (Nat.lt_of_succ_lt_succ h)

theorem nth_setNth_other {α : Type} (d : α) (l : List α) {i j : Nat} (v : α) (h : j ≠ i) : nth d (setNth l i v) j = nth d l j := by
  induction l generalizing i j with
  | nil => rfl
  | cons x xs ih =>
    cases i with
    | zero =>
      cases j with
      | zero => exact absurd rfl h
      | succ j => rfl
    | succ i =>
      cases j with
      | zero => rfl
      | succ j => exact ih (fun he => h (congrArg (· + 1) he))

/-! ### Entries and runs -/

theorem State.chain_of_chains {a b : State} (h : b.chains.chains = a.chains.chains) (i : Nat) : b.chain i = a.chain i := by
  unfold State.chain
  rw [h]

theorem State.cf_of_chains {a b : State} (h : b.chains.chains = a.chains.chains) (i w hi lo : Nat) : b.cf i w hi lo = a.cf i w hi lo := by
  unfold State.cf
  rw [State.chain_of_chains h]

theorem State.chain_setCf (s : State) (i w hi lo v : Nat) : (s.setCf i w hi lo v).chain i = setNth (s.chain i) w (setBits (wordAt (s.chain i) w) hi lo v) :=
  NMap.getD_put_same ..

@[simp] theorem State.length_setCf (s : State) (i w hi lo v : Nat) : ((s.setCf i w hi lo v).chain i).length = (s.chain i).length := by
  rw [State.chain_setCf, length_setNth]

/-- A field of a chain's entry reads what was written to it, cut to its width. -/
theorem State.cf_setCf_same (s : State) (i : Nat) {w hi lo : Nat} (v : Nat) (h : hi < 64) (hl : lo ≤ hi) (hw : w < (s.chain i).length) :
    (s.setCf i w hi lo v).cf i w hi lo = v % 2 ^ (hi + 1 - lo) := by
  unfold State.cf wordAt
  rw [State.chain_setCf, nth_setNth_same _ _ hw, bits_setBits_same _ h hl]

/-- A write of a field of a chain's entry leaves the fields of other words and the other fields of its word. -/
theorem State.cf_setCf_apart (s : State) (i : Nat) {w w' hi lo hi' lo' : Nat} (v : Nat) (h : hi < 64) (h' : hi' < 64) (hl : lo ≤ hi) (hd : w' ≠ w ∨ hi' < lo ∨ hi < lo')
    (hw : w < (s.chain i).length) : (s.setCf i w hi lo v).cf i w' hi' lo' = s.cf i w' hi' lo' := by
  unfold State.cf wordAt
  rw [State.chain_setCf]
  by_cases hj : w' = w
  · subst hj
    rw [nth_setNth_same _ _ hw, bits_setBits_other _ h h' hl (hd.resolve_left (fun k => k rfl))]
    rfl
  · rw [nth_setNth_other _ _ _ hj]

theorem State.run_setRun_same (s : State) (i : Nat) (r : Run) : (s.setRun i r).run i = r := NMap.getD_put_same ..

theorem State.setCf_dp (s : State) (i w hi lo v : Nat) : (s.setCf i w hi lo v).dp = s.dp := rfl
theorem State.setCf_qps (s : State) (i w hi lo v : Nat) : (s.setCf i w hi lo v).qps = s.qps := rfl
theorem State.setRun_dp (s : State) (i : Nat) (r : Run) : (s.setRun i r).dp = s.dp := rfl
theorem State.setRun_qps (s : State) (i : Nat) (r : Run) : (s.setRun i r).qps = s.qps := rfl
theorem State.setRun_chains (s : State) (i : Nat) (r : Run) : (s.setRun i r).chains.chains = s.chains.chains := rfl

/-! ### The chain fired -/

/-- The entry of a chain that fires: RUNNING at step 0, FIRE_SEQ one higher, the message's parameters (R200, R204). -/
def State.fired (s : State) (i p0 p1 p2 len : Nat) : State :=
  let s := (s.setCf i 0 2 0 2).setCf i 3 31 0 (s.cf i 3 31 0 + 1)
  let s := (((s.setCf i 3 35 32 0).setCf i 4 63 0 p0).setCf i 5 63 0 p1).setCf i 6 63 0 p2
  s.setCf i 7 16 0 len

theorem State.fired_fields (s : State) {i p0 p1 p2 : Nat} (len : Nat) (h : (s.chain i).length = 8) (h0 : p0 < 2 ^ 64) (h1 : p1 < 2 ^ 64) (h2 : p2 < 2 ^ 64) :
    let t := s.fired i p0 p1 p2 len
    t.cf i 0 2 0 = 2 ∧ t.curStep i = 0 ∧ t.cf i 3 31 0 = (s.cf i 3 31 0 + 1) % 2 ^ 32 ∧ t.cf i 4 63 0 = p0 ∧ t.cf i 5 63 0 = p1 ∧ t.cf i 6 63 0 = p2 := by
  intro t
  unfold t State.curStep State.fired
  simp (disch := simp [h]) only [State.cf_setCf_apart, State.cf_setCf_same]
  exact ⟨rfl, rfl, trivial, Nat.mod_eq_of_lt h0, Nat.mod_eq_of_lt h1, Nat.mod_eq_of_lt h2⟩

/-! ### The message captured -/

/-- The Only packet of an arming message is captured: its operation, and its run is ready. -/
theorem State.armPacket_only (s : State) (p : Nat) (f : RxFrame) (k : Packet) (i : Nat) :
    ∃ o : Op, o.for_ = .host k.destQpn ∧ o.kind = .arm i ∧ (s.armPacket p f k i true).dp.ops = s.dp.ops ++ [o] ∧ (s.armPacket p f k i true).qps = s.qps
      ∧ (s.armPacket p f k i true).chains.chains = s.chains.chains ∧ ((s.armPacket p f k i true).run i).data = (s.run i).data ∧ ((s.armPacket p f k i true).run i).ready = true := by
  unfold State.armPacket
  extract_lets r u now id src v r'
  rw [if_pos rfl, State.run_setRun_same]
  have hdata : (u.run i).data = (s.run i).data := by rw [State.run_setRun_same]
  exact ⟨_, rfl, rfl, rfl, rfl, rfl, hdata, rfl⟩

theorem State.stageData_dp (s : State) (i off : Nat) (d : List Byte) : (s.stageData i off d).dp = s.dp := by
  unfold State.stageData State.stageChain
  dsimp only
  split
  · exact s.stage_dp _
  · exact (State.stage_dp ..).trans (s.stage_dp _)

theorem State.stageData_qps (s : State) (i off : Nat) (d : List Byte) : (s.stageData i off d).qps = s.qps := by
  unfold State.stageData State.stageChain
  dsimp only
  split
  · exact s.stage_qps _
  · exact (State.stage_qps ..).trans (s.stage_qps _)

theorem State.stageData_chains (s : State) (i off : Nat) (d : List Byte) : (s.stageData i off d).chains = s.chains := by
  unfold State.stageData State.stageChain
  dsimp only
  split
  · exact s.stage_chains _
  · exact (State.stage_chains ..).trans (s.stage_chains _)

/-- The message that fires a chain is counted and the chain's bytes are reserved (R204). -/
def State.armBegun (s : State) (p : Nat) (f : RxFrame) (k : Packet) (t need : Nat) : State :=
  let s := s.msgBegins p f k 3 3 k.payload.length none
  (s.wr TIR_DIRTY_RESERVED_BYTES (s.rd TIR_DIRTY_RESERVED_BYTES + need)).addWused t need 0

theorem State.armBegun_still (s : State) (p : Nat) (f : RxFrame) (k : Packet) (t need : Nat) : (s.armBegun p f k t need).still = s.still :=
  (State.setTenant_still ..).trans ((State.wr_still ..).trans (s.msgBegins_still ..))

/-- The chain fired runs with the message's data, kept until its Last has come. -/
def State.armRuns (s : State) (k : Packet) (i need : Nat) : State :=
  let be (o l : Nat) : Nat := beNat ((k.payload.drop o).take l)
  ((s.fired i (be 8 8) (be 16 8) (be 24 8) (k.payload.drop 32).length).satInc TRG_COUNTS_FIRES 1).setRun i { data := k.payload.drop 32, reserve := need }

theorem State.fired_dp (s : State) (i p0 p1 p2 len : Nat) : (s.fired i p0 p1 p2 len).dp = s.dp := by
  unfold State.fired
  simp only [State.setCf_dp]

theorem State.fired_qps (s : State) (i p0 p1 p2 len : Nat) : (s.fired i p0 p1 p2 len).qps = s.qps := by
  unfold State.fired
  simp only [State.setCf_qps]

theorem State.armRuns_dp (s : State) (k : Packet) (i need : Nat) : (s.armRuns k i need).dp = s.dp := by
  unfold State.armRuns
  dsimp only
  rw [State.setRun_dp, State.satInc_dp, State.fired_dp]

theorem State.armRuns_qps (s : State) (k : Packet) (i need : Nat) : (s.armRuns k i need).qps = s.qps := by
  unfold State.armRuns
  dsimp only
  rw [State.setRun_qps, State.satInc_qps, State.fired_qps]

theorem State.run_armRuns (s : State) (k : Packet) (i need : Nat) : (s.armRuns k i need).run i = { data := k.payload.drop 32, reserve := need } := State.run_setRun_same ..

theorem State.armRuns_chains (s : State) (k : Packet) (i need : Nat) : (s.armRuns k i need).chains.chains
    = (s.fired i (beNat ((k.payload.drop 8).take 8)) (beNat ((k.payload.drop 16).take 8)) (beNat ((k.payload.drop 24).take 8)) (k.payload.drop 32).length).chains.chains := by
  unfold State.armRuns
  dsimp only
  rw [State.setRun_chains, State.satInc_chains]

theorem State.armFirst_fires {u : State} {p i : Nat} {f : RxFrame} {k : Packet} (honly : isOnly k.opcode = true) (hhead : armHeaderOk k.payload = true)
    (hmatch : (u.beginReq p f k).matchChain k.destQpn (beNat ((k.payload.drop 4).take 4)) = some i)
    (hadmit : (u.beginReq p f k).chainRefused (u.qTenant k.destQpn) ((u.beginReq p f k).chainNeed i (beNat ((k.payload.drop 24).take 8))) = none) :
    let need := (u.beginReq p f k).chainNeed i (beNat ((k.payload.drop 24).take 8))
    let v := ((u.beginReq p f k).armBegun p f k (u.qTenant k.destQpn) need).armRuns k i need
    u.armFirst p f k = (((v.armPacket p f k i true).stageData i 0 (k.payload.drop 32)).takePsn k.destQpn 1).stageQp k.destQpn := by
  unfold State.armFirst
  dsimp only
  rw [hhead, if_neg (by decide), hmatch]
  dsimp only
  rw [hadmit, honly, if_pos rfl]
  rfl

/-- The SEND that fires a chain: its operation, one PSN, the chain's entry and run. -/
theorem State.arm_taken {u s : State} {p i : Nat} {f : RxFrame} {k : Packet} (need : Nat) (hs : s.still = (u.beginReq p f k).still) (hlen : ((u.beginReq p f k).chain i).length = 8) :
    let be (o l : Nat) : Nat := beNat ((k.payload.drop o).take l)
    let t := ((((s.armRuns k i need).armPacket p f k i true).stageData i 0 (k.payload.drop 32)).takePsn k.destQpn 1).stageQp k.destQpn
    ∃ o : Op, requestTaken u t k.destQpn 1 [o] ∧ o.kind = .arm i ∧ t.cf i 0 2 0 = 2 ∧ t.curStep i = 0
        ∧ t.cf i 3 31 0 = (u.cf i 3 31 0 + 1) % 2 ^ 32 ∧ t.cf i 4 63 0 = be 8 8 ∧ t.cf i 5 63 0 = be 16 8 ∧ t.cf i 6 63 0 = be 24 8 ∧ (t.run i).data = k.payload.drop 32 ∧ (t.run i).ready = true := by
  intro be t
  obtain ⟨o, hfor, hkind, hops, hqps, hchains, hdata, hready⟩ := (s.armRuns k i need).armPacket_only p f k i
  generalize hw : (s.armRuns k i need).armPacket p f k i true = w at *
  have ht : t = ((w.stageData i 0 (k.payload.drop 32)).takePsn k.destQpn 1).stageQp k.destQpn := by rw [← hw]
  have hxdp := w.stageData_dp i 0 (k.payload.drop 32)
  have hxqps := w.stageData_qps i 0 (k.payload.drop 32)
  have hxchains := w.stageData_chains i 0 (k.payload.drop 32)
  generalize w.stageData i 0 (k.payload.drop 32) = x at *
  have htc : t.chains = w.chains := by rw [ht]; exact (State.stage_chains ..).trans hxchains
  have hbe (o : Nat) : be o 8 < 2 ^ 64 := beNat_lt (n := 8) (List.length_take_le ..)
  have hentry : s.chains.chains = (u.beginReq p f k).chains.chains := congrArg Chains.chains (State.chains_of_still hs)
  have hslen : (s.chain i).length = 8 := by
    rw [State.chain_of_chains hentry]
    exact hlen
  have hseq : s.cf i 3 31 0 = u.cf i 3 31 0 := State.cf_of_chains (hentry.trans (congrArg Chains.chains (u.beginReq_chains p f k))) ..
  obtain ⟨hst, hstep, hfire, hp0, hp1, hp2⟩ := s.fired_fields (k.payload.drop 32).length hslen (hbe 8) (hbe 16) (hbe 24)
  have hcf (a hi lo : Nat) := State.cf_of_chains ((congrArg Chains.chains htc).trans (hchains.trans (s.armRuns_chains k i need))) i a hi lo
  have hrun : t.run i = w.run i := by
    unfold State.run
    rw [htc]
  have hpsn : x.qEpsn k.destQpn = u.qEpsn k.destQpn :=
    (State.qf_of_qp ((State.qp_of_qps (hxqps.trans (hqps.trans (s.armRuns_qps ..))) _).trans (State.qp_of_still hs _)) ..).trans (u.qEpsn_beginReq p f k)
  have hxops : x.dp.ops = u.dp.ops ++ [o] := by rw [hxdp, hops, State.armRuns_dp, State.dp_of_still hs, u.beginReq_dp p f k]
  have htaken : requestTaken u t k.destQpn 1 [o] := by
    rw [ht]
    refine .of_takePsn hxops (by simp) (fun y hy => ?_) hpsn
    rw [List.mem_singleton.mp hy, hfor]
  refine ⟨o, htaken, hkind, (hcf ..).trans hst, (hcf ..).trans hstep, (hcf ..).trans (hfire.trans ?_), (hcf ..).trans hp0, (hcf ..).trans hp1, (hcf ..).trans hp2, ?_, ?_⟩
  · rw [hseq]
  · rw [hrun, hdata, State.run_armRuns]
  · rw [hrun, hready]

/-! ### SEND -/

/-- An Only packet of a SEND that fits the path MTU, on a QP whose sink is trigger chains, is an arming message. -/
theorem State.newSend_arm {u : State} {p : Nat} {f : RxFrame} {k : Packet} (hop : k.opcode = 4) (hmsg : (u.qp k.destQpn).msg = none) (hsize : k.payload.length ≤ u.qPmtu k.destQpn)
    (hmode : u.recvMode k.destQpn = 1) : u.newSend p f k = u.armFirst p f k := by
  have hpart : u.partOk k .send = true := by
    unfold State.partOk
    simp only [hop, hmsg, isOnly, isFirst, isMiddle, isLast, partOf]
    simpa using hsize
  unfold State.newSend
  rw [hop, hpart, hmsg, if_neg (by decide)]
  dsimp only
  rw [hmode]
  rfl

theorem State.armFirst_badHeader {u : State} {p : Nat} {f : RxFrame} {k : Packet} (h : armHeaderOk k.payload = false) : u.armFirst p f k = (u.beginReq p f k).invalidReq p f k :=
  if_pos (by rw [h]; rfl)

theorem State.armFirst_noMatch {u : State} {p : Nat} {f : RxFrame} {k : Packet} (hhead : armHeaderOk k.payload = true)
    (hmatch : (u.beginReq p f k).matchChain k.destQpn (beNat ((k.payload.drop 4).take 4)) = none) : u.armFirst p f k = (u.beginReq p f k).rnrReq p f k .recv := by
  unfold State.armFirst
  dsimp only
  rw [hhead, if_neg (by decide), hmatch]

/-- A SEND that fires a trigger chain, has a bad header, or matches no chain (R151, R202 to R204). -/
theorem firingSends (s u : State) (p : Nat) (f : RxFrame) (k : Packet) (h : s.newRequest p isSendOp f k u) (hop : k.opcode = 4) (hmsg : (u.qp k.destQpn).msg = none)
    (hsize : k.payload.length ≤ u.qPmtu k.destQpn) (hmode : u.recvMode k.destQpn = 1) :
    let n := k.destQpn
    let v := u.beginReq p f k
    let be (o l : Nat) : Nat := beNat ((k.payload.drop o).take l)
    (∀ i, armHeaderOk k.payload = true → v.matchChain n (be 4 4) = some i → v.chainRefused (u.qTenant n) (v.chainNeed i (be 24 8)) = none → (v.chain i).length = 8 →
      ∃ (t : State) (o : Op), exec (.send p) s = .next t.settle ∧ requestTaken u t n 1 [o] ∧ o.kind = .arm i ∧ t.cf i 0 2 0 = 2 ∧ t.curStep i = 0
        ∧ t.cf i 3 31 0 = (u.cf i 3 31 0 + 1) % 2 ^ 32 ∧ t.cf i 4 63 0 = be 8 8 ∧ t.cf i 5 63 0 = be 16 8 ∧ t.cf i 6 63 0 = be 24 8 ∧ (t.run i).data = k.payload.drop 32 ∧ (t.run i).ready = true)
    ∧ (armHeaderOk k.payload = false →
      ∃ (t : State) (o : Op), exec (.send p) s = .next t.settle ∧ requestTaken u t n 0 [o] ∧ o.kind = .nak 0x61 ∧ o.psn = k.psn)
    ∧ (armHeaderOk k.payload = true → v.matchChain n (be 4 4) = none → exec (.send p) s = .next (v.rnrReq p f k .recv).settle) := by
  intro n v be
  have hring := State.newRequest_noRing h
  have hexec {t : State} (ht : u.armFirst p f k = t) (hr : noRing t.dp.ops) : exec (.send p) s = .next t.settle :=
    nextSettled_congr (State.requestTwice_new h _ _ ((State.newSend_arm hop hmsg hsize hmode).trans ht) hr)
  refine ⟨fun i hhead hmatch hadmit hlen => ?_, fun hhead => ?_, fun hhead hmatch => hexec (State.armFirst_noMatch hhead hmatch) ?_⟩
  · obtain ⟨o, htaken, hrest⟩ := State.arm_taken (s := v.armBegun p f k (u.qTenant n) (v.chainNeed i (be 24 8))) (v.chainNeed i (be 24 8)) (v.armBegun_still ..) hlen
    exact ⟨_, o, hexec (State.armFirst_fires (by rw [hop]; decide) hhead hmatch hadmit) (htaken.noRing hring), htaken, hrest⟩
  · obtain ⟨o, htaken, ho⟩ := u.invalidReq_taken p f k
    exact ⟨_, o, hexec (State.armFirst_badHeader hhead) (htaken.noRing hring), htaken, ho⟩
  · refine State.rnrReq_noRing p f k .recv ?_
    rw [u.beginReq_dp p f k]
    exact hring

/-- Settles O36. -/
theorem atomicsAndFiringSends : Obligations.AtomicsAndFiringSends := by
  refine ⟨fun s u p f k => ?_, firingSends⟩
  intro n v
  refine ⟨fun e pool kind hmsg hva hlen hcase hkey hpool hadmit => ?_, fun e x h hmsg hpay hlen hkey => ?_⟩
  · have hdone {i : Instr} (ev : Nat) (hexec : exec i s = .next (u.newAtomic p f k kind ev).settle) (hpay : k.payload.length = if kind == .atomicWrite then 8 else 0)
        (hfits : kind ≠ .atomicWrite → v.rdAtomFits n = true) :
        ∃ (t : State) (o : Op), exec i s = .next t.settle ∧ requestTaken u t n 1 [o] ∧ o.kind = kind ∧ o.pool = pool ∧ o.len = 8 ∧ o.data = k.payload ∧ o.cmp = k.compare
          ∧ o.swap = k.swapAdd ∧ o.cls = e.cls ∧ t.qf n 2 30 24 = u.qf n 2 30 24 + (if kind = .atomicWrite then 0 else 1) := by
      have hvalid := State.newAtomic_valid (p := p) (f := f) (ev := ev) hmsg hva hlen hpay hfits hkey hpool hadmit
      obtain ⟨o, htaken, ho⟩ := State.atomic_taken kind e.cls pool (v.atomicHeld p f k ev e.cls pool (u.qTenant n)).2 (v.atomicHeld_still p f k ev e.cls pool (u.qTenant n)) hfits
      exact ⟨_, o, hexec.trans (nextSettled_congr hvalid), htaken, ho⟩
    rcases hcase with ⟨rfl, hreq, hpay, hfits⟩ | ⟨rfl, hreq, hpay, hfits⟩ | ⟨rfl, hreq, hpay⟩
    · exact hdone 2 (nextSettled_congr (State.request_new hreq ..)) (by rw [hpay]; rfl) (fun _ => hfits)
    · exact hdone 2 (nextSettled_congr (State.request_new hreq ..)) (by rw [hpay]; rfl) (fun _ => hfits)
    · exact hdone 1 (nextSettled_congr (State.request_new hreq ..)) (by rw [hpay]; rfl) (fun hne => absurd rfl hne)
  · obtain ⟨o, htaken, ho⟩ := u.flush_taken p f k e.cls
    exact ⟨_, o, nextSettled_congr ((State.request_new h ..).trans (State.newFlush_keyed hmsg hpay hlen hkey)), htaken, ho⟩

end Sys2Proof.Machine
end

section
/-! PROOFS. A frame of the twin received on a strand: its acknowledgement, its place in FSEQ and VSEQ order, its delivery (R328, R329, R330, R333). -/

namespace Sys2Proof.Machine

theorem State.strand_setStrand (s : State) (n : Nat) (v : Strand) : (s.setStrand n v).strand n = v := NMap.getD_put_same ..
theorem State.strand_modStrand (s : State) (n : Nat) (f : Strand → Strand) : (s.modStrand n f).strand n = f (s.strand n) := s.strand_setStrand ..

/-- A credit changes registers, the credit of its VC and the stall of it alone. -/
theorem State.addCredit_eq (s : State) (vc c : Nat) :
    ∃ r k d, s.addCredit vc c = { s with regs := r, link := { s.link with credit := k, stallSince := d } } := by
  unfold State.addCredit
  split
  · exact ⟨s.regs, s.link.credit, s.link.stallSince, rfl⟩
  · split
    · exact ⟨_, _, _, rfl⟩
    · exact ⟨s.regs, _, s.link.stallSince, rfl⟩

/-- With nothing queued and no NAK, an acknowledgement leaves what is received, and the queue, as it stood. -/
theorem State.takeAck_received (s : State) (n : Nat) {h : LinkHdr} (hnak : h.nak = false) (hqueue : s.link.queue = []) :
    (s.takeAck n h).link.rxVseq = s.link.rxVseq ∧ (s.takeAck n h).link.reorder = s.link.reorder := by
  unfold State.takeAck
  extract_lets st left progress u v w
  have hw : w = v := by
    unfold w
    rw [hnak, if_neg Bool.false_ne_true]
  obtain ⟨_, _, _, h1⟩ := u.addCredit_eq 1 h.credit1
  obtain ⟨_, _, _, h2⟩ := (u.addCredit 1 h.credit1).addCredit_eq 2 h.credit2
  obtain ⟨_, _, _, h3⟩ := ((u.addCredit 1 h.credit1).addCredit 2 h.credit2).addCredit_eq 3 h.credit3
  have hlink : ∃ k d, v.link = { u.link with credit := k, stallSince := d } := ⟨_, _, by unfold v; rw [h3, h2, h1]⟩
  obtain ⟨k, d, hlink⟩ := hlink
  have hidle : v.drainLink = v := by
    unfold State.drainLink
    rw [hlink]
    rw [show u.link.queue = [] from hqueue]
    rfl
  rw [hw, hidle, hlink]
  exact ⟨rfl, rfl⟩

/-- That the generation was seen changes no sequence number and nothing of what is received. -/
theorem State.genSeen_received (s : State) (n : Nat) (k : Bool) :
    ((s.genSeen n k).strand n).rxFseq = (s.strand n).rxFseq ∧ ((s.genSeen n k).strand n).ackOwed = (s.strand n).ackOwed
      ∧ (s.genSeen n k).link.rxVseq = s.link.rxVseq ∧ (s.genSeen n k).link.reorder = s.link.reorder := by
  unfold State.genSeen
  split
  · exact ⟨rfl, rfl, rfl, rfl⟩
  · extract_lets u
    have hu : u.strand n = { s.strand n with rxNewGen := true } := s.strand_modStrand ..
    have hkept : (u.strand n).rxFseq = (s.strand n).rxFseq ∧ (u.strand n).ackOwed = (s.strand n).ackOwed := by rw [hu]; exact ⟨rfl, rfl⟩
    obtain ⟨hseq, hack⟩ := hkept
    split
    · exact ⟨hseq, hack, rfl, rfl⟩
    · exact ⟨hseq, hack, rfl, rfl⟩

/-- A frame that is the next of its strand is taken: its FSEQ is the strand's, an acknowledgement is owed. -/
theorem State.takeFrameHdr_next (s : State) (n : Nat) {h : LinkHdr} {b : LinkBody} (hup : s.strandSt n = 4) (hcode : h.codewordOk = true) (htag : s.linkTagOk n h b = true)
    (hnak : h.nak = false) (hqueue : s.link.queue = []) (hseq : h.fseq = (s.strand n).rxFseq + 1) :
    ∃ u : State, s.takeFrameHdr n h b = (u, true) ∧ (u.strand n).rxFseq = h.fseq ∧ (u.strand n).ackOwed = true
      ∧ u.link.rxVseq = s.link.rxVseq ∧ u.link.reorder = s.link.reorder := by
  obtain ⟨hrx, hheld⟩ := s.takeAck_received n hnak hqueue
  let u := (s.takeAck n h).modStrand n (fun x => { x with rxFseq := h.fseq, tagRun := 0, nakOwed := false, ackOwed := true })
  obtain ⟨gseq, gack, grx, gheld⟩ := u.genSeen_received n h.keysel
  have hu : (u.strand n).rxFseq = h.fseq ∧ (u.strand n).ackOwed = true := by rw [State.strand_modStrand]; exact ⟨rfl, rfl⟩
  refine ⟨u.genSeen n h.keysel, ?_, gseq.trans hu.1, gack.trans hu.2, grx.trans hrx, gheld.trans hheld⟩
  unfold State.takeFrameHdr
  dsimp only
  rw [hup, hcode, htag, if_neg (by decide), if_neg (by decide), if_neg (by decide), if_pos hseq]

theorem takeInOrder_one {next : Nat} {f : HeldFrame} (h : f.vseq = next) (k : Nat) : takeInOrder (k + 1) next [f] = ([f], next + 1, []) := by
  have hfind : [f].find? (fun f => f.vseq == next) = some f := by simp [h]
  have hrest : [f].filter (fun g => g.vseq != next) = [] := by simp [h]
  have hnone : takeInOrder k (next + 1) [] = ([], next + 1, []) := by cases k <;> rfl
  unfold takeInOrder
  rw [hfind]
  dsimp only
  rw [hrest, hnone]

/-- A frame that is the next of its strand and of its VC is delivered at once. -/
theorem State.delivered_next (s : State) {n : Nat} {h : LinkHdr} {b : LinkBody} (hn : n < 8) (hup : s.strandSt n = 4) (hcode : h.codewordOk = true)
    (htag : s.linkTagOk n h b = true) (hnak : h.nak = false) (hqueue : s.link.queue = []) (hseq : h.fseq = (s.strand n).rxFseq + 1)
    (hvseq : h.vseq = NMap.getD s.link.rxVseq b.vc 1) (hheld : NMap.getD s.link.reorder b.vc [] = []) :
    ∃ v, s.delivered n h b v ∧ (v.strand n).rxFseq = h.fseq ∧ (v.strand n).ackOwed = true := by
  obtain ⟨u, htake, useq, uack, urx, uheld⟩ := s.takeFrameHdr_next n hup hcode htag hnak hqueue hseq
  let w := (u.linkCtr 1).linkCtr 3 (1 + b.blocks)
  refine ⟨{ w with link := { w.link with rxVseq := NMap.insert w.link.rxVseq b.vc (h.vseq + 1), reorder := NMap.put [] w.link.reorder b.vc [] } }, ⟨hn, ?_⟩, useq, uack⟩
  have hwrx : NMap.getD w.link.rxVseq b.vc 1 = h.vseq := (congrArg (fun m => NMap.getD m b.vc 1) urx).trans hvseq.symm
  have hwheld : NMap.getD w.link.reorder b.vc [] = [] := (congrArg (fun m => NMap.getD m b.vc []) uheld).trans hheld
  unfold State.receive
  rw [htake]
  simp only [Bool.not_true, Bool.false_eq_true, if_false]
  rw [show NMap.getD ((u.linkCtr 1).linkCtr 3 (1 + b.blocks)).link.rxVseq b.vc 1 = h.vseq from hwrx,
    show NMap.getD ((u.linkCtr 1).linkCtr 3 (1 + b.blocks)).link.reorder b.vc [] = [] from hwheld]
  simp only [List.any_nil, lt_irrefl, decide_false, Bool.or_false, List.length_nil, List.nil_append, takeInOrder_one]
  rw [if_neg (by decide)]

/-- A frame delivered at once and alone is taken, then the strand and the twin's work go on. -/
theorem State.takeLink_of_delivered {s u : State} {n : Nat} {h : LinkHdr} {b : LinkBody} (hd : s.delivered n h b u) (f : State → LinkHdr → LinkBody → State) :
    s.takeLink n h b f = ((f u h b).offCheck n).twinGo := by
  obtain ⟨hn, hreceive⟩ := hd
  unfold State.takeLink
  rw [if_neg (Nat.not_le.mpr hn), hreceive]
  rfl

/-- On a strand that is not UP nothing is delivered. -/
theorem State.takeLink_of_down {s : State} {n : Nat} (hn : n < 8) (hdown : s.strandSt n ≠ 4) (h : LinkHdr) (b : LinkBody) (f : State → LinkHdr → LinkBody → State) :
    s.takeLink n h b f = (s.offCheck n).twinGo := by
  have hnone : s.receive n h b = (s, []) := by
    unfold State.receive State.takeFrameHdr
    dsimp only
    rw [if_pos (bne_iff_ne.mpr hdown)]
    rfl
  unfold State.takeLink
  rw [if_neg (Nat.not_le.mpr hn), hnone]
  rfl

/-! ### Incoming epochs -/

theorem find?_map_keyed {α : Type} {p : α → Bool} {f : α → α} (hf : ∀ x, p (f x) = p x) : ∀ l : List α, (l.map f).find? p = (l.find? p).map f
  | [] => rfl
  | x :: l => by
    rw [List.map_cons, List.find?_cons, List.find?_cons, hf]
    cases p x with
    | true => rfl
    | false => exact find?_map_keyed hf l

/-- What has arrived of an epoch not yet applied is changed where it stands, or begins with that change. -/
theorem State.modIncoming_find (s : State) {n : Nat} {f : Incoming → Incoming} (hn : s.pair.appliedTo < n) (hf : ∀ i, (f i).n = i.n) :
    (s.modIncoming n f).pair.incoming.find? (fun i => i.n == n) = some (f ((s.pair.incoming.find? (fun i => i.n == n)).getD { n := n })) := by
  unfold State.modIncoming
  rw [if_neg (Nat.not_le.mpr hn)]
  dsimp only
  have hkeyed (x : Incoming) : ((if x.n = n then f x else x).n == n) = (x.n == n) := by split <;> simp [hf]
  rw [find?_map_keyed hkeyed]
  cases hfind : s.pair.incoming.find? (fun i => i.n == n) with
  | some i =>
    have hi : i.n = n := by simpa using List.find?_some hfind
    have hany : s.pair.incoming.any (fun i => i.n == n) = true := List.any_eq_true.mpr ⟨i, List.mem_of_find?_eq_some hfind, by simpa using hi⟩
    rw [if_pos hany, hfind]
    exact congrArg some (if_pos hi)
  | none =>
    have hany : ¬ s.pair.incoming.any (fun i => i.n == n) = true := by
      rw [List.any_eq_true]
      rintro ⟨i, hmem, hi⟩
      exact List.find?_eq_none.mp hfind i hmem hi
    rw [if_neg hany, List.find?_append, hfind]
    simp

@[simp] theorem State.modIncoming_regs (s : State) (n : Nat) (f : Incoming → Incoming) : (s.modIncoming n f).regs = s.regs := by unfold State.modIncoming; split <;> rfl
theorem State.modIncoming_pair (s : State) {n : Nat} (f : Incoming → Incoming) :
    ∃ l, s.modIncoming n f = { s with pair := { s.pair with incoming := l } } := by
  unfold State.modIncoming
  split
  · exact ⟨s.pair.incoming, rfl⟩
  · exact ⟨_, rfl⟩

end Sys2Proof.Machine
end

section
/-! PROOFS. What a delivered frame does: epochs, seals, acknowledgements, pages, heartbeats and generations (R159, R333, R350 to R353, R359); forwarded
operations and their answers (R78, R187, R330, R346). -/

namespace Sys2Proof.Machine

/-! ### Seals, heartbeats, generations -/

/-- A SEAL for which no epoch is open here joins its epoch, and lowers the deadline of the next one. -/
theorem State.takeSealFrame_closed (s : State) (n : Nat) (m : SealMsg) (hopen : s.openSlot = none) :
    ∃ l, (s.modIncoming n (fun i => { i with sealed := some m })).pair.incoming = l
      ∧ s.takeSealFrame n m = ({ s with pair := { s.pair with
          incoming := l, finalSeen := m.final || s.pair.finalSeen,
          deadline := if s.pair.openEpoch = n + 1 then min s.pair.deadline (s.monoOf m.closeTb + s.rd MIR_EPOCH_NS_NS) else s.pair.deadline } } : State).applyNext := by
  obtain ⟨l, hl⟩ := s.modIncoming_pair (n := n) (fun i => { i with sealed := some m })
  refine ⟨l, by rw [hl], ?_⟩
  obtain ⟨v, hv⟩ : ∃ v : State, v = { s with pair := { s.pair with incoming := l, finalSeen := m.final || s.pair.finalSeen } } := ⟨_, rfl⟩
  have hfinal : (if m.final = true then { s with pair := { s.pair with incoming := l, finalSeen := true } } else { s with pair := { s.pair with incoming := l } }) = v := by
    rw [hv]
    cases m.final <;> rfl
  have hclosed : v.openSlot = none := by rw [hv]; exact hopen
  have heq : s.takeSealFrame n m
      = (if v.pair.openEpoch = n + 1 then { v with pair := { v.pair with deadline := min v.pair.deadline (v.monoOf m.closeTb + v.rd MIR_EPOCH_NS_NS) } } else v).applyNext := by
    unfold State.takeSealFrame
    rw [hl]
    dsimp only
    rw [hfinal, hclosed]
  rw [heq, hv]
  dsimp only
  split <;> rfl

/-- A counter of the twin's that counts n more. -/
theorem State.rd_twinCtr (s : State) (k n : Nat) : (s.twinCtr k n).rd MIR_TWIN_COUNTER_COUNT 0 (8 * k) = (s.rd MIR_TWIN_COUNTER_COUNT 0 (8 * k) + n) % 2 ^ 64 :=
  State.rd_wr_same _ _ _ _ _ (by decide) (by decide)

theorem State.pmuCount_regs (s : State) (a b c d n : Nat) : (s.pmuCount a b c d n).regs = s.regs := (congrArg State.regs (s.pmuCount_frame a b c d n)).trans rfl

/-- The time to an acknowledgement is counted; the epochs stand. -/
theorem State.ackCounted (s : State) (d : Nat) : ((s.twinCtr 2 d).pmuCount 0xB 1 0 0 d).pair = s.pair
    ∧ ((s.twinCtr 2 d).pmuCount 0xB 1 0 0 d).rd MIR_TWIN_COUNTER_COUNT 0 16 = (s.rd MIR_TWIN_COUNTER_COUNT 0 16 + d) % 2 ^ 64 := by
  have hpair : (s.twinCtr 2 d).pair = s.pair := State.inc_pair ..
  refine ⟨(State.pair_of_still (State.pmuCount_still ..)).trans hpair, ?_⟩
  exact (State.rd_congr (State.pmuCount_regs ..) _ _ _).trans (s.rd_twinCtr 2 d)

/-- A SEAL_ACK acknowledges the closed epoch it names and counts the time since its close. -/
theorem State.takeSealAck_closed {s : State} {n t : Nat} {e : Epoch} (hfind : s.pair.epochs.find? (fun e => e.n == n) = some e) (hclosed : e.closed = some t) :
    (s.takeSealAck n).pair.epochs = s.pair.epochs.map (fun x => if x.n = n then { x with acked := true } else x)
      ∧ (s.takeSealAck n).rd MIR_TWIN_COUNTER_COUNT 0 16 = (s.rd MIR_TWIN_COUNTER_COUNT 0 16 + (s.mono - t)) % 2 ^ 64 := by
  unfold State.takeSealAck
  rw [hfind]
  dsimp only
  rw [hclosed]
  dsimp only
  obtain ⟨hpair, hctr⟩ := State.ackCounted { s with pair := { s.pair with epochs := s.pair.epochs.map (fun x => if x.n = n then { x with acked := true } else x) } } (s.mono - t)
  rw [hpair, hctr]
  exact ⟨rfl, rfl⟩

/-- A HEARTBEAT in neither half of a resynchronisation restarts the loss timer and does no more. -/
theorem State.takeHeartbeat_plain (s : State) (m : HeartbeatMsg) (h6 : s.role ≠ 6) (h7 : s.role ≠ 7) :
    s.takeHeartbeat m = { s with pair := { s.pair with lastHb := some s.mono, twinHb := some m } } := by
  have hrole : ({ s with pair := { s.pair with lastHb := some s.mono, twinHb := some m } } : State).role = s.role := rfl
  unfold State.takeHeartbeat
  dsimp only
  rw [hrole, if_neg (by simp [h6]), if_neg (by simp [h7])]

theorem NMap.find_map_values {α : Type} (f : α → α) (k : Nat) : ∀ m : NMap α, NMap.find (m.map (fun e => (e.1, f e.2))) k = (NMap.find m k).map f
  | [] => rfl
  | (j, v) :: m => by
    rw [List.map_cons, NMap.find, NMap.find]
    split
    · rfl
    · exact NMap.find_map_values f k m

/-- KEY_NEXT sets the generation received, and that no strand delivered a frame under it yet. -/
theorem State.keyNextTake_effect (s : State) (g : Nat) :
    (s.keyNextTake g).link = { s.link with rxGen := g, rxOld := some (g - 1), strands := (s.keyNextTake g).link.strands }
      ∧ (∀ k, (s.keyNextTake g).strand k = { s.strand k with rxNewGen := false }) ∧ (s.keyNextTake g).rd MIR_KEY_STAT_RX_GEN = g % 2 ^ 32
      ∧ regsKept s (s.keyNextTake g) [MIR_KEY_STAT_RX_GEN.key] := by
  refine ⟨rfl, fun k => ?_, State.rd_wr_same _ _ _ _ _ (by decide) (by decide), ?_⟩
  · have hfind := NMap.find_map_values (fun x : Strand => { x with rxNewGen := false }) k s.link.strands
    refine (congrArg (fun x : Option Strand => x.getD {}) hfind).trans ?_
    unfold State.strand NMap.getD
    cases NMap.find s.link.strands k <;> rfl
  · exact regsKept.trans (regsKept.of_regs rfl _) (State.wr_regsKept _ MIR_KEY_STAT_RX_GEN g 0 0)

/-! ### Forwarded operations at the owner -/

theorem State.region_congr {a b : State} (hr : b.prot.regions = a.prot.regions) (ho : b.prot.ownerBase = a.prot.ownerBase) (hs : b.prot.servedBase = a.prot.servedBase)
    (hd : b.dur = a.dur) (ht : b.twinB = a.twinB) (r : Nat) : b.region r = a.region r := by
  unfold State.region State.heldRegion
  rw [hr, ho, hs, hd, ht]

/-- The reservation of a forwarded write changes a register and a tenant alone, and no counter. -/
theorem State.fwdReserve_eq (s : State) (m : FwdReqMsg) :
    ∃ r t, s.fwdReserve m = { s with regs := r, prot := { s.prot with tenants := t } } ∧ (s.fwdReserve m).rd MIR_TWIN_COUNTER_COUNT 0 48 = s.rd MIR_TWIN_COUNTER_COUNT 0 48 := by
  unfold State.fwdReserve
  split
  · unfold State.reserveAt
    extract_lets u
    have hu : u.rd MIR_TWIN_COUNTER_COUNT 0 48 = s.rd MIR_TWIN_COUNTER_COUNT 0 48 := State.rd_wr_other _ _ _ _ _ _ _ _ (by decide)
    split
    · exact ⟨_, _, rfl, hu⟩
    · exact ⟨_, _, rfl, hu⟩
  · exact ⟨s.regs, s.prot.tenants, rfl, rfl⟩

/-- The cells of a frame taken, its reservation made and the bank asked (R73, R78, R187). -/
def State.fwdHeld (s : State) (m : FwdReqMsg) : State :=
  ((s.addLink (fwdCells m)).fwdReserve m).askIn .forwarded (s.rd HTH_PART_PKT_BASE_MIB) s.hearth.layout.pkt (4 * fwdCells m)

theorem State.fwdHeld_eq (s : State) (m : FwdReqMsg) :
    ∃ r t f b, s.fwdHeld m = { s.addLink (fwdCells m) with regs := r, prot := { s.prot with tenants := t }, freeNext := f, banks := b }
      ∧ (s.fwdHeld m).rd MIR_TWIN_COUNTER_COUNT 0 48 = s.rd MIR_TWIN_COUNTER_COUNT 0 48 := by
  obtain ⟨r, t, heq, hctr⟩ := (s.addLink (fwdCells m)).fwdReserve_eq m
  obtain ⟨f, b, hask⟩ : ∃ f b, s.fwdHeld m = { (s.addLink (fwdCells m)).fwdReserve m with banks := b, freeNext := f } := ⟨_, _, State.askIn_eq ..⟩
  refine ⟨r, t, f, b, ?_, ?_⟩
  · refine hask.trans ?_
    rw [heq]
    rfl
  · exact (State.rd_congr (congrArg State.regs hask) _ _ _).trans hctr

theorem State.noPartials (s : State) (h : s.link.partial_ = []) : ({ s.subLink 0 with link := { (s.subLink 0).link with partial_ := [] } } : State) = s := by
  rw [← h]
  rfl

/-- A request of the pool in one frame that this twin takes: ingress is open, no result is kept, no other request stands in parts. -/
structure WholeFwdReq (s : State) (m : FwdReqMsg) : Prop where
  ingress : s.ingressClosed = false
  running : s.role ≠ 5
  first : m.first = true
  last : m.last = true
  notProt : m.op ≠ .protWrite
  notDiscard : m.op ≠ .discard
  notStop : m.op ≠ .stop
  noneKept : s.pair.kept = []
  noParts : s.link.partial_ = []

/-- Such a request is executed at once. -/
theorem State.takeFwdReq_whole {s : State} {m : FwdReqMsg} (h : WholeFwdReq s m) : s.takeFwdReq m = (s.fwdHeld m).fwdExecute m (fwdCells m) := by
  obtain ⟨hopen, hrole, hfirst, hlast, -, -, -, -, hpartial⟩ := h
  obtain ⟨_, _, _, _, heq, _⟩ := s.fwdHeld_eq m
  have hlink : (s.fwdHeld m).link.partial_ = [] := by rw [heq]; exact hpartial
  obtain ⟨w, hw⟩ : ∃ w, w = s.fwdHeld m := ⟨_, rfl⟩
  rw [← hw] at hlink ⊢
  unfold State.takeFwdReq
  rw [if_neg (by simp [hopen, hrole])]
  dsimp only
  rw [show ((s.addLink (fwdCells m)).fwdReserve m).askIn .forwarded (s.rd HTH_PART_PKT_BASE_MIB) s.hearth.layout.pkt (4 * fwdCells m) = w from hw.symm]
  simp only [if_pos hfirst, if_pos hlast, hlink, List.filter_nil, List.map_nil, List.sum_nil, List.flatMap_nil, List.nil_append, Nat.zero_add]
  rw [w.noPartials hlink]

theorem State.keptOf_none {s : State} (h : s.pair.kept = []) (m : FwdReqMsg) : s.keptOf m = none := by
  unfold State.keptOf
  rw [h]
  rfl

/-- The operation that executes a forwarded request. -/
def fwdOp (m : FwdReqMsg) (cells : Nat) : Op :=
  { id := 0, for_ := .fwd m.qpn m.psn m.seg, kind := (fwdKind m), psn := m.psn, seg := m.seg, cls := m.cls, tenant := m.tenant, pool := m.poolOff, len := m.len, data := m.data
    cmp := m.a, swap := m.b, linkCells := cells }

/-- A request of the pool whose result is not kept is executed, or refused. -/
theorem State.fwdExecute_pool (s : State) {m : FwdReqMsg} (cells : Nat) (hp : m.op ≠ .protWrite) (hd : m.op ≠ .discard) (hs : m.op ≠ .stop) (hkept : s.pair.kept = []) :
    s.fwdExecute m cells = match s.fwdRefused m with
      | some st => (((s.twinCtr 6).subLink cells).afterFree 96).fwdAnswer m st 0
      | none => (s.twinCtr 6).addOp (fwdOp m cells) := by
  have hk : (s.twinCtr 6).keptOf m = none := State.keptOf_none hkept m
  have hr : (s.twinCtr 6).fwdRefused m = s.fwdRefused m := rfl
  unfold State.fwdExecute
  dsimp only
  rw [hk, hr]
  cases hop : m.op with
  | read => rfl
  | write => rfl
  | cas => rfl
  | fadd => rfl
  | atomicWrite => rfl
  | protWrite => exact absurd hop hp
  | discard => exact absurd hop hd
  | stop => exact absurd hop hs

theorem State.takeFwdReq_dropped (s : State) (m : FwdReqMsg) (h : s.ingressClosed = true ∨ s.role = 5) : s.takeFwdReq m = s := by
  unfold State.takeFwdReq
  rw [if_pos]
  rcases h with h | h <;> simp [h]

theorem State.fwdRefused_notOwned {s : State} {m : FwdReqMsg} (h : s.owns (regionOf m.poolOff) = false) : s.fwdRefused m = some .notOwner := by
  unfold State.fwdRefused
  dsimp only
  rw [h]
  rfl

theorem State.fwdRefused_served {s : State} {m : FwdReqMsg} (h : s.owns (regionOf m.poolOff) = true) (hserved : (s.region (regionOf m.poolOff)).served = true) :
    s.fwdRefused m = none := by
  unfold State.fwdRefused
  dsimp only
  rw [h, hserved]
  rfl

theorem State.fwdHeld_region (s : State) (m : FwdReqMsg) (r : Nat) : (s.fwdHeld m).region r = s.region r := by
  obtain ⟨_, _, _, _, heq, _⟩ := s.fwdHeld_eq m
  rw [heq]
  exact State.region_congr rfl rfl rfl rfl rfl r

theorem State.fwdHeld_owns (s : State) (m : FwdReqMsg) (r : Nat) : (s.fwdHeld m).owns r = s.owns r := by
  obtain ⟨_, _, _, _, heq, _⟩ := s.fwdHeld_eq m
  unfold State.owns
  rw [s.fwdHeld_region m r, heq]
  rfl

theorem State.fwdHeld_kept (s : State) (m : FwdReqMsg) : (s.fwdHeld m).pair = s.pair ∧ (s.fwdHeld m).dp = s.dp
    ∧ (s.fwdHeld m).hearth.linkCharge = s.hearth.linkCharge + fwdCells m := by
  obtain ⟨_, _, _, _, heq, _⟩ := s.fwdHeld_eq m
  rw [heq]
  exact ⟨rfl, rfl, rfl⟩

/-- For a region of the twin nothing is reserved. -/
theorem State.fwdHeld_notOwned (s : State) {m : FwdReqMsg} (h : s.owns (regionOf m.poolOff) = false) :
    s.fwdHeld m = (s.addLink (fwdCells m)).askIn .forwarded (s.rd HTH_PART_PKT_BASE_MIB) s.hearth.layout.pkt (4 * fwdCells m) := by
  have hrefused : (s.addLink (fwdCells m)).fwdRefused m = some .notOwner := State.fwdRefused_notOwned h
  unfold State.fwdHeld State.fwdReserve
  rw [if_neg (by simp [hrefused])]

/-! ### The owner's answer at the home -/

/-- An operation changed under its own number is found changed. -/
theorem State.op?_modOp (s : State) {id : Nat} {f : Op → Op} (hf : ∀ o, o.id = id → (f o).id = id) : (s.modOp id f).op? id = (s.op? id).map f := by
  have hkeyed (o : Op) : ((if o.id = id then f o else o).id == id) = (o.id == id) := by
    split
    · next h => rw [hf o h, h]
    · rfl
  refine (find?_map_keyed hkeyed s.dp.ops).trans ?_
  unfold State.op?
  cases hfind : s.dp.ops.find? (fun o => o.id == id) with
  | none => rfl
  | some o =>
    have ho : o.id = id := by simpa using List.find?_some hfind
    simp [ho]

theorem State.op?_id {s : State} {id : Nat} {o : Op} (h : s.op? id = some o) : o.id = id := by
  have := List.find?_some h
  simpa using this

theorem State.op?_of_dp {a b : State} (h : b.dp = a.dp) (id : Nat) : b.op? id = a.op? id := by
  unfold State.op?
  rw [h]

/-- Cells held for what a READ received are the operation's; nothing else of it, of the twin or of the registers changes. -/
theorem State.holdResp_held {s : State} {id : Nat} {o : Op} (n : Nat) (h : s.op? id = some o) :
    (s.holdResp id n).op? id = some { o with linkCells := o.linkCells + n } ∧ (s.holdResp id n).pair = s.pair ∧ (s.holdResp id n).regs = s.regs := by
  unfold State.holdResp
  rw [h]
  refine ⟨?_, rfl, rfl⟩
  refine (State.op?_modOp (s.addLink n) (f := fun o => { o with linkCells := o.linkCells + n }) (fun _ hid => hid)).trans ?_
  rw [State.op?_of_dp (a := s) (b := s.addLink n) rfl, h]
  rfl

theorem State.noteUnsealed_kept (s : State) (id : Nat) (ep : Option Nat) :
    (s.noteUnsealed id ep).dp = s.dp ∧ (s.noteUnsealed id ep).pair = s.pair ∧ (s.noteUnsealed id ep).regs = s.regs := by
  unfold State.noteUnsealed
  split <;> exact ⟨rfl, rfl, rfl⟩

/-- The reservation of a forwarded operation is given back at its home. -/
theorem State.fwdRelease_kept (s : State) (m : FwdReqMsg) :
    (s.fwdRelease m).dp = s.dp ∧ (s.fwdRelease m).pair = s.pair ∧ (s.fwdRelease m).rd TIR_DIRTY_RESERVED_BYTES = s.rd TIR_DIRTY_RESERVED_BYTES - fwdNeed m := by
  refine ⟨rfl, rfl, ?_⟩
  have hregs : (s.fwdRelease m).regs = (s.wr TIR_DIRTY_RESERVED_BYTES (s.rd TIR_DIRTY_RESERVED_BYTES - fwdNeed m)).regs := rfl
  rw [State.rd_congr hregs, State.rd_wr_same _ _ _ _ _ (by decide) (by decide)]
  exact Nat.mod_eq_of_lt (Nat.lt_of_le_of_lt (Nat.sub_le ..) (s.rd_lt TIR_DIRTY_RESERVED_BYTES 0 0))

/-- An answered operation is placed with the result and the bytes of the answer, and is forwarded no more. -/
theorem State.fwdAnswered_done {s : State} {f : FwdOut} {o : Op} (h : LinkHdr) {m : FwdRespMsg} (hop : s.op? f.op = some o) (hdone : m.status = .done) :
    (∃ o', (s.fwdAnswered f h m).op? f.op = some o' ∧ o'.placed = true ∧ o'.left = 0 ∧ o'.result = m.result ∧ o'.got = o.linesOf m.data)
      ∧ (∀ x ∈ (s.fwdAnswered f h m).pair.fwdOut, x.op ≠ f.op)
      ∧ (s.fwdAnswered f h m).rd TIR_DIRTY_RESERVED_BYTES = s.rd TIR_DIRTY_RESERVED_BYTES - fwdNeed f.msg := by
  unfold State.fwdAnswered
  extract_lets src u waits ep
  have hu : u.op? f.op = some o := hop
  rw [hdone, hu]
  dsimp only
  obtain ⟨rdp, rpair, rrsv⟩ := u.fwdRelease_kept f.msg
  obtain ⟨ndp, npair, nregs⟩ := (u.fwdRelease f.msg).noteUnsealed_kept f.op ep
  have hid : o.id = f.op := State.op?_id hop
  have hplaced := State.op?_modOp ((u.fwdRelease f.msg).noteUnsealed f.op ep) (id := f.op)
    (f := fun _ => { o with left := 0, placed := true, result := m.result, got := o.linesOf m.data, epoch := ep }) (fun _ _ => hid)
  rw [State.op?_of_dp (ndp.trans rdp), hu] at hplaced
  refine ⟨⟨_, hplaced, rfl, rfl, rfl, rfl⟩, fun x hx => ?_, ?_⟩
  · have hout : x ∈ u.pair.fwdOut := (congrArg Pair.fwdOut (npair.trans rpair)) ▸ hx
    simpa using (List.mem_filter.mp hout).2
  · exact (State.rd_congr nregs TIR_DIRTY_RESERVED_BYTES 0 0).trans rrsv

/-- The answer that ends a forwarded operation: its bytes are those received before it and its own. -/
theorem State.takeFwdResp_done {s : State} {f : FwdOut} {o : Op} (h : LinkHdr) {m : FwdRespMsg}
    (hfind : s.pair.fwdOut.find? (fun f => f.msg.qpn == m.qpn && f.msg.psn == m.psn && f.msg.seg == m.seg) = some f) (hop : s.op? f.op = some o) (hdone : m.status = .done)
    (hwhole : f.msg.op = .read → f.msg.len ≤ f.got.length + m.data.length) :
    (∃ o', (s.takeFwdResp h m).op? f.op = some o' ∧ o'.placed = true ∧ o'.left = 0 ∧ o'.result = m.result ∧ o'.got = o.linesOf (f.got ++ m.data))
      ∧ (∀ x ∈ (s.takeFwdResp h m).pair.fwdOut, x.op ≠ f.op)
      ∧ (s.takeFwdResp h m).rd TIR_DIRTY_RESERVED_BYTES = s.rd TIR_DIRTY_RESERVED_BYTES - fwdNeed f.msg := by
  obtain ⟨u, hu⟩ : ∃ u, u = s.oweCredit 3 (LinkBody.blocks (.fwdResp m)) := ⟨_, rfl⟩
  obtain ⟨w, hw⟩ : ∃ w : State, w = if f.msg.op = .read then u.holdResp f.op (fwdRespCells m) else u := ⟨_, rfl⟩
  have hufind : u.pair.fwdOut.find? (fun f => f.msg.qpn == m.qpn && f.msg.psn == m.psn && f.msg.seg == m.seg) = some f := by rw [hu]; exact hfind
  have huop : u.op? f.op = some o := by rw [hu]; exact hop
  have huregs : u.regs = s.regs := by rw [hu]; rfl
  have hwop : ∃ o', w.op? f.op = some o' ∧ o'.linesOf (f.got ++ m.data) = o.linesOf (f.got ++ m.data) ∧ w.regs = s.regs := by
    rw [hw]
    split
    · obtain ⟨hheld, _, hregs⟩ := State.holdResp_held (fwdRespCells m) huop
      exact ⟨_, hheld, rfl, hregs.trans huregs⟩
    · exact ⟨o, huop, rfl, huregs⟩
  obtain ⟨o', ho', hlines, hregs⟩ := hwop
  have hends : ¬ (decide (f.msg.op = .read) && m.status == .done && decide ((f.got ++ m.data).length < f.msg.len)) = true := by
    simp only [Bool.and_eq_true, decide_eq_true_eq, not_and, not_lt]
    rintro ⟨hread, _⟩
    exact (hwhole hread).trans_eq List.length_append.symm
  have heq : s.takeFwdResp h m = w.fwdAnswered f h { m with data := f.got ++ m.data } := by
    unfold State.takeFwdResp
    dsimp only
    rw [← hu, hufind]
    dsimp only
    rw [← hw, if_neg hends]
  rw [heq]
  obtain ⟨⟨x, hx, hplaced, hleft, hresult, hgot⟩, hout, hrsv⟩ := State.fwdAnswered_done h (m := { m with data := f.got ++ m.data }) ho' hdone
  exact ⟨⟨x, hx, hplaced, hleft, hresult, hgot.trans hlines⟩, hout, hrsv.trans (congrArg (· - _) (State.rd_congr hregs TIR_DIRTY_RESERVED_BYTES 0 0))⟩

end Sys2Proof.Machine
end

section
/-! PROOFS. The twin's HANDSHAKE, decided on, stays the one decided on through every change of role that follows (R343, R344). -/

namespace Sys2Proof.Machine

/-- The twin's HANDSHAKE, where one was decided on. -/
@[irreducible] def State.hello (s : State) : Option HandshakeMsg := s.pair.twinHello

theorem State.hello_eq (s : State) : s.hello = s.pair.twinHello := by unfold State.hello; rfl

/-- A state that has the HANDSHAKE of another. -/
theorem State.hello_of_kept (a : State) {b : State} (h : b.pair.twinHello = a.pair.twinHello) : b.hello = a.hello := by rw [b.hello_eq, h, a.hello_eq]
theorem State.hello_with {a b : State} {m : Option HandshakeMsg} (h : a.hello = m) (hk : b.pair.twinHello = a.pair.twinHello) : b.hello = m :=
  (State.hello_of_kept a hk).trans h
theorem State.hello_of_pair {a b : State} (h : b.pair = a.pair) : b.hello = a.hello := State.hello_of_kept a (congrArg Pair.twinHello h)
theorem State.hello_of_still {a b : State} (h : b.still = a.still) : b.hello = a.hello := State.hello_of_pair (State.pair_of_still h)

theorem State.foldl_hello {α : Type} {f : State → α → State} (h : ∀ s x, (f s x).hello = s.hello) (s : State) (l : List α) : (l.foldl f s).hello = s.hello :=
  List.foldlRecOn (motive := fun t : State => t.hello = s.hello) l f rfl (fun t ht x _ => (h t x).trans ht)

theorem State.hello_ite {c : Prop} [Decidable c] {a b s : State} (ha : a.hello = s.hello) (hb : b.hello = s.hello) : (if c then a else b).hello = s.hello := by
  split
  · exact ha
  · exact hb

theorem State.wr_hello (s : State) (f : Fld) (v i a : Nat) : (s.wr f v i a).hello = s.hello := State.hello_of_pair (State.wr_pair ..)
theorem State.raise_hello (s : State) (p n : Nat) : (s.raise p n).hello = s.hello := State.hello_of_pair (State.raise_pair ..)
theorem State.raiseIf_hello (s : State) (c : Bool) (p n : Nat) : (s.raiseIf c p n).hello = s.hello := State.hello_of_pair (State.raiseIf_pair ..)
theorem State.modQp_hello (s : State) (n : Nat) (f : Qp → Qp) : (s.modQp n f).hello = s.hello := State.hello_of_pair (State.modQp_pair ..)
theorem State.setQf_hello (s : State) (n w hi lo v : Nat) : (s.setQf n w hi lo v).hello = s.hello := State.hello_of_pair (State.setQf_pair ..)
theorem State.sendLink_hello (s : State) (e : Nat) (b : LinkBody) : (s.sendLink e b).hello = s.hello := State.hello_of_pair (State.sendLink_pair ..)
theorem State.queueTx_hello (s : State) (f : TxFrame) (l : List Nat) : (s.queueTx f l).hello = s.hello := State.hello_of_still (State.queueTx_still ..)

/-! ### Roles, regions, epochs -/

theorem State.setRole_hello (s : State) (r : Nat) : (s.setRole r).hello = s.hello := (State.wr_hello ..).trans (State.hello_of_pair (State.setStat_pair ..))

theorem State.setMaster_hello (s : State) (b : Nat) : (s.setMaster b).hello = s.hello := State.hello_ite rfl ((State.raise_hello ..).trans (State.wr_hello ..))

theorem State.allOwned_hello (s : State) (b : Nat) : (s.allOwned b).hello = s.hello := State.hello_of_kept s rfl
theorem State.serveAll_hello (s : State) : s.serveAll.hello = s.hello := State.hello_of_kept s rfl

theorem State.stage_hello (s : State) (r : EpochRec) : (s.stage r).hello = s.hello := State.hello_ite (State.hello_of_kept s rfl) (State.hello_of_kept s rfl)

theorem State.stageQp_hello (s : State) (n : Nat) : (s.stageQp n).hello = s.hello := State.stage_hello ..

theorem State.stageSetting_hello (s : State) (n page off : Nat) (v : Word64) : (s.stageSetting n page off v).hello = s.hello :=
  State.hello_with (s.stage_hello (.config page off v)) rfl

theorem State.openNext_hello (s : State) : s.openNext.hello = s.hello := by
  unfold State.openNext
  extract_lets n recs src s1 held src2 s2 s3
  refine State.hello_ite rfl ((State.wr_hello ..).trans ?_)
  have hs2 : s2.hello = s.hello := State.hello_of_kept s rfl
  exact (State.foldl_hello (fun u c => u.stageSetting_hello ..) s2 held).trans hs2

theorem State.openFirst_hello (s : State) (n at_ : Nat) : (s.openFirst n at_).hello = s.hello := by
  unfold State.openFirst
  extract_lets src u
  have hu : u.hello = s.hello := State.hello_of_kept s rfl
  exact (State.openNext_hello _).trans ((State.wr_hello ..).trans hu)

theorem State.stageAddrs_hello (s : State) : s.stageAddrs.hello = s.hello :=
  State.foldl_hello (fun u _ => State.hello_ite (u.stage_hello _) rfl) s _

theorem State.stageAll_hello (s : State) : s.stageAll.hello = s.hello := by
  have hstaged {α : Type} (g : State → α → EpochRec) (u : State) (l : List α) : (l.foldl (fun u x => u.stage (g u x)) u).hello = u.hello :=
    State.foldl_hello (fun u x => u.stage_hello _) u l
  unfold State.stageAll
  extract_lets seq keys tenants regions quotas tiers chains ops
  have hkeys : keys.hello = s.hello := hstaged (fun u (e : Nat × Key) => .prot 0 e.1 seq (u.protEntry 0 e.1)) s _
  have htenants : tenants.hello = s.hello := (State.foldl_hello (fun u _ => State.hello_ite rfl (u.stage_hello _)) keys _).trans hkeys
  have hregions : regions.hello = s.hello := (hstaged (fun u (e : Nat × Region) => .prot 2 e.1 seq (u.protEntry 2 e.1)) tenants _).trans htenants
  have hquotas : quotas.hello = s.hello := (hstaged (fun u (e : Nat × Nat) => .prot 3 e.1 seq (u.protEntry 3 e.1)) regions _).trans hregions
  have htiers : tiers.hello = s.hello := (hstaged (fun u (e : Nat × Nat) => .prot 4 e.1 seq (u.protEntry 4 e.1)) quotas _).trans hquotas
  have hchains : chains.hello = s.hello := (hstaged (fun _ (e : Nat × List Word64) => .chain false e.1 e.2) tiers _).trans htiers
  have hops : ops.hello = s.hello := (hstaged (fun _ (e : Nat × List Word64) => .chain true e.1 e.2) chains _).trans hchains
  exact (State.foldl_hello (fun u _ => State.hello_ite (u.stageQp_hello _) rfl) ops _).trans hops

theorem State.startResync_hello (s : State) (plan : Option (List Nat)) (b : Bool) : (s.startResync plan b).hello = s.hello := by
  unfold State.startResync
  extract_lets total regs u v src w
  have hu : u.hello = s.hello := (State.wr_hello ..).trans ((State.wr_hello ..).trans (State.wr_hello ..))
  have hv : v.hello = s.hello := (State.wr_hello ..).trans ((State.wr_hello ..).trans hu)
  exact (State.raise_hello ..).trans (State.hello_with hv rfl)

theorem State.opTo_hello (s : State) (b : Bool) (c : Nat) : (s.opTo b c).hello = s.hello := by
  unfold State.opTo
  extract_lets u v w
  have hu : u.hello = s.hello := State.wr_hello ..
  have hv : v.hello = s.hello := (State.wr_hello ..).trans ((State.wr_hello ..).trans hu)
  have hw : w.hello = s.hello := (State.hello_of_pair (State.inc_pair ..)).trans hv
  exact State.hello_ite hu (State.hello_with hw rfl)

theorem State.opEval_hello (s : State) : s.opEval.hello = s.hello := by
  unfold State.opEval
  split
  · rfl
  · split
    · exact s.opTo_hello ..
    · exact s.wr_hello ..

theorem State.enterService_hello (s : State) : s.enterService.hello = s.hello := by
  unfold State.enterService
  extract_lets src src2 u v
  have hu : u.hello = s.hello := State.hello_of_kept s rfl
  have hv : v.hello = s.hello := (State.foldl_hello (fun w p => w.wr_hello ..) u _).trans hu
  refine State.hello_ite ((State.opEval_hello _).trans ?_) rfl
  exact (State.hello_of_pair (State.setStat_pair ..)).trans ((State.wr_hello ..).trans hv)

theorem State.holdOwn_hello (s : State) : s.holdOwn.hello = s.hello := by
  unfold State.holdOwn
  refine State.hello_ite ?_ rfl
  split
  · exact (State.wr_hello ..).trans (State.hello_of_kept s rfl)
  · rfl

/-! ### Work that ends -/

theorem State.dropMsg_hello (s : State) (n : Nat) : (s.dropMsg n).hello = s.hello := by
  obtain ⟨u, ⟨hu, he⟩ | ⟨_, he⟩⟩ := s.dropMsg_eq n
  · rw [he, State.modQp_hello, State.hello_of_still hu]
  · rw [he]

theorem State.dropOps_hello (s : State) (f : Op → Bool) : (s.dropOps f).hello = s.hello := by
  obtain ⟨u, _, _, _, _, _, hu, he⟩ := s.dropOps_eq f
  rw [he]
  exact State.hello_with (State.hello_of_still hu) rfl

theorem State.dropSends_hello (s : State) (n : Nat) : (s.dropSends n).hello = s.hello := (State.hello_of_still (s.dropSends_still n)).trans (s.modQp_hello ..)

theorem State.setRun_hello (s : State) (i : Nat) (r : Run) : (s.setRun i r).hello = s.hello := State.hello_of_kept s rfl

theorem State.freeRun_hello (s : State) (i : Nat) : (s.freeRun i).hello = s.hello := by
  unfold State.freeRun
  extract_lets r u v
  have hu : u.hello = s.hello := State.hello_of_still (s.unreserve_still ..)
  have hv : v.hello = s.hello := (State.foldl_hello (fun w h => State.hello_of_still ((w.freeRx h).afterFree_still h.1 |>.trans (w.freeRx_still h))) u r.held).trans hu
  exact (State.setRun_hello ..).trans ((State.foldl_hello (fun w st => State.hello_of_still (w.dropHold_still ..)) v r.stamps).trans hv)

theorem State.dropPartials_hello (s : State) : s.dropPartials.hello = s.hello :=
  (State.hello_of_still (State.afterFree_still ..)).trans (State.hello_of_kept s rfl)

theorem State.dropWork_hello (s : State) : s.dropWork.hello = s.hello := by
  unfold State.dropWork
  extract_lets u v w
  have hu : u.hello = s.hello := State.foldl_hello (fun x e => State.hello_ite (x.dropMsg_hello _) rfl) s s.qps
  have hv : v.hello = s.hello := (State.foldl_hello (fun x (e : Nat × Run) => x.freeRun_hello e.1) u _).trans hu
  have hw : w.hello = s.hello := (State.dropPartials_hello _).trans ((v.dropOps_hello _).trans hv)
  exact State.hello_with hw rfl

theorem State.returnAddrs_hello (s : State) : s.returnAddrs.hello = s.hello :=
  (State.foldl_hello (fun u _ => u.raise_hello ..) _ _).trans (State.hello_of_kept s rfl)

theorem State.setPool_hello (s : State) (n : Nat) : (s.setPool n).hello = s.hello := by
  unfold State.setPool
  extract_lets cs k old u src v
  have hu : u.hello = s.hello := by
    unfold u
    refine State.foldl_hello (fun x c => ?_) s cs
    exact State.hello_of_kept x rfl
  exact (State.wr_hello ..).trans ((State.wr_hello ..).trans (State.hello_with hu rfl))

theorem State.adopt_hello (s : State) (m : HandshakeMsg) : (s.adopt m).hello = s.hello := by
  unfold State.adopt
  extract_lets t p c q u v w x
  have hu : u.hello = s.hello := State.hello_of_kept s rfl
  have hv : v.hello = s.hello := (State.wr_hello ..).trans hu
  have hw : w.hello = s.hello := (State.wr_hello ..).trans ((State.wr_hello ..).trans ((State.wr_hello ..).trans hv))
  have hx : x.hello = s.hello := (State.wr_hello ..).trans hw
  exact State.hello_ite hx ((x.setPool_hello _).trans hx)

theorem State.disarmFor_hello (s : State) (n : Nat) : (s.disarmFor n).hello = s.hello := by
  unfold State.disarmFor
  extract_lets hit some_ out u
  have hu : u.hello = s.hello := by
    unfold u
    refine State.foldl_hello (fun v e => ?_) s out
    exact (State.stage_hello ..).trans (State.hello_of_kept v rfl)
  exact (State.raiseIf_hello ..).trans hu

theorem State.qpError_hello (s : State) (n cause : Nat) : (s.qpError n cause).hello = s.hello := by
  unfold State.qpError
  extract_lets a b c d e f
  have ha : a.hello = s.hello := (State.setQf_hello ..).trans (State.setQf_hello ..)
  have hc : c.hello = s.hello := (State.modQp_hello ..).trans ((State.dropSends_hello ..).trans ((State.dropMsg_hello ..).trans ha))
  have he : e.hello = s.hello := (State.disarmFor_hello ..).trans ((State.setQf_hello ..).trans hc)
  have hf : f.hello = s.hello := (State.hello_of_still (State.smpDrop_still ..)).trans ((State.raiseIf_hello ..).trans he)
  exact State.hello_ite ((State.stageQp_hello ..).trans hf) rfl

theorem State.sourceLeft_hello (s : State) (a : Option IpAddr) : (s.sourceLeft a).hello = s.hello := by
  unfold State.sourceLeft
  split
  · exact State.hello_ite rfl (State.hello_of_kept s rfl)
  · rfl

theorem State.qpReset_hello (s : State) (n : Nat) : (s.qpReset n).hello = s.hello := by
  unfold State.qpReset
  extract_lets t src a b c r d
  have ha : a.hello = s.hello := (State.dropOps_hello ..).trans (State.dropMsg_hello ..)
  have hb : b.hello = s.hello := (State.hello_of_still (State.qpForget_still ..)).trans ((State.hello_of_still (State.ctxHold_still ..)).trans ((State.dropSends_hello ..).trans ha))
  have hc : c.hello = s.hello := State.hello_with hb rfl
  have hd : d.hello = s.hello := State.hello_ite hc ((State.hello_of_still (State.setTenant_still ..)).trans hc)
  exact (State.stageQp_hello ..).trans ((State.sourceLeft_hello ..).trans hd)

theorem State.allToError_hello (s : State) (l : List Nat) (cause : Nat) : (s.allToError l cause).hello = s.hello := by
  have herror (u : State) (n : Nat) : ((u.qpError n cause).sendDreq n).hello = u.hello := (State.queueTx_hello ..).trans (u.qpError_hello ..)
  refine State.foldl_hello (fun u n => ?_) s l
  dsimp only
  split
  · exact (State.qpReset_hello ..).trans (u.queueTx_hello ..)
  · exact herror u n
  · exact herror u n
  · rfl

theorem State.announceAll_hello (s : State) (p : Nat) : (s.announceAll p).hello = s.hello := by
  refine State.foldl_hello (fun u a => State.hello_ite rfl ((State.hello_of_still (State.modPort_still ..)).trans ?_)) s _
  exact (State.queueTx_hello ..).trans (State.hello_of_still (State.hptCount_still ..))

/-! ### Commands that end -/

theorem State.rqMsix_hello (s : State) (q : Nat) : (s.rqMsix q).hello = s.hello := State.hello_ite (State.hello_of_pair (State.msix_pair ..)) rfl

theorem State.rqError_hello (s : State) (q code i : Nat) : (s.rqError q code i).hello = s.hello :=
  (State.rqMsix_hello ..).trans ((State.raise_hello ..).trans ((State.wr_hello ..).trans ((State.wr_hello ..).trans (State.wr_hello ..))))

theorem State.postNow_hello (s : State) (q : Nat) (p : Posting) : (s.postNow q p).hello = s.hello := by
  unfold State.postNow
  extract_lets o tail phase w0 u next v w
  have hu : u.hello = s.hello := State.hello_of_pair (State.emit_pair ..)
  have hv : v.hello = s.hello := (State.wr_hello ..).trans hu
  have hw : w.hello = s.hello := State.hello_ite ((State.wr_hello ..).trans hv) hv
  exact State.hello_ite (s.rqError_hello ..) (State.hello_ite ((w.rqMsix_hello q).trans hw) hw)

theorem postAll_hello (k : Nat) (s : State) (q : Nat) : (postAll k s q).hello = s.hello := by
  induction k generalizing s with
  | zero => rfl
  | succ k ih =>
    unfold postAll
    refine State.hello_ite rfl ?_
    split
    · exact State.hello_ite ((ih _).trans ((State.postNow_hello ..).trans (State.hello_of_pair (State.setRq_pair ..)))) rfl
    · exact State.hello_ite (State.wr_hello ..) rfl

theorem State.complete_hello (s : State) (q st : Nat) (r : Word64) : (s.complete q st r).hello = s.hello := by
  unfold State.complete
  refine State.hello_ite (State.hello_of_pair (State.setRq_pair ..)) ?_
  split
  · rfl
  · exact (postAll_hello ..).trans (State.hello_of_pair (State.setRq_pair ..))

theorem rqAdvance_hello (k : Nat) (s : State) (q : Nat) : (rqAdvance k s q).hello = s.hello := by
  induction k generalizing s with
  | zero => rfl
  | succ k ih =>
    unfold rqAdvance
    split
    · rfl
    · refine State.hello_ite rfl ?_
      split
      · exact (ih _).trans (s.complete_hello ..)
      · rfl

theorem State.finishCmd_hello (s : State) (q st r : Nat) : (s.finishCmd q st r).hello = s.hello := (rqAdvance_hello ..).trans (s.complete_hello ..)

theorem State.enterPaired_hello (s : State) : s.enterPaired.hello = s.hello := by
  unfold State.enterPaired
  extract_lets u v src w
  have hu : u.hello = s.hello := (State.raise_hello ..).trans ((State.setMaster_hello ..).trans (s.setRole_hello _))
  have hv : v.hello = s.hello := (State.wr_hello ..).trans hu
  have hw : w.hello = s.hello := State.hello_with hv rfl
  split
  · exact (State.finishCmd_hello ..).trans ((State.raise_hello ..).trans (State.hello_with hw rfl))
  · exact hw

/-! ### Decisions -/

theorem State.becomeStandby_hello (s : State) (m : HandshakeMsg) (full : Bool) : (s.becomeStandby m full).hello = s.hello := by
  unfold State.becomeStandby
  extract_lets mine delta src u v dur pair w
  have hu : u.hello = s.hello := State.hello_of_kept s rfl
  have hv : v.hello = s.hello :=
    (State.setRole_hello ..).trans ((State.allOwned_hello ..).trans ((State.adopt_hello ..).trans ((State.dropWork_hello _).trans ((State.returnAddrs_hello _).trans hu))))
  have hw : w.hello = s.hello := State.hello_with hv rfl
  split
  extract_lets x y z
  have hx : x.hello = s.hello := (State.stageAddrs_hello _).trans ((State.openFirst_hello ..).trans ((State.setMaster_hello ..).trans ((State.serveAll_hello _).trans hw)))
  have hy : y.hello = s.hello := (State.raise_hello ..).trans ((State.wr_hello ..).trans ((State.wr_hello ..).trans hx))
  have hz : z.hello = s.hello := State.hello_ite ((State.sendLink_hello ..).trans hy) hy
  exact (State.enterService_hello _).trans hz

theorem State.becomeSource_hello (s : State) (m : HandshakeMsg) (full : Bool) : (s.becomeSource m full).hello = s.hello := by
  unfold State.becomeSource
  extract_lets delta fresh u v
  have hu : u.hello = s.hello := State.hello_ite ((State.serveAll_hello _).trans (State.allOwned_hello ..)) rfl
  have hv : v.hello = s.hello := (State.setMaster_hello ..).trans ((State.setRole_hello ..).trans hu)
  split
  extract_lets w chunks x
  have hw : w.hello = s.hello := (State.stageAll_hello _).trans ((State.stageAddrs_hello _).trans ((State.openFirst_hello ..).trans hv))
  have hx : x.hello = s.hello := (State.startResync_hello ..).trans hw
  exact (State.enterService_hello _).trans (State.hello_with hx rfl)

theorem State.splitLoser_hello (s : State) (m : HandshakeMsg) : (s.splitLoser m).hello = s.hello :=
  (State.becomeStandby_hello ..).trans ((State.allToError_hello ..).trans (s.raise_hello ..))

theorem State.splitWinner_hello (s : State) (m : HandshakeMsg) : (s.splitWinner m).hello = s.hello := by
  unfold State.splitWinner
  extract_lets u v
  have hv : v.hello = s.hello := (State.foldl_hello (fun w p => State.hello_ite (w.announceAll_hello p) rfl) u _).trans (s.allToError_hello ..)
  exact (State.becomeSource_hello ..).trans hv

theorem State.bothStart_hello (s : State) (m : HandshakeMsg) : (s.bothStart m).hello = s.hello := by
  unfold State.bothStart
  extract_lets k okSelf okTwin src u auth
  have hu : u.hello = s.hello := State.hello_of_kept s rfl
  split
  extract_lets a b c
  have ha : a.hello = s.hello := (State.stageAddrs_hello _).trans ((State.openFirst_hello ..).trans ((State.serveAll_hello _).trans (s.allOwned_hello _)))
  have hb : b.hello = s.hello :=
    (State.stageAddrs_hello _).trans ((State.openFirst_hello ..).trans ((State.serveAll_hello _).trans ((State.setMaster_hello ..).trans ((State.setRole_hello ..).trans hu))))
  have hc : c.hello = s.hello := State.hello_ite ((State.stageAll_hello _).trans hb) hb
  refine State.hello_ite ((State.enterService_hello _).trans ((State.enterPaired_hello _).trans ha)) (State.hello_ite ?_ (State.hello_ite ?_ ?_))
  · exact (State.enterService_hello _).trans ((State.startResync_hello ..).trans hc)
  · exact (State.becomeSource_hello ..).trans (State.hello_ite rfl s.holdOwn_hello)
  · exact State.becomeStandby_hello ..

/-- Whatever is decided, the HANDSHAKE decided on stays. -/
theorem State.decide_hello (s : State) (m : HandshakeMsg) : (s.decide_ m).hello = some m := by
  unfold State.decide_
  extract_lets same src src2 u src3 v w src4 g prefMine keep
  have hv : v.hello = some m := v.hello_eq
  have hlink : (if (v.role == 1 || v.role == 7) && g == m.pairGen then v else if keep then v.splitWinner m else v.splitLoser m).hello = v.hello :=
    State.hello_ite rfl (State.hello_ite (v.splitWinner_hello m) (v.splitLoser_hello m))
  refine Eq.trans ?_ hv
  refine State.hello_ite ((State.raise_hello ..).trans (v.setRole_hello _)) (State.hello_ite ?_ ?_)
  · exact State.hello_of_kept v rfl
  refine State.hello_ite (v.becomeStandby_hello ..) (State.hello_ite hlink ?_)
  exact State.hello_ite (v.becomeSource_hello ..) (State.hello_ite rfl (v.bothStart_hello m))

/-- An event of the mirror unit changes no role. -/
theorem State.role_raise (s : State) (n : Nat) : (s.raise 0xB n).role = s.role := by
  have hflags (m : Word64) : (s.setFlags 0xB m).role = s.role := by
    unfold State.role State.rd
    rw [State.reg_setFlags, if_neg (by decide)]
  unfold State.raise State.raiseWith
  split
  · extract_lets u v
    have hv : v.role = s.role := by
      unfold v
      split
      · exact (State.rd_wr_apart _ _ _ _ _ _ _ _ (by decide) (by decide) (by decide) (by decide)).trans (hflags _)
      · exact hflags _
    exact hv
  · rfl

/-- A twin of another part or layout is refused: role CONFLICT, and its event is flagged. -/
theorem State.decide_conflict (s : State) {m : HandshakeMsg} (h : m.part ≠ 0x96 ∨ m.layout ≠ 1) : (s.decide_ m).role = 8 ∧ (s.decide_ m).flagged 0xB 2 = true := by
  unfold State.decide_
  extract_lets same src src2 u src3 v
  rw [if_pos h]
  obtain ⟨sev, hsev⟩ : ∃ sev, evSeverity 0xB 2 = some sev := ⟨_, rfl⟩
  refine ⟨?_, (State.raise_raisedIn _ 0xB 2 hsev rfl (by decide)).1⟩
  have hrole : (v.setRole 8).role = 8 := by
    unfold State.setRole State.setStat State.role
    dsimp only
    rw [State.rd_wr_other _ _ _ _ _ _ _ _ (by decide), State.rd_wr_apart _ _ _ _ _ _ _ _ (by decide) (by decide) (by decide) (by decide),
      State.rd_wr_same _ _ _ _ _ (by decide) (by decide)]
    rfl
  exact (State.role_raise ..).trans hrole

end Sys2Proof.Machine
end

section
/-! PROOFS. The statement about the twin's frames (R159, R328, R329, R332, R333, R343, R344, R346, R350 to R353, R359). -/

namespace Sys2Proof.Machine

/-- A twin's first HANDSHAKE in the start-up order's step 11, this one's own sent, is decided on; any other changes nothing. -/
theorem State.takeHandshake_ignored {s : State} (m : HandshakeMsg) (h : s.pair.twinHello.isSome = true ∨ s.rd GLB_START_STAT_PHASE < 11) : s.takeHandshake m = s := by
  unfold State.takeHandshake
  split
  · rfl
  · next hnone => rw [if_pos (h.resolve_left hnone)]

theorem State.takeHandshake_decides {s : State} (m : HandshakeMsg) (hnone : s.pair.twinHello = none) (hphase : 11 ≤ s.rd GLB_START_STAT_PHASE)
    (hsent : s.pair.hsSentAt.isSome = true) : s.takeHandshake m = s.decide_ m := by
  unfold State.takeHandshake
  rw [hnone, if_neg (by decide), if_neg (Nat.not_lt.mpr hphase), if_pos hsent]

/-- The HANDSHAKE decided on is the twin's. -/
theorem State.twinHello_decide (s : State) (m : HandshakeMsg) : (s.decide_ m).pair.twinHello = some m := (State.hello_eq _).symm.trans (s.decide_hello m)

section
variable {s u : State} {n : Nat} {h : LinkHdr}

/-- The state after a delivered frame: it is taken, then the strand and the twin's work go on. -/
theorem next_of_delivered {b : LinkBody} (hd : s.delivered n h b u) (f : State → LinkHdr → LinkBody → State) {v : State} (hv : f u h b = v) :
    (.next (s.takeLink n h b f) : Res) = .next (v.offCheck n).twinGo := by rw [State.takeLink_of_delivered hd, hv]

theorem exec_epochData {rs : List EpochRec} (hd : s.delivered n h (.epochData rs) u) :
    exec (.epochData n h rs) s = .next ((u.takeData h.epoch rs).applyNext.offCheck n).twinGo := next_of_delivered hd _ rfl

theorem exec_resync {m : ResyncMsg} (hd : s.delivered n h (.resync m) u) : exec (.resync n h m) s = .next ((u.takeResync h m).offCheck n).twinGo :=
  next_of_delivered hd _ rfl

theorem exec_sealFrame {m : SealMsg} (hd : s.delivered n h (.seal m) u) : exec (.sealFrame n h m) s = .next ((u.takeSealFrame h.epoch m).offCheck n).twinGo :=
  next_of_delivered hd _ rfl

theorem exec_sealAck (hd : s.delivered n h .sealAck u) : exec (.sealAck n h) s = .next ((u.takeSealAck h.epoch).offCheck n).twinGo := next_of_delivered hd _ rfl

/-- On a strand that is not UP a SEAL_ACK is not taken. -/
theorem exec_sealAck_down (hn : n < 8) (hdown : s.strandSt n ≠ 4) : exec (.sealAck n h) s = .next (s.offCheck n).twinGo :=
  congrArg (fun v : State => (.next v : Res)) (State.takeLink_of_down hn hdown h .sealAck _)

theorem exec_fwdReq {m : FwdReqMsg} (hd : s.delivered n h (.fwdReq m) u) : exec (.fwdReq n h m) s = .next ((u.takeFwdReq m).offCheck n).twinGo :=
  next_of_delivered hd _ rfl

theorem exec_fwdResp {m : FwdRespMsg} (hd : s.delivered n h (.fwdResp m) u) : exec (.fwdResp n h m) s = .next ((u.takeFwdResp h m).offCheck n).twinGo :=
  next_of_delivered hd _ rfl

theorem exec_heartbeat {m : HeartbeatMsg} (hd : s.delivered n h (.heartbeat m) u) : exec (.heartbeat n h m) s = .next ((u.takeHeartbeat m).offCheck n).twinGo :=
  next_of_delivered hd _ rfl

theorem exec_keyNext {g : Nat} (hd : s.delivered n h (.keyNext g) u) : exec (.keyNext n h g) s = .next ((u.keyNextTake g).offCheck n).twinGo :=
  next_of_delivered hd _ rfl

theorem exec_handshake {m : HandshakeMsg} (hd : s.delivered n h (.handshake m) u) : exec (.handshake n h m) s = .next ((u.takeHandshake m).offCheck n).twinGo :=
  next_of_delivered hd _ rfl

/-- A request for a region of the twin is answered NOT_OWNER. -/
theorem State.takeFwdReq_notOwner {m : FwdReqMsg} (h : WholeFwdReq u m) (howns : u.owns (regionOf m.poolOff) = false) :
    u.takeFwdReq m = (((((u.addLink (fwdCells m)).askIn .forwarded (u.rd HTH_PART_PKT_BASE_MIB) u.hearth.layout.pkt (4 * fwdCells m)).twinCtr 6).subLink (fwdCells m)).afterFree 96).fwdAnswer m
      .notOwner 0 := by
  obtain ⟨hpair, _, _⟩ := u.fwdHeld_kept m
  rw [State.takeFwdReq_whole h, State.fwdExecute_pool _ _ h.notProt h.notDiscard h.notStop (hpair.symm ▸ h.noneKept),
    State.fwdRefused_notOwned ((u.fwdHeld_owns m _).trans howns), u.fwdHeld_notOwned howns]

/-- A request for a region owned and served here becomes an operation. -/
theorem State.takeFwdReq_owner {m : FwdReqMsg} (h : WholeFwdReq u m) (howns : u.owns (regionOf m.poolOff) = true) (hserved : (u.region (regionOf m.poolOff)).served = true) :
    u.takeFwdReq m = ((u.fwdHeld m).twinCtr 6).addOp (fwdOp m (fwdCells m)) := by
  obtain ⟨hpair, _, _⟩ := u.fwdHeld_kept m
  rw [State.takeFwdReq_whole h, State.fwdExecute_pool _ _ h.notProt h.notDiscard h.notStop (hpair.symm ▸ h.noneKept),
    State.fwdRefused_served ((u.fwdHeld_owns m _).trans howns) (by rw [u.fwdHeld_region]; exact hserved)]

end

/-- Settles O55. -/
theorem twinFrames : Obligations.TwinFrames := by
  intro s u n h inc old
  refine ⟨fun b hn hup hcode htag hnak hqueue hseq hvseq hheld => s.delivered_next hn hup hcode htag hnak hqueue hseq hvseq hheld, fun hn hdown => ?strandDown,
    fun rs hd happlied => ?epochData, fun m hd happlied hquarter => ?resync, fun m hd happlied hopen => ?sealFrame, fun e t0 hd hfind hclosed => ?sealAck,
    fun m hd => ⟨fun hdrop => ?dropped, fun hopen hrole hfirst hlast hprot hdiscard hstop hkept hpartial => ⟨fun howns => ?notOwner, fun howns hserved => ?owner⟩⟩,
    fun m f o hd hfind hop hdone hwhole => ?answer, fun m hd h6 h7 => ?heartbeat, fun g hd => ?keyNext,
    fun m hd => ⟨fun hignored => ?ignored, fun hnone hphase hsent => ⟨?decided, u.twinHello_decide m, u.decide_conflict⟩⟩⟩
  case strandDown =>
    exact exec_sealAck_down hn hdown
  case epochData =>
    exact ⟨u.takeData h.epoch rs, exec_epochData hd, u.modIncoming_regs .., _, u.modIncoming_find happlied (fun _ => rfl), rfl, rfl, rfl⟩
  case resync =>
    obtain ⟨a, b, c, d, e, f, rfl⟩ := hquarter
    have hfind := u.modIncoming_find (f := fun i => { i with resync := i.resync ++ [.quarter a b c d e f] }) happlied (fun _ => rfl)
    exact ⟨_, exec_resync hd, u.modIncoming_regs .., _, hfind, rfl, rfl⟩
  case sealFrame =>
    obtain ⟨l, hl, htaken⟩ := u.takeSealFrame_closed h.epoch m hopen
    have hfind := u.modIncoming_find (f := fun i => { i with sealed := some m }) happlied (fun _ => rfl)
    rw [hl] at hfind
    refine ⟨_, (exec_sealFrame hd).trans (congrArg (fun v : State => (.next (v.offCheck n).twinGo : Res)) htaken), rfl, fun hfinal => ?_, rfl, _, hfind, rfl, rfl⟩
    exact congrArg (· || u.pair.finalSeen) hfinal
  case sealAck =>
    obtain ⟨hepochs, hctr⟩ := State.takeSealAck_closed hfind hclosed
    exact ⟨_, exec_sealAck hd, hepochs, hctr⟩
  case dropped =>
    rw [exec_fwdReq hd, u.takeFwdReq_dropped m hdrop]
  case notOwner =>
    rw [exec_fwdReq hd, State.takeFwdReq_notOwner ⟨hopen, hrole, hfirst, hlast, hprot, hdiscard, hstop, hkept, hpartial⟩ howns]
  case owner =>
    have htaken := State.takeFwdReq_owner ⟨hopen, hrole, hfirst, hlast, hprot, hdiscard, hstop, hkept, hpartial⟩ howns hserved
    obtain ⟨_, hdp, hcharge⟩ := u.fwdHeld_kept m
    obtain ⟨_, _, _, _, _, hctr⟩ := u.fwdHeld_eq m
    refine ⟨_, { fwdOp m (fwdCells m) with id := (u.fwdHeld m).dp.nextOp }, exec_fwdReq hd, ?_, rfl, rfl, rfl, rfl, rfl, rfl, rfl, ?_, ?_⟩
    · rw [htaken]
      exact congrArg (fun d : DataPath => d.ops ++ [{ fwdOp m (fwdCells m) with id := (u.fwdHeld m).dp.nextOp }]) hdp
    · rw [htaken]
      exact hcharge
    · rw [htaken, ← hctr]
      exact (u.fwdHeld m).rd_twinCtr 6 1
  case answer =>
    obtain ⟨⟨o', hfound, hplaced, hleft, hresult, hgot⟩, hout, hrsv⟩ := State.takeFwdResp_done h hfind hop hdone hwhole
    exact ⟨_, o', exec_fwdResp hd, hfound, hplaced, hleft, hresult, hgot, hout, hrsv⟩
  case heartbeat =>
    rw [exec_heartbeat hd, u.takeHeartbeat_plain m h6 h7]
  case keyNext =>
    obtain ⟨hlink, hstrands, hgen, hregs⟩ := u.keyNextTake_effect g
    exact ⟨_, exec_keyNext hd, hlink, hstrands, hgen, hregs⟩
  case ignored =>
    rw [exec_handshake hd, State.takeHandshake_ignored m hignored]
  case decided =>
    rw [exec_handshake hd, State.takeHandshake_decides m hnone hphase hsent]

end Sys2Proof.Machine
end

section
/-! PROOFS. Key entries that become resident, the drain of protection changes and DRAIN_SLOW (R180, R191, R193, R195, R197), settling O45. -/

namespace Sys2Proof.Machine

/-! ### The room for a key entry (R180) -/

theorem State.keyPlace_of_room {s : State} (h : s.prot.resident.length < s.keyRoom) : s.keyPlace = some s.prot.resident := by
  unfold State.keyPlace
  rw [if_pos h]

/-- Where the table portion is full, the least recently used entry that no message holds gives its room. -/
theorem State.keyPlace_of_full {s : State} {a b : List Nat} {k : Nat} (hfull : s.keyRoom ≤ s.prot.resident.length) (hres : s.prot.resident = a ++ k :: b)
    (hheld : ∀ x ∈ a, ∃ h ∈ s.prot.holds, h.2.2 = x) (hfree : ∀ h ∈ s.prot.holds, h.2.2 ≠ k) : s.keyPlace = some (s.prot.resident.erase k) := by
  have hfind : s.prot.resident.find? (fun k => !s.prot.holds.any (fun h => h.2.2 == k)) = some k := by
    refine List.find?_eq_some_iff_append.mpr ⟨by simpa using hfree, a, b, hres, fun x hx => ?_⟩
    obtain ⟨h, hmem, hkey⟩ := hheld x hx
    simpa using ⟨h.1, h.2.1, hkey ▸ hmem⟩
  unfold State.keyPlace
  rw [if_neg (Nat.not_lt.mpr hfull), hfind]

/-! ### A load that ends (R180) -/

/-- A counter that saturates reads one step on, its largest value at most. -/
theorem State.rd_satInc_same (s : State) (f : Fld) (n i a : Nat) (h : f.hi < 64) (hl : f.lo ≤ f.hi) :
    (s.satInc f n i a).rd f i a = min (2 ^ (f.hi + 1 - f.lo) - 1) (s.rd f i a + n) := by
  have hpos : 0 < 2 ^ (f.hi + 1 - f.lo) := Nat.two_pow_pos _
  unfold State.satInc
  rw [State.rd_wr_same _ _ _ _ _ h hl, Nat.mod_eq_of_lt (by omega)]

/-- The entry of key k, its load ended, is the most recently used of those that had room for it. -/
def State.keyLoaded (s : State) (k : Nat) (room : List Nat) : State :=
  (({ s with prot := { s.prot with resident := useLru room k, loads := s.prot.loads.filter (· != k) } } : State).satInc KEY_KCACHE_MISSES 1).wr
    KEY_KCACHE_RESIDENT (useLru room k).length

theorem exec_keyEntryLoad {s : State} {k : Nat} {room : List Nat} (hload : k ∈ s.prot.loads) (hplace : s.keyPlace = some room) :
    exec (.keyEntryLoad k) s = .next (s.keyLoaded k room) := by
  refine congrArg Host.Outcome.next ?_
  unfold State.keyEntryLoad
  rw [if_neg (by simpa using hload), hplace]
  rfl

/-- No load of the key was asked for, or messages hold every resident entry: nothing changes. -/
theorem exec_keyEntryLoad_waits {s : State} {k : Nat} (h : k ∉ s.prot.loads ∨ s.keyPlace = none) : exec (.keyEntryLoad k) s = .next s := by
  refine congrArg Host.Outcome.next ?_
  unfold State.keyEntryLoad
  split
  · rfl
  · next hload => rw [h.resolve_left (by simpa using hload)]

theorem State.keyLoaded_prot (s : State) (k : Nat) (room : List Nat) :
    (s.keyLoaded k room).prot = { s.prot with resident := useLru room k, loads := s.prot.loads.filter (· != k) } := by
  simp [State.keyLoaded]

theorem State.keyLoaded_misses (s : State) (k : Nat) (room : List Nat) :
    (s.keyLoaded k room).rd KEY_KCACHE_MISSES = min (2 ^ 32 - 1) (s.rd KEY_KCACHE_MISSES + 1) := by
  unfold State.keyLoaded
  rw [State.rd_wr_apart _ _ _ _ _ _ _ _ (by decide) (by decide) (by decide) (by decide), State.rd_satInc_same _ _ _ _ _ (by decide) (by decide)]
  rfl

theorem State.keyLoaded_resident (s : State) (k : Nat) (room : List Nat) :
    (s.keyLoaded k room).rd KEY_KCACHE_RESIDENT = (useLru room k).length % 2 ^ 21 := State.rd_wr_same _ _ _ _ _ (by decide) (by decide)

theorem State.keyLoaded_regsKept (s : State) (k : Nat) (room : List Nat) : regsKept s (s.keyLoaded k room) [regKey 7 0x138] :=
  ((regsKept.of_regs rfl _).trans (State.wr_regsKept _ KEY_KCACHE_MISSES _ 0 0)).trans (State.wr_regsKept _ KEY_KCACHE_RESIDENT _ 0 0)

theorem State.keyLoaded_eq (s : State) (k : Nat) (room : List Nat) :
    s.keyLoaded k room = { s with regs := (s.keyLoaded k room).regs, prot := (s.keyLoaded k room).prot } := rfl

/-! ### DRAINED_SEQ (R193) -/

/-- What DRAINED_SEQ may rise to: the smallest stamp in force, at both twins while they are paired. -/
def State.drainLevel (s : State) : Nat := if s.paired then min s.protSeq (min s.prot.ownFloor s.prot.twinFloor) else s.stampFloor

theorem State.stampFloor_le (s : State) : s.stampFloor ≤ s.protSeq := by
  unfold State.stampFloor
  split
  · exact Nat.min_le_right ..
  · exact Nat.le_refl _

theorem State.stampFloor_of_no_holds {s : State} (h : s.prot.holds = []) : s.stampFloor = s.protSeq := by
  unfold State.stampFloor State.minStamp
  rw [h]
  rfl

theorem State.drainLevel_le (s : State) : s.drainLevel ≤ s.protSeq := by
  unfold State.drainLevel
  split
  · exact Nat.min_le_left ..
  · exact s.stampFloor_le

theorem State.drainLevel_of_unpaired {s : State} (hpair : s.paired = false) (hholds : s.prot.holds = []) : s.drainLevel = s.protSeq := by
  unfold State.drainLevel
  rw [hpair, if_neg (by decide), State.stampFloor_of_no_holds hholds]

theorem State.drainLevel_of_paired {s : State} (h : s.paired = true) : s.drainLevel = min s.protSeq (min s.prot.ownFloor s.prot.twinFloor) := by
  unfold State.drainLevel
  rw [if_pos h]

/-- GEN_DRAIN and DRAIN_HOLD are written; DRAINED_SEQ rises to its level and never falls. -/
def State.drainShown (s : State) (idle holders oldest : Nat) : State :=
  (((s.wr KEY_GEN_DRAIN_DRAINED_SEQ (max s.drainLevel (s.rd KEY_GEN_DRAIN_DRAINED_SEQ))).wr KEY_GEN_DRAIN_IDLE idle).wr KEY_DRAIN_HOLD_HOLDERS holders).wr
    KEY_DRAIN_HOLD_OLDEST_QPN oldest

theorem State.rd_drainShown (s : State) (idle holders oldest : Nat) :
    (s.drainShown idle holders oldest).rd KEY_GEN_DRAIN_DRAINED_SEQ = max s.drainLevel (s.rd KEY_GEN_DRAIN_DRAINED_SEQ) := by
  have hlevel : s.drainLevel < 2 ^ 48 := s.drainLevel_le.trans_lt (s.rd_lt KEY_PROT_SEQ_SEQ 0 0)
  have hdrained : s.rd KEY_GEN_DRAIN_DRAINED_SEQ < 2 ^ 48 := s.rd_lt KEY_GEN_DRAIN_DRAINED_SEQ 0 0
  unfold State.drainShown
  rw [State.rd_wr_other _ _ _ _ _ _ _ _ (by decide), State.rd_wr_other _ _ _ _ _ _ _ _ (by decide),
    State.rd_wr_apart _ _ _ _ _ _ _ _ (by decide) (by decide) (by decide) (by decide), State.rd_wr_same _ _ _ _ _ (by decide) (by decide)]
  exact Nat.mod_eq_of_lt (Nat.max_lt.mpr ⟨hlevel, hdrained⟩)

/-- Behind what the registers show, only the watch of R197 changes: since when DRAINED_SEQ is below PROT_SEQ, and whether that was said. -/
theorem State.drainUpdate_eq (s : State) : ∃ idle holders oldest since said, let t := s.drainShown idle holders oldest
    s.drainUpdate = { t with prot := { t.prot with belowSince := since, slowSaid := said } } := by
  unfold State.drainUpdate
  extract_lets own seq floor d afterGen afterHolders shown
  obtain ⟨idle, holders, oldest, hshown⟩ : ∃ idle holders oldest, shown = s.drainShown idle holders oldest := ⟨_, _, _, rfl⟩
  clear_value shown
  subst hshown
  refine ⟨idle, holders, oldest, ?_⟩
  split_ifs <;> exact ⟨_, _, rfl⟩

theorem State.rd_drainUpdate (s : State) : s.drainUpdate.rd KEY_GEN_DRAIN_DRAINED_SEQ = max s.drainLevel (s.rd KEY_GEN_DRAIN_DRAINED_SEQ) := by
  obtain ⟨idle, holders, oldest, since, said, h⟩ := s.drainUpdate_eq
  exact (State.rd_congr (congrArg State.regs h) ..).trans (s.rd_drainShown idle holders oldest)

theorem State.rd_drainUpdate_of_le {s : State} (h : s.rd KEY_GEN_DRAIN_DRAINED_SEQ ≤ s.drainLevel) : s.drainUpdate.rd KEY_GEN_DRAIN_DRAINED_SEQ = s.drainLevel :=
  s.rd_drainUpdate.trans (Nat.max_eq_left h)

theorem State.drainUpdate_drainWaits (s : State) : s.drainUpdate.prot.drainWaits = s.prot.drainWaits := by
  obtain ⟨idle, holders, oldest, since, said, h⟩ := s.drainUpdate_eq
  rw [h]
  simp [State.drainShown]

/-! ### KEY_DRAIN_WAIT (R195) -/

@[simp] theorem State.running_prot (s : State) (q : Nat) : (s.running q).prot = s.prot := (congrArg State.prot (s.running_eq q)).trans rfl

/-- The command of queue q, in execution, waits alone for sequence number n. -/
def State.awaitsDrain (s : State) (q n : Nat) : State := { s.running q with prot := { (s.running q).prot with drainWaits := [(q, n)] } }

theorem State.rd_awaitsDrain (s : State) (q n : Nat) (f : Fld) (i a : Nat) : (s.awaitsDrain q n).rd f i a = s.rd f i a := State.rd_congr (s.running_regs q) f i a

theorem State.paired_awaitsDrain (s : State) (q n : Nat) : (s.awaitsDrain q n).paired = s.paired := by
  unfold State.paired State.role
  rw [State.rd_awaitsDrain]

theorem State.protSeq_awaitsDrain (s : State) (q n : Nat) : (s.awaitsDrain q n).protSeq = s.protSeq := s.rd_awaitsDrain ..

theorem State.drainLevel_awaitsDrain (s : State) (q n : Nat) : (s.awaitsDrain q n).drainLevel = s.drainLevel := by
  unfold State.drainLevel State.stampFloor State.minStamp
  rw [State.paired_awaitsDrain, State.protSeq_awaitsDrain]
  simp [State.awaitsDrain]

/-- One wait alone: it completes where DRAINED_SEQ has reached its number, else it stays. -/
theorem State.drainDone_of_one {s : State} {q n : Nat} (h : s.prot.drainWaits = [(q, n)]) :
    s.drainDone = if n ≤ s.drainUpdate.rd KEY_GEN_DRAIN_DRAINED_SEQ then
      ({ s.drainUpdate with prot := { s.drainUpdate.prot with drainWaits := [] } } : State).finishCmd q stOk (s.drainUpdate.rd KEY_GEN_DRAIN_DRAINED_SEQ)
    else s.drainUpdate := by
  have hwaits : s.drainUpdate.prot.drainWaits = [(q, n)] := s.drainUpdate_drainWaits.trans h
  unfold State.drainDone
  simp [hwaits]

/-- A KEY_DRAIN_WAIT that passes its checks while no other waits: its number is one not yet given, or it waits for it. -/
theorem exec_keyDrainWait {s : State} {q i : Nat} {c : RqCmd} (h : s.blockRuns q c 7 i 0x40 false) (hw1 : c.w1 = 0) (hcount : c.count = 0) (hlen : c.length = 0)
    (hw2 : c.w2 = 0) (hwaits : s.prot.drainWaits = []) :
    exec (.keyDrainWait q) s = .next (if s.protSeq < bits c.w5 47 0 then (s.running q).finishCmd q 0x40 0 else (s.awaitsDrain q (bits c.w5 47 0)).drainDone) := by
  have hseq : (s.running q).protSeq = s.protSeq := State.rd_congr (s.running_regs q) ..
  refine congrArg Host.Outcome.next ((State.blockCmd_blockRuns h (by simp [hw1, hcount, hlen, hw2]) _).trans ?_)
  simp only [hseq, State.awaitsDrain, State.running_prot, hwaits, List.nil_append]

/-! ### DRAIN_SLOW (R197) -/

/-- DRAIN_SLOW is raised at a moment, and raised no more until DRAINED_SEQ has caught up. -/
def State.saySlow (s : State) (due : Nat) : State :=
  { (s.upTo due).raise 7 2 with prot := { s.prot with slowSaid := true } }

theorem exec_drainSlow_raises {s : State} {t0 : Nat} (h : s.prot.belowSince = some t0) (hsaid : s.prot.slowSaid = false) :
    exec .drainSlow s = .next (s.saySlow (t0 + 100000000)) := by
  refine congrArg Host.Outcome.next ?_
  unfold State.drainSlow State.saySlow
  simp [h, hsaid, ms]

theorem exec_drainSlow_said {s : State} (h : s.prot.slowSaid = true) : exec .drainSlow s = .next s := by
  refine congrArg Host.Outcome.next ?_
  unfold State.drainSlow
  split
  · rw [if_pos h]
  · rfl

theorem exec_drainSlow_drained {s : State} (h : s.prot.belowSince = none) : exec .drainSlow s = .next s := by
  refine congrArg Host.Outcome.next ?_
  unfold State.drainSlow
  rw [h]

theorem State.saySlow_mono (s : State) (due : Nat) : (s.saySlow due).mono = max s.mono due :=
  ((s.upTo due).raise_mono 7 2).trans (s.upTo_mono due)

theorem State.saySlow_raisedIn (s : State) (due : Nat) : raisedIn s (s.saySlow due) 7 2 :=
  (raisedIn_raise 7 2 (s.upTo_evInbox due) rfl rfl (by decide) : raisedIn s ((s.upTo due).raise 7 2) 7 2)

theorem State.saySlow_regsKept (s : State) (due : Nat) : regsKept s (s.saySlow due) (evRegs 7) :=
  (regsKept.of_regs (s.upTo_regs due) _).trans ((s.upTo due).raise_regsKept 7 2)

/-! ### The statement -/

/-- Settles O45: one case for a load that ends, one for KEY_DRAIN_WAIT with what DRAINED_SEQ then reads, one for DRAIN_SLOW. -/
theorem keyLoadsAndDrain : Obligations.KeyLoadsAndDrain := by
  intro s
  refine ⟨fun k room hload hplace => ?loaded, State.keyPlace_of_room, fun a k b => State.keyPlace_of_full, fun k => exec_keyEntryLoad_waits,
    fun q c i h hw1 hcount hlen hw2 hwaits => ?drainWait, fun t0 hbelow => ⟨fun hsaid => ?slow, exec_drainSlow_said⟩, exec_drainSlow_drained⟩
  case loaded =>
    exact ⟨s.keyLoaded k room, exec_keyEntryLoad hload hplace, s.keyLoaded_prot k room, s.keyLoaded_misses k room, s.keyLoaded_resident k room,
      s.keyLoaded_regsKept k room, s.keyLoaded_eq k room⟩
  case drainWait =>
    intro n u v
    have hexec := exec_keyDrainWait h hw1 hcount hlen hw2 hwaits
    have hlevel : s.rd KEY_GEN_DRAIN_DRAINED_SEQ ≤ s.drainLevel → v.rd KEY_GEN_DRAIN_DRAINED_SEQ = s.drainLevel := fun hle => by
      rw [← s.drainLevel_awaitsDrain q n] at hle ⊢
      exact State.rd_drainUpdate_of_le ((s.rd_awaitsDrain ..).trans_le hle)
    refine ⟨fun hnew => ?notGiven, fun hgiven hbehind => ?waits, fun hgiven hreached => ?completes, fun hholds halone hle => ?alone, fun hpair hle => ?paired⟩
    case notGiven => rw [hexec, if_pos hnew]
    case waits =>
      exact hexec.trans (congrArg Host.Outcome.next ((if_neg hgiven.not_gt).trans ((State.drainDone_of_one rfl).trans (if_neg hbehind.not_ge))))
    case completes =>
      exact hexec.trans (congrArg Host.Outcome.next ((if_neg hgiven.not_gt).trans ((State.drainDone_of_one rfl).trans (if_pos hreached))))
    case alone =>
      have hall := State.drainLevel_of_unpaired halone hholds
      rw [hlevel (hall.symm ▸ hle), hall]
    case paired =>
      have hboth := State.drainLevel_of_paired hpair
      rw [hlevel (hboth.symm ▸ hle), hboth]
  case slow =>
    exact ⟨_, exec_drainSlow_raises hbelow hsaid, s.saySlow_mono _, s.saySlow_raisedIn _, rfl, s.saySlow_regsKept _⟩

end Sys2Proof.Machine
end

section
/-! PROOFS. The steps of a trigger chain: what COPY, PERSIST, ATOMIC and NOTIFY start (R200, R205 to R207), settling O37. -/

namespace Sys2Proof.Machine

/-! ### The step a run is at (R200) -/

/-- The operation of the step a run is at. -/
def State.stepOp (s : State) (i : Nat) : List Word64 := s.slot i (s.curStep i)

/-- Its length, with the parameter it adds. -/
def State.stepLen (s : State) (i : Nat) : Nat := s.opLen i (s.stepOp i)

/-- Its DST_RKEY. -/
def State.stepDst (s : State) (i : Nat) : Nat := bits (wordAt (s.stepOp i) 1) 63 32

/-- Its SRC_RKEY. -/
def State.stepSrc (s : State) (i : Nat) : Nat := bits (wordAt (s.stepOp i) 1) 31 0

/-- Its NOTIFY_QPN. -/
def State.stepQpn (s : State) (i : Nat) : Nat := bits (wordAt (s.stepOp i) 4) 55 32

/-! ### What a step asks for and holds before it starts (R180, R184) -/

theorem State.keyReady_asks (s : State) (k : Nat) : ∃ r l, (s.keyReady k).2 = { s with prot := { s.prot with resident := r, loads := l } } := by
  unfold State.keyReady
  split
  · exact ⟨s.prot.resident, s.prot.loads, rfl⟩
  · split
    · exact ⟨_, s.prot.loads, rfl⟩
    · split
      · exact ⟨s.prot.resident, s.prot.loads, rfl⟩
      · exact ⟨s.prot.resident, _, rfl⟩

/-- To ask for entries touches only which are resident and which are loading. -/
theorem State.keysReady_asks (s : State) (ks : List Nat) : ∃ r l, (s.keysReady ks).2 = { s with prot := { s.prot with resident := r, loads := l } } := by
  refine List.foldlRecOn (motive := fun b : Bool × State => ∃ r l, b.2 = { s with prot := { s.prot with resident := r, loads := l } }) ks _
    ⟨s.prot.resident, s.prot.loads, rfl⟩ (fun b ⟨r, l, hb⟩ k _ => ?_)
  obtain ⟨r', l', hk⟩ := b.2.keyReady_asks k
  exact ⟨r', l', hk.trans (by rw [hb])⟩

@[simp] theorem State.chainKey_keysReady (s : State) (ks : List Nat) (i rkey right off len : Nat) :
    (s.keysReady ks).2.chainKey i rkey right off len = s.chainKey i rkey right off len := by
  obtain ⟨r, l, h⟩ := s.keysReady_asks ks
  rw [h]
  rfl

@[simp] theorem State.cf_keysReady (s : State) (ks : List Nat) (i w hi lo : Nat) : (s.keysReady ks).2.cf i w hi lo = s.cf i w hi lo :=
  State.cf_of_chains (congrArg Chains.chains (State.chains_of_still (s.keysReady_still ks))) ..

@[simp] theorem State.opSrcOff_keysReady (s : State) (ks : List Nat) (i : Nat) (e : List Word64) : (s.keysReady ks).2.opSrcOff i e = s.opSrcOff i e := by
  unfold State.opSrcOff
  rw [State.cf_keysReady]

@[simp] theorem State.opDstOff_keysReady (s : State) (ks : List Nat) (i : Nat) (e : List Word64) : (s.keysReady ks).2.opDstOff i e = s.opDstOff i e := by
  unfold State.opDstOff
  rw [State.cf_keysReady]

/-- From `s` to `v` only the key unit and the runs have changed. -/
def OnlyHolds (s v : State) : Prop := ∃ p r, v = { s with prot := p, chains := { s.chains with runs := r } }

namespace OnlyHolds

theorem refl (s : State) : OnlyHolds s s := ⟨s.prot, s.chains.runs, rfl⟩

theorem keysReady {s v : State} (h : OnlyHolds s v) (ks : List Nat) : OnlyHolds s (v.keysReady ks).2 := by
  obtain ⟨p, r, rfl⟩ := h
  obtain ⟨l, m, hask⟩ := State.keysReady_asks { s with prot := p, chains := { s.chains with runs := r } } ks
  exact ⟨_, _, hask⟩

theorem setRun {s v : State} (h : OnlyHolds s v) (i : Nat) (r : Run) : OnlyHolds s (v.setRun i r) := by
  obtain ⟨p, q, rfl⟩ := h
  exact ⟨_, _, rfl⟩

theorem takeHold {s v : State} (h : OnlyHolds s v) (qpn key : Nat) : OnlyHolds s (v.takeHold qpn key).1 := by
  obtain ⟨p, q, rfl⟩ := h
  exact ⟨_, _, rfl⟩

theorem chainHold {s v : State} (h : OnlyHolds s v) (i : Nat) (ks : List Nat) : OnlyHolds s (v.chainHold i ks) :=
  List.foldlRecOn (motive := OnlyHolds s) ks _ h (fun _ hb _ _ => (hb.takeHold _ _).setRun _ _)

end OnlyHolds

/-! ### The operations a step starts (R205) -/

/-- From `s` to `t` the step a run is at has been started with operations of one kind and these operands. -/
structure StepStarted (i : Nat) (k : OpKind) (cmp swap : Word64) (s t : State) : Prop where
  ops : ∃ l : List Op, t.dp.ops = s.dp.ops ++ l ∧ ∀ o ∈ l, o.for_ = .chain i (s.curStep i) ∧ o.kind = k ∧ o.cmp = cmp ∧ o.swap = swap
  busy : (t.run i).busy = true
  wrote : k ≠ .copySrc → k ≠ .notifySrc → (t.run i).ownersWritten = true
  entries : t.chains.chains = s.chains.chains
  regs : t.regs = s.regs

namespace StepStarted

variable {i : Nat} {k : OpKind} {cmp swap : Word64} {s t : State}

/-- A step stays started where tenants are charged. -/
theorem setTenant (h : StepStarted i k cmp swap s t) (n : Nat) (v : Tenant) : StepStarted i k cmp swap s (t.setTenant n v) :=
  ⟨h.ops, h.busy, h.wrote, h.entries, h.regs⟩

theorem addOp (h : StepStarted i k cmp swap s t) {o : Op} (hfor : o.for_ = .chain i (t.curStep i)) (hkind : o.kind = k) (hcmp : o.cmp = cmp) (hswap : o.swap = swap) :
    StepStarted i k cmp swap s (t.addOp o) := by
  obtain ⟨l, hops, hall⟩ := h.ops
  refine ⟨⟨l ++ [{ o with id := t.dp.nextOp }], ?_, fun x hx => ?_⟩, h.busy, h.wrote, h.entries, h.regs⟩
  · rw [← List.append_assoc, ← hops]
    rfl
  · rcases List.mem_append.mp hx with hx | hx
    · exact hall x hx
    · rw [List.mem_singleton.mp hx]
      exact ⟨hfor.trans (congrArg (OpFor.chain i) (State.cf_of_chains h.entries ..)), hkind, hcmp, hswap⟩

theorem kinds (h : StepStarted i k cmp swap s t) : ∃ l : List Op, t.dp.ops = s.dp.ops ++ l ∧ ∀ o ∈ l, o.for_ = .chain i (s.curStep i) ∧ o.kind = k := by
  obtain ⟨l, hops, hall⟩ := h.ops
  refine ⟨l, hops, fun o ho => ?_⟩
  obtain ⟨hfor, hkind, -⟩ := hall o ho
  exact ⟨hfor, hkind⟩

/-- A run marked busy has its step started, with no operation yet. -/
theorem of_setRun {v : State} {r : Run} (h : OnlyHolds s v) (hbusy : r.busy = true) (hwrote : k ≠ .copySrc → k ≠ .notifySrc → r.ownersWritten = true) :
    StepStarted i k cmp swap s (v.setRun i r) := by
  have hrun := v.run_setRun_same i r
  obtain ⟨p, q, rfl⟩ := h
  exact ⟨⟨[], (List.append_nil _).symm, by simp⟩, by rw [hrun, hbusy], fun hc hn => by rw [hrun, hwrote hc hn], rfl, rfl⟩

end StepStarted

theorem OnlyHolds.addChainOps {s v : State} (h : OnlyHolds s v) (i : Nat) (k : OpKind) (cls tenant pool len : Nat) (data : List Byte) (cmp swap : Word64) :
    StepStarted i k cmp swap s (v.addChainOps i k cls tenant pool len data cmp swap) := by
  unfold State.addChainOps
  extract_lets r writes n u
  have hmarked : StepStarted i k cmp swap s u := .of_setRun h rfl (fun hc hn => by simp [writes, hc, hn])
  refine List.foldlRecOn (motive := StepStarted i k cmp swap s) _ _ hmarked (fun t ht x _ => ?_)
  extract_lets m charged record w
  have hw : StepStarted i k cmp swap s w := by
    unfold w
    split
    · exact ht
    · exact (ht.setTenant _ _).setTenant _ _
  exact hw.addOp rfl rfl rfl rfl

/-! ### COPY (R206) -/

/-- A COPY from the message starts its destination's writes. -/
theorem State.chainCopy_message {s : State} {i pool : Nat} {k : Key} (hpos : 0 < s.stepLen i) (hmax : s.stepLen i ≤ 2 ^ 24) (hmsg : bit (wordAt (s.stepOp i) 0) 8 = true)
    (hdata : s.opSrcOff i (s.stepOp i) + s.stepLen i ≤ (s.run i).data.length) (hready : (s.keysReady [s.stepDst i / 4096]).1 = true)
    (hkey : s.chainKey i (s.stepDst i) 9 (s.opDstOff i (s.stepOp i)) (s.stepLen i) = .ok (k, pool)) : StepStarted i .copyDst 0 0 s (s.chainCopy i) := by
  unfold State.stepDst State.stepLen State.stepOp at *
  unfold State.chainCopy
  dsimp only
  rw [if_neg (by omega)]
  simp only [hmsg, hready, hkey, if_true, State.chainKey_keysReady, State.opDstOff_keysReady, Bool.not_true, Bool.false_eq_true, if_false]
  exact (((OnlyHolds.refl s).keysReady _).chainHold _ _).addChainOps ..

/-- Another COPY starts its source's reads. -/
theorem State.chainCopy_source {s : State} {i pool src : Nat} {k x : Key} (hpos : 0 < s.stepLen i) (hmax : s.stepLen i ≤ 2 ^ 24) (hmsg : bit (wordAt (s.stepOp i) 0) 8 = false)
    (hready : (s.keysReady [s.stepDst i / 4096, s.stepSrc i / 4096]).1 = true)
    (hdst : s.chainKey i (s.stepDst i) 9 (s.opDstOff i (s.stepOp i)) (s.stepLen i) = .ok (k, pool))
    (hsrc : s.chainKey i (s.stepSrc i) 8 (s.opSrcOff i (s.stepOp i)) (s.stepLen i) = .ok (x, src)) : StepStarted i .copySrc 0 0 s (s.chainCopy i) := by
  unfold State.stepDst State.stepSrc State.stepLen State.stepOp at *
  unfold State.chainCopy
  dsimp only
  rw [hmsg, if_neg (by simp; omega)]
  simp only [hready, hdst, hsrc, State.chainKey_keysReady, State.opDstOff_keysReady, Bool.not_true, Bool.false_eq_true, if_false]
  exact ((((OnlyHolds.refl s).keysReady _).chainHold _ _).setRun _ _).addChainOps ..

theorem State.chainCopy_badLength {s : State} {i : Nat} (h : s.stepLen i = 0 ∨ 2 ^ 24 < s.stepLen i) : s.chainCopy i = s.chainFail i 5 :=
  if_pos (h.imp_right .inl)

/-! ### PERSIST (R206) -/

theorem State.chainPersist_waits {s : State} {i n : Nat} (hwrote : (s.run i).ownersWritten = true) (hopen : s.stageEpoch = some n) :
    s.chainPersist i = s.setRun i { s.run i with busy := true, waitEpoch := some n, ownersWritten := false } := by
  unfold State.chainPersist
  dsimp only
  rw [hwrote, hopen]

theorem State.chainPersist_done {s : State} {i : Nat} (h : (s.run i).ownersWritten = false ∨ s.stageEpoch = none) : s.chainPersist i = s.chainStepDone i := by
  unfold State.chainPersist
  dsimp only
  split
  · next n hwrote hopen => simp [hwrote, hopen] at h
  · rfl

/-! ### ATOMIC (R206) -/

section Atomic

variable {s : State} {i pool : Nat} {k : Key} (hready : (s.keysReady [s.stepDst i / 4096]).1 = true)
  (hkey : s.chainKey i (s.stepDst i) 9 (s.opDstOff i (s.stepOp i)) 8 = .ok (k, pool))
include hready hkey

/-- With its key's entry resident and its check passed, an ATOMIC holds the entry and starts, or fails where its address is misaligned. -/
theorem State.chainAtomic_keyed :
    let v := (s.keysReady [s.stepDst i / 4096]).2.chainHold i [s.stepDst i / 4096]
    let e := s.stepOp i
    s.chainAtomic i = if pool % 8 ≠ 0 then v.chainFail i 5
      else if bit (wordAt e 0) 12 then v.addChainOps i .fadd k.cls (v.cf i 0 15 8) pool 8 [] 0 (wordAt e 5)
      else v.addChainOps i .cas k.cls (v.cf i 0 15 8) pool 8 [] (wordAt e 5) (wordAt e 6) := by
  unfold State.stepDst State.stepOp at *
  unfold State.chainAtomic
  dsimp only
  rw [hready, if_neg (by decide), State.chainKey_keysReady, State.opDstOff_keysReady, hkey]

theorem State.chainAtomic_misaligned (hpool : pool % 8 ≠ 0) :
    s.chainAtomic i = ((s.keysReady [s.stepDst i / 4096]).2.chainHold i [s.stepDst i / 4096]).chainFail i 5 :=
  (State.chainAtomic_keyed hready hkey).trans (if_pos hpool)

theorem State.chainAtomic_fetchAndAdd (hpool : pool % 8 = 0) (hadd : bit (wordAt (s.stepOp i) 0) 12 = true) :
    StepStarted i .fadd 0 (wordAt (s.stepOp i) 5) s (s.chainAtomic i) := by
  rw [State.chainAtomic_keyed hready hkey, if_neg (not_not.mpr hpool), if_pos hadd]
  exact (((OnlyHolds.refl s).keysReady _).chainHold _ _).addChainOps ..

theorem State.chainAtomic_compareAndSwap (hpool : pool % 8 = 0) (hswap : bit (wordAt (s.stepOp i) 0) 12 = false) :
    StepStarted i .cas (wordAt (s.stepOp i) 5) (wordAt (s.stepOp i) 6) s (s.chainAtomic i) := by
  rw [State.chainAtomic_keyed hready hkey, if_neg (not_not.mpr hpool), if_neg (by simp [hswap])]
  exact (((OnlyHolds.refl s).keysReady _).chainHold _ _).addChainOps ..

end Atomic

/-! ### NOTIFY (R206, R207) -/

theorem State.chainNotify_refused {s : State} {i : Nat} (h : s.notifyOk i (s.stepQpn i) = false) : s.chainNotify i = s.chainFail i 3 :=
  if_pos (by simpa [State.stepQpn, State.stepOp] using h)

theorem State.chainNotify_empty {s : State} {i : Nat} (hok : s.notifyOk i (s.stepQpn i) = true) (hlen : s.stepLen i = 0) :
    s.chainNotify i = s.notifySend i (s.stepQpn i) (toBe 4 (chainNo i) ++ toBe 4 (s.cf i 3 31 0)
      ++ toBe 8 ((wordAt (s.stepOp i) 7).toNat + (if bit (wordAt (s.stepOp i) 0) 10 then s.cf i 5 63 0 else 0))) := by
  unfold State.stepQpn State.stepLen State.stepOp at *
  unfold State.chainNotify
  dsimp only
  rw [hok, if_neg (by decide), if_pos hlen]

/-- A NOTIFY with a source starts its reads. -/
theorem State.chainNotify_source {s : State} {i src : Nat} {x : Key} (hok : s.notifyOk i (s.stepQpn i) = true) (hpos : 0 < s.stepLen i) (hmax : s.stepLen i ≤ 4096)
    (hmtu : s.stepLen i ≤ s.qPmtu (s.stepQpn i)) (hready : (s.keysReady [s.stepSrc i / 4096]).1 = true)
    (hkey : s.chainKey i (s.stepSrc i) 8 (s.opSrcOff i (s.stepOp i)) (s.stepLen i) = .ok (x, src)) : StepStarted i .notifySrc 0 0 s (s.chainNotify i) := by
  unfold State.stepQpn State.stepSrc State.stepLen State.stepOp at *
  unfold State.chainNotify
  dsimp only
  rw [hok, if_neg (by decide), if_neg (by omega), if_neg (by omega), hready, if_neg (by decide), State.chainKey_keysReady, State.opSrcOff_keysReady, hkey]
  exact (((OnlyHolds.refl s).keysReady _).chainHold _ _).addChainOps ..

/-! ### The statement -/

theorem exec_copy {s : State} {i : Nat} (h : s.chainAt i 1 = true) : exec (.copy i) s = .next (s.chainCopy i).settle := congrArg Host.Outcome.next (if_pos h)
theorem exec_persist {s : State} {i : Nat} (h : s.chainAt i 2 = true) : exec (.persist i) s = .next (s.chainPersist i).settle := congrArg Host.Outcome.next (if_pos h)
theorem exec_atomic {s : State} {i : Nat} (h : s.chainAt i 3 = true) : exec (.atomic i) s = .next (s.chainAtomic i).settle := congrArg Host.Outcome.next (if_pos h)
theorem exec_notify {s : State} {i : Nat} (h : s.chainAt i 4 = true) : exec (.notify i) s = .next (s.chainNotify i).settle := congrArg Host.Outcome.next (if_pos h)

theorem next_of_not_chainAt {s : State} {i op : Nat} (t : State) (h : s.chainAt i op = false) : (.next (if s.chainAt i op then t else s) : Res) = .next s :=
  congrArg Host.Outcome.next (if_neg (Bool.not_eq_true _ ▸ h))

/-- Settles O37: the steps that start operations do by `OnlyHolds.addChainOps`, the others by the equation of their case. -/
theorem chainSteps : Obligations.ChainSteps := by
  intro s i e len dst src
  refine ⟨fun hat => ⟨fun k pool hpos hmax hmsg hdata hready hkey => ?copyMessage, fun k pool x y hpos hmax hmsg hready hdst hsrc => ?copySource, fun hlen => ?copyFails⟩,
    fun hat => ⟨fun n hwrote hopen => ?persistWaits, fun hdone => ?persistDone⟩,
    fun hat k pool hready hkey => ⟨fun hpool => ?atomic, fun hpool => ?atomicFails⟩,
    fun hat => ⟨fun hok hlen => ?notifyEmpty, fun x y hok hpos hmax hmtu hready hkey => ?notifySource, fun hok => ?notifyFails⟩,
    next_of_not_chainAt _, next_of_not_chainAt _, next_of_not_chainAt _, next_of_not_chainAt _⟩
  case copyMessage =>
    have hstart := State.chainCopy_message hpos hmax hmsg hdata hready hkey
    obtain ⟨l, hops, hall⟩ := hstart.kinds
    exact ⟨_, l, exec_copy hat, hops, hall, hstart.busy⟩
  case copySource =>
    have hstart := State.chainCopy_source hpos hmax hmsg hready hdst hsrc
    obtain ⟨l, hops, hall⟩ := hstart.kinds
    exact ⟨_, l, exec_copy hat, hops, hall, hstart.busy, hstart.regs⟩
  case copyFails => rw [exec_copy hat, State.chainCopy_badLength hlen]
  case persistWaits =>
    refine ⟨_, exec_persist hat, ?_⟩
    rw [State.chainPersist_waits hwrote hopen]
    exact ⟨State.run_setRun_same .., rfl⟩
  case persistDone => rw [exec_persist hat, State.chainPersist_done hdone]
  case atomic =>
    cases hadd : bit (wordAt e 0) 12 with
    | true =>
      have hstart := State.chainAtomic_fetchAndAdd hready hkey hpool hadd
      obtain ⟨l, hops, hall⟩ := hstart.ops
      refine ⟨_, l, exec_atomic hat, hops, hstart.busy, hstart.wrote nofun nofun, fun o ho => ?_⟩
      obtain ⟨hfor, hkind, -, hswap⟩ := hall o ho
      exact ⟨hfor, fun _ => ⟨hkind, hswap⟩, nofun⟩
    | false =>
      have hstart := State.chainAtomic_compareAndSwap hready hkey hpool hadd
      obtain ⟨l, hops, hall⟩ := hstart.ops
      refine ⟨_, l, exec_atomic hat, hops, hstart.busy, hstart.wrote nofun nofun, fun o ho => ?_⟩
      obtain ⟨hfor, hkind, hcmp, hswap⟩ := hall o ho
      exact ⟨hfor, nofun, fun _ => ⟨hkind, hcmp, hswap⟩⟩
  case atomicFails => exact (exec_atomic hat).trans (congrArg (Host.Outcome.next ·.settle) (State.chainAtomic_misaligned hready hkey hpool))
  case notifyEmpty => exact (exec_notify hat).trans (congrArg (Host.Outcome.next ·.settle) (State.chainNotify_empty hok hlen))
  case notifySource =>
    have hstart := State.chainNotify_source hok hpos hmax hmtu hready hkey
    obtain ⟨l, hops, hall⟩ := hstart.kinds
    exact ⟨_, l, exec_notify hat, hops, hall, hstart.busy⟩
  case notifyFails => rw [exec_notify hat, State.chainNotify_refused hok]

end Sys2Proof.Machine
end

section
/-! PROOFS. What a request to DRAM and a page-table entry written through leave unchanged (O59). -/

namespace Sys2Proof.Machine

/-- The state without what a request to DRAM changes: registers, what the channels have queued, the number of the next request. -/
@[irreducible] def State.sansDram (s : State) : State := { s with regs := [], tier := { s.tier with nextReq := 0, chans := [] } }

theorem State.sansDram_with (s : State) (r : NMap Word64) (n : Nat) (c : NMap Chan) :
    ({ s with regs := r, tier := { s.tier with nextReq := n, chans := c } } : State).sansDram = s.sansDram := by
  unfold State.sansDram
  rfl

theorem State.eq_of_sansDram {s t : State} (h : t.sansDram = s.sansDram) :
    t = { s with regs := t.regs, tier := { s.tier with nextReq := t.tier.nextReq, chans := t.tier.chans } } := by
  unfold State.sansDram at h
  have := congrArg (fun x : State => ({ x with regs := t.regs, tier := { x.tier with nextReq := t.tier.nextReq, chans := t.tier.chans } } : State)) h
  exact this

theorem State.dchCount_sansDram (s : State) (c k n : Nat) : (s.dchCount c k n).sansDram = s.sansDram := s.sansDram_with ..
theorem State.setChan_sansDram (s : State) (c : Nat) (x : Chan) : (s.setChan c x).sansDram = s.sansDram := s.sansDram_with ..

theorem State.dramReq_sansDram (s : State) (c f j : Nat) (write : Bool) (cls : Nat) : (s.dramReq c f j write cls).sansDram = s.sansDram := by
  unfold State.dramReq
  extract_lets x line r tier u cancel v w full x'
  have hv : v.sansDram = s.sansDram := by
    unfold v
    split
    · exact (u.dchCount_sansDram ..).trans (s.sansDram_with ..)
    · exact s.sansDram_with ..
  have hw : w.sansDram = s.sansDram := by
    unfold w
    split
    · exact (v.dchCount_sansDram ..).trans hv
    · exact hv
  split
  · rfl
  · split
    · exact (w.setChan_sansDram ..).trans hw
    · split
      · exact (State.dchCount_sansDram ..).trans ((w.setChan_sansDram ..).trans hw)
      · exact (w.setChan_sansDram ..).trans hw

/-- A request to DRAM changes what a channel has queued and its counters. -/
theorem State.dramReq_eq (s : State) (c f j : Nat) (write : Bool) (cls : Nat) :
    s.dramReq c f j write cls =
      { s with regs := (s.dramReq c f j write cls).regs
               tier := { s.tier with nextReq := (s.dramReq c f j write cls).tier.nextReq, chans := (s.dramReq c f j write cls).tier.chans } } :=
  State.eq_of_sansDram (s.dramReq_sansDram ..)

theorem State.lineReq_eq (s : State) (k ch : Nat) (write : Bool) (cls : Nat) :
    s.lineReq k ch write cls =
      { s with regs := (s.lineReq k ch write cls).regs
               tier := { s.tier with nextReq := (s.lineReq k ch write cls).tier.nextReq, chans := (s.lineReq k ch write cls).tier.chans } } := by
  unfold State.lineReq
  split <;> exact s.dramReq_eq ..

/-- A page-table entry written through changes the table, what a channel has queued and its counters. -/
theorem State.setPte_eq (s : State) (p : Nat) (e : Pte) :
    s.setPte p e =
      { s with regs := (s.setPte p e).regs
               tier := { s.tier with pt := (s.setPte p e).tier.pt, nextReq := (s.setPte p e).tier.nextReq, chans := (s.setPte p e).tier.chans } } := by
  unfold State.setPte
  split
  · rfl
  · dsimp only
    split
    · rfl
    · rw [State.lineReq_eq]

theorem State.pte_congr {s t : State} (h : t.tier.pt = s.tier.pt) (p : Nat) : t.pte p = s.pte p := by
  unfold State.pte
  rw [h]

theorem State.setPte_pt {s : State} {p : Nat} {e : Pte} (h : s.pte p ≠ e) : (s.setPte p e).tier.pt = NMap.put {} s.tier.pt p e := by
  unfold State.setPte
  rw [if_neg h]
  dsimp only
  split
  · rfl
  · rw [State.lineReq_eq]

@[simp] theorem State.pte_setPte_same (s : State) (p : Nat) (e : Pte) : (s.setPte p e).pte p = e := by
  by_cases h : s.pte p = e
  · unfold State.setPte
    rw [if_pos h, h]
  · unfold State.pte
    rw [State.setPte_pt h]
    exact NMap.getD_put_same ..

theorem State.pte_setPte_other (s : State) {p q : Nat} (e : Pte) (hq : q ≠ p) : (s.setPte p e).pte q = s.pte q := by
  by_cases h : s.pte p = e
  · unfold State.setPte
    rw [if_pos h]
  · unfold State.pte
    rw [State.setPte_pt h]
    exact NMap.getD_put_other hq

end Sys2Proof.Machine
end

section
/-! PROOFS. Pages discarded one by one and over a range (O59). -/

namespace Sys2Proof.Machine

/-! ### What the work on one page leaves of the others (R216, R236) -/

/-- From `s` to `t` at most page p's entry of the page table has changed; the fills in flight, the pair and the discards that wait stand. -/
structure PageOnly (p : Nat) (s t : State) : Prop where
  others : ∀ q, q ≠ p → t.pte q = s.pte q
  mshrs : t.cache.mshrs = s.cache.mshrs
  pair : t.pair = s.pair
  later : t.tier.discardLater = s.tier.discardLater

theorem PageOnly.refl (p : Nat) (s : State) : PageOnly p s s := ⟨fun _ _ => rfl, rfl, rfl, rfl⟩

theorem PageOnly.trans {p : Nat} {a b c : State} (h : PageOnly p a b) (k : PageOnly p b c) : PageOnly p a c :=
  ⟨fun q hq => (k.others q hq).trans (h.others q hq), k.mshrs.trans h.mshrs, k.pair.trans h.pair, k.later.trans h.later⟩

theorem PageOnly.of_table {p : Nat} {s t : State} (hpt : t.tier.pt = s.tier.pt) (hm : t.cache.mshrs = s.cache.mshrs) (hp : t.pair = s.pair)
    (hl : t.tier.discardLater = s.tier.discardLater) : PageOnly p s t := ⟨fun q _ => State.pte_congr hpt q, hm, hp, hl⟩

theorem PageOnly.foldl {α : Type} {p : Nat} {f : State → α → State} (h : ∀ s x, PageOnly p s (f s x)) (s : State) (l : List α) :
    PageOnly p s (l.foldl f s) := List.foldlRecOn l f (PageOnly.refl p s) (fun _ ht x _ => ht.trans (h _ x))

theorem State.pageFilling_congr {s t : State} (h : t.cache.mshrs = s.cache.mshrs) (p : Nat) : t.pageFilling p = s.pageFilling p := by
  unfold State.pageFilling
  rw [h]

theorem State.setPte_pageOnly (s : State) (p : Nat) (e : Pte) : PageOnly p s (s.setPte p e) :=
  ⟨fun _ hq => s.pte_setPte_other e hq, by rw [s.setPte_eq], by rw [s.setPte_eq], by rw [s.setPte_eq]⟩

theorem State.invalidate_pageOnly (p : Nat) (s : State) (i : Nat) : PageOnly p s (s.invalidate i) := by
  unfold State.invalidate State.freeWay
  dsimp only
  split
  · split
    · split <;> exact .of_table rfl rfl rfl rfl
    · exact .of_table rfl rfl rfl rfl
  · exact .refl p s

theorem State.dropPageLines_pageOnly (q : Nat) (s : State) (p : Nat) : PageOnly q s (s.dropPageLines p) :=
  (PageOnly.foldl (fun u (x : Nat × Way) => u.invalidate_pageOnly q x.1) s (s.pageWays p)).trans (.of_table rfl rfl rfl rfl)

theorem State.giveFrame_pageOnly (p : Nat) (s : State) (c i : Nat) : PageOnly p s (s.giveFrame c i) := by
  unfold State.giveFrame
  dsimp only
  split
  · exact .of_table rfl rfl rfl rfl
  · split <;> exact .of_table rfl rfl rfl rfl

theorem State.discharge_pageOnly (s : State) (p : Nat) (mask : Word64) : PageOnly p s (s.discharge p mask) := by
  unfold State.discharge
  split
  · exact .refl p s
  · refine PageOnly.trans ?_ (State.setPte_pageOnly ..)
    split <;> exact .of_table rfl rfl rfl rfl

theorem State.unmapPage_pageOnly (q : Nat) (s : State) (p : Nat) : PageOnly q s (s.unmapPage p) := by
  unfold State.unmapPage
  dsimp only
  split <;> exact .of_table rfl rfl rfl rfl

theorem State.stagingEnds_pageOnly (q : Nat) (s : State) (p : Nat) : PageOnly q s (s.stagingEnds p) := by
  have hstall (w : Wait) (a : Nat) : PageOnly q s (s.stallEnd w a) := by
    unfold State.stallEnd
    split
    · exact .of_table rfl rfl rfl rfl
    · exact .refl q s
  unfold State.stagingEnds
  split
  · exact (hstall ..).trans (.of_table rfl rfl rfl rfl)
  · exact .refl q s

/-! ### A page is discarded (R236) -/

theorem mem_insertNat_self (l : List Nat) (x : Nat) : x ∈ insertNat l x := by
  induction l with
  | nil => exact List.mem_singleton.mpr rfl
  | cons y ys ih =>
    unfold insertNat
    split
    · exact List.mem_cons_self
    · split
      · next h => exact h ▸ List.mem_cons_self
      · exact List.mem_cons_of_mem _ ih

theorem mem_insertNat_of_mem {l : List Nat} {y : Nat} (h : y ∈ l) (x : Nat) : y ∈ insertNat l x := by
  induction l with
  | nil => exact absurd h List.not_mem_nil
  | cons z zs ih =>
    unfold insertNat
    split
    · exact List.mem_cons_of_mem _ h
    · split
      · exact h
      · rcases List.mem_cons.mp h with rfl | hz
        · exact List.mem_cons_self
        · exact List.mem_cons_of_mem _ (ih hz)

/-- A ZERO page is discarded already. -/
theorem State.discardPage_zero {s : State} {p : Nat} (h : (s.pte p).st = .zero) : s.discardPage p = s := by
  unfold State.discardPage
  dsimp only
  rw [h]

/-- The page is being fetched, or a fill of one of its lines is in flight: its discard waits. -/
def State.discardWaits (s : State) (p : Nat) : Prop := (s.pte p).st = .fetching ∨ ((s.pte p).st ≠ .zero ∧ s.pageFilling p = true)

theorem State.discardPage_waits {s : State} {p : Nat} (h : s.discardWaits p) :
    s.discardPage p = { s with tier := { s.tier with discardLater := insertNat s.tier.discardLater p } } := by
  unfold State.discardPage
  dsimp only
  split
  · next hz => rcases h with hf | ⟨hz', -⟩ <;> simp_all
  · rfl
  · next hz hf =>
    rcases h with hf' | ⟨-, hfill⟩
    · exact absurd hf' hf
    · exact if_pos hfill

/-- A page that nothing holds back is discarded at once: it is ZERO. -/
theorem State.discardPage_now {s : State} {p : Nat} (hz : (s.pte p).st ≠ .zero) (hw : ¬ s.discardWaits p) :
    PageOnly p s (s.discardPage p) ∧ ((s.discardPage p).pte p).st = .zero := by
  have hf : (s.pte p).st ≠ .fetching := fun h => hw (.inl h)
  have hfill : s.pageFilling p = false := by simpa using fun h => hw (.inr ⟨hz, h⟩)
  unfold State.discardPage
  extract_lets e tier lines charged framed unmapped staged tier' dropped
  split
  · next h => exact absurd h hz
  · next h => exact absurd h hf
  · rw [if_neg (by simp [hfill])]
    have hcharged : PageOnly p s charged := (s.dropPageLines_pageOnly p p).trans (lines.discharge_pageOnly ..)
    have hframed : PageOnly p s framed := by
      unfold framed
      split
      · exact hcharged
      · exact hcharged.trans ((charged.giveFrame_pageOnly ..).trans (.of_table rfl rfl rfl rfl))
    have hunmapped : PageOnly p s unmapped := hframed.trans ((framed.unmapPage_pageOnly ..).trans (.of_table rfl rfl rfl rfl))
    have hdropped : PageOnly p s dropped := hunmapped.trans ((unmapped.stagingEnds_pageOnly ..).trans (.of_table rfl rfl rfl rfl))
    exact ⟨hdropped.trans (dropped.setPte_pageOnly ..), by rw [State.pte_setPte_same]⟩

/-! ### A list of pages is discarded -/

theorem State.stageEpoch_congr {s t : State} (h : t.pair = s.pair) : t.stageEpoch = s.stageEpoch := by
  unfold State.stageEpoch State.openSlot
  rw [h]

/-- From `s` to `t` the pages of a list have been discarded. -/
structure Discarded (ps : List Nat) (s t : State) : Prop where
  others : ∀ q, q ∉ ps → t.pte q = s.pte q
  gone : ∀ q ∈ ps, ¬ s.discardWaits q → (t.pte q).st = .zero
  waiting : ∀ q, s.discardWaits q → t.pte q = s.pte q
  later : ∀ q ∈ ps, s.discardWaits q → q ∈ t.tier.discardLater
  grows : ∀ q ∈ s.tier.discardLater, q ∈ t.tier.discardLater
  mshrs : t.cache.mshrs = s.cache.mshrs
  epoch : t.stageEpoch = s.stageEpoch

theorem State.discardPage_discarded (s : State) (p : Nat) : Discarded [p] s (s.discardPage p) := by
  by_cases hz : (s.pte p).st = .zero
  · have hw : ¬ s.discardWaits p := by simp [State.discardWaits, hz]
    rw [State.discardPage_zero hz]
    exact ⟨fun _ _ => rfl, by simpa using fun _ => hz, fun _ _ => rfl, by simpa using fun h => absurd h hw, fun _ h => h, rfl, rfl⟩
  · by_cases hw : s.discardWaits p
    · rw [State.discardPage_waits hw]
      exact ⟨fun _ _ => rfl, by simpa using fun h => absurd hw h, fun _ _ => rfl, by simpa using fun _ => mem_insertNat_self _ p,
        fun _ h => mem_insertNat_of_mem h p, rfl, rfl⟩
    · obtain ⟨honly, hzero⟩ := State.discardPage_now hz hw
      exact ⟨fun q hq => honly.others q (by simpa using hq), by simpa using fun _ => hzero, fun q hq => honly.others q (fun h => hw (h ▸ hq)),
        by simpa using fun h => absurd h hw, fun q hq => honly.later ▸ hq, honly.mshrs, State.stageEpoch_congr honly.pair⟩

theorem State.not_discardWaits_of_zero {s : State} {p : Nat} (h : (s.pte p).st = .zero) : ¬ s.discardWaits p := by
  simp [State.discardWaits, h]

theorem Discarded.discardWaits {ps : List Nat} {s t : State} (h : Discarded ps s t) (q : Nat) : t.discardWaits q ↔ s.discardWaits q := by
  by_cases hpte : t.pte q = s.pte q
  · unfold State.discardWaits
    rw [hpte, State.pageFilling_congr h.mshrs]
  · have hq : q ∈ ps := by by_contra hq; exact hpte (h.others q hq)
    have hw : ¬ s.discardWaits q := fun hw => hpte (h.waiting q hw)
    exact iff_of_false (State.not_discardWaits_of_zero (h.gone q hq hw)) hw

theorem State.foldl_discardPage (ps : List Nat) (s : State) : Discarded ps s (ps.foldl State.discardPage s) := by
  induction ps generalizing s with
  | nil => exact ⟨fun _ _ => rfl, by simp, fun _ _ => rfl, by simp, fun _ h => h, rfl, rfl⟩
  | cons p ps ih =>
    have hfirst := s.discardPage_discarded p
    have hrest := ih (s.discardPage p)
    have hwaits (q : Nat) := hfirst.discardWaits q
    refine ⟨fun q hq => ?_, fun q hq hw => ?_, fun q hw => ?_, fun q hq hw => ?_, fun q hq => hrest.grows q (hfirst.grows q hq),
      hrest.mshrs.trans hfirst.mshrs, hrest.epoch.trans hfirst.epoch⟩
    · obtain ⟨hp, hps⟩ := not_or.mp (mt List.mem_cons.mpr hq)
      exact (hrest.others q hps).trans (hfirst.others q (by simpa using hp))
    · by_cases hps : q ∈ ps
      · exact hrest.gone q hps (mt (hwaits q).mp hw)
      · obtain rfl : q = p := (List.mem_cons.mp hq).resolve_right hps
        exact (congrArg Pte.st (hrest.others q hps)).trans (hfirst.gone q List.mem_cons_self hw)
    · exact (hrest.waiting q ((hwaits q).mpr hw)).trans (hfirst.waiting q hw)
    · rcases List.mem_cons.mp hq with rfl | hps
      · exact hrest.grows q (hfirst.later q List.mem_cons_self hw)
      · exact hrest.later q hps ((hwaits q).mpr hw)

@[simp] theorem State.pte_running (s : State) (q p : Nat) : (s.running q).pte p = s.pte p := State.pte_congr (congrArg Tier.pt (s.running_tier q)) p
@[simp] theorem State.rangePages_running (s : State) (q a n : Nat) : (s.running q).rangePages a n = s.rangePages a n := by
  unfold State.rangePages
  rw [s.running_tier]

/-! ### The range of a command (R235) -/

/-- The range of a TIR command is whole pages of the pool. -/
def State.tirFits (s : State) (c : RqCmd) : Prop :=
  c.index % 4096 = 0 ∧ c.w5.toNat % 4096 = 0 ∧ c.w5.toNat ≠ 0 ∧ c.index + c.w5.toNat ≤ s.tier.poolRegions * 2 ^ 30

section
variable {s : State} {q op i : Nat} {c : RqCmd} (h : s.blockRuns q c 0xA i op true) (hz : tirZero (op == 0x43) c = true) (f : State → Nat → Nat → RqCmd → State)
include h hz

/-- A TIR command whose range fits does its work on it. -/
theorem State.tirCmd_fits (hfit : s.tirFits c) : s.tirCmd q op f = f (s.running q) (c.index / 4096) (c.w5.toNat / 4096) c := by
  obtain ⟨hfirst, hlen, hpos, hpool⟩ := hfit
  refine (State.blockCmd_blockRuns h hz _).trans (if_neg ?_)
  rw [s.running_tier]
  omega

/-- A range that is not whole pages of the pool ends with 0x40. -/
theorem State.tirCmd_misfit (hfit : ¬ s.tirFits c) : s.tirCmd q op f = (s.running q).finishCmd q 0x40 0 := by
  refine (State.blockCmd_blockRuns h hz _).trans (if_pos ?_)
  rw [s.running_tier]
  unfold State.tirFits at hfit
  omega

end

theorem NMap.mem_of_find {α : Type} {m : NMap α} {k : Nat} {v : α} (h : NMap.find m k = some v) : (k, v) ∈ m := by
  induction m with
  | nil => exact absurd h (by simp [NMap.find])
  | cons e m ih =>
    obtain ⟨j, w⟩ := e
    unfold NMap.find at h
    split at h
    · next hk => exact hk ▸ Option.some.inj h ▸ List.mem_cons_self
    · exact List.mem_cons_of_mem _ (ih h)

/-- The pages of a range that are not ZERO are those a command works on. -/
theorem State.mem_rangePages {s : State} {p a n : Nat} (hp : a ≤ p ∧ p < a + n) (hz : (s.pte p).st ≠ .zero) : p ∈ s.rangePages a n := by
  obtain ⟨e, he⟩ : ∃ e, NMap.find s.tier.pt p = some e := by
    cases hfind : NMap.find s.tier.pt p with
    | none => exact absurd (by unfold State.pte NMap.getD; rw [hfind]; rfl) hz
    | some e => exact ⟨e, rfl⟩
  have hst : e.st ≠ .zero := by
    unfold State.pte NMap.getD at hz
    rwa [he] at hz
  exact List.mem_map.mpr ⟨(p, e), List.mem_filter.mpr ⟨NMap.mem_of_find he, by simpa [hp] using hst⟩, rfl⟩

theorem State.range_of_mem_rangePages {s : State} {p a n : Nat} (h : p ∈ s.rangePages a n) : a ≤ p ∧ p < a + n := by
  obtain ⟨e, he, rfl⟩ := List.mem_map.mp h
  have := (List.mem_filter.mp he).2
  simp only [Bool.and_eq_true, decide_eq_true_eq] at this
  exact this.1

/-! ### TIR_DISCARD (R235, R236, R346) -/

@[simp] theorem State.stage_stageEpoch (s : State) (r : EpochRec) : (s.stage r).stageEpoch = s.stageEpoch := by
  unfold State.stage
  split
  · unfold State.stageEpoch State.openSlot
    dsimp only
    rw [List.find?_map]
    have hclosed : (fun e : Epoch => e.closed.isNone) ∘ (fun e : Epoch => if e.closed.isNone then { e with recs := mergeRec e.recs r, bytes := ((mergeRec e.recs r).map recBytes).sum } else e)
        = fun e => e.closed.isNone := by
      funext e
      dsimp only [Function.comp]
      split <;> rfl
    rw [hclosed]
    cases s.pair.epochs.find? (fun e => e.closed.isNone) with
    | none => rfl
    | some e =>
      dsimp only [Option.map]
      split <;> rfl
  · rfl

theorem State.markChange_eq (s : State) (pool : Nat) : s.markChange pool = { s with pair := (s.markChange pool).pair } := by
  unfold State.markChange
  split
  · dsimp only
    split <;> rfl
  · rfl

@[simp] theorem State.markChange_stageEpoch (s : State) (pool : Nat) : (s.markChange pool).stageEpoch = s.stageEpoch := by
  unfold State.markChange
  split
  · dsimp only
    split <;> rfl
  · rfl

/-- A change of anything but the pages, the discards that wait, the fills in flight and the epoch that changes join. -/
theorem Discarded.upd {ps : List Nat} {s t u : State} (h : Discarded ps s t) (hpt : u.tier.pt = t.tier.pt) (hl : u.tier.discardLater = t.tier.discardLater)
    (hm : u.cache.mshrs = t.cache.mshrs) (he : u.stageEpoch = t.stageEpoch) : Discarded ps s u :=
  ⟨fun q hq => (State.pte_congr hpt q).trans (h.others q hq), fun q hq hw => (congrArg Pte.st (State.pte_congr hpt q)).trans (h.gone q hq hw),
    fun q hw => (State.pte_congr hpt q).trans (h.waiting q hw), fun q hq hw => hl ▸ h.later q hq hw, fun q hq => hl ▸ h.grows q hq, hm.trans h.mshrs, he.trans h.epoch⟩

/-- What a discard at this twin does to the pages of its range; it counts them. -/
theorem State.discardRange_discarded (s : State) (a n : Nat) :
    Discarded (s.rangePages a n) s (s.discardRange a n).1 ∧ (s.discardRange a n).2 = (s.rangePages a n).length := by
  have hpages := s.foldl_discardPage (s.rangePages a n)
  unfold State.discardRange
  extract_lets ps t u
  change Discarded ps s t at hpages
  have hu : Discarded ps s u := by
    refine hpages.upd ?_ ?_ ?_ (by unfold u; simp)
    all_goals
      unfold u
      rw [State.markChange_eq, State.stage_eq]
  split
  · next hnone => exact ⟨hpages, (List.length_eq_zero_iff.mpr (List.isEmpty_iff.mp hnone)).symm⟩
  · split
    · exact ⟨hu.upd rfl rfl rfl rfl, rfl⟩
    · exact ⟨hu, rfl⟩

end Sys2Proof.Machine
end

section
/-! PROOFS. The TIR commands (O59). -/

namespace Sys2Proof.Machine

/-- Ownership of a region rests on the region table and on which twin this is. -/
theorem State.owns_congr {s t : State} (hp : t.prot = s.prot) (hd : t.dur = s.dur) (hb : t.twinB = s.twinB) (r : Nat) : t.owns r = s.owns r := by
  unfold State.owns State.region State.heldRegion
  rw [hp, hd, hb]

@[simp] theorem State.owns_running (s : State) (q r : Nat) : (s.running q).owns r = s.owns r :=
  State.owns_congr (s.running_prot q) ((congrArg State.dur (s.running_eq q)).trans rfl) (s.running_twinB q) r

/-- The TIR_DISCARD in progress over n pages from page `first` on. -/
def State.discardCmd (s : State) (q first n done fwd : Nat) : TirCmd :=
  { q := q, op := 0x40, pages := s.rangePages first n, done := done, passed := 0, epoch := s.stageEpoch, fwd := fwd, total := n }

/-- The request that forwards a discard of n pages from page `first` on to the twin (R346). -/
def discardFwd (q first n : Nat) : FwdReqMsg :=
  { qpn := 0, psn := q, seg := first / 2 ^ 18, op := .discard, cls := 0, first := true, last := true, poolOff := first * 4096, tenant := 0, len := n * 4096, data := [], a := 0, b := 0, entry := [] }

/-- A range within one region is one part of a discard. -/
theorem discardParts_oneRegion {first n : Nat} (hone : (first + n - 1) / 2 ^ 18 = first / 2 ^ 18) :
    (List.range ((first + n - 1) / 2 ^ 18 + 1 - first / 2 ^ 18)).map (fun i =>
      let a := max first ((first / 2 ^ 18 + i) * 2 ^ 18)
      let b := min (first + n) ((first / 2 ^ 18 + i + 1) * 2 ^ 18)
      (first / 2 ^ 18 + i, a, b - a)) = [(first / 2 ^ 18, first, n)] := by
  have hrange : (first + n - 1) / 2 ^ 18 + 1 - first / 2 ^ 18 = 1 := by omega
  have hstart : max first (first / 2 ^ 18 * 2 ^ 18) = first := by omega
  have hend : min (first + n) ((first / 2 ^ 18 + 1) * 2 ^ 18) = first + n := by omega
  rw [hrange, List.range_one, List.map_singleton]
  dsimp only
  rw [Nat.add_zero, hstart, hend, Nat.add_sub_cancel_left]

/-- Every page of a range lies in it. -/
theorem State.rangePages_filter (s : State) (a n : Nat) : (s.rangePages a n).filter (fun m => decide (a ≤ m) && decide (m < a + n)) = s.rangePages a n :=
  List.filter_eq_self.mpr (fun m hm => by simpa using State.range_of_mem_rangePages hm)

section
variable {s : State} {q i : Nat} {c : RqCmd} (h : s.blockRuns q c 0xA i 0x40 true) (hz : tirZero false c = true) (hfit : s.tirFits c)
  (hone : (c.index / 4096 + c.w5.toNat / 4096 - 1) / 2 ^ 18 = c.index / 4096 / 2 ^ 18)
include h hz hfit hone

/-- A range within one region that this twin owns is discarded here. -/
theorem State.tirDiscard_owned (hown : s.owns (c.index / 4096 / 2 ^ 18) = true) :
    s.tirDiscard q = ((s.running q).discardRange (c.index / 4096) (c.w5.toNat / 4096)).1.tirStart
      (s.discardCmd q (c.index / 4096) (c.w5.toNat / 4096) (s.rangePages (c.index / 4096) (c.w5.toNat / 4096)).length 0) := by
  refine (State.tirCmd_fits h hz _ hfit).trans ?_
  obtain ⟨hdisc, hcount⟩ := (s.running q).discardRange_discarded (c.index / 4096) (c.w5.toNat / 4096)
  have hepoch := hdisc.epoch.trans (State.stageEpoch_congr (s.running_pair q))
  unfold State.discardCmd
  dsimp only
  rw [discardParts_oneRegion hone, List.foldl_cons, List.foldl_nil, State.owns_running, if_pos hown, State.rangePages_running]
  dsimp only
  rw [hcount, hepoch, State.rangePages_running, Nat.zero_add]

/-- A range within one region that the twin owns is forwarded to it. -/
theorem State.tirDiscard_twins (hown : s.owns (c.index / 4096 / 2 ^ 18) = false) :
    s.tirDiscard q = ((s.running q).sendLink 0 (.fwdReq (discardFwd q (c.index / 4096) (c.w5.toNat / 4096)))).tirStart
      (s.discardCmd q (c.index / 4096) (c.w5.toNat / 4096) (s.rangePages (c.index / 4096) (c.w5.toNat / 4096)).length 1) := by
  refine (State.tirCmd_fits h hz _ hfit).trans ?_
  have hepoch (m : LinkBody) : ((s.running q).sendLink 0 m).stageEpoch = s.stageEpoch := State.stageEpoch_congr ((State.sendLink_pair ..).trans (s.running_pair q))
  unfold State.discardCmd discardFwd
  dsimp only
  rw [discardParts_oneRegion hone, List.foldl_cons, List.foldl_nil, State.owns_running, if_neg (by rw [hown]; exact Bool.false_ne_true), State.rangePages_running]
  dsimp only
  rw [hepoch, State.rangePages_filter, Nat.zero_add, Nat.zero_add]

end

/-! ### TIR_DEMOTE of one page (R221) -/

/-- Dropping a page's lines changes no page-table entry. -/
theorem State.pte_dropPageLines (s : State) (p q : Nat) : (s.dropPageLines p).pte q = s.pte q :=
  (s.dropPageLines_pageOnly (q + 1) p).others q (Nat.ne_of_lt q.lt_succ_self)

/-- A page that is clean and on NAND, with no fill in flight, is MEDIA at once; with one it waits as DEMOTING. -/
theorem State.pte_demote {s : State} {p : Nat} (hdirty : (s.pte p).dirty = false) (hmedia : (s.pte p).hasMedia = true) (hredo : p ∉ s.tier.redo)
    (hrun : s.halts 0xA = false) (hsealed : s.pageUnsealed p = false) :
    (s.demote p).pte p = if s.pageFilling p then { s.pte p with st := .demoting } else { s.pte p with st := .media, ch := 0, idx := 0 } := by
  have hend : s.demote p = s.endDemotion p false := by
    unfold State.demote
    simp [hdirty, hmedia, hredo, hrun]
  rw [hend]
  unfold State.endDemotion
  rw [if_neg (by simp [hdirty, hsealed])]
  split
  · exact s.pte_setPte_same p _
  · unfold State.toMedia
    dsimp only
    rw [State.pte_setPte_same, State.pte_dropPageLines]

theorem State.demote_halted {s : State} {p : Nat} (hdirty : (s.pte p).dirty = false) (hmedia : (s.pte p).hasMedia = true) (hredo : p ∉ s.tier.redo)
    (hstop : s.halts 0xA = true) : s.demote p = s := by
  unfold State.demote
  simp [hdirty, hmedia, hredo, hstop]

/-! ### TIR_PIN (R235) -/

/-- PIN of a list of pages is set or cleared; the others keep it. -/
theorem State.pte_foldl_pin (set : Bool) (ps : List Nat) (s : State) (p : Nat) :
    (ps.foldl (fun s p => s.setPte p { s.pte p with pin := set }) s).pte p = if p ∈ ps then { s.pte p with pin := set } else s.pte p := by
  induction ps generalizing s with
  | nil => rfl
  | cons x xs ih =>
    rw [List.foldl_cons, ih]
    by_cases hp : p = x
    · subst hp
      simp
    · simp [hp, s.pte_setPte_other _ hp]

theorem mem_range_map_add {a n p : Nat} : p ∈ (List.range n).map (fun k => a + k) ↔ a ≤ p ∧ p < a + n := by
  rw [List.mem_map]
  constructor
  · rintro ⟨k, hk, rfl⟩
    exact ⟨Nat.le_add_right a k, Nat.add_lt_add_left (List.mem_range.mp hk) a⟩
  · rintro ⟨ha, hn⟩
    exact ⟨p - a, List.mem_range.mpr (by omega), by omega⟩

/-- TIR_PIN, where it may run on a range that fits (R235): `much` is that pinned frames would pass half the pool. -/
theorem State.tirPin_fits {s : State} {q i : Nat} {c : RqCmd} (h : s.blockRuns q c 0xA i 0x43 true) (hz : tirZero true c = true) (hfit : s.tirFits c) :
    s.tirPin q =
      (let u := s.running q
       let set := bits c.w6 0 0 == 1
       let n := c.w5.toNat / 4096
       let all := (List.range n).map (fun k => c.index / 4096 + k)
       let v := all.foldl (fun s p => s.setPte p { s.pte p with pin := set }) u
       let ps := all.filter (fun p => (s.pte p).st == .media || (s.pte p).st == .fetching)
       let much := s.framesTotal < 2 * ((s.tier.pt.filter (fun e => e.2.pin)).length + (all.filter (fun p => !(s.pte p).pin)).length)
       if set && decide much then u.finishCmd q 0x42 0
       else if set then v.tirStart { q := q, op := 0x43, pages := ps, done := n - ps.length, passed := 0, epoch := none, total := n }
       else v.finishCmd q stOk (n * 2 ^ 32)) := by
  refine (State.tirCmd_fits h hz _ hfit).trans ?_
  have hst (set : Bool) (ps : List Nat) (p : Nat) : ((ps.foldl (fun s p => s.setPte p { s.pte p with pin := set }) (s.running q)).pte p).st = (s.pte p).st := by
    rw [State.pte_foldl_pin, State.pte_running]
    split <;> rfl
  unfold State.framesTotal
  simp only [hst, State.pte_running, State.running_tier]

/-! ### A TIR command in progress ends (R235) -/

/-- With no page left that waits, a promotion has done all its pages. -/
theorem tirPromoteOn_done {s : State} : ∀ (ps left : List Nat) (done : Nat),
    (∀ p ∈ ps, ((s.pte p).st == .media || (s.pte p).st == .fetching) = false) → tirPromoteOn ps s left done = (s, left, done + ps.length, false)
  | [], _, _, _ => rfl
  | p :: ps, left, done, h => by
    obtain ⟨hp, hps⟩ := List.forall_mem_cons.mp h
    have hrest := tirPromoteOn_done ps left (done + 1) hps
    unfold tirPromoteOn
    split
    · next hst => simp [hst] at hp
    · next hst => simp [hst] at hp
    · rw [hrest, List.length_cons, Nat.add_assoc, Nat.add_comm 1]

theorem State.tirStep_promoted {s : State} {x : TirCmd} (hop : x.op = 0x41 ∨ x.op = 0x43)
    (hdone : ∀ p ∈ x.pages, ((s.pte p).st == .media || (s.pte p).st == .fetching) = false) :
    s.tirStep x = s.tirEnd x stOk (x.done + x.pages.length) (x.total - (x.done + x.pages.length)) := by
  have hon := tirPromoteOn_done x.pages [] x.done hdone
  unfold State.tirStep
  rcases hop with hop | hop <;> rw [hop, hon] <;> rfl

theorem State.tirStep_demoted {s : State} {x : TirCmd} (hop : x.op = 0x42) (hdone : ∀ p ∈ x.pages, (s.pte p).st ≠ .demoting) :
    s.tirStep x = s.tirEnd x stOk (x.pages.filter (fun p => (s.pte p).st == .media)).length (x.total - (x.pages.filter (fun p => (s.pte p).st == .media)).length) := by
  unfold State.tirStep
  rw [hop]
  exact if_neg (by simpa using hdone)

theorem State.tirStep_demoting {s : State} {x : TirCmd} (hop : x.op = 0x42) (hleft : ∃ p ∈ x.pages, (s.pte p).st = .demoting) : s.tirStep x = s := by
  unfold State.tirStep
  rw [hop]
  exact if_pos (by simpa using hleft)

theorem State.tirStep_discarded {s : State} {x : TirCmd} (hop : x.op = 0x40) (hfwd : x.fwd = 0) (hsealed : ∀ e, x.epoch = some e → e ≤ s.pair.confirmed)
    (hdone : ∀ p ∈ x.pages, p ∉ s.tier.discardLater) : s.tirStep x = s.tirEnd x stOk x.done (x.total - x.done) := by
  have hpages : (!x.pages.any (fun p => s.tier.discardLater.contains p)) = true := by simpa using hdone
  unfold State.tirStep
  rw [hop]
  refine if_pos ?_
  rw [hfwd, hpages]
  cases hepoch : x.epoch with
  | none => rfl
  | some e => simpa [State.isConfirmed] using hsealed e hepoch

/-! ### The TIR commands (R221, R235, R236) -/

section
variable {s : State} {q i : Nat} {c : RqCmd}

/-- TIR_DISCARD of a range that this twin owns: what becomes of its pages. -/
theorem State.tirDiscard_pages (h : s.blockRuns q c 0xA i 0x40 true) (hz : tirZero false c = true) (hfit : s.tirFits c)
    (hone : (c.index / 4096 + c.w5.toNat / 4096 - 1) / 2 ^ 18 = c.index / 4096 / 2 ^ 18) (hown : s.owns (c.index / 4096 / 2 ^ 18) = true) :
    let first := c.index / 4096
    let n := c.w5.toNat / 4096
    ∃ v : State, s.tirDiscard q = v.tirStart (s.discardCmd q first n (s.rangePages first n).length 0)
      ∧ (∀ p, first ≤ p ∧ p < first + n → ¬ s.discardWaits p → (v.pte p).st = .zero)
      ∧ (∀ p, first ≤ p ∧ p < first + n → s.discardWaits p → p ∈ v.tier.discardLater)
      ∧ (∀ p, ¬ (first ≤ p ∧ p < first + n) → v.pte p = s.pte p) := by
  intro first n
  obtain ⟨hdisc, -⟩ := (s.running q).discardRange_discarded first n
  rw [State.rangePages_running] at hdisc
  have hwaits (p : Nat) : (s.running q).discardWaits p ↔ s.discardWaits p := by
    unfold State.discardWaits
    rw [State.pte_running, State.pageFilling_congr (congrArg Cache.mshrs (s.running_cache q))]
  refine ⟨_, State.tirDiscard_owned h hz hfit hone hown, fun p hp hw => ?_, fun p hp hw => ?_, fun p hp => ?_⟩
  · by_cases hzero : (s.pte p).st = .zero
    · by_cases hmem : p ∈ s.rangePages first n
      · exact hdisc.gone p hmem (mt (hwaits p).mp hw)
      · exact (congrArg Pte.st ((hdisc.others p hmem).trans (s.pte_running q p))).trans hzero
    · exact hdisc.gone p (State.mem_rangePages hp hzero) (mt (hwaits p).mp hw)
  · have hzero : (s.pte p).st ≠ .zero := fun hzero => State.not_discardWaits_of_zero hzero hw
    exact hdisc.later p (State.mem_rangePages hp hzero) ((hwaits p).mpr hw)
  · exact (hdisc.others p (mt State.range_of_mem_rangePages hp)).trans (s.pte_running q p)

/-- The entries of a range after TIR_PIN wrote PIN of each page. -/
theorem State.pte_foldl_pin_running (s : State) (q : Nat) (set : Bool) (a n p : Nat) :
    ((((List.range n).map (fun k => a + k)).foldl (fun s p => s.setPte p { s.pte p with pin := set }) (s.running q)).pte p)
      = if a ≤ p ∧ p < a + n then { s.pte p with pin := set } else s.pte p := by
  rw [State.pte_foldl_pin, State.pte_running]
  exact if_congr mem_range_map_add rfl rfl

end

/-- Settles O59: each TIR command by what it does to the pages of its range, and the end of each from the states of its pages. -/
theorem tierCommands : Obligations.TierCommands := by
  unfold Obligations.TierCommands
  intro s q c i u len first n fits inR waits
  refine ⟨fun h hz => ⟨fun hfit => congrArg Host.Outcome.next (State.tirCmd_misfit h hz _ hfit), fun hfit => congrArg Host.Outcome.next ?promote⟩,
    fun h hz => ⟨fun hfit => congrArg Host.Outcome.next (State.tirCmd_misfit h hz _ hfit), fun hfit => congrArg Host.Outcome.next ?demote⟩,
    fun p => State.demote_halted, fun p => State.pte_demote,
    fun h hz => ⟨fun hfit => congrArg Host.Outcome.next (State.tirCmd_misfit h hz _ hfit), fun hfit hset hmuch => congrArg Host.Outcome.next ?pinTooMuch, fun hfit hset hmuch => ?pin, fun hfit hclear => ?unpin⟩,
    fun h hz => ⟨fun hfit => congrArg Host.Outcome.next (State.tirCmd_misfit h hz _ hfit), fun hfit hone hown => ?discard, fun hfit hone hown => congrArg Host.Outcome.next (State.tirDiscard_twins h hz hfit hone hown)⟩,
    fun x => State.tirStep_promoted, fun x => State.tirStep_demoted, fun x => State.tirStep_demoting, fun x => State.tirStep_discarded⟩
  case promote =>
    refine (State.tirCmd_fits h hz _ hfit).trans ?_
    simp only [State.rangePages_running, State.pte_running]
    rfl
  case demote =>
    have hheld (p : Nat) : (s.running q).pageHeld p = s.pageHeld p := by
      unfold State.pageHeld State.pageWays
      rw [s.running_cache]
    refine (State.tirCmd_fits h hz _ hfit).trans ?_
    simp only [State.rangePages_running, State.pte_running, hheld]
    rfl
  case pinTooMuch =>
    exact (State.tirPin_fits h hz hfit).trans (if_pos (by simpa [hset] using hmuch))
  case pin =>
    refine ⟨_, congrArg Host.Outcome.next ((State.tirPin_fits h hz hfit).trans ((if_neg (by simpa [hset] using hmuch)).trans (if_pos (by simp [hset])))), fun p hp => ?_, fun p hp => ?_⟩
    · rw [State.pte_foldl_pin_running, if_pos hp, hset]
      rfl
    · rw [State.pte_foldl_pin_running, if_neg hp]
  case unpin =>
    refine ⟨_, congrArg Host.Outcome.next ((State.tirPin_fits h hz hfit).trans ((if_neg (by simp [hclear])).trans (if_neg (by simp [hclear])))), fun p hp => ?_, fun p hp => ?_⟩
    · rw [State.pte_foldl_pin_running, if_pos hp, hclear]
      rfl
    · rw [State.pte_foldl_pin_running, if_neg hp]
  case discard =>
    obtain ⟨v, hv, hgone, hlater, hothers⟩ := State.tirDiscard_pages h hz hfit hone hown
    exact ⟨v, congrArg Host.Outcome.next hv, fun p hp hst hfill => hgone p hp (by simp [State.discardWaits, hst, hfill]), hlater, hothers⟩

end Sys2Proof.Machine
end

section
/-! PROOFS. What the end of a command may do to a state; what the media manager's work leaves of counters, flags and failed dies (O51). -/

namespace Sys2Proof.Machine

/-! ### The end of a command: what it may do to a state (R56 to R58) -/

/-- A relation between states that every step of ending a command keeps: a change of what the queues hold, of what leaves the block, a message,
QUEUE_ERR, a write of a queue's register (even of a queue the U96 does not have). -/
structure QueueSafe (R : State → State → Prop) : Prop where
  refl : ∀ s, R s s
  trans : ∀ {a b c}, R a b → R b c → R a c
  setRq : ∀ s q r, R s (s.setRq q r)
  emit : ∀ s o, R s (s.emit o)
  msix : ∀ s v, R s (s.msix v)
  queueErr : ∀ s, R s (s.raise 0 1)
  wrQueue : ∀ s (f : Fld) v q, f.page = 0 → 48 ≤ f.off % 64 → R s (s.wr f v 0 (rqOff q))

section
variable {R : State → State → Prop} (hR : QueueSafe R)
include hR

theorem QueueSafe.rqMsix (s : State) (q : Nat) : R s (s.rqMsix q) := by
  unfold State.rqMsix
  split
  · exact hR.msix s _
  · exact hR.refl s

theorem QueueSafe.rqError (s : State) (q code index : Nat) : R s (s.rqError q code index) := by
  unfold State.rqError
  exact hR.trans (hR.trans (hR.trans (hR.trans (hR.wrQueue s _ _ q rfl (by decide)) (hR.wrQueue _ _ _ q rfl (by decide))) (hR.wrQueue _ _ _ q rfl (by decide)))
    (hR.queueErr _)) (hR.rqMsix _ q)

theorem QueueSafe.postNow (s : State) (q : Nat) (p : Posting) : R s (s.postNow q p) := by
  unfold State.postNow
  split
  · exact hR.rqError s q _ _
  · extract_lets o tail phase w0 u next v w
    have hv : R s v := hR.trans (hR.emit s _) (hR.wrQueue u _ _ q rfl (by decide))
    have hw : R s w := by
      unfold w
      split
      · exact hR.trans hv (hR.wrQueue v _ _ q rfl (by decide))
      · exact hv
    split
    · exact hR.trans hw (hR.rqMsix w q)
    · exact hw

theorem QueueSafe.postAll (k : Nat) (s : State) (q : Nat) : R s (postAll k s q) := by
  induction k generalizing s with
  | zero => exact hR.refl s
  | succ k ih =>
    unfold Machine.postAll
    dsimp only
    split
    · exact hR.refl s
    · split
      · split
        · exact hR.trans (hR.trans (hR.setRq s q _) (hR.postNow _ q _)) (ih _)
        · exact hR.refl s
      · split
        · exact hR.wrQueue s _ _ q rfl (by decide)
        · exact hR.refl s

theorem QueueSafe.complete (s : State) (q status : Nat) (result : Word64) : R s (s.complete q status result) := by
  unfold State.complete
  dsimp only
  split
  · exact hR.setRq s q _
  · split
    · exact hR.refl s
    · exact hR.trans (hR.setRq s q _) (hR.postAll _ _ q)

theorem QueueSafe.rqAdvance (k : Nat) (s : State) (q : Nat) : R s (rqAdvance k s q) := by
  induction k generalizing s with
  | zero => exact hR.refl s
  | succ k ih =>
    unfold Machine.rqAdvance
    split
    · exact hR.refl s
    · split
      · exact hR.refl s
      · split
        · exact hR.trans (hR.complete s q _ _) (ih _)
        · exact hR.refl s

theorem QueueSafe.finishCmd (s : State) (q status result : Nat) : R s (s.finishCmd q status result) := by
  unfold State.finishCmd State.advance
  exact hR.trans (hR.complete ..) (hR.rqAdvance ..)

end

/-! ### What the media manager's work leaves standing (R283, R284, R294, R298) -/

/-- The flags of a page are never cleared by an event. -/
theorem State.flagged_raise (s : State) (p n : Nat) {q m : Nat} (h : s.flagged q m = true) : (s.raise p n).flagged q m = true := by
  have hset : (s.setFlags p (1#64 <<< n)).flagged q m = true := by
    unfold State.flagged bit at h ⊢
    rw [State.reg_setFlags]
    split
    · rw [BitVec.getLsbD_or, h, Bool.true_or]
    · exact h
  have hfault : regKey q 0x20 ≠ PG_STAT_FAULT.key p 0 := by
    simp only [Fld.key, regKey]
    omega
  unfold State.raise State.raiseWith
  split
  · dsimp only
    split
    · exact (State.flagged_wr _ q m hfault).trans hset
    · exact hset
  · exact h

/-- Counters of MED, and those of NCH that count programs and bytes programmed, but for the registers at a queue's place in a page. -/
def nandKept (k : Nat) : Prop :=
  (k / 0x10000 = 0xC ∧ 0x400 ≤ k % 0x10000 ∨ 0x80 ≤ k / 0x10000 ∧ (k % 0x10000 = 0x408 ∨ k % 0x10000 = 0x420)) ∧ k % 64 < 48

/-- A register that is none of these counters, no PG_EVT and no NCH.DIES. -/
def nandSide (k : Nat) : Prop := ¬ nandKept k ∧ k % 0x10000 ≠ 0x20 ∧ (k % 0x10000 = 0x110 → k < 0x800000)

/-- From `s` to `t` those counters and the bad blocks stand, flags of events stay raised, and a die that FAILED stays so. -/
structure NandWork (s t : State) : Prop where
  counters : ∀ k, nandKept k → t.reg k = s.reg k
  flags : ∀ p n, s.flagged p n = true → t.flagged p n = true
  failed : ∀ c, ∀ d < 16, s.dieSt c d = 4 → t.dieSt c d = 4
  bad : t.media.bad = s.media.bad

theorem NandWork.of_regs {s t : State} (hr : t.regs = s.regs) (hb : t.media.bad = s.media.bad) : NandWork s t := by
  refine ⟨fun k _ => State.reg_congr hr k, fun p n h => ?_, fun c d _ h => ?_, hb⟩
  · unfold State.flagged at h ⊢
    rwa [State.reg_congr hr]
  · unfold State.dieSt at h ⊢
    rwa [State.rd_congr hr]

theorem NandWork.refl (s : State) : NandWork s s := .of_regs rfl rfl

theorem NandWork.trans {a b c : State} (h : NandWork a b) (k : NandWork b c) : NandWork a c :=
  ⟨fun j hj => (k.counters j hj).trans (h.counters j hj), fun p n hf => k.flags p n (h.flags p n hf), fun c d hd hf => k.failed c d hd (h.failed c d hd hf), k.bad.trans h.bad⟩

/-- A change of neither registers nor bad blocks. -/
theorem NandWork.upd {s t u : State} (h : NandWork s t) (hr : u.regs = t.regs) (hb : u.media.bad = t.media.bad) : NandWork s u := h.trans (.of_regs hr hb)

theorem NandWork.foldl {α : Type} {f : State → α → State} (h : ∀ s x, NandWork s (f s x)) (s : State) (l : List α) : NandWork s (l.foldl f s) :=
  List.foldlRecOn (motive := NandWork s) l f (NandWork.refl s) (fun _ hu x _ => hu.trans (h _ x))

theorem NandWork.rd {s t : State} (h : NandWork s t) {f : Fld} {i a : Nat} (hk : nandKept (f.key i a)) : t.rd f i a = s.rd f i a := by
  unfold State.rd
  rw [h.counters _ hk]

theorem State.wr_nandWork (s : State) {f : Fld} {v i a : Nat} (h : nandSide (f.key i a)) : NandWork s (s.wr f v i a) := by
  obtain ⟨hkept, hflag, hdie⟩ := h
  refine ⟨fun k hk => ?_, fun p n hf => ?_, fun c d _ hd => ?_, by rw [State.wr_media]⟩
  · rw [State.reg_wr, if_neg]
    rintro rfl
    exact hkept hk
  · rwa [State.flagged_wr]
    intro hkey
    rw [← hkey] at hflag
    unfold regKey at hflag
    omega
  · unfold State.dieSt at hd ⊢
    rwa [State.rd_wr_other]
    intro hkey
    rw [← hkey] at hdie
    simp only [Fld.key, regKey] at hdie
    omega

theorem State.raise_nandWork (s : State) (p n : Nat) : NandWork s (s.raise p n) := by
  refine ⟨fun k hk => State.reg_raise s p n ?_ ?_, fun q m => s.flagged_raise p n, fun c d _ hd => ?_, by rw [State.raise_media]⟩
  · unfold nandKept at hk
    unfold regKey
    omega
  · unfold nandKept at hk
    unfold regKey
    omega
  · unfold State.dieSt at hd ⊢
    rwa [State.rd_raise]
    all_goals
      simp only [Fld.key, regKey]
      omega

theorem State.raiseIf_nandWork (s : State) (b : Bool) (p n : Nat) : NandWork s (s.raiseIf b p n) := by
  unfold State.raiseIf
  split
  · exact s.raise_nandWork p n
  · exact .refl s

theorem nandWork_queueSafe : QueueSafe NandWork where
  refl := .refl
  trans := .trans
  setRq _ _ _ := .of_regs rfl rfl
  emit _ _ := .of_regs rfl rfl
  msix s v := .of_regs (State.msix_regs ..) (by rw [State.msix_media])
  queueErr s := s.raise_nandWork 0 1
  wrQueue s f v q hp ho := s.wr_nandWork (by
    simp only [nandSide, nandKept, Fld.key, regKey, rqOff, hp]
    omega)

/-- A register of the core's pages ahead of their counters, other than PG_EVT. -/
theorem nandSide_low {f : Fld} {i a : Nat} (hp : f.page + i < 0x80) (ho : f.off + a < 0x400) (he : f.off + a ≠ 0x20) : nandSide (f.key i a) := by
  simp only [nandSide, nandKept, Fld.key, regKey]
  omega

theorem NandWork.low {s t : State} (h : NandWork s t) {f : Fld} {v i a : Nat} (hp : f.page + i < 0x80) (ho : f.off + a < 0x400) (he : f.off + a ≠ 0x20) :
    NandWork s (t.wr f v i a) := h.trans (t.wr_nandWork (nandSide_low hp ho he))

theorem NandWork.raiseIf {s t : State} (h : NandWork s t) (b : Bool) (p n : Nat) : NandWork s (t.raiseIf b p n) := h.trans (t.raiseIf_nandWork b p n)

/-! ### DRAM requests -/

theorem State.dchCount_nandWork (s : State) (c : Nat) {k : Nat} (n : Nat) (hk : k = 5 ∨ k = 9 ∨ k = 10) : NandWork s (s.dchCount c k n) := by
  refine s.wr_nandWork ?_
  simp only [nandSide, nandKept, Fld.key, regKey]
  omega

theorem State.dramReq_nandWork (s : State) (c f j : Nat) (write : Bool) (cls : Nat) : NandWork s (s.dramReq c f j write cls) := by
  unfold State.dramReq
  extract_lets x line r tier u cancel v w full x'
  have hu : NandWork s u := .of_regs rfl rfl
  have hv : NandWork s v := by
    unfold v
    split
    · exact hu.trans (u.dchCount_nandWork c 1 (.inr (.inr rfl)))
    · exact hu
  have hw : NandWork s w := by
    unfold w
    split
    · exact hv.trans (v.dchCount_nandWork c 1 (.inr (.inl rfl)))
    · exact hv
  split
  · exact .refl s
  · split
    · exact hw.upd rfl rfl
    · split
      · have hx : NandWork s (w.setChan c { x' with ovf := x'.ovf ++ [r] }) := hw.upd rfl rfl
        exact hx.trans (State.dchCount_nandWork _ c 1 (.inl rfl))
      · exact hw.upd rfl rfl

theorem State.lineReq_nandWork (s : State) (k ch : Nat) (write : Bool) (cls : Nat) : NandWork s (s.lineReq k ch write cls) := by
  unfold State.lineReq
  split <;> exact s.dramReq_nandWork ..

theorem State.setPte_nandWork (s : State) (p : Nat) (e : Pte) : NandWork s (s.setPte p e) := by
  unfold State.setPte
  split
  · exact .refl s
  · extract_lets tier t
    have ht : NandWork s t := .of_regs rfl rfl
    split
    · exact ht
    · exact ht.trans (State.lineReq_nandWork ..)

/-! ### Capacity and budget computed again (R232, R234, R270, R272) -/

theorem State.budgetRecompute_nandWork (s : State) : NandWork s s.budgetRecompute := by
  unfold State.budgetRecompute
  extract_lets ho f m budget t cap e u v low fl w w' tier
  have ht : NandWork s t := (NandWork.refl s).low (by decide) (by decide) (by decide)
  have hu : NandWork s u := ((ht.low (by decide) (by decide) (by decide)).low (by decide) (by decide) (by decide)).low (by decide) (by decide) (by decide)
  have hv : NandWork s v := hu.low (by decide) (by decide) (by decide)
  split
  · exact hv
  · exact ((hv.raiseIf ..).raiseIf ..).upd rfl rfl

theorem NandWork.shortSaid {s t : State} (h : NandWork s t) (b : Bool) : NandWork s { t with media := { t.media with shortSaid := b } } := h.upd rfl rfl

theorem State.mediaRecompute_nandWork (s : State) : NandWork s s.mediaRecompute := by
  unfold State.mediaRecompute
  extract_lets t u v short w media
  have ht : NandWork s t := ((NandWork.refl s).low (by decide) (by decide) (by decide)).low (by decide) (by decide) (by decide)
  have hu : NandWork s u := (ht.low (by decide) (by decide) (by decide)).low (by decide) (by decide) (by decide)
  have hv : NandWork s v := (hu.low (by decide) (by decide) (by decide)).low (by decide) (by decide) (by decide)
  have hw : NandWork s w := hv.raiseIf ..
  clear_value w short v u t
  exact (hw.shortSaid short).trans (State.budgetRecompute_nandWork _)

/-! ### A die's state (R284) -/

/-- A number split at an octal digit, with the digit replaced. -/
theorem octal_split (x r v : Nat) : x - x / 8 ^ r % 8 * 8 ^ r + v * 8 ^ r = (8 * (x / 8 ^ r / 8) + v) * 8 ^ r + x % 8 ^ r := by
  have hlow := Nat.div_add_mod x (8 ^ r)
  have hdigit : 8 ^ r * (x / 8 ^ r) = 8 * (x / 8 ^ r / 8) * 8 ^ r + x / 8 ^ r % 8 * 8 ^ r := by
    rw [← Nat.add_mul, Nat.div_add_mod, Nat.mul_comm]
  rw [Nat.add_mul]
  omega

theorem octal_shift (h r lo : Nat) (hlo : lo < 8 ^ r) : (h * 8 ^ r + lo) / 8 ^ r = h := by
  rw [Nat.mul_comm, Nat.mul_add_div (Nat.pow_pos (by decide)), Nat.div_eq_of_lt hlo, Nat.add_zero]

theorem octal_replaced (x r : Nat) {v : Nat} (hv : v < 8) : (x - x / 8 ^ r % 8 * 8 ^ r + v * 8 ^ r) / 8 ^ r % 8 = v := by
  rw [octal_split, octal_shift _ _ _ (Nat.mod_lt x (Nat.pow_pos (by decide)))]
  omega

/-- An octal digit of a number in which another one is replaced. -/
theorem octal_replaced_other (x : Nat) {r d : Nat} {v : Nat} (hv : v < 8) (hd : d ≠ r) :
    (x - x / 8 ^ r % 8 * 8 ^ r + v * 8 ^ r) / 8 ^ d % 8 = x / 8 ^ d % 8 := by
  rw [octal_split]
  rcases Nat.lt_or_gt_of_ne hd with hlow | hhigh
  · obtain ⟨k, rfl⟩ : ∃ k, r = d + 1 + k := ⟨r - (d + 1), by omega⟩
    rw [← digit_mod (Nat.lt_add_one_of_le (Nat.le_add_right d k)) x, ← digit_mod (Nat.lt_add_one_of_le (Nat.le_add_right d k)), Nat.add_right_comm,
      Nat.mul_add_mod', Nat.mod_mod]
  · obtain ⟨k, rfl⟩ : ∃ k, d = r + (1 + k) := ⟨d - (r + 1), by omega⟩
    have hdown (y : Nat) : y / 8 ^ (r + (1 + k)) = y / 8 ^ r / 8 / 8 ^ k := by rw [pow_add, pow_add, pow_one, Nat.div_div_eq_div_mul, Nat.div_div_eq_div_mul]
    have hdrop : (8 * (x / 8 ^ r / 8) + v) / 8 = x / 8 ^ r / 8 := by omega
    rw [hdown, hdown x, octal_shift _ _ _ (Nat.mod_lt x (Nat.pow_pos (by decide))), hdrop]

/-- What the states of a channel's dies are after one was written. -/
theorem State.dieSt_setDieSt (s : State) (c d : Nat) {v : Nat} (hv : v < 8) (c' : Nat) {d' : Nat} (hd' : d' < 16) :
    (s.setDieSt c d v).dieSt c' d' = if c' = c ∧ d' = d then v else s.dieSt c' d' := by
  have hgeom : NCH_DIES_STATE.key c' 0 ≠ MED_GEOM_DIES.key 0 0 := by
    simp only [Fld.key, regKey]
    omega
  unfold State.setDieSt State.dieSt
  rw [State.rd_wr_other _ _ _ _ _ _ _ _ hgeom]
  change ((s.wr NCH_DIES_STATE _ c).rd NCH_DIES_STATE c' / 8 ^ d') % 8 = _
  by_cases hc : c' = c
  · subst hc
    rw [State.rd_wr_same s NCH_DIES_STATE _ _ _ (by decide) (by decide), show 2 ^ (NCH_DIES_STATE.hi + 1 - NCH_DIES_STATE.lo) = 8 ^ 16 by decide, digit_mod hd']
    by_cases hd : d' = d
    · subst hd
      rw [octal_replaced _ _ hv, if_pos ⟨rfl, rfl⟩]
    · rw [octal_replaced_other _ hv hd, if_neg (fun h => hd h.2)]
  · rw [if_neg (fun h => hc h.1), State.rd_wr_other]
    simp only [Fld.key, regKey]
    omega

theorem State.setDieSt_nandWork (s : State) (c d : Nat) {v : Nat} (hv : v < 8) (hfail : s.dieSt c d = 4 → v = 4) : NandWork s (s.setDieSt c d v) := by
  refine ⟨fun k hk => ?_, fun p n hf => ?_, fun c' d' hd' h => ?_, ?_⟩
  · unfold State.setDieSt
    rw [State.reg_wr, if_neg]
    · change (s.wr NCH_DIES_STATE _ c).reg k = _
      rw [State.reg_wr, if_neg]
      rintro rfl
      simp only [nandKept, Fld.key, regKey] at hk
      omega
    · rintro rfl
      simp only [nandKept, Fld.key, regKey] at hk
      omega
  · unfold State.setDieSt
    rw [State.flagged_wr]
    · change (s.wr NCH_DIES_STATE _ c).flagged p n = true
      rwa [State.flagged_wr]
      simp only [Fld.key, regKey]
      omega
    · simp only [Fld.key, regKey]
      omega
  · rw [State.dieSt_setDieSt s c d hv c' hd']
    split
    · next heq => exact hfail (heq.1 ▸ heq.2 ▸ h)
    · exact h
  · unfold State.setDieSt State.jrn
    simp

end Sys2Proof.Machine
end

section
/-! PROOFS. Programs moved, dies that fail, blocks that turn bad (O51). -/

namespace Sys2Proof.Machine

/-! ### Programs start, end and move (R269, R271, R283) -/

theorem State.progEnds_nandWork (s : State) (c d stream : Nat) : NandWork s (s.progEnds c d stream) := by
  unfold State.progEnds
  dsimp only
  split
  · exact .of_regs rfl rfl
  · split <;> exact .of_regs rfl rfl

theorem State.readyOpen_nandWork (s : State) (stream : Nat) (slc : Bool) : NandWork s (s.readyOpen stream slc) := by
  have hclose (u : State) (g : Nat) : NandWork u (u.closeSb stream g slc) := by
    unfold State.closeSb
    split <;> exact .of_regs rfl rfl
  have hopen (u v : State) (g : Nat) (h : u.openSb stream g slc = some v) : NandWork u v := by
    unfold State.openSb at h
    split at h
    · exact nomatch h
    · split at h
      · exact nomatch h
      · obtain rfl := Option.some.inj h
        exact .of_regs rfl rfl
  unfold State.readyOpen
  refine NandWork.foldl (fun u g => ?_) s _
  dsimp only
  split
  · exact .refl u
  · split
    · next hv => exact (hclose u g).trans (hopen _ _ g hv)
    · exact hclose u g

theorem State.startProg_nandWork {s t : State} {stream a : Nat} {slc : Bool} {src : Option Nat} {u : MUnit} (h : s.startProg stream slc src u = some (a, t)) : NandWork s t := by
  unfold State.startProg at h
  split at h
  · exact nomatch h
  · extract_lets v l at h
    have hv : NandWork s v := s.readyOpen_nandWork stream slc
    clear_value v
    split at h
    · exact nomatch h
    · split at h
      · exact nomatch h
      · extract_lets x n b w0 w y g at h
        have hw : NandWork s w := by
          have h0 : NandWork s w0 := hv.upd rfl rfl
          unfold w
          split
          · exact h0.trans (w0.wr_nandWork (by unfold nandSide nandKept; decide))
          · exact h0
        clear_value w
        have hy : NandWork s y := hw.trans (.of_regs (by unfold y; rw [State.askIn_eq]) (by unfold y; rw [State.askIn_eq]))
        clear_value y
        obtain ⟨-, rfl⟩ := Prod.mk.inj (Option.some.inj h)
        exact hy.upd rfl rfl

/-- A destage that found no place starts again later. -/
theorem State.redoDestages_nandWork (s : State) (ds : List (Nat × Destage)) : NandWork s (ds.foldl (fun (s : State) d =>
      let s := if (s.pte d.1).st == .demoting then s.setPte d.1 { s.pte d.1 with st := .resident } else s
      { s with tier := { s.tier with redo := insertNat s.tier.redo d.1 } }) s) := by
  refine NandWork.foldl (fun u d => ?_) s ds
  dsimp only
  split
  · exact (u.setPte_nandWork _ _).upd rfl rfl
  · exact .of_regs rfl rfl

theorem State.reprogram_nandWork (s : State) (a : Nat) (p : Prog) : NandWork s (s.reprogram a p) := by
  unfold State.reprogram
  extract_lets m t u ds v tier w m'
  have ht : NandWork s t := .of_regs rfl rfl
  have hu : NandWork s u := ht.trans (State.progEnds_nandWork ..)
  clear_value u
  split
  · next hstart => exact (hu.trans (State.startProg_nandWork hstart)).upd rfl rfl
  · have hv : NandWork s v := hu.trans (u.redoDestages_nandWork ds)
    have hw : NandWork s w := hv.upd rfl rfl
    split
    · exact hw.upd rfl rfl
    · exact hw

theorem State.moveUnits_nandWork (s : State) (stream : Nat) (p : Nat → Bool) : NandWork s (s.moveUnits stream p) := .of_regs rfl rfl

/-! ### A die fails, a retirement ends (R284, R293) -/

theorem State.retireCheck_nandWork (s : State) : NandWork s s.retireCheck := by
  unfold State.retireCheck
  refine NandWork.foldl (fun u e => ?_) s _
  extract_lets c d left v m w
  split
  · exact .refl u
  · have hv : NandWork u v := by
      unfold v
      split
      · next hret => exact ((u.setDieSt_nandWork c d (by decide) (fun _ => rfl)).trans (State.raise_nandWork _ _ _)).trans (State.mediaRecompute_nandWork _)
      · exact .refl u
    have hw : NandWork u w := hv.upd rfl rfl
    exact hw.trans (nandWork_queueSafe.finishCmd ..)

/-- What follows once a die is marked FAILED: its programs and units go elsewhere, and its retirement ends. -/
theorem State.dieFailed_nandWork (s : State) (ps : List (Nat × Prog)) (p : Nat → Bool) :
    NandWork s (((ps.foldl (fun s e => s.reprogram e.1 e.2) s).moveUnits 2 p).mediaRecompute).retireCheck := by
  have hmoved := (NandWork.foldl (fun u e => u.reprogram_nandWork e.1 e.2) s ps).trans (State.moveUnits_nandWork _ 2 p)
  have hcounted := hmoved.trans (State.mediaRecompute_nandWork _)
  exact hcounted.trans (State.retireCheck_nandWork _)

theorem State.dieFails_nandWork (s : State) (c d : Nat) : NandWork s (s.dieFails c d) := by
  unfold State.dieFails
  split
  · exact .refl s
  · exact ((s.setDieSt_nandWork c d (by decide) (fun _ => rfl)).trans (State.raise_nandWork ..)).trans (State.dieFailed_nandWork ..)

/-- DIE_FAILED is an event of every channel's NAND page. -/
theorem dieFailed_event {c : Nat} (hc : c < 32) : ∃ sev b i, evSeverity (0x80 + c) 5 = some sev ∧ blockOf (0x80 + c) = some (b, i) := by
  have hevent : ∀ c < 32, (evSeverity (0x80 + c) 5).isSome ∧ (blockOf (0x80 + c)).isSome := by decide
  obtain ⟨hsev, hblock⟩ := hevent c hc
  obtain ⟨sev, hsev⟩ := Option.isSome_iff_exists.mp hsev
  obtain ⟨⟨b, i⟩, hblock⟩ := Option.isSome_iff_exists.mp hblock
  exact ⟨sev, b, i, hsev, hblock⟩

/-- A die that was in use is FAILED, its event raised (R284). -/
theorem State.dieFails_failed {s : State} {c d : Nat} (hc : c < 32) (hd : d < 16) (habsent : s.dieSt c d ≠ 0) (hfailed : s.dieSt c d ≠ 4) :
    (s.dieFails c d).dieSt c d = 4 ∧ (s.dieFails c d).flagged (0x80 + c) 5 = true := by
  obtain ⟨sev, b, i, hsev, hblock⟩ := dieFailed_event hc
  unfold State.dieFails
  rw [if_neg (by simp [habsent, hfailed])]
  have hdie : ((s.setDieSt c d 4).raise (0x80 + c) 5).dieSt c d = 4 :=
    (State.raise_nandWork _ _ _).failed c d hd ((s.dieSt_setDieSt c d (by decide) c hd).trans (if_pos ⟨rfl, rfl⟩))
  have hrest := State.dieFailed_nandWork ((s.setDieSt c d 4).raise (0x80 + c) 5)
  exact ⟨(hrest _ _).failed c d hd hdie, (hrest _ _).flags _ _ (State.raise_raisedIn _ _ _ hsev hblock (by decide)).1⟩

/-! ### A block turns bad (R283, R284) -/

/-- A block that turns bad joins the list; counters stand. -/
theorem State.badBlock_bad (s : State) (c d pl k cause : Nat) :
    addrBlk (mediaAddr c d pl k 0 0) ∈ (s.badBlock c d pl k cause).1.media.bad ∧ ∀ j, nandKept j → (s.badBlock c d pl k cause).1.reg j = s.reg j := by
  unfold State.badBlock
  extract_lets b m t u v w
  split
  · next hin => exact ⟨by simpa using hin, fun _ _ => rfl⟩
  · have ht : NandWork t (t.jrn (.badBlock c d pl k cause)) := .of_regs rfl rfl
    have hu : NandWork t u := ht.trans (State.raise_nandWork _ _ _)
    have hw : NandWork t w := hu.upd rfl rfl
    refine ⟨?_, hw.counters⟩
    rw [hw.bad]
    exact mem_insertNat_self _ b

/-- PROGRAM_FAIL of a program in flight, and ERASE_FAIL (R283, R284): what follows the block's turning bad. -/
theorem State.reg_badBlock_then {s t : State} {c d pl k cause : Nat} (h : NandWork (s.badBlock c d pl k cause).1 t) :
    addrBlk (mediaAddr c d pl k 0 0) ∈ t.media.bad ∧ ∀ j, nandKept j → t.reg j = s.reg j := by
  obtain ⟨hbad, hregs⟩ := s.badBlock_bad c d pl k cause
  exact ⟨h.bad ▸ hbad, fun j hj => (h.counters j hj).trans (hregs j hj)⟩

end Sys2Proof.Machine
end

section
/-! PROOFS. What the media manager's work leaves of units, superblocks and the page table; a program's unit mapped (O51). -/

namespace Sys2Proof.Machine

/-! ### What counting and capacity leave of the tables (R231, R272, R275) -/

/-- From `s` to `t` the units, programs and superblocks of NAND, the page table and the destages stand. -/
structure NandTables (s t : State) : Prop where
  units : t.media.units = s.media.units
  progs : t.media.progs = s.media.progs
  sbs : t.media.sbs = s.media.sbs
  pt : t.tier.pt = s.tier.pt
  destages : t.tier.destages = s.tier.destages

theorem NandTables.of_eq {s t : State} (hm : t.media = s.media) (ht : t.tier = s.tier) : NandTables s t := by
  refine ⟨?_, ?_, ?_, ?_, ?_⟩ <;> first | rw [hm] | rw [ht]

theorem NandTables.refl (s : State) : NandTables s s := .of_eq rfl rfl

theorem NandTables.trans {a b c : State} (h : NandTables a b) (k : NandTables b c) : NandTables a c :=
  ⟨k.units.trans h.units, k.progs.trans h.progs, k.sbs.trans h.sbs, k.pt.trans h.pt, k.destages.trans h.destages⟩

theorem NandTables.upd {s t u : State} (h : NandTables s t) (hunits : u.media.units = t.media.units) (hprogs : u.media.progs = t.media.progs) (hsbs : u.media.sbs = t.media.sbs)
    (hpt : u.tier.pt = t.tier.pt) (hd : u.tier.destages = t.tier.destages) : NandTables s u := h.trans ⟨hunits, hprogs, hsbs, hpt, hd⟩

theorem NandTables.foldl {α : Type} {f : State → α → State} (h : ∀ s x, NandTables s (f s x)) (s : State) (l : List α) : NandTables s (l.foldl f s) :=
  List.foldlRecOn (motive := NandTables s) l f (NandTables.refl s) (fun _ hu x _ => hu.trans (h _ x))

theorem NandTables.wr {s t : State} (h : NandTables s t) (f : Fld) (v i a : Nat) : NandTables s (t.wr f v i a) := h.trans (.of_eq (State.wr_media ..) (State.wr_tier ..))
theorem NandTables.raise {s t : State} (h : NandTables s t) (p n : Nat) : NandTables s (t.raise p n) := h.trans (.of_eq (State.raise_media ..) (State.raise_tier ..))
theorem NandTables.raiseIf {s t : State} (h : NandTables s t) (b : Bool) (p n : Nat) : NandTables s (t.raiseIf b p n) := h.trans (.of_eq (State.raiseIf_media ..) (State.raiseIf_tier ..))
theorem NandTables.shortSaid {s t : State} (h : NandTables s t) (b : Bool) : NandTables s { t with media := { t.media with shortSaid := b } } := h.upd rfl rfl rfl rfl rfl

theorem State.budgetRecompute_tables (s : State) : NandTables s s.budgetRecompute := by
  unfold State.budgetRecompute
  extract_lets ho f m budget t cap e u v low fl w w' tier
  have hv : NandTables s v := (((((NandTables.refl s).wr ..).wr ..).wr ..).wr ..).wr ..
  clear_value v
  split
  · exact hv
  · exact ((hv.raiseIf ..).raiseIf ..).upd rfl rfl rfl rfl rfl

theorem State.mediaRecompute_tables (s : State) : NandTables s s.mediaRecompute := by
  unfold State.mediaRecompute
  extract_lets t u v short w media
  have hv : NandTables s v := ((((((NandTables.refl s).wr ..).wr ..).wr ..).wr ..).wr ..).wr ..
  have hw : NandTables s w := hv.raiseIf ..
  clear_value w short v u t
  exact (hw.shortSaid short).trans (State.budgetRecompute_tables _)

theorem State.setDieSt_tables (s : State) (c d v : Nat) : NandTables s (s.setDieSt c d v) := by
  unfold State.setDieSt
  extract_lets w t
  have ht : NandTables s t := (NandTables.refl s).wr ..
  have hj : NandTables s (t.jrn (.dieState c d v)) := ht.upd rfl rfl rfl rfl rfl
  exact hj.wr ..

/-- A die is marked SLOW, or back IN_SERVICE, or left as it is (R269). -/
theorem State.slowCheck_cases (s : State) (c d : Nat) (slc : Bool) :
    s.slowCheck c d slc = s ∨ (s.dieSt c d = 1 ∧ s.slowCheck c d slc = ((s.setDieSt c d 2).raise (0x80 + c) 4).mediaRecompute)
      ∨ (s.dieSt c d = 2 ∧ s.slowCheck c d slc = (s.setDieSt c d 1).mediaRecompute) := by
  unfold State.slowCheck
  extract_lets of_ all m mine
  split
  · exact .inl rfl
  · split
    · next hslow => exact .inr (.inl ⟨of_decide_eq_true (Bool.and_eq_true_iff.mp hslow).1, rfl⟩)
    · split
      · next hback => exact .inr (.inr ⟨of_decide_eq_true (Bool.and_eq_true_iff.mp hback).1, rfl⟩)
      · exact .inl rfl

theorem State.slowCheck_tables (s : State) (c d : Nat) (slc : Bool) : NandTables s (s.slowCheck c d slc) := by
  rcases s.slowCheck_cases c d slc with h | ⟨-, h⟩ | ⟨-, h⟩ <;> rw [h]
  · exact .refl s
  · exact ((s.setDieSt_tables c d 2).raise ..).trans (State.mediaRecompute_tables _)
  · exact (s.setDieSt_tables c d 1).trans (State.mediaRecompute_tables _)

theorem State.slowCheck_nandWork (s : State) (c d : Nat) (slc : Bool) : NandWork s (s.slowCheck c d slc) := by
  rcases s.slowCheck_cases c d slc with h | ⟨hst, h⟩ | ⟨hst, h⟩ <;> rw [h]
  · exact .refl s
  · exact ((s.setDieSt_nandWork c d (by decide) (fun h => by omega)).trans (State.raise_nandWork _ _ _)).trans (State.mediaRecompute_nandWork _)
  · exact (s.setDieSt_nandWork c d (by decide) (fun h => by omega)).trans (State.mediaRecompute_nandWork _)

theorem State.dramTaken_tables (s : State) (c f j : Nat) (write : Bool) : NandTables s (s.dramTaken c f j write) := by
  have hset (x : Chan) : NandTables s (s.setChan c x) := ⟨rfl, rfl, rfl, rfl, rfl⟩
  unfold State.dramTaken
  dsimp only
  exact (hset _).wr ..

theorem State.dramTaken_nandWork (s : State) (c f j : Nat) (write : Bool) : NandWork s (s.dramTaken c f j write) := by
  have hset (x : Chan) : NandWork s (s.setChan c x) := .of_regs rfl rfl
  unfold State.dramTaken
  dsimp only
  exact (hset _).trans (State.dchCount_nandWork _ c _ (.inl rfl))

theorem State.wearStats_tables (s : State) : NandTables s s.wearStats := by
  unfold State.wearStats
  extract_lets gs n es m lo t warn u media
  have ht : NandTables s t := (((NandTables.refl s).wr ..).wr ..).wr ..
  have hu : NandTables s u := ht.raiseIf ..
  clear_value u warn t
  exact hu.upd rfl rfl rfl rfl rfl

theorem State.wearStats_nandWork (s : State) : NandWork s s.wearStats := by
  unfold State.wearStats
  extract_lets gs n es m lo t warn u media
  have ht : NandWork s t := (((NandWork.refl s).low (by decide) (by decide) (by decide)).low (by decide) (by decide) (by decide)).low (by decide) (by decide) (by decide)
  have hu : NandWork s u := ht.raiseIf ..
  clear_value u warn t
  exact hu.upd rfl rfl

/-! ### The counters of MED and NCH (R294, R298) -/

theorem State.rd_inc_same (s : State) (f : Fld) (n i a : Nat) (hhi : f.hi < 64) (hlo : f.lo ≤ f.hi) :
    (s.inc f n i a).rd f i a = (s.rd f i a + n) % 2 ^ (f.hi + 1 - f.lo) := State.rd_wr_same _ _ _ _ _ hhi hlo

theorem State.rd_inc_other (s : State) (f g : Fld) (n i a j b : Nat) (h : g.key j b ≠ f.key i a) : (s.inc f n i a).rd g j b = s.rd g j b := State.rd_wr_other _ _ _ _ _ _ _ _ h

/-! ### A program ends (R231, R271, R275) -/

theorem NMap.key_ne_of_mem_erase {α : Type} {m : NMap α} {k : Nat} {e : Nat × α} (h : e ∈ NMap.erase m k) : e.1 ≠ k := by
  induction m with
  | nil => exact absurd h List.not_mem_nil
  | cons x m ih =>
    obtain ⟨j, v⟩ := x
    unfold NMap.erase at h
    split at h
    · exact ih h
    · next hne =>
      rcases List.mem_cons.mp h with rfl | hm
      · exact Ne.symm hne
      · exact ih hm

theorem State.nextProg_mem {s : State} {c d ended : Nat} {e : Nat × Prog} (h : s.nextProg c d ended = some e) : e ∈ s.media.progs := by
  have holdest (q : List (Nat × Prog)) (hq : ∀ x ∈ q, x ∈ s.media.progs) (x : Nat × Prog) (hx : q.foldl (fun b e => match b with
      | none => some e
      | some x => if e.2.no < x.2.no then some e else some x) none = some x) : x ∈ s.media.progs := by
    refine List.foldlRecOn (motive := fun b => ∀ y, b = some y → y ∈ s.media.progs) q _ (by simp) (fun b hb y hy z hz => ?_) x hx
    split at hz
    · exact Option.some.inj hz ▸ hq y hy
    · split at hz
      · exact Option.some.inj hz ▸ hq y hy
      · exact hb z hz
  have hsub (p : Nat → Bool) : ∀ x ∈ (s.media.progs.filter (fun e => addrCh e.1 == c && addrDie e.1 == d)).filter (fun e => p e.2.stream), x ∈ s.media.progs :=
    fun x hx => (List.mem_filter.mp (List.mem_filter.mp hx).1).1
  unfold State.nextProg at h
  extract_lets q oldest at h
  have hfrom (p : Nat → Bool) (x : Nat × Prog) (hx : oldest p = some x) : x ∈ s.media.progs := holdest _ (hsub p) x hx
  split at h
  · next hhost hfold =>
    split at h
    · exact hfrom (· == 1) _ (hfold.trans h)
    · exact hfrom (· == 0) _ (hhost.trans h)
  · next hother _ => exact hfrom (· != 1) _ (hother.trans h)
  · exact hfrom (· == 1) _ h

/-- The end of a program starts no other at an address where none is queued. -/
theorem State.progEnds_frame (s : State) (c d stream a : Nat) (ha : ∀ e ∈ s.media.progs, e.1 ≠ a) :
    NMap.find (s.progEnds c d stream).media.progs a = none ∧ (s.progEnds c d stream).media.units = s.media.units ∧ (s.progEnds c d stream).tier = s.tier
      ∧ (s.progEnds c d stream).regs = s.regs := by
  have hnone : NMap.find s.media.progs a = none := by
    cases hfind : NMap.find s.media.progs a with
    | none => rfl
    | some p => exact absurd rfl (ha _ (NMap.mem_of_find hfind))
  unfold State.progEnds
  extract_lets m t
  split
  · exact ⟨hnone, rfl, rfl, rfl⟩
  · split
    · next b p hnext =>
      refine ⟨?_, rfl, rfl, rfl⟩
      exact (NMap.find_insert_other _ _ (Ne.symm (ha _ (State.nextProg_mem (s := t) hnext)))).trans hnone
    · exact ⟨hnone, rfl, rfl, rfl⟩

/-- A unit becomes a page's copy on NAND, with a MAP record (R231, R287). -/
theorem State.mapUnit_maps (s : State) (a : Nat) (p : Prog) :
    ((s.mapUnit a p).pte p.unit.page).hasMedia = true ∧ ((s.mapUnit a p).pte p.unit.page).media = a
      ∧ ∃ x ∈ (s.mapUnit a p).media.jpend, ∃ tn, x.rec_ = .map tn p.unit.page a p.slc := by
  unfold State.mapUnit
  extract_lets e t e' u x
  obtain ⟨hhas, hmedia⟩ : (u.pte p.unit.page).hasMedia = true ∧ (u.pte p.unit.page).media = a := by
    unfold u
    rw [State.pte_setPte_same]
    exact ⟨rfl, rfl⟩
  clear_value x u
  have hpte (v : Sb) (r : JRec) (k : Option Nat) : ((u.setSb (addrSb a) v).jrn r k).pte p.unit.page = u.pte p.unit.page := rfl
  rw [hpte]
  exact ⟨hhas, hmedia, _, List.mem_append_right _ (List.mem_singleton.mpr rfl), _, rfl⟩

/-- What a unit's becoming a page's copy leaves standing. -/
theorem State.mapUnit_keeps (s : State) (a : Nat) (p : Prog) :
    (s.mapUnit a p).media.units = s.media.units ∧ (s.mapUnit a p).media.progs = s.media.progs ∧ NandWork s (s.mapUnit a p) := by
  unfold State.mapUnit
  extract_lets e t e' u x
  have ht : t.media.units = s.media.units ∧ t.media.progs = s.media.progs ∧ NandWork s t := by
    unfold t
    split
    · exact ⟨rfl, rfl, .of_regs rfl rfl⟩
    · exact ⟨rfl, rfl, .refl s⟩
  obtain ⟨hunits, hprogs, hwork⟩ := ht
  have hu : u.media = t.media := by
    unfold u
    rw [State.setPte_eq]
  have hwrite : NandWork s u := hwork.trans (t.setPte_nandWork ..)
  clear_value x u
  exact ⟨(congrArg Media.units hu).trans hunits, (congrArg Media.progs hu).trans hprogs, hwrite.upd rfl rfl⟩

/-- The unit of a destage in progress takes its page's place; its frame's reads are done with. -/
theorem State.programMaps_destage {s : State} {a : Nat} {p : Prog} (hstream : p.stream = 0) (hd : ∃ x ∈ s.tier.destages, x.1 = p.unit.page ∧ x.2.unit = some a) :
    ∃ u : State, s.programMaps a p = u.mapUnit a p := by
  have hany : (s.tier.destages.any (fun t => t.1 == p.unit.page && t.2.unit == some a)) = true := by
    obtain ⟨x, hx, hpage, hunit⟩ := hd
    exact List.any_eq_true.mpr ⟨x, hx, by simp [hpage, hunit]⟩
  unfold State.programMaps
  rw [hstream]
  exact ⟨_, if_pos hany⟩

theorem State.programMaps_keeps (s : State) (a : Nat) (p : Prog) :
    (s.programMaps a p).media.units = s.media.units ∧ (s.programMaps a p).media.progs = s.media.progs ∧ NandWork s (s.programMaps a p) := by
  have hself : s.media.units = s.media.units ∧ s.media.progs = s.media.progs ∧ NandWork s s := ⟨rfl, rfl, .refl s⟩
  unfold State.programMaps
  split
  · split
    · have htaken (c f : Nat) := NandTables.foldl (fun u j => u.dramTaken_tables c f j false) s (List.range 64)
      have hwork (c f : Nat) := NandWork.foldl (fun u j => u.dramTaken_nandWork c f j false) s (List.range 64)
      obtain ⟨hunits, hprogs, hmap⟩ := State.mapUnit_keeps ((List.range 64).foldl (fun (u : State) j => u.dramTaken (s.pte p.unit.page).ch (s.pte p.unit.page).idx j false) s) a p
      exact ⟨hunits.trans (htaken _ _).units, hprogs.trans (htaken _ _).progs, (hwork _ _).trans hmap⟩
    · split
      · exact ⟨rfl, rfl, .of_regs rfl rfl⟩
      · exact hself
  · split
    · exact s.mapUnit_keeps a p
    · exact hself
  · split
    · exact s.mapUnit_keeps a p
    · exact hself
  · exact hself

end Sys2Proof.Machine
end

section
/-! PROOFS. Programs, erases and reads of NAND (O51). -/

namespace Sys2Proof.Machine

/-! ### The keys of the counters -/

theorem nandKept_medCounter {k : Nat} (h : k ≤ 4 ∨ k = 8 ∨ k = 9) : nandKept (MED_COUNTER_COUNT.key 0 (8 * k)) := by
  simp only [nandKept, Fld.key, regKey]
  omega

theorem nandKept_nchCounter (c : Nat) {k : Nat} (h : k = 1 ∨ k = 4) : nandKept (NCH_COUNTER_COUNT.key c (8 * k)) := by
  simp only [nandKept, Fld.key, regKey]
  omega

theorem nchCounter_ne {c k j : Nat} (h : k ≠ j) : NCH_COUNTER_COUNT.key c (8 * k) ≠ NCH_COUNTER_COUNT.key c (8 * j) := by
  simp only [Fld.key, regKey]
  omega

theorem medCounter_ne_nch {k : Nat} (c j : Nat) (h : k < 0x1000) : MED_COUNTER_COUNT.key 0 (8 * k) ≠ NCH_COUNTER_COUNT.key c (8 * j) := by
  simp only [Fld.key, regKey]
  omega

theorem medCounter_ne {k j : Nat} (h : k ≠ j) : MED_COUNTER_COUNT.key 0 (8 * k) ≠ MED_COUNTER_COUNT.key 0 (8 * j) := by
  simp only [Fld.key, regKey]
  omega

section
variable (s : State)

theorem State.rd_medCount_same (k n : Nat) : (s.medCount k n).rd MED_COUNTER_COUNT 0 (8 * k) = (s.rd MED_COUNTER_COUNT 0 (8 * k) + n) % 2 ^ 64 :=
  s.rd_inc_same MED_COUNTER_COUNT n 0 (8 * k) (by decide) (by decide)

theorem State.rd_medCount_other {k j : Nat} (n : Nat) (h : j ≠ k) : (s.medCount k n).rd MED_COUNTER_COUNT 0 (8 * j) = s.rd MED_COUNTER_COUNT 0 (8 * j) :=
  s.rd_inc_other _ _ _ _ _ _ _ (medCounter_ne h)

theorem State.rd_nch_medCount (c : Nat) {k : Nat} (j n : Nat) (h : k < 0x1000) : (s.medCount k n).rd NCH_COUNTER_COUNT c (8 * j) = s.rd NCH_COUNTER_COUNT c (8 * j) :=
  s.rd_inc_other _ _ _ _ _ _ _ (Ne.symm (medCounter_ne_nch c j h))

theorem State.rd_nchCount_same (c k n : Nat) : (s.nchCount c k n).rd NCH_COUNTER_COUNT c (8 * k) = (s.rd NCH_COUNTER_COUNT c (8 * k) + n) % 2 ^ 64 :=
  s.rd_inc_same NCH_COUNTER_COUNT n c (8 * k) (by decide) (by decide)

theorem State.rd_nchCount_other (c : Nat) {k j : Nat} (n : Nat) (h : j ≠ k) : (s.nchCount c k n).rd NCH_COUNTER_COUNT c (8 * j) = s.rd NCH_COUNTER_COUNT c (8 * j) :=
  s.rd_inc_other _ _ _ _ _ _ _ (nchCounter_ne h)

theorem State.rd_med_nchCount (c k n : Nat) {j : Nat} (h : j < 0x1000) : (s.nchCount c k n).rd MED_COUNTER_COUNT 0 (8 * j) = s.rd MED_COUNTER_COUNT 0 (8 * j) :=
  s.rd_inc_other _ _ _ _ _ _ _ (medCounter_ne_nch c k h)

end

/-! ### PROGRAM_DONE (R231, R271, R275, R298) -/

/-- A program's end counted on its channel and its stream, and kept in the die's statistics. -/
def State.programCounted (s : State) (a ns : Nat) (p : Prog) : State :=
  let s := (s.nchCount (addrCh a) 1).nchCount (addrCh a) 4 4096
  let s := if p.stream ≤ 2 then s.medCount p.stream else s
  s.modStat (addrCh a) (addrDie a) (fun x => if p.slc then { x with slc := keep256 x.slc ns } else { x with native := keep256 x.native ns })

theorem State.programCounted_tables (s : State) (a ns : Nat) (p : Prog) : NandTables s (s.programCounted a ns p) := by
  unfold State.programCounted
  extract_lets t u
  have ht : NandTables s t := ((NandTables.refl s).wr ..).wr ..
  have hu : NandTables s u := by
    unfold u
    split
    · exact ht.wr ..
    · exact ht
  clear_value u t
  exact hu.upd rfl rfl rfl rfl rfl

theorem State.programCounted_counts (s : State) (a ns : Nat) (p : Prog) :
    let t := s.programCounted a ns p
    t.rd NCH_COUNTER_COUNT (addrCh a) 8 = (s.rd NCH_COUNTER_COUNT (addrCh a) 8 + 1) % 2 ^ 64
      ∧ t.rd NCH_COUNTER_COUNT (addrCh a) 32 = (s.rd NCH_COUNTER_COUNT (addrCh a) 32 + 4096) % 2 ^ 64
      ∧ (p.stream ≤ 2 → t.rd MED_COUNTER_COUNT 0 (8 * p.stream) = (s.rd MED_COUNTER_COUNT 0 (8 * p.stream) + 1) % 2 ^ 64) := by
  have hnch (j : Nat) : (s.programCounted a ns p).rd NCH_COUNTER_COUNT (addrCh a) (8 * j) = ((s.nchCount (addrCh a) 1).nchCount (addrCh a) 4 4096).rd NCH_COUNTER_COUNT (addrCh a) (8 * j) := by
    unfold State.programCounted
    dsimp only
    rw [State.rd_congr (State.modStat_regs ..)]
    split
    · exact State.rd_nch_medCount _ _ _ _ (by omega)
    · rfl
  refine ⟨?_, ?_, fun hstream => ?_⟩
  · exact (hnch 1).trans ((State.rd_nchCount_other _ _ _ (by decide)).trans (s.rd_nchCount_same _ _ _))
  · refine (hnch 4).trans ((State.rd_nchCount_same _ _ _ _).trans ?_)
    rw [State.rd_nchCount_other _ _ _ (by decide)]
  · unfold State.programCounted
    dsimp only
    rw [if_pos hstream, State.rd_congr (State.modStat_regs ..), State.rd_medCount_same, State.rd_med_nchCount _ _ _ _ (by omega), State.rd_med_nchCount _ _ _ _ (by omega)]

/-- The unit of a program that ended is readable, and no program is queued at its place. -/
def State.programStored (s : State) (a : Nat) (p : Prog) : State :=
  ({ s with media := { s.media with progs := NMap.erase s.media.progs a, units := NMap.insert s.media.units a p.unit } } : State).progEnds (addrCh a) (addrDie a) p.stream

theorem State.programStored_stores (s : State) (a : Nat) (p : Prog) :
    NMap.find (s.programStored a p).media.progs a = none ∧ NMap.find (s.programStored a p).media.units a = some p.unit ∧ (s.programStored a p).tier = s.tier
      ∧ (s.programStored a p).regs = s.regs := by
  obtain ⟨hprogs, hunits, htier, hregs⟩ := State.progEnds_frame ({ s with media := { s.media with progs := NMap.erase s.media.progs a, units := NMap.insert s.media.units a p.unit } } : State)
    (addrCh a) (addrDie a) p.stream a (fun e he => NMap.key_ne_of_mem_erase he)
  exact ⟨hprogs, (congrArg (NMap.find · a) hunits).trans (NMap.find_insert_same ..), htier, hregs⟩

/-- The state a program's end leaves before its superblock is looked at. -/
def State.programEnded (s : State) (a ns : Nat) (p : Prog) : State :=
  (((s.programStored a p).programCounted a ns p).slowCheck (addrCh a) (addrDie a) p.slc).programMaps a p

theorem State.programDone_eq {s : State} {a : Nat} (ns : Nat) {p : Prog} (h : NMap.find s.media.progs a = some p) :
    s.programDone a ns = ((s.programEnded a ns p).closeFull a p.stream p.slc).mediaGoOn := by
  unfold State.programDone
  rw [h]
  rfl

/-- PROGRAM_DONE: the unit readable, the program counted, a destage's page mapped. -/
theorem State.programEnded_ends (s : State) (a ns : Nat) (p : Prog) :
    let t := s.programEnded a ns p
    NMap.find t.media.progs a = none ∧ NMap.find t.media.units a = some p.unit
      ∧ t.rd NCH_COUNTER_COUNT (addrCh a) 8 = (s.rd NCH_COUNTER_COUNT (addrCh a) 8 + 1) % 2 ^ 64
      ∧ t.rd NCH_COUNTER_COUNT (addrCh a) 32 = (s.rd NCH_COUNTER_COUNT (addrCh a) 32 + 4096) % 2 ^ 64
      ∧ (p.stream ≤ 2 → t.rd MED_COUNTER_COUNT 0 (8 * p.stream) = (s.rd MED_COUNTER_COUNT 0 (8 * p.stream) + 1) % 2 ^ 64)
      ∧ (p.stream = 0 → (∃ x ∈ s.tier.destages, x.1 = p.unit.page ∧ x.2.unit = some a) →
        (t.pte p.unit.page).hasMedia = true ∧ (t.pte p.unit.page).media = a ∧ ∃ x ∈ t.media.jpend, ∃ tn, x.rec_ = .map tn p.unit.page a p.slc) := by
  intro t
  obtain ⟨hprogs, hunits, htier, hregs⟩ := s.programStored_stores a p
  obtain ⟨hnch1, hnch4, hmed⟩ := (s.programStored a p).programCounted_counts a ns p
  have hslow := ((s.programStored a p).programCounted_tables a ns p).trans (State.slowCheck_tables _ (addrCh a) (addrDie a) p.slc)
  obtain ⟨hu, hp, hmaps⟩ := State.programMaps_keeps (((s.programStored a p).programCounted a ns p).slowCheck (addrCh a) (addrDie a) p.slc) a p
  have hwork := (State.slowCheck_nandWork ((s.programStored a p).programCounted a ns p) (addrCh a) (addrDie a) p.slc).trans hmaps
  refine ⟨?_, ?_, ?_, ?_, fun hstream => ?_, fun hstream hd => ?_⟩
  · exact (congrArg (NMap.find · a) (hp.trans hslow.progs)).trans hprogs
  · exact (congrArg (NMap.find · a) (hu.trans hslow.units)).trans hunits
  · exact (hwork.rd (nandKept_nchCounter _ (.inl rfl))).trans (hnch1.trans (by rw [State.rd_congr hregs]))
  · exact (hwork.rd (nandKept_nchCounter _ (.inr rfl))).trans (hnch4.trans (by rw [State.rd_congr hregs]))
  · exact (hwork.rd (nandKept_medCounter (.inl (by omega)))).trans ((hmed hstream).trans (by rw [State.rd_congr hregs]))
  · obtain ⟨u, hmapped⟩ := State.programMaps_destage (s := ((s.programStored a p).programCounted a ns p).slowCheck (addrCh a) (addrDie a) p.slc) hstream
      (by rwa [hslow.destages, htier])
    have ht : t = u.mapUnit a p := hmapped
    rw [ht]
    exact u.mapUnit_maps a p

/-! ### PROGRAM_FAIL and ERASE_FAIL (R283, R284) -/

/-- The state a failed program leaves. -/
def State.programFailed (s : State) (a : Nat) (p : Prog) : State :=
  let u := (s.medCount 8).modStat (addrCh a) (addrDie a) (fun x => { x with progFails := x.progFails + 1 })
  let b := u.badBlock (addrCh a) (addrDie a) (addrPlane a) (addrBlock a) 1
  let v := (b.1.reprogram a p).mediaRecompute
  if b.2 then v.dieFails (addrCh a) (addrDie a) else v

theorem State.programFail_eq {s : State} {a : Nat} {p : Prog} (h : NMap.find s.media.progs a = some p) : s.programFail a = (s.programFailed a p).mediaGoOn := by
  unfold State.programFail
  rw [h]
  rfl

theorem State.programFailed_fails (s : State) (a : Nat) (p : Prog) :
    addrBlk (mediaAddr (addrCh a) (addrDie a) (addrPlane a) (addrBlock a) 0 0) ∈ (s.programFailed a p).media.bad
      ∧ (s.programFailed a p).rd MED_COUNTER_COUNT 0 64 = (s.rd MED_COUNTER_COUNT 0 64 + 1) % 2 ^ 64 := by
  unfold State.programFailed
  extract_lets u b v
  have hv : NandWork b.1 v := (State.reprogram_nandWork ..).trans (State.mediaRecompute_nandWork _)
  obtain ⟨hbad, hregs⟩ : addrBlk (mediaAddr (addrCh a) (addrDie a) (addrPlane a) (addrBlock a) 0 0) ∈ (if b.2 then v.dieFails (addrCh a) (addrDie a) else v).media.bad
      ∧ ∀ j, nandKept j → (if b.2 then v.dieFails (addrCh a) (addrDie a) else v).reg j = u.reg j := by
    refine State.reg_badBlock_then (cause := 1) ?_
    split
    · exact hv.trans (State.dieFails_nandWork ..)
    · exact hv
  refine ⟨hbad, Eq.trans ?_ (s.rd_medCount_same 8 1)⟩
  unfold State.rd
  rw [hregs _ (nandKept_medCounter (k := 8) (.inr (.inl rfl)))]
  rfl

/-- The state a failed erase leaves. -/
def State.eraseFailed (s : State) (c d pl k : Nat) : State :=
  let u := (s.medCount 9).modStat c d (fun x => { x with eraseFails := x.eraseFails + 1 })
  let b := u.badBlock c d pl k 2
  let v := b.1.mediaRecompute
  if b.2 then v.dieFails c d else v

theorem State.eraseFail_eq {s : State} {c d pl k : Nat} (h : (s.sb (sbKey d k)).st = 4) : s.eraseFail c d pl k = (s.eraseFailed c d pl k).mediaGoOn := by
  unfold State.eraseFail
  rw [if_neg (by simp [h])]
  rfl

theorem State.eraseFailed_fails (s : State) (c d pl k : Nat) :
    addrBlk (mediaAddr c d pl k 0 0) ∈ (s.eraseFailed c d pl k).media.bad
      ∧ (s.eraseFailed c d pl k).rd MED_COUNTER_COUNT 0 72 = (s.rd MED_COUNTER_COUNT 0 72 + 1) % 2 ^ 64 := by
  unfold State.eraseFailed
  extract_lets u b v
  have hv : NandWork b.1 v := State.mediaRecompute_nandWork _
  obtain ⟨hbad, hregs⟩ : addrBlk (mediaAddr c d pl k 0 0) ∈ (if b.2 then v.dieFails c d else v).media.bad
      ∧ ∀ j, nandKept j → (if b.2 then v.dieFails c d else v).reg j = u.reg j := by
    refine State.reg_badBlock_then (cause := 2) ?_
    split
    · exact hv.trans (State.dieFails_nandWork ..)
    · exact hv
  refine ⟨hbad, Eq.trans ?_ (s.rd_medCount_same 9 1)⟩
  unfold State.rd
  rw [hregs _ (nandKept_medCounter (k := 9) (.inr (.inr rfl)))]
  rfl

/-! ### ERASE_DONE (R272, R276, R287) -/

/-- The erase counted on the dies of its group. -/
def State.eraseDies (s : State) (g ns : Nat) : State :=
  (List.range 32).foldl (fun s c =>
    if s.dieSt c g = 1 ∨ s.dieSt c g = 2 then (s.nchCount c 2).modStat c g (fun y => { y with erase := keep256 y.erase ns, erases := y.erases + 1 }) else s) s

/-- The superblock joins the reserve while that lacks one. -/
def State.eraseRefills (s : State) (g k : Nat) : State :=
  if s.rsvBytes < s.rsvTarget && s.sbUsable g k then { s with media := { s.media with rsv := insertNat s.media.rsv (sbKey g k) } }.mediaRecompute else s

/-- The superblock's units are gone, its record is new. -/
def State.eraseEmpties (s : State) (g k : Nat) : State :=
  let x := s.sb (sbKey g k)
  let s : State := { s with media := { s.media with units := s.media.units.filter (fun u => addrSb u.1 != sbKey g k) } }
  let s := s.setSb (sbKey g k) { erases := x.erases + 1, halves := x.halves }
  let s : State := { s with media := { s.media with suspended := s.media.suspended.filter (fun e => e.1 % 16 != g) } }
  s.jrn (.eraseDone g k (x.erases + 1))

/-- The state an erase's end leaves. -/
def State.eraseEnded (s : State) (g k ns : Nat) : State := ((((s.eraseEmpties g k).medCount 4).eraseDies g ns).eraseRefills g k).wearStats

theorem State.eraseDone_eq {s : State} {g k : Nat} (ns : Nat) (h : (s.sb (sbKey g k)).st = 4) : s.eraseDone g k ns = (s.eraseEnded g k ns).mediaGoOn := by
  unfold State.eraseDone
  dsimp only
  rw [if_neg (by simp [h])]
  rfl

theorem State.modStat_nandWork (s : State) (c d : Nat) (f : DieStat → DieStat) : NandWork s (s.modStat c d f) := .of_regs rfl rfl

/-- An erase counted on its channel. -/
theorem State.nchCount_erase_nandWork (s : State) (c : Nat) : NandWork s (s.nchCount c 2) := by
  unfold State.nchCount State.inc
  refine s.wr_nandWork ?_
  simp only [nandSide, nandKept, Fld.key, regKey]
  omega

theorem State.eraseDies_keeps (s : State) (g ns : Nat) : NandTables s (s.eraseDies g ns) ∧ NandWork s (s.eraseDies g ns) := by
  unfold State.eraseDies
  refine ⟨NandTables.foldl (fun u c => ?_) s _, NandWork.foldl (fun u c => ?_) s _⟩
  · split
    · have hcount : NandTables u (u.nchCount c 2) := (NandTables.refl u).wr ..
      exact hcount.upd rfl rfl rfl rfl rfl
    · exact .refl u
  · split
    · exact (u.nchCount_erase_nandWork c).trans (State.modStat_nandWork ..)
    · exact .refl u

theorem State.eraseRefills_keeps (s : State) (g k : Nat) : NandTables s (s.eraseRefills g k) ∧ NandWork s (s.eraseRefills g k) := by
  unfold State.eraseRefills
  split
  · have hjoin (l : List Nat) : NandTables s { s with media := { s.media with rsv := l } } ∧ NandWork s { s with media := { s.media with rsv := l } } :=
      ⟨⟨rfl, rfl, rfl, rfl, rfl⟩, .of_regs rfl rfl⟩
    exact ⟨(hjoin _).1.trans (State.mediaRecompute_tables _), (hjoin _).2.trans (State.mediaRecompute_nandWork _)⟩
  · exact ⟨.refl s, .refl s⟩

theorem State.eraseEnded_ends (s : State) (g k ns : Nat) :
    (∀ u ∈ (s.eraseEnded g k ns).media.units, addrSb u.1 ≠ sbKey g k ∧ u ∈ s.media.units)
      ∧ (s.eraseEnded g k ns).sb (sbKey g k) = { erases := (s.sb (sbKey g k)).erases + 1, halves := (s.sb (sbKey g k)).halves }
      ∧ (s.eraseEnded g k ns).rd MED_COUNTER_COUNT 0 32 = (s.rd MED_COUNTER_COUNT 0 32 + 1) % 2 ^ 64 := by
  have hcount : NandTables (s.eraseEmpties g k) ((s.eraseEmpties g k).medCount 4) := (NandTables.refl _).wr ..
  obtain ⟨hdies, hdiesWork⟩ := ((s.eraseEmpties g k).medCount 4).eraseDies_keeps g ns
  obtain ⟨hrefill, hrefillWork⟩ := (((s.eraseEmpties g k).medCount 4).eraseDies g ns).eraseRefills_keeps g k
  have htables : NandTables (s.eraseEmpties g k) (s.eraseEnded g k ns) := ((hcount.trans hdies).trans hrefill).trans (State.wearStats_tables _)
  have hwork : NandWork ((s.eraseEmpties g k).medCount 4) (s.eraseEnded g k ns) := (hdiesWork.trans hrefillWork).trans (State.wearStats_nandWork _)
  refine ⟨fun u hu => ?_, ?_, ?_⟩
  · rw [htables.units] at hu
    obtain ⟨hin, hne⟩ := List.mem_filter.mp (show u ∈ s.media.units.filter (fun u => addrSb u.1 != sbKey g k) from hu)
    exact ⟨by simpa using hne, hin⟩
  · refine (congrArg (fun m => NMap.getD m (sbKey g k) ({} : Sb)) htables.sbs).trans ?_
    exact NMap.getD_put_same (d := ({} : Sb)) s.media.sbs (sbKey g k) { erases := (s.sb (sbKey g k)).erases + 1, halves := (s.sb (sbKey g k)).halves }
  · exact (hwork.rd (nandKept_medCounter (k := 4) (.inl (by decide)))).trans ((State.rd_medCount_same _ 4 1).trans rfl)

/-! ### UNIT_READ_DONE (R280, R294, R298) -/

/-- A good read counted on its channel, and kept in the die's statistics. -/
def State.unitReadCounted (s : State) (a ns corr : Nat) : State :=
  ((s.nchCount (addrCh a) 0).nchCount (addrCh a) 3 4096).modStat (addrCh a) (addrDie a) (fun x => { x with read := keep256 x.read ns, corrMax := max x.corrMax corr })

theorem State.unitReadCounted_counts (s : State) (a ns corr : Nat) :
    let t := s.unitReadCounted a ns corr
    t.rd NCH_COUNTER_COUNT (addrCh a) 0 = (s.rd NCH_COUNTER_COUNT (addrCh a) 0 + 1) % 2 ^ 64
      ∧ t.rd NCH_COUNTER_COUNT (addrCh a) 24 = (s.rd NCH_COUNTER_COUNT (addrCh a) 24 + 4096) % 2 ^ 64
      ∧ regsKept s t [NCH_COUNTER_COUNT.key (addrCh a) 0, NCH_COUNTER_COUNT.key (addrCh a) 24] ∧ t.evInbox = s.evInbox ∧ t.media.units = s.media.units := by
  intro t
  have hregs : t.regs = ((s.nchCount (addrCh a) 0).nchCount (addrCh a) 3 4096).regs := State.modStat_regs ..
  refine ⟨?_, ?_, fun k hk => ?_, ?_, ?_⟩
  · rw [State.rd_congr hregs]
    exact (State.rd_nchCount_other _ _ _ (j := 0) (by decide)).trans (s.rd_nchCount_same _ 0 1)
  · rw [State.rd_congr hregs]
    refine (State.rd_nchCount_same _ _ 3 4096).trans ?_
    rw [State.rd_nchCount_other _ _ _ (by decide)]
  · obtain ⟨hreads, hbytes⟩ : k ≠ NCH_COUNTER_COUNT.key (addrCh a) 0 ∧ k ≠ NCH_COUNTER_COUNT.key (addrCh a) 24 := by simpa using hk
    rw [State.reg_congr hregs]
    unfold State.nchCount State.inc
    rw [State.reg_wr, if_neg hbytes, State.reg_wr, if_neg hreads]
  · exact (State.modStat_evInbox ..).trans ((State.wr_evInbox ..).trans (State.wr_evInbox ..))
  · have htables : NandTables s ((s.nchCount (addrCh a) 0).nchCount (addrCh a) 3 4096) := ((NandTables.refl s).wr ..).wr ..
    exact htables.units

/-- A read of a unit that needed no retry and is good (R280): two counters, and the die's statistics. -/
theorem State.unitRead_good {s : State} {a ns corr : Nat} {u : MUnit} (hunit : NMap.find s.media.units a = some u) (hcorr : corr < s.rd MED_RETRY_REFRESH_BITS)
    (hreloc : NMap.find s.media.relocs a = none) :
    s.unitRead a ns 0 false corr true = (s.unitReadCounted a ns corr).mediaGoOn := by
  have hkey (k : Nat) : MED_RETRY_REFRESH_BITS.key ≠ NCH_COUNTER_COUNT.key (addrCh a) (8 * k) := by
    simp only [Fld.key, regKey]
    omega
  unfold State.unitRead
  rw [hunit]
  extract_lets c d t u v w x y m
  have ht : t.rd MED_RETRY_REFRESH_BITS = s.rd MED_RETRY_REFRESH_BITS :=
    (State.rd_wr_other _ _ _ _ _ _ _ _ (hkey 3)).trans (State.rd_wr_other _ _ _ _ _ _ _ _ (hkey 0))
  have hv : v = t := (if_neg Bool.false_ne_true).trans (if_pos rfl)
  have hx : x = w := if_pos rfl
  have hw : w.rd MED_RETRY_REFRESH_BITS = s.rd MED_RETRY_REFRESH_BITS := (State.rd_congr (State.modStat_regs ..) ..).trans (hv ▸ ht)
  have hy : y = w := (if_neg (by simp [hx, hw, hcorr])).trans hx
  have hnone : NMap.find y.media.relocs a = none := by
    rw [hy]
    exact (congrArg (fun r : State => NMap.find r.media.relocs a) hv).trans hreloc
  dsimp only
  rw [hnone]
  dsimp only
  rw [Bool.true_or, if_pos rfl, hy]
  unfold w State.unitReadCounted
  rw [hv]

/-- The counters of a read that could not be corrected, before its page is looked at. -/
def State.unitReadLost (s : State) (a ns steps : Nat) (soft : Bool) (corr : Nat) : State :=
  let c := addrCh a
  let d := addrDie a
  let s := (s.nchCount c 0).nchCount c 3 4096
  let s := if steps = 0 then s else ((s.medCount 5).nchCount c 5).modStat c d (fun x => { x with retries := x.retries + 1 })
  let s := if soft then s.medCount 6 else s
  (s.modStat c d (fun x => { x with read := keep256 x.read ns, corrMax := max x.corrMax corr })).countLost a

theorem State.unitRead_lost {s : State} {a : Nat} {u : MUnit} (hunit : NMap.find s.media.units a = some u) (ns steps : Nat) (soft : Bool) (corr : Nat) :
    ∃ t : State, s.unitRead a ns steps soft corr false = t.mediaGoOn ∧ t.regs = (s.unitReadLost a ns steps soft corr).regs := by
  unfold State.unitRead
  rw [hunit]
  extract_lets c d t u v w x y m
  refine ⟨_, rfl, ?_⟩
  have hlost (r : State) (p : Nat) : (r.unitLost p).regs = r.regs := by
    unfold State.unitLost
    split
    · split <;> rfl
    all_goals rfl
  change _ = x.regs
  have hy : y = x := rfl
  clear_value x y
  subst hy
  split
  · split
    · rfl
    · exact hlost ..
  · split
    · rfl
    · split
      · contradiction
      · exact hlost ..

/-- An uncorrectable unit is counted and reported. -/
theorem State.countLost_counts (s : State) (a : Nat) :
    (s.countLost a).flagged 0xC 4 = true ∧ (s.countLost a).rd MED_COUNTER_COUNT 0 56 = (s.rd MED_COUNTER_COUNT 0 56 + 1) % 2 ^ 64 := by
  unfold State.countLost
  extract_lets c t m u
  have ht : t.regs = ((s.medCount 7).nchCount c 6).regs := State.modStat_regs ..
  clear_value t
  have hu : u.regs = t.regs := rfl
  have hcount : u.rd MED_COUNTER_COUNT 0 56 = (s.rd MED_COUNTER_COUNT 0 56 + 1) % 2 ^ 64 := by
    rw [State.rd_congr (hu.trans ht)]
    exact (State.rd_med_nchCount _ _ _ _ (j := 7) (by decide)).trans (s.rd_medCount_same 7 1)
  refine ⟨(State.raise_raisedIn u 0xC 4 rfl rfl (by decide)).1, ?_⟩
  rw [State.rd_raise _ _ _ (by decide) (by decide), hcount]

theorem State.unitReadLost_counts (s : State) (a ns steps : Nat) (soft : Bool) (corr : Nat) :
    (s.unitReadLost a ns steps soft corr).flagged 0xC 4 = true
      ∧ (s.unitReadLost a ns steps soft corr).rd MED_COUNTER_COUNT 0 56 = (s.rd MED_COUNTER_COUNT 0 56 + 1) % 2 ^ 64 := by
  unfold State.unitReadLost
  extract_lets c d t u v
  have ht : t.rd MED_COUNTER_COUNT 0 56 = s.rd MED_COUNTER_COUNT 0 56 := (State.rd_med_nchCount _ _ _ _ (j := 7) (by decide)).trans (State.rd_med_nchCount _ _ _ _ (j := 7) (by decide))
  have hu : u.rd MED_COUNTER_COUNT 0 56 = t.rd MED_COUNTER_COUNT 0 56 := by
    unfold u
    split
    · rfl
    · exact (State.rd_congr (State.modStat_regs ..) ..).trans ((State.rd_med_nchCount _ _ _ _ (j := 7) (by decide)).trans (State.rd_medCount_other _ _ (j := 7) (by decide)))
  have hv : v.rd MED_COUNTER_COUNT 0 56 = u.rd MED_COUNTER_COUNT 0 56 := by
    unfold v
    split
    · exact State.rd_medCount_other _ _ (j := 7) (by decide)
    · rfl
  obtain ⟨hflag, hcount⟩ := State.countLost_counts (v.modStat c d (fun x => { x with read := keep256 x.read ns, corrMax := max x.corrMax corr })) a
  refine ⟨hflag, hcount.trans ?_⟩
  rw [State.rd_congr (State.modStat_regs ..), hv, hu, ht]

/-- Settles O51: each operation leaves the state named for it, whose counters, tables and events are read off above; what a die's failure sets going leaves them standing. -/
theorem nandOperations : Obligations.NandOperations := by
  unfold Obligations.NandOperations
  intro s
  refine ⟨fun a ns p hp => ?programDone, fun a ns hnone => ⟨?noProgramDone, ?noProgramFail⟩, fun a p hp => ?programFail, fun g k ns hst => ?eraseDone, fun g k ns hst => ?noEraseDone,
    fun c d pl k hst => ?eraseFail, fun c d pl k hst => ?noEraseFail, fun c d hc hd => ⟨fun habsent hfailed => ?dieTimeout, fun hst => ?noDieTimeout⟩,
    fun a ns steps soft corr good hnone => ?noUnit, fun a ns corr u hunit => ⟨fun hcorr hreloc => ?readGood, fun steps soft => ?readLost⟩⟩
  case programDone => exact ⟨_, congrArg Host.Outcome.next (State.programDone_eq ns hp), s.programEnded_ends a ns p⟩
  case noProgramDone =>
    refine congrArg Host.Outcome.next ?_
    unfold State.programDone
    rw [hnone]
  case noProgramFail =>
    refine congrArg Host.Outcome.next ?_
    unfold State.programFail
    rw [hnone]
  case programFail => exact ⟨_, congrArg Host.Outcome.next (State.programFail_eq hp), s.programFailed_fails a p⟩
  case eraseDone => exact ⟨_, congrArg Host.Outcome.next (State.eraseDone_eq ns hst), s.eraseEnded_ends g k ns⟩
  case noEraseDone =>
    refine congrArg Host.Outcome.next ?_
    unfold State.eraseDone
    exact if_pos (by simpa using hst)
  case eraseFail => exact ⟨_, congrArg Host.Outcome.next (State.eraseFail_eq hst), s.eraseFailed_fails c d pl k⟩
  case noEraseFail =>
    refine congrArg Host.Outcome.next ?_
    unfold State.eraseFail
    exact if_pos (by simpa using hst)
  case dieTimeout => exact ⟨_, rfl, State.dieFails_failed hc hd habsent hfailed⟩
  case noDieTimeout =>
    have hsame : s.dieFails c d = s := by
      unfold State.dieFails
      exact if_pos (by simpa using hst)
    exact congrArg (fun t : State => Host.Outcome.next t.mediaGoOn) hsame
  case noUnit =>
    refine congrArg Host.Outcome.next ?_
    unfold State.unitRead
    rw [hnone]
  case readGood => exact ⟨_, congrArg Host.Outcome.next (State.unitRead_good hunit hcorr hreloc), s.unitReadCounted_counts a ns corr⟩
  case readLost =>
    obtain ⟨t, ht, hregs⟩ := State.unitRead_lost hunit ns steps soft corr
    obtain ⟨hflag, hcount⟩ := s.unitReadLost_counts a ns steps soft corr
    refine ⟨t, congrArg Host.Outcome.next ht, ?_, (State.rd_congr hregs ..).trans hcount⟩
    unfold State.flagged at hflag ⊢
    rwa [State.reg_congr hregs]

end Sys2Proof.Machine
end

section
/-! PROOFS. Which registers settling writes where it ends Quiet, operation by operation (O58). -/

namespace Sys2Proof.Machine

/-- Offsets in a page of PG_STAT, PG_GEN and, in a channel's page, RANK, MIGRATE and the first counters. -/
def settleOff (n : Nat) : Bool := n == 0x18 || n == 0x38 || n == 0x138 || n == 0x148 || decide (0x400 ≤ n) && decide (n < 0x480)

/-- A register that settling may write where it ends Quiet: in a page below 0x40, at a queue's place in its row, at one of these offsets, or PG_EVT of a
block's page. -/
def SettleReg (k : Nat) : Prop :=
  k < 0x400000 ∨ 48 ≤ k % 64 ∨ settleOff (k % 0x10000) = true ∨ k % 0x10000 = 0x20 ∧ (blockOf (k / 0x10000)).isSome = true

/-- A field of a page below 0x40. -/
theorem SettleReg.core {f : Fld} {i a : Nat} (h : f.page + i < 0x40) (ha : f.off + a < 0x10000) : SettleReg (f.key i a) := by
  simp only [SettleReg, Fld.key, regKey]
  omega

theorem SettleReg.off {f : Fld} {i a : Nat} (h : f.off + a < 0x10000) (ho : settleOff (f.off + a) = true) : SettleReg (f.key i a) := by
  have hmod : f.key i a % 0x10000 = f.off + a := by
    simp only [Fld.key, regKey]
    omega
  exact .inr (.inr (.inl (hmod ▸ ho)))

theorem SettleReg.flags {p : Nat} (h : (blockOf p).isSome = true) : SettleReg (regKey p 0x20) := by
  have hpage : regKey p 0x20 / 0x10000 = p := by
    simp only [regKey]
    omega
  exact .inr (.inr (.inr ⟨by simp only [regKey]; omega, hpage.symm ▸ h⟩))

theorem SettleReg.queue {f : Fld} (q : Nat) (hp : f.page = 0) (ho : 48 ≤ f.off % 64) : SettleReg (f.key 0 (rqOff q)) := by
  simp only [SettleReg, Fld.key, regKey, rqOff, hp]
  omega

/-- The state `a` is Quiet where `b`, which follows from it by settling's work, is; other registers than those it may write then stand. -/
structure Walked (a b : State) : Prop where
  calm : Calm false a b
  regs : Quiet b → ∀ k, ¬ SettleReg k → b.reg k = a.reg k

theorem Walked.quiet {a b : State} (h : Walked a b) : Quiet b → Quiet a := h.calm.quiet

theorem Walked.refl (s : State) : Walked s s := ⟨.refl s, fun _ _ _ => rfl⟩

theorem Walked.trans {a b c : State} (h : Walked a b) (k : Walked b c) : Walked a c :=
  ⟨h.calm.trans k.calm, fun q j hj => (k.regs q j hj).trans (h.regs (k.quiet q) j hj)⟩

/-- Where the state reached is not Quiet nothing is claimed. -/
theorem Walked.vacuous {a b : State} (h : ¬ Quiet b) : Walked a b := ⟨.vacuous h, fun q => absurd q h⟩

/-- What follows a state that is not Quiet is not. -/
theorem Walked.after {a s b : State} (h : ¬ Quiet s) (k : Calm false s b) : Walked a b := .vacuous (fun q => h (k.quiet q))

theorem Walked.upd {a s t : State} (h : Walked a s) (hr : t.regs = s.regs) (hp : pairMark t.pair = pairMark s.pair)
    (hl : t.link.owed = s.link.owed) (hq : t.qps = s.qps) : Walked a t :=
  ⟨h.calm.upd hr hp hl hq, fun q k hk => (State.reg_congr hr k).trans (h.regs (((Calm.refl s).upd hr hp hl hq : Calm false s t).quiet q) k hk)⟩

theorem Walked.ite {a s t : State} {c : Prop} [Decidable c] (h : c → Walked a s) (k : ¬ c → Walked a t) : Walked a (if c then s else t) := by
  by_cases hc : c
  · rw [if_pos hc]; exact h hc
  · rw [if_neg hc]; exact k hc

theorem Walked.foldl {α : Type} {a s : State} {f : State → α → State} {l : List α} (h : Walked a s)
    (hf : ∀ s x, Walked a s → Walked a (f s x)) : Walked a (l.foldl f s) :=
  List.foldlRecOn (motive := Walked a) l f h (fun s hs x _ => hf s x hs)

/-- A state written out field by field from another one. -/
theorem Walked.mk' {a s : State} {mono_ : Nat} {tbOff_ : Int} {twinB_ : Bool} {out_ : List Out} {evInbox_ : List RaisedEv} {freeNext_ : Nat} {msixMask_ : Word64} {msixPend_ : Word64} {msixTab_ : NMap Word64} {pcieUp_ : Bool} {bellCount_ : Nat} {rqs_ : NMap Rq} {hearth_ : Hearth} {banks_ : Banks} {cache_ : Cache} {ports_ : NMap Port} {addrs_ : NMap AddrEntry} {hosts_ : List IpAddr} {dp_ : DataPath} {prot_ : Prot} {chains_ : Chains} {tier_ : Tier} {media_ : Media} {dur_ : Dur} {pair_ : Pair} {link_ : Link} {pwr_ : Power} {rec__ : Recorder} {pmu_ : Pmu} {smp_ : Sampling} {boot_ : Boot} {cph_ : Cipher} {ccx_ : Complex} {rails_ : Rails} {thm_ : Thermal} {integ_ : Integrity} {pending_ : _}
    (h : Walked a s) (hp : pairMark pair_ = pairMark s.pair) (hl : link_.owed = s.link.owed) : Walked a ⟨mono_, tbOff_, twinB_, s.regs, out_, evInbox_, freeNext_, msixMask_, msixPend_, msixTab_, pcieUp_, bellCount_, rqs_, hearth_, banks_, cache_, ports_, addrs_, s.qps, hosts_, dp_, prot_, chains_, tier_, media_, dur_, pair_, link_, pwr_, rec__, pmu_, smp_, boot_, cph_, ccx_, rails_, thm_, integ_, pending_⟩ :=
  h.upd rfl hp hl rfl

theorem Walked.of_fst {β : Type} {a t : State} {y : β} {p : State × β} (e : p = (t, y)) (h : Walked a p.1) : Walked a t := by
  subst e; exact h

theorem Walked.of_snd {β : Type} {a t : State} {y : β} {p : β × State} (e : p = (y, t)) (h : Walked a p.2) : Walked a t := by
  subst e; exact h

/-- Whatever state an option holds may follow. -/
def WalkedO (a : State) (o : Option State) : Prop := ∀ t, o = some t → Walked a t
def WalkedO1 {β : Type} (a : State) (o : Option (State × β)) : Prop := ∀ t, o = some t → Walked a t.1
def WalkedO2 {β : Type} (a : State) (o : Option (β × State)) : Prop := ∀ t, o = some t → Walked a t.2
def WalkedO3 {β γ : Type} (a : State) (o : Option (β × γ × State)) : Prop := ∀ t, o = some t → Walked a t.2.2

theorem WalkedO.none {a : State} : WalkedO a none := fun _ h => nomatch h
theorem WalkedO.some {a s : State} (h : Walked a s) : WalkedO a (some s) := fun _ e => by cases e; exact h
theorem WalkedO.get {a t : State} {o : Option State} (h : WalkedO a o) (e : o = Option.some t) : Walked a t := h t e
theorem WalkedO1.none {β : Type} {a : State} : WalkedO1 a (none : Option (State × β)) := fun _ h => nomatch h
theorem WalkedO1.some {β : Type} {a : State} {p : State × β} (h : Walked a p.1) : WalkedO1 a (some p) := fun _ e => by cases e; exact h
theorem WalkedO1.get {β : Type} {a t : State} {y : β} {o : Option (State × β)} (h : WalkedO1 a o) (e : o = Option.some (t, y)) : Walked a t := h _ e
theorem WalkedO2.none {β : Type} {a : State} : WalkedO2 a (none : Option (β × State)) := fun _ h => nomatch h
theorem WalkedO2.some {β : Type} {a : State} {p : β × State} (h : Walked a p.2) : WalkedO2 a (some p) := fun _ e => by cases e; exact h
theorem WalkedO2.get {β : Type} {a t : State} {y : β} {o : Option (β × State)} (h : WalkedO2 a o) (e : o = Option.some (y, t)) : Walked a t := h _ e
theorem WalkedO3.none {β γ : Type} {a : State} : WalkedO3 a (none : Option (β × γ × State)) := fun _ h => nomatch h
theorem WalkedO3.some {β γ : Type} {a : State} {p : β × γ × State} (h : Walked a p.2.2) : WalkedO3 a (some p) := fun _ e => by cases e; exact h
theorem WalkedO3.get {β γ : Type} {a t : State} {y : β} {z : γ} {o : Option (β × γ × State)} (h : WalkedO3 a o) (e : o = Option.some (y, z, t)) : Walked a t := h _ e

/-- The state an allocation leaves. -/
def WalkedA (a : State) : Alloc → Prop
  | .way _ s => Walked a s
  | _ => True
theorem WalkedA.way {a s : State} {i : Nat} (h : Walked a s) : WalkedA a (.way i s) := h
theorem WalkedA.bypass {a : State} : WalkedA a .bypass := trivial
theorem WalkedA.waitSet {a : State} {n : Nat} : WalkedA a (.waitSet n) := trivial
theorem WalkedA.waitFlue {a : State} : WalkedA a .waitFlue := trivial
theorem WalkedA.of_way {a t : State} {i : Nat} {r : Alloc} (h : WalkedA a r) (e : r = .way i t) : Walked a t := by subst e; exact h

/-- The state an attempt leaves. -/
def WalkedT (a : State) : Tried → Prop
  | .done s => Walked a s
  | .wait _ _ s => Walked a s
  | .merged s => Walked a s
theorem WalkedT.done {a s : State} (h : Walked a s) : WalkedT a (.done s) := h
theorem WalkedT.wait {a s : State} {w : Wait} {b : Acc} (h : Walked a s) : WalkedT a (.wait w b s) := h
theorem WalkedT.merged {a s : State} (h : Walked a s) : WalkedT a (.merged s) := h
theorem WalkedT.of_done {a t : State} {r : Tried} (h : WalkedT a r) (e : r = .done t) : Walked a t := by subst e; exact h
theorem WalkedT.of_wait {a t : State} {w : Wait} {b : Acc} {r : Tried} (h : WalkedT a r) (e : r = .wait w b t) : Walked a t := by subst e; exact h
theorem WalkedT.of_merged {a t : State} {r : Tried} (h : WalkedT a r) (e : r = .merged t) : Walked a t := by subst e; exact h
/-- The state of an outcome that is no error. -/
def WalkedE (a : State) (r : Except Wait State) : Prop := ∀ t, r = .ok t → Walked a t
theorem WalkedE.ok {a s : State} (h : Walked a s) : WalkedE a (.ok s) := fun _ e => by cases e; exact h
theorem WalkedE.error {a : State} {w : Wait} : WalkedE a (.error w) := fun _ e => nomatch e
theorem WalkedE.of_ok {a t : State} {r : Except Wait State} (h : WalkedE a r) (e : r = .ok t) : Walked a t := h t e
/-- Both the attempt and the state beside it. -/
def WalkedPT (a : State) (p : Option Tried × State) : Prop := (∀ t, p.1 = some t → WalkedT a t) ∧ Walked a p.2
theorem WalkedPT.none {a s : State} (h : Walked a s) : WalkedPT a (Option.none, s) := ⟨fun _ e => (nomatch e), h⟩
theorem WalkedPT.some {a s : State} {r : Tried} (k : WalkedT a r) (h : Walked a s) : WalkedPT a (Option.some r, s) := ⟨fun _ e => by cases e; exact k, h⟩
theorem WalkedPT.get_some {a s : State} {r : Tried} {p : Option Tried × State} (h : WalkedPT a p) (e : p = (Option.some r, s)) : WalkedT a r := h.1 r (by rw [e])
theorem WalkedPT.get_snd {a s : State} {o : Option Tried} {p : Option Tried × State} (h : WalkedPT a p) (e : p = (o, s)) : Walked a s := by rw [e] at h; exact h.2

/-- The attempt, the state beside it, and the access with what is settled. -/
def WalkedP3 (a : State) (p : Option Tried × State × Acc) : Prop := (∀ t, p.1 = some t → WalkedT a t) ∧ Walked a p.2.1
theorem WalkedP3.none {a s : State} {b : Acc} (h : Walked a s) : WalkedP3 a (Option.none, s, b) := ⟨fun _ e => (nomatch e), h⟩
theorem WalkedP3.some {a s : State} {b : Acc} {r : Tried} (k : WalkedT a r) (h : Walked a s) : WalkedP3 a (Option.some r, s, b) := ⟨fun _ e => by cases e; exact k, h⟩
theorem WalkedP3.get_some {a s : State} {b : Acc} {r : Tried} {p : Option Tried × State × Acc} (h : WalkedP3 a p) (e : p = (Option.some r, s, b)) : WalkedT a r := h.1 r (by rw [e])
theorem WalkedP3.get_snd {a s : State} {b : Acc} {o : Option Tried} {p : Option Tried × State × Acc} (h : WalkedP3 a p) (e : p = (o, s, b)) : Walked a s := by rw [e] at h; exact h.2

/-! ### Registers -/

theorem State.setReg_walked {s0 s : State} (h : Walked s0 s) (k : Nat) (v : Word64) (hk : SettleReg k) : Walked s0 (s.setReg k v) :=
  h.trans ⟨State.setReg_calm (.refl s) k v Apart.none, fun _ _ hj => State.reg_setReg_other s v (fun e => hj (e ▸ hk))⟩

theorem State.wr_walked {s0 s : State} (h : Walked s0 s) (f : Fld) (v : Nat) (i : Nat) (a : Nat) (hk : SettleReg (f.key i a)) : Walked s0 (s.wr f v i a) :=
  State.setReg_walked h _ _ hk

theorem State.satInc_walked {s0 s : State} (h : Walked s0 s) (f : Fld) (n : Nat) (i : Nat) (a : Nat) (hk : SettleReg (f.key i a)) : Walked s0 (s.satInc f n i a) :=
  State.wr_walked h _ _ _ _ hk

theorem State.inc_walked {s0 s : State} (h : Walked s0 s) (f : Fld) (n : Nat) (i : Nat) (a : Nat) (hk : SettleReg (f.key i a)) : Walked s0 (s.inc f n i a) :=
  State.wr_walked h _ _ _ _ hk

/-! ### What stages a record -/

theorem State.stage_walked {s0 : State} (s : State) (r : EpochRec) : Walked s0 (s.stage r) := .vacuous (s.stage_not_quiet r)

theorem State.stageQp_walked {s0 : State} (s : State) (n : Nat) : Walked s0 (s.stageQp n) := State.stage_walked _ _

theorem State.stageChain_walked {s0 : State} (s : State) (i : Nat) : Walked s0 (s.stageChain i) := State.stage_walked _ _

theorem State.sendNow_walked {s0 : State} (s : State) (n : Nat) (payload : List Byte) (chain : Option Nat) : Walked s0 (s.sendNow n payload chain) :=
  State.stageQp_walked _ _

theorem State.chainFail_walked {s0 : State} (s : State) (i cause : Nat) : Walked s0 (s.chainFail i cause) := State.stageChain_walked _ _

theorem State.chainStepDone_walked {s0 : State} (s : State) (i : Nat) : Walked s0 (s.chainStepDone i) := by
  unfold State.chainStepDone
  dsimp only
  split
  · exact State.chainFail_walked _ _ _
  · split <;> exact State.stageChain_walked _ _

theorem State.placedHost_walked {s0 : State} (s : State) (n : Nat) (o : Op) : Walked s0 (s.placedHost n o) := State.stageQp_walked _ _

section
set_option linter.unusedTactic false
set_option linter.unreachableTactic false
set_option linter.tactic.unusedName false
variable {s0 s : State}

/-! ### Machine/Operands.lean -/

theorem State.setStat_walked (h : Walked s0 s) (page st : Nat) (ready : Bool) : Walked s0 (State.setStat s page st ready) :=
  State.wr_walked (State.wr_walked h _ _ _ _ (SettleReg.off (by decide) (by decide))) _ _ _ _ (SettleReg.off (by decide) (by decide))

theorem State.bumpGen_walked (h : Walked s0 s) (page : Nat) : Walked s0 (State.bumpGen s page) :=
  State.inc_walked h _ _ _ _ (SettleReg.off (by decide) (by decide))

/-! ### Machine/Flags.lean -/

theorem State.emit_walked (h : Walked s0 s) (o : Out) : Walked s0 (s.emit o) := h.upd rfl rfl rfl rfl

theorem State.msix_walked (h : Walked s0 s) (v : Nat) : Walked s0 (State.msix s v) := by
  unfold State.msix
  split
  · exact h.upd rfl rfl rfl rfl
  · exact State.emit_walked h ..

theorem State.setFlags_walked (h : Walked s0 s) (page : Nat) (mask : Word64) (hb : (blockOf page).isSome = true) : Walked s0 (State.setFlags s page mask) := by
  have hset : Walked s0 (s.setReg (regKey page 0x20) (s.reg (regKey page 0x20) ||| mask)) := State.setReg_walked h _ _ (SettleReg.flags hb)
  unfold State.setFlags
  dsimp only
  exact .ite (fun _ => State.msix_walked hset _) (fun _ => hset)

theorem State.raiseWith_walked (h : Walked s0 s) (page n : Nat) (test : Bool) (arg : Word64) : Walked s0 (State.raiseWith s page n test arg) := by
  unfold State.raiseWith
  split
  · next sev b i _ hb =>
    have hset := State.setFlags_walked h page (1#64 <<< n) (by rw [hb]; rfl)
    dsimp only
    split
    · exact (State.wr_walked hset PG_STAT_FAULT 1 page 0 (SettleReg.off (by decide) (by decide))).upd rfl rfl rfl rfl
    · exact hset.upd rfl rfl rfl rfl
  · exact h

theorem State.raise_walked (h : Walked s0 s) (page n : Nat) : Walked s0 (State.raise s page n) := State.raiseWith_walked h ..

theorem State.raiseIf_walked (h : Walked s0 s) (c : Bool) (page n : Nat) : Walked s0 (State.raiseIf s c page n) := by
  unfold State.raiseIf
  split
  · exact State.raise_walked h ..
  · exact h

/-! ### Machine/Ops.lean -/

theorem State.takeFree_walked (h : Walked s0 s) : Walked s0 s.takeFree.2 := h.upd rfl rfl rfl rfl

theorem State.setTenant_walked (h : Walked s0 s) (t : Nat) (v : Tenant) : Walked s0 (State.setTenant s t v) :=
  h.upd rfl rfl rfl rfl

theorem State.addWused_walked (h : Walked s0 s) (t : Nat) (up down : Nat) : Walked s0 (State.addWused s t up down) :=
  State.setTenant_walked h ..

theorem State.markChange_walked (h : Walked s0 s) (pool : Nat) : Walked s0 (State.markChange s pool) := by
  unfold State.markChange
  repeat' (with_reducible first | assumption | fail_if_no_progress (refine Walked.mk' ?_ rfl rfl) | (extract_lets -underBinder +onlyGivenNames x; have ho : x.opened = x.opened := rfl) | (extract_lets -underBinder +onlyGivenNames x; try clear_value x) | split)

/-! ### Machine/RecOps.lean -/

theorem State.pmuCount_walked (h : Walked s0 s) (src ev inst tenant : Nat) (n : Nat) : Walked s0 (State.pmuCount s src ev inst tenant n) := by
  unfold State.pmuCount
  repeat' (with_reducible first | assumption | apply Walked.foldl | intro _ | fail_if_no_progress (refine Walked.mk' ?_ rfl rfl) | split)

/-! ### Machine/SmpOps.lean -/

theorem State.smpMod_walked (h : Walked s0 s) (qpn psn : Nat) (f : List Word64 → List Word64) : Walked s0 (State.smpMod s qpn psn f) := by
  unfold State.smpMod
  split
  · exact h.upd rfl rfl rfl rfl
  · exact h

theorem State.smpStall_walked (h : Walked s0 s) (qpn psn cause : Nat) : Walked s0 (State.smpStall s qpn psn cause) := by
  unfold State.smpStall
  split
  · exact h
  · exact State.smpMod_walked h ..

/-! ### Machine/BankOps.lean -/

theorem State.ask_walked (h : Walked s0 s) (who : Requester) (addr : Nat) : Walked s0 (State.ask s who addr) :=
  h.upd rfl rfl rfl rfl

theorem State.askWay_walked (h : Walked s0 s) (who : Requester) (i : Nat) : Walked s0 (State.askWay s who i) :=
  State.ask_walked h ..

theorem State.askIn_walked (h : Walked s0 s) (who : Requester) (baseMib sizeMib lines : Nat) : Walked s0 (State.askIn s who baseMib sizeMib lines) := by
  unfold State.askIn
  repeat' (with_reducible first | assumption | apply State.takeFree_walked | apply State.ask_walked | apply Walked.foldl | intro _ | split)

/-! ### Machine/DramOps.lean -/

theorem State.setChan_walked (h : Walked s0 s) (c : Nat) (v : Chan) : Walked s0 (State.setChan s c v) := h.upd rfl rfl rfl rfl

theorem State.modChan_walked (h : Walked s0 s) (c : Nat) (f : Chan → Chan) : Walked s0 (State.modChan s c f) :=
  State.setChan_walked h ..

theorem State.setChanSt_walked (h : Walked s0 s) (c v : Nat) : Walked s0 (State.setChanSt s c v) := State.setStat_walked h ..

theorem State.dchCount_walked (h : Walked s0 s) (c k : Nat) (n : Nat) (hk : k < 16) : Walked s0 (s.dchCount c k n) :=
  State.inc_walked h _ _ _ _ (SettleReg.off (by simp only; omega) (by simp only [settleOff, Bool.or_eq_true, Bool.and_eq_true, decide_eq_true_eq]; omega))

theorem State.setRankSt_walked (h : Walked s0 s) (c r v : Nat) : Walked s0 (State.setRankSt s c r v) :=
  State.wr_walked h _ _ _ _ (SettleReg.off (by decide) (by decide))

theorem State.dramReq_walked (h : Walked s0 s) (c f j : Nat) (write : Bool) (cls : Nat) : Walked s0 (State.dramReq s c f j write cls) := by
  unfold State.dramReq
  repeat' (with_reducible first | assumption | apply State.setChan_walked | refine State.dchCount_walked ?_ _ _ _ (by decide) | fail_if_no_progress (refine Walked.mk' ?_ rfl rfl) | (extract_lets -underBinder +onlyGivenNames x; (refine (fun (hx : Walked s0 x) => ?_) ?_); (on_goal 1 => try clear_value x); (on_goal 2 => (unfold x; clear x))) | (extract_lets -underBinder +onlyGivenNames x; try clear_value x) | split)

theorem State.setChFrames_walked (h : Walked s0 s) (c : Nat) (f : ChFrames) : Walked s0 (State.setChFrames s c f) :=
  h.upd rfl rfl rfl rfl

theorem State.takeIdx_walked (h : Walked s0 s) (c : Nat) : Walked s0 (State.takeIdx s c).2 := by
  unfold State.takeIdx
  repeat' (with_reducible first | assumption | apply State.setChFrames_walked | (extract_lets -underBinder +onlyGivenNames x; try clear_value x) | split)

theorem State.takeFrame_walked (h : Walked s0 s) (p : Nat) : WalkedO3 s0 (State.takeFrame s p) := by
  unfold State.takeFrame
  repeat' (with_reducible first | assumption | apply State.setChFrames_walked | apply State.takeIdx_walked | exact WalkedO3.none | apply WalkedO3.some | split)

theorem State.takeSpare_walked (h : Walked s0 s) (c : Nat) : WalkedO3 s0 (State.takeSpare s c) := by
  unfold State.takeSpare
  repeat' (with_reducible first | assumption | apply State.setChFrames_walked | apply State.takeIdx_walked | exact WalkedO3.none | apply WalkedO3.some | split)

theorem State.giveFrame_walked (h : Walked s0 s) (c i : Nat) : Walked s0 (State.giveFrame s c i) := by
  unfold State.giveFrame
  repeat' (with_reducible first | assumption | apply State.setChFrames_walked | (extract_lets -underBinder +onlyGivenNames x; try clear_value x) | split)

theorem State.retireEnd_walked (h : Walked s0 s) (c : Nat) : Walked s0 (State.retireEnd s c) := by
  unfold State.retireEnd
  repeat' (with_reducible first | assumption | apply State.raise_walked | apply State.setChanSt_walked | apply State.setRankSt_walked | apply State.setChFrames_walked | apply Walked.foldl | intro _ | fail_if_no_progress (refine Walked.mk' ?_ rfl rfl) | (extract_lets -underBinder +onlyGivenNames x; (refine (fun (hx : Walked s0 x) => ?_) ?_); (on_goal 1 => try clear_value x); (on_goal 2 => (unfold x; clear x))) | (extract_lets -underBinder +onlyGivenNames x; try clear_value x) | split)

/-! ### Machine/CacheOps.lean -/

theorem State.setWay_walked (h : Walked s0 s) (i : Nat) (w : Way) : Walked s0 (State.setWay s i w) := h.upd rfl rfl rfl rfl

theorem State.dropWay_walked (h : Walked s0 s) (i : Nat) : Walked s0 (State.dropWay s i) := h.upd rfl rfl rfl rfl

theorem State.freeWay_walked (h : Walked s0 s) (i : Nat) : Walked s0 (State.freeWay s i) := by
  unfold State.freeWay
  repeat' (with_reducible first | assumption | apply State.dropWay_walked | fail_if_no_progress (refine Walked.mk' ?_ rfl rfl) | (extract_lets -underBinder +onlyGivenNames x; (refine (fun (hx : Walked s0 x) => ?_) ?_); (on_goal 1 => try clear_value x); (on_goal 2 => (unfold x; clear x))) | (extract_lets -underBinder +onlyGivenNames x; try clear_value x) | split)

theorem State.touch_walked (h : Walked s0 s) (i : Nat) : Walked s0 (State.touch s i) := h.upd rfl rfl rfl rfl

theorem State.mshrPeak_walked (h : Walked s0 s) : Walked s0 (State.mshrPeak s) := by
  unfold State.mshrPeak
  split
  · exact State.wr_walked h _ _ _ _ (SettleReg.core (by decide) (by decide))
  · exact h

theorem State.setDram_walked (h : Walked s0 s) (ch idx j : Nat) (v : DLine) : Walked s0 (s.setDram ch idx j v) := h.upd rfl rfl rfl rfl

theorem State.fillFrame_walked (h : Walked s0 s) (ch idx cls : Nat) (f : Nat → DLine) : Walked s0 (State.fillFrame s ch idx cls f) :=
  h.foldl (fun _ _ hs => State.dramReq_walked (State.setDram_walked hs ..) ..)

theorem State.lineReq_walked (h : Walked s0 s) (k ch : Nat) (write : Bool) (cls : Nat) : Walked s0 (State.lineReq s k ch write cls) := by
  unfold State.lineReq
  split
  · exact State.dramReq_walked h ..
  · exact State.dramReq_walked h ..

theorem State.setPte_walked (h : Walked s0 s) (p : Nat) (e : Pte) : Walked s0 (State.setPte s p e) := by
  unfold State.setPte
  repeat' (with_reducible first | assumption | apply State.lineReq_walked | fail_if_no_progress (refine Walked.mk' ?_ rfl rfl) | (extract_lets -underBinder +onlyGivenNames x; (refine (fun (hx : Walked s0 x) => ?_) ?_); (on_goal 1 => try clear_value x); (on_goal 2 => (unfold x; clear x))) | (extract_lets -underBinder +onlyGivenNames x; try clear_value x) | split)

theorem State.addT1_walked (h : Walked s0 s) (t up down : Nat) : Walked s0 (State.addT1 s t up down) := h.upd rfl rfl rfl rfl

theorem State.addT2_walked (h : Walked s0 s) (t up down : Nat) : Walked s0 (State.addT2 s t up down) := h.upd rfl rfl rfl rfl

theorem State.heatPage_walked (h : Walked s0 s) (p : Nat) : Walked s0 (State.heatPage s p) := by
  unfold State.heatPage
  repeat' (with_reducible first | assumption | apply State.setPte_walked | (extract_lets -underBinder +onlyGivenNames x; try clear_value x) | split)

theorem State.charge_walked (h : Walked s0 s) (line tenant : Nat) : Walked s0 (State.charge s line tenant) := by
  unfold State.charge
  repeat' (with_reducible first | assumption | refine State.wr_walked ?_ _ _ _ _ (SettleReg.core (by decide) (by decide)) | apply State.addWused_walked | apply State.setPte_walked | fail_if_no_progress (refine Walked.mk' ?_ rfl rfl) | exact WalkedO.get (by assumption) rfl | apply WalkedO.some | (extract_lets -underBinder +onlyGivenNames x; (refine (fun (hx : WalkedO s0 x) => ?_) ?_); (on_goal 1 => try clear_value x); (on_goal 2 => (unfold x; clear x))) | (extract_lets -underBinder +onlyGivenNames x; try clear_value x) | split)

theorem State.modOp_walked (h : Walked s0 s) (id : Nat) (f : Op → Op) : Walked s0 (State.modOp s id f) := h.upd rfl rfl rfl rfl

theorem State.unreserve_walked (h : Walked s0 s) (tenant n : Nat) : Walked s0 (State.unreserve s tenant n) :=
  State.addWused_walked (State.wr_walked h _ _ _ _ (SettleReg.core (by decide) (by decide))) ..

theorem State.moveWait_walked (h : Walked s0 s) (k : Nat) : Walked s0 (State.moveWait s k) := by
  unfold State.moveWait
  repeat' (with_reducible first | assumption | refine State.inc_walked ?_ _ _ _ _ (SettleReg.core (by decide) (by decide)) | apply State.pmuCount_walked | fail_if_no_progress (refine Walked.mk' ?_ rfl rfl) | (extract_lets -underBinder +onlyGivenNames x; (refine (fun (hx : Walked s0 x) => ?_) ?_); (on_goal 1 => try clear_value x); (on_goal 2 => (unfold x; clear x))) | split)

theorem State.toFlue_walked (h : Walked s0 s) (k : Nat) (data : Line) (poison : Bool) : Walked s0 (State.toFlue s k data poison) := by
  unfold State.toFlue
  repeat' (with_reducible first | assumption | apply State.lineReq_walked | apply State.moveWait_walked | fail_if_no_progress (refine Walked.mk' ?_ rfl rfl) | (extract_lets -underBinder +onlyGivenNames x; (refine (fun (hx : Walked s0 x) => ?_) ?_); (on_goal 1 => try clear_value x); (on_goal 2 => (unfold x; clear x))) | (extract_lets -underBinder +onlyGivenNames x; try clear_value x) | split)

theorem State.alloc_walked (h : Walked s0 s) (k t : Nat) : WalkedA s0 (State.alloc s k t) := by
  unfold State.alloc
  repeat' (with_reducible first | assumption | apply State.dropWay_walked | apply State.toFlue_walked | apply WalkedA.way | exact WalkedA.bypass | exact WalkedA.waitSet | exact WalkedA.waitFlue | (extract_lets -underBinder +onlyGivenNames x; try clear_value x) | split)

theorem State.quotaBypass_walked (h : Walked s0 s) (t : Nat) : Walked s0 (State.quotaBypass s t) :=
  (State.satInc_walked h _ _ _ _ (SettleReg.core (by decide) (by decide))).upd rfl rfl rfl rfl

theorem State.reinstate_walked (h : Walked s0 s) (k : Nat) : Walked s0 (State.reinstate s k) := h.upd rfl rfl rfl rfl

theorem State.invalidate_walked (h : Walked s0 s) (i : Nat) : Walked s0 (State.invalidate s i) := by
  unfold State.invalidate
  repeat' (with_reducible first | assumption | apply State.setWay_walked | apply State.freeWay_walked | split)

theorem State.writeBackWay_walked (h : Walked s0 s) (i : Nat) : Walked s0 (State.writeBackWay s i) := by
  unfold State.writeBackWay
  repeat' (with_reducible first | assumption | apply State.askWay_walked | apply State.setWay_walked | apply State.setDram_walked | apply State.lineReq_walked | apply State.moveWait_walked | fail_if_no_progress (refine Walked.mk' ?_ rfl rfl) | split)

theorem State.addCells_walked (h : Walked s0 s) (p q n : Nat) : Walked s0 (State.addCells s p q n) := h.upd rfl rfl rfl rfl

/-! ### Machine/IntOps.lean -/

theorem State.intCount_walked (h : Walked s0 s) (k : Nat) (n : Nat) (hk : k < 128) : Walked s0 (s.intCount k n) :=
  State.inc_walked h _ _ _ _ (SettleReg.core (by decide) (by simp only; omega))

theorem State.lastUe_walked (h : Walked s0 s) (source outcome ch rank line : Nat) : Walked s0 (State.lastUe s source outcome ch rank line) := by
  unfold State.lastUe
  repeat' (with_reducible first | assumption | refine State.wr_walked ?_ _ _ _ _ (SettleReg.core (by decide) (by decide)))

theorem State.injDrop_walked (h : Walked s0 s) (k : Nat) : Walked s0 (State.injDrop s k) := h.upd rfl rfl rfl rfl

theorem State.recoverLine_walked (h : Walked s0 s) (line : Nat) (v : Line) (twin : Option Line) (source ch rank : Nat) : Walked s0 (State.recoverLine s line v twin source ch rank).1 := by
  unfold State.recoverLine
  repeat' (with_reducible first | assumption | apply State.raise_walked | refine State.intCount_walked ?_ _ _ (by decide) | apply State.lastUe_walked | (extract_lets -underBinder +onlyGivenNames x; try clear_value x) | split)

theorem State.wayUe_walked (h : Walked s0 s) (line : Nat) : Walked s0 (State.wayUe s line) := by
  unfold State.wayUe
  repeat' (with_reducible first | assumption | apply State.raise_walked | apply State.setWay_walked | apply State.invalidate_walked | refine State.intCount_walked ?_ _ _ (by decide) | apply State.lastUe_walked | apply State.recoverLine_walked | (extract_lets -underBinder +onlyGivenNames x; (refine (fun (hx : Walked s0 x) => ?_) ?_); (on_goal 1 => try clear_value x); (on_goal 2 => (unfold x; clear x))) | split)

theorem State.cacheError_walked (h : Walked s0 s) (line : Nat) (full : Bool) : Walked s0 (State.cacheError s line full) := by
  unfold State.cacheError
  repeat' (with_reducible first | assumption | refine State.intCount_walked ?_ _ _ (by decide) | apply State.injDrop_walked | apply State.wayUe_walked | split)

/-! ### Machine/CphOps.lean -/

theorem State.cphCount_walked (h : Walked s0 s) (k : Nat) (n : Nat) (hk : k < 128) : Walked s0 (s.cphCount k n) :=
  State.inc_walked h _ _ _ _ (SettleReg.core (by decide) (by simp only; omega))

/-! ### Machine/NandOps.lean -/

theorem State.medCount_walked (h : Walked s0 s) (k : Nat) (n : Nat) (hk : k < 128) : Walked s0 (s.medCount k n) :=
  State.inc_walked h _ _ _ _ (SettleReg.core (by decide) (by simp only; omega))

theorem State.setSb_walked (h : Walked s0 s) (k : Nat) (v : Sb) : Walked s0 (State.setSb s k v) := h.upd rfl rfl rfl rfl

theorem State.modStat_walked (h : Walked s0 s) (c d : Nat) (f : DieStat → DieStat) : Walked s0 (State.modStat s c d f) :=
  h.upd rfl rfl rfl rfl

theorem State.setProg_walked (h : Walked s0 s) (a : Nat) (p : Prog) : Walked s0 (State.setProg s a p) := h.upd rfl rfl rfl rfl

theorem State.suspendOp_walked (h : Walked s0 s) (c d : Nat) : WalkedO s0 (State.suspendOp s c d) := by
  unfold State.suspendOp
  repeat' (with_reducible first | assumption | apply State.setSb_walked | apply State.setProg_walked | exact WalkedO.none | apply WalkedO.some | (extract_lets -underBinder +onlyGivenNames x; try clear_value x) | split)

theorem State.suspendFor_walked (h : Walked s0 s) (a : Nat) : Walked s0 (State.suspendFor s a) := by
  unfold State.suspendFor
  repeat' (with_reducible first | assumption | refine State.medCount_walked ?_ _ _ (by decide) | apply State.modStat_walked | apply State.suspendOp_walked | fail_if_no_progress (refine Walked.mk' ?_ rfl rfl) | refine WalkedO.get ?_ (by assumption) | (extract_lets -underBinder +onlyGivenNames x; try clear_value x) | split)

/-! ### Machine/DataPath.lean -/

theorem State.stallStart_walked (h : Walked s0 s) (w : Wait) (tenant : Nat) : Walked s0 (s.stallStart w tenant) := by
  unfold State.stallStart
  split
  · rename_i k hk
    have := Wait.stall_lt hk
    exact State.pmuCount_walked (State.inc_walked h _ _ _ _ (SettleReg.core (by decide) (by simp only; omega))) _ _ _ _ _
  · exact h

theorem State.stallEnd_walked (h : Walked s0 s) (w : Wait) (since : Nat) : Walked s0 (s.stallEnd w since) := by
  unfold State.stallEnd
  split
  · rename_i k hk
    have := Wait.stall_lt hk
    exact State.inc_walked h _ _ _ _ (SettleReg.core (by decide) (by simp only; omega))
  · exact h

theorem State.accDone_walked (h : Walked s0 s) (a : Acc) (r : Option (Line × Word64)) (ep : Option Nat) : Walked s0 (State.accDone s a r ep) := by
  unfold State.accDone
  repeat' (with_reducible first | assumption | apply State.modOp_walked | apply State.unreserve_walked | apply State.stallEnd_walked | split)

/-- A QP whose context's words stand is in the state it was in. -/
theorem State.setQp_walked (h : Walked s0 s) (n : Nat) (q : Qp) (hq : q.words = (s.qp n).words) : Walked s0 (s.setQp n q) := by
  refine h.trans ⟨State.setQp_calm (.refl s) n q hq, fun _ _ _ => rfl⟩

theorem State.noteUnsealed_walked (h : Walked s0 s) (op : Nat) (ep : Option Nat) : Walked s0 (s.noteUnsealed op ep) := by
  unfold State.noteUnsealed
  split
  · exact State.setQp_walked h _ _ rfl
  · exact h

theorem State.placed_walked (_h : Walked s0 s) (a : Acc) (l : Line) (p : Bool) : Walked s0 (State.placed s a l p) := by
  unfold State.placed
  repeat' (with_reducible first | exact State.stage_walked _ _ | apply State.markChange_walked)

theorem State.copyOnWrite_walked (h : Walked s0 s) (i : Nat) (x : Way) : Walked s0 (State.copyOnWrite s i x) := by
  unfold State.copyOnWrite
  repeat' (with_reducible first | assumption | refine State.satInc_walked ?_ _ _ _ _ (SettleReg.core (by decide) (by decide)) | apply State.addCells_walked | apply Walked.foldl | intro _ | fail_if_no_progress (refine Walked.mk' ?_ rfl rfl) | split)

theorem State.hit_walked (h : Walked s0 s) (i : Nat) (x : Way) (a : Acc) (touches : Bool) : Walked s0 (State.hit s i x a touches) := by
  unfold State.hit
  repeat' (with_reducible first | assumption | apply State.askWay_walked | apply State.setWay_walked | apply State.touch_walked | apply State.accDone_walked | apply State.noteUnsealed_walked | apply State.placed_walked | apply State.copyOnWrite_walked | split)

theorem State.srWake_walked (h : Walked s0 s) (c : Nat) : Walked s0 (State.srWake s c) := by
  unfold State.srWake
  repeat' (with_reducible first | assumption | apply State.modChan_walked | refine State.dchCount_walked ?_ _ _ _ (by decide) | split)

theorem State.takeMshr_walked (h : Walked s0 s) (m : Mshr) : Walked s0 (State.takeMshr s m) := by
  unfold State.takeMshr
  repeat' (with_reducible first | assumption | apply State.raiseIf_walked | apply State.mshrPeak_walked | apply State.lineReq_walked | fail_if_no_progress (refine Walked.mk' ?_ rfl rfl))

theorem State.stallEvents_walked (h : Walked s0 s) (w : Wait) : Walked s0 (State.stallEvents s w) := by
  unfold State.stallEvents
  repeat' (with_reducible first | assumption | apply State.raise_walked | apply State.raiseIf_walked | fail_if_no_progress (refine Walked.mk' ?_ rfl rfl) | split)

theorem State.waitCounters_walked (h : Walked s0 s) (w : Wait) : Walked s0 (State.waitCounters s w) := by
  unfold State.waitCounters
  repeat' (with_reducible first | assumption | refine State.satInc_walked ?_ _ _ _ _ (SettleReg.core (by decide) (by decide)) | apply State.raise_walked | split)

theorem State.waitBegins_walked (h : Walked s0 s) (a : Acc) (w : Wait) : Walked s0 (State.waitBegins s a w) := by
  unfold State.waitBegins
  repeat' (with_reducible first | assumption | apply State.smpStall_walked | apply State.stallStart_walked | apply State.srWake_walked | apply State.stallEvents_walked | apply State.waitCounters_walked | (extract_lets -underBinder +onlyGivenNames x; (refine (fun (hx : Walked s0 x) => ?_) ?_); (on_goal 1 => try clear_value x); (on_goal 2 => (unfold x; clear x))) | split)

theorem State.countLookup_walked (h : Walked s0 s) (k tenant : Nat) : Walked s0 (State.countLookup s k tenant) := by
  unfold State.countLookup
  repeat' (with_reducible first | assumption | refine State.inc_walked ?_ _ _ _ _ (SettleReg.core (by decide) (by decide)) | apply State.pmuCount_walked | split)

theorem State.mergeAcc_walked (h : Walked s0 s) (k : Nat) (a : Acc) (w : Wait) : WalkedT s0 (State.mergeAcc s k a w) := by
  unfold State.mergeAcc
  repeat' (with_reducible first | assumption | apply State.waitBegins_walked | fail_if_no_progress (refine Walked.mk' ?_ rfl rfl) | apply WalkedT.wait | apply WalkedT.merged | split)

theorem State.missTake_walked (h : Walked s0 s) (k tenant ch : Nat) (way : Option Nat) (a : Acc) (w : Wait) : WalkedT s0 (State.missTake s k tenant ch way a w) := by
  unfold State.missTake
  repeat' (with_reducible first | assumption | apply State.takeMshr_walked | apply State.waitBegins_walked | apply WalkedT.merged | split)

theorem State.ptLookup_walked (h : Walked s0 s) (a : Acc) : WalkedP3 s0 (State.ptLookup s a) := by
  unfold State.ptLookup
  repeat' (with_reducible first | assumption | apply State.setWay_walked | apply State.touch_walked | apply State.alloc_walked | apply State.quotaBypass_walked | apply State.reinstate_walked | apply State.countLookup_walked | apply State.mergeAcc_walked | apply State.missTake_walked | refine WalkedA.of_way ?_ (by assumption) | apply WalkedT.wait | apply WalkedP3.none | apply WalkedP3.some | (extract_lets -underBinder +onlyGivenNames x; (refine (fun (hx : Walked s0 x) => ?_) ?_); (on_goal 1 => try clear_value x); (on_goal 2 => (unfold x; clear x))) | (extract_lets -underBinder +onlyGivenNames x; try clear_value x) | split)

theorem State.stagingBegins_walked (h : Walked s0 s) (p : Nat) : Walked s0 (State.stagingBegins s p) := by
  unfold State.stagingBegins
  repeat' (with_reducible first | assumption | apply State.stallStart_walked | fail_if_no_progress (refine Walked.mk' ?_ rfl rfl) | (extract_lets -underBinder +onlyGivenNames x; (refine (fun (hx : Walked s0 x) => ?_) ?_); (on_goal 1 => try clear_value x); (on_goal 2 => (unfold x; clear x))) | split)

theorem State.stagingEnds_walked (h : Walked s0 s) (p : Nat) : Walked s0 (State.stagingEnds s p) := by
  unfold State.stagingEnds
  split
  · exact (State.stallEnd_walked h ..).upd rfl rfl rfl rfl
  · exact h

theorem State.startFetch_walked (h : Walked s0 s) (p : Nat) : WalkedE s0 (State.startFetch s p) := by
  unfold State.startFetch
  repeat' (with_reducible first | assumption | apply State.takeFrame_walked | apply State.setPte_walked | apply State.addT1_walked | apply State.suspendFor_walked | apply State.stagingBegins_walked | refine WalkedO3.get ?_ (by assumption) | apply WalkedE.ok | exact WalkedE.error | (extract_lets -underBinder +onlyGivenNames x; try clear_value x) | split)

theorem State.stagingGo_walked (h : Walked s0 s) : Walked s0 (State.stagingGo s) := by
  unfold State.stagingGo
  repeat' (with_reducible first | assumption | apply State.suspendFor_walked | apply State.stagingEnds_walked | apply Walked.foldl | intro _ | split)

theorem State.readAhead_walked (h : Walked s0 s) (p : Nat) : Walked s0 (State.readAhead s p) := by
  unfold State.readAhead
  repeat' (with_reducible first | assumption | apply Walked.foldl | intro _ | fail_if_no_progress (refine Walked.mk' ?_ rfl rfl) | (extract_lets -underBinder +onlyGivenNames x; try clear_value x) | split)

theorem State.raDrop_walked (h : Walked s0 s) (r : RaWait) : Walked s0 (State.raDrop s r) :=
  (State.stallEnd_walked h ..).upd rfl rfl rfl rfl

theorem State.raWaits_walked (h : Walked s0 s) (r : RaWait) (w : Wait) : Walked s0 (State.raWaits s r w) :=
  (State.stallStart_walked (State.stallEnd_walked h ..) ..).upd rfl rfl rfl rfl

theorem State.fetchAhead_walked (h : Walked s0 s) (p : Nat) : Walked s0 (State.fetchAhead s p) := h.upd rfl rfl rfl rfl

theorem State.readAheadGo_walked (h : Walked s0 s) : Walked s0 (State.readAheadGo s) := by
  unfold State.readAheadGo
  repeat' (with_reducible first | assumption | apply State.startFetch_walked | apply State.raDrop_walked | apply State.raWaits_walked | apply State.fetchAhead_walked | apply Walked.foldl | intro _ | refine WalkedE.of_ok ?_ (by assumption) | split)

theorem State.fetchWanted_walked (h : Walked s0 s) (p : Nat) : Walked s0 (State.fetchWanted s p) := h.upd rfl rfl rfl rfl

theorem State.zeroFill_walked (h : Walked s0 s) (p t : Nat) : WalkedE s0 (State.zeroFill s p t) := by
  unfold State.zeroFill
  repeat' (with_reducible first | assumption | apply State.takeFrame_walked | apply State.fillFrame_walked | apply State.setPte_walked | apply State.addT1_walked | apply State.addT2_walked | refine WalkedO3.get ?_ (by assumption) | apply WalkedE.ok | exact WalkedE.error | (extract_lets -underBinder +onlyGivenNames x; try clear_value x) | split)

theorem State.pageStep_walked (h : Walked s0 s) (a : Acc) : WalkedPT s0 (State.pageStep s a) := by
  unfold State.pageStep
  repeat' (with_reducible first | assumption | apply State.accDone_walked | apply State.startFetch_walked | apply State.readAhead_walked | apply State.readAheadGo_walked | apply State.fetchWanted_walked | apply State.zeroFill_walked | fail_if_no_progress (refine Walked.mk' ?_ rfl rfl) | apply WalkedT.done | apply WalkedT.wait | refine WalkedE.of_ok ?_ (by assumption) | apply WalkedPT.none | apply WalkedPT.some | (extract_lets -underBinder +onlyGivenNames x; try clear_value x) | split)

theorem State.bypassWrite_walked (h : Walked s0 s) (a : Acc) : WalkedT s0 (State.bypassWrite s a) := by
  unfold State.bypassWrite
  repeat' (with_reducible first | assumption | apply State.dramReq_walked | apply State.setDram_walked | apply State.accDone_walked | apply State.noteUnsealed_walked | apply State.placed_walked | fail_if_no_progress (refine Walked.mk' ?_ rfl rfl) | apply WalkedT.done | apply WalkedT.wait | exact WalkedO.get (by assumption) rfl | apply WalkedO.some | (extract_lets -underBinder +onlyGivenNames x; (refine (fun (hx : WalkedO s0 x) => ?_) ?_); (on_goal 1 => try clear_value x); (on_goal 2 => (unfold x; clear x))) | (extract_lets -underBinder +onlyGivenNames x; try clear_value x) | split)

theorem State.bypass_walked (h : Walked s0 s) (a : Acc) : WalkedT s0 (State.bypass s a) := by
  unfold State.bypass
  repeat' (with_reducible first | assumption | apply State.accDone_walked | apply State.mergeAcc_walked | apply State.missTake_walked | apply State.bypassWrite_walked | apply WalkedT.done | apply WalkedT.wait | (extract_lets -underBinder +onlyGivenNames x; try clear_value x) | split)

theorem State.bypassFor_walked (h : Walked s0 s) (a : Acc) : WalkedT s0 (State.bypassFor s a) := by
  unfold State.bypassFor
  repeat' (with_reducible first | assumption | apply State.quotaBypass_walked | apply State.bypass_walked | split)

theorem State.cacheStep_walked (h : Walked s0 s) (a : Acc) : WalkedT s0 (State.cacheStep s a) := by
  unfold State.cacheStep
  repeat' (with_reducible first | assumption | apply State.pmuCount_walked | apply State.setWay_walked | apply State.alloc_walked | apply State.reinstate_walked | apply State.hit_walked | apply State.countLookup_walked | apply State.mergeAcc_walked | apply State.missTake_walked | apply State.bypass_walked | apply State.bypassFor_walked | refine WalkedA.of_way ?_ (by assumption) | apply WalkedT.done | apply WalkedT.wait | (extract_lets -underBinder +onlyGivenNames x; (refine (fun (hx : Walked s0 x) => ?_) ?_); (on_goal 1 => try clear_value x); (on_goal 2 => (unfold x; clear x))) | (extract_lets -underBinder +onlyGivenNames x; try clear_value x) | split)

theorem State.applyLine_walked (h : Walked s0 s) (a : Acc) : WalkedT s0 (State.applyLine s a) := by
  unfold State.applyLine
  repeat' (with_reducible first | assumption | apply State.dramReq_walked | apply State.setDram_walked | apply State.charge_walked | apply State.accDone_walked | apply WalkedT.done)

theorem State.tryAcc_walked (h : Walked s0 s) (a : Acc) : WalkedT s0 (State.tryAcc s a) := by
  unfold State.tryAcc
  repeat' (with_reducible first | assumption | apply State.heatPage_walked | apply State.cacheError_walked | apply State.ptLookup_walked | apply State.pageStep_walked | apply State.cacheStep_walked | apply State.applyLine_walked | apply WalkedT.wait | refine WalkedP3.get_some ?_ (by assumption) | refine WalkedP3.get_snd ?_ (by assumption) | refine WalkedPT.get_some ?_ (by assumption) | refine WalkedPT.get_snd ?_ (by assumption) | (extract_lets -underBinder +onlyGivenNames x; (refine (fun (hx : Walked s0 x) => ?_) ?_); (on_goal 1 => try clear_value x); (on_goal 2 => (unfold x; clear x))) | (extract_lets -underBinder +onlyGivenNames x; try clear_value x) | split)

theorem State.park_walked (h : Walked s0 s) (a : Acc) (w : Wait) : Walked s0 (State.park s a w).1 := by
  unfold State.park
  repeat' (with_reducible first | assumption | apply State.stallEnd_walked | apply State.waitBegins_walked | split)

theorem pumpList_walked (as : List Acc) : ∀ {s : State}, Walked s0 s → ∀ (kept : List Acc) (moved : Bool), Walked s0 (pumpList as s kept moved).1 := by
  induction as with
  | nil => intro s h kept moved; exact h
  | cons a as ih =>
    intro s h kept moved
    unfold pumpList
    have ht := State.tryAcc_walked h a
    repeat' (with_reducible first | assumption | apply ih | apply State.stallEnd_walked | apply State.pmuCount_walked | apply State.park_walked | refine WalkedT.of_done ht (by assumption) | refine WalkedT.of_merged ht (by assumption) | refine WalkedT.of_wait ht (by assumption) | split)

theorem State.pump_walked (h : Walked s0 s) : Walked s0 (State.pump s).1 := by
  unfold State.pump
  repeat' (with_reducible first | assumption | apply pumpList_walked | fail_if_no_progress (refine Walked.mk' ?_ rfl rfl) | split)

/-! ### Machine/MediaOps.lean -/

theorem State.jrn_walked (h : Walked s0 s) (r : JRec) (frees : Option Nat) : Walked s0 (State.jrn s r frees) :=
  h.upd rfl rfl rfl rfl

theorem State.openSb_walked (h : Walked s0 s) (stream g : Nat) (slc : Bool) : WalkedO s0 (State.openSb s stream g slc) := by
  unfold State.openSb
  repeat' (with_reducible first | assumption | apply State.setSb_walked | apply State.jrn_walked | fail_if_no_progress (refine Walked.mk' ?_ rfl rfl) | exact WalkedO.none | apply WalkedO.some | split)

theorem State.closeSb_walked (h : Walked s0 s) (stream g : Nat) (slc : Bool) : Walked s0 (State.closeSb s stream g slc) := by
  unfold State.closeSb
  repeat' (with_reducible first | assumption | apply State.setSb_walked | apply State.jrn_walked | fail_if_no_progress (refine Walked.mk' ?_ rfl rfl) | split)

theorem State.readyOpen_walked (h : Walked s0 s) (stream : Nat) (slc : Bool) : Walked s0 (State.readyOpen s stream slc) := by
  unfold State.readyOpen
  repeat' (with_reducible first | assumption | apply State.openSb_walked | apply State.closeSb_walked | apply Walked.foldl | intro _ | refine WalkedO.get ?_ (by assumption) | exact WalkedO.get (by assumption) rfl | apply WalkedO.some | (extract_lets -underBinder +onlyGivenNames x; (refine (fun (hx : WalkedO s0 x) => ?_) ?_); (on_goal 1 => try clear_value x); (on_goal 2 => (unfold x; clear x))) | (extract_lets -underBinder +onlyGivenNames x; try clear_value x) | split)

theorem State.startProg_walked (h : Walked s0 s) (stream : Nat) (slc : Bool) (src : Option Nat) (u : MUnit) : WalkedO2 s0 (State.startProg s stream slc src u) := by
  unfold State.startProg
  repeat' (with_reducible first | assumption | apply State.askIn_walked | refine State.cphCount_walked ?_ _ _ (by decide) | apply State.setSb_walked | apply State.readyOpen_walked | fail_if_no_progress (refine Walked.mk' ?_ rfl rfl) | exact WalkedO2.none | apply WalkedO2.some | (extract_lets -underBinder +onlyGivenNames x; (refine (fun (hx : Walked s0 x) => ?_) ?_); (on_goal 1 => try clear_value x); (on_goal 2 => (unfold x; clear x))) | (extract_lets -underBinder +onlyGivenNames x; try clear_value x) | split)

theorem State.dropUnit_walked (h : Walked s0 s) (a : Nat) : Walked s0 (State.dropUnit s a) := State.setSb_walked h ..

theorem State.unmapPage_walked (h : Walked s0 s) (p : Nat) : Walked s0 (State.unmapPage s p) := by
  unfold State.unmapPage
  repeat' (with_reducible first | assumption | refine State.medCount_walked ?_ _ _ (by decide) | apply State.jrn_walked | apply State.dropUnit_walked | (extract_lets -underBinder +onlyGivenNames x; try clear_value x) | split)

/-! ### Machine/TierOps.lean -/

theorem State.writeBackPage_walked (h : Walked s0 s) (p : Nat) : Walked s0 (State.writeBackPage s p) := by
  unfold State.writeBackPage
  repeat' (with_reducible first | assumption | apply State.setWay_walked | apply State.setDram_walked | apply Walked.foldl | intro _ | fail_if_no_progress (refine Walked.mk' ?_ rfl rfl) | split)

theorem State.dropPageLines_walked (h : Walked s0 s) (p : Nat) : Walked s0 (State.dropPageLines s p) := by
  unfold State.dropPageLines
  repeat' (with_reducible first | assumption | apply State.invalidate_walked | apply Walked.foldl | intro _ | fail_if_no_progress (refine Walked.mk' ?_ rfl rfl))

theorem State.toMedia_walked (h : Walked s0 s) (p : Nat) : Walked s0 (State.toMedia s p) := by
  unfold State.toMedia
  repeat' (with_reducible first | assumption | apply State.giveFrame_walked | apply State.setPte_walked | apply State.addT1_walked | apply State.dropPageLines_walked)

theorem State.startDestage_walked (h : Walked s0 s) (p : Nat) (demote : Bool) : Walked s0 (State.startDestage s p demote) := by
  unfold State.startDestage
  repeat' (with_reducible first | assumption | apply State.raiseIf_walked | apply State.dramReq_walked | apply State.setPte_walked | apply State.stagingBegins_walked | apply State.startProg_walked | apply State.writeBackPage_walked | apply Walked.foldl | intro _ | fail_if_no_progress (refine Walked.mk' ?_ rfl rfl) | refine WalkedO2.get ?_ (by assumption) | (extract_lets -underBinder +onlyGivenNames x; (refine (fun (hx : Walked s0 x) => ?_) ?_); (on_goal 1 => try clear_value x); (on_goal 2 => (unfold x; clear x))) | (extract_lets -underBinder +onlyGivenNames x; try clear_value x) | split)

theorem State.destageGo_walked (h : Walked s0 s) : Walked s0 (State.destageGo s) := by
  unfold State.destageGo
  repeat' (with_reducible first | assumption | apply State.stagingEnds_walked | apply State.startDestage_walked | apply Walked.foldl | intro _ | fail_if_no_progress (refine Walked.mk' ?_ rfl rfl) | (extract_lets -underBinder +onlyGivenNames x; (refine (fun (hx : Walked s0 x) => ?_) ?_); (on_goal 1 => try clear_value x); (on_goal 2 => (unfold x; clear x))) | split)

theorem State.endDemotion_walked (h : Walked s0 s) (p : Nat) (wrote : Bool) : Walked s0 (State.endDemotion s p wrote) := by
  unfold State.endDemotion
  repeat' (with_reducible first | assumption | apply State.setPte_walked | apply State.toMedia_walked | fail_if_no_progress (refine Walked.mk' ?_ rfl rfl) | (extract_lets -underBinder +onlyGivenNames x; (refine (fun (hx : Walked s0 x) => ?_) ?_); (on_goal 1 => try clear_value x); (on_goal 2 => (unfold x; clear x))) | (extract_lets -underBinder +onlyGivenNames x; try clear_value x) | split)

theorem State.demotesGo_walked (h : Walked s0 s) : Walked s0 (State.demotesGo s) := by
  unfold State.demotesGo
  repeat' (with_reducible first | assumption | apply State.endDemotion_walked | apply Walked.foldl | intro _ | fail_if_no_progress (refine Walked.mk' ?_ rfl rfl) | (extract_lets -underBinder +onlyGivenNames x; (refine (fun (hx : Walked s0 x) => ?_) ?_); (on_goal 1 => try clear_value x); (on_goal 2 => (unfold x; clear x))) | (extract_lets -underBinder +onlyGivenNames x; try clear_value x) | split)

theorem State.demote_walked (h : Walked s0 s) (p : Nat) : Walked s0 (State.demote s p) := by
  unfold State.demote
  repeat' (with_reducible first | assumption | apply State.setPte_walked | apply State.startDestage_walked | apply State.endDemotion_walked | fail_if_no_progress (refine Walked.mk' ?_ rfl rfl) | exact WalkedO.get (by assumption) rfl | apply WalkedO.some | (extract_lets -underBinder +onlyGivenNames x; (refine (fun (hx : WalkedO s0 x) => ?_) ?_); (on_goal 1 => try clear_value x); (on_goal 2 => (unfold x; clear x))) | (extract_lets -underBinder +onlyGivenNames x; try clear_value x) | split)

theorem State.sweepPage_walked (h : Walked s0 s) (p : Nat) : Walked s0 (State.sweepPage s p) := by
  unfold State.sweepPage
  repeat' (with_reducible first | assumption | apply State.setPte_walked | apply State.demote_walked | (extract_lets -underBinder +onlyGivenNames x; try clear_value x) | split)

theorem sweepList_walked : ∀ (a0 : List Nat) (a1 : Nat) (a2 : State), Walked s0 a2 → Walked s0 (sweepList a0 a1 a2) := by
  intro a0
  induction a0 with
  | nil =>
    intro a1 a2 h
    rw [sweepList]
    exact h
  | cons x xs ih =>
    intro a1 a2 h
    rw [sweepList]
    repeat' (with_reducible first | assumption | apply ih | apply State.sweepPage_walked | fail_if_no_progress (refine Walked.mk' ?_ rfl rfl) | split)

theorem State.demoter_walked (h : Walked s0 s) : Walked s0 (State.demoter s) := by
  unfold State.demoter
  repeat' (with_reducible first | assumption | apply sweepList_walked | fail_if_no_progress (refine Walked.mk' ?_ rfl rfl) | (extract_lets -underBinder +onlyGivenNames x; (refine (fun (hx : Walked s0 x) => ?_) ?_); (on_goal 1 => try clear_value x); (on_goal 2 => (unfold x; clear x))) | (extract_lets -underBinder +onlyGivenNames x; try clear_value x) | split)

theorem State.quotaSweep_walked (h : Walked s0 s) (t : Nat) : Walked s0 (State.quotaSweep s t) := by
  unfold State.quotaSweep
  repeat' (with_reducible first | assumption | apply State.sweepPage_walked | apply Walked.foldl | intro _ | split)

theorem State.pressure_walked (h : Walked s0 s) : Walked s0 (State.pressure s) := by
  unfold State.pressure
  repeat' (with_reducible first | assumption | apply State.startDestage_walked | apply Walked.foldl | intro _ | (extract_lets -underBinder +onlyGivenNames x; try clear_value x) | split)

theorem State.popMove_walked (h : Walked s0 s) (c : Nat) : Walked s0 (State.popMove s c) :=
  State.retireEnd_walked (State.wr_walked (State.modChan_walked h ..) _ _ _ _ (SettleReg.off (by decide) (by decide))) ..

theorem State.moveFrame_walked (h : Walked s0 s) (c p : Nat) : Walked s0 (State.moveFrame s c p).2 := by
  unfold State.moveFrame
  repeat' (with_reducible first | assumption | apply State.raise_walked | apply State.takeFrame_walked | apply State.takeSpare_walked | refine WalkedO3.get ?_ (by assumption) | (extract_lets -underBinder +onlyGivenNames x; (refine (fun (hx : Walked s0 x) => ?_) ?_); (on_goal 1 => try clear_value x); (on_goal 2 => (unfold x; clear x))) | split)

theorem startMove_walked : ∀ (a0 : Nat) (a1 : State) (a2 : Nat), Walked s0 a1 → Walked s0 (startMove a0 a1 a2) := by
  intro a0
  induction a0 with
  | zero =>
    intro a1 a2 h
    rw [startMove]
    exact h
  | succ n ih =>
    intro a1 a2 h
    rw [startMove]
    repeat' (with_reducible first | assumption | apply ih | apply State.modChan_walked | apply State.setPte_walked | apply State.toMedia_walked | apply State.demote_walked | apply State.popMove_walked | apply State.moveFrame_walked | refine Walked.of_snd (by assumption) ?_ | split)

theorem State.startMoves_walked (h : Walked s0 s) : Walked s0 (State.startMoves s) := by
  unfold State.startMoves
  repeat' (with_reducible first | assumption | apply startMove_walked | apply Walked.foldl | intro _ | split)

theorem State.redoGo_walked (h : Walked s0 s) : Walked s0 (State.redoGo s) := by
  unfold State.redoGo
  repeat' (with_reducible first | assumption | apply State.startDestage_walked | apply Walked.foldl | intro _ | fail_if_no_progress (refine Walked.mk' ?_ rfl rfl) | (extract_lets -underBinder +onlyGivenNames x; (refine (fun (hx : Walked s0 x) => ?_) ?_); (on_goal 1 => try clear_value x); (on_goal 2 => (unfold x; clear x))) | split)

theorem State.discharge_walked (h : Walked s0 s) (p : Nat) (mask : Word64) : Walked s0 (State.discharge s p mask) := by
  unfold State.discharge
  repeat' (with_reducible first | assumption | refine State.wr_walked ?_ _ _ _ _ (SettleReg.core (by decide) (by decide)) | apply State.addWused_walked | apply State.setPte_walked | fail_if_no_progress (refine Walked.mk' ?_ rfl rfl) | split)

theorem State.discardPage_walked (h : Walked s0 s) (p : Nat) : Walked s0 (State.discardPage s p) := by
  unfold State.discardPage
  repeat' (with_reducible first | assumption | apply State.giveFrame_walked | apply State.setPte_walked | apply State.addT1_walked | apply State.addT2_walked | apply State.stagingEnds_walked | apply State.unmapPage_walked | apply State.dropPageLines_walked | apply State.discharge_walked | fail_if_no_progress (refine Walked.mk' ?_ rfl rfl) | (extract_lets -underBinder +onlyGivenNames x; (refine (fun (hx : Walked s0 x) => ?_) ?_); (on_goal 1 => try clear_value x); (on_goal 2 => (unfold x; clear x))) | (extract_lets -underBinder +onlyGivenNames x; try clear_value x) | split)

theorem State.discardsGo_walked (h : Walked s0 s) : Walked s0 (State.discardsGo s) := by
  unfold State.discardsGo
  repeat' (with_reducible first | assumption | apply State.discardPage_walked | apply Walked.foldl | intro _ | fail_if_no_progress (refine Walked.mk' ?_ rfl rfl) | split)

theorem State.tierWork_walked (h : Walked s0 s) : Walked s0 (State.tierWork s) := by
  unfold State.tierWork
  repeat' (with_reducible first | assumption | apply State.stagingGo_walked | apply State.readAheadGo_walked | apply State.startDestage_walked | apply State.destageGo_walked | apply State.demotesGo_walked | apply State.demoter_walked | apply State.quotaSweep_walked | apply State.pressure_walked | apply State.startMoves_walked | apply State.redoGo_walked | apply State.discardsGo_walked | apply Walked.foldl | intro _ | exact WalkedO.get (by assumption) rfl | apply WalkedO.some | (extract_lets -underBinder +onlyGivenNames x; (refine (fun (hx : WalkedO s0 x) => ?_) ?_); (on_goal 1 => try clear_value x); (on_goal 2 => (unfold x; clear x))) | split)

theorem State.tierQuiesce_walked (h : Walked s0 s) : Walked s0 (State.tierQuiesce s) := by
  unfold State.tierQuiesce
  repeat' (with_reducible first | assumption | refine State.wr_walked ?_ _ _ _ _ (SettleReg.core (by decide) (by decide)) | (extract_lets -underBinder +onlyGivenNames x; (refine (fun (hx : Walked s0 x) => ?_) ?_); (on_goal 1 => try clear_value x); (on_goal 2 => (unfold x; clear x))) | split)

/-! ### Machine/Pool.lean -/

theorem State.subLink_walked (h : Walked s0 s) (n : Nat) : Walked s0 (State.subLink s n) := h.upd rfl rfl rfl rfl

theorem State.dropHold_walked (h : Walked s0 s) (stamp qpn : Nat) : Walked s0 (State.dropHold s stamp qpn) :=
  h.upd rfl rfl rfl rfl

/-! ### Machine/KeyOps.lean -/

theorem State.drainUpdate_walked (h : Walked s0 s) : Walked s0 (State.drainUpdate s) := by
  unfold State.drainUpdate
  repeat' (with_reducible first | assumption | refine State.wr_walked ?_ _ _ _ _ (SettleReg.core (by decide) (by decide)) | fail_if_no_progress (refine Walked.mk' ?_ rfl rfl) | exact WalkedO.get (by assumption) rfl | apply WalkedO.some | (extract_lets -underBinder +onlyGivenNames x; (refine (fun (hx : WalkedO s0 x) => ?_) ?_); (on_goal 1 => try clear_value x); (on_goal 2 => (unfold x; clear x))) | (extract_lets -underBinder +onlyGivenNames x; try clear_value x) | split)

theorem State.reserveAt_walked (h : Walked s0 s) (t pool need : Nat) : Walked s0 (State.reserveAt s t pool need) := by
  unfold State.reserveAt
  repeat' (with_reducible first | assumption | refine State.wr_walked ?_ _ _ _ _ (SettleReg.core (by decide) (by decide)) | apply State.setTenant_walked | apply State.addWused_walked | (extract_lets -underBinder +onlyGivenNames x; (refine (fun (hx : Walked s0 x) => ?_) ?_); (on_goal 1 => try clear_value x); (on_goal 2 => (unfold x; clear x))) | split)

theorem State.rdxCount_walked (h : Walked s0 s) (k : Nat) (n : Nat) (hk : k < 128) : Walked s0 (s.rdxCount k n) :=
  State.inc_walked h _ _ _ _ (SettleReg.core (by decide) (by simp only; omega))

/-! ### Machine/QpOps.lean -/

theorem State.modQp_walked (h : Walked s0 s) (n : Nat) (f : Qp → Qp) (hf : ∀ q, (f q).words = q.words) : Walked s0 (s.modQp n f) :=
  State.setQp_walked h n _ (hf _)

theorem State.dropOpHold_walked (h : Walked s0 s) (o : Op) (n : Nat) : Walked s0 (State.dropOpHold s o n) := by
  unfold State.dropOpHold
  split
  · exact State.dropHold_walked h ..
  · exact h

theorem State.removeOps_walked (h : Walked s0 s) (ids : List Nat) : Walked s0 (State.removeOps s ids) := by
  unfold State.removeOps
  repeat' (with_reducible first | assumption | apply State.subLink_walked | fail_if_no_progress (refine Walked.mk' ?_ rfl rfl))

theorem State.ctxUse_walked (h : Walked s0 s) (n : Nat) : Walked s0 (State.ctxUse s n).2 := by
  unfold State.ctxUse
  repeat' (with_reducible first | assumption | fail_if_no_progress (refine Walked.mk' ?_ rfl rfl) | split)

/-- The answers of a group are followed by the QP's context, staged: only a QP in ERROR goes on without, and the ACK left over follows a
group. -/
theorem releaseLoop_walked {s0 : State} : ∀ (k : Nat) (s : State) (n : Nat) (pend : Option Op), Walked s0 s → (pend = none ∨ ¬ Quiet s) →
    Walked s0 (releaseLoop k s n pend)
  | 0, s, n, none, h, _ => by rw [releaseLoop]; exact h
  | 0, s, n, some o, h, hp => by
    have hs : ¬ Quiet s := hp.resolve_left (by simp)
    rw [releaseLoop]
    exact .after hs (State.rdxCount_calm (State.queueTx_calm (Calm.refl s) _ _) 1 1 (by decide))
  | k + 1, s, n, pend, h, hp => by
    rw [releaseLoop]
    split
    · exact releaseLoop_walked 0 s n pend h hp
    · extract_lets isNak g r bad r' syn ends out
      split
      · split
        · rename_i h4
          have hr : Calm false r' (g.foldl (fun s o => s.dropOpHold o n) r') := (Calm.refl r').foldl (fun s o hs => State.dropOpHold_calm hs o n)
          have hq : ¬ Quiet r' := fun q => q.qps n h4
          exact .after hq (hr.trans (releaseLoop_calm k _ n none (Calm.refl _) (.inl rfl)))
        · have hs : ∀ t p, Walked s0 (releaseLoop k (State.stageQp t n) n p) := fun t p =>
            releaseLoop_walked k _ n p (State.stageQp_walked t n) (.inr (State.stage_not_quiet _ _))
          exact hs _ _
      · exact releaseLoop_walked 0 s n pend h hp

theorem State.release_walked (h : Walked s0 s) (n : Nat) : Walked s0 (s.release n) := by
  unfold State.release
  split
  · exact h
  · exact releaseLoop_walked _ _ _ _ h (.inl rfl)

/-! ### Machine/Issue.lean -/

theorem State.addOp_walked (h : Walked s0 s) (o : Op) : Walked s0 (State.addOp s o) := h.upd rfl rfl rfl rfl

theorem State.startAccs_walked (h : Walked s0 s) (o : Op) : Walked s0 (State.startAccs s o) := by
  unfold State.startAccs
  repeat' (with_reducible first | assumption | apply State.modOp_walked | apply Walked.foldl | intro _ | fail_if_no_progress (refine Walked.mk' ?_ rfl rfl))

theorem State.forward_walked (h : Walked s0 s) (o : Op) : Walked s0 (State.forward s o) :=
  (State.rdxCount_walked (State.modOp_walked h ..) _ _ (by decide)).upd rfl rfl rfl rfl

theorem State.issueFlush_walked (h : Walked s0 s) (o : Op) (persist : Bool) : Walked s0 (State.issueFlush s o persist) := by
  unfold State.issueFlush
  repeat' (with_reducible first | assumption | apply State.modOp_walked | refine State.modQp_walked ?_ _ _ (fun _ => rfl) | split)

theorem State.issueAll_walked (h : Walked s0 s) : Walked s0 (State.issueAll s) := by
  unfold State.issueAll
  repeat' (with_reducible first | assumption | apply State.modOp_walked | apply State.startAccs_walked | apply State.forward_walked | apply State.issueFlush_walked | apply Walked.foldl | intro _ | (extract_lets -underBinder +onlyGivenNames x; try clear_value x) | split)

/-! ### Machine/LinkOps.lean -/

theorem State.setStrand_walked (h : Walked s0 s) (n : Nat) (v : Strand) : Walked s0 (State.setStrand s n v) :=
  h.upd rfl rfl rfl rfl

theorem State.linkCtr_walked (h : Walked s0 s) (k : Nat) (n : Nat) (hk : k < 128) : Walked s0 (s.linkCtr k n) :=
  State.inc_walked h _ _ _ _ (SettleReg.core (by decide) (by simp only; omega))

theorem State.putFrame_walked (h : Walked s0 s) (n : Nat) (vc vseq epoch blocks : Nat) (b : LinkBody) : Walked s0 (State.putFrame s n vc vseq epoch blocks b) := by
  unfold State.putFrame
  repeat' (with_reducible first | assumption | apply State.emit_walked | apply State.setStrand_walked | refine State.linkCtr_walked ?_ _ _ (by decide))

theorem drainQueue_walked : ∀ (a0 : Nat) (a1 : State), Walked s0 a1 → Walked s0 (drainQueue a0 a1) := by
  intro a0
  induction a0 with
  | zero =>
    intro a1 h
    rw [drainQueue]
    exact h
  | succ n ih =>
    intro a1 h
    rw [drainQueue]
    repeat' (with_reducible first | assumption | apply ih | apply State.subLink_walked | apply State.putFrame_walked | fail_if_no_progress (refine Walked.mk' ?_ rfl rfl) | split)

theorem State.sendChain_walked (h : Walked s0 s) (epoch : Nat) (b : LinkBody) (cells rsv : Nat) : Walked s0 (State.sendChain s epoch b cells rsv) := by
  unfold State.sendChain
  repeat' (with_reducible first | assumption | apply drainQueue_walked | fail_if_no_progress (refine Walked.mk' ?_ rfl rfl))

theorem State.sendLink_walked (h : Walked s0 s) (epoch : Nat) (b : LinkBody) : Walked s0 (State.sendLink s epoch b) :=
  State.sendChain_walked h ..

/-! ### Machine/ChainOps.lean -/

theorem State.setRun_walked (h : Walked s0 s) (i : Nat) (r : Run) : Walked s0 (State.setRun s i r) := h.upd rfl rfl rfl rfl

theorem State.deviceSend_walked (h : Walked s0 s) (n : Nat) (payload : List Byte) (chain : Option Nat) : Walked s0 (s.deviceSend n payload chain) := by
  unfold State.deviceSend
  dsimp only
  split
  · exact State.sendNow_walked _ _ _ _
  · exact State.modQp_walked (State.ctxUse_walked h n) _ _ (fun _ => rfl)

theorem State.addChainOps_walked (h : Walked s0 s) (i : Nat) (k : OpKind) (cls tenant pool len : Nat) (data : List Byte) (cmp swap : Word64) : Walked s0 (State.addChainOps s i k cls tenant pool len data cmp swap) := by
  unfold State.addChainOps
  repeat' (with_reducible first | assumption | apply State.setTenant_walked | apply State.addWused_walked | apply State.addOp_walked | apply State.setRun_walked | apply Walked.foldl | intro _ | (extract_lets -underBinder +onlyGivenNames x; (refine (fun (hx : Walked s0 x) => ?_) ?_); (on_goal 1 => try clear_value x); (on_goal 2 => (unfold x; clear x))) | split)

theorem State.notifySend_walked (h : Walked s0 s) (i n : Nat) (payload : List Byte) : Walked s0 (State.notifySend s i n payload) :=
  State.deviceSend_walked (State.setRun_walked h ..) ..

theorem State.chainPoison_walked (h : Walked s0 s) (i cls pool : Nat) : Walked s0 (State.chainPoison s i cls pool).1 := by
  unfold State.chainPoison
  repeat' (with_reducible first | assumption | exact State.stage_walked _ _ | apply State.reserveAt_walked | apply State.setRun_walked | apply State.addChainOps_walked | (extract_lets -underBinder +onlyGivenNames x; (refine (fun (hx : Walked s0 x) => ?_) ?_); (on_goal 1 => try clear_value x); (on_goal 2 => (unfold x; clear x))) | split)

theorem State.chainOpsDone_walked (h : Walked s0 s) (i : Nat) (g : List Op) : Walked s0 (State.chainOpsDone s i g) := by
  unfold State.chainOpsDone
  repeat' (with_reducible first | assumption | apply State.removeOps_walked | apply State.setRun_walked | exact State.chainFail_walked _ _ _ | exact State.chainStepDone_walked _ _ | apply State.addChainOps_walked | apply State.notifySend_walked | apply State.chainPoison_walked | refine Walked.of_fst (by assumption) ?_ | exact WalkedO.get (by assumption) rfl | apply WalkedO.some | (extract_lets -underBinder +onlyGivenNames x; (refine (fun (hx : WalkedO s0 x) => ?_) ?_); (on_goal 1 => try clear_value x); (on_goal 2 => (unfold x; clear x))) | (extract_lets -underBinder +onlyGivenNames x; try clear_value x) | split)

/-! ### Machine/EpochOps.lean -/

theorem State.twinCtr_walked (h : Walked s0 s) (k : Nat) (n : Nat) (hk : k < 128) : Walked s0 (s.twinCtr k n) :=
  State.inc_walked h _ _ _ _ (SettleReg.core (by decide) (by simp only; omega))

/-- An epoch opened stands among the epochs. -/
theorem State.openNext_walked (h : Walked s0 s) : Walked s0 s.openNext := by
  unfold State.openNext
  extract_lets n recs src s1 held src2 s2 s3
  split
  · exact h
  · have h1 : ¬ Quiet s1 := fun q => by
      have hm := q.mark
      simp [s1] at hm
    have h2 : Calm false s1 s2 := (Calm.refl s1).upd rfl rfl rfl rfl
    have h3 : Calm false s1 s3 := h2.foldl (fun s c hs => State.stageSetting_calm hs _ _ _ _)
    exact .after h1 (State.wr_calm h3 _ _ _ _ Apart.none)

theorem State.sendHeartbeat_walked (h : Walked s0 s) : Walked s0 s.sendHeartbeat := by
  unfold State.sendHeartbeat
  split
  · exact h
  · exact (State.sendLink_walked h _ _).upd rfl (congrArg pairMark (s.sendLink_pair _ _)).symm rfl rfl

theorem State.stageWused_walked (h : Walked s0 s) : Walked s0 s.stageWused := by
  unfold State.stageWused
  refine h.foldl (fun s e hs => ?_)
  split
  · exact hs
  · exact (State.stage_walked _ _).upd rfl rfl rfl rfl

theorem State.closeEpoch_walked (h : Walked s0 s) (early fin drill : Bool) : Walked s0 (s.closeEpoch early fin drill) := by
  unfold State.closeEpoch
  split
  · exact h
  · extract_lets s1
    have h1 : Walked s0 s1 := .ite (fun _ => State.stageWused_walked h) (fun _ => h)
    clear_value s1
    split
    · exact h1
    · rename_i e _
      extract_lets s2 s3 p3 s4 s5 s6
      have h2 : Walked s0 s2 := .ite (fun _ => h1) (fun _ => h1.foldl (fun s _ hs => State.sendLink_walked hs _ _))
      clear_value s2
      have h3 : Walked s0 s3 := .ite (fun _ => h2) (fun _ => State.sendLink_walked h2 _ _)
      clear_value s3
      have h4 : Walked s3 s4 := by
        refine ⟨⟨fun q => ⟨?_, q.owed, q.qps⟩, fun _ _ _ _ => rfl⟩, fun _ _ _ => rfl⟩
        have hm := q.mark
        simp only [s4, p3, pairMark, Prod.mk.injEq, List.map_eq_nil_iff] at hm ⊢
        exact hm
      clear_value s4
      have h5 : Walked s0 s5 := State.twinCtr_walked (h3.trans h4) 0 1 (by decide)
      have h6 : Walked s0 s6 := .ite (fun _ => State.twinCtr_walked h5 1 1 (by decide)) (fun _ => h5)
      exact State.sendHeartbeat_walked (State.openNext_walked h6)

theorem State.releaseRegion_walked (h : Walked s0 s) (m : Move) : Walked s0 (State.releaseRegion s m) := by
  unfold State.releaseRegion
  repeat' (with_reducible first | assumption | exact State.stage_walked _ _ | fail_if_no_progress (refine Walked.mk' ?_ rfl rfl) | (extract_lets -underBinder +onlyGivenNames x; try clear_value x) | split)

theorem State.moveStep_walked (h : Walked s0 s) : Walked s0 (State.moveStep s) :=
  h.foldl (fun _ _ hs => State.releaseRegion_walked hs ..)

theorem confirmLoop_walked {s0 : State} : ∀ (k : Nat) (s : State), Walked s0 s → Walked s0 (confirmLoop k s)
  | 0, s, h => State.openNext_walked h
  | k + 1, s, h => by
    rw [confirmLoop]
    split
    · split
      · exact .after (State.confirmOne_not_quiet s _) (confirmLoop_calm k _ (Calm.refl _))
      · exact State.openNext_walked h
    · exact State.openNext_walked h

theorem State.confirmAll_walked (h : Walked s0 s) : Walked s0 (State.confirmAll s) := by
  unfold State.confirmAll
  repeat' (with_reducible first | assumption | apply confirmLoop_walked)

theorem State.mirrorWork_walked (h : Walked s0 s) : Walked s0 s.mirrorWork := by
  unfold State.mirrorWork
  split
  · exact h
  · refine State.confirmAll_walked (State.moveStep_walked ?_)
    split
    · exact State.closeEpoch_walked h _ _ _
    · exact h

/-! ### Machine/Rister.lean -/

theorem walked_queueSafe : QueueSafe Walked where
  refl := .refl
  trans := .trans
  setRq s _ _ := (Walked.refl s).upd rfl rfl rfl rfl
  emit s _ := State.emit_walked (.refl s) _
  msix s _ := State.msix_walked (.refl s) _
  queueErr s := State.raise_walked (.refl s) 0 1
  wrQueue s f v q hp ho := State.wr_walked (.refl s) f v 0 _ (SettleReg.queue q hp ho)

theorem State.finishCmd_walked (h : Walked s0 s) (q status result : Nat) : Walked s0 (State.finishCmd s q status result) :=
  h.trans (walked_queueSafe.finishCmd ..)

/-! ### Machine/CacheWork.lean -/

theorem State.setCacheSt_walked (h : Walked s0 s) (st : Nat) : Walked s0 (State.setCacheSt s st) :=
  State.wr_walked (State.wr_walked h _ _ _ _ (SettleReg.core (by decide) (by decide))) _ _ _ _ (SettleReg.core (by decide) (by decide))

theorem cleanRound_walked : ∀ (a0 : List Nat) (a1 : State), Walked s0 a1 → Walked s0 (cleanRound a0 a1) := by
  intro a0
  induction a0 with
  | nil =>
    intro a1 h
    rw [cleanRound]
    exact h
  | cons x xs ih =>
    intro a1 h
    rw [cleanRound]
    repeat' (with_reducible first | assumption | apply ih | apply State.writeBackWay_walked | split)

theorem State.cleaner_walked (h : Walked s0 s) : Walked s0 (State.cleaner s) := by
  unfold State.cleaner
  repeat' (with_reducible first | assumption | apply cleanRound_walked | apply Walked.foldl | intro _ | fail_if_no_progress (refine Walked.mk' ?_ rfl rfl) | split)

theorem State.drainWay_walked (h : Walked s0 s) (i : Nat) : Walked s0 (State.drainWay s i) := by
  unfold State.drainWay
  repeat' (with_reducible first | assumption | apply State.invalidate_walked | apply State.writeBackWay_walked | split)

theorem State.drainGo_walked (h : Walked s0 s) : Walked s0 (State.drainGo s) := by
  unfold State.drainGo
  repeat' (with_reducible first | assumption | refine State.wr_walked ?_ _ _ _ _ (SettleReg.core (by decide) (by decide)) | apply State.bumpGen_walked | apply State.raise_walked | apply State.setCacheSt_walked | apply State.drainWay_walked | apply Walked.foldl | intro _ | exact WalkedO.get (by assumption) rfl | apply WalkedO.some | (extract_lets -underBinder +onlyGivenNames x; (refine (fun (hx : WalkedO s0 x) => ?_) ?_); (on_goal 1 => try clear_value x); (on_goal 2 => (unfold x; clear x))) | split)

theorem State.cmdLine_walked (h : Walked s0 s) (c : CacheCmd) (k : Nat) : WalkedO1 s0 (State.cmdLine s c k) := by
  unfold State.cmdLine
  repeat' (with_reducible first | assumption | apply State.invalidate_walked | apply State.writeBackWay_walked | exact WalkedO1.none | apply WalkedO1.some | (extract_lets -underBinder +onlyGivenNames x; (refine (fun (hx : Walked s0 x) => ?_) ?_); (on_goal 1 => try clear_value x); (on_goal 2 => (unfold x; clear x))) | (extract_lets -underBinder +onlyGivenNames x; try clear_value x) | split)

theorem cmdLines_walked : ∀ (a0 : List Nat) (a1 : State) (a2 : CacheCmd) (a3 : List Nat), Walked s0 a1 → Walked s0 (cmdLines a0 a1 a2 a3).1 := by
  intro a0
  induction a0 with
  | nil =>
    intro a1 a2 a3 h
    rw [cmdLines]
    exact h
  | cons x xs ih =>
    intro a1 a2 a3 h
    rw [cmdLines]
    repeat' (with_reducible first | assumption | apply ih | apply State.cmdLine_walked | refine WalkedO1.get ?_ (by assumption) | split)

theorem State.cmdsGo_walked (h : Walked s0 s) : Walked s0 (State.cmdsGo s) := by
  unfold State.cmdsGo
  repeat' (with_reducible first | assumption | apply State.finishCmd_walked | apply cmdLines_walked | apply Walked.foldl | intro _ | fail_if_no_progress (refine Walked.mk' ?_ rfl rfl) | refine Walked.of_fst (by assumption) ?_ | (extract_lets -underBinder +onlyGivenNames x; try clear_value x) | split)

theorem State.cacheWork_walked (h : Walked s0 s) : Walked s0 (State.cacheWork s) :=
  State.cmdsGo_walked (State.drainGo_walked (State.cleaner_walked h ..) ..) ..

/-! ### Machine/Settle.lean -/

theorem State.sendForwards_walked (h : Walked s0 s) : Walked s0 (State.sendForwards s) := by
  unfold State.sendForwards
  repeat' (with_reducible first | assumption | refine State.inc_walked ?_ _ _ _ _ (SettleReg.core (by decide) (by decide)) | apply State.sendLink_walked | apply Walked.foldl | intro _ | fail_if_no_progress (refine Walked.mk' ?_ rfl rfl) | (extract_lets -underBinder +onlyGivenNames x; (refine (fun (hx : Walked s0 x) => ?_) ?_); (on_goal 1 => try clear_value x); (on_goal 2 => (unfold x; clear x))) | (extract_lets -underBinder +onlyGivenNames x; have ho : x.opened = x.opened := rfl) | split)

theorem State.endHolds_walked (h : Walked s0 s) : Walked s0 (State.endHolds s) := by
  unfold State.endHolds
  repeat' (with_reducible first | assumption | apply State.modOp_walked | apply State.dropOpHold_walked | apply Walked.foldl | intro _ | split)

theorem State.placedOps_walked (h : Walked s0 s) : Walked s0 (State.placedOps s) := by
  unfold State.placedOps
  repeat' (with_reducible first | assumption | exact State.placedHost_walked _ _ _ | apply Walked.foldl | intro _ | split)

theorem State.finishAll_walked (h : Walked s0 s) : Walked s0 s.finishAll := by
  unfold State.finishAll
  extract_lets s1 s2 s3 s4 qs
  have h1 : Walked s0 s1 := State.endHolds_walked (State.placedOps_walked h)
  have h2 : Walked s0 s2 := h1.foldl (fun s o hs => by
    dsimp only
    split
    · exact .ite (fun _ => State.modQp_walked (State.removeOps_walked hs _) _ _ (fun _ => rfl)) (fun _ => hs)
    · refine .ite (fun _ => ?_) (fun _ => hs)
      split
      · exact .vacuous (State.fwdAnswer_not_quiet _ _ _ _ _ _)
      · exact .ite (fun _ => hs) (fun _ => State.raise_walked (State.modOp_walked hs _ _) _ _)
    · exact .ite (fun _ => State.removeOps_walked hs _) (fun _ => hs)
    · exact hs)
  have h3 : Walked s0 s3 := h2.foldl (fun s g hs => State.chainOpsDone_walked hs _ _)
  have h4 : Walked s0 s4 := h3.foldl (fun s e hs => by
    split
    · exact .ite (fun _ => State.chainStepDone_walked _ _) (fun _ => hs)
    · exact .ite (fun _ => State.chainFail_walked _ _ _) (fun _ => hs))
  exact h4.foldl (fun s n hs => State.release_walked hs n)

theorem settleLoop_walked : ∀ (a0 : Nat) (a1 : State), Walked s0 a1 → Walked s0 (settleLoop a0 a1) := by
  intro a0
  induction a0 with
  | zero =>
    intro a1 h
    rw [settleLoop]
    exact h
  | succ n ih =>
    intro a1 h
    rw [settleLoop]
    repeat' (with_reducible first | assumption | apply ih | apply State.pump_walked | apply State.issueAll_walked | apply State.sendForwards_walked | apply State.finishAll_walked | refine Walked.of_fst (by assumption) ?_ | (extract_lets -underBinder +onlyGivenNames x; (refine (fun (hx : Walked s0 x) => ?_) ?_); (on_goal 1 => try clear_value x); (on_goal 2 => (unfold x; clear x))) | (extract_lets -underBinder +onlyGivenNames x; try clear_value x) | split)

theorem State.drainDone_walked (h : Walked s0 s) : Walked s0 (State.drainDone s) := by
  unfold State.drainDone
  repeat' (with_reducible first | assumption | apply State.drainUpdate_walked | apply State.finishCmd_walked | apply Walked.foldl | intro _ | fail_if_no_progress (refine Walked.mk' ?_ rfl rfl) | (extract_lets -underBinder +onlyGivenNames x; try clear_value x) | split)

theorem State.batchDone_walked (h : Walked s0 s) : Walked s0 (State.batchDone s) := by
  unfold State.batchDone
  repeat' (with_reducible first | assumption | apply State.bumpGen_walked | apply State.finishCmd_walked | apply Walked.foldl | intro _ | fail_if_no_progress (refine Walked.mk' ?_ rfl rfl) | (extract_lets -underBinder +onlyGivenNames x; have ho : x.opened = x.opened := rfl) | split)

theorem State.tableDone_walked (h : Walked s0 s) : Walked s0 (State.tableDone s) := by
  unfold State.tableDone
  repeat' (with_reducible first | assumption | apply State.finishCmd_walked | apply Walked.foldl | intro _ | fail_if_no_progress (refine Walked.mk' ?_ rfl rfl))

theorem State.runOn_walked (h : Walked s0 s) : Walked s0 (State.runOn s) := by
  unfold State.runOn
  repeat' (with_reducible first | assumption | apply settleLoop_walked)

theorem State.mirQuiesce_walked (h : Walked s0 s) : Walked s0 (State.mirQuiesce s) := by
  unfold State.mirQuiesce
  split
  · exact State.wr_walked h _ _ _ _ (SettleReg.core (by decide) (by decide))
  · exact h

theorem State.settle_walked (h : Walked s0 s) : Walked s0 (State.settle s) := by
  unfold State.settle
  repeat' (with_reducible first | assumption | exact Walked.refl _ | apply State.tierWork_walked | apply State.tierQuiesce_walked | apply State.mirrorWork_walked | apply State.cacheWork_walked | apply State.drainDone_walked | apply State.batchDone_walked | apply State.tableDone_walked | apply State.runOn_walked | apply State.mirQuiesce_walked | (extract_lets -underBinder +onlyGivenNames x; (refine (fun (hx : Walked s0 x) => ?_) ?_); (on_goal 1 => try clear_value x); (on_goal 2 => (unfold x; clear x))) | (extract_lets -underBinder +onlyGivenNames x; have hd : x.dram = x.dram := rfl) | (extract_lets -underBinder +onlyGivenNames x; try clear_value x) | split)


end

end Sys2Proof.Machine
end

section
/-! PROOFS. A page moved out of a frame of a channel that the U96 does not have: O58 fails. -/

namespace Sys2Proof.Machine

theorem State.retireDone_walked {s0 s : State} (h : Walked s0 s) (c : Nat) : Walked s0 (s.retireDone c) :=
  (State.modChan_walked h c _).foldl (fun _ e hs => State.finishCmd_walked hs e.1 stOk e.2.2)

/-- What ends Quiet after the moves start, a retirement completes and all settles, had PG_EVT of a page of no block as it ends. -/
theorem State.flagged_of_moves_settle_quiet {v x : State} {c : Nat} (e : (v.startMoves.retireDone c).settle = x) (q : Quiet x) {p : Nat} (n : Nat) (hp : 0x40 ≤ p)
    (hb : blockOf p = none) : v.flagged p n = x.flagged p n := by
  have hwalk : Walked v x := e ▸ State.settle_walked (State.retireDone_walked (State.startMoves_walked (Walked.refl v)) c)
  have hkey : ¬ SettleReg (regKey p 0x20) := by
    have hpage : regKey p 0x20 / 0x10000 = p := by
      simp only [regKey]
      omega
    have hoff : regKey p 0x20 % 0x10000 = 0x20 := by
      simp only [regKey]
      omega
    unfold SettleReg
    rw [hpage, hoff, hb]
    have hlow : 0x400000 ≤ regKey p 0x20 := by
      simp only [regKey]
      omega
    have hrow : regKey p 0x20 % 64 = 0x20 := by
      simp only [regKey]
      omega
    simp [settleOff, hrow, hlow]
  exact congrArg (fun w => bit w n) (hwalk.regs q _ hkey).symm

/-- Page 0 of the pool is being copied out of a frame of channel 48, which the U96 does not have; it has no copy on NAND, and there is no twin. -/
def moveOfNoChannel : State :=
  let r := State.reset.wr DCH_MIGRATE_RATE_MB 1
  { r with
    tier := { r.tier with pt := [(0, { st := .moving })], chans := [(48, { moveTo := some ⟨some 0, 0, 0, 0, none⟩ })] }
    pair := { opened := true } }

/-- The move, its line 0 unreadable, ends Quiet, and no event of page 0x70 is raised: it is the page of no block. -/
theorem moveOfNoChannel_ends : Quiet (moveOfNoChannel.migrationPage 48 [0] []) ∧ (moveOfNoChannel.migrationPage 48 [0] []).flagged 0x70 11 = false :=
  ⟨.of_no_qps (by decide +kernel) (by decide +kernel) (by decide +kernel), by decide +kernel⟩

/-- Refutes O58 by its clause on a page moved out of a retiring rank, which speaks of every channel number: a line of a page of channel 48 is poisoned,
and event 11 of that channel's page, which no block has, is not raised. No rule moves a page there; the statement is about every state, those no run
reaches too. That what follows leads there from a state in which that flag stands is excluded by what settling keeps (`State.settle_walked`). -/
theorem not_fetchDestageAndMove : ¬ Obligations.FetchDestageAndMove := by
  intro h
  obtain ⟨-, -, -, -, -, -, -, -, -, -, -, hmove, -⟩ := h moveOfNoChannel
  obtain ⟨v, hexec, -, -, -, -, hlines⟩ := hmove 48 [0] [] 0 0 0 0 none rfl rfl (by decide +kernel) (.inl (by decide +kernel)) (by decide)
  obtain ⟨-, -, -, hpoison⟩ := hlines 0 (by decide)
  obtain ⟨-, hflag⟩ := hpoison (by simp) (fun hnand => absurd hnand.1 (by decide)) (by decide +kernel)
  obtain ⟨hquiet, hclear⟩ := moveOfNoChannel_ends
  have hsame := State.flagged_of_moves_settle_quiet (Host.Outcome.next.inj hexec).symm hquiet 11 (p := 0x70) (by decide) (by decide)
  exact absurd (hflag.symm.trans (hsame.trans hclear)) (by decide)

end Sys2Proof.Machine
end
